-- ==== Sys2Proof/Word.lean ====
section
/-!
DEFINITION. The word types of the model and the sparse map that holds memories and numbered objects.
-/
namespace Sys2Proof

/-- One byte of scratchpad, HBM or a message. -/
abbrev Byte := BitVec 8
/-- A 16-bit field: a tile ID (R8), a format word (R33). -/
abbrev W16 := BitVec 16
/-- A 32-bit register. -/
abbrev W32 := BitVec 32
/-- A 64-bit register. -/
abbrev W64 := BitVec 64

/-- Sparse data by number: (key, value) pairs, keys strictly rising, no value equal to what an
unlisted key reads as. The default is an argument of every operation. -/
abbrev SMap (α : Type) := List (Nat × α)

end Sys2Proof
end

