-- ==== Sys2Proof/Syntax.lean ====
section
/-!
DEFINITION. The commands of the module: one constructor of `Instr` per row of spec/opcode_table.json.
-/
namespace Sys2Proof

/-- What every slot of a bundle carries beside its own fields (R137), and the other slot of the same bundle. -/
structure SlotHdr where
  /-- The tile whose core issues the bundle (R8). -/
  tile : W16
  /-- True when the command stands in the engine slot, false in the control slot (R137). -/
  eng  : Bool
  /-- PG, the guard predicate (R137). -/
  pg   : BitVec 3
  /-- PN, inverts the guard (R137). -/
  pn   : Bool
  /-- A reserved bit, or a field that must be zero, of the slot is set (R176). -/
  rsv  : Bool
  /-- The 64 bits of the other slot of the bundle (R137); all zeros is a NOP (R138). -/
  mate : W64
deriving DecidableEq, Repr

/-- The fields of a VALU slot (R154). -/
structure VArg where
  vd : BitVec 4
  va : BitVec 4
  vb : BitVec 4
  lw : BitVec 2
  gs : BitVec 5
  bc : Bool
  sh : BitVec 6
deriving DecidableEq, Repr

/-- The fields of an ENG slot (R161). -/
structure EngArg where
  gA : BitVec 5
  gB : BitVec 5
  gC : BitVec 5
  ovr : BitVec 4
  doneEn : Bool
  done : BitVec 6
  imm : BitVec 24
deriving DecidableEq, Repr

/-- The engines of a tile that hold a queue (R162). -/
inductive EngUnit where
  | press
  | conv
  | wide
deriving DecidableEq, Repr

/-- Who sends a register write or an access (R480): a control-die core (0-15 application, 16-17 management),
the management port, a verified command token performed by the management firmware. -/
inductive Writer where
  | core (c : Fin 18)
  | port
  | token
deriving DecidableEq, Repr

/-- A source of management requests: an address and a UDP port (R526). -/
structure DdpSource where
  addr : BitVec 128
  port : BitVec 16
deriving DecidableEq, Repr

/-- The header fields of a management request other than OP and VERSION (R523). -/
structure DdpReq where
  src : DdpSource
  seq : W16
  index : W16
  sub : BitVec 8
  inst : W16
  offset : W32
deriving DecidableEq, Repr

/-- What start-up found of one die (R427-R429, R447): answered, straps, record and PLL good, self-test, stack training. -/
structure DieFound where
  answers : Bool
  /-- DIE.ID of R428 as its straps give it. -/
  straps : BitVec 4
  /-- Every neighbour it reports lies where R19 places it. -/
  placed : Bool
  pll : Bool
  /-- Both halves have a tile-map record whose signature verifies (R429). -/
  mapOk : Bool
  /-- Self-test of the die as a whole passed (R448). -/
  bist : Bool
  /-- Tiles that fail self-test: half × 1,024 + index (R444). -/
  badTiles : List Nat
  /-- The stack trained (R325, R448). -/
  stackOk : Bool
  /-- Spare lanes that each channel of it has left (R322). -/
  spares : List Byte
  /-- Bit e: edge e, toward a neighbour, trains; the wire pairs that fail, by edge and link (R424, R444). -/
  edgesOk : BitVec 16
  pairs : List (Fin 16 × Fin 24)
  /-- Its UCIe module, if it has one, trains (R444). -/
  ucieOk : Bool
  /-- The time that a rejoin takes, in ns (R444). -/
  took : Nat
deriving DecidableEq, Repr

/-- Records of the configuration flash whose absence changes what start-up makes (R492); a half's tile map is DieFound's. -/
inductive FlashRec where
  | repair (stack : Fin 12)
  | role (port : Fin 24)
  | slot
  | autostart
  | power
  | owner
deriving DecidableEq, Repr

/-- What a start-up meets outside the module's own state (R447, R448, R498, R499). -/
structure StartFound where
  /-- 36 V input in range when MOD_RESET_N rises (R438). -/
  inRange : Bool
  slotId : BitVec 6
  refSel : Bool
  /-- Known-answer tests, PUF and monotonic region (R491, R494, R512). -/
  katOk : Bool
  pufOk : Bool
  monoOk : Bool
  /-- The images of slot A and of slot B verify (R497, R499). -/
  slotAOk : Bool
  slotBOk : Bool
  /-- Flash records whose signatures fail (R492). -/
  badRecords : List FlashRec
  /-- Rails that do not reach regulation in the ramp (R556). -/
  badRails : List (Fin 28)
  baseDiesOk : Bool
  refOk : Bool
  dies : List DieFound
  /-- Bit e: edge e trains; the wire pairs that fail, by edge and link (R424, R448). -/
  edgesOk : BitVec 16
  pairs : List (Fin 16 × Fin 24)
  /-- Bit u: UCIe module u trains. -/
  ucieOk : BitVec 4
  /-- Duplicate address detection finds the address of the management port free (R522). -/
  addrFree : Bool
deriving DecidableEq, Repr

/-- What a training attempt of a port ended with (R343-R346, R348). -/
structure TrainResult where
  /-- The good masks of this end and of its partner (R343). -/
  good : BitVec 8
  theirs : BitVec 8
  /-- The epoch the other end proposed. -/
  epoch : BitVec 8
  /-- The partner's SLOT_ID, port number and reported last SEQ. -/
  slotId : BitVec 6
  pport : BitVec 5
  lastSeq : BitVec 12
  /-- Either end reported a link reset (R346). -/
  linkReset : Bool
deriving DecidableEq, Repr

/-- A Tizal flit as it arrives (R335, R336). -/
structure Flit where
  typ : BitVec 2
  vl : BitVec 2
  seq : BitVec 12
  ack : BitVec 12
  nak : Bool
  crVl : BitVec 2
  crCount : BitVec 3
  sbEpoch : BitVec 8
  sbWidth : BitVec 4
  sbSlot : BitVec 6
  len : BitVec 12
  payload : List Byte
deriving DecidableEq, Repr

/-- Why a flit is discarded on arrival (R340, R361). -/
inductive FlitFault where
  /-- A codeword of it is uncorrectable. -/
  | fec
  /-- Its CRC fails. -/
  | crc
deriving DecidableEq, Repr

/-- What the port's decoding of a flit found (R340, R361): the codewords corrected in it, and why it is discarded, if it is. -/
structure FlitCheck where
  corrected : Nat
  fault : Option FlitFault
deriving DecidableEq, Repr

/-- One entry's accumulator as a module exchanges it for a node-scope close (R97, R98). -/
structure PeerAcc where
  widx : Nat
  reported : Bool
  bound : Option Int
  sat : Nat
  nonzero : Bool
deriving DecidableEq, Repr

/-- What a packet on the control lane carries (R338). -/
inductive CtrlMsg where
  /-- An L6 weir arrival of a peer module for an epoch, to the root module (R245, R248). -/
  | weirArrive (peer : BitVec 2) (weir : BitVec 12) (epoch : BitVec 4)
  /-- An L6 weir release from the root module, with or without MEMBER_LOST (R251, R263). -/
  | weirRelease (weir : BitVec 12) (epoch : BitVec 4) (lost : Bool)
  /-- A peer loaded its members of an L6 weir (R248). -/
  | weirLoaded (peer : BitVec 2) (weir : BitVec 12)
  /-- An L6 weir enters FAULT state, or ORPHANED state, on every module of its span (R260, R265). -/
  | weirStopped (weir : BitVec 12) (orphaned : Bool)
  /-- The accumulator of one entry of a peer, for a node-scope close (R97). -/
  | watchExchange (peer : BitVec 2) (job : BitVec 2) (step : W64) (entries : List PeerAcc)
  /-- A module tells its SLOT_ID to the partner of a port that has come UP. -/
  | discovery (slot : BitVec 6)
  /-- A peer asks for an answer, or answers (R350). -/
  | liveness (ask : Bool)
  /-- A message between the control dies' firmware. -/
  | firmware (bytes : List Byte)
deriving DecidableEq, Repr

/-- The key of a gathering (R368). -/
structure GKey where
  job : BitVec 2
  step : W32
  id : W16
  layout : W16
deriving DecidableEq, Repr

/-- What a gathering packet carries beside its key and attempt (R372-R377, R386, R390). -/
inductive GBody where
  /-- Score chunk c: block scores (up) or totals (down). -/
  | score (chunk : Nat) (vals : List Int)
  /-- An exponent proposal (up) or the shared exponent (down), with the contributors counted (R380). -/
  | expo (e : Int) (contrib : Nat)
  /-- Data chunk c: I24 elements (up) or I32 sums (down). -/
  | data (chunk : Nat) (vals : List Int)
  /-- Shard chunk c: bytes. -/
  | shard (chunk : Nat) (bytes : List Byte)
  /-- Every participant learns that the source has no such entry (R390). -/
  | noShard
deriving DecidableEq, Repr

/-- A RoCEv2 packet as it arrives (R356-R358). -/
inductive RocePkt where
  /-- RDMA WRITE First, Middle, Last and Only by two bits; the first packet of a message gives its address, key and length. -/
  | write (qp : BitVec 12) (psn : BitVec 24) (first last : Bool) (va : BitVec 64) (rkey : W32) (len : Nat) (bytes : List Byte)
  | readReq (qp : BitVec 12) (psn : BitVec 24) (va : BitVec 64) (rkey : W32) (len : Nat)
  /-- RDMA READ Response First, Middle, Last and Only by two bits. -/
  | readResp (qp : BitVec 12) (psn : BitVec 24) (first last : Bool) (bytes : List Byte)
  | ack (qp : BitVec 12) (psn : BitVec 24)
  /-- NAK: true Remote Access Error, false Invalid Request. -/
  | nak (qp : BitVec 12) (psn : BitVec 24) (access : Bool)
  | cnp (qp : BitVec 12)
  | unsupported (qp : BitVec 12)
deriving DecidableEq, Repr

/-- A command token in the parts the island checks (R507). -/
structure Token where
  format : W16
  kind : BitVec 8
  device : BitVec 128
  nonce : BitVec 128
  ownerGen : W32
  count : W16
  bodyLen : W16
  /-- Every reserved field is zero. -/
  rsvZero : Bool
  body : List Byte
  /-- The Ed25519 and ML-DSA-65 signatures, 3,373 bytes. -/
  sigs : List Byte
deriving DecidableEq, Repr

/-- A firmware image: the manifest in the parts R496 names, and its payload hash and signatures. -/
structure Image where
  /-- The type of the entry that it is staged into. -/
  typ : BitVec 8
  /-- The type that its manifest gives. -/
  mtype : BitVec 8
  svn : W32
  version : W32
  keyIndex : BitVec 2
  keyRevoke : Bool
  manifest : List Byte
  /-- The SHA-512 of the payload that the manifest holds. -/
  hash : BitVec 512
  payload : List Byte
  keys : List Byte
  sigs : List Byte
deriving DecidableEq, Repr

/-- What reached the management port as an ICMPv6 message (R522). -/
inductive IcmpMsg where
  | neighbourSolicit (target : BitVec 128) (src : BitVec 128)
  | mldQuery (src : BitVec 128)
  | echo (src : BitVec 128) (bytes : List Byte)
  | routerAdvert
deriving DecidableEq, Repr

/-- Where a checker of R455 stands, when it misses its injected error. -/
inductive CheckerUnit where
  | tile (t : W16)
  | router (t : W16)
  | die (d : Fin 12)
  | base
  | island
deriving DecidableEq, Repr

/-- A physical access by a control-die core (R22, R314): a write of bytes, or a read into the core's sample. -/
inductive MemAccess where
  | read (len : Nat)
  | write (bytes : List Byte)
deriving DecidableEq, Repr

/-- The commands. Each constructor is one row of spec/opcode_table.json; the rule each row names is beside it. -/
inductive Instr where
  -- Scalar, R145
  | add (h : SlotHdr) (gD gA gB : BitVec 5)
  | sub (h : SlotHdr) (gD gA gB : BitVec 5)
  | and (h : SlotHdr) (gD gA gB : BitVec 5)
  | or (h : SlotHdr) (gD gA gB : BitVec 5)
  | xor (h : SlotHdr) (gD gA gB : BitVec 5)
  | shl (h : SlotHdr) (gD gA gB : BitVec 5)
  | shr (h : SlotHdr) (gD gA gB : BitVec 5)
  | sra (h : SlotHdr) (gD gA gB : BitVec 5)
  | mul (h : SlotHdr) (gD gA gB : BitVec 5)
  | mulh (h : SlotHdr) (gD gA gB : BitVec 5)
  | mulhu (h : SlotHdr) (gD gA gB : BitVec 5)
  | min (h : SlotHdr) (gD gA gB : BitVec 5)
  | max (h : SlotHdr) (gD gA gB : BitVec 5)
  | minu (h : SlotHdr) (gD gA gB : BitVec 5)
  | maxu (h : SlotHdr) (gD gA gB : BitVec 5)
  | ext (h : SlotHdr) (gD gA gB : BitVec 5)
  | dep (h : SlotHdr) (gD gA gB : BitVec 5)
  | clz (h : SlotHdr) (gD gA gB : BitVec 5)
  | popc (h : SlotHdr) (gD gA gB : BitVec 5)
  | cmpeq (h : SlotHdr) (gD gA gB : BitVec 5)
  | cmpne (h : SlotHdr) (gD gA gB : BitVec 5)
  | cmplt (h : SlotHdr) (gD gA gB : BitVec 5)
  | cmpltu (h : SlotHdr) (gD gA gB : BitVec 5)
  | cmpge (h : SlotHdr) (gD gA gB : BitVec 5)
  | cmpgeu (h : SlotHdr) (gD gA gB : BitVec 5)
  | pand (h : SlotHdr) (gD gA gB : BitVec 5)
  | por (h : SlotHdr) (gD gA gB : BitVec 5)
  | pxor (h : SlotHdr) (gD gA gB : BitVec 5)
  | pnot (h : SlotHdr) (gD gA gB : BitVec 5)
  -- R146
  | aluiOp (h : SlotHdr) (op : BitVec 6) (gD gA : BitVec 5) (imm : W32)
  | li (h : SlotHdr) (gD : BitVec 5) (imm : W32)
  | lih (h : SlotHdr) (gD : BitVec 5) (imm : W32)
  -- R147
  | j (h : SlotHdr) (off : W32)
  | jl (h : SlotHdr) (gD : BitVec 5) (off : W32)
  | jr (h : SlotHdr) (gA : BitVec 5) (off : W32)
  | jlr (h : SlotHdr) (gD gA : BitVec 5) (off : W32)
  | loop (h : SlotHdr) (gD gA : BitVec 5) (off : W32)
  -- R148
  | ld (h : SlotHdr) (sz : BitVec 2) (gT gA : BitVec 5) (off : W32)
  | ldu (h : SlotHdr) (sz : BitVec 2) (gT gA : BitVec 5) (off : W32)
  | st (h : SlotHdr) (sz : BitVec 2) (gT gA : BitVec 5) (off : W32)
  -- R149-R153
  | nop (h : SlotHdr)
  | halt (h : SlotHdr)
  | haltRetire (tile : W16)
  | csrr (h : SlotHdr) (gD : BitVec 5) (csr : BitVec 12)
  | csrw (h : SlotHdr) (gA : BitVec 5) (csr : BitVec 12)
  | fenceE (h : SlotHdr)
  | fenceI (h : SlotHdr)
  -- R154
  | vadd (h : SlotHdr) (a : VArg)
  | vsub (h : SlotHdr) (a : VArg)
  | vadds (h : SlotHdr) (a : VArg)
  | vsubs (h : SlotHdr) (a : VArg)
  | vmul (h : SlotHdr) (a : VArg)
  | vmulh (h : SlotHdr) (a : VArg)
  | vmin (h : SlotHdr) (a : VArg)
  | vmax (h : SlotHdr) (a : VArg)
  | vand (h : SlotHdr) (a : VArg)
  | vor (h : SlotHdr) (a : VArg)
  | vxor (h : SlotHdr) (a : VArg)
  | vshl (h : SlotHdr) (a : VArg)
  | vsra (h : SlotHdr) (a : VArg)
  | vsrl (h : SlotHdr) (a : VArg)
  | vrsra (h : SlotHdr) (a : VArg)
  | vcmpeq (h : SlotHdr) (a : VArg)
  | vcmplt (h : SlotHdr) (a : VArg)
  | vsel (h : SlotHdr) (a : VArg)
  | vredadd (h : SlotHdr) (a : VArg)
  | vredmax (h : SlotHdr) (a : VArg)
  | vmov (h : SlotHdr) (a : VArg)
  -- R155
  | vld (h : SlotHdr) (v : BitVec 4) (gA : BitVec 5) (off : W32)
  | vst (h : SlotHdr) (v : BitVec 4) (gA : BitVec 5) (off : W32)
  | vget (h : SlotHdr) (v : BitVec 4) (gA : BitVec 5) (lw : BitVec 2) (lane : BitVec 6)
  | vgetu (h : SlotHdr) (v : BitVec 4) (gA : BitVec 5) (lw : BitVec 2) (lane : BitVec 6)
  | vput (h : SlotHdr) (v : BitVec 4) (gA : BitVec 5) (lw : BitVec 2) (lane : BitVec 6)
  | vbc (h : SlotHdr) (v : BitVec 4) (gA : BitVec 5) (lw : BitVec 2) (lane : BitVec 6)
  -- R136, R156-R159
  | chset (h : SlotHdr) (ch : BitVec 4) (gA : BitVec 5)
  | chget (h : SlotHdr) (gD : BitVec 5) (ch : BitVec 4)
  | wait (h : SlotHdr) (gD : BitVec 5) (ch : BitVec 4) (gA : BitVec 5) (hint : BitVec 2)
  | arrive (h : SlotHdr) (ch : BitVec 4)
  | arriveWait (h : SlotHdr) (gD : BitVec 5) (ch : BitVec 4) (hint : BitVec 2)
  | acntRd (h : SlotHdr) (gD : BitVec 5) (ch : BitVec 4)
  | acntAdd (h : SlotHdr) (ch : BitVec 4) (gA : BitVec 5)
  | slotDrain (h : SlotHdr) (ch : BitVec 4)
  | slotRd (h : SlotHdr) (gD : BitVec 5) (ch : BitVec 4)
  | hqPop (h : SlotHdr) (gD : BitVec 5) (ch : BitVec 4) (hint : BitVec 2)
  | hqPush (h : SlotHdr) (ch : BitVec 4) (gA : BitVec 5) (hint : BitVec 2)
  | waitRelease (tile : W16)
  | waitTimeout (tile : W16)
  | spinPeriodExpire (tile : W16)
  -- R100, R107, R160
  | gauge (h : SlotHdr) (gD gA : BitVec 5) (widx : BitVec 12)
  | gaugeStallRelease (tile : W16)
  | gaugeTimeout (tile : W16)
  | monw (h : SlotHdr) (mon : BitVec 3) (gA gB : BitVec 5)
  -- R161-R172
  | press (h : SlotHdr) (a : EngArg)
  | cvt (h : SlotHdr) (a : EngArg)
  | gutter (h : SlotHdr) (a : EngArg)
  | xpose (h : SlotHdr) (a : EngArg)
  | wclr (h : SlotHdr) (a : EngArg)
  | wld (h : SlotHdr) (a : EngArg)
  | wst (h : SlotHdr) (a : EngArg)
  | wacc (h : SlotHdr) (a : EngArg)
  | pressStart (tile : W16)
  | engineSlotResume (tile : W16) (unit : EngUnit)
  | slotTimeout (tile : W16) (unit : EngUnit)
  | pressResidueMismatch (tile : W16) (replayPasses : Bool) (rowBlocks : Nat)
  | pressComplete (tile : W16)
  | cvtUnitStart (tile : W16)
  | conversionComplete (tile : W16)
  | gutterComplete (tile : W16)
  | xposeComplete (tile : W16)
  | wideOpStart (tile : W16)
  | wideOpComplete (tile : W16)
  | widePatrol (tile : W16) (index : BitVec 12)
  -- R174, chapters 8 and 10
  | exch (h : SlotHdr) (gA : BitVec 5)
  | spost (h : SlotHdr) (gA : BitVec 5) (qid : BitVec 12)
  | rearm (h : SlotHdr) (gB : BitVec 5) (qid : BitVec 12)
  | folioEntryIssue (tile : W16)
  | exchBoundary (tile : W16)
  | xchTimeout (tile : W16)
  | routerForward (blk : Nat)
  | meshFlitCrcError (blk : Nat) (again : Bool)
  | blockWrite (blk : Nat)
  | blockSlotResume (blk : Nat)
  | addRound (tree : BitVec 10) (router : W16)
  | castPrune (blk : Nat) (port : Fin 5)
  | prunedMarkerSend (router : W16) (tree : BitVec 10) (port : Fin 5)
  | markerReceive (mk : Nat)
  | treeLoad (w : Writer) (tree : BitVec 10) (routes : List (W16 × W16))
  | weirLoad (w : Writer) (weir : BitVec 12) (cfg : W32) (members : List W16)
  | weirCounterArrival (die : Fin 12) (weir : BitVec 12) (tile : W16)
  | weirReleaseArrive (die : Fin 12) (weir : BitVec 12) (tile : Option W16)
  | windowPost (w : Writer) (die : Fin 12) (qid : BitVec 12) (desc : BitVec 512)
  | transferStart (die : Fin 12) (rec : BitVec 9)
  | reachPassStart (die : Fin 12) (reach : BitVec 10) (rec : BitVec 9)
  | transferStep (die : Fin 12) (rec : BitVec 9)
  | translationWalkDone (die : Fin 12) (rec : BitVec 9) (evict : Nat)
  | transferComplete (die : Fin 12) (rec : BitVec 9)
  | handlePushLand (die : Fin 12) (queue : BitVec 13) (tile : W16)
  | handleWindowPush (w : Writer) (die : Fin 12) (queue : BitVec 13) (tile : W16) (handle : W32)
  | faultCtlResume (w : Writer) (die : Fin 12) (tag : W32)
  | faultCtlFail (w : Writer) (die : Fin 12) (tag : W32)
  | parkTimeout (die : Fin 12) (rec : BitVec 9)
  | streamBlockParkTimeout (blk : Nat)
  | stqDrain (w : Writer) (die : Fin 12) (qid : BitVec 12)
  | stqAbort (w : Writer) (die : Fin 12) (qid : BitVec 12)
  | reachDrain (w : Writer) (die : Fin 12) (reach : BitVec 10)
  | reachAbort (w : Writer) (die : Fin 12) (reach : BitVec 10)
  | hqDrain (w : Writer) (tile : W16) (hq : BitVec 3)
  | hqAbort (w : Writer) (tile : W16) (hq : BitVec 3)
  | drainLimitExpire (die : Fin 12)
  | trnRootWrite (w : Writer) (job : BitVec 2) (value : W64)
  | trnInval (w : Writer) (value : W64)
  | hbmRequestServe (stack : Fin 12) (direct : Option (Fin 18 × BitVec 36 × MemAccess))
  | hbmWriteback (stack : Fin 12)
  | hbmRefresh (stack : Fin 12) (bank : Nat)
  | hbmPatrol (stack : Fin 12)
  | hbmCeSummary (stack : Fin 12)
  | hbmRecal (w : Option Writer) (stack : Fin 12) (trained : Bool) (failing : List (Fin 32 × Byte))
  | hbmPatrolRestart (w : Writer) (stack : Fin 12)
  | spadEccWriteback (tile : W16) (word : BitVec 16)
  | spadPatrol (tile : W16) (row : BitVec 12)
  | ctxStorePatrol (tile : W16) (job : BitVec 2)
  | watchCfgWrite (w : Writer) (widx : BitVec 12) (value : W32)
  | watchReportMerge (die : Fin 12)
  | watchClose (w : Writer) (job : BitVec 2) (step : W64)
  | watchPeerTimeout (job : BitVec 2)
  | lossCfgWrite (w : Writer) (mon : BitVec 3) (value : W32)
  | lossWindowWrite (w : Writer) (job : BitVec 2) (mon : BitVec 3) (step : W64) (value : W32) (exp : Byte)
  | tileShareWrite (w : Writer) (tile : W16) (value : W32)
  | acntCfgWrite (w : Writer) (tile : W16) (acnt : BitVec 6) (value : W32)
  | slotCfgWrite (w : Writer) (tile : W16) (slot : BitVec 6) (value : W64)
  | hqCfgWrite (w : Writer) (tile : W16) (hq : BitVec 3) (value : W32)
  | stqCfgWrite (w : Writer) (die : Fin 12) (qid : BitVec 12) (value : W64)
  | reachCfgWrite (w : Writer) (die : Fin 12) (reach : BitVec 10) (value : W64)
  -- Chapter 14
  | contextSwitch (tile : W16)
  | yieldMaxExpire (tile : W16)
  | switchLate (tile : W16)
  | yieldRegWrite (w : Writer) (tile : W16) (job : BitVec 2) (value : W64)
  | jobLoad (w : Writer) (job : BitVec 2)
  | jobResume (w : Writer) (job : BitVec 2)
  | jobPause (w : Writer) (job : BitVec 2)
  | jobUnload (w : Writer) (job : BitVec 2)
  | jobReload (w : Writer) (job : BitVec 2)
  | jobDiscard (w : Writer) (job : BitVec 2)
  | ctxResume (w : Writer) (tile : W16) (job : BitVec 2)
  | ctxRestart (w : Writer) (tile : W16) (job : BitVec 2) (pc : W64)
  | pubCfgWrite (w : Writer) (entry : BitVec 4) (value : W64)
  | publish (w : Writer) (entry : BitVec 4) (version : W32)
  | unpublish (w : Writer) (entry : BitVec 4)
  | hold (w : Writer) (entry : BitVec 4)
  | release (w : Writer) (entry : BitVec 4)
  | trnViewWrite (w : Writer) (job : BitVec 2) (value : W64)
  -- Chapter 13
  | gatherPost (w : Writer) (job : BitVec 2)
  | gatherPassDone (key : GKey)
  | collRound (key : GKey)
  | gatherPacketReceive (key : GKey) (attempt : BitVec 3) (port : Option (Fin 24)) (body : GBody)
  | gatherAbandonReceive (key : GKey)
  | gatherRestartReceive (key : GKey) (attempt : BitVec 3) (contrib : Nat)
  | gatherTimeout (key : GKey)
  | gatherStaleSummary
  | gatherReshard (w : Writer) (job : BitVec 2) (epoch : W16)
  | reshardLimitExpire (job : BitVec 2)
  | gatherPin (w : Writer) (job : BitVec 2) (step : W32) (shard : W16) (version : W32)
  | gatherRetire (w : Writer) (job : BitVec 2) (step : W32)
  | gatherDrain (w : Writer) (job : BitVec 2)
  | gatherAbort (w : Writer) (job : BitVec 2)
  | gatherAbandon (w : Writer) (job : BitVec 2) (step : W32) (id : W16)
  | gatherResume (w : Writer) (job : BitVec 2)
  | gatherDrainLimitExpire (job : BitVec 2)
  | gatherTreeWrite (w : Writer) (tree : BitVec 5) (value : W64)
  | shardEntryWrite (w : Writer) (entry : BitVec 10) (reg : BitVec 2) (value : W64)
  -- Chapter 12
  | portCfgWrite (w : Writer) (port : Fin 24) (value : W32)
  | portStart (w : Writer) (port : Fin 24)
  | stopDrain (w : Writer) (port : Fin 24)
  | stopAbort (w : Writer) (port : Fin 24)
  | retrain (w : Writer) (port : Fin 24)
  | portTrainingDone (port : Fin 24) (r : TrainResult)
  | laneLockLoss (port : Fin 24) (lane : Fin 8)
  | tzFlitReceive (port : Fin 24) (good : FlitCheck) (f : Flit)
  | tzAckTimer (port : Fin 24)
  | tzReplayTimeout (port : Fin 24)
  | tzReplaySummary (port : Fin 24)
  | ctrlMessageReceive (port : Fin 24) (m : CtrlMsg)
  | peerLost (peer : BitVec 2)
  | tzPeerWrite (w : Writer) (peer : BitVec 2) (value : W32)
  | portAddRound (dest : W16) (daddr : BitVec 24) (job : BitVec 2)
  | addLagExpire (dest : W16) (daddr : BitVec 24) (job : BitVec 2)
  | portStreamSend (die : Fin 12) (qid : BitVec 12)
  | landReceive (port : Fin 24) (landing : BitVec 8) (job : BitVec 2) (bytes : List Byte)
  | landTimeout (port : Fin 24)
  | rocePacketReceive (port : Fin 24) (ce : Bool) (p : RocePkt)
  | roceWrPost (w : Writer) (wr : BitVec 256)
  | roceRequestComplete (qp : BitVec 12)
  | roceRetryTimeout (qp : BitVec 12)
  | cnpReceive (qp : BitVec 12)
  | roceRateRecovery (qp : BitVec 12)
  | ethFrameReceive (port : Fin 24) (fcsOk : Bool) (overRate : Bool) (bytes : List Byte)
  | roceMrWrite (w : Writer) (region : BitVec 10) (reg : BitVec 2) (value : W64)
  -- Chapters 1 and 15
  | ucieModuleLoss (m : BitVec 2)
  | d2dLinkLockLoss (edge : Fin 16) (link : Fin 24) (remapped : Bool) (trains : Bool)
  | dieClockLoss (die : Fin 12)
  | heartbeatTimeout (die : Fin 12)
  | dieControlWatchdog (die : Fin 12)
  | refLoss
  | dieResetCmd (w : Writer) (die : Fin 12)
  | dieRejoinCmd (w : Writer) (die : Fin 12) (f : DieFound)
  | edgeRetrain (w : Writer) (edge : Fin 16) (trains : Option (List (Fin 24)))
  | rejoinDelayExpire (die : Fin 12) (f : DieFound)
  | clockStepChange (die : Fin 12) (half : Bool)
  | modResetFall
  | modResetRise (f : StartFound)
  -- Chapter 16
  | fenceTile (w : Writer) (tile : W16)
  | bypassRouter (w : Writer) (tile : W16)
  | errMergeEnd (cause : Byte) (unit : BitVec 4) (source : W16) (job : BitVec 2)
  | checkerSelftest (missed : Option CheckerUnit)
  | fatalResetExpire (f : StartFound)
  | mgmtCheckpoint
  | mgmtWatchdog
  | handover (w : Writer) (img : Image)
  | commit (w : Writer)
  | revert (w : Writer)
  | probationEnd
  | appWatchdog (core : Fin 16)
  | spad1 (w : Writer) (tile : W16) (bit : Byte) (addr : W32)
  | spad2 (w : Writer) (tile : W16) (bit : Byte) (addr : W32)
  | residue (w : Writer) (tile : W16)
  | meshFlit (w : Writer) (tile : W16) (bit : Byte)
  | weirCopy (w : Writer) (tile : W16) (weir : W32)
  | hbmSymbol (w : Writer) (stack : W16) (bit : Byte) (offset : W32)
  | d2dFlit (w : Writer) (edge : W16)
  | tizalFlit (w : Writer) (port : W16)
  | ctxStore2 (w : Writer) (tile : W16)
  -- Chapter 17
  | regionWrite (w : Writer) (entry : BitVec 6) (value : BitVec 128)
  | tokenWrite (t : Token)
  | tokenClaim (t : Token)
  | tokenRotate (t : Token)
  | tokenDecommission (t : Token)
  | challengeRead
  | challengeExpire
  | lockoutEnd
  | attestNonceWrite (nonce : BitVec 256)
  | attestReportReady
  | imageStage (w : Writer) (img : Image)
  | appCommit (w : Writer) (value : W32)
  | jtagBypass (code : BitVec 8)
  | jtagIdcode
  | jtagSamplePreload (pins : W64) (load : W64)
  | jtagExtest
  -- Chapter 18
  | ddpRead (r : DdpReq)
  | ddpWrite (r : DdpReq) (bytes : List Byte)
  | describe (r : DdpReq)
  | segRead (r : DdpReq) (len : Nat)
  | segWriteStart (r : DdpReq) (size : W32)
  | segWrite (r : DdpReq) (bytes : List Byte)
  | segWriteEnd (r : DdpReq) (crc : W32)
  | segAbort (r : DdpReq)
  | segTransferTimeout (index : W16) (sub : BitVec 8) (inst : W16)
  | snapshotExpire (index : W16) (sub : BitVec 8) (inst : W16)
  | discover (r : DdpReq)
  | eventAck (seq : W16)
  | eventResend (seq : W16)
  | pendingTimer
  | responseCacheExpire
  | transmitOpportunity
  | plcaBeaconTimeout
  | dadRepeat (conflict : Bool)
  | icmpv6Receive (m : IcmpMsg)
  | store (w : Writer)
  | restore (w : Writer)
  | windowLoad (core : Fin 18) (addr : BitVec 46)
  | windowStoreStage (core : Fin 18) (addr : BitVec 46) (value : W64)
  | windowStoreCommit (core : Fin 18) (addr : BitVec 46) (value : W64)
  | winDomainRead (core : Fin 18) (value : BitVec 256)
  | winDomainWrite (core : Fin 18) (value : BitVec 256)
  | winDomainCommit (core : Fin 18) (value : BitVec 256)
  | watchImageWrite (w : Writer) (job : BitVec 2) (bytes : List Byte)
  -- Chapter 19
  | powerStart (w : Writer) (f : StartFound)
  | powerStandby (w : Writer)
  | powerCfgWrite (w : Writer) (value : W32)
  | thermCfgWrite (w : Writer) (value : W32)
  | inputLow (vin : W16)
  | uvloFall
  | inputOvervoltage (island : Bool)
  | railExcursion (rail : Fin 29)
  | phaseFault (rail : Fin 29) (phase : BitVec 4)
  | budgetEval (iin pin pFixed : W16) (demand : List (Nat × Nat))
  | thermalSample (dies : List (Byte × Byte × Byte)) (control : Byte)
  | registerWrite (w : Writer) (index : W16) (sub : BitVec 8) (inst : W16) (value : BitVec 1024)
  | inputInRange (vin : W16) (f : StartFound)
  | railRegulationReturn (rail : Fin 29)
  | trainingFrameReceive (port : Fin 24)
  | treePortLost (port : Fin 24)
  | gatherWithdrawReceive (key : GKey) (port : Fin 24) (direct : Bool) (lost : Nat)
  | referenceCycle
  | islandSramPatrol (word : Nat) (bits : BitVec 2)
  | plcaBeacon
  | priorityFlowControl (port : Fin 24) (pause : Byte) (resume : Byte)
  | droppedDatagram (len : Nat)
deriving DecidableEq, Repr

end Sys2Proof
end

