-- ==== Sys2Proof/Config.lean ====
section
/-!
DEFINITION. What an implementation fixes and what the spec leaves open: constants without a body, which no proof can see.
-/
namespace Sys2Proof.Config
open Sys2Proof

/-- A free 64-bit value, fresh at each use: the model applies it to the counter State.freeCtr (log entry 3). -/
opaque freeWord : Nat → W64

/-- The choice among outcomes the manual leaves open (R209, R280): a free bit, fresh at each use. -/
opaque freeBit : Nat → Bool

/-- Verification of an Ed25519 and ML-DSA-65 signature pair: keys, message, signatures (R496, R497, R509). Log entry 12. -/
opaque sigOk : List Byte → List Byte → List Byte → Bool

/-- SHA-512 of a byte string (R491, R496, R502), FIPS 180-4, uninterpreted. Log entry 12. -/
opaque sha512 : List Byte → BitVec 512

/-- HMAC-SHA-512 of a key and a message (R502), uninterpreted. Log entry 12. -/
opaque hmacSha512 : BitVec 512 → List Byte → BitVec 512

/-- The key hash that ROM holds at a key index (R497). Log entry 12. -/
opaque romKeyHash : BitVec 2 → BitVec 512

/-- The owner key or root key bytes that verify tokens of CLAIM kind, by key index (R507). Log entry 12. -/
opaque romKeys : BitVec 2 → List Byte

/-- UDS, which the PUF reconstruction gives (R491). Log entry 12. -/
opaque uds : BitVec 512

/-- The device digest (R491). Log entry 12. -/
opaque deviceDigest : BitVec 128

/-- The alias-key signatures over a report body: 64 and 3,309 bytes (R504). Log entry 12. -/
opaque aliasSign : BitVec 512 → List Byte → List Byte

/-- The certificates of R503, by subindex of 0x1214. Log entry 12. -/
opaque certificate : Nat → BitVec 512 → List Byte

/-- The DRAM row of a 64-byte block of a stack, by its number within the stack (R312: not visible to software). Log entry 3. -/
opaque hbmRow : Nat → Nat

/-- The lane of its channel that causes a correction (R320), by the corrections counted before it and the block. Log entry 3. -/
opaque hbmLane : Nat → Nat → Byte

/-- The path MTU of a queue pair, as k in 1,024 · 2^k, and the priority its packets take (R356, R357): no register gives them. Log entry 67. -/
opaque rocePmtu : BitVec 12 → Fin 3
opaque rocePrio : BitVec 12 → Fin 8

/-- Which of the Ethernet ports that are UP carries a queue pair (R357). Log entry 67. -/
opaque rocePath : BitVec 12 → Nat

/-- Whether a dictionary entry, by index and subindex, needs the firmware's working store (R484). Log entry 42. -/
opaque needsStore : W16 → BitVec 8 → Bool

/-- Field k of the 32-byte header of an exchange-lane packet, whose layout the spec keeps from software (R337). Log entry 16. -/
opaque exchField : Nat → List Byte → W64

/-- The manifest of an image that a slot holds from manufacture, by slot (true for B) and image type (R495, R496). Log entry 5. -/
opaque flashManifest : Bool → Nat → List Byte

/-- Its SVN and version (R496). Log entry 5. -/
opaque flashSvn : Bool → Nat → W32
opaque flashVersion : Bool → Nat → W32

/-- Whether its manifest requests a rise of KEY_REVOKE, and to which index (R497). Log entry 5. -/
opaque flashRevoke : Bool → BitVec 2

/-- Fields 0 to 4 of a manifest, whose layout the spec does not give (R496): type, SVN, version, key index, a request to raise KEY_REVOKE.
Log entry 12. -/
opaque manifestField : Nat → List Byte → W32

/-- The payload hash that a manifest holds (R496). Log entry 12. -/
opaque manifestHash : List Byte → BitVec 512

/-- The signer's public keys of an image, which its manifest holds or points to (R496). Log entry 12. -/
opaque imageKeys : List Byte → List Byte

end Sys2Proof.Config
end

