-- ==== Sys2Proof/Machine/Bits.lean ====
section
/-!
DEFINITION. Bit fields, byte order (R5), sparse maps, and the CRC-32 the module uses.
-/
namespace Sys2Proof.Machine
open Sys2Proof

/-! ## Fields of a register -/

/-- Bits [lo + n - 1 : lo] of a register, as an n-bit field. -/
def fld {w : Nat} (x : BitVec w) (lo n : Nat) : BitVec n := x.extractLsb' lo n

/-- The same field as a number. -/
def fldN {w : Nat} (x : BitVec w) (lo n : Nat) : Nat := (x.extractLsb' lo n).toNat

/-- Bit i of a register. -/
def bitAt {w : Nat} (x : BitVec w) (i : Nat) : Bool := x.getLsbD i

/-- x with the bits that mask m selects taken from y. -/
def merge {w : Nat} (m x y : BitVec w) : BitVec w := (x &&& ~~~m) ||| (y &&& m)

/-- A mask of n bits from bit lo upward. -/
def maskAt (w lo n : Nat) : BitVec w := BitVec.ofNat w ((2 ^ n - 1) * 2 ^ lo)

/-- x with field [lo + n - 1 : lo] set to v. -/
def setFld {w : Nat} (x : BitVec w) (lo n v : Nat) : BitVec w := merge (maskAt w lo n) x (BitVec.ofNat w ((v % 2 ^ n) * 2 ^ lo))

/-- A field at a place in a word being built. -/
def at' (w lo : Nat) {n : Nat} (v : BitVec n) : BitVec w := BitVec.ofNat w (v.toNat * 2 ^ lo)

/-- A truth value as one bit. -/
def b2 (b : Bool) : BitVec 1 := BitVec.ofBool b

/-- Bit length of a natural number: 0 for 0. -/
def bitlen (n : Nat) : Nat := if n = 0 then 0 else Nat.log2 n + 1

/-- Number of set bits. -/
def popCount {w : Nat} (x : BitVec w) : Nat := ((List.range w).filter fun i => x.getLsbD i).length

/-- a precedes b in serial-number arithmetic on n bits (R7). -/
def precedes {n : Nat} (a b : BitVec n) : Bool :=
  let d := (b - a).toNat
  decide (1 ≤ d) && decide (d ≤ 2 ^ (n - 1) - 1)

/-! ## Bytes, little-endian (R5) -/

/-- The number that little-endian bytes hold. -/
def leNat : List Byte → Nat
  | [] => 0
  | b :: t => b.toNat + 256 * leNat t

/-- The n low bytes of a number, little-endian. -/
def toLE (n v : Nat) : List Byte :=
  match n with
  | 0 => []
  | n + 1 => BitVec.ofNat 8 v :: toLE n (v / 256)

/-- The n low bytes of a number, most significant first (wire formats that say so). -/
def toBE (n v : Nat) : List Byte := (toLE n v).reverse

/-- The signed reading of the low w bits of n. -/
def sgn (w n : Nat) : Int :=
  let m := n % 2 ^ w
  if m < 2 ^ (w - 1) then (m : Int) else (m : Int) - (2 ^ w : Nat)

/-- The low w bits of an integer, in two's complement. -/
def toBits (w : Nat) (x : Int) : Nat := (x % ((2 ^ w : Nat) : Int)).toNat

/-! ## Sparse maps -/

/-- What key k reads as; d where it is not listed. -/
def mget {α : Type} (d : α) (m : SMap α) (k : Nat) : α :=
  match m with
  | [] => d
  | (a, x) :: t => if a = k then x else mget d t k

/-- (k, v) put before the first greater key. -/
def mins {α : Type} (k : Nat) (v : α) (m : SMap α) : SMap α :=
  match m with
  | [] => [(k, v)]
  | (a, x) :: t => if k < a then (k, v) :: (a, x) :: t else (a, x) :: mins k v t

/-- m without key k. -/
def merase {α : Type} (m : SMap α) (k : Nat) : SMap α := m.filter fun e => e.1 != k

/-- m with key k reading as v; a key that reads as the default is not listed. -/
def mset {α : Type} [DecidableEq α] (d : α) (m : SMap α) (k : Nat) (v : α) : SMap α :=
  if v = d then merase m k else mins k v (merase m k)

/-- Keys strictly rise from lo on, and no listed value is the default. -/
def mwfFrom {α : Type} [DecidableEq α] (d : α) (lo : Nat) (m : SMap α) : Bool :=
  match m with
  | [] => true
  | (a, x) :: t => decide (lo ≤ a) && decide (x ≠ d) && mwfFrom d (a + 1) t

/-- The canonical form of a sparse map. -/
def mwf {α : Type} [DecidableEq α] (d : α) (m : SMap α) : Bool := mwfFrom d 0 m

/-- A map with f applied to every listed value, in canonical form. -/
def mmap {α : Type} [DecidableEq α] (d : α) (m : SMap α) (f : Nat → α → α) : SMap α :=
  (m.map fun e => (e.1, f e.1 e.2)).filter fun e => decide (e.2 ≠ d)

/-! ## Byte memories -/

/-- n bytes from address a up. -/
def rdBytes (m : SMap Byte) (a n : Nat) : List Byte := (List.range n).map fun i => mget 0 m (a + i)

/-- Bytes stored from address a up. -/
def wrBytes (m : SMap Byte) (a : Nat) (bs : List Byte) : SMap Byte :=
  match bs with
  | [] => m
  | b :: t => wrBytes (mset 0 m a b) (a + 1) t

/-- m without the keys in [a, a + n). -/
def clrRange {α : Type} (m : SMap α) (a n : Nat) : SMap α := m.filter fun e => decide (e.1 < a) || decide (a + n ≤ e.1)

/-! ## Lists -/

/-- Element i, or d beyond the end. -/
def nth {α : Type} (d : α) (l : List α) (i : Nat) : α := l.getD i d

/-- The list with element i replaced by f of it. -/
def updNth {α : Type} (l : List α) (i : Nat) (f : α → α) : List α := l.modify i f

/-- A list cut into pieces of n elements, with at most fuel pieces. -/
def chunksOf {α : Type} (n : Nat) : Nat → List α → List (List α)
  | 0, _ => []
  | fuel + 1, l => if l.isEmpty then [] else l.take n :: chunksOf n fuel (l.drop n)

/-- Sum of a list of numbers. -/
def sumN (l : List Nat) : Nat := l.foldl (· + ·) 0

/-- Sum of a list of integers. -/
def sumI (l : List Int) : Int := l.foldl (· + ·) 0

/-! ## CRC-32 (R529, R216: the CRC-32 of IEEE 802.3) -/

/-- One bit of the reflected CRC-32. -/
def crcBit (c : Nat) : Nat := if c % 2 = 1 then (c / 2) ^^^ 0xEDB88320 else c / 2

/-- One byte of the reflected CRC-32. -/
def crcByte (c : Nat) (b : Byte) : Nat :=
  (List.range 8).foldl (fun a _ => crcBit a) (c ^^^ b.toNat)

/-- CRC-32 of a byte string. -/
def crc32 (bs : List Byte) : W32 := BitVec.ofNat 32 ((bs.foldl crcByte 0xFFFFFFFF) ^^^ 0xFFFFFFFF)

end Sys2Proof.Machine
end

