-- ==== Sys2Proof/Machine/State.lean ====
section
/-!
DEFINITION. The state of the module, as plain data; why a step can stop; the state right after module reset.
-/
namespace Sys2Proof.Machine
open Sys2Proof

/-! ## Why a step can stop -/

/-- Faults: the machine stops. -/
inductive Fault where
  /-- Raised by a core, engine or tile-event command that names a tile that is not present (R17): the tile does not
  exist, so nothing in the module performs the step. Safe: no claim about a next state follows. Log entry 2. -/
  | noSuchTile
deriving DecidableEq, Repr

/-- Refusals: the model gives the command no meaning. -/
inductive Refusal where
  /-- The arm of a command that has no meaning yet raises it. Safe: no claim about a next state follows. -/
  | notModelled (mnemonic : String)
deriving DecidableEq, Repr

/-! ## Error records (R457) -/

/-- An error record, field by field (R457). -/
structure ErrRec where
  time : W64
  info1 : W64
  info0 : W64
  source : W16
  cause : Byte
  detail : Byte
  sev : BitVec 2
  job : BitVec 2
  jobValid : Bool
  world : Bool
  die : BitVec 4
  unit : BitVec 4
  merged : Bool
  injected : Bool
  seq : W16
deriving DecidableEq, Repr

/-- An open merge window (R460): the first record, the records merged, the last one's INFO0. -/
structure MergeWin where
  first : ErrRec
  count : Nat
  lastInfo0 : W64
  since : W64
deriving DecidableEq, Repr

/-! ## Tiles -/

/-- TILE.CTX.STATE (R396). -/
inductive CtxSt where
  | empty
  | ready
  | running
  | yielded
  | paused
  | stopped
  | halted
deriving DecidableEq, Repr

/-- The power state of a waiting core (R256). -/
inductive WaitPwr where
  | spin
  | doze
  | lend
deriving DecidableEq, Repr

/-- One slot of a bundle, decoded (R137-R174): its class with its operation number and fields. -/
inductive SlotOp where
  | sys (op : BitVec 6) (gD gA : BitVec 5) (csr : BitVec 12)
  | alu (op : BitVec 6) (gD gA gB : BitVec 5)
  | alui (op : BitVec 6) (gD gA : BitVec 5) (imm : W32)
  | br (op : BitVec 6) (gD gA : BitVec 5) (off : W32)
  | mem (op : BitVec 6) (gT gA : BitVec 5) (off : W32)
  | sync (op : BitVec 6) (gD : BitVec 5) (ch : BitVec 4) (gA : BitVec 5) (hint : BitVec 2)
  | watch (op : BitVec 6) (gD gA gB : BitVec 5) (widx : BitVec 12) (mon : BitVec 3)
  | valu (op : BitVec 6) (a : VArg)
  | vmem (op : BitVec 6) (v : BitVec 4) (gA : BitVec 5) (lw : BitVec 2) (lane : BitVec 6) (off : W32)
  | eng (op : BitVec 6) (a : EngArg)
  | xfer (op : BitVec 6) (gA gB : BitVec 5) (qid : BitVec 12)
  /-- A reserved class (R138). -/
  | reserved
deriving DecidableEq, Repr

/-- A slot with its guard, and whether one of its reserved bits is set (R137, R176). -/
structure SlotWord where
  pg : BitVec 3
  pn : Bool
  rsv : Bool
  op : SlotOp
deriving DecidableEq, Repr

/-- A bundle that has issued and has not retired: it waits (R158), or holds issue (R149, R153, R162, R274, R285, R291). -/
structure WaitRec where
  ctl : SlotWord
  eng : SlotWord
  /-- The arrival half of its ARRIVE.WAIT is done (R397). -/
  arrived : Bool
  /-- MOD.TIME at which the present stretch on the core began, and time waited before it, in ns. -/
  since : W64
  elapsed : W64
  pwr : WaitPwr
  /-- Suspended: a switch from its context is decided, while its engines still work (R158, R397). -/
  suspended : Bool
deriving DecidableEq, Repr

/-- What a yielded context waits for (R408-R410). -/
structure YieldRec where
  snapshot : W64
  wakeDelta : W32
  maxUnits : BitVec 24
  wakeAcnt : BitVec 6
  wakeEn : Bool
  target : BitVec 2
  since : W64
  /-- MOD.TIME at which the context became due, if it is. -/
  due : Option W64
  lateNoted : Bool
  /-- The core has not yet passed to the context named in TO (R397). -/
  leaving : Bool
deriving DecidableEq, Repr

/-- One job context of one tile: its core state (R134) and what the tile holds for it beside (R396, R407). -/
structure Ctx where
  st : CtxSt
  g : SMap W64
  v : SMap (BitVec 512)
  p : SMap Bool
  c : SMap W32
  pc : W64
  rngSeed : W64
  rngStep : W64
  rngOp : W32
  watchStep : W64
  waitLimit : W32
  bundles : W64
  excCause : W32
  excPc : W64
  excInfo : W64
  yieldReg : W64
  xbCount : W64
  cursor : BitVec 6
  /-- The yield entry that the yield unit has read for the cursor (R409). -/
  yent : Option (BitVec 128)
  wait : Option WaitRec
  yrec : Option YieldRec
  /-- At a switch point (R397). -/
  switchPt : Bool
deriving DecidableEq, Repr

/-- An arrival counter (R192) with its error-pending flag and cause (R239). -/
structure Acnt where
  enable : Bool
  owner : BitVec 2
  value : W64
  err : Option Byte
deriving DecidableEq, Repr

/-- The state of a slot (R198). -/
inductive SlotSt where
  | empty
  | filling
  | full
deriving DecidableEq, Repr

/-- A slot (R196, R198), with the pushes it holds (R285): to FULL_HQ and to EMPTY_HQ. -/
structure Slot where
  cfg : W64
  filled : Nat
  gen : BitVec 6
  st : SlotSt
  heldFull : Option W32
  heldEmpty : Option W32
  /-- AUTO_DRAIN drain delayed by a held push (R285). -/
  drainWait : Bool
deriving DecidableEq, Repr

/-- Who holds a push for a full queue (R285). -/
inductive PushSrc where
  | slot (tile : W16) (n : BitVec 6) (full : Bool)
  | completion (die : Fin 12) (xrec : BitVec 9)
  | window
deriving DecidableEq, Repr

/-- A held push (R285). -/
structure HeldPush where
  src : PushSrc
  handle : W32
  job : BitVec 2
deriving DecidableEq, Repr

/-- A tile handle queue (R283). -/
structure Hq where
  cfg : W32
  handles : List W32
  held : List HeldPush
  draining : Bool
  /-- MOD.TIME of the DRAIN. -/
  since : W64
deriving DecidableEq, Repr

/-- The operations of the engines (R161). -/
inductive EngKind where
  | press
  | cvt
  | gutter
  | xpose
  | wclr
  | wld
  | wst
  | wacc
deriving DecidableEq, Repr

/-- An issued engine operation (R161, R162, R164). -/
structure EngOp where
  kind : EngKind
  job : BitVec 2
  /-- The block as copied, with its overrides (R164, R168). -/
  block : BitVec 512
  /-- gA: the block address, or WIDE.CMD.ADDR. -/
  addr : W64
  imm : BitVec 24
  doneEn : Bool
  done : BitVec 6
  /-- Place in the context's issue order. -/
  seq : Nat
  pc : W64
  started : Bool
  /-- Waits on a slot since this MOD.TIME (R200). -/
  slotWait : Option W64
  /-- The generator inputs and the watch step as they stood when it started (R62, R90, R153). -/
  rngSeed : W64
  rngStep : W64
  rngOp : W32
  watchStep : W64
  /-- An injected residue fault is on it (R478). -/
  injected : Bool
deriving DecidableEq, Repr

/-- A running exchange phase (R206, R207, R219). -/
structure Exch where
  job : BitVec 2
  addr : W64
  count : Nat
  next : Nat
  /-- TCLK count and MOD.TIME at which EXCH issued. -/
  startCycle : W64
  since : W64
  pc : W64
  /-- The cause of an entry that failed (R215). -/
  failed : Option Byte
  /-- Number of the folio run (R234). -/
  run : Nat
deriving DecidableEq, Repr

/-- The state of a SECDED word (R203). -/
inductive EccSt where
  | single
  | double
deriving DecidableEq, Repr

/-- The registers and status words of a tile that its contexts share. -/
structure TileRegs where
  share : W32
  pressCtrl : W32
  pressStatus : W32
  residueCount : W64
  cvtStatus : W32
  satCount : W64
  wideOwner : W32
  wideStatus : W32
  bankConflicts : W64
  errLastCause : Byte
  errLastAcnt : BitVec 6
  sent : W64
  late : W64
  dropped : W64
  switches : W64
  yieldsSkipped : W64
  switchLate : W64
  ctxReg : BitVec 2
deriving DecidableEq, Repr

/-- The engines of a tile. -/
structure TileEng where
  press : List EngOp
  conv : List EngOp
  wide : List EngOp
  /-- Next place in the issue order. -/
  seq : Nat
  exch : Option Exch
  /-- Folio runs begun on the tile. -/
  runs : Nat
deriving DecidableEq, Repr

/-- One tile. -/
structure Tile where
  regs : TileRegs
  eng : TileEng
  ctx : SMap Ctx
  /-- The READY contexts in the order in which they take an idle core (R398, rules 3 and 4). -/
  readyOrd : List (BitVec 2)
  spad : SMap Byte
  spadEcc : SMap EccSt
  wideBuf : SMap W64
  wideEcc : SMap EccSt
  acnt : SMap Acnt
  slots : SMap Slot
  hqs : SMap Hq
  /-- Weirs of its die it is a member of, and has arrived at (R249); its view of the open epoch (R253). -/
  weirMember : SMap Bool
  weirArrived : SMap Bool
  weirView : SMap (BitVec 4)
  /-- Lines of code held in the fetch buffer, by line address, newest first (R143). -/
  fetchBuf : List Nat
  /-- Fenced since start-up (R16, R467), and held by a trigger with AUTO_FENCE 0 (R464). -/
  fenced : Bool
  faultHold : Bool
  ctxEcc : SMap EccSt
  /-- MOD.TIME of its PRESS_RESIDUE failures (R464). -/
  residueFails : List W64
  /-- An injected residue fault waits for the next group sum; injected flit faults by port (R478). -/
  injResidue : Bool
  injFlit : List Nat
deriving DecidableEq, Repr

/-! ## Dies -/

/-- DIE.STATE.STATE (R443). -/
inductive DieSt where
  | absent
  | held
  | joining
  | ready
  | failed
deriving DecidableEq, Repr

/-- A weir of a die (R247, R267), its members and arrivals on this die, and its two copies (R260). -/
structure Weir where
  cfg : W32
  epoch : BitVec 4
  lostMask : W16
  lost : Bool
  orphaned : Bool
  fault : Bool
  rounds : W64
  stale : W64
  members : List W16
  arrived : List W16
  copyBad : Bool
  copyInjected : Bool
  /-- The first member at the load: where an L1 or L2 weir stands. -/
  site : W16
  /-- Releases on their way down to this die, oldest first: the epoch and whether it carries MEMBER_LOST (R251, R263). -/
  release : List (BitVec 4 × Bool)
deriving DecidableEq, Repr

/-- An arrival on its way to a counter (R250). -/
structure Arrival where
  die : Fin 12
  weir : BitVec 12
  tile : W16
  epoch : BitVec 4
deriving DecidableEq, Repr

/-- The peers' part of an L6 weir at the module's L5 unit (R248). -/
structure WeirL6 where
  /-- Peers that have loaded it since its first round last opened. -/
  peersLoaded : BitVec 4
  /-- Every module has loaded it: its first round is open. -/
  opened : Bool
  peersArrived : BitVec 4
  /-- Peers that have left the span (R264). -/
  peersLost : BitVec 4
deriving DecidableEq, Repr

/-- STQ.STATUS.STATE (R307). -/
inductive StqSt where
  | disabled
  | active
  | draining
  | aborting
  | frozen
deriving DecidableEq, Repr

/-- A stream queue context (R284). -/
structure Stq where
  cfg : W64
  st : StqSt
  handles : List W32
  recs : List (BitVec 9)
  held : List HeldPush
  since : W64
  /-- The state it had before it was frozen (R303). -/
  thawTo : StqSt
deriving DecidableEq, Repr

/-- REACH.STATUS.STATE (R289). -/
inductive ReachSt where
  | disabled
  | idle
  | armed
  | draining
  | aborting
  | frozen
deriving DecidableEq, Repr

/-- A reach (R289). -/
structure Reach where
  cfg : W64
  stride : W64
  base : W64
  nextBase : W64
  pass : W16
  pending : Bool
  st : ReachSt
  descs : SMap (BitVec 512)
  recs : List (BitVec 9)
  since : W64
  thawTo : ReachSt
  /-- World of the write that configured it (R480). -/
  world : Bool
deriving DecidableEq, Repr

/-- The state of a transfer record (R281, R297, R303). -/
inductive XSt where
  | free
  | queued
  | running
  | parked
  | preempted
deriving DecidableEq, Repr

/-- A step of a transfer in flight (R296). -/
structure StepRec where
  /-- Its own number, never used again. -/
  id : Nat
  off : Nat
  len : Nat
  /-- Bytes read so far, by offset in the step; 64-byte reads and writes still to be served. -/
  data : SMap Byte
  reads : Nat
  writes : Nat
  /-- Where its bytes go: a physical address, or none for a tile. -/
  dst : Option Nat
  /-- The virtual addresses it was translated for, and whether each was through a 2 MiB page (R295). -/
  vas : List (Nat × Bool)
deriving DecidableEq, Repr

/-- One descriptor of a record under way: a transfer of its own (R275). -/
structure Leg where
  /-- Its place in the chain. -/
  num : Nat
  desc : BitVec 512
  /-- The handle held, and the tile whose slots it names (R288). -/
  handle : Option W32
  htile : W16
  /-- TRN.VIEW when it began, and which of the job's views that was (R419). -/
  view : W64
  viewEp : Nat
  /-- Row-major bytes issued; steps in flight. -/
  next : Nat
  steps : List StepRec
  /-- The first failure, the offset that CPL.DONE gives for it, and the address it is recorded with (R280, R459). -/
  status : Byte
  failAt : Nat
  failInfo : W64
  /-- The failure comes from an injected fault (R478). -/
  failInj : Bool
  /-- The translation walk in flight: side, virtual address (R293, R296). -/
  walk : Option (Bool × W64)
  /-- A fault found, while earlier steps are still to be written (R297). -/
  fault : Option (BitVec 3 × Bool × W64)
  /-- Its completion record and count are made; its push is held (R277, R285). -/
  told : Bool
deriving DecidableEq, Repr

/-- A transfer record (R281). -/
structure XferRec where
  gen : Byte
  st : XSt
  job : BitVec 2
  world : Bool
  tile : W16
  qid : BitVec 12
  reach : Bool
  /-- The address of the pass (R290). -/
  passAddr : W64
  /-- The descriptor posted, or the one that begins next. -/
  desc : BitVec 512
  /-- Place in the posting order. -/
  ord : Nat
  /-- The handle and view of the whole pass of a reach (R290, R419). -/
  handle : Option W32
  htile : W16
  view : W64
  viewEp : Nat
  /-- The handle of a pass has been passed on or dropped. -/
  handed : Bool
  /-- Descriptors begun, and those under way, oldest first. -/
  begun : Nat
  legs : List Leg
  /-- NEXT of the last descriptor begun; whether the chain has ended (R275). -/
  nextOp : BitVec 24
  ended : Bool
  reason : BitVec 3
  /-- MOD.TIME of parking; while its job is frozen, the time it had then been parked (R299, R303). -/
  parkedAt : W64
  /-- A FAULT_CTL recorded while frozen (R303): true RESUME, false FAIL. -/
  ctl : Option Bool
  /-- Freezing: stops at the next step boundary (R303). -/
  freezing : Bool
deriving DecidableEq, Repr

/-- A cached translation (R295). -/
structure Tlb where
  job : BitVec 2
  /-- VA in units of 64 KiB, of the page's first byte; true for a 2 MiB page. -/
  page : Nat
  big : Bool
  frame : Nat
  w : Bool
  /-- The TRN.VIEW it was translated through, 0 for none (R418). -/
  view : W64
deriving DecidableEq, Repr

/-- A watch accumulator of a die (R93). -/
structure WAcc where
  reported : Bool
  bound : Option Int
  sat : Nat
  nonzero : Bool
  /-- The die was lost in the step that it collects: it contributes nothing to that step's close (R99). -/
  lost : Bool
deriving DecidableEq, Repr

/-- An entry that a close covers (R95): the configuration that the close puts into effect (R86), the frozen accumulator of this module, and
whether a die's part of it is missing (R99). -/
structure CloseEnt where
  widx : BitVec 12
  cfg : Option W32
  acc : WAcc
  lost : Bool
deriving DecidableEq, Repr

/-- A node-scope close under way (R98): its step, the MOD.TIME at which it began, the entries it covers. -/
structure Close where
  step : W64
  since : W64
  entries : List CloseEnt
deriving DecidableEq, Repr

/-- A report on its way to a watch unit (R90, R94). -/
structure Report where
  die : Fin 12
  widx : BitVec 12
  job : BitVec 2
  step : W64
  bound : Option Int
  sats : Nat
  nonzero : Bool
  tile : W16
deriving DecidableEq, Repr

/-- One half: its clock (R431) and its tile map (R15). -/
structure Half where
  req : BitVec 2
  limit : BitVec 2
  step : BitVec 2
  changes : W64
  cycles : W64
  /-- Thermal and power limits, which CLK.HALF.LIMIT is the slower of (R559, R562). -/
  thermal : BitVec 2
  power : BitVec 2
  spare8 : Nat
  lastChange : W64
  /-- The logical numbering fixed at start-up: position of each index (R15, R16). -/
  map : List Nat
  mapGen : W16
  /-- Positions fenced in the flash map, and the next generation written there (R467). -/
  flashFenced : List Nat
  flashGen : W16
  bypassed : List Nat
deriving DecidableEq, Repr

/-- The stream registers of a die (R308). -/
structure StreamRegs where
  cfg : W32
  faults : W64
  handlesDropped : W64
  tagsStale : W64
deriving DecidableEq, Repr

/-- One compute die. -/
structure Die where
  st : DieSt
  fails : BitVec 3
  cause : BitVec 5
  rejoins : W16
  cfg : W32
  heldAt : W64
  /-- A REJOIN command waits for what holds the rejoin off (R442, R562). -/
  joinDue : Bool
  /-- A rejoin under way: what it finds, and MOD.TIME at its begin (R444). -/
  join : Option (DieFound × W64)
  /-- Discovery or self-test has found the die ABSENT since module reset (R443). -/
  missed : Bool
  retired : Bool
  tripped : Bool
  stream : StreamRegs
  recs : SMap XferRec
  stq : SMap Stq
  reach : SMap Reach
  tlb : List Tlb
  weirs : SMap Weir
  /-- Watch accumulators: entry × 2 for the open step, + 1 for the step after it (R85). -/
  wacc : SMap WAcc
  /-- Serves gauge reads (R99). -/
  watchReady : Bool
  thermDie : W64
deriving DecidableEq, Repr

/-! ## Memory stacks -/

/-- HBM.STATE.STATE (R327). -/
inductive StackSt where
  | offline
  | training
  | ready
  | recal
deriving DecidableEq, Repr

/-- The state of a 64-byte block (R314-R316). -/
inductive BlkSt where
  | correctable
  | uncorrectable
  | poisoned
deriving DecidableEq, Repr

/-- A request to a 64-byte block that waits at a stack (R269, R317). -/
structure MemReq where
  pa : Nat
  write : Option (List Byte)
  die : Fin 12
  xrec : BitVec 9
  /-- The step it belongs to, and its place in the step in units of 64 bytes. -/
  step : Nat
  idx : Nat
  world : Bool
  job : BitVec 2
deriving DecidableEq, Repr

/-- An entry of a stack's repair record (R323). -/
inductive Repair where
  /-- A lane of a channel remapped to a spare (R322). -/
  | lane (channel : Fin 32) (lane : Byte)
  | row (row : Nat)
deriving DecidableEq, Repr

/-- One HBM4 stack (R327) with its requests and repair state. -/
structure Stack where
  cfg : W32
  st : StackSt
  /-- Spare lanes left, by channel; none before its training (R322). -/
  spares : List Byte
  /-- The repair record, oldest first. -/
  repairs : List Repair
  /-- Corrections of each lane: channel, lane, MOD.TIME (R320). -/
  laneErrs : List (Fin 32 × Byte × W64)
  /-- Lanes that have exceeded LANE_LIMIT since the last training (R322). -/
  failing : List (Fin 32 × Byte)
  ce : W64
  ue : W64
  passes : W64
  ceSince : Nat
  ceSummaryAt : Option W64
  patrol : Nat
  reqs : List MemReq
  writebacks : List Nat
  blocks : SMap BlkSt
  retiredFrames : List Nat
  hot : Bool
  halfRate : Bool
  injected : List Nat
  /-- Rows with an uncorrectable block, each with the block that marked it; corrections within the last patrol period: row, block, MOD.TIME
  (R323). -/
  badRows : List (Nat × Nat)
  ceRows : List (Nat × Nat × W64)
deriving DecidableEq, Repr

/-! ## The network -/

/-- A router position (R14). -/
structure Pos where
  die : Nat
  h1 : Bool
  col : Nat
  row : Nat
deriving DecidableEq, Repr

/-- Kinds of message block: the sends of R213, a stream step to a tile, and a stream step to a stack's memory port. -/
inductive BlkKind where
  | put
  | cast
  | add
  | toTile
  | toMem (stack : Fin 12)
deriving DecidableEq, Repr

/-- A message block in the network (R220). -/
structure Block where
  kind : BlkKind
  src : W16
  dest : W16
  daddr : BitVec 24
  acntEn : Bool
  acnt : BitVec 6
  i24 : Bool
  tree : BitVec 10
  dmod : BitVec 2
  job : BitVec 2
  world : Bool
  payload : List Byte
  /-- First flit marked bad (R574). -/
  bad : Option Nat
  pos : Pos
  /-- Where at its router it is held: an input port, 0 LOCAL to 4 EAST (R237); 5 at a memory port or port bridge; 6 a round's sum on its way
  to the router's tile (R230); 10 + port or 20 + port, the sending or the receiving end of the die-to-die link at that port (R221). -/
  inPort : Nat
  /-- Where it goes, and the dies its route passes, from the first to the last (R226, R227, R426). -/
  dst : Pos
  via : List Nat
  /-- Waits on a FULL slot since this time (R200, R222). -/
  slotWait : Option W64
  /-- The transfer step it belongs to: die, record, step. -/
  xfer : Option (Fin 12 × BitVec 9 × Nat)
  injected : Bool
  /-- CAST: output ports of this router that have taken the block (R233, R234). -/
  taken : List Nat
  /-- MOD.TIME at which it reached its present place (R234). -/
  heldSince : W64
  /-- The folio run of its sender that it belongs to (R234). -/
  run : Nat
  /-- It came over this port, whose receive buffer it holds while it stays at the port bridge (R339). -/
  rxPort : Option Nat
deriving DecidableEq, Repr

/-- An error marker on its way to a tile (R239). -/
structure Marker where
  tile : W16
  acnt : BitVec 6
  cause : Byte
  job : BitVec 2
deriving DecidableEq, Repr

/-- A pruned OUT port of a router for the rest of a run of the root (R234), and the counter its marker names (R235). -/
structure Prune where
  tree : BitVec 10
  router : W16
  port : Nat
  root : W16
  acnt : BitVec 6
  acntEn : Bool
  job : BitVec 2
  run : Nat
  /-- Its marker has been sent. -/
  marked : Bool
deriving DecidableEq, Repr

/-- MESH.TREE (R236), and whether a loss refuses its sends until it is loaded again (R232). -/
structure Tree where
  cfg : W32
  broken : Bool
deriving DecidableEq, Repr

/-- A port-add round (R351). -/
structure PAdd where
  dest : W16
  daddr : BitVec 24
  job : BitVec 2
  bridge : Nat
  peers : BitVec 3
  acntEn : Bool
  acnt : BitVec 6
  sum : List W32
  since : W64
  src : W16
deriving DecidableEq, Repr

/-! ## Ports -/

/-- TZ.PORT.STATUS.STATE (R333). -/
inductive PortSt where
  | off
  | training
  | up
  | retrain
  | stopping
  | down
deriving DecidableEq, Repr

/-- The RO counters of a port (R361). -/
structure PortCnt where
  replays : W64
  crcErrors : W64
  fecCorrected : W64
  fecUncorr : W64
  retrains : W64
  framesDropped : W64
deriving DecidableEq, Repr

/-- What a port sends on a lane, whole packets (R337, R338). -/
inductive Pkt where
  | exch (b : Block)
  | coll (key : GKey) (attempt : BitVec 3) (up : Bool) (body : GBody)
  | stream (landing : BitVec 8) (job : BitVec 2) (bytes : List Byte) (die : Fin 12) (qid : BitVec 12) (handle : W32) (last : Bool)
  | ctrl (m : CtrlMsg)
  | gctrl (key : GKey) (what : BitVec 2) (attempt : BitVec 3) (n : Nat)
deriving DecidableEq, Repr

/-- A flit of a packet, sent and not acknowledged (R340). -/
structure TxFlit where
  seq : BitVec 12
  pkt : Pkt
  /-- Its place in the packet; 0 is the HEAD. -/
  idx : Nat
deriving DecidableEq, Repr

/-- One port (R331-R348). -/
structure Port where
  cfg : W32
  /-- The working value of ROLE becomes the role in force at START (R331). -/
  role : BitVec 2
  st : PortSt
  /-- The link carries flits: UP, or STOPPING from UP. -/
  live : Bool
  width : BitVec 4
  usable : BitVec 8
  epoch : BitVec 8
  partner : W32
  cnt : PortCnt
  attempts : Nat
  txSeq : BitVec 12
  rxExp : BitVec 12
  rxSinceAck : Nat
  /-- Flits not yet acknowledged, oldest first (R340). -/
  replay : List TxFlit
  /-- Packets of which some flits are sent, at most one on a lane, with the next flit of each (R337). -/
  sending : List (Pkt × Nat)
  /-- Packets queued to send. -/
  txq : List Pkt
  /-- The lane in turn, and flits left of its weight (R337). -/
  turn : Nat × Nat
  /-- Headers of the flits sent, each with its packet and place (the model's observation of the wire). -/
  wire : List (W64 × Option (Pkt × Nat))
  /-- Flits of the packet being received on each lane, and how many more it has (R339). -/
  rxPart : SMap (List Byte × Nat)
  /-- Receive buffers of each lane for which no credit has been returned (R338, R339). -/
  rxUsed : SMap Nat
  credits : SMap Nat
  noAdv : Nat
  replaySum : Nat
  summaryAt : Option W64
  ackAt : W64
  notUpSince : W64
  linkReset : Bool
  paused : Byte
  owesNak : Bool
  /-- An injected flit fault waits for the next flit sent; one has been sent since the last summary (R478). -/
  injFlit : Bool
  injSent : Bool
  /-- Stream-lane data held for a landing handle (R355). -/
  landing : List (BitVec 8 × BitVec 2 × List Byte × W64)
  /-- Handles popped from PORT contexts whose slots are not FULL yet: die, context, handle (R200, R286, R354). -/
  popped : List (Fin 12 × BitVec 12 × W32)
  stopSince : W64
deriving DecidableEq, Repr

/-- A RoCEv2 memory region (R358). -/
structure RoceMr where
  reg : W64
  base : W64
  len : W64
deriving DecidableEq, Repr

/-- A RoCEv2 queue pair (R356, R357). -/
structure RoceQp where
  enabled : Bool
  error : Bool
  /-- Requests posted and not complete, oldest first; retries taken by the oldest; parked by a translation fault (Net.parks). -/
  wrs : List (BitVec 256)
  retries : Nat
  parked : Bool
  acked : Bool
  rate : Nat
  rxPsn : BitVec 24
  /-- PSN of the next packet sent. -/
  txPsn : BitVec 24
  /-- The oldest request has been sent. -/
  begun : Bool
  /-- Last CNP received or step of the recovery; last CNP sent. -/
  cnpAt : Option W64
  cnpSent : Option W64
  readOff : Nat
  /-- The port over which the oldest request is under way. -/
  port : Nat
  /-- PSN of the oldest request's first packet, and of the packet with which it is acknowledged. -/
  msgPsn : BitVec 24
  endPsn : BitVec 24
  /-- The incoming WRITE message under way: next address, key, bytes left (R357, R358). -/
  inWrite : Option (W64 × W32 × Nat)
  /-- Packets that wait for an Ethernet port on which their priority is not paused (R356). -/
  txq : List RocePkt
  /-- Packets sent, and completion records of requests (the model's observations of the wire and of the control die's queue). -/
  out : List RocePkt
  cpls : List (BitVec 128)
deriving DecidableEq, Repr

/-! ## Gatherings -/

/-- The phases of an open gathering (R372-R379, R390). -/
inductive GPhase where
  | score
  | scoreSum
  | fit
  | expo
  | data
  | dataSum
  | shard
  /-- Every chunk written: MASK and the completion record are left (R379). -/
  | finish
  /-- Failed: the completion record alone is left, its write parked (R370, R379). -/
  | failed
deriving DecidableEq, Repr

/-- An open gathering on this module (R367, R368). -/
structure Gather where
  key : GKey
  desc : BitVec 1024
  phase : GPhase
  attempt : BitVec 3
  /-- Contributions received and not yet in a complete round: port, body. -/
  rx : List (Nat × GBody)
  /-- Results to come down: totals per block, the shared exponent. -/
  totals : SMap Int
  bitlens : List Nat
  kept : List Nat
  e : Option Int
  /-- Own chunks sent: scores or q values. -/
  own : List Int
  written : Nat
  chunksDone : Nat
  sat : Nat
  contrib : Nat
  restarts : BitVec 3
  since : W64
  /-- Child ports withdrawn or lost (R384). -/
  lostPorts : List Nat
  /-- The status with which it fails. -/
  failSt : Byte
deriving DecidableEq, Repr

/-- A shard-table entry (R389). -/
structure Shard where
  valid : Bool
  job : BitVec 2
  pins : W16
  id : W16
  version : W32
  base : W64
  len : W32
deriving DecidableEq, Repr

/-- A pin recorded under a step (R391). -/
structure Pin where
  job : BitVec 2
  step : W32
  entry : BitVec 10
deriving DecidableEq, Repr

/-! ## Jobs -/

/-- JOB.STATE.STATE (R399). -/
inductive JobSt where
  | unloaded
  | loading
  | paused
  | active
  | pausing
  | unloading
  | saved
  | finished
deriving DecidableEq, Repr

/-- The saved state of one tile of an unloaded job (R404). -/
structure SavedTile where
  tile : W16
  /-- The share that it saved, from and to. -/
  share : Nat × Nat
  ctx : Ctx
  acnt : SMap Acnt
  slots : SMap Slot
  hqs : SMap Hq
deriving DecidableEq, Repr

/-- The registers of a job context that other chapters give it. -/
structure JobRegs where
  image : W64
  save : W64
  saveSpad : W64
  loadInfo : W32
  trnRoot : W64
  trnView : W64
  pubLatest : W32
  armStep : W64
  closeStatus : W32
  gatherPost : BitVec 1024
  layoutSt : BitVec 2
  layoutEpoch : W16
  errRing : W64
  errHead : W64
  errTail : W64
  errLost : W64
deriving DecidableEq, Repr

/-- One job context (R395, R399). -/
structure Job where
  st : JobSt
  regs : JobRegs
  saved : List SavedTile
  frozen : Bool
  /-- A node-scope close under way (R98). -/
  closing : Option Close
  /-- A re-shard that waits: epoch, MOD.TIME (R388). -/
  reshard : Option (W16 × W64)
  postClosed : Bool
  drainSince : Option W64
  ringIrq : Bool
  /-- How often TRN.VIEW has moved, and the references that end with the last transfer of an earlier view (R419). -/
  viewEp : Nat
  viewOwed : List (Nat × BitVec 4)
  /-- A watch image whose write waits for a close, and the status of the last one written (R539, R540). -/
  imageWait : Option (List Byte)
  imageStatus : Byte
  /-- The status with which the last re-shard completed (R388). -/
  reshardStatus : Byte
deriving DecidableEq, Repr

/-- A publication entry (R416). -/
structure Pub where
  st : BitVec 2
  job : BitVec 2
  count : BitVec 6
  /-- References held; PUB.CFG.REFS gives up to 65,535 of them (log entry 65). -/
  refs : Nat
  base : W64
  version : W32
deriving DecidableEq, Repr

/-! ## Watch entries and loss monitors -/

/-- A watch entry (R86, R88): committed state, and a configuration that waits for the next close. -/
structure Watch where
  cfg : W32
  pendCfg : Option W32
  openStep : W64
  exp : W16
  history : BitVec 256
  satAlarm : W32
  satTotal : W64
  satLast : W32
  zeroStreak : W32
  lateCount : W64
  flags : Byte
deriving DecidableEq, Repr

/-- A loss monitor (R106). -/
structure Loss where
  cfg : W32
  bandAbs : W64
  avg : W64
  last : W64
  lastStep : W64
  spikes : W64
  rejects : W64
  accepted : W32
deriving DecidableEq, Repr

/-- A write made by a row of the command table whose status comes later: an invalidation (R294, R295, R419), an unload (R404). -/
inductive Late where
  /-- A write of GATHER.RESHARD (R388). -/
  | reshard (job : BitVec 2)
  | inval
  | unload (job : BitVec 2)
deriving DecidableEq, Repr

/-! ## Control die: dictionary, window, management port, security, power -/

/-- A segmented transfer or a snapshot (R529, R530). -/
structure SegXfer where
  index : W16
  sub : BitVec 8
  inst : W16
  /-- True for a snapshot. -/
  snap : Bool
  size : Nat
  parts : SMap (List Byte)
  lastAt : W64
deriving DecidableEq, Repr

/-- A message of the management port (R523). -/
structure DdpMsg where
  op : Byte
  status : Byte
  index : W16
  sub : BitVec 8
  inst : W16
  seq : W16
  offset : W32
  value : List Byte
  dest : DdpSource
deriving DecidableEq, Repr

/-- An event (R531, R532): SEQ, kind, object, body, sends. -/
structure Event where
  seq : W16
  kind : Nat
  obj : W16
  body : List Byte
  sev : BitVec 2
  sends : Nat
  sentAt : W64
deriving DecidableEq, Repr

/-- A request of the management port that waits (R527): behind a write of the same entry and its number, or a write under way. -/
structure WaitReq where
  req : DdpReq
  op : Byte
  bytes : List Byte
  started : Bool
  /-- MOD.TIME of its last PENDING. -/
  pendAt : W64
deriving DecidableEq, Repr

/-- The window registers of a core (R535-R537). -/
structure WinCore where
  done : W32
  /-- Writes of the core that complete later: index, subindex, number. WIN.STATUS.PENDING is whether there are any. -/
  waits : List (W16 × BitVec 8 × W16)
  first : Byte
  last : Byte
  /-- Words 1-7 staged, and the address of the slot they are for. -/
  stage : SMap W64
  stageSlot : Nat
  /-- The last capture of each slot, by its address over 64. -/
  caps : SMap (List Byte)
  /-- The last value a load returned, and the bytes of the last read by physical address (the model's observations). -/
  loaded : W64
  sample : List Byte
  domain : BitVec 256
deriving DecidableEq, Repr

/-- The management port (R522-R531). -/
structure Mgmt where
  plca : Bool
  addrOk : Bool
  lastBeacon : W64
  dadAt : W64
  evAddr : BitVec 128
  evPort : W16
  evMinSev : Byte
  evMask : W32
  requests : W64
  repeats : W64
  dropped : W64
  eventsSent : W64
  eventsLost : W64
  evSeq : W16
  unacked : List Event
  evQueue : List Event
  outQueue : List DdpMsg
  /-- Messages sent on the wire (the model's observation of the port). -/
  sent : List DdpMsg
  icmpOut : List (BitVec 128 × List Byte)
  cache : List (DdpSource × DdpMsg × W64)
  waiting : List WaitReq
  segs : List SegXfer
  parts : List SegXfer
deriving DecidableEq, Repr

/-- A handover under way (R475): the MGMT image it brings, when its steps 1 and 2 end, and how long its step 3 takes. -/
structure Handover where
  img : Image
  loaded : W64
  swap : Nat
deriving DecidableEq, Repr

/-- FW.STATE and what the handover keeps (R473-R476, R499, R500). -/
structure Fw where
  active : Bool
  slot : Bool
  standby : BitVec 2
  /-- Directory marks of slots A and B: 0 GOOD, 1 NEW, 2 BAD (R499). -/
  markA : BitVec 2
  markB : BitVec 2
  probationAt : W64
  handover : Option Handover
  /-- Images staged into slots A and B since manufacture. -/
  slotA : List Image
  slotB : List Image
  appImage : Option Image
  /-- Measurements in force, by image type (R496, R502). -/
  meas : SMap (BitVec 512)
  journal : Nat
  checkpointAt : W64
  appReset : BitVec 16
deriving DecidableEq, Repr

/-- Monotonic counters, owner record, challenge, lockout, report (R494, R506-R510, R504). -/
structure Sec where
  svnIsland : W32
  svnMgmt : W32
  svnDiectl : W32
  svnApp : W32
  keyRevoke : BitVec 2
  ownerGen : W32
  owner : Option (List Byte)
  challenge : Option (BitVec 128 × W64)
  refusals : List W64
  lockoutAt : Option W64
  nonce : BitVec 256
  preparing : Bool
  reportTime : W64
  report : List Byte
  lastTokenStatus : Byte
  cdi2 : BitVec 512
  cdi3 : BitVec 512
  /-- The region table as written at READY (R502). -/
  readyRegions : SMap (BitVec 128)
deriving DecidableEq, Repr

/-- JTAG (R511): the instruction in force (0 BYPASS, 1 IDCODE, 2 SAMPLE/PRELOAD, 3 EXTEST), the boundary register, and what was last shifted
out. -/
structure Jtag where
  instr : BitVec 2
  boundary : W64
  tdo : W64
deriving DecidableEq, Repr

/-- RAIL.STATUS (R569). -/
structure Rail where
  /-- Phases shed since module reset (R552): RAIL.STATUS.GOOD holds the others. -/
  shed : W16
  on : W16
  st : BitVec 2
  /-- Back in regulation since (R551). -/
  backAt : Option W64
deriving DecidableEq, Repr

/-- Power state and registers (R554-R569). -/
structure Power where
  cfg : W32
  st : BitVec 3
  vin : W16
  iin : W16
  pin : W16
  allow : Byte
  /-- Peak allowance left, in nanojoules (R560). -/
  allowance : Nat
  alertSrc : BitVec 6
  alertMask : BitVec 6
  therm : W32
  rails : SMap Rail
  pgood : Bool
  paused : Bool
  scaled : Bool
deriving DecidableEq, Repr

/-- MOD.STATE.STATE (R446). -/
inductive ModSt where
  | boot
  | standby
  | ramp
  | discover
  | train
  | ready
  | failed
deriving DecidableEq, Repr

/-- Module-wide registers and pins. -/
structure Mod where
  st : ModSt
  step : BitVec 5
  present : BitVec 12
  autostart : Bool
  time : W64
  mapTag : W32
  meshCfg : W32
  waitCfg : W32
  switchCfg : W32
  nodeCfg : W32
  invalAddr : W64
  /-- Steps whose requests hold TRN.INVAL_STATUS.BUSY (R295). -/
  invalWait : List Nat
  slotId : BitVec 6
  refSel : Bool
  resetN : Bool
  fatal : Bool
  fatalAt : W64
  ucie : BitVec 4
  rocePeriod : W32
  roceRise : W32
  roceFloor : W32
deriving DecidableEq, Repr

/-- The error log and its settings (R460-R465). -/
structure Log where
  recs : List ErrRec
  seq : W16
  head : W16
  tail : W16
  lost : W64
  cfg : W32
  wins : List MergeWin
  flashFatal : List ErrRec
  /-- MOD.TIME of LINK_DROP records by mesh link, and of WEIR_FAULT records by weir unit (R464). -/
  dropTimes : List (Nat × W64)
  weirFaults : List (Nat × W64)
deriving DecidableEq, Repr

/-- A die-to-die edge (R425). -/
structure Edge where
  st : BitVec 2
  /-- Spare pairs that each link has used (R424). -/
  used : SMap Nat
  retrained : BitVec 24
  replays : W64
  injFlit : Bool
deriving DecidableEq, Repr

/-- Records in the configuration flash whose fields reset to "flash" (R492, R519): none where the record is absent. -/
structure Flash where
  roles : SMap (BitVec 2)
  autostart : Option Bool
  slot : Option Bool
  powerCap : Option (BitVec 11 × BitVec 11)
  gen : W32
deriving DecidableEq, Repr

/-- The gathering registers of the module (R363, R389-R393). -/
structure GatherRegs where
  trees : SMap W64
  cfg : W32
  completed : W64
  abandoned : W64
  stale : W64
  restarts : W64
  staleSum : Nat
  staleAt : Option W64
  opened : List Gather
  shards : SMap Shard
  pins : List Pin
deriving DecidableEq, Repr

/-- What a peer exchanged for a node-scope close (R97). -/
structure Exchanged where
  peer : BitVec 2
  job : BitVec 2
  step : W64
  entries : List PeerAcc
deriving DecidableEq, Repr

/-- A gathering packet held in its receive buffer: for a key not yet open (R368), or for an accumulator (R353). -/
structure HeldG where
  key : GKey
  attempt : BitVec 3
  port : Option (Fin 24)
  body : GBody
deriving DecidableEq, Repr

/-- A gathering message of the control lane for a key not yet open (R383, R384): what as in Pkt.gctrl. -/
structure HeldMsg where
  key : GKey
  what : BitVec 2
  attempt : BitVec 3
  n : Nat
  port : Option (Fin 24)
deriving DecidableEq, Repr

/-- Who made an access that is parked and is no transfer (R359, R370). -/
inductive ParkOwner where
  | gather (key : GKey)
  | roce (qp : BitVec 12)
deriving DecidableEq, Repr

/-- A parked access that is no transfer: the die whose STREAM registers count it, and the tag that STREAM.FAULT_CTL names (R297-R299). -/
structure Park where
  die : Nat
  tag : W32
  since : W64
  owner : ParkOwner
deriving DecidableEq, Repr

/-- The network and node state of the module. -/
structure Net where
  blocks : SMap Block
  nextBlk : Nat
  markers : SMap Marker
  nextMk : Nat
  prunes : List Prune
  trees : SMap Tree
  /-- MESH.ROUTE by router × 1,024 + tree (R237): a router is named by its tile's ID, one without a logical tile by its position. -/
  routes : SMap W16
  padds : List PAdd
  arrivals : List Arrival
  l6 : SMap WeirL6
  reports : List Report
  peers : SMap W32
  /-- Peers that are lost (R350), and when they last answered. -/
  peerLost : BitVec 4
  peerSeen : SMap W64
  /-- Accumulators a peer exchanged for a node-scope close (R97): peer, job, step, entries. -/
  exchanged : List Exchanged
  lands : SMap W32
  ports : SMap Port
  mrs : SMap RoceMr
  qps : SMap RoceQp
  ethRx : List (List Byte)
  edges : SMap Edge
  /-- Gathering packets held (R353, R368), and messages for keys not yet open (R383, R384). -/
  heldG : List HeldG
  heldMsg : List HeldMsg
  /-- Parked accesses of gatherings and RoCEv2 requests (R359, R370). -/
  parks : List Park
  /-- Firmware messages received on the control lane (R338). -/
  fwRx : List (List Byte)
  ord : Nat
deriving DecidableEq, Repr

/-- The state of the module. -/
structure State where
  /-- The commands that wait, first in, first out. -/
  pending : List Instr
  mod : Mod
  log : Log
  tiles : SMap Tile
  halves : SMap Half
  dies : SMap Die
  hbmStacks : SMap Stack
  /-- HBM bytes by module physical address (R292). -/
  hbm : List Host.Cell
  net : Net
  gather : GatherRegs
  jobs : SMap Job
  pubs : SMap Pub
  watches : SMap Watch
  losses : SMap Loss
  regions : SMap (BitVec 128)
  win : SMap WinCore
  mgmt : Mgmt
  fw : Fw
  sec : Sec
  jtag : Jtag
  power : Power
  flash : Flash
  /-- Status of the last register write, command or load (R9, R11, R527, R536). -/
  status : Byte
  /-- Accepted commands whose status is still to come. -/
  owed : List Late
  /-- The model's own counter of free values used (log entry 3). -/
  freeCtr : Nat
deriving DecidableEq, Repr

/-! ## Reset: the module right after module reset -/

/-- A context at reset (R134, R150, R396, R407): EMPTY; the generator and watch registers, TILE.BUNDLES and the exception
registers 0; TILE.WAIT_LIMIT 1,000; TILE.YIELD.PERIOD 1; c0-c15 0 (R135). g, v, p and PC: 0, DESIGN CHOICE (log entry 1). -/
def Ctx.reset : Ctx :=
  { st := .empty, g := [], v := [], p := [], c := [], pc := 0, rngSeed := 0, rngStep := 0, rngOp := 0, watchStep := 0,
    waitLimit := 1000, bundles := 0, excCause := 0, excPc := 0, excInfo := 0, yieldReg := 1, xbCount := 0, cursor := 0,
    yent := none, wait := none, yrec := none, switchPt := false }

/-- R192. -/
def Acnt.reset : Acnt := { enable := false, owner := 0, value := 0, err := none }

/-- R196, R198: EMPTY_HQ and FULL_HQ 0x1FFF, all else 0. -/
def Slot.reset : Slot :=
  { cfg := 0x0FFFFFFC00000000, filled := 0, gen := 0, st := .empty, heldFull := none, heldEmpty := none, drainWait := false }

/-- R283. -/
def Hq.reset : Hq := { cfg := 0, handles := [], held := [], draining := false, since := 0 }

/-- R48, R47, R81-R83, R122, R128, R186, R187, R240, R415: PRESS_CTRL 3, all else 0. -/
def TileRegs.reset : TileRegs :=
  { share := 0, pressCtrl := 3, pressStatus := 0, residueCount := 0, cvtStatus := 0, satCount := 0, wideOwner := 0,
    wideStatus := 0, bankConflicts := 0, errLastCause := 0, errLastAcnt := 0, sent := 0, late := 0, dropped := 0,
    switches := 0, yieldsSkipped := 0, switchLate := 0, ctxReg := 0 }

/-- Idle engines with empty queues. -/
def TileEng.reset : TileEng := { press := [], conv := [], wide := [], seq := 0, exch := none, runs := 0 }

/-- A tile at reset. Its scratchpad reads as zero, as R204 gives for a rejoin: DESIGN CHOICE at module reset (log entry 1). -/
def Tile.reset : Tile :=
  { regs := .reset, eng := .reset, ctx := [], readyOrd := [], spad := [], spadEcc := [], wideBuf := [], wideEcc := [], acnt := [], slots := [],
    hqs := [], weirMember := [], weirArrived := [], weirView := [], fetchBuf := [], fenced := false,
    faultHold := false, ctxEcc := [], residueFails := [], injResidue := false, injFlit := [] }

/-- R247, R267. -/
def Weir.reset : Weir :=
  { cfg := 0, epoch := 0, lostMask := 0, lost := false, orphaned := false, fault := false, rounds := 0, stale := 0,
    members := [], arrived := [], copyBad := false, copyInjected := false, site := 0, release := [] }

/-- No peer has loaded or arrived. -/
def WeirL6.reset : WeirL6 := { peersLoaded := 0, opened := false, peersArrived := 0, peersLost := 0 }

/-- R284, R307. -/
def Stq.reset : Stq :=
  { cfg := 0, st := .disabled, handles := [], recs := [], held := [], since := 0, thawTo := .disabled }

/-- R289: PASSES 1, all else 0. -/
def Reach.reset : Reach :=
  { cfg := 0x0000000100000000, stride := 0, base := 0, nextBase := 0, pass := 0, pending := false, st := .disabled, descs := [], recs := [],
    since := 0, thawTo := .disabled, world := false }

/-- A free transfer record (R281). -/
def XferRec.reset : XferRec :=
  { gen := 0, st := .free, job := 0, world := false, tile := 0, qid := 0, reach := false, passAddr := 0, desc := 0, ord := 0,
    handle := none, htile := 0, view := 0, viewEp := 0, handed := false, begun := 0, legs := [], nextOp := 0xFFFFFF, ended := false, reason := 0,
    parkedAt := 0, ctl := none, freezing := false }

/-- An empty accumulator (R93). -/
def WAcc.reset : WAcc := { reported := false, bound := none, sat := 0, nonzero := false, lost := false }

/-- R431: every field 0. No position is fenced in the flash map, generation 0: DESIGN CHOICE (log entry 5). -/
def Half.reset : Half :=
  { req := 0, limit := 0, step := 0, changes := 0, cycles := 0, thermal := 0, power := 0, spare8 := 0, lastChange := 0,
    map := [], mapGen := 0, flashFenced := [], flashGen := 0, bypassed := [] }

/-- R308: PARK_LIMIT 100, DRAIN_LIMIT 100. -/
def StreamRegs.reset : StreamRegs := { cfg := 0x00640064, faults := 0, handlesDropped := 0, tagsStale := 0 }

/-- R441, R443: ABSENT until discovery; AUTO_REJOIN 1, ATTEMPTS 3, REJOIN_DELAY 100. THERM.DIE has no reset value: 0,
DESIGN CHOICE (log entry 1). -/
def Die.reset : Die :=
  { st := .absent, fails := 0, cause := 0, rejoins := 0, cfg := 0xB0000064, heldAt := 0, joinDue := false, join := none, missed := false, retired := false, tripped := false,
    stream := .reset, recs := [], stq := [], reach := [], tlb := [], weirs := [], wacc := [], watchReady := false, thermDie := 0 }

/-- R327: STATE TRAINING, PATROL_HOURS 12, LANE_LIMIT 16, all else 0. -/
def Stack.reset : Stack :=
  { cfg := 0x00000C10, st := .training, spares := [], repairs := [], laneErrs := [], failing := [], ce := 0, ue := 0, passes := 0, ceSince := 0,
    ceSummaryAt := none, patrol := 0, reqs := [], writebacks := [], blocks := [], retiredFrames := [], hot := false,
    halfRate := false, injected := [], badRows := [], ceRows := [] }

/-- R361. -/
def PortCnt.reset : PortCnt :=
  { replays := 0, crcErrors := 0, fecCorrected := 0, fecUncorr := 0, retrains := 0, framesDropped := 0 }

/-- R331: W_EXCH, W_COLL and W_STREAM 16; ROLE from flash, DISABLED: DESIGN CHOICE (log entry 5). -/
def Port.reset : Port :=
  { cfg := 0x04104000, role := 0, st := .off, live := false, width := 0, usable := 0, epoch := 0, partner := 0, cnt := .reset, attempts := 0,
    txSeq := 0, rxExp := 0, rxSinceAck := 0, replay := [], sending := [], txq := [], turn := (2, 0), wire := [], rxPart := [], rxUsed := [],
    credits := [], noAdv := 0,
    replaySum := 0, summaryAt := none, ackAt := 0, notUpSince := 0, linkReset := false, paused := 0, owesNak := false,
    injFlit := false, injSent := false, landing := [], popped := [], stopSince := 0 }

/-- R358: ACNT_TILE 0xFFFF, all else 0. -/
def RoceMr.reset : RoceMr := { reg := 0x001FFFE000000000, base := 0, len := 0 }

/-- A queue pair with no work. The spec names no register that enables one: every queue pair is enabled, DESIGN CHOICE (log entry 17). -/
def RoceQp.reset : RoceQp :=
  { enabled := true, error := false, wrs := [], retries := 0, parked := false, acked := false, rate := 0, rxPsn := 0, txPsn := 0,
    begun := false, cnpAt := none, cnpSent := none, readOff := 0, port := 0, msgPsn := 0, endPsn := 0, inWrite := none, txq := [], out := [], cpls := [] }

/-- R389. -/
def Shard.reset : Shard := { valid := false, job := 0, pins := 0, id := 0, version := 0, base := 0, len := 0 }

/-- R401, R404, R294, R418, R416, R92, R96, R365, R387, R462: every field 0. -/
def JobRegs.reset : JobRegs :=
  { image := 0, save := 0, saveSpad := 0, loadInfo := 0, trnRoot := 0, trnView := 0, pubLatest := 0, armStep := 0,
    closeStatus := 0, gatherPost := 0, layoutSt := 0, layoutEpoch := 0, errRing := 0, errHead := 0, errTail := 0, errLost := 0 }

/-- R399: UNLOADED. -/
def Job.reset : Job :=
  { st := .unloaded, regs := .reset, saved := [], frozen := false, closing := none, reshard := none, postClosed := false,
    drainSince := none, ringIrq := false, viewEp := 0, viewOwed := [], imageWait := none, imageStatus := 0, reshardStatus := 0 }

/-- R416. -/
def Pub.reset : Pub := { st := 0, job := 0, count := 0, refs := 0, base := 0, version := 0 }

/-- R86-R89: HIST 15, HEADROOM 1, FMT 3, ZERO_LIMIT 32; EXP 0x8080; HISTORY all 0x8000; SAT_ALARM 4,096; all else 0. -/
def Watch.reset : Watch :=
  { cfg := 0x0F432000, pendCfg := none, openStep := 0, exp := 0x8080,
    history := 0x8000800080008000800080008000800080008000800080008000800080008000,
    satAlarm := 4096, satTotal := 0, satLast := 0, zeroStreak := 0, lateCount := 0, flags := 0 }

/-- R106: EMA_SHIFT 4, BAND_NUM 128, WARMUP 8, all else 0. -/
def Loss.reset : Loss :=
  { cfg := 0x00408008, bandAbs := 0, avg := 0, last := 0, lastStep := 0, spikes := 0, rejects := 0, accepted := 0 }

/-- R535-R537. -/
def WinCore.reset : WinCore :=
  { done := 0, waits := [], first := 0, last := 0, stage := [], stageSlot := 0, caps := [], loaded := 0, sample := [],
    domain := 0 }

/-- R522, R531: events to ff02::12:16 port 53,216, minimum severity 1, class mask 0x7F; all else empty or 0. -/
def Mgmt.reset : Mgmt :=
  { plca := true, addrOk := true, lastBeacon := 0, dadAt := 0, evAddr := 0xFF020000000000000000000000120016, evPort := 53216,
    evMinSev := 1, evMask := 0x7F, requests := 0, repeats := 0, dropped := 0, eventsSent := 0, eventsLost := 0, evSeq := 0,
    unacked := [], evQueue := [], outQueue := [], sent := [], icmpOut := [], cache := [], waiting := [], segs := [], parts := [] }

/-- R476: M0 active, STANDBY NONE; slot from flash: A, DESIGN CHOICE (log entry 5). -/
def Fw.reset : Fw :=
  { active := false, slot := false, standby := 0, markA := 0, markB := 0, probationAt := 0, handover := none, slotA := [], slotB := [],
    appImage := none, meas := [], journal := 0, checkpointAt := 0, appReset := 0 }

/-- R494, R508, R510: no owner, no challenge, no lockout. Monotonic counters 0: DESIGN CHOICE (log entry 5). -/
def Sec.reset : Sec :=
  { svnIsland := 0, svnMgmt := 0, svnDiectl := 0, svnApp := 0, keyRevoke := 0, ownerGen := 0, owner := none, challenge := none,
    refusals := [], lockoutAt := none, nonce := 0, preparing := false, reportTime := 0, report := [], lastTokenStatus := 0,
    cdi2 := 0, cdi3 := 0, readyRegions := [] }

/-- R511: the instruction after reset is IDCODE or BYPASS as the standard gives; BYPASS here, DESIGN CHOICE (log entry 1). -/
def Jtag.reset : Jtag := { instr := 0, boundary := 0, tdo := 0 }

/-- R569: STATE 0. GOOD and ON have no reset value: no phase is shed and none is on, DESIGN CHOICE (log entry 1). -/
def Rail.reset : Rail := { shed := 0, on := 0, st := 0, backAt := none }

/-- R569: CAP 680 and PEAK 760 from an absent flash record, SHED_EN 1; STATE 1 STANDBY; ALLOW 100; ALERT_MASK 0x2F;
THERM.CFG 95, 100, 110. VIN, IIN and PIN have no reset value: 0, DESIGN CHOICE (log entry 1). -/
def Power.reset : Power :=
  { cfg := 0x550BE200, st := 1, vin := 0, iin := 0, pin := 0, allow := 100, allowance := 0, alertSrc := 0, alertMask := 0x2F,
    therm := 0x5F646E00, rails := [], pgood := false, paused := false, scaled := false }

/-- R433, R446, R243, R257, R415, R353, R544: MESH.CFG 64, WAIT.CFG 16 and LEND_EN, SWITCH.CFG 160, TZ.NODE.CFG 160 and 7,
RoCEv2 recovery 50, 1,000 and 100. -/
def Mod.reset : Mod :=
  { st := .boot, step := 0, present := 0, autostart := false, time := 0, mapTag := 0, meshCfg := 0x00400000,
    waitCfg := 0x00108000, switchCfg := 0x00A00000, nodeCfg := 0x00A00007, invalAddr := 0, invalWait := [], slotId := 0,
    refSel := false, resetN := false, fatal := false, fatalAt := 0, ucie := 0xF, rocePeriod := 50,
    roceRise := 1000, roceFloor := 100 }

/-- R461, R465: ERR.CFG AUTO_FENCE 1, AUTO_BYPASS 1, FENCE_RESIDUE 2, MERGE_MS 1; an empty log whose first record takes SEQ 1. -/
def Log.reset : Log :=
  { recs := [], seq := 1, head := 0, tail := 0, lost := 0, cfg := 0xC2010000, wins := [], flashFatal := [], dropTimes := [], weirFaults := [] }

/-- R425. SPARES has no reset value: an edge that has used no spare reads 2, DESIGN CHOICE (log entry 1). -/
def Edge.reset : Edge := { st := 0, used := [], retrained := 0, replays := 0, injFlit := false }

/-- The configuration flash of a part whose records of this kind are all absent (log entry 5). -/
def Flash.reset : Flash := { roles := [], autostart := none, slot := none, powerCap := none, gen := 0 }

/-- R363, R393: GATHER.CFG LAG 100, RESHARD_LIMIT 50, DRAIN_LIMIT 10; every counter 0. -/
def GatherRegs.reset : GatherRegs :=
  { trees := [], cfg := 0x0064320A, completed := 0, abandoned := 0, stale := 0, restarts := 0, staleSum := 0, staleAt := none,
    opened := [], shards := [], pins := [] }

/-- MESH.TREE 0 (R236). -/
def Tree.reset : Tree := { cfg := 0, broken := false }

/-- An empty network. -/
def Net.reset : Net :=
  { blocks := [], nextBlk := 0, markers := [], nextMk := 0, prunes := [], trees := [], routes := [], padds := [], arrivals := [], l6 := [],
    reports := [], peers := [], peerLost := 0, peerSeen := [], exchanged := [], lands := [], ports := [], mrs := [], qps := [],
    ethRx := [], edges := [], heldG := [], heldMsg := [], parks := [], fwRx := [], ord := 0 }

/-- The module right after module reset. -/
def State.reset : State :=
  { pending := [], mod := .reset, log := .reset, tiles := [], halves := [], dies := [], hbmStacks := [], hbm := [], net := .reset,
    gather := .reset, jobs := [], pubs := [], watches := [], losses := [], regions := [], win := [], mgmt := .reset, fw := .reset,
    sec := .reset, jtag := .reset, power := .reset, flash := .reset, status := 0, owed := [], freeCtr := 0 }

end Sys2Proof.Machine
end

