-- ==== Sys2Proof/Machine/Ops.lean ====
section
/-!
DEFINITION. The named operations over State: objects by number, register images, events, error records, exceptions,
the scratchpad, arrival counters, slots and handle pushes.
-/
namespace Sys2Proof.Machine
open Sys2Proof

/-! ## Cause values that more than one family raises -/

/-- Status OK. -/
def stOk : Byte := 0x00
/-- ILLEGAL_OP (R176). -/
def cIllegalOp : Byte := 0x01
/-- MISALIGNED (R176). -/
def cMisaligned : Byte := 0x03
/-- ADDR_RANGE (R176). -/
def cAddrRange : Byte := 0x04
/-- OBJ_OWNER (R205). -/
def cObjOwner : Byte := 0x50
/-- SLOT_TIMEOUT (R205). -/
def cSlotTimeout : Byte := 0x51
/-- SLOT_STATE (R205). -/
def cSlotState : Byte := 0x52
/-- SLOT_RANGE (R205). -/
def cSlotRange : Byte := 0x53
/-- SPAD_ECC (R205). -/
def cSpadEcc : Byte := 0x54
/-- SHARE_RANGE (R205). -/
def cShareRange : Byte := 0x58
/-- ARRIVAL_DROPPED (R205). -/
def cArrivalDropped : Byte := 0x59
/-- CFG_BUSY (R205). -/
def stCfgBusy : Byte := 0x5A
/-- DEST_FENCED (R244). -/
def cDestFenced : Byte := 0x66
/-- STQ_REFUSED (R310). -/
def cStqRefused : Byte := 0x86
/-- HANDLE_DROPPED (R310). -/
def cHandleDropped : Byte := 0x87
/-- NO_OBJECT (R547). -/
def stNoObject : Byte := 0x98
/-- NO_SUBINDEX (R547). -/
def stNoSub : Byte := 0x99
/-- ACCESS (R547). -/
def stAccess : Byte := 0x9A
/-- LENGTH (R547). -/
def stLength : Byte := 0x9B
/-- INVALID_VALUE, the invalid-value status of R11 (R547). -/
def stInvalid : Byte := 0x9C
/-- BUSY (R547). -/
def stBusy : Byte := 0x9D
/-- SEGMENT (R547). -/
def stSegment : Byte := 0x9E
/-- DIE_LOST (R437, R521). -/
def cDieLost : Byte := 0xD0
/-- JOB_STATE (R421). -/
def stJobState : Byte := 0xC4
/-- WORLD_VIOLATION (R514). -/
def stWorld : Byte := 0xF0

/-! ## Free values (log entry 3) -/

/-- A free 64-bit value, fresh at this use. -/
def freshWord (s : State) : W64 × State := (Config.freeWord s.freeCtr, { s with freeCtr := s.freeCtr + 1 })

/-- A free choice, fresh at this use. -/
def freshBit (s : State) : Bool × State := (Config.freeBit s.freeCtr, { s with freeCtr := s.freeCtr + 1 })

/-- n free bytes, fresh at this use. -/
def freshBytes (n : Nat) (s : State) : List Byte × State :=
  ((List.range n).map fun i => (Config.freeWord (s.freeCtr + i)).truncate 8, { s with freeCtr := s.freeCtr + n })

/-! ## Tile IDs (R8) -/

/-- Die of a tile ID. -/
def tDie (t : W16) : Nat := fldN t 11 4
/-- True for half H1. -/
def tH1 (t : W16) : Bool := bitAt t 10
/-- Logical index. -/
def tIdx (t : W16) : Nat := fldN t 0 10
/-- Number of a half: die × 2, + 1 for H1. -/
def halfNo (die : Nat) (h1 : Bool) : Nat := die * 2 + (if h1 then 1 else 0)
/-- The tile ID of a die, half and index. -/
def tileId (die : Nat) (h1 : Bool) (idx : Nat) : W16 := BitVec.ofNat 16 (die * 2048 + (if h1 then 1024 else 0) + idx)

/-! ## Objects by number -/

def getTile (s : State) (t : W16) : Tile := mget Tile.reset s.tiles t.toNat
def putTile (s : State) (t : W16) (x : Tile) : State := { s with tiles := mset Tile.reset s.tiles t.toNat x }
def modTile (s : State) (t : W16) (f : Tile → Tile) : State := putTile s t (f (getTile s t))

def getCtx (x : Tile) (j : BitVec 2) : Ctx := mget Ctx.reset x.ctx j.toNat
/-- A context leaves the core. -/
def leavesCore (old new : CtxSt) : Bool := decide (old = .running) && decide (new ≠ .running)
/-- The order in which READY contexts take the core, as context j changes state (R398): as the running context leaves the core, the
lowest-numbered READY one comes first (rule 3); one that becomes READY later comes after (rule 4). -/
def noteReady (l : List (BitVec 2)) (j : BitVec 2) (old new : CtxSt) : List (BitVec 2) :=
  let l := if new = .ready then (if l.contains j then l else l ++ [j]) else l.filter (· ≠ j)
  if leavesCore old new then [0, 1, 2, 3].filter l.contains else l
/-- A context put back. One that leaves the core has its area of the context store written: an error that stood there is gone (R411). -/
def putCtx (x : Tile) (j : BitVec 2) (c : Ctx) : Tile :=
  { x with
    ctx := mset Ctx.reset x.ctx j.toNat c
    readyOrd := noteReady x.readyOrd j (getCtx x j).st c.st
    ctxEcc := if leavesCore (getCtx x j).st c.st then merase x.ctxEcc j.toNat else x.ctxEcc }
def modCtx (s : State) (t : W16) (j : BitVec 2) (f : Ctx → Ctx) : State :=
  modTile s t fun x => putCtx x j (f (getCtx x j))

def getAcnt (x : Tile) (n : Nat) : Acnt := mget Acnt.reset x.acnt n
def putAcnt (x : Tile) (n : Nat) (a : Acnt) : Tile := { x with acnt := mset Acnt.reset x.acnt n a }

def getSlot (x : Tile) (n : Nat) : Slot := mget Slot.reset x.slots n
def putSlot (x : Tile) (n : Nat) (a : Slot) : Tile := { x with slots := mset Slot.reset x.slots n a }

def getHq (x : Tile) (n : Nat) : Hq := mget Hq.reset x.hqs n
def putHq (x : Tile) (n : Nat) (a : Hq) : Tile := { x with hqs := mset Hq.reset x.hqs n a }

def getHalf (s : State) (i : Nat) : Half := mget Half.reset s.halves i
def putHalf (s : State) (i : Nat) (x : Half) : State := { s with halves := mset Half.reset s.halves i x }
def tileHalf (s : State) (t : W16) : Half := getHalf s (halfNo (tDie t) (tH1 t))

def getDie (s : State) (d : Nat) : Die := mget Die.reset s.dies d
def putDie (s : State) (d : Nat) (x : Die) : State := { s with dies := mset Die.reset s.dies d x }
def modDie (s : State) (d : Nat) (f : Die → Die) : State := putDie s d (f (getDie s d))

def getStack (s : State) (n : Nat) : Stack := mget Stack.reset s.hbmStacks n
def putStack (s : State) (n : Nat) (x : Stack) : State := { s with hbmStacks := mset Stack.reset s.hbmStacks n x }

def getJob (s : State) (j : BitVec 2) : Job := mget Job.reset s.jobs j.toNat
def putJob (s : State) (j : BitVec 2) (x : Job) : State := { s with jobs := mset Job.reset s.jobs j.toNat x }
def modJob (s : State) (j : BitVec 2) (f : Job → Job) : State := putJob s j (f (getJob s j))

def getWeir (d : Die) (w : BitVec 12) : Weir := mget Weir.reset d.weirs w.toNat
def putWeir (d : Die) (w : BitVec 12) (x : Weir) : Die := { d with weirs := mset Weir.reset d.weirs w.toNat x }

def getStq (d : Die) (q : BitVec 12) : Stq := mget Stq.reset d.stq q.toNat
def putStq (d : Die) (q : BitVec 12) (x : Stq) : Die := { d with stq := mset Stq.reset d.stq q.toNat x }

def getReach (d : Die) (r : BitVec 10) : Reach := mget Reach.reset d.reach r.toNat
def putReach (d : Die) (r : BitVec 10) (x : Reach) : Die := { d with reach := mset Reach.reset d.reach r.toNat x }

def getRec (d : Die) (r : BitVec 9) : XferRec := mget XferRec.reset d.recs r.toNat
def putRec (d : Die) (r : BitVec 9) (x : XferRec) : Die := { d with recs := mset XferRec.reset d.recs r.toNat x }

def getPort (s : State) (p : Nat) : Port := mget Port.reset s.net.ports p
def putPort (s : State) (p : Nat) (x : Port) : State := { s with net := { s.net with ports := mset Port.reset s.net.ports p x } }

def getTree (s : State) (n : BitVec 10) : Tree := mget Tree.reset s.net.trees n.toNat
def putTree (s : State) (n : BitVec 10) (x : Tree) : State :=
  { s with net := { s.net with trees := mset Tree.reset s.net.trees n.toNat x } }

def getWatch (s : State) (w : BitVec 12) : Watch := mget Watch.reset s.watches w.toNat
def putWatch (s : State) (w : BitVec 12) (x : Watch) : State := { s with watches := mset Watch.reset s.watches w.toNat x }

def getPub (s : State) (e : Nat) : Pub := mget Pub.reset s.pubs e
def putPub (s : State) (e : Nat) (x : Pub) : State := { s with pubs := mset Pub.reset s.pubs e x }

def getEdge (s : State) (e : Nat) : Edge := mget Edge.reset s.net.edges e
def putEdge (s : State) (e : Nat) (x : Edge) : State := { s with net := { s.net with edges := mset Edge.reset s.net.edges e x } }

def getRail (s : State) (r : Nat) : Rail := mget Rail.reset s.power.rails r
def putRail (s : State) (r : Nat) (x : Rail) : State := { s with power := { s.power with rails := mset Rail.reset s.power.rails r x } }

def setStatus (s : State) (st : Byte) : State := { s with status := st }

/-- A command whose status comes later completes with it. -/
def payLate (s : State) (l : Late) (st : Byte) : State :=
  if s.owed.contains l then { s with status := st, owed := s.owed.filter fun x => decide (x ≠ l) } else s

/-! ## Presence (R17) -/

/-- Die d was present at start-up. -/
def diePresent (s : State) (d : Nat) : Bool := decide (d < 12) && bitAt s.mod.present d
/-- Die d is READY. -/
def dieReady (s : State) (d : Nat) : Bool := decide ((getDie s d).st = .ready)
/-- A tile is present when its die is present and its index is below its half's count (R17). -/
def tilePresent (s : State) (t : W16) : Bool :=
  !bitAt t 15 && diePresent s (tDie t) && decide (tIdx t < (tileHalf s t).map.length)
/-- All present tile IDs, ascending. -/
def presentTiles (s : State) : List W16 :=
  ((List.range 12).flatMap fun d => [false, true].flatMap fun h =>
    (List.range ((getHalf s (halfNo d h)).map.length)).map fun i => tileId d h i).filter (tilePresent s)

/-- What a command of a tile answers: its effect where the tile is present, the fault where it is not (log entry 2). -/
def onTile (t : W16) (s : State) (f : State → State) : Host.Outcome State Fault Refusal :=
  if tilePresent s t then .next (f s) else .fault .noSuchTile

/-- The job contexts. -/
def jobs4 : List (BitVec 2) := [0, 1, 2, 3]

/-- The context that holds the tile's core (R398: at most one). -/
def runningCtx (x : Tile) : Option (BitVec 2) := jobs4.find? fun j => decide ((getCtx x j).st = .running)

/-- Nanoseconds of MOD.TIME. -/
def now (s : State) : Nat := s.mod.time.toNat

/-! ## Register images -/

def DieSt.code : DieSt → Nat | .absent => 0 | .held => 1 | .joining => 2 | .ready => 3 | .failed => 4
def ModSt.code : ModSt → Nat
  | .boot => 0 | .standby => 1 | .ramp => 2 | .discover => 3 | .train => 4 | .ready => 5 | .failed => 6
def PortSt.code : PortSt → Nat | .off => 0 | .training => 1 | .up => 2 | .retrain => 3 | .stopping => 4 | .down => 5
def StackSt.code : StackSt → Nat | .offline => 0 | .training => 1 | .ready => 2 | .recal => 3
def JobSt.code : JobSt → Nat
  | .unloaded => 0 | .loading => 1 | .paused => 2 | .active => 3 | .pausing => 4 | .unloading => 5 | .saved => 6 | .finished => 7
def CtxSt.code : CtxSt → Nat
  | .empty => 0 | .ready => 1 | .running => 2 | .yielded => 3 | .paused => 4 | .stopped => 5 | .halted => 6
def StqSt.code : StqSt → Nat | .disabled => 0 | .active => 1 | .draining => 2 | .aborting => 3 | .frozen => 4
def ReachSt.code : ReachSt → Nat
  | .disabled => 0 | .idle => 1 | .armed => 2 | .draining => 3 | .aborting => 4 | .frozen => 5
def SlotSt.code : SlotSt → Nat | .empty => 0 | .filling => 1 | .full => 2

/-- DIE.STATE (R443). -/
def dieStateReg (d : Die) : W32 :=
  at' 32 29 (BitVec.ofNat 3 d.st.code) ||| at' 32 21 d.fails ||| at' 32 16 d.cause ||| at' 32 0 d.rejoins
/-- MOD.STATE (R446). -/
def modStateReg (m : Mod) : W32 :=
  at' 32 29 (BitVec.ofNat 3 m.st.code) ||| at' 32 24 m.step ||| at' 32 0 m.present
/-- TZ.PORT.STATUS (R333). -/
def portStatusReg (p : Port) : W32 :=
  at' 32 29 (BitVec.ofNat 3 p.st.code) ||| at' 32 25 p.width ||| at' 32 17 p.usable ||| at' 32 9 p.epoch
/-- Tiles on which context j is STOPPED (R399). -/
def stoppedTiles (s : State) (j : BitVec 2) : Nat := (s.tiles.filter fun e => decide ((getCtx e.2 j).st = .stopped)).length
/-- JOB.STATE (R399). -/
def jobStateReg (s : State) (j : BitVec 2) : W32 :=
  at' 32 28 (BitVec.ofNat 4 (getJob s j).st.code) ||| at' 32 0 (BitVec.ofNat 15 (stoppedTiles s j))
/-- FW.STATE (R476). -/
def fwStateReg (f : Fw) : W32 := at' 32 31 (b2 f.active) ||| at' 32 30 (b2 f.slot) ||| at' 32 28 f.standby
/-- HBM.STATE.SPARE_LANES (R327): of the channel with fewest. -/
def spareLanes (k : Stack) : Byte := match k.spares with | [] => 0 | c :: rest => if k.st = .offline then 0 else rest.foldl (fun a b => if b < a then b else a) c
/-- HBM.STATE (R327): REPAIRS holds at 4,095. -/
def hbmStateReg (k : Stack) : W32 :=
  at' 32 24 (spareLanes k) ||| at' 32 12 (BitVec.ofNat 12 (Nat.min 4095 k.repairs.length)) ||| at' 32 0 (BitVec.ofNat 3 k.st.code)
/-- SLOT.STATUS (R198). -/
def slotStatusReg (x : Slot) : W32 :=
  at' 32 14 (BitVec.ofNat 18 x.filled) ||| at' 32 2 x.gen ||| at' 32 0 (BitVec.ofNat 2 x.st.code)

/-! ## Events of the management port (R531, R532) -/

/-- An event as a message (R523, R532): an 8-byte head and its body. -/
def eventMsg (s : State) (e : Event) : DdpMsg :=
  { op := 0x0A, status := 0, index := 0, sub := 0, inst := 0, seq := e.seq, offset := 0,
    value := toLE 8 (e.kind * 2 ^ 56 + e.obj.toNat * 2 ^ 32) ++ e.body, dest := ⟨s.mgmt.evAddr, s.mgmt.evPort⟩ }

/-- Queued events sent while fewer than 16 are unacknowledged (R531). -/
def pumpEvents : Nat → State → State
  | 0, s => s
  | n + 1, s =>
    match s.mgmt.evQueue with
    | [] => s
    | e :: rest =>
      if s.mgmt.unacked.length < 16 then
        let e' := { e with seq := s.mgmt.evSeq, sends := 1, sentAt := s.mod.time }
        pumpEvents n { s with mgmt := { s.mgmt with
          evQueue := rest, unacked := s.mgmt.unacked ++ [e'], evSeq := s.mgmt.evSeq + 1,
          eventsSent := s.mgmt.eventsSent + 1, outQueue := s.mgmt.outQueue ++ [eventMsg s e'] } }
      else s

/-- An error event of lowest severity in a queue, oldest first. -/
def lowestError (q : List Event) : Option Nat :=
  let errs := (List.range q.length).filter fun i => (q[i]?.map (·.kind)) = some 1
  errs.find? fun i => errs.all fun k =>
    decide (((q[i]?.map (·.sev.toNat)).getD 0) ≤ ((q[k]?.map (·.sev.toNat)).getD 0))

/-- An event of a kind and object queued, as R531 gives; the kind mask selects it. -/
def raiseEvent (s : State) (kind : Nat) (obj : W16) (body : List Byte) (sev : BitVec 2) : State :=
  if bitAt s.mgmt.evMask (kind - 1) then
    let e : Event := { seq := 0, kind, obj, body, sev, sends := 0, sentAt := 0 }
    let q := s.mgmt.evQueue
    let m := s.mgmt
    let m' : Mgmt :=
      if decide (kind ≠ 1) && q.any (fun x => decide (x.kind = kind) && decide (x.obj = obj)) then
        { m with evQueue := q.map fun x => if x.kind = kind ∧ x.obj = obj then { x with body } else x }
      else if q.length < 256 then { m with evQueue := q ++ [e] }
      else if kind = 1 then { m with eventsLost := m.eventsLost + 1 }
      else match lowestError q with
        | some i => { m with evQueue := q.eraseIdx i ++ [e], eventsLost := m.eventsLost + 1 }
        | none => { m with eventsLost := m.eventsLost + 1 }
    pumpEvents 16 { s with mgmt := m' }
  else s

def setDieSt (s : State) (d : Nat) (f : Die → Die) : State :=
  let s' := modDie s d f
  raiseEvent s' 4 (BitVec.ofNat 16 d) (toLE 4 (dieStateReg (getDie s' d)).toNat) 0

def setModSt (s : State) (f : Mod → Mod) : State :=
  let s' := { s with mod := f s.mod }
  raiseEvent s' 3 0 (toLE 4 (modStateReg s'.mod).toNat) 0

def setPort (s : State) (p : Nat) (f : Port → Port) : State :=
  let s' := putPort s p (f (getPort s p))
  raiseEvent s' 5 (BitVec.ofNat 16 p) (toLE 4 (portStatusReg (getPort s' p)).toNat) 0

def setJobSt (s : State) (j : BitVec 2) (st : JobSt) : State :=
  let s' := modJob s j fun x => { x with st }
  raiseEvent s' 2 (j.setWidth 16) (toLE 4 (jobStateReg s' j).toNat) 0

def setStackSt (s : State) (n : Nat) (f : Stack → Stack) : State :=
  let s' := putStack s n (f (getStack s n))
  raiseEvent s' 7 (BitVec.ofNat 16 n) (toLE 4 (hbmStateReg (getStack s' n)).toNat) 0

def setFw (s : State) (f : Fw → Fw) : State :=
  let s' := { s with fw := f s.fw }
  raiseEvent s' 6 0 (toLE 4 (fwStateReg s'.fw).toNat) 0

/-! ## HBM bytes as the module's own units reach them (R22) -/

/-- Stack and offset of a physical address (R292). -/
def paStack (pa : Nat) : Nat := pa / 2 ^ 36
/-- Stack n serves requests: READY, or held briefly by a recalibration (R320). -/
def stackUp (s : State) (n : Nat) : Bool := decide (n < 12) && (decide ((getStack s n).st = .ready) || decide ((getStack s n).st = .recal))
/-- STACK_GONE (R310). -/
def cStackGone : Byte := 0x80
/-- HBM_DATA (R310). -/
def cHbmData : Byte := 0x89

/-- Bytes a physical address holds. -/
def hbmBytes (s : State) (pa n : Nat) : List Byte := rdBytes s.hbm pa n

/-- The state of a 64-byte block of a stack; none where it holds a good code. -/
def blkSt (k : Stack) (b : Nat) : Option BlkSt := (k.blocks.find? fun (e : Nat × BlkSt) => decide (e.1 = b)).map Prod.snd
def setBlkSt (k : Stack) (b : Nat) (v : BlkSt) : Stack := { k with blocks := mins b v (merase k.blocks b) }
/-- A block rewritten whole with a good code: a pending write-back is dropped (R316, R317). -/
def cleanBlk (k : Stack) (b : Nat) : Stack :=
  { k with blocks := merase k.blocks b, writebacks := k.writebacks.filter (· ≠ b), injected := k.injected.filter (· ≠ b) }

/-- The pseudo-channel of an offset within a stack (R312). -/
def pseudoChannel (off : Nat) : Nat := off / 256 % 64 ^^^ off / 16384 % 64

/-- The lane that a correction is counted for (R312, R320). -/
def ceLane (k : Stack) (b : Nat) : Fin 32 × Byte := (Fin.ofNat 32 (pseudoChannel (64 * b) / 2), Config.hbmLane k.ce.toNat b)

/-- A lane has more corrections within the last second than HBM.CFG.LANE_LIMIT, where that is not 0 (R320, R327). -/
def laneOver (k : Stack) (t : W64) (l : Fin 32 × Byte) : Bool :=
  let lim := fldN k.cfg 0 8
  decide (lim ≠ 0)
  && decide (lim < (k.laneErrs.filter fun e => decide ((e.1, e.2.1) = l) && decide (t.toNat < e.2.2.toNat + 1000000000)).length)

/-- HBM.CFG.PATROL_HOURS in ns (R327). -/
def patrolPeriod (k : Stack) : Nat := 3600000000000 * fldN k.cfg 8 8

/-- One correction counted at a MOD.TIME (R315): for its lane within the last second (R320), for its row within the last patrol period
(R323); a lane beyond LANE_LIMIT fails (R322). -/
def countCe (k : Stack) (t : W64) (b : Nat) : Stack :=
  let l := ceLane k b
  let k := { k with
    ce := k.ce + 1, ceSince := k.ceSince + 1
    ceRows := (k.ceRows.filter fun (e : Nat × Nat × W64) => decide (t.toNat < e.2.2.toNat + patrolPeriod k)) ++ [(Config.hbmRow b, b, t)]
    laneErrs := (k.laneErrs.filter fun (e : Fin 32 × Byte × W64) => decide (t.toNat < e.2.2.toNat + 1000000000)) ++ [(l.1, l.2, t)] }
  { k with failing := if laneOver k t l && !k.failing.contains l then k.failing ++ [l] else k.failing }

/-- The firmware retires the frame of a block it poisons, or of one in a row it cannot repair: up to 1,024 frames of a stack (R324). -/
def retireFrame (k : Stack) (b : Nat) : Stack :=
  let f := b / 1024
  if k.retiredFrames.contains f || decide (1024 ≤ k.retiredFrames.length) then k else { k with retiredFrames := k.retiredFrames ++ [f] }

/-- An uncorrectable block found: counted and poisoned (R316). -/
def poisonBlk (k : Stack) (b : Nat) : Stack :=
  let r := Config.hbmRow b
  retireFrame { setBlkSt k b .poisoned with
    ue := k.ue + 1, writebacks := k.writebacks.filter (· ≠ b)
    badRows := if k.badRows.any (fun e => decide (e.1 = r)) then k.badRows else k.badRows ++ [(r, b)] } b

/-- A block read (R315, R316): a correctable one is counted and its write-back scheduled; false where it delivers no data. -/
def readBlk (k : Stack) (t : W64) (b : Nat) : Stack × Bool :=
  match blkSt k b with
  | none => (k, true)
  | some .correctable => ({ countCe k t b with writebacks := if k.writebacks.contains b then k.writebacks else k.writebacks ++ [b] }, true)
  | some .uncorrectable => (poisonBlk k b, false)
  | some .poisoned => ({ k with ue := k.ue + 1 }, false)

/-- A block written, whole or in part (R316): false where the merge is not made. -/
def writeBlk (k : Stack) (t : W64) (b : Nat) (whole : Bool) : Stack × Bool :=
  match blkSt k b, whole with
  | none, _ => (cleanBlk k b, true)
  | some _, true => (cleanBlk k b, true)
  | some .correctable, false => (cleanBlk (countCe k t b) b, true)
  | some _, false => (poisonBlk k b, false)

/-- Bytes cut at 64-byte boundaries of their address. -/
def blkPieces : Nat → Nat → List Byte → List (Nat × List Byte)
  | 0, _, _ => []
  | fuel + 1, a, bs =>
    if bs.isEmpty then []
    else (a, bs.take (64 - a % 64)) :: blkPieces fuel (a + (64 - a % 64)) (bs.drop (64 - a % 64))

/-- One piece written at a physical address: the status of the write. -/
def hbmPut1 (s : State) (pa : Nat) (bs : List Byte) : State × Byte :=
  let n := paStack pa
  if stackUp s n then
    let (k, ok) := writeBlk (getStack s n) s.mod.time (pa % 2 ^ 36 / 64) (decide (bs.length = 64))
    let s := putStack s n k
    if ok then ({ s with hbm := wrBytes s.hbm pa bs }, stOk) else (s, cHbmData)
  else (s, cStackGone)

/-- Bytes written at a physical address: the first status that is not OK. -/
def hbmPut (s : State) (pa : Nat) (bs : List Byte) : State × Byte :=
  (blkPieces (bs.length + 1) pa bs).foldl (fun (r : State × Byte) e =>
    let (s, st) := hbmPut1 r.1 e.1 e.2
    (s, if r.2 = 0 then st else r.2)) (s, stOk)

/-- n bytes read at a physical address: the status of the read beside them. -/
def hbmGet (s : State) (pa n : Nat) : State × List Byte × Byte :=
  let ps := blkPieces (n + 1) pa (hbmBytes s pa n)
  ps.foldl (fun (r : State × List Byte × Byte) e =>
    let k := paStack e.1
    if stackUp r.1 k then
      let (st, ok) := readBlk (getStack r.1 k) r.1.mod.time (e.1 % 2 ^ 36 / 64)
      (putStack r.1 k st, r.2.1 ++ e.2, if r.2.2 = 0 ∧ !ok then cHbmData else r.2.2)
    else (r.1, r.2.1 ++ e.2, if r.2.2 = 0 then cStackGone else r.2.2)) (s, [], stOk)

/-! ## The region table and the control die's reserve (R22, R313, R483, R485-R488) -/

/-- A valid secure entry of a kind covers a granule or tile (R486). -/
def regionCovers (r : BitVec 128) (tile : Bool) (n : Nat) : Bool :=
  bitAt r 127 && bitAt r 125 && (bitAt r 126 == tile)
  && (if tile then decide (fldN r 32 16 ≤ n) && decide (n ≤ fldN r 0 16) else decide (fldN r 32 19 ≤ n) && decide (n ≤ fldN r 0 19))

/-- A physical address is secure: its 2 MiB granule is covered (R486). -/
def securePa (s : State) (pa : Nat) : Bool := s.regions.any fun e => regionCovers e.2 false (pa / 2 ^ 21)

/-- Stacks 2, 3, 8 and 9 give 4 GiB to the control die (R22, R313). -/
def reserveStack (n : Nat) : Bool := [2, 3, 8, 9].contains n

/-- A physical address lies in the reserve. -/
def inReserve (pa : Nat) : Bool := reserveStack (paStack pa) && decide (0xF00000000 ≤ pa % 2 ^ 36)

/-- [pa, pa + n) lies wholly in the non-secure part of one slice of the reserve (R483). -/
def inReserveNs (pa n : Nat) : Bool :=
  reserveStack (paStack pa) && decide (0xF00000000 ≤ pa % 2 ^ 36) && decide (pa % 2 ^ 36 + n ≤ 0xFC0000000)

/-! ## Error records (R457-R464) -/

/-- What a detecting unit hands on for a record. -/
structure Err where
  cause : Byte
  sev : BitVec 2 := 1
  unit : BitVec 4
  source : W16
  job : Option (BitVec 2) := none
  world : Bool := false
  die : BitVec 4
  detail : Byte := 0
  info0 : W64 := 0
  info1 : W64 := 0
  injected : Bool := false
deriving DecidableEq, Repr

/-- The 32 bytes of a record (R457, R5). -/
def errBytes (r : ErrRec) : List Byte :=
  toLE 2 r.seq.toNat
  ++ toLE 2 ((if r.injected then 1 else 0) + (if r.merged then 2 else 0) + r.unit.toNat * 4 + r.die.toNat * 64
      + (if r.world then 1024 else 0) + (if r.jobValid then 2048 else 0) + r.job.toNat * 4096 + r.sev.toNat * 16384)
  ++ [r.detail, r.cause] ++ toLE 2 r.source.toNat ++ toLE 8 r.info0.toNat ++ toLE 8 r.info1.toNat ++ toLE 8 r.time.toNat

/-- Whether records of this kind merge (R460). -/
def mergeable (l : Log) (e : Err) : Bool :=
  decide (e.sev.toNat < 2) && decide (e.cause ≠ 0x81) && !bitAt e.detail 7 && decide (fldN l.cfg 16 8 ≠ 0)

/-- Whether a record falls under an open merge window (R460). -/
def winHas (w : MergeWin) (e : Err) : Bool :=
  decide (w.first.cause = e.cause) && decide (w.first.unit = e.unit) && decide (w.first.source = e.source)
  && decide (w.first.jobValid = e.job.isSome) && decide (w.first.job = e.job.getD 0)

/-- TAIL has passed a record (R461). -/
def tailPassed (l : Log) (r : ErrRec) : Bool := decide (r.seq = l.tail) || precedes r.seq l.tail

/-- The log with a record appended, and whether one was lost (R461). -/
def logAppend (l : Log) (r : ErrRec) : Log × Bool :=
  if l.recs.length < 4096 then ({ l with recs := l.recs ++ [r], head := r.seq }, false)
  else
    let ok (x : ErrRec) := decide (x.sev.toNat ≤ r.sev.toNat)
    match l.recs.findIdx? fun x => ok x && tailPassed l x with
    | some i => ({ l with recs := l.recs.eraseIdx i ++ [r], head := r.seq }, false)
    | none =>
      match l.recs.findIdx? ok with
      | some i => ({ l with recs := l.recs.eraseIdx i ++ [r], head := r.seq, lost := l.lost + 1 }, true)
      | none => ({ l with lost := l.lost + 1 }, true)

/-- The physical address at which a job's ring takes its next record (R462). -/
def ringAt (g : JobRegs) : Nat := fldN g.errRing 6 34 * 64 + 32 * (g.errHead.toNat % 2 ^ fldN g.errRing 0 5)

/-- A record appended to its job's ring (R462); what a block of the ring that is not correctable does to it is R316's. Only the non-secure
part of the reserve is written (R22): a ring that software has placed elsewhere takes no record, and counts none (log entry 61). -/
def ringAppend (s : State) (r : ErrRec) : State :=
  let g := (getJob s r.job).regs
  let ord := fldN g.errRing 0 5
  if r.jobValid && decide (ord ≠ 0) then
    let pa := ringAt g
    if !inReserveNs pa 32 then s
    else if (g.errHead - g.errTail).toNat < 2 ^ ord then
      modJob (hbmPut s pa (errBytes r)).1 r.job fun x =>
        { x with regs := { x.regs with errHead := x.regs.errHead + 1 }, ringIrq := true }
    else modJob s r.job fun x => { x with regs := { x.regs with errLost := x.regs.errLost + 1 } }
  else s

/-- A compute die with everything it holds gone: stream objects, weirs, cached translations, watch accumulators (R440). -/
def wipeDie (d : Die) : Die :=
  { d with stream := .reset, recs := [], stq := [], reach := [], tlb := [], weirs := [], wacc := [], watchReady := false, join := none }

/-- Every tile of a die reset; a tile fenced since start-up stays fenced (R204, R444). -/
def wipeTiles (m : SMap Tile) (d : Nat) : SMap Tile :=
  mmap Tile.reset m fun k x => if k / 2048 = d then { Tile.reset with fenced := x.fenced } else x

/-- The main rails are off and MOD_PGOOD is deasserted (R554, R557); VSTBY, rail 28, stays on. -/
def railsOff (s : State) : State :=
  { s with power := { s.power with
      st := 1, pgood := false, paused := false
      rails := mmap Rail.reset s.power.rails fun r x => if r = 28 then x else { x with on := 0, st := 0, backAt := none } } }

/-- The clock registers of a half after a reset of its die (R437). -/
def resetHalf (s : State) (d : Nat) (h1 : Bool) : State :=
  let i := halfNo d h1
  putHalf s i { getHalf s i with
    req := 0, limit := 0, step := 0, changes := 0, cycles := 0, thermal := 0, power := 0, spare8 := 0, lastChange := s.mod.time }

/-- A job that a FATAL record stops: its tiles, its stream and weir state and its stacks are gone, and nothing of it is left to load again
(R436, log entry 64). -/
def stopJob (s : State) (j : BitVec 2) : State :=
  if (getJob s j).st = .unloaded then s
  else setJobSt (modJob s j fun x => { x with
    saved := [], frozen := false, closing := none, reshard := none, postClosed := false, drainSince := none, viewOwed := [] }) j .unloaded

/-- The network and the ports' links with everything in them gone; every edge CLOSED, its link ends reset (R437). -/
def emptyNet (n : Net) : Net :=
  { n with
    blocks := [], markers := [], prunes := [], trees := [], routes := [], padds := [], arrivals := [], l6 := [], reports := []
    ethRx := [], edges := [], heldG := [], heldMsg := [], parks := [] }

/-- A FATAL record's action (R456, R557): the main rails off, every compute die held in reset, ports DOWN, MOD.STATE FAILED, the alert. -/
def fatalStop (s : State) : State :=
  let s := railsOff { s with power := { s.power with alertSrc := s.power.alertSrc ||| 0x20 } }
  let s := (List.range 12).foldl (fun s d =>
    if diePresent s d then
      let s := { (setDieSt s d fun x => { wipeDie x with st := .held, heldAt := s.mod.time }) with tiles := wipeTiles s.tiles d }
      resetHalf (resetHalf s d false) d true
    else s) s
  let s := (List.range 24).foldl (fun s p => if (getPort s p).st = .off then s else setPort s p fun x => { x with
    st := .down, live := false, notUpSince := if x.st = .up then s.mod.time else x.notUpSince }) s
  let s := (List.range 12).foldl (fun s n => setStackSt s n fun k => { k with st := .offline, spares := [], reqs := [], writebacks := [] }) s
  let s := jobs4.foldl stopJob { s with net := emptyNet s.net, gather := { s.gather with opened := [] } }
  setModSt { s with owed := [] } fun m => { m with st := .failed, fatal := true, fatalAt := m.time, ucie := 0, invalWait := [] }

/-- A record written to the log, its job's ring and, when FATAL, the flash; then the action of its severity. -/
def putRecord (s : State) (r : ErrRec) : State × Bool :=
  let (l, lost) := logAppend { s.log with seq := r.seq + 1 } r
  let l := if r.sev = 3 then { l with flashFatal := (l.flashFatal ++ [r]).drop ((l.flashFatal ++ [r]).length - 16) } else l
  let s := ringAppend { s with log := l } r
  let s := if fldN s.mgmt.evMinSev 0 8 ≤ r.sev.toNat then raiseEvent s 1 0 (errBytes r) r.sev else s
  (if r.sev = 3 then fatalStop s else s, lost)

/-- The record that a unit's report becomes. Every double-bit word of a scratchpad comes from an injected fault (R478), since no command
brings one about otherwise. -/
def errRec (s : State) (e : Err) : ErrRec :=
  { time := s.mod.time, info1 := e.info1, info0 := e.info0, source := e.source, cause := e.cause, detail := e.detail,
    sev := e.sev, job := e.job.getD 0, jobValid := e.job.isSome, world := e.world, die := e.die, unit := e.unit,
    merged := false, injected := e.injected || decide (e.cause = cSpadEcc), seq := s.log.seq }

/-- An error record: merged into an open window, or written, opening one (R460). Answers whether a record was lost. -/
def putErr1 (s : State) (e : Err) : State × Bool :=
  if mergeable s.log e && s.log.wins.any (winHas · e) then
    let ws := s.log.wins.map fun w => if winHas w e then { w with count := w.count + 1, lastInfo0 := e.info0 } else w
    ({ s with log := { s.log with wins := ws } }, false)
  else
    let r := errRec s e
    let s := if mergeable s.log e then
        { s with log := { s.log with wins := s.log.wins ++ [{ first := r, count := 0, lastInfo0 := 0, since := s.mod.time }] } }
      else s
    putRecord s r

/-- The LOG_LOST summary (R461). -/
def lostErr (s : State) : Err := { cause := 0xEB, unit := 9, source := 16, die := 15, info0 := s.log.lost }

/-- The record of an uncorrectable block that a unit meets by physical address (R316, R319, R459). -/
def hbmDataErr (pa : Nat) (job : Option (BitVec 2)) (injected : Bool) : Err :=
  { cause := cHbmData, unit := 4, source := BitVec.ofNat 16 (paStack pa), job, die := BitVec.ofNat 4 (paStack pa),
    info0 := BitVec.ofNat 64 (pa % 2 ^ 40), injected }

/-- A WORLD_VIOLATION record (R482). -/
def worldErr (unit : BitVec 4) (source : W16) (die : Nat) (job : Option (BitVec 2)) (info0 : Nat) : Err :=
  { cause := stWorld, unit, source, die := BitVec.ofNat 4 die, job, info0 := BitVec.ofNat 64 info0 }

/-- A record for a job's ring that lies in secure memory is not written there, with a WORLD_VIOLATION record of no job (R22, R482). -/
def ringSecure (s : State) (j : BitVec 2) : Option Nat :=
  let g := (getJob s j).regs
  if decide (fldN g.errRing 0 5 ≠ 0) && securePa s (ringAt g) then some (ringAt g) else none

/-- The physical address at which a job's ring takes its next record, where its block cannot take a partial write (R316, R462). -/
def ringBadAt (s : State) (j : BitVec 2) : Option Nat :=
  let g := (getJob s j).regs
  let pa := ringAt g
  match blkSt (getStack s (paStack pa)) (pa % 2 ^ 36 / 64) with
  | some .uncorrectable | some .poisoned => some pa
  | _ => none

/-- An error record (R457): written or merged; a loss from the log writes a LOG_LOST summary, whose own loss writes none. A job ring
whose block keeps no partial write adds an HBM_DATA record (R316), one in secure memory a WORLD_VIOLATION record (R482). -/
def putErr (s : State) (e : Err) : State :=
  let (s1, lost) := putErr1 s e
  let s2 := if lost then (putErr1 s1 (lostErr s1)).1 else s1
  match e.job with
  | some j =>
    if (getJob s1 j).regs.errHead = (getJob s j).regs.errHead then
      match ringSecure s j with
      | some pa => if s1.log.seq = s.log.seq then s2 else
          (putErr1 s2 (worldErr 4 (BitVec.ofNat 16 (paStack pa)) (paStack pa) none pa)).1
      | none => s2
    else match ringBadAt s j with
      | some pa => (putErr1 s2 (hbmDataErr pa none false)).1
      | none => s2
  | none => s2

/-- A write by physical address of the module's units and the control die's cores, with the record of one that is not made (R316). -/
def hbmStore (s : State) (pa : Nat) (bs : List Byte) (job : Option (BitVec 2)) : State × Byte :=
  let (s, st) := hbmPut s pa bs
  (if st = cHbmData then putErr s (hbmDataErr pa job false) else s, st)

/-- A read by physical address of the module's units and the control die's cores, with the record of one that delivers no data. -/
def hbmLoad (s : State) (pa n : Nat) (job : Option (BitVec 2)) : State × List Byte × Byte :=
  let (s, bs, st) := hbmGet s pa n
  (if st = cHbmData then putErr s (hbmDataErr pa job false) else s, bs, st)

/-- A record of a tile about a job (R205). -/
def tileErr (t : W16) (job : Option (BitVec 2)) (cause : Byte) (info0 : Nat) : Err :=
  { cause, unit := 0, source := t, job, die := BitVec.ofNat 4 (tDie t), info0 := BitVec.ofNat 64 info0 }

/-! ## Tile exceptions (R177-R180) -/

/-- EXC_CAUSE of a first exception. -/
def excCauseReg (cause : Byte) (precise eng : Bool) : W32 := at' 32 9 (b2 precise) ||| at' 32 8 (b2 eng) ||| at' 32 0 cause

/-- EXC_CAUSE with one more exception counted: MORE holds at 0xFFFF. -/
def excMore (c : W32) : W32 := if fldN c 16 16 = 0xFFFF then c else c + 0x00010000

/-- The context with an exception recorded: the first one of a stopped context is kept, a later one adds to MORE (R179). -/
def noteExc (c : Ctx) (cause : Byte) (precise eng : Bool) (pc info : W64) : Ctx :=
  if c.st = .stopped ∧ c.excCause ≠ 0 then { c with excCause := excMore c.excCause }
  else { c with st := .stopped, excCause := excCauseReg cause precise eng, excPc := pc, excInfo := info }

/-- The record of a tile exception (R177, R459). -/
def excErr (t : W16) (j : BitVec 2) (cause : Byte) (precise eng : Bool) (pc info : W64) (injected : Bool) : Err :=
  { cause, unit := 0, source := t, job := some j, die := BitVec.ofNat 4 (tDie t),
    detail := at' 8 7 (1 : BitVec 1) ||| at' 8 1 (b2 eng) ||| at' 8 0 (b2 precise), info0 := pc, info1 := info, injected }

/-- A precise exception: the context stops, its wait is given up, PC stays at the bundle (R141, R177). -/
def raisePrecise (s : State) (t : W16) (j : BitVec 2) (eng : Bool) (cause : Byte) (info : W64) : State :=
  let pc := (getCtx (getTile s t) j).pc
  putErr (modCtx s t j fun c => { noteExc c cause true eng pc info with wait := none }) (excErr t j cause true eng pc info false)

/-- The operations of a context that have not started are discarded (R178). -/
def discardOps (x : Tile) (j : BitVec 2) : Tile :=
  let keep (o : EngOp) := decide (o.job ≠ j) || o.started
  { x with eng := { x.eng with press := x.eng.press.filter keep, conv := x.eng.conv.filter keep, wide := x.eng.wide.filter keep } }

/-- A deferred exception: the context stops at the bundle boundary and its operations not started are discarded (R178). -/
def raiseDeferred (s : State) (t : W16) (j : BitVec 2) (eng : Bool) (cause : Byte) (pc info : W64) (injected : Bool) : State :=
  putErr (modTile s t fun x =>
    let x := discardOps x j
    putCtx x j (noteExc (getCtx x j) cause false eng pc info)) (excErr t j cause false eng pc info injected)

/-! ## Shares (R187-R190) -/

/-- TILE.SPAD_BYTES (R181). -/
def spadBytes : Nat := 524288

/-- Filler share size in bytes (R188). -/
def fillBytes (x : Tile) : Nat := 16384 * fldN x.regs.share 0 5

/-- Context j uses the filler share (R187). -/
def inFiller (x : Tile) (j : BitVec 2) : Bool := bitAt x.regs.share (8 + j.toNat)

/-- The share of a context, from and to (R188). -/
def shareOf (x : Tile) (j : BitVec 2) : Nat × Nat :=
  if inFiller x j then (spadBytes - fillBytes x, spadBytes) else (0, spadBytes - fillBytes x)

/-- n bytes from a lie in the share of context j (R190). -/
def inShare (x : Tile) (j : BitVec 2) (a n : Nat) : Bool :=
  decide ((shareOf x j).1 ≤ a) && decide (a + n ≤ (shareOf x j).2)

/-! ## The scratchpad and its SECDED words (R203) -/

/-- A 64-bit word of [a, a + n) holds a double-bit error. -/
def spadBad (x : Tile) (a n : Nat) : Bool :=
  x.spadEcc.any fun e => decide (e.2 = .double) && decide (a < 8 * e.1 + 8) && decide (8 * e.1 < a + n)

/-- Words of [a, a + n) with a double-bit error that a write of [a, a + n) covers only in part. -/
def badMerges (x : Tile) (a n : Nat) : List Nat :=
  (x.spadEcc.filter fun e => decide (e.2 = .double) && decide (a < 8 * e.1 + 8) && decide (8 * e.1 < a + n)
    && !(decide (a ≤ 8 * e.1) && decide (8 * e.1 + 8 ≤ a + n))).map (·.1)

/-- Bytes stored, but for those that fall in a word of a list (R203: they are not kept). -/
def wrBytesBut (bad : List Nat) (m : SMap Byte) (a : Nat) (bs : List Byte) : SMap Byte :=
  match bs with
  | [] => m
  | b :: t => wrBytesBut bad (if bad.contains (a / 8) then m else mset 0 m a b) (a + 1) t

/-- A write of the scratchpad (R184, R203): bytes of a double-bit word covered only in part are not kept; every other word
touched holds a good code after it. -/
def spadWriteTile (x : Tile) (a : Nat) (bs : List Byte) : Tile :=
  let bad := badMerges x a bs.length
  { x with
    spad := if bad.isEmpty then wrBytes x.spad a bs else wrBytesBut bad x.spad a bs
    spadEcc := x.spadEcc.filter fun e => decide (8 * e.1 + 8 ≤ a) || decide (a + bs.length ≤ 8 * e.1) || bad.contains e.1 }

/-- The same on the module, with a SPAD_ECC record for each word whose bytes were not kept (R203). -/
def spadWrite (s : State) (t : W16) (j : BitVec 2) (a : Nat) (bs : List Byte) : State :=
  let x := getTile s t
  (badMerges x a bs.length).foldl (fun s w => putErr s (tileErr t (some j) cSpadEcc (8 * w)))
    (putTile s t (spadWriteTile x a bs))

/-- n bytes read from a tile's scratchpad. -/
def spadRead (x : Tile) (a n : Nat) : List Byte := rdBytes x.spad a n

/-! ## Context wake-up (R410) -/

/-- A yielded context is due. -/
def isDue (s : State) (x : Tile) (y : YieldRec) : Bool :=
  let a := getAcnt x y.wakeAcnt.toNat
  (y.wakeEn && (decide ((y.wakeDelta.toNat : Nat) ≤ (a.value - y.snapshot).toNat) || a.err.isSome))
  || (decide (y.maxUnits ≠ 0) && decide (y.since.toNat + 125 * y.maxUnits.toNat ≤ now s))
  || (!y.wakeEn && decide (y.maxUnits = 0))

/-- Yielded contexts of a tile that have become due are marked so (R410). -/
def markDue (s : State) (t : W16) : State :=
  jobs4.foldl (fun s j =>
    let x := getTile s t
    let c := getCtx x j
    match c.st, c.yrec with
    | .yielded, some y =>
      if y.due.isNone && isDue s x y then putTile s t (putCtx x j { c with yrec := some { y with due := some s.mod.time } }) else s
    | _, _ => s) s

/-! ## Arrival counters (R192-R195) -/

/-- n added to a counter. -/
def acntAdd (s : State) (t : W16) (k : Nat) (n : W64) : State :=
  markDue (modTile s t fun x => putAcnt x k { getAcnt x k with value := (getAcnt x k).value + n }) t

/-- A unit that carries context j has written all its bytes and adds one (R193); the addition is dropped with a record where
the counter is disabled or another context's (R195). -/
def arriveCount (s : State) (t : W16) (k : Nat) (j : BitVec 2) : State :=
  let a := getAcnt (getTile s t) k
  if a.enable && decide (a.owner = j) then acntAdd s t k 1
  else putErr s (tileErr t (some j) cArrivalDropped 0)

/-- An error marker at a tile: the counter's error-pending flag with its cause (R239). -/
def acntMark (s : State) (t : W16) (k : Nat) (cause : Byte) : State :=
  markDue (modTile s t fun x =>
    { putAcnt x k { getAcnt x k with err := some cause } with
      regs := { x.regs with errLastCause := cause, errLastAcnt := BitVec.ofNat 6 k } }) t

/-! ## Handle queues and pushes (R282-R286) -/

def hqEnabled (q : Hq) : Bool := bitAt q.cfg 31
def hqOwner (q : Hq) : BitVec 2 := fld q.cfg 29 2
def stqOwner (q : Stq) : BitVec 2 := fld q.cfg 61 2
def stqKind (q : Stq) : BitVec 2 := fld q.cfg 59 2
def stqTile (q : Stq) : W16 := fld q.cfg 40 16

/-- A context accepts new work: ACTIVE, or FROZEN from ACTIVE (R303, R306). -/
def stqTakes (x : Stq) : Bool := decide (x.st = .active) || (decide (x.st = .frozen) && decide (x.thawTo = .active))

/-- A handle dropped: counted and recorded (R285). -/
def dropHandle (s : State) (die : Nat) (t : W16) (j : BitVec 2) : State :=
  putErr (modDie s die fun d => { d with stream := { d.stream with handlesDropped := d.stream.handlesDropped + 1 } })
    { cause := cHandleDropped, unit := 3, source := t, job := some j, die := BitVec.ofNat 4 die }

/-- The place before a router's input where its memory port or port bridge holds a block (R221, R229). -/
def atMemPort : Nat := 5

/-- What became of a push. -/
inductive PushRes where
  | landed
  | held
  | dropped
deriving DecidableEq, Repr

/-- A push to a queue named as R196 and R287 name queues: tile queue [2:0] of tile t, or context [11:0] of the die. -/
def pushHandle (s : State) (die : Nat) (q : BitVec 13) (t : W16) (j : BitVec 2) (h : W32) (src : PushSrc) : State × PushRes :=
  if q = 0x1FFF then (s, .landed)
  else if bitAt q 12 then
    let d := getDie s die
    let n : BitVec 12 := fld q 0 12
    let x := getStq d n
    if stqTakes x && decide (stqOwner x = j) && decide (stqKind x = 1 ∨ stqKind x = 2) then
      if x.handles.length < 64 then (putDie s die (putStq d n { x with handles := x.handles ++ [h] }), .landed)
      else (putDie s die (putStq d n { x with held := x.held ++ [⟨src, h, j⟩] }), .held)
    else (dropHandle s die t j, .dropped)
  else
    let x := getTile s t
    let n := fldN q 0 3
    let y := getHq x n
    if hqEnabled y && !y.draining && decide (hqOwner y = j) then
      if y.handles.length < 64 then (putTile s t (putHq x n { y with handles := y.handles ++ [h] }), .landed)
      else (putTile s t (putHq x n { y with held := y.held ++ [⟨src, h, j⟩] }), .held)
    else (dropHandle s die t j, .dropped)

/-! ## Slots (R196-R202) -/

def slotEnabled (x : Slot) : Bool := bitAt x.cfg 63
def slotOwner (x : Slot) : BitVec 2 := fld x.cfg 61 2
def slotAuto (x : Slot) : Bool := bitAt x.cfg 60
def slotEmptyHq (x : Slot) : BitVec 13 := fld x.cfg 47 13
def slotFullHq (x : Slot) : BitVec 13 := fld x.cfg 34 13
/-- Length in bytes. -/
def slotLen (x : Slot) : Nat := 64 * (fldN x.cfg 17 12 + 1)
/-- Base address in bytes. -/
def slotBase (x : Slot) : Nat := 64 * fldN x.cfg 0 17

/-- The handle of a slot's present fill (R282). -/
def slotHandle (n : Nat) (x : Slot) : W32 :=
  at' 32 26 x.gen ||| at' 32 20 (BitVec.ofNat 6 n) ||| at' 32 8 (fld x.cfg 17 12)

/-- A write of n bytes would make the slot FULL while its earlier FULL push is still held (R285). -/
def fillBlocked (x : Slot) (n : Nat) : Bool := x.heldFull.isSome && decide (slotLen x ≤ x.filled + n)

/-- Empty a FULL slot and push to EMPTY_HQ (R199). A slot whose earlier push is still held drains later (R285). -/
def slotDrain (s : State) (t : W16) (k : Nat) : State :=
  let x := getTile s t
  let y := getSlot x k
  if y.st = .full then
    if y.heldEmpty.isSome then putTile s t (putSlot x k { y with drainWait := true })
    else
      let y' := { y with st := .empty, filled := 0, gen := y.gen + 1, drainWait := false }
      let h := slotHandle k y'
      let (s', r) := pushHandle (putTile s t (putSlot x k y')) (tDie t) (slotEmptyHq y) t (slotOwner y) h
        (.slot t (BitVec.ofNat 6 k) false)
      match r with
      | .held => modTile s' t fun x => putSlot x k { getSlot x k with heldEmpty := some h }
      | _ => s'
  else s

/-- n bytes written through a slot reference (R199): FILLING, and FULL with its push when the length is reached. -/
def slotFill (s : State) (t : W16) (k n : Nat) : State :=
  let x := getTile s t
  let y := getSlot x k
  let f := y.filled + n
  if f < slotLen y then putTile s t (putSlot x k { y with st := .filling, filled := f })
  else
    let y' := { y with st := .full, filled := f }
    let h := slotHandle k y'
    let (s', r) := pushHandle (putTile s t (putSlot x k y')) (tDie t) (slotFullHq y) t (slotOwner y) h
      (.slot t (BitVec.ofNat 6 k) true)
    match r with
    | .held => modTile s' t fun x => putSlot x k { getSlot x k with heldFull := some h }
    | _ => s'

/-! ## Worlds (R480) -/

/-- True for the secure world: management cores, the management port and command tokens act for the secure world only as
R480 gives; application cores and the port act in the non-secure world. -/
def secureWriter (w : Writer) : Bool :=
  match w with
  | .core c => decide (16 ≤ c.val)
  | .port => false
  | .token => true

end Sys2Proof.Machine
end

