-- ==== Sys2Proof/Machine/Region.lean ====
section
/-!
DEFINITION. Secure tiles (R486, R489); the region table's physical addresses and the reserve stand in Ops.
-/
namespace Sys2Proof.Machine
open Sys2Proof

/-- A tile is secure (R486, R489). -/
def secureTile (s : State) (t : W16) : Bool := s.regions.any fun e => regionCovers e.2 true t.toNat

end Sys2Proof.Machine
end

