-- ==== Sys2Proof/Machine/Operands.lean ====
section
/-!
DEFINITION. Operand addresses (R163), slot references (R200, R201).
-/
namespace Sys2Proof.Machine
open Sys2Proof

/-- A 24-bit operand address, read (R163). -/
inductive Opnd where
  | none
  | plain (a : Nat)
  | slot (n : Nat) (off : Nat)
deriving DecidableEq, Repr

/-- The reading of an operand address. -/
def opnd (v : BitVec 24) : Opnd :=
  if v = 0xFFFFFF then .none
  else if bitAt v 23 then .slot (fldN v 17 6) (fldN v 0 17)
  else .plain (fldN v 0 23)

/-- The check of a region of n bytes for context j, aligned to al: the cause it fails with (R163, R190, R201). A disabled slot
comes before its owner; of an enabled slot's other failures the lowest cause is reported, so bytes outside the share come before
its owner and its length (R166). -/
def opndCheck (x : Tile) (j : BitVec 2) (v : BitVec 24) (n al : Nat) : Option Byte :=
  match opnd v with
  | .none => some cMisaligned
  | .plain a =>
    if a % al ≠ 0 then some cMisaligned
    else if !inShare x j a n then some cAddrRange
    else none
  | .slot k off =>
    let y := getSlot x k
    if off % al ≠ 0 then some cMisaligned
    else if !slotEnabled y then some cSlotState
    else if !inShare x j (slotBase y + off) n then some cAddrRange
    else if slotOwner y ≠ j then some cObjOwner
    else if slotLen y < off + n then some cSlotRange
    else none

/-- The scratchpad address an operand address stands for; bytes of a slot lie in its buffer. -/
def opndAddr (x : Tile) (v : BitVec 24) : Nat :=
  match opnd v with
  | .none => 0
  | .plain a => a
  | .slot k off => slotBase (getSlot x k) + off

/-- The slot an operand address refers to. -/
def opndSlot (v : BitVec 24) : Option Nat :=
  match opnd v with
  | .slot k _ => some k
  | _ => none

/-- A read through the operand address must wait: its slot is not FULL (R200). -/
def readWaits (x : Tile) (v : BitVec 24) : Bool :=
  match opndSlot v with
  | some k => decide ((getSlot x k).st ≠ .full)
  | none => false

/-- A write of n bytes through it must wait: its slot is FULL, or its FULL push is still held (R200, R285). -/
def writeWaits (x : Tile) (v : BitVec 24) (n : Nat) : Bool :=
  match opndSlot v with
  | some k => decide ((getSlot x k).st = .full) || fillBlocked (getSlot x k) n
  | none => false

/-- Bytes written through an operand address: to the scratchpad, and counted in its slot (R199). -/
def opndWrite (s : State) (t : W16) (j : BitVec 2) (v : BitVec 24) (bs : List Byte) : State :=
  let s := spadWrite s t j (opndAddr (getTile s t) v) bs
  match opndSlot v with
  | some k => slotFill s t k bs.length
  | none => s

/-- Bytes written back in place: the slot's fill does not change (R200). -/
def opndRewrite (s : State) (t : W16) (j : BitVec 2) (v : BitVec 24) (bs : List Byte) : State :=
  spadWrite s t j (opndAddr (getTile s t) v) bs

/-- n bytes read through an operand address. -/
def opndRead (x : Tile) (v : BitVec 24) (n : Nat) : List Byte := spadRead x (opndAddr x v) n

/-- A double-bit error lies in the n bytes of an operand address. -/
def opndBad (x : Tile) (v : BitVec 24) (n : Nat) : Bool := spadBad x (opndAddr x v) n

end Sys2Proof.Machine
end

