-- ==== Sys2Proof/Machine/StreamRec.lean ====
section
/-!
DEFINITION. Transfer records, their descriptors and steps (R271, R275, R280, R281, R296, R297).
-/
namespace Sys2Proof.Machine
open Sys2Proof

/-! ## Causes (R310) -/

def cXlateFault : Byte := 0x81
def cXlateFail : Byte := 0x82
def cParkTimeout : Byte := 0x83
def cAborted : Byte := 0x84
def cDescInvalid : Byte := 0x85
def cTagStale : Byte := 0x88

/-! ## Descriptor fields (R271) -/

def dSrc (d : BitVec 512) : W64 := fld d 448 64
def dDst (d : BitVec 512) : W64 := fld d 384 64
def dSrcStride (d : BitVec 512) : Nat := fldN d 352 32
def dDstStride (d : BitVec 512) : Nat := fldN d 320 32
def dTag (d : BitVec 512) : W32 := fld d 288 32
def dRowLen (d : BitVec 512) : Nat := 64 * (fldN d 274 14 + 1)
def dRows (d : BitVec 512) : Nat := fldN d 260 14 + 1
def dInQ (d : BitVec 512) : BitVec 13 := fld d 247 13
def dOutQ (d : BitVec 512) : BitVec 13 := fld d 234 13
def dCpl (d : BitVec 512) : BitVec 24 := fld d 210 24
def dNext (d : BitVec 512) : BitVec 24 := fld d 186 24
def dAcnt (d : BitVec 512) : Nat := fldN d 180 6
def dAcntEn (d : BitVec 512) : Bool := bitAt d 179
def dSrcKind (d : BitVec 512) : BitVec 2 := fld d 177 2
def dDstKind (d : BitVec 512) : BitVec 2 := fld d 175 2
def dSrcRel (d : BitVec 512) : Bool := bitAt d 174
def dDstRel (d : BitVec 512) : Bool := bitAt d 173
def dDrain (d : BitVec 512) : Bool := bitAt d 172
/-- Bytes of a transfer. -/
def dTotal (d : BitVec 512) : Nat := dRowLen d * dRows d
/-- Kind, address, stride and REL of a side: false source, true destination. -/
def dKind (d : BitVec 512) (dst : Bool) : BitVec 2 := if dst then dDstKind d else dSrcKind d
def dAddr (d : BitVec 512) (dst : Bool) : W64 := if dst then dDst d else dSrc d
def dStride (d : BitVec 512) (dst : Bool) : Nat := if dst then dDstStride d else dSrcStride d
def dRel (d : BitVec 512) (dst : Bool) : Bool := if dst then dDstRel d else dSrcRel d

/-! ## The checks of a descriptor (R273) -/

/-- An address of a side with its reserved bits zero, on a multiple of 64, naming a present tile (R272, R273). -/
def sideOk (s : State) (d : BitVec 512) (dst : Bool) : Bool :=
  let a := dAddr d dst
  match (dKind d dst).toNat with
  | 0 => decide (fldN a 48 16 = 0) && decide (a.toNat % 64 = 0)
  | 1 => decide (fldN a 40 24 = 0) && tilePresent s (fld a 24 16)
         && (match opnd (fld a 0 24) with | .none => false | .plain p => decide (p % 64 = 0) | .slot _ o => decide (o % 64 = 0))
  | 2 => decide (fldN a 17 47 = 0) && decide (a.toNat % 64 = 0)
  | _ => false

/-- A queue named by a descriptor is of a kind that its role allows, on a present tile (R273, R287). -/
def queueOk (s : State) (die : Nat) (home : W16) (q : BitVec 13) (out : Bool) : Bool :=
  if q = 0x1FFF then true
  else if bitAt q 12 then
    let k := stqKind (getStq (getDie s die) (fld q 0 12))
    decide (k = 1) || (out && decide (k = 2))
  else tilePresent s home

/-- A descriptor passes R273. -/
def descOk (s : State) (die : Nat) (home : W16) (reach : Bool) (d : BitVec 512) : Bool :=
  decide (fldN d 0 172 = 0) && decide (dTotal d ≤ 1048576)
  && decide (dSrcStride d % 64 = 0) && decide (dDstStride d % 64 = 0)
  && sideOk s d false && sideOk s d true
  && (decide (dSrcKind d = 0) || decide (dDstKind d = 0))
  && (!dSrcRel d || (reach && decide (dSrcKind d = 0))) && (!dDstRel d || (reach && decide (dDstKind d = 0)))
  && (decide (dSrcKind d ≠ 2 ∧ dDstKind d ≠ 2) || decide (dInQ d ≠ 0x1FFF))
  && (!dDrain d || (decide (dOutQ d = 0x1FFF) && decide (dSrcKind d = 2)))
  && queueOk s die home (dInQ d) false && queueOk s die home (dOutQ d) true

/-! ## Records and legs -/

/-- The tag of a record (R281). -/
def xferTag (die : Nat) (r : BitVec 9) (x : XferRec) : W32 := at' 32 24 x.gen ||| at' 32 9 (BitVec.ofNat 4 die) ||| at' 32 0 r

/-- The record changed. -/
def modRec (s : State) (die : Nat) (r : BitVec 9) (f : XferRec → XferRec) : State :=
  modDie s die fun d => putRec d r (f (getRec d r))

/-- The leg of a number changed. -/
def modLeg (x : XferRec) (n : Nat) (f : Leg → Leg) : XferRec := { x with legs := x.legs.map fun l => if l.num = n then f l else l }

/-- Every byte of a leg's transfer has been written (R277). -/
def legWritten (l : Leg) : Bool := l.steps.isEmpty && decide (l.status = 0) && decide (l.next = dTotal l.desc)

/-- The newest descriptor under way: the one that issues. -/
def lastLeg (x : XferRec) : Option Leg := x.legs.getLast?

/-- An error record of a transfer (R459). -/
def streamErr (die : Nat) (r : BitVec 9) (x : XferRec) (desc : BitVec 512) (cause : Byte) (detail : Byte) (info0 : W64) : Err :=
  { cause, unit := 3, source := x.tile, job := some x.job, world := x.world, die := BitVec.ofNat 4 die, detail, info0,
    info1 := at' 64 32 (xferTag die r x) ||| at' 64 0 (dTag desc) }

/-- The first failure of a transfer is its status; CPL.DONE marks the first byte that may not have been written (R279, R280). A chain
with a failed descriptor ends there (R275). -/
def failLeg (x : XferRec) (n : Nat) (cause : Byte) (off : Nat) (info : W64) : XferRec :=
  { modLeg x n fun l =>
      if l.status = 0 then { l with status := cause, failAt := off, failInfo := info, walk := none, fault := none }
      else { l with failAt := Nat.min l.failAt off } with
    ended := true }

/-- The leg and step of a step number. -/
def findStep (x : XferRec) (id : Nat) : Option (Leg × StepRec) :=
  x.legs.findSome? fun l => (l.steps.find? fun t => decide (t.id = id)).map fun t => (l, t)

/-- A step changed. -/
def modStep (x : XferRec) (id : Nat) (f : StepRec → StepRec) : XferRec :=
  { x with legs := x.legs.map fun l => { l with steps := l.steps.map fun t => if t.id = id then f t else t } }

/-- The virtual address of the byte at a row-major offset on a side (R290). -/
def sideVa (x : XferRec) (l : Leg) (dst : Bool) (off : Nat) : Nat :=
  let d := l.desc
  ((if dRel d dst then x.passAddr.toNat else 0) + (dAddr d dst).toNat + (off / dRowLen d) * dStride d dst + off % dRowLen d) % 2 ^ 48

/-- The virtual address that a record of a step carries: of the source where it is VIRT, else of the destination. -/
def stepVa (x : XferRec) (l : Leg) (off : Nat) : W64 := BitVec.ofNat 64 (sideVa x l (decide (dSrcKind l.desc ≠ 0)) off)

/-! ## Parking (R297, R303) -/

/-- A transfer parks on a fault (R297). -/
def parkFault (s : State) (die : Nat) (r : BitVec 9) (l : Leg) (f : BitVec 3 × Bool × W64) : State :=
  let x := getRec (getDie s die) r
  let s := modRec s die r fun x => { modLeg x l.num fun l => { l with fault := none, walk := none } with
    st := .parked, reason := f.1, parkedAt := s.mod.time }
  let s := modDie s die fun d => { d with stream := { d.stream with faults := d.stream.faults + 1 } }
  let info0 := at' 64 0 (fld f.2.2 0 48) ||| at' 64 48 (BitVec.ofNat 14 (l.next / 64)) ||| at' 64 62 (b2 f.2.1)
  putErr s (streamErr die r x l.desc cXlateFault (f.1.setWidth 8) info0)

/-- What follows once requests of a record have been written: a fault that waits parks it; a freezing record with nothing in flight
parks PREEMPTED (R297, R303). -/
def settleRec (s : State) (die : Nat) (r : BitVec 9) : State :=
  let x := getRec (getDie s die) r
  if x.st ≠ .running then s
  else if x.freezing then
    if x.legs.all (·.steps.isEmpty) then
      modRec s die r fun x => { x with st := .preempted, freezing := false, reason := 4, parkedAt := 0,
                                       legs := x.legs.map fun l => { l with walk := none, fault := none } }
    else s
  else match lastLeg x with
    | some l =>
      match l.fault with
      | some f => if l.steps.isEmpty then parkFault s die r l f else s
      | none => s
    | none => s

/-- An invalidation is complete once no request that it waits for is left; the command that began it then completes (R294, R295, R419). -/
def settleInval (s : State) : State := if s.mod.invalWait.isEmpty then payLate s .inval stOk else s

/-- A step leaves: all its requests are written or dropped (R295, R296). -/
def stepGone (s : State) (die : Nat) (r : BitVec 9) (id : Nat) : State :=
  let s := modRec s die r fun x => { x with legs := x.legs.map fun l => { l with steps := l.steps.filter fun t => decide (t.id ≠ id) } }
  settleRec (settleInval { s with mod := { s.mod with invalWait := s.mod.invalWait.filter (· ≠ id) } }) die r

/-- A step fails: its transfer fails with a cause and the step leaves (R280). -/
def stepFails (s : State) (die : Nat) (r : BitVec 9) (id : Nat) (cause : Byte) (info : Option W64) : State :=
  let x := getRec (getDie s die) r
  match findStep x id with
  | some (l, t) =>
    stepGone (modRec s die r fun x => failLeg x l.num cause t.off (info.getD (stepVa x l t.off))) die r id
  | none => s

end Sys2Proof.Machine
end

