-- ==== Sys2Proof/Machine/Link.lean ====
section
/-!
DEFINITION. The sending side of a Tizal port: packets, credits, the replay buffer (R337-R340), and which port reaches a peer (R347-R349).
-/
namespace Sys2Proof.Machine
open Sys2Proof

/-- Virtual lane of a packet (R338). -/
def pktLane (p : Pkt) : Nat :=
  match p with
  | .exch _ => 0
  | .coll .. => 1
  | .stream .. => 2
  | .ctrl _ => 3
  | .gctrl .. => 3

/-- Whole-packet buffers that the receiver holds for a lane (R338). -/
def laneBuffers (vl : Nat) : Nat := if vl = 3 then 2 else 8

/-- Data bytes of a collective-lane packet: elements go up as I24 and come down as I32 (R372, R377). -/
def gbodyBytes (up : Bool) (b : GBody) : Nat :=
  let n := if up then 3 else 4
  match b with
  | .score _ vs => n * vs.length
  | .data _ vs => n * vs.length
  | .expo .. => 4
  | .shard _ bs => bs.length
  | .noShard => 0

/-- Flits of a packet: a 32-byte header and its data in payloads of 244 bytes (R334, R337). -/
def pktFlits (p : Pkt) : Nat :=
  let n := match p with
    | .exch b => b.payload.length
    | .coll _ _ up b => gbodyBytes up b
    | .stream _ _ bs _ _ _ _ => bs.length
    | .ctrl (.firmware bs) => bs.length
    | .ctrl _ => 0
    | .gctrl .. => 0
  (n + 32 + 243) / 244

/-! ## Receive buffers and credits (R338, R339) -/

/-- Receive buffers of a lane in use: by a packet being received; by exchange blocks at the port bridge, gathering packets held and stream-lane
data that waits for a handle. -/
def rxBusy (s : State) (p vl : Nat) : Nat :=
  let x := getPort s p
  (if (mget ([], 0) x.rxPart vl).2 = 0 then 0 else 1) + match vl with
    | 0 => (s.net.blocks.filter fun (e : Nat × Block) => decide (e.2.rxPort = some p ∧ e.2.inPort = atMemPort)).length
    | 1 => (s.net.heldG.filter fun h => decide (h.port.map Fin.val = some p)).length
    | 2 => Nat.min (sumN (x.landing.map fun e => (e.2.2.1.length + 16383) / 16384)) (laneBuffers 2)
    | _ => 0

/-- Credits of a lane to return: buffers that packets have left (R339). -/
def owedCredits (s : State) (p vl : Nat) : Nat := mget 0 (getPort s p).rxUsed vl - rxBusy s p vl

/-- The lane whose credits the next flit returns: the lowest that has any (log entry 67). -/
def creditLane (s : State) (p : Nat) : Nat := ([0, 1, 2, 3].find? fun vl => decide (0 < owedCredits s p vl)).getD 0

/-! ## Sending flits (R335-R340) -/

/-- The header of a flit sent: every one carries ACK, NAK, credits and the sideband (R336). -/
def flitHead (s : State) (p : Nat) (typ : BitVec 2) (vl : Nat) (seq : BitVec 12) (len : Nat) : W64 :=
  let x := getPort s p
  let cv := creditLane s p
  at' 64 62 typ ||| at' 64 60 (BitVec.ofNat 2 vl) ||| at' 64 48 seq ||| at' 64 36 (x.rxExp - 1) ||| at' 64 35 (b2 x.owesNak)
    ||| at' 64 33 (BitVec.ofNat 2 cv) ||| at' 64 30 (BitVec.ofNat 3 (Nat.min (owedCredits s p cv) 7)) ||| at' 64 22 x.epoch ||| at' 64 18 x.width
    ||| at' 64 12 s.mod.slotId ||| at' 64 0 (BitVec.ofNat 12 len)

/-- A flit leaves: what it acknowledges and the credits it returns are no longer owed; an injected fault corrupts it (R478). -/
def sendFlit (s : State) (p : Nat) (typ : BitVec 2) (vl : Nat) (seq : BitVec 12) (len : Nat) (k : Option (Pkt × Nat)) : State :=
  let x := getPort s p
  let cv := creditLane s p
  putPort s p { x with
    wire := x.wire ++ [(flitHead s p typ vl seq len, k)]
    rxUsed := mset 0 x.rxUsed cv (mget 0 x.rxUsed cv - Nat.min (owedCredits s p cv) 7)
    rxSinceAck := 0, owesNak := false, injFlit := false, injSent := x.injSent || x.injFlit }

/-- An IDLE flit (R336). -/
def sendIdle (s : State) (p : Nat) : State := sendFlit s p 0 0 0 0 none

/-- A flit of a packet. -/
def sendPart (s : State) (p : Nat) (f : TxFlit) : State :=
  sendFlit s p (if f.idx = 0 then 1 else 2) (pktLane f.pkt) f.seq (if f.idx = 0 then pktFlits f.pkt else 0) (some (f.pkt, f.idx))

/-- Every flit not acknowledged is sent again, the oldest first (R340, R346). -/
def resend (s : State) (p : Nat) : State := (getPort s p).replay.foldl (fun s f => sendPart s p f) s

/-- What a lane sends next: the packet under way, else its oldest packet where a credit is held (R337, R339). -/
def laneNext (x : Port) (vl : Nat) : Option (Pkt × Nat) :=
  match x.sending.find? fun e => decide (pktLane e.1 = vl) with
  | some e => some e
  | none => if mget 0 x.credits vl < laneBuffers vl then (x.txq.find? fun k => decide (pktLane k = vl)).map fun k => (k, 0) else none

/-- The arbitration weight of a lane, in flits (R331). -/
def laneWeight (x : Port) (vl : Nat) : Nat := fldN x.cfg (22 - 6 * vl) 6

/-- The lane served, and the turn after it: the control lane first, the others in weighted round robin (R337). -/
def nextLane (x : Port) : Option (Nat × (Nat × Nat)) :=
  let ready (vl : Nat) : Bool := (laneNext x vl).isSome
  let (c, n) := x.turn
  if ready 3 then some (3, x.turn)
  else if n ≠ 0 && ready c then some (c, (c, n - 1))
  else (([c + 1, c + 2, c].map (· % 3)).find? ready).map fun vl => (vl, (vl, laneWeight x vl - 1))

/-- One flit of a lane sent: a HEAD takes a credit; the flit stays in the replay buffer until acknowledged (R339, R340). -/
def sendLane (s : State) (p : Nat) (k : Pkt) (i : Nat) (turn : Nat × Nat) : State :=
  let f : TxFlit := { seq := (getPort s p).txSeq, pkt := k, idx := i }
  let s := sendPart s p f
  let x := getPort s p
  let vl := pktLane k
  let rest := x.sending.filter fun e => decide (pktLane e.1 ≠ vl)
  putPort s p { x with
    txSeq := x.txSeq + 1, replay := x.replay ++ [f], turn
    txq := if i = 0 then x.txq.erase k else x.txq
    credits := if i = 0 then mset 0 x.credits vl (mget 0 x.credits vl + 1) else x.credits
    sending := if i + 1 < pktFlits k then rest ++ [(k, i + 1)] else rest }

/-- Everything that may be sent is sent, while the replay buffer has room (R340). -/
def pumpPort : Nat → State → Nat → State
  | 0, s, _ => s
  | fuel + 1, s, p =>
    let x := getPort s p
    if x.live && decide (x.replay.length < 2048) then
      match nextLane x with
      | some (vl, turn) => match laneNext x vl with
        | some (k, i) => pumpPort fuel (sendLane s p k i turn) p
        | none => s
      | none => s
    else s

/-- Flits that wait at a port. -/
def flitsWaiting (x : Port) : Nat := sumN (x.txq.map pktFlits) + sumN (x.sending.map fun e => pktFlits e.1 - e.2)

/-- A port sends what it may. A replay buffer that takes its first flit starts the acknowledgement time-out (R340). -/
def pump (s : State) (n : Nat) : State :=
  let p := getPort s n
  let s := pumpPort (flitsWaiting p) s n
  if p.replay.isEmpty && !(getPort s n).replay.isEmpty then putPort s n { getPort s n with ackAt := s.mod.time } else s

/-- A port takes packets: not one that is OFF, DOWN or STOPPING (R360). -/
def takesPkts (x : Port) : Bool := decide (x.st = .up ∨ x.st = .training ∨ x.st = .retrain)

/-- A packet queued on a port that takes it. -/
def pushPkt (s : State) (n : Nat) (k : Pkt) : State :=
  if takesPkts (getPort s n) then pump (putPort s n { getPort s n with txq := (getPort s n).txq ++ [k] }) n else s

/-! ## Peers (R347-R349) -/

/-- The register of a peer slot, and its two ports. -/
def peerReg (s : State) (k : Nat) : W32 := mget 0 s.net.peers k
def peerPorts (s : State) (k : Nat) : List Nat := [fldN (peerReg s k) 0 5, fldN (peerReg s k) 8 5]

/-- A peer slot is VALID in the node peer table (R347). -/
def peerValid (s : State) (k : Nat) : Bool := bitAt (peerReg s k) 31
/-- The valid peer slots. -/
def validPeers (s : State) : List Nat := [1, 2, 3].filter (peerValid s)

/-- A port is UP with a partner of a SLOT_ID (R348). -/
def partnerIs (s : State) (port slot : Nat) : Bool :=
  let p := getPort s port
  decide (p.st = .up) && bitAt p.partner 31 && decide (fldN p.partner 8 6 = slot)

/-- A peer slot is configured (R348). -/
def peerConfigured (s : State) (k : Nat) : Bool :=
  peerValid s k && (peerPorts s k).any fun n => partnerIs s n (fldN (peerReg s k) 16 6)

/-- The port of a peer's control lane: PORT_A, or PORT_B while PORT_A is not UP (R349). -/
def ctrlPort (s : State) (k : Nat) : Nat :=
  let ps := peerPorts s k
  (ps.find? fun n => decide ((getPort s n).st = .up)).getD (ps.headD 0)

/-- A message queued on the control lane toward a peer (R338). -/
def sendCtrl (s : State) (k : Nat) (m : CtrlMsg) : State :=
  if peerValid s k then pushPkt s (ctrlPort s k) (.ctrl m) else s

/-- The peer slot that a port faces. -/
def peerOfPort (s : State) (n : Nat) : Option Nat := (validPeers s).find? fun k => (peerPorts s k).contains n

end Sys2Proof.Machine
end

