-- ==== Sys2Proof/Machine/Weir.lean ====
section
/-!
DEFINITION. Weirs: arrivals, rounds, releases, lost members, faults and orphans (chapter 9).
-/
namespace Sys2Proof.Machine
open Sys2Proof

/-- MEMBER_LOST (R268). -/
def cMemberLost : Byte := 0x70
/-- ORPHANED. -/
def cOrphaned : Byte := 0x71
/-- WEIR_FAULT. -/
def cWeirFault : Byte := 0x72
/-- WEIR_MEMBER. -/
def cWeirMember : Byte := 0x73
/-- WEIR_TWICE. -/
def cWeirTwice : Byte := 0x74
/-- WEIR_STALE. -/
def cWeirStale : Byte := 0x75
/-- WEIR_CONFIG. -/
def stWeirConfig : Byte := 0x76

def weirOn (w : Weir) : Bool := bitAt w.cfg 31
def weirLevel (w : Weir) : Nat := fldN w.cfg 28 3
def weirOwner (w : Weir) : BitVec 2 := fld w.cfg 26 2
def weirWaiters (w : Weir) (j : BitVec 2) : Bool := bitAt w.cfg (22 + j.toNat)
def weirRootPeer (w : Weir) : BitVec 2 := fld w.cfg 20 2

/-- Base die W, C or E of a compute die (R13): 0, 1 or 2. -/
def baseOf (d : Nat) : Nat := (d % 6) / 2

/-- The dies of a weir's span, seen from die d (R245). -/
def spanDies (s : State) (lvl d : Nat) : List Nat :=
  if lvl ≤ 3 then [d]
  else if lvl = 4 then (List.range 12).filter fun e => diePresent s e && decide (baseOf e = baseOf d)
  else (List.range 12).filter (diePresent s)

/-- Physical position of a logical tile (R15). -/
def tilePos (s : State) (t : W16) : Nat := nth 0 (tileHalf s t).map (tIdx t)

/-- The cluster of a tile: 4 × 4 positions of its half (R245). -/
def tileCluster (s : State) (t : W16) : Nat := ((tilePos s t % 24) / 4) + 6 * ((tilePos s t / 24) / 4)

/-- A tile lies within the reach of a weir's release (R252). -/
def weirReach (s : State) (w : Weir) (t : W16) : Bool :=
  if weirLevel w ≤ 2 then
    decide (tDie t = tDie w.site) && decide (tH1 t = tH1 w.site)
    && (decide (weirLevel w = 2) || decide (tileCluster s t = tileCluster s w.site))
  else true

/-- ERR.DIE of the unit that holds a weir's root counter (R263, R457). -/
def rootDie (d lvl : Nat) : BitVec 4 :=
  BitVec.ofNat 4 (if lvl ≤ 3 then d else if lvl = 4 then 12 + baseOf d else 13)

/-- A weir changed on every die of a list. -/
def onDies (s : State) (ds : List Nat) (n : BitVec 12) (f : Weir → Weir) : State :=
  ds.foldl (fun s d => modDie s d fun x => putWeir x n (f (getWeir x n))) s

/-- The dies of a weir's span that hold it: a die that is lost, or has rejoined since the load, does not (R266). -/
def liveDies (s : State) (lvl d : Nat) (n : BitVec 12) : List Nat :=
  (spanDies s lvl d).filter fun e => weirOn (getWeir (getDie s e) n)

/-- A record of a weir (R458, R459); MEMBER_LOST holds the epoch in INFO0 (R263). -/
def weirErr (cause : Byte) (n : BitVec 12) (w : Weir) (die : BitVec 4) (info0 : Nat) : Err :=
  { cause, unit := 2, source := n.setWidth 16, job := some (weirOwner w), die, info0 := BitVec.ofNat 64 info0 }

/-! ## Peers of an L6 weir (R245, R248) -/

def getL6 (s : State) (n : BitVec 12) : WeirL6 := mget WeirL6.reset s.net.l6 n.toNat
def putL6 (s : State) (n : BitVec 12) (x : WeirL6) : State := { s with net := { s.net with l6 := mset WeirL6.reset s.net.l6 n.toNat x } }

/-- Every peer in the span has loaded the weir (R248). -/
def peersReady (s : State) (n : BitVec 12) : Bool :=
  let x := getL6 s n
  (validPeers s).all fun k => bitAt x.peersLost k || bitAt x.peersLoaded k

/-- Every peer in the span has arrived for the open round (R248, R264). -/
def peersIn (s : State) (n : BitVec 12) : Bool :=
  let x := getL6 s n
  (validPeers s).all fun k => bitAt x.peersLost k || bitAt x.peersArrived k

/-- A message to every valid peer. -/
def tellPeers (s : State) (m : CtrlMsg) : State := (validPeers s).foldl (fun s k => sendCtrl s k m) s

/-! ## Rounds (R250, R251) -/

/-- The round that is open at the root: the one after the releases on their way to a die. -/
def rootRound (w : Weir) : BitVec 4 := w.epoch + BitVec.ofNat 4 w.release.length

/-- Every member on a die has arrived for the round that is open at the root. -/
def dieArrived (w : Weir) : Bool := w.members.isEmpty || (w.release.isEmpty && w.members.all fun t => w.arrived.contains t)

/-- Every member on the dies of a span has arrived for the open round. -/
def allArrived (s : State) (n : BitVec 12) (ds : List Nat) : Bool := ds.all fun d => dieArrived (getWeir (getDie s d) n)

/-- The release of the open round sent down to every die of the span (R251). With MEMBER_LOST the unit that holds the root counter writes its
record (R263). -/
def sendRelease (s : State) (d : Nat) (n : BitVec 12) (lost : Bool) : State :=
  let w := getWeir (getDie s d) n
  let ds := liveDies s (weirLevel w) d n
  let lost := lost || ds.any fun d => (getWeir (getDie s d) n).lost
  let s := onDies s ds n fun v => { v with release := v.release ++ [(rootRound w, lost)] }
  let s := if weirLevel w = 6 then putL6 s n { getL6 s n with peersArrived := 0 } else s
  if lost then putErr s (weirErr cMemberLost n w (rootDie d (weirLevel w)) (rootRound w).toNat) else s

/-- The root tests whether its round is complete; at L6, once the first round is open, the module tells the root module, or its peers
(R248, R251). -/
def weirTest (s : State) (d : Nat) (n : BitVec 12) : State :=
  let w := getWeir (getDie s d) n
  let ds := liveDies s (weirLevel w) d n
  if w.fault || w.orphaned || !allArrived s n ds then s
  else if weirLevel w < 6 then sendRelease s d n false
  else if !(getL6 s n).opened then s
  else if weirRootPeer w = 0 then
    if peersIn s n then
      sendRelease (tellPeers s (.weirRelease n (rootRound w) (ds.any fun d => (getWeir (getDie s d) n).lost))) d n false
    else s
  else sendCtrl s (weirRootPeer w).toNat (.weirArrive (weirRootPeer w) n (rootRound w))

/-- The first round of an L6 weir opens once this module and every peer have loaded it (R248). -/
def openL6 (s : State) (d : Nat) (n : BitVec 12) : State :=
  if !(getL6 s n).opened && peersReady s n then weirTest (putL6 s n { getL6 s n with opened := true, peersLoaded := 0 }) d n else s

/-- The number by which the model counts the faults of a weir unit (R464): below 10,000 a unit of levels L1 to L3, by its die first. -/
def weirUnit (s : State) (d : Nat) (w : Weir) : Nat :=
  match weirLevel w with
  | 1 => d * 512 + (if tH1 w.site then 256 else 0) + tileCluster s w.site
  | 2 => d * 512 + (if tH1 w.site then 256 else 0) + 128
  | 3 => d * 512 + 511
  | 4 => 10000 + baseOf d
  | _ => 10003

/-- The arrived bits of a weir clear on every tile of a list of dies: a release has reached them (R249). -/
def clearArrived (s : State) (ds : List Nat) (n : BitVec 12) : State :=
  { s with tiles := mmap Tile.reset s.tiles fun k x =>
      if ds.contains (k / 2048) then { x with weirArrived := mset false x.weirArrived n.toNat false } else x }

/-- FAULT state on every die of the span: every waiter is released (R260). -/
def weirFaultSpan (s : State) (d : Nat) (n : BitVec 12) : State :=
  let ds := liveDies s (weirLevel (getWeir (getDie s d) n)) d n
  clearArrived (onDies s ds n fun w => { w with fault := true, copyBad := false, copyInjected := false, release := [] }) ds n

/-- A copy of a counter disagrees: FAULT on every die of the span, one record; at L6 the other modules are told (R260). -/
def weirFaultAll (s : State) (d : Nat) (n : BitVec 12) : State :=
  let w := getWeir (getDie s d) n
  let s := putErr s { weirErr cWeirFault n w (rootDie d (weirLevel w)) 0 with injected := w.copyInjected }
  let s := { s with log := { s.log with weirFaults := s.log.weirFaults ++ [(weirUnit s d w, s.mod.time)] } }
  let s := if weirLevel w = 6 then tellPeers s (.weirStopped n false) else s
  weirFaultSpan s d n

/-- The arrivals of a weir at a die that have not reached their counter. -/
def hasArrival (s : State) (d : Fin 12) (n : BitVec 12) (t : W16) : Option Arrival :=
  s.net.arrivals.find? fun a => decide (a.die = d) && decide (a.weir = n) && decide (a.tile = t)

/-- An arrival reaches its die's counters: dropped in FAULT or ORPHANED state, stale when its epoch is not the open one,
otherwise counted, which may complete the round (R250, R251, R260, R265). -/
def counterArrival (s : State) (a : Arrival) : State :=
  let s := { s with net := { s.net with arrivals := s.net.arrivals.erase a } }
  let d := a.die.val
  let w := getWeir (getDie s d) a.weir
  if w.fault || w.orphaned then s
  else if a.epoch ≠ w.epoch then
    putErr (modDie s d fun x => putWeir x a.weir { w with stale := w.stale + 1 })
      (weirErr cWeirStale a.weir w (BitVec.ofNat 4 d) 0)
  else if w.copyBad then weirFaultAll s d a.weir
  else if w.arrived.contains a.tile then s
  else weirTest (modDie s d fun x => putWeir x a.weir { w with arrived := w.arrived ++ [a.tile] }) d a.weir

/-- The arrival of a tile reaches its counter. Without one under way nothing happens (log entry 2). -/
def arriveAtCounter (s : State) (die : Fin 12) (weir : BitVec 12) (tile : W16) : State :=
  match hasArrival s die weir tile with
  | some a => if weirOn (getWeir (getDie s die.val) weir) then counterArrival s a else s
  | none => s

/-- The release of round h passes a die's counters: arrivals cleared, h + 1 open, WEIR.ROUNDS up by one, LOST_MASK bit h set
with MEMBER_LOST, the bit of the epoch that opens cleared (R251, R263, R267). -/
def openNext (w : Weir) (h : BitVec 4) (lost : Bool) : Weir :=
  let m := if lost then w.lostMask ||| BitVec.ofNat 16 (2 ^ h.toNat) else w.lostMask
  { w with arrived := [], epoch := h + 1, rounds := w.rounds + 1, lostMask := m &&& ~~~ BitVec.ofNat 16 (2 ^ (h + 1).toNat),
           release := w.release.drop 1 }

/-- A release reaches a die's counters. -/
def releaseAtDie (s : State) (d : Nat) (n : BitVec 12) : State :=
  let w := getWeir (getDie s d) n
  match w.release with
  | (h, lost) :: _ => if w.copyBad then weirFaultAll s d n else modDie s d fun x => putWeir x n (openNext w h lost)
  | [] => s

/-- A release reaches a tile: its view of the open epoch is the die's, its arrived bit clears (R249, R253). -/
def releaseAtTile (s : State) (d : Nat) (n : BitVec 12) (t : W16) : State :=
  let w := getWeir (getDie s d) n
  if decide (tDie t = d) && weirReach s w t && decide (mget 0 (getTile s t).weirView n.toNat ≠ w.epoch) then
    modTile s t fun x =>
      { x with weirView := mset 0 x.weirView n.toNat w.epoch, weirArrived := mset false x.weirArrived n.toNat false }
  else s

/-- A release on its way reaches a die's counters, or a tile of that die (R251-R253). -/
def releaseArrive (s : State) (die : Fin 12) (weir : BitVec 12) (tile : Option W16) : State :=
  match tile with
  | none => releaseAtDie s die.val weir
  | some t => releaseAtTile s die.val weir t

/-! ## A tile's side (R249-R253) -/

/-- The checks of ARRIVE (R250). -/
def arriveCheck (s : State) (t : W16) (j : BitVec 2) (n : BitVec 12) : Option Byte :=
  let x := getTile s t
  let w := getWeir (getDie s (tDie t)) n
  if !weirOn w || !mget false x.weirMember n.toNat then some cWeirMember
  else if weirOwner w ≠ j then some cObjOwner
  else if mget false x.weirArrived n.toNat then some cWeirTwice
  else none

/-- ARRIVE: the tile's arrived bit is set and the arrival is on its way (R249, R250). -/
def arriveAct (t : W16) (n : BitVec 12) (h : BitVec 4) (s : State) : State :=
  let s := modTile s t fun x => { x with weirArrived := mset false x.weirArrived n.toNat true }
  if hd : tDie t < 12 then
    let a : Arrival := { die := ⟨tDie t, hd⟩, weir := n, tile := t, epoch := h }
    { s with net := { s.net with arrivals := s.net.arrivals ++ [a] } }
  else s

/-- The checks of a WAIT on a weir, in their order (R252). -/
def weirWaitCheck (s : State) (t : W16) (j : BitVec 2) (n : BitVec 12) : Option Byte :=
  let w := getWeir (getDie s (tDie t)) n
  if !weirOn w then some cWeirMember
  else if !weirWaiters w j then some cObjOwner
  else if !weirReach s w t then some cWeirMember
  else none

/-- What a WAIT on a weir for epoch h resolves to: a release status, or none while it waits (R253, R260, R265). -/
def weirWaitRes (s : State) (t : W16) (n : BitVec 12) (h : BitVec 4) : Option Byte :=
  let w := getWeir (getDie s (tDie t)) n
  if w.fault then some cWeirFault
  else if w.orphaned then some cOrphaned
  else
    let d := (mget 0 (getTile s t).weirView n.toNat - h).toNat
    if 1 ≤ d ∧ d ≤ 7 then some (if bitAt w.lostMask h.toNat then cMemberLost else 0) else none

/-- What the tile sees as its WAIT resolves: a release by FAULT or ORPHANED state clears its arrived bit (R249, R260, R265). -/
def weirSeen (t : W16) (n : BitVec 12) (s : State) : State :=
  let w := getWeir (getDie s (tDie t)) n
  if w.fault || w.orphaned then modTile s t fun x => { x with weirArrived := mset false x.weirArrived n.toNat false } else s

/-! ## Lost members, orphans (R263-R266) -/

/-- The open round of a weir that has lost a member releases with MEMBER_LOST, and LOST stands on every die of its span (R263, R264). At L6
the other modules are told of the round. In FAULT or ORPHANED state no round is open. -/
def releaseLost (s : State) (d : Nat) (n : BitVec 12) : State :=
  let w := getWeir (getDie s d) n
  let s := onDies s (liveDies s (weirLevel w) d n) n fun v => { v with lost := true }
  if w.fault || w.orphaned then s
  else
    let s := if weirLevel w = 6 then tellPeers s (.weirRelease n (rootRound w) true) else s
    sendRelease s d n true

/-- Weirs that a test of their state on a die names, each once per span: number, and a die of the span that stays. -/
def weirsWhere (s : State) (f : Nat → Weir → Bool) : List (Nat × BitVec 12) :=
  s.dies.flatMap fun e => e.2.weirs.filterMap fun k => if weirOn k.2 && f e.1 k.2 then some (e.1, BitVec.ofNat 12 k.1) else none

/-- Members that a test names are lost: they leave the span, and the open round of every weir that had one releases with MEMBER_LOST. A die
for which the second test holds is lost itself and holds no weir any more. -/
def loseMembers (s : State) (lost : W16 → Bool) (gone : Nat → Bool) : State :=
  let hit := weirsWhere s fun _ w => w.members.any lost
  let left (w : Weir) : Weir := { w with members := w.members.filter (!lost ·), arrived := w.arrived.filter (!lost ·) }
  let s := { s with dies := mmap Die.reset s.dies fun d x =>
    { x with weirs := if gone d then [] else mmap Weir.reset x.weirs fun _ w => left w } }
  let rest := hit.filterMap fun e =>
    let near : Option Nat := (List.range 12).find? fun d =>
      let w := getWeir (getDie s d) e.2
      weirOn w && (spanDies s (weirLevel w) d).contains e.1
    near.map fun d => (d, e.2)
  rest.eraseDups.foldl (fun s e => releaseLost s e.1 e.2) s

/-- A weir orphaned on every die of its span, with one record per die; every waiter is released (R265). -/
def orphanWeir (s : State) (d : Nat) (n : BitVec 12) : State :=
  let ds := liveDies s (weirLevel (getWeir (getDie s d) n)) d n
  clearArrived (ds.foldl (fun s e =>
    let w := getWeir (getDie s e) n
    if w.orphaned then s
    else
      putErr (modDie s e fun x => putWeir x n { w with orphaned := true, release := [] })
        (weirErr cOrphaned n w (BitVec.ofNat 4 e) 0)) s) ds n

/-- Every weir of a job orphaned; the other modules of an L6 span are told (R265, R405). -/
def orphanJob (s : State) (j : BitVec 2) : State :=
  let hit := weirsWhere s fun _ w => decide (weirOwner w = j)
  let l6 := ((hit.filter fun e => decide (weirLevel (getWeir (getDie s e.1) e.2) = 6)).map Prod.snd).eraseDups
  let s := hit.foldl (fun s e => orphanWeir s e.1 e.2) s
  l6.foldl (fun s n => tellPeers s (.weirStopped n true)) s

/-! ## Loading a weir (R248) -/

/-- The members lie within one span of the level. -/
def oneSpan (s : State) (lvl : Nat) (ms : List W16) : Bool :=
  match ms with
  | [] => false
  | a :: _ => ms.all fun t =>
    match lvl with
    | 1 => decide (tDie t = tDie a) && decide (tH1 t = tH1 a) && decide (tileCluster s t = tileCluster s a)
    | 2 => decide (tDie t = tDie a) && decide (tH1 t = tH1 a)
    | 3 => decide (tDie t = tDie a)
    | 4 => decide (baseOf (tDie t) = baseOf (tDie a))
    | _ => true

/-- The context is loaded in some state other than STOPPED or HALTED on some tile (R191, R248). -/
def jobLive (s : State) (j : BitVec 2) : Bool :=
  s.tiles.any fun e =>
    let st := (getCtx e.2 j).st
    decide (st ≠ .empty) && decide (st ≠ .stopped) && decide (st ≠ .halted)

/-- The status with which a weir load is refused (R248, R11), if it is. -/
def weirLoadRefusal (s : State) (n : BitVec 12) (cfg : W32) (ms : List W16) : Option Byte :=
  let w : Weir := { Weir.reset with cfg }
  let lvl := weirLevel w
  let root := (weirRootPeer w).toNat
  if lvl = 0 ∨ lvl = 7 then some stInvalid
  else if ms.isEmpty || ms.any (fun t => !tilePresent s t || (getTile s t).fenced) then some stWeirConfig
  else if !oneSpan s lvl ms then some stWeirConfig
  else if !weirWaiters w (weirOwner w) || (decide (root ≠ 0) && decide (lvl < 6)) then some stWeirConfig
  else if decide (lvl = 6) && ((validPeers s).any (fun k => !peerConfigured s k) || (decide (root ≠ 0) && !peerValid s root)) then
    some stWeirConfig
  else if (spanDies s lvl (tDie (ms.headD 0))).any (fun d => let old := getWeir (getDie s d) n; weirOn old && jobLive s (weirOwner old)) then
    some stCfgBusy
  else none

/-- A tile with its bits of a weir cleared. -/
def clearWeirBits (n : BitVec 12) (x : Tile) : Tile :=
  { x with weirMember := mset false x.weirMember n.toNat false, weirArrived := mset false x.weirArrived n.toNat false,
           weirView := mset 0 x.weirView n.toNat 0 }

/-- Membership bits of a weir's tiles on a die set to a list, arrived bits and views cleared (R248, R249). -/
def setMembers (s : State) (d : Nat) (n : BitVec 12) (ms : List W16) : State :=
  let cleared := mmap Tile.reset s.tiles fun k x => if k / 2048 = d then clearWeirBits n x else x
  (ms.filter fun t => decide (tDie t = d)).foldl
    (fun s t => modTile s t fun x => { x with weirMember := mset false x.weirMember n.toNat true }) { s with tiles := cleared }

/-- An accepted weir load (R248): every die that a weir of the number spanned from a die of the new span is disabled, then the dies of the
new span that are READY are loaded. Members on a die that is not are lost from the start: DESIGN CHOICE (log entry 60). -/
def weirLoadApply (s : State) (n : BitVec 12) (cfg : W32) (ms : List W16) : State :=
  let w : Weir := { Weir.reset with cfg := cfg &&& 0xFFF00000, lost := ms.any fun t => !dieReady s (tDie t) }
  let d0 := tDie (ms.headD 0)
  let new := (spanDies s (weirLevel w) d0).filter (dieReady s)
  let old := (new.flatMap fun d =>
    let v := getWeir (getDie s d) n
    if weirOn v then liveDies s (weirLevel v) d n else []).eraseDups
  let s := { s with net := { s.net with arrivals := s.net.arrivals.filter fun a => decide (a.weir ≠ n) || !(old ++ new).contains a.die.val } }
  let s := (old.filter (!new.contains ·)).foldl (fun s d => setMembers (modDie s d fun x => putWeir x n Weir.reset) d n []) s
  let s := new.foldl (fun s d =>
    setMembers (modDie s d fun x => putWeir x n
      { w with members := ms.filter fun t => decide (tDie t = d), site := ms.headD 0 }) d n ms) s
  if weirLevel w = 6 then
    let s := putL6 s n { getL6 s n with opened := false, peersArrived := 0, peersLost := s.net.peerLost }
    openL6 (tellPeers s (.weirLoaded 0 n)) d0 n
  else s

/-- A weir load: its status and what it leaves (R248). -/
def weirLoad (s : State) (n : BitVec 12) (cfg : W32) (ms : List W16) : State × Byte :=
  match weirLoadRefusal s n cfg ms with
  | some st => (s, st)
  | none => (weirLoadApply s n cfg ms, stOk)

/-- WEIR_LOAD (R248): completes with its status. -/
def execWeirLoad (_w : Writer) (weir : BitVec 12) (cfg : W32) (members : List W16) (s : State) : Host.Outcome State Fault Refusal :=
  .next (let (s, st) := weirLoad s weir cfg members; setStatus s st)

/-- WEIR_COPY (R478): one copy of a weir's counter is corrupted; the next update finds it (R260). A write from the non-secure
world is ignored with the world-violation status. -/
def injectWeirCopy (s : State) (t : W16) (n : BitVec 12) : State :=
  modDie s (tDie t) fun x => putWeir x n { getWeir x n with copyBad := true, copyInjected := true }

end Sys2Proof.Machine
end

