-- ==== Sys2Proof/Machine/Exchange.lean ====
section
/-!
DEFINITION. Folios, routes, message blocks, trees and markers (chapter 8).
-/
namespace Sys2Proof.Machine
open Sys2Proof

/-- Causes of chapter 8 (R244). -/
def cFolioFormat : Byte := 0x60
def cFolioMap : Byte := 0x61
def cFolioDest : Byte := 0x62
def cTreeInvalid : Byte := 0x63
def cXchTimeout : Byte := 0x64
def cPruned : Byte := 0x65
def cConfAbandon : Byte := 0x67
def cLinkDrop : Byte := 0x68
def cXchUnreachable : Byte := 0x69
def cMeshCrc : Byte := 0x6A

/-! ## Geometry (R13, R14, R19, R224, R225, R423) -/

/-- Die column of the plan view. -/
def dieCol (d : Nat) : Nat := d % 6
/-- Die row: 0 north, 1 south. -/
def dieRow (d : Nat) : Nat := d / 6

/-- The edge between two neighbouring dies (R423). -/
def edgeNo (a b : Nat) : Nat :=
  if dieRow a = dieRow b then (if dieRow a = 0 then Nat.min a b else Nat.min a b - 1) else 10 + Nat.min a b

/-- The edge between two dies is OPEN and both are READY. -/
def crossable (s : State) (a b : Nat) : Bool := decide ((getEdge s (edgeNo a b)).st = 2) && dieReady s a && dieReady s b

/-- Edge row er(j) (R225). -/
def edgeRow (j : Nat) : Nat := 8 * j / 3 + 1

/-- The position of a tile's router. -/
def posOf (s : State) (t : W16) : Pos :=
  { die := tDie t, h1 := tH1 t, col := tilePos s t % 24, row := tilePos s t / 24 }

/-- The logical tile at a position, if one has it. -/
def tileAt (s : State) (p : Pos) : Option W16 :=
  let m := (getHalf s (halfNo p.die p.h1)).map
  (m.findIdx? fun x => decide (x = p.row * 24 + p.col)).map fun i => tileId p.die p.h1 i

/-- The tile ID by which a record names a router: 0xFFFF for a position without a logical tile. -/
def routerId (s : State) (p : Pos) : W16 := (tileAt s p).getD 0xFFFF

/-- The number by which a router is named: its tile's ID, or, with bit 15 set, the position of one without a logical tile (log entry 62). -/
def routerCode (s : State) (p : Pos) : W16 :=
  (tileAt s p).getD (BitVec.ofNat 16 (32768 + halfNo p.die p.h1 * 768 + p.row * 24 + p.col))

/-- The position of a router of a number. -/
def routerPos (s : State) (r : W16) : Pos :=
  if bitAt r 15 then
    let n := fldN r 0 15
    { die := n / 1536, h1 := decide (n / 768 % 2 = 1), col := n % 24, row := n % 768 / 24 }
  else posOf s r

/-- The die of a router of a number. -/
def routerDie (r : Nat) : Nat := if r < 32768 then r / 2048 else (r - 32768) / 1536

/-- A row at which die-to-die links and port bridges attach (R225). -/
def isEdgeRow (row : Nat) : Bool := (List.range 12).any fun j => decide (edgeRow j = row)

/-- Corner die of a port's bridge (R19, R423). -/
def portDie (p : Nat) : Nat := if p < 6 then 0 else if p < 12 then 6 else if p < 18 then 5 else 11

/-- The next router through a port, and its input port there; none where the port leads off the mesh (R224). -/
def neighbour (p : Pos) (port : Nat) : Option (Pos × Nat) :=
  match port with
  | 1 => if 0 < p.row then some ({ p with row := p.row - 1 }, 2)
         else if p.h1 then some ({ p with h1 := false, row := 31 }, 2) else none
  | 2 => if p.row < 31 then some ({ p with row := p.row + 1 }, 1)
         else if p.h1 then some ({ p with die := (p.die + 6) % 12, row := 31 }, 2) else some ({ p with h1 := true, row := 0 }, 1)
  | 3 => if 0 < p.col then some ({ p with col := p.col - 1 }, 4)
         else if isEdgeRow p.row && decide (0 < dieCol p.die) then some ({ p with die := p.die - 1, col := 23 }, 4) else none
  | 4 => if p.col < 23 then some ({ p with col := p.col + 1 }, 3)
         else if isEdgeRow p.row && decide (dieCol p.die < 5) then some ({ p with die := p.die + 1, col := 0 }, 3) else none
  | _ => none

/-! ## Routes (R226, R227, R426) -/

/-- Dies of one row from column a to column b, both ends included. -/
def rowWalk (row a b : Nat) : List Nat :=
  if a ≤ b then (List.range (b - a + 1)).map fun i => row * 6 + a + i else (List.range (a - b + 1)).map fun i => row * 6 + a - i

/-- A die path without immediate repeats. -/
def dedup : List Nat → List Nat
  | a :: b :: t => if a = b then dedup (b :: t) else a :: dedup (b :: t)
  | l => l

/-- Every crossing of a die path is open between READY dies. -/
def pathOpen (s : State) : List Nat → Bool
  | a :: b :: t => crossable s a b && pathOpen s (b :: t)
  | _ => true

/-- The dies that R226 passes. -/
def diePath0 (a b : Nat) : List Nat := dedup (rowWalk (dieRow a) (dieCol a) (dieCol b) ++ [b])

/-- R227's detour: rows first at the source column, then along the other row, and back at the destination column. -/
def diePath1 (a b : Nat) : List Nat :=
  let r := 1 - dieRow a
  dedup ([a] ++ rowWalk r (dieCol a) (dieCol b) ++ [b])

/-- R426's crossing at die column k, returning along the destination row. -/
def diePath2 (a b k : Nat) : List Nat :=
  dedup (rowWalk (dieRow a) (dieCol a) k ++ rowWalk (dieRow b) k (dieCol b))

/-- Die columns by distance from column c, the lower on a tie (R426). -/
def colsBy (c : Nat) : List Nat :=
  (List.range 6).flatMap fun k => (if k ≤ c then [c - k] else []) ++ (if k ≠ 0 ∧ c + k < 6 then [c + k] else [])

/-- The route of R226 meets nothing but a cross-row edge that is closed between READY dies. -/
def onlyCrossClosed (s : State) (a b : Nat) : Bool :=
  let c := dieRow a * 6 + dieCol b
  decide (dieRow a ≠ dieRow b) && pathOpen s (rowWalk (dieRow a) (dieCol a) (dieCol b)) && dieReady s c && dieReady s b
  && decide ((getEdge s (edgeNo c b)).st ≠ 2)

/-- The die path of a block from die a to die b, if there is one: R226's; past a closed cross-row edge the crossing nearest the destination
column (R426); past a fenced die or a closed west or east edge R227's detour. -/
def diePath (s : State) (a b : Nat) : Option (List Nat) :=
  if a = b then some [a]
  else if pathOpen s (diePath0 a b) then some (diePath0 a b)
  else if onlyCrossClosed s a b then
    ((colsBy (dieCol b)).find? fun k => pathOpen s (diePath2 a b k)).map fun k => diePath2 a b k
  else if pathOpen s (diePath1 a b) then some (diePath1 a b)
  else none

/-- The die after d on a path. -/
def dieAfter (d : Nat) : List Nat → Option Nat
  | a :: b :: t => if a = d then some b else dieAfter d (b :: t)
  | _ => none

/-- The output port a unicast block takes at its router; 0 where it has arrived (R226). -/
def outPort (via : List Nat) (p dst : Pos) : Nat :=
  let toCol (c : Nat) : Nat := if c < p.col then 3 else 4
  match dieAfter p.die via with
  | some e =>
    if dieRow e = dieRow p.die then
      let er := edgeRow (3 * dst.row / 8)
      if p.row ≠ er then (if p.row < er then 2 else 1) else if e < p.die then 3 else 4
    else
      let c := if dieCol p.die ≠ dieCol dst.die ∧ via.headD p.die = p.die then p.col else dst.col
      if p.col ≠ c then toCol c else 2
  | none =>
    if p.col ≠ dst.col then toCol dst.col
    else if p.h1 ≠ dst.h1 then (if p.h1 then 1 else 2)
    else if p.row = dst.row then 0 else if p.row < dst.row then 2 else 1

/-- Route class of a block: A in its first die before a west or east crossing, B in transit and toward a cross-row edge, C in the
destination die (R221). A tree block takes the class of a unicast block on its path (R238): dst and via of a copy of a CAST block name the leaf
beyond it whose path is in the earliest class. -/
def blkClass (b : Block) : Nat :=
  if dieCol b.pos.die ≠ dieCol b.dst.die then (if b.via.headD b.pos.die = b.pos.die then 0 else 1)
  else if dieRow b.pos.die ≠ dieRow b.dst.die then 1 else 2

/-! ## Blocks and their buffers -/

/-- A block of no contents, the value of an unused number. -/
def Block.reset : Block :=
  { kind := .put, src := 0, dest := 0, daddr := 0, acntEn := false, acnt := 0, i24 := false, tree := 0, dmod := 0, job := 0,
    world := false, payload := [], bad := none, pos := ⟨0, false, 0, 0⟩, inPort := 0, dst := ⟨0, false, 0, 0⟩, via := [],
    slotWait := none, xfer := none, injected := false, taken := [], heldSince := 0, run := 0, rxPort := none }

def getBlk (s : State) (i : Nat) : Option Block := (s.net.blocks.find? fun e => decide (e.1 = i)).map (·.2)
def putBlk (s : State) (i : Nat) (b : Block) : State := { s with net := { s.net with blocks := mset Block.reset s.net.blocks i b } }
def dropBlk (s : State) (i : Nat) : State := { s with net := { s.net with blocks := merase s.net.blocks i } }
/-- A new block takes the next number. -/
def addBlk (s : State) (b : Block) : State :=
  { s with net := { s.net with blocks := mset Block.reset s.net.blocks (s.net.nextBlk + 1) b, nextBlk := s.net.nextBlk + 1 } }

/-- The block that holds the buffer of a class at a router's input port or at a link end (R221). -/
def bufHolder (s : State) (p : Pos) (inPort cls : Nat) : Option Block :=
  (s.net.blocks.find? fun e => decide (e.2.pos = p) && decide (e.2.inPort = inPort) && decide (blkClass e.2 = cls)).map (·.2)

/-- The buffer is free: its credit (R221). -/
def bufFree (s : State) (p : Pos) (inPort cls : Nat) : Bool := (bufHolder s p inPort cls).isNone

/-- A round's sum on its way to the tile of its router. -/
def atSum : Nat := 6
/-- The ends of the die-to-die link at a port of a router (R221). -/
def sendEnd (port : Nat) : Nat := 10 + port
def recvEnd (port : Nat) : Nat := 20 + port

/-- The stage after a router's port: the next router's input, or the sending end of a die-to-die link. -/
def nextStage (p : Pos) (port : Nat) : Option (Pos × Nat) :=
  (neighbour p port).map fun (q, inp) => if q.die = p.die then (q, inp) else (p, sendEnd port)

/-- The port of a router whose die-to-die link holds a block at one of its ends, and whether that is the sending end. -/
def linkPort (b : Block) : Option (Nat × Bool) :=
  if 11 ≤ b.inPort ∧ b.inPort ≤ 14 then some (b.inPort - 10, true)
  else if 21 ≤ b.inPort ∧ b.inPort ≤ 24 then some (b.inPort - 20, false)
  else none

/-- The router's port at which a block is detected (R459); none for one that comes from a memory port, a bridge or an adder. -/
def detPort (b : Block) : Nat := match linkPort b with | some (port, _) => port | none => if b.inPort < 5 then b.inPort else 0

/-- A record of a router about a block (R459). -/
def routerErr (s : State) (cause : Byte) (sev : BitVec 2) (p : Pos) (b : Block) (port : Nat) : Err :=
  { cause, sev, unit := 1, source := routerId s p, job := some b.job, die := BitVec.ofNat 4 p.die, detail := BitVec.ofNat 8 port,
    info0 := at' 64 0 b.src ||| at' 64 16 (if b.kind = .cast ∨ b.kind = .add then b.tree.setWidth 16 else b.dest) ||| at' 64 32 (b.daddr.setWidth 23),
    injected := b.injected }

/-! ## Markers (R239) -/

def addMarker (s : State) (tile : W16) (acnt : BitVec 6) (cause : Byte) (job : BitVec 2) : State :=
  let m : Marker := { tile, acnt, cause, job }
  { s with net := { s.net with markers := s.net.markers ++ [(s.net.nextMk, m)], nextMk := s.net.nextMk + 1 } }

/-- Markers sent to the receiving tiles of a send, on the arrival counter that SEND.ACNT names (R239). A block of a stream names none. -/
def markTiles (s : State) (b : Block) (ts : List W16) (cause : Byte) : State :=
  if b.xfer.isSome then s else ts.foldl (fun s t => addMarker s t b.acnt cause b.job) s

/-- MARKER_RECEIVE (R239): a marker reaches its tile; one for a fenced tile is dropped with a record (R232). -/
def execMarkerReceive (mk : Nat) (s : State) : Host.Outcome State Fault Refusal :=
  .next (match s.net.markers.find? fun e => decide (e.1 = mk) with
    | some (_, m) =>
      let s := { s with net := { s.net with markers := merase s.net.markers mk } }
      if (getTile s m.tile).fenced || !dieReady s (tDie m.tile) then
        putErr s { cause := cDestFenced, unit := 1, source := m.tile, job := some m.job, die := BitVec.ofNat 4 (tDie m.tile) }
      else acntMark s m.tile m.acnt.toNat m.cause
    | none => s)

/-! ## Trees (R233-R238) -/

def treeOn (t : Tree) : Bool := bitAt t.cfg 31
def treeAdd (t : Tree) : Bool := bitAt t.cfg 30
def treeOwner (t : Tree) : BitVec 2 := fld t.cfg 28 2
def treeEnd (t : Tree) : W16 := fld t.cfg 0 16

/-- MESH.ROUTE of a router for a tree (R237). -/
def routeAt (s : State) (t : W16) (n : BitVec 10) : W16 := mget 0 s.net.routes (t.toNat * 1024 + n.toNat)
/-- The entry at a position. -/
def routeAtPos (s : State) (p : Pos) (n : BitVec 10) : W16 := routeAt s (routerCode s p) n
def routeIn (r : W16) (port : Nat) : Bool := bitAt r (5 + port)
def routeOut (r : W16) (port : Nat) : Bool := bitAt r port

/-- The ports of an OUT mask. -/
def outPorts (r : W16) : List Nat := (List.range 5).filter (routeOut r)
/-- The ports of an IN mask. -/
def inPorts (r : W16) : List Nat := (List.range 5).filter (routeIn r)

/-- The leaves of a CAST tree at and beyond a router. -/
def castLeaves (s : State) (n : BitVec 10) : Nat → Pos → List W16
  | 0, _ => []
  | fuel + 1, p => (outPorts (routeAtPos s p n)).flatMap fun o =>
      if o = 0 then (tileAt s p).toList
      else match neighbour p o with | some (q, _) => castLeaves s n fuel q | none => []

/-- The leaves beyond one OUT port. -/
def leavesBeyond (s : State) (n : BitVec 10) (p : Pos) (o : Nat) : List W16 :=
  if o = 0 then (tileAt s p).toList else match neighbour p o with | some (q, _) => castLeaves s n 1024 q | none => []

/-- The receiving tiles of a block. -/
def receivers (s : State) (b : Block) : List W16 :=
  match b.kind with
  | .cast => ((outPorts (routeAtPos s b.pos b.tree)).filter (!b.taken.contains ·)).flatMap fun o => leavesBeyond s b.tree b.pos o
  | .add => if b.dmod = 0 then [treeEnd (getTree s b.tree)] else [b.dest]
  | .put | .toTile => [b.dest]
  | .toMem _ => []

/-- A send on a tree is refused (R232, R237). -/
def treeRefused (s : State) (t : W16) (j : BitVec 2) (n : BitVec 10) (add : Bool) : Bool :=
  let x := getTree s n
  !treeOn x || x.broken || (treeAdd x != add) || decide (treeOwner x ≠ j)
  || (if add then !routeIn (routeAt s t n) 0 else decide (treeEnd x ≠ t))

/-- The router positions and output ports of the unicast route from p to dst (R226). -/
def uniRoute (via : List Nat) (dst : Pos) : Nat → Pos → List (Pos × Nat)
  | 0, _ => []
  | fuel + 1, p =>
    let o := outPort via p dst
    (p, o) :: (if o = 0 then [] else match neighbour p o with | some (q, _) => uniRoute via dst fuel q | none => [])

/-- The entries that a path of R226 takes: at each router its output port, and its input port. -/
def pathEntries (s : State) (via : List Nat) (a b : Pos) : List (W16 × W16) :=
  let path := uniRoute via b 600 a
  (path.zip (none :: path.map some)).map fun e =>
    let i : Nat := match e.2 with
      | none => 0
      | some (q, o) => match neighbour q o with | some (_, i) => i | none => 0
    (routerCode s e.1.1, BitVec.ofNat 16 (2 ^ e.1.2 + 2 ^ (5 + i)))

/-- The entries of several paths, joined at the routers they share. -/
def joinEntries (ps : List (List (W16 × W16))) : SMap W16 :=
  ps.flatten.foldl (fun m e => mset 0 m e.1.toNat (mget 0 m e.1.toNat ||| e.2)) []

/-- The entries of a tree that runs between an end tile and a list of tiles (R226, R238). -/
def treeEntries (s : State) (x : Tree) (ts : List W16) : SMap W16 :=
  let e := treeEnd x
  joinEntries (ts.map fun t =>
    let (a, b) := if treeAdd x then (t, e) else (e, t)
    pathEntries s (diePath0 (tDie a) (tDie b)) (posOf s a) (posOf s b))

/-- The tiles that a list of entries makes contributors or leaves. -/
def treeTiles (x : Tree) (rs : List (W16 × W16)) : List W16 :=
  (rs.filter fun r => if treeAdd x then routeIn r.2 0 else routeOut r.2 0).map (·.1)

/-- The loader accepts a tree's entries: each path is the R226 route, every router of it holds exactly the ports of the paths over it, one OUT
bit on an ADD tree and one IN bit on a CAST tree, and no other router an entry (R238). The list names routers by their tiles; the entries of
routers without a logical tile follow from the paths (log entry 62). -/
def treeShapeOk (s : State) (x : Tree) (rs : List (W16 × W16)) : Bool :=
  let m := treeEntries s x (treeTiles x rs)
  let named := rs.filter fun r => decide (r.2 ≠ 0)
  decide ((rs.map (·.1)).eraseDups.length = rs.length) && rs.all (fun r => tilePresent s r.1) && tilePresent s (treeEnd x)
  && !(treeTiles x rs).isEmpty
  && named.all (fun r => decide (mget 0 m r.1.toNat = r.2))
  && m.all fun e =>
    diePresent s (routerDie e.1)
    && (decide (32768 ≤ e.1) || named.any fun r => decide (r.1.toNat = e.1))
    && decide ((if treeAdd x then (outPorts e.2).length else (inPorts e.2).length) = 1)

/-- A block or round of a tree is in the network (R238). -/
def treeBusy (s : State) (n : BitVec 10) : Bool :=
  s.net.blocks.any fun e => (decide (e.2.kind = .cast) || decide (e.2.kind = .add)) && decide (e.2.dmod = 0) && decide (e.2.tree = n)

/-- Every route entry of a tree cleared. -/
def clearRoutes (s : State) (n : BitVec 10) : State :=
  { s with net := { s.net with routes := s.net.routes.filter fun e => decide (e.1 % 1024 ≠ n.toNat) } }

/-- A tree load: its status and what it leaves (R238). -/
def treeLoad (s : State) (n : BitVec 10) (rs : List (W16 × W16)) : State × Byte :=
  if treeBusy s n then (s, stCfgBusy)
  else if !treeShapeOk s (getTree s n) rs then (s, cTreeInvalid)
  else
    let s := clearRoutes s n
    let m := (treeEntries s (getTree s n) (treeTiles (getTree s n) rs)).foldl (fun m e => mset 0 m (e.1 * 1024 + n.toNat) e.2) s.net.routes
    (putTree { s with net := { s.net with routes := m } } n { getTree s n with broken := false }, stOk)

/-- TREE_LOAD (R238). -/
def execTreeLoad (_w : Writer) (tree : BitVec 10) (routes : List (W16 × W16)) (s : State) : Host.Outcome State Fault Refusal :=
  .next (let (s, st) := treeLoad s tree routes; setStatus s st)

/-! ## Folio checks (R211-R216) -/

/-- Payload bytes of an entry. -/
def sendLen (e : BitVec 128) : Nat := 64 * (fldN e 36 6 + 1)
def sendKind (e : BitVec 128) : Nat := fldN e 124 4
def sendTree (e : BitVec 128) : BitVec 10 := fld e 44 10
def sendDest (e : BitVec 128) : W16 := fld e 44 16
def sendMod (e : BitVec 128) : BitVec 2 := fld e 42 2
def sendSrc (e : BitVec 128) : BitVec 24 := fld e 60 24
def sendDaddr (e : BitVec 128) : BitVec 24 := fld e 84 24
def sendI24 (e : BitVec 128) : Bool := bitAt e 28

/-- A multiple of 64, of the byte address or of the slot's byte offset (R214). -/
def daddrOk (v : BitVec 24) : Bool :=
  match opnd v with | .none => false | .plain a => decide (a % 64 = 0) | .slot _ off => decide (off % 64 = 0)

/-- FOLIO_FORMAT faults of an entry (R212-R214). -/
def entryFormatBad (e : BitVec 128) : Bool :=
  let k := sendKind e
  decide (k = 0 ∨ 3 < k) || decide (fldN e 0 28 ≠ 0) || !daddrOk (sendDaddr e)
  || (decide (k ≠ 3) && sendI24 e) || (decide (k = 2) && decide (sendMod e ≠ 0))
  || (decide (k = 2 ∨ (k = 3 ∧ sendMod e = 0)) && decide (fldN e 54 6 ≠ 0))
  || (decide (k = 3) && sendI24 e && (decide (sendLen e % 192 ≠ 0) || decide (3072 < sendLen e)))

/-- The checks of an entry before it issues, and at a load (R215): the cause of the first that fails. -/
def entryCheck (s : State) (t : W16) (j : BitVec 2) (e : BitVec 128) : Option Byte :=
  let k := sendKind e
  if entryFormatBad e then some cFolioFormat
  else if sendMod e ≠ 0 ∧ !peerConfigured s (sendMod e).toNat then some cFolioDest
  else if k = 1 ∧ sendMod e = 0 ∧ !tilePresent s (sendDest e) then some cFolioDest
  else if k = 2 ∧ treeRefused s t j (sendTree e) false then some cTreeInvalid
  else if k = 3 ∧ sendMod e = 0 ∧ treeRefused s t j (sendTree e) true then some cTreeInvalid
  else opndCheck (getTile s t) j (sendSrc e) (sendLen e) 64

/-- The header's faults (R211, R216). -/
def headerCheck (s : State) (h : BitVec 128) : Option Byte :=
  if fldN h 88 8 ≠ 1 ∨ fldN h 13 74 ≠ 0 ∨ fldN h 0 13 = 0 ∨ 4096 < fldN h 0 13 then some cFolioFormat
  else if bitAt h 87 ∧ fld h 96 32 ≠ s.mod.mapTag then some cFolioMap
  else none

/-- 16 bytes of a scratchpad as a number. -/
def quad (x : Tile) (a : Nat) : BitVec 128 := BitVec.ofNat 128 (leNat (spadRead x a 16))

/-! ## Issuing sends (R217, R227) -/

/-- The port of a peer slot that a send from tile t to tile d takes (R349). -/
def peerPort (s : State) (k : Nat) (t d : W16) : Nat :=
  let r := mget 0 s.net.peers k
  let a := fldN r 0 5
  let b := fldN r 8 5
  let first := if (tIdx t ^^^ tIdx d) % 2 = 0 then a else b
  let other := if first = a then b else a
  if (getPort s first).st = .up then first else other

/-- Where a block leaves the mesh for a port: the outer column of the corner die, at the edge row of the sender's row. -/
def bridgePos (p : Pos) (port : Nat) : Pos :=
  { die := portDie port, h1 := p.h1, col := if dieCol (portDie port) = 0 then 0 else 23, row := edgeRow (3 * p.row / 8) }

/-- The block an entry of a folio run sends: its payload as read, the first flit with a double-bit error marked bad (R574). -/
def blockOf (s : State) (t : W16) (j : BitVec 2) (run : Nat) (e : BitVec 128) (dst : Pos) (via : List Nat) : Block :=
  let x := getTile s t
  let bad := (List.range (fldN e 36 6 + 1)).find? fun i => spadBad x (opndAddr x (sendSrc e) + 64 * i) 64
  { Block.reset with
    kind := if sendKind e = 1 then .put else if sendKind e = 2 then .cast else .add
    src := t, dest := sendDest e, daddr := sendDaddr e, acntEn := bitAt e 35, acnt := fld e 29 6, i24 := sendI24 e
    tree := sendTree e, dmod := sendMod e, job := j, payload := opndRead x (sendSrc e) (sendLen e), bad
    pos := posOf s t, dst, via, heldSince := s.mod.time, run }

/-- The leaf of a list whose path from a position is in the earliest class: another die column first, then another die row. -/
def firstLeaf (p : Pos) (ls : List W16) : Option W16 :=
  (ls.find? fun t => decide (dieCol (tDie t) ≠ dieCol p.die)).or ((ls.find? fun t => decide (dieRow (tDie t) ≠ dieRow p.die)).or ls.head?)

/-- The destination position of an entry. -/
def entryDst (s : State) (t : W16) (e : BitVec 128) : Pos :=
  if sendMod e ≠ 0 then bridgePos (posOf s t) (peerPort s (sendMod e).toNat t (sendDest e))
  else if sendKind e = 1 then posOf s (sendDest e)
  else if sendKind e = 2 then posOf s ((firstLeaf (posOf s t) (castLeaves s (sendTree e) 1024 (posOf s t))).getD t)
  else posOf s (treeEnd (getTree s (sendTree e)))

/-- The path of R226 between two dies crosses an edge that is closed between READY dies, over which a tree has no other way (R426). -/
def treeCut (s : State) : List Nat → Bool
  | a :: b :: t => (dieReady s a && dieReady s b && decide ((getEdge s (edgeNo a b)).st ≠ 2)) || treeCut s (b :: t)
  | _ => false

/-- The dies that an entry's block passes, if it has a route (R227, R426). A tree has the one way it was loaded with: an ADD needs all of it; a
CAST goes to the leaves that are not lost. -/
def entryRoute (s : State) (t : W16) (e : BitVec 128) : Option (List Nat) :=
  let p := diePath0 (tDie t) (entryDst s t e).die
  if sendKind e = 2 then
    (if (castLeaves s (sendTree e) 1024 (posOf s t)).any fun l => treeCut s (diePath0 (tDie t) (tDie l)) then none else some p)
  else if sendKind e = 3 ∧ sendMod e = 0 then (if pathOpen s p then some p else none)
  else diePath s (tDie t) (entryDst s t e).die

/-- The running exchange phase of a tile. -/
def getExch (s : State) (t : W16) : Option Exch := (getTile s t).eng.exch
def setExch (s : State) (t : W16) (e : Option Exch) : State := modTile s t fun x => { x with eng := { x.eng with exch := e } }

/-- An entry fails: entries not yet issued are discarded, the phase ends with the cause (R215). -/
def failExch (s : State) (t : W16) (e : Exch) (cause : Byte) : State :=
  modTile (setExch s t (some { e with failed := some cause, next := e.count })) t fun x => discardOps x e.job

/-- What the issue of the next entry does: a wait, a failure, or a block in the network (R215-R219). -/
def issueEntry (s : State) (t : W16) (e : Exch) : State :=
  let x := getTile s t
  let a := e.addr.toNat + 16 + 16 * e.next
  let q := quad x a
  let due := e.startCycle.toNat + fldN q 108 16
  let cyc := (tileHalf s t).cycles.toNat
  if !inShare x e.job a 16 then failExch s t e cAddrRange
  else if spadBad x a 16 then failExch s t e cSpadEcc
  else match entryCheck s t e.job q with
    | some c => failExch s t e c
    | none =>
      if cyc < due ∨ readWaits x (sendSrc q) then s
      else if sendKind q = 1 ∧ sendMod q = 0 ∧ !dieReady s (tDie (sendDest q)) then failExch s t e cDestFenced
      else match entryRoute s t q with
        | none => failExch s t e cXchUnreachable
        | some via =>
          let b := blockOf s t e.job e.run q (entryDst s t q) via
          if !bufFree s b.pos 0 (blkClass b) then s
          else
            let s := modTile (addBlk s b) t fun x => { x with regs := { x.regs with
              sent := x.regs.sent + 1, late := if due + 64 < cyc then x.regs.late + 1 else x.regs.late } }
            let e := { e with next := e.next + 1 }
            if b.bad.isSome then failExch s t e cSpadEcc else setExch s t (some e)

/-- The exchange phase of a tile has issued every entry and read every payload byte (R207). -/
def exchDone (s : State) (t : W16) : Bool := match getExch s t with | some e => decide (e.count ≤ e.next) | none => false

/-- A block of a folio run is still in the network. -/
def runLives (s : State) (t : W16) (run : Nat) : Bool := s.net.blocks.any fun e => decide (e.2.kind = .cast ∧ e.2.src = t ∧ e.2.run = run)

/-- EXCH starts: the folio's phase begins as a run of its own, for which the trees of which the tile is the root are whole (R206, R234). Prunes of
its earlier runs whose markers are sent go with their last block. -/
def exchStart (t : W16) (j : BitVec 2) (a : W64) (count : Nat) (pc : W64) (s : State) : State :=
  let ps := s.net.prunes.filter fun p => decide (p.root ≠ t) || !p.marked || runLives s t p.run
  let run := (getTile s t).eng.runs + 1
  let e : Exch := { job := j, addr := a, count, next := 0, startCycle := (tileHalf s t).cycles, since := s.mod.time, pc, failed := none, run }
  modTile { s with net := { s.net with prunes := ps } } t fun x => { x with eng := { x.eng with exch := some e, runs := run } }

/-! ## Moving blocks (R221, R226-R228, R233) -/

/-- An injected flit fault of a router's port meets the block that leaves through it (R478): the next stage finds it and the resend clears
it (R220). -/
def meetFlitFault (s : State) (b : Block) (port : Nat) (q : Pos) (inp : Nat) : State :=
  match tileAt s b.pos with
  | some t =>
    if (getTile s t).injFlit.contains port then
      putErr (modTile s t fun x => { x with injFlit := x.injFlit.filter (· ≠ port) }) { routerErr s cMeshCrc 0 q b inp with injected := true }
    else s
  | none => s

/-- An injected flit fault of an edge meets a block that crosses it: the link replays, how many flits is open (R220, R425, R478). -/
def meetEdgeFault (s : State) (a b : Nat) : State :=
  let e := getEdge s (edgeNo a b)
  if a ≠ b ∧ e.injFlit then
    let (f, s) := freshWord s
    putEdge s (edgeNo a b) { e with injFlit := false, replays := e.replays + f }
  else s

/-- A block held at another place from now on. -/
def place (s : State) (i : Nat) (b : Block) (q : Pos) (inp : Nat) : State :=
  putBlk s i { b with pos := q, inPort := inp, taken := [], heldSince := s.mod.time }

/-- A block moved through a port to the next stage. -/
def hop (s : State) (i : Nat) (b : Block) (port : Nat) (q : Pos) (inp : Nat) : State := place (meetFlitFault s b port q inp) i b q inp

/-- Router of a position in bypass (R469). -/
def bypassedAt (s : State) (p : Pos) : Bool := (getHalf s (halfNo p.die p.h1)).bypassed.contains (p.row * 24 + p.col)

/-- The output port of a unicast block under the rewritten routes of a half with a router in bypass, at which no route turns (R228, R469). A block
that would turn there from its row into a column turns one column nearer its source, and takes the last column step at its destination row. One
that would turn there from its source column into the edge row leaves its column for the next one first, toward the edge, or away from it at the
edge column: DEDUCED (log entry 62). -/
def routePort (s : State) (b : Block) : Nat :=
  let p := b.pos
  let o := outPort b.via p b.dst
  let near (c : Nat) : Bool := decide (p.col + 1 = c ∨ c + 1 = p.col)
  let turned := decide (b.inPort = 1 ∨ b.inPort = 2) && decide (p.row ≠ 0)
  match dieAfter p.die b.via with
  | some e =>
    if dieRow e = dieRow p.die then
      let last := if e < p.die then 0 else 23
      if (o = 1 ∨ o = 2) ∧ bypassedAt s { p with row := edgeRow (3 * b.dst.row / 8) } then
        (if p.col = last then (if last = 0 then 4 else 3) else if last = 0 then 3 else 4)
      else o
    else if (o = 3 ∨ o = 4) ∧ near b.dst.col ∧ (bypassedAt s { p with col := b.dst.col } ∨ b.inPort = 1) then 2
    else o
  | none =>
    let vert : Nat := if p.h1 ≠ b.dst.h1 then (if p.h1 then 1 else 2) else if p.row < b.dst.row then 2 else 1
    if (o = 3 ∨ o = 4) ∧ near b.dst.col ∧ (p.h1 ≠ b.dst.h1 ∨ p.row ≠ b.dst.row) ∧ (bypassedAt s { p with col := b.dst.col } ∨ turned) then vert
    else o

/-- A block leaves the network unwritten; a transfer it belongs to fails with the cause (R280, R304). -/
def loseBlk (s : State) (i : Nat) (b : Block) (cause : Byte) : State :=
  match b.xfer with
  | some (die, r, id) => stepFails (dropBlk s i) die.val r id cause none
  | none => dropBlk s i

/-- A block dropped at a router toward a fenced tile or lost die (R227, R228). -/
def dropFenced (s : State) (i : Nat) (b : Block) : State := putErr (loseBlk s i b cDestFenced) (routerErr s cDestFenced 1 b.pos b (detPort b))

/-- A block dropped at a closed edge (R220, R426): LINK_DROP, with a marker to each receiving tile. -/
def dropLink (s : State) (i : Nat) (b : Block) (ts : List W16) : State :=
  markTiles (putErr (loseBlk s i b cLinkDrop) (routerErr s cLinkDrop 2 b.pos b (detPort b))) b ts cLinkDrop

/-- A unicast block toward its destination: one stage where the next buffer is free; a new path where the one it has is closed. -/
def forwardUni (s : State) (i : Nat) (b : Block) : State :=
  let o := routePort s b
  match neighbour b.pos o, nextStage b.pos o with
  | some (r, _), some (q, inp) =>
    if r.die ≠ b.pos.die ∧ !crossable s b.pos.die r.die then
      match diePath s b.pos.die b.dst.die with
      | some via => putBlk s i { b with via }
      | none => dropFenced s i b
    else if bufFree s q inp (blkClass { b with pos := q }) then hop s i b o q inp else s
  | _, _ => s

/-- A block at an end of a die-to-die link: over the edge to the other end, or from there into its router (R221). Toward a lost die it is dropped at the
closed edge (R227). -/
def forwardLink (s : State) (i : Nat) (b : Block) (port : Nat) (sending : Bool) : State :=
  if sending then
    match neighbour b.pos port with
    | some (q, inp) =>
      if !dieReady s q.die then dropFenced s i b
      else if !crossable s b.pos.die q.die then s
      else if bufFree s q (recvEnd inp) (blkClass { b with pos := q }) then place (meetEdgeFault s b.pos.die q.die) i b q (recvEnd inp) else s
    | none => s
  else if bufFree s b.pos port (blkClass b) then place s i b b.pos port else s

/-- A port of a CAST router that a prune makes later blocks of a run of the root skip (R234). -/
def isPruned (s : State) (b : Block) (o : Nat) : Bool :=
  s.net.prunes.any fun p => decide (p.tree = b.tree) && decide (p.router = routerCode s b.pos) && decide (p.port = o) && decide (p.root = b.src)
    && decide (p.run = b.run)

/-- A CAST block leaves its buffer once every OUT port has taken it or is pruned (R233). -/
def castSettle (s : State) (i : Nat) (b : Block) : State :=
  if (outPorts (routeAtPos s b.pos b.tree)).all fun o => b.taken.contains o || isPruned s b o then dropBlk s i else putBlk s i b

/-- The copy of a CAST block that leaves through a port, at its next stage (R233, R238). -/
def castCopy (s : State) (b : Block) (o : Nat) (q : Pos) (inp : Nat) : Block :=
  let dst := match firstLeaf b.pos (leavesBeyond s b.tree b.pos o) with | some t => posOf s t | none => b.dst
  { b with pos := q, inPort := inp, taken := [], heldSince := s.mod.time, dst, via := diePath0 (tDie b.src) dst.die, slotWait := none }

/-- A CAST block copied through the first OUT port with a credit that has not taken it (R233). -/
def forwardCast (s : State) (i : Nat) (b : Block) : State :=
  let cand := (outPorts (routeAtPos s b.pos b.tree)).filter fun o => decide (o ≠ 0) && !b.taken.contains o && !isPruned s b o
  match cand.findSome? fun o => (nextStage b.pos o).bind fun (q, inp) =>
      let c := castCopy s b o q inp
      if bufFree s q inp (blkClass c) then some (o, c) else none with
  | some (o, c) => castSettle (addBlk (meetFlitFault s b o c.pos c.inPort) c) i { b with taken := b.taken ++ [o] }
  | none => castSettle s i b

/-! ## Confluence rounds (R230-R232) -/

/-- Elements of an ADD block as integers. -/
def addElems (b : Block) : List Int :=
  let n := if b.i24 then 3 else 4
  (List.range (b.payload.length / n)).map fun i => sgn (8 * n) (leNat ((b.payload.drop (i * n)).take n))

/-- A block of an ADD tree within the module. -/
def onTree (n : BitVec 10) (b : Block) : Bool := decide (b.kind = .add) && decide (b.dmod = 0) && decide (b.tree = n)

/-- The input block of a port for a tree's round at a position: the oldest one. -/
def roundInput (s : State) (n : BitVec 10) (p : Pos) (port : Nat) : Option (Nat × Block) :=
  s.net.blocks.find? fun e => onTree n e.2 && decide (e.2.pos = p) && decide (e.2.inPort = port)

/-- A sum of the tree is on its way to the tile of the router. -/
def sumWaits (s : State) (n : BitVec 10) (p : Pos) : Bool :=
  s.net.blocks.any fun e => onTree n e.2 && decide (e.2.pos = p) && decide (e.2.inPort = atSum)

/-- When a tree took an add accumulator of a router, or began to wait for one: 0 while a sum of it leaves, else the arrival of its round's first
input. -/
def roundSince (s : State) (n : BitVec 10) (p : Pos) : Option (Nat × Nat) :=
  let bs := s.net.blocks.filter fun e => onTree n e.2 && decide (e.2.pos = p) && decide (e.2.inPort < 5 ∨ e.2.inPort = atSum)
  if bs.any fun e => decide (e.2.inPort = atSum) then some (0, 0)
  else bs.foldl (fun m e =>
    let k := (e.2.heldSince.toNat, e.1)
    match m with
    | none => some k
    | some l => if k.1 < l.1 ∨ (k.1 = l.1 ∧ k.2 < l.2) then some k else some l) none

/-- A round of a tree with several inputs holds one of the router's two add accumulators: at most one other such tree came before it (R231). -/
def hasAdder (s : State) (n : BitVec 10) (p : Pos) : Bool :=
  let ts := ((s.net.blocks.filter fun e => decide (e.2.kind = .add) && decide (e.2.dmod = 0) && decide (e.2.pos = p)).map fun e => e.2.tree).eraseDups
  let joins := ts.filter fun m => decide (m ≠ n) && decide (1 < (inPorts (routeAtPos s p m)).length)
  match roundSince s n p with
  | none => true
  | some k => decide ((joins.filter fun m => match roundSince s m p with
      | some l => decide (l.1 < k.1 ∨ (l.1 = k.1 ∧ l.2 < k.2))
      | none => false).length < 2)

/-- Inputs of one round agree in element count, DADDR, arrival counter and job context (R231). -/
def sameRound (a b : Block) : Bool :=
  decide ((addElems a).length = (addElems b).length) && decide (a.daddr = b.daddr) && decide (a.acntEn = b.acntEn)
  && decide (a.acnt = b.acnt) && decide (a.job = b.job)

/-- A round abandoned: buffers freed, a CONF_ABANDON record and marker (R231). -/
def abandonRound (s : State) (n : BitVec 10) (p : Pos) (ins : List (Nat × Block)) (b : Block) (who : W16) : State :=
  let s := ins.foldl (fun s e => dropBlk s e.1) s
  let r := routerErr s cConfAbandon 1 p b 0
  markTiles (putErr s { r with info0 := at' 64 0 who ||| at' 64 16 (n.setWidth 16) ||| at' 64 32 (b.daddr.setWidth 23) }) b
    [treeEnd (getTree s n)] cConfAbandon

/-- The sum of a round as one I32 block (R230). -/
def roundSum (ins : List Block) : List Byte :=
  let n := ((ins.head?.map fun b => (addElems b).length).getD 0)
  let es := ins.map addElems
  (List.range n).flatMap fun i => toLE 4 (toBits 32 (sumI (es.map fun l => nth 0 l i)))

/-- A round with every input present (R230): summed and sent on, abandoned on a mismatch (R231, R574), or waiting for a credit. A sum for the
router's own tile leaves once the one before it has been written. -/
def runRound (s : State) (n : BitVec 10) (p : Pos) (r : W16) (ins : List (Nat × Block)) (b0 : Block) : State :=
  match ins.find? fun e => !sameRound b0 e.2 || e.2.bad.isSome with
  | some e => abandonRound s n p ins b0 e.2.src
  | none =>
    let sum := { b0 with i24 := false, payload := roundSum (ins.map Prod.snd), heldSince := s.mod.time }
    let gone (s : State) : State := ins.foldl (fun s e => dropBlk s e.1) s
    match (outPorts r).head? with
    | some 0 => if sumWaits s n p then s else addBlk (gone s) { sum with dest := treeEnd (getTree s n), pos := p, inPort := atSum }
    | some o =>
      match nextStage p o with
      | some (q, inp) =>
        let out := { sum with pos := q, inPort := inp }
        if bufFree s q inp (blkClass out) then addBlk (gone (meetFlitFault s sum o q inp)) out else s
      | none => s
    | none => s

/-- ADD_ROUND (R230): a round of a tree at a router with the next block of every port of its IN mask, where the router has an add accumulator for
it (R231). -/
def execAddRound (tree : BitVec 10) (router : W16) (s : State) : Host.Outcome State Fault Refusal :=
  .next (
    let r := routeAt s router tree
    let p := routerPos s router
    let ins := (inPorts r).map (roundInput s tree p)
    match ins.filterMap id with
    | [] => s
    | (i, b) :: t =>
      if ins.all (·.isSome) && ((inPorts r).length ≤ 1 || hasAdder s tree p) then runRound s tree p r ((i, b) :: t) b else s)

/-- A lost tile or die breaks the ADD trees it contributes to or that end there (R232): their open rounds are abandoned, and their
sends are refused until the tree is loaded again. -/
def breakTrees (s : State) (lost : W16 → Bool) (who : W16) : State :=
  let hit := s.net.trees.filter fun e => treeOn e.2 && treeAdd e.2
    && (lost (treeEnd e.2) || s.net.routes.any fun r => decide (r.1 % 1024 = e.1) && routeIn r.2 0 && lost (BitVec.ofNat 16 (r.1 / 1024)))
  hit.foldl (fun s e =>
    let n : BitVec 10 := BitVec.ofNat 10 e.1
    let bs := s.net.blocks.filter fun b => onTree n b.2 && decide (b.2.inPort ≠ atSum)
    let ps := (bs.map fun b => b.2.pos).eraseDups
    let s := ps.foldl (fun s p =>
      let ins := bs.filter fun b => decide (b.2.pos = p)
      match ins with
      | (_, b) :: _ => abandonRound s n p ins b who
      | [] => s) s
    putTree s n { getTree s n with broken := true }) s

/-! ## Prunes (R234, R235) -/

/-- Since when a port of a router has had no credit of a class; none where it has one (R221, R234). The port to the tile has none while a block waits
there on a FULL slot. -/
def lacksSince (s : State) (p : Pos) (o cls : Nat) : Option W64 :=
  if o = 0 then
    (s.net.blocks.find? fun e => decide (e.2.pos = p) && e.2.slotWait.isSome && decide (blkClass e.2 = cls)).bind fun e => e.2.slotWait
  else match nextStage p o with
    | some (q, inp) => (bufHolder s q inp cls).map (·.heldSince)
    | none => none

/-- The class in which a CAST block leaves through a port. -/
def portClass (s : State) (b : Block) (o : Nat) : Nat :=
  match nextStage b.pos o with
  | some (q, inp) => blkClass (castCopy s b o q inp)
  | none => blkClass b

/-- CAST_PRUNE (R234): a port of a router that holds a CAST block has had no credit for PRUNE_LAG while another port has taken it. -/
def execCastPrune (blk : Nat) (port : Fin 5) (s : State) : Host.Outcome State Fault Refusal :=
  .next (match getBlk s blk with
    | some b =>
      let o := port.val
      let lag := fldN s.mod.meshCfg 16 16
      let late := match lacksSince s b.pos o (portClass s b o) with | some t => decide (t.toNat + 125 * lag ≤ now s) | none => false
      if decide (b.kind = .cast) && (linkPort b).isNone && routeOut (routeAtPos s b.pos b.tree) o && !b.taken.contains o && !isPruned s b o
          && !b.taken.isEmpty && decide (lag ≠ 0) && late then
        let p : Prune := { tree := b.tree, router := routerCode s b.pos, port := o, root := b.src, acnt := b.acnt, acntEn := b.acntEn,
                           job := b.job, run := b.run, marked := false }
        let s := putErr { s with net := { s.net with prunes := s.net.prunes ++ [p] } }
          { routerErr s cPruned 1 b.pos b o with info1 := b.src.setWidth 64 }
        castSettle s blk (if o = 0 then { b with slotWait := none } else b)
      else s
    | none => s)

/-- PRUNED_MARKER_SEND (R235): a pruned port's credit has returned; the marker goes to every leaf beyond it. -/
def execPrunedMarkerSend (router : W16) (tree : BitVec 10) (port : Fin 5) (s : State) : Host.Outcome State Fault Refusal :=
  .next (
    let o := port.val
    let pos := routerPos s router
    match s.net.prunes.find? fun p => !p.marked && decide (p.router = router) && decide (p.tree = tree) && decide (p.port = o) with
    | some p =>
      let b := { Block.reset with kind := .cast, src := p.root, tree, pos, via := [tDie p.root], acntEn := p.acntEn, acnt := p.acnt, job := p.job }
      if (lacksSince s pos o (portClass s b o)).isNone then
        let ps := s.net.prunes.map fun x => if x = p then { p with marked := true } else x
        markTiles { s with net := { s.net with prunes := ps } } b (leavesBeyond s tree pos o) cPruned
      else s
    | none => s)

end Sys2Proof.Machine
end

