-- ==== Sys2Proof/Machine/SlotDecode.lean ====
section
/-!
DEFINITION. Slots of a bundle: from the 64 bits of a slot (R137-R174), and from a command's operands.
-/
namespace Sys2Proof.Machine
open Sys2Proof

/-- VALU fields (R154). -/
def decodeVArg (w : W64) : VArg :=
  { vd := fld w 46 4, va := fld w 42 4, vb := fld w 38 4, lw := fld w 36 2, gs := fld w 31 5, bc := bitAt w 30, sh := fld w 24 6 }

/-- ENG fields (R161). -/
def decodeEngArg (w : W64) : EngArg :=
  { gA := fld w 45 5, gB := fld w 40 5, gC := fld w 35 5, ovr := fld w 31 4, doneEn := bitAt w 30, done := fld w 24 6, imm := fld w 0 24 }

/-- The class, operation and fields of a slot (R137, R138). -/
def decodeOp (w : W64) : SlotOp :=
  let op : BitVec 6 := fld w 50 6
  match fldN w 60 4 with
  | 0x0 => .sys op (fld w 45 5) (fld w 40 5) (fld w 28 12)
  | 0x1 => .alu op (fld w 45 5) (fld w 40 5) (fld w 35 5)
  | 0x2 => .alui op (fld w 45 5) (fld w 40 5) (fld w 0 32)
  | 0x3 => .br op (fld w 45 5) (fld w 40 5) (fld w 0 32)
  | 0x4 => .mem op (fld w 45 5) (fld w 40 5) (fld w 0 32)
  | 0x5 => .sync op (fld w 45 5) (fld w 41 4) (fld w 36 5) (fld w 34 2)
  | 0x6 => .watch op (fld w 45 5) (fld w 40 5) (fld w 35 5) (fld w 23 12) (fld w 20 3)
  | 0x8 => .valu op (decodeVArg w)
  | 0x9 => .vmem op (fld w 46 4) (fld w 41 5) (fld w 39 2) (fld w 33 6) (fld w 0 32)
  | 0xA => .eng op (decodeEngArg w)
  | 0xB => .xfer op (fld w 45 5) (fld w 40 5) (fld w 28 12)
  | _ => .reserved

/-- A reserved bit of the slot is set (R145-R174). -/
def decodeRsv (w : W64) : Bool :=
  match fldN w 60 4 with
  | 0x0 => decide (fldN w 0 28 ≠ 0)
  | 0x1 => decide (fldN w 0 35 ≠ 0)
  | 0x2 | 0x3 | 0x4 => decide (fldN w 32 8 ≠ 0)
  | 0x5 => decide (fldN w 0 34 ≠ 0)
  | 0x6 => decide (fldN w 0 20 ≠ 0)
  | 0x8 => decide (fldN w 0 24 ≠ 0)
  | 0x9 => bitAt w 32
  | 0xB => decide (fldN w 0 28 ≠ 0)
  | _ => false

/-- A slot of 64 bits. -/
def decodeSlot (w : W64) : SlotWord :=
  { pg := fld w 57 3, pn := bitAt w 56, rsv := decodeRsv w, op := decodeOp w }

/-- The slot that a command stands for. -/
def slotOf (h : SlotHdr) (op : SlotOp) : SlotWord := { pg := h.pg, pn := h.pn, rsv := h.rsv, op }

/-- The control slot and the engine slot of a command's bundle. -/
def bundleOf (h : SlotHdr) (op : SlotOp) : SlotWord × SlotWord :=
  if h.eng then (decodeSlot h.mate, slotOf h op) else (slotOf h op, decodeSlot h.mate)

/-! ## Registers (R134) -/

/-- gN; g0 reads as zero. -/
def getG (c : Ctx) (n : BitVec 5) : W64 := if n = 0 then 0 else mget 0 c.g n.toNat
/-- A write of gN; a write to g0 is discarded. -/
def setG (c : Ctx) (n : BitVec 5) (v : W64) : Ctx := if n = 0 then c else { c with g := mset 0 c.g n.toNat v }
/-- vN. -/
def getV (c : Ctx) (n : BitVec 4) : BitVec 512 := mget 0 c.v n.toNat
def setV (c : Ctx) (n : BitVec 4) (v : BitVec 512) : Ctx := { c with v := mset 0 c.v n.toNat v }
/-- pN; p0 reads as 1. -/
def getP (c : Ctx) (n : BitVec 3) : Bool := if n = 0 then true else mget false c.p n.toNat
/-- A write of pN; a write to p0 is discarded. -/
def setP (c : Ctx) (n : BitVec 3) (v : Bool) : Ctx := if n = 0 then c else { c with p := mset false c.p n.toNat v }
/-- cN. -/
def getC (c : Ctx) (n : BitVec 4) : W32 := mget 0 c.c n.toNat
def setC (c : Ctx) (n : BitVec 4) (v : W32) : Ctx := { c with c := mset 0 c.c n.toNat v }

/-- The slot has effect: pG xor PN is 1 (R139). -/
def guardTrue (c : Ctx) (w : SlotWord) : Bool := xor (getP c w.pg) w.pn

/-- What one slot of a bundle would do, computed from the state before the bundle (R139). -/
structure SlotRes where
  /-- A precise exception with its EXC_INFO. -/
  exc : Option (Byte × W64) := none
  gW : Option (BitVec 5 × W64) := none
  vW : Option (BitVec 4 × BitVec 512) := none
  pW : Option (BitVec 3 × Bool) := none
  cW : Option (BitVec 4 × W32) := none
  /-- Target of a taken branch. -/
  target : Option W64 := none
  /-- A store: address and bytes. -/
  store : Option (Nat × List Byte) := none
  /-- It cannot retire now. -/
  blocked : Bool := false
  /-- Its wait counts against TILE.WAIT_LIMIT, with the handle for EXC_INFO (R158, R274, R291). -/
  limit : Option W32 := none
  /-- Its other effects at retirement. -/
  act : State → State := id
  /-- What it does at once when it issues and cannot retire. -/
  start : State → State := id

/-- A slot that only raises an exception. -/
def excRes (cause : Byte) (info : W64) : SlotRes := { exc := some (cause, info) }

end Sys2Proof.Machine
end

