-- ==== Sys2Proof/Machine/Scalar.lean ====
section
/-!
DEFINITION. The scalar classes: ALU, ALUI, BR, MEM (R145-R148) and SYS (R149-R153).
-/
namespace Sys2Proof.Machine
open Sys2Proof

/-! ## ALU (R145) -/

/-- Width n and place p of EXT and DEP: gB[11:6] + 1 and gB[5:0]. -/
def fieldWidth (b : W64) : Nat := fldN b 6 6 + 1

/-- EXT: (a >> p) and (2^n - 1). -/
def aluExt (a b : W64) : W64 := (a >>> fldN b 0 6) &&& BitVec.ofNat 64 (2 ^ fieldWidth b - 1)

/-- DEP: d with bits [p + n - 1 : p] replaced by a[n - 1 : 0]; bits beyond bit 63 are dropped. -/
def aluDep (a b d : W64) : W64 :=
  let m : W64 := BitVec.ofNat 64 ((2 ^ fieldWidth b - 1) * 2 ^ fldN b 0 6)
  merge m d (a <<< fldN b 0 6)

/-- Number of leading zero bits. -/
def clz64 (a : W64) : Nat := 64 - bitlen a.toNat

/-- The operations that write gD: a op b, with d the old gD (R145). None: no such operation. -/
def aluOp (op : BitVec 6) (a b d : W64) : Option W64 :=
  match op.toNat with
  | 0x00 => some (a + b)
  | 0x01 => some (a - b)
  | 0x02 => some (a &&& b)
  | 0x03 => some (a ||| b)
  | 0x04 => some (a ^^^ b)
  | 0x05 => some (a <<< fldN b 0 6)
  | 0x06 => some (a >>> fldN b 0 6)
  | 0x07 => some (a.sshiftRight (fldN b 0 6))
  | 0x08 => some (a * b)
  | 0x09 => some (BitVec.ofInt 64 ((a.toInt * b.toInt) / (2 ^ 64 : Nat)))
  | 0x0A => some (BitVec.ofNat 64 ((a.toNat * b.toNat) / 2 ^ 64))
  | 0x0B => some (if a.slt b then a else b)
  | 0x0C => some (if a.slt b then b else a)
  | 0x0D => some (if a.ult b then a else b)
  | 0x0E => some (if a.ult b then b else a)
  | 0x0F => some (aluExt a b)
  | 0x10 => some (aluDep a b d)
  | 0x11 => some (BitVec.ofNat 64 (clz64 a))
  | 0x12 => some (BitVec.ofNat 64 (popCount a))
  | _ => none

/-- The compares, which write pD (R145). -/
def aluCmp (op : BitVec 6) (a b : W64) : Option Bool :=
  match op.toNat with
  | 0x20 => some (a == b)
  | 0x21 => some (a != b)
  | 0x22 => some (a.slt b)
  | 0x23 => some (a.ult b)
  | 0x24 => some (!a.slt b)
  | 0x25 => some (!a.ult b)
  | _ => none

/-- The predicate operations, which write pD (R145). -/
def aluPred (op : BitVec 6) (a b : Bool) : Option Bool :=
  match op.toNat with
  | 0x28 => some (a && b)
  | 0x29 => some (a || b)
  | 0x2A => some (xor a b)
  | 0x2B => some (!a)
  | _ => none

/-- A write of pD; GD[4:3] must be zero (R145). -/
def predRes (gD : BitVec 5) (v : Bool) : SlotRes :=
  if fldN gD 3 2 ≠ 0 then excRes cIllegalOp 0 else { pW := some (fld gD 0 3, v) }

/-- An ALU slot (R145). -/
def evalAlu (c : Ctx) (op : BitVec 6) (gD gA gB : BitVec 5) : SlotRes :=
  match aluOp op (getG c gA) (getG c gB) (getG c gD) with
  | some v => { gW := some (gD, v) }
  | none =>
    match aluCmp op (getG c gA) (getG c gB) with
    | some v => predRes gD v
    | none =>
      match aluPred op (getP c (fld gA 0 3)) (getP c (fld gB 0 3)) with
      | some v => predRes gD v
      | none => excRes cIllegalOp 0

/-- An ALUI slot (R146): ALU operations 0x00 to 0x10 and 0x20 to 0x25 with the sign-extended immediate, LI and LIH. -/
def evalAlui (c : Ctx) (op : BitVec 6) (gD gA : BitVec 5) (imm : W32) : SlotRes :=
  let b : W64 := imm.signExtend 64
  if op.toNat = 0x30 then { gW := some (gD, b) }
  else if op.toNat = 0x31 then { gW := some (gD, merge (maskAt 64 32 32) (getG c gD) (imm.setWidth 64 <<< 32)) }
  else if op.toNat ≤ 0x10 then
    match aluOp op (getG c gA) b (getG c gD) with
    | some v => { gW := some (gD, v) }
    | none => excRes cIllegalOp 0
  else match aluCmp op (getG c gA) b with
    | some v => predRes gD v
    | none => excRes cIllegalOp 0

/-! ## BR (R147) -/

/-- base + 16 × OFF. -/
def brTarget (base : W64) (off : W32) : W64 := base + (off.signExtend 64 <<< 4)

/-- A jump to a register target, which must be a multiple of 16. -/
def regJump (base : W64) (off : W32) (r : SlotRes) : SlotRes :=
  if fldN (brTarget base off) 0 4 ≠ 0 then excRes cMisaligned (brTarget base off)
  else { r with target := some (brTarget base off) }

/-- A BR slot (R147). -/
def evalBr (c : Ctx) (op : BitVec 6) (gD gA : BitVec 5) (off : W32) : SlotRes :=
  match op.toNat with
  | 0x00 => { target := some (brTarget c.pc off) }
  | 0x01 => { gW := some (gD, c.pc + 16), target := some (brTarget c.pc off) }
  | 0x02 => regJump (getG c gA) off {}
  | 0x03 => regJump (getG c gA) off { gW := some (gD, c.pc + 16) }
  | 0x04 =>
    if gD ≠ 0 then excRes cIllegalOp 0
    else
      let n := getG c gA - 1
      { gW := some (gA, n), target := if n = 0 then none else some (brTarget c.pc off) }
  | _ => excRes cIllegalOp 0

/-! ## MEM (R148) -/

/-- The address gA + sign-extended OFF. -/
def memAddr (c : Ctx) (gA : BitVec 5) (off : W32) : W64 := getG c gA + off.signExtend 64

/-- The check of a core access of n bytes: alignment, then range and share (R148). -/
def memCheck (x : Tile) (j : BitVec 2) (a : W64) (n : Nat) : Option (Byte × W64) :=
  if a.toNat % n ≠ 0 then some (cMisaligned, a)
  else if !inShare x j a.toNat n then some (cAddrRange, a)
  else none

/-- A load of n bytes: a double-bit error raises SPAD_ECC (R203); the value is sign- or zero-extended. -/
def evalLoad (x : Tile) (j : BitVec 2) (c : Ctx) (n : Nat) (signed : Bool) (gT gA : BitVec 5) (off : W32) : SlotRes :=
  let a := memAddr c gA off
  match memCheck x j a n with
  | some e => { exc := some e }
  | none =>
    if spadBad x a.toNat n then excRes cSpadEcc a
    else
      let v := leNat (spadRead x a.toNat n)
      { gW := some (gT, if signed then BitVec.ofInt 64 (sgn (8 * n) v) else BitVec.ofNat 64 v) }

/-- A store of the n low bytes of gT. -/
def evalStore (x : Tile) (j : BitVec 2) (c : Ctx) (n : Nat) (gT gA : BitVec 5) (off : W32) : SlotRes :=
  let a := memAddr c gA off
  match memCheck x j a n with
  | some e => { exc := some e }
  | none => { store := some (a.toNat, toLE n (getG c gT).toNat) }

/-- A MEM slot (R148). -/
def evalMem (x : Tile) (j : BitVec 2) (c : Ctx) (op : BitVec 6) (gT gA : BitVec 5) (off : W32) : SlotRes :=
  let o := op.toNat
  if o ≤ 0x03 then evalLoad x j c (2 ^ o) true gT gA off
  else if o ≤ 0x06 then evalLoad x j c (2 ^ (o - 4)) false gT gA off
  else if 0x08 ≤ o ∧ o ≤ 0x0B then evalStore x j c (2 ^ (o - 8)) gT gA off
  else excRes cIllegalOp 0

/-! ## SYS (R149-R153) -/

/-- Every engine operation of the context, running or queued. -/
def ctxOps (x : Tile) (j : BitVec 2) : List EngOp := (x.eng.press ++ x.eng.conv ++ x.eng.wide).filter fun o => decide (o.job = j)

/-- An engine of the tile holds an operation of the context (R159, R397). -/
def engBusy (x : Tile) (j : BitVec 2) : Bool := !(ctxOps x j).isEmpty

/-- Every operation of the context that was issued has started (R153). -/
def allStarted (x : Tile) (j : BitVec 2) : Bool := (ctxOps x j).all (·.started)

/-- TILE.PRESS_STATUS with BUSY as the press stands (R82). -/
def pressStatusReg (x : Tile) : W32 := merge 1 x.regs.pressStatus (if x.eng.press.any (·.started) then 1 else 0)
/-- TILE.WIDE_STATUS with BUSY as the wide unit holds an operation, queued or running (R128). -/
def wideStatusReg (x : Tile) : W32 := merge 1 x.regs.wideStatus (if x.eng.wide.isEmpty then 0 else 1)

/-- A CSR's value (R150); none for an index that is not listed. TILE.BANK_CONFLICTS reads with a free amount added (R186: it
counts bank cycles, which the model leaves out; log entry 3). -/
def csrRead (s : State) (t : W16) (j : BitVec 2) (n : BitVec 12) : Option W64 :=
  let x := getTile s t
  let c := getCtx x j
  match n.toNat with
  | 0x000 => some (t.setWidth 64)
  | 0x001 => some (x.regs.ctxReg.setWidth 64)
  | 0x002 => some (BitVec.ofNat 64 spadBytes)
  | 0x010 => some (tileHalf s t).cycles
  | 0x011 => some c.bundles
  | 0x020 => some c.rngSeed
  | 0x021 => some c.rngStep
  | 0x022 => some (c.rngOp.setWidth 64)
  | 0x023 => some c.watchStep
  | 0x024 => some (c.waitLimit.setWidth 64)
  | 0x030 => some (x.regs.pressCtrl.setWidth 64)
  | 0x031 => some ((pressStatusReg x).setWidth 64)
  | 0x032 => some x.regs.residueCount
  | 0x038 => some (x.regs.cvtStatus.setWidth 64)
  | 0x039 => some x.regs.satCount
  | 0x040 => some (x.regs.wideOwner.setWidth 64)
  | 0x041 => some ((wideStatusReg x).setWidth 64)
  | 0x050 => some (x.regs.bankConflicts + Config.freeWord s.freeCtr)
  | 0x060 => some (c.excCause.setWidth 64)
  | 0x061 => some c.excPc
  | 0x062 => some c.excInfo
  | _ => none

/-- A read of TILE.BANK_CONFLICTS takes its free amount and keeps it counted; other reads change nothing. -/
def csrReadAct (t : W16) (n : BitVec 12) (s : State) : State :=
  if n.toNat = 0x050 then
    let (v, s) := freshWord s
    modTile s t fun x => { x with regs := { x.regs with bankConflicts := x.regs.bankConflicts + v } }
  else s

/-- W1C bits of a status register cleared (R9): only the bits of the mask are writable. -/
def w1c (mask old v : W32) : W32 := old &&& ~~~(v &&& mask)

/-- The effect of an accepted CSRW (R9, R150). A write to a RO or CONST field is ignored. -/
def csrWrite (t : W16) (j : BitVec 2) (n : BitVec 12) (v : W64) (s : State) : State :=
  let v32 : W32 := v.setWidth 32
  match n.toNat with
  | 0x020 => modCtx s t j fun c => { c with rngSeed := v }
  | 0x021 => modCtx s t j fun c => { c with rngStep := v, rngOp := 0 }
  | 0x022 => modCtx s t j fun c => { c with rngOp := v32 }
  | 0x023 => modCtx s t j fun c => { c with watchStep := v }
  | 0x024 => modCtx s t j fun c => { c with waitLimit := v32 }
  | 0x031 => modTile s t fun x => { x with regs := { x.regs with pressStatus := w1c 0x1E x.regs.pressStatus v32 } }
  | 0x038 => modTile s t fun x => { x with regs := { x.regs with cvtStatus := w1c 0x3E x.regs.cvtStatus v32 } }
  | 0x040 => modTile s t fun x => { x with regs := { x.regs with wideOwner := v32 &&& 3 } }
  | 0x041 => modTile s t fun x => { x with regs := { x.regs with wideStatus := w1c 0x0E x.regs.wideStatus v32 } }
  | _ => s

/-- EXC_INFO of CSR_REFUSED: the index and the status (R177). -/
def csrInfo (n : BitVec 12) (st : Byte) : W64 := at' 64 0 n ||| at' 64 16 st

/-- CSR_REFUSED (R152). -/
def cCsrRefused : Byte := 0x06

/-- The status with which a CSRW is refused (R152), if it is. -/
def csrRefusal (x : Tile) (j : BitVec 2) (n : BitVec 12) : Option Byte :=
  if n.toNat = 0x030 then some stWorld
  else if n.toNat = 0x040 ∧ fld x.regs.wideOwner 0 2 ≠ j then some 0x40
  else none

/-- RNG and watch-step CSRs wait until every earlier operation of the context has started (R153). -/
def csrWaits (n : BitVec 12) : Bool := decide (0x020 ≤ n.toNat) && decide (n.toNat ≤ 0x023)

/-- CSRR (R149). The status in EXC_INFO of an index that is not listed is 0: DESIGN CHOICE (log entry 57). -/
def evalCsrr (s : State) (t : W16) (j : BitVec 2) (gD : BitVec 5) (n : BitVec 12) : SlotRes :=
  match csrRead s t j n with
  | none => excRes cCsrRefused (csrInfo n 0)
  | some v => { gW := some (gD, v), blocked := csrWaits n && !allStarted (getTile s t) j, act := csrReadAct t n }

/-- CSRW (R149, R152). -/
def evalCsrw (s : State) (t : W16) (j : BitVec 2) (c : Ctx) (gA : BitVec 5) (n : BitVec 12) : SlotRes :=
  let x := getTile s t
  match csrRead s t j n with
  | none => excRes cCsrRefused (csrInfo n 0)
  | some _ =>
    match csrRefusal x j n with
    | some st => excRes cCsrRefused (csrInfo n st)
    | none => { blocked := csrWaits n && !allStarted x j, act := csrWrite t j n (getG c gA) }

/-- FENCE.I (R149). -/
def fenceIAct (t : W16) (s : State) : State := modTile s t fun x => { x with fetchBuf := [] }

/-- Every tile whose context j holds anything, and whether all of them are HALTED (R400). -/
def allHalted (s : State) (j : BitVec 2) : Bool :=
  (s.tiles.filter fun e => decide ((getCtx e.2 j).st ≠ .empty)).all fun e => decide ((getCtx e.2 j).st = .halted)

/-- An ACTIVE job whose tiles are all HALTED becomes FINISHED (R400). -/
def checkFinished (s : State) (j : BitVec 2) : State :=
  if (getJob s j).st = .active ∧ allHalted s j then setJobSt s j .finished else s

/-- A PAUSING job with no tile READY, YIELDED or RUNNING is PAUSED (R400). -/
def checkPaused (s : State) (j : BitVec 2) : State :=
  if (getJob s j).st = .pausing ∧ s.tiles.all fun e =>
      let st := (getCtx e.2 j).st
      decide (st ≠ .ready) && decide (st ≠ .yielded) && decide (st ≠ .running) then setJobSt s j .paused else s

/-- HALT retires: the context is HALTED, and its job may be FINISHED or PAUSED (R149, R400). -/
def haltAct (t : W16) (j : BitVec 2) (s : State) : State :=
  checkPaused (checkFinished (modCtx s t j fun c => { c with st := .halted }) j) j

/-- A SYS slot (R149). The engine slot takes only NOP (R138), which the class check enforces. -/
def evalSys (s : State) (t : W16) (j : BitVec 2) (c : Ctx) (op : BitVec 6) (gD gA : BitVec 5) (csr : BitVec 12) : SlotRes :=
  match op.toNat with
  | 0x00 => {}
  | 0x01 => { blocked := engBusy (getTile s t) j, act := haltAct t j }
  | 0x02 => evalCsrr s t j gD csr
  | 0x03 => evalCsrw s t j c gA csr
  | 0x04 => { blocked := engBusy (getTile s t) j }
  | 0x05 => { act := fenceIAct t }
  | _ => excRes cIllegalOp 0

end Sys2Proof.Machine
end

