-- ==== Sys2Proof/Machine/JobOps.lean ====
section
/-!
DEFINITION. What several families do to a job: a pause from the module (R87, R400), register writes of both worlds (R9-R11, R482).
-/
namespace Sys2Proof.Machine
open Sys2Proof

/-- Every tile's context j changed. -/
def mapCtx (s : State) (j : BitVec 2) (f : Ctx → Ctx) : State :=
  { s with tiles := mmap Tile.reset s.tiles fun _ x => if getCtx x j = Ctx.reset then x else putCtx x j (f (getCtx x j)) }

/-- A READY or YIELDED context is PAUSED at once; a yielded one never becomes due (R400, R413). -/
def pauseCtx (c : Ctx) : Ctx := if c.st = .ready ∨ c.st = .yielded then { c with st := .paused, yrec := none } else c

/-- PAUSE of an ACTIVE job (R400): PAUSING, and PAUSED once no tile is READY, YIELDED or RUNNING. -/
def pauseJob (s : State) (j : BitVec 2) : State :=
  if (getJob s j).st = .active then checkPaused (mapCtx (setJobSt s j .pausing) j pauseCtx) j else s

/-- ERR.UNIT, source and die of a writer's access (R458). -/
def writerErr (w : Writer) (info0 : Nat) : Err :=
  match w with
  | .core c => worldErr 9 (BitVec.ofNat 16 c.val) 15 none info0
  | .port => worldErr 9 16 15 none info0
  | .token => worldErr 9 18 15 none info0

/-- The window address of an entry (R534), by which a WORLD_VIOLATION record names a register (R514). -/
def winAddr (index sub inst : Nat) : Nat := 0x400000000000 + inst * 2 ^ 30 + index * 2 ^ 14 + sub * 2 ^ 6

/-- A write of a register that only the secure world may write (R9, R482): from the non-secure world it is ignored, completes with
the world-violation status and is recorded. -/
def secureWrite (w : Writer) (addr : Nat) (s : State) (f : State → State × Byte) : State × Byte :=
  if secureWriter w then f s else (putErr s (writerErr w addr), stWorld)

/-- A write of a register in the reset domain of a compute die: DIE_LOST while the die is not READY (R521). -/
def dieReg (s : State) (d : Nat) (f : State → State × Byte) : State × Byte := if dieReady s d then f s else (s, cDieLost)

/-- A write of a register of a tile: it completes with DIE_LOST while its die is not READY (R521), and with DEST_FENCED, without effect,
where the tile is fenced (R468, R521). -/
def tileReg (s : State) (t : W16) (f : State → State × Byte) : State × Byte :=
  dieReg s (tDie t) fun s => if (getTile s t).fenced then (s, cDestFenced) else f s

/-- A write whose status the writer reads. -/
def finish (r : State × Byte) : State := setStatus r.1 r.2

end Sys2Proof.Machine
end

