-- ==== Sys2Proof/Machine/Hbm.lean ====
section
/-!
DEFINITION. The memory controllers: requests, error correction, patrol, recalibration and repair (chapter 11).
-/
namespace Sys2Proof.Machine
open Sys2Proof

/-- Causes of chapter 11 (R328). -/
def cHbmCe : Byte := 0x90
def cHbmLane : Byte := 0x91
def cHbmRecalFail : Byte := 0x92
def cHbmRepairOut : Byte := 0x93

/-- A stack serves requests now: a recalibration holds them (R320), and so does a DRAM temperature above 105 °C (R562). -/
def stackServes (s : State) (n : Nat) : Bool := decide (n < 12) && decide ((getStack s n).st = .ready) && !(getStack s n).hot

/-- The router at a stack's memory port in a column (R226). -/
def memPort (n col : Nat) : Pos := ⟨n, false, col, 0⟩

/-- The input of a router at row 0 of H0 that comes from the memory port (R224). -/
def inMemPort : Nat := 1

/-- Requests that reach a stack (R317). -/
def pushReqs (s : State) (n : Nat) (rs : List MemReq) : State :=
  putStack s n { getStack s n with reqs := (getStack s n).reqs ++ rs }

/-! ## A tile side of a transfer -/

/-- The tile and operand address of the byte at a row-major offset on a TILE or HSLOT side; the cause where the address passes the
end of its kind of operand address (R163, R272). -/
def sideOpnd (l : Leg) (dst : Bool) (off : Nat) : W16 × BitVec 24 × Option Byte :=
  let d := l.desc
  let a := dAddr d dst
  let o := (off / dRowLen d) * dStride d dst + off % dRowLen d
  let slot (k p : Nat) : BitVec 24 × Option Byte :=
    (BitVec.ofNat 24 (0x800000 + k * 2 ^ 17 + (p + o) % 2 ^ 17), if p + o < 2 ^ 17 then none else some cSlotRange)
  if dKind d dst = 1 then
    let t : W16 := fld a 24 16
    match opnd (fld a 0 24) with
    | .slot k p => (t, slot k p)
    | .plain p => (t, BitVec.ofNat 24 ((p + o) % 2 ^ 23), if p + o < 2 ^ 23 then none else some cShareRange)
    | .none => (t, 0xFFFFFF, some cShareRange)
  else
    let h : W32 := l.handle.getD 0
    (l.htile, slot (fldN h 20 6) (fldN a 0 17))

/-- The cause of a refused stream or exchange access: outside the share it is SHARE_RANGE (R190, R201). -/
def accessCause (c : Byte) : Byte := if c = cAddrRange ∨ c = cMisaligned then cShareRange else c

/-- A tile takes traffic: present, its die READY, not fenced (R228, R304). -/
def tileTakes (s : State) (t : W16) : Bool := tilePresent s t && dieReady s (tDie t) && !(getTile s t).fenced

/-! ## Steps whose data has been read (R270) -/

/-- The bytes of a step. -/
def stepBytes (t : StepRec) : List Byte := (List.range t.len).map fun i => mget 0 t.data i

/-- The writes of a step to HBM, one for each 64-byte block. -/
def writeReqs (die : Fin 12) (r : BitVec 9) (x : XferRec) (id pa : Nat) (bs : List Byte) : List MemReq :=
  (List.range (bs.length / 64)).map fun i =>
    { pa := pa + 64 * i, write := some ((bs.drop (64 * i)).take 64), die, xrec := r, step := id, idx := i, world := x.world, job := x.job }

/-- The block that carries a step to its tile, from the memory port of the stack that served it (R226, R270). -/
def toTileBlk (s : State) (die : Fin 12) (r : BitVec 9) (x : XferRec) (l : Leg) (t : StepRec) (stack : Nat) : Option Block :=
  let (tile, v, _) := sideOpnd l true t.off
  let dst := posOf s tile
  (diePath s stack dst.die).map fun via =>
    { Block.reset with
      kind := .toTile, src := x.tile, dest := tile, daddr := v, job := x.job, world := x.world, payload := stepBytes t
      pos := memPort stack dst.col, inPort := atMemPort, dst, via, xfer := some (die, r, t.id), heldSince := s.mod.time }

/-- All bytes of a step have been read at a stack: they go on to their destination. A step of a transfer that has failed meanwhile is
dropped (R280). -/
def stepFilled (s : State) (die : Fin 12) (r : BitVec 9) (id stack : Nat) : State :=
  let x := getRec (getDie s die) r
  match findStep x id with
  | some (l, t) =>
    if l.status ≠ 0 then stepFails s die r id l.status none
    else match t.dst with
      | some pa =>
        if stackUp s (paStack pa) then
          let s := modRec s die r fun x => modStep x id fun t => { t with writes := t.len / 64 }
          pushReqs s (paStack pa) (writeReqs die r x id pa (stepBytes t))
        else stepFails s die r id cStackGone none
      | none =>
        match toTileBlk s die r x l t stack with
        | some b => addBlk s b
        | none => stepFails s die r id cDestFenced none
  | none => s

/-! ## Serving requests (R315-R317) -/

/-- A world violation at a memory controller (R482, R486). -/
def memWorldErr (pa : Nat) (job : Option (BitVec 2)) : Err := worldErr 4 (BitVec.ofNat 16 (paStack pa)) (paStack pa) job pa

/-- A read or write of a block for a transfer. -/
def serveReq (s : State) (n : Nat) (m : MemReq) : State :=
  let b := m.pa % 2 ^ 36 / 64
  if !m.world && securePa s m.pa then
    stepFails (putErr s (memWorldErr m.pa (some m.job))) m.die m.xrec m.step stWorld none
  else match m.write with
    | some bs =>
      let (s, _) := hbmPut1 s m.pa bs
      let x := getRec (getDie s m.die) m.xrec
      match findStep x m.step with
      | some (_, t) =>
        if t.writes ≤ 1 then stepGone s m.die m.xrec m.step
        else modRec s m.die m.xrec fun x => modStep x m.step fun t => { t with writes := t.writes - 1 }
      | none => s
    | none =>
      let inj := (getStack s n).injected.contains b
      let (k, ok) := readBlk (getStack s n) s.mod.time b
      let s := putStack s n k
      let x := getRec (getDie s m.die) m.xrec
      match findStep x m.step with
      | some (l, t) =>
        if ok then
          let s := modRec s m.die m.xrec fun x => modStep x m.step fun t =>
            { t with data := wrBytes t.data (64 * m.idx) (hbmBytes s m.pa 64), reads := t.reads - 1 }
          if t.reads ≤ 1 then stepFilled s m.die m.xrec m.step n else s
        else
          let s := if l.status = 0 then modRec s m.die m.xrec fun x => modLeg x l.num fun l => { l with failInj := inj } else s
          stepFails s m.die m.xrec m.step cHbmData (some (BitVec.ofNat 64 (m.pa + 2 ^ 63)))
      | none => s

/-- The stacks that hold a copy of the secure working store (R483). -/
def secureCopies (s : State) : List Nat := [2, 3, 8, 9].filter (stackUp s)

/-- Addresses that an access of the secure world to the secure part stands for: every present copy of a write, the lowest of a read
(R483). -/
def copiesOf (s : State) (pa : Nat) (write : Bool) : List Nat :=
  if reserveStack (paStack pa) && decide (0xFC0000000 ≤ pa % 2 ^ 36) then
    let ns := (secureCopies s).map fun n => n * 2 ^ 36 + pa % 2 ^ 36
    if write then ns else ns.take 1
  else [pa]

/-- An access of a control-die core by physical address (R22, R314, R316, R482). -/
def directAccess (s : State) (core : Fin 18) (pa : Nat) (a : MemAccess) : State :=
  let secure := secureWriter (.core core)
  let n := match a with | .read n => n | .write bs => bs.length
  let bad := (List.range (n / 64 + 2)).any fun i => decide (64 * i < n + 64) && securePa s (Nat.min (pa + 64 * i) (pa + (n - 1)))
  if !secure && bad then setStatus (putErr s (worldErr 9 (BitVec.ofNat 16 core.val) 15 none pa)) stWorld
  else match a with
    | .write bs =>
      let ps := copiesOf s pa true
      finish (ps.foldl (fun (r : State × Byte) p =>
        let (s, st) := hbmStore r.1 p bs none
        (s, if r.2 = 0 then st else r.2)) (s, if ps.isEmpty then cStackGone else stOk))
    | .read n =>
      match copiesOf s pa false with
      | p :: _ =>
        let (s, bs, st) := hbmLoad s p n none
        let w := mget WinCore.reset s.win core.val
        let w := { w with sample := if st = stOk then bs else [] }
        setStatus { s with win := mset WinCore.reset s.win core.val w } st
      | [] => setStatus s cStackGone

/-- HBM_REQUEST_SERVE (R317): the oldest request of a stack, or an access of a control-die core by physical address. -/
def execHbmRequestServe (stack : Fin 12) (direct : Option (Fin 18 × BitVec 36 × MemAccess)) (s : State) : Host.Outcome State Fault Refusal :=
  .next (match direct with
    | some (core, off, a) =>
      if (getStack s stack).st = .recal then s else directAccess s core (stack.val * 2 ^ 36 + off.toNat) a
    | none =>
      if stackServes s stack then
        match (getStack s stack).reqs with
        | m :: rest => serveReq (putStack s stack { getStack s stack with reqs := rest }) stack m
        | [] => s
      else s)

/-- A write of a block is on its way at its stack (R317). -/
def reqWrites (k : Stack) (b : Nat) : Bool := k.reqs.any fun m => m.write.isSome && decide (m.pa % 2 ^ 36 / 64 = b)

/-- HBM_WRITEBACK (R315, R317): the oldest write-back still due; a write since has dropped it, and so does one on its way (log entry 63). -/
def execHbmWriteback (stack : Fin 12) (s : State) : Host.Outcome State Fault Refusal :=
  .next (
    let k := getStack s stack
    match k.writebacks with
    | b :: rest =>
      if stackServes s stack then
        let k := { k with writebacks := rest }
        putStack s stack (if blkSt k b = some .correctable && !reqWrites k b then cleanBlk k b else k)
      else s
    | [] => s)

/-- HBM_REFRESH (R318): a bank is refreshed; no value of the module depends on it. -/
def execHbmRefresh (_stack : Fin 12) (_bank : Nat) (s : State) : Host.Outcome State Fault Refusal := .next s

/-- HBM_PATROL (R319): the next block in address order; the end of a pass counts it. -/
def execHbmPatrol (stack : Fin 12) (s : State) : Host.Outcome State Fault Refusal :=
  .next (
    if stackServes s stack then
      let k := getStack s stack
      let b := k.patrol
      let (k, ok) := readBlk k s.mod.time b
      let last := decide (2 ^ 30 ≤ b + 1)
      let k := { k with patrol := if last then 0 else b + 1, passes := if last then k.passes + 1 else k.passes }
      let s := putStack s stack k
      let e := hbmDataErr (stack.val * 2 ^ 36 + 64 * b) none (k.injected.contains b)
      if ok then s else putErr s { e with detail := BitVec.ofNat 8 (pseudoChannel (64 * b)) }
    else s)

/-- HBM_CE_SUMMARY (R315): at most one record a second, with the corrections since the last. -/
def execHbmCeSummary (stack : Fin 12) (s : State) : Host.Outcome State Fault Refusal :=
  .next (
    let k := getStack s stack
    let due := match k.ceSummaryAt with | some t => decide (t.toNat + 1000000000 ≤ now s) | none => true
    if decide (0 < k.ceSince) && due then
      putErr (putStack s stack { k with ceSince := 0, ceSummaryAt := some s.mod.time })
        { cause := cHbmCe, sev := 0, unit := 4, source := BitVec.ofNat 16 stack.val, die := BitVec.ofNat 4 stack.val, info0 := BitVec.ofNat 64 k.ceSince }
    else s)

/-! ## Recalibration and repair (R320-R324) -/

/-- The repair record of a stack has a place (R323). -/
def recordFree (k : Stack) : Bool := decide (k.repairs.length < 4096)

/-- HBM_REPAIR_OUT (R323, R459). -/
def repairOutErr (n pch pa : Nat) : Err :=
  { cause := cHbmRepairOut, unit := 4, source := BitVec.ofNat 16 n, die := BitVec.ofNat 4 n, detail := BitVec.ofNat 8 pch
    info0 := BitVec.ofNat 64 (n * 2 ^ 36 + pa) }

/-- One lane of a channel remapped to a spare (R322): an HBM_LANE record, whose address within the channel is open (R312), and an entry of
the repair record; where that is full, an HBM_REPAIR_OUT record, and the remap lasts until the next start-up (R323, log entry 63). -/
def remapLane (s : State) (n : Nat) (l : Fin 32 × Byte) : State :=
  let (p, s) := freshWord s
  let k := getStack s n
  let room := recordFree k
  let s := putStack s n { k with spares := k.spares.set l.1.val (k.spares.getD l.1.val 0 - 1)
                                 repairs := if room then k.repairs ++ [.lane l.1 l.2] else k.repairs }
  let pch := 2 * l.1.val + fldN p 0 1
  let s := putErr s { cause := cHbmLane, sev := 0, unit := 4, source := BitVec.ofNat 16 n, die := BitVec.ofNat 4 n,
                      detail := BitVec.ofNat 8 pch, info0 := BitVec.ofNat 64 (n * 2 ^ 36 + fldN p 1 36) }
  if room then s else putErr s (repairOutErr n pch (fldN p 1 36))

/-- One row repaired by soft post-package repair, where it finds a spare row and the record has a place (R323); else an HBM_REPAIR_OUT record
that names the blocks' first, and their frames are retired (R324). -/
def repairRow (s : State) (n row : Nat) (blks : List Nat) : State :=
  let (found, s) := freshBit s
  let k := getStack s n
  if found && recordFree k then putStack s n { k with repairs := k.repairs ++ [.row row] }
  else putErr (putStack s n (blks.foldl retireFrame k)) (repairOutErr n (pseudoChannel (64 * blks.headD 0)) (64 * blks.headD 0))

/-- Rows corrected more than 16 times within one patrol period (R323). -/
def rowsOften (k : Stack) (t : W64) : List Nat :=
  let ce := k.ceRows.filter fun e => decide (t.toNat < e.2.2.toNat + patrolPeriod k)
  (ce.map (·.1)).eraseDups.filter fun r => decide (16 < (ce.filter fun e => decide (e.1 = r)).length)

/-- Rows that the next recalibration or start-up repairs, each with the blocks that marked it (R323). -/
def rowsDue (k : Stack) (t : W64) : List (Nat × List Nat) :=
  (k.badRows.map fun e => (e.1, [e.2]))
  ++ ((rowsOften k t).filter fun r => !k.badRows.any fun e => decide (e.1 = r)).map fun r =>
    (r, ((k.ceRows.filter fun e => decide (e.1 = r)).map (·.2.1)).eraseDups)

/-- Rows repaired; none of them is due after it, and their corrections count no longer (R323). -/
def repairRows (s : State) (n : Nat) : State :=
  let due := rowsDue (getStack s n) s.mod.time
  let s := due.foldl (fun s e => repairRow s n e.1 e.2) s
  let k := getStack s n
  putStack s n { k with badRows := [], ceRows := k.ceRows.filter fun e => !due.any fun r => decide (r.1 = e.1) }

/-- Every failing lane finds a spare of its channel (R322). -/
def sparesServe (k : Stack) (ls : List (Fin 32 × Byte)) : Bool :=
  ls.all fun l => decide ((ls.filter fun m => decide (m.1 = l.1)).length ≤ (k.spares.getD l.1.val 0).toNat)

/-- Failing lanes remapped and rows repaired (R322, R323). -/
def repairStack (s : State) (n : Nat) (lanes : List (Fin 32 × Byte)) : State :=
  let s := repairRows (lanes.foldl (fun s l => remapLane s n l) s) n
  putStack s n { getStack s n with failing := [], laneErrs := [] }

/-- Requests that wait at a stack fail with STACK_GONE (R304, R321). -/
def failReqs (s : State) (n : Nat) : State :=
  let rs := (getStack s n).reqs
  rs.foldl (fun s m => stepFails s m.die m.xrec m.step cStackGone none) (putStack s n { getStack s n with reqs := [] })

/-- Requests already issued to a stack are served, but for a stack too hot to serve any (R320, R562). -/
def serveIssued (s : State) (n : Nat) : State :=
  let k := getStack s n
  if k.hot then s
  else k.reqs.foldl (fun s m =>
    serveReq (putStack s n { getStack s n with reqs := (getStack s n).reqs.drop 1 }) n m) s

/-- The recalibration itself (R320, R321): lanes that fail its training and lanes beyond LANE_LIMIT are remapped; a channel without a spare
for one cannot train (R322). -/
def recalibrate (s : State) (n : Nat) (trained : Bool) (lanes : List (Fin 32 × Byte)) : State :=
  let s := serveIssued (setStackSt s n fun k => { k with st := .recal }) n
  let lanes := (lanes ++ (getStack s n).failing).eraseDups
  if trained && sparesServe (getStack s n) lanes then setStackSt (repairStack s n lanes) n fun k => { k with st := .ready }
  else
    let s := setStackSt s n fun k => { k with st := .offline, spares := [], writebacks := [] }
    putErr (failReqs s n) { cause := cHbmRecalFail, unit := 4, source := BitVec.ofNat 16 n, die := BitVec.ofNat 4 n }

/-- HBM_RECAL (R320): commanded by a write of HBM.CTL, or under AUTO_RECAL once a lane exceeds LANE_LIMIT. The operands are what its training
finds: whether every channel trains, and the lanes that fail. -/
def execHbmRecal (w : Option Writer) (stack : Fin 12) (trained : Bool) (failing : List (Fin 32 × Byte)) (s : State) : Host.Outcome State Fault Refusal :=
  .next (
    let k := getStack s stack
    match w with
    | some w => finish (secureWrite w (winAddr (0x3040 + stack.val) 1 0) s fun s => dieReg s stack fun s => if k.st = .ready then (recalibrate s stack trained failing, stOk) else (s, stCfgBusy))
    | none =>
      if bitAt k.cfg 31 && decide (k.st = .ready) && k.laneErrs.any (fun e => laneOver k s.mod.time (e.1, e.2.1)) then recalibrate s stack trained failing else s)

/-- HBM_PATROL_RESTART (R327): patrol starts again at offset 0. -/
def execHbmPatrolRestart (w : Writer) (stack : Fin 12) (s : State) : Host.Outcome State Fault Refusal :=
  .next (finish (secureWrite w (winAddr (0x3040 + stack.val) 1 0) s fun s => dieReg s stack fun s => (putStack s stack { getStack s stack with patrol := 0 }, stOk)))

end Sys2Proof.Machine
end

