-- ==== Sys2Proof/Machine/StreamPost.lean ====
section
/-!
DEFINITION. Posting descriptors and arming reaches (R274, R281, R289, R291).
-/
namespace Sys2Proof.Machine
open Sys2Proof

/-! ## Queues that drain (R306) -/

/-- A queue of handles that drains, and holds none, is disabled (R306). -/
def settleStqH1 (d : Die) (q : BitVec 12) : Die :=
  let x := getStq d q
  if x.st = .draining ∧ stqKind x ≠ 0 ∧ x.handles.isEmpty then putStq d q { x with st := .disabled, cfg := setFld x.cfg 63 1 0 } else d

/-- The same on the module. -/
def settleStqH (s : State) (die : Nat) (q : BitVec 12) : State := modDie s die fun d => settleStqH1 d q

/-- The same of a tile handle queue (R306). -/
def settleHq (s : State) (t : W16) (n : Nat) : State :=
  modTile s t fun x =>
    let y := getHq x n
    if y.draining ∧ y.handles.isEmpty then putHq x n { y with draining := false, cfg := setFld y.cfg 31 1 0 } else x

/-! ## Records (R281) -/

/-- The lowest free transfer record of a die. -/
def freeRec (d : Die) : Option (BitVec 9) :=
  ((List.range 512).find? fun i => decide ((getRec d (BitVec.ofNat 9 i)).st = .free)).map (BitVec.ofNat 9)

/-- A free record taken for a descriptor; it keeps its generation. -/
def newRec (s : State) (r : XferRec) (job : BitVec 2) (world : Bool) (tile : W16) (qid : BitVec 12) (reach : Bool) (desc : BitVec 512) : XferRec :=
  { XferRec.reset with gen := r.gen, st := .queued, job, world, tile, qid, reach, desc, ord := s.net.ord }

/-- The next place in the posting order taken. -/
def bumpOrd (s : State) : State := { s with net := { s.net with ord := s.net.ord + 1 } }

/-- A POST context has a place, and the die a free record (R274). -/
def postFree (d : Die) (q : Stq) : Option (BitVec 9) := if q.recs.length < 64 then freeRec d else none

/-- A descriptor copied into a free record, which is appended to its context (R274). -/
def postDesc (s : State) (die : Nat) (q : BitVec 12) (tile : W16) (job : BitVec 2) (world : Bool) (desc : BitVec 512) : State :=
  let d := getDie s die
  match postFree d (getStq d q) with
  | some r =>
    bumpOrd (modDie s die fun d =>
      putRec (putStq d q { getStq d q with recs := (getStq d q).recs ++ [r] }) r (newRec s (getRec d r) job world tile q false desc))
  | none => s

/-- The checks of a post on a context by a job context (R274, R306). -/
def postCheck (d : Die) (q : BitVec 12) (j : BitVec 2) : Option Byte :=
  let x := getStq d q
  if !stqTakes x ∨ stqKind x ≠ 0 then some cStqRefused
  else if stqOwner x ≠ j then some cObjOwner
  else none

/-! ## Reaches (R289-R291) -/

def reachOn (r : Reach) : Bool := bitAt r.cfg 63
def reachOwner (r : Reach) : BitVec 2 := fld r.cfg 61 2
def reachDepth (r : Reach) : Nat := fldN r.cfg 58 3 + 1
def reachChain (r : Reach) : Nat := fldN r.cfg 56 2 + 1
def reachEngine (r : Reach) : Nat := fldN r.cfg 53 3
def reachPasses (r : Reach) : Nat := fldN r.cfg 32 16
def reachHome (r : Reach) : W16 := fld r.cfg 16 16

/-- A reach accepts new work: enabled, and neither it nor, frozen, its state before is DRAINING or ABORTING (R303, R306). -/
def reachTakes (r : Reach) : Bool :=
  let st := if r.st = .frozen then r.thawTo else r.st
  reachOn r && decide (st ≠ .disabled) && decide (st ≠ .draining) && decide (st ≠ .aborting)

/-- The checks of REARM (R291, R306). -/
def rearmCheck (r : Reach) (j : BitVec 2) (base : W64) : Option Byte :=
  if !reachTakes r then some cStqRefused
  else if reachOwner r ≠ j then some cObjOwner
  else if base.toNat % 64 ≠ 0 ∨ 2 ^ 48 ≤ base.toNat then some cMisaligned
  else none

/-- REARM (R291). -/
def rearmReach (r : Reach) (base : W64) : Reach :=
  if r.st = .idle then { r with base, pass := 0, st := .armed }
  else if r.st = .frozen ∧ r.thawTo = .idle then { r with base, pass := 0, thawTo := .armed }
  else { r with nextBase := base, pending := true }

end Sys2Proof.Machine
end

