-- ==== Sys2Proof/Machine/Stream.lean ====
section
/-!
DEFINITION. Stream engines: translation, steps, completion, parking, handle queues, drains and aborts (chapter 10).
-/
namespace Sys2Proof.Machine
open Sys2Proof

/-! ## Translation (R292-R295, R418, R419) -/

/-- What a translation finds. -/
inductive Xlate where
  /-- A physical address, and whether a 2 MiB page maps it. -/
  | pa (a : Nat) (big : Bool)
  | miss
  /-- A fault of R297. -/
  | fault (reason : BitVec 3)
  /-- A status that ends the transfer. -/
  | fail (cause : Byte)
deriving DecidableEq, Repr

/-- Reasons (R297). -/
def fNoRoot : BitVec 3 := 0
def fNotMapped : BitVec 3 := 1
def fWriteRo : BitVec 3 := 2
def fMalformed : BitVec 3 := 3
def fPreempted : BitVec 3 := 4

/-- The publication entry of a TRN.VIEW, and the entries of its block. -/
def viewEntry (v : W64) : Nat := fldN v 0 4
def pubCount (p : Pub) : Nat := p.count.toNat + 1

/-- A view covers a virtual address: the view itself, or 0 where TRN.ROOT serves (R418). -/
def viewOf (s : State) (v : W64) (va : Nat) : W64 :=
  let g := va / 2 ^ 30
  if bitAt v 63 && decide (fldN v 32 18 ≤ g) && decide (g < fldN v 32 18 + pubCount (getPub s (viewEntry v))) then v else 0

/-- A cached translation serves an address of a job through a view (R295). -/
def tlbHit (e : Tlb) (job : BitVec 2) (view : W64) (va : Nat) : Bool :=
  decide (e.job = job) && decide (e.view = view) && (if e.big then decide (e.page / 32 = va / 2 ^ 21) else decide (e.page = va / 2 ^ 16))

/-- The address that a translation maps a virtual address to. -/
def mapTo (frame : Nat) (big : Bool) (va : Nat) : Nat := if big then frame + va % 2 ^ 21 else frame + va % 2 ^ 16

/-- What a mapping gives an access: a fault on a write of a page not writable (R297, R418), STACK_GONE where the stack is not ready
(R304). -/
def useMap (s : State) (frame : Nat) (big w : Bool) (va : Nat) (dst : Bool) : Xlate :=
  let a := mapTo frame big va
  if dst && !w then .fault fWriteRo
  else if stackUp s (paStack a) then .pa a big else .fail cStackGone

/-- A translation from a die's cache. -/
def xlate (s : State) (d : Die) (job : BitVec 2) (view : W64) (va : Nat) (dst : Bool) : Xlate :=
  if !bitAt (getJob s job).regs.trnRoot 63 then .fault fNoRoot
  else
    let v := viewOf s view va
    match d.tlb.find? fun e => tlbHit e job v va with
    | some e => useMap s e.frame e.big e.w va dst
    | none => .miss

/-- A table entry read by a walk of a transfer of a world (R292, R316, R326, R482). -/
def readPte (s : State) (job : BitVec 2) (world : Bool) (pa : Nat) : State × Nat × Byte :=
  if !world && securePa s pa then (putErr s (memWorldErr pa (some job)), 0, stWorld)
  else let (s, bs, st) := hbmGet s pa 8; (s, leNat bs, st)

/-- The address of the level-1 entry for an address (R292, R294, R416, R418). -/
def pte1Addr (s : State) (job : BitVec 2) (v : W64) (va : Nat) : Nat :=
  let g := va / 2 ^ 30
  if v = 0 then fldN (getJob s job).regs.trnRoot 21 19 * 2 ^ 21 + 8 * g
  else fldN (getPub s (viewEntry v)).base 9 31 * 2 ^ 9 + 8 * (g - fldN v 32 18)

/-- The bytes of a page lie wholly or partly in the control die's reserve (R293). -/
def pageReserved (frame : Nat) (big : Bool) : Bool := inReserve frame || inReserve (frame + (if big then 2 ^ 21 else 2 ^ 16) - 1)

/-- A walk (R292, R293): the mapping it finds. -/
def walk (s : State) (job : BitVec 2) (world : Bool) (view : W64) (va : Nat) (dst : Bool) : State × Xlate × Option Tlb :=
  if !bitAt (getJob s job).regs.trnRoot 63 then (s, .fault fNoRoot, none)
  else
    let v := viewOf s view va
    let (s, e1n, st1) := readPte s job world (pte1Addr s job v va)
    let e1 : W64 := BitVec.ofNat 64 e1n
    if st1 ≠ 0 then (s, .fail st1, none)
    else if !bitAt e1 63 then (s, .fault fNotMapped, none)
    else if fldN e1 40 23 ≠ 0 ∨ fldN e1 0 17 ≠ 0 then (s, .fault fMalformed, none)
    else
      let (s, e2n, st2) := readPte s job world (fldN e1 17 23 * 2 ^ 17 + 8 * (va / 2 ^ 16 % 16384))
      let e2 : W64 := BitVec.ofNat 64 e2n
      let big := bitAt e2 61
      let frame := fldN e2 16 24 * 2 ^ 16
      if st2 ≠ 0 then (s, .fail st2, none)
      else if !bitAt e2 63 then (s, .fault fNotMapped, none)
      else if fldN e2 40 21 ≠ 0 ∨ fldN e2 0 16 ≠ 0 ∨ (big ∧ fldN e2 16 5 ≠ 0) ∨ pageReserved frame big then (s, .fault fMalformed, none)
      else
        let w := bitAt e2 62 && decide (v = 0)
        (s, useMap s frame big w va dst, some { job, page := va / 2 ^ 16, big, frame, w, view := v })

/-- A translation cached; where the cache is full it replaces one of the sender's choice (R295). -/
def tlbInsert (d : Die) (e : Tlb) (evict : Nat) : Die :=
  if d.tlb.length < 2048 then { d with tlb := d.tlb ++ [e] } else { d with tlb := d.tlb.set (evict % 2048) e }

/-- The page of a translation, of 64 KiB or of 2 MiB, lies wholly or partly in pages [first, first + n); n of 0 is every page (R295). -/
def pageHit (first n page : Nat) (big : Bool) : Bool :=
  let lo := if big then page / 32 * 32 else page
  let len := if big then 32 else 1
  decide (n = 0) || (decide (lo < first + n) && decide (first < lo + len))

/-- Translations of a job dropped on every die: of pages [first, first + n), or all where n is 0; the steps translated through such a
translation hold BUSY until written (R295). -/
def invalidate (s : State) (job : BitVec 2) (first n : Nat) : State :=
  let hit (v : Nat × Bool) : Bool := pageHit first n (v.1 / 2 ^ 16) v.2
  let keep (e : Tlb) : Bool := !(decide (e.job = job) && pageHit first n e.page e.big)
  let ids := s.dies.flatMap fun (d : Nat × Die) => d.2.recs.flatMap fun (r : Nat × XferRec) =>
    if r.2.job = job then r.2.legs.flatMap fun l => (l.steps.filter fun t => t.vas.any hit).map (·.id) else []
  { s with dies := mmap Die.reset s.dies fun _ d => { d with tlb := d.tlb.filter keep }, mod := { s.mod with invalWait := s.mod.invalWait ++ ids } }

/-- TRN.INVAL_STATUS.BUSY. -/
def invalBusy (s : State) : Bool := !s.mod.invalWait.isEmpty

/-- A write of TRN.ROOT (R294). -/
def writeTrnRoot (s : State) (j : BitVec 2) (v : W64) : State × Byte :=
  let pa := fldN v 21 19 * 2 ^ 21
  if invalBusy s then (s, stCfgBusy)
  else if bitAt v 63 && !inReserveNs pa (2 ^ 21) then (s, stInvalid)
  else (invalidate (modJob s j fun x => { x with regs := { x.regs with trnRoot := v &&& 0x800000FFFFE00000 } }) j 0 0, stOk)

/-- The status of a command that begins an invalidation: at once where it is refused or nothing holds it up, else once the invalidation
completes (R294, R295, R419). -/
def finishInval (r : State × Byte) : State :=
  if r.2 = stOk ∧ invalBusy r.1 then { r.1 with owed := r.1.owed ++ [.inval] } else finish r

/-- TRN_ROOT_WRITE (R294): it completes when its invalidation does. -/
def execTrnRootWrite (_w : Writer) (job : BitVec 2) (value : W64) (s : State) : Host.Outcome State Fault Refusal :=
  .next (finishInval (writeTrnRoot s job value))

/-- A write of TRN.INVAL_CMD (R295). -/
def writeTrnInval (s : State) (v : W64) : State × Byte :=
  if invalBusy s then (s, stCfgBusy) else (invalidate s (fld v 0 2) (fldN s.mod.invalAddr 16 32) (fldN v 32 32), stOk)

/-- TRN_INVAL (R295). -/
def execTrnInval (_w : Writer) (value : W64) (s : State) : Host.Outcome State Fault Refusal :=
  .next (finishInval (writeTrnInval s value))

/-! ## Handles (R285, R286) -/

/-- The first handle of a queue named as R287 names queues, taken off it: the handle and the tile whose slots it names. -/
def takeHandle (s : State) (die : Nat) (q : BitVec 13) (home : W16) : State × Option (W32 × W16) :=
  if bitAt q 12 then
    let n : BitVec 12 := fld q 0 12
    let x := getStq (getDie s die) n
    match x.handles with
    | h :: rest => (settleStqH (modDie s die fun d => putStq d n { x with handles := rest }) die n, some (h, stqTile x))
    | [] => (s, none)
  else
    let n := fldN q 0 3
    let y := getHq (getTile s home) n
    match y.handles with
    | h :: rest => (settleHq (modTile s home fun x => putHq x n { y with handles := rest }) home n, some (h, home))
    | [] => (s, none)

/-- A handle whose generation is its slot's, popped from a queue; stale ones are dropped (R286). -/
def popHandle (die : Nat) (q : BitVec 13) (home : W16) (j : BitVec 2) : Nat → State → State × Option (W32 × W16)
  | 0, s => (s, none)
  | fuel + 1, s =>
    match takeHandle s die q home with
    | (s, some (h, t)) =>
      if fld h 26 6 = (getSlot (getTile s t) (fldN h 20 6)).gen then (s, some (h, t))
      else popHandle die q home j fuel (dropHandle s die t j)
    | (s, none) => (s, none)

/-! ## Freeing records (R281, R290, R306, R419) -/

/-- A transfer or reach pass of a job that began under its view of a number is under way (R419). -/
def viewLive (s : State) (j : BitVec 2) (ep : Nat) : Bool :=
  s.dies.any fun (d : Nat × Die) => d.2.recs.any fun (r : Nat × XferRec) =>
    decide (r.2.job = j ∧ r.2.st ≠ .free) && ((r.2.reach && decide (r.2.viewEp = ep)) || r.2.legs.any fun l => decide (l.viewEp = ep))

/-- References of earlier views end with the last transfer that began under them (R419). -/
def settleViews (s : State) (j : BitVec 2) : State :=
  let ended := (getJob s j).viewOwed.filter fun o => !viewLive s j o.1
  let s := ended.foldl (fun s o => putPub s o.2.toNat { getPub s o.2.toNat with refs := (getPub s o.2.toNat).refs - 1 }) s
  modJob s j fun x => { x with viewOwed := x.viewOwed.filter fun o => !ended.contains o }

/-- A reach with no pass in flight: drained or aborted it is disabled; after its last pass it is IDLE, or ARMED with the base that waits
(R290, R306). -/
def settleReach (d : Die) (n : BitVec 10) : Die :=
  let y := getReach d n
  if !y.recs.isEmpty then d
  else if y.st = .draining ∨ y.st = .aborting then putReach d n { y with st := .disabled, cfg := setFld y.cfg 63 1 0, pending := false }
  else if y.st = .armed ∧ reachPasses y ≤ y.pass.toNat then
    putReach d n (if y.pending then { y with base := y.nextBase, pending := false, pass := 0 } else { y with st := .idle })
  else d

/-- A POST context that drains or aborts and holds no record is disabled (R306). -/
def settleStqP (d : Die) (q : BitVec 12) : Die :=
  let y := getStq d q
  if y.recs.isEmpty ∧ stqKind y = 0 ∧ (y.st = .draining ∨ y.st = .aborting) then putStq d q { y with st := .disabled, cfg := setFld y.cfg 63 1 0 } else d

/-- A record is freed: its generation rises (R281). -/
def freeRecord (s : State) (die : Nat) (r : BitVec 9) : State :=
  let x := getRec (getDie s die) r
  modDie s die fun d =>
    let d := putRec d r { XferRec.reset with gen := x.gen + 1 }
    if x.reach then
      let n : BitVec 10 := x.qid.setWidth 10
      settleReach (putReach d n { getReach d n with recs := (getReach d n).recs.filter (· ≠ r) }) n
    else settleStqP (putStq d x.qid { getStq d x.qid with recs := (getStq d x.qid).recs.filter (· ≠ r) }) x.qid

/-- A record with nothing left but a chain that will not go on is freed. -/
def sweepRec (s : State) (die : Nat) (r : BitVec 9) : State :=
  let x := getRec (getDie s die) r
  if x.st ≠ .free ∧ x.legs.isEmpty ∧ 0 < x.begun ∧ x.ended then freeRecord s die r else s

/-! ## Starting transfers and passes (R273-R276, R286-R290) -/

/-- Records that an engine of a die runs (R269). -/
def engineLoad (d : Die) (eng : Nat) : Nat :=
  (d.recs.filter fun (e : Nat × XferRec) =>
    let x := e.2
    decide (x.st ≠ .free ∧ x.st ≠ .queued)
    && decide ((if x.reach then reachEngine (getReach d (x.qid.setWidth 10)) else fldN (getStq d x.qid).cfg 56 3) = eng)).length

/-- The engine of a record. -/
def recEngine (d : Die) (x : XferRec) : Nat := if x.reach then reachEngine (getReach d (x.qid.setWidth 10)) else fldN (getStq d x.qid).cfg 56 3

/-- A descriptor begins: it is checked, takes its handle, and becomes the record's newest leg; none while it must wait for a handle
(R273, R286, R288, R419). -/
def beginLeg (s : State) (die : Nat) (r : BitVec 9) (desc : BitVec 512) : State :=
  let x := getRec (getDie s die) r
  let first := decide (x.begun = 0)
  let job := getJob s x.job
  let own := first || !x.reach
  let base : Leg :=
    { num := x.begun, desc, handle := x.handle, htile := x.htile, view := if own then job.regs.trnView else x.view,
      viewEp := if own then job.viewEp else x.viewEp, next := 0, steps := [], status := 0, failAt := 0, failInfo := 0, failInj := false,
      walk := none, fault := none, told := false }
  let add (s : State) (l : Leg) : State :=
    modRec s die r fun x => { x with
      st := .running, begun := x.begun + 1, legs := x.legs ++ [l], nextOp := if x.reach then 0xFFFFFF else dNext desc
      handle := if x.reach then l.handle else none, htile := if x.reach then l.htile else 0, view := l.view, viewEp := l.viewEp
      ended := x.ended || decide (l.status ≠ 0) }
  if !x.reach && !descOk s die x.tile false desc then add s { base with status := cDescInvalid }
  else if own ∧ dInQ desc ≠ 0x1FFF then
    match popHandle die (dInQ desc) x.tile x.job 65 s with
    | (s, some (h, t)) => add s { base with handle := some h, htile := t }
    | (s, none) => s
  else add s base

/-- The next descriptor of a chain is due: the one before has issued its last request and has not failed (R275, R290). -/
def chainDue (d : Die) (x : XferRec) : Bool :=
  decide (x.st = .running) && !x.freezing && !x.ended && decide (0 < x.begun)
  && (if x.reach then decide (x.begun < reachChain (getReach d (x.qid.setWidth 10))) else named' x.nextOp)
  && (match lastLeg x with | some l => decide (l.num + 1 = x.begun ∧ l.status = 0 ∧ l.next = dTotal l.desc) | none => true)
where
  /-- NEXT names a descriptor. -/
  named' (v : BitVec 24) : Bool := v != 0xFFFFFF

/-- A descriptor of a POST chain read from the posting tile; one that cannot be read ends the chain with a record (R190, R201, R203,
R275). -/
def readNext (s : State) (die : Nat) (r : BitVec 9) : State :=
  let x := getRec (getDie s die) r
  let t := getTile s x.tile
  let stop (c : Byte) : State :=
    sweepRec (putErr (modRec s die r fun x => { x with ended := true }) (tileErr x.tile (some x.job) c x.nextOp.toNat)) die r
  if !tileTakes s x.tile then stop cDestFenced
  else match opndCheck t x.job x.nextOp 64 64 with
    | some c => stop (if c = cMisaligned then cDescInvalid else accessCause c)
    | none =>
      if readWaits t x.nextOp then s
      else if opndBad t x.nextOp 64 then stop cSpadEcc
      else beginLeg s die r (BitVec.ofNat 512 (leNat (opndRead t x.nextOp 64)))

/-- A POST context's first queued record (R276). -/
def firstQueued (d : Die) (q : BitVec 12) (r : BitVec 9) : Bool :=
  let x := getRec d r
  !d.recs.any fun (e : Nat × XferRec) => !e.2.reach && decide (e.2.st = .queued) && decide (e.2.qid = q) && decide (e.2.ord < x.ord)

/-- TRANSFER_START (R273, R275, R276, R288): a queued record, or the next descriptor of a chain. -/
def execTransferStart (die : Fin 12) (rec : BitVec 9) (s : State) : Host.Outcome State Fault Refusal :=
  .next (
    let d := getDie s die
    let x := getRec d rec
    if (getJob s x.job).frozen then s
    else if x.st = .queued then
      if decide ((getStq d x.qid).st = .active ∨ (getStq d x.qid).st = .draining) && firstQueued d x.qid rec && decide (engineLoad d (recEngine d x) < 64) then
        beginLeg s die rec x.desc
      else s
    else if chainDue d x then
      if x.reach then beginLeg s die rec (mget 0 (getReach d (x.qid.setWidth 10)).descs x.begun) else readNext s die rec
    else s)

/-- REACH_PASS_START (R290): the next pass takes a free record, its handle and its address. -/
def execReachPassStart (die : Fin 12) (reach : BitVec 10) (rec : BitVec 9) (s : State) : Host.Outcome State Fault Refusal :=
  .next (
    let d := getDie s die
    let y := getReach d reach
    let desc : BitVec 512 := mget 0 y.descs 0
    if decide (y.st = .armed) && !(getJob s (reachOwner y)).frozen && decide (y.pass.toNat < reachPasses y) && decide (y.recs.length < reachDepth y)
        && decide ((getRec d rec).st = .free) && decide (engineLoad d (reachEngine y) < 64) then
      let go (s : State) (h : Option (W32 × W16)) : State :=
        let x : XferRec := { newRec s (getRec d rec) (reachOwner y) y.world (reachHome y) (reach.setWidth 12) true desc with
          passAddr := y.base + BitVec.ofNat 64 y.pass.toNat * y.stride, handle := h.map (·.1), htile := (h.map (·.2)).getD 0 }
        let job := getJob s (reachOwner y)
        let l : Leg :=
          { num := 0, desc, handle := x.handle, htile := x.htile, view := job.regs.trnView, viewEp := job.viewEp, next := 0, steps := [], status := 0,
            failAt := 0, failInfo := 0, failInj := false, walk := none, fault := none, told := false }
        bumpOrd (modDie s die fun d =>
          putReach (putRec d rec { x with st := .running, begun := 1, legs := [l], view := l.view, viewEp := l.viewEp }) reach
            { getReach d reach with pass := y.pass + 1, recs := y.recs ++ [rec] })
      if dInQ desc ≠ 0x1FFF then
        match popHandle die (dInQ desc) (reachHome y) (reachOwner y) 65 s with
        | (s, some h) => go s (some h)
        | (s, none) => s
      else go s none
    else s)

/-! ## Steps (R296) -/

/-- Bytes of the step that begins at a row-major offset: to the end of the row or the next 4 KiB boundary of a VIRT side. -/
def stepLen (x : XferRec) (l : Leg) (off : Nat) : Nat :=
  let d := l.desc
  let row := dRowLen d - off % dRowLen d
  let side (dst : Bool) (n : Nat) : Nat := if dKind d dst = 0 then Nat.min n (4096 - sideVa x l dst off % 4096) else n
  side true (side false row)

/-- Requests of up to 256 bytes, none across a 256-byte boundary of physical address, for n bytes at an address (R269). -/
def stepReqs (pa n : Nat) : Nat := if n = 0 then 0 else (pa + n - 1) / 256 - pa / 256 + 1

/-- Requests of a step in flight (R269): those of which a stack still holds a 64-byte part, and, while its bytes are on their way from a
tile, those that will write them. -/
def stepInFlight (s : State) (t : StepRec) : Nat :=
  let parts := s.hbmStacks.flatMap fun (e : Nat × Stack) => (e.2.reqs.filter fun m => decide (m.step = t.id)).map fun m => (m.pa / 256, m.write.isSome)
  parts.eraseDups.length + (match t.dst with | some pa => if t.reads = 0 ∧ t.writes = 0 then stepReqs pa t.len else 0 | none => 0)

/-- Requests that an engine of a die has in flight (R269). -/
def engineReqs (s : State) (d : Die) (eng : Nat) : Nat :=
  sumN (d.recs.map fun (e : Nat × XferRec) =>
    if recEngine d e.2 = eng then sumN (e.2.legs.map fun l => sumN (l.steps.map fun t => stepInFlight s t)) else 0)

/-- An engine has room for the requests of a step between two physical addresses (R269). -/
def engineRoom (s : State) (d : Die) (x : XferRec) (n : Nat) (src dst : Option (Nat × Bool)) : Bool :=
  let side (o : Option (Nat × Bool)) : Nat := match o with | some p => stepReqs p.1 n | none => 0
  decide (engineReqs s d (recEngine d x) + Nat.max (side src) (side dst) ≤ 512)

/-- Translation walks in flight on a die (R269). -/
def walksBusy (d : Die) : Nat :=
  sumN (d.recs.map fun (e : Nat × XferRec) => (e.2.legs.filter fun l => l.walk.isSome).length)

/-- A transfer fails at the step that begins at its next byte (R280). -/
def failNext (s : State) (die : Nat) (r : BitVec 9) (l : Leg) (cause : Byte) : State :=
  modRec s die r fun x => failLeg x l.num cause l.next (stepVa x l l.next)

/-- A fault found at the next step: the transfer parks once its earlier steps are written (R297). -/
def faultNext (s : State) (die : Nat) (r : BitVec 9) (l : Leg) (reason : BitVec 3) (dst : Bool) (va : Nat) : State :=
  settleRec (modRec s die r fun x => modLeg x l.num fun l => { l with walk := none, fault := some (reason, dst, BitVec.ofNat 64 va) }) die r

/-- The read side of a step in a tile (R190, R200, R201, R203, R482): a wait, a failure with its record, or the bytes. -/
def readTile (s : State) (x : XferRec) (l : Leg) (off n : Nat) : State × Option (Byte × List Byte) :=
  let (t, v, opnd) := sideOpnd l false off
  let tl := getTile s t
  let no (c : Byte) : State × Option (Byte × List Byte) := (putErr s (tileErr t (some x.job) c v.toNat), some (c, []))
  if !tileTakes s t then (s, some (cDestFenced, []))
  else if !x.world && secureTile s t then (putErr s (worldErr 0 t (tDie t) (some x.job) v.toNat), some (stWorld, []))
  else match opnd with
    | some c => no c
    | none => match opndCheck tl x.job v n 64 with
      | some c => no (accessCause c)
      | none => if readWaits tl v then (s, none) else if opndBad tl v n then no cSpadEcc else (s, some (0, opndRead tl v n))

/-- A step added to the newest leg, which moves on. -/
def addStep (s : State) (die : Nat) (r : BitVec 9) (l : Leg) (t : StepRec) : State :=
  bumpOrd (modRec s die r fun x => modLeg x l.num fun l => { l with next := l.next + t.len, steps := l.steps ++ [t] })

/-- The requests of a step whose sides are translated: reads at the source's stack, or the bytes of a tile (R270, R296). -/
def issueStep (s : State) (die : Fin 12) (r : BitVec 9) (x : XferRec) (l : Leg) (src dst : Option (Nat × Bool)) : State :=
  let off := l.next
  let n := stepLen x l off
  let id := s.net.ord
  let vas := (src.map fun p => (sideVa x l false off, p.2)).toList ++ (dst.map fun p => (sideVa x l true off, p.2)).toList
  let t : StepRec := { id, off, len := n, data := [], reads := n / 64, writes := 0, dst := dst.map (·.1), vas }
  match src with
  | some (pa, _) =>
    if dst.isNone && !tileTakes s (sideOpnd l true off).1 then failNext s die r l cDestFenced
    else
      let rs : List MemReq := (List.range (n / 64)).map fun i =>
        { pa := pa + 64 * i, write := none, die, xrec := r, step := id, idx := i, world := x.world, job := x.job }
      pushReqs (addStep s die r l t) (paStack pa) rs
  | none =>
    match readTile s x l off n with
    | (s, none) => s
    | (s, some (c, bs)) =>
      if c ≠ 0 then failNext s die r l c
      else
        let tile := (sideOpnd l false off).1
        let pa := (dst.map (·.1)).getD 0
        let p := posOf s tile
        let q := memPort (paStack pa) p.col
        match diePath s p.die q.die with
        | some via =>
          if h : paStack pa < 12 then
            let b : Block := { Block.reset with
              kind := .toMem ⟨paStack pa, h⟩, src := tile, dest := tile, job := x.job, world := x.world, payload := bs, pos := p, dst := q, via
              xfer := some (die, r, id), heldSince := s.mod.time }
            if bufFree s p 0 (blkClass b) then addBlk (addStep s die r l { t with reads := 0, data := wrBytes [] 0 bs }) b else s
          else s
        | none => failNext s die r l cDestFenced

/-- TRANSFER_STEP (R296): both sides of the next step are translated; a miss begins a walk, a fault parks, else its requests issue. -/
def execTransferStep (die : Fin 12) (rec : BitVec 9) (s : State) : Host.Outcome State Fault Refusal :=
  .next (
    let d := getDie s die
    let x := getRec d rec
    match lastLeg x with
    | some l =>
      if decide (x.st = .running) && !x.freezing && decide (l.status = 0) && l.walk.isNone && l.fault.isNone && decide (l.next < dTotal l.desc) then
        let side (dst : Bool) : Option Xlate :=
          if dKind l.desc dst = 0 then some (xlate s d x.job l.view (sideVa x l dst l.next) dst) else none
        let pa (o : Option Xlate) : Option (Nat × Bool) := match o with | some (.pa a big) => some (a, big) | _ => none
        let act (dst : Bool) (o : Option Xlate) : Option State :=
          match o with
          | some .miss =>
            some (if walksBusy d < 32 then
                modRec s die rec fun x => modLeg x l.num fun l => { l with walk := some (dst, BitVec.ofNat 64 (sideVa x l dst l.next)) }
              else s)
          | some (.fault f) => some (faultNext s die rec l f dst (sideVa x l dst l.next))
          | some (.fail c) => some (failNext s die rec l c)
          | _ => none
        match act false (side false) with
        | some s => s
        | none => match act true (side true) with
          | some s => s
          | none =>
            let src := pa (side false)
            let dst := pa (side true)
            if engineRoom s d x (stepLen x l l.next) src dst then issueStep s die rec x l src dst else s
      else s
    | none => s)

/-- TRANSLATION_WALK_DONE (R292, R293, R297): a walk ends with a mapping, a fault or a status. -/
def execTranslationWalkDone (die : Fin 12) (rec : BitVec 9) (evict : Nat) (s : State) : Host.Outcome State Fault Refusal :=
  .next (
    let x := getRec (getDie s die) rec
    match lastLeg x with
    | some l =>
      match l.walk with
      | some (dst, va) =>
        if x.st ≠ .running then s
        else
          let (s, res, e) := walk s x.job x.world l.view va.toNat dst
          let s := modRec s die rec fun x => modLeg x l.num fun l => { l with walk := none }
          let s := match e with | some e => modDie s die fun d => tlbInsert d e evict | none => s
          match res with
          | .fault f => faultNext s die rec l f dst va.toNat
          | .fail c => failNext s die rec l c
          | _ => s
      | none => s
    | none => s)

/-! ## Completion (R277-R281, R288, R290) -/

/-- A leg is done: it leaves, and a record whose chain has ended with no leg left is freed (R275, R281). -/
def legDone (s : State) (die : Nat) (r : BitVec 9) (n : Nat) : State :=
  let s := modRec s die r fun x => { x with legs := x.legs.filter fun l => decide (l.num ≠ n) }
  let x := getRec (getDie s die) r
  let more := !x.ended && (if x.reach then decide (x.begun < reachChain (getReach (getDie s die) (x.qid.setWidth 10))) else x.nextOp != 0xFFFFFF)
  let s := if x.legs.isEmpty && !more then freeRecord s die r else s
  settleViews s x.job

/-- The completion record of a transfer (R279). -/
def cplBytes (die : Nat) (r : BitVec 9) (x : XferRec) (l : Leg) : List Byte :=
  let w : BitVec 128 := at' 128 96 (dTag l.desc) ||| at' 128 64 (xferTag die r x)
    ||| at' 128 32 (BitVec.ofNat 32 (if l.status = 0 then dTotal l.desc else l.failAt)) ||| at' 128 24 l.status ||| at' 128 12 x.qid ||| at' 128 11 (b2 x.reach)
  toLE 16 w.toNat

/-- Causes whose transfers write their own record (R310). -/
def ownRecord (c : Byte) : Bool := [cStackGone, cXlateFail, cParkTimeout, cAborted, cDescInvalid, cHbmData].contains c

/-- The completion record is written in the posting tile; a fenced tile drops it with a record (R277, R305). -/
def writeCpl (s : State) (die : Nat) (r : BitVec 9) (x : XferRec) (l : Leg) : State :=
  let v := dCpl l.desc
  if v = 0xFFFFFF then s
  else if !tileTakes s x.tile then putErr s (streamErr die r x l.desc cDestFenced 0 0)
  else match opndCheck (getTile s x.tile) x.job v 16 16 with
    | some c => putErr s (tileErr x.tile (some x.job) (accessCause c) v.toNat)
    | none => opndWrite s x.tile x.job v (cplBytes die r x l)

/-- The tile whose arrival counter a transfer names (R277). -/
def countTile (x : XferRec) (l : Leg) : W16 := if dDstKind l.desc = 0 then x.tile else (sideOpnd l true 0).1

/-- The counter's addition (R277, R305). -/
def countXfer (s : State) (die : Nat) (r : BitVec 9) (x : XferRec) (l : Leg) : State :=
  let t := countTile x l
  if !dAcntEn l.desc then s
  else if tileTakes s t then arriveCount s t (dAcnt l.desc) x.job
  else putErr s (streamErr die r x l.desc cDestFenced 0 0)

/-- The handle is pushed on, its slot drained, or neither; one that an abort discards is dropped, once (R277, R288, R306). -/
def passHandle (s : State) (die : Fin 12) (r : BitVec 9) (x : XferRec) (l : Leg) : State × PushRes :=
  let hand (s : State) : State := modRec s die r fun x => { x with handed := x.reach }
  match l.handle with
  | some h =>
    if l.status = cAborted then (if x.handed then s else hand (dropHandle s die l.htile x.job), .landed)
    else if l.status ≠ 0 then (s, .landed)
    else if dDrain l.desc then (hand (if tileTakes s l.htile then slotDrain s l.htile (fldN h 20 6) else s), .landed)
    else if dOutQ l.desc = 0x1FFF then (s, .landed)
    else
      let (s, res) := pushHandle s die (dOutQ l.desc) x.tile x.job h (.completion die r)
      (hand s, res)
  | none => (s, .landed)

/-- The actions of a transfer's completion, in their order (R277, R280); a push that is held keeps the record (R285). -/
def completeLeg (s : State) (die : Fin 12) (r : BitVec 9) (x : XferRec) (l : Leg) : State :=
  let s := writeCpl s die r x l
  let s := if ownRecord l.status then putErr s { streamErr die r x l.desc l.status 0 l.failInfo with injected := l.failInj } else s
  let s := if l.status = 0 then countXfer s die r x l else s
  match passHandle s die r x l with
  | (s, .held) => modRec s die r fun x => modLeg x l.num fun l => { l with told := true }
  | (s, _) => legDone s die r l.num

/-- A leg has nothing more in flight, and its turn has come: first of its chain, and of its reach's passes (R277, R278). A descriptor whose
bytes are all written completes though a later one of its chain is parked; not while its job is frozen (R303). -/
def completes (s : State) (d : Die) (r : BitVec 9) (x : XferRec) (l : Leg) : Bool :=
  (decide (x.st = .running) || (decide (x.st = .parked ∨ x.st = .preempted) && !(getJob s x.job).frozen))
  && !l.told && l.steps.isEmpty && (decide (l.next = dTotal l.desc) || decide (l.status ≠ 0))
  && (!x.reach || decide ((getReach d (x.qid.setWidth 10)).recs.head? = some r))

/-- TRANSFER_COMPLETE (R277). A completion record that goes through a FULL slot waits (R200). -/
def execTransferComplete (die : Fin 12) (rec : BitVec 9) (s : State) : Host.Outcome State Fault Refusal :=
  .next (
    let d := getDie s die
    let x := getRec d rec
    match x.legs with
    | l :: _ =>
      let v := dCpl l.desc
      if completes s d rec x l && !(v != 0xFFFFFF && tileTakes s x.tile && writeWaits (getTile s x.tile) v 16) then completeLeg s die rec x l else s
    | [] => s)

/-! ## Held pushes (R285) -/

/-- What a push that has landed, or has been dropped, frees in the unit that held it. -/
def pushReleased (s : State) (p : HeldPush) : State :=
  match p.src with
  | .slot t n full =>
    let s := modTile s t fun x => putSlot x n.toNat (let y := getSlot x n.toNat; if full then { y with heldFull := none } else { y with heldEmpty := none })
    if !full && (getSlot (getTile s t) n.toNat).drainWait then slotDrain s t n.toNat else s
  | .completion die r =>
    match (getRec (getDie s die) r).legs.find? (·.told) with
    | some l => legDone s die r l.num
    | none => s
  | .window => s

/-- HANDLE_PUSH_LAND (R285): the oldest push held for a queue lands where a place is free. -/
def execHandlePushLand (die : Fin 12) (queue : BitVec 13) (tile : W16) (s : State) : Host.Outcome State Fault Refusal :=
  .next (
    if bitAt queue 12 then
      let n : BitVec 12 := fld queue 0 12
      let x := getStq (getDie s die) n
      match x.held with
      | p :: rest =>
        if x.st ≠ .frozen ∧ x.handles.length < 64 then
          pushReleased (modDie s die fun d => putStq d n { x with held := rest, handles := x.handles ++ [p.handle] }) p
        else s
      | [] => s
    else
      let n := fldN queue 0 3
      let y := getHq (getTile s tile) n
      match y.held with
      | p :: rest =>
        if y.handles.length < 64 then
          pushReleased (modTile s tile fun x => putHq x n { y with held := rest, handles := y.handles ++ [p.handle] }) p
        else s
      | [] => s)

/-- HANDLE_WINDOW_PUSH (R285): job control pushes a handle. -/
def execHandleWindowPush (_w : Writer) (die : Fin 12) (queue : BitVec 13) (tile : W16) (handle : W32) (s : State) : Host.Outcome State Fault Refusal :=
  .next (
    let j := if bitAt queue 12 then stqOwner (getStq (getDie s die) (fld queue 0 12)) else hqOwner (getHq (getTile s tile) (fldN queue 0 3))
    setStatus (pushHandle s die queue tile j handle .window).1 stOk)

/-! ## Resolving parked transfers (R298-R300, R303) -/

/-- A record is parked, and for what (R297, R303). -/
def isParked (x : XferRec) : Bool := decide (x.st = .parked ∨ x.st = .preempted)

/-- A parked transfer resumes from its restart offset (R298). -/
def resumeRec (s : State) (die : Nat) (r : BitVec 9) : State := modRec s die r fun x => { x with st := .running, ctl := none }

/-- A parked transfer fails with a status, CPL.DONE its restart offset (R298, R299). -/
def failParked (s : State) (die : Nat) (r : BitVec 9) (cause : Byte) : State :=
  modRec s die r fun x =>
    match lastLeg x with
    | some l => { failLeg x l.num cause l.next (stepVa x l l.next) with st := .running, ctl := none }
    | none => x

/-- A tag names a parked transfer of a die (R298). -/
def tagNames (s : State) (die : Fin 12) (tag : W32) : Bool :=
  let x := getRec (getDie s die) (fld tag 0 9)
  decide (fldN tag 9 4 = die.val ∧ fldN tag 13 11 = 0) && isParked x && decide (fld tag 24 8 = x.gen)

/-- The action of STREAM.FAULT_CTL on a parked transfer; while its job is frozen it is recorded (R298, R303). -/
def resolveXfer (s : State) (die : Nat) (r : BitVec 9) (resume : Bool) : State :=
  if (getJob s (getRec (getDie s die) r).job).frozen then
    modRec s die r fun x => { x with ctl := some resume, reason := if resume then fPreempted else x.reason }
  else if resume then resumeRec s die r
  else failParked s die r cXlateFail

/-- STREAM.CFG.PARK_LIMIT of a die in ns; 0 is no limit (R308). -/
def parkLimit (d : Die) : Nat := 1000000 * fldN d.stream.cfg 16 16

/-- PARK_TIMEOUT (R299). -/
def execParkTimeout (die : Fin 12) (rec : BitVec 9) (s : State) : Host.Outcome State Fault Refusal :=
  .next (
    let d := getDie s die
    let x := getRec d rec
    let lim := parkLimit d
    if isParked x ∧ !(getJob s x.job).frozen ∧ lim ≠ 0 ∧ x.parkedAt.toNat + lim ≤ now s then failParked s die rec cParkTimeout else s)

/-- STREAM_BLOCK_PARK_TIMEOUT (R280): a stream block has waited too long on a FULL slot. PARK_LIMIT does not run while its job is frozen
(R303). -/
def execStreamBlockParkTimeout (blk : Nat) (s : State) : Host.Outcome State Fault Refusal :=
  .next (match getBlk s blk with
    | some b =>
      match b.kind, b.xfer, b.slotWait with
      | .toTile, some (die, _, _), some t =>
        let lim := parkLimit (getDie s die)
        if lim ≠ 0 ∧ t.toNat + lim ≤ now s ∧ !(getJob s b.job).frozen then
          putErr (loseBlk s blk b cSlotTimeout) (tileErr b.dest (some b.job) cSlotTimeout b.daddr.toNat)
        else s
      | _, _, _ => s
    | none => s)

/-! ## Drains and aborts (R306) -/

/-- A record aborted: every descriptor not complete fails with ABORTED, or with another cause (R306, R468). One whose bytes are all written
is complete (R277). -/
def abortRec (s : State) (die : Nat) (r : BitVec 9) (cause : Byte) : State :=
  modRec s die r fun x =>
    if x.st = .free then x
    else
      let x := if x.begun = 0 then
          let l : Leg :=
            { num := 0, desc := x.desc, handle := none, htile := 0, view := 0, viewEp := 0, next := 0, steps := [], status := cause, failAt := 0,
              failInfo := 0, failInj := false, walk := none, fault := none, told := false }
          { x with begun := 1, legs := [l] }
        else x
      let x := x.legs.foldl (fun x l =>
        if l.told || legWritten l then x
        else let off := ((l.steps.map (·.off)).foldl Nat.min l.next); failLeg x l.num cause off (stepVa x l off)) x
      { x with st := .running, ended := true, freezing := false, ctl := none }

/-- Records of an object aborted. -/
def abortRecs (s : State) (die : Nat) (rs : List (BitVec 9)) (cause : Byte) : State :=
  rs.foldl (fun s r => sweepRec (abortRec s die r cause) die r) s

/-- Every push held for a queue is dropped (R285, R306). -/
def dropHeld (s : State) (die : Nat) (t : W16) (ps : List HeldPush) : State :=
  ps.foldl (fun s p => pushReleased (dropHandle s die t p.job) p) s

/-- ABORT of a stream queue context (R306). -/
def abortStq (s : State) (die : Nat) (q : BitVec 12) : State :=
  let x := getStq (getDie s die) q
  if stqKind x = 0 then
    let s := modDie s die fun d => putStq d q { x with st := .aborting, since := s.mod.time }
    modDie (abortRecs s die x.recs cAborted) die fun d => settleStqP d q
  else
    let s := modDie s die fun d => putStq d q { x with st := .disabled, cfg := setFld x.cfg 63 1 0, handles := [], held := [] }
    let s := x.handles.foldl (fun s _ => dropHandle s die (stqTile x) (stqOwner x)) s
    dropHeld s die (stqTile x) x.held

/-- DRAIN of a stream queue context (R306); one that is FROZEN drains when its job is loaded again (R303). -/
def drainStq (s : State) (die : Nat) (q : BitVec 12) : State :=
  let x := getStq (getDie s die) q
  let s := modDie s die fun d => putStq d q
    { x with st := if x.st = .frozen then .frozen else .draining, thawTo := .draining, since := s.mod.time, held := [] }
  let s := dropHeld s die (stqTile x) x.held
  settleStqH (modDie s die fun d => settleStqP d q) die q

/-- ABORT of a reach (R306). -/
def abortReach (s : State) (die : Nat) (n : BitVec 10) (cause : Byte) : State :=
  let x := getReach (getDie s die) n
  let s := modDie s die fun d => putReach d n { x with st := .aborting, since := s.mod.time }
  modDie (abortRecs s die x.recs cause) die fun d => settleReach d n

/-- DRAIN of a reach (R306), as of a stream queue context. -/
def drainReach (s : State) (die : Nat) (n : BitVec 10) : State :=
  modDie s die fun d =>
    let y := getReach d n
    settleReach (putReach d n { y with st := if y.st = .frozen then .frozen else .draining, thawTo := .draining, since := s.mod.time }) n

/-- ABORT of a tile handle queue (R306). -/
def abortHq (s : State) (t : W16) (n : Nat) : State :=
  let y := getHq (getTile s t) n
  let s := modTile s t fun x => putHq x n { y with draining := false, cfg := setFld y.cfg 31 1 0, handles := [], held := [] }
  let s := y.handles.foldl (fun s _ => dropHandle s (tDie t) t (hqOwner y)) s
  dropHeld s (tDie t) t y.held

/-- DRAIN of a tile handle queue (R306). -/
def drainHq (s : State) (t : W16) (n : Nat) : State :=
  let y := getHq (getTile s t) n
  let s := modTile s t fun x => putHq x n { y with draining := true, since := s.mod.time, held := [] }
  settleHq (dropHeld s (tDie t) t y.held) t n

/-- A command on a stream object that is DISABLED has nothing to act on. -/
def stqOn (s : State) (die : Nat) (q : BitVec 12) : Bool := decide ((getStq (getDie s die) q).st ≠ .disabled)
def reachLive (s : State) (die : Nat) (n : BitVec 10) : Bool := decide ((getReach (getDie s die) n).st ≠ .disabled)
def hqOn (s : State) (t : W16) (n : Nat) : Bool := hqEnabled (getHq (getTile s t) n)

/-- STQ_DRAIN (R306). -/
def execStqDrain (_w : Writer) (die : Fin 12) (qid : BitVec 12) (s : State) : Host.Outcome State Fault Refusal :=
  .next (finish (dieReg s die fun s => (if stqOn s die qid then drainStq s die qid else s, stOk)))

/-- STQ_ABORT (R306). -/
def execStqAbort (_w : Writer) (die : Fin 12) (qid : BitVec 12) (s : State) : Host.Outcome State Fault Refusal :=
  .next (finish (dieReg s die fun s => (if stqOn s die qid then abortStq s die qid else s, stOk)))

/-- REACH_DRAIN (R306). -/
def execReachDrain (_w : Writer) (die : Fin 12) (reach : BitVec 10) (s : State) : Host.Outcome State Fault Refusal :=
  .next (finish (dieReg s die fun s => (if reachLive s die reach then drainReach s die reach else s, stOk)))

/-- REACH_ABORT (R306). -/
def execReachAbort (_w : Writer) (die : Fin 12) (reach : BitVec 10) (s : State) : Host.Outcome State Fault Refusal :=
  .next (finish (dieReg s die fun s => (if reachLive s die reach then abortReach s die reach cAborted else s, stOk)))

/-- HQ_DRAIN (R306). -/
def execHqDrain (_w : Writer) (tile : W16) (hq : BitVec 3) (s : State) : Host.Outcome State Fault Refusal :=
  onTile tile s fun s => finish (tileReg s tile fun s => (if hqOn s tile hq.toNat then drainHq s tile hq.toNat else s, stOk))

/-- HQ_ABORT (R306). -/
def execHqAbort (_w : Writer) (tile : W16) (hq : BitVec 3) (s : State) : Host.Outcome State Fault Refusal :=
  onTile tile s fun s => finish (tileReg s tile fun s => (if hqOn s tile hq.toNat then abortHq s tile hq.toNat else s, stOk))

/-- STREAM.CFG.DRAIN_LIMIT has passed since a time; 0 never passes (R306, R308). -/
def drainPast (s : State) (die : Nat) (since : W64) : Bool :=
  let n := fldN (getDie s die).stream.cfg 0 16
  decide (n ≠ 0) && decide (since.toNat + 100000 * n ≤ now s)

/-- What remains of every object of the die whose DRAIN has run past the limit is aborted (R306). -/
def drainLimit (s : State) (die : Nat) : State :=
  let d := getDie s die
  let s1 := (d.stq.filter fun (e : Nat × Stq) => decide (e.2.st = .draining) && drainPast s die e.2.since).foldl
    (fun s e => abortStq s die (BitVec.ofNat 12 e.1)) s
  let s2 := (d.reach.filter fun (e : Nat × Reach) => decide (e.2.st = .draining) && drainPast s die e.2.since).foldl
    (fun s e => abortReach s die (BitVec.ofNat 10 e.1) cAborted) s1
  (s.tiles.filter fun (e : Nat × Tile) => decide (e.1 / 2048 = die)).foldl (fun s' e =>
    (e.2.hqs.filter fun (q : Nat × Hq) => q.2.draining && drainPast s die q.2.since).foldl (fun s q => abortHq s (BitVec.ofNat 16 e.1) q.1) s') s2

/-- WINDOW_POST (R274, R480): job control posts a descriptor for the owner of a context, with the world of its writer; the posting tile is
STQ.CFG.TILE. A post that finds no free record completes with the busy status. -/
def execWindowPost (w : Writer) (die : Fin 12) (qid : BitVec 12) (desc : BitVec 512) (s : State) : Host.Outcome State Fault Refusal :=
  .next (
    let d := getDie s die
    let x := getStq d qid
    finish (match postCheck d qid (stqOwner x) with
      | some c => (s, c)
      | none => if (postFree d x).isNone then (s, stBusy) else (postDesc s die qid (stqTile x) (stqOwner x) (secureWriter w) desc, stOk)))

end Sys2Proof.Machine
end

