-- ==== Sys2Proof/Machine/Block.lean ====
section
/-!
DEFINITION. Blocks in the network: forwarding, and their writing at receiving tiles (R220-R228, R233, R574).
-/
namespace Sys2Proof.Machine
open Sys2Proof

/-- SEND.ACNT of a block counted at a tile, or its transfer's step acknowledged (R193, R222, R277). -/
def blockCounts (s : State) (t : W16) (b : Block) : State :=
  let s := if b.acntEn then arriveCount s t b.acnt.toNat b.job else s
  match b.xfer with
  | some (die, r, id) => stepGone s die.val r id
  | none => s

/-- A copy of a block leaves its router's input: the block itself, or the LOCAL copy of a CAST block (R233). -/
def copyGone (s : State) (i : Nat) (b : Block) : State :=
  if b.kind = .cast then castSettle s i { b with taken := b.taken ++ [0], slotWait := none } else dropBlk s i

/-- A block that fails a check is not written: counted in XCH.DROPPED, recorded; its transfer fails (R222, R280). -/
def blockRefused (s : State) (t : W16) (i : Nat) (b : Block) (cause : Byte) : State :=
  let s := modTile s t fun x => { x with regs := { x.regs with dropped := x.regs.dropped + 1 } }
  let s := putErr s (if cause = stWorld then worldErr 0 t (tDie t) (some b.job) b.daddr.toNat else
    { tileErr t (some b.job) cause b.daddr.toNat with injected := b.injected })
  match b.xfer with
  | some (die, r, id) => stepFails (dropBlk s i) die.val r id cause none
  | none => copyGone s i b

/-- A block with a bad flit (R574): bytes before it may have been written, how many flits is open; no count, a SPAD_ECC marker. -/
def badBlock (s : State) (t : W16) (i : Nat) (b : Block) (bad : Nat) : State :=
  let (f, s) := freshWord s
  let n := f.toNat % (bad + 1)
  let s := if n = 0 then s else opndWrite s t b.job b.daddr (b.payload.take (64 * n))
  markTiles (copyGone s i b) b [t] cSpadEcc

/-- What the receiving tile does with a block that has arrived (R222, R228). A block of a transfer that waited on a FULL slot when its job was
unloaded waits on (R303, log entry 66). -/
def deliver (s : State) (t : W16) (i : Nat) (b : Block) : State :=
  let x := getTile s t
  if !tileTakes s t then
    let e := routerErr s cDestFenced 1 b.pos b 0
    if b.kind = .cast then copyGone (putErr s e) i b else putErr (loseBlk s i b cDestFenced) e
  else if b.xfer.isSome ∧ (getJob s b.job).st = .saved then putBlk s i { b with slotWait := some (b.slotWait.getD s.mod.time) }
  else match opndCheck x b.job b.daddr b.payload.length 64 with
    | some c => blockRefused s t i b (accessCause c)
    | none =>
      if !b.world && secureTile s t then blockRefused s t i b stWorld
      else if writeWaits x b.daddr b.payload.length then putBlk s i { b with slotWait := some (b.slotWait.getD s.mod.time) }
      else match b.bad with
        | some n => badBlock s t i b n
        | none => copyGone (blockCounts (opndWrite (meetFlitFault s b 0 b.pos 0) t b.job b.daddr b.payload) t b) i b

/-- A block in a router, not at an end of a die-to-die link. -/
def atRouter (b : Block) : Bool := decide (b.inPort < atMemPort)

/-- The tile at which a block has arrived: its destination, the END tile of a sum, or a leaf of its tree that has not taken it. -/
def arrivedAt (s : State) (b : Block) : Option W16 :=
  match b.kind with
  | .put | .toTile => if b.pos = b.dst ∧ b.dmod = 0 ∧ atRouter b then some b.dest else none
  | .cast =>
    if atRouter b && routeOut (routeAtPos s b.pos b.tree) 0 && !b.taken.contains 0 && !isPruned s b 0 then tileAt s b.pos else none
  | .add => if b.dmod = 0 ∧ b.inPort = atSum then some b.dest else none
  | _ => none

/-- A block of the same class for the tile waits on a FULL slot (R223). -/
def waitsBehind (s : State) (i : Nat) (t : W16) (b : Block) : Bool :=
  s.net.blocks.any fun e => decide (e.1 ≠ i) && e.2.slotWait.isSome && decide (blkClass e.2 = blkClass b) && decide (arrivedAt s e.2 = some t)

/-- BLOCK_WRITE (R222): a block that has arrived is checked, written and counted, or dropped; on a FULL slot it begins to wait, and later blocks for
the tile in its class with it (R223). -/
def execBlockWrite (blk : Nat) (s : State) : Host.Outcome State Fault Refusal :=
  .next (match getBlk s blk with
    | some b =>
      match arrivedAt s b with
      | some t => if b.slotWait.isNone && !waitsBehind s blk t b then deliver s t blk b else s
      | none => s
    | none => s)

/-- BLOCK_SLOT_RESUME (R200): a block that waits on a FULL slot proceeds once it may. -/
def execBlockSlotResume (blk : Nat) (s : State) : Host.Outcome State Fault Refusal :=
  .next (match getBlk s blk with
    | some b =>
      match arrivedAt s b with
      | some t => if b.slotWait.isSome then deliver s t blk b else s
      | none => s
    | none => s)

/-- A step's block at its memory port becomes write requests at the stack (R270). -/
def landInMemory (s : State) (i : Nat) (b : Block) (stack : Nat) : State :=
  match b.xfer with
  | some (die, r, id) =>
    let s := dropBlk s i
    let x := getRec (getDie s die) r
    match findStep x id with
    | some (_, t) =>
      if stackUp s stack then
        pushReqs (modRec s die r fun x => modStep x id fun t => { t with writes := t.len / 64 }) stack
          (writeReqs die r x id (t.dst.getD 0) b.payload)
      else stepFails s die r id cStackGone none
    | none => s
  | none => dropBlk s i

/-- A block at the memory port or a port bridge enters its router, behind the earlier steps of its transfer or the earlier blocks of its source
for its destination (R210, R221, R229). -/
def enterMesh (s : State) (i : Nat) (b : Block) : State :=
  let first := match b.xfer with
    | some (die, r, id) =>
      match findStep (getRec (getDie s die) r) id with
      | some (l, _) => decide (l.steps.head?.map (·.id) = some id)
      | none => true
    | none => s.net.blocks.all fun e => decide (i ≤ e.1) || !(e.2.xfer.isNone && decide (e.2.inPort = atMemPort) && decide (e.2.pos = b.pos)
        && decide (e.2.src = b.src) && decide (e.2.dest = b.dest))
  let inp := if b.xfer.isSome then inMemPort else if dieCol b.pos.die = 0 then 3 else 4
  if first && bufFree s b.pos inp (blkClass b) then putBlk s i { b with inPort := inp, heldSince := s.mod.time } else s

/-- A block at its port bridge enters the exchange lane of its port (R229, R349). -/
def enterPort (s : State) (i : Nat) (b : Block) : State :=
  let k := b.dmod.toNat
  let port := peerPort s k b.src b.dest
  if (getPort s port).st = .off ∨ (getPort s port).st = .down ∨ (getPort s port).st = .stopping ∨ !peerConfigured s k then s
  else pushPkt (dropBlk s i) port (.exch b)

/-- A CAST port toward a lost die or a closed edge drops its copy there: DEST_FENCED, or LINK_DROP with its markers (R227, R426). -/
def castClosed (s : State) (i : Nat) (b : Block) : Option State :=
  let shut (o : Nat) : Bool := decide (o ≠ 0) && !b.taken.contains o && !isPruned s b o && (match neighbour b.pos o with
    | some (q, _) => decide (q.die ≠ b.pos.die) && !crossable s b.pos.die q.die
    | none => true)
  ((outPorts (routeAtPos s b.pos b.tree)).find? shut).map fun o =>
    let lost := match neighbour b.pos o with | some (q, _) => !dieReady s q.die | none => true
    let s := if lost then putErr s (routerErr s cDestFenced 1 b.pos b o)
      else markTiles (putErr s (routerErr s cLinkDrop 2 b.pos b o)) b (leavesBeyond s b.tree b.pos o) cLinkDrop
    castSettle s i { b with taken := b.taken ++ [o] }

/-- ROUTER_FORWARD (R221, R226-R229, R233): one stage of a block: into its router, over a die-to-die link, through the router's output, into its port or
memory port at the end of its route. An ADD block waits for its round, a sum for its writing. -/
def execRouterForward (blk : Nat) (s : State) : Host.Outcome State Fault Refusal :=
  .next (match getBlk s blk with
    | some b =>
      if b.inPort = atMemPort then enterMesh s blk b
      else match linkPort b with
      | some (port, sending) => forwardLink s blk b port sending
      | none => match b.kind with
        | .cast => (castClosed s blk b).getD (forwardCast s blk b)
        | .toMem n => if b.pos = b.dst then landInMemory s blk b n.val else forwardUni s blk b
        | .add => if b.dmod = 0 then s else if b.pos = b.dst then enterPort s blk b else forwardUni s blk b
        | .put | .toTile => if b.pos = b.dst then (if b.dmod = 0 then s else enterPort s blk b) else forwardUni s blk b
    | none => s)

/-- The number by which the model counts the drops of a mesh link (R464): its receiving router and input port. -/
def linkCode (p : Pos) (inPort : Nat) : Nat := (halfNo p.die p.h1 * 768 + p.row * 24 + p.col) * 8 + inPort

/-- The edge whose link a block came over last, or stands at (R220, R425). -/
def cameOver (b : Block) : Option Nat :=
  let port := match linkPort b with | some (port, _) => port | none => b.inPort
  (neighbour b.pos port).bind fun (q, _) => if q.die = b.pos.die then none else some (edgeNo b.pos.die q.die)

/-- MESH_CRC or LINK_DROP at a router (R220): a first error is cleared by a resend, which leaves only its record; a second drops the block with a marker to each
receiving tile. -/
def flitError (s : State) (blk : Nat) (b : Block) (again : Bool) : State :=
  let s := putErr s (routerErr s cMeshCrc 0 b.pos b (detPort b))
  if again then
    let ts := receivers s b
    let s := { s with log := { s.log with dropTimes := s.log.dropTimes ++ [(linkCode b.pos b.inPort, s.mod.time)] } }
    markTiles (putErr (loseBlk s blk b cLinkDrop) (routerErr s cLinkDrop 2 b.pos b (detPort b))) b ts cLinkDrop
  else s

end Sys2Proof.Machine
end

