-- ==== Sys2Proof/Machine/Vector.lean ====
section
/-!
DEFINITION. The vector classes: VALU (R154) and VMEM (R155).
-/
namespace Sys2Proof.Machine
open Sys2Proof

/-- Bits of a lane: 8, 16, 32 or 64 (R154). -/
def laneBits (lw : BitVec 2) : Nat := 8 * 2 ^ lw.toNat
/-- Number of lanes. -/
def laneCount (lw : BitVec 2) : Nat := 64 / 2 ^ lw.toNat
/-- Lane i of a register. -/
def laneAt (lw : BitVec 2) (v : BitVec 512) (i : Nat) : Nat := fldN v (i * laneBits lw) (laneBits lw)
/-- All lanes, lane 0 first. -/
def lanes (lw : BitVec 2) (v : BitVec 512) : List Nat := (List.range (laneCount lw)).map (laneAt lw v)
/-- A register from its lanes. -/
def packLanes (lw : BitVec 2) (l : List Nat) : BitVec 512 :=
  BitVec.ofNat 512 (l.foldr (fun x acc => x % 2 ^ laneBits lw + 2 ^ laneBits lw * acc) 0)

/-- A lane's signed reading. -/
def laneS (lw : BitVec 2) (n : Nat) : Int := sgn (laneBits lw) n

/-- A clamped sum or difference, and -1, 0 or 1 as it clamped low, not, or high (R154, R46). -/
def laneClamp (lw : BitVec 2) (x : Int) : Nat × Int :=
  let h : Int := 2 ^ (laneBits lw - 1)
  if x < -h then (toBits (laneBits lw) (-h), -1)
  else if h - 1 < x then (toBits (laneBits lw) (h - 1), 1)
  else (toBits (laneBits lw) x, 0)

/-- x / 2^n rounded to nearest with ties to even. -/
def rneShift (x : Int) (n : Nat) : Int :=
  let q := x / (2 ^ n : Nat)
  let r := x % (2 ^ n : Nat)
  if 2 * r < (2 ^ n : Nat) then q else if 2 * r > (2 ^ n : Nat) then q + 1 else if q % 2 = 0 then q else q + 1

/-- One lane of an operation with lane operands a and b, old destination d and shift sh: the result, and how it clamped (R154).
None: no such operation. -/
def laneOp (op : BitVec 6) (lw : BitVec 2) (sh : Nat) (a b d : Nat) : Option (Nat × Int) :=
  let w := laneBits lw
  let sa := laneS lw a
  let sb := laneS lw b
  let plain (n : Nat) : Option (Nat × Int) := some (n % 2 ^ w, 0)
  let int (x : Int) : Option (Nat × Int) := some (toBits w x, 0)
  let flag (t : Bool) : Option (Nat × Int) := some (if t then 2 ^ w - 1 else 0, 0)
  match op.toNat with
  | 0x00 => int (sa + sb)
  | 0x01 => int (sa - sb)
  | 0x02 => some (laneClamp lw (sa + sb))
  | 0x03 => some (laneClamp lw (sa - sb))
  | 0x04 => int (sa * sb)
  | 0x05 => int ((sa * sb) / (2 ^ w : Nat))
  | 0x06 => int (if sa < sb then sa else sb)
  | 0x07 => int (if sa < sb then sb else sa)
  | 0x08 => plain (a &&& b)
  | 0x09 => plain (a ||| b)
  | 0x0A => plain (a ^^^ b)
  | 0x0B => plain (a * 2 ^ sh)
  | 0x0C => int (sa / (2 ^ sh : Nat))
  | 0x0D => plain (a / 2 ^ sh)
  | 0x0E => int (rneShift sa sh)
  | 0x10 => flag (decide (a = b))
  | 0x11 => flag (decide (sa < sb))
  | 0x12 => plain (if d ≠ 0 then a else b)
  | 0x15 => plain a
  | _ => none

/-- Saturated lanes counted in TILE.SAT_COUNT with their sign bits in TILE.CVT_STATUS (R46, R154). -/
def satNote (t : W16) (pos neg : Nat) (s : State) : State :=
  if pos + neg = 0 then s
  else modTile s t fun x =>
    { x with regs := { x.regs with
        satCount := x.regs.satCount + BitVec.ofNat 64 (pos + neg),
        cvtStatus := x.regs.cvtStatus ||| (if pos = 0 then 0 else 2) ||| (if neg = 0 then 0 else 4) } }

/-- The lanes of the second operand: vB, or gS in every lane under BC (R154). -/
def secondLanes (c : Ctx) (a : VArg) : List Nat :=
  if a.bc then List.replicate (laneCount a.lw) ((getG c a.gs).toNat % 2 ^ laneBits a.lw) else lanes a.lw (getV c a.vb)

/-- The sum of a register's lanes, written to gS (R154). -/
def redAdd (a : VArg) (v : BitVec 512) : W64 := BitVec.ofInt 64 (sumI ((lanes a.lw v).map (laneS a.lw)))
/-- The largest signed lane, sign-extended. -/
def redMax (a : VArg) (v : BitVec 512) : W64 :=
  let l := (lanes a.lw v).map (laneS a.lw)
  BitVec.ofInt 64 (l.foldl (fun m y => if m < y then y else m) (l.headD 0))

/-- A VALU slot (R154). -/
def evalValu (t : W16) (c : Ctx) (op : BitVec 6) (a : VArg) : SlotRes :=
  if laneBits a.lw ≤ a.sh.toNat then excRes cIllegalOp 0
  else if op.toNat = 0x13 ∨ op.toNat = 0x14 then
    if a.bc then excRes cIllegalOp 0
    else { gW := some (a.gs, if op.toNat = 0x13 then redAdd a (getV c a.va) else redMax a (getV c a.va)) }
  else
    let rs := (List.range (laneCount a.lw)).map fun i =>
      laneOp op a.lw a.sh.toNat (laneAt a.lw (getV c a.va) i) (nth 0 (secondLanes c a) i) (laneAt a.lw (getV c a.vd) i)
    if rs.any (·.isNone) then excRes cIllegalOp 0
    else
      let l : List (Nat × Int) := rs.map fun r => r.getD (0, 0)
      { vW := some (a.vd, packLanes a.lw (l.map (·.1))),
        act := satNote t (l.filter fun r => decide (r.2 = 1)).length (l.filter fun r => decide (r.2 = -1)).length }

/-- The check of a 64-byte access (R155). -/
def vmemCheck (x : Tile) (j : BitVec 2) (a : W64) : Option (Byte × W64) := memCheck x j a 64

/-- Lane LANE of a register replaced. -/
def putLane (lw : BitVec 2) (v : BitVec 512) (i : Nat) (n : Nat) : BitVec 512 := setFld v (i * laneBits lw) (laneBits lw) n

/-- A lane move (R155): LANE below the lane count, OFF zero. -/
def laneMove (lw : BitVec 2) (lane : BitVec 6) (off : W32) (r : SlotRes) : SlotRes :=
  if laneCount lw ≤ lane.toNat ∨ off ≠ 0 then excRes cIllegalOp 0 else r

/-- A VMEM slot (R155). -/
def evalVmem (x : Tile) (j : BitVec 2) (c : Ctx) (op : BitVec 6) (v : BitVec 4) (gA : BitVec 5) (lw : BitVec 2)
    (lane : BitVec 6) (off : W32) : SlotRes :=
  let a := memAddr c gA off
  match op.toNat with
  | 0x00 =>
    match vmemCheck x j a with
    | some e => { exc := some e }
    | none =>
      if spadBad x a.toNat 64 then excRes cSpadEcc a
      else { vW := some (v, BitVec.ofNat 512 (leNat (spadRead x a.toNat 64))) }
  | 0x01 =>
    match vmemCheck x j a with
    | some e => { exc := some e }
    | none => { store := some (a.toNat, toLE 64 (getV c v).toNat) }
  | 0x02 => laneMove lw lane off { gW := some (gA, BitVec.ofInt 64 (laneS lw (laneAt lw (getV c v) lane.toNat))) }
  | 0x03 => laneMove lw lane off { gW := some (gA, BitVec.ofNat 64 (laneAt lw (getV c v) lane.toNat)) }
  | 0x04 => laneMove lw lane off { vW := some (v, putLane lw (getV c v) lane.toNat (getG c gA).toNat) }
  | 0x05 => laneMove lw lane off
      { vW := some (v, packLanes lw (List.replicate (laneCount lw) ((getG c gA).toNat % 2 ^ laneBits lw))) }
  | _ => excRes cIllegalOp 0

end Sys2Proof.Machine
end

