-- ==== Sys2Proof/Machine/Formats.lean ====
section
/-!
DEFINITION. Integer formats, scale strips and conversions (chapter 2), and the generator (R62).
-/
namespace Sys2Proof.Machine
open Sys2Proof

/-! ## Format words (R25, R26, R33-R35) -/

/-- FMT_INVALID, FMT_UNSET_SCALE, FMT_ROW_SHAPE (R49). -/
def cFmtInvalid : Byte := 0x20
def cFmtUnset : Byte := 0x21
def cFmtRow : Byte := 0x22
/-- BLOCK_SHAPE (R176). -/
def cBlockShape : Byte := 0x0A

def fmtCode (f : W16) : Nat := fldN f 0 4
def fmtBlock (f : W16) : Nat := fldN f 4 3
def fmtExp (f : W16) : Byte := fld f 8 8

/-- Bits per element (R25). -/
def elemBits (code : Nat) : Nat :=
  match code with
  | 0 => 2 | 1 | 2 => 4 | 3 | 4 | 12 => 8 | 5 | 6 => 16 | 7 | 14 => 24 | 8 | 9 | 10 => 32 | 11 => 64 | 13 => 1 | _ => 0

/-- Signed formats. -/
def fmtSigned (code : Nat) : Bool := [0, 1, 3, 5, 7, 8, 10, 11, 12, 14].contains code

/-- Formats whose scale may be per block (R26). -/
def fmtBlocks (code : Nat) : Bool := [0, 1, 2, 3, 4, 5, 7].contains code

/-- Elements of a block; 0 when per tensor (R34). -/
def blockElems (f : W16) : Nat := if fmtBlock f = 0 then 0 else 8 * 2 ^ fmtBlock f

/-- A valid format word (R35). -/
def fmtValid (f : W16) : Bool :=
  decide (fmtCode f ≠ 15) && decide (fmtBlock f ≤ 5) && !bitAt f 7 && (decide (fmtBlock f = 0) || fmtBlocks (fmtCode f))

/-- The produced range of a conversion target (R26). -/
def prodLo (code : Nat) : Int := if fmtSigned code then -(2 ^ (elemBits code - 1) - 1) else 0
def prodHi (code : Nat) : Int := if fmtSigned code then 2 ^ (elemBits code - 1) - 1 else 2 ^ elemBits code - 1

/-- The formats a conversion can write (R45). -/
def cvtTarget (code : Nat) : Bool := decide (code ≤ 9)

/-- Bytes of a row of n elements (R29). -/
def rowBytes (code n : Nat) : Nat := (n * elemBits code + 7) / 8

/-- Strip bytes of one row. -/
def stripRow (f : W16) (n : Nat) : Nat := if blockElems f = 0 then 0 else n / blockElems f

/-- A block-scaled row whose length is not a multiple of the block size (R36). -/
def rowShapeBad (f : W16) (n : Nat) : Bool := decide (blockElems f ≠ 0) && decide (n % blockElems f ≠ 0)

/-! ## Elements (R26-R30) -/

/-- An element's value from its bits. The T2 code 0b10 reads as 0 (R27); the X8 code UNSET has no value as an element, and
reads as a free one (log entry 3). -/
def elemVal (code bits : Nat) : Int :=
  if code = 0 ∧ bits = 2 then 0
  else if code = 12 ∧ bits = 0x80 then (Config.freeWord 0).toInt
  else if fmtSigned code then sgn (elemBits code) bits else bits

/-- The element bits of a row, element 0 in the low bits (R28, R29). -/
def rowBits (code : Nat) (bs : List Byte) (n : Nat) : List Nat :=
  let v := leNat bs
  (List.range n).map fun i => v / 2 ^ (elemBits code * i) % 2 ^ elemBits code

/-- A row's values. -/
def rowVals (code : Nat) (bs : List Byte) (n : Nat) : List Int := (rowBits code bs n).map (elemVal code)

/-- A row's bytes from its values; unfilled bits are zero (R29). -/
def rowEncode (code : Nat) (l : List Int) : List Byte :=
  let w := elemBits code
  toLE (rowBytes code l.length) (l.foldr (fun x acc => toBits w x + 2 ^ w * acc) 0)

/-- An exponent byte as a number. -/
def expVal (b : Byte) : Int := b.toInt

/-- An element with its exponent. -/
abbrev Elem := Int × Int

/-- Exponents of a row's elements, from the strip bytes of the row or the tensor exponent. -/
def rowExps (f : W16) (strip : List Byte) (n : Nat) : List Int :=
  if blockElems f = 0 then List.replicate n (expVal (fmtExp f))
  else (List.range n).map fun i => expVal (nth 0 strip (i / blockElems f))

/-- A tensor read through operand addresses: its rows of elements with their exponents (R36, R37). -/
def readTensor (x : Tile) (f : W16) (addr strip : BitVec 24) (rows cols : Nat) : List (List Elem) :=
  let rb := rowBytes (fmtCode f) cols
  let sb := stripRow f cols
  (List.range rows).map fun r =>
    (rowVals (fmtCode f) (spadRead x (opndAddr x addr + r * rb) rb) cols).zip
      (rowExps f (if sb = 0 then [] else spadRead x (opndAddr x strip + r * sb) sb) cols)

/-- An A32 tensor, or its pairs where an E24 array is named (R30, R41). -/
def readA32 (x : Tile) (f : W16) (addr shift e24 : BitVec 24) (rows cols : Nat) : List (List Elem) :=
  let e := expVal (fmtExp f)
  (List.range rows).map fun r =>
    let ss := rowVals 10 (spadRead x (opndAddr x addr + r * 4 * cols) (4 * cols)) cols
    let k : Int := (nth 0 (spadRead x (opndAddr x shift + r) 1) 0).toNat % 64
    if e24 = 0xFFFFFF then ss.map fun v => (v, k + e)
    else
      let cs := rowVals 14 (spadRead x (opndAddr x e24 + r * 3 * cols) (3 * cols)) cols
      (ss.zip cs).map fun v => (v.1 * 2 ^ 24 + v.2, k + e - 24)

/-- A T2 element with code 0b10 is read (R27). -/
def hasT2Bad (x : Tile) (f : W16) (addr : BitVec 24) (rows cols : Nat) : Bool :=
  decide (fmtCode f = 0) && (List.range rows).any fun r =>
    (rowBits 0 (spadRead x (opndAddr x addr + r * rowBytes 0 cols) (rowBytes 0 cols)) cols).contains 2

/-- The tensor exponent that an operation reads is UNSET (R32). -/
def unsetTensor (f : W16) : Bool := decide (blockElems f = 0) && decide (fmtExp f = 0x80)

/-- n bytes of a strip hold an UNSET exponent (R32). -/
def unsetStrip (x : Tile) (strip : BitVec 24) (n : Nat) : Bool := (spadRead x (opndAddr x strip) n).contains 0x80

/-! ## Rounding (R40, R41) -/

/-- floor(x / 2^n) for any n; below zero it multiplies. -/
def shiftDown (x : Int) (n : Int) : Int := if 0 ≤ n then x / 2 ^ n.toNat else x * 2 ^ (-n).toNat

/-- round_up of R41 for d > 0, with r the low 32 bits of the draw. -/
def roundUp (q0 f : Int) (d : Nat) (mode r : Nat) : Int :=
  match mode with
  | 0 => if 2 * f > 2 ^ d ∨ (2 * f = 2 ^ d ∧ q0 % 2 ≠ 0) then 1 else 0
  | 1 => if d ≤ 32 then (if ((r % 2 ^ d : Nat) : Int) < f then 1 else 0) else if (r : Int) < f / 2 ^ (d - 32) then 1 else 0
  | 2 => if q0 < 0 ∧ 0 < f then 1 else 0
  | _ => 0

/-- q_s brought from exponent e_s to e_t and rounded, before any clamp; and whether a fraction was discarded (R41). -/
def convRaw (q es et : Int) (mode r : Nat) : Int × Bool :=
  let d := et - es
  if d ≤ 0 then (q * 2 ^ (-d).toNat, false)
  else
    let n := d.toNat
    let q0 := q / 2 ^ n
    let f := q - q0 * 2 ^ n
    (q0 + roundUp q0 f n mode r, decide (f ≠ 0))

/-- The clamp to a target's produced range, and -1, 0 or 1 for a counted saturation: under BLOCK_FIT with the exponent not
clamped (fit) only a negative result for an unsigned target counts (R44, R45). -/
def convClamp (code : Nat) (fit : Bool) (q : Int) : Int × Int :=
  if prodHi code < q then (prodHi code, if fit then 0 else 1)
  else if q < prodLo code then (prodLo code, if fit && fmtSigned code then 0 else -1)
  else (q, 0)

/-- The least bound of a list of elements: the largest bitlen(|q|) + e; NONE where all are zero (R90). -/
def srcBound (l : List Elem) : Option Int :=
  l.foldl (fun (m : Option Int) (v : Elem) => if v.1 = 0 then m else
    let b : Int := (bitlen v.1.natAbs : Int) + v.2
    match m with | none => some b | some y => some (if y < b then b else y)) none

/-- BLOCK_FIT (R43): the exponent, and whether it was clamped. bitlen(m) + e_min is the bound of the block. -/
def fitExp (code : Nat) (l : List Elem) : Int × Bool :=
  match srcBound l with
  | none => (-127, false)
  | some b =>
    let e := b - (if fmtSigned code then (elemBits code : Int) - 1 else elemBits code)
    if 127 < e then (127, true) else if e < -127 then (-127, true) else (e, false)

/-! ## Conversions (R39-R46) -/

/-- What a conversion writes and counts. -/
structure ConvOut where
  rows : List (List Int)
  /-- Target exponents in row-major block order; one for a per-tensor target. -/
  exps : List Int
  pos : Nat
  neg : Nat
  expRange : Bool
  zeroBlock : Bool
  nonzero : Bool
deriving DecidableEq, Repr

/-- The target exponent of a run of elements, whether it was clamped, and whether R44 applies. -/
def pickExp (mode : Nat) (f : W16) (l : List Elem) : Int × Bool × Bool :=
  match mode with
  | 0 => ((l.head?.map (·.2)).getD (expVal (fmtExp f)), false, false)
  | 1 => (expVal (fmtExp f), false, false)
  | _ => let (e, c) := fitExp (fmtCode f) l; (e, c, !c)

/-- A run of elements converted at one exponent, the first at draw index i0. -/
def convRun (f : W16) (rnd : Nat) (draw : Nat → Nat) (i0 : Nat) (et : Int) (fit : Bool) (l : List Elem) : List (Int × Int) :=
  l.mapIdx fun i v => convClamp (fmtCode f) fit (convRaw v.1 v.2 et rnd (draw (i0 + i))).1

/-- One target block or tensor: its results, exponent and marks. -/
def convGroup (f : W16) (mode rnd : Nat) (draw : Nat → Nat) (i0 : Nat) (l : List Elem) : List (Int × Int) × Int × Bool × Bool :=
  let (et, clamped, fit) := pickExp mode f l
  let out := convRun f rnd draw i0 et fit l
  (out, et, clamped, l.any (fun v => decide (v.1 ≠ 0)) && out.all fun v => decide (v.1 = 0))

/-- A conversion of rows of cols elements to format f (R39-R46); draw gives the low 32 bits at an index. -/
def convert (f : W16) (mode rnd : Nat) (draw : Nat → Nat) (cols : Nat) (rows : List (List Elem)) : ConvOut :=
  let flat := rows.flatten
  let size := if blockElems f = 0 then flat.length else blockElems f
  let gs := (chunksOf size (flat.length + 1) flat).mapIdx fun i l => convGroup f mode rnd draw (i * size) l
  let out : List (Int × Int) := gs.flatMap (·.1)
  { rows := chunksOf cols (rows.length + 1) (out.map (·.1))
    exps := gs.map (·.2.1)
    pos := (out.filter fun v => decide (v.2 = (1 : Int))).length
    neg := (out.filter fun v => decide (v.2 = (-1 : Int))).length
    expRange := gs.any (·.2.2.1)
    zeroBlock := gs.any (·.2.2.2)
    nonzero := out.any fun v => decide (v.1 ≠ 0) }

/-- The conversion status of a tile after a conversion (R46, R48). -/
def noteConv (t : W16) (c : ConvOut) (s : State) : State :=
  let bits : W32 := (if c.expRange then 0x10 else 0) ||| (if c.zeroBlock then 0x20 else 0)
  let s := satNote t c.pos c.neg s
  if bits = 0 then s else modTile s t fun x => { x with regs := { x.regs with cvtStatus := x.regs.cvtStatus ||| bits } }

/-- T2_CODE set when an operation read a T2 element 0b10 (R27, R48). -/
def noteT2 (t : W16) (bad : Bool) (s : State) : State :=
  if bad then modTile s t fun x => { x with regs := { x.regs with cvtStatus := x.regs.cvtStatus ||| 8 } } else s

/-- The mode and format words of a conversion fit (R35, R39, R45), source words aside. -/
def cvtWordsOk (dst : W16) (mode : Nat) : Bool :=
  fmtValid dst && cvtTarget (fmtCode dst) && (decide (mode ≠ 1) || decide (fmtBlock dst = 0))

/-! ## The generator (R62) -/

/-- mix of R62. -/
def mix (x : W64) : W64 :=
  let x := x ^^^ (x >>> 32)
  let x := x * 0x8F3A5C21D6E47B09
  let x := x ^^^ (x >>> 29)
  let x := x * 0xC2B619E53F70A8D3
  x ^^^ (x >>> 32)

/-- draw of R62. -/
def drawAt (seed : W64) (tile : W16) (step : W64) (op : W32) (pos : W32) : W64 :=
  let h := mix seed
  let h := mix (h ^^^ tile.setWidth 64)
  let h := mix (h ^^^ step)
  mix (h ^^^ ((op.setWidth 64 <<< 32) ^^^ pos.setWidth 64))

/-- The low 32 bits of the draw at a position, for an engine operation of tile t (R41, R62). -/
def drawFor (o : EngOp) (t : W16) (pos : Nat) : Nat := fldN (drawAt o.rngSeed t o.rngStep o.rngOp (BitVec.ofNat 32 pos)) 0 32

end Sys2Proof.Machine
end

