-- ==== Sys2Proof/Machine/Engine.lean ====
section
/-!
DEFINITION. The queues of the press, the conversion unit and the wide unit: order, waits, refusals, completion (R161-R166, R178, R200, R202).
-/
namespace Sys2Proof.Machine
open Sys2Proof

/-! ## Stops of a context that count for its job -/

/-- A precise exception, after which a PAUSING job may be PAUSED (R141, R177, R400). -/
def excPrecise (s : State) (t : W16) (j : BitVec 2) (eng : Bool) (cause : Byte) (info : W64) : State :=
  checkPaused (raisePrecise s t j eng cause info) j

/-- A deferred exception, after which a PAUSING job may be PAUSED (R178, R400). -/
def excDeferred (s : State) (t : W16) (j : BitVec 2) (eng : Bool) (cause : Byte) (pc info : W64) (injected : Bool) : State :=
  checkPaused (raiseDeferred s t j eng cause pc info injected) j

/-! ## Queues -/

/-- The queue of a unit. -/
def unitQ (x : Tile) (u : EngUnit) : List EngOp := match u with | .press => x.eng.press | .conv => x.eng.conv | .wide => x.eng.wide
def setUnitQ (x : Tile) (u : EngUnit) (q : List EngOp) : Tile :=
  match u with
  | .press => { x with eng := { x.eng with press := q } }
  | .conv => { x with eng := { x.eng with conv := q } }
  | .wide => { x with eng := { x.eng with wide := q } }
/-- The unit that runs an operation (R162). -/
def kindUnit (k : EngKind) : EngUnit :=
  match k with | .press => .press | .cvt | .gutter | .xpose => .conv | .wclr | .wld | .wst | .wacc => .wide

/-- ENG opcode (R161). -/
def EngKind.code : EngKind → Nat
  | .press => 0x00 | .cvt => 0x01 | .gutter => 0x02 | .xpose => 0x03 | .wclr => 0x08 | .wld => 0x09 | .wst => 0x0A | .wacc => 0x0B

/-- The operation at the head of a unit's queue. -/
def headOp (s : State) (t : W16) (u : EngUnit) : Option EngOp := (unitQ (getTile s t) u).head?
/-- The head replaced. -/
def setHead (s : State) (t : W16) (u : EngUnit) (o : EngOp) : State :=
  modTile s t fun x => setUnitQ x u (o :: (unitQ x u).tail)
/-- The head taken off its queue. -/
def popHead (s : State) (t : W16) (u : EngUnit) : State := modTile s t fun x => setUnitQ x u (unitQ x u).tail

/-- Every operation of a tile. -/
def allOps (x : Tile) : List EngOp := x.eng.press ++ x.eng.conv ++ x.eng.wide

/-- Operations that take a draw's place in program order (R165). -/
def drawKind (k : EngKind) : Bool := match k with | .press | .cvt | .gutter | .wacc => true | _ => false

/-- IMM[0]: ORDER of a block operation (R161, R164). -/
def opOrder (o : EngOp) : Bool := match o.kind with | .press | .cvt | .gutter | .xpose => bitAt o.imm 0 | _ => false

/-- ORDER holds an operation until every earlier one of its context has completed (R164); draw operations start in issue order
across the engines (R165). -/
def orderFree (x : Tile) (o : EngOp) : Bool :=
  let before := (allOps x).filter fun p => decide (p.job = o.job) && decide (p.seq < o.seq)
  (!opOrder o || before.isEmpty) && (!drawKind o.kind || before.all fun p => !drawKind p.kind || p.started)

/-! ## Regions of an operation -/

/-- A region that an operation names: read, written, or both in place (R200). -/
structure Rgn where
  addr : BitVec 24
  len : Nat
  al : Nat
  rd : Bool
  wr : Bool
  /-- A strip that is read before the first element (R79). -/
  strip : Bool := false
deriving DecidableEq, Repr

/-- Two regions share a byte. -/
def rgnOverlap (x : Tile) (a b : Rgn) : Bool :=
  let p := opndAddr x a.addr
  let q := opndAddr x b.addr
  decide (0 < a.len) && decide (0 < b.len) && decide (p < q + b.len) && decide (q < p + a.len)

/-- Causes of the regions' address checks (R163, R201). -/
def rgnCauses (x : Tile) (j : BitVec 2) (rs : List Rgn) : List Byte := rs.filterMap fun r => opndCheck x j r.addr r.len r.al

/-- A region must wait for its slot: for FULL where it is read, while FULL where it is only written (R79, R200). -/
def rgnWaits (x : Tile) (r : Rgn) : Bool := if r.rd then readWaits x r.addr else r.wr && writeWaits x r.addr r.len

/-- A double-bit error lies in a region that is read (R203). -/
def rgnBad (x : Tile) (r : Rgn) : Bool := r.rd && opndBad x r.addr r.len

/-- The X8 strips that an operation reads as a source, with whether each holds an UNSET exponent (R32). -/
def readStrips (x : Tile) (rs : List Rgn) : List (Rgn × Bool) :=
  (rs.filter (·.strip)).map fun r => (r, unsetStrip x r.addr r.len)

/-- The lowest of a list of causes (R49, R84, R166). -/
def lowest (l : List Byte) : Option Byte :=
  l.foldl (fun m c => match m with | none => some c | some d => some (if c < d then c else d)) none

/-- A cause where a test holds. -/
def causeIf (b : Bool) (c : Byte) : List Byte := if b then [c] else []

/-- The operand address is named. -/
def named (v : BitVec 24) : Bool := v != 0xFFFFFF

/-! ## Refusal, timeout and completion -/

/-- EXC_INFO of an engine's exception (R177). -/
def opInfo (o : EngOp) : W64 := BitVec.ofNat 64 (o.addr.toNat % 2 ^ 24 + o.kind.code * 2 ^ 24)

/-- An operation ends with a deferred exception: it leaves its queue, and every operation of the context that has not started is
discarded (R178). -/
def opFails (s : State) (t : W16) (o : EngOp) (cause : Byte) : State :=
  excDeferred (modTile s t fun x => setUnitQ x (kindUnit o.kind) ((unitQ x (kindUnit o.kind)).erase o)) t o.job true cause o.pc (opInfo o) o.injected

/-- Slots that an operation read drain at its completion under AUTO_DRAIN (R202). -/
def autoDrain (s : State) (t : W16) (rs : List Rgn) : State :=
  let ks := ((rs.filter (·.rd)).filterMap fun r => opndSlot r.addr).eraseDups
  ks.foldl (fun s k => if slotAuto (getSlot (getTile s t) k) then slotDrain s t k else s) s

/-- Bytes written to a region: in place where it is read as well (R200), else through its slot's fill (R199). -/
def rgnPut (s : State) (t : W16) (j : BitVec 2) (inPlace : Bool) (v : BitVec 24) (bs : List Byte) : State :=
  if inPlace then opndRewrite s t j v bs else opndWrite s t j v bs

/-- A report on its way to the die's watch unit (R90). -/
def sendReport (s : State) (t : W16) (o : EngOp) (en : Bool) (widx : BitVec 12) (bound : Option Int) (sats : Nat) (nonzero : Bool) : State :=
  if en then
    if h : tDie t < 12 then
      let r : Report := { die := ⟨tDie t, h⟩, widx, job := o.job, step := o.watchStep, bound, sats, nonzero, tile := t }
      { s with net := { s.net with reports := s.net.reports ++ [r] } }
    else s
  else s

/-- Completion, after all writes (R38, R161): the operation leaves its queue, the slots it read drain, DONE counts. -/
def opDone (s : State) (t : W16) (o : EngOp) (rs : List Rgn) : State :=
  let s := popHead s t (kindUnit o.kind)
  let s := autoDrain s t rs
  if o.doneEn then arriveCount s t o.done.toNat o.job else s

/-- The start of an operation whose checks are made: it takes its generator inputs, TILE.RNG_OP rises, and it waits for its slots
(R62-R64, R79, R165). -/
def opStarts (s : State) (t : W16) (o : EngOp) (rs : List Rgn) : State :=
  let x := getTile s t
  let c := getCtx x o.job
  let o' := { o with started := true, rngSeed := c.rngSeed, rngStep := c.rngStep, rngOp := c.rngOp, watchStep := c.watchStep,
                     slotWait := if rs.any (rgnWaits x) then some (o.slotWait.getD s.mod.time) else none }
  let s := if drawKind o.kind then modCtx s t o.job fun c => { c with rngOp := c.rngOp + 1 } else s
  setHead s t (kindUnit o.kind) o'

/-- FMT_UNSET_SCALE of the strips that can be read now: each strip with whether it holds an UNSET exponent. A strip whose reference
is refused, or whose slot is not yet FULL, is not read (R32, R79). -/
def stripCauses (x : Tile) (j : BitVec 2) (strips : List (Rgn × Bool)) : List Byte :=
  causeIf (strips.any fun e => e.2 && (opndCheck x j e.1.addr e.1.len e.1.al).isNone && !rgnWaits x e.1) cFmtUnset

/-- The head of a unit's queue starts, is refused with the lowest cause of its checks, or waits for a strip's slot (R49, R79, R84, R162,
R165, R166). causes are the checks that need no strip; strips are the strips that it reads. -/
def tryStart (s : State) (t : W16) (o : EngOp) (rs : List Rgn) (free : Bool) (causes : List Byte) (strips : List (Rgn × Bool)) : State :=
  let x := getTile s t
  if o.started || !free || !orderFree x o then s
  else match lowest (causes ++ stripCauses x o.job strips) with
    | some c => opFails s t o c
    | none =>
      if rs.any fun r => r.strip && rgnWaits x r then setHead s t (kindUnit o.kind) { o with slotWait := some (o.slotWait.getD s.mod.time) }
      else opStarts s t o rs

/-- SLOT_TIMEOUT (R200): the wait of a unit's head has passed its context's TILE.WAIT_LIMIT. -/
def execSlotTimeout (tile : W16) (unit : EngUnit) (s : State) : Host.Outcome State Fault Refusal :=
  onTile tile s fun s =>
    match headOp s tile unit with
    | some o =>
      let lim := (getCtx (getTile s tile) o.job).waitLimit.toNat
      match o.slotWait with
      | some t => if lim ≠ 0 ∧ t.toNat + 1000 * lim ≤ now s then opFails s tile o cSlotTimeout else s
      | none => s
    | none => s

end Sys2Proof.Machine
end

