-- ==== Sys2Proof/Machine/Press.lean ====
section
/-!
DEFINITION. The press and the row unit: products, running sums, settles, row records, residue failures (chapter 3, R110, R111).
-/
namespace Sys2Proof.Machine
open Sys2Proof

/-- PRESS_PAIR, PRESS_SHAPE, PRESS_OVERLAP, PRESS_RESIDUE (R84). -/
def cPressPair : Byte := 0x24
def cPressShape : Byte := 0x25
def cPressOverlap : Byte := 0x26
def cPressResidue : Byte := 0x27

/-! ## The press block (R53, R167) -/

structure PressCmd where
  expMul : Nat
  y : BitVec 24
  rowRec : BitVec 24
  cvtStrip : BitVec 24
  cvt : BitVec 24
  e24 : BitVec 24
  shift : BitVec 24
  out : BitVec 24
  bStrip : BitVec 24
  aStrip : BitVec 24
  b : BitVec 24
  a : BitVec 24
  yFmt : W16
  cvtFmt : W16
  outFmt : W16
  bFmt : W16
  aFmt : W16
  k : Nat
  n : Nat
  m : Nat
  watchEn : Bool
  watch : BitVec 12
  expShift : Nat
  m0808 : Bool
  rowAcc : Bool
  rowExp : Bool
  rowSq : Nat
  row : Bool
  cvtRnd : Nat
  cvtExp : Nat
  comp : Bool
  acc : Bool
  group : Nat
deriving DecidableEq, Repr

/-- The fields of a press block. -/
def pressCmd (w : BitVec 512) : PressCmd :=
  { expMul := fldN w 448 16, y := fld w 424 24, rowRec := fld w 400 24, cvtStrip := fld w 376 24, cvt := fld w 352 24, e24 := fld w 328 24,
    shift := fld w 304 24, out := fld w 280 24, bStrip := fld w 256 24, aStrip := fld w 232 24, b := fld w 208 24, a := fld w 184 24,
    yFmt := fld w 168 16, cvtFmt := fld w 152 16, outFmt := fld w 136 16, bFmt := fld w 120 16, aFmt := fld w 104 16, k := fldN w 70 19,
    n := fldN w 52 18, m := fldN w 34 18, watchEn := bitAt w 33, watch := fld w 21 12, expShift := fldN w 16 5, m0808 := bitAt w 15,
    rowAcc := bitAt w 14, rowExp := bitAt w 13, rowSq := fldN w 11 2, row := bitAt w 10, cvtRnd := fldN w 8 2, cvtExp := fldN w 6 2,
    comp := bitAt w 5, acc := bitAt w 4, group := fldN w 2 2 }

/-- Products of a group (R54, R111). -/
def groupSize (p : PressCmd) : Nat := if p.m0808 then 32 else 4 * 2 ^ p.group

/-- Patch height and width of a format pair (R51); none for a pair the press does not take. -/
def pressPatch (p : PressCmd) : Option (Nat × Nat) :=
  match fmtCode p.aFmt, fmtCode p.bFmt with
  | 3, 3 => some (4, 4)
  | 1, 1 => some (8, 4)
  | 0, 3 => some (16, 4)
  | 3, 0 => some (4, 16)
  | 5, 5 => some (2, 2)
  | 8, 8 => some (1, 1)
  | _, _ => none

/-- The command runs compensated (R65, R110). FORCE_COMP is taken at start for the checks of its regions, and as it stands at completion
for its arithmetic and its E24 writes: DESIGN CHOICE (log entry 55). -/
def compensated (x : Tile) (p : PressCmd) : Bool := !p.m0808 && (p.comp || bitAt x.regs.pressCtrl 0)

/-- The row unit reads Y (R71). -/
def usesY (p : PressCmd) : Bool := p.row && decide (p.rowSq = 2)

/-- E24 is read or written (R67, R572). -/
def usesE24 (x : Tile) (p : PressCmd) : Bool := (compensated x p || p.acc) && named p.e24

/-! ## Regions and checks (R52, R55, R56, R84, R572) -/

def pressRegions (x : Tile) (p : PressCmd) : List Rgn :=
  let strip (f : W16) (v : BitVec 24) (rows : Nat) : List Rgn :=
    if blockElems f ≠ 0 ∧ named v then [{ addr := v, len := rows * stripRow f p.k, al := 16, rd := true, wr := false, strip := true }] else []
  [{ addr := p.a, len := p.m * rowBytes (fmtCode p.aFmt) p.k, al := 64, rd := true, wr := false },
   { addr := p.b, len := p.n * rowBytes (fmtCode p.bFmt) p.k, al := 64, rd := true, wr := false }]
  ++ strip p.aFmt p.aStrip p.m ++ strip p.bFmt p.bStrip p.n
  ++ (if named p.out then [{ addr := p.out, len := 4 * p.m * p.n, al := 16, rd := p.acc, wr := true }] else [])
  ++ (if named p.shift ∧ (named p.out ∨ p.acc) then [{ addr := p.shift, len := p.m, al := 16, rd := p.acc, wr := true }] else [])
  ++ (if usesE24 x p then [{ addr := p.e24, len := 3 * p.m * p.n, al := 16, rd := p.acc, wr := compensated x p }] else [])
  ++ (if named p.cvt then [{ addr := p.cvt, len := p.m * rowBytes (fmtCode p.cvtFmt) p.n, al := 16, rd := false, wr := true }] else [])
  ++ (if named p.cvt ∧ named p.cvtStrip ∧ blockElems p.cvtFmt ≠ 0 then
        [{ addr := p.cvtStrip, len := p.m * stripRow p.cvtFmt p.n, al := 16, rd := false, wr := true }] else [])
  ++ (if p.row ∧ named p.rowRec then [{ addr := p.rowRec, len := 32 * p.m, al := 32, rd := p.rowAcc, wr := true }] else [])
  ++ (if usesY p ∧ named p.y then [{ addr := p.y, len := p.m * rowBytes (fmtCode p.yFmt) p.n, al := 16, rd := true, wr := false }] else [])

/-- A written region overlaps a region that is only read (R56). E24 of a command with ACC 1 that is not compensated is only read, and CVT may
overlap an in-place OUT: DESIGN CHOICE (log entry 55). -/
def pressOverlap (x : Tile) (p : PressCmd) : Bool :=
  let rs := pressRegions x p
  rs.any fun w => w.wr && rs.any fun r => r.rd && !r.wr && rgnOverlap x w r

/-- PRESS_SHAPE (R52, R55, R110, R572). -/
def pressShapeBad (p : PressCmd) : Bool :=
  let (ph, _) := (pressPatch p).getD (1, 1)
  decide (p.k % 16 ≠ 0) || decide (p.k < 16) || decide (32766 < p.k / groupSize p) || decide (p.m = 0) || decide (p.n = 0)
  || decide (131072 < p.m * p.n) || decide (4096 < ph * p.n)
  || (!named p.out && !named p.cvt && !p.row)
  || (named p.aStrip != decide (fmtBlock p.aFmt ≠ 0)) || (named p.bStrip != decide (fmtBlock p.bFmt ≠ 0))
  || ((named p.out || p.acc) && !named p.shift) || (p.acc && !named p.out) || (p.row && !named p.rowRec) || (usesY p && !named p.y)
  || (named p.cvtStrip != (named p.cvt && decide (fmtBlock p.cvtFmt ≠ 0)))
  || (p.m0808 && (decide (fmtBlock p.aFmt ≠ 2) || decide (fmtBlock p.bFmt ≠ 2) || decide (p.k % 32 ≠ 0) || p.rowExp))

/-- PRESS_PAIR (R51, R71, R110). -/
def pressPairBad (p : PressCmd) : Bool :=
  (pressPatch p).isNone || (p.m0808 && !(fmtCode p.aFmt == fmtCode p.bFmt && [1, 3].contains (fmtCode p.aFmt)))
  || (usesY p && (!([3, 5].contains (fmtCode p.yFmt)) || decide (fmtBlock p.yFmt ≠ 0)))

/-- FMT_INVALID (R35, R39, R45, R55, R110). OUT_FMT must be A32 per tensor (R53). -/
def pressFmtBad (p : PressCmd) : Bool :=
  !fmtValid p.aFmt || !fmtValid p.bFmt || !fmtValid p.outFmt || decide (fmtCode p.outFmt ≠ 10) || (usesY p && !fmtValid p.yFmt)
  || (named p.cvt && (!cvtWordsOk p.cvtFmt p.cvtExp || decide (p.cvtExp = 0))) || (p.m0808 && decide (p.cvtRnd = 1))

/-- The checks of a press command that need no strip (R84, R166). GROUP 3 is refused under MODE_0808 as well, where R110 ignores GROUP:
DESIGN CHOICE (log entry 55). -/
def pressCauses (x : Tile) (j : BitVec 2) (p : PressCmd) : List Byte :=
  causeIf (decide (p.group = 3) || decide (p.rowSq = 3) || decide (p.cvtExp = 3)) cIllegalOp
  ++ rgnCauses x j (pressRegions x p)
  ++ causeIf (pressFmtBad p) cFmtInvalid
  ++ causeIf (unsetTensor p.aFmt || unsetTensor p.bFmt
      || decide (fmtExp p.outFmt = 0x80) || (named p.cvt && decide (p.cvtExp = 1) && decide (fmtExp p.cvtFmt = 0x80))) cFmtUnset
  ++ causeIf (rowShapeBad p.aFmt p.k || rowShapeBad p.bFmt p.k || (named p.cvt && rowShapeBad p.cvtFmt p.n)) cFmtRow
  ++ causeIf (pressPairBad p) cPressPair ++ causeIf (pressShapeBad p) cPressShape ++ causeIf (pressOverlap x p) cPressOverlap

/-! ## Exact values (R58) -/

/-- The value m × 2^e. -/
structure Dy where
  m : Int
  e : Int
deriving DecidableEq, Repr

/-- An exact sum, in the lower of the two units. -/
def dyAdd (a b : Dy) : Dy :=
  let e := if a.e < b.e then a.e else b.e
  ⟨a.m * 2 ^ (a.e - e).toNat + b.m * 2 ^ (b.e - e).toNat, e⟩

/-- The ends of a running sum: 32 bits, or 24 under MODE_0808 (R58, R111). -/
def sumLo (m0808 : Bool) : Int := if m0808 then -(2 ^ 23) else -(2 ^ 31)
def sumHi (m0808 : Bool) : Int := if m0808 then 2 ^ 23 - 1 else 2 ^ 31 - 1

/-- fits(x, u) of R58 and R111. -/
def fits (m0808 : Bool) (x : Dy) (u : Int) : Bool :=
  decide (sumLo m0808 ≤ shiftDown x.m (u - x.e)) && decide (-(shiftDown (-x.m) (u - x.e)) ≤ sumHi m0808)

/-- How a command settles. -/
inductive Settle where
  | normal
  | comp
  | m0808
deriving DecidableEq, Repr

/-- settle(x, u) with the low 32 bits of its draw, and whether a compensated settle rounded (R60, R66, R111). -/
def settle (md : Settle) (x : Dy) (u : Int) (r : Nat) : Dy × Bool :=
  match md with
  | .normal => (⟨(convRaw x.m x.e u 1 r).1, u⟩, false)
  | .m0808 => (⟨(convRaw x.m x.e u 0 0).1, u⟩, false)
  | .comp => let (w, f) := convRaw x.m x.e (u - 24) 0 0; (⟨w, u - 24⟩, f)

/-- A running sum clamped at shift count 63, its E24 term 0 (R59). -/
def clampSum (md : Settle) (x : Dy) (u : Int) : Dy :=
  let s := if 0 < x.m then sumHi (md == .m0808) else sumLo (md == .m0808)
  match md with | .comp => ⟨s * 2 ^ 24, u - 24⟩ | _ => ⟨s, u⟩

/-! ## Rows and patches (R57-R61) -/

/-- The state of one output row within one patch. -/
structure PatchRow where
  k : Nat
  vs : List Dy
  pos : Nat
  neg : Nat
  klim : Bool
  inexact : Bool
deriving DecidableEq, Repr

/-- The least k' from k up to 63 at which every value fits; 63 where none does, with the limit met (R58, R59). -/
def leastK (md : Settle) (e : Int) (k : Nat) (xs : List Dy) : Nat × Bool :=
  match (List.range 64).find? fun k' => decide (k ≤ k') && xs.all fun x => fits (md == .m0808) x (k' + e) with
  | some k' => (k', false)
  | none => (63, true)

/-- One group step of a row in a patch: exact sums, the shift count, settles or clamps (R58-R60). Position: (t << 17) | i. -/
def groupStep (md : Settle) (e : Int) (draw : Nat → Nat) (i0 t : Nat) (st : PatchRow) (gs : List Dy) : PatchRow :=
  let xs := (st.vs.zip gs).map fun p => dyAdd p.1 p.2
  let (k, beyond) := leastK md e st.k xs
  let u : Int := k + e
  let ys := xs.mapIdx fun i x =>
    if beyond && !fits (md == .m0808) x u then (clampSum md x u, false, if 0 < x.m then (1 : Int) else -1)
    else let (y, f) := settle md x u (draw (t * 2 ^ 17 + (i0 + i))); (y, f, 0)
  { k, vs := ys.map (·.1), pos := st.pos + (ys.filter fun y => decide (y.2.2 = 1)).length,
    neg := st.neg + (ys.filter fun y => decide (y.2.2 = -1)).length,
    klim := st.klim || beyond, inexact := st.inexact || ys.any (·.2.1) }

/-- Groups of a row of elements with the exponent of each (R57). -/
def rowGroups (g : Nat) (l : List Elem) : List (List Int × Int) :=
  (chunksOf g (l.length + 1) l).map fun c => (c.map (·.1), (c.head?.map (·.2)).getD 0)

/-- A group sum, exact, at e_A + e_B (R57). -/
def groupSum (a b : List Int × Int) : Dy := ⟨sumI ((a.1.zip b.1).map fun p => p.1 * p.2), a.2 + b.2⟩

/-- A row of a patch through all of K. -/
def runPatchRow (md : Settle) (e : Int) (draw : Nat → Nat) (i0 : Nat) (st : PatchRow) (a : List (List Int × Int))
    (bs : List (List (List Int × Int))) : PatchRow :=
  (a.mapIdx fun t g => (t, g)).foldl
    (fun st tg => groupStep md e draw i0 tg.1 st (bs.map fun b => groupSum tg.2 (nth ([], 0) b tg.1))) st

/-- A finished output row. -/
structure OutRow where
  s : List Int
  c : List Int
  k : Nat
  pos : Nat
  neg : Nat
  klim : Bool
  inexact : Bool
deriving DecidableEq, Repr

/-- An element settled again at the row's shift count, and its s and c (R61, R66). -/
def finishElem (md : Settle) (e : Int) (kp k : Nat) (draw : Nat → Nat) (i : Nat) (v : Dy) : (Int × Int) × Bool :=
  let (y, f) := if kp < k then settle md v (k + e) (draw (32766 * 2 ^ 17 + i)) else (v, false)
  match md with
  | .comp => let s := (y.m + 2 ^ 23) / 2 ^ 24; ((s, y.m - s * 2 ^ 24), f)
  | _ => ((y.m, 0), f)

/-- One output row: its column patches in order, then the row's shift count (R51, R58, R61). -/
def runRow (md : Settle) (e : Int) (draw : Nat → Nat) (r n pw : Nat) (k0 : Nat) (init : List Dy) (a : List (List Int × Int))
    (bs : List (List (List Int × Int))) : OutRow :=
  let ps := (List.range ((n + pw - 1) / pw)).map fun q =>
    runPatchRow md e draw (r * n + q * pw) { k := k0, vs := (init.drop (q * pw)).take pw, pos := 0, neg := 0, klim := false, inexact := false }
      a ((bs.drop (q * pw)).take pw)
  let k := ps.foldl (fun m p => Nat.max m p.k) 0
  let fin := (ps.mapIdx fun q p => p.vs.mapIdx fun i v => finishElem md e p.k k draw (r * n + q * pw + i) v).flatten
  { s := fin.map (·.1.1), c := fin.map (·.1.2), k, pos := sumN (ps.map (·.pos)), neg := sumN (ps.map (·.neg)),
    klim := ps.any (·.klim), inexact := ps.any (·.inexact) || fin.any (·.2) }

/-! ## The row unit (R69-R75) -/

/-- T[j] of R73: the largest n with 2n - 1 ≤ 2^(24 - j/4,096), bit by bit. -/
def expTable (j : Nat) : Nat :=
  ((List.range 25).reverse).foldl (fun n b =>
    let m := n + 2 ^ b
    if ((2 * m - 1) ^ 64) ^ 64 ≤ 2 ^ (24 * 4096 - j) then m else n) 0

/-- arg(a, b) of R73, for a ≥ b. -/
def expArg (p : PressCmd) (k : Nat) (a b : Int) : Nat := (((a - b) * 2 ^ k * p.expMul) / 2 ^ p.expShift).toNat
/-- term(t) of R73. -/
def expTerm (t : Nat) : Nat := if 24 ≤ t / 4096 then 0 else expTable (t % 4096) / 2 ^ (t / 4096)

/-- The exponential sum over elements, from a running maximum and sum; the limit of R74. -/
def expSum (p : PressCmd) (k : Nat) (st : Option Int × Nat × Bool) (s : Int) : Option Int × Nat × Bool :=
  let m := st.1.getD s
  let sum := if m < s then let d := expArg p k s m; st.2.1 * expTable (d % 4096) / 2 ^ (23 + d / 4096) else st.2.1
  let m := if m < s then s else m
  let sum := sum + expTerm (expArg p k m s)
  if 2 ^ 48 - 1 < sum then (some m, 2 ^ 48 - 1, true) else (some m, sum, st.2.2)

/-- ROW.SQ and ROW.SQ_SHIFT of an exact value, and whether it was held at its limit (R72). -/
def encodeSq (v : Int) : Int × Nat × Bool :=
  match (List.range 64).find? fun j => let q := rneShift v j; decide (-(2 ^ 63) ≤ q) && decide (q < 2 ^ 63) with
  | some j => (rneShift v j, j, false)
  | none => (if 0 < v then 2 ^ 63 - 1 else -(2 ^ 63), 63, true)

/-- A row record (R69). -/
structure RowRec where
  k : Nat
  sqShift : Nat
  expsum : Nat
  sq : Int
  sum : Int
  maxabs : Nat
  max : Int
deriving DecidableEq, Repr

def rowRecBytes (r : RowRec) : List Byte :=
  toLE 4 (toBits 32 r.max) ++ toLE 4 r.maxabs ++ toLE 8 (toBits 64 r.sum) ++ toLE 8 (toBits 64 r.sq) ++ toLE 6 r.expsum
  ++ toLE 1 r.sqShift ++ toLE 1 r.k

def rowRecOf (bs : List Byte) : RowRec :=
  let f (o n : Nat) := leNat ((bs.drop o).take n)
  { k := f 31 1 % 64, sqShift := f 30 1 % 64, expsum := f 24 6, sq := sgn 64 (f 16 8), sum := sgn 64 (f 8 8), maxabs := f 4 4, max := sgn 32 (f 0 4) }

/-- A record brought to shift count k (R75). -/
def shiftRec (sqSel k : Nat) (r : RowRec) : RowRec × Int :=
  let d := k - r.k
  let sq := r.sq * 2 ^ r.sqShift
  ({ r with k, max := r.max / 2 ^ d, maxabs := r.maxabs / 2 ^ d, sum := r.sum / 2 ^ d },
   if sqSel = 1 then sq / 2 ^ (2 * d) else sq / 2 ^ d)

/-- The record of a row with elements s at shift count k, continuing old where there is one, and whether a limit was met
(R70-R75). ys is the row of Y. ROW.SUM is held at its limit once, on the row's total: DESIGN CHOICE (log entry 55). -/
def rowRecord (p : PressCmd) (k0 : Nat) (s0 ys : List Int) (old : Option RowRec) : RowRec × Bool :=
  let k := match old with | some r => Nat.max r.k k0 | none => k0
  let s := s0.map fun v => v / 2 ^ (k - k0)
  let (base, sq0) : RowRec × Int := match old with
    | some r => shiftRec p.rowSq k r
    | none => ({ k, sqShift := 0, expsum := 0, sq := 0, sum := 0, maxabs := 0, max := s.headD 0 }, 0)
  let sum := base.sum + sumI s
  let hi : Int := 2 ^ 63 - 1
  let sumC := if hi < sum then hi else if sum < -(2 ^ 63) then -(2 ^ 63) else sum
  let add := if p.rowSq = 1 then sumI (s.map fun v => v * v) else sumI ((s.zip ys).map fun v => v.1 * v.2)
  let (sq, sh, lim) := if p.rowSq = 0 then ((0 : Int), 0, false) else encodeSq (sq0 + add)
  let (_, es, elim) := if p.rowExp then s.foldl (expSum p k) (old.map fun _ => base.max, base.expsum, false) else (none, 0, false)
  ({ k, sqShift := sh, expsum := es, sq, sum := sumC, maxabs := s.foldl (fun m v => Nat.max m v.natAbs) base.maxabs,
     max := s.foldl (fun m v => if m < v then v else m) base.max }, decide (sumC ≠ sum) || lim || elim)

/-! ## A command's rows and its writes -/

def settleOf (x : Tile) (p : PressCmd) : Settle := if p.m0808 then .m0808 else if compensated x p then .comp else .normal

/-- The stored state of a row: shift count and values, as pairs where an E24 array is read (R58, R67). -/
def rowInit (x : Tile) (p : PressCmd) (r : Nat) : Nat × List Dy :=
  let e := expVal (fmtExp p.outFmt)
  if p.acc then
    let k := (nth 0 (spadRead x (opndAddr x p.shift + r) 1) 0).toNat % 64
    let ss := rowVals 10 (spadRead x (opndAddr x p.out + r * 4 * p.n) (4 * p.n)) p.n
    if named p.e24 then
      let cs := rowVals 14 (spadRead x (opndAddr x p.e24 + r * 3 * p.n) (3 * p.n)) p.n
      (k, (ss.zip cs).map fun v => ⟨v.1 * 2 ^ 24 + v.2, k + e - 24⟩)
    else (k, ss.map fun v => ⟨v, k + e⟩)
  else (0, List.replicate p.n ⟨0, e⟩)

/-- The first rows of a command, computed (R57-R61). -/
def pressRows (x : Tile) (t : W16) (o : EngOp) (p : PressCmd) (rows : Nat) : List OutRow :=
  let g := groupSize p
  let pw := ((pressPatch p).getD (1, 1)).2
  let bs := (readTensor x p.bFmt p.b p.bStrip p.n p.k).map (rowGroups g)
  let as := readTensor x p.aFmt p.a p.aStrip rows p.k
  let md := settleOf x p
  as.mapIdx fun r a =>
    let (k0, init) := rowInit x p r
    runRow md (expVal (fmtExp p.outFmt)) (drawFor o t) r p.n pw k0 init (rowGroups g a) bs

/-- The elements that the output conversion reads (R55). -/
def cvtSource (x : Tile) (p : PressCmd) (rows : List OutRow) : List (List Elem) :=
  let e := expVal (fmtExp p.outFmt)
  rows.map fun r => if compensated x p then (r.s.zip r.c).map fun v => (v.1 * 2 ^ 24 + v.2, r.k + e - 24) else r.s.map fun v => (v, r.k + e)

/-- The output conversion of rows (R55, R61). -/
def pressCvt (x : Tile) (t : W16) (o : EngOp) (p : PressCmd) (rows : List OutRow) : ConvOut :=
  convert p.cvtFmt p.cvtExp p.cvtRnd (fun i => drawFor o t (32767 * 2 ^ 17 + i)) p.n (cvtSource x p rows)

/-- The row records of rows. -/
def pressRecs (x : Tile) (p : PressCmd) (rows : List OutRow) : List (RowRec × Bool) :=
  rows.mapIdx fun r row =>
    let ys := if usesY p then rowVals (fmtCode p.yFmt) (spadRead x (opndAddr x p.y + r * rowBytes (fmtCode p.yFmt) p.n) (rowBytes (fmtCode p.yFmt) p.n)) p.n else []
    let old := if p.rowAcc then some (rowRecOf (spadRead x (opndAddr x p.rowRec + 32 * r) 32)) else none
    rowRecord p row.k row.s ys old

/-- Bits of TILE.PRESS_STATUS set (R82). -/
def notePress (t : W16) (bits : W32) (s : State) : State :=
  if bits = 0 then s else modTile s t fun x => { x with regs := { x.regs with pressStatus := x.regs.pressStatus ||| bits } }

/-- A region write where it is named. -/
def putIf (b : Bool) (t : W16) (j : BitVec 2) (inPlace : Bool) (v : BitVec 24) (bs : List Byte) (s : State) : State :=
  if b then rgnPut s t j inPlace v bs else s

/-- A strip's bytes (R37). -/
def stripBytes (es : List Int) : List Byte := es.map fun e => BitVec.ofInt 8 e

/-- Rows written back: sums, shift counts, terms, row records, and the statuses of R59, R66, R70-R74. -/
def pressWrite (s : State) (t : W16) (o : EngOp) (p : PressCmd) (x : Tile) (rows : List OutRow) : State :=
  let recs := if p.row then pressRecs x p rows else []
  let s := putIf (named p.out) t o.job p.acc p.out (rows.flatMap fun r => rowEncode 10 r.s) s
  let s := putIf (named p.shift && (named p.out || p.acc)) t o.job p.acc p.shift (rows.map fun r => BitVec.ofNat 8 r.k) s
  let s := putIf (usesE24 x p && compensated x p) t o.job p.acc p.e24 (rows.flatMap fun r => rowEncode 14 r.c) s
  let s := putIf p.row t o.job p.rowAcc p.rowRec (recs.flatMap fun r => rowRecBytes r.1) s
  let s := notePress t ((if rows.any (·.klim) || recs.any (·.2) then 0x10 else 0) ||| (if rows.any (·.inexact) then 0x08 else 0)) s
  satNote t (sumN (rows.map (·.pos))) (sumN (rows.map (·.neg))) s

/-- The output conversion written: elements, then strip, or the exponent in the block's CVT_FMT for a per-tensor target under
BLOCK_FIT (R43, log entry 15). -/
def pressCvtWrite (s : State) (t : W16) (o : EngOp) (p : PressCmd) (cv : ConvOut) : State :=
  let s := opndWrite s t o.job p.cvt (cv.rows.flatMap (rowEncode (fmtCode p.cvtFmt)))
  let s := if blockElems p.cvtFmt ≠ 0 then opndWrite s t o.job p.cvtStrip (stripBytes cv.exps)
    else if p.cvtExp = 2 then spadWrite s t o.job (o.addr.toNat + 20) (stripBytes (cv.exps.take 1)) else s
  noteConv t cv s

/-- The bound of a command's final sums (R90). -/
def pressBound (p : PressCmd) (rows : List OutRow) : Option Int :=
  srcBound (rows.flatMap fun r => r.s.map fun v => (v, r.k + expVal (fmtExp p.outFmt)))

/-- The operands a command reads hold a T2 element 0b10 (R27). -/
def pressT2 (x : Tile) (p : PressCmd) : Bool := hasT2Bad x p.aFmt p.a p.m p.k || hasT2Bad x p.bFmt p.b p.n p.k

/-- A running command finishes: every row written, then its report and completion (R38, R78, R90). A double-bit error in what it
reads stops it with SPAD_ECC (R203). -/
def pressFinish (s : State) (t : W16) (o : EngOp) : State :=
  let x := getTile s t
  let p := pressCmd o.block
  let rs := pressRegions x p
  if rs.any (rgnBad x) then opFails s t o cSpadEcc
  else
    let rows := pressRows x t o p p.m
    let cv : Option ConvOut := if named p.cvt then some (pressCvt x t o p rows) else none
    let s := noteT2 t (pressT2 x p) (pressWrite s t o p x rows)
    let s := match cv with | some c => pressCvtWrite s t o p c | none => s
    let clamps := sumN (rows.map fun r => r.pos + r.neg)
    let sats := clamps + (match cv with | some c => c.pos + c.neg | none => 0)
    let nz := match cv with | some c => c.nonzero | none => rows.any fun r => r.s.any fun v => decide (v ≠ 0)
    opDone (sendReport s t o p.watchEn p.watch (pressBound p rows) sats nz) t o rs

/-! ## Start, completion, residue (R76-R79, R126) -/

/-- The scratchpad region of an earlier wide operation that a press command or copy must not write yet: the source of an accumulate,
the target of a store (R126). -/
def wideGuard (w : EngOp) : List Rgn :=
  match w.kind with
  | .wacc =>
    let m := fldN w.block 100 13
    let n := fldN w.block 113 13
    let r (v : BitVec 24) (len : Nat) : List Rgn := if named v then [{ addr := v, len, al := 16, rd := true, wr := false }] else []
    r (fld w.block 0 24) (4 * m * n) ++ r (fld w.block 24 24) m ++ r (fld w.block 48 24) (3 * m * n)
  | .wst =>
    let cnt := if fldN w.imm 0 12 = 0 then 4096 else fldN w.imm 0 12
    [{ addr := w.addr.setWidth 24, len := 8 * cnt, al := 64, rd := false, wr := true }]
  | _ => []

/-- No earlier wide operation guards a byte that the regions write (R126). -/
def wideFree (x : Tile) (o : EngOp) (rs : List Rgn) : Bool :=
  (x.eng.wide.filter fun w => decide (w.seq < o.seq)).all fun w => (wideGuard w).all fun g => rs.all fun r => !r.wr || !rgnOverlap x g r

/-- The press queue's head starts, is refused or waits. -/
def pressTry (s : State) (t : W16) : State :=
  match headOp s t .press with
  | some o =>
    let x := getTile s t
    let p := pressCmd o.block
    let rs := pressRegions x p
    tryStart s t o rs (wideFree x o rs) (pressCauses x o.job p) (readStrips x rs)
  | none => s

/-- PRESS_START (R165): the next command starts in program order, is checked and begins reading operands. -/
def execPressStart (tile : W16) (s : State) : Host.Outcome State Fault Refusal := onTile tile s fun s => pressTry s tile

/-- A residue failure counts toward its tile's fence (R464): the times of its failures. -/
def noteFail (s : State) (t : W16) : State :=
  modTile s t fun x => { x with residueFails := x.residueFails ++ [s.mod.time] }

/-- Rows of a failed command that were written: whole row blocks, of which the one that failed is none (R76). -/
def stoppedRows (p : PressCmd) (blocks : Nat) : Nat :=
  let ph := ((pressPatch p).getD (1, 1)).1
  ph * Nat.min blocks ((p.m + ph - 1) / ph - 1)

/-- T2_CODE of a failed command (R27): set when what it surely read holds an element 0b10; free when only what it may have read, of the
row block that failed, holds one (log entry 3). -/
def stopT2 (s : State) (t : W16) (p : PressCmd) (n : Nat) : State :=
  let x := getTile s t
  let ph := ((pressPatch p).getD (1, 1)).1
  let b := hasT2Bad x p.bFmt p.b p.n p.k
  if decide (n ≠ 0) && (hasT2Bad x p.aFmt p.a n p.k || b) then noteT2 t true s
  else if hasT2Bad x p.aFmt p.a (Nat.min (n + ph) p.m) p.k || b then
    let (read, s) := freshBit s
    noteT2 t read s
  else s

/-- The failed command stops: row blocks already written stay written, nothing more is written, no completion (R76, R77). A per-tensor
BLOCK_FIT target needs every row, so none of it is written. -/
def pressStop (s : State) (t : W16) (o : EngOp) (blocks : Nat) (injected : Bool) : State :=
  let x := getTile s t
  let p := pressCmd o.block
  let n := stoppedRows p blocks
  let s := stopT2 s t p n
  let rows := pressRows x t o p n
  let s := if n = 0 then s else pressWrite s t o p x rows
  let s := if n ≠ 0 ∧ named p.cvt ∧ (blockElems p.cvtFmt ≠ 0 ∨ p.cvtExp ≠ 2) then pressCvtWrite s t o p (pressCvt x t o p rows) else s
  opFails (noteFail (notePress t 0x04 s) t) t { o with injected } cPressResidue

/-- The operation with its injection mark, so that its queue entry and its record agree. -/
def markInjected (s : State) (t : W16) (o : EngOp) (injected : Bool) : State :=
  modTile (setHead s t .press { o with injected }) t fun x => { x with injResidue := false }

/-- A residue mismatch of a tile's running command (R77): the patch is replayed, and passes or fails. The mismatch of a replay that fails
does not raise TILE.RESIDUE_COUNT again: DESIGN CHOICE (log entry 55). The record of a correction gives no INFO (R459). -/
def residueMismatch (tile : W16) (replayPasses : Bool) (rowBlocks : Nat) (s : State) : State :=
  match headOp s tile .press with
  | some o =>
    if o.started ∧ o.slotWait.isNone then
      let inj := (getTile s tile).injResidue
      let s := modTile (notePress tile 0x02 (markInjected s tile o inj)) tile fun x =>
        { x with regs := { x.regs with residueCount := x.regs.residueCount + 1 } }
      if bitAt (getTile s tile).regs.pressCtrl 1 && replayPasses then
        putErr (setHead s tile .press o) { tileErr tile (some o.job) cPressResidue 0 with sev := 0, injected := inj }
      else pressStop s tile { o with injected := inj } rowBlocks inj
    else s
  | none => s

/-- The running command's last row block is written and completion signalled (R78). A group sum that an injected fault has corrupted is found
first, and its replay passes (R77, R478). -/
def pressDone (tile : W16) (s : State) : State :=
  match headOp s tile .press with
  | some o =>
    if o.started ∧ o.slotWait.isNone then
      if (getTile s tile).injResidue then
        let s := residueMismatch tile true 0 s
        match headOp s tile .press with
        | some o' => if o'.seq = o.seq ∧ o'.job = o.job then pressFinish s tile o' else s
        | none => s
      else pressFinish s tile o
    else s
  | none => s

end Sys2Proof.Machine
end

