-- ==== Sys2Proof/Machine/Conv.lean ====
section
/-!
DEFINITION. The conversion unit: conversions, gutter updates, transposing copies (R39-R46, R108, R119, R169-R171, R573).
-/
namespace Sys2Proof.Machine
open Sys2Proof

/-- XPOSE_SHAPE (R133). -/
def cXposeShape : Byte := 0x43

/-! ## Conversions (R169) -/

structure CvtCmd where
  watchEn : Bool
  watch : BitVec 12
  rnd : Nat
  mode : Nat
  cols : Nat
  rows : Nat
  dstFmt : W16
  srcFmt : W16
  dstStrip : BitVec 24
  dst : BitVec 24
  srcE24 : BitVec 24
  srcStrip : BitVec 24
  src : BitVec 24
deriving DecidableEq, Repr

def cvtCmd (w : BitVec 512) : CvtCmd :=
  { watchEn := bitAt w 202, watch := fld w 190 12, rnd := fldN w 188 2, mode := fldN w 186 2, cols := fldN w 168 18, rows := fldN w 152 16,
    dstFmt := fld w 136 16, srcFmt := fld w 120 16, dstStrip := fld w 96 24, dst := fld w 72 24, srcE24 := fld w 48 24,
    srcStrip := fld w 24 24, src := fld w 0 24 }

/-- Shape limits of R169. -/
def shapeBad (rows cols : Nat) : Bool := decide (rows = 0) || decide (cols = 0) || decide (131072 < cols) || decide (1048576 < rows * cols)

/-- A region where its address is named. -/
def rgnIf (b : Bool) (r : Rgn) : List Rgn := if b && named r.addr then [r] else []

def isA32 (f : W16) : Bool := decide (fmtCode f = 10)

def cvtRegions (p : CvtCmd) : List Rgn :=
  let n := p.rows * p.cols
  rgnIf true { addr := p.src, len := p.rows * rowBytes (fmtCode p.srcFmt) p.cols, al := 16, rd := true, wr := false }
  ++ rgnIf (isA32 p.srcFmt) { addr := p.srcStrip, len := p.rows, al := 16, rd := true, wr := false }
  ++ rgnIf (decide (blockElems p.srcFmt ≠ 0)) { addr := p.srcStrip, len := p.rows * stripRow p.srcFmt p.cols, al := 16, rd := true, wr := false, strip := true }
  ++ rgnIf (isA32 p.srcFmt) { addr := p.srcE24, len := 3 * n, al := 16, rd := true, wr := false }
  ++ rgnIf true { addr := p.dst, len := p.rows * rowBytes (fmtCode p.dstFmt) p.cols, al := 16, rd := false, wr := true }
  ++ rgnIf (decide (blockElems p.dstFmt ≠ 0)) { addr := p.dstStrip, len := p.rows * stripRow p.dstFmt p.cols, al := 16, rd := false, wr := true }

/-- FMT_INVALID of a conversion (R35, R39, R45, R169). -/
def cvtFmtBad (p : CvtCmd) : Bool :=
  !fmtValid p.srcFmt || !cvtWordsOk p.dstFmt p.mode || (decide (p.mode = 0) && (isA32 p.srcFmt || decide (fmtBlock p.srcFmt ≠ fmtBlock p.dstFmt)))

/-- BLOCK_SHAPE of a conversion (R169, R573). -/
def cvtShapeBad (p : CvtCmd) : Bool :=
  shapeBad p.rows p.cols || !named p.src || !named p.dst
  || (named p.srcStrip != (isA32 p.srcFmt || decide (fmtBlock p.srcFmt ≠ 0))) || (named p.dstStrip != decide (fmtBlock p.dstFmt ≠ 0))
  || (named p.srcE24 && !isA32 p.srcFmt)

def cvtCauses (x : Tile) (j : BitVec 2) (p : CvtCmd) : List Byte :=
  causeIf (decide (p.mode = 3)) cIllegalOp ++ rgnCauses x j (cvtRegions p) ++ causeIf (cvtShapeBad p) cBlockShape
  ++ causeIf (cvtFmtBad p) cFmtInvalid
  ++ causeIf (unsetTensor p.srcFmt || (decide (p.mode = 1) && decide (fmtExp p.dstFmt = 0x80))) cFmtUnset
  ++ causeIf (rowShapeBad p.srcFmt p.cols || rowShapeBad p.dstFmt p.cols) cFmtRow

/-- The source of a conversion. -/
def cvtRead (x : Tile) (p : CvtCmd) : List (List Elem) :=
  if isA32 p.srcFmt then readA32 x p.srcFmt p.src p.srcStrip p.srcE24 p.rows p.cols
  else readTensor x p.srcFmt p.src p.srcStrip p.rows p.cols

/-- A conversion written: elements and strip, or the exponent in the block's DST_FMT (R43, log entry 15). KEEP to a per-tensor target
writes no exponent into DST_FMT: DESIGN CHOICE (log entry 56). -/
def cvtWrite (s : State) (t : W16) (o : EngOp) (p : CvtCmd) (c : ConvOut) : State :=
  let s := opndWrite s t o.job p.dst (c.rows.flatMap (rowEncode (fmtCode p.dstFmt)))
  let s := if blockElems p.dstFmt ≠ 0 then opndWrite s t o.job p.dstStrip (stripBytes c.exps)
    else if p.mode = 2 then spadWrite s t o.job (o.addr.toNat + 18) (stripBytes (c.exps.take 1)) else s
  noteConv t c s

/-- A conversion finishes (R39-R46, R169). Its source is read whole before any of its target is written, which tells where the two overlap:
DESIGN CHOICE (log entry 56). -/
def cvtFinish (s : State) (t : W16) (o : EngOp) : State :=
  let x := getTile s t
  let p := cvtCmd o.block
  if (cvtRegions p).any (rgnBad x) then opFails s t o cSpadEcc
  else
    let src := cvtRead x p
    let c := convert p.dstFmt p.mode p.rnd (drawFor o t) p.cols src
    let s := noteT2 t (hasT2Bad x p.srcFmt p.src p.rows p.cols) (cvtWrite s t o p c)
    opDone (sendReport s t o p.watchEn p.watch (srcBound src.flatten) (c.pos + c.neg) c.nonzero) t o (cvtRegions p)

/-! ## Gutter updates (R108, R170) -/

structure GutCmd where
  watchEn : Bool
  watch : BitVec 12
  rnd : Nat
  cols : Nat
  rows : Nat
  dFmt : W16
  wFmt : W16
  dStrip : BitVec 24
  d : BitVec 24
  g : BitVec 24
  wStrip : BitVec 24
  w : BitVec 24
deriving DecidableEq, Repr

def gutCmd (b : BitVec 512) : GutCmd :=
  { watchEn := bitAt b 200, watch := fld b 188 12, rnd := fldN b 186 2, cols := fldN b 168 18, rows := fldN b 152 16, dFmt := fld b 136 16,
    wFmt := fld b 120 16, dStrip := fld b 96 24, d := fld b 72 24, g := fld b 48 24, wStrip := fld b 24 24, w := fld b 0 24 }

def gutRegions (p : GutCmd) : List Rgn :=
  let n := p.rows * p.cols
  rgnIf true { addr := p.w, len := 2 * n, al := 16, rd := true, wr := true }
  ++ rgnIf true { addr := p.g, len := n, al := 16, rd := true, wr := true }
  ++ rgnIf true { addr := p.d, len := p.rows * rowBytes (fmtCode p.dFmt) p.cols, al := 16, rd := true, wr := false }
  ++ rgnIf (decide (blockElems p.wFmt ≠ 0)) { addr := p.wStrip, len := p.rows * stripRow p.wFmt p.cols, al := 16, rd := true, wr := false, strip := true }
  ++ rgnIf (decide (blockElems p.dFmt ≠ 0)) { addr := p.dStrip, len := p.rows * stripRow p.dFmt p.cols, al := 16, rd := true, wr := false, strip := true }

def gutCauses (x : Tile) (j : BitVec 2) (p : GutCmd) : List Byte :=
  rgnCauses x j (gutRegions p)
  ++ causeIf (shapeBad p.rows p.cols || !named p.w || !named p.g || !named p.d || (named p.wStrip != decide (fmtBlock p.wFmt ≠ 0))
      || (named p.dStrip != decide (fmtBlock p.dFmt ≠ 0))) cBlockShape
  ++ causeIf (!fmtValid p.wFmt || !fmtValid p.dFmt || decide (fmtCode p.wFmt ≠ 5) || !([5, 7, 8].contains (fmtCode p.dFmt))) cFmtInvalid
  ++ causeIf (unsetTensor p.wFmt || unsetTensor p.dFmt) cFmtUnset
  ++ causeIf (rowShapeBad p.wFmt p.cols || rowShapeBad p.dFmt p.cols) cFmtRow

/-- One element of a gutter update (R108). -/
structure GutElem where
  w : Int
  g : Int
  sat : Int
  delta : Int
deriving DecidableEq, Repr

/-- w', g', how t clamped, and the converted update. -/
def gutElem (rnd : Nat) (w : Elem) (g : Int) (d : Elem) (r : Nat) : GutElem :=
  let dl := (convRaw d.1 d.2 (w.2 - 8) rnd r).1
  let t := w.1 * 256 + g + dl
  let (t, sat) : Int × Int := if 8388479 < t then (8388479, 1) else if t < -8388480 then (-8388480, -1) else (t, 0)
  let w' := (t + 128) / 256
  { w := w', g := t - 256 * w', sat, delta := dl }

/-- Every element of a gutter update, in storage order. -/
def gutElems (x : Tile) (t : W16) (o : EngOp) (p : GutCmd) : List GutElem :=
  let ws := (readTensor x p.wFmt p.w p.wStrip p.rows p.cols).flatten
  let gs := rowVals 3 (spadRead x (opndAddr x p.g) (p.rows * p.cols)) (p.rows * p.cols)
  let ds := (readTensor x p.dFmt p.d p.dStrip p.rows p.cols).flatten
  (ws.zip (gs.zip ds)).mapIdx fun i v => gutElem p.rnd v.1 v.2.1 v.2.2 (drawFor o t i)

def gutFinish (s : State) (t : W16) (o : EngOp) : State :=
  let x := getTile s t
  let p := gutCmd o.block
  if (gutRegions p).any (rgnBad x) then opFails s t o cSpadEcc
  else
    let es := gutElems x t o p
    let pos := (es.filter fun e => decide (e.sat = 1)).length
    let neg := (es.filter fun e => decide (e.sat = -1)).length
    let s := opndRewrite s t o.job p.w (rowEncode 5 (es.map (·.w)))
    let s := satNote t pos neg (opndRewrite s t o.job p.g (rowEncode 3 (es.map (·.g))))
    let bound := srcBound (readTensor x p.dFmt p.d p.dStrip p.rows p.cols).flatten
    opDone (sendReport s t o p.watchEn p.watch bound (pos + neg) (es.any fun e => decide (e.delta ≠ 0))) t o (gutRegions p)

/-! ## Transposing copies (R119, R171) -/

structure XposeCmd where
  cols : Nat
  rows : Nat
  fmt : W16
  dst : BitVec 24
  src : BitVec 24
deriving DecidableEq, Repr

def xposeCmd (b : BitVec 512) : XposeCmd :=
  { cols := fldN b 77 13, rows := fldN b 64 13, fmt := fld b 48 16, dst := fld b 24 24, src := fld b 0 24 }

/-- Bytes of an element. -/
def elemBytes (f : W16) : Nat := elemBits (fmtCode f) / 8

def xposeRegions (p : XposeCmd) : List Rgn :=
  let n := p.rows * p.cols * elemBytes p.fmt
  [{ addr := p.src, len := n, al := 16, rd := true, wr := false }, { addr := p.dst, len := n, al := 16, rd := false, wr := true }]

def xposeDim (n : Nat) : Bool := decide (16 ≤ n) && decide (n ≤ 4096) && decide (n % 16 = 0)

def xposeCauses (x : Tile) (j : BitVec 2) (p : XposeCmd) : List Byte :=
  let rs := xposeRegions p
  rgnCauses x j rs
  ++ causeIf (!fmtValid p.fmt || decide (fmtBlock p.fmt ≠ 0) || !([3, 4, 5, 6, 7, 8, 9, 11].contains (fmtCode p.fmt))) cFmtInvalid
  ++ causeIf (!xposeDim p.rows || !xposeDim p.cols || rs.any fun a => a.rd && rs.any fun b => b.wr && rgnOverlap x a b) cXposeShape

/-- Element [c][r] of the target is element [r][c] of the source. -/
def xposeBytes (x : Tile) (p : XposeCmd) : List Byte :=
  let w := elemBytes p.fmt
  let bs := spadRead x (opndAddr x p.src) (p.rows * p.cols * w)
  (List.range p.cols).flatMap fun c => (List.range p.rows).flatMap fun r => (bs.drop ((r * p.cols + c) * w)).take w

def xposeFinish (s : State) (t : W16) (o : EngOp) : State :=
  let x := getTile s t
  let p := xposeCmd o.block
  if (xposeRegions p).any (rgnBad x) then opFails s t o cSpadEcc
  else opDone (opndWrite s t o.job p.dst (xposeBytes x p)) t o (xposeRegions p)

/-! ## The unit -/

/-- The conversion unit's head starts, is refused or waits (R162, R165; R126 for a copy). -/
def convTry (s : State) (t : W16) : State :=
  match headOp s t .conv with
  | some o =>
    let x := getTile s t
    match o.kind with
    | .cvt => let p := cvtCmd o.block; tryStart s t o (cvtRegions p) true (cvtCauses x o.job p) (readStrips x (cvtRegions p))
    | .gutter => let p := gutCmd o.block; tryStart s t o (gutRegions p) true (gutCauses x o.job p) (readStrips x (gutRegions p))
    | .xpose => let p := xposeCmd o.block; tryStart s t o (xposeRegions p) (wideFree x o (xposeRegions p)) (xposeCauses x o.job p) []
    | _ => s
  | none => s

/-- CVT_UNIT_START (R162). -/
def execCvtUnitStart (tile : W16) (s : State) : Host.Outcome State Fault Refusal := onTile tile s fun s => convTry s tile

/-- The running operation of the conversion unit, when it is of a kind and waits for no slot. -/
def convRunning (s : State) (t : W16) (k : EngKind) : Option EngOp :=
  (headOp s t .conv).filter fun o => o.started && o.slotWait.isNone && decide (o.kind = k)

/-- CONVERSION_COMPLETE (R169). -/
def execConversionComplete (tile : W16) (s : State) : Host.Outcome State Fault Refusal :=
  onTile tile s fun s => match convRunning s tile .cvt with | some o => cvtFinish s tile o | none => s

/-- GUTTER_COMPLETE (R170). -/
def execGutterComplete (tile : W16) (s : State) : Host.Outcome State Fault Refusal :=
  onTile tile s fun s => match convRunning s tile .gutter with | some o => gutFinish s tile o | none => s

/-- XPOSE_COMPLETE (R119). -/
def execXposeComplete (tile : W16) (s : State) : Host.Outcome State Fault Refusal :=
  onTile tile s fun s => match convRunning s tile .xpose with | some o => xposeFinish s tile o | none => s

end Sys2Proof.Machine
end

