-- ==== Sys2Proof/Machine/Watch.lean ====
section
/-!
DEFINITION. Watch entries, reports, closes, the gauge, and the loss monitors (chapter 4).
-/
namespace Sys2Proof.Machine
open Sys2Proof

/-- WATCH_SAT, WATCH_ZERO, LOSS_SPIKE, WATCH_LATE, WATCH_PARTIAL, GAUGE_TIMEOUT, GAUGE_STALE, WATCH_PEER (R114). -/
def cWatchSat : Byte := 0x30
def cWatchZero : Byte := 0x31
def cLossSpike : Byte := 0x32
def cWatchLate : Byte := 0x33
def cWatchPartial : Byte := 0x34
def cGaugeTimeout : Byte := 0x35
def cGaugeStale : Byte := 0x36
def cWatchPeer : Byte := 0x37

def watchOn (e : Watch) : Bool := bitAt e.cfg 31
def watchJob (e : Watch) : BitVec 2 := fld e.cfg 4 2
def watchNode (e : Watch) : Bool := decide (fldN e.cfg 20 2 = 1)
def watchPause (e : Watch) : Bool := bitAt e.cfg 6
/-- History length L. -/
def watchLen (e : Watch) : Nat := fldN e.cfg 24 4 + 1

/-- Width in bits of a watched format, and whether it is signed: T2 counts as 2 bits (R95). -/
def watchFmt (code : Nat) : Option (Nat × Bool) :=
  match code with
  | 0 => some (2, true)
  | 1 => some (4, true)
  | 2 => some (4, false)
  | 3 => some (8, true)
  | 4 => some (8, false)
  | 5 => some (16, true)
  | 6 => some (16, false)
  | 7 => some (24, true)
  | _ => none

/-! ## Configuration (R86-R88) -/

/-- Writable bits of WATCH.CFG. -/
def watchCfgMask : W32 := 0x8FFFFF70

/-- An entry armed with a written configuration (R86, R88). -/
def armWatch (e : Watch) (v : W32) (step : W64) : Watch :=
  { e with cfg := v &&& watchCfgMask, pendCfg := none, openStep := step, exp := 0x8080, history := Watch.reset.history,
           satTotal := 0, satLast := 0, zeroStreak := 0, lateCount := 0, flags := 0 }

/-- An accumulator for a step that begins on a die: one that is not READY misses from it (R99). -/
def newAcc (d : Die) (a : WAcc) : WAcc := if d.st = .ready ∨ d.st = .absent then a else { a with lost := true }

/-- Both accumulators of an entry cleared on every die. -/
def clearAcc (s : State) (w : BitVec 12) : State :=
  { s with dies := mmap Die.reset s.dies fun _ d =>
      { d with wacc := mset WAcc.reset (merase d.wacc (2 * w.toNat + 1)) (2 * w.toNat) (newAcc d WAcc.reset) } }

/-- An entry that leaves the close under way: it is armed, disarmed or restored meanwhile (R86, R95). -/
def uncover (s : State) (w : BitVec 12) : State :=
  { s with jobs := mmap Job.reset s.jobs fun _ x =>
      { x with closing := x.closing.map fun c => { c with entries := c.entries.filter fun e => decide (e.widx ≠ w) } } }

/-- A write of WATCH.CFG (R86, R11): ENABLE at once, the other fields with an arming write or at the next close. -/
def watchCfgWrite (s : State) (w : BitVec 12) (v : W32) : State × Byte :=
  let e := getWatch s w
  if (watchFmt (fldN v 16 4)).isNone ∨ 2 ≤ fldN v 20 2 then (s, stInvalid)
  else if bitAt v 31 && !watchOn e then
    (clearAcc (uncover (putWatch s w (armWatch e v (getJob s (fld v 4 2)).regs.armStep)) w) w, stOk)
  else
    let en : W32 := if bitAt v 31 then 0x80000000 else 0
    (putWatch (if bitAt v 31 then s else uncover s w) w { e with cfg := merge 0x80000000 e.cfg en, pendCfg := some (v &&& watchCfgMask) }, stOk)

/-- WATCH_CFG_WRITE (R86). -/
def execWatchCfgWrite (_w : Writer) (widx : BitVec 12) (value : W32) (s : State) : Host.Outcome State Fault Refusal :=
  .next (finish (watchCfgWrite s widx value))

/-! ## Loss monitors (R106, R107) -/

def getLoss (s : State) (m : BitVec 3) : Loss := mget Loss.reset s.losses m.toNat
def putLoss (s : State) (m : BitVec 3) (x : Loss) : State := { s with losses := mset Loss.reset s.losses m.toNat x }

/-- A write of LOSS.CFG (R106): arming clears the monitor's state. -/
def lossCfgWrite (s : State) (m : BitVec 3) (v : W32) : State × Byte :=
  let l := getLoss s m
  let sh := fldN v 20 4
  if sh = 0 ∨ 8 < sh then (s, stInvalid)
  else
    let cfg := v &&& 0xF8F0FFFF
    if bitAt v 31 && !bitAt l.cfg 31 then
      (putLoss s m { l with cfg, avg := 0, last := 0, lastStep := 0, spikes := 0, rejects := 0, accepted := 0 }, stOk)
    else (putLoss s m { l with cfg }, stOk)

/-- LOSS_CFG_WRITE (R106). -/
def execLossCfgWrite (_w : Writer) (mon : BitVec 3) (value : W32) (s : State) : Host.Outcome State Fault Refusal :=
  .next (finish (lossCfgWrite s mon value))

/-! ## The watch image (R540) -/

/-- WATCH.CFG as it reads: the last value written, with ENABLE as it stands. -/
def watchCfgReg (e : Watch) : W32 := match e.pendCfg with | some v => merge 0x80000000 v e.cfg | none => e.cfg

/-- The 96-byte record of an entry. -/
def watchRec (e : Watch) (w : Nat) : List Byte :=
  toLE 96 (at' 768 704 e.openStep ||| at' 768 640 e.satTotal ||| at' 768 576 e.lateCount ||| at' 768 320 e.history ||| at' 768 288 (watchCfgReg e)
    ||| at' 768 256 e.satAlarm ||| at' 768 224 e.satLast ||| at' 768 192 e.zeroStreak ||| at' 768 176 e.exp ||| at' 768 168 e.flags
    ||| at' 768 156 (BitVec.ofNat 12 w)).toNat

/-- The 64-byte record of a monitor. -/
def lossRec (l : Loss) (m : Nat) : List Byte :=
  toLE 64 (at' 512 480 l.cfg ||| at' 512 416 l.bandAbs ||| at' 512 352 l.avg ||| at' 512 288 l.last ||| at' 512 224 l.lastStep ||| at' 512 160 l.spikes
    ||| at' 512 96 l.rejects ||| at' 512 64 l.accepted ||| at' 512 61 (BitVec.ofNat 3 m)).toNat

/-- The watch image of a job: its enabled entries in index order, then its armed monitors. -/
def watchImage (s : State) (j : BitVec 2) : List Byte :=
  let es := s.watches.filter fun (e : Nat × Watch) => watchOn e.2 && decide (watchJob e.2 = j)
  let ls := s.losses.filter fun (e : Nat × Loss) => bitAt e.2.cfg 31 && decide (fld e.2.cfg 28 2 = j)
  (es.flatMap fun (e : Nat × Watch) => watchRec e.2 e.1) ++ ls.flatMap fun (e : Nat × Loss) => lossRec e.2 e.1

/-- A record of an entry of the job that is enabled and holds listed values. -/
def watchRecOk (j : BitVec 2) (r : BitVec 768) : Bool :=
  bitAt r 319 && decide (fld r 292 2 = j) && (watchFmt (fldN r 304 4)).isSome && decide (fldN r 308 2 < 2)

/-- A record of a monitor of the job that is armed and holds listed values. -/
def lossRecOk (j : BitVec 2) (r : BitVec 512) : Bool :=
  bitAt r 511 && decide (fld r 508 2 = j) && decide (1 ≤ fldN r 500 4) && decide (fldN r 500 4 ≤ 8)

/-- The first b of at most 8 for which the bytes are records of entries followed by b good records of monitors. -/
def imageSplit (j : BitVec 2) (bs : List Byte) : Option (List (BitVec 768) × List (BitVec 512)) :=
  (List.range 9).findSome? fun b =>
    let n := bs.length - 64 * b
    if bs.length < 64 * b ∨ n % 96 ≠ 0 then none
    else
      let es := (chunksOf 96 (n / 96) (bs.take n)).map fun c => BitVec.ofNat 768 (leNat c)
      let ls := (chunksOf 64 b (bs.drop n)).map fun c => BitVec.ofNat 512 (leNat c)
      if es.all (watchRecOk j) && ls.all (lossRecOk j) then some (es, ls) else none

/-- An entry restored as recorded, without arming; its banks are kept only where the open step is the same. -/
def restoreWatch (s : State) (r : BitVec 768) : State :=
  let w : BitVec 12 := fld r 156 12
  let s := uncover s w
  let s := if (getWatch s w).openStep = fld r 704 64 then s else clearAcc s w
  putWatch s w
    { cfg := fld r 288 32 &&& watchCfgMask, pendCfg := none, openStep := fld r 704 64, exp := fld r 176 16, history := fld r 320 256,
      satAlarm := fld r 256 32, satTotal := fld r 640 64, satLast := fld r 224 32, zeroStreak := fld r 192 32, lateCount := fld r 576 64,
      flags := fld r 168 8 &&& 0x3F }

/-- A monitor restored as recorded. -/
def restoreLoss (s : State) (r : BitVec 512) : State :=
  putLoss s (fld r 61 3)
    { cfg := fld r 480 32 &&& 0xF8F0FFFF, bandAbs := fld r 416 64, avg := fld r 352 64, last := fld r 288 64, lastStep := fld r 224 64, spikes := fld r 160 64,
      rejects := fld r 96 64, accepted := fld r 64 32 }

/-- A watch image written while no close of the job is BUSY. -/
def applyImage (s : State) (j : BitVec 2) (bs : List Byte) : State × Byte :=
  let st := (getJob s j).st
  if st ≠ .paused ∧ st ≠ .unloaded ∧ st ≠ .saved then (s, stJobState)
  else match imageSplit j bs with
    | some (es, ls) => (ls.foldl restoreLoss (es.foldl restoreWatch s), stOk)
    | none => (s, stInvalid)

/-- A write of the watch image: it waits while a close of the job is BUSY (R539, R540). -/
def writeImage (s : State) (j : BitVec 2) (bs : List Byte) : State × Byte :=
  if (getJob s j).closing.isSome then
    if (getJob s j).imageWait.isSome then (s, stBusy) else (modJob s j fun x => { x with imageWait := some bs }, stOk)
  else applyImage s j bs

/-- A watch image that waited is written once no close is BUSY. -/
def settleImage (s : State) (j : BitVec 2) : State :=
  match (getJob s j).imageWait with
  | some bs =>
    let (s, st) := applyImage (modJob s j fun x => { x with imageWait := none }) j bs
    setStatus (modJob s j fun x => { x with imageStatus := st }) st
  | none => s

/-- WATCH_IMAGE_WRITE (R540). -/
def execWatchImageWrite (_w : Writer) (job : BitVec 2) (bytes : List Byte) (s : State) : Host.Outcome State Fault Refusal :=
  .next (finish (writeImage s job bytes))

/-! ## Reports (R90-R94) -/

/-- The larger of two bounds, NONE below every number (R93). -/
def maxBound (a b : Option Int) : Option Int :=
  match a, b with
  | none, b => b
  | a, none => a
  | some x, some y => some (if x < y then y else x)

/-- A count that holds at 0xFFFF_FFFF. -/
def hold32 (n : Nat) : Nat := if n < 0xFFFFFFFF then n else 0xFFFFFFFF

/-- Two accumulators merged (R93). -/
def mergeAcc (a b : WAcc) : WAcc :=
  { reported := a.reported || b.reported, bound := maxBound a.bound b.bound, sat := hold32 (a.sat + b.sat), nonzero := a.nonzero || b.nonzero,
    lost := a.lost }

/-- The close of an entry's step by a job has begun: its accumulators are frozen (R93, R97). -/
def frozenFor (s : State) (j : BitVec 2) (w : BitVec 12) (step : W64) : Bool :=
  ((getJob s j).closing).any fun c => decide (c.step = step) && c.entries.any fun e => decide (e.widx = w)

/-- A watch record (R459). -/
def watchErr (cause : Byte) (sev : BitVec 2) (w : BitVec 12) (j : BitVec 2) (step : W64) (info1 : Nat) (die : BitVec 4) : Err :=
  { cause, sev, unit := 7, source := w.setWidth 16, job := some j, die, info0 := step, info1 := BitVec.ofNat 64 info1 }

/-- A report merged into its die's accumulator, or dropped as late (R93). -/
def mergeReport (s : State) (r : Report) : State :=
  let e := getWatch s r.widx
  let own := watchOn e && decide (watchJob e = r.job)
  let begun := frozenFor s r.job r.widx r.step
  let bank : Option Nat :=
    if own && decide (r.step = e.openStep) && !begun then some (2 * r.widx.toNat)
    else if own && decide (r.step = e.openStep + 1) then some (2 * r.widx.toNat + 1)
    else none
  match bank with
  | some k => modDie s r.die.val fun d =>
      let a : WAcc := { reported := true, bound := r.bound, sat := hold32 r.sats, nonzero := r.nonzero, lost := false }
      { d with wacc := mset WAcc.reset d.wacc k (mergeAcc (mget WAcc.reset d.wacc k) a) }
  | none =>
    putErr (putWatch s r.widx { e with lateCount := e.lateCount + 1, flags := e.flags ||| 0x08 })
      (watchErr cWatchLate 1 r.widx r.job r.step 0 (BitVec.ofNat 4 r.die.val))

/-- WATCH_REPORT_MERGE (R93): the oldest report on its way to a die's watch unit. -/
def execWatchReportMerge (die : Fin 12) (s : State) : Host.Outcome State Fault Refusal :=
  .next (match s.net.reports.find? fun r => decide (r.die = die) with
    | some r => mergeReport { s with net := { s.net with reports := s.net.reports.erase r } } r
    | none => s)

/-! ## Closes (R95-R99, R103-R105) -/

/-- X8 of a register byte: none for UNSET. -/
def x8 (b : Byte) : Option Int := if b = 0x80 then none else some b.toInt
/-- The register byte of an X8. -/
def x8Byte (e : Option Int) : Byte := match e with | none => 0x80 | some x => BitVec.ofInt 8 x

/-- The bound of history slot i; none for an empty slot. -/
def histSlot (h : BitVec 256) (i : Nat) : Option Int :=
  let b : BitVec 16 := fld h (16 * i) 16
  if b = 0x8000 then none else some b.toInt

/-- The largest bound among the first L slots (R95). -/
def histMax (h : BitVec 256) (l : Nat) : Option Int := (List.range l).foldl (fun m i => maxBound m (histSlot h i)) none

/-- The stored form of a bound: NONE is 0x8000. -/
def boundBits (b : Option Int) : BitVec 16 := match b with | none => 0x8000 | some x => BitVec.ofInt 16 x

/-- An exponent clamped to -127..127, and whether it was (R95). -/
def clampExp (x : Option Int) : Option Int × Bool :=
  match x with
  | none => (none, false)
  | some v => if 127 < v then (some 127, true) else if v < -127 then (some (-127), true) else (some v, false)

/-- The close of one entry with its merged accumulator (R95, R102, R104): the entry after it, before alarms. -/
def closeEntry (e : Watch) (acc : WAcc) (lost : Bool) : Watch :=
  let (w, signed) := (watchFmt (fldN e.cfg 16 4)).getD (8, true)
  let h : Int := fldN e.cfg 22 2
  let satLast := hold32 acc.sat
  let hist := if acc.reported then (e.history <<< 16) ||| (boundBits acc.bound).setWidth 256 else e.history
  let streak : W32 := if acc.reported then (if acc.nonzero then 0 else BitVec.ofNat 32 (hold32 (e.zeroStreak.toNat + 1))) else e.zeroStreak
  let cur := x8 (fld e.exp 8 8)
  let est := match histMax hist (watchLen e) with
    | some m => some (m + h - (if signed then (w : Int) - 1 else w))
    | none => cur
  let raised := if satLast = 0 then est else match cur with
    | none => est
    | some c => match est with | none => some (c + 1) | some x => some (if x < c + 1 then c + 1 else x)
  let (x, clamped) := clampExp raised
  let flags : Byte := e.flags ||| (if satLast = 0 then 0 else 0x01) ||| (if clamped then 0x04 else 0)
    ||| (if lost then 0x10 else 0) ||| (if cur.isNone && x.isSome then 0x20 else 0)
  { e with satLast := BitVec.ofNat 32 satLast, satTotal := e.satTotal + BitVec.ofNat 64 acc.sat, history := hist,
           zeroStreak := streak, exp := at' 16 8 (x8Byte x) ||| at' 16 0 (x8Byte cur), openStep := e.openStep + 1,
           flags }

/-- The saturation alarm fires (R103). -/
def satFires (e : Watch) : Bool := decide (e.satAlarm ≠ 0) && decide (e.satAlarm.toNat ≤ e.satLast.toNat)

/-- The zero-streak alarm fires (R104). -/
def zeroFires (e : Watch) (reported : Bool) : Bool :=
  let l := fldN e.cfg 8 8
  decide (l ≠ 0) && (decide (e.zeroStreak = 0xFFFFFFFF) || (reported && decide (e.zeroStreak ≠ 0) && decide (e.zeroStreak.toNat % l = 0)))

/-- An alarm: its record, and the pause of the owning job where ACTION says so (R105). -/
def alarm (s : State) (e : Err) (pause : Bool) (j : BitVec 2) : State :=
  let s := putErr s e
  if pause then pauseJob s j else s

/-- The accumulators of an entry's open step merged over every die that was not lost in it (R95, R99). -/
def ownAcc (s : State) (w : BitVec 12) : WAcc :=
  s.dies.foldl (fun a d =>
    let b := mget WAcc.reset d.2.wacc (2 * w.toNat)
    if b.lost then a else mergeAcc a b) WAcc.reset

/-- An accumulator merged with those that the peers exchanged for a job's step (R95, R97). -/
def peerAcc (s : State) (j : BitVec 2) (step : W64) (w : BitVec 12) (own : WAcc) : WAcc :=
  s.net.exchanged.foldl (fun a x =>
    if x.job = j ∧ x.step = step then
      match x.entries.find? fun p => decide (p.widx = w.toNat) with
      | some p => mergeAcc a { reported := p.reported, bound := p.bound, sat := p.sat, nonzero := p.nonzero, lost := false }
      | none => a
    else a) own

/-- The open bank of an entry replaced by the next one on every die (R95). -/
def turnBanks (s : State) (w : BitVec 12) : State :=
  let k := 2 * w.toNat
  { s with dies := mmap Die.reset s.dies fun _ d =>
      { d with wacc := mset WAcc.reset (mset WAcc.reset d.wacc k (newAcc d (mget WAcc.reset d.wacc (k + 1)))) (k + 1) WAcc.reset } }

/-- A die's contributions to an entry's open step are missing: a present die is not READY, or it was lost in the step (R99). -/
def dieMissing (s : State) (w : BitVec 12) : Bool :=
  (List.range 12).any fun d => diePresent s d && (!dieReady s d || (mget WAcc.reset (getDie s d).wacc (2 * w.toNat)).lost)

/-- An entry with the configuration that its close puts into effect (R86); a write made since stands for the close after. -/
def takeCfg (e : Watch) (cfg : Option W32) : Watch :=
  match cfg with
  | some v => { e with cfg := merge 0x7FFFFFFF e.cfg v, pendCfg := if e.pendCfg = some v then none else e.pendCfg }
  | none => e

/-- One entry committed: computation, banks, PARTIAL record and alarms (R95, R99, R103, R104). -/
def commitEntry (s : State) (j : BitVec 2) (step : W64) (c : CloseEnt) : State :=
  let w := c.widx
  let e := takeCfg (getWatch s w) c.cfg
  let acc := if watchNode e then peerAcc s j step w c.acc else c.acc
  let e' := closeEntry e acc c.lost
  let e' := if zeroFires e' acc.reported then { e' with flags := e'.flags ||| 0x02 } else e'
  let s := turnBanks (putWatch s w e') w
  let j := watchJob e
  let s := if c.lost then putErr s (watchErr cWatchPartial 1 w j step 0 15) else s
  let s := if satFires e' then alarm s (watchErr cWatchSat 0 w j step e'.satLast.toNat 15) (watchPause e') j else s
  if zeroFires e' acc.reported then alarm s (watchErr cWatchZero 0 w j step e'.zeroStreak.toNat 15) (watchPause e') j else s

/-- The entries that a close of a job's step covers (R95). -/
def closeSet (s : State) (j : BitVec 2) (step : W64) : List (BitVec 12) :=
  s.watches.filterMap fun e =>
    if watchOn e.2 && decide (watchJob e.2 = j) && decide (e.2.openStep = step) then some (BitVec.ofNat 12 e.1) else none

/-- The entries of a close as it begins: each with the configuration written for it and its accumulators frozen (R86, R97, R99). -/
def coverSet (s : State) (j : BitVec 2) (step : W64) : List CloseEnt :=
  (closeSet s j step).map fun w => { widx := w, cfg := (getWatch s w).pendCfg, acc := ownAcc s w, lost := dieMissing s w }

/-- An entry closes at NODE scope. -/
def nodeEnt (s : State) (c : CloseEnt) : Bool := watchNode (takeCfg (getWatch s c.widx) c.cfg)

/-- Peers that have not exchanged the accumulators of a job's step: every one of the node's three peer modules must (R98). -/
def peersMissing (s : State) (j : BitVec 2) (step : W64) : List Nat :=
  [1, 2, 3].filter fun k =>
    !s.net.exchanged.any fun x => decide (x.peer.toNat = k) && decide (x.job = j) && decide (x.step = step)

def setClose (s : State) (j : BitVec 2) (st : Nat) : State :=
  modJob s j fun x => { x with regs := { x.regs with closeStatus := setFld x.regs.closeStatus 0 2 st } }

/-- What the peers exchanged for a job's step is used up, or left behind by a close that failed. -/
def dropExchanged (s : State) (j : BitVec 2) (step : W64) : State :=
  { s with net := { s.net with exchanged := s.net.exchanged.filter fun x => decide (x.job ≠ j) || decide (x.step ≠ step) } }

/-- A close commits every entry it covers and is IDLE (R95, R96). -/
def commitClose (s : State) (j : BitVec 2) (step : W64) (cs : List CloseEnt) : State :=
  let s := dropExchanged (cs.foldl (fun s c => commitEntry s j step c) s) j step
  settleImage (setClose (modJob s j fun x => { x with closing := none }) j 0) j

/-- The module's own accumulators of NODE entries, as it exchanges them (R97). -/
def ownAccs (s : State) (cs : List CloseEnt) : List PeerAcc :=
  (cs.filter (nodeEnt s)).map fun c =>
    { widx := c.widx.toNat, reported := c.acc.reported, bound := c.acc.bound, sat := c.acc.sat, nonzero := c.acc.nonzero }

/-- The close of a job commits where every peer has exchanged (R98). -/
def tryClose (s : State) (j : BitVec 2) : State :=
  match (getJob s j).closing with
  | some c => if (peersMissing s j c.step).isEmpty then commitClose s j c.step c.entries else s
  | none => s

/-- A write of WATCH.CLOSE (R95, R96, R98): ignored with OVERRUN while a close is BUSY; a close with NODE entries waits for the peers. -/
def watchClose (s : State) (j : BitVec 2) (step : W64) : State :=
  if (getJob s j).closing.isSome then
    modJob s j fun x => { x with regs := { x.regs with closeStatus := x.regs.closeStatus ||| 4 } }
  else
    let cs := coverSet s j step
    if cs.any (nodeEnt s) then
      let s := (validPeers s).foldl (fun s k => sendCtrl s k (.watchExchange (BitVec.ofNat 2 k) j step (ownAccs s cs))) s
      tryClose (setClose (modJob s j fun x => { x with closing := some { step, since := s.mod.time, entries := cs } }) j 1) j
    else commitClose s j step cs

/-- WATCH_CLOSE (R95). -/
def execWatchClose (_w : Writer) (job : BitVec 2) (step : W64) (s : State) : Host.Outcome State Fault Refusal :=
  .next (setStatus (watchClose s job step) stOk)

/-- A peer's accumulators arrive (R97): a close that waited for them commits. -/
def peerExchange (s : State) (x : Exchanged) : State :=
  let rest := s.net.exchanged.filter fun y => !(decide (y.peer = x.peer) && decide (y.job = x.job) && decide (y.step = x.step))
  tryClose { s with net := { s.net with exchanged := rest ++ [x] } } x.job

/-- WATCH_PEER_TIMEOUT (R98): 10 ms without every peer's accumulators; the close fails and changes no entry. -/
def execWatchPeerTimeout (job : BitVec 2) (s : State) : Host.Outcome State Fault Refusal :=
  .next (match (getJob s job).closing with
    | some c =>
      let miss := peersMissing s job c.step
      if decide (c.since.toNat + 10000000 ≤ now s) && !miss.isEmpty then
        let mask : Nat := sumN (miss.map fun k => 2 ^ (k - 1))
        let s := dropExchanged (setClose (modJob s job fun x => { x with closing := none }) job 2) job c.step
        let e : Err := { cause := cWatchPeer, unit := 7, source := 0xE000 + job.setWidth 16, job := some job, die := 15,
                         info0 := c.step, info1 := BitVec.ofNat 64 mask }
        settleImage (putErr s e) job
      else s
    | none => s)

/-! ## The gauge (R100) -/

/-- What a gauge read of an entry for step t gives. -/
inductive GaugeRes where
  | value (e : Byte)
  | stall
  | stale
deriving DecidableEq, Repr

/-- A gauge read by context j on die d (R99, R100). -/
def gaugeRead (s : State) (d : Nat) (j : BitVec 2) (w : BitVec 12) (t : W64) : GaugeRes :=
  let e := getWatch s w
  if !(getDie s d).watchReady then .stall
  else if !watchOn e || decide (watchJob e ≠ j) then .value 0x80
  else if t = e.openStep then .value (fld e.exp 8 8)
  else if t.toNat + 1 = e.openStep.toNat then .value (fld e.exp 0 8)
  else if e.openStep.toNat < t.toNat then .stall
  else .stale

/-! ## Loss values (R107) -/

/-- value × 2^(exp + 24), nearest even, clamped to 64 bits signed (R107, R41). -/
def lossUnits (value : W32) (exp : Int) : Int :=
  let d := exp + 24
  let q : Int := if 0 ≤ d then value.toInt * 2 ^ d.toNat else
    let n := (-d).toNat
    let q0 := value.toInt / 2 ^ n
    let r := value.toInt % 2 ^ n
    if 2 * r > 2 ^ n ∨ (2 * r = 2 ^ n ∧ q0 % 2 ≠ 0) then q0 + 1 else q0
  let hi : Int := 2 ^ 63 - 1
  if hi < q then hi else if q < -(2 ^ 63) then -(2 ^ 63) else q

/-- A loss write by context j (R107). The first accepted write counts as the first since arming, whatever was rejected before it: DESIGN CHOICE
(log entry 59). -/
def lossWrite (s : State) (j : BitVec 2) (m : BitVec 3) (step : W64) (value : W32) (exp : Byte) : State :=
  let l := getLoss s m
  match x8 exp with
  | none => putLoss s m { l with rejects := l.rejects + 1 }
  | some ex =>
    if !bitAt l.cfg 31 || decide (fld l.cfg 28 2 ≠ j) || (decide (l.accepted ≠ 0) && decide (step.toNat ≤ l.lastStep.toNat)) then
      putLoss s m { l with rejects := l.rejects + 1 }
    else
      let v := lossUnits value ex
      let avg := l.avg.toInt
      let a := fldN l.cfg 20 4
      let band : Int := (((avg.natAbs * fldN l.cfg 8 8) / 256 : Nat) : Int) + l.bandAbs.toNat
      let next := avg + (v - avg) / (2 ^ a : Nat)
      let warm := decide (l.accepted.toNat < fldN l.cfg 0 8)
      let spike := decide (l.accepted ≠ 0) && !warm && (decide (band < v - avg) || (bitAt l.cfg 30 && decide (band < avg - v)))
      let avg' := if l.accepted = 0 then v else if spike then avg else next
      let l' := { l with avg := BitVec.ofInt 64 avg', last := BitVec.ofInt 64 v, lastStep := step,
                         accepted := BitVec.ofNat 32 (hold32 (l.accepted.toNat + 1)),
                         spikes := if spike then l.spikes + 1 else l.spikes }
      let s := putLoss s m l'
      if spike then
        alarm s { cause := cLossSpike, sev := 0, unit := 7, source := 0xF000 + m.setWidth 16, job := some j, die := 15,
                  info0 := step, info1 := BitVec.ofInt 64 v } (bitAt l.cfg 27) j
      else s

/-- LOSS_WINDOW_WRITE (R107): a loss write through the window, for a job context. -/
def execLossWindowWrite (_w : Writer) (job : BitVec 2) (mon : BitVec 3) (step : W64) (value : W32) (exp : Byte) (s : State) :
    Host.Outcome State Fault Refusal :=
  .next (setStatus (lossWrite s job mon step value exp) stOk)

end Sys2Proof.Machine
end

