-- ==== Sys2Proof/Machine/Wide.lean ====
section
/-!
DEFINITION. The wide buffer and its unit (R121-R129, R172), and the resumption of engine operations that wait on slots (R200).
-/
namespace Sys2Proof.Machine
open Sys2Proof

/-- WIDE_OWNER, WIDE_RANGE, WIDE_LOST, WIDE_ECC (R133). -/
def cWideOwner : Byte := 0x40
def cWideRange : Byte := 0x41
def cWideLost : Byte := 0x42
def cWideEcc : Byte := 0x44

/-- WIDE.CMD.OFF and COUNT of IMM, COUNT 0 meaning 4,096 (R161). -/
def immOff (o : EngOp) : Nat := fldN o.imm 12 12
def immCount (o : EngOp) : Nat := if fldN o.imm 0 12 = 0 then 4096 else fldN o.imm 0 12

structure WaccCmd where
  watchEn : Bool
  watch : BitVec 12
  rnd : Nat
  wexp : Byte
  n : Nat
  m : Nat
  off : Nat
  srcFmt : W16
  e24 : BitVec 24
  shift : BitVec 24
  src : BitVec 24
deriving DecidableEq, Repr

def waccCmd (b : BitVec 512) : WaccCmd :=
  { watchEn := bitAt b 148, watch := fld b 136 12, rnd := fldN b 134 2, wexp := fld b 126 8, n := fldN b 113 13, m := fldN b 100 13,
    off := fldN b 88 12, srcFmt := fld b 72 16, e24 := fld b 48 24, shift := fld b 24 24, src := fld b 0 24 }

/-- The elements an operation touches: first and count. -/
def wideSpan (o : EngOp) : Nat × Nat :=
  match o.kind with
  | .wacc => let p := waccCmd o.block; (p.off, p.m * p.n)
  | _ => (immOff o, immCount o)

def wideRegions (o : EngOp) : List Rgn :=
  match o.kind with
  | .wld => [{ addr := o.addr.setWidth 24, len := 8 * immCount o, al := 64, rd := true, wr := false }]
  | .wst => [{ addr := o.addr.setWidth 24, len := 8 * immCount o, al := 64, rd := false, wr := true }]
  | .wacc =>
    let p := waccCmd o.block
    rgnIf true { addr := p.src, len := 4 * p.m * p.n, al := 16, rd := true, wr := false }
    ++ rgnIf true { addr := p.shift, len := p.m, al := 16, rd := true, wr := false }
    ++ rgnIf true { addr := p.e24, len := 3 * p.m * p.n, al := 16, rd := true, wr := false }
  | _ => []

/-- The checks of a wide operation (R122-R124, R129, R133, R573). -/
def wideCauses (x : Tile) (o : EngOp) : List Byte :=
  let (off, cnt) := wideSpan o
  causeIf (fld x.regs.wideOwner 0 2 ≠ o.job) cWideOwner ++ causeIf (decide (4096 < off + cnt)) cWideRange
  ++ (match o.kind with
    | .wacc =>
      let p := waccCmd o.block
      rgnCauses x o.job (wideRegions o) ++ causeIf (!named p.src || !named p.shift) cBlockShape
      ++ causeIf (!fmtValid p.srcFmt || !isA32 p.srcFmt) cFmtInvalid ++ causeIf (decide (fmtExp p.srcFmt = 0x80) || decide (p.wexp = 0x80)) cFmtUnset
      ++ causeIf (decide (p.m = 0) || decide (p.n = 0) || decide (4096 < p.m) || decide (4096 < p.n) || decide (4096 < p.m * p.n)) cWideRange
      ++ causeIf (bitAt x.regs.wideStatus 3) cWideLost
    | _ => [])

/-- A wide accumulate waits for every press command issued before it (R126). -/
def wideGate (x : Tile) (o : EngOp) : Bool :=
  decide (o.kind ≠ .wacc) || x.eng.press.all fun p => decide (o.seq < p.seq)

/-- The wide unit's head starts, is refused or waits. -/
def wideTry (s : State) (t : W16) : State :=
  match headOp s t .wide with
  | some o => let x := getTile s t; tryStart s t o (wideRegions o) (wideGate x o) (wideCauses x o) []
  | none => s

/-- WIDE_OP_START (R126). -/
def execWideOpStart (tile : W16) (s : State) : Host.Outcome State Fault Refusal := onTile tile s fun s => wideTry s tile

def getWide (x : Tile) (i : Nat) : W64 := mget 0 x.wideBuf i

/-- Elements written from off up; each written element holds a good code. -/
def putWide (x : Tile) (off : Nat) (l : List W64) : Tile :=
  { x with
    wideBuf := (l.mapIdx fun i v => (off + i, v)).foldl (fun m e => mset 0 m e.1 e.2) x.wideBuf
    wideEcc := clrRange x.wideEcc off l.length }

/-- Elements of a span that hold a double-bit error. -/
def wideBad (x : Tile) (off n : Nat) : List Nat :=
  (x.wideEcc.filter fun e => decide (e.2 = .double) && decide (off ≤ e.1) && decide (e.1 < off + n)).map (·.1)

/-- Elements zeroed. -/
def zeroWide (x : Tile) (ks : List Nat) : Tile := ks.foldl (fun x k => putWide x k [0]) x

def noteWide (t : W16) (bits : W32) (s : State) : State :=
  if bits = 0 then s else modTile s t fun x => { x with regs := { x.regs with wideStatus := x.regs.wideStatus ||| bits } }

/-- One element of a wide accumulate: its new value, how it clamped, the converted term, whether a fraction was discarded (R124). -/
def waccElem (rnd : Nat) (wexp : Int) (old : W64) (q : Elem) (r : Nat) : W64 × Int × Int × Bool :=
  let (c, f) := convRaw q.1 q.2 wexp rnd r
  let t := old.toInt + c
  let hi : Int := 2 ^ 63 - 1
  if hi < t then (BitVec.ofInt 64 hi, 1, c, f) else if t < -(2 ^ 63) then (BitVec.ofInt 64 (-(2 ^ 63)), -1, c, f) else (BitVec.ofInt 64 t, 0, c, f)

/-- The elements of an accumulate in order. -/
def waccElems (x : Tile) (t : W16) (o : EngOp) (p : WaccCmd) : List (W64 × Int × Int × Bool) :=
  (readA32 x p.srcFmt p.src p.shift p.e24 p.m p.n).flatten.mapIdx fun i q =>
    waccElem p.rnd (expVal p.wexp) (getWide x (p.off + i)) q (drawFor o t i)

def waccFinish (s : State) (t : W16) (o : EngOp) : State :=
  let x := getTile s t
  let p := waccCmd o.block
  let es := waccElems x t o p
  let pos := (es.filter fun e => decide (e.2.1 = (1 : Int))).length
  let neg := (es.filter fun e => decide (e.2.1 = (-1 : Int))).length
  let s := satNote t pos neg (modTile s t fun x => putWide x p.off (es.map (·.1)))
  let s := noteWide t ((if pos + neg = 0 then 0 else 2) ||| (if es.any (·.2.2.2) then 4 else 0)) s
  let bound := srcBound (readA32 x p.srcFmt p.src p.shift p.e24 p.m p.n).flatten
  opDone (sendReport s t o p.watchEn p.watch bound (pos + neg) (es.any fun e => decide (e.2.2.1 ≠ (0 : Int)))) t o (wideRegions o)

/-- The words of a wide load. -/
def wldWords (x : Tile) (o : EngOp) : List W64 :=
  let bs := spadRead x (opndAddr x (o.addr.setWidth 24)) (8 * immCount o)
  (List.range (immCount o)).map fun i => BitVec.ofNat 64 (leNat ((bs.drop (8 * i)).take 8))

/-- The bytes of a wide store. -/
def wstBytes (x : Tile) (o : EngOp) : List Byte := (List.range (immCount o)).flatMap fun i => toLE 8 (getWide x (immOff o + i)).toNat

/-- A running wide operation finishes (R123, R124, R127). An element with a double-bit error that it reads is zeroed and stops it (R129). -/
def wideFinish (s : State) (t : W16) (o : EngOp) : State :=
  let x := getTile s t
  let (off, cnt) := wideSpan o
  let bad := if o.kind = .wst ∨ o.kind = .wacc then wideBad x off cnt else []
  if !bad.isEmpty then opFails (modTile s t fun x => zeroWide x bad) t o cWideEcc
  else if (wideRegions o).any (rgnBad x) then opFails s t o cSpadEcc
  else match o.kind with
    | .wclr => opDone (modTile s t fun x => putWide x off (List.replicate cnt 0)) t o []
    | .wld => opDone (modTile s t fun x => putWide x off (wldWords x o)) t o (wideRegions o)
    | .wst => opDone (opndWrite s t o.job (o.addr.setWidth 24) (wstBytes x o)) t o []
    | _ => waccFinish s t o

/-- WIDE_OP_COMPLETE (R127). -/
def execWideOpComplete (tile : W16) (s : State) : Host.Outcome State Fault Refusal :=
  onTile tile s fun s =>
    match headOp s tile .wide with
    | some o => if o.started ∧ o.slotWait.isNone then wideFinish s tile o else s
    | none => s

/-- WIDE_PATROL (R129): patrol reads an element; a single-bit error is written back, a double-bit error zeroes the element, sets LOST
and is recorded. The record names the job that TILE.WIDE_OWNER names: DESIGN CHOICE (log entry 23). -/
def execWidePatrol (tile : W16) (index : BitVec 12) (s : State) : Host.Outcome State Fault Refusal :=
  onTile tile s fun s =>
    let x := getTile s tile
    let k := index.toNat
    if (wideBad x k 1).isEmpty then putTile s tile { x with wideEcc := merase x.wideEcc k }
    else putErr (noteWide tile 8 (putTile s tile (zeroWide x [k]))) (tileErr tile (some (fld x.regs.wideOwner 0 2)) cWideEcc 0)

/-! ## Resumption (R200) -/

/-- The regions of any operation. -/
def opRegions (x : Tile) (o : EngOp) : List Rgn :=
  match o.kind with
  | .press => pressRegions x (pressCmd o.block)
  | .cvt => cvtRegions (cvtCmd o.block)
  | .gutter => gutRegions (gutCmd o.block)
  | .xpose => xposeRegions (xposeCmd o.block)
  | _ => wideRegions o

/-- The head of a unit's queue tried. -/
def unitTry (s : State) (t : W16) (u : EngUnit) : State := match u with | .press => pressTry s t | .conv => convTry s t | .wide => wideTry s t

/-- ENGINE_SLOT_RESUME (R200): an operation that waits on slots proceeds once each is FULL or drained as it needs. -/
def execEngineSlotResume (tile : W16) (unit : EngUnit) (s : State) : Host.Outcome State Fault Refusal :=
  onTile tile s fun s =>
    match headOp s tile unit with
    | some o =>
      if o.slotWait.isNone then s
      else if !o.started then unitTry s tile unit
      else if (opRegions (getTile s tile) o).any (rgnWaits (getTile s tile)) then s
      else setHead s tile unit { o with slotWait := none }
    | none => s

end Sys2Proof.Machine
end

