-- ==== Sys2Proof/Machine/Yield.lean ====
section
/-!
DEFINITION. Yields at exchange boundaries (R407-R410), and which context takes the core (R397, R398).
-/
namespace Sys2Proof.Machine
open Sys2Proof

/-- YIELD_LIST (R421). -/
def cYieldList : Byte := 0xC1

def yieldOn (c : Ctx) : Bool := bitAt c.yieldReg 63
def yieldCount (c : Ctx) : Nat := fldN c.yieldReg 57 6 + 1
def yieldList (c : Ctx) : BitVec 24 := fld c.yieldReg 33 24
def yieldPeriod (c : Ctx) : Nat := fldN c.yieldReg 0 32

/-- A yield entry's fields that R408 restricts: reserved bits zero, AT below PERIOD. -/
def yieldEntryOk (c : Ctx) (e : BitVec 128) : Bool := decide (fldN e 0 31 = 0) && decide (fldN e 96 32 < yieldPeriod c)

/-- Entry i of a context's list, when it passes the range, share and ECC checks (R409). -/
def yieldRaw (x : Tile) (j : BitVec 2) (c : Ctx) (i : Nat) : Option (BitVec 128) :=
  let v := yieldList c
  if (opndCheck x j v (16 * (i + 1)) 16).isSome then none
  else
    let a := opndAddr x v + 16 * i
    if spadBad x a 16 then none else some (BitVec.ofNat 128 (leNat (spadRead x a 16)))

/-- The whole list obeys R408: AT values rise strictly, each below PERIOD. -/
def yieldListOk (x : Tile) (j : BitVec 2) (c : Ctx) : Bool :=
  let es := (List.range (yieldCount c)).map (yieldRaw x j c)
  es.all (fun e => match e with | some e => yieldEntryOk c e | none => false)
  && (es.zip (es.drop 1)).all fun p => decide (((p.1.map fun e => fldN e 96 32).getD 0) < ((p.2.map fun e => fldN e 96 32).getD 0))

/-- The entry at the cursor read by the yield unit; one that fails clears ENABLE with a YIELD_LIST record (R409). -/
def yieldFetch (s : State) (t : W16) (j : BitVec 2) (prevAt : Option Nat) : State :=
  let x := getTile s t
  let c := getCtx x j
  let bad := putErr (modCtx s t j fun c => { c with yieldReg := setFld c.yieldReg 63 1 0, yent := none }) (tileErr t (some j) cYieldList 0)
  match yieldRaw x j c c.cursor.toNat with
  | some e =>
    if yieldEntryOk c e && (match prevAt with | some a => decide (a < fldN e 96 32) | none => true) then modCtx s t j fun c => { c with yent := some e }
    else bad
  | none => bad

/-- The conditions of a yield to context k beside the index (R409). -/
def yieldMay (x : Tile) (j k : BitVec 2) : Bool :=
  jobs4.all (fun i => decide ((getCtx x i).st ≠ .yielded)) && decide ((getCtx x k).st = .ready) && (inFiller x k != inFiller x j)

/-- The yield itself: YIELDED with its snapshot (R409, R410). -/
def yieldTake (s : State) (t : W16) (j : BitVec 2) (e : BitVec 128) : State :=
  let x := getTile s t
  let y : YieldRec := { snapshot := (getAcnt x (fldN e 34 6)).value, wakeDelta := fld e 64 32, maxUnits := fld e 40 24, wakeAcnt := fld e 34 6,
                        wakeEn := bitAt e 33, target := fld e 31 2, since := s.mod.time, due := none, lateNoted := false, leaving := true }
  markDue (putTile s t (putCtx x j { getCtx x j with st := .yielded, yrec := some y })) t

/-- The exchange boundary of a running context: TILE.XB_COUNT rises, and a boundary whose index is that of the entry that the unit has read at
the cursor yields, or is skipped where another condition fails, ENABLE among them (R409; log entry 58). -/
def yieldBoundary (s : State) (t : W16) (j : BitVec 2) : State :=
  let x := getTile s t
  let c := getCtx x j
  let idx := c.xbCount.toNat % yieldPeriod c
  let s := modCtx s t j fun c => { c with xbCount := c.xbCount + 1 }
  match c.yent with
  | none => s
  | some e =>
    if idx = fldN e 96 32 then
      let s := if yieldOn c && yieldMay x j (fld e 31 2) then yieldTake s t j e
        else modTile s t fun x => { x with regs := { x.regs with yieldsSkipped := x.regs.yieldsSkipped + 1 } }
      let n := (c.cursor.toNat + 1) % yieldCount c
      let s := modCtx s t j fun c => { c with cursor := BitVec.ofNat 6 n }
      yieldFetch s t j (if n = 0 then none else some (fldN e 96 32))
    else s

/-! ## Which context takes the core (R397, R398) -/

/-- The yielded context of a tile, with what it waits for. -/
def yieldedCtx (x : Tile) : Option (BitVec 2 × YieldRec) :=
  jobs4.findSome? fun j => if (getCtx x j).st = .yielded then (getCtx x j).yrec.map fun y => (j, y) else none

/-- The lowest-numbered READY context of which a test holds. -/
def readyCtx (x : Tile) (p : BitVec 2 → Bool) : Option (BitVec 2) := jobs4.find? fun j => decide ((getCtx x j).st = .ready) && p j

/-- The context that takes a core no context runs on (rules 3 and 4): the target of a yield just taken, the yielded context, or the first
READY one in the order of those rules. -/
def idleTaker (x : Tile) : Option (BitVec 2) :=
  match yieldedCtx x with
  | some (j, y) => if y.leaving && decide ((getCtx x y.target).st = .ready) then some y.target else some j
  | none => match x.readyOrd.find? fun j => decide ((getCtx x j).st = .ready) with
    | some j => some j
    | none => readyCtx x fun _ => true

/-- The context that takes the core from running context j at its switch point (rules 1 and 2). -/
def switchTaker (x : Tile) (j : BitVec 2) : Option (BitVec 2) :=
  match yieldedCtx x with
  | some (k, y) =>
    if y.due.isSome then some k else if inFiller x j then readyCtx x fun k => !inFiller x k else none
  | none => if inFiller x j then readyCtx x fun k => !inFiller x k else none

/-- A switch from running context j is decided (R397): it stands at a switch point, and its job pauses or another context takes the core. It
issues no further bundle, and its wait is suspended. -/
def switchDue (s : State) (t : W16) (j : BitVec 2) : Bool :=
  (getCtx (getTile s t) j).switchPt && (decide ((getJob s j).st = .pausing) || (switchTaker (getTile s t) j).isSome)

end Sys2Proof.Machine
end

