-- ==== Sys2Proof/Machine/Sync.lean ====
section
/-!
DEFINITION. The classes SYNC (R136, R156-R159), WATCH (R160), ENG (R161-R168) and XFER (R174).
-/
namespace Sys2Proof.Machine
open Sys2Proof

/-- HANDLE_INVALID and WAIT_STATUS (R176). -/
def cHandleInvalid : Byte := 0x07
def cWaitTimeout : Byte := 0x08
def cWaitStatus : Byte := 0x09

/-! ## Counter handles (R135, R136) -/

def chKind (h : W32) : Nat := fldN h 28 4
def chEpoch (h : W32) : BitVec 4 := fld h 24 4
def chIndex (h : W32) : Nat := fldN h 0 12
def chWeir (h : W32) : BitVec 12 := fld h 0 12

/-- CHSET accepts the value (R136). Kind NONE takes any index, for which R136 gives no range: DESIGN CHOICE (log entry 57). -/
def chOk (h : W32) : Bool :=
  let k := chKind h
  decide (k ≤ 4) && decide (fldN h 12 12 = 0) && (decide (k = 2) || decide (chEpoch h = 0))
  && (match k with | 1 => decide (chIndex h < 64) | 3 => decide (chIndex h < 64) | 4 => decide (chIndex h < 8) | _ => true)

/-- A refused handle (R136, R177). -/
def handleBad (h : W32) : SlotRes := excRes cHandleInvalid (h.setWidth 64)

/-! ## The objects' checks (R195, R201, R283) -/

def acntCheck (x : Tile) (j : BitVec 2) (n : Nat) : Option Byte := if (getAcnt x n).owner ≠ j then some cObjOwner else none

/-- A disabled slot comes before its owner (R201). -/
def slotCheck (x : Tile) (j : BitVec 2) (n : Nat) : Option Byte :=
  if !slotEnabled (getSlot x n) then some cSlotState else if slotOwner (getSlot x n) ≠ j then some cObjOwner else none

def hqCheck (x : Tile) (j : BitVec 2) (n : Nat) : Option Byte :=
  if !hqEnabled (getHq x n) then some cStqRefused else if hqOwner (getHq x n) ≠ j then some cObjOwner else none

/-- An exception where a check fails, else what follows. -/
def checked (o : Option Byte) (r : SlotRes) : SlotRes := match o with | some c => excRes c 0 | none => r

/-! ## Waits (R157, R158) -/

/-- A wait that resolves with a status, or holds: gD takes the status; an error with GD 0 raises WAIT_STATUS. -/
def waitRes (gD : BitVec 5) (h : W32) (st : Option Byte) (act : State → State) : SlotRes :=
  match st with
  | none => { gW := some (gD, 0), blocked := true, limit := some h }
  | some c =>
    if c ≠ 0 ∧ gD = 0 then excRes cWaitStatus (at' 64 0 h ||| at' 64 32 c)
    else { gW := some (gD, c.setWidth 64), act }

/-- The error flag of a counter cleared by a release (R239). -/
def clearMark (t : W16) (n : Nat) (s : State) : State := modTile s t fun x => putAcnt x n { getAcnt x n with err := none }

/-- WAIT on an arrival counter (R157, R239). -/
def waitAcnt (x : Tile) (t : W16) (gD : BitVec 5) (h : W32) (target : W64) : SlotRes :=
  let a := getAcnt x (chIndex h)
  match a.err with
  | some c => waitRes gD h (some c) (clearMark t (chIndex h))
  | none => waitRes gD h (if target.toNat ≤ a.value.toNat then some 0 else none) id

/-- WAIT on a slot (R157). -/
def waitSlot (x : Tile) (gD : BitVec 5) (h : W32) (sel : W64) : SlotRes :=
  let y := getSlot x (chIndex h)
  match fldN sel 0 2 with
  | 0 => waitRes gD h (if y.st = .empty then some 0 else none) id
  | 2 => waitRes gD h (if y.st = .full then some 0 else none) id
  | _ => excRes cIllegalOp 0

/-- WAIT (R157). -/
def evalWait (s : State) (t : W16) (j : BitVec 2) (gD : BitVec 5) (h : W32) (ga : W64) : SlotRes :=
  let x := getTile s t
  match chKind h with
  | 1 => checked (acntCheck x j (chIndex h)) (waitAcnt x t gD h ga)
  | 2 => checked (weirWaitCheck s t j (chWeir h)) (waitRes gD h (weirWaitRes s t (chWeir h) (chEpoch h)) (weirSeen t (chWeir h)))
  | 3 => checked (slotCheck x j (chIndex h)) (waitSlot x gD h ga)
  | 4 => checked (hqCheck x j (chIndex h)) (waitRes gD h (if (getHq x (chIndex h)).handles.isEmpty then none else some 0) id)
  | _ => handleBad h

/-- ARRIVE (R250). -/
def evalArrive (s : State) (t : W16) (j : BitVec 2) (h : W32) : SlotRes :=
  if chKind h ≠ 2 then handleBad h
  else checked (arriveCheck s t j (chWeir h)) { act := arriveAct t (chWeir h) (chEpoch h) }

/-- ARRIVE.WAIT (R156): the arrival is made as the bundle issues, whether it retires then or is held; after it only the wait half is left
(R397). -/
def evalArriveWait (s : State) (t : W16) (j : BitVec 2) (gD : BitVec 5) (h : W32) (arrived : Bool) : SlotRes :=
  if chKind h ≠ 2 then handleBad h
  else if arrived then evalWait s t j gD h 0
  else checked (arriveCheck s t j (chWeir h)) (
    let r := evalWait s t j gD h 0
    let go := arriveAct t (chWeir h) (chEpoch h)
    { r with start := go, act := fun s => r.act (go s) })

/-- ACNT.ADD (R193, R195). -/
def acntAddAct (t : W16) (j : BitVec 2) (n : Nat) (v : W64) (s : State) : State :=
  if (getAcnt (getTile s t) n).enable then acntAdd s t n v else putErr s (tileErr t (some j) cArrivalDropped 0)

/-- SLOT.DRAIN (R199, R201, R285). -/
def evalDrain (x : Tile) (t : W16) (n : Nat) : SlotRes :=
  let y := getSlot x n
  match y.st with
  | .filling => excRes cSlotState 0
  | .empty => {}
  | .full => { blocked := y.heldEmpty.isSome, act := fun s => slotDrain s t n }

/-- HQ.POP (R156). A queue that drains is disabled as its last handle leaves it (R306). -/
def evalPop (x : Tile) (t : W16) (gD : BitVec 5) (h : W32) : SlotRes :=
  let n := chIndex h
  match (getHq x n).handles with
  | [] => { gW := some (gD, 0), blocked := true, limit := some h }
  | v :: _ => { gW := some (gD, v.setWidth 64), act := fun s => settleHq (modTile s t fun x => putHq x n { getHq x n with handles := (getHq x n).handles.drop 1 }) t n }

/-- HQ.PUSH (R156, R285). -/
def evalPush (x : Tile) (t : W16) (j : BitVec 2) (h : W32) (v : W32) : SlotRes :=
  let n := chIndex h
  if (getHq x n).handles.length < 64 ∨ (getHq x n).draining then
    { act := fun s => (pushHandle s (tDie t) (BitVec.ofNat 13 n) t j v .window).1 }
  else { blocked := true, limit := some h }

/-- HINT is zero but for WAIT, ARRIVE.WAIT, HQ.POP and HQ.PUSH, and never 3 (R159). -/
def hintOk (op : BitVec 6) (hint : BitVec 2) : Bool := decide (hint = 0) || (decide (hint ≠ 3) && [2, 4, 9, 10].contains op.toNat)

/-- A SYNC slot (R156). -/
def evalSync (s : State) (t : W16) (j : BitVec 2) (c : Ctx) (op : BitVec 6) (gD : BitVec 5) (ch : BitVec 4) (gA : BitVec 5)
    (hint : BitVec 2) (arrived : Bool) : SlotRes :=
  let x := getTile s t
  let h := getC c ch
  let n := chIndex h
  let a := getG c gA
  if !hintOk op hint then excRes cIllegalOp 0
  else match op.toNat with
  | 0x00 => if chOk (a.setWidth 32) then { cW := some (ch, a.setWidth 32) } else handleBad (a.setWidth 32)
  | 0x01 => { gW := some (gD, h.setWidth 64) }
  | 0x02 => evalWait s t j gD h a
  | 0x03 => evalArrive s t j h
  | 0x04 => evalArriveWait s t j gD h arrived
  | 0x05 => if chKind h ≠ 1 then handleBad h else checked (acntCheck x j n) { gW := some (gD, (getAcnt x n).value) }
  | 0x06 => if chKind h ≠ 1 then handleBad h else checked (acntCheck x j n) { act := acntAddAct t j n a }
  | 0x07 => if chKind h ≠ 3 then handleBad h else checked (slotCheck x j n) (evalDrain x t n)
  | 0x08 => if chKind h ≠ 3 then handleBad h else checked (slotCheck x j n) { gW := some (gD, (slotStatusReg (getSlot x n)).setWidth 64) }
  | 0x09 => if chKind h ≠ 4 then handleBad h else checked (hqCheck x j n) (evalPop x t gD h)
  | 0x0A => if chKind h ≠ 4 then handleBad h else checked (hqCheck x j n) (evalPush x t j h (a.setWidth 32))
  | _ => excRes cIllegalOp 0

/-! ## WATCH (R100, R160) -/

def evalWatch (s : State) (t : W16) (j : BitVec 2) (c : Ctx) (op : BitVec 6) (gD gA gB : BitVec 5) (widx : BitVec 12) (mon : BitVec 3) : SlotRes :=
  match op.toNat with
  | 0x00 =>
    match gaugeRead s (tDie t) j widx (getG c gA) with
    | .value e => { gW := some (gD, e.setWidth 64) }
    | .stall => { gW := some (gD, 0), blocked := true }
    | .stale => excRes cGaugeStale 0
  | 0x01 => { act := fun s => lossWrite s j mon (getG c gA) (fld (getG c gB) 0 32) (fld (getG c gB) 32 8) }
  | _ => excRes cIllegalOp 0

/-! ## ENG (R161-R168) -/

/-- The kind of an ENG operation. -/
def engKind (op : BitVec 6) : Option EngKind :=
  match op.toNat with
  | 0x00 => some .press | 0x01 => some .cvt | 0x02 => some .gutter | 0x03 => some .xpose
  | 0x08 => some .wclr | 0x09 => some .wld | 0x0A => some .wst | 0x0B => some .wacc
  | _ => none

/-- Bytes of an operation's block; 0 where it has none (R161). -/
def blockSize (k : EngKind) : Nat := match k with | .press => 64 | .cvt | .gutter | .wacc => 32 | .xpose => 16 | _ => 0

/-- A reserved bit of OVR or IMM is set, or GA of WCLR is not 0 (R161, R168). OVR bits on WCLR, WLD and WST, which the table of R168 does not
list, are ignored: DESIGN CHOICE (log entry 57). -/
def engReserved (k : EngKind) (a : EngArg) : Bool :=
  match k with
  | .press | .cvt => decide (fldN a.imm 1 23 ≠ 0)
  | .gutter => decide (fldN a.imm 1 23 ≠ 0) || bitAt a.ovr 3
  | .xpose => decide (fldN a.imm 1 23 ≠ 0) || decide (fldN a.ovr 2 2 ≠ 0)
  | .wclr => decide (a.gA ≠ 0)
  | .wacc => decide (a.imm ≠ 0)
  | _ => false

/-- Where an override's fields lie in its block: low bit, bits, from gB or gC, from bit (R167-R172). -/
def ovrFields (k : EngKind) : List (Nat × Nat × Bool × Nat) :=
  match k with
  | .press => [(184, 24, false, 0), (208, 24, false, 24), (280, 24, true, 0), (304, 24, true, 24)]
  | .cvt => [(0, 24, false, 0), (72, 24, false, 24), (24, 24, true, 0), (96, 24, true, 24)]
  | .gutter => [(0, 24, false, 0), (48, 24, false, 24), (72, 24, true, 0)]
  | .xpose => [(0, 24, false, 0), (24, 24, false, 24)]
  | .wacc => [(0, 24, false, 0), (24, 24, false, 24), (48, 24, true, 0), (88, 12, true, 24)]
  | _ => []

/-- A block with its overrides (R168). -/
def overridden (k : EngKind) (ovr : BitVec 4) (b c : W64) (w : BitVec 512) : BitVec 512 :=
  (ovrFields k).zipIdx.foldl (fun w f =>
    if bitAt ovr f.2 then setFld w f.1.1 f.1.2.1 (fldN (if f.1.2.2.1 then c else b) f.1.2.2.2 f.1.2.1) else w) w

/-- The precise check of a block address or of the address of WLD and WST (R148, R166). -/
def engAddrCheck (x : Tile) (j : BitVec 2) (k : EngKind) (a : W64) (imm : BitVec 24) : Option (Byte × W64) :=
  let cnt := if fldN imm 0 12 = 0 then 4096 else fldN imm 0 12
  let (n, al) : Nat × Nat := match k with | .wld | .wst => (8 * cnt, 64) | _ => (blockSize k, blockSize k)
  if k = .wclr then none
  else if a.toNat % al ≠ 0 then some (cMisaligned, a)
  else if !inShare x j a.toNat n then some (cAddrRange, a)
  else none

/-- An ENG slot: the block is copied and the operation takes a place in its engine's queue of 4 (R161, R162, R164). -/
def evalEng (s : State) (t : W16) (j : BitVec 2) (c : Ctx) (op : BitVec 6) (a : EngArg) : SlotRes :=
  let x := getTile s t
  match engKind op with
  | none => excRes cIllegalOp 0
  | some k =>
    if engReserved k a then excRes cIllegalOp 0
    else
      let addr := getG c a.gA
      match engAddrCheck x j k addr a.imm with
      | some e => { exc := some e }
      | none =>
        let raw : BitVec 512 := BitVec.ofNat 512 (leNat (spadRead x addr.toNat (blockSize k)))
        let o : EngOp := { kind := k, job := j, block := overridden k a.ovr (getG c a.gB) (getG c a.gC) raw, addr, imm := a.imm, doneEn := a.doneEn,
                           done := a.done, seq := x.eng.seq, pc := c.pc, started := false, slotWait := none, rngSeed := 0, rngStep := 0,
                           rngOp := 0, watchStep := 0, injected := false }
        let bad := decide (k ≠ .wclr) && spadBad x addr.toNat (blockSize k)
        { blocked := decide (4 ≤ (unitQ x (kindUnit k)).length)
          act := fun s =>
            if bad then excDeferred s t j true cSpadEcc c.pc (opInfo o) false
            else modTile s t fun x => setUnitQ { x with eng := { x.eng with seq := x.eng.seq + 1 } } (kindUnit k) (unitQ x (kindUnit k) ++ [o]) }

/-! ## XFER (R174) -/

/-- The end of a tile's exchange phase (R207, R215, R409): the boundary, or the deferred exception of the entry that failed. -/
def exchEnd (t : W16) (j : BitVec 2) (s : State) : State :=
  match getExch s t with
  | some e =>
    let s := setExch s t none
    match e.failed with
    | some cause => excDeferred s t j true cause e.pc 0 false
    | none =>
      let s := modCtx s t j fun c => { c with switchPt := true }
      if (getCtx (getTile s t) j).st = .running then yieldBoundary s t j else modCtx s t j fun c => { c with xbCount := c.xbCount + 1 }
  | none => s

/-- EXCH (R206, R207, R215): the folio's address is checked at issue; its header too, whose failure ends the phase at once. -/
def evalExch (s : State) (t : W16) (j : BitVec 2) (c : Ctx) (gA : BitVec 5) (held : Bool) : SlotRes :=
  let x := getTile s t
  let a := getG c gA
  if held then { blocked := !exchDone s t, act := exchEnd t j }
  else if a.toNat % 64 ≠ 0 then excRes cMisaligned a
  else if !inShare x j a.toNat 16 then excRes cAddrRange a
  else if spadBad x a.toNat 16 then { act := fun s => excDeferred s t j true cSpadEcc c.pc 0 false }
  else match headerCheck s (quad x a.toNat) with
    | some cause => { act := fun s => excDeferred s t j true cause c.pc 0 false }
    | none => { blocked := true, start := exchStart t j a (fldN (quad x a.toNat) 0 13) c.pc }

/-- SPOST (R274). -/
def evalSpost (s : State) (t : W16) (j : BitVec 2) (c : Ctx) (gA : BitVec 5) (q : BitVec 12) : SlotRes :=
  let x := getTile s t
  let a := getG c gA
  let d := getDie s (tDie t)
  match postCheck d q j with
  | some cause => excRes cause 0
  | none =>
    match memCheck x j a 64 with
    | some e => { exc := some e }
    | none =>
      if spadBad x a.toNat 64 then excRes cSpadEcc a
      else
        let desc : BitVec 512 := BitVec.ofNat 512 (leNat (spadRead x a.toNat 64))
        let full := (postFree d (getStq d q)).isNone
        { blocked := full, limit := if full then some 0 else none
          act := fun s => postDesc s (tDie t) q t j false desc }

/-- REARM (R291). -/
def evalRearm (s : State) (t : W16) (j : BitVec 2) (c : Ctx) (gB : BitVec 5) (q : BitVec 12) : SlotRes :=
  if 1024 ≤ q.toNat then excRes cIllegalOp 0
  else
    let n : BitVec 10 := q.setWidth 10
    let r := getReach (getDie s (tDie t)) n
    let b := getG c gB
    match rearmCheck r j b with
    | some cause => excRes cause (if cause = cMisaligned then b else 0)
    | none => { blocked := r.pending, limit := if r.pending then some 0 else none
                act := fun s => modDie s (tDie t) fun d => putReach d n (rearmReach (getReach d n) b) }

/-- An XFER slot (R174). -/
def evalXfer (s : State) (t : W16) (j : BitVec 2) (c : Ctx) (op : BitVec 6) (gA gB : BitVec 5) (q : BitVec 12) (held : Bool) : SlotRes :=
  match op.toNat with
  | 0x00 => evalExch s t j c gA held
  | 0x01 => evalSpost s t j c gA q
  | 0x02 => evalRearm s t j c gB q
  | _ => excRes cIllegalOp 0

end Sys2Proof.Machine
end

