-- ==== Sys2Proof/Machine/Issue.lean ====
section
/-!
DEFINITION. The bundle: issue, the fixed order of its effects, precise exceptions, held bundles and waiting states (R137-R143, R158, R159, R255-R259).
-/
namespace Sys2Proof.Machine
open Sys2Proof

/-- BUNDLE_CONFLICT and FETCH_RANGE (R176). -/
def cBundleConflict : Byte := 0x02
def cFetchRange : Byte := 0x05

/-- The class may stand in the slot (R138). -/
def classAllowed (eng : Bool) (o : SlotOp) : Bool :=
  match o with
  | .sys op _ _ _ => !eng || decide (op = 0)
  | .alu .. | .alui .. => true
  | .br .. | .mem .. | .sync .. | .watch .. => !eng
  | .valu .. | .vmem .. | .eng .. | .xfer .. => eng
  | .reserved => false

/-- What one slot does: held says that its bundle has issued and waits, arrived that its arrival is made. -/
def evalSlot (s : State) (t : W16) (j : BitVec 2) (c : Ctx) (eng held arrived : Bool) (w : SlotWord) : SlotRes :=
  if !guardTrue c w then {}
  else if !classAllowed eng w.op || w.rsv then excRes cIllegalOp 0
  else match w.op with
  | .sys op gD gA csr => evalSys s t j c op gD gA csr
  | .alu op gD gA gB => evalAlu c op gD gA gB
  | .alui op gD gA imm => evalAlui c op gD gA imm
  | .br op gD gA off => evalBr c op gD gA off
  | .mem op gT gA off => evalMem (getTile s t) j c op gT gA off
  | .sync op gD ch gA hint => evalSync s t j c op gD ch gA hint arrived
  | .watch op gD gA gB widx mon => evalWatch s t j c op gD gA gB widx mon
  | .valu op a => evalValu t c op a
  | .vmem op v gA lw lane off => evalVmem (getTile s t) j c op v gA lw lane off
  | .eng op a => evalEng s t j c op a
  | .xfer op gA gB q => evalXfer s t j c op gA gB q held
  | .reserved => excRes cIllegalOp 0

/-- Both slots would write one register; discarded writes of g0 and p0 take no part (R139). -/
def writesMeet (a b : SlotRes) : Bool :=
  (match a.gW, b.gW with | some (i, _), some (k, _) => decide (i = k) && decide (i ≠ 0) | _, _ => false)
  || (match a.vW, b.vW with | some (i, _), some (k, _) => decide (i = k) | _, _ => false)
  || (match a.pW, b.pW with | some (i, _), some (k, _) => decide (i = k) && decide (i ≠ 0) | _, _ => false)

/-- The precise exception of a bundle, if any: the control slot's first (R141, R177): engine slot or not, cause, EXC_INFO. -/
def bundleExc (a b : SlotRes) : Option (Bool × Byte × W64) :=
  match a.exc, b.exc with
  | some (c, i), _ => some (false, c, i)
  | none, some (c, i) => some (true, c, i)
  | none, none => if writesMeet a b then some (false, cBundleConflict, 0) else none

/-- The register writes of a slot (R134, R139). -/
def putRegs (r : SlotRes) (c : Ctx) : Ctx :=
  let c := match r.gW with | some (i, v) => setG c i v | none => c
  let c := match r.vW with | some (i, v) => setV c i v | none => c
  let c := match r.pW with | some (i, v) => setP c i v | none => c
  match r.cW with | some (i, v) => setC c i v | none => c

/-- A slot's store (R140). -/
def putStore (t : W16) (j : BitVec 2) (r : SlotRes) (s : State) : State :=
  match r.store with | some (a, bs) => spadWrite s t j a bs | none => s

/-- The operation is a wait of R397. -/
def isWaitOp (o : SlotOp) : Bool := match o with | .sync op _ _ _ _ => [2, 4, 9, 10].contains op.toNat | _ => false
def isNop (o : SlotOp) : Bool := match o with | .sys op _ _ _ => decide (op = 0) | _ => false

/-- A bundle that leaves its context at a switch point: a wait, or one whose slots are all guarded false (R397). -/
def keepsPoint (c : Ctx) (ctl eng : SlotWord) : Bool :=
  (!guardTrue c ctl && !guardTrue c eng) || (guardTrue c ctl && isWaitOp ctl.op && (isNop eng.op || !guardTrue c eng))

/-- The line of a bundle in the fetch buffer, newest first, 16 lines (R143). -/
def fetchLine (l : List Nat) (pc : W64) : List Nat :=
  let a := pc.toNat / 64
  if l.contains a then l else (a :: l).take 16

/-- The context after a bundle retires: registers, TILE.BUNDLES, PC, switch point. -/
def retireCtx (c : Ctx) (ctl eng : SlotWord) (a b : SlotRes) : Ctx :=
  let pc := match a.target with | some p => p | none => c.pc + 16
  let keep := c.switchPt && keepsPoint c ctl eng
  { putRegs b (putRegs a c) with bundles := c.bundles + 1, pc, wait := none, switchPt := keep }

/-- A bundle retires: the control slot's store, the engine slot's, registers, then the other effects (R139, R140). -/
def retire (s : State) (t : W16) (j : BitVec 2) (ctl eng : SlotWord) (a b : SlotRes) : State :=
  let s := putStore t j b (putStore t j a s)
  let s := modTile s t fun x =>
    let c := getCtx x j
    { putCtx x j (retireCtx c ctl eng a b) with fetchBuf := fetchLine x.fetchBuf c.pc }
  b.act (a.act s)

/-! ## Waiting states (R159, R256, R258) -/

/-- HINT of a waiting slot. -/
def waitHint (w : SlotWord) : Nat := match w.op with | .sync _ _ _ _ h => h.toNat | _ => 1

/-- The power manager accepts a loan (R258): LEND_EN, and the half is not at ¼ step. -/
def loanOk (s : State) (t : W16) : Bool := bitAt s.mod.waitCfg 15 && decide ((tileHalf s t).step ≠ 2)

/-- The tile works for the waiting context: an engine holds an operation of it, or its exchange phase runs (R159; log entry 58). -/
def tileWorks (x : Tile) (j : BitVec 2) : Bool := engBusy x j || x.eng.exch.any fun e => decide (e.job = j)

/-- LEND where the loan is accepted; where it is declined DOZE, once the spin period is over; SPIN while the tile works for the context
(R159, R256, R258). -/
def lendOrDoze (s : State) (t : W16) (j : BitVec 2) (spun : Bool) : WaitPwr :=
  if tileWorks (getTile s t) j then .spin else if loanOk s t then .lend else if spun then .doze else .spin

/-- A wait starts in SPIN; one that blocks under HINT LEND lends at once (R159, R256). -/
def firstPwr (s : State) (t : W16) (j : BitVec 2) (ctl : SlotWord) (a : SlotRes) : WaitPwr :=
  if a.blocked && isWaitOp ctl.op && decide (waitHint ctl = 2) then lendOrDoze s t j (decide (fldN s.mod.waitCfg 16 16 = 0)) else .spin

/-- A bundle that cannot retire waits: what it does at once is done (R158, R206). -/
def hold (s : State) (t : W16) (j : BitVec 2) (ctl eng : SlotWord) (a b : SlotRes) : State :=
  let r : WaitRec := { ctl, eng, arrived := true, since := s.mod.time, elapsed := 0, pwr := .spin, suspended := false }
  let s := b.start (a.start (modCtx s t j fun c => { c with wait := some r, switchPt := c.switchPt && keepsPoint c ctl eng }))
  modCtx s t j fun c => { c with wait := c.wait.map fun w => { w with pwr := firstPwr s t j ctl a } }

/-- A precise exception of a bundle; an exchange phase it began ends with it. -/
def bundleFails (s : State) (t : W16) (j : BitVec 2) (e : Bool × Byte × W64) (held : Bool) : State :=
  let s := if held then (match getExch s t with | some x => if x.job = j then setExch s t none else s | none => s) else s
  excPrecise s t j e.1 e.2.1 e.2.2

/-- The bundle of a context: it fails, waits or retires. -/
def runBundle (s : State) (t : W16) (j : BitVec 2) (ctl eng : SlotWord) (held arrived : Bool) : State :=
  let c := getCtx (getTile s t) j
  let a := evalSlot s t j c false held arrived ctl
  let b := evalSlot s t j c true held arrived eng
  match bundleExc a b with
  | some e => bundleFails s t j e held
  | none =>
    if a.blocked || b.blocked then (if held then s else hold s t j ctl eng a b)
    else retire s t j ctl eng a b

/-- The fetch of the bundle at PC fails: outside the share (R142), or with a double-bit error in a line that the fetch buffer does
not hold (R203). -/
def fetchExc (x : Tile) (j : BitVec 2) (pc : W64) : Option Byte :=
  if !inShare x j pc.toNat 16 then some cFetchRange
  else if spadBad x pc.toNat 16 && !x.fetchBuf.contains (pc.toNat / 64) then some cSpadEcc
  else none

/-- A bundle issues on a tile's core: the running context's, where it holds none and no switch from it is decided (R397, log entry 2). -/
def issue (s : State) (t : W16) (ctl eng : SlotWord) : State :=
  let x := getTile s t
  match runningCtx x with
  | none => s
  | some j =>
    let c := getCtx x j
    if c.wait.isSome || switchDue s t j then s
    else match fetchExc x j c.pc with
      | some cause => excPrecise s t j false cause c.pc
      | none => runBundle s t j ctl eng false false

/-- A core slot's command: its bundle issues on the tile it names. -/
def slotCmd (h : SlotHdr) (op : SlotOp) (s : State) : Host.Outcome State Fault Refusal :=
  onTile h.tile s fun s => issue s h.tile (bundleOf h op).1 (bundleOf h op).2

/-! ## Held bundles -/

/-- The held bundle of a context, tried again. A wait suspended by a switch that is decided stays (R397). -/
def tryRetire (s : State) (t : W16) (j : BitVec 2) : State :=
  match (getCtx (getTile s t) j).wait with
  | some w => if switchDue s t j then s else runBundle s t j w.ctl w.eng true w.arrived
  | none => s

/-- The running context of a tile with its held bundle, where a test holds of it and no switch from it is decided. -/
def heldIf (s : State) (t : W16) (p : WaitRec → Bool) : Option (BitVec 2 × WaitRec) :=
  (runningCtx (getTile s t)).bind fun j =>
    ((getCtx (getTile s t) j).wait.filter fun w => p w && !switchDue s t j).map fun w => (j, w)

def isGauge (o : SlotOp) : Bool := match o with | .watch op _ _ _ _ _ => decide (op = 0) | _ => false
def isHalt (o : SlotOp) : Bool := match o with | .sys op _ _ _ => decide (op = 1) | _ => false

/-- Nanoseconds a held bundle has waited while its context held the core (R158). -/
def waited (s : State) (w : WaitRec) : Nat := w.elapsed.toNat + (if w.suspended then 0 else now s - w.since.toNat)

/-- WAIT_RELEASE (R157, R255): the held bundle retires, or raises its exception, once what it waits for holds. -/
def execWaitRelease (tile : W16) (s : State) : Host.Outcome State Fault Refusal :=
  onTile tile s fun s => match heldIf s tile fun w => !isGauge w.ctl.op && !isHalt w.ctl.op with
    | some (j, _) => tryRetire s tile j
    | none => s

/-- HALT_RETIRE (R149). -/
def execHaltRetire (tile : W16) (s : State) : Host.Outcome State Fault Refusal :=
  onTile tile s fun s => match heldIf s tile fun w => isHalt w.ctl.op with
    | some (j, _) => tryRetire s tile j
    | none => s

/-- GAUGE_STALL_RELEASE (R100). -/
def execGaugeStallRelease (tile : W16) (s : State) : Host.Outcome State Fault Refusal :=
  onTile tile s fun s => match heldIf s tile fun w => isGauge w.ctl.op with
    | some (j, _) => tryRetire s tile j
    | none => s

/-- EXCH_BOUNDARY (R207): every entry of the tile's phase has issued and its payload been read. -/
def execExchBoundary (tile : W16) (s : State) : Host.Outcome State Fault Refusal :=
  onTile tile s fun s => match getExch s tile with
    | some e => if exchDone s tile then tryRetire s tile e.job else s
    | none => s

/-- GAUGE_TIMEOUT (R100): a gauge read has stalled for 1 ms. -/
def execGaugeTimeout (tile : W16) (s : State) : Host.Outcome State Fault Refusal :=
  onTile tile s fun s => match heldIf s tile fun w => isGauge w.ctl.op && decide (1000000 ≤ waited s w) with
    | some (j, w) =>
      let c := getCtx (getTile s tile) j
      if (evalSlot s tile j c false true true w.ctl).blocked then bundleFails s tile j (false, cGaugeTimeout, 0) true else s
    | none => s

/-- What a held bundle's limit counts: the first slot that waits under TILE.WAIT_LIMIT, engine slot or not, and its handle (R158). -/
def limitOf (a b : SlotRes) : Option (Bool × W32) :=
  match a.blocked, a.limit, b.blocked, b.limit with
  | true, some h, _, _ => some (false, h)
  | _, _, true, some h => some (true, h)
  | _, _, _, _ => none

/-- WAIT_TIMEOUT (R158, R274, R291): the held bundle has waited for TILE.WAIT_LIMIT with the core. A limit of 0 is no limit. -/
def execWaitTimeout (tile : W16) (s : State) : Host.Outcome State Fault Refusal :=
  onTile tile s fun s => match heldIf s tile fun _ => true with
    | some (j, w) =>
      let c := getCtx (getTile s tile) j
      let lim := c.waitLimit.toNat
      match limitOf (evalSlot s tile j c false true w.arrived w.ctl) (evalSlot s tile j c true true w.arrived w.eng) with
      | some (eng, h) => if lim ≠ 0 ∧ 1000 * lim ≤ waited s w then bundleFails s tile j (eng, cWaitTimeout, h.setWidth 64) true else s
      | none => s
    | none => s

/-- The control slot of a held bundle waits, under a hint that allows a state beside SPIN (R159, R256). -/
def mayLend (s : State) (t : W16) (j : BitVec 2) (w : WaitRec) : Bool :=
  isWaitOp w.ctl.op && [0, 2].contains (waitHint w.ctl)
  && (evalSlot s t j (getCtx (getTile s t) j) false true w.arrived w.ctl).blocked

/-- SPIN_PERIOD_EXPIRE (R159, R256): a spinning wait whose hint allows it lends or dozes once the spin period is over; under HINT LEND it lends
as soon as the tile's engines are empty. -/
def execSpinPeriodExpire (tile : W16) (s : State) : Host.Outcome State Fault Refusal :=
  onTile tile s fun s => match heldIf s tile fun w => decide (w.pwr = .spin) with
    | some (j, w) =>
      let spun := decide (w.since.toNat + 125 * fldN s.mod.waitCfg 16 16 ≤ now s)
      if mayLend s tile j w && (spun || decide (waitHint w.ctl = 2)) then
        modCtx s tile j fun c => { c with wait := some { w with pwr := lendOrDoze s tile j spun } }
      else s
    | none => s

/-- FOLIO_ENTRY_ISSUE (R217): the next entry of the tile's running phase is checked and issues where its conditions hold. -/
def execFolioEntryIssue (tile : W16) (s : State) : Host.Outcome State Fault Refusal :=
  onTile tile s fun s => match getExch s tile with
    | some e =>
      if e.next < e.count then
        let s := issueEntry s tile e
        if (getExch s tile).any fun x => x.failed.isSome then tryRetire s tile e.job else s
      else s
    | none => s

/-- XCH_TIMEOUT (R219): the boundary is not reached within TILE.WAIT_LIMIT; the phase ends with the exception once its bundle retires. -/
def execXchTimeout (tile : W16) (s : State) : Host.Outcome State Fault Refusal :=
  onTile tile s fun s => match getExch s tile with
    | some e =>
      let lim := (getCtx (getTile s tile) e.job).waitLimit.toNat
      if e.next < e.count ∧ lim ≠ 0 ∧ e.since.toNat + 1000 * lim ≤ now s then tryRetire (failExch s tile e cXchTimeout) tile e.job else s
    | none => s

end Sys2Proof.Machine
end

