-- ==== Sys2Proof/Machine/CoreExec.lean ====
section
/-!
DEFINITION. The instructions of a tile core: each is its slot's operation, issued in its bundle (R137-R174).
-/
namespace Sys2Proof.Machine
open Sys2Proof

/-- ADD (R145). -/
def execAdd (h : SlotHdr) (gD gA gB : BitVec 5) (s : State) : Host.Outcome State Fault Refusal :=
  slotCmd h (.alu 0x00 gD gA gB) s

/-- SUB (R145). -/
def execSub (h : SlotHdr) (gD gA gB : BitVec 5) (s : State) : Host.Outcome State Fault Refusal :=
  slotCmd h (.alu 0x01 gD gA gB) s

/-- AND (R145). -/
def execAnd (h : SlotHdr) (gD gA gB : BitVec 5) (s : State) : Host.Outcome State Fault Refusal :=
  slotCmd h (.alu 0x02 gD gA gB) s

/-- OR (R145). -/
def execOr (h : SlotHdr) (gD gA gB : BitVec 5) (s : State) : Host.Outcome State Fault Refusal :=
  slotCmd h (.alu 0x03 gD gA gB) s

/-- XOR (R145). -/
def execXor (h : SlotHdr) (gD gA gB : BitVec 5) (s : State) : Host.Outcome State Fault Refusal :=
  slotCmd h (.alu 0x04 gD gA gB) s

/-- SHL (R145). -/
def execShl (h : SlotHdr) (gD gA gB : BitVec 5) (s : State) : Host.Outcome State Fault Refusal :=
  slotCmd h (.alu 0x05 gD gA gB) s

/-- SHR (R145). -/
def execShr (h : SlotHdr) (gD gA gB : BitVec 5) (s : State) : Host.Outcome State Fault Refusal :=
  slotCmd h (.alu 0x06 gD gA gB) s

/-- SRA (R145). -/
def execSra (h : SlotHdr) (gD gA gB : BitVec 5) (s : State) : Host.Outcome State Fault Refusal :=
  slotCmd h (.alu 0x07 gD gA gB) s

/-- MUL (R145). -/
def execMul (h : SlotHdr) (gD gA gB : BitVec 5) (s : State) : Host.Outcome State Fault Refusal :=
  slotCmd h (.alu 0x08 gD gA gB) s

/-- MULH (R145). -/
def execMulh (h : SlotHdr) (gD gA gB : BitVec 5) (s : State) : Host.Outcome State Fault Refusal :=
  slotCmd h (.alu 0x09 gD gA gB) s

/-- MULHU (R145). -/
def execMulhu (h : SlotHdr) (gD gA gB : BitVec 5) (s : State) : Host.Outcome State Fault Refusal :=
  slotCmd h (.alu 0x0A gD gA gB) s

/-- MIN (R145). -/
def execMin (h : SlotHdr) (gD gA gB : BitVec 5) (s : State) : Host.Outcome State Fault Refusal :=
  slotCmd h (.alu 0x0B gD gA gB) s

/-- MAX (R145). -/
def execMax (h : SlotHdr) (gD gA gB : BitVec 5) (s : State) : Host.Outcome State Fault Refusal :=
  slotCmd h (.alu 0x0C gD gA gB) s

/-- MINU (R145). -/
def execMinu (h : SlotHdr) (gD gA gB : BitVec 5) (s : State) : Host.Outcome State Fault Refusal :=
  slotCmd h (.alu 0x0D gD gA gB) s

/-- MAXU (R145). -/
def execMaxu (h : SlotHdr) (gD gA gB : BitVec 5) (s : State) : Host.Outcome State Fault Refusal :=
  slotCmd h (.alu 0x0E gD gA gB) s

/-- EXT (R145). -/
def execExt (h : SlotHdr) (gD gA gB : BitVec 5) (s : State) : Host.Outcome State Fault Refusal :=
  slotCmd h (.alu 0x0F gD gA gB) s

/-- DEP (R145). -/
def execDep (h : SlotHdr) (gD gA gB : BitVec 5) (s : State) : Host.Outcome State Fault Refusal :=
  slotCmd h (.alu 0x10 gD gA gB) s

/-- CLZ (R145). -/
def execClz (h : SlotHdr) (gD gA gB : BitVec 5) (s : State) : Host.Outcome State Fault Refusal :=
  slotCmd h (.alu 0x11 gD gA gB) s

/-- POPC (R145). -/
def execPopc (h : SlotHdr) (gD gA gB : BitVec 5) (s : State) : Host.Outcome State Fault Refusal :=
  slotCmd h (.alu 0x12 gD gA gB) s

/-- CMPEQ (R145). -/
def execCmpeq (h : SlotHdr) (gD gA gB : BitVec 5) (s : State) : Host.Outcome State Fault Refusal :=
  slotCmd h (.alu 0x20 gD gA gB) s

/-- CMPNE (R145). -/
def execCmpne (h : SlotHdr) (gD gA gB : BitVec 5) (s : State) : Host.Outcome State Fault Refusal :=
  slotCmd h (.alu 0x21 gD gA gB) s

/-- CMPLT (R145). -/
def execCmplt (h : SlotHdr) (gD gA gB : BitVec 5) (s : State) : Host.Outcome State Fault Refusal :=
  slotCmd h (.alu 0x22 gD gA gB) s

/-- CMPLTU (R145). -/
def execCmpltu (h : SlotHdr) (gD gA gB : BitVec 5) (s : State) : Host.Outcome State Fault Refusal :=
  slotCmd h (.alu 0x23 gD gA gB) s

/-- CMPGE (R145). -/
def execCmpge (h : SlotHdr) (gD gA gB : BitVec 5) (s : State) : Host.Outcome State Fault Refusal :=
  slotCmd h (.alu 0x24 gD gA gB) s

/-- CMPGEU (R145). -/
def execCmpgeu (h : SlotHdr) (gD gA gB : BitVec 5) (s : State) : Host.Outcome State Fault Refusal :=
  slotCmd h (.alu 0x25 gD gA gB) s

/-- PAND (R145). -/
def execPand (h : SlotHdr) (gD gA gB : BitVec 5) (s : State) : Host.Outcome State Fault Refusal :=
  slotCmd h (.alu 0x28 gD gA gB) s

/-- POR (R145). -/
def execPor (h : SlotHdr) (gD gA gB : BitVec 5) (s : State) : Host.Outcome State Fault Refusal :=
  slotCmd h (.alu 0x29 gD gA gB) s

/-- PXOR (R145). -/
def execPxor (h : SlotHdr) (gD gA gB : BitVec 5) (s : State) : Host.Outcome State Fault Refusal :=
  slotCmd h (.alu 0x2A gD gA gB) s

/-- PNOT (R145). -/
def execPnot (h : SlotHdr) (gD gA gB : BitVec 5) (s : State) : Host.Outcome State Fault Refusal :=
  slotCmd h (.alu 0x2B gD gA gB) s

/-- ALUIOP (R146). -/
def execAluiOp (h : SlotHdr) (op : BitVec 6) (gD gA : BitVec 5) (imm : W32) (s : State) : Host.Outcome State Fault Refusal :=
  slotCmd h (.alui op gD gA imm) s

/-- LI (R146). -/
def execLi (h : SlotHdr) (gD : BitVec 5) (imm : W32) (s : State) : Host.Outcome State Fault Refusal :=
  slotCmd h (.alui 0x30 gD 0 imm) s

/-- LIH (R146). -/
def execLih (h : SlotHdr) (gD : BitVec 5) (imm : W32) (s : State) : Host.Outcome State Fault Refusal :=
  slotCmd h (.alui 0x31 gD 0 imm) s

/-- J (R147). -/
def execJ (h : SlotHdr) (off : W32) (s : State) : Host.Outcome State Fault Refusal :=
  slotCmd h (.br 0x00 0 0 off) s

/-- JL (R147). -/
def execJl (h : SlotHdr) (gD : BitVec 5) (off : W32) (s : State) : Host.Outcome State Fault Refusal :=
  slotCmd h (.br 0x01 gD 0 off) s

/-- JR (R147). -/
def execJr (h : SlotHdr) (gA : BitVec 5) (off : W32) (s : State) : Host.Outcome State Fault Refusal :=
  slotCmd h (.br 0x02 0 gA off) s

/-- JLR (R147). -/
def execJlr (h : SlotHdr) (gD gA : BitVec 5) (off : W32) (s : State) : Host.Outcome State Fault Refusal :=
  slotCmd h (.br 0x03 gD gA off) s

/-- LOOP (R147). -/
def execLoop (h : SlotHdr) (gD gA : BitVec 5) (off : W32) (s : State) : Host.Outcome State Fault Refusal :=
  slotCmd h (.br 0x04 gD gA off) s

/-- LD8 to LD64 by sz (R148). -/
def execLd (h : SlotHdr) (sz : BitVec 2) (gT gA : BitVec 5) (off : W32) (s : State) : Host.Outcome State Fault Refusal :=
  slotCmd h (.mem (sz.setWidth 6) gT gA off) s

/-- LDU (R148). -/
def execLdu (h : SlotHdr) (sz : BitVec 2) (gT gA : BitVec 5) (off : W32) (s : State) : Host.Outcome State Fault Refusal :=
  slotCmd h (.mem (0x04 + sz.setWidth 6) gT gA off) s

/-- ST (R148). -/
def execSt (h : SlotHdr) (sz : BitVec 2) (gT gA : BitVec 5) (off : W32) (s : State) : Host.Outcome State Fault Refusal :=
  slotCmd h (.mem (0x08 + sz.setWidth 6) gT gA off) s

/-- nop (R149). -/
def execNop (h : SlotHdr) (s : State) : Host.Outcome State Fault Refusal := slotCmd h (.sys 0x00 0 0 0) s

/-- halt (R149). -/
def execHalt (h : SlotHdr) (s : State) : Host.Outcome State Fault Refusal := slotCmd h (.sys 0x01 0 0 0) s

/-- CSRR (R149). -/
def execCsrr (h : SlotHdr) (gD : BitVec 5) (csr : BitVec 12) (s : State) : Host.Outcome State Fault Refusal :=
  slotCmd h (.sys 0x02 gD 0 csr) s

/-- CSRW (R149). -/
def execCsrw (h : SlotHdr) (gA : BitVec 5) (csr : BitVec 12) (s : State) : Host.Outcome State Fault Refusal :=
  slotCmd h (.sys 0x03 0 gA csr) s

/-- fenceE (R149). -/
def execFenceE (h : SlotHdr) (s : State) : Host.Outcome State Fault Refusal := slotCmd h (.sys 0x04 0 0 0) s

/-- fenceI (R149). -/
def execFenceI (h : SlotHdr) (s : State) : Host.Outcome State Fault Refusal := slotCmd h (.sys 0x05 0 0 0) s

/-- VADD (R154). -/
def execVadd (h : SlotHdr) (a : VArg) (s : State) : Host.Outcome State Fault Refusal :=
  slotCmd h (.valu 0x00 a) s

/-- VSUB (R154). -/
def execVsub (h : SlotHdr) (a : VArg) (s : State) : Host.Outcome State Fault Refusal :=
  slotCmd h (.valu 0x01 a) s

/-- VADDS (R154). -/
def execVadds (h : SlotHdr) (a : VArg) (s : State) : Host.Outcome State Fault Refusal :=
  slotCmd h (.valu 0x02 a) s

/-- VSUBS (R154). -/
def execVsubs (h : SlotHdr) (a : VArg) (s : State) : Host.Outcome State Fault Refusal :=
  slotCmd h (.valu 0x03 a) s

/-- VMUL (R154). -/
def execVmul (h : SlotHdr) (a : VArg) (s : State) : Host.Outcome State Fault Refusal :=
  slotCmd h (.valu 0x04 a) s

/-- VMULH (R154). -/
def execVmulh (h : SlotHdr) (a : VArg) (s : State) : Host.Outcome State Fault Refusal :=
  slotCmd h (.valu 0x05 a) s

/-- VMIN (R154). -/
def execVmin (h : SlotHdr) (a : VArg) (s : State) : Host.Outcome State Fault Refusal :=
  slotCmd h (.valu 0x06 a) s

/-- VMAX (R154). -/
def execVmax (h : SlotHdr) (a : VArg) (s : State) : Host.Outcome State Fault Refusal :=
  slotCmd h (.valu 0x07 a) s

/-- VAND (R154). -/
def execVand (h : SlotHdr) (a : VArg) (s : State) : Host.Outcome State Fault Refusal :=
  slotCmd h (.valu 0x08 a) s

/-- VOR (R154). -/
def execVor (h : SlotHdr) (a : VArg) (s : State) : Host.Outcome State Fault Refusal :=
  slotCmd h (.valu 0x09 a) s

/-- VXOR (R154). -/
def execVxor (h : SlotHdr) (a : VArg) (s : State) : Host.Outcome State Fault Refusal :=
  slotCmd h (.valu 0x0A a) s

/-- VSHL (R154). -/
def execVshl (h : SlotHdr) (a : VArg) (s : State) : Host.Outcome State Fault Refusal :=
  slotCmd h (.valu 0x0B a) s

/-- VSRA (R154). -/
def execVsra (h : SlotHdr) (a : VArg) (s : State) : Host.Outcome State Fault Refusal :=
  slotCmd h (.valu 0x0C a) s

/-- VSRL (R154). -/
def execVsrl (h : SlotHdr) (a : VArg) (s : State) : Host.Outcome State Fault Refusal :=
  slotCmd h (.valu 0x0D a) s

/-- VRSRA (R154). -/
def execVrsra (h : SlotHdr) (a : VArg) (s : State) : Host.Outcome State Fault Refusal :=
  slotCmd h (.valu 0x0E a) s

/-- VCMPEQ (R154). -/
def execVcmpeq (h : SlotHdr) (a : VArg) (s : State) : Host.Outcome State Fault Refusal :=
  slotCmd h (.valu 0x10 a) s

/-- VCMPLT (R154). -/
def execVcmplt (h : SlotHdr) (a : VArg) (s : State) : Host.Outcome State Fault Refusal :=
  slotCmd h (.valu 0x11 a) s

/-- VSEL (R154). -/
def execVsel (h : SlotHdr) (a : VArg) (s : State) : Host.Outcome State Fault Refusal :=
  slotCmd h (.valu 0x12 a) s

/-- VREDADD (R154). -/
def execVredadd (h : SlotHdr) (a : VArg) (s : State) : Host.Outcome State Fault Refusal :=
  slotCmd h (.valu 0x13 a) s

/-- VREDMAX (R154). -/
def execVredmax (h : SlotHdr) (a : VArg) (s : State) : Host.Outcome State Fault Refusal :=
  slotCmd h (.valu 0x14 a) s

/-- VMOV (R154). -/
def execVmov (h : SlotHdr) (a : VArg) (s : State) : Host.Outcome State Fault Refusal :=
  slotCmd h (.valu 0x15 a) s

/-- VLD (R155). -/
def execVld (h : SlotHdr) (v : BitVec 4) (gA : BitVec 5) (off : W32) (s : State) : Host.Outcome State Fault Refusal :=
  slotCmd h (.vmem 0x00 v gA 0 0 off) s

/-- VST (R155). -/
def execVst (h : SlotHdr) (v : BitVec 4) (gA : BitVec 5) (off : W32) (s : State) : Host.Outcome State Fault Refusal :=
  slotCmd h (.vmem 0x01 v gA 0 0 off) s

/-- VGET (R155). -/
def execVget (h : SlotHdr) (v : BitVec 4) (gA : BitVec 5) (lw : BitVec 2) (lane : BitVec 6) (s : State) : Host.Outcome State Fault Refusal :=
  slotCmd h (.vmem 0x02 v gA lw lane 0) s

/-- VGETU (R155). -/
def execVgetu (h : SlotHdr) (v : BitVec 4) (gA : BitVec 5) (lw : BitVec 2) (lane : BitVec 6) (s : State) : Host.Outcome State Fault Refusal :=
  slotCmd h (.vmem 0x03 v gA lw lane 0) s

/-- VPUT (R155). -/
def execVput (h : SlotHdr) (v : BitVec 4) (gA : BitVec 5) (lw : BitVec 2) (lane : BitVec 6) (s : State) : Host.Outcome State Fault Refusal :=
  slotCmd h (.vmem 0x04 v gA lw lane 0) s

/-- VBC (R155). -/
def execVbc (h : SlotHdr) (v : BitVec 4) (gA : BitVec 5) (lw : BitVec 2) (lane : BitVec 6) (s : State) : Host.Outcome State Fault Refusal :=
  slotCmd h (.vmem 0x05 v gA lw lane 0) s

/-- CHSET (R136, R156). -/
def execChset (h : SlotHdr) (ch : BitVec 4) (gA : BitVec 5) (s : State) : Host.Outcome State Fault Refusal :=
  slotCmd h (.sync 0x00 0 ch gA 0) s

/-- CHGET (R156). -/
def execChget (h : SlotHdr) (gD : BitVec 5) (ch : BitVec 4) (s : State) : Host.Outcome State Fault Refusal :=
  slotCmd h (.sync 0x01 gD ch 0 0) s

/-- WAIT (R156, R157). -/
def execWait (h : SlotHdr) (gD : BitVec 5) (ch : BitVec 4) (gA : BitVec 5) (hint : BitVec 2) (s : State) : Host.Outcome State Fault Refusal :=
  slotCmd h (.sync 0x02 gD ch gA hint) s

/-- ARRIVE (R156, R250). -/
def execArrive (h : SlotHdr) (ch : BitVec 4) (s : State) : Host.Outcome State Fault Refusal :=
  slotCmd h (.sync 0x03 0 ch 0 0) s

/-- ARRIVEWAIT (R156, R250). -/
def execArriveWait (h : SlotHdr) (gD : BitVec 5) (ch : BitVec 4) (hint : BitVec 2) (s : State) : Host.Outcome State Fault Refusal :=
  slotCmd h (.sync 0x04 gD ch 0 hint) s

/-- ACNTRD (R156). -/
def execAcntRd (h : SlotHdr) (gD : BitVec 5) (ch : BitVec 4) (s : State) : Host.Outcome State Fault Refusal :=
  slotCmd h (.sync 0x05 gD ch 0 0) s

/-- ACNTADD (R156, R193). -/
def execAcntAdd (h : SlotHdr) (ch : BitVec 4) (gA : BitVec 5) (s : State) : Host.Outcome State Fault Refusal :=
  slotCmd h (.sync 0x06 0 ch gA 0) s

/-- SLOTDRAIN (R156, R199). -/
def execSlotDrain (h : SlotHdr) (ch : BitVec 4) (s : State) : Host.Outcome State Fault Refusal :=
  slotCmd h (.sync 0x07 0 ch 0 0) s

/-- SLOTRD (R156, R198). -/
def execSlotRd (h : SlotHdr) (gD : BitVec 5) (ch : BitVec 4) (s : State) : Host.Outcome State Fault Refusal :=
  slotCmd h (.sync 0x08 gD ch 0 0) s

/-- HQPOP (R156). -/
def execHqPop (h : SlotHdr) (gD : BitVec 5) (ch : BitVec 4) (hint : BitVec 2) (s : State) : Host.Outcome State Fault Refusal :=
  slotCmd h (.sync 0x09 gD ch 0 hint) s

/-- HQPUSH (R156, R285). -/
def execHqPush (h : SlotHdr) (ch : BitVec 4) (gA : BitVec 5) (hint : BitVec 2) (s : State) : Host.Outcome State Fault Refusal :=
  slotCmd h (.sync 0x0A 0 ch gA hint) s

/-- GAUGE (R100, R160). -/
def execGauge (h : SlotHdr) (gD gA : BitVec 5) (widx : BitVec 12) (s : State) : Host.Outcome State Fault Refusal :=
  slotCmd h (.watch 0x00 gD gA 0 widx 0) s

/-- MONW (R107, R160). -/
def execMonw (h : SlotHdr) (mon : BitVec 3) (gA gB : BitVec 5) (s : State) : Host.Outcome State Fault Refusal :=
  slotCmd h (.watch 0x01 0 gA gB 0 mon) s

/-- PRESS (R161). -/
def execPress (h : SlotHdr) (a : EngArg) (s : State) : Host.Outcome State Fault Refusal :=
  slotCmd h (.eng 0x00 a) s

/-- CVT (R161). -/
def execCvt (h : SlotHdr) (a : EngArg) (s : State) : Host.Outcome State Fault Refusal :=
  slotCmd h (.eng 0x01 a) s

/-- GUTTER (R161). -/
def execGutter (h : SlotHdr) (a : EngArg) (s : State) : Host.Outcome State Fault Refusal :=
  slotCmd h (.eng 0x02 a) s

/-- XPOSE (R161). -/
def execXpose (h : SlotHdr) (a : EngArg) (s : State) : Host.Outcome State Fault Refusal :=
  slotCmd h (.eng 0x03 a) s

/-- WCLR (R161). -/
def execWclr (h : SlotHdr) (a : EngArg) (s : State) : Host.Outcome State Fault Refusal :=
  slotCmd h (.eng 0x08 a) s

/-- WLD (R161). -/
def execWld (h : SlotHdr) (a : EngArg) (s : State) : Host.Outcome State Fault Refusal :=
  slotCmd h (.eng 0x09 a) s

/-- WST (R161). -/
def execWst (h : SlotHdr) (a : EngArg) (s : State) : Host.Outcome State Fault Refusal :=
  slotCmd h (.eng 0x0A a) s

/-- WACC (R161). -/
def execWacc (h : SlotHdr) (a : EngArg) (s : State) : Host.Outcome State Fault Refusal :=
  slotCmd h (.eng 0x0B a) s

/-- EXCH (R174, R206). -/
def execExch (h : SlotHdr) (gA : BitVec 5) (s : State) : Host.Outcome State Fault Refusal :=
  slotCmd h (.xfer 0x00 gA 0 0) s

/-- SPOST (R174, R274). -/
def execSpost (h : SlotHdr) (gA : BitVec 5) (qid : BitVec 12) (s : State) : Host.Outcome State Fault Refusal :=
  slotCmd h (.xfer 0x01 gA 0 qid) s

/-- REARM (R174, R291). -/
def execRearm (h : SlotHdr) (gB : BitVec 5) (qid : BitVec 12) (s : State) : Host.Outcome State Fault Refusal :=
  slotCmd h (.xfer 0x02 0 gB qid) s

end Sys2Proof.Machine
end

