-- ==== Sys2Proof/Machine/Ports.lean ====
section
/-!
DEFINITION. Ports: registers, training, the receiving side of the Tizal link, peers, addition at ports, the stream lane (chapter 12).
-/
namespace Sys2Proof.Machine
open Sys2Proof

/-- Causes of chapter 12 (R362). -/
def cTzReplay : Byte := 0xA0
def cTzRetrain : Byte := 0xA1
def cTzDegraded : Byte := 0xA2
def cTzDown : Byte := 0xA3
def cTzPeerMismatch : Byte := 0xA4
def cPeerLost : Byte := 0xA5
def cLandDrop : Byte := 0xA6

/-- A record of a port (R458, R459). -/
def portErr (s : State) (p : Nat) (cause : Byte) (sev : BitVec 2) : Err :=
  { cause, sev, unit := 6, source := BitVec.ofNat 16 p, die := BitVec.ofNat 4 (portDie p), detail := BitVec.ofNat 8 (getPort s p).st.code }

/-- Roles (R330). -/
def cfgRole (p : Port) : BitVec 2 := fld p.cfg 30 2
def isTizal (p : Port) : Bool := decide (p.role = 1)
def isEth (p : Port) : Bool := decide (p.role = 2 ∨ p.role = 3)

/-! ## Registers and commands (R331, R332) -/

/-- A write of TZ.PORT.CFG (R331). -/
def writePortCfg (s : State) (p : Nat) (v : W32) : State × Byte :=
  let v := v &&& 0xFFFFFC00
  if (getPort s p).st ≠ .off then (s, stCfgBusy)
  else if fldN v 22 6 = 0 ∨ fldN v 16 6 = 0 ∨ fldN v 10 6 = 0 then (s, stInvalid)
  else (putPort s p { getPort s p with cfg := v }, stOk)

/-- TZ.PORT.CFG written by a world: ROLE is RWS, so a write from the non-secure world leaves it and completes with the world-violation
status; the other fields are RW (R9, R331, R482). -/
def portCfgBy (w : Writer) (s : State) (p : Nat) (v : W32) : State × Byte :=
  if secureWriter w then writePortCfg s p v
  else
    let (s', st) := writePortCfg s p (merge 0xC0000000 v (getPort s p).cfg)
    if st = stOk then (putErr s' (writerErr w (winAddr (0x4000 + p) 0 0)), stWorld) else (s', st)

/-- A write of a port's register: its corner die holds it (R19, R521). -/
def portReg (s : State) (p : Nat) (f : State → State × Byte) : State × Byte := dieReg s (portDie p) f

/-- PORT_CFG_WRITE (R331). -/
def execPortCfgWrite (w : Writer) (port : Fin 24) (value : W32) (s : State) : Host.Outcome State Fault Refusal :=
  .next (finish (portReg s port fun s => portCfgBy w s port value))

/-- START (R332, R343, R344): from OFF, a port with a role trains, with epoch 0, and new sequence numbers and credits. -/
def startPort (s : State) (p : Nat) : State :=
  let x := getPort s p
  if x.st = .off ∧ cfgRole x ≠ 0 then
    setPort s p fun x => { Port.reset with
      cfg := x.cfg, role := cfgRole x, cnt := x.cnt, st := .training, linkReset := x.linkReset, injFlit := x.injFlit, injSent := x.injSent, replaySum := x.replaySum
      summaryAt := x.summaryAt, landing := x.landing, notUpSince := x.notUpSince }
  else s

/-- PORT_START (R343). -/
def execPortStart (_w : Writer) (port : Fin 24) (s : State) : Host.Outcome State Fault Refusal := .next (finish (portReg s port fun s => (startPort s port, stOk)))

/-- A port enters RETRAIN: packets, replay buffer and credits are held (R345, R346). -/
def enterRetrain (s : State) (p : Nat) : State :=
  setPort s p fun x => { x with
    st := .retrain, live := false, attempts := 0, notUpSince := s.mod.time, cnt := { x.cnt with retrains := x.cnt.retrains + 1 } }

/-- An UP Tizal port retrains. -/
def retrainPort (s : State) (p : Nat) : State := if (getPort s p).st = .up ∧ isTizal (getPort s p) then enterRetrain s p else s

/-- RETRAIN (R332). -/
def execRetrain (_w : Writer) (port : Fin 24) (s : State) : Host.Outcome State Fault Refusal := .next (finish (portReg s port fun s => (retrainPort s port, stOk)))

/-- The lanes in use: the lowest-numbered usable ones (R343). -/
def lanesInUse (p : Port) : List Nat := ((List.range 8).filter fun l => bitAt p.usable l).take p.width.toNat

/-- LANE_LOCK_LOSS (R343): a receiver of a lane in use loses lock. -/
def execLaneLockLoss (port : Fin 24) (lane : Fin 8) (s : State) : Host.Outcome State Fault Refusal :=
  .next (if (lanesInUse (getPort s port)).contains lane.val then retrainPort s port else s)

/-- TRAINING_FRAME_RECEIVE (R345): the partner's training frames make this end retrain. -/
def execTrainingFrameReceive (port : Fin 24) (s : State) : Host.Outcome State Fault Refusal := .next (retrainPort s port)

/-! ## Dropped packets (R360) -/

/-- One packet dropped: what the table of R360 says of its lane; gathering packets are the gatherings' affair. -/
def dropPkt (s : State) (p : Nat) (k : Pkt) : State :=
  match k with
  | .exch b => putErr s (routerErr s cLinkDrop 2 b.pos b 0)
  | .stream _ job _ die qid _ last => if last then dropHandle s die.val (stqTile (getStq (getDie s die.val) qid)) job else s
  | .ctrl m =>
    match (peerOfPort s p).bind fun k => (peerPorts s k).find? fun n => decide (n ≠ p ∧ (getPort s n).st = .up) with
    | some n => pushPkt s n (.ctrl m)
    | none => s
  | .coll .. => s
  | .gctrl .. => s

/-- Packets of a port that are wholly or partly sent and not acknowledged, oldest first. -/
def sentPkts (p : Port) : List Pkt :=
  ((p.replay.filter fun f => decide (f.idx + 1 = pktFlits f.pkt)).map (·.pkt)) ++ p.sending.map Prod.fst

/-- Every packet of a port not yet acknowledged. -/
def heldPkts (p : Port) : List Pkt := sentPkts p ++ p.txq

/-- The packets of a port dropped (R346, R360), with partially received ones and stream data not landed. -/
def dropPkts (s : State) (p : Nat) (ks : List Pkt) : State :=
  ks.foldl (fun s k => dropPkt s p k) (putPort s p { getPort s p with txq := [], replay := [], sending := [], rxPart := [], rxUsed := [], credits := [] })

/-- Handles that a port has popped and not used are discarded (R360). -/
def dropPopped (s : State) (p : Nat) : State :=
  (getPort s p).popped.foldl (fun s e =>
    let q := getStq (getDie s e.1.val) e.2.1
    dropHandle s e.1.val (stqTile q) (stqOwner q)) (putPort s p { getPort s p with popped := [] })

/-- Gatherings that a list of packets belongs to. -/
def pktKeys (ks : List Pkt) : List GKey :=
  (ks.filterMap fun k => match k with | .coll key .. => some key | .gctrl key .. => some key | _ => none).eraseDups

/-- A stopping port that holds no work is OFF (R360). -/
def settleStop (s : State) (p : Nat) : State :=
  let x := getPort s p
  if x.st = .stopping ∧ x.txq.isEmpty ∧ x.replay.isEmpty ∧ x.sending.isEmpty ∧ x.popped.isEmpty then
    setPort s p fun x => { Port.reset with
      cfg := x.cfg, role := x.role, cnt := x.cnt, injFlit := x.injFlit, injSent := x.injSent, replaySum := x.replaySum, summaryAt := x.summaryAt,
      landing := x.landing, notUpSince := x.notUpSince }
  else s

/-! ## Acknowledgements and replays (R340, R341) -/

/-- What the partner's acknowledgement of a packet lets the module do: a stream slot whose last flit it has is drained (R354). -/
def ackedPkt (s : State) (k : Pkt) : State :=
  match k with
  | .stream _ _ _ die qid h last => if last then
      let t := stqTile (getStq (getDie s die.val) qid)
      if tileTakes s t ∧ fld h 26 6 = (getSlot (getTile s t) (fldN h 20 6)).gen then slotDrain s t (fldN h 20 6) else s
    else s
  | _ => s

/-- Flits up to a sequence number have arrived (R340, R346). -/
def takeAck (s : State) (p : Nat) (ack : BitVec 12) : State :=
  let x := getPort s p
  let n := (x.replay.findIdx? fun f => precedes ack f.seq).getD x.replay.length
  let done := x.replay.take n
  if done.isEmpty then s
  else
    let s := putPort s p { x with replay := x.replay.drop n, noAdv := 0, ackAt := s.mod.time }
    done.foldl (fun s f => if f.idx + 1 = pktFlits f.pkt then ackedPkt s f.pkt else s) s

/-- A replay, counted; after 16 without an advance of ACK the port retrains (R340, R341). -/
def countReplay (s : State) (p : Nat) : State :=
  let s := resend s p
  let x := getPort s p
  let s := putPort s p { x with
    cnt := { x.cnt with replays := x.cnt.replays + 1 }, replaySum := x.replaySum + 1, noAdv := x.noAdv + 1, ackAt := s.mod.time }
  if 16 ≤ x.noAdv + 1 then retrainPort s p else s

/-- TZ_REPLAY_TIMEOUT (R340): no advance of ACK for 1 µs with flits unacknowledged. -/
def execTzReplayTimeout (port : Fin 24) (s : State) : Host.Outcome State Fault Refusal :=
  .next (
    let x := getPort s port
    if x.live ∧ isTizal x ∧ !x.replay.isEmpty ∧ x.ackAt.toNat + 1000 ≤ now s then countReplay s port else s)

/-- TZ_ACK_TIMER (R340): an IDLE flit carries the ACK, or the NAK, for what has been received since the last flit, and credits. -/
def execTzAckTimer (port : Fin 24) (s : State) : Host.Outcome State Fault Refusal :=
  .next (let x := getPort s port; if x.live ∧ isTizal x then sendIdle s port else s)

/-- TZ_REPLAY_SUMMARY (R341): at most one record a second, with the replays since the last. -/
def execTzReplaySummary (port : Fin 24) (s : State) : Host.Outcome State Fault Refusal :=
  .next (
    let x := getPort s port
    let due := match x.summaryAt with | some t => decide (t.toNat + 1000000000 ≤ now s) | none => true
    if decide (0 < x.replaySum) && due then
      putErr (putPort s port { x with replaySum := 0, summaryAt := some s.mod.time, injSent := false })
        { portErr s port cTzReplay 0 with detail := 0, info0 := BitVec.ofNat 64 x.replaySum, injected := x.injSent }
    else s)

/-! ## Addition at ports (R351, R352) -/

/-- The round of a key. -/
def paddOf (s : State) (dest : W16) (daddr : BitVec 24) (job : BitVec 2) : Option PAdd :=
  s.net.padds.find? fun r => decide (r.dest = dest) && decide (r.daddr = daddr) && decide (r.job = job)

/-- A round given up: a CONF_ABANDON record and marker (R231, R351, R352). -/
def abandonPadd (s : State) (r : PAdd) (who : W16) : State :=
  let b := { Block.reset with kind := .add, src := who, dest := r.dest, daddr := r.daddr, acntEn := r.acntEn, acnt := r.acnt, dmod := 1, job := r.job }
  let e := routerErr s cConfAbandon 1 (bridgePos (posOf s r.dest) r.bridge) b 0
  markTiles (putErr { s with net := { s.net with padds := s.net.padds.erase r } } { e with info0 := at' 64 0 who ||| at' 64 16 r.dest ||| at' 64 32 (r.daddr.setWidth 23) })
    b [r.dest] cConfAbandon

/-- A block of peer slot k that a port bridge holds is added to its round, takes an accumulator for a new one, or waits in its buffer. -/
def absorbAdd (s : State) (i : Nat) (b : Block) (k : Nat) : State :=
  let es : List W32 := (addElems b).map fun x => BitVec.ofInt 32 x
  let bit : BitVec 3 := BitVec.ofNat 3 (2 ^ (k - 1))
  if (fld s.mod.nodeCfg 0 3 &&& bit) = 0 then s
  else match paddOf s b.dest b.daddr b.job with
    | some r =>
      if r.peers &&& bit ≠ 0 then s
      else if r.sum.length = es.length ∧ r.acntEn = b.acntEn ∧ r.acnt = b.acnt ∧ b.bad.isNone then
        let r' := { r with peers := r.peers ||| bit, sum := (r.sum.zip es).map fun p => p.1 + p.2 }
        { dropBlk s i with net := { (dropBlk s i).net with padds := s.net.padds.map fun x => if x = r then r' else x } }
      else abandonPadd (dropBlk s i) r b.src
    | none =>
      let bridge := portDie ((peerPorts s k).headD 0)
      if (s.net.padds.filter fun r => decide (portDie r.bridge = bridge)).length < 64 then
        let r : PAdd := { dest := b.dest, daddr := b.daddr, job := b.job, bridge := (peerPorts s k).headD 0, peers := bit, acntEn := b.acntEn,
                          acnt := b.acnt, sum := es, since := s.mod.time, src := b.src }
        { dropBlk s i with net := { (dropBlk s i).net with padds := s.net.padds ++ [r] } }
      else s

/-- Blocks that wait at a port bridge for a round, tried again, oldest first. -/
def absorbWaiting (s : State) : State :=
  (s.net.blocks.filter fun (e : Nat × Block) => decide (e.2.kind = .add ∧ e.2.dmod ≠ 0 ∧ e.2.inPort = atMemPort)).foldl
    (fun s e => absorbAdd s e.1 e.2 e.2.dmod.toNat) s

/-- A block that leaves a port bridge into the mesh of its corner die (R226, R229). -/
def fromBridge (s : State) (port : Nat) (b : Block) : State :=
  let dst := posOf s b.dest
  let pos := bridgePos dst port
  match diePath s pos.die dst.die with
  | some via => addBlk s { b with pos, dst, via, dmod := 0, inPort := atMemPort, heldSince := s.mod.time }
  | none => putErr s (routerErr s cDestFenced 1 pos b 0)

/-- PORT_ADD_ROUND (R351): a round with a block from each masked peer slot: its sum goes to its tile as one I32 block. -/
def execPortAddRound (dest : W16) (daddr : BitVec 24) (job : BitVec 2) (s : State) : Host.Outcome State Fault Refusal :=
  .next (match paddOf s dest daddr job with
    | some r =>
      let m : BitVec 3 := fld s.mod.nodeCfg 0 3
      if r.peers &&& m = m then
        let b := { Block.reset with
          kind := .put, src := r.src, dest, daddr, acntEn := r.acntEn, acnt := r.acnt, job, payload := r.sum.flatMap fun v => toLE 4 v.toNat }
        absorbWaiting (fromBridge { s with net := { s.net with padds := s.net.padds.erase r } } r.bridge b)
      else s
    | none => s)

/-- ADD_LAG_EXPIRE (R352). -/
def execAddLagExpire (dest : W16) (daddr : BitVec 24) (job : BitVec 2) (s : State) : Host.Outcome State Fault Refusal :=
  .next (match paddOf s dest daddr job with
    | some r => if r.since.toNat + 125 * fldN s.mod.nodeCfg 16 16 ≤ now s then absorbWaiting (abandonPadd s r r.src) else s
    | none => s)

/-! ## Receiving flits (R335-R341, R345) -/

/-- An exchange-lane packet received whole (R229, R337): its header's layout is not given, so its fields are Config's. -/
def exchPkt (s : State) (port : Nat) (bs : List Byte) : State :=
  let h := bs.take 32
  let f (k : Nat) : W64 := Config.exchField k h
  let k := (peerOfPort s port).getD 1
  let add := bitAt (f 0) 0
  let b := { Block.reset with
    kind := if add then .add else .put, src := (f 1).setWidth 16, dest := (f 2).setWidth 16 &&& 0x7FFF, daddr := (f 3).setWidth 24
    acntEn := bitAt (f 4) 6, acnt := (f 4).setWidth 6, i24 := bitAt (f 5) 0, job := (f 6).setWidth 2, payload := (bs.drop 32).take (f 7).toNat }
  if add then
    let p := bridgePos (posOf s b.dest) port
    absorbWaiting (addBlk s { b with pos := p, dst := p, dmod := BitVec.ofNat 2 k, inPort := atMemPort, heldSince := s.mod.time, rxPort := some port })
  else fromBridge s port { b with rxPort := some port }

/-- A HEAD or BODY flit in sequence: its packet is passed on once whole (R339). What a collective, stream or control packet holds is
told by the command that receives it. A HEAD takes a receive buffer; one for which there is none is not accepted (log entry 67). An ACK is
sent at least every 64 flits (R340). -/
def takeFlit (s : State) (p : Nat) (f : Flit) : State :=
  let x := getPort s p
  let vl := f.vl.toNat
  let head := decide (f.typ = 1)
  if head && decide (laneBuffers vl ≤ rxBusy s p vl) then s
  else
    let part := mget ([], 0) x.rxPart vl
    let (bs, left) := if head then (f.payload, f.len.toNat - 1) else (part.1 ++ f.payload, part.2 - 1)
    let whole := decide (left = 0) && (head || decide (part.2 ≠ 0))
    let s := putPort s p { x with
      rxExp := x.rxExp + 1, rxSinceAck := x.rxSinceAck + 1
      rxUsed := if head then mset 0 x.rxUsed vl (mget 0 x.rxUsed vl + 1) else x.rxUsed
      rxPart := mset ([], 0) x.rxPart vl (if left = 0 then ([], 0) else (bs, left)) }
    let s := if whole ∧ vl = 0 then exchPkt s p bs else s
    if 64 ≤ (getPort s p).rxSinceAck then sendIdle s p else s

/-- A flit with a good CRC (R339, R340, R345). -/
def goodFlit (s : State) (p : Nat) (f : Flit) : State :=
  let x := getPort s p
  if f.sbWidth ≠ x.width ∨ f.sbEpoch ≠ x.epoch then retrainPort s p
  else
    let s := takeAck s p f.ack
    let x := getPort s p
    let vl := f.crVl.toNat
    let s := putPort s p { x with credits := mset 0 x.credits vl (mget 0 x.credits vl - f.crCount.toNat) }
    let s := if f.nak ∧ !(getPort s p).replay.isEmpty then countReplay s p else s
    let s := if (f.typ = 1 ∨ f.typ = 2) ∧ f.seq = (getPort s p).rxExp then takeFlit s p f else s
    settleStop (pump s p) p

/-- A flit discarded: counted by its cause, and answered with NAK (R340, R361). -/
def badFlit (s : State) (p : Nat) (why : FlitFault) : State :=
  let x := getPort s p
  putPort s p { x with
    owesNak := true
    cnt := match why with
      | .crc => { x.cnt with crcErrors := x.cnt.crcErrors + 1 }
      | .fec => { x.cnt with fecUncorr := x.cnt.fecUncorr + 1 } }

/-- TZ_FLIT_RECEIVE (R340, R361): a flit, with what its decoding found. -/
def execTzFlitReceive (port : Fin 24) (good : FlitCheck) (f : Flit) (s : State) : Host.Outcome State Fault Refusal :=
  .next (
    let x := getPort s port
    if x.live ∧ isTizal x then
      let s := putPort s port { x with cnt := { x.cnt with fecCorrected := x.cnt.fecCorrected + BitVec.ofNat 64 good.corrected } }
      match good.fault with
      | none => goodFlit s port f
      | some why => badFlit s port why
    else s)

/-! ## Peers (R347-R350) -/

/-- The peer table with slot k holding a value keeps to one bridge and to Tizal ports (R347). -/
def peersOk (s : State) (k : Nat) (v : W32) : Bool :=
  let m := mset 0 s.net.peers k v
  let regs := [1, 2, 3].map (mget 0 m) |>.filter fun r => bitAt r 31
  let ports := regs.flatMap fun r => [fldN r 0 5, fldN r 8 5]
  ports.all fun p => decide (p < 24) && decide (cfgRole (getPort s p) = 1) && decide (portDie p = portDie (ports.headD 0))

/-- A port of a slot whose partner has another SLOT_ID is told (R348). -/
def tellMismatch (s : State) (k n : Nat) : State :=
  if decide ((getPort s n).st = .up) && bitAt (getPort s n).partner 31 && !partnerIs s n (fldN (peerReg s k) 16 6) then
    putErr s (portErr s n cTzPeerMismatch 1)
  else s

/-- A configured slot is no longer lost (R350). -/
def peerBack (s : State) (k : Nat) : State :=
  if peerConfigured s k then
    { s with net := { s.net with peerLost := s.net.peerLost &&& ~~~ BitVec.ofNat 4 (2 ^ k), peerSeen := mins k s.mod.time (merase s.net.peerSeen k) } }
  else s

/-- Valid slots of a port whose partner has another SLOT_ID are told (R348); those with the right one are configured again (R350). -/
def matchPeer (s : State) (k : Nat) : State := peerBack ((peerPorts s k).eraseDups.foldl (fun s n => tellMismatch s k n) s) k

/-- A write of TZ.PEER1 to TZ.PEER3 (R347). -/
def writePeer (s : State) (k : Nat) (v : W32) : State × Byte :=
  let v := v &&& 0x803F1F1F
  if k = 0 ∨ 3 < k then (s, stNoSub)
  else if bitAt v 31 && !peersOk s k v then (s, stInvalid)
  else if jobs4.any (jobLive s) then (s, stCfgBusy)
  else
    let s := { s with net := { s.net with
      peers := mset 0 s.net.peers k v, peerLost := s.net.peerLost &&& ~~~ BitVec.ofNat 4 (2 ^ k), peerSeen := merase s.net.peerSeen k } }
    (if bitAt v 31 then matchPeer s k else s, stOk)

/-- TZ_PEER_WRITE (R347). -/
def execTzPeerWrite (_w : Writer) (peer : BitVec 2) (value : W32) (s : State) : Host.Outcome State Fault Refusal :=
  .next (finish (writePeer s peer.toNat value))

/-- Enabled L6 weirs of the module: number, and a die that holds one. -/
def l6Weirs (s : State) : List (BitVec 12 × Nat) :=
  let all := s.dies.flatMap fun (e : Nat × Die) => e.2.weirs.filterMap fun k =>
    if weirOn k.2 && decide (weirLevel k.2 = 6) then some (BitVec.ofNat 12 k.1, e.1) else none
  (all.map Prod.fst).eraseDups.filterMap fun n => (all.find? fun x => decide (x.1 = n))

/-- A peer module lost from the L6 weirs (R263-R265): a weir rooted there is orphaned; another leaves it out of its span and releases its
open round with MEMBER_LOST, which the root tells the other peers. -/
def loseWeirPeer (s : State) (k : Nat) : State :=
  (l6Weirs s).foldl (fun s e =>
    let (n, d) := e
    let w := getWeir (getDie s d) n
    if (weirRootPeer w).toNat = k then orphanWeir s d n
    else
      let s := putL6 s n { getL6 s n with peersLost := (getL6 s n).peersLost ||| BitVec.ofNat 4 (2 ^ k) }
      if weirRootPeer w = 0 then openL6 (releaseLost s d n) d n
      else openL6 (onDies s (liveDies s 6 d n) n fun w => { w with lost := true }) d n) s

/-- Neither port of a peer has been UP for 20 µs, or it has not answered on the control lane for 20 µs (R350). -/
def peerGone (s : State) (k : Nat) : Bool :=
  let down := (peerPorts s k).all fun n => decide ((getPort s n).st ≠ .up) && decide ((getPort s n).notUpSince.toNat + 20000 ≤ now s)
  let quiet := match s.net.peerSeen.find? fun (e : Nat × W64) => decide (e.1 = k) with
    | some e => decide (e.2.toNat + 20000 ≤ now s)
    | none => false
  down || quiet

/-- PEER_LOST (R350): a slot that has been configured is lost; a configured one is asked to answer (log entry 67). -/
def execPeerLost (peer : BitVec 2) (s : State) : Host.Outcome State Fault Refusal :=
  .next (
    let k := peer.toNat
    if peerValid s k && s.net.peerSeen.any (fun (e : Nat × W64) => decide (e.1 = k)) && !bitAt s.net.peerLost k && peerGone s k then
      let s := { s with net := { s.net with peerLost := s.net.peerLost ||| BitVec.ofNat 4 (2 ^ k) } }
      loseWeirPeer (putErr s (portErr s ((peerPorts s k).headD 0) cPeerLost 1)) k
    else if peerConfigured s k then sendCtrl s k (.liveness true)
    else s)

/-! ## The control lane (R338) -/

/-- An arrival of a peer at the module's L5 unit (R245, R248, R250, R262): one of another epoch is stale; while the
weir is not loaded it waits; that of a weir whose job is unloaded is recorded only. -/
def peerArrive (s : State) (k : Nat) (n : BitVec 12) (h : BitVec 4) : State :=
  let mark (s : State) : State := putL6 s n { getL6 s n with peersArrived := (getL6 s n).peersArrived ||| BitVec.ofNat 4 (2 ^ k) }
  match (l6Weirs s).find? fun e => decide (e.1 = n) with
  | some (_, d) =>
    let w := getWeir (getDie s d) n
    if w.fault || w.orphaned then s
    else if h ≠ rootRound w then
      putErr (modDie s d fun x => putWeir x n { w with stale := w.stale + 1 }) (weirErr cWeirStale n w 13 0)
    else if (getJob s (weirOwner w)).frozen then mark s
    else weirTest (mark s) d n
  | none => mark s

/-- A release from another module passes down to every die (R251, R263). -/
def peerRelease (s : State) (n : BitVec 12) (h : BitVec 4) (lost : Bool) : State :=
  match (l6Weirs s).find? fun e => decide (e.1 = n) with
  | some (_, d) =>
    let s := if lost then onDies s (liveDies s 6 d n) n fun w => { w with lost := true } else s
    let w := getWeir (getDie s d) n
    if w.fault || w.orphaned || decide (rootRound w ≠ h) then s else sendRelease s d n lost
  | none => s

/-- A peer has loaded its members (R248): the first round may open and complete. -/
def peerLoaded (s : State) (k : Nat) (n : BitVec 12) : State :=
  let s := putL6 s n { getL6 s n with peersLoaded := (getL6 s n).peersLoaded ||| BitVec.ofNat 4 (2 ^ k) }
  match (l6Weirs s).find? fun e => decide (e.1 = n) with
  | some (_, d) => openL6 s d n
  | none => s

/-- A peer tells of FAULT or ORPHANED state (R260, R265). -/
def peerStopped (s : State) (n : BitVec 12) (orphaned : Bool) : State :=
  match (l6Weirs s).find? fun e => decide (e.1 = n) with
  | some (_, d) => if orphaned then orphanWeir s d n else weirFaultSpan s d n
  | none => s

/-- CTRL_MESSAGE_RECEIVE (R338): from the peer slot that the port faces, which has then answered (R350). -/
def execCtrlMessageReceive (port : Fin 24) (m : CtrlMsg) (s : State) : Host.Outcome State Fault Refusal :=
  .next (match peerOfPort s port with
    | some k =>
      if (getPort s port).live then
        let s := { s with net := { s.net with peerSeen := mins k s.mod.time (merase s.net.peerSeen k) } }
        match m with
        | .weirArrive _ n h => peerArrive s k n h
        | .weirRelease n h lost => peerRelease s n h lost
        | .weirLoaded _ n => peerLoaded s k n
        | .weirStopped n orphaned => peerStopped s n orphaned
        | .watchExchange _ job step es => peerExchange s { peer := BitVec.ofNat 2 k, job, step, entries := es }
        | .discovery _ => s
        | .liveness ask => if ask then sendCtrl s k (.liveness false) else s
        | .firmware bs => { s with net := { s.net with fwRx := s.net.fwRx ++ [bs] } }
      else s
    | none => s)

/-! ## The stream lane (R354, R355) -/

/-- The port that a PORT context names. -/
def stqPort (q : Stq) : Nat := fldN q.cfg 35 5

/-- A slot's contents as stream-lane packets of up to 16 KiB. -/
def streamPkts (die : Fin 12) (qid : BitVec 12) (q : Stq) (h : W32) (bs : List Byte) : List Pkt :=
  let u : BitVec 8 := qid.setWidth 8 + fld h 0 8
  let cs := chunksOf 16384 (bs.length + 1) bs
  (cs.zipIdx).map fun c => .stream u (stqOwner q) c.1 die qid h (decide (c.2 + 1 = cs.length))

/-- A handle that a port holds is used once its slot is FULL (R200, R286, R354): the slot's whole length is read and sent. A slot that
cannot be read sends nothing: its record says why and the slot stays as it is. -/
def portSend (s : State) (die : Fin 12) (qid : BitVec 12) (h : W32) : State :=
  let q := getStq (getDie s die) qid
  let t := stqTile q
  let x := getTile s t
  let y := getSlot x (fldN h 20 6)
  let v : BitVec 24 := BitVec.ofNat 24 (0x800000 + fldN h 20 6 * 2 ^ 17)
  let p := stqPort q
  let gone (s : State) : State := putPort s p { getPort s p with popped := (getPort s p).popped.filter fun e => decide (e ≠ (die, qid, h)) }
  match opndCheck x (stqOwner q) v (slotLen y) 64 with
  | some c => putErr (gone s) (tileErr t (some (stqOwner q)) (accessCause c) v.toNat)
  | none =>
    if secureTile s t then putErr (gone s) (worldErr 0 t (tDie t) (some (stqOwner q)) t.toNat)
    else if readWaits x v then s
    else if spadBad x (slotBase y) (slotLen y) then putErr (gone s) (tileErr t (some (stqOwner q)) cSpadEcc (slotBase y))
    else (streamPkts die qid q h (spadRead x (slotBase y) (slotLen y))).foldl (fun s k => pushPkt s p k) (gone s)

/-- PORT_STREAM_SEND (R354): the handle that the port holds of a context, or the next one popped from it. -/
def execPortStreamSend (die : Fin 12) (qid : BitVec 12) (s : State) : Host.Outcome State Fault Refusal :=
  .next (
    let q := getStq (getDie s die) qid
    let n := stqPort q
    let p := getPort s n
    if decide (q.st = .active ∨ q.st = .draining) && decide (stqKind q = 2) && isTizal p && decide (n < 24)
        && !(getJob s (stqOwner q)).frozen && tileTakes s (stqTile q) then
      match p.popped.find? fun e => decide (e.1 = die ∧ e.2.1 = qid) with
      | some e => if p.live then settleStop (portSend s die qid e.2.2) n else s
      | none =>
        if p.st ≠ .up then s
        else match popHandle die (0x1000 ||| qid.setWidth 13) (stqTile q) (stqOwner q) 65 s with
          | (s, some (h, _)) => portSend (putPort s n { getPort s n with popped := (getPort s n).popped ++ [(die, qid, h)] }) die qid h
          | (s, none) => s
    else s)

/-- TZ.LAND of a landing number (R355). -/
def landReg (s : State) (u : BitVec 8) : W32 := mget 0x1FFF0000 s.net.lands u.toNat
def writeLand (s : State) (u : BitVec 8) (v : W32) : State :=
  { s with net := { s.net with lands := mset 0x1FFF0000 s.net.lands u.toNat v } }

/-- A LAND_DROP record. -/
def landDrop (s : State) (p : Nat) (job : BitVec 2) : State :=
  putErr s { portErr s p cLandDrop 1 with job := some job }

/-- Data for a landing entry that is not dropped outright: what a popped handle's slot makes of it; none while it waits. An entry whose
QUEUE names none gives no handle (R196, R355). -/
def landInto (s : State) (p : Nat) (u : BitVec 8) (job : BitVec 2) (bs : List Byte) : Option State :=
  let r := landReg s u
  let t : W16 := fld r 0 16
  let q : BitVec 13 := fld r 16 13
  if q = 0x1FFF then none
  else match popHandle (tDie t) q t job 65 s with
  | (s1, some (h, t)) =>
    let n := fldN h 20 6
    let v : BitVec 24 := BitVec.ofNat 24 (0x800000 + n * 2 ^ 17)
    let x := getTile s1 t
    if slotLen (getSlot x n) ≠ bs.length then some (landDrop (pushHandle s1 (tDie t) q t job h .window).1 p job)
    else if !tileTakes s1 t then some (landDrop s1 p job)
    else if secureTile s1 t then some (landDrop (putErr s1 (worldErr 0 t (tDie t) (some job) v.toNat)) p job)
    else match opndCheck x job v bs.length 64 with
      | some c => some (landDrop (putErr s1 (tileErr t (some job) (accessCause c) v.toNat)) p job)
      | none => if writeWaits x v bs.length then none else some (opndWrite s1 t job v bs)
  | (_, none) => none

/-- Data that waits at a port, tried in order; data of one landing number keeps its order (R354). -/
def landTry : Nat → List (BitVec 8) → State → Nat → List (BitVec 8 × BitVec 2 × List Byte × W64) → State × List (BitVec 8 × BitVec 2 × List Byte × W64)
  | 0, _, s, _, l => (s, l)
  | _, _, s, _, [] => (s, [])
  | fuel + 1, stuck, s, p, (u, job, bs, t) :: rest =>
    match if stuck.contains u then none else landInto s p u job bs with
    | some s => landTry fuel stuck s p rest
    | none => let (s, l) := landTry fuel (u :: stuck) s p rest; (s, (u, job, bs, t) :: l)

/-- Every datum of a port that can land does. -/
def landAll (s : State) (p : Nat) : State :=
  let l := (getPort s p).landing
  let (s, l') := landTry l.length [] s p l
  putPort s p { getPort s p with landing := l' }

/-- LAND_RECEIVE (R355): a slot's contents arrive whole for a landing number. -/
def execLandReceive (port : Fin 24) (landing : BitVec 8) (job : BitVec 2) (bytes : List Byte) (s : State) : Host.Outcome State Fault Refusal :=
  .next (
    let r := landReg s landing
    let x := getPort s port
    if !x.live || !isTizal x then s
    else if !bitAt r 31 || decide (fld r 29 2 ≠ job) then landDrop s port job
    else landAll (putPort s port { x with landing := x.landing ++ [(landing, job, bytes, s.mod.time)] }) port)

/-- LAND_TIMEOUT (R355): data whose handle has come lands; data older than STREAM.CFG.PARK_LIMIT of the port's die is dropped. -/
def execLandTimeout (port : Fin 24) (s : State) : Host.Outcome State Fault Refusal :=
  .next (
    let s := landAll s port
    let lim := parkLimit (getDie s (portDie port))
    let old (e : BitVec 8 × BitVec 2 × List Byte × W64) : Bool := decide (lim ≠ 0) && decide (e.2.2.2.toNat + lim ≤ now s)
    let l := (getPort s port).landing
    (l.filter old).foldl (fun s e => landDrop s port e.2.1) (putPort s port { getPort s port with landing := l.filter fun e => !old e }))

end Sys2Proof.Machine
end

