-- ==== Sys2Proof/Machine/VaMem.lean ====
section
/-!
DEFINITION. Accesses to HBM by job virtual address that no stream transfer makes: collective units and RoCEv2 (R357, R370).
-/
namespace Sys2Proof.Machine
open Sys2Proof

/-- What an access by virtual address gives. -/
inductive VaRes where
  | ok (bs : List Byte)
  /-- A translation fault of R297 at a virtual address. -/
  | fault (reason : BitVec 3) (va : Nat)
  /-- A status that ends the access. -/
  | fail (cause : Byte)
deriving DecidableEq, Repr

/-- n bytes from a virtual address, cut at 64 KiB. -/
def vaPieces : Nat → Nat → Nat → List (Nat × Nat)
  | 0, _, _ => []
  | fuel + 1, va, n =>
    if n = 0 then []
    else
      let k := Nat.min n (65536 - va % 65536)
      (va, k) :: vaPieces fuel (va + k) (n - k)

/-- The physical pieces of a range of a job's space, in the non-secure world; or why there are none (R292, R293, R482). -/
def vaMap (job : BitVec 2) (dst : Bool) : List (Nat × Nat) → State → State × Except VaRes (List (Nat × Nat))
  | [], s => (s, .ok [])
  | (va, n) :: rest, s =>
    match walk s job false (getJob s job).regs.trnView va dst with
    | (s, .pa a _, _) =>
      if securePa s a then (putErr s (memWorldErr a (some job)), .error (.fail stWorld))
      else match vaMap job dst rest s with
        | (s, .ok l) => (s, .ok ((a, n) :: l))
        | r => r
    | (s, .fault f, _) => (s, .error (.fault f va))
    | (s, .fail c, _) => (s, .error (.fail c))
    | (s, .miss, _) => (s, .error (.fault fNotMapped va))

/-- Bytes read from a job's space. -/
def vaRead (s : State) (job : BitVec 2) (va n : Nat) : State × VaRes :=
  match vaMap job false (vaPieces (n / 65536 + 2) va n) s with
  | (s, .error e) => (s, e)
  | (s, .ok ps) =>
    let (s, bs, st) := ps.foldl (fun (r : State × List Byte × Byte) p =>
      let (s, b, st) := hbmGet r.1 p.1 p.2
      (s, r.2.1 ++ b, if r.2.2 = 0 then st else r.2.2)) (s, [], stOk)
    (s, if st = 0 then .ok bs else .fail st)

/-- Bytes written to a job's space, with the record of a merge that is not made (R316); nothing is written where a part of the range has no
translation. -/
def vaWrite (s : State) (job : BitVec 2) (va : Nat) (bs : List Byte) : State × VaRes :=
  match vaMap job true (vaPieces (bs.length / 65536 + 2) va bs.length) s with
  | (s, .error e) => (s, e)
  | (s, .ok ps) =>
    let (s, _, st) := ps.foldl (fun (r : State × List Byte × Byte) p =>
      let (s, st) := hbmStore r.1 p.1 (r.2.1.take p.2) (some job)
      (s, r.2.1.drop p.2, if r.2.2 = 0 then st else r.2.2)) (s, bs, stOk)
    (s, if st = 0 then .ok [] else .fail st)

/-! ## Parked accesses (R297-R299, R359, R370) -/

/-- The XLATE_FAULT record of a parked access that is no transfer (R370, R459): its tag, and the user tag of its descriptor or request. The
access starts afresh, at restart offset 0. -/
def vaFaultErr (die : Nat) (source : W16) (unit : BitVec 4) (job : BitVec 2) (reason : BitVec 3) (va : Nat) (dst : Bool) (tag user : W32) : Err :=
  { cause := cXlateFault, unit, source, job := some job, die := BitVec.ofNat 4 die, detail := reason.setWidth 8
    info0 := BitVec.ofNat 64 (va % 2 ^ 48) ||| at' 64 62 (b2 dst), info1 := at' 64 32 tag ||| at' 64 0 user }

/-- The park of an owner's access. -/
def parkOf (s : State) (o : ParkOwner) : Option Park := s.net.parks.find? fun p => decide (p.owner = o)

/-- An owner's access is no longer parked. -/
def unpark (s : State) (o : ParkOwner) : State := { s with net := { s.net with parks := s.net.parks.filter fun p => decide (p.owner ≠ o) } }

/-- An access parks: counted by its die, with a tag whose value the spec leaves open (log entry 68), and its record (R297). -/
def parkAccess (s : State) (die : Nat) (o : ParkOwner) (e : W32 → Err) : State :=
  let (f, s) := freshWord s
  let tag : W32 := f.setWidth 32
  let s := modDie s die fun d => { d with stream := { d.stream with faults := d.stream.faults + 1 } }
  putErr { s with net := { s.net with parks := s.net.parks ++ [{ die, tag, since := s.mod.time, owner := o }] } } (e tag)

/-- A park has lasted beyond the PARK_LIMIT of its die (R299). -/
def parkPast (s : State) (p : Park) : Bool :=
  let lim := parkLimit (getDie s p.die)
  decide (lim ≠ 0) && decide (p.since.toNat + lim ≤ now s)

end Sys2Proof.Machine
end

