-- ==== Sys2Proof/Machine/Gather.lean ====
section
/-!
DEFINITION. Gatherings: trees, posts, passes, rounds, completion, losses and restarts, shards and pins (chapter 13).
-/
namespace Sys2Proof.Machine
open Sys2Proof

/-- Causes of chapter 13 (R394). -/
def cGatherAbandoned : Byte := 0xB0
def cGatherPartial : Byte := 0xB1
def cGatherTimeout : Byte := 0xB2
def cGatherStale : Byte := 0xB3
def cStaleShard : Byte := 0xB4
def stGatherInvalid : Byte := 0xB5
def stGatherRefused : Byte := 0xB6
def stLayoutBusy : Byte := 0xB7
def cGatherPinned : Byte := 0xB8

/-! ## The descriptor (R365, R366) -/

def gdAddr (d : BitVec 1024) (lo : Nat) : W64 := fld d lo 64
def gdSrc (d : BitVec 1024) : W64 := gdAddr d 960
def gdEddyIn (d : BitVec 1024) : W64 := gdAddr d 896
def gdEddyOut (d : BitVec 1024) : W64 := gdAddr d 832
def gdResult (d : BitVec 1024) : W64 := gdAddr d 768
def gdMask (d : BitVec 1024) : W64 := gdAddr d 704
def gdCpl (d : BitVec 1024) : W64 := gdAddr d 640
def gdStep (d : BitVec 1024) : W32 := fld d 608 32
def gdTag (d : BitVec 1024) : W32 := fld d 576 32
def gdVersion (d : BitVec 1024) : W32 := fld d 544 32
def gdId (d : BitVec 1024) : W16 := fld d 528 16
def gdLayout (d : BitVec 1024) : W16 := fld d 512 16
def gdShard (d : BitVec 1024) : W16 := fld d 496 16
def gdCplTile (d : BitVec 1024) : W16 := fld d 480 16
def gdBlocks (d : BitVec 1024) : Nat := fldN d 465 15 + 1
def gdWexp (d : BitVec 1024) : Byte := fld d 457 8
def gdScoreExp (d : BitVec 1024) : Byte := fld d 449 8
def gdKeep (d : BitVec 1024) : Nat := fldN d 440 9
def gdSource (d : BitVec 1024) : Nat := fldN d 432 8
def gdTree (d : BitVec 1024) : Nat := fldN d 427 5
def gdAcnt (d : BitVec 1024) : BitVec 6 := fld d 421 6
def gdAcntEn (d : BitVec 1024) : Bool := bitAt d 420
def gdPartial (d : BitVec 1024) : Bool := bitAt d 419
def gdJob (d : BitVec 1024) : BitVec 2 := fld d 417 2
def gdKind (d : BitVec 1024) : BitVec 2 := fld d 415 2
def gdReduce (d : BitVec 1024) : Bool := decide (gdKind d = 1)

/-- No address. -/
def gdNone (a : W64) : Bool := decide (a = 0xFFFFFFFFFFFFFFFF)

/-- The key of a descriptor (R368). -/
def gdGKey (d : BitVec 1024) : GKey := { job := gdJob d, step := gdStep d, id := gdId d, layout := gdLayout d }

/-! ## Trees (R363, R364) -/

def gtReg (s : State) (n : Nat) : W64 := mget 0 s.gather.trees n
def gtRoot (t : W64) : Bool := bitAt t 39
def gtParent (t : W64) : Nat := fldN t 40 5
def gtSize (t : W64) : Nat := fldN t 45 8 + 1
def gtRank (t : W64) : Nat := fldN t 53 8
def gtChildren (t : W64) : List Nat := (List.range 24).filter fun p => bitAt t (15 + p)
/-- The ports a tree names. -/
def gtPorts (t : W64) : List Nat := (if gtRoot t then [] else [gtParent t]) ++ gtChildren t

/-- The die of a tree's home bridge (R364). -/
def homeDie (t : W64) : Nat :=
  if !gtRoot t then portDie (gtParent t) else match gtChildren t with | p :: _ => portDie p | [] => 0

/-- A write of GATHER.TREE (R363, R364): the rules hold of every write, VALID or not. -/
def writeGatherTree (s : State) (n : Nat) (v : W64) : State × Byte :=
  let v := v &&& 0xFFFFFFFFFFFF8000
  let ok := (gtPorts v).all (fun p => decide (p < 24) && decide (cfgRole (getPort s p) = 1))
    && (gtRoot v || !(gtChildren v).contains (gtParent v)) && decide (gtRank v < gtSize v)
  if !ok then (s, stInvalid)
  else if s.gather.opened.any fun g => decide (gdTree g.desc = n) then (s, stCfgBusy)
  else ({ s with gather := { s.gather with trees := mset 0 s.gather.trees n v } }, stOk)

/-- GATHER_TREE_WRITE (R363). -/
def execGatherTreeWrite (_w : Writer) (tree : BitVec 5) (value : W64) (s : State) : Host.Outcome State Fault Refusal :=
  .next (finish (writeGatherTree s tree.toNat value))

/-! ## Open gatherings -/

def getGath (s : State) (k : GKey) : Option Gather := s.gather.opened.find? fun g => decide (g.key = k)
def putGath (s : State) (g : Gather) : State :=
  { s with gather := { s.gather with opened := s.gather.opened.map fun x => if x.key = g.key then g else x } }
def gTree (s : State) (g : Gather) : W64 := gtReg s (gdTree g.desc)

/-- Child ports still in the gathering. -/
def gChildren (s : State) (g : Gather) : List Nat := (gtChildren (gTree s g)).filter (!g.lostPorts.contains ·)
/-- The inputs of a round at this module: its own contribution, 24, and its children's. -/
def gInputs (s : State) (g : Gather) : List Nat := 24 :: gChildren s g

/-- Collective packets to the parent, and to every child. -/
def sendUp (s : State) (g : Gather) (b : GBody) : State := pushPkt s (gtParent (gTree s g)) (.coll g.key g.attempt true b)
def sendDown (s : State) (g : Gather) (b : GBody) : State :=
  (gChildren s g).foldl (fun s p => pushPkt s p (.coll g.key g.attempt false b)) s

/-- Gathering messages of the control lane: 0 abandon, 1 withdrawal of the sender, 2 restart, 3 withdrawal report passed up. -/
def gTellUp (s : State) (g : Gather) (what : BitVec 2) (n : Nat) : State :=
  if gtRoot (gTree s g) then s else pushPkt s (gtParent (gTree s g)) (.gctrl g.key what g.attempt n)
def gTellDown (s : State) (g : Gather) (what : BitVec 2) (n : Nat) : State :=
  (gChildren s g).foldl (fun s p => pushPkt s p (.gctrl g.key what g.attempt n)) s

/-- A gathering at the start of an attempt. -/
def gBegin (g : Gather) (attempt : BitVec 3) : Gather :=
  { g with
    attempt
    phase := if !gdReduce g.desc then .shard else if gdKeep g.desc = 256 then .fit else .score
    rx := [], totals := [], bitlens := [], kept := [], e := none, own := [], written := 0, chunksDone := 0, sat := 0 }

/-- A packet is stale (R386). -/
def gStale (s : State) (k : GKey) (attempt : BitVec 3) : Bool :=
  s.gather.opened.any (fun g => decide (g.key.job = k.job) && decide (g.key.id = k.id) && precedes k.step g.key.step)
  || precedes k.layout (getJob s k.job).regs.layoutEpoch
  || (match getGath s k with | some g => decide (attempt.toNat < g.attempt.toNat) | none => false)

/-- Packets held that have become stale are dropped and counted (R386); so are messages, which are not packets, without a count. -/
def dropStale (s : State) : State :=
  let n : W64 := BitVec.ofNat 64 (s.net.heldG.filter fun h => gStale s h.key h.attempt).length
  { s with
    net := { s.net with
      heldG := s.net.heldG.filter fun h => !gStale s h.key h.attempt
      heldMsg := s.net.heldMsg.filter fun m => !gStale s m.key 7 }
    gather := { s.gather with stale := s.gather.stale + n, staleSum := s.gather.staleSum + n.toNat } }

/-! ## Layout epochs (R387, R388) -/

/-- A re-shard that waits ends with a status, and an epoch where it is done (R388). -/
def endReshard (s : State) (j : BitVec 2) (st : Byte) (ep : Option W16) : State :=
  payLate (dropStale (modJob s j fun x => { x with
    reshard := none, reshardStatus := st
    regs := { x.regs with layoutSt := if ep.isSome then 0 else 2, layoutEpoch := ep.getD x.regs.layoutEpoch } })) (.reshard j) st

/-- A re-shard that waits is done once no gathering of its job is open. -/
def settleReshard (s : State) (j : BitVec 2) : State :=
  match (getJob s j).reshard with
  | some (ep, _) => if s.gather.opened.any fun g => decide (g.key.job = j) then s else endReshard s j stOk (some ep)
  | none => s

/-- A write of GATHER.RESHARD (R388). It completes, with its status, when no gathering of the job is open, or at its limit: until then the
re-shard waits in the job. -/
def writeReshard (s : State) (j : BitVec 2) (ep : W16) : State × Byte :=
  let x := getJob s j
  if !precedes x.regs.layoutEpoch ep then (s, stInvalid)
  else if x.reshard.isSome then (s, stBusy)
  else
    let s := settleReshard (modJob s j fun x => { x with reshard := some (ep, s.mod.time), regs := { x.regs with layoutSt := 1 } }) j
    if (getJob s j).reshard.isSome ∧ fldN s.gather.cfg 8 8 = 0 then (endReshard s j stLayoutBusy none, stLayoutBusy) else (s, stOk)

/-- GATHER_RESHARD (R388). -/
def execGatherReshard (_w : Writer) (job : BitVec 2) (epoch : W16) (s : State) : Host.Outcome State Fault Refusal :=
  .next (match writeReshard s job epoch with
    | (s, st) => if st = stOk ∧ (getJob s job).reshard.isSome then { s with owed := s.owed ++ [.reshard job] } else finish (s, st))

/-- RESHARD_LIMIT_EXPIRE (R388). -/
def execReshardLimitExpire (job : BitVec 2) (s : State) : Host.Outcome State Fault Refusal :=
  .next (match (getJob s job).reshard with
    | some (_, t) => if t.toNat + 1000000 * fldN s.gather.cfg 8 8 ≤ now s then endReshard s job stLayoutBusy none else s
    | none => s)

/-! ## Completion (R379, R380) -/

/-- Bytes of a mask of blocks, block 0 in bit 0 of the first byte (R28). -/
def maskBytes (blocks : Nat) (kept : List Nat) : List Byte :=
  (List.range ((blocks + 7) / 8)).map fun k =>
    BitVec.ofNat 8 (sumN ((List.range 8).map fun i => if kept.contains (8 * k + i) then 2 ^ i else 0))

/-- The completion record. -/
def gcplBytes (g : Gather) (st : Byte) : List Byte :=
  let d := g.desc
  let ver : W32 := if gdReduce d then 0 else gdVersion d
  let kept := Nat.min g.kept.length 0xFFFF
  let w : BitVec 256 := at' 256 224 (gdTag d) ||| at' 256 192 (gdStep d) ||| at' 256 176 (gdId d) ||| at' 256 160 (gdLayout d)
    ||| at' 256 128 (BitVec.ofNat 32 (hold32 g.sat)) ||| at' 256 96 ver ||| at' 256 80 (BitVec.ofNat 16 kept) ||| at' 256 72 st
    ||| at' 256 64 (BitVec.ofInt 8 (g.e.getD 0)) ||| at' 256 55 (BitVec.ofNat 9 (g.contrib - 1)) ||| at' 256 52 g.restarts
  toLE 32 w.toNat

/-- A gathering record (R459). -/
def gatherErr (s : State) (g : Gather) (cause : Byte) : Err :=
  { cause, unit := 8, source := BitVec.ofNat 16 (gtRank (gTree s g)), job := some g.key.job, die := BitVec.ofNat 4 (homeDie (gTree s g)),
    detail := g.restarts.setWidth 8, info0 := at' 64 0 g.key.step ||| at' 64 32 g.key.id ||| at' 64 48 g.key.layout, info1 := at' 64 0 (gdTag g.desc) }

/-- The count or the marker at the completion tile. -/
def gTell (s : State) (g : Gather) (st : Byte) : State :=
  let t := gdCplTile g.desc
  if !gdAcntEn g.desc || decide (t = 0xFFFF) then s
  else if !tileTakes s t then putErr s { gatherErr s g cDestFenced with source := t, unit := 0 }
  else if st = 0 ∨ st = cGatherPartial then arriveCount s t (gdAcnt g.desc).toNat g.key.job
  else addMarker s t (gdAcnt g.desc) st g.key.job

/-- A status that a gathering's completion only returns, without an error record (R394). -/
def gQuiet (st : Byte) : Bool := [0, stGatherInvalid, stGatherRefused, stLayoutBusy, cGatherPinned].contains st

/-- A gathering leaves: count or marker, counter, record; a waiting re-shard may be done (R379, R388, R393, R394). -/
def gClose (s : State) (g : Gather) (st : Byte) : State :=
  let s := gTell (unpark s (.gather g.key)) g st
  let ok := decide (st = 0 ∨ st = cGatherPartial)
  let r := s.gather
  let s := { s with gather := { r with
    opened := r.opened.filter fun x => decide (x.key ≠ g.key)
    completed := if ok then r.completed + 1 else r.completed
    abandoned := if ok then r.abandoned else r.abandoned + 1 } }
  let s := if gQuiet st then s else putErr s (gatherErr s g st)
  settleReshard s g.key.job

/-! ## Parked accesses (R370) -/

/-- An access of a gathering is parked. -/
def gParked (s : State) (k : GKey) : Bool := (parkOf s (.gather k)).isSome

/-- An access of a gathering parks on a translation fault, on its home bridge's die (R370). -/
def gPark (s : State) (g : Gather) (f : BitVec 3) (va : Nat) (dst : Bool) : State :=
  let d := homeDie (gTree s g)
  parkAccess (putGath s g) d (.gather g.key) fun tag =>
    vaFaultErr d (BitVec.ofNat 16 (gtRank (gTree s g))) 8 g.key.job f va dst tag (gdTag g.desc)

/-- A participant completes with a failing status: its record is written first, and a fault of that write parks it. -/
def gFailClose (s : State) (g : Gather) (st : Byte) : State :=
  let s := unpark s (.gather g.key)
  if gdNone (gdCpl g.desc) then gClose s g st
  else match vaWrite s g.key.job (gdCpl g.desc).toNat (gcplBytes g st) with
    | (s, .fault f va) => gPark s { g with phase := .failed, failSt := st } f va true
    | (s, _) => gClose s g st

/-! ## Failure (R382-R385) -/

/-- The gathering is abandoned: this module completes with a cause and tells its neighbours in the tree (R383). One that has failed already
and whose record waits ends without it. -/
def gAbandon (s : State) (g : Gather) (st : Byte) : State :=
  if g.phase = .failed then gClose s g g.failSt else gFailClose (gTellDown (gTellUp s g 0 0) g 0 0) g st

/-- A local failure (R383, R384). -/
def gFail (s : State) (g : Gather) (st : Byte) : State :=
  if gdPartial g.desc && !gtRoot (gTree s g) && decide (g.phase ≠ .failed) then gFailClose (gTellDown (gTellUp s g 1 0) g 0 0) g st
  else gAbandon s g st

/-- The root restarts without lost contributors, unless 7 restarts are taken (R384). The contributors of a REDUCE are counted afresh with
its exponent; a SHARD sums none, and how many it counts then is open, fewer than SIZE (log entry 68). -/
def gRestartRoot (s : State) (g : Gather) : State :=
  if g.restarts = 7 then gAbandon s g cGatherAbandoned
  else
    let size := gtSize (gTree s g)
    let (f, s) := freshWord s
    let g := { gBegin g (g.attempt + 1) with
      restarts := g.restarts + 1, contrib := if gdReduce g.desc then size else 1 + f.toNat % (size - 1) }
    let s := putGath { unpark s (.gather g.key) with gather := { s.gather with restarts := s.gather.restarts + 1 } } g
    gTellDown (dropStale s) g 2 g.contrib

/-- A child port is out of a gathering: reported to the root, or ending the gathering (R382-R384). -/
def gChildLost (s : State) (g : Gather) (p : Nat) : State :=
  let g := { g with lostPorts := p :: g.lostPorts }
  let s := putGath s g
  if gtRoot (gTree s g) then gRestartRoot s g else gTellUp s g 3 0

/-- What follows an access of a gathering. -/
def gThen (s : State) (g : Gather) (dst : Bool) (r : VaRes) (k : State → List Byte → State) : State :=
  match r with
  | .ok bs => k s bs
  | .fault f va => gPark s g f va dst
  | .fail c => gFail s g c

/-! ## Finishing (R379, R390) -/

/-- The region of a shard entry meets [a, a + n). -/
def shardMeets (x : Shard) (j : BitVec 2) (a n : Nat) : Bool :=
  x.valid && decide (x.job = j) && decide (x.base.toNat < a + n) && decide (a < x.base.toNat + x.len.toNat)

/-- A receiver installs its copy: overlapping unpinned entries, and an unpinned one of the same shard and version, make way; none where no
entry is free or the version is held pinned (R390). -/
def installShard (s : State) (g : Gather) : Option State :=
  let d := g.desc
  let a := (gdResult d).toNat
  let n := 2048 * gdBlocks d
  let same (x : Shard) : Bool := x.valid && decide (x.job = g.key.job ∧ x.id = gdShard d ∧ x.version = gdVersion d)
  let m := mmap Shard.reset s.gather.shards fun _ x =>
    if decide (x.pins = 0) && (shardMeets x g.key.job a n || same x) then { x with valid := false } else x
  if m.any fun e => same e.2 then none
  else match (List.range 1024).find? fun i => !(mget Shard.reset m i).valid with
    | some i =>
      let e : Shard := { valid := true, job := g.key.job, pins := 0, id := gdShard d, version := gdVersion d, base := gdResult d, len := BitVec.ofNat 32 n }
      some { s with gather := { s.gather with shards := mset Shard.reset m i e } }
    | none => none

/-- This module is the source of a SHARD gathering. -/
def isSource (s : State) (g : Gather) : Bool := decide (gtRank (gTree s g) = gdSource g.desc)

/-- Every chunk is written: MASK, the completion record, then the count (R379). -/
def gFinish (s : State) (g : Gather) : State :=
  let d := g.desc
  let part := decide (g.contrib < gtSize (gTree s g))
  let g := { g with phase := .finish }
  let (s, st) : State × Byte := if !gdReduce d && !isSource s g then
      (match installShard s g with | some s => (s, 0) | none => (s, cGatherPinned))
    else (s, 0)
  let st := if st = 0 ∧ part then cGatherPartial else st
  let tail (s : State) : State :=
    if gdNone (gdCpl d) then gClose s g st
    else
      let (s, r) := vaWrite s g.key.job (gdCpl d).toNat (gcplBytes g st)
      gThen s g true r fun s _ => gClose s g st
  if gdReduce d && !gdNone (gdMask d) then
    let (s, r) := vaWrite s g.key.job (gdMask d).toNat (maskBytes (gdBlocks d) g.kept)
    gThen s g true r fun s _ => tail s
  else tail s

/-! ## Scores, mask, exponent and data (R371-R377) -/

/-- W64 elements of bytes. -/
def w64s (bs : List Byte) : List Int := (chunksOf 8 (bs.length + 1) bs).map fun b => sgn 64 (leNat b)

/-- A sum clamped to W64, and whether it was (R371). -/
def clamp64 (x : Int) : Int × Nat :=
  let hi : Int := 2 ^ 63 - 1
  if hi < x then (hi, 1) else if x < -(2 ^ 63) then (-(2 ^ 63), 1) else (x, 0)

/-- The inputs of a pass read: v and the clamps (R371). -/
def gRead (s : State) (g : Gather) (k : State → List Int → Nat → State) : State :=
  let n := 2048 * gdBlocks g.desc
  let (s, r) := vaRead s g.key.job (gdSrc g.desc).toNat n
  gThen s g false r fun s bs =>
    let src := w64s bs
    let go (s : State) (eddy : List Int) : State :=
      let vs := (List.range src.length).map fun i => clamp64 (nth 0 src i + nth 0 eddy i)
      k s (vs.map Prod.fst) (sumN (vs.map Prod.snd))
    if gdNone (gdEddyIn g.desc) then go s []
    else
      let (s, r) := vaRead s g.key.job (gdEddyIn g.desc).toNat n
      gThen s g false r fun s bs => go s (w64s bs)

/-- X8 of a descriptor's exponent. -/
def gdX8 (b : Byte) : Int := b.toInt

/-- The score of an element (R372). -/
def elemScore (d : BitVec 1024) (v : Int) : Nat :=
  let u := gdX8 (gdScoreExp d) - gdX8 (gdWexp d)
  Nat.min (if 0 ≤ u then v.natAbs / 2 ^ u.toNat else v.natAbs * 2 ^ (-u).toNat) 32767

/-- Blocks of 256 elements. -/
def gBlocksOf (g : Gather) (vs : List Int) : List (List Int) := chunksOf 256 (gdBlocks g.desc) vs

/-- bitlen of the largest magnitude of each block. -/
def blockBits (bs : List (List Int)) : List Nat := bs.map fun b => bitlen ((b.map Int.natAbs).foldl Nat.max 0)

/-- The module's own contributions, in chunks of n values. -/
def ownChunks (n : Nat) (f : Nat → List Int → GBody) (vs : List Int) : List (Nat × GBody) :=
  ((chunksOf n (vs.length + 1) vs).zipIdx).map fun c => (24, f c.2 c.1)

/-- The proposal for the shared exponent (R375). -/
def gPropose (g : Gather) : Gather :=
  let m := (g.kept.map fun b => nth 0 g.bitlens b).foldl Nat.max 0
  let e : Int := if m = 0 then -127 else gdX8 (gdWexp g.desc) + m - 23
  { g with phase := .expo, rx := g.rx ++ [(24, .expo e 1)] }

/-- The kept blocks (R374). -/
def selectMask (d : BitVec 1024) (tot : Nat → Int) : List Nat :=
  let n := gdBlocks d
  let bs := List.range n
  if gdKeep d = 256 then bs
  else
    let k := (n * gdKeep d + 255) / 256
    bs.filter fun b => decide (0 < tot b) &&
      decide ((bs.filter fun c => decide (tot b < tot c) || (decide (tot c = tot b) && decide (c < b))).length < k)

/-- The score pass or the fit pass is done (R372, R373). -/
def scorePass (s : State) (g : Gather) : State :=
  gRead s g fun s vs sat =>
    let bl := gBlocksOf g vs
    let g := { g with sat, bitlens := blockBits bl }
    if g.phase = .fit then putGath s (gPropose { g with kept := List.range (gdBlocks g.desc) })
    else
      let own : List Int := bl.map fun b => ((sumN (b.map (elemScore g.desc)) : Nat) : Int)
      putGath s { g with phase := .scoreSum, own, rx := g.rx ++ ownChunks 1024 .score own }

/-- v / 2^d to the nearest, ties to even (R40, R41). -/
def rneDiv (v : Int) (d : Nat) : Int :=
  let q := v / (2 ^ d : Nat)
  let r := 2 * (v % (2 ^ d : Nat))
  if r > (2 ^ d : Nat) ∨ (r = ((2 ^ d : Nat) : Int) ∧ q % 2 ≠ 0) then q + 1 else q

/-- The value sent of an element and its residual (R376). -/
def sendElem (d : Int) (v : Int) : Int × Int :=
  let q := if d ≤ 0 then v * 2 ^ (-d).toNat else rneDiv v d.toNat
  let q : Int := if 8388607 < q then 8388607 else if q < -8388607 then -8388607 else q
  (q, if d ≤ 0 then v - q / 2 ^ (-d).toNat else v - q * 2 ^ d.toNat)

/-- The data pass is done (R376, R377): the residuals are written, unkept blocks of RESULT are zero. -/
def dataPass (s : State) (g : Gather) : State :=
  gRead s g fun s vs _ =>
    let d : Int := g.e.getD 0 - gdX8 (gdWexp g.desc)
    let bl := (gBlocksOf g vs).zipIdx
    let sent : List (Bool × List (Int × Int)) := bl.map fun b =>
      if g.kept.contains b.2 then (true, b.1.map (sendElem d)) else (false, b.1.map fun v => (0, v))
    let own : List Int := (sent.filter Prod.fst).flatMap fun b => b.2.map Prod.fst
    let eddy : List Byte := sent.flatMap fun b => b.2.flatMap fun p => toLE 8 (toBits 64 p.2)
    let chunks := ownChunks 1024 .data own
    let go (s : State) : State :=
      let (s, r) := vaWrite s g.key.job (gdResult g.desc).toNat (List.replicate (1024 * gdBlocks g.desc) 0)
      gThen s g true r fun s _ =>
        let g := { g with phase := .dataSum, own, rx := g.rx ++ chunks }
        if own.isEmpty then gFinish (putGath s g) g else putGath s g
    if gdNone (gdEddyOut g.desc) then go s
    else
      let (s, r) := vaWrite s g.key.job (gdEddyOut g.desc).toNat eddy
      gThen s g true r fun s _ => go s

/-! ## Results that come down (R373, R375, R377, R390) -/

/-- Chunks of a gathering's data: of 1,024 kept elements, or of 4,096 bytes. -/
def dataChunks (g : Gather) : Nat := if gdReduce g.desc then (g.kept.length + 3) / 4 else (gdBlocks g.desc + 1) / 2

/-- A result chunk put where it belongs; results wait under port 25 while an access is parked. -/
def writeChunk (s : State) (g : Gather) (b : GBody) : State × VaRes :=
  let base := (gdResult g.desc).toNat
  match b with
  | .data c vs =>
    ((chunksOf 256 4 vs).zipIdx).foldl (fun (r : State × VaRes) p =>
      match r.2 with
      | .ok _ => vaWrite r.1 g.key.job (base + 1024 * nth 0 g.kept (4 * c + p.2)) (p.1.flatMap fun v => toLE 4 (toBits 32 v))
      | _ => r) (s, .ok [])
  | .shard c bs => if isSource s g then (s, .ok []) else vaWrite s g.key.job (base + 4096 * c) bs
  | _ => (s, .ok [])

/-- Results that wait are written, in order; the gathering finishes with its last chunk. None is while an access is parked. -/
def writeResults : Nat → State → GKey → State
  | 0, s, _ => s
  | fuel + 1, s, k =>
    match if gParked s k then none else getGath s k with
    | none => s
    | some g =>
      match g.rx.find? fun e => decide (e.1 = 25) with
      | none => s
      | some e =>
        let (s, r) := writeChunk s g e.2
        gThen s g true r fun s _ =>
          let g := { g with rx := g.rx.erase e, written := g.written + 1 }
          if g.written = dataChunks g then gFinish (putGath s g) g else writeResults fuel (putGath s g) k

/-- A result reaches a participant. -/
def takeResult (s : State) (g : Gather) (b : GBody) : State :=
  match b with
  | .score c vs =>
    let m := (vs.zipIdx).foldl (fun m p => mset 0 m (1024 * c + p.2) p.1) g.totals
    let g := { g with totals := m, chunksDone := g.chunksDone + 1 }
    if g.chunksDone = (gdBlocks g.desc + 1023) / 1024 then putGath s (gPropose { g with kept := selectMask g.desc (mget 0 m) }) else putGath s g
  | .expo e n => putGath s { g with e := some e, phase := .data, contrib := n }
  | .data .. => writeResults (dataChunks g + 1) (putGath s { g with rx := g.rx ++ [(25, b)] }) g.key
  | .shard .. => writeResults (dataChunks g + 1) (putGath s { g with rx := g.rx ++ [(25, b)] }) g.key
  | .noShard => gFailClose s g cStaleShard

/-- A result passes down the tree and is taken. -/
def passDown (s : State) (g : Gather) (b : GBody) : State := takeResult (sendDown s g b) g b

/-! ## Rounds (R373, R375, R377) -/

/-- Elementwise sum of the inputs of a round, modulo 2^32 (R230, R353). -/
def roundAdd (ls : List (List Int)) : List Int :=
  (List.range ((ls.map List.length).foldl Nat.max 0)).map fun i => sgn 32 (toBits 32 (sumI (ls.map fun l => nth 0 l i)))

/-- The round that a packet belongs to: its phase and chunk. -/
def roundNo (b : GBody) : Option (Nat × Nat) :=
  match b with
  | .score c _ => some (0, c)
  | .expo .. => some (1, 0)
  | .data c _ => some (2, c)
  | .shard .. => none
  | .noShard => none

/-- The rounds of a gathering that hold an accumulator: those with an input of a child (R353). -/
def roundsOpen (g : Gather) : List (Nat × Nat) := (g.rx.filterMap fun e => if e.1 < 24 then roundNo e.2 else none).eraseDups

/-- A child's packet can be added: its round holds an accumulator of the home bridge, or one of the 64 is free (R353). -/
def accFree (s : State) (g : Gather) (b : GBody) : Bool :=
  match roundNo b with
  | some r =>
    let d := homeDie (gTree s g)
    (roundsOpen g).contains r
      || decide (sumN ((s.gather.opened.filter fun x => decide (homeDie (gTree s x) = d)).map fun x => (roundsOpen x).length) < 64)
  | none => true

/-- Values of a score or data chunk of a number. -/
def chunkVals (data : Bool) (c : Nat) (b : GBody) : Option (List Int) :=
  match b, data with
  | .score n vs, false => if n = c then some vs else none
  | .data n vs, true => if n = c then some vs else none
  | _, _ => none

/-- The inputs of a round of one chunk, when every one is present. -/
def roundReady (s : State) (g : Gather) (pick : GBody → Option (List Int)) : Option (List (List Int)) :=
  let ins := (gInputs s g).map fun p => g.rx.findSome? fun e => if e.1 = p then pick e.2 else none
  if ins.all Option.isSome then some (ins.filterMap id) else none

/-- The chunks for which this module holds its own contribution. -/
def ownPending (data : Bool) (g : Gather) : List Nat :=
  g.rx.filterMap fun e => if e.1 = 24 then (match e.2, data with | .score n _, false => some n | .data n _, true => some n | _, _ => none) else none

/-- A round's sum goes up, or from the root down. -/
def roundOut (s : State) (g : Gather) (b : GBody) : State := if gtRoot (gTree s g) then passDown (putGath s g) g b else sendUp (putGath s g) g b

/-- A round of score or data chunks. -/
def sumRound (s : State) (g : Gather) (data : Bool) : State :=
  match (ownPending data g).findSome? fun c => (roundReady s g (chunkVals data c)).map fun l => (c, l) with
  | some (c, l) =>
    let g := { g with rx := g.rx.filter fun e => decide (e.1 = 25) || (chunkVals data c e.2).isNone }
    roundOut s g (if data then .data c (roundAdd l) else .score c (roundAdd l))
  | none => s

/-- The round of the exponent: the maximum, clamped at the root; it counts the contributors (R375, R380). -/
def expoRound (s : State) (g : Gather) : State :=
  let pick (b : GBody) : Option (List Int) := match b with | .expo e n => some [e, n] | _ => none
  match roundReady s g pick with
  | some l =>
    let m := (l.map fun x => nth 0 x 0).foldl (fun a b => if a < b then b else a) (nth 0 (nth [] l 0) 0)
    let g := { g with rx := g.rx.filter fun e => (pick e.2).isNone }
    let e : Int := if 127 < m then 127 else if m < -127 then -127 else m
    roundOut s g (.expo (if gtRoot (gTree s g) then e else m) (sumN (l.map fun x => (nth 0 x 1).toNat)))
  | none => s

/-- A round of a gathering in the phase it is in. -/
def collRound (s : State) (key : GKey) : State :=
  match getGath s key with
  | some g => match g.phase with
    | .scoreSum => sumRound s g false
    | .expo => expoRound s g
    | .dataSum => sumRound s g true
    | _ => s
  | none => s

/-! ## Passes (R370-R377, R390) -/

/-- A shard's bytes go to the root and from there to every participant (R390). -/
def shardOut (s : State) (g : Gather) (b : GBody) : State := if gtRoot (gTree s g) then passDown s g b else sendUp s g b

/-- The source reads its entry and sends it, in chunks of 4,096 bytes. -/
def shardPass (s : State) (g : Gather) : State :=
  let d := g.desc
  let n := 2048 * gdBlocks d
  match s.gather.shards.find? fun (e : Nat × Shard) =>
      e.2.valid && decide (e.2.job = g.key.job ∧ e.2.id = gdShard d ∧ e.2.version = gdVersion d) with
  | some (_, x) =>
    if x.len.toNat ≠ n then shardOut s g .noShard
    else
      let (s, r) := vaRead s g.key.job x.base.toNat n
      gThen s g false r fun s bs =>
        let g := { g with own := [1] }
        ((chunksOf 4096 (n + 1) bs).zipIdx).foldl (fun s c => match getGath s g.key with | some g => shardOut s g (.shard c.2 c.1) | none => s) (putGath s g)
  | none => shardOut s g .noShard

/-- The next work of a gathering's collective unit: a pass, results that wait, or the completion. -/
def gatherPass (s : State) (key : GKey) : State :=
  match getGath s key with
  | some g => match g.phase with
    | .score | .fit => scorePass s g
    | .data => dataPass s g
    | .dataSum => writeResults (dataChunks g + 1) s key
    | .shard => if isSource s g && g.own.isEmpty then shardPass s g else writeResults (dataChunks g + 1) s key
    | .finish => gFinish s g
    | .failed => gFailClose s g g.failSt
    | .scoreSum | .expo => s
  | none => s

/-- A parked access of a gathering ends with a status (R298, R299, R382). -/
def gParkFails (s : State) (key : GKey) (st : Byte) : State :=
  match getGath s key with
  | some g => gFail s g st
  | none => unpark s (.gather key)

/-! ## Packets (R368, R386) -/

/-- A packet of an open gathering's attempt: down from the parent, or up from a child. -/
def gPacket (s : State) (g : Gather) (p : Nat) (b : GBody) : State :=
  let t := gTree s g
  if !gtRoot t && decide (p = gtParent t) then passDown s g b
  else if (gChildren s g).contains p then
    match b with
    | .shard .. => shardOut s g b
    | .noShard => shardOut s g b
    | _ => putGath s { g with rx := g.rx ++ [(p, b)] }
  else s

/-- A packet kept in its collective-lane buffer, of which a port has 8; without a free one it cannot have been sent (R338, R368). -/
def gHold (s : State) (h : HeldG) : State :=
  if (match h.port with | some p => decide (rxBusy s p.val 1 < laneBuffers 1) | none => true) then
    { s with net := { s.net with heldG := s.net.heldG ++ [h] } }
  else s

/-- A packet received: dropped as stale, held until its key or its attempt opens or an accumulator is free, or taken. -/
def gReceive (s : State) (k : GKey) (attempt : BitVec 3) (port : Option (Fin 24)) (b : GBody) : State :=
  if gStale s k attempt then { s with gather := { s.gather with stale := s.gather.stale + 1, staleSum := s.gather.staleSum + 1 } }
  else match getGath s k, port with
    | some g, some p =>
      if g.phase = .failed then s
      else if attempt = g.attempt && (!(gChildren s g).contains p.val || accFree s g b) then gPacket s g p.val b
      else gHold s { key := k, attempt, port, body := b }
    | none, _ => gHold s { key := k, attempt, port, body := b }
    | some _, none => s

/-- Packets held are received again, oldest first (R353, R368). -/
def takeHeld (s : State) : State :=
  s.net.heldG.foldl (fun s h => gReceive s h.key h.attempt h.port h.body) { s with net := { s.net with heldG := [] } }

/-- GATHER_PACKET_RECEIVE (R386). -/
def execGatherPacketReceive (key : GKey) (attempt : BitVec 3) (port : Option (Fin 24)) (body : GBody) (s : State) :
    Host.Outcome State Fault Refusal := .next (gReceive s key attempt port body)

/-- GATHER_PASS_DONE (R371, R372, R376, R390): a pass over the inputs ends. A parked access waits for STREAM.FAULT_CTL, or fails at PARK_LIMIT
(R298, R299, R370). -/
def execGatherPassDone (key : GKey) (s : State) : Host.Outcome State Fault Refusal :=
  .next (match parkOf s (.gather key) with
    | some p => if parkPast s p then gParkFails s key cParkTimeout else s
    | none => gatherPass s key)

/-- COLL_ROUND (R373, R375, R377): a round completes; packets that waited for its accumulator may be added. -/
def execCollRound (key : GKey) (s : State) : Host.Outcome State Fault Refusal := .next (takeHeld (collRound s key))

/-! ## Messages (R383, R384) -/

/-- A later attempt begins again at the score pass (R384). -/
def gRestart (s : State) (g : Gather) (attempt : BitVec 3) (contrib : Nat) : State :=
  if g.attempt.toNat < attempt.toNat && !gtRoot (gTree s g) then
    let g := { gBegin g attempt with restarts := g.restarts + 1, contrib }
    let s := putGath { unpark s (.gather g.key) with gather := { s.gather with restarts := s.gather.restarts + 1 } } g
    takeHeld (gTellDown (dropStale s) g 2 contrib)
  else s

/-- A withdrawal told by a child, its own or one that it passes up (R384). -/
def gWithdraw (s : State) (g : Gather) (port : Nat) (direct : Bool) : State :=
  if !(gChildren s g).contains port then s
  else if !gdPartial g.desc then gAbandon s g cGatherAbandoned
  else if direct then gChildLost s g port
  else if gtRoot (gTree s g) then gRestartRoot s g
  else gTellUp s g 3 0

/-- A gathering message: one for a key not yet open waits for it, one for a gathering that has failed has no effect. -/
def gMessage (s : State) (m : HeldMsg) : State :=
  match getGath s m.key with
  | some g =>
    if g.phase = .failed then s
    else match m.what.toNat with
      | 0 => gAbandon s g cGatherAbandoned
      | 2 => gRestart s g m.attempt m.n
      | w => match m.port with
        | some p => gWithdraw s g p.val (decide (w = 1))
        | none => s
  | none => if gStale s m.key 7 then s else { s with net := { s.net with heldMsg := s.net.heldMsg ++ [m] } }

/-- GATHER_ABANDON_RECEIVE (R383): completes with GATHER_ABANDONED and passes the message on. -/
def execGatherAbandonReceive (key : GKey) (s : State) : Host.Outcome State Fault Refusal :=
  .next (gMessage s { key, what := 0, attempt := 0, n := 0, port := none })

/-- GATHER_RESTART_RECEIVE (R384). -/
def execGatherRestartReceive (key : GKey) (attempt : BitVec 3) (contrib : Nat) (s : State) : Host.Outcome State Fault Refusal :=
  .next (gMessage s { key, what := 2, attempt, n := contrib, port := none })

/-- GATHER_WITHDRAW_RECEIVE (R384): direct says that the child itself withdrew. The count that a message carries is kept while it waits; a
restart counts its contributors afresh (R380), so no withdrawal reads it. -/
def execGatherWithdrawReceive (key : GKey) (port : Fin 24) (direct : Bool) (lost : Nat) (s : State) : Host.Outcome State Fault Refusal :=
  .next (gMessage s { key, what := if direct then 1 else 3, attempt := 0, n := lost, port := some port })

/-- GATHER_TIMEOUT (R382): older than GATHER.CFG.LAG; 0 is no limit. -/
def execGatherTimeout (key : GKey) (s : State) : Host.Outcome State Fault Refusal :=
  .next (match getGath s key with
    | some g =>
      let lim := fldN s.gather.cfg 16 16
      if lim ≠ 0 ∧ g.since.toNat + 1000000 * lim < now s then gFail s g cGatherTimeout else s
    | none => s)

/-- GATHER_STALE_SUMMARY (R386). -/
def execGatherStaleSummary (s : State) : Host.Outcome State Fault Refusal :=
  .next (
    let due := match s.gather.staleAt with | some t => decide (t.toNat + 1000000000 ≤ now s) | none => true
    if decide (0 < s.gather.staleSum) && due then
      putErr { s with gather := { s.gather with staleSum := 0, staleAt := some s.mod.time } }
        { cause := cGatherStale, unit := 8, source := 0, die := 15, info0 := BitVec.ofNat 64 s.gather.staleSum }
    else s)

/-- A port is lost to a list of gatherings (R382). -/
def gPortLost (s : State) (p : Nat) (ks : List GKey) : State :=
  ks.foldl (fun s k =>
    match getGath s k with
    | some g =>
      let t := gTree s g
      if g.phase = .failed then s
      else if !gtRoot t && decide (gtParent t = p) then gFail s g cPeerLost
      else if (gChildren s g).contains p then (if gdPartial g.desc then gChildLost s g p else gAbandon s g cPeerLost)
      else s
    | none => s) s

/-- Every open gathering whose tree names a port. -/
def portKeys (s : State) (p : Nat) : List GKey := (s.gather.opened.filter fun g => (gtPorts (gTree s g)).contains p).map (·.key)

/-- TREE_PORT_LOST (R382): a tree port that has not been UP for 20 µs. -/
def execTreePortLost (port : Fin 24) (s : State) : Host.Outcome State Fault Refusal :=
  .next (
    let p := getPort s port
    if p.st ≠ .up ∧ p.notUpSince.toNat + 20000 ≤ now s then gPortLost s port (portKeys s port) else s)

/-- Gatherings whose home bridge lies on a die fail with it (R382). -/
def gHomeLost (s : State) (d : Nat) (cause : Byte) : State :=
  ((s.gather.opened.filter fun g => decide (homeDie (gTree s g) = d)).map (·.key)).foldl
    (fun s k => match getGath s k with | some g => gFail s g cause | none => s) s

/-! ## Posting (R367) -/

/-- A region of an address field: its start and length; none for no address. -/
def gRegion (a : W64) (n : Nat) : List (Nat × Nat) := if gdNone a then [] else [(a.toNat, n)]

/-- Two regions meet. -/
def meets (a b : Nat × Nat) : Bool := decide (a.1 < b.1 + b.2) && decide (b.1 < a.1 + a.2)

/-- A region keeps its alignment and ends in the space. -/
def regionOk (al : Nat) (r : Nat × Nat) : Bool := decide (r.1 % al = 0) && decide (r.1 + r.2 ≤ 2 ^ 48)

/-- The regions that a gathering writes and reads (R366). -/
def gWritten (d : BitVec 1024) : List (Nat × Nat) :=
  let n := gdBlocks d
  if gdReduce d then gRegion (gdEddyOut d) (2048 * n) ++ gRegion (gdResult d) (1024 * n) ++ gRegion (gdMask d) ((n + 7) / 8) ++ gRegion (gdCpl d) 32
  else gRegion (gdResult d) (2048 * n) ++ gRegion (gdCpl d) 32
def gReadRegs (d : BitVec 1024) : List (Nat × Nat) :=
  if gdReduce d then gRegion (gdSrc d) (2048 * gdBlocks d) ++ gRegion (gdEddyIn d) (2048 * gdBlocks d) else []

/-- No two of a list meet. -/
def apart : List (Nat × Nat) → Bool
  | [] => true
  | a :: t => t.all (fun b => !meets a b) && apart t

/-- The first form check of a post. -/
def gdFormOk (s : State) (j : BitVec 2) (d : BitVec 1024) : Bool :=
  let t := gtReg s (gdTree d)
  let red := gdReduce d
  decide (gdKind d = 1 ∨ gdKind d = 2) && decide (fldN d 0 415 = 0) && decide (gdJob d = j) && !gdNone (gdResult d)
  && (gRegion (gdCpl d) 32).all (regionOk 32)
  && (gRegion (gdResult d) ((if red then 1024 else 2048) * gdBlocks d)).all (regionOk 64)
  && (!red || (!gdNone (gdSrc d) && (gReadRegs d).all (regionOk 64) && (gRegion (gdEddyOut d) (2048 * gdBlocks d)).all (regionOk 64)
      && (gRegion (gdMask d) ((gdBlocks d + 7) / 8)).all (regionOk 64) && decide (gdWexp d ≠ 0x80) && decide (gdScoreExp d ≠ 0x80)
      && decide (gdKeep d ≠ 0) && decide (gdKeep d ≤ 256) && decide (gdVersion d = 0) && decide (gdShard d = 0)))
  && (red || decide (gdSource d < gtSize t))
  && (decide (gdCplTile d = 0xFFFF) || tilePresent s (gdCplTile d))

/-- The status of a post (R367): the first check that fails. -/
def gPostStatus (s : State) (j : BitVec 2) (d : BitVec 1024) : Byte :=
  let t := gtReg s (gdTree d)
  let ws := gWritten d
  if (getJob s j).regs.layoutSt = 1 then stLayoutBusy
  else if !gdFormOk s j d then stGatherInvalid
  else if !apart ws || ws.any (fun a => (gReadRegs d).any (meets a)) then stGatherInvalid
  else if !bitAt t 63 || decide (fld t 61 2 ≠ j) || (gtPorts t).any (fun p => decide ((getPort s p).st ≠ .up)) then stGatherInvalid
  else if gdLayout d ≠ (getJob s j).regs.layoutEpoch then stGatherInvalid
  else if (getGath s (gdGKey d)).isSome then stGatherInvalid
  else if 32 ≤ s.gather.opened.length ∨ (getJob s j).postClosed then stGatherRefused
  else if !gdReduce d && s.gather.shards.any (fun (e : Nat × Shard) =>
      decide (e.2.pins ≠ 0) && shardMeets e.2 j (gdResult d).toNat (2048 * gdBlocks d)) then cGatherPinned
  else stOk

/-- The gathering that an accepted post opens. -/
def gOpen (s : State) (d : BitVec 1024) : Gather :=
  gBegin
    { key := gdGKey d, desc := d, phase := .score, attempt := 0, rx := [], totals := [], bitlens := [], kept := [], e := none, own := [], written := 0,
      chunksDone := 0, sat := 0, contrib := gtSize (gtReg s (gdTree d)), restarts := 0, since := s.mod.time, lostPorts := [], failSt := 0 } 0

/-- An accepted post opens its gathering (R367): what it makes stale is dropped, and messages and packets held for it follow (R368, R383,
R384, R386). -/
def gOpened (s : State) (d : BitVec 1024) : State :=
  let s := dropStale { s with gather := { s.gather with opened := s.gather.opened ++ [gOpen s d] } }
  let ms := s.net.heldMsg.filter fun m => decide (m.key = gdGKey d)
  let s := { s with net := { s.net with heldMsg := s.net.heldMsg.filter fun m => decide (m.key ≠ gdGKey d) } }
  takeHeld (ms.foldl gMessage s)

/-- A write of 1 to GATHER.POST_CTL (R367): a failed re-shard's state returns to IDLE (R388). -/
def gatherPost (s : State) (j : BitVec 2) : State × Byte :=
  let d := (getJob s j).regs.gatherPost
  let st := gPostStatus s j d
  let s := if (getJob s j).regs.layoutSt = 2 then modJob s j fun x => { x with regs := { x.regs with layoutSt := 0 } } else s
  (if st = 0 then gOpened s d else s, st)

/-- GATHER_POST (R367). -/
def execGatherPost (_w : Writer) (job : BitVec 2) (s : State) : Host.Outcome State Fault Refusal := .next (finish (gatherPost s job))

/-! ## Shards and pins (R389, R391) -/

/-- A write of a shard entry: 0 TAG, 1 VERSION, 2 BASE, 3 LEN. -/
def writeShard (s : State) (i reg : Nat) (v : W64) : State × Byte :=
  let x := mget Shard.reset s.gather.shards i
  let y : Shard := match reg with
    | 0 => { x with valid := bitAt v 63, job := fld v 61 2, id := fld v 29 16 }
    | 1 => { x with version := v.setWidth 32 }
    | 2 => { x with base := v &&& 0x0000FFFFFFFFFFFF }
    | _ => { x with len := v.setWidth 32 }
  let twin := y.valid && s.gather.shards.any fun (e : Nat × Shard) =>
    decide (e.1 ≠ i) && e.2.valid && decide (e.2.job = y.job ∧ e.2.id = y.id ∧ e.2.version = y.version)
  if 4 ≤ reg then (s, stNoSub)
  else if twin || decide (y.len.toNat % 2048 ≠ 0) then (s, stInvalid)
  else if x.pins ≠ 0 then (s, stCfgBusy)
  else ({ s with gather := { s.gather with shards := mset Shard.reset s.gather.shards i y } }, stOk)

/-- SHARD_ENTRY_WRITE (R389). -/
def execShardEntryWrite (_w : Writer) (entry : BitVec 10) (reg : BitVec 2) (value : W64) (s : State) : Host.Outcome State Fault Refusal :=
  .next (finish (writeShard s entry.toNat reg.toNat value))

/-- A pin (R391). -/
def gatherPin (s : State) (j : BitVec 2) (step : W32) (shard : W16) (version : W32) : State × Byte :=
  match s.gather.shards.find? fun (e : Nat × Shard) => e.2.valid && decide (e.2.job = j ∧ e.2.id = shard ∧ e.2.version = version) with
  | none => (putErr s { cause := cStaleShard, unit := 8, source := 0, job := some j, die := 15, info0 := at' 64 0 step }, cStaleShard)
  | some (i, x) =>
    if 4096 ≤ s.gather.pins.length then (s, stCfgBusy)
    else
      ({ s with gather := { s.gather with
        shards := mset Shard.reset s.gather.shards i { x with pins := x.pins + 1 }
        pins := s.gather.pins ++ [{ job := j, step, entry := BitVec.ofNat 10 i }] } }, stOk)

/-- GATHER_PIN (R391). -/
def execGatherPin (_w : Writer) (job : BitVec 2) (step : W32) (shard : W16) (version : W32) (s : State) : Host.Outcome State Fault Refusal :=
  .next (finish (gatherPin s job step shard version))

/-- Pins of a step and of the steps before it retired (R391). -/
def gatherRetire (s : State) (j : BitVec 2) (step : W32) : State :=
  let out := s.gather.pins.filter fun p => decide (p.job = j) && (decide (p.step = step) || precedes p.step step)
  let m := out.foldl (fun m p =>
    let x := mget Shard.reset m p.entry.toNat
    mset Shard.reset m p.entry.toNat { x with pins := x.pins - 1 }) s.gather.shards
  { s with gather := { s.gather with shards := m, pins := s.gather.pins.filter fun p => !out.contains p } }

/-- GATHER_RETIRE (R391). -/
def execGatherRetire (_w : Writer) (job : BitVec 2) (step : W32) (s : State) : Host.Outcome State Fault Refusal :=
  .next (setStatus (gatherRetire s job step) stOk)

/-! ## GATHER.CTL (R392) -/

/-- Every open gathering of a job abandoned. -/
def abandonJob (s : State) (j : BitVec 2) : State :=
  ((s.gather.opened.filter fun g => decide (g.key.job = j)).map (·.key)).foldl
    (fun s k => match getGath s k with | some g => gAbandon s g cGatherAbandoned | none => s) s

def gDrain (s : State) (j : BitVec 2) : State := modJob s j fun x => { x with postClosed := true, drainSince := some s.mod.time }
def gAbort (s : State) (j : BitVec 2) : State := abandonJob (modJob s j fun x => { x with postClosed := true }) j
def gResume (s : State) (j : BitVec 2) : State := modJob s j fun x => { x with postClosed := false, drainSince := none }
def gAbandonOne (s : State) (j : BitVec 2) (step : W32) (id : W16) : State :=
  match s.gather.opened.find? fun g => decide (g.key.job = j ∧ g.key.step = step ∧ g.key.id = id) with
  | some g => gAbandon s g cGatherAbandoned
  | none => s

/-- GATHER_DRAIN (R392). -/
def execGatherDrain (_w : Writer) (job : BitVec 2) (s : State) : Host.Outcome State Fault Refusal := .next (setStatus (gDrain s job) stOk)
/-- GATHER_ABORT (R392). -/
def execGatherAbort (_w : Writer) (job : BitVec 2) (s : State) : Host.Outcome State Fault Refusal := .next (setStatus (gAbort s job) stOk)
/-- GATHER_ABANDON (R392). -/
def execGatherAbandon (_w : Writer) (job : BitVec 2) (step : W32) (id : W16) (s : State) : Host.Outcome State Fault Refusal :=
  .next (setStatus (gAbandonOne s job step id) stOk)
/-- GATHER_RESUME (R392). -/
def execGatherResume (_w : Writer) (job : BitVec 2) (s : State) : Host.Outcome State Fault Refusal := .next (setStatus (gResume s job) stOk)

/-- A write of GATHER.CTL (R392). -/
def writeGatherCtl (s : State) (v : W64) : State × Byte :=
  let j : BitVec 2 := fld v 4 2
  (match fldN v 0 3 with
    | 1 => gDrain s j
    | 2 => gAbort s j
    | 3 => gAbandonOne s j (fld v 32 32) (fld v 16 16)
    | 4 => gResume s j
    | _ => s, stOk)

/-- GATHER_DRAIN_LIMIT_EXPIRE (R392, R393): 0 never abandons. -/
def execGatherDrainLimitExpire (job : BitVec 2) (s : State) : Host.Outcome State Fault Refusal :=
  .next (match (getJob s job).drainSince with
    | some t =>
      let lim := fldN s.gather.cfg 0 8
      if lim ≠ 0 ∧ t.toNat + 1000000 * lim ≤ now s then abandonJob (modJob s job fun x => { x with drainSince := none }) job else s
    | none => s)

end Sys2Proof.Machine
end

