-- ==== Sys2Proof/Machine/TileCfg.lean ====
section
/-!
DEFINITION. The configuration registers of tiles and of stream objects (R187-R192, R196, R197, R283, R284, R289), scratchpad patrol (R203).
-/
namespace Sys2Proof.Machine
open Sys2Proof

/-! ## Shares (R187-R191) -/

/-- A context's share under a value of TILE.SHARE. -/
def shareUnder (v : W32) (j : BitVec 2) : Nat × Nat :=
  let f := 16384 * fldN v 0 5
  if bitAt v (8 + j.toNat) then (spadBytes - f, spadBytes) else (0, spadBytes - f)

/-- A loaded context that is not STOPPED or HALTED has a share that the write would change or move (R191). -/
def shareBusy (x : Tile) (v : W32) : Bool :=
  jobs4.any fun j =>
    let st := (getCtx x j).st
    decide (st ≠ .empty) && decide (st ≠ .stopped) && decide (st ≠ .halted) && decide (shareUnder x.regs.share j ≠ shareUnder v j)

/-- A write of TILE.SHARE (R187, R191). -/
def writeShare (s : State) (t : W16) (v : W32) : State × Byte :=
  let v := v &&& 0x00000F1F
  if 16 < fldN v 0 5 then (s, stInvalid)
  else if shareBusy (getTile s t) v then (s, stCfgBusy)
  else (modTile s t fun x => { x with regs := { x.regs with share := v } }, stOk)

/-- TILE_SHARE_WRITE (R187). -/
def execTileShareWrite (_w : Writer) (tile : W16) (value : W32) (s : State) : Host.Outcome State Fault Refusal :=
  onTile tile s fun s => finish (tileReg s tile fun s => writeShare s tile value)

/-! ## Arrival counters (R192) -/

def acntCfgReg (a : Acnt) : W32 := at' 32 31 (b2 a.enable) ||| at' 32 0 a.owner

/-- A write of ACNT.CFG (R192). -/
def writeAcntCfg (s : State) (t : W16) (k : Nat) (v : W32) : State × Byte :=
  (modTile s t fun x =>
    let a := getAcnt x k
    putAcnt x k { a with enable := bitAt v 31, owner := fld v 0 2, value := if bitAt v 31 && !a.enable then 0 else a.value }, stOk)

/-- ACNT_CFG_WRITE (R192). -/
def execAcntCfgWrite (_w : Writer) (tile : W16) (acnt : BitVec 6) (value : W32) (s : State) : Host.Outcome State Fault Refusal :=
  onTile tile s fun s => finish (tileReg s tile fun s => writeAcntCfg s tile acnt.toNat value)

/-! ## Slots (R196, R197) -/

/-- An operand address names a slot. -/
def namesSlot (v : BitVec 24) (k : Nat) : Bool := decide (opndSlot v = some k)

/-- A side of a descriptor names a slot of a tile by a slot reference. -/
def sideNamesSlot (d : BitVec 512) (dst : Bool) (t : W16) (k : Nat) : Bool :=
  decide (dKind d dst = 1) && decide (fld (dAddr d dst) 24 16 = t) && namesSlot (fld (dAddr d dst) 0 24) k

/-- A handle of a tile's slot. -/
def handleNames (h : Option W32) (u t : W16) (k : Nat) : Bool :=
  decide (u = t) && (match h with | some h => decide (fldN h 20 6 = k) | none => false)

/-- A transfer of a die that is queued or under way references a slot of a tile: in a descriptor begun or still to begin, in the address of the
next one of its chain, or by a handle held (R197). -/
def xferNames (d : Die) (x : XferRec) (t : W16) (k : Nat) : Bool :=
  let desc (e : BitVec 512) : Bool := sideNamesSlot e false t k || sideNamesSlot e true t k || (decide (x.tile = t) && namesSlot (dCpl e) k)
  let y := getReach d (x.qid.setWidth 10)
  (decide (x.begun = 0) && (desc x.desc || (!x.reach && decide (x.tile = t) && namesSlot (dNext x.desc) k)))
  || (decide (x.tile = t) && namesSlot x.nextOp k && !x.ended)
  || (x.reach && !x.ended && (List.range (reachChain y)).any fun i => decide (x.begun ≤ i) && desc (mget 0 y.descs i))
  || (!x.handed && handleNames x.handle x.htile t k)
  || x.legs.any fun l => desc l.desc || handleNames l.handle l.htile t k

/-- An issued engine operation or a queued transfer references the slot (R197). -/
def slotNamed (s : State) (t : W16) (k : Nat) : Bool :=
  let x := getTile s t
  ((allOps x).any fun o => (opRegions x o).any fun r => namesSlot r.addr k)
  || s.dies.any fun (d : Nat × Die) => d.2.recs.any fun (r : Nat × XferRec) => decide (r.2.st ≠ .free) && xferNames d.2 r.2 t k

/-- The buffer of a slot configuration lies in its owner's share. -/
def slotInShare (x : Tile) (v : W64) : Bool :=
  inShare x (fld v 61 2) (64 * fldN v 0 17) (64 * (fldN v 17 12 + 1))

/-- The write that an accepted value makes: enabling empties the slot and keeps its generation, disabling adds one to it (R196, R197). -/
def slotWith (y : Slot) (v : W64) : Slot :=
  if bitAt v 63 then (if slotEnabled y then { y with cfg := v } else { y with cfg := v, st := .empty, filled := 0, drainWait := false })
  else if slotEnabled y then { y with cfg := v, gen := y.gen + 1 } else y

/-- A write of SLOT.CFG (R196, R197). -/
def writeSlotCfg (s : State) (t : W16) (k : Nat) (v : W64) : State × Byte :=
  let v := v &&& 0xFFFFFFFC1FFFFFFF
  let x := getTile s t
  let y := getSlot x k
  let owner := (getCtx x (slotOwner y)).st
  let go : State × Byte := (putTile s t (putSlot x k (slotWith y v)), stOk)
  if 2047 < fldN v 17 12 then (s, stInvalid)
  else if !bitAt v 63 && decide (owner = .stopped ∨ owner = .halted ∨ owner = .empty) then go
  else if slotEnabled y && decide (y.st ≠ .empty) then (s, stCfgBusy)
  else if slotNamed s t k then (s, stCfgBusy)
  else if bitAt v 63 && !slotInShare x v then (s, stCfgBusy)
  else go

/-- SLOT_CFG_WRITE (R196). -/
def execSlotCfgWrite (_w : Writer) (tile : W16) (slot : BitVec 6) (value : W64) (s : State) : Host.Outcome State Fault Refusal :=
  onTile tile s fun s => finish (tileReg s tile fun s => writeSlotCfg s tile slot.toNat value)

/-! ## Handle queues and stream queue contexts (R283, R284) -/

/-- A write of HQ.CFG (R283). -/
def writeHqCfg (s : State) (t : W16) (n : Nat) (v : W32) : State × Byte :=
  let v := v &&& 0xE0000000
  let y := getHq (getTile s t) n
  if hqEnabled y && !y.handles.isEmpty then (s, stCfgBusy)
  else (modTile s t fun x => putHq x n { y with cfg := v, handles := if bitAt v 31 && !hqEnabled y then [] else y.handles, draining := false }, stOk)

/-- HQ_CFG_WRITE (R283). -/
def execHqCfgWrite (_w : Writer) (tile : W16) (hq : BitVec 3) (value : W32) (s : State) : Host.Outcome State Fault Refusal :=
  onTile tile s fun s => finish (tileReg s tile fun s => writeHqCfg s tile hq.toNat value)

/-- A write of STQ.CFG (R284). -/
def writeStqCfg (s : State) (die : Nat) (q : BitVec 12) (v : W64) : State × Byte :=
  let v := v &&& 0xFFFFFFF800000000
  let y := getStq (getDie s die) q
  if fldN v 59 2 = 3 then (s, stInvalid)
  else if y.st ≠ .disabled then (s, stCfgBusy)
  else (modDie s die fun d => putStq d q (if bitAt v 63 then { Stq.reset with cfg := v, st := .active } else { y with cfg := v }), stOk)

/-- STQ_CFG_WRITE (R284). -/
def execStqCfgWrite (_w : Writer) (die : Fin 12) (qid : BitVec 12) (value : W64) (s : State) : Host.Outcome State Fault Refusal :=
  .next (finish (dieReg s die fun s => writeStqCfg s die qid value))

/-! ## Reaches (R289) -/

/-- Every descriptor of a reach's chain passes R273. -/
def reachOk (s : State) (die : Nat) (y : Reach) (v : W64) : Bool :=
  (List.range (fldN v 56 2 + 1)).all fun i => descOk s die (fld v 16 16) true (mget 0 y.descs i)

/-- A write of REACH.CFG by a world (R289, R480). -/
def writeReachCfg (s : State) (world : Bool) (die : Nat) (n : BitVec 10) (v : W64) : State × Byte :=
  let v := v &&& 0xFFE0FFFFFFFF0000
  let y := getReach (getDie s die) n
  if fldN v 32 16 = 0 then (s, stInvalid)
  else if reachOn y then (s, stCfgBusy)
  else if bitAt v 63 && !reachOk s die y v then (s, stInvalid)
  else (modDie s die fun d => putReach d n { y with cfg := v, world, st := if bitAt v 63 then .idle else y.st }, stOk)

/-- REACH_CFG_WRITE (R289). -/
def execReachCfgWrite (w : Writer) (die : Fin 12) (reach : BitVec 10) (value : W64) (s : State) : Host.Outcome State Fault Refusal :=
  .next (finish (dieReg s die fun s => writeReachCfg s (secureWriter w) die reach value))

/-- A write of REACH.STRIDE: a multiple of 64 (R289). -/
def writeReachStride (s : State) (die : Nat) (n : BitVec 10) (v : W64) : State × Byte :=
  if reachOn (getReach (getDie s die) n) then (s, stCfgBusy)
  else if v.toNat % 64 ≠ 0 then (s, stInvalid)
  else (modDie s die fun d => putReach d n { getReach d n with stride := v }, stOk)

/-- A write of REACH.DESC0 to REACH.DESC3 (R289): the reserved bits keep 0, and a kind of 3 is an unlisted value (R10, R11, R271, R272). -/
def writeReachDesc (s : State) (die : Nat) (n : BitVec 10) (i : Nat) (v : BitVec 512) : State × Byte :=
  let v := v &&& ~~~ maskAt 512 0 172
  if reachOn (getReach (getDie s die) n) then (s, stCfgBusy)
  else if dSrcKind v = 3 ∨ dDstKind v = 3 then (s, stInvalid)
  else (modDie s die fun d => putReach d n { getReach d n with descs := mset 0 (getReach d n).descs i v }, stOk)

/-! ## SECDED of the scratchpad (R203) -/

/-- The state of a scratchpad word. -/
def eccAt (m : SMap EccSt) (w : Nat) : Option EccSt := (m.find? fun (e : Nat × EccSt) => decide (e.1 = w)).map Prod.snd
/-- A word given an error; two faults in one word make a double-bit error. -/
def eccSet (m : SMap EccSt) (w : Nat) (v : EccSt) : SMap EccSt := mins w v (merase m w)

/-- SPAD_ECC_WRITEBACK (R203): a word with a corrected error is written back. -/
def execSpadEccWriteback (tile : W16) (word : BitVec 16) (s : State) : Host.Outcome State Fault Refusal :=
  onTile tile s fun s =>
    if eccAt (getTile s tile).spadEcc word.toNat = some .single then modTile s tile fun x => { x with spadEcc := merase x.spadEcc word.toNat } else s

/-- SPAD_PATROL (R203): patrol reads one bank row of 128 bytes: single-bit errors are corrected and written back; a double-bit error is
recorded. -/
def execSpadPatrol (tile : W16) (row : BitVec 12) (s : State) : Host.Outcome State Fault Refusal :=
  onTile tile s fun s =>
    let ws := (List.range 16).map fun i => 16 * row.toNat + i
    let x := getTile s tile
    let bad := ws.filter fun w => decide (eccAt x.spadEcc w = some .double)
    let s := modTile s tile fun x => { x with spadEcc := x.spadEcc.filter fun e => !(ws.contains e.1 && decide (e.2 = .single)) }
    bad.foldl (fun s w => putErr s (tileErr tile none cSpadEcc (8 * w))) s

end Sys2Proof.Machine
end

