-- ==== Sys2Proof/Machine/Fence.lean ====
section
/-!
DEFINITION. Tile faults and fences (R464, R467, R468).
-/
namespace Sys2Proof.Machine
open Sys2Proof

/-- Causes of chapter 16 (R479). -/
def cTileFault : Byte := 0xE0
def cTileFenced : Byte := 0xE1
def cRouterFault : Byte := 0xE2
def cRouterBypass : Byte := 0xE3
def cRouterLimit : Byte := 0xE4
def cCheckerFail : Byte := 0xE5
def cDieEscalate : Byte := 0xE6
def cMgmtTakeover : Byte := 0xE7
def cFwHandover : Byte := 0xE8
def cFwRevert : Byte := 0xE9
def cAppWdog : Byte := 0xEA
def cFatalInternal : Byte := 0xEC

/-- ERR.CFG fields (R465). -/
def autoFence (s : State) : Bool := bitAt s.log.cfg 31
def autoBypass (s : State) : Bool := bitAt s.log.cfg 30

/-- A double-bit error stands in a tile's context store, in the area of a context. -/
def storeBad (x : Tile) (j : BitVec 2) : Bool := decide (eccAt x.ctxEcc j.toNat = some .double)

/-- Jobs that a loss of tiles may have left with every tile HALTED, or with nothing running (R400). -/
def settleJobs (s : State) : State := jobs4.foldl (fun s j => checkPaused (checkFinished s j) j) s

/-! ## What a fence takes with it (R305, R468) -/

/-- A queue that a descriptor names is a handle queue of a tile. -/
def namesTileHq (home t : W16) (q : BitVec 13) : Bool := decide (q ≠ 0x1FFF) && !bitAt q 12 && decide (home = t)

/-- A side of a descriptor has a tile as its endpoint. -/
def sideEnds (d : BitVec 512) (dst : Bool) (t : W16) : Bool := decide (dKind d dst = 1) && decide (fld (dAddr d dst) 24 16 = t)

/-- A descriptor names a tile as endpoint, or one of its handle queues. -/
def descEnds (home t : W16) (d : BitVec 512) : Bool :=
  sideEnds d false t || sideEnds d true t || namesTileHq home t (dInQ d) || namesTileHq home t (dOutQ d)

/-- A transfer under way has a tile as TILE or HSLOT endpoint, or names one of its handle queues; not one whose bytes are all written (R277). -/
def legEnds (x : XferRec) (t : W16) (l : Leg) : Bool :=
  !l.told && !legWritten l
  && (descEnds x.tile t l.desc || (decide (dSrcKind l.desc = 2 ∨ dDstKind l.desc = 2) && l.handle.isSome && decide (l.htile = t)))

/-- The transfers of a record that end at a tile fail with DEST_FENCED: a queued one, or those of its descriptors under way (R305, R468). -/
def fenceRec (s : State) (d : Nat) (r : BitVec 9) (t : W16) : State :=
  let x := getRec (getDie s d) r
  if x.st = .free then s
  else if x.begun = 0 then if descEnds x.tile t x.desc then sweepRec (abortRec s d r cDestFenced) d r else s
  else
    let ls := x.legs.filter (legEnds x t)
    let s := modRec s d r fun x => ls.foldl (fun x l =>
      let off := (l.steps.map (·.off)).foldl Nat.min l.next
      failLeg x l.num cDestFenced off (stepVa x l off)) x
    match lastLeg x with
    | some l => if legEnds x t l ∧ isParked x then modRec s d r fun x => { x with st := .running, ctl := none } else s
    | none => s

/-- A reach that is enabled names a handle queue of a tile. -/
def reachNames (y : Reach) (t : W16) : Bool :=
  reachOn y && (List.range (fldN y.cfg 56 2 + 1)).any fun i =>
    let d : BitVec 512 := mget 0 y.descs i
    namesTileHq (fld y.cfg 16 16) t (dInQ d) || namesTileHq (fld y.cfg 16 16) t (dOutQ d)

/-- The transfers and reaches that end at a fenced tile, or name its handle queues, fail with DEST_FENCED (R305, R468). -/
def fenceXfers (s : State) (t : W16) : State :=
  (s.dies.map Prod.fst).foldl (fun s d =>
    let x := getDie s d
    let s := (x.reach.filter fun (e : Nat × Reach) => reachNames e.2 t).foldl
      (fun s (e : Nat × Reach) => abortReach s d (BitVec.ofNat 10 e.1) cDestFenced) s
    ((getDie s d).recs.map fun e => BitVec.ofNat 9 e.1).foldl (fun s r => fenceRec s d r t) s) s

/-- Pushes that the slots of a tile held go with it; those held for its queues are dropped (R285, R305). -/
def fencePushes (s : State) (t : W16) : State :=
  let own (p : HeldPush) : Bool := match p.src with | .slot u _ _ => decide (u = t) | _ => false
  let s := { s with
    dies := mmap Die.reset s.dies fun _ d => { d with stq := mmap Stq.reset d.stq fun _ q => { q with held := q.held.filter fun p => !own p } }
    tiles := mmap Tile.reset s.tiles fun _ x => { x with hqs := mmap Hq.reset x.hqs fun _ q => { q with held := q.held.filter fun p => !own p } } }
  (getTile s t).hqs.foldl (fun s (e : Nat × Hq) => dropHeld s (tDie t) t e.2.held) s

/-- Trees that end at a tile are disabled (R468). -/
def endTrees (s : State) (t : W16) : State :=
  { s with net := { s.net with
    trees := mmap Tree.reset s.net.trees fun _ x => if treeEnd x = t then { x with cfg := setFld x.cfg 31 1 0 } else x } }

/-- The position of a tile fenced in the flash map, under a new generation (R467, R471). -/
def fenceInMap (s : State) (t : W16) : State :=
  let i := halfNo (tDie t) (tH1 t)
  let h := getHalf s i
  let p := tilePos s t
  putHalf s i { h with flashFenced := if h.flashFenced.contains p then h.flashFenced else h.flashFenced ++ [p], flashGen := h.flashGen + 1 }

/-- A record of a tile fault or fence. -/
def fenceErr (t : W16) (cause detail : Byte) (injected : Bool) : Err :=
  { cause, unit := 0, source := t, die := BitVec.ofNat 4 (tDie t), detail, injected }

/-- A fence of a tile in service (R467). -/
def fenceTile (s : State) (t : W16) (injected : Bool) : State :=
  let s := loseMembers s (fun u => decide (u = t)) (fun _ => false)
  let s := { s with net := { s.net with arrivals := s.net.arrivals.filter fun a => decide (a.tile ≠ t) } }
  let s := fencePushes (fenceXfers (endTrees (breakTrees s (fun u => decide (u = t)) t) t) t) t
  let s := settleJobs (putTile s t { Tile.reset with fenced := true })
  fenceInMap (putErr s (fenceErr t cTileFenced 0 injected)) t

/-- Every context of a tile stops with TILE_FAULT, and the tile is held (R464). -/
def holdTile (s : State) (t : W16) : State :=
  settleJobs (modTile s t fun x =>
    let x := jobs4.foldl discardOps x
    let x := jobs4.foldl (fun x j =>
      let c := getCtx x j
      if c.st = .empty then x else putCtx x j { noteExc c cTileFault false false c.pc 0 with wait := none, yrec := none }) x
    { x with faultHold := true })

/-- A tile fault (R464): its record, then the fence, or the stop with AUTO_FENCE 0. Where the die is not READY, its reset prevails and the tile
rejoins fenced, in a new map generation (R468). -/
def tileFault (s : State) (t : W16) (detail : Byte) (injected : Bool) : State :=
  let s := putErr s (fenceErr t cTileFault detail injected)
  if (getTile s t).fenced then s
  else if !dieReady s (tDie t) then (if autoFence s then fenceInMap (modTile s t fun x => { x with fenced := true }) t else s)
  else if autoFence s then fenceTile s t injected
  else if (getTile s t).faultHold then s
  else holdTile s t

end Sys2Proof.Machine
end

