-- ==== Sys2Proof/Machine/Switch.lean ====
section
/-!
DEFINITION. The core passing between contexts, late returns, the yield registers and the context controls (R397, R398, R406-R414).
-/
namespace Sys2Proof.Machine
open Sys2Proof

/-- SWITCH_LATE (R421). -/
def cSwitchLate : Byte := 0xC0

/-! ## The core passes (R397, R398, R411, R412) -/

/-- A wait suspended as a switch from its context is decided: its limit stops counting, and its loan ends (R158, R259, R397). -/
def suspendWait (s : State) (c : Ctx) : Ctx :=
  match c.wait with
  | some w =>
    if w.suspended then c
    else { c with wait := some { w with elapsed := w.elapsed + (s.mod.time - w.since), since := s.mod.time, pwr := .spin, suspended := true } }
  | none => c

/-- A context takes the core: RUNNING, its wait resumed, the fetch buffer empty, TILE.CTX and TILE.SWITCHES (R398, R411, R412, R415). -/
def takeCore (s : State) (t : W16) (k : BitVec 2) : State :=
  modTile s t fun x =>
    let c := getCtx x k
    let c := { c with st := .running, yrec := none, wait := c.wait.map fun w => { w with since := s.mod.time, suspended := false } }
    { putCtx (mapYield x) k c with fetchBuf := [], regs := { x.regs with ctxReg := k, switches := x.regs.switches + 1 } }
where
  /-- The yield that led here is over: the core has passed. -/
  mapYield (x : Tile) : Tile :=
    match yieldedCtx x with
    | some (j, y) => putCtx x j { getCtx x j with yrec := some { y with leaving := false } }
    | none => x

/-- A running context at its switch point leaves the core in a state. -/
def leaveCore (s : State) (t : W16) (j : BitVec 2) (st : CtxSt) : State := modCtx s t j fun c => { suspendWait s c with st }

/-- A context takes the core from the context store (R411): a double-bit error in its area is found as it is read (R454, R464). -/
def readStore (s : State) (t : W16) (k : BitVec 2) : State := if storeBad (getTile s t) k then tileFault s t 1 true else takeCore s t k

/-- What a switch of a tile's core does: the running context pauses or gives way, once no engine holds an operation of it, its wait suspended
until then (R397); or an idle core is taken. -/
def switchTile (s : State) (t : W16) : State :=
  let x := getTile s t
  if x.faultHold || x.fenced then s
  else match runningCtx x with
    | some j =>
      if !switchDue s t j then s
      else if engBusy x j then modCtx s t j (suspendWait s)
      else if (getJob s j).st = .pausing then checkPaused (leaveCore s t j .paused) j
      else match switchTaker x j with
        | some k => readStore (leaveCore s t j .ready) t k
        | none => s
    | none =>
      let out := x.regs.ctxReg
      if engBusy x out then s
      else match idleTaker x with
        | some k => readStore s t k
        | none => s

/-- CONTEXT_SWITCH (R397, R398). -/
def execContextSwitch (tile : W16) (s : State) : Host.Outcome State Fault Refusal := onTile tile s fun s => switchTile s tile

/-- YIELD_MAX_EXPIRE (R410): a yielded context whose longest bubble has passed becomes due. -/
def execYieldMaxExpire (tile : W16) (s : State) : Host.Outcome State Fault Refusal := onTile tile s fun s => markDue s tile

/-- Another context runs and has reached no switch point (R414). -/
def fillerRuns (x : Tile) (j : BitVec 2) : Bool := (runningCtx x).any fun k => decide (k ≠ j) && !(getCtx x k).switchPt

/-- SWITCH_LATE (R414): a due context has waited for the core beyond SWITCH.CFG.LATE_LIMIT, while the running one has reached no switch point;
once per bubble. A limit of 0 disables it. -/
def execSwitchLate (tile : W16) (s : State) : Host.Outcome State Fault Refusal :=
  onTile tile s fun s =>
    let x := getTile s tile
    let lim := fldN s.mod.switchCfg 16 16
    match yieldedCtx x with
    | some (j, y) =>
      match y.due with
      | some d =>
        if lim ≠ 0 ∧ fillerRuns x j ∧ !y.lateNoted ∧ d.toNat + 125 * lim ≤ now s then
          let s := modTile s tile fun x =>
            { putCtx x j { getCtx x j with yrec := some { y with lateNoted := true } } with
              regs := { x.regs with switchLate := x.regs.switchLate + 1 } }
          putErr s { tileErr tile (some j) cSwitchLate 0 with sev := 0 }
        else s
      | none => s
    | none => s

/-! ## Yield registers (R407) -/

/-- The yield registers may be written. -/
def yieldWritable (c : Ctx) : Bool := decide (c.st = .paused ∨ c.st = .stopped ∨ c.st = .halted ∨ c.st = .empty)

/-- A write of the TILE.YIELD register (R407): the yield unit reads the entry at the cursor again (R409). -/
def writeYield (s : State) (t : W16) (j : BitVec 2) (v : W64) : State × Byte :=
  let c := getCtx (getTile s t) j
  if !yieldWritable c then (s, stCfgBusy)
  else if fldN v 0 32 = 0 then (s, stInvalid)
  else
    let n := fldN v 57 6 + 1
    let s := modCtx s t j fun c => { c with
      yieldReg := v &&& 0xFFFFFFFEFFFFFFFF, cursor := if n ≤ c.cursor.toNat then 0 else c.cursor, yent := if n ≤ c.cursor.toNat then none else c.yent }
    (if bitAt v 63 ∧ c.st ≠ .empty then yieldFetch s t j none else s, stOk)

/-- YIELD_REG_WRITE (R407). -/
def execYieldRegWrite (_w : Writer) (tile : W16) (job : BitVec 2) (value : W64) (s : State) : Host.Outcome State Fault Refusal :=
  onTile tile s fun s => finish (tileReg s tile fun s => writeYield s tile job value)

/-! ## Context controls (R180, R406) -/

/-- A stopped or halted context made runnable: the exception registers clear; PAUSED while its job is PAUSED or PAUSING (R406). -/
def ctxGo (s : State) (t : W16) (j : BitVec 2) (f : Ctx → Ctx) : State :=
  let job := (getJob s j).st
  modCtx s t j fun c => { f c with
    st := if job = .paused ∨ job = .pausing then .paused else .ready
    excCause := 0, excPc := 0, excInfo := 0 }

/-- TILE.CTX_CTL RESUME (R406). -/
def ctxResume (s : State) (t : W16) (j : BitVec 2) : State × Byte :=
  if (getTile s t).faultHold ∨ (getCtx (getTile s t) j).st ≠ .stopped then (s, stJobState) else (ctxGo s t j id, stOk)

/-- TILE.CTX_CTL RESTART at a PC (R406). -/
def ctxRestart (s : State) (t : W16) (j : BitVec 2) (pc : W64) : State × Byte :=
  let c := getCtx (getTile s t) j
  if (getTile s t).faultHold ∨ (c.st ≠ .stopped ∧ c.st ≠ .halted) then (s, stJobState)
  else (ctxGo s t j fun c => { c with pc := pc &&& 0xFFFFFFFFFFFFFFF0, wait := none, switchPt := false }, stOk)

/-- CTX_RESUME (R406). -/
def execCtxResume (_w : Writer) (tile : W16) (job : BitVec 2) (s : State) : Host.Outcome State Fault Refusal :=
  onTile tile s fun s => finish (tileReg s tile fun s => ctxResume s tile job)

/-- CTX_RESTART (R406): pc gives the new PC, a multiple of 16. -/
def execCtxRestart (_w : Writer) (tile : W16) (job : BitVec 2) (pc : W64) (s : State) : Host.Outcome State Fault Refusal :=
  onTile tile s fun s => finish (tileReg s tile fun s => ctxRestart s tile job pc)

/-- A write of TILE.CTX_CTL (R406): the other commands have no effect. -/
def writeCtxCtl (s : State) (t : W16) (j : BitVec 2) (v : W64) : State × Byte :=
  match fldN v 0 3 with
  | 1 => ctxResume s t j
  | 2 => ctxRestart s t j (v &&& 0xFFFFFFFFFFFFFFF0)
  | _ => (s, stOk)

end Sys2Proof.Machine
end

