-- ==== Sys2Proof/Machine/Jobs.lean ====
section
/-!
DEFINITION. Job commands other than LOAD: RESUME, PAUSE, UNLOAD, RELOAD, DISCARD; freezing and thawing of stream state (R303, R400, R404, R405).
-/
namespace Sys2Proof.Machine
open Sys2Proof

/-! ## Stream state frozen and thawed (R303) -/

/-- Numbers of the records of a job on a die, in record order. -/
def jobRecs (d : Die) (j : BitVec 2) : List (BitVec 9) :=
  (d.recs.filter fun (e : Nat × XferRec) => decide (e.2.st ≠ .free ∧ e.2.job = j)).map fun e => BitVec.ofNat 9 e.1

/-- A record of a job that freezes: a running one stops at its next step boundary, a parked one keeps the time it has been parked. -/
def freezeRec (s : State) (d : Nat) (r : BitVec 9) : State :=
  let x := getRec (getDie s d) r
  match x.st with
  | .running => settleRec (modRec s d r fun x => { x with freezing := true }) d r
  | .parked => modRec s d r fun x => { x with parkedAt := s.mod.time - x.parkedAt }
  | _ => s

/-- Stream queue contexts and reaches of a job on a die take state FROZEN. -/
def freezeObjects (j : BitVec 2) (d : Die) : Die :=
  { d with
    stq := mmap Stq.reset d.stq fun _ x => if stqOwner x = j ∧ x.st ≠ .disabled ∧ x.st ≠ .frozen then { x with st := .frozen, thawTo := x.st } else x
    reach := mmap Reach.reset d.reach fun _ x =>
      if reachOwner x = j ∧ x.st ≠ .disabled ∧ x.st ≠ .frozen then { x with st := .frozen, thawTo := x.st } else x }

/-- A job's stream state is frozen in place (R303). -/
def freezeJob (s : State) (j : BitVec 2) : State :=
  let s := modJob s j fun x => { x with frozen := true }
  (s.dies.map Prod.fst).foldl (fun s d =>
    modDie ((jobRecs (getDie s d) j).foldl (fun s r => freezeRec s d r) s) d (freezeObjects j)) s

/-- Stream queue contexts and reaches of a job on a die have the state they had, and those with nothing left to do settle. -/
def thawObjects (j : BitVec 2) (d : Die) : Die :=
  let d' := { d with
    stq := mmap Stq.reset d.stq fun _ x => if stqOwner x = j ∧ x.st = .frozen then { x with st := x.thawTo } else x
    reach := mmap Reach.reset d.reach fun _ x => if reachOwner x = j ∧ x.st = .frozen then { x with st := x.thawTo } else x }
  let d' := (d.stq.map Prod.fst).foldl (fun d q => settleStqH1 (settleStqP d (BitVec.ofNat 12 q)) (BitVec.ofNat 12 q)) d'
  (d.reach.map Prod.fst).foldl (fun d n => settleReach d (BitVec.ofNat 10 n)) d'

/-- A record of a job that thaws: what FAULT_CTL recorded is carried out, a PREEMPTED one resumes, a parked one's limit runs on. -/
def thawRec (s : State) (d : Nat) (r : BitVec 9) : State :=
  let x := getRec (getDie s d) r
  match x.st, x.ctl with
  | .running, _ => modRec s d r fun x => { x with freezing := false }
  | .parked, some true => resumeRec s d r
  | .parked, some false => failParked s d r cXlateFail
  | .parked, none => modRec s d r fun x => { x with parkedAt := s.mod.time - x.parkedAt }
  | .preempted, some false => failParked s d r cXlateFail
  | .preempted, _ => resumeRec s d r
  | _, _ => s

/-- A job's stream state is thawed: transfers in record order, then queues and reaches (R303). -/
def thawJob (s : State) (j : BitVec 2) : State :=
  let s := modJob s j fun x => { x with frozen := false }
  (s.dies.map Prod.fst).foldl (fun s d =>
    modDie ((jobRecs (getDie s d) j).foldl (fun s r => thawRec s d r) s) d (thawObjects j)) s

/-! ## What a job owns on tiles and dies -/

/-- The weirs of a job: die and number. -/
def jobWeirs (s : State) (j : BitVec 2) : List (Nat × BitVec 12) :=
  s.dies.flatMap fun (e : Nat × Die) => e.2.weirs.filterMap fun k =>
    if weirOn k.2 && decide (weirOwner k.2 = j) then some (e.1, BitVec.ofNat 12 k.1) else none

def ownsAcnt (j : BitVec 2) (e : Nat × Acnt) : Bool := e.2.enable && decide (e.2.owner = j)
def ownsSlot (j : BitVec 2) (e : Nat × Slot) : Bool := slotEnabled e.2 && decide (slotOwner e.2 = j)
def ownsHq (j : BitVec 2) (e : Nat × Hq) : Bool := hqEnabled e.2 && decide (hqOwner e.2 = j)

/-- A slot disabled: its generation rises by one (R197). -/
def slotOff (y : Slot) : Slot := { slotWith y (setFld y.cfg 63 1 0) with heldFull := none, heldEmpty := none, drainWait := false }

/-- A tile with the counters, slots and handle queues of a job disabled. -/
def disownTile (j : BitVec 2) (x : Tile) : Tile :=
  { x with
    acnt := mmap Acnt.reset x.acnt fun k a => if ownsAcnt j (k, a) then { a with enable := false, err := none } else a
    slots := mmap Slot.reset x.slots fun k y => if ownsSlot j (k, y) then slotOff y else y
    hqs := mmap Hq.reset x.hqs fun k q => if ownsHq j (k, q) then { Hq.reset with cfg := setFld q.cfg 31 1 0 } else q }

/-- What UNLOAD saves of a tile (R404). -/
def saveTile (j : BitVec 2) (t : W16) (x : Tile) : SavedTile :=
  { tile := t, share := shareOf x j, ctx := getCtx x j, acnt := x.acnt.filter (ownsAcnt j), slots := x.slots.filter (ownsSlot j), hqs := x.hqs.filter (ownsHq j) }

/-- A tile whose context is EMPTY: it holds no state of the context (R396). -/
def emptyCtx (j : BitVec 2) (x : Tile) : Tile := putCtx x j Ctx.reset

/-! ## Shares copied to and from HBM (R404) -/

/-- The pieces of shares laid out one after the other: tile, scratchpad address, virtual address, length; a piece ends at a 64 KiB boundary of
the virtual address. -/
def sharePieces (ts : List (W16 × Nat × Nat)) (va : Nat) : List (W16 × Nat × Nat × Nat) :=
  (ts.foldl (fun (r : Nat × List (W16 × Nat × Nat × Nat)) e =>
    let (t, lo, hi) := e
    let ps := vaPieces ((hi - lo) / 65536 + 2) r.1 (hi - lo)
    (r.1 + (hi - lo), r.2 ++ ps.map fun (p : Nat × Nat) => (t, lo + (p.1 - r.1), p.1, p.2))) (va, [])).2

/-- A context's shares streamed to a job's virtual space, tile by tile. A piece without a translation, or with a word in error, is not written:
DESIGN CHOICE (log entry 18). -/
def saveShares (s : State) (j : BitVec 2) (ts : List (W16 × Nat × Nat)) (va : Nat) : State :=
  (sharePieces ts va).foldl (fun s p =>
    let (t, a, v, n) := p
    let x := getTile s t
    if spadBad x a n then putErr s (tileErr t (some j) cSpadEcc a) else (vaWrite s j v (spadRead x a n)).1) s

/-- The shares read back, as they were laid out, into tiles still in service. A piece that cannot be read leaves the scratchpad as it is: DESIGN
CHOICE (log entry 18). -/
def loadShares (s : State) (j : BitVec 2) (ts : List (W16 × Nat × Nat)) (va : Nat) : State :=
  ((sharePieces ts va).filter fun p => tileTakes s p.1).foldl (fun s p =>
    let (t, a, v, n) := p
    match vaRead s j v n with
    | (s, .ok bs) => spadWrite s t j a bs
    | (s, _) => s) s

/-! ## UNLOAD and RELOAD (R404) -/

/-- Tiles on which a job has a context. -/
def ctxTiles (s : State) (j : BitVec 2) : List W16 :=
  (s.tiles.filter fun (e : Nat × Tile) => decide ((getCtx e.2 j).st ≠ .empty)).map fun e => BitVec.ofNat 16 e.1

/-- An L6 weir of the job has an open round with a peer arrival recorded (R262). -/
def peerRound (s : State) (j : BitVec 2) : Bool :=
  (jobWeirs s j).any fun e => decide (weirLevel (getWeir (getDie s e.1) e.2) = 6) && decide ((getL6 s e.2).peersArrived ≠ 0)

/-- The bytes of the save area: 8 KiB for each present tile, 4 MiB for each present die. -/
def saveSize (s : State) : Nat := 8192 * (presentTiles s).length + 4194304 * ((List.range 12).filter (diePresent s)).length

/-- The save area lies in the non-secure part of the reserve (R399); where it does not, the status and the state with its record (R22, R482). -/
def saveRefused (s : State) (j : BitVec 2) : Option (State × Byte) :=
  let pa := (getJob s j).regs.save.toNat
  if inReserveNs pa (saveSize s) then none
  else if securePa s pa ∨ securePa s (pa + saveSize s - 1) then
    some (putErr s (memWorldErr pa (some j)), stWorld)
  else some (s, stInvalid)

/-- A step in flight whose block waits, at its tile, behind a FULL slot. -/
def stepStuck (s : State) (t : StepRec) : Bool :=
  s.net.blocks.any fun (e : Nat × Block) => decide ((e.2.xfer.map fun x => x.2.2) = some t.id)
    && s.net.blocks.any fun (w : Nat × Block) => w.2.slotWait.isSome && decide (w.2.dest = e.2.dest)

/-- The requests that a job's transfers had issued are written, but for blocks that a FULL slot holds up, and no engine runs for it: UNLOAD
may save it (R303, R404, log entry 66). -/
def unloadReady (s : State) (j : BitVec 2) : Bool :=
  s.dies.all (fun (d : Nat × Die) => d.2.recs.all fun (r : Nat × XferRec) =>
    decide (r.2.job ≠ j) || r.2.legs.all fun l => l.steps.all (stepStuck s))
  && s.tiles.all fun (e : Nat × Tile) =>
    let idle (q : List EngOp) : Bool := q.all fun o => decide (o.job ≠ j) || !o.started
    idle e.2.eng.press && idle e.2.eng.conv && idle e.2.eng.wide && (match e.2.eng.exch with | some h => decide (h.job ≠ j) | none => true)

/-- An area written whole: the bytes that nothing visible to software has written, each block with a good code (R316). -/
def clearArea (s : State) (pa n : Nat) : State :=
  let k := getStack s (paStack pa)
  let out (b : Nat) : Bool := decide (64 * b < pa % 2 ^ 36) || decide (pa % 2 ^ 36 + n ≤ 64 * b)
  { putStack s (paStack pa) { k with blocks := k.blocks.filter fun e => out e.1, writebacks := k.writebacks.filter out, injected := k.injected.filter out }
    with hbm := clrRange s.hbm pa n }

/-- Steps 3 to 5 of UNLOAD: the state of every tile saved, its objects disabled, the shares copied, the tiles EMPTY. The save area's contents are
not visible to software: the image is held in State beside HBM, and the area reads as memory that nothing has written (log entry 61). -/
def saveJob (s : State) (j : BitVec 2) : State :=
  let s := (ctxTiles s j).foldl (fun s t => if storeBad (getTile s t) j then tileFault s t 1 true else s) s
  let tiles := s.tiles.map fun (e : Nat × Tile) => (BitVec.ofNat 16 e.1, e.2)
  let st := (tiles.map fun (e : W16 × Tile) => saveTile j e.1 e.2).filter fun v => v != { saveTile j v.tile Tile.reset with share := v.share }
  let run := (ctxTiles s j).map fun t => (t, shareOf (getTile s t) j)
  let g := (getJob s j).regs
  let s := clearArea s g.save.toNat (saveSize s)
  let s := modJob s j fun x => { x with saved := st }
  let s := { s with tiles := mmap Tile.reset s.tiles fun _ x => disownTile j x }
  let s := if bitAt g.saveSpad 63 then saveShares s j run (fldN g.saveSpad 0 48) else s
  setJobSt { s with tiles := mmap Tile.reset s.tiles fun _ x => emptyCtx j x } j .saved

/-- An UNLOAD under way goes on once it may. -/
def finishUnload (s : State) (j : BitVec 2) : State :=
  if (getJob s j).st = .unloading ∧ unloadReady s j then payLate (saveJob s j) (.unload j) stOk else s

/-- UNLOAD up to its freeze, and the rest where nothing holds it up (R404). -/
def unloadJob (s : State) (j : BitVec 2) : State × Byte :=
  if (getJob s j).st ≠ .paused then (s, stJobState)
  else if peerRound s j then (s, stCfgBusy)
  else match saveRefused s j with
    | some r => r
    | none => (finishUnload (freezeJob (setJobSt s j .unloading) j) j, stOk)

/-- A push of a slot's is still held by a queue. -/
def pushHeld (s : State) (t : W16) (n : Nat) (full : Bool) : Bool :=
  let hit (p : HeldPush) : Bool := decide (p.src = .slot t (BitVec.ofNat 6 n) full)
  s.dies.any (fun (d : Nat × Die) => d.2.stq.any fun (q : Nat × Stq) => q.2.held.any hit)
  || s.tiles.any fun (e : Nat × Tile) => e.2.hqs.any fun (q : Nat × Hq) => q.2.held.any hit

/-- The objects of a saved tile put back. -/
def restoreTile (j : BitVec 2) (v : SavedTile) (x : Tile) : Tile :=
  { putCtx x j v.ctx with
    acnt := v.acnt.foldl (fun m (e : Nat × Acnt) => mset Acnt.reset m e.1 e.2) x.acnt
    slots := v.slots.foldl (fun m (e : Nat × Slot) => mset Slot.reset m e.1 e.2) x.slots
    hqs := v.hqs.foldl (fun m (e : Nat × Hq) => mset Hq.reset m e.1 e.2) x.hqs }

/-- A slot whose held push is gone holds none. -/
def checkHeld (s : State) (t : W16) (n : Nat) : State :=
  modTile s t fun x =>
    let y := getSlot x n
    putSlot x n { y with
      heldFull := if pushHeld s t n true then y.heldFull else none
      heldEmpty := if pushHeld s t n false then y.heldEmpty else none }

/-- The weirs of a job are frozen no longer: a round that a peer's arrival completed meanwhile is found complete (R262). -/
def thawWeirs (s : State) (j : BitVec 2) : State :=
  (jobWeirs s j).foldl (fun s e => if (getL6 s e.2).peersArrived = 0 then s else weirTest s e.1 e.2) s

/-- RELOAD (R404): in the reverse order; tiles that are gone since are left out. -/
def reloadJob (s : State) (j : BitVec 2) : State × Byte :=
  if (getJob s j).st ≠ .saved then (s, stJobState)
  else
    let s := setJobSt s j .loading
    let vs := (getJob s j).saved.filter fun v => tilePresent s v.tile && dieReady s (tDie v.tile) && !(getTile s v.tile).fenced
    let g := (getJob s j).regs
    let s := if bitAt g.saveSpad 63 then
        loadShares s j (((getJob s j).saved.filter fun v => decide (v.ctx.st ≠ .empty)).map fun v => (v.tile, v.share)) (fldN g.saveSpad 0 48)
      else s
    let s := vs.foldl (fun s v => modTile s v.tile (restoreTile j v)) s
    let s := vs.foldl (fun s v => v.slots.foldl (fun s (e : Nat × Slot) => checkHeld s v.tile e.1) s) s
    let s := thawWeirs (gResume (thawJob (modJob s j fun x => { x with saved := [] }) j) j) j
    (setJobSt s j .paused, stOk)

/-! ## DISCARD (R405) -/

/-- A job's trees are disabled: their blocks leave the network without record or marker. -/
def discardTrees (s : State) (j : BitVec 2) : State :=
  let ns := (s.net.trees.filter fun (e : Nat × Tree) => treeOn e.2 && decide (treeOwner e.2 = j)).map Prod.fst
  let onTree (b : Block) : Bool := decide ((b.kind = .cast ∨ b.kind = .add) ∧ b.dmod = 0) && ns.contains b.tree.toNat
  { s with net := { s.net with
    blocks := s.net.blocks.filter fun (e : Nat × Block) => !onTree e.2
    prunes := s.net.prunes.filter fun p => !ns.contains p.tree.toNat
    trees := mmap Tree.reset s.net.trees fun k x => if ns.contains k then { x with cfg := setFld x.cfg 31 1 0 } else x } }

/-- Everything of a job's contexts leaves the tiles' cores and engines. -/
def dropCtx (j : BitVec 2) (x : Tile) : Tile :=
  let keep (o : EngOp) : Bool := decide (o.job ≠ j)
  let e := x.eng
  emptyCtx j { x with eng := { e with
    press := e.press.filter keep, conv := e.conv.filter keep, wide := e.wide.filter keep
    exch := match e.exch with | some h => if h.job = j then none else some h | none => none } }

/-- DISCARD (R405). -/
def discardJob (s : State) (j : BitVec 2) : State × Byte :=
  let st := (getJob s j).st
  if st ≠ .paused ∧ st ≠ .active ∧ st ≠ .saved ∧ st ≠ .finished then (s, stJobState)
  else
    let s := modJob (orphanJob s j) j fun x => { x with frozen := false, saved := [] }
    let s := (s.dies.map Prod.fst).foldl (fun s d =>
      let x := getDie s d
      let s := (x.stq.filter fun (e : Nat × Stq) => decide (stqOwner e.2 = j ∧ e.2.st ≠ .disabled)).foldl
        (fun s (e : Nat × Stq) => abortStq s d (BitVec.ofNat 12 e.1)) s
      (x.reach.filter fun (e : Nat × Reach) => decide (reachOwner e.2 = j ∧ e.2.st ≠ .disabled)).foldl
        (fun s (e : Nat × Reach) => abortReach s d (BitVec.ofNat 10 e.1) cAborted) s) s
    let s := discardTrees (gAbort s j) j
    let s := { s with tiles := mmap Tile.reset s.tiles fun _ x => disownTile j (dropCtx j x) }
    (setJobSt s j .unloaded, stOk)

/-! ## RESUME and PAUSE (R400) -/

/-- RESUME: every PAUSED tile becomes READY; a job with every tile HALTED is then FINISHED. -/
def resumeJob (s : State) (j : BitVec 2) : State × Byte :=
  if (getJob s j).st ≠ .paused then (s, stJobState)
  else (checkFinished (mapCtx (setJobSt s j .active) j fun c => if c.st = .paused then { c with st := .ready } else c) j, stOk)

/-- PAUSE as a command. -/
def pauseCmd (s : State) (j : BitVec 2) : State × Byte :=
  if (getJob s j).st ≠ .active then (s, stJobState) else (pauseJob s j, stOk)

/-- A write of JOB.CTL.CMD (R399, R400); LOAD is what is given. -/
def writeJobCtl (load : State → State × Byte) (s : State) (j : BitVec 2) (cmd : Nat) : State × Byte :=
  match cmd with
  | 1 => load s
  | 2 => resumeJob s j
  | 3 => pauseCmd s j
  | 4 => unloadJob s j
  | 5 => reloadJob s j
  | 6 => discardJob s j
  | _ => (s, stOk)

/-- JOB_RESUME (R400). -/
def execJobResume (_w : Writer) (job : BitVec 2) (s : State) : Host.Outcome State Fault Refusal := .next (finish (resumeJob s job))
/-- JOB_PAUSE (R400). -/
def execJobPause (_w : Writer) (job : BitVec 2) (s : State) : Host.Outcome State Fault Refusal := .next (finish (pauseCmd s job))
/-- JOB_UNLOAD (R404): its status comes once the job is SAVED. -/
def execJobUnload (_w : Writer) (job : BitVec 2) (s : State) : Host.Outcome State Fault Refusal :=
  .next (match unloadJob s job with
    | (s, st) => if st = stOk ∧ (getJob s job).st = .unloading then { s with owed := s.owed ++ [.unload job] } else finish (s, st))
/-- JOB_RELOAD (R404). -/
def execJobReload (_w : Writer) (job : BitVec 2) (s : State) : Host.Outcome State Fault Refusal := .next (finish (reloadJob s job))
/-- JOB_DISCARD (R405). -/
def execJobDiscard (_w : Writer) (job : BitVec 2) (s : State) : Host.Outcome State Fault Refusal := .next (finish (discardJob s job))

end Sys2Proof.Machine
end

