-- ==== Sys2Proof/Machine/Roce.lean ====
section
/-!
DEFINITION. The Ethernet role: RoCEv2 regions, queue pairs and requests, frames and flow control (R356-R359).
-/
namespace Sys2Proof.Machine
open Sys2Proof

/-- Causes (R362). -/
def cRoceAccess : Byte := 0xA7
def cRoceQpError : Byte := 0xA8

def getQp (s : State) (q : BitVec 12) : RoceQp := mget RoceQp.reset s.net.qps q.toNat
def putQp (s : State) (q : BitVec 12) (x : RoceQp) : State := { s with net := { s.net with qps := mset RoceQp.reset s.net.qps q.toNat x } }
def getMr (s : State) (r : Nat) : RoceMr := mget RoceMr.reset s.net.mrs r
def putMr (s : State) (r : Nat) (x : RoceMr) : State := { s with net := { s.net with mrs := mset RoceMr.reset s.net.mrs r x } }

/-- Some Ethernet port is UP. -/
def ethUp (s : State) : Bool := (List.range 24).any fun p => decide ((getPort s p).st = .up) && isEth (getPort s p)

/-- Some Ethernet port is UP, or stopping under DRAIN. -/
def ethLive (s : State) : Bool := (List.range 24).any fun p => (getPort s p).live && isEth (getPort s p)

/-- The Ethernet ports that serve queue pairs: those UP, else those that stop under DRAIN (R357, R360). -/
def ethPorts (s : State) : List Nat :=
  let l := (List.range 24).filter fun p => (getPort s p).live && isEth (getPort s p)
  let up := l.filter fun p => decide ((getPort s p).st = .up)
  if up.isEmpty then l else up

/-- The port over which a queue pair sends: the queue pairs are shared by every Ethernet port, and which one carries one is open (R357). -/
def qpPort (s : State) (q : BitVec 12) : Option Nat :=
  let l := ethPorts s
  l[Config.rocePath q % l.length]?

/-- A queue pair's priority may send on its port (R356). -/
def mayTransmit (s : State) (q : BitVec 12) : Bool :=
  match qpPort s q with
  | some p => !bitAt (getPort s p).paused (Config.rocePrio q).val
  | none => false

/-- Packets of a queue pair that wait are sent, where its priority is not paused. -/
def roceFlush (s : State) (q : BitVec 12) : State :=
  if mayTransmit s q then putQp s q { getQp s q with out := (getQp s q).out ++ (getQp s q).txq, txq := [] } else s

/-- Packets of every queue pair that wait are sent where they may be. -/
def roceFlushAll (s : State) : State :=
  (s.net.qps.filter fun (e : Nat × RoceQp) => !e.2.txq.isEmpty).foldl (fun s e => roceFlush s (BitVec.ofNat 12 e.1)) s

/-- A packet sent by a queue pair. -/
def roceSend (s : State) (q : BitVec 12) (k : RocePkt) : State := roceFlush (putQp s q { getQp s q with txq := (getQp s q).txq ++ [k] }) q

/-- The path MTU of a queue pair (R357). -/
def pathMtu (q : BitVec 12) : Nat := 1024 * 2 ^ (Config.rocePmtu q).val

/-- The packets of a message of n bytes: one at least. -/
def msgPkts (q : BitVec 12) (n : Nat) : Nat := Nat.max 1 ((n + pathMtu q - 1) / pathMtu q)

/-- A message's bytes in packets, each with its place and whether it is the first and the last. -/
def splitMsg (q : BitVec 12) (bs : List Byte) : List (Nat × Bool × Bool × List Byte) :=
  let n := msgPkts q bs.length
  (List.range n).map fun i => (i, decide (i = 0), decide (i + 1 = n), (bs.drop (i * pathMtu q)).take (pathMtu q))

/-! ## Memory regions (R358) -/

def mrOn (m : RoceMr) : Bool := bitAt m.reg 63
def mrOwner (m : RoceMr) : BitVec 2 := fld m.reg 61 2

/-- A write of a region's register: 0 the region register, 1 BASE, 2 LEN. -/
def writeMr (s : State) (r : Nat) (reg : Nat) (v : W64) : State × Byte :=
  let m := getMr s r
  let v48 := v &&& 0x0000FFFFFFFFFFFF
  if mrOn m then (s, stCfgBusy)
  else match reg with
    | 0 => (putMr s r { m with reg := v &&& 0xFFFFFFFFFFFF8000 }, stOk)
    | 1 => if v48.toNat % 64 ≠ 0 then (s, stInvalid) else (putMr s r { m with base := v48 }, stOk)
    | 2 => if v48.toNat % 64 ≠ 0 then (s, stInvalid) else (putMr s r { m with len := v48 }, stOk)
    | _ => (s, stNoSub)

/-- ROCE_MR_WRITE (R358). -/
def execRoceMrWrite (_w : Writer) (region : BitVec 10) (reg : BitVec 2) (value : W64) (s : State) : Host.Outcome State Fault Refusal :=
  .next (finish (writeMr s region.toNat reg.toNat value))

/-- The region that a remote access may use: enabled, its key, its permission, the range inside it. -/
def mrAllows (s : State) (rkey : W32) (va : W64) (n : Nat) (write : Bool) : Option RoceMr :=
  let m := getMr s (fldN rkey 0 10)
  if mrOn m && decide (fld m.reg 15 22 = fld rkey 10 22) && bitAt m.reg (if write then 60 else 59)
      && decide (m.base.toNat ≤ va.toNat) && decide (va.toNat + n ≤ m.base.toNat + m.len.toNat) then some m else none

/-! ## Completions and errors (R357, R359) -/

/-- Fields of a posted request. -/
def wrLocal (w : BitVec 256) : W64 := fld w 192 64
def wrLen (w : BitVec 256) : Nat := fldN w 64 32
def wrQp (w : BitVec 256) : BitVec 12 := fld w 20 12
def wrJob (w : BitVec 256) : BitVec 2 := fld w 18 2
def wrRead (w : BitVec 256) : Bool := bitAt w 17

/-- The completion record of a request (R279, R359). -/
def wrCpl (q : BitVec 12) (w : BitVec 256) (st : Byte) (done : Nat) : BitVec 128 :=
  at' 128 96 (fld w 32 32) ||| at' 128 32 (BitVec.ofNat 32 done) ||| at' 128 24 st ||| at' 128 12 q

/-- Every outstanding request of a queue pair completes with a status; the pair is in the error state. -/
def failQp (s : State) (q : BitVec 12) (st : Byte) : State :=
  let x := getQp s q
  putQp (unpark s (.roce q)) q { x with
    error := true, wrs := [], begun := false, acked := false, parked := false, retries := 0, readOff := 0, inWrite := none
    cpls := x.cpls ++ x.wrs.map fun w => wrCpl q w st 0 }

/-- A queue pair enters the error state, with its record (R357-R359, R362). -/
def qpError (s : State) (q : BitVec 12) (port : Nat) : State :=
  if (getQp s q).error then s
  else putErr (failQp s q cRoceQpError) (portErr s port cRoceQpError 1)

/-- A remote access refused (R358). -/
def refuseAccess (s : State) (q : BitVec 12) (port : Nat) (psn : BitVec 24) : State :=
  let s := putErr (roceSend s q (.nak q psn true)) (portErr s port cRoceAccess 1)
  qpError s q port

/-- A malformed or unsupported request packet: NAK Invalid Request, and the error state (R357). -/
def refuseInvalid (s : State) (q : BitVec 12) (port : Nat) (psn : BitVec 24) : State := qpError (roceSend s q (.nak q psn false)) q port

/-- Queue pairs whose outstanding request a port carries: that under way, or parked, on it; without an Ethernet port UP, every one (R360). -/
def portQps (s : State) (p : Nat) : List (BitVec 12) :=
  (s.net.qps.filter fun (e : Nat × RoceQp) => !e.2.wrs.isEmpty && (((e.2.begun || e.2.parked) && decide (e.2.port = p)) || !ethUp s)).map fun e => BitVec.ofNat 12 e.1

/-- Ethernet ports that stop under DRAIN are OFF once they carry no request (R360). -/
def settleEth (s : State) : State :=
  ((List.range 24).filter fun p => isEth (getPort s p) && (portQps s p).isEmpty).foldl settleStop s

/-! ## Requests (R359) -/

/-- A request's local access meets a translation fault: it parks on the die of its port (R297, R359). -/
def parkWr (s : State) (q : BitVec 12) (w : BitVec 256) (f : BitVec 3) (va : Nat) (dst : Bool) : State :=
  let p := (qpPort s q).getD 0
  parkAccess (putQp s q { getQp s q with begun := false, parked := true, port := p, readOff := 0 }) (portDie p) (.roce q) fun tag =>
    vaFaultErr (portDie p) (BitVec.ofNat 16 p) 6 (wrJob w) f va dst tag (fld w 32 32)

/-- A request is under way: it takes the sequence numbers of its packets, or of its responses. -/
def wrBegun (s : State) (q : BitVec 12) (n : Nat) : State :=
  let x := getQp s q
  putQp s q { x with
    begun := true, port := (qpPort s q).getD 0, msgPsn := x.txPsn, endPsn := x.txPsn + BitVec.ofNat 24 (n - 1), txPsn := x.txPsn + BitVec.ofNat 24 n }

/-- The oldest request of a queue pair begins: a WRITE's bytes are read and sent in packets of the path MTU, a READ is asked for. A local
translation fault parks it; a read that fails completes it with the status. Requests run one at a time (log entry 35). -/
def beginWr (s : State) (q : BitVec 12) : State :=
  let x := getQp s q
  match x.wrs with
  | w :: rest =>
    if x.begun || x.error || x.parked then s
    else
      let rva := fld w 128 64
      let rkey : W32 := fld w 96 32
      if wrRead w then roceSend (wrBegun s q (msgPkts q (wrLen w))) q (.readReq q x.txPsn rva rkey (wrLen w))
      else match vaRead s (wrJob w) (wrLocal w).toNat (wrLen w) with
        | (s, .ok bs) =>
          (splitMsg q bs).foldl (fun s e => roceSend s q (.write q (x.txPsn + BitVec.ofNat 24 e.1) e.2.1 e.2.2.1 rva rkey (wrLen w) e.2.2.2))
            (wrBegun s q (msgPkts q (wrLen w)))
        | (s, .fault f va) => parkWr s q w f va false
        | (s, .fail c) =>
          let y := getQp s q
          putQp s q { y with wrs := rest, retries := 0, cpls := y.cpls ++ [wrCpl q w c 0] }
  | [] => s

/-- The oldest request of a queue pair completes with a status, and the next begins. -/
def wrDone (s : State) (q : BitVec 12) (st : Byte) (done : Nat) : State :=
  let x := getQp s q
  match x.wrs with
  | w :: rest =>
    beginWr (putQp (unpark s (.roce q)) q { x with
      wrs := rest, begun := false, acked := false, parked := false, retries := 0, readOff := 0, cpls := x.cpls ++ [wrCpl q w st done] }) q
  | [] => s

/-- STREAM.FAULT_CTL on a parked request: translated afresh, or completed with XLATE_FAIL (R298, R359). -/
def resolveWr (s : State) (q : BitVec 12) (resume : Bool) : State :=
  if resume then beginWr (putQp (unpark s (.roce q)) q { getQp s q with parked := false }) q else settleEth (wrDone s q cXlateFail 0)

/-- ROCE_WR_POST (R359): a queue pair in the error state completes it with ROCE_QP_ERROR; with no Ethernet port UP no new work is taken. -/
def execRoceWrPost (_w : Writer) (wr : BitVec 256) (s : State) : Host.Outcome State Fault Refusal :=
  .next (
    let q := wrQp wr
    let x := getQp s q
    if fldN wr 0 17 ≠ 0 ∨ fldN wr 240 16 ≠ 0 ∨ (wrLocal wr).toNat % 64 ≠ 0 ∨ wrLen wr = 0 ∨ 2 ^ 31 < wrLen wr then setStatus s stInvalid
    else if x.error then setStatus (putQp s q { x with cpls := x.cpls ++ [wrCpl q wr cRoceQpError 0] }) stOk
    else if !ethUp s then setStatus s stBusy
    else setStatus (beginWr (putQp s q { x with wrs := x.wrs ++ [wr] }) q) stOk)

/-- ROCE_REQUEST_COMPLETE (R359): the oldest request, once acknowledged, completes and the next begins. -/
def execRoceRequestComplete (qp : BitVec 12) (s : State) : Host.Outcome State Fault Refusal :=
  .next (
    let x := getQp s qp
    settleEth (match x.wrs with
    | w :: _ => if x.acked then wrDone s qp stOk (wrLen w) else beginWr s qp
    | [] => s))

/-- ROCE_RETRY_TIMEOUT (R357): a request not acknowledged is sent again, at most 7 times. -/
def execRoceRetryTimeout (qp : BitVec 12) (s : State) : Host.Outcome State Fault Refusal :=
  .next (
    let x := getQp s qp
    if x.begun && !x.acked then
      if x.retries < 7 then beginWr (putQp s qp { x with begun := false, retries := x.retries + 1, readOff := 0, txPsn := x.msgPsn }) qp
      else settleEth (qpError s qp 0)
    else s)

/-- A READ response in sequence: of the path MTU unless it is the last, which ends the message. -/
def takeReadResp (s : State) (q : BitVec 12) (psn : BitVec 24) (first last : Bool) (bs : List Byte) : State :=
  let x := getQp s q
  match x.wrs with
  | w :: _ =>
    let n := x.readOff + bs.length
    let fits := decide (psn = x.msgPsn + BitVec.ofNat 24 (x.readOff / pathMtu q)) && (first == decide (x.readOff = 0))
      && (if last then decide (n = wrLen w) else decide (bs.length = pathMtu q ∧ n < wrLen w))
    if x.begun && !x.acked && wrRead w && fits then
      match vaWrite s (wrJob w) ((wrLocal w).toNat + x.readOff) bs with
      | (s, .ok _) => putQp s q { getQp s q with readOff := n, acked := last }
      | (s, .fault f va) => parkWr s q w f va true
      | (s, .fail c) => wrDone s q c x.readOff
    else s
  | [] => s

/-! ## Packets (R356-R358) -/

/-- The queue pair of a packet. -/
def pktQp : RocePkt → BitVec 12
  | .write q .. => q
  | .readReq q .. => q
  | .readResp q .. => q
  | .ack q _ => q
  | .nak q .. => q
  | .unsupported q => q
  | .cnp q => q

/-- The floor, rise and period of the recovery after a CNP (R356, R544), and the full rate of the module's Ethernet ports in Mbit/s. -/
def lineRate (s : State) : Nat :=
  if (List.range 24).any fun p => decide ((getPort s p).st = .up) && decide ((getPort s p).role = 2) then 1600000 else 800000

/-- A CNP halves the send rate, down to the floor; a rate of 0 stands for the full rate (R356). -/
def takeCnp (s : State) (q : BitVec 12) : State :=
  let x := getQp s q
  let cur := if x.rate = 0 then lineRate s else x.rate
  putQp s q { x with rate := Nat.max (cur / 2) s.mod.roceFloor.toNat, cnpAt := some s.mod.time }

/-- A CE-marked packet returns a CNP, at most one per queue pair in 50 µs (R356). -/
def answerCe (s : State) (q : BitVec 12) : State :=
  let x := getQp s q
  let due := match x.cnpSent with | some t => decide (t.toNat + 50000 ≤ now s) | none => true
  if due then roceSend (putQp s q { x with cnpSent := some s.mod.time }) q (.cnp q) else s

/-- The counter of a region whose WRITE message has ended (R358); a tile that takes no traffic drops it with a record. -/
def countMr (s : State) (port : Nat) (m : RoceMr) : State :=
  let t : W16 := fld m.reg 37 16
  if t = 0xFFFF then s
  else if tileTakes s t then arriveCount s t (fldN m.reg 53 6) (mrOwner m)
  else putErr s { portErr s port cDestFenced 1 with job := some (mrOwner m) }

/-- An incoming WRITE packet in sequence (R357, R358): the first of a message names its address, key and length, which must lie in the
region; each brings a path MTU of bytes, and the last the rest. -/
def takeWrite (s : State) (port : Nat) (q : BitVec 12) (psn : BitVec 24) (first last : Bool) (va : W64) (rkey : W32) (len : Nat) (bs : List Byte) :
    State :=
  let cur := (getQp s q).inWrite
  if first && (cur.isSome || decide (2 ^ 31 < len)) then refuseInvalid s q port psn
  else if first && (mrAllows s rkey va len true).isNone then refuseAccess s q port psn
  else match if first then some (va, rkey, len) else cur with
    | none => refuseInvalid s q port psn
    | some (va, rkey, left) =>
      if !(if last then decide (bs.length = left ∧ left ≤ pathMtu q) else decide (bs.length = pathMtu q ∧ bs.length < left)) then
        refuseInvalid s q port psn
      else match mrAllows s rkey va bs.length true with
        | none => refuseAccess s q port psn
        | some m =>
          match vaWrite s (mrOwner m) va.toNat bs with
          | (s, .ok _) =>
            let s := putQp s q { getQp s q with
              inWrite := if last then none else some (va + BitVec.ofNat 64 bs.length, rkey, left - bs.length) }
            roceSend (if last then countMr s port m else s) q (.ack q psn)
          | (s, _) => refuseAccess s q port psn

/-- A packet ends a READ response. -/
def endsRead : RocePkt → Bool
  | .readResp _ _ _ last _ => last
  | _ => false

/-- An incoming READ request in sequence (R357, R358): at most 2 GiB, and at most 16 whose responses are still to be sent; the responses take
the sequence numbers from the request's on. -/
def takeRead (s : State) (port : Nat) (q : BitVec 12) (psn : BitVec 24) (va : W64) (rkey : W32) (n : Nat) : State :=
  if decide (2 ^ 31 < n) || decide (16 ≤ ((getQp s q).txq.filter endsRead).length) then refuseInvalid s q port psn
  else match mrAllows s rkey va n false with
    | none => refuseAccess s q port psn
    | some m =>
      match vaRead s (mrOwner m) va.toNat n with
      | (s, .ok bs) =>
        let s := putQp s q { getQp s q with rxPsn := psn + BitVec.ofNat 24 (msgPkts q n) }
        (splitMsg q bs).foldl (fun s e => roceSend s q (.readResp q (psn + BitVec.ofNat 24 e.1) e.2.1 e.2.2.1 e.2.2.2)) s
      | (s, _) => refuseAccess s q port psn

/-- A request packet is taken in sequence only; a packet out of sequence has no effect here (R357). -/
def inSeq (s : State) (q : BitVec 12) (psn : BitVec 24) (f : State → State) : State :=
  let x := getQp s q
  if psn = x.rxPsn then f (putQp s q { x with rxPsn := x.rxPsn + 1 }) else s

/-- A packet that belongs to a request of this module: a stopping port takes no other (R360). -/
def answersUs : RocePkt → Bool
  | .write .. => false
  | .readReq .. => false
  | .unsupported _ => false
  | _ => true

/-- ROCE_PACKET_RECEIVE (R356-R358). -/
def execRocePacketReceive (port : Fin 24) (ce : Bool) (p : RocePkt) (s : State) : Host.Outcome State Fault Refusal :=
  .next (
    let x := getPort s port
    let q := pktQp p
    if x.live && isEth x && (getQp s q).enabled && !(getQp s q).error && (decide (x.st = .up) || answersUs p) then
      let s := if ce then answerCe s q else s
      settleEth (match p with
      | .write q psn first last va rkey n bs => inSeq s q psn fun s => takeWrite s port q psn first last va rkey n bs
      | .readReq q psn va rkey n => inSeq s q psn fun s => takeRead s port q psn va rkey n
      | .readResp q psn first last bs => takeReadResp s q psn first last bs
      | .ack q psn =>
        let y := getQp s q
        (match y.wrs with
         | w :: _ => if y.begun && !wrRead w && !precedes psn y.endPsn then putQp s q { y with acked := true } else s
         | [] => s)
      | .nak q _ _ => qpError s q port
      | .unsupported q => refuseInvalid s q port (getQp s q).rxPsn
      | .cnp q => takeCnp s q)
    else s)

/-- CNP_RECEIVE (R356). -/
def execCnpReceive (qp : BitVec 12) (s : State) : Host.Outcome State Fault Refusal := .next (if ethLive s then takeCnp s qp else s)

/-- ROCE_RATE_RECOVERY (R356): after each period a throttled queue pair's rate rises, up to the full rate. -/
def execRoceRateRecovery (qp : BitVec 12) (s : State) : Host.Outcome State Fault Refusal :=
  .next (
    let x := getQp s qp
    match x.cnpAt with
    | some t =>
      if x.rate ≠ 0 ∧ t.toNat + 1000 * s.mod.rocePeriod.toNat ≤ now s then
        let r := x.rate + s.mod.roceRise.toNat
        putQp s qp { x with rate := if lineRate s ≤ r then 0 else r, cnpAt := if lineRate s ≤ r then none else some s.mod.time }
      else s
    | none => s)

/-- Two bytes of a frame, the first the higher. -/
def frameWord (bs : List Byte) (i : Nat) : Nat := 256 * (nth 0 bs i).toNat + (nth 0 bs (i + 1)).toNat

/-- A frame has at most one IEEE 802.1Q tag (R356): after its addresses and a tag no other tag follows. -/
def tagsOk (bs : List Byte) : Bool :=
  let isTag (w : Nat) : Bool := decide (w = 0x8100 ∨ w = 0x88A8)
  !(isTag (frameWord bs 12) && isTag (frameWord bs 16))

/-- ETH_FRAME_RECEIVE (R356, R359): a frame with a bad FCS, of another size, with a second tag, or beyond the rate is dropped and counted. -/
def execEthFrameReceive (port : Fin 24) (fcsOk : Bool) (overRate : Bool) (bytes : List Byte) (s : State) : Host.Outcome State Fault Refusal :=
  .next (
    let x := getPort s port
    if decide (x.st = .up) && isEth x then
      if fcsOk && !overRate && tagsOk bytes && decide (64 ≤ bytes.length) && decide (bytes.length ≤ 9216) then
        { s with net := { s.net with ethRx := s.net.ethRx ++ [bytes] } }
      else putPort s port { x with cnt := { x.cnt with framesDropped := x.cnt.framesDropped + 1 } }
    else s)

/-- PRIORITY_FLOW_CONTROL (R356): sending pauses or resumes on the priorities named. -/
def execPriorityFlowControl (port : Fin 24) (pause : Byte) (resume : Byte) (s : State) : Host.Outcome State Fault Refusal :=
  .next (
    let x := getPort s port
    if decide (x.st = .up) && isEth x then roceFlushAll (putPort s port { x with paused := (x.paused ||| pause) &&& ~~~resume }) else s)

/-- A port drops its RoCEv2 requests: they complete with ABORTED, and their queue pairs are in the error state (R360). -/
def abortRoce (s : State) (p : Nat) : State := (portQps s p).foldl (fun s q => failQp s q cAborted) s

end Sys2Proof.Machine
end

