-- ==== Sys2Proof/Machine/PortCmd.lean ====
section
/-!
DEFINITION. Ports that stop, fail or finish training, with everything that depends on them (R343-R346, R348, R360).
-/
namespace Sys2Proof.Machine
open Sys2Proof

/-- What a port holds is dropped (R360): its packets by lane, the gatherings over it, and the RoCEv2 requests when no Ethernet port is left. -/
def portDrops (s : State) (p : Nat) : State :=
  let ks := heldPkts (getPort s p)
  let eth := isEth (getPort s p)
  let s := gPortLost (dropPopped (dropPkts s p ks) p) p (portKeys s p)
  if eth then abortRoce s p else s

/-- STOP_ABORT (R360): every packet not acknowledged is dropped, and the port, which then holds no work, is OFF. -/
def stopAbort (s : State) (p : Nat) : State :=
  if (getPort s p).st = .off then s
  else
    let s := setPort s p fun x => { x with st := .stopping, live := false, stopSince := s.mod.time, notUpSince := if x.st = .up then s.mod.time else x.notUpSince }
    settleStop (portDrops s p) p

/-- STOP_DRAIN (R333, R360): a DOWN port goes OFF; another stops, sends what it holds, and is OFF once it holds no work. -/
def stopDrain (s : State) (p : Nat) : State :=
  match (getPort s p).st with
  | .off => s
  | .stopping => s
  | .down => stopAbort s p
  | _ =>
    let s := setPort s p fun x => { x with st := .stopping, stopSince := s.mod.time, notUpSince := if x.st = .up then s.mod.time else x.notUpSince }
    if isEth (getPort s p) then settleEth s else settleStop s p

/-- STOP_DRAIN (R360). -/
def execStopDrain (_w : Writer) (port : Fin 24) (s : State) : Host.Outcome State Fault Refusal := .next (finish (portReg s port fun s => (stopDrain s port, stOk)))

/-- STOP_ABORT (R360). -/
def execStopAbort (_w : Writer) (port : Fin 24) (s : State) : Host.Outcome State Fault Refusal := .next (finish (portReg s port fun s => (stopAbort s port, stOk)))

/-- DRAIN_LIMIT_EXPIRE (R306, R360): the stream objects of the die, then its ports that stop. -/
def execDrainLimitExpire (die : Fin 12) (s : State) : Host.Outcome State Fault Refusal :=
  .next ((List.range 24).foldl (fun s p =>
    let x := getPort s p
    if decide (portDie p = die.val) && decide (x.st = .stopping) && drainPast s die x.stopSince then stopAbort s p else s) (drainLimit s die))

/-! ## The end of a training attempt (R343-R346, R348) -/

/-- The width that a usable mask gives (R343, R356). -/
def trainWidth (p : Port) (usable : Byte) : Nat :=
  match p.role.toNat with
  | 1 => ([8, 4, 2, 1].find? fun w => decide (w ≤ popCount usable)).getD 0
  | 2 => if usable = 0xFF then 8 else 0
  | 3 => if usable &&& 0x0F = 0x0F then 4 else 0
  | _ => 0

/-- The least width a port takes: MIN_WIDTH for a Tizal port. -/
def minWidth (p : Port) : Nat := if isTizal p then 2 ^ fldN p.cfg 28 2 else 1

/-- A failed attempt: the third leads to DOWN, with its record and everything a lost port drops (R343, R346). -/
def trainFail (s : State) (p : Nat) : State :=
  let x := getPort s p
  if x.attempts + 1 < 3 then putPort s p { x with attempts := x.attempts + 1 }
  else
    let s := setPort s p fun x => { x with st := .down, live := false, width := 0, attempts := 0 }
    portDrops (putErr s (portErr s p cTzDown 2)) p

/-- The epoch both ends adopt: one plus the later of two proposals (R344). -/
def nextEpoch (a b : Byte) : Byte := (if precedes a b then b else a) + 1

/-- Either end reported a link reset: what was under way is lost, and numbering starts afresh (R346). -/
def resetLink (s : State) (p : Nat) : State :=
  let x := getPort s p
  let ks := sentPkts x
  let s := putPort s p { x with replay := [], sending := [], rxPart := [], rxUsed := [], credits := [], txSeq := 0, rxExp := 0, rxSinceAck := 0, noAdv := 0 }
  gPortLost (ks.foldl (fun s k => dropPkt s p k) s) p (pktKeys ks)

/-- The usable mask of a training result: the AND of the two good masks (R343). -/
def usableMask (r : TrainResult) : Byte := r.good &&& r.theirs

/-- A Tizal port that trained returns to UP (R343-R346, R348): what the other end has not received is sent again, the retrain is recorded by
its width, and the partner is told of this module (log entry 67). -/
def trainTizal (s : State) (p : Nat) (r : TrainResult) (w : Nat) : State :=
  let x := getPort s p
  let re := decide (x.st = .retrain)
  let reset := r.linkReset || x.linkReset
  let s := setPort s p fun x => { x with
    st := .up, live := true, width := BitVec.ofNat 4 w, usable := usableMask r, epoch := nextEpoch x.epoch r.epoch, attempts := 0, linkReset := false
    partner := at' 32 31 (1 : BitVec 1) ||| at' 32 8 r.slotId ||| at' 32 0 r.pport, noAdv := 0, owesNak := false, ackAt := s.mod.time }
  let s := if reset then resetLink s p else resend (takeAck s p r.lastSeq) p
  let s := if re ∧ w < x.width.toNat then putErr s (portErr s p cTzDegraded 1)
    else if re ∧ w = x.width.toNat then putErr s (portErr s p cTzRetrain 0)
    else s
  let s := pushPkt (pump s p) p (.ctrl (.discovery s.mod.slotId))
  ((validPeers s).filter fun k => (peerPorts s k).contains p).foldl (fun s k => peerBack (tellMismatch s k p) k) s

/-- PORT_TRAINING_DONE (R343): a training attempt ends. -/
def execPortTrainingDone (port : Fin 24) (r : TrainResult) (s : State) : Host.Outcome State Fault Refusal :=
  .next (
    let x := getPort s port
    if x.st = .training ∨ x.st = .retrain then
      let w := trainWidth x (usableMask r)
      if w = 0 ∨ w < minWidth x then trainFail s port
      else if isTizal x then trainTizal s port r w
      else roceFlushAll (setPort s port fun x => { x with st := .up, live := true, width := BitVec.ofNat 4 w, usable := usableMask r, attempts := 0 })
    else s)

end Sys2Proof.Machine
end

