-- ==== Sys2Proof/Machine/Dies.lean ====
section
/-!
DEFINITION. Dies lost and rejoined, die-to-die edges, UCIe modules, clock steps and the time base (chapter 15).
-/
namespace Sys2Proof.Machine
open Sys2Proof

/-- Causes of chapter 15 (R450). -/
def cDieRejoinFail : Byte := 0xD1
def cDieIdent : Byte := 0xD2
def cD2dLane : Byte := 0xD3
def cD2dEdgeDown : Byte := 0xD4
def cRefLost : Byte := 0xD5
def cBistFence : Byte := 0xD6
def cStartupFail : Byte := 0xD7

/-- The two dies an edge joins (R423). -/
def edgeEnds (e : Nat) : Nat × Nat := if e < 5 then (e, e + 1) else if e < 10 then (e + 1, e + 2) else (e - 10, e - 4)

/-- The edges of a die. -/
def dieEdges (d : Nat) : List Nat := (List.range 16).filter fun e => decide ((edgeEnds e).1 = d) || decide ((edgeEnds e).2 = d)

/-- The die at the other end of an edge. -/
def edgeOther (e d : Nat) : Nat := if (edgeEnds e).1 = d then (edgeEnds e).2 else (edgeEnds e).1

/-- The UCIe module that enters a die (R20). -/
def dieUcie (d : Nat) : Option Nat := [2, 3, 8, 9].findIdx? (· = d)

/-- A record of a die or of an edge (R458, R459). -/
def dieErr (s : State) (cause : Byte) (sev : BitVec 2) (d : Nat) : Err :=
  { cause, sev, unit := 11, source := BitVec.ofNat 16 d, die := BitVec.ofNat 4 d, detail := (getDie s d).cause.setWidth 8 }

/-- A record of an edge: detected by its die of lower number. -/
def edgeErr (s : State) (cause : Byte) (sev : BitVec 2) (e : Nat) : Err :=
  let d := (edgeEnds e).1
  { cause, sev, unit := 5, source := BitVec.ofNat 16 e, die := BitVec.ofNat 4 d, detail := (getDie s d).cause.setWidth 8 }

/-! ## Losing a die (R228, R232, R263, R304, R326, R423, R440) -/

/-- An edge closes with the loss of a die it joins: its link ends are reset with the die's fabric (R437). -/
def shutEdge (s : State) (e : Nat) : State := putEdge s e Edge.reset

/-- An OPEN edge fails between READY dies (R426): the blocks at its link ends are dropped as LINK_DROP, and D2D_EDGE_DOWN is written. -/
def edgeDown (s : State) (e : Nat) : State :=
  let bs := s.net.blocks.filter fun (b : Nat × Block) => (linkPort b.2).isSome && decide (cameOver b.2 = some e)
  let s := bs.foldl (fun s (b : Nat × Block) => dropLink s b.1 b.2 (receivers s b.2)) (putEdge s e { getEdge s e with st := 0 })
  putErr s (edgeErr s cD2dEdgeDown 2 e)

/-- The blocks that a lost die takes with it, and those toward its stack; a transfer of another die that one belongs to fails (R304). -/
def loseBlocks (s : State) (d : Nat) : State :=
  let toStack (b : Block) : Bool := match b.kind with | .toMem n => decide (n.val = d) | _ => false
  (s.net.blocks.filter fun (e : Nat × Block) => decide (e.2.pos.die = d) || toStack e.2).foldl
    (fun s (e : Nat × Block) => loseBlk s e.1 e.2 (if toStack e.2 then cStackGone else cDestFenced)) s

/-- ADD trees with a contributor or their END tile on a die: rounds abandoned, later ones refused (R231, R232). -/
def loseTrees (s : State) (d : Nat) : State := breakTrees s (fun u => decide (tDie u = d)) 0xFFFF

/-- The stack of a lost die: OFFLINE, contents lost, its requests failed (R304, R326). The registers of its controllers take their reset
values; the repair record and the retired frames stand (R323, R324). -/
def loseStack (s : State) (d : Nat) : State :=
  let s := setStackSt (failReqs s d) d fun k =>
    { Stack.reset with st := .offline, repairs := k.repairs, retiredFrames := k.retiredFrames, badRows := k.badRows, ceRows := k.ceRows, hot := k.hot }
  { s with hbm := clrRange s.hbm (d * 2 ^ 36) (2 ^ 36) }

/-- The port of a bridge at its reset values, with its ROLE from the flash (R331). -/
def flashPort (s : State) (p : Nat) : Port := { Port.reset with cfg := setFld Port.reset.cfg 30 2 (mget 0 s.flash.roles p).toNat }

/-- The ports of a corner die's bridge lose their state and return to OFF; their traffic is dropped; the next link reports a reset
(R346, R360, R423). -/
def losePorts (s : State) (d : Nat) : State :=
  let s := { s with net := { s.net with padds := s.net.padds.filter fun r => decide (portDie r.bridge ≠ d) } }
  ((List.range 24).filter fun p => decide (portDie p = d)).foldl (fun s p =>
    let s := portDrops (setPort s p fun x => { x with st := .down, live := false }) p
    let s := { s with net := { s.net with heldG := s.net.heldG.filter fun h => decide (h.port.map Fin.val ≠ some p) } }
    setPort s p fun _ => { flashPort s p with linkReset := true, notUpSince := s.mod.time }) s

/-- The watch accumulators of a die at its loss (R99): the open step of every enabled entry, and the step after it where reports of it are lost
with the die, take nothing from the die. -/
def lostAccs (s : State) (d : Nat) : SMap WAcc :=
  s.watches.foldl (fun m (e : Nat × Watch) =>
    if watchOn e.2 then
      let m := mset WAcc.reset m (2 * e.1) { WAcc.reset with lost := true }
      if (mget WAcc.reset (getDie s d).wacc (2 * e.1 + 1)).reported then mset WAcc.reset m (2 * e.1 + 1) { WAcc.reset with lost := true } else m
    else m) []

/-- What a die's reset leaves of its fabric, watch unit and stream engines (R437). -/
def loseObjects (s : State) (d : Nat) : State :=
  let accs := lostAccs s d
  let ids := (getDie s d).recs.flatMap fun (e : Nat × XferRec) => e.2.legs.flatMap fun l => l.steps.map (·.id)
  let s := modDie s d fun x => { wipeDie x with wacc := accs }
  let s := { s with
    tiles := wipeTiles s.tiles d
    mod := { s.mod with invalWait := s.mod.invalWait.filter fun i => !ids.contains i }
    net := { s.net with
      routes := s.net.routes.filter fun (r : Nat × W16) => decide (routerDie (r.1 / 1024) ≠ d)
      reports := s.net.reports.filter fun r => decide (r.die.val ≠ d)
      arrivals := s.net.arrivals.filter fun a => decide (a.die.val ≠ d) && decide (tDie a.tile ≠ d) } }
  jobs4.foldl settleViews (settleInval s)

/-- A failed rejoin (R445): DIE_REJOIN_FAIL; HELD again, or FAILED at ATTEMPTS. One that a RESET ends does not count. -/
def rejoinFail (s : State) (d : Nat) (counts : Bool) : State :=
  let x := getDie s d
  let n := x.fails.toNat + if counts then 1 else 0
  let s := setDieSt s d fun x => { x with
    st := if counts ∧ fldN x.cfg 28 3 ≤ n then .failed else .held, fails := BitVec.ofNat 3 n, heldAt := s.mod.time, joinDue := false, join := none }
  putErr s (dieErr s cDieRejoinFail 1 d)

/-- A die is lost (R440): everything that follows, its state HELD, the cause, one DIE_LOST record; the rejoin of a JOINING die fails (R445).
Without a READY or JOINING die nothing happens. -/
def loseDie (s : State) (d : Nat) (cause : BitVec 5) : State :=
  let joining := decide ((getDie s d).st = .joining)
  if (getDie s d).st = .ready ∨ joining then
    let s := (dieEdges d).foldl shutEdge s
    let s := loseTrees (loseMembers s (fun u => decide (tDie u = d)) (fun e => decide (e = d))) d
    let s := losePorts (gHomeLost s d cDieLost) d
    let s := loseStack (loseBlocks s d) d
    let s := resetHalf (resetHalf (loseObjects s d) d false) d true
    let s := match dieUcie d with
      | some u => { s with mod := { s.mod with ucie := setFld s.mod.ucie u 1 0 } }
      | none => s
    let s := setDieSt s d fun x => { x with st := .held, cause, heldAt := s.mod.time, joinDue := false }
    let s := putErr (settleJobs s) (dieErr s cDieLost 1 d)
    if joining then rejoinFail s d (decide (cause ≠ 5)) else s
  else s

/-- DIE_CLOCK_LOSS (R435, R439): cause 1. -/
def execDieClockLoss (die : Fin 12) (s : State) : Host.Outcome State Fault Refusal := .next (loseDie s die 1)

/-- HEARTBEAT_TIMEOUT (R435, R439): a crossing toward the die is silent: cause 1. -/
def execHeartbeatTimeout (die : Fin 12) (s : State) : Host.Outcome State Fault Refusal := .next (loseDie s die 1)

/-- DIE_CONTROL_WATCHDOG (R439): cause 2. -/
def execDieControlWatchdog (die : Fin 12) (s : State) : Host.Outcome State Fault Refusal := .next (loseDie s die 2)

/-- DIE.CTL RESET (R442). -/
def dieReset (s : State) (d : Nat) : State × Byte :=
  if (getDie s d).st = .ready ∨ (getDie s d).st = .joining then (loseDie s d 5, stOk) else (s, stCfgBusy)

/-- DIE_RESET_CMD (R442): cause 5. -/
def execDieResetCmd (w : Writer) (die : Fin 12) (s : State) : Host.Outcome State Fault Refusal :=
  .next (finish (secureWrite w (winAddr 0x2001 0 0) s fun s => dieReset s die))

/-! ## Rejoin (R444, R445) -/

/-- A die's number as its straps give it (R427). -/
def strapNum (v : BitVec 4) : Nat := 6 * fldN v 3 1 + 2 * fldN v 1 2 + fldN v 0 1

/-- A rejoin of the die may begin (R445, R551, R562): no thermal hold, its rails back in regulation for 1 ms, and one of dies 2, 3, 8 and 9
READY unless it is one of them. -/
def rejoinMay (s : State) (d : Nat) : Bool :=
  !(getDie s d).tripped && ((dieUcie d).isSome || [2, 3, 8, 9].any (dieReady s)) && [d, 12 + d].all fun r =>
    let x := getRail s r
    decide (x.st = 2) && (match x.backAt with | some t => decide (t.toNat + 1000000 ≤ now s) | none => true)

/-- The neighbours of a die that are READY, by edge. -/
def readyEdges (s : State) (d : Nat) : List Nat := (dieEdges d).filter fun e => dieReady s (edgeOther e d)

/-- Wire pairs of a link that fail its training. -/
def failedPairs (pairs : List (Fin 24)) (l : Nat) : Nat := (pairs.filter fun x => decide (x.val = l)).length

/-- A training of an edge succeeds: every failed pair finds one of its link's 2 spares (R424). -/
def edgeTrains (ok : Bool) (pairs : List (Fin 24)) : Bool := ok && (List.range 24).all fun l => decide (failedPairs pairs l ≤ 2)

/-- The failed pairs of one edge. -/
def pairsOf (ps : List (Fin 16 × Fin 24)) (e : Nat) : List (Fin 24) := (ps.filter fun p => decide (p.1.val = e)).map (·.2)

/-- The edges that a joining die trains and opens (R444). -/
def joinEdges (s : State) (d : Nat) (f : DieFound) : List Nat :=
  (readyEdges s d).filter fun e => edgeTrains (bitAt f.edgesOk e) (pairsOf f.pairs e)

/-- The most that the steps of R444 may take, in ns. -/
def rejoinMax : Nat := 250200000

/-- The steps of R444 all succeed in their time: straps, PLL, self-test, and a UCIe module of its own or an open edge to a READY die (R445). -/
def rejoinOk (s : State) (d : Nat) (f : DieFound) : Bool :=
  f.answers && decide (strapNum f.straps = d) && f.pll && f.bist && decide (f.took ≤ rejoinMax)
  && (((dieUcie d).isSome && f.ucieOk) || (f.placed && !(joinEdges s d f).isEmpty))

/-- A tile that failed self-test (R444): fenced, BIST_FENCE, and a new map generation. A tile fenced before stays so without a record. -/
def bistFence (s : State) (d i : Nat) : State :=
  let t := tileId d (decide (i / 1024 = 1)) (i % 1024)
  if tilePresent s t && !(getTile s t).fenced then
    fenceInMap (putErr (modTile s t fun x => { x with fenced := true }) (fenceErr t cBistFence 0 false)) t
  else s

/-- A tile at READY of its die (R68, R129, R204, R444): reset, FORCE_COMP cleared; after a rejoin its wide buffer is marked LOST; one fenced
since start-up stays fenced. -/
def freshTile (rejoined : Bool) (x : Tile) : Tile :=
  { Tile.reset with fenced := x.fenced, regs := { TileRegs.reset with pressCtrl := 2, wideStatus := if rejoined then 8 else 0 } }

/-- Every present tile of a die made so. -/
def freshTiles (s : State) (d : Nat) (rejoined : Bool) : SMap Tile :=
  (s.tiles.filter fun (e : Nat × Tile) => decide (e.1 / 2048 < d))
  ++ (((presentTiles s).filter fun t => decide (tDie t = d)).map fun t => (t.toNat, freshTile rejoined (getTile s t)))
  ++ (s.tiles.filter fun (e : Nat × Tile) => decide (d < e.1 / 2048))

/-- The secure part of the reserve copied from the lowest present slice (R484). -/
def copyReserve (s : State) (d : Nat) : State :=
  if reserveStack d then
    match (secureCopies s).filter (· ≠ d) with
    | src :: _ =>
      let lo := src * 2 ^ 36 + 0xFC0000000
      let cs := s.hbm.filter fun (c : Nat × Byte) => decide (lo ≤ c.1) && decide (c.1 < (src + 1) * 2 ^ 36)
      { s with hbm := cs.foldl (fun m (c : Nat × Byte) => mset 0 m (c.1 - src * 2 ^ 36 + d * 2 ^ 36) c.2) s.hbm }
    | [] => s
  else s

/-- A stack trained and zeroed, with the repair record applied (R323, R325); one that does not train stays OFFLINE (R448). -/
def trainStack (s : State) (d : Nat) (f : DieFound) : State :=
  let s := setStackSt s d fun k => { k with st := .training }
  if f.stackOk then
    let s := repairRows { s with hbm := clrRange s.hbm (d * 2 ^ 36) (2 ^ 36) } d
    copyReserve (setStackSt s d fun k => { k with st := .ready, spares := f.spares, blocks := [], injected := [], failing := [], laneErrs := [] }) d
  else
    putErr (setStackSt s d fun k => { k with st := .offline, spares := [] })
      { cause := cHbmRecalFail, unit := 4, source := BitVec.ofNat 16 d, die := BitVec.ofNat 4 d }

/-- An edge trained (R424, R425): OPEN, each failed pair remapped with its D2D_LANE record; or CLOSED with its record (R448). -/
def trainEdge (s : State) (e : Nat) (ok : Bool) (pairs : List (Fin 24)) : State :=
  if edgeTrains ok pairs then
    let s := putEdge s e { getEdge s e with
      st := 2, retrained := 0, used := (List.range 24).foldl (fun (m : SMap Nat) l => mset 0 m l (failedPairs pairs l)) [] }
    pairs.foldl (fun s _ => putErr s (edgeErr s cD2dLane 0 e)) s
  else putErr (putEdge s e { getEdge s e with st := 0 }) (edgeErr s cD2dEdgeDown 2 e)

/-- The ports of a corner die started (R423, R444). -/
def startPorts (s : State) (d : Nat) : State := ((List.range 24).filter fun p => decide (portDie p = d)).foldl startPort s

/-- A rejoin begins (R444): the die is JOINING. -/
def beginJoin (s : State) (d : Nat) (f : DieFound) : State :=
  setDieSt s d fun x => { x with st := .joining, joinDue := false, join := some (f, s.mod.time) }

/-- The steps of a rejoin (R444): the die is READY with its last, or its rejoin fails (R445). -/
def joinDie (s : State) (d : Nat) (f : DieFound) : State :=
  if rejoinOk s d f then
    let s := f.badTiles.foldl (fun s i => bistFence s d i) s
    let s := { s with tiles := freshTiles s d true }
    let s := (readyEdges s d).foldl (fun s e => trainEdge s e (bitAt f.edgesOk e) (pairsOf f.pairs e)) (trainStack s d f)
    let s := match dieUcie d with
      | some u => { s with mod := { s.mod with ucie := setFld s.mod.ucie u 1 (if f.ucieOk then 1 else 0) } }
      | none => s
    let s := startPorts s d
    setDieSt s d fun x => { x with
      st := .ready, fails := 0, watchReady := true, join := none
      rejoins := if x.rejoins = 0xFFFF then x.rejoins else x.rejoins + 1 }
  else rejoinFail s d true

/-- A rejoin whose time has passed ends (R444, R445). -/
def settleJoin (s : State) (d : Nat) : State :=
  match (getDie s d).join with
  | some (f, t) => if (getDie s d).st = .joining ∧ t.toNat + Nat.min f.took rejoinMax ≤ now s then joinDie s d f else s
  | none => s

/-- DIE.CTL REJOIN (R442): of a HELD or FAILED die that R470 has not retired; the failures count from 0. While a thermal hold, its rails or
the module's own state hold the rejoin off, it waits (R551, R562). -/
def dieRejoin (s : State) (d : Nat) (f : DieFound) : State × Byte :=
  let x := getDie s d
  if decide (x.st = .held ∨ x.st = .failed) && !x.retired then
    let s := modDie s d fun x => { x with fails := 0, joinDue := true }
    (if decide (s.mod.st = .ready) && rejoinMay s d then beginJoin s d f else s, stOk)
  else (s, stCfgBusy)

/-- DIE_REJOIN_CMD (R442). -/
def execDieRejoinCmd (w : Writer) (die : Fin 12) (f : DieFound) (s : State) : Host.Outcome State Fault Refusal :=
  .next (finish (secureWrite w (winAddr 0x2001 0 0) s fun s => dieRejoin s die f))

/-- REJOIN_DELAY_EXPIRE (R441, R442, R445): with AUTO_REJOIN, REJOIN_DELAY after the die became HELD; or a commanded rejoin that has waited. -/
def execRejoinDelayExpire (die : Fin 12) (f : DieFound) (s : State) : Host.Outcome State Fault Refusal :=
  .next (
    let x := getDie s die
    let auto := decide (x.st = .held) && bitAt x.cfg 31 && decide (x.heldAt.toNat + 100000 * fldN x.cfg 0 16 ≤ now s)
    if (auto || x.joinDue) && !x.retired && decide (s.mod.st = .ready) && rejoinMay s die then beginJoin s die f
    else s)

/-- A write of DIE.CFG (R441). -/
def writeDieCfg (s : State) (d : Nat) (v : W32) : State × Byte :=
  if fldN v 28 3 = 0 then (s, stInvalid)
  else (modDie s d fun x => { x with cfg := merge 0xF000FFFF 0 v }, stOk)

/-! ## Edges (R424-R426, R442) -/

/-- Links of an edge: 12 in each half of a west or east edge, or one per column (R423). -/
def edgeLinks : Nat := 24

/-- D2D_LINK_LOCK_LOSS (R424): a link of an OPEN edge retrains alone, with a spare where one of its wire pairs has failed, and its flits
wait under its replay; one that cannot train with no spare left closes its edge. How many flits it replays is open. -/
def execD2dLinkLockLoss (edge : Fin 16) (link : Fin 24) (remapped trains : Bool) (s : State) : Host.Outcome State Fault Refusal :=
  .next (
    let e := getEdge s edge
    if e.st = 2 then
      let used := mget 0 e.used link.val
      if trains && (!remapped || decide (used < 2)) then
        let (f, s) := freshWord s
        let s := putEdge s edge { e with
          retrained := setFld e.retrained link.val 1 1, replays := e.replays + f
          used := if remapped then mset 0 e.used link.val (used + 1) else e.used }
        if remapped then putErr s (edgeErr s cD2dLane 0 edge) else s
      else edgeDown s edge
    else s)

/-- DIE.CTL EDGE_RETRAIN (R442): a CLOSED edge whose two dies are READY trains and opens; one that does not train stays CLOSED (R448). -/
def edgeRetrain (s : State) (e : Nat) (trains : Bool) (pairs : List (Fin 24)) : State × Byte :=
  if decide ((getEdge s e).st = 0) && dieReady s (edgeEnds e).1 && dieReady s (edgeEnds e).2 then (trainEdge s e trains pairs, stOk)
  else (s, stCfgBusy)

/-- EDGE_RETRAIN (R442): none where the edge does not train, else the wire pairs that fail, by link. -/
def execEdgeRetrain (w : Writer) (edge : Fin 16) (trains : Option (List (Fin 24))) (s : State) : Host.Outcome State Fault Refusal :=
  .next (finish (secureWrite w (winAddr 0x2001 0 0) s fun s => edgeRetrain s edge trains.isSome (trains.getD [])))

/-! ## UCIe modules, the reference (R21, R436, R464) -/

/-- UCIE_MODULE_LOSS (R21): its traffic passes to the others, with a record of severity CORRECTED whose cause value is open; the loss of
all four is FATAL (R464). -/
def execUcieModuleLoss (m : BitVec 2) (s : State) : Host.Outcome State Fault Refusal :=
  .next (
    if s.mod.resetN && bitAt s.mod.ucie m.toNat then
      let (c, s) := freshWord { s with mod := { s.mod with ucie := setFld s.mod.ucie m.toNat 1 0 } }
      let d := nth 0 [2, 3, 8, 9] m.toNat
      let s := putErr s { cause := c.setWidth 8, sev := 0, unit := 11, source := BitVec.ofNat 16 d, die := BitVec.ofNat 4 d }
      if s.mod.ucie = 0 then putErr s { cause := cFatalInternal, sev := 3, unit := 9, source := 16, die := 15 } else s
    else s)

/-- REF_LOST (R436). -/
def refLostErr : Err := { cause := cRefLost, sev := 3, unit := 9, source := 16, die := 15 }

/-- REF_LOSS (R436): REF_LOST, FATAL; nothing where MOD_RESET_N is low (R438). -/
def execRefLoss (s : State) : Host.Outcome State Fault Refusal :=
  .next (if !s.mod.resetN ∨ s.mod.st = .failed then s else putErr s refLostErr)

/-! ## Clocks (R431-R433) -/

/-- CLOCK_STEP_CHANGE (R431, R432): the step in force becomes the slower of REQ and LIMIT, at most once a µs. -/
def execClockStepChange (die : Fin 12) (half : Bool) (s : State) : Host.Outcome State Fault Refusal :=
  .next (
    let i := halfNo die half
    let h := getHalf s i
    let v := if h.req.toNat < h.limit.toNat then h.limit else h.req
    if dieReady s die && decide (h.step ≠ v) && (decide (h.changes = 0) || decide (h.lastChange.toNat + 1000 ≤ now s)) then
      putHalf s i { h with step := v, changes := h.changes + 1, lastChange := s.mod.time }
    else s)

/-- A write of CLK.HALF.REQ (R431). -/
def writeClkHalf (s : State) (i : Nat) (v : W32) : State × Byte :=
  if fldN v 0 2 = 3 then (s, stInvalid) else (putHalf s i { getHalf s i with req := fld v 0 2 }, stOk)

/-- TCLK of a half in one reference cycle (R430). -/
def tclkPerRef (h : Half) : W64 := match h.step.toNat with | 0 => 20 | 1 => 10 | _ => 5

end Sys2Proof.Machine
end

