-- ==== Sys2Proof/Machine/Parks.lean ====
section
/-!
DEFINITION. STREAM.FAULT_CTL on what is parked: transfers, and accesses of gatherings and of RoCEv2 requests (R298, R359, R370).
-/
namespace Sys2Proof.Machine
open Sys2Proof

/-- The action of STREAM.FAULT_CTL on a parked access that is no transfer. -/
def resolvePark (s : State) (p : Park) (resume : Bool) : State :=
  match p.owner with
  | .gather k => if resume then gatherPass (unpark s p.owner) k else gParkFails s k cXlateFail
  | .roce q => resolveWr s q resume

/-- A write of STREAM.FAULT_CTL with an action (R298). -/
def faultCtl (s : State) (die : Fin 12) (tag : W32) (resume : Bool) : State × Byte :=
  if tagNames s die tag then (resolveXfer s die (fld tag 0 9) resume, stOk)
  else match s.net.parks.find? fun p => decide (p.die = die.val ∧ p.tag = tag) with
    | some p => (resolvePark s p resume, stOk)
    | none => (modDie s die fun d => { d with stream := { d.stream with tagsStale := d.stream.tagsStale + 1 } }, cTagStale)

/-- FAULT_CTL_RESUME (R298). -/
def execFaultCtlResume (_w : Writer) (die : Fin 12) (tag : W32) (s : State) : Host.Outcome State Fault Refusal := .next (finish (dieReg s die fun s => faultCtl s die tag true))

/-- FAULT_CTL_FAIL (R298). -/
def execFaultCtlFail (_w : Writer) (die : Fin 12) (tag : W32) (s : State) : Host.Outcome State Fault Refusal := .next (finish (dieReg s die fun s => faultCtl s die tag false))

end Sys2Proof.Machine
end

