-- ==== Sys2Proof/Machine/Pubs.lean ====
section
/-!
DEFINITION. Publication entries and views (R416-R419).
-/
namespace Sys2Proof.Machine
open Sys2Proof

/-- PUB_STATE (R421). -/
def stPubState : Byte := 0xC5

/-- States of a publication entry (R416). -/
def pubFree : BitVec 2 := 0
def pubBuilt : BitVec 2 := 1
def pubPublished : BitVec 2 := 2

/-- PUB.CFG (R416). -/
def pubCfgReg (p : Pub) : W64 :=
  at' 64 63 (b2 (decide (p.st ≠ pubFree))) ||| at' 64 61 p.job ||| at' 64 55 p.count ||| at' 64 52 p.st ||| at' 64 36 (BitVec.ofNat 16 (Nat.min 65535 p.refs))

/-- An entry's level-1 block lies in the non-secure part of the control die's reserve (R416). -/
def pubBlockOk (base : W64) (count : BitVec 6) : Bool := inReserveNs (fldN base 9 31 * 2 ^ 9) (8 * (count.toNat + 1))

/-- A write of PUB.CFG (R416). -/
def writePubCfg (s : State) (e : BitVec 4) (v : W64) : State × Byte :=
  let p := getPub s e.toNat
  if p.st = pubPublished then (s, stCfgBusy)
  else if bitAt v 63 && !pubBlockOk p.base (fld v 55 6) then (s, stInvalid)
  else (putPub s e.toNat { p with job := fld v 61 2, count := fld v 55 6, st := if bitAt v 63 then pubBuilt else pubFree }, stOk)

/-- A write of PUB.L1_BASE (R416): a BUILT entry's block keeps to the reserve. -/
def writePubBase (s : State) (e : BitVec 4) (v : W64) : State × Byte :=
  let p := getPub s e.toNat
  let v := v &&& 0x000000FFFFFFFE00
  if p.st = pubPublished then (s, stCfgBusy)
  else if p.st = pubBuilt ∧ !pubBlockOk v p.count then (s, stInvalid)
  else (putPub s e.toNat { p with base := v }, stOk)

/-- PUB_CFG_WRITE (R416). -/
def execPubCfgWrite (_w : Writer) (entry : BitVec 4) (value : W64) (s : State) : Host.Outcome State Fault Refusal :=
  .next (finish (writePubCfg s entry value))

/-! ## PUB.CTL (R417) -/

/-- PUBLISH: BUILT to PUBLISHED; PUB.LATEST of the publishing job names the entry. -/
def pubPublish (s : State) (e : BitVec 4) (version : W32) : State × Byte :=
  let p := getPub s e.toNat
  if p.st ≠ pubBuilt then (s, stPubState)
  else
    (modJob (putPub s e.toNat { p with st := pubPublished, version }) p.job fun x =>
      { x with regs := { x.regs with pubLatest := at' 32 31 (1 : BitVec 1) ||| at' 32 0 e } }, stOk)

/-- UNPUBLISH: PUBLISHED to BUILT while no reference is held. -/
def pubUnpublish (s : State) (e : BitVec 4) : State × Byte :=
  let p := getPub s e.toNat
  if p.st ≠ pubPublished then (s, stPubState)
  else if p.refs ≠ 0 then (s, stCfgBusy)
  else (putPub s e.toNat { p with st := pubBuilt }, stOk)

/-- HOLD: one reference more of a PUBLISHED entry. -/
def pubHold (s : State) (e : BitVec 4) : State × Byte :=
  let p := getPub s e.toNat
  if p.st ≠ pubPublished then (s, stPubState)
  else if 65535 ≤ p.refs then (s, stCfgBusy)
  else (putPub s e.toNat { p with refs := p.refs + 1 }, stOk)

/-- RELEASE: one reference less. -/
def pubRelease (s : State) (e : BitVec 4) : State × Byte :=
  let p := getPub s e.toNat
  if p.st ≠ pubPublished ∨ p.refs = 0 then (s, stPubState)
  else (putPub s e.toNat { p with refs := p.refs - 1 }, stOk)

/-- PUBLISH (R417). -/
def execPublish (_w : Writer) (entry : BitVec 4) (version : W32) (s : State) : Host.Outcome State Fault Refusal :=
  .next (finish (pubPublish s entry version))
/-- UNPUBLISH (R417). -/
def execUnpublish (_w : Writer) (entry : BitVec 4) (s : State) : Host.Outcome State Fault Refusal := .next (finish (pubUnpublish s entry))
/-- HOLD (R417). -/
def execHold (_w : Writer) (entry : BitVec 4) (s : State) : Host.Outcome State Fault Refusal := .next (finish (pubHold s entry))
/-- RELEASE (R417). -/
def execRelease (_w : Writer) (entry : BitVec 4) (s : State) : Host.Outcome State Fault Refusal := .next (finish (pubRelease s entry))

/-- A write of PUB.CTL (R417): other commands have no effect. -/
def writePubCtl (s : State) (v : W64) : State × Byte :=
  let e : BitVec 4 := fld v 8 4
  match fldN v 0 3 with
  | 1 => pubPublish s e (fld v 32 32)
  | 2 => pubUnpublish s e
  | 3 => pubHold s e
  | 4 => pubRelease s e
  | _ => (s, stOk)

/-! ## Views (R418, R419) -/

/-- The range of a view, in pages of 64 KiB: the first and how many. -/
def viewRange (s : State) (v : W64) : Nat × Nat := (fldN v 32 18 * 16384, pubCount (getPub s (viewEntry v)) * 16384)

/-- The range of an enabled view dropped from every cache (R295, R419). -/
def invalView (s : State) (j : BitVec 2) (v : W64) : State :=
  if bitAt v 63 then invalidate s j (viewRange s v).1 (viewRange s v).2 else s

/-- The reference of a view that has moved falls now, or with the last transfer that began under it (R419). -/
def oweView (s : State) (j : BitVec 2) (v : W64) (ep : Nat) : State :=
  if bitAt v 63 then settleViews (modJob s j fun x => { x with viewOwed := x.viewOwed ++ [(ep, BitVec.ofNat 4 (viewEntry v))] }) j else s

/-- A write of TRN.VIEW that is accepted (R419). -/
def moveView (s : State) (j : BitVec 2) (v : W64) : State :=
  let old := (getJob s j).regs.trnView
  let ep := (getJob s j).viewEp
  let s := if bitAt v 63 then putPub s (viewEntry v) { getPub s (viewEntry v) with refs := (getPub s (viewEntry v)).refs + 1 } else s
  let s := modJob s j fun x => { x with regs := { x.regs with trnView := v }, viewEp := x.viewEp + 1 }
  oweView (invalView (invalView s j old) j v) j old ep

/-- A write of TRN.VIEW (R418): one that enables a view or names a new entry needs a PUBLISHED entry and a range that ends below 2^48. -/
def writeTrnView (s : State) (j : BitVec 2) (v : W64) : State × Byte :=
  let v := v &&& 0x8003FFFF0000000F
  let old := (getJob s j).regs.trnView
  let p := getPub s (viewEntry v)
  if bitAt v 63 ∨ viewEntry v ≠ viewEntry old then
    if p.st ≠ pubPublished then (s, stPubState)
    else if 2 ^ 18 < fldN v 32 18 + pubCount p then (s, stInvalid)
    else (moveView s j v, stOk)
  else (moveView s j v, stOk)

/-- TRN_VIEW_WRITE (R418, R419): it completes when the invalidation of the view's range does. -/
def execTrnViewWrite (_w : Writer) (job : BitVec 2) (value : W64) (s : State) : Host.Outcome State Fault Refusal :=
  .next (finishInval (writeTrnView s job value))

end Sys2Proof.Machine
end

