-- ==== Sys2Proof/Machine/Measure.lean ====
section
/-!
DEFINITION. Images of the two slots and their measurements (R495, R496, R502).
-/
namespace Sys2Proof.Machine
open Sys2Proof

/-- Image types (R495). -/
def imgIsland : Nat := 1
def imgMgmt : Nat := 2
def imgDiectl : Nat := 3
def imgApp : Nat := 4

/-- The image of a type staged into a slot since manufacture (R500). -/
def stagedImage (f : Fw) (slot : Bool) (typ : Nat) : Option Image := (if slot then f.slotB else f.slotA).find? fun i => decide (i.typ.toNat = typ)

/-- The manifest, SVN and version that a slot holds for a type. -/
def slotManifest (f : Fw) (slot : Bool) (typ : Nat) : List Byte :=
  match stagedImage f slot typ with | some i => i.manifest | none => Config.flashManifest slot typ
def slotSvn (f : Fw) (slot : Bool) (typ : Nat) : W32 := match stagedImage f slot typ with | some i => i.svn | none => Config.flashSvn slot typ
def slotVersion (f : Fw) (slot : Bool) (typ : Nat) : W32 := match stagedImage f slot typ with | some i => i.version | none => Config.flashVersion slot typ

/-- The KEY_REVOKE that a slot's ISLAND image requests (R497, R500): the key index it is signed with where its manifest asks for a rise
(DESIGN CHOICE, log entry 30: the spec gives the request and not its value). -/
def slotRevoke (f : Fw) (slot : Bool) : BitVec 2 :=
  match stagedImage f slot imgIsland with
  | some i => if i.keyRevoke then i.keyIndex else 0
  | none => Config.flashRevoke slot

/-- The measurement of a slot's image (R496). -/
def slotMeasure (f : Fw) (slot : Bool) (typ : Nat) : BitVec 512 := Config.sha512 (slotManifest f slot typ)

/-- A measurement in force; zero where there is none. -/
def measOf (f : Fw) (typ : Nat) : BitVec 512 := mget 0 f.meas typ
def setMeas (f : Fw) (typ : Nat) (m : BitVec 512) : Fw := { f with meas := mset 0 f.meas typ m }

/-- A digest as bytes (R5). -/
def digestBytes (m : BitVec 512) : List Byte := toLE 64 m.toNat

/-- m_config (R502): the generations of the records in force, MESH.MAP_TAG and the region table as written at READY. -/
def mConfig (s : State) : BitVec 512 :=
  Config.sha512 (
    ((List.range 24).flatMap fun h => toLE 2 (getHalf s h).mapGen.toNat)
    ++ toLE 4 s.flash.gen.toNat ++ toLE 4 s.sec.ownerGen.toNat ++ toLE 4 s.mod.mapTag.toNat
    ++ (List.range 64).flatMap fun e => toLE 16 (mget (0 : BitVec 128) s.sec.readyRegions e).toNat)

/-- cdi1, cdi2 and cdi3 computed again (R502). -/
def measureChain (s : State) : State :=
  let c1 := Config.hmacSha512 Config.uds (digestBytes (measOf s.fw imgIsland))
  let c2 := Config.hmacSha512 c1 (digestBytes (measOf s.fw imgMgmt) ++ digestBytes (measOf s.fw imgDiectl) ++ digestBytes (mConfig s))
  { s with sec := { s.sec with cdi2 := c2, cdi3 := Config.hmacSha512 c2 (digestBytes (measOf s.fw imgApp)) } }

/-- A record of the security island or of a management core (R458). -/
def islandErr (cause : Byte) (sev : BitVec 2) (detail : Byte) : Err := { cause, sev, unit := 9, source := 18, die := 15, detail }
def mgmtErr (s : State) (cause : Byte) (sev : BitVec 2) : Err := { cause, sev, unit := 9, source := if s.fw.active then 17 else 16, die := 15 }

/-- Causes of chapter 17 (R514). -/
def cTokenRefused : Byte := 0xF1
def cImageRefused : Byte := 0xF2
def cBootFallback : Byte := 0xF3
def cPufFail : Byte := 0xF4
def cRecordBad : Byte := 0xF5

/-- The anti-rollback counter of an image type (R494). -/
def svnOf (x : Sec) (typ : Nat) : W32 := match typ with | 1 => x.svnIsland | 2 => x.svnMgmt | 3 => x.svnDiectl | _ => x.svnApp

/-- The signer's keys are those R497 names: a root key pair that ROM holds and that is not revoked, or the owner's. -/
def imageKeyOk (s : State) (i : Image) (typ : Nat) : Bool :=
  if typ = imgApp then decide (s.sec.owner = some i.keys)
  else decide (Config.sha512 i.keys = Config.romKeyHash i.keyIndex) && decide (s.sec.keyRevoke.toNat ≤ i.keyIndex.toNat)

/-- Why an image is refused (R497): the DETAIL of IMAGE_REFUSED. -/
def imageRefusal (s : State) (i : Image) (typ : Nat) : Option Byte :=
  if !Config.sigOk i.keys i.manifest i.sigs then some 1
  else if Config.sha512 i.payload ≠ i.hash then some 2
  else if i.mtype.toNat ≠ typ then some 3
  else if i.svn.toNat < (svnOf s.sec typ).toNat then some 4
  else if !imageKeyOk s i typ then some 5
  else none

end Sys2Proof.Machine
end

