-- ==== Sys2Proof/Machine/Startup.lean ====
section
/-!
DEFINITION. Module reset, boot, ramp, discovery and start-up (R429, R437, R438, R446-R448, R498, R499, R554-R557).
-/
namespace Sys2Proof.Machine
open Sys2Proof

/-- The management island has left reset (R438, R447 step 1). -/
def islandUp (s : State) : Bool := s.mod.resetN && decide (1 ≤ s.mod.step.toNat)

/-! ## Module reset (R437, R438) -/

/-- POWER.CFG at reset: CAP and PEAK from the flash (R569). -/
def resetPowerCfg (f : Flash) : W32 :=
  match f.powerCap with
  | some (cap, peak) => setFld (setFld Power.reset.cfg 21 11 cap.toNat) 10 11 peak.toNat
  | none => Power.reset.cfg

/-- The ports at reset, each ROLE from the flash (R331, R492). -/
def resetPorts (s : State) : SMap Port := (List.range 24).foldl (fun m p => mset Port.reset m p (flashPort s p)) []

/-- Module reset: every domain at its reset values. The configuration flash, the monotonic region, the JTAG port and the input stay as they
are, and so do the commands that wait. -/
def moduleReset (s : State) : State :=
  let r := State.reset
  { r with
    pending := s.pending, freeCtr := s.freeCtr, flash := s.flash, jtag := s.jtag
    mod := { r.mod with autostart := s.flash.autostart.getD false }
    halves := mmap Half.reset s.halves fun _ h => { Half.reset with flashFenced := h.flashFenced, flashGen := h.flashGen, bypassed := h.bypassed }
    dies := mmap Die.reset s.dies fun _ d => { Die.reset with retired := d.retired }
    hbmStacks := mmap Stack.reset s.hbmStacks fun _ k =>
      { Stack.reset with repairs := k.repairs, retiredFrames := k.retiredFrames, badRows := k.badRows, ceRows := k.ceRows }
    log := { r.log with flashFatal := s.log.flashFatal }
    net := { r.net with ports := resetPorts s }
    fw := { r.fw with slot := s.flash.slot.getD false, markA := s.fw.markA, markB := s.fw.markB, slotA := s.fw.slotA, slotB := s.fw.slotB }
    sec := { r.sec with
      svnIsland := s.sec.svnIsland, svnMgmt := s.sec.svnMgmt, svnDiectl := s.sec.svnDiectl, svnApp := s.sec.svnApp
      keyRevoke := s.sec.keyRevoke, ownerGen := s.sec.ownerGen, owner := s.sec.owner }
    power := { r.power with cfg := resetPowerCfg s.flash, vin := s.power.vin, iin := s.power.iin, pin := s.power.pin } }

/-- MOD_RESET_FALL (R438): every domain held in reset, nothing saved. -/
def execModResetFall (s : State) : Host.Outcome State Fault Refusal := .next (moduleReset s)

/-! ## Discovery (R429) -/

/-- What start-up found of the die at a site. -/
def foundAt (f : StartFound) (d : Nat) : Option DieFound := f.dies[d]?

/-- The die at a site answers, no map generation has retired it (R470), it has not been found ABSENT since module reset (R443), and
its rails are in regulation (R551). -/
def siteAnswers (s : State) (f : StartFound) (d : Nat) : Bool :=
  !(getDie s d).retired && !(getDie s d).missed && decide ((getRail s d).st = 2 ∧ (getRail s (12 + d)).st = 2) && (match foundAt f d with | some x => x.answers | none => false)

/-- The sites that discovery reaches in a number of rounds, outward from dies 2, 3, 8 and 9. -/
def reached (s : State) (f : StartFound) : Nat → List Nat
  | 0 => [2, 3, 8, 9].filter (siteAnswers s f)
  | n + 1 =>
    let r := reached s f n
    (List.range 12).filter fun d => r.contains d || (siteAnswers s f d && (dieEdges d).any fun e => r.contains (edgeOther e d))

/-- Its straps give the number of its site, no other die that was reached claims it, and its neighbours lie where R19 places them. -/
def identOk (f : StartFound) (r : List Nat) (d : Nat) : Bool :=
  match foundAt f d with
  | some x => decide (strapNum x.straps = d) && x.placed && r.all fun e => decide (e = d) || decide ((foundAt f e).map (fun y => strapNum y.straps) ≠ some d)
  | none => false

/-- A site whose die is ABSENT until module reset, with its record (R443, R448). -/
def absent (s : State) (d : Nat) (e : Err) : State := putErr (modDie s d fun x => { x with missed := true }) e

/-- One site under discovery: present, or absent with its record. -/
def discoverDie (f : StartFound) (r : List Nat) (s : State) (d : Nat) : State :=
  if (getDie s d).missed ∨ (getDie s d).retired then s
  else if !r.contains d then absent s d (dieErr s cDieLost 1 d)
  else if !identOk f r d then absent s d (dieErr s cDieIdent 2 d)
  else match foundAt f d with
    | some x =>
      if !x.pll then absent s d (dieErr s cDieLost 1 d)
      else if !x.mapOk then absent s d { islandErr cRecordBad 1 0 with die := BitVec.ofNat 4 d }
      else { s with mod := { s.mod with present := setFld s.mod.present d 1 1 } }
    | none => s

/-- The numbering of a half (R15): good positions in row-major order, the first 736. -/
def numberHalf (s : State) (i : Nat) : State :=
  let h := getHalf s i
  if diePresent s (i / 2) then
    putHalf s i { h with map := ((List.range 768).filter fun p => !h.flashFenced.contains p).take 736, mapGen := h.flashGen, lastChange := s.mod.time }
  else putHalf s i { h with map := [], mapGen := 0 }

/-- The map generation that a half contributes to the tag (R216). -/
def halfGen (s : State) (i : Nat) : W16 := if diePresent s (i / 2) then (getHalf s i).mapGen else 0xFFFF

/-- MESH.MAP_TAG (R216). -/
def mapTagOf (s : State) : W32 := crc32 ((List.range 24).flatMap fun i => toLE 2 (halfGen s i).toNat)

/-- Start-up fails (R448). -/
def startFail (s : State) : State := putErr s (islandErr cStartupFail 3 0)

/-! ## Training (R447 step 7) -/

/-- A present die passes self-test, or is ABSENT (R448). -/
def testDie (f : StartFound) (s : State) (d : Nat) : State :=
  match foundAt f d with
  | some x =>
    if x.bist then setDieSt s d fun y => { y with st := .ready, watchReady := true }
    else absent { s with mod := { s.mod with present := setFld s.mod.present d 1 0 } } d (dieErr s cDieLost 1 d)
  | none => s

/-- The dies that are READY. -/
def readyDies (s : State) : List Nat := (List.range 12).filter (dieReady s)

/-- Every edge between present dies trained and opened; one that does not train stays CLOSED with its record (R448). -/
def trainEdges (f : StartFound) (s : State) : State :=
  ((List.range 16).filter fun e => dieReady s (edgeEnds e).1 && dieReady s (edgeEnds e).2).foldl
    (fun s e => trainEdge s e (bitAt f.edgesOk e) (pairsOf f.pairs e)) s

/-- The UCIe modules of the dies that are READY. -/
def trainUcie (f : StartFound) (s : State) : State :=
  let m : BitVec 4 := ([2, 3, 8, 9].zipIdx.filter fun (e : Nat × Nat) => dieReady s e.1 && bitAt f.ucieOk e.2).foldl
    (fun v (e : Nat × Nat) => setFld v e.2 1 1) 0
  let s := { s with mod := { s.mod with ucie := m } }
  if m = 0 then putErr s (islandErr cFatalInternal 3 0) else s

/-- A die before discovery: ABSENT, but for one that R470 has retired, which leaves HELD only at module reset (R442). -/
def undiscovered (x : Die) : Die := { wipeDie x with st := if x.retired ∧ x.st = .held then .held else .absent, joinDue := false }

/-- DIE.STATE.PRESENT before discovery. -/
def keptPresent (s : State) : BitVec 12 :=
  (List.range 12).foldl (fun v d => if (getDie s d).retired && decide ((getDie s d).st = .held) then setFld v d 1 1 else v) 0

/-- The reference is lost at start-up (R436, R448). -/
def refLostStart (s : State) : State := startFail (putErr s refLostErr)

/-- Steps 4 to 8 of R447, from the rails up to READY. -/
def startDies (s : State) (f : StartFound) : State :=
  let p := keptPresent s
  let s := setModSt s fun m => { m with st := .discover, step := 3, present := p }
  let s := { s with tiles := [], dies := mmap Die.reset s.dies fun _ x => undiscovered x }
  if !f.refOk then refLostStart s
  else if !f.baseDiesOk then startFail s
  else
    let r := reached s f 12
    let s := (List.range 12).foldl (discoverDie f r) s
    if !([2, 3, 8, 9].any (diePresent s)) then startFail s
    else
      let s := (List.range 24).foldl numberHalf s
      let s := { s with mod := { s.mod with mapTag := mapTagOf s } }
      let s := setModSt s fun m => { m with st := .train, step := 6 }
      let s := ((List.range 12).filter (diePresent s)).foldl (testDie f) s
      let s := (readyDies s).foldl (fun s d => match foundAt f d with
        | some x => trainStack (x.badTiles.foldl (fun s i => bistFence s d i) s) d x
        | none => s) s
      let s := trainUcie f (trainEdges f s)
      if s.mod.st = .failed then s
      else
        let s := (readyDies s).foldl startPorts s
        let s := { s with watches := [], tiles := (presentTiles s).map fun (t : W16) => (t.toNat, freshTile false (getTile s t)) }
        measureChain (setModSt { s with sec := { s.sec with readyRegions := s.regions } } fun m => { m with st := .ready, step := 8 })

/-! ## Power up (R555-R557) -/

/-- Phases of a rail, and how many of them it needs (R550). -/
def railPhases (r : Nat) : Nat := if r < 12 then 16 else if r < 24 then 4 else if r = 24 then 8 else if r < 28 then 6 else 2
def railNeeded (r : Nat) : Nat := if r < 12 then 14 else if r < 24 then 3 else if r = 24 then 7 else if r < 28 then 5 else 1

/-- RAIL.STATUS.GOOD (R552, R569): the phases that have not been shed. -/
def railGood (r : Nat) (x : Rail) : W16 := BitVec.ofNat 16 (2 ^ railPhases r - 1) &&& ~~~x.shed

/-- A rail in regulation on its good phases. -/
def railOn (s : State) (r : Nat) : State := putRail s r { getRail s r with on := railGood r (getRail s r), st := 2, backAt := none }

/-- Effective sustained and peak power in mW (R549): the caps, and 215 A at the input voltage. -/
def pEff (s : State) : Nat := Nat.min (10000 * fldN s.power.cfg 21 11) (2150 * s.power.vin.toNat)
def pPeak (s : State) : Nat := Nat.min (10000 * fldN s.power.cfg 10 11) (2150 * s.power.vin.toNat)

/-- The size of the peak allowance, in nJ (R560): 20 ms of the difference. -/
def allowSize (s : State) : Nat := (pPeak s - pEff s) * 20000

/-- Causes of chapter 19 (R571). -/
def cInputRange : Byte := 0xF8
def cInputFail : Byte := 0xF9
def cRailExcursion : Byte := 0xFA
def cRailFatal : Byte := 0xFB
def cPhaseShed : Byte := 0xFC
def cPhaseShort : Byte := 0xFD
def cThermalTrip : Byte := 0xFE

/-- A record of a rail: its number and the phase, 0xFF for the rail as a whole (R550). -/
def railErr (cause : Byte) (sev : BitVec 2) (r phase : Nat) : Err :=
  { cause, sev, unit := 10, source := BitVec.ofNat 16 (r * 256 + phase), die := BitVec.ofNat 4 (if r < 24 then r % 12 else 15) }

/-- A rail that does not reach regulation in its bound is an excursion (R551, R556): its die answers no discovery; a shared one is FATAL. -/
def rampFails (s : State) (rail : Fin 28) : State :=
  let r := rail.val
  let s := putRail s r { getRail s r with st := 3, backAt := none }
  if r < 24 then modDie (putErr s (railErr cRailExcursion 1 r 0xFF)) (r % 12) fun x => { x with cause := 4 }
  else putErr s (railErr cRailFatal 3 r 0xFF)

/-- The ramp (R556): paused while the input lies below 32.0 V, else MOD_PGOOD, and start-up goes on. -/
def rampUp (s : State) (f : StartFound) : State :=
  let s := if s.mod.st = .ramp then s else setModSt { s with power := { s.power with st := 2 } } fun m => { m with st := .ramp, step := 2 }
  if s.power.vin.toNat < 3200 then { s with power := { s.power with paused := true } }
  else
    let s := (List.range 28).foldl railOn s
    let s := f.badRails.foldl rampFails s
    if s.mod.st = .failed then s
    else startDies { s with power := { s.power with st := 3, pgood := true, paused := false, allow := 100, allowance := allowSize s, scaled := false } } f

/-- START (R555): from STANDBY only. -/
def powerUp (s : State) (f : StartFound) : State := if s.power.st = 1 ∧ s.mod.st = .standby then rampUp s f else s

/-! ## Boot (R447 steps 1 and 2, R498, R499) -/

/-- Entries 0 to 3 of the region table, locked (R487). -/
def bootRegions : SMap (BitVec 128) :=
  [(0, 0x17E00, 0x17FFF), (1, 0x1FE00, 0x1FFFF), (2, 0x47E00, 0x47FFF), (3, 0x4FE00, 0x4FFFF)].map fun (e : Nat × W32 × W32) =>
    (e.1, at' 128 124 (0xB : BitVec 4) ||| at' 128 32 e.2.1 ||| at' 128 0 e.2.2)

/-- The images of a slot verify, and it is not marked BAD (R499). -/
def slotBoots (s : State) (f : StartFound) (slot : Bool) : Bool :=
  decide ((if slot then s.fw.markB else s.fw.markA) ≠ 2) && (if slot then f.slotBOk else f.slotAOk)

/-- The record of a slot whose image was refused at boot: the failure it names is open (R497). A slot marked BAD is passed over without. -/
def bootRefused (s : State) (slot : Bool) : State :=
  if (if slot then s.fw.markB else s.fw.markA) = 2 then s
  else
    let (k, s) := freshWord s
    putErr s (islandErr cImageRefused 1 (BitVec.ofNat 8 (k.toNat % 5 + 1)))

/-- A flash record whose signatures fail is treated as absent, with RECORD_BAD (R492). -/
def badRecord (s : State) (r : FlashRec) : State :=
  let s := match r with
    | .repair n => putStack s n { getStack s n with repairs := [], retiredFrames := [], badRows := [] }
    | .role p => let s := { s with flash := { s.flash with roles := merase s.flash.roles p.val } }; putPort s p (flashPort s p)
    | .slot => { s with flash := { s.flash with slot := none }, fw := { s.fw with slot := false } }
    | .autostart => { s with flash := { s.flash with autostart := none }, mod := { s.mod with autostart := false } }
    | .power => { s with flash := { s.flash with powerCap := none }, power := { s.power with cfg := Power.reset.cfg } }
    | .owner => { s with sec := { s.sec with owner := none } }
  putErr s (islandErr cRecordBad 1 0)

/-- Control passes to a slot's images: measured, the management cores released, the locked regions written, STANDBY. -/
def bootSlot (s : State) (slot : Bool) : State :=
  let f := [imgIsland, imgMgmt, imgDiectl].foldl (fun f t => setMeas f t (slotMeasure f slot t)) { s.fw with slot }
  let s := setFw { s with fw := f, regions := bootRegions, sec := { s.sec with readyRegions := bootRegions } } fun f => { f with standby := 1 }
  measureChain (setModSt s fun m => { m with st := .standby, step := 2 })

/-- SLOT_CONFLICT (R547). -/
def cSlotConflict : Byte := 0x9F

/-- Duplicate address detection of the management port (R522): a conflict is recorded, and the module does not take the address. -/
def detect (s : State) (addrFree : Bool) : State :=
  let s := { s with mgmt := { s.mgmt with addrOk := addrFree, dadAt := s.mod.time } }
  if addrFree then s else putErr s (mgmtErr s cSlotConflict 1)

/-- Steps 1 and 2 of R447 once the input is in range, and the ramp with AUTOSTART. -/
def boot (s : State) (f : StartFound) : State :=
  let s := { s with mod := { s.mod with slotId := f.slotId, refSel := f.refSel, step := 1 } }
  let s := railOn s 28
  if !f.katOk then putErr s (islandErr cFatalInternal 3 0)
  else if !f.pufOk then startFail (putErr s (islandErr cPufFail 3 0))
  else if !f.monoOk then startFail (putErr s (islandErr cImageRefused 1 0))
  else
    let s := f.badRecords.foldl badRecord s
    let a := s.fw.slot
    let go (s : State) : State := if s.mod.autostart then powerUp s f else s
    if slotBoots s f a then go (detect (bootSlot s a) f.addrFree)
    else
      let s := putErr (bootRefused s a) (islandErr cBootFallback 1 0)
      if slotBoots s f (!a) then go (detect (bootSlot s (!a)) f.addrFree) else startFail (bootRefused s (!a))

/-- An input voltage within the range of R549, otherwise open. -/
def freshVin (s : State) : State :=
  let (f, s) := freshWord s
  { s with power := { s.power with vin := BitVec.ofNat 16 (3200 + f.toNat % 801) } }

/-- MOD_RESET_N rises (R438): boot begins when the input is in range. -/
def resetRise (s : State) (f : StartFound) : State :=
  let s := { s with mod := { s.mod with resetN := true } }
  if f.inRange then boot (if s.power.vin.toNat < 3200 ∨ 4000 < s.power.vin.toNat then freshVin s else s) f else s

/-- MOD_RESET_RISE (R438, R447). -/
def execModResetRise (f : StartFound) (s : State) : Host.Outcome State Fault Refusal := .next (if s.mod.resetN then s else resetRise s f)

end Sys2Proof.Machine
end

