-- ==== Sys2Proof/Machine/Reliab.lean ====
section
/-!
DEFINITION. Faults, escalation, fencing and live repair, management firmware, injection (chapter 16).
-/
namespace Sys2Proof.Machine
open Sys2Proof

/-- Within the last second. -/
def lastSecond (s : State) (t : W64) : Bool := decide (now s ≤ t.toNat + 1000000000)

/-! ## Tiles (R77, R411, R464) -/

/-- FENCE_RESIDUE failures of a tile's press within a second force its fence (R464, R465). -/
def escalateResidue (s : State) (t : W16) : State :=
  let k := fldN s.log.cfg 24 3
  let ts := (getTile s t).residueFails.filter (lastSecond s)
  if k ≠ 0 ∧ k ≤ ts.length then tileFault (modTile s t fun x => { x with residueFails := [] }) t 3 false
  else s

/-- PRESS_COMPLETE (R78). -/
def execPressComplete (tile : W16) (s : State) : Host.Outcome State Fault Refusal := onTile tile s fun s => escalateResidue (pressDone tile s) tile

/-- PRESS_RESIDUE_MISMATCH (R77, R464). -/
def execPressResidueMismatch (tile : W16) (replayPasses : Bool) (rowBlocks : Nat) (s : State) : Host.Outcome State Fault Refusal :=
  onTile tile s fun s => escalateResidue (residueMismatch tile replayPasses rowBlocks s) tile

/-- CTX_STORE_PATROL (R411, R464): a single-bit error of a context's area is corrected; a double-bit error is a tile fault. -/
def execCtxStorePatrol (tile : W16) (job : BitVec 2) (s : State) : Host.Outcome State Fault Refusal :=
  onTile tile s fun s =>
    if storeBad (getTile s tile) job then tileFault s tile 1 true
    else modTile s tile fun x => { x with ctxEcc := merase x.ctxEcc job.toNat }

/-! ## Dies (R464) -/

/-- DIE_ESCALATE: the die is reset with cause 3. -/
def escalateDie (s : State) (d : Nat) : State := loseDie (putErr s { dieErr s cDieEscalate 2 d with detail := 3 }) d 3

/-- FATAL_INTERNAL (R464). -/
def fatalInternal (s : State) : State := putErr s (islandErr cFatalInternal 3 0)

/-! ## Router bypass (R469, R470) -/

/-- Rows at which links to the west and east neighbours enter (R225). -/
def edgeRows : List Nat := (List.range 12).map edgeRow

/-- The router at a position stands next to a bypassed one in its row, or at column 0 or 23 of an edge row, or its half has four (R470). -/
def bypassRefused (h : Half) (p : Nat) : Bool :=
  decide (4 ≤ h.bypassed.length)
  || h.bypassed.any (fun q => decide (q / 24 = p / 24) && (decide (q = p + 1) || decide (p = q + 1)))
  || (edgeRows.contains (p / 24) && (decide (p % 24 = 0) || decide (p % 24 = 23)))

/-- A record of a router (R458). -/
def routerRec (s : State) (p : Pos) (cause : Byte) (sev : BitVec 2) : Err :=
  { cause, sev, unit := 1, source := routerId s p, die := BitVec.ofNat 4 p.die }

/-- Trees with a non-zero entry at a router are disabled (R469). -/
def disableTreesAt (s : State) (r : W16) : State :=
  let off (n : Nat) (x : Tree) : Tree := if mget 0 s.net.routes (r.toNat * 1024 + n) ≠ 0 then { x with cfg := setFld x.cfg 31 1 0 } else x
  { s with net := { s.net with trees := mmap Tree.reset s.net.trees off } }

/-- The tile at a position, if it has one in service. -/
def liveTileAt (s : State) (p : Pos) : Option W16 := (tileAt s p).filter fun t => !(getTile s t).fenced

/-- A bypass (R469), recorded in the half's tile map, or its refusal, which retires the die (R470). -/
def bypassAt (s : State) (p : Pos) : State :=
  let i := halfNo p.die p.h1
  let q := p.row * 24 + p.col
  let h := getHalf s i
  if h.bypassed.contains q then s
  else if bypassRefused h q then
    let s := putHalf s i { h with flashGen := h.flashGen + 1 }
    modDie (loseDie (putErr s (routerRec s p cRouterLimit 2)) p.die 3) p.die fun x => { x with retired := true }
  else
    let r := routerCode s p
    let s := match liveTileAt s p with
      | some t => fenceTile s t false
      | none => putHalf s i { h with flashGen := h.flashGen + 1 }
    let s := putHalf s i { getHalf s i with bypassed := h.bypassed ++ [q] }
    let s := disableTreesAt s r
    putErr s (routerRec s p cRouterBypass 1)

/-- A router fault (R464): its record with the detecting port, then the bypass; with AUTO_BYPASS 0 the router's tile is fenced and the router stays in service. -/
def routerFault (s : State) (p : Pos) (port : Nat) : State :=
  let s := putErr s { routerRec s p cRouterFault 1 with detail := BitVec.ofNat 8 port }
  if !dieReady s p.die then s
  else if autoBypass s then bypassAt s p
  else match liveTileAt s p with
    | some t => fenceTile s t false
    | none => s

/-- Three LINK_DROP records within a second on one mesh link: the router at its receiving end is at fault (R464). -/
def escalateLink (s : State) (p : Pos) (inPort : Nat) : State :=
  let c := linkCode p inPort
  let near := s.log.dropTimes.filter fun (e : Nat × W64) => decide (e.1 = c) && lastSecond s e.2
  let rest := s.log.dropTimes.filter fun (e : Nat × W64) => decide (e.1 ≠ c)
  if 3 ≤ near.length then routerFault { s with log := { s.log with dropTimes := rest } } p inPort
  else { s with log := { s.log with dropTimes := rest ++ near } }

/-- MESH_FLIT_CRC_ERROR (R220, R464): the router at the receiving end of a mesh link finds a flit of a block in error. A die-to-die link replays its
flits by itself, how many is open (R425); a block at a memory port or bridge, and a sum on its way to its tile, is on no link. -/
def execMeshFlitCrcError (blk : Nat) (again : Bool) (s : State) : Host.Outcome State Fault Refusal :=
  .next (match getBlk s blk with
    | some b =>
      if b.inPort = atMemPort ∨ b.inPort = atSum then s
      else match cameOver b with
        | some e =>
          let (f, s) := freshWord s
          putEdge s e { getEdge s e with replays := (getEdge s e).replays + f }
        | none =>
          let s := flitError s blk b again
          if again then escalateLink s b.pos b.inPort else s
    | none => s)

/-! ## Weir units (R464) -/

/-- Three WEIR_FAULT records within a second from one unit: its die is reset, or for a unit of L4 or above the fault is FATAL. -/
def escalateWeir (s : State) : State :=
  let near := s.log.weirFaults.filter fun (e : Nat × W64) => lastSecond s e.2
  let s := { s with log := { s.log with weirFaults := near } }
  match (near.map Prod.fst).eraseDups.find? fun u => decide (3 ≤ (near.filter fun (e : Nat × W64) => decide (e.1 = u)).length) with
  | some u =>
    let s := { s with log := { s.log with weirFaults := near.filter fun (e : Nat × W64) => decide (e.1 ≠ u) } }
    if u < 10000 then escalateDie s (u / 512) else fatalInternal s
  | none => s

/-- WEIR_COUNTER_ARRIVAL (R250, R251, R260). -/
def execWeirCounterArrival (die : Fin 12) (weir : BitVec 12) (tile : W16) (s : State) : Host.Outcome State Fault Refusal :=
  .next (escalateWeir (arriveAtCounter s die weir tile))

/-- WEIR_RELEASE_ARRIVE (R251-R253). -/
def execWeirReleaseArrive (die : Fin 12) (weir : BitVec 12) (tile : Option W16) (s : State) : Host.Outcome State Fault Refusal :=
  .next (escalateWeir (releaseArrive s die weir tile))

/-! ## FENCE.CTL (R466) -/

/-- A write of FENCE.CTL. -/
def fenceCtl (s : State) (t : W16) (cmd : Nat) : State × Byte :=
  if cmd ≠ 1 ∧ cmd ≠ 2 then (s, stOk)
  else if !tilePresent s t then (s, stInvalid)
  else if !dieReady s (tDie t) then (s, stCfgBusy)
  else if cmd = 1 then
    (if (getTile s t).fenced then s else fenceTile (putErr s (fenceErr t cTileFault 5 false)) t false, stOk)
  else (bypassAt s (posOf s t), stOk)

/-- FENCE_TILE (R466, R467). -/
def execFenceTile (w : Writer) (tile : W16) (s : State) : Host.Outcome State Fault Refusal := .next (finish (secureWrite w (winAddr 0x1105 0 0) s fun s => fenceCtl s tile 1))

/-- BYPASS_ROUTER (R466, R469). -/
def execBypassRouter (w : Writer) (tile : W16) (s : State) : Host.Outcome State Fault Refusal :=
  .next (finish (secureWrite w (winAddr 0x1105 0 0) s fun s => fenceCtl s tile 2))

/-! ## The log, the checkers, the island (R454, R455, R460, R464) -/

/-- ERR_MERGE_END (R460): the end of a merge window writes one merged record if any were merged. -/
def execErrMergeEnd (cause : Byte) (unit : BitVec 4) (source : W16) (job : BitVec 2) (s : State) : Host.Outcome State Fault Refusal :=
  .next (
    let due (w : MergeWin) : Bool := decide (w.first.cause = cause ∧ w.first.unit = unit ∧ w.first.source = source ∧ w.first.job = job)
      && decide (w.since.toNat + 1000000 * fldN s.log.cfg 16 8 ≤ now s)
    match s.log.wins.find? due with
    | some w =>
      let s := { s with log := { s.log with wins := s.log.wins.erase w } }
      if w.count = 0 then s
      else
        let r := { w.first with
          time := s.mod.time, seq := s.log.seq, merged := true, info0 := BitVec.ofNat 64 w.count, info1 := w.lastInfo0 }
        let (s, lost) := putRecord s r
        if lost then (putErr1 s (lostErr s)).1 else s
    | none => s)

/-- A checker missed its injected error: its unit leaves service (R455, R464). -/
def checkerMissed (s : State) (u : CheckerUnit) : State :=
  let fail (e : Err) : State := putErr s e
  match u with
  | .tile t => if tilePresent s t then tileFault (fail (fenceErr t cCheckerFail 0 false)) t 4 false else s
  | .router t =>
    if tilePresent s t then routerFault (fail (routerRec s (posOf s t) cCheckerFail 1)) (posOf s t) 0 else s
  | .die d => if dieReady s d then escalateDie (fail (dieErr s cCheckerFail 1 d)) d else s
  | .base =>
    let (f, s) := freshWord s
    let d := 12 + f.toNat % 3
    fatalInternal (putErr s { cause := cCheckerFail, unit := 11, source := BitVec.ofNat 16 d, die := BitVec.ofNat 4 d })
  | .island => fatalInternal (fail (islandErr cCheckerFail 1 0))

/-- CHECKER_SELFTEST (R455), of logic that is out of reset (R438). -/
def execCheckerSelftest (missed : Option CheckerUnit) (s : State) : Host.Outcome State Fault Refusal :=
  .next (match missed with | some u => if islandUp s then checkerMissed s u else s | none => s)

/-- ISLAND_SRAM_PATROL (R454): one bit in error is masked; two are detected, with a record whose cause value is open. -/
def execIslandSramPatrol (_word : Nat) (bits : BitVec 2) (s : State) : Host.Outcome State Fault Refusal :=
  .next (
    if bits.toNat < 2 ∨ !islandUp s then s
    else
      let (c, s) := freshWord s
      putErr s (islandErr (c.setWidth 8) 1 0))

/-- FATAL_RESET_EXPIRE (R464): with ERR.CFG.FATAL_RESET the module resets one second after the FATAL record. -/
def execFatalResetExpire (f : StartFound) (s : State) : Host.Outcome State Fault Refusal :=
  .next (if s.mod.fatal && bitAt s.log.cfg 29 && decide (s.mod.fatalAt.toNat + 1000000000 ≤ now s) then resetRise (moduleReset s) f else s)

/-! ## Management firmware (R473-R476, R500) -/

/-- The management cores have been released (R498). -/
def mgmtUp (s : State) : Bool := decide (2 ≤ s.mod.step.toNat)

/-- MGMT_CHECKPOINT (R473): every 1 ms the firmware state is checkpointed; the journal starts afresh. -/
def execMgmtCheckpoint (s : State) : Host.Outcome State Fault Refusal :=
  .next (
    if mgmtUp s && decide (s.fw.checkpointAt.toNat + 1000000 ≤ now s) then { s with fw := { s.fw with journal := 0, checkpointAt := s.mod.time } } else s)

/-- A kept response that the journal holds: an accepted write (R473, R526). -/
def journaled (m : DdpMsg) : Bool := decide (m.op = 0x82 ∨ m.op = 0x87) && decide (m.status = stOk)

/-- The other core becomes active and serves (R474): of the kept responses only those of accepted writes are in the journal (R526). -/
def takeover (s : State) (f : Fw → Fw) (sev : BitVec 2) : State :=
  let kept := s.mgmt.cache.filter fun (e : DdpSource × DdpMsg × W64) => journaled e.2.1
  let s := setFw { s with mgmt := { s.mgmt with cache := kept } } f
  putErr s (mgmtErr s cMgmtTakeover sev)

/-- The image of the running slot measured again, and the chain from it (R502). -/
def measureMgmt (s : State) : State := measureChain { s with fw := setMeas s.fw imgMgmt (slotMeasure s.fw s.fw.slot imgMgmt) }

/-- The old core takes the active role back; FW_REVERT; the new slot is BAD (R475). -/
def revertFw (s : State) : State :=
  let new := s.fw.slot
  let s := takeover s (fun f => { f with
    active := !f.active, slot := !f.slot, standby := 1
    markA := if new then f.markA else 2, markB := if new then 2 else f.markB }) 0
  measureMgmt (putErr s (mgmtErr s cFwRevert 1))

/-- MGMT_WATCHDOG (R474, R475): the active core's 10 ms watchdog expires. -/
def execMgmtWatchdog (s : State) : Host.Outcome State Fault Refusal :=
  .next (
    if !mgmtUp s then s
    else match s.fw.standby.toNat with
      | 1 => takeover s (fun f => { f with active := !f.active }) 0
      | 3 => revertFw s
      | _ => takeover s id 1)

/-- The greater of two counters (R494: none ever falls). -/
def maxW (a b : W32) : W32 := if a.toNat < b.toNat then b else a

/-- COMMIT (R475, R500): counters raised, the slot GOOD, the old one BAD once the counters exceed its SVNs. -/
def commitFw (s : State) : State :=
  let f := s.fw
  let new := f.slot
  let x := s.sec
  let r := slotRevoke f new
  let x := { x with
    svnIsland := maxW x.svnIsland (slotSvn f new imgIsland), svnMgmt := maxW x.svnMgmt (slotSvn f new imgMgmt)
    svnDiectl := maxW x.svnDiectl (slotSvn f new imgDiectl), keyRevoke := if x.keyRevoke.toNat < r.toNat then r else x.keyRevoke }
  let old := [imgIsland, imgMgmt, imgDiectl].any fun t => decide ((slotSvn f (!new) t).toNat < (svnOf x t).toNat)
  let s := { s with sec := x, flash := { s.flash with slot := some new, gen := s.flash.gen + 1 } }
  setFw s fun f => { f with
    standby := 1
    markA := if new then (if old then 2 else f.markA) else 0
    markB := if new then 0 else if old then 2 else f.markB }

/-- HANDOVER (R475, R476): the standby core restarts into the other slot, and STANDBY is LOADING. How long the steps take within their limits is
open. -/
def handoverFw (s : State) (img : Image) : State × Byte :=
  if s.fw.standby ≠ 1 then (s, stCfgBusy)
  else
    let (a, s) := freshWord s
    let (b, s) := freshWord s
    let until' : W64 := s.mod.time + BitVec.ofNat 64 (a.toNat % 170000001)
    (setFw s fun f => { f with
      standby := 2
      handover := some { img := (stagedImage f (!f.slot) imgMgmt).getD img, loaded := until', swap := b.toNat % 20000001 } }, stOk)

/-- The roles change (R475, R500, R502): the standby core becomes active on the new image, and STANDBY is PROBATION. -/
def swapFw (s : State) (img : Image) : State :=
  let new := !s.fw.slot
  let keep (l : List Image) : List Image := (l.filter fun k => decide (k.typ.toNat ≠ imgMgmt)) ++ [img]
  let s := setFw s fun f => { f with
    active := !f.active, slot := new, standby := 3, handover := none, probationAt := s.mod.time, journal := 0, checkpointAt := s.mod.time
    slotA := if new then f.slotA else keep f.slotA, slotB := if new then keep f.slotB else f.slotB }
  measureMgmt (putErr s (mgmtErr s cFwHandover 0))

/-- A handover under way goes on (R475, R497, R505): an image that is refused at the end of its loading ends it; its step 3 waits for a
report in progress. -/
def settleFw (s : State) : State :=
  match s.fw.handover with
  | some h =>
    if now s < h.loaded.toNat then s
    else match imageRefusal s h.img imgMgmt with
      | some d => putErr (setFw s fun f => { f with standby := 1, handover := none }) (islandErr cImageRefused 1 d)
      | none => if h.loaded.toNat + h.swap ≤ now s ∧ s.sec.preparing = false then swapFw s h.img else s
  | none => s

/-- Step 3 of a handover (R475): the active core refuses new requests. -/
def swapping (s : State) : Bool :=
  match s.fw.handover with
  | some h => decide (h.loaded.toNat ≤ now s) && (imageRefusal s h.img imgMgmt).isNone
  | none => false

/-- HANDOVER (R476). -/
def execHandover (w : Writer) (img : Image) (s : State) : Host.Outcome State Fault Refusal :=
  .next (finish (secureWrite w (winAddr 0x1200 1 0) s fun s => handoverFw s img))

/-- COMMIT and REVERT while STANDBY is PROBATION (R476). -/
def probationCmd (s : State) (f : State → State) : State × Byte := if s.fw.standby = 3 then (f s, stOk) else (s, stCfgBusy)

/-- COMMIT (R476). -/
def execCommit (w : Writer) (s : State) : Host.Outcome State Fault Refusal := .next (finish (secureWrite w (winAddr 0x1200 1 0) s fun s => probationCmd s commitFw))

/-- REVERT (R476). -/
def execRevert (w : Writer) (s : State) : Host.Outcome State Fault Refusal := .next (finish (secureWrite w (winAddr 0x1200 1 0) s fun s => probationCmd s revertFw))

/-- PROBATION_END (R475): 60 s after the handover. -/
def execProbationEnd (s : State) : Host.Outcome State Fault Refusal :=
  .next (if s.fw.standby = 3 ∧ s.fw.probationAt.toNat + 60000000000 ≤ now s then commitFw s else s)

/-- APP_WATCHDOG (R477): only that core is reset. The cores leave reset once an APP image has been verified (R501). -/
def execAppWatchdog (core : Fin 16) (s : State) : Host.Outcome State Fault Refusal :=
  .next (
    if s.mod.resetN && s.fw.appImage.isSome then
      putErr { s with fw := { s.fw with appReset := setFld s.fw.appReset core.val 1 1 } }
        { cause := cAppWdog, unit := 9, source := BitVec.ofNat 16 core.val, die := 15 }
    else s)

/-! ## The reference cycle (R433) -/

/-- REFERENCE_CYCLE (R433): MOD.TIME advances by 10; the halves of READY dies count their TCLK; rejoins, UNLOADs and a handover under way
go on (R404, R444, R475). Nothing runs while MOD_RESET_N is low. -/
def execReferenceCycle (s : State) : Host.Outcome State Fault Refusal :=
  .next (
    if s.mod.resetN then
      settleFw ((List.range 12).foldl settleJoin (jobs4.foldl finishUnload { s with
        mod := { s.mod with time := s.mod.time + 10 }
        halves := mmap Half.reset s.halves fun i h => if dieReady s (i / 2) then { h with cycles := h.cycles + tclkPerRef h } else h }))
    else s)

/-! ## Injecting faults (R478) -/

/-- A word with one more bit in error, or with two at once. -/
def worse (two : Bool) (e : Option EccSt) : EccSt := if two || e.isSome then .double else .single

/-- A tile that takes injected faults: present, its die READY, in service. -/
def injTile (s : State) (t : W16) (f : Tile → Tile) : State := if tileTakes s t then modTile s t f else s

/-- SPAD_1 and SPAD_2: bits of the scratchpad word at an address. -/
def injectSpad (s : State) (t : W16) (addr : W32) (two : Bool) : State :=
  if addr.toNat < spadBytes then
    injTile s t fun x => { x with spadEcc := eccSet x.spadEcc (addr.toNat / 8) (worse two (eccAt x.spadEcc (addr.toNat / 8))) }
  else s

/-- HBM_SYMBOL: one symbol, or two, of the block at a byte offset of a stack. -/
def injectHbm (s : State) (n : Nat) (bit : Byte) (off : W32) : State :=
  if stackUp s n then
    let b := off.toNat / 64
    let k := getStack s n
    let st : BlkSt := if bitAt bit 0 || (blkSt k b).isSome then .uncorrectable else .correctable
    putStack s n { setBlkSt k b (if blkSt k b = some .poisoned then .poisoned else st) with injected := k.injected.filter (· ≠ b) ++ [b] }
  else s

/-- An injected fault (R478): the unit field, the target, the bit and the address. Another target, or a unit that is not there, has no
effect. -/
def inject (s : State) (u : W16) (target : Nat) (bit : Byte) (addr : W32) : State :=
  match target with
  | 1 => injectSpad s u addr false
  | 2 => injectSpad s u addr true
  | 3 => injTile s u fun x => { x with injResidue := true }
  | 4 =>
    if bit.toNat ≤ 4 ∧ tilePresent s u ∧ dieReady s (tDie u) then
      modTile s u fun x => { x with injFlit := if x.injFlit.contains bit.toNat then x.injFlit else x.injFlit ++ [bit.toNat] }
    else s
  | 5 => if addr.toNat < 4096 ∧ tilePresent s u ∧ dieReady s (tDie u) then injectWeirCopy s u (addr.setWidth 12) else s
  | 6 => injectHbm s u.toNat bit addr
  | 7 => if u.toNat < 16 then putEdge s u.toNat { getEdge s u.toNat with injFlit := true } else s
  | 8 => if u.toNat < 24 then putPort s u.toNat { getPort s u.toNat with injFlit := true } else s
  | 9 =>
    let (f, s) := freshWord s
    injTile s u fun x => { x with ctxEcc := eccSet x.ctxEcc (f.toNat % 4) .double }
  | _ => s

/-- A write of ERR.INJECT. -/
def injectWrite (w : Writer) (s : State) (u : W16) (target : Nat) (bit : Byte) (addr : W32) : State :=
  finish (secureWrite w (winAddr 0x1104 0 0) s fun s => (inject s u target bit addr, stOk))

/-- SPAD_1 (R478). -/
def execSpad1 (w : Writer) (tile : W16) (bit : Byte) (addr : W32) (s : State) : Host.Outcome State Fault Refusal := .next (injectWrite w s tile 1 bit addr)
/-- SPAD_2 (R478). -/
def execSpad2 (w : Writer) (tile : W16) (bit : Byte) (addr : W32) (s : State) : Host.Outcome State Fault Refusal := .next (injectWrite w s tile 2 bit addr)
/-- RESIDUE (R478). -/
def execResidue (w : Writer) (tile : W16) (s : State) : Host.Outcome State Fault Refusal := .next (injectWrite w s tile 3 0 0)
/-- MESH_FLIT (R478). -/
def execMeshFlit (w : Writer) (tile : W16) (bit : Byte) (s : State) : Host.Outcome State Fault Refusal := .next (injectWrite w s tile 4 bit 0)
/-- WEIR_COPY (R478). -/
def execWeirCopy (w : Writer) (tile : W16) (weir : W32) (s : State) : Host.Outcome State Fault Refusal := .next (injectWrite w s tile 5 0 weir)
/-- HBM_SYMBOL (R478). -/
def execHbmSymbol (w : Writer) (stack : W16) (bit : Byte) (offset : W32) (s : State) : Host.Outcome State Fault Refusal := .next (injectWrite w s stack 6 bit offset)
/-- D2D_FLIT (R478). -/
def execD2dFlit (w : Writer) (edge : W16) (s : State) : Host.Outcome State Fault Refusal := .next (injectWrite w s edge 7 0 0)
/-- TIZAL_FLIT (R478). -/
def execTizalFlit (w : Writer) (port : W16) (s : State) : Host.Outcome State Fault Refusal := .next (injectWrite w s port 8 0 0)
/-- CTX_STORE_2 (R478). -/
def execCtxStore2 (w : Writer) (tile : W16) (s : State) : Host.Outcome State Fault Refusal := .next (injectWrite w s tile 9 0 0)

end Sys2Proof.Machine
end

