-- ==== Sys2Proof/Machine/Power.lean ====
section
/-!
DEFINITION. Input, rails, power states, budgets, thermal limits and the alert (chapter 19).
-/
namespace Sys2Proof.Machine
open Sys2Proof

/-- A record of the power manager that names no rail: the spec gives its source no value, so it is open. -/
def putPowerErr (s : State) (cause : Byte) (sev : BitVec 2) : State :=
  let (f, s) := freshWord s
  putErr s { cause, sev, unit := 10, source := f.setWidth 16, die := 15 }

/-! ## The alert (R568, R569) -/

/-- Conditions of POWER.ALERT_SRC that hold now. -/
def alertHolds (s : State) : BitVec 6 :=
  let short := (List.range 29).any fun r => decide (popCount (railGood r (getRail s r)) < railNeeded r)
  let quarter := (List.range 24).any fun i => diePresent s (i / 2) && decide ((getHalf s i).thermal = 2)
  let trip := (List.range 12).any fun d => diePresent s d && !dieReady s d && decide ((getDie s d).cause = 6)
  at' 6 0 (b2 (decide (2 ≤ s.power.st.toNat) && decide (s.power.vin.toNat < 3200))) ||| at' 6 1 (b2 short) ||| at' 6 2 (b2 quarter)
  ||| at' 6 3 (b2 trip) ||| at' 6 4 (b2 s.power.scaled) ||| at' 6 5 (b2 s.mod.fatal)

/-- Bits of POWER.ALERT_SRC set. -/
def alertSet (s : State) (b : BitVec 6) : State := { s with power := { s.power with alertSrc := s.power.alertSrc ||| b } }

/-- A write of POWER.ALERT_SRC: bits written as 1 clear; one whose condition still holds is set again (R569). -/
def writeAlertSrc (s : State) (v : W32) : State :=
  { s with power := { s.power with alertSrc := (s.power.alertSrc &&& ~~~ fld v 0 6) ||| alertHolds s } }

/-- MOD_ALERT_N is asserted (R568). -/
def alertOut (s : State) : Bool := s.mod.fatal || decide (s.power.alertSrc &&& s.power.alertMask &&& 0x1F ≠ 0)

/-! ## Registers (R569) -/

/-- A write of POWER.CFG. -/
def writePowerCfg (s : State) (v : W32) : State × Byte :=
  let cap := fldN v 21 11
  let peak := fldN v 10 11
  if 100 ≤ cap ∧ cap ≤ 680 ∧ cap ≤ peak ∧ peak ≤ 760 then ({ s with power := { s.power with cfg := v &&& 0xFFFFFE00 } }, stOk) else (s, stInvalid)

/-- POWER_CFG_WRITE (R569). -/
def execPowerCfgWrite (_w : Writer) (value : W32) (s : State) : Host.Outcome State Fault Refusal := .next (finish (writePowerCfg s value))

/-- A write of THERM.CFG. -/
def writeThermCfg (s : State) (v : W32) : State × Byte :=
  if fldN v 24 8 < fldN v 16 8 ∧ fldN v 16 8 < fldN v 8 8 ∧ fldN v 8 8 ≤ 115 then ({ s with power := { s.power with therm := v &&& 0xFFFFFF00 } }, stOk)
  else (s, stInvalid)

/-- THERM_CFG_WRITE (R569). -/
def execThermCfgWrite (w : Writer) (value : W32) (s : State) : Host.Outcome State Fault Refusal :=
  .next (finish (secureWrite w (winAddr 0x2081 0 0) s fun s => writeThermCfg s value))

/-! ## POWER.CTL (R555, R557) -/

/-- POWER_START (R555): from STANDBY; in any other state without effect. -/
def execPowerStart (_w : Writer) (f : StartFound) (s : State) : Host.Outcome State Fault Refusal := .next (setStatus (powerUp s f) stOk)

/-- Every compute die held in reset with what it holds gone, the ports OFF, the network empty (R555). -/
def holdDies (s : State) : State :=
  let s := (List.range 12).foldl (fun s d =>
    if diePresent s d then resetHalf (resetHalf (setDieSt s d fun x => { wipeDie x with st := .held, heldAt := s.mod.time }) d false) d true else s) s
  let s := (List.range 12).foldl (fun s n => if (getStack s n).st = .offline then s else loseStack s n) s
  let s := (List.range 24).foldl (fun s p => if (getPort s p).st = .off then s else setPort s p fun _ => flashPort s p) s
  settleInval { s with
    tiles := [], hbm := []
    gather := { s.gather with opened := [] }
    mod := { s.mod with ucie := 0, invalWait := [] }
    net := emptyNet s.net }

/-- STANDBY (R555, R557): refused while a job context is loaded. -/
def powerStandby (s : State) : State × Byte :=
  if jobs4.any fun j => decide ((getJob s j).st ≠ .unloaded) then (s, stCfgBusy)
  else if s.power.st = 1 then (s, stOk)
  else (setModSt (holdDies (railsOff s)) fun m => { m with st := .standby, step := 2 }, stOk)

/-- POWER_STANDBY (R555). -/
def execPowerStandby (_w : Writer) (s : State) : Host.Outcome State Fault Refusal := .next (finish (powerStandby s))

/-! ## The input (R549, R556) -/

/-- A loss of input power (R437, R549): everything at its reset values and every rail off; the voltage left is open. -/
def powerLoss (s : State) : State :=
  let up := s.mod.resetN
  let (f, s) := freshWord (moduleReset s)
  { s with
    mod := { s.mod with resetN := up }
    power := { s.power with vin := BitVec.ofNat 16 (f.toNat % 3001) } }

/-- INPUT_LOW (R549): below 32.0 V and above the falling lockout for more than 1 ms. -/
def execInputLow (vin : W16) (s : State) : Host.Outcome State Fault Refusal :=
  .next (
    if islandUp s && decide (2900 < vin.toNat) && decide (vin.toNat < 3200) then
      putPowerErr (alertSet { s with power := { s.power with vin } } 0x01) cInputRange 1
    else s)

/-- UVLO_FALL (R549): the falling lockout turns every rail off. -/
def execUvloFall (s : State) : Host.Outcome State Fault Refusal := .next (powerLoss s)

/-- INPUT_OVERVOLTAGE (R549): the main rails turn off with INPUT_FAIL, FATAL; above 48.0 V the management island goes too. -/
def execInputOvervoltage (island : Bool) (s : State) : Host.Outcome State Fault Refusal :=
  .next (if !islandUp s || !island then powerLoss s else putPowerErr s cInputFail 3)

/-- INPUT_IN_RANGE (R438, R549, R556): the input lies in its range: boot begins if MOD_RESET_N is high and it has waited; a paused ramp goes
on. -/
def execInputInRange (vin : W16) (f : StartFound) (s : State) : Host.Outcome State Fault Refusal :=
  .next (
    if 3200 ≤ vin.toNat ∧ vin.toNat ≤ 4000 then
      let s := { s with power := { s.power with vin } }
      if s.mod.resetN && decide (s.mod.st = .boot) && decide (s.mod.step = 0) then boot s f
      else if s.power.paused then rampUp s f
      else s
    else s)

/-! ## Rails and phases (R551, R552) -/

/-- RAIL_EXCURSION (R551): of a rail in regulation. -/
def execRailExcursion (rail : Fin 29) (s : State) : Host.Outcome State Fault Refusal :=
  .next (
    let r := rail.val
    if (getRail s r).st ≠ 2 then s
    else
      let s' := putRail s r { getRail s r with st := 3, backAt := none }
      if r < 24 then loseDie (putErr s' (railErr cRailExcursion 1 r 0xFF)) (r % 12) 4
      else if r < 28 then putErr s' (railErr cRailFatal 3 r 0xFF)
      else powerLoss s)

/-- RAIL_REGULATION_RETURN (R551): the rail is back in regulation; a rejoin waits 1 ms from here. -/
def execRailRegulationReturn (rail : Fin 29) (s : State) : Host.Outcome State Fault Refusal :=
  .next (
    let x := getRail s rail
    if x.st = 3 then putRail s rail { x with st := 2, backAt := some s.mod.time } else s)

/-- PHASE_FAULT (R552): a good phase is shed until module reset; PHASE_SHORT when too few are left. -/
def execPhaseFault (rail : Fin 29) (phase : BitVec 4) (s : State) : Host.Outcome State Fault Refusal :=
  .next (
    let r := rail.val
    let x := getRail s r
    if bitAt (railGood r x) phase.toNat && decide (x.st ≠ 0) then
      let x := { x with shed := setFld x.shed phase.toNat 1 1, on := setFld x.on phase.toNat 1 0 }
      let s := putErr (putRail s r x) (railErr cPhaseShed 0 r phase.toNat)
      if popCount (railGood r x) < railNeeded r then putErr (alertSet s 0x02) (railErr cPhaseShort 1 r 0xFF) else s
    else s)

/-! ## Budgets (R552, R553, R558-R560) -/

/-- A tile lends its budget to its die's pool: a loan once accepted stands until the core wakes (R256, R258). -/
def tileLends (s : State) (t : W16) : Bool :=
  let x := getTile s t
  match runningCtx x with
  | some j => (match (getCtx x j).wait with | some w => decide (w.pwr = .lend) | none => false)
  | none => false

/-- Present dies. -/
def presentDies (s : State) : List Nat := (List.range 12).filter (diePresent s)

/-- Logical tiles of a die. -/
def dieTiles (s : State) (d : Nat) : Nat := (getHalf s (2 * d)).map.length + (getHalf s (2 * d + 1)).map.length

/-- A die's budget in mW (R552, R558, R560): the base and the loans of its lending tiles, capped by its VCORE phases, scaled once the peak
allowance was empty. -/
def dieBudget (s : State) (pFixed pin : Nat) (d : Nat) : Nat :=
  let base := (pEff s - pFixed) / Nat.max 1 (presentDies s).length
  let lenders := ((presentTiles s).filter fun t => decide (tDie t = d) && tileLends s t).length
  let b := base + lenders * base / Nat.max 1 (dieTiles s d)
  let good := popCount (railGood d (getRail s d))
  let b := if good < railNeeded d then Nat.min b (35625 * good) else b
  if s.power.scaled && decide (0 < pin) then b * pEff s / pin else b

/-- CLK.HALF.LIMIT: the slower of the thermal and the power limit (R431, R559). -/
def putLimits (s : State) (i : Nat) (h : Half) : State :=
  putHalf s i { h with limit := if h.thermal.toNat < h.power.toNat then h.power else h.thermal }

/-- A die's evaluation (R559): demands of its halves scaled to full step, in mW; a half that is at 1/4 step already is not slowed further. -/
def evalDie (b : Nat) (d d0 d1 : Nat) (s : State) : State :=
  let h0 := getHalf s (2 * d)
  let h1 := getHalf s (2 * d + 1)
  let a0 := d0 / 2 ^ h0.step.toNat
  let a1 := d1 / 2 ^ h1.step.toNat
  if b < a0 + a1 then
    let s := putHalf s (2 * d) { h0 with spare8 := 0 }
    let h0 := { h0 with spare8 := 0 }
    if d1 ≤ d0 then putLimits s (2 * d) { h0 with power := if h0.power.toNat < 2 then h0.power + 1 else h0.power }
    else putLimits s (2 * d + 1) { h1 with power := if h1.power.toNat < 2 then h1.power + 1 else h1.power }
  else
    let first := decide (d0 ≤ d1)
    let up := if first then (if h0.power = 0 then a0 else 2 * a0) + a1 else a0 + (if h1.power = 0 then a1 else 2 * a1)
    if 10 * up ≤ 9 * b then
      if h0.spare8 + 1 < 8 then putHalf s (2 * d) { h0 with spare8 := h0.spare8 + 1 }
      else
        let s := putHalf s (2 * d) { h0 with spare8 := 0 }
        if first then putLimits s (2 * d) { h0 with spare8 := 0, power := if h0.power = 0 then 0 else h0.power - 1 }
        else putLimits s (2 * d + 1) { h1 with power := if h1.power = 0 then 0 else h1.power - 1 }
    else putHalf s (2 * d) { h0 with spare8 := 0 }

/-- Light-load shedding (R553): how many good phases a rail's load needs is open, at least one. -/
def shedLight (s : State) (r : Nat) : State :=
  let x := getRail s r
  if x.st ≠ 2 then s
  else if bitAt s.power.cfg 9 then
    let (f, s) := freshWord s
    let good := (List.range 16).filter fun k => bitAt (railGood r x) k
    let on := good.take (1 + f.toNat % Nat.max 1 good.length)
    putRail s r { x with on := on.foldl (fun v k => setFld v k 1 1) 0 }
  else putRail s r { x with on := railGood r x }

/-- The peak allowance after one evaluation (R560). -/
def evalPeak (s : State) (pin : Nat) : State :=
  let size := allowSize s
  let a := if pEff s < pin then s.power.allowance - (pin - pEff s) else Nat.min size (s.power.allowance + (pEff s - pin))
  let empty := decide (a = 0) && decide (pEff s < pin)
  let pct := if size = 0 then 100 else a * 100 / size
  let s := { s with power := { s.power with allowance := a, allow := BitVec.ofNat 8 (Nat.min 100 pct), scaled := empty } }
  if empty then alertSet s 0x10 else s

/-- Input power above the peak slows every half by one step (R560). -/
def slowAll (s : State) : State :=
  ((List.range 24).filter fun i => diePresent s (i / 2)).foldl
    (fun s i => let h := getHalf s i; putLimits s i { h with power := if h.power.toNat < 2 then h.power + 1 else h.power }) s

/-- BUDGET_EVAL (R558-R560): measured input current and power, the fixed power, and each die's demands. -/
def execBudgetEval (iin pin pFixed : W16) (demand : List (Nat × Nat)) (s : State) : Host.Outcome State Fault Refusal :=
  .next (
    if s.power.st ≠ 3 then s
    else
      let p := 1000 * pin.toNat
      let bs := (List.range 12).map fun d => dieBudget s (1000 * pFixed.toNat) p d
      let s := (readyDies s).foldl (fun s d =>
        match demand[d]? with
        | some (d0, d1) => evalDie (nth 0 bs d) d d0 d1 s
        | none => s) s
      let s := evalPeak { s with power := { s.power with iin, pin } } p
      let s := (List.range 28).foldl shedLight s
      if pPeak s < p then slowAll s else s)

/-! ## Thermal limits (R561-R563) -/

/-- A half's thermal limit from its hottest sensor: each limit is lifted 3 °C below its threshold. -/
def thermalStep (s : State) (old : BitVec 2) (t : Nat) : BitVec 2 :=
  let th := fldN s.power.therm 24 8
  let tq := fldN s.power.therm 16 8
  if decide (tq ≤ t) || (decide (old = 2) && decide (tq < t + 3)) then 2
  else if decide (th ≤ t) || (decide (1 ≤ old.toNat) && decide (th < t + 3)) then 1
  else 0

/-- The sensors of one die: limits, stack throttling, trip (R562). -/
def sampleDie (s : State) (d : Nat) (v : Byte × Byte × Byte) : State :=
  let (a, b, m) := v
  let s := modDie s d fun x => { x with thermDie := at' 64 56 a ||| at' 64 48 b ||| at' 64 40 m }
  let h0 := getHalf s (2 * d)
  let h1 := getHalf s (2 * d + 1)
  let s := putLimits s (2 * d) { h0 with thermal := thermalStep s h0.thermal a.toNat }
  let s := putLimits s (2 * d + 1) { h1 with thermal := thermalStep s h1.thermal b.toNat }
  let s := if (getHalf s (2 * d)).thermal = 2 ∨ (getHalf s (2 * d + 1)).thermal = 2 then alertSet s 0x04 else s
  let k := getStack s d
  let hot := if 105 < m.toNat then true else if m.toNat < 100 then false else k.hot
  let s := putStack s d { k with hot, halfRate := decide (95 < m.toNat) }
  let top := Nat.max a.toNat b.toNat
  let s := if top < fldN s.power.therm 24 8 then modDie s d fun x => { x with tripped := false } else s
  if fldN s.power.therm 8 8 ≤ top ∧ ((getDie s d).st = .ready ∨ (getDie s d).st = .joining) then
    let s := putErr (alertSet s 0x08) { dieErr s cThermalTrip 1 d with detail := 6 }
    modDie (loseDie s d 6) d fun x => { x with tripped := true }
  else s

/-- THERMAL_SAMPLE (R561-R563): the sensors of each die, and the hottest of the control die and the base dies. -/
def execThermalSample (dies : List (Byte × Byte × Byte)) (control : Byte) (s : State) : Host.Outcome State Fault Refusal :=
  .next (
    if s.power.st ≠ 3 then s
    else
      let s := (presentDies s).foldl (fun s d => match dies[d]? with | some v => sampleDie s d v | none => s) s
      if 110 < control.toNat then putPowerErr s cRailFatal 3 else s)

end Sys2Proof.Machine
end

