-- ==== Sys2Proof/Machine/Security.lean ====
section
/-!
DEFINITION. Region entries, staging, attestation, challenges and command tokens, JTAG (chapter 17).
-/
namespace Sys2Proof.Machine
open Sys2Proof

/-! ## Region entries (R485, R488) -/

/-- Bits of a region entry that are fields of its kind (R485). -/
def regionMask (v : BitVec 128) : BitVec 128 :=
  if bitAt v 126 then maskAt 128 124 4 ||| maskAt 128 32 16 ||| maskAt 128 0 16
  else maskAt 128 124 4 ||| maskAt 128 32 19 ||| maskAt 128 0 19

/-- A write of a region entry: a locked one completes with CFG_BUSY. -/
def writeRegion (s : State) (e : BitVec 6) (v : BitVec 128) : State × Byte :=
  if bitAt (mget 0 s.regions e.toNat) 124 then (s, stCfgBusy)
  else ({ s with regions := mset 0 s.regions e.toNat (v &&& regionMask v) }, stOk)

/-- REGION_WRITE (R485, R488). -/
def execRegionWrite (w : Writer) (entry : BitVec 6) (value : BitVec 128) (s : State) : Host.Outcome State Fault Refusal :=
  .next (finish (secureWrite w (winAddr 0x1216 entry.toNat 0) s fun s => writeRegion s entry value))

/-! ## Staging (R500, R501) -/

/-- The slot that is not running holds three images that verify (R500). -/
def slotVerifies (s : State) (slot : Bool) : Bool :=
  [imgIsland, imgMgmt, imgDiectl].all fun t => match stagedImage s.fw slot t with | some i => (imageRefusal s i t).isNone | none => false

/-- The APP image is verified and measured before the application cores are released; a refused one keeps them in reset (R501, R502). -/
def stageApp (s : State) (i : Image) : State :=
  match imageRefusal s i imgApp with
  | some d => putErr { s with fw := { setMeas s.fw imgApp 0 with appImage := none } } (islandErr cImageRefused 1 d)
  | none => measureChain { s with fw := { setMeas s.fw imgApp (Config.sha512 i.manifest) with appImage := some i } }

/-- An image staged into the slot not running, or the APP image into the reserve. -/
def stageImage (s : State) (i : Image) : State × Byte :=
  let t := i.typ.toNat
  if t = 0 ∨ 4 < t then (s, stNoSub)
  else if t = imgApp then (stageApp s i, stOk)
  else if s.fw.standby = 3 then (s, stCfgBusy)
  else
    let slot := !s.fw.slot
    let put (l : List Image) : List Image := (l.filter fun k => decide (k.typ.toNat ≠ t)) ++ [i]
    let s := { s with fw := { s.fw with slotA := if slot then s.fw.slotA else put s.fw.slotA, slotB := if slot then put s.fw.slotB else s.fw.slotB } }
    let s := if slotVerifies s slot then
        { s with fw := { s.fw with markA := if slot then s.fw.markA else 1, markB := if slot then 1 else s.fw.markB } }
      else s
    (s, stOk)

/-- IMAGE_STAGE (R500, R501). -/
def execImageStage (_w : Writer) (img : Image) (s : State) : Host.Outcome State Fault Refusal := .next (finish (stageImage s img))

/-- A write of the APP commit entry (R501): 1 raises the APP counter to the image's SVN. -/
def appCommit (s : State) (v : W32) : State × Byte :=
  if v ≠ 1 then (s, stInvalid)
  else match s.fw.appImage with
    | some i => ({ s with sec := { s.sec with svnApp := maxW s.sec.svnApp i.svn } }, stOk)
    | none => (s, stOk)

/-- APP_COMMIT (R501). -/
def execAppCommit (w : Writer) (value : W32) (s : State) : Host.Outcome State Fault Refusal := .next (finish (secureWrite w (winAddr 0x1215 0 0) s fun s => appCommit s value))

/-! ## Attestation (R504, R505) -/

/-- Tokens are refused for 60 s from the sixteenth refusal (R510). -/
def lockedOut (s : State) : Bool := match s.sec.lockoutAt with | some t => decide (now s < t.toNat + 60000000000) | none => false

/-- SEC.STATE (R513). -/
def secStateReg (s : State) : W32 :=
  let n := (s.sec.refusals.filter fun t => decide (now s < t.toNat + 60000000000)).length
  at' 32 31 (b2 s.sec.owner.isSome) ||| at' 32 30 (b2 (lockedOut s)) ||| at' 32 28 s.sec.keyRevoke ||| at' 32 16 (BitVec.ofNat 8 (Nat.min n 255))

/-- The report body (R504). -/
def reportBody (s : State) (nonce : BitVec 256) : BitVec 4096 :=
  let m (t : Nat) : BitVec 512 := measOf s.fw t
  at' 4096 4064 (1 : W32) ||| at' 4096 3936 Config.deviceDigest ||| at' 4096 3680 nonce ||| at' 4096 3616 s.mod.time
  ||| at' 4096 3104 (m imgIsland) ||| at' 4096 2592 (m imgMgmt) ||| at' 4096 2080 (m imgDiectl) ||| at' 4096 1568 (m imgApp)
  ||| at' 4096 1056 (mConfig s)
  ||| at' 4096 1024 s.sec.svnIsland ||| at' 4096 992 s.sec.svnMgmt ||| at' 4096 960 s.sec.svnDiectl ||| at' 4096 928 s.sec.svnApp
  ||| at' 4096 896 (if s.sec.owner.isSome then s.sec.ownerGen else 0) ||| at' 4096 864 s.mod.mapTag ||| at' 4096 848 (0x00A0 : W16)
  ||| at' 4096 836 s.mod.present ||| at' 4096 835 (b2 (decide (s.fw.standby = 3))) ||| at' 4096 834 (b2 s.fw.slot)
  ||| at' 4096 833 (b2 s.sec.owner.isNone)

/-- A nonce written (R504, R505): BUSY while a report is being prepared; the body is fixed and signed from here. -/
def writeNonce (s : State) (n : BitVec 256) : State × Byte :=
  if s.sec.preparing then (s, stBusy)
  else
    let body := toLE 512 (reportBody s n).toNat
    ({ s with sec := { s.sec with nonce := n, preparing := true, reportTime := s.mod.time, report := body ++ Config.aliasSign s.sec.cdi2 body } }, stOk)

/-- ATTEST_NONCE_WRITE (R504, R505). -/
def execAttestNonceWrite (nonce : BitVec 256) (s : State) : Host.Outcome State Fault Refusal := .next (finish (writeNonce s nonce))

/-- ATTEST_REPORT_READY (R505): the report can be read. -/
def execAttestReportReady (s : State) : Host.Outcome State Fault Refusal := .next { s with sec := { s.sec with preparing := false } }

/-! ## Challenges and tokens (R507-R510) -/

/-- A new challenge of 16 random bytes, in force from now (R508). -/
def newChallenge (s : State) : BitVec 128 × State :=
  let (a, s) := freshWord s
  let (b, s) := freshWord s
  let c : BitVec 128 := at' 128 64 a ||| at' 128 0 b
  (c, { s with sec := { s.sec with challenge := some (c, s.mod.time) } })

/-- CHALLENGE_READ (R508). -/
def execChallengeRead (s : State) : Host.Outcome State Fault Refusal := .next (setStatus (newChallenge s).2 stOk)

/-- The challenge in force: at most 60 s old (R508). -/
def liveChallenge (s : State) : Option (BitVec 128) :=
  match s.sec.challenge with
  | some (c, t) => if now s < t.toNat + 60000000000 then some c else none
  | none => none

/-- CHALLENGE_EXPIRE (R508). -/
def execChallengeExpire (s : State) : Host.Outcome State Fault Refusal :=
  .next (if (liveChallenge s).isNone then { s with sec := { s.sec with challenge := none } } else s)

/-- LOCKOUT_END (R510): 60 s after it began. -/
def execLockoutEnd (s : State) : Host.Outcome State Fault Refusal :=
  .next (match s.sec.lockoutAt with
    | some t => if t.toNat + 60000000000 ≤ now s then { s with sec := { s.sec with lockoutAt := none } } else s
    | none => s)

/-- One item of a WRITE token (R507): index, subindex, value bytes. -/
structure TokItem where
  index : W16
  sub : BitVec 8
  value : List Byte
deriving DecidableEq, Repr

/-- The items of a WRITE body; none where it does not parse. -/
def tokItems : Nat → List Byte → Option (List TokItem)
  | 0, bs => if bs.isEmpty then some [] else none
  | n + 1, bs =>
    let h : W64 := BitVec.ofNat 64 (leNat (bs.take 8))
    let len := fldN h 0 32
    let pad := (len + 7) / 8 * 8
    if bs.length < 8 + pad ∨ fldN h 32 8 ≠ 0 ∨ ((bs.drop (8 + len)).take (pad - len)).any (· ≠ 0) then none
    else (tokItems n (bs.drop (8 + pad))).map fun r => { index := fld h 48 16, sub := fld h 40 8, value := (bs.drop 8).take len } :: r

/-- FORMAT, KIND, reserved fields, COUNT and BODY_LEN agree with R507. -/
def tokFormOk (t : Token) : Bool :=
  decide (t.format = 1) && t.rsvZero && decide (t.bodyLen.toNat = t.body.length) && decide (t.body.length % 8 = 0)
  && decide (t.body.length ≤ 16384)
  && (match t.kind.toNat with
    | 1 => decide (1 ≤ t.count.toNat) && decide (t.count.toNat ≤ 64) && (tokItems t.count.toNat t.body).isSome
    | 2 | 3 => decide (t.count = 0) && decide (t.body.length = 1984)
    | 4 => decide (t.count = 0) && t.body.isEmpty
    | _ => false)

/-- The bytes that the signatures cover: header and body (R507, R5). -/
def tokBytes (t : Token) : List Byte :=
  let h : BitVec 512 := at' 512 496 t.format ||| at' 512 488 t.kind ||| at' 512 352 t.device ||| at' 512 224 t.nonce
    ||| at' 512 192 t.ownerGen ||| at' 512 176 t.count ||| at' 512 160 t.bodyLen
  toLE 64 h.toNat ++ t.body

/-- Both signatures verify with the keys that R507 names. -/
def tokSigOk (s : State) (t : Token) : Bool :=
  if t.kind = 2 then
    (List.range 4).any fun k => decide (s.sec.keyRevoke.toNat ≤ k) && Config.sigOk (Config.romKeys (BitVec.ofNat 2 k)) (tokBytes t) t.sigs
  else match s.sec.owner with
    | some keys => Config.sigOk keys (tokBytes t) t.sigs
    | none => false

/-- The OWNER_GEN check of R509. -/
def tokGenOk (s : State) (t : Token) : Bool :=
  match t.kind.toNat with
  | 2 => s.sec.owner.isNone && decide (s.sec.ownerGen.toNat < t.ownerGen.toNat)
  | 3 => decide (s.sec.ownerGen.toNat < t.ownerGen.toNat)
  | _ => s.sec.owner.isSome && decide (t.ownerGen = s.sec.ownerGen)

/-- The first of checks 1 to 5 that fails (R509). -/
def tokRefusal (s : State) (t : Token) : Option Byte :=
  if !tokFormOk t then some 1
  else if t.device ≠ Config.deviceDigest then some 2
  else if t.kind ≠ 2 ∧ liveChallenge s ≠ some t.nonce then some 3
  else if !tokGenOk s t then some 4
  else if !tokSigOk s t then some 5
  else none

/-- A token refused: TOKEN_REFUSED with its DETAIL; the sixteenth within 60 s begins a lockout (R509, R510). -/
def refuseToken (s : State) (d st : Byte) : State :=
  let rs := (s.sec.refusals.filter fun t => decide (now s < t.toNat + 60000000000)) ++ [s.mod.time]
  let s := { s with sec := { s.sec with
    refusals := rs, lastTokenStatus := st
    lockoutAt := if lockedOut s then s.sec.lockoutAt else if 16 ≤ rs.length then some s.mod.time else none } }
  setStatus (putErr s (islandErr cTokenRefused 1 d)) st

/-- The challenge that a token carries is spent, whether it is accepted or refused (R508, R509). -/
def spendChallenge (s : State) (t : Token) : State :=
  if t.kind ≠ 2 ∧ liveChallenge s = some t.nonce then { s with sec := { s.sec with challenge := none } } else s

/-- A token under checks 1 to 6; then what its kind does (R509, R510). -/
def checkToken (s : State) (t : Token) (act : State → State) : State :=
  if lockedOut s then refuseToken s 6 cTokenRefused
  else match tokRefusal s t with
    | some d => refuseToken (if 3 ≤ d.toNat then spendChallenge s t else s) d cTokenRefused
    | none => act (spendChallenge s t)

/-- A token accepted. -/
def acceptToken (s : State) : State := setStatus { s with sec := { s.sec with lastTokenStatus := stOk } } stOk

/-- CLAIM and ROTATE: OWNER_GEN raised, then the new owner record (R509). -/
def newOwner (s : State) (t : Token) : State :=
  acceptToken { s with sec := { s.sec with ownerGen := t.ownerGen, owner := some t.body }, flash := { s.flash with gen := s.flash.gen + 1 } }

/-- A token of a row's kind: its KIND field where it holds one of the four kinds (R507). -/
def ofKind (k : Byte) (t : Token) : Token := { t with kind := if t.kind = 0 ∨ 4 < t.kind.toNat then t.kind else k }

/-- TOKEN_CLAIM (R507, R509). -/
def execTokenClaim (t : Token) (s : State) : Host.Outcome State Fault Refusal := .next (checkToken s (ofKind 2 t) fun s => newOwner s t)

/-- TOKEN_ROTATE (R507, R509). -/
def execTokenRotate (t : Token) (s : State) : Host.Outcome State Fault Refusal := .next (checkToken s (ofKind 3 t) fun s => newOwner s t)

/-- DECOMMISSION: the owner record and every sealed secret erased (R509). -/
def decommission (s : State) : State :=
  acceptToken { s with sec := { s.sec with owner := none }, flash := { s.flash with gen := s.flash.gen + 1 } }

/-- TOKEN_DECOMMISSION (R507, R509). -/
def execTokenDecommission (t : Token) (s : State) : Host.Outcome State Fault Refusal := .next (checkToken s (ofKind 4 t) decommission)

/-! ## JTAG (R511) -/

/-- IDCODE: version 0, part 0x1216, the JEP106 code 0x73B, 1 (R511, R542). -/
def idcode : W64 := 0x01216E77

/-- EXTEST drives the pins: while MOD_RESET_N is low or MOD.STATE is STANDBY or FAILED. -/
def jtagDrives (s : State) : Bool := decide (s.jtag.instr = 3) && (!s.mod.resetN || decide (s.mod.st = .standby ∨ s.mod.st = .failed))

/-- JTAG_BYPASS: any other instruction code. -/
def execJtagBypass (_code : BitVec 8) (s : State) : Host.Outcome State Fault Refusal := .next { s with jtag := { s.jtag with instr := 0, tdo := 0 } }

/-- JTAG_IDCODE. -/
def execJtagIdcode (s : State) : Host.Outcome State Fault Refusal := .next { s with jtag := { s.jtag with instr := 1, tdo := idcode } }

/-- JTAG_SAMPLE_PRELOAD: the pins are shifted out and the boundary register loaded. -/
def execJtagSamplePreload (pins load : W64) (s : State) : Host.Outcome State Fault Refusal :=
  .next { s with jtag := { instr := 2, boundary := load, tdo := pins } }

/-- JTAG_EXTEST: drives the boundary register where it may, and acts as BYPASS elsewhere. -/
def execJtagExtest (s : State) : Host.Outcome State Fault Refusal :=
  .next (
    let s' := { s with jtag := { s.jtag with instr := 3 } }
    if jtagDrives s' then s' else { s with jtag := { s.jtag with instr := 3, tdo := 0 } })

end Sys2Proof.Machine
end

