-- ==== Sys2Proof/Machine/Regs.lean ====
section
/-!
DEFINITION. The entries of the object dictionary: their indices, types, access, scope and the objects they need (R515-R521, R542-R546, R570).
-/
namespace Sys2Proof.Machine
open Sys2Proof

/-- The entries, with the die, half, edge, stack, port, job, entry or object number that index and subindex give; k is the place in a group of
registers as the reference tables list it (R542-R546, R570). -/
inductive Reg where
  /-- 0x1000: part number, stepping, JEP106, IDCODE, digest, SLOT_ID, MGMT version. -/
  | ident (k : Nat)
  | tileCount (h : Nat)
  | mapGen (h : Nat)
  | mapTag
  | storeCmd
  /-- 0x1011: event address, port, minimum severity, kind mask. -/
  | event (k : Nat)
  /-- 0x1012: requests, repeats, dropped, events sent, events lost. -/
  | count (k : Nat)
  | plcaNode
  /-- ERR.LOG.HEAD, TAIL, LOST. -/
  | errLog (k : Nat)
  | logRecord
  | fatalRecord (k : Nat)
  | errCfg
  | errInject
  | fenceCtl
  | fwState
  | fwCtl
  /-- Staging of ISLAND 1, MGMT 2, DIECTL 3, APP 4. -/
  | staging (t : Nat)
  | dirState (slotB : Bool)
  | secState
  | challenge
  | token
  | nonce
  | report
  | certificate (k : Nat)
  | appCommit
  | region (e : Nat)
  | ownerKeys
  | modState
  | modCfg
  | modTime
  | dieCtl
  /-- MESH.CFG, WAIT.CFG, SWITCH.CFG, TZ.NODE.CFG. -/
  | modSet (k : Nat)
  /-- TRN.INVAL_CMD, INVAL_ADDR, INVAL_STATUS. -/
  | inval (k : Nat)
  /-- GATHER.CFG, CTL, OPEN, COMPLETED, ABANDONED, STALE, RESTARTS. -/
  | gather (k : Nat)
  | pubCtl
  | pressAll
  /-- LOSS.CFG, BAND_ABS, AVG, LAST, LAST_STEP, SPIKES, REJECTS. -/
  | loss (k : Nat)
  /-- POWER.CFG, CTL, STATUS, ALERT_SRC, ALERT_MASK. -/
  | power (k : Nat)
  | therm
  | rail (r : Nat)
  | thermDie (d : Nat)
  /-- DIE.ID, STATE, CFG; STREAM.CFG, FAULT_CTL, PARKED, FAULTS, HANDLES_DROPPED, TAGS_STALE. -/
  | die (d k : Nat)
  /-- CLK.HALF, CHANGES. -/
  | half (i k : Nat)
  /-- EDGE.STATUS, REPLAYS. -/
  | edge (e k : Nat)
  /-- HBM.CFG, CTL, STATE, CE_COUNT, UE_COUNT, PATROL_PASSES; the retired frames. -/
  | stack (n k : Nat)
  /-- The distance table. -/
  | dist (k : Nat)
  /-- TZ.PORT.CFG, CTL, STATUS, PARTNER, and its six counters. -/
  | port (p k : Nat)
  | peer (k : Nat)
  | land
  /-- ROCE.MR register, BASE, LEN. -/
  | mr (k : Nat)
  /-- RoCEv2 recovery: period, rise, floor. -/
  | roce (k : Nat)
  /-- JOB.STATE, CTL, IMAGE, SAVE, SAVE_SPAD, LOAD_INFO. -/
  | job (j : BitVec 2) (k : Nat)
  /-- TRN.ROOT, TRN.VIEW, PUB.LATEST. -/
  | trn (j : BitVec 2) (k : Nat)
  /-- WATCH.CLOSE, CLOSE_STATUS, ARM_STEP. -/
  | close (j : BitVec 2) (k : Nat)
  | image (j : BitVec 2)
  /-- GATHER.POST low and high half, POST_CTL, LAYOUT, RESHARD, PIN, RETIRE. -/
  | gpost (j : BitVec 2) (k : Nat)
  /-- JOB.ERR_RING, HEAD, TAIL, LOST. -/
  | ring (j : BitVec 2) (k : Nat)
  /-- WATCH.CFG, OPEN_STEP, EXP, HISTORY, SAT_ALARM, SAT_TOTAL, SAT_LAST, ZERO_STREAK, LATE_COUNT, FLAGS. -/
  | watch (w : BitVec 12) (k : Nat)
  /-- The 18 registers of 0x7000. -/
  | tile (k : Nat)
  /-- TILE.CTX.STATE, CTX_CTL, YIELD, XB_COUNT, YIELD.CURSOR of a context. -/
  | ctx (j : BitVec 2) (k : Nat)
  /-- SLOT.CFG, SLOT.STATUS of slot n. -/
  | slot (n k : Nat)
  /-- ACNT.CFG, ACNT.VALUE of counter n. -/
  | acnt (n k : Nat)
  /-- HQ.CFG, STATUS, CTL of queue n. -/
  | hq (n k : Nat)
  /-- MESH.ROUTE of a tree. -/
  | route (n : BitVec 10)
  /-- WEIR.CFG, STATE, ROUNDS, STALE. -/
  | weir (k : Nat)
  | weirLoad
  /-- STQ.CFG, STATUS, CTL. -/
  | stq (k : Nat)
  /-- REACH.CFG, STRIDE, BASE, NEXT_BASE, STATUS, CTL, DESC0-DESC3. -/
  | reach (k : Nat)
  | tree
  | treeLoad
  | gtree
  /-- SHARD.TAG, VERSION, BASE, LEN. -/
  | shard (k : Nat)
  /-- PUB.CFG, L1_BASE, VERSION. -/
  | pub (k : Nat)
deriving DecidableEq, Repr

/-- n entries that follow each other. -/
def group (n : Nat) (f : Nat → Reg) : List (Option Reg) := (List.range n).map fun k => some (f k)

/-- The entries of an index by subindex, none at a subindex the tables leave out; an empty list for an index that is not held
(R515, R542-R546, R570). The window control of 0x1F00 is not among them. -/
def regSubs (i : Nat) : List (Option Reg) :=
  if i < 0x2000 then
    match i with
    | 0x1000 => group 7 .ident
    | 0x1001 => group 24 .tileCount
    | 0x1002 => group 24 .mapGen ++ [some .mapTag]
    | 0x1010 => [some .storeCmd]
    | 0x1011 => group 4 .event
    | 0x1012 => group 5 .count
    | 0x1013 => [some .plcaNode]
    | 0x1100 => group 3 .errLog
    | 0x1101 => [some .logRecord]
    | 0x1102 => group 16 .fatalRecord
    | 0x1103 => [some .errCfg]
    | 0x1104 => [some .errInject]
    | 0x1105 => [some .fenceCtl]
    | 0x1200 => [some .fwState, some .fwCtl]
    | 0x1201 => [none, some (.staging 1), some (.staging 2), some (.staging 3), some (.staging 4)]
    | 0x1202 => [some (.dirState false), some (.dirState true)]
    | 0x1210 => [some .secState]
    | 0x1211 => [some .challenge]
    | 0x1212 => [some .token]
    | 0x1213 => [some .nonce, some .report]
    | 0x1214 => group 4 .certificate
    | 0x1215 => [some .appCommit]
    | 0x1216 => group 64 .region
    | 0x1217 => [some .ownerKeys]
    | _ => []
  else if i < 0x3000 then
    match i with
    | 0x2000 => [some .modState, some .modCfg, some .modTime]
    | 0x2001 => [some .dieCtl]
    | 0x2002 => group 4 .modSet
    | 0x2003 => group 3 .inval
    | 0x2004 => group 7 .gather
    | 0x2005 => [some .pubCtl]
    | 0x2006 => [some .pressAll]
    | 0x2010 => group 7 .loss
    | 0x2080 => group 5 .power
    | 0x2081 => [some .therm]
    | _ =>
      if 0x2090 ≤ i ∧ i < 0x20AD then [some (.rail (i - 0x2090))]
      else if 0x20C0 ≤ i ∧ i < 0x20CC then [some (.thermDie (i - 0x20C0))] else []
  else if i < 0x4000 then
    if i < 0x300C then group 9 (.die (i - 0x3000))
    else if 0x3010 ≤ i ∧ i < 0x3028 then group 2 (.half (i - 0x3010))
    else if 0x3030 ≤ i ∧ i < 0x3040 then group 2 (.edge (i - 0x3030))
    else if 0x3040 ≤ i ∧ i < 0x304C then group 7 (.stack (i - 0x3040))
    else if i = 0x3100 then group 12 .dist ++ [none, none, none, none] ++ group 12 (fun s => .dist (16 + s))
    else []
  else if i < 0x5000 then
    if i < 0x4018 then group 10 (.port (i - 0x4000))
    else match i with
      | 0x4020 => [none, some (.peer 1), some (.peer 2), some (.peer 3)]
      | 0x4021 => [some .land]
      | 0x4022 => group 3 .mr
      | 0x4023 => group 3 .roce
      | _ => []
  else if i < 0x6000 then
    if i < 0x5400 then
      let j : BitVec 2 := BitVec.ofNat 2 (i / 256 - 0x50)
      match i % 256 with
      | 0 => group 6 (.job j)
      | 1 => group 3 (.trn j)
      | 2 => group 3 (.close j)
      | 3 => [some (.image j)]
      | 4 => group 7 (.gpost j)
      | 5 => group 4 (.ring j)
      | _ => []
    else []
  else if i < 0x7000 then group 10 (.watch (BitVec.ofNat 12 (i - 0x6000)))
  else if i < 0x8000 then
    if i = 0x7000 then group 18 .tile
    else if i < 0x7006 then group 4 fun j => .ctx (BitVec.ofNat 2 j) (i - 0x7001)
    else if 0x7010 ≤ i ∧ i < 0x7012 then group 64 fun n => .slot n (i - 0x7010)
    else if 0x7012 ≤ i ∧ i < 0x7014 then group 64 fun n => .acnt n (i - 0x7012)
    else if 0x7014 ≤ i ∧ i < 0x7017 then group 8 fun n => .hq n (i - 0x7014)
    else if 0x7020 ≤ i ∧ i < 0x7028 then group 128 fun k => .route (BitVec.ofNat 10 (128 * (i - 0x7020) + k))
    else match i with
      | 0x7100 => group 4 .weir
      | 0x7101 => [some .weirLoad]
      | 0x7110 => group 3 .stq
      | 0x7120 => group 10 .reach
      | 0x7130 => [some .tree, some .treeLoad]
      | 0x7140 => [some .gtree]
      | 0x7150 => group 4 .shard
      | 0x7160 => group 3 .pub
      | _ => []
  else []

/-- The entry that an index and a subindex name, or NO_OBJECT or NO_SUBINDEX (R525). A subindex that an index leaves out below its last one
is refused as one beyond it. -/
def regAt (index sub : Nat) : Except Byte Reg :=
  if (regSubs index).isEmpty then .error stNoObject
  else match (regSubs index)[sub]? with
    | some (some r) => .ok r
    | _ => .error stNoSub

/-! ## Types, access and scope (R516-R521) -/

/-- What the reference tables give of an entry: ENTRY.SIZE, TYPE, ACCESS, SEC_WRITE, PERSIST, and whether firmware serves it (R528). -/
structure EntryInfo where
  size : Nat
  typ : Nat
  access : Nat
  secWrite : Bool
  persist : Nat
  firmware : Bool
deriving DecidableEq, Repr

def tyU8 : Nat := 1
def tyU16 : Nat := 2
def tyU32 : Nat := 3
def tyU64 : Nat := 4
def tyOctets : Nat := 9
def tyString : Nat := 10
def tyDomain : Nat := 11
def tyReg : Nat := 12

def acRo : Nat := 0
def acRw : Nat := 1
def acWo : Nat := 3
def acRws : Nat := 4
def acConst : Nat := 5
def acMixed : Nat := 6

/-- A register, VOLATILE. -/
def regOf (size access : Nat) : EntryInfo := { size, typ := tyReg, access, secWrite := false, persist := 1, firmware := false }
/-- A value of another type, VOLATILE. -/
def valOf (typ size access : Nat) : EntryInfo := { size, typ, access, secWrite := false, persist := 1, firmware := false }
/-- A 64-bit counter. -/
def counter : EntryInfo := valOf tyU64 8 acRo
/-- An entry that firmware serves, of a persistence class. -/
def fwOf (typ size access persist : Nat) : EntryInfo := { size, typ, access, secWrite := false, persist, firmware := true }
/-- Only the secure world may write it. -/
def secure (e : EntryInfo) : EntryInfo := { e with secWrite := true }

/-- The i-th of some sizes. -/
def sized (l : List Nat) (k access : Nat) : EntryInfo := regOf (nth 0 l k) access

/-- The type, access and persistence of an entry (R542-R546, R570). -/
def regInfo (r : Reg) : EntryInfo :=
  match r with
  | .ident k =>
    nth (fwOf tyU32 4 acRo 0) [fwOf tyString 16 acConst 0, fwOf tyU16 2 acConst 0, fwOf tyU16 2 acConst 0, fwOf tyU32 4 acConst 0,
      fwOf tyOctets 16 acRo 0, fwOf tyU8 1 acRo 0, fwOf tyU32 4 acRo 0] k
  | .tileCount _ | .mapGen _ => fwOf tyU16 2 acRo 0
  | .mapTag => { valOf tyU32 4 acRo with persist := 0 }
  | .storeCmd => secure (fwOf tyU32 4 acWo 0)
  | .event k => nth (fwOf tyU32 4 acRw 1) [fwOf tyOctets 16 acRw 1, fwOf tyU16 2 acRw 1, fwOf tyU8 1 acRw 1, fwOf tyU32 4 acRw 1] k
  | .count _ => counter
  | .plcaNode => fwOf tyU8 1 acRo 0
  | .errLog k => nth counter [valOf tyU16 2 acRo, valOf tyU16 2 acRw, counter] k
  | .logRecord => fwOf tyOctets 32 acRo 1
  | .fatalRecord _ => fwOf tyOctets 32 acRo 3
  | .errCfg => secure (regOf 4 acMixed)
  | .errInject => { secure (valOf tyU64 8 acWo) with persist := 0 }
  | .fenceCtl => { secure (valOf tyU32 4 acWo) with persist := 0 }
  | .fwState => regOf 4 acMixed
  | .fwCtl => secure (regOf 4 acMixed)
  | .staging t => fwOf tyDomain (if t = 4 then 0xFFFFFFFF else 0x06000000) acWo 0
  | .dirState _ => fwOf tyU8 1 acRo 3
  | .secState => regOf 4 acRo
  | .challenge => fwOf tyOctets 16 acRo 0
  | .token => fwOf tyDomain 19821 acWo 0
  | .nonce => fwOf tyOctets 32 acWo 0
  | .report => fwOf tyDomain 3885 acRo 0
  | .certificate k => fwOf tyDomain (Config.certificate k 0).length acRo (if k < 2 then 3 else 0)
  | .appCommit => secure (fwOf tyU32 4 acWo 0)
  | .region _ => secure (regOf 16 acRws)
  | .ownerKeys => fwOf tyDomain 1984 acRo 3
  | .modState => regOf 4 acMixed
  | .modCfg => { secure (regOf 4 acMixed) with persist := 2 }
  | .modTime => { counter with access := acMixed }
  | .dieCtl => { secure (valOf tyU32 4 acWo) with persist := 0 }
  | .modSet _ => regOf 4 acMixed
  | .inval _ => regOf 8 acMixed
  | .gather k => if k = 0 then regOf 4 acMixed else if k = 1 then regOf 8 acMixed else { counter with access := acMixed }
  | .pubCtl => { regOf 8 acWo with persist := 0 }
  | .pressAll => secure (regOf 4 acRws)
  | .loss k => if k = 0 then regOf 4 acMixed else { counter with access := acMixed }
  | .power k => { sized [4, 4, 8, 4, 4] k acMixed with persist := if k = 0 then 2 else 1 }
  | .therm => secure (regOf 4 acRws)
  | .rail _ | .thermDie _ => regOf 8 acRo
  | .die _ k =>
    if 6 ≤ k then { counter with access := acMixed }
    else { sized [2, 4, 4, 4, 8, 4] k acMixed with secWrite := decide (k = 2) }
  | .half _ k => if k = 0 then regOf 4 acMixed else { counter with access := acMixed }
  | .edge _ k => if k = 0 then regOf 4 acRo else counter
  | .stack _ k =>
    if k = 6 then { valOf tyDomain 8192 acRo with persist := 3, firmware := true }
    else if 3 ≤ k then { counter with access := acMixed }
    else { regOf 4 acMixed with secWrite := decide (k < 2) }
  | .dist _ => regOf 64 acRo
  | .port _ k => if 4 ≤ k then { counter with access := acMixed } else { regOf 4 acMixed with persist := if k = 0 then 2 else 1 }
  | .peer _ | .land => regOf 4 acMixed
  | .mr _ => regOf 8 acMixed
  | .roce _ => valOf tyU32 4 acRw
  | .job _ k => sized [4, 4, 8, 8, 8, 4] k acMixed
  | .trn _ k => sized [8, 8, 4] k acMixed
  | .close _ k => if k = 0 then valOf tyU64 8 acWo else if k = 1 then regOf 4 acMixed else valOf tyU64 8 acRw
  | .image _ => { fwOf tyDomain 0xFFFFFFFF acRw 0 with size := 4096 * 96 + 8 * 64 }
  | .gpost _ k => sized [64, 64, 4, 4, 4, 16, 4] k acMixed
  | .ring _ k => if k = 0 then regOf 8 acMixed else { counter with access := acMixed }
  | .watch _ k => sized [4, 8, 2, 32, 4, 8, 4, 4, 8, 1] k acMixed
  | .tile k => sized [4, 4, 4, 8, 8, 4, 8, 4, 4, 8, 8, 8, 8, 8, 8, 8, 8, 8] k acMixed
  | .ctx _ k => sized [4, 8, 8, 8, 4] k acMixed
  | .slot _ k => sized [8, 4] k acMixed
  | .acnt _ k => sized [4, 8] k acMixed
  | .hq _ _ => regOf 4 acMixed
  | .route _ => regOf 2 acMixed
  | .weir k => sized [4, 4, 8, 8] k acMixed
  | .weirLoad => { fwOf tyDomain (4 + 2 * 18432) acWo 1 with firmware := true }
  | .stq k => sized [8, 4, 4] k acMixed
  | .reach k => sized [8, 8, 8, 8, 4, 4, 64, 64, 64, 64] k acMixed
  | .tree => regOf 4 acMixed
  | .treeLoad => fwOf tyDomain (4 * 18432) acWo 1
  | .gtree => regOf 8 acMixed
  | .shard k => sized [8, 4, 8, 4] k acMixed
  | .pub k => sized [8, 8, 4] k acMixed

/-- ENTRY.SCOPE (R521): 0 MODULE, 1 TILE, 2 OBJECT. -/
def regScope (r : Reg) : Nat :=
  match r with
  | .dist _ | .tile _ | .ctx _ _ | .slot _ _ | .acnt _ _ | .hq _ _ | .route _ => 1
  | .logRecord | .loss _ | .land | .mr _ | .weir _ | .weirLoad | .stq _ | .reach _ | .tree | .treeLoad | .gtree | .shard _ | .pub _ => 2
  | _ => 0

/-- The entry descriptor (R516). -/
def descriptor (index : Nat) (r : Reg) : W64 :=
  let e := regInfo r
  at' 64 32 (BitVec.ofNat 32 e.size) ||| at' 64 28 (BitVec.ofNat 4 e.typ) ||| at' 64 26 (BitVec.ofNat 2 (regScope r))
    ||| at' 64 23 (BitVec.ofNat 3 e.access) ||| at' 64 22 (b2 e.secWrite) ||| at' 64 20 (BitVec.ofNat 2 e.persist)
    ||| at' 64 0 (BitVec.ofNat 8 ((regSubs index).length - 1))

/-! ## The object behind an entry (R521) -/

/-- How many objects of its kind a number of scope OBJECT may name; the objects of the dies are counted die by die. -/
def objCount (r : Reg) : Nat :=
  match r with
  | .loss _ => 8
  | .land => 256
  | .mr _ | .tree | .treeLoad | .shard _ => 1024
  | .weirLoad => 4096
  | .weir _ | .stq _ => 12 * 4096
  | .reach _ => 12 * 1024
  | .gtree => 32
  | .pub _ => 16
  | _ => 0

/-- The compute dies whose reset domain holds an entry (R437, R521). DIE.ID, DIE.STATE, DIE.CFG, EDGE.STATUS and HBM.STATE are held by the
management island, and so are the distance tables and the retired frames. -/
def regDies (r : Reg) (inst : Nat) : List Nat :=
  match r with
  | .die d k => if 3 ≤ k then [d] else []
  | .half i _ => [i / 2]
  | .edge e k => if k = 1 then [(edgeEnds e).1, (edgeEnds e).2] else []
  | .stack n k => if k = 2 ∨ k = 6 then [] else [n]
  | .port p _ => [portDie p]
  | .tile _ | .ctx _ _ | .slot _ _ | .acnt _ _ | .hq _ _ | .route _ => [inst / 2048]
  | .weir _ | .stq _ => [inst / 4096]
  | .reach _ => [inst / 1024]
  | _ => []

/-- The number names no object: NO_OBJECT (R521). -/
def regNamed (s : State) (r : Reg) (inst : Nat) : Bool :=
  match regScope r with
  | 0 => decide (inst = 0)
  | 1 => tilePresent s (BitVec.ofNat 16 inst)
  | _ =>
    match r with
    | .logRecord => s.log.recs.any fun x => decide (x.seq.toNat = inst)
    | _ => decide (inst < objCount r) && (regDies r inst).all (diePresent s)

/-- The refusal of an entry for the object it needs: NO_OBJECT, DIE_LOST, DEST_FENCED (R468, R521). -/
def regGate (s : State) (r : Reg) (inst : Nat) : Option Byte :=
  if !regNamed s r inst then some stNoObject
  else if !(regDies r inst).all (dieReady s) then some cDieLost
  else if regScope r = 1 ∧ (getTile s (BitVec.ofNat 16 inst)).fenced then some cDestFenced
  else none

/-- Entries of other types than REGISTER and counters that accept no write (R518). -/
def plainRo (r : Reg) : Bool :=
  match r with
  | .ident _ | .tileCount _ | .mapGen _ | .mapTag | .plcaNode | .logRecord | .fatalRecord _ | .dirState _ | .challenge | .report | .certificate _
  | .ownerKeys => true
  | .errLog k => decide (k = 0)
  | .stack _ k => decide (k = 6)
  | _ => false

/-- Entries of other types than REGISTER that are WO: a read is refused with ACCESS (R518). -/
def plainWo (r : Reg) : Bool :=
  match r with
  | .storeCmd | .nonce | .appCommit | .errInject | .fenceCtl | .dieCtl | .staging _ | .token | .weirLoad | .treeLoad => true
  | .close _ k => decide (k = 0)
  | _ => false

/-- A DOMAIN entry (R517). -/
def isDomain (r : Reg) : Bool := decide ((regInfo r).typ = tyDomain)

end Sys2Proof.Machine
end

