-- ==== Sys2Proof/Machine/RegRead.lean ====
section
/-!
DEFINITION. What each entry of the object dictionary reads as (R9, R10, R541-R546, R570).
-/
namespace Sys2Proof.Machine
open Sys2Proof

/-! ## The distance table (R241, R242, R541) -/

/-- What a route passes. -/
structure Walk where
  /-- Halves in path order, 2 × die + half, with the mesh hops made in each. -/
  halves : List (Nat × Nat)
  seams : Nat
  edges : Nat
  baseEdges : Nat
  /-- Head latency at full clocks, and at the steps in force, in units of 0.5 ns. -/
  full : Nat
  cur : Nat
deriving DecidableEq, Repr

/-- TCLK at the step of a half, in units of 0.5 ns (R241, R430). -/
def tclkAt (s : State) (h : Nat) : Nat := 2 ^ (getHalf s h).step.toNat

/-- An element of R241 counted in TCLK of a half. -/
def Walk.add (s : State) (w : Walk) (h n : Nat) : Walk := { w with full := w.full + n, cur := w.cur + n * tclkAt s h }

/-- The number of a position's half. -/
def posHalf (p : Pos) : Nat := halfNo p.die p.h1

/-- One hop of the header from p to q. -/
def Walk.hop (s : State) (w : Walk) (p q : Pos) : Walk :=
  let h := posHalf q
  if p.die ≠ q.die then
    let base := decide (dieRow p.die = dieRow q.die) && decide (dieCol p.die / 2 ≠ dieCol q.die / 2)
    let n := if base then 20 else 16
    { w with halves := w.halves ++ [(h, 0)], edges := w.edges + 1, baseEdges := w.baseEdges + (if base then 1 else 0), full := w.full + n, cur := w.cur + n }
  else if p.h1 ≠ q.h1 then
    let t := Nat.max (tclkAt s (posHalf p)) (tclkAt s h)
    { w with halves := w.halves ++ [(h, 0)], seams := w.seams + 1, full := w.full + 8, cur := w.cur + 8 * t }
  else
    Walk.add s { w with halves := w.halves.modify (w.halves.length - 1) fun (e : Nat × Nat) => (e.1, e.2 + 1) } h 2

/-- A block's header followed along its route. -/
def walkRoute (s : State) : Nat → Block → Walk → Walk
  | 0, _, w => w
  | n + 1, b, w =>
    match neighbour b.pos (routePort s b) with
    | some (q, inp) => if routePort s b = 0 then w else walkRoute s n { b with pos := q, inPort := inp } (w.hop s b.pos q)
    | none => w

/-- The route between two positions: injection, hops and crossings, ejection; none where no route is open. -/
def walkPath (s : State) (p q : Pos) : Option Walk :=
  (diePath s p.die q.die).map fun via =>
    let w0 : Walk := Walk.add s { halves := [(posHalf p, 0)], seams := 0, edges := 0, baseEdges := 0, full := 0, cur := 0 } (posHalf p) 4
    Walk.add s (walkRoute s 640 { Block.reset with pos := p, dst := q, via } w0) (posHalf q) 4

/-- DIST of a route (R541). -/
def walkReg (w : Walk) : BitVec 512 :=
  let hs := (List.range 14).foldl (fun (v : BitVec 512) i =>
    match w.halves[i]? with
    | some e => v ||| at' 512 (416 - 32 * i) (BitVec.ofNat 32 (e.1 * 2 ^ 24 + e.2 * 2 ^ 16))
    | none => v) 0
  at' 512 496 (BitVec.ofNat 16 w.cur) ||| at' 512 480 (BitVec.ofNat 16 w.full) ||| at' 512 472 (BitVec.ofNat 8 w.seams)
    ||| at' 512 464 (BitVec.ofNat 8 w.edges) ||| at' 512 456 (BitVec.ofNat 8 w.baseEdges) ||| at' 512 448 (BitVec.ofNat 8 w.halves.length) ||| hs

/-- Entry k of a tile's distance table: k < 16 stack k to the tile, otherwise the tile to stack k - 16; a pair without an open route reads as a
free value, since the spec gives none. -/
def readDist (s : State) (t : W16) (k : Nat) : State × List Byte :=
  let p := posOf s t
  let q : Pos := { die := k % 16, h1 := false, col := p.col, row := 0 }
  match if k < 16 then walkPath s q p else walkPath s p q with
  | some w => (s, toLE 64 (walkReg w).toNat)
  | none => let (bs, s) := freshBytes 64 s; (s, bs)

/-! ## Registers with fields -/

/-- DIE.ID (R13, R428). -/
def dieIdReg (d : Nat) : W16 :=
  at' 16 4 (BitVec.ofNat 4 d) ||| at' 16 3 (BitVec.ofNat 1 (dieRow d)) ||| at' 16 1 (BitVec.ofNat 2 (dieCol d / 2)) ||| at' 16 0 (BitVec.ofNat 1 (dieCol d % 2))

/-- CLK.HALF (R431). -/
def clkHalfReg (h : Half) : W32 := at' 32 4 h.step ||| at' 32 2 h.limit ||| at' 32 0 h.req

/-- EDGE.STATUS (R425). -/
def edgeStatusReg (e : Edge) : W32 :=
  let most := (List.range 24).foldl (fun m l => Nat.max m (mget 0 e.used l)) 0
  at' 32 29 (e.st.setWidth 3) ||| at' 32 24 (BitVec.ofNat 2 (2 - most)) ||| at' 32 0 e.retrained

/-- POWER.STATUS (R569). -/
def powerStatusReg (p : Power) : W64 := at' 64 48 p.vin ||| at' 64 32 p.iin ||| at' 64 16 p.pin ||| at' 64 8 p.allow ||| at' 64 0 p.st

/-- RAIL.STATUS (R569). -/
def railStatusReg (s : State) (r : Nat) : W64 :=
  let x := getRail s r
  at' 64 48 (railGood r x) ||| at' 64 32 x.on ||| at' 64 30 x.st ||| at' 64 0 (BitVec.ofNat 8 (railNeeded r))

/-- GATHER.LAYOUT (R387). -/
def layoutReg (g : JobRegs) : W32 := at' 32 30 g.layoutSt ||| at' 32 0 g.layoutEpoch

/-- XCH.ERR_PENDING (R240). -/
def errPendingReg (x : Tile) : W64 :=
  (List.range 64).foldl (fun (v : W64) k => if (getAcnt x k).err.isSome then v ||| at' 64 k (1 : BitVec 1) else v) 0

/-- XCH.ERR_LAST (R240). -/
def errLastReg (x : Tile) : W64 := at' 64 6 x.regs.errLastCause ||| at' 64 0 x.regs.errLastAcnt

/-- Contexts of a tile whose HQ.PUSH on a queue waits for a place (R156, R285). -/
def pushesWaiting (x : Tile) (n : Nat) : Nat :=
  (jobs4.filter fun j =>
    let c := getCtx x j
    c.wait.any fun w => match w.ctl.op with
      | .sync op _ ch _ _ =>
        guardTrue c w.ctl && decide (op = 0x0A) && decide (chKind (getC c ch) = 4) && decide (chIndex (getC c ch) = n)
      | _ => false).length

/-- HQ.STATUS.HELD (R283): pushes held by their units for a full queue, an HQ.PUSH that waits on it among them (R285), at most 255 (log entry 24). -/
def hqHeld (x : Tile) (n : Nat) : Nat :=
  let q := getHq x n
  Nat.min 255 (q.held.length + if 64 ≤ q.handles.length ∧ !q.draining then pushesWaiting x n else 0)

/-- HQ.STATUS (R283). -/
def hqStatusReg (x : Tile) (n : Nat) : W32 := at' 32 8 (BitVec.ofNat 8 (hqHeld x n)) ||| at' 32 0 (BitVec.ofNat 8 (getHq x n).handles.length)

/-- STQ.STATUS (R307). -/
def stqStatusReg (q : Stq) : W32 :=
  at' 32 8 (BitVec.ofNat 8 (if stqKind q = 0 then q.recs.length else q.handles.length)) ||| at' 32 0 (BitVec.ofNat 3 q.st.code)

/-- REACH.STATUS (R289). -/
def reachStatusReg (r : Reach) : W32 := at' 32 16 r.pass ||| at' 32 3 (b2 r.pending) ||| at' 32 0 (BitVec.ofNat 3 r.st.code)

/-- WEIR.STATE (R267). -/
def weirStateReg (w : Weir) : W32 :=
  at' 32 28 w.epoch ||| at' 32 12 w.lostMask ||| at' 32 11 (b2 w.lost) ||| at' 32 10 (b2 w.orphaned) ||| at' 32 9 (b2 w.fault)

/-- SHARD.TAG (R389). -/
def shardTagReg (x : Shard) : W64 := at' 64 63 (b2 x.valid) ||| at' 64 61 x.job ||| at' 64 45 x.pins ||| at' 64 29 x.id

/-- The part number of R542 in ASCII, padded with zeros: TZ1216-36L. -/
def partNumber : List Byte := [0x54, 0x5A, 0x31, 0x32, 0x31, 0x36, 0x2D, 0x33, 0x36, 0x4C, 0, 0, 0, 0, 0, 0]

/-- A loss monitor's registers (R106). -/
def lossReg (l : Loss) (k : Nat) : W64 := nth 0 [l.cfg.setWidth 64, l.bandAbs, l.avg, l.last, l.lastStep, l.spikes, l.rejects] k

/-- A watch entry's registers (R86-R89). -/
def watchReg (e : Watch) (k : Nat) : Nat :=
  nth 0 [(watchCfgReg e).toNat, e.openStep.toNat, e.exp.toNat, e.history.toNat, e.satAlarm.toNat, e.satTotal.toNat, e.satLast.toNat, e.zeroStreak.toNat,
    e.lateCount.toNat, e.flags.toNat] k

/-- The registers of a tile at 0x7000, but TILE.BANK_CONFLICTS (R47, R48, R81-R83, R122, R128, R151, R187, R240, R415, R546). -/
def tileRegVal (s : State) (t : W16) (k : Nat) : Nat :=
  let x := getTile s t
  let g := x.regs
  nth 0 [g.share.toNat, g.pressCtrl.toNat, (pressStatusReg x).toNat, g.residueCount.toNat, g.satCount.toNat, g.cvtStatus.toNat, g.bankConflicts.toNat,
    g.wideOwner.toNat, (wideStatusReg x).toNat, (tileHalf s t).cycles.toNat, (errPendingReg x).toNat, (errLastReg x).toNat, g.sent.toNat, g.late.toNat,
    g.dropped.toNat, g.switches.toNat, g.yieldsSkipped.toNat, g.switchLate.toNat] k

/-- The value of a register or other numeric entry; a WO register reads as zero (R9). Entries read by other means read as zero here. -/
def regVal (s : State) (r : Reg) (inst : Nat) : Nat :=
  let t : W16 := BitVec.ofNat 16 inst
  match r with
  | .ident k =>
    nth 0 [leNat partNumber, 0x00A0, 0x073B, idcode.toNat, Config.deviceDigest.toNat, s.mod.slotId.toNat, (slotVersion s.fw s.fw.slot imgMgmt).toNat] k
  | .tileCount h => if diePresent s (h / 2) then (getHalf s h).map.length else 0
  | .mapGen h => if diePresent s (h / 2) then (getHalf s h).mapGen.toNat else 0xFFFF
  | .mapTag => s.mod.mapTag.toNat
  | .event k => nth 0 [leNat (toBE 16 s.mgmt.evAddr.toNat), s.mgmt.evPort.toNat, s.mgmt.evMinSev.toNat, s.mgmt.evMask.toNat] k
  | .count k => nth 0 [s.mgmt.requests.toNat, s.mgmt.repeats.toNat, s.mgmt.dropped.toNat, s.mgmt.eventsSent.toNat, s.mgmt.eventsLost.toNat] k
  | .plcaNode => s.mod.slotId.toNat + 1
  | .errLog k => nth 0 [s.log.head.toNat, s.log.tail.toNat, s.log.lost.toNat] k
  | .logRecord => match s.log.recs.find? fun x => decide (x.seq.toNat = inst) with | some x => leNat (errBytes x) | none => 0
  | .fatalRecord k => match s.log.flashFatal.reverse[k]? with | some x => leNat (errBytes x) | none => 0
  | .errCfg => s.log.cfg.toNat
  | .fwState => (fwStateReg s.fw).toNat
  | .dirState b => (if b then s.fw.markB else s.fw.markA).toNat
  | .secState => (secStateReg s).toNat
  | .region e => (mget (0 : BitVec 128) s.regions e).toNat
  | .modState => (modStateReg s.mod).toNat
  | .modCfg => if s.mod.autostart then 1 else 0
  | .modTime => s.mod.time.toNat
  | .modSet k => nth 0 [s.mod.meshCfg.toNat, s.mod.waitCfg.toNat, s.mod.switchCfg.toNat, s.mod.nodeCfg.toNat] k
  | .inval k => nth 0 [0, s.mod.invalAddr.toNat, if invalBusy s then 1 else 0] k
  | .gather k =>
    nth 0 [s.gather.cfg.toNat, 0, s.gather.opened.length, s.gather.completed.toNat, s.gather.abandoned.toNat, s.gather.stale.toNat,
      s.gather.restarts.toNat] k
  | .pressAll => match presentTiles s with | t :: _ => (getTile s t).regs.pressCtrl.toNat | [] => 0
  | .loss k => (lossReg (getLoss s (BitVec.ofNat 3 inst)) k).toNat
  | .power k => nth 0 [s.power.cfg.toNat, 0, (powerStatusReg s.power).toNat, s.power.alertSrc.toNat, s.power.alertMask.toNat] k
  | .therm => s.power.therm.toNat
  | .rail r => (railStatusReg s r).toNat
  | .thermDie d => (getDie s d).thermDie.toNat
  | .die d k =>
    let x := getDie s d
    nth 0 [(dieIdReg d).toNat, (dieStateReg x).toNat, x.cfg.toNat, x.stream.cfg.toNat, 0, (x.recs.filter fun (e : Nat × XferRec) => isParked e.2).length
        + (s.net.parks.filter fun p => decide (p.die = d)).length,
      x.stream.faults.toNat, x.stream.handlesDropped.toNat, x.stream.tagsStale.toNat] k
  | .half i k => if k = 0 then (clkHalfReg (getHalf s i)).toNat else (getHalf s i).changes.toNat
  | .edge e k => if k = 0 then (edgeStatusReg (getEdge s e)).toNat else (getEdge s e).replays.toNat
  | .stack n k =>
    let x := getStack s n
    nth 0 [x.cfg.toNat, 0, (hbmStateReg x).toNat, x.ce.toNat, x.ue.toNat, x.passes.toNat] k
  | .port p k =>
    let x := getPort s p
    nth 0 [x.cfg.toNat, 0, (portStatusReg x).toNat, x.partner.toNat, x.cnt.replays.toNat, x.cnt.crcErrors.toNat, x.cnt.fecCorrected.toNat,
      x.cnt.fecUncorr.toNat, x.cnt.retrains.toNat, x.cnt.framesDropped.toNat] k
  | .peer k => (mget 0 s.net.peers k).toNat
  | .land => (landReg s (BitVec.ofNat 8 inst)).toNat
  | .mr k => let m := getMr s inst; nth 0 [m.reg.toNat, m.base.toNat, m.len.toNat] k
  | .roce k => nth 0 [s.mod.rocePeriod.toNat, s.mod.roceRise.toNat, s.mod.roceFloor.toNat] k
  | .job j k =>
    let g := (getJob s j).regs
    nth 0 [(jobStateReg s j).toNat, 0, g.image.toNat, g.save.toNat, g.saveSpad.toNat, g.loadInfo.toNat] k
  | .trn j k => let g := (getJob s j).regs; nth 0 [g.trnRoot.toNat, g.trnView.toNat, g.pubLatest.toNat] k
  | .close j k => let g := (getJob s j).regs; nth 0 [0, g.closeStatus.toNat, g.armStep.toNat] k
  | .gpost j k =>
    let g := (getJob s j).regs
    nth 0 [fldN g.gatherPost 0 512, fldN g.gatherPost 512 512, 0, (layoutReg g).toNat] k
  | .ring j k => let g := (getJob s j).regs; nth 0 [g.errRing.toNat, g.errHead.toNat, g.errTail.toNat, g.errLost.toNat] k
  | .watch w k => watchReg (getWatch s w) k
  | .tile k => tileRegVal s t k
  | .ctx j k =>
    let c := getCtx (getTile s t) j
    nth 0 [c.st.code, 0, c.yieldReg.toNat, c.xbCount.toNat, c.cursor.toNat] k
  | .slot n k => let y := getSlot (getTile s t) n; if k = 0 then y.cfg.toNat else (slotStatusReg y).toNat
  | .acnt n k => let a := getAcnt (getTile s t) n; if k = 0 then (acntCfgReg a).toNat else a.value.toNat
  | .hq n k => let x := getTile s t; nth 0 [(getHq x n).cfg.toNat, (hqStatusReg x n).toNat] k
  | .route n => (routeAt s t n).toNat
  | .weir k =>
    let w := getWeir (getDie s (inst / 4096)) (BitVec.ofNat 12 inst)
    nth 0 [w.cfg.toNat, (weirStateReg w).toNat, w.rounds.toNat, w.stale.toNat] k
  | .stq k => let q := getStq (getDie s (inst / 4096)) (BitVec.ofNat 12 inst); nth 0 [q.cfg.toNat, (stqStatusReg q).toNat] k
  | .reach k =>
    let y := getReach (getDie s (inst / 1024)) (BitVec.ofNat 10 inst)
    nth 0 [y.cfg.toNat, y.stride.toNat, y.base.toNat, y.nextBase.toNat, (reachStatusReg y).toNat, 0, (mget 0 y.descs 0).toNat, (mget 0 y.descs 1).toNat,
      (mget 0 y.descs 2).toNat, (mget 0 y.descs 3).toNat] k
  | .tree => (getTree s (BitVec.ofNat 10 inst)).cfg.toNat
  | .gtree => (gtReg s inst).toNat
  | .shard k =>
    let x := mget Shard.reset s.gather.shards inst
    nth 0 [(shardTagReg x).toNat, x.version.toNat, x.base.toNat, x.len.toNat] k
  | .pub k => let p := getPub s inst; nth 0 [(pubCfgReg p).toNat, p.base.toNat, p.version.toNat] k
  | .storeCmd | .errInject | .fenceCtl | .fwCtl | .staging _ | .challenge | .token | .nonce | .report | .certificate _ | .appCommit | .ownerKeys
  | .dieCtl | .pubCtl | .dist _ | .image _ | .weirLoad | .treeLoad => 0

/-- The bytes of a DOMAIN entry that can be read (R503-R506, R324, R540); a read of the report while it is prepared has no value. -/
def domainVal (s : State) (r : Reg) : Except Byte (List Byte) :=
  match r with
  | .report => if s.sec.preparing then .error stBusy else .ok s.sec.report
  | .certificate k => .ok (Config.certificate k s.sec.cdi2)
  | .ownerKeys => .ok (s.sec.owner.getD [])
  | .stack n _ => .ok ((getStack s n).retiredFrames.flatMap fun f => toLE 8 (n * 2 ^ 36 + f * 65536))
  | .image j => .ok (watchImage s j)
  | _ => .error stAccess

/-- A read of an entry (R518): its value bytes. A challenge is issued anew by each read (R508), and TILE.BANK_CONFLICTS counts on (R186). -/
def regRead (s : State) (r : Reg) (inst : Nat) : State × Except Byte (List Byte) :=
  match regGate s r inst with
  | some c => (s, .error c)
  | none =>
    if plainWo r then (s, .error stAccess)
    else match r with
      | .challenge => let (c, s) := newChallenge s; (s, .ok (toLE 16 c.toNat))
      | .dist k => let (s, bs) := readDist s (BitVec.ofNat 16 inst) k; (s, .ok bs)
      | .tile 6 =>
        let s := csrReadAct (BitVec.ofNat 16 inst) 0x050 s
        (s, .ok (toLE 8 (tileRegVal s (BitVec.ofNat 16 inst) 6)))
      | _ =>
        if isDomain r then
          match domainVal s r with
          | .ok bs => (s, .ok (toLE 4 bs.length))
          | .error c => (s, .error c)
        else (s, .ok (toLE (regInfo r).size (regVal s r inst)))

end Sys2Proof.Machine
end

