-- ==== Sys2Proof/Machine/RegWrite.lean ====
section
/-!
DEFINITION. Writes of the entries of the object dictionary, STORE and RESTORE (R9-R11, R518-R521, R541-R546, R570).
-/
namespace Sys2Proof.Machine
open Sys2Proof

/-! ## What a command given by a register write meets outside the module's state (log entry 3) -/

/-- Bits of a free word. -/
def freeBits (n : Nat) (s : State) : BitVec n × State := let (f, s) := freshWord s; (f.setWidth n, s)

/-- Wire pairs of the edges that fail their training: open. -/
def freePairs (s : State) : List (Fin 16 × Fin 24) × State :=
  let k := s.freeCtr
  ((List.range 768).filterMap fun i => if Config.freeBit (k + i) then some (Fin.ofNat 16 (i / 48), Fin.ofNat 24 (i / 2)) else none, { s with freeCtr := k + 768 })

/-- What a rejoin finds of a die: open. -/
def freeDieFound (s : State) : DieFound × State :=
  let (f, s) := freeBits 64 s
  let (ps, s) := freePairs s
  let k := s.freeCtr
  ({ answers := bitAt f 0, straps := fld f 1 4, placed := bitAt f 5, pll := bitAt f 6, mapOk := bitAt f 7, bist := bitAt f 8,
     badTiles := (List.range 2048).filter fun i => Config.freeBit (k + i)
     stackOk := bitAt f 9, spares := (List.range 32).map fun i => (Config.freeWord (k + 2048 + i)).setWidth 8
     edgesOk := fld f 16 16, pairs := ps, ucieOk := bitAt f 10
     took := fldN f 32 28 }, { s with freeCtr := k + 2080 })

/-- Lanes of a stack that fail its training: open. -/
def freeLanes (s : State) : List (Fin 32 × Byte) × State :=
  let k := s.freeCtr
  ((List.range 8192).filterMap fun i => if Config.freeBit (k + i) then some (Fin.ofNat 32 (i / 256), BitVec.ofNat 8 (i % 256)) else none,
   { s with freeCtr := k + 8192 })

/-- The flash records by number. -/
def flashRec (i : Nat) : Option FlashRec :=
  if i < 12 then some (.repair (Fin.ofNat 12 i)) else if i < 36 then some (.role (Fin.ofNat 24 (i - 12)))
  else match i with | 36 => some .slot | 37 => some .autostart | 38 => some .power | 39 => some .owner | _ => none

/-- What a start-up finds: open. -/
def freeStartFound (s : State) : StartFound × State :=
  let (f, s) := freeBits 64 s
  let (ds, s) := (List.range 12).foldl (fun (r : List DieFound × State) _ => let (d, s) := freeDieFound r.2; (r.1 ++ [d], s)) ([], s)
  let (ps, s) := freePairs s
  ({ inRange := bitAt f 0, slotId := fld f 1 6, refSel := bitAt f 7, katOk := bitAt f 8, pufOk := bitAt f 9, monoOk := bitAt f 10, slotAOk := bitAt f 11
     slotBOk := bitAt f 12, baseDiesOk := bitAt f 13, refOk := bitAt f 14, dies := ds, edgesOk := fld f 16 16, pairs := ps, ucieOk := fld f 32 4
     addrFree := bitAt f 36
     badRecords := (List.range 40).filterMap fun i => if Config.freeBit (s.freeCtr + i) then flashRec i else none
     badRails := (List.range 28).filterMap fun i => if Config.freeBit (s.freeCtr + 40 + i) then some (Fin.ofNat 28 i) else none }, { s with freeCtr := s.freeCtr + 68 })

/-- The MGMT image that a slot holds from manufacture (log entry 5). -/
def flashImage (slot : Bool) : Image :=
  { typ := BitVec.ofNat 8 imgMgmt, mtype := BitVec.ofNat 8 imgMgmt, svn := Config.flashSvn slot imgMgmt, version := Config.flashVersion slot imgMgmt, keyIndex := 0, keyRevoke := false
    manifest := Config.flashManifest slot imgMgmt, hash := Config.sha512 [], payload := [], keys := [], sigs := [] }

/-! ## STORE and RESTORE (R520) -/

/-- STORE: the working values of the FLASH fields into new records. -/
def storeFlash (s : State) : State :=
  let roles := (List.range 24).foldl (fun (m : SMap (BitVec 2)) p => mset 0 m p (cfgRole (getPort s p))) []
  { s with flash := { s.flash with
    roles, autostart := some s.mod.autostart, powerCap := some (fld s.power.cfg 21 11, fld s.power.cfg 10 11), gen := s.flash.gen + 1 } }

/-- RESTORE: those records invalidated. -/
def restoreFlash (s : State) : State :=
  { s with flash := { s.flash with roles := [], autostart := none, powerCap := none, gen := s.flash.gen + 1 } }

/-- STORE (R520). -/
def execStore (w : Writer) (s : State) : Host.Outcome State Fault Refusal :=
  .next (finish (secureWrite w (winAddr 0x1010 0 0) s fun s => (storeFlash s, stOk)))

/-- RESTORE (R520). -/
def execRestore (w : Writer) (s : State) : Host.Outcome State Fault Refusal :=
  .next (finish (secureWrite w (winAddr 0x1010 0 0) s fun s => (restoreFlash s, stOk)))

/-! ## Commands carried by registers -/

/-- DIE.CTL (R442); a die number above 11 is an unlisted value. -/
def writeDieCtl (s : State) (v : W32) : State × Byte :=
  let d := fldN v 4 4
  match fldN v 0 3 with
  | 1 => if d < 12 then dieReset s d else (s, stInvalid)
  | 2 => if d < 12 then (let (f, s) := freeDieFound s; dieRejoin s d f) else (s, stInvalid)
  | 3 => let (b, s) := freshBit s; let (ps, s) := freePairs s; edgeRetrain s (fldN v 8 4) b (ps.map (·.2))
  | _ => (s, stOk)

/-- HBM.CTL (R327). -/
def writeHbmCtl (s : State) (n : Nat) (v : W32) : State × Byte :=
  match fldN v 0 2 with
  | 1 =>
    if (getStack s n).st = .ready then
      let (b, s) := freshBit s
      let (ls, s) := freeLanes s
      (recalibrate s n b ls, stOk)
    else (s, stCfgBusy)
  | 2 => (putStack s n { getStack s n with patrol := 0 }, stOk)
  | _ => (s, stOk)

/-- HBM.CFG (R327): a patrol period outside 1 to 24 h is unlisted. -/
def writeHbmCfg (s : State) (n : Nat) (v : W32) : State × Byte :=
  if fldN v 8 8 = 0 ∨ 24 < fldN v 8 8 then (s, stInvalid) else (putStack s n { getStack s n with cfg := v &&& 0x8000FFFF }, stOk)

/-- FW.CTL (R476). -/
def writeFwCtl (s : State) (v : W32) : State × Byte :=
  match fldN v 0 2 with
  | 1 => handoverFw s (flashImage (!s.fw.slot))
  | 2 => probationCmd s commitFw
  | 3 => probationCmd s revertFw
  | _ => (s, stOk)

/-- POWER.CTL (R569). -/
def writePowerCtl (s : State) (v : W32) : State × Byte :=
  match fldN v 0 2 with
  | 1 => let (f, s) := freeStartFound s; (powerUp s f, stOk)
  | 2 => powerStandby s
  | _ => (s, stOk)

/-- TZ.PORT.CTL (R332). -/
def writePortCtl (s : State) (p : Nat) (v : W32) : State :=
  match fldN v 0 3 with
  | 1 => startPort s p
  | 2 => stopDrain s p
  | 3 => stopAbort s p
  | 4 => retrainPort s p
  | _ => s

/-- STREAM.FAULT_CTL (R298, R308): an unlisted action is refused before the tag is checked. -/
def writeFaultCtl (s : State) (d : Nat) (v : W64) : State × Byte :=
  match fldN v 0 2 with
  | 1 => faultCtl s (Fin.ofNat 12 d) (fld v 32 32) true
  | 2 => faultCtl s (Fin.ofNat 12 d) (fld v 32 32) false
  | _ => (s, stInvalid)

/-- STQ.CTL, REACH.CTL and HQ.CTL (R306): 3 is unlisted. -/
def objCtl (s : State) (v : W32) (on : Bool) (drain abort : State → State) : State × Byte :=
  match fldN v 0 2 with
  | 1 => (if on then drain s else s, stOk)
  | 2 => (if on then abort s else s, stOk)
  | 3 => (s, stInvalid)
  | _ => (s, stOk)

/-- ERR.INJECT (R478). -/
def writeInject (s : State) (v : W64) : State := inject s (fld v 48 16) (fldN v 40 8) (fld v 32 8) (fld v 0 32)

/-! ## Registers with fields -/

/-- One of MESH.CFG, WAIT.CFG, SWITCH.CFG, TZ.NODE.CFG (R243, R257, R415, R353): an ADD_LAG of 0 is unlisted. -/
def writeModSet (s : State) (k : Nat) (v : W32) : State × Byte :=
  match k with
  | 0 => ({ s with mod := { s.mod with meshCfg := v &&& 0xFFFF0000 } }, stOk)
  | 1 => ({ s with mod := { s.mod with waitCfg := v &&& 0xFFFF8000 } }, stOk)
  | 2 => ({ s with mod := { s.mod with switchCfg := v &&& 0xFFFF0000 } }, stOk)
  | _ => if fldN v 16 16 = 0 then (s, stInvalid) else ({ s with mod := { s.mod with nodeCfg := v &&& 0xFFFF0007 } }, stOk)

/-- The event destination, severity and mask (R531): events not acknowledged are sent again to a new destination (R539). -/
def writeEvent (s : State) (k v : Nat) : State :=
  match k with
  | 0 | 1 =>
    let s := if k = 0 then { s with mgmt := { s.mgmt with evAddr := BitVec.ofNat 128 (leNat (toBE 16 v)) } }
             else { s with mgmt := { s.mgmt with evPort := BitVec.ofNat 16 v } }
    { s with mgmt := { s.mgmt with outQueue := s.mgmt.outQueue ++ s.mgmt.unacked.map (eventMsg s) } }
  | 2 => { s with mgmt := { s.mgmt with evMinSev := BitVec.ofNat 8 v } }
  | _ => { s with mgmt := { s.mgmt with evMask := BitVec.ofNat 32 v } }

/-- MESH.TREE (R236, R238). -/
def writeTree (s : State) (n : BitVec 10) (v : W32) : State × Byte :=
  if treeBusy s n then (s, stCfgBusy) else (putTree s n { getTree s n with cfg := v &&& 0xF000FFFF }, stOk)

/-- JOB.ERR_RING (R462): an ORDER other than 0 and 6 to 16 is unlisted. -/
def writeRing (s : State) (j : BitVec 2) (v : W64) : State × Byte :=
  let o := fldN v 0 5
  if o = 0 ∨ (6 ≤ o ∧ o ≤ 16) then (modJob s j fun x => { x with regs := { x.regs with errRing := v &&& 0x000000FFFFFFFFDF } }, stOk) else (s, stInvalid)

/-- JOB.IMAGE, JOB.SAVE, JOB.SAVE_SPAD (R399). -/
def writeJobReg (s : State) (j : BitVec 2) (k : Nat) (v : W64) : State × Byte :=
  let pa := v &&& 0x000000FFFFFFFFC0
  match k with
  | 2 => (modJob s j fun x => { x with regs := { x.regs with image := pa } }, stOk)
  | 3 => (modJob s j fun x => { x with regs := { x.regs with save := pa } }, stOk)
  | _ =>
    if fldN v 0 6 ≠ 0 then (s, stInvalid) else (modJob s j fun x => { x with regs := { x.regs with saveSpad := v &&& 0x8000FFFFFFFFFFFF } }, stOk)

/-- Half of GATHER.POST (R367): in the low half the reserved bits keep 0, and a GD.KIND of 0 or 3 is an unlisted value (R10, R11, R365). -/
def writePost (s : State) (j : BitVec 2) (hi : Bool) (v : BitVec 512) : State × Byte :=
  let put (off : Nat) (v : BitVec 512) : State × Byte := (modJob s j fun x => { x with regs := { x.regs with
    gatherPost := merge (maskAt 1024 off 512) x.regs.gatherPost (at' 1024 off v) } }, stOk)
  if hi then put 512 v
  else if fldN v 415 2 = 0 ∨ fldN v 415 2 = 3 then (s, stInvalid)
  else put 0 (v &&& ~~~ maskAt 512 0 415)

/-- The registers of a job context at + 0x04 (R367, R387, R391). -/
def writeGpost (s : State) (j : BitVec 2) (k v : Nat) : State × Byte :=
  let b : BitVec 128 := BitVec.ofNat 128 v
  match k with
  | 0 => writePost s j false (BitVec.ofNat 512 v)
  | 1 => writePost s j true (BitVec.ofNat 512 v)
  | 2 => if v % 2 = 1 then gatherPost s j else (s, stOk)
  | 4 => writeReshard s j (BitVec.ofNat 16 v)
  | 5 => gatherPin s j (fld b 0 32) (fld b 32 16) (fld b 64 32)
  | 6 => (gatherRetire s j (BitVec.ofNat 32 v), stOk)
  | _ => (s, stOk)

/-- A watch entry's registers (R86, R88, R89): the others are RO. -/
def writeWatchReg (s : State) (w : BitVec 12) (k v : Nat) : State × Byte :=
  match k with
  | 0 => watchCfgWrite s w (BitVec.ofNat 32 v)
  | 4 => (putWatch s w { getWatch s w with satAlarm := BitVec.ofNat 32 v }, stOk)
  | 9 => (putWatch s w { getWatch s w with flags := (getWatch s w).flags &&& ~~~ BitVec.ofNat 8 v }, stOk)
  | _ => (s, stOk)

/-- The counters named in a value have their error-pending flags cleared (R240). -/
def clearErrs (x : Tile) (v : W64) : Tile :=
  (List.range 64).foldl (fun x k => if bitAt v k then putAcnt x k { getAcnt x k with err := none } else x) x

/-- The registers of a tile at 0x7000 (R48, R81, R82, R122, R128, R187, R240): the others are RO. -/
def writeTileReg (w : Writer) (addr : Nat) (s : State) (t : W16) (k v : Nat) : State × Byte :=
  let v32 : W32 := BitVec.ofNat 32 v
  let set (f : TileRegs → TileRegs) : State × Byte := (modTile s t fun x => { x with regs := f x.regs }, stOk)
  match k with
  | 0 => writeShare s t v32
  | 1 => secureWrite w addr s fun s => (modTile s t fun x => { x with regs := { x.regs with pressCtrl := v32 &&& 3 } }, stOk)
  | 2 => set fun g => { g with pressStatus := w1c 0x1E g.pressStatus v32 }
  | 5 => set fun g => { g with cvtStatus := w1c 0x3E g.cvtStatus v32 }
  | 7 => set fun g => { g with wideOwner := v32 &&& 3 }
  | 8 => set fun g => { g with wideStatus := w1c 0x0E g.wideStatus v32 }
  | 10 => (modTile s t fun x => clearErrs x (BitVec.ofNat 64 v), stOk)
  | _ => (s, stOk)

/-- The registers of a context (R396, R406, R407): the yield registers only while the context stands still. -/
def writeCtxReg (s : State) (t : W16) (j : BitVec 2) (k v : Nat) : State × Byte :=
  match k with
  | 1 => writeCtxCtl s t j (BitVec.ofNat 64 v)
  | 2 => writeYield s t j (BitVec.ofNat 64 v)
  | 0 => (s, stOk)
  | _ => if yieldWritable (getCtx (getTile s t) j) then (s, stOk) else (s, stCfgBusy)

/-- TILE.PRESS_CTRL of every present tile (0x2006). -/
def writePressAll (s : State) (v : W32) : State :=
  (presentTiles s).foldl (fun s t => modTile s t fun x => { x with regs := { x.regs with pressCtrl := v &&& 3 } }) s

/-- A reach's registers (R289, R306). -/
def writeReachReg (w : Writer) (s : State) (d : Nat) (n : BitVec 10) (k v : Nat) : State × Byte :=
  match k with
  | 0 => writeReachCfg s (secureWriter w) d n (BitVec.ofNat 64 v)
  | 1 => writeReachStride s d n (BitVec.ofNat 64 v)
  | 5 => objCtl s (BitVec.ofNat 32 v) (reachLive s d n) (fun s => drainReach s d n) (fun s => abortReach s d n cAborted)
  | 6 | 7 | 8 | 9 => writeReachDesc s d n (k - 6) (BitVec.ofNat 512 v)
  | _ => (s, stOk)

/-- The value of an entry of so many bytes that a store to word 0 commits (R535): the staged words, and free ones where none is staged
(log entry 3: the spec gives them no value). -/
def wholeValue (size w0 : Nat) (words : List (Nat × Nat)) (s : State) : Nat × State :=
  ((List.range ((size + 7) / 8)).drop 1).foldl (fun (r : Nat × State) k =>
    match words.find? fun e => decide (e.1 = k) with
    | some e => (r.1 + e.2 * 2 ^ (64 * k), r.2)
    | none => let (f, s) := freshWord r.2; (r.1 + f.toNat * 2 ^ (64 * k), s)) (w0, s)

/-! ## The write of an entry -/

/-- A write of a value to an entry that may be written: what R9 to R11 and the entry's own rules make of it. ctl performs a command of
JOB.CTL. A write of an RO or CONST field, and of a whole RO register, has no effect and completes OK. -/
def regSet (ctl : State → BitVec 2 → Nat → State × Byte) (w : Writer) (addr : Nat) (r : Reg) (inst v : Nat) (s : State) : State × Byte :=
  let t : W16 := BitVec.ofNat 16 inst
  let v32 : W32 := BitVec.ofNat 32 v
  let v64 : W64 := BitVec.ofNat 64 v
  match r with
  | .storeCmd => if v = 1 then (storeFlash s, stOk) else if v = 2 then (restoreFlash s, stOk) else (s, stInvalid)
  | .event k => (writeEvent s k v, stOk)
  | .errLog k => (if k = 1 then { s with log := { s.log with tail := BitVec.ofNat 16 v } } else s, stOk)
  | .errCfg => ({ s with log := { s.log with cfg := v32 &&& 0xE7FF0000 } }, stOk)
  | .errInject => (writeInject s v64, stOk)
  | .fenceCtl => fenceCtl s (fld v32 0 16) (fldN v32 16 3)
  | .fwCtl => writeFwCtl s v32
  | .nonce => writeNonce s (BitVec.ofNat 256 v)
  | .appCommit => appCommit s v32
  | .region e => writeRegion s (BitVec.ofNat 6 e) (BitVec.ofNat 128 v)
  | .modCfg => ({ s with mod := { s.mod with autostart := decide (v % 2 = 1) } }, stOk)
  | .dieCtl => writeDieCtl s v32
  | .modSet k => writeModSet s k v32
  | .inval k =>
    if k = 0 then writeTrnInval s v64
    else (if k = 1 then { s with mod := { s.mod with invalAddr := v64 &&& 0x0000FFFFFFFF0000 } } else s, stOk)
  | .gather k => if k = 0 then ({ s with gather := { s.gather with cfg := v32 } }, stOk) else if k = 1 then writeGatherCtl s v64 else (s, stOk)
  | .pubCtl => writePubCtl s v64
  | .pressAll => (writePressAll s v32, stOk)
  | .loss k =>
    let m : BitVec 3 := BitVec.ofNat 3 inst
    if k = 0 then lossCfgWrite s m v32 else (if k = 1 then putLoss s m { getLoss s m with bandAbs := v64 } else s, stOk)
  | .power k =>
    if k = 0 then writePowerCfg s v32 else if k = 1 then writePowerCtl s v32
    else if k = 3 then (writeAlertSrc s v32, stOk)
    else (if k = 4 then { s with power := { s.power with alertMask := BitVec.ofNat 6 v } } else s, stOk)
  | .therm => writeThermCfg s v32
  | .die d k =>
    if k = 2 then writeDieCfg s d v32
    else if k = 4 then writeFaultCtl s d v64
    else (if k = 3 then modDie s d fun x => { x with stream := { x.stream with cfg := v32 } } else s, stOk)
  | .half i k => if k = 0 then writeClkHalf s i v32 else (s, stOk)
  | .stack n k => if k = 0 then writeHbmCfg s n v32 else if k = 1 then writeHbmCtl s n v32 else (s, stOk)
  | .port p k => if k = 0 then portCfgBy w s p v32 else (if k = 1 then writePortCtl s p v32 else s, stOk)
  | .peer k => writePeer s k v32
  | .land => (writeLand s (BitVec.ofNat 8 inst) v32, stOk)
  | .mr k => writeMr s inst k v64
  | .roce k =>
    ({ s with mod := { s.mod with
      rocePeriod := if k = 0 then v32 else s.mod.rocePeriod
      roceRise := if k = 1 then v32 else s.mod.roceRise
      roceFloor := if k = 2 then v32 else s.mod.roceFloor } }, stOk)
  | .job j k => if k = 1 then ctl s j (fldN v32 0 3) else if k = 2 ∨ k = 3 ∨ k = 4 then writeJobReg s j k v64 else (s, stOk)
  | .trn j k => if k = 0 then writeTrnRoot s j v64 else if k = 1 then writeTrnView s j v64 else (s, stOk)
  | .close j k =>
    if k = 0 then (watchClose s j v64, stOk)
    else
      (modJob s j fun x => { x with regs := { x.regs with
        closeStatus := if k = 1 then w1c 4 x.regs.closeStatus v32 else x.regs.closeStatus
        armStep := if k = 2 then v64 else x.regs.armStep } }, stOk)
  | .gpost j k => writeGpost s j k v
  | .ring j k =>
    if k = 0 then writeRing s j v64 else (if k = 2 then modJob s j fun x => { x with regs := { x.regs with errTail := v64 } } else s, stOk)
  | .watch e k => writeWatchReg s e k v
  | .tile k => writeTileReg w addr s t k v
  | .ctx j k => writeCtxReg s t j k v
  | .slot n k => if k = 0 then writeSlotCfg s t n v64 else (s, stOk)
  | .acnt n k => if k = 0 then writeAcntCfg s t n v32 else (markDue (modTile s t fun x => putAcnt x n { getAcnt x n with value := v64 }) t, stOk)
  | .hq n k =>
    if k = 0 then writeHqCfg s t n v32
    else if k = 2 then objCtl s v32 (hqOn s t n) (fun s => drainHq s t n) (fun s => abortHq s t n)
    else (s, stOk)
  | .route _ => (s, stCfgBusy)
  | .weir k => if k = 0 then (s, stCfgBusy) else (s, stOk)
  | .stq k =>
    let d := inst / 4096
    let q : BitVec 12 := BitVec.ofNat 12 inst
    if k = 0 then writeStqCfg s d q v64
    else if k = 2 then objCtl s v32 (stqOn s d q) (fun s => drainStq s d q) (fun s => abortStq s d q)
    else (s, stOk)
  | .reach k => writeReachReg w s (inst / 1024) (BitVec.ofNat 10 inst) k v
  | .tree => writeTree s (BitVec.ofNat 10 inst) v32
  | .gtree => writeGatherTree s inst v64
  | .shard k => writeShard s inst k v64
  | .pub k =>
    let e : BitVec 4 := BitVec.ofNat 4 inst
    if k = 0 then writePubCfg s e v64 else if k = 1 then writePubBase s e v64 else (s, stOk)
  | .ident _ | .tileCount _ | .mapGen _ | .mapTag | .count _ | .plcaNode | .logRecord | .fatalRecord _ | .fwState | .staging _ | .dirState _ | .secState
  | .challenge | .token | .report | .certificate _ | .ownerKeys | .modState | .modTime | .rail _ | .thermDie _ | .edge _ _ | .dist _ | .image _
  | .weirLoad | .treeLoad => (s, stOk)

/-- The refusal of a write before its value is looked at: the object it needs, the access of its type, the world of its writer (R518, R521). -/
def writeGate (s : State) (r : Reg) (inst : Nat) : Option Byte :=
  match regGate s r inst with
  | some c => some c
  | none => if plainRo r ∨ isDomain r then some stAccess else none

/-- A write of a value to an entry (R9-R11, R482, R518). -/
def regWriteWith (ctl : State → BitVec 2 → Nat → State × Byte) (w : Writer) (addr : Nat) (r : Reg) (inst v : Nat) (s : State) : State × Byte :=
  match writeGate s r inst with
  | some c => (s, c)
  | none =>
    let e := regInfo r
    let go (s : State) : State × Byte := regSet ctl w addr r inst (v % 2 ^ (8 * e.size)) s
    if e.secWrite then secureWrite w addr s go else go s

end Sys2Proof.Machine
end

