-- ==== Sys2Proof/Machine/JobLoad.lean ====
section
/-!
DEFINITION. LOAD: the records of a job image, checked and written in order, or undone (R401, R402, R408).
-/
namespace Sys2Proof.Machine
open Sys2Proof

/-- LOAD_INVALID and LOAD_STEPPING (R421). -/
def stLoadInvalid : Byte := 0xC2
def stLoadStepping : Byte := 0xC3

/-- A record header (R401). -/
def recKind (h : BitVec 256) : Nat := fldN h 248 8
def recTile (h : BitVec 256) : W16 := fld h 232 16
def recAddr (h : BitVec 256) : BitVec 24 := fld h 208 24
def recLen (h : BitVec 256) : Nat := fldN h 176 32

/-- What a load has gathered so far. -/
structure LoadSt where
  st : State
  /-- Tiles of the image, and those whose PC a START_PC record has set. -/
  tiles : List W16
  pcs : List W16
  /-- YIELD records: tile, record index, AT of the last entry. -/
  lists : List (W16 × Nat × Nat)
deriving DecidableEq, Repr

/-- The state of a record's check: what it leaves, or the status with which the load fails and the state that holds the records written. -/
abbrev LoadRes := Except (Byte × State) LoadSt

/-- Words of two bytes. -/
def halfWords (bs : List Byte) : List W16 := (chunksOf 2 (bs.length / 2) bs).map fun c => BitVec.ofNat 16 (leNat c)

/-- Words of sixteen bytes. -/
def quads (bs : List Byte) : List (BitVec 128) := (chunksOf 16 (bs.length / 16) bs).map fun c => BitVec.ofNat 128 (leNat c)

/-- A tile that a record names for a context (R17, R402, R468, R482, R489, R521): the status that refuses it. A tile out of service is refused as a
malformed record is, since R402 gives no other status. -/
def loadTileRefusal (s : State) (t : W16) : Option Byte :=
  if !tilePresent s t || !dieReady s (tDie t) || (getTile s t).fenced then some stLoadInvalid
  else if secureTile s t then some stWorld
  else none

/-- HEADER (R401, R402): its data, the stepping code and the map tag. -/
def headerRec (s : State) (bs : List Byte) : Option Byte :=
  let h : BitVec 128 := BitVec.ofNat 128 (leNat bs)
  if bs.length ≠ 16 ∨ fldN h 72 8 ≠ 1 ∨ fldN h 0 72 ≠ 0 then some stLoadInvalid
  else if fldN h 80 16 ≠ 0x00A0 then some stLoadStepping
  else if fld h 96 32 ≠ s.mod.mapTag then some cFolioMap
  else none

/-- The entries of a yield list rise strictly and their reserved bits are zero (R408). -/
def yieldRecOk (es : List (BitVec 128)) : Bool :=
  es.all (fun e => decide (fldN e 0 31 = 0)) && (es.zip (es.drop 1)).all fun p => decide (fldN p.1 96 32 < fldN p.2 96 32)

/-- A folio's header and entries under R215. -/
def folioRec (s : State) (t : W16) (j : BitVec 2) (bs : List Byte) : Option Byte :=
  match quads bs with
  | [] => some cFolioFormat
  | h :: es =>
    match headerCheck s h with
    | some c => some c
    | none => if es.length ≠ fldN h 0 13 then some cFolioFormat else es.findSome? (entryCheck s t j)

/-- The data of a record written into a tile's scratchpad (R401): the operand address obeys the range, share and slot rules of R163. -/
def copyRec (l : LoadSt) (j : BitVec 2) (t : W16) (a : BitVec 24) (bs : List Byte) : LoadRes :=
  if (opndCheck (getTile l.st t) j a bs.length 16).isSome then .error (stLoadInvalid, l.st)
  else .ok { l with st := opndWrite l.st t j a bs, tiles := if l.tiles.contains t then l.tiles else l.tiles ++ [t] }

/-- A record that names a tile: BYTES, FOLIO, YIELD, START_PC. -/
def tileRec (l : LoadSt) (i : Nat) (j : BitVec 2) (h : BitVec 256) (bs : List Byte) : LoadRes :=
  let s := l.st
  let t := recTile h
  match loadTileRefusal s t with
  | some c => .error (c, if c = stWorld then putErr s (worldErr 12 (j.setWidth 16) 15 (some j) t.toNat) else s)
  | none =>
    match recKind h with
    | 2 => copyRec l j t (recAddr h) bs
    | 3 =>
      match folioRec s t j bs with
      | some c => .error (c, s)
      | none => copyRec l j t (recAddr h) bs
    | 4 =>
      if yieldRecOk (quads bs) then
        copyRec { l with lists := l.lists ++ [(t, i, match (quads bs).getLast? with | some e => fldN e 96 32 | none => 0)] } j t (recAddr h) bs
      else .error (stLoadInvalid, s)
    | _ =>
      if bs.isEmpty then
        .ok { l with
          st := modCtx s t j fun c => { c with pc := at' 64 4 (recAddr h) }
          tiles := if l.tiles.contains t then l.tiles else l.tiles ++ [t]
          pcs := l.pcs ++ [t] }
      else .error (stLoadInvalid, s)

/-- The status with which a REG record fails: CFG_BUSY of TILE.SHARE and SLOT.CFG (R191, R197, R402), and the world-violation status (R482), are
passed on. -/
def regRecStatus (r : Reg) (st : Byte) : Byte :=
  let own : Bool := match r with | .slot _ 0 => true | .tile 0 => true | _ => false
  if (st = stCfgBusy ∧ own) ∨ st = stWorld then st else stLoadInvalid

/-- JOB.CTL written by a record: LOAD and RELOAD complete with the busy status, since a load is under way. -/
def ctlInLoad (s : State) (j : BitVec 2) (cmd : Nat) : State × Byte := writeJobCtl (fun s => (s, stBusy)) s j (if cmd = 5 then 1 else cmd)

/-- The pairs of a REG record (R401): a register number is its window offset, INSTANCE in [45:30], INDEX in [29:14], subindex in [13:6] and the
word of 8 bytes in [5:3]; words 1 to 7 wait for word 0. The writes are those of the non-secure world. -/
def regPairs (w : Writer) (s : State) : List (BitVec 128) → List (Nat × Nat × Nat) → Except (Byte × State) State
  | [], _ => .ok s
  | p :: rest, staged =>
    let n := fldN p 0 64
    let v := fldN p 64 64
    let slot := n / 64
    let word := n % 64 / 8
    if n % 8 ≠ 0 ∨ 2 ^ 46 ≤ n then .error (stLoadInvalid, s)
    else if word ≠ 0 then regPairs w s rest ((slot, word, v) :: staged.filter fun e => !(decide (e.1 = slot) && decide (e.2.1 = word)))
    else
      match regAt (slot / 256 % 65536) (slot % 256) with
      | .error _ => .error (stLoadInvalid, s)
      | .ok r =>
        if (regInfo r).firmware then .error (stLoadInvalid, s)
        else
          let (value, s) := wholeValue (regInfo r).size v ((staged.filter fun e => decide (e.1 = slot)).map Prod.snd) s
          let (s, st) := regWriteWith ctlInLoad w (0x400000000000 + n) r (slot / 2 ^ 24) value s
          if st = stOk then regPairs w s rest (staged.filter fun e => decide (e.1 ≠ slot)) else .error (regRecStatus r st, s)

/-- WEIR and TREE data: the number in the first four bytes, the configuration in the next four, then a list of 2-byte words in which 0xFFFF,
which names no tile, is padding (log entry 19). -/
def weirRec (s : State) (bs : List Byte) : Except (Byte × State) State :=
  let n := leNat (bs.take 4)
  if bs.length < 8 ∨ 4096 ≤ n then .error (stLoadInvalid, s)
  else
    let (s, st) := weirLoad s (BitVec.ofNat 12 n) (BitVec.ofNat 32 (leNat ((bs.drop 4).take 4))) ((halfWords (bs.drop 8)).filter (· ≠ 0xFFFF))
    if st = stOk then .ok s else .error (if st = stInvalid then stLoadInvalid else st, s)

/-- Pairs of a tile and its route entry. -/
def routePairs : List W16 → List (W16 × W16)
  | a :: b :: rest => if a = 0xFFFF then routePairs rest else (a, b) :: routePairs rest
  | _ => []

/-- A TREE record. -/
def treeRec (s : State) (bs : List Byte) : Except (Byte × State) State :=
  let n := leNat (bs.take 4)
  if bs.length < 8 ∨ 1024 ≤ n then .error (stLoadInvalid, s)
  else
    match writeTree s (BitVec.ofNat 10 n) (BitVec.ofNat 32 (leNat ((bs.drop 4).take 4))) with
    | (s1, 0) =>
      let (s2, st) := treeLoad s1 (BitVec.ofNat 10 n) (routePairs (halfWords (bs.drop 8)))
      if st = stOk then .ok s2 else .error (st, s2)
    | (s1, st) => .error (st, s1)

/-- REC.TILE of a record that is not for one tile's scratchpad or PC names a tile that a context may use, or the module (R401, R402). -/
def recTileRefusal (s : State) (h : BitVec 256) : Option Byte := if recTile h = 0xFFFF then none else loadTileRefusal s (recTile h)

/-- A tile that a REG record names is a tile of the image (R402). -/
def noteTile (l : LoadSt) (t : W16) : LoadSt := if t = 0xFFFF ∨ l.tiles.contains t then l else { l with tiles := l.tiles ++ [t] }

/-- One record after the HEADER and before END. -/
def bodyRec (w : Writer) (l : LoadSt) (i : Nat) (j : BitVec 2) (h : BitVec 256) (bs : List Byte) : LoadRes :=
  let put (r : Except (Byte × State) State) : LoadRes := r.map fun s => { l with st := s }
  match recKind h with
  | 2 | 3 | 4 | 8 => tileRec l i j h bs
  | k =>
    match recTileRefusal l.st h with
    | some c => .error (c, if c = stWorld then putErr l.st (worldErr 12 (j.setWidth 16) 15 (some j) (recTile h).toNat) else l.st)
    | none =>
      match k with
      | 5 => (put (regPairs w l.st (quads bs) [])).map fun l => noteTile l (recTile h)
      | 6 => put (weirRec l.st bs)
      | 7 => put (treeRec l.st bs)
      | _ => .error (stLoadInvalid, l.st)

/-- The checks at END: every tile of the image has a START_PC; every list keeps below its PERIOD, and an enabled list is whole (R402, R408). -/
def endRec (l : LoadSt) (i : Nat) (j : BitVec 2) : Option (Byte × Nat) :=
  let ctx (t : W16) : Ctx := getCtx (getTile l.st t) j
  match l.lists.find? fun (e : W16 × Nat × Nat) => decide (yieldPeriod (ctx e.1) ≤ e.2.2) with
  | some e => some (stLoadInvalid, e.2.1)
  | none =>
    if l.tiles.any (fun t => !l.pcs.contains t) then some (stLoadInvalid, i)
    else if l.tiles.any (fun t => yieldOn (ctx t) && !yieldListOk (getTile l.st t) j (ctx t)) then some (stLoadInvalid, i)
    else none

/-- The header of a record may stand where it does: reserved bits, LEN, ADDR, and HEADER first and only first. -/
def recFormOk (i : Nat) (h : BitVec 256) : Bool :=
  let k := recKind h
  decide (fldN h 0 176 = 0) && decide (recLen h % 16 = 0) && decide ((i = 0) ↔ (k = 1))
  && (decide (k = 2 ∨ k = 3 ∨ k = 4 ∨ k = 8) || decide (recAddr h = 0)) && (decide (k ≠ 0) || decide (recLen h = 0))

/-- n bytes of the image, where they lie in the non-secure part of the reserve and can be read. -/
def imageBytes (s : State) (pa n : Nat) : State × Option (List Byte) :=
  if inReserveNs pa n then
    let (s, bs, st) := hbmLoad s pa n none
    (s, if st = stOk then some bs else none)
  else (s, none)

/-- The records from index i, at an address. A failure gives its status and the index of the record. -/
def loadRecs (w : Writer) (j : BitVec 2) : Nat → Nat → Nat → LoadSt → Except (Byte × Nat × State) LoadSt
  | 0, i, _, l => .error (stLoadInvalid, i, l.st)
  | n + 1, i, pa, l =>
    match imageBytes l.st pa 32 with
    | (s, none) => .error (stLoadInvalid, i, s)
    | (s, some hb) =>
      let h : BitVec 256 := BitVec.ofNat 256 (leNat hb)
      if !recFormOk i h || (decide (recKind h < 2) && (recTileRefusal s h).isSome) then .error (stLoadInvalid, i, s)
      else match imageBytes s (pa + 32) (recLen h) with
        | (s, none) => .error (stLoadInvalid, i, s)
        | (s, some bs) =>
          let l := { l with st := s }
          if recKind h = 0 then
            match endRec l i j with
            | some (c, k) => .error (c, k, s)
            | none => .ok l
          else if recKind h = 1 then
            match headerRec s bs with
            | some c => .error (c, i, s)
            | none => loadRecs w j n (i + 1) (pa + (32 + recLen h + 63) / 64 * 64) l
          else match bodyRec w l i j h bs with
            | .error (c, s) => .error (c, i, s)
            | .ok l => loadRecs w j n (i + 1) (pa + (32 + recLen h + 63) / 64 * 64) l

/-! ## A failed load (R402) -/

/-- Objects that differ between the state before and the state after, as they were before and disabled. -/
def undoMap {α : Type} [DecidableEq α] (d : α) (off : α → α) (old new : SMap α) : SMap α :=
  (((old.map Prod.fst) ++ new.map Prod.fst).eraseDups.filter fun k => decide (mget d new k ≠ mget d old k)).foldl
    (fun m k => mset d m k (off (mget d old k))) old

/-- A tile as before the load, but for its scratchpad, with the objects that the load configured disabled and the context EMPTY. -/
def undoTile (j : BitVec 2) (old new : Tile) : Tile :=
  emptyCtx j { old with
    spad := new.spad, spadEcc := new.spadEcc
    acnt := undoMap Acnt.reset (fun a => { a with enable := false }) old.acnt new.acnt
    slots := undoMap Slot.reset (fun y => { y with cfg := setFld y.cfg 63 1 0 }) old.slots new.slots
    hqs := undoMap Hq.reset (fun q => { q with cfg := setFld q.cfg 31 1 0 }) old.hqs new.hqs }

/-- A die as before the load, with the weirs, contexts and reaches that the load configured disabled. -/
def undoDie (old new : Die) : Die :=
  { old with
    weirs := undoMap Weir.reset (fun w => { w with cfg := setFld w.cfg 31 1 0 }) old.weirs new.weirs
    stq := undoMap Stq.reset (fun q => { q with cfg := setFld q.cfg 63 1 0, st := .disabled }) old.stq new.stq
    reach := undoMap Reach.reset (fun y => { y with cfg := setFld y.cfg 63 1 0, st := .disabled }) old.reach new.reach }

/-- Everything that the load has written undone; the records of the log, events, free values and the bytes of scratchpads stay. -/
def undoLoad (j : BitVec 2) (old new : State) : State :=
  let tiles := ((old.tiles.map Prod.fst) ++ new.tiles.map Prod.fst).eraseDups.foldl
    (fun (m : SMap Tile) k => mset Tile.reset m k (undoTile j (mget Tile.reset old.tiles k) (mget Tile.reset new.tiles k))) []
  { old with
    log := new.log, mgmt := new.mgmt, freeCtr := new.freeCtr, status := new.status, hbmStacks := new.hbmStacks
    tiles
    dies := mmap Die.reset old.dies fun k d => undoDie d (mget Die.reset new.dies k)
    net := { old.net with
      trees := undoMap Tree.reset (fun t => { t with cfg := setFld t.cfg 31 1 0 }) old.net.trees new.net.trees
      lands := undoMap 0x1FFF0000 (fun v => setFld v 31 1 0) old.net.lands new.net.lands
      mrs := undoMap RoceMr.reset (fun m => { m with reg := setFld m.reg 63 1 0 }) old.net.mrs new.net.mrs }
    gather := { old.gather with
      trees := undoMap 0 (fun v => setFld v 63 1 0) old.gather.trees new.gather.trees
      shards := undoMap Shard.reset (fun x => { x with valid := false }) old.gather.shards new.gather.shards }
    pubs := undoMap Pub.reset (fun p => { p with st := 0 }) old.pubs new.pubs
    watches := undoMap Watch.reset (fun e => { e with cfg := setFld e.cfg 31 1 0 }) old.watches new.watches
    losses := undoMap Loss.reset (fun l => { l with cfg := setFld l.cfg 31 1 0 }) old.losses new.losses }

/-! ## LOAD (R400, R402, R403) -/

/-- A tile of a loaded image: PAUSED, no boundary counted, the yield unit at the head of its list (R402, R407, R409). -/
def loadedTile (s : State) (t : W16) (j : BitVec 2) : State :=
  let s := modCtx s t j fun c => { c with st := .paused, xbCount := 0, cursor := 0 }
  if yieldOn (getCtx (getTile s t) j) then yieldFetch s t j none else s

/-- The writer of a record: the non-secure world. -/
def loadWriter (w : Writer) : Writer := match w with | .core c => if c.val < 16 then .core c else .port | _ => .port

/-- LOAD: PAUSED, or UNLOADED with the failing record named in JOB.LOAD_INFO. A record occupies at least 64 bytes of the reserve's 3 GiB. -/
def loadJob (w : Writer) (s : State) (j : BitVec 2) : State × Byte :=
  if (getJob s j).st ≠ .unloaded then (s, stJobState)
  else
    let s0 := setJobSt s j .loading
    match loadRecs (loadWriter w) j 50331648 0 (getJob s0 j).regs.image.toNat { st := s0, tiles := [], pcs := [], lists := [] } with
    | .ok l =>
      let s := l.tiles.foldl (fun s t => loadedTile s t j) l.st
      (setJobSt (gResume s j) j .paused, stOk)
    | .error (c, i, s1) =>
      let s := modJob (undoLoad j s0 s1) j fun x => { x with regs := { x.regs with loadInfo := at' 32 16 (BitVec.ofNat 16 i) ||| at' 32 0 c } }
      (setJobSt s j .unloaded, c)

/-- JOB_LOAD (R402). -/
def execJobLoad (w : Writer) (job : BitVec 2) (s : State) : Host.Outcome State Fault Refusal := .next (finish (loadJob w s job))

/-- A write of JOB.CTL (R399, R400). -/
def jobCtl (w : Writer) (s : State) (j : BitVec 2) (cmd : Nat) : State × Byte := writeJobCtl (fun s => loadJob w s j) s j cmd

/-! ## A register write in full -/

/-- A write of a value to an entry (R9-R11, R400, R518, R521). -/
def regWrite (w : Writer) (index sub inst : Nat) (r : Reg) (v : Nat) (s : State) : State × Byte :=
  regWriteWith (jobCtl w) w (winAddr index sub inst) r inst v s

/-- A write that an index and a subindex name. -/
def entryWrite (w : Writer) (index sub inst v : Nat) (s : State) : State × Byte :=
  match regAt index sub with
  | .ok r => regWrite w index sub inst r v s
  | .error c => (s, c)

/-- REGISTER_WRITE (R9): a register write. -/
def execRegisterWrite (w : Writer) (index : W16) (sub : BitVec 8) (inst : W16) (value : BitVec 1024) (s : State) :
    Host.Outcome State Fault Refusal :=
  .next (finish (entryWrite w index.toNat sub.toNat inst.toNat value.toNat s))

end Sys2Proof.Machine
end

