-- ==== Sys2Proof/Machine/Entry.lean ====
section
/-!
DEFINITION. The values of DOMAIN entries as bytes, whole writes of an entry by byte strings, and the WRITE token (R496, R500, R507, R509, R524,
R525, R543, R546).
-/
namespace Sys2Proof.Machine
open Sys2Proof

/-! ## Byte strings that are images and tokens -/

/-- An image staged into the entry of a type, from its bytes (R496): manifest, signatures, payload. -/
def imageOf (t : Nat) (bs : List Byte) : Image :=
  let m := bs.take 256
  { typ := BitVec.ofNat 8 t, mtype := (Config.manifestField 0 m).setWidth 8, svn := Config.manifestField 1 m, version := Config.manifestField 2 m
    keyIndex := (Config.manifestField 3 m).setWidth 2, keyRevoke := decide (Config.manifestField 4 m ≠ 0), manifest := m
    hash := Config.manifestHash m, payload := bs.drop (256 + 3373), keys := Config.imageKeys bs, sigs := (bs.drop 256).take 3373 }

/-- A command token from its bytes (R507); too few bytes for header and signatures are no form of one. -/
def tokenOf (bs : List Byte) : Token :=
  let h : BitVec 512 := BitVec.ofNat 512 (leNat (bs.take 64))
  { format := fld h 496 16, kind := fld h 488 8, device := fld h 352 128, nonce := fld h 224 128, ownerGen := fld h 192 32, count := fld h 176 16
    bodyLen := fld h 160 16, rsvZero := decide (fldN h 480 8 = 0) && decide (fldN h 0 160 = 0) && decide (64 + 3373 ≤ bs.length)
    body := (bs.drop 64).take (bs.length - 64 - 3373), sigs := bs.drop (bs.length - 3373) }

/-! ## Whole writes of entries that are not DOMAINs -/

/-- A length that a WRITE of an entry may carry (R525). -/
def lengthOk (r : Reg) (n : Nat) : Bool :=
  if (regInfo r).typ = tyString then decide (n ≤ (regInfo r).size) else decide (n = (regInfo r).size)

/-- A WRITE of a whole value as bytes (R518, R521, R524, R525). ctl performs a command of JOB.CTL. -/
def putWith (ctl : State → BitVec 2 → Nat → State × Byte) (w : Writer) (index sub inst : Nat) (bs : List Byte) (s : State) : State × Byte :=
  match regAt index sub with
  | .error c => (s, c)
  | .ok r =>
    match writeGate s r inst with
    | some c => (s, c)
    | none => if lengthOk r bs.length then regWriteWith ctl w (winAddr index sub inst) r inst (leNat bs) s else (s, stLength)

/-- A WRITE of a whole value by a master, a core or a token. -/
def entryPut (w : Writer) (index sub inst : Nat) (bs : List Byte) (s : State) : State × Byte := putWith (jobCtl w) w index sub inst bs s

/-! ## The WRITE token (R509) -/

/-- A command of JOB.CTL as its acceptance alone goes (R400): a LOAD is accepted in UNLOADED, whatever its image gives later. -/
def ctlAccepts (s : State) (j : BitVec 2) (cmd : Nat) : State × Byte :=
  writeJobCtl (fun s => (s, if (getJob s j).st = .unloaded then stOk else stJobState)) s j cmd

/-- The status with which the write of an item would complete in a state (check 7). -/
def itemStatus (s : State) (i : TokItem) : Byte := (putWith ctlAccepts .token i.index.toNat i.sub.toNat 0 i.value s).2

/-- An item written. -/
def putItem (s : State) (i : TokItem) : State := (entryPut .token i.index.toNat i.sub.toNat 0 i.value s).1

/-- Check 7, then every item in order, or none (R509). An item reaches an entry of scope MODULE only (R543). -/
def writeItems (t : Token) (s : State) : State :=
  let is := (tokItems t.count.toNat t.body).getD []
  let st (i : TokItem) : Byte :=
    match regAt i.index.toNat i.sub.toNat with
    | .ok r => if regScope r = 0 then itemStatus s i else stNoObject
    | .error c => c
  match (is.map st).find? (· ≠ stOk) with
  | some c => refuseToken s 7 c
  | none => acceptToken (is.foldl putItem s)

/-- TOKEN_WRITE (R507, R509). -/
def execTokenWrite (t : Token) (s : State) : Host.Outcome State Fault Refusal := .next (checkToken s (ofKind 1 t) (writeItems t))

/-- A token of any kind, as entry 0x1212 takes it. -/
def runToken (s : State) (t : Token) : State :=
  checkToken s t (match t.kind.toNat with
    | 1 => writeItems t
    | 4 => decommission
    | _ => fun s => newOwner s t)

/-! ## DOMAIN entries -/

/-- Why an entry takes no segmented write at all: no DOMAIN, one that is RO, or its own refusal (R500, R521, R529, R540). -/
def domainRefusal (s : State) (r : Reg) (inst : Nat) : Option Byte :=
  match regGate s r inst with
  | some c => some c
  | none =>
    if plainRo r ∨ !isDomain r then some stAccess
    else match r with
      | .staging t => if t ≠ imgApp ∧ s.fw.standby = 3 then some stCfgBusy else none
      | .image j =>
        let st := (getJob s j).st
        if st ≠ .paused ∧ st ≠ .unloaded ∧ st ≠ .saved then some stJobState else none
      | _ => none

/-- The data of a weir load: WEIR.CFG, then tile IDs of two bytes (R546). -/
def putWeirLoad (s : State) (inst : Nat) (bs : List Byte) : State × Byte :=
  if bs.length < 4 ∨ bs.length % 2 ≠ 0 then (s, stLength)
  else weirLoad s (BitVec.ofNat 12 inst) (BitVec.ofNat 32 (leNat (bs.take 4))) (halfWords (bs.drop 4))

/-- The data of a tree load: pairs of a tile ID and its route entry (R546). -/
def putTreeLoad (s : State) (inst : Nat) (bs : List Byte) : State × Byte :=
  if bs.length % 4 ≠ 0 then (s, stLength)
  else treeLoad s (BitVec.ofNat 10 inst) ((chunksOf 4 (bs.length / 4) bs).map fun c =>
    (BitVec.ofNat 16 (leNat (c.take 2)), BitVec.ofNat 16 (leNat (c.drop 2))))

/-- A whole value written to a DOMAIN entry (R529). -/
def domainPut (r : Reg) (inst : Nat) (bs : List Byte) (s : State) : State × Byte :=
  match domainRefusal s r inst with
  | some c => (s, c)
  | none =>
    if (regInfo r).size < bs.length then (s, stLength)
    else match r with
      | .staging t => stageImage s (imageOf t bs)
      | .token => let s := runToken s (tokenOf bs); (s, s.status)
      | .image j => writeImage s j bs
      | .weirLoad => putWeirLoad s inst bs
      | .treeLoad => putTreeLoad s inst bs
      | _ => (s, stAccess)

/-! ## Writes that complete later (R294, R295, R388, R527, R539) -/

/-- A write of the entry is under way. -/
def lateBusy (s : State) (r : Reg) : Bool :=
  match r with
  | .inval 0 => invalBusy s
  | .trn _ 0 | .trn _ 1 => invalBusy s
  | .job j 1 => decide ((getJob s j).st = .unloading)
  | .gpost j 4 => (getJob s j).reshard.isSome
  | .image j => (getJob s j).imageWait.isSome
  | _ => false

/-- The status with which it completed. -/
def lateStatus (s : State) (r : Reg) : Byte :=
  match r with
  | .gpost j 4 => (getJob s j).reshardStatus
  | .image j => (getJob s j).imageStatus
  | _ => stOk

/-! ## Parts of a value (R529, R537) -/

/-- The parts of a value in the order of their offsets, where they leave no gap and give so many bytes. -/
def assemble (size : Nat) (parts : SMap (List Byte)) : Option (List Byte) :=
  match parts.foldl (fun (r : Option (List Byte)) (e : Nat × List Byte) =>
    match r with
    | some bs => if e.1 ≤ bs.length then some (bs.take e.1 ++ e.2 ++ bs.drop (e.1 + e.2.length)) else none
    | none => none) (some []) with
  | some bs => if bs.length = size then some bs else none
  | none => none

end Sys2Proof.Machine
end

