-- ==== Sys2Proof/Machine/Mgmt.lean ====
section
/-!
DEFINITION. The management port: requests and their responses, segmented transfers, events, discovery (R522-R533, R538, R539).
-/
namespace Sys2Proof.Machine
open Sys2Proof

/-- The port serves: the management cores have been released, and the module holds its address (R498, R522, R533). -/
def portServes (s : State) : Bool := s.mod.resetN && mgmtUp s && s.mgmt.addrOk

def setMgmt (s : State) (f : Mgmt → Mgmt) : State := { s with mgmt := f s.mgmt }

/-! ## Requests and responses (R523-R527) -/

def opRead : Byte := 0x01
def opWrite : Byte := 0x02
def opDescribe : Byte := 0x03
def opSegRead : Byte := 0x04
def opSegStart : Byte := 0x05
def opSegWrite : Byte := 0x06
def opSegEnd : Byte := 0x07
def opSegAbort : Byte := 0x08
def opDiscover : Byte := 0x09
def opPending : Byte := 0x7F

/-- A message to the sender of a request; OFFSET is zero but in segments (R523, R524). -/
def replyTo (q : WaitReq) (op st : Byte) (value : List Byte) : DdpMsg :=
  { op, status := st, index := q.req.index, sub := q.req.sub, inst := q.req.inst, seq := q.req.seq
    offset := if q.op = opSegRead ∨ q.op = opSegWrite then q.req.offset else 0, value, dest := q.req.src }

def queueMsg (s : State) (m : DdpMsg) : State := setMgmt s fun g => { g with outQueue := g.outQueue ++ [m] }

/-- A source heard from: its kept responses become the latest (R526). -/
def hear (s : State) (src : DdpSource) : State :=
  setMgmt s fun g => { g with
    cache := (g.cache.filter fun (e : DdpSource × DdpMsg × W64) => decide (e.1 ≠ src)) ++ g.cache.filter fun (e : DdpSource × DdpMsg × W64) => decide (e.1 = src) }

/-- A response kept: 64 of a source, 16 sources, the source heard from least recently discarded (R526). -/
def keep (s : State) (src : DdpSource) (m : DdpMsg) : State :=
  let own := (s.mgmt.cache.filter fun (e : DdpSource × DdpMsg × W64) => decide (e.1 = src)) ++ [(src, m, s.mod.time)]
  let others := s.mgmt.cache.filter fun (e : DdpSource × DdpMsg × W64) => decide (e.1 ≠ src)
  let drop : List (DdpSource × DdpMsg × W64) → List (DdpSource × DdpMsg × W64) := fun l =>
    match l with
    | e :: _ => l.filter fun x => decide (x.1 ≠ e.1)
    | [] => []
  let others := if 16 ≤ (others.map Prod.fst).eraseDups.length then drop others else others
  setMgmt s fun g => { g with cache := others ++ own.drop (own.length - 64) }

/-- A request answered: the response is queued and kept. -/
def answer (s : State) (q : WaitReq) (st : Byte) (value : List Byte) : State :=
  let m := replyTo q (q.op + 0x80) st value
  keep (queueMsg s m) q.req.src m

/-- The kept response to a request, at most 4 s old (R526). -/
def keptFor (s : State) (r : DdpReq) : Option DdpMsg :=
  (s.mgmt.cache.find? fun e => decide (e.1 = r.src ∧ e.2.1.seq = r.seq) && decide (now s < e.2.2.toNat + 4000000000)).map fun e => e.2.1

/-- What performing a request gives: a response, or a write under way, or a wait before it can be performed. -/
inductive Served where
  | done (st : Byte) (value : List Byte)
  | late
  | hold
deriving DecidableEq, Repr

/-- A write that the journal holds before it is acknowledged (R473). -/
def journal (s : State) (st : Byte) : State := if st = stOk then { s with fw := { s.fw with journal := s.fw.journal + 1 } } else s

/-- A write served: its status, or under way. -/
def servedWrite (r : Reg) (p : State × Byte) : State × Served :=
  let s := journal p.1 p.2
  if p.2 = stOk ∧ lateBusy s r then (s, .late) else (s, .done p.2 [])

/-- READ (R524): the value; a watch image is not taken while a close is BUSY (R540). -/
def serveRead (s : State) (r : Reg) (inst : Nat) : State × Served :=
  match r with
  | .image j => if (getJob s j).closing.isSome then (s, .hold) else
    let (s, v) := regRead s r inst
    (s, match v with | .ok bs => .done stOk bs | .error c => .done c [])
  | _ =>
    let (s, v) := regRead s r inst
    (s, match v with | .ok bs => .done stOk bs | .error c => .done c [])

/-- DESCRIBE (R516): the entry descriptor. -/
def serveDescribe (s : State) (index : Nat) (r : Reg) (inst : Nat) : Served :=
  if regNamed s r inst then .done stOk (toLE 8 (descriptor index r).toNat) else .done stNoObject []

/-! ## Segmented transfers (R529, R530) -/

/-- The open transfer or snapshot of an entry. -/
def segOf (s : State) (q : DdpReq) : Option SegXfer :=
  s.mgmt.segs.find? fun x => decide (x.index = q.index ∧ x.sub = q.sub ∧ x.inst = q.inst)

/-- The transfers of other entries. -/
def otherSegs (s : State) (q : DdpReq) : List SegXfer :=
  s.mgmt.segs.filter fun x => !decide (x.index = q.index ∧ x.sub = q.sub ∧ x.inst = q.inst)

/-- Another transfer of an entry, in place of any that is open, where at most 4 are (R529). -/
def openSeg (s : State) (q : DdpReq) (snap : Bool) (size : Nat) (parts : SMap (List Byte)) : Option State :=
  if 4 ≤ (otherSegs s q).length then none
  else
    let x : SegXfer := { index := q.index, sub := q.sub, inst := q.inst, snap, size, parts, lastAt := s.mod.time }
    some (setMgmt s fun g => { g with
      segs := otherSegs s q ++ [x]
      parts := g.parts.filter fun y => snap || !decide (y.index = q.index ∧ y.sub = q.sub ∧ y.inst = q.inst) })

/-- An open transfer changed, a message having arrived on it. -/
def putSeg (s : State) (q : DdpReq) (x : SegXfer) : State := setMgmt s fun g => { g with segs := otherSegs s q ++ [{ x with lastAt := s.mod.time }] }

/-- An open transfer closed. -/
def closeSeg (s : State) (q : DdpReq) : State := setMgmt s fun g => { g with segs := otherSegs s q }

/-- SEG_READ (R530). -/
def serveSegRead (s : State) (q : DdpReq) (r : Reg) (len : Nat) : State × Served :=
  if 1024 < len then (s, .done stLength [])
  else if !isDomain r then (s, .done stAccess [])
  else if q.offset = 0 then
    match regGate s r q.inst.toNat with
    | some c => (s, .done c [])
    | none =>
      match domainVal s r with
      | .error c => (s, .done c [])
      | .ok bs =>
        if (match r with | .image j => (getJob s j).closing.isSome | _ => false) then (s, .hold)
        else match openSeg s q true bs.length (mset [] [] 0 bs) with
          | some s => (s, .done stOk (bs.take len))
          | none => (s, .done stBusy [])
  else match segOf s q with
    | some x =>
      if x.snap then (putSeg s q x, .done stOk (((mget [] x.parts 0).drop q.offset.toNat).take len)) else (s, .done stSegment [])
    | none => (s, .done stSegment [])

/-- SEG_WRITE_START (R529). -/
def serveSegStart (s : State) (q : DdpReq) (r : Reg) (size : Nat) : State × Served :=
  match domainRefusal s r q.inst.toNat with
  | some c => (s, .done c [])
  | none =>
    if (regInfo r).size < size then (s, .done stLength [])
    else match openSeg s q false size [] with
      | some s => (s, .done stOk [])
      | none => (s, .done stBusy [])

/-- Segments of a transfer whose responses have not been sent. -/
def unanswered (s : State) (q : DdpReq) : Nat :=
  (s.mgmt.outQueue.filter fun m => decide (m.op = 0x86 ∧ m.index = q.index ∧ m.sub = q.sub ∧ m.inst = q.inst)).length

/-- SEG_WRITE (R529). -/
def serveSegWrite (s : State) (q : DdpReq) (bs : List Byte) : State × Served :=
  match segOf s q with
  | some x =>
    let off := q.offset.toNat
    if x.snap || decide (off % 1024 ≠ 0) || decide (x.size ≤ off) || decide (bs.length ≠ Nat.min 1024 (x.size - off)) || decide (8 ≤ unanswered s q) then
      (s, .done stSegment [])
    else (putSeg s q { x with parts := mset [] x.parts off bs }, .done stOk [])
  | none => (s, .done stSegment [])

/-- SEG_WRITE_END (R529): the whole value is written as one WRITE. -/
def serveSegEnd (s : State) (q : DdpReq) (r : Reg) (crc : Nat) : State × Served :=
  match segOf s q with
  | some x =>
    if x.snap then (s, .done stSegment [])
    else match assemble x.size x.parts with
      | none => (putSeg s q x, .done stSegment [])
      | some bs =>
        let s := closeSeg s q
        if (crc32 bs).toNat ≠ crc then (s, .done stSegment []) else servedWrite r (domainPut r q.inst.toNat bs s)
  | none => (s, .done stSegment [])

/-- SEG_ABORT (R529). -/
def serveSegAbort (s : State) (q : DdpReq) : State × Served :=
  if (segOf s q).isSome then (closeSeg s q, .done stOk []) else (s, .done stSegment [])

/-- The identity that DISCOVER returns (R533). -/
def discoverValue (s : State) : List Byte :=
  partNumber ++ toLE 2 0x00A0 ++ toLE 1 s.mod.slotId.toNat ++ [0] ++ toLE 4 (modStateReg s.mod).toNat ++ toLE 16 Config.deviceDigest.toNat
  ++ toLE 4 (slotVersion s.fw s.fw.slot imgMgmt).toNat ++ toLE 4 s.sec.ownerGen.toNat

/-! ## Serving in order (R525-R527) -/

/-- A request performed. -/
def serve (s : State) (q : WaitReq) : State × Served :=
  if q.op = opDiscover then (s, .done stOk (discoverValue s))
  else match regAt q.req.index.toNat q.req.sub.toNat with
    | .error c => (s, .done c [])
    | .ok r =>
      let inst := q.req.inst.toNat
      let n := leNat q.bytes
      if q.op = opRead then serveRead s r inst
      else if q.op = opWrite then servedWrite r (entryPut .port q.req.index.toNat q.req.sub.toNat inst q.bytes s)
      else if q.op = opDescribe then (s, serveDescribe s q.req.index.toNat r inst)
      else if q.op = opSegRead then serveSegRead s q.req r n
      else if q.op = opSegStart then serveSegStart s q.req r n
      else if q.op = opSegWrite then serveSegWrite s q.req q.bytes
      else if q.op = opSegEnd then serveSegEnd s q.req r n
      else serveSegAbort s q.req

/-- A request waits behind one of the same entry and number, from whatever source (R527). -/
def behind (s : State) (q : WaitReq) : Bool :=
  s.mgmt.waiting.any fun w => decide (w.req.index = q.req.index ∧ w.req.sub = q.req.sub ∧ w.req.inst = q.req.inst) && decide (q.op ≠ opDiscover)

/-- Sixteen requests wait (R527). -/
def waitFull (s : State) : Bool := decide (16 ≤ (s.mgmt.waiting.filter fun w => !w.started).length)

def addWait (s : State) (q : WaitReq) : State := setMgmt s fun g => { g with waiting := g.waiting ++ [q] }

/-- A request performed: its response, or its place among those that wait. -/
def perform (s : State) (q : WaitReq) : State :=
  let s := setMgmt s fun g => { g with requests := g.requests + 1 }
  match serve s q with
  | (s, .done st v) => answer s q st v
  | (s, .late) => addWait s { q with started := true }
  | (s, .hold) => addWait (setMgmt s fun g => { g with requests := g.requests - 1 }) q

/-- A waiting request looked at again, those before it having been. -/
def settleWait (s : State) (q : WaitReq) : State :=
  if behind s q then addWait s q
  else if q.started then
    match regAt q.req.index.toNat q.req.sub.toNat with
    | .ok r => if lateBusy s r then addWait s q else answer s q (lateStatus s r) []
    | .error c => answer s q c []
  else perform s q

/-- Every write that has completed is answered, and what waited behind it is performed. -/
def settleWaits (s : State) : State := s.mgmt.waiting.foldl settleWait (setMgmt s fun g => { g with waiting := [] })

/-- A request that firmware does not take now (R475, R484): step 3 of a handover, or no present slice holds the working store that it needs. -/
def busyNow (s : State) (q : WaitReq) : Bool :=
  swapping s || ((secureCopies s).isEmpty && decide (q.op ≠ opDiscover) && Config.needsStore q.req.index q.req.sub)

/-- A new request: a repeat is answered from what is kept, or with PENDING; another one is performed, or waits where at most 16 do
(R475, R484, R526, R527). -/
def request (s : State) (r : DdpReq) (op : Byte) (bytes : List Byte) : State :=
  if !portServes s then s
  else
    let s := settleWaits (hear s r.src)
    let q : WaitReq := { req := r, op, bytes, started := false, pendAt := s.mod.time }
    let repeated (s : State) : State := setMgmt s fun g => { g with repeats := g.repeats + 1 }
    match keptFor s r with
    | some m => queueMsg (repeated s) m
    | none =>
      match s.mgmt.waiting.find? fun w => decide (w.req.src = r.src ∧ w.req.seq = r.seq) with
      | some w => queueMsg (repeated s) (replyTo w opPending 0 [])
      | none =>
        if busyNow s q then answer s q stBusy []
        else if behind s q then
          if waitFull s then answer s q stBusy [] else addWait s q
        else perform s q

/-- DDP_READ (R524). -/
def execDdpRead (r : DdpReq) (s : State) : Host.Outcome State Fault Refusal := .next (request s r opRead [])
/-- DDP_WRITE (R524, R525). -/
def execDdpWrite (r : DdpReq) (bytes : List Byte) (s : State) : Host.Outcome State Fault Refusal := .next (request s r opWrite bytes)
/-- DESCRIBE (R516). -/
def execDescribe (r : DdpReq) (s : State) : Host.Outcome State Fault Refusal := .next (request s r opDescribe [])
/-- SEG_READ (R530). -/
def execSegRead (r : DdpReq) (len : Nat) (s : State) : Host.Outcome State Fault Refusal := .next (request s r opSegRead (toLE 2 (Nat.min len 65535)))
/-- SEG_WRITE_START (R529). -/
def execSegWriteStart (r : DdpReq) (size : W32) (s : State) : Host.Outcome State Fault Refusal := .next (request s r opSegStart (toLE 4 size.toNat))
/-- SEG_WRITE (R529). -/
def execSegWrite (r : DdpReq) (bytes : List Byte) (s : State) : Host.Outcome State Fault Refusal := .next (request s r opSegWrite bytes)
/-- SEG_WRITE_END (R529). -/
def execSegWriteEnd (r : DdpReq) (crc : W32) (s : State) : Host.Outcome State Fault Refusal := .next (request s r opSegEnd (toLE 4 crc.toNat))
/-- SEG_ABORT (R529). -/
def execSegAbort (r : DdpReq) (s : State) : Host.Outcome State Fault Refusal := .next (request s r opSegAbort [])
/-- DISCOVER (R533). -/
def execDiscover (r : DdpReq) (s : State) : Host.Outcome State Fault Refusal := .next (request s r opDiscover [])

/-- DROPPED_DATAGRAM (R523): dropped without response and counted. -/
def execDroppedDatagram (_len : Nat) (s : State) : Host.Outcome State Fault Refusal :=
  .next (if portServes s then setMgmt s fun g => { g with dropped := g.dropped + 1 } else s)

/-! ## Timers (R526, R527, R529, R530) -/

/-- Transfers of an entry that have received no message for 10 s leave. -/
def expireSegs (s : State) (snap : Bool) (index : W16) (sub : BitVec 8) (inst : W16) : State :=
  setMgmt s fun g => { g with
    segs := g.segs.filter fun x =>
      !(decide (x.snap = snap ∧ x.index = index ∧ x.sub = sub ∧ x.inst = inst) && decide (x.lastAt.toNat + 10000000000 ≤ now s)) }

/-- SEG_TRANSFER_TIMEOUT (R529). -/
def execSegTransferTimeout (index : W16) (sub : BitVec 8) (inst : W16) (s : State) : Host.Outcome State Fault Refusal :=
  .next (expireSegs s false index sub inst)

/-- SNAPSHOT_EXPIRE (R530). -/
def execSnapshotExpire (index : W16) (sub : BitVec 8) (inst : W16) (s : State) : Host.Outcome State Fault Refusal :=
  .next (expireSegs s true index sub inst)

/-- PENDING_TIMER (R527): PENDING to each request that still waits, every 20 ms. -/
def execPendingTimer (s : State) : Host.Outcome State Fault Refusal :=
  .next (
    if portServes s then
      let s := settleWaits s
      let due (q : WaitReq) : Bool := decide (q.pendAt.toNat + 20000000 ≤ now s)
      setMgmt s fun g => { g with
        outQueue := g.outQueue ++ (g.waiting.filter due).map fun q => replyTo q opPending 0 []
        waiting := g.waiting.map fun q => if due q then { q with pendAt := s.mod.time } else q }
    else s)

/-- RESPONSE_CACHE_EXPIRE (R526): responses kept for 4 s leave. -/
def execResponseCacheExpire (s : State) : Host.Outcome State Fault Refusal :=
  .next (setMgmt s fun g => { g with cache := g.cache.filter fun (e : DdpSource × DdpMsg × W64) => decide (now s < e.2.2.toNat + 4000000000) })

/-- TRANSMIT_OPPORTUNITY (R522, R528): the next queued message is sent. -/
def execTransmitOpportunity (s : State) : Host.Outcome State Fault Refusal :=
  .next (
    if portServes s then
      let s := settleWaits s
      match s.mgmt.outQueue with
      | m :: rest => setMgmt s fun g => { g with outQueue := rest, sent := g.sent ++ [m] }
      | [] => s
    else s)

/-! ## Access to the segment and the address (R522) -/

/-- PLCA_BEACON (R522). -/
def execPlcaBeacon (s : State) : Host.Outcome State Fault Refusal :=
  .next (if s.mod.resetN then setMgmt s fun g => { g with plca := true, lastBeacon := s.mod.time } else s)

/-- PLCA_BEACON_TIMEOUT (R522): 4 ms without a BEACON. -/
def execPlcaBeaconTimeout (s : State) : Host.Outcome State Fault Refusal :=
  .next (if s.mod.resetN ∧ s.mgmt.lastBeacon.toNat + 4000000 ≤ now s then setMgmt s fun g => { g with plca := false } else s)

/-- DAD_REPEAT (R522): every 10 s after a conflict. -/
def execDadRepeat (conflict : Bool) (s : State) : Host.Outcome State Fault Refusal :=
  .next (if mgmtUp s ∧ s.mgmt.addrOk = false ∧ s.mgmt.dadAt.toNat + 10000000000 ≤ now s then detect s (!conflict) else s)

/-- The module's MAC address 02:12:16:00:00:SS and its link-local address fe80::12:16ff:fe00:SS (R522). -/
def macBytes (s : State) : List Byte := [0x02, 0x12, 0x16, 0x00, 0x00] ++ toLE 1 s.mod.slotId.toNat
def ownAddr (s : State) : BitVec 128 := at' 128 0 (0xFE80000000000000001216FFFE000000 : BitVec 128) ||| at' 128 0 (s.mod.slotId.setWidth 128)

/-- The group ff02::12:16, all nodes ff02::1 and the MLDv2 routers ff02::16. -/
def groupAddr : BitVec 128 := 0xFF020000000000000000000000120016
def allNodes : BitVec 128 := 0xFF020000000000000000000000000001
def mldRouters : BitVec 128 := 0xFF020000000000000000000000000016

/-- What answers an ICMPv6 message: destination, and the message without its checksum (RFC 4861, RFC 4443, RFC 3810). -/
def icmpAnswer (s : State) (m : IcmpMsg) : Option (BitVec 128 × List Byte) :=
  match m with
  | .neighbourSolicit target src =>
    if target = ownAddr s then
      some (if src = 0 then allNodes else src, [136, 0] ++ toBE 4 (if src = 0 then 0x20000000 else 0x60000000) ++ toBE 16 target.toNat ++ [2, 1] ++ macBytes s)
    else none
  | .mldQuery _ => some (mldRouters, [143, 0] ++ toBE 4 1 ++ [2, 0, 0, 0] ++ toBE 16 groupAddr.toNat)
  | .echo src bytes => some (src, [129, 0] ++ bytes)
  | .routerAdvert => none

/-- ICMPV6_RECEIVE (R522). -/
def execIcmpv6Receive (m : IcmpMsg) (s : State) : Host.Outcome State Fault Refusal :=
  .next (
    if portServes s then
      match icmpAnswer s m with
      | some a => setMgmt s fun g => { g with icmpOut := g.icmpOut ++ [a] }
      | none => s
    else s)

/-! ## Events (R531) -/

/-- EVENT_ACK (R531): the event of that SEQ leaves the unacknowledged set. -/
def execEventAck (seq : W16) (s : State) : Host.Outcome State Fault Refusal :=
  .next (
    if portServes s then pumpEvents 16 (setMgmt s fun g => { g with unacked := g.unacked.filter fun e => decide (e.seq ≠ seq) }) else s)

/-- An unacknowledged event due again, 10 ms after it was sent: sent again, or abandoned after 4 sends (R531). -/
def resendEvent (s : State) (e : Event) : State :=
  if now s < e.sentAt.toNat + 10000000 then s
  else if 4 ≤ e.sends then
    pumpEvents 16 (setMgmt s fun g => { g with unacked := g.unacked.filter fun x => decide (x.seq ≠ e.seq), eventsLost := g.eventsLost + 1 })
  else
    let e' := { e with sends := e.sends + 1, sentAt := s.mod.time }
    queueMsg (setMgmt s fun g => { g with unacked := g.unacked.map fun x => if x.seq = e.seq then e' else x }) (eventMsg s e')

/-- EVENT_RESEND (R531). -/
def execEventResend (seq : W16) (s : State) : Host.Outcome State Fault Refusal :=
  .next (
    if portServes s then
      match s.mgmt.unacked.find? fun e => decide (e.seq = seq) with
      | some e => resendEvent s e
      | none => s
    else s)

end Sys2Proof.Machine
end

