-- ==== Sys2Proof/Machine/Window.lean ====
section
/-!
DEFINITION. The control-die window: loads, staged and committed stores, WIN.STATUS, WIN.DOMAIN (R534-R537, R539).
-/
namespace Sys2Proof.Machine
open Sys2Proof

def getWin (s : State) (core : Nat) : WinCore := mget WinCore.reset s.win core
def putWin (s : State) (core : Nat) (w : WinCore) : State := { s with win := mset WinCore.reset s.win core w }

/-- The cores of the control die run: they are released at the end of the module's boot (R447, R498). -/
def coresRun (s : State) : Bool := s.mod.resetN && mgmtUp s

/-! ## WIN.STATUS (R536) -/

/-- WIN.STATUS of a core. -/
def winStatusReg (w : WinCore) : W64 :=
  at' 64 32 w.done ||| at' 64 16 (b2 (!w.waits.isEmpty)) ||| at' 64 8 w.first ||| at' 64 0 w.last

/-- A write of a core completed with a status. -/
def complete (s : State) (core : Nat) (st : Byte) : State :=
  let w := getWin s core
  setStatus (putWin s core { w with done := w.done + 1, first := if w.first = 0 then st else w.first, last := st }) st

/-- A write of a core that goes on. -/
def winLate (s : State) (core : Nat) (index sub inst : Nat) : State :=
  let w := getWin s core
  putWin s core { w with waits := w.waits ++ [(BitVec.ofNat 16 index, BitVec.ofNat 8 sub, BitVec.ofNat 16 inst)] }

/-- The outcome of a write of a core: completed, or still under way. -/
def winOutcome (s : State) (core : Nat) (index sub inst : Nat) (r : Reg) (st : Byte) : State :=
  if st = stOk ∧ lateBusy s r then winLate s core index sub inst else complete s core st

/-! ## WIN.DOMAIN (R537) -/

def wdBuf (v : BitVec 256) : Nat := fldN v 192 64
def wdLen (v : BitVec 256) : Nat := fldN v 160 32
def wdOffset (v : BitVec 256) : Nat := fldN v 128 32
def wdInst (v : BitVec 256) : W16 := fld v 48 16
def wdIndex (v : BitVec 256) : W16 := fld v 32 16
def wdSub (v : BitVec 256) : BitVec 8 := fld v 24 8
def wdOp (v : BitVec 256) : Nat := fldN v 0 8

/-- The buffer lies in the reserve part of a core's world (R483). -/
def bufferOk (core : Fin 18) (pa n : Nat) : Bool :=
  if secureWriter (.core core) then reserveStack (paStack pa) && decide (0xFC0000000 ≤ pa % 2 ^ 36) && decide (pa % 2 ^ 36 + n ≤ 2 ^ 36)
  else inReserveNs pa n

/-- A move whose buffer does not lie there: WORLD_VIOLATION, with a record where the non-secure world names secure memory (R482). -/
def bufferRefused (s : State) (core : Fin 18) (pa : Nat) : State :=
  if !secureWriter (.core core) && securePa s pa then putErr s (worldErr 9 (BitVec.ofNat 16 core.val) 15 none pa) else s

/-- Bytes of the buffer, from the present copy of the secure part or from where they are (R483). -/
def bufferGet (s : State) (pa n : Nat) : State × List Byte × Byte :=
  match copiesOf s pa false with
  | p :: _ => hbmLoad s p n none
  | [] => (s, [], cStackGone)

/-- Bytes put into the buffer, in every present copy of the secure part. -/
def bufferPut (s : State) (pa : Nat) (bs : List Byte) : State × Byte :=
  let ps := copiesOf s pa true
  ps.foldl (fun (r : State × Byte) p =>
    let (s, st) := hbmStore r.1 p bs none
    (s, if r.2 = 0 then st else r.2)) (s, if ps.isEmpty then cStackGone else stOk)

/-- The value that a move reads: a whole DOMAIN, or the value of another entry. -/
def moveValue (s : State) (r : Reg) (inst : Nat) : State × Except Byte (List Byte) :=
  if isDomain r then
    match regGate s r inst with
    | some c => (s, .error c)
    | none => (s, domainVal s r)
  else regRead s r inst

/-- OP 1: part of the value, from one snapshot, into the buffer. -/
def moveRead (s : State) (v : BitVec 256) (r : Reg) : State × Byte :=
  match moveValue s r (wdInst v).toNat with
  | (s, .error c) => (s, c)
  | (s, .ok bs) => bufferPut s (wdBuf v) ((bs.drop (wdOffset v)).take (wdLen v))

/-- The parts kept of an entry's value. -/
def partsOf (s : State) (v : BitVec 256) : SMap (List Byte) :=
  match s.mgmt.parts.find? fun x => decide (x.index = wdIndex v ∧ x.sub = wdSub v ∧ x.inst = wdInst v) with
  | some x => x.parts
  | none => []

def otherParts (s : State) (v : BitVec 256) : List SegXfer :=
  s.mgmt.parts.filter fun x => !decide (x.index = wdIndex v ∧ x.sub = wdSub v ∧ x.inst = wdInst v)

/-- A part kept: one of the same offset is overwritten; an open transfer of the management port on the entry closes (R529). -/
def keepPart (s : State) (v : BitVec 256) (bs : List Byte) : State :=
  let x : SegXfer := { index := wdIndex v, sub := wdSub v, inst := wdInst v, snap := false, size := 0,
                       parts := mset [] (partsOf s v) (wdOffset v) bs, lastAt := s.mod.time }
  setMgmt s fun g => { g with
    parts := otherParts s v ++ [x]
    segs := g.segs.filter fun y => y.snap || !decide (y.index = wdIndex v ∧ y.sub = wdSub v ∧ y.inst = wdInst v) }

/-- Why an entry takes no part: its own refusal. -/
def partRefusal (s : State) (v : BitVec 256) (r : Reg) : Option Byte :=
  let c := if isDomain r then domainRefusal s r (wdInst v).toNat else writeGate s r (wdInst v).toNat
  match c with
  | some c => some c
  | none => if (regInfo r).size < wdOffset v + wdLen v then some stLength else none

/-- OP 2 and OP 3 up to the part: read from the buffer and kept. -/
def movePart (s : State) (v : BitVec 256) (r : Reg) : State × Byte :=
  match partRefusal s v r with
  | some c => (s, c)
  | none =>
    let (s, bs, st) := bufferGet s (wdBuf v) (wdLen v)
    if st = stOk then (keepPart s v bs, stOk) else (s, st)

/-- OP 3: the whole value written, where no part of it is missing. -/
def moveCommit (s : State) (core : Fin 18) (v : BitVec 256) (r : Reg) : State × Byte :=
  match movePart s v r with
  | (s, st) =>
    if st ≠ stOk then (s, st)
    else match assemble (wdOffset v + wdLen v) (partsOf s v) with
      | none => (s, stSegment)
      | some bs =>
        let s := setMgmt s fun g => { g with parts := otherParts s v }
        let inst := (wdInst v).toNat
        let p := if isDomain r then domainPut r inst bs s else entryPut (.core core) (wdIndex v).toNat (wdSub v).toNat inst bs s
        (journal p.1 p.2, p.2)

/-- A read of a watch image waits while a close of its job is BUSY (R540). -/
def readHeld (s : State) (r : Reg) : Bool := match r with | .image j => (getJob s j).closing.isSome | _ => false

/-- A move of core c, with WIN.DOMAIN as stored; the world is that of the core that stored it (R480, R537). -/
def move (s : State) (core : Fin 18) (c : Nat) (v : BitVec 256) : State :=
  let s := putWin s c { getWin s c with domain := v &&& ~~~ (maskAt 256 64 64 ||| maskAt 256 8 16) }
  let index := (wdIndex v).toNat
  let sub := (wdSub v).toNat
  let inst := (wdInst v).toNat
  if !bufferOk core (wdBuf v) (wdLen v) then complete (bufferRefused s core (wdBuf v)) c stWorld
  else match regAt index sub with
    | .error st => complete s c st
    | .ok r =>
      match wdOp v with
      | 1 =>
        if readHeld s r then winLate s c index sub inst
        else let (s, st) := moveRead s v r; complete s c st
      | 2 => let (s, st) := movePart s v r; complete s c st
      | _ => let (s, st) := moveCommit s core v r; winOutcome s c index sub inst r st

/-- Writes of a core that have completed since, and a read of a watch image that waited. -/
def settleWin (s : State) (c : Nat) : State :=
  (getWin s c).waits.foldl (fun s (e : W16 × BitVec 8 × W16) =>
    let again (s : State) : State := winLate s c e.1.toNat e.2.1.toNat e.2.2.toNat
    match regAt e.1.toNat e.2.1.toNat with
    | .error st => complete s c st
    | .ok r =>
      let v := (getWin s c).domain
      match r with
      | .image _ =>
        if wdOp v = 1 then
          if readHeld s r then again s else let (s, st) := moveRead s v r; complete s c st
        else if lateBusy s r then again s else complete s c (lateStatus s r)
      | _ => if lateBusy s r then again s else complete s c (lateStatus s r)) (putWin s c { getWin s c with waits := [] })

/-- A move of the core is under way. -/
def moving (s : State) (core : Nat) : Bool :=
  (getWin s core).waits.any fun e => match regAt e.1.toNat e.2.1.toNat with | .ok (.image _) => true | _ => false

/-- A store to word 0 of the WIN.DOMAIN of core c: an unlisted OP, or a buffer address that is no multiple of 64, leaves the register as it is
(R11). -/
def winDomain (s : State) (core : Fin 18) (c : Nat) (v : BitVec 256) : State :=
  let s := settleWin s c
  if wdOp v = 0 ∨ 3 < wdOp v ∨ wdBuf v % 64 ≠ 0 then complete s c stInvalid
  else if moving s c then complete s c stBusy
  else move s core c v

/-- WIN.DOMAIN with the operation of a row. -/
def withOp (v : BitVec 256) (op : Nat) : BitVec 256 := setFld v 0 8 op

/-- WIN_DOMAIN_READ (R537). -/
def execWinDomainRead (core : Fin 18) (value : BitVec 256) (s : State) : Host.Outcome State Fault Refusal :=
  .next (if coresRun s then winDomain s core core.val (withOp value 1) else s)
/-- WIN_DOMAIN_WRITE (R537). -/
def execWinDomainWrite (core : Fin 18) (value : BitVec 256) (s : State) : Host.Outcome State Fault Refusal :=
  .next (if coresRun s then winDomain s core core.val (withOp value 2) else s)
/-- WIN_DOMAIN_COMMIT (R537). -/
def execWinDomainCommit (core : Fin 18) (value : BitVec 256) (s : State) : Host.Outcome State Fault Refusal :=
  .next (if coresRun s then winDomain s core core.val (withOp value 3) else s)

/-! ## Loads (R534, R535) -/

/-- A window address: instance, index, subindex, word of 8 bytes. -/
def waInst (a : BitVec 46) : Nat := fldN a 30 16
def waIndex (a : BitVec 46) : Nat := fldN a 14 16
def waSub (a : BitVec 46) : Nat := fldN a 6 8
def waWord (a : BitVec 46) : Nat := fldN a 3 3
def waSlot (a : BitVec 46) : Nat := fldN a 6 40

/-- The value of a slot: zeros where an entry is refused, served by firmware, or a DOMAIN (R535). -/
def slotValue (s : State) (a : BitVec 46) : State × List Byte :=
  let i := waIndex a
  if i = 0x1F00 ∨ i = 0x1F01 then
    if waInst a ≠ 0 ∨ 17 < waSub a then (s, [])
    else if i = 0x1F00 then (s, toLE 8 (winStatusReg (getWin s (waSub a))).toNat)
    else (s, toLE 32 (getWin s (waSub a)).domain.toNat)
  else match regAt i (waSub a) with
    | .error _ => (s, [])
    | .ok r =>
      if (regInfo r).firmware ∨ isDomain r then (s, [])
      else match regRead s r (waInst a) with
        | (s, .ok bs) => (s, bs)
        | (s, .error _) => (s, [])

/-- A window load: word 0 captures the whole value; words 1 to 7 return the core's last capture of the slot. -/
def windowLoad (s : State) (core : Fin 18) (a : BitVec 46) : State :=
  let s := settleWin s core.val
  let c := core.val
  if waWord a = 0 then
    let (s, bs) := slotValue s a
    let w := getWin s c
    putWin s c { w with caps := mset [] w.caps (waSlot a) bs, loaded := BitVec.ofNat 64 (leNat (bs.take 8)) }
  else
    let w := getWin s c
    putWin s c { w with loaded := BitVec.ofNat 64 (leNat (((mget [] w.caps (waSlot a)).drop (8 * waWord a)).take 8)) }

/-- WINDOW_LOAD (R535). -/
def execWindowLoad (core : Fin 18) (addr : BitVec 46) (s : State) : Host.Outcome State Fault Refusal :=
  .next (if coresRun s then windowLoad s core addr else s)

/-! ## Stores (R535) -/

/-- The slot of an entry that takes no store: a DOMAIN, or an entry served by firmware. -/
def slotClosed (a : BitVec 46) : Bool :=
  match regAt (waIndex a) (waSub a) with
  | .ok r => (regInfo r).firmware || isDomain r
  | .error _ => false

/-- A store to words 1 to 7: staged for the core, for one slot at a time. -/
def stageWord (s : State) (core : Fin 18) (a : BitVec 46) (v : W64) : State :=
  if slotClosed a then complete s core.val stAccess
  else
    let w := getWin s core.val
    let old := if w.stageSlot = waSlot a then w.stage else []
    putWin s core.val { w with stage := (old.filter fun (e : Nat × W64) => decide (e.1 ≠ waWord a)) ++ [(waWord a, v)], stageSlot := waSlot a }

/-- WINDOW_STORE_STAGE (R535). -/
def execWindowStoreStage (core : Fin 18) (addr : BitVec 46) (value : W64) (s : State) : Host.Outcome State Fault Refusal :=
  .next (if coresRun s ∧ waWord addr ≠ 0 then stageWord s core addr value else s)

/-- A store to word 0: the value committed whole with the words staged for the slot. -/
def commitWord (s : State) (core : Fin 18) (a : BitVec 46) (v : W64) : State :=
  let c := core.val
  let s := settleWin s core.val
  let w := getWin s c
  let staged := if w.stageSlot = waSlot a then w.stage.map fun (e : Nat × W64) => (e.1, e.2.toNat) else []
  let s := putWin s c { w with stage := [], stageSlot := 0 }
  let i := waIndex a
  let sub := waSub a
  if i = 0x1F00 ∨ i = 0x1F01 then
    if 17 < sub then complete s c stNoSub
    else if waInst a ≠ 0 then complete s c stNoObject
    else if i = 0x1F00 then complete (putWin s sub { getWin s sub with first := fld v 8 8 }) c stOk
    else let (x, s) := wholeValue 32 v.toNat staged s; winDomain s core sub (BitVec.ofNat 256 x)
  else match regAt i sub with
    | .error st => complete s c st
    | .ok r =>
      if slotClosed a then complete s c stAccess
      else
        let (x, s) := wholeValue (regInfo r).size v.toNat staged s
        let (s, st) := regWrite (.core core) i sub (waInst a) r x s
        winOutcome s c i sub (waInst a) r st

/-- WINDOW_STORE_COMMIT (R535). -/
def execWindowStoreCommit (core : Fin 18) (addr : BitVec 46) (value : W64) (s : State) : Host.Outcome State Fault Refusal :=
  .next (if coresRun s ∧ waWord addr = 0 then commitWord s core addr value else s)

end Sys2Proof.Machine
end

