-- ==== Sys2Proof/Machine/Dispatch.lean ====
section
/-!
DEFINITION. One arm per command: the meaning it calls.
-/
namespace Sys2Proof.Machine
open Sys2Proof

def exec (i : Instr) (s : State) : Host.Outcome State Fault Refusal :=
  match i with
  | .add h gD gA gB => Sys2Proof.Machine.execAdd h gD gA gB s
  | .sub h gD gA gB => Sys2Proof.Machine.execSub h gD gA gB s
  | .and h gD gA gB => Sys2Proof.Machine.execAnd h gD gA gB s
  | .or h gD gA gB => Sys2Proof.Machine.execOr h gD gA gB s
  | .xor h gD gA gB => Sys2Proof.Machine.execXor h gD gA gB s
  | .shl h gD gA gB => Sys2Proof.Machine.execShl h gD gA gB s
  | .shr h gD gA gB => Sys2Proof.Machine.execShr h gD gA gB s
  | .sra h gD gA gB => Sys2Proof.Machine.execSra h gD gA gB s
  | .mul h gD gA gB => Sys2Proof.Machine.execMul h gD gA gB s
  | .mulh h gD gA gB => Sys2Proof.Machine.execMulh h gD gA gB s
  | .mulhu h gD gA gB => Sys2Proof.Machine.execMulhu h gD gA gB s
  | .min h gD gA gB => Sys2Proof.Machine.execMin h gD gA gB s
  | .max h gD gA gB => Sys2Proof.Machine.execMax h gD gA gB s
  | .minu h gD gA gB => Sys2Proof.Machine.execMinu h gD gA gB s
  | .maxu h gD gA gB => Sys2Proof.Machine.execMaxu h gD gA gB s
  | .ext h gD gA gB => Sys2Proof.Machine.execExt h gD gA gB s
  | .dep h gD gA gB => Sys2Proof.Machine.execDep h gD gA gB s
  | .clz h gD gA gB => Sys2Proof.Machine.execClz h gD gA gB s
  | .popc h gD gA gB => Sys2Proof.Machine.execPopc h gD gA gB s
  | .cmpeq h gD gA gB => Sys2Proof.Machine.execCmpeq h gD gA gB s
  | .cmpne h gD gA gB => Sys2Proof.Machine.execCmpne h gD gA gB s
  | .cmplt h gD gA gB => Sys2Proof.Machine.execCmplt h gD gA gB s
  | .cmpltu h gD gA gB => Sys2Proof.Machine.execCmpltu h gD gA gB s
  | .cmpge h gD gA gB => Sys2Proof.Machine.execCmpge h gD gA gB s
  | .cmpgeu h gD gA gB => Sys2Proof.Machine.execCmpgeu h gD gA gB s
  | .pand h gD gA gB => Sys2Proof.Machine.execPand h gD gA gB s
  | .por h gD gA gB => Sys2Proof.Machine.execPor h gD gA gB s
  | .pxor h gD gA gB => Sys2Proof.Machine.execPxor h gD gA gB s
  | .pnot h gD gA gB => Sys2Proof.Machine.execPnot h gD gA gB s
  | .aluiOp h op gD gA imm => Sys2Proof.Machine.execAluiOp h op gD gA imm s
  | .li h gD imm => Sys2Proof.Machine.execLi h gD imm s
  | .lih h gD imm => Sys2Proof.Machine.execLih h gD imm s
  | .j h off => Sys2Proof.Machine.execJ h off s
  | .jl h gD off => Sys2Proof.Machine.execJl h gD off s
  | .jr h gA off => Sys2Proof.Machine.execJr h gA off s
  | .jlr h gD gA off => Sys2Proof.Machine.execJlr h gD gA off s
  | .loop h gD gA off => Sys2Proof.Machine.execLoop h gD gA off s
  | .ld h sz gT gA off => Sys2Proof.Machine.execLd h sz gT gA off s
  | .ldu h sz gT gA off => Sys2Proof.Machine.execLdu h sz gT gA off s
  | .st h sz gT gA off => Sys2Proof.Machine.execSt h sz gT gA off s
  | .nop h => Sys2Proof.Machine.execNop h s
  | .halt h => Sys2Proof.Machine.execHalt h s
  | .haltRetire tile => Sys2Proof.Machine.execHaltRetire tile s
  | .csrr h gD csr => Sys2Proof.Machine.execCsrr h gD csr s
  | .csrw h gA csr => Sys2Proof.Machine.execCsrw h gA csr s
  | .fenceE h => Sys2Proof.Machine.execFenceE h s
  | .fenceI h => Sys2Proof.Machine.execFenceI h s
  | .vadd h a => Sys2Proof.Machine.execVadd h a s
  | .vsub h a => Sys2Proof.Machine.execVsub h a s
  | .vadds h a => Sys2Proof.Machine.execVadds h a s
  | .vsubs h a => Sys2Proof.Machine.execVsubs h a s
  | .vmul h a => Sys2Proof.Machine.execVmul h a s
  | .vmulh h a => Sys2Proof.Machine.execVmulh h a s
  | .vmin h a => Sys2Proof.Machine.execVmin h a s
  | .vmax h a => Sys2Proof.Machine.execVmax h a s
  | .vand h a => Sys2Proof.Machine.execVand h a s
  | .vor h a => Sys2Proof.Machine.execVor h a s
  | .vxor h a => Sys2Proof.Machine.execVxor h a s
  | .vshl h a => Sys2Proof.Machine.execVshl h a s
  | .vsra h a => Sys2Proof.Machine.execVsra h a s
  | .vsrl h a => Sys2Proof.Machine.execVsrl h a s
  | .vrsra h a => Sys2Proof.Machine.execVrsra h a s
  | .vcmpeq h a => Sys2Proof.Machine.execVcmpeq h a s
  | .vcmplt h a => Sys2Proof.Machine.execVcmplt h a s
  | .vsel h a => Sys2Proof.Machine.execVsel h a s
  | .vredadd h a => Sys2Proof.Machine.execVredadd h a s
  | .vredmax h a => Sys2Proof.Machine.execVredmax h a s
  | .vmov h a => Sys2Proof.Machine.execVmov h a s
  | .vld h v gA off => Sys2Proof.Machine.execVld h v gA off s
  | .vst h v gA off => Sys2Proof.Machine.execVst h v gA off s
  | .vget h v gA lw lane => Sys2Proof.Machine.execVget h v gA lw lane s
  | .vgetu h v gA lw lane => Sys2Proof.Machine.execVgetu h v gA lw lane s
  | .vput h v gA lw lane => Sys2Proof.Machine.execVput h v gA lw lane s
  | .vbc h v gA lw lane => Sys2Proof.Machine.execVbc h v gA lw lane s
  | .chset h ch gA => Sys2Proof.Machine.execChset h ch gA s
  | .chget h gD ch => Sys2Proof.Machine.execChget h gD ch s
  | .wait h gD ch gA hint => Sys2Proof.Machine.execWait h gD ch gA hint s
  | .arrive h ch => Sys2Proof.Machine.execArrive h ch s
  | .arriveWait h gD ch hint => Sys2Proof.Machine.execArriveWait h gD ch hint s
  | .acntRd h gD ch => Sys2Proof.Machine.execAcntRd h gD ch s
  | .acntAdd h ch gA => Sys2Proof.Machine.execAcntAdd h ch gA s
  | .slotDrain h ch => Sys2Proof.Machine.execSlotDrain h ch s
  | .slotRd h gD ch => Sys2Proof.Machine.execSlotRd h gD ch s
  | .hqPop h gD ch hint => Sys2Proof.Machine.execHqPop h gD ch hint s
  | .hqPush h ch gA hint => Sys2Proof.Machine.execHqPush h ch gA hint s
  | .waitRelease tile => Sys2Proof.Machine.execWaitRelease tile s
  | .waitTimeout tile => Sys2Proof.Machine.execWaitTimeout tile s
  | .spinPeriodExpire tile => Sys2Proof.Machine.execSpinPeriodExpire tile s
  | .gauge h gD gA widx => Sys2Proof.Machine.execGauge h gD gA widx s
  | .gaugeStallRelease tile => Sys2Proof.Machine.execGaugeStallRelease tile s
  | .gaugeTimeout tile => Sys2Proof.Machine.execGaugeTimeout tile s
  | .monw h mon gA gB => Sys2Proof.Machine.execMonw h mon gA gB s
  | .press h a => Sys2Proof.Machine.execPress h a s
  | .cvt h a => Sys2Proof.Machine.execCvt h a s
  | .gutter h a => Sys2Proof.Machine.execGutter h a s
  | .xpose h a => Sys2Proof.Machine.execXpose h a s
  | .wclr h a => Sys2Proof.Machine.execWclr h a s
  | .wld h a => Sys2Proof.Machine.execWld h a s
  | .wst h a => Sys2Proof.Machine.execWst h a s
  | .wacc h a => Sys2Proof.Machine.execWacc h a s
  | .pressStart tile => Sys2Proof.Machine.execPressStart tile s
  | .engineSlotResume tile unit => Sys2Proof.Machine.execEngineSlotResume tile unit s
  | .slotTimeout tile unit => Sys2Proof.Machine.execSlotTimeout tile unit s
  | .pressResidueMismatch tile replayPasses rowBlocks => Sys2Proof.Machine.execPressResidueMismatch tile replayPasses rowBlocks s
  | .pressComplete tile => Sys2Proof.Machine.execPressComplete tile s
  | .cvtUnitStart tile => Sys2Proof.Machine.execCvtUnitStart tile s
  | .conversionComplete tile => Sys2Proof.Machine.execConversionComplete tile s
  | .gutterComplete tile => Sys2Proof.Machine.execGutterComplete tile s
  | .xposeComplete tile => Sys2Proof.Machine.execXposeComplete tile s
  | .wideOpStart tile => Sys2Proof.Machine.execWideOpStart tile s
  | .wideOpComplete tile => Sys2Proof.Machine.execWideOpComplete tile s
  | .widePatrol tile index => Sys2Proof.Machine.execWidePatrol tile index s
  | .exch h gA => Sys2Proof.Machine.execExch h gA s
  | .spost h gA qid => Sys2Proof.Machine.execSpost h gA qid s
  | .rearm h gB qid => Sys2Proof.Machine.execRearm h gB qid s
  | .folioEntryIssue tile => Sys2Proof.Machine.execFolioEntryIssue tile s
  | .exchBoundary tile => Sys2Proof.Machine.execExchBoundary tile s
  | .xchTimeout tile => Sys2Proof.Machine.execXchTimeout tile s
  | .routerForward blk => Sys2Proof.Machine.execRouterForward blk s
  | .meshFlitCrcError blk again => Sys2Proof.Machine.execMeshFlitCrcError blk again s
  | .blockWrite blk => Sys2Proof.Machine.execBlockWrite blk s
  | .blockSlotResume blk => Sys2Proof.Machine.execBlockSlotResume blk s
  | .addRound tree router => Sys2Proof.Machine.execAddRound tree router s
  | .castPrune blk port => Sys2Proof.Machine.execCastPrune blk port s
  | .prunedMarkerSend router tree port => Sys2Proof.Machine.execPrunedMarkerSend router tree port s
  | .markerReceive mk => Sys2Proof.Machine.execMarkerReceive mk s
  | .treeLoad w tree routes => Sys2Proof.Machine.execTreeLoad w tree routes s
  | .weirLoad w weir cfg members => Sys2Proof.Machine.execWeirLoad w weir cfg members s
  | .weirCounterArrival die weir tile => Sys2Proof.Machine.execWeirCounterArrival die weir tile s
  | .weirReleaseArrive die weir tile => Sys2Proof.Machine.execWeirReleaseArrive die weir tile s
  | .windowPost w die qid desc => Sys2Proof.Machine.execWindowPost w die qid desc s
  | .transferStart die rec => Sys2Proof.Machine.execTransferStart die rec s
  | .reachPassStart die reach rec => Sys2Proof.Machine.execReachPassStart die reach rec s
  | .transferStep die rec => Sys2Proof.Machine.execTransferStep die rec s
  | .translationWalkDone die rec evict => Sys2Proof.Machine.execTranslationWalkDone die rec evict s
  | .transferComplete die rec => Sys2Proof.Machine.execTransferComplete die rec s
  | .handlePushLand die queue tile => Sys2Proof.Machine.execHandlePushLand die queue tile s
  | .handleWindowPush w die queue tile handle => Sys2Proof.Machine.execHandleWindowPush w die queue tile handle s
  | .faultCtlResume w die tag => Sys2Proof.Machine.execFaultCtlResume w die tag s
  | .faultCtlFail w die tag => Sys2Proof.Machine.execFaultCtlFail w die tag s
  | .parkTimeout die rec => Sys2Proof.Machine.execParkTimeout die rec s
  | .streamBlockParkTimeout blk => Sys2Proof.Machine.execStreamBlockParkTimeout blk s
  | .stqDrain w die qid => Sys2Proof.Machine.execStqDrain w die qid s
  | .stqAbort w die qid => Sys2Proof.Machine.execStqAbort w die qid s
  | .reachDrain w die reach => Sys2Proof.Machine.execReachDrain w die reach s
  | .reachAbort w die reach => Sys2Proof.Machine.execReachAbort w die reach s
  | .hqDrain w tile hq => Sys2Proof.Machine.execHqDrain w tile hq s
  | .hqAbort w tile hq => Sys2Proof.Machine.execHqAbort w tile hq s
  | .drainLimitExpire die => Sys2Proof.Machine.execDrainLimitExpire die s
  | .trnRootWrite w job value => Sys2Proof.Machine.execTrnRootWrite w job value s
  | .trnInval w value => Sys2Proof.Machine.execTrnInval w value s
  | .hbmRequestServe stack direct => Sys2Proof.Machine.execHbmRequestServe stack direct s
  | .hbmWriteback stack => Sys2Proof.Machine.execHbmWriteback stack s
  | .hbmRefresh stack bank => Sys2Proof.Machine.execHbmRefresh stack bank s
  | .hbmPatrol stack => Sys2Proof.Machine.execHbmPatrol stack s
  | .hbmCeSummary stack => Sys2Proof.Machine.execHbmCeSummary stack s
  | .hbmRecal w stack trained failing => Sys2Proof.Machine.execHbmRecal w stack trained failing s
  | .hbmPatrolRestart w stack => Sys2Proof.Machine.execHbmPatrolRestart w stack s
  | .spadEccWriteback tile word => Sys2Proof.Machine.execSpadEccWriteback tile word s
  | .spadPatrol tile row => Sys2Proof.Machine.execSpadPatrol tile row s
  | .ctxStorePatrol tile job => Sys2Proof.Machine.execCtxStorePatrol tile job s
  | .watchCfgWrite w widx value => Sys2Proof.Machine.execWatchCfgWrite w widx value s
  | .watchReportMerge die => Sys2Proof.Machine.execWatchReportMerge die s
  | .watchClose w job step => Sys2Proof.Machine.execWatchClose w job step s
  | .watchPeerTimeout job => Sys2Proof.Machine.execWatchPeerTimeout job s
  | .lossCfgWrite w mon value => Sys2Proof.Machine.execLossCfgWrite w mon value s
  | .lossWindowWrite w job mon step value exp => Sys2Proof.Machine.execLossWindowWrite w job mon step value exp s
  | .tileShareWrite w tile value => Sys2Proof.Machine.execTileShareWrite w tile value s
  | .acntCfgWrite w tile acnt value => Sys2Proof.Machine.execAcntCfgWrite w tile acnt value s
  | .slotCfgWrite w tile slot value => Sys2Proof.Machine.execSlotCfgWrite w tile slot value s
  | .hqCfgWrite w tile hq value => Sys2Proof.Machine.execHqCfgWrite w tile hq value s
  | .stqCfgWrite w die qid value => Sys2Proof.Machine.execStqCfgWrite w die qid value s
  | .reachCfgWrite w die reach value => Sys2Proof.Machine.execReachCfgWrite w die reach value s
  | .contextSwitch tile => Sys2Proof.Machine.execContextSwitch tile s
  | .yieldMaxExpire tile => Sys2Proof.Machine.execYieldMaxExpire tile s
  | .switchLate tile => Sys2Proof.Machine.execSwitchLate tile s
  | .yieldRegWrite w tile job value => Sys2Proof.Machine.execYieldRegWrite w tile job value s
  | .jobLoad w job => Sys2Proof.Machine.execJobLoad w job s
  | .jobResume w job => Sys2Proof.Machine.execJobResume w job s
  | .jobPause w job => Sys2Proof.Machine.execJobPause w job s
  | .jobUnload w job => Sys2Proof.Machine.execJobUnload w job s
  | .jobReload w job => Sys2Proof.Machine.execJobReload w job s
  | .jobDiscard w job => Sys2Proof.Machine.execJobDiscard w job s
  | .ctxResume w tile job => Sys2Proof.Machine.execCtxResume w tile job s
  | .ctxRestart w tile job pc => Sys2Proof.Machine.execCtxRestart w tile job pc s
  | .pubCfgWrite w entry value => Sys2Proof.Machine.execPubCfgWrite w entry value s
  | .publish w entry version => Sys2Proof.Machine.execPublish w entry version s
  | .unpublish w entry => Sys2Proof.Machine.execUnpublish w entry s
  | .hold w entry => Sys2Proof.Machine.execHold w entry s
  | .release w entry => Sys2Proof.Machine.execRelease w entry s
  | .trnViewWrite w job value => Sys2Proof.Machine.execTrnViewWrite w job value s
  | .gatherPost w job => Sys2Proof.Machine.execGatherPost w job s
  | .gatherPassDone key => Sys2Proof.Machine.execGatherPassDone key s
  | .collRound key => Sys2Proof.Machine.execCollRound key s
  | .gatherPacketReceive key attempt port body => Sys2Proof.Machine.execGatherPacketReceive key attempt port body s
  | .gatherAbandonReceive key => Sys2Proof.Machine.execGatherAbandonReceive key s
  | .gatherRestartReceive key attempt contrib => Sys2Proof.Machine.execGatherRestartReceive key attempt contrib s
  | .gatherTimeout key => Sys2Proof.Machine.execGatherTimeout key s
  | .gatherStaleSummary => Sys2Proof.Machine.execGatherStaleSummary s
  | .gatherReshard w job epoch => Sys2Proof.Machine.execGatherReshard w job epoch s
  | .reshardLimitExpire job => Sys2Proof.Machine.execReshardLimitExpire job s
  | .gatherPin w job step shard version => Sys2Proof.Machine.execGatherPin w job step shard version s
  | .gatherRetire w job step => Sys2Proof.Machine.execGatherRetire w job step s
  | .gatherDrain w job => Sys2Proof.Machine.execGatherDrain w job s
  | .gatherAbort w job => Sys2Proof.Machine.execGatherAbort w job s
  | .gatherAbandon w job step id => Sys2Proof.Machine.execGatherAbandon w job step id s
  | .gatherResume w job => Sys2Proof.Machine.execGatherResume w job s
  | .gatherDrainLimitExpire job => Sys2Proof.Machine.execGatherDrainLimitExpire job s
  | .gatherTreeWrite w tree value => Sys2Proof.Machine.execGatherTreeWrite w tree value s
  | .shardEntryWrite w entry reg value => Sys2Proof.Machine.execShardEntryWrite w entry reg value s
  | .portCfgWrite w port value => Sys2Proof.Machine.execPortCfgWrite w port value s
  | .portStart w port => Sys2Proof.Machine.execPortStart w port s
  | .stopDrain w port => Sys2Proof.Machine.execStopDrain w port s
  | .stopAbort w port => Sys2Proof.Machine.execStopAbort w port s
  | .retrain w port => Sys2Proof.Machine.execRetrain w port s
  | .portTrainingDone port r => Sys2Proof.Machine.execPortTrainingDone port r s
  | .laneLockLoss port lane => Sys2Proof.Machine.execLaneLockLoss port lane s
  | .tzFlitReceive port good f => Sys2Proof.Machine.execTzFlitReceive port good f s
  | .tzAckTimer port => Sys2Proof.Machine.execTzAckTimer port s
  | .tzReplayTimeout port => Sys2Proof.Machine.execTzReplayTimeout port s
  | .tzReplaySummary port => Sys2Proof.Machine.execTzReplaySummary port s
  | .ctrlMessageReceive port m => Sys2Proof.Machine.execCtrlMessageReceive port m s
  | .peerLost peer => Sys2Proof.Machine.execPeerLost peer s
  | .tzPeerWrite w peer value => Sys2Proof.Machine.execTzPeerWrite w peer value s
  | .portAddRound dest daddr job => Sys2Proof.Machine.execPortAddRound dest daddr job s
  | .addLagExpire dest daddr job => Sys2Proof.Machine.execAddLagExpire dest daddr job s
  | .portStreamSend die qid => Sys2Proof.Machine.execPortStreamSend die qid s
  | .landReceive port landing job bytes => Sys2Proof.Machine.execLandReceive port landing job bytes s
  | .landTimeout port => Sys2Proof.Machine.execLandTimeout port s
  | .rocePacketReceive port ce p => Sys2Proof.Machine.execRocePacketReceive port ce p s
  | .roceWrPost w wr => Sys2Proof.Machine.execRoceWrPost w wr s
  | .roceRequestComplete qp => Sys2Proof.Machine.execRoceRequestComplete qp s
  | .roceRetryTimeout qp => Sys2Proof.Machine.execRoceRetryTimeout qp s
  | .cnpReceive qp => Sys2Proof.Machine.execCnpReceive qp s
  | .roceRateRecovery qp => Sys2Proof.Machine.execRoceRateRecovery qp s
  | .ethFrameReceive port fcsOk overRate bytes => Sys2Proof.Machine.execEthFrameReceive port fcsOk overRate bytes s
  | .roceMrWrite w region reg value => Sys2Proof.Machine.execRoceMrWrite w region reg value s
  | .ucieModuleLoss m => Sys2Proof.Machine.execUcieModuleLoss m s
  | .d2dLinkLockLoss edge link remapped trains => Sys2Proof.Machine.execD2dLinkLockLoss edge link remapped trains s
  | .dieClockLoss die => Sys2Proof.Machine.execDieClockLoss die s
  | .heartbeatTimeout die => Sys2Proof.Machine.execHeartbeatTimeout die s
  | .dieControlWatchdog die => Sys2Proof.Machine.execDieControlWatchdog die s
  | .refLoss => Sys2Proof.Machine.execRefLoss s
  | .dieResetCmd w die => Sys2Proof.Machine.execDieResetCmd w die s
  | .dieRejoinCmd w die f => Sys2Proof.Machine.execDieRejoinCmd w die f s
  | .edgeRetrain w edge trains => Sys2Proof.Machine.execEdgeRetrain w edge trains s
  | .rejoinDelayExpire die f => Sys2Proof.Machine.execRejoinDelayExpire die f s
  | .clockStepChange die half => Sys2Proof.Machine.execClockStepChange die half s
  | .modResetFall => Sys2Proof.Machine.execModResetFall s
  | .modResetRise f => Sys2Proof.Machine.execModResetRise f s
  | .fenceTile w tile => Sys2Proof.Machine.execFenceTile w tile s
  | .bypassRouter w tile => Sys2Proof.Machine.execBypassRouter w tile s
  | .errMergeEnd cause unit source job => Sys2Proof.Machine.execErrMergeEnd cause unit source job s
  | .checkerSelftest missed => Sys2Proof.Machine.execCheckerSelftest missed s
  | .fatalResetExpire f => Sys2Proof.Machine.execFatalResetExpire f s
  | .mgmtCheckpoint => Sys2Proof.Machine.execMgmtCheckpoint s
  | .mgmtWatchdog => Sys2Proof.Machine.execMgmtWatchdog s
  | .handover w img => Sys2Proof.Machine.execHandover w img s
  | .commit w => Sys2Proof.Machine.execCommit w s
  | .revert w => Sys2Proof.Machine.execRevert w s
  | .probationEnd => Sys2Proof.Machine.execProbationEnd s
  | .appWatchdog core => Sys2Proof.Machine.execAppWatchdog core s
  | .spad1 w tile bit addr => Sys2Proof.Machine.execSpad1 w tile bit addr s
  | .spad2 w tile bit addr => Sys2Proof.Machine.execSpad2 w tile bit addr s
  | .residue w tile => Sys2Proof.Machine.execResidue w tile s
  | .meshFlit w tile bit => Sys2Proof.Machine.execMeshFlit w tile bit s
  | .weirCopy w tile weir => Sys2Proof.Machine.execWeirCopy w tile weir s
  | .hbmSymbol w stack bit offset => Sys2Proof.Machine.execHbmSymbol w stack bit offset s
  | .d2dFlit w edge => Sys2Proof.Machine.execD2dFlit w edge s
  | .tizalFlit w port => Sys2Proof.Machine.execTizalFlit w port s
  | .ctxStore2 w tile => Sys2Proof.Machine.execCtxStore2 w tile s
  | .regionWrite w entry value => Sys2Proof.Machine.execRegionWrite w entry value s
  | .tokenWrite t => Sys2Proof.Machine.execTokenWrite t s
  | .tokenClaim t => Sys2Proof.Machine.execTokenClaim t s
  | .tokenRotate t => Sys2Proof.Machine.execTokenRotate t s
  | .tokenDecommission t => Sys2Proof.Machine.execTokenDecommission t s
  | .challengeRead => Sys2Proof.Machine.execChallengeRead s
  | .challengeExpire => Sys2Proof.Machine.execChallengeExpire s
  | .lockoutEnd => Sys2Proof.Machine.execLockoutEnd s
  | .attestNonceWrite nonce => Sys2Proof.Machine.execAttestNonceWrite nonce s
  | .attestReportReady => Sys2Proof.Machine.execAttestReportReady s
  | .imageStage w img => Sys2Proof.Machine.execImageStage w img s
  | .appCommit w value => Sys2Proof.Machine.execAppCommit w value s
  | .jtagBypass code => Sys2Proof.Machine.execJtagBypass code s
  | .jtagIdcode => Sys2Proof.Machine.execJtagIdcode s
  | .jtagSamplePreload pins load => Sys2Proof.Machine.execJtagSamplePreload pins load s
  | .jtagExtest => Sys2Proof.Machine.execJtagExtest s
  | .ddpRead r => Sys2Proof.Machine.execDdpRead r s
  | .ddpWrite r bytes => Sys2Proof.Machine.execDdpWrite r bytes s
  | .describe r => Sys2Proof.Machine.execDescribe r s
  | .segRead r len => Sys2Proof.Machine.execSegRead r len s
  | .segWriteStart r size => Sys2Proof.Machine.execSegWriteStart r size s
  | .segWrite r bytes => Sys2Proof.Machine.execSegWrite r bytes s
  | .segWriteEnd r crc => Sys2Proof.Machine.execSegWriteEnd r crc s
  | .segAbort r => Sys2Proof.Machine.execSegAbort r s
  | .segTransferTimeout index sub inst => Sys2Proof.Machine.execSegTransferTimeout index sub inst s
  | .snapshotExpire index sub inst => Sys2Proof.Machine.execSnapshotExpire index sub inst s
  | .discover r => Sys2Proof.Machine.execDiscover r s
  | .eventAck seq => Sys2Proof.Machine.execEventAck seq s
  | .eventResend seq => Sys2Proof.Machine.execEventResend seq s
  | .pendingTimer => Sys2Proof.Machine.execPendingTimer s
  | .responseCacheExpire => Sys2Proof.Machine.execResponseCacheExpire s
  | .transmitOpportunity => Sys2Proof.Machine.execTransmitOpportunity s
  | .plcaBeaconTimeout => Sys2Proof.Machine.execPlcaBeaconTimeout s
  | .dadRepeat conflict => Sys2Proof.Machine.execDadRepeat conflict s
  | .icmpv6Receive m => Sys2Proof.Machine.execIcmpv6Receive m s
  | .store w => Sys2Proof.Machine.execStore w s
  | .restore w => Sys2Proof.Machine.execRestore w s
  | .windowLoad core addr => Sys2Proof.Machine.execWindowLoad core addr s
  | .windowStoreStage core addr value => Sys2Proof.Machine.execWindowStoreStage core addr value s
  | .windowStoreCommit core addr value => Sys2Proof.Machine.execWindowStoreCommit core addr value s
  | .winDomainRead core value => Sys2Proof.Machine.execWinDomainRead core value s
  | .winDomainWrite core value => Sys2Proof.Machine.execWinDomainWrite core value s
  | .winDomainCommit core value => Sys2Proof.Machine.execWinDomainCommit core value s
  | .watchImageWrite w job bytes => Sys2Proof.Machine.execWatchImageWrite w job bytes s
  | .powerStart w f => Sys2Proof.Machine.execPowerStart w f s
  | .powerStandby w => Sys2Proof.Machine.execPowerStandby w s
  | .powerCfgWrite w value => Sys2Proof.Machine.execPowerCfgWrite w value s
  | .thermCfgWrite w value => Sys2Proof.Machine.execThermCfgWrite w value s
  | .inputLow vin => Sys2Proof.Machine.execInputLow vin s
  | .uvloFall => Sys2Proof.Machine.execUvloFall s
  | .inputOvervoltage island => Sys2Proof.Machine.execInputOvervoltage island s
  | .railExcursion rail => Sys2Proof.Machine.execRailExcursion rail s
  | .phaseFault rail phase => Sys2Proof.Machine.execPhaseFault rail phase s
  | .budgetEval iin pin pFixed demand => Sys2Proof.Machine.execBudgetEval iin pin pFixed demand s
  | .thermalSample dies control => Sys2Proof.Machine.execThermalSample dies control s
  | .registerWrite w index sub inst value => Sys2Proof.Machine.execRegisterWrite w index sub inst value s
  | .inputInRange vin f => Sys2Proof.Machine.execInputInRange vin f s
  | .railRegulationReturn rail => Sys2Proof.Machine.execRailRegulationReturn rail s
  | .trainingFrameReceive port => Sys2Proof.Machine.execTrainingFrameReceive port s
  | .treePortLost port => Sys2Proof.Machine.execTreePortLost port s
  | .gatherWithdrawReceive key port direct lost => Sys2Proof.Machine.execGatherWithdrawReceive key port direct lost s
  | .referenceCycle => Sys2Proof.Machine.execReferenceCycle s
  | .islandSramPatrol word bits => Sys2Proof.Machine.execIslandSramPatrol word bits s
  | .plcaBeacon => Sys2Proof.Machine.execPlcaBeacon s
  | .priorityFlowControl port pause resume => Sys2Proof.Machine.execPriorityFlowControl port pause resume s
  | .droppedDatagram len => Sys2Proof.Machine.execDroppedDatagram len s

end Sys2Proof.Machine
end

