-- ==== Sys2Proof/Safety.lean ====
section
/-!
DEFINITION. The terms of the statements: memories in canonical form, commands that answer a next state, bundles of a tile core that can issue
and how one retires.
-/
namespace Sys2Proof.Machine
open Sys2Proof

/-! ## Answers -/

/-- The command answers a next state, of which p holds. -/
def Goes (o : Host.Outcome State Fault Refusal) (p : State → Prop) : Prop := ∃ t, o = .next t ∧ p t

/-! ## Memory in canonical form (R184, R312) -/

/-- The bytes of the stacks: addresses strictly rising, no entry equal to what an unlisted address reads as. -/
def hbmWf (s : State) : Bool := mwf 0 s.hbm

/-- The bytes of every scratchpad, in the same form. -/
def spadWf (s : State) : Bool := s.tiles.all fun e => mwf 0 e.2.spad

/-! ## Bundles of a tile core (R137-R143) -/

/-- The context of a tile. -/
def ctxOf (s : State) (t : W16) (j : BitVec 2) : Ctx := getCtx (getTile s t) j

/-- A slot has no effect: it is NOP, or its guard is false. -/
def slotIdle (c : Ctx) (w : SlotWord) : Bool := !guardTrue c w || (isNop w.op && !w.rsv)

/-- The other slot of the bundle has no effect. -/
def mateIdle (c : Ctx) (h : SlotHdr) : Bool := slotIdle c (decodeSlot h.mate)

/-- The running context of a tile holds a bundle (R158) whose control slot, or engine slot, is an operation with a true guard; the other slot
has no effect, and no switch from the context is decided (R397). -/
def heldBy (s : State) (tile : W16) (j : BitVec 2) (eng : Bool) (op : SlotOp) (w : WaitRec) : Bool :=
  let x := getTile s tile
  let c := getCtx x j
  let a := if eng then w.eng else w.ctl
  let b := if eng then w.ctl else w.eng
  tilePresent s tile && decide (runningCtx x = some j) && decide (c.wait = some w) && w.arrived && decide (a.op = op) && guardTrue c a && !a.rsv
  && slotIdle c b && !switchDue s tile j

/-- A core command's bundle issues on its tile, where context j runs and holds no bundle, no switch from it is decided, the bundle can be fetched, the command's guard is
true, no reserved bit of its slot is set, and the other slot has no effect (R137-R143, R176). -/
def canIssue (s : State) (h : SlotHdr) (j : BitVec 2) : Bool :=
  let x := getTile s h.tile
  let c := getCtx x j
  tilePresent s h.tile && decide (runningCtx x = some j) && c.wait.isNone && !switchDue s h.tile j && decide (fetchExc x j c.pc = none) && xor (getP c h.pg) h.pn
  && !h.rsv && mateIdle c h

/-- The context of a tile after a bundle that is no wait has retired: PC past the bundle, TILE.BUNDLES counted, no switch point (R134, R397);
f is what the command does to the context beside that. The bundle's line is in the fetch buffer (R143). -/
def advance (s : State) (h : SlotHdr) (j : BitVec 2) (f : Ctx → Ctx) : State :=
  modTile s h.tile fun x =>
    let c := getCtx x j
    { putCtx x j { f c with pc := c.pc + 16, bundles := c.bundles + 1, wait := none, switchPt := false } with fetchBuf := fetchLine x.fetchBuf c.pc }

/-- The same for a taken branch. -/
def branch (s : State) (h : SlotHdr) (j : BitVec 2) (pc : W64) (f : Ctx → Ctx) : State :=
  modTile s h.tile fun x =>
    let c := getCtx x j
    { putCtx x j { f c with pc, bundles := c.bundles + 1, wait := none, switchPt := false } with fetchBuf := fetchLine x.fetchBuf c.pc }

/-- The same for a bundle whose control slot is a wait: a context that stands at a switch point stays at one (R397). -/
def advanceWait (s : State) (h : SlotHdr) (j : BitVec 2) (f : Ctx → Ctx) : State :=
  modTile s h.tile fun x =>
    let c := getCtx x j
    { putCtx x j { f c with pc := c.pc + 16, bundles := c.bundles + 1, wait := none, switchPt := c.switchPt } with
      fetchBuf := fetchLine x.fetchBuf c.pc }

/-- The bundle of a control-slot command has issued and cannot retire: it is held, and no register changes (R158); start is what the command
does at once. -/
def waiting (s : State) (h : SlotHdr) (j : BitVec 2) (op : SlotOp) (start : State → State := id) : State :=
  hold s h.tile j (slotOf h op) (decodeSlot h.mate) { blocked := true, start } {}

/-- A precise exception of the command's slot (R141, R177): STOPPED, the cause and the bundle's address saved, PC and every register as they
were, and an error record. -/
def stopped (s : State) (h : SlotHdr) (j : BitVec 2) (cause : Byte) (info : W64) : State := excPrecise s h.tile j h.eng cause info

/-! ## Slots of the core's commands (R145-R174) -/

/-- The header and the operation of the slot that a core's command stands for; none for the other commands. -/
def coreSlot (i : Instr) : Option (SlotHdr × SlotOp) :=
  match i with
  | .add h gD gA gB => some (h, .alu 0x00 gD gA gB)
  | .sub h gD gA gB => some (h, .alu 0x01 gD gA gB)
  | .and h gD gA gB => some (h, .alu 0x02 gD gA gB)
  | .or h gD gA gB => some (h, .alu 0x03 gD gA gB)
  | .xor h gD gA gB => some (h, .alu 0x04 gD gA gB)
  | .shl h gD gA gB => some (h, .alu 0x05 gD gA gB)
  | .shr h gD gA gB => some (h, .alu 0x06 gD gA gB)
  | .sra h gD gA gB => some (h, .alu 0x07 gD gA gB)
  | .mul h gD gA gB => some (h, .alu 0x08 gD gA gB)
  | .mulh h gD gA gB => some (h, .alu 0x09 gD gA gB)
  | .mulhu h gD gA gB => some (h, .alu 0x0A gD gA gB)
  | .min h gD gA gB => some (h, .alu 0x0B gD gA gB)
  | .max h gD gA gB => some (h, .alu 0x0C gD gA gB)
  | .minu h gD gA gB => some (h, .alu 0x0D gD gA gB)
  | .maxu h gD gA gB => some (h, .alu 0x0E gD gA gB)
  | .ext h gD gA gB => some (h, .alu 0x0F gD gA gB)
  | .dep h gD gA gB => some (h, .alu 0x10 gD gA gB)
  | .clz h gD gA gB => some (h, .alu 0x11 gD gA gB)
  | .popc h gD gA gB => some (h, .alu 0x12 gD gA gB)
  | .cmpeq h gD gA gB => some (h, .alu 0x20 gD gA gB)
  | .cmpne h gD gA gB => some (h, .alu 0x21 gD gA gB)
  | .cmplt h gD gA gB => some (h, .alu 0x22 gD gA gB)
  | .cmpltu h gD gA gB => some (h, .alu 0x23 gD gA gB)
  | .cmpge h gD gA gB => some (h, .alu 0x24 gD gA gB)
  | .cmpgeu h gD gA gB => some (h, .alu 0x25 gD gA gB)
  | .pand h gD gA gB => some (h, .alu 0x28 gD gA gB)
  | .por h gD gA gB => some (h, .alu 0x29 gD gA gB)
  | .pxor h gD gA gB => some (h, .alu 0x2A gD gA gB)
  | .pnot h gD gA gB => some (h, .alu 0x2B gD gA gB)
  | .aluiOp h op gD gA imm => some (h, .alui op gD gA imm)
  | .li h gD imm => some (h, .alui 0x30 gD 0 imm)
  | .lih h gD imm => some (h, .alui 0x31 gD 0 imm)
  | .j h off => some (h, .br 0x00 0 0 off)
  | .jl h gD off => some (h, .br 0x01 gD 0 off)
  | .jr h gA off => some (h, .br 0x02 0 gA off)
  | .jlr h gD gA off => some (h, .br 0x03 gD gA off)
  | .loop h gD gA off => some (h, .br 0x04 gD gA off)
  | .ld h sz gT gA off => some (h, .mem (sz.setWidth 6) gT gA off)
  | .ldu h sz gT gA off => some (h, .mem (0x04 + sz.setWidth 6) gT gA off)
  | .st h sz gT gA off => some (h, .mem (0x08 + sz.setWidth 6) gT gA off)
  | .nop h => some (h, .sys 0x00 0 0 0)
  | .halt h => some (h, .sys 0x01 0 0 0)
  | .csrr h gD csr => some (h, .sys 0x02 gD 0 csr)
  | .csrw h gA csr => some (h, .sys 0x03 0 gA csr)
  | .fenceE h => some (h, .sys 0x04 0 0 0)
  | .fenceI h => some (h, .sys 0x05 0 0 0)
  | .vadd h a => some (h, .valu 0x00 a)
  | .vsub h a => some (h, .valu 0x01 a)
  | .vadds h a => some (h, .valu 0x02 a)
  | .vsubs h a => some (h, .valu 0x03 a)
  | .vmul h a => some (h, .valu 0x04 a)
  | .vmulh h a => some (h, .valu 0x05 a)
  | .vmin h a => some (h, .valu 0x06 a)
  | .vmax h a => some (h, .valu 0x07 a)
  | .vand h a => some (h, .valu 0x08 a)
  | .vor h a => some (h, .valu 0x09 a)
  | .vxor h a => some (h, .valu 0x0A a)
  | .vshl h a => some (h, .valu 0x0B a)
  | .vsra h a => some (h, .valu 0x0C a)
  | .vsrl h a => some (h, .valu 0x0D a)
  | .vrsra h a => some (h, .valu 0x0E a)
  | .vcmpeq h a => some (h, .valu 0x10 a)
  | .vcmplt h a => some (h, .valu 0x11 a)
  | .vsel h a => some (h, .valu 0x12 a)
  | .vredadd h a => some (h, .valu 0x13 a)
  | .vredmax h a => some (h, .valu 0x14 a)
  | .vmov h a => some (h, .valu 0x15 a)
  | .vld h v gA off => some (h, .vmem 0x00 v gA 0 0 off)
  | .vst h v gA off => some (h, .vmem 0x01 v gA 0 0 off)
  | .vget h v gA lw lane => some (h, .vmem 0x02 v gA lw lane 0)
  | .vgetu h v gA lw lane => some (h, .vmem 0x03 v gA lw lane 0)
  | .vput h v gA lw lane => some (h, .vmem 0x04 v gA lw lane 0)
  | .vbc h v gA lw lane => some (h, .vmem 0x05 v gA lw lane 0)
  | .chset h ch gA => some (h, .sync 0x00 0 ch gA 0)
  | .chget h gD ch => some (h, .sync 0x01 gD ch 0 0)
  | .wait h gD ch gA hint => some (h, .sync 0x02 gD ch gA hint)
  | .arrive h ch => some (h, .sync 0x03 0 ch 0 0)
  | .arriveWait h gD ch hint => some (h, .sync 0x04 gD ch 0 hint)
  | .acntRd h gD ch => some (h, .sync 0x05 gD ch 0 0)
  | .acntAdd h ch gA => some (h, .sync 0x06 0 ch gA 0)
  | .slotDrain h ch => some (h, .sync 0x07 0 ch 0 0)
  | .slotRd h gD ch => some (h, .sync 0x08 gD ch 0 0)
  | .hqPop h gD ch hint => some (h, .sync 0x09 gD ch 0 hint)
  | .hqPush h ch gA hint => some (h, .sync 0x0A 0 ch gA hint)
  | .gauge h gD gA widx => some (h, .watch 0x00 gD gA 0 widx 0)
  | .monw h mon gA gB => some (h, .watch 0x01 0 gA gB 0 mon)
  | .press h a => some (h, .eng 0x00 a)
  | .cvt h a => some (h, .eng 0x01 a)
  | .gutter h a => some (h, .eng 0x02 a)
  | .xpose h a => some (h, .eng 0x03 a)
  | .wclr h a => some (h, .eng 0x08 a)
  | .wld h a => some (h, .eng 0x09 a)
  | .wst h a => some (h, .eng 0x0A a)
  | .wacc h a => some (h, .eng 0x0B a)
  | .exch h gA => some (h, .xfer 0x00 gA 0 0)
  | .spost h gA qid => some (h, .xfer 0x01 gA 0 qid)
  | .rearm h gB qid => some (h, .xfer 0x02 0 gB qid)
  | _ => none

end Sys2Proof.Machine
end

