-- ==== Sys2Proof/Certificates/Slice0/Obligations.lean ====
section
/-!
DEFINITION. The statements about the model that the provers are asked to prove.
-/
open Sys2Proof Sys2Proof.Machine

/-- One step takes the command at the front of the queue and runs it with the queue's rest; on an empty queue the block idles (log entry 4). -/
def Obligations.StepRunsFrontCommand : Prop :=
  ∀ s : State, (∀ (c : Instr) (rest : List Instr), s.pending = c :: rest → step s = exec c { s with pending := rest })
    ∧ (s.pending = [] → step s = .next s)

/-! ## Tile core -/

/-- R145: the ALU operations that write gD.
R145: the compares and the predicate operations write pD, and raise ILLEGAL_OP where GD[4:3] is not zero. -/
def Obligations.AluResults : Prop :=
  (∀ (s : State) (h : SlotHdr) (j : BitVec 2) (gD gA gB : BitVec 5), canIssue s h j = true →
     let c := ctxOf s h.tile j
     let a := getG c gA
     let b := getG c gB
     let n := b.toNat % 64
     let gives (i : Instr) (v : W64) : Prop := exec i s = .next (advance s h j fun c => setG c gD v)
     gives (.add h gD gA gB) (a + b) ∧ gives (.sub h gD gA gB) (a - b) ∧ gives (.and h gD gA gB) (a &&& b)
     ∧ gives (.or h gD gA gB) (a ||| b) ∧ gives (.xor h gD gA gB) (a ^^^ b) ∧ gives (.shl h gD gA gB) (a <<< n)
     ∧ gives (.shr h gD gA gB) (a >>> n) ∧ gives (.sra h gD gA gB) (a.sshiftRight n) ∧ gives (.mul h gD gA gB) (a * b)
     ∧ gives (.mulh h gD gA gB) (BitVec.ofInt 64 (a.toInt * b.toInt / 2 ^ 64))
     ∧ gives (.mulhu h gD gA gB) (BitVec.ofNat 64 (a.toNat * b.toNat / 2 ^ 64))
     ∧ gives (.min h gD gA gB) (if a.toInt < b.toInt then a else b) ∧ gives (.max h gD gA gB) (if a.toInt < b.toInt then b else a)
     ∧ gives (.minu h gD gA gB) (if a.toNat < b.toNat then a else b) ∧ gives (.maxu h gD gA gB) (if a.toNat < b.toNat then b else a)
     ∧ gives (.clz h gD gA gB) (if a = 0 then 64 else BitVec.ofNat 64 (63 - Nat.log2 a.toNat))
     ∧ gives (.popc h gD gA gB) (BitVec.ofNat 64 ((List.range 64).countP fun i => a.getLsbD i))
     ∧ (∃ v, gives (.ext h gD gA gB) v
         ∧ ∀ k, k < 64 → v.getLsbD k = (decide (k ≤ b.toNat / 64 % 64) && a.getLsbD (n + k)))
     ∧ (∃ v, gives (.dep h gD gA gB) v
         ∧ ∀ k, k < 64 → v.getLsbD k = if n ≤ k ∧ k ≤ n + b.toNat / 64 % 64 then a.getLsbD (k - n) else (getG c gD).getLsbD k))
  ∧ (∀ (s : State) (h : SlotHdr) (j : BitVec 2) (gD gA gB : BitVec 5), canIssue s h j = true →
     let c := ctxOf s h.tile j
     let a := getG c gA
     let b := getG c gB
     let p := getP c (gA.setWidth 3)
     let q := getP c (gB.setWidth 3)
     let gives (i : Instr) (v : Bool) : Prop :=
       exec i s = .next (if gD.toNat < 8 then advance s h j fun c => setP c (gD.setWidth 3) v else stopped s h j cIllegalOp 0)
     gives (.cmpeq h gD gA gB) (decide (a = b)) ∧ gives (.cmpne h gD gA gB) (decide (a ≠ b))
     ∧ gives (.cmplt h gD gA gB) (decide (a.toInt < b.toInt)) ∧ gives (.cmpltu h gD gA gB) (decide (a.toNat < b.toNat))
     ∧ gives (.cmpge h gD gA gB) (decide (b.toInt ≤ a.toInt)) ∧ gives (.cmpgeu h gD gA gB) (decide (b.toNat ≤ a.toNat))
     ∧ gives (.pand h gD gA gB) (p && q) ∧ gives (.por h gD gA gB) (p || q) ∧ gives (.pxor h gD gA gB) (xor p q)
     ∧ gives (.pnot h gD gA gB) (!p))

/-- R146: an ALUI slot does the ALU operations 0x00 to 0x10 and the compares with the sign-extended immediate in gB's place, LI and LIH; any
other OP raises ILLEGAL_OP. -/
def Obligations.AluImmediate : Prop :=
  ∀ (s : State) (h : SlotHdr) (j : BitVec 2) (op : BitVec 6) (gD gA : BitVec 5) (imm : W32), canIssue s h j = true →
    let c := ctxOf s h.tile j
    let b : W64 := imm.signExtend 64
    exec (.li h gD imm) s = .next (advance s h j fun c => setG c gD b)
    ∧ exec (.lih h gD imm) s = .next (advance s h j fun c => setG c gD (imm ++ (getG c gD).setWidth 32))
    ∧ (op.toNat ≤ 0x10 → ∃ v, aluOp op (getG c gA) b (getG c gD) = some v
        ∧ exec (.aluiOp h op gD gA imm) s = .next (advance s h j fun c => setG c gD v))
    ∧ (0x20 ≤ op.toNat ∧ op.toNat ≤ 0x25 → ∃ v, aluCmp op (getG c gA) b = some v
        ∧ exec (.aluiOp h op gD gA imm) s
          = .next (if gD.toNat < 8 then advance s h j fun c => setP c (gD.setWidth 3) v else stopped s h j cIllegalOp 0))
    ∧ (0x10 < op.toNat ∧ op.toNat < 0x20 ∨ 0x25 < op.toNat ∧ op.toNat ≠ 0x30 ∧ op.toNat ≠ 0x31 →
        exec (.aluiOp h op gD gA imm) s = .next (stopped s h j cIllegalOp 0))

/-- R147: branches and loops. The engine slot takes none. -/
def Obligations.Branches : Prop :=
  ∀ (s : State) (h : SlotHdr) (j : BitVec 2) (gD gA : BitVec 5) (off : W32), canIssue s h j = true → h.eng = false →
    let c := ctxOf s h.tile j
    let rel : W64 := c.pc + 16 * off.signExtend 64
    let reg : W64 := getG c gA + 16 * off.signExtend 64
    let n := getG c gA - 1
    exec (.j h off) s = .next (branch s h j rel id)
    ∧ exec (.jl h gD off) s = .next (branch s h j rel fun c => setG c gD (c.pc + 16))
    ∧ exec (.jr h gA off) s = .next (if reg.toNat % 16 = 0 then branch s h j reg id else stopped s h j cMisaligned reg)
    ∧ exec (.jlr h gD gA off) s
        = .next (if reg.toNat % 16 = 0 then branch s h j reg fun c => setG c gD (c.pc + 16) else stopped s h j cMisaligned reg)
    ∧ exec (.loop h gD gA off) s
        = .next (if gD ≠ 0 then stopped s h j cIllegalOp 0
                 else if n = 0 then advance s h j fun c => setG c gA n else branch s h j rel fun c => setG c gA n)

/-- R148, R203: scalar loads and stores of the tile's own scratchpad. A load's value is the little-endian bytes at its address; a store writes
its bytes there, every other byte reads as before, and no other tile changes. -/
def Obligations.ScalarMemory : Prop :=
  ∀ (s : State) (h : SlotHdr) (j : BitVec 2) (sz : BitVec 2) (gT gA : BitVec 5) (off : W32), canIssue s h j = true → h.eng = false →
    let x := getTile s h.tile
    let c := ctxOf s h.tile j
    let a := getG c gA + off.signExtend 64
    let n := 2 ^ sz.toNat
    let v := leNat (spadRead x a.toNat n)
    let fails (o : Host.Outcome State Fault Refusal) : Prop :=
      (a.toNat % n ≠ 0 → o = .next (stopped s h j cMisaligned a))
      ∧ (a.toNat % n = 0 → inShare x j a.toNat n = false → o = .next (stopped s h j cAddrRange a))
    let ok := a.toNat % n = 0 ∧ inShare x j a.toNat n = true
    fails (exec (.ld h sz gT gA off) s) ∧ fails (exec (.st h sz gT gA off) s)
    ∧ (ok → exec (.ld h sz gT gA off) s
        = .next (if spadBad x a.toNat n then stopped s h j cSpadEcc a
                 else advance s h j fun c => setG c gT (BitVec.ofInt 64 (sgn (8 * n) v))))
    ∧ (sz ≠ 3 → fails (exec (.ldu h sz gT gA off) s)
        ∧ (ok → exec (.ldu h sz gT gA off) s
            = .next (if spadBad x a.toNat n then stopped s h j cSpadEcc a else advance s h j fun c => setG c gT (BitVec.ofNat 64 v))))
    ∧ (sz = 3 → exec (.ldu h sz gT gA off) s = .next (stopped s h j cIllegalOp 0))
    ∧ (ok → Goes (exec (.st h sz gT gA off) s) fun t =>
        (badMerges x a.toNat n = [] → ∀ i, i < n → mget 0 (getTile t h.tile).spad (a.toNat + i) = BitVec.ofNat 8 ((getG c gT).toNat / 256 ^ i))
        ∧ (∀ b, b < a.toNat ∨ a.toNat + n ≤ b → mget 0 (getTile t h.tile).spad b = mget 0 x.spad b)
        ∧ getCtx (getTile t h.tile) j = { c with pc := c.pc + 16, bundles := c.bundles + 1, switchPt := false }
        ∧ (∀ k, k ≠ j → getCtx (getTile t h.tile) k = getCtx x k)
        ∧ (badMerges x a.toNat n = [] → t.hbm = s.hbm ∧ t.log = s.log)
        ∧ ∀ u, u ≠ h.tile → getTile t u = getTile s u)

/-- R149, R150, R152, R153: SYS. NOP does nothing but retire. FENCE.I empties the fetch buffer. HALT and FENCE.E retire where no engine holds an operation of
the context, HALT leaving it HALTED, and wait otherwise. CSRR reads each listed register; CSRW writes those that are writable, clears the bits written as 1 of
the status registers, and leaves the read-only ones; an index that is not listed, TILE.PRESS_CTRL and another context's wide buffer are refused with
CSR_REFUSED. An access to a generator or watch-step register waits until the context's operations have started. The engine slot takes NOP alone. -/
def Obligations.SystemOps : Prop :=
  ∀ (s : State) (h : SlotHdr) (j : BitVec 2) (gD gA : BitVec 5) (csr : BitVec 12), canIssue s h j = true →
    let x := getTile s h.tile
    let c := ctxOf s h.tile j
    let n := csr.toNat
    let v := getG c gA
    let v32 : W32 := v.setWidth 32
    let runs := 0x020 ≤ n ∧ n ≤ 0x023 → allStarted x j = true
    let readable : List (Nat × W64) := [(0x000, h.tile.setWidth 64), (0x001, x.regs.ctxReg.setWidth 64), (0x002, 0x80000), (0x010, (tileHalf s h.tile).cycles),
      (0x011, c.bundles), (0x020, c.rngSeed), (0x021, c.rngStep), (0x022, c.rngOp.setWidth 64), (0x023, c.watchStep), (0x024, c.waitLimit.setWidth 64),
      (0x030, x.regs.pressCtrl.setWidth 64), (0x031, (pressStatusReg x).setWidth 64), (0x032, x.regs.residueCount), (0x038, x.regs.cvtStatus.setWidth 64),
      (0x039, x.regs.satCount), (0x040, x.regs.wideOwner.setWidth 64), (0x041, (wideStatusReg x).setWidth 64), (0x060, c.excCause.setWidth 64), (0x061, c.excPc),
      (0x062, c.excInfo)]
    let ctx (f : Ctx → Ctx) : State → State := fun t => modCtx t h.tile j f
    let regs (f : TileRegs → TileRegs) : State → State := fun t => modTile t h.tile fun x => { x with regs := f x.regs }
    let writable : List (Nat × (State → State)) := [(0x020, ctx fun c => { c with rngSeed := v }), (0x021, ctx fun c => { c with rngStep := v, rngOp := 0 }),
      (0x022, ctx fun c => { c with rngOp := v32 }), (0x023, ctx fun c => { c with watchStep := v }), (0x024, ctx fun c => { c with waitLimit := v32 }),
      (0x031, regs fun r => { r with pressStatus := r.pressStatus &&& ~~~(v32 &&& 0x1E) }), (0x038, regs fun r => { r with cvtStatus := r.cvtStatus &&& ~~~(v32 &&& 0x3E) }),
      (0x041, regs fun r => { r with wideStatus := r.wideStatus &&& ~~~(v32 &&& 0x0E) })]
    exec (.nop h) s = .next (advance s h j id)
    ∧ (h.eng = false →
      exec (.fenceI h) s = .next (modTile (advance s h j id) h.tile fun x => { x with fetchBuf := [] })
      ∧ (engBusy x j = false →
          exec (.fenceE h) s = .next (advance s h j id)
          ∧ Goes (exec (.halt h) s) fun t =>
              ctxOf t h.tile j = { c with st := .halted, pc := c.pc + 16, bundles := c.bundles + 1, switchPt := false }
              ∧ (∀ k, k ≠ j → ctxOf t h.tile k = ctxOf s h.tile k) ∧ (∀ u, u ≠ h.tile → getTile t u = getTile s u) ∧ t.hbm = s.hbm)
      ∧ (engBusy x j = true → exec (.fenceE h) s = .next (waiting s h j (.sys 4 0 0 0)) ∧ exec (.halt h) s = .next (waiting s h j (.sys 1 0 0 0)))
      ∧ (∀ e ∈ readable, n = e.1 → runs → exec (.csrr h gD csr) s = .next (advance s h j fun c => setG c gD e.2))
      ∧ (n = 0x050 → Goes (exec (.csrr h gD csr) s) fun t => ∃ u, (getTile t h.tile).regs = { x.regs with bankConflicts := u }
          ∧ ctxOf t h.tile j = { setG c gD u with pc := c.pc + 16, bundles := c.bundles + 1, switchPt := false })
      ∧ (∀ e ∈ writable, n = e.1 → runs → exec (.csrw h gA csr) s = .next (e.2 (advance s h j id)))
      ∧ (n ∈ [0x000, 0x001, 0x002, 0x010, 0x011, 0x032, 0x039, 0x050, 0x060, 0x061, 0x062] → exec (.csrw h gA csr) s = .next (advance s h j id))
      ∧ (n = 0x040 → fld x.regs.wideOwner 0 2 = j → exec (.csrw h gA csr) s = .next (regs (fun r => { r with wideOwner := v32 &&& 3 }) (advance s h j id)))
      ∧ (n = 0x040 → fld x.regs.wideOwner 0 2 ≠ j → exec (.csrw h gA csr) s = .next (stopped s h j cCsrRefused 0x400040))
      ∧ (n = 0x030 → exec (.csrw h gA csr) s = .next (stopped s h j cCsrRefused 0xF00030))
      ∧ (n ≠ 0x050 → (∀ e ∈ readable, n ≠ e.1) → exec (.csrr h gD csr) s = .next (stopped s h j cCsrRefused (csr.setWidth 64))
          ∧ exec (.csrw h gA csr) s = .next (stopped s h j cCsrRefused (csr.setWidth 64)))
      ∧ (0x020 ≤ n → n ≤ 0x023 → allStarted x j = false → exec (.csrr h gD csr) s = .next (waiting s h j (.sys 2 gD 0 csr))
          ∧ exec (.csrw h gA csr) s = .next (waiting s h j (.sys 3 0 gA csr))))
    ∧ (h.eng = true →
      exec (.fenceI h) s = .next (stopped s h j cIllegalOp 0) ∧ exec (.fenceE h) s = .next (stopped s h j cIllegalOp 0)
      ∧ exec (.halt h) s = .next (stopped s h j cIllegalOp 0) ∧ exec (.csrr h gD csr) s = .next (stopped s h j cIllegalOp 0)
      ∧ exec (.csrw h gA csr) s = .next (stopped s h j cIllegalOp 0))

/-- R142: a fetch outside the context's share raises FETCH_RANGE at the bundle that would be fetched, of every command of a core. -/
def Obligations.FetchOutsideShare : Prop :=
  ∀ (s : State) (i : Instr) (h : SlotHdr) (op : SlotOp) (j : BitVec 2), coreSlot i = some (h, op) →
    let x := getTile s h.tile
    let c := ctxOf s h.tile j
    tilePresent s h.tile = true → runningCtx x = some j → c.wait = none → switchDue s h.tile j = false → inShare x j c.pc.toNat 16 = false →
    Goes (exec i s) fun t => ctxOf t h.tile j
      = { c with st := .stopped, excCause := 0x205, excPc := c.pc, excInfo := c.pc }

/-- R139, R176: both slots read their registers before either writes, and a bundle whose slots would write one register raises
BUNDLE_CONFLICT and writes nothing. Shown on an ADD in the control slot beside a SUB in the engine slot. -/
def Obligations.BothSlotsReadFirst : Prop :=
  ∀ (s : State) (h : SlotHdr) (j : BitVec 2) (gD gA gB gE gF gG : BitVec 5) (pg : BitVec 3) (pn : Bool),
    canIssue s { h with mate := 0 } j = true → h.eng = false →
    decodeSlot h.mate = { pg, pn, rsv := false, op := .alu 0x01 gE gF gG } →
    let c := ctxOf s h.tile j
    xor (getP c pg) pn = true →
    exec (.add h gD gA gB) s = .next (
      if gD = gE ∧ gD ≠ 0 then stopped s h j cBundleConflict 0
      else advance s h j fun c' => setG (setG c' gD (getG c gA + getG c gB)) gE (getG c gF - getG c gG))

/-! ## Vectors -/

/-- R154: the lane operations. Every lane of vD is the operation on the lanes of vA and of the second operand, which under BC is gS cut to the
lane width; the clamped sums count each lane they clamp as a saturation. SH of the lane width or more raises ILLEGAL_OP.
R154: VRSRA rounds to nearest with ties to even.
R154: the reductions write gS, and take no second operand. -/
def Obligations.VectorLanes : Prop :=
  (∀ (s : State) (h : SlotHdr) (j : BitVec 2) (a : VArg), canIssue s h j = true → h.eng = true →
     let c := ctxOf s h.tile j
     let w := laneBits a.lw
     let n := laneCount a.lw
     let sh := a.sh.toNat
     let x (k : Nat) : Nat := laneAt a.lw (getV c a.va) k
     let y (k : Nat) : Nat := if a.bc then (getG c a.gs).toNat % 2 ^ w else laneAt a.lw (getV c a.vb) k
     let d (k : Nat) : Nat := laneAt a.lw (getV c a.vd) k
     let sx (k : Nat) : Int := laneS a.lw (x k)
     let sy (k : Nat) : Int := laneS a.lw (y k)
     let lo : Int := -(2 ^ (w - 1))
     let hi : Int := 2 ^ (w - 1) - 1
     let clamp (v : Int) : Int := if v < lo then lo else if hi < v then hi else v
     let gives (i : Instr) (act : State → State) (f : Nat → Int) : Prop :=
       (w ≤ sh → exec i s = .next (stopped s h j cIllegalOp 0))
       ∧ (sh < w → ∃ v, exec i s = .next (act (advance s h j fun c => setV c a.vd v)) ∧ ∀ k, k < n → laneAt a.lw v k = toBits w (f k))
     let count (p : Nat → Bool) : Nat := ((List.range n).filter p).length
     let sat (f : Nat → Int) : State → State := satNote h.tile (count fun k => decide (hi < f k)) (count fun k => decide (f k < lo))
     gives (.vadd h a) id (fun k => sx k + sy k) ∧ gives (.vsub h a) id (fun k => sx k - sy k)
     ∧ gives (.vadds h a) (sat fun k => sx k + sy k) (fun k => clamp (sx k + sy k))
     ∧ gives (.vsubs h a) (sat fun k => sx k - sy k) (fun k => clamp (sx k - sy k))
     ∧ gives (.vmul h a) id (fun k => sx k * sy k) ∧ gives (.vmulh h a) id (fun k => sx k * sy k / 2 ^ w)
     ∧ gives (.vmin h a) id (fun k => min (sx k) (sy k)) ∧ gives (.vmax h a) id (fun k => max (sx k) (sy k))
     ∧ gives (.vand h a) id (fun k => ((x k &&& y k : Nat) : Int)) ∧ gives (.vor h a) id (fun k => ((x k ||| y k : Nat) : Int))
     ∧ gives (.vxor h a) id (fun k => ((x k ^^^ y k : Nat) : Int)) ∧ gives (.vshl h a) id (fun k => ((x k * 2 ^ sh : Nat) : Int))
     ∧ gives (.vsra h a) id (fun k => sx k / 2 ^ sh) ∧ gives (.vsrl h a) id (fun k => ((x k / 2 ^ sh : Nat) : Int))
     ∧ gives (.vcmpeq h a) id (fun k => if x k = y k then -1 else 0) ∧ gives (.vcmplt h a) id (fun k => if sx k < sy k then -1 else 0)
     ∧ gives (.vsel h a) id (fun k => if d k ≠ 0 then (x k : Int) else (y k : Int)) ∧ gives (.vmov h a) id (fun k => (x k : Int))
     ∧ gives (.vrsra h a) id (fun k => rneShift (sx k) sh))
  ∧ (∀ (x : Int) (n : Nat), 2 * |x - rneShift x n * 2 ^ n| ≤ 2 ^ n ∧ (2 * |x - rneShift x n * 2 ^ n| = 2 ^ n → rneShift x n % 2 = 0))
  ∧ (∀ (s : State) (h : SlotHdr) (j : BitVec 2) (a : VArg), canIssue s h j = true → h.eng = true →
     let c := ctxOf s h.tile j
     let sx (k : Nat) : Int := laneS a.lw (laneAt a.lw (getV c a.va) k)
     let n := laneCount a.lw
     if laneBits a.lw ≤ a.sh.toNat ∨ a.bc = true then
       exec (.vredadd h a) s = .next (stopped s h j cIllegalOp 0) ∧ exec (.vredmax h a) s = .next (stopped s h j cIllegalOp 0)
     else
       exec (.vredadd h a) s = .next (advance s h j fun c => setG c a.gs (BitVec.ofInt 64 (∑ k ∈ Finset.range n, sx k)))
       ∧ ∃ m, exec (.vredmax h a) s = .next (advance s h j fun c => setG c a.gs (BitVec.ofInt 64 m))
         ∧ (∃ k, k < n ∧ sx k = m) ∧ ∀ k, k < n → sx k ≤ m)

/-- R155, R203: vector loads, stores and lane moves. -/
def Obligations.VectorMemory : Prop :=
  ∀ (s : State) (h : SlotHdr) (j : BitVec 2) (v : BitVec 4) (gA : BitVec 5) (off : W32) (lw : BitVec 2) (lane : BitVec 6),
    canIssue s h j = true → h.eng = true →
    let x := getTile s h.tile
    let c := ctxOf s h.tile j
    let a := getG c gA + off.signExtend 64
    let n := laneCount lw
    let w := laneBits lw
    let old := laneAt lw (getV c v) lane.toNat
    let check (i : Instr) (p : Prop) : Prop :=
      (a.toNat % 64 ≠ 0 → exec i s = .next (stopped s h j cMisaligned a))
      ∧ (a.toNat % 64 = 0 → inShare x j a.toNat 64 = false → exec i s = .next (stopped s h j cAddrRange a))
      ∧ (a.toNat % 64 = 0 → inShare x j a.toNat 64 = true → p)
    let lanes (i : Instr) (p : Prop) : Prop := if n ≤ lane.toNat then exec i s = .next (stopped s h j cIllegalOp 0) else p
    check (.vld h v gA off)
      (exec (.vld h v gA off) s = .next (if spadBad x a.toNat 64 then stopped s h j cSpadEcc a
        else advance s h j fun c => setV c v (BitVec.ofNat 512 (leNat (spadRead x a.toNat 64)))))
    ∧ check (.vst h v gA off)
      (Goes (exec (.vst h v gA off) s) fun t =>
        (badMerges x a.toNat 64 = [] → t.hbm = s.hbm
          ∧ ∀ i, i < 64 → mget 0 (getTile t h.tile).spad (a.toNat + i) = (getV c v).extractLsb' (8 * i) 8)
        ∧ (∀ b, b < a.toNat ∨ a.toNat + 64 ≤ b → mget 0 (getTile t h.tile).spad b = mget 0 x.spad b)
        ∧ getCtx (getTile t h.tile) j = { c with pc := c.pc + 16, bundles := c.bundles + 1, switchPt := false }
        ∧ ∀ u, u ≠ h.tile → getTile t u = getTile s u)
    ∧ lanes (.vget h v gA lw lane)
      (exec (.vget h v gA lw lane) s = .next (advance s h j fun c => setG c gA (BitVec.ofInt 64 (laneS lw old))))
    ∧ lanes (.vgetu h v gA lw lane) (exec (.vgetu h v gA lw lane) s = .next (advance s h j fun c => setG c gA (BitVec.ofNat 64 old)))
    ∧ lanes (.vput h v gA lw lane)
      (∃ r, exec (.vput h v gA lw lane) s = .next (advance s h j fun c => setV c v r)
        ∧ ∀ k, k < n → laneAt lw r k = if k = lane.toNat then (getG c gA).toNat % 2 ^ w else laneAt lw (getV c v) k)
    ∧ lanes (.vbc h v gA lw lane)
      (∃ r, exec (.vbc h v gA lw lane) s = .next (advance s h j fun c => setV c v r)
        ∧ ∀ k, k < n → laneAt lw r k = (getG c gA).toNat % 2 ^ w)

/-! ## Counters, slots, handle queues, weirs -/

/-- R136, R156: CHSET checks the handle it writes; CHGET reads it.
R156, R193, R195: ACNT.RD and ACNT.ADD. A handle of another kind raises HANDLE_INVALID, another context's counter OBJ_OWNER; an addition
wraps, and leaves every other counter of the tile.
R156, R198, R199, R201: SLOT.RD reads the slot's state word; SLOT.DRAIN empties a FULL slot and starts its next generation, does nothing to
an EMPTY one, and raises SLOT_STATE on a FILLING one. -/
def Obligations.CountersAndSlots : Prop :=
  (∀ (s : State) (h : SlotHdr) (j : BitVec 2) (gD gA : BitVec 5) (ch : BitVec 4), canIssue s h j = true → h.eng = false →
     let c := ctxOf s h.tile j
     let v : W32 := (getG c gA).setWidth 32
     let kind := v.toNat / 2 ^ 28
     let index := v.toNat % 2 ^ 12
     let ok := kind ≤ 4 ∧ v.toNat / 2 ^ 12 % 2 ^ 12 = 0 ∧ (kind = 2 ∨ v.toNat / 2 ^ 24 % 16 = 0)
       ∧ (kind = 1 ∨ kind = 3 → index < 64) ∧ (kind = 4 → index < 8)
     (ok → exec (.chset h ch gA) s = .next (advance s h j fun c => setC c ch v))
     ∧ (¬ ok → exec (.chset h ch gA) s = .next (stopped s h j cHandleInvalid (v.setWidth 64)))
     ∧ exec (.chget h gD ch) s = .next (advance s h j fun c => setG c gD ((getC c ch).setWidth 64)))
  ∧ (∀ (s : State) (h : SlotHdr) (j : BitVec 2) (gD gA : BitVec 5) (ch : BitVec 4), canIssue s h j = true → h.eng = false →
     let c := ctxOf s h.tile j
     let H := getC c ch
     let n := H.toNat % 4096
     let a := getAcnt (getTile s h.tile) n
     let both (t : State) : Prop := exec (.acntRd h gD ch) s = .next t ∧ exec (.acntAdd h ch gA) s = .next t
     (H.toNat / 2 ^ 28 ≠ 1 → both (stopped s h j cHandleInvalid (H.setWidth 64)))
     ∧ (H.toNat / 2 ^ 28 = 1 → a.owner ≠ j → both (stopped s h j cObjOwner 0))
     ∧ (H.toNat / 2 ^ 28 = 1 → a.owner = j →
         exec (.acntRd h gD ch) s = .next (advance s h j fun c => setG c gD a.value)
         ∧ (a.enable = true → Goes (exec (.acntAdd h ch gA) s) fun t =>
             getAcnt (getTile t h.tile) n = { a with value := a.value + getG c gA }
             ∧ (∀ k, k ≠ n → getAcnt (getTile t h.tile) k = getAcnt (getTile s h.tile) k)
             ∧ (ctxOf t h.tile j).pc = c.pc + 16 ∧ (ctxOf t h.tile j).g = c.g ∧ t.hbm = s.hbm)
         ∧ (a.enable = false → Goes (exec (.acntAdd h ch gA) s) fun t =>
             getAcnt (getTile t h.tile) n = a ∧ (ctxOf t h.tile j).pc = c.pc + 16 ∧ (ctxOf t h.tile j).g = c.g)))
  ∧ (∀ (s : State) (h : SlotHdr) (j : BitVec 2) (gD : BitVec 5) (ch : BitVec 4), canIssue s h j = true → h.eng = false →
     let H := getC (ctxOf s h.tile j) ch
     let n := H.toNat % 4096
     let y := getSlot (getTile s h.tile) n
     let both (t : State) : Prop := exec (.slotRd h gD ch) s = .next t ∧ exec (.slotDrain h ch) s = .next t
     (H.toNat / 2 ^ 28 ≠ 3 → both (stopped s h j cHandleInvalid (H.setWidth 64)))
     ∧ (H.toNat / 2 ^ 28 = 3 → slotEnabled y = false → both (stopped s h j cSlotState 0))
     ∧ (H.toNat / 2 ^ 28 = 3 → slotEnabled y = true → slotOwner y ≠ j → both (stopped s h j cObjOwner 0))
     ∧ (H.toNat / 2 ^ 28 = 3 → slotEnabled y = true → slotOwner y = j →
         exec (.slotRd h gD ch) s = .next (advance s h j fun c => setG c gD ((slotStatusReg y).setWidth 64))
         ∧ (y.st = .filling → exec (.slotDrain h ch) s = .next (stopped s h j cSlotState 0))
         ∧ (y.st = .empty → exec (.slotDrain h ch) s = .next (advance s h j id))
         ∧ (y.st = .full → y.heldEmpty = none → Goes (exec (.slotDrain h ch) s) fun t =>
             let z := getSlot (getTile t h.tile) n
             z.st = .empty ∧ z.filled = 0 ∧ z.gen = y.gen + 1 ∧ z.cfg = y.cfg ∧ (ctxOf t h.tile j).pc = (ctxOf s h.tile j).pc + 16)
         ∧ (y.st = .full → y.heldEmpty ≠ none → exec (.slotDrain h ch) s = .next (waiting s h j (.sync 7 0 ch 0 0)))))

/-- R156, R158, R285, R306: HQ.POP takes the oldest handle, and a queue that drains is disabled as its last one leaves; HQ.PUSH adds one behind the others; both
wait, on an empty and on a full queue. A queue that is not enabled, or another context's, is refused. -/
def Obligations.HandleQueueOps : Prop :=
  ∀ (s : State) (h : SlotHdr) (j : BitVec 2) (gD gA : BitVec 5) (ch : BitVec 4) (hint : BitVec 2),
    canIssue s h j = true → h.eng = false → hint ≠ 3 →
    let x := getTile s h.tile
    let H := getC (ctxOf s h.tile j) ch
    let n := H.toNat % 4096
    let y := getHq x n
    let both (t : State) : Prop := exec (.hqPop h gD ch hint) s = .next t ∧ exec (.hqPush h ch gA hint) s = .next t
    (H.toNat / 2 ^ 28 ≠ 4 → both (stopped s h j cHandleInvalid (H.setWidth 64)))
    ∧ (H.toNat / 2 ^ 28 = 4 → hqEnabled y = false → both (stopped s h j cStqRefused 0))
    ∧ (H.toNat / 2 ^ 28 = 4 → hqEnabled y = true → hqOwner y ≠ j → both (stopped s h j cObjOwner 0))
    ∧ (H.toNat / 2 ^ 28 = 4 → hqEnabled y = true → hqOwner y = j →
        (∀ v rest, y.handles = v :: rest → Goes (exec (.hqPop h gD ch hint) s) fun t =>
          getHq (getTile t h.tile) n
            = (if y.draining = true ∧ rest = [] then { y with handles := [], draining := false, cfg := setFld y.cfg 31 1 0 } else { y with handles := rest })
          ∧ (∀ k, k ≠ n → getHq (getTile t h.tile) k = getHq x k)
          ∧ ctxOf t h.tile j = { setG (ctxOf s h.tile j) gD (v.setWidth 64) with
              pc := (ctxOf s h.tile j).pc + 16, bundles := (ctxOf s h.tile j).bundles + 1 }
          ∧ (∀ u, u ≠ h.tile → getTile t u = getTile s u) ∧ t.hbm = s.hbm)
        ∧ (y.handles = [] → exec (.hqPop h gD ch hint) s = .next (waiting s h j (.sync 9 gD ch 0 hint)))
        ∧ (y.handles.length < 64 → y.draining = false → n < 8 → exec (.hqPush h ch gA hint) s
          = .next (modTile (advanceWait s h j id) h.tile fun x =>
              putHq x n { y with handles := y.handles ++ [(getG (ctxOf s h.tile j) gA).setWidth 32] }))
        ∧ (64 ≤ y.handles.length → y.draining = false → exec (.hqPush h ch gA hint) s = .next (waiting s h j (.sync 10 0 ch gA hint))))

/-- R157, R158, R239, R252: WAIT. A condition that holds releases at once and writes the status to gD; an error with GD 0 raises WAIT_STATUS with the handle and
the status; a condition that does not hold leaves the bundle held.
R250, R253: ARRIVE by a member of the weir whose arrived bit is clear sets the bit and sends the arrival; it does not wait. ARRIVE.WAIT does
the same and then waits: the bundle is held with its arrival made, or retires where its epoch is released already. A second arrival in one round raises
WEIR_TWICE. -/
def Obligations.WaitAndArrive : Prop :=
  (∀ (s : State) (h : SlotHdr) (j : BitVec 2) (gD gA : BitVec 5) (ch : BitVec 4) (hint : BitVec 2),
     canIssue s h j = true → h.eng = false → hint ≠ 3 →
     let x := getTile s h.tile
     let c := ctxOf s h.tile j
     let H := getC c ch
     let kind := H.toNat / 2 ^ 28
     let n := H.toNat % 4096
     let a := getAcnt x n
     let y := getSlot x n
     let sel := (getG c gA).toNat % 4
     let out := exec (.wait h gD ch gA hint) s
     let holds := out = .next (waiting s h j (.sync 2 gD ch gA hint))
     let releases (st : Byte) (act : State → State) : Prop :=
       out = .next (if st ≠ 0 ∧ gD = 0 then stopped s h j cWaitStatus (H.setWidth 64 + st.setWidth 64 * 2 ^ 32)
                    else act (advanceWait s h j fun c => setG c gD (st.setWidth 64)))
     let refused (c : Byte) : Prop := out = .next (stopped s h j c 0)
     (kind = 0 ∨ 4 < kind → out = .next (stopped s h j cHandleInvalid (H.setWidth 64)))
     ∧ (kind = 1 → a.owner ≠ j → refused cObjOwner) ∧ (kind = 2 → ∀ e, weirWaitCheck s h.tile j (BitVec.ofNat 12 n) = some e → refused e)
     ∧ (kind = 3 → slotEnabled y = false → refused cSlotState) ∧ (kind = 3 → slotEnabled y = true → slotOwner y ≠ j → refused cObjOwner)
     ∧ (kind = 4 → hqEnabled (getHq x n) = false → refused cStqRefused)
     ∧ (kind = 4 → hqEnabled (getHq x n) = true → hqOwner (getHq x n) ≠ j → refused cObjOwner)
     ∧ (kind = 1 → a.owner = j → a.err = none → if a.value.toNat < (getG c gA).toNat then holds else releases 0 id)
     ∧ (kind = 1 → a.owner = j → ∀ e, a.err = some e → releases e (clearMark h.tile n))
     ∧ (kind = 2 → weirWaitCheck s h.tile j (BitVec.ofNat 12 n) = none →
         match weirWaitRes s h.tile (BitVec.ofNat 12 n) (H.extractLsb' 24 4) with
         | none => holds
         | some st => releases st (weirSeen h.tile (BitVec.ofNat 12 n)))
     ∧ (kind = 3 → slotEnabled y = true → slotOwner y = j →
         (sel = 0 → if y.st = .empty then releases 0 id else holds) ∧ (sel = 2 → if y.st = .full then releases 0 id else holds)
         ∧ (sel = 1 ∨ sel = 3 → out = .next (stopped s h j cIllegalOp 0)))
     ∧ (kind = 4 → hqEnabled (getHq x n) = true → hqOwner (getHq x n) = j →
         if (getHq x n).handles = [] then holds else releases 0 id))
  ∧ (∀ (s : State) (h : SlotHdr) (j : BitVec 2) (gD : BitVec 5) (ch : BitVec 4) (hint : BitVec 2),
     canIssue s h j = true → h.eng = false → hint ≠ 3 →
     let x := getTile s h.tile
     let H := getC (ctxOf s h.tile j) ch
     let n : BitVec 12 := H.extractLsb' 0 12
     let w := getWeir (getDie s (tDie h.tile)) n
     H.toNat / 2 ^ 28 = 2 → weirOn w = true → mget false x.weirMember n.toNat = true → weirOwner w = j →
     (mget false x.weirArrived n.toNat = true →
       exec (.arrive h ch) s = .next (stopped s h j cWeirTwice 0) ∧ exec (.arriveWait h gD ch hint) s = .next (stopped s h j cWeirTwice 0))
     ∧ (mget false x.weirArrived n.toNat = false →
       let go := arriveAct h.tile n (H.extractLsb' 24 4)
       exec (.arrive h ch) s = .next (go (advance s h j id))
       ∧ (weirWaitCheck s h.tile j n = none → weirWaitRes s h.tile n (H.extractLsb' 24 4) = none →
           exec (.arriveWait h gD ch hint) s = .next (waiting s h j (.sync 4 gD ch 0 hint) go))
       ∧ (weirWaitCheck s h.tile j n = none → ∀ st, weirWaitRes s h.tile n (H.extractLsb' 24 4) = some st →
           exec (.arriveWait h gD ch hint) s
             = .next (if st ≠ 0 ∧ gD = 0 then stopped s h j cWaitStatus (H.setWidth 64 + st.setWidth 64 * 2 ^ 32)
                      else weirSeen h.tile n (go (advanceWait s h j fun c => setG c gD (st.setWidth 64)))))
       ∧ ∀ t : State, mget false (getTile (go t) h.tile).weirArrived n.toNat = true
           ∧ ∃ d : Fin 12, d.val = tDie h.tile ∧ (go t).net.arrivals = t.net.arrivals ++ [⟨d, n, h.tile, H.extractLsb' 24 4⟩]))

/-- R100, R107, R160: a gauge read gives the exponent in force for the open step and the one before, stalls where its step is not open yet,
and is GAUGE_STALE before that; MONW is a loss write for the context.
R106, R107: a loss value that no step before it has, for an enabled monitor of the writing job: the first one sets the average, later ones move it by the shifted
difference unless they spike; anything else is rejected and counted. LOSS_WINDOW_WRITE is the same write through the window. -/
def Obligations.WatchReportsAndLosses : Prop :=
  (∀ (s : State) (h : SlotHdr) (j : BitVec 2) (gD gA gB : BitVec 5) (widx : BitVec 12) (mon : BitVec 3),
     canIssue s h j = true → h.eng = false →
     let c := ctxOf s h.tile j
     let e := getWatch s widx
     let step := (getG c gA).toNat
     let out := exec (.gauge h gD gA widx) s
     let holds := out = .next (waiting s h j (.watch 0 gD gA 0 widx 0))
     let gives (b : Byte) : Prop := out = .next (advance s h j fun c => setG c gD (b.setWidth 64))
     ((getDie s (tDie h.tile)).watchReady = false → holds)
     ∧ ((getDie s (tDie h.tile)).watchReady = true → (watchOn e = false ∨ watchJob e ≠ j) → gives 0x80)
     ∧ ((getDie s (tDie h.tile)).watchReady = true → watchOn e = true → watchJob e = j →
         (step = e.openStep.toNat → gives (e.exp.extractLsb' 8 8)) ∧ (step + 1 = e.openStep.toNat → gives (e.exp.extractLsb' 0 8))
         ∧ (e.openStep.toNat < step → holds) ∧ (step + 1 < e.openStep.toNat → out = .next (stopped s h j cGaugeStale 0)))
     ∧ exec (.monw h mon gA gB) s
         = .next (lossWrite (advance s h j id) j mon (getG c gA) ((getG c gB).setWidth 32) ((getG c gB).extractLsb' 32 8)))
  ∧ (∀ (s : State) (w : Writer) (j : BitVec 2) (m : BitVec 3) (step : W64) (value : W32) (e : Byte),
     let l := getLoss s m
     let v := lossUnits value e.toInt
     let avg := l.avg.toInt
     let band : Int := (avg.natAbs * (l.cfg.toNat / 2 ^ 8 % 256) / 256 : Nat) + l.bandAbs.toNat
     let taken := e ≠ 0x80 ∧ bitAt l.cfg 31 = true ∧ fld l.cfg 28 2 = j ∧ (l.accepted = 0 ∨ l.lastStep.toNat < step.toNat)
     let spike := l.accepted ≠ 0 ∧ l.cfg.toNat % 256 ≤ l.accepted.toNat ∧ (band < v - avg ∨ bitAt l.cfg 30 = true ∧ band < avg - v)
     Goes (exec (.lossWindowWrite w j m step value e) s) fun t =>
       (¬ taken → getLoss t m = { l with rejects := l.rejects + 1 } ∧ t.jobs = s.jobs ∧ t.log = s.log)
       ∧ (taken → (getLoss t m).last = BitVec.ofInt 64 v ∧ (getLoss t m).lastStep = step ∧ (getLoss t m).rejects = l.rejects
           ∧ (l.accepted = 0 → (getLoss t m).avg = BitVec.ofInt 64 v ∧ (getLoss t m).accepted = 1)
           ∧ (spike → (getLoss t m).avg = l.avg ∧ (getLoss t m).spikes = l.spikes + 1)
           ∧ (l.accepted ≠ 0 ∧ ¬ spike → (getLoss t m).spikes = l.spikes
               ∧ (getLoss t m).avg = BitVec.ofInt 64 (avg + (v - avg) / 2 ^ (l.cfg.toNat / 2 ^ 20 % 16))))
       ∧ ∀ k, k ≠ m → getLoss t k = getLoss s k)

/-! ## Held bundles, limits and waiting states -/

/-- R149, R157, R255: a held WAIT on an arrival counter retires once the counter has reached gA and not before; a held HALT retires once no
engine holds an operation of the context, which is then HALTED; a held GAUGE once closes have brought its step.
R100, R158: a wait whose condition does not hold within TILE.WAIT_LIMIT raises WAIT_TIMEOUT with its handle, and a gauge read stalled for 1 ms
GAUGE_TIMEOUT: precise, PC stays, no register is written. A limit of 0 never passes.
R159, R256, R258: a spinning wait that still blocks enters lend state after the spin period under HINT DEFAULT, and as soon as it may under LEND: LEND where the loan
is accepted, and where it is not DOZE once the spin period is over; it stays in SPIN while the tile works for the context. Under HINT SPIN nothing changes. -/
def Obligations.HeldBundles : Prop :=
  (∀ (s : State) (tile : W16) (j : BitVec 2) (w : WaitRec) (gD gA : BitVec 5) (ch : BitVec 4) (hint : BitVec 2) (widx : BitVec 12),
     let x := getTile s tile
     let c := ctxOf s tile j
     let H := getC c ch
     let a := getAcnt x (H.toNat % 4096)
     let e := getWatch s widx
     let after (f : Ctx → Ctx) (k : Bool) (t : State) : Prop :=
       ctxOf t tile j = { f c with pc := c.pc + 16, bundles := c.bundles + 1, wait := none, switchPt := k }
     (heldBy s tile j false (.sync 2 gD ch gA hint) w = true → hint ≠ 3 → H.toNat / 2 ^ 28 = 1 → a.owner = j → a.err = none →
       (a.value.toNat < (getG c gA).toNat → exec (.waitRelease tile) s = .next s)
       ∧ ((getG c gA).toNat ≤ a.value.toNat → Goes (exec (.waitRelease tile) s) (after (fun c => setG c gD 0) c.switchPt)))
     ∧ (heldBy s tile j false (.sys 1 0 0 0) w = true →
       (engBusy x j = true → exec (.haltRetire tile) s = .next s)
       ∧ (engBusy x j = false → Goes (exec (.haltRetire tile) s) (after (fun c => { c with st := .halted }) false)))
     ∧ (heldBy s tile j false (.watch 0 gD gA 0 widx 0) w = true → (getDie s (tDie tile)).watchReady = true → watchOn e = true → watchJob e = j →
       (e.openStep.toNat < (getG c gA).toNat → exec (.gaugeStallRelease tile) s = .next s)
       ∧ (e.openStep = getG c gA → Goes (exec (.gaugeStallRelease tile) s)
           (after (fun c => setG c gD ((e.exp.extractLsb' 8 8).setWidth 64)) false))))
  ∧ (∀ (s : State) (tile : W16) (j : BitVec 2) (w : WaitRec) (gD gA : BitVec 5) (ch : BitVec 4) (hint : BitVec 2) (widx : BitVec 12),
     let x := getTile s tile
     let c := ctxOf s tile j
     let H := getC c ch
     let a := getAcnt x (H.toNat % 4096)
     let e := getWatch s widx
     let lim := 1000 * c.waitLimit.toNat
     (heldBy s tile j false (.sync 2 gD ch gA hint) w = true → hint ≠ 3 → H.toNat / 2 ^ 28 = 1 → a.owner = j → a.err = none →
       a.value.toNat < (getG c gA).toNat →
       (lim ≠ 0 ∧ lim ≤ waited s w → Goes (exec (.waitTimeout tile) s) fun t =>
         ctxOf t tile j = { c with st := .stopped, wait := none, excCause := 0x208, excPc := c.pc, excInfo := H.setWidth 64 })
       ∧ (lim = 0 ∨ waited s w < lim → exec (.waitTimeout tile) s = .next s))
     ∧ (heldBy s tile j false (.watch 0 gD gA 0 widx 0) w = true → (getDie s (tDie tile)).watchReady = true → watchOn e = true → watchJob e = j →
       e.openStep.toNat < (getG c gA).toNat →
       (1000000 ≤ waited s w → Goes (exec (.gaugeTimeout tile) s) fun t =>
         ctxOf t tile j = { c with st := .stopped, wait := none, excCause := 0x235, excPc := c.pc, excInfo := 0 })
       ∧ (waited s w < 1000000 → exec (.gaugeTimeout tile) s = .next s)))
  ∧ (∀ (s : State) (tile : W16) (j : BitVec 2) (w : WaitRec) (gD gA : BitVec 5) (ch : BitVec 4) (hint : BitVec 2),
     let spin := 125 * (s.mod.waitCfg.toNat / 2 ^ 16)
     let loan := bitAt s.mod.waitCfg 15 = true ∧ (tileHalf s tile).step ≠ 2
     let c := ctxOf s tile j
     let H := getC c ch
     let a := getAcnt (getTile s tile) (H.toNat % 4096)
     let spun := w.since.toNat + spin ≤ now s
     let works := engBusy (getTile s tile) j = true ∨ ∃ e, getExch s tile = some e ∧ e.job = j
     heldBy s tile j false (.sync 2 gD ch gA hint) w = true → w.pwr = .spin → H.toNat / 2 ^ 28 = 1 → a.owner = j → a.err = none →
     a.value.toNat < (getG c gA).toNat →
       (hint = 1 → exec (.spinPeriodExpire tile) s = .next s)
       ∧ (hint = 0 → ¬ spun → exec (.spinPeriodExpire tile) s = .next s)
       ∧ ((hint = 0 ∧ spun) ∨ hint = 2 → Goes (exec (.spinPeriodExpire tile) s) fun t =>
           (works → (ctxOf t tile j).wait = some w)
           ∧ (¬ works → loan → (ctxOf t tile j).wait = some { w with pwr := .lend })
           ∧ (¬ works → ¬ loan → spun → (ctxOf t tile j).wait = some { w with pwr := .doze })
           ∧ (¬ works → ¬ loan → ¬ spun → (ctxOf t tile j).wait = some w)))

/-! ## Exchange phases -/

/-- R206, R211, R215: EXCH starts a phase over the entries its header counts and holds its bundle; a misaligned or unreachable folio is a precise exception,
a bad header a deferred one.
R215, R217, R218: the next entry of a phase issues when its checks pass, its issue time has come, its source may be read and its router's buffer is free:
one block with the bytes of the source enters the network, SEND counts in TILE.SENT, and the phase moves on; before that it waits.
R207, R219, R397: at the exchange boundary the EXCH bundle retires and its context stands at a switch point; past TILE.WAIT_LIMIT the phase ends and the
tile raises XCH_TIMEOUT as a deferred exception. -/
def Obligations.Exchanges : Prop :=
  (∀ (s : State) (h : SlotHdr) (j : BitVec 2) (gA : BitVec 5), canIssue s h j = true → h.eng = true →
     let x := getTile s h.tile
     let c := ctxOf s h.tile j
     let a := getG c gA
     let out := exec (.exch h gA) s
     (a.toNat % 64 ≠ 0 → out = .next (stopped s h j cMisaligned a))
     ∧ (a.toNat % 64 = 0 → inShare x j a.toNat 16 = false → out = .next (stopped s h j cAddrRange a))
     ∧ (a.toNat % 64 = 0 → inShare x j a.toNat 16 = true → spadBad x a.toNat 16 = true →
         out = .next (excDeferred (advance s h j id) h.tile j true cSpadEcc c.pc 0 false))
     ∧ (a.toNat % 64 = 0 → inShare x j a.toNat 16 = true → spadBad x a.toNat 16 = false →
         (∀ cause, headerCheck s (quad x a.toNat) = some cause →
           out = .next (excDeferred (advance s h j id) h.tile j true cause c.pc 0 false))
         ∧ (headerCheck s (quad x a.toNat) = none → Goes out fun t =>
             getExch t h.tile = some { job := j, addr := a, count := (quad x a.toNat).toNat % 8192, next := 0, startCycle := (tileHalf s h.tile).cycles,
                                       since := s.mod.time, pc := c.pc, failed := none, run := x.eng.runs + 1 }
             ∧ (ctxOf t h.tile j).wait.isSome = true ∧ (ctxOf t h.tile j).pc = c.pc ∧ (ctxOf t h.tile j).g = c.g
             ∧ t.net.blocks = s.net.blocks)))
  ∧ (∀ (s : State) (tile : W16) (e : Exch) (via : List Nat),
     let x := getTile s tile
     let q := quad x (e.addr.toNat + 16 + 16 * e.next)
     let due := e.startCycle.toNat + q.toNat / 2 ^ 108 % 2 ^ 16
     let b := blockOf s tile e.job e.run q (entryDst s tile q) via
     tilePresent s tile = true → getExch s tile = some e → e.next < e.count → e.failed = none →
     inShare x e.job (e.addr.toNat + 16 + 16 * e.next) 16 = true → spadBad x (e.addr.toNat + 16 + 16 * e.next) 16 = false →
     entryCheck s tile e.job q = none →
     ((tileHalf s tile).cycles.toNat < due ∨ readWaits x (sendSrc q) = true → exec (.folioEntryIssue tile) s = .next s)
     ∧ (due ≤ (tileHalf s tile).cycles.toNat → readWaits x (sendSrc q) = false →
         (sendKind q = 1 ∧ sendMod q = 0 → dieReady s (tDie (sendDest q)) = true) → entryRoute s tile q = some via →
         bufFree s b.pos 0 (blkClass b) = true → b.bad = none →
         Goes (exec (.folioEntryIssue tile) s) fun t =>
           getExch t tile = some { e with next := e.next + 1 } ∧ t.net.blocks = mset Block.reset s.net.blocks (s.net.nextBlk + 1) b
           ∧ (getTile t tile).regs.sent = x.regs.sent + 1 ∧ b.payload = opndRead x (sendSrc q) (64 * (q.toNat / 2 ^ 36 % 64 + 1))
           ∧ (getTile t tile).spad = x.spad))
  ∧ (∀ (s : State) (tile : W16) (j : BitVec 2) (w : WaitRec) (gA : BitVec 5) (e : Exch),
     let c := ctxOf s tile j
     heldBy s tile j true (.xfer 0 gA 0 0) w = true → getExch s tile = some e → e.job = j → e.failed = none → c.yent = none →
     (e.count ≤ e.next → Goes (exec (.exchBoundary tile) s) fun t => getExch t tile = none
         ∧ ctxOf t tile j = { c with pc := c.pc + 16, bundles := c.bundles + 1, wait := none, switchPt := true, xbCount := c.xbCount + 1 })
     ∧ (e.next < e.count → exec (.exchBoundary tile) s = .next s)
     ∧ (e.next < e.count → c.waitLimit ≠ 0 → e.since.toNat + 1000 * c.waitLimit.toNat ≤ now s →
         Goes (exec (.xchTimeout tile) s) fun t => getExch t tile = none
           ∧ ctxOf t tile j = { c with st := .stopped, pc := c.pc + 16, bundles := c.bundles + 1, wait := none, switchPt := false,
                                       excCause := 0x164, excPc := e.pc, excInfo := 0 }))

/-! ## The mesh -/

/-- R220, R221, R226: a block moves one stage along its route where the next buffer is free, and waits where it is not: to the next router, or through the two ends of a
die-to-die link; a flit in error is resent once, and a block whose resend fails leaves the network; over a die-to-die link the replay of the link clears it.
R193, R222, R200: a block that has arrived at its tile, or the sum of a round there, is written where DADDR names plain scratchpad, leaves the network, and adds one to the counter its header names;
every other byte of the tile reads as before. A block that waited for a slot is written the same once it may be, and one that may not waits. -/
def Obligations.Blocks : Prop :=
  (∀ (s : State) (i : Nat) (b : Block) (q : Pos) (inp : Nat), getBlk s i = some b → b.inPort ≠ atMemPort → b.payload ≠ [] →
     (∀ (r : Pos) (rin : Nat), b.kind = .put → linkPort b = none → b.pos ≠ b.dst → neighbour b.pos (routePort s b) = some (r, rin) →
       nextStage b.pos (routePort s b) = some (q, inp) → (r.die = b.pos.die ∨ crossable s b.pos.die r.die = true) →
       (bufFree s q inp (blkClass { b with pos := q }) = false → exec (.routerForward i) s = .next s)
       ∧ (bufFree s q inp (blkClass { b with pos := q }) = true → Goes (exec (.routerForward i) s) fun t =>
           getBlk t i = some { b with pos := q, inPort := inp, taken := [], heldSince := s.mod.time }
           ∧ (∀ k, k ≠ i → getBlk t k = getBlk s k) ∧ t.halves = s.halves))
     ∧ (∀ (port : Nat) (r : Pos) (rin : Nat), linkPort b = some (port, true) → neighbour b.pos port = some (r, rin) → dieReady s r.die = true →
         crossable s b.pos.die r.die = true → bufFree s r (recvEnd rin) (blkClass { b with pos := r }) = true → Goes (exec (.routerForward i) s) fun t =>
           getBlk t i = some { b with pos := r, inPort := recvEnd rin, taken := [], heldSince := s.mod.time })
     ∧ (∀ port : Nat, linkPort b = some (port, false) → bufFree s b.pos port (blkClass b) = true → Goes (exec (.routerForward i) s) fun t =>
         getBlk t i = some { b with inPort := port, taken := [], heldSince := s.mod.time })
     ∧ (∀ e, cameOver b = some e → b.inPort ≠ atSum → ∀ again, Goes (exec (.meshFlitCrcError i again) s) fun t => getBlk t i = some b ∧ t.log = s.log ∧ t.tiles = s.tiles)
     ∧ (cameOver b = none → b.inPort ≠ atSum → Goes (exec (.meshFlitCrcError i false) s) fun t => getBlk t i = some b
         ∧ (s.log.wins = [] → s.log.recs.length < 4096 → ∃ r more, t.log.recs = s.log.recs ++ r :: more ∧ r.cause = cMeshCrc ∧ r.sev = 0))
     ∧ (cameOver b = none → b.inPort ≠ atSum → b.xfer = none → (s.log.dropTimes.all fun e => e.1 != linkCode b.pos b.inPort) = true →
         Goes (exec (.meshFlitCrcError i true) s) fun t => getBlk t i = none))
  ∧ (∀ (s : State) (i : Nat) (b : Block), getBlk s i = some b → b.kind ≠ .cast → arrivedAt s b = some b.dest → (b.slotWait = none → waitsBehind s i b.dest b = false) →
     b.xfer = none → b.bad = none → b.payload ≠ [] → tileTakes s b.dest = true → (b.world = true ∨ secureTile s b.dest = false) →
     let x := getTile s b.dest
     let cmd : Instr := if b.slotWait = none then .blockWrite i else .blockSlotResume i
     opndCheck x b.job b.daddr b.payload.length 64 = none →
     (writeWaits x b.daddr b.payload.length = true → Goes (exec cmd s) fun t =>
       (getBlk t i).any (·.slotWait.isSome) = true ∧ t.tiles = s.tiles)
     ∧ (∀ a, opnd b.daddr = .plain a → badMerges x a b.payload.length = [] → Goes (exec cmd s) fun t =>
         getBlk t i = none
         ∧ (∀ k, k < b.payload.length → mget 0 (getTile t b.dest).spad (a + k) = b.payload.getD k 0)
         ∧ (∀ k, k < a ∨ a + b.payload.length ≤ k → mget 0 (getTile t b.dest).spad k = mget 0 x.spad k)
         ∧ (∀ u, u ≠ b.dest → (getTile t u).spad = (getTile s u).spad)
         ∧ (b.acntEn = true → (getAcnt x b.acnt.toNat).enable = true → (getAcnt x b.acnt.toNat).owner = b.job →
             getAcnt (getTile t b.dest) b.acnt.toNat = { getAcnt x b.acnt.toNat with value := (getAcnt x b.acnt.toNat).value + 1 })
         ∧ (b.acntEn = false → (getTile t b.dest).acnt = x.acnt)))

/-- R230, R231: a round at the root of an ADD tree takes the next block of every IN port and leaves one block of I32 elements for the tile there, each the sum of the
inputs' elements modulo 2^32. It waits while an input is missing, and while the sum before it is on its way to the tile. -/
def Obligations.ConfluenceRound : Prop :=
  ∀ (s : State) (tree : BitVec 10) (router : W16) (i : Nat) (b0 : Block) (rest : List (Nat × Block)),
    let r := routeAt s router tree
    let p := routerPos s router
    let ins := (i, b0) :: rest
    (none ∈ (inPorts r).map (roundInput s tree p) → exec (.addRound tree router) s = .next s)
    ∧ ((inPorts r).map (roundInput s tree p) = ins.map some → (outPorts r).head? = some 0 → (∀ e ∈ ins, sameRound b0 e.2 = true ∧ e.2.bad = none) →
      (sumWaits s tree p = true → exec (.addRound tree router) s = .next s)
      ∧ (sumWaits s tree p = false → ((inPorts r).length ≤ 1 ∨ hasAdder s tree p = true) → addElems b0 ≠ [] → Goes (exec (.addRound tree router) s) fun t =>
        (∀ e ∈ ins, e.1 ≤ s.net.nextBlk → getBlk t e.1 = none)
        ∧ ∃ nb, getBlk t (s.net.nextBlk + 1) = some nb ∧ nb.pos = p ∧ arrivedAt t nb = some (treeEnd (getTree s tree)) ∧ nb.daddr = b0.daddr
          ∧ nb.acntEn = b0.acntEn ∧ nb.acnt = b0.acnt ∧ nb.job = b0.job ∧ nb.payload.length = 4 * (addElems b0).length
          ∧ ∀ k, k < (addElems b0).length →
              leNat ((nb.payload.drop (4 * k)).take 4) = toBits 32 (sumI (ins.map fun e => nth 0 (addElems e.2) k))))

/-- R234, R235, R239: a CAST port without a credit for PRUNE_LAG is pruned; when its credit returns its leaves get PRUNED markers; a marker sets its
counter's error-pending flag with the cause, and no other counter changes.
R238: a tree load is refused while the tree is in use and where its shape is not that of a tree; an accepted one gives every tile's router the entry it lists and
clears the entry of any other tile's, and leaves every other tree's. -/
def Obligations.MarkersAndTrees : Prop :=
  (∀ (s : State),
     (∀ (i : Nat) (b : Block) (port : Fin 5), getBlk s i = some b → b.kind = .cast → linkPort b = none →
       routeOut (routeAtPos s b.pos b.tree) port.val = true → b.taken.contains port.val = false → b.taken ≠ [] → isPruned s b port.val = false →
       let lag := s.mod.meshCfg.toNat / 2 ^ 16
       let lacks := lacksSince s b.pos port.val (portClass s b port.val)
       (∀ t0, lacks = some t0 → lag ≠ 0 → t0.toNat + 125 * lag ≤ now s → Goes (exec (.castPrune i port) s) fun t =>
         t.net.prunes = s.net.prunes ++ [{ tree := b.tree, router := routerCode s b.pos, port := port.val, root := b.src, acnt := b.acnt, acntEn := b.acntEn,
                                           job := b.job, run := b.run, marked := false }]
         ∧ t.tiles = s.tiles)
       ∧ (lag = 0 ∨ lacks = none → exec (.castPrune i port) s = .next s) ∧ (∀ t0, lacks = some t0 → now s < t0.toNat + 125 * lag → exec (.castPrune i port) s = .next s))
     ∧ (∀ (router : W16) (tree : BitVec 10) (port : Fin 5) (p : Prune) (leaf : W16),
       s.net.prunes = [p] → p.marked = false → p.router = router → p.tree = tree → p.port = port.val →
       (∀ cls, lacksSince s (routerPos s router) port.val cls = none) → leavesBeyond s tree (routerPos s router) port.val = [leaf] →
       Goes (exec (.prunedMarkerSend router tree port) s) fun t => t.net.prunes = [{ p with marked := true }]
         ∧ t.net.markers = s.net.markers ++ [(s.net.nextMk, { tile := leaf, acnt := p.acnt, cause := cPruned, job := p.job })])
     ∧ ∀ (k : Nat) (m : Marker), s.net.markers.find? (fun e => decide (e.1 = k)) = some (k, m) → (getTile s m.tile).fenced = false →
       dieReady s (tDie m.tile) = true → Goes (exec (.markerReceive k) s) fun t =>
         getAcnt (getTile t m.tile) m.acnt.toNat = { getAcnt (getTile s m.tile) m.acnt.toNat with err := some m.cause }
         ∧ (∀ n, n ≠ m.acnt.toNat → getAcnt (getTile t m.tile) n = getAcnt (getTile s m.tile) n)
         ∧ t.net.markers = merase s.net.markers k ∧ ∀ u, u ≠ m.tile → getTile t u = getTile s u)
  ∧ (∀ (s : State) (w : Writer) (tree : BitVec 10) (rs : List (W16 × W16)),
     (treeBusy s tree = true → exec (.treeLoad w tree rs) s = .next { s with status := stCfgBusy })
     ∧ (treeBusy s tree = false → treeShapeOk s (getTree s tree) rs = false → exec (.treeLoad w tree rs) s = .next { s with status := cTreeInvalid })
     ∧ (treeBusy s tree = false → treeShapeOk s (getTree s tree) rs = true → Goes (exec (.treeLoad w tree rs) s) fun t =>
         t.status = stOk ∧ (getTree t tree).broken = false
         ∧ (∀ e ∈ rs, routeAt t e.1 tree = e.2) ∧ (∀ u, bitAt u 15 = false → (∀ e ∈ rs, e.1 ≠ u) → routeAt t u tree = 0)
         ∧ ∀ u n, n ≠ tree → routeAt t u n = routeAt s u n))

/-! ## Weirs -/

/-- R248: a weir load completes with its status; an accepted one below L6 gives every READY die of the span a fresh record of the weir with the members on that die.
R250, R251, R267: an arrival of the open epoch counts once; the last one of a weir below L6 sends the release of the epoch over the span. An arrival of another epoch is stale
and does not count.
R251, R253, R267: the release of a round opens the next epoch at a die's counters, clears its arrivals, counts the round, and keeps the lost mask; at a tile it clears the
arrived bit and moves the tile's view to the open epoch. -/
def Obligations.Weirs : Prop :=
  (∀ (s : State) (w : Writer) (n : BitVec 12) (cfg : W32) (ms : List W16),
     (∀ st, weirLoadRefusal s n cfg ms = some st → exec (.weirLoad w n cfg ms) s = .next { s with status := st })
     ∧ (weirLoadRefusal s n cfg ms = none → Goes (exec (.weirLoad w n cfg ms) s) fun t => t.status = stOk
         ∧ (cfg.toNat / 2 ^ 28 % 8 < 6 → ∀ d ∈ spanDies s (cfg.toNat / 2 ^ 28 % 8) (tDie (ms.headD 0)), dieReady s d = true →
             getWeir (getDie t d) n
               = { Weir.reset with cfg := cfg &&& 0xFFF00000, members := ms.filter fun m => decide (tDie m = d), site := ms.headD 0
                                   lost := ms.any fun m => !dieReady s (tDie m) })))
  ∧ (∀ (s : State) (d : Fin 12) (n : BitVec 12) (tile : W16) (a : Arrival), s.log.weirFaults = [] → hasArrival s d n tile = some a →
     let w := getWeir (getDie s d.val) n
     weirOn w = true → w.fault = false → w.orphaned = false → w.copyBad = false →
     (a.epoch ≠ w.epoch → Goes (exec (.weirCounterArrival d n tile) s) fun t =>
       getWeir (getDie t d.val) n = { w with stale := w.stale + 1 } ∧ t.net.arrivals = s.net.arrivals.erase a)
     ∧ (a.epoch = w.epoch → w.arrived.contains tile = false → (∃ m ∈ w.members, m ≠ tile ∧ w.arrived.contains m = false) → weirLevel w < 4 →
         Goes (exec (.weirCounterArrival d n tile) s) fun t =>
           getWeir (getDie t d.val) n = { w with arrived := w.arrived ++ [tile] } ∧ t.net.arrivals = s.net.arrivals.erase a)
     ∧ (a.epoch = w.epoch → w.arrived.contains tile = false → (∀ m ∈ w.members, m ≠ tile → w.arrived.contains m = true) → weirLevel w < 4 → w.release = [] →
         Goes (exec (.weirCounterArrival d n tile) s) fun t =>
           getWeir (getDie t d.val) n = { w with arrived := w.arrived ++ [tile], release := [(w.epoch, w.lost)] }))
  ∧ (∀ (s : State) (d : Fin 12) (n : BitVec 12) (tile : W16) (h : BitVec 4) (lost : Bool) (more : List (BitVec 4 × Bool)), s.log.weirFaults = [] →
     let w := getWeir (getDie s d.val) n
     (w.release = (h, lost) :: more → w.copyBad = false → Goes (exec (.weirReleaseArrive d n none) s) fun t =>
       let v := getWeir (getDie t d.val) n
       v.epoch = h + 1 ∧ v.arrived = [] ∧ v.rounds = w.rounds + 1 ∧ v.release = more ∧ v.members = w.members ∧ v.cfg = w.cfg
       ∧ ∀ k : BitVec 4, bitAt v.lostMask k.toNat = if k = h + 1 then false else if k = h then lost || bitAt w.lostMask k.toNat else bitAt w.lostMask k.toNat)
     ∧ (tDie tile = d.val → weirReach s w tile = true → mget 0 (getTile s tile).weirView n.toNat ≠ w.epoch →
         Goes (exec (.weirReleaseArrive d n (some tile)) s) fun t =>
           mget 0 (getTile t tile).weirView n.toNat = w.epoch ∧ mget false (getTile t tile).weirArrived n.toNat = false
           ∧ ∀ k, k ≠ n.toNat → mget 0 (getTile t tile).weirView k = mget 0 (getTile s tile).weirView k
               ∧ mget false (getTile t tile).weirArrived k = mget false (getTile s tile).weirArrived k))

/-! ## Streams and translation -/

/-- R274, R291: SPOST appends the descriptor at gA to its context's queue in a free record, or waits for one; WINDOW_POST does the same for the context's owner, or completes BUSY;
REARM arms an IDLE reach with its base, and leaves the base pending otherwise.
R273, R276, R288: the first queued record of an active context starts when its engine has room: a descriptor that fails R273 has failed with DESC_INVALID, any
other begins at its first byte. A pass of an armed reach takes a free record with its address. -/
def Obligations.StreamPostsAndStarts : Prop :=
  (∀ (s : State),
     let posted (t : State) (die : Nat) (q : BitVec 12) (r : BitVec 9) (job : BitVec 2) (world : Bool) (tile : W16) (desc : BitVec 512) : Prop :=
       (getStq (getDie t die) q).recs = (getStq (getDie s die) q).recs ++ [r]
       ∧ (let x := getRec (getDie t die) r
          x.st = .queued ∧ x.job = job ∧ x.world = world ∧ x.tile = tile ∧ x.qid = q ∧ x.reach = false ∧ x.desc = desc ∧ x.legs = []
          ∧ x.gen = (getRec (getDie s die) r).gen ∧ x.ord = s.net.ord)
       ∧ ∀ k, k ≠ r → getRec (getDie t die) k = getRec (getDie s die) k
     (∀ (h : SlotHdr) (j : BitVec 2) (gA gB : BitVec 5) (q : BitVec 12), canIssue s h j = true → h.eng = true →
       let x := getTile s h.tile
       let c := ctxOf s h.tile j
       let d := getDie s (tDie h.tile)
       let a := getG c gA
       (∀ cause, postCheck d q j = some cause → exec (.spost h gA q) s = .next (stopped s h j cause 0))
       ∧ (postCheck d q j = none → a.toNat % 64 = 0 → inShare x j a.toNat 64 = true → spadBad x a.toNat 64 = false →
           (∀ r, postFree d (getStq d q) = some r → Goes (exec (.spost h gA q) s) fun t =>
             posted t (tDie h.tile) q r j false h.tile (BitVec.ofNat 512 (leNat (spadRead x a.toNat 64))) ∧ (ctxOf t h.tile j).pc = c.pc + 16)
           ∧ (postFree d (getStq d q) = none → Goes (exec (.spost h gA q) s) fun t => (ctxOf t h.tile j).wait.isSome = true ∧ t.dies = s.dies))
       ∧ (q.toNat < 1024 →
           let n : BitVec 10 := q.setWidth 10
           let y := getReach d n
           let b := getG c gB
           rearmCheck y j b = none → y.pending = false → Goes (exec (.rearm h gB q) s) fun t =>
             getReach (getDie t (tDie h.tile)) n
               = (if y.st = .idle then { y with base := b, pass := 0, st := .armed }
                  else if y.st = .frozen ∧ y.thawTo = .idle then { y with base := b, pass := 0, thawTo := .armed } else { y with nextBase := b, pending := true })
             ∧ (ctxOf t h.tile j).pc = c.pc + 16))
     ∧ ∀ (w : Writer) (die : Fin 12) (q : BitVec 12) (desc : BitVec 512),
       let d := getDie s die
       let x := getStq d q
       postCheck d q (stqOwner x) = none →
         (∀ r, postFree d x = some r → Goes (exec (.windowPost w die q desc) s) fun t =>
           t.status = stOk ∧ posted t die q r (stqOwner x) (secureWriter w) (stqTile x) desc)
         ∧ (postFree d x = none → exec (.windowPost w die q desc) s = .next { s with status := stBusy }))
  ∧ (∀ (s : State) (die : Fin 12) (r : BitVec 9),
     let d := getDie s die
     let x := getRec d r
     (x.st = .queued → x.reach = false → x.begun = 0 → x.legs = [] → (getJob s x.job).frozen = false → (getStq d x.qid).st = .active →
       firstQueued d x.qid r = true → engineLoad d (recEngine d x) < 64 → dInQ x.desc = 0x1FFF →
       Goes (exec (.transferStart die r) s) fun t =>
         let y := getRec (getDie t die) r
         ∃ l, y.st = .running ∧ y.begun = 1 ∧ y.legs = [l] ∧ l.desc = x.desc ∧ l.next = 0 ∧ l.steps = [] ∧ l.handle = x.handle
           ∧ l.view = (getJob s x.job).regs.trnView ∧ l.status = (if descOk s die x.tile false x.desc then 0 else cDescInvalid)
           ∧ y.nextOp = dNext x.desc)
     ∧ ∀ (n : BitVec 10), let y := getReach d n
       let desc : BitVec 512 := mget 0 y.descs 0
       y.st = .armed → (getJob s (reachOwner y)).frozen = false → y.pass.toNat < reachPasses y → y.recs.length < reachDepth y → x.st = .free →
       engineLoad d (reachEngine y) < 64 → dInQ desc = 0x1FFF → Goes (exec (.reachPassStart die n r) s) fun t =>
         let z := getRec (getDie t die) r
         z.st = .running ∧ z.reach = true ∧ z.passAddr = y.base + BitVec.ofNat 64 y.pass.toNat * y.stride ∧ z.begun = 1
         ∧ (getReach (getDie t die) n).pass = y.pass + 1 ∧ (getReach (getDie t die) n).recs = y.recs ++ [r])

/-- R269, R292, R296, R297: the next step of a transfer between two virtual ranges. With both sides translated its reads of 64 bytes go to the source's stack, and the transfer
moves on by the step; a source that is not cached begins a walk; a fault is kept until the steps before it are written.
R292, R293, R295, R297: a walk that finds a valid page is done and caches it; one that finds none parks the transfer with NOT_MAPPED.
R277, R281: a transfer with nothing in flight completes: it counts once on the arrival counter it names, and its record is free under the next generation. -/
def Obligations.Transfers : Prop :=
  (∀ (s : State) (die : Fin 12) (r : BitVec 9) (ls : List Leg) (l : Leg),
     let d := getDie s die
     let x := getRec d r
     let n := stepLen x l l.next
     let side (dst : Bool) := xlate s d x.job l.view (sideVa x l dst l.next) dst
     let new (t : State) : Option Leg := lastLeg (getRec (getDie t die) r)
     x.legs = ls ++ [l] → (∀ k ∈ ls, k.num ≠ l.num) → x.st = .running → x.freezing = false → l.status = 0 → l.walk = none → l.fault = none → l.next < dTotal l.desc →
     dSrcKind l.desc = 0 → dDstKind l.desc = 0 →
     (∀ a b ba bb, side false = .pa a ba → side true = .pa b bb → engineRoom s d x n (some (a, ba)) (some (b, bb)) = true → Goes (exec (.transferStep die r) s) fun t =>
       new t = some { l with next := l.next + n, steps := l.steps ++ [{ id := s.net.ord, off := l.next, len := n, data := [], reads := n / 64, writes := 0, dst := some b,
                                                                        vas := [(sideVa x l false l.next, ba), (sideVa x l true l.next, bb)] }] }
       ∧ (getStack t (paStack a)).reqs = (getStack s (paStack a)).reqs ++ (List.range (n / 64)).map fun i =>
           ({ pa := a + 64 * i, write := none, die, xrec := r, step := s.net.ord, idx := i, world := x.world, job := x.job } : MemReq))
     ∧ (side false = .miss → walksBusy d < 32 → Goes (exec (.transferStep die r) s) fun t =>
         new t = some { l with walk := some (false, BitVec.ofNat 64 (sideVa x l false l.next)) } ∧ t.hbmStacks = s.hbmStacks)
     ∧ (∀ f, side false = .fault f → l.steps = [] → Goes (exec (.transferStep die r) s) fun t =>
         (getRec (getDie t die) r).st = .parked ∧ (getRec (getDie t die) r).reason = f ∧ (getRec (getDie t die) r).parkedAt = s.mod.time
         ∧ (getDie t die).stream.faults = d.stream.faults + 1))
  ∧ (∀ (s : State) (die : Fin 12) (r : BitVec 9) (evict : Nat) (l : Leg) (dst : Bool) (va : W64),
     let x := getRec (getDie s die) r
     x.st = .running → x.freezing = false → x.legs = [l] → l.status = 0 → l.steps = [] → l.fault = none → l.walk = some (dst, va) →
     (∀ s' e a big, walk s x.job x.world l.view va.toNat dst = (s', .pa a big, some e) → (getDie s' die) = getDie s die → (getDie s die).tlb.length < 2048 →
       Goes (exec (.translationWalkDone die r evict) s) fun t =>
         (getRec (getDie t die) r).legs = [{ l with walk := none }] ∧ (getDie t die).tlb = (getDie s die).tlb ++ [e])
     ∧ (∀ f, walk s x.job x.world l.view va.toNat dst = (s, .fault f, none) → Goes (exec (.translationWalkDone die r evict) s) fun t =>
         (getRec (getDie t die) r).st = .parked ∧ (getRec (getDie t die) r).reason = f ∧ (getDie t die).tlb = (getDie s die).tlb))
  ∧ (∀ (s : State) (die : Fin 12) (r : BitVec 9) (l : Leg),
     let d := getDie s die
     let x := getRec d r
     let a := getAcnt (getTile s x.tile) (dAcnt l.desc)
     x.legs = [l] → x.reach = false → x.st = .running → x.nextOp = 0xFFFFFF → l.told = false → l.steps = [] → l.status = 0 → l.next = dTotal l.desc → l.handle = none →
     dCpl l.desc = 0xFFFFFF → dDstKind l.desc = 0 → tileTakes s x.tile = true →
     Goes (exec (.transferComplete die r) s) fun t =>
       getRec (getDie t die) r = { XferRec.reset with gen := x.gen + 1 } ∧ r ∉ (getStq (getDie t die) x.qid).recs
       ∧ (dAcntEn l.desc = true → a.enable = true → a.owner = x.job →
           getAcnt (getTile t x.tile) (dAcnt l.desc) = { a with value := a.value + 1 })
       ∧ (dAcntEn l.desc = false → t.tiles = s.tiles))

/-- R285: a push lands in an enabled queue of its job with room, at the end; one that was held for a tile's queue lands where a place has come free; a push to a queue that does not
take it is dropped and counted. -/
def Obligations.HandlePushes : Prop :=
  ∀ (s : State) (w : Writer) (die : Fin 12) (tile : W16) (n : BitVec 3) (h : W32),
    let q : BitVec 13 := n.setWidth 13
    let y := getHq (getTile s tile) n.toNat
    (hqEnabled y = true → y.draining = false → y.handles.length < 64 →
      exec (.handleWindowPush w die q tile h) s
        = .next (setStatus (modTile s tile fun x => putHq x n.toNat { y with handles := y.handles ++ [h] }) stOk))
    ∧ (hqEnabled y = true → y.draining = false → 64 ≤ y.handles.length → Goes (exec (.handleWindowPush w die q tile h) s) fun t =>
        getHq (getTile t tile) n.toNat = { y with held := y.held ++ [⟨.window, h, hqOwner y⟩] })
    ∧ (hqEnabled y = false ∨ y.draining = true → Goes (exec (.handleWindowPush w die q tile h) s) fun t =>
        t.tiles = s.tiles ∧ (getDie t die).stream.handlesDropped = (getDie s die).stream.handlesDropped + 1)
    ∧ (∀ p rest, y.held = p :: rest → p.src = .window → y.handles.length < 64 →
        exec (.handlePushLand die q tile) s = .next (modTile s tile fun x => putHq x n.toNat { y with held := rest, handles := y.handles ++ [p.handle] }))
    ∧ (64 ≤ y.handles.length → exec (.handlePushLand die q tile) s = .next s)

/-- R280, R298, R299: job control resumes a parked transfer from where it stands, or fails it with XLATE_FAIL; past PARK_LIMIT it fails with PARK_TIMEOUT; a tag of no parked transfer
is TAG_STALE and counted; a stream block that has waited as long leaves the network.
R306, R308: DRAIN lets what a stream object holds go on, and disables one that holds nothing at once; ABORT disables a queue of handles and drops its handles; DRAIN_LIMIT turns a
drain that is past it into an abort. -/
def Obligations.ParkedAndStoppedObjects : Prop :=
  (∀ (s : State) (w : Writer) (die : Fin 12) (r : BitVec 9) (l : Leg) (tag : W32),
     let d := getDie s die
     let x := getRec d r
     let fails (t : State) (c : Byte) : Prop :=
       (getRec (getDie t die) r).st = .running ∧ ∃ l', (getRec (getDie t die) r).legs = [l'] ∧ l'.status = c ∧ l'.failAt = l.next ∧ l'.desc = l.desc
     (isParked x = true → x.legs = [l] → l.status = 0 → (getJob s x.job).frozen = false →
       (tag = xferTag die r x → dieReady s die = true →
         exec (.faultCtlResume w die tag) s = .next (setStatus (modRec s die r fun x => { x with st := .running, ctl := none }) stOk)
         ∧ Goes (exec (.faultCtlFail w die tag) s) fun t => t.status = stOk ∧ fails t cXlateFail)
       ∧ (let lim := 1000000 * (d.stream.cfg.toNat / 2 ^ 16)
          (lim ≠ 0 ∧ x.parkedAt.toNat + lim ≤ now s → Goes (exec (.parkTimeout die r) s) fun t => fails t cParkTimeout)
          ∧ (lim = 0 ∨ now s < x.parkedAt.toNat + lim → exec (.parkTimeout die r) s = .next s)))
     ∧ (dieReady s die = true → (∀ k, tag = xferTag die k (getRec d k) → isParked (getRec d k) = false) →
       (∀ p ∈ s.net.parks, ¬ (p.die = die.val ∧ p.tag = tag)) →
         let out := { modDie s die fun d => { d with stream := { d.stream with tagsStale := d.stream.tagsStale + 1 } } with status := cTagStale }
         exec (.faultCtlResume w die tag) s = .next out ∧ exec (.faultCtlFail w die tag) s = .next out)
     ∧ ∀ (i : Nat) (b : Block) (t0 : W64) (id : Nat), getBlk s i = some b → b.kind = .toTile → b.xfer = some (die, r, id) → b.slotWait = some t0 → (getJob s b.job).frozen = false →
         let lim := 1000000 * (d.stream.cfg.toNat / 2 ^ 16)
         (lim ≠ 0 ∧ t0.toNat + lim ≤ now s → Goes (exec (.streamBlockParkTimeout i) s) fun t => getBlk t i = none)
         ∧ (lim = 0 ∨ now s < t0.toNat + lim → exec (.streamBlockParkTimeout i) s = .next s))
  ∧ (∀ (s : State) (w : Writer) (die : Fin 12) (q : BitVec 12) (n : BitVec 10) (tile : W16) (k : BitVec 3),
     let d := getDie s die
     let x := getStq d q
     let y := getReach d n
     let z := getHq (getTile s tile) k.toNat
     (dieReady s die = true → x.st ≠ .disabled → x.st ≠ .frozen → x.held = [] →
       (x.recs = [] → x.handles = [] → Goes (exec (.stqDrain w die q) s) fun t =>
         t.status = stOk ∧ getStq (getDie t die) q = { x with st := .disabled, thawTo := .draining, since := s.mod.time, held := [], cfg := setFld x.cfg 63 1 0 })
       ∧ (stqKind x = 0 → x.recs ≠ [] → Goes (exec (.stqDrain w die q) s) fun t =>
         getStq (getDie t die) q = { x with st := .draining, thawTo := .draining, since := s.mod.time, held := [] })
       ∧ (stqKind x ≠ 0 → Goes (exec (.stqAbort w die q) s) fun t =>
         getStq (getDie t die) q = { x with st := .disabled, cfg := setFld x.cfg 63 1 0, handles := [], held := [] }
         ∧ (getDie t die).stream.handlesDropped = d.stream.handlesDropped + BitVec.ofNat 64 x.handles.length))
     ∧ (dieReady s die = true → y.st ≠ .disabled → y.st ≠ .frozen → y.recs = [] →
       (Goes (exec (.reachDrain w die n) s) fun t => t.status = stOk ∧ (getReach (getDie t die) n).st = .disabled)
       ∧ Goes (exec (.reachAbort w die n) s) fun t => t.status = stOk ∧ (getReach (getDie t die) n).st = .disabled)
     ∧ (tileTakes s tile = true → hqEnabled z = true → z.held = [] →
       (Goes (exec (.hqDrain w tile k) s) fun t => t.status = stOk ∧ (getHq (getTile t tile) k.toNat).handles = z.handles
         ∧ (z.handles = [] → hqEnabled (getHq (getTile t tile) k.toNat) = false))
       ∧ Goes (exec (.hqAbort w tile k) s) fun t => t.status = stOk ∧ (getHq (getTile t tile) k.toNat).handles = []
         ∧ hqEnabled (getHq (getTile t tile) k.toNat) = false)
     ∧ (d.stq = [(q.toNat, x)] → d.reach = [] → s.tiles = [] → s.net.ports = [] → stqKind x = 1 → x.st = .draining → x.held = [] →
       let lim := 100000 * (d.stream.cfg.toNat % 2 ^ 16)
       (lim ≠ 0 ∧ x.since.toNat + lim ≤ now s → Goes (exec (.drainLimitExpire die) s) fun t => (getStq (getDie t die) q).st = .disabled)
       ∧ (lim = 0 ∨ now s < x.since.toNat + lim → exec (.drainLimitExpire die) s = .next s)))

/-- R294, R295: a write of TRN.ROOT and TRN.INVAL_CMD drops every cached translation they name, on every die, at once; while steps translated through dropped ones are under way the write is
owed its completion, and another is refused with CFG_BUSY. -/
def Obligations.Invalidations : Prop :=
  ∀ (s : State) (w : Writer) (j : BitVec 2) (v : W64),
    let answered (t : State) : Prop := if invalBusy t then t.status = s.status ∧ t.owed = s.owed ++ [.inval] else t.status = stOk
    let clean (t : State) (job : BitVec 2) (first n : Nat) : Prop := ∀ d < 12, ∀ e ∈ (getDie t d).tlb, e.job = job →
      n ≠ 0 ∧ ∀ p, first ≤ p → p < first + n → tlbHit e job e.view (p * 65536) = false
    (invalBusy s = true → exec (.trnRootWrite w j v) s = .next { s with status := stCfgBusy } ∧ exec (.trnInval w v) s = .next { s with status := stCfgBusy })
    ∧ (invalBusy s = false →
      (bitAt v 63 = true → inReserveNs (v.toNat / 2 ^ 21 % 2 ^ 19 * 2 ^ 21) (2 ^ 21) = false →
        exec (.trnRootWrite w j v) s = .next { s with status := stInvalid })
      ∧ (bitAt v 63 = false ∨ inReserveNs (v.toNat / 2 ^ 21 % 2 ^ 19 * 2 ^ 21) (2 ^ 21) = true → Goes (exec (.trnRootWrite w j v) s) fun t =>
          answered t ∧ (getJob t j).regs.trnRoot = v &&& 0x800000FFFFE00000 ∧ clean t j 0 0)
      ∧ Goes (exec (.trnInval w v) s) fun t =>
          answered t ∧ clean t (v.setWidth 2) (s.mod.invalAddr.toNat / 2 ^ 16 % 2 ^ 32) (v.toNat / 2 ^ 32) ∧ t.tiles = s.tiles ∧ t.hbm = s.hbm)

/-! ## Engines -/

/-- R161, R162, R164, R166, R168: an ENG slot copies its block with the overrides into its engine's queue, in the last of four places; a full queue holds the bundle; a reserved bit, a
misaligned or an unreachable block address is a precise exception.
R63, R79, R162, R165, R166, R178, R200: the head of an engine's queue starts once the operations it waits for have; it takes the generator's inputs, and a draw's place in program order. A check that
fails, an UNSET exponent of a strip that can be read among them, stops the context with the lowest cause and discards its operations that have not started; a strip whose slot is not FULL is waited
for. A wait on slots ends with the slots, or with SLOT_TIMEOUT. -/
def Obligations.EngineOperations : Prop :=
  (∀ (s : State) (h : SlotHdr) (j : BitVec 2) (a : EngArg), canIssue s h j = true → h.eng = true →
     let x := getTile s h.tile
     let c := ctxOf s h.tile j
     let addr := getG c a.gA
     let queues (i : Instr) (k : EngKind) : Prop :=
       let q := unitQ x (kindUnit k)
       let ok := engReserved k a = false ∧ engAddrCheck x j k addr a.imm = none
       (engReserved k a = true → exec i s = .next (stopped s h j cIllegalOp 0))
       ∧ (engReserved k a = false → ∀ e, engAddrCheck x j k addr a.imm = some e → exec i s = .next (stopped s h j e.1 e.2))
       ∧ (ok → 4 ≤ q.length → Goes (exec i s) fun t =>
           (ctxOf t h.tile j).wait.isSome = true ∧ (ctxOf t h.tile j).pc = c.pc ∧ ∀ u, unitQ (getTile t h.tile) u = unitQ x u)
       ∧ (ok → q.length < 4 → (k = .wclr ∨ spadBad x addr.toNat (blockSize k) = false) → Goes (exec i s) fun t =>
           (∃ o, unitQ (getTile t h.tile) (kindUnit k) = q ++ [o] ∧ o.kind = k ∧ o.job = j ∧ o.started = false ∧ o.seq = x.eng.seq ∧ o.addr = addr
             ∧ o.imm = a.imm ∧ o.doneEn = a.doneEn ∧ o.done = a.done ∧ o.pc = c.pc
             ∧ o.block = overridden k a.ovr (getG c a.gB) (getG c a.gC) (BitVec.ofNat 512 (leNat (spadRead x addr.toNat (blockSize k)))))
           ∧ (∀ u, u ≠ kindUnit k → unitQ (getTile t h.tile) u = unitQ x u)
           ∧ (ctxOf t h.tile j).pc = c.pc + 16 ∧ (ctxOf t h.tile j).g = c.g ∧ (getTile t h.tile).spad = x.spad)
     queues (.press h a) .press ∧ queues (.cvt h a) .cvt ∧ queues (.gutter h a) .gutter ∧ queues (.xpose h a) .xpose
     ∧ queues (.wclr h a) .wclr ∧ queues (.wld h a) .wld ∧ queues (.wst h a) .wst ∧ queues (.wacc h a) .wacc)
  ∧ (∀ (s : State) (tile : W16) (o : EngOp) (rest : List EngOp),
     let x := getTile s tile
     let c := ctxOf s tile o.job
     let u := kindUnit o.kind
     let failed (t : State) (cz : Byte) : Prop :=
       ctxOf t tile o.job = { c with st := .stopped, excCause := 0x100 ||| cz.setWidth 32, excPc := o.pc, excInfo := opInfo o }
       ∧ unitQ (getTile t tile) u = rest.filter (fun p => decide (p.job ≠ o.job) || p.started) ∧ (getTile t tile).spad = x.spad
     let starts (i : Instr) (rs : List Rgn) (free : Bool) (causes : List Byte) (strips : List (Rgn × Bool)) : Prop :=
       let all := lowest (causes ++ stripCauses x o.job strips)
       o.started = false → free = true → orderFree x o = true →
       (∀ cz, all = some cz → c.st = .running → Goes (exec i s) fun t => failed t cz)
       ∧ (all = none → (rs.any fun r => r.strip && rgnWaits x r) = true → Goes (exec i s) fun t =>
           unitQ (getTile t tile) u = { o with slotWait := some (o.slotWait.getD s.mod.time) } :: rest ∧ ctxOf t tile o.job = c ∧ (getTile t tile).spad = x.spad)
       ∧ (all = none → (rs.any fun r => r.strip && rgnWaits x r) = false → Goes (exec i s) fun t =>
           unitQ (getTile t tile) u
             = { o with started := true, rngSeed := c.rngSeed, rngStep := c.rngStep, rngOp := c.rngOp, watchStep := c.watchStep,
                        slotWait := if rs.any (rgnWaits x) then some (o.slotWait.getD s.mod.time) else none } :: rest
           ∧ ctxOf t tile o.job = (if drawKind o.kind then { c with rngOp := c.rngOp + 1 } else c) ∧ (getTile t tile).spad = x.spad)
     let start : Instr := match u with | .press => .pressStart tile | .conv => .cvtUnitStart tile | .wide => .wideOpStart tile
     tilePresent s tile = true → unitQ x u = o :: rest →
     (o.kind = .press →
       let p := pressCmd o.block
       starts (.pressStart tile) (pressRegions x p) (wideFree x o (pressRegions x p)) (pressCauses x o.job p) (readStrips x (pressRegions x p)))
     ∧ (o.kind = .cvt → let p := cvtCmd o.block; starts (.cvtUnitStart tile) (cvtRegions p) true (cvtCauses x o.job p) (readStrips x (cvtRegions p)))
     ∧ (o.kind = .gutter → let p := gutCmd o.block; starts (.cvtUnitStart tile) (gutRegions p) true (gutCauses x o.job p) (readStrips x (gutRegions p)))
     ∧ (o.kind = .xpose →
         let p := xposeCmd o.block
         starts (.cvtUnitStart tile) (xposeRegions p) (wideFree x o (xposeRegions p)) (xposeCauses x o.job p) [])
     ∧ (u = .wide → starts (.wideOpStart tile) (wideRegions o) (wideGate x o) (wideCauses x o) [])
     ∧ (o.slotWait.isSome = true → o.started = false → exec (.engineSlotResume tile u) s = exec start s)
     ∧ (o.slotWait.isSome = true → o.started = true →
         ((opRegions x o).any (rgnWaits x) = true → exec (.engineSlotResume tile u) s = .next s)
         ∧ ((opRegions x o).any (rgnWaits x) = false → Goes (exec (.engineSlotResume tile u) s) fun t =>
             unitQ (getTile t tile) u = { o with slotWait := none } :: rest))
     ∧ (∀ t0, o.slotWait = some t0 → c.st = .running →
         (c.waitLimit ≠ 0 ∧ t0.toNat + 1000 * c.waitLimit.toNat ≤ now s → Goes (exec (.slotTimeout tile u) s) fun t => failed t 0x51)
         ∧ (c.waitLimit = 0 ∨ now s < t0.toNat + 1000 * c.waitLimit.toNat → exec (.slotTimeout tile u) s = .next s)))

/-- R57, R58, R61, R78: a press command whose exponents add up to its output's computes the matrix product: every output element whose products' sizes sum to less than 2^31 is
the exact sum of products, every shift count is 0, and no other byte of the tile changes. -/
def Obligations.PressComputesProducts : Prop :=
  ∀ (s : State) (tile : W16) (o : EngOp) (rest : List EngOp) (out shift : Nat),
    let x := getTile s tile
    let p := pressCmd o.block
    let a := readTensor x p.aFmt p.a p.aStrip p.m p.k
    let b := readTensor x p.bFmt p.b p.bStrip p.n p.k
    let v (l : List (List Elem)) (r i : Nat) : Int := ((l.getD r []).getD i (0, 0)).1
    let dot (r q : Nat) : Int := ∑ i ∈ Finset.range p.k, v a r i * v b q i
    tilePresent s tile = true → unitQ x .press = o :: rest → o.kind = .press → o.started = true → o.slotWait = none → x.injResidue = false →
    x.residueFails = [] → x.spadEcc = [] → p.m0808 = false → p.comp = false → bitAt x.regs.pressCtrl 0 = false → p.acc = false → p.row = false → p.cvt = 0xFFFFFF →
    opnd p.a ≠ .none → opnd p.b ≠ .none → opndSlot p.a = none → opndSlot p.b = none → blockElems p.aFmt = 0 → blockElems p.bFmt = 0 →
    opnd p.out = .plain out → opnd p.shift = .plain shift → (out + 4 * (p.m * p.n) ≤ shift ∨ shift + p.m ≤ out) →
    expVal (fmtExp p.outFmt) = expVal (fmtExp p.aFmt) + expVal (fmtExp p.bFmt) →
    (∀ r q, r < p.m → q < p.n → ∑ i ∈ Finset.range p.k, (v a r i * v b q i).natAbs < 2 ^ 31) →
    Goes (exec (.pressComplete tile) s) fun t =>
      (∀ r q, r < p.m → q < p.n → sgn 32 (leNat (spadRead (getTile t tile) (out + 4 * (r * p.n + q)) 4)) = dot r q)
      ∧ (∀ r, r < p.m → mget 0 (getTile t tile).spad (shift + r) = 0)
      ∧ (∀ k, (k < out ∨ out + 4 * (p.m * p.n) ≤ k) → (k < shift ∨ shift + p.m ≤ k) → mget 0 (getTile t tile).spad k = mget 0 x.spad k)
      ∧ unitQ (getTile t tile) .press = rest

/-- R41, R108, R119, R169-R171: what the conversion unit writes. A conversion rounds and clamps each element; a gutter update leaves the sum of weight, gutter and update exactly in the pair; a
transposing copy moves element [r][c] to [c][r].
R123, R124, R127: what the wide unit writes: WCLR zeros, WLD loads and WST stores 64-bit elements, WACC adds converted terms and clamps to 64 bits. -/
def Obligations.ConversionAndWideResults : Prop :=
  (∀ (s : State) (tile : W16) (o : EngOp) (rest : List EngOp),
     let x := getTile s tile
     tilePresent s tile = true → unitQ x .conv = o :: rest → o.started = true → o.slotWait = none → x.spadEcc = [] →
     let at' (l : List (List Elem)) (r q : Nat) : Elem := (l.getD r []).getD q (0, 0)
     let kept (t : State) (lo n : Nat) : Prop := ∀ k, k < lo ∨ lo + n ≤ k → mget 0 (getTile t tile).spad k = mget 0 x.spad k
     (o.kind = .cvt → let p := cvtCmd o.block
       ∀ dst, opnd p.dst = .plain dst → opndSlot p.src = none → isA32 p.srcFmt = false → blockElems p.srcFmt = 0 → blockElems p.dstFmt = 0 → p.mode = 1 →
       elemBits (fmtCode p.dstFmt) % 8 = 0 → elemBits (fmtCode p.dstFmt) ≠ 0 →
       let w := elemBits (fmtCode p.dstFmt) / 8
       let src := readTensor x p.srcFmt p.src p.srcStrip p.rows p.cols
       Goes (exec (.conversionComplete tile) s) fun t =>
         (∀ r q, r < p.rows → q < p.cols →
           leNat (spadRead (getTile t tile) (dst + w * (r * p.cols + q)) w)
             = toBits (8 * w) (convClamp (fmtCode p.dstFmt) false
                 (convRaw (at' src r q).1 (at' src r q).2 (expVal (fmtExp p.dstFmt)) p.rnd (drawFor o tile (r * p.cols + q))).1).1)
         ∧ kept t dst (w * (p.rows * p.cols)) ∧ unitQ (getTile t tile) .conv = rest)
     ∧ (o.kind = .gutter → let p := gutCmd o.block
       let n := p.rows * p.cols
       ∀ a b, opnd p.w = .plain a → opnd p.g = .plain b → opndSlot p.d = none → blockElems p.wFmt = 0 → blockElems p.dFmt = 0 → fmtCode p.wFmt = 5 →
       (a + 2 * n ≤ b ∨ b + n ≤ a) →
       let d := readTensor x p.dFmt p.d p.dStrip p.rows p.cols
       let w (y : Tile) (i : Nat) : Int := sgn 16 (leNat (spadRead y (a + 2 * i) 2))
       let g (y : Tile) (i : Nat) : Int := sgn 8 (leNat (spadRead y (b + i) 1))
       Goes (exec (.gutterComplete tile) s) fun t =>
         (∀ r q, r < p.rows → q < p.cols →
           let i := r * p.cols + q
           let sum := w x i * 256 + g x i + (convRaw (at' d r q).1 (at' d r q).2 (expVal (fmtExp p.wFmt) - 8) p.rnd (drawFor o tile i)).1
           w (getTile t tile) i * 256 + g (getTile t tile) i = max (-8388480) (min 8388479 sum))
         ∧ (∀ k, (k < a ∨ a + 2 * n ≤ k) → (k < b ∨ b + n ≤ k) → mget 0 (getTile t tile).spad k = mget 0 x.spad k)
         ∧ unitQ (getTile t tile) .conv = rest)
     ∧ (o.kind = .xpose → let p := xposeCmd o.block
       let w := elemBytes p.fmt
       ∀ a b, opnd p.src = .plain a → opnd p.dst = .plain b → Goes (exec (.xposeComplete tile) s) fun t =>
         (∀ r q i, r < p.rows → q < p.cols → i < w →
           mget 0 (getTile t tile).spad (b + (q * p.rows + r) * w + i) = mget 0 x.spad (a + (r * p.cols + q) * w + i))
         ∧ kept t b (p.rows * p.cols * w) ∧ unitQ (getTile t tile) .conv = rest))
  ∧ (∀ (s : State) (tile : W16) (o : EngOp) (rest : List EngOp),
     let x := getTile s tile
     let off := immOff o
     let n := immCount o
     tilePresent s tile = true → unitQ x .wide = o :: rest → o.started = true → o.slotWait = none → x.spadEcc = [] → x.wideEcc = [] →
     let out (q : State → Prop) : Prop := Goes (exec (.wideOpComplete tile) s) fun t => q t ∧ unitQ (getTile t tile) .wide = rest
     let elem (t : State) (k : Nat) : W64 := getWide (getTile t tile) k
     (o.kind = .wclr → out fun t => (getTile t tile).spad = x.spad ∧ ∀ k, elem t k = if off ≤ k ∧ k < off + n then 0 else getWide x k)
     ∧ (o.kind = .wld → ∀ a, opnd (o.addr.setWidth 24) = .plain a → out fun t => (getTile t tile).spad = x.spad
         ∧ ∀ k, elem t k = if off ≤ k ∧ k < off + n then BitVec.ofNat 64 (leNat (spadRead x (a + 8 * (k - off)) 8)) else getWide x k)
     ∧ (o.kind = .wst → ∀ a, opnd (o.addr.setWidth 24) = .plain a → out fun t => (getTile t tile).wideBuf = x.wideBuf
         ∧ (∀ k, k < n → leNat (spadRead (getTile t tile) (a + 8 * k) 8) = (getWide x (off + k)).toNat)
         ∧ ∀ k, k < a ∨ a + 8 * n ≤ k → mget 0 (getTile t tile).spad k = mget 0 x.spad k)
     ∧ (o.kind = .wacc → let p := waccCmd o.block
         let q := (readA32 x p.srcFmt p.src p.shift p.e24 p.m p.n).flatten
         opndSlot p.src = none → opndSlot p.shift = none → opndSlot p.e24 = none → out fun t => (getTile t tile).spad = x.spad
         ∧ (∀ i, i < p.m * p.n → (elem t (p.off + i)).toInt = max (-(2 ^ 63)) (min (2 ^ 63 - 1)
             ((getWide x (p.off + i)).toInt + (convRaw (nth (0, 0) q i).1 (nth (0, 0) q i).2 (expVal p.wexp) p.rnd (drawFor o tile i)).1)))
         ∧ ∀ k, k < p.off ∨ p.off + p.m * p.n ≤ k → elem t k = getWide x k))

/-- R77, R129, R203, R411, R464: errors a tile finds. A residue mismatch whose replay passes leaves the command running; one that fails stops the context with PRESS_RESIDUE. Patrol corrects single-bit
errors; a double-bit error zeroes a wide element, and is a tile fault in the context store. -/
def Obligations.TileErrors : Prop :=
  ∀ (s : State) (tile : W16), tilePresent s tile = true →
    let x := getTile s tile
    (∀ (o : EngOp) (rest : List EngOp) (pass : Bool), unitQ x .press = o :: rest → o.kind = .press → o.started = true → o.slotWait = none → x.residueFails = [] →
      let c := ctxOf s tile o.job
      (bitAt x.regs.pressCtrl 1 = true → Goes (exec (.pressResidueMismatch tile true 0) s) fun t =>
        unitQ (getTile t tile) .press = o :: rest ∧ (getTile t tile).spad = x.spad ∧ (getTile t tile).regs.residueCount = x.regs.residueCount + 1
        ∧ (getTile t tile).regs.pressStatus = x.regs.pressStatus ||| 2 ∧ ctxOf t tile o.job = c)
      ∧ (bitAt x.regs.pressCtrl 1 = false ∨ pass = false → (fldN s.log.cfg 24 3 = 0 ∨ 1 < fldN s.log.cfg 24 3) → c.st = .running →
        Goes (exec (.pressResidueMismatch tile pass 0) s) fun t =>
          unitQ (getTile t tile) .press = rest.filter (fun p => decide (p.job ≠ o.job) || p.started) ∧ (getTile t tile).spad = x.spad
          ∧ (getTile t tile).regs.pressStatus = x.regs.pressStatus ||| 6
          ∧ ctxOf t tile o.job = { c with st := .stopped, excCause := 0x127, excPc := o.pc, excInfo := opInfo o }))
    ∧ (∀ k : BitVec 12, Goes (exec (.widePatrol tile k) s) fun t =>
        (∀ i, getWide (getTile t tile) i = if i = k.toNat ∧ wideBad x k.toNat 1 ≠ [] then 0 else getWide x i)
        ∧ eccAt (getTile t tile).wideEcc k.toNat = none
        ∧ (wideBad x k.toNat 1 ≠ [] → (getTile t tile).regs.wideStatus = x.regs.wideStatus ||| 8))
    ∧ (∀ w : BitVec 16, (eccAt x.spadEcc w.toNat ≠ some .single → exec (.spadEccWriteback tile w) s = .next s)
        ∧ (eccAt x.spadEcc w.toNat = some .single → Goes (exec (.spadEccWriteback tile w) s) fun t =>
            eccAt (getTile t tile).spadEcc w.toNat = none ∧ (getTile t tile).spad = x.spad
            ∧ ∀ v, v ≠ w.toNat → eccAt (getTile t tile).spadEcc v = eccAt x.spadEcc v))
    ∧ (∀ row : BitVec 12, (x.spadEcc.map Prod.fst).Nodup → Goes (exec (.spadPatrol tile row) s) fun t =>
        (getTile t tile).spad = x.spad
        ∧ ∀ w, eccAt (getTile t tile).spadEcc w = if w / 16 = row.toNat ∧ eccAt x.spadEcc w = some .single then none else eccAt x.spadEcc w)
    ∧ ∀ j : BitVec 2, (storeBad x j = false → Goes (exec (.ctxStorePatrol tile j) s) fun t =>
          eccAt (getTile t tile).ctxEcc j.toNat = none ∧ ∀ k, ctxOf t tile k = ctxOf s tile k)
        ∧ (storeBad x j = true → x.fenced = false → dieReady s (tDie tile) = true →
            (autoFence s = true → Goes (exec (.ctxStorePatrol tile j) s) fun t => getTile t tile = { Tile.reset with fenced := true })
            ∧ (autoFence s = false → x.faultHold = false → Goes (exec (.ctxStorePatrol tile j) s) fun t => (getTile t tile).faultHold = true
                ∧ ∀ k, (ctxOf s tile k).st = .running →
                    ctxOf t tile k = { ctxOf s tile k with st := .stopped, excCause := 0xE0, excPc := (ctxOf s tile k).pc, excInfo := 0, wait := none, yrec := none }))

/-! ## Memory -/

/-- R22, R314-R319, R486: what a stack does with a block that holds a good code. A control-die core's access writes and reads its bytes, and one of the non-secure world to a secure granule is refused; a
transfer's request is served in order. Patrol and write-back count, correct and poison; refresh changes nothing.
R315, R320, R321, R322, R323, R327: corrections are summed in at most one record a second; a recalibration of a stack that no request waits at, commanded or under AUTO_RECAL after a lane beyond
LANE_LIMIT, leaves it READY with no lane or marked row left to repair where it trains and its channels have the spares, and OFFLINE otherwise; PATROL_RESTART starts patrol at offset 0. Only the
secure world commands a stack. -/
def Obligations.StacksOfMemory : Prop :=
  (∀ (s : State) (n : Fin 12),
     let k := getStack s n
     (∀ (core : Fin 18) (off : BitVec 36) (bs : List Byte) (len : Nat), stackServes s n = true → s.regions = [] → blkSt k (off.toNat / 64) = none →
       (reserveStack n = false ∨ off.toNat < 0xFC0000000) →
       let pa := n.val * 2 ^ 36 + off.toNat
       (bs ≠ [] → off.toNat % 64 + bs.length ≤ 64 → Goes (exec (.hbmRequestServe n (some (core, off, .write bs))) s) fun t => t.status = 0
         ∧ (∀ i, i < bs.length → mget 0 t.hbm (pa + i) = bs.getD i 0) ∧ ∀ a, a < pa ∨ pa + bs.length ≤ a → mget 0 t.hbm a = mget 0 s.hbm a)
       ∧ (0 < len → off.toNat % 64 + len ≤ 64 → Goes (exec (.hbmRequestServe n (some (core, off, .read len))) s) fun t => t.status = 0 ∧ t.hbm = s.hbm
         ∧ (mget WinCore.reset t.win core.val).sample = rdBytes s.hbm pa len))
     ∧ (∀ (core : Fin 18) (off : BitVec 36) (a : MemAccess), k.st ≠ .recal → core.val < 16 → securePa s (n.val * 2 ^ 36 + off.toNat) = true →
       Goes (exec (.hbmRequestServe n (some (core, off, a))) s) fun t => t.status = stWorld ∧ t.hbm = s.hbm ∧ t.win = s.win)
     ∧ (∀ (m : MemReq) (rest : List MemReq) (l : Leg) (st : StepRec), stackServes s n = true → k.reqs = m :: rest → paStack m.pa = n.val →
       (m.world = true ∨ securePa s m.pa = false) → blkSt k (m.pa % 2 ^ 36 / 64) = none →
       let x := getRec (getDie s m.die) m.xrec
       findStep x m.step = some (l, st) →
       (∀ bs, m.write = some bs → 1 < st.writes → Goes (exec (.hbmRequestServe n none) s) fun t => (getStack t n).reqs = rest
         ∧ (∀ i, i < bs.length → mget 0 t.hbm (m.pa + i) = bs.getD i 0) ∧ ∀ a, a < m.pa ∨ m.pa + bs.length ≤ a → mget 0 t.hbm a = mget 0 s.hbm a)
       ∧ (m.write = none → 1 < st.reads → Goes (exec (.hbmRequestServe n none) s) fun t => (getStack t n).reqs = rest ∧ t.hbm = s.hbm
         ∧ getRec (getDie t m.die) m.xrec
             = modStep x m.step fun y => { y with data := wrBytes y.data (64 * m.idx) (rdBytes s.hbm m.pa 64), reads := y.reads - 1 }))
     ∧ (∀ b rest, stackServes s n = true → k.writebacks = b :: rest →
       (blkSt k b = some .correctable → reqWrites k b = false → Goes (exec (.hbmWriteback n) s) fun t => blkSt (getStack t n) b = none ∧ t.hbm = s.hbm
         ∧ ∀ c, c ≠ b → blkSt (getStack t n) c = blkSt k c)
       ∧ (blkSt k b ≠ some .correctable ∨ reqWrites k b = true → exec (.hbmWriteback n) s = .next (putStack s n { k with writebacks := rest })))
     ∧ (∀ bank, exec (.hbmRefresh n bank) s = .next s)
     ∧ (stackServes s n = true → k.patrol + 1 < 2 ^ 30 →
       (blkSt k k.patrol = none → exec (.hbmPatrol n) s = .next (putStack s n { k with patrol := k.patrol + 1 }))
       ∧ (blkSt k k.patrol = some .correctable → Goes (exec (.hbmPatrol n) s) fun t => (getStack t n).ce = k.ce + 1 ∧ (getStack t n).ue = k.ue
           ∧ k.patrol ∈ (getStack t n).writebacks ∧ (getStack t n).patrol = k.patrol + 1)
       ∧ (blkSt k k.patrol = some .uncorrectable → Goes (exec (.hbmPatrol n) s) fun t => (getStack t n).ue = k.ue + 1
           ∧ blkSt (getStack t n) k.patrol = some .poisoned ∧ (getStack t n).patrol = k.patrol + 1)))
  ∧ (∀ (s : State) (n : Fin 12) (w : Writer) (lanes : List (Fin 32 × Byte)),
     let k := getStack s n
     let fits := sparesServe k (lanes ++ k.failing).eraseDups = true
     let repaired (t : State) : Prop :=
       (getStack t n).st = .ready ∧ (getStack t n).badRows = [] ∧ (getStack t n).failing = [] ∧ (getStack t n).laneErrs = [] ∧ t.hbm = s.hbm
     let due := k.ceSummaryAt = none ∨ ∃ t0 : W64, k.ceSummaryAt = some t0 ∧ t0.toNat + 1000000000 ≤ now s
     (0 < k.ceSince → due → Goes (exec (.hbmCeSummary n) s) fun t => getStack t n = { k with ceSince := 0, ceSummaryAt := some s.mod.time })
     ∧ (k.ceSince = 0 ∨ ¬ due → exec (.hbmCeSummary n) s = .next s)
     ∧ (secureWriter w = true → dieReady s n = true →
       (k.st = .ready → k.reqs = [] → fits → Goes (exec (.hbmRecal (some w) n true lanes) s) fun t => t.status = 0 ∧ repaired t)
       ∧ (∀ ok, k.st = .ready → k.reqs = [] → ok = false ∨ ¬ fits → Goes (exec (.hbmRecal (some w) n ok lanes) s) fun t => t.status = 0 ∧ (getStack t n).st = .offline
           ∧ (getStack t n).spares = [] ∧ (getStack t n).writebacks = [])
       ∧ (k.st ≠ .ready → ∀ ok, exec (.hbmRecal (some w) n ok lanes) s = .next { s with status := stCfgBusy })
       ∧ exec (.hbmPatrolRestart w n) s = .next { putStack s n { k with patrol := 0 } with status := 0 })
     ∧ (bitAt k.cfg 31 = true → k.st = .ready → k.reqs = [] → fits → (∃ e ∈ k.laneErrs, laneOver k s.mod.time (e.1, e.2.1) = true) →
         Goes (exec (.hbmRecal none n true lanes) s) repaired)
     ∧ (bitAt k.cfg 31 = false → ∀ ok, exec (.hbmRecal none n ok lanes) s = .next s)
     ∧ (secureWriter w = true → dieReady s n = false → exec (.hbmPatrolRestart w n) s = .next { s with status := cDieLost })
     ∧ (secureWriter w = false → Goes (exec (.hbmPatrolRestart w n) s) (fun t => t.status = stWorld ∧ t.hbmStacks = s.hbmStacks)
         ∧ ∀ ok, Goes (exec (.hbmRecal (some w) n ok lanes) s) fun t => t.status = stWorld ∧ t.hbmStacks = s.hbmStacks))

/-! ## Configuration of tiles and streams -/

/-- R187, R191, R192, R196, R197, R283, R468, R521: writes of a tile's share, counters, slots and handle queues: a fenced tile answers DEST_FENCED, a die that is not READY DIE_LOST, a value of no meaning
INVALID, an object in use CFG_BUSY; an accepted write changes that register and what the rule says with it.
R284, R289, R437: writes of STQ.CFG and REACH.CFG: a reserved kind or a count of passes of 0 is INVALID, an enabled object CFG_BUSY; enabling makes a queue context ACTIVE and empty, and a reach IDLE with
the writer's world once every descriptor of its chain is good. -/
def Obligations.TileAndStreamConfiguration : Prop :=
  (∀ (s : State) (w : Writer) (tile : W16) (v : W32) (v64 : W64) (k : BitVec 6) (q : BitVec 3), tilePresent s tile = true →
     let x := getTile s tile
     let all (o : Host.Outcome State Fault Refusal) : Prop :=
       exec (.tileShareWrite w tile v) s = o ∧ exec (.acntCfgWrite w tile k v) s = o ∧ exec (.slotCfgWrite w tile k v64) s = o ∧ exec (.hqCfgWrite w tile q v) s = o
     let answers (i : Instr) (st : Byte) : Prop := exec i s = .next { s with status := st }
     let puts (i : Instr) (f : Tile → Tile) : Prop := exec i s = .next { modTile s tile f with status := 0 }
     (dieReady s (tDie tile) = false → all (.next { s with status := cDieLost }))
     ∧ (dieReady s (tDie tile) = true → x.fenced = true → all (.next { s with status := cDestFenced }))
     ∧ (tileTakes s tile = true →
       (16 < v.toNat % 32 → answers (.tileShareWrite w tile v) stInvalid)
       ∧ (v.toNat % 32 ≤ 16 → shareBusy x (v &&& 0xF1F) = true → answers (.tileShareWrite w tile v) stCfgBusy)
       ∧ (v.toNat % 32 ≤ 16 → shareBusy x (v &&& 0xF1F) = false →
           puts (.tileShareWrite w tile v) fun x => { x with regs := { x.regs with share := v &&& 0xF1F } })
       ∧ (let a := getAcnt x k.toNat
          puts (.acntCfgWrite w tile k v) fun x => putAcnt x k.toNat
            { a with enable := bitAt v 31, owner := v.setWidth 2, value := if bitAt v 31 = true ∧ a.enable = false then 0 else a.value })
       ∧ (let y := getSlot x k.toNat
          let c := v64 &&& 0xFFFFFFFC1FFFFFFF
          (2047 < v64.toNat / 2 ^ 17 % 2 ^ 12 → answers (.slotCfgWrite w tile k v64) stInvalid)
          ∧ (let o := (ctxOf s tile (slotOwner y)).st
             v64.toNat / 2 ^ 17 % 2 ^ 12 ≤ 2047 → bitAt v64 63 = false → (o = .stopped ∨ o = .halted ∨ o = .empty) →
               exec (.slotCfgWrite w tile k v64) s = .next { putTile s tile (putSlot x k.toNat (if slotEnabled y then { y with cfg := c, gen := y.gen + 1 } else y)) with status := 0 })
          ∧ (v64.toNat / 2 ^ 17 % 2 ^ 12 ≤ 2047 → bitAt v64 63 = true → slotEnabled y = true → y.st ≠ .empty → answers (.slotCfgWrite w tile k v64) stCfgBusy)
          ∧ (v64.toNat / 2 ^ 17 % 2 ^ 12 ≤ 2047 → bitAt v64 63 = true → (slotEnabled y = false ∨ y.st = .empty) → slotNamed s tile k.toNat = false →
              (slotInShare x c = false → answers (.slotCfgWrite w tile k v64) stCfgBusy)
              ∧ (slotInShare x c = true → slotEnabled y = false →
                  puts (.slotCfgWrite w tile k v64) fun x => putSlot x k.toNat { y with cfg := c, st := .empty, filled := 0, drainWait := false })))
       ∧ (let y := getHq x q.toNat
          (hqEnabled y = true → y.handles ≠ [] → answers (.hqCfgWrite w tile q v) stCfgBusy)
          ∧ (hqEnabled y = false → puts (.hqCfgWrite w tile q v) fun x => putHq x q.toNat
              { y with cfg := v &&& 0xE0000000, handles := if bitAt v 31 then [] else y.handles, draining := false }))))
  ∧ (∀ (s : State) (w : Writer) (die : Fin 12) (q : BitVec 12) (n : BitVec 10) (v : W64),
     let x := getStq (getDie s die) q
     let y := getReach (getDie s die) n
     let c := v &&& 0xFFE0FFFFFFFF0000
     let answers (i : Instr) (st : Byte) : Prop := exec i s = .next { s with status := st }
     (dieReady s die = false → answers (.stqCfgWrite w die q v) cDieLost ∧ answers (.reachCfgWrite w die n v) cDieLost)
     ∧ (dieReady s die = true →
       (v.toNat / 2 ^ 59 % 4 = 3 → answers (.stqCfgWrite w die q v) stInvalid)
       ∧ (v.toNat / 2 ^ 59 % 4 ≠ 3 → x.st ≠ .disabled → answers (.stqCfgWrite w die q v) stCfgBusy)
       ∧ (v.toNat / 2 ^ 59 % 4 ≠ 3 → x.st = .disabled → bitAt v 63 = true →
           exec (.stqCfgWrite w die q v) s
             = .next { modDie s die fun d => putStq d q { Stq.reset with cfg := v &&& 0xFFFFFFF800000000, st := .active } with status := 0 })
       ∧ (v.toNat / 2 ^ 32 % 2 ^ 16 = 0 → answers (.reachCfgWrite w die n v) stInvalid)
       ∧ (v.toNat / 2 ^ 32 % 2 ^ 16 ≠ 0 → reachOn y = true → answers (.reachCfgWrite w die n v) stCfgBusy)
       ∧ (v.toNat / 2 ^ 32 % 2 ^ 16 ≠ 0 → reachOn y = false → bitAt v 63 = true →
           (reachOk s die y c = false → answers (.reachCfgWrite w die n v) stInvalid)
           ∧ (reachOk s die y c = true → exec (.reachCfgWrite w die n v) s
               = .next { modDie s die fun d => putReach d n { y with cfg := c, world := secureWriter w, st := .idle } with status := 0 }))))

/-! ## Contexts and jobs -/

/-- R397, R398, R410-R414: the core passes at a switch point, with no engine operation of the context under way, to the context that rules 1 to 4 name, which runs with its wait resumed and an empty fetch
buffer; a context of a PAUSING job pauses there. A longest bubble that has passed makes a yielded context due; a due one that waits too long for a filler at no switch point is counted once.
R180, R406, R407, R409: RESUME and RESTART take a stopped context, RESTART a halted one too, clear its exception registers, and leave it READY, or PAUSED while its job is; a write of TILE.YIELD needs a context
that is not running, a period, and reads the entry at the cursor. -/
def Obligations.Contexts : Prop :=
  (∀ (s : State) (tile : W16), tilePresent s tile = true →
     let x := getTile s tile
     let runs (t : State) (k : BitVec 2) : Prop :=
       ctxOf t tile k = { ctxOf s tile k with st := .running, yrec := none, wait := (ctxOf s tile k).wait.map fun w => { w with since := s.mod.time, suspended := false } }
       ∧ (getTile t tile).regs.ctxReg = k ∧ (getTile t tile).regs.switches = x.regs.switches + 1 ∧ (getTile t tile).fetchBuf = []
     let same (t : State) (j : BitVec 2) : Prop := let c := ctxOf s tile j; let d := ctxOf t tile j; d.pc = c.pc ∧ d.g = c.g ∧ d.v = c.v ∧ d.p = c.p
     (x.faultHold = false → x.fenced = false →
       (∀ j, runningCtx x = some j →
         (switchDue s tile j = false → exec (.contextSwitch tile) s = .next s)
         ∧ (switchDue s tile j = true → engBusy x j = true → Goes (exec (.contextSwitch tile) s) fun t => (ctxOf t tile j).st = .running ∧ same t j)
         ∧ ((ctxOf s tile j).switchPt = true → engBusy x j = false →
           ((getJob s j).st = .pausing → Goes (exec (.contextSwitch tile) s) fun t => (ctxOf t tile j).st = .paused ∧ same t j)
           ∧ ((getJob s j).st ≠ .pausing → switchTaker x j = none → exec (.contextSwitch tile) s = .next s)
           ∧ ((getJob s j).st ≠ .pausing → ∀ k, switchTaker x j = some k → storeBad x k = false → Goes (exec (.contextSwitch tile) s) fun t =>
               runs t k ∧ (ctxOf t tile j).st = .ready ∧ same t j)))
       ∧ (runningCtx x = none → engBusy x x.regs.ctxReg = false → ∀ k, idleTaker x = some k → storeBad x k = false →
           Goes (exec (.contextSwitch tile) s) fun t => runs t k))
     ∧ (∀ (j : BitVec 2) (y : YieldRec), (ctxOf s tile j).st = .yielded → (ctxOf s tile j).yrec = some y → y.due = none → y.maxUnits ≠ 0 →
         y.since.toNat + 125 * y.maxUnits.toNat ≤ now s → Goes (exec (.yieldMaxExpire tile) s) fun t =>
           ctxOf t tile j = { ctxOf s tile j with yrec := some { y with due := some s.mod.time } })
     ∧ ∀ (j : BitVec 2) (y : YieldRec) (d : W64), yieldedCtx x = some (j, y) → y.due = some d →
         let lim := s.mod.switchCfg.toNat / 2 ^ 16
         (lim ≠ 0 → fillerRuns x j = true → y.lateNoted = false → d.toNat + 125 * lim ≤ now s → Goes (exec (.switchLate tile) s) fun t =>
           (getTile t tile).regs.switchLate = x.regs.switchLate + 1 ∧ (ctxOf t tile j).yrec = some { y with lateNoted := true })
         ∧ (lim = 0 ∨ fillerRuns x j = false ∨ y.lateNoted = true ∨ now s < d.toNat + 125 * lim → exec (.switchLate tile) s = .next s))
  ∧ (∀ (s : State) (w : Writer) (tile : W16) (j : BitVec 2) (pc v : W64), tileTakes s tile = true →
     let x := getTile s tile
     let c := ctxOf s tile j
     let st := (getJob s j).st
     let go (c : Ctx) : Ctx := { c with st := if st = .paused ∨ st = .pausing then .paused else .ready, excCause := 0, excPc := 0, excInfo := 0 }
     let answers (i : Instr) (st : Byte) : Prop := exec i s = .next { s with status := st }
     (x.faultHold = true ∨ c.st ≠ .stopped → answers (.ctxResume w tile j) stJobState)
     ∧ (x.faultHold = false → c.st = .stopped → exec (.ctxResume w tile j) s = .next { modTile s tile fun x => putCtx x j (go c) with status := 0 })
     ∧ (x.faultHold = true ∨ (c.st ≠ .stopped ∧ c.st ≠ .halted) → answers (.ctxRestart w tile j pc) stJobState)
     ∧ (x.faultHold = false → (c.st = .stopped ∨ c.st = .halted) →
         exec (.ctxRestart w tile j pc) s
           = .next { modTile s tile fun x => putCtx x j { go c with pc := pc &&& 0xFFFFFFFFFFFFFFF0, wait := none, switchPt := false } with status := 0 })
     ∧ (c.st = .running ∨ c.st = .ready ∨ c.st = .yielded → answers (.yieldRegWrite w tile j v) stCfgBusy)
     ∧ (c.st = .paused ∨ c.st = .stopped ∨ c.st = .halted →
         let v' := v &&& 0xFFFFFFFEFFFFFFFF
         (v.toNat % 2 ^ 32 = 0 → answers (.yieldRegWrite w tile j v) stInvalid)
         ∧ (v.toNat % 2 ^ 32 ≠ 0 → bitAt v 63 = false → Goes (exec (.yieldRegWrite w tile j v) s) fun t => t.status = 0 ∧ (ctxOf t tile j).yieldReg = v')
         ∧ (v.toNat % 2 ^ 32 ≠ 0 → bitAt v 63 = true → c.cursor = 0 → ∀ e, yieldRaw x j { c with yieldReg := v' } 0 = some e →
             yieldEntryOk { c with yieldReg := v' } e = true → Goes (exec (.yieldRegWrite w tile j v) s) fun t => t.status = 0
               ∧ ctxOf t tile j = { c with yieldReg := v', yent := some e })))

/-- R416-R419: publication entries and views. An entry is configured while it is not PUBLISHED, published, held, released, and unpublished once no reference is held. A write of TRN.VIEW that
enables a view or names a new entry needs a PUBLISHED entry and a range that ends below 2^48, and takes a reference; one that disables it gives it back where no transfer began under it. The write
completes once its invalidation does. -/
def Obligations.Publications : Prop :=
  ∀ (s : State) (w : Writer) (e : BitVec 4) (ver : W32) (v : W64) (j : BitVec 2),
    let p := getPub s e.toNat
    let answers (i : Instr) (st : Byte) : Prop := exec i s = .next { s with status := st }
    let puts (i : Instr) (q : Pub) : Prop := exec i s = .next { putPub s e.toNat q with status := 0 }
    let answered (t : State) : Prop := if invalBusy t then t.status = s.status ∧ t.owed = s.owed ++ [.inval] else t.status = 0
    (p.st = 2 → answers (.pubCfgWrite w e v) stCfgBusy)
    ∧ (p.st ≠ 2 → bitAt v 63 = true → pubBlockOk p.base (v.extractLsb' 55 6) = false → answers (.pubCfgWrite w e v) stInvalid)
    ∧ (p.st ≠ 2 → (bitAt v 63 = false ∨ pubBlockOk p.base (v.extractLsb' 55 6) = true) →
        puts (.pubCfgWrite w e v) { p with job := v.extractLsb' 61 2, count := v.extractLsb' 55 6, st := if bitAt v 63 then 1 else 0 })
    ∧ (p.st ≠ 1 → answers (.publish w e ver) stPubState)
    ∧ (p.st = 1 → Goes (exec (.publish w e ver) s) fun t => t.status = 0 ∧ getPub t e.toNat = { p with st := 2, version := ver }
        ∧ (getJob t p.job).regs.pubLatest = 0x80000000 ||| e.setWidth 32 ∧ ∀ n, n ≠ e.toNat → getPub t n = getPub s n)
    ∧ (p.st ≠ 2 → answers (.unpublish w e) stPubState ∧ answers (.hold w e) stPubState ∧ answers (.release w e) stPubState)
    ∧ (p.st = 2 →
        (p.refs ≠ 0 → answers (.unpublish w e) stCfgBusy) ∧ (p.refs = 0 → puts (.unpublish w e) { p with st := 1 })
        ∧ (0xFFFF ≤ p.refs → answers (.hold w e) stCfgBusy) ∧ (p.refs < 0xFFFF → puts (.hold w e) { p with refs := p.refs + 1 })
        ∧ (p.refs = 0 → answers (.release w e) stPubState) ∧ (p.refs ≠ 0 → puts (.release w e) { p with refs := p.refs - 1 }))
    ∧ (let old := (getJob s j).regs.trnView
       v.setWidth 4 = e → (bitAt v 63 = true ∨ old.setWidth 4 ≠ e) →
        (p.st ≠ 2 → answers (.trnViewWrite w j v) stPubState)
        ∧ (p.st = 2 → 2 ^ 18 < v.toNat / 2 ^ 32 % 2 ^ 18 + (p.count.toNat + 1) → answers (.trnViewWrite w j v) stInvalid)
        ∧ (p.st = 2 → v.toNat / 2 ^ 32 % 2 ^ 18 + (p.count.toNat + 1) ≤ 2 ^ 18 → bitAt v 63 = true → bitAt old 63 = false → Goes (exec (.trnViewWrite w j v) s) fun t =>
            answered t ∧ (getJob t j).regs.trnView = v &&& 0x8003FFFF0000000F ∧ getPub t e.toNat = { p with refs := p.refs + 1 }))
    ∧ (let old := (getJob s j).regs.trnView
       v.setWidth 4 = e → old.setWidth 4 = e → bitAt v 63 = false → bitAt old 63 = true → s.dies = [] → (getJob s j).viewOwed = [] → Goes (exec (.trnViewWrite w j v) s) fun t =>
          answered t ∧ bitAt (getJob t j).regs.trnView 63 = false ∧ getPub t e.toNat = { p with refs := p.refs - 1 })

/-! ## The watch -/

/-- R86, R88, R93, R106: watch and loss configuration, and reports. Arming an entry clears what it holds and opens the job's arm step; other fields wait for the next close; a report of the open step merges into its die's
accumulator, and a late one is counted.
R95-R98, R540: a close of a step moves each entry it covers on: the current exponent becomes the previous one, the saturations are counted, the history takes the bound, and the new exponent is the largest bound of the history with
the headroom, or one more than the last where something saturated. A close that is BUSY refuses another; one without its peers fails after 10 ms. -/
def Obligations.WatchConfigurationAndCloses : Prop :=
  (∀ (s : State) (w : Writer) (n : BitVec 12) (v : W32) (m : BitVec 3),
     let e := getWatch s n
     let ok := (watchFmt (v.toNat / 2 ^ 16 % 16)).isSome = true ∧ v.toNat / 2 ^ 20 % 4 < 2
     (¬ ok → exec (.watchCfgWrite w n v) s = .next { s with status := stInvalid })
     ∧ (ok → Goes (exec (.watchCfgWrite w n v) s) fun t => t.status = 0 ∧ (∀ k, k ≠ n → getWatch t k = getWatch s k)
         ∧ (bitAt v 31 = true → watchOn e = false → getWatch t n
             = { Watch.reset with cfg := v &&& 0x8FFFFF70, openStep := (getJob s (v.extractLsb' 4 2)).regs.armStep, exp := 0x8080, satAlarm := e.satAlarm })
         ∧ (bitAt v 31 = false ∨ watchOn e = true → (getWatch t n).pendCfg = some (v &&& 0x8FFFFF70) ∧ watchOn (getWatch t n) = bitAt v 31
             ∧ (getWatch t n).openStep = e.openStep ∧ (getWatch t n).exp = e.exp ∧ (getWatch t n).history = e.history))
     ∧ (let l := getLoss s m
        let sh := v.toNat / 2 ^ 20 % 16
        (sh = 0 ∨ 8 < sh → exec (.lossCfgWrite w m v) s = .next { s with status := stInvalid })
        ∧ (1 ≤ sh ∧ sh ≤ 8 → Goes (exec (.lossCfgWrite w m v) s) fun t => t.status = 0
           ∧ getLoss t m = (if bitAt v 31 = true ∧ bitAt l.cfg 31 = false then { Loss.reset with cfg := v &&& 0xF8F0FFFF, bandAbs := l.bandAbs }
                            else { l with cfg := v &&& 0xF8F0FFFF })))
     ∧ ∀ (die : Fin 12) (r : Report), s.net.reports.find? (fun r => decide (r.die = die)) = some r →
         let f := getWatch s r.widx
         let a := mget WAcc.reset (getDie s die).wacc (2 * r.widx.toNat)
         (watchOn f = true → watchJob f = r.job → r.step = f.openStep → (getJob s r.job).closing = none → Goes (exec (.watchReportMerge die) s) fun t =>
           t.net.reports = s.net.reports.erase r ∧ t.watches = s.watches
           ∧ mget WAcc.reset (getDie t die).wacc (2 * r.widx.toNat)
             = { reported := true, bound := maxBound a.bound r.bound, sat := hold32 (a.sat + hold32 r.sats), nonzero := a.nonzero || r.nonzero, lost := a.lost })
         ∧ (watchOn f = false ∨ watchJob f ≠ r.job ∨ (r.step ≠ f.openStep ∧ r.step ≠ f.openStep + 1) → Goes (exec (.watchReportMerge die) s) fun t =>
           (getWatch t r.widx).lateCount = f.lateCount + 1 ∧ (getDie t die).wacc = (getDie s die).wacc))
  ∧ (∀ (s : State) (w : Writer) (j : BitVec 2) (step : W64),
     let job := getJob s j
     (job.closing = none → job.imageWait = none → ∀ n wd sg, closeSet s j step = [n] →
       let e := getWatch s n
       watchNode e = false → e.pendCfg = none → watchFmt (e.cfg.toNat / 2 ^ 16 % 16) = some (wd, sg) →
       let a := ownAcc s n
       let clampE (x : Int) : Int := max (-127) (min 127 x)
       Goes (exec (.watchClose w j step) s) fun t =>
         let f := getWatch t n
         t.status = 0 ∧ f.openStep = e.openStep + 1 ∧ f.exp.extractLsb' 0 8 = e.exp.extractLsb' 8 8 ∧ f.satTotal = e.satTotal + BitVec.ofNat 64 a.sat
         ∧ f.history = (if a.reported then (e.history <<< 16) ||| (boundBits a.bound).setWidth 256 else e.history)
         ∧ (∀ b, a.sat = 0 → histMax f.history (e.cfg.toNat / 2 ^ 24 % 16 + 1) = some b →
             (f.exp.extractLsb' 8 8).toInt = clampE (b + (e.cfg.toNat / 2 ^ 22 % 4 : Nat) - (if sg then (wd : Int) - 1 else wd)))
         ∧ (a.sat ≠ 0 → e.exp.extractLsb' 8 8 ≠ 0x80 → clampE ((e.exp.extractLsb' 8 8).toInt + 1) ≤ (f.exp.extractLsb' 8 8).toInt)
         ∧ ∀ k, k ≠ n → getWatch t k = getWatch s k)
     ∧ (job.closing ≠ none → exec (.watchClose w j step) s
         = .next { modJob s j fun x => { x with regs := { x.regs with closeStatus := x.regs.closeStatus ||| 4 } } with status := 0 })
     ∧ (∀ c : Close, job.closing = some c → job.imageWait = none →
         (c.since.toNat + 10000000 ≤ now s → peersMissing s j c.step ≠ [] → Goes (exec (.watchPeerTimeout j) s) fun t =>
           (getJob t j).closing = none ∧ (getJob t j).regs.closeStatus.toNat % 4 = 2 ∧ t.watches = s.watches)
         ∧ (now s < c.since.toNat + 10000000 ∨ peersMissing s j c.step = [] → exec (.watchPeerTimeout j) s = .next s))
     ∧ ∀ bs : List Byte,
         (job.closing ≠ none → job.imageWait = none → exec (.watchImageWrite w j bs) s = .next { modJob s j fun x => { x with imageWait := some bs } with status := 0 })
         ∧ (job.closing = none → job.st ≠ .paused → job.st ≠ .unloaded → job.st ≠ .saved → exec (.watchImageWrite w j bs) s = .next { s with status := stJobState })
         ∧ (job.closing = none → (job.st = .paused ∨ job.st = .unloaded ∨ job.st = .saved) →
             (imageSplit j bs = none → exec (.watchImageWrite w j bs) s = .next { s with status := stInvalid })
             ∧ ∀ r, imageSplit j bs = some ([r], []) → Goes (exec (.watchImageWrite w j bs) s) fun t => t.status = 0
                 ∧ let e := getWatch t (r.extractLsb' 156 12)
                   e.cfg = r.extractLsb' 288 32 &&& 0x8FFFFF70 ∧ e.openStep = r.extractLsb' 704 64 ∧ e.exp = r.extractLsb' 176 16 ∧ e.history = r.extractLsb' 320 256
                   ∧ e.satTotal = r.extractLsb' 640 64 ∧ e.lateCount = r.extractLsb' 576 64))

/-- R303, R399, R400, R404, R405: RESUME, PAUSE, UNLOAD, RELOAD and DISCARD need their state of the job and complete with JOB_STATE in another. RESUME makes paused contexts READY; PAUSE pauses those that hold no core; UNLOAD
needs a save area in the non-secure part of the reserve; it freezes the job's streams, and once what they and the engines have begun is done saves every context and leaves the tiles without it; RELOAD puts them back; DISCARD leaves nothing of the job.
R401-R403: LOAD of an image of a good HEADER, a START_PC and an END leaves the job PAUSED with the context at its PC; an image that does not lie in the non-secure part of the reserve fails at record 0 and leaves the job
UNLOADED. -/
def Obligations.Jobs : Prop :=
  (∀ (s : State) (w : Writer) (j : BitVec 2), mwf Tile.reset s.tiles = true →
     let st := (getJob s j).st
     let wrong (i : Instr) : Prop := exec i s = .next { s with status := stJobState }
     let quiet := (∀ d ∈ s.dies, d.2.recs = []) ∧ bitAt (getJob s j).regs.saveSpad 63 = false
     let idle := ∀ e ∈ s.tiles, (∀ o ∈ e.2.eng.press ++ e.2.eng.conv ++ e.2.eng.wide, o.job ≠ j ∨ o.started = false) ∧ ∀ h, e.2.eng.exch = some h → h.job ≠ j
     let pa := (getJob s j).regs.save.toNat
     (st ≠ .unloaded → wrong (.jobLoad w j)) ∧ (st ≠ .paused → wrong (.jobResume w j) ∧ wrong (.jobUnload w j)) ∧ (st ≠ .active → wrong (.jobPause w j))
     ∧ (st ≠ .saved → wrong (.jobReload w j)) ∧ (st ≠ .paused → st ≠ .active → st ≠ .saved → st ≠ .finished → wrong (.jobDiscard w j))
     ∧ (st = .paused → Goes (exec (.jobResume w j) s) fun t => t.status = 0 ∧ ((getJob t j).st = .active ∨ (getJob t j).st = .finished)
         ∧ (∀ u k, k ≠ j → ctxOf t u k = ctxOf s u k)
         ∧ ∀ u, ctxOf t u j = if (ctxOf s u j).st = .paused then { ctxOf s u j with st := .ready } else ctxOf s u j)
     ∧ (st = .active → Goes (exec (.jobPause w j) s) fun t => t.status = 0
         ∧ (getJob t j).st = (if s.tiles.any fun e => decide ((getCtx e.2 j).st = .running) then .pausing else .paused)
         ∧ (∀ u k, k ≠ j → ctxOf t u k = ctxOf s u k)
         ∧ ∀ u, ctxOf t u j = if (ctxOf s u j).st = .ready ∨ (ctxOf s u j).st = .yielded then { ctxOf s u j with st := .paused, yrec := none } else ctxOf s u j)
     ∧ (st = .paused → peerRound s j = true → exec (.jobUnload w j) s = .next { s with status := stCfgBusy })
     ∧ (st = .paused → peerRound s j = false → inReserveNs pa (saveSize s) = false → securePa s pa = false → securePa s (pa + saveSize s - 1) = false →
         exec (.jobUnload w j) s = .next { s with status := stInvalid })
     ∧ (st = .paused → peerRound s j = false → inReserveNs pa (saveSize s) = true → unloadReady (freezeJob (setJobSt s j .unloading) j) j = false →
         exec (.jobUnload w j) s = .next (let t := freezeJob (setJobSt s j .unloading) j; { t with owed := t.owed ++ [.unload j] }))
     ∧ (st = .paused → peerRound s j = false → inReserveNs pa (saveSize s) = true → (∀ u, storeBad (getTile s u) j = false) → quiet → idle →
       Goes (exec (.jobUnload w j) s) fun t =>
         t.status = 0 ∧ (getJob t j).st = .saved ∧ (getJob t j).frozen = true ∧ (∀ u, ctxOf t u j = Ctx.reset)
         ∧ ∀ e ∈ s.tiles, (getCtx e.2 j).st ≠ .empty → ∃ v ∈ (getJob t j).saved, v.tile = BitVec.ofNat 16 e.1 ∧ v.ctx = getCtx e.2 j)
     ∧ (∀ v, st = .saved → (getJob s j).saved = [v] → jobWeirs s j = [] → v.slots = [] → tileTakes s v.tile = true → quiet →
         Goes (exec (.jobReload w j) s) fun t => t.status = 0 ∧ (getJob t j).st = .paused ∧ (getJob t j).frozen = false ∧ (getJob t j).saved = []
           ∧ ctxOf t v.tile j = v.ctx)
     ∧ (st = .paused ∨ st = .active ∨ st = .saved ∨ st = .finished → Goes (exec (.jobDiscard w j) s) fun t => t.status = 0 ∧ (getJob t j).st = .unloaded
         ∧ (getJob t j).saved = [] ∧ (getJob t j).frozen = false ∧ ∀ u, ctxOf t u j = Ctx.reset))
  ∧ (∀ (s : State) (w : Writer) (j : BitVec 2), (getJob s j).st = .unloaded →
     let pa := (getJob s j).regs.image.toNat
     let head (i : Nat) : BitVec 256 := BitVec.ofNat 256 (leNat (hbmBytes s (pa + 64 * i) 32))
     let t := recTile (head 1)
     (inReserveNs pa 32 = false → Goes (exec (.jobLoad w j) s) fun t => t.status = stLoadInvalid ∧ (getJob t j).st = .unloaded ∧ (getJob t j).regs.loadInfo = 0xC2)
     ∧ (pa % 64 = 0 → inReserveNs pa 192 = true → stackUp s (paStack pa) = true → (getStack s (paStack pa)).blocks = [] →
       recFormOk 0 (head 0) = true → recTile (head 0) = 0xFFFF → recKind (head 0) = 1 → recLen (head 0) = 16 → headerRec s (hbmBytes s (pa + 32) 16) = none →
       recFormOk 1 (head 1) = true → recKind (head 1) = 8 → recLen (head 1) = 0 → loadTileRefusal s t = none →
       recFormOk 2 (head 2) = true → recTile (head 2) = 0xFFFF → recKind (head 2) = 0 → yieldOn (ctxOf s t j) = false → Goes (exec (.jobLoad w j) s) fun u =>
         u.status = 0 ∧ (getJob u j).st = .paused
         ∧ ctxOf u t j = { ctxOf s t j with st := .paused, pc := BitVec.ofNat 64 ((recAddr (head 1)).toNat * 16), xbCount := 0, cursor := 0 }))

/-! ## Gatherings -/

/-- R363, R364: a write of GATHER.TREE whose ports are not all of role TIZAL, whose parent is a child, or whose RANK is not below SIZE is INVALID; one of a tree in use CFG_BUSY; any other is stored.
R389: a write of a shard entry that would give two valid entries of one shard and version, or a LEN that is no multiple of 2,048, is INVALID; one of a pinned entry CFG_BUSY; any other is stored.
R391: a pin needs a valid entry of its shard and version, and counts on it; a retirement takes off the pins of its step and of those before it.
R387, R388: a re-shard needs a later epoch, and none under way. With no gathering of the job open the epoch moves and it completes; else it is owed its completion until its limit, which ends it with
LAYOUT_BUSY and the epoch as it was; with a limit of 0 it ends so at once. -/
def Obligations.GatherConfiguration : Prop :=
  ∀ (s : State) (w : Writer) (n : BitVec 5) (v : W64) (j : BitVec 2) (e : BitVec 10),
    let answers (i : Instr) (st : Byte) : Prop := exec i s = .next { s with status := st }
    let v' := v &&& 0xFFFFFFFFFFFF8000
    let used := s.gather.opened.any fun g => decide (gdTree g.desc = n.toNat)
    let stored := exec (.gatherTreeWrite w n v) s
      = .next { s with gather := { s.gather with trees := mset 0 s.gather.trees n.toNat v' }, status := 0 }
    let ok := (∀ p ∈ gtPorts v', p < 24 ∧ cfgRole (getPort s p) = 1) ∧ (gtRoot v' = true ∨ gtParent v' ∉ gtChildren v') ∧ gtRank v' < gtSize v'
    (¬ ok → answers (.gatherTreeWrite w n v) stInvalid)
    ∧ (ok → if used then answers (.gatherTreeWrite w n v) stCfgBusy else stored)
    ∧ (∀ reg : BitVec 2,
       let x := mget Shard.reset s.gather.shards e.toNat
       let y : Shard :=
         if reg = 0 then { x with valid := bitAt v 63, job := v.extractLsb' 61 2, id := v.extractLsb' 29 16 }
         else if reg = 1 then { x with version := v.setWidth 32 }
         else if reg = 2 then { x with base := v &&& 0x0000FFFFFFFFFFFF } else { x with len := v.setWidth 32 }
       let twin := y.valid = true ∧ ∃ o ∈ s.gather.shards, o.1 ≠ e.toNat ∧ o.2.valid = true ∧ o.2.job = y.job ∧ o.2.id = y.id ∧ o.2.version = y.version
       (twin ∨ y.len.toNat % 2048 ≠ 0 → answers (.shardEntryWrite w e reg v) stInvalid)
       ∧ (¬ twin → y.len.toNat % 2048 = 0 → x.pins ≠ 0 → answers (.shardEntryWrite w e reg v) stCfgBusy)
       ∧ (¬ twin → y.len.toNat % 2048 = 0 → x.pins = 0 → exec (.shardEntryWrite w e reg v) s
           = .next { s with gather := { s.gather with shards := mset Shard.reset s.gather.shards e.toNat y }, status := 0 }))
    ∧ (∀ (step : W32) (shard : W16) (ver : W32),
        let hit (e : Nat × Shard) : Bool := e.2.valid && decide (e.2.job = j ∧ e.2.id = shard ∧ e.2.version = ver)
        (s.gather.shards.find? hit = none → Goes (exec (.gatherPin w j step shard ver) s) fun t => t.status = cStaleShard ∧ t.gather = s.gather)
        ∧ (∀ e, s.gather.shards.find? hit = some e → 4096 ≤ s.gather.pins.length → answers (.gatherPin w j step shard ver) stCfgBusy)
        ∧ (∀ i x, s.gather.shards.find? hit = some (i, x) → s.gather.pins.length < 4096 → exec (.gatherPin w j step shard ver) s
            = .next { s with
                gather := { s.gather with
                  shards := mset Shard.reset s.gather.shards i { x with pins := x.pins + 1 }
                  pins := s.gather.pins ++ [{ job := j, step, entry := BitVec.ofNat 10 i }] }
                status := 0 })
        ∧ Goes (exec (.gatherRetire w j step) s) fun t =>
            let out := s.gather.pins.filter fun p => decide (p.job = j ∧ (p.step = step ∨ precedes p.step step = true))
            t.status = 0 ∧ t.gather.pins = s.gather.pins.filter (fun p => !decide (p.job = j ∧ (p.step = step ∨ precedes p.step step = true)))
            ∧ ∀ k, mget Shard.reset t.gather.shards k
                = { mget Shard.reset s.gather.shards k with
                    pins := (mget Shard.reset s.gather.shards k).pins - BitVec.ofNat 16 (out.countP fun p => decide (p.entry.toNat = k)) })
    ∧ (∀ ep : W16,
        let x := getJob s j
        let lim := s.gather.cfg.toNat / 2 ^ 8 % 2 ^ 8
        let idle := (s.gather.opened.any fun g => decide (g.key.job = j)) = false
        (precedes x.regs.layoutEpoch ep = false → answers (.gatherReshard w j ep) stInvalid)
        ∧ (precedes x.regs.layoutEpoch ep = true → x.reshard ≠ none → answers (.gatherReshard w j ep) stBusy)
        ∧ (precedes x.regs.layoutEpoch ep = true → x.reshard = none → Goes (exec (.gatherReshard w j ep) s) fun t =>
            let y := getJob t j
            (idle → t.status = 0 ∧ y.regs.layoutEpoch = ep ∧ y.regs.layoutSt = 0 ∧ y.reshard = none)
            ∧ (¬ idle → lim ≠ 0 → t.status = s.status ∧ t.owed = s.owed ++ [.reshard j] ∧ y.regs.layoutEpoch = x.regs.layoutEpoch ∧ y.regs.layoutSt = 1 ∧ y.reshard = some (ep, s.mod.time))
            ∧ (¬ idle → lim = 0 → t.status = stLayoutBusy ∧ y.regs.layoutEpoch = x.regs.layoutEpoch ∧ y.regs.layoutSt = 2 ∧ y.reshard = none)))
    ∧ ∀ (ep : W16) (t0 : W64), (getJob s j).reshard = some (ep, t0) →
        let lim := 1000000 * (s.gather.cfg.toNat / 2 ^ 8 % 2 ^ 8)
        (t0.toNat + lim ≤ now s → Goes (exec (.reshardLimitExpire j) s) fun t => (.reshard j ∈ s.owed → t.status = stLayoutBusy ∧ .reshard j ∉ t.owed)
            ∧ (getJob t j).reshardStatus = stLayoutBusy ∧ (getJob t j).regs.layoutSt = 2
            ∧ (getJob t j).reshard = none ∧ (getJob t j).regs.layoutEpoch = (getJob s j).regs.layoutEpoch)
        ∧ (now s < t0.toNat + lim → exec (.reshardLimitExpire j) s = .next s)

/-- R367, R368, R373, R375, R377, R386: a post whose checks pass opens a gathering at its first pass, any other completes with the first check that fails; a pass over the inputs proposes an exponent that holds them; a round adds
its inputs and sends the sum to the parent; a stale packet is counted, one of a key that is not open is held in a buffer of its port.
R382-R386, R392: how gatherings that write no completion record end before their result. An abandoned one leaves and is counted; a restart begins a later attempt; a message for a key that is not open waits for it; a lost parent
port, a lag or a limit ends a gathering; DRAIN and ABORT close the job's posts and RESUME opens them. -/
def Obligations.Gatherings : Prop :=
  (∀ (s : State) (w : Writer) (j : BitVec 2) (key : GKey) (g : Gather),
     let d := (getJob s j).regs.gatherPost
     (gPostStatus s j d ≠ 0 → Goes (exec (.gatherPost w j) s) fun t => t.status = gPostStatus s j d ∧ t.gather = s.gather)
     ∧ (gPostStatus s j d = 0 → s.net.heldG = [] → s.net.heldMsg = [] → Goes (exec (.gatherPost w j) s) fun t => t.status = 0 ∧ t.gather.opened = s.gather.opened ++ [gOpen s d])
     ∧ (getGath s key = some g →
       (∀ (s' : State) (bs : List Byte), g.phase = .fit → gParked s key = false → gdNone (gdEddyIn g.desc) = true →
         vaRead s key.job (gdSrc g.desc).toNat (2048 * gdBlocks g.desc) = (s', .ok bs) → s'.gather = s.gather → bs.length = 2048 * gdBlocks g.desc →
         Goes (exec (.gatherPassDone key) s) fun t => ∃ (g' : Gather) (e : Int), getGath t key = some g' ∧ g'.phase = .expo
           ∧ g'.kept = List.range (gdBlocks g.desc) ∧ g'.rx = g.rx ++ [(24, .expo e 1)]
           ∧ ((∀ i, i < 256 * gdBlocks g.desc → nth 0 (w64s bs) i = 0) → e = -127)
           ∧ ∀ i, i < 256 * gdBlocks g.desc → nth 0 (w64s bs) i ≠ 0 →
               (bitlen (nth 0 (w64s bs) i).natAbs : Int) + gdX8 (gdWexp g.desc) - 23 ≤ e)
       ∧ (∀ c l, g.phase = .dataSum → s.net.heldG = [] → ownPending true g = [c] → roundReady s g (chunkVals true c) = some l → gtRoot (gTree s g) = false →
         exec (.collRound key) s = .next (pushPkt
           (putGath s { g with rx := g.rx.filter fun e => decide (e.1 = 25) || (chunkVals true c e.2).isNone }) (gtParent (gTree s g))
           (.coll g.key g.attempt true (.data c (roundAdd l)))))
       ∧ (∀ x n, g.phase = .expo → s.net.heldG = [] → gChildren s g = [] → gtRoot (gTree s g) = true → g.rx = [(24, .expo x n)] → Goes (exec (.collRound key) s) fun t =>
         getGath t key = some { g with rx := [], e := some (max (-127) (min 127 x)), phase := .data, contrib := n })
       ∧ (∀ (p : Fin 24) (b : List Int) (c : Nat), g.phase ≠ .failed → gStale s key g.attempt = false → p.val ∈ gChildren s g →
         (gtRoot (gTree s g) = true ∨ p.val ≠ gtParent (gTree s g)) → accFree s g (.score c b) = true →
         Goes (exec (.gatherPacketReceive key g.attempt (some p) (.score c b)) s) fun t => getGath t key = some { g with rx := g.rx ++ [(p.val, .score c b)] }))
     ∧ ∀ (a : BitVec 3) (p : Option (Fin 24)) (b : GBody),
       (gStale s key a = true → exec (.gatherPacketReceive key a p b) s
         = .next { s with gather := { s.gather with stale := s.gather.stale + 1, staleSum := s.gather.staleSum + 1 } })
       ∧ (gStale s key a = false → getGath s key = none → (∀ q, p = some q → rxBusy s q.val 1 < laneBuffers 1) → exec (.gatherPacketReceive key a p b) s
         = .next { s with net := { s.net with heldG := s.net.heldG ++ [{ key, attempt := a, port := p, body := b }] } })
       ∧ (gStale s key a = false → getGath s key = none → (∃ q, p = some q ∧ laneBuffers 1 ≤ rxBusy s q.val 1) → exec (.gatherPacketReceive key a p b) s = .next s))
  ∧ (∀ (s : State) (w : Writer) (j : BitVec 2) (key : GKey) (g : Gather),
     let gone (t : State) : Prop := getGath t key = none ∧ t.gather.abandoned = s.gather.abandoned + 1 ∧ t.gather.completed = s.gather.completed
     let waits (what : BitVec 2) (a : BitVec 3) (n : Nat) (p : Option (Fin 24)) : State :=
       { s with net := { s.net with heldMsg := s.net.heldMsg ++ [{ key, what, attempt := a, n, port := p }] } }
     (getGath s key = none → exec (.gatherTimeout key) s = .next s
       ∧ (gStale s key 7 = true → exec (.gatherAbandonReceive key) s = .next s)
       ∧ (gStale s key 7 = false → exec (.gatherAbandonReceive key) s = .next (waits 0 0 0 none)
           ∧ (∀ a n, exec (.gatherRestartReceive key a n) s = .next (waits 2 a n none))
           ∧ ∀ p n, exec (.gatherWithdrawReceive key p true n) s = .next (waits 1 0 n (some p)) ∧ exec (.gatherWithdrawReceive key p false n) s = .next (waits 3 0 n (some p))))
     ∧ (getGath s key = some g → g.phase ≠ .failed → gdNone (gdCpl g.desc) = true →
       Goes (exec (.gatherAbandonReceive key) s) gone
       ∧ (∀ a n, g.attempt.toNat < a.toNat → gtRoot (gTree s g) = false → s.net.heldG = [] → Goes (exec (.gatherRestartReceive key a n) s) fun t =>
           getGath t key = some { gBegin g a with restarts := g.restarts + 1, contrib := n } ∧ t.gather.restarts = s.gather.restarts + 1)
       ∧ (∀ a n, a.toNat ≤ g.attempt.toNat → exec (.gatherRestartReceive key a n) s = .next s)
       ∧ (∀ p n, p.val ∈ gChildren s g → gdPartial g.desc = false → Goes (exec (.gatherWithdrawReceive key p true n) s) gone)
       ∧ (∀ p n, p.val ∈ gChildren s g → gdPartial g.desc = true → gtRoot (gTree s g) = true → g.restarts ≠ 7 →
           Goes (exec (.gatherWithdrawReceive key p true n) s) fun t => ∃ g', getGath t key = some g' ∧ g'.attempt = g.attempt + 1 ∧ g'.restarts = g.restarts + 1
             ∧ (gdReduce g.desc = true → g'.contrib = gtSize (gTree s g)) ∧ p.val ∈ g'.lostPorts ∧ g'.rx = [])
       ∧ (let lim := s.gather.cfg.toNat / 2 ^ 16
          (lim ≠ 0 ∧ g.since.toNat + 1000000 * lim < now s → Goes (exec (.gatherTimeout key) s) gone)
          ∧ (lim = 0 ∨ now s ≤ g.since.toNat + 1000000 * lim → exec (.gatherTimeout key) s = .next s))
       ∧ (∀ p : Fin 24, s.gather.opened = [g] → gtRoot (gTree s g) = false → gtParent (gTree s g) = p.val → (getPort s p).st ≠ .up →
           (getPort s p).notUpSince.toNat + 20000 ≤ now s → Goes (exec (.treePortLost p) s) gone)
       ∧ (g.key = key → s.gather.opened = [g] → key.job = j → Goes (exec (.gatherAbort w j) s) fun t => gone t ∧ t.status = 0 ∧ (getJob t j).postClosed = true)
       ∧ (s.gather.opened = [g] → key.job = j → Goes (exec (.gatherAbandon w j key.step key.id) s) fun t => gone t ∧ t.status = 0)
       ∧ (∀ t0, s.gather.opened = [g] → key.job = j → (getJob s j).drainSince = some t0 →
           let lim := 1000000 * (s.gather.cfg.toNat % 2 ^ 8)
           (lim ≠ 0 ∧ t0.toNat + lim ≤ now s → Goes (exec (.gatherDrainLimitExpire j) s) gone)
           ∧ (lim = 0 ∨ now s < t0.toNat + lim → exec (.gatherDrainLimitExpire j) s = .next s)))
     ∧ (∀ p : Fin 24, (getPort s p).st = .up → exec (.treePortLost p) s = .next s)
     ∧ (let due := s.gather.staleAt = none ∨ ∃ t0 : W64, s.gather.staleAt = some t0 ∧ t0.toNat + 1000000000 ≤ now s
        (0 < s.gather.staleSum → due → Goes (exec .gatherStaleSummary s) fun t => t.gather = { s.gather with staleSum := 0, staleAt := some s.mod.time })
        ∧ (s.gather.staleSum = 0 ∨ ¬ due → exec .gatherStaleSummary s = .next s))
     ∧ exec (.gatherDrain w j) s = .next { modJob s j fun x => { x with postClosed := true, drainSince := some s.mod.time } with status := 0 }
     ∧ exec (.gatherResume w j) s = .next { modJob s j fun x => { x with postClosed := false, drainSince := none } with status := 0 })

/-! ## Ports, the Tizal link, peers and Ethernet -/

/-- R331, R332, R343, R345, R360: a write of TZ.PORT.CFG needs an OFF port and weights that are not 0; START trains an OFF port that has a
role; RETRAIN, a lost lane in use and training frames make an UP Tizal port retrain; STOP_DRAIN turns an idle port OFF and leaves another
STOPPING with its packets; STOP_ABORT turns it OFF.
R343, R344, R348: an attempt whose lanes, good at both ends, reach the least width leaves the port UP at that width, with the partner's facts and one plus the later
epoch; one that does not counts, and the third leaves the port DOWN. -/
def Obligations.PortStates : Prop :=
  (∀ (s : State) (w : Writer) (port : Fin 24) (v : W32),
     let p := getPort s port
     let v' := v &&& 0xFFFFFC00
     let answers (i : Instr) (st : Byte) : Prop := exec i s = .next { s with status := st }
     let up := p.st = .up ∧ p.role = 1
     let retrains (t : State) : Prop := getPort t port
       = { p with st := .retrain, live := false, attempts := 0, notUpSince := s.mod.time, cnt := { p.cnt with retrains := p.cnt.retrains + 1 } }
     let others (t : State) : Prop := ∀ q, q ≠ port.val → getPort t q = getPort s q
     let idle := p.txq = [] ∧ p.sending = [] ∧ p.replay = [] ∧ p.popped = []
     let weights := fldN v' 22 6 ≠ 0 ∧ fldN v' 16 6 ≠ 0 ∧ fldN v' 10 6 ≠ 0
     (dieReady s (portDie port) = false → answers (.portCfgWrite w port v) cDieLost ∧ answers (.portStart w port) cDieLost ∧ answers (.retrain w port) cDieLost
       ∧ answers (.stopDrain w port) cDieLost ∧ answers (.stopAbort w port) cDieLost)
     ∧ (dieReady s (portDie port) = true →
       (p.st ≠ .off → answers (.portCfgWrite w port v) stCfgBusy)
       ∧ (p.st = .off → secureWriter w = true → ¬ weights → answers (.portCfgWrite w port v) stInvalid)
       ∧ (p.st = .off → secureWriter w = true → weights → exec (.portCfgWrite w port v) s = .next { putPort s port { p with cfg := v' } with status := 0 })
       ∧ (p.st = .off → secureWriter w = false → weights → Goes (exec (.portCfgWrite w port v) s) fun t =>
           t.status = stWorld ∧ (getPort t port).cfg = ((p.cfg &&& 0xC0000000) ||| (v &&& 0x3FFFFC00)) ∧ others t)
       ∧ (p.st = .off → cfgRole p ≠ 0 → Goes (exec (.portStart w port) s) fun t => let q := getPort t port
           t.status = 0 ∧ q.st = .training ∧ q.role = cfgRole p ∧ q.epoch = 0 ∧ q.txSeq = 0 ∧ q.rxExp = 0 ∧ q.credits = [] ∧ q.cfg = p.cfg ∧ q.cnt = p.cnt ∧ others t)
       ∧ (p.st ≠ .off ∨ cfgRole p = 0 → answers (.portStart w port) 0)
       ∧ (up → Goes (exec (.retrain w port) s) fun t => t.status = 0 ∧ retrains t ∧ others t)
       ∧ (¬ up → answers (.retrain w port) 0)
       ∧ (p.st = .off → answers (.stopDrain w port) 0 ∧ answers (.stopAbort w port) 0)
       ∧ (p.st = .stopping → answers (.stopDrain w port) 0)
       ∧ (p.st = .down → exec (.stopDrain w port) s = exec (.stopAbort w port) s)
       ∧ (up → idle → Goes (exec (.stopDrain w port) s) fun t => t.status = 0 ∧ (getPort t port).st = .off ∧ others t)
       ∧ (up → ¬ idle → Goes (exec (.stopDrain w port) s) fun t =>
           t.status = 0 ∧ getPort t port = { p with st := .stopping, stopSince := s.mod.time, notUpSince := s.mod.time } ∧ others t)
       ∧ (p.st ≠ .off → portKeys s port = [] → Goes (exec (.stopAbort w port) s) fun t =>
           t.status = 0 ∧ (getPort t port).st = .off ∧ (getPort t port).txq = [] ∧ (getPort t port).replay = [] ∧ (getPort t port).cfg = p.cfg))
     ∧ (up → Goes (exec (.trainingFrameReceive port) s) fun t => retrains t ∧ others t)
     ∧ (¬ up → exec (.trainingFrameReceive port) s = .next s)
     ∧ ∀ lane : Fin 8, (up → (lanesInUse p).contains lane.val = true → Goes (exec (.laneLockLoss port lane) s) fun t => retrains t ∧ others t)
       ∧ (¬ up ∨ (lanesInUse p).contains lane.val = false → exec (.laneLockLoss port lane) s = .next s))
  ∧ (∀ (s : State) (port : Fin 24) (r : TrainResult),
     let p := getPort s port
     let usable := r.good &&& r.theirs
     let w := trainWidth p usable
     let enough := w ≠ 0 ∧ minWidth p ≤ w
     (p.st ≠ .training → p.st ≠ .retrain → exec (.portTrainingDone port r) s = .next s)
     ∧ (p.st = .training ∨ p.st = .retrain →
       (¬ enough → p.attempts < 2 → exec (.portTrainingDone port r) s = .next (putPort s port { p with attempts := p.attempts + 1 }))
       ∧ (¬ enough → 2 ≤ p.attempts → portKeys s port = [] → Goes (exec (.portTrainingDone port r) s) fun t => let q := getPort t port
           q.st = .down ∧ q.live = false ∧ q.width = 0 ∧ q.txq = [] ∧ q.replay = [])
       ∧ (enough → p.role ≠ 1 → Goes (exec (.portTrainingDone port r) s) fun t => let q := getPort t port
           q.st = .up ∧ q.live = true ∧ q.width = BitVec.ofNat 4 w ∧ q.usable = usable)
       ∧ (enough → p.role = 1 → r.linkReset = false → p.linkReset = false → Goes (exec (.portTrainingDone port r) s) fun t => let q := getPort t port
           q.st = .up ∧ q.live = true ∧ q.width = BitVec.ofNat 4 w ∧ q.usable = usable ∧ q.attempts = 0
           ∧ q.epoch = (if precedes p.epoch r.epoch then r.epoch else p.epoch) + 1
           ∧ fldN q.partner 8 6 = r.slotId.toNat ∧ fldN q.partner 0 5 = r.pport.toNat ∧ bitAt q.partner 31 = true)))

/-- R336, R339-R341, R345, R361: a good flit whose side-band width and epoch agree moves the expected number where it is in sequence and finds a receive buffer, gives credits back, and its ACK empties the
replay buffer up to it; one that disagrees makes the port retrain. A bad flit owes a NAK and is counted by its cause, as corrected codewords are. The acknowledgement timer sends an IDLE flit with what is owed;
a time-out sends every unacknowledged flit again, and the sixteenth without an advance retrains; the summary counts at most once a second. -/
def Obligations.FlitsAndReplays : Prop :=
  ∀ (s : State) (port : Fin 24) (n : Nat) (f : Flit),
    let p := getPort s port
    let on := p.live = true ∧ p.role = 1
    let agrees := f.sbWidth = p.width ∧ f.sbEpoch = p.epoch
    let quiet := p.st = .up ∧ p.txq = [] ∧ p.sending = []
    let replays (c : PortCnt) : PortCnt := { c with replays := c.replays + 1 }
    let fixed : PortCnt := { p.cnt with fecCorrected := p.cnt.fecCorrected + BitVec.ofNat 64 n }
    let late := on ∧ p.replay ≠ [] ∧ p.ackAt.toNat + 1000 ≤ now s
    let due := p.replaySum ≠ 0 ∧ ∀ t0, p.summaryAt = some t0 → t0.toNat + 1000000000 ≤ now s
    (¬ on → (∀ c, exec (.tzFlitReceive port c f) s = .next s) ∧ exec (.tzAckTimer port) s = .next s)
    ∧ (on →
      Goes (exec (.tzFlitReceive port ⟨n, some .crc⟩ f) s) (fun t => getPort t port = { p with owesNak := true, cnt := { fixed with crcErrors := p.cnt.crcErrors + 1 } })
      ∧ Goes (exec (.tzFlitReceive port ⟨n, some .fec⟩ f) s) (fun t => getPort t port = { p with owesNak := true, cnt := { fixed with fecUncorr := p.cnt.fecUncorr + 1 } })
      ∧ (¬ agrees → p.st = .up → Goes (exec (.tzFlitReceive port ⟨n, none⟩ f) s) fun t => (getPort t port).st = .retrain ∧ (getPort t port).rxExp = p.rxExp)
      ∧ (agrees → quiet → p.replay = [] → f.vl ≠ 0 → Goes (exec (.tzFlitReceive port ⟨n, none⟩ f) s) fun t => let q := getPort t port
          q.rxExp = (if (f.typ = 2 ∨ f.typ = 1 ∧ rxBusy s port f.vl.toNat < laneBuffers f.vl.toNat) ∧ f.seq = p.rxExp then p.rxExp + 1 else p.rxExp)
          ∧ mget 0 q.credits f.crVl.toNat = mget 0 p.credits f.crVl.toNat - f.crCount.toNat)
      ∧ (∀ g m, agrees → quiet → p.replay = [g] → g.pkt = .ctrl m → f.nak = false → f.vl ≠ 0 → Goes (exec (.tzFlitReceive port ⟨n, none⟩ f) s) fun t =>
          (getPort t port).replay = if precedes f.ack g.seq then [g] else [])
      ∧ Goes (exec (.tzAckTimer port) s) fun t => let q := getPort t port
          q.rxSinceAck = 0 ∧ q.owesNak = false ∧ ∃ h : W64, q.wire = p.wire ++ [(h, none)] ∧ h.extractLsb' 62 2 = 0 ∧ h.extractLsb' 36 12 = p.rxExp - 1
            ∧ bitAt h 35 = p.owesNak ∧ h.extractLsb' 22 8 = p.epoch ∧ h.extractLsb' 18 4 = p.width ∧ h.extractLsb' 12 6 = s.mod.slotId)
    ∧ (¬ late → exec (.tzReplayTimeout port) s = .next s)
    ∧ (late → p.noAdv + 1 < 16 → Goes (exec (.tzReplayTimeout port) s) fun t => let q := getPort t port
        q.cnt = replays p.cnt ∧ q.replaySum = p.replaySum + 1 ∧ q.noAdv = p.noAdv + 1 ∧ q.ackAt = s.mod.time ∧ q.replay = p.replay
        ∧ (q.wire.drop p.wire.length).map Prod.snd = p.replay.map fun g => some (g.pkt, g.idx))
    ∧ (late → 16 ≤ p.noAdv + 1 → p.st = .up → Goes (exec (.tzReplayTimeout port) s) fun t =>
        (getPort t port).st = .retrain ∧ (getPort t port).cnt.replays = p.cnt.replays + 1 ∧ (getPort t port).cnt.retrains = p.cnt.retrains + 1)
    ∧ (¬ due → exec (.tzReplaySummary port) s = .next s)
    ∧ (due → Goes (exec (.tzReplaySummary port) s) fun t => getPort t port = { p with replaySum := 0, summaryAt := some s.mod.time, injSent := false })

/-- R338, R347, R350-R352: a control message counts as an answer of its peer; a peer that is gone is lost, any other that is configured is asked to answer; the peer table keeps to one bridge
and changes while no job lives; a round at a port bridge with every masked peer sends its sum into the mesh, one that lags is given up. -/
def Obligations.PeersAndPortSums : Prop :=
  ∀ (s : State) (w : Writer) (port : Fin 24) (k : BitVec 2) (v : W32) (dest : W16) (daddr : BitVec 24) (job : BitVec 2),
    let p := getPort s port
    let answers (i : Instr) (st : Byte) : Prop := exec i s = .next { s with status := st }
    let v' := v &&& 0x803F1F1F
    let seen (k : Nat) : Net := { s.net with peerSeen := mins k s.mod.time (merase s.net.peerSeen k) }
    let goes := peerValid s k.toNat = true ∧ (s.net.peerSeen.any fun e => decide (e.1 = k.toNat)) = true ∧ bitAt s.net.peerLost k.toNat = false
      ∧ peerGone s k.toNat = true
    let mask : BitVec 3 := fld s.mod.nodeCfg 0 3
    (∀ m, peerOfPort s port = none ∨ p.live = false → exec (.ctrlMessageReceive port m) s = .next s)
    ∧ (∀ n, peerOfPort s port = some n → p.live = true →
        exec (.ctrlMessageReceive port (.liveness false)) s = .next { s with net := seen n }
        ∧ (∀ bs, exec (.ctrlMessageReceive port (.firmware bs)) s = .next { s with net := { seen n with fwRx := s.net.fwRx ++ [bs] } })
        ∧ (∀ m, exec (.ctrlMessageReceive port (.discovery m)) s = .next { s with net := seen n })
        ∧ ∀ a weir ep, l6Weirs s = [] → Goes (exec (.ctrlMessageReceive port (.weirArrive a weir ep)) s) fun t =>
            getL6 t weir = { getL6 s weir with peersArrived := (getL6 s weir).peersArrived ||| BitVec.ofNat 4 (2 ^ n) } ∧ t.net.peerSeen = (seen n).peerSeen)
    ∧ (¬ goes → exec (.peerLost k) s = .next (if peerConfigured s k.toNat then sendCtrl s k.toNat (.liveness true) else s))
    ∧ (goes → l6Weirs s = [] → Goes (exec (.peerLost k) s) fun t => t.net = { s.net with peerLost := s.net.peerLost ||| BitVec.ofNat 4 (2 ^ k.toNat) })
    ∧ (k = 0 → answers (.tzPeerWrite w k v) stNoSub)
    ∧ (k ≠ 0 → bitAt v' 31 = true → peersOk s k.toNat v' = false → answers (.tzPeerWrite w k v) stInvalid)
    ∧ (k ≠ 0 → bitAt v' 31 = false ∨ peersOk s k.toNat v' = true →
      (jobs4.any (jobLive s) = true → answers (.tzPeerWrite w k v) stCfgBusy)
      ∧ (jobs4.any (jobLive s) = false → Goes (exec (.tzPeerWrite w k v) s) fun t =>
          t.status = 0 ∧ peerReg t k.toNat = v' ∧ ∀ i, i ≠ k.toNat → peerReg t i = peerReg s i))
    ∧ (paddOf s dest daddr job = none → exec (.portAddRound dest daddr job) s = .next s ∧ exec (.addLagExpire dest daddr job) s = .next s)
    ∧ ∀ r, paddOf s dest daddr job = some r →
      (r.peers &&& mask ≠ mask → exec (.portAddRound dest daddr job) s = .next s)
      ∧ (∀ via, r.peers &&& mask = mask → s.net.blocks = [] → diePath s (portDie r.bridge) (posOf s dest).die = some via →
          Goes (exec (.portAddRound dest daddr job) s) fun t => t.net.padds = s.net.padds.erase r
            ∧ ∃ b, t.net.blocks = [(s.net.nextBlk + 1, b)] ∧ b.kind = .put ∧ b.dest = dest ∧ b.daddr = daddr ∧ b.job = job
              ∧ b.payload = r.sum.flatMap fun v => toLE 4 v.toNat)
      ∧ (r.since.toNat + 125 * fldN s.mod.nodeCfg 16 16 ≤ now s → s.net.blocks = [] →
          Goes (exec (.addLagExpire dest daddr job) s) fun t => t.net.padds = s.net.padds.erase r ∧ t.net.blocks = [])
      ∧ (now s < r.since.toNat + 125 * fldN s.mod.nodeCfg 16 16 → exec (.addLagExpire dest daddr job) s = .next s)

/-- R200, R286, R354, R355: a port takes a handle of its PORT context, keeps it until the slot is FULL, and sends the slot whole, in packets that wait for the acknowledgement; data for
a landing number that is not the job's is dropped; other data is written through the slot of a handle that the landing queue gives, waits
without one, and is dropped once older than the limit. -/
def Obligations.StreamLane : Prop :=
  ∀ (s : State) (port : Fin 24) (die : Fin 12) (qid : BitVec 12) (u : BitVec 8) (job : BitVec 2) (bs : List Byte),
    let q := getStq (getDie s die) qid
    let x := getPort s (stqPort q)
    let t := stqTile q
    let ready := (q.st = .active ∨ q.st = .draining) ∧ stqKind q = 2 ∧ x.role = 1 ∧ stqPort q < 24 ∧ (getJob s (stqOwner q)).frozen = false ∧ tileTakes s t = true
    let p := getPort s port
    let on := p.live = true ∧ p.role = 1
    let r := landReg s u
    let queued := fld r 16 13 ≠ 0x1FFF
    let taken := bitAt r 31 = true ∧ fld r 29 2 = job
    let entry := (u, job, bs, s.mod.time)
    let lim := parkLimit (getDie s (portDie port))
    let pops (s : State) := popHandle (tDie (fld r 0 16)) (fld r 16 13) (fld r 0 16) job 65 s
    let handle (s' : State) (h : W32) (t' : W16) := getSlot (getTile s' t') (fldN h 20 6)
    (¬ ready ∨ x.popped = [] ∧ x.st ≠ .up → exec (.portStreamSend die qid) s = .next s)
    ∧ (∀ h s1 t', ready → x.popped = [] → x.st = .up → popHandle die (0x1000 ||| qid.setWidth 13) t (stqOwner q) 65 s = (s1, some (h, t')) → s1.net = s.net →
        (getStq (getDie s1 die) qid).cfg = q.cfg →
        let tile := getTile s1 t
        let slot := handle s1 h t
        let v : BitVec 24 := BitVec.ofNat 24 (0x800000 + fldN h 20 6 * 2 ^ 17)
        opndCheck tile (stqOwner q) v (slotLen slot) 64 = none → secureTile s1 t = false →
        (readWaits tile v = true → Goes (exec (.portStreamSend die qid) s) fun t2 => (getPort t2 (stqPort q)).popped = [(die, qid, h)] ∧ t2.tiles = s1.tiles)
        ∧ (readWaits tile v = false → x.txq = [] → x.sending = [] → x.replay = [] → spadBad tile (slotBase slot) (slotLen slot) = false → slotLen slot ≤ 16384 →
            Goes (exec (.portStreamSend die qid) s) fun t2 => (getPort t2 (stqPort q)).popped = [] ∧ heldPkts (getPort t2 (stqPort q))
              = [.stream (qid.setWidth 8 + fld h 0 8) (stqOwner q) (spadRead tile (slotBase slot) (slotLen slot)) die qid h true]))
    ∧ (¬ on → exec (.landReceive port u job bs) s = .next s)
    ∧ (on → ¬ taken → Goes (exec (.landReceive port u job bs) s) fun t => t.net = s.net ∧ t.tiles = s.tiles)
    ∧ (on → taken → p.landing = [] →
      let s0 := putPort s port { p with landing := [entry] }
      (∀ s1, ¬ queued ∨ pops s0 = (s1, none) → Goes (exec (.landReceive port u job bs) s) fun t => (getPort t port).landing = [entry] ∧ t.tiles = s.tiles)
      ∧ (∀ s1 h t', queued → pops s0 = (s1, some (h, t')) → tileTakes s1 t' = true → secureTile s1 t' = false →
          let n := fldN h 20 6
          let va : BitVec 24 := BitVec.ofNat 24 (0x800000 + n * 2 ^ 17)
          slotLen (getSlot (getTile s1 t') n) = bs.length → opndCheck (getTile s1 t') job va bs.length 64 = none → writeWaits (getTile s1 t') va bs.length = false →
          Goes (exec (.landReceive port u job bs) s) fun t => (getPort t port).landing = [] ∧ t.tiles = (opndWrite s1 t' job va bs).tiles))
    ∧ (p.landing = [] → Goes (exec (.landTimeout port) s) fun t => t.tiles = s.tiles ∧ ∀ n, getPort t n = getPort s n)
    ∧ ∀ (s1 : State) (t0 : W64), p.landing = [(u, job, bs, t0)] → ¬ queued ∨ pops s = (s1, none) → Goes (exec (.landTimeout port) s) fun t =>
        (getPort t port).landing = (if lim ≠ 0 ∧ t0.toNat + lim ≤ now s then [] else p.landing) ∧ t.tiles = s.tiles

/-- R358: a write of an enabled region is refused with CFG_BUSY; of another it is stored, where BASE and LEN are multiples of 64.
R357, R359: a request with a good form is queued, and a READ that is the only one is asked for at once, at most 7 times more until it is acknowledged; then it completes, and the queue pair in error completes every
request with ROCE_QP_ERROR. An ACK of a WRITE's last packet acknowledges it; a NAK and a READ that no region allows, or that is over 2 GiB, put the queue pair in error.
R356: a CNP halves the rate down to its floor, and each period raises it up to the full rate; pauses are taken by priority; a frame of good FCS, size and tags is received, and any other counted as dropped. -/
def Obligations.EthernetRole : Prop :=
  ∀ (s : State) (w : Writer) (port : Fin 24) (r : BitVec 10) (v : W64) (wr : BitVec 256) (q : BitVec 12),
    let p := getPort s port
    let m := getMr s r.toNat
    let x := getQp s q
    let answers (i : Instr) (st : Byte) : Prop := exec i s = .next { s with status := st }
    let v48 := v &&& 0x0000FFFFFFFFFFFF
    let eth := p.st = .up ∧ (p.role = 2 ∨ p.role = 3)
    let wellFormed := fldN wr 0 17 = 0 ∧ fldN wr 240 16 = 0 ∧ (wrLocal wr).toNat % 64 = 0 ∧ wrLen wr ≠ 0 ∧ wrLen wr ≤ 2 ^ 31
    let halved := { x with rate := max ((if x.rate = 0 then lineRate s else x.rate) / 2) s.mod.roceFloor.toNat, cnpAt := some s.mod.time }
    let sent (y : RoceQp) (k : RocePkt) : RoceQp :=
      if mayTransmit s q then { y with out := y.out ++ (y.txq ++ [k]), txq := [] } else { y with txq := y.txq ++ [k] }
    let asked (y : RoceQp) (a : BitVec 256) : RoceQp :=
      let n := msgPkts q (wrLen a)
      sent { y with begun := true, port := (qpPort s q).getD 0, msgPsn := y.txPsn, endPsn := y.txPsn + BitVec.ofNat 24 (n - 1), txPsn := y.txPsn + BitVec.ofNat 24 n }
        (.readReq q y.txPsn (fld a 128 64) (fld a 96 32) (wrLen a))
    (bitAt m.reg 63 = true → ∀ g, answers (.roceMrWrite w r g v) stCfgBusy)
    ∧ (bitAt m.reg 63 = false →
        exec (.roceMrWrite w r 0 v) s = .next { putMr s r.toNat { m with reg := v &&& 0xFFFFFFFFFFFF8000 } with status := 0 }
        ∧ answers (.roceMrWrite w r 3 v) stNoSub
        ∧ (if v48.toNat % 64 = 0 then exec (.roceMrWrite w r 1 v) s = .next { putMr s r.toNat { m with base := v48 } with status := 0 }
              ∧ exec (.roceMrWrite w r 2 v) s = .next { putMr s r.toNat { m with len := v48 } with status := 0 }
            else answers (.roceMrWrite w r 1 v) stInvalid ∧ answers (.roceMrWrite w r 2 v) stInvalid))
    ∧ (¬ wellFormed → answers (.roceWrPost w wr) stInvalid)
    ∧ (wellFormed → wrQp wr = q →
      (x.error = true → exec (.roceWrPost w wr) s = .next { putQp s q { x with cpls := x.cpls ++ [wrCpl q wr cRoceQpError 0] } with status := 0 })
      ∧ (x.error = false → ethUp s = false → answers (.roceWrPost w wr) stBusy)
      ∧ (x.error = false → ethUp s = true → x.begun = true → x.wrs ≠ [] → exec (.roceWrPost w wr) s = .next { putQp s q { x with wrs := x.wrs ++ [wr] } with status := 0 })
      ∧ (x.error = false → ethUp s = true → x.begun = false → x.parked = false → x.wrs = [] → wrRead wr = true →
          Goes (exec (.roceWrPost w wr) s) fun t => t.status = 0 ∧ getQp t q = asked { x with wrs := [wr] } wr))
    ∧ (∀ a, x.wrs = [a] → x.acked = true → Goes (exec (.roceRequestComplete q) s) fun t =>
        getQp t q = { x with wrs := [], begun := false, acked := false, parked := false, retries := 0, readOff := 0, cpls := x.cpls ++ [wrCpl q a 0 (wrLen a)] })
    ∧ (x.wrs = [] → Goes (exec (.roceRequestComplete q) s) fun t => t.net.qps = s.net.qps)
    ∧ (x.begun = false ∨ x.acked = true → exec (.roceRetryTimeout q) s = .next s)
    ∧ (x.begun = true → x.acked = false →
      (∀ a rest, x.retries < 7 → x.error = false → x.parked = false → x.wrs = a :: rest → wrRead a = true → Goes (exec (.roceRetryTimeout q) s) fun t =>
        getQp t q = asked { x with retries := x.retries + 1, readOff := 0, txPsn := x.msgPsn } a)
      ∧ (7 ≤ x.retries → x.error = false → Goes (exec (.roceRetryTimeout q) s) fun t => (getQp t q).error = true ∧ (getQp t q).wrs = []
          ∧ (getQp t q).cpls = x.cpls ++ x.wrs.map fun a => wrCpl q a cRoceQpError 0))
    ∧ exec (.cnpReceive q) s = .next (if ethLive s then putQp s q halved else s)
    ∧ (let due := ∃ t0, x.cnpAt = some t0 ∧ x.rate ≠ 0 ∧ t0.toNat + 1000 * s.mod.rocePeriod.toNat ≤ now s
       let rate := x.rate + s.mod.roceRise.toNat
       (¬ due → exec (.roceRateRecovery q) s = .next s)
       ∧ (due → exec (.roceRateRecovery q) s = .next (putQp s q (if lineRate s ≤ rate then { x with rate := 0, cnpAt := none }
            else { x with rate, cnpAt := some s.mod.time }))))
    ∧ (∀ a, eth → p.live = true → x.enabled = true → x.error = false → x.begun = true → wrRead a = false → (∃ rest, x.wrs = a :: rest) → ∀ psn,
        (precedes psn x.endPsn = false → Goes (exec (.rocePacketReceive port false (.ack q psn)) s) fun t => getQp t q = { x with acked := true })
        ∧ Goes (exec (.rocePacketReceive port false (.cnp q)) s) (fun t => getQp t q = halved)
        ∧ Goes (exec (.rocePacketReceive port false (.nak q psn true)) s) (fun t => (getQp t q).error = true ∧ (getQp t q).wrs = []))
    ∧ (∀ psn va k n, eth → p.live = true → x.enabled = true → x.error = false →
        let naks (access : Bool) : Prop := Goes (exec (.rocePacketReceive port false (.readReq q psn va k n)) s) fun t =>
          (getQp t q).error = true ∧ .nak q psn access ∈ (getQp t q).out ++ (getQp t q).txq
        (psn ≠ x.rxPsn → Goes (exec (.rocePacketReceive port false (.readReq q psn va k n)) s) fun t => t.net.qps = s.net.qps)
        ∧ (psn = x.rxPsn → 2 ^ 31 < n → naks false)
        ∧ (psn = x.rxPsn → n ≤ 2 ^ 31 → (x.txq.filter endsRead).length < 16 → mrAllows s k va n false = none → naks true))
    ∧ (∀ ce a, p.live = false ∨ x.enabled = false ∨ x.error = true → pktQp a = q → exec (.rocePacketReceive port ce a) s = .next s)
    ∧ (∀ fcs ovr bytes pause resume,
      (¬ eth → exec (.ethFrameReceive port fcs ovr bytes) s = .next s ∧ exec (.priorityFlowControl port pause resume) s = .next s)
      ∧ (eth → Goes (exec (.priorityFlowControl port pause resume) s) (fun t => getPort t port = { p with paused := (p.paused ||| pause) &&& ~~~resume })
        ∧ exec (.ethFrameReceive port fcs ovr bytes) s = .next (if fcs = true ∧ ovr = false ∧ tagsOk bytes = true ∧ 64 ≤ bytes.length ∧ bytes.length ≤ 9216
            then { s with net := { s.net with ethRx := s.net.ethRx ++ [bytes] } }
            else putPort s port { p with cnt := { p.cnt with framesDropped := p.cnt.framesDropped + 1 } })))

/-! ## Dies, edges, clocks and module reset -/

/-- R435, R437, R439-R442, R444, R445: a READY die that loses its clock, its heartbeat or its control processor, or that DIE.CTL resets, is HELD
with the cause, its edges closed, its ports OFF and its stack OFFLINE. A rejoin that DIE.CTL or the delay begins makes the die JOINING; at the reference cycle that ends its time,
it is READY with its tiles reset where the steps succeed, and HELD or FAILED with one more failure counted where one fails. -/
def Obligations.DiesLeaveAndRejoin : Prop :=
  ∀ (s : State) (w : Writer) (die : Fin 12) (f : DieFound),
    let x := getDie s die
    let inService := x.st = .ready ∨ x.st = .joining
    let gone (cause : BitVec 5) (t : State) : Prop := let y := getDie t die
      (x.st = .ready → y.st = .held) ∧ (x.st = .joining → y.st = .held ∨ y.st = .failed) ∧ y.cause = cause ∧ y.heldAt = s.mod.time ∧ (getStack t die).st = .offline
      ∧ (∀ e ∈ dieEdges die, (getEdge t e).st = 0) ∧ ∀ p, p < 24 → portDie p = die.val → (getPort t p).st = .off
    let answers (i : Instr) (st : Byte) : Prop := exec i s = .next { s with status := st }
    let refused (i : Instr) : Prop := Goes (exec i s) fun t => t.status = stWorld ∧ t.dies = s.dies ∧ t.net = s.net
    let may := s.mod.st = .ready ∧ rejoinMay s die = true
    let cmd := (x.st = .held ∨ x.st = .failed) ∧ x.retired = false
    let due := (x.joinDue = true ∨ x.st = .held ∧ bitAt x.cfg 31 = true ∧ x.heldAt.toNat + 100000 * fldN x.cfg 0 16 ≤ now s) ∧ x.retired = false ∧ may
    let joining (y : Die) : Die := { y with st := .joining, joinDue := false, join := some (f, s.mod.time) }
    let quiet := s.mod.resetN = true ∧ (∀ j, (getJob s j).st ≠ .unloading) ∧ s.fw.handover = none ∧ ∀ d, d ≠ die.val → (getDie s d).join = none
    let joined (t : State) : Prop := let y := getDie t die
      y.st = .ready ∧ y.fails = 0 ∧ y.rejoins = (if x.rejoins = 0xFFFF then x.rejoins else x.rejoins + 1) ∧ y.join = none
      ∧ (getStack t die).st = (if f.stackOk then .ready else .offline)
      ∧ (f.badTiles = [] → ∀ u, tDie u = die.val → tilePresent t u = true → getTile t u = freshTile true (getTile s u))
    let failed (t : State) : Prop := let n := x.fails.toNat + 1
      (getDie t die).st = (if fldN x.cfg 28 3 ≤ n then .failed else .held) ∧ (getDie t die).fails = BitVec.ofNat 3 n ∧ (getDie t die).join = none
    (¬ inService → exec (.dieClockLoss die) s = .next s ∧ exec (.heartbeatTimeout die) s = .next s ∧ exec (.dieControlWatchdog die) s = .next s)
    ∧ (inService → Goes (exec (.dieClockLoss die) s) (gone 1) ∧ Goes (exec (.heartbeatTimeout die) s) (gone 1) ∧ Goes (exec (.dieControlWatchdog die) s) (gone 2))
    ∧ (secureWriter w = false → refused (.dieResetCmd w die) ∧ refused (.dieRejoinCmd w die f))
    ∧ (secureWriter w = true →
      (¬ inService → answers (.dieResetCmd w die) stCfgBusy) ∧ (inService → Goes (exec (.dieResetCmd w die) s) fun t => gone 5 t ∧ t.status = 0)
      ∧ (¬ cmd → answers (.dieRejoinCmd w die f) stCfgBusy)
      ∧ (cmd → may → Goes (exec (.dieRejoinCmd w die f) s) fun t => t.status = 0 ∧ getDie t die = joining { x with fails := 0 })
      ∧ (cmd → ¬ may → exec (.dieRejoinCmd w die f) s = .next { modDie s die fun y => { y with fails := 0, joinDue := true } with status := 0 }))
    ∧ (¬ due → exec (.rejoinDelayExpire die f) s = .next s)
    ∧ (due → Goes (exec (.rejoinDelayExpire die f) s) fun t => getDie t die = joining x)
    ∧ ∀ t0 : W64, quiet → x.st = .joining → x.join = some (f, t0) →
      let ended := t0.toNat + min f.took rejoinMax ≤ (s.mod.time + 10).toNat
      (¬ ended → Goes (exec .referenceCycle s) fun t => getDie t die = x)
      ∧ (ended → rejoinOk s die f = true → Goes (exec .referenceCycle s) joined)
      ∧ (ended → rejoinOk s die f = false → Goes (exec .referenceCycle s) failed)

/-- R21, R424-R426, R436, R442: a link of an OPEN edge that retrains leaves it OPEN, and closes it when it cannot; EDGE_RETRAIN opens a closed
edge whose failed wire pairs find a spare; a UCIe module lost leaves the others, the last one is FATAL, as is the loss of the reference.
R430-R433, R437, R438, R446-R448: a half takes the slower of REQ and LIMIT at most once a microsecond; a reference cycle adds 10 to MOD.TIME
and 20, 10 or 5 to the TCLK of a half of a READY die; module reset clears every domain but what the part keeps; the rise of MOD_RESET_N boots to STANDBY from
a slot that verifies, and FAILED when the known-answer tests fail. -/
def Obligations.EdgesClocksAndReset : Prop :=
  (∀ (s : State) (w : Writer) (edge : Fin 16) (link : Fin 24) (remapped trains : Bool) (found : Option (List (Fin 24))) (m : BitVec 2),
     let e := getEdge s edge
     let used := mget 0 e.used link.val
     let answers (i : Instr) (st : Byte) : Prop := exec i s = .next { s with status := st }
     let ready := e.st = 0 ∧ dieReady s (edgeEnds edge).1 = true ∧ dieReady s (edgeEnds edge).2 = true
     let holds := trains = true ∧ (remapped = false ∨ used < 2)
     let fails (l : Nat) := ((found.getD []).filter fun x => decide (x.val = l)).length
     let opens := found.isSome = true ∧ ∀ l, l < 24 → fails l ≤ 2
     let others (t : State) : Prop := ∀ i, i ≠ edge.val → getEdge t i = getEdge s i
     (e.st ≠ 2 → exec (.d2dLinkLockLoss edge link remapped trains) s = .next s)
     ∧ (e.st = 2 → holds → Goes (exec (.d2dLinkLockLoss edge link remapped trains) s) fun t => let y := getEdge t edge
         y.st = 2 ∧ bitAt y.retrained link = true ∧ mget 0 y.used link.val = (if remapped then used + 1 else used) ∧ others t)
     ∧ (e.st = 2 → ¬ holds → Goes (exec (.d2dLinkLockLoss edge link remapped trains) s) fun t => getEdge t edge = { e with st := 0 } ∧ others t)
     ∧ (secureWriter w = false → Goes (exec (.edgeRetrain w edge found) s) fun t => t.status = stWorld ∧ t.net = s.net)
     ∧ (secureWriter w = true →
       (¬ ready → answers (.edgeRetrain w edge found) stCfgBusy)
       ∧ (ready → opens → Goes (exec (.edgeRetrain w edge found) s) fun t => let y := getEdge t edge
           t.status = 0 ∧ y.st = 2 ∧ y.retrained = 0 ∧ (∀ l, l < 24 → mget 0 y.used l = fails l) ∧ others t)
       ∧ (ready → ¬ opens → Goes (exec (.edgeRetrain w edge found) s) fun t => t.status = 0 ∧ getEdge t edge = e ∧ others t))
     ∧ (let left := setFld s.mod.ucie m.toNat 1 0
        let lost := s.mod.resetN = true ∧ bitAt s.mod.ucie m.toNat = true
        (¬ lost → exec (.ucieModuleLoss m) s = .next s)
        ∧ (lost → left ≠ 0 → Goes (exec (.ucieModuleLoss m) s) fun t => t.mod = { s.mod with ucie := left } ∧ t.net = s.net)
        ∧ (lost → left = 0 → Goes (exec (.ucieModuleLoss m) s) fun t => t.mod.st = .failed ∧ t.mod.fatal = true))
     ∧ (s.mod.resetN = false ∨ s.mod.st = .failed → exec .refLoss s = .next s)
     ∧ (s.mod.resetN = true → s.mod.st ≠ .failed → Goes (exec .refLoss s) fun t => t.mod.st = .failed ∧ t.mod.fatal = true))
  ∧ (∀ (s : State) (die : Fin 12) (half : Bool) (f : StartFound),
     let n := halfNo die half
     let h := getHalf s n
     let v := if h.req.toNat < h.limit.toNat then h.limit else h.req
     let due := dieReady s die = true ∧ h.step ≠ v ∧ (h.changes = 0 ∨ h.lastChange.toNat + 1000 ≤ now s)
     let inRange := 3200 ≤ s.power.vin.toNat ∧ s.power.vin.toNat ≤ 4000
     (¬ due → exec (.clockStepChange die half) s = .next s)
     ∧ (due → exec (.clockStepChange die half) s = .next (putHalf s n { h with step := v, changes := h.changes + 1, lastChange := s.mod.time }))
     ∧ (s.mod.resetN = false → exec .referenceCycle s = .next s)
     ∧ (s.mod.resetN = true → (∀ j, (getJob s j).st ≠ .unloading) → s.fw.handover = none → (∀ d, (getDie s d).join = none) →
         exec .referenceCycle s = .next { s with
           mod := { s.mod with time := s.mod.time + 10 }
           halves := mmap Half.reset s.halves fun i h => if dieReady s (i / 2) then
             { h with cycles := h.cycles + (if h.step = 0 then 20 else if h.step = 1 then 10 else 5) } else h })
     ∧ Goes (exec .modResetFall s) (fun t => t.pending = s.pending ∧ t.mod.resetN = false ∧ t.mod.st = .boot ∧ t.mod.time = 0 ∧ t.tiles = [] ∧ t.hbm = []
         ∧ t.jobs = [] ∧ t.pubs = [] ∧ t.watches = [] ∧ t.regions = [] ∧ t.log.recs = [] ∧ t.flash = s.flash ∧ t.sec.owner = s.sec.owner
         ∧ t.sec.svnMgmt = s.sec.svnMgmt ∧ t.sec.challenge = none ∧ t.sec.report = [] ∧ t.log.flashFatal = s.log.flashFatal)
     ∧ (s.mod.resetN = true → exec (.modResetRise f) s = .next s)
     ∧ (s.mod.resetN = false →
       (f.inRange = false → exec (.modResetRise f) s = .next { s with mod := { s.mod with resetN := true } })
       ∧ (f.inRange = true → inRange → f.katOk = false → Goes (exec (.modResetRise f) s) fun t => t.mod.st = .failed)
       ∧ (f.inRange = true → inRange → f.katOk = true → f.pufOk = true → f.monoOk = true → f.badRecords = [] → slotBoots s f s.fw.slot = true → s.mod.autostart = false →
           Goes (exec (.modResetRise f) s) fun t => t.mod.st = .standby ∧ t.mod.slotId = f.slotId ∧ t.fw.standby = 1 ∧ t.fw.slot = s.fw.slot
             ∧ t.regions = bootRegions ∧ t.mgmt.addrOk = f.addrFree)))

/-! ## Reliability -/

/-- R454, R455, R460, R464, R466-R470: FENCE.CTL fences a tile, whose state goes and whose position is fenced under a new map generation, or
bypasses a router, or retires the die where R470 refuses the bypass; a merge window that ends writes the merged record; a checker that misses its error fails the island or fences its tile; two bits in error in
the island's SRAM are recorded; a second after a FATAL record the module resets. -/
def Obligations.FencesAndRecords : Prop :=
  ∀ (s : State) (w : Writer) (tile : W16) (f : StartFound),
    let answers (i : Instr) (st : Byte) : Prop := exec i s = .next { s with status := st }
    let p := posOf s tile
    let i := halfNo p.die p.h1
    let q := p.row * 24 + p.col
    let h := getHalf s i
    let up := tilePresent s tile = true ∧ dieReady s (tDie tile) = true
    let island := s.mod.resetN = true ∧ 1 ≤ s.mod.step.toNat
    let fenced (t : State) : Prop := getTile t tile = { Tile.reset with fenced := true }
      ∧ (getHalf t (halfNo (tDie tile) (tH1 tile))).flashFenced.contains (tilePos s tile) = true
      ∧ (getHalf t (halfNo (tDie tile) (tH1 tile))).flashGen = (getHalf s (halfNo (tDie tile) (tH1 tile))).flashGen + 1
    (secureWriter w = false → Goes (exec (.fenceTile w tile) s) (fun t => t.status = stWorld ∧ t.tiles = s.tiles ∧ t.halves = s.halves)
      ∧ Goes (exec (.bypassRouter w tile) s) fun t => t.status = stWorld ∧ t.tiles = s.tiles ∧ t.halves = s.halves)
    ∧ (secureWriter w = true →
      (tilePresent s tile = false → answers (.fenceTile w tile) stInvalid ∧ answers (.bypassRouter w tile) stInvalid)
      ∧ (tilePresent s tile = true → dieReady s (tDie tile) = false → answers (.fenceTile w tile) stCfgBusy ∧ answers (.bypassRouter w tile) stCfgBusy)
      ∧ (up → (getTile s tile).fenced = true → answers (.fenceTile w tile) 0)
      ∧ (up → (getTile s tile).fenced = false → Goes (exec (.fenceTile w tile) s) fun t => t.status = 0 ∧ fenced t)
      ∧ (up → h.bypassed.contains q = true → answers (.bypassRouter w tile) 0)
      ∧ (up → dieReady s p.die = true → h.bypassed.contains q = false → bypassRefused h q = true → Goes (exec (.bypassRouter w tile) s) fun t =>
          t.status = 0 ∧ (getDie t p.die).retired = true ∧ (getDie t p.die).st = .held)
      ∧ (up → h.bypassed.contains q = false → bypassRefused h q = false → Goes (exec (.bypassRouter w tile) s) fun t =>
          t.status = 0 ∧ (getHalf t i).bypassed = h.bypassed ++ [q]))
    ∧ (∀ cause unit source job,
        let due (m : MergeWin) := m.first.cause = cause ∧ m.first.unit = unit ∧ m.first.source = source ∧ m.first.job = job
          ∧ m.since.toNat + 1000000 * fldN s.log.cfg 16 8 ≤ now s
        ((∀ m ∈ s.log.wins, ¬ due m) → exec (.errMergeEnd cause unit source job) s = .next s)
        ∧ ∀ m, s.log.wins = [m] → due m →
          (m.count = 0 → exec (.errMergeEnd cause unit source job) s = .next { s with log := { s.log with wins := [] } })
          ∧ (m.count ≠ 0 → s.log.recs.length < 4096 → Goes (exec (.errMergeEnd cause unit source job) s) fun t => t.log.wins = []
              ∧ t.log.recs = s.log.recs ++ [{ m.first with time := s.mod.time, seq := s.log.seq, merged := true, info0 := BitVec.ofNat 64 m.count, info1 := m.lastInfo0 }]))
    ∧ exec (.checkerSelftest none) s = .next s
    ∧ (¬ island → (∀ u, exec (.checkerSelftest (some u)) s = .next s) ∧ ∀ a b, exec (.islandSramPatrol a b) s = .next s)
    ∧ (island → Goes (exec (.checkerSelftest (some .island)) s) fun t => t.mod.st = .failed)
    ∧ (island → up → autoFence s = true → (getTile s tile).fenced = false → Goes (exec (.checkerSelftest (some (.tile tile))) s) fenced)
    ∧ (∀ a (bits : BitVec 2), (bits.toNat < 2 → exec (.islandSramPatrol a bits) s = .next s)
        ∧ (island → 2 ≤ bits.toNat → s.log.wins = [] → s.log.recs.length < 4096 → Goes (exec (.islandSramPatrol a bits) s) fun t =>
            ∃ r, t.log.recs = s.log.recs ++ [r] ∧ r.unit = 9 ∧ r.source = 18 ∧ r.seq = s.log.seq ∧ r.time = s.mod.time))
    ∧ (let due := s.mod.fatal = true ∧ bitAt s.log.cfg 29 = true ∧ s.mod.fatalAt.toNat + 1000000000 ≤ now s
       (¬ due → exec (.fatalResetExpire f) s = .next s)
       ∧ (due → f.inRange = false → Goes (exec (.fatalResetExpire f) s) fun t => t.mod.resetN = true ∧ t.mod.fatal = false ∧ t.mod.st = .boot ∧ t.log.recs = []))

/-- R473-R477, R494, R497, R500: the checkpoint, the takeover, the handover, whose image is loaded and whose cores change roles at a later reference cycle, the probation that COMMIT
or its end closes and REVERT or a watchdog undoes, and the watchdog of an application core, whose record is appended to the log. COMMIT lowers no counter of the monotonic region. -/
def Obligations.ManagementFirmware : Prop :=
  ∀ (s : State) (w : Writer) (img : Image) (core : Fin 16),
    let answers (i : Instr) (st : Byte) : Prop := exec i s = .next { s with status := st }
    let refused (i : Instr) : Prop := Goes (exec i s) fun t => t.status = stWorld ∧ t.fw = s.fw ∧ t.sec = s.sec
    let up := 2 ≤ s.mod.step.toNat
    let f := s.fw
    let due := up ∧ f.checkpointAt.toNat + 1000000 ≤ now s
    let i := (stagedImage f (!f.slot) imgMgmt).getD img
    let reverted (t : State) : Prop := t.fw.active = !f.active ∧ t.fw.slot = !f.slot ∧ t.fw.standby = 1
      ∧ (if f.slot then t.fw.markB = 2 ∧ t.fw.markA = f.markA else t.fw.markA = 2 ∧ t.fw.markB = f.markB)
    let committed (t : State) : Prop := t.fw.active = f.active ∧ t.fw.slot = f.slot ∧ t.fw.standby = 1 ∧ t.flash.slot = some f.slot
      ∧ (if f.slot then t.fw.markB else t.fw.markA) = 0 ∧ s.sec.svnIsland.toNat ≤ t.sec.svnIsland.toNat ∧ s.sec.svnMgmt.toNat ≤ t.sec.svnMgmt.toNat
      ∧ s.sec.svnDiectl.toNat ≤ t.sec.svnDiectl.toNat ∧ s.sec.keyRevoke.toNat ≤ t.sec.keyRevoke.toNat
      ∧ (slotSvn f f.slot imgMgmt).toNat ≤ t.sec.svnMgmt.toNat
    (¬ due → exec .mgmtCheckpoint s = .next s)
    ∧ (due → exec .mgmtCheckpoint s = .next { s with fw := { f with journal := 0, checkpointAt := s.mod.time } })
    ∧ (¬ up → exec .mgmtWatchdog s = .next s)
    ∧ (up → f.standby = 1 → Goes (exec .mgmtWatchdog s) fun t => t.fw = { f with active := !f.active } ∧ t.mgmt.cache = s.mgmt.cache.filter fun e => journaled e.2.1)
    ∧ (up → f.standby = 3 → Goes (exec .mgmtWatchdog s) reverted)
    ∧ (up → f.standby ≠ 1 → f.standby ≠ 3 → Goes (exec .mgmtWatchdog s) fun t => t.fw = f)
    ∧ (secureWriter w = false → refused (.handover w img) ∧ refused (.commit w) ∧ refused (.revert w))
    ∧ (secureWriter w = true →
      (f.standby ≠ 1 → answers (.handover w img) stCfgBusy)
      ∧ (f.standby = 1 → Goes (exec (.handover w img) s) fun t => t.status = 0 ∧ ∃ a b : Nat, a ≤ 170000000 ∧ b ≤ 20000000
          ∧ t.fw = { f with standby := 2, handover := some { img := i, loaded := s.mod.time + BitVec.ofNat 64 a, swap := b } })
      ∧ (f.standby ≠ 3 → answers (.commit w) stCfgBusy ∧ answers (.revert w) stCfgBusy)
      ∧ (f.standby = 3 → Goes (exec (.commit w) s) (fun t => t.status = 0 ∧ committed t) ∧ Goes (exec (.revert w) s) fun t => t.status = 0 ∧ reverted t))
    ∧ (f.standby = 3 ∧ f.probationAt.toNat + 60000000000 ≤ now s → Goes (exec .probationEnd s) committed)
    ∧ (¬ (f.standby = 3 ∧ f.probationAt.toNat + 60000000000 ≤ now s) → exec .probationEnd s = .next s)
    ∧ (∀ h, s.mod.resetN = true → (∀ j, (getJob s j).st ≠ .unloading) → (∀ d, (getDie s d).join = none) → f.handover = some h →
        let t1 := s.mod.time + 10
        (t1.toNat < h.loaded.toNat → Goes (exec .referenceCycle s) fun t => t.fw = f)
        ∧ (h.loaded.toNat ≤ t1.toNat → imageRefusal s h.img imgMgmt ≠ none → Goes (exec .referenceCycle s) fun t => t.fw = { f with standby := 1, handover := none })
        ∧ (h.loaded.toNat + h.swap ≤ t1.toNat → imageRefusal s h.img imgMgmt = none → s.sec.preparing = false → Goes (exec .referenceCycle s) fun t =>
            t.fw.active = !f.active ∧ t.fw.slot = !f.slot ∧ t.fw.standby = 3 ∧ t.fw.handover = none ∧ t.fw.probationAt = t1))
    ∧ (let runs := s.mod.resetN = true ∧ f.appImage ≠ none
       (¬ runs → exec (.appWatchdog core) s = .next s)
       ∧ (runs → Goes (exec (.appWatchdog core) s) fun t => t.fw = { f with appReset := setFld f.appReset core.val 1 1 }
        ∧ (s.log.wins = [] → s.log.recs.length < 4096 → ∃ r, t.log.recs = s.log.recs ++ [r] ∧ r.cause = 0xEA ∧ r.source = BitVec.ofNat 16 core.val
            ∧ r.sev = 1 ∧ r.unit = 9 ∧ r.seq = s.log.seq ∧ r.time = s.mod.time ∧ t.log.head = s.log.seq ∧ t.log.seq = s.log.seq + 1)))

/-- R478: a write of ERR.INJECT from the secure world arms the one fault its target names, where the unit is there, and nothing else. -/
def Obligations.FaultInjections : Prop :=
  ∀ (s : State) (w : Writer) (u : W16) (bit : Byte) (addr : W32),
    let all := [Instr.spad1 w u bit addr, .spad2 w u bit addr, .residue w u, .meshFlit w u bit, .weirCopy w u addr, .hbmSymbol w u bit addr, .d2dFlit w u,
      .tizalFlit w u, .ctxStore2 w u]
    let x := getTile s u
    let done (i : Instr) (t : State) : Prop := exec i s = .next { t with status := 0 }
    let n := addr.toNat / 8
    let there := tilePresent s u = true ∧ dieReady s (tDie u) = true
    (secureWriter w = false → ∀ i ∈ all, Goes (exec i s) fun t => t.status = stWorld ∧ t.tiles = s.tiles ∧ t.net = s.net ∧ t.hbmStacks = s.hbmStacks ∧ t.dies = s.dies)
    ∧ (secureWriter w = true →
      (tileTakes s u = true → addr.toNat < 524288 →
        done (.spad1 w u bit addr) (modTile s u fun x => { x with spadEcc := eccSet x.spadEcc n (worse false (eccAt x.spadEcc n)) })
        ∧ done (.spad2 w u bit addr) (modTile s u fun x => { x with spadEcc := eccSet x.spadEcc n .double }))
      ∧ (tileTakes s u = false ∨ 524288 ≤ addr.toNat → done (.spad1 w u bit addr) s ∧ done (.spad2 w u bit addr) s)
      ∧ (tileTakes s u = true → done (.residue w u) (modTile s u fun x => { x with injResidue := true })
          ∧ Goes (exec (.ctxStore2 w u) s) fun t => t.status = 0 ∧ ∃ k, k < 4 ∧ getTile t u = { x with ctxEcc := eccSet x.ctxEcc k .double })
      ∧ (tileTakes s u = false → done (.residue w u) s ∧ Goes (exec (.ctxStore2 w u) s) fun t => t.status = 0 ∧ t.tiles = s.tiles)
      ∧ (there → bit.toNat ≤ 4 → x.injFlit.contains bit.toNat = false → done (.meshFlit w u bit) (modTile s u fun x => { x with injFlit := x.injFlit ++ [bit.toNat] }))
      ∧ (¬ there ∨ 4 < bit.toNat → done (.meshFlit w u bit) s)
      ∧ (¬ there ∨ 4096 ≤ addr.toNat → done (.weirCopy w u addr) s)
      ∧ (there → addr.toNat < 4096 → Goes (exec (.weirCopy w u addr) s) fun t => t.status = 0 ∧ t.tiles = s.tiles)
      ∧ (stackUp s u.toNat = true → blkSt (getStack s u.toNat) (addr.toNat / 64) = none → Goes (exec (.hbmSymbol w u bit addr) s) fun t =>
          t.status = 0 ∧ blkSt (getStack t u.toNat) (addr.toNat / 64) = some (if bitAt bit 0 then .uncorrectable else .correctable) ∧ t.hbm = s.hbm)
      ∧ (stackUp s u.toNat = false → done (.hbmSymbol w u bit addr) s)
      ∧ done (.d2dFlit w u) (if u.toNat < 16 then putEdge s u.toNat { getEdge s u.toNat with injFlit := true } else s)
      ∧ done (.tizalFlit w u) (if u.toNat < 24 then putPort s u.toNat { getPort s u.toNat with injFlit := true } else s))

/-! ## Security and JTAG -/

/-- R485, R488, R494, R500, R501, R504, R505, R520: region entries and their lock, staging, the APP commit, which lowers no counter, the attestation
report and the flash records that STORE writes and RESTORE invalidates.
R511: the four instructions of the test port, and nothing else of the module changes with them. -/
def Obligations.SecurityRegistersAndTestPort : Prop :=
  (∀ (s : State) (w : Writer) (e : BitVec 6) (v : BitVec 128) (v32 : W32) (nonce : BitVec 256) (img : Image),
     let answers (i : Instr) (st : Byte) : Prop := exec i s = .next { s with status := st }
     let refused (i : Instr) : Prop := Goes (exec i s) fun t => t.status = stWorld ∧ t.regions = s.regions ∧ t.sec = s.sec ∧ t.flash = s.flash
     let locked := bitAt (mget 0 s.regions e.toNat) 124 = true
     let mask : BitVec 128 := if bitAt v 126 then maskAt 128 124 4 ||| maskAt 128 32 16 ||| maskAt 128 0 16 else maskAt 128 124 4 ||| maskAt 128 32 19 ||| maskAt 128 0 19
     let t := img.typ.toNat
     (secureWriter w = false → refused (.regionWrite w e v) ∧ refused (.appCommit w v32) ∧ refused (.store w) ∧ refused (.restore w))
     ∧ (secureWriter w = true →
       (locked → answers (.regionWrite w e v) stCfgBusy)
       ∧ (¬ locked → exec (.regionWrite w e v) s = .next { s with regions := mset 0 s.regions e.toNat (v &&& mask), status := 0 })
       ∧ (v32 ≠ 1 → answers (.appCommit w v32) stInvalid)
       ∧ (s.fw.appImage = none → answers (.appCommit w 1) 0)
       ∧ (∀ i, s.fw.appImage = some i → exec (.appCommit w 1) s = .next { s with
           sec := { s.sec with svnApp := if s.sec.svnApp.toNat < i.svn.toNat then i.svn else s.sec.svnApp }, status := 0 })
       ∧ Goes (exec (.store w) s) (fun t => t.status = 0 ∧ t.flash.gen = s.flash.gen + 1 ∧ t.flash.autostart = some s.mod.autostart
           ∧ t.flash.powerCap = some (fld s.power.cfg 21 11, fld s.power.cfg 10 11) ∧ t.sec = s.sec
           ∧ ∀ p, p < 24 → mget 0 t.flash.roles p = cfgRole (getPort s p))
       ∧ exec (.restore w) s = .next { s with flash := { s.flash with roles := [], autostart := none, powerCap := none, gen := s.flash.gen + 1 }, status := 0 })
     ∧ (t = 0 ∨ 4 < t → answers (.imageStage w img) stNoSub)
     ∧ (t = 4 → imageRefusal s img 4 = none → Goes (exec (.imageStage w img) s) fun u => u.status = 0 ∧ u.fw.appImage = some img)
     ∧ (t = 4 → imageRefusal s img 4 ≠ none → Goes (exec (.imageStage w img) s) fun u => u.status = 0 ∧ u.fw.appImage = none)
     ∧ (0 < t → t < 4 → s.fw.standby = 3 → answers (.imageStage w img) stCfgBusy)
     ∧ (0 < t → t < 4 → s.fw.standby ≠ 3 → Goes (exec (.imageStage w img) s) fun u => u.status = 0 ∧ u.fw.slot = s.fw.slot
         ∧ stagedImage u.fw (!s.fw.slot) t = some img ∧ ∀ k, stagedImage u.fw s.fw.slot k = stagedImage s.fw s.fw.slot k)
     ∧ (s.sec.preparing = true → answers (.attestNonceWrite nonce) stBusy)
     ∧ (s.sec.preparing = false → Goes (exec (.attestNonceWrite nonce) s) fun t => t.status = 0 ∧ t.sec.nonce = nonce ∧ t.sec.preparing = true
         ∧ t.sec.reportTime = s.mod.time ∧ t.sec.report.take 512 = toLE 512 (reportBody s nonce).toNat ∧ t.sec.owner = s.sec.owner)
     ∧ exec .attestReportReady s = .next { s with sec := { s.sec with preparing := false } })
  ∧ (∀ (s : State) (code : BitVec 8) (pins load : W64),
     let drives := s.mod.resetN = false ∨ s.mod.st = .standby ∨ s.mod.st = .failed
     exec (.jtagBypass code) s = .next { s with jtag := { s.jtag with instr := 0, tdo := 0 } }
     ∧ exec .jtagIdcode s = .next { s with jtag := { s.jtag with instr := 1, tdo := 0x01216E77 } }
     ∧ exec (.jtagSamplePreload pins load) s = .next { s with jtag := { instr := 2, boundary := load, tdo := pins } }
     ∧ (drives → exec .jtagExtest s = .next { s with jtag := { s.jtag with instr := 3 } })
     ∧ (¬ drives → exec .jtagExtest s = .next { s with jtag := { s.jtag with instr := 3, tdo := 0 } }))

/-- R507-R510: a token that fails a check, or that comes within 60 s of a lockout, is refused and changes no tile, job, region or owner; CLAIM and ROTATE set the owner and a greater OWNER_GEN,
DECOMMISSION erases the owner, and WRITE of one item writes an entry of scope MODULE that takes it and nothing else; challenges and lockouts end after 60 s. -/
def Obligations.CommandTokens : Prop :=
  ∀ (s : State) (tok : Token),
    let kept (t : State) : Prop := t.status = cTokenRefused ∧ t.sec.owner = s.sec.owner ∧ t.sec.ownerGen = s.sec.ownerGen ∧ t.flash = s.flash ∧ t.tiles = s.tiles
      ∧ t.jobs = s.jobs ∧ t.regions = s.regions ∧ s.mod.time ∈ t.sec.refusals ∧ t.sec.lastTokenStatus = cTokenRefused
    let locked := ∃ t0 : W64, s.sec.lockoutAt = some t0 ∧ now s < t0.toNat + 60000000000
    let bad (k : Byte) : Prop := locked ∨ tokRefusal s (ofKind k tok) ≠ none
    let good (k : Byte) : Prop := ¬ locked ∧ tokRefusal s (ofKind k tok) = none
    let owned (t : State) : Prop := t.status = 0 ∧ t.sec.owner = some tok.body ∧ t.sec.ownerGen = tok.ownerGen ∧ s.sec.ownerGen.toNat < t.sec.ownerGen.toNat
      ∧ t.tiles = s.tiles ∧ t.regions = s.regions
    (bad 1 → Goes (exec (.tokenWrite tok) s) kept) ∧ (bad 2 → Goes (exec (.tokenClaim tok) s) kept) ∧ (bad 3 → Goes (exec (.tokenRotate tok) s) kept)
    ∧ (bad 4 → Goes (exec (.tokenDecommission tok) s) kept)
    ∧ (good 2 → Goes (exec (.tokenClaim tok) s) owned)
    ∧ (good 3 → Goes (exec (.tokenRotate tok) s) fun t => owned t ∧ t.sec.challenge = none)
    ∧ (good 4 → Goes (exec (.tokenDecommission tok) s) fun t => t.status = 0 ∧ t.sec.owner = none ∧ t.sec.ownerGen = s.sec.ownerGen ∧ t.sec.challenge = none)
    ∧ (∀ i, good 1 → tokItems tok.count.toNat tok.body = some [i] →
        let r := regAt i.index.toNat i.sub.toNat
        let u := spendChallenge s (ofKind 1 tok)
        ((∀ x, r = .ok x → regScope x ≠ 0) → Goes (exec (.tokenWrite tok) s) fun t => t.status ≠ 0 ∧ t.sec.challenge = none ∧ t.tiles = s.tiles ∧ t.regions = s.regions)
        ∧ (∀ x, r = .ok x → regScope x = 0 → itemStatus u i ≠ 0 → Goes (exec (.tokenWrite tok) s) fun t => t.status = itemStatus u i ∧ t.sec.challenge = none
            ∧ t.tiles = s.tiles ∧ t.regions = s.regions)
        ∧ (∀ x, r = .ok x → regScope x = 0 → itemStatus u i = 0 → Goes (exec (.tokenWrite tok) s) fun t => t.status = 0 ∧ t.tiles = (putItem u i).tiles
            ∧ t.mod = (putItem u i).mod ∧ t.regions = (putItem u i).regions ∧ t.power = (putItem u i).power))
    ∧ Goes (exec .challengeRead s) (fun t => t.status = 0 ∧ ∃ c, t.sec = { s.sec with challenge := some (c, s.mod.time) })
    ∧ (∀ c t0, s.sec.challenge = some (c, t0) → exec .challengeExpire s
        = .next { s with sec := { s.sec with challenge := if t0.toNat + 60000000000 ≤ now s then none else s.sec.challenge } })
    ∧ (s.sec.challenge = none → exec .challengeExpire s = .next s)
    ∧ (∀ t0, s.sec.lockoutAt = some t0 → exec .lockoutEnd s
        = .next { s with sec := { s.sec with lockoutAt := if t0.toNat + 60000000000 ≤ now s then none else s.sec.lockoutAt } })
    ∧ (s.sec.lockoutAt = none → exec .lockoutEnd s = .next s)

/-! ## The management port -/

/-- R475, R484, R516, R523-R527, R529, R530, R533: a request that the port serves, that repeats none and with none waiting, is performed, and its response goes
to its sender with its SEQ, or is answered with BUSY while the cores change roles or no slice holds the working store that it needs; a repeat is answered with the kept response; the port
serves nothing before the management cores run and hold its address. -/
def Obligations.ManagementRequests : Prop :=
  ∀ (s : State) (r : DdpReq) (bytes : List Byte) (size crc : W32) (len : Nat),
    let all := [Instr.ddpRead r, .ddpWrite r bytes, .describe r, .segRead r len, .segWriteStart r size, .segWrite r bytes, .segWriteEnd r crc, .segAbort r, .discover r]
    let s1 := setMgmt (hear s r.src) fun g => { g with waiting := [], requests := g.requests + 1 }
    let inst := r.inst.toNat
    let at_ := regAt r.index.toNat r.sub.toNat
    let resp (op : Byte) (offset : W32) (st : Byte) (value : List Byte) : DdpMsg :=
      { op, status := st, index := r.index, sub := r.sub, inst := r.inst, seq := r.seq, offset, value, dest := r.src }
    let sends (m : DdpMsg) (i : Instr) (p : State → Prop) : Prop := Goes (exec i s) fun t => t.mgmt.outQueue.getLast? = some m ∧ p t
    let any : State → Prop := fun _ => True
    let busy := swapping s = true ∨ secureCopies s = [] ∧ Config.needsStore r.index r.sub = true
    let seg (snap : Bool) (n : Nat) (parts : SMap (List Byte)) : SegXfer := { index := r.index, sub := r.sub, inst := r.inst, snap, size := n, parts, lastAt := s.mod.time }
    (portServes s = false → ∀ i ∈ all, exec i s = .next s)
    ∧ (portServes s = true → s.mgmt.waiting = [] →
      (∀ m, keptFor s r = some m → ∀ i ∈ all, Goes (exec i s) fun t => t.mgmt.outQueue = s.mgmt.outQueue ++ [m] ∧ t.mgmt.repeats = s.mgmt.repeats + 1
          ∧ t.mgmt.requests = s.mgmt.requests ∧ t.tiles = s.tiles ∧ t.sec = s.sec ∧ t.jobs = s.jobs)
      ∧ (keptFor s r = none →
        (swapping s = true → sends (resp 0x89 0 stBusy []) (.discover r) any)
        ∧ (busy → sends (resp 0x81 0 stBusy []) (.ddpRead r) any ∧ sends (resp 0x82 0 stBusy []) (.ddpWrite r bytes) any
            ∧ sends (resp 0x83 0 stBusy []) (.describe r) any ∧ sends (resp 0x84 r.offset stBusy []) (.segRead r len) any
            ∧ sends (resp 0x85 0 stBusy []) (.segWriteStart r size) any ∧ sends (resp 0x86 r.offset stBusy []) (.segWrite r bytes) any
            ∧ sends (resp 0x87 0 stBusy []) (.segWriteEnd r crc) any ∧ sends (resp 0x88 0 stBusy []) (.segAbort r) any)
        ∧ (swapping s = false → sends (resp 0x89 0 0 (discoverValue s)) (.discover r) fun t => t.mgmt.requests = s.mgmt.requests + 1)
        ∧ (∀ c, ¬ busy → at_ = .error c → sends (resp 0x81 0 c []) (.ddpRead r) any ∧ sends (resp 0x82 0 c []) (.ddpWrite r bytes) any
            ∧ sends (resp 0x83 0 c []) (.describe r) any ∧ sends (resp 0x84 r.offset c []) (.segRead r len) any ∧ sends (resp 0x85 0 c []) (.segWriteStart r size) any
            ∧ sends (resp 0x86 r.offset c []) (.segWrite r bytes) any ∧ sends (resp 0x87 0 c []) (.segWriteEnd r crc) any ∧ sends (resp 0x88 0 c []) (.segAbort r) any)
        ∧ ∀ e, ¬ busy → at_ = .ok e →
          (if regNamed s e inst then sends (resp 0x83 0 0 (toLE 8 (descriptor r.index.toNat e).toNat)) (.describe r) any
            else sends (resp 0x83 0 stNoObject []) (.describe r) any)
          ∧ (∀ s2 bs, (∀ j, e ≠ .image j) → regRead s1 e inst = (s2, .ok bs) → sends (resp 0x81 0 0 bs) (.ddpRead r) any)
          ∧ (∀ s2 c, (∀ j, e ≠ .image j) → regRead s1 e inst = (s2, .error c) → sends (resp 0x81 0 c []) (.ddpRead r) any)
          ∧ (∀ s2 st, entryPut .port r.index.toNat r.sub.toNat inst bytes s1 = (s2, st) →
              (st ≠ 0 ∨ lateBusy s2 e = false → sends (resp 0x82 0 st []) (.ddpWrite r bytes) fun t => t.tiles = s2.tiles ∧ t.regions = s2.regions ∧ t.jobs = s2.jobs
                ∧ t.fw.journal = s2.fw.journal + (if st = 0 then 1 else 0))
              ∧ (st = 0 → lateBusy s2 e = true → Goes (exec (.ddpWrite r bytes) s) fun t =>
                  t.mgmt.waiting = s2.mgmt.waiting ++ [{ req := r, op := 2, bytes, started := true, pendAt := s.mod.time }]))
          ∧ (1024 < len → sends (resp 0x84 r.offset stLength []) (.segRead r len) any)
          ∧ (len ≤ 1024 → isDomain e = false → sends (resp 0x84 r.offset stAccess []) (.segRead r len) any)
          ∧ (∀ bs, len ≤ 1024 → isDomain e = true → r.offset = 0 → (∀ j, e ≠ .image j) → regGate s e inst = none → domainVal s e = .ok bs → (otherSegs s r).length < 4 →
              sends (resp 0x84 0 0 (bs.take len)) (.segRead r len) fun t => segOf t r = some (seg true bs.length (mset [] [] 0 bs)))
          ∧ (∀ x, len ≤ 1024 → isDomain e = true → r.offset ≠ 0 → segOf s r = some x → x.snap = true →
              sends (resp 0x84 r.offset 0 (((mget [] x.parts 0).drop r.offset.toNat).take len)) (.segRead r len) any)
          ∧ (∀ c, domainRefusal s e inst = some c → sends (resp 0x85 0 c []) (.segWriteStart r size) any)
          ∧ (domainRefusal s e inst = none →
              if (regInfo e).size < size.toNat then sends (resp 0x85 0 stLength []) (.segWriteStart r size) any
              else if 4 ≤ (otherSegs s r).length then sends (resp 0x85 0 stBusy []) (.segWriteStart r size) any
              else sends (resp 0x85 0 0 []) (.segWriteStart r size) fun t => segOf t r = some (seg false size.toNat []))
          ∧ (segOf s r = none → sends (resp 0x86 r.offset stSegment []) (.segWrite r bytes) any ∧ sends (resp 0x87 0 stSegment []) (.segWriteEnd r crc) any
              ∧ sends (resp 0x88 0 stSegment []) (.segAbort r) any)
          ∧ (∀ x, segOf s r = some x → (sends (resp 0x88 0 0 []) (.segAbort r) fun t => segOf t r = none)
              ∧ (x.snap = false →
                (let fits := r.offset.toNat % 1024 = 0 ∧ r.offset.toNat < x.size ∧ bytes.length = min 1024 (x.size - r.offset.toNat) ∧ unanswered s r < 8
                 (¬ fits → sends (resp 0x86 r.offset stSegment []) (.segWrite r bytes) any)
                 ∧ (fits → sends (resp 0x86 r.offset 0 []) (.segWrite r bytes) fun t =>
                      segOf t r = some { x with parts := mset [] x.parts r.offset.toNat bytes, lastAt := s.mod.time }))
                ∧ (assemble x.size x.parts = none → sends (resp 0x87 0 stSegment []) (.segWriteEnd r crc) any)
                ∧ (∀ bs, assemble x.size x.parts = some bs → crc32 bs ≠ crc → sends (resp 0x87 0 stSegment []) (.segWriteEnd r crc) fun t => segOf t r = none)
                ∧ (∀ bs s2 st, assemble x.size x.parts = some bs → crc32 bs = crc → domainPut e inst bs (closeSeg s1 r) = (s2, st) → st ≠ 0 ∨ lateBusy s2 e = false →
                    sends (resp 0x87 0 st []) (.segWriteEnd r crc) fun t => t.fw.appImage = s2.fw.appImage ∧ t.sec = s2.sec)))))

/-- R522, R526-R531: what time, the segment and the event receiver do to the port: transfers, snapshots and kept responses that leave, PENDING, the
next message sent, the PLCA beacon, address detection, ICMPv6, events acknowledged, sent again and given up. -/
def Obligations.ManagementTimers : Prop :=
  ∀ (s : State) (i : W16) (sub : BitVec 8) (n : W16) (seq : W16) (conflict : Bool) (len : Nat),
    let g := s.mgmt
    let serves := portServes s = true
    let put (f : Mgmt) : Host.Outcome State Fault Refusal := .next { s with mgmt := f }
    let old (snap : Bool) (x : SegXfer) : Bool := decide (x.snap = snap ∧ x.index = i ∧ x.sub = sub ∧ x.inst = n ∧ x.lastAt.toNat + 10000000000 ≤ now s)
    let dad := 2 ≤ s.mod.step.toNat ∧ g.addrOk = false ∧ g.dadAt.toNat + 10000000000 ≤ now s
    (Goes (exec (.segTransferTimeout i sub n) s) fun t => t = { s with mgmt := { g with segs := t.mgmt.segs } } ∧ ∀ x, x ∈ t.mgmt.segs ↔ x ∈ g.segs ∧ old false x = false)
    ∧ (Goes (exec (.snapshotExpire i sub n) s) fun t => t = { s with mgmt := { g with segs := t.mgmt.segs } } ∧ ∀ x, x ∈ t.mgmt.segs ↔ x ∈ g.segs ∧ old true x = false)
    ∧ (Goes (exec .responseCacheExpire s) fun t => t = { s with mgmt := { g with cache := t.mgmt.cache } }
        ∧ ∀ x, x ∈ t.mgmt.cache ↔ x ∈ g.cache ∧ now s < x.2.2.toNat + 4000000000)
    ∧ (¬ serves → exec .pendingTimer s = .next s ∧ exec .transmitOpportunity s = .next s ∧ exec (.eventAck seq) s = .next s ∧ exec (.eventResend seq) s = .next s
        ∧ exec (.droppedDatagram len) s = .next s ∧ ∀ m, exec (.icmpv6Receive m) s = .next s)
    ∧ (s.mod.resetN = true → exec .plcaBeacon s = put { g with plca := true, lastBeacon := s.mod.time })
    ∧ (s.mod.resetN = true → g.lastBeacon.toNat + 4000000 ≤ now s → exec .plcaBeaconTimeout s = put { g with plca := false })
    ∧ (s.mod.resetN = false ∨ now s < g.lastBeacon.toNat + 4000000 → exec .plcaBeaconTimeout s = .next s)
    ∧ (¬ dad → exec (.dadRepeat conflict) s = .next s)
    ∧ (dad → Goes (exec (.dadRepeat conflict) s) fun t => t.mgmt.addrOk = !conflict ∧ t.mgmt.dadAt = s.mod.time ∧ t.tiles = s.tiles)
    ∧ (serves →
      exec (.droppedDatagram len) s = put { g with dropped := g.dropped + 1 }
      ∧ (∀ m rest, g.waiting = [] → g.outQueue = m :: rest → exec .transmitOpportunity s = put { g with outQueue := rest, sent := g.sent ++ [m] })
      ∧ (g.waiting = [] → g.outQueue = [] → exec .transmitOpportunity s = .next s)
      ∧ (g.waiting = [] → exec .pendingTimer s = .next s)
      ∧ (∀ q e, g.waiting = [q] → q.started = true → regAt q.req.index.toNat q.req.sub.toNat = .ok e → lateBusy s e = true → q.pendAt.toNat + 20000000 ≤ now s →
          Goes (exec .pendingTimer s) fun t => t.mgmt.waiting = [{ q with pendAt := s.mod.time }] ∧ t.mgmt.outQueue = g.outQueue
            ++ [{ op := 0x7F, status := 0, index := q.req.index, sub := q.req.sub, inst := q.req.inst, seq := q.req.seq
                  offset := if q.op = 4 ∨ q.op = 6 then q.req.offset else 0, value := [], dest := q.req.src }])
      ∧ exec (.icmpv6Receive .routerAdvert) s = .next s
      ∧ (∀ a bs, exec (.icmpv6Receive (.echo a bs)) s = put { g with icmpOut := g.icmpOut ++ [(a, [129, 0] ++ bs)] })
      ∧ (∀ a b, a ≠ ownAddr s → exec (.icmpv6Receive (.neighbourSolicit a b)) s = .next s)
      ∧ (g.evQueue = [] → exec (.eventAck seq) s = put { g with unacked := g.unacked.filter fun e => decide (e.seq ≠ seq) })
      ∧ ((∀ e ∈ g.unacked, e.seq ≠ seq) → exec (.eventResend seq) s = .next s)
      ∧ ∀ e, g.unacked = [e] → e.seq = seq →
        (now s < e.sentAt.toNat + 10000000 → exec (.eventResend seq) s = .next s)
        ∧ (e.sentAt.toNat + 10000000 ≤ now s → 4 ≤ e.sends → g.evQueue = [] → exec (.eventResend seq) s
            = put { g with unacked := [], eventsLost := g.eventsLost + 1 })
        ∧ (e.sentAt.toNat + 10000000 ≤ now s → e.sends < 4 → Goes (exec (.eventResend seq) s) fun t =>
            t.mgmt.unacked = [{ e with sends := e.sends + 1, sentAt := s.mod.time }] ∧ t.mgmt.outQueue.length = g.outQueue.length + 1
            ∧ t.mgmt.eventsSent = g.eventsSent))

/-! ## The window and register writes -/

/-- R534-R537: the cores reach entries once they run. A load of word 0 captures the value, a load of another word returns the capture; a store to
words 1 to 7 is staged, one to word 0 commits the whole value and counts in WIN.STATUS; WIN.DOMAIN moves a value to a buffer, takes a part of one from
a buffer, and writes the whole value once its parts leave no gap. -/
def Obligations.WindowAccesses : Prop :=
  ∀ (s : State) (core : Fin 18) (a : BitVec 46) (v : W64) (d : BitVec 256),
    let w := getWin s core
    let runs := coresRun s = true
    let sub := waSub a
    let counted (w' : WinCore) (st : Byte) : Prop := w'.done = w.done + 1 ∧ w'.last = st ∧ w'.first = (if w.first = 0 then st else w.first)
    let ends (i : Instr) (st : Byte) (p : State → Prop) : Prop := Goes (exec i s) fun t => t.status = st ∧ counted (getWin t core) st ∧ p t
    let nothing : State → Prop := fun t => t.tiles = s.tiles ∧ t.mod = s.mod ∧ t.regions = s.regions ∧ t.jobs = s.jobs
    let asked (op : Byte) : State := putWin s core { w with waits := [], domain := withOp d op.toNat &&& ~~~ (maskAt 256 64 64 ||| maskAt 256 8 16) }
    let moves := [(1, Instr.winDomainRead core d), (2, .winDomainWrite core d), (3, .winDomainCommit core d)]
    (¬ runs → exec (.windowLoad core a) s = .next s ∧ exec (.windowStoreStage core a v) s = .next s ∧ exec (.windowStoreCommit core a v) s = .next s
        ∧ ∀ m ∈ moves, exec m.2 s = .next s)
    ∧ (runs → w.waits = [] →
      (∀ s2 bs, waWord a = 0 → slotValue (putWin s core { w with waits := [] }) a = (s2, bs) → s2.win = (putWin s core { w with waits := [] }).win →
          Goes (exec (.windowLoad core a) s) fun t => (getWin t core).loaded = BitVec.ofNat 64 (leNat (bs.take 8))
            ∧ mget [] (getWin t core).caps (waSlot a) = bs ∧ t.tiles = s2.tiles)
      ∧ (waWord a ≠ 0 → Goes (exec (.windowLoad core a) s) fun t => nothing t
          ∧ (getWin t core).loaded = BitVec.ofNat 64 (leNat (((mget [] w.caps (waSlot a)).drop (8 * waWord a)).take 8)))
      ∧ (waWord a = 0 → exec (.windowStoreStage core a v) s = .next s) ∧ (waWord a ≠ 0 → exec (.windowStoreCommit core a v) s = .next s)
      ∧ (waWord a ≠ 0 → slotClosed a = true → ends (.windowStoreStage core a v) stAccess nothing)
      ∧ (waWord a ≠ 0 → slotClosed a = false → Goes (exec (.windowStoreStage core a v) s) fun t => nothing t ∧ t.status = s.status
          ∧ (getWin t core).stageSlot = waSlot a ∧ (waWord a, v) ∈ (getWin t core).stage ∧ (getWin t core).done = w.done)
      ∧ (waWord a = 0 → waIndex a ≠ 0x1F00 → waIndex a ≠ 0x1F01 →
        (∀ c, regAt (waIndex a) sub = .error c → ends (.windowStoreCommit core a v) c fun t => nothing t ∧ (getWin t core).stage = [])
        ∧ (slotClosed a = true → ends (.windowStoreCommit core a v) stAccess nothing)
        ∧ (∀ e s2 st, regAt (waIndex a) sub = .ok e → slotClosed a = false → w.stage = [] → (regInfo e).size ≤ 8 →
            regWrite (.core core) (waIndex a) sub (waInst a) e v.toNat (putWin s core { w with waits := [], stage := [], stageSlot := 0 }) = (s2, st) →
            s2.win = (putWin s core { w with waits := [], stage := [], stageSlot := 0 }).win → st ≠ 0 ∨ lateBusy s2 e = false →
            ends (.windowStoreCommit core a v) st fun t => t.tiles = s2.tiles ∧ t.mod = s2.mod ∧ t.regions = s2.regions ∧ t.power = s2.power ∧ t.jobs = s2.jobs))
      ∧ (∀ m ∈ moves, wdBuf d % 64 ≠ 0 → ends m.2 stInvalid nothing)
      ∧ (∀ m ∈ moves, wdBuf d % 64 = 0 → bufferOk core (wdBuf d) (wdLen d) = false → ends m.2 stWorld nothing)
      ∧ (wdBuf d % 64 = 0 → bufferOk core (wdBuf d) (wdLen d) = true →
        (∀ c, regAt (wdIndex d).toNat (wdSub d).toNat = .error c → ∀ m ∈ moves, ends m.2 c nothing)
        ∧ (∀ e c, regAt (wdIndex d).toNat (wdSub d).toNat = .ok e → partRefusal s d e = some c →
            ends (.winDomainWrite core d) c nothing ∧ ends (.winDomainCommit core d) c nothing)
        ∧ (∀ e p rest bs s2, regAt (wdIndex d).toNat (wdSub d).toNat = .ok e → partRefusal s d e = none → copiesOf s (wdBuf d) false = p :: rest →
            hbmLoad (putWin s core { w with waits := [], domain := withOp d 2 &&& ~~~ (maskAt 256 64 64 ||| maskAt 256 8 16) }) p (wdLen d) none = (s2, bs, 0) →
            s2.win = (putWin s core { w with waits := [], domain := withOp d 2 &&& ~~~ (maskAt 256 64 64 ||| maskAt 256 8 16) }).win → s2.mgmt = s.mgmt →
            ends (.winDomainWrite core d) 0 fun t => nothing t ∧ mget [] (partsOf t d) (wdOffset d) = bs)
        ∧ (∀ e s1 bs s2 st, regAt (wdIndex d).toNat (wdSub d).toNat = .ok e → readHeld s e = false →
            moveValue (asked 1) e (wdInst d).toNat = (s1, .ok bs) → bufferPut s1 (wdBuf d) ((bs.drop (wdOffset d)).take (wdLen d)) = (s2, st) → s2.win = (asked 1).win →
            ends (.winDomainRead core d) st fun t => t.hbm = s2.hbm ∧ t.tiles = s2.tiles ∧ t.sec = s2.sec)
        ∧ (∀ e s1, regAt (wdIndex d).toNat (wdSub d).toNat = .ok e → movePart (asked 3) (withOp d 3) e = (s1, 0) → s1.win = (asked 3).win →
          (assemble (wdOffset d + wdLen d) (partsOf s1 d) = none → ends (.winDomainCommit core d) stSegment fun t => t.tiles = s1.tiles ∧ t.jobs = s1.jobs)
          ∧ (∀ bs s2 st, assemble (wdOffset d + wdLen d) (partsOf s1 d) = some bs →
              (if isDomain e then domainPut e (wdInst d).toNat bs (setMgmt s1 fun g => { g with parts := otherParts s1 d })
                else entryPut (.core core) (wdIndex d).toNat (wdSub d).toNat (wdInst d).toNat bs (setMgmt s1 fun g => { g with parts := otherParts s1 d })) = (s2, st) →
              s2.win = (asked 3).win → st ≠ 0 ∨ lateBusy s2 e = false →
              ends (.winDomainCommit core d) st fun t => t.tiles = s2.tiles ∧ t.jobs = s2.jobs ∧ t.regions = s2.regions ∧ t.fw.appImage = s2.fw.appImage))))

/-- R9-R11, R482, R518, R521: a write of an entry that no index and subindex names, that takes no write, or that the non-secure world may not
write, changes nothing but the log; one of ERR.CFG and of TZ.LAND gives the register its new value. -/
def Obligations.RegisterWrites : Prop :=
  ∀ (s : State) (w : Writer) (index : W16) (sub : BitVec 8) (inst : W16) (v : BitVec 1024),
    let i := Instr.registerWrite w index sub inst v
    let answers (st : Byte) : Prop := exec i s = .next { s with status := st }
    (∀ c, regAt index.toNat sub.toNat = .error c → answers c)
    ∧ (∀ e, regAt index.toNat sub.toNat = .ok e →
      (∀ c, writeGate s e inst.toNat = some c → answers c)
      ∧ (writeGate s e inst.toNat = none → (regInfo e).secWrite = true → secureWriter w = false → Goes (exec i s) fun t =>
          t.status = stWorld ∧ t.tiles = s.tiles ∧ t.mod = s.mod ∧ t.regions = s.regions ∧ t.sec = s.sec ∧ t.net = s.net ∧ t.power = s.power ∧ t.jobs = s.jobs)
      ∧ (writeGate s e inst.toNat = none → e = .errCfg → (regInfo e).secWrite = false ∨ secureWriter w = true →
          Goes (exec i s) fun t => t.status = 0 ∧ t.log = { s.log with cfg := v.setWidth 32 &&& 0xE7FF0000 } ∧ t.tiles = s.tiles ∧ t.mod = s.mod)
      ∧ (writeGate s e inst.toNat = none → e = .land → (regInfo e).secWrite = false ∨ secureWriter w = true →
          Goes (exec i s) fun t => t.status = 0 ∧ landReg t (inst.setWidth 8) = v.setWidth 32
            ∧ ∀ u, u ≠ inst.setWidth 8 → landReg t u = landReg s u))

/-! ## Power and temperature -/

/-- R438, R447, R549, R551, R552, R555-R557, R569: START from STANDBY waits in RAMP while the input is low, and otherwise ends READY with MOD_PGOOD, or FAILED; STANDBY holds
its dies while no job is loaded; the power and thermal settings keep their order; the input low, lost, too high or in range again, a rail out of and back in regulation, and a phase shed. -/
def Obligations.PowerCommands : Prop :=
  ∀ (s : State) (w : Writer) (v : W32) (f : StartFound) (vin : W16) (rail : Fin 29) (phase : BitVec 4),
    let answers (i : Instr) (st : Byte) : Prop := exec i s = .next { s with status := st }
    let g := s.power
    let r := rail.val
    let x := getRail s r
    let loaded := jobs4.any (fun j => decide ((getJob s j).st ≠ .unloaded))
    let inRange := 3200 ≤ vin.toNat ∧ vin.toNat ≤ 4000
    let up := s.mod.resetN = true ∧ 1 ≤ s.mod.step.toNat
    let gone (t : State) : Prop := t.tiles = [] ∧ t.hbm = [] ∧ t.jobs = [] ∧ t.mod.st = .boot ∧ t.mod.resetN = s.mod.resetN ∧ t.flash = s.flash ∧ t.power.pgood = false
      ∧ t.power.vin.toNat ≤ 3000 ∧ t.pending = s.pending
    let cap := fldN v 21 11
    let peak := fldN v 10 11
    let sheds := bitAt (railGood r x) phase.toNat = true ∧ x.st ≠ 0
    (¬ (g.st = 1 ∧ s.mod.st = .standby) → answers (.powerStart w f) 0)
    ∧ (g.st = 1 → s.mod.st = .standby → g.vin.toNat < 3200 → Goes (exec (.powerStart w f) s) fun t =>
        t.status = 0 ∧ t.mod.st = .ramp ∧ t.power.st = 2 ∧ t.power.paused = true)
    ∧ (g.st = 1 → s.mod.st = .standby → 3200 ≤ g.vin.toNat → Goes (exec (.powerStart w f) s) fun t =>
        t.status = 0 ∧ (t.mod.st = .failed ∨ t.mod.st = .ready ∧ t.mod.step = 8 ∧ t.power.st = 3 ∧ t.power.pgood = true))
    ∧ (g.st = 1 → s.mod.st = .standby → 3200 ≤ g.vin.toNat → f.baseDiesOk = false ∨ f.refOk = false → Goes (exec (.powerStart w f) s) fun t =>
        t.status = 0 ∧ t.mod.st = .failed)
    ∧ (loaded = true → answers (.powerStandby w) stCfgBusy)
    ∧ (loaded = false → g.st = 1 → answers (.powerStandby w) 0)
    ∧ (loaded = false → g.st ≠ 1 → Goes (exec (.powerStandby w) s) fun t => t.status = 0 ∧ t.mod.st = .standby ∧ t.power.st = 1 ∧ t.power.pgood = false
        ∧ t.tiles = [] ∧ t.hbm = [] ∧ t.net.blocks = [] ∧ (∀ d, d < 12 → diePresent s d = true → (getDie t d).st = .held) ∧ ∀ p, p < 24 → (getPort t p).st = .off)
    ∧ (let ok := 100 ≤ cap ∧ cap ≤ 680 ∧ cap ≤ peak ∧ peak ≤ 760
       (¬ ok → answers (.powerCfgWrite w v) stInvalid)
       ∧ (ok → exec (.powerCfgWrite w v) s = .next { s with power := { g with cfg := v &&& 0xFFFFFE00 }, status := 0 }))
    ∧ (let ok := fldN v 24 8 < fldN v 16 8 ∧ fldN v 16 8 < fldN v 8 8 ∧ fldN v 8 8 ≤ 115
       (secureWriter w = false → Goes (exec (.thermCfgWrite w v) s) fun t => t.status = stWorld ∧ t.power.therm = g.therm)
       ∧ (secureWriter w = true → ¬ ok → answers (.thermCfgWrite w v) stInvalid)
       ∧ (secureWriter w = true → ok → exec (.thermCfgWrite w v) s = .next { s with power := { g with therm := v &&& 0xFFFFFF00 }, status := 0 }))
    ∧ (¬ (up ∧ 2900 < vin.toNat ∧ vin.toNat < 3200) → exec (.inputLow vin) s = .next s)
    ∧ (up → 2900 < vin.toNat → vin.toNat < 3200 → Goes (exec (.inputLow vin) s) fun t => t.power = { g with vin, alertSrc := g.alertSrc ||| 1 } ∧ t.tiles = s.tiles)
    ∧ Goes (exec .uvloFall s) gone
    ∧ (¬ up → Goes (exec (.inputOvervoltage true) s) gone) ∧ Goes (exec (.inputOvervoltage false) s) gone
    ∧ (up → Goes (exec (.inputOvervoltage true) s) fun t => t.mod.st = .failed ∧ t.power.pgood = false ∧ t.log.flashFatal.length ≤ 16)
    ∧ (¬ inRange → exec (.inputInRange vin f) s = .next s)
    ∧ (inRange → s.mod.resetN = false ∨ s.mod.st ≠ .boot ∨ s.mod.step ≠ 0 → g.paused = false → exec (.inputInRange vin f) s = .next { s with power := { g with vin } })
    ∧ (inRange → s.mod.resetN = true → s.mod.st = .boot → s.mod.step = 0 →
      (f.katOk = false → Goes (exec (.inputInRange vin f) s) fun t => t.mod.st = .failed)
      ∧ (f.katOk = true → f.pufOk = true → f.monoOk = true → f.badRecords = [] → slotBoots s f s.fw.slot = true → s.mod.autostart = false →
          Goes (exec (.inputInRange vin f) s) fun t => t.mod.st = .standby ∧ t.power.vin = vin ∧ t.fw.standby = 1 ∧ t.regions = bootRegions))
    ∧ (x.st ≠ 2 → exec (.railExcursion rail) s = .next s)
    ∧ (x.st = 2 → r < 24 → Goes (exec (.railExcursion rail) s) fun t => (getRail t r).st = 3
        ∧ (dieReady s (r % 12) = true → (getDie t (r % 12)).st = .held ∧ (getDie t (r % 12)).cause = 4))
    ∧ (x.st = 2 → 24 ≤ r → r < 28 → Goes (exec (.railExcursion rail) s) fun t => t.mod.st = .failed)
    ∧ (x.st = 2 → r = 28 → Goes (exec (.railExcursion rail) s) gone)
    ∧ (x.st ≠ 3 → exec (.railRegulationReturn rail) s = .next s)
    ∧ (x.st = 3 → exec (.railRegulationReturn rail) s = .next (putRail s r { x with st := 2, backAt := some s.mod.time }))
    ∧ (¬ sheds → exec (.phaseFault rail phase) s = .next s)
    ∧ (sheds → Goes (exec (.phaseFault rail phase) s) fun t => let y := { x with shed := setFld x.shed phase.toNat 1 1, on := setFld x.on phase.toNat 1 0 }
        getRail t r = y ∧ (popCount (railGood r y) < railNeeded r → bitAt t.power.alertSrc 1 = true))

/-- R431, R558-R563: an evaluation keeps each half's limit the slower of its thermal and power limits, lets the power limit rise or fall by at most one
step, and sets the scale once the peak allowance is empty; a sample sets the thermal limit of each half from its sensor, and trips a die. -/
def Obligations.BudgetsAndTemperatures : Prop :=
  ∀ (s : State) (iin pin pFixed : W16) (demand : List (Nat × Nat)) (dies : List (Byte × Byte × Byte)) (control : Byte),
    let g := s.power
    let p := 1000 * pin.toNat
    let near (a b : BitVec 2) : Prop := a = b ∨ a.toNat = b.toNat + 1 ∨ a.toNat + 1 = b.toNat
    let slower (h : Half) : BitVec 2 := if h.thermal.toNat < h.power.toNat then h.power else h.thermal
    (g.st ≠ 3 → exec (.budgetEval iin pin pFixed demand) s = .next s ∧ exec (.thermalSample dies control) s = .next s)
    ∧ (g.st = 3 → Goes (exec (.budgetEval iin pin pFixed demand) s) fun t =>
        t.power.iin = iin ∧ t.power.pin = pin ∧ t.tiles = s.tiles ∧ t.net = s.net
        ∧ t.power.allowance = (if pEff s < p then g.allowance - (p - pEff s) else min (allowSize s) (g.allowance + (pEff s - p)))
        ∧ (t.power.scaled = true ↔ t.power.allowance = 0 ∧ pEff s < p)
        ∧ (p ≤ pPeak s → ∀ i, getHalf t i = getHalf s i ∨ near (getHalf t i).power (getHalf s i).power
            ∧ (getHalf t i).step = (getHalf s i).step ∧ (getHalf t i).thermal = (getHalf s i).thermal
            ∧ ((getHalf t i).limit = slower (getHalf t i) ∨ (getHalf t i).limit = (getHalf s i).limit ∧ (getHalf t i).power = (getHalf s i).power)))
    ∧ (∀ a b m, g.st = 3 → (List.range 12).filter (diePresent s) = [2] → dies[2]? = some (a, b, m) → control.toNat ≤ 110 → max a.toNat b.toNat < fldN g.therm 8 8 →
        Goes (exec (.thermalSample dies control) s) fun t =>
          (getHalf t 4).thermal = thermalStep s (getHalf s 4).thermal a.toNat ∧ (getHalf t 5).thermal = thermalStep s (getHalf s 5).thermal b.toNat
          ∧ (getHalf t 4).limit = slower (getHalf t 4) ∧ (getHalf t 5).limit = slower (getHalf t 5)
          ∧ (getStack t 2).halfRate = decide (95 < m.toNat) ∧ (getDie t 2).st = (getDie s 2).st ∧ t.tiles = s.tiles ∧ t.net = s.net)
    ∧ (∀ a b m, g.st = 3 → (List.range 12).filter (diePresent s) = [2] → dies[2]? = some (a, b, m) → control.toNat ≤ 110 → fldN g.therm 8 8 ≤ max a.toNat b.toNat →
        dieReady s 2 = true → Goes (exec (.thermalSample dies control) s) fun t => (getDie t 2).st = .held ∧ (getDie t 2).cause = 6 ∧ (getDie t 2).tripped = true
          ∧ bitAt t.power.alertSrc 3 = true)
    ∧ (g.st = 3 → (List.range 12).filter (diePresent s) = [] → 110 < control.toNat → Goes (exec (.thermalSample dies control) s) fun t => t.mod.st = .failed)

/-! ## The whole machine -/

/-- R8, R9, R11: every command answers a next state, whatever the state, but one of a tile that the module does not have, which answers the fault of
log entry 2. Of one command of each kind that names a tile: with the tile present it answers a next state, without it the fault. -/
def Obligations.EveryCommandAnswers : Prop :=
  ∀ (c : Instr) (s : State),
    ((∃ t, exec c s = .next t) ∨ exec c s = .fault .noSuchTile)
    ∧ ∀ (h : SlotHdr) (g : BitVec 5) (a : VArg) (e : EngArg) (ch : BitVec 4) (u : EngUnit),
      ∀ i ∈ [Instr.add h g g g, .li h g 0, .jr h g 0, .ld h 0 g g 0, .nop h, .vadd h a, .vld h ch g 0, .chset h ch g, .wait h g ch g 0, .press h e, .exch h g,
          .haltRetire h.tile, .waitRelease h.tile, .pressStart h.tile, .engineSlotResume h.tile u, .pressComplete h.tile, .folioEntryIssue h.tile,
          .contextSwitch h.tile],
        (tilePresent s h.tile = false → exec i s = .fault .noSuchTile) ∧ (tilePresent s h.tile = true → ∃ t, exec i s = .next t)

/-- The bytes of the stacks stay in the canonical form that the model keeps memory in (addresses rising, no byte listed that reads as an unlisted one does) under every command, and no
command touches the queue that step takes it from. -/
def Obligations.MemoryStaysCanonical : Prop :=
  ∀ (c : Instr) (s t : State), exec c s = .next t → t.pending = s.pending ∧ (hbmWf s = true → hbmWf t = true)

/-- R494, R500, R501, R509: no step lowers a counter of the monotonic region: the four security version numbers, KEY_REVOKE and OWNER_GEN. -/
def Obligations.MonotonicCountersNeverFall : Prop :=
  ∀ s t : State, step s = .next t →
    s.sec.svnIsland.toNat ≤ t.sec.svnIsland.toNat ∧ s.sec.svnMgmt.toNat ≤ t.sec.svnMgmt.toNat ∧ s.sec.svnDiectl.toNat ≤ t.sec.svnDiectl.toNat
    ∧ s.sec.svnApp.toNat ≤ t.sec.svnApp.toNat ∧ s.sec.keyRevoke.toNat ≤ t.sec.keyRevoke.toNat ∧ s.sec.ownerGen.toNat ≤ t.sec.ownerGen.toNat

/-- The state after module reset: the memory in canonical form, no command waiting, and the values that the spec gives: R48, R86, R106, R134, R150, R192,
R196, R243, R257, R289, R308, R327, R331, R353, R358, R393, R399, R415, R425, R441, R443, R446, R461, R465, R469, R531, R544, R569. -/
def Obligations.ResetState : Prop :=
  let s := State.reset
  hbmWf s = true ∧ spadWf s = true ∧ s.pending = []
  ∧ s.mod.st = .boot ∧ s.mod.time = 0 ∧ s.mod.meshCfg = 0x00400000 ∧ s.mod.waitCfg = 0x00108000 ∧ s.mod.switchCfg = 0x00A00000 ∧ s.mod.nodeCfg = 0x00A00007
  ∧ s.mod.rocePeriod = 50 ∧ s.mod.roceRise = 1000 ∧ s.mod.roceFloor = 100
  ∧ (∀ t : W16, (getTile s t).regs.pressCtrl = 3 ∧ (getTile s t).regs.share = 0 ∧ (getTile s t).fenced = false
      ∧ ∀ j, (ctxOf s t j).st = .empty ∧ (ctxOf s t j).waitLimit = 1000 ∧ (ctxOf s t j).yieldReg = 1 ∧ (ctxOf s t j).excCause = 0)
  ∧ (∀ t : W16, ∀ n, (getAcnt (getTile s t) n).enable = false ∧ (getAcnt (getTile s t) n).value = 0 ∧ (getSlot (getTile s t) n).cfg = 0x0FFFFFFC00000000
      ∧ (getHq (getTile s t) n).cfg = 0)
  ∧ (∀ d, (getDie s d).st = .absent ∧ (getDie s d).cfg = 0xB0000064 ∧ (getDie s d).stream.cfg = 0x00640064 ∧ (getStack s d).cfg = 0x00000C10
      ∧ (getStack s d).st = .training ∧ (∀ r, (getReach (getDie s d) r).cfg = 0x0000000100000000) ∧ (∀ q, (getStq (getDie s d) q).st = .disabled)
      ∧ ∀ w, (getWeir (getDie s d) w).epoch = 0 ∧ (getWeir (getDie s d) w).cfg = 0)
  ∧ (∀ p, (getPort s p).st = .off ∧ fldN (getPort s p).cfg 22 6 = 16 ∧ fldN (getPort s p).cfg 16 6 = 16 ∧ fldN (getPort s p).cfg 10 6 = 16)
  ∧ (∀ r, (getMr s r).reg = 0x001FFFE000000000) ∧ (∀ e, (getEdge s e).st = 0)
  ∧ (∀ j, (getJob s j).st = .unloaded ∧ (getJob s j).regs.trnRoot = 0) ∧ s.gather.cfg = 0x0064320A
  ∧ (∀ w, (getWatch s w).cfg = 0x0F432000 ∧ (getWatch s w).exp = 0x8080 ∧ (getWatch s w).satAlarm = 4096)
  ∧ s.log.cfg = 0xC2010000 ∧ s.log.recs = [] ∧ s.log.head = 0 ∧ s.log.tail = 0 ∧ s.power.cfg = 0x550BE200 ∧ s.power.st = 1 ∧ s.power.allow = 100
  ∧ s.power.alertMask = 0x2F ∧ s.power.therm = 0x5F646E00 ∧ s.mgmt.evPort = 53216 ∧ s.mgmt.evMinSev = 1 ∧ s.mgmt.evMask = 0x7F ∧ s.fw.active = false

/-- R9, R331, R340, R356, R424, R431, R473, R485, R509, R511, R527, R553, R569: the commands listed here, of the ports (a flit with an error), edges (a link that trains), clocks, firmware, security, the test port, the
management port and power, leave every tile, every byte of the stacks, every job, publication, watch entry, loss monitor and gathering register as they were, with their error records. -/
def Obligations.ControlCommandsLeaveData : Prop :=
  ∀ (s t : State) (w : Writer) (p : Fin 24) (lane : Fin 8) (n : Nat) (why : FlitFault) (f : Flit) (k : BitVec 2) (v : W32) (v64 : W64) (q : BitVec 12)
    (r : BitVec 10) (bytes : List Byte) (a b : Byte) (die : Fin 12) (half : Bool) (edge : Fin 16) (link : Fin 24) (x y : Bool) (found : Option (List (Fin 24))) (core : Fin 16)
    (img : Image) (e : BitVec 6) (e128 : BitVec 128)
    (tok : Token) (nonce : BitVec 256) (i16 n16 : W16) (sub : BitVec 8) (m : IcmpMsg) (rail : Fin 29) (phase : BitVec 4) (demand : List (Nat × Nat)),
    ∀ c ∈ [Instr.portCfgWrite w p v, .portStart w p, .retrain w p, .laneLockLoss p lane, .trainingFrameReceive p, .tzFlitReceive p ⟨n, some why⟩ f, .tzAckTimer p,
        .tzReplayTimeout p, .tzReplaySummary p, .tzPeerWrite w k v, .cnpReceive q, .roceRateRecovery q, .ethFrameReceive p x y bytes, .roceMrWrite w r k v64,
        .priorityFlowControl p a b, .clockStepChange die half, .edgeRetrain w edge found, .d2dLinkLockLoss edge link false true, .mgmtCheckpoint,
        .mgmtWatchdog, .handover w img, .commit w, .revert w, .probationEnd, .appWatchdog core, .regionWrite w e e128, .tokenClaim tok, .tokenRotate tok,
        .tokenDecommission tok, .challengeRead, .challengeExpire, .lockoutEnd, .attestNonceWrite nonce, .attestReportReady, .imageStage w img, .appCommit w v,
        .jtagBypass sub, .jtagIdcode, .jtagSamplePreload v64 v64, .jtagExtest, .segTransferTimeout i16 sub n16, .snapshotExpire i16 sub n16, .eventAck i16,
        .eventResend i16, .responseCacheExpire, .plcaBeacon, .plcaBeaconTimeout, .dadRepeat x, .icmpv6Receive m, .droppedDatagram i16.toNat, .store w, .restore w,
        .powerCfgWrite w v, .thermCfgWrite w v, .railRegulationReturn rail, .phaseFault rail phase, .budgetEval i16 n16 i16 demand],
      exec c s = .next t → t.tiles = s.tiles ∧ t.hbm = s.hbm ∧ t.jobs = s.jobs ∧ t.pubs = s.pubs ∧ t.watches = s.watches ∧ t.losses = s.losses
        ∧ t.gather = s.gather
end

