-- ==== Sys2Proof/Laws/Memory.lean ====
section
/-!
SUPPORT. Laws of the sparse maps: a read after a write, every operation keeps the canonical form, and the bytes of scratchpads and stacks.
-/
namespace Sys2Proof.Machine
open Sys2Proof

variable {α : Type}

/-! ## A read after a write -/

theorem mget_merase (d : α) (m : SMap α) (k i : Nat) : mget d (merase m k) i = if i = k then d else mget d m i := by
  induction m with
  | nil => simp [merase, mget]
  | cons e t ih =>
    obtain ⟨a, x⟩ := e
    by_cases ha : a = k
    · have : merase ((a, x) :: t) k = merase t k := by simp [merase, ha]
      rw [this, ih]
      by_cases hi : i = k
      · simp [hi]
      · have : ¬ k = i := fun h => hi h.symm
        simp [hi, mget, ha, this]
    · have : merase ((a, x) :: t) k = (a, x) :: merase t k := by simp [merase, ha]
      rw [this]
      simp only [mget]
      by_cases hai : a = i
      · subst hai; simp [ha]
      · simp only [hai, if_false, ih]

theorem mget_mins (d : α) (m : SMap α) (k i : Nat) (v : α) (h : mget d m k = d ∧ ∀ e ∈ m, e.1 ≠ k) :
    mget d (mins k v m) i = if i = k then v else mget d m i := by
  induction m with
  | nil =>
    by_cases hi : i = k
    · subst hi; simp [mins, mget]
    · have : ¬ k = i := fun h => hi h.symm
      simp [mins, mget, hi, this]
  | cons e t ih =>
    obtain ⟨a, x⟩ := e
    have hak : a ≠ k := h.2 (a, x) (by simp)
    have ht : mget d t k = d ∧ ∀ e ∈ t, e.1 ≠ k := ⟨by simpa [mget, hak] using h.1, fun e he => h.2 e (by simp [he])⟩
    unfold mins
    by_cases hlt : k < a
    · simp only [hlt, if_true, mget]
      by_cases hi : i = k
      · simp [hi]
      · have : ¬ k = i := fun h => hi h.symm
        simp [hi, this]
    · simp only [hlt, if_false, mget]
      by_cases hai : a = i
      · subst hai; simp [hak]
      · simp [hai, ih ht]

theorem merase_fresh (m : SMap α) (k : Nat) : ∀ e ∈ merase m k, e.1 ≠ k := by
  intro e he
  simpa [merase] using (List.mem_filter.mp he).2

/-- A read after a write to the same key gives what was written; every other key reads as before. -/
theorem mget_mset [DecidableEq α] (d : α) (m : SMap α) (k i : Nat) (v : α) : mget d (mset d m k v) i = if i = k then v else mget d m i := by
  unfold mset
  by_cases hv : v = d
  · simp only [hv, if_true, mget_merase]
  · simp only [hv, if_false]
    rw [mget_mins]
    · by_cases hi : i = k
      · simp [hi]
      · simp [hi, mget_merase]
    · exact ⟨by simp [mget_merase], merase_fresh m k⟩

@[simp] theorem mget_mset_same [DecidableEq α] (d : α) (m : SMap α) (k : Nat) (v : α) : mget d (mset d m k v) k = v := by simp [mget_mset]

theorem mget_mset_other [DecidableEq α] (d : α) (m : SMap α) {k i : Nat} (v : α) (h : i ≠ k) : mget d (mset d m k v) i = mget d m i := by simp [mget_mset, h]

/-! ## The canonical form -/

theorem mwfFrom_mono [DecidableEq α] {d : α} {lo lo' : Nat} {m : SMap α} (hl : lo' ≤ lo) (h : mwfFrom d lo m = true) : mwfFrom d lo' m = true := by
  cases m with
  | nil => rfl
  | cons e t =>
    obtain ⟨a, x⟩ := e
    simp only [mwfFrom, Bool.and_eq_true, decide_eq_true_eq] at h ⊢
    exact ⟨⟨by omega, h.1.2⟩, h.2⟩

/-- The keys of a canonical map lie at or above its bound. -/
theorem mwfFrom_keys [DecidableEq α] {d : α} {lo : Nat} {m : SMap α} (h : mwfFrom d lo m = true) : ∀ e ∈ m, lo ≤ e.1 := by
  induction m generalizing lo with
  | nil => intro e he; cases he
  | cons e t ih =>
    obtain ⟨a, x⟩ := e
    simp only [mwfFrom, Bool.and_eq_true, decide_eq_true_eq] at h
    intro e he
    rcases List.mem_cons.mp he with rfl | he
    · exact h.1.1
    · have := ih h.2 e he; omega

theorem mwfFrom_filter [DecidableEq α] {d : α} {lo : Nat} {m : SMap α} (p : Nat × α → Bool) (h : mwfFrom d lo m = true) : mwfFrom d lo (m.filter p) = true := by
  induction m generalizing lo with
  | nil => rfl
  | cons e t ih =>
    obtain ⟨a, x⟩ := e
    simp only [mwfFrom, Bool.and_eq_true, decide_eq_true_eq] at h
    by_cases hp : p (a, x) = true
    · simp only [List.filter_cons, hp, if_true, mwfFrom, Bool.and_eq_true, decide_eq_true_eq]
      exact ⟨h.1, ih h.2⟩
    · simp only [List.filter_cons, hp]
      exact mwfFrom_mono (by omega) (ih h.2)

theorem mwfFrom_mins [DecidableEq α] {d : α} {lo k : Nat} {v : α} {m : SMap α} (hv : v ≠ d) (hk : lo ≤ k) (hf : ∀ e ∈ m, e.1 ≠ k)
    (h : mwfFrom d lo m = true) : mwfFrom d lo (mins k v m) = true := by
  induction m generalizing lo with
  | nil => simp [mins, mwfFrom, hv, hk]
  | cons e t ih =>
    obtain ⟨a, x⟩ := e
    simp only [mwfFrom, Bool.and_eq_true, decide_eq_true_eq] at h
    have hak : a ≠ k := hf (a, x) (by simp)
    unfold mins
    by_cases hlt : k < a
    · simp only [hlt, if_true, mwfFrom, Bool.and_eq_true, decide_eq_true_eq]
      exact ⟨⟨hk, hv⟩, ⟨⟨by omega, h.1.2⟩, h.2⟩⟩
    · simp only [hlt, if_false, mwfFrom, Bool.and_eq_true, decide_eq_true_eq]
      exact ⟨⟨h.1.1, h.1.2⟩, ih (by omega) (fun e he => hf e (by simp [he])) h.2⟩

/-- A write keeps the canonical form. -/
theorem mwf_mset [DecidableEq α] {d : α} {m : SMap α} (k : Nat) (v : α) (h : mwf d m = true) : mwf d (mset d m k v) = true := by
  unfold mwf mset
  have he : mwfFrom d 0 (merase m k) = true := mwfFrom_filter _ h
  by_cases hv : v = d
  · simpa [hv] using he
  · simpa [hv] using mwfFrom_mins hv (Nat.zero_le k) (merase_fresh m k) he

theorem mwf_filter [DecidableEq α] {d : α} {m : SMap α} (p : Nat × α → Bool) (h : mwf d m = true) : mwf d (m.filter p) = true := mwfFrom_filter p h

/-! ## Byte memories -/

/-- A byte of memory after bytes are stored: the stored one inside the range, the old one outside it. -/
theorem mget_wrBytes (m : SMap Byte) (a i : Nat) (bs : List Byte) :
    mget 0 (wrBytes m a bs) i = if a ≤ i ∧ i < a + bs.length then bs.getD (i - a) 0 else mget 0 m i := by
  induction bs generalizing m a with
  | nil => rw [if_neg (by simp only [List.length_nil]; omega)]; rfl
  | cons b t ih =>
    simp only [wrBytes, ih, List.length_cons, mget_mset]
    by_cases h1 : i = a
    · rw [if_neg (by omega), if_pos h1, if_pos (by omega), h1, Nat.sub_self]; rfl
    · by_cases h2 : a + 1 ≤ i ∧ i < a + 1 + t.length
      · have h4 : i - a = (i - (a + 1)) + 1 := by omega
        rw [if_pos h2, if_pos (by omega), h4, List.getD_cons_succ]
      · rw [if_neg h2, if_neg h1, if_neg (by omega)]

theorem mwf_wrBytes {m : SMap Byte} (a : Nat) (bs : List Byte) (h : mwf 0 m = true) : mwf 0 (wrBytes m a bs) = true := by
  induction bs generalizing m a with
  | nil => exact h
  | cons b t ih => exact ih (a + 1) (mwf_mset a b h)

theorem mwf_wrBytesBut {bad : List Nat} {m : SMap Byte} (a : Nat) (bs : List Byte) (h : mwf 0 m = true) :
    mwf 0 (wrBytesBut bad m a bs) = true := by
  induction bs generalizing m a with
  | nil => exact h
  | cons b t ih =>
    unfold wrBytesBut
    by_cases hb : bad.contains (a / 8) = true
    · rw [if_pos hb]; exact ih (a + 1) h
    · rw [if_neg hb]; exact ih (a + 1) (mwf_mset a b h)

/-- The scratchpad of a tile keeps its canonical form under a write. -/
theorem spadWriteTile_wf {x : Tile} (a : Nat) (bs : List Byte) (h : mwf 0 x.spad = true) : mwf 0 (spadWriteTile x a bs).spad = true := by
  unfold spadWriteTile
  by_cases hb : (badMerges x a bs.length).isEmpty = true
  · simpa [hb] using mwf_wrBytes a bs h
  · simpa [hb] using mwf_wrBytesBut a bs h

/-- A scratchpad write that no half-covered double-bit word refuses changes its own bytes and no others. -/
theorem spadWriteTile_byte {x : Tile} {a : Nat} {bs : List Byte} (i : Nat) (h : badMerges x a bs.length = []) :
    mget 0 (spadWriteTile x a bs).spad i = if a ≤ i ∧ i < a + bs.length then bs.getD (i - a) 0 else mget 0 x.spad i := by
  simp only [spadWriteTile, h, List.isEmpty_nil, if_true, mget_wrBytes]

/-- Bytes outside the range of a scratchpad write read as before, whatever words of it are bad. -/
theorem spadWriteTile_outside {x : Tile} {a i : Nat} {bs : List Byte} (h : i < a ∨ a + bs.length ≤ i) :
    mget 0 (spadWriteTile x a bs).spad i = mget 0 x.spad i := by
  have key : ∀ (bad : List Nat) (bs : List Byte) (m : SMap Byte) (a : Nat), (i < a ∨ a + bs.length ≤ i) →
      mget 0 (wrBytesBut bad m a bs) i = mget 0 m i := by
    intro bad bs
    induction bs with
    | nil => intro m a _; rfl
    | cons b t ih =>
      intro m a h
      simp only [List.length_cons] at h
      unfold wrBytesBut
      rw [ih _ _ (by omega)]
      by_cases hb : bad.contains (a / 8) = true
      · rw [if_pos hb]
      · rw [if_neg hb, mget_mset_other]
        omega
  unfold spadWriteTile
  by_cases hb : (badMerges x a bs.length).isEmpty = true
  · simp only [hb, if_true, mget_wrBytes]
    rw [if_neg (by omega)]
  · simp only [hb]
    rw [if_neg (by decide)]
    exact key _ _ _ _ h

end Sys2Proof.Machine
end

