-- ==== Sys2Proof/Laws/State.lean ====
section
/-!
SUPPORT. What each named update of State leaves and sets: one lemma per update and field, true by rfl.
-/
namespace Sys2Proof.Laws
open Sys2Proof Sys2Proof.Machine

variable (s : State)

section putTile
variable (t : W16) (x : Tile)

@[simp] theorem putTile_pending : (putTile s t x).pending = s.pending := rfl
@[simp] theorem putTile_mod : (putTile s t x).mod = s.mod := rfl
@[simp] theorem putTile_log : (putTile s t x).log = s.log := rfl
@[simp] theorem putTile_halves : (putTile s t x).halves = s.halves := rfl
@[simp] theorem putTile_dies : (putTile s t x).dies = s.dies := rfl
@[simp] theorem putTile_hbmStacks : (putTile s t x).hbmStacks = s.hbmStacks := rfl
@[simp] theorem putTile_hbm : (putTile s t x).hbm = s.hbm := rfl
@[simp] theorem putTile_net : (putTile s t x).net = s.net := rfl
@[simp] theorem putTile_gather : (putTile s t x).gather = s.gather := rfl
@[simp] theorem putTile_jobs : (putTile s t x).jobs = s.jobs := rfl
@[simp] theorem putTile_pubs : (putTile s t x).pubs = s.pubs := rfl
@[simp] theorem putTile_watches : (putTile s t x).watches = s.watches := rfl
@[simp] theorem putTile_losses : (putTile s t x).losses = s.losses := rfl
@[simp] theorem putTile_regions : (putTile s t x).regions = s.regions := rfl
@[simp] theorem putTile_win : (putTile s t x).win = s.win := rfl
@[simp] theorem putTile_mgmt : (putTile s t x).mgmt = s.mgmt := rfl
@[simp] theorem putTile_fw : (putTile s t x).fw = s.fw := rfl
@[simp] theorem putTile_sec : (putTile s t x).sec = s.sec := rfl
@[simp] theorem putTile_jtag : (putTile s t x).jtag = s.jtag := rfl
@[simp] theorem putTile_power : (putTile s t x).power = s.power := rfl
@[simp] theorem putTile_flash : (putTile s t x).flash = s.flash := rfl
@[simp] theorem putTile_status : (putTile s t x).status = s.status := rfl
@[simp] theorem putTile_owed : (putTile s t x).owed = s.owed := rfl
@[simp] theorem putTile_freeCtr : (putTile s t x).freeCtr = s.freeCtr := rfl

end putTile

section modTile
variable (t : W16) (f : Tile → Tile)

@[simp] theorem modTile_pending : (modTile s t f).pending = s.pending := rfl
@[simp] theorem modTile_mod : (modTile s t f).mod = s.mod := rfl
@[simp] theorem modTile_log : (modTile s t f).log = s.log := rfl
@[simp] theorem modTile_halves : (modTile s t f).halves = s.halves := rfl
@[simp] theorem modTile_dies : (modTile s t f).dies = s.dies := rfl
@[simp] theorem modTile_hbmStacks : (modTile s t f).hbmStacks = s.hbmStacks := rfl
@[simp] theorem modTile_hbm : (modTile s t f).hbm = s.hbm := rfl
@[simp] theorem modTile_net : (modTile s t f).net = s.net := rfl
@[simp] theorem modTile_gather : (modTile s t f).gather = s.gather := rfl
@[simp] theorem modTile_jobs : (modTile s t f).jobs = s.jobs := rfl
@[simp] theorem modTile_pubs : (modTile s t f).pubs = s.pubs := rfl
@[simp] theorem modTile_watches : (modTile s t f).watches = s.watches := rfl
@[simp] theorem modTile_losses : (modTile s t f).losses = s.losses := rfl
@[simp] theorem modTile_regions : (modTile s t f).regions = s.regions := rfl
@[simp] theorem modTile_win : (modTile s t f).win = s.win := rfl
@[simp] theorem modTile_mgmt : (modTile s t f).mgmt = s.mgmt := rfl
@[simp] theorem modTile_fw : (modTile s t f).fw = s.fw := rfl
@[simp] theorem modTile_sec : (modTile s t f).sec = s.sec := rfl
@[simp] theorem modTile_jtag : (modTile s t f).jtag = s.jtag := rfl
@[simp] theorem modTile_power : (modTile s t f).power = s.power := rfl
@[simp] theorem modTile_flash : (modTile s t f).flash = s.flash := rfl
@[simp] theorem modTile_status : (modTile s t f).status = s.status := rfl
@[simp] theorem modTile_owed : (modTile s t f).owed = s.owed := rfl
@[simp] theorem modTile_freeCtr : (modTile s t f).freeCtr = s.freeCtr := rfl

end modTile

section modCtx
variable (t : W16) (j : BitVec 2) (f : Ctx → Ctx)

@[simp] theorem modCtx_pending : (modCtx s t j f).pending = s.pending := rfl
@[simp] theorem modCtx_mod : (modCtx s t j f).mod = s.mod := rfl
@[simp] theorem modCtx_log : (modCtx s t j f).log = s.log := rfl
@[simp] theorem modCtx_halves : (modCtx s t j f).halves = s.halves := rfl
@[simp] theorem modCtx_dies : (modCtx s t j f).dies = s.dies := rfl
@[simp] theorem modCtx_hbmStacks : (modCtx s t j f).hbmStacks = s.hbmStacks := rfl
@[simp] theorem modCtx_hbm : (modCtx s t j f).hbm = s.hbm := rfl
@[simp] theorem modCtx_net : (modCtx s t j f).net = s.net := rfl
@[simp] theorem modCtx_gather : (modCtx s t j f).gather = s.gather := rfl
@[simp] theorem modCtx_jobs : (modCtx s t j f).jobs = s.jobs := rfl
@[simp] theorem modCtx_pubs : (modCtx s t j f).pubs = s.pubs := rfl
@[simp] theorem modCtx_watches : (modCtx s t j f).watches = s.watches := rfl
@[simp] theorem modCtx_losses : (modCtx s t j f).losses = s.losses := rfl
@[simp] theorem modCtx_regions : (modCtx s t j f).regions = s.regions := rfl
@[simp] theorem modCtx_win : (modCtx s t j f).win = s.win := rfl
@[simp] theorem modCtx_mgmt : (modCtx s t j f).mgmt = s.mgmt := rfl
@[simp] theorem modCtx_fw : (modCtx s t j f).fw = s.fw := rfl
@[simp] theorem modCtx_sec : (modCtx s t j f).sec = s.sec := rfl
@[simp] theorem modCtx_jtag : (modCtx s t j f).jtag = s.jtag := rfl
@[simp] theorem modCtx_power : (modCtx s t j f).power = s.power := rfl
@[simp] theorem modCtx_flash : (modCtx s t j f).flash = s.flash := rfl
@[simp] theorem modCtx_status : (modCtx s t j f).status = s.status := rfl
@[simp] theorem modCtx_owed : (modCtx s t j f).owed = s.owed := rfl
@[simp] theorem modCtx_freeCtr : (modCtx s t j f).freeCtr = s.freeCtr := rfl

end modCtx

section putHalf
variable (i : Nat) (x : Half)

@[simp] theorem putHalf_pending : (putHalf s i x).pending = s.pending := rfl
@[simp] theorem putHalf_mod : (putHalf s i x).mod = s.mod := rfl
@[simp] theorem putHalf_log : (putHalf s i x).log = s.log := rfl
@[simp] theorem putHalf_tiles : (putHalf s i x).tiles = s.tiles := rfl
@[simp] theorem putHalf_dies : (putHalf s i x).dies = s.dies := rfl
@[simp] theorem putHalf_hbmStacks : (putHalf s i x).hbmStacks = s.hbmStacks := rfl
@[simp] theorem putHalf_hbm : (putHalf s i x).hbm = s.hbm := rfl
@[simp] theorem putHalf_net : (putHalf s i x).net = s.net := rfl
@[simp] theorem putHalf_gather : (putHalf s i x).gather = s.gather := rfl
@[simp] theorem putHalf_jobs : (putHalf s i x).jobs = s.jobs := rfl
@[simp] theorem putHalf_pubs : (putHalf s i x).pubs = s.pubs := rfl
@[simp] theorem putHalf_watches : (putHalf s i x).watches = s.watches := rfl
@[simp] theorem putHalf_losses : (putHalf s i x).losses = s.losses := rfl
@[simp] theorem putHalf_regions : (putHalf s i x).regions = s.regions := rfl
@[simp] theorem putHalf_win : (putHalf s i x).win = s.win := rfl
@[simp] theorem putHalf_mgmt : (putHalf s i x).mgmt = s.mgmt := rfl
@[simp] theorem putHalf_fw : (putHalf s i x).fw = s.fw := rfl
@[simp] theorem putHalf_sec : (putHalf s i x).sec = s.sec := rfl
@[simp] theorem putHalf_jtag : (putHalf s i x).jtag = s.jtag := rfl
@[simp] theorem putHalf_power : (putHalf s i x).power = s.power := rfl
@[simp] theorem putHalf_flash : (putHalf s i x).flash = s.flash := rfl
@[simp] theorem putHalf_status : (putHalf s i x).status = s.status := rfl
@[simp] theorem putHalf_owed : (putHalf s i x).owed = s.owed := rfl
@[simp] theorem putHalf_freeCtr : (putHalf s i x).freeCtr = s.freeCtr := rfl

end putHalf

section putDie
variable (d : Nat) (x : Die)

@[simp] theorem putDie_pending : (putDie s d x).pending = s.pending := rfl
@[simp] theorem putDie_mod : (putDie s d x).mod = s.mod := rfl
@[simp] theorem putDie_log : (putDie s d x).log = s.log := rfl
@[simp] theorem putDie_tiles : (putDie s d x).tiles = s.tiles := rfl
@[simp] theorem putDie_halves : (putDie s d x).halves = s.halves := rfl
@[simp] theorem putDie_hbmStacks : (putDie s d x).hbmStacks = s.hbmStacks := rfl
@[simp] theorem putDie_hbm : (putDie s d x).hbm = s.hbm := rfl
@[simp] theorem putDie_net : (putDie s d x).net = s.net := rfl
@[simp] theorem putDie_gather : (putDie s d x).gather = s.gather := rfl
@[simp] theorem putDie_jobs : (putDie s d x).jobs = s.jobs := rfl
@[simp] theorem putDie_pubs : (putDie s d x).pubs = s.pubs := rfl
@[simp] theorem putDie_watches : (putDie s d x).watches = s.watches := rfl
@[simp] theorem putDie_losses : (putDie s d x).losses = s.losses := rfl
@[simp] theorem putDie_regions : (putDie s d x).regions = s.regions := rfl
@[simp] theorem putDie_win : (putDie s d x).win = s.win := rfl
@[simp] theorem putDie_mgmt : (putDie s d x).mgmt = s.mgmt := rfl
@[simp] theorem putDie_fw : (putDie s d x).fw = s.fw := rfl
@[simp] theorem putDie_sec : (putDie s d x).sec = s.sec := rfl
@[simp] theorem putDie_jtag : (putDie s d x).jtag = s.jtag := rfl
@[simp] theorem putDie_power : (putDie s d x).power = s.power := rfl
@[simp] theorem putDie_flash : (putDie s d x).flash = s.flash := rfl
@[simp] theorem putDie_status : (putDie s d x).status = s.status := rfl
@[simp] theorem putDie_owed : (putDie s d x).owed = s.owed := rfl
@[simp] theorem putDie_freeCtr : (putDie s d x).freeCtr = s.freeCtr := rfl

end putDie

section modDie
variable (d : Nat) (f : Die → Die)

@[simp] theorem modDie_pending : (modDie s d f).pending = s.pending := rfl
@[simp] theorem modDie_mod : (modDie s d f).mod = s.mod := rfl
@[simp] theorem modDie_log : (modDie s d f).log = s.log := rfl
@[simp] theorem modDie_tiles : (modDie s d f).tiles = s.tiles := rfl
@[simp] theorem modDie_halves : (modDie s d f).halves = s.halves := rfl
@[simp] theorem modDie_hbmStacks : (modDie s d f).hbmStacks = s.hbmStacks := rfl
@[simp] theorem modDie_hbm : (modDie s d f).hbm = s.hbm := rfl
@[simp] theorem modDie_net : (modDie s d f).net = s.net := rfl
@[simp] theorem modDie_gather : (modDie s d f).gather = s.gather := rfl
@[simp] theorem modDie_jobs : (modDie s d f).jobs = s.jobs := rfl
@[simp] theorem modDie_pubs : (modDie s d f).pubs = s.pubs := rfl
@[simp] theorem modDie_watches : (modDie s d f).watches = s.watches := rfl
@[simp] theorem modDie_losses : (modDie s d f).losses = s.losses := rfl
@[simp] theorem modDie_regions : (modDie s d f).regions = s.regions := rfl
@[simp] theorem modDie_win : (modDie s d f).win = s.win := rfl
@[simp] theorem modDie_mgmt : (modDie s d f).mgmt = s.mgmt := rfl
@[simp] theorem modDie_fw : (modDie s d f).fw = s.fw := rfl
@[simp] theorem modDie_sec : (modDie s d f).sec = s.sec := rfl
@[simp] theorem modDie_jtag : (modDie s d f).jtag = s.jtag := rfl
@[simp] theorem modDie_power : (modDie s d f).power = s.power := rfl
@[simp] theorem modDie_flash : (modDie s d f).flash = s.flash := rfl
@[simp] theorem modDie_status : (modDie s d f).status = s.status := rfl
@[simp] theorem modDie_owed : (modDie s d f).owed = s.owed := rfl
@[simp] theorem modDie_freeCtr : (modDie s d f).freeCtr = s.freeCtr := rfl

end modDie

section putStack
variable (n : Nat) (x : Stack)

@[simp] theorem putStack_pending : (putStack s n x).pending = s.pending := rfl
@[simp] theorem putStack_mod : (putStack s n x).mod = s.mod := rfl
@[simp] theorem putStack_log : (putStack s n x).log = s.log := rfl
@[simp] theorem putStack_tiles : (putStack s n x).tiles = s.tiles := rfl
@[simp] theorem putStack_halves : (putStack s n x).halves = s.halves := rfl
@[simp] theorem putStack_dies : (putStack s n x).dies = s.dies := rfl
@[simp] theorem putStack_hbm : (putStack s n x).hbm = s.hbm := rfl
@[simp] theorem putStack_net : (putStack s n x).net = s.net := rfl
@[simp] theorem putStack_gather : (putStack s n x).gather = s.gather := rfl
@[simp] theorem putStack_jobs : (putStack s n x).jobs = s.jobs := rfl
@[simp] theorem putStack_pubs : (putStack s n x).pubs = s.pubs := rfl
@[simp] theorem putStack_watches : (putStack s n x).watches = s.watches := rfl
@[simp] theorem putStack_losses : (putStack s n x).losses = s.losses := rfl
@[simp] theorem putStack_regions : (putStack s n x).regions = s.regions := rfl
@[simp] theorem putStack_win : (putStack s n x).win = s.win := rfl
@[simp] theorem putStack_mgmt : (putStack s n x).mgmt = s.mgmt := rfl
@[simp] theorem putStack_fw : (putStack s n x).fw = s.fw := rfl
@[simp] theorem putStack_sec : (putStack s n x).sec = s.sec := rfl
@[simp] theorem putStack_jtag : (putStack s n x).jtag = s.jtag := rfl
@[simp] theorem putStack_power : (putStack s n x).power = s.power := rfl
@[simp] theorem putStack_flash : (putStack s n x).flash = s.flash := rfl
@[simp] theorem putStack_status : (putStack s n x).status = s.status := rfl
@[simp] theorem putStack_owed : (putStack s n x).owed = s.owed := rfl
@[simp] theorem putStack_freeCtr : (putStack s n x).freeCtr = s.freeCtr := rfl

end putStack

section putJob
variable (j : BitVec 2) (x : Job)

@[simp] theorem putJob_pending : (putJob s j x).pending = s.pending := rfl
@[simp] theorem putJob_mod : (putJob s j x).mod = s.mod := rfl
@[simp] theorem putJob_log : (putJob s j x).log = s.log := rfl
@[simp] theorem putJob_tiles : (putJob s j x).tiles = s.tiles := rfl
@[simp] theorem putJob_halves : (putJob s j x).halves = s.halves := rfl
@[simp] theorem putJob_dies : (putJob s j x).dies = s.dies := rfl
@[simp] theorem putJob_hbmStacks : (putJob s j x).hbmStacks = s.hbmStacks := rfl
@[simp] theorem putJob_hbm : (putJob s j x).hbm = s.hbm := rfl
@[simp] theorem putJob_net : (putJob s j x).net = s.net := rfl
@[simp] theorem putJob_gather : (putJob s j x).gather = s.gather := rfl
@[simp] theorem putJob_pubs : (putJob s j x).pubs = s.pubs := rfl
@[simp] theorem putJob_watches : (putJob s j x).watches = s.watches := rfl
@[simp] theorem putJob_losses : (putJob s j x).losses = s.losses := rfl
@[simp] theorem putJob_regions : (putJob s j x).regions = s.regions := rfl
@[simp] theorem putJob_win : (putJob s j x).win = s.win := rfl
@[simp] theorem putJob_mgmt : (putJob s j x).mgmt = s.mgmt := rfl
@[simp] theorem putJob_fw : (putJob s j x).fw = s.fw := rfl
@[simp] theorem putJob_sec : (putJob s j x).sec = s.sec := rfl
@[simp] theorem putJob_jtag : (putJob s j x).jtag = s.jtag := rfl
@[simp] theorem putJob_power : (putJob s j x).power = s.power := rfl
@[simp] theorem putJob_flash : (putJob s j x).flash = s.flash := rfl
@[simp] theorem putJob_status : (putJob s j x).status = s.status := rfl
@[simp] theorem putJob_owed : (putJob s j x).owed = s.owed := rfl
@[simp] theorem putJob_freeCtr : (putJob s j x).freeCtr = s.freeCtr := rfl

end putJob

section modJob
variable (j : BitVec 2) (f : Job → Job)

@[simp] theorem modJob_pending : (modJob s j f).pending = s.pending := rfl
@[simp] theorem modJob_mod : (modJob s j f).mod = s.mod := rfl
@[simp] theorem modJob_log : (modJob s j f).log = s.log := rfl
@[simp] theorem modJob_tiles : (modJob s j f).tiles = s.tiles := rfl
@[simp] theorem modJob_halves : (modJob s j f).halves = s.halves := rfl
@[simp] theorem modJob_dies : (modJob s j f).dies = s.dies := rfl
@[simp] theorem modJob_hbmStacks : (modJob s j f).hbmStacks = s.hbmStacks := rfl
@[simp] theorem modJob_hbm : (modJob s j f).hbm = s.hbm := rfl
@[simp] theorem modJob_net : (modJob s j f).net = s.net := rfl
@[simp] theorem modJob_gather : (modJob s j f).gather = s.gather := rfl
@[simp] theorem modJob_pubs : (modJob s j f).pubs = s.pubs := rfl
@[simp] theorem modJob_watches : (modJob s j f).watches = s.watches := rfl
@[simp] theorem modJob_losses : (modJob s j f).losses = s.losses := rfl
@[simp] theorem modJob_regions : (modJob s j f).regions = s.regions := rfl
@[simp] theorem modJob_win : (modJob s j f).win = s.win := rfl
@[simp] theorem modJob_mgmt : (modJob s j f).mgmt = s.mgmt := rfl
@[simp] theorem modJob_fw : (modJob s j f).fw = s.fw := rfl
@[simp] theorem modJob_sec : (modJob s j f).sec = s.sec := rfl
@[simp] theorem modJob_jtag : (modJob s j f).jtag = s.jtag := rfl
@[simp] theorem modJob_power : (modJob s j f).power = s.power := rfl
@[simp] theorem modJob_flash : (modJob s j f).flash = s.flash := rfl
@[simp] theorem modJob_status : (modJob s j f).status = s.status := rfl
@[simp] theorem modJob_owed : (modJob s j f).owed = s.owed := rfl
@[simp] theorem modJob_freeCtr : (modJob s j f).freeCtr = s.freeCtr := rfl

end modJob

section putPort
variable (p : Nat) (x : Port)

@[simp] theorem putPort_pending : (putPort s p x).pending = s.pending := rfl
@[simp] theorem putPort_mod : (putPort s p x).mod = s.mod := rfl
@[simp] theorem putPort_log : (putPort s p x).log = s.log := rfl
@[simp] theorem putPort_tiles : (putPort s p x).tiles = s.tiles := rfl
@[simp] theorem putPort_halves : (putPort s p x).halves = s.halves := rfl
@[simp] theorem putPort_dies : (putPort s p x).dies = s.dies := rfl
@[simp] theorem putPort_hbmStacks : (putPort s p x).hbmStacks = s.hbmStacks := rfl
@[simp] theorem putPort_hbm : (putPort s p x).hbm = s.hbm := rfl
@[simp] theorem putPort_gather : (putPort s p x).gather = s.gather := rfl
@[simp] theorem putPort_jobs : (putPort s p x).jobs = s.jobs := rfl
@[simp] theorem putPort_pubs : (putPort s p x).pubs = s.pubs := rfl
@[simp] theorem putPort_watches : (putPort s p x).watches = s.watches := rfl
@[simp] theorem putPort_losses : (putPort s p x).losses = s.losses := rfl
@[simp] theorem putPort_regions : (putPort s p x).regions = s.regions := rfl
@[simp] theorem putPort_win : (putPort s p x).win = s.win := rfl
@[simp] theorem putPort_mgmt : (putPort s p x).mgmt = s.mgmt := rfl
@[simp] theorem putPort_fw : (putPort s p x).fw = s.fw := rfl
@[simp] theorem putPort_sec : (putPort s p x).sec = s.sec := rfl
@[simp] theorem putPort_jtag : (putPort s p x).jtag = s.jtag := rfl
@[simp] theorem putPort_power : (putPort s p x).power = s.power := rfl
@[simp] theorem putPort_flash : (putPort s p x).flash = s.flash := rfl
@[simp] theorem putPort_status : (putPort s p x).status = s.status := rfl
@[simp] theorem putPort_owed : (putPort s p x).owed = s.owed := rfl
@[simp] theorem putPort_freeCtr : (putPort s p x).freeCtr = s.freeCtr := rfl

end putPort

section putTree
variable (n : BitVec 10) (x : Tree)

@[simp] theorem putTree_pending : (putTree s n x).pending = s.pending := rfl
@[simp] theorem putTree_mod : (putTree s n x).mod = s.mod := rfl
@[simp] theorem putTree_log : (putTree s n x).log = s.log := rfl
@[simp] theorem putTree_tiles : (putTree s n x).tiles = s.tiles := rfl
@[simp] theorem putTree_halves : (putTree s n x).halves = s.halves := rfl
@[simp] theorem putTree_dies : (putTree s n x).dies = s.dies := rfl
@[simp] theorem putTree_hbmStacks : (putTree s n x).hbmStacks = s.hbmStacks := rfl
@[simp] theorem putTree_hbm : (putTree s n x).hbm = s.hbm := rfl
@[simp] theorem putTree_gather : (putTree s n x).gather = s.gather := rfl
@[simp] theorem putTree_jobs : (putTree s n x).jobs = s.jobs := rfl
@[simp] theorem putTree_pubs : (putTree s n x).pubs = s.pubs := rfl
@[simp] theorem putTree_watches : (putTree s n x).watches = s.watches := rfl
@[simp] theorem putTree_losses : (putTree s n x).losses = s.losses := rfl
@[simp] theorem putTree_regions : (putTree s n x).regions = s.regions := rfl
@[simp] theorem putTree_win : (putTree s n x).win = s.win := rfl
@[simp] theorem putTree_mgmt : (putTree s n x).mgmt = s.mgmt := rfl
@[simp] theorem putTree_fw : (putTree s n x).fw = s.fw := rfl
@[simp] theorem putTree_sec : (putTree s n x).sec = s.sec := rfl
@[simp] theorem putTree_jtag : (putTree s n x).jtag = s.jtag := rfl
@[simp] theorem putTree_power : (putTree s n x).power = s.power := rfl
@[simp] theorem putTree_flash : (putTree s n x).flash = s.flash := rfl
@[simp] theorem putTree_status : (putTree s n x).status = s.status := rfl
@[simp] theorem putTree_owed : (putTree s n x).owed = s.owed := rfl
@[simp] theorem putTree_freeCtr : (putTree s n x).freeCtr = s.freeCtr := rfl

end putTree

section putEdge
variable (e : Nat) (x : Edge)

@[simp] theorem putEdge_pending : (putEdge s e x).pending = s.pending := rfl
@[simp] theorem putEdge_mod : (putEdge s e x).mod = s.mod := rfl
@[simp] theorem putEdge_log : (putEdge s e x).log = s.log := rfl
@[simp] theorem putEdge_tiles : (putEdge s e x).tiles = s.tiles := rfl
@[simp] theorem putEdge_halves : (putEdge s e x).halves = s.halves := rfl
@[simp] theorem putEdge_dies : (putEdge s e x).dies = s.dies := rfl
@[simp] theorem putEdge_hbmStacks : (putEdge s e x).hbmStacks = s.hbmStacks := rfl
@[simp] theorem putEdge_hbm : (putEdge s e x).hbm = s.hbm := rfl
@[simp] theorem putEdge_gather : (putEdge s e x).gather = s.gather := rfl
@[simp] theorem putEdge_jobs : (putEdge s e x).jobs = s.jobs := rfl
@[simp] theorem putEdge_pubs : (putEdge s e x).pubs = s.pubs := rfl
@[simp] theorem putEdge_watches : (putEdge s e x).watches = s.watches := rfl
@[simp] theorem putEdge_losses : (putEdge s e x).losses = s.losses := rfl
@[simp] theorem putEdge_regions : (putEdge s e x).regions = s.regions := rfl
@[simp] theorem putEdge_win : (putEdge s e x).win = s.win := rfl
@[simp] theorem putEdge_mgmt : (putEdge s e x).mgmt = s.mgmt := rfl
@[simp] theorem putEdge_fw : (putEdge s e x).fw = s.fw := rfl
@[simp] theorem putEdge_sec : (putEdge s e x).sec = s.sec := rfl
@[simp] theorem putEdge_jtag : (putEdge s e x).jtag = s.jtag := rfl
@[simp] theorem putEdge_power : (putEdge s e x).power = s.power := rfl
@[simp] theorem putEdge_flash : (putEdge s e x).flash = s.flash := rfl
@[simp] theorem putEdge_status : (putEdge s e x).status = s.status := rfl
@[simp] theorem putEdge_owed : (putEdge s e x).owed = s.owed := rfl
@[simp] theorem putEdge_freeCtr : (putEdge s e x).freeCtr = s.freeCtr := rfl

end putEdge

section putWatch
variable (w : BitVec 12) (x : Watch)

@[simp] theorem putWatch_pending : (putWatch s w x).pending = s.pending := rfl
@[simp] theorem putWatch_mod : (putWatch s w x).mod = s.mod := rfl
@[simp] theorem putWatch_log : (putWatch s w x).log = s.log := rfl
@[simp] theorem putWatch_tiles : (putWatch s w x).tiles = s.tiles := rfl
@[simp] theorem putWatch_halves : (putWatch s w x).halves = s.halves := rfl
@[simp] theorem putWatch_dies : (putWatch s w x).dies = s.dies := rfl
@[simp] theorem putWatch_hbmStacks : (putWatch s w x).hbmStacks = s.hbmStacks := rfl
@[simp] theorem putWatch_hbm : (putWatch s w x).hbm = s.hbm := rfl
@[simp] theorem putWatch_net : (putWatch s w x).net = s.net := rfl
@[simp] theorem putWatch_gather : (putWatch s w x).gather = s.gather := rfl
@[simp] theorem putWatch_jobs : (putWatch s w x).jobs = s.jobs := rfl
@[simp] theorem putWatch_pubs : (putWatch s w x).pubs = s.pubs := rfl
@[simp] theorem putWatch_losses : (putWatch s w x).losses = s.losses := rfl
@[simp] theorem putWatch_regions : (putWatch s w x).regions = s.regions := rfl
@[simp] theorem putWatch_win : (putWatch s w x).win = s.win := rfl
@[simp] theorem putWatch_mgmt : (putWatch s w x).mgmt = s.mgmt := rfl
@[simp] theorem putWatch_fw : (putWatch s w x).fw = s.fw := rfl
@[simp] theorem putWatch_sec : (putWatch s w x).sec = s.sec := rfl
@[simp] theorem putWatch_jtag : (putWatch s w x).jtag = s.jtag := rfl
@[simp] theorem putWatch_power : (putWatch s w x).power = s.power := rfl
@[simp] theorem putWatch_flash : (putWatch s w x).flash = s.flash := rfl
@[simp] theorem putWatch_status : (putWatch s w x).status = s.status := rfl
@[simp] theorem putWatch_owed : (putWatch s w x).owed = s.owed := rfl
@[simp] theorem putWatch_freeCtr : (putWatch s w x).freeCtr = s.freeCtr := rfl

end putWatch

section putPub
variable (e : Nat) (x : Pub)

@[simp] theorem putPub_pending : (putPub s e x).pending = s.pending := rfl
@[simp] theorem putPub_mod : (putPub s e x).mod = s.mod := rfl
@[simp] theorem putPub_log : (putPub s e x).log = s.log := rfl
@[simp] theorem putPub_tiles : (putPub s e x).tiles = s.tiles := rfl
@[simp] theorem putPub_halves : (putPub s e x).halves = s.halves := rfl
@[simp] theorem putPub_dies : (putPub s e x).dies = s.dies := rfl
@[simp] theorem putPub_hbmStacks : (putPub s e x).hbmStacks = s.hbmStacks := rfl
@[simp] theorem putPub_hbm : (putPub s e x).hbm = s.hbm := rfl
@[simp] theorem putPub_net : (putPub s e x).net = s.net := rfl
@[simp] theorem putPub_gather : (putPub s e x).gather = s.gather := rfl
@[simp] theorem putPub_jobs : (putPub s e x).jobs = s.jobs := rfl
@[simp] theorem putPub_watches : (putPub s e x).watches = s.watches := rfl
@[simp] theorem putPub_losses : (putPub s e x).losses = s.losses := rfl
@[simp] theorem putPub_regions : (putPub s e x).regions = s.regions := rfl
@[simp] theorem putPub_win : (putPub s e x).win = s.win := rfl
@[simp] theorem putPub_mgmt : (putPub s e x).mgmt = s.mgmt := rfl
@[simp] theorem putPub_fw : (putPub s e x).fw = s.fw := rfl
@[simp] theorem putPub_sec : (putPub s e x).sec = s.sec := rfl
@[simp] theorem putPub_jtag : (putPub s e x).jtag = s.jtag := rfl
@[simp] theorem putPub_power : (putPub s e x).power = s.power := rfl
@[simp] theorem putPub_flash : (putPub s e x).flash = s.flash := rfl
@[simp] theorem putPub_status : (putPub s e x).status = s.status := rfl
@[simp] theorem putPub_owed : (putPub s e x).owed = s.owed := rfl
@[simp] theorem putPub_freeCtr : (putPub s e x).freeCtr = s.freeCtr := rfl

end putPub

section putRail
variable (r : Nat) (x : Rail)

@[simp] theorem putRail_pending : (putRail s r x).pending = s.pending := rfl
@[simp] theorem putRail_mod : (putRail s r x).mod = s.mod := rfl
@[simp] theorem putRail_log : (putRail s r x).log = s.log := rfl
@[simp] theorem putRail_tiles : (putRail s r x).tiles = s.tiles := rfl
@[simp] theorem putRail_halves : (putRail s r x).halves = s.halves := rfl
@[simp] theorem putRail_dies : (putRail s r x).dies = s.dies := rfl
@[simp] theorem putRail_hbmStacks : (putRail s r x).hbmStacks = s.hbmStacks := rfl
@[simp] theorem putRail_hbm : (putRail s r x).hbm = s.hbm := rfl
@[simp] theorem putRail_net : (putRail s r x).net = s.net := rfl
@[simp] theorem putRail_gather : (putRail s r x).gather = s.gather := rfl
@[simp] theorem putRail_jobs : (putRail s r x).jobs = s.jobs := rfl
@[simp] theorem putRail_pubs : (putRail s r x).pubs = s.pubs := rfl
@[simp] theorem putRail_watches : (putRail s r x).watches = s.watches := rfl
@[simp] theorem putRail_losses : (putRail s r x).losses = s.losses := rfl
@[simp] theorem putRail_regions : (putRail s r x).regions = s.regions := rfl
@[simp] theorem putRail_win : (putRail s r x).win = s.win := rfl
@[simp] theorem putRail_mgmt : (putRail s r x).mgmt = s.mgmt := rfl
@[simp] theorem putRail_fw : (putRail s r x).fw = s.fw := rfl
@[simp] theorem putRail_sec : (putRail s r x).sec = s.sec := rfl
@[simp] theorem putRail_jtag : (putRail s r x).jtag = s.jtag := rfl
@[simp] theorem putRail_flash : (putRail s r x).flash = s.flash := rfl
@[simp] theorem putRail_status : (putRail s r x).status = s.status := rfl
@[simp] theorem putRail_owed : (putRail s r x).owed = s.owed := rfl
@[simp] theorem putRail_freeCtr : (putRail s r x).freeCtr = s.freeCtr := rfl

end putRail

section setStatus
variable (st : Byte)

@[simp] theorem setStatus_pending : (setStatus s st).pending = s.pending := rfl
@[simp] theorem setStatus_mod : (setStatus s st).mod = s.mod := rfl
@[simp] theorem setStatus_log : (setStatus s st).log = s.log := rfl
@[simp] theorem setStatus_tiles : (setStatus s st).tiles = s.tiles := rfl
@[simp] theorem setStatus_halves : (setStatus s st).halves = s.halves := rfl
@[simp] theorem setStatus_dies : (setStatus s st).dies = s.dies := rfl
@[simp] theorem setStatus_hbmStacks : (setStatus s st).hbmStacks = s.hbmStacks := rfl
@[simp] theorem setStatus_hbm : (setStatus s st).hbm = s.hbm := rfl
@[simp] theorem setStatus_net : (setStatus s st).net = s.net := rfl
@[simp] theorem setStatus_gather : (setStatus s st).gather = s.gather := rfl
@[simp] theorem setStatus_jobs : (setStatus s st).jobs = s.jobs := rfl
@[simp] theorem setStatus_pubs : (setStatus s st).pubs = s.pubs := rfl
@[simp] theorem setStatus_watches : (setStatus s st).watches = s.watches := rfl
@[simp] theorem setStatus_losses : (setStatus s st).losses = s.losses := rfl
@[simp] theorem setStatus_regions : (setStatus s st).regions = s.regions := rfl
@[simp] theorem setStatus_win : (setStatus s st).win = s.win := rfl
@[simp] theorem setStatus_mgmt : (setStatus s st).mgmt = s.mgmt := rfl
@[simp] theorem setStatus_fw : (setStatus s st).fw = s.fw := rfl
@[simp] theorem setStatus_sec : (setStatus s st).sec = s.sec := rfl
@[simp] theorem setStatus_jtag : (setStatus s st).jtag = s.jtag := rfl
@[simp] theorem setStatus_power : (setStatus s st).power = s.power := rfl
@[simp] theorem setStatus_flash : (setStatus s st).flash = s.flash := rfl
@[simp] theorem setStatus_owed : (setStatus s st).owed = s.owed := rfl
@[simp] theorem setStatus_freeCtr : (setStatus s st).freeCtr = s.freeCtr := rfl

end setStatus

@[simp] theorem setStatus_status (st : Byte) : (setStatus s st).status = st := rfl
@[simp] theorem putTile_tiles (t : W16) (x : Tile) : (putTile s t x).tiles = mset Tile.reset s.tiles t.toNat x := rfl
@[simp] theorem putHalf_halves (i : Nat) (x : Half) : (putHalf s i x).halves = mset Half.reset s.halves i x := rfl
@[simp] theorem putDie_dies (d : Nat) (x : Die) : (putDie s d x).dies = mset Die.reset s.dies d x := rfl
@[simp] theorem putStack_hbmStacks (n : Nat) (x : Stack) : (putStack s n x).hbmStacks = mset Stack.reset s.hbmStacks n x := rfl
@[simp] theorem putJob_jobs (j : BitVec 2) (x : Job) : (putJob s j x).jobs = mset Job.reset s.jobs j.toNat x := rfl
@[simp] theorem putPort_net (p : Nat) (x : Port) : (putPort s p x).net = { s.net with ports := mset Port.reset s.net.ports p x } := rfl
@[simp] theorem putTree_net (n : BitVec 10) (x : Tree) : (putTree s n x).net = { s.net with trees := mset Tree.reset s.net.trees n.toNat x } := rfl
@[simp] theorem putEdge_net (e : Nat) (x : Edge) : (putEdge s e x).net = { s.net with edges := mset Edge.reset s.net.edges e x } := rfl
@[simp] theorem putWatch_watches (w : BitVec 12) (x : Watch) : (putWatch s w x).watches = mset Watch.reset s.watches w.toNat x := rfl
@[simp] theorem putPub_pubs (e : Nat) (x : Pub) : (putPub s e x).pubs = mset Pub.reset s.pubs e x := rfl
@[simp] theorem putRail_power (r : Nat) (x : Rail) : (putRail s r x).power = { s.power with rails := mset Rail.reset s.power.rails r x } := rfl

end Sys2Proof.Laws
end

