-- ==== Sys2Proof/Laws/Canonical.lean ====
section
/-!
SUPPORT. Every operation on the bytes of the stacks keeps their canonical form, and reset has it.
-/
namespace Sys2Proof.Laws
open Sys2Proof Sys2Proof.Machine

/-- Memory right after reset lists nothing. -/
theorem hbmWf_reset : hbmWf State.reset = true := rfl

/-- A range of bytes cleared. -/
theorem mwf_clrRange {m : SMap Byte} (a n : Nat) (h : mwf 0 m = true) : mwf 0 (clrRange m a n) = true := mwf_filter _ h

/-- One piece written at a physical address. -/
theorem hbmWf_hbmPut1 {s : State} (pa : Nat) (bs : List Byte) (h : hbmWf s = true) : hbmWf (hbmPut1 s pa bs).1 = true := by
  unfold hbmPut1 hbmWf at *
  dsimp only
  split
  · split
    · exact mwf_wrBytes pa bs h
    · exact h
  · exact h

/-- Bytes written at a physical address. -/
theorem hbmWf_hbmPut {s : State} (pa : Nat) (bs : List Byte) (h : hbmWf s = true) : hbmWf (hbmPut s pa bs).1 = true := by
  unfold hbmPut
  generalize blkPieces (bs.length + 1) pa bs = l
  generalize stOk = st
  induction l generalizing s st with
  | nil => exact h
  | cons e l ih => exact ih (hbmWf_hbmPut1 e.1 e.2 h) _

/-- One piece of a read: the code state of its block may change, no byte does. -/
theorem readBlk_hbm (s : State) (t : W64) (n b : Nat) : (putStack s n (readBlk (getStack s n) t b).1).hbm = s.hbm := putStack_hbm _ _ _

/-- What every step of a fold keeps, the fold keeps. -/
theorem foldl_keeps {α β γ : Type} (f : α → β → α) (p : α → γ) (h : ∀ a b, p (f a b) = p a) (l : List β) (a : α) : p (l.foldl f a) = p a := by
  induction l generalizing a with
  | nil => rfl
  | cons b l ih => exact (ih _).trans (h a b)

/-- A read changes no byte. -/
theorem hbmGet_hbm (s : State) (pa n : Nat) : (hbmGet s pa n).1.hbm = s.hbm := by
  unfold hbmGet
  refine foldl_keeps _ (fun r : State × List Byte × Byte => r.1.hbm) (fun r e => ?_) _ _
  by_cases h : stackUp r.1 (paStack e.1) = true
  · simp only [h, if_true, putStack_hbm]
  · simp only [h, Bool.false_eq_true, if_false]

/-- A job's error ring keeps the form. -/
theorem hbmWf_ringAppend {s : State} (r : ErrRec) (h : hbmWf s = true) : hbmWf (ringAppend s r) = true := by
  unfold ringAppend hbmWf
  dsimp only
  split
  · split
    · exact h
    · split
      · rw [modJob_hbm]; exact hbmWf_hbmPut _ _ h
      · rw [modJob_hbm]; exact h
  · exact h

/-- Bytes of a stack copied to another place. -/
theorem mwf_copy {m : SMap Byte} (f : Nat → Nat) (l : SMap Byte) (h : mwf 0 m = true) :
    mwf 0 (l.foldl (fun m (c : Nat × Byte) => mset 0 m (f c.1) c.2) m) = true := by
  induction l generalizing m with
  | nil => exact h
  | cons c l ih => exact ih (mwf_mset _ _ h)

end Sys2Proof.Laws
end

