-- ==== Sys2Proof/Laws/Record.lean ====
section
/-!
SUPPORT. What an event and an error record change: the log, the jobs' rings, the management port, and the memory that a ring lies in
(R457-R462, R531).
-/
namespace Sys2Proof.Machine
open Sys2Proof

/-- The same state but for the log, the jobs, the stacks and the management port. -/
def SameButLog (s t : State) : Prop :=
  t = { s with log := t.log, jobs := t.jobs, hbm := t.hbm, hbmStacks := t.hbmStacks, mgmt := t.mgmt }

theorem SameButLog.rfl' (s : State) : SameButLog s s := rfl

theorem SameButLog.trans {s t u : State} (h : SameButLog s t) (k : SameButLog t u) : SameButLog s u := by
  unfold SameButLog at h k ⊢
  rw [k, h]

/-- An event changes the management port alone. -/
theorem pumpEvents_mgmt (n : Nat) (s : State) : pumpEvents n s = { s with mgmt := (pumpEvents n s).mgmt } := by
  induction n generalizing s with
  | zero => rfl
  | succ n ih =>
    simp only [pumpEvents]
    split
    · rfl
    · split
      · rw [ih]
      · rfl

theorem raiseEvent_mgmt (s : State) (k : Nat) (o : W16) (b : List Byte) (v : BitVec 2) :
    raiseEvent s k o b v = { s with mgmt := (raiseEvent s k o b v).mgmt } := by
  unfold raiseEvent
  split
  · exact pumpEvents_mgmt 16 _
  · rfl

theorem SameButLog.event (s : State) (k : Nat) (o : W16) (b : List Byte) (v : BitVec 2) : SameButLog s (raiseEvent s k o b v) := by
  unfold SameButLog
  rw [raiseEvent_mgmt]

theorem SameButLog.hbmPut1 (s : State) (pa : Nat) (bs : List Byte) : SameButLog s (hbmPut1 s pa bs).1 := by
  have hs : ∀ (x : State) (n : Nat) (k : Stack), SameButLog x (putStack x n k) := fun _ _ _ => rfl
  have hb : ∀ (x : State) (m : SMap Byte), SameButLog x { x with hbm := m } := fun _ _ => rfl
  unfold Machine.hbmPut1
  dsimp only
  split
  · split
    · exact (hs _ _ _).trans (hb _ _)
    · exact hs _ _ _
  · rfl

theorem SameButLog.hbmPut (s : State) (pa : Nat) (bs : List Byte) : SameButLog s (hbmPut s pa bs).1 := by
  unfold Machine.hbmPut
  have key : ∀ (l : List (Nat × List Byte)) (r : State × Byte), SameButLog s r.1 →
      SameButLog s (l.foldl (fun (r : State × Byte) e =>
        let (s, st) := Machine.hbmPut1 r.1 e.1 e.2
        (s, if r.2 = 0 then st else r.2)) r).1 := by
    intro l
    induction l with
    | nil => intro r h; exact h
    | cons e t ih => intro r h; exact ih _ (h.trans (SameButLog.hbmPut1 r.1 e.1 e.2))
  exact key _ _ rfl

theorem SameButLog.ring (s : State) (r : ErrRec) : SameButLog s (ringAppend s r) := by
  have hj : ∀ (x : State) (j : BitVec 2) (f : Job → Job), SameButLog x (modJob x j f) := fun _ _ _ => rfl
  unfold ringAppend
  dsimp only
  split
  · split
    · rfl
    · split
      · exact (SameButLog.hbmPut _ _ _).trans (hj _ _ _)
      · exact hj _ _ _
  · rfl

/-- A record that is not FATAL changes the log, a job's ring and the management port, and nothing else. -/
theorem SameButLog.record (s : State) (r : ErrRec) (h : r.sev ≠ 3) : SameButLog s (putRecord s r).1 := by
  unfold putRecord
  simp only [h, if_false]
  have h1 := SameButLog.ring { s with log := (logAppend { s.log with seq := r.seq + 1 } r).1 } r
  have h0 : SameButLog s { s with log := (logAppend { s.log with seq := r.seq + 1 } r).1 } := rfl
  split
  · exact (h0.trans h1).trans (SameButLog.event _ _ _ _ _)
  · exact h0.trans h1

theorem SameButLog.err1 (s : State) (e : Err) (h : e.sev ≠ 3) : SameButLog s (putErr1 s e).1 := by
  unfold putErr1
  split
  · rfl
  · simp only
    refine SameButLog.trans ?_ (SameButLog.record _ _ h)
    split <;> rfl

/-- An error record that is not FATAL (R457, R460-R462). -/
theorem SameButLog.err (s : State) (e : Err) (h : e.sev ≠ 3) : SameButLog s (putErr s e) := by
  have h1 := SameButLog.err1 s e h
  have h2 : SameButLog s (if (putErr1 s e).2 = true then (putErr1 (putErr1 s e).1 (lostErr (putErr1 s e).1)).1 else (putErr1 s e).1) := by
    split
    · exact h1.trans (SameButLog.err1 _ _ (by simp [lostErr]))
    · exact h1
  unfold putErr
  dsimp only
  split
  · split
    · split
      · split
        · exact h2
        · exact h2.trans (SameButLog.err1 _ _ (by simp [worldErr]))
      · exact h2
    · split
      · exact h2.trans (SameButLog.err1 _ _ (by simp [hbmDataErr]))
      · exact h2
  · exact h2

section fields
variable (s : State) (e : Err) (h : e.sev ≠ 3)
include h
theorem putErr_pending : (putErr s e).pending = s.pending := by rw [SameButLog.err s e h]
theorem putErr_mod : (putErr s e).mod = s.mod := by rw [SameButLog.err s e h]
theorem putErr_tiles : (putErr s e).tiles = s.tiles := by rw [SameButLog.err s e h]
theorem putErr_halves : (putErr s e).halves = s.halves := by rw [SameButLog.err s e h]
theorem putErr_dies : (putErr s e).dies = s.dies := by rw [SameButLog.err s e h]
theorem putErr_net : (putErr s e).net = s.net := by rw [SameButLog.err s e h]
theorem putErr_gather : (putErr s e).gather = s.gather := by rw [SameButLog.err s e h]
theorem putErr_pubs : (putErr s e).pubs = s.pubs := by rw [SameButLog.err s e h]
theorem putErr_watches : (putErr s e).watches = s.watches := by rw [SameButLog.err s e h]
theorem putErr_losses : (putErr s e).losses = s.losses := by rw [SameButLog.err s e h]
theorem putErr_regions : (putErr s e).regions = s.regions := by rw [SameButLog.err s e h]
theorem putErr_win : (putErr s e).win = s.win := by rw [SameButLog.err s e h]
theorem putErr_fw : (putErr s e).fw = s.fw := by rw [SameButLog.err s e h]
theorem putErr_sec : (putErr s e).sec = s.sec := by rw [SameButLog.err s e h]
theorem putErr_jtag : (putErr s e).jtag = s.jtag := by rw [SameButLog.err s e h]
theorem putErr_power : (putErr s e).power = s.power := by rw [SameButLog.err s e h]
theorem putErr_flash : (putErr s e).flash = s.flash := by rw [SameButLog.err s e h]
theorem putErr_status : (putErr s e).status = s.status := by rw [SameButLog.err s e h]
theorem putErr_owed : (putErr s e).owed = s.owed := by rw [SameButLog.err s e h]
theorem putErr_freeCtr : (putErr s e).freeCtr = s.freeCtr := by rw [SameButLog.err s e h]
end fields

end Sys2Proof.Machine
end

