-- ==== Sys2Proof/Laws/Core.lean ====
section
/-!
SUPPORT. What a core command's bundle does: it raises the exception of its slot, waits, or retires (R137-R143, R158, R177).
-/
namespace Sys2Proof.Machine
open Sys2Proof

/-! ## Tiles and contexts -/

theorem onTile_present {t : W16} {s : State} {f : State → State} (h : tilePresent s t = true) : onTile t s f = .next (f s) := by
  simp [onTile, h]

@[simp] theorem getTile_putTile (s : State) (t : W16) (x : Tile) : getTile (putTile s t x) t = x := mget_mset_same _ _ _ _

theorem getTile_putTile_other (s : State) {t u : W16} (x : Tile) (h : u ≠ t) : getTile (putTile s t x) u = getTile s u :=
  mget_mset_other _ _ _ fun hn => h (BitVec.eq_of_toNat_eq hn)

@[simp] theorem getTile_modTile (s : State) (t : W16) (f : Tile → Tile) : getTile (modTile s t f) t = f (getTile s t) := getTile_putTile _ _ _

@[simp] theorem getCtx_putCtx (x : Tile) (j : BitVec 2) (c : Ctx) : getCtx (putCtx x j c) j = c := mget_mset_same _ _ _ _

theorem getCtx_putCtx_other (x : Tile) {j k : BitVec 2} (c : Ctx) (h : k ≠ j) : getCtx (putCtx x j c) k = getCtx x k :=
  mget_mset_other _ _ _ fun hn => h (BitVec.eq_of_toNat_eq hn)

/-- A write of general register n reads back, but for g0. -/
theorem getG_setG (c : Ctx) (n i : BitVec 5) (v : W64) : getG (setG c n v) i = if i = n ∧ n ≠ 0 then v else getG c i := by
  unfold getG setG
  by_cases hn : n = 0
  · simp [hn]
  · by_cases hi : i = 0
    · have h0 : ¬ (i = n ∧ n ≠ 0) := fun h => hn (h.1 ▸ hi)
      rw [if_pos hi, if_neg h0, if_pos hi]
    · simp only [hn, if_false, hi, mget_mset, not_false_eq_true, and_true, ne_eq]
      by_cases h : i = n
      · simp [h]
      · have : ¬ i.toNat = n.toNat := fun hh => h (BitVec.eq_of_toNat_eq hh)
        simp [h, this]

/-! ## The scratchpad write of a core -/

theorem foldl_putErr_tiles {β : Type} (f : β → Err) (hf : ∀ b, (f b).sev ≠ 3) (l : List β) (s : State) :
    (l.foldl (fun s w => putErr s (f w)) s).tiles = s.tiles := by
  induction l generalizing s with
  | nil => rfl
  | cons b t ih => simp only [List.foldl_cons, ih, putErr_tiles _ _ (hf b)]

/-- A scratchpad write changes the tile as R184 and R203 give, and no other tile. -/
theorem spadWrite_tiles (s : State) (t : W16) (j : BitVec 2) (a : Nat) (bs : List Byte) :
    (spadWrite s t j a bs).tiles = (putTile s t (spadWriteTile (getTile s t) a bs)).tiles :=
  foldl_putErr_tiles _ (fun _ => by simp [tileErr]) _ _

theorem getTile_spadWrite (s : State) (t : W16) (j : BitVec 2) (a : Nat) (bs : List Byte) :
    getTile (spadWrite s t j a bs) t = spadWriteTile (getTile s t) a bs := by
  unfold getTile
  rw [spadWrite_tiles]
  exact getTile_putTile _ _ _

theorem getCtx_spadWriteTile (x : Tile) (a : Nat) (bs : List Byte) (j : BitVec 2) : getCtx (spadWriteTile x a bs) j = getCtx x j := rfl

theorem ctxOf_putStore (s : State) (t : W16) (j : BitVec 2) (r : SlotRes) : getCtx (getTile (putStore t j r s) t) j = getCtx (getTile s t) j := by
  unfold putStore
  split
  · rw [getTile_spadWrite, getCtx_spadWriteTile]
  · rfl

/-! ## The bundle of one command -/

/-- A slot that has no effect. -/
theorem evalSlot_idle {s : State} {t : W16} {j : BitVec 2} {c : Ctx} {eng : Bool} {w : SlotWord}
    (h : (!guardTrue c w || (isNop w.op && !w.rsv)) = true) : evalSlot s t j c eng false false w = {} := by
  unfold evalSlot
  cases hg : guardTrue c w
  · simp
  · rw [hg] at h
    simp only [Bool.not_true, Bool.false_or, Bool.and_eq_true] at h
    obtain ⟨hn, hr⟩ := h
    cases hop : w.op with
    | sys op gD gA csr =>
      rw [hop] at hn
      have h0 : op = 0 := by simpa [isNop] using hn
      have hr' : w.rsv = false := by simpa using hr
      subst h0
      simp [classAllowed, hr', evalSys]
    | _ => rw [hop] at hn; simp [isNop] at hn

/-- A command whose bundle can issue raises the exception of its slot, waits, or retires; r is what its slot does. -/
theorem slotCmd_runs {s : State} {h : SlotHdr} {j : BitVec 2} {op : SlotOp} {r : SlotRes} (hi : canIssue s h j = true)
    (hr : evalSlot s h.tile j (ctxOf s h.tile j) h.eng false false (slotOf h op) = r) :
    slotCmd h op s = .next (match r.exc with
      | some e => excPrecise s h.tile j h.eng e.1 e.2
      | none =>
        let a : SlotRes := if h.eng then {} else r
        let b : SlotRes := if h.eng then r else {}
        if r.blocked then hold s h.tile j (bundleOf h op).1 (bundleOf h op).2 a b
        else retire s h.tile j (bundleOf h op).1 (bundleOf h op).2 a b) := by
  simp only [canIssue, Bool.and_eq_true, decide_eq_true_eq, Option.isNone_iff_eq_none, Bool.not_eq_true'] at hi
  obtain ⟨⟨⟨⟨⟨⟨⟨hp, hrun⟩, hw⟩, hsd⟩, hf⟩, hg⟩, hrsv⟩, hm⟩ := hi
  have hm' := evalSlot_idle (s := s) (t := h.tile) (j := j) (eng := !h.eng) hm
  have hwn : (ctxOf s h.tile j).wait.isSome = false := by simp [ctxOf, hw]
  rw [slotCmd, onTile_present hp]
  simp only [issue, hrun]
  rw [if_neg (by simpa [ctxOf, hsd] using hwn)]
  simp only [hf]
  unfold runBundle
  cases he : h.eng with
  | false =>
    simp only [bundleOf, he, ctxOf] at hr hm' ⊢
    simp only [Bool.not_false] at hm'
    simp only [Bool.false_eq_true, if_false, hr, hm']
    cases hx : r.exc with
    | some e => simp [bundleExc, hx, bundleFails]
    | none => simp [bundleExc, hx, writesMeet]
  | true =>
    simp only [bundleOf, he, ctxOf] at hr hm' ⊢
    simp only [Bool.not_true] at hm'
    simp only [if_true, hr, hm']
    cases hx : r.exc with
    | some e => simp [bundleExc, hx, bundleFails]
    | none => simp [bundleExc, hx, writesMeet]

theorem putRegs_none (c : Ctx) : putRegs {} c = c := rfl
theorem putStore_none (t : W16) (j : BitVec 2) (s : State) : putStore t j {} s = s := rfl

/-- A bundle whose one effective slot is no wait ends at no switch point (R397). -/
theorem keepsPoint_own {h : SlotHdr} {op : SlotOp} {c : Ctx} (hg : xor (getP c h.pg) h.pn = true) (hm : mateIdle c h = true)
    (hw : isWaitOp op = false) : keepsPoint c (bundleOf h op).1 (bundleOf h op).2 = false := by
  have hg' : guardTrue c (slotOf h op) = true := by simpa [guardTrue, slotOf] using hg
  have hso : (slotOf h op).op = op := rfl
  cases he : h.eng with
  | false =>
    have h1 : (bundleOf h op).1 = slotOf h op := by simp [bundleOf, he]
    rw [h1]; unfold keepsPoint; rw [hso, hg', hw]; simp
  | true =>
    simp only [bundleOf, he, keepsPoint, hg', if_true]
    simp only [mateIdle, slotIdle] at hm
    cases hgm : guardTrue c (decodeSlot h.mate) with
    | false => simp
    | true =>
      have hn : isNop (decodeSlot h.mate).op = true := by
        rw [hgm] at hm; simp at hm; exact hm.1
      have : isWaitOp (decodeSlot h.mate).op = false := by
        cases ho : (decodeSlot h.mate).op <;> rw [ho] at hn <;> simp_all [isNop, isWaitOp]
      simp [this]

/-- A command whose slot raises nothing, holds nothing up and is no wait retires: its store, its registers with PC and TILE.BUNDLES, then its
other effects. -/
theorem slotCmd_retires {s : State} {h : SlotHdr} {j : BitVec 2} {op : SlotOp} {r : SlotRes} (hi : canIssue s h j = true)
    (hw : isWaitOp op = false)
    (hr : evalSlot s h.tile j (ctxOf s h.tile j) h.eng false false (slotOf h op) = r) (he : r.exc = none) (hb : r.blocked = false)
    (hx : h.eng = true → r.target = none) :
    slotCmd h op s = .next (r.act (match r.target with
      | some pc => branch (putStore h.tile j r s) h j pc (putRegs r)
      | none => advance (putStore h.tile j r s) h j (putRegs r))) := by
  rw [slotCmd_runs hi hr]
  simp only [canIssue, Bool.and_eq_true, decide_eq_true_eq, Option.isNone_iff_eq_none, Bool.not_eq_true'] at hi
  obtain ⟨⟨⟨⟨⟨⟨⟨_, _⟩, _⟩, _⟩, _⟩, hg⟩, _⟩, hm⟩ := hi
  have hk : keepsPoint (getCtx (getTile s h.tile) j) (bundleOf h op).1 (bundleOf h op).2 = false := keepsPoint_own hg hm hw
  have hc := ctxOf_putStore s h.tile j r
  simp only [he, hb]
  congr 1
  cases hen : h.eng with
  | false => cases ht : r.target <;> simp [retire, retireCtx, branch, advance, putRegs_none, putStore_none, hk, hc, ht, modTile]
  | true => simp [retire, retireCtx, advance, putRegs_none, putStore_none, hk, hc, hx hen, modTile]

/-- A command whose slot raises an exception stops its context. -/
theorem slotCmd_stops {s : State} {h : SlotHdr} {j : BitVec 2} {op : SlotOp} {e : Byte × W64} (hi : canIssue s h j = true)
    (hr : (evalSlot s h.tile j (ctxOf s h.tile j) h.eng false false (slotOf h op)).exc = some e) :
    slotCmd h op s = .next (stopped s h j e.1 e.2) := by
  rw [slotCmd_runs hi rfl, hr]
  rfl

/-- What the slot of a command does, where its class may stand in the slot. -/
theorem evalSlot_own {s : State} {h : SlotHdr} {j : BitVec 2} {op : SlotOp} (hi : canIssue s h j = true) (hc : classAllowed h.eng op = true) :
    evalSlot s h.tile j (ctxOf s h.tile j) h.eng false false (slotOf h op)
      = (match (generalizing := false) op with
        | .sys o gD gA csr => evalSys s h.tile j (ctxOf s h.tile j) o gD gA csr
        | .alu o gD gA gB => evalAlu (ctxOf s h.tile j) o gD gA gB
        | .alui o gD gA imm => evalAlui (ctxOf s h.tile j) o gD gA imm
        | .br o gD gA off => evalBr (ctxOf s h.tile j) o gD gA off
        | .mem o gT gA off => evalMem (getTile s h.tile) j (ctxOf s h.tile j) o gT gA off
        | .sync o gD ch gA hint => evalSync s h.tile j (ctxOf s h.tile j) o gD ch gA hint false
        | .watch o gD gA gB widx mon => evalWatch s h.tile j (ctxOf s h.tile j) o gD gA gB widx mon
        | .valu o a => evalValu h.tile (ctxOf s h.tile j) o a
        | .vmem o v gA lw lane off => evalVmem (getTile s h.tile) j (ctxOf s h.tile j) o v gA lw lane off
        | .eng o a => evalEng s h.tile j (ctxOf s h.tile j) o a
        | .xfer o gA gB q => evalXfer s h.tile j (ctxOf s h.tile j) o gA gB q false
        | .reserved => excRes cIllegalOp 0) := by
  simp only [canIssue, Bool.and_eq_true, decide_eq_true_eq, Option.isNone_iff_eq_none, Bool.not_eq_true'] at hi
  obtain ⟨⟨⟨⟨⟨⟨⟨_, _⟩, _⟩, _⟩, _⟩, hg⟩, hrsv⟩, _⟩ := hi
  have hg' : guardTrue (ctxOf s h.tile j) (slotOf h op) = true := by simpa [guardTrue, slotOf, ctxOf] using hg
  unfold evalSlot
  simp only [hg']
  simp only [slotOf, hc, hrsv]
  cases op <;> rfl

end Sys2Proof.Machine
end

