-- ==== Sys2Proof/Laws/Slots.lean ====
section
/-!
SUPPORT. The slots that do one thing: write a register, jump, do one other effect, or raise an exception.
-/
namespace Sys2Proof.Machine
open Sys2Proof

/-- A core's command issues its slot. -/
theorem exec_coreSlot {i : Instr} {h : SlotHdr} {op : SlotOp} {s : State} (hc : coreSlot i = some (h, op)) : exec i s = slotCmd h op s := by
  cases i <;> simp only [coreSlot, Option.some.injEq, Prod.mk.injEq, reduceCtorEq] at hc
  all_goals (obtain ⟨rfl, rfl⟩ := hc; rfl)

section
variable {s : State} {h : SlotHdr} {j : BitVec 2} {op : SlotOp}

/-- A slot that writes a general register. -/
theorem slotCmd_gW {n : BitVec 5} {v : W64} (hi : canIssue s h j = true) (hw : isWaitOp op = false)
    (hr : evalSlot s h.tile j (ctxOf s h.tile j) h.eng false false (slotOf h op) = { gW := some (n, v) }) :
    slotCmd h op s = .next (advance s h j fun c => setG c n v) :=
  slotCmd_retires hi hw hr rfl rfl fun _ => rfl

/-- A slot that writes a vector register and does another effect. -/
theorem slotCmd_vW {n : BitVec 4} {v : BitVec 512} {act : State → State} (hi : canIssue s h j = true) (hw : isWaitOp op = false)
    (hr : evalSlot s h.tile j (ctxOf s h.tile j) h.eng false false (slotOf h op) = { vW := some (n, v), act }) :
    slotCmd h op s = .next (act (advance s h j fun c => setV c n v)) :=
  slotCmd_retires hi hw hr rfl rfl fun _ => rfl

/-- A slot that writes a predicate. -/
theorem slotCmd_pW {n : BitVec 3} {v : Bool} (hi : canIssue s h j = true) (hw : isWaitOp op = false)
    (hr : evalSlot s h.tile j (ctxOf s h.tile j) h.eng false false (slotOf h op) = { pW := some (n, v) }) :
    slotCmd h op s = .next (advance s h j fun c => setP c n v) :=
  slotCmd_retires hi hw hr rfl rfl fun _ => rfl

/-- A slot that writes a counter handle register. -/
theorem slotCmd_cW {n : BitVec 4} {v : W32} (hi : canIssue s h j = true) (hw : isWaitOp op = false)
    (hr : evalSlot s h.tile j (ctxOf s h.tile j) h.eng false false (slotOf h op) = { cW := some (n, v) }) :
    slotCmd h op s = .next (advance s h j fun c => setC c n v) :=
  slotCmd_retires hi hw hr rfl rfl fun _ => rfl

/-- A slot that writes no register and does one effect. -/
theorem slotCmd_act {act : State → State} (hi : canIssue s h j = true) (hw : isWaitOp op = false)
    (hr : evalSlot s h.tile j (ctxOf s h.tile j) h.eng false false (slotOf h op) = { act }) :
    slotCmd h op s = .next (act (advance s h j id)) :=
  slotCmd_retires hi hw hr rfl rfl fun _ => rfl

/-- A slot that writes a general register and does one effect. -/
theorem slotCmd_gW_act {n : BitVec 5} {v : W64} {act : State → State} (hi : canIssue s h j = true) (hw : isWaitOp op = false)
    (hr : evalSlot s h.tile j (ctxOf s h.tile j) h.eng false false (slotOf h op) = { gW := some (n, v), act }) :
    slotCmd h op s = .next (act (advance s h j fun c => setG c n v)) :=
  slotCmd_retires hi hw hr rfl rfl fun _ => rfl

/-- A slot that only raises an exception. -/
theorem slotCmd_excRes {cause : Byte} {info : W64} (hi : canIssue s h j = true)
    (hr : evalSlot s h.tile j (ctxOf s h.tile j) h.eng false false (slotOf h op) = excRes cause info) :
    slotCmd h op s = .next (stopped s h j cause info) :=
  slotCmd_stops (e := (cause, info)) hi (by rw [hr]; rfl)

/-- A control slot that jumps. -/
theorem slotCmd_jump {pc : W64} (hi : canIssue s h j = true) (he : h.eng = false) (hw : isWaitOp op = false)
    (hr : evalSlot s h.tile j (ctxOf s h.tile j) h.eng false false (slotOf h op) = { target := some pc }) :
    slotCmd h op s = .next (branch s h j pc id) :=
  slotCmd_retires hi hw hr rfl rfl fun h => by simp [he] at h

/-- A control slot that writes a general register and jumps. -/
theorem slotCmd_jump_gW {n : BitVec 5} {v pc : W64} (hi : canIssue s h j = true) (he : h.eng = false) (hw : isWaitOp op = false)
    (hr : evalSlot s h.tile j (ctxOf s h.tile j) h.eng false false (slotOf h op) = { gW := some (n, v), target := some pc }) :
    slotCmd h op s = .next (branch s h j pc fun c => setG c n v) :=
  slotCmd_retires hi hw hr rfl rfl fun h => by simp [he] at h

/-- A control slot that cannot retire holds its bundle. -/
theorem slotCmd_blocked {r : SlotRes} (hi : canIssue s h j = true) (he : h.eng = false)
    (hr : evalSlot s h.tile j (ctxOf s h.tile j) h.eng false false (slotOf h op) = r) (hx : r.exc = none) (hb : r.blocked = true) :
    slotCmd h op s = .next (waiting s h j op r.start) := by
  rw [slotCmd_runs hi hr, hx]
  simp [hb, he, bundleOf, waiting, hold, firstPwr]

/-- A wait that resolves retires, and keeps its context at a switch point (R397). -/
theorem slotCmd_resolves {r : SlotRes} (hi : canIssue s h j = true) (he : h.eng = false) (hw : isWaitOp op = true)
    (hr : evalSlot s h.tile j (ctxOf s h.tile j) h.eng false false (slotOf h op) = r) (hx : r.exc = none) (hb : r.blocked = false)
    (hs : r.store = none) (ht : r.target = none) :
    slotCmd h op s = .next (r.act (advanceWait s h j (putRegs r))) := by
  rw [slotCmd_runs hi hr, hx]
  simp only [canIssue, Bool.and_eq_true, decide_eq_true_eq, Option.isNone_iff_eq_none, Bool.not_eq_true'] at hi
  obtain ⟨⟨⟨⟨⟨⟨_, _⟩, _⟩, _⟩, hg⟩, _⟩, hm⟩ := hi
  have hg' : guardTrue (getCtx (getTile s h.tile) j) (slotOf h op) = true := by simpa [guardTrue, slotOf] using hg
  have hk : keepsPoint (getCtx (getTile s h.tile) j) (bundleOf h op).1 (bundleOf h op).2 = true := by
    have h1 : (bundleOf h op).1 = slotOf h op := by simp [bundleOf, he]
    have h2 : (bundleOf h op).2 = decodeSlot h.mate := by simp [bundleOf, he]
    have hso : (slotOf h op).op = op := rfl
    rw [h1, h2]
    unfold keepsPoint
    rw [hg', hso, hw]
    simp only [mateIdle, slotIdle] at hm
    cases hgm : guardTrue (getCtx (getTile s h.tile) j) (decodeSlot h.mate) with
    | false => simp
    | true => rw [hgm] at hm; simp at hm; simp [hm.1]
  simp only [hb]
  congr 1
  simp [retire, retireCtx, advanceWait, putRegs_none, hk, ht, he, modTile, putStore, hs]

end

end Sys2Proof.Machine
end

