-- ==== Sys2Proof/Laws/Exceptions.lean ====
section
/-!
SUPPORT. What taking an exception of a tile does (R141, R177-R179): the context alone, the error record and the job's state.
-/
namespace Sys2Proof.Machine
open Sys2Proof

theorem SameButLog.jobSt (s : State) (j : BitVec 2) (st : JobSt) : SameButLog s (setJobSt s j st) := by
  unfold setJobSt
  exact SameButLog.trans (t := modJob s j fun x => { x with st }) rfl (SameButLog.event _ _ _ _ _)

theorem SameButLog.paused (s : State) (j : BitVec 2) : SameButLog s (checkPaused s j) := by
  unfold checkPaused
  split
  · exact SameButLog.jobSt _ _ _
  · rfl

theorem SameButLog.finished (s : State) (j : BitVec 2) : SameButLog s (checkFinished s j) := by
  unfold checkFinished
  split
  · exact SameButLog.jobSt _ _ _
  · rfl

theorem SameButLog.tiles {s t : State} (h : SameButLog s t) : t.tiles = s.tiles := by rw [h]
theorem SameButLog.net {s t : State} (h : SameButLog s t) : t.net = s.net := by rw [h]
theorem SameButLog.dies {s t : State} (h : SameButLog s t) : t.dies = s.dies := by rw [h]
theorem SameButLog.getTile {s t : State} (h : SameButLog s t) (u : W16) : getTile t u = getTile s u := by unfold Machine.getTile; rw [h.tiles]

/-- A precise exception is the context's new state, and then records and events. -/
theorem excPrecise_same (s : State) (t : W16) (j : BitVec 2) (eng : Bool) (cause : Byte) (info : W64) :
    SameButLog (modCtx s t j fun c => { noteExc c cause true eng (getCtx (getTile s t) j).pc info with wait := none })
      (excPrecise s t j eng cause info) :=
  (SameButLog.err _ _ (by simp [excErr])).trans (SameButLog.paused _ _)

/-- The stopped context: state, cause, address and detail of its first exception; nothing else of it changes (R141, R177, R179). -/
theorem ctxOf_excPrecise (s : State) (t : W16) (j : BitVec 2) (eng : Bool) (cause : Byte) (info : W64) :
    ctxOf (excPrecise s t j eng cause info) t j = { noteExc (ctxOf s t j) cause true eng (ctxOf s t j).pc info with wait := none } := by
  unfold ctxOf
  rw [(excPrecise_same s t j eng cause info).getTile]
  simp [modCtx]

/-- Other contexts of the tile, and other tiles, are unaffected (R177). -/
theorem ctxOf_excPrecise_other (s : State) (t : W16) {j k : BitVec 2} (eng : Bool) (cause : Byte) (info : W64) (h : k ≠ j) :
    ctxOf (excPrecise s t j eng cause info) t k = ctxOf s t k := by
  unfold ctxOf
  rw [(excPrecise_same s t j eng cause info).getTile]
  simp [modCtx, getCtx_putCtx_other _ _ h]

theorem getTile_excPrecise_other (s : State) {t u : W16} (j : BitVec 2) (eng : Bool) (cause : Byte) (info : W64) (h : u ≠ t) :
    getTile (excPrecise s t j eng cause info) u = getTile s u := by
  rw [(excPrecise_same s t j eng cause info).getTile]
  exact getTile_putTile_other _ _ h

end Sys2Proof.Machine
end

