-- ==== Sys2Proof/Laws/Handles.lean ====
section
/-!
SUPPORT. What a push of a handle, a slot's filling and draining, and a counter's addition can do.
-/
namespace Sys2Proof.Laws
open Sys2Proof Sys2Proof.Machine

/-- A push lands in its queue, is held behind a full one, or is dropped with a record; 0x1FFF names no queue. -/
theorem pushHandle_cases (s : State) (die : Nat) (q : BitVec 13) (t : W16) (j : BitVec 2) (h : W32) (src : PushSrc) :
    (q = 0x1FFF ∧ pushHandle s die q t j h src = (s, .landed))
    ∨ (∃ x, pushHandle s die q t j h src = (putDie s die x, .landed)) ∨ (∃ x, pushHandle s die q t j h src = (putDie s die x, .held))
    ∨ (∃ x, pushHandle s die q t j h src = (putTile s t x, .landed)) ∨ (∃ x, pushHandle s die q t j h src = (putTile s t x, .held))
    ∨ pushHandle s die q t j h src = (dropHandle s die t j, .dropped) := by
  unfold pushHandle
  dsimp only
  split
  · rename_i h1; exact .inl ⟨h1, rfl⟩
  · split
    · split
      · split
        · exact .inr (.inl ⟨_, rfl⟩)
        · exact .inr (.inr (.inl ⟨_, rfl⟩))
      · exact .inr (.inr (.inr (.inr (.inr rfl))))
    · split
      · split
        · exact .inr (.inr (.inr (.inl ⟨_, rfl⟩)))
        · exact .inr (.inr (.inr (.inr (.inl ⟨_, rfl⟩))))
      · exact .inr (.inr (.inr (.inr (.inr rfl))))

/-- A push to a tile's queue that takes it stands behind the others. -/
theorem pushHandle_lands {s : State} {die : Nat} {q : BitVec 13} {t : W16} {j : BitVec 2} {h : W32} {src : PushSrc} (h1 : q ≠ 0x1FFF)
    (h2 : bitAt q 12 = false) (h3 : hqEnabled (getHq (getTile s t) (fldN q 0 3)) = true) (h4 : (getHq (getTile s t) (fldN q 0 3)).draining = false)
    (h5 : hqOwner (getHq (getTile s t) (fldN q 0 3)) = j) (h6 : (getHq (getTile s t) (fldN q 0 3)).handles.length < 64) :
    pushHandle s die q t j h src = (putTile s t (putHq (getTile s t) (fldN q 0 3)
      { getHq (getTile s t) (fldN q 0 3) with handles := (getHq (getTile s t) (fldN q 0 3)).handles ++ [h] }), .landed) := by
  unfold pushHandle
  simp only [h1, if_false, h2, h3, h4, h5, h6]
  rfl

/-- A drain of a slot that is not FULL does nothing. -/
theorem slotDrain_notFull {s : State} {t : W16} {k : Nat} (h : (getSlot (getTile s t) k).st ≠ .full) : slotDrain s t k = s := by
  unfold slotDrain
  simp only [h, if_false]

/-- A fill below the slot's length leaves it FILLING and pushes nothing. -/
theorem slotFill_part {s : State} {t : W16} {k n : Nat} (h : (getSlot (getTile s t) k).filled + n < slotLen (getSlot (getTile s t) k)) :
    slotFill s t k n = putTile s t (putSlot (getTile s t) k
      { getSlot (getTile s t) k with st := .filling, filled := (getSlot (getTile s t) k).filled + n }) := by
  unfold slotFill
  simp only [h, if_true]

/-- A unit's addition to a counter that is enabled and its context's. -/
theorem arriveCount_counts {s : State} {t : W16} {k : Nat} {j : BitVec 2} (h1 : (getAcnt (getTile s t) k).enable = true)
    (h2 : (getAcnt (getTile s t) k).owner = j) : arriveCount s t k j = acntAdd s t k 1 := by
  unfold arriveCount
  simp only [h1, h2, decide_true, Bool.and_self, if_true]

/-- An addition to another counter, or to one that is disabled, is dropped with a record. -/
theorem arriveCount_drops {s : State} {t : W16} {k : Nat} {j : BitVec 2} (h : (getAcnt (getTile s t) k).enable = false ∨ (getAcnt (getTile s t) k).owner ≠ j) :
    arriveCount s t k j = putErr s (tileErr t (some j) cArrivalDropped 0) := by
  unfold arriveCount
  obtain h | h := h
  · simp only [h, Bool.false_and, Bool.false_eq_true, if_false]
  · simp only [h, decide_false, Bool.and_false, Bool.false_eq_true, if_false]

end Sys2Proof.Laws
end

