-- ==== Sys2Proof/Laws/Lanes.lean ====
section
/-!
SUPPORT. Lanes of a vector register: a register packed from lanes reads back lane by lane (R154).
-/
namespace Sys2Proof.Machine
open Sys2Proof

/-- A field of a number cut to more bits. -/
theorem mod_field (n a w m : Nat) (h : a + w ≤ m) : n % 2 ^ m / 2 ^ a % 2 ^ w = n / 2 ^ a % 2 ^ w := by
  apply Nat.eq_of_testBit_eq
  intro i
  simp only [Nat.testBit_mod_two_pow, Nat.testBit_div_two_pow]
  by_cases hi : i < w
  · have : a + i < m := by omega
    simp [hi, Nat.add_comm, this]
  · simp [hi]

theorem laneAt_eq (lw : BitVec 2) (v : BitVec 512) (k : Nat) : laneAt lw v k = v.toNat / 2 ^ (k * laneBits lw) % 2 ^ laneBits lw := by
  simp [laneAt, fldN, BitVec.extractLsb'_toNat, Nat.shiftRight_eq_div_pow]

theorem laneAt_lt (lw : BitVec 2) (v : BitVec 512) (k : Nat) : laneAt lw v k < 2 ^ laneBits lw := by
  rw [laneAt_eq]; exact Nat.mod_lt _ (Nat.two_pow_pos _)

theorem laneCount_mul (lw : BitVec 2) : laneCount lw * laneBits lw = 512 := by revert lw; decide
theorem laneBits_pos (lw : BitVec 2) : 0 < laneBits lw := by revert lw; decide

theorem pack_lane (w : Nat) (l : List Nat) (k : Nat) (hk : k < l.length) :
    l.foldr (fun x acc => x % 2 ^ w + 2 ^ w * acc) 0 / 2 ^ (k * w) % 2 ^ w = l[k] % 2 ^ w := by
  induction l generalizing k with
  | nil => simp at hk
  | cons x t ih =>
    simp only [List.foldr_cons]
    have hx : x % 2 ^ w < 2 ^ w := Nat.mod_lt _ (Nat.two_pow_pos _)
    cases k with
    | zero => simp
    | succ k =>
      have : (k + 1) * w = w + k * w := by ring
      rw [this, Nat.pow_add, ← Nat.div_div_eq_div_mul, Nat.add_mul_div_left _ _ (Nat.two_pow_pos _), Nat.div_eq_of_lt hx, Nat.zero_add]
      simpa using ih k (by simpa using hk)

/-- A lane of a packed register. -/
theorem laneAt_packLanes (lw : BitVec 2) (l : List Nat) (k : Nat) (hk : k < l.length) (hl : l.length = laneCount lw) :
    laneAt lw (packLanes lw l) k = l[k] % 2 ^ laneBits lw := by
  rw [laneAt_eq, packLanes, BitVec.toNat_ofNat, mod_field _ _ _ _ ?_, pack_lane _ _ _ hk]
  have h1 := laneCount_mul lw
  have : (k + 1) * laneBits lw ≤ 512 := by rw [← h1]; exact Nat.mul_le_mul_right _ (by omega)
  linarith [Nat.succ_mul k (laneBits lw)]

theorem toBits_lt (w : Nat) (x : Int) : toBits w x < 2 ^ w := by
  unfold toBits
  have h : (0 : Int) < ((2 ^ w : Nat) : Int) := by positivity
  have := Int.emod_lt_of_pos x h
  have h0 := Int.emod_nonneg x h.ne'
  omega

theorem toBits_nat (w n : Nat) : toBits w (n : Int) = n % 2 ^ w := by
  unfold toBits
  rw [← Int.natCast_mod, Int.toNat_natCast]

end Sys2Proof.Machine
end

