-- ==== Sys2Proof/Laws/Security.lean ====
section
/-!
SUPPORT. When an image or a token passes every check (R497, R509).
-/
namespace Sys2Proof.Machine
open Sys2Proof

theorem imageRefusal_none {s : State} {i : Image} {typ : Nat} (sig : Config.sigOk i.keys i.manifest i.sigs = true) (hash : Config.sha512 i.payload = i.hash)
    (t : i.mtype.toNat = typ) (svn : ¬ i.svn.toNat < (svnOf s.sec typ).toNat) (key : imageKeyOk s i typ = true) : imageRefusal s i typ = none := by
  simp [imageRefusal, sig, hash, t, svn, key]

theorem imageRefusal_type {s : State} {i : Image} {typ : Nat} (t : i.mtype.toNat ≠ typ) : imageRefusal s i typ ≠ none := by
  unfold imageRefusal
  split
  · exact Option.some_ne_none _
  · split
    · exact Option.some_ne_none _
    · exact Option.some_ne_none _

theorem tokRefusal_none {s : State} {t : Token} (form : tokFormOk t = true) (dev : t.device = Config.deviceDigest)
    (ch : t.kind = 2 ∨ liveChallenge s = some t.nonce) (gen : tokGenOk s t = true) (sig : tokSigOk s t = true) : tokRefusal s t = none := by
  have h : ¬ (t.kind ≠ 2 ∧ liveChallenge s ≠ some t.nonce) := fun h => ch.elim h.1 h.2
  simp only [tokRefusal, form, dev, gen, sig, h, Bool.not_true, if_false, ne_eq, not_true_eq_false, Bool.false_eq_true]

end Sys2Proof.Machine
end

