-- ==== Sys2Proof/WellFormed.lean ====
section
/-!
DEFINITION. The commands a sender can form: operands in the ranges that the formats of the spec give.
-/
namespace Sys2Proof

/-- A tile ID holds bit 15 zero (R8). -/
def wfTile (t : W16) : Bool := !t.getLsbD 15

/-- A router is named by its tile's ID or, with bit 15, by its position in one of the 24 halves (log entry 62). -/
def wfRouter (r : W16) : Bool := wfTile r || decide (r.toNat < 32768 + 24 * 768)

/-- A stack has 32 channels (R312). -/
def wfDie (f : DieFound) : Bool := f.spares.length == 32

/-- What a start-up finds names each of the 12 dies (R13). -/
def wfStart (f : StartFound) : Bool := f.dies.length == 12 && f.dies.all wfDie

/-- A management request carries at most 1,024 bytes of value (R523). -/
def wfBytes (b : List Byte) : Bool := decide (b.length ≤ 1024)

/-- A Tizal flit holds 244 payload bytes (R335). -/
def wfFlit (f : Flit) : Bool := decide (f.payload.length ≤ 244)

/-- A RoCEv2 packet carries at most 4,096 bytes, the largest path MTU, and names a length of 32 bits (R357). -/
def wfRoce (p : RocePkt) : Bool :=
  match p with
  | .write _ _ _ _ _ _ n bs => decide (n < 2 ^ 32) && decide (bs.length ≤ 4096)
  | .readReq _ _ _ _ n => decide (n < 2 ^ 32)
  | .readResp _ _ _ _ bs => decide (bs.length ≤ 4096)
  | _ => true

/-- A checker of a tile or of a router stands at a tile ID (R8, R455). -/
def wfChecker (u : Option CheckerUnit) : Bool :=
  match u with
  | some (.tile t) => wfTile t
  | some (.router t) => wfTile t
  | _ => true

/-- Whether a sender can form the command. -/
def WellFormed (i : Instr) : Bool :=
  match i with
  | .add h _ _ _ => wfTile h.tile
  | .sub h _ _ _ => wfTile h.tile
  | .and h _ _ _ => wfTile h.tile
  | .or h _ _ _ => wfTile h.tile
  | .xor h _ _ _ => wfTile h.tile
  | .shl h _ _ _ => wfTile h.tile
  | .shr h _ _ _ => wfTile h.tile
  | .sra h _ _ _ => wfTile h.tile
  | .mul h _ _ _ => wfTile h.tile
  | .mulh h _ _ _ => wfTile h.tile
  | .mulhu h _ _ _ => wfTile h.tile
  | .min h _ _ _ => wfTile h.tile
  | .max h _ _ _ => wfTile h.tile
  | .minu h _ _ _ => wfTile h.tile
  | .maxu h _ _ _ => wfTile h.tile
  | .ext h _ _ _ => wfTile h.tile
  | .dep h _ _ _ => wfTile h.tile
  | .clz h _ _ _ => wfTile h.tile
  | .popc h _ _ _ => wfTile h.tile
  | .cmpeq h _ _ _ => wfTile h.tile
  | .cmpne h _ _ _ => wfTile h.tile
  | .cmplt h _ _ _ => wfTile h.tile
  | .cmpltu h _ _ _ => wfTile h.tile
  | .cmpge h _ _ _ => wfTile h.tile
  | .cmpgeu h _ _ _ => wfTile h.tile
  | .pand h _ _ _ => wfTile h.tile
  | .por h _ _ _ => wfTile h.tile
  | .pxor h _ _ _ => wfTile h.tile
  | .pnot h _ _ _ => wfTile h.tile
  | .aluiOp h _ _ _ _ => wfTile h.tile
  | .li h _ _ => wfTile h.tile
  | .lih h _ _ => wfTile h.tile
  | .j h _ => wfTile h.tile
  | .jl h _ _ => wfTile h.tile
  | .jr h _ _ => wfTile h.tile
  | .jlr h _ _ _ => wfTile h.tile
  | .loop h _ _ _ => wfTile h.tile
  | .ld h _ _ _ _ => wfTile h.tile
  | .ldu h _ _ _ _ => wfTile h.tile
  | .st h _ _ _ _ => wfTile h.tile
  | .nop h => wfTile h.tile
  | .halt h => wfTile h.tile
  | .haltRetire t => wfTile t
  | .csrr h _ _ => wfTile h.tile
  | .csrw h _ _ => wfTile h.tile
  | .fenceE h => wfTile h.tile
  | .fenceI h => wfTile h.tile
  | .vadd h _ => wfTile h.tile
  | .vsub h _ => wfTile h.tile
  | .vadds h _ => wfTile h.tile
  | .vsubs h _ => wfTile h.tile
  | .vmul h _ => wfTile h.tile
  | .vmulh h _ => wfTile h.tile
  | .vmin h _ => wfTile h.tile
  | .vmax h _ => wfTile h.tile
  | .vand h _ => wfTile h.tile
  | .vor h _ => wfTile h.tile
  | .vxor h _ => wfTile h.tile
  | .vshl h _ => wfTile h.tile
  | .vsra h _ => wfTile h.tile
  | .vsrl h _ => wfTile h.tile
  | .vrsra h _ => wfTile h.tile
  | .vcmpeq h _ => wfTile h.tile
  | .vcmplt h _ => wfTile h.tile
  | .vsel h _ => wfTile h.tile
  | .vredadd h _ => wfTile h.tile
  | .vredmax h _ => wfTile h.tile
  | .vmov h _ => wfTile h.tile
  | .vld h _ _ _ => wfTile h.tile
  | .vst h _ _ _ => wfTile h.tile
  | .vget h _ _ _ _ => wfTile h.tile
  | .vgetu h _ _ _ _ => wfTile h.tile
  | .vput h _ _ _ _ => wfTile h.tile
  | .vbc h _ _ _ _ => wfTile h.tile
  | .chset h _ _ => wfTile h.tile
  | .chget h _ _ => wfTile h.tile
  | .wait h _ _ _ _ => wfTile h.tile
  | .arrive h _ => wfTile h.tile
  | .arriveWait h _ _ _ => wfTile h.tile
  | .acntRd h _ _ => wfTile h.tile
  | .acntAdd h _ _ => wfTile h.tile
  | .slotDrain h _ => wfTile h.tile
  | .slotRd h _ _ => wfTile h.tile
  | .hqPop h _ _ _ => wfTile h.tile
  | .hqPush h _ _ _ => wfTile h.tile
  | .waitRelease t => wfTile t
  | .waitTimeout t => wfTile t
  | .spinPeriodExpire t => wfTile t
  | .gauge h _ _ _ => wfTile h.tile
  | .gaugeStallRelease t => wfTile t
  | .gaugeTimeout t => wfTile t
  | .monw h _ _ _ => wfTile h.tile
  | .press h _ => wfTile h.tile
  | .cvt h _ => wfTile h.tile
  | .gutter h _ => wfTile h.tile
  | .xpose h _ => wfTile h.tile
  | .wclr h _ => wfTile h.tile
  | .wld h _ => wfTile h.tile
  | .wst h _ => wfTile h.tile
  | .wacc h _ => wfTile h.tile
  | .pressStart t => wfTile t
  | .engineSlotResume t _ => wfTile t
  | .slotTimeout t _ => wfTile t
  | .pressResidueMismatch t _ n => wfTile t && decide (n ≤ 131072)
  | .pressComplete t => wfTile t
  | .cvtUnitStart t => wfTile t
  | .conversionComplete t => wfTile t
  | .gutterComplete t => wfTile t
  | .xposeComplete t => wfTile t
  | .wideOpStart t => wfTile t
  | .wideOpComplete t => wfTile t
  | .widePatrol t _ => wfTile t
  | .exch h _ => wfTile h.tile
  | .spost h _ _ => wfTile h.tile
  | .rearm h _ _ => wfTile h.tile
  | .folioEntryIssue t => wfTile t
  | .exchBoundary t => wfTile t
  | .xchTimeout t => wfTile t
  | .routerForward _ => true
  | .meshFlitCrcError _ _ => true
  | .blockWrite _ => true
  | .blockSlotResume _ => true
  | .addRound _ t => wfRouter t
  | .castPrune _ _ => true
  | .prunedMarkerSend t _ _ => wfRouter t
  | .markerReceive _ => true
  | .treeLoad _ _ rs => rs.all (fun e => wfTile e.1)
  | .weirLoad _ _ _ ts => ts.all wfTile
  | .weirCounterArrival _ _ t => wfTile t
  | .weirReleaseArrive _ _ t => t.all wfTile
  | .windowPost _ _ _ _ => true
  | .transferStart _ _ => true
  | .reachPassStart _ _ _ => true
  | .transferStep _ _ => true
  | .translationWalkDone _ _ _ => true
  | .transferComplete _ _ => true
  | .handlePushLand _ _ t => wfTile t
  | .handleWindowPush _ _ _ t _ => wfTile t
  | .faultCtlResume _ _ _ => true
  | .faultCtlFail _ _ _ => true
  | .parkTimeout _ _ => true
  | .streamBlockParkTimeout _ => true
  | .stqDrain _ _ _ => true
  | .stqAbort _ _ _ => true
  | .reachDrain _ _ _ => true
  | .reachAbort _ _ _ => true
  | .hqDrain _ t _ => wfTile t
  | .hqAbort _ t _ => wfTile t
  | .drainLimitExpire _ => true
  | .trnRootWrite _ _ _ => true
  | .trnInval _ _ => true
  | .hbmRequestServe _ _ => true
  | .hbmWriteback _ => true
  | .hbmRefresh _ b => decide (b < 64)
  | .hbmPatrol _ => true
  | .hbmCeSummary _ => true
  | .hbmRecal _ _ _ _ => true
  | .hbmPatrolRestart _ _ => true
  | .spadEccWriteback t _ => wfTile t
  | .spadPatrol t _ => wfTile t
  | .ctxStorePatrol t _ => wfTile t
  | .watchCfgWrite _ _ _ => true
  | .watchReportMerge _ => true
  | .watchClose _ _ _ => true
  | .watchPeerTimeout _ => true
  | .lossCfgWrite _ _ _ => true
  | .lossWindowWrite _ _ _ _ _ _ => true
  | .tileShareWrite _ t _ => wfTile t
  | .acntCfgWrite _ t _ _ => wfTile t
  | .slotCfgWrite _ t _ _ => wfTile t
  | .hqCfgWrite _ t _ _ => wfTile t
  | .stqCfgWrite _ _ _ _ => true
  | .reachCfgWrite _ _ _ _ => true
  | .contextSwitch t => wfTile t
  | .yieldMaxExpire t => wfTile t
  | .switchLate t => wfTile t
  | .yieldRegWrite _ t _ _ => wfTile t
  | .jobLoad _ _ => true
  | .jobResume _ _ => true
  | .jobPause _ _ => true
  | .jobUnload _ _ => true
  | .jobReload _ _ => true
  | .jobDiscard _ _ => true
  | .ctxResume _ t _ => wfTile t
  | .ctxRestart _ t _ _ => wfTile t
  | .pubCfgWrite _ _ _ => true
  | .publish _ _ _ => true
  | .unpublish _ _ => true
  | .hold _ _ => true
  | .release _ _ => true
  | .trnViewWrite _ _ _ => true
  | .gatherPost _ _ => true
  | .gatherPassDone _ => true
  | .collRound _ => true
  | .gatherPacketReceive _ _ _ _ => true
  | .gatherAbandonReceive _ => true
  | .gatherRestartReceive _ _ _ => true
  | .gatherTimeout _ => true
  | .gatherStaleSummary => true
  | .gatherReshard _ _ _ => true
  | .reshardLimitExpire _ => true
  | .gatherPin _ _ _ _ _ => true
  | .gatherRetire _ _ _ => true
  | .gatherDrain _ _ => true
  | .gatherAbort _ _ => true
  | .gatherAbandon _ _ _ _ => true
  | .gatherResume _ _ => true
  | .gatherDrainLimitExpire _ => true
  | .gatherTreeWrite _ _ _ => true
  | .shardEntryWrite _ _ _ _ => true
  | .portCfgWrite _ _ _ => true
  | .portStart _ _ => true
  | .stopDrain _ _ => true
  | .stopAbort _ _ => true
  | .retrain _ _ => true
  | .portTrainingDone _ _ => true
  | .laneLockLoss _ _ => true
  | .tzFlitReceive _ _ f => wfFlit f
  | .tzAckTimer _ => true
  | .tzReplayTimeout _ => true
  | .tzReplaySummary _ => true
  | .ctrlMessageReceive _ _ => true
  | .peerLost _ => true
  | .tzPeerWrite _ _ _ => true
  | .portAddRound t _ _ => wfTile t
  | .addLagExpire t _ _ => wfTile t
  | .portStreamSend _ _ => true
  | .landReceive _ _ _ _ => true
  | .landTimeout _ => true
  | .rocePacketReceive _ _ p => wfRoce p
  | .roceWrPost _ _ => true
  | .roceRequestComplete _ => true
  | .roceRetryTimeout _ => true
  | .cnpReceive _ => true
  | .roceRateRecovery _ => true
  | .ethFrameReceive _ _ _ _ => true
  | .roceMrWrite _ _ _ _ => true
  | .ucieModuleLoss _ => true
  | .d2dLinkLockLoss _ _ _ _ => true
  | .dieClockLoss _ => true
  | .heartbeatTimeout _ => true
  | .dieControlWatchdog _ => true
  | .refLoss => true
  | .dieResetCmd _ _ => true
  | .dieRejoinCmd _ _ f => wfDie f
  | .edgeRetrain _ _ _ => true
  | .rejoinDelayExpire _ _ => true
  | .clockStepChange _ _ => true
  | .modResetFall => true
  | .modResetRise f => wfStart f
  | .fenceTile _ t => wfTile t
  | .bypassRouter _ t => wfTile t
  | .errMergeEnd _ _ _ _ => true
  | .checkerSelftest u => wfChecker u
  | .fatalResetExpire f => wfStart f
  | .mgmtCheckpoint => true
  | .mgmtWatchdog => true
  | .handover _ _ => true
  | .commit _ => true
  | .revert _ => true
  | .probationEnd => true
  | .appWatchdog _ => true
  | .spad1 _ t _ _ => wfTile t
  | .spad2 _ t _ _ => wfTile t
  | .residue _ t => wfTile t
  | .meshFlit _ t _ => wfTile t
  | .weirCopy _ t _ => wfTile t
  | .hbmSymbol _ _ _ _ => true
  | .d2dFlit _ _ => true
  | .tizalFlit _ _ => true
  | .ctxStore2 _ t => wfTile t
  | .regionWrite _ _ _ => true
  | .tokenWrite _ => true
  | .tokenClaim _ => true
  | .tokenRotate _ => true
  | .tokenDecommission _ => true
  | .challengeRead => true
  | .challengeExpire => true
  | .lockoutEnd => true
  | .attestNonceWrite _ => true
  | .attestReportReady => true
  | .imageStage _ _ => true
  | .appCommit _ _ => true
  | .jtagBypass _ => true
  | .jtagIdcode => true
  | .jtagSamplePreload _ _ => true
  | .jtagExtest => true
  | .ddpRead _ => true
  | .ddpWrite _ b => wfBytes b
  | .describe _ => true
  | .segRead _ n => decide (n < 65536)
  | .segWriteStart _ _ => true
  | .segWrite _ b => wfBytes b
  | .segWriteEnd _ _ => true
  | .segAbort _ => true
  | .segTransferTimeout _ _ _ => true
  | .snapshotExpire _ _ _ => true
  | .discover _ => true
  | .eventAck _ => true
  | .eventResend _ => true
  | .pendingTimer => true
  | .responseCacheExpire => true
  | .transmitOpportunity => true
  | .plcaBeaconTimeout => true
  | .dadRepeat _ => true
  | .icmpv6Receive _ => true
  | .store _ => true
  | .restore _ => true
  | .windowLoad _ _ => true
  | .windowStoreStage _ _ _ => true
  | .windowStoreCommit _ _ _ => true
  | .winDomainRead _ _ => true
  | .winDomainWrite _ _ => true
  | .winDomainCommit _ _ => true
  | .watchImageWrite _ _ _ => true
  | .powerStart _ f => wfStart f
  | .powerStandby _ => true
  | .powerCfgWrite _ _ => true
  | .thermCfgWrite _ _ => true
  | .inputLow _ => true
  | .uvloFall => true
  | .inputOvervoltage _ => true
  | .railExcursion _ => true
  | .phaseFault _ _ => true
  | .budgetEval _ _ _ _ => true
  | .thermalSample d _ => (d.length == 12)
  | .registerWrite _ _ _ _ _ => true
  | .inputInRange _ f => wfStart f
  | .railRegulationReturn _ => true
  | .trainingFrameReceive _ => true
  | .treePortLost _ => true
  | .gatherWithdrawReceive _ _ _ _ => true
  | .referenceCycle => true
  | .islandSramPatrol _ _ => true
  | .plcaBeacon => true
  | .priorityFlowControl _ _ _ => true
  | .droppedDatagram n => decide (n < 65536)

end Sys2Proof
end

