-- ==== Sys2Proof/Tests/Slice0.lean ====
section
/-!
SUPPORT. The model's own tests: commands on small states with values from the spec, and, for every statement that has hypotheses, states and
operands that meet them (theorems whose names begin witness_).
-/
namespace Sys2Proof.Tests
open Sys2Proof Sys2Proof.Machine
set_option Elab.async false

/-! ## Small states -/

/-- What an answer leaves, if it is a next state. -/
def obs {α : Type} (o : Host.Outcome State Fault Refusal) (f : State → α) : Option α :=
  match o with
  | .next t => some (f t)
  | _ => none

/-- A control slot and an engine slot of tile 0 beside a NOP. -/
def ctl : SlotHdr := { tile := 0, eng := false, pg := 0, pn := false, rsv := false, mate := 0 }
def egn : SlotHdr := { ctl with eng := true }

/-- A module whose die 0 is READY and has the two tiles 0 and 1. -/
def base : State :=
  { State.reset with
    mod := { State.reset.mod with st := .ready, step := 8, present := 0xFFF, resetN := true, time := 5000 }
    halves := [(0, { Half.reset with map := [0, 1] })]
    dies := [(0, { Die.reset with st := .ready, watchReady := true })]
    hbmStacks := [(0, { Stack.reset with st := .ready })] }

/-- The same with tile 0 as given. -/
def withTile (x : Tile) : State := { base with tiles := [(0, x)] }

/-- A tile whose context 0 runs with a share of everything. -/
def tileOf (c : Ctx) : Tile := { Tile.reset with ctx := [(0, { c with st := .running })] }

def ctx0 : Ctx := { Ctx.reset with pc := 0x100, g := [(1, 5), (2, 7), (3, 0xFFFFFFFFFFFFFFFE), (4, 0x200)] }

def core0 : State := withTile (tileOf ctx0)

/-- Register n of context 0 of tile 0, and its PC. -/
def gReg (n : BitVec 5) (t : State) : W64 := getG (ctxOf t 0 0) n
def pcOf (t : State) : W64 := (ctxOf t 0 0).pc
def cause (t : State) : W32 := (ctxOf t 0 0).excCause

/-! ## Commands that no sender can form -/

theorem test_wellformed_tile : WellFormed (.add { ctl with tile := 0x8000 } 0 0 0) = false ∧ WellFormed (.add ctl 0 0 0) = true
    ∧ WellFormed (.haltRetire 0x8000) = false ∧ WellFormed (.weirLoad .port 0 0 [0, 0x8000]) = false
    ∧ WellFormed (.treeLoad .port 0 [(0x8001, 0)]) = false ∧ WellFormed (.weirReleaseArrive 0 0 (some 0x8000)) = false
    ∧ WellFormed (.checkerSelftest (some (.router 0x9000))) = false := by decide

theorem test_wellformed_value (r : DdpReq) : WellFormed (.ddpWrite r (List.replicate 1025 0)) = false
    ∧ WellFormed (.ddpWrite r (List.replicate 1024 0)) = true :=
  ⟨show decide ((List.replicate 1025 (0 : Byte)).length ≤ 1024) = false by rw [List.length_replicate]; rfl,
    show decide ((List.replicate 1024 (0 : Byte)).length ≤ 1024) = true by rw [List.length_replicate]; rfl⟩

theorem test_wellformed_lengths : WellFormed (.segRead ⟨⟨0, 0⟩, 0, 0, 0, 0, 0⟩ 65536) = false ∧ WellFormed (.droppedDatagram 65536) = false
    ∧ WellFormed (.hbmRefresh 0 64) = false ∧ WellFormed (.thermalSample [] 0) = false ∧ WellFormed (.pressResidueMismatch 0 true 131073) = false
    ∧ WellFormed (.rocePacketReceive 0 false (.readReq 0 0 0 0 0x100000000)) = false ∧ WellFormed (.routerForward 3) = true ∧ WellFormed (.addRound 4 0xC800) = false := by decide +kernel

def noFlit (n : Nat) : Flit :=
  { typ := 1, vl := 1, seq := 0, ack := 0, nak := false, crVl := 0, crCount := 0, sbEpoch := 0, sbWidth := 8, sbSlot := 0, len := 1
    payload := List.replicate n 0 }

theorem test_wellformed_flit : WellFormed (.tzFlitReceive 0 ⟨0, none⟩ (noFlit 245)) = false ∧ WellFormed (.tzFlitReceive 0 ⟨0, none⟩ (noFlit 244)) = true := by
  decide +kernel

def noStart : StartFound :=
  { inRange := false, slotId := 0, refSel := false, katOk := true, pufOk := true, monoOk := true, slotAOk := true, slotBOk := true
    badRecords := [], badRails := [], baseDiesOk := true, refOk := true, dies := [], edgesOk := 0, pairs := [], ucieOk := 0, addrFree := true }

theorem test_wellformed_start : WellFormed (.modResetRise noStart) = false ∧ WellFormed (.powerStart .port noStart) = false
    ∧ WellFormed (.inputInRange 3600 noStart) = false ∧ WellFormed (.fatalResetExpire noStart) = false := by decide

/-! ## Tile core -/

theorem test_step_takes_front : obs (step { base with pending := [.refLoss, .tzAckTimer 0] }) (fun t => (t.pending.length, t.mod.st)) = some (1, .failed) := by
  decide +kernel

theorem test_step_idles : obs (step base) (fun t => t.mod.time) = some 5000 := by decide +kernel

theorem witness_core : canIssue core0 ctl 0 = true ∧ canIssue core0 egn 0 = true ∧ ctl.eng = false ∧ egn.eng = true := by decide +kernel

/-- R145, on 5, 7 and -2. -/
theorem test_alu : obs (exec (.add ctl 9 1 3) core0) (gReg 9) = some 3 ∧ obs (exec (.sub ctl 9 1 2) core0) (gReg 9) = some (-2)
    ∧ obs (exec (.and ctl 9 1 2) core0) (gReg 9) = some 5 ∧ obs (exec (.or ctl 9 1 2) core0) (gReg 9) = some 7
    ∧ obs (exec (.xor ctl 9 1 2) core0) (gReg 9) = some 2 ∧ obs (exec (.shl ctl 9 1 2) core0) (gReg 9) = some 640
    ∧ obs (exec (.shr ctl 9 3 1) core0) (gReg 9) = some 0x07FFFFFFFFFFFFFF ∧ obs (exec (.sra ctl 9 3 1) core0) (gReg 9) = some (-1)
    ∧ obs (exec (.mul ctl 9 1 3) core0) (gReg 9) = some (-10) ∧ obs (exec (.mulh ctl 9 1 3) core0) (gReg 9) = some (-1)
    ∧ obs (exec (.mulhu ctl 9 1 3) core0) (gReg 9) = some 4 ∧ obs (exec (.min ctl 9 1 3) core0) (gReg 9) = some (-2)
    ∧ obs (exec (.minu ctl 9 1 3) core0) (gReg 9) = some 5 ∧ obs (exec (.max ctl 9 1 3) core0) (gReg 9) = some 5
    ∧ obs (exec (.maxu ctl 9 1 3) core0) (gReg 9) = some (-2) ∧ obs (exec (.clz ctl 9 1 0) core0) (gReg 9) = some 61
    ∧ obs (exec (.clz ctl 9 0 0) core0) (gReg 9) = some 64 ∧ obs (exec (.popc ctl 9 3 0) core0) (gReg 9) = some 63 := by decide +kernel

/-- R145: g0 reads zero and takes no write; the next bundle follows. -/
theorem test_alu_zero : obs (exec (.add ctl 0 1 2) core0) (fun t => (gReg 0 t, pcOf t)) = some (0, 0x110) := by decide +kernel

/-- EXT and DEP of four bits at bit 8: gB is 8 + 64 × 3. -/
theorem test_fields : let s := withTile (tileOf { ctx0 with g := [(1, 0xABCDEF), (2, 8 + 64 * 3), (9, -1)] })
    obs (exec (.ext ctl 8 1 2) s) (gReg 8) = some 0xD ∧ obs (exec (.dep ctl 9 1 2) s) (gReg 9) = some 0xFFFFFFFFFFFFFFFF := by decide +kernel

theorem test_compares : let p (k : BitVec 3) (t : State) : Bool := getP (ctxOf t 0 0) k
    obs (exec (.cmpeq ctl 7 1 1) core0) (p 7) = some true ∧ obs (exec (.cmpne ctl 7 1 1) core0) (p 7) = some false
    ∧ obs (exec (.cmplt ctl 7 3 1) core0) (p 7) = some true ∧ obs (exec (.cmpltu ctl 7 3 1) core0) (p 7) = some false
    ∧ obs (exec (.cmpge ctl 7 3 1) core0) (p 7) = some false ∧ obs (exec (.cmpgeu ctl 7 3 1) core0) (p 7) = some true
    ∧ obs (exec (.pand ctl 1 0 1) core0) (p 1) = some false ∧ obs (exec (.por ctl 1 0 1) core0) (p 1) = some true
    ∧ obs (exec (.pxor ctl 1 0 0) core0) (p 1) = some false ∧ obs (exec (.pnot ctl 1 2 0) core0) (p 1) = some true
    ∧ obs (exec (.cmpeq ctl 8 1 1) core0) cause = some 0x201 := by decide +kernel

theorem test_immediate : obs (exec (.li ctl 9 0x80000000) core0) (gReg 9) = some 0xFFFFFFFF80000000
    ∧ obs (exec (.lih ctl 1 0x12345678) core0) (gReg 1) = some 0x1234567800000005
    ∧ obs (exec (.aluiOp ctl 0x10 9 1 0xC0) core0) (gReg 9) = some 5 ∧ obs (exec (.aluiOp ctl 0x00 9 1 0xFFFFFFFF) core0) (gReg 9) = some 4
    ∧ obs (exec (.aluiOp ctl 0x25 7 1 5) core0) (fun t => getP (ctxOf t 0 0) 7) = some true
    ∧ obs (exec (.aluiOp ctl 0x11 9 1 0) core0) cause = some 0x201 ∧ obs (exec (.aluiOp ctl 0x3F 9 1 0) core0) cause = some 0x201 := by
  decide +kernel

theorem test_branches : obs (exec (.j ctl 0xFFFFFFFF) core0) pcOf = some 0xF0 ∧ obs (exec (.jl ctl 9 2) core0) (fun t => (pcOf t, gReg 9 t)) = some (0x120, 0x110)
    ∧ obs (exec (.jr ctl 4 1) core0) pcOf = some 0x210 ∧ obs (exec (.jlr ctl 9 4 0) core0) (fun t => (pcOf t, gReg 9 t)) = some (0x200, 0x110)
    ∧ obs (exec (.jr ctl 1 0) core0) cause = some 0x203 ∧ obs (exec (.loop ctl 0 1 0xFFFFFFFE) core0) (fun t => (pcOf t, gReg 1 t)) = some (0xE0, 4)
    ∧ obs (exec (.loop ctl 0 1 2) (withTile (tileOf { ctx0 with g := [(1, 1)] }))) (fun t => (pcOf t, gReg 1 t)) = some (0x110, 0) := by decide +kernel

/-- R148: the last aligned address of the scratchpad's first share, an unaligned one and one outside the share. -/
theorem witness_memory : let x := getTile core0 0
    inShare x 0 0x200 8 = true ∧ inShare x 0 (512 * 1024 - 8) 8 = true ∧ inShare x 0 (512 * 1024) 8 = false ∧ badMerges x 0x200 8 = [] := by decide +kernel

theorem test_store_load : let t := exec (.st ctl 1 3 4 2) core0
    obs t (fun t => ((getTile t 0).spad, pcOf t)) = some ([(0x202, 0xFE), (0x203, 0xFF)], 0x110)
    ∧ obs (exec (.ld ctl 0 9 4 3) (withTile { tileOf ctx0 with spad := [(0x203, 0x80)] })) (gReg 9) = some (-128)
    ∧ obs (exec (.ldu ctl 0 9 4 3) (withTile { tileOf ctx0 with spad := [(0x203, 0x80)] })) (gReg 9) = some 128
    ∧ obs (exec (.ldu ctl 3 9 4 0) core0) cause = some 0x201 ∧ obs (exec (.ld ctl 1 9 4 1) core0) cause = some 0x203
    ∧ obs (exec (.st ctl 3 1 4 0x7FE00) core0) cause = some 0x204
    ∧ obs (exec (.ld ctl 2 9 4 0) (withTile { tileOf ctx0 with spadEcc := [(0x40, .double)] })) cause = some 0x254 := by decide +kernel

/-! ### The system class, bundles and fetch -/

def idleOp (k : EngKind) : EngOp :=
  { kind := k, job := 0, block := 0, addr := 0x1000, imm := 0, doneEn := false, done := 0, seq := 0, pc := 0xF0, started := true, slotWait := none
    rngSeed := 0, rngStep := 0, rngOp := 0, watchStep := 0, injected := false }

/-- Tile 0 with one press operation of context 0 that has started, and one that has not. -/
def busyTile : Tile := { tileOf ctx0 with eng := { (tileOf ctx0).eng with press := [idleOp .press] } }

theorem test_system : obs (exec (.nop egn) core0) pcOf = some 0x110 ∧ obs (exec (.fenceE ctl) core0) pcOf = some 0x110
    ∧ obs (exec (.fenceE ctl) (withTile busyTile)) (fun t => (pcOf t, (ctxOf t 0 0).wait.isSome)) = some (0x100, true)
    ∧ obs (exec (.halt ctl) core0) (fun t => (pcOf t, (ctxOf t 0 0).st)) = some (0x110, .halted)
    ∧ obs (exec (.halt ctl) (withTile busyTile)) (fun t => (pcOf t, (ctxOf t 0 0).st)) = some (0x100, .running)
    ∧ obs (exec (.fenceI ctl) (withTile { tileOf ctx0 with fetchBuf := [4, 8] })) (fun t => (getTile t 0).fetchBuf) = some []
    ∧ obs (exec (.halt egn) core0) cause = some 0x301 := by decide +kernel

theorem witness_csr : csrRead core0 0 0 0x063 = none ∧ csrRead core0 0 0 0x024 = some 1000
    ∧ (csrWaits 0x024 && !allStarted (getTile core0 0) 0) = false ∧ (csrWaits 0x020 && !allStarted (getTile core0 0) 0) = false := by decide +kernel

theorem test_csr : obs (exec (.csrr ctl 9 2) core0) (gReg 9) = some 524288 ∧ obs (exec (.csrr ctl 9 0x063) core0) cause = some 0x206
    ∧ obs (exec (.csrw ctl 1 0x021) (withTile (tileOf { ctx0 with rngOp := 9 }))) (fun t => ((ctxOf t 0 0).rngStep, (ctxOf t 0 0).rngOp)) = some (5, 0)
    ∧ obs (exec (.csrw ctl 1 0x030) core0) cause = some 0x206
    ∧ obs (exec (.csrw ctl 1 0x040) (withTile { tileOf ctx0 with regs := { Tile.reset.regs with wideOwner := 1 } })) cause = some 0x206 := by decide +kernel

theorem witness_fetch : let s := withTile (tileOf { ctx0 with pc := 524288 })
    coreSlot (.add ctl 1 2 3) = some (ctl, .alu 0 1 2 3) ∧ tilePresent s 0 = true ∧ runningCtx (getTile s 0) = some 0 ∧ (ctxOf s 0 0).wait = none
    ∧ inShare (getTile s 0) 0 (ctxOf s 0 0).pc.toNat 16 = false ∧ obs (exec (.add ctl 1 2 3) s) cause = some 0x205 := by decide +kernel

/-- Slot words written out field by field (R137, R145-R174): class, PG, PN, OP, fields. -/
theorem test_slot_words :
    decodeSlot (0x1#4 ++ 0#3 ++ 0#1 ++ 0x01#6 ++ 1#5 ++ 2#5 ++ 3#5 ++ 0#35) = { pg := 0, pn := false, rsv := false, op := .alu 0x01 1 2 3 }
    ∧ decodeSlot (0x2#4 ++ 5#3 ++ 1#1 ++ 0x30#6 ++ 9#5 ++ 0#5 ++ 0#8 ++ 0xFFFFFFFF#32) = { pg := 5, pn := true, rsv := false, op := .alui 0x30 9 0 0xFFFFFFFF }
    ∧ decodeSlot (0x3#4 ++ 0#3 ++ 0#1 ++ 0x04#6 ++ 0#5 ++ 7#5 ++ 0#8 ++ 0x80000000#32) = { pg := 0, pn := false, rsv := false, op := .br 0x04 0 7 0x80000000 }
    ∧ decodeSlot (0x4#4 ++ 0#3 ++ 0#1 ++ 0x0B#6 ++ 1#5 ++ 2#5 ++ 1#8 ++ 8#32) = { pg := 0, pn := false, rsv := true, op := .mem 0x0B 1 2 8 }
    ∧ decodeSlot (0x0#4 ++ 0#3 ++ 0#1 ++ 0x02#6 ++ 9#5 ++ 0#5 ++ 0x024#12 ++ 0#28) = { pg := 0, pn := false, rsv := false, op := .sys 0x02 9 0 0x024 }
    ∧ decodeSlot (0x5#4 ++ 0#3 ++ 0#1 ++ 0x02#6 ++ 9#5 ++ 3#4 ++ 2#5 ++ 1#2 ++ 0#34) = { pg := 0, pn := false, rsv := false, op := .sync 0x02 9 3 2 1 }
    ∧ decodeSlot (0x7#4 ++ 0#60) = { pg := 0, pn := false, rsv := false, op := .reserved } := by decide +kernel

/-- ADD g1 = g1 + g2 beside SUB g3 = g1 - g2, and beside SUB g1 = g1 - g2 (R139, R176). -/
theorem witness_bundle : let sub (d : BitVec 5) : SlotHdr := { ctl with mate := 0x1#4 ++ 0#3 ++ 0#1 ++ 0x01#6 ++ d ++ 1#5 ++ 2#5 ++ 0#35 }
    canIssue core0 { sub 3 with mate := 0 } 0 = true ∧ decodeSlot (sub 3).mate = { pg := 0, pn := false, rsv := false, op := .alu 0x01 3 1 2 }
    ∧ xor (getP (ctxOf core0 0 0) 0) false = true
    ∧ obs (exec (.add (sub 3) 1 1 2) core0) (fun t => (gReg 1 t, gReg 3 t)) = some (12, -2)
    ∧ obs (exec (.add (sub 1) 1 1 2) core0) (fun t => (gReg 1 t, cause t)) = some (5, 0x202) := by decide +kernel

/-! ### Vectors -/

/-- Bytes v1 = 7F 80 01 FF … and v2 = 01 FF 02 03 …, the rest zeros. -/
def vctx : Ctx := { ctx0 with v := [(1, 0xFF01807F), (2, 0x0302FF01)] }

def va (bc : Bool) (sh : BitVec 6) : VArg := { vd := 3, va := 1, vb := 2, lw := 0, gs := 9, bc, sh }

def v3 (t : State) : BitVec 512 := getV (ctxOf t 0 0) 3

theorem witness_vectors : let s := withTile (tileOf vctx)
    canIssue s egn 0 = true ∧ laneBits 0 ≤ 8 ∧ ¬ laneBits 0 ≤ 7 ∧ (va false 0).bc = false := by decide +kernel

theorem test_vectors : let s := withTile (tileOf vctx)
    obs (exec (.vadd egn (va false 0)) s) v3 = some 0x02037F80 ∧ obs (exec (.vsub egn (va false 0)) s) v3 = some 0xFCFF817E
    ∧ obs (exec (.vadds egn (va false 0)) s) v3 = some 0x0203807F ∧ obs (exec (.vsubs egn (va false 0)) s) v3 = some 0xFCFF817E
    ∧ obs (exec (.vmul egn (va false 0)) s) v3 = some 0xFD02807F ∧ obs (exec (.vmulh egn (va false 0)) s) v3 = some 0xFF000000
    ∧ obs (exec (.vmin egn (va false 0)) s) v3 = some 0xFF018001 ∧ obs (exec (.vmax egn (va false 0)) s) v3 = some 0x0302FF7F
    ∧ obs (exec (.vand egn (va false 0)) s) v3 = some 0x03008001 ∧ obs (exec (.vor egn (va false 0)) s) v3 = some 0xFF03FF7F
    ∧ obs (exec (.vxor egn (va false 0)) s) v3 = some 0xFC037F7E := by decide +kernel

theorem test_vector_shifts : let s := withTile (tileOf vctx)
    obs (exec (.vshl egn (va false 1)) s) v3 = some 0xFE0200FE ∧ obs (exec (.vsra egn (va false 1)) s) v3 = some 0xFF00C03F
    ∧ obs (exec (.vsrl egn (va false 7)) s) v3 = some 0x01000100 ∧ obs (exec (.vrsra egn (va false 1)) s) v3 = some 0x0000C040
    ∧ obs (exec (.vshl egn (va false 8)) s) cause = some 0x301 ∧ obs (exec (.vcmplt egn (va false 0)) s) (fun t => (v3 t).toNat % 2 ^ 32) = some 0xFFFFFF00
    ∧ obs (exec (.vcmpeq egn (va false 0)) s) (fun t => (v3 t).toNat % 2 ^ 32) = some 0 ∧ obs (exec (.vmov egn (va false 0)) s) v3 = some 0xFF01807F
    ∧ obs (exec (.vsel egn (va false 0)) s) v3 = some 0x0302FF01 := by decide +kernel

/-- 127 - 128 + 1 - 1. -/
theorem test_reductions : let s := withTile (tileOf vctx)
    obs (exec (.vredadd egn (va false 0)) s) (gReg 9) = some (-1) ∧ obs (exec (.vredmax egn (va false 0)) s) (gReg 9) = some 127
    ∧ obs (exec (.vredmax egn (va true 0)) s) cause = some 0x301 := by decide +kernel

theorem test_vector_saturations : obs (exec (.vadds egn (va false 0)) (withTile (tileOf vctx))) (fun t => (getTile t 0).regs.satCount) = some 2 := by
  decide +kernel

theorem witness_vector_memory : let x := getTile core0 0
    inShare x 0 0x200 64 = true ∧ inShare x 0 (524288 - 64) 64 = true ∧ inShare x 0 524288 64 = false ∧ badMerges x 0x200 64 = [] := by decide +kernel

theorem test_vector_memory : let s := withTile { tileOf vctx with spad := [(0x200, 0x12)] }
    obs (exec (.vld egn 3 4 0) s) v3 = some 0x12 ∧ obs (exec (.vst egn 1 4 0x40) s) (fun t => (getTile t 0).spad.length) = some 5
    ∧ obs (exec (.vld egn 3 1 0) s) cause = some 0x303 ∧ obs (exec (.vget egn 1 9 0 1) s) (gReg 9) = some (-128)
    ∧ obs (exec (.vgetu egn 1 9 0 1) s) (gReg 9) = some 128 ∧ obs (exec (.vput egn 3 1 1 1) s) v3 = some 0x50000
    ∧ obs (exec (.vbc egn 3 1 3 0) s) (fun t => (v3 t).toNat % 2 ^ 128) = some 0x00000000000000050000000000000005
    ∧ obs (exec (.vget egn 1 9 1 32) s) cause = some 0x301 := by decide +kernel

/-! ### Counters, slots and handle queues -/

/-- Handles c1 to c4 of counter 5, slot 6, weir 7 under epoch 0 and queue 2, and c5 of no kind. -/
def syncCtx : Ctx := { ctx0 with c := [(1, 0x10000005), (2, 0x30000006), (3, 0x20000007), (4, 0x40000002), (5, 0x50000000)] }

/-- A counter, a slot of two blocks and a queue of context 0, as given. -/
def syncTile (a : Acnt) (y : Slot) (q : Hq) : Tile :=
  { tileOf syncCtx with acnt := [(5, a)], slots := [(6, { y with cfg := 0x0FFFFFFC00000000 ||| 0x8000000000020000 })], hqs := [(2, { q with cfg := 0x80000000 })] }

def acnt3 : Acnt := { Acnt.reset with enable := true, value := 3 }

def sync0 : State := withTile (syncTile acnt3 Slot.reset Hq.reset)

theorem witness_sync : canIssue sync0 ctl 0 = true ∧ canIssue sync0 egn 0 = true
    ∧ (getC (ctxOf sync0 0 0) 1).toNat / 2 ^ 28 = 1 ∧ (getAcnt (getTile sync0 0) 5).owner = 0 ∧ (getAcnt (getTile sync0 0) 5).enable = true
    ∧ (getAcnt (getTile sync0 0) 5).err = none ∧ (getC (ctxOf sync0 0 0) 2).toNat / 2 ^ 28 = 3 ∧ slotEnabled (getSlot (getTile sync0 0) 6) = true
    ∧ slotOwner (getSlot (getTile sync0 0) 6) = 0 ∧ (getC (ctxOf sync0 0 0) 4).toNat / 2 ^ 28 = 4 ∧ hqEnabled (getHq (getTile sync0 0) 2) = true
    ∧ hqOwner (getHq (getTile sync0 0) 2) = 0 ∧ 4 < (getC (ctxOf sync0 0 0) 5).toNat / 2 ^ 28 := by decide +kernel

/-- The same objects of context 1, and objects not enabled. -/
theorem witness_sync_refused : let x := syncTile { acnt3 with owner := 1 } Slot.reset Hq.reset
    let y : Tile := { x with slots := [(6, { Slot.reset with cfg := 0xA000000000000000 })], hqs := [(2, { Hq.reset with cfg := 0xA0000000 })] }
    let z : Tile := { x with acnt := [(5, { acnt3 with enable := false })], slots := [], hqs := [] }
    let run (x : Tile) (i : Instr) := obs (exec i (withTile x)) cause
    run y (.acntRd ctl 9 1) = some 0x250 ∧ run y (.slotRd ctl 9 2) = some 0x250 ∧ run y (.hqPop ctl 9 4 0) = some 0x250
    ∧ run z (.slotDrain ctl 2) = some 0x252 ∧ run z (.hqPush ctl 4 1 0) = some 0x286 ∧ run z (.acntAdd ctl 1 1) = some 0
    ∧ run y (.acntRd ctl 9 2) = some 0x207 ∧ run y (.wait ctl 9 1 1 0) = some 0x250 ∧ run y (.wait ctl 9 2 0 0) = some 0x250
    ∧ run y (.wait ctl 9 4 0 0) = some 0x250 ∧ run z (.wait ctl 9 2 0 0) = some 0x252 ∧ run z (.wait ctl 9 4 0 0) = some 0x286
    ∧ run y (.wait ctl 9 5 0 0) = some 0x207 ∧ run y (.wait ctl 9 3 0 0) ≠ some 0 := by decide +kernel

theorem test_handles : obs (exec (.chset ctl 1 2) (withTile (tileOf { ctx0 with g := [(2, 0x1000003F)] }))) (fun t => getC (ctxOf t 0 0) 1) = some 0x1000003F
    ∧ obs (exec (.chset ctl 1 2) (withTile (tileOf { ctx0 with g := [(2, 0x10000040)] }))) cause = some 0x207
    ∧ obs (exec (.chset ctl 1 2) (withTile (tileOf { ctx0 with g := [(2, 0x2F000FFF)] }))) cause = some 0
    ∧ obs (exec (.chset ctl 1 2) (withTile (tileOf { ctx0 with g := [(2, 0x11000000)] }))) cause = some 0x207
    ∧ obs (exec (.chset ctl 1 2) (withTile (tileOf { ctx0 with g := [(2, 0x40000008)] }))) cause = some 0x207
    ∧ obs (exec (.chget ctl 9 1) sync0) (gReg 9) = some 0x10000005 := by decide +kernel

theorem test_counters : obs (exec (.acntRd ctl 9 1) sync0) (gReg 9) = some 3
    ∧ obs (exec (.acntAdd ctl 1 3) sync0) (fun t => (getAcnt (getTile t 0) 5).value) = some 1
    ∧ obs (exec (.acntAdd ctl 1 3) (withTile (syncTile { acnt3 with enable := false } Slot.reset Hq.reset))) (fun t => (getAcnt (getTile t 0) 5).value) = some 3 := by
  decide +kernel

/-- A slot of two blocks, 128 bytes, FULL under generation 63. -/
theorem test_slots : let y : Slot := { Slot.reset with st := .full, filled := 128, gen := 63 }
    obs (exec (.slotRd ctl 9 2) (withTile (syncTile acnt3 y Hq.reset))) (gReg 9) = some (128 * 2 ^ 14 + 63 * 4 + 2)
    ∧ obs (exec (.slotDrain ctl 2) (withTile (syncTile acnt3 y Hq.reset)))
        (fun t => ((getSlot (getTile t 0) 6).st, (getSlot (getTile t 0) 6).gen, (getSlot (getTile t 0) 6).filled)) = some (.empty, 0, 0)
    ∧ obs (exec (.slotDrain ctl 2) (withTile (syncTile acnt3 { y with st := .filling } Hq.reset))) cause = some 0x252
    ∧ obs (exec (.slotDrain ctl 2) sync0) pcOf = some 0x110
    ∧ obs (exec (.slotDrain ctl 2) (withTile (syncTile acnt3 { y with heldEmpty := some 1 } Hq.reset))) pcOf = some 0x100 := by decide +kernel

theorem test_queues : let q : Hq := { Hq.reset with handles := [9, 8] }
    let all : Hq := { Hq.reset with handles := List.replicate 64 1 }
    obs (exec (.hqPop ctl 9 4 0) (withTile (syncTile acnt3 Slot.reset q))) (fun t => (gReg 9 t, (getHq (getTile t 0) 2).handles)) = some (9, [8])
    ∧ obs (exec (.hqPop ctl 9 4 1) sync0) (fun t => (pcOf t, (ctxOf t 0 0).wait.isSome)) = some (0x100, true)
    ∧ obs (exec (.hqPush ctl 4 1 0) (withTile (syncTile acnt3 Slot.reset q))) (fun t => (getHq (getTile t 0) 2).handles) = some [9, 8, 5]
    ∧ obs (exec (.hqPush ctl 4 1 0) (withTile (syncTile acnt3 Slot.reset all))) (fun t => (pcOf t, (ctxOf t 0 0).wait.isSome)) = some (0x100, true) := by
  decide +kernel

/-- A wait on counter 5 for 3 and for 5; with an error pending, into g0 and into g9. -/
theorem test_waits : let e := withTile (syncTile { acnt3 with err := some 0x54 } Slot.reset Hq.reset)
    let three : State := withTile { syncTile acnt3 Slot.reset Hq.reset with ctx := [(0, { syncCtx with st := .running, g := [(1, 3)] })] }
    obs (exec (.wait ctl 9 1 1 0) three) (fun t => (gReg 9 t, pcOf t)) = some (0, 0x110)
    ∧ obs (exec (.wait ctl 9 1 1 0) sync0) (fun t => (pcOf t, (ctxOf t 0 0).wait.isSome)) = some (0x100, true)
    ∧ obs (exec (.wait ctl 9 1 1 0) e) (fun t => (gReg 9 t, (getAcnt (getTile t 0) 5).err)) = some (0x54, none)
    ∧ obs (exec (.wait ctl 0 1 1 0) e) (fun t => (cause t, (ctxOf t 0 0).excInfo)) = some (0x209, 0x5410000005)
    ∧ obs (exec (.wait ctl 9 2 0 0) sync0) (gReg 9) = some 0
    ∧ obs (exec (.wait ctl 9 2 1 0) sync0) cause = some 0x201 ∧ obs (exec (.wait ctl 9 4 0 0) sync0) pcOf = some 0x100 := by decide +kernel

/-- Weir 7, an L1 weir of context 0 for waiters of context 0, with tile 0 as a member. -/
def weir7 : Weir := { Weir.reset with cfg := 0x90400000, members := [0, 1] }

def weirState (x : Tile) (w : Weir) : State :=
  { withTile x with dies := [(0, { Die.reset with st := .ready, watchReady := true, weirs := [(7, w)] })] }

theorem witness_weir : let s := weirState { syncTile acnt3 Slot.reset Hq.reset with weirMember := [(7, true)] } weir7
    weirOn weir7 = true ∧ weirOwner weir7 = 0 ∧ weirWaitCheck s 0 0 7 = none ∧ weirWaitRes s 0 7 0 = none ∧ canIssue s ctl 0 = true
    ∧ mget false (getTile s 0).weirMember 7 = true ∧ mget false (getTile s 0).weirArrived 7 = false := by decide +kernel

theorem test_arrivals : let x := { syncTile acnt3 Slot.reset Hq.reset with weirMember := [(7, true)] }
    let s := weirState x weir7
    obs (exec (.arrive ctl 3) s) (fun t => (t.net.arrivals.length, pcOf t)) = some (1, 0x110)
    ∧ obs (exec (.arriveWait ctl 9 3 0) s) (fun t => (t.net.arrivals.length, pcOf t)) = some (1, 0x100)
    ∧ obs (exec (.arrive ctl 3) (weirState { x with weirArrived := [(7, true)] } weir7)) cause = some 0x274
    ∧ obs (exec (.wait ctl 9 3 0 0) (weirState { x with weirView := [(7, 1)] } weir7)) (gReg 9) = some 0 := by decide +kernel

/-! ### The watch, as a core sees it -/

/-- Entry 4 of context 0, I8, whose open step is 5: exponents 3 for it and 2 for the one before. -/
def entry4 : Watch := { Watch.reset with cfg := 0x80030000, openStep := 5, exp := 0x0302 }

def watchState (g : W64) : State :=
  { withTile (tileOf { ctx0 with g := [(1, g)] }) with watches := [(4, entry4)] }

theorem witness_gauge : watchOn entry4 = true ∧ watchJob entry4 = 0 ∧ (getDie (watchState 5) 0).watchReady = true ∧ canIssue (watchState 5) ctl 0 = true := by
  decide +kernel

theorem test_gauge : obs (exec (.gauge ctl 9 1 4) (watchState 5)) (gReg 9) = some 3 ∧ obs (exec (.gauge ctl 9 1 4) (watchState 4)) (gReg 9) = some 2
    ∧ obs (exec (.gauge ctl 9 1 4) (watchState 6)) pcOf = some 0x100 ∧ obs (exec (.gauge ctl 9 1 4) (watchState 3)) cause = some 0x236
    ∧ obs (exec (.gauge ctl 9 1 5) (watchState 5)) (gReg 9) = some 0x80 := by decide +kernel

/-- Monitor 2 of context 0 with shift 1 and a warm-up of 0: a first value of 6 sets the average, a second of 10 moves it to 8; an earlier step is rejected. -/
theorem test_losses : let l : Loss := { Loss.reset with cfg := 0x80100000 }
    let s : State := { base with losses := [(2, l)] }
    let one : State := { base with losses := [(2, { l with avg := 6 * 2 ^ 24, accepted := 1, lastStep := 4 })] }
    obs (exec (.lossWindowWrite .port 0 2 4 6 0) s) (fun t => ((getLoss t 2).avg, (getLoss t 2).accepted)) = some (6 * 2 ^ 24, 1)
    ∧ obs (exec (.lossWindowWrite .port 0 2 4 6 0) one) (fun t => (getLoss t 2).rejects) = some 1 := by decide +kernel

/-! ### Held bundles -/

/-- The running context of a tile holds a bundle with the given control slot since the time given. -/
def holding (c : Ctx) (op : SlotOp) (since : W64) (pwr : WaitPwr) : Ctx :=
  { c with
    wait := some { ctl := { pg := 0, pn := false, rsv := false, op }, eng := { pg := 0, pn := false, rsv := false, op := .sys 0 0 0 0 }
                   arrived := true, since, elapsed := 0, pwr, suspended := false } }

/-- A WAIT on counter 5 (whose value is 3) for the value in g1, into g9. -/
def waitState (g : W64) (hint : BitVec 2) (limit : W32) (pwr : WaitPwr) : State :=
  withTile { syncTile acnt3 Slot.reset Hq.reset with
    ctx := [(0, { holding { syncCtx with g := [(1, g)], waitLimit := limit } (.sync 2 9 1 1 hint) 0 pwr with st := .running })] }

def waitOf (s : State) : WaitRec := ((ctxOf s 0 0).wait).getD { ctl := decodeSlot 0, eng := decodeSlot 0, arrived := true, since := 0, elapsed := 0, pwr := .spin, suspended := false }

theorem witness_held : heldBy (waitState 3 0 0 .spin) 0 0 false (.sync 2 9 1 1 0) (waitOf (waitState 3 0 0 .spin)) = true
    ∧ heldBy (waitState 4 2 5 .spin) 0 0 false (.sync 2 9 1 1 2) (waitOf (waitState 4 2 5 .spin)) = true
    ∧ (waitOf (waitState 4 2 5 .spin)).pwr = .spin ∧ waited (waitState 4 0 5 .spin) (waitOf (waitState 4 0 5 .spin)) = 5000 := by decide +kernel

theorem test_wait_release : obs (exec (.waitRelease 0) (waitState 3 0 0 .spin)) (fun t => (gReg 9 t, pcOf t, (ctxOf t 0 0).wait)) = some (0, 0x110, none)
    ∧ obs (exec (.waitRelease 0) (waitState 4 0 0 .spin)) pcOf = some 0x100 := by decide +kernel

/-- 5 µs have passed: a limit of 5 expires, limits of 6 and of 0 do not. -/
theorem test_wait_timeout : obs (exec (.waitTimeout 0) (waitState 4 0 5 .spin)) (fun t => (cause t, (ctxOf t 0 0).excInfo, pcOf t)) = some (0x208, 0x10000005, 0x100)
    ∧ obs (exec (.waitTimeout 0) (waitState 4 0 6 .spin)) cause = some 0 ∧ obs (exec (.waitTimeout 0) (waitState 4 0 0 .spin)) cause = some 0
    ∧ obs (exec (.waitTimeout 0) (waitState 3 0 5 .spin)) cause = some 0 := by decide +kernel

/-- The spin period of reset, 16 units of 125 ns, has passed; WAIT.CFG lends. Where it does not, a wait under HINT LEND dozes once the period has passed,
not before (R256). -/
theorem test_spin_period : let pwr (t : State) : Option WaitPwr := (ctxOf t 0 0).wait.map (·.pwr)
    obs (exec (.spinPeriodExpire 0) (waitState 4 0 0 .spin)) pwr = some (some .lend) ∧ obs (exec (.spinPeriodExpire 0) (waitState 4 1 0 .spin)) pwr = some (some .spin)
    ∧ obs (exec (.spinPeriodExpire 0) { waitState 4 2 0 .spin with mod := { base.mod with time := 0, waitCfg := 0x00100000 } }) pwr = some (some .spin)
    ∧ obs (exec (.spinPeriodExpire 0) { waitState 4 2 0 .spin with mod := { base.mod with waitCfg := 0x00100000 } }) pwr = some (some .doze)
    ∧ obs (exec (.spinPeriodExpire 0) { waitState 4 0 0 .spin with mod := { base.mod with time := 1999 } }) pwr = some (some .spin) := by decide +kernel

/-- A held HALT with and without an engine operation under way, and a held GAUGE of entry 4 for the step in g1. -/
theorem test_held_others : let halted (x : Tile) : State := withTile { x with ctx := [(0, { holding ctx0 (.sys 1 0 0 0) 0 .spin with st := .running })] }
    let gauging (g : W64) : State := { withTile (tileOf (holding { ctx0 with g := [(1, g)] } (.watch 0 9 1 0 4 0) 0 .spin)) with watches := [(4, entry4)] }
    heldBy (halted busyTile) 0 0 false (.sys 1 0 0 0) (waitOf (halted busyTile)) = true
    ∧ heldBy (gauging 5) 0 0 false (.watch 0 9 1 0 4 0) (waitOf (gauging 5)) = true
    ∧ obs (exec (.haltRetire 0) (halted Tile.reset)) (fun t => (ctxOf t 0 0).st) = some .halted
    ∧ obs (exec (.haltRetire 0) (halted busyTile)) (fun t => (ctxOf t 0 0).st) = some .running
    ∧ obs (exec (.gaugeStallRelease 0) (gauging 5)) (fun t => (gReg 9 t, pcOf t)) = some (3, 0x110)
    ∧ obs (exec (.gaugeStallRelease 0) (gauging 6)) pcOf = some 0x100
    ∧ obs (exec (.gaugeTimeout 0) { gauging 6 with mod := { base.mod with time := 1000000 } }) (fun t => (cause t, pcOf t)) = some (0x235, 0x100)
    ∧ obs (exec (.gaugeTimeout 0) { gauging 6 with mod := { base.mod with time := 999999 } }) cause = some 0 := by decide +kernel

/-! ### Exchange phases -/

/-- n bytes of a value at an address. -/
def place (a n v : Nat) : SMap Byte :=
  (List.range n).filterMap fun i => if v / 256 ^ i % 256 = 0 then none else some (a + i, BitVec.ofNat 8 (v / 256 ^ i))

/-- A folio at 0x400 of one PUT (R211-R213): 64 bytes from 0x800 to address 0xC00 of tile 1, issued after 3 TCLK, counter 5. -/
def putEntry : Nat := 1 * 2 ^ 124 + 3 * 2 ^ 108 + 0xC00 * 2 ^ 84 + 0x800 * 2 ^ 60 + 1 * 2 ^ 44 + 1 * 2 ^ 35 + 5 * 2 ^ 29

def folioTile (count : Nat) : Tile :=
  { tileOf { ctx0 with g := [(1, 0x400), (2, 0x410), (3, 0x80000)] } with spad := place 0x400 16 (2 ^ 88 + count) ++ place 0x410 16 putEntry ++ [(0x800, 0xAB)] }

def exch1 (next : Nat) : Exch := { job := 0, addr := 0x400, count := 1, next, startCycle := 0, since := 0, pc := 0x100, failed := none, run := 0 }

/-- The phase under way at TCLK n, its EXCH bundle held, with a limit of l µs. -/
def phase (n : W64) (next : Nat) (l : W32) : State :=
  { withTile { folioTile 1 with
      ctx := [(0, { holding { ctx0 with g := [(1, 0x400)], waitLimit := l } (.sys 0 0 0 0) 0 .spin with
        st := .running
        wait := some { ctl := { pg := 0, pn := false, rsv := false, op := .sys 0 0 0 0 }, eng := { pg := 0, pn := false, rsv := false, op := .xfer 0 1 0 0 }
                       arrived := true, since := 0, elapsed := 0, pwr := .spin, suspended := false } })]
      eng := { (folioTile 1).eng with exch := some (exch1 next) } } with
    halves := [(0, { Half.reset with map := [0, 1], cycles := n })] }

theorem witness_folio : let x := getTile (withTile (folioTile 1)) 0
    canIssue (withTile (folioTile 1)) egn 0 = true ∧ inShare x 0 0x400 16 = true ∧ spadBad x 0x400 16 = false ∧ headerCheck base (quad x 0x400) = none
    ∧ headerCheck base (quad (folioTile 0) 0x400) = some 0x60 ∧ headerCheck base (quad (folioTile 4097) 0x400) = some 0x60
    ∧ headerCheck base (quad (folioTile 4096) 0x400) = none ∧ inShare x 0 0x80000 16 = false := by decide +kernel

theorem test_exch : obs (exec (.exch egn 1) (withTile (folioTile 1))) (fun t => (getExch t 0, pcOf t)) = some (some (exch1 0 |> fun e => { e with since := 5000, run := 1 }), 0x100)
    ∧ obs (exec (.exch egn 3) (withTile (folioTile 1))) cause = some 0x304
    ∧ obs (exec (.exch egn 1) (withTile (folioTile 0))) (fun t => (cause t, pcOf t)) = some (0x160, 0x110) := by decide +kernel

theorem witness_entry : let s := phase 3 0 0
    getExch s 0 = some (exch1 0) ∧ entryCheck s 0 0 (quad (getTile s 0) 0x410) = none ∧ readWaits (getTile s 0) (sendSrc (quad (getTile s 0) 0x410)) = false
    ∧ entryRoute s 0 (quad (getTile s 0) 0x410) = some [0] ∧ dieReady s (tDie (sendDest (quad (getTile s 0) 0x410))) = true
    ∧ (blockOf s 0 0 0 (quad (getTile s 0) 0x410) (entryDst s 0 (quad (getTile s 0) 0x410)) [0]).bad = none
    ∧ heldBy s 0 0 true (.xfer 0 1 0 0) (waitOf s) = true ∧ yieldOn (ctxOf s 0 0) = false := by decide +kernel

theorem test_folio_entry : obs (exec (.folioEntryIssue 0) (phase 2 0 0)) (fun t => t.net.blocks.length) = some 0
    ∧ obs (exec (.folioEntryIssue 0) (phase 3 0 0)) (fun t => (t.net.blocks.map fun e => (e.2.dest, e.2.daddr, e.2.acnt, e.2.payload.length, e.2.payload.headD 0)))
        = some [(1, 0xC00, 5, 64, 0xAB)]
    ∧ obs (exec (.folioEntryIssue 0) (phase 3 0 0)) (fun t => (getTile t 0).regs.sent) = some 1 := by decide +kernel

theorem test_exchange_boundary : obs (exec (.exchBoundary 0) (phase 3 1 0)) (fun t => (pcOf t, (ctxOf t 0 0).switchPt, (ctxOf t 0 0).xbCount)) = some (0x110, true, 1)
    ∧ obs (exec (.exchBoundary 0) (phase 3 0 0)) pcOf = some 0x100
    ∧ obs (exec (.xchTimeout 0) (phase 3 0 5)) (fun t => (cause t, (ctxOf t 0 0).excPc)) = some (0x164, 0x100)
    ∧ obs (exec (.xchTimeout 0) (phase 3 0 6)) cause = some 0 := by decide +kernel

/-! ### The mesh -/

def atPos (col : Nat) : Pos := { die := 0, h1 := false, col, row := 0 }

/-- A PUT of 4 bytes to address 0xC00 of tile 1, at the router of column c. -/
def put1 (c : Nat) : Block :=
  { Block.reset with kind := .put, src := 0, dest := 1, daddr := 0xC00, acntEn := true, acnt := 5, payload := [1, 2, 3, 4], pos := atPos c, dst := atPos 1, via := [0] }

def meshState (b : List (Nat × Block)) : State :=
  { base with
    tiles := [(1, { Tile.reset with acnt := [(5, acnt3)] })]
    net := { base.net with blocks := b, nextBlk := 9 } }

theorem witness_blocks : let s := meshState [(3, put1 0)]
    getBlk s 3 = some (put1 0) ∧ (put1 0).inPort ≠ atMemPort ∧ neighbour (put1 0).pos (routePort s (put1 0)) = some (atPos 1, 3)
    ∧ bufFree s (atPos 1) 3 (blkClass { put1 0 with pos := atPos 1 }) = true ∧ (s.log.dropTimes.all fun e => e.1 != linkCode (put1 0).pos 0) = true
    ∧ tileTakes s 1 = true ∧ secureTile s 1 = false ∧ opndCheck (getTile s 1) 0 0xC00 4 64 = none ∧ opnd 0xC00 = .plain 0xC00
    ∧ writeWaits (getTile s 1) 0xC00 4 = false ∧ (put1 1).pos = (put1 1).dst := by decide +kernel

theorem test_blocks : obs (exec (.routerForward 3) (meshState [(3, put1 0)])) (fun t => (getBlk t 3).map fun b => (b.pos, b.inPort)) = some (some (atPos 1, 3))
    ∧ obs (exec (.routerForward 3) (meshState [(3, put1 0), (4, { put1 1 with inPort := 3 })])) (fun t => (getBlk t 3).map (·.pos)) = some (some (atPos 0))
    ∧ obs (exec (.meshFlitCrcError 3 false) (meshState [(3, put1 0)])) (fun t => (getBlk t 3, t.log.recs.map fun r => r.cause)) = some (some (put1 0), [cMeshCrc])
    ∧ obs (exec (.meshFlitCrcError 3 true) (meshState [(3, put1 0)])) (fun t => getBlk t 3) = some none
    ∧ obs (exec (.blockWrite 3) (meshState [(3, put1 1)])) (fun t => ((getTile t 1).spad, (getAcnt (getTile t 1) 5).value, t.net.blocks))
        = some ([(0xC00, 1), (0xC01, 2), (0xC02, 3), (0xC03, 4)], 4, []) := by decide +kernel

/-- A block for slot 6 of tile 1, which is FULL. -/
def slotBlk : Block := { put1 1 with daddr := 0x8C0000, acntEn := false }

def slotState (st : SlotSt) (b : Block) : State :=
  { meshState [(3, b)] with
    tiles := [(1, { Tile.reset with slots := [(6, { Slot.reset with cfg := 0x8FFFFFFC00020040, st })] })] }

theorem witness_slot_block : opndCheck (getTile (slotState .full slotBlk) 1) 0 0x8C0000 4 64 = none ∧ writeWaits (getTile (slotState .full slotBlk) 1) 0x8C0000 4 = true
    ∧ writeWaits (getTile (slotState .empty slotBlk) 1) 0x8C0000 4 = false := by decide +kernel

theorem test_slot_block : obs (exec (.blockWrite 3) (slotState .full slotBlk)) (fun t => (getBlk t 3).map (·.slotWait)) = some (some (some 5000))
    ∧ obs (exec (.blockSlotResume 3) (slotState .empty { slotBlk with slotWait := some 0 })) (fun t => ((getTile t 1).spad, getBlk t 3))
        = some ([(0x1000, 1), (0x1001, 2), (0x1002, 3), (0x1003, 4)], none) := by decide +kernel

/-- Blocks of an ADD tree at its root: 2^31 - 1 from LOCAL and 2 from EAST. -/
def add1 (inPort : Nat) (v : List Byte) : Block := { put1 0 with kind := .add, tree := 4, inPort, payload := v, dst := atPos 0 }

def addState : State :=
  { meshState [(3, add1 0 [0xFF, 0xFF, 0xFF, 0x7F]), (4, add1 4 [2, 0, 0, 0])] with
    net := { (meshState [(3, add1 0 [0xFF, 0xFF, 0xFF, 0x7F]), (4, add1 4 [2, 0, 0, 0])]).net with
      routes := [(4, 0x221)], trees := [(4, { Tree.reset with cfg := 0x80000000 })] } }

theorem witness_round : routeAt addState 0 4 = 0x221 ∧ inPorts 0x221 = [0, 4] ∧ (outPorts 0x221).head? = some 0
    ∧ (inPorts 0x221).map (roundInput addState 4 (posOf addState 0)) = [some (3, add1 0 [0xFF, 0xFF, 0xFF, 0x7F]), some (4, add1 4 [2, 0, 0, 0])]
    ∧ sameRound (add1 0 [0xFF, 0xFF, 0xFF, 0x7F]) (add1 4 [2, 0, 0, 0]) = true ∧ addElems (add1 4 [2, 0, 0, 0]) = [2] := by decide +kernel

theorem test_round : obs (exec (.addRound 4 0) addState) (fun t => t.net.blocks.map fun e => (e.2.kind, e.2.payload)) = some [(.add, [1, 0, 0, 0x80])]
    ∧ obs (exec (.addRound 4 0) addState) (fun t => t.net.blocks.map fun e => (e.2.inPort, e.2.dest)) = some [(atSum, 0)] := by
  decide +kernel

/-- A CAST block at the root of a tree whose LOCAL port has taken it and whose EAST port has no credit. -/
def cast1 : Block := { put1 0 with kind := .cast, tree := 4, taken := [0] }

def castState (lag time : Nat) : State :=
  { meshState [(3, cast1), (4, { cast1 with pos := atPos 1, inPort := 3 })] with
    mod := { base.mod with meshCfg := BitVec.ofNat 32 (lag * 65536), time := BitVec.ofNat 64 time }
    net := { (meshState [(3, cast1), (4, { cast1 with pos := atPos 1, inPort := 3 })]).net with routes := [(4, 0x31), (1024 + 4, 0x101)] } }

theorem witness_prune : routeOut (routeAtPos (castState 8 1000) cast1.pos 4) 4 = true ∧ isPruned (castState 8 1000) cast1 4 = false
    ∧ neighbour cast1.pos 4 = some (atPos 1, 3) ∧ bufFree (castState 8 1000) (atPos 1) 3 2 = false := by decide +kernel

theorem test_prune : obs (exec (.castPrune 3 4) (castState 8 1000)) (fun t => t.net.prunes.map fun p => (p.router, p.port, p.root, p.acnt)) = some [(0, 4, 0, 5)]
    ∧ obs (exec (.castPrune 3 4) (castState 8 999)) (fun t => t.net.prunes.length) = some 0
    ∧ obs (exec (.castPrune 3 4) (castState 0 1000)) (fun t => t.net.prunes.length) = some 0 := by decide +kernel

def prune1 : Prune := { tree := 4, router := 0, port := 4, root := 0, acnt := 5, acntEn := true, job := 0, run := 0, marked := false }

def pruneState : State := { castState 8 0 with net := { (castState 8 0).net with prunes := [prune1], blocks := [] } }

theorem witness_marker : leavesBeyond pruneState 4 (posOf pruneState 0) 4 = [1] ∧ bufFree pruneState (atPos 1) 3 2 = true
    ∧ (getTile pruneState 1).fenced = false ∧ dieReady pruneState (tDie 1) = true := by decide +kernel

theorem test_markers : obs (exec (.prunedMarkerSend 0 4 4) pruneState) (fun t => t.net.markers.map (·.2)) = some [{ tile := 1, acnt := 5, cause := 0x65, job := 0 }]
    ∧ obs (exec (.markerReceive 2) { pruneState with net := { pruneState.net with markers := [(2, { tile := 1, acnt := 5, cause := 0x65, job := 0 })] } })
        (fun t => ((getAcnt (getTile t 1) 5).err, (getAcnt (getTile t 1) 5).value)) = some (some 0x65, 3) := by decide +kernel

/-- A CAST tree from tile 0 to tile 1: LOCAL in and EAST out at the root, WEST in and LOCAL out at the leaf. -/
theorem test_tree_load : let s : State := { base with net := { base.net with trees := [(4, { Tree.reset with cfg := 0x80000000 })] } }
    let good : List (W16 × W16) := [(0, 0x30), (1, 0x101)]
    treeBusy s 4 = false ∧ treeShapeOk s (getTree s 4) good = true ∧ treeShapeOk s (getTree s 4) [(0, 0x30), (1, 0x81)] = false
    ∧ treeBusy (castState 8 0) 4 = true ∧ obs (exec (.treeLoad .port 4 good) s) (fun t => (t.status, routeAt t 0 4, routeAt t 1 4)) = some (0, 0x30, 0x101)
    ∧ obs (exec (.treeLoad .port 4 good) (castState 8 0)) (fun t => t.status) = some stCfgBusy
    ∧ obs (exec (.treeLoad .port 4 [(0, 0x30), (1, 0x81)]) s) (fun t => t.status) = some cTreeInvalid := by decide +kernel

/-! ### Weirs -/

theorem witness_weir_load : weirLoadRefusal base 7 0x90400000 [0, 1] = none ∧ weirLoadRefusal base 7 0x90400000 [0, 2] ≠ none
    ∧ 0 ∈ spanDies base 1 (tDie 0) := by decide +kernel

theorem test_weir_load : obs (exec (.weirLoad .port 7 0x90400000 [0, 1]) base) (fun t => (t.status, (getWeir (getDie t 0) 7).members, (getWeir (getDie t 0) 7).cfg))
    = some (0, [0, 1], 0x90400000) := by decide +kernel

def arrival (n : BitVec 4) : Arrival := { die := 0, weir := 7, tile := 0, epoch := n }

def arriving (w : Weir) (n : BitVec 4) : State := { weirState Tile.reset w with net := { base.net with arrivals := [arrival n] } }

theorem witness_arrival : hasArrival (arriving weir7 0) 0 7 0 = some (arrival 0) ∧ weirOn weir7 = true ∧ weirLevel weir7 < 4
    ∧ (arriving weir7 0).log.weirFaults = [] := by decide +kernel

theorem test_weir_arrivals : let w (t : State) := getWeir (getDie t 0) 7
    obs (exec (.weirCounterArrival 0 7 0) (arriving weir7 0)) (fun t => ((w t).arrived, (w t).release, t.net.arrivals.length)) = some ([0], [], 0)
    ∧ obs (exec (.weirCounterArrival 0 7 0) (arriving { weir7 with arrived := [1] } 0)) (fun t => (w t).release) = some [(0, false)]
    ∧ obs (exec (.weirCounterArrival 0 7 0) (arriving weir7 1)) (fun t => ((w t).stale, (w t).arrived)) = some (1, []) := by decide +kernel

theorem witness_release : let s := weirState { Tile.reset with weirMember := [(7, true)], weirArrived := [(7, true)] } { weir7 with epoch := 15 }
    weirReach s (getWeir (getDie s 0) 7) 0 = true ∧ mget 0 (getTile s 0).weirView 7 ≠ 15 ∧ (getWeir (getDie s 0) 7).copyBad = false := by decide +kernel

theorem test_weir_release : let w (t : State) := getWeir (getDie t 0) 7
    obs (exec (.weirReleaseArrive 0 7 none) (weirState Tile.reset { weir7 with epoch := 15, arrived := [0, 1], release := [(15, true)] }))
        (fun t => ((w t).epoch, (w t).arrived, (w t).rounds, (w t).lostMask)) = some (0, [], 1, 0x8000)
    ∧ obs (exec (.weirReleaseArrive 0 7 (some 0)) (weirState { Tile.reset with weirMember := [(7, true)], weirArrived := [(7, true)] } { weir7 with epoch := 15 }))
        (fun t => (mget 0 (getTile t 0).weirView 7, mget false (getTile t 0).weirArrived 7)) = some (15, false) := by decide +kernel

/-! ### Streams and translation -/

/-- A descriptor of one row of 64 bytes from virtual address 0x10000 to 0x20000, with no queues, no record and no chain (R271). -/
def desc64 (acnt : Nat) : BitVec 512 :=
  BitVec.ofNat 512 (0x10000 * 2 ^ 448 + 0x20000 * 2 ^ 384 + 0x1FFF * 2 ^ 247 + 0x1FFF * 2 ^ 234 + 0xFFFFFF * 2 ^ 210 + 0xFFFFFF * 2 ^ 186 + acnt * 2 ^ 179)

def activeStq : Stq := { Stq.reset with cfg := 0x8000000000000000, st := .active }

/-- Queue context 3 of job 0 ACTIVE on die 0, the die's records as given. -/
def streamDie (recs : SMap XferRec) : Die :=
  { Die.reset with
    st := .ready, watchReady := true, stq := [(3, activeStq)], recs
    reach := [(6, { Reach.reset with cfg := 0x8000000200000000, st := .idle, stride := 0x1000, descs := [(0, desc64 0)] })] }

/-- Job 0 has a page table: page 0x10000 at frame 0x50000, page 0x20000 at 0x60000, both writable. -/
def mapped (s : State) : State :=
  { s with
    jobs := [(0, { Job.reset with st := .active, regs := { Job.reset.regs with trnRoot := 0x8000000000200000 } })]
    hbm := place 0x200000 8 (2 ^ 63 + 0x400000) ++ place 0x400008 8 (2 ^ 63 + 2 ^ 62 + 0x50000) ++ place 0x400010 8 (2 ^ 63 + 2 ^ 62 + 0x60000) }

def tlb (page frame : Nat) : Tlb := { job := 0, page, big := false, frame, w := true, view := 0 }

def postTile : Tile := { tileOf { ctx0 with g := [(1, 0x400), (2, 0x12340000)] } with spad := place 0x400 64 (desc64 0).toNat }

def postState (recs : SMap XferRec) : State := mapped { withTile postTile with dies := [(0, streamDie recs)] }

theorem witness_post : let d := getDie (postState []) 0
    postCheck d 3 0 = none ∧ postCheck d 4 0 = some 0x86 ∧ postCheck d 3 1 = some 0x50 ∧ postFree d (getStq d 3) = some 0 ∧ canIssue (postState []) egn 0 = true
    ∧ rearmCheck (getReach d 6) 0 0x12340000 = none ∧ stqOwner (getStq d 3) = 0 ∧ spadBad (getTile (postState []) 0) 0x400 64 = false := by decide +kernel

theorem test_posts : obs (exec (.spost egn 1 3) (postState [])) (fun t => ((getStq (getDie t 0) 3).recs, (getRec (getDie t 0) 0).desc, (getRec (getDie t 0) 0).st, pcOf t))
      = some ([0], desc64 0, .queued, 0x110)
    ∧ obs (exec (.spost egn 1 4) (postState [])) cause = some 0x386
    ∧ obs (exec (.windowPost .port 0 3 (desc64 0)) (postState [])) (fun t => (t.status, (getStq (getDie t 0) 3).recs)) = some (0, [0])
    ∧ obs (exec (.rearm egn 2 6) (postState [])) (fun t => ((getReach (getDie t 0) 6).st, (getReach (getDie t 0) 6).base, pcOf t)) = some (.armed, 0x12340000, 0x110) := by
  decide +kernel

/-- A context with 64 records: another post waits. -/
def fullState : State :=
  { postState [] with dies := [(0, { streamDie [] with stq := [(3, { activeStq with recs := List.replicate 64 9 })] })] }

theorem test_posts_full : postFree (getDie fullState 0) (getStq (getDie fullState 0) 3) = none
    ∧ obs (exec (.spost egn 1 3) fullState) (fun t => (pcOf t, (ctxOf t 0 0).wait.isSome)) = some (0x100, true)
    ∧ obs (exec (.windowPost .port 0 3 0) fullState) (fun t => t.status) = some stBusy := by decide +kernel

def queued : XferRec := { XferRec.reset with st := .queued, qid := 3, desc := desc64 0 }

def startState (x : XferRec) : State :=
  { postState [(0, x)] with dies := [(0, { streamDie [(0, x)] with stq := [(3, { activeStq with recs := [0] })] })] }

theorem witness_start : let d := getDie (startState queued) 0
    firstQueued d 3 0 = true ∧ engineLoad d (recEngine d queued) < 64 ∧ dInQ (desc64 0) = 0x1FFF ∧ descOk (startState queued) 0 0 false (desc64 0) = true
    ∧ descOk (startState queued) 0 0 false (desc64 0 ||| 1) = false ∧ dNext (desc64 0) = 0xFFFFFF := by decide +kernel

theorem test_transfer_start : let legs (t : State) := (getRec (getDie t 0) 0).legs.map fun l => (l.next, l.status)
    obs (exec (.transferStart 0 0) (startState queued)) (fun t => ((getRec (getDie t 0) 0).st, legs t)) = some (.running, [(0, 0)])
    ∧ obs (exec (.transferStart 0 0) (startState { queued with desc := desc64 0 ||| 1 })) legs = some [(0, cDescInvalid)] := by decide +kernel

def armedState : State :=
  { postState [] with
    dies := [(0, { streamDie [] with
      reach := [(6, { Reach.reset with cfg := 0x8000000200000000, st := .armed, base := 0x100000, pass := 1, stride := 0x1000, descs := [(0, desc64 0)] })] })] }

theorem witness_reach : let y := getReach (getDie armedState 0) 6
    y.st = .armed ∧ y.pass.toNat < reachPasses y ∧ y.recs.length < reachDepth y ∧ engineLoad (getDie armedState 0) (reachEngine y) < 64 ∧ reachOwner y = 0 := by
  decide +kernel

theorem test_reach_pass : obs (exec (.reachPassStart 0 6 0) armedState)
    (fun t => ((getRec (getDie t 0) 0).passAddr, (getReach (getDie t 0) 6).pass, (getReach (getDie t 0) 6).recs)) = some (0x101000, 2, [0]) := by decide +kernel

/-- The descriptor under way, and the record that holds it. -/
def leg0 : Leg :=
  { num := 0, desc := desc64 0, handle := none, htile := 0, view := 0, viewEp := 0, next := 0, steps := [], status := 0, failAt := 0, failInfo := 0
    failInj := false, walk := none, fault := none, told := false }

def running (l : Leg) : XferRec := { queued with st := .running, begun := 1, legs := [l] }

def runState (l : Leg) (cache : List Tlb) : State :=
  { startState (running l) with dies := [(0, { streamDie [(0, running l)] with stq := [(3, { activeStq with recs := [0] })], tlb := cache })] }

theorem witness_step : let s := runState leg0 [tlb 1 0x50000, tlb 2 0x60000]
    let d := getDie s 0
    stepLen (running leg0) leg0 0 = 64 ∧ engineReqs s d 0 + stepReqs 0x50000 64 ≤ 512 ∧ xlate s d 0 0 0x10000 false = .pa 0x50000 false ∧ xlate s d 0 0 0x20000 true = .pa 0x60000 false
    ∧ xlate (runState leg0 []) (getDie (runState leg0 []) 0) 0 0 0x10000 false = .miss ∧ dTotal (desc64 0) = 64 ∧ walksBusy d < 32 := by decide +kernel

/-- A job without a root faults. -/
def rootless : State := { runState leg0 [] with jobs := [] }

theorem test_transfer_step : let reqs (t : State) := (getStack t 0).reqs.map fun r => (r.pa, r.write)
    obs (exec (.transferStep 0 0) (runState leg0 [tlb 1 0x50000, tlb 2 0x60000])) reqs = some [(0x50000, none)]
    ∧ obs (exec (.transferStep 0 0) (runState leg0 [])) (fun t => (getRec (getDie t 0) 0).legs.map (·.walk)) = some [some (false, 0x10000)]
    ∧ xlate rootless (getDie rootless 0) 0 0 0x10000 false = .fault 0
    ∧ obs (exec (.transferStep 0 0) rootless) (fun t => ((getRec (getDie t 0) 0).st, (getRec (getDie t 0) 0).reason, (getDie t 0).stream.faults)) = some (.parked, 0, 1) := by
  decide +kernel

def walking (va : W64) : State := runState { leg0 with walk := some (false, va) } []

theorem witness_walk : (walk (walking 0x10000) 0 false 0 0x10000 false).2 = (.pa 0x50000 false, some (tlb 1 0x50000))
    ∧ (walk (walking 0x30000) 0 false 0 0x30000 false).2 = (.fault 1, none) := by decide +kernel

theorem test_walk : obs (exec (.translationWalkDone 0 0 0) (walking 0x10000)) (fun t => ((getDie t 0).tlb, (getRec (getDie t 0) 0).legs.map (·.walk)))
      = some ([tlb 1 0x50000], [none])
    ∧ obs (exec (.translationWalkDone 0 0 0) (walking 0x30000)) (fun t => ((getDie t 0).tlb, (getRec (getDie t 0) 0).st)) = some ([], .parked) := by decide +kernel

/-- A transfer of all its bytes that names counter 0. -/
def doneLeg : Leg := { leg0 with next := 64, desc := desc64 1 }

def doneState : State :=
  let s := runState doneLeg []
  { s with
    dies := [(0, { getDie s 0 with recs := [(0, { running doneLeg with nextOp := 0xFFFFFF })] })]
    tiles := [(0, { Tile.reset with acnt := [(0, acnt3)] })] }

theorem witness_complete : dCpl doneLeg.desc = 0xFFFFFF ∧ dDstKind doneLeg.desc = 0 ∧ tileTakes doneState 0 = true ∧ dAcntEn doneLeg.desc = true
    ∧ doneLeg.next = dTotal doneLeg.desc ∧ dAcnt doneLeg.desc = 0 := by decide +kernel

theorem test_transfer_complete : obs (exec (.transferComplete 0 0) doneState)
    (fun t => ((getRec (getDie t 0) 0).st, (getRec (getDie t 0) 0).gen, (getStq (getDie t 0) 3).recs, (getAcnt (getTile t 0) 0).value)) = some (.free, 1, [], 4) := by
  decide +kernel

/-! ### Handles, parked transfers, drains -/

def hqState (q : Hq) : State := withTile { Tile.reset with hqs := [(2, q)] }

def hq2 (n : Nat) : Hq := { Hq.reset with cfg := 0x80000000, handles := List.replicate n 1 }

theorem test_pushes : let all (t : State) := (getHq (getTile t 0) 2).handles
    obs (exec (.handleWindowPush .port 0 2 0 7) (hqState (hq2 1))) (fun t => (t.status, all t)) = some (0, [1, 7])
    ∧ obs (exec (.handleWindowPush .port 0 2 0 7) (hqState (hq2 64))) (fun t => ((getHq (getTile t 0) 2).held.map (·.handle), (all t).length)) = some ([7], 64)
    ∧ obs (exec (.handleWindowPush .port 0 2 0 7) (hqState Hq.reset)) (fun t => (all t, (getDie t 0).stream.handlesDropped)) = some ([], 1)
    ∧ obs (exec (.handlePushLand 0 2 0) (hqState { hq2 63 with held := [⟨.window, 7, 0⟩] })) (fun t => ((all t).length, (getHq (getTile t 0) 2).held)) = some (64, [])
    ∧ obs (exec (.handlePushLand 0 2 0) (hqState { hq2 64 with held := [⟨.window, 7, 0⟩] })) (fun t => (all t).length) = some 64 := by decide +kernel

def parkedState (limit : Nat) (time : Nat) : State :=
  let s := runState leg0 []
  { s with
    mod := { s.mod with time := BitVec.ofNat 64 time }
    dies := [(0, { getDie s 0 with
      recs := [(0, { running leg0 with st := .parked, reason := 1 })], stream := { (getDie s 0).stream with cfg := BitVec.ofNat 32 (limit * 65536) } })] }

theorem witness_parked : let s := parkedState 1 1000000
    isParked (getRec (getDie s 0) 0) = true ∧ xferTag 0 0 (getRec (getDie s 0) 0) = 0 ∧ dieReady s 0 = true ∧ (getJob s 0).frozen = false
    ∧ isParked (getRec (getDie s 0) 1) = false ∧ xferTag 0 1 (getRec (getDie s 0) 1) = 1 := by decide +kernel

theorem test_fault_ctl : let x (t : State) := getRec (getDie t 0) 0
    obs (exec (.faultCtlResume .port 0 0) (parkedState 1 0)) (fun t => (t.status, (x t).st)) = some (0, .running)
    ∧ obs (exec (.faultCtlFail .port 0 0) (parkedState 1 0)) (fun t => (t.status, (x t).legs.map (·.status))) = some (0, [cXlateFail])
    ∧ obs (exec (.faultCtlFail .port 0 1) (parkedState 1 0)) (fun t => (t.status, (x t).st, (getDie t 0).stream.tagsStale)) = some (cTagStale, .parked, 1)
    ∧ obs (exec (.parkTimeout 0 0) (parkedState 1 1000000)) (fun t => (x t).legs.map (·.status)) = some [cParkTimeout]
    ∧ obs (exec (.parkTimeout 0 0) (parkedState 1 999999)) (fun t => (x t).st) = some .parked
    ∧ obs (exec (.parkTimeout 0 0) (parkedState 0 1000000)) (fun t => (x t).st) = some .parked := by decide +kernel

/-- A block of transfer 0 that has waited for a slot since the start. -/
theorem test_block_park : let s (n : Nat) : State :=
      { parkedState 1 n with net := { base.net with blocks := [(3, { put1 1 with kind := .toTile, xfer := some (0, 0, 0), slotWait := some 0 })] } }
    obs (exec (.streamBlockParkTimeout 3) (s 1000000)) (fun t => t.net.blocks.length) = some 0
    ∧ obs (exec (.streamBlockParkTimeout 3) (s 999999)) (fun t => t.net.blocks.length) = some 1 := by decide +kernel

/-- Queue context 3 as given, alone on its die. -/
def stopState (x : Stq) (time : Nat) : State :=
  { base with
    mod := { base.mod with time := BitVec.ofNat 64 time }
    dies := [(0, { Die.reset with st := .ready, stq := [(3, x)], stream := { Die.reset.stream with cfg := 1 } })] }

def handleStq : Stq := { activeStq with cfg := 0x8800000000000000, handles := [1, 2] }

theorem test_stq_stops : let st (t : State) := (getStq (getDie t 0) 3).st
    stqKind handleStq = 1 ∧ stqKind activeStq = 0 ∧ obs (exec (.stqDrain .port 0 3) (stopState activeStq 0)) st = some .disabled
    ∧ obs (exec (.stqDrain .port 0 3) (stopState { activeStq with recs := [0] } 0)) st = some .draining
    ∧ obs (exec (.stqAbort .port 0 3) (stopState handleStq 0)) (fun t => (st t, (getDie t 0).stream.handlesDropped)) = some (.disabled, 2)
    ∧ obs (exec (.drainLimitExpire 0) (stopState { handleStq with st := .draining } 100000)) st = some .disabled
    ∧ obs (exec (.drainLimitExpire 0) (stopState { handleStq with st := .draining } 99999)) st = some .draining := by decide +kernel

theorem test_other_stops : obs (exec (.reachDrain .port 0 6) (postState [])) (fun t => (getReach (getDie t 0) 6).st) = some .disabled
    ∧ obs (exec (.reachAbort .port 0 6) (postState [])) (fun t => (getReach (getDie t 0) 6).st) = some .disabled
    ∧ obs (exec (.hqDrain .port 0 2) (hqState (hq2 0))) (fun t => hqEnabled (getHq (getTile t 0) 2)) = some false
    ∧ obs (exec (.hqDrain .port 0 2) (hqState (hq2 2))) (fun t => ((getHq (getTile t 0) 2).handles.length, hqEnabled (getHq (getTile t 0) 2))) = some (2, true)
    ∧ obs (exec (.hqAbort .port 0 2) (hqState (hq2 2))) (fun t => ((getHq (getTile t 0) 2).handles, hqEnabled (getHq (getTile t 0) 2))) = some ([], false) := by
  decide +kernel

/-- Two cached pages of job 0 and one of job 1. -/
def cached : State :=
  { base with dies := [(0, { Die.reset with st := .ready, tlb := [tlb 1 0, tlb 2 0, { tlb 1 0 with job := 1 }] })], mod := { base.mod with invalAddr := 0x20000 } }

theorem test_invalidations : let pages (t : State) := (getDie t 0).tlb.map fun e => (e.job, e.page)
    invalBusy cached = false ∧ obs (exec (.trnInval .port (2 ^ 32)) cached) (fun t => (t.status, pages t)) = some (0, [(0, 1), (1, 1)])
    ∧ obs (exec (.trnInval .port 0) cached) pages = some [(1, 1)] ∧ obs (exec (.trnRootWrite .port 0 0) cached) (fun t => (t.status, pages t)) = some (0, [(1, 1)])
    ∧ obs (exec (.trnRootWrite .port 0 0x8000000000000000) cached) (fun t => t.status) = some stInvalid
    ∧ inReserveNs (2 * 2 ^ 36 + 0xF00000000) (2 ^ 21) = true
    ∧ obs (exec (.trnRootWrite .port 0 0x8000002F00000000) cached) (fun t => (t.status, (getJob t 0).regs.trnRoot)) = some (0, 0x8000002F00000000)
    ∧ obs (exec (.trnInval .port 0) { cached with mod := { cached.mod with invalWait := [5] } }) (fun t => t.status) = some stCfgBusy := by decide +kernel

/-! ### Engines -/

/-- A press command (R168, R572): I8 times I8, A at 0x1000, B at 0x2000, A32 sums at 0x3000 with shift counts at 0x4000, 4 × 4 with K 16. -/
def pressBlock (m n k : Nat) : BitVec 512 :=
  BitVec.ofNat 512 (0xFFFFFF * 2 ^ 424 + 0xFFFFFF * 2 ^ 400 + 0xFFFFFF * 2 ^ 376 + 0xFFFFFF * 2 ^ 352 + 0xFFFFFF * 2 ^ 328 + 0x4000 * 2 ^ 304 + 0x3000 * 2 ^ 280
    + 0xFFFFFF * 2 ^ 256 + 0xFFFFFF * 2 ^ 232 + 0x2000 * 2 ^ 208 + 0x1000 * 2 ^ 184 + 10 * 2 ^ 136 + 3 * 2 ^ 120 + 3 * 2 ^ 104 + k * 2 ^ 70 + n * 2 ^ 52 + m * 2 ^ 34)

def engArg (ovr : BitVec 4) (imm : BitVec 24) : EngArg := { gA := 1, gB := 2, gC := 3, ovr, doneEn := true, done := 5, imm }

/-- A tile whose context 0 has a press command at 0x400, and whose press queue holds n operations. -/
def engTile (n : Nat) : Tile :=
  { tileOf { ctx0 with g := [(1, 0x400)] } with
    spad := place 0x400 64 (pressBlock 4 4 16).toNat
    eng := { (tileOf ctx0).eng with press := List.replicate n (idleOp .press) } }

theorem witness_issue : let x := getTile (withTile (engTile 3)) 0
    canIssue (withTile (engTile 3)) egn 0 = true ∧ engReserved .press (engArg 0 0) = false ∧ engReserved .press (engArg 0 2) = true
    ∧ engAddrCheck x 0 .press 0x400 0 = none ∧ spadBad x 0x400 64 = false ∧ engAddrCheck x 0 .press 0x420 0 = some (3, 0x420)
    ∧ engAddrCheck x 0 .cvt 0x420 0 = none ∧ engAddrCheck x 0 .xpose 0x410 0 = none ∧ engAddrCheck x 0 .wld 0x400 0 = none
    ∧ engReserved .wclr { engArg 0 0 with gA := 0 } = false ∧ engReserved .wacc (engArg 0 0) = false ∧ engReserved .gutter (engArg 0 0) = false := by decide +kernel

theorem test_issue : let q (u : EngUnit) (t : State) := (unitQ (getTile t 0) u).length
    obs (exec (.press egn (engArg 0 0)) (withTile (engTile 3))) (fun t => (q .press t, pcOf t)) = some (4, 0x110)
    ∧ obs (exec (.press egn (engArg 0 0)) (withTile (engTile 4))) (fun t => (q .press t, pcOf t, (ctxOf t 0 0).wait.isSome)) = some (4, 0x100, true)
    ∧ obs (exec (.press egn (engArg 0 0)) (withTile (engTile 0))) (fun t => (unitQ (getTile t 0) .press).map (·.block)) = some [pressBlock 4 4 16]
    ∧ obs (exec (.press egn (engArg 0 2)) (withTile (engTile 0))) cause = some 0x301
    ∧ obs (exec (.cvt egn (engArg 0 0)) (withTile (engTile 0))) (q .conv) = some 1 ∧ obs (exec (.gutter egn (engArg 0 0)) (withTile (engTile 0))) (q .conv) = some 1
    ∧ obs (exec (.xpose egn (engArg 0 0)) (withTile (engTile 0))) (q .conv) = some 1 ∧ obs (exec (.wld egn (engArg 0 1)) (withTile (engTile 0))) (q .wide) = some 1
    ∧ obs (exec (.wst egn (engArg 0 1)) (withTile (engTile 0))) (q .wide) = some 1 ∧ obs (exec (.wacc egn (engArg 0 0)) (withTile (engTile 0))) (q .wide) = some 1
    ∧ obs (exec (.wclr egn { engArg 0 1 with gA := 0 }) (withTile (engTile 0))) (q .wide) = some 1 := by decide +kernel

/-- Tile 0 with one operation at the head of its engine's queue. -/
def headTile (k : EngKind) (block : BitVec 512) (started : Bool) (wait : Option W64) : Tile :=
  let o : EngOp := { idleOp k with block, started, slotWait := wait, imm := 0x002003 }
  let e := (tileOf ctx0).eng
  let eng := match kindUnit k with | .press => { e with press := [o] } | .conv => { e with conv := [o] } | .wide => { e with wide := [o] }
  { tileOf { ctx0 with waitLimit := 5 } with eng }

/-- A conversion of one I16 row of 8 elements at 0x1000 to I8 at 0x3000 under a declared exponent of 8, rounding to even (R169). -/
def cvtBlock : BitVec 512 :=
  BitVec.ofNat 512 (1 * 2 ^ 186 + 8 * 2 ^ 168 + 1 * 2 ^ 152 + 0x0803 * 2 ^ 136 + 5 * 2 ^ 120 + 0xFFFFFF * 2 ^ 96 + 0x3000 * 2 ^ 72 + 0xFFFFFF * 2 ^ 48 + 0xFFFFFF * 2 ^ 24 + 0x1000)

/-- A gutter update of one row of 8: I16 weights at 0x1000, gutters at 0x2000, I16 updates at 0x3000 of exponent -8 (R108, R170). -/
def gutBlock : BitVec 512 :=
  BitVec.ofNat 512 (8 * 2 ^ 168 + 1 * 2 ^ 152 + 0xF805 * 2 ^ 136 + 5 * 2 ^ 120 + 0xFFFFFF * 2 ^ 96 + 0x3000 * 2 ^ 72 + 0x2000 * 2 ^ 48 + 0xFFFFFF * 2 ^ 24 + 0x1000)

/-- A transposing copy of 16 × 16 bytes from 0x1000 to 0x3000 (R171). -/
def xposeBlock : BitVec 512 := BitVec.ofNat 512 (16 * 2 ^ 77 + 16 * 2 ^ 64 + 3 * 2 ^ 48 + 0x3000 * 2 ^ 24 + 0x1000)

/-- A wide accumulate of one A32 sum at 0x3000, shift counts at 0x4000, into element 2 (R172). -/
def waccBlock : BitVec 512 := BitVec.ofNat 512 (1 * 2 ^ 113 + 1 * 2 ^ 100 + 2 * 2 ^ 88 + 10 * 2 ^ 72 + 0xFFFFFF * 2 ^ 48 + 0x4000 * 2 ^ 24 + 0x3000)

theorem witness_start_engines : let causes (k : EngKind) (b : BitVec 512) :=
      let x := headTile k b false none
      match k with
      | .press => pressCauses x 0 (pressCmd b) ++ stripCauses x 0 (readStrips x (pressRegions x (pressCmd b)))
      | .cvt => cvtCauses x 0 (cvtCmd b) ++ stripCauses x 0 (readStrips x (cvtRegions (cvtCmd b)))
      | .gutter => gutCauses x 0 (gutCmd b) ++ stripCauses x 0 (readStrips x (gutRegions (gutCmd b)))
      | .xpose => xposeCauses x 0 (xposeCmd b)
      | _ => wideCauses x { idleOp k with block := b, imm := 0x002003 }
    lowest (causes .press (pressBlock 4 4 16)) = none ∧ lowest (causes .press (pressBlock 4 4 17)) = some 0x25 ∧ lowest (causes .cvt cvtBlock) = none
    ∧ lowest (causes .gutter gutBlock) = none ∧ lowest (causes .xpose xposeBlock) = none ∧ lowest (causes .wacc waccBlock) = none
    ∧ lowest (causes .wclr 0) = none ∧ lowest (causes .wld 0) = none := by decide +kernel

theorem witness_start_free : let x := headTile .press (pressBlock 4 4 16) false none
    let o : EngOp := { idleOp .press with block := pressBlock 4 4 16, started := false, imm := 0x002003 }
    unitQ x .press = [o] ∧ wideFree x o (pressRegions x (pressCmd o.block)) = true ∧ (pressRegions x (pressCmd o.block)).any (rgnWaits x) = false
    ∧ orderFree x { o with imm := 0 } = true ∧ orderFree x o = true := by decide +kernel

theorem test_starts : let started (u : EngUnit) (t : State) := (unitQ (getTile t 0) u).map (·.started)
    obs (exec (.pressStart 0) (withTile (headTile .press (pressBlock 4 4 16) false none))) (fun t => (started .press t, (ctxOf t 0 0).rngOp)) = some ([true], 1)
    ∧ obs (exec (.pressStart 0) (withTile (headTile .press (pressBlock 4 4 17) false none))) (fun t => (started .press t, cause t)) = some ([], 0x125)
    ∧ obs (exec (.cvtUnitStart 0) (withTile (headTile .cvt cvtBlock false none))) (started .conv) = some [true]
    ∧ obs (exec (.cvtUnitStart 0) (withTile (headTile .gutter gutBlock false none))) (started .conv) = some [true]
    ∧ obs (exec (.cvtUnitStart 0) (withTile (headTile .xpose xposeBlock false none))) (fun t => (started .conv t, (ctxOf t 0 0).rngOp)) = some ([true], 0)
    ∧ obs (exec (.wideOpStart 0) (withTile (headTile .wacc waccBlock false none))) (started .wide) = some [true] := by decide +kernel

theorem test_slot_waits : obs (exec (.engineSlotResume 0 .conv) (withTile (headTile .cvt cvtBlock true (some 0)))) (fun t => (unitQ (getTile t 0) .conv).map (·.slotWait))
      = some [none]
    ∧ obs (exec (.engineSlotResume 0 .conv) (withTile (headTile .cvt cvtBlock false (some 0)))) (fun t => (unitQ (getTile t 0) .conv).map (·.started)) = some [true]
    ∧ obs (exec (.slotTimeout 0 .conv) (withTile (headTile .cvt cvtBlock true (some 0)))) (fun t => (cause t, (unitQ (getTile t 0) .conv).length)) = some (0x151, 0)
    ∧ obs (exec (.slotTimeout 0 .conv) (withTile (headTile .cvt cvtBlock true (some 1)))) cause = some 0 := by decide +kernel

/-- The product of rows that hold 2 and -3 in place 0, and 5 in place 15, with columns that hold 7 and 1 there. -/
def productTile : Tile :=
  { headTile .press (pressBlock 2 2 16) true none with
    spad := [(0x1000, 2), (0x100F, 5), (0x1010, 0xFD), (0x2000, 7), (0x201F, 1)], regs := { Tile.reset.regs with pressCtrl := 2 } }

theorem witness_press : let x := productTile
    let p := pressCmd (pressBlock 2 2 16)
    x.injResidue = false ∧ x.residueFails = [] ∧ x.spadEcc = [] ∧ p.m0808 = false ∧ p.comp = false ∧ bitAt x.regs.pressCtrl 0 = false ∧ p.acc = false ∧ p.row = false
    ∧ p.cvt = 0xFFFFFF ∧ opnd p.a ≠ .none ∧ opnd p.b ≠ .none ∧ opndSlot p.a = none ∧ opndSlot p.b = none ∧ blockElems p.aFmt = 0 ∧ blockElems p.bFmt = 0
    ∧ opnd p.out = .plain 0x3000 ∧ opnd p.shift = .plain 0x4000 ∧ p.m = 2 ∧ p.n = 2 ∧ p.k = 16
    ∧ expVal (fmtExp p.outFmt) = expVal (fmtExp p.aFmt) + expVal (fmtExp p.bFmt)
    ∧ (readTensor x p.aFmt p.a p.aStrip 2 16).map (fun r => r.map (·.1)) = [[2, 0, 0, 0, 0, 0, 0, 0, 0, 0, 0, 0, 0, 0, 0, 5], [-3, 0, 0, 0, 0, 0, 0, 0, 0, 0, 0, 0, 0, 0, 0, 0]] := by
  decide +kernel

/-- 2 × 7 = 14, 5 × 1 = 5, -3 × 7 = -21 and 0. -/
theorem test_press : obs (exec (.pressComplete 0) (withTile productTile))
    (fun t => (List.range 4).map fun i => sgn 32 (leNat (spadRead (getTile t 0) (0x3000 + 4 * i) 4))) = some [14, 5, -21, 0] := by decide +kernel

theorem test_conversion : let x := { headTile .cvt cvtBlock true none with spad := [(0x1000, 0x80), (0x1001, 0x01), (0x1002, 0x80), (0x1003, 0x02), (0x1005, 0x80)] }
    obs (exec (.conversionComplete 0) (withTile x)) (fun t => (spadRead (getTile t 0) 0x3000 3, (unitQ (getTile t 0) .conv).length)) = some ([2, 2, 0x81], 0) := by
  decide +kernel

/-- A weight of 1 with gutter 127 and an update of 1 unit of the gutter: 256 + 127 + 1 is 2 × 256 - 128. -/
theorem test_gutter : let x := { headTile .gutter gutBlock true none with spad := [(0x1000, 1), (0x2000, 127), (0x3000, 1)] }
    obs (exec (.gutterComplete 0) (withTile x)) (fun t => (spadRead (getTile t 0) 0x1000 2, spadRead (getTile t 0) 0x2000 1)) = some ([2, 0], [0x80]) := by
  decide +kernel

theorem test_xpose : let x := { headTile .xpose xposeBlock true none with spad := [(0x1001, 7), (0x1020, 9)] }
    obs (exec (.xposeComplete 0) (withTile x)) (fun t => (spadRead (getTile t 0) 0x3010 1, spadRead (getTile t 0) 0x3002 1)) = some ([7], [9]) := by decide +kernel

/-- Elements 2 to 4, of an operand at 0x1000. -/
theorem test_wide : let w (t : State) := (List.range 6).map (getWide (getTile t 0))
    let x (k : EngKind) : Tile := { headTile k 0 true none with wideBuf := [(1, 10), (2, 20), (4, 40), (5, 50)], spad := [(0x1000, 1), (0x1009, 2)] }
    obs (exec (.wideOpComplete 0) (withTile (x .wclr))) w = some [0, 10, 0, 0, 0, 50]
    ∧ obs (exec (.wideOpComplete 0) (withTile (x .wld))) w = some [0, 10, 1, 512, 0, 50]
    ∧ obs (exec (.wideOpComplete 0) (withTile (x .wst))) (fun t => (getTile t 0).spad) = some [(0x1000, 20), (0x1010, 40)] := by decide +kernel

/-- 2^63 - 1 and a sum of 5 at shift count 1 clamp to 2^63 - 1; -20 and 10 make -10. -/
theorem test_wide_accumulate : let x (v : W64) : Tile := { headTile .wacc waccBlock true none with wideBuf := [(2, v)], spad := [(0x3000, 5), (0x4000, 1)] }
    obs (exec (.wideOpComplete 0) (withTile (x 0x7FFFFFFFFFFFFFFF))) (fun t => getWide (getTile t 0) 2) = some 0x7FFFFFFFFFFFFFFF
    ∧ obs (exec (.wideOpComplete 0) (withTile (x (-20)))) (fun t => getWide (getTile t 0) 2) = some (-10) := by decide +kernel

/-! ### Errors that a tile finds -/

theorem test_residue : let s (ctrl : W32) := withTile { productTile with regs := { Tile.reset.regs with pressCtrl := ctrl } }
    obs (exec (.pressResidueMismatch 0 true 0) (s 2)) (fun t => ((unitQ (getTile t 0) .press).length, (getTile t 0).regs.pressStatus, cause t)) = some (1, 2, 0)
    ∧ obs (exec (.pressResidueMismatch 0 false 0) (s 2)) (fun t => ((unitQ (getTile t 0) .press).length, (getTile t 0).regs.pressStatus, cause t)) = some (0, 6, 0x127)
    ∧ obs (exec (.pressResidueMismatch 0 true 0) (s 0)) cause = some 0x127 ∧ 1 < fldN base.log.cfg 24 3 := by decide +kernel

theorem test_patrols : let x : Tile := { tileOf ctx0 with spadEcc := [(16, .single), (17, .double)], wideBuf := [(3, 9)], wideEcc := [(3, .double)] }
    obs (exec (.widePatrol 0 3) (withTile x)) (fun t => (getWide (getTile t 0) 3, (getTile t 0).wideEcc, (getTile t 0).regs.wideStatus)) = some (0, [], 8)
    ∧ obs (exec (.spadPatrol 0 1) (withTile x)) (fun t => (getTile t 0).spadEcc) = some [(17, .double)]
    ∧ obs (exec (.spadPatrol 0 2) (withTile x)) (fun t => (getTile t 0).spadEcc.length) = some 2
    ∧ obs (exec (.spadEccWriteback 0 16) (withTile x)) (fun t => (getTile t 0).spadEcc) = some [(17, .double)]
    ∧ obs (exec (.spadEccWriteback 0 17) (withTile x)) (fun t => (getTile t 0).spadEcc.length) = some 2 ∧ (x.spadEcc.map Prod.fst).Nodup := by decide +kernel

theorem test_context_store : let x : Tile := { tileOf ctx0 with ctxEcc := [(0, .double), (1, .single)] }
    let noFence (s : State) : State := { s with log := { s.log with cfg := 0xC2010000 &&& 0x7FFFFFFF } }
    storeBad x 0 = true ∧ storeBad x 1 = false ∧ autoFence (withTile x) = true ∧ autoFence (noFence (withTile x)) = false
    ∧ obs (exec (.ctxStorePatrol 0 0) (withTile x)) (fun t => decide (getTile t 0 = { Tile.reset with fenced := true })) = some true
    ∧ obs (exec (.ctxStorePatrol 0 0) (noFence (withTile x))) (fun t => ((getTile t 0).faultHold, cause t, (ctxOf t 0 0).st)) = some (true, 0xE0, .stopped)
    ∧ obs (exec (.ctxStorePatrol 0 1) (withTile x)) (fun t => ((getTile t 0).ctxEcc, (getTile t 0).fenced)) = some ([(0, .double)], false) := by decide +kernel

/-! ### Stacks of memory -/

def memState (k : Stack) : State := { base with hbmStacks := [(0, { k with st := .ready })], hbm := [(0x40, 7)] }

theorem witness_memory_access : let s := memState Stack.reset
    stackServes s 0 = true ∧ blkSt (getStack s 0) 1 = none ∧ reserveStack 0 = false ∧ securePa s 0x40 = false
    ∧ securePa { s with regions := bootRegions } (2 * 2 ^ 36 + 0xFC0000000) = true ∧ reserveStack 2 = true := by decide +kernel

theorem test_memory_access : obs (exec (.hbmRequestServe 0 (some (3, 0x42, .write [1, 2]))) (memState Stack.reset)) (fun t => (t.status, t.hbm)) = some (0, [(0x40, 7), (0x42, 1), (0x43, 2)])
    ∧ obs (exec (.hbmRequestServe 0 (some (3, 0x40, .read 2))) (memState Stack.reset)) (fun t => (mget WinCore.reset t.win 3).sample) = some [7, 0]
    ∧ obs (exec (.hbmRequestServe 2 (some (3, 0xFC0000000, .write [1]))) { memState Stack.reset with regions := bootRegions }) (fun t => (t.status, t.hbm.length)) = some (stWorld, 1) := by decide +kernel

def patrolled (b : BlkSt) : Stack := { Stack.reset with st := .ready, patrol := 1, writebacks := [1], blocks := [(1, b)] }

theorem test_patrol : let k (t : State) := getStack t 0
    obs (exec (.hbmPatrol 0) (memState (patrolled .correctable))) (fun t => ((k t).ce, (k t).patrol, blkSt (k t) 1)) = some (1, 2, some .correctable)
    ∧ obs (exec (.hbmPatrol 0) (memState (patrolled .uncorrectable))) (fun t => ((k t).ue, blkSt (k t) 1)) = some (1, some .poisoned)
    ∧ obs (exec (.hbmPatrol 0) (memState Stack.reset)) (fun t => (k t).patrol) = some 1
    ∧ obs (exec (.hbmWriteback 0) (memState (patrolled .correctable))) (fun t => (blkSt (k t) 1, (k t).writebacks)) = some (none, [])
    ∧ obs (exec (.hbmWriteback 0) (memState (patrolled .poisoned))) (fun t => (blkSt (k t) 1, (k t).writebacks)) = some (some .poisoned, [])
    ∧ obs (exec (.hbmRefresh 0 5) (memState (patrolled .poisoned))) k = some (patrolled .poisoned) := by decide +kernel

/-- A transfer's step of 64 bytes from 0x40, its second request still to be read; and one to be written. -/
def stepOf (reads writes : Nat) : StepRec := { id := 9, off := 0, len := 128, data := [], reads, writes, dst := some 0x80, vas := [] }

def requested (w : Option (List Byte)) (st : StepRec) : State :=
  { memState { Stack.reset with reqs := [{ pa := 0x40, write := w, die := 0, xrec := 0, step := 9, idx := 0, world := false, job := 0 }] } with
    dies := [(0, { streamDie [(0, running { leg0 with steps := [st] })] with tlb := [] })] }

theorem witness_request : findStep (running { leg0 with steps := [stepOf 2 0] }) 9 = some ({ leg0 with steps := [stepOf 2 0] }, stepOf 2 0) ∧ paStack 0x40 = 0
    ∧ findStep (running { leg0 with steps := [stepOf 0 2] }) 9 = some ({ leg0 with steps := [stepOf 0 2] }, stepOf 0 2) := by decide +kernel

theorem test_request : let left (t : State) : List Nat := (getRec (getDie t 0) 0).legs.flatMap fun l => l.steps.flatMap fun s => [s.reads, (leNat (s.data.map (·.2)))]
    obs (exec (.hbmRequestServe 0 none) (requested none (stepOf 2 0))) left = some [1, 7]
    ∧ obs (exec (.hbmRequestServe 0 none) (requested (some [5]) (stepOf 0 2))) (fun t => t.hbm) = some [(0x40, 5)] := by decide +kernel

theorem test_stack_commands : let k (t : State) := getStack t 0
    let s (n : Nat) : State := memState { Stack.reset with ceSince := n, patrol := 5, badRows := [] }
    obs (exec (.hbmCeSummary 0) (s 3)) (fun t => ((k t).ceSince, (k t).ceSummaryAt)) = some (0, some 5000)
    ∧ obs (exec (.hbmCeSummary 0) (s 0)) (fun t => (k t).ceSummaryAt) = some none
    ∧ obs (exec (.hbmPatrolRestart (.core 16) 0) (s 0)) (fun t => (t.status, (k t).patrol)) = some (0, 0)
    ∧ obs (exec (.hbmPatrolRestart (.core 15) 0) (s 0)) (fun t => (t.status, (k t).patrol)) = some (stWorld, 5)
    ∧ obs (exec (.hbmPatrolRestart (.core 16) 1) (s 0)) (fun t => t.status) = some cDieLost
    ∧ obs (exec (.hbmRecal (some (.core 16)) 0 true []) (s 0)) (fun t => (t.status, (k t).st, (k t).badRows)) = some (0, .ready, [])
    ∧ obs (exec (.hbmRecal (some (.core 16)) 0 false []) (s 0)) (fun t => (t.status, (k t).st)) = some (0, .offline)
    ∧ obs (exec (.hbmRecal none 0 true []) (s 0)) (fun t => (k t).st) = some .ready
    ∧ secureWriter (.core 16) = true ∧ secureWriter (.core 15) = false := by decide +kernel

/-! ### Configuration of tiles and streams -/

theorem test_tile_config : let s := withTile (syncTile acnt3 Slot.reset Hq.reset)
    let quiet := withTile { syncTile acnt3 Slot.reset Hq.reset with ctx := [] }
    obs (exec (.tileShareWrite .port 0 0x110) quiet) (fun t => (t.status, (getTile t 0).regs.share)) = some (0, 0x110)
    ∧ obs (exec (.tileShareWrite .port 0 0x11) s) (fun t => t.status) = some stInvalid ∧ obs (exec (.tileShareWrite .port 0 0x10) s) (fun t => t.status) = some stCfgBusy
    ∧ obs (exec (.acntCfgWrite .port 0 5 0x80000001) s) (fun t => (getAcnt (getTile t 0) 5).value) = some 3
    ∧ obs (exec (.acntCfgWrite .port 0 6 0x80000001) s) (fun t => ((getAcnt (getTile t 0) 6).enable, (getAcnt (getTile t 0) 6).owner)) = some (true, 1)
    ∧ obs (exec (.hqCfgWrite .port 0 2 0) s) (fun t => (t.status, hqEnabled (getHq (getTile t 0) 2))) = some (0, false)
    ∧ obs (exec (.hqCfgWrite .port 0 2 0) (hqState (hq2 1))) (fun t => t.status) = some stCfgBusy
    ∧ obs (exec (.hqCfgWrite .port 0 3 0xA0000000) s) (fun t => (getHq (getTile t 0) 3).cfg) = some 0xA0000000
    ∧ obs (exec (.tileShareWrite .port 0 0) { s with dies := [] }) (fun t => t.status) = some cDieLost
    ∧ obs (exec (.acntCfgWrite .port 0 5 0) (withTile { Tile.reset with fenced := true })) (fun t => t.status) = some cDestFenced := by decide +kernel

theorem test_slot_config : let s := withTile (syncTile acnt3 { Slot.reset with st := .full } Hq.reset)
    slotNamed s 0 7 = false ∧ slotInShare (getTile s 0) 0x8000000000000000 = true ∧ slotInShare (getTile s 0) 0x8000000000002000 = false
    ∧ obs (exec (.slotCfgWrite .port 0 7 0x8000000000000000) s) (fun t => (t.status, slotEnabled (getSlot (getTile t 0) 7))) = some (0, true)
    ∧ obs (exec (.slotCfgWrite .port 0 7 0x8000000000002000) s) (fun t => t.status) = some stCfgBusy
    ∧ obs (exec (.slotCfgWrite .port 0 7 0x10000000) s) (fun t => t.status) = some stInvalid
    ∧ obs (exec (.slotCfgWrite .port 0 6 0x8000000000000000) s) (fun t => t.status) = some stCfgBusy := by decide +kernel

theorem test_stream_config : let s := stopState { activeStq with recs := [0] } 0
    obs (exec (.stqCfgWrite .port 0 4 0x8000000000000000) s) (fun t => (t.status, (getStq (getDie t 0) 4).st)) = some (0, .active)
    ∧ obs (exec (.stqCfgWrite .port 0 3 0x8000000000000000) s) (fun t => t.status) = some stCfgBusy
    ∧ obs (exec (.stqCfgWrite .port 0 4 0x9800000000000000) s) (fun t => t.status) = some stInvalid
    ∧ obs (exec (.stqCfgWrite .port 1 4 0) s) (fun t => t.status) = some cDieLost
    ∧ obs (exec (.reachCfgWrite .port 0 6 0x8000000000000000) s) (fun t => t.status) = some stInvalid
    ∧ obs (exec (.reachCfgWrite .port 0 6 0x8000000100000000) (postState [])) (fun t => t.status) = some stCfgBusy
    ∧ reachOk s 0 { Reach.reset with descs := [(0, desc64 0)] } 0x8000000100000000 = true ∧ reachOk s 0 { Reach.reset with descs := [(0, 1)] } 0x8000000100000000 = false
    ∧ obs (exec (.reachCfgWrite .port 0 6 0x8000000100000000)
        { s with dies := [(0, { Die.reset with st := .ready, reach := [(6, { Reach.reset with descs := [(0, 1)] })] })] }) (fun t => t.status) = some stInvalid := by decide +kernel

/-! ### Contexts and jobs -/

/-- Contexts 0 and 1 of tile 0; job 1 is in the filler of the share register where filler is true. -/
def twoCtx (a b : Ctx) (filler : Bool) : Tile :=
  { Tile.reset with ctx := [(0, a), (1, b)], regs := { Tile.reset.regs with share := if filler then 0x110 else 0 } }

def switching : State := withTile (twoCtx { ctx0 with st := .running, switchPt := true } { ctx0 with st := .ready, pc := 0x80000 } false)

def yrec0 (due : Option W64) (maxUnits : BitVec 24) : YieldRec :=
  { snapshot := 0, wakeDelta := 0, maxUnits, wakeAcnt := 0, wakeEn := false, target := 1, since := 0, due, lateNoted := false, leaving := false }

def dueState (y : YieldRec) : State :=
  withTile (twoCtx { ctx0 with st := .yielded, yrec := some y } { ctx0 with st := .running, switchPt := true } true)

theorem witness_switch : let s := dueState (yrec0 (some 0) 40)
    switchTaker (getTile s 0) 1 = some 0 ∧ runningCtx (getTile s 0) = some 1 ∧ engBusy (getTile s 0) 1 = false ∧ storeBad (getTile s 0) 0 = false
    ∧ switchTaker (getTile switching 0) 0 = none ∧ yieldedCtx (getTile s 0) = some (0, yrec0 (some 0) 40)
    ∧ idleTaker (twoCtx { ctx0 with st := .ready } Ctx.reset false) = some 0 := by decide +kernel

theorem test_context_switch : let sts (t : State) := ((ctxOf t 0 0).st, (ctxOf t 0 1).st)
    obs (exec (.contextSwitch 0) (dueState (yrec0 (some 0) 40))) (fun t => (sts t, (getTile t 0).regs.switches, (getTile t 0).regs.ctxReg)) = some ((.running, .ready), 1, 0)
    ∧ obs (exec (.contextSwitch 0) switching) sts = some (.running, .ready)
    ∧ obs (exec (.contextSwitch 0) { switching with jobs := [(0, { Job.reset with st := .pausing })] }) sts = some (.paused, .ready)
    ∧ obs (exec (.contextSwitch 0) (withTile (twoCtx { ctx0 with st := .ready } Ctx.reset false))) sts = some (.running, .empty) := by decide +kernel

/-- Context 0 is due, and the running context 1 stands at a switch point or not. -/
def lateState (point : Bool) (limit : W32) : State :=
  { withTile (twoCtx { ctx0 with st := .yielded, yrec := some (yrec0 (some 0) 40) } { ctx0 with st := .running, switchPt := point } true) with
    mod := { base.mod with switchCfg := limit } }

/-- 5 µs are 40 units of 125 ns. -/
theorem test_yield_times : obs (exec (.yieldMaxExpire 0) (dueState (yrec0 none 40))) (fun t => (ctxOf t 0 0).yrec.map (·.due)) = some (some (some 5000))
    ∧ obs (exec (.yieldMaxExpire 0) (dueState (yrec0 none 41))) (fun t => (ctxOf t 0 0).yrec.map (·.due)) = some (some none)
    ∧ obs (exec (.switchLate 0) (lateState false 0x00280000)) (fun t => (getTile t 0).regs.switchLate) = some 1
    ∧ obs (exec (.switchLate 0) (lateState true 0x00280000)) (fun t => (getTile t 0).regs.switchLate) = some 0
    ∧ obs (exec (.switchLate 0) (lateState false 0x00290000)) (fun t => (getTile t 0).regs.switchLate) = some 0 := by
  decide +kernel

def stoppedState (st : CtxSt) : State := withTile { Tile.reset with ctx := [(0, { ctx0 with st, excCause := 0x201, excPc := 0x100 })] }

theorem test_context_commands : obs (exec (.ctxResume .port 0 0) (stoppedState .stopped)) (fun t => (t.status, (ctxOf t 0 0).st, cause t)) = some (0, .ready, 0)
    ∧ obs (exec (.ctxResume .port 0 0) (stoppedState .halted)) (fun t => t.status) = some stJobState
    ∧ obs (exec (.ctxRestart .port 0 0 0x20F) (stoppedState .halted)) (fun t => ((ctxOf t 0 0).st, pcOf t)) = some (.ready, 0x200)
    ∧ obs (exec (.ctxRestart .port 0 0 0) (stoppedState .running)) (fun t => t.status) = some stJobState
    ∧ obs (exec (.yieldRegWrite .port 0 0 1) (stoppedState .running)) (fun t => t.status) = some stCfgBusy
    ∧ obs (exec (.yieldRegWrite .port 0 0 0) (stoppedState .halted)) (fun t => t.status) = some stInvalid
    ∧ obs (exec (.yieldRegWrite .port 0 0 0x1FFFFFFFF) (stoppedState .halted)) (fun t => (t.status, (ctxOf t 0 0).yieldReg)) = some (0, 0xFFFFFFFF) := by decide +kernel

/-- A yield list of one entry at 0x400 whose AT is 9, under a period of 10 and of 9. -/
theorem test_yield_list : let x (st : CtxSt) : Tile := { Tile.reset with ctx := [(0, { ctx0 with st })], spad := place 0x400 16 (9 * 2 ^ 96) }
    let v (p : W64) : W64 := 0x8000000000000000 ||| (0x400 <<< 33) ||| p
    yieldRaw (x .paused) 0 { ctx0 with yieldReg := v 10 } 0 = some (BitVec.ofNat 128 (9 * 2 ^ 96))
    ∧ yieldEntryOk { ctx0 with yieldReg := v 10 } (BitVec.ofNat 128 (9 * 2 ^ 96)) = true ∧ yieldEntryOk { ctx0 with yieldReg := v 9 } (BitVec.ofNat 128 (9 * 2 ^ 96)) = false
    ∧ obs (exec (.yieldRegWrite .port 0 0 (v 10)) (withTile (x .paused))) (fun t => (t.status, (ctxOf t 0 0).yent)) = some (0, some (BitVec.ofNat 128 (9 * 2 ^ 96))) := by
  decide +kernel

/-! ### Publications -/

def pubState (st : BitVec 2) (refs : Nat) : State := { base with pubs := [(2, { Pub.reset with st, refs, base := 0x0000002F00000000, count := 1 })] }

theorem test_publications : let p (t : State) := getPub t 2
    pubBlockOk 0x0000002F00000000 1 = true ∧ pubBlockOk 0 1 = false
    ∧ obs (exec (.pubCfgWrite .port 2 0x8080000000000000) (pubState 0 0)) (fun t => (t.status, (p t).st, (p t).count)) = some (0, 1, 1)
    ∧ obs (exec (.pubCfgWrite .port 2 0x8080000000000000) base) (fun t => t.status) = some stInvalid
    ∧ obs (exec (.pubCfgWrite .port 2 0) (pubState 2 0)) (fun t => t.status) = some stCfgBusy
    ∧ obs (exec (.publish .port 2 7) (pubState 1 0)) (fun t => (t.status, (p t).st, (p t).version, (getJob t 0).regs.pubLatest)) = some (0, 2, 7, 0x80000002)
    ∧ obs (exec (.publish .port 2 7) (pubState 2 0)) (fun t => t.status) = some stPubState
    ∧ obs (exec (.unpublish .port 2) (pubState 2 0)) (fun t => (p t).st) = some 1 ∧ obs (exec (.unpublish .port 2) (pubState 2 1)) (fun t => t.status) = some stCfgBusy
    ∧ obs (exec (.hold .port 2) (pubState 2 0xFFFE)) (fun t => (p t).refs) = some 0xFFFF ∧ obs (exec (.hold .port 2) (pubState 2 0xFFFF)) (fun t => t.status) = some stCfgBusy
    ∧ obs (exec (.release .port 2) (pubState 2 1)) (fun t => (p t).refs) = some 0 ∧ obs (exec (.release .port 2) (pubState 2 0)) (fun t => t.status) = some stPubState := by
  decide +kernel

theorem test_views : let on : W64 := 0x8000000500000002
    let viewed : State := { pubState 2 1 with dies := [], jobs := [(0, { Job.reset with regs := { Job.reset.regs with trnView := on } })] }
    obs (exec (.trnViewWrite .port 0 on) (pubState 2 0)) (fun t => (t.status, (getJob t 0).regs.trnView, (getPub t 2).refs)) = some (0, on, 1)
    ∧ obs (exec (.trnViewWrite .port 0 on) (pubState 1 0)) (fun t => t.status) = some stPubState
    ∧ obs (exec (.trnViewWrite .port 0 0x8003FFFF00000002) (pubState 2 0)) (fun t => t.status) = some stInvalid
    ∧ obs (exec (.trnViewWrite .port 0 0x8003FFFE00000002) (pubState 2 0)) (fun t => t.status) = some 0
    ∧ obs (exec (.trnViewWrite .port 0 2) viewed) (fun t => (bitAt (getJob t 0).regs.trnView 63, (getPub t 2).refs)) = some (false, 0) := by decide +kernel

/-! ### The watch -/

theorem test_watch_config : let e (t : State) := getWatch t 4
    obs (exec (.watchCfgWrite .port 4 0x80030000) { base with jobs := [(0, { Job.reset with regs := { Job.reset.regs with armStep := 9 } })] })
        (fun t => (t.status, watchOn (e t), (e t).openStep, (e t).exp)) = some (0, true, 9, 0x8080)
    ∧ obs (exec (.watchCfgWrite .port 4 0x00030000) (watchState 5)) (fun t => (watchOn (e t), (e t).pendCfg, (e t).openStep)) = some (false, some 0x00030000, 5)
    ∧ obs (exec (.watchCfgWrite .port 4 0x80230000) base) (fun t => t.status) = some stInvalid
    ∧ obs (exec (.lossCfgWrite .port 2 0x80800000) base) (fun t => (t.status, (getLoss t 2).cfg)) = some (0, 0x80800000)
    ∧ obs (exec (.lossCfgWrite .port 2 0x80900000) base) (fun t => t.status) = some stInvalid
    ∧ obs (exec (.lossCfgWrite .port 2 0x80000000) base) (fun t => t.status) = some stInvalid := by decide +kernel

def reported (step : W64) : State :=
  { watchState 5 with net := { base.net with reports := [{ die := 0, widx := 4, job := 0, step, bound := some 6, sats := 2, nonzero := true, tile := 0 }] } }

theorem test_watch_reports : obs (exec (.watchReportMerge 0) (reported 5)) (fun t => ((mget WAcc.reset (getDie t 0).wacc 8).bound, (mget WAcc.reset (getDie t 0).wacc 8).sat, t.net.reports.length))
      = some (some 6, 2, 0)
    ∧ obs (exec (.watchReportMerge 0) (reported 4)) (fun t => ((getWatch t 4).lateCount, (getDie t 0).wacc.length)) = some (1, 0)
    ∧ (getJob (reported 5) 0).closing = none := by decide +kernel

/-- Entry 4 with an accumulator of bound b and n saturations. -/
def closing (b : Option Int) (n : Nat) : State :=
  { watchState 5 with
    dies := [(0, { Die.reset with st := .ready, watchReady := true, wacc := [(8, { reported := true, bound := b, sat := n, nonzero := true, lost := false })] })] }

theorem witness_close : closeSet (closing (some 10) 0) 0 5 = [4] ∧ watchNode entry4 = false ∧ watchFmt (entry4.cfg.toNat / 2 ^ 16 % 16) = some (8, true)
    ∧ (ownAcc (closing (some 10) 2) 4).sat = 2 ∧ dieMissing (closing (some 10) 2) 4 = true ∧ histMax ((entry4.history <<< 16) ||| 10) 1 = some 10 := by decide +kernel

/-- A bound of 10 for I8 (7 bits and a sign) gives exponent 3; a saturation gives at least one more than the 3 before. -/
theorem test_watch_close : let f (t : State) := ((getWatch t 4).openStep, (getWatch t 4).exp)
    obs (exec (.watchClose .port 0 5) (closing (some 10) 0)) f = some (6, 0x0303) ∧ obs (exec (.watchClose .port 0 5) (closing (some 10) 1)) f = some (6, 0x0403) := by
  decide +kernel

def closeBusy (time : Nat) (image : Option (List Byte)) : State :=
  { watchState 5 with
    mod := { base.mod with time := BitVec.ofNat 64 time }
    net := { base.net with peers := [(1, 0x80010000)] }
    jobs := [(0, { Job.reset with st := .paused, closing := some { step := 5, since := 0, entries := [] }, imageWait := image })] }

theorem test_close_waits : peersMissing (closeBusy 0 none) 0 5 ≠ []
    ∧ obs (exec (.watchClose .port 0 5) (closeBusy 0 none)) (fun t => (getJob t 0).regs.closeStatus) = some 4
    ∧ obs (exec (.watchPeerTimeout 0) (closeBusy 10000000 none)) (fun t => ((getJob t 0).closing, (getJob t 0).regs.closeStatus)) = some (none, 2)
    ∧ obs (exec (.watchPeerTimeout 0) (closeBusy 9999999 none)) (fun t => (getJob t 0).closing.isSome) = some true
    ∧ obs (exec (.watchImageWrite .port 0 [1]) (closeBusy 0 none)) (fun t => (getJob t 0).imageWait) = some (some [1]) := by decide +kernel

/-- A watch image of one entry record: entry 4 of job 0, I8, open step 7. -/
def image4 : List Byte := toLE 96 (7 * 2 ^ 704 + 0x80030000 * 2 ^ 288 + 0x0201 * 2 ^ 176 + 4 * 2 ^ 156)

theorem test_watch_image : imageSplit 0 image4 = some ([BitVec.ofNat 768 (leNat image4)], []) ∧ imageSplit 0 [1] = none
    ∧ obs (exec (.watchImageWrite .port 0 image4) base) (fun t => (t.status, (getWatch t 4).openStep, (getWatch t 4).exp, (getWatch t 4).cfg)) = some (0, 7, 0x0201, 0x80030000)
    ∧ obs (exec (.watchImageWrite .port 0 [1]) base) (fun t => t.status) = some stInvalid
    ∧ obs (exec (.watchImageWrite .port 0 image4) { base with jobs := [(0, { Job.reset with st := .active })] }) (fun t => t.status) = some stJobState := by decide +kernel

/-! ### Jobs -/

def jobState (st : JobSt) (c : CtxSt) : State :=
  { withTile { Tile.reset with ctx := [(0, { ctx0 with st := c })] } with jobs := [(0, { Job.reset with st })] }

theorem witness_job : mwf Tile.reset (jobState .paused .paused).tiles = true ∧ peerRound (jobState .paused .paused) 0 = false
    ∧ bitAt (getJob (jobState .paused .paused) 0).regs.saveSpad 63 = false ∧ storeBad (getTile (jobState .paused .paused) 0) 0 = false := by decide +kernel

theorem test_jobs : let j (t : State) := ((getJob t 0).st, (ctxOf t 0 0).st)
    let save : State := { jobState .paused .paused with
      dies := [(0, { Die.reset with st := .ready }), (2, { Die.reset with st := .ready })]
      hbmStacks := [(2, { Stack.reset with st := .ready })]
      jobs := [(0, { Job.reset with st := .paused, regs := { Job.reset.regs with save := 0x2F00000000 } })] }
    obs (exec (.jobResume .port 0) (jobState .paused .paused)) j = some (.active, .ready) ∧ obs (exec (.jobResume .port 0) (jobState .active .ready)) (fun t => t.status) = some stJobState
    ∧ obs (exec (.jobPause .port 0) (jobState .active .ready)) j = some (.paused, .paused) ∧ obs (exec (.jobPause .port 0) (jobState .active .running)) j = some (.pausing, .running)
    ∧ obs (exec (.jobUnload .port 0) (jobState .paused .paused)) (fun t => (t.status, j t)) = some (stInvalid, (.paused, .paused))
    ∧ obs (exec (.jobUnload .port 0) save) (fun t => (j t, (getJob t 0).saved.map fun v => v.ctx.pc)) = some ((.saved, .empty), [0x100])
    ∧ obs (exec (.jobDiscard .port 0) (jobState .paused .paused)) j = some (.unloaded, .empty)
    ∧ obs (exec (.jobLoad .port 0) (jobState .paused .paused)) (fun t => t.status) = some stJobState
    ∧ obs (exec (.jobLoad .port 0) (jobState .unloaded .empty)) (fun t => (t.status, (getJob t 0).regs.loadInfo)) = some (stLoadInvalid, 0xC2) := by decide +kernel

theorem test_reload : let v : SavedTile := { tile := 0, share := (0, 0), ctx := { ctx0 with st := .paused }, acnt := [], slots := [], hqs := [] }
    tileTakes base 0 = true
    ∧ obs (exec (.jobReload .port 0) { base with jobs := [(0, { Job.reset with st := .saved, frozen := true, saved := [v] })] })
        (fun t => ((getJob t 0).st, (getJob t 0).frozen, pcOf t, (ctxOf t 0 0).st)) = some (.paused, false, 0x100, .paused) := by decide +kernel

/-- An image of a HEADER for stepping 0x00A0, a START_PC of 0x40 for tile 1 and an END, in stack 2's part of the reserve. -/
def imageState : State :=
  let pa := 2 * 2 ^ 36 + 0xF00000000
  { base with
    dies := [(0, { Die.reset with st := .ready }), (2, { Die.reset with st := .ready })]
    hbmStacks := [(2, { Stack.reset with st := .ready })]
    jobs := [(0, { Job.reset with regs := { Job.reset.regs with image := BitVec.ofNat 64 pa } })]
    hbm := place pa 32 (1 * 2 ^ 248 + 16 * 2 ^ 176) ++ place (pa + 32) 16 (0x00A0 * 2 ^ 80 + 1 * 2 ^ 72) ++ place (pa + 64) 32 (8 * 2 ^ 248 + 1 * 2 ^ 232 + 4 * 2 ^ 208) }

theorem witness_load : let pa := (getJob imageState 0).regs.image.toNat
    let head (i : Nat) : BitVec 256 := BitVec.ofNat 256 (leNat (hbmBytes imageState (pa + 64 * i) 32))
    inReserveNs pa 192 = true ∧ stackUp imageState 2 = true ∧ recFormOk 0 (head 0) = true ∧ recKind (head 0) = 1 ∧ recLen (head 0) = 16
    ∧ headerRec imageState (hbmBytes imageState (pa + 32) 16) = none ∧ recFormOk 1 (head 1) = true ∧ recKind (head 1) = 8 ∧ recLen (head 1) = 0
    ∧ loadTileRefusal imageState (recTile (head 1)) = none ∧ recFormOk 2 (head 2) = true ∧ recKind (head 2) = 0 ∧ yieldOn (ctxOf imageState 1 0) = false
    ∧ inReserveNs 0 32 = false := by decide +kernel

theorem test_load : obs (exec (.jobLoad .port 0) imageState) (fun t => (t.status, (getJob t 0).st, (ctxOf t 1 0).st, (ctxOf t 1 0).pc)) = some (0, .paused, .paused, 0x40) := by
  decide +kernel

/-! ### Gatherings -/

/-- Tree 0 of job 0 with this module as its only member, and as a leaf of rank 1 below port 3. -/
def rootTree : W64 := 0x8000008000000000
def leafTree : W64 := BitVec.ofNat 64 (2 ^ 63 + 1 * 2 ^ 53 + 1 * 2 ^ 45 + 3 * 2 ^ 40)

theorem test_gather_trees : let s : State := { base with net := { base.net with ports := [(3, { Port.reset with cfg := 0x44104000 })] } }
    gtRank rootTree < gtSize rootTree ∧ gtRank leafTree < gtSize leafTree ∧ (∀ p ∈ gtPorts leafTree, p < 24 ∧ cfgRole (getPort s p) = 1)
    ∧ gtParent leafTree ∉ gtChildren leafTree ∧ gtRoot rootTree = true
    ∧ obs (exec (.gatherTreeWrite .port 0 leafTree) s) (fun t => (t.status, mget 0 t.gather.trees 0)) = some (0, leafTree)
    ∧ obs (exec (.gatherTreeWrite .port 0 (leafTree + 1 <<< 53)) s) (fun t => t.status) = some stInvalid
    ∧ obs (exec (.gatherTreeWrite .port 0 0) s) (fun t => t.status) = some stInvalid
    ∧ obs (exec (.gatherTreeWrite .port 0 0x8000000000) s) (fun t => t.status) = some 0 := by decide +kernel

/-- Entry 6 of the shard table, valid for job 0, shard 9, version 2. -/
def shardState (pins : W16) : State :=
  { base with gather := { base.gather with shards := [(6, { Shard.reset with valid := true, id := 9, version := 2, pins, len := 2048 })] } }

def g3 (t : State) := mget Shard.reset t.gather.shards 6

theorem test_shards : obs (exec (.shardEntryWrite .port 7 3 2049) base) (fun t => t.status) = some stInvalid
    ∧ obs (exec (.shardEntryWrite .port 7 3 4096) base) (fun t => (t.status, (mget Shard.reset t.gather.shards 7).len)) = some (0, 4096)
    ∧ obs (exec (.shardEntryWrite .port 7 1 5) base) (fun t => (mget Shard.reset t.gather.shards 7).version) = some 5
    ∧ obs (exec (.gatherPin .port 0 4 9 2) (shardState 0)) (fun t => (t.status, (g3 t).pins, t.gather.pins.length)) = some (0, 1, 1)
    ∧ obs (exec (.gatherPin .port 0 4 9 3) (shardState 0)) (fun t => (t.status, (g3 t).pins)) = some (cStaleShard, 0)
    ∧ obs (exec (.gatherRetire .port 0 4) { shardState 1 with gather := { (shardState 1).gather with pins := [⟨0, 4, 6⟩, ⟨0, 5, 6⟩] } })
        (fun t => ((g3 t).pins, t.gather.pins.length)) = some (0, 1) := by decide +kernel

def key5 : GKey := { job := 0, step := 5, id := 3, layout := 0 }

/-- A REDUCE of one block, all elements kept, from 0x10000 to 0x20000. -/
def gdesc : BitVec 1024 :=
  let no := 0xFFFFFFFFFFFFFFFF
  BitVec.ofNat 1024 (0x10000 * 2 ^ 960 + no * 2 ^ 896 + no * 2 ^ 832 + 0x20000 * 2 ^ 768 + no * 2 ^ 704 + no * 2 ^ 640 + 5 * 2 ^ 608 + 3 * 2 ^ 528 + 0xFFFF * 2 ^ 480
    + 256 * 2 ^ 440 + 1 * 2 ^ 415)

def postG (tree : W64) : State :=
  { mapped base with
    gather := { base.gather with trees := [(0, tree)] }
    jobs := [(0, { Job.reset with st := .active, regs := { Job.reset.regs with trnRoot := 0x8000000000200000, gatherPost := gdesc } })]
    hbm := place 0x50000 8 3 ++ (mapped base).hbm }

def openG : Gather := { gOpen (postG rootTree) gdesc with since := 0 }

def gState (g : Gather) (tree : W64) : State := { postG tree with gather := { (postG tree).gather with opened := [g] } }

theorem witness_gather : gPostStatus (postG rootTree) 0 gdesc = 0 ∧ (postG rootTree).net.heldG = [] ∧ getGath (gState openG rootTree) key5 = some openG
    ∧ openG.phase = .fit ∧ gdNone (gdEddyIn gdesc) = true ∧ gdBlocks gdesc = 1 ∧ gtRoot (gTree (gState openG rootTree) openG) = true
    ∧ gtRoot (gTree (gState openG leafTree) openG) = false ∧ gStale (gState openG rootTree) key5 0 = false ∧ gStale (gState { openG with attempt := 1 } rootTree) key5 0 = true
    ∧ gPostStatus (postG 0) 0 gdesc ≠ 0 := by decide +kernel

theorem test_gather_post : obs (exec (.gatherPost .port 0) (postG rootTree)) (fun t => (t.status, t.gather.opened.map (·.key))) = some (0, [key5])
    ∧ obs (exec (.gatherPost .port 0) (postG 0)) (fun t => (t.status, t.gather.opened.length)) = some (stGatherInvalid, 0) := by decide +kernel

theorem test_gather_pass : obs (exec (.gatherPassDone key5) (gState openG rootTree)) (fun t => t.gather.opened.map fun g => (g.phase, g.kept, g.rx))
    = some [(.expo, [0], [(24, .expo (-21) 1)])] := by decide +kernel

theorem test_coll_round : obs (exec (.collRound key5) (gState { openG with phase := .expo, rx := [(24, .expo (-21) 1)] } rootTree)) (fun t => t.gather.opened.map fun g => (g.phase, g.e))
      = some [(.data, some (-21))]
    ∧ roundReady (gState { openG with phase := .dataSum, rx := [(24, .data 0 [4, 5])] } leafTree) { openG with phase := .dataSum, rx := [(24, .data 0 [4, 5])] } (chunkVals true 0)
        = some [[4, 5]]
    ∧ obs (exec (.collRound key5) (gState { openG with phase := .dataSum, rx := [(24, .data 0 [4, 5])] } leafTree)) (fun t => t.gather.opened.map (·.rx)) = some [[]] := by
  decide +kernel

/-- A root with a child at port 4. -/
def parentTree : W64 := BitVec.ofNat 64 (2 ^ 63 + 1 * 2 ^ 45 + 2 ^ 39 + 2 ^ 19)

theorem test_gather_packets : gChildren (gState openG parentTree) openG = [4]
    ∧ obs (exec (.gatherPacketReceive key5 0 (some 4) (.score 0 [1])) (gState openG parentTree)) (fun t => t.gather.opened.map (·.rx)) = some [[(4, .score 0 [1])]]
    ∧ obs (exec (.gatherPacketReceive key5 0 (some 4) (.score 0 [1])) (postG parentTree)) (fun t => t.net.heldG.length) = some 1
    ∧ obs (exec (.gatherPacketReceive key5 0 (some 4) (.score 0 [1])) (gState { openG with attempt := 1 } parentTree)) (fun t => (t.gather.stale, t.gather.staleSum)) = some (1, 1) := by
  decide +kernel

theorem test_gather_ends : let n (t : State) := (t.gather.opened.length, t.gather.abandoned)
    obs (exec (.gatherAbandonReceive key5) (gState openG rootTree)) n = some (0, 1) ∧ obs (exec (.gatherAbort .port 0) (gState openG rootTree)) n = some (0, 1)
    ∧ obs (exec (.gatherAbandon .port 0 5 3) (gState openG rootTree)) n = some (0, 1) ∧ obs (exec (.gatherWithdrawReceive key5 4 true 0) (gState openG parentTree)) n = some (0, 1)
    ∧ obs (exec (.gatherRestartReceive key5 2 6) (gState openG leafTree)) (fun t => t.gather.opened.map fun g => (g.attempt, g.contrib, g.restarts)) = some [(2, 6, 1)]
    ∧ obs (exec (.gatherRestartReceive key5 0 6) (gState openG leafTree)) (fun t => t.gather.restarts) = some 0 := by decide +kernel

/-- With PARTIAL the root goes on without the child. -/
theorem test_gather_partial : let g : Gather := { openG with desc := gdesc ||| (1 <<< 419), contrib := 3 }
    gdPartial g.desc = true ∧ obs (exec (.gatherWithdrawReceive key5 4 true 0) (gState g parentTree)) (fun t => t.gather.opened.map fun g => (g.attempt, g.contrib, g.lostPorts))
      = some [(1, 2, [4])] := by decide +kernel

theorem test_gather_times : let s (cfg : W32) (time : Nat) : State :=
      { gState openG leafTree with mod := { base.mod with time := BitVec.ofNat 64 time }, gather := { (gState openG leafTree).gather with cfg } }
    let n (t : State) := t.gather.opened.length
    obs (exec (.gatherTimeout key5) (s 0x10000 1000001)) n = some 0 ∧ obs (exec (.gatherTimeout key5) (s 0x10000 1000000)) n = some 1
    ∧ obs (exec (.gatherTimeout key5) (s 0 1000001)) n = some 1 ∧ obs (exec (.treePortLost 3) (s 0 20000)) n = some 0 ∧ obs (exec (.treePortLost 3) (s 0 19999)) n = some 1
    ∧ obs (exec (.gatherDrain .port 0) (s 0 7)) (fun t => ((getJob t 0).postClosed, (getJob t 0).drainSince)) = some (true, some 7)
    ∧ obs (exec (.gatherResume .port 0) (s 0 7)) (fun t => (getJob t 0).postClosed) = some false
    ∧ obs (exec .gatherStaleSummary { s 0 7 with gather := { (s 0 7).gather with staleSum := 2 } }) (fun t => (t.gather.staleSum, t.gather.staleAt)) = some (0, some 7) := by
  decide +kernel

def draining (time : Nat) : State :=
  { gState openG leafTree with
    mod := { base.mod with time := BitVec.ofNat 64 time }, gather := { (gState openG leafTree).gather with cfg := 1 }
    jobs := [(0, { Job.reset with postClosed := true, drainSince := some 0 })] }

theorem test_gather_drain_limit : obs (exec (.gatherDrainLimitExpire 0) (draining 1000000)) (fun t => t.gather.opened.length) = some 0
    ∧ obs (exec (.gatherDrainLimitExpire 0) (draining 999999)) (fun t => t.gather.opened.length) = some 1 := by decide +kernel

theorem test_reshard : let r (t : State) := ((getJob t 0).regs.layoutEpoch, (getJob t 0).regs.layoutSt)
    let waits (time : Nat) : State := { gState openG leafTree with
      mod := { base.mod with time := BitVec.ofNat 64 time }, gather := { (gState openG leafTree).gather with cfg := 0x100 }
      jobs := [(0, { Job.reset with reshard := some (1, 0), regs := { Job.reset.regs with layoutSt := 1 } })]
      owed := [.reshard 0] }
    precedes (0 : W16) 1 = true ∧ obs (exec (.gatherReshard .port 0 1) (postG rootTree)) r = some (1, 0)
    ∧ obs (exec (.gatherReshard .port 0 0) (postG rootTree)) (fun t => t.status) = some stInvalid ∧ obs (exec (.gatherReshard .port 0 1) (gState openG rootTree)) r = some (0, 1)
    ∧ obs (exec (.gatherReshard .port 0 2) (waits 0)) (fun t => t.status) = some stBusy
    ∧ obs (exec (.reshardLimitExpire 0) (waits 1000000)) (fun t => (t.status, r t)) = some (stLayoutBusy, (0, 2)) ∧ obs (exec (.reshardLimitExpire 0) (waits 999999)) r = some (0, 1) := by
  decide +kernel

/-! ### Ports -/

def portState (p : Port) : State := { base with net := { base.net with ports := [(3, p)] } }

def upPort : Port := { Port.reset with cfg := 0x44104000, role := 1, st := .up, live := true, width := 8, usable := 0xFF, epoch := 5 }

def p3 (t : State) : Port := getPort t 3

theorem test_port_commands : let off : Port := { Port.reset with cfg := 0x44104000 }
    dieReady base (portDie 3) = true ∧ obs (exec (.portCfgWrite (.core 16) 3 0x44104000) (portState Port.reset)) (fun t => (t.status, (p3 t).cfg)) = some (0, 0x44104000)
    ∧ obs (exec (.portCfgWrite (.core 16) 3 0x40104000) (portState Port.reset)) (fun t => t.status) = some stInvalid
    ∧ obs (exec (.portCfgWrite (.core 0) 3 0x44104000) (portState Port.reset)) (fun t => (t.status, (p3 t).cfg)) = some (stWorld, 0x04104000)
    ∧ obs (exec (.portCfgWrite (.core 16) 3 0) (portState upPort)) (fun t => t.status) = some stCfgBusy
    ∧ obs (exec (.portStart .port 3) (portState off)) (fun t => (t.status, (p3 t).st, (p3 t).role)) = some (0, .training, 1)
    ∧ obs (exec (.portStart .port 3) (portState upPort)) (fun t => (p3 t).st) = some .up
    ∧ obs (exec (.portStart .port 3) { portState off with dies := [] }) (fun t => t.status) = some cDieLost := by decide +kernel

theorem test_port_stops : let busy : Port := { upPort with txq := [.ctrl (.liveness false)] }
    portKeys (portState upPort) 3 = [] ∧ obs (exec (.retrain .port 3) (portState upPort)) (fun t => ((p3 t).st, (p3 t).cnt.retrains)) = some (.retrain, 1)
    ∧ obs (exec (.stopDrain .port 3) (portState upPort)) (fun t => (p3 t).st) = some .off ∧ obs (exec (.stopDrain .port 3) (portState busy)) (fun t => (p3 t).st) = some .stopping
    ∧ obs (exec (.stopAbort .port 3) (portState busy)) (fun t => ((p3 t).st, (p3 t).txq.length)) = some (.off, 0)
    ∧ obs (exec (.trainingFrameReceive 3) (portState upPort)) (fun t => (p3 t).st) = some .retrain
    ∧ obs (exec (.laneLockLoss 3 7) (portState upPort)) (fun t => (p3 t).st) = some .retrain
    ∧ obs (exec (.laneLockLoss 3 4) (portState { upPort with width := 4, usable := 0x0F })) (fun t => (p3 t).st) = some .up := by decide +kernel

def found (good : Byte) (epoch : BitVec 8) : TrainResult := { good, theirs := 0xFF, epoch, slotId := 9, pport := 2, lastSeq := 0, linkReset := false }

theorem test_training : let p (n : Nat) (role : BitVec 2) : Port := { upPort with st := .training, role, attempts := n, width := 0 }
    obs (exec (.portTrainingDone 3 (found 0x7F 7)) (portState (p 0 1))) (fun t => ((p3 t).st, (p3 t).width, (p3 t).epoch, (p3 t).partner)) = some (.up, 4, 8, 0x80000902)
    ∧ obs (exec (.portTrainingDone 3 (found 0x7F 4)) (portState (p 0 1))) (fun t => (p3 t).epoch) = some 6
    ∧ obs (exec (.portTrainingDone 3 (found 0 7)) (portState (p 1 1))) (fun t => ((p3 t).st, (p3 t).attempts)) = some (.training, 2)
    ∧ obs (exec (.portTrainingDone 3 (found 0 7)) (portState (p 2 1))) (fun t => (p3 t).st) = some .down
    ∧ obs (exec (.portTrainingDone 3 (found 0xFF 0)) (portState (p 0 2))) (fun t => ((p3 t).st, (p3 t).width)) = some (.up, 8)
    ∧ obs (exec (.portTrainingDone 3 (found 0xFE 0)) (portState (p 0 2))) (fun t => (p3 t).st) = some .training
    ∧ obs (exec (.portTrainingDone 3 (found 0xFF 0)) (portState upPort)) (fun t => (p3 t).epoch) = some 5 := by decide +kernel

def flitOf (seq ack : BitVec 12) (ep : BitVec 8) : Flit := { noFlit 0 with seq, ack, sbEpoch := ep, crCount := 2 }

/-- One packet of sequence number 4 is not acknowledged. -/
def sentPort : Port := { upPort with replay := [{ seq := 4, pkt := .ctrl (.liveness false), idx := 0 }], credits := [(0, 6)], rxExp := 9 }

theorem test_flits : obs (exec (.tzFlitReceive 3 ⟨0, none⟩ (flitOf 9 3 5)) (portState sentPort)) (fun t => ((p3 t).rxExp, (p3 t).replay.length, mget 0 (p3 t).credits 0)) = some (10, 1, 4)
    ∧ obs (exec (.tzFlitReceive 3 ⟨0, none⟩ (flitOf 8 4 5)) (portState sentPort)) (fun t => ((p3 t).rxExp, (p3 t).replay.length)) = some (9, 0)
    ∧ obs (exec (.tzFlitReceive 3 ⟨2, some .crc⟩ (flitOf 9 3 5)) (portState sentPort)) (fun t => ((p3 t).rxExp, (p3 t).owesNak, (p3 t).cnt.crcErrors, (p3 t).cnt.fecCorrected)) = some (9, true, 1, 2)
    ∧ obs (exec (.tzFlitReceive 3 ⟨0, none⟩ (flitOf 9 3 6)) (portState sentPort)) (fun t => (p3 t).st) = some .retrain
    ∧ obs (exec (.tzFlitReceive 3 ⟨0, none⟩ (flitOf 9 3 5)) (portState Port.reset)) (fun t => (p3 t).rxExp) = some 0
    ∧ obs (exec (.tzAckTimer 3) (portState { sentPort with owesNak := true })) (fun t => (p3 t).owesNak) = some false := by decide +kernel

theorem test_replays : let s (ackAt : W64) (n : Nat) : State := portState { sentPort with ackAt, noAdv := n }
    obs (exec (.tzReplayTimeout 3) (s 4000 14)) (fun t => ((p3 t).cnt.replays, (p3 t).noAdv, (p3 t).st)) = some (1, 15, .up)
    ∧ obs (exec (.tzReplayTimeout 3) (s 4001 0)) (fun t => (p3 t).cnt.replays) = some 0
    ∧ obs (exec (.tzReplayTimeout 3) (s 4000 15)) (fun t => ((p3 t).st, (p3 t).cnt.retrains)) = some (.retrain, 1)
    ∧ obs (exec (.tzReplaySummary 3) (portState { upPort with replaySum := 3 })) (fun t => ((p3 t).replaySum, (p3 t).summaryAt)) = some (0, some 5000)
    ∧ obs (exec (.tzReplaySummary 3) (portState upPort)) (fun t => (p3 t).summaryAt) = some none := by decide +kernel

/-- Peer 1 on ports 3 and 3, last heard at 0. -/
def peerState (time : Nat) (p : Port) : State :=
  { base with
    mod := { base.mod with time := BitVec.ofNat 64 time, nodeCfg := 0x00280001 }
    net := { base.net with ports := [(3, p)], peers := [(1, 0x80000303)], peerSeen := [(1, 0)] } }

theorem test_peers : peerOfPort (peerState 0 upPort) 3 = some 1 ∧ l6Weirs (peerState 0 upPort) = [] ∧ peerGone (peerState 20000 upPort) 1 = true
    ∧ peerGone (peerState 19999 upPort) 1 = false ∧ jobs4.any (jobLive (peerState 0 upPort)) = false ∧ peersOk (peerState 0 upPort) 2 0x80000303 = true
    ∧ peersOk (peerState 0 upPort) 2 0x80000404 = false
    ∧ obs (exec (.ctrlMessageReceive 3 (.liveness false)) (peerState 7 upPort)) (fun t => t.net.peerSeen) = some [(1, 7)]
    ∧ obs (exec (.ctrlMessageReceive 3 (.weirArrive 1 7 0)) (peerState 7 upPort)) (fun t => (getL6 t 7).peersArrived) = some 2
    ∧ obs (exec (.peerLost 1) (peerState 20000 upPort)) (fun t => t.net.peerLost) = some 2 ∧ obs (exec (.peerLost 1) (peerState 19999 upPort)) (fun t => t.net.peerLost) = some 0
    ∧ obs (exec (.tzPeerWrite .port 2 0x80000303) (peerState 0 upPort)) (fun t => (t.status, peerReg t 2)) = some (0, 0x80000303)
    ∧ obs (exec (.tzPeerWrite .port 2 0x80000404) (peerState 0 upPort)) (fun t => t.status) = some stInvalid
    ∧ obs (exec (.tzPeerWrite .port 0 0) (peerState 0 upPort)) (fun t => t.status) = some stNoSub
    ∧ obs (exec (.tzPeerWrite .port 2 0) { peerState 0 upPort with tiles := core0.tiles }) (fun t => t.status) = some stCfgBusy := by decide +kernel

/-- A round for tile 1 at the bridge of port 3, begun at 0, with the peers of a mask in it. -/
def paddState (peers : BitVec 3) (time : Nat) : State :=
  { peerState time upPort with
    net := { (peerState time upPort).net with
      padds := [{ dest := 1, daddr := 0xC00, job := 0, bridge := 3, peers, acntEn := false, acnt := 0, sum := [0x01020304, 7], since := 0, src := 0 }] } }

theorem test_port_sums : (paddOf (paddState 1 0) 1 0xC00 0).isSome = true ∧ fld (paddState 1 0).mod.nodeCfg 0 3 = (1 : BitVec 3)
    ∧ diePath (paddState 1 0) (portDie 3) (posOf (paddState 1 0) 1).die = some [0]
    ∧ obs (exec (.portAddRound 1 0xC00 0) (paddState 1 0)) (fun t => (t.net.padds.length, t.net.blocks.map fun e => (e.2.kind, e.2.dest, e.2.payload)))
        = some (0, [(.put, 1, [4, 3, 2, 1, 7, 0, 0, 0])])
    ∧ obs (exec (.portAddRound 1 0xC00 0) (paddState 0 0)) (fun t => t.net.padds.length) = some 1
    ∧ obs (exec (.addLagExpire 1 0xC00 0) (paddState 0 5000)) (fun t => (t.net.padds.length, t.net.blocks.length)) = some (0, 0)
    ∧ obs (exec (.addLagExpire 1 0xC00 0) (paddState 0 4999)) (fun t => t.net.padds.length) = some 1 := by decide +kernel

/-! ### The stream lane -/

/-- PORT context 5 of die 0 for tile 0 and port 3, with the handle of slot 6 (64 bytes). -/
def laneState (handles : List W32) (port : Port) : State :=
  { base with
    tiles := [(0, { Tile.reset with slots := [(6, { Slot.reset with cfg := 0x8FFFFFFC00000040, st := .full, filled := 64 })], spad := [(0x1000, 0x5A)], hqs := [(2, { hq2 0 with handles })] })]
    dies := [(0, { Die.reset with st := .ready, stq := [(5, { Stq.reset with cfg := BitVec.ofNat 64 (2 ^ 63 + 2 * 2 ^ 59 + 3 * 2 ^ 35), st := .active, handles })] })]
    net := { base.net with ports := [(3, port)], lands := [(9, 0x80020000)] } }

theorem witness_port_stream : let s := laneState [0x00600000] upPort
    let q := getStq (getDie s 0) 5
    stqKind q = 2 ∧ stqPort q = 3 ∧ stqTile q = 0 ∧ tileTakes s 0 = true ∧ (popHandle 0 0x1005 0 0 65 s).2 = some (0x00600000, 0) ∧ secureTile s 0 = false
    ∧ slotBase (getSlot (getTile s 0) 6) = 0x1000 ∧ slotLen (getSlot (getTile s 0) 6) = 64 ∧ spadBad (getTile s 0) 0x1000 64 = false
    ∧ upPort.txq = [] ∧ upPort.replay = [] ∧ upPort.credits = [] := by decide +kernel

theorem test_port_stream : obs (exec (.portStreamSend 0 5) (laneState [0x00600000] upPort)) (fun t => (p3 t).replay.map fun e => match e.2 with
      | .stream u _ bs _ _ _ _ => (u, bs.length, bs.headD 0)
      | _ => (0, 0, 0)) = some [(5, 64, 0x5A)]
    ∧ obs (exec (.portStreamSend 0 5) (laneState [0x00600000] Port.reset)) (fun t => (getStq (getDie t 0) 5).handles.length) = some 1 := by decide +kernel

/-- Landing 9 of job 0 names handle queue 2 of tile 0. -/
theorem test_landing : let bytes : List Byte := List.replicate 64 3
    let empty (handles : List W32) : State :=
      { laneState handles upPort with tiles := [(0, { Tile.reset with slots := [(6, { Slot.reset with cfg := 0x8FFFFFFC00000040 })], hqs := [(2, { hq2 0 with handles })] })] }
    bitAt (landReg (empty []) 9) 31 = true ∧ fld (landReg (empty []) 9) 29 2 = (0 : BitVec 2)
    ∧ obs (exec (.landReceive 3 9 0 bytes) (empty [0x00600000])) (fun t => ((getTile t 0).spad.length, (p3 t).landing.length)) = some (64, 0)
    ∧ obs (exec (.landReceive 3 9 0 bytes) (empty [])) (fun t => ((getTile t 0).spad.length, (p3 t).landing.length)) = some (0, 1)
    ∧ obs (exec (.landReceive 3 9 1 bytes) (empty [0x00600000])) (fun t => ((getTile t 0).spad.length, (p3 t).landing.length)) = some (0, 0)
    ∧ obs (exec (.landReceive 3 8 0 bytes) (empty [0x00600000])) (fun t => (p3 t).landing.length) = some 0 := by decide +kernel

theorem test_land_timeout : let s (since : W64) : State :=
      { laneState [] { upPort with landing := [(9, 0, [3], since)] } with
        mod := { base.mod with time := 2000000 }
        dies := [(0, { Die.reset with st := .ready, stream := { Die.reset.stream with cfg := 0x00010000 } })] }
    parkLimit (getDie (s 0) 0) = 1000000 ∧ obs (exec (.landTimeout 3) (s 1000000)) (fun t => (p3 t).landing.length) = some 0
    ∧ obs (exec (.landTimeout 3) (s 1000001)) (fun t => (p3 t).landing.length) = some 1 := by decide +kernel

/-! ### The Ethernet role -/

def ethPort : Port := { upPort with role := 3, cfg := 0xC4104000, width := 4 }

def qpState (q : RoceQp) : State := { base with net := { base.net with ports := [(3, ethPort)], qps := [(7, q)] } }

/-- An RDMA READ request of queue pair 7 of 64 bytes from address 0x2000 to 0x10000. -/
def readWr : BitVec 256 := BitVec.ofNat 256 (0x10000 * 2 ^ 192 + 0x2000 * 2 ^ 128 + 0x400 * 2 ^ 96 + 64 * 2 ^ 64 + 7 * 2 ^ 20 + 2 ^ 17)

def q7 (t : State) : RoceQp := getQp t 7

theorem witness_request_posted : fldN readWr 0 17 = 0 ∧ wrQp readWr = 7 ∧ wrRead readWr = true ∧ wrLen readWr = 64 ∧ (wrLocal readWr).toNat % 64 = 0 ∧ fldN readWr 240 16 = 0
    ∧ ethUp (qpState RoceQp.reset) = true ∧ ethUp base = false ∧ ethLive (qpState RoceQp.reset) = true ∧ lineRate (qpState RoceQp.reset) = 800000 := by decide +kernel

theorem test_roce_post : obs (exec (.roceWrPost .port readWr) (qpState RoceQp.reset)) (fun t => t.status) = some 0
    ∧ obs (exec (.roceWrPost .port readWr) base) (fun t => t.status) = some stBusy
    ∧ obs (exec (.roceWrPost .port (readWr + 1)) (qpState RoceQp.reset)) (fun t => t.status) = some stInvalid
    ∧ obs (exec (.roceWrPost .port readWr) (qpState { RoceQp.reset with error := true })) (fun t => (q7 t).cpls.length) = some 1
    ∧ obs (exec (.roceWrPost .port readWr) (qpState { RoceQp.reset with begun := true, wrs := [readWr] })) (fun t => (q7 t).wrs.length) = some 2 := by decide +kernel

theorem test_roce_requests : let begun (n : Nat) : RoceQp := { RoceQp.reset with begun := true, wrs := [readWr], retries := n, txPsn := 1 }
    obs (exec (.roceRequestComplete 7) (qpState { begun 0 with acked := true })) (fun t => ((q7 t).wrs, (q7 t).cpls.length, (q7 t).begun)) = some ([], 1, false)
    ∧ obs (exec (.roceRetryTimeout 7) (qpState (begun 7))) (fun t => ((q7 t).error, (q7 t).wrs)) = some (true, [])
    ∧ obs (exec (.roceRetryTimeout 7) (qpState { begun 6 with acked := true })) (fun t => (q7 t).retries) = some 6 := by decide +kernel

/-- A CNP halves 800 Gbit/s; the rise of reset is 1,000, after 50 µs. -/
theorem test_roce_rates : obs (exec (.cnpReceive 7) (qpState RoceQp.reset)) (fun t => ((q7 t).rate, (q7 t).cnpAt)) = some (400000, some 5000)
    ∧ obs (exec (.cnpReceive 7) (qpState { RoceQp.reset with rate := 150 })) (fun t => (q7 t).rate) = some 100
    ∧ obs (exec (.roceRateRecovery 7) { qpState { RoceQp.reset with rate := 5, cnpAt := some 0 } with mod := { base.mod with time := 50000 } }) (fun t => (q7 t).rate) = some 1005
    ∧ obs (exec (.roceRateRecovery 7) { qpState { RoceQp.reset with rate := 5, cnpAt := some 0 } with mod := { base.mod with time := 49999 } }) (fun t => (q7 t).rate) = some 5
    ∧ obs (exec (.roceRateRecovery 7) { qpState { RoceQp.reset with rate := 799000, cnpAt := some 0 } with mod := { base.mod with time := 50000 } }) (fun t => ((q7 t).rate, (q7 t).cnpAt))
        = some (0, none) := by decide +kernel

theorem test_roce_packets : let writeWr : BitVec 256 := readWr &&& ~~~((1 : BitVec 256) <<< 17)
    let s := qpState { RoceQp.reset with begun := true, wrs := [writeWr] }
    wrRead writeWr = false ∧ obs (exec (.rocePacketReceive 3 false (.ack 7 0)) s) (fun t => (q7 t).acked) = some true
    ∧ obs (exec (.rocePacketReceive 3 false (.cnp 7)) s) (fun t => (q7 t).rate) = some 400000
    ∧ obs (exec (.rocePacketReceive 3 false (.nak 7 0 true)) s) (fun t => ((q7 t).error, (q7 t).wrs)) = some (true, [])
    ∧ obs (exec (.rocePacketReceive 3 false (.readReq 7 1 0 0 64)) s) (fun t => (q7 t).out) = some []
    ∧ mrAllows s 0 0 64 false = none
    ∧ obs (exec (.rocePacketReceive 4 false (.ack 7 0)) s) (fun t => (q7 t).acked) = some false := by decide +kernel

theorem test_regions_and_frames : let m (t : State) := getMr t 5
    obs (exec (.roceMrWrite .port 5 0 0x8000000000000001) base) (fun t => (t.status, (m t).reg)) = some (0, 0x8000000000000000)
    ∧ obs (exec (.roceMrWrite .port 5 1 0xFFFF000000000040) base) (fun t => (m t).base) = some 0x40
    ∧ obs (exec (.roceMrWrite .port 5 2 0x41) base) (fun t => t.status) = some stInvalid ∧ obs (exec (.roceMrWrite .port 5 3 0) base) (fun t => t.status) = some stNoSub
    ∧ obs (exec (.roceMrWrite .port 5 1 0) { base with net := { base.net with mrs := [(5, { RoceMr.reset with reg := 0x8000000000000000 })] } }) (fun t => t.status) = some stCfgBusy
    ∧ obs (exec (.priorityFlowControl 3 0x11 0x10) (portState ethPort)) (fun t => (p3 t).paused) = some 1
    ∧ obs (exec (.ethFrameReceive 3 true false (List.replicate 64 0)) (portState ethPort)) (fun t => t.net.ethRx.length) = some 1
    ∧ obs (exec (.ethFrameReceive 3 true false (List.replicate 63 0)) (portState ethPort)) (fun t => (t.net.ethRx.length, (p3 t).cnt.framesDropped)) = some (0, 1)
    ∧ obs (exec (.ethFrameReceive 3 true false (List.replicate 64 0)) (portState upPort)) (fun t => t.net.ethRx.length) = some 0 := by decide +kernel

/-! ### Dies, edges and clocks -/

def dieFound (bist : Bool) : DieFound :=
  { answers := true, straps := 0, placed := true, pll := true, mapOk := true, bist, badTiles := [], stackOk := true
    spares := [], edgesOk := 0xFFFF, pairs := [], ucieOk := true, took := 100 }

/-- Die 0 HELD, with die 2 READY beside die 1. -/
def heldState (heldAt : W64) (fails : BitVec 3) : State :=
  { base with
    mod := { base.mod with time := 10000000 }
    dies := [(0, { Die.reset with st := .held, cause := 1, heldAt, fails }), (1, { Die.reset with st := .ready }), (2, { Die.reset with st := .ready })]
    power := { base.power with rails := [(0, { (getRail base 0) with st := 2 }), (12, { (getRail base 0) with st := 2 })] } }

theorem witness_rejoin : rejoinMay (heldState 0 0) 0 = true ∧ rejoinOk (heldState 0 0) 0 (dieFound true) = true ∧ rejoinOk (heldState 0 0) 0 (dieFound false) = false
    ∧ (getDie (heldState 0 0) 0).cfg = 0xB0000064 ∧ (heldState 0 0).mod.st = .ready ∧ (getDie (heldState 0 0) 0).retired = false := by decide +kernel

theorem test_dies : let d (t : State) := ((getDie t 0).st, (getDie t 0).cause)
    obs (exec (.dieClockLoss 0) base) d = some (.held, 1) ∧ obs (exec (.heartbeatTimeout 0) base) d = some (.held, 1) ∧ obs (exec (.dieControlWatchdog 0) base) d = some (.held, 2)
    ∧ obs (exec (.dieClockLoss 1) base) (fun t => (getDie t 1).st) = some .absent ∧ obs (exec (.dieResetCmd (.core 16) 0) base) (fun t => (t.status, d t)) = some (0, .held, 5)
    ∧ obs (exec (.dieResetCmd (.core 16) 1) base) (fun t => t.status) = some stCfgBusy ∧ obs (exec (.dieResetCmd (.core 0) 0) base) (fun t => (t.status, d t)) = some (stWorld, .ready, 0) := by
  decide +kernel

/-- Die 0 JOINING since a time, with one attempt failed before. -/
def joiningState (bist : Bool) (since : W64) (fails : BitVec 3) : State :=
  let s := heldState 0 fails
  { s with dies := mset Die.reset s.dies 0 { getDie s 0 with st := .joining, join := some (dieFound bist, since) } }

/-- The rejoin delay of reset is 100 units of 100 µs. A rejoin whose steps take 100 ns ends with the cycle at which they have passed; of three attempts
that fail the last leaves the die FAILED. -/
theorem test_rejoins : let d (t : State) := ((getDie t 0).st, (getDie t 0).fails, (getDie t 0).rejoins)
    obs (exec (.rejoinDelayExpire 0 (dieFound true)) (heldState 0 1)) (fun t => (d t, (getDie t 0).join.map (·.2))) = some ((.joining, 1, 0), some 10000000)
    ∧ obs (exec (.rejoinDelayExpire 0 (dieFound true)) (heldState 1 0)) d = some (.held, 0, 0)
    ∧ obs (exec .referenceCycle (joiningState true 9999910 1)) d = some (.ready, 0, 1) ∧ obs (exec .referenceCycle (joiningState true 9999911 1)) d = some (.joining, 1, 0)
    ∧ obs (exec .referenceCycle (joiningState false 9999910 1)) d = some (.held, 2, 0) ∧ obs (exec .referenceCycle (joiningState false 9999910 2)) d = some (.failed, 3, 0)
:= by decide +kernel

theorem test_rejoin_commands : let d (t : State) := ((getDie t 0).st, (getDie t 0).fails, (getDie t 0).rejoins)
    obs (exec (.dieRejoinCmd (.core 16) 0 (dieFound true)) (heldState 1 2)) (fun t => (t.status, d t)) = some (0, .joining, 0, 0)
    ∧ obs (exec (.dieRejoinCmd (.core 16) 0 (dieFound true)) { heldState 1 2 with power := base.power }) (fun t => (t.status, d t, (getDie t 0).joinDue)) = some (0, (.held, 0, 0), true)
    ∧ obs (exec (.dieRejoinCmd (.core 16) 1 (dieFound true)) (heldState 1 0)) (fun t => t.status) = some stCfgBusy := by decide +kernel

/-- What the reference cycle asks of the states in which a rejoin ends. -/
theorem witness_joining : let s := joiningState true 9999910 1
    s.mod.resetN = true ∧ (jobs4.all fun j => decide ((getJob s j).st ≠ .unloading)) = true ∧ s.fw.handover = none ∧ s.dies.all (fun e => decide (e.1 = 0) || e.2.join.isNone) = true
    ∧ (getDie s 0).join = some (dieFound true, 9999910) ∧ rejoinOk s 0 (dieFound true) = true ∧ rejoinOk s 0 (dieFound false) = false := by decide +kernel

def edgeState (st : BitVec 2) (used : Nat) : State :=
  { base with
    dies := [(0, { Die.reset with st := .ready }), (1, { Die.reset with st := .ready })]
    net := { base.net with edges := [(0, { getEdge base 0 with st, used := [(5, used)] })] }
    mod := { base.mod with ucie := 3 } }

theorem test_edges : let e (t : State) := ((getEdge t 0).st, mget 0 (getEdge t 0).used 5)
    edgeEnds 0 = (0, 1) ∧ obs (exec (.d2dLinkLockLoss 0 5 true true) (edgeState 2 1)) e = some (2, 2) ∧ obs (exec (.d2dLinkLockLoss 0 5 true true) (edgeState 2 2)) e = some (0, 2)
    ∧ obs (exec (.d2dLinkLockLoss 0 5 false true) (edgeState 2 2)) (fun t => (e t, (getEdge t 0).retrained)) = some ((2, 2), 32)
    ∧ obs (exec (.d2dLinkLockLoss 0 5 false false) (edgeState 2 0)) (fun t => (getEdge t 0).st) = some 0
    ∧ obs (exec (.edgeRetrain (.core 16) 0 (some [5, 5])) (edgeState 0 0)) (fun t => (t.status, e t)) = some (0, 2, 2)
    ∧ obs (exec (.edgeRetrain (.core 16) 0 (some [5, 5, 5])) (edgeState 0 0)) (fun t => (t.status, e t)) = some (0, 0, 0)
    ∧ obs (exec (.edgeRetrain (.core 16) 0 (some [])) (edgeState 2 0)) (fun t => t.status) = some stCfgBusy
    ∧ obs (exec (.edgeRetrain (.core 16) 0 none) (edgeState 0 0)) (fun t => (t.status, (getEdge t 0).st)) = some (0, 0)
    ∧ obs (exec (.edgeRetrain (.core 0) 0 (some [])) (edgeState 0 0)) (fun t => t.status) = some stWorld
    ∧ bitAt (edgeState 0 0).mod.ucie 1 = true
    ∧ obs (exec .refLoss base) (fun t => (t.mod.st, t.mod.fatal)) = some (.failed, true) := by decide +kernel

theorem test_clocks : let s (n : Nat) (st : BitVec 2) : State :=
      { base with mod := { base.mod with time := 1000 }, halves := [(0, { Half.reset with map := [0], step := st, req := 1, limit := 2, changes := 1, lastChange := BitVec.ofNat 64 n, cycles := 100 })] }
    obs (exec (.clockStepChange 0 false) (s 0 0)) (fun t => ((getHalf t 0).step, (getHalf t 0).changes)) = some (2, 2)
    ∧ obs (exec (.clockStepChange 0 false) (s 1 0)) (fun t => (getHalf t 0).step) = some 0 ∧ obs (exec (.clockStepChange 0 false) (s 0 2)) (fun t => (getHalf t 0).changes) = some 1
    ∧ obs (exec .referenceCycle (s 0 0)) (fun t => (t.mod.time, (getHalf t 0).cycles)) = some (1010, 120)
    ∧ obs (exec .referenceCycle (s 0 1)) (fun t => (getHalf t 0).cycles) = some 110 ∧ obs (exec .referenceCycle (s 0 2)) (fun t => (getHalf t 0).cycles) = some 105
    ∧ mwf Half.reset (s 0 0).halves = true := by decide +kernel

/-- What start-up finds: every check passes, no compute die answers. -/
def goodStart : StartFound := { noStart with inRange := true, slotId := 9 }

def resetLow : State := { State.reset with power := { State.reset.power with vin := 3600 }, hbm := [(0, 1)] }

theorem test_module_reset : obs (exec .modResetFall { base with hbm := [(0, 1)], mod := { base.mod with fatal := true } }) (fun t => (t.mod.st, t.mod.time, t.hbm, t.dies.length))
      = some (.boot, 0, [], 0)
    ∧ obs (exec (.modResetRise goodStart) base) (fun t => t.mod.time) = some 5000
    ∧ obs (exec (.modResetRise { goodStart with inRange := false }) resetLow) (fun t => (t.mod.resetN, t.mod.st)) = some (true, .boot)
    ∧ obs (exec (.modResetRise { goodStart with katOk := false }) resetLow) (fun t => t.mod.st) = some .failed
    ∧ slotBoots resetLow goodStart false = true ∧ resetLow.mod.resetN = false ∧ resetLow.fw.slot = false ∧ resetLow.mod.autostart = false := by decide +kernel

theorem test_boot : obs (exec (.modResetRise goodStart) resetLow) (fun t => (t.mod.st, t.mod.slotId, t.fw.standby, t.regions.length)) = some (.standby, 9, 1, 4) := by decide +kernel

/-! ### Fences and records -/

def mergeState (time : Nat) (count : Nat) : State :=
  { base with
    mod := { base.mod with time := BitVec.ofNat 64 time }
    log := { base.log with wins := [{ first := { time := 0, info1 := 0, info0 := 0, source := 4, cause := 0x68, detail := 0, sev := 2, job := 0, jobValid := false, world := false
                                                 die := 0, unit := 1, merged := false, injected := false, seq := 0 }
                                      count, lastInfo0 := 77, since := 0 }] } }

theorem test_merges : fldN base.log.cfg 16 8 = 1
    ∧ obs (exec (.errMergeEnd 0x68 1 4 0) (mergeState 1000000 3)) (fun t => (t.log.wins.length, t.log.recs.map fun r => (r.merged, r.info0, r.info1))) = some (0, [(true, 3, 77)])
    ∧ obs (exec (.errMergeEnd 0x68 1 4 0) (mergeState 1000000 0)) (fun t => (t.log.wins.length, t.log.recs.length)) = some (0, 0)
    ∧ obs (exec (.errMergeEnd 0x68 1 4 0) (mergeState 999999 3)) (fun t => t.log.wins.length) = some 1
    ∧ obs (exec (.errMergeEnd 0x68 1 5 0) (mergeState 1000000 3)) (fun t => t.log.wins.length) = some 1 := by decide +kernel

theorem test_fences : obs (exec (.fenceTile (.core 16) 1) base) (fun t => (t.status, (getTile t 1).fenced, (getHalf t 0).flashFenced, (getHalf t 0).flashGen)) = some (0, true, [1], 1)
    ∧ obs (exec (.fenceTile (.core 16) 2) base) (fun t => t.status) = some stInvalid ∧ obs (exec (.fenceTile (.core 0) 1) base) (fun t => (t.status, (getTile t 1).fenced)) = some (stWorld, false)
    ∧ obs (exec (.fenceTile (.core 16) 1) { base with dies := [] }) (fun t => t.status) = some stCfgBusy
    ∧ obs (exec (.bypassRouter (.core 16) 1) base) (fun t => (t.status, (getHalf t 0).bypassed)) = some (0, [1]) ∧ bypassRefused (getHalf base 0) 1 = false
    ∧ obs (exec (.bypassRouter (.core 16) 1) { base with halves := [(0, { Half.reset with map := [0, 1], bypassed := [2] })] }) (fun t => ((getDie t 0).retired, (getDie t 0).st)) = some (true, .held)
    ∧ obs (exec (.bypassRouter (.core 16) 0) { base with halves := [(0, { Half.reset with map := [0, 1], bypassed := [0] })] }) (fun t => (t.status, (getHalf t 0).bypassed)) = some (0, [0])
    ∧ obs (exec (.bypassRouter (.core 0) 0) base) (fun t => t.status) = some stWorld := by decide +kernel

theorem test_checkers : obs (exec (.checkerSelftest none) base) (fun t => t.log.recs.length) = some 0 ∧ obs (exec (.checkerSelftest (some .island)) base) (fun t => t.mod.st) = some .failed
    ∧ obs (exec (.checkerSelftest (some (.tile 1))) base) (fun t => (getTile t 1).fenced) = some true
    ∧ obs (exec (.islandSramPatrol 7 1) base) (fun t => t.log.recs.length) = some 0 := by
  decide +kernel

theorem test_fatal_reset : let s (time : Nat) : State := { base with mod := { base.mod with fatal := true, fatalAt := 0, time := BitVec.ofNat 64 time }, log := { base.log with cfg := 0xE2010000 } }
    bitAt (s 0).log.cfg 29 = true ∧ obs (exec (.fatalResetExpire noStart) (s 1000000000)) (fun t => (t.mod.resetN, t.mod.fatal, t.mod.st)) = some (true, false, .boot)
    ∧ obs (exec (.fatalResetExpire noStart) (s 999999999)) (fun t => t.mod.fatal) = some true := by decide +kernel

/-! ### Firmware, injected faults, security, the test port -/

def fwState (standby : BitVec 2) (time : Nat) : State :=
  { base with
    mod := { base.mod with time := BitVec.ofNat 64 time }
    fw := { base.fw with standby, journal := 3 } }

theorem test_checkpoint : obs (exec .mgmtCheckpoint (fwState 1 1000000)) (fun t => (t.fw.journal, t.fw.checkpointAt)) = some (0, 1000000)
    ∧ obs (exec .mgmtCheckpoint (fwState 1 999999)) (fun t => t.fw.journal) = some 3 ∧ mgmtUp base = true
    ∧ obs (exec .mgmtCheckpoint State.reset) (fun t => t.fw.journal) = some 0 := by decide +kernel

theorem test_watchdogs : obs (exec .mgmtWatchdog (fwState 1 0)) (fun t => (t.fw.active, t.log.recs.length)) = some (true, 1)
    ∧ obs (exec .mgmtWatchdog (fwState 2 0)) (fun t => (t.fw.active, t.log.recs.length)) = some (false, 1)
    ∧ obs (exec .mgmtWatchdog (fwState 3 0)) (fun t => (t.fw.active, t.fw.slot, t.fw.markA)) = some (true, true, 2)
    ∧ obs (exec (.appWatchdog 15) base) (fun t => (t.fw.appReset, t.log.recs.length)) = some (0, 0)
    ∧ base.log.wins = [] ∧ base.log.recs = [] := by decide +kernel

theorem test_probation : obs (exec (.revert (.core 16)) (fwState 3 0)) (fun t => (t.status, t.fw.active, t.fw.standby)) = some (0, true, 1)
    ∧ obs (exec (.revert (.core 16)) (fwState 1 0)) (fun t => t.status) = some stCfgBusy ∧ obs (exec (.commit (.core 16)) (fwState 2 0)) (fun t => t.status) = some stCfgBusy
    ∧ obs (exec (.commit (.core 15)) (fwState 3 0)) (fun t => (t.status, t.fw.standby)) = some (stWorld, 3)
    ∧ obs (exec .probationEnd (fwState 3 59999999999)) (fun t => t.fw.standby) = some 3
    ∧ obs (exec .probationEnd (fwState 3 60000000000)) (fun t => (t.fw.standby, t.fw.markA, t.flash.slot)) = some (1, 0, some false)
    ∧ obs (exec (.commit (.core 16)) (fwState 3 0)) (fun t => (t.status, t.fw.standby, t.flash.slot)) = some (0, 1, some false) := by decide +kernel

def image0 : Image :=
  { typ := 2, mtype := 2, svn := 4, version := 0, keyIndex := 0, keyRevoke := false, manifest := [1], hash := Config.sha512 [2], payload := [2], keys := [3], sigs := [4] }

/-- The application cores run. -/
def appState : State := { base with fw := { base.fw with appImage := some image0 } }

theorem test_app_watchdog : appState.mod.resetN = true ∧ appState.fw.appImage.isSome = true
    ∧ obs (exec (.appWatchdog 15) appState) (fun t => (t.fw.appReset, t.log.recs.map fun r => (r.cause, r.source, r.sev))) = some (0x8000, [(0xEA, 15, 1)]) := by
  decide +kernel

/-- The verification of an image rests on values that no proof can see; where they agree, the handover's premises are met. -/
theorem witness_handover (sig : Config.sigOk image0.keys image0.manifest image0.sigs = true) (key : Config.sha512 image0.keys = Config.romKeyHash 0) :
    imageRefusal (fwState 1 0) image0 imgMgmt = none ∧ (fwState 1 0).fw.standby = 1 ∧ stagedImage (fwState 1 0).fw true imgMgmt = none := by
  refine ⟨imageRefusal_none sig rfl (by decide) (by decide) ?_, by decide, by decide⟩
  have k : image0.keyIndex = 0 := rfl
  rw [imageKeyOk, if_neg (by decide), k, decide_eq_true key]
  decide

/-- An image of another type is refused, whatever the verification of its signatures gives. -/
theorem witness_handover_refused : imageRefusal base { image0 with mtype := 1 } imgMgmt ≠ none := imageRefusal_type (by decide)

theorem test_injections : let at0 (t : State) := getTile t 0
    obs (exec (.spad1 (.core 16) 0 0 0x7FFFF) base) (fun t => (t.status, eccAt (at0 t).spadEcc 65535)) = some (0, some .single)
    ∧ obs (exec (.spad1 (.core 16) 0 0 8) (withTile { Tile.reset with spadEcc := [(1, .single)] })) (fun t => eccAt (at0 t).spadEcc 1) = some (some .double)
    ∧ obs (exec (.spad2 (.core 16) 0 0 8) base) (fun t => eccAt (at0 t).spadEcc 1) = some (some .double)
    ∧ obs (exec (.spad1 (.core 16) 0 0 0x80000) base) (fun t => (t.status, t.tiles.length)) = some (0, 0)
    ∧ obs (exec (.spad1 (.core 16) 7 0 0) base) (fun t => (t.status, t.tiles.length)) = some (0, 0)
    ∧ obs (exec (.spad1 (.core 2) 0 0 0) base) (fun t => (t.status, t.tiles.length)) = some (stWorld, 0)
    ∧ obs (exec (.residue (.core 16) 0) base) (fun t => (t.status, (at0 t).injResidue)) = some (0, true)
    ∧ obs (exec (.meshFlit (.core 16) 0 4) base) (fun t => (t.status, (at0 t).injFlit)) = some (0, [4])
    ∧ obs (exec (.meshFlit (.core 16) 0 5) base) (fun t => (t.status, (at0 t).injFlit)) = some (0, [])
    ∧ obs (exec (.weirCopy (.core 16) 0 4096) base) (fun t => t.status) = some 0 ∧ obs (exec (.weirCopy (.core 16) 0 4095) base) (fun t => t.status) = some 0
    ∧ obs (exec (.ctxStore2 (.core 16) 7) base) (fun t => (t.status, t.tiles.length)) = some (0, 0) := by decide +kernel

theorem test_injections_far : obs (exec (.hbmSymbol (.core 16) 0 0 64) base) (fun t => (t.status, blkSt (getStack t 0) 1)) = some (0, some .correctable)
    ∧ obs (exec (.hbmSymbol (.core 16) 0 1 64) base) (fun t => blkSt (getStack t 0) 1) = some (some .uncorrectable)
    ∧ obs (exec (.hbmSymbol (.core 16) 1 0 64) base) (fun t => (t.status, t.hbmStacks.length)) = some (0, 1)
    ∧ obs (exec (.d2dFlit (.core 16) 15) base) (fun t => (t.status, (getEdge t 15).injFlit)) = some (0, true)
    ∧ obs (exec (.d2dFlit (.core 16) 16) base) (fun t => (t.status, t.net.edges.length)) = some (0, 0)
    ∧ obs (exec (.tizalFlit (.core 16) 23) base) (fun t => (t.status, (getPort t 23).injFlit)) = some (0, true)
    ∧ obs (exec (.tizalFlit .port 23) base) (fun t => (t.status, (getPort t 23).injFlit)) = some (stWorld, false)
    ∧ obs (exec (.tizalFlit (.core 16) 24) base) (fun t => (t.status, t.net.ports.length)) = some (0, 0) := by decide +kernel

theorem test_regions : obs (exec (.regionWrite (.core 16) 63 (0x80000000000000000000000000000001 : BitVec 128)) base) (fun t => (t.status, mget 0 t.regions 63))
      = some (0, 0x80000000000000000000000000000001)
    ∧ obs (exec (.regionWrite (.core 0) 63 1) base) (fun t => (t.status, t.regions)) = some (stWorld, [])
    ∧ obs (exec (.regionWrite (.core 17) 0 1) { base with regions := bootRegions }) (fun t => (t.status, t.regions = bootRegions)) = some (stCfgBusy, True) := by
  refine ⟨by decide +kernel, by decide +kernel, ?_⟩
  simp [obs, exec, execRegionWrite, secureWrite, secureWriter, finish, writeRegion, setStatus, bootRegions, bitAt, mget]
  try decide

theorem test_app_commit : obs (exec (.appCommit (.core 16) 0) base) (fun t => t.status) = some stInvalid ∧ obs (exec (.appCommit (.core 16) 1) base) (fun t => (t.status, t.sec.svnApp)) = some (0, 0)
    ∧ obs (exec (.appCommit (.core 16) 1) { base with fw := { base.fw with appImage := some image0 } }) (fun t => (t.status, t.sec.svnApp)) = some (0, 4)
    ∧ obs (exec (.appCommit .port 1) base) (fun t => t.status) = some stWorld ∧ obs (exec (.store (.core 3)) base) (fun t => t.status) = some stWorld
    ∧ obs (exec (.store (.core 16)) base) (fun t => (t.status, t.flash.gen, t.flash.autostart)) = some (0, 1, some false)
    ∧ obs (exec (.restore (.core 16)) { base with flash := { base.flash with autostart := some true } }) (fun t => (t.status, t.flash.gen, t.flash.autostart)) = some (0, 1, none)
    ∧ obs (exec (.imageStage .port { image0 with typ := 0 }) base) (fun t => t.status) = some stNoSub ∧ obs (exec (.imageStage .port { image0 with typ := 5 }) base) (fun t => t.status) = some stNoSub
    ∧ obs (exec (.imageStage .port image0) (fwState 3 0)) (fun t => t.status) = some stCfgBusy
    ∧ obs (exec (.imageStage .port image0) (fwState 1 0)) (fun t => (t.status, t.fw.slotA.length, t.fw.slotB.length)) = some (0, 0, 1) := by decide +kernel

/-- The APP image that verifies, and one that does not. -/
theorem witness_app_image (sig : Config.sigOk image0.keys image0.manifest image0.sigs = true) :
    imageRefusal { base with sec := { base.sec with owner := some [3] } } { image0 with typ := 4, mtype := 4 } 4 = none :=
  imageRefusal_none sig rfl (by decide) (by decide) (by decide)

theorem witness_app_image_refused : imageRefusal base { image0 with typ := 4 } 4 ≠ none := imageRefusal_type (by decide)

theorem test_attestation : obs (exec (.attestNonceWrite 5) { base with sec := { base.sec with preparing := true } }) (fun t => t.status) = some stBusy
    ∧ obs (exec (.attestNonceWrite 5) base) (fun t => (t.status, t.sec.nonce, t.sec.preparing, t.sec.reportTime)) = some (0, 5, true, 5000)
    ∧ obs (exec .attestReportReady { base with sec := { base.sec with preparing := true } }) (fun t => t.sec.preparing) = some false := by decide +kernel

theorem test_jtag : obs (exec (.jtagBypass 0xFF) base) (fun t => t.jtag) = some { instr := 0, boundary := base.jtag.boundary, tdo := 0 }
    ∧ obs (exec .jtagIdcode base) (fun t => t.jtag.tdo) = some 0x01216E77 ∧ obs (exec (.jtagSamplePreload 7 9) base) (fun t => t.jtag) = some { instr := 2, boundary := 9, tdo := 7 }
    ∧ obs (exec .jtagExtest State.reset) (fun t => t.jtag.instr) = some 3 ∧ State.reset.mod.resetN = false
    ∧ obs (exec .jtagExtest { base with jtag := { instr := 2, boundary := 9, tdo := 7 } }) (fun t => t.jtag) = some { instr := 3, boundary := 9, tdo := 0 } := by decide +kernel

/-! ### Tokens -/

def token0 : Token :=
  { format := 1, kind := 1, device := Config.deviceDigest, nonce := 77, ownerGen := 3, count := 1, bodyLen := 16, rsvZero := true
    body := [4, 0, 0, 0, 0, 0, 3, 0x11, 0, 0, 1, 0xE2, 0, 0, 0, 0], sigs := [] }

def tokenState : State := { base with sec := { base.sec with owner := some [9], ownerGen := 3, challenge := some (77, 0) } }

theorem test_token_refused : obs (exec (.tokenWrite { token0 with format := 2 }) tokenState) (fun t => (t.status, t.sec.refusals, t.sec.challenge)) = some (cTokenRefused, [5000], some (77, 0))
    ∧ obs (exec (.tokenClaim token0) { tokenState with sec := { tokenState.sec with lockoutAt := some 4000 } }) (fun t => (t.status, t.sec.refusals.length, t.sec.owner)) = some (cTokenRefused, 1, some [9])
    ∧ obs (exec (.tokenRotate { token0 with kind := 9 }) tokenState) (fun t => t.sec.lastTokenStatus) = some cTokenRefused
    ∧ obs (exec (.tokenDecommission token0) tokenState) (fun t => (t.status, t.sec.owner)) = some (cTokenRefused, some [9]) := by decide +kernel

/-- Sixteen refusals within 60 s begin a lockout, not fifteen. -/
theorem test_lockout : let s (n : Nat) : State := { tokenState with sec := { tokenState.sec with refusals := List.replicate n 1 } }
    obs (exec (.tokenWrite { token0 with format := 2 }) (s 14)) (fun t => t.sec.lockoutAt) = some none
    ∧ obs (exec (.tokenWrite { token0 with format := 2 }) (s 15)) (fun t => t.sec.lockoutAt) = some (some 5000) := by decide +kernel

theorem token0_form : tokFormOk (ofKind 1 token0) = true ∧ tokGenOk tokenState (ofKind 1 token0) = true ∧ liveChallenge tokenState = some 77
    ∧ (tokItems 1 token0.body).map (fun l => l.map fun i => (i.index, i.sub, i.value)) = some [(0x1103, 0, [0, 0, 1, 0xE2])] := by decide +kernel

/-- The signatures of a token rest on a value that no proof can see; where it agrees, a WRITE token passes every check, and its one item is written. -/
theorem witness_token (sig : ∀ bs, Config.sigOk [9] bs [] = true) : tokenState.sec.lockoutAt = none ∧ tokRefusal tokenState (ofKind 1 token0) = none :=
  ⟨rfl, tokRefusal_none token0_form.1 rfl (.inr token0_form.2.2.1) token0_form.2.1 (sig _)⟩

def item0 : TokItem := { index := 0x1103, sub := 0, value := [0, 0, 1, 0xE2] }

theorem test_token_item : itemStatus tokenState item0 = 0 ∧ (putItem tokenState item0).log.cfg = 0xE2010000
    ∧ (match regAt 0x1103 0 with | .ok r => regScope r | .error _ => 9) = 0 ∧ (match regAt 0x7000 0 with | .ok r => regScope r | .error _ => 0) ≠ 0 := by decide +kernel

/-- A DECOMMISSION and a ROTATE token that pass every check. -/
theorem witness_token_kinds (sig : ∀ bs, Config.sigOk [9] bs [] = true) :
    tokRefusal tokenState (ofKind 4 { token0 with count := 0, bodyLen := 0, body := [] }) = none
    ∧ tokRefusal tokenState (ofKind 3 { token0 with count := 0, bodyLen := 1984, body := List.replicate 1984 0, ownerGen := 4 }) = none :=
  ⟨tokRefusal_none (by decide +kernel) rfl (.inr token0_form.2.2.1) (by decide +kernel) (sig _),
   tokRefusal_none (by decide +kernel) rfl (.inr token0_form.2.2.1) (by decide +kernel) (sig _)⟩

/-- A CLAIM token that passes every check: one of the root keys verifies it. -/
theorem witness_claim (ok : ∀ bs, Config.sigOk (Config.romKeys 0) bs [] = true) :
    tokRefusal { tokenState with sec := { tokenState.sec with owner := none } } (ofKind 2 { token0 with count := 0, bodyLen := 1984, body := List.replicate 1984 0, ownerGen := 4 })
      = none := by
  refine tokRefusal_none (by decide +kernel) rfl (.inl rfl) (by decide +kernel) ?_
  rw [tokSigOk, if_pos]
  · exact List.any_eq_true.mpr ⟨0, by decide, by rw [Bool.and_eq_true]; exact ⟨by decide, ok _⟩⟩
  · decide

theorem test_challenge_timers : let c (t : Nat) : State := { base with mod := { base.mod with time := BitVec.ofNat 64 t }, sec := { base.sec with challenge := some (7, 0), lockoutAt := some 0 } }
    obs (exec .challengeExpire (c 59999999999)) (fun t => t.sec.challenge) = some (some (7, 0)) ∧ obs (exec .challengeExpire (c 60000000000)) (fun t => t.sec.challenge) = some none
    ∧ obs (exec .lockoutEnd (c 59999999999)) (fun t => t.sec.lockoutAt) = some (some 0) ∧ obs (exec .lockoutEnd (c 60000000000)) (fun t => t.sec.lockoutAt) = some none
    ∧ obs (exec .challengeRead base) (fun t => (t.status, t.sec.challenge.isSome)) = some (0, true) ∧ obs (exec .challengeExpire base) (fun t => t.sec.challenge) = some none := by
  decide +kernel

/-! ### The management port -/

def src0 : DdpSource := { addr := 0xFE800000000000000000000000000001, port := 40000 }

/-- A request for entry index and sub, number inst, of SEQ 5. -/
def ddp (index : W16) (sub : BitVec 8) (inst : W16) (offset : W32) : DdpReq := { src := src0, seq := 5, index, sub, inst, offset }

/-- The module on its segment, with what the port holds; stack 2 has a slice of the working store. -/
def mgmtState (g : Mgmt) : State :=
  { base with
    mgmt := { g with addrOk := true }
    dies := [(0, { Die.reset with st := .ready, watchReady := true }), (2, { Die.reset with st := .ready })]
    hbmStacks := [(0, { Stack.reset with st := .ready }), (2, { Stack.reset with st := .ready })] }

/-- The last message queued: op, status, offset and value. -/
def isMsg (op st : Byte) (offset : W32) (v : List Byte) (t : State) : Bool :=
  t.mgmt.outQueue.getLast?.any fun m => decide (m.op = op ∧ m.status = st ∧ m.offset = offset ∧ m.value = v)

theorem test_port_serves : portServes (mgmtState Mgmt.reset) = true ∧ portServes State.reset = false ∧ (mgmtState Mgmt.reset).mgmt.waiting = []
    ∧ keptFor (mgmtState Mgmt.reset) (ddp 0x1103 0 0 0) = none
    ∧ obs (exec (.ddpRead (ddp 0x1103 0 0 0)) State.reset) (fun t => t.mgmt.outQueue.length) = some 0 := by decide +kernel

theorem test_requests : let s := mgmtState Mgmt.reset
    obs (exec (.ddpRead (ddp 0x1103 0 0 0)) s) (isMsg 0x81 0 0 [0, 0, 1, 0xC2]) = some true
    ∧ obs (exec (.ddpRead (ddp 0x1106 0 0 0)) s) (isMsg 0x81 stNoObject 0 []) = some true ∧ obs (exec (.ddpRead (ddp 0x1103 1 0 0)) s) (isMsg 0x81 stNoSub 0 []) = some true
    ∧ obs (exec (.ddpRead (ddp 0x1103 0 1 0)) s) (isMsg 0x81 stNoObject 0 []) = some true ∧ obs (exec (.ddpWrite (ddp 0x1103 0 0 0) [0, 0, 1, 0xC2]) s) (isMsg 0x82 stWorld 0 []) = some true
    ∧ obs (exec (.ddpWrite (ddp 0x4021 0 255 0) [2, 0, 0, 0]) s) (fun t => (isMsg 0x82 0 0 [] t, landReg t 255, t.fw.journal, t.mgmt.requests)) = some (true, 2, 1, 1)
:= by decide +kernel

theorem test_requests_limits : let s := mgmtState Mgmt.reset
    obs (exec (.ddpWrite (ddp 0x4021 0 256 0) [2, 0, 0, 0]) s) (isMsg 0x82 stNoObject 0 []) = some true
    ∧ obs (exec (.ddpWrite (ddp 0x4021 0 0 0) [2, 0, 0]) s) (isMsg 0x82 stLength 0 []) = some true
    ∧ obs (exec (.describe (ddp 0x4021 0 255 0)) s) (fun t => t.mgmt.outQueue.map fun m => (m.op, m.value.length)) = some [(0x83, 8)]
    ∧ obs (exec (.describe (ddp 0x4021 0 256 0)) s) (isMsg 0x83 stNoObject 0 []) = some true
    ∧ obs (exec (.discover (ddp 0 0 0 0)) s) (fun t => t.mgmt.outQueue.map fun m => (m.op, m.status)) = some [(0x89, 0)] := by decide +kernel

/-- A repeat is answered with the kept response, up to 4 s. -/
theorem test_repeats : let m : DdpMsg := { op := 0x82, status := 3, index := 1, sub := 2, inst := 3, seq := 5, offset := 0, value := [], dest := src0 }
    let s (at_ : W64) (now : W64) : State := { mgmtState { Mgmt.reset with cache := [(src0, m, at_)] } with mod := { base.mod with time := now } }
    keptFor (s 0 3999999999) (ddp 0x1103 0 0 0) = some m ∧ keptFor (s 0 4000000000) (ddp 0x1103 0 0 0) = none
    ∧ obs (exec (.ddpRead (ddp 0x1103 0 0 0)) (s 0 3999999999)) (fun t => (t.mgmt.outQueue, t.mgmt.repeats, t.mgmt.requests)) = some ([m], 1, 0)
    ∧ obs (exec .responseCacheExpire (s 0 3999999999)) (fun t => t.mgmt.cache.length) = some 1 ∧ obs (exec .responseCacheExpire (s 0 4000000000)) (fun t => t.mgmt.cache.length) = some 0 := by
  decide +kernel

def seg0 (snap : Bool) (parts : SMap (List Byte)) : SegXfer := { index := 0x1201, sub := 4, inst := 0, snap, size := 1026, parts, lastAt := 0 }

/-- A write of 1,026 bytes in two segments. -/
theorem test_segments : let s := mgmtState Mgmt.reset
    let o (segs : List SegXfer) := mgmtState { Mgmt.reset with segs }
    obs (exec (.segWriteStart (ddp 0x1201 4 0 0) 1026) s) (fun t => (isMsg 0x85 0 0 [] t, segOf t (ddp 0x1201 4 0 0))) = some (true, some { seg0 false [] with lastAt := 5000 })
    ∧ obs (exec (.segWriteStart (ddp 0x1201 1 0 0) 0x06000001) s) (isMsg 0x85 stLength 0 []) = some true
    ∧ obs (exec (.segWriteStart (ddp 0x1103 0 0 0) 4) s) (isMsg 0x85 stAccess 0 []) = some true
    ∧ obs (exec (.segWrite (ddp 0x1201 4 0 1024) [7, 8]) (o [seg0 false [(0, [1])]])) (fun t => (isMsg 0x86 0 1024 [] t, (segOf t (ddp 0x1201 4 0 0)).map fun x => x.parts))
      = some (true, some [(0, [1]), (1024, [7, 8])])
:= by decide +kernel

theorem test_segments_refused : let o (segs : List SegXfer) : State := mgmtState { Mgmt.reset with segs }
    obs (exec (.segWrite (ddp 0x1201 4 0 1024) [7]) (o [seg0 false []])) (isMsg 0x86 stSegment 1024 []) = some true
    ∧ obs (exec (.segWrite (ddp 0x1201 4 0 2048) []) (o [seg0 false []])) (isMsg 0x86 stSegment 2048 []) = some true
    ∧ obs (exec (.segWrite (ddp 0x1201 4 0 1) [7]) (o [seg0 false []])) (isMsg 0x86 stSegment 1 []) = some true
    ∧ obs (exec (.segWriteEnd (ddp 0x1201 4 0 0) 0) (o [seg0 false [(1024, [7, 8])]])) (isMsg 0x87 stSegment 0 []) = some true
    ∧ obs (exec (.segAbort (ddp 0x1201 4 0 0)) (o [seg0 false []])) (fun t => (isMsg 0x88 0 0 [] t, t.mgmt.segs.length)) = some (true, 0)
    ∧ obs (exec (.segAbort (ddp 0x1201 4 0 0)) (o [])) (isMsg 0x88 stSegment 0 []) = some true := by decide +kernel

/-- A read of a domain: the retired frames of a stack, from one snapshot; a transfer whose end has another check value. -/
theorem test_segment_reads : let s := mgmtState Mgmt.reset
    obs (exec (.segRead (ddp 0x3040 6 0 0) 1024) s) (fun t => (t.mgmt.outQueue.map (fun m => (m.op, m.status)), t.mgmt.segs.map fun x => x.snap)) = some ([(0x84, 0)], [true])
    ∧ obs (exec (.segRead (ddp 0x3040 6 0 0) 1025) s) (isMsg 0x84 stLength 0 []) = some true
    ∧ obs (exec (.segRead (ddp 0x1103 0 0 0) 4) s) (isMsg 0x84 stAccess 0 []) = some true
    ∧ obs (exec (.segRead (ddp 0x3040 6 0 2) 2) (mgmtState { Mgmt.reset with segs := [{ seg0 true [(0, [1, 2, 3, 4, 5])] with index := 0x3040, sub := 6 }] })) (isMsg 0x84 0 2 [3, 4]) = some true
:= by decide +kernel

/-- A transfer of 2 bytes to the load of a weir. -/
def smallSeg : SegXfer := { index := 0x7101, sub := 0, inst := 3, snap := false, size := 2, parts := [(0, [1, 2])], lastAt := 0 }

theorem test_segment_ends : crc32 [1, 2] ≠ 0 ∧ assemble 2 [(0, [1, 2])] = some [1, 2]
    ∧ obs (exec (.segWriteEnd (ddp 0x7101 0 3 0) 0) (mgmtState { Mgmt.reset with segs := [smallSeg] })) (fun t => (isMsg 0x87 stSegment 0 [] t, t.mgmt.segs.length)) = some (true, 0)
    ∧ obs (exec (.segWriteEnd (ddp 0x7101 0 3 0) (crc32 [1, 2])) (mgmtState { Mgmt.reset with segs := [smallSeg] })) (fun t => (isMsg 0x87 stLength 0 [] t, t.mgmt.segs.length)) = some (true, 0) := by decide +kernel

/-! ### Timers of the port -/

def late (g : Mgmt) (time : Nat) : State := { mgmtState g with mod := { base.mod with time := BitVec.ofNat 64 time } }

theorem test_segment_timers : let g := { Mgmt.reset with segs := [seg0 false [], { seg0 true [] with sub := 3 }] }
    obs (exec (.segTransferTimeout 0x1201 4 0) (late g 10000000000)) (fun t => t.mgmt.segs.length) = some 1 ∧ obs (exec (.segTransferTimeout 0x1201 4 0) (late g 9999999999)) (fun t => t.mgmt.segs.length) = some 2
    ∧ obs (exec (.segTransferTimeout 0x1201 3 0) (late g 10000000000)) (fun t => t.mgmt.segs.length) = some 2 ∧ obs (exec (.snapshotExpire 0x1201 3 0) (late g 10000000000)) (fun t => t.mgmt.segs.length) = some 1 := by
  decide +kernel

def msg0 (n : W16) : DdpMsg := { op := 0x81, status := 0, index := 1, sub := 2, inst := 3, seq := n, offset := 0, value := [], dest := src0 }

/-- A write of WATCH image 0 that a close of its job holds up. -/
def waiting0 : WaitReq := { req := ddp 0x2003 0 0 0, op := 2, bytes := [], started := true, pendAt := 0 }

theorem test_port_timers : let s := late { Mgmt.reset with outQueue := [msg0 1, msg0 2] } 4000000
    obs (exec .transmitOpportunity s) (fun t => (t.mgmt.outQueue, t.mgmt.sent)) = some ([msg0 2], [msg0 1])
    ∧ obs (exec .transmitOpportunity (late Mgmt.reset 0)) (fun t => t.mgmt.sent) = some []
    ∧ obs (exec .plcaBeacon s) (fun t => (t.mgmt.plca, t.mgmt.lastBeacon)) = some (true, 4000000)
    ∧ obs (exec .plcaBeaconTimeout (late { Mgmt.reset with plca := true } 4000000)) (fun t => t.mgmt.plca) = some false
    ∧ obs (exec .plcaBeaconTimeout (late { Mgmt.reset with plca := true } 3999999)) (fun t => t.mgmt.plca) = some true
    ∧ obs (exec (.dadRepeat false) { late Mgmt.reset 10000000000 with mgmt := { Mgmt.reset with addrOk := false } }) (fun t => (t.mgmt.addrOk, t.mgmt.dadAt)) = some (true, 10000000000)
    ∧ obs (exec (.dadRepeat true) { late Mgmt.reset 10000000000 with mgmt := { Mgmt.reset with addrOk := false } }) (fun t => (t.mgmt.addrOk, t.log.recs.map fun r => r.cause)) = some (false, [0x9F])
    ∧ obs (exec (.dadRepeat false) (late Mgmt.reset 10000000000)) (fun t => t.mgmt.dadAt) = some Mgmt.reset.dadAt
    ∧ obs (exec (.droppedDatagram 3) s) (fun t => t.mgmt.dropped) = some 1 ∧ obs (exec .pendingTimer s) (fun t => t.mgmt.outQueue.length) = some 2
    ∧ obs (exec (.icmpv6Receive (.echo 9 [1, 2])) s) (fun t => t.mgmt.icmpOut) = some [(9, [129, 0, 1, 2])] ∧ obs (exec (.icmpv6Receive .routerAdvert) s) (fun t => t.mgmt.icmpOut) = some []
    ∧ obs (exec (.icmpv6Receive (.neighbourSolicit 9 1)) s) (fun t => t.mgmt.icmpOut) = some [] ∧ (9 : BitVec 128) ≠ ownAddr s := by decide +kernel

/-- PENDING goes to a write under way, 20 ms after the last one. -/
theorem test_pending : let s (time : Nat) : State := { late { Mgmt.reset with waiting := [waiting0] } time with mod := { base.mod with time := BitVec.ofNat 64 time, invalWait := [0] } }
    (match regAt 0x2003 0 with | .ok e => lateBusy (s 0) e | .error _ => false) = true
    ∧ obs (exec .pendingTimer (s 20000000)) (fun t => (t.mgmt.outQueue.map (fun m => m.op), t.mgmt.waiting.map fun q => q.pendAt)) = some ([0x7F], [20000000])
    ∧ obs (exec .pendingTimer (s 19999999)) (fun t => t.mgmt.outQueue.length) = some 0 := by decide +kernel

def event0 (sends : Nat) : Event := { seq := 4, kind := 0, obj := 0, body := [], sev := 0, sends, sentAt := 0 }

theorem test_events : let s (n time : Nat) := late { Mgmt.reset with unacked := [event0 n] } time
    obs (exec (.eventAck 4) (s 1 0)) (fun t => t.mgmt.unacked) = some [] ∧ obs (exec (.eventAck 5) (s 1 0)) (fun t => t.mgmt.unacked.length) = some 1
    ∧ obs (exec (.eventResend 4) (s 1 9999999)) (fun t => t.mgmt.unacked) = some [event0 1] ∧ obs (exec (.eventResend 5) (s 1 10000000)) (fun t => t.mgmt.unacked) = some [event0 1]
    ∧ obs (exec (.eventResend 4) (s 3 10000000)) (fun t => (t.mgmt.unacked, t.mgmt.outQueue.length)) = some ([{ event0 4 with sentAt := 10000000 }], 1)
    ∧ obs (exec (.eventResend 4) (s 4 10000000)) (fun t => (t.mgmt.unacked, t.mgmt.eventsLost)) = some ([], 1) := by decide +kernel

/-! ### The window -/

/-- A window address: entry, number and word. -/
def wa (inst index sub word : Nat) : BitVec 46 := BitVec.ofNat 46 (inst * 2 ^ 30 + index * 2 ^ 14 + sub * 2 ^ 6 + word * 8)

theorem test_window : coresRun base = true ∧ coresRun State.reset = false ∧ (getWin base 0).waits = []
    ∧ obs (exec (.windowLoad 0 (wa 0 0x1103 0 0)) base) (fun t => (getWin t 0).loaded) = some 0xC2010000
    ∧ obs (exec (.windowLoad 0 (wa 0 0x1103 0 1)) { base with win := [(0, { WinCore.reset with caps := [(waSlot (wa 0 0x1103 0 0), [0, 0, 0, 0, 0, 0, 0, 0, 6])] })] }) (fun t => (getWin t 0).loaded) = some 6
    ∧ obs (exec (.windowLoad 0 (wa 0 0x1103 0 0)) State.reset) (fun t => t.win.length) = some 0
    ∧ obs (exec (.windowStoreStage 17 (wa 0 0x1216 5 1) 8) base) (fun t => ((getWin t 17).stage, (getWin t 17).done)) = some ([(1, 8)], 0)
    ∧ obs (exec (.windowStoreStage 17 (wa 0 0x1216 5 0) 8) base) (fun t => t.win.length) = some 0
    ∧ obs (exec (.windowStoreCommit 17 (wa 0 0x1216 5 1) 8) base) (fun t => t.win.length) = some 0
    ∧ obs (exec (.windowStoreStage 0 (wa 0 0x1201 1 1) 8) base) (fun t => (t.status, (getWin t 0).last)) = some (stAccess, stAccess) := by decide +kernel

theorem test_window_stores : obs (exec (.windowStoreCommit 16 (wa 0 0x1103 0 0) 0xE2010000) base) (fun t => (t.log.cfg, (getWin t 16).done, (getWin t 16).last)) = some (0xE2010000, 1, 0)
    ∧ obs (exec (.windowStoreCommit 15 (wa 0 0x1103 0 0) 0xE2010000) base) (fun t => (t.log.cfg, (getWin t 15).last, (getWin t 15).first)) = some (0xC2010000, stWorld, stWorld)
    ∧ obs (exec (.windowStoreCommit 16 (wa 0 0x1108 0 0) 0) base) (fun t => (getWin t 16).last) = some stNoObject
    ∧ obs (exec (.windowStoreCommit 16 (wa 0 0x1201 1 0) 0) base) (fun t => (getWin t 16).last) = some stAccess
    ∧ obs (exec (.windowStoreCommit 17 (wa 0 0x1216 5 0) 3) { base with win := [(17, { WinCore.reset with stage := [(1, 0x8000000000000000)], stageSlot := waSlot (wa 0 0x1216 5 0) })] })
      (fun t => (mget 0 t.regions 5, (getWin t 17).stage)) = some (0x80000000000000000000000000000003, []) := by decide +kernel

/-- WIN.DOMAIN for the 4 bytes of ERR.CFG at offset 0, from a buffer. -/
def wd (buf : Nat) : BitVec 256 := BitVec.ofNat 256 (buf * 2 ^ 192 + 4 * 2 ^ 160 + 0x1103 * 2 ^ 32)

def reserve0 : Nat := 0xFC0000000

theorem test_window_moves : bufferOk 16 (wdBuf (wd reserve0)) (wdLen (wd reserve0)) = reserveStack 0
    ∧ obs (exec (.winDomainRead 16 (wd 0xFC0000001)) base) (fun t => (getWin t 16).last) = some stInvalid
    ∧ obs (exec (.winDomainWrite 16 (wd 0x1000)) base) (fun t => (getWin t 16).last) = some stWorld := by decide +kernel

/-! ### Register writes -/

theorem test_register_writes : obs (exec (.registerWrite (.core 16) 0x1103 0 0 0xE2010001) base) (fun t => (t.status, t.log.cfg)) = some (0, 0xE2010000)
    ∧ obs (exec (.registerWrite .port 0x1103 0 0 0xE2010001) base) (fun t => (t.status, t.log.cfg)) = some (stWorld, 0xC2010000)
    ∧ obs (exec (.registerWrite (.core 16) 0x1100 0 0 0) base) (fun t => t.status) = some stAccess ∧ obs (exec (.registerWrite (.core 16) 0x1FFF 0 0 0) base) (fun t => t.status) = some stNoObject
    ∧ obs (exec (.registerWrite (.core 16) 0x4020 0 1 0) base) (fun t => t.status) = some stNoSub
    ∧ obs (exec (.registerWrite (.core 3) 0x4021 0 255 2) base) (fun t => (t.status, landReg t 255, landReg t 254)) = some (0, 2, landReg base 254) := by decide +kernel

/-! ### Power and temperature -/

def powerOf (st : BitVec 3) (vin : W16) (m : ModSt) : State := { base with power := { base.power with st, vin }, mod := { base.mod with st := m } }

theorem test_power_start : obs (exec (.powerStart .port noStart) (powerOf 1 3199 .standby)) (fun t => (t.status, t.mod.st, t.power.st, t.power.paused)) = some (0, .ramp, 2, true)
    ∧ obs (exec (.powerStart .port { noStart with refOk := false }) (powerOf 1 3200 .standby)) (fun t => (t.status, t.mod.st)) = some (0, .failed)
    ∧ obs (exec (.powerStart .port noStart) (powerOf 3 3200 .ready)) (fun t => (t.status, t.mod.st)) = some (0, .ready) := by decide +kernel

theorem test_power_standby : obs (exec (.powerStandby .port) (powerOf 3 3600 .ready)) (fun t => (t.status, t.mod.st, t.power.st, (getDie t 0).st, t.hbm.length)) = some (0, .standby, 1, .held, 0)
    ∧ obs (exec (.powerStandby .port) (powerOf 1 3600 .standby)) (fun t => (t.status, (getDie t 0).st)) = some (0, .ready)
    ∧ obs (exec (.powerStandby .port) { powerOf 3 3600 .ready with jobs := [(2, { Job.reset with st := .paused })] }) (fun t => t.status) = some stCfgBusy := by decide +kernel

theorem test_power_registers : obs (exec (.powerCfgWrite .port 0x550BE3FF) base) (fun t => (t.status, t.power.cfg)) = some (0, 0x550BE200)
    ∧ obs (exec (.powerCfgWrite .port (at' 32 21 (681 : BitVec 11) ||| at' 32 10 (760 : BitVec 11))) base) (fun t => t.status) = some stInvalid
    ∧ obs (exec (.powerCfgWrite .port (at' 32 21 (680 : BitVec 11) ||| at' 32 10 (679 : BitVec 11))) base) (fun t => t.status) = some stInvalid
    ∧ obs (exec (.powerCfgWrite .port (at' 32 21 (100 : BitVec 11) ||| at' 32 10 (100 : BitVec 11))) base) (fun t => t.status) = some 0
    ∧ obs (exec (.powerCfgWrite .port (at' 32 21 (99 : BitVec 11) ||| at' 32 10 (100 : BitVec 11))) base) (fun t => t.status) = some stInvalid
    ∧ obs (exec (.powerCfgWrite .port (at' 32 21 (680 : BitVec 11) ||| at' 32 10 (761 : BitVec 11))) base) (fun t => t.status) = some stInvalid
    ∧ obs (exec (.thermCfgWrite (.core 16) 0x50607300) base) (fun t => (t.status, t.power.therm)) = some (0, 0x50607300)
    ∧ obs (exec (.thermCfgWrite (.core 16) 0x50607400) base) (fun t => t.status) = some stInvalid ∧ obs (exec (.thermCfgWrite (.core 16) 0x60606400) base) (fun t => t.status) = some stInvalid
    ∧ obs (exec (.thermCfgWrite .port 0x50607300) base) (fun t => (t.status, t.power.therm)) = some (stWorld, 0x5F646E00) := by decide +kernel

theorem test_input : obs (exec (.inputLow 3199) base) (fun t => (t.power.vin, t.power.alertSrc)) = some (3199, 1) ∧ obs (exec (.inputLow 2900) base) (fun t => t.power.vin) = some base.power.vin
    ∧ obs (exec (.inputLow 3200) base) (fun t => t.power.vin) = some base.power.vin ∧ islandUp base = true
    ∧ obs (exec .uvloFall { base with hbm := [(0, 1)] }) (fun t => (t.hbm, t.mod.st, t.mod.resetN, t.power.pgood)) = some ([], .boot, true, false)
    ∧ obs (exec (.inputOvervoltage false) base) (fun t => (t.mod.st, t.mod.resetN)) = some (.boot, true)
    ∧ obs (exec (.inputInRange 3200 noStart) base) (fun t => (t.power.vin, t.mod.st)) = some (3200, .ready) ∧ obs (exec (.inputInRange 4000 noStart) base) (fun t => t.power.vin) = some 4000
    ∧ obs (exec (.inputInRange 4001 noStart) base) (fun t => t.power.vin) = some base.power.vin ∧ base.power.paused = false
    ∧ obs (exec (.inputInRange 3600 { noStart with katOk := false }) { State.reset with mod := { State.reset.mod with resetN := true } }) (fun t => t.mod.st) = some .failed := by decide +kernel

def railState (n : Nat) (x : Rail) : State := putRail base n x

theorem test_rails : let on : Rail := { Rail.reset with st := 2, on := 0xF }
    obs (exec (.railExcursion 0) (railState 0 on)) (fun t => ((getRail t 0).st, (getDie t 0).st, (getDie t 0).cause)) = some (3, .held, 4)
    ∧ obs (exec (.railExcursion 12) (railState 12 on)) (fun t => ((getRail t 12).st, (getDie t 0).st)) = some (3, .held)
    ∧ obs (exec (.railExcursion 24) (railState 24 on)) (fun t => t.mod.st) = some .failed ∧ obs (exec (.railExcursion 27) (railState 27 on)) (fun t => t.mod.st) = some .failed
    ∧ obs (exec (.railExcursion 28) (railState 28 on)) (fun t => t.mod.st) = some .boot ∧ obs (exec (.railExcursion 0) base) (fun t => (getDie t 0).st) = some .ready
    ∧ obs (exec (.railRegulationReturn 0) (railState 0 { on with st := 3 })) (fun t => ((getRail t 0).st, (getRail t 0).backAt)) = some (2, some 5000)
    ∧ obs (exec (.railRegulationReturn 0) (railState 0 on)) (fun t => (getRail t 0).backAt) = some none := by decide +kernel

theorem test_phases : let x : Rail := { Rail.reset with st := 2, on := 0xF }
    obs (exec (.phaseFault 12 0) (railState 12 x)) (fun t => ((getRail t 12).shed, (getRail t 12).on, t.power.alertSrc, t.log.recs.map fun r => r.cause)) = some (1, 0xE, 0, [cPhaseShed])
    ∧ obs (exec (.phaseFault 12 0) (railState 12 { x with shed := 2, on := 0xD })) (fun t => (t.power.alertSrc, t.log.recs.map fun r => r.cause)) = some (2, [cPhaseShed, cPhaseShort])
    ∧ obs (exec (.phaseFault 12 0) (railState 12 { x with shed := 1 })) (fun t => t.log.recs.length) = some 0 ∧ obs (exec (.phaseFault 12 4) (railState 12 x)) (fun t => t.log.recs.length) = some 0 := by
  decide +kernel

/-- Only die 2, in place 2 of a sample, is present. -/
def warmState (st : BitVec 3) : State :=
  { base with mod := { base.mod with present := 4 }, power := { base.power with st, vin := 3600, allowance := 50 }, dies := [(2, { Die.reset with st := .ready })]
              hbmStacks := [(2, { Stack.reset with st := .ready })] }

theorem test_temperatures : let d (a b m : Byte) : List (Byte × Byte × Byte) := [(0, 0, 0), (0, 0, 0), (a, b, m)]
    (List.range 12).filter (diePresent (warmState 3)) = [2]
    ∧ obs (exec (.thermalSample (d 94 95 96) 110) (warmState 3)) (fun t => ((getHalf t 4).limit, (getHalf t 5).limit, (getStack t 2).halfRate, (getDie t 2).st)) = some (0, 1, true, .ready)
    ∧ obs (exec (.thermalSample (d 100 99 95) 50) (warmState 3)) (fun t => ((getHalf t 4).limit, (getHalf t 5).limit, (getStack t 2).halfRate)) = some (2, 1, false)
    ∧ obs (exec (.thermalSample (d 110 0 0) 50) (warmState 3)) (fun t => ((getDie t 2).st, (getDie t 2).cause, (getDie t 2).tripped, bitAt t.power.alertSrc 3)) = some (.held, 6, true, true)
    ∧ obs (exec (.thermalSample (d 109 0 0) 50) (warmState 3)) (fun t => (getDie t 2).st) = some .ready
    ∧ obs (exec (.thermalSample (d 120 0 0) 50) (warmState 2)) (fun t => (getDie t 2).st) = some .ready := by decide +kernel

theorem witness_control_die : let s : State := { warmState 3 with mod := { base.mod with present := 0 } }
    s.power.st = 3 ∧ (List.range 12).filter (diePresent s) = [] ∧ pEff s = 6800000 ∧ pPeak s = 7600000 ∧ allowSize s = 16000000000 := by decide +kernel

theorem test_budgets : obs (exec (.budgetEval 100 200 0 []) (warmState 3)) (fun t => (t.power.iin, t.power.pin, t.power.allowance, t.power.scaled)) = some (100, 200, 6600050, false)
    ∧ obs (exec (.budgetEval 100 6801 0 []) (warmState 3)) (fun t => (t.power.allowance, t.power.scaled, t.power.alertSrc)) = some (0, true, 0x10)
    ∧ obs (exec (.budgetEval 100 7600 0 [(0, 0), (0, 0), (9000000, 1)]) (warmState 3)) (fun t => ((getHalf t 4).power, (getHalf t 4).limit, (getHalf t 5).power)) = some (1, 1, 0)
    ∧ obs (exec (.budgetEval 100 7601 0 []) (warmState 3)) (fun t => ((getHalf t 4).power, (getHalf t 5).power)) = some (1, 1)
    ∧ obs (exec (.budgetEval 100 200 0 []) (warmState 2)) (fun t => t.power.iin) = some base.power.iin := by decide +kernel

/-! ### More states and operands that meet the statements' hypotheses -/

/-- A core beside an operation that has not started, and a weir whose epoch 0 is released. -/
theorem witness_core_waits : let started (b : Bool) : State := withTile { tileOf ctx0 with eng := { (tileOf ctx0).eng with press := [{ idleOp .press with started := b }] } }
    let w := weirState { syncTile acnt3 Slot.reset Hq.reset with weirMember := [(7, true)], weirView := [(7, 1)] } weir7
    allStarted (getTile (started false) 0) 0 = false ∧ canIssue (started false) ctl 0 = true
    ∧ obs (exec (.csrr ctl 9 0x020) (started false)) (fun t => (pcOf t, (ctxOf t 0 0).wait.isSome)) = some (0x100, true)
    ∧ obs (exec (.csrr ctl 9 0x020) (started true)) (fun t => (pcOf t, (ctxOf t 0 0).wait.isSome)) = some (0x110, false)
    ∧ weirWaitCheck w 0 0 7 = none ∧ weirWaitRes w 0 7 0 = some 0 ∧ mget false (getTile w 0).weirArrived 7 = false
    ∧ obs (exec (.arriveWait ctl 9 3 0) w) (fun t => (gReg 9 t, pcOf t, t.net.arrivals.length)) = some (0, 0x110, 1) := by decide +kernel

/-- The last handle of a queue that drains. -/
theorem witness_last_handle : let q : Hq := { Hq.reset with handles := [9], draining := true }
    let s := withTile (syncTile acnt3 Slot.reset q)
    canIssue s ctl 0 = true ∧ (getHq (getTile s 0) 2).draining = true ∧ (getHq (getTile s 0) 2).handles = [9]
    ∧ obs (exec (.hqPop ctl 9 4 0) s) (fun t => (gReg 9 t, hqEnabled (getHq (getTile t 0) 2), (getHq (getTile t 0) 2).draining)) = some (9, false, false) := by
  decide +kernel

/-- The tile works for the waiting context: an engine holds an operation of it, or its exchange phase runs (R159). -/
theorem test_spin_at_work : let pwr (t : State) : Option WaitPwr := (ctxOf t 0 0).wait.map (·.pwr)
    let s := waitState 4 0 0 .spin
    let works (f : TileEng → TileEng) : State := { s with tiles := [(0, { getTile s 0 with eng := f (getTile s 0).eng })] }
    obs (exec (.spinPeriodExpire 0) (works fun e => { e with press := [idleOp .press] })) pwr = some (some .spin)
    ∧ obs (exec (.spinPeriodExpire 0) (works fun e => { e with exch := some (exch1 0) })) pwr = some (some .spin)
    ∧ obs (exec (.spinPeriodExpire 0) (works fun e => { e with exch := some { exch1 0 with job := 1 } })) pwr = some (some .lend) := by decide +kernel

/-- A folio header in a block with a double-bit error, and a phase under way. -/
theorem witness_folio_ecc : let s := withTile { folioTile 1 with spadEcc := [(0x400 / 8, .double)] }
    canIssue s egn 0 = true ∧ spadBad (getTile s 0) 0x400 16 = true ∧ inShare (getTile s 0) 0 0x400 16 = true
    ∧ obs (exec (.exch egn 1) s) (fun t => (cause t, pcOf t)) = some (0x154, 0x110) ∧ (ctxOf (phase 3 1 0) 0 0).yent = none := by decide +kernel

/-- A block on its way from die 0 to die 1 at edge row 3: at the router, and at the two ends of the link. -/
def linkBlk (inPort : Nat) (p : Pos) : Block :=
  { put1 0 with inPort, pos := p, dst := { die := 1, h1 := false, col := 0, row := 3 }, via := [0, 1], dest := 0x1048 }

def nearEnd : Pos := { die := 0, h1 := false, col := 23, row := 3 }
def farEnd : Pos := { die := 1, h1 := false, col := 0, row := 3 }

def linkState (b : Block) : State :=
  { meshState [(3, b)] with
    dies := [(0, { Die.reset with st := .ready }), (1, { Die.reset with st := .ready })]
    net := { (meshState [(3, b)]).net with edges := [(0, { Edge.reset with st := 2 })] } }

theorem witness_link : let a := linkBlk 3 nearEnd
    let b := linkBlk (sendEnd 4) nearEnd
    let c := linkBlk (recvEnd 3) farEnd
    crossable (linkState a) 0 1 = true ∧ neighbour nearEnd (routePort (linkState a) a) = some (farEnd, 3) ∧ nextStage nearEnd 4 = some (nearEnd, sendEnd 4)
    ∧ linkPort a = none ∧ linkPort b = some (4, true) ∧ linkPort c = some (3, false) ∧ cameOver c = some 0 ∧ cameOver (put1 0) = none
    ∧ bufFree (linkState a) nearEnd (sendEnd 4) (blkClass a) = true ∧ bufFree (linkState b) farEnd (recvEnd 3) (blkClass { b with pos := farEnd }) = true
    ∧ bufFree (linkState c) farEnd 3 (blkClass c) = true
    ∧ obs (exec (.routerForward 3) (linkState a)) (fun t => (getBlk t 3).map fun x => (x.pos, x.inPort)) = some (some (nearEnd, 14))
    ∧ obs (exec (.routerForward 3) (linkState b)) (fun t => (getBlk t 3).map fun x => (x.pos, x.inPort)) = some (some (farEnd, 23))
    ∧ obs (exec (.routerForward 3) (linkState c)) (fun t => (getBlk t 3).map fun x => (x.pos, x.inPort)) = some (some (farEnd, 3))
    ∧ obs (exec (.meshFlitCrcError 3 true) (linkState c)) (fun t => ((getBlk t 3).isSome, t.log.recs.length)) = some (true, 0)
    ∧ arrivedAt (meshState [(3, put1 1)]) (put1 1) = some 1 ∧ waitsBehind (meshState [(3, put1 1)]) 3 1 (put1 1) = false
    ∧ waitsBehind (meshState [(3, put1 1), (4, { slotBlk with slotWait := some 0 })]) 3 1 (put1 1) = true := by decide +kernel

/-- A round that may run, one whose sum before it still leaves, and a third tree at a router. -/
theorem witness_round_waits : let p := posOf addState 0
    let sum : Block := { add1 atSum [0, 0, 0, 0] with pos := p }
    let busy : State := { addState with net := { addState.net with blocks := addState.net.blocks ++ [(5, sum)] } }
    routerPos addState 0 = p ∧ sumWaits addState 4 p = false ∧ hasAdder addState 4 p = true ∧ addElems (add1 4 [2, 0, 0, 0]) ≠ []
    ∧ sumWaits busy 4 p = true ∧ obs (exec (.addRound 4 0) busy) (fun t => t.net.blocks.length) = some 3
    ∧ none ∈ (inPorts 0x221).map (roundInput { addState with net := { addState.net with blocks := [] } } 4 p) := by decide +kernel

theorem witness_prune_credit : lacksSince (castState 8 1000) cast1.pos 4 (portClass (castState 8 1000) cast1 4) = some 0
    ∧ lacksSince pruneState (routerPos pruneState 0) 4 0 = none ∧ lacksSince pruneState (routerPos pruneState 0) 4 1 = none
    ∧ lacksSince pruneState (routerPos pruneState 0) 4 2 = none ∧ linkPort cast1 = none ∧ cast1.taken = [0] := by decide +kernel

theorem witness_weirs : let s := arriving { weir7 with epoch := 1, release := [(0, false)] } 1
    dieReady base 0 = true ∧ (getWeir (getDie s 0) 7).release = (0, false) :: []
    ∧ obs (exec (.weirReleaseArrive 0 7 none) (weirState Tile.reset { weir7 with release := [(0, false), (1, true)] }))
        (fun t => ((getWeir (getDie t 0) 7).epoch, (getWeir (getDie t 0) 7).release)) = some (1, [(1, true)]) := by decide +kernel

/-- A reach frozen while it was IDLE, one whose pass runs, and a step for which its engine has room. -/
theorem witness_rearm : let s (st thaw : ReachSt) : State := { postState [] with dies := [(0, { streamDie [] with
      reach := [(6, { Reach.reset with cfg := 0x8000000200000000, st, thawTo := thaw, stride := 0x1000, descs := [(0, desc64 0)] })] })] }
    rearmCheck (getReach (getDie (s .frozen .idle) 0) 6) 0 0x12340000 = none
    ∧ obs (exec (.rearm egn 2 6) (s .frozen .idle)) (fun t => let y := getReach (getDie t 0) 6; (y.st, y.thawTo, y.base, y.pending)) = some (.frozen, .armed, 0x12340000, false)
    ∧ obs (exec (.rearm egn 2 6) (s .armed .idle)) (fun t => let y := getReach (getDie t 0) 6; (y.st, y.nextBase, y.pending)) = some (.armed, 0x12340000, true)
    ∧ engineRoom (runState leg0 []) (getDie (runState leg0 []) 0) (running leg0) 64 (some (0x50000, false)) (some (0x60000, false)) = true
    ∧ getDie (walk (walking 0x10000) 0 false 0 0x10000 false).1 0 = getDie (walking 0x10000) 0 ∧ (parkedState 1 0).net.parks = [] := by decide +kernel

/-- An invalidation for which a step under way is waited for. -/
def inflight : State :=
  let l : Leg := { leg0 with steps := [{ id := 9, off := 0, len := 64, data := [], reads := 1, writes := 0, dst := some 0x60000, vas := [(0x10000, false), (0x20000, false)] }] }
  runState l [tlb 1 0x50000, tlb 2 0x60000]

theorem witness_invalidation_waits : invalBusy inflight = false
    ∧ obs (exec (.trnInval .port (2 ^ 35)) inflight) (fun t => (invalBusy t, t.owed, (getDie t 0).tlb)) = some (true, [.inval], [])
    ∧ obs (exec (.trnRootWrite .port 0 0) inflight) (fun t => (invalBusy t, t.owed)) = some (true, [.inval])
    ∧ obs (exec (.trnInval .port (2 ^ 32)) cached) (fun t => (invalBusy t, t.owed)) = some (false, []) := by decide +kernel

/-- A conversion of one row of 16 I8 elements with a strip of one exponent (R25, R31, R32), the strip at a plain address and in a slot. -/
def stripBlock (strip : Nat) (cols : Nat) : BitVec 512 :=
  BitVec.ofNat 512 (1 * 2 ^ 186 + cols * 2 ^ 168 + 1 * 2 ^ 152 + 0x0803 * 2 ^ 136 + 0x13 * 2 ^ 120 + 0xFFFFFF * 2 ^ 96 + 0x3000 * 2 ^ 72 + 0xFFFFFF * 2 ^ 48 + strip * 2 ^ 24 + 0x1000)

theorem witness_strips : let x (b : BitVec 512) (e : Byte) : Tile := { headTile .cvt b false none with spad := [(0x2000, e)] }
    let slotted (st : SlotSt) : Tile := { headTile .cvt (stripBlock 0x8C0000 16) false none with slots := [(6, { Slot.reset with cfg := 0x8FFFFFFC00020040, st, filled := 128 })] }
    let strips (y : Tile) (b : BitVec 512) := readStrips y (cvtRegions (cvtCmd b))
    lowest (cvtCauses (x (stripBlock 0x2000 16) 0) 0 (cvtCmd (stripBlock 0x2000 16))) = none
    ∧ stripCauses (x (stripBlock 0x2000 16) 0) 0 (strips (x (stripBlock 0x2000 16) 0) (stripBlock 0x2000 16)) = []
    ∧ stripCauses (x (stripBlock 0x2000 16) 0x80) 0 (strips (x (stripBlock 0x2000 16) 0x80) (stripBlock 0x2000 16)) = [0x21]
    ∧ obs (exec (.cvtUnitStart 0) (withTile (x (stripBlock 0x2000 16) 0x80))) (fun t => (cause t, (unitQ (getTile t 0) .conv).length)) = some (0x121, 0)
    ∧ obs (exec (.cvtUnitStart 0) (withTile (slotted .empty))) (fun t => (cause t, (unitQ (getTile t 0) .conv).map fun o => (o.started, o.slotWait))) = some (0, [(false, some 5000)])
    ∧ obs (exec (.cvtUnitStart 0) (withTile (slotted .full))) (fun t => (cause t, (unitQ (getTile t 0) .conv).map fun o => (o.started, o.slotWait))) = some (0, [(true, none)]) := by
  decide +kernel

/-- A write on its way to a block, spare lanes for one failing lane and for no two of one channel, and a lane beyond a limit of one. -/
theorem witness_stack_repairs : let k : Stack := { patrolled .correctable with reqs := [{ pa := 0x40, write := some [1], die := 0, xrec := 0, step := 9, idx := 0, world := false, job := 0 }] }
    let one : List (Fin 32 × Byte) := [(3, 7)]
    let y : Stack := { Stack.reset with st := .ready, cfg := 0x80000001, laneErrs := [(3, 7, 4000), (3, 7, 4500)] }
    let z : Stack := { y with spares := [] }
    reqWrites k 1 = true ∧ reqWrites (patrolled .correctable) 1 = false ∧ y.reqs = [] ∧ y.failing = []
    ∧ obs (exec (.hbmWriteback 0) (memState k)) (fun t => (blkSt (getStack t 0) 1, (getStack t 0).writebacks)) = some (some .correctable, [])
    ∧ laneOver y 5000 (3, 7) = true ∧ bitAt y.cfg 31 = true ∧ sparesServe z (one ++ z.failing).eraseDups = false
    ∧ sparesServe { y with spares := List.replicate 32 1 } (one ++ y.failing).eraseDups = true
    ∧ obs (exec (.hbmRecal none 0 true []) (memState { y with badRows := [] })) (fun t => ((getStack t 0).st, (getStack t 0).laneErrs)) = some (.ready, [])
    ∧ obs (exec (.hbmRecal (some (.core 16)) 0 true one) (memState z)) (fun t => (t.status, (getStack t 0).st)) = some (0, .offline) := by decide +kernel

/-- A slot of a stopped context is disabled. -/
theorem witness_slot_off : let s := withTile { syncTile acnt3 { Slot.reset with st := .full } Hq.reset with ctx := [(0, { syncCtx with st := .stopped })] }
    (ctxOf s 0 (slotOwner (getSlot (getTile s 0) 6))).st = .stopped
    ∧ obs (exec (.slotCfgWrite .port 0 6 0) s) (fun t => (t.status, slotEnabled (getSlot (getTile t 0) 6), (getSlot (getTile t 0) 6).gen)) = some (0, false, 1) := by decide +kernel

/-- A context at a switch point whose engine still works, with a taker READY; its command leaves it there. -/
theorem witness_switch_waits : let x := twoCtx { ctx0 with st := .running, switchPt := true } { ctx0 with st := .ready, pc := 0x80000 } false
    let busy : State := withTile { x with eng := { x.eng with press := [idleOp .press] } }
    let due : State := { busy with jobs := [(0, { Job.reset with st := .pausing })] }
    switchDue due 0 0 = true ∧ engBusy (getTile due 0) 0 = true ∧ switchDue core0 0 0 = false
    ∧ obs (exec (.contextSwitch 0) due) (fun t => ((ctxOf t 0 0).st, pcOf t)) = some (.running, 0x100)
    ∧ obs (exec (.contextSwitch 0) core0) (fun t => (ctxOf t 0 0).st) = some .running
    ∧ fillerRuns (getTile (lateState false 0) 0) 0 = true ∧ fillerRuns (getTile (lateState true 0) 0) 0 = false := by decide +kernel

/-- A job whose save area serves, with and without an operation under way, and one that holds an L6 weir at which a peer has arrived. -/
def saveState (x : Tile) : State :=
  { withTile x with
    dies := [(0, { Die.reset with st := .ready }), (2, { Die.reset with st := .ready })]
    hbmStacks := [(2, { Stack.reset with st := .ready })]
    jobs := [(0, { Job.reset with st := .paused, regs := { Job.reset.regs with save := 0x2F00000000 } })] }

theorem witness_unload : let x : Tile := { Tile.reset with ctx := [(0, { ctx0 with st := .paused })] }
    let busy := saveState { x with eng := { x.eng with press := [idleOp .press] } }
    let l6 : Weir := { weir7 with cfg := 0xE0400000 }
    let peer : State := { weirState x l6 with jobs := [(0, { Job.reset with st := .paused })], net := { base.net with l6 := [(7, { WeirL6.reset with peersArrived := 2 })] } }
    inReserveNs 0x2F00000000 (saveSize busy) = true ∧ unloadReady (freezeJob (setJobSt busy 0 .unloading) 0) 0 = false
    ∧ unloadReady (freezeJob (setJobSt (saveState x) 0 .unloading) 0) 0 = true ∧ jobWeirs (saveState x) 0 = [] ∧ peerRound peer 0 = true
    ∧ obs (exec (.jobUnload .port 0) busy) (fun t => ((getJob t 0).st, t.owed)) = some (.unloading, [.unload 0])
    ∧ obs (exec (.jobUnload .port 0) peer) (fun t => (t.status, (getJob t 0).st)) = some (stCfgBusy, .paused)
    ∧ securePa (saveState x) 0 = false ∧ inReserveNs 0 (saveSize (saveState x)) = false := by decide +kernel

theorem witness_pins : let s : State := { shardState 0 with gather := { (shardState 0).gather with pins := List.replicate 4096 ⟨0, 4, 6⟩ } }
    ¬ s.gather.pins.length < 4096 ∧ obs (exec (.gatherPin .port 0 4 9 2) s) (fun t => (t.status, (g3 t).pins)) = some (stCfgBusy, 0)
    ∧ obs (exec (.shardEntryWrite .port 6 1 5) (shardState 1)) (fun t => (t.status, (g3 t).version)) = some (stCfgBusy, 2) := by decide +kernel

/-- A port whose eight buffers of the collective lane hold packets of key 5. -/
theorem witness_held_packets : let full : State := { postG rootTree with net := { (postG rootTree).net with
      heldG := List.replicate 8 { key := key5, attempt := 0, port := some 3, body := .score 0 [] } } }
    rxBusy full 3 1 = 8 ∧ laneBuffers 1 = 8 ∧ rxBusy (postG rootTree) 3 1 < laneBuffers 1 ∧ getGath full key5 = none ∧ gStale full key5 7 = false
    ∧ obs (exec (.gatherPacketReceive key5 0 (some 3) (.score 0 [])) full) (fun t => t.net.heldG.length) = some 8
    ∧ obs (exec (.gatherPacketReceive key5 0 none (.score 0 [])) full) (fun t => t.net.heldG.length) = some 9 := by decide +kernel

/-- Messages for a key that is not open wait for it; one whose layout is no longer that of the job does not. -/
theorem witness_held_messages : let s := postG rootTree
    let old : State := { s with jobs := [(0, { getJob s 0 with regs := { (getJob s 0).regs with layoutEpoch := 1 } })] }
    getGath s key5 = none ∧ gStale s key5 7 = false ∧ gStale old key5 7 = true ∧ s.net.heldMsg = []
    ∧ obs (execGatherAbandonReceive key5 s) (fun t => t.net.heldMsg.map (·.what)) = some [0]
    ∧ obs (execGatherRestartReceive key5 2 6 s) (fun t => t.net.heldMsg.map fun m => (m.what, m.attempt, m.n)) = some [(2, 2, 6)]
    ∧ obs (execGatherWithdrawReceive key5 3 true 0 s) (fun t => t.net.heldMsg.map fun m => (m.what, m.port)) = some [(1, some 3)]
    ∧ obs (execGatherAbandonReceive key5 old) (fun t => t.net.heldMsg.length) = some 0
    ∧ gParked (gState openG rootTree) key5 = false ∧ accFree (gState openG parentTree) openG (.score 0 [1]) = true ∧ openG.phase ≠ .failed ∧ openG.restarts ≠ 7
    ∧ ownPending true { openG with phase := .dataSum, rx := [(24, .data 0 [4, 5])] } = [0] := by decide +kernel

/-- A flit whose lane has no free receive buffer is not accepted; a data packet fills one. -/
theorem witness_receive_buffers : let full : State := portState { upPort with rxUsed := [(2, 8)] }
    rxBusy (portState upPort) 3 2 < laneBuffers 2 ∧ upPort.replay = [] ∧ upPort.txq = [] ∧ upPort.sending = [] ∧ (flitOf 9 3 5).vl ≠ 0
    ∧ (flitOf 9 3 5).sbWidth = upPort.width ∧ (flitOf 9 3 5).sbEpoch = upPort.epoch
    ∧ obs (exec (.tzAckTimer 3) (portState { sentPort with owesNak := true })) (fun t => ((p3 t).wire.length, (p3 t).owesNak, (p3 t).rxSinceAck)) = some (1, false, 0)
    ∧ full.net.ports.length = 1 := by decide +kernel

/-- A peer heard of less than 20 µs ago is asked to answer; a firmware message is kept. -/
theorem witness_peer_asked : let s : State := peerState 19999 { upPort with partner := 0x80000000 }
    peerConfigured s 1 = true ∧ peerGone s 1 = false
    ∧ obs (exec (.peerLost 1) s) (fun t => ((p3 t).txq ++ (p3 t).replay.map fun g => g.pkt)) = some [.ctrl (.liveness true)]
    ∧ obs (exec (.ctrlMessageReceive 3 (.firmware [7])) (peerState 7 upPort)) (fun t => t.net.fwRx) = some [[7]]
    ∧ obs (exec (.ctrlMessageReceive 3 (.discovery 0)) (peerState 7 upPort)) (fun t => t.net.peerSeen) = some [(1, 7)] := by decide +kernel

/-- A handle whose slot is not FULL waits at its port; a landing number without a queue keeps its data at the port. -/
theorem witness_lane_waits : let s := laneState [0x00600000] upPort
    let filling : State := { s with tiles := [(0, { getTile s 0 with slots := [(6, { Slot.reset with cfg := 0x8FFFFFFC00000040, st := .filling, filled := 1 })] })] }
    let noQueue : State := { s with net := { s.net with lands := [(9, 0x9FFF0000)] } }
    readWaits (getTile filling 0) 0x8C0000 = true ∧ readWaits (getTile s 0) 0x8C0000 = false ∧ opndCheck (getTile s 0) 0 0x8C0000 64 64 = none
    ∧ obs (exec (.portStreamSend 0 5) filling) (fun t => ((p3 t).popped, (getStq (getDie t 0) 5).handles)) = some ([(0, 5, 0x00600000)], [])
    ∧ fld (landReg noQueue 9) 16 13 = (0x1FFF : BitVec 13) ∧ bitAt (landReg noQueue 9) 31 = true
    ∧ obs (exec (.landReceive 3 9 0 (List.replicate 64 3)) noQueue) (fun t => ((p3 t).landing.length, (getTile t 0).slots.length)) = some (1, 1) := by decide +kernel

/-- A READ of more than 2 GiB and one with a length that no region allows. -/
theorem witness_long_read : let s := qpState { RoceQp.reset with begun := true }
    RoceQp.reset.enabled = true ∧ RoceQp.reset.rxPsn = 0 ∧ 2 ^ 31 < 0x80000001 ∧ mrAllows s 0 0 64 false = none ∧ (RoceQp.reset.txq.filter endsRead).length < 16 := by decide +kernel

/-- A handover whose image is still being loaded, and one whose image is refused. -/
theorem witness_handover_way : let s (img : Image) (loaded : W64) : State := { fwState 2 1000 with fw := { (fwState 2 1000).fw with handover := some { img, loaded, swap := 5 } } }
    (s image0 2000).mod.resetN = true ∧ (s image0 2000).dies.all (fun e => e.2.join.isNone) = true ∧ jobs4.all (fun j => decide ((getJob (s image0 2000) j).st ≠ .unloading)) = true
    ∧ obs (exec .referenceCycle (s image0 2000)) (fun t => (t.fw.standby, t.fw.handover.isSome)) = some (2, true) ∧ (s image0 2000).sec.preparing = false := by decide +kernel

theorem witness_handover_fails : imageRefusal (fwState 2 1000) { image0 with mtype := 1 } imgMgmt ≠ none := imageRefusal_type (by decide)

/-- The same handover, its image loaded, where the image verifies: the cores change roles, and requests are answered BUSY meanwhile. -/
theorem witness_swap (sig : Config.sigOk image0.keys image0.manifest image0.sigs = true) (key : Config.sha512 image0.keys = Config.romKeyHash 0) :
    let s : State := { mgmtState Mgmt.reset with fw := { base.fw with standby := 2, handover := some { img := image0, loaded := 0, swap := 5 } } }
    imageRefusal s image0 imgMgmt = none ∧ swapping s = true := by
  have h : imageRefusal { mgmtState Mgmt.reset with fw := { base.fw with standby := 2, handover := some { img := image0, loaded := 0, swap := 5 } } } image0 imgMgmt = none := by
    refine imageRefusal_none sig rfl (by decide) (by decide) ?_
    have k : image0.keyIndex = 0 := rfl
    rw [imageKeyOk, if_neg (by decide), k, decide_eq_true key]
    decide
  refine ⟨h, ?_⟩
  simp only [swapping, h]
  decide

/-- No slice of the working store is up where the reserve's stacks are not READY. -/
theorem witness_no_store : secureCopies { mgmtState Mgmt.reset with hbmStacks := [] } = [] ∧ portServes { mgmtState Mgmt.reset with hbmStacks := [] } = true
    ∧ swapping (mgmtState Mgmt.reset) = false ∧ secureCopies (mgmtState Mgmt.reset) = [2] := by decide +kernel

/-- A lockout under way, and an item whose write is refused. -/
theorem witness_locked : let s : State := { tokenState with sec := { tokenState.sec with lockoutAt := some 4000 } }
    (∃ t0 : W64, s.sec.lockoutAt = some t0 ∧ now s < t0.toNat + 60000000000) ∧ itemStatus tokenState { item0 with value := [0] } ≠ 0
    ∧ obs (exec (.tokenWrite token0) s) (fun t => (t.status, t.sec.lastTokenStatus)) = some (cTokenRefused, cTokenRefused) := by
  exact ⟨⟨4000, rfl, by decide⟩, by decide +kernel, by decide +kernel⟩

/-- WIN.DOMAIN: a value read to a buffer; a commit whose parts leave a gap, and one whose parts are whole. -/
def domainState : State :=
  { base with
    dies := [(0, { Die.reset with st := .ready, watchReady := true }), (2, { Die.reset with st := .ready })]
    hbmStacks := [(0, { Stack.reset with st := .ready }), (2, { Stack.reset with st := .ready })]
    hbm := place (2 * 2 ^ 36 + 0xFC0000000) 4 0xE2010000 }

theorem witness_window_moves : let b := 2 * 2 ^ 36 + 0xFC0000000
    let e : Option Reg := (regAt 0x1103 0).toOption
    wdBuf (wd b) % 64 = 0 ∧ bufferOk 16 (wdBuf (wd b)) (wdLen (wd b)) = true ∧ e = some .errCfg ∧ isDomain .errCfg = false ∧ readHeld domainState .errCfg = false
    ∧ obs (exec (.winDomainRead 16 (wd b)) { domainState with hbm := [] }) (fun t => ((getWin t 16).last, rdBytes t.hbm b 4)) = some (0, [0, 0, 1, 0xC2])
    ∧ obs (exec (.winDomainCommit 16 (wd b)) domainState) (fun t => ((getWin t 16).last, t.log.cfg)) = some (0, 0xE2010000)
    ∧ obs (exec (.winDomainCommit 16 (BitVec.ofNat 256 (b * 2 ^ 192 + 2 * 2 ^ 160 + 2 * 2 ^ 128 + 0x1103 * 2 ^ 32))) domainState) (fun t => ((getWin t 16).last, t.log.cfg))
      = some (stSegment, 0xC2010000) := by decide +kernel

/-- The input returns after a boot began without it. -/
theorem witness_input_boot : let s : State := { State.reset with mod := { State.reset.mod with resetN := true, st := .boot, step := 0, autostart := false } }
    slotBoots s goodStart s.fw.slot = true ∧ goodStart.katOk = true ∧ goodStart.pufOk = true ∧ goodStart.monoOk = true ∧ goodStart.badRecords = []
    ∧ obs (exec (.inputInRange 3600 goodStart) s) (fun t => (t.mod.st, t.power.vin, t.fw.standby)) = some (.standby, 3600, 1) := by decide +kernel

/-! ### The whole machine -/

theorem witness_tiles : tilePresent base 0 = true ∧ tilePresent base 2 = false ∧ obs (exec (.nop { ctl with tile := 0 }) base) (fun _ => ()) = some ()
    ∧ obs (exec (.nop { ctl with tile := 2 }) base) (fun _ => ()) = none := by decide +kernel

theorem witness_canonical : hbmWf State.reset = true ∧ hbmWf { base with hbm := [(4, 1), (9, 2)] } = true ∧ hbmWf { base with hbm := [(4, 1), (4, 2)] } = false
    ∧ hbmWf { base with hbm := [(4, 0)] } = false ∧ obs (exec .jtagIdcode base) (fun t => t.pending) = some base.pending := by decide +kernel

/-- A step that answers, of a command and of an empty queue. -/
theorem witness_steps : obs (step { base with pending := [.jtagIdcode] }) (fun t => (t.pending.length, t.jtag.tdo, t.sec.svnApp)) = some (0, 0x01216E77, 0)
    ∧ obs (step base) (fun t => t.sec.keyRevoke) = some base.sec.keyRevoke
    ∧ obs (step { fwState 3 0 with pending := [.commit (.core 16)] }) (fun t => t.fw.standby) = some 1 := by decide +kernel

end Sys2Proof.Tests
end

section
/-!
PROOFS of the statements of the family '00_scope.md': how a step takes its command, which commands name a tile and what each command then
answers, and what a register write leaves unchanged or sets.
-/
namespace Sys2Proof.Machine
open Sys2Proof

/-! ## A step and the queue (R9, log entry 4) -/

theorem step_of_pending_cons {s : State} {c : Instr} {rest : List Instr} (h : s.pending = c :: rest) :
    step s = exec c { s with pending := rest } := by
  simp only [step, h]

theorem step_of_pending_nil {s : State} (h : s.pending = []) : step s = .next s := by
  simp only [step, h]

/-- Settles O1: the two cases of the queue. -/
theorem stepRunsFrontCommand : Obligations.StepRunsFrontCommand := by
  intro s
  exact ⟨fun _ _ h => step_of_pending_cons h, step_of_pending_nil⟩

/-! ## Commands that name a tile (R17, log entry 2) -/

/-- The tile of a command of a tile's engines, held bundles or registers; none for the other commands. The slots of a core are in coreSlot. -/
def unitTile (i : Instr) : Option W16 :=
  match i with
  | .haltRetire t | .waitRelease t | .waitTimeout t | .spinPeriodExpire t | .gaugeStallRelease t | .gaugeTimeout t => some t
  | .pressStart t | .pressResidueMismatch t _ _ | .pressComplete t => some t
  | .engineSlotResume t _ | .slotTimeout t _ => some t
  | .cvtUnitStart t | .conversionComplete t | .gutterComplete t | .xposeComplete t => some t
  | .wideOpStart t | .wideOpComplete t | .widePatrol t _ => some t
  | .folioEntryIssue t | .exchBoundary t | .xchTimeout t => some t
  | .hqDrain _ t _ | .hqAbort _ t _ => some t
  | .spadEccWriteback t _ | .spadPatrol t _ | .ctxStorePatrol t _ => some t
  | .tileShareWrite _ t _ | .acntCfgWrite _ t _ _ | .slotCfgWrite _ t _ _ | .hqCfgWrite _ t _ _ => some t
  | .contextSwitch t | .yieldMaxExpire t | .switchLate t => some t
  | .yieldRegWrite _ t _ _ | .ctxResume _ t _ | .ctxRestart _ t _ _ => some t
  | _ => none

/-- The tile without which a command is the fault of log entry 2. -/
def namedTile (i : Instr) : Option W16 :=
  match coreSlot i with
  | some (h, _) => some h.tile
  | none => unitTile i

theorem onTile_absent {t : W16} {s : State} {f : State → State} (h : tilePresent s t = false) : onTile t s f = .fault .noSuchTile := by
  simp [onTile, h]

/-- A command of a tile's units runs on the tile. -/
theorem exec_unitTile {i : Instr} {t : W16} (s : State) (h : unitTile i = some t) : ∃ f, exec i s = onTile t s f := by
  cases i <;> simp only [unitTile, Option.some.injEq, reduceCtorEq] at h
  all_goals (subst h; apply Exists.intro; rfl)

/-- A command that names a tile runs on the tile. -/
theorem exec_namedTile {i : Instr} {t : W16} (s : State) (h : namedTile i = some t) : ∃ f, exec i s = onTile t s f := by
  unfold namedTile at h
  cases hc : coreSlot i with
  | some p =>
    simp only [hc, Option.some.injEq] at h
    subst h
    exact ⟨_, exec_coreSlot hc⟩
  | none =>
    simp only [hc] at h
    exact exec_unitTile s h

/-- Without its tile, a command that names one answers the fault. -/
theorem exec_fault_of_namedTile_absent {i : Instr} {s : State} {t : W16} (h : namedTile i = some t) (hp : tilePresent s t = false) :
    exec i s = .fault .noSuchTile := by
  obtain ⟨f, hf⟩ := exec_namedTile s h
  exact hf.trans (onTile_absent hp)

/-- With its tile, it answers a next state. -/
theorem exec_next_of_namedTile_present {i : Instr} {s : State} {t : W16} (h : namedTile i = some t) (hp : tilePresent s t = true) :
    ∃ u, exec i s = .next u := by
  obtain ⟨f, hf⟩ := exec_namedTile s h
  exact ⟨f s, hf.trans (onTile_present hp)⟩

/-- A command that names no tile is no slot of a core, and none of a tile's units. -/
theorem namedTile_eq_none {i : Instr} (h : namedTile i = none) : coreSlot i = none ∧ unitTile i = none := by
  unfold namedTile at h
  split at h
  · contradiction
  · exact ⟨by assumption, h⟩

/-- A command that names no tile answers a next state. -/
theorem exec_next_of_namedTile_none {i : Instr} (s : State) (h : namedTile i = none) : ∃ t, exec i s = .next t := by
  obtain ⟨hc, hu⟩ := namedTile_eq_none h
  cases i <;> simp only [coreSlot, unitTile, reduceCtorEq] at hc hu
  all_goals exact ⟨_, rfl⟩

/-- Settles O56: a command that names a tile is one on that tile, and every other command answers a next state. -/
theorem everyCommandAnswers : Obligations.EveryCommandAnswers := by
  intro c s
  refine ⟨?_, fun h g a e ch u i hi => ?_⟩
  · cases hn : namedTile c with
    | none => exact .inl (exec_next_of_namedTile_none s hn)
    | some t =>
      cases hp : tilePresent s t with
      | true => exact .inl (exec_next_of_namedTile_present hn hp)
      | false => exact .inr (exec_fault_of_namedTile_absent hn hp)
  · have hn : namedTile i = some h.tile := List.eq_of_mem_replicate (n := 18) (List.mem_map_of_mem (f := namedTile) hi)
    exact ⟨exec_fault_of_namedTile_absent hn, exec_next_of_namedTile_present hn⟩

/-! ## Records of no job (R457, R462) -/

theorem ringAppend_of_noJob (s : State) {r : ErrRec} (h : r.jobValid = false) : ringAppend s r = s := by
  simp [ringAppend, h]

theorem raiseEvent_jobs (s : State) (k : Nat) (o : W16) (b : List Byte) (v : BitVec 2) : (raiseEvent s k o b v).jobs = s.jobs := by
  rw [raiseEvent_mgmt]

/-- A record that is not FATAL and of no job leaves the jobs. -/
theorem putRecord_jobs (s : State) {r : ErrRec} (hs : r.sev ≠ 3) (hj : r.jobValid = false) : (putRecord s r).1.jobs = s.jobs := by
  simp only [putRecord, hs, if_false, ringAppend_of_noJob _ hj]
  split
  · exact raiseEvent_jobs _ _ _ _ _
  · rfl

theorem putErr1_jobs (s : State) {e : Err} (hs : e.sev ≠ 3) (hj : e.job = none) : (putErr1 s e).1.jobs = s.jobs := by
  have hr : (errRec s e).jobValid = false := by simp [errRec, hj]
  unfold putErr1
  split
  · rfl
  · refine (putRecord_jobs _ hs hr).trans ?_
    split <;> rfl

/-- An error that is not FATAL and of no job leaves the jobs, the LOG_LOST summary included. -/
theorem putErr_jobs (s : State) {e : Err} (hs : e.sev ≠ 3) (hj : e.job = none) : (putErr s e).jobs = s.jobs := by
  have h1 : (putErr1 s e).1.jobs = s.jobs := putErr1_jobs s hs hj
  simp only [putErr, hj]
  split
  · exact (putErr1_jobs _ (by simp [lostErr]) rfl).trans h1
  · exact h1

/-- The WORLD_VIOLATION record of a writer is not FATAL. -/
theorem writerErr_sev (w : Writer) (a : Nat) : (writerErr w a).sev ≠ 3 := by
  cases w <;> simp [writerErr, worldErr]

/-- The WORLD_VIOLATION record of a writer is of no job. -/
theorem writerErr_job (w : Writer) (a : Nat) : (writerErr w a).job = none := by
  cases w <;> rfl

/-! ## What a register write does (R9-R11, R482, R518, R521) -/

section
variable {s : State} {w : Writer} {index : W16} {sub : BitVec 8} {inst : W16} {v : BitVec 1024} {r : Reg} {c : Byte}

/-- An entry that no index and subindex name. -/
theorem exec_registerWrite_unnamed (h : regAt index.toNat sub.toNat = .error c) :
    exec (.registerWrite w index sub inst v) s = .next (setStatus s c) := by
  have he : entryWrite w index.toNat sub.toNat inst.toNat v.toNat s = (s, c) := by simp only [entryWrite, h]
  exact congrArg (fun r => Host.Outcome.next (finish r)) he

/-- A write of a named entry. -/
theorem exec_registerWrite_named (h : regAt index.toNat sub.toNat = .ok r) :
    exec (.registerWrite w index sub inst v) s = .next (finish (regWrite w index.toNat sub.toNat inst.toNat r v.toNat s)) := by
  have he : entryWrite w index.toNat sub.toNat inst.toNat v.toNat s = regWrite w index.toNat sub.toNat inst.toNat r v.toNat s := by
    simp only [entryWrite, h]
  exact congrArg (fun r => Host.Outcome.next (finish r)) he

/-- The entry refuses the write before its value is looked at. -/
theorem exec_registerWrite_gated (h : regAt index.toNat sub.toNat = .ok r) (hg : writeGate s r inst.toNat = some c) :
    exec (.registerWrite w index sub inst v) s = .next (setStatus s c) := by
  have he : regWrite w index.toNat sub.toNat inst.toNat r v.toNat s = (s, c) := by simp only [regWrite, regWriteWith, hg]
  rw [exec_registerWrite_named h, he]
  rfl

/-- The non-secure world writes what the secure world alone may: an error record. -/
theorem exec_registerWrite_world (h : regAt index.toNat sub.toNat = .ok r) (hg : writeGate s r inst.toNat = none)
    (hr : (regInfo r).secWrite = true) (hw : secureWriter w = false) :
    exec (.registerWrite w index sub inst v) s
      = .next (setStatus (putErr s (writerErr w (winAddr index.toNat sub.toNat inst.toNat))) stWorld) := by
  rw [exec_registerWrite_named h]
  simp [regWrite, regWriteWith, hg, hr, secureWrite, hw, finish]

/-- A write that nothing refuses gives the entry the value, cut to the entry's size. -/
theorem exec_registerWrite_taken (h : regAt index.toNat sub.toNat = .ok r) (hg : writeGate s r inst.toNat = none)
    (hw : (regInfo r).secWrite = false ∨ secureWriter w = true) :
    exec (.registerWrite w index sub inst v) s = .next (finish (regSet (jobCtl w) w (winAddr index.toNat sub.toNat inst.toNat) r inst.toNat
      (v.toNat % 2 ^ (8 * (regInfo r).size)) s)) := by
  have he : regWrite w index.toNat sub.toNat inst.toNat r v.toNat s = regSet (jobCtl w) w (winAddr index.toNat sub.toNat inst.toNat) r inst.toNat
      (v.toNat % 2 ^ (8 * (regInfo r).size)) s := by
    simp only [regWrite, regWriteWith, hg, secureWrite]
    obtain hw | hw := hw <;> simp [hw]
  rw [exec_registerWrite_named h, he]

end

/-- The value of an entry of four bytes. -/
theorem ofNat_mod_eq_setWidth32 (v : BitVec 1024) : BitVec.ofNat 32 (v.toNat % 2 ^ (8 * 4)) = v.setWidth 32 := by
  apply BitVec.eq_of_toNat_eq
  simp

theorem landReg_writeLand (s : State) (u k : BitVec 8) (v : W32) : landReg (writeLand s u v) k = if k = u then v else landReg s k := by
  simp only [landReg, writeLand, mget_mset, BitVec.toNat_inj]

/-- Settles O53: the refusals in the order of the checks, then the two registers. -/
theorem registerWrites : Obligations.RegisterWrites := by
  intro s w index sub inst v
  refine ⟨fun c hc => exec_registerWrite_unnamed hc, fun e he => ⟨fun c hc => exec_registerWrite_gated he hc, ?_, ?_, ?_⟩⟩
  · intro hg hr hw
    have hs := writerErr_sev w (winAddr index.toNat sub.toNat inst.toNat)
    exact ⟨_, exec_registerWrite_world he hg hr hw, rfl, putErr_tiles _ _ hs, putErr_mod _ _ hs, putErr_regions _ _ hs, putErr_sec _ _ hs,
      putErr_net _ _ hs, putErr_power _ _ hs, putErr_jobs _ hs (writerErr_job _ _)⟩
  · rintro hg rfl hw
    refine ⟨_, exec_registerWrite_taken he hg hw, rfl, ?_, rfl, rfl⟩
    rw [← ofNat_mod_eq_setWidth32]
    rfl
  · rintro hg rfl hw
    refine ⟨_, exec_registerWrite_taken he hg hw, rfl, ?_, fun u hu => ?_⟩
    · rw [← ofNat_mod_eq_setWidth32]
      exact (landReg_writeLand _ _ _ _).trans (if_pos rfl)
    · exact (landReg_writeLand _ _ _ _).trans (if_neg hu)

end Sys2Proof.Machine
end

section
/-!
PROOFS of the statements of the family '01_module.md': a record of no job changes the log and the management port alone; what a stack of
memory does with a good block, its patrol and its recalibration.
-/
namespace Sys2Proof.Machine
open Sys2Proof

/-! ## Records of no job and events (R457, R462, R531) -/

/-- The same state but for the log and the management port, whose address stays accepted or refused. -/
structure Recorded (s t : State) : Prop where
  same : t = { s with log := t.log, mgmt := t.mgmt }
  addrOk : t.mgmt.addrOk = s.mgmt.addrOk

namespace Recorded
variable {s t u : State}

theorem refl (s : State) : Recorded s s := ⟨rfl, rfl⟩

theorem trans (h : Recorded s t) (k : Recorded t u) : Recorded s u := by
  obtain ⟨hs, ha⟩ := h
  obtain ⟨ks, ka⟩ := k
  refine ⟨?_, ka.trans ha⟩
  rw [ks, hs]

theorem mod (h : Recorded s t) : t.mod = s.mod := by rw [h.same]
theorem hbm (h : Recorded s t) : t.hbm = s.hbm := by rw [h.same]
theorem hbmStacks (h : Recorded s t) : t.hbmStacks = s.hbmStacks := by rw [h.same]
theorem net (h : Recorded s t) : t.net = s.net := by rw [h.same]
theorem win (h : Recorded s t) : t.win = s.win := by rw [h.same]
theorem regions (h : Recorded s t) : t.regions = s.regions := by rw [h.same]
theorem fw (h : Recorded s t) : t.fw = s.fw := by rw [h.same]
theorem getStack (h : Recorded s t) (n : Nat) : getStack t n = Machine.getStack s n := by unfold Machine.getStack; rw [h.hbmStacks]

theorem pump (n : Nat) (s : State) : Recorded s (pumpEvents n s) := by
  refine ⟨by rw [pumpEvents_mgmt], ?_⟩
  induction n generalizing s with
  | zero => rfl
  | succ n ih =>
    simp only [pumpEvents]
    split
    · rfl
    · split
      · exact ih _
      · rfl

theorem event (s : State) (k : Nat) (o : W16) (b : List Byte) (v : BitVec 2) : Recorded s (raiseEvent s k o b v) := by
  have queued : ∀ m : Mgmt, m.addrOk = s.mgmt.addrOk → Recorded s (pumpEvents 16 { s with mgmt := m }) := fun m hm =>
    trans ⟨rfl, hm⟩ (pump 16 _)
  unfold raiseEvent
  split
  · apply queued
    repeat' split
    all_goals rfl
  · exact refl s

/-- A record that is not FATAL and of no job. -/
theorem record (s : State) {r : ErrRec} (hs : r.sev ≠ 3) (hj : r.jobValid = false) : Recorded s (putRecord s r).1 := by
  simp only [putRecord, hs, if_false, ringAppend_of_noJob _ hj]
  split
  · refine trans ?_ (event _ _ _ _ _)
    exact ⟨rfl, rfl⟩
  · exact ⟨rfl, rfl⟩

theorem err1 (s : State) {e : Err} (hs : e.sev ≠ 3) (hj : e.job = none) : Recorded s (putErr1 s e).1 := by
  have hr : (errRec s e).jobValid = false := by simp [errRec, hj]
  unfold putErr1
  split
  · exact ⟨rfl, rfl⟩
  · refine trans ?_ (record _ hs hr)
    split <;> exact ⟨rfl, rfl⟩

/-- An error that is not FATAL and of no job, with the LOG_LOST summary where a record is lost. -/
theorem err (s : State) {e : Err} (hs : e.sev ≠ 3) (hj : e.job = none) : Recorded s (putErr s e) := by
  have h1 : Recorded s (putErr1 s e).1 := err1 s hs hj
  simp only [putErr, hj]
  split
  · exact h1.trans (err1 _ (by simp [lostErr]) rfl)
  · exact h1

theorem stackSt (s : State) (n : Nat) (f : Stack → Stack) : Recorded (putStack s n (f (Machine.getStack s n))) (setStackSt s n f) := event _ _ _ _ _

end Recorded

/-! ## Stacks (R327) -/

@[simp] theorem getStack_putStack (s : State) (n : Nat) (k : Stack) : getStack (putStack s n k) n = k := mget_mset_same _ _ _ _

@[simp] theorem getStack_setStackSt (s : State) (n : Nat) (f : Stack → Stack) : getStack (setStackSt s n f) n = f (getStack s n) := by
  rw [(Recorded.stackSt s n f).getStack, getStack_putStack]

@[simp] theorem setStackSt_hbm (s : State) (n : Nat) (f : Stack → Stack) : (setStackSt s n f).hbm = s.hbm := (Recorded.stackSt s n f).hbm

theorem paStack_stack (n : Fin 12) (off : BitVec 36) : paStack (n.val * 2 ^ 36 + off.toNat) = n.val := by
  unfold paStack; omega

theorem stack_add_mod (n : Fin 12) (off : BitVec 36) : (n.val * 2 ^ 36 + off.toNat) % 2 ^ 36 = off.toNat := by omega

theorem stackUp_of_stackServes {s : State} {n : Nat} (h : stackServes s n = true) : stackUp s n = true := by
  simp only [stackServes, stackUp, Bool.and_eq_true, decide_eq_true_eq, Bool.or_eq_true] at h ⊢
  exact ⟨h.1.1, .inl h.1.2⟩

theorem ready_of_stackServes {s : State} {n : Nat} (h : stackServes s n = true) : (getStack s n).st = .ready := by
  simp only [stackServes, Bool.and_eq_true, decide_eq_true_eq] at h
  exact h.1.2

/-! ## Blocks (R314-R316) -/

theorem find?_mins_self {α : Type} (k : Nat) (v : α) (m : SMap α) (h : ∀ e ∈ m, e.1 ≠ k) :
    (mins k v m).find? (fun e => decide (e.1 = k)) = some (k, v) := by
  induction m with
  | nil => simp [mins]
  | cons e t ih =>
    obtain ⟨a, x⟩ := e
    have hne : a ≠ k := h (a, x) (by simp)
    unfold mins
    split
    · simp
    · simp [hne, ih fun e he => h e (by simp [he])]

@[simp] theorem blkSt_setBlkSt (k : Stack) (b : Nat) (v : BlkSt) : blkSt (setBlkSt k b v) b = some v := by
  simp [blkSt, setBlkSt, find?_mins_self _ _ _ (merase_fresh _ _)]

/-- A block rewritten holds a good code; the others are as before. -/
theorem blkSt_cleanBlk (k : Stack) (b c : Nat) : blkSt (cleanBlk k b) c = if c = b then none else blkSt k c := by
  unfold blkSt cleanBlk merase
  rw [List.find?_filter]
  split
  · next h => simp [h]
  · next h =>
    congr 2
    funext e
    by_cases hc : e.1 = c
    · simp [hc, h]
    · simp [hc]

@[simp] theorem retireFrame_blocks (k : Stack) (b : Nat) : (retireFrame k b).blocks = k.blocks := by
  simp only [retireFrame]; split <;> rfl
@[simp] theorem retireFrame_ue (k : Stack) (b : Nat) : (retireFrame k b).ue = k.ue := by
  simp only [retireFrame]; split <;> rfl

theorem blkSt_poisonBlk (k : Stack) (b : Nat) : blkSt (poisonBlk k b) b = some .poisoned := by
  unfold poisonBlk
  dsimp only
  unfold blkSt
  rw [retireFrame_blocks]
  exact blkSt_setBlkSt k b .poisoned

theorem poisonBlk_ue (k : Stack) (b : Nat) : (poisonBlk k b).ue = k.ue + 1 := retireFrame_ue _ _

theorem readBlk_good {k : Stack} {t : W64} {b : Nat} (h : blkSt k b = none) : readBlk k t b = (k, true) := by simp only [readBlk, h]
theorem readBlk_correctable {k : Stack} {t : W64} {b : Nat} (h : blkSt k b = some .correctable) :
    readBlk k t b = ({ countCe k t b with writebacks := if k.writebacks.contains b then k.writebacks else k.writebacks ++ [b] }, true) := by
  simp only [readBlk, h]
theorem readBlk_uncorrectable {k : Stack} {t : W64} {b : Nat} (h : blkSt k b = some .uncorrectable) : readBlk k t b = (poisonBlk k b, false) := by
  simp only [readBlk, h]
theorem writeBlk_good {k : Stack} {t : W64} {b : Nat} {w : Bool} (h : blkSt k b = none) : writeBlk k t b w = (cleanBlk k b, true) := by
  simp only [writeBlk, h]

theorem mem_appended_once (l : List Nat) (b : Nat) : b ∈ (if l.contains b then l else l ++ [b]) := by
  split
  · next h => simpa using h
  · simp

/-! ## Accesses within one block (R22, R314) -/

theorem blkPieces_within {fuel a : Nat} {bs : List Byte} (hf : 1 < fuel) (hne : bs ≠ []) (h : a % 64 + bs.length ≤ 64) :
    blkPieces fuel a bs = [(a, bs)] := by
  obtain ⟨fuel, rfl⟩ : ∃ k, fuel = k + 2 := ⟨fuel - 2, by omega⟩
  have ht : bs.take (64 - a % 64) = bs := List.take_of_length_le (by omega)
  have hd : bs.drop (64 - a % 64) = [] := List.drop_of_length_le (by omega)
  simp [blkPieces, hne, ht, hd]

section access
variable {s : State} {pa : Nat}

/-- A piece written to a good block of a stack that serves. -/
theorem hbmPut1_good (hu : stackUp s (paStack pa) = true) (hb : blkSt (getStack s (paStack pa)) (pa % 2 ^ 36 / 64) = none) (bs : List Byte) :
    hbmPut1 s pa bs = ({ putStack s (paStack pa) (cleanBlk (getStack s (paStack pa)) (pa % 2 ^ 36 / 64)) with hbm := wrBytes s.hbm pa bs }, stOk) := by
  simp only [hbmPut1, hu, if_true, writeBlk_good hb]
  rfl

theorem hbmStore_good (hu : stackUp s (paStack pa) = true) (hb : blkSt (getStack s (paStack pa)) (pa % 2 ^ 36 / 64) = none) {bs : List Byte} (hne : bs ≠ [])
    (hw : pa % 64 + bs.length ≤ 64) :
    hbmStore s pa bs none = ({ putStack s (paStack pa) (cleanBlk (getStack s (paStack pa)) (pa % 2 ^ 36 / 64)) with hbm := wrBytes s.hbm pa bs }, stOk) := by
  have hf : 1 < bs.length + 1 := by have := List.length_pos_iff.mpr hne; omega
  have hp : hbmPut s pa bs = hbmPut1 s pa bs := by
    simp only [hbmPut, blkPieces_within hf hne hw, List.foldl_cons, List.foldl_nil]
    rfl
  have hc : stOk ≠ cHbmData := by decide
  simp only [hbmStore, hp, hbmPut1_good hu hb, hc, if_false]

theorem hbmLoad_good (hu : stackUp s (paStack pa) = true) (hb : blkSt (getStack s (paStack pa)) (pa % 2 ^ 36 / 64) = none) {len : Nat} (hl : 0 < len)
    (hw : pa % 64 + len ≤ 64) :
    hbmLoad s pa len none = (putStack s (paStack pa) (getStack s (paStack pa)), rdBytes s.hbm pa len, stOk) := by
  have hlen : (hbmBytes s pa len).length = len := by simp [hbmBytes, rdBytes]
  have hne : hbmBytes s pa len ≠ [] := List.length_pos_iff.mp (by omega)
  have hg : hbmGet s pa len = (putStack s (paStack pa) (getStack s (paStack pa)), rdBytes s.hbm pa len, stOk) := by
    have hp : blkPieces (len + 1) pa (hbmBytes s pa len) = [(pa, hbmBytes s pa len)] := blkPieces_within (by omega) hne (by omega)
    simp only [hbmGet, hp, List.foldl_cons, List.foldl_nil, hu, if_true, readBlk_good hb]
    rfl
  have hc : stOk ≠ cHbmData := by decide
  simp only [hbmLoad, hg, hc, if_false]

theorem copiesOf_single (h : reserveStack (paStack pa) = false ∨ pa % 2 ^ 36 < 0xFC0000000) (w : Bool) : copiesOf s pa w = [pa] := by
  have hc : ¬ (reserveStack (paStack pa) && decide (0xFC0000000 ≤ pa % 2 ^ 36)) = true := by
    simp only [Bool.and_eq_true, decide_eq_true_eq]
    rintro ⟨hr, hp⟩
    obtain h | h := h
    · simp [h] at hr
    · omega
  simp only [copiesOf, if_neg hc]

theorem securePa_of_no_regions (h : s.regions = []) (pa : Nat) : securePa s pa = false := by simp [securePa, h]

end access

/-! ## Accesses of a control-die core (R22, R316, R482, R486) -/

section direct
variable {s : State} {n : Fin 12} {core : Fin 18} {off : BitVec 36}

/-- An access of a core reaches the stack but for the time of a recalibration (R320). -/
theorem exec_hbmRequestServe_direct (h : (getStack s n).st ≠ .recal) (a : MemAccess) :
    exec (.hbmRequestServe n (some (core, off, a))) s = .next (directAccess s core (n.val * 2 ^ 36 + off.toNat) a) := by
  show execHbmRequestServe n (some (core, off, a)) s = _
  simp only [execHbmRequestServe, h, if_false]

theorem directAccess_write {pa : Nat} {bs : List Byte} {t : State} (hr : s.regions = []) (hc : copiesOf s pa true = [pa])
    (ht : hbmStore s pa bs none = (t, stOk)) : directAccess s core pa (.write bs) = setStatus t stOk := by
  simp [directAccess, securePa_of_no_regions hr, hc, ht, finish]

theorem directAccess_read {pa len : Nat} {bs : List Byte} {t : State} (hr : s.regions = []) (hc : copiesOf s pa false = [pa])
    (ht : hbmLoad s pa len none = (t, bs, stOk)) :
    directAccess s core pa (.read len)
      = setStatus { t with win := mset WinCore.reset t.win core.val { mget WinCore.reset t.win core.val with sample := bs } } stOk := by
  simp [directAccess, securePa_of_no_regions hr, hc, ht]

/-- The non-secure world at a secure address: a record, and nothing is read or written. -/
theorem directAccess_world {pa : Nat} (hc : core.val < 16) (hp : securePa s pa = true) (a : MemAccess) :
    directAccess s core pa a = setStatus (putErr s (worldErr 9 (BitVec.ofNat 16 core.val) 15 none pa)) stWorld := by
  have hw : secureWriter (.core core) = false := by simp [secureWriter, hc]
  unfold directAccess
  dsimp only
  rw [hw, if_pos]
  simp only [Bool.not_false, Bool.true_and, List.any_eq_true, List.mem_range, Bool.and_eq_true, decide_eq_true_eq]
  exact ⟨0, by omega, by omega, by simpa using hp⟩

/-- Bytes within a good block of a stack that serves: a core writes them, and reads them back. -/
theorem core_access_good (bs : List Byte) (len : Nat) (hs : stackServes s n = true) (hr : s.regions = [])
    (hb : blkSt (getStack s n) (off.toNat / 64) = none) (hp : reserveStack n = false ∨ off.toNat < 0xFC0000000) :
    let pa := n.val * 2 ^ 36 + off.toNat
    (bs ≠ [] → off.toNat % 64 + bs.length ≤ 64 → Goes (exec (.hbmRequestServe n (some (core, off, .write bs))) s) fun t => t.status = 0
      ∧ (∀ i, i < bs.length → mget 0 t.hbm (pa + i) = bs.getD i 0) ∧ ∀ a, a < pa ∨ pa + bs.length ≤ a → mget 0 t.hbm a = mget 0 s.hbm a)
    ∧ (0 < len → off.toNat % 64 + len ≤ 64 → Goes (exec (.hbmRequestServe n (some (core, off, .read len))) s) fun t => t.status = 0 ∧ t.hbm = s.hbm
      ∧ (mget WinCore.reset t.win core.val).sample = rdBytes s.hbm pa len) := by
  intro pa
  have hpn : paStack pa = n.val := paStack_stack n off
  have hpo : pa % 2 ^ 36 = off.toNat := stack_add_mod n off
  have hp64 : pa % 64 = off.toNat % 64 := by omega
  have hu : stackUp s (paStack pa) = true := by rw [hpn]; exact stackUp_of_stackServes hs
  have hb' : blkSt (getStack s (paStack pa)) (pa % 2 ^ 36 / 64) = none := by rw [hpn, hpo]; exact hb
  have hc : ∀ w, copiesOf s pa w = [pa] := copiesOf_single (by rw [hpn, hpo]; exact hp)
  have hst : (getStack s n).st ≠ .recal := by rw [ready_of_stackServes hs]; decide
  constructor
  · intro hne hw
    refine ⟨_, (exec_hbmRequestServe_direct hst _).trans (congrArg _ (directAccess_write hr (hc true) (hbmStore_good hu hb' hne (by omega)))), rfl, ?_, ?_⟩
    · intro i hi
      refine (mget_wrBytes _ _ _ _).trans ?_
      rw [if_pos (by omega), Nat.add_sub_cancel_left]
    · intro a ha
      refine (mget_wrBytes _ _ _ _).trans ?_
      rw [if_neg (by omega)]
  · intro hl hw
    refine ⟨_, (exec_hbmRequestServe_direct hst _).trans (congrArg _ (directAccess_read hr (hc false) (hbmLoad_good hu hb' hl (by omega)))), rfl, rfl, ?_⟩
    simp

theorem core_access_secure (hs : (getStack s n).st ≠ .recal) (hc : core.val < 16) (hp : securePa s (n.val * 2 ^ 36 + off.toNat) = true) (a : MemAccess) :
    Goes (exec (.hbmRequestServe n (some (core, off, a))) s) fun t => t.status = stWorld ∧ t.hbm = s.hbm ∧ t.win = s.win := by
  have h : Recorded s (putErr s (worldErr 9 (BitVec.ofNat 16 core.val) 15 none (n.val * 2 ^ 36 + off.toNat))) := .err _ (by simp [worldErr]) rfl
  exact ⟨_, (exec_hbmRequestServe_direct hs a).trans (congrArg _ (directAccess_world hc hp a)), rfl, h.hbm, h.win⟩

end direct

/-! ## Requests of transfers (R269, R317) -/

section request
variable {s : State} {n : Fin 12} {m : MemReq} {rest : List MemReq} {l : Leg} {st : StepRec}

/-- The state once the oldest request has left its stack's queue. -/
def dequeued (s : State) (n : Nat) (rest : List MemReq) : State := putStack s n { getStack s n with reqs := rest }

theorem getStack_dequeued (s : State) (n : Nat) (rest : List MemReq) : getStack (dequeued s n rest) n = { getStack s n with reqs := rest } :=
  getStack_putStack _ _ _

theorem stackUp_dequeued (s : State) (n : Nat) (rest : List MemReq) : stackUp (dequeued s n rest) n = stackUp s n := by
  simp only [stackUp, getStack_dequeued]

theorem exec_hbmRequestServe_oldest (h : stackServes s n = true) (hq : (getStack s n).reqs = m :: rest) :
    exec (.hbmRequestServe n none) s = .next (serveReq (dequeued s n rest) n m) := by
  show execHbmRequestServe n none s = _
  simp only [execHbmRequestServe, hq, h, if_true]
  rfl

@[simp] theorem getRec_modRec (s : State) (d : Nat) (r : BitVec 9) (f : XferRec → XferRec) : getRec (getDie (modRec s d r f) d) r = f (getRec (getDie s d) r) := by
  simp [modRec, modDie, getDie, getRec, putRec]

@[simp] theorem getDie_putStack (s : State) (n : Nat) (k : Stack) (d : Nat) : getDie (putStack s n k) d = getDie s d := rfl

/-- A write of a step with more writes to come. -/
theorem serveReq_write {bs : List Byte} (ht : stackUp s n = true) (hn : paStack m.pa = n.val) (hw : m.world = true ∨ securePa s m.pa = false)
    (hb : blkSt (getStack s n) (m.pa % 2 ^ 36 / 64) = none) (hf : findStep (getRec (getDie s m.die) m.xrec) m.step = some (l, st)) (hm : m.write = some bs)
    (h1 : 1 < st.writes) :
    serveReq s n m = modRec { putStack s n (cleanBlk (getStack s n) (m.pa % 2 ^ 36 / 64)) with hbm := wrBytes s.hbm m.pa bs } m.die m.xrec
      fun x => modStep x m.step fun t => { t with writes := t.writes - 1 } := by
  have hsec : (!m.world && securePa s m.pa) = false := by obtain h | h := hw <;> simp [h]
  have hp := hbmPut1_good (s := s) (pa := m.pa) (by rw [hn]; exact ht) (by rw [hn]; exact hb) bs
  rw [hn] at hp
  have hx : ¬ st.writes ≤ 1 := by omega
  generalize ht' : ({ putStack s n (cleanBlk (getStack s n) (m.pa % 2 ^ 36 / 64)) with hbm := wrBytes s.hbm m.pa bs } : State) = t at hp ⊢
  have hf' : findStep (getRec (getDie t m.die) m.xrec) m.step = some (l, st) := by rw [← ht']; exact hf
  simp only [serveReq, hsec, Bool.false_eq_true, if_false, hm, hp, hf', hx]

/-- A read of a step with more reads to come. -/
theorem serveReq_read (hw : m.world = true ∨ securePa s m.pa = false)
    (hb : blkSt (getStack s n) (m.pa % 2 ^ 36 / 64) = none) (hf : findStep (getRec (getDie s m.die) m.xrec) m.step = some (l, st)) (hm : m.write = none)
    (h1 : 1 < st.reads) :
    serveReq s n m = modRec (putStack s n (getStack s n)) m.die m.xrec
      fun x => modStep x m.step fun t => { t with data := wrBytes t.data (64 * m.idx) (rdBytes s.hbm m.pa 64), reads := t.reads - 1 } := by
  have hsec : (!m.world && securePa s m.pa) = false := by obtain h | h := hw <;> simp [h]
  have hx : ¬ st.reads ≤ 1 := by omega
  simp only [serveReq, hsec, Bool.false_eq_true, if_false, hm, readBlk_good hb, getDie_putStack, hf, hx, if_true]
  rfl

section served
variable (hs : stackServes s n = true) (hq : (getStack s n).reqs = m :: rest) (hw : m.world = true ∨ securePa s m.pa = false)
  (hb : blkSt (getStack s n) (m.pa % 2 ^ 36 / 64) = none) (hf : findStep (getRec (getDie s m.die) m.xrec) m.step = some (l, st))
include hs hq hw hb hf

theorem oldest_write_served {bs : List Byte} (hn : paStack m.pa = n.val) (hm : m.write = some bs) (h1 : 1 < st.writes) :
    Goes (exec (.hbmRequestServe n none) s) fun t => (getStack t n).reqs = rest
      ∧ (∀ i, i < bs.length → mget 0 t.hbm (m.pa + i) = bs.getD i 0) ∧ ∀ a, a < m.pa ∨ m.pa + bs.length ≤ a → mget 0 t.hbm a = mget 0 s.hbm a := by
  have hk := getStack_dequeued s n rest
  have hu : stackUp (dequeued s n rest) n = true := (stackUp_dequeued s n rest).trans (stackUp_of_stackServes hs)
  refine ⟨_, (exec_hbmRequestServe_oldest hs hq).trans (congrArg _ (serveReq_write hu hn hw ?_ hf hm h1)), ?_, fun i hi => ?_, fun a ha => ?_⟩
  · exact (congrArg (blkSt · _) hk).trans hb
  · exact (congrArg Stack.reqs (getStack_putStack _ _ _)).trans (congrArg Stack.reqs hk)
  · refine (mget_wrBytes _ _ _ _).trans ?_
    rw [if_pos (by omega), Nat.add_sub_cancel_left]
  · exact (mget_wrBytes _ _ _ _).trans (if_neg (by omega))

theorem oldest_read_served (hm : m.write = none) (h1 : 1 < st.reads) :
    Goes (exec (.hbmRequestServe n none) s) fun t => (getStack t n).reqs = rest ∧ t.hbm = s.hbm
      ∧ getRec (getDie t m.die) m.xrec = modStep (getRec (getDie s m.die) m.xrec) m.step fun y =>
          { y with data := wrBytes y.data (64 * m.idx) (rdBytes s.hbm m.pa 64), reads := y.reads - 1 } := by
  have hk := getStack_dequeued s n rest
  refine ⟨_, (exec_hbmRequestServe_oldest hs hq).trans (congrArg _ (serveReq_read hw ?_ hf hm h1)), ?_, rfl, getRec_modRec _ _ _ _⟩
  · exact (congrArg (blkSt · _) hk).trans hb
  · exact (congrArg Stack.reqs (getStack_putStack _ _ _)).trans (congrArg Stack.reqs hk)

end served

end request

/-! ## Write-backs and patrol (R315-R317, R319) -/

section patrol
variable {s : State} {n : Fin 12} {b : Nat} {rest : List Nat}

theorem exec_hbmWriteback_oldest (h : stackServes s n = true) (hw : (getStack s n).writebacks = b :: rest) :
    exec (.hbmWriteback n) s = .next (putStack s n (if blkSt (getStack s n) b = some .correctable && !reqWrites (getStack s n) b
      then cleanBlk { getStack s n with writebacks := rest } b else { getStack s n with writebacks := rest })) := by
  show execHbmWriteback n s = _
  simp only [execHbmWriteback, hw, h, if_true]
  rfl

theorem oldest_writeback_cleans (h : stackServes s n = true) (hw : (getStack s n).writebacks = b :: rest)
    (hb : blkSt (getStack s n) b = some .correctable) (hr : reqWrites (getStack s n) b = false) :
    Goes (exec (.hbmWriteback n) s) fun t => blkSt (getStack t n) b = none ∧ t.hbm = s.hbm
      ∧ ∀ c, c ≠ b → blkSt (getStack t n) c = blkSt (getStack s n) c := by
  have he := exec_hbmWriteback_oldest h hw
  rw [if_pos (by simp [hb, hr])] at he
  refine ⟨_, he, ?_, rfl, fun c hc => ?_⟩
  · rw [getStack_putStack, blkSt_cleanBlk, if_pos rfl]
  · rw [getStack_putStack, blkSt_cleanBlk, if_neg hc]; rfl

theorem oldest_writeback_drops (h : stackServes s n = true) (hw : (getStack s n).writebacks = b :: rest)
    (hb : blkSt (getStack s n) b ≠ some .correctable ∨ reqWrites (getStack s n) b = true) :
    exec (.hbmWriteback n) s = .next (putStack s n { getStack s n with writebacks := rest }) := by
  rw [exec_hbmWriteback_oldest h hw, if_neg]
  obtain hb | hb := hb <;> simp [hb]

/-- Patrol reads its block and goes on to the next; one that delivers no data is recorded. -/
theorem exec_hbmPatrol {k : Stack} {ok : Bool} (h : stackServes s n = true) (hp : (getStack s n).patrol + 1 < 2 ^ 30)
    (hr : readBlk (getStack s n) s.mod.time (getStack s n).patrol = (k, ok)) :
    Goes (exec (.hbmPatrol n) s) fun t => getStack t n = { k with patrol := (getStack s n).patrol + 1 }
      ∧ (ok = true → t = putStack s n { k with patrol := (getStack s n).patrol + 1 }) := by
  have hl : decide (2 ^ 30 ≤ (getStack s n).patrol + 1) = false := by simp only [decide_eq_false_iff_not]; omega
  refine ⟨_, congrArg Host.Outcome.next (if_pos h), ?_⟩
  simp only [hr, hl]
  cases ok with
  | true => exact ⟨getStack_putStack _ _ _, fun _ => rfl⟩
  | false =>
    refine ⟨?_, Bool.noConfusion⟩
    rw [if_neg Bool.false_ne_true, (Recorded.err _ (by simp [hbmDataErr]) rfl).getStack, getStack_putStack]
    rfl

end patrol

/-! ## Writes that the secure world alone may make (R9, R482, R521) -/

section writes
variable {s : State} {w : Writer} {a d : Nat} {f : State → State × Byte}

theorem secureWrite_secure (h : secureWriter w = true) : secureWrite w a s f = f s := if_pos h

/-- From the non-secure world: a record, and WORLD_VIOLATION. -/
theorem secureWrite_world (h : secureWriter w = false) : ∃ t, Recorded s t ∧ finish (secureWrite w a s f) = setStatus t stWorld :=
  ⟨_, .err s (writerErr_sev w a) (writerErr_job w a), congrArg finish (if_neg (by simp [h]))⟩

theorem dieReg_ready (h : dieReady s d = true) : dieReg s d f = f s := if_pos h
theorem dieReg_lost (h : dieReady s d = false) : dieReg s d f = (s, cDieLost) := if_neg (by simp [h])

end writes

/-! ## Recalibration (R320-R324) -/

section recal
variable {s : State} {n : Nat} {lanes : List (Fin 32 × Byte)}

theorem serveIssued_of_no_reqs (h : (getStack s n).reqs = []) : serveIssued s n = s := by
  simp only [serveIssued, h, List.foldl_nil, ite_self]

theorem failReqs_of_no_reqs (h : (getStack s n).reqs = []) : failReqs s n = putStack s n { getStack s n with reqs := [] } := by
  simp only [failReqs, h, List.foldl_nil]

theorem putErr_hbm_of_noJob (s : State) {e : Err} (hs : e.sev ≠ 3) (hj : e.job = none) : (putErr s e).hbm = s.hbm := (Recorded.err s hs hj).hbm

theorem repairOutErr_hbm (s : State) (n p a : Nat) : (putErr s (repairOutErr n p a)).hbm = s.hbm := putErr_hbm_of_noJob s (by simp [repairOutErr]) rfl

theorem remapLane_hbm (s : State) (n : Nat) (l : Fin 32 × Byte) : (remapLane s n l).hbm = s.hbm := by
  unfold remapLane
  dsimp only [freshWord]
  split
  · exact putErr_hbm_of_noJob _ (by simp) rfl
  · exact (repairOutErr_hbm _ _ _ _).trans (putErr_hbm_of_noJob _ (by simp) rfl)

theorem repairRow_hbm (s : State) (n row : Nat) (blks : List Nat) : (repairRow s n row blks).hbm = s.hbm := by
  unfold repairRow
  dsimp only [freshBit]
  split
  · rfl
  · exact repairOutErr_hbm _ _ _ _

theorem repairRows_hbm (s : State) (n : Nat) : (repairRows s n).hbm = s.hbm :=
  Laws.foldl_keeps _ State.hbm (fun s _ => repairRow_hbm s n _ _) _ _

theorem repairStack_hbm (s : State) (n : Nat) (lanes : List (Fin 32 × Byte)) : (repairStack s n lanes).hbm = s.hbm :=
  (repairRows_hbm _ n).trans (Laws.foldl_keeps _ State.hbm (fun s l => remapLane_hbm s n l) _ _)

/-- No row stays marked, no lane stays failing, and no correction is counted for a lane. -/
theorem repairStack_repairs (s : State) (n : Nat) (lanes : List (Fin 32 × Byte)) :
    let k := getStack (repairStack s n lanes) n
    k.badRows = [] ∧ k.failing = [] ∧ k.laneErrs = [] := by
  simp only [repairStack, repairRows, getStack_putStack, and_self]

/-- No request waits: the recalibration repairs what it found, or fails. -/
theorem recalibrate_of_no_reqs (hq : (getStack s n).reqs = []) (ok : Bool) :
    recalibrate s n ok lanes =
      let r := setStackSt s n fun k => { k with st := .recal }
      let ls := (lanes ++ (getStack s n).failing).eraseDups
      if ok && sparesServe (getStack s n) ls then setStackSt (repairStack r n ls) n fun k => { k with st := .ready }
      else
        let u := setStackSt r n fun k => { k with st := .offline, spares := [], writebacks := [] }
        putErr (putStack u n { getStack u n with reqs := [] }) { cause := cHbmRecalFail, unit := 4, source := BitVec.ofNat 16 n, die := BitVec.ofNat 4 n } := by
  have hr : (getStack (setStackSt s n fun k => { k with st := .recal }) n).reqs = [] := by rw [getStack_setStackSt]; exact hq
  have hu : (getStack (setStackSt (setStackSt s n fun k => { k with st := .recal }) n fun k =>
      { k with st := .offline, spares := [], writebacks := [] }) n).reqs = [] := by rw [getStack_setStackSt]; exact hr
  simp only [recalibrate, serveIssued_of_no_reqs hr, failReqs_of_no_reqs hu, getStack_setStackSt]
  rfl

theorem recalibrate_repairs (hq : (getStack s n).reqs = []) (hf : sparesServe (getStack s n) (lanes ++ (getStack s n).failing).eraseDups = true) :
    let t := recalibrate s n true lanes
    (getStack t n).st = .ready ∧ (getStack t n).badRows = [] ∧ (getStack t n).failing = [] ∧ (getStack t n).laneErrs = [] ∧ t.hbm = s.hbm := by
  simp only [recalibrate_of_no_reqs hq, hf, Bool.and_self, if_true]
  obtain ⟨hr, hl, he⟩ := repairStack_repairs (setStackSt s n fun k => { k with st := .recal }) n (lanes ++ (getStack s n).failing).eraseDups
  simp only [getStack_setStackSt, setStackSt_hbm, repairStack_hbm, hr, hl, he, and_self]

theorem recalibrate_fails {ok : Bool} (hq : (getStack s n).reqs = [])
    (hf : ok = false ∨ ¬ sparesServe (getStack s n) (lanes ++ (getStack s n).failing).eraseDups = true) :
    let t := recalibrate s n ok lanes
    (getStack t n).st = .offline ∧ (getStack t n).spares = [] ∧ (getStack t n).writebacks = [] := by
  have hc : (ok && sparesServe (getStack s n) (lanes ++ (getStack s n).failing).eraseDups) = false := by
    obtain h | h := hf <;> simp [h]
  simp only [recalibrate_of_no_reqs hq, hc, Bool.false_eq_true, if_false]
  rw [(Recorded.err _ (by simp) rfl).getStack, getStack_putStack, getStack_setStackSt]
  exact ⟨rfl, rfl, rfl⟩

end recal

/-! ## What the commands of a stack answer (R315, R320, R327) -/

section commands
variable {s : State} {n : Fin 12} {w : Writer} {lanes : List (Fin 32 × Byte)}

theorem exec_hbmCeSummary_due (h : 0 < (getStack s n).ceSince)
    (hd : (getStack s n).ceSummaryAt = none ∨ ∃ t : W64, (getStack s n).ceSummaryAt = some t ∧ t.toNat + 1000000000 ≤ now s) :
    Goes (exec (.hbmCeSummary n) s) fun t => getStack t n = { getStack s n with ceSince := 0, ceSummaryAt := some s.mod.time } := by
  refine ⟨_, rfl, ?_⟩
  obtain hd | ⟨t, ht, hd⟩ := hd
  · simp only [h, hd, decide_true, Bool.and_self, if_true]
    rw [(Recorded.err _ (by simp) rfl).getStack, getStack_putStack]
  · simp only [h, ht, hd, decide_true, Bool.and_self, if_true]
    rw [(Recorded.err _ (by simp) rfl).getStack, getStack_putStack]

theorem exec_hbmCeSummary_not_due (h : (getStack s n).ceSince = 0
      ∨ ¬ ((getStack s n).ceSummaryAt = none ∨ ∃ t : W64, (getStack s n).ceSummaryAt = some t ∧ t.toNat + 1000000000 ≤ now s)) :
    exec (.hbmCeSummary n) s = .next s := by
  refine congrArg Host.Outcome.next (if_neg ?_)
  obtain h | h := h
  · simp [h]
  · cases ht : (getStack s n).ceSummaryAt with
    | none => exact absurd (.inl ht) h
    | some t =>
      simp only [Bool.and_eq_true, decide_eq_true_eq, not_and]
      exact fun _ hd => h (.inr ⟨t, ht, hd⟩)

theorem exec_hbmRecal_commanded (hw : secureWriter w = true) (hd : dieReady s n = true) (ok : Bool) :
    exec (.hbmRecal (some w) n ok lanes) s
      = .next (finish (if (getStack s n).st = .ready then (recalibrate s n ok lanes, stOk) else (s, stCfgBusy))) :=
  congrArg (fun r => Host.Outcome.next (finish r)) ((secureWrite_secure hw).trans (dieReg_ready hd))

/-- Under AUTO_RECAL, with a lane beyond LANE_LIMIT. -/
theorem exec_hbmRecal_auto (hc : bitAt (getStack s n).cfg 31 = true) (hs : (getStack s n).st = .ready)
    (hl : ∃ e ∈ (getStack s n).laneErrs, laneOver (getStack s n) s.mod.time (e.1, e.2.1) = true) (ok : Bool) :
    exec (.hbmRecal none n ok lanes) s = .next (recalibrate s n ok lanes) := by
  refine congrArg Host.Outcome.next (if_pos ?_)
  simp only [hc, hs, decide_true, Bool.true_and, List.any_eq_true]
  exact hl

theorem exec_hbmRecal_not_auto (hc : bitAt (getStack s n).cfg 31 = false) (ok : Bool) : exec (.hbmRecal none n ok lanes) s = .next s :=
  congrArg Host.Outcome.next (if_neg (by simp [hc]))

theorem exec_hbmPatrolRestart_secure (hw : secureWriter w = true) :
    exec (.hbmPatrolRestart w n) s = .next (finish (dieReg s n fun s => (putStack s n { getStack s n with patrol := 0 }, stOk))) :=
  congrArg (fun r => Host.Outcome.next (finish r)) (secureWrite_secure hw)

end commands

/-! ## The statement -/

/-- Settles O30: the accesses to a good block, patrol and write-back; then the commands. -/
theorem stacksOfMemory : Obligations.StacksOfMemory := by
  refine ⟨fun s n => ⟨?direct, ?world, ?request, ?writeback, fun _ => rfl, ?patrol⟩,
    fun s n w lanes => ⟨?summary, ?noSummary, ?commanded, ?auto, ?notAuto, ?lost, ?refused⟩⟩
  case direct => exact fun core off bs len hs hr hb hp => core_access_good bs len hs hr hb hp
  case world => exact fun core off a hs hc hp => core_access_secure hs hc hp a
  case request =>
    exact fun m rest l st hs hq hn hw hb hf =>
      ⟨fun bs => oldest_write_served hs hq hw hb hf hn, oldest_read_served hs hq hw hb hf⟩
  case writeback => exact fun b rest hs hw => ⟨oldest_writeback_cleans hs hw, oldest_writeback_drops hs hw⟩
  case patrol =>
    intro hs hp
    refine ⟨fun hb => ?_, fun hb => ?_, fun hb => ?_⟩
    · obtain ⟨t, ht, -, he⟩ := exec_hbmPatrol hs hp (readBlk_good hb)
      exact ht.trans (congrArg _ (he rfl))
    · obtain ⟨t, ht, hk, -⟩ := exec_hbmPatrol hs hp (readBlk_correctable hb)
      refine ⟨t, ht, ?_⟩
      dsimp only
      rw [hk]
      exact ⟨rfl, rfl, mem_appended_once _ _, rfl⟩
    · obtain ⟨t, ht, hk, -⟩ := exec_hbmPatrol hs hp (readBlk_uncorrectable hb)
      refine ⟨t, ht, ?_⟩
      dsimp only
      rw [hk]
      exact ⟨poisonBlk_ue _ _, blkSt_poisonBlk _ _, rfl⟩
  case summary => exact exec_hbmCeSummary_due
  case noSummary => exact exec_hbmCeSummary_not_due
  case commanded =>
    intro hw hd
    have hr := exec_hbmRecal_commanded (lanes := lanes) hw hd
    refine ⟨fun hs hq hf => ?_, fun ok hs hq hf => ?_, fun hs ok => ?_, ?_⟩
    · exact ⟨_, (hr true).trans (congrArg _ (congrArg finish (if_pos hs))), rfl, recalibrate_repairs hq hf⟩
    · exact ⟨_, (hr ok).trans (congrArg _ (congrArg finish (if_pos hs))), rfl, recalibrate_fails hq hf⟩
    · exact (hr ok).trans (congrArg _ (congrArg finish (if_neg hs)))
    · exact (exec_hbmPatrolRestart_secure hw).trans (congrArg _ (congrArg finish (dieReg_ready hd)))
  case auto =>
    intro hc hs hq hf hl
    exact ⟨_, exec_hbmRecal_auto hc hs hl true, recalibrate_repairs hq hf⟩
  case notAuto => exact exec_hbmRecal_not_auto
  case lost =>
    intro hw hd
    exact (exec_hbmPatrolRestart_secure hw).trans (congrArg _ (congrArg finish (dieReg_lost hd)))
  case refused =>
    intro hw
    constructor
    · obtain ⟨t, ht, he⟩ := secureWrite_world hw
      exact ⟨_, congrArg Host.Outcome.next he, rfl, ht.hbmStacks⟩
    · intro ok
      obtain ⟨t, ht, he⟩ := secureWrite_world hw
      exact ⟨_, congrArg Host.Outcome.next he, rfl, ht.hbmStacks⟩

end Sys2Proof.Machine
end

section
/-!
PROOFS of the statements of the family '01_module.md', continued: edges, UCIe modules, the reference, clocks, the time base and module reset.
-/
namespace Sys2Proof.Machine
open Sys2Proof

/-! ## Edges by number (R424-R426) -/

/-- Edge e reads as y, and every other edge as before. -/
def EdgeSet (s : State) (e : Nat) (y : Edge) (t : State) : Prop := getEdge t e = y ∧ ∀ i, i ≠ e → getEdge t i = getEdge s i

theorem edgeSet_putEdge (s : State) (e : Nat) (y : Edge) : EdgeSet s e y (putEdge s e y) :=
  ⟨mget_mset_same _ _ _ _, fun _ hi => mget_mset_other _ _ _ hi⟩

theorem EdgeSet.of_edges_eq {s t u : State} {e : Nat} {y : Edge} (h : EdgeSet s e y t) (hu : u.net.edges = t.net.edges) : EdgeSet s e y u := by
  obtain ⟨h1, h2⟩ := h
  unfold EdgeSet getEdge at *
  rw [hu]
  exact ⟨h1, h2⟩

theorem putErr_edges (s : State) {e : Err} (h : e.sev ≠ 3) : (putErr s e).net.edges = s.net.edges := by rw [putErr_net s e h]

theorem bitAt_setFld_one {w : Nat} (x : BitVec w) {i : Nat} (h : i < w) : bitAt (setFld x i 1 1) i = true := by
  have hb : (BitVec.ofNat w (2 ^ i)).getLsbD i = true := by rw [BitVec.getLsbD_ofNat, Nat.testBit_two_pow_self]; simpa using h
  have hm : maskAt w i 1 = BitVec.ofNat w (2 ^ i) := by simp only [maskAt, pow_one, Nat.reduceSub, one_mul]
  have hs : setFld x i 1 1 = merge (maskAt w i 1) x (BitVec.ofNat w (2 ^ i)) := by simp only [setFld, pow_one, Nat.reduceMod, one_mul]
  rw [hs, hm, bitAt, merge, BitVec.getLsbD_or, BitVec.getLsbD_and (y := BitVec.ofNat w (2 ^ i)), hb, Bool.and_self, Bool.or_true]

/-! ## An edge that fails takes the blocks at its link ends (R280, R426) -/

theorem payLate_net (s : State) (l : Late) (st : Byte) : (payLate s l st).net = s.net := by
  unfold payLate; split <;> rfl

theorem settleInval_net (s : State) : (settleInval s).net = s.net := by
  unfold settleInval; split
  · exact payLate_net _ _ _
  · rfl

theorem parkFault_net (s : State) (d : Nat) (r : BitVec 9) (l : Leg) (f : BitVec 3 × Bool × W64) : (parkFault s d r l f).net = s.net :=
  putErr_net _ _ (by simp [streamErr])

theorem settleRec_net (s : State) (d : Nat) (r : BitVec 9) : (settleRec s d r).net = s.net := by
  unfold settleRec
  dsimp only
  split
  · rfl
  · split
    · split <;> rfl
    · split
      · split
        · split
          · exact parkFault_net _ _ _ _ _
          · rfl
        · rfl
      · rfl

theorem stepGone_net (s : State) (d : Nat) (r : BitVec 9) (id : Nat) : (stepGone s d r id).net = s.net :=
  (settleRec_net _ _ _).trans (settleInval_net _)

theorem stepFails_net (s : State) (d : Nat) (r : BitVec 9) (id : Nat) (c : Byte) (i : Option W64) : (stepFails s d r id c i).net = s.net := by
  unfold stepFails
  dsimp only
  split
  · exact stepGone_net _ _ _ _
  · rfl

theorem loseBlk_edges (s : State) (i : Nat) (b : Block) (c : Byte) : (loseBlk s i b c).net.edges = s.net.edges := by
  unfold loseBlk
  split
  · rw [stepFails_net]; rfl
  · rfl

theorem markTiles_edges (s : State) (b : Block) (ts : List W16) (c : Byte) : (markTiles s b ts c).net.edges = s.net.edges := by
  unfold markTiles
  split
  · rfl
  · exact Laws.foldl_keeps (fun s t => addMarker s t b.acnt c b.job) (fun s : State => s.net.edges) (fun _ _ => rfl) ts s

theorem dropLink_edges (s : State) (i : Nat) (b : Block) (ts : List W16) : (dropLink s i b ts).net.edges = s.net.edges := by
  unfold dropLink
  rw [markTiles_edges, putErr_edges _ (by simp [routerErr]), loseBlk_edges]

theorem edgeDown_closes (s : State) (e : Nat) : EdgeSet s e { getEdge s e with st := 0 } (edgeDown s e) := by
  refine (edgeSet_putEdge s e _).of_edges_eq ?_
  unfold edgeDown
  rw [putErr_edges _ (by simp [edgeErr])]
  exact Laws.foldl_keeps _ (fun s : State => s.net.edges) (fun s b => dropLink_edges s _ _ _) _ _

/-! ## A link that retrains (R424) -/

section link
variable {s : State} {edge : Fin 16} {link : Fin 24} {remapped trains : Bool}

theorem exec_d2dLinkLockLoss_notOpen (h : (getEdge s edge).st ≠ 2) : exec (.d2dLinkLockLoss edge link remapped trains) s = .next s :=
  congrArg Host.Outcome.next (if_neg h)

/-- The link trains, with a spare where one is needed and left: the edge stays OPEN. -/
theorem exec_d2dLinkLockLoss_trains (h : (getEdge s edge).st = 2) (ht : trains = true) (hr : remapped = false ∨ mget 0 (getEdge s edge).used link.val < 2) :
    ∃ n : W64, Goes (exec (.d2dLinkLockLoss edge link remapped trains) s) (EdgeSet s edge { getEdge s edge with
      retrained := setFld (getEdge s edge).retrained link.val 1 1, replays := n
      used := if remapped then mset 0 (getEdge s edge).used link.val (mget 0 (getEdge s edge).used link.val + 1) else (getEdge s edge).used }) := by
  have hc : (trains && (!remapped || decide (mget 0 (getEdge s edge).used link.val < 2))) = true := by
    obtain hr | hr := hr <;> simp [ht, hr]
  refine ⟨(getEdge s edge).replays + (freshWord s).1, _, congrArg Host.Outcome.next ((if_pos h).trans (if_pos hc)), ?_⟩
  dsimp only [freshWord]
  split
  · exact EdgeSet.of_edges_eq (edgeSet_putEdge _ _ _) (putErr_edges _ (by simp [edgeErr]))
  · exact edgeSet_putEdge _ _ _

theorem used_after_retrain (m : SMap Nat) (l : Nat) (b : Bool) :
    mget 0 (if b then mset 0 m l (mget 0 m l + 1) else m) l = if b then mget 0 m l + 1 else mget 0 m l := by
  cases b <;> simp

/-- It cannot: the edge closes. -/
theorem exec_d2dLinkLockLoss_fails (h : (getEdge s edge).st = 2) (hf : ¬ (trains = true ∧ (remapped = false ∨ mget 0 (getEdge s edge).used link.val < 2))) :
    exec (.d2dLinkLockLoss edge link remapped trains) s = .next (edgeDown s edge) := by
  refine congrArg Host.Outcome.next ((if_pos h).trans (if_neg fun hc => hf ?_))
  simpa using hc

end link

/-! ## Training of an edge (R424, R442) -/

section train
variable {s : State} {w : Writer} {edge : Fin 16} {found : Option (List (Fin 24))}

theorem mget_foldl_mset_range (f : Nat → Nat) (n l : Nat) :
    mget 0 ((List.range n).foldl (fun (m : SMap Nat) l => mset 0 m l (f l)) []) l = if l < n then f l else 0 := by
  induction n with
  | zero => rfl
  | succ n ih =>
    rw [List.range_succ, List.foldl_append, List.foldl_cons, List.foldl_nil, mget_mset, ih]
    by_cases h : l = n
    · simp [h]
    · rw [if_neg h]
      exact if_congr (by omega) rfl rfl

theorem edgeTrains_iff {ok : Bool} {pairs : List (Fin 24)} : edgeTrains ok pairs = true ↔ ok = true ∧ ∀ l, l < 24 → failedPairs pairs l ≤ 2 := by
  simp [edgeTrains]

theorem trainEdge_opens (s : State) (e : Nat) {ok : Bool} {pairs : List (Fin 24)} (h : edgeTrains ok pairs = true) :
    EdgeSet s e { getEdge s e with
      st := 2, retrained := 0, used := (List.range 24).foldl (fun (m : SMap Nat) l => mset 0 m l (failedPairs pairs l)) [] } (trainEdge s e ok pairs) := by
  unfold trainEdge
  rw [if_pos h]
  exact (edgeSet_putEdge _ _ _).of_edges_eq (Laws.foldl_keeps _ (fun s : State => s.net.edges) (fun s _ => putErr_edges s (by simp [edgeErr])) _ _)

theorem trainEdge_closes (s : State) (e : Nat) {ok : Bool} {pairs : List (Fin 24)} (h : ¬ edgeTrains ok pairs = true) :
    EdgeSet s e { getEdge s e with st := 0 } (trainEdge s e ok pairs) := by
  unfold trainEdge
  rw [if_neg h]
  exact (edgeSet_putEdge _ _ _).of_edges_eq (putErr_edges _ (by simp [edgeErr]))

theorem exec_edgeRetrain_secure (hw : secureWriter w = true) :
    exec (.edgeRetrain w edge found) s = .next (finish (edgeRetrain s edge found.isSome (found.getD []))) :=
  congrArg (fun r => Host.Outcome.next (finish r)) (secureWrite_secure hw)

theorem edgeRetrain_ready {ok : Bool} {pairs : List (Fin 24)} (h : (getEdge s edge).st = 0 ∧ dieReady s (edgeEnds edge).1 = true ∧ dieReady s (edgeEnds edge).2 = true) :
    edgeRetrain s edge ok pairs = (trainEdge s edge ok pairs, stOk) := if_pos (by simp [h])

theorem edgeRetrain_busy {ok : Bool} {pairs : List (Fin 24)} (h : ¬ ((getEdge s edge).st = 0 ∧ dieReady s (edgeEnds edge).1 = true ∧ dieReady s (edgeEnds edge).2 = true)) :
    edgeRetrain s edge ok pairs = (s, stCfgBusy) := if_neg fun hc => h (by simpa [and_assoc] using hc)

/-- Every failed wire pair finds a spare: the edge opens. -/
theorem exec_edgeRetrain_opens (hw : secureWriter w = true)
    (hr : (getEdge s edge).st = 0 ∧ dieReady s (edgeEnds edge).1 = true ∧ dieReady s (edgeEnds edge).2 = true)
    (ho : found.isSome = true ∧ ∀ l, l < 24 → failedPairs (found.getD []) l ≤ 2) :
    Goes (exec (.edgeRetrain w edge found) s) fun t => t.status = 0 ∧ (getEdge t edge).st = 2 ∧ (getEdge t edge).retrained = 0
      ∧ (∀ l, l < 24 → mget 0 (getEdge t edge).used l = failedPairs (found.getD []) l) ∧ ∀ i, i ≠ edge.val → getEdge t i = getEdge s i := by
  obtain ⟨hy, hi⟩ := trainEdge_opens s edge (edgeTrains_iff.mpr ho)
  refine ⟨_, (exec_edgeRetrain_secure hw).trans (congrArg _ (congrArg finish (edgeRetrain_ready hr))), rfl, ?_, ?_, fun l hl => ?_, hi⟩
  · exact congrArg Edge.st hy
  · exact congrArg Edge.retrained hy
  · exact (congrArg (fun y : Edge => mget 0 y.used l) hy).trans ((mget_foldl_mset_range _ 24 l).trans (if_pos hl))

/-- One finds none: the edge stays as it is. -/
theorem exec_edgeRetrain_fails (hw : secureWriter w = true)
    (hr : (getEdge s edge).st = 0 ∧ dieReady s (edgeEnds edge).1 = true ∧ dieReady s (edgeEnds edge).2 = true)
    (ho : ¬ (found.isSome = true ∧ ∀ l, l < 24 → failedPairs (found.getD []) l ≤ 2)) :
    Goes (exec (.edgeRetrain w edge found) s) fun t => t.status = 0 ∧ EdgeSet s edge (getEdge s edge) t := by
  have hy := trainEdge_closes s edge fun hc => ho (edgeTrains_iff.mp hc)
  rw [← hr.1] at hy
  exact ⟨_, (exec_edgeRetrain_secure hw).trans (congrArg _ (congrArg finish (edgeRetrain_ready hr))), rfl, hy⟩

end train

/-! ## FATAL records (R436, R456) -/

theorem Recorded.modSt (s : State) (f : Mod → Mod) : Recorded { s with mod := f s.mod } (setModSt s f) := .event _ _ _ _ _

theorem setModSt_mod (s : State) (f : Mod → Mod) : (setModSt s f).mod = f s.mod := (Recorded.modSt s f).mod

theorem fatalStop_failed (s : State) : (fatalStop s).mod.st = .failed ∧ (fatalStop s).mod.fatal = true := by
  unfold fatalStop
  rw [setModSt_mod]
  exact ⟨rfl, rfl⟩

theorem putErr1_fatal (s : State) {e : Err} (h : e.sev = 3) : (putErr1 s e).1.mod.st = .failed ∧ (putErr1 s e).1.mod.fatal = true := by
  have hm : mergeable s.log e = false := by simp [mergeable, h]
  have hr : (errRec s e).sev = 3 := h
  simp only [putErr1, hm, Bool.false_and, Bool.false_eq_true, if_false, putRecord, hr, if_true]
  exact fatalStop_failed _

/-- A FATAL record of no job stops the module. -/
theorem putErr_fatal (s : State) {e : Err} (h : e.sev = 3) (hj : e.job = none) : (putErr s e).mod.st = .failed ∧ (putErr s e).mod.fatal = true := by
  have h1 := putErr1_fatal s h
  simp only [putErr, hj]
  split
  · rw [(Recorded.err1 _ (by simp [lostErr]) rfl).mod]
    exact h1
  · exact h1

/-! ## UCIe modules and the reference (R21, R436) -/

section loss
variable {s : State} {m : BitVec 2}

theorem exec_ucieModuleLoss_idle (h : ¬ (s.mod.resetN = true ∧ bitAt s.mod.ucie m.toNat = true)) : exec (.ucieModuleLoss m) s = .next s :=
  congrArg Host.Outcome.next (if_neg fun hc => h (by simpa using hc))

/-- A present module lost leaves the others; the last one is FATAL. -/
theorem exec_ucieModuleLoss_lost (h : s.mod.resetN = true ∧ bitAt s.mod.ucie m.toNat = true) :
    ∃ t, t.mod = { s.mod with ucie := setFld s.mod.ucie m.toNat 1 0 } ∧ t.net = s.net
      ∧ exec (.ucieModuleLoss m) s = .next (if setFld s.mod.ucie m.toNat 1 0 = 0 then
          putErr t { cause := cFatalInternal, sev := 3, unit := 9, source := 16, die := 15 } else t) := by
  have hr := Recorded.err (freshWord { s with mod := { s.mod with ucie := setFld s.mod.ucie m.toNat 1 0 } }).2
    (e := { cause := (freshWord s).1.setWidth 8, sev := 0, unit := 11, source := BitVec.ofNat 16 (nth 0 [2, 3, 8, 9] m.toNat),
            die := BitVec.ofNat 4 (nth 0 [2, 3, 8, 9] m.toNat) }) (by simp) rfl
  refine ⟨_, hr.mod, hr.net, congrArg Host.Outcome.next ((if_pos (by simp [h])).trans ?_)⟩
  exact if_congr (iff_of_eq (congrArg (fun x : Mod => x.ucie = 0) hr.mod)) rfl rfl

theorem exec_refLoss_idle (h : s.mod.resetN = false ∨ s.mod.st = .failed) : exec .refLoss s = .next s :=
  congrArg Host.Outcome.next (if_pos (by simpa using h))

theorem exec_refLoss (hr : s.mod.resetN = true) (hs : s.mod.st ≠ .failed) : exec .refLoss s = .next (putErr s refLostErr) :=
  congrArg Host.Outcome.next (if_neg (by simp [hr, hs]))

end loss

/-! ## Clocks and the reference cycle (R430-R433) -/

section clocks
variable {s : State} {die : Fin 12} {half : Bool}

/-- The step a half is asked to take: the slower of REQ and LIMIT. -/
def stepAsked (h : Half) : BitVec 2 := if h.req.toNat < h.limit.toNat then h.limit else h.req

/-- A half takes the step asked of it: another one, on a READY die, a microsecond after the last change. -/
def stepDue (s : State) (die : Nat) (h : Half) : Prop :=
  dieReady s die = true ∧ h.step ≠ stepAsked h ∧ (h.changes = 0 ∨ h.lastChange.toNat + 1000 ≤ now s)

theorem exec_clockStepChange_due (h : stepDue s die (getHalf s (halfNo die half))) :
    exec (.clockStepChange die half) s = .next (putHalf s (halfNo die half) { getHalf s (halfNo die half) with
      step := stepAsked (getHalf s (halfNo die half)), changes := (getHalf s (halfNo die half)).changes + 1, lastChange := s.mod.time }) := by
  obtain ⟨h1, h2, h3⟩ := h
  exact congrArg Host.Outcome.next (if_pos (by simp only [Bool.and_eq_true, Bool.or_eq_true, decide_eq_true_eq]; exact ⟨⟨h1, h2⟩, h3⟩))

theorem exec_clockStepChange_not_due (h : ¬ stepDue s die (getHalf s (halfNo die half))) : exec (.clockStepChange die half) s = .next s :=
  congrArg Host.Outcome.next (if_neg fun hc => h (by
    simp only [Bool.and_eq_true, Bool.or_eq_true, decide_eq_true_eq] at hc
    exact ⟨hc.1.1, hc.1.2, hc.2⟩))

theorem tclkPerRef_eq (h : Half) : tclkPerRef h = if h.step = 0 then 20 else if h.step = 1 then 10 else 5 := by
  unfold tclkPerRef
  generalize h.step = x
  revert x
  decide

theorem finishUnload_idle {j : BitVec 2} (h : (getJob s j).st ≠ .unloading) : finishUnload s j = s := if_neg fun hc => h hc.1

theorem settleJoin_idle {d : Nat} (h : (getDie s d).join = none) : settleJoin s d = s := by simp only [settleJoin, h]

theorem settleFw_idle (h : s.fw.handover = none) : settleFw s = s := by simp only [settleFw, h]

/-- What a reference cycle advances by itself: MOD.TIME, and the TCLK of the halves of READY dies. -/
def ticked (s : State) : State :=
  { s with
    mod := { s.mod with time := s.mod.time + 10 }
    halves := mmap Half.reset s.halves fun i h => if dieReady s (i / 2) then
      { h with cycles := h.cycles + (if h.step = 0 then 20 else if h.step = 1 then 10 else 5) } else h }

theorem exec_referenceCycle_idle (hr : s.mod.resetN = true) (hj : ∀ j, (getJob s j).st ≠ .unloading) (hf : s.fw.handover = none)
    (hd : ∀ d, (getDie s d).join = none) : exec .referenceCycle s = .next (ticked s) := by
  have ht : exec .referenceCycle s = .next (settleFw ((List.range 12).foldl settleJoin (jobs4.foldl finishUnload (ticked s)))) := by
    refine congrArg Host.Outcome.next ((if_pos hr).trans ?_)
    simp only [tclkPerRef_eq]
    rfl
  rw [ht, List.foldl_fixed' (fun j => finishUnload_idle (s := ticked s) (hj j)), List.foldl_fixed' (fun d => settleJoin_idle (s := ticked s) (hd d)),
    settleFw_idle (s := ticked s) hf]

end clocks

/-! ## Boot (R447, R498, R499, R522) -/

section boot
variable {s : State} {f : StartFound}

theorem Recorded.setFw (s : State) (g : Fw → Fw) : Recorded { s with fw := g s.fw } (setFw s g) := .event _ _ _ _ _

/-- A slot's images measured, with the boot regions locked: what STANDBY is entered from. -/
def slotMeasured (s : State) (a : Bool) : State :=
  { s with
    fw := [imgIsland, imgMgmt, imgDiectl].foldl (fun f t => setMeas f t (slotMeasure f a t)) { s.fw with slot := a }
    regions := bootRegions, sec := { s.sec with readyRegions := bootRegions } }

/-- Control passes to a slot: STANDBY on it, the boot regions locked. -/
theorem bootSlot_standby (s : State) (a : Bool) :
    (bootSlot s a).mod = { s.mod with st := .standby, step := 2 } ∧ (bootSlot s a).fw.standby = 1 ∧ (bootSlot s a).fw.slot = a
      ∧ (bootSlot s a).regions = bootRegions := by
  have h1 := Recorded.setFw (slotMeasured s a) fun f => { f with standby := 1 }
  have h2 := Recorded.modSt (setFw (slotMeasured s a) fun f => { f with standby := 1 }) fun m => { m with st := .standby, step := 2 }
  refine ⟨h2.mod.trans ?_, (congrArg Fw.standby h2.fw).trans ?_, (congrArg Fw.slot h2.fw).trans ?_, h2.regions.trans ?_⟩
  · exact congrArg (fun m : Mod => { m with st := .standby, step := 2 }) h1.mod
  · exact congrArg Fw.standby h1.fw
  · exact congrArg Fw.slot h1.fw
  · exact h1.regions

theorem detect_recorded (s : State) (b : Bool) : Recorded { s with mgmt := { s.mgmt with addrOk := b, dadAt := s.mod.time } } (detect s b) := by
  unfold detect
  dsimp only
  split
  · exact .refl _
  · exact .err _ (by simp [mgmtErr]) rfl

/-- The state in which the checks of boot are made. -/
def booting (s : State) (f : StartFound) : State :=
  railOn { s with mod := { s.mod with resetN := true, slotId := f.slotId, refSel := f.refSel, step := 1 } } 28

theorem exec_modResetRise_inRange (hr : s.mod.resetN = false) (hf : f.inRange = true) (hv : 3200 ≤ s.power.vin.toNat ∧ s.power.vin.toNat ≤ 4000) :
    exec (.modResetRise f) s = .next (boot { s with mod := { s.mod with resetN := true } } f) := by
  refine congrArg Host.Outcome.next ((if_neg (by simp [hr])).trans ((if_pos hf).trans ?_))
  rw [if_neg]
  rintro (h | h)
  · exact absurd h (by simpa using hv.1)
  · exact absurd h (by simpa using hv.2)

theorem boot_katFails (hk : f.katOk = false) :
    boot { s with mod := { s.mod with resetN := true } } f = putErr (booting s f) (islandErr cFatalInternal 3 0) := if_pos (by simp [hk])

/-- Every check passes and the running slot verifies: STANDBY on it. -/
theorem boot_running_slot (hk : f.katOk = true) (hp : f.pufOk = true) (hm : f.monoOk = true) (hb : f.badRecords = []) (hs : slotBoots s f s.fw.slot = true)
    (ha : s.mod.autostart = false) : boot { s with mod := { s.mod with resetN := true } } f = detect (bootSlot (booting s f) s.fw.slot) f.addrFree := by
  have hd := (detect_recorded (bootSlot (booting s f) s.fw.slot) f.addrFree).mod
  have hm' := (bootSlot_standby (booting s f) s.fw.slot).1
  have hauto : (detect (bootSlot (booting s f) s.fw.slot) f.addrFree).mod.autostart = false := by
    rw [hd]
    exact (congrArg Mod.autostart hm').trans ha
  have hc : slotBoots (booting s f) f s.fw.slot = true := hs
  have he : boot { s with mod := { s.mod with resetN := true } } f =
      if (detect (bootSlot (booting s f) s.fw.slot) f.addrFree).mod.autostart then powerUp (detect (bootSlot (booting s f) s.fw.slot) f.addrFree) f
      else detect (bootSlot (booting s f) s.fw.slot) f.addrFree := by
    refine (if_neg (by simp [hk])).trans ((if_neg (by simp [hp])).trans ((if_neg (by simp [hm])).trans ?_))
    rw [hb]
    exact if_pos hc
  rw [he, hauto]
  rfl

theorem exec_modResetRise_standby (hr : s.mod.resetN = false) (hf : f.inRange = true) (hv : 3200 ≤ s.power.vin.toNat ∧ s.power.vin.toNat ≤ 4000)
    (hk : f.katOk = true) (hp : f.pufOk = true) (hm : f.monoOk = true) (hb : f.badRecords = []) (hs : slotBoots s f s.fw.slot = true)
    (ha : s.mod.autostart = false) : Goes (exec (.modResetRise f) s) fun t => t.mod.st = .standby ∧ t.mod.slotId = f.slotId ∧ t.fw.standby = 1
      ∧ t.fw.slot = s.fw.slot ∧ t.regions = bootRegions ∧ t.mgmt.addrOk = f.addrFree := by
  obtain ⟨hmod, hst, hslot, hreg⟩ := bootSlot_standby (booting s f) s.fw.slot
  have hd := detect_recorded (bootSlot (booting s f) s.fw.slot) f.addrFree
  refine ⟨_, (exec_modResetRise_inRange hr hf hv).trans (congrArg _ (boot_running_slot hk hp hm hb hs ha)), ?_, ?_, ?_, ?_, ?_, hd.addrOk⟩
  · exact (congrArg Mod.st hd.mod).trans (congrArg Mod.st hmod)
  · exact (congrArg Mod.slotId hd.mod).trans (congrArg Mod.slotId hmod)
  · exact (congrArg Fw.standby hd.fw).trans hst
  · exact (congrArg Fw.slot hd.fw).trans hslot
  · exact hd.regions.trans hreg

end boot

/-! ## The statement -/

/-- Settles O44: edges, modules and the reference; then clocks, the reference cycle and module reset. -/
theorem edgesClocksAndReset : Obligations.EdgesClocksAndReset := by
  refine ⟨fun s w edge link remapped trains found m => ⟨exec_d2dLinkLockLoss_notOpen, ?trains, ?fails, ?refused, ?retrain, ?ucie, exec_refLoss_idle, ?reference⟩,
    fun s die half f => ⟨exec_clockStepChange_not_due, exec_clockStepChange_due, fun h => congrArg Host.Outcome.next (if_neg (by simp [h])),
      exec_referenceCycle_idle, ?fall, fun h => congrArg Host.Outcome.next (if_pos h), ?rise⟩⟩
  case trains =>
    rintro h2 ⟨ht, hr⟩
    obtain ⟨n, t, he, hy, ho⟩ := exec_d2dLinkLockLoss_trains (link := link) h2 ht hr
    refine ⟨t, he, ?_⟩
    dsimp only
    rw [hy]
    exact ⟨h2, bitAt_setFld_one _ link.isLt, used_after_retrain _ _ _, ho⟩
  case fails => exact fun h2 hf => ⟨_, exec_d2dLinkLockLoss_fails h2 hf, edgeDown_closes s edge⟩
  case refused =>
    intro hw
    obtain ⟨t, ht, he⟩ := secureWrite_world hw
    exact ⟨_, congrArg Host.Outcome.next he, rfl, ht.net⟩
  case retrain =>
    exact fun hw => ⟨fun hn => (exec_edgeRetrain_secure hw).trans (congrArg _ (congrArg finish (edgeRetrain_busy hn))),
      exec_edgeRetrain_opens hw, exec_edgeRetrain_fails hw⟩
  case ucie =>
    refine ⟨exec_ucieModuleLoss_idle, fun hl hn => ?_, fun hl h0 => ?_⟩
    · obtain ⟨t, hm, ht, he⟩ := exec_ucieModuleLoss_lost hl
      exact ⟨t, he.trans (congrArg _ (if_neg hn)), hm, ht⟩
    · obtain ⟨t, -, -, he⟩ := exec_ucieModuleLoss_lost hl
      exact ⟨_, he.trans (congrArg _ (if_pos h0)), putErr_fatal t rfl rfl⟩
  case reference => exact fun hr hs => ⟨_, exec_refLoss hr hs, putErr_fatal s rfl rfl⟩
  case fall => exact ⟨_, rfl, rfl, rfl, rfl, rfl, rfl, rfl, rfl, rfl, rfl, rfl, rfl, rfl, rfl, rfl, rfl, rfl, rfl⟩
  case rise =>
    intro hr
    refine ⟨fun hf => ?_, fun hf hv hk => ?_, exec_modResetRise_standby hr⟩
    · exact congrArg Host.Outcome.next ((if_neg (by simp [hr])).trans (if_neg (by simp [hf])))
    · exact ⟨_, (exec_modResetRise_inRange hr hf hv).trans (congrArg _ (boot_katFails hk)), (putErr_fatal _ rfl rfl).1⟩

end Sys2Proof.Machine
end

section
/-!
PROOFS of the statements of the family '02_formats.md': the state after module reset; what a completing engine operation leaves of its tile, how
elements lie in the scratchpad, what a conversion, a gutter update, a transposing copy and each wide operation write.
-/
namespace Sys2Proof.Machine
open Sys2Proof

/-! ## The state after module reset -/

/-- The three credit fields of PORT.CFG after reset (R327). -/
theorem portReset_credits : fldN Port.reset.cfg 22 6 = 16 ∧ fldN Port.reset.cfg 16 6 = 16 ∧ fldN Port.reset.cfg 10 6 = 16 := by decide

/-- Settles O59: an object that nothing has written reads as its reset record. -/
theorem resetState : Obligations.ResetState := by
  refine ⟨Laws.hbmWf_reset, rfl, rfl, rfl, rfl, rfl, rfl, rfl, rfl, rfl, rfl, rfl, ?tiles, ?tileObjects, ?dies, ?ports, ?regions, ?edges, ?jobs, rfl, ?watches,
    rfl, rfl, rfl, rfl, rfl, rfl, rfl, rfl, rfl, rfl, rfl, rfl, rfl⟩
  case tiles => exact fun t => ⟨rfl, rfl, rfl, fun j => ⟨rfl, rfl, rfl, rfl⟩⟩
  case tileObjects => exact fun t n => ⟨rfl, rfl, rfl, rfl⟩
  case dies => exact fun d => ⟨rfl, rfl, rfl, rfl, rfl, fun r => rfl, fun q => rfl, fun w => ⟨rfl, rfl⟩⟩
  case ports => exact fun p => ⟨rfl, portReset_credits⟩
  case regions => exact fun r => rfl
  case edges => exact fun e => rfl
  case jobs => exact fun j => ⟨rfl, rfl⟩
  case watches => exact fun w => ⟨rfl, rfl, rfl⟩

/-! ## What the end of an operation leaves of its tile (R46, R48, R90, R161, R193, R199, R202) -/

/-- The tile's scratchpad, wide elements and engine queues are as they were. -/
structure KeepsData (x y : Tile) : Prop where
  spad : y.spad = x.spad
  wideBuf : y.wideBuf = x.wideBuf
  eng : y.eng = x.eng

namespace KeepsData

variable {x y z : Tile}

theorem refl (x : Tile) : KeepsData x x := ⟨rfl, rfl, rfl⟩

theorem trans (h : KeepsData x y) (k : KeepsData y z) : KeepsData x z :=
  ⟨k.spad.trans h.spad, k.wideBuf.trans h.wideBuf, k.eng.trans h.eng⟩

theorem unitQ (h : KeepsData x y) (u : EngUnit) : unitQ y u = Machine.unitQ x u := by
  cases u <;> simp only [Machine.unitQ, h.eng]

theorem of_tiles {s u : State} (h : u.tiles = s.tiles) (t : W16) : KeepsData (getTile s t) (getTile u t) := by
  have : getTile u t = getTile s t := by unfold getTile; rw [h]
  rw [this]
  exact refl _

theorem putCtx (x : Tile) (j : BitVec 2) (c : Ctx) : KeepsData x (putCtx x j c) := ⟨rfl, rfl, rfl⟩
theorem putAcnt (x : Tile) (n : Nat) (a : Acnt) : KeepsData x (putAcnt x n a) := ⟨rfl, rfl, rfl⟩
theorem putSlot (x : Tile) (n : Nat) (y : Slot) : KeepsData x (putSlot x n y) := ⟨rfl, rfl, rfl⟩
theorem putHq (x : Tile) (n : Nat) (q : Hq) : KeepsData x (putHq x n q) := ⟨rfl, rfl, rfl⟩

theorem regs (x : Tile) (r : TileRegs) : KeepsData x { x with regs := r } := ⟨rfl, rfl, rfl⟩

/-- A change of a tile's other parts. -/
theorem putTile {s : State} {t : W16} (h : KeepsData (getTile s t) x) : KeepsData (getTile s t) (getTile (putTile s t x) t) := by
  rwa [getTile_putTile]

/-- A record that is not FATAL. -/
theorem putErr (s : State) (t : W16) {e : Err} (h : e.sev ≠ 3) : KeepsData (getTile s t) (getTile (putErr s e) t) :=
  of_tiles (putErr_tiles s e h) t

/-- A list of changes, each of which leaves the tile's data. -/
theorem foldl {β : Type} {t : W16} {f : State → β → State} (h : ∀ s b, KeepsData (getTile s t) (getTile (f s b) t)) (l : List β) (s : State) :
    KeepsData (getTile s t) (getTile (l.foldl f s) t) := by
  induction l generalizing s with
  | nil => exact refl _
  | cons b l ih => exact (h s b).trans (ih (f s b))

/-- Marks that are left out where there is nothing to mark. -/
theorem modTileUnless (s : State) (t : W16) (p : Prop) [Decidable p] {f : Tile → Tile} (h : KeepsData (getTile s t) (f (getTile s t))) :
    KeepsData (getTile s t) (getTile (if p then s else Machine.modTile s t f) t) := by
  split
  · exact refl _
  · exact putTile h

theorem satNote (t : W16) (pos neg : Nat) (s : State) : KeepsData (getTile s t) (getTile (satNote t pos neg s) t) :=
  modTileUnless s t _ (regs _ _)

theorem noteConv (t : W16) (c : ConvOut) (s : State) : KeepsData (getTile s t) (getTile (noteConv t c s) t) :=
  (satNote t c.pos c.neg s).trans (modTileUnless _ t _ (regs _ _))

theorem noteT2 (t : W16) (bad : Bool) (s : State) : KeepsData (getTile s t) (getTile (noteT2 t bad s) t) := by
  cases bad with
  | false => exact refl _
  | true => exact putTile (regs _ _)

theorem noteWide (t : W16) (bits : W32) (s : State) : KeepsData (getTile s t) (getTile (noteWide t bits s) t) :=
  modTileUnless s t _ (regs _ _)

theorem sendReport (s : State) (t : W16) (o : EngOp) (en : Bool) (widx : BitVec 12) (bound : Option Int) (sats : Nat) (nonzero : Bool) :
    KeepsData (getTile s t) (getTile (sendReport s t o en widx bound sats nonzero) t) := by
  unfold Machine.sendReport
  split
  · split <;> exact refl _
  · exact refl _

theorem markDue (s : State) (t : W16) : KeepsData (getTile s t) (getTile (markDue s t) t) := by
  refine foldl (fun s j => ?_) _ s
  dsimp only
  split
  · split
    · exact putTile (putCtx _ _ _)
    · exact refl _
  · exact refl _

theorem arriveCount (s : State) (t : W16) (k : Nat) (j : BitVec 2) : KeepsData (getTile s t) (getTile (arriveCount s t k j) t) := by
  unfold Machine.arriveCount
  dsimp only
  split
  · exact (putTile (putAcnt _ _ _)).trans (markDue _ t)
  · exact putErr s t (by simp [tileErr])

theorem pushHandle (s : State) (die : Nat) (q : BitVec 13) (t : W16) (j : BitVec 2) (h : W32) (src : PushSrc) :
    KeepsData (getTile s t) (getTile (pushHandle s die q t j h src).1 t) := by
  have dropped : KeepsData (getTile s t) (getTile (dropHandle s die t j) t) := of_tiles (putErr_tiles (modDie s die _) _ (by simp : (1 : BitVec 2) ≠ 3)) t
  unfold Machine.pushHandle
  dsimp only
  split
  · exact refl _
  · split
    · split
      · split <;> exact refl _
      · exact dropped
    · split
      · split <;> exact putTile (putHq _ _ _)
      · exact dropped

theorem slotDrain (s : State) (t : W16) (k : Nat) : KeepsData (getTile s t) (getTile (slotDrain s t k) t) := by
  unfold Machine.slotDrain
  dsimp only
  split
  · split
    · exact putTile (putSlot _ _ _)
    · have pushed {y : Slot} {die : Nat} {q : BitVec 13} {j : BitVec 2} {h : W32} {src : PushSrc} :=
        (putTile (putSlot (getTile s t) k y)).trans (pushHandle _ die q t j h src)
      split
      · exact pushed.trans (putTile (putSlot _ _ _))
      · exact pushed
  · exact refl _

theorem autoDrain (s : State) (t : W16) (rs : List Rgn) : KeepsData (getTile s t) (getTile (autoDrain s t rs) t) := by
  refine foldl (fun s k => ?_) _ s
  split
  · exact slotDrain s t k
  · exact refl _

end KeepsData

theorem unitQ_setUnitQ (x : Tile) (u : EngUnit) (q : List EngOp) : unitQ (setUnitQ x u q) u = q := by
  cases u <;> rfl

/-- The operation leaves its queue; the slots it read and its counter leave the tile's data. -/
theorem opDone_keepsData (s : State) (t : W16) (o : EngOp) (rs : List Rgn) :
    KeepsData (getTile (popHead s t (kindUnit o.kind)) t) (getTile (opDone s t o rs) t) := by
  have drained := KeepsData.autoDrain (popHead s t (kindUnit o.kind)) t rs
  unfold opDone
  dsimp only
  split
  · exact drained.trans (.arriveCount _ t _ _)
  · exact drained

/-- A tile after an operation of a unit that left its scratchpad and wide elements as y has them: the operation is off its queue. -/
structure EndsAs (u : EngUnit) (y z : Tile) : Prop where
  spad : z.spad = y.spad
  wideBuf : z.wideBuf = y.wideBuf
  queue : unitQ z u = (unitQ y u).tail

theorem opDone_endsAs {y : Tile} {s : State} {t : W16} (h : KeepsData y (getTile s t)) (o : EngOp) (rs : List Rgn) :
    EndsAs (kindUnit o.kind) y (getTile (opDone s t o rs) t) := by
  have hd := opDone_keepsData s t o rs
  have hp : getTile (popHead s t (kindUnit o.kind)) t = setUnitQ (getTile s t) (kindUnit o.kind) (unitQ (getTile s t) (kindUnit o.kind)).tail :=
    getTile_modTile _ _ _
  rw [hp] at hd
  refine ⟨hd.spad.trans ?_, hd.wideBuf.trans ?_, (hd.unitQ _).trans ?_⟩
  · cases kindUnit o.kind <;> exact h.spad
  · cases kindUnit o.kind <;> exact h.wideBuf
  · rw [unitQ_setUnitQ, h.unitQ]

/-! ## Numbers as bytes (R5, R28) -/

theorem two_pow_byte_succ (n : Nat) : 2 ^ (8 * (n + 1)) = 256 * 2 ^ (8 * n) := by rw [Nat.mul_succ, Nat.pow_add, Nat.mul_comm]

@[simp] theorem length_toLE (n v : Nat) : (toLE n v).length = n := by
  induction n generalizing v with
  | zero => rfl
  | succ n ih => simp [toLE, ih]

@[simp] theorem leNat_toLE (n v : Nat) : leNat (toLE n v) = v % 2 ^ (8 * n) := by
  induction n generalizing v with
  | zero => simp [toLE, leNat, Nat.mod_one]
  | succ n ih =>
    simp only [toLE, leNat, ih, BitVec.toNat_ofNat, two_pow_byte_succ, Nat.mod_mul]

theorem leNat_lt (bs : List Byte) : leNat bs < 2 ^ (8 * bs.length) := by
  induction bs with
  | nil => simp [leNat]
  | cons b t ih =>
    have hb := b.isLt
    simp only [leNat, List.length_cons, two_pow_byte_succ]
    omega

theorem leNat_append (as bs : List Byte) : leNat (as ++ bs) = leNat as + 2 ^ (8 * as.length) * leNat bs := by
  induction as with
  | nil => simp [leNat]
  | cons a t ih =>
    simp only [List.cons_append, leNat, ih, List.length_cons, two_pow_byte_succ]
    ring

/-- The number in n bytes from byte k up. -/
theorem leNat_slice (bs : List Byte) (k n : Nat) (h : k + n ≤ bs.length) :
    leNat bs / 2 ^ (8 * k) % 2 ^ (8 * n) = leNat ((bs.drop k).take n) := by
  have hk : (bs.take k).length = k := by simp; omega
  have hn : ((bs.drop k).take n).length = n := by simp; omega
  have hlo := leNat_lt (bs.take k)
  have hmid := leNat_lt ((bs.drop k).take n)
  rw [hk] at hlo
  rw [hn] at hmid
  calc leNat bs / 2 ^ (8 * k) % 2 ^ (8 * n)
      = leNat (bs.drop k) % 2 ^ (8 * n) := by
        conv_lhs => rw [← List.take_append_drop k bs, leNat_append, hk, Nat.add_mul_div_left _ _ (Nat.two_pow_pos _), Nat.div_eq_of_lt hlo, Nat.zero_add]
    _ = leNat ((bs.drop k).take n) := by
        conv_lhs => rw [← List.take_append_drop n (bs.drop k), leNat_append, hn, Nat.add_mul_mod_self_left, Nat.mod_eq_of_lt hmid]

theorem toLE_append (m n v : Nat) : toLE (m + n) v = toLE m v ++ toLE n (v / 2 ^ (8 * m)) := by
  induction m generalizing v with
  | zero => simp [toLE]
  | succ m ih =>
    rw [Nat.succ_add, toLE, ih, toLE, two_pow_byte_succ, Nat.div_div_eq_div_mul, List.cons_append]

/-- Bits above the bytes written do not show in them. -/
theorem toLE_add_mul (n v a : Nat) : toLE n (v + 2 ^ (8 * n) * a) = toLE n v := by
  induction n generalizing v with
  | zero => rfl
  | succ n ih =>
    rw [two_pow_byte_succ, Nat.mul_assoc, toLE, toLE, Nat.add_mul_div_left _ _ (by decide), ih]
    congr 1
    apply BitVec.eq_of_toNat_eq
    simp

/-- The signed reading of an integer's low w bits. -/
theorem sgn_toBits {w : Nat} {x : Int} (hw : 0 < w) (lo : -(2 ^ (w - 1) : Nat) ≤ x) (hi : x < (2 ^ (w - 1) : Nat)) : sgn w (toBits w x) = x := by
  obtain ⟨n, rfl⟩ : ∃ n, w = n + 1 := ⟨w - 1, by omega⟩
  have h2 : 2 ^ (n + 1) = 2 * 2 ^ n := by rw [Nat.pow_succ, Nat.mul_comm]
  have hlt := toBits_lt (n + 1) x
  unfold sgn
  rw [Nat.mod_eq_of_lt hlt]
  simp only [Nat.add_sub_cancel] at lo hi ⊢
  have hb : (toBits (n + 1) x : Int) = if 0 ≤ x then x else x + (2 * 2 ^ n : Nat) := by
    unfold toBits
    rw [Int.toNat_of_nonneg (Int.emod_nonneg _ (by positivity)), h2]
    split
    · exact Int.emod_eq_of_lt (by assumption) (by omega)
    · rw [← Int.add_emod_right]
      exact Int.emod_eq_of_lt (by omega) (by omega)
  rw [h2] at hlt ⊢
  omega

/-! ## Lists of blocks of one length -/

section blocks
variable {α β : Type}

theorem length_flatMap_const {l : List α} {f : α → List β} {w : Nat} (h : ∀ x ∈ l, (f x).length = w) : (l.flatMap f).length = w * l.length := by
  induction l with
  | nil => rfl
  | cons x l ih =>
    obtain ⟨hx, hl⟩ := List.forall_mem_cons.mp h
    rw [List.flatMap_cons, List.length_append, hx, ih hl, List.length_cons]
    ring

/-- Item k of block i of a list made of blocks of w items. -/
theorem getD_flatMap_const {l : List α} {f : α → List β} {w : Nat} (h : ∀ x ∈ l, (f x).length = w) {i k : Nat} (hi : i < l.length) (hk : k < w) (d : β) :
    (l.flatMap f).getD (w * i + k) d = (f l[i]).getD k d := by
  induction l generalizing i with
  | nil => simp at hi
  | cons x l ih =>
    obtain ⟨hx, hl⟩ := List.forall_mem_cons.mp h
    rw [List.flatMap_cons]
    cases i with
    | zero => rw [Nat.mul_zero, Nat.zero_add, List.getD_append _ _ _ _ (by omega), List.getElem_cons_zero]
    | succ i =>
      rw [List.getD_append_right _ _ _ _ (by rw [hx, Nat.mul_succ]; omega), hx, List.getElem_cons_succ, ← ih hl (by simpa using hi)]
      congr 1
      rw [Nat.mul_succ]
      omega

/-- The same of rows of one length laid end to end. -/
theorem getD_flatten_const {l : List (List β)} {w : Nat} (h : ∀ x ∈ l, x.length = w) {r q : Nat} (hr : r < l.length) (hq : q < w) (d : β) :
    l.flatten.getD (r * w + q) d = (l.getD r []).getD q d := by
  rw [List.getD_eq_getElem _ _ hr, Nat.mul_comm, ← List.flatMap_id, getD_flatMap_const (by simpa using h) hr hq]
  rfl

theorem length_flatten_const {l : List (List β)} {w : Nat} (h : ∀ x ∈ l, x.length = w) : l.flatten.length = w * l.length := by
  rw [← List.flatMap_id, length_flatMap_const (by simpa using h)]

/-- Cutting a list and laying the pieces end to end gives the list. -/
theorem flatten_chunksOf (n fuel : Nat) (l : List α) (h : l.length ≤ n * fuel) : (chunksOf n fuel l).flatten = l := by
  induction fuel generalizing l with
  | zero => simpa [chunksOf, eq_comm] using h
  | succ fuel ih =>
    unfold chunksOf
    split
    · next he => rw [List.isEmpty_iff.mp he]; rfl
    · rw [List.flatten_cons, ih _ (by rw [List.length_drop]; rw [Nat.mul_succ] at h; omega), List.take_append_drop]

/-- A list cut into pieces as long as itself. -/
theorem chunksOf_length (fuel : Nat) (l : List α) : chunksOf l.length (fuel + 1) l = if l.isEmpty then [] else [l] := by
  unfold chunksOf
  split
  · rfl
  · cases fuel <;> simp [chunksOf]

end blocks

/-! ## Reads and writes of a scratchpad without errors (R184, R203) -/

@[simp] theorem length_spadRead (x : Tile) (a n : Nat) : (spadRead x a n).length = n := by simp [spadRead, rdBytes]

theorem spadRead_getElem (x : Tile) (a n i : Nat) (h : i < (spadRead x a n).length) : (spadRead x a n)[i] = mget 0 x.spad (a + i) := by
  simp [spadRead, rdBytes]

theorem spadRead_getD (x : Tile) (a : Nat) {n i : Nat} (h : i < n) : (spadRead x a n).getD i 0 = mget 0 x.spad (a + i) := by
  rw [List.getD_eq_getElem _ _ (by simpa using h), spadRead_getElem]

theorem spadRead_congr {x y : Tile} {a n : Nat} (h : ∀ i < n, mget 0 y.spad (a + i) = mget 0 x.spad (a + i)) : spadRead y a n = spadRead x a n :=
  List.ext_getElem (by simp) fun i hi _ => by simpa [spadRead_getElem] using h i (by simpa using hi)

theorem spadRead_of_spad {x y : Tile} (h : y.spad = x.spad) (a n : Nat) : spadRead y a n = spadRead x a n := by
  unfold spadRead; rw [h]

theorem spadRead_slice (x : Tile) (a : Nat) {n k m : Nat} (h : k + m ≤ n) : ((spadRead x a n).drop k).take m = spadRead x (a + k) m :=
  List.ext_getElem (by simp; omega) fun i _ _ => by simp [spadRead_getElem, Nat.add_assoc]

theorem badMerges_clean {x : Tile} (h : x.spadEcc = []) (a n : Nat) : badMerges x a n = [] := by simp [badMerges, h]

theorem spadWriteTile_clean {x : Tile} (h : x.spadEcc = []) (a : Nat) (bs : List Byte) : (spadWriteTile x a bs).spadEcc = [] := by
  simp [spadWriteTile, h]

/-- Block i of the blocks of w bytes that a write has stored. -/
theorem spadRead_spadWriteTile_block {α : Type} {x : Tile} (hx : x.spadEcc = []) (a : Nat) {l : List α} {f : α → List Byte} {w : Nat}
    (hf : ∀ v ∈ l, (f v).length = w) {i : Nat} (hi : i < l.length) : spadRead (spadWriteTile x a (l.flatMap f)) (a + w * i) w = f l[i] := by
  have hlen := length_flatMap_const hf
  have hfi : (f l[i]).length = w := hf _ (List.getElem_mem hi)
  refine List.ext_getElem (by simp [hfi]) fun k hk hk' => ?_
  have hkw : k < w := by simpa using hk
  have hin : w * i + k < w * l.length := by
    have := Nat.mul_le_mul_left w (show i + 1 ≤ l.length from hi)
    rw [Nat.mul_succ] at this
    omega
  rw [spadRead_getElem, spadWriteTile_byte _ (badMerges_clean hx _ _), if_pos (by omega), Nat.add_assoc, Nat.add_sub_cancel_left,
    getD_flatMap_const hf hi hkw, List.getD_eq_getElem]

theorem spadRead_spadWriteTile_outside {x : Tile} {a b n : Nat} {bs : List Byte} (h : b + n ≤ a ∨ a + bs.length ≤ b) :
    spadRead (spadWriteTile x a bs) b n = spadRead x b n :=
  spadRead_congr fun i hi => spadWriteTile_outside (by omega)

theorem rgnBad_clean {x : Tile} (h : x.spadEcc = []) (rs : List Rgn) : rs.any (rgnBad x) = false := by simp [rgnBad, opndBad, spadBad, h]

theorem opndWrite_plain {v : BitVec 24} {a : Nat} (h : opnd v = .plain a) (s : State) (t : W16) (j : BitVec 2) (bs : List Byte) :
    opndWrite s t j v bs = spadWrite s t j a bs := by
  simp [opndWrite, opndAddr, opndSlot, h]

theorem opndRewrite_plain {v : BitVec 24} {a : Nat} (h : opnd v = .plain a) (s : State) (t : W16) (j : BitVec 2) (bs : List Byte) :
    opndRewrite s t j v bs = spadWrite s t j a bs := by
  simp [opndRewrite, opndAddr, h]

theorem opndAddr_plain {v : BitVec 24} {a : Nat} (h : opnd v = .plain a) (x : Tile) : opndAddr x v = a := by simp [opndAddr, h]

/-! ## Rows of elements of whole bytes (R25-R30, R36) -/

section rows
variable {code w : Nat} (hw : elemBits code = 8 * w)
include hw

theorem rowBytes_whole (n : Nat) : rowBytes code n = w * n := by
  unfold rowBytes
  rw [hw]
  have : n * (8 * w) = 8 * (w * n) := by ring
  omega

/-- A row's bytes are its elements' bytes in order. -/
theorem rowEncode_whole (l : List Int) : rowEncode code l = l.flatMap fun v => toLE w (toBits (8 * w) v) := by
  unfold rowEncode
  dsimp only
  rw [rowBytes_whole hw, hw]
  induction l with
  | nil => rfl
  | cons v l ih =>
    have hlt := toBits_lt (8 * w) v
    rw [List.flatMap_cons, ← ih, List.length_cons, Nat.mul_succ, Nat.add_comm, toLE_append, List.foldr_cons, toLE_add_mul,
      Nat.add_mul_div_left _ _ (Nat.two_pow_pos _), Nat.div_eq_of_lt hlt, Nat.zero_add]

/-- Element i of a row read from the scratchpad. -/
theorem rowVals_spadRead (x : Tile) (a : Nat) {n i : Nat} (hi : i < (rowVals code (spadRead x a (w * n)) n).length) :
    (rowVals code (spadRead x a (w * n)) n)[i] = elemVal code (leNat (spadRead x (a + w * i) w)) := by
  have hin : i < n := by simpa [rowVals, rowBits] using hi
  have hle : w * i + w ≤ w * n := by simpa [Nat.mul_succ] using Nat.mul_le_mul_left w hin
  simp only [rowVals, rowBits, List.getElem_map, List.getElem_range, hw, Nat.mul_assoc]
  rw [leNat_slice _ _ _ (by simpa using hle), spadRead_slice _ _ hle]

end rows

@[simp] theorem length_rowVals (code : Nat) (bs : List Byte) (n : Nat) : (rowVals code bs n).length = n := by simp [rowVals, rowBits]

@[simp] theorem length_rowExps (f : W16) (strip : List Byte) (n : Nat) : (rowExps f strip n).length = n := by
  unfold rowExps
  split <;> simp

@[simp] theorem length_readTensor (x : Tile) (f : W16) (addr strip : BitVec 24) (rows cols : Nat) : (readTensor x f addr strip rows cols).length = rows := by
  simp [readTensor]

theorem length_row_readTensor (x : Tile) (f : W16) (addr strip : BitVec 24) (rows cols : Nat) : ∀ l ∈ readTensor x f addr strip rows cols, l.length = cols := by
  simp [readTensor]

/-- Element [r][q] of a tensor with one exponent. -/
theorem readTensor_at {x : Tile} {f : W16} {addr strip : BitVec 24} {rows cols r q w : Nat} (hw : elemBits (fmtCode f) = 8 * w) (hb : blockElems f = 0)
    (hr : r < rows) (hq : q < cols) : ((readTensor x f addr strip rows cols).getD r []).getD q (0, 0)
      = (elemVal (fmtCode f) (leNat (spadRead x (opndAddr x addr + w * (r * cols + q)) w)), expVal (fmtExp f)) := by
  have hrow : r < (readTensor x f addr strip rows cols).length := by simpa using hr
  rw [List.getD_eq_getElem _ [] hrow, List.getD_eq_getElem _ _ (by rwa [length_row_readTensor _ _ _ _ _ _ _ (List.getElem_mem hrow)])]
  have ha : opndAddr x addr + w * (r * cols + q) = opndAddr x addr + r * (w * cols) + w * q := by ring
  simp only [readTensor, List.getElem_map, List.getElem_range, List.getElem_zip, rowBytes_whole hw, rowVals_spadRead hw, rowExps, hb, if_true,
    List.getElem_replicate, ha]

/-- The elements of a tensor in storage order. -/
theorem readTensor_flatten_at (x : Tile) (f : W16) (addr strip : BitVec 24) {rows cols r q : Nat} (hr : r < rows) (hq : q < cols) :
    (readTensor x f addr strip rows cols).flatten.getD (r * cols + q) (0, 0) = ((readTensor x f addr strip rows cols).getD r []).getD q (0, 0) :=
  getD_flatten_const (length_row_readTensor _ _ _ _ _ _) (by simpa using hr) hq _

theorem length_readTensor_flatten (x : Tile) (f : W16) (addr strip : BitVec 24) (rows cols : Nat) :
    (readTensor x f addr strip rows cols).flatten.length = rows * cols := by
  rw [length_flatten_const (length_row_readTensor _ _ _ _ _ _), length_readTensor, Nat.mul_comm]

theorem rowMajor_lt {rows cols r q : Nat} (hr : r < rows) (hq : q < cols) : r * cols + q < rows * cols := by
  have := Nat.mul_le_mul_right cols (show r + 1 ≤ rows from hr)
  rw [Nat.succ_mul] at this
  omega

/-! ## The commands that end an operation of the conversion unit (R169-R171) -/

section runs
variable {s : State} {tile : W16} {o : EngOp} {rest : List EngOp} (hq : unitQ (getTile s tile) .conv = o :: rest)
  (hs : o.started = true) (hw : o.slotWait = none)
include hq hs hw

theorem convRunning_head {k : EngKind} (hk : o.kind = k) : convRunning s tile k = some o := by
  simp [convRunning, headOp, hq, hs, hw, hk]

variable (hp : tilePresent s tile = true)
include hp

theorem exec_conversionComplete_runs (hk : o.kind = .cvt) : exec (.conversionComplete tile) s = .next (cvtFinish s tile o) := by
  change execConversionComplete tile s = _
  simp only [execConversionComplete, onTile_present hp, convRunning_head hq hs hw hk]

theorem exec_gutterComplete_runs (hk : o.kind = .gutter) : exec (.gutterComplete tile) s = .next (gutFinish s tile o) := by
  change execGutterComplete tile s = _
  simp only [execGutterComplete, onTile_present hp, convRunning_head hq hs hw hk]

theorem exec_xposeComplete_runs (hk : o.kind = .xpose) : exec (.xposeComplete tile) s = .next (xposeFinish s tile o) := by
  change execXposeComplete tile s = _
  simp only [execXposeComplete, onTile_present hp, convRunning_head hq hs hw hk]

end runs

/-! ## Conversions to a per-tensor target (R39-R42, R169) -/

/-- An element converted at a target's own exponent. -/
def convElem (f : W16) (rnd r : Nat) (v : Elem) : Int := (convClamp (fmtCode f) false (convRaw v.1 v.2 (expVal (fmtExp f)) rnd r).1).1

theorem convRun_values (f : W16) (rnd : Nat) (draw : Nat → Nat) (l : List Elem) :
    (convRun f rnd draw 0 (expVal (fmtExp f)) false l).map (·.1) = l.mapIdx fun i v => convElem f rnd (draw i) v :=
  List.ext_getElem (by simp [convRun]) fun i _ _ => by simp [convRun, convElem]

/-- What an EXPLICIT conversion writes, in storage order: one exponent, one group (R39, R42). -/
theorem convert_explicit_flatten {f : W16} (hb : blockElems f = 0) (rnd : Nat) (draw : Nat → Nat) {cols : Nat} {rows : List (List Elem)}
    (hr : ∀ l ∈ rows, l.length = cols) : (convert f 1 rnd draw cols rows).rows.flatten = rows.flatten.mapIdx fun i v => convElem f rnd (draw i) v := by
  have hlen := length_flatten_const hr
  have hgs : ∀ fl : List Elem, ((chunksOf fl.length (fl.length + 1) fl).mapIdx fun i l => convGroup f 1 rnd draw (i * fl.length) l).flatMap (·.1)
      = convRun f rnd draw 0 (expVal (fmtExp f)) false fl := by
    intro fl
    rw [chunksOf_length]
    cases fl <;> simp [convGroup, pickExp, convRun]
  unfold convert
  simp only [hb, if_true, hgs, convRun_values]
  exact flatten_chunksOf _ _ _ (by rw [List.length_mapIdx, hlen, Nat.mul_succ]; omega)

/-- The elements that an EXPLICIT conversion leaves, in storage order. -/
def cvtElems (x : Tile) (t : W16) (o : EngOp) (p : CvtCmd) : List Int :=
  (readTensor x p.srcFmt p.src p.srcStrip p.rows p.cols).flatten.mapIdx fun i v => convElem p.dstFmt p.rnd (drawFor o t i) v

theorem length_cvtElems (x : Tile) (t : W16) (o : EngOp) (p : CvtCmd) : (cvtElems x t o p).length = p.rows * p.cols := by
  rw [cvtElems, List.length_mapIdx, length_readTensor_flatten]

theorem cvtElems_at (x : Tile) (t : W16) (o : EngOp) (p : CvtCmd) {r q : Nat} (hr : r < p.rows) (hq : q < p.cols)
    (hi : r * p.cols + q < (cvtElems x t o p).length) : (cvtElems x t o p)[r * p.cols + q]
      = convElem p.dstFmt p.rnd (drawFor o t (r * p.cols + q)) (((readTensor x p.srcFmt p.src p.srcStrip p.rows p.cols).getD r []).getD q (0, 0)) := by
  rw [← readTensor_flatten_at _ _ _ _ hr hq, List.getD_eq_getElem _ _ (by simpa [cvtElems] using hi)]
  simp only [cvtElems, List.getElem_mapIdx]

/-- The bytes of those elements, of w bytes each. -/
theorem convert_explicit_bytes (x : Tile) (t : W16) (o : EngOp) (p : CvtCmd) {w : Nat} (hb : blockElems p.dstFmt = 0)
    (hw : elemBits (fmtCode p.dstFmt) = 8 * w) :
    (convert p.dstFmt 1 p.rnd (drawFor o t) p.cols (readTensor x p.srcFmt p.src p.srcStrip p.rows p.cols)).rows.flatMap (rowEncode (fmtCode p.dstFmt))
      = (cvtElems x t o p).flatMap fun v => toLE w (toBits (8 * w) v) := by
  rw [cvtElems, ← convert_explicit_flatten hb _ _ (length_row_readTensor _ _ _ _ _ _), ← List.flatMap_id, List.flatMap_assoc,
    funext (rowEncode_whole hw)]
  rfl

section conversion
variable {s : State} {tile : W16} {o : EngOp} {p : CvtCmd} (hp : cvtCmd o.block = p) (hx : (getTile s tile).spadEcc = []) {dst w : Nat}
  (hd : opnd p.dst = .plain dst) (ha : isA32 p.srcFmt = false) (hb : blockElems p.dstFmt = 0) (hm : p.mode = 1)
  (hw : elemBits (fmtCode p.dstFmt) = 8 * w)
include hp hx hd ha hb hm hw

/-- The end of a conversion leaves its elements from its target's address up. -/
theorem cvtFinish_endsAs : EndsAs (kindUnit o.kind)
    (spadWriteTile (getTile s tile) dst ((cvtElems (getTile s tile) tile o p).flatMap fun v => toLE w (toBits (8 * w) v)))
    (getTile (cvtFinish s tile o) tile) := by
  unfold cvtFinish
  simp only [hp, rgnBad_clean hx, cvtRead, ha, cvtWrite, hb, hm, opndWrite_plain hd, Bool.false_eq_true, if_false, ne_eq, not_true_eq_false,
    convert_explicit_bytes _ _ _ _ hb hw]
  rw [if_neg (by decide), ← getTile_spadWrite _ _ o.job]
  exact opDone_endsAs (((KeepsData.noteConv _ _ _).trans (.noteT2 _ _ _)).trans (.sendReport _ _ _ _ _ _ _ _)) o _

/-- A conversion rounds and clamps each element (R40-R42). -/
theorem cvtFinish_element {r q : Nat} (hr : r < p.rows) (hq : q < p.cols) :
    leNat (spadRead (getTile (cvtFinish s tile o) tile) (dst + w * (r * p.cols + q)) w) = toBits (8 * w) (convElem p.dstFmt p.rnd
      (drawFor o tile (r * p.cols + q)) (((readTensor (getTile s tile) p.srcFmt p.src p.srcStrip p.rows p.cols).getD r []).getD q (0, 0))) := by
  have hi : r * p.cols + q < (cvtElems (getTile s tile) tile o p).length := by
    rw [length_cvtElems]; exact rowMajor_lt hr hq
  rw [spadRead_of_spad (cvtFinish_endsAs hp hx hd ha hb hm hw).spad, spadRead_spadWriteTile_block hx dst (by simp) hi, leNat_toLE,
    Nat.mod_eq_of_lt (toBits_lt _ _), cvtElems_at _ _ _ _ hr hq]

theorem cvtFinish_outside {k : Nat} (hk : k < dst ∨ dst + w * (p.rows * p.cols) ≤ k) :
    mget 0 (getTile (cvtFinish s tile o) tile).spad k = mget 0 (getTile s tile).spad k := by
  rw [(cvtFinish_endsAs hp hx hd ha hb hm hw).spad]
  refine spadWriteTile_outside ?_
  rwa [length_flatMap_const (w := w) (by simp), length_cvtElems]

end conversion

/-! ## Gutter updates (R108, R170) -/

/-- An element and its gutter hold the exact sum of weight, gutter and update, clamped to what the pair can hold. -/
theorem gutElem_sum (rnd : Nat) (w : Elem) (g : Int) (d : Elem) (r : Nat) : (gutElem rnd w g d r).w * 256 + (gutElem rnd w g d r).g
    = max (-8388480) (min 8388479 (w.1 * 256 + g + (convRaw d.1 d.2 (w.2 - 8) rnd r).1)) := by
  simp only [gutElem]
  split_ifs <;> dsimp only <;> omega

theorem gutElem_w_range (rnd : Nat) (w : Elem) (g : Int) (d : Elem) (r : Nat) : -32768 ≤ (gutElem rnd w g d r).w ∧ (gutElem rnd w g d r).w < 32768 := by
  simp only [gutElem]
  split_ifs <;> dsimp only <;> omega

theorem gutElem_g_range (rnd : Nat) (w : Elem) (g : Int) (d : Elem) (r : Nat) : -128 ≤ (gutElem rnd w g d r).g ∧ (gutElem rnd w g d r).g < 128 := by
  simp only [gutElem]
  omega

theorem elemVal_i8 (b : Nat) : elemVal 3 b = sgn 8 b := rfl
theorem elemVal_i16 (b : Nat) : elemVal 5 b = sgn 16 b := rfl

theorem length_gutElems (x : Tile) (t : W16) (o : EngOp) (p : GutCmd) : (gutElems x t o p).length = p.rows * p.cols := by
  simp [gutElems, length_readTensor_flatten, -List.length_flatten]

/-- Element [r][q] of an update: its weight and gutter as they stand, and its update. -/
theorem gutElems_at {x : Tile} (t : W16) (o : EngOp) {p : GutCmd} {a b r q : Nat} (ha : opnd p.w = .plain a) (hb : opnd p.g = .plain b)
    (hf : blockElems p.wFmt = 0) (hc : fmtCode p.wFmt = 5) (hr : r < p.rows) (hq : q < p.cols) (hi : r * p.cols + q < (gutElems x t o p).length) :
    (gutElems x t o p)[r * p.cols + q] = gutElem p.rnd (sgn 16 (leNat (spadRead x (a + 2 * (r * p.cols + q)) 2)), expVal (fmtExp p.wFmt))
      (sgn 8 (leNat (spadRead x (b + (r * p.cols + q)) 1))) (((readTensor x p.dFmt p.d p.dStrip p.rows p.cols).getD r []).getD q (0, 0))
      (drawFor o t (r * p.cols + q)) := by
  have hn := rowMajor_lt hr hq
  have hws := readTensor_at (x := x) (addr := p.w) (strip := p.wStrip) (w := 2) (by rw [hc]; rfl) hf hr hq
  rw [hc, elemVal_i16, opndAddr_plain ha] at hws
  have hgs := rowVals_spadRead (code := 3) (w := 1) rfl x b (n := p.rows * p.cols) (i := r * p.cols + q) (by simpa using hn)
  simp only [Nat.one_mul, elemVal_i8] at hgs
  rw [← hws, ← hgs, ← readTensor_flatten_at _ _ _ _ hr hq, ← readTensor_flatten_at _ _ _ _ hr hq,
    List.getD_eq_getElem _ _ (by rw [length_readTensor_flatten]; exact hn), List.getD_eq_getElem _ _ (by rw [length_readTensor_flatten]; exact hn)]
  simp only [gutElems, List.getElem_mapIdx, List.getElem_zip, opndAddr_plain hb]

section gutter
variable {s : State} {tile : W16} {o : EngOp} {p : GutCmd} (hp : gutCmd o.block = p) (hx : (getTile s tile).spadEcc = []) {a b : Nat}
  (ha : opnd p.w = .plain a) (hb : opnd p.g = .plain b)
include hp hx ha hb

/-- The weights, then the gutters, are written back in place. -/
theorem gutFinish_endsAs : EndsAs (kindUnit o.kind)
    (spadWriteTile (spadWriteTile (getTile s tile) a ((gutElems (getTile s tile) tile o p).flatMap fun e => toLE 2 (toBits 16 e.w))) b
      ((gutElems (getTile s tile) tile o p).flatMap fun e => toLE 1 (toBits 8 e.g))) (getTile (gutFinish s tile o) tile) := by
  unfold gutFinish
  simp only [hp, rgnBad_clean hx, opndRewrite_plain ha, opndRewrite_plain hb, Bool.false_eq_true, if_false, rowEncode_whole (code := 5) (w := 2) rfl,
    rowEncode_whole (code := 3) (w := 1) rfl, List.flatMap_map]
  rw [← getTile_spadWrite _ _ o.job, ← getTile_spadWrite _ _ o.job]
  exact opDone_endsAs ((KeepsData.satNote _ _ _ _).trans (.sendReport _ _ _ _ _ _ _ _)) o _

theorem gutFinish_outside {k : Nat} (hka : k < a ∨ a + 2 * (p.rows * p.cols) ≤ k) (hkb : k < b ∨ b + p.rows * p.cols ≤ k) :
    mget 0 (getTile (gutFinish s tile o) tile).spad k = mget 0 (getTile s tile).spad k := by
  rw [(gutFinish_endsAs hp hx ha hb).spad, spadWriteTile_outside, spadWriteTile_outside]
  · rwa [length_flatMap_const (w := 2) (by simp), length_gutElems]
  · rwa [length_flatMap_const (w := 1) (by simp), length_gutElems, Nat.one_mul]

theorem gutFinish_gutter {i : Nat} (hi : i < (gutElems (getTile s tile) tile o p).length) :
    sgn 8 (leNat (spadRead (getTile (gutFinish s tile o) tile) (b + i) 1)) = (gutElems (getTile s tile) tile o p)[i].g := by
  obtain ⟨lo, hi'⟩ : -128 ≤ (gutElems (getTile s tile) tile o p)[i].g ∧ (gutElems (getTile s tile) tile o p)[i].g < 128 := by
    simp only [gutElems, List.getElem_mapIdx]
    exact gutElem_g_range _ _ _ _ _
  have hblk := spadRead_spadWriteTile_block (spadWriteTile_clean hx a ((gutElems (getTile s tile) tile o p).flatMap fun e => toLE 2 (toBits 16 e.w))) b
    (l := gutElems (getTile s tile) tile o p) (f := fun e => toLE 1 (toBits 8 e.g)) (w := 1) (by simp) hi
  rw [Nat.one_mul] at hblk
  rw [spadRead_of_spad (gutFinish_endsAs hp hx ha hb).spad, hblk, leNat_toLE, Nat.mod_eq_of_lt (toBits_lt _ _), sgn_toBits (by decide) lo hi']

variable (hd : a + 2 * (p.rows * p.cols) ≤ b ∨ b + p.rows * p.cols ≤ a)
include hd

/-- The gutters' write leaves the weights' bytes. -/
theorem gutFinish_weight {i : Nat} (hi : i < (gutElems (getTile s tile) tile o p).length) :
    sgn 16 (leNat (spadRead (getTile (gutFinish s tile o) tile) (a + 2 * i) 2)) = (gutElems (getTile s tile) tile o p)[i].w := by
  have hn : i < p.rows * p.cols := by rwa [length_gutElems] at hi
  have hlen := length_flatMap_const (l := gutElems (getTile s tile) tile o p) (f := fun e => toLE 1 (toBits 8 e.g)) (w := 1) (by simp)
  rw [length_gutElems] at hlen
  obtain ⟨lo, hi'⟩ : -32768 ≤ (gutElems (getTile s tile) tile o p)[i].w ∧ (gutElems (getTile s tile) tile o p)[i].w < 32768 := by
    simp only [gutElems, List.getElem_mapIdx]
    exact gutElem_w_range _ _ _ _ _
  rw [spadRead_of_spad (gutFinish_endsAs hp hx ha hb).spad, spadRead_spadWriteTile_outside (by rw [hlen]; omega),
    spadRead_spadWriteTile_block hx a (by simp) hi, leNat_toLE, Nat.mod_eq_of_lt (toBits_lt _ _), sgn_toBits (by decide) lo hi']

/-- A pair of weight and gutter holds the exact sum of weight, gutter and update, clamped to what it can hold (R108). -/
theorem gutFinish_sum (hf : blockElems p.wFmt = 0) (hc : fmtCode p.wFmt = 5) {r q : Nat} (hr : r < p.rows) (hq : q < p.cols) :
    let x := getTile s tile
    let i := r * p.cols + q
    let d := ((readTensor x p.dFmt p.d p.dStrip p.rows p.cols).getD r []).getD q (0, 0)
    sgn 16 (leNat (spadRead (getTile (gutFinish s tile o) tile) (a + 2 * i) 2)) * 256 + sgn 8 (leNat (spadRead (getTile (gutFinish s tile o) tile) (b + i) 1))
      = max (-8388480) (min 8388479 (sgn 16 (leNat (spadRead x (a + 2 * i) 2)) * 256 + sgn 8 (leNat (spadRead x (b + i) 1))
          + (convRaw d.1 d.2 (expVal (fmtExp p.wFmt) - 8) p.rnd (drawFor o tile i)).1)) := by
  intro x i d
  have hi : i < (gutElems x tile o p).length := by rw [length_gutElems]; exact rowMajor_lt hr hq
  rw [gutFinish_weight hp hx ha hb hd hi, gutFinish_gutter hp hx ha hb hi, gutElems_at tile o ha hb hf hc hr hq hi, gutElem_sum]

end gutter

/-! ## Transposing copies (R119, R171) -/

/-- The target's blocks: element [r][c] of the source as element [c][r]. -/
theorem xposeBytes_eq (x : Tile) (p : XposeCmd) : xposeBytes x p = (List.range p.cols).flatMap fun c => (List.range p.rows).flatMap fun r =>
    spadRead x (opndAddr x p.src + (r * p.cols + c) * elemBytes p.fmt) (elemBytes p.fmt) := by
  refine List.flatMap_congr fun c hc => List.flatMap_congr fun r hr => spadRead_slice _ _ ?_
  have := Nat.mul_le_mul_right (elemBytes p.fmt) (show r * p.cols + c + 1 ≤ p.rows * p.cols from rowMajor_lt (List.mem_range.mp hr) (List.mem_range.mp hc))
  rwa [Nat.succ_mul] at this

theorem length_xposeBytes (x : Tile) (p : XposeCmd) : (xposeBytes x p).length = p.rows * p.cols * elemBytes p.fmt := by
  rw [xposeBytes_eq, length_flatMap_const (w := elemBytes p.fmt * p.rows), List.length_range]
  · ring
  · intro c _
    rw [length_flatMap_const (w := elemBytes p.fmt) (by simp), List.length_range]

/-- Byte i of the target's element [q][r]. -/
theorem xposeBytes_at (x : Tile) (p : XposeCmd) {a r q i : Nat} (ha : opnd p.src = .plain a) (hr : r < p.rows) (hq : q < p.cols) (hi : i < elemBytes p.fmt) :
    (xposeBytes x p).getD ((q * p.rows + r) * elemBytes p.fmt + i) 0 = mget 0 x.spad (a + (r * p.cols + q) * elemBytes p.fmt + i) := by
  have hin : elemBytes p.fmt * r + i < elemBytes p.fmt * p.rows := by
    have := rowMajor_lt hr hi
    rwa [Nat.mul_comm r, Nat.mul_comm p.rows] at this
  have hat : (q * p.rows + r) * elemBytes p.fmt + i = elemBytes p.fmt * p.rows * q + (elemBytes p.fmt * r + i) := by ring
  rw [xposeBytes_eq, hat, getD_flatMap_const (w := elemBytes p.fmt * p.rows) ?_ (by simpa using hq) hin, getD_flatMap_const (by simp) (by simpa using hr) hi,
    spadRead_getD _ _ hi, List.getElem_range, List.getElem_range, opndAddr_plain ha]
  intro c _
  rw [length_flatMap_const (w := elemBytes p.fmt) (by simp), List.length_range]

section copy
variable {s : State} {tile : W16} {o : EngOp} {p : XposeCmd} (hp : xposeCmd o.block = p) (hx : (getTile s tile).spadEcc = []) {b : Nat}
  (hb : opnd p.dst = .plain b)
include hp hx hb

/-- The end of a copy leaves the transposed elements from its target's address up. -/
theorem xposeFinish_endsAs :
    EndsAs (kindUnit o.kind) (spadWriteTile (getTile s tile) b (xposeBytes (getTile s tile) p)) (getTile (xposeFinish s tile o) tile) := by
  unfold xposeFinish
  simp only [hp, rgnBad_clean hx, opndWrite_plain hb, Bool.false_eq_true, if_false]
  rw [← getTile_spadWrite _ _ o.job]
  exact opDone_endsAs (.refl _) o _

theorem xposeFinish_outside {k : Nat} (hk : k < b ∨ b + p.rows * p.cols * elemBytes p.fmt ≤ k) :
    mget 0 (getTile (xposeFinish s tile o) tile).spad k = mget 0 (getTile s tile).spad k := by
  rw [(xposeFinish_endsAs hp hx hb).spad]
  refine spadWriteTile_outside ?_
  rwa [length_xposeBytes]

theorem xposeFinish_byte {a r q i : Nat} (ha : opnd p.src = .plain a) (hr : r < p.rows) (hq : q < p.cols) (hi : i < elemBytes p.fmt) :
    mget 0 (getTile (xposeFinish s tile o) tile).spad (b + (q * p.rows + r) * elemBytes p.fmt + i)
      = mget 0 (getTile s tile).spad (a + (r * p.cols + q) * elemBytes p.fmt + i) := by
  have hin := rowMajor_lt (rowMajor_lt hq hr) hi
  rw [Nat.mul_comm p.cols] at hin
  rw [(xposeFinish_endsAs hp hx hb).spad, spadWriteTile_byte _ (badMerges_clean hx _ _), length_xposeBytes, Nat.add_assoc, if_pos (by omega),
    Nat.add_sub_cancel_left, xposeBytes_at _ _ ha hr hq hi]

end copy

/-! ## Wide elements (R121-R124) -/

/-- Items stored at keys k, k + 1, ... of a map. -/
theorem mget_foldl_mset {α : Type} [DecidableEq α] (d : α) (l : List α) (m : SMap α) (off k : Nat) :
    mget d ((l.mapIdx fun i v => (off + i, v)).foldl (fun m e => mset d m e.1 e.2) m) k
      = if off ≤ k ∧ k < off + l.length then l.getD (k - off) d else mget d m k := by
  induction l generalizing m off with
  | nil => rw [if_neg (by simp only [List.length_nil]; omega)]; rfl
  | cons v l ih =>
    have hs : (fun i (u : α) => (off + (i + 1), u)) = fun i u => (off + 1 + i, u) := by
      funext i u; congr 1; omega
    rw [List.mapIdx_cons, List.foldl_cons, hs, ih, mget_mset, List.length_cons]
    by_cases h1 : k = off
    · rw [if_neg (by omega), if_pos (by simpa using h1), if_pos (by omega), h1, Nat.sub_self]; rfl
    · by_cases h2 : off + 1 ≤ k ∧ k < off + 1 + l.length
      · have h3 : k - off = (k - (off + 1)) + 1 := by omega
        rw [if_pos h2, if_pos (by omega), h3, List.getD_cons_succ]
      · rw [if_neg h2, if_neg (by simpa using h1), if_neg (by omega)]

theorem getWide_putWide (x : Tile) (off : Nat) (l : List W64) (k : Nat) :
    getWide (putWide x off l) k = if off ≤ k ∧ k < off + l.length then l.getD (k - off) 0 else getWide x k :=
  mget_foldl_mset 0 l x.wideBuf off k

theorem getWide_of_wideBuf {x y : Tile} (h : y.wideBuf = x.wideBuf) (k : Nat) : getWide y k = getWide x k := by
  unfold getWide; rw [h]

/-! ## The command that ends a wide operation (R127) -/

/-- No element that an operation reads holds a double-bit error. -/
theorem wideBad_clean {x : Tile} (h : x.wideEcc = []) (p : Prop) [Decidable p] (off n : Nat) : (!(if p then wideBad x off n else []).isEmpty) = false := by
  simp [wideBad, h]

theorem exec_wideOpComplete_runs {s : State} {tile : W16} {o : EngOp} {rest : List EngOp} (hp : tilePresent s tile = true)
    (hq : unitQ (getTile s tile) .wide = o :: rest) (hs : o.started = true) (hw : o.slotWait = none) :
    exec (.wideOpComplete tile) s = .next (wideFinish s tile o) := by
  change execWideOpComplete tile s = _
  simp [execWideOpComplete, onTile_present hp, headOp, hq, hs, hw]

section wide
variable {s : State} {tile : W16} {o : EngOp} (hx : (getTile s tile).spadEcc = []) (he : (getTile s tile).wideEcc = [])
include hx he

/-- WCLR writes zeros. -/
theorem wideFinish_wclr (hk : o.kind = .wclr) :
    EndsAs (kindUnit o.kind) (putWide (getTile s tile) (immOff o) (List.replicate (immCount o) 0)) (getTile (wideFinish s tile o) tile) := by
  rw [← getTile_modTile s tile fun x => putWide x (immOff o) (List.replicate (immCount o) 0)]
  simp only [wideFinish, hk, wideSpan, wideBad_clean he, rgnBad_clean hx, Bool.false_eq_true, if_false]
  rw [← hk]
  exact opDone_endsAs (.refl _) o _

/-- WLD writes the words it reads. -/
theorem wideFinish_wld (hk : o.kind = .wld) :
    EndsAs (kindUnit o.kind) (putWide (getTile s tile) (immOff o) (wldWords (getTile s tile) o)) (getTile (wideFinish s tile o) tile) := by
  rw [← getTile_modTile s tile fun x => putWide x (immOff o) (wldWords x o)]
  simp only [wideFinish, hk, wideSpan, wideBad_clean he, rgnBad_clean hx, Bool.false_eq_true, if_false]
  rw [← hk]
  exact opDone_endsAs (.refl _) o _

/-- WST writes the bytes of its elements. -/
theorem wideFinish_wst (hk : o.kind = .wst) {a : Nat} (ha : opnd (o.addr.setWidth 24) = .plain a) :
    EndsAs (kindUnit o.kind) (spadWriteTile (getTile s tile) a (wstBytes (getTile s tile) o)) (getTile (wideFinish s tile o) tile) := by
  rw [← getTile_spadWrite s tile o.job]
  simp only [wideFinish, hk, wideBad_clean he, rgnBad_clean hx, Bool.false_eq_true, if_false, opndWrite_plain ha]
  rw [← hk]
  exact opDone_endsAs (.refl _) o _

/-- WACC writes its sums. -/
theorem wideFinish_wacc (hk : o.kind = .wacc) : EndsAs (kindUnit o.kind)
    (putWide (getTile s tile) (waccCmd o.block).off ((waccElems (getTile s tile) tile o (waccCmd o.block)).map (·.1)))
    (getTile (wideFinish s tile o) tile) := by
  rw [← getTile_modTile s tile fun x => putWide x (waccCmd o.block).off ((waccElems (getTile s tile) tile o (waccCmd o.block)).map (·.1))]
  simp only [wideFinish, hk, wideBad_clean he, rgnBad_clean hx, Bool.false_eq_true, if_false]
  rw [← hk]
  exact opDone_endsAs (((KeepsData.satNote _ _ _ _).trans (.noteWide _ _ _)).trans (.sendReport _ _ _ _ _ _ _ _)) o _

end wide

/-! ## Loads and stores of wide elements (R123, R127) -/

/-- Word i of a load. -/
theorem wldWords_at {x : Tile} {o : EngOp} {a i : Nat} (ha : opnd (o.addr.setWidth 24) = .plain a) (hi : i < immCount o) :
    (wldWords x o).getD i 0 = BitVec.ofNat 64 (leNat (spadRead x (a + 8 * i) 8)) := by
  rw [List.getD_eq_getElem _ _ (by simpa [wldWords] using hi)]
  simp only [wldWords, List.getElem_map, List.getElem_range, opndAddr_plain ha]
  rw [spadRead_slice _ _ (by omega)]

theorem length_wldWords (x : Tile) (o : EngOp) : (wldWords x o).length = immCount o := by simp [wldWords]

theorem length_wstBytes (x : Tile) (o : EngOp) : (wstBytes x o).length = 8 * immCount o := by
  rw [wstBytes, length_flatMap_const (w := 8) (by simp), List.length_range]

theorem getWide_putWide_replicate (x : Tile) (off n k : Nat) :
    getWide (putWide x off (List.replicate n 0)) k = if off ≤ k ∧ k < off + n then 0 else getWide x k := by
  rw [getWide_putWide, List.length_replicate]
  refine ite_congr rfl (fun h => ?_) fun _ => rfl
  rw [List.getD_replicate _ (by omega)]

theorem getWide_putWide_wldWords (x : Tile) {o : EngOp} {a : Nat} (ha : opnd (o.addr.setWidth 24) = .plain a) (k : Nat) :
    getWide (putWide x (immOff o) (wldWords x o)) k
      = if immOff o ≤ k ∧ k < immOff o + immCount o then BitVec.ofNat 64 (leNat (spadRead x (a + 8 * (k - immOff o)) 8)) else getWide x k := by
  rw [getWide_putWide, length_wldWords]
  exact ite_congr rfl (fun h => wldWords_at ha (by omega)) fun _ => rfl

/-- Element k of a store, as its bytes stand in the scratchpad. -/
theorem leNat_wstBytes {x : Tile} (hx : x.spadEcc = []) {o : EngOp} (a : Nat) {k : Nat} (hk : k < immCount o) :
    leNat (spadRead (spadWriteTile x a (wstBytes x o)) (a + 8 * k) 8) = (getWide x (immOff o + k)).toNat := by
  rw [wstBytes, spadRead_spadWriteTile_block hx a (by simp) (by simpa using hk), leNat_toLE, List.getElem_range]
  exact Nat.mod_eq_of_lt (BitVec.isLt _)

/-! ## Wide accumulates (R124) -/

/-- An accumulate adds the converted term and clamps to 64 bits. -/
theorem waccElem_value (rnd : Nat) (wexp : Int) (old : W64) (q : Elem) (r : Nat) :
    (waccElem rnd wexp old q r).1.toInt = max (-(2 ^ 63)) (min (2 ^ 63 - 1) (old.toInt + (convRaw q.1 q.2 wexp rnd r).1)) := by
  unfold waccElem
  dsimp only
  split_ifs with h1 h2 <;> rw [BitVec.toInt_ofInt_eq_self (by decide) (by omega) (by omega)] <;> omega

theorem length_readA32_flatten (x : Tile) (f : W16) (addr shift e24 : BitVec 24) (rows cols : Nat) :
    (readA32 x f addr shift e24 rows cols).flatten.length = rows * cols := by
  have hrow : ∀ l ∈ readA32 x f addr shift e24 rows cols, l.length = cols := by
    intro l hl
    obtain ⟨r, -, rfl⟩ := List.mem_map.mp hl
    dsimp only
    split <;> simp
  rw [length_flatten_const hrow, readA32, List.length_map, List.length_range, Nat.mul_comm]

theorem length_waccElems (x : Tile) (t : W16) (o : EngOp) (p : WaccCmd) : (waccElems x t o p).length = p.m * p.n := by
  rw [waccElems, List.length_mapIdx, length_readA32_flatten]

theorem waccElems_at (x : Tile) (t : W16) (o : EngOp) (p : WaccCmd) {i : Nat} (hi : i < (waccElems x t o p).length) :
    (waccElems x t o p)[i] = waccElem p.rnd (expVal p.wexp) (getWide x (p.off + i))
      (nth (0, 0) (readA32 x p.srcFmt p.src p.shift p.e24 p.m p.n).flatten i) (drawFor o t i) := by
  rw [nth, List.getD_eq_getElem _ _ (by simpa only [waccElems, List.length_mapIdx] using hi)]
  simp only [waccElems, List.getElem_mapIdx]

/-- An element of the span of an accumulate. -/
theorem putWide_waccElems_at (x : Tile) (t : W16) (o : EngOp) (p : WaccCmd) {i : Nat} (hi : i < p.m * p.n) :
    getWide (putWide x p.off ((waccElems x t o p).map (·.1))) (p.off + i) = (waccElem p.rnd (expVal p.wexp) (getWide x (p.off + i))
      (nth (0, 0) (readA32 x p.srcFmt p.src p.shift p.e24 p.m p.n).flatten i) (drawFor o t i)).1 := by
  have hl : i < (waccElems x t o p).length := by rwa [length_waccElems]
  rw [getWide_putWide, if_pos (by rw [List.length_map]; omega), Nat.add_sub_cancel_left, List.getD_eq_getElem _ _ (by simpa using hl), List.getElem_map,
    waccElems_at]

theorem putWide_waccElems_outside (x : Tile) (t : W16) (o : EngOp) (p : WaccCmd) {k : Nat} (hk : k < p.off ∨ p.off + p.m * p.n ≤ k) :
    getWide (putWide x p.off ((waccElems x t o p).map (·.1))) k = getWide x k := by
  rw [getWide_putWide, if_neg (by rw [List.length_map, length_waccElems]; omega)]

/-! ## The statement -/

/-- An operation that has ended leaves the ones behind it in its unit's queue. -/
theorem EndsAs.rest {o : EngOp} {rest : List EngOp} {y z : Tile} (h : EndsAs (kindUnit o.kind) y z) {k : EngKind} (hk : o.kind = k)
    (hq : unitQ y (kindUnit k) = o :: rest) : unitQ z (kindUnit k) = rest := by
  subst hk
  exact h.queue.trans (congrArg List.tail hq)

/-- Settles O28: the three kinds of the conversion unit, then the four of the wide unit. -/
theorem conversionAndWideResults : Obligations.ConversionAndWideResults := by
  refine ⟨?conv, ?wide⟩
  case conv =>
    intro s tile o rest x hp hq hs hw hx at' kept
    refine ⟨?cvt, ?gutter, ?xpose⟩
    case cvt =>
      intro hk p dst hd _ ha _ hb hm h8 _
      have hbits : elemBits (fmtCode p.dstFmt) = 8 * (elemBits (fmtCode p.dstFmt) / 8) := by omega
      exact ⟨_, exec_conversionComplete_runs hq hs hw hp hk, fun r q hr hc => cvtFinish_element rfl hx hd ha hb hm hbits hr hc,
        fun k hk' => cvtFinish_outside rfl hx hd ha hb hm hbits hk', (cvtFinish_endsAs rfl hx hd ha hb hm hbits).rest hk hq⟩
    case gutter =>
      intro hk p n a b ha hb _ hf _ hc hab
      exact ⟨_, exec_gutterComplete_runs hq hs hw hp hk, fun r q hr hq' => gutFinish_sum rfl hx ha hb hab hf hc hr hq',
        fun k hka hkb => gutFinish_outside rfl hx ha hb hka hkb, (gutFinish_endsAs rfl hx ha hb).rest hk hq⟩
    case xpose =>
      intro hk p w a b ha hb
      exact ⟨_, exec_xposeComplete_runs hq hs hw hp hk, fun r q i hr hc hi => xposeFinish_byte rfl hx hb ha hr hc hi,
        fun k hk' => xposeFinish_outside rfl hx hb hk', (xposeFinish_endsAs rfl hx hb).rest hk hq⟩
  case wide =>
    intro s tile o rest x off n hp hq hs hw hx he out elem
    have runs := exec_wideOpComplete_runs hp hq hs hw
    refine ⟨?wclr, ?wld, ?wst, ?wacc⟩
    case wclr =>
      intro hk
      have h := wideFinish_wclr hx he hk
      exact ⟨_, runs, ⟨h.spad, fun k => (getWide_of_wideBuf h.wideBuf k).trans (getWide_putWide_replicate x off n k)⟩, h.rest hk hq⟩
    case wld =>
      intro hk a ha
      have h := wideFinish_wld hx he hk
      exact ⟨_, runs, ⟨h.spad, fun k => (getWide_of_wideBuf h.wideBuf k).trans (getWide_putWide_wldWords x ha k)⟩, h.rest hk hq⟩
    case wst =>
      intro hk a ha
      have h := wideFinish_wst hx he hk ha
      refine ⟨_, runs, ⟨h.wideBuf, fun k hk' => ?_, fun k hk' => ?_⟩, h.rest hk hq⟩
      · rw [spadRead_of_spad h.spad, leNat_wstBytes hx a hk']
      · rw [h.spad]
        exact spadWriteTile_outside (by rwa [length_wstBytes])
    case wacc =>
      intro hk p q _ _ _
      have h := wideFinish_wacc hx he hk
      refine ⟨_, runs, ⟨h.spad, fun i hi => ?_, fun k hk' => ?_⟩, h.rest hk hq⟩
      · rw [show elem _ _ = _ from getWide_of_wideBuf h.wideBuf _, putWide_waccElems_at _ _ _ _ hi, waccElem_value]
      · exact (getWide_of_wideBuf h.wideBuf k).trans (putWide_waccElems_outside _ _ _ _ hk')

end Sys2Proof.Machine
end

section
/-!
PROOFS of the statements of the family '03_press.md': the groups, patches and rows of a press command whose sums need no rounding, and what the
end of such a command leaves of its tile.
-/
namespace Sys2Proof.Machine
open Sys2Proof

/-! ## Groups of a row (R57) -/

/-- Piece t of a list cut into pieces of n. -/
theorem getElem?_chunksOf {α : Type} {n : Nat} (hn : 0 < n) (fuel : Nat) (l : List α) (h : l.length ≤ fuel) (t : Nat) :
    (chunksOf n fuel l)[t]? = if t * n < l.length then some ((l.drop (t * n)).take n) else none := by
  induction fuel generalizing l t with
  | zero =>
    rw [List.length_eq_zero_iff.mp (Nat.le_zero.mp h)]
    simp [chunksOf]
  | succ fuel ih =>
    unfold chunksOf
    cases l with
    | nil => simp
    | cons v l =>
      rw [List.isEmpty_cons, if_neg (by decide)]
      cases t with
      | zero => simp
      | succ t =>
        rw [List.getElem?_cons_succ, ih _ (by simp at h ⊢; omega), List.drop_drop, List.length_drop]
        have : n + t * n = (t + 1) * n := by ring
        rw [this]
        exact if_congr (by omega) rfl rfl

/-- The product of the elements in place i of two rows; 0 beyond their ends. -/
def rowProduct (a b : List Elem) (i : Nat) : Int := (a.getD i (0, 0)).1 * (b.getD i (0, 0)).1

theorem rowProduct_of_length_le {a : List Elem} (b : List Elem) {i : Nat} (h : a.length ≤ i) : rowProduct a b i = 0 := by
  simp [rowProduct, h]

theorem sumI_zip_products (a b : List Int) {n : Nat} (h : a.length ≤ n) :
    sumI ((a.zip b).map fun p => p.1 * p.2) = ∑ i ∈ Finset.range n, a.getD i 0 * b.getD i 0 := by
  rw [sumI, ← List.sum_eq_foldl]
  induction a generalizing b n with
  | nil => simp
  | cons v a ih =>
    obtain ⟨n, rfl⟩ : ∃ k, n = k + 1 := ⟨n - 1, by simp at h; omega⟩
    cases b with
    | nil => simp
    | cons w b => simp [Finset.sum_range_succ', ih b (by simpa using h), add_comm]

section groups
variable {g : Nat} (hg : 0 < g)
include hg

theorem getElem?_rowGroups (l : List Elem) (t : Nat) : (rowGroups g l)[t]?
    = if t * g < l.length then some (((l.drop (t * g)).take g).map (·.1), (((l.drop (t * g)).take g).head?.map (·.2)).getD 0) else none := by
  rw [rowGroups, List.getElem?_map, getElem?_chunksOf hg _ _ (Nat.le_succ _)]
  split <;> rfl

theorem lt_length_rowGroups (l : List Elem) (t : Nat) : t < (rowGroups g l).length ↔ t * g < l.length := by
  rw [← not_le, ← List.getElem?_eq_none_iff, getElem?_rowGroups hg]
  split <;> simp [*]

/-- The values of a group are those of its span of the row. -/
theorem rowGroups_values (l : List Elem) (t : Nat) : (nth ([], 0) (rowGroups g l) t).1 = ((l.drop (t * g)).take g).map (·.1) := by
  rw [nth, List.getD_eq_getElem?_getD, getElem?_rowGroups hg]
  split
  · rfl
  · next h => simp [List.drop_eq_nil_of_le (Nat.not_lt.mp h)]

/-- A group of a row with one exponent has that exponent. -/
theorem rowGroups_exp {l : List Elem} {e : Int} (he : ∀ v ∈ l, v.2 = e) {t : Nat} (ht : t * g < l.length) : (nth ([], 0) (rowGroups g l) t).2 = e := by
  obtain ⟨k, rfl⟩ : ∃ k, g = k + 1 := ⟨g - 1, by omega⟩
  rw [nth, List.getD_eq_getElem?_getD, getElem?_rowGroups hg, if_pos ht, List.drop_eq_getElem_cons ht]
  exact he _ (List.getElem_mem ht)

theorem rowGroups_value_at (l : List Elem) (t : Nat) {i : Nat} (hi : i < g) :
    (nth ([], 0) (rowGroups g l) t).1.getD i 0 = (l.getD (t * g + i) (0, 0)).1 := by
  rw [rowGroups_values hg, List.getD_eq_getElem?_getD, List.getElem?_map, List.getElem?_take_of_lt hi, List.getElem?_drop, List.getD_eq_getElem?_getD]
  cases l[t * g + i]? <;> rfl

/-- A group sum is the sum of its products (R57). -/
theorem groupSum_rowGroups_m (a b : List Elem) (t : Nat) :
    (groupSum (nth ([], 0) (rowGroups g a) t) (nth ([], 0) (rowGroups g b) t)).m = ∑ i ∈ Finset.range g, rowProduct a b (t * g + i) := by
  simp only [groupSum]
  rw [sumI_zip_products _ _ (n := g) (by rw [rowGroups_values hg]; simp)]
  refine Finset.sum_congr rfl fun i hi => ?_
  have hi := Finset.mem_range.mp hi
  rw [rowGroups_value_at hg a t hi, rowGroups_value_at hg b t hi, rowProduct]

end groups

/-- The sum of the first k products of two rows. -/
def rowDot (k : Nat) (a b : List Elem) : Int := ∑ i ∈ Finset.range k, rowProduct a b i

theorem rowDot_zero (a b : List Elem) : rowDot 0 a b = 0 := rfl

/-- Products beyond a row's end add nothing. -/
theorem rowDot_of_length_le {a : List Elem} (b : List Elem) {k : Nat} (h : a.length ≤ k) : rowDot k a b = rowDot a.length a b := by
  unfold rowDot
  exact (Finset.sum_subset (Finset.range_mono h) fun i _ hi => rowProduct_of_length_le b (by simpa using hi)).symm

/-- A sum of the first products is no larger than the sizes of all products add up to. -/
theorem natAbs_rowDot_le (a b : List Elem) (k : Nat) : (rowDot k a b).natAbs ≤ ∑ i ∈ Finset.range a.length, (rowProduct a b i).natAbs := by
  refine (Int.natAbs_sum_le _ _).trans (Finset.sum_le_sum_of_ne_zero fun i _ h => Finset.mem_range.mpr ?_)
  by_contra hi
  exact h (by rw [rowProduct_of_length_le b (Nat.not_lt.mp hi)]; rfl)

/-! ## Running sums that need no rounding (R58-R61) -/

theorem dyAdd_same (m n e : Int) : dyAdd ⟨m, e⟩ ⟨n, e⟩ = ⟨m + n, e⟩ := by simp [dyAdd]

theorem convRaw_same (q e : Int) (mode r : Nat) : convRaw q e e mode r = (q, false) := by simp [convRaw]

/-- A value of the output's own exponent that 32 bits hold fits at shift count 0. -/
theorem fits_zero {m e : Int} (h : m.natAbs < 2 ^ 31) : fits false ⟨m, e⟩ e = true := by
  simp [fits, shiftDown, sumLo, sumHi]
  omega

theorem leastK_zero {e : Int} {xs : List Dy} (h : ∀ x ∈ xs, fits false x e = true) : leastK .normal e 0 xs = (0, false) := by
  have h64 : List.range 64 = 0 :: (List.range 63).map Nat.succ := List.range_succ_eq_map
  have hmd : (Settle.normal == .m0808) = false := rfl
  rw [leastK, h64, List.find?_cons_of_pos]
  simpa [hmd] using h

/-- A group step whose sums fit as they stand adds exactly (R58, R60). -/
theorem groupStep_exact {β : Type} {e : Int} (draw : Nat → Nat) (i0 t : Nat) {st : PatchRow} {gs : List Dy} {l : List β} {m : β → Int} (hk : st.k = 0)
    (hx : (st.vs.zip gs).map (fun p => dyAdd p.1 p.2) = l.map fun b => ⟨m b, e⟩) (hm : ∀ b ∈ l, (m b).natAbs < 2 ^ 31) :
    (groupStep .normal e draw i0 t st gs).k = 0 ∧ (groupStep .normal e draw i0 t st gs).vs = l.map fun b => ⟨m b, e⟩ := by
  have hfit : ∀ x ∈ l.map fun b => (⟨m b, e⟩ : Dy), fits false x e = true := by
    intro x hx
    obtain ⟨b, hb, rfl⟩ := List.mem_map.mp hx
    exact fits_zero (hm b hb)
  simp only [groupStep, hx, hk, leastK_zero hfit, settle]
  refine ⟨trivial, List.ext_getElem (by simp) fun i _ _ => ?_⟩
  simp [convRaw_same]

/-- What holds of a patch row before each group step holds at the end, t groups having been taken before step t. -/
theorem foldl_mapIdx_invariant {α β : Type} {P : Nat → β → Prop} (f : β → Nat × α → β) (l : List α) (b : β) (h0 : P 0 b)
    (hs : ∀ t (ht : t < l.length) b, P t b → P (t + 1) (f b (t, l[t]))) : P l.length ((l.mapIdx fun t v => (t, v)).foldl f b) := by
  induction l using List.reverseRecOn with
  | nil => exact h0
  | append_singleton l v ih =>
    rw [List.mapIdx_concat, List.foldl_concat, List.length_append]
    have hl := ih fun t ht b hb => by
      have := hs t (by simp; omega) b hb
      rwa [List.getElem_append_left ht] at this
    have := hs l.length (by simp) _ hl
    rwa [List.getElem_concat_length rfl] at this

section rows
variable {g : Nat} (hg : 0 < g) {a : List Elem} {bl : List (List Elem)} {ea eb e : Int} (he : e = ea + eb) (ha : ∀ v ∈ a, v.2 = ea)
  (hb : ∀ b ∈ bl, b.length = a.length ∧ ∀ v ∈ b, v.2 = eb) (hfit : ∀ b ∈ bl, ∑ i ∈ Finset.range a.length, (rowProduct a b i).natAbs < 2 ^ 31)
include hg he ha hb hfit

/-- A row of a patch holds the exact sums of its products, at shift count 0 (R58). -/
theorem runPatchRow_exact (draw : Nat → Nat) (i0 : Nat) {st : PatchRow} (hk : st.k = 0) (hv : st.vs = bl.map fun _ => ⟨0, e⟩) :
    (runPatchRow .normal e draw i0 st (rowGroups g a) (bl.map (rowGroups g))).k = 0
    ∧ (runPatchRow .normal e draw i0 st (rowGroups g a) (bl.map (rowGroups g))).vs = bl.map fun b => ⟨rowDot a.length a b, e⟩ := by
  have hend : a.length ≤ (rowGroups g a).length * g := Nat.not_lt.mp fun h => absurd ((lt_length_rowGroups hg a _).mpr h) (lt_irrefl _)
  have hsums : (bl.map fun b => (⟨rowDot a.length a b, e⟩ : Dy)) = bl.map fun b => ⟨rowDot ((rowGroups g a).length * g) a b, e⟩ :=
    List.map_congr_left fun b _ => by rw [rowDot_of_length_le b hend]
  rw [hsums]
  refine foldl_mapIdx_invariant (P := fun t (st : PatchRow) => st.k = 0 ∧ st.vs = bl.map fun b => ⟨rowDot (t * g) a b, e⟩) _ _ _ ⟨hk, ?_⟩ ?_
  · simpa [rowDot_zero] using hv
  · intro t ht st ⟨hk, hv⟩
    have hta := (lt_length_rowGroups hg a t).mp ht
    have hn : (rowGroups g a)[t] = nth ([], 0) (rowGroups g a) t := (List.getD_eq_getElem _ _ ht).symm
    refine groupStep_exact draw i0 t hk ?_ fun b hmem => (natAbs_rowDot_le a b _).trans_lt (hfit b hmem)
    rw [hv, List.map_map, List.zip_map', List.map_map]
    refine List.map_congr_left fun b hmem => ?_
    obtain ⟨hlen, hbe⟩ := hb b hmem
    have hsum : groupSum (nth ([], 0) (rowGroups g a) t) (nth ([], 0) (rowGroups g b) t) = ⟨∑ i ∈ Finset.range g, rowProduct a b (t * g + i), e⟩ := by
      rw [← groupSum_rowGroups_m hg, he, ← rowGroups_exp hg ha hta, ← rowGroups_exp hg hbe (hlen ▸ hta)]
      rfl
    simp only [Function.comp, hn, hsum, dyAdd_same, rowDot, Nat.succ_mul, Finset.sum_range_add]

end rows

/-! ## Rows of patches (R51, R61) -/

/-- Pieces of w elements, laid end to end. -/
theorem flatMap_range_pieces {α : Type} (l : List α) (w c : Nat) : ((List.range c).flatMap fun q => (l.drop (q * w)).take w) = l.take (c * w) := by
  induction c with
  | zero => simp
  | succ c ih => rw [List.range_succ, List.flatMap_append, ih, Nat.succ_mul, List.take_add, List.flatMap_singleton]

theorem le_patches_mul (n : Nat) {w : Nat} (hw : 0 < w) : n ≤ (n + w - 1) / w * w := by
  have h1 := Nat.div_add_mod (n + w - 1) w
  have h2 := Nat.mod_lt (n + w - 1) hw
  rw [Nat.mul_comm] at h1
  omega

theorem foldl_max_zero {ps : List PatchRow} (h : ∀ p ∈ ps, p.k = 0) : ps.foldl (fun m p => Nat.max m p.k) 0 = 0 := by
  induction ps with
  | nil => rfl
  | cons p ps ih =>
    obtain ⟨hp, hps⟩ := List.forall_mem_cons.mp h
    rw [List.foldl_cons, hp]
    exact ih hps

/-- Elements already at the row's shift count are settled no more (R61). -/
theorem finishElem_normal_same (e : Int) (k : Nat) (draw : Nat → Nat) (i : Nat) (v : Dy) : finishElem .normal e k k draw i v = ((v.m, 0), false) := by
  simp [finishElem]

/-- Patch q of an output row, through all of K. -/
def rowPatch (md : Settle) (e : Int) (draw : Nat → Nat) (r n pw k0 : Nat) (init : List Dy) (a : List (List Int × Int)) (bs : List (List (List Int × Int)))
    (q : Nat) : PatchRow :=
  runPatchRow md e draw (r * n + q * pw) { k := k0, vs := (init.drop (q * pw)).take pw, pos := 0, neg := 0, klim := false, inexact := false }
    a ((bs.drop (q * pw)).take pw)

/-- The row's shift count is the greatest of its patches', and its elements are settled once more at it (R61). -/
theorem runRow_s (md : Settle) (e : Int) (draw : Nat → Nat) (r n pw k0 : Nat) (init : List Dy) (a : List (List Int × Int)) (bs : List (List (List Int × Int))) :
    (runRow md e draw r n pw k0 init a bs).s = (((List.range ((n + pw - 1) / pw)).map (rowPatch md e draw r n pw k0 init a bs)).mapIdx fun q p =>
      p.vs.mapIdx fun i v => finishElem md e p.k (runRow md e draw r n pw k0 init a bs).k draw (r * n + q * pw + i) v).flatten.map (·.1.1) := rfl

/-- A row whose patches all end at shift count 0 is their values in order (R61). -/
theorem runRow_of_zero {e : Int} {draw : Nat → Nat} {r n pw k0 : Nat} {init : List Dy} {a : List (List Int × Int)} {bs : List (List (List Int × Int))}
    (h : ∀ q, (rowPatch .normal e draw r n pw k0 init a bs q).k = 0) :
    (runRow .normal e draw r n pw k0 init a bs).k = 0 ∧ (runRow .normal e draw r n pw k0 init a bs).s
      = (List.range ((n + pw - 1) / pw)).flatMap fun q => (rowPatch .normal e draw r n pw k0 init a bs q).vs.map (·.m) := by
  have hk : (runRow .normal e draw r n pw k0 init a bs).k = 0 :=
    foldl_max_zero (ps := (List.range ((n + pw - 1) / pw)).map (rowPatch .normal e draw r n pw k0 init a bs)) (by simpa using fun q _ => h q)
  refine ⟨hk, ?_⟩
  rw [runRow_s, hk, List.map_flatten, List.flatMap_def]
  refine congrArg List.flatten (List.ext_getElem (by simp) fun q _ _ => ?_)
  simp only [List.getElem_map, List.getElem_mapIdx, List.getElem_range, h q]
  refine List.ext_getElem (by simp) fun i _ _ => ?_
  simp [finishElem_normal_same]

/-- An output row whose sums need no rounding is its exact products, at shift count 0 (R58, R61). -/
theorem runRow_exact {g : Nat} (hg : 0 < g) {a : List Elem} {bl : List (List Elem)} {ea eb e : Int} (he : e = ea + eb) (ha : ∀ v ∈ a, v.2 = ea)
    (hb : ∀ b ∈ bl, b.length = a.length ∧ ∀ v ∈ b, v.2 = eb) (hfit : ∀ b ∈ bl, ∑ i ∈ Finset.range a.length, (rowProduct a b i).natAbs < 2 ^ 31)
    (draw : Nat → Nat) (r : Nat) {pw : Nat} (hw : 0 < pw) :
    (runRow .normal e draw r bl.length pw 0 (List.replicate bl.length ⟨0, e⟩) (rowGroups g a) (bl.map (rowGroups g))).k = 0
    ∧ (runRow .normal e draw r bl.length pw 0 (List.replicate bl.length ⟨0, e⟩) (rowGroups g a) (bl.map (rowGroups g))).s = bl.map (rowDot a.length a) := by
  have hall : bl.map (rowDot a.length a) = (List.range ((bl.length + pw - 1) / pw)).flatMap fun q => ((bl.drop (q * pw)).take pw).map (rowDot a.length a) := by
    rw [← List.map_flatMap, flatMap_range_pieces, List.take_of_length_le (le_patches_mul _ hw)]
  rw [hall]
  have hpatch : ∀ q, (rowPatch .normal e draw r bl.length pw 0 (List.replicate bl.length ⟨0, e⟩) (rowGroups g a) (bl.map (rowGroups g)) q).k = 0
      ∧ (rowPatch .normal e draw r bl.length pw 0 (List.replicate bl.length ⟨0, e⟩) (rowGroups g a) (bl.map (rowGroups g)) q).vs
        = ((bl.drop (q * pw)).take pw).map fun b => ⟨rowDot a.length a b, e⟩ := by
    intro q
    have hsub : ∀ b ∈ (bl.drop (q * pw)).take pw, b ∈ bl := fun b h => List.mem_of_mem_drop (List.mem_of_mem_take h)
    rw [rowPatch, ← List.map_drop, ← List.map_take]
    exact runPatchRow_exact hg he ha (fun b h => hb b (hsub b h)) (fun b h => hfit b (hsub b h)) draw _ rfl
      (by rw [← List.map_const', List.map_take, List.map_drop])
  obtain ⟨hk, hs⟩ := runRow_of_zero fun q => (hpatch q).1
  refine ⟨hk, hs.trans (List.flatMap_congr fun q _ => ?_)⟩
  rw [(hpatch q).2, List.map_map]
  rfl

/-! ## Commands that need no rounding (R57, R58, R61) -/

theorem exp_of_mem_readTensor {x : Tile} {f : W16} (hf : blockElems f = 0) {addr strip : BitVec 24} {rows cols : Nat} {l : List Elem}
    (hl : l ∈ readTensor x f addr strip rows cols) : ∀ v ∈ l, v.2 = expVal (fmtExp f) := by
  intro v hv
  obtain ⟨r, -, rfl⟩ := List.mem_map.mp hl
  have h2 := (List.of_mem_zip (a := v.1) (b := v.2) hv).2
  rw [rowExps, if_pos hf] at h2
  exact List.eq_of_mem_replicate h2

/-- A press command that writes OUT and its shift counts alone, whose exponents add up to its output's and whose sums fit in 32 bits. -/
structure ExactPress (x : Tile) (p : PressCmd) : Prop where
  mode : p.m0808 = false
  comp : p.comp = false
  force : bitAt x.regs.pressCtrl 0 = false
  acc : p.acc = false
  row : p.row = false
  cvt : p.cvt = 0xFFFFFF
  aBlocks : blockElems p.aFmt = 0
  bBlocks : blockElems p.bFmt = 0
  exps : expVal (fmtExp p.outFmt) = expVal (fmtExp p.aFmt) + expVal (fmtExp p.bFmt)
  fit : ∀ a ∈ readTensor x p.aFmt p.a p.aStrip p.m p.k, ∀ b ∈ readTensor x p.bFmt p.b p.bStrip p.n p.k,
    ∑ i ∈ Finset.range p.k, (rowProduct a b i).natAbs < 2 ^ 31

/-- The products of the rows of A with the rows of B. -/
def pressDots (x : Tile) (p : PressCmd) : List (List Int) :=
  (readTensor x p.aFmt p.a p.aStrip p.m p.k).map fun a => (readTensor x p.bFmt p.b p.bStrip p.n p.k).map (rowDot p.k a)

theorem groupSize_pos (p : PressCmd) : 0 < groupSize p := by
  unfold groupSize
  split <;> positivity

theorem pressPatch_width_pos (p : PressCmd) : 0 < ((pressPatch p).getD (1, 1)).2 := by
  unfold pressPatch
  split <;> decide

namespace ExactPress
variable {x : Tile} {p : PressCmd} (h : ExactPress x p)
include h

theorem compensated : compensated x p = false := by simp [Machine.compensated, h.comp, h.force]

theorem settleOf : settleOf x p = .normal := by simp [Machine.settleOf, h.mode, h.compensated]

theorem rowInit (r : Nat) : rowInit x p r = (0, List.replicate p.n ⟨0, expVal (fmtExp p.outFmt)⟩) := by simp [Machine.rowInit, h.acc]

/-- Each output row is its exact products, at shift count 0 (R58, R61). -/
theorem pressRows_row (t : W16) (o : EngOp) {r : Nat} (hr : r < (pressRows x t o p p.m).length) (hr' : r < (pressDots x p).length) :
    (pressRows x t o p p.m)[r].s = (pressDots x p)[r] ∧ (pressRows x t o p p.m)[r].k = 0 := by
  have hrA : r < (readTensor x p.aFmt p.a p.aStrip p.m p.k).length := by simpa [pressDots] using hr'
  have hmem := List.getElem_mem hrA
  have hlenA := length_row_readTensor x p.aFmt p.a p.aStrip p.m p.k _ hmem
  have hlenB := length_row_readTensor x p.bFmt p.b p.bStrip p.n p.k
  have hexact := runRow_exact (groupSize_pos p) (bl := readTensor x p.bFmt p.b p.bStrip p.n p.k) h.exps (exp_of_mem_readTensor h.aBlocks hmem)
    (fun b hb => ⟨(hlenB b hb).trans hlenA.symm, exp_of_mem_readTensor h.bBlocks hb⟩) (fun b hb => by rw [hlenA]; exact h.fit _ hmem b hb)
    (drawFor o t) r (pressPatch_width_pos p)
  rw [hlenA, length_readTensor] at hexact
  simp only [pressRows, pressDots, List.getElem_mapIdx, List.getElem_map, h.rowInit, h.settleOf]
  exact hexact.symm

theorem pressRows_s (t : W16) (o : EngOp) : (pressRows x t o p p.m).map (·.s) = pressDots x p :=
  List.ext_getElem (by simp [pressRows, pressDots]) fun r hr hr' => by
    rw [List.getElem_map]
    exact (h.pressRows_row t o (by simpa using hr) hr').1

theorem pressRows_k (t : W16) (o : EngOp) : (pressRows x t o p p.m).map (·.k) = List.replicate p.m 0 :=
  List.ext_getElem (by simp [pressRows]) fun r hr _ => by
    rw [List.getElem_map, List.getElem_replicate]
    exact (h.pressRows_row t o (by simpa using hr) (by simpa [pressRows, pressDots] using hr)).2

end ExactPress

/-! ## The parts of a tile that the end of an operation leaves (R46, R161, R193, R199, R202) -/

/-- A tile without its registers, its contexts with their order and store, its counters, slots and handle queues. Where KeepsData names the
data that an operation's end leaves, this holds everything it leaves, the times of residue failures (R464) included. -/
def bareTile (x : Tile) : Tile := { x with regs := Tile.reset.regs, ctx := [], readyOrd := [], ctxEcc := [], acnt := [], slots := [], hqs := [] }

section bare
variable (s : State) (t : W16)

theorem bareTile_regs (x : Tile) (r : TileRegs) : bareTile { x with regs := r } = bareTile x := rfl
theorem bareTile_putCtx (x : Tile) (j : BitVec 2) (c : Ctx) : bareTile (putCtx x j c) = bareTile x := rfl
theorem bareTile_putAcnt (x : Tile) (n : Nat) (a : Acnt) : bareTile (putAcnt x n a) = bareTile x := rfl
theorem bareTile_putSlot (x : Tile) (n : Nat) (y : Slot) : bareTile (putSlot x n y) = bareTile x := rfl
theorem bareTile_putHq (x : Tile) (n : Nat) (q : Hq) : bareTile (putHq x n q) = bareTile x := rfl
theorem unitQ_bareTile (x : Tile) (u : EngUnit) : unitQ (bareTile x) u = unitQ x u := by cases u <;> rfl
theorem bareTile_setUnitQ (x : Tile) (u : EngUnit) (q : List EngOp) : bareTile (setUnitQ x u q) = setUnitQ (bareTile x) u q := by cases u <;> rfl

theorem spad_bareTile (x : Tile) : (bareTile x).spad = x.spad := rfl
theorem residueFails_bareTile (x : Tile) : (bareTile x).residueFails = x.residueFails := rfl
theorem spad_setUnitQ (x : Tile) (u : EngUnit) (q : List EngOp) : (setUnitQ x u q).spad = x.spad := by cases u <;> rfl
theorem residueFails_setUnitQ (x : Tile) (u : EngUnit) (q : List EngOp) : (setUnitQ x u q).residueFails = x.residueFails := by cases u <;> rfl

theorem getTile_putErr {e : Err} (h : e.sev ≠ 3) : getTile (putErr s e) t = getTile s t := (SameButLog.err s e h).getTile t

theorem bareTile_satNote (pos neg : Nat) : bareTile (getTile (satNote t pos neg s) t) = bareTile (getTile s t) := by
  unfold satNote
  split
  · rfl
  · rw [getTile_modTile, bareTile_regs]

theorem bareTile_noteT2 (bad : Bool) : bareTile (getTile (noteT2 t bad s) t) = bareTile (getTile s t) := by
  unfold noteT2
  split
  · rw [getTile_modTile, bareTile_regs]
  · rfl

theorem bareTile_notePress (bits : W32) : bareTile (getTile (notePress t bits s) t) = bareTile (getTile s t) := by
  unfold notePress
  split
  · rfl
  · rw [getTile_modTile, bareTile_regs]

theorem getTile_sendReport (o : EngOp) (en : Bool) (widx : BitVec 12) (bound : Option Int) (sats : Nat) (nonzero : Bool) :
    getTile (sendReport s t o en widx bound sats nonzero) t = getTile s t := by
  unfold sendReport
  split
  · split <;> rfl
  · rfl

theorem bareTile_markDue : bareTile (getTile (markDue s t) t) = bareTile (getTile s t) := by
  refine Laws.foldl_keeps _ (fun s => bareTile (getTile s t)) (fun s j => ?_) _ s
  dsimp only
  split
  · split
    · rw [getTile_putTile, bareTile_putCtx]
    · rfl
  · rfl

theorem bareTile_arriveCount (k : Nat) (j : BitVec 2) : bareTile (getTile (arriveCount s t k j) t) = bareTile (getTile s t) := by
  unfold arriveCount
  dsimp only
  split
  · rw [acntAdd, bareTile_markDue, getTile_modTile, bareTile_putAcnt]
  · rw [getTile_putErr _ _ (by simp [tileErr])]

theorem bareTile_pushHandle (die : Nat) (q : BitVec 13) (j : BitVec 2) (h : W32) (src : PushSrc) :
    bareTile (getTile (pushHandle s die q t j h src).1 t) = bareTile (getTile s t) := by
  have dropped : getTile (dropHandle s die t j) t = getTile s t := getTile_putErr _ t (by simp)
  unfold pushHandle
  dsimp only
  split
  · rfl
  · split
    · split
      · split <;> rfl
      · rw [dropped]
    · split
      · split <;> rw [getTile_putTile, bareTile_putHq]
      · rw [dropped]

theorem bareTile_slotDrain (k : Nat) : bareTile (getTile (slotDrain s t k) t) = bareTile (getTile s t) := by
  unfold slotDrain
  dsimp only
  split
  · split
    · rw [getTile_putTile, bareTile_putSlot]
    · split
      · rw [getTile_modTile, bareTile_putSlot, bareTile_pushHandle, getTile_putTile, bareTile_putSlot]
      · rw [bareTile_pushHandle, getTile_putTile, bareTile_putSlot]
  · rfl

theorem bareTile_autoDrain (rs : List Rgn) : bareTile (getTile (autoDrain s t rs) t) = bareTile (getTile s t) := by
  refine Laws.foldl_keeps _ (fun s => bareTile (getTile s t)) (fun s k => ?_) _ s
  split
  · exact bareTile_slotDrain s t k
  · rfl

/-- Completion takes the operation off its queue (R38, R161). -/
theorem bareTile_opDone (o : EngOp) (rs : List Rgn) : bareTile (getTile (opDone s t o rs) t)
    = setUnitQ (bareTile (getTile s t)) (kindUnit o.kind) (unitQ (bareTile (getTile s t)) (kindUnit o.kind)).tail := by
  have hpop : bareTile (getTile (autoDrain (popHead s t (kindUnit o.kind)) t rs) t)
      = setUnitQ (bareTile (getTile s t)) (kindUnit o.kind) (unitQ (bareTile (getTile s t)) (kindUnit o.kind)).tail := by
    rw [bareTile_autoDrain, popHead, getTile_modTile, bareTile_setUnitQ, unitQ_bareTile]
  unfold opDone
  dsimp only
  split
  · rw [bareTile_arriveCount, hpop]
  · exact hpop

end bare

/-! ## The end of a press command (R38, R61, R78) -/

theorem named_of_plain {v : BitVec 24} {a : Nat} (h : opnd v = .plain a) : named v = true := by
  have : v ≠ 0xFFFFFF := by rintro rfl; simp [opnd] at h
  simpa [named] using this

/-- Fewer failures than FENCE_RESIDUE, or FENCE_RESIDUE 0, force no fence (R464, R465). -/
theorem escalateResidue_of_few {s : State} {t : W16} (h : fldN s.log.cfg 24 3 = 0 ∨ (getTile s t).residueFails.length < fldN s.log.cfg 24 3) :
    escalateResidue s t = s := by
  have hle := List.length_filter_le (lastSecond s) (getTile s t).residueFails
  unfold escalateResidue
  dsimp only
  exact if_neg (by omega)

/-- Where no failure of a tile's press is noted, none forces its fence (R464). -/
theorem escalateResidue_of_noFails {s : State} {t : W16} (h : (getTile s t).residueFails = []) : escalateResidue s t = s :=
  escalateResidue_of_few (by rw [h, List.length_nil]; omega)

theorem exec_pressComplete_runs {s : State} {tile : W16} {o : EngOp} {rest : List EngOp} (hp : tilePresent s tile = true)
    (hq : unitQ (getTile s tile) .press = o :: rest) (hs : o.started = true) (hw : o.slotWait = none) (hi : (getTile s tile).injResidue = false) :
    exec (.pressComplete tile) s = .next (escalateResidue (pressFinish s tile o) tile) := by
  change execPressComplete tile s = _
  simp [execPressComplete, onTile_present hp, pressDone, headOp, hq, hs, hw, hi]

section finish
variable {s : State} {tile : W16} {o : EngOp} {p : PressCmd} (hp : pressCmd o.block = p) (hx : (getTile s tile).spadEcc = [])
  (h : ExactPress (getTile s tile) p) {out shift : Nat} (ho : opnd p.out = .plain out) (hsh : opnd p.shift = .plain shift)

/-- The bytes of OUT that a command's exact products make. -/
def dotBytes (x : Tile) (p : PressCmd) : List Byte := (pressDots x p).flatten.flatMap fun v => toLE 4 (toBits 32 v)

/-- A tile with a command's products and its shift counts, all 0, written. -/
def withProducts (x : Tile) (p : PressCmd) (out shift : Nat) : Tile :=
  spadWriteTile (spadWriteTile x out (dotBytes x p)) shift (List.replicate p.m 0)

theorem withProducts_residueFails (x : Tile) (p : PressCmd) (out shift : Nat) : (withProducts x p out shift).residueFails = x.residueFails := rfl

include h in
theorem outBytes_eq (t : W16) (o : EngOp) :
    ((pressRows (getTile s tile) t o p p.m).flatMap fun r => rowEncode 10 r.s) = dotBytes (getTile s tile) p := by
  rw [dotBytes, ← h.pressRows_s t o, ← List.flatMap_def, List.flatMap_assoc]
  exact List.flatMap_congr fun r _ => rowEncode_whole (code := 10) (w := 4) rfl r.s

include h in
theorem shiftBytes_eq (t : W16) (o : EngOp) :
    ((pressRows (getTile s tile) t o p p.m).map fun r => BitVec.ofNat 8 r.k) = List.replicate p.m 0 := by
  have := congrArg (List.map (BitVec.ofNat 8)) (h.pressRows_k t o)
  rwa [List.map_map, List.map_replicate] at this

include h ho hsh in
/-- The rows' write stores the products and the shift counts. -/
theorem bareTile_pressWrite : bareTile (getTile (pressWrite s tile o p (getTile s tile) (pressRows (getTile s tile) tile o p p.m)) tile)
    = bareTile (withProducts (getTile s tile) p out shift) := by
  have he : usesE24 (getTile s tile) p = false := by simp [usesE24, h.compensated, h.acc]
  simp only [pressWrite, putIf, rgnPut, named_of_plain ho, named_of_plain hsh, he, h.acc, h.row, Bool.and_self, Bool.or_false, Bool.false_and,
    Bool.false_eq_true, if_true, if_false, opndWrite_plain ho, opndWrite_plain hsh, outBytes_eq h, shiftBytes_eq h]
  rw [bareTile_satNote, bareTile_notePress, getTile_spadWrite, getTile_spadWrite, withProducts]

include hp hx h ho hsh in
/-- A finished command has written its products and left its queue; no other part of the tile's data changes. -/
theorem bareTile_pressFinish (hk : o.kind = .press) : bareTile (getTile (pressFinish s tile o) tile)
    = setUnitQ (bareTile (withProducts (getTile s tile) p out shift)) .press (unitQ (getTile s tile) .press).tail := by
  have hc : named p.cvt = false := by rw [h.cvt]; rfl
  simp only [pressFinish, hp, rgnBad_clean hx, hc, Bool.false_eq_true, if_false]
  rw [bareTile_opDone, getTile_sendReport, bareTile_noteT2, bareTile_pressWrite h ho hsh, hk, unitQ_bareTile]
  rfl

include hp hx h ho hsh in
theorem pressFinish_spad (hk : o.kind = .press) :
    (getTile (pressFinish s tile o) tile).spad = (withProducts (getTile s tile) p out shift).spad := by
  rw [← spad_bareTile, bareTile_pressFinish hp hx h ho hsh hk, spad_setUnitQ, spad_bareTile]

include hp hx h ho hsh in
theorem pressFinish_residueFails (hk : o.kind = .press) : (getTile (pressFinish s tile o) tile).residueFails = (getTile s tile).residueFails := by
  rw [← residueFails_bareTile, bareTile_pressFinish hp hx h ho hsh hk, residueFails_setUnitQ, residueFails_bareTile, withProducts_residueFails]

include hp hx h ho hsh in
theorem pressFinish_queue (hk : o.kind = .press) : unitQ (getTile (pressFinish s tile o) tile) .press = (unitQ (getTile s tile) .press).tail := by
  rw [← unitQ_bareTile, bareTile_pressFinish hp hx h ho hsh hk, unitQ_setUnitQ]

end finish

/-! ## Products as bytes (R28, R57) -/

section products
variable (x : Tile) (p : PressCmd)

theorem length_pressDots : (pressDots x p).length = p.m := by simp [pressDots]

theorem length_row_pressDots : ∀ l ∈ pressDots x p, l.length = p.n := by simp [pressDots]

theorem length_pressDots_flatten : (pressDots x p).flatten.length = p.m * p.n := by
  rw [length_flatten_const (length_row_pressDots x p), length_pressDots, Nat.mul_comm]

theorem length_dotBytes : (dotBytes x p).length = 4 * (p.m * p.n) := by
  rw [dotBytes, length_flatMap_const (w := 4) (by simp), length_pressDots_flatten]

variable {x p} {r q : Nat} (hr : r < p.m) (hq : q < p.n)
include hr hq

/-- Product [r][q], in storage order. -/
theorem pressDots_at (hi : r * p.n + q < (pressDots x p).flatten.length) : (pressDots x p).flatten[r * p.n + q]
    = rowDot p.k ((readTensor x p.aFmt p.a p.aStrip p.m p.k).getD r []) ((readTensor x p.bFmt p.b p.bStrip p.n p.k).getD q []) := by
  rw [← List.getD_eq_getElem _ 0 hi, getD_flatten_const (length_row_pressDots x p) (by rwa [length_pressDots]) hq,
    List.getD_eq_getElem _ [] (by rwa [length_pressDots]), List.getD_eq_getElem _ [] (by rwa [length_readTensor]),
    List.getD_eq_getElem _ [] (by rwa [length_readTensor]), List.getD_eq_getElem _ 0 (by rwa [length_row_pressDots _ _ _ (List.getElem_mem _)])]
  simp only [pressDots, List.getElem_map]

variable (hx : x.spadEcc = []) {out shift : Nat} (hd : out + 4 * (p.m * p.n) ≤ shift ∨ shift + p.m ≤ out)
include hx hd

/-- Element [r][q] of OUT reads as its product where that fits in 32 bits. -/
theorem withProducts_element {d : Int} (hdot : rowDot p.k ((readTensor x p.aFmt p.a p.aStrip p.m p.k).getD r [])
      ((readTensor x p.bFmt p.b p.bStrip p.n p.k).getD q []) = d) (hfit : d.natAbs < 2 ^ 31) :
    sgn 32 (leNat (spadRead (withProducts x p out shift) (out + 4 * (r * p.n + q)) 4)) = d := by
  have hrm := rowMajor_lt hr hq
  have hi : r * p.n + q < (pressDots x p).flatten.length := by rwa [length_pressDots_flatten]
  rw [withProducts, spadRead_spadWriteTile_outside (by rw [List.length_replicate]; omega), dotBytes, spadRead_spadWriteTile_block hx out (by simp) hi,
    pressDots_at hr hq hi, hdot, leNat_toLE, Nat.mod_eq_of_lt (toBits_lt 32 d), sgn_toBits (by decide) (by omega) (by omega)]

end products

theorem withProducts_shift {x : Tile} {p : PressCmd} (hx : x.spadEcc = []) (out : Nat) {shift r : Nat} (hr : r < p.m) :
    mget 0 (withProducts x p out shift).spad (shift + r) = 0 := by
  rw [withProducts, spadWriteTile_byte _ (badMerges_clean (spadWriteTile_clean hx _ _) _ _), List.length_replicate, if_pos (by omega),
    Nat.add_sub_cancel_left, List.getD_replicate _ hr]

theorem withProducts_outside {x : Tile} {p : PressCmd} {out shift k : Nat} (ho : k < out ∨ out + 4 * (p.m * p.n) ≤ k) (hs : k < shift ∨ shift + p.m ≤ k) :
    mget 0 (withProducts x p out shift).spad k = mget 0 x.spad k := by
  rw [withProducts, spadWriteTile_outside (by rwa [List.length_replicate]), spadWriteTile_outside (by rwa [length_dotBytes])]

/-- Settles O27: the command's rows are exact, and its end writes them and their shift counts alone. -/
theorem pressComputesProducts : Obligations.PressComputesProducts := by
  intro s tile o rest out shift x p a b v dot hp hq hk hs hw hi hf hx hm hcomp hforce hacc hrow hcvt _ _ _ _ haB hbB hout hshift hd hexp hsums
  have hexact : ExactPress x p := by
    refine ⟨hm, hcomp, hforce, hacc, hrow, hcvt, haB, hbB, hexp, fun l hl l' hl' => ?_⟩
    obtain ⟨r, hr, rfl⟩ := List.getElem_of_mem hl
    obtain ⟨q, hq, rfl⟩ := List.getElem_of_mem hl'
    rw [← List.getD_eq_getElem _ [] hr, ← List.getD_eq_getElem _ [] hq]
    exact hsums r q (by simpa using hr) (by simpa using hq)
  have hend := pressFinish_spad (p := p) rfl hx hexact hout hshift hk
  have hfails := (pressFinish_residueFails (p := p) rfl hx hexact hout hshift hk).trans hf
  have hruns := exec_pressComplete_runs hp hq hs hw hi
  rw [escalateResidue_of_noFails hfails] at hruns
  refine ⟨_, hruns, ?_⟩
  dsimp only
  rw [hend]
  refine ⟨fun r q hr hq => ?_, fun r hr => withProducts_shift hx out hr, fun k ho hsh => withProducts_outside ho hsh, ?_⟩
  · rw [spadRead_of_spad hend]
    exact withProducts_element hr hq hx hd rfl ((Int.natAbs_sum_le _ _).trans_lt (hsums r q hr hq))
  · rw [pressFinish_queue (p := p) rfl hx hexact hout hshift hk, hq]
    rfl

end Sys2Proof.Machine
end

section
/-!
PROOFS of the statements of the family '03_press.md', continued: the errors that a tile finds: residue mismatches, words and elements with errors,
faults of the context store.
-/
namespace Sys2Proof.Machine
open Sys2Proof

/-! ## What a record leaves of ERR.CFG (R457, R460-R462, R465) -/

theorem hbmPut1_log (s : State) (pa : Nat) (bs : List Byte) : (hbmPut1 s pa bs).1.log = s.log := by
  unfold hbmPut1
  dsimp only
  split
  · split <;> rfl
  · rfl

theorem hbmPut_log (s : State) (pa : Nat) (bs : List Byte) : (hbmPut s pa bs).1.log = s.log := by
  unfold hbmPut
  refine Laws.foldl_keeps _ (fun r : State × Byte => r.1.log) (fun r e => ?_) _ _
  exact hbmPut1_log r.1 e.1 e.2

theorem ringAppend_log (s : State) (r : ErrRec) : (ringAppend s r).log = s.log := by
  unfold ringAppend
  dsimp only
  split
  · split
    · rfl
    · split
      · rw [Laws.modJob_log, hbmPut_log]
      · rfl
  · rfl

theorem raiseEvent_log (s : State) (k : Nat) (o : W16) (b : List Byte) (v : BitVec 2) : (raiseEvent s k o b v).log = s.log := by
  rw [raiseEvent_mgmt]

theorem logAppend_cfg (l : Log) (r : ErrRec) : (logAppend l r).1.cfg = l.cfg := by
  unfold logAppend
  dsimp only
  split
  · rfl
  · split
    · rfl
    · split <;> rfl

theorem putRecord_cfg (s : State) {r : ErrRec} (h : r.sev ≠ 3) : (putRecord s r).1.log.cfg = s.log.cfg := by
  simp only [putRecord, h, if_false]
  split <;> simp only [raiseEvent_log, ringAppend_log, logAppend_cfg]

theorem putErr1_cfg (s : State) {e : Err} (h : e.sev ≠ 3) : (putErr1 s e).1.log.cfg = s.log.cfg := by
  unfold putErr1
  split
  · rfl
  · refine (putRecord_cfg _ h).trans ?_
    split <;> rfl

/-- An error that is not FATAL leaves ERR.CFG. -/
theorem putErr_cfg (s : State) {e : Err} (h : e.sev ≠ 3) : (putErr s e).log.cfg = s.log.cfg := by
  have h1 : (putErr1 s e).1.log.cfg = s.log.cfg := putErr1_cfg s h
  have h2 : (if (putErr1 s e).2 = true then (putErr1 (putErr1 s e).1 (lostErr (putErr1 s e).1)).1 else (putErr1 s e).1).log.cfg = s.log.cfg := by
    split
    · exact (putErr1_cfg _ (by simp [lostErr])).trans h1
    · exact h1
  unfold putErr
  dsimp only
  split
  · split
    · split
      · split
        · exact h2
        · exact (putErr1_cfg _ (by simp [worldErr])).trans h2
      · exact h2
    · split
      · exact (putErr1_cfg _ (by simp [hbmDataErr])).trans h2
      · exact h2
  · exact h2

theorem checkPaused_log (s : State) (j : BitVec 2) : (checkPaused s j).log = s.log := by
  unfold checkPaused
  split
  · rw [setJobSt, raiseEvent_log, Laws.modJob_log]
  · rfl

/-! ## Words and elements with errors (R129, R203) -/

theorem eccAt_cons (k : Nat) (v : EccSt) (m : SMap EccSt) (w : Nat) : eccAt ((k, v) :: m) w = if k = w then some v else eccAt m w := by
  by_cases h : k = w <;> simp [eccAt, h]

/-- Words kept or dropped by their number. -/
theorem eccAt_filter_key (f : Nat → Bool) (m : SMap EccSt) (w : Nat) : eccAt (m.filter fun e => f e.1) w = if f w then eccAt m w else none := by
  induction m with
  | nil => simp [eccAt]
  | cons e m ih =>
    obtain ⟨k, v⟩ := e
    by_cases hk : k = w
    · subst hk
      cases hf : f k <;> simp [eccAt_cons, hf, ih]
    · cases hf : f k <;> simp [eccAt_cons, hf, hk, ih]

theorem eccAt_merase (m : SMap EccSt) (k w : Nat) : eccAt (merase m k) w = if w = k then none else eccAt m w := by
  rw [merase, eccAt_filter_key (fun i => i != k)]
  by_cases h : w = k <;> simp [h]

theorem eccAt_clrRange (m : SMap EccSt) (a n w : Nat) : eccAt (clrRange m a n) w = if a ≤ w ∧ w < a + n then none else eccAt m w := by
  rw [clrRange, eccAt_filter_key fun i => decide (i < a) || decide (a + n ≤ i)]
  by_cases h : a ≤ w ∧ w < a + n
  · rw [if_pos h, if_neg (by simp; omega)]
  · rw [if_neg h, if_pos (by simp; omega)]

/-- Where no word is listed twice, a word's state is the listed one. -/
theorem eccAt_eq_some_iff {m : SMap EccSt} (h : (m.map Prod.fst).Nodup) (w : Nat) (v : EccSt) : eccAt m w = some v ↔ (w, v) ∈ m := by
  induction m with
  | nil => simp [eccAt]
  | cons e m ih =>
    obtain ⟨k, u⟩ := e
    rw [List.map_cons, List.nodup_cons] at h
    rw [eccAt_cons, List.mem_cons, Prod.mk.injEq]
    by_cases hk : k = w
    · subst hk
      have hm : (k, v) ∉ m := fun hm => h.1 (List.mem_map.mpr ⟨_, hm, rfl⟩)
      simp [hm, eq_comm]
    · simp [hk, Ne.symm hk, ih h.2]

/-- The bank row of a word (R203). -/
theorem contains_rowWords (row w : Nat) : ((List.range 16).map fun i => 16 * row + i).contains w = true ↔ w / 16 = row := by
  simp only [List.contains_iff_mem, List.mem_map, List.mem_range]
  constructor
  · rintro ⟨i, hi, rfl⟩
    omega
  · exact fun h => ⟨w - 16 * row, by omega, by omega⟩

/-- Patrol of a bank row takes the single-bit errors out of its words alone (R203). -/
theorem eccAt_patrolled {m : SMap EccSt} (h : (m.map Prod.fst).Nodup) (row w : Nat) :
    eccAt (m.filter fun e => !(((List.range 16).map fun i => 16 * row + i).contains e.1 && decide (e.2 = .single))) w
      = if w / 16 = row ∧ eccAt m w = some .single then none else eccAt m w := by
  have hsub := h.sublist ((List.filter_sublist (p := fun e : Nat × EccSt =>
    !(((List.range 16).map fun i => 16 * row + i).contains e.1 && decide (e.2 = .single)))).map Prod.fst)
  ext v
  rw [eccAt_eq_some_iff hsub, List.mem_filter, ← eccAt_eq_some_iff h, Bool.not_eq_true', Bool.and_eq_false_iff, decide_eq_false_iff_not,
    ← Bool.not_eq_true, contains_rowWords]
  split
  · next hs =>
    obtain ⟨hrow, hsingle⟩ := hs
    simp [hrow, hsingle, eq_comm]
  · next hs => exact and_iff_left_of_imp fun hv => not_and_or.mp fun ⟨hrow, hv'⟩ => hs ⟨hrow, hv.trans (congrArg some hv')⟩

/-! ## The commands that patrol a tile (R129, R203) -/

theorem getTile_noteWide (s : State) (t : W16) {bits : W32} (h : bits ≠ 0) :
    getTile (noteWide t bits s) t = { getTile s t with regs := { (getTile s t).regs with wideStatus := (getTile s t).regs.wideStatus ||| bits } } := by
  rw [noteWide, if_neg h, getTile_modTile]

/-- A wide element with a double-bit error is zeroed, and another is written back: it holds a good code then (R129). -/
theorem exec_widePatrol_runs {s : State} {tile : W16} (hp : tilePresent s tile = true) (k : BitVec 12) : Goes (exec (.widePatrol tile k) s) fun t =>
    (∀ i, getWide (getTile t tile) i = if i = k.toNat ∧ wideBad (getTile s tile) k.toNat 1 ≠ [] then 0 else getWide (getTile s tile) i)
    ∧ eccAt (getTile t tile).wideEcc k.toNat = none
    ∧ (wideBad (getTile s tile) k.toNat 1 ≠ [] → (getTile t tile).regs.wideStatus = (getTile s tile).regs.wideStatus ||| 8) := by
  refine ⟨_, (show execWidePatrol tile k s = _ from onTile_present hp), ?_⟩
  dsimp only
  by_cases hb : wideBad (getTile s tile) k.toNat 1 = []
  · simp only [hb, List.isEmpty_nil, if_true, getTile_putTile, ne_eq, not_true_eq_false, and_false, if_false, false_implies, and_true]
    exact ⟨fun i => rfl, by rw [eccAt_merase, if_pos rfl]⟩
  · rw [if_neg (by simpa using hb), getTile_putErr _ _ (by simp [tileErr]), getTile_noteWide _ _ (by decide), getTile_putTile]
    refine ⟨fun i => ?_, ?_, fun _ => rfl⟩
    · have hi : (k.toNat ≤ i ∧ i < k.toNat + 1) ↔ (i = k.toNat ∧ wideBad (getTile s tile) k.toNat 1 ≠ []) :=
        ⟨fun h => ⟨by omega, hb⟩, fun h => by omega⟩
      refine (getWide_putWide (getTile s tile) k.toNat [0] i).trans (if_ctx_congr hi (fun h => ?_) fun _ => rfl)
      rw [h.1, Nat.sub_self]
      rfl
    · exact (eccAt_clrRange _ k.toNat 1 k.toNat).trans (if_pos (by omega))

/-- A word with a single-bit error is written back; no other word changes (R203). -/
theorem exec_spadEccWriteback_runs {s : State} {tile : W16} (hp : tilePresent s tile = true) (w : BitVec 16) :
    (eccAt (getTile s tile).spadEcc w.toNat ≠ some .single → exec (.spadEccWriteback tile w) s = .next s)
    ∧ (eccAt (getTile s tile).spadEcc w.toNat = some .single → Goes (exec (.spadEccWriteback tile w) s) fun t =>
        eccAt (getTile t tile).spadEcc w.toNat = none ∧ (getTile t tile).spad = (getTile s tile).spad
        ∧ ∀ v, v ≠ w.toNat → eccAt (getTile t tile).spadEcc v = eccAt (getTile s tile).spadEcc v) := by
  have hruns : exec (.spadEccWriteback tile w) s = .next (if eccAt (getTile s tile).spadEcc w.toNat = some .single
      then modTile s tile fun x => { x with spadEcc := merase x.spadEcc w.toNat } else s) := onTile_present hp
  constructor
  · intro h
    rw [hruns, if_neg h]
  · intro h
    rw [if_pos h] at hruns
    refine ⟨_, hruns, ?_⟩
    dsimp only
    rw [getTile_modTile]
    exact ⟨(eccAt_merase _ _ _).trans (if_pos rfl), rfl, fun v hv => (eccAt_merase _ _ _).trans (if_neg hv)⟩

/-- Patrol of a bank row corrects its single-bit errors and changes no byte (R203). -/
theorem exec_spadPatrol_runs {s : State} {tile : W16} (hp : tilePresent s tile = true) (row : BitVec 12)
    (h : ((getTile s tile).spadEcc.map Prod.fst).Nodup) : Goes (exec (.spadPatrol tile row) s) fun t =>
      (getTile t tile).spad = (getTile s tile).spad ∧ ∀ w, eccAt (getTile t tile).spadEcc w
        = if w / 16 = row.toNat ∧ eccAt (getTile s tile).spadEcc w = some .single then none else eccAt (getTile s tile).spadEcc w := by
  refine ⟨_, (show execSpadPatrol tile row s = _ from onTile_present hp), ?_⟩
  have hrecords (l : List Nat) (u : State) : getTile (l.foldl (fun s w => putErr s (tileErr tile none cSpadEcc (8 * w))) u) tile = getTile u tile :=
    Laws.foldl_keeps _ (fun s => getTile s tile) (fun s w => getTile_putErr s tile (by simp [tileErr])) l u
  dsimp only
  rw [hrecords, getTile_modTile]
  exact ⟨rfl, eccAt_patrolled h row.toNat⟩

/-! ## Faults of the context store (R411, R464) -/

theorem SameButLog.settled (s : State) : SameButLog s (settleJobs s) := by
  unfold settleJobs
  induction jobs4 generalizing s with
  | nil => rfl
  | cons j l ih => exact ((SameButLog.finished s j).trans (SameButLog.paused _ j)).trans (ih _)

/-- A fence leaves a tile as reset, but fenced (R467, R468). -/
theorem getTile_fenceTile (s : State) (t : W16) (injected : Bool) : getTile (fenceTile s t injected) t = { Tile.reset with fenced := true } := by
  have hmap (u : State) : getTile (fenceInMap u t) t = getTile u t := rfl
  rw [fenceTile, hmap, getTile_putErr _ _ (by simp [fenceErr]), (SameButLog.settled _).getTile, getTile_putTile]

/-- A context stopped by a fault of its tile; one that is EMPTY stays so (R464). -/
def faultedCtx (c : Ctx) : Ctx :=
  if c.st = .empty then c else { noteExc c cTileFault false false c.pc 0 with wait := none, yrec := none }

/-- A tile with that done to context j. -/
def faultCtx (x : Tile) (j : BitVec 2) : Tile :=
  let c := getCtx x j
  if c.st = .empty then x else putCtx x j { noteExc c cTileFault false false c.pc 0 with wait := none, yrec := none }

theorem getCtx_faultCtx (x : Tile) (j k : BitVec 2) : getCtx (faultCtx x j) k = if k = j then faultedCtx (getCtx x k) else getCtx x k := by
  unfold faultCtx faultedCtx
  by_cases hk : k = j
  · subst hk
    dsimp only
    split <;> simp
  · dsimp only
    rw [if_neg hk]
    split
    · rfl
    · exact getCtx_putCtx_other _ _ hk

theorem getCtx_foldl_faultCtx {l : List (BitVec 2)} (hl : l.Nodup) (x : Tile) (k : BitVec 2) :
    getCtx (l.foldl faultCtx x) k = if k ∈ l then faultedCtx (getCtx x k) else getCtx x k := by
  induction l generalizing x with
  | nil => rfl
  | cons j l ih =>
    obtain ⟨hj, hl⟩ := List.nodup_cons.mp hl
    rw [List.foldl_cons, ih hl, getCtx_faultCtx]
    by_cases hk : k = j
    · subst hk; simp [hj]
    · simp [hk]

theorem getCtx_foldl_discardOps (l : List (BitVec 2)) (x : Tile) (k : BitVec 2) : getCtx (l.foldl discardOps x) k = getCtx x k :=
  Laws.foldl_keeps discardOps (fun x => getCtx x k) (fun _ _ => rfl) l x

theorem getCtx_faultHold (x : Tile) (b : Bool) (k : BitVec 2) : getCtx { x with faultHold := b } k = getCtx x k := rfl

/-- A held tile: every context that is not EMPTY has stopped (R464). -/
theorem getTile_holdTile (s : State) (t : W16) : (getTile (holdTile s t) t).faultHold = true
    ∧ ∀ k, getCtx (getTile (holdTile s t) t) k = faultedCtx (getCtx (getTile s t) k) := by
  have ht : getTile (holdTile s t) t = { jobs4.foldl faultCtx (jobs4.foldl discardOps (getTile s t)) with faultHold := true } := by
    rw [holdTile, (SameButLog.settled _).getTile, getTile_modTile]
    rfl
  rw [ht]
  refine ⟨rfl, fun k => ?_⟩
  rw [getCtx_faultHold, getCtx_foldl_faultCtx (by decide), if_pos (by revert k; decide), getCtx_foldl_discardOps]

theorem faultedCtx_running {c : Ctx} (h : c.st = .running) :
    faultedCtx c = { c with st := .stopped, excCause := 0xE0, excPc := c.pc, excInfo := 0, wait := none, yrec := none } := by
  have hcause : excCauseReg cTileFault false false = 0xE0 := by decide
  simp [faultedCtx, noteExc, h, hcause]

/-- A fault of a tile in service fences it, or holds it with AUTO_FENCE 0 (R464). -/
theorem tileFault_inService {s : State} {t : W16} (hf : (getTile s t).fenced = false) (hd : dieReady s (tDie t) = true) (detail : Byte) (injected : Bool) :
    tileFault s t detail injected
    = let u := putErr s (fenceErr t cTileFault detail injected)
      if autoFence s then fenceTile u t injected else if (getTile s t).faultHold then u else holdTile u t := by
  have hsev : (fenceErr t cTileFault detail injected).sev ≠ 3 := by simp [fenceErr]
  have hdie : dieReady (putErr s (fenceErr t cTileFault detail injected)) (tDie t) = true := by
    rw [← hd, dieReady, dieReady, getDie, getDie, putErr_dies _ _ hsev]
  have hauto : autoFence (putErr s (fenceErr t cTileFault detail injected)) = autoFence s := by
    rw [autoFence, autoFence, putErr_cfg _ hsev]
  unfold tileFault
  simp only [getTile_putErr _ _ hsev, hf, hdie, hauto, Bool.not_true, Bool.false_eq_true, if_false]

theorem exec_ctxStorePatrol_runs {s : State} {tile : W16} (hp : tilePresent s tile = true) (j : BitVec 2) : exec (.ctxStorePatrol tile j) s
    = .next (if storeBad (getTile s tile) j then tileFault s tile 1 true else modTile s tile fun x => { x with ctxEcc := merase x.ctxEcc j.toNat }) := by
  change execCtxStorePatrol tile j s = _
  rw [execCtxStorePatrol, onTile_present hp]

/-! ## Residue mismatches (R76, R77, R464) -/

theorem getTile_notePress (s : State) (t : W16) {bits : W32} (h : bits ≠ 0) : getTile (notePress t bits s) t
    = { getTile s t with regs := { (getTile s t).regs with pressStatus := (getTile s t).regs.pressStatus ||| bits } } := by
  rw [notePress, if_neg h, getTile_modTile]

/-- The tile of an operation that leaves its queue with a deferred exception (R178). -/
theorem getTile_opFails (s : State) (t : W16) (o : EngOp) (cause : Byte) : getTile (opFails s t o cause) t
    = let y := discardOps (setUnitQ (getTile s t) (kindUnit o.kind) ((unitQ (getTile s t) (kindUnit o.kind)).erase o)) o.job
      putCtx y o.job (noteExc (getCtx y o.job) cause false true o.pc (opInfo o)) := by
  rw [opFails, excDeferred, (SameButLog.paused _ _).getTile, raiseDeferred, getTile_putErr _ _ (by simp [excErr]), getTile_modTile, getTile_modTile]

theorem opFails_cfg (s : State) (t : W16) (o : EngOp) (cause : Byte) : (opFails s t o cause).log.cfg = s.log.cfg := by
  rw [opFails, excDeferred, checkPaused_log, raiseDeferred, putErr_cfg _ (by simp [excErr])]
  rfl

/-- An exception of a running context stops it with its cause, address and detail (R177-R179). -/
theorem noteExc_running {c : Ctx} (h : c.st = .running) (cause : Byte) (precise eng : Bool) (pc info : W64) : noteExc c cause precise eng pc info
    = { c with st := .stopped, excCause := excCauseReg cause precise eng, excPc := pc, excInfo := info } := by
  simp [noteExc, h]

theorem getTile_noteT2 (s : State) (t : W16) (b : Bool) :
    ∃ c, getTile (noteT2 t b s) t = { getTile s t with regs := { (getTile s t).regs with cvtStatus := c } } := by
  cases b with
  | false => exact ⟨_, rfl⟩
  | true => exact ⟨(getTile s t).regs.cvtStatus ||| 8, by rw [noteT2, if_pos rfl, getTile_modTile]⟩

theorem notePress_log (s : State) (t : W16) (bits : W32) : (notePress t bits s).log = s.log := by
  unfold notePress
  split <;> rfl

theorem noteT2_log (s : State) (t : W16) (b : Bool) : (noteT2 t b s).log = s.log := by cases b <;> rfl

/-- Of a command that no row block of was written, T2_CODE alone may be set (R27). -/
theorem stopT2_before_rows (s : State) (t : W16) (p : PressCmd) : (stopT2 s t p 0).log = s.log
    ∧ ∃ c, getTile (stopT2 s t p 0) t = { getTile s t with regs := { (getTile s t).regs with cvtStatus := c } } := by
  simp only [stopT2, ne_eq, not_true_eq_false, decide_false, Bool.false_and, Bool.false_eq_true, if_false]
  split
  · exact ⟨noteT2_log _ t _, getTile_noteT2 (freshBit s).2 t _⟩
  · exact ⟨rfl, _, rfl⟩

/-- The press command at the head of its queue fails: it and its context's operations not started are gone, and the context has stopped (R178). -/
theorem opFails_press {s : State} {t : W16} {o : EngOp} {rest : List EngOp} (hk : o.kind = .press) (hq : unitQ (getTile s t) .press = o :: rest)
    (hr : (ctxOf s t o.job).st = .running) (cause : Byte) : let y := getTile (opFails s t o cause) t
    unitQ y .press = rest.filter (fun p => decide (p.job ≠ o.job) || p.started) ∧ y.spad = (getTile s t).spad ∧ y.regs = (getTile s t).regs
    ∧ y.residueFails = (getTile s t).residueFails
    ∧ getCtx y o.job = { ctxOf s t o.job with st := .stopped, excCause := excCauseReg cause false true, excPc := o.pc, excInfo := opInfo o } := by
  rw [getTile_opFails, hk]
  have hctx (q : List EngOp) : getCtx (discardOps (setUnitQ (getTile s t) .press q) o.job) o.job = ctxOf s t o.job := rfl
  simp only [kindUnit, hq, List.erase_cons_head, hctx, noteExc_running hr, getCtx_putCtx, and_true]
  exact ⟨rfl, rfl, rfl, rfl⟩

/-- A command that no row block of was written stops: its failure is noted and T2_CODE may be set (R27, R76, R464). -/
theorem pressStop_before_rows (s : State) (t : W16) (o : EngOp) (injected : Bool) :
    ∃ u, pressStop s t o 0 injected = opFails u t { o with injected } cPressResidue ∧ u.log = s.log
      ∧ ∃ c v, getTile u t = { getTile s t with
          regs := { (getTile s t).regs with cvtStatus := c, pressStatus := (getTile s t).regs.pressStatus ||| 4 }
          residueFails := (getTile s t).residueFails ++ [v] } := by
  have hrows (p : PressCmd) : stoppedRows p 0 = 0 := by simp [stoppedRows]
  obtain ⟨hlog, c, hc⟩ := stopT2_before_rows s t (pressCmd o.block)
  refine ⟨noteFail (notePress t 0x04 (stopT2 s t (pressCmd o.block) 0)) t, ?_, ?_, c, (notePress t 0x04 (stopT2 s t (pressCmd o.block) 0)).mod.time, ?_⟩
  · simp only [pressStop, hrows, if_true, ne_eq, not_true_eq_false, false_and, if_false]
  · rw [noteFail, Laws.modTile_log, notePress_log, hlog]
  · rw [noteFail, getTile_modTile, getTile_notePress _ _ (by decide), hc]

/-- The state after a mismatch is counted, before the patch's replay passes or fails (R77). -/
def mismatchNoted (s : State) (t : W16) (o : EngOp) : State :=
  modTile (notePress t 0x02 (markInjected s t o (getTile s t).injResidue)) t fun x =>
    { x with regs := { x.regs with residueCount := x.regs.residueCount + 1 } }

theorem getTile_mismatchNoted (s : State) (t : W16) (o : EngOp) : getTile (mismatchNoted s t o) t
    = { setUnitQ (getTile s t) .press ({ o with injected := (getTile s t).injResidue } :: (unitQ (getTile s t) .press).tail) with
        injResidue := false
        regs := { (getTile s t).regs with
          pressStatus := (getTile s t).regs.pressStatus ||| 2, residueCount := (getTile s t).regs.residueCount + 1 } } := by
  rw [mismatchNoted, getTile_modTile, getTile_notePress _ _ (by decide), markInjected, getTile_modTile, setHead, getTile_modTile]
  rfl

theorem mismatchNoted_log (s : State) (t : W16) (o : EngOp) : (mismatchNoted s t o).log = s.log := by
  rw [mismatchNoted, Laws.modTile_log, notePress_log]
  rfl

section mismatch
variable {s : State} {tile : W16} {o : EngOp} {rest : List EngOp} (hq : unitQ (getTile s tile) .press = o :: rest) (hs : o.started = true)
  (hw : o.slotWait = none)
include hq hs hw

/-- A mismatch is counted; then the replay passes with a record, or the command stops (R77). -/
theorem residueMismatch_runs (pass : Bool) (blocks : Nat) : residueMismatch tile pass blocks s
    = if bitAt (getTile s tile).regs.pressCtrl 1 && pass then
        putErr (setHead (mismatchNoted s tile o) tile .press o)
          { tileErr tile (some o.job) cPressResidue 0 with sev := 0, injected := (getTile s tile).injResidue }
      else pressStop (mismatchNoted s tile o) tile { o with injected := (getTile s tile).injResidue } blocks (getTile s tile).injResidue := by
  have hctrl : (getTile (mismatchNoted s tile o) tile).regs.pressCtrl = (getTile s tile).regs.pressCtrl := by rw [getTile_mismatchNoted]
  have hhead : headOp s tile .press = some o := by rw [headOp, hq]; rfl
  have hrun : o.started = true ∧ o.slotWait.isNone = true := ⟨hs, by rw [hw]; rfl⟩
  unfold residueMismatch
  simp only [hhead]
  rw [if_pos hrun, ← hctrl]
  unfold mismatchNoted
  dsimp only

variable (hf : (getTile s tile).residueFails = [])
include hf

/-- A replay that passes leaves the command running (R77). -/
theorem residueMismatch_passes (hc : bitAt (getTile s tile).regs.pressCtrl 1 = true) : Goes (.next (escalateResidue (residueMismatch tile true 0 s) tile)) fun t =>
    unitQ (getTile t tile) .press = o :: rest ∧ (getTile t tile).spad = (getTile s tile).spad
    ∧ (getTile t tile).regs.residueCount = (getTile s tile).regs.residueCount + 1
    ∧ (getTile t tile).regs.pressStatus = (getTile s tile).regs.pressStatus ||| 2 ∧ ctxOf t tile o.job = ctxOf s tile o.job := by
  have ht : getTile (residueMismatch tile true 0 s) tile = setUnitQ (getTile (mismatchNoted s tile o) tile) .press (o :: rest) := by
    rw [residueMismatch_runs hq hs hw, hc, Bool.and_self, if_pos rfl, getTile_putErr _ _ (by simp), setHead, getTile_modTile, getTile_mismatchNoted, hq]
    rfl
  rw [getTile_mismatchNoted] at ht
  rw [escalateResidue_of_noFails (by rw [ht]; exact hf)]
  refine ⟨_, rfl, ?_⟩
  simp only [ctxOf, ht]
  exact ⟨rfl, rfl, rfl, rfl, rfl⟩

/-- A mismatch without replay, or whose replay fails, stops the context with PRESS_RESIDUE (R76, R77, R178). -/
theorem residueMismatch_fails {pass : Bool} (hk : o.kind = .press) (hc : bitAt (getTile s tile).regs.pressCtrl 1 = false ∨ pass = false)
    (hl : fldN s.log.cfg 24 3 = 0 ∨ 1 < fldN s.log.cfg 24 3) (hr : (ctxOf s tile o.job).st = .running) :
    Goes (.next (escalateResidue (residueMismatch tile pass 0 s) tile)) fun t =>
      unitQ (getTile t tile) .press = rest.filter (fun p => decide (p.job ≠ o.job) || p.started) ∧ (getTile t tile).spad = (getTile s tile).spad
      ∧ (getTile t tile).regs.pressStatus = (getTile s tile).regs.pressStatus ||| 6
      ∧ ctxOf t tile o.job = { ctxOf s tile o.job with st := .stopped, excCause := 0x127, excPc := o.pc, excInfo := opInfo o } := by
  have hb : (bitAt (getTile s tile).regs.pressCtrl 1 && pass) = false := by rcases hc with h | h <;> simp [h]
  obtain ⟨u, hu, hlog, c, v, hz⟩ := pressStop_before_rows (mismatchNoted s tile o) tile { o with injected := (getTile s tile).injResidue }
    (getTile s tile).injResidue
  have hrun : residueMismatch tile pass 0 s = opFails u tile { o with injected := (getTile s tile).injResidue } cPressResidue := by
    rw [residueMismatch_runs hq hs hw, hb, if_neg (by decide), hu]
  have huq : unitQ (getTile u tile) .press = { o with injected := (getTile s tile).injResidue } :: rest := by
    rw [hz, getTile_mismatchNoted, hq]
    rfl
  have huc : ctxOf u tile o.job = ctxOf s tile o.job := by
    rw [ctxOf, hz, getTile_mismatchNoted]
    rfl
  obtain ⟨hqueue, hspad, hregs, hfails, hctx⟩ := opFails_press (o := { o with injected := (getTile s tile).injResidue }) hk huq (huc ▸ hr) cPressResidue
  rw [← hrun] at hqueue hspad hregs hfails hctx
  have hone : (getTile (residueMismatch tile pass 0 s) tile).residueFails.length = 1 := by
    rw [hfails, hz, getTile_mismatchNoted]
    exact congrArg (fun l => (l ++ [v]).length) hf
  have hcfg : (residueMismatch tile pass 0 s).log.cfg = s.log.cfg := by
    rw [hrun, opFails_cfg, hlog]
    exact congrArg Log.cfg (mismatchNoted_log s tile o)
  rw [escalateResidue_of_few (by rw [hone, hcfg]; exact hl)]
  refine ⟨_, rfl, hqueue, ?_, ?_, ?_⟩
  · rw [hspad, hz, getTile_mismatchNoted]
    rfl
  · rw [hregs, hz, getTile_mismatchNoted]
    exact (BitVec.or_assoc _ 2 4)
  · exact hctx.trans (by rw [huc]; rfl)

end mismatch

theorem exec_pressResidueMismatch_runs {s : State} {tile : W16} (hp : tilePresent s tile = true) (pass : Bool) (blocks : Nat) :
    exec (.pressResidueMismatch tile pass blocks) s = .next (escalateResidue (residueMismatch tile pass blocks s) tile) := by
  change execPressResidueMismatch tile pass blocks s = _
  rw [execPressResidueMismatch, onTile_present hp]

/-- Settles O29: the mismatch that passes and the one that fails, the patrols, and the faults of the context store. -/
theorem tileErrors : Obligations.TileErrors := by
  intro s tile hp x
  refine ⟨fun o rest pass hq hk hs hw hf => ?residue, exec_widePatrol_runs hp, exec_spadEccWriteback_runs hp, exec_spadPatrol_runs hp, fun j => ?store⟩
  case residue =>
    rw [exec_pressResidueMismatch_runs hp, exec_pressResidueMismatch_runs hp]
    exact ⟨residueMismatch_passes hq hs hw hf, residueMismatch_fails hq hs hw hf hk⟩
  case store =>
    rw [exec_ctxStorePatrol_runs hp]
    refine ⟨fun hb => ?good, fun hb hf hd => ⟨fun ha => ?fence, fun ha hh => ?hold⟩⟩
    case good =>
      rw [hb, if_neg (by decide)]
      refine ⟨_, rfl, ?_⟩
      simp only [ctxOf, getTile_modTile]
      exact ⟨(eccAt_merase _ _ _).trans (if_pos rfl), fun k => rfl⟩
    case fence =>
      rw [hb, if_pos rfl, tileFault_inService hf hd, ha]
      exact ⟨_, rfl, getTile_fenceTile _ _ _⟩
    case hold =>
      obtain ⟨hheld, hctx⟩ := getTile_holdTile (putErr s (fenceErr tile cTileFault 1 true)) tile
      rw [hb, if_pos rfl, tileFault_inService hf hd, ha]
      simp only [hh, Bool.false_eq_true, if_false, x]
      refine ⟨_, rfl, hheld, fun k hk => ?_⟩
      rw [ctxOf, hctx, getTile_putErr _ _ (by simp [fenceErr])]
      exact faultedCtx_running hk

end Sys2Proof.Machine
end

section
/-!
PROOFS of the statements of the family '04_training_numerics.md': what a record and a pause leave of the watch, gauge reads, and the loss monitors.
-/
namespace Sys2Proof.Machine
open Sys2Proof

/-! ## Jobs, watch entries and monitors by number -/

theorem getJob_modJob (s : State) (j : BitVec 2) (f : Job → Job) (k : BitVec 2) :
    getJob (modJob s j f) k = if k = j then f (getJob s j) else getJob s k :=
  (mget_mset _ _ _ _ _).trans (if_congr BitVec.toNat_inj rfl rfl)

theorem getWatch_putWatch (s : State) (n : BitVec 12) (e : Watch) (k : BitVec 12) :
    getWatch (putWatch s n e) k = if k = n then e else getWatch s k :=
  (mget_mset _ _ _ _ _).trans (if_congr BitVec.toNat_inj rfl rfl)

theorem getLoss_putLoss (s : State) (m : BitVec 3) (l : Loss) (k : BitVec 3) :
    getLoss (putLoss s m l) k = if k = m then l else getLoss s k :=
  (mget_mset _ _ _ _ _).trans (if_congr BitVec.toNat_inj rfl rfl)

theorem fldN_eq_div_mod {w : Nat} (x : BitVec w) (lo n : Nat) : fldN x lo n = x.toNat / 2 ^ lo % 2 ^ n := by
  simp [fldN, Nat.shiftRight_eq_div_pow]

/-! ## What a record and a pause leave of the watch (R105, R400, R457-R462) -/

/-- What composes and holds of each record holds of an error: of its own record, of the summary of one that the log lost, and of the record
about a ring that takes none. -/
theorem putErr_keeps {R : State → State → Prop} (trans : ∀ s t u, R s t → R t u → R s u) (record : ∀ s e, e.sev ≠ 3 → R s (putErr1 s e).1)
    (s : State) {e : Err} (h : e.sev ≠ 3) : R s (putErr s e) := by
  have own := record s e h
  have next : ∀ {t : State} (e' : Err), R s t → e'.sev ≠ 3 → R s (putErr1 t e').1 := fun e' ht h' => trans _ _ _ ht (record _ e' h')
  have lost : R s (if (putErr1 s e).2 = true then (putErr1 (putErr1 s e).1 (lostErr (putErr1 s e).1)).1 else (putErr1 s e).1) := by
    split
    · exact next _ own (by simp [lostErr])
    · exact own
  unfold putErr
  dsimp only
  cases e.job with
  | none => exact lost
  | some j =>
    dsimp only
    split
    · split
      · split
        · exact lost
        · exact next _ lost (by simp [worldErr])
      · exact lost
    · split
      · exact next _ lost (by simp [hbmDataErr])
      · exact lost

/-- The close of a job, the watch image that waits for it, and WATCH.CLOSE_STATUS (R96, R98, R540). -/
def jobClose (s : State) (j : BitVec 2) : Option Close × Option (List Byte) × W32 :=
  ((getJob s j).closing, (getJob s j).imageWait, (getJob s j).regs.closeStatus)

/-- The watch entries, the loss monitors and the closes of two states are the same. -/
structure KeepsWatch (s t : State) : Prop where
  watches : t.watches = s.watches
  losses : t.losses = s.losses
  closes : ∀ j, jobClose t j = jobClose s j

namespace KeepsWatch
variable {s t u : State}

theorem refl (s : State) : KeepsWatch s s := ⟨rfl, rfl, fun _ => rfl⟩

theorem trans (h : KeepsWatch s t) (k : KeepsWatch t u) : KeepsWatch s u :=
  ⟨k.watches.trans h.watches, k.losses.trans h.losses, fun j => (k.closes j).trans (h.closes j)⟩

theorem of_same (hw : t.watches = s.watches) (hl : t.losses = s.losses) (hj : t.jobs = s.jobs) : KeepsWatch s t :=
  ⟨hw, hl, fun j => by simp only [jobClose, getJob, hj]⟩

theorem getWatch (h : KeepsWatch s t) (n : BitVec 12) : getWatch t n = Machine.getWatch s n := by simp only [Machine.getWatch, h.watches]

theorem getLoss (h : KeepsWatch s t) (m : BitVec 3) : getLoss t m = Machine.getLoss s m := by simp only [Machine.getLoss, h.losses]

theorem closing (h : KeepsWatch s t) (j : BitVec 2) : (getJob t j).closing = (getJob s j).closing := congrArg Prod.fst (h.closes j)

theorem imageWait (h : KeepsWatch s t) (j : BitVec 2) : (getJob t j).imageWait = (getJob s j).imageWait := congrArg (·.2.1) (h.closes j)

theorem closeStatus (h : KeepsWatch s t) (j : BitVec 2) : (getJob t j).regs.closeStatus = (getJob s j).regs.closeStatus := congrArg (·.2.2) (h.closes j)

theorem job (s : State) (j : BitVec 2) {f : Job → Job} (hc : ∀ x, (f x).closing = x.closing) (hi : ∀ x, (f x).imageWait = x.imageWait)
    (hr : ∀ x, (f x).regs.closeStatus = x.regs.closeStatus) : KeepsWatch s (modJob s j f) := by
  refine ⟨rfl, rfl, fun k => ?_⟩
  simp only [jobClose, getJob_modJob]
  split
  case isTrue h => rw [h, hc, hi, hr]
  case isFalse => rfl

theorem event (s : State) (k : Nat) (o : W16) (b : List Byte) (v : BitVec 2) : KeepsWatch s (raiseEvent s k o b v) := by
  rw [raiseEvent_mgmt]
  exact of_same rfl rfl rfl

theorem jobSt (s : State) (j : BitVec 2) (st : JobSt) : KeepsWatch s (setJobSt s j st) :=
  trans (t := modJob s j fun x => { x with st }) (job s j (fun _ => rfl) (fun _ => rfl) fun _ => rfl) (event _ _ _ _ _)

theorem paused (s : State) (j : BitVec 2) : KeepsWatch s (checkPaused s j) := by
  unfold checkPaused
  split
  · exact jobSt _ _ _
  · exact refl s

theorem pause (s : State) (j : BitVec 2) : KeepsWatch s (pauseJob s j) := by
  unfold pauseJob
  split
  · have hm : ∀ t : State, KeepsWatch t (mapCtx t j pauseCtx) := fun _ => of_same rfl rfl rfl
    exact ((jobSt s j .pausing).trans (hm _)).trans (paused _ _)
  · exact refl s

theorem stored1 (s : State) (pa : Nat) (bs : List Byte) : KeepsWatch s (hbmPut1 s pa bs).1 := by
  unfold hbmPut1
  dsimp only
  split
  · split <;> exact of_same rfl rfl rfl
  · exact refl s

theorem stored (s : State) (pa : Nat) (bs : List Byte) : KeepsWatch s (hbmPut s pa bs).1 := by
  unfold hbmPut
  refine List.foldlRecOn (motive := fun r : State × Byte => KeepsWatch s r.1) _ _ (refl s) fun r h e _ => ?_
  exact h.trans (stored1 r.1 e.1 e.2)

theorem ring (s : State) (r : ErrRec) : KeepsWatch s (ringAppend s r) := by
  unfold ringAppend
  dsimp only
  split
  · split
    · exact refl s
    · split
      · exact (stored _ _ _).trans (job _ _ (fun _ => rfl) (fun _ => rfl) fun _ => rfl)
      · exact job _ _ (fun _ => rfl) (fun _ => rfl) fun _ => rfl
  · exact refl s

theorem record (s : State) {r : ErrRec} (h : r.sev ≠ 3) : KeepsWatch s (putRecord s r).1 := by
  have hr : ∀ l : Log, KeepsWatch s (ringAppend { s with log := l } r) := fun l => trans (t := { s with log := l }) (of_same rfl rfl rfl) (ring _ r)
  simp only [putRecord, h, if_false]
  split
  · exact (hr _).trans (event _ _ _ _ _)
  · exact hr _

theorem err1 (s : State) {e : Err} (h : e.sev ≠ 3) : KeepsWatch s (putErr1 s e).1 := by
  unfold putErr1
  split
  · exact of_same rfl rfl rfl
  · refine trans ?_ (record _ h)
    split
    · exact of_same rfl rfl rfl
    · exact refl s

/-- An error that is not FATAL, with the records that it leads to. -/
theorem err (s : State) {e : Err} (h : e.sev ≠ 3) : KeepsWatch s (putErr s e) :=
  putErr_keeps (R := KeepsWatch) (fun _ _ _ => trans) (fun s _ => err1 s) s h

theorem alarm (s : State) {e : Err} (h : e.sev ≠ 3) (pause : Bool) (j : BitVec 2) : KeepsWatch s (alarm s e pause j) := by
  unfold Machine.alarm
  dsimp only
  split
  · exact (err s h).trans (KeepsWatch.pause _ j)
  · exact err s h

end KeepsWatch

/-! ## Gauge reads (R100, R160) -/

section gauge
variable {s : State} {d : Nat} {j : BitVec 2} {w : BitVec 12} {t : W64}

theorem gaugeRead_notReady (h : (getDie s d).watchReady = false) : gaugeRead s d j w t = .stall := by
  simp [gaugeRead, h]

theorem gaugeRead_unset (hr : (getDie s d).watchReady = true) (h : watchOn (getWatch s w) = false ∨ watchJob (getWatch s w) ≠ j) :
    gaugeRead s d j w t = .value 0x80 := by
  have hu : (!watchOn (getWatch s w) || decide (watchJob (getWatch s w) ≠ j)) = true := by simpa using h
  simp only [gaugeRead, hr, hu, Bool.not_true, Bool.false_eq_true, if_false, if_true]

/-- A read of an enabled entry of the context, by how its step lies to the open one. -/
theorem gaugeRead_own (hr : (getDie s d).watchReady = true) (ho : watchOn (getWatch s w) = true) (hj : watchJob (getWatch s w) = j) :
    let e := getWatch s w
    (t.toNat = e.openStep.toNat → gaugeRead s d j w t = .value (fld e.exp 8 8))
    ∧ (t.toNat + 1 = e.openStep.toNat → gaugeRead s d j w t = .value (fld e.exp 0 8))
    ∧ (e.openStep.toNat < t.toNat → gaugeRead s d j w t = .stall) ∧ (t.toNat + 1 < e.openStep.toNat → gaugeRead s d j w t = .stale) := by
  simp only [gaugeRead, hr, ho, hj, ← BitVec.toNat_inj, Bool.not_true, Bool.false_eq_true, if_false, Bool.false_or, ne_eq, not_true_eq_false, decide_false]
  refine ⟨fun h => if_pos h, fun h => ?_, fun h => ?_, fun h => ?_⟩
  · rw [if_neg (by omega), if_pos h]
  · rw [if_neg (by omega), if_neg (by omega), if_pos h]
  · rw [if_neg (by omega), if_neg (by omega), if_neg (by omega)]

end gauge

section gaugeSlot
variable {s : State} {h : SlotHdr} {j : BitVec 2} (gD : BitVec 5) {gA : BitVec 5} {widx : BitVec 12}
variable (hi : canIssue s h j = true) (he : h.eng = false)
include hi he

theorem evalSlot_watch (op : BitVec 6) (gA gB : BitVec 5) (widx : BitVec 12) (mon : BitVec 3) :
    evalSlot s h.tile j (ctxOf s h.tile j) h.eng false false (slotOf h (.watch op gD gA gB widx mon))
      = evalWatch s h.tile j (ctxOf s h.tile j) op gD gA gB widx mon :=
  evalSlot_own hi (by rw [he]; rfl)

theorem exec_gauge_value {b : Byte} (hr : gaugeRead s (tDie h.tile) j widx (getG (ctxOf s h.tile j) gA) = .value b) :
    exec (.gauge h gD gA widx) s = .next (advance s h j fun c => setG c gD (b.setWidth 64)) := by
  rw [exec_coreSlot rfl]
  exact slotCmd_gW hi rfl ((evalSlot_watch gD hi he ..).trans (by simp [evalWatch, hr]))

theorem exec_gauge_stall (hr : gaugeRead s (tDie h.tile) j widx (getG (ctxOf s h.tile j) gA) = .stall) :
    exec (.gauge h gD gA widx) s = .next (waiting s h j (.watch 0 gD gA 0 widx 0)) := by
  rw [exec_coreSlot rfl]
  refine slotCmd_blocked (r := { gW := some (gD, 0), blocked := true }) hi he ((evalSlot_watch gD hi he ..).trans ?_) rfl rfl
  simp [evalWatch, hr]

theorem exec_gauge_stale (hr : gaugeRead s (tDie h.tile) j widx (getG (ctxOf s h.tile j) gA) = .stale) :
    exec (.gauge h gD gA widx) s = .next (stopped s h j cGaugeStale 0) := by
  rw [exec_coreSlot rfl]
  exact slotCmd_excRes hi ((evalSlot_watch gD hi he ..).trans (by simp [evalWatch, hr]))

theorem exec_monw (mon : BitVec 3) (gA gB : BitVec 5) :
    let c := ctxOf s h.tile j
    exec (.monw h mon gA gB) s
      = .next (lossWrite (advance s h j id) j mon (getG c gA) ((getG c gB).setWidth 32) ((getG c gB).extractLsb' 32 8)) := by
  intro c
  have hv : fld (getG c gB) 0 32 = (getG c gB).setWidth 32 := BitVec.eq_of_toNat_eq (by simp [fld])
  rw [exec_coreSlot rfl, slotCmd_act hi rfl (evalSlot_watch 0 hi he ..), ← hv]
  rfl

end gaugeSlot

/-! ## Loss values (R106, R107) -/

/-- A value spikes: past the warm-up of its monitor, it lies beyond the band about the average. -/
def lossSpikes (l : Loss) (v : Int) : Bool :=
  let avg := l.avg.toInt
  let band : Int := (avg.natAbs * fldN l.cfg 8 8 / 256 : Nat) + l.bandAbs.toNat
  decide (l.accepted ≠ 0) && !decide (l.accepted.toNat < fldN l.cfg 0 8) && (decide (band < v - avg) || (bitAt l.cfg 30 && decide (band < avg - v)))

/-- A monitor after a value that it takes. -/
def lossNext (l : Loss) (step : W64) (v : Int) : Loss :=
  let avg := l.avg.toInt
  let next := avg + (v - avg) / (2 ^ fldN l.cfg 20 4 : Nat)
  { l with
    avg := BitVec.ofInt 64 (if l.accepted = 0 then v else if lossSpikes l v then avg else next), last := BitVec.ofInt 64 v, lastStep := step
    accepted := BitVec.ofNat 32 (hold32 (l.accepted.toNat + 1)), spikes := if lossSpikes l v then l.spikes + 1 else l.spikes }

section loss
variable {s : State} {j : BitVec 2} {m : BitVec 3} {step : W64} {value : W32} {e : Byte}

theorem x8_of_ne_unset {b : Byte} (h : b ≠ 0x80) : x8 b = some b.toInt := if_neg h

/-- A value is taken: finite, for an armed monitor of the writing job, and of a step after the last one. -/
def LossTakes (l : Loss) (j : BitVec 2) (step : W64) (e : Byte) : Prop :=
  e ≠ 0x80 ∧ bitAt l.cfg 31 = true ∧ fld l.cfg 28 2 = j ∧ (l.accepted = 0 ∨ l.lastStep.toNat < step.toNat)

theorem lossRefuses_iff {l : Loss} (he : e ≠ 0x80) :
    (!bitAt l.cfg 31 || decide (fld l.cfg 28 2 ≠ j) || (decide (l.accepted ≠ 0) && decide (step.toNat ≤ l.lastStep.toNat))) = true
      ↔ ¬ LossTakes l j step e := by
  simp only [LossTakes, Bool.or_eq_true, Bool.and_eq_true, decide_eq_true_eq, Bool.not_eq_true', Bool.eq_false_iff, ← not_lt]
  tauto

/-- A value that is not taken is counted, and nothing else changes. -/
theorem lossWrite_rejects (h : ¬ LossTakes (getLoss s m) j step e) :
    lossWrite s j m step value e = putLoss s m { getLoss s m with rejects := (getLoss s m).rejects + 1 } := by
  by_cases he : e = 0x80
  · subst he; rfl
  · simp only [lossWrite, x8_of_ne_unset he]
    exact if_pos ((lossRefuses_iff he).mpr h)

/-- A value that is taken moves its monitor on; a spike's alarm leaves the monitors. -/
theorem lossWrite_takes (h : LossTakes (getLoss s m) j step e) :
    KeepsWatch (putLoss s m (lossNext (getLoss s m) step (lossUnits value e.toInt))) (lossWrite s j m step value e) := by
  simp only [lossWrite, x8_of_ne_unset h.1]
  rw [if_neg fun hr => (lossRefuses_iff h.1).mp hr h]
  change KeepsWatch _ (if lossSpikes (getLoss s m) _ then alarm (putLoss s m (lossNext (getLoss s m) step _)) _ _ _ else putLoss s m (lossNext _ step _))
  split
  · refine .alarm _ ?_ _ _
    simp
  · exact .refl _

end loss

section lossNext
variable {l : Loss} {step : W64} {v : Int}

theorem lossSpikes_iff : lossSpikes l v = true ↔ l.accepted ≠ 0 ∧ l.cfg.toNat % 256 ≤ l.accepted.toNat
    ∧ (((l.avg.toInt.natAbs * (l.cfg.toNat / 2 ^ 8 % 256) / 256 : Nat) + l.bandAbs.toNat : Int) < v - l.avg.toInt
      ∨ bitAt l.cfg 30 = true ∧ ((l.avg.toInt.natAbs * (l.cfg.toNat / 2 ^ 8 % 256) / 256 : Nat) + l.bandAbs.toNat : Int) < l.avg.toInt - v) := by
  simp [lossSpikes, fldN_eq_div_mod, and_assoc]

theorem lossNext_first (h : l.accepted = 0) : (lossNext l step v).avg = BitVec.ofInt 64 v ∧ (lossNext l step v).accepted = 1 := by
  simp [lossNext, h, hold32]

theorem lossNext_spike (h : lossSpikes l v = true) : (lossNext l step v).avg = l.avg ∧ (lossNext l step v).spikes = l.spikes + 1 := by
  simp only [lossNext, h, (lossSpikes_iff.mp h).1, if_true, if_false, BitVec.ofInt_toInt, and_self]

theorem lossNext_moves (ha : l.accepted ≠ 0) (h : lossSpikes l v = false) : (lossNext l step v).spikes = l.spikes
    ∧ (lossNext l step v).avg = BitVec.ofInt 64 (l.avg.toInt + (v - l.avg.toInt) / 2 ^ (l.cfg.toNat / 2 ^ 20 % 16)) := by
  simp only [lossNext, h, ha, fldN_eq_div_mod, Bool.false_eq_true, if_false, true_and]
  norm_cast

end lossNext

/-- Settles O14: the four places of a gauge read's step, and a loss value taken or rejected. -/
theorem watchReportsAndLosses : Obligations.WatchReportsAndLosses := by
  refine ⟨fun s h j gD gA gB widx mon hi he => ?gauge, fun s w j m step value e => ?loss⟩
  case gauge =>
    refine ⟨fun hr => exec_gauge_stall gD hi he (gaugeRead_notReady hr), fun hr hu => exec_gauge_value gD hi he (gaugeRead_unset hr hu),
      fun hr ho hj => ?_, exec_monw hi he mon gA gB⟩
    obtain ⟨hopen, hbefore, hlater, hstale⟩ := gaugeRead_own (t := getG (ctxOf s h.tile j) gA) hr ho hj
    exact ⟨fun h => exec_gauge_value gD hi he (hopen h), fun h => exec_gauge_value gD hi he (hbefore h),
      fun h => exec_gauge_stall gD hi he (hlater h), fun h => exec_gauge_stale gD hi he (hstale h)⟩
  case loss =>
    intro l v avg band taken spike
    refine ⟨_, rfl, fun hn => ?_, fun ht => ?_, fun k hk => ?_⟩
    · rw [lossWrite_rejects hn]
      exact ⟨(getLoss_putLoss ..).trans (if_pos rfl), rfl, rfl⟩
    · have hl : getLoss (setStatus (lossWrite s j m step value e) stOk) m = lossNext l step v :=
        (lossWrite_takes ht).getLoss m |>.trans ((getLoss_putLoss ..).trans (if_pos rfl))
      rw [hl]
      refine ⟨rfl, rfl, rfl, lossNext_first, fun h => lossNext_spike (lossSpikes_iff.mpr h), fun ⟨h0, h⟩ => lossNext_moves h0 ?_⟩
      exact Bool.eq_false_iff.mpr fun hc => h (lossSpikes_iff.mp hc)
    · by_cases ht : taken
      · exact (lossWrite_takes ht).getLoss k |>.trans ((getLoss_putLoss ..).trans (if_neg hk))
      · rw [lossWrite_rejects ht]
        exact (getLoss_putLoss ..).trans (if_neg hk)

end Sys2Proof.Machine
end

section
/-!
PROOFS of the statements of the family '04_training_numerics.md', continued: watch configuration, reports, closes and the watch image.
-/
namespace Sys2Proof.Machine
open Sys2Proof

/-! ## Watch and loss configuration (R86, R88, R106) -/

section config
variable {s : State} (w : Writer) {n : BitVec 12} {v : W32} {m : BitVec 3}

/-- A written configuration is of a listed format and scope. -/
def WatchCfgOk (v : W32) : Prop := (watchFmt (v.toNat / 2 ^ 16 % 16)).isSome = true ∧ v.toNat / 2 ^ 20 % 4 < 2

theorem watchCfgRefused_iff (v : W32) : ((watchFmt (fldN v 16 4)).isNone = true ∨ 2 ≤ fldN v 20 2) ↔ ¬ WatchCfgOk v := by
  rw [WatchCfgOk, fldN_eq_div_mod, fldN_eq_div_mod, ← Option.not_isSome, Bool.not_eq_true', Bool.eq_false_iff, ← not_lt, ← not_and_or]
  rfl

theorem watchCfgWrite_refuses (h : ¬ WatchCfgOk v) : watchCfgWrite s n v = (s, stInvalid) := if_pos ((watchCfgRefused_iff v).mpr h)

theorem exec_watchCfgWrite_invalid (h : ¬ WatchCfgOk v) : exec (.watchCfgWrite w n v) s = .next { s with status := stInvalid } :=
  congrArg (fun r => Host.Outcome.next (finish r)) (watchCfgWrite_refuses h)

/-- An entry after a write of its configuration: one that the write enables is armed with the job's arm step, another takes ENABLE alone until
its next close. -/
def configured (s : State) (n : BitVec 12) (v : W32) : Watch :=
  let e := getWatch s n
  if bitAt v 31 && !watchOn e then armWatch e v (getJob s (fld v 4 2)).regs.armStep
  else { e with cfg := merge 0x80000000 e.cfg (if bitAt v 31 then 0x80000000 else 0), pendCfg := some (v &&& watchCfgMask) }

theorem getWatch_uncover (s : State) (n k : BitVec 12) : getWatch (uncover s n) k = getWatch s k := rfl
theorem getWatch_clearAcc (s : State) (n k : BitVec 12) : getWatch (clearAcc s n) k = getWatch s k := rfl

theorem watchCfgWrite_configures (h : WatchCfgOk v) :
    ∃ t, watchCfgWrite s n v = (t, stOk) ∧ ∀ k, getWatch t k = if k = n then configured s n v else getWatch s k := by
  rw [watchCfgWrite, if_neg fun hr => (watchCfgRefused_iff v).mp hr h]
  by_cases ha : (bitAt v 31 && !watchOn (getWatch s n)) = true
  · rw [if_pos ha, configured, if_pos ha]
    refine ⟨_, rfl, fun k => ?_⟩
    rw [getWatch_clearAcc, getWatch_uncover, getWatch_putWatch]
  · rw [if_neg ha, configured, if_neg ha]
    refine ⟨_, rfl, fun k => ?_⟩
    rw [getWatch_putWatch]
    cases bitAt v 31 <;> rfl

theorem bitAt_merge_enable (c : W32) (b : Bool) : bitAt (merge 0x80000000 c (if b then 0x80000000 else 0)) 31 = b := by
  cases b <;> simp [bitAt, merge]

theorem exec_watchCfgWrite_sets (h : WatchCfgOk v) : Goes (exec (.watchCfgWrite w n v) s) fun t =>
    let e := getWatch s n
    t.status = 0 ∧ (∀ k, k ≠ n → getWatch t k = getWatch s k)
    ∧ (bitAt v 31 = true → watchOn e = false → getWatch t n
        = { Watch.reset with cfg := v &&& 0x8FFFFF70, openStep := (getJob s (v.extractLsb' 4 2)).regs.armStep, exp := 0x8080, satAlarm := e.satAlarm })
    ∧ (bitAt v 31 = false ∨ watchOn e = true → (getWatch t n).pendCfg = some (v &&& 0x8FFFFF70) ∧ watchOn (getWatch t n) = bitAt v 31
        ∧ (getWatch t n).openStep = e.openStep ∧ (getWatch t n).exp = e.exp ∧ (getWatch t n).history = e.history) := by
  obtain ⟨t, hexec, hw⟩ := watchCfgWrite_configures (s := s) (n := n) h
  have hn : getWatch (setStatus t stOk) n = configured s n v := (hw n).trans (if_pos rfl)
  refine ⟨_, congrArg (fun r => Host.Outcome.next (finish r)) hexec, rfl, fun k hk => (hw k).trans (if_neg hk), fun hv ho => ?_, fun hv => ?_⟩
  · exact hn.trans (if_pos (by rw [hv, ho]; rfl))
  · have hp : ¬ (bitAt v 31 && !watchOn (getWatch s n)) = true := by obtain hv | hv := hv <;> simp [hv]
    dsimp only [finish]
    rw [hn, configured, if_neg hp]
    exact ⟨rfl, bitAt_merge_enable _ _, rfl, rfl, rfl⟩

theorem exec_lossCfgWrite_invalid (h : v.toNat / 2 ^ 20 % 16 = 0 ∨ 8 < v.toNat / 2 ^ 20 % 16) :
    exec (.lossCfgWrite w m v) s = .next { s with status := stInvalid } := by
  have hr : lossCfgWrite s m v = (s, stInvalid) := if_pos (by rwa [fldN_eq_div_mod])
  change Host.Outcome.next (finish (lossCfgWrite s m v)) = _
  rw [hr]
  rfl

/-- A write of an average shift of 1 to 8 is taken; arming clears what the monitor holds but for its band. -/
theorem exec_lossCfgWrite_ok (h : 1 ≤ v.toNat / 2 ^ 20 % 16 ∧ v.toNat / 2 ^ 20 % 16 ≤ 8) : exec (.lossCfgWrite w m v) s
    = .next (setStatus (putLoss s m (if bitAt v 31 = true ∧ bitAt (getLoss s m).cfg 31 = false
        then { Loss.reset with cfg := v &&& 0xF8F0FFFF, bandAbs := (getLoss s m).bandAbs } else { getLoss s m with cfg := v &&& 0xF8F0FFFF })) stOk) := by
  have hr : ¬ (fldN v 20 4 = 0 ∨ 8 < fldN v 20 4) := by
    rw [fldN_eq_div_mod]
    omega
  change Host.Outcome.next (finish (lossCfgWrite s m v)) = _
  rw [lossCfgWrite]
  dsimp only
  rw [if_neg hr]
  simp only [Bool.and_eq_true, Bool.not_eq_true']
  split <;> rfl

end config

/-! ## Reports (R93) -/

theorem getDie_modDie (s : State) (d : Nat) (f : Die → Die) : getDie (modDie s d f) d = f (getDie s d) := mget_mset_same _ _ _ _

section report
variable {s : State} {r : Report}

/-- A report of the open step, whose close has not begun, merges into its die's accumulator. -/
theorem mergeReport_open (ho : watchOn (getWatch s r.widx) = true) (hj : watchJob (getWatch s r.widx) = r.job)
    (hs : r.step = (getWatch s r.widx).openStep) (hc : (getJob s r.job).closing = none) : mergeReport s r = modDie s r.die fun d =>
      { d with wacc := mset WAcc.reset d.wacc (2 * r.widx.toNat) (mergeAcc (mget WAcc.reset d.wacc (2 * r.widx.toNat))
        { reported := true, bound := r.bound, sat := hold32 r.sats, nonzero := r.nonzero, lost := false }) } := by
  simp [mergeReport, ho, hj, ← hs, frozenFor, hc]

/-- A report of no entry of its job, or of a step that is neither the open one nor the next. -/
def LateReport (s : State) (r : Report) : Prop :=
  watchOn (getWatch s r.widx) = false ∨ watchJob (getWatch s r.widx) ≠ r.job
    ∨ (r.step ≠ (getWatch s r.widx).openStep ∧ r.step ≠ (getWatch s r.widx).openStep + 1)

/-- A late report is dropped, counted and recorded. -/
theorem mergeReport_late (h : LateReport s r) :
    mergeReport s r = putErr (putWatch s r.widx
        { getWatch s r.widx with lateCount := (getWatch s r.widx).lateCount + 1, flags := (getWatch s r.widx).flags ||| 0x08 })
      (watchErr cWatchLate 1 r.widx r.job r.step 0 (BitVec.ofNat 4 r.die.val)) := by
  obtain h | h | ⟨h1, h2⟩ := h
  · simp [mergeReport, h]
  · simp [mergeReport, h]
  · simp only [mergeReport, h1, h2, decide_false, Bool.and_false, Bool.false_and, Bool.false_eq_true, if_false]

/-- The state without a report that has arrived. -/
def takeReport (s : State) (r : Report) : State := { s with net := { s.net with reports := s.net.reports.erase r } }

theorem exec_watchReportMerge_oldest {die : Fin 12} (h : s.net.reports.find? (fun r => decide (r.die = die)) = some r) :
    exec (.watchReportMerge die) s = .next (mergeReport (takeReport s r) r) := by
  change execWatchReportMerge die s = _
  rw [execWatchReportMerge, h]
  rfl

theorem mergeReport_takeReport_open (ho : watchOn (getWatch s r.widx) = true) (hj : watchJob (getWatch s r.widx) = r.job)
    (hs : r.step = (getWatch s r.widx).openStep) (hc : (getJob s r.job).closing = none) :
    Goes (.next (mergeReport (takeReport s r) r)) fun t =>
      let a := mget WAcc.reset (getDie s r.die).wacc (2 * r.widx.toNat)
      t.net.reports = s.net.reports.erase r ∧ t.watches = s.watches
      ∧ mget WAcc.reset (getDie t r.die).wacc (2 * r.widx.toNat)
        = { reported := true, bound := maxBound a.bound r.bound, sat := hold32 (a.sat + hold32 r.sats), nonzero := a.nonzero || r.nonzero, lost := a.lost } := by
  rw [mergeReport_open (s := takeReport s r) ho hj hs hc]
  refine ⟨_, rfl, rfl, rfl, ?_⟩
  rw [getDie_modDie, mget_mset_same, mergeAcc, Bool.or_true]
  rfl

theorem mergeReport_takeReport_late (h : LateReport s r) :
    Goes (.next (mergeReport (takeReport s r) r)) fun t =>
      (getWatch t r.widx).lateCount = (getWatch s r.widx).lateCount + 1 ∧ (getDie t r.die).wacc = (getDie s r.die).wacc := by
  rw [mergeReport_late (s := takeReport s r) h]
  refine ⟨_, rfl, ?_, ?_⟩
  · rw [(KeepsWatch.err _ (by simp [watchErr])).getWatch, getWatch_putWatch, if_pos rfl]
    rfl
  · rw [getDie, putErr_dies _ _ (by simp [watchErr])]
    rfl

end report

/-! ## Exponents in their registers (R88, R95) -/

theorem expRegister_fields (a b : Byte) : (at' 16 8 a ||| at' 16 0 b).extractLsb' 8 8 = a ∧ (at' 16 8 a ||| at' 16 0 b).extractLsb' 0 8 = b := by
  have ha := a.isLt
  have hb := b.isLt
  have h : at' 16 8 a ||| at' 16 0 b = BitVec.ofNat 16 (2 ^ 8 * a.toNat + b.toNat) := by
    rw [Nat.two_pow_add_eq_or_of_lt hb, BitVec.ofNat_or, at', at', Nat.mul_comm, Nat.pow_zero, Nat.mul_one]
  rw [h]
  constructor
  case left =>
    refine BitVec.eq_of_toNat_eq ?_
    rw [BitVec.extractLsb'_toNat, BitVec.toNat_ofNat, Nat.shiftRight_eq_div_pow]
    omega
  case right =>
    refine BitVec.eq_of_toNat_eq ?_
    rw [BitVec.extractLsb'_toNat, BitVec.toNat_ofNat, Nat.shiftRight_eq_div_pow]
    omega

theorem x8Byte_x8 (b : Byte) : x8Byte (x8 b) = b := by
  by_cases h : b = 0x80
  · subst h; rfl
  · rw [x8_of_ne_unset h]; exact BitVec.ofInt_toInt

theorem toInt_x8Byte {x : Int} (h : -127 ≤ x ∧ x ≤ 127) : (x8Byte (some x)).toInt = x := by
  change (BitVec.ofInt 8 x).toInt = x
  rw [BitVec.toInt_ofInt, Int.bmod_eq_of_le] <;> omega

theorem clampExp_fst (x : Int) : (clampExp (some x)).1 = some (max (-127) (min 127 x)) := by
  unfold clampExp
  dsimp only
  split_ifs <;> simp <;> omega

theorem toInt_clampExp (x : Int) : (x8Byte (clampExp (some x)).1).toInt = max (-127) (min 127 x) := by
  rw [clampExp_fst]
  exact toInt_x8Byte (by omega)

theorem hold32_eq_zero (n : Nat) : hold32 n = 0 ↔ n = 0 := by
  unfold hold32
  split <;> omega

/-! ## The close of one entry (R95, R102) -/

section closeEntry
variable {e : Watch} {acc : WAcc}

theorem closeEntry_history (e : Watch) (acc : WAcc) (lost : Bool) : (closeEntry e acc lost).history
    = if acc.reported then (e.history <<< 16) ||| (boundBits acc.bound).setWidth 256 else e.history := rfl

theorem closeEntry_before (e : Watch) (acc : WAcc) (lost : Bool) : (closeEntry e acc lost).exp.extractLsb' 0 8 = e.exp.extractLsb' 8 8 :=
  (expRegister_fields _ _).2.trans (x8Byte_x8 _)

/-- Without saturations the new exponent is the one that holds the largest bound of the history, with the headroom. -/
theorem closeEntry_quiet {wd : Nat} {sg : Bool} {b : Int} {lost : Bool} (hf : watchFmt (e.cfg.toNat / 2 ^ 16 % 16) = some (wd, sg)) (ha : acc.sat = 0)
    (hm : histMax (closeEntry e acc lost).history (e.cfg.toNat / 2 ^ 24 % 16 + 1) = some b) : ((closeEntry e acc lost).exp.extractLsb' 8 8).toInt
      = max (-127) (min 127 (b + (e.cfg.toNat / 2 ^ 22 % 4 : Nat) - (if sg then (wd : Int) - 1 else wd))) := by
  have hs : hold32 acc.sat = 0 := (hold32_eq_zero _).mpr ha
  have hf' : watchFmt (fldN e.cfg 16 4) = some (wd, sg) := by rwa [fldN_eq_div_mod]
  have hm' : histMax (closeEntry e acc lost).history (watchLen e) = some b := by rwa [watchLen, fldN_eq_div_mod]
  have hh : fldN e.cfg 22 2 = e.cfg.toNat / 2 ^ 22 % 4 := fldN_eq_div_mod ..
  rw [closeEntry_history] at hm'
  refine Eq.trans ?_ (toInt_clampExp _)
  simp only [closeEntry, hf', Option.getD_some, hs, if_true, hm', hh]
  rw [(expRegister_fields _ _).1]

/-- With saturations it is at least one more than the one before. -/
theorem closeEntry_saturated {lost : Bool} (ha : acc.sat ≠ 0) (he : e.exp.extractLsb' 8 8 ≠ 0x80) :
    max (-127) (min 127 ((e.exp.extractLsb' 8 8).toInt + 1)) ≤ ((closeEntry e acc lost).exp.extractLsb' 8 8).toInt := by
  have hs : hold32 acc.sat ≠ 0 := fun h => ha ((hold32_eq_zero _).mp h)
  have hx : x8 (fld e.exp 8 8) = some (e.exp.extractLsb' 8 8).toInt := x8_of_ne_unset he
  obtain ⟨x, hle, hexp⟩ : ∃ x : Int, (e.exp.extractLsb' 8 8).toInt + 1 ≤ x
      ∧ (closeEntry e acc lost).exp.extractLsb' 8 8 = x8Byte (clampExp (some x)).1 := by
    simp only [closeEntry, hs, if_false, hx, (expRegister_fields _ _).1]
    cases histMax _ (watchLen e) with
    | none => exact ⟨_, by split <;> omega, rfl⟩
    | some b => exact ⟨_, by split <;> omega, rfl⟩
  rw [hexp, toInt_clampExp]
  omega

end closeEntry

/-! ## Closes (R95-R98) -/

section close
variable {s : State}

theorem KeepsWatch.onlyIf {t : State} (p : Prop) [Decidable p] (h : KeepsWatch s t) : KeepsWatch s (if p then t else s) := by
  split
  · exact h
  · exact .refl s

theorem KeepsWatch.turned (s : State) (n : BitVec 12) : KeepsWatch s (turnBanks s n) := of_same rfl rfl rfl

theorem KeepsWatch.dropped (s : State) (j : BitVec 2) (step : W64) : KeepsWatch s (dropExchanged s j step) := of_same rfl rfl rfl

/-- An entry after a close of it with its zero alarm. -/
def closedEntry (e : Watch) (acc : WAcc) (lost : Bool) : Watch :=
  let e' := closeEntry e acc lost
  if zeroFires e' acc.reported then { e' with flags := e'.flags ||| 0x02 } else e'

theorem closedEntry_eq (e : Watch) (acc : WAcc) (lost : Bool) : ∃ f : Byte, closedEntry e acc lost = { closeEntry e acc lost with flags := f } := by
  unfold closedEntry
  dsimp only
  split
  · exact ⟨_, rfl⟩
  · exact ⟨_, rfl⟩

/-- The commit of an entry of module scope that waits for no configuration: its record and its alarms leave what the close set. -/
theorem commitEntry_keeps (j : BitVec 2) (step : W64) {n : BitVec 12} (acc : WAcc) (lost : Bool) (hn : watchNode (getWatch s n) = false) :
    KeepsWatch (putWatch s n (closedEntry (getWatch s n) acc lost)) (commitEntry s j step { widx := n, cfg := none, acc, lost }) := by
  have hacc : (if watchNode (takeCfg (getWatch s n) none) then peerAcc s j step n acc else acc) = acc := if_neg (by simp [takeCfg, hn])
  unfold commitEntry
  dsimp only
  rw [hacc]
  refine (((KeepsWatch.turned _ n).trans (.onlyIf _ (.err _ ?_))).trans (.onlyIf _ (.alarm _ ?_ _ _))).trans (.onlyIf _ (.alarm _ ?_ _ _))
  all_goals simp [watchErr]

theorem settleImage_idle {j : BitVec 2} (h : (getJob s j).imageWait = none) : settleImage s j = s := by
  rw [settleImage, h]

theorem coverSet_single {j : BitVec 2} {step : W64} {n : BitVec 12} (hc : closeSet s j step = [n]) (hp : (getWatch s n).pendCfg = none) :
    coverSet s j step = [{ widx := n, cfg := none, acc := ownAcc s n, lost := dieMissing s n }] := by
  simp [coverSet, hc, hp]

theorem getJob_setClose (s : State) (j : BitVec 2) (st : Nat) :
    getJob (setClose s j st) j = { getJob s j with regs := { (getJob s j).regs with closeStatus := setFld (getJob s j).regs.closeStatus 0 2 st } } :=
  (getJob_modJob ..).trans (if_pos rfl)

/-- The entries after a close are as its commits leave them, where no watch image waits for it. -/
theorem commitClose_watches {j : BitVec 2} {step : W64} {cs : List CloseEnt}
    (hi : (getJob (cs.foldl (fun s c => commitEntry s j step c) s) j).imageWait = none) :
    (commitClose s j step cs).watches = (cs.foldl (fun s c => commitEntry s j step c) s).watches := by
  rw [commitClose, settleImage_idle]
  · rfl
  · rw [getJob_setClose, getJob_modJob, if_pos rfl]
    exact hi

/-- A close over one entry of module scope, which waits for no configuration, sets that entry. -/
theorem watchClose_single {j : BitVec 2} {step : W64} {n : BitVec 12} (hj : (getJob s j).closing = none) (hi : (getJob s j).imageWait = none)
    (hc : closeSet s j step = [n]) (hn : watchNode (getWatch s n) = false) (hp : (getWatch s n).pendCfg = none) :
    (watchClose s j step).watches = (putWatch s n (closedEntry (getWatch s n) (ownAcc s n) (dieMissing s n))).watches := by
  have hset := commitEntry_keeps j step (ownAcc s n) (dieMissing s n) hn
  have hnode : ¬ ([{ widx := n, cfg := none, acc := ownAcc s n, lost := dieMissing s n }] : List CloseEnt).any (nodeEnt s) = true := by
    simp [nodeEnt, takeCfg, hn]
  rw [watchClose, if_neg (by rw [hj]; decide), coverSet_single hc hp]
  dsimp only
  rw [if_neg hnode]
  refine (commitClose_watches ?_).trans hset.watches
  exact (hset.imageWait j).trans hi

/-- What that close makes of its entry (R95). -/
theorem exec_watchClose_single (w : Writer) {j : BitVec 2} {step : W64} {n : BitVec 12} {wd : Nat} {sg : Bool} (hj : (getJob s j).closing = none)
    (hi : (getJob s j).imageWait = none) (hc : closeSet s j step = [n]) (hn : watchNode (getWatch s n) = false) (hp : (getWatch s n).pendCfg = none)
    (hf : watchFmt ((getWatch s n).cfg.toNat / 2 ^ 16 % 16) = some (wd, sg)) :
    let e := getWatch s n
    let a := ownAcc s n
    let clampE (x : Int) : Int := max (-127) (min 127 x)
    Goes (exec (.watchClose w j step) s) fun t =>
      let f := getWatch t n
      t.status = 0 ∧ f.openStep = e.openStep + 1 ∧ f.exp.extractLsb' 0 8 = e.exp.extractLsb' 8 8 ∧ f.satTotal = e.satTotal + BitVec.ofNat 64 a.sat
      ∧ f.history = (if a.reported then (e.history <<< 16) ||| (boundBits a.bound).setWidth 256 else e.history)
      ∧ (∀ b, a.sat = 0 → histMax f.history (e.cfg.toNat / 2 ^ 24 % 16 + 1) = some b →
          (f.exp.extractLsb' 8 8).toInt = clampE (b + (e.cfg.toNat / 2 ^ 22 % 4 : Nat) - (if sg then (wd : Int) - 1 else wd)))
      ∧ (a.sat ≠ 0 → e.exp.extractLsb' 8 8 ≠ 0x80 → clampE ((e.exp.extractLsb' 8 8).toInt + 1) ≤ (f.exp.extractLsb' 8 8).toInt)
      ∧ ∀ k, k ≠ n → getWatch t k = getWatch s k := by
  intro e a clampE
  have hw : ∀ k, getWatch (setStatus (watchClose s j step) stOk) k = if k = n then closedEntry e a (dieMissing s n) else getWatch s k := fun k =>
    (congrArg (fun m => mget Watch.reset m k.toNat) (watchClose_single hj hi hc hn hp)).trans (getWatch_putWatch ..)
  obtain ⟨f, hflags⟩ := closedEntry_eq e a (dieMissing s n)
  refine ⟨setStatus (watchClose s j step) stOk, rfl, ?_⟩
  beta_reduce
  rw [hw n, if_pos rfl, hflags]
  exact ⟨rfl, rfl, closeEntry_before e a (dieMissing s n), rfl, rfl, fun b => closeEntry_quiet (lost := dieMissing s n) hf,
    closeEntry_saturated (lost := dieMissing s n), fun k hk => (hw k).trans (if_neg hk)⟩

theorem exec_watchClose_busy (w : Writer) {j : BitVec 2} (step : W64) (h : (getJob s j).closing ≠ none) : exec (.watchClose w j step) s
    = .next { modJob s j fun x => { x with regs := { x.regs with closeStatus := x.regs.closeStatus ||| 4 } } with status := 0 } := by
  change Host.Outcome.next (setStatus (watchClose s j step) stOk) = _
  rw [watchClose, if_pos (Option.isSome_iff_ne_none.mpr h)]
  rfl

theorem setFld_low_mod (x : W32) : (setFld x 0 2 2).toNat % 4 = 2 := by
  have h : (setFld x 0 2 2).setWidth 2 = 2 := by
    ext i hi
    interval_cases i <;> simp [setFld, merge, maskAt]
  simpa using congrArg BitVec.toNat h

/-- A job whose close has failed: no close, WATCH.CLOSE_STATUS FAILED, and what the peers exchanged for it is left behind. -/
def closeFailed (s : State) (j : BitVec 2) (step : W64) : State :=
  dropExchanged (setClose (modJob s j fun x => { x with closing := none }) j 2) j step

theorem getJob_closeFailed (s : State) (j : BitVec 2) (step : W64) : getJob (closeFailed s j step) j
    = { getJob s j with closing := none, regs := { (getJob s j).regs with closeStatus := setFld (getJob s j).regs.closeStatus 0 2 2 } } := by
  refine (getJob_setClose ..).trans ?_
  rw [getJob_modJob, if_pos rfl]

theorem exec_watchPeerTimeout_due {j : BitVec 2} {c : Close} (hc : (getJob s j).closing = some c)
    (ht : c.since.toNat + 10000000 ≤ now s) (hm : peersMissing s j c.step ≠ []) :
    ∃ e : Err, e.sev ≠ 3 ∧ exec (.watchPeerTimeout j) s = .next (settleImage (putErr (closeFailed s j c.step) e) j) := by
  have hdue : (decide (c.since.toNat + 10000000 ≤ now s) && !(peersMissing s j c.step).isEmpty) = true := by simp [ht, hm]
  change ∃ e : Err, e.sev ≠ 3 ∧ execWatchPeerTimeout j s = _
  rw [execWatchPeerTimeout, hc]
  refine ⟨_, ?_, congrArg _ (if_pos hdue)⟩
  simp

/-- 10 ms after it began, a close that a peer has not answered fails, and changes no entry. -/
theorem exec_watchPeerTimeout_fails {j : BitVec 2} {c : Close} (hc : (getJob s j).closing = some c) (hi : (getJob s j).imageWait = none)
    (ht : c.since.toNat + 10000000 ≤ now s) (hm : peersMissing s j c.step ≠ []) : Goes (exec (.watchPeerTimeout j) s) fun t =>
      (getJob t j).closing = none ∧ (getJob t j).regs.closeStatus.toNat % 4 = 2 ∧ t.watches = s.watches := by
  obtain ⟨e, he, hexec⟩ := exec_watchPeerTimeout_due hc ht hm
  have hk := KeepsWatch.err (closeFailed s j c.step) he
  refine ⟨_, hexec, ?_⟩
  dsimp only
  rw [settleImage_idle (by rw [hk.imageWait, getJob_closeFailed]; exact hi), hk.closing, hk.closeStatus, getJob_closeFailed]
  exact ⟨rfl, setFld_low_mod _, hk.watches⟩

theorem exec_watchPeerTimeout_waits {j : BitVec 2} {c : Close} (hc : (getJob s j).closing = some c)
    (h : now s < c.since.toNat + 10000000 ∨ peersMissing s j c.step = []) : exec (.watchPeerTimeout j) s = .next s := by
  have hn : ¬ (decide (c.since.toNat + 10000000 ≤ now s) && !(peersMissing s j c.step).isEmpty) = true := by
    obtain h | h := h
    · simp [Nat.not_le.mpr h]
    · simp [h]
  change execWatchPeerTimeout j s = _
  rw [execWatchPeerTimeout, hc]
  exact congrArg _ (if_neg hn)

end close

/-! ## The watch image (R540) -/

section image
variable {s : State} (w : Writer) {j : BitVec 2} {bs : List Byte}

theorem exec_watchImageWrite : exec (.watchImageWrite w j bs) s = .next (setStatus (writeImage s j bs).1 (writeImage s j bs).2) := rfl

theorem writeImage_waits (hc : (getJob s j).closing ≠ none) (hi : (getJob s j).imageWait = none) :
    writeImage s j bs = (modJob s j fun x => { x with imageWait := some bs }, stOk) := by
  rw [writeImage, if_pos (Option.isSome_iff_ne_none.mpr hc), hi]
  rfl

theorem writeImage_now (hc : (getJob s j).closing = none) : writeImage s j bs = applyImage s j bs := by
  rw [writeImage, hc]
  rfl

theorem applyImage_wrongState (h1 : (getJob s j).st ≠ .paused) (h2 : (getJob s j).st ≠ .unloaded) (h3 : (getJob s j).st ≠ .saved) :
    applyImage s j bs = (s, stJobState) := if_pos ⟨h1, h2, h3⟩

theorem applyImage_stopped (h : (getJob s j).st = .paused ∨ (getJob s j).st = .unloaded ∨ (getJob s j).st = .saved) :
    (imageSplit j bs = none → applyImage s j bs = (s, stInvalid))
    ∧ ∀ es ls, imageSplit j bs = some (es, ls) → applyImage s j bs = (ls.foldl restoreLoss (es.foldl restoreWatch s), stOk) := by
  have hn : ¬ ((getJob s j).st ≠ .paused ∧ (getJob s j).st ≠ .unloaded ∧ (getJob s j).st ≠ .saved) := by tauto
  refine ⟨fun hs => ?_, fun es ls hs => ?_⟩
  · rw [applyImage, if_neg hn, hs]
  · rw [applyImage, if_neg hn, hs]

theorem getWatch_restoreWatch (s : State) (r : BitVec 768) : getWatch (restoreWatch s r) (fld r 156 12)
    = { cfg := fld r 288 32 &&& watchCfgMask, pendCfg := none, openStep := fld r 704 64, exp := fld r 176 16, history := fld r 320 256,
        satAlarm := fld r 256 32, satTotal := fld r 640 64, satLast := fld r 224 32, zeroStreak := fld r 192 32, lateCount := fld r 576 64,
        flags := fld r 168 8 &&& 0x3F } :=
  (getWatch_putWatch ..).trans (if_pos rfl)

end image

/-! ## The statement -/

/-- Settles O34: writes of a configuration, reports, closes and their time limit, and the watch image. -/
theorem watchConfigurationAndCloses : Obligations.WatchConfigurationAndCloses := by
  refine ⟨fun s w n v m => ⟨exec_watchCfgWrite_invalid w, exec_watchCfgWrite_sets w, ⟨exec_lossCfgWrite_invalid w, fun h => ?loss⟩, fun die r hr => ?report⟩,
    fun s w j step => ⟨?close, exec_watchClose_busy w step, fun c hc hi => ⟨exec_watchPeerTimeout_fails hc hi, exec_watchPeerTimeout_waits hc⟩,
      fun bs => ⟨fun hc hi => ?waits, fun hc h1 h2 h3 => ?state, fun hc h => ⟨fun hs => ?bad, fun r hs => ?image⟩⟩⟩⟩
  case loss => exact ⟨_, exec_lossCfgWrite_ok w h, rfl, (getLoss_putLoss ..).trans (if_pos rfl)⟩
  case report =>
    obtain rfl : r.die = die := by simpa using List.find?_some hr
    rw [exec_watchReportMerge_oldest hr]
    exact ⟨mergeReport_takeReport_open, mergeReport_takeReport_late⟩
  case close =>
    intro hj hi n wd sg hc e hn hp hf
    exact exec_watchClose_single w hj hi hc hn hp hf
  case waits =>
    rw [exec_watchImageWrite, writeImage_waits hc hi]
    rfl
  case state =>
    rw [exec_watchImageWrite, writeImage_now hc, applyImage_wrongState h1 h2 h3]
    rfl
  case bad =>
    rw [exec_watchImageWrite, writeImage_now hc, (applyImage_stopped h).1 hs]
    rfl
  case image =>
    rw [exec_watchImageWrite, writeImage_now hc, (applyImage_stopped h).2 _ _ hs]
    have hw : getWatch (setStatus (restoreWatch s r) stOk) (r.extractLsb' 156 12) = _ := getWatch_restoreWatch s r
    refine ⟨setStatus (restoreWatch s r) stOk, rfl, rfl, ?_⟩
    rw [hw]
    exact ⟨rfl, rfl, rfl, rfl, rfl, rfl⟩

end Sys2Proof.Machine
end

section
/-!
PROOFS of the statements of the family '06_tile_core_and_instructions.md': the scalar classes ALU, ALUI and BR, the bundle and its fetch.
-/
namespace Sys2Proof.Machine
open Sys2Proof

/-! ## Fields of operands -/

theorem fldN_low6 (b : W64) : fldN b 0 6 = b.toNat % 64 := by simp [fldN_eq_div_mod]

theorem fldN_mid6 (b : W64) : fldN b 6 6 = b.toNat / 64 % 64 := by simp [fldN_eq_div_mod]

theorem fld_zero_eq_setWidth {w : Nat} (x : BitVec w) (n : Nat) : fld x 0 n = x.setWidth n :=
  BitVec.eq_of_toNat_eq (by simp [fld])

/-! ## Results of the ALU (R145) -/

theorem aluOp_some {op : BitVec 6} (h : op.toNat ≤ 0x12) (a b d : W64) : ∃ v, aluOp op a b d = some v := by
  interval_cases hn : op.toNat <;> simp [aluOp, hn]

theorem aluOp_none {op : BitVec 6} (h : 0x12 < op.toNat) (a b d : W64) : aluOp op a b d = none := by
  unfold aluOp
  split
  case h_20 => rfl
  all_goals omega

theorem aluCmp_some {op : BitVec 6} (h : 0x20 ≤ op.toNat ∧ op.toNat ≤ 0x25) (a b : W64) : ∃ v, aluCmp op a b = some v := by
  obtain ⟨h1, h2⟩ := h
  interval_cases hn : op.toNat <;> simp [aluCmp, hn]

theorem aluCmp_none {op : BitVec 6} (h : op.toNat < 0x20 ∨ 0x25 < op.toNat) (a b : W64) : aluCmp op a b = none := by
  unfold aluCmp
  split
  case h_7 => rfl
  all_goals omega

theorem clz64_eq (a : W64) : BitVec.ofNat 64 (clz64 a) = if a = 0 then 64 else BitVec.ofNat 64 (63 - Nat.log2 a.toNat) := by
  by_cases h : a = 0
  · simp [h, clz64, bitlen]
  · have hn : a.toNat ≠ 0 := fun h0 => h (BitVec.eq_of_toNat_eq h0)
    rw [if_neg h, clz64, bitlen, if_neg hn]
    congr 1
    omega

theorem aluExt_getLsbD (a b : W64) {k : Nat} (hk : k < 64) :
    (aluExt a b).getLsbD k = (decide (k ≤ b.toNat / 64 % 64) && a.getLsbD (b.toNat % 64 + k)) := by
  simp only [aluExt, fieldWidth, fldN_low6, fldN_mid6, BitVec.getLsbD_and, BitVec.getLsbD_ushiftRight, BitVec.getLsbD_ofNat, Nat.testBit_two_pow_sub_one,
    hk, decide_true, Bool.true_and, Nat.lt_succ_iff]
  exact Bool.and_comm _ _

theorem aluDep_getLsbD (a b d : W64) {k : Nat} (hk : k < 64) :
    (aluDep a b d).getLsbD k = if b.toNat % 64 ≤ k ∧ k ≤ b.toNat % 64 + b.toNat / 64 % 64 then a.getLsbD (k - b.toNat % 64) else d.getLsbD k := by
  simp only [aluDep, merge, fieldWidth, fldN_low6, fldN_mid6, BitVec.getLsbD_or, BitVec.getLsbD_and, BitVec.getLsbD_not, BitVec.getLsbD_ofNat,
    BitVec.getLsbD_shiftLeft, Nat.testBit_mul_two_pow, Nat.testBit_two_pow_sub_one, hk, decide_true, Bool.true_and]
  by_cases h1 : b.toNat % 64 ≤ k
  · by_cases h2 : k ≤ b.toNat % 64 + b.toNat / 64 % 64
    · have h3 : k - b.toNat % 64 < b.toNat / 64 % 64 + 1 := by omega
      have h4 : ¬ k < b.toNat % 64 := by omega
      simp [h1, h2, h3, h4]
    · have h3 : ¬ k - b.toNat % 64 < b.toNat / 64 % 64 + 1 := by omega
      simp [h1, h2, h3]
  · simp [h1]

/-! ## Slots of the ALU (R145, R146) -/

section alu
variable {s : State} {h : SlotHdr} {j : BitVec 2} {i : Instr} {op : BitVec 6} {gD gA gB : BitVec 5}
variable (hi : canIssue s h j = true)
include hi

/-- A write of pD, or ILLEGAL_OP where GD names no predicate. -/
theorem slotCmd_pred {o : SlotOp} {v : Bool} (hw : isWaitOp o = false)
    (hr : evalSlot s h.tile j (ctxOf s h.tile j) h.eng false false (slotOf h o) = predRes gD v) :
    slotCmd h o s = .next (if gD.toNat < 8 then advance s h j fun c => setP c (gD.setWidth 3) v else stopped s h j cIllegalOp 0) := by
  have hf : fldN gD 3 2 = gD.toNat / 8 % 4 := by simp [fldN_eq_div_mod]
  by_cases hd : gD.toNat < 8
  · rw [if_pos hd, ← fld_zero_eq_setWidth]
    exact slotCmd_pW hi hw (hr.trans (if_neg (by omega)))
  · rw [if_neg hd]
    exact slotCmd_excRes hi (hr.trans (if_pos (by omega)))

theorem exec_alu_op {v : W64} (hc : coreSlot i = some (h, .alu op gD gA gB))
    (hv : aluOp op (getG (ctxOf s h.tile j) gA) (getG (ctxOf s h.tile j) gB) (getG (ctxOf s h.tile j) gD) = some v) :
    exec i s = .next (advance s h j fun c => setG c gD v) := by
  rw [exec_coreSlot hc]
  exact slotCmd_gW hi rfl ((evalSlot_own hi rfl).trans (by simp only [evalAlu, hv]))

theorem exec_alu_cmp {v : Bool} (hc : coreSlot i = some (h, .alu op gD gA gB)) (ho : 0x12 < op.toNat)
    (hv : aluCmp op (getG (ctxOf s h.tile j) gA) (getG (ctxOf s h.tile j) gB) = some v) :
    exec i s = .next (if gD.toNat < 8 then advance s h j fun c => setP c (gD.setWidth 3) v else stopped s h j cIllegalOp 0) := by
  rw [exec_coreSlot hc]
  exact slotCmd_pred hi rfl ((evalSlot_own hi rfl).trans (by simp only [evalAlu, aluOp_none ho, hv]))

theorem exec_alu_pred {v : Bool} (hc : coreSlot i = some (h, .alu op gD gA gB)) (ho : 0x25 < op.toNat)
    (hv : aluPred op (getP (ctxOf s h.tile j) (gA.setWidth 3)) (getP (ctxOf s h.tile j) (gB.setWidth 3)) = some v) :
    exec i s = .next (if gD.toNat < 8 then advance s h j fun c => setP c (gD.setWidth 3) v else stopped s h j cIllegalOp 0) := by
  rw [exec_coreSlot hc]
  refine slotCmd_pred hi rfl ((evalSlot_own hi rfl).trans ?_)
  simp only [evalAlu, aluOp_none (show 0x12 < op.toNat by omega), aluCmp_none (.inr ho), fld_zero_eq_setWidth, hv]

end alu

/-- Settles O2: each operation is its row of aluOp, aluCmp or aluPred. -/
theorem aluResults : Obligations.AluResults := by
  constructor
  · intro s h j gD gA gB hi c a b n gives
    have hn : fldN b 0 6 = n := fldN_low6 b
    refine ⟨exec_alu_op hi rfl rfl, exec_alu_op hi rfl rfl, exec_alu_op hi rfl rfl, exec_alu_op hi rfl rfl, exec_alu_op hi rfl rfl,
      exec_alu_op hi rfl ?_, exec_alu_op hi rfl ?_, exec_alu_op hi rfl ?_, exec_alu_op hi rfl rfl, exec_alu_op hi rfl rfl, exec_alu_op hi rfl rfl,
      exec_alu_op hi rfl ?_, exec_alu_op hi rfl ?_, exec_alu_op hi rfl ?_, exec_alu_op hi rfl ?_, exec_alu_op hi rfl ?_, exec_alu_op hi rfl ?_,
      ⟨aluExt a b, exec_alu_op hi rfl rfl, fun k hk => aluExt_getLsbD a b hk⟩,
      ⟨aluDep a b (getG c gD), exec_alu_op hi rfl rfl, fun k hk => aluDep_getLsbD a b _ hk⟩⟩
    case refine_1 => exact congrArg (fun m => some (a <<< m)) hn
    case refine_2 => exact congrArg (fun m => some (a >>> m)) hn
    case refine_3 => exact congrArg (fun m => some (a.sshiftRight m)) hn
    case refine_4 | refine_5 => simp [aluOp, BitVec.slt, a, b, c]
    case refine_6 | refine_7 => simp [aluOp, BitVec.ult, a, b, c]
    case refine_8 => exact congrArg some (clz64_eq a)
    case refine_9 => exact congrArg (fun m => some (BitVec.ofNat 64 m)) List.countP_eq_length_filter.symm
  · intro s h j gD gA gB hi c a b p q gives
    refine ⟨exec_alu_cmp hi rfl (by decide) ?_, exec_alu_cmp hi rfl (by decide) ?_, exec_alu_cmp hi rfl (by decide) ?_, exec_alu_cmp hi rfl (by decide) ?_,
      exec_alu_cmp hi rfl (by decide) ?_, exec_alu_cmp hi rfl (by decide) ?_, exec_alu_pred hi rfl (by decide) rfl, exec_alu_pred hi rfl (by decide) rfl,
      exec_alu_pred hi rfl (by decide) rfl, exec_alu_pred hi rfl (by decide) rfl⟩
    case refine_1 | refine_2 => simp [aluCmp, Bool.beq_eq_decide_eq, bne, a, b, c]
    case refine_3 | refine_4 => rfl
    case refine_5 | refine_6 => simp [aluCmp, BitVec.slt, BitVec.ult, ← decide_not, a, b, c]

/-! ## Immediates (R146) -/

theorem merge_high_word (d : W64) (v : W32) : merge (maskAt 64 32 32) d (v.setWidth 64 <<< 32) = v ++ d.setWidth 32 := by
  apply BitVec.eq_of_getLsbD_eq
  intro i hi
  have hm : (maskAt 64 32 32).getLsbD i = decide (32 ≤ i) := by
    rw [maskAt, BitVec.getLsbD_ofNat, Nat.testBit_mul_two_pow, Nat.testBit_two_pow_sub_one]
    grind
  simp only [merge, BitVec.getLsbD_or, BitVec.getLsbD_and, BitVec.getLsbD_not, hm, BitVec.getLsbD_append, BitVec.getLsbD_shiftLeft, BitVec.getLsbD_setWidth]
  by_cases h : i < 32
  · simp [h, hi]
  · have h' : 32 ≤ i := by omega
    have h2 : i - 32 < 64 := by omega
    simp [h, hi, h', h2]

section alui
variable {s : State} {h : SlotHdr} {j : BitVec 2} {op : BitVec 6} {gD gA : BitVec 5} {imm : W32}
variable (hi : canIssue s h j = true)
include hi

theorem exec_li : exec (.li h gD imm) s = .next (advance s h j fun c => setG c gD (imm.signExtend 64)) := by
  rw [exec_coreSlot rfl]
  exact slotCmd_gW hi rfl (evalSlot_own hi rfl)

theorem exec_lih :
    exec (.lih h gD imm) s = .next (advance s h j fun c => setG c gD (imm ++ (getG (ctxOf s h.tile j) gD).setWidth 32)) := by
  rw [exec_coreSlot rfl, ← merge_high_word]
  exact slotCmd_gW hi rfl (evalSlot_own hi rfl)

theorem exec_alui_op {v : W64} (ho : op.toNat ≤ 0x10)
    (hv : aluOp op (getG (ctxOf s h.tile j) gA) (imm.signExtend 64) (getG (ctxOf s h.tile j) gD) = some v) :
    exec (.aluiOp h op gD gA imm) s = .next (advance s h j fun c => setG c gD v) := by
  rw [exec_coreSlot rfl]
  refine slotCmd_gW hi rfl ((evalSlot_own hi rfl).trans ?_)
  simp only [evalAlui, if_neg (show ¬ op.toNat = 0x30 by omega), if_neg (show ¬ op.toNat = 0x31 by omega), if_pos ho, hv]

theorem exec_alui_cmp {v : Bool} (ho : 0x20 ≤ op.toNat ∧ op.toNat ≤ 0x25) (hv : aluCmp op (getG (ctxOf s h.tile j) gA) (imm.signExtend 64) = some v) :
    exec (.aluiOp h op gD gA imm) s
      = .next (if gD.toNat < 8 then advance s h j fun c => setP c (gD.setWidth 3) v else stopped s h j cIllegalOp 0) := by
  rw [exec_coreSlot rfl]
  refine slotCmd_pred hi rfl ((evalSlot_own hi rfl).trans ?_)
  simp only [evalAlui, if_neg (show ¬ op.toNat = 0x30 by omega), if_neg (show ¬ op.toNat = 0x31 by omega), if_neg (show ¬ op.toNat ≤ 0x10 by omega), hv]

theorem exec_alui_illegal (ho : 0x10 < op.toNat ∧ op.toNat < 0x20 ∨ 0x25 < op.toNat ∧ op.toNat ≠ 0x30 ∧ op.toNat ≠ 0x31) :
    exec (.aluiOp h op gD gA imm) s = .next (stopped s h j cIllegalOp 0) := by
  rw [exec_coreSlot rfl]
  refine slotCmd_excRes hi ((evalSlot_own hi rfl).trans ?_)
  simp only [evalAlui, if_neg (show ¬ op.toNat = 0x30 by omega), if_neg (show ¬ op.toNat = 0x31 by omega), if_neg (show ¬ op.toNat ≤ 0x10 by omega),
    aluCmp_none (show op.toNat < 0x20 ∨ 0x25 < op.toNat by omega)]

end alui

/-- Settles O3: the branches of evalAlui, with aluOp and aluCmp total on the operations it takes. -/
theorem aluImmediate : Obligations.AluImmediate := by
  intro s h j op gD gA imm hi c b
  refine ⟨exec_li hi, exec_lih hi, fun ho => ?_, fun ho => ?_, exec_alui_illegal hi⟩
  · obtain ⟨v, hv⟩ := aluOp_some (show op.toNat ≤ 0x12 by omega) (getG c gA) b (getG c gD)
    exact ⟨v, hv, exec_alui_op hi ho hv⟩
  · obtain ⟨v, hv⟩ := aluCmp_some ho (getG c gA) b
    exact ⟨v, hv, exec_alui_cmp hi ho hv⟩

/-! ## Branches (R147) -/

theorem brTarget_eq (base : W64) (off : W32) : brTarget base off = base + 16 * off.signExtend 64 := by
  have h : off.signExtend 64 <<< 4 = 16 * off.signExtend 64 := by
    rw [BitVec.shiftLeft_eq_mul_twoPow, BitVec.mul_comm]
    rfl
  rw [brTarget, h]

theorem regJump_aligned {base : W64} {off : W32} {r : SlotRes} (h : (base + 16 * off.signExtend 64).toNat % 16 = 0) :
    regJump base off r = { r with target := some (base + 16 * off.signExtend 64) } := by
  rw [regJump, brTarget_eq, fldN_eq_div_mod]
  exact if_neg (by simpa using h)

theorem regJump_misaligned {base : W64} {off : W32} {r : SlotRes} (h : (base + 16 * off.signExtend 64).toNat % 16 ≠ 0) :
    regJump base off r = excRes cMisaligned (base + 16 * off.signExtend 64) := by
  rw [regJump, brTarget_eq, fldN_eq_div_mod]
  exact if_pos (by simpa using h)

section br
variable {s : State} {h : SlotHdr} {j : BitVec 2} {i : Instr} {op : BitVec 6} {gD gA : BitVec 5} {off : W32}
variable (hi : canIssue s h j = true) (he : h.eng = false)
include hi he

theorem evalSlot_br (op : BitVec 6) (gD gA : BitVec 5) (off : W32) :
    evalSlot s h.tile j (ctxOf s h.tile j) h.eng false false (slotOf h (.br op gD gA off)) = evalBr (ctxOf s h.tile j) op gD gA off :=
  evalSlot_own hi (by rw [he]; rfl)

/-- A jump to a register target. -/
theorem exec_jr : let reg := getG (ctxOf s h.tile j) gA + 16 * off.signExtend 64
    exec (.jr h gA off) s = .next (if reg.toNat % 16 = 0 then branch s h j reg id else stopped s h j cMisaligned reg) := by
  intro reg
  rw [exec_coreSlot rfl]
  by_cases hm : reg.toNat % 16 = 0
  · rw [if_pos hm]
    exact slotCmd_jump hi he rfl ((evalSlot_br hi he ..).trans (regJump_aligned hm))
  · rw [if_neg hm]
    exact slotCmd_excRes hi ((evalSlot_br hi he ..).trans (regJump_misaligned hm))

theorem exec_jlr : let c := ctxOf s h.tile j
    let reg := getG c gA + 16 * off.signExtend 64
    exec (.jlr h gD gA off) s
      = .next (if reg.toNat % 16 = 0 then branch s h j reg fun c' => setG c' gD (c.pc + 16) else stopped s h j cMisaligned reg) := by
  intro c reg
  rw [exec_coreSlot rfl]
  by_cases hm : reg.toNat % 16 = 0
  · rw [if_pos hm]
    exact slotCmd_jump_gW hi he rfl ((evalSlot_br hi he ..).trans (regJump_aligned hm))
  · rw [if_neg hm]
    exact slotCmd_excRes hi ((evalSlot_br hi he ..).trans (regJump_misaligned hm))

theorem exec_loop : let c := ctxOf s h.tile j
    let n := getG c gA - 1
    exec (.loop h gD gA off) s
      = .next (if gD ≠ 0 then stopped s h j cIllegalOp 0
               else if n = 0 then advance s h j fun c => setG c gA n
               else branch s h j (c.pc + 16 * off.signExtend 64) fun c => setG c gA n) := by
  intro c n
  have hr : evalSlot s h.tile j c h.eng false false (slotOf h (.br 0x04 gD gA off)) = if gD ≠ 0 then excRes cIllegalOp 0
      else { gW := some (gA, n), target := if n = 0 then none else some (brTarget c.pc off) } := evalSlot_br hi he ..
  rw [exec_coreSlot rfl, ← brTarget_eq]
  by_cases hd : gD ≠ 0
  · rw [if_pos hd]
    exact slotCmd_excRes hi (hr.trans (if_pos hd))
  · rw [if_neg hd] at hr ⊢
    by_cases hn : n = 0
    · rw [if_pos hn] at hr ⊢
      exact slotCmd_gW hi rfl hr
    · rw [if_neg hn] at hr ⊢
      exact slotCmd_jump_gW hi he rfl hr

end br

/-- Settles O4: relative targets, register targets by their alignment, and LOOP by its count. -/
theorem branches : Obligations.Branches := by
  intro s h j gD gA off hi he c rel reg n
  refine ⟨?_, ?_, exec_jr hi he, exec_jlr hi he, exec_loop hi he⟩
  · rw [exec_coreSlot rfl, show rel = brTarget c.pc off from (brTarget_eq ..).symm]
    exact slotCmd_jump hi he rfl (evalSlot_br hi he ..)
  · rw [exec_coreSlot rfl, show rel = brTarget c.pc off from (brTarget_eq ..).symm]
    exact slotCmd_jump_gW hi he rfl (evalSlot_br hi he ..)

/-! ## Fetch (R142) -/

theorem runningCtx_st {x : Tile} {j : BitVec 2} (h : runningCtx x = some j) : (getCtx x j).st = .running := by
  simpa using List.find?_some h

theorem ctxOf_excPrecise_running {s : State} {t : W16} {j : BitVec 2} (h : (ctxOf s t j).st = .running) (eng : Bool) (cause : Byte) (info : W64) :
    ctxOf (excPrecise s t j eng cause info) t j = { ctxOf s t j with
      st := .stopped, excCause := excCauseReg cause true eng, excPc := (ctxOf s t j).pc, excInfo := info, wait := none } := by
  rw [ctxOf_excPrecise, noteExc_running h]

/-- A core's command whose bundle can be looked at fetches it first. -/
theorem slotCmd_fetches {s : State} {h : SlotHdr} {j : BitVec 2} (op : SlotOp) (hp : tilePresent s h.tile = true)
    (hr : runningCtx (getTile s h.tile) = some j) (hw : (ctxOf s h.tile j).wait = none) (hd : switchDue s h.tile j = false) :
    slotCmd h op s = .next (match fetchExc (getTile s h.tile) j (ctxOf s h.tile j).pc with
      | some cause => excPrecise s h.tile j false cause (ctxOf s h.tile j).pc
      | none => runBundle s h.tile j (bundleOf h op).1 (bundleOf h op).2 false false) := by
  have hn : ¬ ((ctxOf s h.tile j).wait.isSome || switchDue s h.tile j) = true := by simp [hw, hd]
  rw [slotCmd, onTile_present hp]
  simp only [issue, hr]
  exact congrArg _ (if_neg hn)

/-- Settles O7: the fetch of the bundle fails before its slots are looked at. -/
theorem fetchOutsideShare : Obligations.FetchOutsideShare := by
  intro s i h op j hc x c hp hr hw hd hs
  have hf : fetchExc x j c.pc = some cFetchRange := by simp only [fetchExc, hs, Bool.not_false, if_true]
  refine ⟨excPrecise s h.tile j false cFetchRange c.pc, ?_, ?_⟩
  · rw [exec_coreSlot hc, slotCmd_fetches op hp hr hw hd, hf]
  · refine (ctxOf_excPrecise_running (runningCtx_st hr) ..).trans ?_
    rw [show none = c.wait from hw.symm]
    rfl

/-! ## Both slots of a bundle (R139, R176) -/

theorem evalSlot_alu (s : State) (t : W16) (j : BitVec 2) {c : Ctx} (eng : Bool) {w : SlotWord} {op : BitVec 6} {gD gA gB : BitVec 5} (hg : guardTrue c w = true)
    (hr : w.rsv = false) (ho : w.op = .alu op gD gA gB) {v : W64} (hv : aluOp op (getG c gA) (getG c gB) (getG c gD) = some v) :
    evalSlot s t j c eng false false w = { gW := some (gD, v) } := by
  simp [evalSlot, hg, hr, ho, classAllowed, evalAlu, hv]

/-- A bundle of two slots that each write one general register and do nothing else. -/
theorem runBundle_twoG {s : State} {t : W16} {j : BitVec 2} {ctl eng : SlotWord} {n m : BitVec 5} {v w : W64}
    (ha : evalSlot s t j (ctxOf s t j) false false false ctl = { gW := some (n, v) })
    (hb : evalSlot s t j (ctxOf s t j) true false false eng = { gW := some (m, w) }) :
    runBundle s t j ctl eng false false = if n = m ∧ n ≠ 0 then excPrecise s t j false cBundleConflict 0
      else retire s t j ctl eng { gW := some (n, v) } { gW := some (m, w) } := by
  have hm : writesMeet { gW := some (n, v) } { gW := some (m, w) } = decide (n = m ∧ n ≠ 0) := by simp [writesMeet]
  rw [ctxOf] at ha hb
  by_cases h : n = m ∧ n ≠ 0
  · simp only [runBundle, ha, hb, bundleExc, hm, decide_eq_true h, if_true, if_pos h]
    rfl
  · simp only [runBundle, ha, hb, bundleExc, hm, decide_eq_false h, if_neg h]
    rfl

/-- Settles O8: each slot's result is computed from the state before the bundle, and the two writes meet or are both made. -/
theorem bothSlotsReadFirst : Obligations.BothSlotsReadFirst := by
  intro s h j gD gA gB gE gF gG pg pn hi he hm c hg
  simp only [canIssue, Bool.and_eq_true, decide_eq_true_eq, Option.isNone_iff_eq_none, Bool.not_eq_true'] at hi
  obtain ⟨⟨⟨⟨⟨⟨⟨hp, hr⟩, hw⟩, hd⟩, hf⟩, hgo⟩, hrsv⟩, -⟩ := hi
  have hb : bundleOf h (.alu 0x00 gD gA gB) = (slotOf h (.alu 0x00 gD gA gB), { pg, pn, rsv := false, op := .alu 0x01 gE gF gG }) := by
    simp only [bundleOf, he, hm]; rfl
  have hg1 : guardTrue c (slotOf h (.alu 0x00 gD gA gB)) = true := hgo
  have hg2 : guardTrue c { pg, pn, rsv := false, op := .alu 0x01 gE gF gG } = true := hg
  have hk : keepsPoint c (slotOf h (.alu 0x00 gD gA gB)) { pg, pn, rsv := false, op := .alu 0x01 gE gF gG } = false := by
    simp only [keepsPoint, hg1]
    rfl
  rw [exec_coreSlot rfl, slotCmd_fetches _ hp hr hw hd, show fetchExc _ j (ctxOf s h.tile j).pc = none from hf, hb]
  simp only
  have ha := evalSlot_alu s h.tile j false hg1 hrsv rfl (v := getG c gA + getG c gB) rfl
  have hb := evalSlot_alu s h.tile j true hg2 rfl rfl (v := getG c gF - getG c gG) rfl
  rw [runBundle_twoG ha hb]
  by_cases hc : gD = gE ∧ gD ≠ 0
  · rw [if_pos hc, if_pos hc, stopped, he]
  · have hk' : keepsPoint (getCtx (getTile s h.tile) j) (slotOf h (.alu 0x00 gD gA gB)) { pg, pn, rsv := false, op := .alu 0x01 gE gF gG } = false := hk
    rw [if_neg hc, if_neg hc]
    simp only [retire, advance, retireCtx, modTile, putStore, putRegs, hk', Bool.and_false, id]

end Sys2Proof.Machine
end

section
/-!
PROOFS of the statements of the family '06_tile_core_and_instructions.md', continued: loads, stores and lane moves of the scalar and the vector classes.
-/
namespace Sys2Proof.Machine
open Sys2Proof

/-! ## What retirement leaves (R134, R140, R143) -/

section advance
variable (s : State) (h : SlotHdr) (j : BitVec 2) (f : Ctx → Ctx)

theorem ctxOf_advance : ctxOf (advance s h j f) h.tile j
    = { f (ctxOf s h.tile j) with pc := (ctxOf s h.tile j).pc + 16, bundles := (ctxOf s h.tile j).bundles + 1, wait := none, switchPt := false } := by
  rw [ctxOf, advance, getTile_modTile]
  exact getCtx_putCtx _ _ _

theorem ctxOf_advance_other {k : BitVec 2} (hk : k ≠ j) : ctxOf (advance s h j f) h.tile k = ctxOf s h.tile k := by
  rw [ctxOf, advance, getTile_modTile]
  exact getCtx_putCtx_other _ _ hk

theorem getTile_advance_other {u : W16} (hu : u ≠ h.tile) : getTile (advance s h j f) u = getTile s u := getTile_putTile_other _ _ hu

/-- A tile's fields beside its contexts and its fetch buffer. -/
theorem getTile_advance : ∃ c r e l, getTile (advance s h j f) h.tile = { getTile s h.tile with ctx := c, readyOrd := r, ctxEcc := e, fetchBuf := l } :=
  ⟨_, _, _, _, getTile_modTile ..⟩

end advance

/-! ## Bytes of a store (R5, R184, R203) -/

theorem toLE_getD (n v : Nat) {i : Nat} (h : i < n) : (toLE n v).getD i 0 = BitVec.ofNat 8 (v / 256 ^ i) := by
  induction n generalizing v i with
  | zero => omega
  | succ n ih =>
    cases i with
    | zero => simp [toLE]
    | succ i => rw [toLE, List.getD_cons_succ, ih _ (by omega), Nat.div_div_eq_div_mul, ← Nat.pow_succ']

theorem spadWrite_good {s : State} {t : W16} {a : Nat} {bs : List Byte} (j : BitVec 2) (h : badMerges (getTile s t) a bs.length = []) :
    spadWrite s t j a bs = putTile s t (spadWriteTile (getTile s t) a bs) := by
  simp only [spadWrite, h, List.foldl_nil]

theorem getTile_spadWrite_other (s : State) {t u : W16} (j : BitVec 2) (a : Nat) (bs : List Byte) (h : u ≠ t) :
    getTile (spadWrite s t j a bs) u = getTile s u := by
  rw [getTile, spadWrite_tiles]
  exact getTile_putTile_other s _ h

section store
variable {s : State} {h : SlotHdr} {j : BitVec 2}

/-- A slot that stores bytes and does nothing else. -/
theorem slotCmd_store {op : SlotOp} {a : Nat} {bs : List Byte} (hi : canIssue s h j = true) (hw : isWaitOp op = false)
    (hr : evalSlot s h.tile j (ctxOf s h.tile j) h.eng false false (slotOf h op) = { store := some (a, bs) }) :
    slotCmd h op s = .next (advance (spadWrite s h.tile j a bs) h j id) :=
  slotCmd_retires hi hw hr rfl rfl fun _ => rfl

/-- A store that retires: its bytes, the other bytes, the contexts, the other tiles, and memory and log where no byte is refused. -/
theorem stored_runs (s : State) (h : SlotHdr) (j : BitVec 2) (a n v : Nat) (hw : (ctxOf s h.tile j).wait = none) :
    let c := ctxOf s h.tile j
    let x := getTile s h.tile
    let t := advance (spadWrite s h.tile j a (toLE n v)) h j id
    (badMerges x a n = [] → ∀ i, i < n → mget 0 (getTile t h.tile).spad (a + i) = BitVec.ofNat 8 (v / 256 ^ i))
    ∧ (∀ b, b < a ∨ a + n ≤ b → mget 0 (getTile t h.tile).spad b = mget 0 x.spad b)
    ∧ getCtx (getTile t h.tile) j = { c with pc := c.pc + 16, bundles := c.bundles + 1, switchPt := false }
    ∧ (∀ k, k ≠ j → getCtx (getTile t h.tile) k = getCtx x k)
    ∧ (badMerges x a n = [] → t.hbm = s.hbm ∧ t.log = s.log)
    ∧ ∀ u, u ≠ h.tile → getTile t u = getTile s u := by
  intro c x t
  have hs : (getTile t h.tile).spad = (spadWriteTile x a (toLE n v)).spad := by
    obtain ⟨_, _, _, _, ht⟩ := getTile_advance (spadWrite s h.tile j a (toLE n v)) h j id
    rw [ht, getTile_spadWrite]
  have hc (k : BitVec 2) : ctxOf (spadWrite s h.tile j a (toLE n v)) h.tile k = ctxOf s h.tile k := by
    rw [ctxOf, getTile_spadWrite, getCtx_spadWriteTile, ctxOf]
  refine ⟨fun hb i hi => ?_, fun b hb => ?_, ?_, fun k hk => ?_, fun hb => ?_, fun u hu => ?_⟩
  · rw [hs, spadWriteTile_byte _ (by rwa [length_toLE]), length_toLE, if_pos (by omega), Nat.add_sub_cancel_left, toLE_getD n v hi]
  · rw [hs, spadWriteTile_outside (by rwa [length_toLE])]
  · refine (ctxOf_advance ..).trans ?_
    rw [hc, show none = c.wait from hw.symm]
    rfl
  · exact (ctxOf_advance_other _ _ _ _ hk).trans (hc k)
  · have := spadWrite_good j (by rwa [length_toLE] : badMerges (getTile s h.tile) a (toLE n v).length = [])
    exact ⟨by rw [show t.hbm = (spadWrite s h.tile j a (toLE n v)).hbm from rfl, this]; rfl,
      by rw [show t.log = (spadWrite s h.tile j a (toLE n v)).log from rfl, this]; rfl⟩
  · exact (getTile_advance_other _ _ _ _ hu).trans (getTile_spadWrite_other _ _ _ _ hu)

end store

/-! ## The check of an access (R148, R155, R190) -/

theorem memCheck_misaligned {x : Tile} {j : BitVec 2} {a : W64} {n : Nat} (h : a.toNat % n ≠ 0) : memCheck x j a n = some (cMisaligned, a) := if_pos h

theorem memCheck_range {x : Tile} {j : BitVec 2} {a : W64} {n : Nat} (h : a.toNat % n = 0) (hs : inShare x j a.toNat n = false) :
    memCheck x j a n = some (cAddrRange, a) := by
  simp [memCheck, h, hs]

theorem memCheck_ok {x : Tile} {j : BitVec 2} {a : W64} {n : Nat} (h : a.toNat % n = 0) (hs : inShare x j a.toNat n = true) : memCheck x j a n = none := by
  simp [memCheck, h, hs]

section check
variable {s : State} {h : SlotHdr} {j : BitVec 2} {i : Instr} {op : SlotOp} {a : W64} {n : Nat}

/-- A command whose slot checks its access first. -/
theorem exec_memCheck_fails (hi : canIssue s h j = true) (hc : coreSlot i = some (h, op))
    (hr : ∀ e, memCheck (getTile s h.tile) j a n = some e →
      evalSlot s h.tile j (ctxOf s h.tile j) h.eng false false (slotOf h op) = { exc := some e }) :
    (a.toNat % n ≠ 0 → exec i s = .next (stopped s h j cMisaligned a))
    ∧ (a.toNat % n = 0 → inShare (getTile s h.tile) j a.toNat n = false → exec i s = .next (stopped s h j cAddrRange a)) := by
  rw [exec_coreSlot hc]
  exact ⟨fun h => slotCmd_excRes hi (hr _ (memCheck_misaligned h)), fun h hs => slotCmd_excRes hi (hr _ (memCheck_range h hs))⟩

/-- A load that passes its check writes a register, or raises SPAD_ECC. -/
theorem exec_loads {f : Ctx → Ctx} {r : SlotRes} (hi : canIssue s h j = true) (hc : coreSlot i = some (h, op)) (hw : isWaitOp op = false)
    (hr : evalSlot s h.tile j (ctxOf s h.tile j) h.eng false false (slotOf h op)
      = if spadBad (getTile s h.tile) a.toNat n then excRes cSpadEcc a else r)
    (hg : (∃ d v, r = { gW := some (d, v) } ∧ f = fun c => setG c d v) ∨ ∃ d v, r = { vW := some (d, v) } ∧ f = fun c => setV c d v) :
    exec i s = .next (if spadBad (getTile s h.tile) a.toNat n then stopped s h j cSpadEcc a else advance s h j f) := by
  rw [exec_coreSlot hc]
  by_cases hb : spadBad (getTile s h.tile) a.toNat n = true
  · rw [if_pos hb] at hr ⊢
    exact slotCmd_excRes hi hr
  · rw [if_neg hb] at hr ⊢
    obtain ⟨d, v, rfl, rfl⟩ | ⟨d, v, rfl, rfl⟩ := hg
    · exact slotCmd_gW hi hw hr
    · exact slotCmd_vW hi hw hr

end check

/-! ## MEM slots (R148) -/

section mem
variable {s : State} {h : SlotHdr} {j : BitVec 2} {i : Instr}
variable {sz : BitVec 2} {gT gA : BitVec 5} {off : W32}
variable (hi : canIssue s h j = true) (he : h.eng = false)
include hi he

theorem evalSlot_ld : evalSlot s h.tile j (ctxOf s h.tile j) h.eng false false (slotOf h (.mem (sz.setWidth 6) gT gA off))
    = evalLoad (getTile s h.tile) j (ctxOf s h.tile j) (2 ^ sz.toNat) true gT gA off := by
  have hz : (sz.setWidth 6).toNat = sz.toNat := by simp; omega
  refine (evalSlot_own hi (by rw [he]; rfl)).trans ?_
  simp only [evalMem, hz, if_pos (show sz.toNat ≤ 3 by omega)]

theorem evalSlot_ldu : evalSlot s h.tile j (ctxOf s h.tile j) h.eng false false (slotOf h (.mem (0x04 + sz.setWidth 6) gT gA off))
    = if sz = 3 then excRes cIllegalOp 0 else evalLoad (getTile s h.tile) j (ctxOf s h.tile j) (2 ^ sz.toNat) false gT gA off := by
  have hz : ((0x04 : BitVec 6) + sz.setWidth 6).toNat = 4 + sz.toNat := by simp; omega
  refine (evalSlot_own hi (by rw [he]; rfl)).trans ?_
  by_cases h3 : sz = 3
  · subst h3; rfl
  · have hs : sz.toNat ≠ 3 := fun hn => h3 (BitVec.eq_of_toNat_eq hn)
    simp only [evalMem, hz, if_neg (show ¬ 4 + sz.toNat ≤ 3 by omega), if_pos (show 4 + sz.toNat ≤ 6 by omega), if_neg h3, Nat.add_sub_cancel_left]

theorem evalSlot_st : evalSlot s h.tile j (ctxOf s h.tile j) h.eng false false (slotOf h (.mem (0x08 + sz.setWidth 6) gT gA off))
    = evalStore (getTile s h.tile) j (ctxOf s h.tile j) (2 ^ sz.toNat) gT gA off := by
  have hz : ((0x08 : BitVec 6) + sz.setWidth 6).toNat = 8 + sz.toNat := by simp; omega
  refine (evalSlot_own hi (by rw [he]; rfl)).trans ?_
  simp only [evalMem, hz, if_neg (show ¬ 8 + sz.toNat ≤ 3 by omega), if_neg (show ¬ 8 + sz.toNat ≤ 6 by omega),
    if_pos (show 8 ≤ 8 + sz.toNat ∧ 8 + sz.toNat ≤ 0xB by omega), Nat.add_sub_cancel_left]

end mem

section load
variable {x : Tile} {j : BitVec 2} {c : Ctx} {n : Nat} {signed : Bool} {gT gA : BitVec 5} {off : W32}

theorem evalLoad_fails {e : Byte × W64} (h : memCheck x j (memAddr c gA off) n = some e) : evalLoad x j c n signed gT gA off = { exc := some e } := by
  simp only [evalLoad, h]

theorem evalLoad_ok (h : memCheck x j (memAddr c gA off) n = none) : evalLoad x j c n signed gT gA off
    = let a := memAddr c gA off
      let v := leNat (spadRead x a.toNat n)
      if spadBad x a.toNat n then excRes cSpadEcc a
      else { gW := some (gT, if signed then BitVec.ofInt 64 (sgn (8 * n) v) else BitVec.ofNat 64 v) } := by
  simp only [evalLoad, h]

theorem evalStore_fails {e : Byte × W64} (h : memCheck x j (memAddr c gA off) n = some e) : evalStore x j c n gT gA off = { exc := some e } := by
  simp only [evalStore, h]

theorem evalStore_ok (h : memCheck x j (memAddr c gA off) n = none) :
    evalStore x j c n gT gA off = { store := some ((memAddr c gA off).toNat, toLE n (getG c gT).toNat) } := by
  simp only [evalStore, h]

end load

theorem wait_of_canIssue {s : State} {h : SlotHdr} {j : BitVec 2} (hi : canIssue s h j = true) : (ctxOf s h.tile j).wait = none := by
  simp only [canIssue, Bool.and_eq_true, Option.isNone_iff_eq_none] at hi
  obtain ⟨⟨⟨⟨⟨⟨-, hw⟩, -⟩, -⟩, -⟩, -⟩, -⟩ := hi
  exact hw

/-- Settles O5: the check of the access, then the load's value or the store's bytes. -/
theorem scalarMemory : Obligations.ScalarMemory := by
  intro s h j sz gT gA off hi he x c a n v fails ok
  have hld := evalSlot_ld (sz := sz) (gT := gT) (gA := gA) (off := off) hi he
  have hldu := evalSlot_ldu (sz := sz) (gT := gT) (gA := gA) (off := off) hi he
  have hst := evalSlot_st (sz := sz) (gT := gT) (gA := gA) (off := off) hi he
  refine ⟨exec_memCheck_fails hi rfl fun e hm => hld.trans (evalLoad_fails hm), exec_memCheck_fails hi rfl fun e hm => hst.trans (evalStore_fails hm),
    fun hok => ?_, fun h3 => ⟨?_, fun hok => ?_⟩, fun h3 => ?_, fun hok => ⟨_, ?_, stored_runs s h j a.toNat n (getG c gT).toNat (wait_of_canIssue hi)⟩⟩
  · exact exec_loads hi rfl rfl (hld.trans (evalLoad_ok (memCheck_ok hok.1 hok.2))) (.inl ⟨_, _, rfl, rfl⟩)
  · rw [if_neg h3] at hldu
    exact exec_memCheck_fails hi rfl fun e hm => hldu.trans (evalLoad_fails hm)
  · rw [if_neg h3] at hldu
    exact exec_loads hi rfl rfl (hldu.trans (evalLoad_ok (memCheck_ok hok.1 hok.2))) (.inl ⟨_, _, rfl, rfl⟩)
  · rw [if_pos h3] at hldu
    rw [exec_coreSlot rfl]
    exact slotCmd_excRes hi hldu
  · rw [exec_coreSlot rfl]
    exact slotCmd_store hi rfl (hst.trans (evalStore_ok (memCheck_ok hok.1 hok.2)))

/-! ## Fields written into a register (R154, R155) -/

theorem getLsbD_maskAt (w lo n i : Nat) : (maskAt w lo n).getLsbD i = (decide (i < w) && (decide (lo ≤ i) && decide (i < lo + n))) := by
  rw [maskAt, BitVec.getLsbD_ofNat, Nat.testBit_mul_two_pow, Nat.testBit_two_pow_sub_one]
  congr 1
  by_cases h : lo ≤ i
  · have : i - lo < n ↔ i < lo + n := by omega
    simp [h, this]
  · simp [h]

theorem getLsbD_setFld {w : Nat} (x : BitVec w) (lo n v i : Nat) (hi : i < w) :
    (setFld x lo n v).getLsbD i = if lo ≤ i ∧ i < lo + n then v.testBit (i - lo) else x.getLsbD i := by
  simp only [setFld, merge, BitVec.getLsbD_or, BitVec.getLsbD_and, BitVec.getLsbD_not, getLsbD_maskAt, BitVec.getLsbD_ofNat, Nat.testBit_mul_two_pow,
    Nat.testBit_mod_two_pow, hi, decide_true, Bool.true_and]
  by_cases h1 : lo ≤ i
  · by_cases h2 : i < lo + n
    · have h3 : i - lo < n := by omega
      simp [h1, h2, h3]
    · simp [h1, h2]
  · simp [h1]

theorem testBit_laneAt (lw : BitVec 2) (v : BitVec 512) (k i : Nat) :
    (laneAt lw v k).testBit i = (decide (i < laneBits lw) && v.getLsbD (k * laneBits lw + i)) := by
  rw [laneAt, fldN, BitVec.testBit_toNat, BitVec.getLsbD_extractLsb']

/-- A lane that is replaced, and every other lane. -/
theorem laneAt_putLane (lw : BitVec 2) (v : BitVec 512) (m : Nat) {i k : Nat} (hk : k < laneCount lw) :
    laneAt lw (putLane lw v i m) k = if k = i then m % 2 ^ laneBits lw else laneAt lw v k := by
  have hw := laneBits_pos lw
  have hfit : (k + 1) * laneBits lw ≤ 512 := by rw [← laneCount_mul lw]; exact Nat.mul_le_mul_right _ hk
  rw [Nat.succ_mul] at hfit
  apply Nat.eq_of_testBit_eq
  intro b
  rw [testBit_laneAt]
  by_cases hb : b < laneBits lw
  · rw [putLane, getLsbD_setFld _ _ _ _ _ (by omega)]
    by_cases hki : k = i
    · subst hki
      simp [hb]
    · have ho : ¬ (i * laneBits lw ≤ k * laneBits lw + b ∧ k * laneBits lw + b < i * laneBits lw + laneBits lw) := by
        rintro ⟨h1, h2⟩
        have h3 : i < k + 1 := Nat.lt_of_mul_lt_mul_right (a := laneBits lw) (by rw [Nat.succ_mul]; omega)
        have h4 : k < i + 1 := Nat.lt_of_mul_lt_mul_right (a := laneBits lw) (by rw [Nat.succ_mul]; omega)
        omega
      rw [if_neg ho, if_neg hki, testBit_laneAt]
  · split
    · simp [hb]
    · simp [hb, testBit_laneAt]

/-! ## VMEM slots (R155) -/

section vmem
variable {s : State} {h : SlotHdr} {j : BitVec 2} {i : Instr} {op : BitVec 6} {v : BitVec 4} {gA : BitVec 5} {lw : BitVec 2} {lane : BitVec 6} {off : W32}
variable (hi : canIssue s h j = true) (he : h.eng = true)
include hi he

theorem evalSlot_vmem : evalSlot s h.tile j (ctxOf s h.tile j) h.eng false false (slotOf h (.vmem op v gA lw lane off))
    = evalVmem (getTile s h.tile) j (ctxOf s h.tile j) op v gA lw lane off :=
  evalSlot_own hi (by rw [he]; rfl)

/-- A lane move, of a lane that the register has or has not. -/
theorem exec_laneMove {r : SlotRes} {p : Prop} (hc : coreSlot i = some (h, .vmem op v gA lw lane 0))
    (hr : evalVmem (getTile s h.tile) j (ctxOf s h.tile j) op v gA lw lane 0 = laneMove lw lane 0 r)
    (hp : evalSlot s h.tile j (ctxOf s h.tile j) h.eng false false (slotOf h (.vmem op v gA lw lane 0)) = r → p) :
    if laneCount lw ≤ lane.toNat then exec i s = .next (stopped s h j cIllegalOp 0) else p := by
  have hs := (evalSlot_vmem hi he).trans hr
  by_cases hl : laneCount lw ≤ lane.toNat
  · rw [if_pos hl, exec_coreSlot hc]
    exact slotCmd_excRes hi (hs.trans (if_pos (.inl hl)))
  · rw [if_neg hl]
    exact hp (hs.trans (if_neg (by simp [hl])))

end vmem

section
variable {x : Tile} {j : BitVec 2} {c : Ctx} {op : BitVec 6} {v : BitVec 4} {gA : BitVec 5} {lw : BitVec 2} {lane : BitVec 6} {off : W32}

theorem evalVmem_checkFails {e : Byte × W64} (ho : op = 0x00 ∨ op = 0x01) (h : memCheck x j (memAddr c gA off) 64 = some e) :
    evalVmem x j c op v gA lw lane off = { exc := some e } := by
  obtain rfl | rfl := ho <;> simp [evalVmem, vmemCheck, h]

theorem evalVmem_load (h : memCheck x j (memAddr c gA off) 64 = none) : evalVmem x j c 0x00 v gA lw lane off
    = let a := memAddr c gA off
      if spadBad x a.toNat 64 then excRes cSpadEcc a else { vW := some (v, BitVec.ofNat 512 (leNat (spadRead x a.toNat 64))) } := by
  simp [evalVmem, vmemCheck, h]

theorem evalVmem_store (h : memCheck x j (memAddr c gA off) 64 = none) : evalVmem x j c 0x01 v gA lw lane off
    = { store := some ((memAddr c gA off).toNat, toLE 64 (getV c v).toNat) } := by
  simp [evalVmem, vmemCheck, h]

end

theorem extractLsb'_byte (v : BitVec 512) (i : Nat) : v.extractLsb' (8 * i) 8 = BitVec.ofNat 8 (v.toNat / 256 ^ i) := by
  rw [show (256 : Nat) = 2 ^ 8 from rfl, ← Nat.pow_mul]
  exact BitVec.eq_of_toNat_eq (by simp [Nat.shiftRight_eq_div_pow])

/-- Settles O10: the check of the access and of the lane, then what is loaded, stored or moved. -/
theorem vectorMemory : Obligations.VectorMemory := by
  intro s h j v gA off lw lane hi he x c a n w old check lanes
  refine ⟨?_, ?_, exec_laneMove hi he rfl rfl fun hr => ?_, exec_laneMove hi he rfl rfl fun hr => ?_, exec_laneMove hi he rfl rfl fun hr => ?_,
    exec_laneMove hi he rfl rfl fun hr => ?_⟩
  · have hs := evalSlot_vmem (op := 0x00) (v := v) (gA := gA) (lw := 0) (lane := 0) (off := off) hi he
    obtain ⟨h1, h2⟩ := exec_memCheck_fails (i := .vld h v gA off) hi rfl fun e hm => hs.trans (evalVmem_checkFails (.inl rfl) hm)
    exact ⟨h1, h2, fun ha hin => exec_loads hi rfl rfl (hs.trans (evalVmem_load (memCheck_ok ha hin))) (.inr ⟨_, _, rfl, rfl⟩)⟩
  · have hs := evalSlot_vmem (op := 0x01) (v := v) (gA := gA) (lw := 0) (lane := 0) (off := off) hi he
    obtain ⟨h1, h2⟩ := exec_memCheck_fails (i := .vst h v gA off) hi rfl fun e hm => hs.trans (evalVmem_checkFails (.inr rfl) hm)
    refine ⟨h1, h2, fun ha hin => ?_⟩
    obtain ⟨hbytes, hrest, hctx, -, hlog, hothers⟩ := stored_runs s h j a.toNat 64 (getV c v).toNat (wait_of_canIssue hi)
    refine ⟨_, ?_, fun hb => ⟨(hlog hb).1, fun i hi => ?_⟩, hrest, hctx, hothers⟩
    · rw [exec_coreSlot rfl]
      exact slotCmd_store hi rfl (hs.trans (evalVmem_store (memCheck_ok ha hin)))
    · rw [extractLsb'_byte]
      exact hbytes hb i hi
  · rw [exec_coreSlot rfl]
    exact slotCmd_gW hi rfl hr
  · rw [exec_coreSlot rfl]
    exact slotCmd_gW hi rfl hr
  · refine ⟨putLane lw (getV c v) lane.toNat (getG c gA).toNat, ?_, fun k hk => laneAt_putLane lw _ _ hk⟩
    rw [exec_coreSlot rfl]
    exact slotCmd_vW hi rfl hr
  · refine ⟨packLanes lw (List.replicate (laneCount lw) ((getG c gA).toNat % 2 ^ laneBits lw)), ?_, fun k hk => ?_⟩
    · rw [exec_coreSlot rfl]
      exact slotCmd_vW hi rfl hr
    · rw [laneAt_packLanes lw _ k (by simpa using hk) (by simp), List.getElem_replicate, Nat.mod_mod]

end Sys2Proof.Machine
end

section
/-!
PROOFS of the statements of the family '06_tile_core_and_instructions.md', continued: the class SYS.
-/
namespace Sys2Proof.Machine
open Sys2Proof

/-! ## Slots that may not stand in the engine slot (R138) -/

theorem guard_of_canIssue {s : State} {h : SlotHdr} {j : BitVec 2} (hi : canIssue s h j = true) (op : SlotOp) :
    guardTrue (ctxOf s h.tile j) (slotOf h op) = true := by
  simp only [canIssue, Bool.and_eq_true] at hi
  obtain ⟨⟨⟨-, hg⟩, -⟩, -⟩ := hi
  exact hg

theorem evalSlot_refused {s : State} {h : SlotHdr} {j : BitVec 2} {op : SlotOp} (hi : canIssue s h j = true) (hc : classAllowed h.eng op = false) :
    evalSlot s h.tile j (ctxOf s h.tile j) h.eng false false (slotOf h op) = excRes cIllegalOp 0 := by
  have ho : (slotOf h op).op = op := rfl
  simp [evalSlot, guard_of_canIssue hi op, ho, hc]

/-! ## Control and status registers (R150, R152, R153) -/

/-- The registers that R150 lists but TILE.BANK_CONFLICTS, by index, with their values. -/
def csrTable (s : State) (t : W16) (j : BitVec 2) : List (Nat × W64) :=
  let x := getTile s t
  let c := ctxOf s t j
  [(0x000, t.setWidth 64), (0x001, x.regs.ctxReg.setWidth 64), (0x002, 0x80000), (0x010, (tileHalf s t).cycles),
    (0x011, c.bundles), (0x020, c.rngSeed), (0x021, c.rngStep), (0x022, c.rngOp.setWidth 64), (0x023, c.watchStep), (0x024, c.waitLimit.setWidth 64),
    (0x030, x.regs.pressCtrl.setWidth 64), (0x031, (pressStatusReg x).setWidth 64), (0x032, x.regs.residueCount), (0x038, x.regs.cvtStatus.setWidth 64),
    (0x039, x.regs.satCount), (0x040, x.regs.wideOwner.setWidth 64), (0x041, (wideStatusReg x).setWidth 64), (0x060, c.excCause.setWidth 64), (0x061, c.excPc),
    (0x062, c.excInfo)]

section csr
variable (s : State) (t : W16) (j : BitVec 2) {n : BitVec 12}

theorem csrRead_of_mem : ∀ e ∈ csrTable s t j, n.toNat = e.1 → csrRead s t j n = some e.2 := by
  simp only [csrTable, List.forall_mem_cons, List.not_mem_nil, false_imp_iff, implies_true, and_true]
  refine ⟨?_, ?_, ?_, ?_, ?_, ?_, ?_, ?_, ?_, ?_, ?_, ?_, ?_, ?_, ?_, ?_, ?_, ?_, ?_, ?_⟩ <;> (intro hn; simp [csrRead, hn, ctxOf, spadBytes])

theorem csrRead_conflicts (h : n.toNat = 0x050) : csrRead s t j n = some ((getTile s t).regs.bankConflicts + Config.freeWord s.freeCtr) := by
  simp only [csrRead, h]

theorem csrRead_unlisted (h5 : n.toNat ≠ 0x050) (h : ∀ e ∈ csrTable s t j, n.toNat ≠ e.1) : csrRead s t j n = none := by
  simp only [csrTable, List.forall_mem_cons, List.not_mem_nil, false_imp_iff, implies_true, and_true] at h
  unfold csrRead
  split
  case h_22 => rfl
  all_goals simp_all

theorem csrTable_ne_conflicts : ∀ e ∈ csrTable s t j, e.1 ≠ 0x050 := by simp [csrTable]

end csr

/-- The registers that CSRW writes but TILE.WIDE_OWNER, by index, with what a write of v does. -/
def csrWrites (t : W16) (j : BitVec 2) (v : W64) : List (Nat × (State → State)) :=
  let v32 : W32 := v.setWidth 32
  let ctx (f : Ctx → Ctx) : State → State := fun s => modCtx s t j f
  let regs (f : TileRegs → TileRegs) : State → State := fun s => modTile s t fun x => { x with regs := f x.regs }
  [(0x020, ctx fun c => { c with rngSeed := v }), (0x021, ctx fun c => { c with rngStep := v, rngOp := 0 }),
    (0x022, ctx fun c => { c with rngOp := v32 }), (0x023, ctx fun c => { c with watchStep := v }), (0x024, ctx fun c => { c with waitLimit := v32 }),
    (0x031, regs fun r => { r with pressStatus := r.pressStatus &&& ~~~(v32 &&& 0x1E) }), (0x038, regs fun r => { r with cvtStatus := r.cvtStatus &&& ~~~(v32 &&& 0x3E) }),
    (0x041, regs fun r => { r with wideStatus := r.wideStatus &&& ~~~(v32 &&& 0x0E) })]

theorem csrWrite_of_mem (t : W16) (j : BitVec 2) (v : W64) {n : BitVec 12} : ∀ e ∈ csrWrites t j v, n.toNat = e.1 → ∀ s, csrWrite t j n v s = e.2 s := by
  simp only [csrWrites, List.forall_mem_cons, List.not_mem_nil, false_imp_iff, implies_true, and_true]
  refine ⟨?_, ?_, ?_, ?_, ?_, ?_, ?_, ?_⟩ <;> (intro hn s; simp [csrWrite, hn, w1c])

/-- The registers that a write leaves. -/
def csrReadOnly : List Nat := [0x000, 0x001, 0x002, 0x010, 0x011, 0x032, 0x039, 0x050, 0x060, 0x061, 0x062]

theorem csrWrite_readOnly (t : W16) (j : BitVec 2) (v : W64) {n : BitVec 12} (s : State) (h : n.toNat ∈ csrReadOnly) : csrWrite t j n v s = s := by
  simp only [csrReadOnly, List.mem_cons, List.not_mem_nil, or_false] at h
  unfold csrWrite
  split
  case h_10 => rfl
  all_goals omega

/-- The indices that R150 lists. -/
def csrIndices : List Nat :=
  [0x000, 0x001, 0x002, 0x010, 0x011, 0x020, 0x021, 0x022, 0x023, 0x024, 0x030, 0x031, 0x032, 0x038, 0x039, 0x040, 0x041, 0x050, 0x060, 0x061, 0x062]

theorem csrRead_listed (s : State) (t : W16) (j : BitVec 2) {n : BitVec 12} (h : n.toNat ∈ csrIndices) : ∃ v, csrRead s t j n = some v := by
  by_cases h5 : n.toNat = 0x050
  · exact ⟨_, csrRead_conflicts s t j h5⟩
  · have hm : ∃ e ∈ csrTable s t j, n.toNat = e.1 := by
      simp only [csrIndices, List.mem_cons, List.not_mem_nil, or_false] at h
      simp only [csrTable, List.exists_mem_cons_iff, List.not_mem_nil, false_and, exists_false, or_false]
      omega
    obtain ⟨e, he, hn⟩ := hm
    exact ⟨_, csrRead_of_mem s t j e he hn⟩

/-- A register that CSRW writes is listed, and is neither TILE.PRESS_CTRL nor TILE.WIDE_OWNER. -/
theorem csrWrites_index (t : W16) (j : BitVec 2) (v : W64) : ∀ e ∈ csrWrites t j v, e.1 ∈ csrIndices ∧ e.1 ≠ 0x030 ∧ e.1 ≠ 0x040 := by
  simp [csrWrites, csrIndices]

theorem csrReadOnly_index : ∀ n ∈ csrReadOnly, n ∈ csrIndices ∧ n ≠ 0x030 ∧ n ≠ 0x040 ∧ ¬ (0x020 ≤ n ∧ n ≤ 0x023) := by decide

theorem csrRefusal_none {x : Tile} {j : BitVec 2} {n : BitVec 12} (h3 : n.toNat ≠ 0x030) (h4 : n.toNat ≠ 0x040 ∨ fld x.regs.wideOwner 0 2 = j) :
    csrRefusal x j n = none := by
  have : ¬ (n.toNat = 0x040 ∧ fld x.regs.wideOwner 0 2 ≠ j) := fun ⟨a, b⟩ => h4.elim (· a) b
  rw [csrRefusal, if_neg h3, if_neg this]

theorem csrRefusal_owner {x : Tile} {j : BitVec 2} {n : BitVec 12} (h : n.toNat = 0x040) (ho : fld x.regs.wideOwner 0 2 ≠ j) :
    csrRefusal x j n = some 0x40 := by
  rw [csrRefusal, if_neg (by omega), if_pos ⟨h, ho⟩]

theorem csrInfo_noStatus (n : BitVec 12) : csrInfo n 0 = n.setWidth 64 := BitVec.eq_of_toNat_eq (by simp [csrInfo, at'])

/-! ## SYS slots (R149) -/

section sys
variable {s : State} {h : SlotHdr} {j : BitVec 2} {i : Instr} {op : BitVec 6} {gD gA : BitVec 5} {csr : BitVec 12}
variable (hi : canIssue s h j = true)
include hi

theorem exec_sys_refused {o : SlotOp} (hc : coreSlot i = some (h, o)) (ho : classAllowed h.eng o = false) : exec i s = .next (stopped s h j cIllegalOp 0) := by
  rw [exec_coreSlot hc]
  exact slotCmd_excRes hi (evalSlot_refused hi ho)

variable (he : h.eng = false)
include he

theorem evalSlot_sys (op : BitVec 6) (gD gA : BitVec 5) (csr : BitVec 12) :
    evalSlot s h.tile j (ctxOf s h.tile j) h.eng false false (slotOf h (.sys op gD gA csr)) = evalSys s h.tile j (ctxOf s h.tile j) op gD gA csr :=
  evalSlot_own hi (by rw [he]; rfl)

theorem exec_csrr {v : W64} (hv : csrRead s h.tile j csr = some v) (hr : (csrWaits csr && !allStarted (getTile s h.tile) j) = false) :
    exec (.csrr h gD csr) s = .next (csrReadAct h.tile csr (advance s h j fun c => setG c gD v)) := by
  rw [exec_coreSlot rfl]
  refine slotCmd_gW_act hi rfl ((evalSlot_sys hi he ..).trans ?_)
  show evalCsrr s h.tile j gD csr = _
  simp only [evalCsrr, hv, hr]

theorem exec_csrw {v : W64} (hv : csrRead s h.tile j csr = some v) (hf : csrRefusal (getTile s h.tile) j csr = none)
    (hr : (csrWaits csr && !allStarted (getTile s h.tile) j) = false) :
    exec (.csrw h gA csr) s = .next (csrWrite h.tile j csr (getG (ctxOf s h.tile j) gA) (advance s h j id)) := by
  rw [exec_coreSlot rfl]
  refine slotCmd_act hi rfl ((evalSlot_sys hi he ..).trans ?_)
  show evalCsrw s h.tile j (ctxOf s h.tile j) gA csr = _
  simp only [evalCsrw, hv, hf, hr]

theorem exec_csrw_refused {v : W64} {st : Byte} (hv : csrRead s h.tile j csr = some v) (hf : csrRefusal (getTile s h.tile) j csr = some st) :
    exec (.csrw h gA csr) s = .next (stopped s h j cCsrRefused (csrInfo csr st)) := by
  rw [exec_coreSlot rfl]
  refine slotCmd_excRes hi ((evalSlot_sys hi he ..).trans ?_)
  show evalCsrw s h.tile j (ctxOf s h.tile j) gA csr = _
  simp only [evalCsrw, hv, hf]

theorem exec_csr_unlisted (hv : csrRead s h.tile j csr = none) :
    exec (.csrr h gD csr) s = .next (stopped s h j cCsrRefused (csr.setWidth 64))
    ∧ exec (.csrw h gA csr) s = .next (stopped s h j cCsrRefused (csr.setWidth 64)) := by
  rw [exec_coreSlot rfl, exec_coreSlot rfl, ← csrInfo_noStatus]
  constructor
  · refine slotCmd_excRes hi ((evalSlot_sys hi he ..).trans ?_)
    show evalCsrr s h.tile j gD csr = _
    simp only [evalCsrr, hv]
  · refine slotCmd_excRes hi ((evalSlot_sys hi he ..).trans ?_)
    show evalCsrw s h.tile j (ctxOf s h.tile j) gA csr = _
    simp only [evalCsrw, hv]

theorem exec_csr_waits {v : W64} (hv : csrRead s h.tile j csr = some v) (hf : csrRefusal (getTile s h.tile) j csr = none)
    (hr : (csrWaits csr && !allStarted (getTile s h.tile) j) = true) :
    exec (.csrr h gD csr) s = .next (waiting s h j (.sys 2 gD 0 csr)) ∧ exec (.csrw h gA csr) s = .next (waiting s h j (.sys 3 0 gA csr)) := by
  rw [exec_coreSlot rfl, exec_coreSlot rfl]
  constructor
  · refine slotCmd_blocked (r := { gW := some (gD, v), blocked := true, act := csrReadAct h.tile csr }) hi he ((evalSlot_sys hi he ..).trans ?_) rfl rfl
    show evalCsrr s h.tile j gD csr = _
    simp only [evalCsrr, hv, hr]
  · refine slotCmd_blocked (r := { blocked := true, act := csrWrite h.tile j csr (getG (ctxOf s h.tile j) gA) }) hi he
      ((evalSlot_sys hi he ..).trans ?_) rfl rfl
    show evalCsrw s h.tile j (ctxOf s h.tile j) gA csr = _
    simp only [evalCsrw, hv, hf, hr]

theorem exec_fenceE_runs (hb : engBusy (getTile s h.tile) j = false) : exec (.fenceE h) s = .next (advance s h j id) := by
  rw [exec_coreSlot rfl]
  refine slotCmd_act (act := id) hi rfl ((evalSlot_sys hi he ..).trans ?_)
  show ({ blocked := engBusy (getTile s h.tile) j } : SlotRes) = _
  rw [hb]

theorem exec_halt_runs (hb : engBusy (getTile s h.tile) j = false) : exec (.halt h) s = .next (haltAct h.tile j (advance s h j id)) := by
  rw [exec_coreSlot rfl]
  refine slotCmd_act hi rfl ((evalSlot_sys hi he ..).trans ?_)
  show ({ blocked := engBusy (getTile s h.tile) j, act := haltAct h.tile j } : SlotRes) = _
  rw [hb]

theorem exec_fenceE_waits (hb : engBusy (getTile s h.tile) j = true) : exec (.fenceE h) s = .next (waiting s h j (.sys 4 0 0 0)) := by
  rw [exec_coreSlot rfl]
  exact slotCmd_blocked hi he (evalSlot_sys hi he ..) rfl hb

theorem exec_halt_waits (hb : engBusy (getTile s h.tile) j = true) : exec (.halt h) s = .next (waiting s h j (.sys 1 0 0 0)) := by
  rw [exec_coreSlot rfl]
  exact slotCmd_blocked hi he (evalSlot_sys hi he ..) rfl hb

end sys

/-! ## HALT (R149, R400) -/

theorem setJobSt_hbm (s : State) (j : BitVec 2) (st : JobSt) : (setJobSt s j st).hbm = s.hbm := by
  rw [setJobSt, raiseEvent_mgmt]
  rfl

theorem haltAct_hbm (s : State) (t : W16) (j : BitVec 2) : (haltAct t j s).hbm = s.hbm := by
  have hf (s : State) : (checkFinished s j).hbm = s.hbm := by
    unfold checkFinished
    split
    · exact setJobSt_hbm ..
    · rfl
  unfold haltAct checkPaused
  split
  · exact (setJobSt_hbm ..).trans (hf _)
  · exact hf _

theorem getTile_haltAct (s : State) (t : W16) (j : BitVec 2) (u : W16) :
    getTile (haltAct t j s) u = getTile (modCtx s t j fun c => { c with st := .halted }) u :=
  ((SameButLog.finished _ j).trans (SameButLog.paused _ j)).getTile u

theorem ctxOf_modCtx (s : State) (t : W16) (j : BitVec 2) (f : Ctx → Ctx) : ctxOf (modCtx s t j f) t j = f (ctxOf s t j) := by
  rw [ctxOf, modCtx, getTile_modTile, getCtx_putCtx, ctxOf]

theorem ctxOf_modCtx_other (s : State) (t : W16) {j k : BitVec 2} (f : Ctx → Ctx) (h : k ≠ j) : ctxOf (modCtx s t j f) t k = ctxOf s t k := by
  rw [ctxOf, modCtx, getTile_modTile, getCtx_putCtx_other _ _ h, ctxOf]

/-- The context that HALT leaves, and what it leaves alone. -/
theorem halted_runs (s : State) (h : SlotHdr) (j : BitVec 2) (hw : (ctxOf s h.tile j).wait = none) :
    let c := ctxOf s h.tile j
    let t := haltAct h.tile j (advance s h j id)
    ctxOf t h.tile j = { c with st := .halted, pc := c.pc + 16, bundles := c.bundles + 1, switchPt := false }
    ∧ (∀ k, k ≠ j → ctxOf t h.tile k = ctxOf s h.tile k) ∧ (∀ u, u ≠ h.tile → getTile t u = getTile s u) ∧ t.hbm = s.hbm := by
  intro c t
  have ht (k : BitVec 2) : ctxOf t h.tile k = ctxOf (modCtx (advance s h j id) h.tile j fun c => { c with st := .halted }) h.tile k := by
    rw [ctxOf, getTile_haltAct, ctxOf]
  refine ⟨?_, fun k hk => ?_, fun u hu => ?_, haltAct_hbm ..⟩
  · rw [ht, ctxOf_modCtx, ctxOf_advance, show none = c.wait from hw.symm]
    rfl
  · rw [ht, ctxOf_modCtx_other _ _ _ hk, ctxOf_advance_other _ _ _ _ hk]
  · rw [getTile_haltAct]
    exact (getTile_putTile_other _ _ hu).trans (getTile_advance_other _ _ _ _ hu)

/-- A read of TILE.BANK_CONFLICTS keeps the value it gives. -/
theorem csrReadAct_conflicts {s : State} {h : SlotHdr} {j : BitVec 2} {gD : BitVec 5} {n : BitVec 12} (hn : n.toNat = 0x050)
    (hw : (ctxOf s h.tile j).wait = none) :
    let x := getTile s h.tile
    let c := ctxOf s h.tile j
    let u := x.regs.bankConflicts + Config.freeWord s.freeCtr
    let t := csrReadAct h.tile n (advance s h j fun c => setG c gD u)
    (getTile t h.tile).regs = { x.regs with bankConflicts := u }
    ∧ ctxOf t h.tile j = { setG c gD u with pc := c.pc + 16, bundles := c.bundles + 1, switchPt := false } := by
  intro x c u t
  have ht : getTile t h.tile = { getTile (advance s h j fun c => setG c gD u) h.tile with
      regs := { (getTile (advance s h j fun c => setG c gD u) h.tile).regs with
        bankConflicts := (getTile (advance s h j fun c => setG c gD u) h.tile).regs.bankConflicts + Config.freeWord s.freeCtr } } := by
    simp only [t, csrReadAct, hn, if_true]
    exact getTile_modTile ..
  constructor
  · obtain ⟨_, _, _, _, ha⟩ := getTile_advance s h j fun c => setG c gD u
    rw [ht, ha]
  · have hc : ctxOf t h.tile j = ctxOf (advance s h j fun c => setG c gD u) h.tile j := by
      rw [ctxOf, ht]
      rfl
    have hs : (setG c gD u).wait = none := by
      unfold setG
      split <;> exact hw
    rw [hc, ctxOf_advance, show none = (setG c gD u).wait from hs.symm]

/-- Settles O6: each SYS operation by the condition it waits for and the register it names. -/
theorem systemOps : Obligations.SystemOps := by
  intro s h j gD gA csr hi x c n v v32 runs readable ctx regs writable
  have hruns (hr : runs) : (csrWaits csr && !allStarted x j) = false := by
    by_cases hn : 0x020 ≤ n ∧ n ≤ 0x023
    · simp [hr hn]
    · have : csrWaits csr = false := by simpa [csrWaits] using hn
      simp [this]
  have hnop : classAllowed h.eng (.sys 0x00 0 0 0) = true := by cases h.eng <;> rfl
  refine ⟨?_, fun he => ?_, fun he => ?_⟩
  · rw [exec_coreSlot rfl]
    exact slotCmd_act hi rfl (evalSlot_own hi hnop)
  · refine ⟨?_, fun hb => ⟨exec_fenceE_runs hi he hb, _, exec_halt_runs hi he hb, halted_runs s h j (wait_of_canIssue hi)⟩,
      fun hb => ⟨exec_fenceE_waits hi he hb, exec_halt_waits hi he hb⟩, fun e hm hn hr => ?_, fun hn => ?_, fun e hm hn hr => ?_, fun hm => ?_,
      fun hn ho => ?_, fun hn ho => ?_, fun hn => ?_, fun h5 hu => exec_csr_unlisted hi he (csrRead_unlisted s h.tile j h5 hu), fun h1 h2 hs => ?_⟩
    · rw [exec_coreSlot rfl]
      exact slotCmd_act (act := fenceIAct h.tile) hi rfl (evalSlot_sys hi he 0x05 0 0 0)
    · have h5 : ¬ csr.toNat = 0x050 := fun h5 => csrTable_ne_conflicts s h.tile j e hm (hn.symm.trans h5)
      rw [exec_csrr hi he (csrRead_of_mem s h.tile j e hm hn) (hruns hr), csrReadAct, if_neg h5]
    · exact ⟨_, exec_csrr hi he (csrRead_conflicts s h.tile j hn) (hruns fun hw => by omega), _,
        csrReadAct_conflicts hn (wait_of_canIssue hi)⟩
    · obtain ⟨hx, h3, h4⟩ := csrWrites_index h.tile j v e hm
      rw [← hn] at hx h3 h4
      obtain ⟨w, hw⟩ := csrRead_listed s h.tile j hx
      rw [exec_csrw hi he hw (csrRefusal_none h3 (.inl h4)) (hruns hr), csrWrite_of_mem h.tile j v e hm hn]
    · obtain ⟨hx, h3, h4, h2⟩ := csrReadOnly_index n hm
      obtain ⟨w, hw⟩ := csrRead_listed s h.tile j hx
      rw [exec_csrw hi he hw (csrRefusal_none h3 (.inl h4)) (hruns fun hw => absurd hw h2), csrWrite_readOnly _ _ _ _ hm]
    · obtain ⟨w, hw⟩ := csrRead_listed s h.tile j (n := csr) (by rw [show csr.toNat = 0x040 from hn]; decide)
      rw [exec_csrw hi he hw (csrRefusal_none (by omega) (.inr ho)) (hruns fun hw => by omega)]
      simp only [csrWrite, show csr.toNat = 0x040 from hn]
      rfl
    · have hcsr : csr = 0x040 := BitVec.eq_of_toNat_eq hn
      obtain ⟨w, hw⟩ := csrRead_listed s h.tile j (n := csr) (by rw [hcsr]; decide)
      rw [exec_csrw_refused (st := 0x40) hi he hw (csrRefusal_owner hn ho), show csrInfo csr 0x40 = 0x400040 by rw [hcsr]; decide]
    · have hcsr : csr = 0x030 := BitVec.eq_of_toNat_eq hn
      obtain ⟨w, hw⟩ := csrRead_listed s h.tile j (n := csr) (by rw [hcsr]; decide)
      rw [exec_csrw_refused hi he hw (if_pos hn), show csrInfo csr stWorld = 0xF00030 by rw [hcsr]; decide]
    · have hx : n ∈ csrIndices := by
        simp only [csrIndices, List.mem_cons, List.not_mem_nil, or_false]
        omega
      obtain ⟨w, hw⟩ := csrRead_listed s h.tile j hx
      refine exec_csr_waits hi he hw (csrRefusal_none (by omega) (.inl (by omega))) ?_
      simp [csrWaits, show 0x020 ≤ csr.toNat from h1, show csr.toNat ≤ 0x023 from h2, show allStarted (getTile s h.tile) j = false from hs]
  · exact ⟨exec_sys_refused hi rfl (by rw [he]; rfl), exec_sys_refused hi rfl (by rw [he]; rfl), exec_sys_refused hi rfl (by rw [he]; rfl),
      exec_sys_refused hi rfl (by rw [he]; rfl), exec_sys_refused hi rfl (by rw [he]; rfl)⟩

end Sys2Proof.Machine
end

section
/-!
PROOFS of the statements of the family '06_tile_core_and_instructions.md', continued: the lane operations and the reductions of VALU.
-/
namespace Sys2Proof.Machine
open Sys2Proof

/-! ## Results in a lane (R154) -/

theorem toBits_mod (w : Nat) (x : Int) : toBits w x % 2 ^ w = toBits w x := Nat.mod_eq_of_lt (toBits_lt w x)

theorem toBits_neg_one (w : Nat) : toBits w (-1) = 2 ^ w - 1 := by
  have hp : 0 < 2 ^ w := Nat.two_pow_pos w
  have h : (-1 : Int) % ((2 ^ w : Nat) : Int) = ((2 ^ w - 1 : Nat) : Int) := by
    rw [show (-1 : Int) = ((2 ^ w - 1 : Nat) : Int) + ((2 ^ w : Nat) : Int) * (-1) by omega, Int.add_mul_emod_self_left]
    exact Int.emod_eq_of_lt (by omega) (by omega)
  rw [toBits, h, Int.toNat_natCast]

/-- A flag in a lane: all ones or zero. -/
theorem flag_mod (w : Nat) (p : Prop) [Decidable p] : (if decide p then 2 ^ w - 1 else 0) % 2 ^ w = toBits w (if p then -1 else 0) := by
  have hp : 0 < 2 ^ w := Nat.two_pow_pos w
  by_cases h : p
  · rw [if_pos (decide_eq_true h), if_pos h, toBits_neg_one, Nat.mod_eq_of_lt (by omega)]
  · rw [if_neg (by simpa using h), if_neg h, show (0 : Int) = ((0 : Nat) : Int) from rfl, toBits_nat]

/-- x / 2^n to nearest, a tie to the even one. -/
theorem rneShift_nearest (x : Int) (n : Nat) :
    2 * |x - rneShift x n * 2 ^ n| ≤ 2 ^ n ∧ (2 * |x - rneShift x n * 2 ^ n| = 2 ^ n → rneShift x n % 2 = 0) := by
  have hm : (0 : Int) < 2 ^ n := by positivity
  have hx := Int.mul_ediv_add_emod x (2 ^ n)
  have h0 := Int.emod_nonneg x hm.ne'
  have h1 := Int.emod_lt_of_pos x hm
  have hq : x - x / 2 ^ n * 2 ^ n = x % 2 ^ n := by linarith [Int.mul_comm (x / 2 ^ n) (2 ^ n)]
  have hs : x - (x / 2 ^ n + 1) * 2 ^ n = x % 2 ^ n - 2 ^ n := by linarith [Int.add_mul (x / 2 ^ n) 1 (2 ^ n)]
  have habs : |x % 2 ^ n - 2 ^ n| = 2 ^ n - x % 2 ^ n := by rw [abs_sub_comm]; exact abs_of_nonneg (by omega)
  simp only [rneShift, Nat.cast_pow, Nat.cast_ofNat]
  split
  · rw [hq, abs_of_nonneg h0]
    exact ⟨by omega, by omega⟩
  · split
    · rw [hs, habs]
      exact ⟨by omega, by omega⟩
    · split
      · rw [hq, abs_of_nonneg h0]
        exact ⟨by omega, fun _ => ‹_›⟩
      · rw [hs, habs]
        exact ⟨by omega, by omega⟩

/-! ## The lanes of a slot's operands -/

/-- Lane k of the second operand. -/
def secondLane (c : Ctx) (a : VArg) (k : Nat) : Nat :=
  if a.bc then (getG c a.gs).toNat % 2 ^ laneBits a.lw else laneAt a.lw (getV c a.vb) k

theorem nth_secondLanes (c : Ctx) (a : VArg) {k : Nat} (hk : k < laneCount a.lw) : nth 0 (secondLanes c a) k = secondLane c a k := by
  unfold secondLanes secondLane nth
  split
  · simp [hk]
  · simp [lanes, hk]

section lanes
variable {s : State} {h : SlotHdr} {j : BitVec 2} {i : Instr} {op : BitVec 6} {a : VArg}

/-- What an operation gives lane by lane: the result, and how it clamped. -/
def LaneResults (s : State) (h : SlotHdr) (j : BitVec 2) (op : BitVec 6) (a : VArg) (g : Nat → Nat × Int) : Prop :=
  let c := ctxOf s h.tile j
  ∀ k, laneOp op a.lw a.sh.toNat (laneAt a.lw (getV c a.va) k) (secondLane c a k) (laneAt a.lw (getV c a.vd) k) = some (g k)

/-- Lanes below a register's count of which p holds. -/
def laneTally (lw : BitVec 2) (p : Nat → Bool) : Nat := ((List.range (laneCount lw)).filter p).length

theorem evalValu_lanes {g : Nat → Nat × Int} (hs : a.sh.toNat < laneBits a.lw) (h3 : op.toNat ≠ 0x13) (h4 : op.toNat ≠ 0x14)
    (hg : LaneResults s h j op a g) :
    evalValu h.tile (ctxOf s h.tile j) op a
      = { vW := some (a.vd, packLanes a.lw ((List.range (laneCount a.lw)).map fun k => (g k).1)),
          act := satNote h.tile (laneTally a.lw fun k => decide ((g k).2 = 1)) (laneTally a.lw fun k => decide ((g k).2 = -1)) } := by
  have hrs : ((List.range (laneCount a.lw)).map fun k => laneOp op a.lw a.sh.toNat (laneAt a.lw (getV (ctxOf s h.tile j) a.va) k)
      (nth 0 (secondLanes (ctxOf s h.tile j) a) k) (laneAt a.lw (getV (ctxOf s h.tile j) a.vd) k)) = (List.range (laneCount a.lw)).map fun k => some (g k) := by
    refine List.map_congr_left fun k hk => ?_
    rw [nth_secondLanes _ _ (List.mem_range.mp hk)]
    exact hg k
  simp only [evalValu, if_neg (show ¬ laneBits a.lw ≤ a.sh.toNat by omega), h3, h4, or_self, if_false, hrs]
  simp [laneTally, List.filter_map, Function.comp_def]

theorem evalSlot_valu (hi : canIssue s h j = true) (he : h.eng = true) (op : BitVec 6) (a : VArg) :
    evalSlot s h.tile j (ctxOf s h.tile j) h.eng false false (slotOf h (.valu op a)) = evalValu h.tile (ctxOf s h.tile j) op a :=
  evalSlot_own hi (by rw [he]; rfl)

/-- A lane operation: ILLEGAL_OP where SH is the lane width or more, else its lanes and its saturations. -/
theorem exec_valu_lanes {g : Nat → Nat × Int} {f : Nat → Int} {act : State → State} (hi : canIssue s h j = true) (he : h.eng = true)
    (hc : coreSlot i = some (h, .valu op a)) (h3 : op.toNat ≠ 0x13) (h4 : op.toNat ≠ 0x14) (hg : LaneResults s h j op a g)
    (hf : ∀ k, (g k).1 % 2 ^ laneBits a.lw = toBits (laneBits a.lw) (f k))
    (hact : satNote h.tile (laneTally a.lw fun k => decide ((g k).2 = 1)) (laneTally a.lw fun k => decide ((g k).2 = -1)) = act) :
    (laneBits a.lw ≤ a.sh.toNat → exec i s = .next (stopped s h j cIllegalOp 0))
    ∧ (a.sh.toNat < laneBits a.lw → ∃ v, exec i s = .next (act (advance s h j fun c => setV c a.vd v))
        ∧ ∀ k, k < laneCount a.lw → laneAt a.lw v k = toBits (laneBits a.lw) (f k)) := by
  have hs := evalSlot_valu hi he op a
  rw [exec_coreSlot hc]
  refine ⟨fun hw => slotCmd_excRes hi (hs.trans (if_pos hw)), fun hw => ⟨packLanes a.lw ((List.range (laneCount a.lw)).map fun k => (g k).1), ?_, fun k hk => ?_⟩⟩
  · rw [slotCmd_vW hi rfl (hs.trans (evalValu_lanes hw h3 h4 hg)), hact]
  · rw [laneAt_packLanes _ _ k (by simpa using hk) (by simp), List.getElem_map, List.getElem_range, hf]

/-- A lane operation that clamps no lane. -/
theorem exec_valu_plain {r : Nat → Nat} {f : Nat → Int} (hi : canIssue s h j = true) (he : h.eng = true)
    (hc : coreSlot i = some (h, .valu op a)) (h3 : op.toNat ≠ 0x13) (h4 : op.toNat ≠ 0x14) (hg : LaneResults s h j op a fun k => (r k, 0))
    (hf : ∀ k, r k % 2 ^ laneBits a.lw = toBits (laneBits a.lw) (f k)) :
    (laneBits a.lw ≤ a.sh.toNat → exec i s = .next (stopped s h j cIllegalOp 0))
    ∧ (a.sh.toNat < laneBits a.lw → ∃ v, exec i s = .next (advance s h j fun c => setV c a.vd v)
        ∧ ∀ k, k < laneCount a.lw → laneAt a.lw v k = toBits (laneBits a.lw) (f k)) :=
  exec_valu_lanes (act := id) hi he hc h3 h4 hg hf (by simp [laneTally]; rfl)

/-- A clamped value in a lane of w bits. -/
def laneClamped (w : Nat) (v : Int) : Int := if v < -(2 ^ (w - 1)) then -(2 ^ (w - 1)) else if 2 ^ (w - 1) - 1 < v then 2 ^ (w - 1) - 1 else v

theorem laneClamp_fst (lw : BitVec 2) (v : Int) : (laneClamp lw v).1 = toBits (laneBits lw) (laneClamped (laneBits lw) v) := by
  unfold laneClamp laneClamped
  dsimp only
  split
  · rfl
  · split <;> rfl

theorem laneClamp_high (lw : BitVec 2) (v : Int) : (laneClamp lw v).2 = 1 ↔ 2 ^ (laneBits lw - 1) - 1 < v := by
  have hp : (0 : Int) < 2 ^ (laneBits lw - 1) := by positivity
  unfold laneClamp
  dsimp only
  split
  · exact ⟨fun h => by simp at h, fun h => by omega⟩
  · split
    · exact ⟨fun _ => ‹_›, fun _ => rfl⟩
    · exact ⟨fun h => by simp at h, fun h => absurd h ‹_›⟩

theorem laneClamp_low (lw : BitVec 2) (v : Int) : (laneClamp lw v).2 = -1 ↔ v < -(2 ^ (laneBits lw - 1)) := by
  unfold laneClamp
  dsimp only
  split
  · exact ⟨fun _ => ‹_›, fun _ => rfl⟩
  · split
    · exact ⟨fun h => by simp at h, fun h => absurd h ‹_›⟩
    · exact ⟨fun h => by simp at h, fun h => absurd h ‹_›⟩

/-- A lane operation whose lanes are clamped and counted. -/
theorem exec_valu_clamped {f : Nat → Int} (hi : canIssue s h j = true) (he : h.eng = true)
    (hc : coreSlot i = some (h, .valu op a)) (h3 : op.toNat ≠ 0x13) (h4 : op.toNat ≠ 0x14) (hg : LaneResults s h j op a fun k => laneClamp a.lw (f k)) :
    let hi' : Int := 2 ^ (laneBits a.lw - 1) - 1
    let lo : Int := -(2 ^ (laneBits a.lw - 1))
    (laneBits a.lw ≤ a.sh.toNat → exec i s = .next (stopped s h j cIllegalOp 0))
    ∧ (a.sh.toNat < laneBits a.lw → ∃ v,
        exec i s = .next (satNote h.tile (laneTally a.lw fun k => decide (hi' < f k)) (laneTally a.lw fun k => decide (f k < lo))
          (advance s h j fun c => setV c a.vd v))
        ∧ ∀ k, k < laneCount a.lw → laneAt a.lw v k = toBits (laneBits a.lw) (laneClamped (laneBits a.lw) (f k))) :=
  exec_valu_lanes hi he hc h3 h4 hg (fun k => by rw [laneClamp_fst, toBits_mod]) (by simp only [laneClamp_high, laneClamp_low])

end lanes

/-! ## Reductions (R154) -/

theorem sumI_map_range (f : Nat → Int) (n : Nat) : sumI ((List.range n).map f) = ∑ k ∈ Finset.range n, f k := by
  rw [sumI, ← List.sum_eq_foldl]
  rfl

/-- The largest element found from the left on. -/
theorem foldl_max_spec (l : List Int) (m : Int) :
    let r := l.foldl (fun m y => if m < y then y else m) m
    (r = m ∨ r ∈ l) ∧ m ≤ r ∧ ∀ y ∈ l, y ≤ r := by
  induction l generalizing m with
  | nil => simp
  | cons y t ih =>
    obtain ⟨hin, hle, hall⟩ := ih (if m < y then y else m)
    have hm : m ≤ (if m < y then y else m) ∧ y ≤ (if m < y then y else m) ∧ ((if m < y then y else m) = m ∨ (if m < y then y else m) = y) := by
      split
      · exact ⟨by omega, le_refl y, .inr rfl⟩
      · exact ⟨le_refl m, by omega, .inl rfl⟩
    obtain ⟨hm1, hm2, hm3⟩ := hm
    refine ⟨?_, hm1.trans hle, ?_⟩
    · obtain hin | hin := hin
      · obtain hm3 | hm3 := hm3
        · exact .inl (hin.trans hm3)
        · exact .inr (by rw [List.foldl_cons, hin, hm3]; simp)
      · exact .inr (List.mem_cons_of_mem _ hin)
    · simp only [List.forall_mem_cons]
      exact ⟨hm2.trans hle, hall⟩

theorem redMax_spec (a : VArg) (v : BitVec 512) : ∃ m, redMax a v = BitVec.ofInt 64 m
    ∧ (∃ k, k < laneCount a.lw ∧ laneS a.lw (laneAt a.lw v k) = m) ∧ ∀ k, k < laneCount a.lw → laneS a.lw (laneAt a.lw v k) ≤ m := by
  have hl : (lanes a.lw v).map (laneS a.lw) = (List.range (laneCount a.lw)).map fun k => laneS a.lw (laneAt a.lw v k) := by
    simp [lanes]
  have hp : 0 < laneCount a.lw := by
    have := laneCount_mul a.lw
    exact Nat.pos_of_ne_zero fun h0 => by simp [h0] at this
  obtain ⟨hin, -, hall⟩ := foldl_max_spec ((lanes a.lw v).map (laneS a.lw)) (((lanes a.lw v).map (laneS a.lw)).headD 0)
  refine ⟨_, rfl, ?_, fun k hk => hall _ (by rw [hl]; exact List.mem_map.mpr ⟨k, List.mem_range.mpr hk, rfl⟩)⟩
  obtain hin | hin := hin
  · exact ⟨0, hp, by rw [hin, hl]; obtain ⟨n, hn⟩ := Nat.exists_eq_succ_of_ne_zero hp.ne'; simp [hn, List.range_succ_eq_map]⟩
  · rw [hl] at hin
    obtain ⟨k, hk, h⟩ := List.mem_map.mp hin
    exact ⟨k, List.mem_range.mp hk, h.trans (by rw [hl])⟩

theorem redAdd_eq (a : VArg) (v : BitVec 512) :
    redAdd a v = BitVec.ofInt 64 (∑ k ∈ Finset.range (laneCount a.lw), laneS a.lw (laneAt a.lw v k)) := by
  rw [redAdd, ← sumI_map_range, lanes, List.map_map]
  rfl

section reductions
variable {s : State} {h : SlotHdr} {j : BitVec 2} {i : Instr} {op : BitVec 6} {a : VArg}
variable (hi : canIssue s h j = true) (he : h.eng = true) (ho : op.toNat = 0x13 ∨ op.toNat = 0x14)
include hi he ho

theorem exec_reduction_illegal (hc : coreSlot i = some (h, .valu op a)) (hx : laneBits a.lw ≤ a.sh.toNat ∨ a.bc = true) :
    exec i s = .next (stopped s h j cIllegalOp 0) := by
  rw [exec_coreSlot hc]
  refine slotCmd_excRes hi ((evalSlot_valu hi he op a).trans ?_)
  by_cases hw : laneBits a.lw ≤ a.sh.toNat
  · simp only [evalValu, if_pos hw]
  · simp only [evalValu, if_neg hw, if_pos ho, if_pos (hx.resolve_left hw)]

theorem exec_reduction (hc : coreSlot i = some (h, .valu op a)) (hx : ¬ (laneBits a.lw ≤ a.sh.toNat ∨ a.bc = true)) :
    exec i s = .next (advance s h j fun c => setG c a.gs
      (if op.toNat = 0x13 then redAdd a (getV (ctxOf s h.tile j) a.va) else redMax a (getV (ctxOf s h.tile j) a.va))) := by
  rw [not_or] at hx
  rw [exec_coreSlot hc]
  refine slotCmd_gW hi rfl ((evalSlot_valu hi he op a).trans ?_)
  simp only [evalValu, if_neg hx.1, if_pos ho, if_neg hx.2]

end reductions

/-- Settles O9: each operation's row of laneOp, the bound on the rounding shift, and the two reductions. -/
theorem vectorLanes : Obligations.VectorLanes := by
  refine ⟨?_, rneShift_nearest, ?_⟩
  · intro s h j a hi he c w n sh x y d sx sy lo hi' clamp gives count sat
    have int (f : Nat → Int) (k : Nat) : toBits w (f k) % 2 ^ w = toBits w (f k) := toBits_mod ..
    have nat (r : Nat → Nat) (k : Nat) : r k % 2 ^ w % 2 ^ w = toBits w (r k : Int) := by rw [Nat.mod_mod, toBits_nat]
    refine ⟨exec_valu_plain hi he rfl (by decide) (by decide) (fun k => rfl) (int _), exec_valu_plain hi he rfl (by decide) (by decide) (fun k => rfl) (int _),
      exec_valu_clamped hi he rfl (by decide) (by decide) fun k => rfl, exec_valu_clamped hi he rfl (by decide) (by decide) fun k => rfl,
      exec_valu_plain hi he rfl (by decide) (by decide) (fun k => rfl) (int _), ?_, ?_, ?_,
      exec_valu_plain hi he rfl (by decide) (by decide) (fun k => rfl) (nat _), exec_valu_plain hi he rfl (by decide) (by decide) (fun k => rfl) (nat _),
      exec_valu_plain hi he rfl (by decide) (by decide) (fun k => rfl) (nat _), exec_valu_plain hi he rfl (by decide) (by decide) (fun k => rfl) (nat _),
      ?_, exec_valu_plain hi he rfl (by decide) (by decide) (fun k => rfl) (nat _), ?_, ?_, ?_,
      exec_valu_plain hi he rfl (by decide) (by decide) (fun k => rfl) (nat _), exec_valu_plain hi he rfl (by decide) (by decide) (fun k => rfl) (int _)⟩
    · exact exec_valu_plain hi he rfl (by decide) (by decide) (fun k => rfl) fun k => (toBits_mod ..).trans (by push_cast; rfl)
    · refine exec_valu_plain hi he rfl (by decide) (by decide) (fun k => rfl) fun k => (toBits_mod ..).trans (congrArg (toBits w) ?_)
      rw [min_def_lt]
      rfl
    · refine exec_valu_plain hi he rfl (by decide) (by decide) (fun k => rfl) fun k => (toBits_mod ..).trans (congrArg (toBits w) ?_)
      rw [max_def_lt]
      rfl
    · exact exec_valu_plain hi he rfl (by decide) (by decide) (fun k => rfl) fun k => (toBits_mod ..).trans (by push_cast; rfl)
    · exact exec_valu_plain hi he rfl (by decide) (by decide) (fun k => rfl) fun k => flag_mod w (x k = y k)
    · exact exec_valu_plain hi he rfl (by decide) (by decide) (fun k => rfl) fun k => flag_mod w (sx k < sy k)
    · exact exec_valu_plain hi he rfl (by decide) (by decide) (fun k => rfl) fun k => by rw [Nat.mod_mod, ← toBits_nat, Nat.cast_ite]; rfl
  · intro s h j a hi he c sx n
    by_cases hx : laneBits a.lw ≤ a.sh.toNat ∨ a.bc = true
    · rw [if_pos hx]
      exact ⟨exec_reduction_illegal hi he (.inl rfl) rfl hx, exec_reduction_illegal hi he (.inr rfl) rfl hx⟩
    · rw [if_neg hx]
      obtain ⟨m, hm, hin, hall⟩ := redMax_spec a (getV c a.va)
      refine ⟨?_, m, ?_, hin, hall⟩
      · rw [exec_reduction hi he (.inl rfl) rfl hx, ← redAdd_eq]
        rfl
      · rw [exec_reduction hi he (.inr rfl) rfl hx, ← hm]
        rfl

end Sys2Proof.Machine
end

section
/-!
PROOFS of the statements of the family '06_tile_core_and_instructions.md', continued: the class SYNC on handles, counters, slots and handle queues.
-/
namespace Sys2Proof.Machine
open Sys2Proof

/-! ## What the retirement of a wait leaves (R134, R143, R397) -/

section advanceWait
variable (s : State) (h : SlotHdr) (j : BitVec 2) (f : Ctx → Ctx)

theorem ctxOf_advanceWait : ctxOf (advanceWait s h j f) h.tile j
    = { f (ctxOf s h.tile j) with
        pc := (ctxOf s h.tile j).pc + 16, bundles := (ctxOf s h.tile j).bundles + 1, wait := none, switchPt := (ctxOf s h.tile j).switchPt } := by
  rw [ctxOf, advanceWait, getTile_modTile]
  exact getCtx_putCtx _ _ _

theorem getTile_advanceWait_other {u : W16} (hu : u ≠ h.tile) : getTile (advanceWait s h j f) u = getTile s u := getTile_putTile_other _ _ hu

theorem getTile_advanceWait :
    ∃ c r e l, getTile (advanceWait s h j f) h.tile = { getTile s h.tile with ctx := c, readyOrd := r, ctxEcc := e, fetchBuf := l } :=
  ⟨_, _, _, _, getTile_modTile ..⟩

end advanceWait

/-! ## Handles (R135, R136) -/

theorem chKind_eq (v : W32) : chKind v = v.toNat / 2 ^ 28 := by
  rw [chKind, fldN_eq_div_mod]
  omega

theorem chIndex_eq (v : W32) : chIndex v = v.toNat % 4096 := by simp [chIndex, fldN_eq_div_mod]

theorem chEpoch_eq_zero_iff (v : W32) : chEpoch v = 0 ↔ v.toNat / 2 ^ 24 % 16 = 0 := by
  rw [← BitVec.toNat_inj, show (chEpoch v).toNat = fldN v 24 4 from rfl, fldN_eq_div_mod]
  rfl

theorem chOk_iff (v : W32) : chOk v = true ↔
    v.toNat / 2 ^ 28 ≤ 4 ∧ v.toNat / 2 ^ 12 % 2 ^ 12 = 0 ∧ (v.toNat / 2 ^ 28 = 2 ∨ v.toNat / 2 ^ 24 % 16 = 0)
      ∧ (v.toNat / 2 ^ 28 = 1 ∨ v.toNat / 2 ^ 28 = 3 → v.toNat % 2 ^ 12 < 64) ∧ (v.toNat / 2 ^ 28 = 4 → v.toNat % 2 ^ 12 < 8) := by
  have hx : (match chKind v with | 1 => decide (chIndex v < 64) | 3 => decide (chIndex v < 64) | 4 => decide (chIndex v < 8) | _ => true) = true
      ↔ (chKind v = 1 ∨ chKind v = 3 → chIndex v < 64) ∧ (chKind v = 4 → chIndex v < 8) := by
    split <;> simp_all
  simp only [chOk, Bool.and_eq_true, Bool.or_eq_true, decide_eq_true_eq, chEpoch_eq_zero_iff, fldN_eq_div_mod]
  refine (and_congr_right' hx).trans ?_
  rw [chKind_eq, chIndex_eq, show (4096 : Nat) = 2 ^ 12 from rfl]
  simp only [and_assoc]

/-! ## SYNC slots (R156, R159) -/

theorem hintOk_zero (op : BitVec 6) : hintOk op 0 = true := rfl

theorem hintOk_wait {op : BitVec 6} {hint : BitVec 2} (h : hint ≠ 3) (ho : op.toNat ∈ [2, 4, 9, 10]) : hintOk op hint = true := by
  simp only [hintOk, List.contains_eq_mem, ho, decide_true, Bool.and_true, Bool.or_eq_true, decide_eq_true_eq]
  exact .inr h

section sync
variable {s : State} {h : SlotHdr} {j : BitVec 2} {i : Instr} {o : SlotOp} {r : SlotRes}
variable (hi : canIssue s h j = true)
include hi

theorem evalSlot_sync (he : h.eng = false) (op : BitVec 6) (gD : BitVec 5) (ch : BitVec 4) (gA : BitVec 5) (hint : BitVec 2) :
    evalSlot s h.tile j (ctxOf s h.tile j) h.eng false false (slotOf h (.sync op gD ch gA hint))
      = evalSync s h.tile j (ctxOf s h.tile j) op gD ch gA hint false :=
  evalSlot_own hi (by rw [he]; rfl)

/-- A command that works on the object of its handle: HANDLE_INVALID for a handle of another kind, then the object's own check. -/
theorem exec_object {k : Nat} {H : W32} {chk : Option Byte} (hc : coreSlot i = some (h, o))
    (hr : evalSlot s h.tile j (ctxOf s h.tile j) h.eng false false (slotOf h o) = if chKind H ≠ k then handleBad H else checked chk r) :
    (H.toNat / 2 ^ 28 ≠ k → exec i s = .next (stopped s h j cHandleInvalid (H.setWidth 64)))
    ∧ (H.toNat / 2 ^ 28 = k → (∀ e, chk = some e → exec i s = .next (stopped s h j e 0))
        ∧ (chk = none → evalSlot s h.tile j (ctxOf s h.tile j) h.eng false false (slotOf h o) = r)) := by
  rw [exec_coreSlot hc, ← chKind_eq]
  refine ⟨fun hk => slotCmd_excRes hi (hr.trans (if_pos hk)), fun hk => ?_⟩
  rw [if_neg (not_not.mpr hk)] at hr
  exact ⟨fun e he => slotCmd_excRes hi (hr.trans (by rw [he]; rfl)), fun hn => hr.trans (by rw [hn]; rfl)⟩

end sync

theorem acntCheck_other {x : Tile} {j : BitVec 2} {n : Nat} (h : (getAcnt x n).owner ≠ j) : acntCheck x j n = some cObjOwner := if_pos h
theorem acntCheck_own {x : Tile} {j : BitVec 2} {n : Nat} (h : (getAcnt x n).owner = j) : acntCheck x j n = none := if_neg (not_not.mpr h)

theorem slotCheck_off {x : Tile} {j : BitVec 2} {n : Nat} (h : slotEnabled (getSlot x n) = false) : slotCheck x j n = some cSlotState := by
  simp [slotCheck, h]
theorem slotCheck_other {x : Tile} {j : BitVec 2} {n : Nat} (h : slotEnabled (getSlot x n) = true) (ho : slotOwner (getSlot x n) ≠ j) :
    slotCheck x j n = some cObjOwner := by
  simp [slotCheck, h, ho]
theorem slotCheck_own {x : Tile} {j : BitVec 2} {n : Nat} (h : slotEnabled (getSlot x n) = true) (ho : slotOwner (getSlot x n) = j) :
    slotCheck x j n = none := by
  simp [slotCheck, h, ho]

theorem hqCheck_off {x : Tile} {j : BitVec 2} {n : Nat} (h : hqEnabled (getHq x n) = false) : hqCheck x j n = some cStqRefused := by
  simp [hqCheck, h]
theorem hqCheck_other {x : Tile} {j : BitVec 2} {n : Nat} (h : hqEnabled (getHq x n) = true) (ho : hqOwner (getHq x n) ≠ j) :
    hqCheck x j n = some cObjOwner := by
  simp [hqCheck, h, ho]
theorem hqCheck_own {x : Tile} {j : BitVec 2} {n : Nat} (h : hqEnabled (getHq x n) = true) (ho : hqOwner (getHq x n) = j) :
    hqCheck x j n = none := by
  simp [hqCheck, h, ho]

/-! ## An addition to a counter (R193, R195, R410) -/

/-- A yielded context marked due keeps whatever does not look at the record of its yield. -/
theorem markDue_keeps {α : Type} (P : State → α) (t : W16) (hP : ∀ s j y, P (modCtx s t j fun c => { c with yrec := some y }) = P s) (s : State) :
    P (markDue s t) = P s := by
  unfold markDue
  refine Laws.foldl_keeps _ P (fun s j => ?_) _ _
  dsimp only
  split
  · split
    · exact hP s j _
    · rfl
  · rfl

theorem modCtx_yrec_keeps {α : Type} (P : Ctx → α) (hP : ∀ c y, P { c with yrec := y } = P c) (s : State) (t : W16) (j k : BitVec 2) (y : YieldRec) :
    P (ctxOf (modCtx s t j fun c => { c with yrec := some y }) t k) = P (ctxOf s t k) := by
  by_cases hk : k = j
  · rw [hk, ctxOf_modCtx, hP]
  · rw [ctxOf_modCtx_other _ _ _ hk]

section markDue
variable (s : State) (t : W16)

theorem getAcnt_markDue (k : Nat) : getAcnt (getTile (markDue s t) t) k = getAcnt (getTile s t) k :=
  markDue_keeps (fun s => getAcnt (getTile s t) k) t (fun s j y => by rw [modCtx, getTile_modTile]; rfl) s

theorem hbm_markDue : (markDue s t).hbm = s.hbm := markDue_keeps (·.hbm) t (fun _ _ _ => rfl) s

theorem pc_markDue (j : BitVec 2) : (ctxOf (markDue s t) t j).pc = (ctxOf s t j).pc :=
  markDue_keeps (fun s => (ctxOf s t j).pc) t (fun s k y => modCtx_yrec_keeps (·.pc) (fun _ _ => rfl) s t k j y) s

theorem g_markDue (j : BitVec 2) : (ctxOf (markDue s t) t j).g = (ctxOf s t j).g :=
  markDue_keeps (fun s => (ctxOf s t j).g) t (fun s k y => modCtx_yrec_keeps (·.g) (fun _ _ => rfl) s t k j y) s

end markDue

theorem getAcnt_putAcnt (x : Tile) (n k : Nat) (a : Acnt) : getAcnt (putAcnt x n a) k = if k = n then a else getAcnt x k := mget_mset _ _ _ _ _

theorem getAcnt_advance (s : State) (h : SlotHdr) (j : BitVec 2) (f : Ctx → Ctx) (k : Nat) :
    getAcnt (getTile (advance s h j f) h.tile) k = getAcnt (getTile s h.tile) k := by
  obtain ⟨_, _, _, _, ha⟩ := getTile_advance s h j f
  rw [ha]
  rfl

/-- ACNT.ADD on an enabled counter. -/
theorem acntAddAct_adds {s : State} {t : W16} {n : Nat} (j : BitVec 2) (v : W64) (he : (getAcnt (getTile s t) n).enable = true) :
    let u := acntAddAct t j n v s
    getAcnt (getTile u t) n = { getAcnt (getTile s t) n with value := (getAcnt (getTile s t) n).value + v }
    ∧ (∀ k, k ≠ n → getAcnt (getTile u t) k = getAcnt (getTile s t) k)
    ∧ (ctxOf u t j).pc = (ctxOf s t j).pc ∧ (ctxOf u t j).g = (ctxOf s t j).g ∧ u.hbm = s.hbm := by
  intro u
  have hu : u = markDue (modTile s t fun x => putAcnt x n { getAcnt x n with value := (getAcnt x n).value + v }) t := if_pos he
  have hc : ctxOf (modTile s t fun x => putAcnt x n { getAcnt x n with value := (getAcnt x n).value + v }) t j = ctxOf s t j := by
    rw [ctxOf, getTile_modTile]
    rfl
  have ha (k : Nat) : getAcnt (getTile u t) k
      = if k = n then { getAcnt (getTile s t) n with value := (getAcnt (getTile s t) n).value + v } else getAcnt (getTile s t) k := by
    rw [hu, getAcnt_markDue, getTile_modTile, getAcnt_putAcnt]
  exact ⟨(ha n).trans (if_pos rfl), fun k hk => (ha k).trans (if_neg hk), by rw [hu, pc_markDue, hc], by rw [hu, g_markDue, hc], by rw [hu, hbm_markDue]; rfl⟩

/-- ACNT.ADD on a counter that is not enabled is dropped with a record. -/
theorem acntAddAct_drops {s : State} {t : W16} {n : Nat} (j : BitVec 2) (v : W64) (he : (getAcnt (getTile s t) n).enable = false) :
    getTile (acntAddAct t j n v s) t = getTile s t := by
  rw [acntAddAct, if_neg (by simp [he]), getTile_putErr _ _ (by simp [tileErr])]

/-! ## A slot drained (R199, R285) -/

/-- A push changes its tile's queues alone. -/
theorem getTile_pushHandle (s : State) (die : Nat) (q : BitVec 13) (t : W16) (j : BitVec 2) (h : W32) (src : PushSrc) :
    ∃ m, getTile (pushHandle s die q t j h src).1 t = { getTile s t with hqs := m } := by
  have hd : getTile (dropHandle s die t j) t = getTile s t := by rw [dropHandle, getTile_putErr _ _ (show (1 : BitVec 2) ≠ 3 by decide)]; rfl
  have hq (m : Nat) (y : Hq) : getTile (putTile s t (putHq (getTile s t) m y)) t = { getTile s t with hqs := mset Hq.reset (getTile s t).hqs m y } :=
    getTile_putTile ..
  unfold pushHandle
  dsimp only
  split
  · exact ⟨_, rfl⟩
  · split
    · split
      · split <;> exact ⟨_, rfl⟩
      · exact ⟨_, hd⟩
    · split
      · split <;> exact ⟨_, hq _ _⟩
      · exact ⟨_, hd⟩

/-- A slot as its drain leaves it: EMPTY, in its next generation. -/
def drainedSlot (y : Slot) : Slot := { y with st := .empty, filled := 0, gen := y.gen + 1, drainWait := false }

theorem getSlot_putSlot (x : Tile) (k : Nat) (y : Slot) : getSlot (putSlot x k y) k = y := mget_mset_same _ _ _ _

theorem getSlot_pushHandle (s : State) (die : Nat) (q : BitVec 13) (t : W16) (j : BitVec 2) (h : W32) (src : PushSrc) (k : Nat) :
    getSlot (getTile (pushHandle s die q t j h src).1 t) k = getSlot (getTile s t) k := by
  obtain ⟨m, hm⟩ := getTile_pushHandle s die q t j h src
  rw [hm]
  rfl

theorem ctx_pushHandle (s : State) (die : Nat) (q : BitVec 13) (t : W16) (j : BitVec 2) (h : W32) (src : PushSrc) :
    (getTile (pushHandle s die q t j h src).1 t).ctx = (getTile s t).ctx := by
  obtain ⟨m, hm⟩ := getTile_pushHandle s die q t j h src
  rw [hm]

theorem ctx_putSlot (x : Tile) (k : Nat) (y : Slot) : (putSlot x k y).ctx = x.ctx := rfl

/-- A FULL slot drained; a push that its queue holds is remembered. -/
theorem slotDrain_full {s : State} {t : W16} {k : Nat} (hf : (getSlot (getTile s t) k).st = .full) (hh : (getSlot (getTile s t) k).heldEmpty = none) :
    (∃ v, getSlot (getTile (slotDrain s t k) t) k = { drainedSlot (getSlot (getTile s t) k) with heldEmpty := v })
    ∧ (getTile (slotDrain s t k) t).ctx = (getTile s t).ctx := by
  have hn : ¬ (getSlot (getTile s t) k).heldEmpty.isSome = true := by simp [hh]
  unfold slotDrain
  dsimp only
  rw [if_pos hf, if_neg hn]
  split
  · rw [getTile_modTile, getSlot_putSlot, ctx_putSlot, getSlot_pushHandle, ctx_pushHandle, getTile_putTile, getSlot_putSlot, ctx_putSlot]
    exact ⟨⟨_, rfl⟩, rfl⟩
  · rw [getSlot_pushHandle, ctx_pushHandle, getTile_putTile, getSlot_putSlot, ctx_putSlot]
    exact ⟨⟨_, rfl⟩, rfl⟩

/-! ## The commands on counters and slots -/

section objects
variable {s : State} {h : SlotHdr} {j : BitVec 2} {gD gA : BitVec 5} {ch : BitVec 4}
variable (hi : canIssue s h j = true) (he : h.eng = false)
include hi he

theorem exec_chset : let v : W32 := (getG (ctxOf s h.tile j) gA).setWidth 32
    (chOk v = true → exec (.chset h ch gA) s = .next (advance s h j fun c => setC c ch v))
    ∧ (¬ chOk v = true → exec (.chset h ch gA) s = .next (stopped s h j cHandleInvalid (v.setWidth 64))) := by
  intro v
  have hs : evalSlot s h.tile j (ctxOf s h.tile j) h.eng false false (slotOf h (.sync 0x00 0 ch gA 0))
      = if chOk v then { cW := some (ch, v) } else handleBad v := evalSlot_sync hi he ..
  rw [exec_coreSlot rfl]
  exact ⟨fun hk => slotCmd_cW hi rfl (hs.trans (if_pos hk)), fun hk => slotCmd_excRes hi (hs.trans (if_neg hk))⟩

/-- What both operations on a counter check, and what they do where it is the context's. -/
theorem exec_acnt : let H := getC (ctxOf s h.tile j) ch
    let n := H.toNat % 4096
    let a := getAcnt (getTile s h.tile) n
    let both (t : State) : Prop := exec (.acntRd h gD ch) s = .next t ∧ exec (.acntAdd h ch gA) s = .next t
    (H.toNat / 2 ^ 28 ≠ 1 → both (stopped s h j cHandleInvalid (H.setWidth 64)))
    ∧ (H.toNat / 2 ^ 28 = 1 → a.owner ≠ j → both (stopped s h j cObjOwner 0))
    ∧ (H.toNat / 2 ^ 28 = 1 → a.owner = j →
        exec (.acntRd h gD ch) s = .next (advance s h j fun c => setG c gD a.value)
        ∧ exec (.acntAdd h ch gA) s = .next (acntAddAct h.tile j n (getG (ctxOf s h.tile j) gA) (advance s h j id))) := by
  intro H n a both
  have hn : chIndex H = n := chIndex_eq H
  have hr := exec_object (i := .acntRd h gD ch) (k := 1) hi rfl (evalSlot_sync hi he ..)
  have ha := exec_object (i := .acntAdd h ch gA) (k := 1) hi rfl (evalSlot_sync hi he ..)
  rw [hn] at hr ha
  refine ⟨fun hk => ⟨hr.1 hk, ha.1 hk⟩, fun hk ho => ⟨(hr.2 hk).1 _ (acntCheck_other ho), (ha.2 hk).1 _ (acntCheck_other ho)⟩, fun hk ho => ⟨?_, ?_⟩⟩
  · rw [exec_coreSlot rfl]
    exact slotCmd_gW hi rfl ((hr.2 hk).2 (acntCheck_own ho))
  · rw [exec_coreSlot rfl]
    exact slotCmd_act hi rfl ((ha.2 hk).2 (acntCheck_own ho))

/-- What both operations on a slot check, and what they do where it is the context's. -/
theorem exec_slot : let H := getC (ctxOf s h.tile j) ch
    let n := H.toNat % 4096
    let y := getSlot (getTile s h.tile) n
    let both (t : State) : Prop := exec (.slotRd h gD ch) s = .next t ∧ exec (.slotDrain h ch) s = .next t
    (H.toNat / 2 ^ 28 ≠ 3 → both (stopped s h j cHandleInvalid (H.setWidth 64)))
    ∧ (H.toNat / 2 ^ 28 = 3 → slotEnabled y = false → both (stopped s h j cSlotState 0))
    ∧ (H.toNat / 2 ^ 28 = 3 → slotEnabled y = true → slotOwner y ≠ j → both (stopped s h j cObjOwner 0))
    ∧ (H.toNat / 2 ^ 28 = 3 → slotEnabled y = true → slotOwner y = j →
        exec (.slotRd h gD ch) s = .next (advance s h j fun c => setG c gD ((slotStatusReg y).setWidth 64))
        ∧ evalSlot s h.tile j (ctxOf s h.tile j) h.eng false false (slotOf h (.sync 0x07 0 ch 0 0)) = evalDrain (getTile s h.tile) h.tile n) := by
  intro H n y both
  have hn : chIndex H = n := chIndex_eq H
  have hr := exec_object (i := .slotRd h gD ch) (k := 3) hi rfl (evalSlot_sync hi he ..)
  have hd := exec_object (i := .slotDrain h ch) (k := 3) hi rfl (evalSlot_sync hi he ..)
  rw [hn] at hr hd
  refine ⟨fun hk => ⟨hr.1 hk, hd.1 hk⟩, fun hk ho => ⟨(hr.2 hk).1 _ (slotCheck_off ho), (hd.2 hk).1 _ (slotCheck_off ho)⟩,
    fun hk ho hj => ⟨(hr.2 hk).1 _ (slotCheck_other ho hj), (hd.2 hk).1 _ (slotCheck_other ho hj)⟩, fun hk ho hj => ⟨?_, (hd.2 hk).2 (slotCheck_own ho hj)⟩⟩
  rw [exec_coreSlot rfl]
  exact slotCmd_gW hi rfl ((hr.2 hk).2 (slotCheck_own ho hj))

end objects

theorem evalDrain_filling {x : Tile} {n : Nat} (t : W16) (h : (getSlot x n).st = .filling) : evalDrain x t n = excRes cSlotState 0 := by simp only [evalDrain, h]
theorem evalDrain_empty {x : Tile} {n : Nat} (t : W16) (h : (getSlot x n).st = .empty) : evalDrain x t n = {} := by simp only [evalDrain, h]
theorem evalDrain_full {x : Tile} {n : Nat} (t : W16) (h : (getSlot x n).st = .full) :
    evalDrain x t n = { blocked := (getSlot x n).heldEmpty.isSome, act := fun s => slotDrain s t n } := by simp only [evalDrain, h]

theorem getSlot_advance (s : State) (h : SlotHdr) (j : BitVec 2) (f : Ctx → Ctx) (k : Nat) :
    getSlot (getTile (advance s h j f) h.tile) k = getSlot (getTile s h.tile) k := by
  obtain ⟨_, _, _, _, ha⟩ := getTile_advance s h j f
  rw [ha]
  rfl

theorem ctxOf_of_ctx {s t : State} {u : W16} (h : (getTile t u).ctx = (getTile s u).ctx) (j : BitVec 2) : ctxOf t u j = ctxOf s u j := by
  unfold ctxOf getCtx
  rw [h]

/-- Settles O11: the handle's check, the object's check, then the operation. -/
theorem countersAndSlots : Obligations.CountersAndSlots := by
  refine ⟨?_, ?_, ?_⟩
  · intro s h j gD gA ch hi he c v kind index ok
    obtain ⟨h1, h2⟩ := exec_chset (gA := gA) (ch := ch) hi he
    have hok : chOk v = true ↔ ok := chOk_iff v
    refine ⟨fun hk => h1 (hok.mpr hk), fun hk => h2 (mt hok.mp hk), ?_⟩
    rw [exec_coreSlot rfl]
    exact slotCmd_gW hi rfl (evalSlot_sync hi he ..)
  · intro s h j gD gA ch hi he c H n a both
    obtain ⟨h1, h2, h3⟩ := exec_acnt (gD := gD) (gA := gA) (ch := ch) hi he
    refine ⟨h1, h2, fun hk ho => ⟨(h3 hk ho).1, fun ha => ⟨_, (h3 hk ho).2, ?_⟩, fun ha => ⟨_, (h3 hk ho).2, ?_⟩⟩⟩
    · obtain ⟨hv, hothers, hpc, hg, hhbm⟩ := acntAddAct_adds (s := advance s h j id) (t := h.tile) (n := n) j (getG c gA) (by rwa [getAcnt_advance])
      rw [getAcnt_advance] at hv
      refine ⟨hv, fun k hk => (hothers k hk).trans (getAcnt_advance ..), hpc.trans ?_, hg.trans ?_, hhbm⟩
      · rw [ctxOf_advance]
      · rw [ctxOf_advance]
        rfl
    · have ht := acntAddAct_drops (s := advance s h j id) (t := h.tile) (n := n) j (getG c gA) (by rwa [getAcnt_advance])
      have hc : ctxOf (acntAddAct h.tile j n (getG c gA) (advance s h j id)) h.tile j = ctxOf (advance s h j id) h.tile j := by
        rw [ctxOf, ht, ctxOf]
      refine ⟨?_, ?_, ?_⟩
      · rw [ht, getAcnt_advance]
      · rw [hc, ctxOf_advance]
      · rw [hc, ctxOf_advance]
        rfl
  · intro s h j gD ch hi he H n y both
    obtain ⟨h1, h2, h3, h4⟩ := exec_slot (gD := gD) (ch := ch) hi he
    refine ⟨h1, h2, h3, fun hk ho hj => ?_⟩
    obtain ⟨hrd, hdr⟩ := h4 hk ho hj
    refine ⟨hrd, fun hs => ?_, fun hs => ?_, fun hs hh => ?_, fun hs hh => ?_⟩
    · rw [exec_coreSlot rfl]
      exact slotCmd_excRes hi (hdr.trans (evalDrain_filling _ hs))
    · rw [exec_coreSlot rfl]
      exact slotCmd_act hi rfl (hdr.trans (evalDrain_empty _ hs))
    · refine ⟨slotDrain (advance s h j id) h.tile n, ?_, ?_⟩
      · rw [exec_coreSlot rfl]
        refine slotCmd_act (act := fun s => slotDrain s h.tile n) hi rfl (hdr.trans ((evalDrain_full _ hs).trans ?_))
        rw [show (getSlot (getTile s h.tile) n).heldEmpty = none from hh]
        rfl
      · obtain ⟨⟨v, hv⟩, hc⟩ := slotDrain_full (s := advance s h j id) (t := h.tile) (k := n) (by rwa [getSlot_advance]) (by rwa [getSlot_advance])
        intro z
        have hz : z = { drainedSlot y with heldEmpty := v } := by rw [getSlot_advance] at hv; exact hv
        rw [hz, ctxOf_of_ctx hc, ctxOf_advance]
        exact ⟨rfl, rfl, rfl, rfl, rfl⟩
    · rw [exec_coreSlot rfl]
      exact slotCmd_blocked hi he (hdr.trans (evalDrain_full _ hs)) rfl (Option.isSome_iff_ne_none.mpr hh)

/-! ## Handle queues (R156, R285, R306) -/

theorem getHq_putHq (x : Tile) (n k : Nat) (y : Hq) : getHq (putHq x n y) k = if k = n then y else getHq x k := mget_mset _ _ _ _ _

theorem getHq_advanceWait (s : State) (h : SlotHdr) (j : BitVec 2) (f : Ctx → Ctx) (k : Nat) :
    getHq (getTile (advanceWait s h j f) h.tile) k = getHq (getTile s h.tile) k := by
  obtain ⟨_, _, _, _, ha⟩ := getTile_advanceWait s h j f
  rw [ha]
  rfl

/-- The oldest handle leaves its queue. -/
def popHq (t : W16) (n : Nat) (s : State) : State := settleHq (modTile s t fun x => putHq x n { getHq x n with handles := (getHq x n).handles.drop 1 }) t n

/-- A queue without its oldest handle: disabled where it drains and that was its last one (R306). -/
def poppedHq (y : Hq) (rest : List W32) : Hq :=
  if y.draining = true ∧ rest = [] then { y with handles := [], draining := false, cfg := setFld y.cfg 31 1 0 } else { y with handles := rest }

theorem ctx_popHq (t : W16) (n : Nat) (s : State) : (getTile (popHq t n s) t).ctx = (getTile s t).ctx := by
  rw [popHq, settleHq, getTile_modTile, getTile_modTile]
  dsimp only
  split <;> rfl

theorem popHq_hbm (t : W16) (n : Nat) (s : State) : (popHq t n s).hbm = s.hbm := rfl

theorem getTile_popHq_other (t : W16) (n : Nat) (s : State) {u : W16} (hu : u ≠ t) : getTile (popHq t n s) u = getTile s u :=
  (getTile_putTile_other _ _ hu).trans (getTile_putTile_other _ _ hu)

theorem getHq_popHq {t : W16} {n : Nat} {s : State} {v : W32} {rest : List W32} (h : (getHq (getTile s t) n).handles = v :: rest) (k : Nat) :
    getHq (getTile (popHq t n s) t) k = if k = n then poppedHq (getHq (getTile s t) n) rest else getHq (getTile s t) k := by
  have hy : getHq (putHq (getTile s t) n { getHq (getTile s t) n with handles := rest }) n = { getHq (getTile s t) n with handles := rest } := by
    rw [getHq_putHq, if_pos rfl]
  rw [popHq, settleHq, getTile_modTile, getTile_modTile, h, List.drop_one, List.tail_cons]
  dsimp only
  rw [hy]
  by_cases hd : (getHq (getTile s t) n).draining = true ∧ rest = []
  · rw [if_pos ⟨hd.1, by rw [hd.2]; rfl⟩, getHq_putHq, poppedHq, if_pos hd, getHq_putHq]
    by_cases hk : k = n
    · rw [if_pos hk, if_pos hk, hd.2]
    · rw [if_neg hk, if_neg hk, if_neg hk]
  · rw [if_neg fun hc => hd ⟨hc.1, List.isEmpty_iff.mp hc.2⟩, getHq_putHq, poppedHq, if_neg hd]

theorem evalPop_oldest {x : Tile} {H v : W32} {rest : List W32} (t : W16) (gD : BitVec 5) (h : (getHq x (chIndex H)).handles = v :: rest) :
    evalPop x t gD H = { gW := some (gD, v.setWidth 64), act := popHq t (chIndex H) } := by
  simp only [evalPop, h]
  rfl

theorem evalPop_empty {x : Tile} {H : W32} (t : W16) (gD : BitVec 5) (h : (getHq x (chIndex H)).handles = []) :
    evalPop x t gD H = { gW := some (gD, 0), blocked := true, limit := some H } := by
  simp only [evalPop, h]

section
variable {s : State} {t : W16} {j : BitVec 2} {c : Ctx} {gD : BitVec 5} {ch : BitVec 4} {gA : BitVec 5} {hint : BitVec 2} {b : Bool}

theorem evalSync_hqPop (hh : hint ≠ 3) : evalSync s t j c 0x09 gD ch gA hint b
    = if chKind (getC c ch) ≠ 4 then handleBad (getC c ch)
      else checked (hqCheck (getTile s t) j (chIndex (getC c ch))) (evalPop (getTile s t) t gD (getC c ch)) := by
  simp [evalSync, hintOk_wait hh]

theorem evalSync_hqPush (hh : hint ≠ 3) : evalSync s t j c 0x0A gD ch gA hint b
    = if chKind (getC c ch) ≠ 4 then handleBad (getC c ch)
      else checked (hqCheck (getTile s t) j (chIndex (getC c ch))) (evalPush (getTile s t) t j (getC c ch) ((getG c gA).setWidth 32)) := by
  simp [evalSync, hintOk_wait hh]

end

theorem evalPush_room {x : Tile} {H : W32} {t : W16} {j : BitVec 2} {v : W32} (h : (getHq x (chIndex H)).handles.length < 64) :
    evalPush x t j H v = { act := fun s => (pushHandle s (tDie t) (BitVec.ofNat 13 (chIndex H)) t j v .window).1 } := if_pos (.inl h)

theorem evalPush_full {x : Tile} {H : W32} {t : W16} {j : BitVec 2} {v : W32} (h : 64 ≤ (getHq x (chIndex H)).handles.length)
    (hd : (getHq x (chIndex H)).draining = false) : evalPush x t j H v = { blocked := true, limit := some H } :=
  if_neg (by rw [hd]; simpa using h)

/-- A handle pushed to an enabled queue of the tile that has room stands behind the others. -/
theorem pushHandle_appends {s : State} {t : W16} {j : BitVec 2} {n : Nat} {v : W32} {y : Hq} (h8 : n < 8) (hy : getHq (getTile s t) n = y)
    (ho : hqEnabled y = true) (hj : hqOwner y = j) (hl : y.handles.length < 64) (hd : y.draining = false) :
    (pushHandle s (tDie t) (BitVec.ofNat 13 n) t j v .window).1 = modTile s t fun x => putHq x n { y with handles := y.handles ++ [v] } := by
  subst hy
  have hq : BitVec.ofNat 13 n ≠ 0x1FFF ∧ bitAt (BitVec.ofNat 13 n) 12 = false ∧ fldN (BitVec.ofNat 13 n) 0 3 = n := by
    interval_cases n <;> decide
  obtain ⟨h1, h2, h3⟩ := hq
  rw [Laws.pushHandle_lands h1 h2 (by rwa [h3]) (by rwa [h3]) (by rwa [h3]) (by rwa [h3]), h3]
  rfl

section queues
variable {s : State} {h : SlotHdr} {j : BitVec 2} {gD gA : BitVec 5} {ch : BitVec 4} {hint : BitVec 2}
variable (hi : canIssue s h j = true) (he : h.eng = false) (hh : hint ≠ 3)
include hi he hh

/-- What both operations on a queue check, and what they do where it is the context's. -/
theorem exec_hq : let x := getTile s h.tile
    let H := getC (ctxOf s h.tile j) ch
    let y := getHq x (H.toNat % 4096)
    let both (t : State) : Prop := exec (.hqPop h gD ch hint) s = .next t ∧ exec (.hqPush h ch gA hint) s = .next t
    (H.toNat / 2 ^ 28 ≠ 4 → both (stopped s h j cHandleInvalid (H.setWidth 64)))
    ∧ (H.toNat / 2 ^ 28 = 4 → hqEnabled y = false → both (stopped s h j cStqRefused 0))
    ∧ (H.toNat / 2 ^ 28 = 4 → hqEnabled y = true → hqOwner y ≠ j → both (stopped s h j cObjOwner 0))
    ∧ (H.toNat / 2 ^ 28 = 4 → hqEnabled y = true → hqOwner y = j →
        evalSlot s h.tile j (ctxOf s h.tile j) h.eng false false (slotOf h (.sync 0x09 gD ch 0 hint)) = evalPop x h.tile gD H
        ∧ evalSlot s h.tile j (ctxOf s h.tile j) h.eng false false (slotOf h (.sync 0x0A 0 ch gA hint))
          = evalPush x h.tile j H ((getG (ctxOf s h.tile j) gA).setWidth 32)) := by
  intro x H y both
  have hn : chIndex H = H.toNat % 4096 := chIndex_eq H
  have hp := exec_object (i := .hqPop h gD ch hint) hi rfl ((evalSlot_sync hi he 0x09 gD ch 0 hint).trans (evalSync_hqPop hh))
  have hq := exec_object (i := .hqPush h ch gA hint) hi rfl ((evalSlot_sync hi he 0x0A 0 ch gA hint).trans (evalSync_hqPush hh))
  rw [hn] at hp hq
  exact ⟨fun hk => ⟨hp.1 hk, hq.1 hk⟩, fun hk ho => ⟨(hp.2 hk).1 _ (hqCheck_off ho), (hq.2 hk).1 _ (hqCheck_off ho)⟩,
    fun hk ho hj => ⟨(hp.2 hk).1 _ (hqCheck_other ho hj), (hq.2 hk).1 _ (hqCheck_other ho hj)⟩,
    fun hk ho hj => ⟨(hp.2 hk).2 (hqCheck_own ho hj), (hq.2 hk).2 (hqCheck_own ho hj)⟩⟩

end queues

/-- Settles O12: the handle's check and the queue's, then the oldest handle taken, one put behind the others, or the wait. -/
theorem handleQueueOps : Obligations.HandleQueueOps := by
  intro s h j gD gA ch hint hi he hh x H n y both
  obtain ⟨h1, h2, h3, h4⟩ := exec_hq (gD := gD) (gA := gA) (ch := ch) hi he hh
  have hn : chIndex H = n := chIndex_eq H
  have hw := wait_of_canIssue hi
  refine ⟨h1, h2, h3, fun hk ho hj => ?_⟩
  obtain ⟨hp, hq⟩ := h4 hk ho hj
  refine ⟨fun v rest hv => ⟨popHq h.tile n (advanceWait s h j fun c => setG c gD (v.setWidth 64)), ?_, ?_, fun k hk => ?_, ?_, fun u hu => ?_, popHq_hbm ..⟩,
    fun hv => ?_, fun hl hd h8 => ?_, fun hl hd => ?_⟩
  · rw [exec_coreSlot rfl]
    exact slotCmd_resolves hi he rfl (hp.trans ((evalPop_oldest _ _ (by rw [hn]; exact hv)).trans (by rw [hn]))) rfl rfl rfl rfl
  · exact (getHq_popHq (v := v) (rest := rest) (by rw [getHq_advanceWait]; exact hv) n).trans (by rw [if_pos rfl, getHq_advanceWait]; rfl)
  · exact (getHq_popHq (v := v) (rest := rest) (by rw [getHq_advanceWait]; exact hv) k).trans (by rw [if_neg hk, getHq_advanceWait])
  · have hs : (setG (ctxOf s h.tile j) gD (v.setWidth 64)).wait = none ∧ (setG (ctxOf s h.tile j) gD (v.setWidth 64)).switchPt = (ctxOf s h.tile j).switchPt := by
      unfold setG
      split <;> exact ⟨hw, rfl⟩
    rw [ctxOf_of_ctx (ctx_popHq ..), ctxOf_advanceWait, ← hs.1, ← hs.2]
  · rw [getTile_popHq_other _ _ _ hu, getTile_advanceWait_other _ _ _ _ hu]
  · rw [exec_coreSlot rfl]
    exact slotCmd_blocked hi he (hp.trans (evalPop_empty _ _ (by rw [hn]; exact hv))) rfl rfl
  · rw [exec_coreSlot rfl]
    have hr := hq.trans (evalPush_room (by rw [hn]; exact hl))
    rw [slotCmd_resolves hi he rfl hr rfl rfl rfl rfl, hn]
    exact congrArg _ (pushHandle_appends h8 (getHq_advanceWait ..) ho hj hl hd)
  · rw [exec_coreSlot rfl]
    exact slotCmd_blocked hi he (hq.trans (evalPush_full (by rw [hn]; exact hl) (by rw [hn]; exact hd))) rfl rfl

end Sys2Proof.Machine
end

section
/-!
PROOFS of the statements of the family '06_tile_core_and_instructions.md', continued: WAIT and ARRIVE.
-/
namespace Sys2Proof.Machine
open Sys2Proof

/-! ## How a wait ends (R157, R158) -/

/-- EXC_INFO of WAIT_STATUS: the handle and the status. -/
theorem waitInfo_eq (H : W32) (c : Byte) : (at' 64 0 H ||| at' 64 32 c : W64) = H.setWidth 64 + c.setWidth 64 * 2 ^ 32 := by
  have hz : at' 64 0 H &&& at' 64 32 c = 0 := by
    apply BitVec.eq_of_getLsbD_eq
    intro i hi
    simp only [at', BitVec.getLsbD_and, BitVec.getLsbD_ofNat, Nat.testBit_mul_two_pow, hi, decide_true, Bool.true_and, Nat.pow_zero, Nat.mul_one]
    by_cases h : 32 ≤ i
    · have : H.toNat.testBit i = false := by rw [BitVec.testBit_toNat, BitVec.getLsbD_of_ge _ _ h]
      simp [this]
    · simp [h]
  rw [← BitVec.add_eq_or_of_and_eq_zero _ _ hz]
  have hH : at' 64 0 H = H.setWidth 64 := by simp [at', BitVec.ofNat_toNat]
  have hc : at' 64 32 c = c.setWidth 64 * 2 ^ 32 := by
    rw [at', BitVec.ofNat_mul, BitVec.ofNat_toNat]
    rfl
  rw [hH, hc]

section ends
variable {s : State} {h : SlotHdr} {j : BitVec 2} {i : Instr} {o : SlotOp} {r : SlotRes} {gD : BitVec 5} {H : W32} {act : State → State}
variable (hi : canIssue s h j = true) (he : h.eng = false) (hc : coreSlot i = some (h, o))
include hi he hc

theorem exec_wait_holds (hr : evalSlot s h.tile j (ctxOf s h.tile j) h.eng false false (slotOf h o) = waitRes gD H none act) :
    exec i s = .next (waiting s h j o) := by
  rw [exec_coreSlot hc]
  exact slotCmd_blocked hi he hr rfl rfl

/-- A wait that resolves with a status: into gD, or as WAIT_STATUS. -/
theorem exec_wait_releases {st : Byte} (hw : isWaitOp o = true)
    (hr : evalSlot s h.tile j (ctxOf s h.tile j) h.eng false false (slotOf h o) = waitRes gD H (some st) act) :
    exec i s = .next (if st ≠ 0 ∧ gD = 0 then stopped s h j cWaitStatus (H.setWidth 64 + st.setWidth 64 * 2 ^ 32)
                      else act (advanceWait s h j fun c => setG c gD (st.setWidth 64))) := by
  rw [exec_coreSlot hc, ← waitInfo_eq]
  by_cases hx : st ≠ 0 ∧ gD = 0
  · rw [if_pos hx]
    exact slotCmd_excRes hi (hr.trans (if_pos hx))
  · rw [if_neg hx]
    exact slotCmd_resolves hi he hw (hr.trans (if_neg hx)) rfl rfl rfl rfl

/-- A wait with an effect of its own, done once as the wait starts to hold or resolves. -/
theorem exec_wait_after {res : Option Byte} {go : State → State} (hw : isWaitOp o = true)
    (hr : evalSlot s h.tile j (ctxOf s h.tile j) h.eng false false (slotOf h o)
      = { waitRes gD H res act with start := go, act := fun s => (waitRes gD H res act).act (go s) }) :
    (res = none → exec i s = .next (waiting s h j o go))
    ∧ ∀ st, res = some st → exec i s = .next (if st ≠ 0 ∧ gD = 0 then stopped s h j cWaitStatus (H.setWidth 64 + st.setWidth 64 * 2 ^ 32)
                                              else act (go (advanceWait s h j fun c => setG c gD (st.setWidth 64)))) := by
  rw [exec_coreSlot hc]
  refine ⟨fun hn => ?_, fun st hst => ?_⟩
  · subst hn
    exact slotCmd_blocked hi he hr rfl rfl
  · subst hst
    rw [← waitInfo_eq]
    by_cases hx : st ≠ 0 ∧ gD = 0
    · rw [show waitRes gD H (some st) act = excRes cWaitStatus (at' 64 0 H ||| at' 64 32 st) from if_pos hx] at hr
      rw [if_pos hx]
      exact slotCmd_stops (e := (cWaitStatus, at' 64 0 H ||| at' 64 32 st)) hi (by rw [hr]; rfl)
    · rw [show waitRes gD H (some st) act = { gW := some (gD, st.setWidth 64), act } from if_neg hx] at hr
      rw [if_neg hx]
      exact slotCmd_resolves hi he hw hr rfl rfl rfl rfl

end ends

/-! ## WAIT (R157, R239, R252) -/

section kinds
variable {s : State} {t : W16} {j : BitVec 2} {gD : BitVec 5} {H : W32} {ga : W64}

theorem evalWait_noKind (h : chKind H = 0 ∨ 4 < chKind H) : evalWait s t j gD H ga = handleBad H := by
  unfold evalWait
  split
  case h_5 => rfl
  all_goals omega

theorem evalWait_acnt (h : chKind H = 1) : evalWait s t j gD H ga
    = checked (acntCheck (getTile s t) j (chIndex H)) (waitAcnt (getTile s t) t gD H ga) := by simp only [evalWait, h]

theorem evalWait_weir (h : chKind H = 2) : evalWait s t j gD H ga
    = checked (weirWaitCheck s t j (chWeir H)) (waitRes gD H (weirWaitRes s t (chWeir H) (chEpoch H)) (weirSeen t (chWeir H))) := by simp only [evalWait, h]

theorem evalWait_slot (h : chKind H = 3) : evalWait s t j gD H ga
    = checked (slotCheck (getTile s t) j (chIndex H)) (waitSlot (getTile s t) gD H ga) := by simp only [evalWait, h]

theorem evalWait_hq (h : chKind H = 4) : evalWait s t j gD H ga
    = checked (hqCheck (getTile s t) j (chIndex H))
        (waitRes gD H (if (getHq (getTile s t) (chIndex H)).handles.isEmpty then none else some 0) id) := by simp only [evalWait, h]

end kinds

theorem waitAcnt_err {x : Tile} {H : W32} {e : Byte} (t : W16) (gD : BitVec 5) (v : W64) (h : (getAcnt x (chIndex H)).err = some e) :
    waitAcnt x t gD H v = waitRes gD H (some e) (clearMark t (chIndex H)) := by simp only [waitAcnt, h]

theorem waitAcnt_value {x : Tile} {H : W32} (t : W16) (gD : BitVec 5) (v : W64) (h : (getAcnt x (chIndex H)).err = none) :
    waitAcnt x t gD H v = waitRes gD H (if v.toNat ≤ (getAcnt x (chIndex H)).value.toNat then some 0 else none) id := by simp only [waitAcnt, h]

section waitSlot
variable {x : Tile} {H : W32} {gD : BitVec 5} {v : W64}

theorem waitSlot_empty (h : v.toNat % 4 = 0) : waitSlot x gD H v = waitRes gD H (if (getSlot x (chIndex H)).st = .empty then some 0 else none) id := by
  simp [waitSlot, fldN_eq_div_mod, h]

theorem waitSlot_full (h : v.toNat % 4 = 2) : waitSlot x gD H v = waitRes gD H (if (getSlot x (chIndex H)).st = .full then some 0 else none) id := by
  simp [waitSlot, fldN_eq_div_mod, h]

theorem waitSlot_illegal (h : v.toNat % 4 = 1 ∨ v.toNat % 4 = 3) : waitSlot x gD H v = excRes cIllegalOp 0 := by
  obtain h | h := h <;> simp [waitSlot, fldN_eq_div_mod, h]

end waitSlot

theorem chWeir_eq (H : W32) : chWeir H = BitVec.ofNat 12 (H.toNat % 4096) := BitVec.eq_of_toNat_eq (by simp [chWeir, fld])

section slots
variable {s : State} {t : W16} {j : BitVec 2} {c : Ctx} {gD : BitVec 5} {ch : BitVec 4} {gA : BitVec 5} {hint : BitVec 2} {b : Bool}

theorem evalSync_wait (hh : hint ≠ 3) : evalSync s t j c 0x02 gD ch gA hint b = evalWait s t j gD (getC c ch) (getG c gA) := by
  simp [evalSync, hintOk_wait hh]

theorem evalSync_arrive : evalSync s t j c 0x03 gD ch gA 0 b = evalArrive s t j (getC c ch) := rfl

theorem evalSync_arriveWait (hh : hint ≠ 3) : evalSync s t j c 0x04 gD ch gA hint b = evalArriveWait s t j gD (getC c ch) b := by
  simp [evalSync, hintOk_wait hh]

end slots

/-! ## WAIT as a command -/

section wait
variable {s : State} {h : SlotHdr} {j : BitVec 2} {gD gA : BitVec 5} {ch : BitVec 4} {hint : BitVec 2}

/-- A WAIT holds its bundle. -/
def WaitHolds (s : State) (h : SlotHdr) (j : BitVec 2) (gD : BitVec 5) (ch : BitVec 4) (gA : BitVec 5) (hint : BitVec 2) : Prop :=
  exec (.wait h gD ch gA hint) s = .next (waiting s h j (.sync 2 gD ch gA hint))

/-- A WAIT ends with a status and does act beside. -/
def WaitReleases (s : State) (h : SlotHdr) (j : BitVec 2) (gD : BitVec 5) (ch : BitVec 4) (gA : BitVec 5) (hint : BitVec 2) (st : Byte) (act : State → State) : Prop :=
  exec (.wait h gD ch gA hint) s
    = .next (if st ≠ 0 ∧ gD = 0 then stopped s h j cWaitStatus ((getC (ctxOf s h.tile j) ch).setWidth 64 + st.setWidth 64 * 2 ^ 32)
             else act (advanceWait s h j fun c => setG c gD (st.setWidth 64)))

variable (hi : canIssue s h j = true) (he : h.eng = false) (hh : hint ≠ 3)
include hi he hh

theorem evalSlot_wait : evalSlot s h.tile j (ctxOf s h.tile j) h.eng false false (slotOf h (.sync 2 gD ch gA hint))
    = evalWait s h.tile j gD (getC (ctxOf s h.tile j) ch) (getG (ctxOf s h.tile j) gA) :=
  (evalSlot_sync hi he ..).trans (evalSync_wait hh)

theorem exec_wait_excRes {cause : Byte} {info : W64}
    (hr : evalWait s h.tile j gD (getC (ctxOf s h.tile j) ch) (getG (ctxOf s h.tile j) gA) = excRes cause info) :
    exec (.wait h gD ch gA hint) s = .next (stopped s h j cause info) := by
  rw [exec_coreSlot rfl]
  exact slotCmd_excRes hi ((evalSlot_wait hi he hh).trans hr)

/-- A WAIT by the status it resolves with. -/
theorem exec_wait_res {res : Option Byte} {act : State → State}
    (hr : evalWait s h.tile j gD (getC (ctxOf s h.tile j) ch) (getG (ctxOf s h.tile j) gA) = waitRes gD (getC (ctxOf s h.tile j) ch) res act) :
    (res = none → WaitHolds s h j gD ch gA hint) ∧ ∀ st, res = some st → WaitReleases s h j gD ch gA hint st act := by
  have hs := (evalSlot_wait hi he hh).trans hr
  refine ⟨fun hn => ?_, fun st hst => ?_⟩
  · rw [hn] at hs
    exact exec_wait_holds hi he rfl hs
  · rw [hst] at hs
    exact exec_wait_releases hi he rfl rfl hs

/-- A WAIT on a condition that holds, or does not. -/
theorem exec_wait_cond {p : Prop} [Decidable p]
    (hr : evalWait s h.tile j gD (getC (ctxOf s h.tile j) ch) (getG (ctxOf s h.tile j) gA)
      = waitRes gD (getC (ctxOf s h.tile j) ch) (if p then some 0 else none) id) :
    (¬ p → WaitHolds s h j gD ch gA hint) ∧ (p → WaitReleases s h j gD ch gA hint 0 id) := by
  obtain ⟨h1, h2⟩ := exec_wait_res hi he hh hr
  exact ⟨fun hp => h1 (if_neg hp), fun hp => h2 0 (if_pos hp)⟩

end wait

/-! ## ARRIVE and ARRIVE.WAIT (R249-R253) -/

section arrive
variable {s : State} {h : SlotHdr} {j : BitVec 2} {gD : BitVec 5} {ch : BitVec 4} {hint : BitVec 2}

theorem arriveCheck_member {t : W16} {n : BitVec 12} (ho : weirOn (getWeir (getDie s (tDie t)) n) = true) (hm : mget false (getTile s t).weirMember n.toNat = true)
    (hj : weirOwner (getWeir (getDie s (tDie t)) n) = j) :
    arriveCheck s t j n = if mget false (getTile s t).weirArrived n.toNat then some cWeirTwice else none := by
  simp [arriveCheck, ho, hm, hj]

theorem arriveAct_arrives {t : W16} (n : BitVec 12) (e : BitVec 4) (hd : tDie t < 12) (s : State) :
    mget false (getTile (arriveAct t n e s) t).weirArrived n.toNat = true
    ∧ ∃ d : Fin 12, d.val = tDie t ∧ (arriveAct t n e s).net.arrivals = s.net.arrivals ++ [⟨d, n, t, e⟩] := by
  simp only [arriveAct, hd, dite_true]
  refine ⟨?_, ⟨tDie t, hd⟩, rfl, rfl⟩
  show mget false (getTile (modTile s t fun x => { x with weirArrived := mset false x.weirArrived n.toNat true }) t).weirArrived n.toNat = true
  rw [getTile_modTile]
  exact mget_mset_same false _ _ true

theorem tDie_lt_of_canIssue (hi : canIssue s h j = true) : tDie h.tile < 12 := by
  simp only [canIssue, tilePresent, diePresent, Bool.and_eq_true, decide_eq_true_eq] at hi
  obtain ⟨⟨⟨⟨⟨⟨⟨⟨⟨-, hd, -⟩, -⟩, -⟩, -⟩, -⟩, -⟩, -⟩, -⟩, -⟩ := hi
  exact hd

variable (hi : canIssue s h j = true) (he : h.eng = false) (hk : (getC (ctxOf s h.tile j) ch).toNat / 2 ^ 28 = 2)
include hi he hk

theorem evalSlot_arrive : evalSlot s h.tile j (ctxOf s h.tile j) h.eng false false (slotOf h (.sync 0x03 0 ch 0 0))
    = let H := getC (ctxOf s h.tile j) ch
      checked (arriveCheck s h.tile j (chWeir H)) { act := arriveAct h.tile (chWeir H) (chEpoch H) } := by
  rw [evalSlot_sync hi he, evalSync_arrive, evalArrive, if_neg (by rw [chKind_eq, hk]; decide)]

theorem evalSlot_arriveWait (hh : hint ≠ 3) : evalSlot s h.tile j (ctxOf s h.tile j) h.eng false false (slotOf h (.sync 0x04 gD ch 0 hint))
    = let H := getC (ctxOf s h.tile j) ch
      let r := evalWait s h.tile j gD H 0
      let go := arriveAct h.tile (chWeir H) (chEpoch H)
      checked (arriveCheck s h.tile j (chWeir H)) { r with start := go, act := fun s => r.act (go s) } := by
  rw [evalSlot_sync hi he, evalSync_arriveWait hh, evalArriveWait, if_neg (by rw [chKind_eq, hk]; decide)]
  rfl

end arrive

/-- Settles O13: WAIT by the kind of its handle and the state of its object; ARRIVE by the tile's arrived bit. -/
theorem waitAndArrive : Obligations.WaitAndArrive := by
  constructor
  · intro s h j gD gA ch hint hi he hh x c H kind n a y sel out holds releases refused
    have hk : chKind H = kind := chKind_eq H
    have hn : chIndex H = n := chIndex_eq H
    have hw : chWeir H = BitVec.ofNat 12 n := chWeir_eq H
    have hacnt (h1 : kind = 1) (ho : a.owner = j) : evalWait s h.tile j gD H (getG c gA) = waitAcnt x h.tile gD H (getG c gA) := by
      rw [evalWait_acnt (hk.trans h1), acntCheck_own (hn ▸ ho)]
      rfl
    have hslot (h3 : kind = 3) (ho : slotEnabled y = true) (hj : slotOwner y = j) : evalWait s h.tile j gD H (getG c gA) = waitSlot x gD H (getG c gA) := by
      rw [evalWait_slot (hk.trans h3), slotCheck_own (hn ▸ ho) (hn ▸ hj)]
      rfl
    refine ⟨fun h0 => ?_, fun h1 ho => ?_, fun h2 e h3 => ?_, fun h3 ho => ?_, fun h3 ho hj => ?_, fun h4 ho => ?_, fun h4 ho hj => ?_,
      fun h1 ho hn' => ?_, fun h1 ho e h3 => ?_, fun h2 h3 => ?_, fun h3 ho hj => ⟨fun h4 => ?_, fun h4 => ?_, fun h4 => ?_⟩, fun h4 ho hj => ?_⟩
    · exact exec_wait_excRes hi he hh (evalWait_noKind (hk ▸ h0))
    · exact exec_wait_excRes hi he hh ((evalWait_acnt (hk.trans h1)).trans (by rw [acntCheck_other (hn ▸ ho)]; rfl))
    · exact exec_wait_excRes hi he hh ((evalWait_weir (hk.trans h2)).trans (by rw [hw, h3]; rfl))
    · exact exec_wait_excRes hi he hh ((evalWait_slot (hk.trans h3)).trans (by rw [slotCheck_off (hn ▸ ho)]; rfl))
    · exact exec_wait_excRes hi he hh ((evalWait_slot (hk.trans h3)).trans (by rw [slotCheck_other (hn ▸ ho) (hn ▸ hj)]; rfl))
    · exact exec_wait_excRes hi he hh ((evalWait_hq (hk.trans h4)).trans (by rw [hqCheck_off (hn ▸ ho)]; rfl))
    · exact exec_wait_excRes hi he hh ((evalWait_hq (hk.trans h4)).trans (by rw [hqCheck_other (hn ▸ ho) (hn ▸ hj)]; rfl))
    · obtain ⟨hno, hyes⟩ := exec_wait_cond hi he hh ((hacnt h1 ho).trans (waitAcnt_value _ _ _ (hn ▸ hn')))
      rw [hn] at hno hyes
      exact ite_prop_iff_and.mpr ⟨fun hv => hno (Nat.not_le.mpr hv), fun hv => hyes (Nat.not_lt.mp hv)⟩
    · have := (exec_wait_res hi he hh ((hacnt h1 ho).trans (waitAcnt_err _ _ _ (hn ▸ h3)))).2 e rfl
      rw [hn] at this
      exact this
    · have hr : evalWait s h.tile j gD H (getG c gA)
          = waitRes gD H (weirWaitRes s h.tile (BitVec.ofNat 12 n) (chEpoch H)) (weirSeen h.tile (BitVec.ofNat 12 n)) := by
        rw [evalWait_weir (hk.trans h2), hw, h3]
        rfl
      obtain ⟨hno, hyes⟩ := exec_wait_res hi he hh hr
      cases hres : weirWaitRes s h.tile (BitVec.ofNat 12 n) (H.extractLsb' 24 4) with
      | none => exact hno hres
      | some st => exact hyes st hres
    · obtain ⟨hno, hyes⟩ := exec_wait_cond hi he hh ((hslot h3 ho hj).trans (waitSlot_empty h4))
      rw [hn] at hno hyes
      exact ite_prop_iff_and.mpr ⟨hyes, hno⟩
    · obtain ⟨hno, hyes⟩ := exec_wait_cond hi he hh ((hslot h3 ho hj).trans (waitSlot_full h4))
      rw [hn] at hno hyes
      exact ite_prop_iff_and.mpr ⟨hyes, hno⟩
    · exact exec_wait_excRes hi he hh ((hslot h3 ho hj).trans (waitSlot_illegal h4))
    · have hr : evalWait s h.tile j gD H (getG c gA)
          = waitRes gD H (if (getHq x n).handles.isEmpty then none else some 0) id := by
        rw [evalWait_hq (hk.trans h4), hqCheck_own (hn ▸ ho) (hn ▸ hj), hn]
        rfl
      obtain ⟨hno, hyes⟩ := exec_wait_res hi he hh hr
      exact ite_prop_iff_and.mpr ⟨fun hv => hno (if_pos (by simp [hv])), fun hv => hyes 0 (if_neg (by simp [hv]))⟩
  · intro s h j gD ch hint hi he hh x H n w hk ho hm hj
    have hcheck : arriveCheck s h.tile j n = if mget false x.weirArrived n.toNat then some cWeirTwice else none := arriveCheck_member ho hm hj
    have harr := evalSlot_arrive hi he hk
    have hwait := evalSlot_arriveWait (gD := gD) hi he hk hh
    dsimp only at harr hwait
    rw [show chWeir (getC (ctxOf s h.tile j) ch) = n from rfl, hcheck] at harr hwait
    have heval : evalWait s h.tile j gD H 0 = checked (weirWaitCheck s h.tile j n) (waitRes gD H (weirWaitRes s h.tile n (H.extractLsb' 24 4)) (weirSeen h.tile n)) :=
      evalWait_weir ((chKind_eq H).trans hk)
    refine ⟨fun ha => ?_, fun ha => ?_⟩
    · rw [ha, if_pos rfl] at harr hwait
      rw [exec_coreSlot rfl, exec_coreSlot rfl]
      exact ⟨slotCmd_excRes hi harr, slotCmd_excRes hi hwait⟩
    · intro go
      rw [ha, if_neg (by decide)] at harr hwait
      have hends (hc : weirWaitCheck s h.tile j n = none) := exec_wait_after (i := .arriveWait h gD ch hint) hi he rfl rfl (by rw [hwait, heval, hc]; rfl)
      rw [exec_coreSlot rfl]
      exact ⟨slotCmd_act hi rfl harr, fun hc => (hends hc).1, fun hc => (hends hc).2, arriveAct_arrives n _ (tDie_lt_of_canIssue hi)⟩

end Sys2Proof.Machine
end

section
/-!
PROOFS of the statements of the family '06_tile_core_and_instructions.md', continued: held bundles, their limits and the waiting states.
-/
namespace Sys2Proof.Machine
open Sys2Proof

/-! ## The bundle that a running context holds (R158, R397) -/

section held
variable {s : State} {tile : W16} {j : BitVec 2} {op : SlotOp} {w : WaitRec}

theorem heldBy_control (hb : heldBy s tile j false op w = true) :
    tilePresent s tile = true ∧ runningCtx (getTile s tile) = some j ∧ (ctxOf s tile j).wait = some w ∧ w.arrived = true ∧ w.ctl.op = op
    ∧ guardTrue (ctxOf s tile j) w.ctl = true ∧ w.ctl.rsv = false ∧ slotIdle (ctxOf s tile j) w.eng = true ∧ switchDue s tile j = false := by
  simpa [heldBy, ctxOf, and_assoc] using hb

/-- What the control slot of a held bundle does when it is tried again. -/
def heldRes (s : State) (tile : W16) (j : BitVec 2) (w : WaitRec) : SlotRes := evalSlot s tile j (ctxOf s tile j) false true true w.ctl

theorem evalSlot_slotIdle {c : Ctx} {v : SlotWord} (h : slotIdle c v = true) (eng held arrived : Bool) : evalSlot s tile j c eng held arrived v = {} := by
  cases hg : guardTrue c v with
  | false => simp [evalSlot, hg]
  | true =>
    obtain ⟨hn, hr⟩ : isNop v.op = true ∧ v.rsv = false := by simpa [slotIdle, hg] using h
    cases ho : v.op with
    | sys op gD gA csr =>
      obtain rfl : op = 0 := by simpa [isNop, ho] using hn
      simp [evalSlot, hg, hr, ho, classAllowed, evalSys]
    | _ => simp [isNop, ho] at hn

section
variable (hb : heldBy s tile j false op w = true)
include hb

theorem heldIf_held {p : WaitRec → Bool} (hp : p w = true) : heldIf s tile p = some (j, w) := by
  obtain ⟨-, hrun, hw, -, -, -, -, -, hd⟩ := heldBy_control hb
  rw [ctxOf] at hw
  simp [heldIf, hrun, hw, hp, hd]

theorem onTile_held (f : State → State) : onTile tile s f = .next (f s) := onTile_present (heldBy_control hb).1

/-- A held bundle tried again raises the exception of its control slot, waits on, or retires. -/
theorem tryRetire_held : tryRetire s tile j = match (heldRes s tile j w).exc with
    | some e => bundleFails s tile j (false, e) true
    | none => if (heldRes s tile j w).blocked then s else retire s tile j w.ctl w.eng (heldRes s tile j w) {} := by
  obtain ⟨-, -, hw, ha, -, -, -, hm, hd⟩ := heldBy_control hb
  have hi : evalSlot s tile j (ctxOf s tile j) true true true w.eng = {} := evalSlot_slotIdle hm _ _ _
  rw [ctxOf] at hw
  simp only [tryRetire, hw, hd, Bool.false_eq_true, if_false, runBundle, ha]
  rw [show getCtx (getTile s tile) j = ctxOf s tile j from rfl, hi, show evalSlot s tile j (ctxOf s tile j) false true true w.ctl = heldRes s tile j w from rfl]
  cases hx : (heldRes s tile j w).exc <;> simp [bundleExc, hx, writesMeet]

theorem tryRetire_blocked (hx : (heldRes s tile j w).exc = none) (hk : (heldRes s tile j w).blocked = true) : tryRetire s tile j = s := by
  simp only [tryRetire_held hb, hx, hk, if_true]

/-- A held bundle is a switch point when it retires just if it is a wait. -/
theorem keepsPoint_held : keepsPoint (ctxOf s tile j) w.ctl w.eng = isWaitOp op := by
  obtain ⟨-, -, -, -, ho, hg, -, hm, -⟩ := heldBy_control hb
  have he : (isNop w.eng.op || !guardTrue (ctxOf s tile j) w.eng) = true := by
    simp only [slotIdle, Bool.or_eq_true, Bool.and_eq_true] at hm ⊢
    exact hm.symm.imp_left And.left
  simp only [keepsPoint, hg, ho, he, Bool.not_true, Bool.false_and, Bool.false_or, Bool.true_and, Bool.and_true]

theorem tryRetire_retires {n : BitVec 5} {v : W64} {act : State → State} (hr : heldRes s tile j w = { gW := some (n, v), act }) :
    ∃ t, tryRetire s tile j = act t ∧ ctxOf t tile j = { setG (ctxOf s tile j) n v with
      pc := (ctxOf s tile j).pc + 16, bundles := (ctxOf s tile j).bundles + 1, wait := none, switchPt := (ctxOf s tile j).switchPt && isWaitOp op } := by
  refine ⟨_, (tryRetire_held hb).trans (by rw [hr]; rfl), ?_⟩
  rw [ctxOf, putStore_none, show putStore tile j ({ gW := some (n, v), act } : SlotRes) s = s from rfl, getTile_modTile, ← keepsPoint_held hb]
  exact getCtx_putCtx _ _ _

/-- A precise exception of a held bundle stops its context; PC stays and no register is written (R141, R158). -/
theorem ctxOf_bundleFails_held (eng : Bool) (cause : Byte) (info : W64) : ctxOf (bundleFails s tile j (eng, cause, info) true) tile j
    = { ctxOf s tile j with st := .stopped, excCause := excCauseReg cause true eng, excPc := (ctxOf s tile j).pc, excInfo := info, wait := none } := by
  obtain ⟨-, hrun, -, -, -, -, -, -, -⟩ := heldBy_control hb
  have hx (u : State) (hu : ctxOf u tile j = ctxOf s tile j) : ctxOf (excPrecise u tile j eng cause info) tile j
      = { ctxOf s tile j with st := .stopped, excCause := excCauseReg cause true eng, excPc := (ctxOf s tile j).pc, excInfo := info, wait := none } := by
    rw [ctxOf_excPrecise_running (by rw [hu]; exact runningCtx_st hrun), hu]
  unfold bundleFails
  simp only [if_true]
  split
  · split
    · exact hx _ (by rw [ctxOf, setExch, getTile_modTile]; rfl)
    · exact hx _ rfl
  · exact hx _ rfl

end

/-! ## What the held slots do -/

theorem waitRes_zero (gD : BitVec 5) (H : W32) (act : State → State) : waitRes gD H (some 0) act = { gW := some (gD, 0), act } := by simp [waitRes]

theorem heldRes_wait {gD gA : BitVec 5} {ch : BitVec 4} {hint : BitVec 2} (hb : heldBy s tile j false (.sync 2 gD ch gA hint) w = true) (hh : hint ≠ 3)
    (hk : (getC (ctxOf s tile j) ch).toNat / 2 ^ 28 = 1) (ho : (getAcnt (getTile s tile) ((getC (ctxOf s tile j) ch).toNat % 4096)).owner = j)
    (he : (getAcnt (getTile s tile) ((getC (ctxOf s tile j) ch).toNat % 4096)).err = none) :
    heldRes s tile j w = waitRes gD (getC (ctxOf s tile j) ch)
      (if (getG (ctxOf s tile j) gA).toNat ≤ (getAcnt (getTile s tile) ((getC (ctxOf s tile j) ch).toNat % 4096)).value.toNat then some 0 else none) id := by
  obtain ⟨-, -, -, -, hop, hg, hr, -, -⟩ := heldBy_control hb
  rw [← chIndex_eq] at ho he ⊢
  calc heldRes s tile j w = evalSync s tile j (ctxOf s tile j) 2 gD ch gA hint true := by simp [heldRes, evalSlot, hg, hr, hop, classAllowed]
    _ = evalWait s tile j gD (getC (ctxOf s tile j) ch) (getG (ctxOf s tile j) gA) := evalSync_wait hh
    _ = waitAcnt (getTile s tile) tile gD (getC (ctxOf s tile j) ch) (getG (ctxOf s tile j) gA) := by
      rw [evalWait_acnt ((chKind_eq _).trans hk), acntCheck_own ho]
      rfl
    _ = _ := waitAcnt_value _ _ _ he

theorem heldRes_halt (hb : heldBy s tile j false (.sys 1 0 0 0) w = true) :
    heldRes s tile j w = { blocked := engBusy (getTile s tile) j, act := haltAct tile j } := by
  obtain ⟨-, -, -, -, hop, hg, hr, -, -⟩ := heldBy_control hb
  simp [heldRes, evalSlot, hg, hr, hop, classAllowed, evalSys]

section gauge
variable {gD gA : BitVec 5} {widx : BitVec 12} (hb : heldBy s tile j false (.watch 0 gD gA 0 widx 0) w = true)
  (hr : (getDie s (tDie tile)).watchReady = true) (ho : watchOn (getWatch s widx) = true) (hj : watchJob (getWatch s widx) = j)
include hb

theorem heldRes_gauge : heldRes s tile j w = evalWatch s tile j (ctxOf s tile j) 0 gD gA 0 widx 0 := by
  obtain ⟨-, -, -, -, hop, hg, hr, -, -⟩ := heldBy_control hb
  simp [heldRes, evalSlot, hg, hr, hop, classAllowed]

include hr ho hj

theorem heldRes_gauge_stalls (hs : (getWatch s widx).openStep.toNat < (getG (ctxOf s tile j) gA).toNat) :
    heldRes s tile j w = { gW := some (gD, 0), blocked := true } := by
  obtain ⟨-, -, hstall, -⟩ := gaugeRead_own (t := getG (ctxOf s tile j) gA) hr ho hj
  simp [heldRes_gauge hb, evalWatch, hstall hs]

theorem heldRes_gauge_reads (hs : (getWatch s widx).openStep = getG (ctxOf s tile j) gA) :
    heldRes s tile j w = { gW := some (gD, ((getWatch s widx).exp.extractLsb' 8 8).setWidth 64) } := by
  obtain ⟨hopen, -⟩ := gaugeRead_own (t := getG (ctxOf s tile j) gA) hr ho hj
  simp only [heldRes_gauge hb, evalWatch, hopen (by rw [hs])]
  rfl

end gauge

/-! ## A held bundle retires (R100, R149, R157) -/

theorem waitRelease_held {gD gA : BitVec 5} {ch : BitVec 4} {hint : BitVec 2} (hb : heldBy s tile j false (.sync 2 gD ch gA hint) w = true) :
    exec (.waitRelease tile) s = .next (tryRetire s tile j) := by
  obtain ⟨-, -, -, -, hop, -, -, -, -⟩ := heldBy_control hb
  change execWaitRelease tile s = _
  rw [execWaitRelease, onTile_held hb, heldIf_held hb (by rw [hop]; rfl)]

theorem haltRetire_held (hb : heldBy s tile j false (.sys 1 0 0 0) w = true) : exec (.haltRetire tile) s = .next (tryRetire s tile j) := by
  obtain ⟨-, -, -, -, hop, -, -, -, -⟩ := heldBy_control hb
  change execHaltRetire tile s = _
  rw [execHaltRetire, onTile_held hb, heldIf_held hb (by rw [hop]; rfl)]

theorem gaugeStallRelease_held {gD gA : BitVec 5} {widx : BitVec 12} (hb : heldBy s tile j false (.watch 0 gD gA 0 widx 0) w = true) :
    exec (.gaugeStallRelease tile) s = .next (tryRetire s tile j) := by
  obtain ⟨-, -, -, -, hop, -, -, -, -⟩ := heldBy_control hb
  change execGaugeStallRelease tile s = _
  rw [execGaugeStallRelease, onTile_held hb, heldIf_held hb (by rw [hop]; rfl)]

theorem tryRetire_halt (hb : heldBy s tile j false (.sys 1 0 0 0) w = true) (he : engBusy (getTile s tile) j = false) :
    ctxOf (tryRetire s tile j) tile j = { ctxOf s tile j with
      st := .halted, pc := (ctxOf s tile j).pc + 16, bundles := (ctxOf s tile j).bundles + 1, wait := none, switchPt := false } := by
  have hk : ((ctxOf s tile j).switchPt && keepsPoint (ctxOf s tile j) w.ctl w.eng) = false := by rw [keepsPoint_held hb]; exact Bool.and_false _
  have ht : tryRetire s tile j = haltAct tile j (retire s tile j w.ctl w.eng {} {}) := by
    rw [tryRetire_held hb, heldRes_halt hb, he]
    rfl
  rw [ht, ctxOf, getTile_haltAct, ← ctxOf, ctxOf_modCtx, retire, ctxOf, putStore_none, putStore_none]
  simp only [id_eq, getTile_modTile]
  rw [show ∀ (x : Tile) (l : List Nat) (k : Ctx), getCtx { putCtx x j k with fetchBuf := l } j = k from fun x _ k => getCtx_putCtx x j k]
  simp only [retireCtx, putRegs_none]
  rw [show getCtx (getTile s tile) j = ctxOf s tile j from rfl, hk]

/-! ## Limits (R100, R158) -/

theorem waitTimeout_held (hb : heldBy s tile j false op w = true) {gW : Option (BitVec 5 × W64)} {H : W32}
    (hr : heldRes s tile j w = { gW, blocked := true, limit := some H }) :
    exec (.waitTimeout tile) s = .next (if (ctxOf s tile j).waitLimit.toNat ≠ 0 ∧ 1000 * (ctxOf s tile j).waitLimit.toNat ≤ waited s w then
      bundleFails s tile j (false, cWaitTimeout, H.setWidth 64) true else s) := by
  obtain ⟨-, -, -, ha, -, -, -, -, -⟩ := heldBy_control hb
  change execWaitTimeout tile s = _
  rw [execWaitTimeout, onTile_held hb, heldIf_held hb rfl]
  simp only [ha]
  rw [show evalSlot s tile j (getCtx (getTile s tile) j) false true true w.ctl = heldRes s tile j w from rfl, hr]
  rfl

theorem gaugeTimeout_held {gD gA : BitVec 5} {widx : BitVec 12} (hb : heldBy s tile j false (.watch 0 gD gA 0 widx 0) w = true)
    (hk : (heldRes s tile j w).blocked = true) (hw : 1000000 ≤ waited s w) :
    exec (.gaugeTimeout tile) s = .next (bundleFails s tile j (false, cGaugeTimeout, 0) true) := by
  obtain ⟨-, -, -, -, hop, -, -, -, -⟩ := heldBy_control hb
  change execGaugeTimeout tile s = _
  rw [execGaugeTimeout, onTile_held hb, heldIf_held hb (by rw [hop]; simpa [isGauge] using hw)]
  exact congrArg _ (if_pos hk)

theorem gaugeTimeout_early (hb : heldBy s tile j false op w = true) (hw : waited s w < 1000000) : exec (.gaugeTimeout tile) s = .next s := by
  obtain ⟨-, hrun, hwait, -, -, -, -, -, -⟩ := heldBy_control hb
  rw [ctxOf] at hwait
  have hnone : heldIf s tile (fun w => isGauge w.ctl.op && decide (1000000 ≤ waited s w)) = none := by
    simp [heldIf, hrun, hwait, Nat.not_le.mpr hw]
  change execGaugeTimeout tile s = _
  rw [execGaugeTimeout, onTile_held hb, hnone]

/-! ## Waiting states (R159, R256, R258) -/

/-- HINT DEFAULT leaves SPIN after the spin period, HINT LEND at any time, HINT SPIN never. -/
theorem spinEnds_iff : ∀ (hint : BitVec 2) (spun : Bool),
    ([0, 2].contains hint.toNat && (spun || decide (hint.toNat = 2))) = true ↔ (hint = 0 ∧ spun = true) ∨ hint = 2 := by decide

theorem spinPeriodExpire_held {gD gA : BitVec 5} {ch : BitVec 4} {hint : BitVec 2} (hb : heldBy s tile j false (.sync 2 gD ch gA hint) w = true)
    (hp : w.pwr = .spin) (hk : (heldRes s tile j w).blocked = true) :
    let spun := decide (w.since.toNat + 125 * (s.mod.waitCfg.toNat / 2 ^ 16) ≤ now s)
    exec (.spinPeriodExpire tile) s = .next (if (hint = 0 ∧ spun = true) ∨ hint = 2 then
      modCtx s tile j fun c => { c with wait := some { w with pwr := lendOrDoze s tile j spun } } else s) := by
  intro spun
  obtain ⟨-, -, -, ha, hop, -, -, -, -⟩ := heldBy_control hb
  have hspin : fldN s.mod.waitCfg 16 16 = s.mod.waitCfg.toNat / 2 ^ 16 := by
    rw [fldN_eq_div_mod]
    omega
  have hhint : waitHint w.ctl = hint.toNat := by rw [waitHint, hop]
  have hmay : mayLend s tile j w = [0, 2].contains hint.toNat := by
    rw [mayLend, ha, hhint, show evalSlot s tile j (getCtx (getTile s tile) j) false true true w.ctl = heldRes s tile j w from rfl, hk, hop]
    simp [isWaitOp]
  have hcond : (mayLend s tile j w && (spun || decide (waitHint w.ctl = 2))) = true ↔ (hint = 0 ∧ spun = true) ∨ hint = 2 := by
    rw [hmay, hhint]
    exact spinEnds_iff hint spun
  change execSpinPeriodExpire tile s = _
  rw [execSpinPeriodExpire, onTile_held hb, heldIf_held hb (decide_eq_true hp)]
  simp only [hspin]
  exact congrArg _ (if_congr hcond rfl rfl)

theorem tileWorks_iff : tileWorks (getTile s tile) j = true ↔ engBusy (getTile s tile) j = true ∨ ∃ e, getExch s tile = some e ∧ e.job = j := by
  simp [tileWorks, getExch, Option.any_eq_true]

theorem loanOk_iff : loanOk s tile = true ↔ bitAt s.mod.waitCfg 15 = true ∧ (tileHalf s tile).step ≠ 2 := by simp [loanOk]

end held

/-- Settles O15: what the held slot does when it is tried again decides between waiting on, retiring, the time-out and the waiting state. -/
theorem heldBundles : Obligations.HeldBundles := by
  refine ⟨?_, ?_, ?_⟩
  · intro s tile j w gD gA ch hint widx x c H a e after
    refine ⟨fun hb hh hk ho he => ?wait, fun hb => ?halt, fun hb hr ho hj => ?gauge⟩
    case wait =>
      have hres := heldRes_wait hb hh hk ho he
      rw [waitRelease_held hb]
      refine ⟨fun hv => ?_, fun hv => ?_⟩
      · rw [if_neg (Nat.not_le.mpr hv)] at hres
        rw [tryRetire_blocked hb (by rw [hres]; rfl) (by rw [hres]; rfl)]
      · rw [if_pos hv] at hres
        obtain ⟨t, ht, hc⟩ := tryRetire_retires hb (hres.trans (waitRes_zero ..))
        exact ⟨t, congrArg _ ht, hc.trans (by rw [show isWaitOp (.sync 2 gD ch gA hint) = true from rfl, Bool.and_true])⟩
    case halt =>
      rw [haltRetire_held hb]
      exact ⟨fun he => by rw [tryRetire_blocked hb (by rw [heldRes_halt hb]) (by rw [heldRes_halt hb]; exact he)],
        fun he => ⟨_, rfl, tryRetire_halt hb he⟩⟩
    case gauge =>
      rw [gaugeStallRelease_held hb]
      refine ⟨fun hs => ?_, fun hs => ?_⟩
      · have hres := heldRes_gauge_stalls hb hr ho hj hs
        rw [tryRetire_blocked hb (by rw [hres]) (by rw [hres])]
      · obtain ⟨t, ht, hc⟩ := tryRetire_retires hb (heldRes_gauge_reads hb hr ho hj hs)
        exact ⟨t, congrArg _ ht, hc.trans (by rw [show isWaitOp (.watch 0 gD gA 0 widx 0) = false from rfl, Bool.and_false])⟩
  · intro s tile j w gD gA ch hint widx x c H a e lim
    refine ⟨fun hb hh hk ho he hv => ?wait, fun hb hr ho hj hs => ⟨fun hw => ?gauge, gaugeTimeout_early hb⟩⟩
    case wait =>
      have hres := heldRes_wait hb hh hk ho he
      rw [if_neg (Nat.not_le.mpr hv)] at hres
      have hlim : lim = 1000 * (ctxOf s tile j).waitLimit.toNat := rfl
      rw [waitTimeout_held hb hres]
      refine ⟨fun hl => ?_, fun hl => ?_⟩
      · rw [if_pos (by omega)]
        exact ⟨_, rfl, ctxOf_bundleFails_held hb _ _ _⟩
      · rw [if_neg fun h => by omega]
    case gauge =>
      rw [gaugeTimeout_held hb (by rw [heldRes_gauge_stalls hb hr ho hj hs]) hw]
      exact ⟨_, rfl, ctxOf_bundleFails_held hb _ _ _⟩
  · intro s tile j w gD gA ch hint spin loan c H a spun works hb hp hk ho he hv
    have hexec (hh : hint ≠ 3) := by
      have hres := heldRes_wait hb hh hk ho he
      rw [if_neg (Nat.not_le.mpr hv)] at hres
      exact spinPeriodExpire_held hb hp (by rw [hres]; rfl)
    have hstay (hh : hint ≠ 3) (hn : ¬ ((hint = 0 ∧ spun) ∨ hint = 2)) : exec (.spinPeriodExpire tile) s = .next s := by
      rw [hexec hh, if_neg (by rwa [decide_eq_true_iff])]
    refine ⟨fun h1 => hstay (by simp [h1]) (by simp [h1]), fun h0 hs => hstay (by simp [h0]) (by simp [h0, hs]), fun hl => ?_⟩
    have hwait : (ctxOf (modCtx s tile j fun c => { c with wait := some { w with pwr := lendOrDoze s tile j (decide spun) } }) tile j).wait
        = some { w with pwr := lendOrDoze s tile j (decide spun) } := by rw [ctxOf_modCtx]
    have hspin : w = { w with pwr := .spin } := by rw [← hp]
    rw [hexec (by rcases hl with ⟨h, -⟩ | h <;> simp [h]), if_pos (by rwa [decide_eq_true_iff])]
    refine ⟨_, rfl, fun hw => ?_, fun hw hlo => ?_, fun hw hlo hs => ?_, fun hw hlo hs => ?_⟩ <;> refine hwait.trans ?_
    · rw [lendOrDoze, if_pos (tileWorks_iff.mpr hw), ← hspin]
    · rw [lendOrDoze, if_neg (mt tileWorks_iff.mp hw), if_pos (loanOk_iff.mpr hlo)]
    · rw [lendOrDoze, if_neg (mt tileWorks_iff.mp hw), if_neg (mt loanOk_iff.mp hlo), if_pos (decide_eq_true hs)]
    · rw [lendOrDoze, if_neg (mt tileWorks_iff.mp hw), if_neg (mt loanOk_iff.mp hlo), if_neg (by rwa [decide_eq_true_iff]), ← hspin]

end Sys2Proof.Machine
end

section
/-!
PROOFS of the statements of the family '06_tile_core_and_instructions.md', continued: the queues of the engines.
-/
namespace Sys2Proof.Machine
open Sys2Proof

/-! ## Queues and contexts of a tile (R162) -/

theorem unitQ_setUnitQ_other (x : Tile) {u v : EngUnit} (q : List EngOp) (h : v ≠ u) : unitQ (setUnitQ x u q) v = unitQ x v := by
  cases u <;> cases v <;> simp [unitQ, setUnitQ] at h ⊢

theorem ctx_setUnitQ (x : Tile) (u : EngUnit) (q : List EngOp) : (setUnitQ x u q).ctx = x.ctx := by cases u <;> rfl

theorem unitQ_discardOps (x : Tile) (j : BitVec 2) (u : EngUnit) :
    unitQ (discardOps x j) u = (unitQ x u).filter fun p => decide (p.job ≠ j) || p.started := by cases u <;> rfl

theorem unitQ_modCtx (s : State) (t : W16) (j : BitVec 2) (f : Ctx → Ctx) (u : EngUnit) : unitQ (getTile (modCtx s t j f) t) u = unitQ (getTile s t) u := by
  rw [modCtx, getTile_modTile]
  cases u <;> rfl

theorem spad_modCtx (s : State) (t : W16) (j : BitVec 2) (f : Ctx → Ctx) : (getTile (modCtx s t j f) t).spad = (getTile s t).spad := by
  rw [modCtx, getTile_modTile]
  rfl

section setHead
variable (s : State) (t : W16) (u : EngUnit) (o : EngOp)

theorem unitQ_setHead : unitQ (getTile (setHead s t u o) t) u = o :: (unitQ (getTile s t) u).tail := by
  rw [setHead, getTile_modTile, unitQ_setUnitQ]

theorem spad_setHead : (getTile (setHead s t u o) t).spad = (getTile s t).spad := by rw [setHead, getTile_modTile, spad_setUnitQ]

theorem ctxOf_setHead (j : BitVec 2) : ctxOf (setHead s t u o) t j = ctxOf s t j :=
  ctxOf_of_ctx (by rw [setHead, getTile_modTile, ctx_setUnitQ]) j

end setHead

/-! ## An ENG slot (R161, R162, R164, R166, R168) -/

/-- The operation that an ENG slot puts in its engine's queue. -/
def queuedOp (x : Tile) (j : BitVec 2) (c : Ctx) (k : EngKind) (a : EngArg) : EngOp :=
  { kind := k, job := j, addr := getG c a.gA, imm := a.imm, doneEn := a.doneEn, done := a.done, seq := x.eng.seq, pc := c.pc, started := false
    block := overridden k a.ovr (getG c a.gB) (getG c a.gC) (BitVec.ofNat 512 (leNat (spadRead x (getG c a.gA).toNat (blockSize k))))
    slotWait := none, rngSeed := 0, rngStep := 0, rngOp := 0, watchStep := 0, injected := false }

/-- An operation takes the last place of its engine's queue. -/
def queueOp (t : W16) (o : EngOp) (s : State) : State :=
  modTile s t fun x => setUnitQ { x with eng := { x.eng with seq := x.eng.seq + 1 } } (kindUnit o.kind) (unitQ x (kindUnit o.kind) ++ [o])

theorem getTile_queueOp (s : State) (t : W16) (o : EngOp) : getTile (queueOp t o s) t = let x := getTile s t
    setUnitQ { x with eng := { x.eng with seq := x.eng.seq + 1 } } (kindUnit o.kind) (unitQ x (kindUnit o.kind) ++ [o]) := getTile_modTile ..

section evalEng
variable {s : State} {t : W16} {j : BitVec 2} {c : Ctx} {op : BitVec 6} {a : EngArg} {k : EngKind}
variable (hk : engKind op = some k)
include hk

theorem evalEng_reserved (hr : engReserved k a = true) : evalEng s t j c op a = excRes cIllegalOp 0 := by simp only [evalEng, hk, hr, if_true]

variable (hr : engReserved k a = false)
include hr

theorem evalEng_address {e : Byte × W64} (he : engAddrCheck (getTile s t) j k (getG c a.gA) a.imm = some e) : evalEng s t j c op a = { exc := some e } := by
  simp only [evalEng, hk, hr, he, Bool.false_eq_true, if_false]

variable (he : engAddrCheck (getTile s t) j k (getG c a.gA) a.imm = none)
include he

theorem evalEng_full (hq : 4 ≤ (unitQ (getTile s t) (kindUnit k)).length) : ∃ act, evalEng s t j c op a = { blocked := true, act } := by
  simp only [evalEng, hk, hr, he, hq, Bool.false_eq_true, if_false, decide_true]
  exact ⟨_, rfl⟩

theorem evalEng_queues (hq : (unitQ (getTile s t) (kindUnit k)).length < 4)
    (hb : k = .wclr ∨ spadBad (getTile s t) (getG c a.gA).toNat (blockSize k) = false) :
    evalEng s t j c op a = { act := queueOp t (queuedOp (getTile s t) j c k a) } := by
  have hbad : (decide (k ≠ .wclr) && spadBad (getTile s t) (getG c a.gA).toNat (blockSize k)) = false := by
    rcases hb with h | h <;> simp [h]
  simp only [evalEng, hk, hr, he, hbad, Nat.not_le.mpr hq, Bool.false_eq_true, if_false, decide_false]
  rfl

end evalEng

/-- A bundle whose slots do nothing at once is held: its context waits with PC at it (R158). -/
theorem hold_waits (s : State) (t : W16) (j : BitVec 2) (ctl eng : SlotWord) {a b : SlotRes} (ha : a.start = id) (hb : b.start = id) :
    let u := hold s t j ctl eng a b
    (ctxOf u t j).wait.isSome = true ∧ (ctxOf u t j).pc = (ctxOf s t j).pc ∧ ∀ v, unitQ (getTile u t) v = unitQ (getTile s t) v := by
  simp only [hold, ha, hb, id_eq, ctxOf_modCtx, unitQ_modCtx, Option.isSome_map, Option.isSome_some, implies_true, and_self]

/-- An operation queued by a bundle that retires: in the last place of its queue, and nothing else of the tile's queues, memory and general
registers changes. -/
theorem queueOp_runs (s : State) (h : SlotHdr) (j : BitVec 2) (o : EngOp) :
    let t := queueOp h.tile o (advance s h j id)
    let x := getTile s h.tile
    unitQ (getTile t h.tile) (kindUnit o.kind) = unitQ x (kindUnit o.kind) ++ [o] ∧ (∀ u, u ≠ kindUnit o.kind → unitQ (getTile t h.tile) u = unitQ x u)
    ∧ (ctxOf t h.tile j).pc = (ctxOf s h.tile j).pc + 16 ∧ (ctxOf t h.tile j).g = (ctxOf s h.tile j).g ∧ (getTile t h.tile).spad = x.spad := by
  intro t x
  obtain ⟨c, r, e, l, hx⟩ := getTile_advance s h j id
  have hq (u : EngUnit) : unitQ (getTile (advance s h j id) h.tile) u = unitQ x u := by rw [hx]; cases u <;> rfl
  have hctx : ctxOf t h.tile j = ctxOf (advance s h j id) h.tile j := ctxOf_of_ctx (by rw [getTile_queueOp, ctx_setUnitQ]) j
  rw [hctx, ctxOf_advance]
  refine ⟨?_, fun u hu => ?_, rfl, rfl, ?_⟩ <;> rw [getTile_queueOp]
  · rw [unitQ_setUnitQ, hq]
  · rw [unitQ_setUnitQ_other _ _ hu, ← hq]
    cases u <;> rfl
  · rw [spad_setUnitQ, hx]

/-! ## The head of a queue (R162, R178, R200) -/

section head
variable {s : State} {t : W16} {o : EngOp} {rest : List EngOp} (hq : unitQ (getTile s t) (kindUnit o.kind) = o :: rest)

theorem excCauseReg_engine : ∀ c : Byte, excCauseReg c false true = 0x100 ||| c.setWidth 32 := by decide

section
include hq

theorem headOp_eq : headOp s t (kindUnit o.kind) = some o := by rw [headOp, hq, List.head?_cons]

/-- The head of a queue fails: it and its context's operations not started are gone, and the context has stopped (R178). -/
theorem opFails_head (hr : (ctxOf s t o.job).st = .running) (cause : Byte) : let y := opFails s t o cause
    ctxOf y t o.job = { ctxOf s t o.job with st := .stopped, excCause := 0x100 ||| cause.setWidth 32, excPc := o.pc, excInfo := opInfo o }
    ∧ unitQ (getTile y t) (kindUnit o.kind) = rest.filter (fun p => decide (p.job ≠ o.job) || p.started) ∧ (getTile y t).spad = (getTile s t).spad := by
  have hctx (q : List EngOp) : getCtx (discardOps (setUnitQ (getTile s t) (kindUnit o.kind) q) o.job) o.job = ctxOf s t o.job := by
    rw [ctxOf, getCtx, getCtx, show ∀ y : Tile, (discardOps y o.job).ctx = y.ctx from fun _ => rfl, ctx_setUnitQ]
  refine ⟨?_, ?_, ?_⟩
  · rw [ctxOf, getTile_opFails]
    simp only [hctx, noteExc_running hr, getCtx_putCtx, excCauseReg_engine]
  · rw [getTile_opFails]
    simp only [hctx]
    rw [show ∀ (y : Tile) (c : Ctx), unitQ (putCtx y o.job c) (kindUnit o.kind) = unitQ y (kindUnit o.kind) from fun y c => by cases kindUnit o.kind <;> rfl]
    rw [unitQ_discardOps, unitQ_setUnitQ, hq, List.erase_cons_head]
  · rw [getTile_opFails]
    simp only
    rw [show ∀ (y : Tile) (c : Ctx), (putCtx (discardOps y o.job) o.job c).spad = y.spad from fun _ _ => rfl, spad_setUnitQ]

end

/-- The operation as it starts: it takes the generator's inputs, and waits for its regions' slots (R62-R64, R79). -/
def startedOp (s : State) (t : W16) (o : EngOp) (rs : List Rgn) : EngOp :=
  let x := getTile s t
  let c := ctxOf s t o.job
  { o with started := true, rngSeed := c.rngSeed, rngStep := c.rngStep, rngOp := c.rngOp, watchStep := c.watchStep,
           slotWait := if rs.any (rgnWaits x) then some (o.slotWait.getD s.mod.time) else none }

include hq

theorem opStarts_head (rs : List Rgn) : let y := opStarts s t o rs
    unitQ (getTile y t) (kindUnit o.kind) = startedOp s t o rs :: rest
    ∧ ctxOf y t o.job = (if drawKind o.kind then { ctxOf s t o.job with rngOp := (ctxOf s t o.job).rngOp + 1 } else ctxOf s t o.job)
    ∧ (getTile y t).spad = (getTile s t).spad := by
  have hy : opStarts s t o rs = setHead (if drawKind o.kind then modCtx s t o.job fun c => { c with rngOp := c.rngOp + 1 } else s) t (kindUnit o.kind)
      (startedOp s t o rs) := rfl
  simp only [hy, unitQ_setHead, ctxOf_setHead, spad_setHead]
  cases drawKind o.kind
  case false => exact ⟨by rw [if_neg (by decide), hq]; rfl, rfl, rfl⟩
  case true =>
    simp only [if_true, unitQ_modCtx, ctxOf_modCtx, spad_modCtx, hq, List.tail_cons, and_self]

/-- An operation kept at the head of its queue with another record of its wait. -/
theorem setHead_waits (w : Option W64) : let y := setHead s t (kindUnit o.kind) { o with slotWait := w }
    unitQ (getTile y t) (kindUnit o.kind) = { o with slotWait := w } :: rest ∧ ctxOf y t o.job = ctxOf s t o.job
    ∧ (getTile y t).spad = (getTile s t).spad := by
  simp only [unitQ_setHead, ctxOf_setHead, spad_setHead, hq, List.tail_cons, and_self]

end head

/-! ## Starts (R49, R79, R84, R165, R166) -/

section tryStart
variable {s : State} {t : W16} {o : EngOp} {rs : List Rgn} {free : Bool} {causes : List Byte} {strips : List (Rgn × Bool)}
variable (hs : o.started = false) (hf : free = true) (ho : orderFree (getTile s t) o = true)
include hs hf ho

theorem tryStart_fails {c : Byte} (hc : lowest (causes ++ stripCauses (getTile s t) o.job strips) = some c) :
    tryStart s t o rs free causes strips = opFails s t o c := by
  simp only [tryStart, hs, hf, ho, hc, Bool.not_true, Bool.or_self, Bool.false_eq_true, if_false]

theorem tryStart_waits (hc : lowest (causes ++ stripCauses (getTile s t) o.job strips) = none)
    (hw : (rs.any fun r => r.strip && rgnWaits (getTile s t) r) = true) :
    tryStart s t o rs free causes strips = setHead s t (kindUnit o.kind) { o with slotWait := some (o.slotWait.getD s.mod.time) } := by
  simp only [tryStart, hs, hf, ho, hc, hw, Bool.not_true, Bool.or_self, Bool.false_eq_true, if_false, if_true]

theorem tryStart_starts (hc : lowest (causes ++ stripCauses (getTile s t) o.job strips) = none)
    (hw : (rs.any fun r => r.strip && rgnWaits (getTile s t) r) = false) : tryStart s t o rs free causes strips = opStarts s t o rs := by
  simp only [tryStart, hs, hf, ho, hc, hw, Bool.not_true, Bool.or_self, Bool.false_eq_true, if_false]

end tryStart

section start
variable {s : State} {tile : W16} (hp : tilePresent s tile = true)
include hp

theorem exec_pressStart : exec (.pressStart tile) s = .next (pressTry s tile) := by
  change execPressStart tile s = _
  rw [execPressStart, onTile_present hp]

theorem exec_cvtUnitStart : exec (.cvtUnitStart tile) s = .next (convTry s tile) := by
  change execCvtUnitStart tile s = _
  rw [execCvtUnitStart, onTile_present hp]

theorem exec_wideOpStart : exec (.wideOpStart tile) s = .next (wideTry s tile) := by
  change execWideOpStart tile s = _
  rw [execWideOpStart, onTile_present hp]

theorem exec_unitStart (u : EngUnit) :
    exec (match u with | .press => .pressStart tile | .conv => .cvtUnitStart tile | .wide => .wideOpStart tile) s = .next (unitTry s tile u) := by
  cases u with
  | press => exact exec_pressStart hp
  | conv => exact exec_cvtUnitStart hp
  | wide => exact exec_wideOpStart hp

variable {u : EngUnit} {o : EngOp} (hh : headOp s tile u = some o)
include hh

/-- An operation that waits on slots is tried again, or proceeds once each of its slots lets it (R200). -/
theorem exec_engineSlotResume (hw : o.slotWait.isSome = true) : exec (.engineSlotResume tile u) s = .next (
    if o.started then if (opRegions (getTile s tile) o).any (rgnWaits (getTile s tile)) then s else setHead s tile u { o with slotWait := none }
    else unitTry s tile u) := by
  change execEngineSlotResume tile u s = _
  rw [execEngineSlotResume, onTile_present hp]
  simp only [hh]
  rw [if_neg (by rw [Option.isNone_eq_false_iff.mpr hw]; decide)]
  cases o.started <;> rfl

/-- A wait on slots that has lasted TILE.WAIT_LIMIT fails (R200); a limit of 0 is no limit. -/
theorem exec_slotTimeout {t0 : W64} (ht : o.slotWait = some t0) : exec (.slotTimeout tile u) s = .next (
    if (ctxOf s tile o.job).waitLimit.toNat ≠ 0 ∧ t0.toNat + 1000 * (ctxOf s tile o.job).waitLimit.toNat ≤ now s then opFails s tile o cSlotTimeout else s) := by
  change execSlotTimeout tile u s = _
  rw [execSlotTimeout, onTile_present hp]
  simp only [hh, ht]
  rfl

end start

/-- Settles O26: evalEng's checks in their order; tryStart's three ends at the head of each queue; the end of a wait on slots. -/
theorem engineOperations : Obligations.EngineOperations := by
  constructor
  · intro s h j a hi he x c addr queues
    have hq {i : Instr} {op : BitVec 6} {k : EngKind} (hc : coreSlot i = some (h, .eng op a)) (hk : engKind op = some k) : queues i k := by
      have heval : evalSlot s h.tile j c h.eng false false (slotOf h (.eng op a)) = evalEng s h.tile j c op a := evalSlot_own hi (by rw [he]; rfl)
      dsimp only [queues]
      rw [exec_coreSlot hc]
      refine ⟨fun hr => slotCmd_excRes hi (heval.trans (evalEng_reserved hk hr)), fun hr e hx => ?address, fun ⟨hr, hx⟩ hl => ?full,
        fun ⟨hr, hx⟩ hl hb => ?queues⟩
      case address => exact slotCmd_stops hi (by rw [heval, evalEng_address hk hr hx])
      case full =>
        obtain ⟨act, hact⟩ := evalEng_full hk hr hx hl
        rw [slotCmd_runs hi (heval.trans hact)]
        simp only [he, if_true]
        exact ⟨_, rfl, hold_waits _ _ _ _ _ rfl rfl⟩
      case queues =>
        obtain ⟨hlast, hothers, hpc, hg, hspad⟩ := queueOp_runs s h j (queuedOp x j c k a)
        exact ⟨_, slotCmd_act hi rfl (heval.trans (evalEng_queues hk hr hx hl hb)),
          ⟨_, hlast, rfl, rfl, rfl, rfl, rfl, rfl, rfl, rfl, rfl, rfl⟩, hothers, hpc, hg, hspad⟩
    exact ⟨hq rfl rfl, hq rfl rfl, hq rfl rfl, hq rfl rfl, hq rfl rfl, hq rfl rfl, hq rfl rfl, hq rfl rfl⟩
  · intro s tile o rest x c u failed starts start hp hq
    have hhead : headOp s tile u = some o := headOp_eq hq
    have hstarts {i : Instr} {rs : List Rgn} {free : Bool} {causes : List Byte} {strips : List (Rgn × Bool)}
        (hrun : exec i s = .next (tryStart s tile o rs free causes strips)) : starts i rs free causes strips := by
      dsimp only [starts]
      intro hs hf ho
      rw [hrun]
      refine ⟨fun cz hc hr => ?_, fun hc hw => ?_, fun hc hw => ?_⟩
      · rw [tryStart_fails hs hf ho hc]
        exact ⟨_, rfl, opFails_head hq hr cz⟩
      · rw [tryStart_waits hs hf ho hc hw]
        exact ⟨_, rfl, setHead_waits hq _⟩
      · rw [tryStart_starts hs hf ho hc hw]
        exact ⟨_, rfl, opStarts_head hq rs⟩
    refine ⟨fun hk => hstarts ?press, fun hk => hstarts ?cvt, fun hk => hstarts ?gutter, fun hk => hstarts ?xpose, fun hu => hstarts ?wide,
      fun hw hs => ?again, fun hw hs => ?resume, fun t0 ht hr => ?timeout⟩
    case press =>
      rw [show u = .press by simp only [u, hk, kindUnit]] at hhead
      rw [exec_pressStart hp, pressTry, hhead]
    case cvt | gutter | xpose =>
      rw [show u = .conv by simp only [u, hk, kindUnit]] at hhead
      simp only [exec_cvtUnitStart hp, convTry, hhead, hk, x]
    case wide =>
      rw [hu] at hhead
      rw [exec_wideOpStart hp, wideTry, hhead]
    case again =>
      rw [exec_engineSlotResume hp hhead hw, if_neg (by rw [hs]; decide)]
      exact (exec_unitStart hp u).symm
    case resume =>
      rw [exec_engineSlotResume hp hhead hw, if_pos hs]
      refine ⟨fun hr => by rw [if_pos hr], fun hr => ?_⟩
      rw [if_neg (by rw [hr]; decide)]
      exact ⟨_, rfl, (setHead_waits hq none).1⟩
    case timeout =>
      have hz : c.waitLimit = 0 ↔ c.waitLimit.toNat = 0 := BitVec.toNat_inj.symm
      rw [exec_slotTimeout hp hhead ht]
      refine ⟨fun ⟨h0, hl⟩ => ?_, fun hl => ?_⟩
      · rw [if_pos ⟨mt hz.mpr h0, hl⟩]
        exact ⟨_, rfl, opFails_head hq hr _⟩
      · rw [if_neg fun ⟨h0, h1⟩ => hl.elim (fun h => h0 (hz.mp h)) (Nat.not_lt.mpr h1)]

end Sys2Proof.Machine
end

section
/-!
PROOFS of the statements of the family '07_scratchpad.md': writes of the configuration registers of tiles and of stream objects.
-/
namespace Sys2Proof.Machine
open Sys2Proof

/-! ## Fields of a value whose reserved bits are cleared (R10) -/

/-- A field that the mask keeps whole. -/
theorem fldN_and_of_allOnes {w lo n : Nat} {m : BitVec w} (h : fld m lo n = BitVec.allOnes n) (x : BitVec w) :
    fldN (x &&& m) lo n = x.toNat / 2 ^ lo % 2 ^ n := by
  rw [← fldN_eq_div_mod]
  simp only [fld] at h
  simp only [fldN, BitVec.extractLsb'_and, h, BitVec.and_allOnes]

/-- A bit that the mask keeps. -/
theorem bitAt_and_of_set {w i : Nat} {m : BitVec w} (h : bitAt m i = true) (x : BitVec w) : bitAt (x &&& m) i = bitAt x i := by
  simp only [bitAt] at h
  simp only [bitAt, BitVec.getLsbD_and, h, Bool.and_true]

/-! ## Writes of a tile's registers (R468, R521) -/

section tileWrites
variable {s : State} {t : W16} {f : State → State × Byte}

theorem onTile_tileReg_lost (hp : tilePresent s t = true) (hd : dieReady s (tDie t) = false) :
    onTile t s (fun s => finish (tileReg s t f)) = .next { s with status := cDieLost } := by
  rw [onTile_present hp, tileReg, dieReg_lost hd]
  rfl

theorem onTile_tileReg_fenced (hp : tilePresent s t = true) (hd : dieReady s (tDie t) = true) (hf : (getTile s t).fenced = true) :
    onTile t s (fun s => finish (tileReg s t f)) = .next { s with status := cDestFenced } := by
  rw [onTile_present hp, tileReg, dieReg_ready hd, if_pos hf]
  rfl

theorem onTile_tileReg_takes (h : tileTakes s t = true) : onTile t s (fun s => finish (tileReg s t f)) = .next (finish (f s)) := by
  simp only [tileTakes, Bool.and_eq_true, Bool.not_eq_true'] at h
  obtain ⟨⟨hp, hd⟩, hf⟩ := h
  rw [onTile_present hp, tileReg, dieReg_ready hd, if_neg (Bool.eq_false_iff.mp hf)]

end tileWrites

/-- What the four configuration writes of a tile answer where the tile takes none. -/
theorem exec_tileCfg_of_onTile {s : State} {t : W16} {o : Host.Outcome State Fault Refusal}
    (h : ∀ f, onTile t s (fun s => finish (tileReg s t f)) = o) (w : Writer) (v : W32) (v64 : W64) (k : BitVec 6) (q : BitVec 3) :
    exec (.tileShareWrite w t v) s = o ∧ exec (.acntCfgWrite w t k v) s = o ∧ exec (.slotCfgWrite w t k v64) s = o ∧ exec (.hqCfgWrite w t q v) s = o :=
  ⟨h _, h _, h _, h _⟩

section takes
variable {s : State} {t : W16} (h : tileTakes s t = true) (w : Writer)
include h

theorem exec_tileShareWrite_takes (v : W32) : exec (.tileShareWrite w t v) s = .next (finish (writeShare s t v)) := onTile_tileReg_takes h

theorem exec_acntCfgWrite_takes (k : BitVec 6) (v : W32) : exec (.acntCfgWrite w t k v) s = .next (finish (writeAcntCfg s t k.toNat v)) :=
  onTile_tileReg_takes h

theorem exec_slotCfgWrite_takes (k : BitVec 6) (v : W64) : exec (.slotCfgWrite w t k v) s = .next (finish (writeSlotCfg s t k.toNat v)) :=
  onTile_tileReg_takes h

theorem exec_hqCfgWrite_takes (q : BitVec 3) (v : W32) : exec (.hqCfgWrite w t q v) s = .next (finish (writeHqCfg s t q.toNat v)) :=
  onTile_tileReg_takes h

end takes

/-! ## Shares (R187, R191) -/

/-- The checks of TILE.SHARE in their order. -/
theorem writeShare_eq (s : State) (t : W16) (v : W32) :
    writeShare s t v = if 16 < v.toNat % 32 then (s, stInvalid) else if shareBusy (getTile s t) (v &&& 0xF1F) then (s, stCfgBusy)
      else (modTile s t fun x => { x with regs := { x.regs with share := v &&& 0xF1F } }, stOk) := by
  have hsize : fldN (v &&& 0xF1F) 0 5 = v.toNat % 32 := by
    rw [fldN_and_of_allOnes (by decide), Nat.pow_zero, Nat.div_one]
    rfl
  simp only [writeShare, hsize]

/-! ## Arrival counters (R192) -/

/-- A write that enables a disabled counter starts it at 0. -/
theorem writeAcntCfg_eq (s : State) (t : W16) (k : Nat) (v : W32) :
    writeAcntCfg s t k v = (modTile s t fun x =>
      let a := getAcnt (getTile s t) k
      putAcnt x k { a with enable := bitAt v 31, owner := v.setWidth 2, value := if bitAt v 31 = true ∧ a.enable = false then 0 else a.value }, stOk) := by
  simp only [writeAcntCfg, modTile, fld_zero_eq_setWidth, Bool.and_eq_true, Bool.not_eq_true']

/-! ## Slots (R196, R197) -/

/-- The reserved bits of SLOT.CFG are not the enable bit. -/
theorem bitAt_slotCfg (v : W64) : bitAt (v &&& 0xFFFFFFFC1FFFFFFF) 63 = bitAt v 63 := bitAt_and_of_set (by decide) v

/-- The checks of SLOT.CFG in their order; the reserved bits are cleared in what is stored. -/
theorem writeSlotCfg_eq (s : State) (t : W16) (k : Nat) (v : W64) :
    writeSlotCfg s t k v =
      let c := v &&& 0xFFFFFFFC1FFFFFFF
      let y := getSlot (getTile s t) k
      let o := (ctxOf s t (slotOwner y)).st
      let go := (putTile s t (putSlot (getTile s t) k (slotWith y c)), stOk)
      if 2047 < v.toNat / 2 ^ 17 % 2 ^ 12 then (s, stInvalid)
      else if bitAt v 63 = false ∧ (o = .stopped ∨ o = .halted ∨ o = .empty) then go
      else if slotEnabled y = true ∧ y.st ≠ .empty then (s, stCfgBusy)
      else if slotNamed s t k then (s, stCfgBusy)
      else if bitAt v 63 = true ∧ slotInShare (getTile s t) c = false then (s, stCfgBusy)
      else go := by
  have hsize : fldN (v &&& 0xFFFFFFFC1FFFFFFF) 17 12 = v.toNat / 2 ^ 17 % 2 ^ 12 := fldN_and_of_allOnes (by decide) v
  simp only [writeSlotCfg, hsize, bitAt_slotCfg, Bool.and_eq_true, Bool.not_eq_true', decide_eq_true_eq, ctxOf]
  rfl

theorem slotWith_disable (y : Slot) {c : W64} (h : bitAt c 63 = false) :
    slotWith y c = if slotEnabled y then { y with cfg := c, gen := y.gen + 1 } else y := if_neg (by simp [h])

theorem slotWith_enable {y : Slot} {c : W64} (h : bitAt c 63 = true) (hy : slotEnabled y = false) :
    slotWith y c = { y with cfg := c, st := .empty, filled := 0, drainWait := false } := by
  rw [slotWith, if_pos h, if_neg (Bool.eq_false_iff.mp hy)]

/-! ## Handle queues (R283) -/

theorem writeHqCfg_busy {s : State} {t : W16} {n : Nat} {v : W32} (he : hqEnabled (getHq (getTile s t) n) = true)
    (hh : (getHq (getTile s t) n).handles ≠ []) : writeHqCfg s t n v = (s, stCfgBusy) :=
  if_pos (by simp [he, hh])

theorem writeHqCfg_disabled {s : State} {t : W16} {n : Nat} {v : W32} (he : hqEnabled (getHq (getTile s t) n) = false) :
    writeHqCfg s t n v = (modTile s t fun x => putHq x n { getHq (getTile s t) n with
      cfg := v &&& 0xE0000000, handles := if bitAt v 31 then [] else (getHq (getTile s t) n).handles, draining := false }, stOk) := by
  have hon : bitAt (v &&& 0xE0000000) 31 = bitAt v 31 := bitAt_and_of_set (by decide) v
  simp only [writeHqCfg, he, hon, Bool.false_and, Bool.false_eq_true, if_false, Bool.not_false, Bool.and_true]

/-! ## Stream queue contexts and reaches (R284, R289) -/

section dieWrites
variable {s : State} {d : Fin 12} (w : Writer) (v : W64)

theorem exec_stqCfgWrite_lost (h : dieReady s d = false) (q : BitVec 12) : exec (.stqCfgWrite w d q v) s = .next { s with status := cDieLost } :=
  congrArg (fun r => Host.Outcome.next (finish r)) (dieReg_lost h)

theorem exec_stqCfgWrite_ready (h : dieReady s d = true) (q : BitVec 12) : exec (.stqCfgWrite w d q v) s = .next (finish (writeStqCfg s d q v)) :=
  congrArg (fun r => Host.Outcome.next (finish r)) (dieReg_ready h)

theorem exec_reachCfgWrite_lost (h : dieReady s d = false) (n : BitVec 10) : exec (.reachCfgWrite w d n v) s = .next { s with status := cDieLost } :=
  congrArg (fun r => Host.Outcome.next (finish r)) (dieReg_lost h)

theorem exec_reachCfgWrite_ready (h : dieReady s d = true) (n : BitVec 10) :
    exec (.reachCfgWrite w d n v) s = .next (finish (writeReachCfg s (secureWriter w) d n v)) :=
  congrArg (fun r => Host.Outcome.next (finish r)) (dieReg_ready h)

end dieWrites

/-- The checks of STQ.CFG in their order. -/
theorem writeStqCfg_eq (s : State) (die : Nat) (q : BitVec 12) (v : W64) :
    writeStqCfg s die q v =
      let c := v &&& 0xFFFFFFF800000000
      if v.toNat / 2 ^ 59 % 4 = 3 then (s, stInvalid)
      else if (getStq (getDie s die) q).st ≠ .disabled then (s, stCfgBusy)
      else (modDie s die fun d => putStq d q (if bitAt v 63 then { Stq.reset with cfg := c, st := .active }
        else { getStq (getDie s die) q with cfg := c }), stOk) := by
  have hkind : fldN (v &&& 0xFFFFFFF800000000) 59 2 = v.toNat / 2 ^ 59 % 4 := fldN_and_of_allOnes (by decide) v
  have hon : bitAt (v &&& 0xFFFFFFF800000000) 63 = bitAt v 63 := bitAt_and_of_set (by decide) v
  simp only [writeStqCfg, hkind, hon]

/-- The checks of REACH.CFG in their order. -/
theorem writeReachCfg_eq (s : State) (world : Bool) (die : Nat) (n : BitVec 10) (v : W64) :
    writeReachCfg s world die n v =
      let c := v &&& 0xFFE0FFFFFFFF0000
      let y := getReach (getDie s die) n
      if v.toNat / 2 ^ 32 % 2 ^ 16 = 0 then (s, stInvalid)
      else if reachOn y then (s, stCfgBusy)
      else if bitAt v 63 = true ∧ reachOk s die y c = false then (s, stInvalid)
      else (modDie s die fun d => putReach d n { y with cfg := c, world, st := if bitAt v 63 then .idle else y.st }, stOk) := by
  have hpasses : fldN (v &&& 0xFFE0FFFFFFFF0000) 32 16 = v.toNat / 2 ^ 32 % 2 ^ 16 := fldN_and_of_allOnes (by decide) v
  have hon : bitAt (v &&& 0xFFE0FFFFFFFF0000) 63 = bitAt v 63 := bitAt_and_of_set (by decide) v
  simp only [writeReachCfg, hpasses, hon, Bool.and_eq_true, Bool.not_eq_true']

/-- Settles O31: the die and the fence first, then each register's own checks in their order. -/
theorem tileAndStreamConfiguration : Obligations.TileAndStreamConfiguration := by
  refine ⟨fun s w tile v v64 k q hp => ⟨fun hd => ?lost, fun hd hf => ?fenced, fun h => ⟨?big, ?moved, ?share, ?acnt, ?slot, ?hq⟩⟩,
    fun s w die q n v => ⟨fun hd => ?down, fun hd => ⟨?kind, ?used, ?active, ?passes, ?on, ?reach⟩⟩⟩
  case lost => exact exec_tileCfg_of_onTile (fun _ => onTile_tileReg_lost hp hd) w v v64 k q
  case fenced => exact exec_tileCfg_of_onTile (fun _ => onTile_tileReg_fenced hp hd hf) w v v64 k q
  case big =>
    intro hv
    rw [exec_tileShareWrite_takes h, writeShare_eq, if_pos hv]
    rfl
  case moved =>
    intro hv hb
    rw [exec_tileShareWrite_takes h, writeShare_eq, if_neg (Nat.not_lt.mpr hv), if_pos hb]
    rfl
  case share =>
    intro hv hb
    dsimp only
    rw [exec_tileShareWrite_takes h, writeShare_eq, if_neg (Nat.not_lt.mpr hv), if_neg (Bool.eq_false_iff.mp hb)]
    rfl
  case acnt =>
    dsimp only
    rw [exec_acntCfgWrite_takes h, writeAcntCfg_eq]
    rfl
  case slot =>
    dsimp only
    rw [exec_slotCfgWrite_takes h, writeSlotCfg_eq]
    refine ⟨fun hv => ?size, fun hv hoff ho => ?off, fun hv hon he hst => ?full, fun hv hon hfree hn => ⟨fun hs => ?outside, fun hs he => ?enable⟩⟩
    case size =>
      dsimp only
      rw [if_pos hv]
      rfl
    case off =>
      dsimp only
      rw [if_neg (Nat.not_lt.mpr hv), if_pos ⟨hoff, ho⟩, slotWith_disable _ ((bitAt_slotCfg v64).trans hoff)]
      rfl
    all_goals
      dsimp only
      rw [if_neg (Nat.not_lt.mpr hv), if_neg fun ⟨hoff, _⟩ => Bool.eq_false_iff.mp hoff hon]
    case full =>
      rw [if_pos ⟨he, hst⟩]
      rfl
    all_goals rw [if_neg fun ⟨he, hst⟩ => hfree.elim (fun hd => Bool.eq_false_iff.mp hd he) hst, if_neg (Bool.eq_false_iff.mp hn)]
    case outside =>
      rw [if_pos ⟨hon, hs⟩]
      rfl
    case enable =>
      rw [if_neg fun ⟨_, hout⟩ => Bool.eq_false_iff.mp hout hs, slotWith_enable ((bitAt_slotCfg v64).trans hon) he]
      rfl
  case hq =>
    dsimp only
    rw [exec_hqCfgWrite_takes h]
    refine ⟨fun he hh => ?_, fun he => ?_⟩
    · rw [writeHqCfg_busy he hh]
      rfl
    · rw [writeHqCfg_disabled he]
      rfl
  case down => exact ⟨exec_stqCfgWrite_lost w v hd q, exec_reachCfgWrite_lost w v hd n⟩
  case kind =>
    intro hk
    rw [exec_stqCfgWrite_ready w v hd, writeStqCfg_eq, if_pos hk]
    rfl
  case used =>
    intro hk hx
    rw [exec_stqCfgWrite_ready w v hd, writeStqCfg_eq, if_neg hk, if_pos hx]
    rfl
  case active =>
    intro hk hx hon
    rw [exec_stqCfgWrite_ready w v hd, writeStqCfg_eq, if_neg hk, if_neg (not_not_intro hx), if_pos hon]
    rfl
  case passes =>
    intro hn
    rw [exec_reachCfgWrite_ready w v hd, writeReachCfg_eq, if_pos hn]
    rfl
  case on =>
    intro hn hr
    rw [exec_reachCfgWrite_ready w v hd, writeReachCfg_eq, if_neg hn, if_pos hr]
    rfl
  case reach =>
    intro hn hr hon
    dsimp only
    rw [exec_reachCfgWrite_ready w v hd, writeReachCfg_eq, if_neg hn, if_neg (Bool.eq_false_iff.mp hr)]
    refine ⟨fun hok => ?_, fun hok => ?_⟩
    · rw [if_pos ⟨hon, hok⟩]
      rfl
    · rw [if_neg fun ⟨_, hbad⟩ => Bool.eq_false_iff.mp hbad hok, if_pos hon]
      rfl

end Sys2Proof.Machine
end

section
/-!
PROOFS of the statements of the family '08_exchange.md': exchange phases.
-/
namespace Sys2Proof.Machine
open Sys2Proof

/-! ## The phase that a tile runs (R206, R215) -/

section phase
variable (s : State) (t : W16) (j : BitVec 2)

theorem getExch_setExch (e : Option Exch) : getExch (setExch s t e) t = e := by rw [getExch, setExch, getTile_modTile]

theorem ctxOf_setExch (e : Option Exch) : ctxOf (setExch s t e) t j = ctxOf s t j := ctxOf_of_ctx (by rw [setExch, getTile_modTile]) j

theorem getExch_modCtx (f : Ctx → Ctx) : getExch (modCtx s t j f) t = getExch s t := by
  rw [getExch, modCtx, getTile_modTile]
  rfl

/-- The tile of a deferred exception: its context's operations not started are gone, and the context notes the exception (R178, R179). -/
theorem getTile_excDeferred (eng : Bool) (cause : Byte) (pc info : W64) (injected : Bool) : getTile (excDeferred s t j eng cause pc info injected) t
    = putCtx (discardOps (getTile s t) j) j (noteExc (ctxOf s t j) cause false eng pc info) := by
  rw [excDeferred, (SameButLog.paused _ _).getTile, raiseDeferred, getTile_putErr _ _ (by simp [excErr]), getTile_modTile]
  rfl

theorem getExch_excDeferred (eng : Bool) (cause : Byte) (pc info : W64) (injected : Bool) :
    getExch (excDeferred s t j eng cause pc info injected) t = getExch s t := by
  rw [getExch, getTile_excDeferred]
  rfl

theorem ctxOf_excDeferred (eng : Bool) (cause : Byte) (pc info : W64) (injected : Bool) :
    ctxOf (excDeferred s t j eng cause pc info injected) t j = noteExc (ctxOf s t j) cause false eng pc info := by
  rw [ctxOf, getTile_excDeferred, getCtx_putCtx]

theorem getTile_failExch (e : Exch) (cause : Byte) : ∃ y, getTile (failExch s t e cause) t = { getTile s t with eng := y }
    ∧ y.exch = some { e with failed := some cause, next := e.count } :=
  ⟨_, by rw [failExch, setExch, getTile_modTile, getTile_modTile]; rfl, rfl⟩

theorem exchDone_iff {e : Exch} (he : getExch s t = some e) : exchDone s t = decide (e.count ≤ e.next) := by rw [exchDone, he]

end phase

/-! ## EXCH issues (R206, R211, R215) -/

section issue
variable {s : State} {h : SlotHdr} {j : BitVec 2} {gA : BitVec 5}

theorem evalExch_misaligned {t : W16} {c : Ctx} (ha : (getG c gA).toNat % 64 ≠ 0) : evalExch s t j c gA false = excRes cMisaligned (getG c gA) := by
  simp only [evalExch, Bool.false_eq_true, if_false, if_pos ha]

variable {t : W16} {c : Ctx} (ha : (getG c gA).toNat % 64 = 0)
include ha

theorem evalExch_range (hs : inShare (getTile s t) j (getG c gA).toNat 16 = false) : evalExch s t j c gA false = excRes cAddrRange (getG c gA) := by
  simp [evalExch, ha, hs]

variable (hs : inShare (getTile s t) j (getG c gA).toNat 16 = true)
include hs

theorem evalExch_ecc (hb : spadBad (getTile s t) (getG c gA).toNat 16 = true) :
    evalExch s t j c gA false = { act := fun s => excDeferred s t j true cSpadEcc c.pc 0 false } := by
  simp [evalExch, ha, hs, hb]

variable (hb : spadBad (getTile s t) (getG c gA).toNat 16 = false)
include hb

theorem evalExch_header {cause : Byte} (hh : headerCheck s (quad (getTile s t) (getG c gA).toNat) = some cause) :
    evalExch s t j c gA false = { act := fun s => excDeferred s t j true cause c.pc 0 false } := by
  simp [evalExch, ha, hs, hb, hh]

theorem evalExch_starts (hh : headerCheck s (quad (getTile s t) (getG c gA).toNat) = none) : evalExch s t j c gA false
    = { blocked := true, start := exchStart t j (getG c gA) ((quad (getTile s t) (getG c gA).toNat).toNat % 8192) c.pc } := by
  simp [evalExch, ha, hs, hb, hh, fldN_eq_div_mod]

end issue

section issue
variable {s : State} {h : SlotHdr} {j : BitVec 2} {gA : BitVec 5} (hi : canIssue s h j = true) (he : h.eng = true)
include hi he

theorem evalSlot_exch : evalSlot s h.tile j (ctxOf s h.tile j) h.eng false false (slotOf h (.xfer 0 gA 0 0)) = evalExch s h.tile j (ctxOf s h.tile j) gA false :=
  evalSlot_own hi (by rw [he]; rfl)

/-- An EXCH that fails a check at issue stops its context. -/
theorem exec_exch_excRes {cause : Byte} {info : W64} (hr : evalExch s h.tile j (ctxOf s h.tile j) gA false = excRes cause info) :
    exec (.exch h gA) s = .next (stopped s h j cause info) := by
  rw [exec_coreSlot rfl]
  exact slotCmd_excRes hi ((evalSlot_exch hi he).trans hr)

/-- An EXCH that starts no phase retires and does its one effect. -/
theorem exec_exch_act {act : State → State} (hr : evalExch s h.tile j (ctxOf s h.tile j) gA false = { act }) :
    exec (.exch h gA) s = .next (act (advance s h j id)) := by
  rw [exec_coreSlot rfl]
  exact slotCmd_act hi rfl ((evalSlot_exch hi he).trans hr)

/-- An EXCH that starts its phase holds its bundle. -/
theorem exec_exch_holds {start : State → State} (hr : evalExch s h.tile j (ctxOf s h.tile j) gA false = { blocked := true, start }) :
    exec (.exch h gA) s = .next (hold s h.tile j (decodeSlot h.mate) (slotOf h (.xfer 0 gA 0 0)) {} { blocked := true, start }) := by
  rw [exec_coreSlot rfl, slotCmd_runs hi ((evalSlot_exch hi he).trans hr)]
  simp [he, bundleOf]

end issue

/-- The phase that an EXCH of n entries at a begins. -/
def startedExch (s : State) (t : W16) (j : BitVec 2) (a : W64) (n : Nat) (pc : W64) : Exch :=
  { job := j, addr := a, count := n, next := 0, startCycle := (tileHalf s t).cycles, since := s.mod.time, pc, failed := none, run := (getTile s t).eng.runs + 1 }

/-- A held EXCH begins its phase; its context waits with PC at it, and no block enters the network. -/
theorem hold_exchStart (s : State) (t : W16) (j : BitVec 2) (ctl eng : SlotWord) (a : W64) (n : Nat) (pc : W64) :
    let u := hold s t j ctl eng {} { blocked := true, start := exchStart t j a n pc }
    getExch u t = some (startedExch s t j a n pc)
    ∧ (ctxOf u t j).wait.isSome = true ∧ (ctxOf u t j).pc = (ctxOf s t j).pc ∧ (ctxOf u t j).g = (ctxOf s t j).g ∧ u.net.blocks = s.net.blocks := by
  have hctx (v : State) : ctxOf (exchStart t j a n pc v) t j = ctxOf v t j := ctxOf_of_ctx (by rw [exchStart, getTile_modTile]; rfl) j
  have hexch (v : State) : getExch (exchStart t j a n pc v) t = some (startedExch v t j a n pc) := by
    rw [getExch, exchStart, getTile_modTile]
    rfl
  have hsame (f : Ctx → Ctx) : startedExch (modCtx s t j f) t j a n pc = startedExch s t j a n pc := by
    rw [startedExch, modCtx, getTile_modTile]
    rfl
  simp only [hold, id_eq, getExch_modCtx, ctxOf_modCtx, hctx, hexch, hsame, true_and]
  exact ⟨rfl, rfl⟩

/-! ## The next entry of a phase (R215, R217, R218) -/

/-- FOLIO_ENTRY_ISSUE where the phase goes on. -/
theorem exec_folioEntryIssue_goes {s u : State} {tile : W16} {e e' : Exch} (hp : tilePresent s tile = true) (he : getExch s tile = some e)
    (hn : e.next < e.count) (hu : issueEntry s tile e = u) (hx : getExch u tile = some e') (hf' : e'.failed = none) :
    exec (.folioEntryIssue tile) s = .next u := by
  change execFolioEntryIssue tile s = _
  rw [execFolioEntryIssue, onTile_present hp]
  simp [he, hn, hu, hx, hf']

section entry
variable {s : State} {t : W16} {e : Exch} {q : BitVec 128}
variable (hq : quad (getTile s t) (e.addr.toNat + 16 + 16 * e.next) = q) (hs : inShare (getTile s t) e.job (e.addr.toNat + 16 + 16 * e.next) 16 = true)
variable (hb : spadBad (getTile s t) (e.addr.toNat + 16 + 16 * e.next) 16 = false) (hc : entryCheck s t e.job q = none)
include hq hs hb hc

theorem issueEntry_waits (hw : (tileHalf s t).cycles.toNat < e.startCycle.toNat + q.toNat / 2 ^ 108 % 2 ^ 16 ∨ readWaits (getTile s t) (sendSrc q) = true) :
    issueEntry s t e = s := by
  subst hq
  simp only [issueEntry, hs, hb, hc, fldN_eq_div_mod, Bool.not_true, Bool.false_eq_true, if_false]
  exact if_pos hw

/-- The entry issues: its block takes the next number, SEND counts, and the phase moves on. -/
theorem issueEntry_issues {via : List Nat} (hd : e.startCycle.toNat + q.toNat / 2 ^ 108 % 2 ^ 16 ≤ (tileHalf s t).cycles.toNat)
    (hr : readWaits (getTile s t) (sendSrc q) = false) (hready : sendKind q = 1 ∧ sendMod q = 0 → dieReady s (tDie (sendDest q)) = true)
    (hv : entryRoute s t q = some via) (hfree : let b := blockOf s t e.job e.run q (entryDst s t q) via; bufFree s b.pos 0 (blkClass b) = true ∧ b.bad = none) :
    ∃ late, issueEntry s t e = setExch (modTile (addBlk s (blockOf s t e.job e.run q (entryDst s t q) via)) t fun x =>
      { x with regs := { x.regs with sent := x.regs.sent + 1, late } }) t (some { e with next := e.next + 1 }) := by
  obtain ⟨hbuf, hbad⟩ := hfree
  have hw : ¬ ((tileHalf s t).cycles.toNat < e.startCycle.toNat + q.toNat / 2 ^ 108 % 2 ^ 16 ∨ readWaits (getTile s t) (sendSrc q) = true) := by
    rw [hr, not_or]
    exact ⟨Nat.not_lt.mpr hd, Bool.false_ne_true⟩
  have hlost : ¬ (sendKind q = 1 ∧ sendMod q = 0 ∧ (!dieReady s (tDie (sendDest q))) = true) := fun ⟨hk, hm, hn⟩ => by
    rw [hready ⟨hk, hm⟩] at hn
    exact Bool.false_ne_true hn
  subst hq
  refine ⟨if e.startCycle.toNat + fldN (quad (getTile s t) (e.addr.toNat + 16 + 16 * e.next)) 108 16 + 64 < (tileHalf s t).cycles.toNat
    then (getTile s t).regs.late + 1 else (getTile s t).regs.late, ?_⟩
  rw [fldN_eq_div_mod]
  simp only [issueEntry, hs, hb, hc, fldN_eq_div_mod, Bool.not_true, Bool.false_eq_true, if_false, if_neg hw, if_neg hlost, hv, hbuf, hbad, Option.isSome_none]
  rfl

end entry

/-! ## The bundle that an EXCH holds (R158, R207, R397) -/

section held
variable {s : State} {tile : W16} {j : BitVec 2} {op : SlotOp} {w : WaitRec}

theorem heldBy_engine (hb : heldBy s tile j true op w = true) :
    tilePresent s tile = true ∧ runningCtx (getTile s tile) = some j ∧ (ctxOf s tile j).wait = some w ∧ w.arrived = true ∧ w.eng.op = op
    ∧ guardTrue (ctxOf s tile j) w.eng = true ∧ w.eng.rsv = false ∧ slotIdle (ctxOf s tile j) w.ctl = true ∧ switchDue s tile j = false := by
  simpa [heldBy, ctxOf, and_assoc] using hb

/-- A bundle stays held while nothing but the engines of its tile changes. -/
theorem heldBy_of_eng {u : State} {eng : Bool} {y : TileEng} (hm : u.mod = s.mod) (hh : u.halves = s.halves) (hj : u.jobs = s.jobs)
    (hx : getTile u tile = { getTile s tile with eng := y }) : heldBy u tile j eng op w = heldBy s tile j eng op w := by
  simp only [heldBy, switchDue, tilePresent, diePresent, tileHalf, getHalf, getJob, hm, hh, hj, hx]
  rfl

/-- A bundle with an effective engine slot that is held ends at no switch point of its own. -/
theorem keepsPoint_engine (hb : heldBy s tile j true op w = true) : keepsPoint (ctxOf s tile j) w.ctl w.eng = false := by
  obtain ⟨-, -, -, -, -, hg, -, hm, -⟩ := heldBy_engine hb
  cases hc : guardTrue (ctxOf s tile j) w.ctl with
  | false => simp [keepsPoint, hg, hc]
  | true =>
    obtain ⟨hn, -⟩ : isNop w.ctl.op = true ∧ w.ctl.rsv = false := by simpa [slotIdle, hc] using hm
    have hw : isWaitOp w.ctl.op = false := by cases ho : w.ctl.op <;> simp_all [isNop, isWaitOp]
    simp [keepsPoint, hg, hw]

/-- The held bundle of a phase that is done retires, and then its phase ends. -/
theorem tryRetire_exch {gA : BitVec 5} (hb : heldBy s tile j true (.xfer 0 gA 0 0) w = true) (hd : exchDone s tile = true) :
    tryRetire s tile j = exchEnd tile j (retire s tile j w.ctl w.eng {} {}) := by
  obtain ⟨-, -, hw, ha, ho, hg, hr, hm, hsw⟩ := heldBy_engine hb
  have hctl : evalSlot s tile j (ctxOf s tile j) false true true w.ctl = {} := evalSlot_slotIdle hm _ _ _
  have heng : evalSlot s tile j (ctxOf s tile j) true true true w.eng = { act := exchEnd tile j } := by
    simp [evalSlot, hg, hr, ho, classAllowed, evalXfer, evalExch, hd]
  rw [ctxOf] at hw hctl heng
  simp only [tryRetire, hw, hsw, Bool.false_eq_true, if_false, runBundle, ha, hctl, heng]
  rfl

theorem getExch_retire (ctl eng : SlotWord) : getExch (retire s tile j ctl eng {} {}) tile = getExch s tile := by
  rw [getExch, retire, putStore_none, putStore_none]
  simp only [id_eq, getTile_modTile]
  rfl

theorem ctxOf_retire (ctl eng : SlotWord) : ctxOf (retire s tile j ctl eng {} {}) tile j = { ctxOf s tile j with
    pc := (ctxOf s tile j).pc + 16, bundles := (ctxOf s tile j).bundles + 1, wait := none,
    switchPt := (ctxOf s tile j).switchPt && keepsPoint (ctxOf s tile j) ctl eng } := by
  rw [ctxOf, retire, putStore_none, putStore_none]
  simp only [id_eq, getTile_modTile]
  exact getCtx_putCtx _ _ _

/-- At a boundary where no yield is listed the context counts it and stands at a switch point (R397, R409). -/
theorem exchEnd_boundary {e : Exch} (he : getExch s tile = some e) (hf : e.failed = none) (hr : (ctxOf s tile j).st = .running)
    (hy : (ctxOf s tile j).yent = none) : getExch (exchEnd tile j s) tile = none
    ∧ ctxOf (exchEnd tile j s) tile j = { ctxOf s tile j with switchPt := true, xbCount := (ctxOf s tile j).xbCount + 1 } := by
  let u := modCtx (setExch s tile none) tile j fun c => { c with switchPt := true }
  have hu : ctxOf u tile j = { ctxOf s tile j with switchPt := true } := by rw [ctxOf_modCtx, ctxOf_setExch]
  have hend : exchEnd tile j s = modCtx u tile j fun c => { c with xbCount := c.xbCount + 1 } := by
    have hrun : (getCtx (getTile u tile) j).st = .running := by rw [← ctxOf, hu]; exact hr
    have hent : (getCtx (getTile u tile) j).yent = none := by rw [← ctxOf, hu]; exact hy
    simp only [exchEnd, he, hf]
    rw [if_pos hrun, yieldBoundary]
    simp only [u] at hent
    simp only [hent]
    rfl
  rw [hend, getExch_modCtx, getExch_modCtx, getExch_setExch, ctxOf_modCtx, hu]
  exact ⟨rfl, rfl⟩

/-- A phase that failed ends with its deferred exception (R178, R215). -/
theorem exchEnd_failed {e : Exch} {cause : Byte} (he : getExch s tile = some e) (hf : e.failed = some cause) (hr : (ctxOf s tile j).st = .running) :
    getExch (exchEnd tile j s) tile = none
    ∧ ctxOf (exchEnd tile j s) tile j = { ctxOf s tile j with st := .stopped, excCause := 0x100 ||| cause.setWidth 32, excPc := e.pc, excInfo := 0 } := by
  simp only [exchEnd, he, hf]
  rw [getExch_excDeferred, getExch_setExch, ctxOf_excDeferred, ctxOf_setExch, noteExc_running hr, excCauseReg_engine]
  exact ⟨rfl, rfl⟩

section ends
variable {gA : BitVec 5} {e : Exch} (hb : heldBy s tile j true (.xfer 0 gA 0 0) w = true) (he : getExch s tile = some e)
include hb he

/-- EXCH_BOUNDARY before the last entry has issued. -/
theorem exec_exchBoundary_early (hn : e.next < e.count) : exec (.exchBoundary tile) s = .next s := by
  obtain ⟨hp, -⟩ := heldBy_engine hb
  change execExchBoundary tile s = _
  rw [execExchBoundary, onTile_present hp]
  simp [he, exchDone_iff s tile he, Nat.not_le.mpr hn]

variable (hj : e.job = j)
include hj

/-- EXCH_BOUNDARY of a phase whose entries have all issued. -/
theorem exec_exchBoundary_done (hn : e.count ≤ e.next) :
    exec (.exchBoundary tile) s = .next (exchEnd tile j (retire s tile j w.ctl w.eng {} {})) := by
  obtain ⟨hp, -⟩ := heldBy_engine hb
  have hd : exchDone s tile = true := by rw [exchDone_iff s tile he, decide_eq_true hn]
  change execExchBoundary tile s = _
  rw [execExchBoundary, onTile_present hp]
  simp only [he, hd, if_true, hj, tryRetire_exch hb hd]

/-- XCH_TIMEOUT past the limit: the phase fails, and its bundle retires. -/
theorem exec_xchTimeout_due (hn : e.next < e.count) (hl : (ctxOf s tile j).waitLimit ≠ 0)
    (ht : e.since.toNat + 1000 * (ctxOf s tile j).waitLimit.toNat ≤ now s) : exec (.xchTimeout tile) s
      = .next (exchEnd tile j (retire (failExch s tile e cXchTimeout) tile j w.ctl w.eng {} {})) := by
  obtain ⟨hp, -⟩ := heldBy_engine hb
  obtain ⟨y, hy, hx⟩ := getTile_failExch s tile e cXchTimeout
  have hb' : heldBy (failExch s tile e cXchTimeout) tile j true (.xfer 0 gA 0 0) w = true := (heldBy_of_eng (s := s) (u := failExch s tile e cXchTimeout) rfl rfl rfl hy).trans hb
  have hd : exchDone (failExch s tile e cXchTimeout) tile = true := by simp [exchDone, getExch, hy, hx]
  have hl' : (ctxOf s tile j).waitLimit.toNat ≠ 0 := fun h => hl (BitVec.eq_of_toNat_eq h)
  rw [ctxOf] at hl' ht
  change execXchTimeout tile s = _
  rw [execXchTimeout, onTile_present hp]
  simp only [he, hj, hn, hl', ht, ne_eq, not_false_eq_true, and_self, if_true, tryRetire_exch hb' hd]

end ends

end held

/-- Settles O16: the checks of EXCH at issue, the next entry that waits or issues, and the end of a phase at its boundary or its limit. -/
theorem exchanges : Obligations.Exchanges := by
  unfold Obligations.Exchanges
  refine ⟨fun s h j gA hi he => ?start, fun s tile e via => ?entry, fun s tile j w gA e => ?ends⟩
  case start =>
    dsimp only
    refine ⟨fun ha => exec_exch_excRes hi he (evalExch_misaligned ha), fun ha hs => exec_exch_excRes hi he (evalExch_range ha hs),
      fun ha hs hb => exec_exch_act hi he (evalExch_ecc ha hs hb),
      fun ha hs hb => ⟨fun cause hh => exec_exch_act hi he (evalExch_header ha hs hb hh), fun hh => ⟨_, exec_exch_holds hi he (evalExch_starts ha hs hb hh), ?_⟩⟩⟩
    exact hold_exchStart s h.tile j _ _ _ _ _
  case entry =>
    intro x q due b hp he hn hf hs hb hc
    refine ⟨fun hw => exec_folioEntryIssue_goes hp he hn (issueEntry_waits rfl hs hb hc hw) he hf, fun hd hr hready hv hfree hbad => ?_⟩
    obtain ⟨late, hu⟩ := issueEntry_issues rfl hs hb hc hd hr hready hv ⟨hfree, hbad⟩
    refine ⟨_, exec_folioEntryIssue_goes hp he hn hu (getExch_setExch ..) hf, getExch_setExch .., rfl, ?_, ?_, ?_⟩
    · rw [setExch, getTile_modTile, getTile_modTile]
      rfl
    · simp only [b, blockOf, sendLen, fldN_eq_div_mod]
      rfl
    · rw [setExch, getTile_modTile, getTile_modTile]
      rfl
  case ends =>
    intro c hb he hj hf hy
    obtain ⟨-, hrun, -⟩ := heldBy_engine hb
    have hst : c.st = .running := runningCtx_st hrun
    have hk : (c.switchPt && keepsPoint c w.ctl w.eng) = false := by rw [keepsPoint_engine hb, Bool.and_false]
    refine ⟨fun hn => ⟨_, exec_exchBoundary_done hb he hj hn, ?boundary⟩, fun hn => exec_exchBoundary_early hb he hn,
      fun hn hl ht => ⟨_, exec_xchTimeout_due hb he hj hn hl ht, ?limit⟩⟩
    case boundary =>
      have hr := ctxOf_retire (s := s) (tile := tile) (j := j) w.ctl w.eng
      obtain ⟨hend, hctx⟩ := exchEnd_boundary (j := j) ((getExch_retire w.ctl w.eng).trans he) hf (by rw [hr]; exact hst) (by rw [hr]; exact hy)
      exact ⟨hend, by rw [hctx, hr]⟩
    case limit =>
      obtain ⟨y, hx, hfail⟩ := getTile_failExch s tile e cXchTimeout
      have hc' : ctxOf (failExch s tile e cXchTimeout) tile j = c := ctxOf_of_ctx (by rw [hx]) j
      have hr := ctxOf_retire (s := failExch s tile e cXchTimeout) (tile := tile) (j := j) w.ctl w.eng
      rw [hc', hk] at hr
      obtain ⟨hend, hctx⟩ := exchEnd_failed (j := j) ((getExch_retire w.ctl w.eng).trans ((congrArg TileEng.exch (by rw [hx])).trans hfail)) rfl
        (by rw [hr]; exact hst)
      exact ⟨hend, by rw [hctx, hr]; rfl⟩

end Sys2Proof.Machine
end

section
/-!
PROOFS of the statements of the family '08_exchange.md', continued: blocks by number and confluence rounds.
-/
namespace Sys2Proof.Machine
open Sys2Proof

/-! ## Blocks by number (R220) -/

theorem find?_mins_other {α : Type} {k i : Nat} (v : α) (m : SMap α) (h : i ≠ k) :
    (mins k v m).find? (fun e => decide (e.1 = i)) = m.find? fun e => decide (e.1 = i) := by
  induction m with
  | nil => simp [mins, h.symm]
  | cons e m ih =>
    obtain ⟨a, x⟩ := e
    unfold mins
    split
    · simp [h.symm]
    · simp only [List.find?_cons, ih]

theorem find?_merase {α : Type} (m : SMap α) (k i : Nat) :
    (merase m k).find? (fun e => decide (e.1 = i)) = if i = k then none else m.find? fun e => decide (e.1 = i) := by
  rw [merase, List.find?_filter]
  split
  · next h => simp [h]
  · next h =>
    congr 1
    funext e
    by_cases he : e.1 = i
    · simp [he, h]
    · simp [he]

section blocks
variable (s : State) (b : Block)

theorem getBlk_dropBlk (i k : Nat) : getBlk (dropBlk s i) k = if k = i then none else getBlk s k := by
  simp only [getBlk, dropBlk, find?_merase]
  split <;> rfl

theorem getBlk_addBlk_new {b : Block} (h : b ≠ Block.reset) : getBlk (addBlk s b) (s.net.nextBlk + 1) = some b := by
  simp [getBlk, addBlk, mset, h, find?_mins_self _ _ _ (merase_fresh _ _)]

theorem getBlk_addBlk_other {k : Nat} (h : k ≠ s.net.nextBlk + 1) : getBlk (addBlk s b) k = getBlk s k := by
  simp only [getBlk, addBlk, mset]
  split
  · rw [find?_merase, if_neg h]
  · rw [find?_mins_other _ _ h, find?_merase, if_neg h]

/-- The blocks of a list taken out of the network. -/
theorem getBlk_foldl_dropBlk (l : List (Nat × Block)) (k : Nat) :
    getBlk (l.foldl (fun s e => dropBlk s e.1) s) k = if k ∈ l.map Prod.fst then none else getBlk s k := by
  induction l generalizing s with
  | nil => simp
  | cons e l ih =>
    rw [List.foldl_cons, ih, getBlk_dropBlk, List.map_cons]
    by_cases he : k = e.1
    · rw [if_pos he, ite_self, if_pos (he ▸ List.mem_cons_self ..)]
    · rw [if_neg he]
      exact if_congr (List.mem_cons.trans (or_iff_right he)).symm rfl rfl

theorem nextBlk_foldl_dropBlk (l : List (Nat × Block)) : (l.foldl (fun s e => dropBlk s e.1) s).net.nextBlk = s.net.nextBlk :=
  Laws.foldl_keeps (fun s (e : Nat × Block) => dropBlk s e.1) (fun s : State => s.net.nextBlk) (fun _ _ => rfl) l s

end blocks

/-! ## The sum of a round (R230) -/

/-- One block of a list made of blocks of w items. -/
theorem flatMap_const_slice {α β : Type} {l : List α} {f : α → List β} {w : Nat} (h : ∀ x ∈ l, (f x).length = w) {i : Nat} (hi : i < l.length) :
    ((l.flatMap f).drop (w * i)).take w = f l[i] := by
  induction l generalizing i with
  | nil => simp at hi
  | cons x l ih =>
    obtain ⟨hx, hl⟩ := List.forall_mem_cons.mp h
    rw [List.flatMap_cons]
    cases i with
    | zero => rw [Nat.mul_zero, List.drop_zero, ← hx, List.take_left', List.getElem_cons_zero]; rfl
    | succ i =>
      rw [Nat.mul_succ, Nat.add_comm, ← List.drop_drop, ← hx, List.drop_left', List.getElem_cons_succ, hx, ih hl]
      rfl

theorem length_roundSum (i : Nat) (b : Block) (rest : List (Nat × Block)) : (roundSum (((i, b) :: rest).map Prod.snd)).length = 4 * (addElems b).length := by
  rw [roundSum, length_flatMap_const (w := 4) (by simp)]
  simp

/-- Element k of a round's sum is the sum of the inputs' elements k. -/
theorem roundSum_element (i : Nat) (b : Block) (rest : List (Nat × Block)) {k : Nat} (hk : k < (addElems b).length) :
    leNat (((roundSum (((i, b) :: rest).map Prod.snd)).drop (4 * k)).take 4)
      = toBits 32 (sumI (((i, b) :: rest).map fun e => nth 0 (addElems e.2) k)) := by
  rw [roundSum, flatMap_const_slice (w := 4) (by simp) (by simpa using hk), leNat_toLE, Nat.mod_eq_of_lt (toBits_lt 32 _), List.getElem_range, List.map_map, List.map_map]
  rfl

/-- The block that a round at the root leaves for the tile there. -/
def rootSum (s : State) (n : BitVec 10) (p : Pos) (ins : List (Nat × Block)) (b : Block) : Block :=
  { b with i24 := false, payload := roundSum (ins.map Prod.snd), heldSince := s.mod.time, dest := treeEnd (getTree s n), pos := p, inPort := atSum }

/-! ## Rounds (R230, R231) -/

section round
variable {s : State} {tree : BitVec 10} {router : W16}

theorem onTree_of_roundInput {p : Pos} {port i : Nat} {b : Block} (h : roundInput s tree p port = some (i, b)) : b.kind = .add ∧ b.dmod = 0 := by
  have hb := List.find?_some h
  simp only [onTree, Bool.and_eq_true, decide_eq_true_eq] at hb
  obtain ⟨⟨⟨⟨hk, hd⟩, -⟩, -⟩, -⟩ := hb
  exact ⟨hk, hd⟩

/-- ADD_ROUND waits for every input. -/
theorem exec_addRound_missing (h : none ∈ (inPorts (routeAt s router tree)).map (roundInput s tree (routerPos s router))) :
    exec (.addRound tree router) s = .next s := by
  have hall : ((inPorts (routeAt s router tree)).map (roundInput s tree (routerPos s router))).all (·.isSome) = false :=
    Bool.eq_false_iff.mpr fun ht => by simpa using List.all_eq_true.mp ht none h
  change execAddRound tree router s = _
  simp only [execAddRound, hall]
  split
  · rfl
  · exact congrArg _ (if_neg Bool.false_ne_true)

/-- ADD_ROUND with every input present runs the round where it holds an adder. -/
theorem exec_addRound_present {i : Nat} {b : Block} {rest : List (Nat × Block)}
    (h : (inPorts (routeAt s router tree)).map (roundInput s tree (routerPos s router)) = ((i, b) :: rest).map some) : exec (.addRound tree router) s
      = .next (if (inPorts (routeAt s router tree)).length ≤ 1 ∨ hasAdder s tree (routerPos s router) = true
          then runRound s tree (routerPos s router) (routeAt s router tree) ((i, b) :: rest) b else s) := by
  have hins : (((i, b) :: rest).map some).filterMap id = (i, b) :: rest := by
    rw [List.filterMap_map]
    exact List.filterMap_some
  have hall : (((i, b) :: rest).map some).all (·.isSome) = true := by simp
  change execAddRound tree router s = _
  simp only [execAddRound, h, hins, hall, Bool.true_and, Bool.or_eq_true, decide_eq_true_eq]

variable {p : Pos} {r : W16} {ins : List (Nat × Block)} {b : Block} (hr : (outPorts r).head? = some 0)
variable (hs : ∀ e ∈ ins, sameRound b e.2 = true ∧ e.2.bad = none)
include hr hs

/-- A round at the root whose inputs agree leaves its sum once the one before it has been written. -/
theorem runRound_root : runRound s tree p r ins b
    = if sumWaits s tree p = true then s else addBlk (ins.foldl (fun s e => dropBlk s e.1) s) (rootSum s tree p ins b) := by
  have hok : ins.find? (fun e => !sameRound b e.2 || e.2.bad.isSome) = none := by
    refine List.find?_eq_none.mpr fun e he => ?_
    obtain ⟨hsame, hbad⟩ := hs e he
    simp [hsame, hbad]
  have htree : getTree (ins.foldl (fun s e => dropBlk s e.1) s) tree = getTree s tree :=
    Laws.foldl_keeps (fun s (e : Nat × Block) => dropBlk s e.1) (fun s : State => getTree s tree) (fun _ _ => rfl) ins s
  simp only [runRound, hok, hr]
  rfl

end round

/-- Settles O18: a round short of an input waits, and so does one whose sum before it is on its way; else its inputs go and their sum stands. -/
theorem confluenceRound : Obligations.ConfluenceRound := by
  unfold Obligations.ConfluenceRound
  intro s tree router i b0 rest r p ins
  refine ⟨exec_addRound_missing, fun hins hroot hsame => ⟨fun hw => ?waits, fun hw hadd _ => ?sums⟩⟩
  case waits =>
    rw [exec_addRound_present hins, runRound_root hroot hsame, if_pos hw, ite_self]
  case sums =>
    obtain ⟨port, -, hport⟩ := List.mem_map.mp (hins ▸ List.mem_map_of_mem (List.mem_cons_self ..) : some (i, b0) ∈ (inPorts r).map (roundInput s tree p))
    obtain ⟨hkind, hmod⟩ := onTree_of_roundInput hport
    have hnew : rootSum s tree p ins b0 ≠ Block.reset := fun h => by
      have hk : b0.kind = .put := congrArg Block.kind h
      rw [hkind] at hk
      exact nomatch hk
    have hnext := nextBlk_foldl_dropBlk s ins
    refine ⟨_, by rw [exec_addRound_present hins, if_pos hadd, runRound_root hroot hsame, hw, if_neg Bool.false_ne_true], fun e he hle => ?_,
      rootSum s tree p ins b0, ?_, rfl, ?_, rfl, rfl, rfl, rfl, length_roundSum i b0 rest, fun k hk => roundSum_element i b0 rest hk⟩
    · rw [getBlk_addBlk_other _ _ (by omega), getBlk_foldl_dropBlk, if_pos (List.mem_map_of_mem he)]
    · rw [← hnext]
      exact getBlk_addBlk_new _ hnew
    · simp [arrivedAt, rootSum, hkind, hmod]

end Sys2Proof.Machine
end

section
/-!
PROOFS of the statements of the family '08_exchange.md', continued: prunes, markers and tree loads.
-/
namespace Sys2Proof.Machine
open Sys2Proof

/-! ## Prunes of a CAST port (R234) -/

section prune
variable (s : State) (i : Nat) (b : Block)

theorem castSettle_prunes : (castSettle s i b).net.prunes = s.net.prunes := by
  unfold castSettle
  split <;> rfl

theorem castSettle_tiles : (castSettle s i b).tiles = s.tiles := by
  unfold castSettle
  split <;> rfl

end prune

/-- The prune of a port at the router that holds a CAST block. -/
def pruneOf (s : State) (b : Block) (port : Nat) : Prune :=
  { tree := b.tree, router := routerCode s b.pos, port, root := b.src, acnt := b.acnt, acntEn := b.acntEn, job := b.job, run := b.run, marked := false }

theorem pruneLag_eq (s : State) : fldN s.mod.meshCfg 16 16 = s.mod.meshCfg.toNat / 2 ^ 16 := by
  rw [fldN_eq_div_mod]
  omega

section prune
variable {s : State} {i : Nat} {b : Block} {port : Fin 5} (hb : getBlk s i = some b)
include hb

/-- CAST_PRUNE of a port that has had a credit, or not lacked one for long enough. -/
theorem exec_castPrune_early (h : s.mod.meshCfg.toNat / 2 ^ 16 = 0
    ∨ ∀ t0, lacksSince s b.pos port.val (portClass s b port.val) = some t0 → now s < t0.toNat + 125 * (s.mod.meshCfg.toNat / 2 ^ 16)) :
    exec (.castPrune i port) s = .next s := by
  change execCastPrune i port s = _
  simp only [execCastPrune, hb, pruneLag_eq]
  refine congrArg _ (if_neg fun hc => ?_)
  simp only [Bool.and_eq_true, decide_eq_true_eq] at hc
  obtain ⟨⟨-, hne⟩, hlate⟩ := hc
  cases hl : lacksSince s b.pos port.val (portClass s b port.val) with
  | none => simp [hl] at hlate
  | some t0 =>
    have hle : t0.toNat + 125 * (s.mod.meshCfg.toNat / 2 ^ 16) ≤ now s := by simpa [hl] using hlate
    exact h.elim hne fun h => absurd (h t0 hl) (Nat.not_lt.mpr hle)

/-- CAST_PRUNE of a port that has lacked a credit for PRUNE_LAG while another port has taken the block: its prune and its record, and the block
waits for the port no longer. -/
theorem exec_castPrune_due {t0 : W64} (hk : b.kind = .cast) (hl : linkPort b = none) (ho : routeOut (routeAtPos s b.pos b.tree) port.val = true)
    (ht : b.taken.contains port.val = false) (hn : b.taken ≠ []) (hp : isPruned s b port.val = false)
    (hlack : lacksSince s b.pos port.val (portClass s b port.val) = some t0) (hlag : s.mod.meshCfg.toNat / 2 ^ 16 ≠ 0)
    (hdue : t0.toNat + 125 * (s.mod.meshCfg.toNat / 2 ^ 16) ≤ now s) : exec (.castPrune i port) s
      = .next (castSettle (putErr { s with net := { s.net with prunes := s.net.prunes ++ [pruneOf s b port.val] } }
          { routerErr s cPruned 1 b.pos b port.val with info1 := b.src.setWidth 64 }) i (if port.val = 0 then { b with slotWait := none } else b)) := by
  have hempty : b.taken.isEmpty = false := by simpa using hn
  change execCastPrune i port s = _
  simp only [execCastPrune, hb, pruneLag_eq, hlack]
  refine congrArg _ (if_pos ?_)
  rw [decide_eq_true hk, hl, ho, ht, hp, hempty, decide_eq_true hlag, decide_eq_true hdue]
  rfl

end prune

/-! ## Markers (R235, R239) -/

/-- PRUNED_MARKER_SEND of the one prune, whose port has its credits and leads to one leaf. -/
theorem exec_prunedMarkerSend_leaf {s : State} {p : Prune} {leaf : W16} {port : Fin 5} (hs : s.net.prunes = [p]) (hm : p.marked = false) (hport : p.port = port.val)
    (hc : ∀ cls, lacksSince s (routerPos s p.router) port.val cls = none) (hl : leavesBeyond s p.tree (routerPos s p.router) port.val = [leaf]) :
    exec (.prunedMarkerSend p.router p.tree port) s
      = .next (addMarker { s with net := { s.net with prunes := [{ p with marked := true }] } } leaf p.acnt cPruned p.job) := by
  have hfind : s.net.prunes.find? (fun x => !x.marked && decide (x.router = p.router) && decide (x.tree = p.tree) && decide (x.port = port.val)) = some p := by
    simp [hs, hm, hport]
  change execPrunedMarkerSend p.router p.tree port s = _
  simp only [execPrunedMarkerSend, hfind, hc, hl, Option.isNone_none, if_true]
  simp only [hs, List.map_cons, List.map_nil, if_true]
  rfl

theorem markDue_net (s : State) (t : W16) : (markDue s t).net = s.net := markDue_keeps (·.net) t (fun _ _ _ => rfl) s

theorem getTile_markDue_other (s : State) {t u : W16} (h : u ≠ t) : getTile (markDue s t) u = getTile s u :=
  markDue_keeps (getTile · u) t (fun _ _ _ => getTile_putTile_other _ _ h) s

/-- A marker sets the flag of its counter with its cause, and leaves every other counter and tile (R239). -/
theorem acntMark_sets (s : State) (t : W16) (k : Nat) (cause : Byte) :
    (∀ n, getAcnt (getTile (acntMark s t k cause) t) n = if n = k then { getAcnt (getTile s t) k with err := some cause } else getAcnt (getTile s t) n)
    ∧ (acntMark s t k cause).net = s.net ∧ ∀ u, u ≠ t → getTile (acntMark s t k cause) u = getTile s u := by
  refine ⟨fun n => ?_, markDue_net _ _, fun u hu => (getTile_markDue_other _ hu).trans (getTile_putTile_other _ _ hu)⟩
  rw [acntMark, getAcnt_markDue, getTile_modTile]
  exact getAcnt_putAcnt ..

theorem exec_markerReceive_takes {s : State} {k : Nat} {m : Marker} (hf : s.net.markers.find? (fun e => decide (e.1 = k)) = some (k, m))
    (ht : (getTile s m.tile).fenced = false) (hd : dieReady s (tDie m.tile) = true) : exec (.markerReceive k) s
      = .next (acntMark { s with net := { s.net with markers := merase s.net.markers k } } m.tile m.acnt.toNat m.cause) := by
  have hc : ¬ ((getTile { s with net := { s.net with markers := merase s.net.markers k } } m.tile).fenced
      || !dieReady { s with net := { s.net with markers := merase s.net.markers k } } (tDie m.tile)) = true := by
    change ¬ ((getTile s m.tile).fenced || !dieReady s (tDie m.tile)) = true
    simp [ht, hd]
  change execMarkerReceive k s = _
  simp only [execMarkerReceive, hf]
  exact congrArg _ (if_neg hc)

/-! ## Sparse maps that are loaded key by key -/

section maps
variable {α : Type}

theorem mget_filter_key (d : α) (f : Nat → Bool) (m : SMap α) (k : Nat) : mget d (m.filter fun e => f e.1) k = if f k then mget d m k else d := by
  induction m with
  | nil => simp [mget]
  | cons e m ih =>
    obtain ⟨a, x⟩ := e
    by_cases hk : a = k
    · subst hk
      cases hf : f a <;> simp [mget, hf, ih]
    · cases hf : f a <;> simp [mget, hf, hk, ih]

theorem mget_of_absent (d : α) {m : SMap α} {k : Nat} (h : ∀ e ∈ m, e.1 ≠ k) : mget d m k = d := by
  induction m with
  | nil => rfl
  | cons e m ih =>
    obtain ⟨he, hm⟩ := List.forall_mem_cons.mp h
    exact (if_neg he).trans (ih hm)

/-- The entries of a canonical map put in another, each under a key of its own, read there as in the map; what it does not list reads as before. -/
theorem mget_foldl_mset_keys [DecidableEq α] {d : α} {g : Nat → Nat} (hg : g.Injective) {lo : Nat} {m : SMap α} (hm : mwfFrom d lo m = true) (acc : SMap α) (k : Nat) :
    mget d (m.foldl (fun r e => mset d r (g e.1) e.2) acc) (g k) = if mget d m k = d then mget d acc (g k) else mget d m k := by
  induction m generalizing lo acc with
  | nil => simp [mget]
  | cons e m ih =>
    obtain ⟨a, x⟩ := e
    simp only [mwfFrom, Bool.and_eq_true, decide_eq_true_eq] at hm
    obtain ⟨⟨-, hx⟩, hrest⟩ := hm
    rw [List.foldl_cons, ih hrest]
    by_cases hk : a = k
    · subst hk
      have hnone : mget d m a = d := mget_of_absent d fun e he => by have := mwfFrom_keys hrest e he; omega
      rw [if_pos hnone, mget_mset_same, show mget d ((a, x) :: m) a = x from if_pos rfl, if_neg hx]
    · rw [mget_mset_other _ _ _ fun h => hk (hg h).symm, show mget d ((a, x) :: m) k = mget d m k from if_neg hk]

end maps

theorem length_eraseDups_le {α : Type} [BEq α] (l : List α) : l.eraseDups.length ≤ l.length := by
  induction h : l.length using Nat.strong_induction_on generalizing l with
  | _ n ih =>
    cases l with
    | nil => simp
    | cons a l =>
      have hf := List.length_filter_le (fun b => !b == a) l
      rw [List.length_cons] at h
      rw [List.eraseDups_cons, List.length_cons]
      have := ih _ (by omega) (l.filter fun b => !b == a) rfl
      omega

/-- A list that loses nothing when its repeats go has none. -/
theorem nodup_of_length_eraseDups {α : Type} [BEq α] [LawfulBEq α] {l : List α} (h : l.eraseDups.length = l.length) : l.Nodup := by
  induction l with
  | nil => exact List.nodup_nil
  | cons a l ih =>
    rw [List.eraseDups_cons, List.length_cons, List.length_cons, Nat.add_right_cancel_iff] at h
    have hd := length_eraseDups_le (l.filter fun b => !b == a)
    have hf := List.length_filter_le (fun b => !b == a) l
    have hkeep : l.filter (fun b => !b == a) = l := List.filter_eq_self.mpr (List.length_filter_eq_length_iff.mp (by omega))
    rw [hkeep] at h
    refine List.nodup_cons.mpr ⟨fun ha => ?_, ih h⟩
    simpa using List.filter_eq_self.mp hkeep a ha

/-! ## Tree loads (R237, R238) -/

theorem mwf_joinEntries (ps : List (List (W16 × W16))) : mwf 0 (joinEntries ps) = true := by
  have key (l : List (W16 × W16)) (m : SMap W16) (hm : mwf 0 m = true) :
      mwf 0 (l.foldl (fun m e => mset 0 m e.1.toNat (mget 0 m e.1.toNat ||| e.2)) m) = true := by
    induction l generalizing m with
    | nil => exact hm
    | cons e l ih => exact ih _ (mwf_mset _ _ hm)
  exact key _ _ rfl

section load
variable {s : State} {n : BitVec 10} {rs : List (W16 × W16)}

/-- The entries that a tree load gives the routers, by their numbers. -/
def loadedEntries (s : State) (n : BitVec 10) (rs : List (W16 × W16)) : SMap W16 := treeEntries s (getTree s n) (treeTiles (getTree s n) rs)

theorem exec_treeLoad_busy (w : Writer) (h : treeBusy s n = true) : exec (.treeLoad w n rs) s = .next { s with status := stCfgBusy } := by
  change execTreeLoad w n rs s = _
  simp only [execTreeLoad, treeLoad, h, if_true]
  rfl

theorem exec_treeLoad_invalid (w : Writer) (h : treeBusy s n = false) (hs : treeShapeOk s (getTree s n) rs = false) :
    exec (.treeLoad w n rs) s = .next { s with status := cTreeInvalid } := by
  change execTreeLoad w n rs s = _
  simp only [execTreeLoad, treeLoad, h, hs, Bool.not_false, Bool.false_eq_true, if_false, if_true]
  rfl

/-- The state after an accepted tree load. -/
def treeLoaded (s : State) (n : BitVec 10) (rs : List (W16 × W16)) : State :=
  setStatus (putTree { s with net := { s.net with
    routes := (loadedEntries s n rs).foldl (fun m e => mset 0 m (e.1 * 1024 + n.toNat) e.2) (clearRoutes s n).net.routes } } n
      { getTree s n with broken := false }) stOk

theorem exec_treeLoad_accepted (w : Writer) (h : treeBusy s n = false) (hs : treeShapeOk s (getTree s n) rs = true) :
    exec (.treeLoad w n rs) s = .next (treeLoaded s n rs) := by
  change execTreeLoad w n rs s = _
  simp only [execTreeLoad, treeLoad, h, hs, Bool.not_true, Bool.false_eq_true, if_false]
  rfl

theorem getTree_treeLoaded : getTree (treeLoaded s n rs) n = { getTree s n with broken := false } := mget_mset_same ..

/-- A router's entry for the tree loaded is the one of the paths over it. -/
theorem routeAt_treeLoaded (u : W16) : routeAt (treeLoaded s n rs) u n = mget 0 (loadedEntries s n rs) u.toNat := by
  have hinj : (fun k : Nat => k * 1024 + n.toNat).Injective := fun a b h => by simpa using h
  have hclear : mget 0 (clearRoutes s n).net.routes (u.toNat * 1024 + n.toNat) = 0 := by
    have hn : (u.toNat * 1024 + n.toNat) % 1024 = n.toNat := by omega
    exact (mget_filter_key 0 (fun k => decide (k % 1024 ≠ n.toNat)) _ _).trans (if_neg (by simp [hn]))
  have hm : mwfFrom 0 0 (loadedEntries s n rs) = true := mwf_joinEntries _
  refine (mget_foldl_mset_keys hinj hm _ _).trans ?_
  rw [hclear]
  split
  · next h => exact h.symm
  · rfl

/-- The entries of every other tree stand (R238). -/
theorem routeAt_treeLoaded_other (u : W16) {k : BitVec 10} (hk : k ≠ n) : routeAt (treeLoaded s n rs) u k = routeAt s u k := by
  have hne : k.toNat ≠ n.toNat := fun h => hk (BitVec.eq_of_toNat_eq h)
  have hmod : (u.toNat * 1024 + k.toNat) % 1024 ≠ n.toNat := by omega
  refine (Laws.foldl_keeps (fun m (e : Nat × W16) => mset 0 m (e.1 * 1024 + n.toNat) e.2) (fun m => mget 0 m (u.toNat * 1024 + k.toNat)) (fun m e => ?_) _ _).trans ?_
  · exact mget_mset_other _ _ _ (by omega)
  · exact (mget_filter_key 0 (fun a => decide (a % 1024 ≠ n.toNat)) _ _).trans (if_pos (by simpa using hmod))

variable (hs : treeShapeOk s (getTree s n) rs = true)
include hs

/-- What the loader's check of a tree's shape says of its list of routers. -/
theorem treeShape_entries : (rs.map (·.1)).Nodup ∧ (∀ e ∈ rs, tilePresent s e.1 = true) ∧ (∀ e ∈ rs, e.2 ≠ 0 → mget 0 (loadedEntries s n rs) e.1.toNat = e.2)
    ∧ ∀ u : W16, bitAt u 15 = false → mget 0 (loadedEntries s n rs) u.toNat ≠ 0 → ∃ e ∈ rs, e.2 ≠ 0 ∧ e.1 = u := by
  simp only [treeShapeOk, Bool.and_eq_true, decide_eq_true_eq, List.all_eq_true] at hs
  obtain ⟨⟨⟨⟨⟨hdup, hpres⟩, -⟩, -⟩, hnamed⟩, hall⟩ := hs
  refine ⟨nodup_of_length_eraseDups (hdup.trans (List.length_map ..).symm), hpres, fun e he h0 => hnamed e (List.mem_filter.mpr ⟨he, decide_eq_true h0⟩), fun u hu hne => ?_⟩
  obtain ⟨e, he, hk⟩ : ∃ e ∈ loadedEntries s n rs, e.1 = u.toNat := by
    by_contra h
    exact hne (mget_of_absent 0 fun e he hk => h ⟨e, he, hk⟩)
  have hlow : u.toNat < 32768 := by
    have := BitVec.msb_eq_false_iff_two_mul_lt.mp ((BitVec.msb_eq_getLsbD_last u).trans hu)
    omega
  obtain ⟨⟨-, hcov⟩, -⟩ := hall e he
  rw [hk, decide_eq_false (Nat.not_le.mpr hlow), Bool.false_or, List.any_eq_true] at hcov
  obtain ⟨r, hr, hru⟩ := hcov
  obtain ⟨hr, h0⟩ := List.mem_filter.mp hr
  exact ⟨r, hr, of_decide_eq_true h0, BitVec.eq_of_toNat_eq (of_decide_eq_true hru)⟩

theorem routeAt_treeLoaded_listed : ∀ e ∈ rs, routeAt (treeLoaded s n rs) e.1 n = e.2 := by
  obtain ⟨hnodup, hpres, hnamed, hcov⟩ := treeShape_entries hs
  intro e he
  rw [routeAt_treeLoaded]
  by_cases h0 : e.2 = 0
  · have hbit : bitAt e.1 15 = false := by
      have := hpres e he
      simp only [tilePresent, Bool.and_eq_true, Bool.not_eq_true'] at this
      exact this.1.1
    by_contra hne
    obtain ⟨r, hr, hr0, hre⟩ := hcov e.1 hbit (h0 ▸ hne)
    exact hr0 ((List.inj_on_of_nodup_map hnodup hr he hre) ▸ h0)
  · exact hnamed e he h0

theorem routeAt_treeLoaded_unlisted {u : W16} (hu : bitAt u 15 = false) (hn : ∀ e ∈ rs, e.1 ≠ u) : routeAt (treeLoaded s n rs) u n = 0 := by
  obtain ⟨-, -, -, hcov⟩ := treeShape_entries hs
  rw [routeAt_treeLoaded]
  by_contra hne
  obtain ⟨r, hr, -, hru⟩ := hcov u hu hne
  exact hn r hr hru

end load

/-- Settles O19: a prune by how long its port has lacked a credit, its marker, a marker received; then a tree load refused or accepted. -/
theorem markersAndTrees : Obligations.MarkersAndTrees := by
  unfold Obligations.MarkersAndTrees
  refine ⟨fun s => ⟨fun i b port hb hk hl ho ht hn hp => ?prune, fun router tree port p leaf hs hm hr htree hport hc hlv => ?send, fun k m hf ht hd => ?receive⟩,
    fun s w tree rs => ⟨exec_treeLoad_busy w, exec_treeLoad_invalid w, fun hb hs => ?load⟩⟩
  case prune =>
    refine ⟨fun t0 hlack hlag hdue => ⟨_, exec_castPrune_due hb hk hl ho ht hn hp hlack hlag hdue, ?_⟩, fun h => exec_castPrune_early hb ?_, fun t0 hlack hlate => ?_⟩
    · dsimp only
      rw [castSettle_prunes, castSettle_tiles, putErr_net _ _ (by simp [routerErr]), putErr_tiles _ _ (by simp [routerErr])]
      exact ⟨rfl, rfl⟩
    · exact h.imp_right fun hnone t0 hlack => nomatch hnone.symm.trans hlack
    · exact exec_castPrune_early hb (.inr fun t1 hlack' => Option.some.inj (hlack.symm.trans hlack') ▸ hlate)
  case send =>
    subst hr htree
    exact ⟨_, exec_prunedMarkerSend_leaf hs hm hport hc hlv, rfl, rfl⟩
  case receive =>
    obtain ⟨hacnt, hnet, hother⟩ := acntMark_sets { s with net := { s.net with markers := merase s.net.markers k } } m.tile m.acnt.toNat m.cause
    refine ⟨_, exec_markerReceive_takes hf ht hd, ?_, fun n hn => ?_, by rw [hnet], hother⟩
    · rw [hacnt, if_pos rfl]
      rfl
    · rw [hacnt, if_neg hn]
      rfl
  case load =>
    exact ⟨_, exec_treeLoad_accepted w hb hs, rfl, by rw [getTree_treeLoaded], routeAt_treeLoaded_listed hs, fun u hu hn => routeAt_treeLoaded_unlisted hs hu hn,
      fun u n hn => routeAt_treeLoaded_other u hn⟩

end Sys2Proof.Machine
end

section
/-!
PROOFS of the statements of the family '08_exchange.md', continued: the record of a flit in error that finds the log one record short of full.
-/
namespace Sys2Proof.Machine
open Sys2Proof

/-! ## The log as records are appended (R460, R461) -/

section log
variable {l : Log} {r : ErrRec}

theorem logAppend_room (h : l.recs.length < 4096) : logAppend l r = ({ l with recs := l.recs ++ [r], head := r.seq }, false) := if_pos h

/-- A full log gives up its oldest record, where TAIL has passed it and it is no graver than the new one. -/
theorem logAppend_oldest {x : ErrRec} {rest : List ErrRec} (hr : l.recs = x :: rest) (hl : 4095 ≤ rest.length) (hs : x.sev.toNat ≤ r.sev.toNat)
    (ht : x.seq = l.tail) : logAppend l r = ({ l with recs := rest ++ [r], head := r.seq }, false) := by
  have hfull : ¬ l.recs.length < 4096 := by rw [hr, List.length_cons]; omega
  have hpass : tailPassed l x = true := by simp [tailPassed, ht]
  have hfind : l.recs.findIdx? (fun x => decide (x.sev.toNat ≤ r.sev.toNat) && tailPassed l x) = some 0 := by
    rw [hr, List.findIdx?_cons, hpass, decide_eq_true hs]
    rfl
  simp only [logAppend, hfull, if_false, hfind]
  rw [hr]
  rfl

end log

section record
variable {s : State} {e : Err}

/-- A record that is not FATAL goes to the log as logAppend puts it there. -/
theorem putRecord_log {r : ErrRec} (h : r.sev ≠ 3) : (putRecord s r).1.log = (logAppend { s.log with seq := r.seq + 1 } r).1
    ∧ (putRecord s r).2 = (logAppend { s.log with seq := r.seq + 1 } r).2 := by
  simp only [putRecord, h, if_false, and_true]
  split <;> simp only [raiseEvent_log, ringAppend_log]

/-- A ring outside the non-secure reserve takes no record (R22, log entry 61). -/
theorem ringAppend_outside {r : ErrRec} (h : inReserveNs (ringAt (getJob s r.job).regs) 32 = false) : ringAppend s r = s := by
  simp only [ringAppend, h, Bool.not_false, if_true, ite_self]

/-- An error that no open window takes is written as a record, and may open a window with it. -/
theorem putErr1_writes (hw : s.log.wins.any (winHas · e) = false) :
    ∃ ws, (∀ w ∈ ws, w ∈ s.log.wins ∨ w.first = errRec s e) ∧ putErr1 s e = putRecord { s with log := { s.log with wins := ws } } (errRec s e) := by
  simp only [putErr1, hw, Bool.and_false, Bool.false_eq_true, if_false]
  split
  · refine ⟨_, fun w hw => ?_, rfl⟩
    exact (List.mem_append.mp hw).imp_right fun h => by rw [List.mem_singleton.mp h]
  · exact ⟨s.log.wins, fun w hw => .inl hw, rfl⟩

/-- The same in a log with room: the record stands last, and nothing is lost. -/
theorem putErr1_room (hs : e.sev ≠ 3) (hw : s.log.wins.any (winHas · e) = false) (hl : s.log.recs.length < 4096) :
    ∃ ws, (∀ w ∈ ws, w ∈ s.log.wins ∨ w.first = errRec s e) ∧ (putErr1 s e).2 = false
      ∧ (putErr1 s e).1.log = { s.log with recs := s.log.recs ++ [errRec s e], seq := s.log.seq + 1, head := s.log.seq, wins := ws } := by
  obtain ⟨ws, hws, hput⟩ := putErr1_writes hw
  obtain ⟨hlog, hlost⟩ := putRecord_log (s := { s with log := { s.log with wins := ws } }) (r := errRec s e) hs
  have hroom (ws : List MergeWin) := logAppend_room (l := { s.log with wins := ws, seq := s.log.seq + 1 }) (r := errRec s e) hl
  rw [hput, hlog, hlost]
  exact ⟨ws, hws, congrArg Prod.snd (hroom ws), congrArg Prod.fst (hroom ws)⟩

theorem putRecord_jobs_outside {r : ErrRec} (h : r.sev ≠ 3) (ho : inReserveNs (ringAt (getJob s r.job).regs) 32 = false) : (putRecord s r).1.jobs = s.jobs := by
  have hring : ∀ l, ringAppend { s with log := l } r = { s with log := l } := fun l => ringAppend_outside (s := { s with log := l }) ho
  simp only [putRecord, h, if_false, hring]
  split
  · rw [raiseEvent_jobs]
  · rfl

/-- With one place left in the log, an error about a job whose ring lies in secure memory takes that place, and the WORLD_VIOLATION record
about the ring takes the oldest record's (R22, R461, R482). -/
theorem putErr_secureRing_almostFull {j : BitVec 2} {pa : Nat} {x : ErrRec} {rest : List ErrRec} (hj : e.job = some j) (hs : e.sev ≠ 3) (hc : e.cause ≠ stWorld)
    (hw : s.log.wins = []) (hr : s.log.recs = x :: rest) (hl : rest.length = 4094) (hx : x.sev.toNat ≤ 1) (ht : x.seq = s.log.tail)
    (hring : ringSecure s j = some pa) (ho : inReserveNs (ringAt (getJob s j).regs) 32 = false) :
    ∃ r1 r2, (putErr s e).log.recs = rest ++ [r1, r2] ∧ r2.cause = stWorld := by
  have hnone : s.log.wins.any (winHas · e) = false := by rw [hw]; rfl
  obtain ⟨ws, hws, hlost, hlog⟩ := putErr1_room hs hnone (by simp [hr, hl])
  have hjobs : (putErr1 s e).1.jobs = s.jobs := by
    obtain ⟨ws, -, hput⟩ := putErr1_writes hnone
    have hjob : (errRec s e).job = j := by simp [errRec, hj]
    rw [hput]
    exact putRecord_jobs_outside (s := { s with log := { s.log with wins := ws } }) hs (by rw [hjob]; exact ho)
  have hseq : (putErr1 s e).1.log.seq ≠ s.log.seq := by
    rw [hlog]
    simp
  let w := worldErr 4 (BitVec.ofNat 16 (paStack pa)) (paStack pa) none pa
  have hown : (putErr1 s e).1.log.wins.any (winHas · w) = false := by
    refine List.any_eq_false.mpr fun v hv => ?_
    rw [hlog] at hv
    have hfirst : v.first = errRec s e := (hws v hv).resolve_left (by simp [hw])
    simp [winHas, hfirst, errRec, w, worldErr, hc]
  have hputErr : putErr s e = (putErr1 (putErr1 s e).1 w).1 := by
    simp only [putErr, hlost, hj, hring, getJob, hjobs, hseq, if_true, if_false, Bool.false_eq_true]
    rfl
  have hrecs : (putErr1 s e).1.log.recs = x :: (rest ++ [errRec s e]) := by rw [hlog, hr]; rfl
  obtain ⟨ws2, -, hput2⟩ := putErr1_writes hown
  refine ⟨errRec s e, errRec (putErr1 s e).1 w, ?_, rfl⟩
  rw [hputErr, hput2, (putRecord_log (by simp [errRec, w, worldErr])).1]
  refine (congrArg (·.1.recs) (logAppend_oldest (l := { (putErr1 s e).1.log with wins := ws2, seq := (putErr1 s e).1.log.seq + 1 })
    (r := errRec (putErr1 s e).1 w) hrecs (by simp [hl]) hx (by rw [hlog]; exact ht))).trans ?_
  simp

end record

/-! ## Flits in error (R220) -/

theorem exec_meshFlitCrcError_first {s : State} {i : Nat} {b : Block} (hb : getBlk s i = some b) (hm : b.inPort ≠ atMemPort) (hs : b.inPort ≠ atSum)
    (hc : cameOver b = none) : exec (.meshFlitCrcError i false) s = .next (putErr s (routerErr s cMeshCrc 0 b.pos b (detPort b))) := by
  change execMeshFlitCrcError i false s = _
  simp only [execMeshFlitCrcError, hb, hm, hs, or_self, if_false, hc]
  rfl

/-- A record of lowest severity that TAIL has passed. -/
def oldRec : ErrRec :=
  { time := 0, info1 := 0, info0 := 0, source := 0, cause := cMeshCrc, detail := 0, sev := 0, job := 0, jobValid := false, world := false, die := 0, unit := 1,
    merged := false, injected := false, seq := 0 }

/-- A block of a PUT at the LOCAL port of the router at the north-west corner of die 0. -/
def localBlk : Block := { Block.reset with payload := [1] }

/-- A log of 4,095 records, and a block of job 0, whose ring lies in secure memory. -/
def almostFull : State :=
  { State.reset with
    log := { Log.reset with recs := List.replicate 4095 oldRec }
    jobs := [(0, { Job.reset with regs := { JobRegs.reset with errRing := 1 } })]
    regions := [(0, 0xA0000000000000000000000000000000)]
    net := { Net.reset with blocks := [(0, localBlk)], nextBlk := 1 } }

theorem almostFull_log : almostFull.log.recs = oldRec :: List.replicate 4094 oldRec := List.replicate_succ

/-- A flit in error of that block leaves the log without its oldest record, and with two more. -/
theorem almostFull_recs : ∃ r1 r2, (putErr almostFull (routerErr almostFull cMeshCrc 0 localBlk.pos localBlk (detPort localBlk))).log.recs
    = List.replicate 4094 oldRec ++ [r1, r2] ∧ r2.cause = stWorld :=
  putErr_secureRing_almostFull (j := 0) (pa := 0) (x := oldRec) rfl (by simp [routerErr]) (by decide) rfl almostFull_log List.length_replicate (by decide)
    rfl (by decide +kernel) (by decide +kernel)

/-- Refutes O17: the clause of a first flit error says that the log keeps every record where it holds fewer than 4,096. With 4,095 records and
the block's job ring in secure memory, MESH_FLIT_CRC_ERROR writes two records, and the second, WORLD_VIOLATION of the ring (R22, R482), takes
the oldest one's place (R461). -/
theorem not_blocks : ¬ Obligations.Blocks := by
  unfold Obligations.Blocks
  rintro ⟨hstage, -⟩
  have hblk : getBlk almostFull 0 = some localBlk := rfl
  obtain ⟨-, -, -, -, hfirst, -⟩ := hstage almostFull 0 localBlk localBlk.pos 0 hblk (by decide) (by decide)
  obtain ⟨t, hexec, -, hkeeps⟩ := hfirst (by decide) (by decide)
  rw [exec_meshFlitCrcError_first hblk (by decide) (by decide) (by decide)] at hexec
  obtain ⟨r, more, hrecs, hcause, -⟩ := hkeeps rfl (by rw [almostFull_log, List.length_cons, List.length_replicate]; decide)
  obtain ⟨r1, r2, hlog, hworld⟩ := almostFull_recs
  rw [← Host.Outcome.next.inj hexec, hlog, almostFull_log] at hrecs
  have hmore : more = [] := by
    have hlen := congrArg List.length hrecs
    simp only [List.length_append, List.length_cons, List.length_nil, List.length_replicate] at hlen
    exact List.eq_nil_of_length_eq_zero (by omega)
  subst hmore
  have hlast : r2 = r := by
    rw [List.append_cons] at hrecs
    exact List.singleton_inj.mp (List.append_inj_right' hrecs rfl)
  rw [← hlast, hworld] at hcause
  exact absurd hcause (by decide)

end Sys2Proof.Machine
end

section
/-!
PROOFS of the statements of the family '09_weirs.md': a weir's record on a die, loads, arrivals at the counters and releases.
-/
namespace Sys2Proof.Machine
open Sys2Proof

/-! ## A weir's record on a die -/

@[simp] theorem getWeir_putWeir (x : Die) (n : BitVec 12) (w : Weir) : getWeir (putWeir x n w) n = w := mget_mset_same _ _ _ _

theorem getDie_modDie_other (s : State) {d e : Nat} (f : Die → Die) (h : e ≠ d) : getDie (modDie s d f) e = getDie s e := mget_mset_other _ _ _ h

/-- A die's record of a weir after a write of it. -/
theorem getWeir_modDie (s : State) (d : Nat) (n : BitVec 12) (f : Die → Weir) :
    getWeir (getDie (modDie s d fun x => putWeir x n (f x)) d) n = f (getDie s d) := by
  rw [getDie_modDie, getWeir_putWeir]

theorem getDie_putErr (s : State) {e : Err} (h : e.sev ≠ 3) (d : Nat) : getDie (putErr s e) d = getDie s d := by
  rw [getDie, putErr_dies s e h, getDie]

theorem weirErr_sev {cause : Byte} {n : BitVec 12} {w : Weir} {die : BitVec 4} {info0 : Nat} : (weirErr cause n w die info0).sev ≠ 3 := by
  simp [weirErr]

/-! ## The faults that a weir unit has had (R464) -/

theorem logAppend_weirFaults (l : Log) (r : ErrRec) : (logAppend l r).1.weirFaults = l.weirFaults := by
  unfold logAppend
  split
  · rfl
  · dsimp only
    split
    · rfl
    · split <;> rfl

theorem putErr1_weirFaults (s : State) {e : Err} (h : e.sev ≠ 3) : (putErr1 s e).1.log.weirFaults = s.log.weirFaults := by
  unfold putErr1
  split
  · rfl
  · dsimp only
    rw [(putRecord_log h).1, logAppend_weirFaults]
    split <;> rfl

/-- A record of any kind counts as no fault of a weir unit: WEIR_FAULT is counted where it is found. -/
theorem putErr_weirFaults (s : State) {e : Err} (h : e.sev ≠ 3) : (putErr s e).log.weirFaults = s.log.weirFaults :=
  putErr_keeps (R := fun s t => t.log.weirFaults = s.log.weirFaults) (fun _ _ _ h k => k.trans h) (fun s _ h => putErr1_weirFaults s h) s h

/-- With no fault of a weir unit there is nothing to escalate. -/
theorem escalateWeir_of_no_faults {s : State} (h : s.log.weirFaults = []) : escalateWeir s = s := by
  simp only [escalateWeir, h, List.filter_nil, List.map_nil, List.eraseDups_nil, List.find?_nil]
  rw [← h]

theorem exec_weirCounterArrival {s t : State} {d : Fin 12} {n : BitVec 12} {tile : W16} (ha : arriveAtCounter s d n tile = t) (hf : t.log.weirFaults = []) :
    exec (.weirCounterArrival d n tile) s = .next t := by
  change Host.Outcome.next (escalateWeir _) = _
  rw [ha, escalateWeir_of_no_faults hf]

theorem exec_weirReleaseArrive {s t : State} {d : Fin 12} {n : BitVec 12} {tile : Option W16} (ha : releaseArrive s d n tile = t)
    (hf : t.log.weirFaults = []) : exec (.weirReleaseArrive d n tile) s = .next t := by
  change Host.Outcome.next (escalateWeir _) = _
  rw [ha, escalateWeir_of_no_faults hf]

/-! ## Loads (R248) -/

section load
variable {s : State} {n : BitVec 12} {cfg : W32} {ms : List W16}

theorem exec_weirLoad_refused {st : Byte} (w : Writer) (h : weirLoadRefusal s n cfg ms = some st) : exec (.weirLoad w n cfg ms) s = .next { s with status := st } := by
  change execWeirLoad w n cfg ms s = _
  simp only [execWeirLoad, weirLoad, h]
  rfl

theorem exec_weirLoad_accepted (w : Writer) (h : weirLoadRefusal s n cfg ms = none) :
    exec (.weirLoad w n cfg ms) s = .next (setStatus (weirLoadApply s n cfg ms) stOk) := by
  change execWeirLoad w n cfg ms s = _
  simp only [execWeirLoad, weirLoad, h]

/-- The membership bits are the tiles': no die's record changes. -/
theorem setMembers_dies (s : State) (d : Nat) (n : BitVec 12) (ms : List W16) : (setMembers s d n ms).dies = s.dies := by
  exact (Laws.foldl_keeps (fun (s : State) t => modTile s t fun x => { x with weirMember := mset false x.weirMember n.toNat true }) State.dies
    (fun _ _ => rfl) _ _).trans rfl

theorem getDie_setMembers (s : State) (d e : Nat) (n : BitVec 12) (ms : List W16) : getDie (setMembers s d n ms) e = getDie s e := by
  rw [getDie, setMembers_dies, getDie]

/-- Where each step of a fold sets its own key's value and leaves the others', every key of the list has its value at the end. -/
theorem foldl_sets {α β γ : Type} [DecidableEq α] {f : β → α → β} {get : β → α → γ} {val : α → γ} (own : ∀ b a, get (f b a) a = val a)
    (other : ∀ b a c, c ≠ a → get (f b a) c = get b c) {l : List α} {a : α} (h : a ∈ l) (b : β) : get (l.foldl f b) a = val a := by
  induction l using List.reverseRecOn with
  | nil => cases h
  | append_singleton l c ih =>
    rw [List.foldl_concat]
    by_cases hc : a = c
    · rw [hc, own]
    · rw [other _ _ _ hc]
      exact ih ((List.mem_append.mp h).resolve_right (by simpa using hc))

/-- The record that a load below L6 leaves on a READY die of the span. -/
def loadedWeir (s : State) (cfg : W32) (ms : List W16) (d : Nat) : Weir :=
  { Weir.reset with cfg := cfg &&& 0xFFF00000, members := ms.filter fun m => decide (tDie m = d), site := ms.headD 0
                    lost := ms.any fun m => !dieReady s (tDie m) }

/-- WEIR.CFG.LEVEL is kept whole as the reserved bits are cleared. -/
theorem weirLevel_of_cfg {w : Weir} (h : w.cfg = cfg &&& 0xFFF00000) : weirLevel w = cfg.toNat / 2 ^ 28 % 8 := by
  rw [weirLevel, h]
  exact fldN_and_of_allOnes (by decide) cfg

/-- What a load below L6 does last: the READY dies of the span take their records, and their tiles the membership bits. -/
theorem weirLoadApply_below_L6 (hl : cfg.toNat / 2 ^ 28 % 8 < 6) :
    ∃ t, weirLoadApply s n cfg ms = ((spanDies s (cfg.toNat / 2 ^ 28 % 8) (tDie (ms.headD 0))).filter (dieReady s)).foldl
      (fun t d => setMembers (modDie t d fun x => putWeir x n (loadedWeir s cfg ms d)) d n ms) t := by
  have hlvl := weirLevel_of_cfg (w := { Weir.reset with cfg := cfg &&& 0xFFF00000, lost := ms.any fun t => !dieReady s (tDie t) }) rfl
  have hnot6 : cfg.toNat / 2 ^ 28 % 8 ≠ 6 := by omega
  dsimp only at hlvl
  simp only [weirLoadApply, hlvl, hnot6, if_false]
  exact ⟨_, rfl⟩

/-- An accepted load below L6 leaves a fresh record on every READY die of the span. -/
theorem getWeir_weirLoadApply {d : Nat} (hl : cfg.toNat / 2 ^ 28 % 8 < 6) (hd : d ∈ spanDies s (cfg.toNat / 2 ^ 28 % 8) (tDie (ms.headD 0)))
    (hr : dieReady s d = true) : getWeir (getDie (weirLoadApply s n cfg ms) d) n = loadedWeir s cfg ms d := by
  obtain ⟨t, happly⟩ := weirLoadApply_below_L6 (s := s) (n := n) (ms := ms) hl
  rw [happly]
  refine foldl_sets (get := fun t e => getWeir (getDie t e) n) (fun t e => ?_) (fun t e c hc => ?_) (List.mem_filter.mpr ⟨hd, hr⟩) t
  · rw [getDie_setMembers, getWeir_modDie]
  · rw [getDie_setMembers, getDie_modDie_other _ _ hc]

end load

/-! ## Arrivals at a counter (R250, R251) -/

section arrival
variable {s : State} {d : Nat} {n : BitVec 12}

/-- A weir of level L3 or lower lies on one die (R246). -/
theorem liveDies_of_level_le_three {lvl : Nat} (hl : lvl ≤ 3) (ho : weirOn (getWeir (getDie s d) n) = true) : liveDies s lvl d n = [d] := by
  simp [liveDies, spanDies, hl, ho]

theorem allArrived_singleton : allArrived s n [d] = dieArrived (getWeir (getDie s d) n) := by simp [allArrived]

theorem dieArrived_of_missing {w : Weir} {m : W16} (hm : m ∈ w.members) (ha : w.arrived.contains m = false) : dieArrived w = false := by
  have hne : w.members.isEmpty = false := List.isEmpty_eq_false_iff.mpr (List.ne_nil_of_mem hm)
  have hall : (w.members.all fun t => w.arrived.contains t) = false := List.all_eq_false.mpr ⟨m, hm, by rw [ha]; decide⟩
  rw [dieArrived, hne, hall, Bool.and_false, Bool.or_self]

theorem dieArrived_of_all {w : Weir} (hr : w.release = []) (h : ∀ m ∈ w.members, w.arrived.contains m = true) : dieArrived w = true := by
  have hall : (w.members.all fun t => w.arrived.contains t) = true := List.all_eq_true.mpr h
  rw [dieArrived, hr, hall, List.isEmpty_nil, Bool.and_self, Bool.or_true]

section test
variable (hl : weirLevel (getWeir (getDie s d) n) ≤ 3) (ho : weirOn (getWeir (getDie s d) n) = true)
include hl ho

/-- The root of a weir on one die waits while a member has not arrived. -/
theorem weirTest_waits (ha : dieArrived (getWeir (getDie s d) n) = false) : weirTest s d n = s := by
  simp only [weirTest, liveDies_of_level_le_three hl ho, allArrived_singleton, ha, Bool.not_false, Bool.or_true, if_true]

/-- Once every member has arrived it sends the release of its round. -/
theorem weirTest_releases (hf : (getWeir (getDie s d) n).fault = false) (hp : (getWeir (getDie s d) n).orphaned = false)
    (ha : dieArrived (getWeir (getDie s d) n) = true) : weirTest s d n = sendRelease s d n false := by
  have h6 : weirLevel (getWeir (getDie s d) n) < 6 := by omega
  simp only [weirTest, liveDies_of_level_le_three hl ho, allArrived_singleton, hf, hp, ha, Bool.not_true, Bool.or_self, Bool.false_eq_true, if_false, h6, if_true]

/-- With none on its way before, the release of the open epoch is on its way to the die's own counters, with MEMBER_LOST where LOST stands; a record
may tell of it (R251, R263). -/
theorem sendRelease_of_level_le_three (hr : (getWeir (getDie s d) n).release = []) : (sendRelease s d n false).log.weirFaults = s.log.weirFaults
    ∧ getWeir (getDie (sendRelease s d n false) d) n
      = { getWeir (getDie s d) n with release := [((getWeir (getDie s d) n).epoch, (getWeir (getDie s d) n).lost)] } := by
  have h6 : weirLevel (getWeir (getDie s d) n) ≠ 6 := by omega
  have hround : rootRound (getWeir (getDie s d) n) = (getWeir (getDie s d) n).epoch := by rw [rootRound, hr]; exact BitVec.add_zero _
  simp only [sendRelease, liveDies_of_level_le_three hl ho, List.any_cons, List.any_nil, Bool.or_false, Bool.false_or, onDies, List.foldl_cons,
    List.foldl_nil, h6, if_false]
  split
  · exact ⟨putErr_weirFaults _ weirErr_sev, by rw [getDie_putErr _ weirErr_sev, getWeir_modDie, hround, hr, List.nil_append]⟩
  · exact ⟨rfl, by rw [getWeir_modDie, hround, hr, List.nil_append]⟩

end test

end arrival

section counter
variable {s : State} {d : Fin 12} {n : BitVec 12} {tile : W16} {a : Arrival}

theorem hasArrival_names (h : hasArrival s d n tile = some a) : a.die = d ∧ a.weir = n ∧ a.tile = tile := by
  have hp := List.find?_some h
  simp only [Bool.and_eq_true, decide_eq_true_eq] at hp
  obtain ⟨⟨hdie, hweir⟩, htile⟩ := hp
  exact ⟨hdie, hweir, htile⟩

/-- The state in which an arrival is no longer on its way. -/
def arrivalTaken (s : State) (a : Arrival) : State := { s with net := { s.net with arrivals := s.net.arrivals.erase a } }

/-- A weir with a tile's arrival counted. -/
def countArrival (w : Weir) (t : W16) : Weir := { w with arrived := w.arrived ++ [t] }

theorem contains_countArrival (w : Weir) (t m : W16) : (countArrival w t).arrived.contains m = (w.arrived.contains m || decide (m = t)) := by
  simp [countArrival]

/-- The state in which an arrival stands at its die's counters. -/
def arrivalCounted (s : State) (a : Arrival) : State :=
  modDie (arrivalTaken s a) a.die fun x => putWeir x a.weir (countArrival (getWeir (getDie s a.die) a.weir) a.tile)

theorem getWeir_arrivalCounted (h : hasArrival s d n tile = some a) :
    getWeir (getDie (arrivalCounted s a) d) n = countArrival (getWeir (getDie s d) n) tile := by
  obtain ⟨rfl, rfl, rfl⟩ := hasArrival_names h
  exact getWeir_modDie ..

/-- What an arrival does at its die's counters. -/
theorem counterArrival_eq (s : State) (a : Arrival) : let w := getWeir (getDie s a.die) a.weir
    counterArrival s a = if w.fault || w.orphaned then arrivalTaken s a
      else if a.epoch ≠ w.epoch then putErr (modDie (arrivalTaken s a) a.die fun x => putWeir x a.weir { w with stale := w.stale + 1 })
        (weirErr cWeirStale a.weir w (BitVec.ofNat 4 a.die) 0)
      else if w.copyBad then weirFaultAll (arrivalTaken s a) a.die a.weir
      else if w.arrived.contains a.tile then arrivalTaken s a
      else weirTest (arrivalCounted s a) a.die a.weir := rfl

variable (h : hasArrival s d n tile = some a) (ho : weirOn (getWeir (getDie s d) n) = true) (hf : (getWeir (getDie s d) n).fault = false)
  (hp : (getWeir (getDie s d) n).orphaned = false)
include h ho hf hp

/-- An arrival of another epoch is stale. -/
theorem arriveAtCounter_stale (he : a.epoch ≠ (getWeir (getDie s d) n).epoch) : arriveAtCounter s d n tile
    = putErr (modDie (arrivalTaken s a) d fun x => putWeir x n { getWeir (getDie s d) n with stale := (getWeir (getDie s d) n).stale + 1 })
        (weirErr cWeirStale n (getWeir (getDie s d) n) (BitVec.ofNat 4 d) 0) := by
  obtain ⟨rfl, rfl, -⟩ := hasArrival_names h
  simp only [arriveAtCounter, h]
  rw [if_pos ho, counterArrival_eq, if_neg (by simp [hf, hp]), if_pos he]

section counted
variable (hc : (getWeir (getDie s d) n).copyBad = false) (he : a.epoch = (getWeir (getDie s d) n).epoch)
  (ha : (getWeir (getDie s d) n).arrived.contains tile = false)
include hc he ha

/-- One of the open epoch from a tile that has not arrived counts, and the root tests its round. -/
theorem arriveAtCounter_counts : arriveAtCounter s d n tile = weirTest (arrivalCounted s a) d n := by
  obtain ⟨rfl, rfl, rfl⟩ := hasArrival_names h
  simp only [arriveAtCounter, h]
  rw [if_pos ho, counterArrival_eq, if_neg (by simp [hf, hp]), if_neg (not_not.mpr he), if_neg (by simp [hc]), if_neg (Bool.not_eq_true _ ▸ ha)]

variable (hl : weirLevel (getWeir (getDie s d) n) ≤ 3)
include hl

/-- While another member has not arrived, the round stays open. -/
theorem arriveAtCounter_waits (hm : ∃ m ∈ (getWeir (getDie s d) n).members, m ≠ tile ∧ (getWeir (getDie s d) n).arrived.contains m = false) :
    arriveAtCounter s d n tile = arrivalCounted s a := by
  rw [arriveAtCounter_counts h ho hf hp hc he ha]
  obtain ⟨m, hmem, hne, habs⟩ := hm
  refine weirTest_waits ?_ ?_ ?_ <;> rw [getWeir_arrivalCounted h]
  · exact hl
  · exact ho
  · exact dieArrived_of_missing hmem (by rw [contains_countArrival, habs, decide_eq_false hne, Bool.or_self])

/-- The last one sends the release of the round. -/
theorem arriveAtCounter_releases (hm : ∀ m ∈ (getWeir (getDie s d) n).members, m ≠ tile → (getWeir (getDie s d) n).arrived.contains m = true)
    (hr : (getWeir (getDie s d) n).release = []) : arriveAtCounter s d n tile = sendRelease (arrivalCounted s a) d n false := by
  rw [arriveAtCounter_counts h ho hf hp hc he ha]
  refine weirTest_releases ?_ ?_ ?_ ?_ ?_ <;> rw [getWeir_arrivalCounted h]
  · exact hl
  · exact ho
  · exact hf
  · exact hp
  · refine dieArrived_of_all hr fun m hmem => ?_
    rw [contains_countArrival]
    by_cases hne : m = tile
    · rw [decide_eq_true hne, Bool.or_true]
    · rw [hm m hmem hne, Bool.true_or]

end counted

end counter

/-! ## Releases (R251, R253, R267) -/

section release
variable {s : State} {d : Nat} {n : BitVec 12}

theorem releaseAtDie_opens {h : BitVec 4} {lost : Bool} {more : List (BitVec 4 × Bool)} (hr : (getWeir (getDie s d) n).release = (h, lost) :: more)
    (hc : (getWeir (getDie s d) n).copyBad = false) : releaseAtDie s d n = modDie s d fun x => putWeir x n (openNext (getWeir (getDie s d) n) h lost) := by
  simp only [releaseAtDie, hr, hc, Bool.false_eq_true, if_false]

theorem bitAt_two_pow (k h : BitVec 4) : bitAt (BitVec.ofNat 16 (2 ^ h.toNat)) k.toNat = decide (k = h) := by
  rw [bitAt, BitVec.getLsbD_ofNat, decide_eq_true k.isLt, Bool.true_and, Nat.testBit_two_pow]
  exact decide_eq_decide.mpr (BitVec.toNat_inj.trans eq_comm)

/-- The release of round h marks h where it is lost, and clears the mark of the round that opens (R267). -/
theorem bitAt_openNext_lostMask (w : Weir) (h : BitVec 4) (lost : Bool) (k : BitVec 4) : bitAt (openNext w h lost).lostMask k.toNat
    = if k = h + 1 then false else if k = h then lost || bitAt w.lostMask k.toNat else bitAt w.lostMask k.toNat := by
  have hk : k.toNat < 16 := k.isLt
  have hclear : bitAt (~~~ BitVec.ofNat 16 (2 ^ (h + 1).toNat)) k.toNat = !decide (k = h + 1) := by
    rw [← bitAt_two_pow, bitAt, BitVec.getLsbD_not, decide_eq_true hk, Bool.true_and, bitAt]
  have hmark : bitAt (if lost then w.lostMask ||| BitVec.ofNat 16 (2 ^ h.toNat) else w.lostMask) k.toNat
      = (bitAt w.lostMask k.toNat || (lost && decide (k = h))) := by
    rw [← bitAt_two_pow]
    cases lost
    · simp
    · exact BitVec.getLsbD_or
  have hbit : bitAt (openNext w h lost).lostMask k.toNat = ((bitAt w.lostMask k.toNat || (lost && decide (k = h))) && !decide (k = h + 1)) := by
    rw [← hclear, ← hmark]
    exact BitVec.getLsbD_and
  rw [hbit]
  split
  · next ho => rw [decide_eq_true ho, Bool.not_true, Bool.and_false]
  · next ho =>
    rw [decide_eq_false ho, Bool.not_false, Bool.and_true]
    split
    · next hm => rw [decide_eq_true hm, Bool.and_true, Bool.or_comm]
    · next hm => rw [decide_eq_false hm, Bool.and_false, Bool.or_false]

/-- A release that the tile has not seen reaches it. -/
theorem releaseAtTile_reaches {t : W16} (hd : tDie t = d) (hr : weirReach s (getWeir (getDie s d) n) t = true)
    (hv : mget 0 (getTile s t).weirView n.toNat ≠ (getWeir (getDie s d) n).epoch) :
    releaseAtTile s d n t = modTile s t fun x => { x with weirView := mset 0 x.weirView n.toNat (getWeir (getDie s d) n).epoch
                                                          weirArrived := mset false x.weirArrived n.toNat false } := by
  simp only [releaseAtTile, hd, hr, hv, ne_eq, not_false_eq_true, decide_true, Bool.and_self, if_true]

end release

/-- Settles O20: loads, arrivals at the counters of weirs on one die, and releases at a die's counters and at a tile. -/
theorem weirs : Obligations.Weirs := by
  unfold Obligations.Weirs
  refine ⟨fun s w n cfg ms => ⟨fun st h => exec_weirLoad_refused w h, fun h => ?_⟩, ?_, ?_⟩
  · exact ⟨_, exec_weirLoad_accepted w h, rfl, fun hl d hd hr => getWeir_weirLoadApply hl hd hr⟩
  · intro s d n tile a hlog hfind w hon hfault horph hcopy
    have hcounted := getWeir_arrivalCounted hfind
    refine ⟨fun he => ?_, fun he ha hm hl => ?_, fun he ha hm hl hr => ?_⟩
    · refine ⟨_, exec_weirCounterArrival (arriveAtCounter_stale hfind hon hfault horph he) ?_, ?_, ?_⟩
      · rw [putErr_weirFaults _ weirErr_sev]
        exact hlog
      · rw [getDie_putErr _ weirErr_sev, getWeir_modDie]
      · rw [putErr_net _ _ weirErr_sev]
        rfl
    · exact ⟨_, exec_weirCounterArrival (arriveAtCounter_waits hfind hon hfault horph hcopy he ha (Nat.le_of_lt_succ hl) hm) hlog, hcounted, rfl⟩
    · have hl3 : weirLevel w ≤ 3 := Nat.le_of_lt_succ hl
      obtain ⟨hfaults, hget⟩ := sendRelease_of_level_le_three (s := arrivalCounted s a) (d := d) (n := n) (by rw [hcounted]; exact hl3)
        (by rw [hcounted]; exact hon) (by rw [hcounted]; exact hr)
      exact ⟨_, exec_weirCounterArrival (arriveAtCounter_releases hfind hon hfault horph hcopy he ha hl3 hm hr) (hfaults.trans hlog),
        hget.trans (by rw [hcounted]; rfl)⟩
  · intro s d n tile h lost more hlog w
    refine ⟨fun hr hc => ?_, fun hd hreach hview => ?_⟩
    · refine ⟨_, exec_weirReleaseArrive (releaseAtDie_opens hr hc) hlog, ?_⟩
      dsimp only
      rw [getWeir_modDie]
      exact ⟨rfl, rfl, rfl, congrArg (List.drop 1) hr, rfl, rfl, bitAt_openNext_lostMask w h lost⟩
    · refine ⟨_, exec_weirReleaseArrive (releaseAtTile_reaches hd hreach hview) hlog, ?_⟩
      dsimp only
      rw [getTile_modTile]
      exact ⟨mget_mset_same .., mget_mset_same false (getTile s tile).weirArrived n.toNat false, fun k hk => ⟨mget_mset_other _ _ _ hk, mget_mset_other false (getTile s tile).weirArrived false hk⟩⟩

end Sys2Proof.Machine
end

section
/-!
PROOFS of the statements of the family '10_streams_and_translation.md': the stream objects of a die by number, pushes of handles, invalidations.
-/
namespace Sys2Proof.Machine
open Sys2Proof

/-! ## Stream objects of a die by number (R281, R284, R289) -/

section objects
variable (d : Die) (x : XferRec) (y : Stq) (z : Reach)

theorem getRec_putRec (r k : BitVec 9) : getRec (putRec d r x) k = if k = r then x else getRec d k := by
  simp [getRec, putRec, mget_mset, BitVec.toNat_inj]

@[simp] theorem getRec_putRec_same (r : BitVec 9) : getRec (putRec d r x) r = x := by rw [getRec_putRec, if_pos rfl]
@[simp] theorem getStq_putStq (q : BitVec 12) : getStq (putStq d q y) q = y := mget_mset_same _ _ _ _
@[simp] theorem getReach_putReach (n : BitVec 10) : getReach (putReach d n z) n = z := mget_mset_same _ _ _ _
@[simp] theorem getRec_putStq (q : BitVec 12) (r : BitVec 9) : getRec (putStq d q y) r = getRec d r := rfl
@[simp] theorem getRec_putReach (n : BitVec 10) (r : BitVec 9) : getRec (putReach d n z) r = getRec d r := rfl
@[simp] theorem getStq_putRec (r : BitVec 9) (q : BitVec 12) : getStq (putRec d r x) q = getStq d q := rfl
@[simp] theorem getReach_putRec (r : BitVec 9) (n : BitVec 10) : getReach (putRec d r x) n = getReach d n := rfl

end objects

/-- A status written changes no tile. -/
theorem getTile_setStatus (s : State) (st : Byte) (t : W16) : getTile (setStatus s st) t = getTile s t := rfl

/-! ## Handles dropped (R285) -/

/-- A die that has counted n handles more as dropped. -/
def countDropped (n : W64) (d : Die) : Die := { d with stream := { d.stream with handlesDropped := d.stream.handlesDropped + n } }

theorem countDropped_zero (d : Die) : countDropped 0 d = d :=
  congrArg (fun n => ({ d with stream := { d.stream with handlesDropped := n } } : Die)) (BitVec.add_zero _)

theorem countDropped_add (m n : W64) (d : Die) : countDropped n (countDropped m d) = countDropped (m + n) d := by
  simp only [countDropped, BitVec.add_assoc]

section dropped
variable (s : State) (die : Nat) (t : W16) (j : BitVec 2)

theorem dropHandle_tiles : (dropHandle s die t j).tiles = s.tiles := putErr_tiles _ _ (by simp)

theorem getDie_dropHandle : getDie (dropHandle s die t j) die = countDropped 1 (getDie s die) := by
  rw [dropHandle, getDie_putErr _ (by simp), getDie_modDie]
  rfl

/-- As many handles dropped as a list holds. -/
theorem getDie_foldl_dropHandle {α : Type} (l : List α) :
    getDie (l.foldl (fun s _ => dropHandle s die t j) s) die = countDropped (BitVec.ofNat 64 l.length) (getDie s die) := by
  induction l generalizing s with
  | nil => exact (countDropped_zero _).symm
  | cons a l ih => rw [List.foldl_cons, ih, getDie_dropHandle, countDropped_add, List.length_cons, Nat.add_comm, BitVec.ofNat_add]; rfl

theorem foldl_dropHandle_tiles {α : Type} (l : List α) : (l.foldl (fun s _ => dropHandle s die t j) s).tiles = s.tiles :=
  Laws.foldl_keeps _ (·.tiles) (fun s _ => dropHandle_tiles s die t j) l s

end dropped

/-! ## Pushes to a tile's queue (R285) -/

/-- The name of a tile's queue is that of no context, and not the name of none (R196, R287). -/
theorem tileQueue_name (n : BitVec 3) : n.setWidth 13 ≠ (0x1FFF : BitVec 13) ∧ bitAt (n.setWidth 13) 12 = false ∧ fldN (n.setWidth 13) 0 3 = n.toNat := by
  revert n
  decide

section push
variable {s : State} {die : Nat} {t : W16} {j : BitVec 2} {h : W32} {src : PushSrc} (n : BitVec 3)

/-- A push to a full queue that takes it is held there. -/
theorem pushHandle_tile_held (he : hqEnabled (getHq (getTile s t) n.toNat) = true) (hd : (getHq (getTile s t) n.toNat).draining = false)
    (ho : hqOwner (getHq (getTile s t) n.toNat) = j) (hl : 64 ≤ (getHq (getTile s t) n.toNat).handles.length) :
    pushHandle s die (n.setWidth 13) t j h src = (putTile s t (putHq (getTile s t) n.toNat
      { getHq (getTile s t) n.toNat with held := (getHq (getTile s t) n.toNat).held ++ [⟨src, h, j⟩] }), .held) := by
  obtain ⟨hname, hbit, hnum⟩ := tileQueue_name n
  simp only [pushHandle, if_neg hname, hbit, hnum, he, hd, ho, Nat.not_lt.mpr hl, Bool.false_eq_true, if_false, Bool.not_false, Bool.and_self, decide_true,
    if_true]

/-- A push to a queue that is not enabled, or drains, is dropped. -/
theorem pushHandle_tile_drops (hd : hqEnabled (getHq (getTile s t) n.toNat) = false ∨ (getHq (getTile s t) n.toNat).draining = true) :
    pushHandle s die (n.setWidth 13) t j h src = (dropHandle s die t j, .dropped) := by
  obtain ⟨hname, hbit, hnum⟩ := tileQueue_name n
  have hoff : (hqEnabled (getHq (getTile s t) n.toNat) && !(getHq (getTile s t) n.toNat).draining) = false := by rcases hd with h | h <;> simp [h]
  simp only [pushHandle, if_neg hname, hbit, hnum, hoff, Bool.false_and, Bool.false_eq_true, if_false]

end push

section commands
variable (s : State) (w : Writer) (die : Fin 12) (tile : W16) (n : BitVec 3) (h : W32)

theorem exec_handleWindowPush_tile : exec (.handleWindowPush w die (n.setWidth 13) tile h) s
    = .next (setStatus (pushHandle s die (n.setWidth 13) tile (hqOwner (getHq (getTile s tile) n.toNat)) h .window).1 stOk) := by
  obtain ⟨-, hbit, hnum⟩ := tileQueue_name n
  change execHandleWindowPush w die (n.setWidth 13) tile h s = _
  rw [execHandleWindowPush, if_neg (by simp [hbit]), hnum]

section land
variable {y : Hq} (hy : getHq (getTile s tile) n.toNat = y)
include hy

/-- The oldest push held for a tile's queue lands where a place is free. -/
theorem exec_handlePushLand_lands {p : HeldPush} {rest : List HeldPush} (hp : y.held = p :: rest) (hl : y.handles.length < 64) :
    exec (.handlePushLand die (n.setWidth 13) tile) s
      = .next (pushReleased (modTile s tile fun x => putHq x n.toNat { y with held := rest, handles := y.handles ++ [p.handle] }) p) := by
  obtain ⟨-, hbit, hnum⟩ := tileQueue_name n
  change execHandlePushLand die (n.setWidth 13) tile s = _
  rw [execHandlePushLand, if_neg (by simp [hbit]), hnum]
  simp only [hy, hp, hl, if_true]

/-- None lands in a full one. -/
theorem exec_handlePushLand_full (hl : 64 ≤ y.handles.length) : exec (.handlePushLand die (n.setWidth 13) tile) s = .next s := by
  obtain ⟨-, hbit, hnum⟩ := tileQueue_name n
  change execHandlePushLand die (n.setWidth 13) tile s = _
  rw [execHandlePushLand, if_neg (by simp [hbit]), hnum]
  cases hh : y.held with
  | nil => simp only [hy, hh]
  | cons p rest => simp only [hy, hh, Nat.not_lt.mpr hl, if_false]

end land

end commands

/-- Settles O23: the branches of a push to a tile's queue, and the oldest push held for it. -/
theorem handlePushes : Obligations.HandlePushes := by
  intro s w die tile n h q y
  refine ⟨fun he hd hl => ?_, fun he hd hl => ?_, fun hoff => ?_, fun p rest hp hw hl => ?_, fun hl => ?_⟩
  · obtain ⟨hname, hbit, hnum⟩ := tileQueue_name n
    rw [exec_handleWindowPush_tile, Laws.pushHandle_lands hname hbit (by rwa [hnum]) (by rwa [hnum]) (by rw [hnum]) (by rwa [hnum]), hnum]
    rfl
  · refine ⟨_, exec_handleWindowPush_tile s w die tile n h, ?_⟩
    dsimp only
    rw [pushHandle_tile_held n he hd rfl hl, getTile_setStatus, getTile_putTile, getHq_putHq, if_pos rfl]
  · refine ⟨_, exec_handleWindowPush_tile s w die tile n h, ?_⟩
    rw [pushHandle_tile_drops n hoff]
    exact ⟨dropHandle_tiles .., congrArg (·.stream.handlesDropped) (getDie_dropHandle s die tile _)⟩
  · rw [exec_handlePushLand_lands s die tile n rfl hp hl, pushReleased, hw]
  · exact exec_handlePushLand_full s die tile n rfl hl

/-! ## Invalidations (R294, R295) -/

/-- A map to which f was applied reads as the default, or as f of some value. -/
theorem mget_mmap {α : Type} [DecidableEq α] (d : α) (m : SMap α) (f : Nat → α → α) (k : Nat) : mget d (mmap d m f) k = d ∨ ∃ x, mget d (mmap d m f) k = f k x := by
  induction m with
  | nil => exact .inl rfl
  | cons e m ih =>
    obtain ⟨a, x⟩ := e
    by_cases hx : f a x = d
    · have hskip : mmap d ((a, x) :: m) f = mmap d m f := by simp [mmap, hx]
      rw [hskip]
      exact ih
    · have hkeep : mmap d ((a, x) :: m) f = (a, f a x) :: mmap d m f := by simp [mmap, hx]
      rw [hkeep, mget]
      split
      · next ha => exact .inr ⟨x, by rw [ha]⟩
      · exact ih

section invalidate
variable (s : State) (job : BitVec 2) (first n : Nat)

/-- No cached translation of the job that a die keeps lies in the pages dropped. -/
theorem tlb_invalidate (d : Nat) : ∀ e ∈ (getDie (invalidate s job first n) d).tlb, e.job = job → pageHit first n e.page e.big = false := by
  intro e he hj
  rcases mget_mmap Die.reset s.dies (fun _ x => { x with tlb := x.tlb.filter fun e => !(decide (e.job = job) && pageHit first n e.page e.big) }) d with h | ⟨x, h⟩
  · have hnil : (getDie (invalidate s job first n) d).tlb = [] := congrArg Die.tlb h
    rw [hnil] at he
    cases he
  · have htlb : (getDie (invalidate s job first n) d).tlb = x.tlb.filter fun e => !(decide (e.job = job) && pageHit first n e.page e.big) := congrArg Die.tlb h
    rw [htlb] at he
    simpa [hj] using (List.mem_filter.mp he).2

/-- A translation outside the pages dropped serves no address in them. -/
theorem tlbHit_of_pageHit {e : Tlb} {view : W64} (h : pageHit first n e.page e.big = false) :
    n ≠ 0 ∧ ∀ p, first ≤ p → p < first + n → tlbHit e job view (p * 65536) = false := by
  simp only [pageHit, Bool.or_eq_false_iff, Bool.and_eq_false_iff, decide_eq_false_iff_not] at h
  obtain ⟨hn, hout⟩ := h
  refine ⟨hn, fun p hlo hhi => ?_⟩
  have hmiss : (if e.big then decide (e.page / 32 = p * 65536 / 2 ^ 21) else decide (e.page = p * 65536 / 2 ^ 16)) = false := by
    cases hb : e.big <;> simp only [hb, Bool.false_eq_true, if_true, if_false, decide_eq_false_iff_not] at hout ⊢ <;> omega
  rw [tlbHit, hmiss, Bool.and_false]

end invalidate

section answers
variable {s t : State}

/-- A command that has begun an invalidation is owed its status while steps are under way, and has it at once otherwise. -/
theorem finishInval_begun (hs : t.status = s.status) (ho : t.owed = s.owed) : let u := finishInval (t, stOk)
    (if invalBusy u then u.status = s.status ∧ u.owed = s.owed ++ [.inval] else u.status = stOk) ∧ u.dies = t.dies ∧ u.jobs = t.jobs ∧ u.tiles = t.tiles
    ∧ u.hbm = t.hbm := by
  intro u
  cases hb : invalBusy t with
  | true =>
    have hu : u = { t with owed := t.owed ++ [.inval] } := if_pos ⟨rfl, hb⟩
    have hub : invalBusy u = true := by rw [hu]; exact hb
    rw [if_pos hub, hu]
    exact ⟨⟨hs, by rw [← ho]⟩, rfl, rfl, rfl, rfl⟩
  | false =>
    have hu : u = setStatus t stOk := if_neg fun h => Bool.false_ne_true (hb.symm.trans h.2)
    have hub : invalBusy u = false := by rw [hu]; exact hb
    rw [hub, hu]
    exact ⟨rfl, rfl, rfl, rfl, rfl⟩

/-- A refused one answers at once. -/
theorem finishInval_refused {st : Byte} (h : st ≠ stOk) : finishInval (s, st) = setStatus s st := if_neg fun hc => h hc.1

end answers

section commands
variable {s : State} (w : Writer) (j : BitVec 2) (v : W64)

theorem exec_trnRootWrite_eq : exec (.trnRootWrite w j v) s = .next (finishInval (writeTrnRoot s j v)) := rfl
theorem exec_trnInval_eq : exec (.trnInval w v) s = .next (finishInval (writeTrnInval s v)) := rfl

/-- A state in which TRN.ROOT of a job has been written. -/
def rootWritten (s : State) (j : BitVec 2) (v : W64) : State := modJob s j fun x => { x with regs := { x.regs with trnRoot := v &&& 0x800000FFFFE00000 } }

theorem trnRoot_rootWritten (s : State) (j : BitVec 2) (v : W64) : (getJob (rootWritten s j v) j).regs.trnRoot = v &&& 0x800000FFFFE00000 := by
  rw [rootWritten, getJob_modJob, if_pos rfl]

/-- The three outcomes of a write of TRN.ROOT. -/
theorem writeTrnRoot_eq : writeTrnRoot s j v
    = if invalBusy s then (s, stCfgBusy)
      else if bitAt v 63 && !inReserveNs (v.toNat / 2 ^ 21 % 2 ^ 19 * 2 ^ 21) (2 ^ 21) then (s, stInvalid)
      else (invalidate (rootWritten s j v) j 0 0, stOk) := by
  rw [writeTrnRoot, fldN_eq_div_mod]
  rfl

theorem writeTrnInval_eq : writeTrnInval s v
    = if invalBusy s then (s, stCfgBusy)
      else (invalidate s (v.setWidth 2) (s.mod.invalAddr.toNat / 2 ^ 16 % 2 ^ 32) (v.toNat / 2 ^ 32), stOk) := by
  have hcount : v.toNat / 2 ^ 32 % 2 ^ 32 = v.toNat / 2 ^ 32 := Nat.mod_eq_of_lt (by omega)
  rw [writeTrnInval, fld_zero_eq_setWidth, fldN_eq_div_mod, fldN_eq_div_mod, hcount]

end commands

/-- Settles O25: what both commands drop, and what they are owed. -/
theorem invalidations : Obligations.Invalidations := by
  intro s w j v answered clean
  have hclean (t : State) (job : BitVec 2) (first n : Nat) (u : State) (hu : u.dies = (invalidate t job first n).dies) : clean u job first n := by
    intro d _ e he hj
    rw [getDie, hu] at he
    exact tlbHit_of_pageHit job first n (tlb_invalidate t job first n d e he hj)
  refine ⟨fun hb => ⟨?_, ?_⟩, fun hb => ⟨fun hv hr => ?_, fun hv => ?_, ?_⟩⟩
  · rw [exec_trnRootWrite_eq, writeTrnRoot_eq, if_pos hb, finishInval_refused (by decide)]
    rfl
  · rw [exec_trnInval_eq, writeTrnInval_eq, if_pos hb, finishInval_refused (by decide)]
    rfl
  · rw [exec_trnRootWrite_eq, writeTrnRoot_eq, if_neg (Bool.eq_false_iff.mp hb), if_pos (by rw [hv, hr]; rfl), finishInval_refused (by decide)]
    rfl
  · have hok : (bitAt v 63 && !inReserveNs (v.toNat / 2 ^ 21 % 2 ^ 19 * 2 ^ 21) (2 ^ 21)) = false := by rcases hv with h | h <;> simp only [h, Bool.false_and, Bool.not_true, Bool.and_false]
    obtain ⟨hans, hdies, hjobs, -, -⟩ := finishInval_begun (s := s) (t := invalidate (rootWritten s j v) j 0 0) rfl rfl
    refine ⟨_, by rw [exec_trnRootWrite_eq, writeTrnRoot_eq, if_neg (Bool.eq_false_iff.mp hb), if_neg (Bool.eq_false_iff.mp hok)], hans, ?_, hclean _ _ _ _ _ hdies⟩
    rw [getJob, hjobs]
    exact trnRoot_rootWritten s j v
  · obtain ⟨hans, hdies, -, htiles, hhbm⟩ := finishInval_begun (s := s)
      (t := invalidate s (v.setWidth 2) (s.mod.invalAddr.toNat / 2 ^ 16 % 2 ^ 32) (v.toNat / 2 ^ 32)) rfl rfl
    exact ⟨_, by rw [exec_trnInval_eq, writeTrnInval_eq, if_neg (Bool.eq_false_iff.mp hb)], hans, hclean _ _ _ _ _ hdies, htiles, hhbm⟩

end Sys2Proof.Machine
end

section
/-!
PROOFS of the statements of the family '10_streams_and_translation.md', continued: descriptors posted, reaches armed, transfers and passes that start.
-/
namespace Sys2Proof.Machine
open Sys2Proof

/-! ## A descriptor in a free record (R274, R281) -/

/-- State t is s with a descriptor posted on context q: appended to the context's queue in record r, every other record as it was. -/
def Posted (s t : State) (die : Nat) (q : BitVec 12) (r : BitVec 9) (job : BitVec 2) (world : Bool) (tile : W16) (desc : BitVec 512) : Prop :=
  (getStq (getDie t die) q).recs = (getStq (getDie s die) q).recs ++ [r]
  ∧ (let x := getRec (getDie t die) r
     x.st = .queued ∧ x.job = job ∧ x.world = world ∧ x.tile = tile ∧ x.qid = q ∧ x.reach = false ∧ x.desc = desc ∧ x.legs = []
     ∧ x.gen = (getRec (getDie s die) r).gen ∧ x.ord = s.net.ord)
  ∧ ∀ k, k ≠ r → getRec (getDie t die) k = getRec (getDie s die) k

theorem getDie_bumpOrd (s : State) (d : Nat) : getDie (bumpOrd s) d = getDie s d := rfl

section postDesc
variable {s : State} {die : Nat} {q : BitVec 12} {r : BitVec 9} (tile : W16) (job : BitVec 2) (world : Bool) (desc : BitVec 512)
variable (h : postFree (getDie s die) (getStq (getDie s die) q) = some r)
include h

theorem postDesc_eq : postDesc s die q tile job world desc = bumpOrd (modDie s die fun d =>
    putRec (putStq d q { getStq d q with recs := (getStq d q).recs ++ [r] }) r (newRec s (getRec d r) job world tile q false desc)) := by
  simp only [postDesc, h]

theorem posted_postDesc : Posted s (postDesc s die q tile job world desc) die q r job world tile desc := by
  have hdie : getDie (postDesc s die q tile job world desc) die
      = putRec (putStq (getDie s die) q { getStq (getDie s die) q with recs := (getStq (getDie s die) q).recs ++ [r] }) r
          (newRec s (getRec (getDie s die) r) job world tile q false desc) := by
    rw [postDesc_eq tile job world desc h, getDie_bumpOrd, getDie_modDie]
  rw [Posted, hdie, getStq_putRec, getStq_putStq, getRec_putRec_same]
  exact ⟨rfl, ⟨rfl, rfl, rfl, rfl, rfl, rfl, rfl, rfl, rfl, rfl⟩, fun k hk => by rw [getRec_putRec, if_neg hk, getRec_putStq]⟩

theorem postDesc_tiles : (postDesc s die q tile job world desc).tiles = s.tiles := by rw [postDesc_eq tile job world desc h]; rfl

end postDesc

/-! ## SPOST (R274) -/

section evalSpost
variable {s : State} {t : W16} {j : BitVec 2} {c : Ctx} {gA : BitVec 5} {q : BitVec 12}

/-- The descriptor in the scratchpad at gA. -/
def postedDesc (s : State) (t : W16) (c : Ctx) (gA : BitVec 5) : BitVec 512 := BitVec.ofNat 512 (leNat (spadRead (getTile s t) (getG c gA).toNat 64))

theorem evalSpost_refused {cause : Byte} (h : postCheck (getDie s (tDie t)) q j = some cause) : evalSpost s t j c gA q = excRes cause 0 := by
  simp only [evalSpost, h]

variable (hc : postCheck (getDie s (tDie t)) q j = none) (ha : (getG c gA).toNat % 64 = 0) (hs : inShare (getTile s t) j (getG c gA).toNat 64 = true)
  (hb : spadBad (getTile s t) (getG c gA).toNat 64 = false)
include hc ha hs hb

theorem evalSpost_free {r : BitVec 9} (hf : postFree (getDie s (tDie t)) (getStq (getDie s (tDie t)) q) = some r) :
    evalSpost s t j c gA q = { act := fun u => postDesc u (tDie t) q t j false (postedDesc s t c gA) } := by
  simp only [evalSpost, hc, memCheck_ok ha hs, hb, hf, Bool.false_eq_true, if_false, Option.isNone_some]
  rfl

theorem evalSpost_full (hf : postFree (getDie s (tDie t)) (getStq (getDie s (tDie t)) q) = none) :
    ∃ act, evalSpost s t j c gA q = { blocked := true, limit := some 0, act } := by
  simp only [evalSpost, hc, memCheck_ok ha hs, hb, hf, Bool.false_eq_true, if_false, Option.isNone_none, if_true]
  exact ⟨_, rfl⟩

end evalSpost

/-- A state in which a reach has taken a base. -/
def baseTaken (die : Nat) (n : BitVec 10) (base : W64) (s : State) : State := modDie s die fun d => putReach d n (rearmReach (getReach d n) base)

section xfer
variable {s : State} {h : SlotHdr} {j : BitVec 2} {gA gB : BitVec 5} {q : BitVec 12}
variable (hi : canIssue s h j = true) (he : h.eng = true)
include hi he

theorem evalSlot_xfer (op : BitVec 6) : evalSlot s h.tile j (ctxOf s h.tile j) h.eng false false (slotOf h (.xfer op gA gB q))
    = evalXfer s h.tile j (ctxOf s h.tile j) op gA gB q false :=
  evalSlot_own hi (by rw [he]; rfl)

/-- A post that the context refuses stops the poster's context. -/
theorem exec_spost_refused {cause : Byte} (hc : postCheck (getDie s (tDie h.tile)) q j = some cause) :
    exec (.spost h gA q) s = .next (stopped s h j cause 0) := by
  rw [exec_coreSlot rfl]
  exact slotCmd_excRes hi ((evalSlot_xfer hi he 0x01).trans (evalSpost_refused hc))

section descriptor
variable (hc : postCheck (getDie s (tDie h.tile)) q j = none) (ha : (getG (ctxOf s h.tile j) gA).toNat % 64 = 0)
  (hs : inShare (getTile s h.tile) j (getG (ctxOf s h.tile j) gA).toNat 64 = true)
  (hb : spadBad (getTile s h.tile) (getG (ctxOf s h.tile j) gA).toNat 64 = false)
include hc ha hs hb

/-- A post with a free record retires. -/
theorem exec_spost_posts {r : BitVec 9} (hf : postFree (getDie s (tDie h.tile)) (getStq (getDie s (tDie h.tile)) q) = some r) :
    exec (.spost h gA q) s
      = .next (postDesc (advance s h j id) (tDie h.tile) q h.tile j false (postedDesc s h.tile (ctxOf s h.tile j) gA)) := by
  rw [exec_coreSlot rfl]
  exact slotCmd_act hi rfl ((evalSlot_xfer hi he 0x01).trans (evalSpost_free hc ha hs hb hf))

/-- A post without one holds its bundle. -/
theorem exec_spost_waits (hf : postFree (getDie s (tDie h.tile)) (getStq (getDie s (tDie h.tile)) q) = none) :
    ∃ r : SlotRes, r.start = id ∧ exec (.spost h gA q) s = .next (hold s h.tile j (decodeSlot h.mate) (slotOf h (.xfer 0x01 gA 0 q)) {} r) := by
  obtain ⟨act, hr⟩ := evalSpost_full hc ha hs hb hf
  refine ⟨{ blocked := true, limit := some 0, act }, rfl, ?_⟩
  rw [exec_coreSlot rfl, slotCmd_runs hi ((evalSlot_xfer hi he 0x01).trans hr)]
  simp [he, bundleOf]

end descriptor

/-! ## REARM (R291) -/

/-- A reach that has no base pending takes one. -/
theorem exec_rearm_takes (hq : q.toNat < 1024) (hc : rearmCheck (getReach (getDie s (tDie h.tile)) (q.setWidth 10)) j (getG (ctxOf s h.tile j) gB) = none)
    (hp : (getReach (getDie s (tDie h.tile)) (q.setWidth 10)).pending = false) :
    exec (.rearm h gB q) s = .next (baseTaken (tDie h.tile) (q.setWidth 10) (getG (ctxOf s h.tile j) gB) (advance s h j id)) := by
  have hr : evalRearm s h.tile j (ctxOf s h.tile j) gB q = { act := baseTaken (tDie h.tile) (q.setWidth 10) (getG (ctxOf s h.tile j) gB) } := by
    simp only [evalRearm, Nat.not_le.mpr hq, hc, hp, Bool.false_eq_true, if_false]
    rfl
  rw [exec_coreSlot rfl]
  exact slotCmd_act hi rfl ((evalSlot_xfer hi he 0x02).trans hr)

end xfer

/-! ## WINDOW_POST (R274) -/

section windowPost
variable {s : State} {die : Fin 12} {q : BitVec 12} (w : Writer) (desc : BitVec 512)
variable (hc : postCheck (getDie s die) q (stqOwner (getStq (getDie s die) q)) = none)
include hc

theorem exec_windowPost_posts {r : BitVec 9} (hf : postFree (getDie s die) (getStq (getDie s die) q) = some r) : exec (.windowPost w die q desc) s
    = .next (setStatus (postDesc s die q (stqTile (getStq (getDie s die) q)) (stqOwner (getStq (getDie s die) q)) (secureWriter w) desc) stOk) := by
  change execWindowPost w die q desc s = _
  simp only [execWindowPost, hc, hf, Option.isNone_some, Bool.false_eq_true, if_false]
  rfl

theorem exec_windowPost_busy (hf : postFree (getDie s die) (getStq (getDie s die) q) = none) :
    exec (.windowPost w die q desc) s = .next { s with status := stBusy } := by
  change execWindowPost w die q desc s = _
  simp only [execWindowPost, hc, hf, Option.isNone_none, if_true]
  rfl

end windowPost

/-! ## The first descriptor of a record (R273, R276, R288) -/

/-- The leg that a record's first descriptor becomes, where it takes no handle. -/
def firstLeg (s : State) (die : Nat) (x : XferRec) : Leg :=
  { num := 0, desc := x.desc, handle := x.handle, htile := x.htile, view := (getJob s x.job).regs.trnView, viewEp := (getJob s x.job).viewEp, next := 0,
    steps := [], status := if descOk s die x.tile false x.desc then 0 else cDescInvalid, failAt := 0, failInfo := 0, failInj := false, walk := none,
    fault := none, told := false }

/-- The record as its first descriptor begins. -/
def startedRec (s : State) (die : Nat) (x : XferRec) : XferRec :=
  let l := firstLeg s die x
  { x with st := .running, begun := 1, legs := [l], nextOp := dNext x.desc, handle := none, htile := 0, view := l.view, viewEp := l.viewEp
           ended := x.ended || decide (l.status ≠ 0) }

/-- A posted descriptor that names no IN_Q begins at once; one that fails R273 begins failed. -/
theorem beginLeg_first {s : State} {die : Nat} {r : BitVec 9} {x : XferRec} (hx : getRec (getDie s die) r = x) (hr : x.reach = false) (hb : x.begun = 0)
    (hl : x.legs = []) (hq : dInQ x.desc = 0x1FFF) : beginLeg s die r x.desc = modRec s die r fun _ => startedRec s die x := by
  have hrec : beginLeg s die r x.desc = modRec s die r fun y => { y with
      st := .running, begun := y.begun + 1, legs := y.legs ++ [firstLeg s die x], nextOp := if y.reach then 0xFFFFFF else dNext x.desc
      handle := if y.reach then (firstLeg s die x).handle else none, htile := if y.reach then (firstLeg s die x).htile else 0
      view := (firstLeg s die x).view, viewEp := (firstLeg s die x).viewEp, ended := y.ended || decide ((firstLeg s die x).status ≠ 0) } := by
    cases hd : descOk s die x.tile false x.desc <;> simp [beginLeg, firstLeg, hx, hr, hb, hq, hd]
  rw [hrec, modRec, modRec, modDie, modDie, hx, startedRec, hr, hb, hl]
  rfl

/-- The first queued record of an active context starts where its engine has room. -/
theorem exec_transferStart_queued {s : State} {die : Fin 12} {r : BitVec 9} {x : XferRec} (hx : getRec (getDie s die) r = x) (hs : x.st = .queued)
    (hf : (getJob s x.job).frozen = false) (ha : (getStq (getDie s die) x.qid).st = .active) (h1 : firstQueued (getDie s die) x.qid r = true)
    (he : engineLoad (getDie s die) (recEngine (getDie s die) x) < 64) : exec (.transferStart die r) s = .next (beginLeg s die r x.desc) := by
  change execTransferStart die r s = _
  simp only [execTransferStart, hx, hf, hs, ha, h1, he, Bool.false_eq_true, if_false, if_true, decide_true, true_or, Bool.and_self]

/-! ## A pass of a reach (R290) -/

section pass
variable (s : State) (die : Fin 12) (n : BitVec 10) (r : BitVec 9)

/-- The leg of a pass that takes no handle. -/
def passLeg (y : Reach) : Leg :=
  { num := 0, desc := mget 0 y.descs 0, handle := none, htile := 0, view := (getJob s (reachOwner y)).regs.trnView, viewEp := (getJob s (reachOwner y)).viewEp,
    next := 0, steps := [], status := 0, failAt := 0, failInfo := 0, failInj := false, walk := none, fault := none, told := false }

/-- Its record. -/
def passRec (y : Reach) : XferRec :=
  { newRec s (getRec (getDie s die) r) (reachOwner y) y.world (reachHome y) (n.setWidth 12) true (mget 0 y.descs 0) with
    passAddr := y.base + BitVec.ofNat 64 y.pass.toNat * y.stride, st := .running, begun := 1, legs := [passLeg s y], view := (passLeg s y).view
    viewEp := (passLeg s y).viewEp }

variable {s die n r} {y : Reach}

/-- The next pass of an armed reach takes a free record. -/
theorem exec_reachPassStart_starts (hy : getReach (getDie s die) n = y) (ha : y.st = .armed) (hf : (getJob s (reachOwner y)).frozen = false)
    (hp : y.pass.toNat < reachPasses y) (hd : y.recs.length < reachDepth y) (hr : (getRec (getDie s die) r).st = .free)
    (he : engineLoad (getDie s die) (reachEngine y) < 64) (hq : dInQ (mget 0 y.descs 0) = 0x1FFF) :
    exec (.reachPassStart die n r) s = .next (bumpOrd (modDie s die fun d =>
      putReach (putRec d r (passRec s die n r y)) n { getReach d n with pass := y.pass + 1, recs := y.recs ++ [r] })) := by
  change execReachPassStart die n r s = _
  simp only [execReachPassStart, hy, ha, hf, hp, hd, hr, he, hq, decide_true, Bool.not_false, Bool.and_self, if_true, ne_eq, not_true_eq_false, if_false]
  subst hy
  rfl

end pass

/-- Settles O21: a post finds a free record or waits, a reach takes its base, and a queued record and a pass start. -/
theorem streamPostsAndStarts : Obligations.StreamPostsAndStarts := by
  refine ⟨fun s => ⟨fun h j gA gB q hi he => ⟨fun cause hc => ?refused, fun hc ha hs hb => ⟨fun r hf => ?posts, fun hf => ?waits⟩, fun hq hc hp => ?rearm⟩,
    fun w die q desc hc => ⟨fun r hf => ?window, fun hf => ?busy⟩⟩, fun s die r => ⟨fun hs hr hb hl hf ha h1 hload hq => ?start,
    fun n ha hf hp hd hr hload hq => ?pass⟩⟩
  case refused => exact exec_spost_refused hi he hc
  case posts =>
    refine ⟨_, exec_spost_posts hi he hc ha hs hb hf, posted_postDesc h.tile j false _ (s := advance s h j id) hf, ?_⟩
    rw [ctxOf, getTile, postDesc_tiles _ _ _ _ (s := advance s h j id) hf, ← getTile, ← ctxOf, ctxOf_advance]
  case waits =>
    obtain ⟨res, hstart, hexec⟩ := exec_spost_waits hi he hc ha hs hb hf
    refine ⟨_, hexec, (hold_waits s h.tile j _ _ rfl hstart).1, ?_⟩
    rw [hold, hstart]
    rfl
  case rearm =>
    refine ⟨_, exec_rearm_takes hi he hq hc hp, ?_, congrArg Ctx.pc (ctxOf_advance s h j id)⟩
    rw [baseTaken, getDie_modDie, getReach_putReach]
    rfl
  case window => exact ⟨_, exec_windowPost_posts w desc hc hf, rfl, posted_postDesc _ _ _ _ hf⟩
  case busy => exact exec_windowPost_busy w desc hc hf
  case start =>
    refine ⟨_, exec_transferStart_queued rfl hs hf ha h1 hload, ?_⟩
    dsimp only
    rw [beginLeg_first rfl hr hb hl hq, getRec_modRec]
    exact ⟨_, rfl, rfl, rfl, rfl, rfl, rfl, rfl, rfl, rfl, rfl⟩
  case pass =>
    refine ⟨_, exec_reachPassStart_starts rfl ha hf hp hd hr hload hq, ?_⟩
    dsimp only
    rw [getDie_bumpOrd, getDie_modDie, getRec_putReach, getRec_putRec_same, getReach_putReach]
    exact ⟨rfl, rfl, rfl, rfl, rfl, rfl⟩

end Sys2Proof.Machine
end

section
/-!
PROOFS of the statements of the family '10_streams_and_translation.md', continued: steps of transfers, table walks and completion.
-/
namespace Sys2Proof.Machine
open Sys2Proof

/-! ## Records and their newest legs (R275, R281) -/

theorem getDie_modRec (s : State) (die : Nat) (r : BitVec 9) (f : XferRec → XferRec) :
    getDie (modRec s die r f) die = putRec (getDie s die) r (f (getRec (getDie s die) r)) := getDie_modDie _ _ _

theorem lastLeg_of_legs {x : XferRec} {ls : List Leg} {l : Leg} (h : x.legs = ls ++ [l]) : lastLeg x = some l := by
  rw [lastLeg, h, List.getLast?_concat]

/-- A change of the newest leg. -/
theorem lastLeg_modLeg {x : XferRec} {l : Leg} {n : Nat} (h : lastLeg x = some l) (hn : l.num = n) (f : Leg → Leg) : lastLeg (modLeg x n f) = some (f l) := by
  rw [lastLeg] at h ⊢
  rw [modLeg, List.getLast?_map, h, Option.map_some, if_pos hn]

/-- A change of the only leg. -/
theorem legs_modLeg {x : XferRec} {l : Leg} (h : x.legs = [l]) (f : Leg → Leg) : (modLeg x l.num f).legs = [f l] := by
  simp [modLeg, h]

/-! ## A fault parks its transfer (R297) -/

/-- A die that has counted one translation fault more. -/
def countFault (d : Die) : Die := { d with stream := { d.stream with faults := d.stream.faults + 1 } }

theorem getRec_countFault (d : Die) (r : BitVec 9) : getRec (countFault d) r = getRec d r := rfl

/-- The record of a transfer that parks on a fault. -/
def parkedRec (l : Leg) (reason : BitVec 3) (time : W64) (x : XferRec) : XferRec :=
  { modLeg x l.num fun l => { l with fault := none, walk := none } with st := .parked, reason, parkedAt := time }

section fault
variable {s : State} {die : Nat} {r : BitVec 9}

theorem getDie_parkFault (l : Leg) (f : BitVec 3 × Bool × W64) :
    getDie (parkFault s die r l f) die = countFault (putRec (getDie s die) r (parkedRec l f.1 s.mod.time (getRec (getDie s die) r))) := by
  rw [parkFault, getDie_putErr _ (by simp [streamErr]), getDie_modDie, getDie_modRec]
  rfl

/-- A fault of the newest leg parks a running transfer that has nothing in flight. -/
theorem settleRec_parks {l : Leg} {f : BitVec 3 × Bool × W64} (hs : (getRec (getDie s die) r).st = .running) (hz : (getRec (getDie s die) r).freezing = false)
    (hl : lastLeg (getRec (getDie s die) r) = some l) (hf : l.fault = some f) (hi : l.steps = []) : settleRec s die r = parkFault s die r l f := by
  simp only [settleRec, hs, hz, hl, hf, hi, List.isEmpty_nil, Bool.false_eq_true, if_false, if_true, ne_eq, not_true_eq_false]

/-- A fault found at the next step of a transfer that has nothing in flight. -/
theorem faultNext_parks {l l' : Leg} (reason : BitVec 3) (dst : Bool) (va : Nat) (hs : (getRec (getDie s die) r).st = .running)
    (hz : (getRec (getDie s die) r).freezing = false) (hl : lastLeg (getRec (getDie s die) r) = some l') (hn : l'.num = l.num) (hi : l'.steps = []) :
    let d := getDie (faultNext s die r l reason dst va) die
    (getRec d r).st = .parked ∧ (getRec d r).reason = reason ∧ (getRec d r).parkedAt = s.mod.time ∧ d.stream.faults = (getDie s die).stream.faults + 1
    ∧ d.tlb = (getDie s die).tlb := by
  dsimp only
  rw [faultNext, settleRec_parks (l := { l' with walk := none, fault := some (reason, dst, BitVec.ofNat 64 va) }) (by rw [getRec_modRec]; exact hs)
    (by rw [getRec_modRec]; exact hz) (by rw [getRec_modRec]; exact lastLeg_modLeg hl hn _) rfl hi, getDie_parkFault, getRec_countFault, getRec_putRec_same, getDie_modRec]
  exact ⟨rfl, rfl, rfl, rfl, rfl⟩

end fault

/-! ## The next step between two virtual ranges (R269, R296) -/

/-- The step that a transfer between virtual ranges takes next, to a physical address. -/
def nextStep (s : State) (x : XferRec) (l : Leg) (b : Nat) (ba bb : Bool) : StepRec :=
  { id := s.net.ord, off := l.next, len := stepLen x l l.next, data := [], reads := stepLen x l l.next / 64, writes := 0, dst := some b
    vas := [(sideVa x l false l.next, ba), (sideVa x l true l.next, bb)] }

/-- Its reads. -/
def stepReads (s : State) (die : Fin 12) (r : BitVec 9) (x : XferRec) (l : Leg) (a : Nat) : List MemReq :=
  (List.range (stepLen x l l.next / 64)).map fun i =>
    { pa := a + 64 * i, write := none, die, xrec := r, step := s.net.ord, idx := i, world := x.world, job := x.job }

theorem issueStep_virt (s : State) (die : Fin 12) (r : BitVec 9) (x : XferRec) (l : Leg) (a b : Nat) (ba bb : Bool) :
    issueStep s die r x l (some (a, ba)) (some (b, bb)) = pushReqs (addStep s die r l (nextStep s x l b ba bb)) (paStack a) (stepReads s die r x l a) := rfl

theorem getStack_pushReqs (s : State) (n : Nat) (rs : List MemReq) : (getStack (pushReqs s n rs) n).reqs = (getStack s n).reqs ++ rs := by
  rw [pushReqs, getStack_putStack]

theorem getRec_addStep (s : State) (die : Nat) (r : BitVec 9) (l : Leg) (t : StepRec) : getRec (getDie (addStep s die r l t) die) r
    = modLeg (getRec (getDie s die) r) l.num fun l => { l with next := l.next + t.len, steps := l.steps ++ [t] } := by
  rw [addStep, getDie_bumpOrd, getRec_modRec]

section step
variable {s : State} {die : Fin 12} {r : BitVec 9} {x : XferRec} {l : Leg}
variable (hx : getRec (getDie s die) r = x) (hl : lastLeg x = some l) (hs : x.st = .running) (hz : x.freezing = false) (h0 : l.status = 0) (hw : l.walk = none)
  (hf : l.fault = none) (hn : l.next < dTotal l.desc) (hsrc : dSrcKind l.desc = 0) (hdst : dDstKind l.desc = 0)
include hx hl hs hz h0 hw hf hn hsrc hdst

omit hx hl hsrc hdst in
/-- It may take its next step. -/
theorem stepGuard_true :
    (decide (x.st = .running) && !x.freezing && decide (l.status = 0) && l.walk.isNone && l.fault.isNone && decide (l.next < dTotal l.desc)) = true := by
  simp [hs, hz, h0, hw, hf, hn]

theorem exec_transferStep_issues {a b : Nat} {ba bb : Bool} (ha : xlate s (getDie s die) x.job l.view (sideVa x l false l.next) false = .pa a ba)
    (hb : xlate s (getDie s die) x.job l.view (sideVa x l true l.next) true = .pa b bb)
    (hr : engineRoom s (getDie s die) x (stepLen x l l.next) (some (a, ba)) (some (b, bb)) = true) :
    exec (.transferStep die r) s = .next (issueStep s die r x l (some (a, ba)) (some (b, bb))) := by
  have hks : dKind l.desc false = 0 := hsrc
  have hkd : dKind l.desc true = 0 := hdst
  change execTransferStep die r s = _
  simp only [execTransferStep, hx, hl, stepGuard_true hs hz h0 hw hf hn, if_true, hks, hkd, ha, hb, hr]

omit hdst

theorem exec_transferStep_walks (ha : xlate s (getDie s die) x.job l.view (sideVa x l false l.next) false = .miss) (hb : walksBusy (getDie s die) < 32) :
    exec (.transferStep die r) s
      = .next (modRec s die r fun x => modLeg x l.num fun k => { k with walk := some (false, BitVec.ofNat 64 (sideVa x k false k.next)) }) := by
  have hks : dKind l.desc false = 0 := hsrc
  change execTransferStep die r s = _
  simp only [execTransferStep, hx, hl, stepGuard_true hs hz h0 hw hf hn, if_true, hks, ha, hb]

theorem exec_transferStep_faults {f : BitVec 3} (ha : xlate s (getDie s die) x.job l.view (sideVa x l false l.next) false = .fault f) :
    exec (.transferStep die r) s = .next (faultNext s die r l f false (sideVa x l false l.next)) := by
  have hks : dKind l.desc false = 0 := hsrc
  change execTransferStep die r s = _
  simp only [execTransferStep, hx, hl, stepGuard_true hs hz h0 hw hf hn, if_true, hks, ha]

end step

/-! ## Table walks (R292, R293, R295, R297) -/

section walk
variable {s : State} {die : Fin 12} {r : BitVec 9} {x : XferRec} {l : Leg} {dst : Bool} {va : W64}
variable (hx : getRec (getDie s die) r = x) (hl : lastLeg x = some l) (hs : x.st = .running) (hw : l.walk = some (dst, va)) (evict : Nat)
include hx hl hs hw

omit hx hl hs hw in
/-- A cache with room takes a translation, whatever becomes of the die's records. -/
theorem tlbInsert_room {d : Die} (e : Tlb) (evict : Nat) (h : d.tlb.length < 2048) (y : XferRec) :
    tlbInsert (putRec d r y) e evict = { putRec d r y with tlb := d.tlb ++ [e] } := if_pos h

theorem exec_translationWalkDone_found {u : State} {e : Tlb} {a : Nat} {big : Bool} (h : walk s x.job x.world l.view va.toNat dst = (u, .pa a big, some e)) :
    exec (.translationWalkDone die r evict) s
      = .next (modDie (modRec u die r fun x => modLeg x l.num fun l => { l with walk := none }) die fun d => tlbInsert d e evict) := by
  change execTranslationWalkDone die r evict s = _
  simp only [execTranslationWalkDone, hx, hl, hw, hs, h, ne_eq, not_true_eq_false, if_false]

theorem exec_translationWalkDone_fault {u : State} {f : BitVec 3} (h : walk s x.job x.world l.view va.toNat dst = (u, .fault f, none)) :
    exec (.translationWalkDone die r evict) s
      = .next (faultNext (modRec u die r fun x => modLeg x l.num fun l => { l with walk := none }) die r l f dst va.toNat) := by
  change execTranslationWalkDone die r evict s = _
  simp only [execTranslationWalkDone, hx, hl, hw, hs, h, ne_eq, not_true_eq_false, if_false]

end walk

/-! ## Completion (R277, R281) -/

section complete

/-- A completion counts on the counter of its tile, where the descriptor names one. -/
theorem countXfer_counts {s : State} {die : Nat} {r : BitVec 9} {x : XferRec} {l : Leg} (hd : dDstKind l.desc = 0) (ht : tileTakes s x.tile = true) :
    countXfer s die r x l = if dAcntEn l.desc then arriveCount s x.tile (dAcnt l.desc) x.job else s := by
  have htile : countTile x l = x.tile := if_pos hd
  cases ha : dAcntEn l.desc <;> simp [countXfer, htile, ht, ha]

theorem acntAdd_dies (s : State) (t : W16) (k : Nat) (n : W64) : (acntAdd s t k n).dies = s.dies :=
  (markDue_keeps (·.dies) t (fun _ _ _ => rfl) _).trans rfl

theorem arriveCount_dies (s : State) (t : W16) (k : Nat) (j : BitVec 2) : (arriveCount s t k j).dies = s.dies := by
  unfold arriveCount
  dsimp only
  split
  · exact acntAdd_dies _ _ _ _
  · exact putErr_dies _ _ (by simp [tileErr])

theorem getAcnt_acntAdd (s : State) (t : W16) (k : Nat) (n : W64) :
    getAcnt (getTile (acntAdd s t k n) t) k = { getAcnt (getTile s t) k with value := (getAcnt (getTile s t) k).value + n } := by
  rw [acntAdd, getAcnt_markDue, getTile_modTile, getAcnt_putAcnt, if_pos rfl]

/-- References given back are a publication's and a job's. -/
theorem settleViews_keeps {α : Type} (P : State → α) (hp : ∀ s e x, P (putPub s e x) = P s) (hj : ∀ s j f, P (modJob s j f) = P s) (s : State) (j : BitVec 2) :
    P (settleViews s j) = P s := by
  rw [settleViews, hj]
  exact Laws.foldl_keeps _ P (fun s o => hp s _ _) _ _

theorem getRec_settleStqP (d : Die) (q : BitVec 12) (r : BitVec 9) : getRec (settleStqP d q) r = getRec d r := by
  unfold settleStqP
  dsimp only
  split <;> rfl

theorem recs_settleStqP (d : Die) (q : BitVec 12) : (getStq (settleStqP d q) q).recs = (getStq d q).recs := by
  unfold settleStqP
  dsimp only
  split
  · rw [getStq_putStq]
  · rfl

/-- A record of a context that is freed: its generation rises, and its context holds it no more. -/
theorem freeRecord_frees {s : State} {die : Nat} {r : BitVec 9} (h : (getRec (getDie s die) r).reach = false) : let t := freeRecord s die r
    getRec (getDie t die) r = { XferRec.reset with gen := (getRec (getDie s die) r).gen + 1 }
    ∧ r ∉ (getStq (getDie t die) (getRec (getDie s die) r).qid).recs := by
  have hdie : getDie (freeRecord s die r) die = _ := getDie_modDie _ _ _
  simp only [h, Bool.false_eq_true, if_false] at hdie
  dsimp only
  rw [hdie, getRec_settleStqP, recs_settleStqP, getStq_putStq, getRec_putStq, getRec_putRec_same]
  exact ⟨rfl, fun hr => by simpa using (List.mem_filter.mp hr).2⟩

/-- The last leg of a chain that has ended leaves. -/
theorem legDone_last {s : State} {die : Nat} {r : BitVec 9} {x : XferRec} {l : Leg} (hx : getRec (getDie s die) r = x) (hl : x.legs = [l]) (hr : x.reach = false)
    (hn : x.nextOp = 0xFFFFFF) : legDone s die r l.num = settleViews (freeRecord (modRec s die r fun x => { x with legs := [] }) die r) x.job := by
  have hmod : (modRec s die r fun x => { x with legs := x.legs.filter fun k => decide (k.num ≠ l.num) }) = modRec s die r fun x => { x with legs := [] } := by
    simp [modRec, modDie, hx, hl]
  simp only [legDone, hmod, getRec_modRec, hx, hr, hn]
  simp

/-- A transfer written whole, with no completion record and no handle, counts and leaves. -/
theorem exec_transferComplete_written {s : State} {die : Fin 12} {r : BitVec 9} {x : XferRec} {l : Leg} (hx : getRec (getDie s die) r = x) (hl : x.legs = [l])
    (hr : x.reach = false) (hs : x.st = .running) (ht : l.told = false) (hi : l.steps = []) (h0 : l.status = 0) (hn : l.next = dTotal l.desc)
    (hh : l.handle = none) (hc : dCpl l.desc = 0xFFFFFF) : exec (.transferComplete die r) s = .next (legDone (countXfer s die r x l) die r l.num) := by
  change execTransferComplete die r s = _
  have hgo : completes s (getDie s die) r x l = true := by simp [completes, hs, ht, hi, hn, hr]
  have hcpl : writeCpl s die r x l = s := by simp [writeCpl, hc]
  have hown : ownRecord 0 = false := by decide
  have hgive (u : State) : passHandle u die r x l = (u, .landed) := by simp only [passHandle, hh]
  simp only [execTransferComplete, hx, hl, hgo, hc, bne_self_eq_false, Bool.false_and, Bool.not_false, Bool.and_self, if_true, completeLeg, hcpl, hown, hgive, h0,
    Bool.false_eq_true, if_false]

end complete

/-- Settles O22: the next step of a transfer, the end of a walk, and the completion of a transfer. -/
theorem transfers : Obligations.Transfers := by
  refine ⟨fun s die r ls l hlegs _ hs hz h0 hw hf hn hsrc hdst => ?step, fun s die r evict l dst va hs hz hlegs h0 hi hf hw => ⟨fun u e a big hwalk hdie hroom => ?found,
    fun f hwalk => ?lost⟩, fun s die r l hlegs hr hs hnext ht hi h0 hn hh hc hd htake => ?complete⟩
  case step =>
    have hl := lastLeg_of_legs hlegs
    refine ⟨fun a b ba bb ha hb hroom => ?_, fun hmiss hwalks => ?_, fun f hfault hi => ?_⟩
    · refine ⟨_, exec_transferStep_issues rfl hl hs hz h0 hw hf hn hsrc hdst ha hb hroom, ?_, ?_⟩
      · rw [issueStep_virt]
        dsimp only
        rw [pushReqs, getDie_putStack, getRec_addStep, lastLeg_modLeg hl rfl]
        rfl
      · rw [issueStep_virt, getStack_pushReqs]
        rfl
    · refine ⟨_, exec_transferStep_walks rfl hl hs hz h0 hw hf hn hsrc hmiss hwalks, ?_, rfl⟩
      dsimp only
      rw [getRec_modRec, lastLeg_modLeg hl rfl]
    · obtain ⟨hst, hreason, htime, hcount, -⟩ := faultNext_parks f false (sideVa (getRec (getDie s die) r) l false l.next) hs hz hl rfl hi
      exact ⟨_, exec_transferStep_faults rfl hl hs hz h0 hw hf hn hsrc hfault, hst, hreason, htime, hcount⟩
  case found =>
    have hl := lastLeg_of_legs (ls := []) hlegs
    refine ⟨_, exec_translationWalkDone_found rfl hl hs hw evict hwalk, ?_⟩
    dsimp only
    rw [getDie_modDie, getDie_modRec, hdie, tlbInsert_room e evict hroom]
    exact ⟨(congrArg XferRec.legs (getRec_putRec_same ..)).trans (legs_modLeg hlegs _), rfl⟩
  case lost =>
    have hl := lastLeg_of_legs (ls := []) hlegs
    have hrec := getRec_modRec s die r fun x => modLeg x l.num fun l => { l with walk := none }
    have hlast := lastLeg_modLeg hl rfl fun l => { l with walk := none }
    rw [← hrec] at hlast
    obtain ⟨hst, hreason, -, -, htlb⟩ := faultNext_parks (l := l) f dst va.toNat (by rw [hrec]; exact hs) (by rw [hrec]; exact hz) hlast rfl hi
    exact ⟨_, exec_translationWalkDone_fault rfl hl hs hw evict hwalk, hst, hreason, htlb.trans (by rw [getDie_modRec]; rfl)⟩
  case complete =>
    have hexec := exec_transferComplete_written (die := die) rfl hlegs hr hs ht hi h0 hn hh hc
    have hdies : (countXfer s die r (getRec (getDie s die) r) l).dies = s.dies := by
      rw [countXfer_counts hd htake]
      split
      · exact arriveCount_dies ..
      · rfl
    have hdie : getDie (countXfer s die r (getRec (getDie s die) r) l) die = getDie s die := by rw [getDie, hdies, getDie]
    rw [legDone_last (congrArg (getRec · r) hdie) hlegs hr hnext] at hexec
    have hrec : getRec (getDie (modRec (countXfer s die r (getRec (getDie s die) r) l) die r fun x => { x with legs := [] }) die) r
        = { getRec (getDie s die) r with legs := [] } := by rw [getRec_modRec, hdie]
    obtain ⟨hfree, hgone⟩ := freeRecord_frees (s := modRec (countXfer s die r (getRec (getDie s die) r) l) die r fun x => { x with legs := [] }) (die := die) (r := r)
      (by rw [hrec]; exact hr)
    rw [hrec] at hfree hgone
    have hviews (u : State) (j : BitVec 2) : getDie (settleViews u j) die = getDie u die := settleViews_keeps (getDie · die) (fun _ _ _ => rfl) (fun _ _ _ => rfl) u j
    have htiles (u : State) (j : BitVec 2) : (settleViews u j).tiles = u.tiles := settleViews_keeps (·.tiles) (fun _ _ _ => rfl) (fun _ _ _ => rfl) u j
    refine ⟨_, hexec, by rw [hviews]; exact hfree, by rw [hviews]; exact hgone, fun hen ha ho => ?_, fun hen => ?_⟩
    · rw [getTile, htiles, ← getTile]
      change getAcnt (getTile (countXfer s die r (getRec (getDie s die) r) l) (getRec (getDie s die) r).tile) (dAcnt l.desc) = _
      rw [countXfer_counts hd htake, if_pos hen, Laws.arriveCount_counts ha ho, getAcnt_acntAdd]
    · rw [htiles]
      change (countXfer s die r (getRec (getDie s die) r) l).tiles = _
      rw [countXfer_counts hd htake, if_neg (Bool.eq_false_iff.mp hen)]

end Sys2Proof.Machine
end

section
/-!
PROOFS of the statements of the family '10_streams_and_translation.md', continued: parked transfers, blocks that wait, drains and aborts.
-/
namespace Sys2Proof.Machine
open Sys2Proof

/-! ## Tags (R281, R298) -/

theorem toNat_xferTag (die : Fin 12) (r : BitVec 9) (x : XferRec) : (xferTag die r x).toNat = 2 ^ 24 * x.gen.toNat + (2 ^ 9 * die.val + r.toNat) := by
  have hr := r.isLt
  have hg := x.gen.isLt
  have hd : (BitVec.ofNat 4 die.val).toNat = die.val := Nat.mod_eq_of_lt (by omega)
  rw [xferTag, BitVec.or_assoc, at', at', at', hd, ← BitVec.ofNat_or, ← BitVec.ofNat_or, Nat.pow_zero, Nat.mul_one, Nat.mul_comm die.val, Nat.mul_comm x.gen.toNat,
    ← Nat.two_pow_add_eq_or_of_lt hr, ← Nat.two_pow_add_eq_or_of_lt (show 2 ^ 9 * die.val + r.toNat < 2 ^ 24 by omega), BitVec.toNat_ofNat]
  exact Nat.mod_eq_of_lt (by omega)

/-- A word is a record's tag where its fields are the record's. -/
theorem eq_xferTag_iff (die : Fin 12) (tag : W32) (r : BitVec 9) (x : XferRec) : tag = xferTag die r x ↔
    fld tag 0 9 = r ∧ fldN tag 9 4 = die.val ∧ fldN tag 13 11 = 0 ∧ fld tag 24 8 = x.gen := by
  have hr := r.isLt
  have hg := x.gen.isLt
  have ht := tag.isLt
  rw [← BitVec.toNat_inj, ← BitVec.toNat_inj, ← BitVec.toNat_inj, toNat_xferTag]
  change _ ↔ fldN tag 0 9 = _ ∧ _ ∧ _ ∧ fldN tag 24 8 = _
  simp only [fldN_eq_div_mod]
  omega

/-- A tag names the record whose tag it is, where that record is parked. -/
theorem tagNames_iff (s : State) (die : Fin 12) (tag : W32) :
    tagNames s die tag = true ↔ ∃ r, tag = xferTag die r (getRec (getDie s die) r) ∧ isParked (getRec (getDie s die) r) = true := by
  simp only [tagNames, Bool.and_eq_true, decide_eq_true_eq]
  constructor
  · rintro ⟨⟨⟨hdie, hzero⟩, hpark⟩, hgen⟩
    exact ⟨_, (eq_xferTag_iff die tag _ _).mpr ⟨rfl, hdie, hzero, hgen⟩, hpark⟩
  · rintro ⟨r, htag, hpark⟩
    obtain ⟨rfl, hdie, hzero, hgen⟩ := (eq_xferTag_iff die tag _ _).mp htag
    exact ⟨⟨⟨hdie, hzero⟩, hpark⟩, hgen⟩

/-! ## Parked transfers (R298, R299) -/

section parked
variable {s : State} {die : Fin 12} {r : BitVec 9} {tag : W32} {l : Leg}

/-- STREAM.FAULT_CTL on a parked transfer whose job is not frozen. -/
theorem faultCtl_parked (ht : tag = xferTag die r (getRec (getDie s die) r)) (hp : isParked (getRec (getDie s die) r) = true)
    (hf : (getJob s (getRec (getDie s die) r).job).frozen = false) (resume : Bool) :
    faultCtl s die tag resume = (if resume then resumeRec s die r else failParked s die r cXlateFail, stOk) := by
  have hr : fld tag 0 9 = r := ((eq_xferTag_iff die tag r _).mp ht).1
  rw [faultCtl, if_pos ((tagNames_iff s die tag).mpr ⟨r, ht, hp⟩), hr, resolveXfer, if_neg (Bool.eq_false_iff.mp hf)]

/-- With a tag of no parked transfer and no parked access it is stale. -/
theorem faultCtl_stale (ht : ∀ k, tag = xferTag die k (getRec (getDie s die) k) → isParked (getRec (getDie s die) k) = false)
    (hp : ∀ p ∈ s.net.parks, ¬ (p.die = die.val ∧ p.tag = tag)) (resume : Bool) :
    faultCtl s die tag resume = (modDie s die fun d => { d with stream := { d.stream with tagsStale := d.stream.tagsStale + 1 } }, cTagStale) := by
  have hno : ¬ tagNames s die tag = true := fun h => by
    obtain ⟨k, hk, hpark⟩ := (tagNames_iff s die tag).mp h
    exact Bool.false_ne_true ((ht k hk).symm.trans hpark)
  have hnone : s.net.parks.find? (fun p => decide (p.die = die.val ∧ p.tag = tag)) = none :=
    List.find?_eq_none.mpr fun p hmem => by simpa using hp p hmem
  rw [faultCtl, if_neg hno, hnone]

theorem exec_faultCtlResume_ready (w : Writer) (hd : dieReady s die = true) : exec (.faultCtlResume w die tag) s = .next (finish (faultCtl s die tag true)) := by
  change Host.Outcome.next (finish (dieReg s die _)) = _
  rw [dieReg_ready hd]

theorem exec_faultCtlFail_ready (w : Writer) (hd : dieReady s die = true) : exec (.faultCtlFail w die tag) s = .next (finish (faultCtl s die tag false)) := by
  change Host.Outcome.next (finish (dieReg s die _)) = _
  rw [dieReg_ready hd]

/-- A transfer that fails while it is parked runs on with its status, which marks where it stood. -/
theorem failParked_fails (hl : (getRec (getDie s die) r).legs = [l]) (h0 : l.status = 0) (cause : Byte) : let x := getRec (getDie (failParked s die r cause) die) r
    x.st = .running ∧ ∃ l', x.legs = [l'] ∧ l'.status = cause ∧ l'.failAt = l.next ∧ l'.desc = l.desc := by
  have hlast : lastLeg (getRec (getDie s die) r) = some l := lastLeg_of_legs (ls := []) hl
  dsimp only
  rw [failParked, getRec_modRec, hlast]
  refine ⟨rfl, _, legs_modLeg hl _, ?_⟩
  rw [if_pos h0]
  exact ⟨rfl, rfl, rfl⟩

theorem parkLimit_eq (d : Die) : parkLimit d = 1000000 * (d.stream.cfg.toNat / 2 ^ 16) := by
  rw [parkLimit, fldN_eq_div_mod, Nat.mod_eq_of_lt (by omega)]

/-- A transfer that has been parked for PARK_LIMIT fails. -/
theorem exec_parkTimeout_due (hp : isParked (getRec (getDie s die) r) = true) (hf : (getJob s (getRec (getDie s die) r).job).frozen = false)
    (h0 : parkLimit (getDie s die) ≠ 0) (hd : (getRec (getDie s die) r).parkedAt.toNat + parkLimit (getDie s die) ≤ now s) :
    exec (.parkTimeout die r) s = .next (failParked s die r cParkTimeout) :=
  congrArg Host.Outcome.next (if_pos ⟨hp, by rw [hf]; rfl, h0, hd⟩)

theorem exec_parkTimeout_not_due (h : parkLimit (getDie s die) = 0 ∨ now s < (getRec (getDie s die) r).parkedAt.toNat + parkLimit (getDie s die)) :
    exec (.parkTimeout die r) s = .next s :=
  congrArg Host.Outcome.next (if_neg fun ⟨_, _, h0, hd⟩ => h.elim h0 fun hlt => absurd hd (Nat.not_le.mpr hlt))

end parked

/-! ## Stream blocks that wait on a FULL slot (R280) -/

theorem getBlk_of_net {s t : State} (h : t.net = s.net) (i : Nat) : getBlk t i = getBlk s i := by simp only [getBlk, h]

theorem getBlk_loseBlk (s : State) (i : Nat) (b : Block) (c : Byte) : getBlk (loseBlk s i b c) i = none := by
  have hnet : (loseBlk s i b c).net = (dropBlk s i).net := by
    unfold loseBlk
    split
    · exact stepFails_net ..
    · rfl
  rw [getBlk_of_net hnet, getBlk_dropBlk, if_pos rfl]

section block
variable {s : State} {i : Nat} {b : Block} {die : Fin 12} {r : BitVec 9} {id : Nat} {t0 : W64}
variable (hb : getBlk s i = some b) (hk : b.kind = .toTile) (hx : b.xfer = some (die, r, id)) (hw : b.slotWait = some t0)
include hb hk hx hw

theorem exec_streamBlockParkTimeout_eq : exec (.streamBlockParkTimeout i) s = .next (
    if parkLimit (getDie s die) ≠ 0 ∧ t0.toNat + parkLimit (getDie s die) ≤ now s ∧ !(getJob s b.job).frozen then
      putErr (loseBlk s i b cSlotTimeout) (tileErr b.dest (some b.job) cSlotTimeout b.daddr.toNat)
    else s) := by
  change execStreamBlockParkTimeout i s = _
  simp only [execStreamBlockParkTimeout, hb, hk, hx, hw]

/-- A block that has waited for PARK_LIMIT leaves the network. -/
theorem exec_streamBlockParkTimeout_due (hf : (getJob s b.job).frozen = false) (h0 : parkLimit (getDie s die) ≠ 0)
    (hd : t0.toNat + parkLimit (getDie s die) ≤ now s) : Goes (exec (.streamBlockParkTimeout i) s) fun t => getBlk t i = none := by
  refine ⟨_, exec_streamBlockParkTimeout_eq hb hk hx hw, ?_⟩
  rw [if_pos ⟨h0, hd, by rw [hf]; rfl⟩]
  exact (getBlk_of_net (putErr_net _ _ (by simp [tileErr])) i).trans (getBlk_loseBlk ..)

theorem exec_streamBlockParkTimeout_not_due (h : parkLimit (getDie s die) = 0 ∨ now s < t0.toNat + parkLimit (getDie s die)) :
    exec (.streamBlockParkTimeout i) s = .next s := by
  rw [exec_streamBlockParkTimeout_eq hb hk hx hw, if_neg fun ⟨h0, hd, _⟩ => h.elim h0 fun hlt => absurd hd (Nat.not_le.mpr hlt)]

end block

/-! ## Stream queue contexts (R306) -/

section stq
variable {s : State} {die : Nat} {q : BitVec 12} {x : Stq}

/-- A context that drains and holds nothing is disabled. -/
def disabledStq (x : Stq) : Stq := { x with st := .disabled, cfg := setFld x.cfg 63 1 0 }

theorem settleStqP_keeps {d : Die} (h : (getStq d q).recs ≠ [] ∨ stqKind (getStq d q) ≠ 0) : settleStqP d q = d :=
  if_neg fun ⟨hr, hk, _⟩ => h.elim (fun h => h (List.isEmpty_iff.mp hr)) fun h => h hk

theorem settleStqP_disables {d : Die} (hr : (getStq d q).recs = []) (hk : stqKind (getStq d q) = 0) (hs : (getStq d q).st = .draining) :
    settleStqP d q = putStq d q (disabledStq (getStq d q)) :=
  if_pos ⟨List.isEmpty_iff.mpr hr, hk, .inl hs⟩

theorem settleStqH1_keeps {d : Die} (h : (getStq d q).st ≠ .draining ∨ stqKind (getStq d q) = 0) : settleStqH1 d q = d :=
  if_neg fun ⟨hs, hk, _⟩ => h.elim (fun h => h hs) hk

theorem settleStqH1_disables {d : Die} (hh : (getStq d q).handles = []) (hk : stqKind (getStq d q) ≠ 0) (hs : (getStq d q).st = .draining) :
    settleStqH1 d q = putStq d q (disabledStq (getStq d q)) :=
  if_pos ⟨hs, hk, List.isEmpty_iff.mpr hh⟩

/-- A context as its DRAIN begins. -/
def drainingStq (s : State) (x : Stq) : Stq := { x with st := .draining, thawTo := .draining, since := s.mod.time, held := [] }

/-- The die after DRAIN of a context that holds no push. -/
theorem getDie_drainStq (hx : getStq (getDie s die) q = x) (hf : x.st ≠ .frozen) (hh : x.held = []) :
    getDie (drainStq s die q) die = settleStqH1 (settleStqP (putStq (getDie s die) q (drainingStq s x)) q) q := by
  have hdrain : drainStq s die q = settleStqH (modDie (modDie s die fun d => putStq d q (drainingStq s x)) die fun d => settleStqP d q) die q := by
    simp only [drainStq, hx, hf, hh, if_false]
    rfl
  rw [hdrain, settleStqH, getDie_modDie, getDie_modDie, getDie_modDie]

/-- One that holds nothing is disabled at once. -/
theorem getStq_drainStq_empty (hx : getStq (getDie s die) q = x) (hf : x.st ≠ .frozen) (hh : x.held = []) (hr : x.recs = []) (hn : x.handles = []) :
    getStq (getDie (drainStq s die q) die) q = disabledStq (drainingStq s x) := by
  have hput := getStq_putStq (getDie s die) (drainingStq s x) q
  rw [getDie_drainStq hx hf hh]
  by_cases hk : stqKind x = 0
  · rw [settleStqP_disables (by rw [hput]; exact hr) (by rw [hput]; exact hk) (by rw [hput]; rfl), hput,
      settleStqH1_keeps (.inl (by rw [getStq_putStq]; exact StqSt.noConfusion)), getStq_putStq]
  · rw [settleStqP_keeps (.inr (by rw [hput]; exact hk)), settleStqH1_disables (by rw [hput]; exact hn) (by rw [hput]; exact hk) (by rw [hput]; rfl), hput,
      getStq_putStq]

/-- One that holds a posted record drains. -/
theorem getStq_drainStq_posted (hx : getStq (getDie s die) q = x) (hf : x.st ≠ .frozen) (hh : x.held = []) (hk : stqKind x = 0) (hr : x.recs ≠ []) :
    getStq (getDie (drainStq s die q) die) q = drainingStq s x := by
  have hput := getStq_putStq (getDie s die) (drainingStq s x) q
  rw [getDie_drainStq hx hf hh, settleStqP_keeps (.inl (by rw [hput]; exact hr)), settleStqH1_keeps (.inr (by rw [hput]; exact hk)), hput]

/-- ABORT of a context of handles that holds no push. -/
theorem abortStq_handles (hx : getStq (getDie s die) q = x) (hk : stqKind x ≠ 0) (hh : x.held = []) :
    getDie (abortStq s die q) die = countDropped (BitVec.ofNat 64 x.handles.length) (putStq (getDie s die) q { disabledStq x with handles := [], held := [] }) := by
  simp only [abortStq, hx, hk, hh, if_false]
  change getDie (x.handles.foldl _ _) die = _
  rw [getDie_foldl_dropHandle, getDie_modDie]
  rfl

end stq

theorem exec_stqDrain_on {s : State} {die : Fin 12} {q : BitVec 12} (w : Writer) (hd : dieReady s die = true) (ho : (getStq (getDie s die) q).st ≠ .disabled) :
    exec (.stqDrain w die q) s = .next (setStatus (drainStq s die q) stOk) := by
  change Host.Outcome.next (finish (dieReg s die _)) = _
  rw [dieReg_ready hd, stqOn, decide_eq_true ho]
  rfl

theorem exec_stqAbort_on {s : State} {die : Fin 12} {q : BitVec 12} (w : Writer) (hd : dieReady s die = true) (ho : (getStq (getDie s die) q).st ≠ .disabled) :
    exec (.stqAbort w die q) s = .next (setStatus (abortStq s die q) stOk) := by
  change Host.Outcome.next (finish (dieReg s die _)) = _
  rw [dieReg_ready hd, stqOn, decide_eq_true ho]
  rfl

/-! ## Reaches (R306) -/

section reach
variable {s : State} {die : Fin 12} {n : BitVec 10}

/-- A reach that drains or is aborted, with no pass in flight, is disabled. -/
theorem getReach_settleReach {d : Die} {y : Reach} (hy : getReach d n = y) (hr : y.recs = []) (hs : y.st = .draining ∨ y.st = .aborting) :
    (getReach (settleReach d n) n).st = .disabled := by
  have he : (!y.recs.isEmpty) = false := by rw [hr]; rfl
  simp only [settleReach, hy, he, hs, Bool.false_eq_true, if_false, if_true]
  rw [getReach_putReach]

theorem drainReach_idle (hr : (getReach (getDie s die) n).recs = []) (hf : (getReach (getDie s die) n).st ≠ .frozen) :
    (getReach (getDie (drainReach s die n) die) n).st = .disabled := by
  rw [drainReach, getDie_modDie]
  exact getReach_settleReach (getReach_putReach ..) hr (.inl (if_neg hf))

/-- A reach as its ABORT begins. -/
def abortingReach (s : State) (y : Reach) : Reach := { y with st := .aborting, since := s.mod.time }

theorem abortReach_idle (hr : (getReach (getDie s die) n).recs = []) (cause : Byte) : (getReach (getDie (abortReach s die n cause) die) n).st = .disabled := by
  have habort : abortReach s die n cause = modDie (abortRecs (modDie s die fun d => putReach d n (abortingReach s (getReach (getDie s die) n))) die
    (getReach (getDie s die) n).recs cause) die fun d => settleReach d n := rfl
  rw [habort, hr, getDie_modDie]
  refine getReach_settleReach (y := abortingReach s (getReach (getDie s die) n)) ?_ hr (.inr rfl)
  rw [abortRecs, List.foldl_nil, getDie_modDie, getReach_putReach]

variable (w : Writer) (hd : dieReady s die = true) (ho : (getReach (getDie s die) n).st ≠ .disabled)
include hd ho

theorem exec_reachDrain_on : exec (.reachDrain w die n) s = .next (setStatus (drainReach s die n) stOk) := by
  change Host.Outcome.next (finish (dieReg s die _)) = _
  rw [dieReg_ready hd, reachLive, decide_eq_true ho]
  rfl

theorem exec_reachAbort_on : exec (.reachAbort w die n) s = .next (setStatus (abortReach s die n cAborted) stOk) := by
  change Host.Outcome.next (finish (dieReg s die _)) = _
  rw [dieReg_ready hd, reachLive, decide_eq_true ho]
  rfl

end reach

/-! ## A tile's handle queues (R306) -/

theorem hqEnabled_cleared (y : Hq) : hqEnabled { y with cfg := setFld y.cfg 31 1 0 } = false :=
  (getLsbD_setFld y.cfg 31 1 0 31 (by decide)).trans (by simp)

section hq
variable {s : State} {t : W16} {k : Nat} {z : Hq}

theorem getHq_settleHq (hz : getHq (getTile s t) k = z) :
    getHq (getTile (settleHq s t k) t) k = if z.draining ∧ z.handles.isEmpty then { z with draining := false, cfg := setFld z.cfg 31 1 0 } else z := by
  subst hz
  rw [settleHq, getTile_modTile]
  dsimp only
  split
  · rw [getHq_putHq, if_pos rfl]
  · rfl

/-- DRAIN of a queue that holds no push leaves its handles, and disables it where it has none. -/
theorem getHq_drainHq (hz : getHq (getTile s t) k = z) (hh : z.held = []) :
    (getHq (getTile (drainHq s t k) t) k).handles = z.handles ∧ (z.handles = [] → hqEnabled (getHq (getTile (drainHq s t k) t) k) = false) := by
  have hput : getHq (getTile (modTile s t fun x => putHq x k { z with draining := true, since := s.mod.time, held := [] }) t) k
      = { z with draining := true, since := s.mod.time, held := [] } := by rw [getTile_modTile, getHq_putHq, if_pos rfl]
  have hdrain : drainHq s t k = settleHq (modTile s t fun x => putHq x k { z with draining := true, since := s.mod.time, held := [] }) t k := by
    simp only [drainHq, hz, hh, dropHeld, List.foldl_nil]
  rw [hdrain, getHq_settleHq hput]
  refine ⟨?_, fun hn => ?_⟩
  · split <;> rfl
  · rw [if_pos ⟨rfl, List.isEmpty_iff.mpr hn⟩]
    exact hqEnabled_cleared _

/-- ABORT of a queue that holds no push drops its handles and disables it. -/
theorem getHq_abortHq (hz : getHq (getTile s t) k = z) (hh : z.held = []) :
    getHq (getTile (abortHq s t k) t) k = { z with draining := false, cfg := setFld z.cfg 31 1 0, handles := [], held := [] } := by
  have habort : abortHq s t k = z.handles.foldl (fun s _ => dropHandle s (tDie t) t (hqOwner z))
      (modTile s t fun x => putHq x k { z with draining := false, cfg := setFld z.cfg 31 1 0, handles := [], held := [] }) := by
    simp only [abortHq, hz, hh, dropHeld, List.foldl_nil]
  rw [habort, getTile, foldl_dropHandle_tiles, ← getTile, getTile_modTile, getHq_putHq, if_pos rfl]

end hq

section commands
variable {s : State} {tile : W16} {k : BitVec 3} (w : Writer) (ht : tileTakes s tile = true) (he : hqEnabled (getHq (getTile s tile) k.toNat) = true)
include ht he

theorem exec_hqDrain_on : exec (.hqDrain w tile k) s = .next (setStatus (drainHq s tile k.toNat) stOk) := by
  refine (onTile_tileReg_takes ht).trans ?_
  rw [hqOn, he]
  rfl

theorem exec_hqAbort_on : exec (.hqAbort w tile k) s = .next (setStatus (abortHq s tile k.toNat) stOk) := by
  refine (onTile_tileReg_takes ht).trans ?_
  rw [hqOn, he]
  rfl

end commands

/-! ## DRAIN_LIMIT (R306, R308) -/

theorem drainPast_iff (s : State) (die : Nat) (since : W64) : drainPast s die since = true ↔
    100000 * ((getDie s die).stream.cfg.toNat % 2 ^ 16) ≠ 0 ∧ since.toNat + 100000 * ((getDie s die).stream.cfg.toNat % 2 ^ 16) ≤ now s := by
  simp only [drainPast, fldN_eq_div_mod, Bool.and_eq_true, decide_eq_true_eq, pow_zero, Nat.div_one]
  omega

section limit
variable {s : State} {die : Fin 12} {q : BitVec 12} {x : Stq}
variable (hd : (getDie s die).stq = [(q.toNat, x)]) (hr : (getDie s die).reach = []) (ht : s.tiles = []) (hs : x.st = .draining)
include hd hr ht hs

/-- What DRAIN_LIMIT aborts on a die of one context that drains. -/
theorem drainLimit_single : drainLimit s die = if drainPast s die x.since then abortStq s die q else s := by
  have hq : BitVec.ofNat 12 q.toNat = q := by simp
  simp only [drainLimit, hd, hr, ht, List.filter_nil, List.foldl_nil, List.filter_cons, hs, decide_true, Bool.true_and]
  split
  · rw [List.foldl_cons, List.foldl_nil, hq]
  · rfl

end limit

theorem getPort_of_no_ports {s : State} (h : s.net.ports = []) (p : Nat) : getPort s p = Port.reset := by rw [getPort, h]; rfl

/-- Where what was aborted left no port written, no port stops. -/
theorem exec_drainLimitExpire_of_no_ports {s : State} {die : Fin 12} (h : (drainLimit s die).net.ports = []) :
    exec (.drainLimitExpire die) s = .next (drainLimit s die) := by
  have hidle (t : State) (ht : t.net.ports = []) (ps : List Nat) : ps.foldl (fun s p =>
      if decide (portDie p = die.val) && decide ((getPort s p).st = .stopping) && drainPast s die (getPort s p).stopSince then stopAbort s p else s) t = t := by
    induction ps with
    | nil => rfl
    | cons p ps ih =>
      have hst : (getPort t p).st ≠ .stopping := by rw [getPort_of_no_ports ht]; exact PortSt.noConfusion
      rw [List.foldl_cons, decide_eq_false hst, Bool.and_false, Bool.false_and, if_neg Bool.false_ne_true, ih]
  exact congrArg Host.Outcome.next (hidle _ h _)

theorem dropHandle_net (s : State) (die : Nat) (t : W16) (j : BitVec 2) : (dropHandle s die t j).net = s.net := putErr_net _ _ (by simp)

theorem foldl_dropHandle_net {α : Type} (s : State) (die : Nat) (t : W16) (j : BitVec 2) (l : List α) : (l.foldl (fun s _ => dropHandle s die t j) s).net = s.net :=
  Laws.foldl_keeps _ State.net (fun s _ => dropHandle_net s die t j) _ _

theorem abortStq_net {s : State} {die : Nat} {q : BitVec 12} (hk : stqKind (getStq (getDie s die) q) ≠ 0) (hh : (getStq (getDie s die) q).held = []) :
    (abortStq s die q).net = s.net := by
  rw [abortStq]
  dsimp only
  rw [if_neg hk, hh]
  exact foldl_dropHandle_net ..

theorem getDie_setStatus (s : State) (st : Byte) (die : Nat) : getDie (setStatus s st) die = getDie s die := rfl

/-- Settles O24: parked transfers and blocks that wait, then drains and aborts of stream objects. -/
theorem parkedAndStoppedObjects : Obligations.ParkedAndStoppedObjects := by
  refine ⟨fun s w die r l tag => ⟨fun hp hl h0 hf => ⟨fun ht hd => ⟨?resume, ?fail⟩, fun ⟨hne, hdue⟩ => ?parkDue, fun hnot => ?parkNot⟩, fun hd ht hp => ?stale,
      fun i b t0 id hb hk hx hw hf => ⟨fun ⟨hne, hdue⟩ => ?blkDue, fun hnot => ?blkNot⟩⟩,
    fun s w die q n tile k => ⟨fun hd ho hf hh => ⟨fun hr hn => ?drainEmpty, fun hk hr => ?drainPosted, fun hk => ?abort⟩, fun hd ho hf hr => ⟨?reachDrain, ?reachAbort⟩,
      fun ht he hh => ⟨?hqDrain, ?hqAbort⟩, fun hq hr ht hports hk hst hh => ⟨fun hdue => ?limitDue, fun hnot => ?limitNot⟩⟩⟩
  case resume =>
    rw [exec_faultCtlResume_ready w hd, faultCtl_parked ht hp hf]
    rfl
  case fail =>
    refine ⟨_, exec_faultCtlFail_ready w hd, ?_⟩
    rw [faultCtl_parked ht hp hf]
    exact ⟨rfl, failParked_fails hl h0 cXlateFail⟩
  case parkDue =>
    rw [← parkLimit_eq] at hne hdue
    exact ⟨_, exec_parkTimeout_due hp hf hne hdue, failParked_fails hl h0 cParkTimeout⟩
  case parkNot => exact exec_parkTimeout_not_due (by rw [parkLimit_eq]; exact hnot)
  case stale =>
    rw [exec_faultCtlResume_ready w hd, exec_faultCtlFail_ready w hd, faultCtl_stale ht hp, faultCtl_stale ht hp]
    exact ⟨rfl, rfl⟩
  case blkDue =>
    rw [← parkLimit_eq] at hne hdue
    exact exec_streamBlockParkTimeout_due hb hk hx hw hf hne hdue
  case blkNot => exact exec_streamBlockParkTimeout_not_due hb hk hx hw (by rw [parkLimit_eq]; exact hnot)
  case drainEmpty =>
    refine ⟨_, exec_stqDrain_on w hd ho, rfl, ?_⟩
    rw [getDie_setStatus, getStq_drainStq_empty rfl hf hh hr hn]
    rfl
  case drainPosted =>
    refine ⟨_, exec_stqDrain_on w hd ho, ?_⟩
    dsimp only
    rw [getDie_setStatus, getStq_drainStq_posted rfl hf hh hk hr]
    rfl
  case abort =>
    have hdie := abortStq_handles rfl hk hh
    refine ⟨_, exec_stqAbort_on w hd ho, ?_, ?_⟩ <;> rw [getDie_setStatus, hdie]
    · exact getStq_putStq ..
    · rfl
  case reachDrain => exact ⟨_, exec_reachDrain_on w hd ho, rfl, by rw [getDie_setStatus, drainReach_idle hr hf]⟩
  case reachAbort => exact ⟨_, exec_reachAbort_on w hd ho, rfl, by rw [getDie_setStatus, abortReach_idle hr cAborted]⟩
  case hqDrain => exact ⟨_, exec_hqDrain_on w ht he, rfl, getHq_drainHq rfl hh⟩
  case hqAbort =>
    have hz : getHq (getTile (setStatus (abortHq s tile k.toNat) stOk) tile) k.toNat = _ := getHq_abortHq rfl hh
    refine ⟨_, exec_hqAbort_on w ht he, rfl, ?_, ?_⟩
    · rw [hz]
    · rw [hz]
      exact hqEnabled_cleared _
  case limitDue =>
    have hgo := drainLimit_single hq hr ht hst
    rw [if_pos ((drainPast_iff ..).mpr hdue)] at hgo
    have hk' : stqKind (getStq (getDie s die) q) ≠ 0 := by rw [hk]; decide
    have hnet : (drainLimit s die).net.ports = [] := by rw [hgo, abortStq_net hk' hh, hports]
    refine ⟨_, exec_drainLimitExpire_of_no_ports hnet, ?_⟩
    dsimp only
    rw [hgo, abortStq_handles rfl hk' hh]
    exact congrArg Stq.st (getStq_putStq ..)
  case limitNot =>
    have hstay := drainLimit_single hq hr ht hst
    rw [if_neg fun h => hnot.elim ((drainPast_iff ..).mp h).1 (Nat.not_lt.mpr ((drainPast_iff ..).mp h).2)] at hstay
    rw [exec_drainLimitExpire_of_no_ports (by rw [hstay]; exact hports), hstay]

end Sys2Proof.Machine
end

section
/-!
PROOFS of the statements of the family '10_streams_and_translation.md', continued: the stream lane.
-/
namespace Sys2Proof.Machine
open Sys2Proof

/-! ## Ports -/

theorem getPort_putPort (s : State) (p n : Nat) (x : Port) : getPort (putPort s p x) n = if n = p then x else getPort s n := mget_mset ..

theorem getPort_putPort_same (s : State) (p : Nat) (x : Port) : getPort (putPort s p x) p = x := mget_mset_same ..

theorem getPort_of_net {s t : State} (h : t.net = s.net) (n : Nat) : getPort t n = getPort s n := by simp only [getPort, h]

/-- A port put back as it is. -/
theorem getPort_putPort_self (s : State) (p n : Nat) : getPort (putPort s p (getPort s p)) n = getPort s n := by
  rw [getPort_putPort]
  split
  · next h => rw [h]
  · rfl

theorem landing_eta {x : Port} {l : List (BitVec 8 × BitVec 2 × List Byte × W64)} (h : x.landing = l) : { x with landing := l } = x := by subst h; rfl

theorem popped_eta {x : Port} {l : List (Fin 12 × BitVec 12 × W32)} (h : x.popped = l) : { x with popped := l } = x := by subst h; rfl

/-! ## A port that sends one packet (R337, R340) -/

theorem pktFlits_pos (k : Pkt) : 0 < pktFlits k := Nat.div_pos (by omega) (by decide)

/-- Packets of which a port has sent the last flit, which is not acknowledged. -/
def endedPkts (x : Port) : List Pkt := (x.replay.filter fun f => decide (f.idx + 1 = pktFlits f.pkt)).map (·.pkt)

theorem heldPkts_eq (x : Port) : heldPkts x = endedPkts x ++ x.sending.map Prod.fst ++ x.txq := rfl

/-- The only packet of a port, sent up to some flit that the packet has. -/
def HoldsOnly (k : Pkt) (x : Port) : Prop := heldPkts x = [k] ∧ ∀ e ∈ x.sending, e.2 < pktFlits e.1

/-- What a lane sends is of a packet under way, or the first flit of one queued. -/
theorem laneNext_mem {x : Port} {vl i : Nat} {k : Pkt} (h : laneNext x vl = some (k, i)) : (k, i) ∈ x.sending ∨ i = 0 ∧ k ∈ x.txq := by
  unfold laneNext at h
  split at h
  · next e he => exact .inl (Option.some.inj h ▸ List.mem_of_find?_eq_some he)
  · split at h
    · obtain ⟨k', hk, he⟩ := Option.map_eq_some_iff.mp h
      cases he
      exact .inr ⟨rfl, List.mem_of_find?_eq_some hk⟩
    · cases h

/-- Where a port's only packet stands when a lane has something to send: under way, or queued. -/
theorem holdsOnly_next {k k' : Pkt} {x : Port} {vl i : Nat} (h : HoldsOnly k x) (hn : laneNext x vl = some (k', i)) :
    k' = k ∧ i < pktFlits k ∧ endedPkts x = [] ∧ (x.sending = [(k, i)] ∧ x.txq = [] ∨ i = 0 ∧ x.sending = [] ∧ x.txq = [k]) := by
  obtain ⟨hheld, hplace⟩ := h
  rw [heldPkts_eq, List.append_assoc, List.append_eq_singleton_iff, List.append_eq_singleton_iff, List.append_eq_nil_iff, List.map_eq_nil_iff,
    List.map_eq_singleton_iff] at hheld
  obtain hmem | ⟨rfl, hmem⟩ := laneNext_mem hn
  · obtain ⟨hended, ⟨hs, -⟩ | ⟨⟨e, hs, rfl⟩, hq⟩⟩ | ⟨-, hs, -⟩ := hheld
    · simp [hs] at hmem
    · obtain rfl : (k', i) = e := by simpa [hs] using hmem
      exact ⟨rfl, hplace _ hmem, hended, .inl ⟨hs, hq⟩⟩
    · simp [hs] at hmem
  · obtain ⟨hended, ⟨hs, hq⟩ | ⟨-, hq⟩⟩ | ⟨-, -, hq⟩ := hheld
    · obtain rfl : k' = k := by simpa [hq] using hmem
      exact ⟨rfl, pktFlits_pos _, hended, .inr ⟨rfl, hs, hq⟩⟩
    · simp [hq] at hmem
    · simp [hq] at hmem

theorem getPort_sendLane (s : State) (p : Nat) (k : Pkt) (i : Nat) (turn : Nat × Nat) : let x := getPort s p
    let y := getPort (sendLane s p k i turn) p
    let rest := x.sending.filter fun e => decide (pktLane e.1 ≠ pktLane k)
    y.replay = x.replay ++ [{ seq := x.txSeq, pkt := k, idx := i }] ∧ y.txq = (if i = 0 then x.txq.erase k else x.txq)
    ∧ y.sending = (if i + 1 < pktFlits k then rest ++ [(k, i + 1)] else rest) ∧ y.popped = x.popped ∧ y.st = x.st := by
  dsimp only
  rw [sendLane, getPort_putPort_same, sendPart, sendFlit, getPort_putPort_same]
  exact ⟨rfl, rfl, rfl, rfl, rfl⟩

/-- A flit of the only packet leaves it the only packet. -/
theorem holdsOnly_sendLane {s : State} {p vl i : Nat} {k k' : Pkt} (turn : Nat × Nat) (h : HoldsOnly k (getPort s p))
    (hn : laneNext (getPort s p) vl = some (k', i)) : HoldsOnly k (getPort (sendLane s p k' i turn) p) := by
  obtain ⟨rfl, hi, hended, hwhere⟩ := holdsOnly_next h hn
  obtain ⟨hreplay, htxq, hsending, -, -⟩ := getPort_sendLane s p k' i turn
  have hq : (getPort (sendLane s p k' i turn) p).txq = [] := by
    rw [htxq]
    obtain ⟨-, hq⟩ | ⟨h0, -, hq⟩ := hwhere
    · simp [hq]
    · simp [h0, hq]
  have hrest : (getPort s p).sending.filter (fun e => decide (pktLane e.1 ≠ pktLane k')) = [] := by
    obtain ⟨hs, -⟩ | ⟨-, hs, -⟩ := hwhere <;> simp [hs]
  have hends : endedPkts (getPort (sendLane s p k' i turn) p) = if i + 1 = pktFlits k' then [k'] else [] := by
    rw [endedPkts, hreplay, List.filter_append, List.map_append, ← endedPkts, hended, List.nil_append]
    by_cases hlast : i + 1 = pktFlits k' <;> simp [hlast]
  rw [hrest, List.nil_append] at hsending
  rw [HoldsOnly, heldPkts_eq, hends, hq, hsending]
  by_cases hlast : i + 1 = pktFlits k'
  · simp [hlast]
  · have hmore : i + 1 < pktFlits k' := by omega
    simp [hlast, hmore]

/-- What every flit sent keeps of a port, all that it may send keeps. -/
theorem pumpPort_keeps {P : Port → Prop} {p : Nat}
    (h : ∀ s k i turn vl, P (getPort s p) → laneNext (getPort s p) vl = some (k, i) → P (getPort (sendLane s p k i turn) p)) (fuel : Nat) {s : State}
    (hs : P (getPort s p)) : P (getPort (pumpPort fuel s p) p) := by
  induction fuel generalizing s with
  | zero => exact hs
  | succ fuel ih =>
    rw [pumpPort]
    split
    · split
      · split
        · next hn => exact ih (h _ _ _ _ _ hs hn)
        · exact hs
      · exact hs
    · exact hs

/-- A port that is UP, holds one packet and no handle. -/
def SendsOnly (k : Pkt) (x : Port) : Prop := HoldsOnly k x ∧ x.popped = [] ∧ x.st = .up

theorem sendsOnly_pump {s : State} {n : Nat} {k : Pkt} (h : SendsOnly k (getPort s n)) : SendsOnly k (getPort (pump s n) n) := by
  have hsent : SendsOnly k (getPort (pumpPort (flitsWaiting (getPort s n)) s n) n) :=
    pumpPort_keeps (P := SendsOnly k) (fun s k' i turn vl ⟨hk, hp, hu⟩ hn =>
      have ⟨_, _, _, hpopped, hst⟩ := getPort_sendLane s n k' i turn
      ⟨holdsOnly_sendLane turn hk hn, hpopped.trans hp, hst.trans hu⟩) _ h
  rw [pump]
  dsimp only
  split
  · rw [getPort_putPort_same]
    exact hsent
  · exact hsent

/-- A packet queued on a port that is UP and sends nothing. -/
theorem sendsOnly_pushPkt {s : State} {n : Nat} (k : Pkt) (hu : (getPort s n).st = .up) (hp : (getPort s n).popped = []) (hq : (getPort s n).txq = [])
    (hs : (getPort s n).sending = []) (hr : (getPort s n).replay = []) : SendsOnly k (getPort (pushPkt s n k) n) := by
  rw [pushPkt, if_pos (show takesPkts (getPort s n) = true from decide_eq_true (.inl hu))]
  refine sendsOnly_pump ?_
  rw [getPort_putPort_same]
  refine ⟨⟨?_, fun e he => ?_⟩, hp, hu⟩
  · simp only [heldPkts_eq, endedPkts, hq, hs, hr]
    rfl
  · simp only [hs, List.not_mem_nil] at he

/-! ## Slots sent (R200, R286, R354) -/

/-- A list no longer than a piece is one piece. -/
theorem chunksOf_short {α : Type} {n : Nat} {l : List α} (hl : l ≠ []) (hn : l.length ≤ n) (fuel : Nat) : chunksOf n (fuel + 1) l = [l] := by
  rw [chunksOf, if_neg (by simpa using hl), List.take_of_length_le hn, List.drop_of_length_le hn]
  cases fuel <;> rfl

theorem slotLen_pos (y : Slot) : 0 < slotLen y := by
  unfold slotLen
  omega

/-- A slot of up to 16 KiB is one packet. -/
theorem streamPkts_short (die : Fin 12) (qid : BitVec 12) (q : Stq) (h : W32) {bs : List Byte} (hb : bs ≠ []) (hn : bs.length ≤ 16384) :
    streamPkts die qid q h bs = [.stream (qid.setWidth 8 + fld h 0 8) (stqOwner q) bs die qid h true] := by
  simp [streamPkts, chunksOf_short hb hn]

/-- A state whose port holds one handle more. -/
def withHandle (s : State) (n : Nat) (e : Fin 12 × BitVec 12 × W32) : State := putPort s n { getPort s n with popped := (getPort s n).popped ++ [e] }

/-- One whose port has used a handle. -/
def usedHandle (s : State) (n : Nat) (e : Fin 12 × BitVec 12 × W32) : State :=
  putPort s n { getPort s n with popped := (getPort s n).popped.filter fun k => decide (k ≠ e) }

theorem getPort_withHandle (s : State) (n : Nat) (e : Fin 12 × BitVec 12 × W32) :
    getPort (withHandle s n e) n = { getPort s n with popped := (getPort s n).popped ++ [e] } := getPort_putPort_same ..

theorem getPort_usedHandle (s : State) (n : Nat) (e : Fin 12 × BitVec 12 × W32) :
    getPort (usedHandle s n e) n = { getPort s n with popped := (getPort s n).popped.filter fun k => decide (k ≠ e) } := getPort_putPort_same ..

/-- A handle taken and used leaves a port that held none as it was. -/
theorem getPort_usedHandle_withHandle {s : State} {n : Nat} (e : Fin 12 × BitVec 12 × W32) (h : (getPort s n).popped = []) :
    getPort (usedHandle (withHandle s n e) n e) n = getPort s n := by
  have hgone : (([] ++ [e]).filter fun k => decide (k ≠ e)) = [] := by simp
  rw [getPort_usedHandle, getPort_withHandle, h, hgone]
  exact popped_eta h

/-- A port may use the handles of a PORT context. -/
def StreamReady (s : State) (die : Fin 12) (qid : BitVec 12) : Prop :=
  let q := getStq (getDie s die) qid
  (q.st = .active ∨ q.st = .draining) ∧ stqKind q = 2 ∧ (getPort s (stqPort q)).role = 1 ∧ stqPort q < 24 ∧ (getJob s (stqOwner q)).frozen = false
    ∧ tileTakes s (stqTile q) = true

section send
variable {s s1 : State} {die : Fin 12} {qid : BitVec 12} {h : W32} {t : W16}

theorem streamGuard_iff : (decide ((getStq (getDie s die) qid).st = .active ∨ (getStq (getDie s die) qid).st = .draining)
      && decide (stqKind (getStq (getDie s die) qid) = 2) && isTizal (getPort s (stqPort (getStq (getDie s die) qid)))
      && decide (stqPort (getStq (getDie s die) qid) < 24) && !(getJob s (stqOwner (getStq (getDie s die) qid))).frozen
      && tileTakes s (stqTile (getStq (getDie s die) qid))) = true ↔ StreamReady s die qid := by
  simp [StreamReady, isTizal, and_assoc]

theorem exec_portStreamSend_not_ready (hr : ¬ StreamReady s die qid) : exec (.portStreamSend die qid) s = .next s := by
  change execPortStreamSend die qid s = _
  simp only [execPortStreamSend, streamGuard_iff, hr, if_false]

variable (hp : (getPort s (stqPort (getStq (getDie s die) qid))).popped = [])
include hp

theorem exec_portStreamSend_not_up (hu : (getPort s (stqPort (getStq (getDie s die) qid))).st ≠ .up) : exec (.portStreamSend die qid) s = .next s := by
  change execPortStreamSend die qid s = _
  simp only [execPortStreamSend, hp, List.find?_nil, ne_eq, hu, not_false_eq_true, if_true, ite_self]

/-- A port that is UP takes a handle of the context. -/
theorem exec_portStreamSend_pops (hr : StreamReady s die qid) (hu : (getPort s (stqPort (getStq (getDie s die) qid))).st = .up)
    (hpop : popHandle die (0x1000 ||| qid.setWidth 13) (stqTile (getStq (getDie s die) qid)) (stqOwner (getStq (getDie s die) qid)) 65 s = (s1, some (h, t))) :
    exec (.portStreamSend die qid) s = .next (portSend (withHandle s1 (stqPort (getStq (getDie s die) qid)) (die, qid, h)) die qid h) := by
  change execPortStreamSend die qid s = _
  simp only [execPortStreamSend, streamGuard_iff, hr, if_true, hp, List.find?_nil, hu, ne_eq, not_true_eq_false, if_false, hpop, withHandle]

end send

/-- A context's tile, its job and its port are its configuration's. -/
theorem stq_of_cfg {q q' : Stq} (h : q'.cfg = q.cfg) : stqTile q' = stqTile q ∧ stqOwner q' = stqOwner q ∧ stqPort q' = stqPort q := by
  simp only [stqTile, stqOwner, stqPort, h, and_self]

section slot
variable {u : State} {die : Fin 12} {qid : BitVec 12} {h : W32} {q : Stq} (hq : (getStq (getDie u die) qid).cfg = q.cfg)
  (hc : opndCheck (getTile u (stqTile q)) (stqOwner q) (BitVec.ofNat 24 (0x800000 + fldN h 20 6 * 2 ^ 17))
    (slotLen (getSlot (getTile u (stqTile q)) (fldN h 20 6))) 64 = none)
  (hw : secureTile u (stqTile q) = false)
include hq hc hw

/-- A slot that is not FULL is waited for. -/
theorem portSend_waits (hr : readWaits (getTile u (stqTile q)) (BitVec.ofNat 24 (0x800000 + fldN h 20 6 * 2 ^ 17)) = true) : portSend u die qid h = u := by
  obtain ⟨htile, howner, -⟩ := stq_of_cfg hq
  simp only [portSend, htile, howner, hc, hw, hr, Bool.false_eq_true, if_false, if_true]

/-- A FULL slot of up to 16 KiB is sent in one packet, and its handle is used. -/
theorem portSend_sends (hr : readWaits (getTile u (stqTile q)) (BitVec.ofNat 24 (0x800000 + fldN h 20 6 * 2 ^ 17)) = false)
    (hb : spadBad (getTile u (stqTile q)) (slotBase (getSlot (getTile u (stqTile q)) (fldN h 20 6))) (slotLen (getSlot (getTile u (stqTile q)) (fldN h 20 6))) = false)
    (hl : slotLen (getSlot (getTile u (stqTile q)) (fldN h 20 6)) ≤ 16384) :
    let y := getSlot (getTile u (stqTile q)) (fldN h 20 6)
    portSend u die qid h = pushPkt (usedHandle u (stqPort q) (die, qid, h)) (stqPort q)
      (.stream (qid.setWidth 8 + fld h 0 8) (stqOwner q) (spadRead (getTile u (stqTile q)) (slotBase y) (slotLen y)) die qid h true) := by
  obtain ⟨htile, howner, hport⟩ := stq_of_cfg hq
  have hpkts := streamPkts_short die qid (getStq (getDie u die) qid) h
    (bs := spadRead (getTile u (stqTile q)) (slotBase (getSlot (getTile u (stqTile q)) (fldN h 20 6))) (slotLen (getSlot (getTile u (stqTile q)) (fldN h 20 6))))
    (List.ne_nil_of_length_pos (by rw [length_spadRead]; exact slotLen_pos _)) (by rw [length_spadRead]; exact hl)
  simp only [portSend, htile, howner, hport, hpkts, hc, hw, hr, hb, Bool.false_eq_true, if_false, usedHandle, List.foldl_cons, List.foldl_nil]

end slot

/-! ## Slots landed (R354, R355) -/

section land
variable {s s1 : State} {p : Nat} {u : BitVec 8} {job : BitVec 2} {bs : List Byte} {t0 : W64}

theorem landDrop_net (s : State) (p : Nat) (job : BitVec 2) : (landDrop s p job).net = s.net := putErr_net _ _ (by simp [portErr])

theorem landDrop_tiles (s : State) (p : Nat) (job : BitVec 2) : (landDrop s p job).tiles = s.tiles := putErr_tiles _ _ (by simp [portErr])

/-- Data without a handle waits. -/
theorem landInto_waits (h : ¬ fld (landReg s u) 16 13 ≠ (0x1FFF : BitVec 13)
    ∨ popHandle (tDie (fld (landReg s u) 0 16)) (fld (landReg s u) 16 13) (fld (landReg s u) 0 16) job 65 s = (s1, none)) : landInto s p u job bs = none := by
  by_cases hq : fld (landReg s u) 16 13 = (0x1FFF : BitVec 13)
  · exact if_pos hq
  · have hpop := h.resolve_left fun hn => hn hq
    simp only [landInto, hq, if_false, hpop]

/-- Data with a handle of a slot of its length is written through it. -/
theorem landInto_writes {h : W32} {t : W16} (hq : fld (landReg s u) 16 13 ≠ (0x1FFF : BitVec 13))
    (hpop : popHandle (tDie (fld (landReg s u) 0 16)) (fld (landReg s u) 16 13) (fld (landReg s u) 0 16) job 65 s = (s1, some (h, t)))
    (ht : tileTakes s1 t = true) (hw : secureTile s1 t = false) (hl : slotLen (getSlot (getTile s1 t) (fldN h 20 6)) = bs.length)
    (hc : opndCheck (getTile s1 t) job (BitVec.ofNat 24 (0x800000 + fldN h 20 6 * 2 ^ 17)) bs.length 64 = none)
    (hr : writeWaits (getTile s1 t) (BitVec.ofNat 24 (0x800000 + fldN h 20 6 * 2 ^ 17)) bs.length = false) :
    landInto s p u job bs = some (opndWrite s1 t job (BitVec.ofNat 24 (0x800000 + fldN h 20 6 * 2 ^ 17)) bs) := by
  simp only [landInto, hq, if_false, hpop, hl, ne_eq, not_true_eq_false, ht, Bool.not_true, Bool.false_eq_true, hw, hc, hr]

/-- A port without data. -/
theorem landAll_empty (h : (getPort s p).landing = []) : landAll s p = putPort s p (getPort s p) := by
  rw [landAll, h]
  exact congrArg (putPort s p) (landing_eta h)

theorem landAll_waits (h : (getPort s p).landing = [(u, job, bs, t0)]) (hi : landInto s p u job bs = none) : landAll s p = putPort s p (getPort s p) := by
  have htry : landTry 1 [] s p [(u, job, bs, t0)] = (s, [(u, job, bs, t0)]) := by simp [landTry, hi]
  rw [landAll, h]
  simp only [List.length_singleton, htry]
  rw [landing_eta h]

theorem landAll_lands {t : State} (h : (getPort s p).landing = [(u, job, bs, t0)]) (hi : landInto s p u job bs = some t) :
    landAll s p = putPort t p { getPort t p with landing := [] } := by
  have htry : landTry 1 [] s p [(u, job, bs, t0)] = (t, []) := by simp [landTry, hi]
  rw [landAll, h]
  simp only [List.length_singleton, htry]

end land

section port
variable {s : State} {port : Fin 24} {u : BitVec 8} {job : BitVec 2} {bs : List Byte}

theorem exec_landReceive_off (h : ¬ ((getPort s port).live = true ∧ (getPort s port).role = 1)) : exec (.landReceive port u job bs) s = .next s := by
  refine congrArg Host.Outcome.next (if_pos ?_)
  rw [← Bool.not_and, Bool.not_eq_true', Bool.eq_false_iff, ne_eq, Bool.and_eq_true, isTizal, decide_eq_true_eq]
  exact h

variable (hl : (getPort s port).live = true) (hr : (getPort s port).role = 1)
include hl hr

omit bs in
theorem landOff_false : (!(getPort s port).live || !isTizal (getPort s port)) = false := by simp [hl, hr, isTizal]

/-- Data for a landing number that is not the job's is dropped. -/
theorem exec_landReceive_drops (h : ¬ (bitAt (landReg s u) 31 = true ∧ fld (landReg s u) 29 2 = job)) :
    exec (.landReceive port u job bs) s = .next (landDrop s port job) := by
  refine congrArg Host.Outcome.next ((if_neg (Bool.eq_false_iff.mp (landOff_false hl hr))).trans (if_pos ?_))
  simpa [imp_iff_not_or] using h

theorem exec_landReceive_takes (h : bitAt (landReg s u) 31 = true ∧ fld (landReg s u) 29 2 = job) (he : (getPort s port).landing = []) :
    exec (.landReceive port u job bs) s
      = .next (landAll (putPort s port { getPort s port with landing := [(u, job, bs, s.mod.time)] }) port) := by
  refine congrArg Host.Outcome.next ((if_neg (Bool.eq_false_iff.mp (landOff_false hl hr))).trans ((if_neg ?_).trans ?_))
  · simp [h.1, h.2]
  · rw [he, List.nil_append]

end port

/-- Data that has waited at a port for PARK_LIMIT. -/
def landingOld (s : State) (port : Nat) (e : BitVec 8 × BitVec 2 × List Byte × W64) : Bool :=
  decide (parkLimit (getDie s (portDie port)) ≠ 0) && decide (e.2.2.2.toNat + parkLimit (getDie s (portDie port)) ≤ now s)

theorem landingOld_iff {s : State} {port : Nat} {u : BitVec 8} {job : BitVec 2} {bs : List Byte} {t0 : W64} : landingOld s port (u, job, bs, t0) = true ↔
    parkLimit (getDie s (portDie port)) ≠ 0 ∧ t0.toNat + parkLimit (getDie s (portDie port)) ≤ now s := by
  simp [landingOld]

/-- Data that has waited that long leaves its port; nothing else of a port or a tile changes. -/
theorem exec_landTimeout_keeps (s : State) (port : Fin 24) : Goes (exec (.landTimeout port) s) fun t => t.tiles = (landAll s port).tiles
    ∧ ∀ n, getPort t n = getPort (putPort (landAll s port) port { getPort (landAll s port) port with
      landing := (getPort (landAll s port) port).landing.filter fun e => !landingOld (landAll s port) port e }) n :=
  ⟨_, rfl, Laws.foldl_keeps _ State.tiles (fun _ _ => landDrop_tiles ..) _ _,
    getPort_of_net (Laws.foldl_keeps _ State.net (fun _ _ => landDrop_net ..) _ _)⟩

/-- Settles O41: slots sent, then slots landed, over the stream lane. -/
theorem streamLane : Obligations.StreamLane := by
  refine fun s port die qid u job bs => ⟨fun h => ?idle, fun h s1 t hr hp hu hpop hnet hcfg hc hw => ⟨fun hwait => ?waits, fun hfull hq hs hre hb hlen => ?sends⟩,
    exec_landReceive_off, fun ⟨hl, hr⟩ hno => ?drops, fun ⟨hl, hr⟩ hyes he => ⟨fun s1 hnone => ?held, fun s1 h t hq hpop ht hw hlen hc hgo => ?lands⟩,
    fun he => ?empty, fun s1 t0 he hnone => ?times⟩
  case idle =>
    obtain hr | ⟨hp, hu⟩ := h
    · exact exec_portStreamSend_not_ready hr
    · exact exec_portStreamSend_not_up hp hu
  case waits =>
    refine ⟨_, exec_portStreamSend_pops hp hr hu hpop, ?_⟩
    dsimp only
    rw [portSend_waits (u := withHandle s1 _ (die, qid, h)) hcfg hc hw hwait, getPort_withHandle, getPort_of_net hnet, hp]
    exact ⟨rfl, rfl⟩
  case sends =>
    refine ⟨_, exec_portStreamSend_pops hp hr hu hpop, ?_⟩
    dsimp only
    have hport := (getPort_usedHandle_withHandle (die, qid, h) ((congrArg Port.popped (getPort_of_net hnet _)).trans hp)).trans (getPort_of_net hnet _)
    rw [portSend_sends (u := withHandle s1 _ (die, qid, h)) hcfg hc hw hfull hb hlen]
    obtain ⟨⟨hheld, -⟩, hpopped, -⟩ := sendsOnly_pushPkt (.stream (qid.setWidth 8 + fld h 0 8) (stqOwner (getStq (getDie s die) qid))
      (spadRead (getTile s1 (stqTile (getStq (getDie s die) qid))) (slotBase (getSlot (getTile s1 (stqTile (getStq (getDie s die) qid))) (fldN h 20 6)))
        (slotLen (getSlot (getTile s1 (stqTile (getStq (getDie s die) qid))) (fldN h 20 6)))) die qid h true)
      (by rw [hport]; exact hu) (by rw [hport]; exact hp) (by rw [hport]; exact hq) (by rw [hport]; exact hs) (by rw [hport]; exact hre)
    exact ⟨hpopped, hheld⟩
  case drops => exact ⟨_, exec_landReceive_drops hl hr hno, landDrop_net .., landDrop_tiles ..⟩
  case held =>
    refine ⟨_, exec_landReceive_takes hl hr hyes he, ?_⟩
    have hport := getPort_putPort_same s port { getPort s port with landing := [(u, job, bs, s.mod.time)] }
    dsimp only
    rw [landAll_waits (congrArg Port.landing hport) (landInto_waits hnone), getPort_putPort_self, hport]
    exact ⟨rfl, rfl⟩
  case lands =>
    refine ⟨_, exec_landReceive_takes hl hr hyes he, ?_⟩
    have hport := getPort_putPort_same s port { getPort s port with landing := [(u, job, bs, s.mod.time)] }
    dsimp only
    rw [landAll_lands (congrArg Port.landing hport) (landInto_writes hq hpop ht hw hlen hc hgo), getPort_putPort_same]
    exact ⟨rfl, rfl⟩
  case empty =>
    obtain ⟨t, ht, htiles, hports⟩ := exec_landTimeout_keeps s port
    rw [landAll_empty he] at htiles hports
    refine ⟨t, ht, htiles, fun n => (hports n).trans ?_⟩
    rw [getPort_putPort_self s port port, he, List.filter_nil, landing_eta he, getPort_putPort, getPort_putPort_self]
    split
    · next h => rw [h]
    · rfl
  case times =>
    obtain ⟨t, ht, htiles, hports⟩ := exec_landTimeout_keeps s port
    rw [landAll_waits he (landInto_waits hnone)] at htiles hports
    refine ⟨t, ht, ?_, htiles⟩
    rw [hports, getPort_putPort_same, getPort_putPort_self, he]
    change List.filter (fun e => !landingOld s port e) _ = _
    by_cases hold : landingOld s port (u, job, bs, t0) = true
    · rw [if_pos (landingOld_iff.mp hold), List.filter_cons_of_neg (by simpa using hold), List.filter_nil]
    · rw [if_neg (mt landingOld_iff.mpr hold), List.filter_cons_of_pos (by simpa using hold), List.filter_nil]

end Sys2Proof.Machine
end

section
/-!
PROOFS of the statement of the family '11_hbm.md': the invariant that every function of the model keeps, and its rules. Each function
that gives a state has one rule, which cites those of the functions it calls; only stores, copies and clears write bytes of the stacks.
-/
namespace Sys2Proof.Machine
open Sys2Proof

/-- The queue of commands is that of a state o, and the bytes of the stacks are canonical where those of o are. -/
def Canon (o s : State) : Prop := s.pending = o.pending ∧ (hbmWf o = true → hbmWf s = true)

namespace Canon
variable {o s t : State} {α β : Type}

/-- An update of any other field. -/
theorem frame (h : Canon o s)
    {mod log tiles halves dies hbmStacks net gather jobs pubs watches losses regions win mgmt fw sec jtag power flash status owed freeCtr} :
    Canon o { s with
      mod := mod, log := log, tiles := tiles, halves := halves, dies := dies, hbmStacks := hbmStacks, net := net, gather := gather, jobs := jobs, pubs := pubs
      watches := watches, losses := losses, regions := regions, win := win, mgmt := mgmt, fw := fw, sec := sec, jtag := jtag, power := power, flash := flash
      status := status, owed := owed, freeCtr := freeCtr } := h

/-- Bytes of the stacks written so that they stay canonical. -/
theorem setHbm {m : SMap Byte} (h : Canon o s) (hm : mwf 0 s.hbm = true → mwf 0 m = true) : Canon o { s with hbm := m } :=
  ⟨h.1, fun ho => hm (h.2 ho)⟩

/-- A range of bytes cleared. -/
theorem clrHbm {a n : Nat} (h : Canon o s) : Canon o { s with hbm := clrRange s.hbm a n } := h.setHbm fun hm => Laws.mwf_clrRange a n hm

/-- A choice, in a state and in each part of a pair. -/
theorem ite {c : Prop} [Decidable c] (h : Canon o s) (k : Canon o t) : Canon o (if c then s else t) := by
  split <;> assumption

theorem iteFst {c : Prop} [Decidable c] {p q : State × α} (h : Canon o p.1) (k : Canon o q.1) : Canon o (if c then p else q).1 := by
  split <;> assumption

theorem iteSnd {c : Prop} [Decidable c] {p q : α × State} (h : Canon o p.2) (k : Canon o q.2) : Canon o (if c then p else q).2 := by
  split <;> assumption

/-- A step repeated along a list. -/
theorem foldl {f : State → α → State} {l : List α} (h : Canon o s) (hf : ∀ s a, Canon o s → Canon o (f s a)) : Canon o (l.foldl f s) := by
  induction l generalizing s with
  | nil => exact h
  | cons a l ih => exact ih (hf s a h)

theorem foldlFst {f : State × β → α → State × β} {l : List α} {p : State × β} (h : Canon o p.1) (hf : ∀ p a, Canon o p.1 → Canon o (f p a).1) :
    Canon o (l.foldl f p).1 := by
  induction l generalizing p with
  | nil => exact h
  | cons a l ih => exact ih (hf p a h)

theorem foldlSnd {f : β × State → α → β × State} {l : List α} {p : β × State} (h : Canon o p.2) (hf : ∀ p a, Canon o p.2 → Canon o (f p a).2) :
    Canon o (l.foldl f p).2 := by
  induction l generalizing p with
  | nil => exact h
  | cons a l ih => exact ih (hf p a h)

/-- The state that a function answers with, taken from its pair. -/
theorem ofFst {p : State × α} {x : α} (hp : p = (t, x)) (h : Canon o p.1) : Canon o t := by
  rwa [hp] at h

theorem ofSnd {p : α × State} {x : α} (hp : p = (x, t)) (h : Canon o p.2) : Canon o t := by
  rwa [hp] at h

end Canon

/-- A command's answer keeps them where it is a next state. -/
def CanonNext (o : State) (r : Host.Outcome State Fault Refusal) : Prop := ∀ t, r = .next t → Canon o t

namespace CanonNext
variable {o s : State}

theorem next (h : Canon o s) : CanonNext o (.next s) := fun _ ht => Host.Outcome.next.inj ht ▸ h

theorem onTile {t : W16} {f : State → State} (h : Canon o (f s)) : CanonNext o (Machine.onTile t s f) := by
  unfold Machine.onTile
  split
  exacts [next h, fun _ ht => nomatch ht]

theorem ite {c : Prop} [Decidable c] {x y : Host.Outcome State Fault Refusal} (h : CanonNext o x) (k : CanonNext o y) :
    CanonNext o (if c then x else y) := by
  split <;> assumption

end CanonNext

/-- An answer that is an error or a value keeps them, where f and g give the state in each. -/
def CanonRes {ε α : Type} (o : State) (f : ε → State) (g : α → State) (r : Except ε α) : Prop :=
  match r with
  | .error e => Canon o (f e)
  | .ok a => Canon o (g a)

namespace CanonRes
variable {ε α β : Type} {o : State} {f : ε → State} {g : α → State} {g' : β → State} {r q : Except ε α}

theorem ite {c : Prop} [Decidable c] (h : CanonRes o f g r) (k : CanonRes o f g q) : CanonRes o f g (if c then r else q) := by
  split <;> assumption

theorem map {k : α → β} (h : CanonRes o f g r) (hk : ∀ a, Canon o (g a) → Canon o (g' (k a))) : CanonRes o f g' (r.map k) := by
  cases r with
  | error e => exact h
  | ok a => exact hk a h

theorem error {e : ε} (h : CanonRes o f g r) (hr : r = .error e) : Canon o (f e) := by
  rwa [hr] at h

theorem ok {a : α} (h : CanonRes o f g r) (hr : r = .ok a) : Canon o (g a) := by
  rwa [hr] at h

end CanonRes

namespace Canon

/-! ## Shared operations -/

theorem freshWord (h : Canon o s) : Canon o (Machine.freshWord s).2 := h.frame

theorem freshBit (h : Canon o s) : Canon o (Machine.freshBit s).2 := h.frame

theorem freshBytes {n : Nat} (h : Canon o s) : Canon o (Machine.freshBytes n s).2 := h.frame

theorem putTile {t : W16} {x : Tile} (h : Canon o s) : Canon o (Machine.putTile s t x) := h.frame

theorem modTile {t : W16} {f : Tile → Tile} (h : Canon o s) : Canon o (Machine.modTile s t f) := h.putTile

theorem modCtx {t : W16} {j : BitVec 2} {f : Ctx → Ctx} (h : Canon o s) : Canon o (Machine.modCtx s t j f) := h.modTile

theorem putHalf {i : Nat} {x : Half} (h : Canon o s) : Canon o (Machine.putHalf s i x) := h.frame

theorem putDie {d : Nat} {x : Die} (h : Canon o s) : Canon o (Machine.putDie s d x) := h.frame

theorem modDie {d : Nat} {f : Die → Die} (h : Canon o s) : Canon o (Machine.modDie s d f) := h.putDie

theorem putStack {n : Nat} {x : Stack} (h : Canon o s) : Canon o (Machine.putStack s n x) := h.frame

theorem putJob {j : BitVec 2} {x : Job} (h : Canon o s) : Canon o (Machine.putJob s j x) := h.frame

theorem modJob {j : BitVec 2} {f : Job → Job} (h : Canon o s) : Canon o (Machine.modJob s j f) := h.putJob

theorem putPort {p : Nat} {x : Port} (h : Canon o s) : Canon o (Machine.putPort s p x) := h.frame

theorem putTree {n : BitVec 10} {x : Tree} (h : Canon o s) : Canon o (Machine.putTree s n x) := h.frame

theorem putWatch {w : BitVec 12} {x : Watch} (h : Canon o s) : Canon o (Machine.putWatch s w x) := h.frame

theorem putPub {e : Nat} {x : Pub} (h : Canon o s) : Canon o (Machine.putPub s e x) := h.frame

theorem putEdge {e : Nat} {x : Edge} (h : Canon o s) : Canon o (Machine.putEdge s e x) := h.frame

theorem putRail {r : Nat} {x : Rail} (h : Canon o s) : Canon o (Machine.putRail s r x) := h.frame

theorem setStatus {st : Byte} (h : Canon o s) : Canon o (Machine.setStatus s st) := h.frame

theorem payLate {l : Late} {st : Byte} (h : Canon o s) : Canon o (Machine.payLate s l st) := .ite h.frame h

theorem pumpEvents {n : Nat} (h : Canon o s) : Canon o (Machine.pumpEvents n s) := by
  induction n generalizing s with
  | zero => exact h
  | succ n ih =>
    unfold Machine.pumpEvents
    split
    exacts [h, .ite (ih h.frame) h]

theorem raiseEvent {kind : Nat} {obj : W16} {body : List Byte} {sev : BitVec 2} (h : Canon o s) : Canon o (Machine.raiseEvent s kind obj body sev) :=
  .ite h.frame.pumpEvents h

theorem setDieSt {d : Nat} {f : Die → Die} (h : Canon o s) : Canon o (Machine.setDieSt s d f) := h.modDie.raiseEvent

theorem setModSt {f : Mod → Mod} (h : Canon o s) : Canon o (Machine.setModSt s f) := h.frame.raiseEvent

theorem setPort {p : Nat} {f : Port → Port} (h : Canon o s) : Canon o (Machine.setPort s p f) := h.putPort.raiseEvent

theorem setJobSt {j : BitVec 2} {st : JobSt} (h : Canon o s) : Canon o (Machine.setJobSt s j st) := h.modJob.raiseEvent

theorem setStackSt {n : Nat} {f : Stack → Stack} (h : Canon o s) : Canon o (Machine.setStackSt s n f) := h.putStack.raiseEvent

theorem setFw {f : Fw → Fw} (h : Canon o s) : Canon o (Machine.setFw s f) := h.frame.raiseEvent

/-- A piece stored: its bytes where its block takes them, none else. -/
theorem hbmPut1 {pa : Nat} {bs : List Byte} (h : Canon o s) : Canon o (Machine.hbmPut1 s pa bs).1 := by
  refine .iteFst (.iteFst ?_ h.putStack) h
  exact h.putStack.setHbm fun hm => mwf_wrBytes pa bs hm

theorem hbmPut {pa : Nat} {bs : List Byte} (h : Canon o s) : Canon o (Machine.hbmPut s pa bs).1 := h.foldlFst fun _ _ h => h.hbmPut1

theorem hbmGet {pa n : Nat} (h : Canon o s) : Canon o (Machine.hbmGet s pa n).1 := h.foldlFst fun _ _ h => .iteFst h.putStack h

theorem ringAppend {r : ErrRec} (h : Canon o s) : Canon o (Machine.ringAppend s r) := .ite (.ite h (.ite h.hbmPut.modJob h.modJob)) h

theorem railsOff (h : Canon o s) : Canon o (Machine.railsOff s) := h.frame

theorem resetHalf {d : Nat} {h1 : Bool} (h : Canon o s) : Canon o (Machine.resetHalf s d h1) := h.putHalf

theorem stopJob {j : BitVec 2} (h : Canon o s) : Canon o (Machine.stopJob s j) := .ite h h.modJob.setJobSt

theorem fatalStop (h : Canon o s) : Canon o (Machine.fatalStop s) := by
  unfold Machine.fatalStop
  extract_lets _ s1 s2 s3 s4 _ s5
  have h1 : Canon o s1 := h.frame.railsOff
  have h2 : Canon o s2 := h1.foldl fun _ _ h => .ite h.setDieSt.frame.resetHalf.resetHalf h
  have h3 : Canon o s3 := h2.foldl fun _ _ h => .ite h h.setPort
  have h4 : Canon o s4 := h3.foldl fun _ _ h => h.setStackSt
  have h5 : Canon o s5 := h4.frame.foldl fun _ _ h => h.stopJob
  exact h5.frame.setModSt

theorem putRecord {r : ErrRec} (h : Canon o s) : Canon o (Machine.putRecord s r).1 :=
  .ite (.fatalStop (.ite h.frame.ringAppend.raiseEvent h.frame.ringAppend)) (.ite h.frame.ringAppend.raiseEvent h.frame.ringAppend)

theorem putErr1 {e : Err} (h : Canon o s) : Canon o (Machine.putErr1 s e).1 := .iteFst h.frame (.putRecord (.ite h.frame h))

theorem putErr {e : Err} (h : Canon o s) : Canon o (Machine.putErr s e) := by
  unfold Machine.putErr
  dsimp only
  split
  · refine .ite ?_ ?_
    · split
      exacts [.ite (.ite h.putErr1.putErr1 h.putErr1) (.putErr1 (.ite h.putErr1.putErr1 h.putErr1)), .ite h.putErr1.putErr1 h.putErr1]
    · split
      exacts [.putErr1 (.ite h.putErr1.putErr1 h.putErr1), .ite h.putErr1.putErr1 h.putErr1]
  · exact .ite h.putErr1.putErr1 h.putErr1

theorem hbmStore {pa : Nat} {bs : List Byte} {job : Option (BitVec 2)} (h : Canon o s) : Canon o (Machine.hbmStore s pa bs job).1 :=
  .ite h.hbmPut.putErr h.hbmPut

theorem hbmLoad {pa n : Nat} {job : Option (BitVec 2)} (h : Canon o s) : Canon o (Machine.hbmLoad s pa n job).1 := .ite h.hbmGet.putErr h.hbmGet

theorem raisePrecise {t : W16} {j : BitVec 2} {eng : Bool} {cause : Byte} {info : W64} (h : Canon o s) :
    Canon o (Machine.raisePrecise s t j eng cause info) := h.modCtx.putErr

theorem raiseDeferred {t : W16} {j : BitVec 2} {eng : Bool} {cause : Byte} {pc info : W64} {injected : Bool} (h : Canon o s) :
    Canon o (Machine.raiseDeferred s t j eng cause pc info injected) := h.modTile.putErr

theorem spadWrite {t : W16} {j : BitVec 2} {a : Nat} {bs : List Byte} (h : Canon o s) : Canon o (Machine.spadWrite s t j a bs) :=
  h.putTile.foldl fun _ _ h => h.putErr

theorem markDue {t : W16} (h : Canon o s) : Canon o (Machine.markDue s t) := h.foldl fun _ _ h => by dsimp only; split; exacts [.ite h.putTile h, h]

theorem acntAdd {t : W16} {k : Nat} {n : W64} (h : Canon o s) : Canon o (Machine.acntAdd s t k n) := h.modTile.markDue

theorem arriveCount {t : W16} {k : Nat} {j : BitVec 2} (h : Canon o s) : Canon o (Machine.arriveCount s t k j) := .ite h.acntAdd h.putErr

theorem acntMark {t : W16} {k : Nat} {cause : Byte} (h : Canon o s) : Canon o (Machine.acntMark s t k cause) := h.modTile.markDue

theorem dropHandle {die : Nat} {t : W16} {j : BitVec 2} (h : Canon o s) : Canon o (Machine.dropHandle s die t j) := h.modDie.putErr

theorem pushHandle {die : Nat} {q : BitVec 13} {t : W16} {j : BitVec 2} {h0 : W32} {src : PushSrc} (h : Canon o s) :
    Canon o (Machine.pushHandle s die q t j h0 src).1 :=
  .iteFst h (.iteFst (.iteFst (.iteFst h.putDie h.putDie) h.dropHandle) (.iteFst (.iteFst h.putTile h.putTile) h.dropHandle))

theorem slotDrain {t : W16} {k : Nat} (h : Canon o s) : Canon o (Machine.slotDrain s t k) :=
  .ite (.ite h.putTile (by dsimp only; split; exacts [h.putTile.pushHandle.modTile, h.putTile.pushHandle])) h

theorem slotFill {t : W16} {k n : Nat} (h : Canon o s) : Canon o (Machine.slotFill s t k n) :=
  .ite h.putTile (by dsimp only; split; exacts [h.putTile.pushHandle.modTile, h.putTile.pushHandle])

/-! ## Operands of the engines -/

theorem opndWrite {t : W16} {j : BitVec 2} {v : BitVec 24} {bs : List Byte} (h : Canon o s) : Canon o (Machine.opndWrite s t j v bs) := by
  unfold Machine.opndWrite
  dsimp only
  split
  exacts [h.spadWrite.slotFill, h.spadWrite]

theorem opndRewrite {t : W16} {j : BitVec 2} {v : BitVec 24} {bs : List Byte} (h : Canon o s) : Canon o (Machine.opndRewrite s t j v bs) :=
  h.spadWrite

/-! ## Transfer records -/

theorem modRec {die : Nat} {r : BitVec 9} {f : XferRec → XferRec} (h : Canon o s) : Canon o (Machine.modRec s die r f) := h.modDie

theorem parkFault {die : Nat} {r : BitVec 9} {l : Leg} {f : BitVec 3 × Bool × W64} (h : Canon o s) : Canon o (Machine.parkFault s die r l f) :=
  h.modRec.modDie.putErr

theorem settleRec {die : Nat} {r : BitVec 9} (h : Canon o s) : Canon o (Machine.settleRec s die r) :=
  .ite h (.ite (.ite h.modRec h) (by split; exacts [by split; exacts [.ite h.parkFault h, h], h]))

theorem settleInval (h : Canon o s) : Canon o (Machine.settleInval s) := .ite h.payLate h

theorem stepGone {die : Nat} {r : BitVec 9} {id : Nat} (h : Canon o s) : Canon o (Machine.stepGone s die r id) := h.modRec.frame.settleInval.settleRec

theorem stepFails {die : Nat} {r : BitVec 9} {id : Nat} {cause : Byte} {info : Option W64} (h : Canon o s) :
    Canon o (Machine.stepFails s die r id cause info) := by
  unfold Machine.stepFails
  dsimp only
  split
  exacts [h.modRec.stepGone, h]

/-! ## Packets of a port -/

theorem sendFlit {p : Nat} {typ : BitVec 2} {vl : Nat} {seq : BitVec 12} {len : Nat} {k : Option (Pkt × Nat)} (h : Canon o s) :
    Canon o (Machine.sendFlit s p typ vl seq len k) := h.putPort

theorem sendIdle {p : Nat} (h : Canon o s) : Canon o (Machine.sendIdle s p) := h.sendFlit

theorem sendPart {p : Nat} {f : TxFlit} (h : Canon o s) : Canon o (Machine.sendPart s p f) := h.sendFlit

theorem resend {p : Nat} (h : Canon o s) : Canon o (Machine.resend s p) := h.foldl fun _ _ h => h.sendPart

theorem sendLane {p : Nat} {k : Pkt} {i : Nat} {turn : Nat × Nat} (h : Canon o s) : Canon o (Machine.sendLane s p k i turn) := h.sendPart.putPort

theorem pumpPort {n p : Nat} (h : Canon o s) : Canon o (Machine.pumpPort n s p) := by
  induction n generalizing s with
  | zero => exact h
  | succ n ih =>
    refine .ite ?_ h
    split
    · split
      exacts [ih h.sendLane, h]
    · exact h

theorem pump {n : Nat} (h : Canon o s) : Canon o (Machine.pump s n) := .ite h.pumpPort.putPort h.pumpPort

theorem pushPkt {n : Nat} {k : Pkt} (h : Canon o s) : Canon o (Machine.pushPkt s n k) := .ite h.putPort.pump h

theorem sendCtrl {k : Nat} {m : CtrlMsg} (h : Canon o s) : Canon o (Machine.sendCtrl s k m) := .ite h.pushPkt h

end Canon

end Sys2Proof.Machine
end

section
/-!
PROOFS of the statement of the family '11_hbm.md', continued: the weirs, the exchange and the stacks.
-/
namespace Sys2Proof.Machine
open Sys2Proof

namespace Canon
variable {o s t : State} {α β : Type}

/-! ## Weirs -/

theorem onDies {ds : List Nat} {n : BitVec 12} {f : Weir → Weir} (h : Canon o s) : Canon o (Machine.onDies s ds n f) := h.foldl fun _ _ h => h.modDie

theorem putL6 {n : BitVec 12} {x : WeirL6} (h : Canon o s) : Canon o (Machine.putL6 s n x) := h.frame

theorem tellPeers {m : CtrlMsg} (h : Canon o s) : Canon o (Machine.tellPeers s m) := h.foldl fun _ _ h => h.sendCtrl

theorem sendRelease {d : Nat} {n : BitVec 12} {lost : Bool} (h : Canon o s) : Canon o (Machine.sendRelease s d n lost) :=
  .ite (.putErr (.ite h.onDies.putL6 h.onDies)) (.ite h.onDies.putL6 h.onDies)

theorem weirTest {d : Nat} {n : BitVec 12} (h : Canon o s) : Canon o (Machine.weirTest s d n) :=
  .ite h (.ite h.sendRelease (.ite h (.ite (.ite h.tellPeers.sendRelease h) h.sendCtrl)))

theorem openL6 {d : Nat} {n : BitVec 12} (h : Canon o s) : Canon o (Machine.openL6 s d n) := .ite h.putL6.weirTest h

theorem clearArrived {ds : List Nat} {n : BitVec 12} (h : Canon o s) : Canon o (Machine.clearArrived s ds n) := h.frame

theorem weirFaultSpan {d : Nat} {n : BitVec 12} (h : Canon o s) : Canon o (Machine.weirFaultSpan s d n) := h.onDies.clearArrived

theorem weirFaultAll {d : Nat} {n : BitVec 12} (h : Canon o s) : Canon o (Machine.weirFaultAll s d n) :=
  .weirFaultSpan (.ite h.putErr.frame.tellPeers h.putErr.frame)

theorem counterArrival {a : Arrival} (h : Canon o s) : Canon o (Machine.counterArrival s a) :=
  .ite h.frame (.ite h.frame.modDie.putErr (.ite h.frame.weirFaultAll (.ite h.frame h.frame.modDie.weirTest)))

theorem arriveAtCounter {die : Fin 12} {weir : BitVec 12} {tile : W16} (h : Canon o s) : Canon o (Machine.arriveAtCounter s die weir tile) := by
  unfold Machine.arriveAtCounter
  split
  exacts [.ite h.counterArrival h, h]

theorem releaseAtDie {d : Nat} {n : BitVec 12} (h : Canon o s) : Canon o (Machine.releaseAtDie s d n) := by
  unfold Machine.releaseAtDie
  dsimp only
  split
  exacts [.ite h.weirFaultAll h.modDie, h]

theorem releaseAtTile {d : Nat} {n : BitVec 12} {t : W16} (h : Canon o s) : Canon o (Machine.releaseAtTile s d n t) := .ite h.modTile h

theorem releaseArrive {die : Fin 12} {weir : BitVec 12} {tile : Option W16} (h : Canon o s) : Canon o (Machine.releaseArrive s die weir tile) := by
  unfold Machine.releaseArrive
  split
  exacts [h.releaseAtDie, h.releaseAtTile]

theorem arriveAct {t : W16} {n : BitVec 12} {h0 : BitVec 4} (h : Canon o s) : Canon o (Machine.arriveAct t n h0 s) := by
  unfold Machine.arriveAct
  dsimp only
  split
  exacts [h.modTile.frame, h.modTile]

theorem weirSeen {t : W16} {n : BitVec 12} (h : Canon o s) : Canon o (Machine.weirSeen t n s) := .ite h.modTile h

theorem releaseLost {d : Nat} {n : BitVec 12} (h : Canon o s) : Canon o (Machine.releaseLost s d n) :=
  .ite h.onDies (.sendRelease (.ite h.onDies.tellPeers h.onDies))

theorem loseMembers {lost : W16 → Bool} {gone : Nat → Bool} (h : Canon o s) : Canon o (Machine.loseMembers s lost gone) :=
  h.frame.foldl fun _ _ h => h.releaseLost

theorem orphanWeir {d : Nat} {n : BitVec 12} (h : Canon o s) : Canon o (Machine.orphanWeir s d n) :=
  .clearArrived (h.foldl fun _ _ h => .ite h h.modDie.putErr)

theorem orphanJob {j : BitVec 2} (h : Canon o s) : Canon o (Machine.orphanJob s j) :=
  .foldl (h.foldl fun _ _ h => h.orphanWeir) fun _ _ h => h.tellPeers

theorem setMembers {d : Nat} {n : BitVec 12} {ms : List W16} (h : Canon o s) : Canon o (Machine.setMembers s d n ms) :=
  h.frame.foldl fun _ _ h => h.modTile

theorem weirLoadApply {n : BitVec 12} {cfg : W32} {ms : List W16} (h : Canon o s) : Canon o (Machine.weirLoadApply s n cfg ms) := by
  unfold Machine.weirLoadApply
  extract_lets _ _ _ _ _ _ s1 s2 s3 _ s4
  have h2 : Canon o s2 := h.frame.foldl fun _ _ h => h.modDie.setMembers
  have h3 : Canon o s3 := h2.foldl fun _ _ h => h.modDie.setMembers
  exact .ite h3.putL6.tellPeers.openL6 h3

theorem weirLoad {n : BitVec 12} {cfg : W32} {ms : List W16} (h : Canon o s) : Canon o (Machine.weirLoad s n cfg ms).1 := by
  unfold Machine.weirLoad
  split
  exacts [h, h.weirLoadApply]

theorem execWeirLoad {w : Writer} {weir : BitVec 12} {cfg : W32} {members : List W16} (h : Canon o s) :
    CanonNext o (Machine.execWeirLoad w weir cfg members s) := .next h.weirLoad.setStatus

theorem injectWeirCopy {t : W16} {n : BitVec 12} (h : Canon o s) : Canon o (Machine.injectWeirCopy s t n) := h.modDie

/-! ## Blocks of the exchange -/

theorem putBlk {i : Nat} {b : Block} (h : Canon o s) : Canon o (Machine.putBlk s i b) := h.frame

theorem dropBlk {i : Nat} (h : Canon o s) : Canon o (Machine.dropBlk s i) := h.frame

theorem addBlk {b : Block} (h : Canon o s) : Canon o (Machine.addBlk s b) := h.frame

theorem addMarker {tile : W16} {acnt : BitVec 6} {cause : Byte} {job : BitVec 2} (h : Canon o s) :
    Canon o (Machine.addMarker s tile acnt cause job) := h.frame

theorem markTiles {b : Block} {ts : List W16} {cause : Byte} (h : Canon o s) : Canon o (Machine.markTiles s b ts cause) :=
  .ite h (h.foldl fun _ _ h => h.addMarker)

theorem execMarkerReceive {mk : Nat} (h : Canon o s) : CanonNext o (Machine.execMarkerReceive mk s) :=
  .next (by split; exacts [.ite h.frame.putErr h.frame.acntMark, h])

theorem clearRoutes {n : BitVec 10} (h : Canon o s) : Canon o (Machine.clearRoutes s n) := h.frame

theorem treeLoad {n : BitVec 10} {rs : List (W16 × W16)} (h : Canon o s) : Canon o (Machine.treeLoad s n rs).1 :=
  .iteFst h (.iteFst h h.clearRoutes.frame.putTree)

theorem execTreeLoad {w : Writer} {tree : BitVec 10} {routes : List (W16 × W16)} (h : Canon o s) :
    CanonNext o (Machine.execTreeLoad w tree routes s) := .next h.treeLoad.setStatus

theorem setExch {t : W16} {e : Option Exch} (h : Canon o s) : Canon o (Machine.setExch s t e) := h.modTile

theorem failExch {t : W16} {e : Exch} {cause : Byte} (h : Canon o s) : Canon o (Machine.failExch s t e cause) := h.setExch.modTile

theorem issueEntry {t : W16} {e : Exch} (h : Canon o s) : Canon o (Machine.issueEntry s t e) := by
  refine .ite h.failExch (.ite h.failExch ?_)
  split
  exacts [h.failExch, .ite h (.ite h.failExch (by split; exacts [h.failExch, .ite h (.ite h.addBlk.modTile.failExch h.addBlk.modTile.setExch)]))]

theorem exchStart {t : W16} {j : BitVec 2} {a : W64} {count : Nat} {pc : W64} (h : Canon o s) : Canon o (Machine.exchStart t j a count pc s) :=
  h.frame.modTile

theorem meetFlitFault {b : Block} {port : Nat} {q : Pos} {inp : Nat} (h : Canon o s) : Canon o (Machine.meetFlitFault s b port q inp) := by
  unfold Machine.meetFlitFault
  split
  exacts [.ite h.modTile.putErr h, h]

theorem meetEdgeFault {a b : Nat} (h : Canon o s) : Canon o (Machine.meetEdgeFault s a b) := .ite h.freshWord.putEdge h

theorem place {i : Nat} {b : Block} {q : Pos} {inp : Nat} (h : Canon o s) : Canon o (Machine.place s i b q inp) := h.putBlk

theorem hop {i : Nat} {b : Block} {port : Nat} {q : Pos} {inp : Nat} (h : Canon o s) : Canon o (Machine.hop s i b port q inp) := h.meetFlitFault.place

theorem loseBlk {i : Nat} {b : Block} {cause : Byte} (h : Canon o s) : Canon o (Machine.loseBlk s i b cause) := by
  unfold Machine.loseBlk
  split
  exacts [h.dropBlk.stepFails, h.dropBlk]

theorem dropFenced {i : Nat} {b : Block} (h : Canon o s) : Canon o (Machine.dropFenced s i b) := h.loseBlk.putErr

theorem dropLink {i : Nat} {b : Block} {ts : List W16} (h : Canon o s) : Canon o (Machine.dropLink s i b ts) := h.loseBlk.putErr.markTiles

theorem forwardUni {i : Nat} {b : Block} (h : Canon o s) : Canon o (Machine.forwardUni s i b) := by
  unfold Machine.forwardUni
  dsimp only
  split
  exacts [.ite (by split; exacts [h.putBlk, h.dropFenced]) (.ite h.hop h), h]

theorem forwardLink {i : Nat} {b : Block} {port : Nat} {sending : Bool} (h : Canon o s) : Canon o (Machine.forwardLink s i b port sending) :=
  .ite (by split; exacts [.ite h.dropFenced (.ite h (.ite h.meetEdgeFault.place h)), h]) (.ite h.place h)

theorem castSettle {i : Nat} {b : Block} (h : Canon o s) : Canon o (Machine.castSettle s i b) := .ite h.dropBlk h.putBlk

theorem forwardCast {i : Nat} {b : Block} (h : Canon o s) : Canon o (Machine.forwardCast s i b) := by
  unfold Machine.forwardCast
  dsimp only
  split
  exacts [h.meetFlitFault.addBlk.castSettle, h.castSettle]

theorem abandonRound {n : BitVec 10} {p : Pos} {ins : List (Nat × Block)} {b : Block} {who : W16} (h : Canon o s) :
    Canon o (Machine.abandonRound s n p ins b who) := .markTiles (.putErr (h.foldl fun _ _ h => h.dropBlk))

theorem runRound {n : BitVec 10} {p : Pos} {r : W16} {ins : List (Nat × Block)} {b0 : Block} (h : Canon o s) :
    Canon o (Machine.runRound s n p r ins b0) := by
  unfold Machine.runRound
  split
  · exact h.abandonRound
  · dsimp only
    split
    · exact .ite h (.addBlk (h.foldl fun _ _ h => h.dropBlk))
    · split
      exacts [.ite (.addBlk (h.meetFlitFault.foldl fun _ _ h => h.dropBlk)) h, h]
    · exact h

theorem execAddRound {tree : BitVec 10} {router : W16} (h : Canon o s) : CanonNext o (Machine.execAddRound tree router s) :=
  .next (by dsimp only; split; exacts [h, .ite h.runRound h])

theorem breakTrees {lost : W16 → Bool} {who : W16} (h : Canon o s) : Canon o (Machine.breakTrees s lost who) :=
  h.foldl fun _ _ h => .putTree (h.foldl fun _ _ h => by dsimp only; split; exacts [h.abandonRound, h])

theorem execCastPrune {blk : Nat} {port : Fin 5} (h : Canon o s) : CanonNext o (Machine.execCastPrune blk port s) :=
  .next (by split; exacts [.ite h.frame.putErr.castSettle h, h])

theorem execPrunedMarkerSend {router : W16} {tree : BitVec 10} {port : Fin 5} (h : Canon o s) :
    CanonNext o (Machine.execPrunedMarkerSend router tree port s) := .next (by dsimp only; split; exacts [.ite h.frame.markTiles h, h])

/-! ## Registers of a core -/

theorem csrReadAct {t : W16} {n : BitVec 12} (h : Canon o s) : Canon o (Machine.csrReadAct t n s) := .ite h.freshWord.modTile h

theorem csrWrite {t : W16} {j : BitVec 2} {n : BitVec 12} {v : W64} (h : Canon o s) : Canon o (Machine.csrWrite t j n v s) := by
  unfold Machine.csrWrite
  dsimp only
  split
  exacts [h.modCtx, h.modCtx, h.modCtx, h.modCtx, h.modCtx, h.modTile, h.modTile, h.modTile, h.modTile, h]

theorem fenceIAct {t : W16} (h : Canon o s) : Canon o (Machine.fenceIAct t s) := h.modTile

theorem checkFinished {j : BitVec 2} (h : Canon o s) : Canon o (Machine.checkFinished s j) := .ite h.setJobSt h

theorem checkPaused {j : BitVec 2} (h : Canon o s) : Canon o (Machine.checkPaused s j) := .ite h.setJobSt h

theorem haltAct {t : W16} {j : BitVec 2} (h : Canon o s) : Canon o (Machine.haltAct t j s) := h.modCtx.checkFinished.checkPaused

/-! ## Jobs -/

theorem mapCtx {j : BitVec 2} {f : Ctx → Ctx} (h : Canon o s) : Canon o (Machine.mapCtx s j f) := h.frame

theorem pauseJob {j : BitVec 2} (h : Canon o s) : Canon o (Machine.pauseJob s j) := .ite h.setJobSt.mapCtx.checkPaused h

theorem secureWrite {w : Writer} {addr : Nat} {f : State → State × Byte} (h : Canon o s) (hf : ∀ s, Canon o s → Canon o (f s).1) :
    Canon o (Machine.secureWrite w addr s f).1 := .iteFst (hf _ h) h.putErr

theorem dieReg {d : Nat} {f : State → State × Byte} (h : Canon o s) (hf : ∀ s, Canon o s → Canon o (f s).1) : Canon o (Machine.dieReg s d f).1 :=
  .iteFst (hf _ h) h

theorem tileReg {t : W16} {f : State → State × Byte} (h : Canon o s) (hf : ∀ s, Canon o s → Canon o (f s).1) : Canon o (Machine.tileReg s t f).1 :=
  h.dieReg fun _ h => .iteFst h (hf _ h)

theorem finish {r : State × Byte} (h : Canon o r.1) : Canon o (Machine.finish r) := h.setStatus

/-! ## Stacks -/

theorem pushReqs {n : Nat} {rs : List MemReq} (h : Canon o s) : Canon o (Machine.pushReqs s n rs) := h.putStack

theorem stepFilled {die : Fin 12} {r : BitVec 9} {id stack : Nat} (h : Canon o s) : Canon o (Machine.stepFilled s die r id stack) := by
  unfold Machine.stepFilled
  dsimp only
  split
  exacts [.ite h.stepFails (by split; exacts [.ite h.modRec.pushReqs h.stepFails, by split; exacts [h.addBlk, h.stepFails]]), h]

theorem serveReq {n : Nat} {m : MemReq} (h : Canon o s) : Canon o (Machine.serveReq s n m) := by
  refine .ite h.putErr.stepFails ?_
  split
  · dsimp only
    split
    exacts [.ite h.hbmPut1.stepGone h.hbmPut1.modRec, h.hbmPut1]
  · dsimp only
    split
    exacts [.ite (.ite h.putStack.modRec.stepFilled h.putStack.modRec) (.stepFails (.ite h.putStack.modRec h.putStack)), h.putStack]

theorem directAccess {core : Fin 18} {pa : Nat} {a : MemAccess} (h : Canon o s) : Canon o (Machine.directAccess s core pa a) :=
  .ite h.putErr.setStatus (by split; exacts [.finish (h.foldlFst fun _ _ h => h.hbmStore), by split; exacts [h.hbmLoad.frame.setStatus, h.setStatus]])

theorem execHbmRequestServe {stack : Fin 12} {direct : Option (Fin 18 × BitVec 36 × MemAccess)} (h : Canon o s) :
    CanonNext o (Machine.execHbmRequestServe stack direct s) :=
  .next (by split; exacts [.ite h h.directAccess, .ite (by split; exacts [h.putStack.serveReq, h]) h])

theorem execHbmWriteback {stack : Fin 12} (h : Canon o s) : CanonNext o (Machine.execHbmWriteback stack s) :=
  .next (by dsimp only; split; exacts [.ite h.putStack h, h])

theorem execHbmRefresh {_stack : Fin 12} {_bank : Nat} (h : Canon o s) : CanonNext o (Machine.execHbmRefresh _stack _bank s) := .next h

theorem execHbmPatrol {stack : Fin 12} (h : Canon o s) : CanonNext o (Machine.execHbmPatrol stack s) :=
  .next (.ite (.ite h.putStack h.putStack.putErr) h)

theorem execHbmCeSummary {stack : Fin 12} (h : Canon o s) : CanonNext o (Machine.execHbmCeSummary stack s) := .next (.ite h.putStack.putErr h)

theorem remapLane {n : Nat} {l : Fin 32 × Byte} (h : Canon o s) : Canon o (Machine.remapLane s n l) :=
  .ite h.freshWord.putStack.putErr h.freshWord.putStack.putErr.putErr

theorem repairRow {n row : Nat} {blks : List Nat} (h : Canon o s) : Canon o (Machine.repairRow s n row blks) :=
  .ite h.freshBit.putStack h.freshBit.putStack.putErr

theorem repairRows {n : Nat} (h : Canon o s) : Canon o (Machine.repairRows s n) := .putStack (h.foldl fun _ _ h => h.repairRow)

theorem repairStack {n : Nat} {lanes : List (Fin 32 × Byte)} (h : Canon o s) : Canon o (Machine.repairStack s n lanes) :=
  .putStack (.repairRows (h.foldl fun _ _ h => h.remapLane))

theorem failReqs {n : Nat} (h : Canon o s) : Canon o (Machine.failReqs s n) := h.putStack.foldl fun _ _ h => h.stepFails

theorem serveIssued {n : Nat} (h : Canon o s) : Canon o (Machine.serveIssued s n) := .ite h (h.foldl fun _ _ h => h.putStack.serveReq)

theorem recalibrate {n : Nat} {trained : Bool} {lanes : List (Fin 32 × Byte)} (h : Canon o s) : Canon o (Machine.recalibrate s n trained lanes) :=
  .ite h.setStackSt.serveIssued.repairStack.setStackSt h.setStackSt.serveIssued.setStackSt.failReqs.putErr

theorem execHbmRecal {w : Option Writer} {stack : Fin 12} {trained : Bool} {failing : List (Fin 32 × Byte)} (h : Canon o s) :
    CanonNext o (Machine.execHbmRecal w stack trained failing s) :=
  .next (by dsimp only; split; exacts [.finish (h.secureWrite fun _ h => h.dieReg fun _ h => .iteFst h.recalibrate h), .ite h.recalibrate h])

theorem execHbmPatrolRestart {w : Writer} {stack : Fin 12} (h : Canon o s) : CanonNext o (Machine.execHbmPatrolRestart w stack s) :=
  .next (.finish (h.secureWrite fun _ h => h.dieReg fun _ h => h.putStack))

end Canon

end Sys2Proof.Machine
end

section
/-!
PROOFS of the statement of the family '11_hbm.md', continued: streams and blocks.
-/
namespace Sys2Proof.Machine
open Sys2Proof

namespace Canon
variable {o s t : State} {α β : Type}

/-! ## Descriptors posted -/

theorem settleStqH {die : Nat} {q : BitVec 12} (h : Canon o s) : Canon o (Machine.settleStqH s die q) := h.modDie

theorem settleHq {t : W16} {n : Nat} (h : Canon o s) : Canon o (Machine.settleHq s t n) := h.modTile

theorem bumpOrd (h : Canon o s) : Canon o (Machine.bumpOrd s) := h.frame

theorem postDesc {die : Nat} {q : BitVec 12} {tile : W16} {job : BitVec 2} {world : Bool} {desc : BitVec 512} (h : Canon o s) :
    Canon o (Machine.postDesc s die q tile job world desc) := by
  unfold Machine.postDesc
  dsimp only
  split
  exacts [h.modDie.bumpOrd, h]

/-! ## Streams, reaches and handle queues -/

theorem readPte {job : BitVec 2} {world : Bool} {pa : Nat} (h : Canon o s) : Canon o (Machine.readPte s job world pa).1 := .iteFst h.putErr h.hbmGet

theorem walk {job : BitVec 2} {world : Bool} {view : W64} {va : Nat} {dst : Bool} (h : Canon o s) :
    Canon o (Machine.walk s job world view va dst).1 := by
  refine .iteFst h (.iteFst h.readPte ?_)
  exact .iteFst h.readPte (.iteFst h.readPte (.iteFst h.readPte.readPte (.iteFst h.readPte.readPte (.iteFst h.readPte.readPte h.readPte.readPte))))

theorem invalidate {job : BitVec 2} {first n : Nat} (h : Canon o s) : Canon o (Machine.invalidate s job first n) := h.frame

theorem writeTrnRoot {j : BitVec 2} {v : W64} (h : Canon o s) : Canon o (Machine.writeTrnRoot s j v).1 := .iteFst h (.iteFst h h.modJob.invalidate)

theorem finishInval {r : State × Byte} (h : Canon o r.1) : Canon o (Machine.finishInval r) := .ite h.frame h.finish

theorem execTrnRootWrite {w : Writer} {job : BitVec 2} {value : W64} (h : Canon o s) : CanonNext o (Machine.execTrnRootWrite w job value s) :=
  .next h.writeTrnRoot.finishInval

theorem writeTrnInval {v : W64} (h : Canon o s) : Canon o (Machine.writeTrnInval s v).1 := .iteFst h h.invalidate

theorem execTrnInval {w : Writer} {value : W64} (h : Canon o s) : CanonNext o (Machine.execTrnInval w value s) := .next h.writeTrnInval.finishInval

theorem takeHandle {die : Nat} {q : BitVec 13} {home : W16} (h : Canon o s) : Canon o (Machine.takeHandle s die q home).1 :=
  .iteFst (by dsimp only; split; exacts [h.modDie.settleStqH, h]) (by dsimp only; split; exacts [h.modTile.settleHq, h])

theorem popHandle {die n : Nat} {q : BitVec 13} {home : W16} {j : BitVec 2} (h : Canon o s) : Canon o (Machine.popHandle die q home j n s).1 := by
  induction n generalizing s with
  | zero => exact h
  | succ n ih =>
    unfold Machine.popHandle
    split
    · next t _ _ heq =>
      have ht : Canon o t := .ofFst heq h.takeHandle
      exact .iteFst ht (ih ht.dropHandle)
    · next t heq => exact .ofFst heq h.takeHandle

theorem settleViews {j : BitVec 2} (h : Canon o s) : Canon o (Machine.settleViews s j) := .modJob (h.foldl fun _ _ h => h.putPub)

theorem freeRecord {die : Nat} {r : BitVec 9} (h : Canon o s) : Canon o (Machine.freeRecord s die r) := h.modDie

theorem sweepRec {die : Nat} {r : BitVec 9} (h : Canon o s) : Canon o (Machine.sweepRec s die r) := .ite h.freeRecord h

theorem beginLeg {die : Nat} {r : BitVec 9} {desc : BitVec 512} (h : Canon o s) : Canon o (Machine.beginLeg s die r desc) := by
  refine .ite h.modRec (.ite ?_ h.modRec)
  split
  · next t _ _ heq =>
    have ht : Canon o t := .ofFst heq h.popHandle
    exact ht.modRec
  · next t heq =>
    exact .ofFst heq h.popHandle

theorem readNext {die : Nat} {r : BitVec 9} (h : Canon o s) : Canon o (Machine.readNext s die r) :=
  .ite h.modRec.putErr.sweepRec (by split; exacts [h.modRec.putErr.sweepRec, .ite h (.ite h.modRec.putErr.sweepRec h.beginLeg)])

theorem execTransferStart {die : Fin 12} {rec : BitVec 9} (h : Canon o s) : CanonNext o (Machine.execTransferStart die rec s) :=
  .next (.ite h (.ite (.ite h.beginLeg h) (.ite (.ite h.beginLeg h.readNext) h)))

theorem execReachPassStart {die : Fin 12} {reach : BitVec 10} {rec : BitVec 9} (h : Canon o s) :
    CanonNext o (Machine.execReachPassStart die reach rec s) := by
  refine .next (.ite (.ite ?_ h.modDie.bumpOrd) h)
  split
  · next t _ heq =>
    have ht : Canon o t := .ofFst heq h.popHandle
    exact ht.modDie.bumpOrd
  · next t heq =>
    exact .ofFst heq h.popHandle

theorem failNext {die : Nat} {r : BitVec 9} {l : Leg} {cause : Byte} (h : Canon o s) : Canon o (Machine.failNext s die r l cause) := h.modRec

theorem faultNext {die : Nat} {r : BitVec 9} {l : Leg} {reason : BitVec 3} {dst : Bool} {va : Nat} (h : Canon o s) :
    Canon o (Machine.faultNext s die r l reason dst va) := h.modRec.settleRec

theorem readTile {x : XferRec} {l : Leg} {off n : Nat} (h : Canon o s) : Canon o (Machine.readTile s x l off n).1 :=
  .iteFst h (.iteFst h.putErr (by split; exacts [h.putErr, by split; exacts [h.putErr, .iteFst h (.iteFst h.putErr h)]]))

theorem addStep {die : Nat} {r : BitVec 9} {l : Leg} {t : StepRec} (h : Canon o s) : Canon o (Machine.addStep s die r l t) := h.modRec.bumpOrd

theorem issueStep {die : Fin 12} {r : BitVec 9} {x : XferRec} {l : Leg} {src dst : Option (Nat × Bool)} (h : Canon o s) :
    Canon o (Machine.issueStep s die r x l src dst) := by
  unfold Machine.issueStep
  dsimp only
  split
  · exact .ite h.failNext h.addStep.pushReqs
  · split
    · next t heq =>
      exact .ofFst heq h.readTile
    · next t _ _ heq =>
      have ht : Canon o t := .ofFst heq h.readTile
      exact .ite ht.failNext (by split; exacts [by split; exacts [.ite ht.addStep.addBlk ht, ht], ht.failNext])

theorem execTransferStep {die : Fin 12} {rec : BitVec 9} (h : Canon o s) : CanonNext o (Machine.execTransferStep die rec s) := by
  refine .next ?_
  extract_lets d x pa
  split
  · refine .ite ?_ h
    extract_lets side act
    have hact {b x t} (ht : act b x = some t) : Canon o t := by
      dsimp only [act] at ht
      split at ht
      · exact Option.some.inj ht ▸ .ite h.modRec h
      · exact Option.some.inj ht ▸ h.faultNext
      · exact Option.some.inj ht ▸ h.failNext
      · contradiction
    split
    · next ht => exact hact ht
    · split
      · next ht => exact hact ht
      · exact .ite h.issueStep h
  · exact h

theorem execTranslationWalkDone {die : Fin 12} {rec : BitVec 9} {evict : Nat} (h : Canon o s) :
    CanonNext o (Machine.execTranslationWalkDone die rec evict s) := by
  refine .next ?_
  dsimp only
  split
  · split
    · refine .ite h ?_
      split
      · exact .faultNext (by split; exacts [h.walk.modRec.modDie, h.walk.modRec])
      · exact .failNext (by split; exacts [h.walk.modRec.modDie, h.walk.modRec])
      · split
        exacts [h.walk.modRec.modDie, h.walk.modRec]
    · exact h
  · exact h

theorem legDone {die : Nat} {r : BitVec 9} {n : Nat} (h : Canon o s) : Canon o (Machine.legDone s die r n) :=
  .settleViews (.ite h.modRec.freeRecord h.modRec)

theorem writeCpl {die : Nat} {r : BitVec 9} {x : XferRec} {l : Leg} (h : Canon o s) : Canon o (Machine.writeCpl s die r x l) :=
  .ite h (.ite h.putErr (by split; exacts [h.putErr, h.opndWrite]))

theorem countXfer {die : Nat} {r : BitVec 9} {x : XferRec} {l : Leg} (h : Canon o s) : Canon o (Machine.countXfer s die r x l) :=
  .ite h (.ite h.arriveCount h.putErr)

theorem passHandle {die : Fin 12} {r : BitVec 9} {x : XferRec} {l : Leg} (h : Canon o s) : Canon o (Machine.passHandle s die r x l).1 := by
  unfold Machine.passHandle
  dsimp only
  split
  exacts [.iteFst (.ite h h.dropHandle.modRec) (.iteFst h (.iteFst (.modRec (.ite h.slotDrain h)) (.iteFst h h.pushHandle.modRec))), h]

theorem completeLeg {die : Fin 12} {r : BitVec 9} {x : XferRec} {l : Leg} (h : Canon o s) : Canon o (Machine.completeLeg s die r x l) := by
  unfold Machine.completeLeg
  extract_lets s1 _ s2 s3
  have h2 : Canon o s2 := .ite h.writeCpl.putErr h.writeCpl
  have h3 : Canon o s3 := .ite h2.countXfer h2
  split
  · next t heq =>
    have ht : Canon o t := .ofFst heq h3.passHandle
    exact ht.modRec
  · next t _ _ heq =>
    have ht : Canon o t := .ofFst heq h3.passHandle
    exact ht.legDone

theorem execTransferComplete {die : Fin 12} {rec : BitVec 9} (h : Canon o s) : CanonNext o (Machine.execTransferComplete die rec s) :=
  .next (by dsimp only; split; exacts [.ite h.completeLeg h, h])

theorem pushReleased {p : HeldPush} (h : Canon o s) : Canon o (Machine.pushReleased s p) := by
  unfold Machine.pushReleased
  split
  · exact .ite h.modTile.slotDrain h.modTile
  · split
    exacts [h.legDone, h]
  · exact h

theorem execHandlePushLand {die : Fin 12} {queue : BitVec 13} {tile : W16} (h : Canon o s) :
    CanonNext o (Machine.execHandlePushLand die queue tile s) :=
  .next (.ite (by dsimp only; split; exacts [.ite h.modDie.pushReleased h, h]) (by dsimp only; split; exacts [.ite h.modTile.pushReleased h, h]))

theorem execHandleWindowPush {w : Writer} {die : Fin 12} {queue : BitVec 13} {tile : W16} {handle : W32} (h : Canon o s) :
    CanonNext o (Machine.execHandleWindowPush w die queue tile handle s) := .next h.pushHandle.setStatus

theorem resumeRec {die : Nat} {r : BitVec 9} (h : Canon o s) : Canon o (Machine.resumeRec s die r) := h.modRec

theorem failParked {die : Nat} {r : BitVec 9} {cause : Byte} (h : Canon o s) : Canon o (Machine.failParked s die r cause) := h.modRec

theorem resolveXfer {die : Nat} {r : BitVec 9} {resume : Bool} (h : Canon o s) : Canon o (Machine.resolveXfer s die r resume) :=
  .ite h.modRec (.ite h.resumeRec h.failParked)

theorem execParkTimeout {die : Fin 12} {rec : BitVec 9} (h : Canon o s) : CanonNext o (Machine.execParkTimeout die rec s) :=
  .next (.ite h.failParked h)

theorem execStreamBlockParkTimeout {blk : Nat} (h : Canon o s) : CanonNext o (Machine.execStreamBlockParkTimeout blk s) :=
  .next (by split; exacts [by split; exacts [.ite h.loseBlk.putErr h, h], h])

theorem abortRec {die : Nat} {r : BitVec 9} {cause : Byte} (h : Canon o s) : Canon o (Machine.abortRec s die r cause) := h.modRec

theorem abortRecs {die : Nat} {rs : List (BitVec 9)} {cause : Byte} (h : Canon o s) : Canon o (Machine.abortRecs s die rs cause) :=
  h.foldl fun _ _ h => h.abortRec.sweepRec

theorem dropHeld {die : Nat} {t : W16} {ps : List HeldPush} (h : Canon o s) : Canon o (Machine.dropHeld s die t ps) :=
  h.foldl fun _ _ h => h.dropHandle.pushReleased

theorem abortStq {die : Nat} {q : BitVec 12} (h : Canon o s) : Canon o (Machine.abortStq s die q) :=
  .ite h.modDie.abortRecs.modDie (.dropHeld (h.modDie.foldl fun _ _ h => h.dropHandle))

theorem drainStq {die : Nat} {q : BitVec 12} (h : Canon o s) : Canon o (Machine.drainStq s die q) := h.modDie.dropHeld.modDie.settleStqH

theorem abortReach {die : Nat} {n : BitVec 10} {cause : Byte} (h : Canon o s) : Canon o (Machine.abortReach s die n cause) :=
  h.modDie.abortRecs.modDie

theorem drainReach {die : Nat} {n : BitVec 10} (h : Canon o s) : Canon o (Machine.drainReach s die n) := h.modDie

theorem abortHq {t : W16} {n : Nat} (h : Canon o s) : Canon o (Machine.abortHq s t n) := .dropHeld (h.modTile.foldl fun _ _ h => h.dropHandle)

theorem drainHq {t : W16} {n : Nat} (h : Canon o s) : Canon o (Machine.drainHq s t n) := h.modTile.dropHeld.settleHq

theorem execStqDrain {w : Writer} {die : Fin 12} {qid : BitVec 12} (h : Canon o s) : CanonNext o (Machine.execStqDrain w die qid s) :=
  .next (.finish (h.dieReg fun _ h => .ite h.drainStq h))

theorem execStqAbort {w : Writer} {die : Fin 12} {qid : BitVec 12} (h : Canon o s) : CanonNext o (Machine.execStqAbort w die qid s) :=
  .next (.finish (h.dieReg fun _ h => .ite h.abortStq h))

theorem execReachDrain {w : Writer} {die : Fin 12} {reach : BitVec 10} (h : Canon o s) : CanonNext o (Machine.execReachDrain w die reach s) :=
  .next (.finish (h.dieReg fun _ h => .ite h.drainReach h))

theorem execReachAbort {w : Writer} {die : Fin 12} {reach : BitVec 10} (h : Canon o s) : CanonNext o (Machine.execReachAbort w die reach s) :=
  .next (.finish (h.dieReg fun _ h => .ite h.abortReach h))

theorem execHqDrain {w : Writer} {tile : W16} {hq : BitVec 3} (h : Canon o s) : CanonNext o (Machine.execHqDrain w tile hq s) :=
  .onTile (.finish (h.tileReg fun _ h => .ite h.drainHq h))

theorem execHqAbort {w : Writer} {tile : W16} {hq : BitVec 3} (h : Canon o s) : CanonNext o (Machine.execHqAbort w tile hq s) :=
  .onTile (.finish (h.tileReg fun _ h => .ite h.abortHq h))

theorem drainLimit {die : Nat} (h : Canon o s) : Canon o (Machine.drainLimit s die) :=
  .foldl (.foldl (h.foldl fun _ _ h => h.abortStq) fun _ _ h => h.abortReach) fun _ _ h => h.foldl fun _ _ h => h.abortHq

theorem execWindowPost {w : Writer} {die : Fin 12} {qid : BitVec 12} {desc : BitVec 512} (h : Canon o s) :
    CanonNext o (Machine.execWindowPost w die qid desc s) := .next (.finish (by split; exacts [h, .iteFst h h.postDesc]))

/-! ## Blocks at routers and trees -/

theorem blockCounts {t : W16} {b : Block} (h : Canon o s) : Canon o (Machine.blockCounts s t b) := by
  unfold Machine.blockCounts
  dsimp only
  split
  exacts [.stepGone (.ite h.arriveCount h), .ite h.arriveCount h]

theorem copyGone {i : Nat} {b : Block} (h : Canon o s) : Canon o (Machine.copyGone s i b) := .ite h.castSettle h.dropBlk

theorem blockRefused {t : W16} {i : Nat} {b : Block} {cause : Byte} (h : Canon o s) : Canon o (Machine.blockRefused s t i b cause) := by
  unfold Machine.blockRefused
  dsimp only
  split
  exacts [h.modTile.putErr.dropBlk.stepFails, h.modTile.putErr.copyGone]

theorem badBlock {t : W16} {i : Nat} {b : Block} {bad : Nat} (h : Canon o s) : Canon o (Machine.badBlock s t i b bad) :=
  .markTiles (.copyGone (.ite h.freshWord h.freshWord.opndWrite))

theorem deliver {t : W16} {i : Nat} {b : Block} (h : Canon o s) : Canon o (Machine.deliver s t i b) := by
  refine .ite (.ite h.putErr.copyGone h.loseBlk.putErr) (.ite h.putBlk ?_)
  split
  exacts [h.blockRefused, .ite h.blockRefused (.ite h.putBlk (by split; exacts [h.badBlock, h.meetFlitFault.opndWrite.blockCounts.copyGone]))]

theorem execBlockWrite {blk : Nat} (h : Canon o s) : CanonNext o (Machine.execBlockWrite blk s) :=
  .next (by split; exacts [by split; exacts [.ite h.deliver h, h], h])

theorem execBlockSlotResume {blk : Nat} (h : Canon o s) : CanonNext o (Machine.execBlockSlotResume blk s) :=
  .next (by split; exacts [by split; exacts [.ite h.deliver h, h], h])

theorem landInMemory {i : Nat} {b : Block} {stack : Nat} (h : Canon o s) : Canon o (Machine.landInMemory s i b stack) := by
  unfold Machine.landInMemory
  split
  · dsimp only
    split
    exacts [.ite h.dropBlk.modRec.pushReqs h.dropBlk.stepFails, h.dropBlk]
  · exact h.dropBlk

theorem enterMesh {i : Nat} {b : Block} (h : Canon o s) : Canon o (Machine.enterMesh s i b) := .ite h.putBlk h

theorem enterPort {i : Nat} {b : Block} (h : Canon o s) : Canon o (Machine.enterPort s i b) := .ite h h.dropBlk.pushPkt

theorem castClosed {i : Nat} {b : Block} (h : Canon o s) (ht : Machine.castClosed s i b = some t) : Canon o t := by
  unfold Machine.castClosed at ht
  obtain ⟨p, -, rfl⟩ := Option.map_eq_some_iff.mp ht
  exact .castSettle (.ite h.putErr h.putErr.markTiles)

theorem execRouterForward {blk : Nat} (h : Canon o s) : CanonNext o (Machine.execRouterForward blk s) := by
  refine .next ?_
  split
  · next b _ =>
    refine .ite h.enterMesh ?_
    split
    · exact h.forwardLink
    · split
      · cases hc : Machine.castClosed s blk b with
        | none => exact h.forwardCast
        | some t => exact h.castClosed hc
      · exact .ite h.landInMemory h.forwardUni
      · exact .ite h (.ite h.enterPort h.forwardUni)
      · exact .ite (.ite h h.enterPort) h.forwardUni
      · exact .ite (.ite h h.enterPort) h.forwardUni
  · exact h

theorem flitError {blk : Nat} {b : Block} {again : Bool} (h : Canon o s) : Canon o (Machine.flitError s blk b again) :=
  .ite h.putErr.frame.loseBlk.putErr.markTiles h.putErr

end Canon

end Sys2Proof.Machine
end

section
/-!
PROOFS of the statement of the family '11_hbm.md', continued: the engines of a tile and the watch.
-/
namespace Sys2Proof.Machine
open Sys2Proof

namespace Canon
variable {o s t : State} {α β : Type}

/-! ## Vector results -/

theorem satNote {t : W16} {pos neg : Nat} (h : Canon o s) : Canon o (Machine.satNote t pos neg s) := .ite h h.modTile

/-! ## Formats -/

theorem noteConv {t : W16} {c : ConvOut} (h : Canon o s) : Canon o (Machine.noteConv t c s) := .ite h.satNote h.satNote.modTile

theorem noteT2 {t : W16} {bad : Bool} (h : Canon o s) : Canon o (Machine.noteT2 t bad s) := .ite h.modTile h

/-! ## Engine slots -/

theorem excPrecise {t : W16} {j : BitVec 2} {eng : Bool} {cause : Byte} {info : W64} (h : Canon o s) :
    Canon o (Machine.excPrecise s t j eng cause info) := h.raisePrecise.checkPaused

theorem excDeferred {t : W16} {j : BitVec 2} {eng : Bool} {cause : Byte} {pc info : W64} {injected : Bool} (h : Canon o s) :
    Canon o (Machine.excDeferred s t j eng cause pc info injected) := h.raiseDeferred.checkPaused

theorem setHead {t : W16} {u : EngUnit} {o0 : EngOp} (h : Canon o s) : Canon o (Machine.setHead s t u o0) := h.modTile

theorem popHead {t : W16} {u : EngUnit} (h : Canon o s) : Canon o (Machine.popHead s t u) := h.modTile

theorem opFails {t : W16} {o0 : EngOp} {cause : Byte} (h : Canon o s) : Canon o (Machine.opFails s t o0 cause) := h.modTile.excDeferred

theorem autoDrain {t : W16} {rs : List Rgn} (h : Canon o s) : Canon o (Machine.autoDrain s t rs) := h.foldl fun _ _ h => .ite h.slotDrain h

theorem rgnPut {t : W16} {j : BitVec 2} {inPlace : Bool} {v : BitVec 24} {bs : List Byte} (h : Canon o s) :
    Canon o (Machine.rgnPut s t j inPlace v bs) := .ite h.opndRewrite h.opndWrite

theorem sendReport {t : W16} {o0 : EngOp} {en : Bool} {widx : BitVec 12} {bound : Option Int} {sats : Nat} {nonzero : Bool} (h : Canon o s) :
    Canon o (Machine.sendReport s t o0 en widx bound sats nonzero) := .ite (by split; exacts [h.frame, h]) h

theorem opDone {t : W16} {o0 : EngOp} {rs : List Rgn} (h : Canon o s) : Canon o (Machine.opDone s t o0 rs) :=
  .ite h.popHead.autoDrain.arriveCount h.popHead.autoDrain

theorem opStarts {t : W16} {o0 : EngOp} {rs : List Rgn} (h : Canon o s) : Canon o (Machine.opStarts s t o0 rs) := .setHead (.ite h.modCtx h)

theorem tryStart {t : W16} {o0 : EngOp} {rs : List Rgn} {free : Bool} {causes : List Byte} {strips : List (Rgn × Bool)} (h : Canon o s) :
    Canon o (Machine.tryStart s t o0 rs free causes strips) := .ite h (by split; exacts [h.opFails, .ite h.setHead h.opStarts])

theorem execSlotTimeout {tile : W16} {unit : EngUnit} (h : Canon o s) : CanonNext o (Machine.execSlotTimeout tile unit s) :=
  .onTile (by split; exacts [by dsimp only; split; exacts [.ite h.opFails h, h], h])

/-! ## Press commands -/

theorem notePress {t : W16} {bits : W32} (h : Canon o s) : Canon o (Machine.notePress t bits s) := .ite h h.modTile

theorem putIf {b : Bool} {t : W16} {j : BitVec 2} {inPlace : Bool} {v : BitVec 24} {bs : List Byte} (h : Canon o s) :
    Canon o (Machine.putIf b t j inPlace v bs s) := .ite h.rgnPut h

theorem pressWrite {t : W16} {o0 : EngOp} {p : PressCmd} {x : Tile} {rows : List OutRow} (h : Canon o s) :
    Canon o (Machine.pressWrite s t o0 p x rows) := h.putIf.putIf.putIf.putIf.notePress.satNote

theorem pressCvtWrite {t : W16} {o0 : EngOp} {p : PressCmd} {cv : ConvOut} (h : Canon o s) : Canon o (Machine.pressCvtWrite s t o0 p cv) :=
  .noteConv (.ite h.opndWrite.opndWrite (.ite h.opndWrite.spadWrite h.opndWrite))

theorem pressFinish {t : W16} {o0 : EngOp} (h : Canon o s) : Canon o (Machine.pressFinish s t o0) :=
  .ite h.opFails (.opDone (.sendReport (by split; exacts [h.pressWrite.noteT2.pressCvtWrite, h.pressWrite.noteT2])))

theorem pressTry {t : W16} (h : Canon o s) : Canon o (Machine.pressTry s t) := by
  unfold Machine.pressTry
  split
  exacts [h.tryStart, h]

theorem execPressStart {tile : W16} (h : Canon o s) : CanonNext o (Machine.execPressStart tile s) := .onTile h.pressTry

theorem noteFail {t : W16} (h : Canon o s) : Canon o (Machine.noteFail s t) := h.modTile

theorem stopT2 {t : W16} {p : PressCmd} {n : Nat} (h : Canon o s) : Canon o (Machine.stopT2 s t p n) := .ite h.noteT2 (.ite h.freshBit.noteT2 h)

theorem pressStop {t : W16} {o0 : EngOp} {blocks : Nat} {injected : Bool} (h : Canon o s) : Canon o (Machine.pressStop s t o0 blocks injected) := by
  unfold Machine.pressStop
  extract_lets _ _ _ s1 _ s2 s3
  have h2 : Canon o s2 := .ite h.stopT2 h.stopT2.pressWrite
  have h3 : Canon o s3 := .ite h2.pressCvtWrite h2
  exact h3.notePress.noteFail.opFails

theorem markInjected {t : W16} {o0 : EngOp} {injected : Bool} (h : Canon o s) : Canon o (Machine.markInjected s t o0 injected) := h.setHead.modTile

theorem residueMismatch {tile : W16} {replayPasses : Bool} {rowBlocks : Nat} (h : Canon o s) :
    Canon o (Machine.residueMismatch tile replayPasses rowBlocks s) := by
  unfold Machine.residueMismatch
  split
  exacts [.ite (.ite h.markInjected.notePress.modTile.setHead.putErr h.markInjected.notePress.modTile.pressStop) h, h]

theorem pressDone {tile : W16} (h : Canon o s) : Canon o (Machine.pressDone tile s) := by
  unfold Machine.pressDone
  split
  exacts [.ite (.ite (by dsimp only; split; exacts [.ite h.residueMismatch.pressFinish h.residueMismatch, h.residueMismatch]) h.pressFinish) h,
    h]

/-! ## Conversions, gutters and transposes -/

theorem cvtWrite {t : W16} {o0 : EngOp} {p : CvtCmd} {c : ConvOut} (h : Canon o s) : Canon o (Machine.cvtWrite s t o0 p c) :=
  .noteConv (.ite h.opndWrite.opndWrite (.ite h.opndWrite.spadWrite h.opndWrite))

theorem cvtFinish {t : W16} {o0 : EngOp} (h : Canon o s) : Canon o (Machine.cvtFinish s t o0) := .ite h.opFails h.cvtWrite.noteT2.sendReport.opDone

theorem gutFinish {t : W16} {o0 : EngOp} (h : Canon o s) : Canon o (Machine.gutFinish s t o0) :=
  .ite h.opFails h.opndRewrite.opndRewrite.satNote.sendReport.opDone

theorem xposeFinish {t : W16} {o0 : EngOp} (h : Canon o s) : Canon o (Machine.xposeFinish s t o0) := .ite h.opFails h.opndWrite.opDone

theorem convTry {t : W16} (h : Canon o s) : Canon o (Machine.convTry s t) := by
  unfold Machine.convTry
  split
  · dsimp only
    split
    exacts [h.tryStart, h.tryStart, h.tryStart, h]
  · exact h

theorem execCvtUnitStart {tile : W16} (h : Canon o s) : CanonNext o (Machine.execCvtUnitStart tile s) := .onTile h.convTry

theorem execConversionComplete {tile : W16} (h : Canon o s) : CanonNext o (Machine.execConversionComplete tile s) :=
  .onTile (by split; exacts [h.cvtFinish, h])

theorem execGutterComplete {tile : W16} (h : Canon o s) : CanonNext o (Machine.execGutterComplete tile s) :=
  .onTile (by split; exacts [h.gutFinish, h])

theorem execXposeComplete {tile : W16} (h : Canon o s) : CanonNext o (Machine.execXposeComplete tile s) :=
  .onTile (by split; exacts [h.xposeFinish, h])

/-! ## The watch -/

theorem clearAcc {w : BitVec 12} (h : Canon o s) : Canon o (Machine.clearAcc s w) := h.frame

theorem uncover {w : BitVec 12} (h : Canon o s) : Canon o (Machine.uncover s w) := h.frame

theorem watchCfgWrite {w : BitVec 12} {v : W32} (h : Canon o s) : Canon o (Machine.watchCfgWrite s w v).1 :=
  .iteFst h (.iteFst h.putWatch.uncover.clearAcc (.putWatch (.ite h h.uncover)))

theorem execWatchCfgWrite {w : Writer} {widx : BitVec 12} {value : W32} (h : Canon o s) : CanonNext o (Machine.execWatchCfgWrite w widx value s) :=
  .next h.watchCfgWrite.finish

theorem putLoss {m : BitVec 3} {x : Loss} (h : Canon o s) : Canon o (Machine.putLoss s m x) := h.frame

theorem lossCfgWrite {m : BitVec 3} {v : W32} (h : Canon o s) : Canon o (Machine.lossCfgWrite s m v).1 := .iteFst h (.iteFst h.putLoss h.putLoss)

theorem execLossCfgWrite {w : Writer} {mon : BitVec 3} {value : W32} (h : Canon o s) : CanonNext o (Machine.execLossCfgWrite w mon value s) :=
  .next h.lossCfgWrite.finish

theorem restoreWatch {r : BitVec 768} (h : Canon o s) : Canon o (Machine.restoreWatch s r) := .putWatch (.ite h.uncover h.uncover.clearAcc)

theorem restoreLoss {r : BitVec 512} (h : Canon o s) : Canon o (Machine.restoreLoss s r) := h.putLoss

theorem applyImage {j : BitVec 2} {bs : List Byte} (h : Canon o s) : Canon o (Machine.applyImage s j bs).1 :=
  .iteFst h (by split; exacts [.foldl (h.foldl fun _ _ h => h.restoreWatch) fun _ _ h => h.restoreLoss, h])

theorem writeImage {j : BitVec 2} {bs : List Byte} (h : Canon o s) : Canon o (Machine.writeImage s j bs).1 :=
  .iteFst (.iteFst h h.modJob) h.applyImage

theorem settleImage {j : BitVec 2} (h : Canon o s) : Canon o (Machine.settleImage s j) := by
  unfold Machine.settleImage
  split
  exacts [h.modJob.applyImage.modJob.setStatus, h]

theorem execWatchImageWrite {w : Writer} {job : BitVec 2} {bytes : List Byte} (h : Canon o s) :
    CanonNext o (Machine.execWatchImageWrite w job bytes s) := .next h.writeImage.finish

theorem mergeReport {r : Report} (h : Canon o s) : Canon o (Machine.mergeReport s r) := by
  unfold Machine.mergeReport
  dsimp only
  split
  exacts [h.modDie, h.putWatch.putErr]

theorem execWatchReportMerge {die : Fin 12} (h : Canon o s) : CanonNext o (Machine.execWatchReportMerge die s) :=
  .next (by split; exacts [h.frame.mergeReport, h])

theorem alarm {e : Err} {pause : Bool} {j : BitVec 2} (h : Canon o s) : Canon o (Machine.alarm s e pause j) := .ite h.putErr.pauseJob h.putErr

theorem turnBanks {w : BitVec 12} (h : Canon o s) : Canon o (Machine.turnBanks s w) := h.frame

theorem commitEntry {j : BitVec 2} {step : W64} {c : CloseEnt} (h : Canon o s) : Canon o (Machine.commitEntry s j step c) := by
  unfold Machine.commitEntry
  extract_lets _ _ _ _ _ s1 _ s2 s3
  have h2 : Canon o s2 := .ite h.putWatch.turnBanks.putErr h.putWatch.turnBanks
  have h3 : Canon o s3 := .ite h2.alarm h2
  exact .ite h3.alarm h3

theorem setClose {j : BitVec 2} {st : Nat} (h : Canon o s) : Canon o (Machine.setClose s j st) := h.modJob

theorem dropExchanged {j : BitVec 2} {step : W64} (h : Canon o s) : Canon o (Machine.dropExchanged s j step) := h.frame

theorem commitClose {j : BitVec 2} {step : W64} {cs : List CloseEnt} (h : Canon o s) : Canon o (Machine.commitClose s j step cs) :=
  .settleImage (.setClose (.modJob (.dropExchanged (h.foldl fun _ _ h => h.commitEntry))))

theorem tryClose {j : BitVec 2} (h : Canon o s) : Canon o (Machine.tryClose s j) := by
  unfold Machine.tryClose
  split
  exacts [.ite h.commitClose h, h]

theorem watchClose {j : BitVec 2} {step : W64} (h : Canon o s) : Canon o (Machine.watchClose s j step) :=
  .ite h.modJob (.ite (.tryClose (.setClose (.modJob (h.foldl fun _ _ h => h.sendCtrl)))) h.commitClose)

theorem execWatchClose {w : Writer} {job : BitVec 2} {step : W64} (h : Canon o s) : CanonNext o (Machine.execWatchClose w job step s) :=
  .next h.watchClose.setStatus

theorem peerExchange {x : Exchanged} (h : Canon o s) : Canon o (Machine.peerExchange s x) := h.frame.tryClose

theorem execWatchPeerTimeout {job : BitVec 2} (h : Canon o s) : CanonNext o (Machine.execWatchPeerTimeout job s) :=
  .next (by split; exacts [.ite h.modJob.setClose.dropExchanged.putErr.settleImage h, h])

theorem lossWrite {j : BitVec 2} {m : BitVec 3} {step : W64} {value : W32} {exp : Byte} (h : Canon o s) :
    Canon o (Machine.lossWrite s j m step value exp) := by
  unfold Machine.lossWrite
  dsimp only
  split
  exacts [h.putLoss, .ite h.putLoss (.ite h.putLoss.alarm h.putLoss)]

theorem execLossWindowWrite {w : Writer} {job : BitVec 2} {mon : BitVec 3} {step : W64} {value : W32} {exp : Byte} (h : Canon o s) :
    CanonNext o (Machine.execLossWindowWrite w job mon step value exp s) := .next h.lossWrite.setStatus

/-! ## The wide accumulators -/

theorem wideTry {t : W16} (h : Canon o s) : Canon o (Machine.wideTry s t) := by
  unfold Machine.wideTry
  split
  exacts [h.tryStart, h]

theorem execWideOpStart {tile : W16} (h : Canon o s) : CanonNext o (Machine.execWideOpStart tile s) := .onTile h.wideTry

theorem noteWide {t : W16} {bits : W32} (h : Canon o s) : Canon o (Machine.noteWide t bits s) := .ite h h.modTile

theorem waccFinish {t : W16} {o0 : EngOp} (h : Canon o s) : Canon o (Machine.waccFinish s t o0) := h.modTile.satNote.noteWide.sendReport.opDone

theorem wideFinish {t : W16} {o0 : EngOp} (h : Canon o s) : Canon o (Machine.wideFinish s t o0) :=
  .ite h.modTile.opFails (.ite h.opFails (by split; exacts [h.modTile.opDone, h.modTile.opDone, h.opndWrite.opDone, h.waccFinish]))

theorem execWideOpComplete {tile : W16} (h : Canon o s) : CanonNext o (Machine.execWideOpComplete tile s) :=
  .onTile (by split; exacts [.ite h.wideFinish h, h])

theorem execWidePatrol {tile : W16} {index : BitVec 12} (h : Canon o s) : CanonNext o (Machine.execWidePatrol tile index s) :=
  .onTile (.ite h.putTile h.putTile.noteWide.putErr)

theorem unitTry {t : W16} {u : EngUnit} (h : Canon o s) : Canon o (Machine.unitTry s t u) := by
  unfold Machine.unitTry
  split
  exacts [h.pressTry, h.convTry, h.wideTry]

theorem execEngineSlotResume {tile : W16} {unit : EngUnit} (h : Canon o s) : CanonNext o (Machine.execEngineSlotResume tile unit s) :=
  .onTile (by split; exacts [.ite h (.ite h.unitTry (.ite h h.setHead)), h])

/-! ## Yield lists -/

theorem yieldFetch {t : W16} {j : BitVec 2} {prevAt : Option Nat} (h : Canon o s) : Canon o (Machine.yieldFetch s t j prevAt) := by
  unfold Machine.yieldFetch
  dsimp only
  split
  exacts [.ite h.modCtx h.modCtx.putErr, h.modCtx.putErr]

theorem yieldTake {t : W16} {j : BitVec 2} {e : BitVec 128} (h : Canon o s) : Canon o (Machine.yieldTake s t j e) := h.putTile.markDue

theorem yieldBoundary {t : W16} {j : BitVec 2} (h : Canon o s) : Canon o (Machine.yieldBoundary s t j) := by
  unfold Machine.yieldBoundary
  dsimp only
  split
  exacts [h.modCtx, .ite (.yieldFetch (.modCtx (.ite h.modCtx.yieldTake h.modCtx.modTile))) h.modCtx]

/-! ## Channels and waits -/

theorem clearMark {t : W16} {n : Nat} (h : Canon o s) : Canon o (Machine.clearMark t n s) := h.modTile

theorem acntAddAct {t : W16} {j : BitVec 2} {n : Nat} {v : W64} (h : Canon o s) : Canon o (Machine.acntAddAct t j n v s) := .ite h.acntAdd h.putErr

theorem exchEnd {t : W16} {j : BitVec 2} (h : Canon o s) : Canon o (Machine.exchEnd t j s) := by
  unfold Machine.exchEnd
  split
  · dsimp only
    split
    exacts [h.setExch.excDeferred, .ite h.setExch.modCtx.yieldBoundary h.setExch.modCtx.modCtx]
  · exact h

end Canon

end Sys2Proof.Machine
end

section
/-!
PROOFS of the statement of the family '11_hbm.md', continued: bundles and their slots.
-/
namespace Sys2Proof.Machine
open Sys2Proof

namespace Canon
variable {o s t : State} {α β : Type}

/-! ## Stores of a bundle -/

theorem putStore {t : W16} {j : BitVec 2} {r : SlotRes} (h : Canon o s) : Canon o (Machine.putStore t j r s) := by
  unfold Machine.putStore
  split
  exacts [h.spadWrite, h]

end Canon

/-! ## Slots of a bundle (R139, R140, R158) -/

/-- What a slot does at once and at retirement keeps the queue and the form of the stacks' bytes. -/
structure SlotRes.Keeps (r : SlotRes) : Prop where
  start {o s : State} : Canon o s → Canon o (r.start s)
  act {o s : State} : Canon o s → Canon o (r.act s)

namespace SlotRes.Keeps
variable {s : State} {x : Tile} {c : Ctx} {t : W16} {j : BitVec 2} {gD gA gB : BitVec 5} {op : BitVec 6}

/-- A slot that does one effect as it retires. -/
theorem ofAct {f : State → State} (hf : ∀ o s, Canon o s → Canon o (f s)) {exc gW vW pW cW target store blocked limit} :
    Keeps { exc := exc, gW := gW, vW := vW, pW := pW, cW := cW, target := target, store := store, blocked := blocked, limit := limit, act := f } where
  start h := h
  act h := hf _ _ h

/-- A slot that writes registers, jumps, stores or raises an exception. -/
theorem plain {exc gW vW pW cW target store blocked limit} :
    Keeps { exc := exc, gW := gW, vW := vW, pW := pW, cW := cW, target := target, store := store, blocked := blocked, limit := limit } :=
  ofAct fun _ _ h => h

theorem ite {p : Prop} [Decidable p] {a b : SlotRes} (ha : a.Keeps) (hb : b.Keeps) : (if p then a else b).Keeps := by
  split <;> assumption

theorem excRes {cause : Byte} {info : W64} : (Machine.excRes cause info).Keeps := plain

theorem predRes {v : Bool} : (Machine.predRes gD v).Keeps := .ite plain plain

theorem evalAlu : (Machine.evalAlu c op gD gA gB).Keeps := by
  unfold Machine.evalAlu
  split
  · exact plain
  · split
    · exact predRes
    · split
      exacts [predRes, plain]

theorem evalAlui {imm : W32} : (Machine.evalAlui c op gD gA imm).Keeps :=
  .ite plain (.ite plain (.ite (by split; exacts [plain, plain]) (by split; exacts [predRes, plain])))

theorem regJump {base : W64} {off : W32} {r : SlotRes} (hr : r.Keeps) : (Machine.regJump base off r).Keeps :=
  .ite plain ⟨hr.start, hr.act⟩

theorem evalBr {off : W32} : (Machine.evalBr c op gD gA off).Keeps := by
  unfold Machine.evalBr
  split
  exacts [plain, plain, plain.regJump, plain.regJump, .ite plain plain, plain]

theorem evalLoad {n : Nat} {signed : Bool} {gT : BitVec 5} {off : W32} : (Machine.evalLoad x j c n signed gT gA off).Keeps := by
  unfold Machine.evalLoad
  dsimp only
  split
  exacts [plain, .ite plain plain]

theorem evalStore {n : Nat} {gT : BitVec 5} {off : W32} : (Machine.evalStore x j c n gT gA off).Keeps := by
  unfold Machine.evalStore
  dsimp only
  split
  exacts [plain, plain]

theorem evalMem {gT : BitVec 5} {off : W32} : (Machine.evalMem x j c op gT gA off).Keeps :=
  .ite evalLoad (.ite evalLoad (.ite evalStore plain))

theorem evalCsrr {n : BitVec 12} : (Machine.evalCsrr s t j gD n).Keeps := by
  unfold Machine.evalCsrr
  split
  exacts [plain, ofAct fun _ _ h => h.csrReadAct]

theorem evalCsrw {n : BitVec 12} : (Machine.evalCsrw s t j c gA n).Keeps := by
  unfold Machine.evalCsrw
  dsimp only
  split
  · exact plain
  · split
    exacts [plain, ofAct fun _ _ h => h.csrWrite]

theorem evalSys {csr : BitVec 12} : (Machine.evalSys s t j c op gD gA csr).Keeps := by
  unfold Machine.evalSys
  split
  exacts [plain, ofAct fun _ _ h => h.haltAct, evalCsrr, evalCsrw, plain, ofAct fun _ _ h => h.fenceIAct, plain]

theorem evalValu {a : VArg} : (Machine.evalValu t c op a).Keeps :=
  .ite plain (.ite (.ite plain plain) (.ite plain (ofAct fun _ _ h => h.satNote)))

theorem laneMove {lw : BitVec 2} {lane : BitVec 6} {off : W32} {r : SlotRes} (hr : r.Keeps) : (Machine.laneMove lw lane off r).Keeps := .ite plain hr

theorem evalVmem {v : BitVec 4} {lw : BitVec 2} {lane : BitVec 6} {off : W32} : (Machine.evalVmem x j c op v gA lw lane off).Keeps := by
  unfold Machine.evalVmem
  dsimp only
  split
  · split
    exacts [plain, .ite plain plain]
  · split
    exacts [plain, plain]
  exacts [plain.laneMove, plain.laneMove, plain.laneMove, plain.laneMove, plain]

theorem handleBad {d : W32} : (Machine.handleBad d).Keeps := plain

theorem checked {e : Option Byte} {r : SlotRes} (hr : r.Keeps) : (Machine.checked e r).Keeps := by
  unfold Machine.checked
  split
  exacts [plain, hr]

theorem waitRes {d : W32} {st : Option Byte} {f : State → State} (hf : ∀ o s, Canon o s → Canon o (f s)) : (Machine.waitRes gD d st f).Keeps := by
  unfold Machine.waitRes
  split
  exacts [plain, .ite plain (ofAct hf)]

theorem waitAcnt {d : W32} {target : W64} : (Machine.waitAcnt x t gD d target).Keeps := by
  unfold Machine.waitAcnt
  dsimp only
  split
  exacts [waitRes fun _ _ h => h.clearMark, waitRes fun _ _ h => h]

theorem waitSlot {d : W32} {sel : W64} : (Machine.waitSlot x gD d sel).Keeps := by
  unfold Machine.waitSlot
  dsimp only
  split
  exacts [waitRes fun _ _ h => h, waitRes fun _ _ h => h, plain]

theorem evalWait {d : W32} {ga : W64} : (Machine.evalWait s t j gD d ga).Keeps := by
  unfold Machine.evalWait
  dsimp only
  split
  exacts [waitAcnt.checked, checked (waitRes fun _ _ h => h.weirSeen), waitSlot.checked, checked (waitRes fun _ _ h => h), handleBad]

theorem evalArrive {d : W32} : (Machine.evalArrive s t j d).Keeps := .ite handleBad (checked (ofAct fun _ _ h => h.arriveAct))

/-- The arrival is made as the bundle issues, or as it retires at once. -/
theorem evalArriveWait {d : W32} {arrived : Bool} : (Machine.evalArriveWait s t j gD d arrived).Keeps :=
  .ite handleBad (.ite evalWait (checked ⟨fun h => h.arriveAct, fun h => evalWait.act h.arriveAct⟩))

theorem evalDrain {n : Nat} : (Machine.evalDrain x t n).Keeps := by
  unfold Machine.evalDrain
  dsimp only
  split
  exacts [plain, plain, ofAct fun _ _ h => h.slotDrain]

theorem evalPop {d : W32} : (Machine.evalPop x t gD d).Keeps := by
  unfold Machine.evalPop
  dsimp only
  split
  exacts [plain, ofAct fun _ _ h => h.modTile.settleHq]

theorem evalPush {d v : W32} : (Machine.evalPush x t j d v).Keeps := .ite (ofAct fun _ _ h => h.pushHandle) plain

theorem evalSync {ch : BitVec 4} {hint : BitVec 2} {arrived : Bool} : (Machine.evalSync s t j c op gD ch gA hint arrived).Keeps := by
  refine .ite plain ?_
  split
  exacts [.ite plain handleBad, plain, evalWait, evalArrive, evalArriveWait, .ite handleBad plain.checked,
    .ite handleBad (checked (ofAct fun _ _ h => h.acntAddAct)), .ite handleBad evalDrain.checked, .ite handleBad plain.checked,
    .ite handleBad evalPop.checked, .ite handleBad evalPush.checked, plain]

theorem evalWatch {widx : BitVec 12} {mon : BitVec 3} : (Machine.evalWatch s t j c op gD gA gB widx mon).Keeps := by
  unfold Machine.evalWatch
  split
  · split
    exacts [plain, plain, plain]
  · exact ofAct fun _ _ h => h.lossWrite
  · exact plain

theorem evalEng {a : EngArg} : (Machine.evalEng s t j c op a).Keeps := by
  unfold Machine.evalEng
  dsimp only
  split
  · exact plain
  · refine .ite plain ?_
    split
    exacts [plain, ofAct fun _ _ h => .ite h.excDeferred h.modTile]

theorem evalExch {held : Bool} : (Machine.evalExch s t j c gA held).Keeps := by
  refine .ite (ofAct fun _ _ h => h.exchEnd) (.ite plain (.ite plain (.ite (ofAct fun _ _ h => h.excDeferred) ?_)))
  split
  exacts [ofAct fun _ _ h => h.excDeferred, ⟨fun h => h.exchStart, fun h => h⟩]

theorem evalSpost {q : BitVec 12} : (Machine.evalSpost s t j c gA q).Keeps := by
  unfold Machine.evalSpost
  dsimp only
  split
  · exact plain
  · split
    exacts [plain, .ite plain (ofAct fun _ _ h => h.postDesc)]

theorem evalRearm {q : BitVec 12} : (Machine.evalRearm s t j c gB q).Keeps := by
  refine .ite plain ?_
  dsimp only
  split
  exacts [plain, ofAct fun _ _ h => h.modDie]

theorem evalXfer {q : BitVec 12} {held : Bool} : (Machine.evalXfer s t j c op gA gB q held).Keeps := by
  unfold Machine.evalXfer
  split
  exacts [evalExch, evalSpost, evalRearm, plain]

/-- Whatever a slot of a bundle holds. -/
theorem evalSlot {eng held arrived : Bool} {w : SlotWord} : (Machine.evalSlot s t j c eng held arrived w).Keeps := by
  refine .ite plain (.ite plain ?_)
  split
  exacts [evalSys, evalAlu, evalAlui, evalBr, evalMem, evalSync, evalWatch, evalValu, evalVmem, evalEng, evalXfer, plain]

end SlotRes.Keeps

namespace Canon
variable {o s t : State} {α β : Type}

/-! ## Bundles -/

theorem retire {t : W16} {j : BitVec 2} {ctl eng : SlotWord} {a b : SlotRes} (h : Canon o s) (ha : a.Keeps) (hb : b.Keeps) :
    Canon o (Machine.retire s t j ctl eng a b) :=
  hb.act (ha.act h.putStore.putStore.modTile)

theorem hold {t : W16} {j : BitVec 2} {ctl eng : SlotWord} {a b : SlotRes} (h : Canon o s) (ha : a.Keeps) (hb : b.Keeps) :
    Canon o (Machine.hold s t j ctl eng a b) :=
  .modCtx (hb.start (ha.start h.modCtx))

theorem bundleFails {t : W16} {j : BitVec 2} {e : Bool × Byte × W64} {held : Bool} (h : Canon o s) : Canon o (Machine.bundleFails s t j e held) :=
  .excPrecise (.ite (by split; exacts [.ite h.setExch h, h]) h)

/-- A bundle of a context: it fails, waits or retires. -/
theorem runBundle {t : W16} {j : BitVec 2} {ctl eng : SlotWord} {held arrived : Bool} (h : Canon o s) :
    Canon o (Machine.runBundle s t j ctl eng held arrived) := by
  unfold Machine.runBundle
  dsimp only
  split
  exacts [h.bundleFails, .ite (.ite h (h.hold .evalSlot .evalSlot)) (h.retire .evalSlot .evalSlot)]

theorem issue {t : W16} {ctl eng : SlotWord} (h : Canon o s) : Canon o (Machine.issue s t ctl eng) := by
  unfold Machine.issue
  dsimp only
  split
  exacts [h, .ite h (by split; exacts [h.excPrecise, h.runBundle])]

theorem slotCmd {h0 : SlotHdr} {op : SlotOp} (h : Canon o s) : CanonNext o (Machine.slotCmd h0 op s) := .onTile h.issue

theorem tryRetire {t : W16} {j : BitVec 2} (h : Canon o s) : Canon o (Machine.tryRetire s t j) := by
  unfold Machine.tryRetire
  split
  exacts [.ite h h.runBundle, h]

theorem execWaitRelease {tile : W16} (h : Canon o s) : CanonNext o (Machine.execWaitRelease tile s) := .onTile (by split; exacts [h.tryRetire, h])

theorem execHaltRetire {tile : W16} (h : Canon o s) : CanonNext o (Machine.execHaltRetire tile s) := .onTile (by split; exacts [h.tryRetire, h])

theorem execGaugeStallRelease {tile : W16} (h : Canon o s) : CanonNext o (Machine.execGaugeStallRelease tile s) :=
  .onTile (by split; exacts [h.tryRetire, h])

theorem execExchBoundary {tile : W16} (h : Canon o s) : CanonNext o (Machine.execExchBoundary tile s) :=
  .onTile (by split; exacts [.ite h.tryRetire h, h])

theorem execGaugeTimeout {tile : W16} (h : Canon o s) : CanonNext o (Machine.execGaugeTimeout tile s) :=
  .onTile (by split; exacts [.ite h.bundleFails h, h])

theorem execWaitTimeout {tile : W16} (h : Canon o s) : CanonNext o (Machine.execWaitTimeout tile s) :=
  .onTile (by split; exacts [by dsimp only; split; exacts [.ite h.bundleFails h, h], h])

theorem execSpinPeriodExpire {tile : W16} (h : Canon o s) : CanonNext o (Machine.execSpinPeriodExpire tile s) :=
  .onTile (by split; exacts [.ite h.modCtx h, h])

theorem execFolioEntryIssue {tile : W16} (h : Canon o s) : CanonNext o (Machine.execFolioEntryIssue tile s) :=
  .onTile (by split; exacts [.ite (.ite h.issueEntry.tryRetire h.issueEntry) h, h])

theorem execXchTimeout {tile : W16} (h : Canon o s) : CanonNext o (Machine.execXchTimeout tile s) :=
  .onTile (by split; exacts [.ite h.failExch.tryRetire h, h])

end Canon

end Sys2Proof.Machine
end

section
/-!
PROOFS of the statement of the family '11_hbm.md', continued: the ports and accesses by job address.
-/
namespace Sys2Proof.Machine
open Sys2Proof

namespace Canon
variable {o s t : State} {α β : Type}

/-! ## Trees, streams and landings over the ports -/

theorem writePortCfg {p : Nat} {v : W32} (h : Canon o s) : Canon o (Machine.writePortCfg s p v).1 := .iteFst h (.iteFst h h.putPort)

theorem portCfgBy {w : Writer} {p : Nat} {v : W32} (h : Canon o s) : Canon o (Machine.portCfgBy w s p v).1 :=
  .iteFst h.writePortCfg (.iteFst h.writePortCfg.putErr h.writePortCfg)

theorem portReg {p : Nat} {f : State → State × Byte} (h : Canon o s) (hf : ∀ s, Canon o s → Canon o (f s).1) : Canon o (Machine.portReg s p f).1 :=
  h.dieReg hf

theorem execPortCfgWrite {w : Writer} {port : Fin 24} {value : W32} (h : Canon o s) : CanonNext o (Machine.execPortCfgWrite w port value s) :=
  .next (.finish (h.portReg fun _ h => h.portCfgBy))

theorem startPort {p : Nat} (h : Canon o s) : Canon o (Machine.startPort s p) := .ite h.setPort h

theorem execPortStart {w : Writer} {port : Fin 24} (h : Canon o s) : CanonNext o (Machine.execPortStart w port s) :=
  .next (.finish (h.portReg fun _ h => h.startPort))

theorem enterRetrain {p : Nat} (h : Canon o s) : Canon o (Machine.enterRetrain s p) := h.setPort

theorem retrainPort {p : Nat} (h : Canon o s) : Canon o (Machine.retrainPort s p) := .ite h.enterRetrain h

theorem execRetrain {w : Writer} {port : Fin 24} (h : Canon o s) : CanonNext o (Machine.execRetrain w port s) :=
  .next (.finish (h.portReg fun _ h => h.retrainPort))

theorem execLaneLockLoss {port : Fin 24} {lane : Fin 8} (h : Canon o s) : CanonNext o (Machine.execLaneLockLoss port lane s) :=
  .next (.ite h.retrainPort h)

theorem execTrainingFrameReceive {port : Fin 24} (h : Canon o s) : CanonNext o (Machine.execTrainingFrameReceive port s) := .next h.retrainPort

theorem dropPkt {p : Nat} {k : Pkt} (h : Canon o s) : Canon o (Machine.dropPkt s p k) := by
  unfold Machine.dropPkt
  split
  exacts [h.putErr, .ite h.dropHandle h, by split; exacts [h.pushPkt, h], h, h]

theorem dropPkts {p : Nat} {ks : List Pkt} (h : Canon o s) : Canon o (Machine.dropPkts s p ks) := h.putPort.foldl fun _ _ h => h.dropPkt

theorem dropPopped {p : Nat} (h : Canon o s) : Canon o (Machine.dropPopped s p) := h.putPort.foldl fun _ _ h => h.dropHandle

theorem settleStop {p : Nat} (h : Canon o s) : Canon o (Machine.settleStop s p) := .ite h.setPort h

theorem ackedPkt {k : Pkt} (h : Canon o s) : Canon o (Machine.ackedPkt s k) := by
  unfold Machine.ackedPkt
  split
  exacts [.ite (.ite h.slotDrain h) h, h]

theorem takeAck {p : Nat} {ack : BitVec 12} (h : Canon o s) : Canon o (Machine.takeAck s p ack) :=
  .ite h (h.putPort.foldl fun _ _ h => .ite h.ackedPkt h)

theorem countReplay {p : Nat} (h : Canon o s) : Canon o (Machine.countReplay s p) := .ite h.resend.putPort.retrainPort h.resend.putPort

theorem execTzReplayTimeout {port : Fin 24} (h : Canon o s) : CanonNext o (Machine.execTzReplayTimeout port s) := .next (.ite h.countReplay h)

theorem execTzAckTimer {port : Fin 24} (h : Canon o s) : CanonNext o (Machine.execTzAckTimer port s) := .next (.ite h.sendIdle h)

theorem execTzReplaySummary {port : Fin 24} (h : Canon o s) : CanonNext o (Machine.execTzReplaySummary port s) := .next (.ite h.putPort.putErr h)

theorem abandonPadd {r : PAdd} {who : W16} (h : Canon o s) : Canon o (Machine.abandonPadd s r who) := h.frame.putErr.markTiles

theorem absorbAdd {i : Nat} {b : Block} {k : Nat} (h : Canon o s) : Canon o (Machine.absorbAdd s i b k) :=
  .ite h (by split; exacts [.ite h (.ite h.dropBlk.frame h.dropBlk.abandonPadd), .ite h.dropBlk.frame h])

theorem absorbWaiting (h : Canon o s) : Canon o (Machine.absorbWaiting s) := h.foldl fun _ _ h => h.absorbAdd

theorem fromBridge {port : Nat} {b : Block} (h : Canon o s) : Canon o (Machine.fromBridge s port b) := by
  unfold Machine.fromBridge
  dsimp only
  split
  exacts [h.addBlk, h.putErr]

theorem execPortAddRound {dest : W16} {daddr : BitVec 24} {job : BitVec 2} (h : Canon o s) :
    CanonNext o (Machine.execPortAddRound dest daddr job s) := .next (by split; exacts [.ite h.frame.fromBridge.absorbWaiting h, h])

theorem execAddLagExpire {dest : W16} {daddr : BitVec 24} {job : BitVec 2} (h : Canon o s) :
    CanonNext o (Machine.execAddLagExpire dest daddr job s) := .next (by split; exacts [.ite h.abandonPadd.absorbWaiting h, h])

theorem exchPkt {port : Nat} {bs : List Byte} (h : Canon o s) : Canon o (Machine.exchPkt s port bs) := .ite h.addBlk.absorbWaiting h.fromBridge

theorem takeFlit {p : Nat} {f : Flit} (h : Canon o s) : Canon o (Machine.takeFlit s p f) :=
  .ite h (.ite (.sendIdle (.ite h.putPort.exchPkt h.putPort)) (.ite h.putPort.exchPkt h.putPort))

theorem goodFlit {p : Nat} {f : Flit} (h : Canon o s) : Canon o (Machine.goodFlit s p f) := by
  refine .ite h.retrainPort (.settleStop ?_)
  exact .pump (.ite (.takeFlit (.ite h.takeAck.putPort.countReplay h.takeAck.putPort)) (.ite h.takeAck.putPort.countReplay h.takeAck.putPort))

theorem badFlit {p : Nat} {why : FlitFault} (h : Canon o s) : Canon o (Machine.badFlit s p why) := h.putPort

theorem execTzFlitReceive {port : Fin 24} {good : FlitCheck} {f : Flit} (h : Canon o s) : CanonNext o (Machine.execTzFlitReceive port good f s) :=
  .next (.ite (by dsimp only; split; exacts [h.putPort.goodFlit, h.putPort.badFlit]) h)

theorem tellMismatch {k n : Nat} (h : Canon o s) : Canon o (Machine.tellMismatch s k n) := .ite h.putErr h

theorem peerBack {k : Nat} (h : Canon o s) : Canon o (Machine.peerBack s k) := .ite h.frame h

theorem matchPeer {k : Nat} (h : Canon o s) : Canon o (Machine.matchPeer s k) := .peerBack (h.foldl fun _ _ h => h.tellMismatch)

theorem writePeer {k : Nat} {v : W32} (h : Canon o s) : Canon o (Machine.writePeer s k v).1 :=
  .iteFst h (.iteFst h (.iteFst h (.ite h.frame.matchPeer h.frame)))

theorem execTzPeerWrite {w : Writer} {peer : BitVec 2} {value : W32} (h : Canon o s) : CanonNext o (Machine.execTzPeerWrite w peer value s) :=
  .next h.writePeer.finish

theorem loseWeirPeer {k : Nat} (h : Canon o s) : Canon o (Machine.loseWeirPeer s k) :=
  h.foldl fun _ _ h => .ite h.orphanWeir (.ite h.putL6.releaseLost.openL6 h.putL6.onDies.openL6)

theorem execPeerLost {peer : BitVec 2} (h : Canon o s) : CanonNext o (Machine.execPeerLost peer s) :=
  .next (.ite h.frame.putErr.loseWeirPeer (.ite h.sendCtrl h))

theorem peerArrive {k : Nat} {n : BitVec 12} {h0 : BitVec 4} (h : Canon o s) : Canon o (Machine.peerArrive s k n h0) := by
  unfold Machine.peerArrive
  dsimp only
  split
  exacts [.ite h (.ite h.modDie.putErr (.ite h.putL6 h.putL6.weirTest)), h.putL6]

theorem peerRelease {n : BitVec 12} {h0 : BitVec 4} {lost : Bool} (h : Canon o s) : Canon o (Machine.peerRelease s n h0 lost) := by
  unfold Machine.peerRelease
  split
  exacts [.ite (.ite h.onDies h) (.sendRelease (.ite h.onDies h)), h]

theorem peerLoaded {k : Nat} {n : BitVec 12} (h : Canon o s) : Canon o (Machine.peerLoaded s k n) := by
  unfold Machine.peerLoaded
  dsimp only
  split
  exacts [h.putL6.openL6, h.putL6]

theorem peerStopped {n : BitVec 12} {orphaned : Bool} (h : Canon o s) : Canon o (Machine.peerStopped s n orphaned) := by
  unfold Machine.peerStopped
  split
  exacts [.ite h.orphanWeir h.weirFaultSpan, h]

theorem execCtrlMessageReceive {port : Fin 24} {m : CtrlMsg} (h : Canon o s) : CanonNext o (Machine.execCtrlMessageReceive port m s) := by
  refine .next ?_
  split
  · refine .ite ?_ h
    dsimp only
    split
    exacts [h.frame.peerArrive, h.frame.peerRelease, h.frame.peerLoaded, h.frame.peerStopped, h.frame.peerExchange, h.frame,
      .ite h.frame.sendCtrl h.frame, h.frame.frame]
  · exact h

theorem portSend {die : Fin 12} {qid : BitVec 12} {h0 : W32} (h : Canon o s) : Canon o (Machine.portSend s die qid h0) := by
  unfold Machine.portSend
  dsimp only
  split
  exacts [h.putPort.putErr, .ite h.putPort.putErr (.ite h (.ite h.putPort.putErr (h.putPort.foldl fun _ _ h => h.pushPkt)))]

theorem execPortStreamSend {die : Fin 12} {qid : BitVec 12} (h : Canon o s) : CanonNext o (Machine.execPortStreamSend die qid s) := by
  refine .next (.ite ?_ h)
  split
  · exact .ite h.portSend.settleStop h
  · refine .ite h ?_
    split
    · next t _ _ heq =>
      have ht : Canon o t := .ofFst heq h.popHandle
      exact ht.putPort.portSend
    · next t heq =>
      exact .ofFst heq h.popHandle

theorem writeLand {u : BitVec 8} {v : W32} (h : Canon o s) : Canon o (Machine.writeLand s u v) := h.frame

theorem landDrop {p : Nat} {job : BitVec 2} (h : Canon o s) : Canon o (Machine.landDrop s p job) := h.putErr

theorem landInto {p : Nat} {u : BitVec 8} {job : BitVec 2} {bs : List Byte} (h : Canon o s) (ht : Machine.landInto s p u job bs = some t) :
    Canon o t := by
  unfold Machine.landInto at ht
  dsimp only at ht
  split at ht
  · contradiction
  · split at ht
    · next u _ _ heq =>
      have hu : Canon o u := .ofFst heq h.popHandle
      split at ht
      · exact Option.some.inj ht ▸ hu.pushHandle.landDrop
      · split at ht
        · exact Option.some.inj ht ▸ hu.landDrop
        · split at ht
          · exact Option.some.inj ht ▸ hu.putErr.landDrop
          · split at ht
            · exact Option.some.inj ht ▸ hu.putErr.landDrop
            · split at ht
              · contradiction
              · exact Option.some.inj ht ▸ hu.opndWrite
    · contradiction

theorem landTry {n p : Nat} {stuck : List (BitVec 8)} {l : List (BitVec 8 × BitVec 2 × List Byte × W64)} (h : Canon o s) :
    Canon o (Machine.landTry n stuck s p l).1 := by
  fun_induction Machine.landTry n stuck s p l with
  | case1 => exact h
  | case2 => exact h
  | case3 s p fuel stuck u job bs t rest s1 heq ih =>
    refine ih ?_
    split at heq
    · contradiction
    · exact h.landInto heq
  | case4 s p fuel stuck u job bs t rest hn s1 l heq ih => exact .ofFst heq (ih h)

theorem landAll {p : Nat} (h : Canon o s) : Canon o (Machine.landAll s p) := h.landTry.putPort

theorem execLandReceive {port : Fin 24} {landing : BitVec 8} {job : BitVec 2} {bytes : List Byte} (h : Canon o s) :
    CanonNext o (Machine.execLandReceive port landing job bytes s) := .next (.ite h (.ite h.landDrop h.putPort.landAll))

theorem execLandTimeout {port : Fin 24} (h : Canon o s) : CanonNext o (Machine.execLandTimeout port s) :=
  .next (h.landAll.putPort.foldl fun _ _ h => h.landDrop)

/-! ## Accesses by job address -/

theorem vaMap {job : BitVec 2} {dst : Bool} {l : List (Nat × Nat)} (h : Canon o s) : Canon o (Machine.vaMap job dst l s).1 := by
  induction l generalizing s with
  | nil => exact h
  | cons e l ih =>
    unfold Machine.vaMap
    split
    · next t _ _ _ heq =>
      have ht : Canon o t := .ofFst heq h.walk
      refine .iteFst ht.putErr ?_
      split
      · next u _ heq => exact .ofFst heq (ih ht)
      · exact ih ht
    · next t _ _ heq => exact .ofFst heq h.walk
    · next t _ _ heq => exact .ofFst heq h.walk
    · next t _ heq => exact .ofFst heq h.walk

theorem vaRead {job : BitVec 2} {va n : Nat} (h : Canon o s) : Canon o (Machine.vaRead s job va n).1 := by
  unfold Machine.vaRead
  split
  · next t _ heq =>
    exact .ofFst heq h.vaMap
  · next t _ heq =>
    have ht : Canon o t := .ofFst heq h.vaMap
    exact ht.foldlFst fun _ _ h => h.hbmGet

theorem vaWrite {job : BitVec 2} {va : Nat} {bs : List Byte} (h : Canon o s) : Canon o (Machine.vaWrite s job va bs).1 := by
  unfold Machine.vaWrite
  split
  · next t _ heq =>
    exact .ofFst heq h.vaMap
  · next t _ heq =>
    have ht : Canon o t := .ofFst heq h.vaMap
    exact ht.foldlFst fun _ _ h => h.hbmStore

theorem unpark {o0 : ParkOwner} (h : Canon o s) : Canon o (Machine.unpark s o0) := h.frame

theorem parkAccess {die : Nat} {o0 : ParkOwner} {e : W32 → Err} (h : Canon o s) : Canon o (Machine.parkAccess s die o0 e) :=
  h.freshWord.modDie.frame.putErr

end Canon

end Sys2Proof.Machine
end

section
/-!
PROOFS of the statement of the family '11_hbm.md', continued: gathering.
-/
namespace Sys2Proof.Machine
open Sys2Proof

namespace Canon
variable {o s t : State} {α β : Type}

/-! ## Gathers -/

theorem writeGatherTree {n : Nat} {v : W64} (h : Canon o s) : Canon o (Machine.writeGatherTree s n v).1 := .iteFst h (.iteFst h h.frame)

theorem execGatherTreeWrite {w : Writer} {tree : BitVec 5} {value : W64} (h : Canon o s) :
    CanonNext o (Machine.execGatherTreeWrite w tree value s) := .next h.writeGatherTree.finish

theorem putGath {g : Gather} (h : Canon o s) : Canon o (Machine.putGath s g) := h.frame

theorem sendUp {g : Gather} {b : GBody} (h : Canon o s) : Canon o (Machine.sendUp s g b) := h.pushPkt

theorem sendDown {g : Gather} {b : GBody} (h : Canon o s) : Canon o (Machine.sendDown s g b) := h.foldl fun _ _ h => h.pushPkt

theorem gTellUp {g : Gather} {what : BitVec 2} {n : Nat} (h : Canon o s) : Canon o (Machine.gTellUp s g what n) := .ite h h.pushPkt

theorem gTellDown {g : Gather} {what : BitVec 2} {n : Nat} (h : Canon o s) : Canon o (Machine.gTellDown s g what n) := h.foldl fun _ _ h => h.pushPkt

theorem dropStale (h : Canon o s) : Canon o (Machine.dropStale s) := h.frame

theorem endReshard {j : BitVec 2} {st : Byte} {ep : Option W16} (h : Canon o s) : Canon o (Machine.endReshard s j st ep) := h.modJob.dropStale.payLate

theorem settleReshard {j : BitVec 2} (h : Canon o s) : Canon o (Machine.settleReshard s j) := by
  unfold Machine.settleReshard
  split
  exacts [.ite h h.endReshard, h]

theorem writeReshard {j : BitVec 2} {ep : W16} (h : Canon o s) : Canon o (Machine.writeReshard s j ep).1 :=
  .iteFst h (.iteFst h (.iteFst h.modJob.settleReshard.endReshard h.modJob.settleReshard))

theorem execGatherReshard {w : Writer} {job : BitVec 2} {epoch : W16} (h : Canon o s) : CanonNext o (Machine.execGatherReshard w job epoch s) :=
  .next (.ite h.writeReshard.frame h.writeReshard.finish)

theorem execReshardLimitExpire {job : BitVec 2} (h : Canon o s) : CanonNext o (Machine.execReshardLimitExpire job s) :=
  .next (by split; exacts [.ite h.endReshard h, h])

theorem gTell {g : Gather} {st : Byte} (h : Canon o s) : Canon o (Machine.gTell s g st) := .ite h (.ite h.putErr (.ite h.arriveCount h.addMarker))

theorem gClose {g : Gather} {st : Byte} (h : Canon o s) : Canon o (Machine.gClose s g st) :=
  .settleReshard (.ite h.unpark.gTell.frame h.unpark.gTell.frame.putErr)

theorem gPark {g : Gather} {f : BitVec 3} {va : Nat} {dst : Bool} (h : Canon o s) : Canon o (Machine.gPark s g f va dst) := h.putGath.parkAccess

theorem gFailClose {g : Gather} {st : Byte} (h : Canon o s) : Canon o (Machine.gFailClose s g st) := by
  refine .ite h.unpark.gClose ?_
  split
  · next t _ _ heq =>
    have ht : Canon o t := .ofFst heq h.unpark.vaWrite
    exact ht.gPark
  · next t _ _ heq =>
    have ht : Canon o t := .ofFst heq h.unpark.vaWrite
    exact ht.gClose

theorem gAbandon {g : Gather} {st : Byte} (h : Canon o s) : Canon o (Machine.gAbandon s g st) := .ite h.gClose h.gTellUp.gTellDown.gFailClose

theorem gFail {g : Gather} {st : Byte} (h : Canon o s) : Canon o (Machine.gFail s g st) := .ite h.gTellUp.gTellDown.gFailClose h.gAbandon

theorem gRestartRoot {g : Gather} (h : Canon o s) : Canon o (Machine.gRestartRoot s g) :=
  .ite h.gAbandon h.freshWord.unpark.frame.putGath.dropStale.gTellDown

theorem gChildLost {g : Gather} {p : Nat} (h : Canon o s) : Canon o (Machine.gChildLost s g p) := .ite h.putGath.gRestartRoot h.putGath.gTellUp

theorem gThen {g : Gather} {dst : Bool} {r : VaRes} {k : State → List Byte → State} (h : Canon o s) (hf : ∀ s bs, Canon o s → Canon o (k s bs)) :
    Canon o (Machine.gThen s g dst r k) := by
  unfold Machine.gThen
  split
  exacts [hf _ _ h, h.gPark, h.gFail]

theorem installShard {g : Gather} (h : Canon o s) (ht : Machine.installShard s g = some t) : Canon o t := by
  unfold Machine.installShard at ht
  dsimp only at ht
  split at ht
  · exact nomatch ht
  · split at ht
    · exact Option.some.inj ht ▸ h.frame
    · exact nomatch ht

/-- The completion record of a gathering, then its close. -/
theorem gCplThen {g : Gather} {st : Byte} {a : Nat} {bs : List Byte} {c : Prop} [Decidable c] (h : Canon o s) :
    Canon o (if c then Machine.gClose s g st
      else Machine.gThen (Machine.vaWrite s g.key.job a bs).1 g true (Machine.vaWrite s g.key.job a bs).2 fun s _ => Machine.gClose s g st) :=
  .ite h.gClose (h.vaWrite.gThen fun _ _ h => h.gClose)

theorem gFinish {g : Gather} (h : Canon o s) : Canon o (Machine.gFinish s g) := by
  unfold Machine.gFinish
  extract_lets d part g'
  split
  next t _ heq =>
  have ht : Canon o t := by
    refine .ofFst heq (.iteFst ?_ h)
    split
    · next hi => exact h.installShard hi
    · exact h
  exact .ite (ht.vaWrite.gThen fun _ _ h => h.gCplThen) ht.gCplThen

theorem gRead {g : Gather} {k : State → List Int → Nat → State} (h : Canon o s) (hf : ∀ s xs n, Canon o s → Canon o (k s xs n)) :
    Canon o (Machine.gRead s g k) := h.vaRead.gThen fun _ _ h => .ite (hf _ _ _ h) (h.vaRead.gThen fun _ _ h => hf _ _ _ h)

theorem scorePass {g : Gather} (h : Canon o s) : Canon o (Machine.scorePass s g) := h.gRead fun _ _ _ h => .ite h.putGath h.putGath

theorem dataPass {g : Gather} (h : Canon o s) : Canon o (Machine.dataPass s g) := by
  refine .gRead h fun _ _ _ h => ?_
  refine .ite ?_ ?_
  · exact h.vaWrite.gThen fun _ _ h => .ite h.putGath.gFinish h.putGath
  · exact h.vaWrite.gThen fun _ _ h => h.vaWrite.gThen fun _ _ h => .ite h.putGath.gFinish h.putGath

theorem writeChunk {g : Gather} {b : GBody} (h : Canon o s) : Canon o (Machine.writeChunk s g b).1 := by
  unfold Machine.writeChunk
  dsimp only
  split
  exacts [h.foldlFst fun _ _ h => by split; exacts [h.vaWrite, h], .iteFst h h.vaWrite, h]

theorem writeResults {n : Nat} {k : GKey} (h : Canon o s) : Canon o (Machine.writeResults n s k) := by
  induction n generalizing s with
  | zero => exact h
  | succ n ih =>
    unfold Machine.writeResults
    split
    · exact h
    · split
      exacts [h, h.writeChunk.gThen fun _ _ h => .ite h.putGath.gFinish (ih h.putGath)]

theorem takeResult {g : Gather} {b : GBody} (h : Canon o s) : Canon o (Machine.takeResult s g b) := by
  unfold Machine.takeResult
  split
  exacts [.ite h.putGath h.putGath, h.putGath, h.putGath.writeResults, h.putGath.writeResults, h.gFailClose]

theorem passDown {g : Gather} {b : GBody} (h : Canon o s) : Canon o (Machine.passDown s g b) := h.sendDown.takeResult

theorem roundOut {g : Gather} {b : GBody} (h : Canon o s) : Canon o (Machine.roundOut s g b) := .ite h.putGath.passDown h.putGath.sendUp

theorem sumRound {g : Gather} {data : Bool} (h : Canon o s) : Canon o (Machine.sumRound s g data) := by
  unfold Machine.sumRound
  split
  exacts [h.roundOut, h]

theorem expoRound {g : Gather} (h : Canon o s) : Canon o (Machine.expoRound s g) := by
  unfold Machine.expoRound
  dsimp only
  split
  exacts [h.roundOut, h]

theorem collRound {key : GKey} (h : Canon o s) : Canon o (Machine.collRound s key) := by
  unfold Machine.collRound
  split
  exacts [by split; exacts [h.sumRound, h.expoRound, h.sumRound, h], h]

theorem shardOut {g : Gather} {b : GBody} (h : Canon o s) : Canon o (Machine.shardOut s g b) := .ite h.passDown h.sendUp

theorem shardPass {g : Gather} (h : Canon o s) : Canon o (Machine.shardPass s g) := by
  unfold Machine.shardPass
  dsimp only
  split
  exacts [.ite h.shardOut (h.vaRead.gThen fun _ _ h => h.putGath.foldl fun _ _ h => by split; exacts [h.shardOut, h]), h.shardOut]

theorem gatherPass {key : GKey} (h : Canon o s) : Canon o (Machine.gatherPass s key) := by
  unfold Machine.gatherPass
  split
  · split
    exacts [h.scorePass, h.scorePass, h.dataPass, h.writeResults, .ite h.shardPass h.writeResults, h.gFinish, h.gFailClose, h, h]
  · exact h

theorem gParkFails {key : GKey} {st : Byte} (h : Canon o s) : Canon o (Machine.gParkFails s key st) := by
  unfold Machine.gParkFails
  split
  exacts [h.gFail, h.unpark]

theorem gPacket {g : Gather} {p : Nat} {b : GBody} (h : Canon o s) : Canon o (Machine.gPacket s g p b) :=
  .ite h.passDown (.ite (by split; exacts [h.shardOut, h.shardOut, h.putGath]) h)

theorem gHold {h0 : HeldG} (h : Canon o s) : Canon o (Machine.gHold s h0) := .ite h.frame h

theorem gReceive {k : GKey} {attempt : BitVec 3} {port : Option (Fin 24)} {b : GBody} (h : Canon o s) :
    Canon o (Machine.gReceive s k attempt port b) := .ite h.frame (by split; exacts [.ite h (.ite h.gPacket h.gHold), h.gHold, h])

theorem takeHeld (h : Canon o s) : Canon o (Machine.takeHeld s) := h.frame.foldl fun _ _ h => h.gReceive

theorem execGatherPacketReceive {key : GKey} {attempt : BitVec 3} {port : Option (Fin 24)} {body : GBody} (h : Canon o s) :
    CanonNext o (Machine.execGatherPacketReceive key attempt port body s) := .next h.gReceive

theorem execGatherPassDone {key : GKey} (h : Canon o s) : CanonNext o (Machine.execGatherPassDone key s) :=
  .next (by split; exacts [.ite h.gParkFails h, h.gatherPass])

theorem execCollRound {key : GKey} (h : Canon o s) : CanonNext o (Machine.execCollRound key s) := .next h.collRound.takeHeld

theorem gRestart {g : Gather} {attempt : BitVec 3} {contrib : Nat} (h : Canon o s) : Canon o (Machine.gRestart s g attempt contrib) :=
  .ite h.unpark.frame.putGath.dropStale.gTellDown.takeHeld h

theorem gWithdraw {g : Gather} {port : Nat} {direct : Bool} (h : Canon o s) : Canon o (Machine.gWithdraw s g port direct) :=
  .ite h (.ite h.gAbandon (.ite h.gChildLost (.ite h.gRestartRoot h.gTellUp)))

theorem gMessage {m : HeldMsg} (h : Canon o s) : Canon o (Machine.gMessage s m) := by
  unfold Machine.gMessage
  split
  exacts [.ite h (by split; exacts [h.gAbandon, h.gRestart, by split; exacts [h.gWithdraw, h]]), .ite h h.frame]

theorem execGatherAbandonReceive {key : GKey} (h : Canon o s) : CanonNext o (Machine.execGatherAbandonReceive key s) := .next h.gMessage

theorem execGatherRestartReceive {key : GKey} {attempt : BitVec 3} {contrib : Nat} (h : Canon o s) :
    CanonNext o (Machine.execGatherRestartReceive key attempt contrib s) := .next h.gMessage

theorem execGatherWithdrawReceive {key : GKey} {port : Fin 24} {direct : Bool} {lost : Nat} (h : Canon o s) :
    CanonNext o (Machine.execGatherWithdrawReceive key port direct lost s) := .next h.gMessage

theorem execGatherTimeout {key : GKey} (h : Canon o s) : CanonNext o (Machine.execGatherTimeout key s) := .next (by split; exacts [.ite h.gFail h, h])

theorem execGatherStaleSummary (h : Canon o s) : CanonNext o (Machine.execGatherStaleSummary s) := .next (.ite h.frame.putErr h)

theorem gPortLost {p : Nat} {ks : List GKey} (h : Canon o s) : Canon o (Machine.gPortLost s p ks) :=
  h.foldl fun _ _ h => by split; exacts [.ite h (.ite h.gFail (.ite (.ite h.gChildLost h.gAbandon) h)), h]

theorem execTreePortLost {port : Fin 24} (h : Canon o s) : CanonNext o (Machine.execTreePortLost port s) := .next (.ite h.gPortLost h)

theorem gHomeLost {d : Nat} {cause : Byte} (h : Canon o s) : Canon o (Machine.gHomeLost s d cause) :=
  h.foldl fun _ _ h => by split; exacts [h.gFail, h]

theorem gOpened {d : BitVec 1024} (h : Canon o s) : Canon o (Machine.gOpened s d) := .takeHeld (h.frame.dropStale.frame.foldl fun _ _ h => h.gMessage)

theorem gatherPost {j : BitVec 2} (h : Canon o s) : Canon o (Machine.gatherPost s j).1 := .ite (.gOpened (.ite h.modJob h)) (.ite h.modJob h)

theorem execGatherPost {w : Writer} {job : BitVec 2} (h : Canon o s) : CanonNext o (Machine.execGatherPost w job s) := .next h.gatherPost.finish

theorem writeShard {i reg : Nat} {v : W64} (h : Canon o s) : Canon o (Machine.writeShard s i reg v).1 := .iteFst h (.iteFst h (.iteFst h h.frame))

theorem execShardEntryWrite {w : Writer} {entry : BitVec 10} {reg : BitVec 2} {value : W64} (h : Canon o s) :
    CanonNext o (Machine.execShardEntryWrite w entry reg value s) := .next h.writeShard.finish

theorem gatherPin {j : BitVec 2} {step : W32} {shard : W16} {version : W32} (h : Canon o s) :
    Canon o (Machine.gatherPin s j step shard version).1 := by
  unfold Machine.gatherPin
  split
  exacts [h.putErr, .iteFst h h.frame]

theorem execGatherPin {w : Writer} {job : BitVec 2} {step : W32} {shard : W16} {version : W32} (h : Canon o s) :
    CanonNext o (Machine.execGatherPin w job step shard version s) := .next h.gatherPin.finish

theorem gatherRetire {j : BitVec 2} {step : W32} (h : Canon o s) : Canon o (Machine.gatherRetire s j step) := h.frame

theorem execGatherRetire {w : Writer} {job : BitVec 2} {step : W32} (h : Canon o s) : CanonNext o (Machine.execGatherRetire w job step s) :=
  .next h.gatherRetire.setStatus

theorem abandonJob {j : BitVec 2} (h : Canon o s) : Canon o (Machine.abandonJob s j) := h.foldl fun _ _ h => by split; exacts [h.gAbandon, h]

theorem gDrain {j : BitVec 2} (h : Canon o s) : Canon o (Machine.gDrain s j) := h.modJob

theorem gAbort {j : BitVec 2} (h : Canon o s) : Canon o (Machine.gAbort s j) := h.modJob.abandonJob

theorem gResume {j : BitVec 2} (h : Canon o s) : Canon o (Machine.gResume s j) := h.modJob

theorem gAbandonOne {j : BitVec 2} {step : W32} {id : W16} (h : Canon o s) : Canon o (Machine.gAbandonOne s j step id) := by
  unfold Machine.gAbandonOne
  split
  exacts [h.gAbandon, h]

theorem execGatherDrain {w : Writer} {job : BitVec 2} (h : Canon o s) : CanonNext o (Machine.execGatherDrain w job s) := .next h.gDrain.setStatus

theorem execGatherAbort {w : Writer} {job : BitVec 2} (h : Canon o s) : CanonNext o (Machine.execGatherAbort w job s) := .next h.gAbort.setStatus

theorem execGatherAbandon {w : Writer} {job : BitVec 2} {step : W32} {id : W16} (h : Canon o s) :
    CanonNext o (Machine.execGatherAbandon w job step id s) := .next h.gAbandonOne.setStatus

theorem execGatherResume {w : Writer} {job : BitVec 2} (h : Canon o s) : CanonNext o (Machine.execGatherResume w job s) := .next h.gResume.setStatus

theorem writeGatherCtl {v : W64} (h : Canon o s) : Canon o (Machine.writeGatherCtl s v).1 := by
  unfold Machine.writeGatherCtl
  dsimp only
  split
  exacts [h.gDrain, h.gAbort, h.gAbandonOne, h.gResume, h]

theorem execGatherDrainLimitExpire {job : BitVec 2} (h : Canon o s) : CanonNext o (Machine.execGatherDrainLimitExpire job s) :=
  .next (by split; exacts [.ite h.modJob.abandonJob h, h])

end Canon

end Sys2Proof.Machine
end

section
/-!
PROOFS of the statement of the family '11_hbm.md', continued: tile configuration, fences, switches and jobs.
-/
namespace Sys2Proof.Machine
open Sys2Proof

namespace Canon
variable {o s t : State} {α β : Type}

/-! ## Tile configuration -/

theorem writeShare {t : W16} {v : W32} (h : Canon o s) : Canon o (Machine.writeShare s t v).1 := .iteFst h (.iteFst h h.modTile)

theorem execTileShareWrite {w : Writer} {tile : W16} {value : W32} (h : Canon o s) : CanonNext o (Machine.execTileShareWrite w tile value s) :=
  .onTile (.finish (h.tileReg fun _ h => h.writeShare))

theorem writeAcntCfg {t : W16} {k : Nat} {v : W32} (h : Canon o s) : Canon o (Machine.writeAcntCfg s t k v).1 := h.modTile

theorem execAcntCfgWrite {w : Writer} {tile : W16} {acnt : BitVec 6} {value : W32} (h : Canon o s) :
    CanonNext o (Machine.execAcntCfgWrite w tile acnt value s) := .onTile (.finish (h.tileReg fun _ h => h.writeAcntCfg))

theorem writeSlotCfg {t : W16} {k : Nat} {v : W64} (h : Canon o s) : Canon o (Machine.writeSlotCfg s t k v).1 :=
  .iteFst h (.iteFst h.putTile (.iteFst h (.iteFst h (.iteFst h h.putTile))))

theorem execSlotCfgWrite {w : Writer} {tile : W16} {slot : BitVec 6} {value : W64} (h : Canon o s) :
    CanonNext o (Machine.execSlotCfgWrite w tile slot value s) := .onTile (.finish (h.tileReg fun _ h => h.writeSlotCfg))

theorem writeHqCfg {t : W16} {n : Nat} {v : W32} (h : Canon o s) : Canon o (Machine.writeHqCfg s t n v).1 := .iteFst h h.modTile

theorem execHqCfgWrite {w : Writer} {tile : W16} {hq : BitVec 3} {value : W32} (h : Canon o s) :
    CanonNext o (Machine.execHqCfgWrite w tile hq value s) := .onTile (.finish (h.tileReg fun _ h => h.writeHqCfg))

theorem writeStqCfg {die : Nat} {q : BitVec 12} {v : W64} (h : Canon o s) : Canon o (Machine.writeStqCfg s die q v).1 :=
  .iteFst h (.iteFst h h.modDie)

theorem execStqCfgWrite {w : Writer} {die : Fin 12} {qid : BitVec 12} {value : W64} (h : Canon o s) :
    CanonNext o (Machine.execStqCfgWrite w die qid value s) := .next (.finish (h.dieReg fun _ h => h.writeStqCfg))

theorem writeReachCfg {world : Bool} {die : Nat} {n : BitVec 10} {v : W64} (h : Canon o s) : Canon o (Machine.writeReachCfg s world die n v).1 :=
  .iteFst h (.iteFst h (.iteFst h h.modDie))

theorem execReachCfgWrite {w : Writer} {die : Fin 12} {reach : BitVec 10} {value : W64} (h : Canon o s) :
    CanonNext o (Machine.execReachCfgWrite w die reach value s) := .next (.finish (h.dieReg fun _ h => h.writeReachCfg))

theorem writeReachStride {die : Nat} {n : BitVec 10} {v : W64} (h : Canon o s) : Canon o (Machine.writeReachStride s die n v).1 :=
  .iteFst h (.iteFst h h.modDie)

theorem writeReachDesc {die : Nat} {n : BitVec 10} {i : Nat} {v : BitVec 512} (h : Canon o s) : Canon o (Machine.writeReachDesc s die n i v).1 :=
  .iteFst h (.iteFst h h.modDie)

theorem execSpadEccWriteback {tile : W16} {word : BitVec 16} (h : Canon o s) : CanonNext o (Machine.execSpadEccWriteback tile word s) :=
  .onTile (.ite h.modTile h)

theorem execSpadPatrol {tile : W16} {row : BitVec 12} (h : Canon o s) : CanonNext o (Machine.execSpadPatrol tile row s) :=
  .onTile (h.modTile.foldl fun _ _ h => h.putErr)

/-! ## Fences -/

theorem settleJobs (h : Canon o s) : Canon o (Machine.settleJobs s) := h.foldl fun _ _ h => h.checkFinished.checkPaused

theorem fenceRec {d : Nat} {r : BitVec 9} {t : W16} (h : Canon o s) : Canon o (Machine.fenceRec s d r t) :=
  .ite h (.ite (.ite h.abortRec.sweepRec h) (by dsimp only; split; exacts [.ite h.modRec.modRec h.modRec, h.modRec]))

theorem fenceXfers {t : W16} (h : Canon o s) : Canon o (Machine.fenceXfers s t) :=
  h.foldl fun _ _ h => .foldl (h.foldl fun _ _ h => h.abortReach) fun _ _ h => h.fenceRec

theorem fencePushes {t : W16} (h : Canon o s) : Canon o (Machine.fencePushes s t) := h.frame.foldl fun _ _ h => h.dropHeld

theorem endTrees {t : W16} (h : Canon o s) : Canon o (Machine.endTrees s t) := h.frame

theorem fenceInMap {t : W16} (h : Canon o s) : Canon o (Machine.fenceInMap s t) := h.putHalf

theorem fenceTile {t : W16} {injected : Bool} (h : Canon o s) : Canon o (Machine.fenceTile s t injected) :=
  h.loseMembers.frame.breakTrees.endTrees.fenceXfers.fencePushes.putTile.settleJobs.putErr.fenceInMap

theorem holdTile {t : W16} (h : Canon o s) : Canon o (Machine.holdTile s t) := h.modTile.settleJobs

theorem tileFault {t : W16} {detail : Byte} {injected : Bool} (h : Canon o s) : Canon o (Machine.tileFault s t detail injected) :=
  .ite h.putErr (.ite (.ite h.putErr.modTile.fenceInMap h.putErr) (.ite h.putErr.fenceTile (.ite h.putErr h.putErr.holdTile)))

/-! ## Context switches -/

theorem takeCore {t : W16} {k : BitVec 2} (h : Canon o s) : Canon o (Machine.takeCore s t k) := h.modTile

theorem leaveCore {t : W16} {j : BitVec 2} {st : CtxSt} (h : Canon o s) : Canon o (Machine.leaveCore s t j st) := h.modCtx

theorem readStore {t : W16} {k : BitVec 2} (h : Canon o s) : Canon o (Machine.readStore s t k) := .ite h.tileFault h.takeCore

theorem switchTile {t : W16} (h : Canon o s) : Canon o (Machine.switchTile s t) := by
  refine .ite h ?_
  split
  exacts [.ite h (.ite h.modCtx (.ite h.leaveCore.checkPaused (by split; exacts [h.leaveCore.readStore, h]))),
    .ite h (by split; exacts [h.readStore, h])]

theorem execContextSwitch {tile : W16} (h : Canon o s) : CanonNext o (Machine.execContextSwitch tile s) := .onTile h.switchTile

theorem execYieldMaxExpire {tile : W16} (h : Canon o s) : CanonNext o (Machine.execYieldMaxExpire tile s) := .onTile h.markDue

theorem execSwitchLate {tile : W16} (h : Canon o s) : CanonNext o (Machine.execSwitchLate tile s) :=
  .onTile (by dsimp only; split; exacts [by split; exacts [.ite h.modTile.putErr h, h], h])

theorem writeYield {t : W16} {j : BitVec 2} {v : W64} (h : Canon o s) : Canon o (Machine.writeYield s t j v).1 :=
  .iteFst h (.iteFst h (.ite h.modCtx.yieldFetch h.modCtx))

theorem execYieldRegWrite {w : Writer} {tile : W16} {job : BitVec 2} {value : W64} (h : Canon o s) :
    CanonNext o (Machine.execYieldRegWrite w tile job value s) := .onTile (.finish (h.tileReg fun _ h => h.writeYield))

theorem ctxGo {t : W16} {j : BitVec 2} {f : Ctx → Ctx} (h : Canon o s) : Canon o (Machine.ctxGo s t j f) := h.modCtx

theorem ctxResume {t : W16} {j : BitVec 2} (h : Canon o s) : Canon o (Machine.ctxResume s t j).1 := .iteFst h h.ctxGo

theorem ctxRestart {t : W16} {j : BitVec 2} {pc : W64} (h : Canon o s) : Canon o (Machine.ctxRestart s t j pc).1 := .iteFst h h.ctxGo

theorem execCtxResume {w : Writer} {tile : W16} {job : BitVec 2} (h : Canon o s) : CanonNext o (Machine.execCtxResume w tile job s) :=
  .onTile (.finish (h.tileReg fun _ h => h.ctxResume))

theorem execCtxRestart {w : Writer} {tile : W16} {job : BitVec 2} {pc : W64} (h : Canon o s) :
    CanonNext o (Machine.execCtxRestart w tile job pc s) := .onTile (.finish (h.tileReg fun _ h => h.ctxRestart))

theorem writeCtxCtl {t : W16} {j : BitVec 2} {v : W64} (h : Canon o s) : Canon o (Machine.writeCtxCtl s t j v).1 := by
  unfold Machine.writeCtxCtl
  split
  exacts [h.ctxResume, h.ctxRestart, h]

/-! ## Commands of a job -/

theorem freezeRec {d : Nat} {r : BitVec 9} (h : Canon o s) : Canon o (Machine.freezeRec s d r) := by
  unfold Machine.freezeRec
  dsimp only
  split
  exacts [h.modRec.settleRec, h.modRec, h]

theorem freezeJob {j : BitVec 2} (h : Canon o s) : Canon o (Machine.freezeJob s j) :=
  h.modJob.foldl fun _ _ h => .modDie (h.foldl fun _ _ h => h.freezeRec)

theorem thawRec {d : Nat} {r : BitVec 9} (h : Canon o s) : Canon o (Machine.thawRec s d r) := by
  unfold Machine.thawRec
  dsimp only
  split
  exacts [h.modRec, h.resumeRec, h.failParked, h.modRec, h.failParked, h.resumeRec, h]

theorem thawJob {j : BitVec 2} (h : Canon o s) : Canon o (Machine.thawJob s j) := h.modJob.foldl fun _ _ h => .modDie (h.foldl fun _ _ h => h.thawRec)

theorem saveShares {j : BitVec 2} {ts : List (W16 × Nat × Nat)} {va : Nat} (h : Canon o s) : Canon o (Machine.saveShares s j ts va) :=
  h.foldl fun _ _ h => .ite h.putErr h.vaWrite

theorem loadShares {j : BitVec 2} {ts : List (W16 × Nat × Nat)} {va : Nat} (h : Canon o s) : Canon o (Machine.loadShares s j ts va) := by
  refine .foldl h fun _ _ h => ?_
  dsimp only
  split
  · next t _ heq =>
    have ht : Canon o t := .ofFst heq h.vaRead
    exact ht.spadWrite
  · next t _ _ heq => exact .ofFst heq h.vaRead

theorem saveRefused {j : BitVec 2} {r : State × Byte} (h : Canon o s) (hr : Machine.saveRefused s j = some r) : Canon o r.1 := by
  unfold Machine.saveRefused at hr
  dsimp only at hr
  split at hr
  · contradiction
  · split at hr
    · exact Option.some.inj hr ▸ h.putErr
    · exact Option.some.inj hr ▸ h

theorem clearArea {pa n : Nat} (h : Canon o s) : Canon o (Machine.clearArea s pa n) := h.putStack.clrHbm

theorem saveJob {j : BitVec 2} (h : Canon o s) : Canon o (Machine.saveJob s j) := by
  unfold Machine.saveJob
  extract_lets s1 _ _ _ _ s2 s3 s4 s5
  have h1 : Canon o s1 := h.foldl fun _ _ h => .ite h.tileFault h
  have h4 : Canon o s4 := h1.clearArea.modJob.frame
  have h5 : Canon o s5 := .ite h4.saveShares h4
  exact h5.frame.setJobSt

theorem finishUnload {j : BitVec 2} (h : Canon o s) : Canon o (Machine.finishUnload s j) := .ite h.saveJob.payLate h

theorem unloadJob {j : BitVec 2} (h : Canon o s) : Canon o (Machine.unloadJob s j).1 := by
  refine .iteFst h (.iteFst h ?_)
  split
  · next hr => exact h.saveRefused hr
  · exact h.setJobSt.freezeJob.finishUnload

theorem checkHeld {t : W16} {n : Nat} (h : Canon o s) : Canon o (Machine.checkHeld s t n) := h.modTile

theorem thawWeirs {j : BitVec 2} (h : Canon o s) : Canon o (Machine.thawWeirs s j) := h.foldl fun _ _ h => .ite h h.weirTest

theorem reloadJob {j : BitVec 2} (h : Canon o s) : Canon o (Machine.reloadJob s j).1 := by
  refine .iteFst h (.setJobSt (.thawWeirs (.gResume (.thawJob ?_))))
  exact .modJob (.foldl (.foldl (.ite h.setJobSt.loadShares h.setJobSt) fun _ _ h => h.modTile) fun _ _ h => h.foldl fun _ _ h => h.checkHeld)

theorem discardTrees {j : BitVec 2} (h : Canon o s) : Canon o (Machine.discardTrees s j) := h.frame

theorem discardJob {j : BitVec 2} (h : Canon o s) : Canon o (Machine.discardJob s j).1 := by
  refine .iteFst h (.setJobSt ?_)
  exact .frame (.discardTrees (.gAbort (h.orphanJob.modJob.foldl fun _ _ h => .foldl (h.foldl fun _ _ h => h.abortStq) fun _ _ h => h.abortReach)))

theorem resumeJob {j : BitVec 2} (h : Canon o s) : Canon o (Machine.resumeJob s j).1 := .iteFst h h.setJobSt.mapCtx.checkFinished

theorem pauseCmd {j : BitVec 2} (h : Canon o s) : Canon o (Machine.pauseCmd s j).1 := .iteFst h h.pauseJob

theorem writeJobCtl {load : State → State × Byte} {j : BitVec 2} {cmd : Nat} (hf : ∀ s, Canon o s → Canon o (load s).1) (h : Canon o s) :
    Canon o (Machine.writeJobCtl load s j cmd).1 := by
  unfold Machine.writeJobCtl
  split
  exacts [hf _ h, h.resumeJob, h.pauseCmd, h.unloadJob, h.reloadJob, h.discardJob, h]

theorem execJobResume {w : Writer} {job : BitVec 2} (h : Canon o s) : CanonNext o (Machine.execJobResume w job s) := .next h.resumeJob.finish

theorem execJobPause {w : Writer} {job : BitVec 2} (h : Canon o s) : CanonNext o (Machine.execJobPause w job s) := .next h.pauseCmd.finish

theorem execJobUnload {w : Writer} {job : BitVec 2} (h : Canon o s) : CanonNext o (Machine.execJobUnload w job s) :=
  .next (.ite h.unloadJob.frame h.unloadJob.finish)

theorem execJobReload {w : Writer} {job : BitVec 2} (h : Canon o s) : CanonNext o (Machine.execJobReload w job s) := .next h.reloadJob.finish

theorem execJobDiscard {w : Writer} {job : BitVec 2} (h : Canon o s) : CanonNext o (Machine.execJobDiscard w job s) := .next h.discardJob.finish

end Canon

end Sys2Proof.Machine
end

section
/-!
PROOFS of the statement of the family '11_hbm.md', continued: the RoCE queue pairs and the commands of a port.
-/
namespace Sys2Proof.Machine
open Sys2Proof

namespace Canon
variable {o s t : State} {α β : Type}

/-! ## Queue pairs -/

theorem putQp {q : BitVec 12} {x : RoceQp} (h : Canon o s) : Canon o (Machine.putQp s q x) := h.frame

theorem putMr {r : Nat} {x : RoceMr} (h : Canon o s) : Canon o (Machine.putMr s r x) := h.frame

theorem roceFlush {q : BitVec 12} (h : Canon o s) : Canon o (Machine.roceFlush s q) := .ite h.putQp h

theorem roceFlushAll (h : Canon o s) : Canon o (Machine.roceFlushAll s) := h.foldl fun _ _ h => h.roceFlush

theorem roceSend {q : BitVec 12} {k : RocePkt} (h : Canon o s) : Canon o (Machine.roceSend s q k) := h.putQp.roceFlush

theorem writeMr {r reg : Nat} {v : W64} (h : Canon o s) : Canon o (Machine.writeMr s r reg v).1 :=
  .iteFst h (by split; exacts [h.putMr, .iteFst h h.putMr, .iteFst h h.putMr, h])

theorem execRoceMrWrite {w : Writer} {region : BitVec 10} {reg : BitVec 2} {value : W64} (h : Canon o s) :
    CanonNext o (Machine.execRoceMrWrite w region reg value s) := .next h.writeMr.finish

theorem failQp {q : BitVec 12} {st : Byte} (h : Canon o s) : Canon o (Machine.failQp s q st) := h.unpark.putQp

theorem qpError {q : BitVec 12} {port : Nat} (h : Canon o s) : Canon o (Machine.qpError s q port) := .ite h h.failQp.putErr

theorem refuseAccess {q : BitVec 12} {port : Nat} {psn : BitVec 24} (h : Canon o s) : Canon o (Machine.refuseAccess s q port psn) :=
  h.roceSend.putErr.qpError

theorem refuseInvalid {q : BitVec 12} {port : Nat} {psn : BitVec 24} (h : Canon o s) : Canon o (Machine.refuseInvalid s q port psn) :=
  h.roceSend.qpError

theorem settleEth (h : Canon o s) : Canon o (Machine.settleEth s) := h.foldl fun _ _ h => h.settleStop

theorem parkWr {q : BitVec 12} {w : BitVec 256} {f : BitVec 3} {va : Nat} {dst : Bool} (h : Canon o s) : Canon o (Machine.parkWr s q w f va dst) :=
  h.putQp.parkAccess

theorem wrBegun {q : BitVec 12} {n : Nat} (h : Canon o s) : Canon o (Machine.wrBegun s q n) := h.putQp

theorem beginWr {q : BitVec 12} (h : Canon o s) : Canon o (Machine.beginWr s q) := by
  unfold Machine.beginWr
  dsimp only
  split
  · refine .ite h (.ite h.wrBegun.roceSend ?_)
    split
    · next t _ heq =>
      have ht : Canon o t := .ofFst heq h.vaRead
      exact ht.wrBegun.foldl fun _ _ h => h.roceSend
    · next t _ _ heq =>
      have ht : Canon o t := .ofFst heq h.vaRead
      exact ht.parkWr
    · next t _ heq =>
      have ht : Canon o t := .ofFst heq h.vaRead
      exact ht.putQp
  · exact h

theorem wrDone {q : BitVec 12} {st : Byte} {done : Nat} (h : Canon o s) : Canon o (Machine.wrDone s q st done) := by
  unfold Machine.wrDone
  dsimp only
  split
  exacts [h.unpark.putQp.beginWr, h]

theorem resolveWr {q : BitVec 12} {resume : Bool} (h : Canon o s) : Canon o (Machine.resolveWr s q resume) :=
  .ite h.unpark.putQp.beginWr h.wrDone.settleEth

theorem execRoceWrPost {w : Writer} {wr : BitVec 256} (h : Canon o s) : CanonNext o (Machine.execRoceWrPost w wr s) :=
  .next (.ite h.setStatus (.ite h.putQp.setStatus (.ite h.setStatus h.putQp.beginWr.setStatus)))

theorem execRoceRequestComplete {qp : BitVec 12} (h : Canon o s) : CanonNext o (Machine.execRoceRequestComplete qp s) :=
  .next (.settleEth (by split; exacts [.ite h.wrDone h.beginWr, h]))

theorem execRoceRetryTimeout {qp : BitVec 12} (h : Canon o s) : CanonNext o (Machine.execRoceRetryTimeout qp s) :=
  .next (.ite (.ite h.putQp.beginWr h.qpError.settleEth) h)

theorem takeReadResp {q : BitVec 12} {psn : BitVec 24} {first last : Bool} {bs : List Byte} (h : Canon o s) :
    Canon o (Machine.takeReadResp s q psn first last bs) := by
  unfold Machine.takeReadResp
  dsimp only
  split
  · refine .ite ?_ h
    split
    · next t _ heq =>
      have ht : Canon o t := .ofFst heq h.vaWrite
      exact ht.putQp
    · next t _ _ heq =>
      have ht : Canon o t := .ofFst heq h.vaWrite
      exact ht.parkWr
    · next t _ heq =>
      have ht : Canon o t := .ofFst heq h.vaWrite
      exact ht.wrDone
  · exact h

theorem takeCnp {q : BitVec 12} (h : Canon o s) : Canon o (Machine.takeCnp s q) := h.putQp

theorem answerCe {q : BitVec 12} (h : Canon o s) : Canon o (Machine.answerCe s q) := .ite h.putQp.roceSend h

theorem countMr {port : Nat} {m : RoceMr} (h : Canon o s) : Canon o (Machine.countMr s port m) := .ite h (.ite h.arriveCount h.putErr)

theorem takeWrite {port : Nat} {q : BitVec 12} {psn : BitVec 24} {first last : Bool} {va : W64} {rkey : W32} {len : Nat} {bs : List Byte}
    (h : Canon o s) :
    Canon o (Machine.takeWrite s port q psn first last va rkey len bs) := by
  refine .ite h.refuseInvalid (.ite h.refuseAccess ?_)
  split
  · exact h.refuseInvalid
  · refine .ite h.refuseInvalid ?_
    split
    · exact h.refuseAccess
    · split
      · next t _ heq =>
        have ht : Canon o t := .ofFst heq h.vaWrite
        exact .roceSend (.ite ht.putQp.countMr ht.putQp)
      · next t _ _ heq =>
        have ht : Canon o t := .ofFst heq h.vaWrite
        exact ht.refuseAccess

theorem takeRead {port : Nat} {q : BitVec 12} {psn : BitVec 24} {va : W64} {rkey : W32} {n : Nat} (h : Canon o s) :
    Canon o (Machine.takeRead s port q psn va rkey n) := by
  refine .ite h.refuseInvalid ?_
  split
  · exact h.refuseAccess
  · split
    · next t _ heq =>
      have ht : Canon o t := .ofFst heq h.vaRead
      exact ht.putQp.foldl fun _ _ h => h.roceSend
    · next t _ _ heq =>
      have ht : Canon o t := .ofFst heq h.vaRead
      exact ht.refuseAccess

theorem inSeq {q : BitVec 12} {psn : BitVec 24} {f : State → State} (h : Canon o s) (hf : ∀ s, Canon o s → Canon o (f s)) :
    Canon o (Machine.inSeq s q psn f) := .ite (hf _ h.putQp) h

theorem execRocePacketReceive {port : Fin 24} {ce : Bool} {p : RocePkt} (h : Canon o s) :
    CanonNext o (Machine.execRocePacketReceive port ce p s) := by
  refine .next (.ite (.settleEth ?_) h)
  split
  · exact .inSeq (.ite h.answerCe h) fun _ h => h.takeWrite
  · exact .inSeq (.ite h.answerCe h) fun _ h => h.takeRead
  · exact .takeReadResp (.ite h.answerCe h)
  · dsimp only
    split
    exacts [.ite (.putQp (.ite h.answerCe h)) (.ite h.answerCe h), .ite h.answerCe h]
  · exact .qpError (.ite h.answerCe h)
  · exact .refuseInvalid (.ite h.answerCe h)
  · exact .takeCnp (.ite h.answerCe h)

theorem execCnpReceive {qp : BitVec 12} (h : Canon o s) : CanonNext o (Machine.execCnpReceive qp s) := .next (.ite h.takeCnp h)

theorem execRoceRateRecovery {qp : BitVec 12} (h : Canon o s) : CanonNext o (Machine.execRoceRateRecovery qp s) :=
  .next (by dsimp only; split; exacts [.ite h.putQp h, h])

theorem execEthFrameReceive {port : Fin 24} {fcsOk overRate : Bool} {bytes : List Byte} (h : Canon o s) :
    CanonNext o (Machine.execEthFrameReceive port fcsOk overRate bytes s) := .next (.ite (.ite h.frame h.putPort) h)

theorem execPriorityFlowControl {port : Fin 24} {pause resume : Byte} (h : Canon o s) :
    CanonNext o (Machine.execPriorityFlowControl port pause resume s) := .next (.ite h.putPort.roceFlushAll h)

theorem abortRoce {p : Nat} (h : Canon o s) : Canon o (Machine.abortRoce s p) := h.foldl fun _ _ h => h.failQp

/-! ## Commands of a port -/

theorem portDrops {p : Nat} (h : Canon o s) : Canon o (Machine.portDrops s p) :=
  .ite h.dropPkts.dropPopped.gPortLost.abortRoce h.dropPkts.dropPopped.gPortLost

theorem stopAbort {p : Nat} (h : Canon o s) : Canon o (Machine.stopAbort s p) := .ite h h.setPort.portDrops.settleStop

theorem stopDrain {p : Nat} (h : Canon o s) : Canon o (Machine.stopDrain s p) := by
  unfold Machine.stopDrain
  split
  exacts [h, h, h.stopAbort, .ite h.setPort.settleEth h.setPort.settleStop]

theorem execStopDrain {w : Writer} {port : Fin 24} (h : Canon o s) : CanonNext o (Machine.execStopDrain w port s) :=
  .next (.finish (h.portReg fun _ h => h.stopDrain))

theorem execStopAbort {w : Writer} {port : Fin 24} (h : Canon o s) : CanonNext o (Machine.execStopAbort w port s) :=
  .next (.finish (h.portReg fun _ h => h.stopAbort))

theorem execDrainLimitExpire {die : Fin 12} (h : Canon o s) : CanonNext o (Machine.execDrainLimitExpire die s) :=
  .next (h.drainLimit.foldl fun _ _ h => .ite h.stopAbort h)

theorem trainFail {p : Nat} (h : Canon o s) : Canon o (Machine.trainFail s p) := .ite h.putPort h.setPort.putErr.portDrops

theorem resetLink {p : Nat} (h : Canon o s) : Canon o (Machine.resetLink s p) := .gPortLost (h.putPort.foldl fun _ _ h => h.dropPkt)

theorem trainTizal {p : Nat} {r : TrainResult} {w : Nat} (h : Canon o s) : Canon o (Machine.trainTizal s p r w) := by
  refine .foldl (.pushPkt (.pump (.ite (.putErr (.ite h.setPort.resetLink h.setPort.takeAck.resend)) ?_))) fun _ _ h => h.tellMismatch.peerBack
  exact .ite (.putErr (.ite h.setPort.resetLink h.setPort.takeAck.resend)) (.ite h.setPort.resetLink h.setPort.takeAck.resend)

theorem execPortTrainingDone {port : Fin 24} {r : TrainResult} (h : Canon o s) : CanonNext o (Machine.execPortTrainingDone port r s) :=
  .next (.ite (.ite h.trainFail (.ite h.trainTizal h.setPort.roceFlushAll)) h)

end Canon

end Sys2Proof.Machine
end

section
/-!
PROOFS of the statement of the family '11_hbm.md', continued: dies, publications, start-up and faults.
-/
namespace Sys2Proof.Machine
open Sys2Proof

namespace Canon
variable {o s t : State} {α β : Type}

/-! ## Dies lost and reset -/

theorem shutEdge {e : Nat} (h : Canon o s) : Canon o (Machine.shutEdge s e) := h.putEdge

theorem edgeDown {e : Nat} (h : Canon o s) : Canon o (Machine.edgeDown s e) := .putErr (h.putEdge.foldl fun _ _ h => h.dropLink)

theorem loseBlocks {d : Nat} (h : Canon o s) : Canon o (Machine.loseBlocks s d) := h.foldl fun _ _ h => h.loseBlk

theorem loseTrees {d : Nat} (h : Canon o s) : Canon o (Machine.loseTrees s d) := h.breakTrees

theorem loseStack {d : Nat} (h : Canon o s) : Canon o (Machine.loseStack s d) := h.failReqs.setStackSt.clrHbm

theorem losePorts {d : Nat} (h : Canon o s) : Canon o (Machine.losePorts s d) := h.frame.foldl fun _ _ h => h.setPort.portDrops.frame.setPort

theorem loseObjects {d : Nat} (h : Canon o s) : Canon o (Machine.loseObjects s d) := h.modDie.frame.settleInval.foldl fun _ _ h => h.settleViews

theorem rejoinFail {d : Nat} {counts : Bool} (h : Canon o s) : Canon o (Machine.rejoinFail s d counts) := h.setDieSt.putErr

theorem loseDie {d : Nat} {cause : BitVec 5} (h : Canon o s) : Canon o (Machine.loseDie s d cause) := by
  unfold Machine.loseDie
  extract_lets _ s1 s2 s3 s4 s5 _ s6 s7 s8
  have h2 : Canon o s2 := .loseTrees (.loseMembers (h.foldl fun _ _ h => h.shutEdge))
  have h5 : Canon o s5 := h2.gHomeLost.losePorts.loseBlocks.loseStack.loseObjects.resetHalf.resetHalf
  have h6 : Canon o s6 := by
    dsimp only [s6]
    split
    exacts [h5.frame, h5]
  have h8 : Canon o s8 := h6.setDieSt.settleJobs.putErr
  exact .ite (.ite h8.rejoinFail h8) h

theorem execDieClockLoss {die : Fin 12} (h : Canon o s) : CanonNext o (Machine.execDieClockLoss die s) := .next h.loseDie

theorem execHeartbeatTimeout {die : Fin 12} (h : Canon o s) : CanonNext o (Machine.execHeartbeatTimeout die s) := .next h.loseDie

theorem execDieControlWatchdog {die : Fin 12} (h : Canon o s) : CanonNext o (Machine.execDieControlWatchdog die s) := .next h.loseDie

theorem dieReset {d : Nat} (h : Canon o s) : Canon o (Machine.dieReset s d).1 := .iteFst h.loseDie h

theorem execDieResetCmd {w : Writer} {die : Fin 12} (h : Canon o s) : CanonNext o (Machine.execDieResetCmd w die s) :=
  .next (.finish (h.secureWrite fun _ h => h.dieReset))

theorem bistFence {d i : Nat} (h : Canon o s) : Canon o (Machine.bistFence s d i) := .ite h.modTile.putErr.fenceInMap h

theorem copyReserve {d : Nat} (h : Canon o s) : Canon o (Machine.copyReserve s d) := by
  refine .ite ?_ h
  split
  · next src _ _ => exact h.setHbm fun hm => Laws.mwf_copy (fun a => a - src * 2 ^ 36 + d * 2 ^ 36) _ hm
  · exact h

theorem trainStack {d : Nat} {f : DieFound} (h : Canon o s) : Canon o (Machine.trainStack s d f) :=
  .ite h.setStackSt.clrHbm.repairRows.setStackSt.copyReserve h.setStackSt.setStackSt.putErr

theorem trainEdge {e : Nat} {ok : Bool} {pairs : List (Fin 24)} (h : Canon o s) : Canon o (Machine.trainEdge s e ok pairs) :=
  .ite (h.putEdge.foldl fun _ _ h => h.putErr) h.putEdge.putErr

theorem startPorts {d : Nat} (h : Canon o s) : Canon o (Machine.startPorts s d) := h.foldl fun _ _ h => h.startPort

theorem beginJoin {d : Nat} {f : DieFound} (h : Canon o s) : Canon o (Machine.beginJoin s d f) := h.setDieSt

theorem joinDie {d : Nat} {f : DieFound} (h : Canon o s) : Canon o (Machine.joinDie s d f) := by
  refine .ite (.setDieSt (.startPorts ?_)) h.rejoinFail
  split
  exacts [.frame (.foldl (.trainStack (.frame (h.foldl fun _ _ h => h.bistFence))) fun _ _ h => h.trainEdge),
    .foldl (.trainStack (.frame (h.foldl fun _ _ h => h.bistFence))) fun _ _ h => h.trainEdge]

theorem settleJoin {d : Nat} (h : Canon o s) : Canon o (Machine.settleJoin s d) := by
  unfold Machine.settleJoin
  split
  exacts [.ite h.joinDie h, h]

theorem dieRejoin {d : Nat} {f : DieFound} (h : Canon o s) : Canon o (Machine.dieRejoin s d f).1 := .iteFst (.ite h.modDie.beginJoin h.modDie) h

theorem execDieRejoinCmd {w : Writer} {die : Fin 12} {f : DieFound} (h : Canon o s) : CanonNext o (Machine.execDieRejoinCmd w die f s) :=
  .next (.finish (h.secureWrite fun _ h => h.dieRejoin))

theorem execRejoinDelayExpire {die : Fin 12} {f : DieFound} (h : Canon o s) : CanonNext o (Machine.execRejoinDelayExpire die f s) :=
  .next (.ite h.beginJoin h)

theorem writeDieCfg {d : Nat} {v : W32} (h : Canon o s) : Canon o (Machine.writeDieCfg s d v).1 := .iteFst h h.modDie

theorem execD2dLinkLockLoss {edge : Fin 16} {link : Fin 24} {remapped trains : Bool} (h : Canon o s) :
    CanonNext o (Machine.execD2dLinkLockLoss edge link remapped trains s) :=
  .next (.ite (.ite (.ite h.freshWord.putEdge.putErr h.freshWord.putEdge) h.edgeDown) h)

theorem edgeRetrain {e : Nat} {trains : Bool} {pairs : List (Fin 24)} (h : Canon o s) : Canon o (Machine.edgeRetrain s e trains pairs).1 :=
  .iteFst h.trainEdge h

theorem execEdgeRetrain {w : Writer} {edge : Fin 16} {trains : Option (List (Fin 24))} (h : Canon o s) :
    CanonNext o (Machine.execEdgeRetrain w edge trains s) := .next (.finish (h.secureWrite fun _ h => h.edgeRetrain))

theorem execUcieModuleLoss {m : BitVec 2} (h : Canon o s) : CanonNext o (Machine.execUcieModuleLoss m s) :=
  .next (.ite (.ite h.frame.freshWord.putErr.putErr h.frame.freshWord.putErr) h)

theorem execRefLoss (h : Canon o s) : CanonNext o (Machine.execRefLoss s) := .next (.ite h h.putErr)

theorem execClockStepChange {die : Fin 12} {half : Bool} (h : Canon o s) : CanonNext o (Machine.execClockStepChange die half s) :=
  .next (.ite h.putHalf h)

theorem writeClkHalf {i : Nat} {v : W32} (h : Canon o s) : Canon o (Machine.writeClkHalf s i v).1 := .iteFst h h.putHalf

/-! ## Parked transfers -/

theorem resolvePark {p : Park} {resume : Bool} (h : Canon o s) : Canon o (Machine.resolvePark s p resume) := by
  unfold Machine.resolvePark
  split
  exacts [.ite h.unpark.gatherPass h.gParkFails, h.resolveWr]

theorem faultCtl {die : Fin 12} {tag : W32} {resume : Bool} (h : Canon o s) : Canon o (Machine.faultCtl s die tag resume).1 :=
  .iteFst h.resolveXfer (by split; exacts [h.resolvePark, h.modDie])

theorem execFaultCtlResume {w : Writer} {die : Fin 12} {tag : W32} (h : Canon o s) : CanonNext o (Machine.execFaultCtlResume w die tag s) :=
  .next (.finish (h.dieReg fun _ h => h.faultCtl))

theorem execFaultCtlFail {w : Writer} {die : Fin 12} {tag : W32} (h : Canon o s) : CanonNext o (Machine.execFaultCtlFail w die tag s) :=
  .next (.finish (h.dieReg fun _ h => h.faultCtl))

/-! ## Publications -/

theorem writePubCfg {e : BitVec 4} {v : W64} (h : Canon o s) : Canon o (Machine.writePubCfg s e v).1 := .iteFst h (.iteFst h h.putPub)

theorem writePubBase {e : BitVec 4} {v : W64} (h : Canon o s) : Canon o (Machine.writePubBase s e v).1 := .iteFst h (.iteFst h h.putPub)

theorem execPubCfgWrite {w : Writer} {entry : BitVec 4} {value : W64} (h : Canon o s) : CanonNext o (Machine.execPubCfgWrite w entry value s) :=
  .next h.writePubCfg.finish

theorem pubPublish {e : BitVec 4} {version : W32} (h : Canon o s) : Canon o (Machine.pubPublish s e version).1 := .iteFst h h.putPub.modJob

theorem pubUnpublish {e : BitVec 4} (h : Canon o s) : Canon o (Machine.pubUnpublish s e).1 := .iteFst h (.iteFst h h.putPub)

theorem pubHold {e : BitVec 4} (h : Canon o s) : Canon o (Machine.pubHold s e).1 := .iteFst h (.iteFst h h.putPub)

theorem pubRelease {e : BitVec 4} (h : Canon o s) : Canon o (Machine.pubRelease s e).1 := .iteFst h h.putPub

theorem execPublish {w : Writer} {entry : BitVec 4} {version : W32} (h : Canon o s) : CanonNext o (Machine.execPublish w entry version s) :=
  .next h.pubPublish.finish

theorem execUnpublish {w : Writer} {entry : BitVec 4} (h : Canon o s) : CanonNext o (Machine.execUnpublish w entry s) := .next h.pubUnpublish.finish

theorem execHold {w : Writer} {entry : BitVec 4} (h : Canon o s) : CanonNext o (Machine.execHold w entry s) := .next h.pubHold.finish

theorem execRelease {w : Writer} {entry : BitVec 4} (h : Canon o s) : CanonNext o (Machine.execRelease w entry s) := .next h.pubRelease.finish

theorem writePubCtl {v : W64} (h : Canon o s) : Canon o (Machine.writePubCtl s v).1 := by
  unfold Machine.writePubCtl
  dsimp only
  split
  exacts [h.pubPublish, h.pubUnpublish, h.pubHold, h.pubRelease, h]

theorem invalView {j : BitVec 2} {v : W64} (h : Canon o s) : Canon o (Machine.invalView s j v) := .ite h.invalidate h

theorem oweView {j : BitVec 2} {v : W64} {ep : Nat} (h : Canon o s) : Canon o (Machine.oweView s j v ep) := .ite h.modJob.settleViews h

theorem moveView {j : BitVec 2} {v : W64} (h : Canon o s) : Canon o (Machine.moveView s j v) :=
  .oweView (.invalView (.invalView (.modJob (.ite h.putPub h))))

theorem writeTrnView {j : BitVec 2} {v : W64} (h : Canon o s) : Canon o (Machine.writeTrnView s j v).1 :=
  .iteFst (.iteFst h (.iteFst h h.moveView)) h.moveView

theorem execTrnViewWrite {w : Writer} {job : BitVec 2} {value : W64} (h : Canon o s) : CanonNext o (Machine.execTrnViewWrite w job value s) :=
  .next h.writeTrnView.finishInval

/-! ## Measurements -/

theorem measureChain (h : Canon o s) : Canon o (Machine.measureChain s) := h.frame

/-! ## Start-up -/

/-- Module reset keeps the queue and empties the stacks. -/
theorem moduleReset (h : Canon o s) : Canon o (Machine.moduleReset s) := ⟨h.1, fun _ => rfl⟩

theorem execModResetFall (h : Canon o s) : CanonNext o (Machine.execModResetFall s) := .next h.moduleReset

theorem absent {d : Nat} {e : Err} (h : Canon o s) : Canon o (Machine.absent s d e) := h.modDie.putErr

theorem discoverDie {f : StartFound} {r : List Nat} {d : Nat} (h : Canon o s) : Canon o (Machine.discoverDie f r s d) :=
  .ite h (.ite h.absent (.ite h.absent (by split; exacts [.ite h.absent (.ite h.absent h.frame), h])))

theorem numberHalf {i : Nat} (h : Canon o s) : Canon o (Machine.numberHalf s i) := .ite h.putHalf h.putHalf

theorem startFail (h : Canon o s) : Canon o (Machine.startFail s) := h.putErr

theorem testDie {f : StartFound} {d : Nat} (h : Canon o s) : Canon o (Machine.testDie f s d) := by
  unfold Machine.testDie
  split
  exacts [.ite h.setDieSt h.frame.absent, h]

theorem trainEdges {f : StartFound} (h : Canon o s) : Canon o (Machine.trainEdges f s) := h.foldl fun _ _ h => h.trainEdge

theorem trainUcie {f : StartFound} (h : Canon o s) : Canon o (Machine.trainUcie f s) := .ite h.frame.putErr h.frame

theorem refLostStart (h : Canon o s) : Canon o (Machine.refLostStart s) := h.putErr.startFail

theorem startDies {f : StartFound} (h : Canon o s) : Canon o (Machine.startDies s f) := by
  unfold Machine.startDies
  extract_lets p s1 s2 r s3 s4 _ s5 s6 s7 s8 s9 s10 s11
  have h2 : Canon o s2 := h.setModSt.frame
  have h3 : Canon o s3 := h2.foldl fun _ _ h => h.discoverDie
  have h4 : Canon o s4 := h3.foldl fun _ _ h => h.numberHalf
  have h7 : Canon o s7 := h4.frame.setModSt.foldl fun _ _ h => h.testDie
  have h8 : Canon o s8 := by
    refine .foldl h7 fun _ _ h => ?_
    split
    exacts [.trainStack (h.foldl fun _ _ h => h.bistFence), h]
  have h9 : Canon o s9 := h8.trainEdges.trainUcie
  have h11 : Canon o s11 := .frame (h9.foldl fun _ _ h => h.startPorts)
  exact .ite h2.refLostStart (.ite h2.startFail (.ite h3.startFail (.ite h9 h11.frame.setModSt.measureChain)))

theorem railOn {r : Nat} (h : Canon o s) : Canon o (Machine.railOn s r) := h.putRail

theorem rampFails {rail : Fin 28} (h : Canon o s) : Canon o (Machine.rampFails s rail) := .ite h.putRail.putErr.modDie h.putRail.putErr

theorem rampUp {f : StartFound} (h : Canon o s) : Canon o (Machine.rampUp s f) := by
  unfold Machine.rampUp
  extract_lets _ s1 _ s2 s3
  have h1 : Canon o s1 := .ite h h.frame.setModSt
  have h3 : Canon o s3 := .foldl (h1.foldl fun _ _ h => h.railOn) fun _ _ h => h.rampFails
  exact .ite h1.frame (.ite h3 h3.frame.startDies)

theorem powerUp {f : StartFound} (h : Canon o s) : Canon o (Machine.powerUp s f) := .ite h.rampUp h

theorem bootRefused {slot : Bool} (h : Canon o s) : Canon o (Machine.bootRefused s slot) := .ite h h.freshWord.putErr

theorem badRecord {r : FlashRec} (h : Canon o s) : Canon o (Machine.badRecord s r) :=
  .putErr (by split; exacts [h.putStack, h.frame.putPort, h.frame, h.frame, h.frame, h.frame])

theorem bootSlot {slot : Bool} (h : Canon o s) : Canon o (Machine.bootSlot s slot) := h.frame.setFw.setModSt.measureChain

theorem detect {addrFree : Bool} (h : Canon o s) : Canon o (Machine.detect s addrFree) := .ite h.frame h.frame.putErr

theorem boot {f : StartFound} (h : Canon o s) : Canon o (Machine.boot s f) := by
  unfold Machine.boot
  extract_lets _ _ s1 s2 _ go s3
  have h1 : Canon o s1 := h.frame.railOn
  have h2 : Canon o s2 := h1.foldl fun _ _ h => h.badRecord
  have hgo {t} (h : Canon o t) : Canon o (go t) := .ite h.powerUp h
  have h3 : Canon o s3 := h2.bootRefused.putErr
  exact .ite h1.putErr (.ite h1.putErr.startFail (.ite h1.putErr.startFail
    (.ite (hgo h2.bootSlot.detect) (.ite (hgo h3.bootSlot.detect) h3.bootRefused.startFail))))

theorem freshVin (h : Canon o s) : Canon o (Machine.freshVin s) := h.freshWord.frame

theorem resetRise {f : StartFound} (h : Canon o s) : Canon o (Machine.resetRise s f) := .ite (.boot (.ite h.frame.freshVin h.frame)) h.frame

theorem execModResetRise {f : StartFound} (h : Canon o s) : CanonNext o (Machine.execModResetRise f s) := .next (.ite h h.resetRise)

/-! ## Errors, injected faults and firmware -/

theorem escalateResidue {t : W16} (h : Canon o s) : Canon o (Machine.escalateResidue s t) := .ite h.modTile.tileFault h

theorem execPressComplete {tile : W16} (h : Canon o s) : CanonNext o (Machine.execPressComplete tile s) := .onTile h.pressDone.escalateResidue

theorem execPressResidueMismatch {tile : W16} {replayPasses : Bool} {rowBlocks : Nat} (h : Canon o s) :
    CanonNext o (Machine.execPressResidueMismatch tile replayPasses rowBlocks s) := .onTile h.residueMismatch.escalateResidue

theorem execCtxStorePatrol {tile : W16} {job : BitVec 2} (h : Canon o s) : CanonNext o (Machine.execCtxStorePatrol tile job s) :=
  .onTile (.ite h.tileFault h.modTile)

theorem escalateDie {d : Nat} (h : Canon o s) : Canon o (Machine.escalateDie s d) := h.putErr.loseDie

theorem fatalInternal (h : Canon o s) : Canon o (Machine.fatalInternal s) := h.putErr

theorem disableTreesAt {r : W16} (h : Canon o s) : Canon o (Machine.disableTreesAt s r) := h.frame

theorem bypassAt {p : Pos} (h : Canon o s) : Canon o (Machine.bypassAt s p) :=
  .ite h (.ite h.putHalf.putErr.loseDie.modDie (.putErr (.disableTreesAt (.putHalf (by split; exacts [h.fenceTile, h.putHalf])))))

theorem routerFault {p : Pos} {port : Nat} (h : Canon o s) : Canon o (Machine.routerFault s p port) :=
  .ite h.putErr (.ite h.putErr.bypassAt (by split; exacts [h.putErr.fenceTile, h.putErr]))

theorem escalateLink {p : Pos} {inPort : Nat} (h : Canon o s) : Canon o (Machine.escalateLink s p inPort) := .ite h.frame.routerFault h.frame

theorem execMeshFlitCrcError {blk : Nat} {again : Bool} (h : Canon o s) : CanonNext o (Machine.execMeshFlitCrcError blk again s) :=
  .next (by split; exacts [.ite h (by split; exacts [h.freshWord.putEdge, .ite h.flitError.escalateLink h.flitError]), h])

theorem escalateWeir (h : Canon o s) : Canon o (Machine.escalateWeir s) := by
  unfold Machine.escalateWeir
  dsimp only
  split
  exacts [.ite h.frame.frame.escalateDie h.frame.frame.fatalInternal, h.frame]

theorem execWeirCounterArrival {die : Fin 12} {weir : BitVec 12} {tile : W16} (h : Canon o s) :
    CanonNext o (Machine.execWeirCounterArrival die weir tile s) := .next h.arriveAtCounter.escalateWeir

theorem execWeirReleaseArrive {die : Fin 12} {weir : BitVec 12} {tile : Option W16} (h : Canon o s) :
    CanonNext o (Machine.execWeirReleaseArrive die weir tile s) := .next h.releaseArrive.escalateWeir

theorem fenceCtl {t : W16} {cmd : Nat} (h : Canon o s) : Canon o (Machine.fenceCtl s t cmd).1 :=
  .iteFst h (.iteFst h (.iteFst h (.iteFst (.ite h h.putErr.fenceTile) h.bypassAt)))

theorem execFenceTile {w : Writer} {tile : W16} (h : Canon o s) : CanonNext o (Machine.execFenceTile w tile s) :=
  .next (.finish (h.secureWrite fun _ h => h.fenceCtl))

theorem execBypassRouter {w : Writer} {tile : W16} (h : Canon o s) : CanonNext o (Machine.execBypassRouter w tile s) :=
  .next (.finish (h.secureWrite fun _ h => h.fenceCtl))

theorem execErrMergeEnd {cause : Byte} {unit : BitVec 4} {source : W16} {job : BitVec 2} (h : Canon o s) :
    CanonNext o (Machine.execErrMergeEnd cause unit source job s) :=
  .next (by dsimp only; split; exacts [.ite h.frame (.ite h.frame.putRecord.putErr1 h.frame.putRecord), h])

theorem checkerMissed {u : CheckerUnit} (h : Canon o s) : Canon o (Machine.checkerMissed s u) := by
  unfold Machine.checkerMissed
  dsimp only
  split
  exacts [.ite h.putErr.tileFault h, .ite h.putErr.routerFault h, .ite h.putErr.escalateDie h, h.freshWord.putErr.fatalInternal,
    h.putErr.fatalInternal]

theorem execCheckerSelftest {missed : Option CheckerUnit} (h : Canon o s) : CanonNext o (Machine.execCheckerSelftest missed s) :=
  .next (by split; exacts [.ite h.checkerMissed h, h])

theorem execIslandSramPatrol {_word : Nat} {bits : BitVec 2} (h : Canon o s) : CanonNext o (Machine.execIslandSramPatrol _word bits s) :=
  .next (.ite h h.freshWord.putErr)

theorem execFatalResetExpire {f : StartFound} (h : Canon o s) : CanonNext o (Machine.execFatalResetExpire f s) :=
  .next (.ite h.moduleReset.resetRise h)

theorem execMgmtCheckpoint (h : Canon o s) : CanonNext o (Machine.execMgmtCheckpoint s) := .next (.ite h.frame h)

theorem takeover {f : Fw → Fw} {sev : BitVec 2} (h : Canon o s) : Canon o (Machine.takeover s f sev) := h.frame.setFw.putErr

theorem measureMgmt (h : Canon o s) : Canon o (Machine.measureMgmt s) := h.frame.measureChain

theorem revertFw (h : Canon o s) : Canon o (Machine.revertFw s) := h.takeover.putErr.measureMgmt

theorem execMgmtWatchdog (h : Canon o s) : CanonNext o (Machine.execMgmtWatchdog s) :=
  .next (.ite h (by split; exacts [h.takeover, h.revertFw, h.takeover]))

theorem commitFw (h : Canon o s) : Canon o (Machine.commitFw s) := by
  unfold Machine.commitFw
  refine .setFw ?_
  exact h.frame

theorem handoverFw {img : Image} (h : Canon o s) : Canon o (Machine.handoverFw s img).1 := .iteFst h h.freshWord.frame.setFw

theorem swapFw {img : Image} (h : Canon o s) : Canon o (Machine.swapFw s img) := h.setFw.putErr.measureMgmt

theorem settleFw (h : Canon o s) : Canon o (Machine.settleFw s) := by
  unfold Machine.settleFw
  split
  exacts [.ite h (by split; exacts [h.setFw.putErr, .ite h.swapFw h]), h]

theorem execHandover {w : Writer} {img : Image} (h : Canon o s) : CanonNext o (Machine.execHandover w img s) :=
  .next (.finish (h.secureWrite fun _ h => h.handoverFw))

theorem probationCmd {f : State → State} (h : Canon o s) (hf : ∀ s, Canon o s → Canon o (f s)) : Canon o (Machine.probationCmd s f).1 :=
  .iteFst (hf _ h) h

theorem execCommit {w : Writer} (h : Canon o s) : CanonNext o (Machine.execCommit w s) :=
  .next (.finish (h.secureWrite fun _ h => h.probationCmd fun _ h => h.commitFw))

theorem execRevert {w : Writer} (h : Canon o s) : CanonNext o (Machine.execRevert w s) :=
  .next (.finish (h.secureWrite fun _ h => h.probationCmd fun _ h => h.revertFw))

theorem execProbationEnd (h : Canon o s) : CanonNext o (Machine.execProbationEnd s) := .next (.ite h.commitFw h)

theorem execAppWatchdog {core : Fin 16} (h : Canon o s) : CanonNext o (Machine.execAppWatchdog core s) := .next (.ite h.frame.putErr h)

theorem execReferenceCycle (h : Canon o s) : CanonNext o (Machine.execReferenceCycle s) :=
  .next (.ite (.settleFw (.foldl (h.frame.foldl fun _ _ h => h.finishUnload) fun _ _ h => h.settleJoin)) h)

theorem injTile {t : W16} {f : Tile → Tile} (h : Canon o s) : Canon o (Machine.injTile s t f) := .ite h.modTile h

theorem injectSpad {t : W16} {addr : W32} {two : Bool} (h : Canon o s) : Canon o (Machine.injectSpad s t addr two) := .ite h.injTile h

theorem injectHbm {n : Nat} {bit : Byte} {off : W32} (h : Canon o s) : Canon o (Machine.injectHbm s n bit off) := .ite h.putStack h

theorem inject {u : W16} {target : Nat} {bit : Byte} {addr : W32} (h : Canon o s) : Canon o (Machine.inject s u target bit addr) := by
  unfold Machine.inject
  split
  exacts [h.injectSpad, h.injectSpad, h.injTile, .ite h.modTile h, .ite h.injectWeirCopy h, h.injectHbm, .ite h.putEdge h,
    .ite h.putPort h, h.freshWord.injTile, h]

theorem injectWrite {w : Writer} {u : W16} {target : Nat} {bit : Byte} {addr : W32} (h : Canon o s) :
    Canon o (Machine.injectWrite w s u target bit addr) := .finish (h.secureWrite fun _ h => h.inject)

theorem execSpad1 {w : Writer} {tile : W16} {bit : Byte} {addr : W32} (h : Canon o s) : CanonNext o (Machine.execSpad1 w tile bit addr s) :=
  .next h.injectWrite

theorem execSpad2 {w : Writer} {tile : W16} {bit : Byte} {addr : W32} (h : Canon o s) : CanonNext o (Machine.execSpad2 w tile bit addr s) :=
  .next h.injectWrite

theorem execResidue {w : Writer} {tile : W16} (h : Canon o s) : CanonNext o (Machine.execResidue w tile s) := .next h.injectWrite

theorem execMeshFlit {w : Writer} {tile : W16} {bit : Byte} (h : Canon o s) : CanonNext o (Machine.execMeshFlit w tile bit s) := .next h.injectWrite

theorem execWeirCopy {w : Writer} {tile : W16} {weir : W32} (h : Canon o s) : CanonNext o (Machine.execWeirCopy w tile weir s) := .next h.injectWrite

theorem execHbmSymbol {w : Writer} {stack : W16} {bit : Byte} {offset : W32} (h : Canon o s) :
    CanonNext o (Machine.execHbmSymbol w stack bit offset s) := .next h.injectWrite

theorem execD2dFlit {w : Writer} {edge : W16} (h : Canon o s) : CanonNext o (Machine.execD2dFlit w edge s) := .next h.injectWrite

theorem execTizalFlit {w : Writer} {port : W16} (h : Canon o s) : CanonNext o (Machine.execTizalFlit w port s) := .next h.injectWrite

theorem execCtxStore2 {w : Writer} {tile : W16} (h : Canon o s) : CanonNext o (Machine.execCtxStore2 w tile s) := .next h.injectWrite

end Canon

end Sys2Proof.Machine
end

section
/-!
PROOFS of the statement of the family '11_hbm.md', continued: power, temperature and security.
-/
namespace Sys2Proof.Machine
open Sys2Proof

namespace Canon
variable {o s t : State} {α β : Type}

/-! ## Power and temperature -/

theorem putPowerErr {cause : Byte} {sev : BitVec 2} (h : Canon o s) : Canon o (Machine.putPowerErr s cause sev) := h.freshWord.putErr

theorem alertSet {b : BitVec 6} (h : Canon o s) : Canon o (Machine.alertSet s b) := h.frame

theorem writeAlertSrc {v : W32} (h : Canon o s) : Canon o (Machine.writeAlertSrc s v) := h.frame

theorem writePowerCfg {v : W32} (h : Canon o s) : Canon o (Machine.writePowerCfg s v).1 := .iteFst h.frame h

theorem execPowerCfgWrite {w : Writer} {value : W32} (h : Canon o s) : CanonNext o (Machine.execPowerCfgWrite w value s) :=
  .next h.writePowerCfg.finish

theorem writeThermCfg {v : W32} (h : Canon o s) : Canon o (Machine.writeThermCfg s v).1 := .iteFst h.frame h

theorem execThermCfgWrite {w : Writer} {value : W32} (h : Canon o s) : CanonNext o (Machine.execThermCfgWrite w value s) :=
  .next (.finish (h.secureWrite fun _ h => h.writeThermCfg))

theorem execPowerStart {w : Writer} {f : StartFound} (h : Canon o s) : CanonNext o (Machine.execPowerStart w f s) := .next h.powerUp.setStatus

/-- Standby empties the stacks. -/
theorem holdDies (h : Canon o s) : Canon o (Machine.holdDies s) := by
  unfold Machine.holdDies
  extract_lets s1 s2 s3
  have h1 : Canon o s1 := h.foldl fun _ _ h => .ite h.setDieSt.resetHalf.resetHalf h
  have h2 : Canon o s2 := h1.foldl fun _ _ h => .ite h h.loseStack
  have h3 : Canon o s3 := h2.foldl fun _ _ h => .ite h h.setPort
  clear_value s3
  refine .settleInval ?_
  exact (h3.setHbm (m := []) fun _ => rfl).frame

theorem powerStandby (h : Canon o s) : Canon o (Machine.powerStandby s).1 := by
  unfold Machine.powerStandby
  refine .iteFst h (.iteFst h ?_)
  dsimp only
  exact .setModSt h.railsOff.holdDies

theorem execPowerStandby {w : Writer} (h : Canon o s) : CanonNext o (Machine.execPowerStandby w s) := .next h.powerStandby.finish

theorem powerLoss (h : Canon o s) : Canon o (Machine.powerLoss s) := h.moduleReset.freshWord.frame

theorem execInputLow {vin : W16} (h : Canon o s) : CanonNext o (Machine.execInputLow vin s) := .next (.ite h.frame.alertSet.putPowerErr h)

theorem execUvloFall (h : Canon o s) : CanonNext o (Machine.execUvloFall s) := .next h.powerLoss

theorem execInputOvervoltage {island : Bool} (h : Canon o s) : CanonNext o (Machine.execInputOvervoltage island s) :=
  .next (.ite h.powerLoss h.putPowerErr)

theorem execInputInRange {vin : W16} {f : StartFound} (h : Canon o s) : CanonNext o (Machine.execInputInRange vin f s) :=
  .next (.ite (.ite h.frame.boot (.ite h.frame.rampUp h.frame)) h)

theorem execRailExcursion {rail : Fin 29} (h : Canon o s) : CanonNext o (Machine.execRailExcursion rail s) :=
  .next (.ite h (.ite h.putRail.putErr.loseDie (.ite h.putRail.putErr h.powerLoss)))

theorem execRailRegulationReturn {rail : Fin 29} (h : Canon o s) : CanonNext o (Machine.execRailRegulationReturn rail s) := .next (.ite h.putRail h)

theorem execPhaseFault {rail : Fin 29} {phase : BitVec 4} (h : Canon o s) : CanonNext o (Machine.execPhaseFault rail phase s) :=
  .next (.ite (.ite h.putRail.putErr.alertSet.putErr h.putRail.putErr) h)

theorem putLimits {i : Nat} {h0 : Half} (h : Canon o s) : Canon o (Machine.putLimits s i h0) := h.putHalf

theorem evalDie {b d d0 d1 : Nat} (h : Canon o s) : Canon o (Machine.evalDie b d d0 d1 s) :=
  .ite (.ite h.putHalf.putLimits h.putHalf.putLimits) (.ite (.ite h.putHalf (.ite h.putHalf.putLimits h.putHalf.putLimits)) h.putHalf)

theorem shedLight {r : Nat} (h : Canon o s) : Canon o (Machine.shedLight s r) := .ite h (.ite h.freshWord.putRail h.putRail)

theorem evalPeak {pin : Nat} (h : Canon o s) : Canon o (Machine.evalPeak s pin) := .ite h.frame.alertSet h.frame

theorem slowAll (h : Canon o s) : Canon o (Machine.slowAll s) := h.foldl fun _ _ h => h.putLimits

theorem execBudgetEval {iin pin pFixed : W16} {demand : List (Nat × Nat)} (h : Canon o s) :
    CanonNext o (Machine.execBudgetEval iin pin pFixed demand s) := by
  refine .next (.ite h ?_)
  extract_lets p bs s1 _ s2 s3
  have h1 : Canon o s1 := h.foldl fun _ _ h => by split; exacts [h.evalDie, h]
  have h3 : Canon o s3 := h1.frame.evalPeak.foldl fun _ _ h => h.shedLight
  exact .ite h3.slowAll h3

theorem sampleDie {d : Nat} {v : Byte × Byte × Byte} (h : Canon o s) : Canon o (Machine.sampleDie s d v) := by
  unfold Machine.sampleDie
  split
  extract_lets _ _ _ _ s3 s4 _ _ s5 _ s6
  have h3 : Canon o s3 := h.modDie.putLimits.putLimits
  have h5 : Canon o s5 := .putStack (.ite h3.alertSet h3)
  have h6 : Canon o s6 := .ite h5.modDie h5
  exact .ite h6.alertSet.putErr.loseDie.modDie h6

theorem execThermalSample {dies : List (Byte × Byte × Byte)} {control : Byte} (h : Canon o s) :
    CanonNext o (Machine.execThermalSample dies control s) := by
  refine .next (.ite h ?_)
  extract_lets s1
  have h1 : Canon o s1 := h.foldl fun _ _ h => by split; exacts [h.sampleDie, h]
  exact .ite h1.putPowerErr h1

/-! ## Tokens, challenges and images -/

theorem writeRegion {e : BitVec 6} {v : BitVec 128} (h : Canon o s) : Canon o (Machine.writeRegion s e v).1 := .iteFst h h.frame

theorem execRegionWrite {w : Writer} {entry : BitVec 6} {value : BitVec 128} (h : Canon o s) :
    CanonNext o (Machine.execRegionWrite w entry value s) := .next (.finish (h.secureWrite fun _ h => h.writeRegion))

theorem stageApp {i : Image} (h : Canon o s) : Canon o (Machine.stageApp s i) := by
  unfold Machine.stageApp
  split
  exacts [h.frame.putErr, h.frame.measureChain]

theorem stageImage {i : Image} (h : Canon o s) : Canon o (Machine.stageImage s i).1 :=
  .iteFst h (.iteFst h.stageApp (.iteFst h (.ite h.frame.frame h.frame)))

theorem execImageStage {w : Writer} {img : Image} (h : Canon o s) : CanonNext o (Machine.execImageStage w img s) := .next h.stageImage.finish

theorem appCommit {v : W32} (h : Canon o s) : Canon o (Machine.appCommit s v).1 := .iteFst h (by split; exacts [h.frame, h])

theorem execAppCommit {w : Writer} {value : W32} (h : Canon o s) : CanonNext o (Machine.execAppCommit w value s) :=
  .next (.finish (h.secureWrite fun _ h => h.appCommit))

theorem writeNonce {n : BitVec 256} (h : Canon o s) : Canon o (Machine.writeNonce s n).1 := .iteFst h h.frame

theorem execAttestNonceWrite {nonce : BitVec 256} (h : Canon o s) : CanonNext o (Machine.execAttestNonceWrite nonce s) := .next h.writeNonce.finish

theorem execAttestReportReady (h : Canon o s) : CanonNext o (Machine.execAttestReportReady s) := .next h.frame

theorem newChallenge (h : Canon o s) : Canon o (Machine.newChallenge s).2 := h.freshWord.frame.frame

theorem execChallengeRead (h : Canon o s) : CanonNext o (Machine.execChallengeRead s) := .next h.newChallenge.setStatus

theorem execChallengeExpire (h : Canon o s) : CanonNext o (Machine.execChallengeExpire s) := .next (.ite h.frame h)

theorem execLockoutEnd (h : Canon o s) : CanonNext o (Machine.execLockoutEnd s) := .next (by split; exacts [.ite h.frame h, h])

theorem refuseToken {d st : Byte} (h : Canon o s) : Canon o (Machine.refuseToken s d st) := h.frame.putErr.setStatus

theorem spendChallenge {t : Token} (h : Canon o s) : Canon o (Machine.spendChallenge s t) := .ite h.frame h

theorem checkToken {t : Token} {act : State → State} (h : Canon o s) (hf : ∀ s, Canon o s → Canon o (act s)) : Canon o (Machine.checkToken s t act) :=
  .ite h.refuseToken (by split; exacts [.refuseToken (.ite h.spendChallenge h), hf _ h.spendChallenge])

theorem acceptToken (h : Canon o s) : Canon o (Machine.acceptToken s) := h.frame.setStatus

theorem newOwner {t : Token} (h : Canon o s) : Canon o (Machine.newOwner s t) := h.frame.acceptToken

theorem execTokenClaim {t : Token} (h : Canon o s) : CanonNext o (Machine.execTokenClaim t s) := .next (h.checkToken fun _ h => h.newOwner)

theorem execTokenRotate {t : Token} (h : Canon o s) : CanonNext o (Machine.execTokenRotate t s) := .next (h.checkToken fun _ h => h.newOwner)

theorem decommission (h : Canon o s) : Canon o (Machine.decommission s) := h.frame.acceptToken

theorem execTokenDecommission {t : Token} (h : Canon o s) : CanonNext o (Machine.execTokenDecommission t s) :=
  .next (h.checkToken fun _ h => h.decommission)

theorem execJtagBypass {_code : BitVec 8} (h : Canon o s) : CanonNext o (Machine.execJtagBypass _code s) := .next h.frame

theorem execJtagIdcode (h : Canon o s) : CanonNext o (Machine.execJtagIdcode s) := .next h.frame

theorem execJtagSamplePreload {pins load : W64} (h : Canon o s) : CanonNext o (Machine.execJtagSamplePreload pins load s) := .next h.frame

theorem execJtagExtest (h : Canon o s) : CanonNext o (Machine.execJtagExtest s) := .next (.ite h.frame h.frame)

end Canon

end Sys2Proof.Machine
end

section
/-!
PROOFS of the statement of the family '11_hbm.md', continued: registers, job images and the entries of the table.
-/
namespace Sys2Proof.Machine
open Sys2Proof

namespace Canon
variable {o s t : State} {α β : Type}

/-! ## Register reads -/

theorem readDist {t : W16} {k : Nat} (h : Canon o s) : Canon o (Machine.readDist s t k).1 := by
  unfold Machine.readDist
  dsimp only
  split
  exacts [h, h.freshBytes]

theorem regRead {r : Reg} {inst : Nat} (h : Canon o s) : Canon o (Machine.regRead s r inst).1 := by
  unfold Machine.regRead
  split
  exacts [h, .iteFst h (by split; exacts [h.newChallenge, h.readDist, h.csrReadAct, .iteFst (by split; exacts [h, h]) h])]

/-! ## Register writes -/

theorem freeBits {n : Nat} (h : Canon o s) : Canon o (Machine.freeBits n s).2 := h.freshWord

theorem freePairs (h : Canon o s) : Canon o (Machine.freePairs s).2 := h.frame

theorem freeDieFound (h : Canon o s) : Canon o (Machine.freeDieFound s).2 := by
  unfold Machine.freeDieFound
  exact h.freeBits.freePairs.frame

theorem freeLanes (h : Canon o s) : Canon o (Machine.freeLanes s).2 := h.frame

theorem freeStartFound (h : Canon o s) : Canon o (Machine.freeStartFound s).2 := by
  unfold Machine.freeStartFound
  split
  next f t heq =>
  have ht : Canon o t := .ofSnd heq h.freeBits
  split
  next ds u heq =>
  have hu : Canon o u := .ofSnd heq (.foldlSnd ht fun _ _ h => h.freeDieFound)
  split
  next ps v heq =>
  have hv : Canon o v := .ofSnd heq hu.freePairs
  exact hv.frame

theorem storeFlash (h : Canon o s) : Canon o (Machine.storeFlash s) := h.frame

theorem restoreFlash (h : Canon o s) : Canon o (Machine.restoreFlash s) := h.frame

theorem execStore {w : Writer} (h : Canon o s) : CanonNext o (Machine.execStore w s) := .next (.finish (h.secureWrite fun _ h => h.storeFlash))

theorem execRestore {w : Writer} (h : Canon o s) : CanonNext o (Machine.execRestore w s) := .next (.finish (h.secureWrite fun _ h => h.restoreFlash))

theorem writeDieCtl {v : W32} (h : Canon o s) : Canon o (Machine.writeDieCtl s v).1 := by
  unfold Machine.writeDieCtl
  dsimp only
  split
  exacts [.iteFst h.dieReset h, .iteFst h.freeDieFound.dieRejoin h, h.freshBit.frame.edgeRetrain, h]

theorem writeHbmCtl {n : Nat} {v : W32} (h : Canon o s) : Canon o (Machine.writeHbmCtl s n v).1 := by
  unfold Machine.writeHbmCtl
  split
  exacts [.iteFst h.freshBit.frame.recalibrate h, h.putStack, h]

theorem writeHbmCfg {n : Nat} {v : W32} (h : Canon o s) : Canon o (Machine.writeHbmCfg s n v).1 := .iteFst h h.putStack

theorem writeFwCtl {v : W32} (h : Canon o s) : Canon o (Machine.writeFwCtl s v).1 := by
  unfold Machine.writeFwCtl
  split
  exacts [h.handoverFw, h.probationCmd fun _ h => h.commitFw, h.probationCmd fun _ h => h.revertFw, h]

theorem writePowerCtl {v : W32} (h : Canon o s) : Canon o (Machine.writePowerCtl s v).1 := by
  unfold Machine.writePowerCtl
  split
  exacts [h.freeStartFound.powerUp, h.powerStandby, h]

theorem writePortCtl {p : Nat} {v : W32} (h : Canon o s) : Canon o (Machine.writePortCtl s p v) := by
  unfold Machine.writePortCtl
  split
  exacts [h.startPort, h.stopDrain, h.stopAbort, h.retrainPort, h]

theorem writeFaultCtl {d : Nat} {v : W64} (h : Canon o s) : Canon o (Machine.writeFaultCtl s d v).1 := by
  unfold Machine.writeFaultCtl
  split
  exacts [h.faultCtl, h.faultCtl, h]

theorem objCtl {v : W32} {on : Bool} {drain abort : State → State} (h : Canon o s) (hd : ∀ s, Canon o s → Canon o (drain s))
    (ha : ∀ s, Canon o s → Canon o (abort s)) : Canon o (Machine.objCtl s v on drain abort).1 := by
  unfold Machine.objCtl
  split
  exacts [.ite (hd _ h) h, .ite (ha _ h) h, h, h]

theorem writeInject {v : W64} (h : Canon o s) : Canon o (Machine.writeInject s v) := h.inject

theorem writeModSet {k : Nat} {v : W32} (h : Canon o s) : Canon o (Machine.writeModSet s k v).1 := by
  unfold Machine.writeModSet
  split
  exacts [h.frame, h.frame, h.frame, .iteFst h h.frame]

theorem writeEvent {k v : Nat} (h : Canon o s) : Canon o (Machine.writeEvent s k v) := by
  unfold Machine.writeEvent
  split
  exacts [.frame (.ite h.frame h.frame), .frame (.ite h.frame h.frame), h.frame, h.frame]

theorem writeTree {n : BitVec 10} {v : W32} (h : Canon o s) : Canon o (Machine.writeTree s n v).1 := .iteFst h h.putTree

theorem writeRing {j : BitVec 2} {v : W64} (h : Canon o s) : Canon o (Machine.writeRing s j v).1 := .iteFst h.modJob h

theorem writeJobReg {j : BitVec 2} {k : Nat} {v : W64} (h : Canon o s) : Canon o (Machine.writeJobReg s j k v).1 := by
  unfold Machine.writeJobReg
  dsimp only
  split
  exacts [h.modJob, h.modJob, .iteFst h h.modJob]

theorem writePost {j : BitVec 2} {hi : Bool} {v : BitVec 512} (h : Canon o s) : Canon o (Machine.writePost s j hi v).1 :=
  .iteFst h.modJob (.iteFst h h.modJob)

theorem writeGpost {j : BitVec 2} {k v : Nat} (h : Canon o s) : Canon o (Machine.writeGpost s j k v).1 := by
  unfold Machine.writeGpost
  dsimp only
  split
  exacts [h.writePost, h.writePost, .iteFst h.gatherPost h, h.writeReshard, h.gatherPin, h.gatherRetire, h]

theorem writeWatchReg {w : BitVec 12} {k v : Nat} (h : Canon o s) : Canon o (Machine.writeWatchReg s w k v).1 := by
  unfold Machine.writeWatchReg
  split
  exacts [h.watchCfgWrite, h.putWatch, h.putWatch, h]

theorem writeTileReg {w : Writer} {addr : Nat} {t : W16} {k v : Nat} (h : Canon o s) : Canon o (Machine.writeTileReg w addr s t k v).1 := by
  unfold Machine.writeTileReg
  dsimp only
  split
  exacts [h.writeShare, h.secureWrite fun _ h => h.modTile, h.modTile, h.modTile, h.modTile, h.modTile, h.modTile, h]

theorem writeCtxReg {t : W16} {j : BitVec 2} {k v : Nat} (h : Canon o s) : Canon o (Machine.writeCtxReg s t j k v).1 := by
  unfold Machine.writeCtxReg
  split
  exacts [h.writeCtxCtl, h.writeYield, h, .iteFst h h]

theorem writePressAll {v : W32} (h : Canon o s) : Canon o (Machine.writePressAll s v) := h.foldl fun _ _ h => h.modTile

theorem writeReachReg {w : Writer} {d : Nat} {n : BitVec 10} {k v : Nat} (h : Canon o s) : Canon o (Machine.writeReachReg w s d n k v).1 := by
  unfold Machine.writeReachReg
  split
  exacts [h.writeReachCfg, h.writeReachStride, h.objCtl (fun _ h => h.drainReach) fun _ h => h.abortReach, h.writeReachDesc,
    h.writeReachDesc, h.writeReachDesc, h.writeReachDesc, h]

theorem wholeValue {size w0 : Nat} {words : List (Nat × Nat)} (h : Canon o s) : Canon o (Machine.wholeValue size w0 words s).2 :=
  h.foldlSnd fun _ _ h => by split; exacts [h, h.freshWord]

theorem regSet {ctl : State → BitVec 2 → Nat → State × Byte} {w : Writer} {addr : Nat} {r : Reg} {inst v : Nat}
    (hf : ∀ s j n, Canon o s → Canon o (ctl s j n).1) (h : Canon o s) : Canon o (Machine.regSet ctl w addr r inst v s).1 := by
  cases r with
  | storeCmd => exact .iteFst h.storeFlash (.iteFst h.restoreFlash h)
  | event => exact h.writeEvent
  | errLog => exact .ite h.frame h
  | errCfg => exact h.frame
  | errInject => exact h.writeInject
  | fenceCtl => exact h.fenceCtl
  | fwCtl => exact h.writeFwCtl
  | nonce => exact h.writeNonce
  | appCommit => exact h.appCommit
  | region => exact h.writeRegion
  | modCfg => exact h.frame
  | dieCtl => exact h.writeDieCtl
  | modSet => exact h.writeModSet
  | inval => exact .iteFst h.writeTrnInval (.ite h.frame h)
  | gather => exact .iteFst h.frame (.iteFst h.writeGatherCtl h)
  | pubCtl => exact h.writePubCtl
  | pressAll => exact h.writePressAll
  | loss => exact .iteFst h.lossCfgWrite (.ite h.putLoss h)
  | power => exact .iteFst h.writePowerCfg (.iteFst h.writePowerCtl (.iteFst h.writeAlertSrc (.ite h.frame h)))
  | therm => exact h.writeThermCfg
  | die => exact .iteFst h.writeDieCfg (.iteFst h.writeFaultCtl (.ite h.modDie h))
  | half => exact .iteFst h.writeClkHalf h
  | stack => exact .iteFst h.writeHbmCfg (.iteFst h.writeHbmCtl h)
  | port => exact .iteFst h.portCfgBy (.ite h.writePortCtl h)
  | peer => exact h.writePeer
  | land => exact h.writeLand
  | mr => exact h.writeMr
  | roce => exact h.frame
  | job => exact .iteFst (hf _ _ _ h) (.iteFst h.writeJobReg h)
  | trn => exact .iteFst h.writeTrnRoot (.iteFst h.writeTrnView h)
  | close => exact .iteFst h.watchClose h.modJob
  | gpost => exact h.writeGpost
  | ring => exact .iteFst h.writeRing (.ite h.modJob h)
  | watch => exact h.writeWatchReg
  | tile => exact h.writeTileReg
  | ctx => exact h.writeCtxReg
  | slot => exact .iteFst h.writeSlotCfg h
  | acnt =>
    refine .iteFst h.writeAcntCfg ?_
    dsimp only
    exact h.modTile.markDue
  | hq =>
    refine .iteFst h.writeHqCfg (.iteFst ?_ h)
    exact h.objCtl (fun _ h => h.drainHq) fun _ h => h.abortHq
  | weir => exact .iteFst h h
  | stq => exact .iteFst h.writeStqCfg (.iteFst (h.objCtl (fun _ h => h.drainStq) fun _ h => h.abortStq) h)
  | reach => exact h.writeReachReg
  | tree => exact h.writeTree
  | gtree => exact h.writeGatherTree
  | shard => exact h.writeShard
  | pub => exact .iteFst h.writePubCfg (.iteFst h.writePubBase h)
  | _ => exact h

theorem regWriteWith {ctl : State → BitVec 2 → Nat → State × Byte} {w : Writer} {addr : Nat} {r : Reg} {inst v : Nat}
    (hf : ∀ s j n, Canon o s → Canon o (ctl s j n).1) (h : Canon o s) :
    Canon o (Machine.regWriteWith ctl w addr r inst v s).1 := by
  unfold Machine.regWriteWith
  split
  exacts [h, .iteFst (h.secureWrite fun _ h => .regSet hf h) (.regSet hf h)]

/-! ## Job images -/

theorem ctlInLoad {j : BitVec 2} {cmd : Nat} (h : Canon o s) : Canon o (Machine.ctlInLoad s j cmd).1 := .writeJobCtl (fun _ h => h) h

theorem regPairs {w : Writer} {ps : List (BitVec 128)} {staged : List (Nat × Nat × Nat)} (h : Canon o s) :
    CanonRes o Prod.snd id (Machine.regPairs w s ps staged) := by
  induction ps generalizing s staged with
  | nil => exact h
  | cons p ps ih =>
    refine .ite h (.ite (ih h) ?_)
    split
    exacts [h, .ite h (.ite (ih (h.wholeValue.regWriteWith fun _ _ _ h => h.ctlInLoad)) (h.wholeValue.regWriteWith fun _ _ _ h => h.ctlInLoad))]

theorem weirRec {bs : List Byte} (h : Canon o s) : CanonRes o Prod.snd id (Machine.weirRec s bs) := .ite h (.ite h.weirLoad h.weirLoad)

theorem treeRec {bs : List Byte} (h : Canon o s) : CanonRes o Prod.snd id (Machine.treeRec s bs) := by
  refine .ite h ?_
  split
  · next t heq =>
    have ht : Canon o t := .ofFst heq h.writeTree
    exact .ite ht.treeLoad ht.treeLoad
  · next t _ _ heq => exact .ofFst heq h.writeTree

theorem imageBytes {pa n : Nat} (h : Canon o s) : Canon o (Machine.imageBytes s pa n).1 := .iteFst h.hbmLoad h

theorem copyRec {l : LoadSt} {j : BitVec 2} {t : W16} {a : BitVec 24} {bs : List Byte} (h : Canon o l.st) :
    CanonRes o Prod.snd LoadSt.st (Machine.copyRec l j t a bs) := .ite h h.opndWrite

theorem tileRec {l : LoadSt} {i : Nat} {j : BitVec 2} {d : BitVec 256} {bs : List Byte} (h : Canon o l.st) :
    CanonRes o Prod.snd LoadSt.st (Machine.tileRec l i j d bs) := by
  unfold Machine.tileRec
  dsimp only
  split
  · exact Canon.ite h.putErr h
  · split
    · exact h.copyRec
    · split
      exacts [h, h.copyRec]
    · exact .ite (copyRec h) h
    · exact .ite h.modCtx h

theorem noteTile {l : LoadSt} {t : W16} (h : Canon o l.st) : Canon o (Machine.noteTile l t).st := by
  unfold Machine.noteTile
  split <;> exact h

theorem bodyRec {w : Writer} {l : LoadSt} {i : Nat} {j : BitVec 2} {d : BitVec 256} {bs : List Byte} (h : Canon o l.st) :
    CanonRes o Prod.snd LoadSt.st (Machine.bodyRec w l i j d bs) := by
  unfold Machine.bodyRec
  dsimp only
  split
  any_goals exact h.tileRec
  split
  · exact Canon.ite h.putErr h
  · split
    exacts [CanonRes.map (g := LoadSt.st) (h.regPairs.map fun _ h => h) fun _ h => Canon.noteTile h, h.weirRec.map fun _ h => h,
      h.treeRec.map fun _ h => h, h]

theorem loadRecs {w : Writer} {j : BitVec 2} {n i pa : Nat} {l : LoadSt} (h : Canon o l.st) :
    CanonRes o (fun e => e.2.2) LoadSt.st (Machine.loadRecs w j n i pa l) := by
  induction n generalizing i pa l with
  | zero => exact h
  | succ n ih =>
    unfold Machine.loadRecs
    split
    · next t heq => exact .ofFst (t := t) heq h.imageBytes
    · next t _ heq =>
      have ht : Canon o t := .ofFst heq h.imageBytes
      refine .ite ht ?_
      split
      · next u heq => exact .ofFst (t := u) heq ht.imageBytes
      · next u _ heq =>
        have hu : Canon o u := .ofFst heq ht.imageBytes
        refine .ite ?_ (.ite ?_ ?_)
        · split <;> exact hu
        · split
          exacts [hu, ih hu]
        · split
          · next hr => exact (bodyRec hu).error hr
          · next hr => exact ih ((bodyRec hu).ok hr)

theorem undoLoad {j : BitVec 2} {old new : State} (h : Canon o old) : Canon o (Machine.undoLoad j old new) := h.frame

theorem loadedTile {t : W16} {j : BitVec 2} (h : Canon o s) : Canon o (Machine.loadedTile s t j) := .ite h.modCtx.yieldFetch h.modCtx

theorem loadJob {w : Writer} {j : BitVec 2} (h : Canon o s) : Canon o (Machine.loadJob w s j).1 := by
  refine .iteFst h ?_
  extract_lets s0
  have h0 : Canon o s0 := h.setJobSt
  have hr := loadRecs (w := Machine.loadWriter w) (j := j) (n := 50331648) (i := 0) (pa := (getJob s0 j).regs.image.toNat)
    (l := { st := s0, tiles := [], pcs := [], lists := [] }) h0
  split
  · next l hl =>
    exact .setJobSt (.gResume ((hr.ok hl).foldl fun _ _ h => h.loadedTile))
  · exact h0.undoLoad.modJob.setJobSt

theorem execJobLoad {w : Writer} {job : BitVec 2} (h : Canon o s) : CanonNext o (Machine.execJobLoad w job s) := .next h.loadJob.finish

theorem jobCtl {w : Writer} {j : BitVec 2} {cmd : Nat} (h : Canon o s) : Canon o (Machine.jobCtl w s j cmd).1 := .writeJobCtl (fun _ h => h.loadJob) h

theorem regWrite {w : Writer} {index sub inst : Nat} {r : Reg} {v : Nat} (h : Canon o s) : Canon o (Machine.regWrite w index sub inst r v s).1 :=
  .regWriteWith (fun _ _ _ h => h.jobCtl) h

theorem entryWrite {w : Writer} {index sub inst v : Nat} (h : Canon o s) : Canon o (Machine.entryWrite w index sub inst v s).1 := by
  unfold Machine.entryWrite
  split
  exacts [h.regWrite, h]

theorem execRegisterWrite {w : Writer} {index : W16} {sub : BitVec 8} {inst : W16} {value : BitVec 1024} (h : Canon o s) :
    CanonNext o (Machine.execRegisterWrite w index sub inst value s) := .next h.entryWrite.finish

/-! ## Entries of the register table -/

theorem putWith {ctl : State → BitVec 2 → Nat → State × Byte} {w : Writer} {index sub inst : Nat} {bs : List Byte}
    (hf : ∀ s j n, Canon o s → Canon o (ctl s j n).1) (h : Canon o s) :
    Canon o (Machine.putWith ctl w index sub inst bs s).1 := by
  unfold Machine.putWith
  split
  · exact h
  · split
    exacts [h, .iteFst (.regWriteWith hf h) h]

theorem entryPut {w : Writer} {index sub inst : Nat} {bs : List Byte} (h : Canon o s) : Canon o (Machine.entryPut w index sub inst bs s).1 :=
  .putWith (fun _ _ _ h => h.jobCtl) h

theorem ctlAccepts {j : BitVec 2} {cmd : Nat} (h : Canon o s) : Canon o (Machine.ctlAccepts s j cmd).1 := .writeJobCtl (fun _ h => h) h

theorem putItem {i : TokItem} (h : Canon o s) : Canon o (Machine.putItem s i) := h.entryPut

theorem writeItems {t : Token} (h : Canon o s) : Canon o (Machine.writeItems t s) := by
  unfold Machine.writeItems
  dsimp only
  split
  exacts [h.refuseToken, .acceptToken (h.foldl fun _ _ h => h.putItem)]

theorem execTokenWrite {t : Token} (h : Canon o s) : CanonNext o (Machine.execTokenWrite t s) := .next (h.checkToken fun _ h => h.writeItems)

theorem runToken {t : Token} (h : Canon o s) : Canon o (Machine.runToken s t) := by
  unfold Machine.runToken
  split
  exacts [h.checkToken fun _ h => h.writeItems, h.checkToken fun _ h => h.decommission, h.checkToken fun _ h => h.newOwner]

theorem putWeirLoad {inst : Nat} {bs : List Byte} (h : Canon o s) : Canon o (Machine.putWeirLoad s inst bs).1 := .iteFst h h.weirLoad

theorem putTreeLoad {inst : Nat} {bs : List Byte} (h : Canon o s) : Canon o (Machine.putTreeLoad s inst bs).1 := .iteFst h h.treeLoad

theorem domainPut {r : Reg} {inst : Nat} {bs : List Byte} (h : Canon o s) : Canon o (Machine.domainPut r inst bs s).1 := by
  unfold Machine.domainPut
  split
  exacts [h, .iteFst h (by split; exacts [h.stageImage, h.runToken, h.writeImage, h.putWeirLoad, h.putTreeLoad, h])]

end Canon

end Sys2Proof.Machine
end

section
/-!
PROOFS of the statement of the family '11_hbm.md', continued: the management port and the windows.
-/
namespace Sys2Proof.Machine
open Sys2Proof

namespace Canon
variable {o s t : State} {α β : Type}

/-! ## Management requests -/

theorem setMgmt {f : Mgmt → Mgmt} (h : Canon o s) : Canon o (Machine.setMgmt s f) := h.frame

theorem queueMsg {m : DdpMsg} (h : Canon o s) : Canon o (Machine.queueMsg s m) := h.setMgmt

theorem hear {src : DdpSource} (h : Canon o s) : Canon o (Machine.hear s src) := h.setMgmt

theorem keep {src : DdpSource} {m : DdpMsg} (h : Canon o s) : Canon o (Machine.keep s src m) := h.setMgmt

theorem answer {q : WaitReq} {st : Byte} {value : List Byte} (h : Canon o s) : Canon o (Machine.answer s q st value) := h.queueMsg.keep

theorem journal {st : Byte} (h : Canon o s) : Canon o (Machine.journal s st) := .ite h.frame h

theorem servedWrite {r : Reg} {p : State × Byte} (h : Canon o p.1) : Canon o (Machine.servedWrite r p).1 := .iteFst h.journal h.journal

theorem serveRead {r : Reg} {inst : Nat} (h : Canon o s) : Canon o (Machine.serveRead s r inst).1 := by
  unfold Machine.serveRead
  split
  exacts [.iteFst h h.regRead, h.regRead]

theorem openSeg {q : DdpReq} {snap : Bool} {size : Nat} {parts : SMap (List Byte)} (h : Canon o s)
    (ht : Machine.openSeg s q snap size parts = some t) :
    Canon o t := by
  unfold Machine.openSeg at ht
  split at ht
  · contradiction
  · exact Option.some.inj ht ▸ h.setMgmt

theorem putSeg {q : DdpReq} {x : SegXfer} (h : Canon o s) : Canon o (Machine.putSeg s q x) := h.setMgmt

theorem closeSeg {q : DdpReq} (h : Canon o s) : Canon o (Machine.closeSeg s q) := h.setMgmt

theorem serveSegRead {q : DdpReq} {r : Reg} {len : Nat} (h : Canon o s) : Canon o (Machine.serveSegRead s q r len).1 := by
  refine .iteFst h (.iteFst h (.iteFst ?_ ?_))
  · split
    · exact h
    · split
      · exact h
      · refine .iteFst h ?_
        split
        · next ht => exact h.openSeg ht
        · exact h
  · split
    exacts [.iteFst h.putSeg h, h]

theorem serveSegStart {q : DdpReq} {r : Reg} {size : Nat} (h : Canon o s) : Canon o (Machine.serveSegStart s q r size).1 := by
  unfold Machine.serveSegStart
  split
  · exact h
  · refine .iteFst h ?_
    split
    · next ht => exact h.openSeg ht
    · exact h

theorem serveSegWrite {q : DdpReq} {bs : List Byte} (h : Canon o s) : Canon o (Machine.serveSegWrite s q bs).1 := by
  unfold Machine.serveSegWrite
  split
  exacts [.iteFst h h.putSeg, h]

theorem serveSegEnd {q : DdpReq} {r : Reg} {crc : Nat} (h : Canon o s) : Canon o (Machine.serveSegEnd s q r crc).1 := by
  unfold Machine.serveSegEnd
  split
  exacts [.iteFst h (by split; exacts [h.putSeg, .iteFst h.closeSeg h.closeSeg.domainPut.servedWrite]), h]

theorem serveSegAbort {q : DdpReq} (h : Canon o s) : Canon o (Machine.serveSegAbort s q).1 := .iteFst h.closeSeg h

theorem serve {q : WaitReq} (h : Canon o s) : Canon o (Machine.serve s q).1 := by
  refine .iteFst h ?_
  split
  · exact h
  · refine .iteFst h.serveRead (.iteFst h.entryPut.servedWrite ?_)
    exact .iteFst h (.iteFst h.serveSegRead (.iteFst h.serveSegStart (.iteFst h.serveSegWrite (.iteFst h.serveSegEnd h.serveSegAbort))))

theorem addWait {q : WaitReq} (h : Canon o s) : Canon o (Machine.addWait s q) := h.setMgmt

theorem perform {q : WaitReq} (h : Canon o s) : Canon o (Machine.perform s q) := by
  unfold Machine.perform
  dsimp only
  split
  · next t _ _ heq =>
    have ht : Canon o t := .ofFst heq h.setMgmt.serve
    exact ht.answer
  · next t heq =>
    have ht : Canon o t := .ofFst heq h.setMgmt.serve
    exact ht.addWait
  · next t heq =>
    have ht : Canon o t := .ofFst heq h.setMgmt.serve
    exact ht.setMgmt.addWait

theorem settleWait {q : WaitReq} (h : Canon o s) : Canon o (Machine.settleWait s q) :=
  .ite h.addWait (.ite (by split; exacts [.ite h.addWait h.answer, h.answer]) h.perform)

theorem settleWaits (h : Canon o s) : Canon o (Machine.settleWaits s) := h.setMgmt.foldl fun _ _ h => h.settleWait

theorem request {r : DdpReq} {op : Byte} {bytes : List Byte} (h : Canon o s) : Canon o (Machine.request s r op bytes) := by
  refine .ite h ?_
  dsimp only
  split
  · exact h.hear.settleWaits.setMgmt.queueMsg
  · split
    exacts [h.hear.settleWaits.setMgmt.queueMsg,
      .ite h.hear.settleWaits.answer (.ite (.ite h.hear.settleWaits.answer h.hear.settleWaits.addWait) h.hear.settleWaits.perform)]

theorem execDdpRead {r : DdpReq} (h : Canon o s) : CanonNext o (Machine.execDdpRead r s) := .next h.request

theorem execDdpWrite {r : DdpReq} {bytes : List Byte} (h : Canon o s) : CanonNext o (Machine.execDdpWrite r bytes s) := .next h.request

theorem execDescribe {r : DdpReq} (h : Canon o s) : CanonNext o (Machine.execDescribe r s) := .next h.request

theorem execSegRead {r : DdpReq} {len : Nat} (h : Canon o s) : CanonNext o (Machine.execSegRead r len s) := .next h.request

theorem execSegWriteStart {r : DdpReq} {size : W32} (h : Canon o s) : CanonNext o (Machine.execSegWriteStart r size s) := .next h.request

theorem execSegWrite {r : DdpReq} {bytes : List Byte} (h : Canon o s) : CanonNext o (Machine.execSegWrite r bytes s) := .next h.request

theorem execSegWriteEnd {r : DdpReq} {crc : W32} (h : Canon o s) : CanonNext o (Machine.execSegWriteEnd r crc s) := .next h.request

theorem execSegAbort {r : DdpReq} (h : Canon o s) : CanonNext o (Machine.execSegAbort r s) := .next h.request

theorem execDiscover {r : DdpReq} (h : Canon o s) : CanonNext o (Machine.execDiscover r s) := .next h.request

theorem execDroppedDatagram {_len : Nat} (h : Canon o s) : CanonNext o (Machine.execDroppedDatagram _len s) := .next (.ite h.setMgmt h)

theorem expireSegs {snap : Bool} {index : W16} {sub : BitVec 8} {inst : W16} (h : Canon o s) : Canon o (Machine.expireSegs s snap index sub inst) :=
  h.setMgmt

theorem execSegTransferTimeout {index : W16} {sub : BitVec 8} {inst : W16} (h : Canon o s) :
    CanonNext o (Machine.execSegTransferTimeout index sub inst s) := .next h.expireSegs

theorem execSnapshotExpire {index : W16} {sub : BitVec 8} {inst : W16} (h : Canon o s) : CanonNext o (Machine.execSnapshotExpire index sub inst s) :=
  .next h.expireSegs

theorem execPendingTimer (h : Canon o s) : CanonNext o (Machine.execPendingTimer s) := .next (.ite h.settleWaits.setMgmt h)

theorem execResponseCacheExpire (h : Canon o s) : CanonNext o (Machine.execResponseCacheExpire s) := .next h.setMgmt

theorem execTransmitOpportunity (h : Canon o s) : CanonNext o (Machine.execTransmitOpportunity s) :=
  .next (.ite (by dsimp only; split; exacts [h.settleWaits.setMgmt, h.settleWaits]) h)

theorem execPlcaBeacon (h : Canon o s) : CanonNext o (Machine.execPlcaBeacon s) := .next (.ite h.setMgmt h)

theorem execPlcaBeaconTimeout (h : Canon o s) : CanonNext o (Machine.execPlcaBeaconTimeout s) := .next (.ite h.setMgmt h)

theorem execDadRepeat {conflict : Bool} (h : Canon o s) : CanonNext o (Machine.execDadRepeat conflict s) := .next (.ite h.detect h)

theorem execIcmpv6Receive {m : IcmpMsg} (h : Canon o s) : CanonNext o (Machine.execIcmpv6Receive m s) :=
  .next (.ite (by split; exacts [h.setMgmt, h]) h)

theorem execEventAck {seq : W16} (h : Canon o s) : CanonNext o (Machine.execEventAck seq s) := .next (.ite h.setMgmt.pumpEvents h)

theorem resendEvent {e : Event} (h : Canon o s) : Canon o (Machine.resendEvent s e) := .ite h (.ite h.setMgmt.pumpEvents h.setMgmt.queueMsg)

theorem execEventResend {seq : W16} (h : Canon o s) : CanonNext o (Machine.execEventResend seq s) :=
  .next (.ite (by split; exacts [h.resendEvent, h]) h)

/-! ## Windows of the cores -/

theorem putWin {core : Nat} {w : WinCore} (h : Canon o s) : Canon o (Machine.putWin s core w) := h.frame

theorem complete {core : Nat} {st : Byte} (h : Canon o s) : Canon o (Machine.complete s core st) := h.putWin.setStatus

theorem winLate {core index sub inst : Nat} (h : Canon o s) : Canon o (Machine.winLate s core index sub inst) := h.putWin

theorem winOutcome {core index sub inst : Nat} {r : Reg} {st : Byte} (h : Canon o s) : Canon o (Machine.winOutcome s core index sub inst r st) :=
  .ite h.winLate h.complete

theorem bufferRefused {core : Fin 18} {pa : Nat} (h : Canon o s) : Canon o (Machine.bufferRefused s core pa) := .ite h.putErr h

theorem bufferGet {pa n : Nat} (h : Canon o s) : Canon o (Machine.bufferGet s pa n).1 := by
  unfold Machine.bufferGet
  split
  exacts [h.hbmLoad, h]

theorem bufferPut {pa : Nat} {bs : List Byte} (h : Canon o s) : Canon o (Machine.bufferPut s pa bs).1 := h.foldlFst fun _ _ h => h.hbmStore

theorem moveValue {r : Reg} {inst : Nat} (h : Canon o s) : Canon o (Machine.moveValue s r inst).1 := .iteFst (by split; exacts [h, h]) h.regRead

theorem moveRead {v : BitVec 256} {r : Reg} (h : Canon o s) : Canon o (Machine.moveRead s v r).1 := by
  unfold Machine.moveRead
  split
  · next t _ heq =>
    exact .ofFst heq h.moveValue
  · next t _ heq =>
    have ht : Canon o t := .ofFst heq h.moveValue
    exact ht.bufferPut

theorem keepPart {v : BitVec 256} {bs : List Byte} (h : Canon o s) : Canon o (Machine.keepPart s v bs) := h.setMgmt

theorem movePart {v : BitVec 256} {r : Reg} (h : Canon o s) : Canon o (Machine.movePart s v r).1 := by
  unfold Machine.movePart
  split
  exacts [h, .iteFst h.bufferGet.keepPart h.bufferGet]

theorem moveCommit {core : Fin 18} {v : BitVec 256} {r : Reg} (h : Canon o s) : Canon o (Machine.moveCommit s core v r).1 :=
  .iteFst h.movePart (by split; exacts [h.movePart, .journal (.iteFst h.movePart.setMgmt.domainPut h.movePart.setMgmt.entryPut)])

theorem move {core : Fin 18} {c : Nat} {v : BitVec 256} (h : Canon o s) : Canon o (Machine.move s core c v) := by
  refine .ite h.putWin.bufferRefused.complete ?_
  split
  · exact h.putWin.complete
  · split
    exacts [.ite h.putWin.winLate h.putWin.moveRead.complete, h.putWin.movePart.complete, h.putWin.moveCommit.winOutcome]

theorem settleWin {c : Nat} (h : Canon o s) : Canon o (Machine.settleWin s c) := by
  refine .foldl h.putWin fun _ _ h => ?_
  dsimp only
  split
  · exact h.complete
  · split
    exacts [.ite (.ite h.winLate h.moveRead.complete) (.ite h.winLate h.complete), .ite h.winLate h.complete]

theorem winDomain {core : Fin 18} {c : Nat} {v : BitVec 256} (h : Canon o s) : Canon o (Machine.winDomain s core c v) :=
  .ite h.settleWin.complete (.ite h.settleWin.complete h.settleWin.move)

theorem execWinDomainRead {core : Fin 18} {value : BitVec 256} (h : Canon o s) : CanonNext o (Machine.execWinDomainRead core value s) :=
  .next (.ite h.winDomain h)

theorem execWinDomainWrite {core : Fin 18} {value : BitVec 256} (h : Canon o s) : CanonNext o (Machine.execWinDomainWrite core value s) :=
  .next (.ite h.winDomain h)

theorem execWinDomainCommit {core : Fin 18} {value : BitVec 256} (h : Canon o s) : CanonNext o (Machine.execWinDomainCommit core value s) :=
  .next (.ite h.winDomain h)

theorem slotValue {a : BitVec 46} (h : Canon o s) : Canon o (Machine.slotValue s a).1 := by
  refine .iteFst (.iteFst h (.iteFst h h)) ?_
  split
  · exact h
  · refine .iteFst h ?_
    split
    · next t _ heq =>
      exact .ofFst heq h.regRead
    · next t _ heq =>
      exact .ofFst heq h.regRead

theorem windowLoad {core : Fin 18} {a : BitVec 46} (h : Canon o s) : Canon o (Machine.windowLoad s core a) :=
  .ite h.settleWin.slotValue.putWin h.settleWin.putWin

theorem execWindowLoad {core : Fin 18} {addr : BitVec 46} (h : Canon o s) : CanonNext o (Machine.execWindowLoad core addr s) :=
  .next (.ite h.windowLoad h)

theorem stageWord {core : Fin 18} {a : BitVec 46} {v : W64} (h : Canon o s) : Canon o (Machine.stageWord s core a v) := .ite h.complete h.putWin

theorem execWindowStoreStage {core : Fin 18} {addr : BitVec 46} {value : W64} (h : Canon o s) :
    CanonNext o (Machine.execWindowStoreStage core addr value s) := .next (.ite h.stageWord h)

theorem commitWord {core : Fin 18} {a : BitVec 46} {v : W64} (h : Canon o s) : Canon o (Machine.commitWord s core a v) := by
  unfold Machine.commitWord
  extract_lets c s1 w staged s2 i sub
  have h2 : Canon o s2 := h.settleWin.putWin
  clear_value s2 staged
  split
  · refine .ite h2.complete (.ite h2.complete (.ite h2.putWin.complete ?_))
    split
    next x t heq =>
    have ht : Canon o t := .ofSnd heq h2.wholeValue
    exact ht.winDomain
  · split
    · exact h2.complete
    · refine .ite h2.complete ?_
      split
      next x t heq =>
      have ht : Canon o t := .ofSnd heq h2.wholeValue
      split
      next u x heq =>
      have hu : Canon o u := .ofFst heq ht.regWrite
      exact hu.winOutcome

theorem execWindowStoreCommit {core : Fin 18} {addr : BitVec 46} {value : W64} (h : Canon o s) :
    CanonNext o (Machine.execWindowStoreCommit core addr value s) := .next (.ite h.commitWord h)

end Canon

end Sys2Proof.Machine
end

section
/-!
PROOFS of the statement of the family '11_hbm.md', continued: every command, and the statement.
-/
namespace Sys2Proof.Machine
open Sys2Proof

namespace Canon

/-- Every command keeps the queue and the form of the stacks' bytes; those with no arm of their own issue a slot of a bundle. -/
theorem exec {o s : State} {i : Instr} (h : Canon o s) : CanonNext o (Machine.exec i s) := by
  unfold Machine.exec
  cases i with
  | haltRetire => exact h.execHaltRetire
  | waitRelease => exact h.execWaitRelease
  | waitTimeout => exact h.execWaitTimeout
  | spinPeriodExpire => exact h.execSpinPeriodExpire
  | gaugeStallRelease => exact h.execGaugeStallRelease
  | gaugeTimeout => exact h.execGaugeTimeout
  | pressStart => exact h.execPressStart
  | engineSlotResume => exact h.execEngineSlotResume
  | slotTimeout => exact h.execSlotTimeout
  | pressResidueMismatch => exact h.execPressResidueMismatch
  | pressComplete => exact h.execPressComplete
  | cvtUnitStart => exact h.execCvtUnitStart
  | conversionComplete => exact h.execConversionComplete
  | gutterComplete => exact h.execGutterComplete
  | xposeComplete => exact h.execXposeComplete
  | wideOpStart => exact h.execWideOpStart
  | wideOpComplete => exact h.execWideOpComplete
  | widePatrol => exact h.execWidePatrol
  | folioEntryIssue => exact h.execFolioEntryIssue
  | exchBoundary => exact h.execExchBoundary
  | xchTimeout => exact h.execXchTimeout
  | routerForward => exact h.execRouterForward
  | meshFlitCrcError => exact h.execMeshFlitCrcError
  | blockWrite => exact h.execBlockWrite
  | blockSlotResume => exact h.execBlockSlotResume
  | addRound => exact h.execAddRound
  | castPrune => exact h.execCastPrune
  | prunedMarkerSend => exact h.execPrunedMarkerSend
  | markerReceive => exact h.execMarkerReceive
  | treeLoad => exact h.execTreeLoad
  | weirLoad => exact h.execWeirLoad
  | weirCounterArrival => exact h.execWeirCounterArrival
  | weirReleaseArrive => exact h.execWeirReleaseArrive
  | windowPost => exact h.execWindowPost
  | transferStart => exact h.execTransferStart
  | reachPassStart => exact h.execReachPassStart
  | transferStep => exact h.execTransferStep
  | translationWalkDone => exact h.execTranslationWalkDone
  | transferComplete => exact h.execTransferComplete
  | handlePushLand => exact h.execHandlePushLand
  | handleWindowPush => exact h.execHandleWindowPush
  | faultCtlResume => exact h.execFaultCtlResume
  | faultCtlFail => exact h.execFaultCtlFail
  | parkTimeout => exact h.execParkTimeout
  | streamBlockParkTimeout => exact h.execStreamBlockParkTimeout
  | stqDrain => exact h.execStqDrain
  | stqAbort => exact h.execStqAbort
  | reachDrain => exact h.execReachDrain
  | reachAbort => exact h.execReachAbort
  | hqDrain => exact h.execHqDrain
  | hqAbort => exact h.execHqAbort
  | drainLimitExpire => exact h.execDrainLimitExpire
  | trnRootWrite => exact h.execTrnRootWrite
  | trnInval => exact h.execTrnInval
  | hbmRequestServe => exact h.execHbmRequestServe
  | hbmWriteback => exact h.execHbmWriteback
  | hbmRefresh => exact h.execHbmRefresh
  | hbmPatrol => exact h.execHbmPatrol
  | hbmCeSummary => exact h.execHbmCeSummary
  | hbmRecal => exact h.execHbmRecal
  | hbmPatrolRestart => exact h.execHbmPatrolRestart
  | spadEccWriteback => exact h.execSpadEccWriteback
  | spadPatrol => exact h.execSpadPatrol
  | ctxStorePatrol => exact h.execCtxStorePatrol
  | watchCfgWrite => exact h.execWatchCfgWrite
  | watchReportMerge => exact h.execWatchReportMerge
  | watchClose => exact h.execWatchClose
  | watchPeerTimeout => exact h.execWatchPeerTimeout
  | lossCfgWrite => exact h.execLossCfgWrite
  | lossWindowWrite => exact h.execLossWindowWrite
  | tileShareWrite => exact h.execTileShareWrite
  | acntCfgWrite => exact h.execAcntCfgWrite
  | slotCfgWrite => exact h.execSlotCfgWrite
  | hqCfgWrite => exact h.execHqCfgWrite
  | stqCfgWrite => exact h.execStqCfgWrite
  | reachCfgWrite => exact h.execReachCfgWrite
  | contextSwitch => exact h.execContextSwitch
  | yieldMaxExpire => exact h.execYieldMaxExpire
  | switchLate => exact h.execSwitchLate
  | yieldRegWrite => exact h.execYieldRegWrite
  | jobLoad => exact h.execJobLoad
  | jobResume => exact h.execJobResume
  | jobPause => exact h.execJobPause
  | jobUnload => exact h.execJobUnload
  | jobReload => exact h.execJobReload
  | jobDiscard => exact h.execJobDiscard
  | ctxResume => exact h.execCtxResume
  | ctxRestart => exact h.execCtxRestart
  | pubCfgWrite => exact h.execPubCfgWrite
  | publish => exact h.execPublish
  | unpublish => exact h.execUnpublish
  | hold => exact h.execHold
  | release => exact h.execRelease
  | trnViewWrite => exact h.execTrnViewWrite
  | gatherPost => exact h.execGatherPost
  | gatherPassDone => exact h.execGatherPassDone
  | collRound => exact h.execCollRound
  | gatherPacketReceive => exact h.execGatherPacketReceive
  | gatherAbandonReceive => exact h.execGatherAbandonReceive
  | gatherRestartReceive => exact h.execGatherRestartReceive
  | gatherTimeout => exact h.execGatherTimeout
  | gatherStaleSummary => exact h.execGatherStaleSummary
  | gatherReshard => exact h.execGatherReshard
  | reshardLimitExpire => exact h.execReshardLimitExpire
  | gatherPin => exact h.execGatherPin
  | gatherRetire => exact h.execGatherRetire
  | gatherDrain => exact h.execGatherDrain
  | gatherAbort => exact h.execGatherAbort
  | gatherAbandon => exact h.execGatherAbandon
  | gatherResume => exact h.execGatherResume
  | gatherDrainLimitExpire => exact h.execGatherDrainLimitExpire
  | gatherTreeWrite => exact h.execGatherTreeWrite
  | shardEntryWrite => exact h.execShardEntryWrite
  | portCfgWrite => exact h.execPortCfgWrite
  | portStart => exact h.execPortStart
  | stopDrain => exact h.execStopDrain
  | stopAbort => exact h.execStopAbort
  | retrain => exact h.execRetrain
  | portTrainingDone => exact h.execPortTrainingDone
  | laneLockLoss => exact h.execLaneLockLoss
  | tzFlitReceive => exact h.execTzFlitReceive
  | tzAckTimer => exact h.execTzAckTimer
  | tzReplayTimeout => exact h.execTzReplayTimeout
  | tzReplaySummary => exact h.execTzReplaySummary
  | ctrlMessageReceive => exact h.execCtrlMessageReceive
  | peerLost => exact h.execPeerLost
  | tzPeerWrite => exact h.execTzPeerWrite
  | portAddRound => exact h.execPortAddRound
  | addLagExpire => exact h.execAddLagExpire
  | portStreamSend => exact h.execPortStreamSend
  | landReceive => exact h.execLandReceive
  | landTimeout => exact h.execLandTimeout
  | rocePacketReceive => exact h.execRocePacketReceive
  | roceWrPost => exact h.execRoceWrPost
  | roceRequestComplete => exact h.execRoceRequestComplete
  | roceRetryTimeout => exact h.execRoceRetryTimeout
  | cnpReceive => exact h.execCnpReceive
  | roceRateRecovery => exact h.execRoceRateRecovery
  | ethFrameReceive => exact h.execEthFrameReceive
  | roceMrWrite => exact h.execRoceMrWrite
  | ucieModuleLoss => exact h.execUcieModuleLoss
  | d2dLinkLockLoss => exact h.execD2dLinkLockLoss
  | dieClockLoss => exact h.execDieClockLoss
  | heartbeatTimeout => exact h.execHeartbeatTimeout
  | dieControlWatchdog => exact h.execDieControlWatchdog
  | refLoss => exact h.execRefLoss
  | dieResetCmd => exact h.execDieResetCmd
  | dieRejoinCmd => exact h.execDieRejoinCmd
  | edgeRetrain => exact h.execEdgeRetrain
  | rejoinDelayExpire => exact h.execRejoinDelayExpire
  | clockStepChange => exact h.execClockStepChange
  | modResetFall => exact h.execModResetFall
  | modResetRise => exact h.execModResetRise
  | fenceTile => exact h.execFenceTile
  | bypassRouter => exact h.execBypassRouter
  | errMergeEnd => exact h.execErrMergeEnd
  | checkerSelftest => exact h.execCheckerSelftest
  | fatalResetExpire => exact h.execFatalResetExpire
  | mgmtCheckpoint => exact h.execMgmtCheckpoint
  | mgmtWatchdog => exact h.execMgmtWatchdog
  | handover => exact h.execHandover
  | commit => exact h.execCommit
  | revert => exact h.execRevert
  | probationEnd => exact h.execProbationEnd
  | appWatchdog => exact h.execAppWatchdog
  | spad1 => exact h.execSpad1
  | spad2 => exact h.execSpad2
  | residue => exact h.execResidue
  | meshFlit => exact h.execMeshFlit
  | weirCopy => exact h.execWeirCopy
  | hbmSymbol => exact h.execHbmSymbol
  | d2dFlit => exact h.execD2dFlit
  | tizalFlit => exact h.execTizalFlit
  | ctxStore2 => exact h.execCtxStore2
  | regionWrite => exact h.execRegionWrite
  | tokenWrite => exact h.execTokenWrite
  | tokenClaim => exact h.execTokenClaim
  | tokenRotate => exact h.execTokenRotate
  | tokenDecommission => exact h.execTokenDecommission
  | challengeRead => exact h.execChallengeRead
  | challengeExpire => exact h.execChallengeExpire
  | lockoutEnd => exact h.execLockoutEnd
  | attestNonceWrite => exact h.execAttestNonceWrite
  | attestReportReady => exact h.execAttestReportReady
  | imageStage => exact h.execImageStage
  | appCommit => exact h.execAppCommit
  | jtagBypass => exact h.execJtagBypass
  | jtagIdcode => exact h.execJtagIdcode
  | jtagSamplePreload => exact h.execJtagSamplePreload
  | jtagExtest => exact h.execJtagExtest
  | ddpRead => exact h.execDdpRead
  | ddpWrite => exact h.execDdpWrite
  | describe => exact h.execDescribe
  | segRead => exact h.execSegRead
  | segWriteStart => exact h.execSegWriteStart
  | segWrite => exact h.execSegWrite
  | segWriteEnd => exact h.execSegWriteEnd
  | segAbort => exact h.execSegAbort
  | segTransferTimeout => exact h.execSegTransferTimeout
  | snapshotExpire => exact h.execSnapshotExpire
  | discover => exact h.execDiscover
  | eventAck => exact h.execEventAck
  | eventResend => exact h.execEventResend
  | pendingTimer => exact h.execPendingTimer
  | responseCacheExpire => exact h.execResponseCacheExpire
  | transmitOpportunity => exact h.execTransmitOpportunity
  | plcaBeaconTimeout => exact h.execPlcaBeaconTimeout
  | dadRepeat => exact h.execDadRepeat
  | icmpv6Receive => exact h.execIcmpv6Receive
  | store => exact h.execStore
  | restore => exact h.execRestore
  | windowLoad => exact h.execWindowLoad
  | windowStoreStage => exact h.execWindowStoreStage
  | windowStoreCommit => exact h.execWindowStoreCommit
  | winDomainRead => exact h.execWinDomainRead
  | winDomainWrite => exact h.execWinDomainWrite
  | winDomainCommit => exact h.execWinDomainCommit
  | watchImageWrite => exact h.execWatchImageWrite
  | powerStart => exact h.execPowerStart
  | powerStandby => exact h.execPowerStandby
  | powerCfgWrite => exact h.execPowerCfgWrite
  | thermCfgWrite => exact h.execThermCfgWrite
  | inputLow => exact h.execInputLow
  | uvloFall => exact h.execUvloFall
  | inputOvervoltage => exact h.execInputOvervoltage
  | railExcursion => exact h.execRailExcursion
  | phaseFault => exact h.execPhaseFault
  | budgetEval => exact h.execBudgetEval
  | thermalSample => exact h.execThermalSample
  | registerWrite => exact h.execRegisterWrite
  | inputInRange => exact h.execInputInRange
  | railRegulationReturn => exact h.execRailRegulationReturn
  | trainingFrameReceive => exact h.execTrainingFrameReceive
  | treePortLost => exact h.execTreePortLost
  | gatherWithdrawReceive => exact h.execGatherWithdrawReceive
  | referenceCycle => exact h.execReferenceCycle
  | islandSramPatrol => exact h.execIslandSramPatrol
  | plcaBeacon => exact h.execPlcaBeacon
  | priorityFlowControl => exact h.execPriorityFlowControl
  | droppedDatagram => exact h.execDroppedDatagram
  | _ => exact h.slotCmd

end Canon

/-- Settles O57: every function of the model keeps the queue and the form of the stacks' bytes, so every command does. -/
theorem memoryStaysCanonical : Obligations.MemoryStaysCanonical :=
  fun c s _ ht => (show Canon s s from ⟨rfl, id⟩).exec (i := c) _ ht

end Sys2Proof.Machine
end

section
/-!
PROOFS of the statements of the families '12_links.md' to '18_dictionary.md': what commands that end with a status answer, and reads after writes of
numbered objects.
-/
namespace Sys2Proof.Machine
open Sys2Proof

/-- A command that ends with a status answers what its function gives. -/
theorem next_finish {t : State} {st : Byte} {r : State × Byte} (h : r = (t, st)) :
    (Host.Outcome.next (finish r) : Host.Outcome State Fault Refusal) = .next { t with status := st } := by
  rw [h]
  rfl

/-! ## Fields of a word being built -/

theorem getLsbD_at' {w lo n i : Nat} (v : BitVec n) : (at' w lo v).getLsbD i = (decide (i < w) && decide (lo ≤ i) && v.getLsbD (i - lo)) := by
  rw [at', BitVec.getLsbD_ofNat, ← Nat.shiftLeft_eq, Nat.testBit_shiftLeft, BitVec.getLsbD, Bool.and_assoc]

/-- A field reads as what was put in its place. -/
theorem extractLsb'_at' {w lo n : Nat} (h : lo + n ≤ w) (v : BitVec n) : (at' w lo v).extractLsb' lo n = v := by
  refine BitVec.eq_of_getLsbD_eq fun i hi => ?_
  rw [BitVec.getLsbD_extractLsb', getLsbD_at']
  simp [hi, show lo + i < w by omega]

/-- Another field reads as 0. -/
theorem extractLsb'_at'_apart {w lo n lo' m : Nat} (h : lo + n ≤ lo' ∨ lo' + m ≤ lo) (v : BitVec n) : (at' w lo v).extractLsb' lo' m = 0 := by
  refine BitVec.eq_of_getLsbD_eq fun i hi => ?_
  rw [BitVec.getLsbD_extractLsb', getLsbD_at']
  obtain h | h := h
  · simp [BitVec.getLsbD_of_ge v (lo' + i - lo) (by omega)]
  · simp [show ¬ lo ≤ lo' + i by omega]

end Sys2Proof.Machine
end

section
/-!
PROOFS of the statement of the family '17_security.md': no counter of the monotonic region falls below what it is in a state o, and the
rules of that invariant. Each function that gives a state has one rule, which cites those of the functions it calls; only a COMMIT, the APP commit and a new
owner write a counter.
-/
namespace Sys2Proof.Machine
open Sys2Proof

/-- No counter of the monotonic region (R494) is lower in s than in o. -/
def Rises (o s : State) : Prop :=
  o.sec.svnIsland.toNat ≤ s.sec.svnIsland.toNat ∧ o.sec.svnMgmt.toNat ≤ s.sec.svnMgmt.toNat ∧ o.sec.svnDiectl.toNat ≤ s.sec.svnDiectl.toNat
  ∧ o.sec.svnApp.toNat ≤ s.sec.svnApp.toNat ∧ o.sec.keyRevoke.toNat ≤ s.sec.keyRevoke.toNat ∧ o.sec.ownerGen.toNat ≤ s.sec.ownerGen.toNat

theorem le_maxW (a b : W32) : a.toNat ≤ (maxW a b).toNat := by
  unfold maxW
  split <;> omega

namespace Rises
variable {o s t : State} {α β : Type}

/-- An update of any field but the security registers and the bytes of the stacks. -/
theorem frame (h : Rises o s)
    {mod log tiles halves dies hbmStacks net gather jobs pubs watches losses regions win mgmt fw jtag power flash status owed freeCtr} :
    Rises o { s with
      mod := mod, log := log, tiles := tiles, halves := halves, dies := dies, hbmStacks := hbmStacks, net := net, gather := gather, jobs := jobs, pubs := pubs
      watches := watches, losses := losses, regions := regions, win := win, mgmt := mgmt, fw := fw, jtag := jtag, power := power, flash := flash
      status := status, owed := owed, freeCtr := freeCtr } := h

theorem setHbm {m : SMap Byte} (h : Rises o s) : Rises o { s with hbm := m } := h

/-- An update of the security registers that are no counters. -/
theorem setSec (h : Rises o s) {owner challenge refusals lockoutAt nonce preparing reportTime report lastTokenStatus cdi2 cdi3 readyRegions} :
    Rises o { s with sec := { s.sec with
      owner := owner, challenge := challenge, refusals := refusals, lockoutAt := lockoutAt, nonce := nonce, preparing := preparing
      reportTime := reportTime, report := report, lastTokenStatus := lastTokenStatus, cdi2 := cdi2, cdi3 := cdi3, readyRegions := readyRegions } } := h

theorem refl (s : State) : Rises s s := ⟨le_rfl, le_rfl, le_rfl, le_rfl, le_rfl, le_rfl⟩

theorem trans (h : Rises o s) (k : Rises s t) : Rises o t := by
  obtain ⟨h1, h2, h3, h4, h5, h6⟩ := h
  obtain ⟨k1, k2, k3, k4, k5, k6⟩ := k
  exact ⟨h1.trans k1, h2.trans k2, h3.trans k3, h4.trans k4, h5.trans k5, h6.trans k6⟩

/-- A choice, in a state and in each part of a pair. -/
theorem ite {c : Prop} [Decidable c] (h : Rises o s) (k : Rises o t) : Rises o (if c then s else t) := by
  split <;> assumption

theorem iteFst {c : Prop} [Decidable c] {p q : State × α} (h : Rises o p.1) (k : Rises o q.1) : Rises o (if c then p else q).1 := by
  split <;> assumption

theorem iteSnd {c : Prop} [Decidable c] {p q : α × State} (h : Rises o p.2) (k : Rises o q.2) : Rises o (if c then p else q).2 := by
  split <;> assumption

/-- A step repeated along a list. -/
theorem foldl {f : State → α → State} {l : List α} (h : Rises o s) (hf : ∀ s a, Rises o s → Rises o (f s a)) : Rises o (l.foldl f s) := by
  induction l generalizing s with
  | nil => exact h
  | cons a l ih => exact ih (hf s a h)

theorem foldlFst {f : State × β → α → State × β} {l : List α} {p : State × β} (h : Rises o p.1) (hf : ∀ p a, Rises o p.1 → Rises o (f p a).1) :
    Rises o (l.foldl f p).1 := by
  induction l generalizing p with
  | nil => exact h
  | cons a l ih => exact ih (hf p a h)

theorem foldlSnd {f : β × State → α → β × State} {l : List α} {p : β × State} (h : Rises o p.2) (hf : ∀ p a, Rises o p.2 → Rises o (f p a).2) :
    Rises o (l.foldl f p).2 := by
  induction l generalizing p with
  | nil => exact h
  | cons a l ih => exact ih (hf p a h)

/-- The state that a function answers with, taken from its pair. -/
theorem ofFst {p : State × α} {x : α} (hp : p = (t, x)) (h : Rises o p.1) : Rises o t := by
  rwa [hp] at h

theorem ofSnd {p : α × State} {x : α} (hp : p = (x, t)) (h : Rises o p.2) : Rises o t := by
  rwa [hp] at h

end Rises

/-- A command's answer keeps them where it is a next state. -/
def RisesNext (o : State) (r : Host.Outcome State Fault Refusal) : Prop := ∀ t, r = .next t → Rises o t

namespace RisesNext
variable {o s : State}

theorem next (h : Rises o s) : RisesNext o (.next s) := fun _ ht => Host.Outcome.next.inj ht ▸ h

theorem onTile {t : W16} {f : State → State} (h : Rises o (f s)) : RisesNext o (Machine.onTile t s f) := by
  unfold Machine.onTile
  split
  exacts [next h, fun _ ht => nomatch ht]

theorem ite {c : Prop} [Decidable c] {x y : Host.Outcome State Fault Refusal} (h : RisesNext o x) (k : RisesNext o y) :
    RisesNext o (if c then x else y) := by
  split <;> assumption

end RisesNext

/-- An answer that is an error or a value keeps them, where f and g give the state in each. -/
def RisesRes {ε α : Type} (o : State) (f : ε → State) (g : α → State) (r : Except ε α) : Prop :=
  match r with
  | .error e => Rises o (f e)
  | .ok a => Rises o (g a)

namespace RisesRes
variable {ε α β : Type} {o : State} {f : ε → State} {g : α → State} {g' : β → State} {r q : Except ε α}

theorem ite {c : Prop} [Decidable c] (h : RisesRes o f g r) (k : RisesRes o f g q) : RisesRes o f g (if c then r else q) := by
  split <;> assumption

theorem map {k : α → β} (h : RisesRes o f g r) (hk : ∀ a, Rises o (g a) → Rises o (g' (k a))) : RisesRes o f g' (r.map k) := by
  cases r with
  | error e => exact h
  | ok a => exact hk a h

theorem error {e : ε} (h : RisesRes o f g r) (hr : r = .error e) : Rises o (f e) := by
  rwa [hr] at h

theorem ok {a : α} (h : RisesRes o f g r) (hr : r = .ok a) : Rises o (g a) := by
  rwa [hr] at h

end RisesRes

namespace Rises

/-! ## Shared operations -/

theorem freshWord (h : Rises o s) : Rises o (Machine.freshWord s).2 := h.frame

theorem freshBit (h : Rises o s) : Rises o (Machine.freshBit s).2 := h.frame

theorem freshBytes {n : Nat} (h : Rises o s) : Rises o (Machine.freshBytes n s).2 := h.frame

theorem putTile {t : W16} {x : Tile} (h : Rises o s) : Rises o (Machine.putTile s t x) := h.frame

theorem modTile {t : W16} {f : Tile → Tile} (h : Rises o s) : Rises o (Machine.modTile s t f) := h.putTile

theorem modCtx {t : W16} {j : BitVec 2} {f : Ctx → Ctx} (h : Rises o s) : Rises o (Machine.modCtx s t j f) := h.modTile

theorem putHalf {i : Nat} {x : Half} (h : Rises o s) : Rises o (Machine.putHalf s i x) := h.frame

theorem putDie {d : Nat} {x : Die} (h : Rises o s) : Rises o (Machine.putDie s d x) := h.frame

theorem modDie {d : Nat} {f : Die → Die} (h : Rises o s) : Rises o (Machine.modDie s d f) := h.putDie

theorem putStack {n : Nat} {x : Stack} (h : Rises o s) : Rises o (Machine.putStack s n x) := h.frame

theorem putJob {j : BitVec 2} {x : Job} (h : Rises o s) : Rises o (Machine.putJob s j x) := h.frame

theorem modJob {j : BitVec 2} {f : Job → Job} (h : Rises o s) : Rises o (Machine.modJob s j f) := h.putJob

theorem putPort {p : Nat} {x : Port} (h : Rises o s) : Rises o (Machine.putPort s p x) := h.frame

theorem putTree {n : BitVec 10} {x : Tree} (h : Rises o s) : Rises o (Machine.putTree s n x) := h.frame

theorem putWatch {w : BitVec 12} {x : Watch} (h : Rises o s) : Rises o (Machine.putWatch s w x) := h.frame

theorem putPub {e : Nat} {x : Pub} (h : Rises o s) : Rises o (Machine.putPub s e x) := h.frame

theorem putEdge {e : Nat} {x : Edge} (h : Rises o s) : Rises o (Machine.putEdge s e x) := h.frame

theorem putRail {r : Nat} {x : Rail} (h : Rises o s) : Rises o (Machine.putRail s r x) := h.frame

theorem setStatus {st : Byte} (h : Rises o s) : Rises o (Machine.setStatus s st) := h.frame

theorem payLate {l : Late} {st : Byte} (h : Rises o s) : Rises o (Machine.payLate s l st) := .ite h.frame h

theorem pumpEvents {n : Nat} (h : Rises o s) : Rises o (Machine.pumpEvents n s) := by
  induction n generalizing s with
  | zero => exact h
  | succ n ih =>
    unfold Machine.pumpEvents
    split
    exacts [h, .ite (ih h.frame) h]

theorem raiseEvent {kind : Nat} {obj : W16} {body : List Byte} {sev : BitVec 2} (h : Rises o s) : Rises o (Machine.raiseEvent s kind obj body sev) :=
  .ite h.frame.pumpEvents h

theorem setDieSt {d : Nat} {f : Die → Die} (h : Rises o s) : Rises o (Machine.setDieSt s d f) := h.modDie.raiseEvent

theorem setModSt {f : Mod → Mod} (h : Rises o s) : Rises o (Machine.setModSt s f) := h.frame.raiseEvent

theorem setPort {p : Nat} {f : Port → Port} (h : Rises o s) : Rises o (Machine.setPort s p f) := h.putPort.raiseEvent

theorem setJobSt {j : BitVec 2} {st : JobSt} (h : Rises o s) : Rises o (Machine.setJobSt s j st) := h.modJob.raiseEvent

theorem setStackSt {n : Nat} {f : Stack → Stack} (h : Rises o s) : Rises o (Machine.setStackSt s n f) := h.putStack.raiseEvent

theorem setFw {f : Fw → Fw} (h : Rises o s) : Rises o (Machine.setFw s f) := h.frame.raiseEvent

theorem hbmPut1 {pa : Nat} {bs : List Byte} (h : Rises o s) : Rises o (Machine.hbmPut1 s pa bs).1 := by
  refine .iteFst (.iteFst ?_ h.putStack) h
  exact h.putStack.setHbm

theorem hbmPut {pa : Nat} {bs : List Byte} (h : Rises o s) : Rises o (Machine.hbmPut s pa bs).1 := h.foldlFst fun _ _ h => h.hbmPut1

theorem hbmGet {pa n : Nat} (h : Rises o s) : Rises o (Machine.hbmGet s pa n).1 := h.foldlFst fun _ _ h => .iteFst h.putStack h

theorem ringAppend {r : ErrRec} (h : Rises o s) : Rises o (Machine.ringAppend s r) := .ite (.ite h (.ite h.hbmPut.modJob h.modJob)) h

theorem railsOff (h : Rises o s) : Rises o (Machine.railsOff s) := h.frame

theorem resetHalf {d : Nat} {h1 : Bool} (h : Rises o s) : Rises o (Machine.resetHalf s d h1) := h.putHalf

theorem stopJob {j : BitVec 2} (h : Rises o s) : Rises o (Machine.stopJob s j) := .ite h h.modJob.setJobSt

theorem fatalStop (h : Rises o s) : Rises o (Machine.fatalStop s) := by
  unfold Machine.fatalStop
  extract_lets _ s1 s2 s3 s4 _ s5
  have h1 : Rises o s1 := h.frame.railsOff
  have h2 : Rises o s2 := h1.foldl fun _ _ h => .ite h.setDieSt.frame.resetHalf.resetHalf h
  have h3 : Rises o s3 := h2.foldl fun _ _ h => .ite h h.setPort
  have h4 : Rises o s4 := h3.foldl fun _ _ h => h.setStackSt
  have h5 : Rises o s5 := h4.frame.foldl fun _ _ h => h.stopJob
  exact h5.frame.setModSt

theorem putRecord {r : ErrRec} (h : Rises o s) : Rises o (Machine.putRecord s r).1 :=
  .ite (.fatalStop (.ite h.frame.ringAppend.raiseEvent h.frame.ringAppend)) (.ite h.frame.ringAppend.raiseEvent h.frame.ringAppend)

theorem putErr1 {e : Err} (h : Rises o s) : Rises o (Machine.putErr1 s e).1 := .iteFst h.frame (.putRecord (.ite h.frame h))

theorem putErr {e : Err} (h : Rises o s) : Rises o (Machine.putErr s e) := by
  unfold Machine.putErr
  dsimp only
  split
  · refine .ite ?_ ?_
    · split
      exacts [.ite (.ite h.putErr1.putErr1 h.putErr1) (.putErr1 (.ite h.putErr1.putErr1 h.putErr1)), .ite h.putErr1.putErr1 h.putErr1]
    · split
      exacts [.putErr1 (.ite h.putErr1.putErr1 h.putErr1), .ite h.putErr1.putErr1 h.putErr1]
  · exact .ite h.putErr1.putErr1 h.putErr1

theorem hbmStore {pa : Nat} {bs : List Byte} {job : Option (BitVec 2)} (h : Rises o s) : Rises o (Machine.hbmStore s pa bs job).1 :=
  .ite h.hbmPut.putErr h.hbmPut

theorem hbmLoad {pa n : Nat} {job : Option (BitVec 2)} (h : Rises o s) : Rises o (Machine.hbmLoad s pa n job).1 := .ite h.hbmGet.putErr h.hbmGet

theorem raisePrecise {t : W16} {j : BitVec 2} {eng : Bool} {cause : Byte} {info : W64} (h : Rises o s) :
    Rises o (Machine.raisePrecise s t j eng cause info) := h.modCtx.putErr

theorem raiseDeferred {t : W16} {j : BitVec 2} {eng : Bool} {cause : Byte} {pc info : W64} {injected : Bool} (h : Rises o s) :
    Rises o (Machine.raiseDeferred s t j eng cause pc info injected) := h.modTile.putErr

theorem spadWrite {t : W16} {j : BitVec 2} {a : Nat} {bs : List Byte} (h : Rises o s) : Rises o (Machine.spadWrite s t j a bs) :=
  h.putTile.foldl fun _ _ h => h.putErr

theorem markDue {t : W16} (h : Rises o s) : Rises o (Machine.markDue s t) := h.foldl fun _ _ h => by dsimp only; split; exacts [.ite h.putTile h, h]

theorem acntAdd {t : W16} {k : Nat} {n : W64} (h : Rises o s) : Rises o (Machine.acntAdd s t k n) := h.modTile.markDue

theorem arriveCount {t : W16} {k : Nat} {j : BitVec 2} (h : Rises o s) : Rises o (Machine.arriveCount s t k j) := .ite h.acntAdd h.putErr

theorem acntMark {t : W16} {k : Nat} {cause : Byte} (h : Rises o s) : Rises o (Machine.acntMark s t k cause) := h.modTile.markDue

theorem dropHandle {die : Nat} {t : W16} {j : BitVec 2} (h : Rises o s) : Rises o (Machine.dropHandle s die t j) := h.modDie.putErr

theorem pushHandle {die : Nat} {q : BitVec 13} {t : W16} {j : BitVec 2} {h0 : W32} {src : PushSrc} (h : Rises o s) :
    Rises o (Machine.pushHandle s die q t j h0 src).1 :=
  .iteFst h (.iteFst (.iteFst (.iteFst h.putDie h.putDie) h.dropHandle) (.iteFst (.iteFst h.putTile h.putTile) h.dropHandle))

theorem slotDrain {t : W16} {k : Nat} (h : Rises o s) : Rises o (Machine.slotDrain s t k) :=
  .ite (.ite h.putTile (by dsimp only; split; exacts [h.putTile.pushHandle.modTile, h.putTile.pushHandle])) h

theorem slotFill {t : W16} {k n : Nat} (h : Rises o s) : Rises o (Machine.slotFill s t k n) :=
  .ite h.putTile (by dsimp only; split; exacts [h.putTile.pushHandle.modTile, h.putTile.pushHandle])

/-! ## Operands of the engines -/

theorem opndWrite {t : W16} {j : BitVec 2} {v : BitVec 24} {bs : List Byte} (h : Rises o s) : Rises o (Machine.opndWrite s t j v bs) := by
  unfold Machine.opndWrite
  dsimp only
  split
  exacts [h.spadWrite.slotFill, h.spadWrite]

theorem opndRewrite {t : W16} {j : BitVec 2} {v : BitVec 24} {bs : List Byte} (h : Rises o s) : Rises o (Machine.opndRewrite s t j v bs) :=
  h.spadWrite

/-! ## Transfer records -/

theorem modRec {die : Nat} {r : BitVec 9} {f : XferRec → XferRec} (h : Rises o s) : Rises o (Machine.modRec s die r f) := h.modDie

theorem parkFault {die : Nat} {r : BitVec 9} {l : Leg} {f : BitVec 3 × Bool × W64} (h : Rises o s) : Rises o (Machine.parkFault s die r l f) :=
  h.modRec.modDie.putErr

theorem settleRec {die : Nat} {r : BitVec 9} (h : Rises o s) : Rises o (Machine.settleRec s die r) :=
  .ite h (.ite (.ite h.modRec h) (by split; exacts [by split; exacts [.ite h.parkFault h, h], h]))

theorem settleInval (h : Rises o s) : Rises o (Machine.settleInval s) := .ite h.payLate h

theorem stepGone {die : Nat} {r : BitVec 9} {id : Nat} (h : Rises o s) : Rises o (Machine.stepGone s die r id) := h.modRec.frame.settleInval.settleRec

theorem stepFails {die : Nat} {r : BitVec 9} {id : Nat} {cause : Byte} {info : Option W64} (h : Rises o s) :
    Rises o (Machine.stepFails s die r id cause info) := by
  unfold Machine.stepFails
  dsimp only
  split
  exacts [h.modRec.stepGone, h]

/-! ## Packets of a port -/

theorem sendFlit {p : Nat} {typ : BitVec 2} {vl : Nat} {seq : BitVec 12} {len : Nat} {k : Option (Pkt × Nat)} (h : Rises o s) :
    Rises o (Machine.sendFlit s p typ vl seq len k) := h.putPort

theorem sendIdle {p : Nat} (h : Rises o s) : Rises o (Machine.sendIdle s p) := h.sendFlit

theorem sendPart {p : Nat} {f : TxFlit} (h : Rises o s) : Rises o (Machine.sendPart s p f) := h.sendFlit

theorem resend {p : Nat} (h : Rises o s) : Rises o (Machine.resend s p) := h.foldl fun _ _ h => h.sendPart

theorem sendLane {p : Nat} {k : Pkt} {i : Nat} {turn : Nat × Nat} (h : Rises o s) : Rises o (Machine.sendLane s p k i turn) := h.sendPart.putPort

theorem pumpPort {n p : Nat} (h : Rises o s) : Rises o (Machine.pumpPort n s p) := by
  induction n generalizing s with
  | zero => exact h
  | succ n ih =>
    refine .ite ?_ h
    split
    · split
      exacts [ih h.sendLane, h]
    · exact h

theorem pump {n : Nat} (h : Rises o s) : Rises o (Machine.pump s n) := .ite h.pumpPort.putPort h.pumpPort

theorem pushPkt {n : Nat} {k : Pkt} (h : Rises o s) : Rises o (Machine.pushPkt s n k) := .ite h.putPort.pump h

theorem sendCtrl {k : Nat} {m : CtrlMsg} (h : Rises o s) : Rises o (Machine.sendCtrl s k m) := .ite h.pushPkt h

end Rises

end Sys2Proof.Machine
end

section
/-!
PROOFS of the statement of the family '17_security.md', continued: the weirs, the exchange and the stacks.
-/
namespace Sys2Proof.Machine
open Sys2Proof

namespace Rises
variable {o s t : State} {α β : Type}

/-! ## Weirs -/

theorem onDies {ds : List Nat} {n : BitVec 12} {f : Weir → Weir} (h : Rises o s) : Rises o (Machine.onDies s ds n f) := h.foldl fun _ _ h => h.modDie

theorem putL6 {n : BitVec 12} {x : WeirL6} (h : Rises o s) : Rises o (Machine.putL6 s n x) := h.frame

theorem tellPeers {m : CtrlMsg} (h : Rises o s) : Rises o (Machine.tellPeers s m) := h.foldl fun _ _ h => h.sendCtrl

theorem sendRelease {d : Nat} {n : BitVec 12} {lost : Bool} (h : Rises o s) : Rises o (Machine.sendRelease s d n lost) :=
  .ite (.putErr (.ite h.onDies.putL6 h.onDies)) (.ite h.onDies.putL6 h.onDies)

theorem weirTest {d : Nat} {n : BitVec 12} (h : Rises o s) : Rises o (Machine.weirTest s d n) :=
  .ite h (.ite h.sendRelease (.ite h (.ite (.ite h.tellPeers.sendRelease h) h.sendCtrl)))

theorem openL6 {d : Nat} {n : BitVec 12} (h : Rises o s) : Rises o (Machine.openL6 s d n) := .ite h.putL6.weirTest h

theorem clearArrived {ds : List Nat} {n : BitVec 12} (h : Rises o s) : Rises o (Machine.clearArrived s ds n) := h.frame

theorem weirFaultSpan {d : Nat} {n : BitVec 12} (h : Rises o s) : Rises o (Machine.weirFaultSpan s d n) := h.onDies.clearArrived

theorem weirFaultAll {d : Nat} {n : BitVec 12} (h : Rises o s) : Rises o (Machine.weirFaultAll s d n) :=
  .weirFaultSpan (.ite h.putErr.frame.tellPeers h.putErr.frame)

theorem counterArrival {a : Arrival} (h : Rises o s) : Rises o (Machine.counterArrival s a) :=
  .ite h.frame (.ite h.frame.modDie.putErr (.ite h.frame.weirFaultAll (.ite h.frame h.frame.modDie.weirTest)))

theorem arriveAtCounter {die : Fin 12} {weir : BitVec 12} {tile : W16} (h : Rises o s) : Rises o (Machine.arriveAtCounter s die weir tile) := by
  unfold Machine.arriveAtCounter
  split
  exacts [.ite h.counterArrival h, h]

theorem releaseAtDie {d : Nat} {n : BitVec 12} (h : Rises o s) : Rises o (Machine.releaseAtDie s d n) := by
  unfold Machine.releaseAtDie
  dsimp only
  split
  exacts [.ite h.weirFaultAll h.modDie, h]

theorem releaseAtTile {d : Nat} {n : BitVec 12} {t : W16} (h : Rises o s) : Rises o (Machine.releaseAtTile s d n t) := .ite h.modTile h

theorem releaseArrive {die : Fin 12} {weir : BitVec 12} {tile : Option W16} (h : Rises o s) : Rises o (Machine.releaseArrive s die weir tile) := by
  unfold Machine.releaseArrive
  split
  exacts [h.releaseAtDie, h.releaseAtTile]

theorem arriveAct {t : W16} {n : BitVec 12} {h0 : BitVec 4} (h : Rises o s) : Rises o (Machine.arriveAct t n h0 s) := by
  unfold Machine.arriveAct
  dsimp only
  split
  exacts [h.modTile.frame, h.modTile]

theorem weirSeen {t : W16} {n : BitVec 12} (h : Rises o s) : Rises o (Machine.weirSeen t n s) := .ite h.modTile h

theorem releaseLost {d : Nat} {n : BitVec 12} (h : Rises o s) : Rises o (Machine.releaseLost s d n) :=
  .ite h.onDies (.sendRelease (.ite h.onDies.tellPeers h.onDies))

theorem loseMembers {lost : W16 → Bool} {gone : Nat → Bool} (h : Rises o s) : Rises o (Machine.loseMembers s lost gone) :=
  h.frame.foldl fun _ _ h => h.releaseLost

theorem orphanWeir {d : Nat} {n : BitVec 12} (h : Rises o s) : Rises o (Machine.orphanWeir s d n) :=
  .clearArrived (h.foldl fun _ _ h => .ite h h.modDie.putErr)

theorem orphanJob {j : BitVec 2} (h : Rises o s) : Rises o (Machine.orphanJob s j) :=
  .foldl (h.foldl fun _ _ h => h.orphanWeir) fun _ _ h => h.tellPeers

theorem setMembers {d : Nat} {n : BitVec 12} {ms : List W16} (h : Rises o s) : Rises o (Machine.setMembers s d n ms) :=
  h.frame.foldl fun _ _ h => h.modTile

theorem weirLoadApply {n : BitVec 12} {cfg : W32} {ms : List W16} (h : Rises o s) : Rises o (Machine.weirLoadApply s n cfg ms) := by
  unfold Machine.weirLoadApply
  extract_lets _ _ _ _ _ _ s1 s2 s3 _ s4
  have h2 : Rises o s2 := h.frame.foldl fun _ _ h => h.modDie.setMembers
  have h3 : Rises o s3 := h2.foldl fun _ _ h => h.modDie.setMembers
  exact .ite h3.putL6.tellPeers.openL6 h3

theorem weirLoad {n : BitVec 12} {cfg : W32} {ms : List W16} (h : Rises o s) : Rises o (Machine.weirLoad s n cfg ms).1 := by
  unfold Machine.weirLoad
  split
  exacts [h, h.weirLoadApply]

theorem execWeirLoad {w : Writer} {weir : BitVec 12} {cfg : W32} {members : List W16} (h : Rises o s) :
    RisesNext o (Machine.execWeirLoad w weir cfg members s) := .next h.weirLoad.setStatus

theorem injectWeirCopy {t : W16} {n : BitVec 12} (h : Rises o s) : Rises o (Machine.injectWeirCopy s t n) := h.modDie

/-! ## Blocks of the exchange -/

theorem putBlk {i : Nat} {b : Block} (h : Rises o s) : Rises o (Machine.putBlk s i b) := h.frame

theorem dropBlk {i : Nat} (h : Rises o s) : Rises o (Machine.dropBlk s i) := h.frame

theorem addBlk {b : Block} (h : Rises o s) : Rises o (Machine.addBlk s b) := h.frame

theorem addMarker {tile : W16} {acnt : BitVec 6} {cause : Byte} {job : BitVec 2} (h : Rises o s) :
    Rises o (Machine.addMarker s tile acnt cause job) := h.frame

theorem markTiles {b : Block} {ts : List W16} {cause : Byte} (h : Rises o s) : Rises o (Machine.markTiles s b ts cause) :=
  .ite h (h.foldl fun _ _ h => h.addMarker)

theorem execMarkerReceive {mk : Nat} (h : Rises o s) : RisesNext o (Machine.execMarkerReceive mk s) :=
  .next (by split; exacts [.ite h.frame.putErr h.frame.acntMark, h])

theorem clearRoutes {n : BitVec 10} (h : Rises o s) : Rises o (Machine.clearRoutes s n) := h.frame

theorem treeLoad {n : BitVec 10} {rs : List (W16 × W16)} (h : Rises o s) : Rises o (Machine.treeLoad s n rs).1 :=
  .iteFst h (.iteFst h h.clearRoutes.frame.putTree)

theorem execTreeLoad {w : Writer} {tree : BitVec 10} {routes : List (W16 × W16)} (h : Rises o s) :
    RisesNext o (Machine.execTreeLoad w tree routes s) := .next h.treeLoad.setStatus

theorem setExch {t : W16} {e : Option Exch} (h : Rises o s) : Rises o (Machine.setExch s t e) := h.modTile

theorem failExch {t : W16} {e : Exch} {cause : Byte} (h : Rises o s) : Rises o (Machine.failExch s t e cause) := h.setExch.modTile

theorem issueEntry {t : W16} {e : Exch} (h : Rises o s) : Rises o (Machine.issueEntry s t e) := by
  refine .ite h.failExch (.ite h.failExch ?_)
  split
  exacts [h.failExch, .ite h (.ite h.failExch (by split; exacts [h.failExch, .ite h (.ite h.addBlk.modTile.failExch h.addBlk.modTile.setExch)]))]

theorem exchStart {t : W16} {j : BitVec 2} {a : W64} {count : Nat} {pc : W64} (h : Rises o s) : Rises o (Machine.exchStart t j a count pc s) :=
  h.frame.modTile

theorem meetFlitFault {b : Block} {port : Nat} {q : Pos} {inp : Nat} (h : Rises o s) : Rises o (Machine.meetFlitFault s b port q inp) := by
  unfold Machine.meetFlitFault
  split
  exacts [.ite h.modTile.putErr h, h]

theorem meetEdgeFault {a b : Nat} (h : Rises o s) : Rises o (Machine.meetEdgeFault s a b) := .ite h.freshWord.putEdge h

theorem place {i : Nat} {b : Block} {q : Pos} {inp : Nat} (h : Rises o s) : Rises o (Machine.place s i b q inp) := h.putBlk

theorem hop {i : Nat} {b : Block} {port : Nat} {q : Pos} {inp : Nat} (h : Rises o s) : Rises o (Machine.hop s i b port q inp) := h.meetFlitFault.place

theorem loseBlk {i : Nat} {b : Block} {cause : Byte} (h : Rises o s) : Rises o (Machine.loseBlk s i b cause) := by
  unfold Machine.loseBlk
  split
  exacts [h.dropBlk.stepFails, h.dropBlk]

theorem dropFenced {i : Nat} {b : Block} (h : Rises o s) : Rises o (Machine.dropFenced s i b) := h.loseBlk.putErr

theorem dropLink {i : Nat} {b : Block} {ts : List W16} (h : Rises o s) : Rises o (Machine.dropLink s i b ts) := h.loseBlk.putErr.markTiles

theorem forwardUni {i : Nat} {b : Block} (h : Rises o s) : Rises o (Machine.forwardUni s i b) := by
  unfold Machine.forwardUni
  dsimp only
  split
  exacts [.ite (by split; exacts [h.putBlk, h.dropFenced]) (.ite h.hop h), h]

theorem forwardLink {i : Nat} {b : Block} {port : Nat} {sending : Bool} (h : Rises o s) : Rises o (Machine.forwardLink s i b port sending) :=
  .ite (by split; exacts [.ite h.dropFenced (.ite h (.ite h.meetEdgeFault.place h)), h]) (.ite h.place h)

theorem castSettle {i : Nat} {b : Block} (h : Rises o s) : Rises o (Machine.castSettle s i b) := .ite h.dropBlk h.putBlk

theorem forwardCast {i : Nat} {b : Block} (h : Rises o s) : Rises o (Machine.forwardCast s i b) := by
  unfold Machine.forwardCast
  dsimp only
  split
  exacts [h.meetFlitFault.addBlk.castSettle, h.castSettle]

theorem abandonRound {n : BitVec 10} {p : Pos} {ins : List (Nat × Block)} {b : Block} {who : W16} (h : Rises o s) :
    Rises o (Machine.abandonRound s n p ins b who) := .markTiles (.putErr (h.foldl fun _ _ h => h.dropBlk))

theorem runRound {n : BitVec 10} {p : Pos} {r : W16} {ins : List (Nat × Block)} {b0 : Block} (h : Rises o s) :
    Rises o (Machine.runRound s n p r ins b0) := by
  unfold Machine.runRound
  split
  · exact h.abandonRound
  · dsimp only
    split
    · exact .ite h (.addBlk (h.foldl fun _ _ h => h.dropBlk))
    · split
      exacts [.ite (.addBlk (h.meetFlitFault.foldl fun _ _ h => h.dropBlk)) h, h]
    · exact h

theorem execAddRound {tree : BitVec 10} {router : W16} (h : Rises o s) : RisesNext o (Machine.execAddRound tree router s) :=
  .next (by dsimp only; split; exacts [h, .ite h.runRound h])

theorem breakTrees {lost : W16 → Bool} {who : W16} (h : Rises o s) : Rises o (Machine.breakTrees s lost who) :=
  h.foldl fun _ _ h => .putTree (h.foldl fun _ _ h => by dsimp only; split; exacts [h.abandonRound, h])

theorem execCastPrune {blk : Nat} {port : Fin 5} (h : Rises o s) : RisesNext o (Machine.execCastPrune blk port s) :=
  .next (by split; exacts [.ite h.frame.putErr.castSettle h, h])

theorem execPrunedMarkerSend {router : W16} {tree : BitVec 10} {port : Fin 5} (h : Rises o s) :
    RisesNext o (Machine.execPrunedMarkerSend router tree port s) := .next (by dsimp only; split; exacts [.ite h.frame.markTiles h, h])

/-! ## Registers of a core -/

theorem csrReadAct {t : W16} {n : BitVec 12} (h : Rises o s) : Rises o (Machine.csrReadAct t n s) := .ite h.freshWord.modTile h

theorem csrWrite {t : W16} {j : BitVec 2} {n : BitVec 12} {v : W64} (h : Rises o s) : Rises o (Machine.csrWrite t j n v s) := by
  unfold Machine.csrWrite
  dsimp only
  split
  exacts [h.modCtx, h.modCtx, h.modCtx, h.modCtx, h.modCtx, h.modTile, h.modTile, h.modTile, h.modTile, h]

theorem fenceIAct {t : W16} (h : Rises o s) : Rises o (Machine.fenceIAct t s) := h.modTile

theorem checkFinished {j : BitVec 2} (h : Rises o s) : Rises o (Machine.checkFinished s j) := .ite h.setJobSt h

theorem checkPaused {j : BitVec 2} (h : Rises o s) : Rises o (Machine.checkPaused s j) := .ite h.setJobSt h

theorem haltAct {t : W16} {j : BitVec 2} (h : Rises o s) : Rises o (Machine.haltAct t j s) := h.modCtx.checkFinished.checkPaused

/-! ## Jobs -/

theorem mapCtx {j : BitVec 2} {f : Ctx → Ctx} (h : Rises o s) : Rises o (Machine.mapCtx s j f) := h.frame

theorem pauseJob {j : BitVec 2} (h : Rises o s) : Rises o (Machine.pauseJob s j) := .ite h.setJobSt.mapCtx.checkPaused h

theorem secureWrite {w : Writer} {addr : Nat} {f : State → State × Byte} (h : Rises o s) (hf : ∀ s, Rises o s → Rises o (f s).1) :
    Rises o (Machine.secureWrite w addr s f).1 := .iteFst (hf _ h) h.putErr

theorem dieReg {d : Nat} {f : State → State × Byte} (h : Rises o s) (hf : ∀ s, Rises o s → Rises o (f s).1) : Rises o (Machine.dieReg s d f).1 :=
  .iteFst (hf _ h) h

theorem tileReg {t : W16} {f : State → State × Byte} (h : Rises o s) (hf : ∀ s, Rises o s → Rises o (f s).1) : Rises o (Machine.tileReg s t f).1 :=
  h.dieReg fun _ h => .iteFst h (hf _ h)

theorem finish {r : State × Byte} (h : Rises o r.1) : Rises o (Machine.finish r) := h.setStatus

/-! ## Stacks -/

theorem pushReqs {n : Nat} {rs : List MemReq} (h : Rises o s) : Rises o (Machine.pushReqs s n rs) := h.putStack

theorem stepFilled {die : Fin 12} {r : BitVec 9} {id stack : Nat} (h : Rises o s) : Rises o (Machine.stepFilled s die r id stack) := by
  unfold Machine.stepFilled
  dsimp only
  split
  exacts [.ite h.stepFails (by split; exacts [.ite h.modRec.pushReqs h.stepFails, by split; exacts [h.addBlk, h.stepFails]]), h]

theorem serveReq {n : Nat} {m : MemReq} (h : Rises o s) : Rises o (Machine.serveReq s n m) := by
  refine .ite h.putErr.stepFails ?_
  split
  · dsimp only
    split
    exacts [.ite h.hbmPut1.stepGone h.hbmPut1.modRec, h.hbmPut1]
  · dsimp only
    split
    exacts [.ite (.ite h.putStack.modRec.stepFilled h.putStack.modRec) (.stepFails (.ite h.putStack.modRec h.putStack)), h.putStack]

theorem directAccess {core : Fin 18} {pa : Nat} {a : MemAccess} (h : Rises o s) : Rises o (Machine.directAccess s core pa a) :=
  .ite h.putErr.setStatus (by split; exacts [.finish (h.foldlFst fun _ _ h => h.hbmStore), by split; exacts [h.hbmLoad.frame.setStatus, h.setStatus]])

theorem execHbmRequestServe {stack : Fin 12} {direct : Option (Fin 18 × BitVec 36 × MemAccess)} (h : Rises o s) :
    RisesNext o (Machine.execHbmRequestServe stack direct s) :=
  .next (by split; exacts [.ite h h.directAccess, .ite (by split; exacts [h.putStack.serveReq, h]) h])

theorem execHbmWriteback {stack : Fin 12} (h : Rises o s) : RisesNext o (Machine.execHbmWriteback stack s) :=
  .next (by dsimp only; split; exacts [.ite h.putStack h, h])

theorem execHbmRefresh {_stack : Fin 12} {_bank : Nat} (h : Rises o s) : RisesNext o (Machine.execHbmRefresh _stack _bank s) := .next h

theorem execHbmPatrol {stack : Fin 12} (h : Rises o s) : RisesNext o (Machine.execHbmPatrol stack s) :=
  .next (.ite (.ite h.putStack h.putStack.putErr) h)

theorem execHbmCeSummary {stack : Fin 12} (h : Rises o s) : RisesNext o (Machine.execHbmCeSummary stack s) := .next (.ite h.putStack.putErr h)

theorem remapLane {n : Nat} {l : Fin 32 × Byte} (h : Rises o s) : Rises o (Machine.remapLane s n l) :=
  .ite h.freshWord.putStack.putErr h.freshWord.putStack.putErr.putErr

theorem repairRow {n row : Nat} {blks : List Nat} (h : Rises o s) : Rises o (Machine.repairRow s n row blks) :=
  .ite h.freshBit.putStack h.freshBit.putStack.putErr

theorem repairRows {n : Nat} (h : Rises o s) : Rises o (Machine.repairRows s n) := .putStack (h.foldl fun _ _ h => h.repairRow)

theorem repairStack {n : Nat} {lanes : List (Fin 32 × Byte)} (h : Rises o s) : Rises o (Machine.repairStack s n lanes) :=
  .putStack (.repairRows (h.foldl fun _ _ h => h.remapLane))

theorem failReqs {n : Nat} (h : Rises o s) : Rises o (Machine.failReqs s n) := h.putStack.foldl fun _ _ h => h.stepFails

theorem serveIssued {n : Nat} (h : Rises o s) : Rises o (Machine.serveIssued s n) := .ite h (h.foldl fun _ _ h => h.putStack.serveReq)

theorem recalibrate {n : Nat} {trained : Bool} {lanes : List (Fin 32 × Byte)} (h : Rises o s) : Rises o (Machine.recalibrate s n trained lanes) :=
  .ite h.setStackSt.serveIssued.repairStack.setStackSt h.setStackSt.serveIssued.setStackSt.failReqs.putErr

theorem execHbmRecal {w : Option Writer} {stack : Fin 12} {trained : Bool} {failing : List (Fin 32 × Byte)} (h : Rises o s) :
    RisesNext o (Machine.execHbmRecal w stack trained failing s) :=
  .next (by dsimp only; split; exacts [.finish (h.secureWrite fun _ h => h.dieReg fun _ h => .iteFst h.recalibrate h), .ite h.recalibrate h])

theorem execHbmPatrolRestart {w : Writer} {stack : Fin 12} (h : Rises o s) : RisesNext o (Machine.execHbmPatrolRestart w stack s) :=
  .next (.finish (h.secureWrite fun _ h => h.dieReg fun _ h => h.putStack))

end Rises

end Sys2Proof.Machine
end

section
/-!
PROOFS of the statement of the family '17_security.md', continued: streams and blocks.
-/
namespace Sys2Proof.Machine
open Sys2Proof

namespace Rises
variable {o s t : State} {α β : Type}

/-! ## Descriptors posted -/

theorem settleStqH {die : Nat} {q : BitVec 12} (h : Rises o s) : Rises o (Machine.settleStqH s die q) := h.modDie

theorem settleHq {t : W16} {n : Nat} (h : Rises o s) : Rises o (Machine.settleHq s t n) := h.modTile

theorem bumpOrd (h : Rises o s) : Rises o (Machine.bumpOrd s) := h.frame

theorem postDesc {die : Nat} {q : BitVec 12} {tile : W16} {job : BitVec 2} {world : Bool} {desc : BitVec 512} (h : Rises o s) :
    Rises o (Machine.postDesc s die q tile job world desc) := by
  unfold Machine.postDesc
  dsimp only
  split
  exacts [h.modDie.bumpOrd, h]

/-! ## Streams, reaches and handle queues -/

theorem readPte {job : BitVec 2} {world : Bool} {pa : Nat} (h : Rises o s) : Rises o (Machine.readPte s job world pa).1 := .iteFst h.putErr h.hbmGet

theorem walk {job : BitVec 2} {world : Bool} {view : W64} {va : Nat} {dst : Bool} (h : Rises o s) :
    Rises o (Machine.walk s job world view va dst).1 := by
  refine .iteFst h (.iteFst h.readPte ?_)
  exact .iteFst h.readPte (.iteFst h.readPte (.iteFst h.readPte.readPte (.iteFst h.readPte.readPte (.iteFst h.readPte.readPte h.readPte.readPte))))

theorem invalidate {job : BitVec 2} {first n : Nat} (h : Rises o s) : Rises o (Machine.invalidate s job first n) := h.frame

theorem writeTrnRoot {j : BitVec 2} {v : W64} (h : Rises o s) : Rises o (Machine.writeTrnRoot s j v).1 := .iteFst h (.iteFst h h.modJob.invalidate)

theorem finishInval {r : State × Byte} (h : Rises o r.1) : Rises o (Machine.finishInval r) := .ite h.frame h.finish

theorem execTrnRootWrite {w : Writer} {job : BitVec 2} {value : W64} (h : Rises o s) : RisesNext o (Machine.execTrnRootWrite w job value s) :=
  .next h.writeTrnRoot.finishInval

theorem writeTrnInval {v : W64} (h : Rises o s) : Rises o (Machine.writeTrnInval s v).1 := .iteFst h h.invalidate

theorem execTrnInval {w : Writer} {value : W64} (h : Rises o s) : RisesNext o (Machine.execTrnInval w value s) := .next h.writeTrnInval.finishInval

theorem takeHandle {die : Nat} {q : BitVec 13} {home : W16} (h : Rises o s) : Rises o (Machine.takeHandle s die q home).1 :=
  .iteFst (by dsimp only; split; exacts [h.modDie.settleStqH, h]) (by dsimp only; split; exacts [h.modTile.settleHq, h])

theorem popHandle {die n : Nat} {q : BitVec 13} {home : W16} {j : BitVec 2} (h : Rises o s) : Rises o (Machine.popHandle die q home j n s).1 := by
  induction n generalizing s with
  | zero => exact h
  | succ n ih =>
    unfold Machine.popHandle
    split
    · next t _ _ heq =>
      have ht : Rises o t := .ofFst heq h.takeHandle
      exact .iteFst ht (ih ht.dropHandle)
    · next t heq => exact .ofFst heq h.takeHandle

theorem settleViews {j : BitVec 2} (h : Rises o s) : Rises o (Machine.settleViews s j) := .modJob (h.foldl fun _ _ h => h.putPub)

theorem freeRecord {die : Nat} {r : BitVec 9} (h : Rises o s) : Rises o (Machine.freeRecord s die r) := h.modDie

theorem sweepRec {die : Nat} {r : BitVec 9} (h : Rises o s) : Rises o (Machine.sweepRec s die r) := .ite h.freeRecord h

theorem beginLeg {die : Nat} {r : BitVec 9} {desc : BitVec 512} (h : Rises o s) : Rises o (Machine.beginLeg s die r desc) := by
  refine .ite h.modRec (.ite ?_ h.modRec)
  split
  · next t _ _ heq =>
    have ht : Rises o t := .ofFst heq h.popHandle
    exact ht.modRec
  · next t heq =>
    exact .ofFst heq h.popHandle

theorem readNext {die : Nat} {r : BitVec 9} (h : Rises o s) : Rises o (Machine.readNext s die r) :=
  .ite h.modRec.putErr.sweepRec (by split; exacts [h.modRec.putErr.sweepRec, .ite h (.ite h.modRec.putErr.sweepRec h.beginLeg)])

theorem execTransferStart {die : Fin 12} {rec : BitVec 9} (h : Rises o s) : RisesNext o (Machine.execTransferStart die rec s) :=
  .next (.ite h (.ite (.ite h.beginLeg h) (.ite (.ite h.beginLeg h.readNext) h)))

theorem execReachPassStart {die : Fin 12} {reach : BitVec 10} {rec : BitVec 9} (h : Rises o s) :
    RisesNext o (Machine.execReachPassStart die reach rec s) := by
  refine .next (.ite (.ite ?_ h.modDie.bumpOrd) h)
  split
  · next t _ heq =>
    have ht : Rises o t := .ofFst heq h.popHandle
    exact ht.modDie.bumpOrd
  · next t heq =>
    exact .ofFst heq h.popHandle

theorem failNext {die : Nat} {r : BitVec 9} {l : Leg} {cause : Byte} (h : Rises o s) : Rises o (Machine.failNext s die r l cause) := h.modRec

theorem faultNext {die : Nat} {r : BitVec 9} {l : Leg} {reason : BitVec 3} {dst : Bool} {va : Nat} (h : Rises o s) :
    Rises o (Machine.faultNext s die r l reason dst va) := h.modRec.settleRec

theorem readTile {x : XferRec} {l : Leg} {off n : Nat} (h : Rises o s) : Rises o (Machine.readTile s x l off n).1 :=
  .iteFst h (.iteFst h.putErr (by split; exacts [h.putErr, by split; exacts [h.putErr, .iteFst h (.iteFst h.putErr h)]]))

theorem addStep {die : Nat} {r : BitVec 9} {l : Leg} {t : StepRec} (h : Rises o s) : Rises o (Machine.addStep s die r l t) := h.modRec.bumpOrd

theorem issueStep {die : Fin 12} {r : BitVec 9} {x : XferRec} {l : Leg} {src dst : Option (Nat × Bool)} (h : Rises o s) :
    Rises o (Machine.issueStep s die r x l src dst) := by
  unfold Machine.issueStep
  dsimp only
  split
  · exact .ite h.failNext h.addStep.pushReqs
  · split
    · next t heq =>
      exact .ofFst heq h.readTile
    · next t _ _ heq =>
      have ht : Rises o t := .ofFst heq h.readTile
      exact .ite ht.failNext (by split; exacts [by split; exacts [.ite ht.addStep.addBlk ht, ht], ht.failNext])

theorem execTransferStep {die : Fin 12} {rec : BitVec 9} (h : Rises o s) : RisesNext o (Machine.execTransferStep die rec s) := by
  refine .next ?_
  extract_lets d x pa
  split
  · refine .ite ?_ h
    extract_lets side act
    have hact {b x t} (ht : act b x = some t) : Rises o t := by
      dsimp only [act] at ht
      split at ht
      · exact Option.some.inj ht ▸ .ite h.modRec h
      · exact Option.some.inj ht ▸ h.faultNext
      · exact Option.some.inj ht ▸ h.failNext
      · contradiction
    split
    · next ht => exact hact ht
    · split
      · next ht => exact hact ht
      · exact .ite h.issueStep h
  · exact h

theorem execTranslationWalkDone {die : Fin 12} {rec : BitVec 9} {evict : Nat} (h : Rises o s) :
    RisesNext o (Machine.execTranslationWalkDone die rec evict s) := by
  refine .next ?_
  dsimp only
  split
  · split
    · refine .ite h ?_
      split
      · exact .faultNext (by split; exacts [h.walk.modRec.modDie, h.walk.modRec])
      · exact .failNext (by split; exacts [h.walk.modRec.modDie, h.walk.modRec])
      · split
        exacts [h.walk.modRec.modDie, h.walk.modRec]
    · exact h
  · exact h

theorem legDone {die : Nat} {r : BitVec 9} {n : Nat} (h : Rises o s) : Rises o (Machine.legDone s die r n) :=
  .settleViews (.ite h.modRec.freeRecord h.modRec)

theorem writeCpl {die : Nat} {r : BitVec 9} {x : XferRec} {l : Leg} (h : Rises o s) : Rises o (Machine.writeCpl s die r x l) :=
  .ite h (.ite h.putErr (by split; exacts [h.putErr, h.opndWrite]))

theorem countXfer {die : Nat} {r : BitVec 9} {x : XferRec} {l : Leg} (h : Rises o s) : Rises o (Machine.countXfer s die r x l) :=
  .ite h (.ite h.arriveCount h.putErr)

theorem passHandle {die : Fin 12} {r : BitVec 9} {x : XferRec} {l : Leg} (h : Rises o s) : Rises o (Machine.passHandle s die r x l).1 := by
  unfold Machine.passHandle
  dsimp only
  split
  exacts [.iteFst (.ite h h.dropHandle.modRec) (.iteFst h (.iteFst (.modRec (.ite h.slotDrain h)) (.iteFst h h.pushHandle.modRec))), h]

theorem completeLeg {die : Fin 12} {r : BitVec 9} {x : XferRec} {l : Leg} (h : Rises o s) : Rises o (Machine.completeLeg s die r x l) := by
  unfold Machine.completeLeg
  extract_lets s1 _ s2 s3
  have h2 : Rises o s2 := .ite h.writeCpl.putErr h.writeCpl
  have h3 : Rises o s3 := .ite h2.countXfer h2
  split
  · next t heq =>
    have ht : Rises o t := .ofFst heq h3.passHandle
    exact ht.modRec
  · next t _ _ heq =>
    have ht : Rises o t := .ofFst heq h3.passHandle
    exact ht.legDone

theorem execTransferComplete {die : Fin 12} {rec : BitVec 9} (h : Rises o s) : RisesNext o (Machine.execTransferComplete die rec s) :=
  .next (by dsimp only; split; exacts [.ite h.completeLeg h, h])

theorem pushReleased {p : HeldPush} (h : Rises o s) : Rises o (Machine.pushReleased s p) := by
  unfold Machine.pushReleased
  split
  · exact .ite h.modTile.slotDrain h.modTile
  · split
    exacts [h.legDone, h]
  · exact h

theorem execHandlePushLand {die : Fin 12} {queue : BitVec 13} {tile : W16} (h : Rises o s) :
    RisesNext o (Machine.execHandlePushLand die queue tile s) :=
  .next (.ite (by dsimp only; split; exacts [.ite h.modDie.pushReleased h, h]) (by dsimp only; split; exacts [.ite h.modTile.pushReleased h, h]))

theorem execHandleWindowPush {w : Writer} {die : Fin 12} {queue : BitVec 13} {tile : W16} {handle : W32} (h : Rises o s) :
    RisesNext o (Machine.execHandleWindowPush w die queue tile handle s) := .next h.pushHandle.setStatus

theorem resumeRec {die : Nat} {r : BitVec 9} (h : Rises o s) : Rises o (Machine.resumeRec s die r) := h.modRec

theorem failParked {die : Nat} {r : BitVec 9} {cause : Byte} (h : Rises o s) : Rises o (Machine.failParked s die r cause) := h.modRec

theorem resolveXfer {die : Nat} {r : BitVec 9} {resume : Bool} (h : Rises o s) : Rises o (Machine.resolveXfer s die r resume) :=
  .ite h.modRec (.ite h.resumeRec h.failParked)

theorem execParkTimeout {die : Fin 12} {rec : BitVec 9} (h : Rises o s) : RisesNext o (Machine.execParkTimeout die rec s) :=
  .next (.ite h.failParked h)

theorem execStreamBlockParkTimeout {blk : Nat} (h : Rises o s) : RisesNext o (Machine.execStreamBlockParkTimeout blk s) :=
  .next (by split; exacts [by split; exacts [.ite h.loseBlk.putErr h, h], h])

theorem abortRec {die : Nat} {r : BitVec 9} {cause : Byte} (h : Rises o s) : Rises o (Machine.abortRec s die r cause) := h.modRec

theorem abortRecs {die : Nat} {rs : List (BitVec 9)} {cause : Byte} (h : Rises o s) : Rises o (Machine.abortRecs s die rs cause) :=
  h.foldl fun _ _ h => h.abortRec.sweepRec

theorem dropHeld {die : Nat} {t : W16} {ps : List HeldPush} (h : Rises o s) : Rises o (Machine.dropHeld s die t ps) :=
  h.foldl fun _ _ h => h.dropHandle.pushReleased

theorem abortStq {die : Nat} {q : BitVec 12} (h : Rises o s) : Rises o (Machine.abortStq s die q) :=
  .ite h.modDie.abortRecs.modDie (.dropHeld (h.modDie.foldl fun _ _ h => h.dropHandle))

theorem drainStq {die : Nat} {q : BitVec 12} (h : Rises o s) : Rises o (Machine.drainStq s die q) := h.modDie.dropHeld.modDie.settleStqH

theorem abortReach {die : Nat} {n : BitVec 10} {cause : Byte} (h : Rises o s) : Rises o (Machine.abortReach s die n cause) :=
  h.modDie.abortRecs.modDie

theorem drainReach {die : Nat} {n : BitVec 10} (h : Rises o s) : Rises o (Machine.drainReach s die n) := h.modDie

theorem abortHq {t : W16} {n : Nat} (h : Rises o s) : Rises o (Machine.abortHq s t n) := .dropHeld (h.modTile.foldl fun _ _ h => h.dropHandle)

theorem drainHq {t : W16} {n : Nat} (h : Rises o s) : Rises o (Machine.drainHq s t n) := h.modTile.dropHeld.settleHq

theorem execStqDrain {w : Writer} {die : Fin 12} {qid : BitVec 12} (h : Rises o s) : RisesNext o (Machine.execStqDrain w die qid s) :=
  .next (.finish (h.dieReg fun _ h => .ite h.drainStq h))

theorem execStqAbort {w : Writer} {die : Fin 12} {qid : BitVec 12} (h : Rises o s) : RisesNext o (Machine.execStqAbort w die qid s) :=
  .next (.finish (h.dieReg fun _ h => .ite h.abortStq h))

theorem execReachDrain {w : Writer} {die : Fin 12} {reach : BitVec 10} (h : Rises o s) : RisesNext o (Machine.execReachDrain w die reach s) :=
  .next (.finish (h.dieReg fun _ h => .ite h.drainReach h))

theorem execReachAbort {w : Writer} {die : Fin 12} {reach : BitVec 10} (h : Rises o s) : RisesNext o (Machine.execReachAbort w die reach s) :=
  .next (.finish (h.dieReg fun _ h => .ite h.abortReach h))

theorem execHqDrain {w : Writer} {tile : W16} {hq : BitVec 3} (h : Rises o s) : RisesNext o (Machine.execHqDrain w tile hq s) :=
  .onTile (.finish (h.tileReg fun _ h => .ite h.drainHq h))

theorem execHqAbort {w : Writer} {tile : W16} {hq : BitVec 3} (h : Rises o s) : RisesNext o (Machine.execHqAbort w tile hq s) :=
  .onTile (.finish (h.tileReg fun _ h => .ite h.abortHq h))

theorem drainLimit {die : Nat} (h : Rises o s) : Rises o (Machine.drainLimit s die) :=
  .foldl (.foldl (h.foldl fun _ _ h => h.abortStq) fun _ _ h => h.abortReach) fun _ _ h => h.foldl fun _ _ h => h.abortHq

theorem execWindowPost {w : Writer} {die : Fin 12} {qid : BitVec 12} {desc : BitVec 512} (h : Rises o s) :
    RisesNext o (Machine.execWindowPost w die qid desc s) := .next (.finish (by split; exacts [h, .iteFst h h.postDesc]))

/-! ## Blocks at routers and trees -/

theorem blockCounts {t : W16} {b : Block} (h : Rises o s) : Rises o (Machine.blockCounts s t b) := by
  unfold Machine.blockCounts
  dsimp only
  split
  exacts [.stepGone (.ite h.arriveCount h), .ite h.arriveCount h]

theorem copyGone {i : Nat} {b : Block} (h : Rises o s) : Rises o (Machine.copyGone s i b) := .ite h.castSettle h.dropBlk

theorem blockRefused {t : W16} {i : Nat} {b : Block} {cause : Byte} (h : Rises o s) : Rises o (Machine.blockRefused s t i b cause) := by
  unfold Machine.blockRefused
  dsimp only
  split
  exacts [h.modTile.putErr.dropBlk.stepFails, h.modTile.putErr.copyGone]

theorem badBlock {t : W16} {i : Nat} {b : Block} {bad : Nat} (h : Rises o s) : Rises o (Machine.badBlock s t i b bad) :=
  .markTiles (.copyGone (.ite h.freshWord h.freshWord.opndWrite))

theorem deliver {t : W16} {i : Nat} {b : Block} (h : Rises o s) : Rises o (Machine.deliver s t i b) := by
  refine .ite (.ite h.putErr.copyGone h.loseBlk.putErr) (.ite h.putBlk ?_)
  split
  exacts [h.blockRefused, .ite h.blockRefused (.ite h.putBlk (by split; exacts [h.badBlock, h.meetFlitFault.opndWrite.blockCounts.copyGone]))]

theorem execBlockWrite {blk : Nat} (h : Rises o s) : RisesNext o (Machine.execBlockWrite blk s) :=
  .next (by split; exacts [by split; exacts [.ite h.deliver h, h], h])

theorem execBlockSlotResume {blk : Nat} (h : Rises o s) : RisesNext o (Machine.execBlockSlotResume blk s) :=
  .next (by split; exacts [by split; exacts [.ite h.deliver h, h], h])

theorem landInMemory {i : Nat} {b : Block} {stack : Nat} (h : Rises o s) : Rises o (Machine.landInMemory s i b stack) := by
  unfold Machine.landInMemory
  split
  · dsimp only
    split
    exacts [.ite h.dropBlk.modRec.pushReqs h.dropBlk.stepFails, h.dropBlk]
  · exact h.dropBlk

theorem enterMesh {i : Nat} {b : Block} (h : Rises o s) : Rises o (Machine.enterMesh s i b) := .ite h.putBlk h

theorem enterPort {i : Nat} {b : Block} (h : Rises o s) : Rises o (Machine.enterPort s i b) := .ite h h.dropBlk.pushPkt

theorem castClosed {i : Nat} {b : Block} (h : Rises o s) (ht : Machine.castClosed s i b = some t) : Rises o t := by
  unfold Machine.castClosed at ht
  obtain ⟨p, -, rfl⟩ := Option.map_eq_some_iff.mp ht
  exact .castSettle (.ite h.putErr h.putErr.markTiles)

theorem execRouterForward {blk : Nat} (h : Rises o s) : RisesNext o (Machine.execRouterForward blk s) := by
  refine .next ?_
  split
  · next b _ =>
    refine .ite h.enterMesh ?_
    split
    · exact h.forwardLink
    · split
      · cases hc : Machine.castClosed s blk b with
        | none => exact h.forwardCast
        | some t => exact h.castClosed hc
      · exact .ite h.landInMemory h.forwardUni
      · exact .ite h (.ite h.enterPort h.forwardUni)
      · exact .ite (.ite h h.enterPort) h.forwardUni
      · exact .ite (.ite h h.enterPort) h.forwardUni
  · exact h

theorem flitError {blk : Nat} {b : Block} {again : Bool} (h : Rises o s) : Rises o (Machine.flitError s blk b again) :=
  .ite h.putErr.frame.loseBlk.putErr.markTiles h.putErr

end Rises

end Sys2Proof.Machine
end

section
/-!
PROOFS of the statement of the family '17_security.md', continued: the engines of a tile and the watch.
-/
namespace Sys2Proof.Machine
open Sys2Proof

namespace Rises
variable {o s t : State} {α β : Type}

/-! ## Vector results -/

theorem satNote {t : W16} {pos neg : Nat} (h : Rises o s) : Rises o (Machine.satNote t pos neg s) := .ite h h.modTile

/-! ## Formats -/

theorem noteConv {t : W16} {c : ConvOut} (h : Rises o s) : Rises o (Machine.noteConv t c s) := .ite h.satNote h.satNote.modTile

theorem noteT2 {t : W16} {bad : Bool} (h : Rises o s) : Rises o (Machine.noteT2 t bad s) := .ite h.modTile h

/-! ## Engine slots -/

theorem excPrecise {t : W16} {j : BitVec 2} {eng : Bool} {cause : Byte} {info : W64} (h : Rises o s) :
    Rises o (Machine.excPrecise s t j eng cause info) := h.raisePrecise.checkPaused

theorem excDeferred {t : W16} {j : BitVec 2} {eng : Bool} {cause : Byte} {pc info : W64} {injected : Bool} (h : Rises o s) :
    Rises o (Machine.excDeferred s t j eng cause pc info injected) := h.raiseDeferred.checkPaused

theorem setHead {t : W16} {u : EngUnit} {o0 : EngOp} (h : Rises o s) : Rises o (Machine.setHead s t u o0) := h.modTile

theorem popHead {t : W16} {u : EngUnit} (h : Rises o s) : Rises o (Machine.popHead s t u) := h.modTile

theorem opFails {t : W16} {o0 : EngOp} {cause : Byte} (h : Rises o s) : Rises o (Machine.opFails s t o0 cause) := h.modTile.excDeferred

theorem autoDrain {t : W16} {rs : List Rgn} (h : Rises o s) : Rises o (Machine.autoDrain s t rs) := h.foldl fun _ _ h => .ite h.slotDrain h

theorem rgnPut {t : W16} {j : BitVec 2} {inPlace : Bool} {v : BitVec 24} {bs : List Byte} (h : Rises o s) :
    Rises o (Machine.rgnPut s t j inPlace v bs) := .ite h.opndRewrite h.opndWrite

theorem sendReport {t : W16} {o0 : EngOp} {en : Bool} {widx : BitVec 12} {bound : Option Int} {sats : Nat} {nonzero : Bool} (h : Rises o s) :
    Rises o (Machine.sendReport s t o0 en widx bound sats nonzero) := .ite (by split; exacts [h.frame, h]) h

theorem opDone {t : W16} {o0 : EngOp} {rs : List Rgn} (h : Rises o s) : Rises o (Machine.opDone s t o0 rs) :=
  .ite h.popHead.autoDrain.arriveCount h.popHead.autoDrain

theorem opStarts {t : W16} {o0 : EngOp} {rs : List Rgn} (h : Rises o s) : Rises o (Machine.opStarts s t o0 rs) := .setHead (.ite h.modCtx h)

theorem tryStart {t : W16} {o0 : EngOp} {rs : List Rgn} {free : Bool} {causes : List Byte} {strips : List (Rgn × Bool)} (h : Rises o s) :
    Rises o (Machine.tryStart s t o0 rs free causes strips) := .ite h (by split; exacts [h.opFails, .ite h.setHead h.opStarts])

theorem execSlotTimeout {tile : W16} {unit : EngUnit} (h : Rises o s) : RisesNext o (Machine.execSlotTimeout tile unit s) :=
  .onTile (by split; exacts [by dsimp only; split; exacts [.ite h.opFails h, h], h])

/-! ## Press commands -/

theorem notePress {t : W16} {bits : W32} (h : Rises o s) : Rises o (Machine.notePress t bits s) := .ite h h.modTile

theorem putIf {b : Bool} {t : W16} {j : BitVec 2} {inPlace : Bool} {v : BitVec 24} {bs : List Byte} (h : Rises o s) :
    Rises o (Machine.putIf b t j inPlace v bs s) := .ite h.rgnPut h

theorem pressWrite {t : W16} {o0 : EngOp} {p : PressCmd} {x : Tile} {rows : List OutRow} (h : Rises o s) :
    Rises o (Machine.pressWrite s t o0 p x rows) := h.putIf.putIf.putIf.putIf.notePress.satNote

theorem pressCvtWrite {t : W16} {o0 : EngOp} {p : PressCmd} {cv : ConvOut} (h : Rises o s) : Rises o (Machine.pressCvtWrite s t o0 p cv) :=
  .noteConv (.ite h.opndWrite.opndWrite (.ite h.opndWrite.spadWrite h.opndWrite))

theorem pressFinish {t : W16} {o0 : EngOp} (h : Rises o s) : Rises o (Machine.pressFinish s t o0) :=
  .ite h.opFails (.opDone (.sendReport (by split; exacts [h.pressWrite.noteT2.pressCvtWrite, h.pressWrite.noteT2])))

theorem pressTry {t : W16} (h : Rises o s) : Rises o (Machine.pressTry s t) := by
  unfold Machine.pressTry
  split
  exacts [h.tryStart, h]

theorem execPressStart {tile : W16} (h : Rises o s) : RisesNext o (Machine.execPressStart tile s) := .onTile h.pressTry

theorem noteFail {t : W16} (h : Rises o s) : Rises o (Machine.noteFail s t) := h.modTile

theorem stopT2 {t : W16} {p : PressCmd} {n : Nat} (h : Rises o s) : Rises o (Machine.stopT2 s t p n) := .ite h.noteT2 (.ite h.freshBit.noteT2 h)

theorem pressStop {t : W16} {o0 : EngOp} {blocks : Nat} {injected : Bool} (h : Rises o s) : Rises o (Machine.pressStop s t o0 blocks injected) := by
  unfold Machine.pressStop
  extract_lets _ _ _ s1 _ s2 s3
  have h2 : Rises o s2 := .ite h.stopT2 h.stopT2.pressWrite
  have h3 : Rises o s3 := .ite h2.pressCvtWrite h2
  exact h3.notePress.noteFail.opFails

theorem markInjected {t : W16} {o0 : EngOp} {injected : Bool} (h : Rises o s) : Rises o (Machine.markInjected s t o0 injected) := h.setHead.modTile

theorem residueMismatch {tile : W16} {replayPasses : Bool} {rowBlocks : Nat} (h : Rises o s) :
    Rises o (Machine.residueMismatch tile replayPasses rowBlocks s) := by
  unfold Machine.residueMismatch
  split
  exacts [.ite (.ite h.markInjected.notePress.modTile.setHead.putErr h.markInjected.notePress.modTile.pressStop) h, h]

theorem pressDone {tile : W16} (h : Rises o s) : Rises o (Machine.pressDone tile s) := by
  unfold Machine.pressDone
  split
  exacts [.ite (.ite (by dsimp only; split; exacts [.ite h.residueMismatch.pressFinish h.residueMismatch, h.residueMismatch]) h.pressFinish) h,
    h]

/-! ## Conversions, gutters and transposes -/

theorem cvtWrite {t : W16} {o0 : EngOp} {p : CvtCmd} {c : ConvOut} (h : Rises o s) : Rises o (Machine.cvtWrite s t o0 p c) :=
  .noteConv (.ite h.opndWrite.opndWrite (.ite h.opndWrite.spadWrite h.opndWrite))

theorem cvtFinish {t : W16} {o0 : EngOp} (h : Rises o s) : Rises o (Machine.cvtFinish s t o0) := .ite h.opFails h.cvtWrite.noteT2.sendReport.opDone

theorem gutFinish {t : W16} {o0 : EngOp} (h : Rises o s) : Rises o (Machine.gutFinish s t o0) :=
  .ite h.opFails h.opndRewrite.opndRewrite.satNote.sendReport.opDone

theorem xposeFinish {t : W16} {o0 : EngOp} (h : Rises o s) : Rises o (Machine.xposeFinish s t o0) := .ite h.opFails h.opndWrite.opDone

theorem convTry {t : W16} (h : Rises o s) : Rises o (Machine.convTry s t) := by
  unfold Machine.convTry
  split
  · dsimp only
    split
    exacts [h.tryStart, h.tryStart, h.tryStart, h]
  · exact h

theorem execCvtUnitStart {tile : W16} (h : Rises o s) : RisesNext o (Machine.execCvtUnitStart tile s) := .onTile h.convTry

theorem execConversionComplete {tile : W16} (h : Rises o s) : RisesNext o (Machine.execConversionComplete tile s) :=
  .onTile (by split; exacts [h.cvtFinish, h])

theorem execGutterComplete {tile : W16} (h : Rises o s) : RisesNext o (Machine.execGutterComplete tile s) :=
  .onTile (by split; exacts [h.gutFinish, h])

theorem execXposeComplete {tile : W16} (h : Rises o s) : RisesNext o (Machine.execXposeComplete tile s) :=
  .onTile (by split; exacts [h.xposeFinish, h])

/-! ## The watch -/

theorem clearAcc {w : BitVec 12} (h : Rises o s) : Rises o (Machine.clearAcc s w) := h.frame

theorem uncover {w : BitVec 12} (h : Rises o s) : Rises o (Machine.uncover s w) := h.frame

theorem watchCfgWrite {w : BitVec 12} {v : W32} (h : Rises o s) : Rises o (Machine.watchCfgWrite s w v).1 :=
  .iteFst h (.iteFst h.putWatch.uncover.clearAcc (.putWatch (.ite h h.uncover)))

theorem execWatchCfgWrite {w : Writer} {widx : BitVec 12} {value : W32} (h : Rises o s) : RisesNext o (Machine.execWatchCfgWrite w widx value s) :=
  .next h.watchCfgWrite.finish

theorem putLoss {m : BitVec 3} {x : Loss} (h : Rises o s) : Rises o (Machine.putLoss s m x) := h.frame

theorem lossCfgWrite {m : BitVec 3} {v : W32} (h : Rises o s) : Rises o (Machine.lossCfgWrite s m v).1 := .iteFst h (.iteFst h.putLoss h.putLoss)

theorem execLossCfgWrite {w : Writer} {mon : BitVec 3} {value : W32} (h : Rises o s) : RisesNext o (Machine.execLossCfgWrite w mon value s) :=
  .next h.lossCfgWrite.finish

theorem restoreWatch {r : BitVec 768} (h : Rises o s) : Rises o (Machine.restoreWatch s r) := .putWatch (.ite h.uncover h.uncover.clearAcc)

theorem restoreLoss {r : BitVec 512} (h : Rises o s) : Rises o (Machine.restoreLoss s r) := h.putLoss

theorem applyImage {j : BitVec 2} {bs : List Byte} (h : Rises o s) : Rises o (Machine.applyImage s j bs).1 :=
  .iteFst h (by split; exacts [.foldl (h.foldl fun _ _ h => h.restoreWatch) fun _ _ h => h.restoreLoss, h])

theorem writeImage {j : BitVec 2} {bs : List Byte} (h : Rises o s) : Rises o (Machine.writeImage s j bs).1 :=
  .iteFst (.iteFst h h.modJob) h.applyImage

theorem settleImage {j : BitVec 2} (h : Rises o s) : Rises o (Machine.settleImage s j) := by
  unfold Machine.settleImage
  split
  exacts [h.modJob.applyImage.modJob.setStatus, h]

theorem execWatchImageWrite {w : Writer} {job : BitVec 2} {bytes : List Byte} (h : Rises o s) :
    RisesNext o (Machine.execWatchImageWrite w job bytes s) := .next h.writeImage.finish

theorem mergeReport {r : Report} (h : Rises o s) : Rises o (Machine.mergeReport s r) := by
  unfold Machine.mergeReport
  dsimp only
  split
  exacts [h.modDie, h.putWatch.putErr]

theorem execWatchReportMerge {die : Fin 12} (h : Rises o s) : RisesNext o (Machine.execWatchReportMerge die s) :=
  .next (by split; exacts [h.frame.mergeReport, h])

theorem alarm {e : Err} {pause : Bool} {j : BitVec 2} (h : Rises o s) : Rises o (Machine.alarm s e pause j) := .ite h.putErr.pauseJob h.putErr

theorem turnBanks {w : BitVec 12} (h : Rises o s) : Rises o (Machine.turnBanks s w) := h.frame

theorem commitEntry {j : BitVec 2} {step : W64} {c : CloseEnt} (h : Rises o s) : Rises o (Machine.commitEntry s j step c) := by
  unfold Machine.commitEntry
  extract_lets _ _ _ _ _ s1 _ s2 s3
  have h2 : Rises o s2 := .ite h.putWatch.turnBanks.putErr h.putWatch.turnBanks
  have h3 : Rises o s3 := .ite h2.alarm h2
  exact .ite h3.alarm h3

theorem setClose {j : BitVec 2} {st : Nat} (h : Rises o s) : Rises o (Machine.setClose s j st) := h.modJob

theorem dropExchanged {j : BitVec 2} {step : W64} (h : Rises o s) : Rises o (Machine.dropExchanged s j step) := h.frame

theorem commitClose {j : BitVec 2} {step : W64} {cs : List CloseEnt} (h : Rises o s) : Rises o (Machine.commitClose s j step cs) :=
  .settleImage (.setClose (.modJob (.dropExchanged (h.foldl fun _ _ h => h.commitEntry))))

theorem tryClose {j : BitVec 2} (h : Rises o s) : Rises o (Machine.tryClose s j) := by
  unfold Machine.tryClose
  split
  exacts [.ite h.commitClose h, h]

theorem watchClose {j : BitVec 2} {step : W64} (h : Rises o s) : Rises o (Machine.watchClose s j step) :=
  .ite h.modJob (.ite (.tryClose (.setClose (.modJob (h.foldl fun _ _ h => h.sendCtrl)))) h.commitClose)

theorem execWatchClose {w : Writer} {job : BitVec 2} {step : W64} (h : Rises o s) : RisesNext o (Machine.execWatchClose w job step s) :=
  .next h.watchClose.setStatus

theorem peerExchange {x : Exchanged} (h : Rises o s) : Rises o (Machine.peerExchange s x) := h.frame.tryClose

theorem execWatchPeerTimeout {job : BitVec 2} (h : Rises o s) : RisesNext o (Machine.execWatchPeerTimeout job s) :=
  .next (by split; exacts [.ite h.modJob.setClose.dropExchanged.putErr.settleImage h, h])

theorem lossWrite {j : BitVec 2} {m : BitVec 3} {step : W64} {value : W32} {exp : Byte} (h : Rises o s) :
    Rises o (Machine.lossWrite s j m step value exp) := by
  unfold Machine.lossWrite
  dsimp only
  split
  exacts [h.putLoss, .ite h.putLoss (.ite h.putLoss.alarm h.putLoss)]

theorem execLossWindowWrite {w : Writer} {job : BitVec 2} {mon : BitVec 3} {step : W64} {value : W32} {exp : Byte} (h : Rises o s) :
    RisesNext o (Machine.execLossWindowWrite w job mon step value exp s) := .next h.lossWrite.setStatus

/-! ## The wide accumulators -/

theorem wideTry {t : W16} (h : Rises o s) : Rises o (Machine.wideTry s t) := by
  unfold Machine.wideTry
  split
  exacts [h.tryStart, h]

theorem execWideOpStart {tile : W16} (h : Rises o s) : RisesNext o (Machine.execWideOpStart tile s) := .onTile h.wideTry

theorem noteWide {t : W16} {bits : W32} (h : Rises o s) : Rises o (Machine.noteWide t bits s) := .ite h h.modTile

theorem waccFinish {t : W16} {o0 : EngOp} (h : Rises o s) : Rises o (Machine.waccFinish s t o0) := h.modTile.satNote.noteWide.sendReport.opDone

theorem wideFinish {t : W16} {o0 : EngOp} (h : Rises o s) : Rises o (Machine.wideFinish s t o0) :=
  .ite h.modTile.opFails (.ite h.opFails (by split; exacts [h.modTile.opDone, h.modTile.opDone, h.opndWrite.opDone, h.waccFinish]))

theorem execWideOpComplete {tile : W16} (h : Rises o s) : RisesNext o (Machine.execWideOpComplete tile s) :=
  .onTile (by split; exacts [.ite h.wideFinish h, h])

theorem execWidePatrol {tile : W16} {index : BitVec 12} (h : Rises o s) : RisesNext o (Machine.execWidePatrol tile index s) :=
  .onTile (.ite h.putTile h.putTile.noteWide.putErr)

theorem unitTry {t : W16} {u : EngUnit} (h : Rises o s) : Rises o (Machine.unitTry s t u) := by
  unfold Machine.unitTry
  split
  exacts [h.pressTry, h.convTry, h.wideTry]

theorem execEngineSlotResume {tile : W16} {unit : EngUnit} (h : Rises o s) : RisesNext o (Machine.execEngineSlotResume tile unit s) :=
  .onTile (by split; exacts [.ite h (.ite h.unitTry (.ite h h.setHead)), h])

/-! ## Yield lists -/

theorem yieldFetch {t : W16} {j : BitVec 2} {prevAt : Option Nat} (h : Rises o s) : Rises o (Machine.yieldFetch s t j prevAt) := by
  unfold Machine.yieldFetch
  dsimp only
  split
  exacts [.ite h.modCtx h.modCtx.putErr, h.modCtx.putErr]

theorem yieldTake {t : W16} {j : BitVec 2} {e : BitVec 128} (h : Rises o s) : Rises o (Machine.yieldTake s t j e) := h.putTile.markDue

theorem yieldBoundary {t : W16} {j : BitVec 2} (h : Rises o s) : Rises o (Machine.yieldBoundary s t j) := by
  unfold Machine.yieldBoundary
  dsimp only
  split
  exacts [h.modCtx, .ite (.yieldFetch (.modCtx (.ite h.modCtx.yieldTake h.modCtx.modTile))) h.modCtx]

/-! ## Channels and waits -/

theorem clearMark {t : W16} {n : Nat} (h : Rises o s) : Rises o (Machine.clearMark t n s) := h.modTile

theorem acntAddAct {t : W16} {j : BitVec 2} {n : Nat} {v : W64} (h : Rises o s) : Rises o (Machine.acntAddAct t j n v s) := .ite h.acntAdd h.putErr

theorem exchEnd {t : W16} {j : BitVec 2} (h : Rises o s) : Rises o (Machine.exchEnd t j s) := by
  unfold Machine.exchEnd
  split
  · dsimp only
    split
    exacts [h.setExch.excDeferred, .ite h.setExch.modCtx.yieldBoundary h.setExch.modCtx.modCtx]
  · exact h

end Rises

end Sys2Proof.Machine
end

section
/-!
PROOFS of the statement of the family '17_security.md', continued: bundles and their slots.
-/
namespace Sys2Proof.Machine
open Sys2Proof

namespace Rises
variable {o s t : State} {α β : Type}

/-! ## Stores of a bundle -/

theorem putStore {t : W16} {j : BitVec 2} {r : SlotRes} (h : Rises o s) : Rises o (Machine.putStore t j r s) := by
  unfold Machine.putStore
  split
  exacts [h.spadWrite, h]

end Rises

/-! ## Slots of a bundle (R139, R140, R158) -/

/-- What a slot does at once and at retirement lowers no counter. -/
structure SlotRes.Lifts (r : SlotRes) : Prop where
  start {o s : State} : Rises o s → Rises o (r.start s)
  act {o s : State} : Rises o s → Rises o (r.act s)

namespace SlotRes.Lifts
variable {s : State} {x : Tile} {c : Ctx} {t : W16} {j : BitVec 2} {gD gA gB : BitVec 5} {op : BitVec 6}

/-- A slot that does one effect as it retires. -/
theorem ofAct {f : State → State} (hf : ∀ o s, Rises o s → Rises o (f s)) {exc gW vW pW cW target store blocked limit} :
    Lifts { exc := exc, gW := gW, vW := vW, pW := pW, cW := cW, target := target, store := store, blocked := blocked, limit := limit, act := f } where
  start h := h
  act h := hf _ _ h

/-- A slot that writes registers, jumps, stores or raises an exception. -/
theorem plain {exc gW vW pW cW target store blocked limit} :
    Lifts { exc := exc, gW := gW, vW := vW, pW := pW, cW := cW, target := target, store := store, blocked := blocked, limit := limit } :=
  ofAct fun _ _ h => h

theorem ite {p : Prop} [Decidable p] {a b : SlotRes} (ha : a.Lifts) (hb : b.Lifts) : (if p then a else b).Lifts := by
  split <;> assumption

theorem excRes {cause : Byte} {info : W64} : (Machine.excRes cause info).Lifts := plain

theorem predRes {v : Bool} : (Machine.predRes gD v).Lifts := .ite plain plain

theorem evalAlu : (Machine.evalAlu c op gD gA gB).Lifts := by
  unfold Machine.evalAlu
  split
  · exact plain
  · split
    · exact predRes
    · split
      exacts [predRes, plain]

theorem evalAlui {imm : W32} : (Machine.evalAlui c op gD gA imm).Lifts :=
  .ite plain (.ite plain (.ite (by split; exacts [plain, plain]) (by split; exacts [predRes, plain])))

theorem regJump {base : W64} {off : W32} {r : SlotRes} (hr : r.Lifts) : (Machine.regJump base off r).Lifts :=
  .ite plain ⟨hr.start, hr.act⟩

theorem evalBr {off : W32} : (Machine.evalBr c op gD gA off).Lifts := by
  unfold Machine.evalBr
  split
  exacts [plain, plain, plain.regJump, plain.regJump, .ite plain plain, plain]

theorem evalLoad {n : Nat} {signed : Bool} {gT : BitVec 5} {off : W32} : (Machine.evalLoad x j c n signed gT gA off).Lifts := by
  unfold Machine.evalLoad
  dsimp only
  split
  exacts [plain, .ite plain plain]

theorem evalStore {n : Nat} {gT : BitVec 5} {off : W32} : (Machine.evalStore x j c n gT gA off).Lifts := by
  unfold Machine.evalStore
  dsimp only
  split
  exacts [plain, plain]

theorem evalMem {gT : BitVec 5} {off : W32} : (Machine.evalMem x j c op gT gA off).Lifts :=
  .ite evalLoad (.ite evalLoad (.ite evalStore plain))

theorem evalCsrr {n : BitVec 12} : (Machine.evalCsrr s t j gD n).Lifts := by
  unfold Machine.evalCsrr
  split
  exacts [plain, ofAct fun _ _ h => h.csrReadAct]

theorem evalCsrw {n : BitVec 12} : (Machine.evalCsrw s t j c gA n).Lifts := by
  unfold Machine.evalCsrw
  dsimp only
  split
  · exact plain
  · split
    exacts [plain, ofAct fun _ _ h => h.csrWrite]

theorem evalSys {csr : BitVec 12} : (Machine.evalSys s t j c op gD gA csr).Lifts := by
  unfold Machine.evalSys
  split
  exacts [plain, ofAct fun _ _ h => h.haltAct, evalCsrr, evalCsrw, plain, ofAct fun _ _ h => h.fenceIAct, plain]

theorem evalValu {a : VArg} : (Machine.evalValu t c op a).Lifts :=
  .ite plain (.ite (.ite plain plain) (.ite plain (ofAct fun _ _ h => h.satNote)))

theorem laneMove {lw : BitVec 2} {lane : BitVec 6} {off : W32} {r : SlotRes} (hr : r.Lifts) : (Machine.laneMove lw lane off r).Lifts := .ite plain hr

theorem evalVmem {v : BitVec 4} {lw : BitVec 2} {lane : BitVec 6} {off : W32} : (Machine.evalVmem x j c op v gA lw lane off).Lifts := by
  unfold Machine.evalVmem
  dsimp only
  split
  · split
    exacts [plain, .ite plain plain]
  · split
    exacts [plain, plain]
  exacts [plain.laneMove, plain.laneMove, plain.laneMove, plain.laneMove, plain]

theorem handleBad {d : W32} : (Machine.handleBad d).Lifts := plain

theorem checked {e : Option Byte} {r : SlotRes} (hr : r.Lifts) : (Machine.checked e r).Lifts := by
  unfold Machine.checked
  split
  exacts [plain, hr]

theorem waitRes {d : W32} {st : Option Byte} {f : State → State} (hf : ∀ o s, Rises o s → Rises o (f s)) : (Machine.waitRes gD d st f).Lifts := by
  unfold Machine.waitRes
  split
  exacts [plain, .ite plain (ofAct hf)]

theorem waitAcnt {d : W32} {target : W64} : (Machine.waitAcnt x t gD d target).Lifts := by
  unfold Machine.waitAcnt
  dsimp only
  split
  exacts [waitRes fun _ _ h => h.clearMark, waitRes fun _ _ h => h]

theorem waitSlot {d : W32} {sel : W64} : (Machine.waitSlot x gD d sel).Lifts := by
  unfold Machine.waitSlot
  dsimp only
  split
  exacts [waitRes fun _ _ h => h, waitRes fun _ _ h => h, plain]

theorem evalWait {d : W32} {ga : W64} : (Machine.evalWait s t j gD d ga).Lifts := by
  unfold Machine.evalWait
  dsimp only
  split
  exacts [waitAcnt.checked, checked (waitRes fun _ _ h => h.weirSeen), waitSlot.checked, checked (waitRes fun _ _ h => h), handleBad]

theorem evalArrive {d : W32} : (Machine.evalArrive s t j d).Lifts := .ite handleBad (checked (ofAct fun _ _ h => h.arriveAct))

/-- The arrival is made as the bundle issues, or as it retires at once. -/
theorem evalArriveWait {d : W32} {arrived : Bool} : (Machine.evalArriveWait s t j gD d arrived).Lifts :=
  .ite handleBad (.ite evalWait (checked ⟨fun h => h.arriveAct, fun h => evalWait.act h.arriveAct⟩))

theorem evalDrain {n : Nat} : (Machine.evalDrain x t n).Lifts := by
  unfold Machine.evalDrain
  dsimp only
  split
  exacts [plain, plain, ofAct fun _ _ h => h.slotDrain]

theorem evalPop {d : W32} : (Machine.evalPop x t gD d).Lifts := by
  unfold Machine.evalPop
  dsimp only
  split
  exacts [plain, ofAct fun _ _ h => h.modTile.settleHq]

theorem evalPush {d v : W32} : (Machine.evalPush x t j d v).Lifts := .ite (ofAct fun _ _ h => h.pushHandle) plain

theorem evalSync {ch : BitVec 4} {hint : BitVec 2} {arrived : Bool} : (Machine.evalSync s t j c op gD ch gA hint arrived).Lifts := by
  refine .ite plain ?_
  split
  exacts [.ite plain handleBad, plain, evalWait, evalArrive, evalArriveWait, .ite handleBad plain.checked,
    .ite handleBad (checked (ofAct fun _ _ h => h.acntAddAct)), .ite handleBad evalDrain.checked, .ite handleBad plain.checked,
    .ite handleBad evalPop.checked, .ite handleBad evalPush.checked, plain]

theorem evalWatch {widx : BitVec 12} {mon : BitVec 3} : (Machine.evalWatch s t j c op gD gA gB widx mon).Lifts := by
  unfold Machine.evalWatch
  split
  · split
    exacts [plain, plain, plain]
  · exact ofAct fun _ _ h => h.lossWrite
  · exact plain

theorem evalEng {a : EngArg} : (Machine.evalEng s t j c op a).Lifts := by
  unfold Machine.evalEng
  dsimp only
  split
  · exact plain
  · refine .ite plain ?_
    split
    exacts [plain, ofAct fun _ _ h => .ite h.excDeferred h.modTile]

theorem evalExch {held : Bool} : (Machine.evalExch s t j c gA held).Lifts := by
  refine .ite (ofAct fun _ _ h => h.exchEnd) (.ite plain (.ite plain (.ite (ofAct fun _ _ h => h.excDeferred) ?_)))
  split
  exacts [ofAct fun _ _ h => h.excDeferred, ⟨fun h => h.exchStart, fun h => h⟩]

theorem evalSpost {q : BitVec 12} : (Machine.evalSpost s t j c gA q).Lifts := by
  unfold Machine.evalSpost
  dsimp only
  split
  · exact plain
  · split
    exacts [plain, .ite plain (ofAct fun _ _ h => h.postDesc)]

theorem evalRearm {q : BitVec 12} : (Machine.evalRearm s t j c gB q).Lifts := by
  refine .ite plain ?_
  dsimp only
  split
  exacts [plain, ofAct fun _ _ h => h.modDie]

theorem evalXfer {q : BitVec 12} {held : Bool} : (Machine.evalXfer s t j c op gA gB q held).Lifts := by
  unfold Machine.evalXfer
  split
  exacts [evalExch, evalSpost, evalRearm, plain]

/-- Whatever a slot of a bundle holds. -/
theorem evalSlot {eng held arrived : Bool} {w : SlotWord} : (Machine.evalSlot s t j c eng held arrived w).Lifts := by
  refine .ite plain (.ite plain ?_)
  split
  exacts [evalSys, evalAlu, evalAlui, evalBr, evalMem, evalSync, evalWatch, evalValu, evalVmem, evalEng, evalXfer, plain]

end SlotRes.Lifts

namespace Rises
variable {o s t : State} {α β : Type}

/-! ## Bundles -/

theorem retire {t : W16} {j : BitVec 2} {ctl eng : SlotWord} {a b : SlotRes} (h : Rises o s) (ha : a.Lifts) (hb : b.Lifts) :
    Rises o (Machine.retire s t j ctl eng a b) :=
  hb.act (ha.act h.putStore.putStore.modTile)

theorem hold {t : W16} {j : BitVec 2} {ctl eng : SlotWord} {a b : SlotRes} (h : Rises o s) (ha : a.Lifts) (hb : b.Lifts) :
    Rises o (Machine.hold s t j ctl eng a b) :=
  .modCtx (hb.start (ha.start h.modCtx))

theorem bundleFails {t : W16} {j : BitVec 2} {e : Bool × Byte × W64} {held : Bool} (h : Rises o s) : Rises o (Machine.bundleFails s t j e held) :=
  .excPrecise (.ite (by split; exacts [.ite h.setExch h, h]) h)

/-- A bundle of a context: it fails, waits or retires. -/
theorem runBundle {t : W16} {j : BitVec 2} {ctl eng : SlotWord} {held arrived : Bool} (h : Rises o s) :
    Rises o (Machine.runBundle s t j ctl eng held arrived) := by
  unfold Machine.runBundle
  dsimp only
  split
  exacts [h.bundleFails, .ite (.ite h (h.hold .evalSlot .evalSlot)) (h.retire .evalSlot .evalSlot)]

theorem issue {t : W16} {ctl eng : SlotWord} (h : Rises o s) : Rises o (Machine.issue s t ctl eng) := by
  unfold Machine.issue
  dsimp only
  split
  exacts [h, .ite h (by split; exacts [h.excPrecise, h.runBundle])]

theorem slotCmd {h0 : SlotHdr} {op : SlotOp} (h : Rises o s) : RisesNext o (Machine.slotCmd h0 op s) := .onTile h.issue

theorem tryRetire {t : W16} {j : BitVec 2} (h : Rises o s) : Rises o (Machine.tryRetire s t j) := by
  unfold Machine.tryRetire
  split
  exacts [.ite h h.runBundle, h]

theorem execWaitRelease {tile : W16} (h : Rises o s) : RisesNext o (Machine.execWaitRelease tile s) := .onTile (by split; exacts [h.tryRetire, h])

theorem execHaltRetire {tile : W16} (h : Rises o s) : RisesNext o (Machine.execHaltRetire tile s) := .onTile (by split; exacts [h.tryRetire, h])

theorem execGaugeStallRelease {tile : W16} (h : Rises o s) : RisesNext o (Machine.execGaugeStallRelease tile s) :=
  .onTile (by split; exacts [h.tryRetire, h])

theorem execExchBoundary {tile : W16} (h : Rises o s) : RisesNext o (Machine.execExchBoundary tile s) :=
  .onTile (by split; exacts [.ite h.tryRetire h, h])

theorem execGaugeTimeout {tile : W16} (h : Rises o s) : RisesNext o (Machine.execGaugeTimeout tile s) :=
  .onTile (by split; exacts [.ite h.bundleFails h, h])

theorem execWaitTimeout {tile : W16} (h : Rises o s) : RisesNext o (Machine.execWaitTimeout tile s) :=
  .onTile (by split; exacts [by dsimp only; split; exacts [.ite h.bundleFails h, h], h])

theorem execSpinPeriodExpire {tile : W16} (h : Rises o s) : RisesNext o (Machine.execSpinPeriodExpire tile s) :=
  .onTile (by split; exacts [.ite h.modCtx h, h])

theorem execFolioEntryIssue {tile : W16} (h : Rises o s) : RisesNext o (Machine.execFolioEntryIssue tile s) :=
  .onTile (by split; exacts [.ite (.ite h.issueEntry.tryRetire h.issueEntry) h, h])

theorem execXchTimeout {tile : W16} (h : Rises o s) : RisesNext o (Machine.execXchTimeout tile s) :=
  .onTile (by split; exacts [.ite h.failExch.tryRetire h, h])

end Rises

end Sys2Proof.Machine
end

section
/-!
PROOFS of the statement of the family '17_security.md', continued: the ports and accesses by job address.
-/
namespace Sys2Proof.Machine
open Sys2Proof

namespace Rises
variable {o s t : State} {α β : Type}

/-! ## Trees, streams and landings over the ports -/

theorem writePortCfg {p : Nat} {v : W32} (h : Rises o s) : Rises o (Machine.writePortCfg s p v).1 := .iteFst h (.iteFst h h.putPort)

theorem portCfgBy {w : Writer} {p : Nat} {v : W32} (h : Rises o s) : Rises o (Machine.portCfgBy w s p v).1 :=
  .iteFst h.writePortCfg (.iteFst h.writePortCfg.putErr h.writePortCfg)

theorem portReg {p : Nat} {f : State → State × Byte} (h : Rises o s) (hf : ∀ s, Rises o s → Rises o (f s).1) : Rises o (Machine.portReg s p f).1 :=
  h.dieReg hf

theorem execPortCfgWrite {w : Writer} {port : Fin 24} {value : W32} (h : Rises o s) : RisesNext o (Machine.execPortCfgWrite w port value s) :=
  .next (.finish (h.portReg fun _ h => h.portCfgBy))

theorem startPort {p : Nat} (h : Rises o s) : Rises o (Machine.startPort s p) := .ite h.setPort h

theorem execPortStart {w : Writer} {port : Fin 24} (h : Rises o s) : RisesNext o (Machine.execPortStart w port s) :=
  .next (.finish (h.portReg fun _ h => h.startPort))

theorem enterRetrain {p : Nat} (h : Rises o s) : Rises o (Machine.enterRetrain s p) := h.setPort

theorem retrainPort {p : Nat} (h : Rises o s) : Rises o (Machine.retrainPort s p) := .ite h.enterRetrain h

theorem execRetrain {w : Writer} {port : Fin 24} (h : Rises o s) : RisesNext o (Machine.execRetrain w port s) :=
  .next (.finish (h.portReg fun _ h => h.retrainPort))

theorem execLaneLockLoss {port : Fin 24} {lane : Fin 8} (h : Rises o s) : RisesNext o (Machine.execLaneLockLoss port lane s) :=
  .next (.ite h.retrainPort h)

theorem execTrainingFrameReceive {port : Fin 24} (h : Rises o s) : RisesNext o (Machine.execTrainingFrameReceive port s) := .next h.retrainPort

theorem dropPkt {p : Nat} {k : Pkt} (h : Rises o s) : Rises o (Machine.dropPkt s p k) := by
  unfold Machine.dropPkt
  split
  exacts [h.putErr, .ite h.dropHandle h, by split; exacts [h.pushPkt, h], h, h]

theorem dropPkts {p : Nat} {ks : List Pkt} (h : Rises o s) : Rises o (Machine.dropPkts s p ks) := h.putPort.foldl fun _ _ h => h.dropPkt

theorem dropPopped {p : Nat} (h : Rises o s) : Rises o (Machine.dropPopped s p) := h.putPort.foldl fun _ _ h => h.dropHandle

theorem settleStop {p : Nat} (h : Rises o s) : Rises o (Machine.settleStop s p) := .ite h.setPort h

theorem ackedPkt {k : Pkt} (h : Rises o s) : Rises o (Machine.ackedPkt s k) := by
  unfold Machine.ackedPkt
  split
  exacts [.ite (.ite h.slotDrain h) h, h]

theorem takeAck {p : Nat} {ack : BitVec 12} (h : Rises o s) : Rises o (Machine.takeAck s p ack) :=
  .ite h (h.putPort.foldl fun _ _ h => .ite h.ackedPkt h)

theorem countReplay {p : Nat} (h : Rises o s) : Rises o (Machine.countReplay s p) := .ite h.resend.putPort.retrainPort h.resend.putPort

theorem execTzReplayTimeout {port : Fin 24} (h : Rises o s) : RisesNext o (Machine.execTzReplayTimeout port s) := .next (.ite h.countReplay h)

theorem execTzAckTimer {port : Fin 24} (h : Rises o s) : RisesNext o (Machine.execTzAckTimer port s) := .next (.ite h.sendIdle h)

theorem execTzReplaySummary {port : Fin 24} (h : Rises o s) : RisesNext o (Machine.execTzReplaySummary port s) := .next (.ite h.putPort.putErr h)

theorem abandonPadd {r : PAdd} {who : W16} (h : Rises o s) : Rises o (Machine.abandonPadd s r who) := h.frame.putErr.markTiles

theorem absorbAdd {i : Nat} {b : Block} {k : Nat} (h : Rises o s) : Rises o (Machine.absorbAdd s i b k) :=
  .ite h (by split; exacts [.ite h (.ite h.dropBlk.frame h.dropBlk.abandonPadd), .ite h.dropBlk.frame h])

theorem absorbWaiting (h : Rises o s) : Rises o (Machine.absorbWaiting s) := h.foldl fun _ _ h => h.absorbAdd

theorem fromBridge {port : Nat} {b : Block} (h : Rises o s) : Rises o (Machine.fromBridge s port b) := by
  unfold Machine.fromBridge
  dsimp only
  split
  exacts [h.addBlk, h.putErr]

theorem execPortAddRound {dest : W16} {daddr : BitVec 24} {job : BitVec 2} (h : Rises o s) :
    RisesNext o (Machine.execPortAddRound dest daddr job s) := .next (by split; exacts [.ite h.frame.fromBridge.absorbWaiting h, h])

theorem execAddLagExpire {dest : W16} {daddr : BitVec 24} {job : BitVec 2} (h : Rises o s) :
    RisesNext o (Machine.execAddLagExpire dest daddr job s) := .next (by split; exacts [.ite h.abandonPadd.absorbWaiting h, h])

theorem exchPkt {port : Nat} {bs : List Byte} (h : Rises o s) : Rises o (Machine.exchPkt s port bs) := .ite h.addBlk.absorbWaiting h.fromBridge

theorem takeFlit {p : Nat} {f : Flit} (h : Rises o s) : Rises o (Machine.takeFlit s p f) :=
  .ite h (.ite (.sendIdle (.ite h.putPort.exchPkt h.putPort)) (.ite h.putPort.exchPkt h.putPort))

theorem goodFlit {p : Nat} {f : Flit} (h : Rises o s) : Rises o (Machine.goodFlit s p f) := by
  refine .ite h.retrainPort (.settleStop ?_)
  exact .pump (.ite (.takeFlit (.ite h.takeAck.putPort.countReplay h.takeAck.putPort)) (.ite h.takeAck.putPort.countReplay h.takeAck.putPort))

theorem badFlit {p : Nat} {why : FlitFault} (h : Rises o s) : Rises o (Machine.badFlit s p why) := h.putPort

theorem execTzFlitReceive {port : Fin 24} {good : FlitCheck} {f : Flit} (h : Rises o s) : RisesNext o (Machine.execTzFlitReceive port good f s) :=
  .next (.ite (by dsimp only; split; exacts [h.putPort.goodFlit, h.putPort.badFlit]) h)

theorem tellMismatch {k n : Nat} (h : Rises o s) : Rises o (Machine.tellMismatch s k n) := .ite h.putErr h

theorem peerBack {k : Nat} (h : Rises o s) : Rises o (Machine.peerBack s k) := .ite h.frame h

theorem matchPeer {k : Nat} (h : Rises o s) : Rises o (Machine.matchPeer s k) := .peerBack (h.foldl fun _ _ h => h.tellMismatch)

theorem writePeer {k : Nat} {v : W32} (h : Rises o s) : Rises o (Machine.writePeer s k v).1 :=
  .iteFst h (.iteFst h (.iteFst h (.ite h.frame.matchPeer h.frame)))

theorem execTzPeerWrite {w : Writer} {peer : BitVec 2} {value : W32} (h : Rises o s) : RisesNext o (Machine.execTzPeerWrite w peer value s) :=
  .next h.writePeer.finish

theorem loseWeirPeer {k : Nat} (h : Rises o s) : Rises o (Machine.loseWeirPeer s k) :=
  h.foldl fun _ _ h => .ite h.orphanWeir (.ite h.putL6.releaseLost.openL6 h.putL6.onDies.openL6)

theorem execPeerLost {peer : BitVec 2} (h : Rises o s) : RisesNext o (Machine.execPeerLost peer s) :=
  .next (.ite h.frame.putErr.loseWeirPeer (.ite h.sendCtrl h))

theorem peerArrive {k : Nat} {n : BitVec 12} {h0 : BitVec 4} (h : Rises o s) : Rises o (Machine.peerArrive s k n h0) := by
  unfold Machine.peerArrive
  dsimp only
  split
  exacts [.ite h (.ite h.modDie.putErr (.ite h.putL6 h.putL6.weirTest)), h.putL6]

theorem peerRelease {n : BitVec 12} {h0 : BitVec 4} {lost : Bool} (h : Rises o s) : Rises o (Machine.peerRelease s n h0 lost) := by
  unfold Machine.peerRelease
  split
  exacts [.ite (.ite h.onDies h) (.sendRelease (.ite h.onDies h)), h]

theorem peerLoaded {k : Nat} {n : BitVec 12} (h : Rises o s) : Rises o (Machine.peerLoaded s k n) := by
  unfold Machine.peerLoaded
  dsimp only
  split
  exacts [h.putL6.openL6, h.putL6]

theorem peerStopped {n : BitVec 12} {orphaned : Bool} (h : Rises o s) : Rises o (Machine.peerStopped s n orphaned) := by
  unfold Machine.peerStopped
  split
  exacts [.ite h.orphanWeir h.weirFaultSpan, h]

theorem execCtrlMessageReceive {port : Fin 24} {m : CtrlMsg} (h : Rises o s) : RisesNext o (Machine.execCtrlMessageReceive port m s) := by
  refine .next ?_
  split
  · refine .ite ?_ h
    dsimp only
    split
    exacts [h.frame.peerArrive, h.frame.peerRelease, h.frame.peerLoaded, h.frame.peerStopped, h.frame.peerExchange, h.frame,
      .ite h.frame.sendCtrl h.frame, h.frame.frame]
  · exact h

theorem portSend {die : Fin 12} {qid : BitVec 12} {h0 : W32} (h : Rises o s) : Rises o (Machine.portSend s die qid h0) := by
  unfold Machine.portSend
  dsimp only
  split
  exacts [h.putPort.putErr, .ite h.putPort.putErr (.ite h (.ite h.putPort.putErr (h.putPort.foldl fun _ _ h => h.pushPkt)))]

theorem execPortStreamSend {die : Fin 12} {qid : BitVec 12} (h : Rises o s) : RisesNext o (Machine.execPortStreamSend die qid s) := by
  refine .next (.ite ?_ h)
  split
  · exact .ite h.portSend.settleStop h
  · refine .ite h ?_
    split
    · next t _ _ heq =>
      have ht : Rises o t := .ofFst heq h.popHandle
      exact ht.putPort.portSend
    · next t heq =>
      exact .ofFst heq h.popHandle

theorem writeLand {u : BitVec 8} {v : W32} (h : Rises o s) : Rises o (Machine.writeLand s u v) := h.frame

theorem landDrop {p : Nat} {job : BitVec 2} (h : Rises o s) : Rises o (Machine.landDrop s p job) := h.putErr

theorem landInto {p : Nat} {u : BitVec 8} {job : BitVec 2} {bs : List Byte} (h : Rises o s) (ht : Machine.landInto s p u job bs = some t) :
    Rises o t := by
  unfold Machine.landInto at ht
  dsimp only at ht
  split at ht
  · contradiction
  · split at ht
    · next u _ _ heq =>
      have hu : Rises o u := .ofFst heq h.popHandle
      split at ht
      · exact Option.some.inj ht ▸ hu.pushHandle.landDrop
      · split at ht
        · exact Option.some.inj ht ▸ hu.landDrop
        · split at ht
          · exact Option.some.inj ht ▸ hu.putErr.landDrop
          · split at ht
            · exact Option.some.inj ht ▸ hu.putErr.landDrop
            · split at ht
              · contradiction
              · exact Option.some.inj ht ▸ hu.opndWrite
    · contradiction

theorem landTry {n p : Nat} {stuck : List (BitVec 8)} {l : List (BitVec 8 × BitVec 2 × List Byte × W64)} (h : Rises o s) :
    Rises o (Machine.landTry n stuck s p l).1 := by
  fun_induction Machine.landTry n stuck s p l with
  | case1 => exact h
  | case2 => exact h
  | case3 s p fuel stuck u job bs t rest s1 heq ih =>
    refine ih ?_
    split at heq
    · contradiction
    · exact h.landInto heq
  | case4 s p fuel stuck u job bs t rest hn s1 l heq ih => exact .ofFst heq (ih h)

theorem landAll {p : Nat} (h : Rises o s) : Rises o (Machine.landAll s p) := h.landTry.putPort

theorem execLandReceive {port : Fin 24} {landing : BitVec 8} {job : BitVec 2} {bytes : List Byte} (h : Rises o s) :
    RisesNext o (Machine.execLandReceive port landing job bytes s) := .next (.ite h (.ite h.landDrop h.putPort.landAll))

theorem execLandTimeout {port : Fin 24} (h : Rises o s) : RisesNext o (Machine.execLandTimeout port s) :=
  .next (h.landAll.putPort.foldl fun _ _ h => h.landDrop)

/-! ## Accesses by job address -/

theorem vaMap {job : BitVec 2} {dst : Bool} {l : List (Nat × Nat)} (h : Rises o s) : Rises o (Machine.vaMap job dst l s).1 := by
  induction l generalizing s with
  | nil => exact h
  | cons e l ih =>
    unfold Machine.vaMap
    split
    · next t _ _ _ heq =>
      have ht : Rises o t := .ofFst heq h.walk
      refine .iteFst ht.putErr ?_
      split
      · next u _ heq => exact .ofFst heq (ih ht)
      · exact ih ht
    · next t _ _ heq => exact .ofFst heq h.walk
    · next t _ _ heq => exact .ofFst heq h.walk
    · next t _ heq => exact .ofFst heq h.walk

theorem vaRead {job : BitVec 2} {va n : Nat} (h : Rises o s) : Rises o (Machine.vaRead s job va n).1 := by
  unfold Machine.vaRead
  split
  · next t _ heq =>
    exact .ofFst heq h.vaMap
  · next t _ heq =>
    have ht : Rises o t := .ofFst heq h.vaMap
    exact ht.foldlFst fun _ _ h => h.hbmGet

theorem vaWrite {job : BitVec 2} {va : Nat} {bs : List Byte} (h : Rises o s) : Rises o (Machine.vaWrite s job va bs).1 := by
  unfold Machine.vaWrite
  split
  · next t _ heq =>
    exact .ofFst heq h.vaMap
  · next t _ heq =>
    have ht : Rises o t := .ofFst heq h.vaMap
    exact ht.foldlFst fun _ _ h => h.hbmStore

theorem unpark {o0 : ParkOwner} (h : Rises o s) : Rises o (Machine.unpark s o0) := h.frame

theorem parkAccess {die : Nat} {o0 : ParkOwner} {e : W32 → Err} (h : Rises o s) : Rises o (Machine.parkAccess s die o0 e) :=
  h.freshWord.modDie.frame.putErr

end Rises

end Sys2Proof.Machine
end

section
/-!
PROOFS of the statement of the family '17_security.md', continued: gathering.
-/
namespace Sys2Proof.Machine
open Sys2Proof

namespace Rises
variable {o s t : State} {α β : Type}

/-! ## Gathers -/

theorem writeGatherTree {n : Nat} {v : W64} (h : Rises o s) : Rises o (Machine.writeGatherTree s n v).1 := .iteFst h (.iteFst h h.frame)

theorem execGatherTreeWrite {w : Writer} {tree : BitVec 5} {value : W64} (h : Rises o s) :
    RisesNext o (Machine.execGatherTreeWrite w tree value s) := .next h.writeGatherTree.finish

theorem putGath {g : Gather} (h : Rises o s) : Rises o (Machine.putGath s g) := h.frame

theorem sendUp {g : Gather} {b : GBody} (h : Rises o s) : Rises o (Machine.sendUp s g b) := h.pushPkt

theorem sendDown {g : Gather} {b : GBody} (h : Rises o s) : Rises o (Machine.sendDown s g b) := h.foldl fun _ _ h => h.pushPkt

theorem gTellUp {g : Gather} {what : BitVec 2} {n : Nat} (h : Rises o s) : Rises o (Machine.gTellUp s g what n) := .ite h h.pushPkt

theorem gTellDown {g : Gather} {what : BitVec 2} {n : Nat} (h : Rises o s) : Rises o (Machine.gTellDown s g what n) := h.foldl fun _ _ h => h.pushPkt

theorem dropStale (h : Rises o s) : Rises o (Machine.dropStale s) := h.frame

theorem endReshard {j : BitVec 2} {st : Byte} {ep : Option W16} (h : Rises o s) : Rises o (Machine.endReshard s j st ep) := h.modJob.dropStale.payLate

theorem settleReshard {j : BitVec 2} (h : Rises o s) : Rises o (Machine.settleReshard s j) := by
  unfold Machine.settleReshard
  split
  exacts [.ite h h.endReshard, h]

theorem writeReshard {j : BitVec 2} {ep : W16} (h : Rises o s) : Rises o (Machine.writeReshard s j ep).1 :=
  .iteFst h (.iteFst h (.iteFst h.modJob.settleReshard.endReshard h.modJob.settleReshard))

theorem execGatherReshard {w : Writer} {job : BitVec 2} {epoch : W16} (h : Rises o s) : RisesNext o (Machine.execGatherReshard w job epoch s) :=
  .next (.ite h.writeReshard.frame h.writeReshard.finish)

theorem execReshardLimitExpire {job : BitVec 2} (h : Rises o s) : RisesNext o (Machine.execReshardLimitExpire job s) :=
  .next (by split; exacts [.ite h.endReshard h, h])

theorem gTell {g : Gather} {st : Byte} (h : Rises o s) : Rises o (Machine.gTell s g st) := .ite h (.ite h.putErr (.ite h.arriveCount h.addMarker))

theorem gClose {g : Gather} {st : Byte} (h : Rises o s) : Rises o (Machine.gClose s g st) :=
  .settleReshard (.ite h.unpark.gTell.frame h.unpark.gTell.frame.putErr)

theorem gPark {g : Gather} {f : BitVec 3} {va : Nat} {dst : Bool} (h : Rises o s) : Rises o (Machine.gPark s g f va dst) := h.putGath.parkAccess

theorem gFailClose {g : Gather} {st : Byte} (h : Rises o s) : Rises o (Machine.gFailClose s g st) := by
  refine .ite h.unpark.gClose ?_
  split
  · next t _ _ heq =>
    have ht : Rises o t := .ofFst heq h.unpark.vaWrite
    exact ht.gPark
  · next t _ _ heq =>
    have ht : Rises o t := .ofFst heq h.unpark.vaWrite
    exact ht.gClose

theorem gAbandon {g : Gather} {st : Byte} (h : Rises o s) : Rises o (Machine.gAbandon s g st) := .ite h.gClose h.gTellUp.gTellDown.gFailClose

theorem gFail {g : Gather} {st : Byte} (h : Rises o s) : Rises o (Machine.gFail s g st) := .ite h.gTellUp.gTellDown.gFailClose h.gAbandon

theorem gRestartRoot {g : Gather} (h : Rises o s) : Rises o (Machine.gRestartRoot s g) :=
  .ite h.gAbandon h.freshWord.unpark.frame.putGath.dropStale.gTellDown

theorem gChildLost {g : Gather} {p : Nat} (h : Rises o s) : Rises o (Machine.gChildLost s g p) := .ite h.putGath.gRestartRoot h.putGath.gTellUp

theorem gThen {g : Gather} {dst : Bool} {r : VaRes} {k : State → List Byte → State} (h : Rises o s) (hf : ∀ s bs, Rises o s → Rises o (k s bs)) :
    Rises o (Machine.gThen s g dst r k) := by
  unfold Machine.gThen
  split
  exacts [hf _ _ h, h.gPark, h.gFail]

theorem installShard {g : Gather} (h : Rises o s) (ht : Machine.installShard s g = some t) : Rises o t := by
  unfold Machine.installShard at ht
  dsimp only at ht
  split at ht
  · exact nomatch ht
  · split at ht
    · exact Option.some.inj ht ▸ h.frame
    · exact nomatch ht

/-- The completion record of a gathering, then its close. -/
theorem gCplThen {g : Gather} {st : Byte} {a : Nat} {bs : List Byte} {c : Prop} [Decidable c] (h : Rises o s) :
    Rises o (if c then Machine.gClose s g st
      else Machine.gThen (Machine.vaWrite s g.key.job a bs).1 g true (Machine.vaWrite s g.key.job a bs).2 fun s _ => Machine.gClose s g st) :=
  .ite h.gClose (h.vaWrite.gThen fun _ _ h => h.gClose)

theorem gFinish {g : Gather} (h : Rises o s) : Rises o (Machine.gFinish s g) := by
  unfold Machine.gFinish
  extract_lets d part g'
  split
  next t _ heq =>
  have ht : Rises o t := by
    refine .ofFst heq (.iteFst ?_ h)
    split
    · next hi => exact h.installShard hi
    · exact h
  exact .ite (ht.vaWrite.gThen fun _ _ h => h.gCplThen) ht.gCplThen

theorem gRead {g : Gather} {k : State → List Int → Nat → State} (h : Rises o s) (hf : ∀ s xs n, Rises o s → Rises o (k s xs n)) :
    Rises o (Machine.gRead s g k) := h.vaRead.gThen fun _ _ h => .ite (hf _ _ _ h) (h.vaRead.gThen fun _ _ h => hf _ _ _ h)

theorem scorePass {g : Gather} (h : Rises o s) : Rises o (Machine.scorePass s g) := h.gRead fun _ _ _ h => .ite h.putGath h.putGath

theorem dataPass {g : Gather} (h : Rises o s) : Rises o (Machine.dataPass s g) := by
  refine .gRead h fun _ _ _ h => ?_
  refine .ite ?_ ?_
  · exact h.vaWrite.gThen fun _ _ h => .ite h.putGath.gFinish h.putGath
  · exact h.vaWrite.gThen fun _ _ h => h.vaWrite.gThen fun _ _ h => .ite h.putGath.gFinish h.putGath

theorem writeChunk {g : Gather} {b : GBody} (h : Rises o s) : Rises o (Machine.writeChunk s g b).1 := by
  unfold Machine.writeChunk
  dsimp only
  split
  exacts [h.foldlFst fun _ _ h => by split; exacts [h.vaWrite, h], .iteFst h h.vaWrite, h]

theorem writeResults {n : Nat} {k : GKey} (h : Rises o s) : Rises o (Machine.writeResults n s k) := by
  induction n generalizing s with
  | zero => exact h
  | succ n ih =>
    unfold Machine.writeResults
    split
    · exact h
    · split
      exacts [h, h.writeChunk.gThen fun _ _ h => .ite h.putGath.gFinish (ih h.putGath)]

theorem takeResult {g : Gather} {b : GBody} (h : Rises o s) : Rises o (Machine.takeResult s g b) := by
  unfold Machine.takeResult
  split
  exacts [.ite h.putGath h.putGath, h.putGath, h.putGath.writeResults, h.putGath.writeResults, h.gFailClose]

theorem passDown {g : Gather} {b : GBody} (h : Rises o s) : Rises o (Machine.passDown s g b) := h.sendDown.takeResult

theorem roundOut {g : Gather} {b : GBody} (h : Rises o s) : Rises o (Machine.roundOut s g b) := .ite h.putGath.passDown h.putGath.sendUp

theorem sumRound {g : Gather} {data : Bool} (h : Rises o s) : Rises o (Machine.sumRound s g data) := by
  unfold Machine.sumRound
  split
  exacts [h.roundOut, h]

theorem expoRound {g : Gather} (h : Rises o s) : Rises o (Machine.expoRound s g) := by
  unfold Machine.expoRound
  dsimp only
  split
  exacts [h.roundOut, h]

theorem collRound {key : GKey} (h : Rises o s) : Rises o (Machine.collRound s key) := by
  unfold Machine.collRound
  split
  exacts [by split; exacts [h.sumRound, h.expoRound, h.sumRound, h], h]

theorem shardOut {g : Gather} {b : GBody} (h : Rises o s) : Rises o (Machine.shardOut s g b) := .ite h.passDown h.sendUp

theorem shardPass {g : Gather} (h : Rises o s) : Rises o (Machine.shardPass s g) := by
  unfold Machine.shardPass
  dsimp only
  split
  exacts [.ite h.shardOut (h.vaRead.gThen fun _ _ h => h.putGath.foldl fun _ _ h => by split; exacts [h.shardOut, h]), h.shardOut]

theorem gatherPass {key : GKey} (h : Rises o s) : Rises o (Machine.gatherPass s key) := by
  unfold Machine.gatherPass
  split
  · split
    exacts [h.scorePass, h.scorePass, h.dataPass, h.writeResults, .ite h.shardPass h.writeResults, h.gFinish, h.gFailClose, h, h]
  · exact h

theorem gParkFails {key : GKey} {st : Byte} (h : Rises o s) : Rises o (Machine.gParkFails s key st) := by
  unfold Machine.gParkFails
  split
  exacts [h.gFail, h.unpark]

theorem gPacket {g : Gather} {p : Nat} {b : GBody} (h : Rises o s) : Rises o (Machine.gPacket s g p b) :=
  .ite h.passDown (.ite (by split; exacts [h.shardOut, h.shardOut, h.putGath]) h)

theorem gHold {h0 : HeldG} (h : Rises o s) : Rises o (Machine.gHold s h0) := .ite h.frame h

theorem gReceive {k : GKey} {attempt : BitVec 3} {port : Option (Fin 24)} {b : GBody} (h : Rises o s) :
    Rises o (Machine.gReceive s k attempt port b) := .ite h.frame (by split; exacts [.ite h (.ite h.gPacket h.gHold), h.gHold, h])

theorem takeHeld (h : Rises o s) : Rises o (Machine.takeHeld s) := h.frame.foldl fun _ _ h => h.gReceive

theorem execGatherPacketReceive {key : GKey} {attempt : BitVec 3} {port : Option (Fin 24)} {body : GBody} (h : Rises o s) :
    RisesNext o (Machine.execGatherPacketReceive key attempt port body s) := .next h.gReceive

theorem execGatherPassDone {key : GKey} (h : Rises o s) : RisesNext o (Machine.execGatherPassDone key s) :=
  .next (by split; exacts [.ite h.gParkFails h, h.gatherPass])

theorem execCollRound {key : GKey} (h : Rises o s) : RisesNext o (Machine.execCollRound key s) := .next h.collRound.takeHeld

theorem gRestart {g : Gather} {attempt : BitVec 3} {contrib : Nat} (h : Rises o s) : Rises o (Machine.gRestart s g attempt contrib) :=
  .ite h.unpark.frame.putGath.dropStale.gTellDown.takeHeld h

theorem gWithdraw {g : Gather} {port : Nat} {direct : Bool} (h : Rises o s) : Rises o (Machine.gWithdraw s g port direct) :=
  .ite h (.ite h.gAbandon (.ite h.gChildLost (.ite h.gRestartRoot h.gTellUp)))

theorem gMessage {m : HeldMsg} (h : Rises o s) : Rises o (Machine.gMessage s m) := by
  unfold Machine.gMessage
  split
  exacts [.ite h (by split; exacts [h.gAbandon, h.gRestart, by split; exacts [h.gWithdraw, h]]), .ite h h.frame]

theorem execGatherAbandonReceive {key : GKey} (h : Rises o s) : RisesNext o (Machine.execGatherAbandonReceive key s) := .next h.gMessage

theorem execGatherRestartReceive {key : GKey} {attempt : BitVec 3} {contrib : Nat} (h : Rises o s) :
    RisesNext o (Machine.execGatherRestartReceive key attempt contrib s) := .next h.gMessage

theorem execGatherWithdrawReceive {key : GKey} {port : Fin 24} {direct : Bool} {lost : Nat} (h : Rises o s) :
    RisesNext o (Machine.execGatherWithdrawReceive key port direct lost s) := .next h.gMessage

theorem execGatherTimeout {key : GKey} (h : Rises o s) : RisesNext o (Machine.execGatherTimeout key s) := .next (by split; exacts [.ite h.gFail h, h])

theorem execGatherStaleSummary (h : Rises o s) : RisesNext o (Machine.execGatherStaleSummary s) := .next (.ite h.frame.putErr h)

theorem gPortLost {p : Nat} {ks : List GKey} (h : Rises o s) : Rises o (Machine.gPortLost s p ks) :=
  h.foldl fun _ _ h => by split; exacts [.ite h (.ite h.gFail (.ite (.ite h.gChildLost h.gAbandon) h)), h]

theorem execTreePortLost {port : Fin 24} (h : Rises o s) : RisesNext o (Machine.execTreePortLost port s) := .next (.ite h.gPortLost h)

theorem gHomeLost {d : Nat} {cause : Byte} (h : Rises o s) : Rises o (Machine.gHomeLost s d cause) :=
  h.foldl fun _ _ h => by split; exacts [h.gFail, h]

theorem gOpened {d : BitVec 1024} (h : Rises o s) : Rises o (Machine.gOpened s d) := .takeHeld (h.frame.dropStale.frame.foldl fun _ _ h => h.gMessage)

theorem gatherPost {j : BitVec 2} (h : Rises o s) : Rises o (Machine.gatherPost s j).1 := .ite (.gOpened (.ite h.modJob h)) (.ite h.modJob h)

theorem execGatherPost {w : Writer} {job : BitVec 2} (h : Rises o s) : RisesNext o (Machine.execGatherPost w job s) := .next h.gatherPost.finish

theorem writeShard {i reg : Nat} {v : W64} (h : Rises o s) : Rises o (Machine.writeShard s i reg v).1 := .iteFst h (.iteFst h (.iteFst h h.frame))

theorem execShardEntryWrite {w : Writer} {entry : BitVec 10} {reg : BitVec 2} {value : W64} (h : Rises o s) :
    RisesNext o (Machine.execShardEntryWrite w entry reg value s) := .next h.writeShard.finish

theorem gatherPin {j : BitVec 2} {step : W32} {shard : W16} {version : W32} (h : Rises o s) :
    Rises o (Machine.gatherPin s j step shard version).1 := by
  unfold Machine.gatherPin
  split
  exacts [h.putErr, .iteFst h h.frame]

theorem execGatherPin {w : Writer} {job : BitVec 2} {step : W32} {shard : W16} {version : W32} (h : Rises o s) :
    RisesNext o (Machine.execGatherPin w job step shard version s) := .next h.gatherPin.finish

theorem gatherRetire {j : BitVec 2} {step : W32} (h : Rises o s) : Rises o (Machine.gatherRetire s j step) := h.frame

theorem execGatherRetire {w : Writer} {job : BitVec 2} {step : W32} (h : Rises o s) : RisesNext o (Machine.execGatherRetire w job step s) :=
  .next h.gatherRetire.setStatus

theorem abandonJob {j : BitVec 2} (h : Rises o s) : Rises o (Machine.abandonJob s j) := h.foldl fun _ _ h => by split; exacts [h.gAbandon, h]

theorem gDrain {j : BitVec 2} (h : Rises o s) : Rises o (Machine.gDrain s j) := h.modJob

theorem gAbort {j : BitVec 2} (h : Rises o s) : Rises o (Machine.gAbort s j) := h.modJob.abandonJob

theorem gResume {j : BitVec 2} (h : Rises o s) : Rises o (Machine.gResume s j) := h.modJob

theorem gAbandonOne {j : BitVec 2} {step : W32} {id : W16} (h : Rises o s) : Rises o (Machine.gAbandonOne s j step id) := by
  unfold Machine.gAbandonOne
  split
  exacts [h.gAbandon, h]

theorem execGatherDrain {w : Writer} {job : BitVec 2} (h : Rises o s) : RisesNext o (Machine.execGatherDrain w job s) := .next h.gDrain.setStatus

theorem execGatherAbort {w : Writer} {job : BitVec 2} (h : Rises o s) : RisesNext o (Machine.execGatherAbort w job s) := .next h.gAbort.setStatus

theorem execGatherAbandon {w : Writer} {job : BitVec 2} {step : W32} {id : W16} (h : Rises o s) :
    RisesNext o (Machine.execGatherAbandon w job step id s) := .next h.gAbandonOne.setStatus

theorem execGatherResume {w : Writer} {job : BitVec 2} (h : Rises o s) : RisesNext o (Machine.execGatherResume w job s) := .next h.gResume.setStatus

theorem writeGatherCtl {v : W64} (h : Rises o s) : Rises o (Machine.writeGatherCtl s v).1 := by
  unfold Machine.writeGatherCtl
  dsimp only
  split
  exacts [h.gDrain, h.gAbort, h.gAbandonOne, h.gResume, h]

theorem execGatherDrainLimitExpire {job : BitVec 2} (h : Rises o s) : RisesNext o (Machine.execGatherDrainLimitExpire job s) :=
  .next (by split; exacts [.ite h.modJob.abandonJob h, h])

end Rises

end Sys2Proof.Machine
end

section
/-!
PROOFS of the statement of the family '17_security.md', continued: tile configuration, fences, switches and jobs.
-/
namespace Sys2Proof.Machine
open Sys2Proof

namespace Rises
variable {o s t : State} {α β : Type}

/-! ## Tile configuration -/

theorem writeShare {t : W16} {v : W32} (h : Rises o s) : Rises o (Machine.writeShare s t v).1 := .iteFst h (.iteFst h h.modTile)

theorem execTileShareWrite {w : Writer} {tile : W16} {value : W32} (h : Rises o s) : RisesNext o (Machine.execTileShareWrite w tile value s) :=
  .onTile (.finish (h.tileReg fun _ h => h.writeShare))

theorem writeAcntCfg {t : W16} {k : Nat} {v : W32} (h : Rises o s) : Rises o (Machine.writeAcntCfg s t k v).1 := h.modTile

theorem execAcntCfgWrite {w : Writer} {tile : W16} {acnt : BitVec 6} {value : W32} (h : Rises o s) :
    RisesNext o (Machine.execAcntCfgWrite w tile acnt value s) := .onTile (.finish (h.tileReg fun _ h => h.writeAcntCfg))

theorem writeSlotCfg {t : W16} {k : Nat} {v : W64} (h : Rises o s) : Rises o (Machine.writeSlotCfg s t k v).1 :=
  .iteFst h (.iteFst h.putTile (.iteFst h (.iteFst h (.iteFst h h.putTile))))

theorem execSlotCfgWrite {w : Writer} {tile : W16} {slot : BitVec 6} {value : W64} (h : Rises o s) :
    RisesNext o (Machine.execSlotCfgWrite w tile slot value s) := .onTile (.finish (h.tileReg fun _ h => h.writeSlotCfg))

theorem writeHqCfg {t : W16} {n : Nat} {v : W32} (h : Rises o s) : Rises o (Machine.writeHqCfg s t n v).1 := .iteFst h h.modTile

theorem execHqCfgWrite {w : Writer} {tile : W16} {hq : BitVec 3} {value : W32} (h : Rises o s) :
    RisesNext o (Machine.execHqCfgWrite w tile hq value s) := .onTile (.finish (h.tileReg fun _ h => h.writeHqCfg))

theorem writeStqCfg {die : Nat} {q : BitVec 12} {v : W64} (h : Rises o s) : Rises o (Machine.writeStqCfg s die q v).1 :=
  .iteFst h (.iteFst h h.modDie)

theorem execStqCfgWrite {w : Writer} {die : Fin 12} {qid : BitVec 12} {value : W64} (h : Rises o s) :
    RisesNext o (Machine.execStqCfgWrite w die qid value s) := .next (.finish (h.dieReg fun _ h => h.writeStqCfg))

theorem writeReachCfg {world : Bool} {die : Nat} {n : BitVec 10} {v : W64} (h : Rises o s) : Rises o (Machine.writeReachCfg s world die n v).1 :=
  .iteFst h (.iteFst h (.iteFst h h.modDie))

theorem execReachCfgWrite {w : Writer} {die : Fin 12} {reach : BitVec 10} {value : W64} (h : Rises o s) :
    RisesNext o (Machine.execReachCfgWrite w die reach value s) := .next (.finish (h.dieReg fun _ h => h.writeReachCfg))

theorem writeReachStride {die : Nat} {n : BitVec 10} {v : W64} (h : Rises o s) : Rises o (Machine.writeReachStride s die n v).1 :=
  .iteFst h (.iteFst h h.modDie)

theorem writeReachDesc {die : Nat} {n : BitVec 10} {i : Nat} {v : BitVec 512} (h : Rises o s) : Rises o (Machine.writeReachDesc s die n i v).1 :=
  .iteFst h (.iteFst h h.modDie)

theorem execSpadEccWriteback {tile : W16} {word : BitVec 16} (h : Rises o s) : RisesNext o (Machine.execSpadEccWriteback tile word s) :=
  .onTile (.ite h.modTile h)

theorem execSpadPatrol {tile : W16} {row : BitVec 12} (h : Rises o s) : RisesNext o (Machine.execSpadPatrol tile row s) :=
  .onTile (h.modTile.foldl fun _ _ h => h.putErr)

/-! ## Fences -/

theorem settleJobs (h : Rises o s) : Rises o (Machine.settleJobs s) := h.foldl fun _ _ h => h.checkFinished.checkPaused

theorem fenceRec {d : Nat} {r : BitVec 9} {t : W16} (h : Rises o s) : Rises o (Machine.fenceRec s d r t) :=
  .ite h (.ite (.ite h.abortRec.sweepRec h) (by dsimp only; split; exacts [.ite h.modRec.modRec h.modRec, h.modRec]))

theorem fenceXfers {t : W16} (h : Rises o s) : Rises o (Machine.fenceXfers s t) :=
  h.foldl fun _ _ h => .foldl (h.foldl fun _ _ h => h.abortReach) fun _ _ h => h.fenceRec

theorem fencePushes {t : W16} (h : Rises o s) : Rises o (Machine.fencePushes s t) := h.frame.foldl fun _ _ h => h.dropHeld

theorem endTrees {t : W16} (h : Rises o s) : Rises o (Machine.endTrees s t) := h.frame

theorem fenceInMap {t : W16} (h : Rises o s) : Rises o (Machine.fenceInMap s t) := h.putHalf

theorem fenceTile {t : W16} {injected : Bool} (h : Rises o s) : Rises o (Machine.fenceTile s t injected) :=
  h.loseMembers.frame.breakTrees.endTrees.fenceXfers.fencePushes.putTile.settleJobs.putErr.fenceInMap

theorem holdTile {t : W16} (h : Rises o s) : Rises o (Machine.holdTile s t) := h.modTile.settleJobs

theorem tileFault {t : W16} {detail : Byte} {injected : Bool} (h : Rises o s) : Rises o (Machine.tileFault s t detail injected) :=
  .ite h.putErr (.ite (.ite h.putErr.modTile.fenceInMap h.putErr) (.ite h.putErr.fenceTile (.ite h.putErr h.putErr.holdTile)))

/-! ## Context switches -/

theorem takeCore {t : W16} {k : BitVec 2} (h : Rises o s) : Rises o (Machine.takeCore s t k) := h.modTile

theorem leaveCore {t : W16} {j : BitVec 2} {st : CtxSt} (h : Rises o s) : Rises o (Machine.leaveCore s t j st) := h.modCtx

theorem readStore {t : W16} {k : BitVec 2} (h : Rises o s) : Rises o (Machine.readStore s t k) := .ite h.tileFault h.takeCore

theorem switchTile {t : W16} (h : Rises o s) : Rises o (Machine.switchTile s t) := by
  refine .ite h ?_
  split
  exacts [.ite h (.ite h.modCtx (.ite h.leaveCore.checkPaused (by split; exacts [h.leaveCore.readStore, h]))),
    .ite h (by split; exacts [h.readStore, h])]

theorem execContextSwitch {tile : W16} (h : Rises o s) : RisesNext o (Machine.execContextSwitch tile s) := .onTile h.switchTile

theorem execYieldMaxExpire {tile : W16} (h : Rises o s) : RisesNext o (Machine.execYieldMaxExpire tile s) := .onTile h.markDue

theorem execSwitchLate {tile : W16} (h : Rises o s) : RisesNext o (Machine.execSwitchLate tile s) :=
  .onTile (by dsimp only; split; exacts [by split; exacts [.ite h.modTile.putErr h, h], h])

theorem writeYield {t : W16} {j : BitVec 2} {v : W64} (h : Rises o s) : Rises o (Machine.writeYield s t j v).1 :=
  .iteFst h (.iteFst h (.ite h.modCtx.yieldFetch h.modCtx))

theorem execYieldRegWrite {w : Writer} {tile : W16} {job : BitVec 2} {value : W64} (h : Rises o s) :
    RisesNext o (Machine.execYieldRegWrite w tile job value s) := .onTile (.finish (h.tileReg fun _ h => h.writeYield))

theorem ctxGo {t : W16} {j : BitVec 2} {f : Ctx → Ctx} (h : Rises o s) : Rises o (Machine.ctxGo s t j f) := h.modCtx

theorem ctxResume {t : W16} {j : BitVec 2} (h : Rises o s) : Rises o (Machine.ctxResume s t j).1 := .iteFst h h.ctxGo

theorem ctxRestart {t : W16} {j : BitVec 2} {pc : W64} (h : Rises o s) : Rises o (Machine.ctxRestart s t j pc).1 := .iteFst h h.ctxGo

theorem execCtxResume {w : Writer} {tile : W16} {job : BitVec 2} (h : Rises o s) : RisesNext o (Machine.execCtxResume w tile job s) :=
  .onTile (.finish (h.tileReg fun _ h => h.ctxResume))

theorem execCtxRestart {w : Writer} {tile : W16} {job : BitVec 2} {pc : W64} (h : Rises o s) :
    RisesNext o (Machine.execCtxRestart w tile job pc s) := .onTile (.finish (h.tileReg fun _ h => h.ctxRestart))

theorem writeCtxCtl {t : W16} {j : BitVec 2} {v : W64} (h : Rises o s) : Rises o (Machine.writeCtxCtl s t j v).1 := by
  unfold Machine.writeCtxCtl
  split
  exacts [h.ctxResume, h.ctxRestart, h]

/-! ## Commands of a job -/

theorem freezeRec {d : Nat} {r : BitVec 9} (h : Rises o s) : Rises o (Machine.freezeRec s d r) := by
  unfold Machine.freezeRec
  dsimp only
  split
  exacts [h.modRec.settleRec, h.modRec, h]

theorem freezeJob {j : BitVec 2} (h : Rises o s) : Rises o (Machine.freezeJob s j) :=
  h.modJob.foldl fun _ _ h => .modDie (h.foldl fun _ _ h => h.freezeRec)

theorem thawRec {d : Nat} {r : BitVec 9} (h : Rises o s) : Rises o (Machine.thawRec s d r) := by
  unfold Machine.thawRec
  dsimp only
  split
  exacts [h.modRec, h.resumeRec, h.failParked, h.modRec, h.failParked, h.resumeRec, h]

theorem thawJob {j : BitVec 2} (h : Rises o s) : Rises o (Machine.thawJob s j) := h.modJob.foldl fun _ _ h => .modDie (h.foldl fun _ _ h => h.thawRec)

theorem saveShares {j : BitVec 2} {ts : List (W16 × Nat × Nat)} {va : Nat} (h : Rises o s) : Rises o (Machine.saveShares s j ts va) :=
  h.foldl fun _ _ h => .ite h.putErr h.vaWrite

theorem loadShares {j : BitVec 2} {ts : List (W16 × Nat × Nat)} {va : Nat} (h : Rises o s) : Rises o (Machine.loadShares s j ts va) := by
  refine .foldl h fun _ _ h => ?_
  dsimp only
  split
  · next t _ heq =>
    have ht : Rises o t := .ofFst heq h.vaRead
    exact ht.spadWrite
  · next t _ _ heq => exact .ofFst heq h.vaRead

theorem saveRefused {j : BitVec 2} {r : State × Byte} (h : Rises o s) (hr : Machine.saveRefused s j = some r) : Rises o r.1 := by
  unfold Machine.saveRefused at hr
  dsimp only at hr
  split at hr
  · contradiction
  · split at hr
    · exact Option.some.inj hr ▸ h.putErr
    · exact Option.some.inj hr ▸ h

theorem clearArea {pa n : Nat} (h : Rises o s) : Rises o (Machine.clearArea s pa n) := h.putStack.setHbm

theorem saveJob {j : BitVec 2} (h : Rises o s) : Rises o (Machine.saveJob s j) := by
  unfold Machine.saveJob
  extract_lets s1 _ _ _ _ s2 s3 s4 s5
  have h1 : Rises o s1 := h.foldl fun _ _ h => .ite h.tileFault h
  have h4 : Rises o s4 := h1.clearArea.modJob.frame
  have h5 : Rises o s5 := .ite h4.saveShares h4
  exact h5.frame.setJobSt

theorem finishUnload {j : BitVec 2} (h : Rises o s) : Rises o (Machine.finishUnload s j) := .ite h.saveJob.payLate h

theorem unloadJob {j : BitVec 2} (h : Rises o s) : Rises o (Machine.unloadJob s j).1 := by
  refine .iteFst h (.iteFst h ?_)
  split
  · next hr => exact h.saveRefused hr
  · exact h.setJobSt.freezeJob.finishUnload

theorem checkHeld {t : W16} {n : Nat} (h : Rises o s) : Rises o (Machine.checkHeld s t n) := h.modTile

theorem thawWeirs {j : BitVec 2} (h : Rises o s) : Rises o (Machine.thawWeirs s j) := h.foldl fun _ _ h => .ite h h.weirTest

theorem reloadJob {j : BitVec 2} (h : Rises o s) : Rises o (Machine.reloadJob s j).1 := by
  refine .iteFst h (.setJobSt (.thawWeirs (.gResume (.thawJob ?_))))
  exact .modJob (.foldl (.foldl (.ite h.setJobSt.loadShares h.setJobSt) fun _ _ h => h.modTile) fun _ _ h => h.foldl fun _ _ h => h.checkHeld)

theorem discardTrees {j : BitVec 2} (h : Rises o s) : Rises o (Machine.discardTrees s j) := h.frame

theorem discardJob {j : BitVec 2} (h : Rises o s) : Rises o (Machine.discardJob s j).1 := by
  refine .iteFst h (.setJobSt ?_)
  exact .frame (.discardTrees (.gAbort (h.orphanJob.modJob.foldl fun _ _ h => .foldl (h.foldl fun _ _ h => h.abortStq) fun _ _ h => h.abortReach)))

theorem resumeJob {j : BitVec 2} (h : Rises o s) : Rises o (Machine.resumeJob s j).1 := .iteFst h h.setJobSt.mapCtx.checkFinished

theorem pauseCmd {j : BitVec 2} (h : Rises o s) : Rises o (Machine.pauseCmd s j).1 := .iteFst h h.pauseJob

theorem writeJobCtl {load : State → State × Byte} {j : BitVec 2} {cmd : Nat} (hf : ∀ s, Rises o s → Rises o (load s).1) (h : Rises o s) :
    Rises o (Machine.writeJobCtl load s j cmd).1 := by
  unfold Machine.writeJobCtl
  split
  exacts [hf _ h, h.resumeJob, h.pauseCmd, h.unloadJob, h.reloadJob, h.discardJob, h]

theorem execJobResume {w : Writer} {job : BitVec 2} (h : Rises o s) : RisesNext o (Machine.execJobResume w job s) := .next h.resumeJob.finish

theorem execJobPause {w : Writer} {job : BitVec 2} (h : Rises o s) : RisesNext o (Machine.execJobPause w job s) := .next h.pauseCmd.finish

theorem execJobUnload {w : Writer} {job : BitVec 2} (h : Rises o s) : RisesNext o (Machine.execJobUnload w job s) :=
  .next (.ite h.unloadJob.frame h.unloadJob.finish)

theorem execJobReload {w : Writer} {job : BitVec 2} (h : Rises o s) : RisesNext o (Machine.execJobReload w job s) := .next h.reloadJob.finish

theorem execJobDiscard {w : Writer} {job : BitVec 2} (h : Rises o s) : RisesNext o (Machine.execJobDiscard w job s) := .next h.discardJob.finish

end Rises

end Sys2Proof.Machine
end

section
/-!
PROOFS of the statement of the family '17_security.md', continued: the RoCE queue pairs and the commands of a port.
-/
namespace Sys2Proof.Machine
open Sys2Proof

namespace Rises
variable {o s t : State} {α β : Type}

/-! ## Queue pairs -/

theorem putQp {q : BitVec 12} {x : RoceQp} (h : Rises o s) : Rises o (Machine.putQp s q x) := h.frame

theorem putMr {r : Nat} {x : RoceMr} (h : Rises o s) : Rises o (Machine.putMr s r x) := h.frame

theorem roceFlush {q : BitVec 12} (h : Rises o s) : Rises o (Machine.roceFlush s q) := .ite h.putQp h

theorem roceFlushAll (h : Rises o s) : Rises o (Machine.roceFlushAll s) := h.foldl fun _ _ h => h.roceFlush

theorem roceSend {q : BitVec 12} {k : RocePkt} (h : Rises o s) : Rises o (Machine.roceSend s q k) := h.putQp.roceFlush

theorem writeMr {r reg : Nat} {v : W64} (h : Rises o s) : Rises o (Machine.writeMr s r reg v).1 :=
  .iteFst h (by split; exacts [h.putMr, .iteFst h h.putMr, .iteFst h h.putMr, h])

theorem execRoceMrWrite {w : Writer} {region : BitVec 10} {reg : BitVec 2} {value : W64} (h : Rises o s) :
    RisesNext o (Machine.execRoceMrWrite w region reg value s) := .next h.writeMr.finish

theorem failQp {q : BitVec 12} {st : Byte} (h : Rises o s) : Rises o (Machine.failQp s q st) := h.unpark.putQp

theorem qpError {q : BitVec 12} {port : Nat} (h : Rises o s) : Rises o (Machine.qpError s q port) := .ite h h.failQp.putErr

theorem refuseAccess {q : BitVec 12} {port : Nat} {psn : BitVec 24} (h : Rises o s) : Rises o (Machine.refuseAccess s q port psn) :=
  h.roceSend.putErr.qpError

theorem refuseInvalid {q : BitVec 12} {port : Nat} {psn : BitVec 24} (h : Rises o s) : Rises o (Machine.refuseInvalid s q port psn) :=
  h.roceSend.qpError

theorem settleEth (h : Rises o s) : Rises o (Machine.settleEth s) := h.foldl fun _ _ h => h.settleStop

theorem parkWr {q : BitVec 12} {w : BitVec 256} {f : BitVec 3} {va : Nat} {dst : Bool} (h : Rises o s) : Rises o (Machine.parkWr s q w f va dst) :=
  h.putQp.parkAccess

theorem wrBegun {q : BitVec 12} {n : Nat} (h : Rises o s) : Rises o (Machine.wrBegun s q n) := h.putQp

theorem beginWr {q : BitVec 12} (h : Rises o s) : Rises o (Machine.beginWr s q) := by
  unfold Machine.beginWr
  dsimp only
  split
  · refine .ite h (.ite h.wrBegun.roceSend ?_)
    split
    · next t _ heq =>
      have ht : Rises o t := .ofFst heq h.vaRead
      exact ht.wrBegun.foldl fun _ _ h => h.roceSend
    · next t _ _ heq =>
      have ht : Rises o t := .ofFst heq h.vaRead
      exact ht.parkWr
    · next t _ heq =>
      have ht : Rises o t := .ofFst heq h.vaRead
      exact ht.putQp
  · exact h

theorem wrDone {q : BitVec 12} {st : Byte} {done : Nat} (h : Rises o s) : Rises o (Machine.wrDone s q st done) := by
  unfold Machine.wrDone
  dsimp only
  split
  exacts [h.unpark.putQp.beginWr, h]

theorem resolveWr {q : BitVec 12} {resume : Bool} (h : Rises o s) : Rises o (Machine.resolveWr s q resume) :=
  .ite h.unpark.putQp.beginWr h.wrDone.settleEth

theorem execRoceWrPost {w : Writer} {wr : BitVec 256} (h : Rises o s) : RisesNext o (Machine.execRoceWrPost w wr s) :=
  .next (.ite h.setStatus (.ite h.putQp.setStatus (.ite h.setStatus h.putQp.beginWr.setStatus)))

theorem execRoceRequestComplete {qp : BitVec 12} (h : Rises o s) : RisesNext o (Machine.execRoceRequestComplete qp s) :=
  .next (.settleEth (by split; exacts [.ite h.wrDone h.beginWr, h]))

theorem execRoceRetryTimeout {qp : BitVec 12} (h : Rises o s) : RisesNext o (Machine.execRoceRetryTimeout qp s) :=
  .next (.ite (.ite h.putQp.beginWr h.qpError.settleEth) h)

theorem takeReadResp {q : BitVec 12} {psn : BitVec 24} {first last : Bool} {bs : List Byte} (h : Rises o s) :
    Rises o (Machine.takeReadResp s q psn first last bs) := by
  unfold Machine.takeReadResp
  dsimp only
  split
  · refine .ite ?_ h
    split
    · next t _ heq =>
      have ht : Rises o t := .ofFst heq h.vaWrite
      exact ht.putQp
    · next t _ _ heq =>
      have ht : Rises o t := .ofFst heq h.vaWrite
      exact ht.parkWr
    · next t _ heq =>
      have ht : Rises o t := .ofFst heq h.vaWrite
      exact ht.wrDone
  · exact h

theorem takeCnp {q : BitVec 12} (h : Rises o s) : Rises o (Machine.takeCnp s q) := h.putQp

theorem answerCe {q : BitVec 12} (h : Rises o s) : Rises o (Machine.answerCe s q) := .ite h.putQp.roceSend h

theorem countMr {port : Nat} {m : RoceMr} (h : Rises o s) : Rises o (Machine.countMr s port m) := .ite h (.ite h.arriveCount h.putErr)

theorem takeWrite {port : Nat} {q : BitVec 12} {psn : BitVec 24} {first last : Bool} {va : W64} {rkey : W32} {len : Nat} {bs : List Byte}
    (h : Rises o s) :
    Rises o (Machine.takeWrite s port q psn first last va rkey len bs) := by
  refine .ite h.refuseInvalid (.ite h.refuseAccess ?_)
  split
  · exact h.refuseInvalid
  · refine .ite h.refuseInvalid ?_
    split
    · exact h.refuseAccess
    · split
      · next t _ heq =>
        have ht : Rises o t := .ofFst heq h.vaWrite
        exact .roceSend (.ite ht.putQp.countMr ht.putQp)
      · next t _ _ heq =>
        have ht : Rises o t := .ofFst heq h.vaWrite
        exact ht.refuseAccess

theorem takeRead {port : Nat} {q : BitVec 12} {psn : BitVec 24} {va : W64} {rkey : W32} {n : Nat} (h : Rises o s) :
    Rises o (Machine.takeRead s port q psn va rkey n) := by
  refine .ite h.refuseInvalid ?_
  split
  · exact h.refuseAccess
  · split
    · next t _ heq =>
      have ht : Rises o t := .ofFst heq h.vaRead
      exact ht.putQp.foldl fun _ _ h => h.roceSend
    · next t _ _ heq =>
      have ht : Rises o t := .ofFst heq h.vaRead
      exact ht.refuseAccess

theorem inSeq {q : BitVec 12} {psn : BitVec 24} {f : State → State} (h : Rises o s) (hf : ∀ s, Rises o s → Rises o (f s)) :
    Rises o (Machine.inSeq s q psn f) := .ite (hf _ h.putQp) h

theorem execRocePacketReceive {port : Fin 24} {ce : Bool} {p : RocePkt} (h : Rises o s) :
    RisesNext o (Machine.execRocePacketReceive port ce p s) := by
  refine .next (.ite (.settleEth ?_) h)
  split
  · exact .inSeq (.ite h.answerCe h) fun _ h => h.takeWrite
  · exact .inSeq (.ite h.answerCe h) fun _ h => h.takeRead
  · exact .takeReadResp (.ite h.answerCe h)
  · dsimp only
    split
    exacts [.ite (.putQp (.ite h.answerCe h)) (.ite h.answerCe h), .ite h.answerCe h]
  · exact .qpError (.ite h.answerCe h)
  · exact .refuseInvalid (.ite h.answerCe h)
  · exact .takeCnp (.ite h.answerCe h)

theorem execCnpReceive {qp : BitVec 12} (h : Rises o s) : RisesNext o (Machine.execCnpReceive qp s) := .next (.ite h.takeCnp h)

theorem execRoceRateRecovery {qp : BitVec 12} (h : Rises o s) : RisesNext o (Machine.execRoceRateRecovery qp s) :=
  .next (by dsimp only; split; exacts [.ite h.putQp h, h])

theorem execEthFrameReceive {port : Fin 24} {fcsOk overRate : Bool} {bytes : List Byte} (h : Rises o s) :
    RisesNext o (Machine.execEthFrameReceive port fcsOk overRate bytes s) := .next (.ite (.ite h.frame h.putPort) h)

theorem execPriorityFlowControl {port : Fin 24} {pause resume : Byte} (h : Rises o s) :
    RisesNext o (Machine.execPriorityFlowControl port pause resume s) := .next (.ite h.putPort.roceFlushAll h)

theorem abortRoce {p : Nat} (h : Rises o s) : Rises o (Machine.abortRoce s p) := h.foldl fun _ _ h => h.failQp

/-! ## Commands of a port -/

theorem portDrops {p : Nat} (h : Rises o s) : Rises o (Machine.portDrops s p) :=
  .ite h.dropPkts.dropPopped.gPortLost.abortRoce h.dropPkts.dropPopped.gPortLost

theorem stopAbort {p : Nat} (h : Rises o s) : Rises o (Machine.stopAbort s p) := .ite h h.setPort.portDrops.settleStop

theorem stopDrain {p : Nat} (h : Rises o s) : Rises o (Machine.stopDrain s p) := by
  unfold Machine.stopDrain
  split
  exacts [h, h, h.stopAbort, .ite h.setPort.settleEth h.setPort.settleStop]

theorem execStopDrain {w : Writer} {port : Fin 24} (h : Rises o s) : RisesNext o (Machine.execStopDrain w port s) :=
  .next (.finish (h.portReg fun _ h => h.stopDrain))

theorem execStopAbort {w : Writer} {port : Fin 24} (h : Rises o s) : RisesNext o (Machine.execStopAbort w port s) :=
  .next (.finish (h.portReg fun _ h => h.stopAbort))

theorem execDrainLimitExpire {die : Fin 12} (h : Rises o s) : RisesNext o (Machine.execDrainLimitExpire die s) :=
  .next (h.drainLimit.foldl fun _ _ h => .ite h.stopAbort h)

theorem trainFail {p : Nat} (h : Rises o s) : Rises o (Machine.trainFail s p) := .ite h.putPort h.setPort.putErr.portDrops

theorem resetLink {p : Nat} (h : Rises o s) : Rises o (Machine.resetLink s p) := .gPortLost (h.putPort.foldl fun _ _ h => h.dropPkt)

theorem trainTizal {p : Nat} {r : TrainResult} {w : Nat} (h : Rises o s) : Rises o (Machine.trainTizal s p r w) := by
  refine .foldl (.pushPkt (.pump (.ite (.putErr (.ite h.setPort.resetLink h.setPort.takeAck.resend)) ?_))) fun _ _ h => h.tellMismatch.peerBack
  exact .ite (.putErr (.ite h.setPort.resetLink h.setPort.takeAck.resend)) (.ite h.setPort.resetLink h.setPort.takeAck.resend)

theorem execPortTrainingDone {port : Fin 24} {r : TrainResult} (h : Rises o s) : RisesNext o (Machine.execPortTrainingDone port r s) :=
  .next (.ite (.ite h.trainFail (.ite h.trainTizal h.setPort.roceFlushAll)) h)

end Rises

end Sys2Proof.Machine
end

section
/-!
PROOFS of the statement of the family '17_security.md', continued: dies, publications, start-up and faults.
-/
namespace Sys2Proof.Machine
open Sys2Proof

namespace Rises
variable {o s t : State} {α β : Type}

/-! ## Dies lost and reset -/

theorem shutEdge {e : Nat} (h : Rises o s) : Rises o (Machine.shutEdge s e) := h.putEdge

theorem edgeDown {e : Nat} (h : Rises o s) : Rises o (Machine.edgeDown s e) := .putErr (h.putEdge.foldl fun _ _ h => h.dropLink)

theorem loseBlocks {d : Nat} (h : Rises o s) : Rises o (Machine.loseBlocks s d) := h.foldl fun _ _ h => h.loseBlk

theorem loseTrees {d : Nat} (h : Rises o s) : Rises o (Machine.loseTrees s d) := h.breakTrees

theorem loseStack {d : Nat} (h : Rises o s) : Rises o (Machine.loseStack s d) := h.failReqs.setStackSt.setHbm

theorem losePorts {d : Nat} (h : Rises o s) : Rises o (Machine.losePorts s d) := h.frame.foldl fun _ _ h => h.setPort.portDrops.frame.setPort

theorem loseObjects {d : Nat} (h : Rises o s) : Rises o (Machine.loseObjects s d) := h.modDie.frame.settleInval.foldl fun _ _ h => h.settleViews

theorem rejoinFail {d : Nat} {counts : Bool} (h : Rises o s) : Rises o (Machine.rejoinFail s d counts) := h.setDieSt.putErr

theorem loseDie {d : Nat} {cause : BitVec 5} (h : Rises o s) : Rises o (Machine.loseDie s d cause) := by
  unfold Machine.loseDie
  extract_lets _ s1 s2 s3 s4 s5 _ s6 s7 s8
  have h2 : Rises o s2 := .loseTrees (.loseMembers (h.foldl fun _ _ h => h.shutEdge))
  have h5 : Rises o s5 := h2.gHomeLost.losePorts.loseBlocks.loseStack.loseObjects.resetHalf.resetHalf
  have h6 : Rises o s6 := by
    dsimp only [s6]
    split
    exacts [h5.frame, h5]
  have h8 : Rises o s8 := h6.setDieSt.settleJobs.putErr
  exact .ite (.ite h8.rejoinFail h8) h

theorem execDieClockLoss {die : Fin 12} (h : Rises o s) : RisesNext o (Machine.execDieClockLoss die s) := .next h.loseDie

theorem execHeartbeatTimeout {die : Fin 12} (h : Rises o s) : RisesNext o (Machine.execHeartbeatTimeout die s) := .next h.loseDie

theorem execDieControlWatchdog {die : Fin 12} (h : Rises o s) : RisesNext o (Machine.execDieControlWatchdog die s) := .next h.loseDie

theorem dieReset {d : Nat} (h : Rises o s) : Rises o (Machine.dieReset s d).1 := .iteFst h.loseDie h

theorem execDieResetCmd {w : Writer} {die : Fin 12} (h : Rises o s) : RisesNext o (Machine.execDieResetCmd w die s) :=
  .next (.finish (h.secureWrite fun _ h => h.dieReset))

theorem bistFence {d i : Nat} (h : Rises o s) : Rises o (Machine.bistFence s d i) := .ite h.modTile.putErr.fenceInMap h

theorem copyReserve {d : Nat} (h : Rises o s) : Rises o (Machine.copyReserve s d) := by
  refine .ite ?_ h
  split
  exacts [h.setHbm, h]

theorem trainStack {d : Nat} {f : DieFound} (h : Rises o s) : Rises o (Machine.trainStack s d f) :=
  .ite h.setStackSt.setHbm.repairRows.setStackSt.copyReserve h.setStackSt.setStackSt.putErr

theorem trainEdge {e : Nat} {ok : Bool} {pairs : List (Fin 24)} (h : Rises o s) : Rises o (Machine.trainEdge s e ok pairs) :=
  .ite (h.putEdge.foldl fun _ _ h => h.putErr) h.putEdge.putErr

theorem startPorts {d : Nat} (h : Rises o s) : Rises o (Machine.startPorts s d) := h.foldl fun _ _ h => h.startPort

theorem beginJoin {d : Nat} {f : DieFound} (h : Rises o s) : Rises o (Machine.beginJoin s d f) := h.setDieSt

theorem joinDie {d : Nat} {f : DieFound} (h : Rises o s) : Rises o (Machine.joinDie s d f) := by
  refine .ite (.setDieSt (.startPorts ?_)) h.rejoinFail
  split
  exacts [.frame (.foldl (.trainStack (.frame (h.foldl fun _ _ h => h.bistFence))) fun _ _ h => h.trainEdge),
    .foldl (.trainStack (.frame (h.foldl fun _ _ h => h.bistFence))) fun _ _ h => h.trainEdge]

theorem settleJoin {d : Nat} (h : Rises o s) : Rises o (Machine.settleJoin s d) := by
  unfold Machine.settleJoin
  split
  exacts [.ite h.joinDie h, h]

theorem dieRejoin {d : Nat} {f : DieFound} (h : Rises o s) : Rises o (Machine.dieRejoin s d f).1 := .iteFst (.ite h.modDie.beginJoin h.modDie) h

theorem execDieRejoinCmd {w : Writer} {die : Fin 12} {f : DieFound} (h : Rises o s) : RisesNext o (Machine.execDieRejoinCmd w die f s) :=
  .next (.finish (h.secureWrite fun _ h => h.dieRejoin))

theorem execRejoinDelayExpire {die : Fin 12} {f : DieFound} (h : Rises o s) : RisesNext o (Machine.execRejoinDelayExpire die f s) :=
  .next (.ite h.beginJoin h)

theorem writeDieCfg {d : Nat} {v : W32} (h : Rises o s) : Rises o (Machine.writeDieCfg s d v).1 := .iteFst h h.modDie

theorem execD2dLinkLockLoss {edge : Fin 16} {link : Fin 24} {remapped trains : Bool} (h : Rises o s) :
    RisesNext o (Machine.execD2dLinkLockLoss edge link remapped trains s) :=
  .next (.ite (.ite (.ite h.freshWord.putEdge.putErr h.freshWord.putEdge) h.edgeDown) h)

theorem edgeRetrain {e : Nat} {trains : Bool} {pairs : List (Fin 24)} (h : Rises o s) : Rises o (Machine.edgeRetrain s e trains pairs).1 :=
  .iteFst h.trainEdge h

theorem execEdgeRetrain {w : Writer} {edge : Fin 16} {trains : Option (List (Fin 24))} (h : Rises o s) :
    RisesNext o (Machine.execEdgeRetrain w edge trains s) := .next (.finish (h.secureWrite fun _ h => h.edgeRetrain))

theorem execUcieModuleLoss {m : BitVec 2} (h : Rises o s) : RisesNext o (Machine.execUcieModuleLoss m s) :=
  .next (.ite (.ite h.frame.freshWord.putErr.putErr h.frame.freshWord.putErr) h)

theorem execRefLoss (h : Rises o s) : RisesNext o (Machine.execRefLoss s) := .next (.ite h h.putErr)

theorem execClockStepChange {die : Fin 12} {half : Bool} (h : Rises o s) : RisesNext o (Machine.execClockStepChange die half s) :=
  .next (.ite h.putHalf h)

theorem writeClkHalf {i : Nat} {v : W32} (h : Rises o s) : Rises o (Machine.writeClkHalf s i v).1 := .iteFst h h.putHalf

/-! ## Parked transfers -/

theorem resolvePark {p : Park} {resume : Bool} (h : Rises o s) : Rises o (Machine.resolvePark s p resume) := by
  unfold Machine.resolvePark
  split
  exacts [.ite h.unpark.gatherPass h.gParkFails, h.resolveWr]

theorem faultCtl {die : Fin 12} {tag : W32} {resume : Bool} (h : Rises o s) : Rises o (Machine.faultCtl s die tag resume).1 :=
  .iteFst h.resolveXfer (by split; exacts [h.resolvePark, h.modDie])

theorem execFaultCtlResume {w : Writer} {die : Fin 12} {tag : W32} (h : Rises o s) : RisesNext o (Machine.execFaultCtlResume w die tag s) :=
  .next (.finish (h.dieReg fun _ h => h.faultCtl))

theorem execFaultCtlFail {w : Writer} {die : Fin 12} {tag : W32} (h : Rises o s) : RisesNext o (Machine.execFaultCtlFail w die tag s) :=
  .next (.finish (h.dieReg fun _ h => h.faultCtl))

/-! ## Publications -/

theorem writePubCfg {e : BitVec 4} {v : W64} (h : Rises o s) : Rises o (Machine.writePubCfg s e v).1 := .iteFst h (.iteFst h h.putPub)

theorem writePubBase {e : BitVec 4} {v : W64} (h : Rises o s) : Rises o (Machine.writePubBase s e v).1 := .iteFst h (.iteFst h h.putPub)

theorem execPubCfgWrite {w : Writer} {entry : BitVec 4} {value : W64} (h : Rises o s) : RisesNext o (Machine.execPubCfgWrite w entry value s) :=
  .next h.writePubCfg.finish

theorem pubPublish {e : BitVec 4} {version : W32} (h : Rises o s) : Rises o (Machine.pubPublish s e version).1 := .iteFst h h.putPub.modJob

theorem pubUnpublish {e : BitVec 4} (h : Rises o s) : Rises o (Machine.pubUnpublish s e).1 := .iteFst h (.iteFst h h.putPub)

theorem pubHold {e : BitVec 4} (h : Rises o s) : Rises o (Machine.pubHold s e).1 := .iteFst h (.iteFst h h.putPub)

theorem pubRelease {e : BitVec 4} (h : Rises o s) : Rises o (Machine.pubRelease s e).1 := .iteFst h h.putPub

theorem execPublish {w : Writer} {entry : BitVec 4} {version : W32} (h : Rises o s) : RisesNext o (Machine.execPublish w entry version s) :=
  .next h.pubPublish.finish

theorem execUnpublish {w : Writer} {entry : BitVec 4} (h : Rises o s) : RisesNext o (Machine.execUnpublish w entry s) := .next h.pubUnpublish.finish

theorem execHold {w : Writer} {entry : BitVec 4} (h : Rises o s) : RisesNext o (Machine.execHold w entry s) := .next h.pubHold.finish

theorem execRelease {w : Writer} {entry : BitVec 4} (h : Rises o s) : RisesNext o (Machine.execRelease w entry s) := .next h.pubRelease.finish

theorem writePubCtl {v : W64} (h : Rises o s) : Rises o (Machine.writePubCtl s v).1 := by
  unfold Machine.writePubCtl
  dsimp only
  split
  exacts [h.pubPublish, h.pubUnpublish, h.pubHold, h.pubRelease, h]

theorem invalView {j : BitVec 2} {v : W64} (h : Rises o s) : Rises o (Machine.invalView s j v) := .ite h.invalidate h

theorem oweView {j : BitVec 2} {v : W64} {ep : Nat} (h : Rises o s) : Rises o (Machine.oweView s j v ep) := .ite h.modJob.settleViews h

theorem moveView {j : BitVec 2} {v : W64} (h : Rises o s) : Rises o (Machine.moveView s j v) :=
  .oweView (.invalView (.invalView (.modJob (.ite h.putPub h))))

theorem writeTrnView {j : BitVec 2} {v : W64} (h : Rises o s) : Rises o (Machine.writeTrnView s j v).1 :=
  .iteFst (.iteFst h (.iteFst h h.moveView)) h.moveView

theorem execTrnViewWrite {w : Writer} {job : BitVec 2} {value : W64} (h : Rises o s) : RisesNext o (Machine.execTrnViewWrite w job value s) :=
  .next h.writeTrnView.finishInval

/-! ## Measurements -/

theorem measureChain (h : Rises o s) : Rises o (Machine.measureChain s) := h.setSec

/-! ## Start-up -/

/-- Module reset keeps the queue and empties the stacks. -/
theorem moduleReset (h : Rises o s) : Rises o (Machine.moduleReset s) := h

theorem execModResetFall (h : Rises o s) : RisesNext o (Machine.execModResetFall s) := .next h.moduleReset

theorem absent {d : Nat} {e : Err} (h : Rises o s) : Rises o (Machine.absent s d e) := h.modDie.putErr

theorem discoverDie {f : StartFound} {r : List Nat} {d : Nat} (h : Rises o s) : Rises o (Machine.discoverDie f r s d) :=
  .ite h (.ite h.absent (.ite h.absent (by split; exacts [.ite h.absent (.ite h.absent h.frame), h])))

theorem numberHalf {i : Nat} (h : Rises o s) : Rises o (Machine.numberHalf s i) := .ite h.putHalf h.putHalf

theorem startFail (h : Rises o s) : Rises o (Machine.startFail s) := h.putErr

theorem testDie {f : StartFound} {d : Nat} (h : Rises o s) : Rises o (Machine.testDie f s d) := by
  unfold Machine.testDie
  split
  exacts [.ite h.setDieSt h.frame.absent, h]

theorem trainEdges {f : StartFound} (h : Rises o s) : Rises o (Machine.trainEdges f s) := h.foldl fun _ _ h => h.trainEdge

theorem trainUcie {f : StartFound} (h : Rises o s) : Rises o (Machine.trainUcie f s) := .ite h.frame.putErr h.frame

theorem refLostStart (h : Rises o s) : Rises o (Machine.refLostStart s) := h.putErr.startFail

theorem startDies {f : StartFound} (h : Rises o s) : Rises o (Machine.startDies s f) := by
  unfold Machine.startDies
  extract_lets p s1 s2 r s3 s4 _ s5 s6 s7 s8 s9 s10 s11
  have h2 : Rises o s2 := h.setModSt.frame
  have h3 : Rises o s3 := h2.foldl fun _ _ h => h.discoverDie
  have h4 : Rises o s4 := h3.foldl fun _ _ h => h.numberHalf
  have h7 : Rises o s7 := h4.frame.setModSt.foldl fun _ _ h => h.testDie
  have h8 : Rises o s8 := by
    refine .foldl h7 fun _ _ h => ?_
    split
    exacts [.trainStack (h.foldl fun _ _ h => h.bistFence), h]
  have h9 : Rises o s9 := h8.trainEdges.trainUcie
  have h11 : Rises o s11 := .frame (h9.foldl fun _ _ h => h.startPorts)
  exact .ite h2.refLostStart (.ite h2.startFail (.ite h3.startFail (.ite h9 h11.setSec.setModSt.measureChain)))

theorem railOn {r : Nat} (h : Rises o s) : Rises o (Machine.railOn s r) := h.putRail

theorem rampFails {rail : Fin 28} (h : Rises o s) : Rises o (Machine.rampFails s rail) := .ite h.putRail.putErr.modDie h.putRail.putErr

theorem rampUp {f : StartFound} (h : Rises o s) : Rises o (Machine.rampUp s f) := by
  unfold Machine.rampUp
  extract_lets _ s1 _ s2 s3
  have h1 : Rises o s1 := .ite h h.frame.setModSt
  have h3 : Rises o s3 := .foldl (h1.foldl fun _ _ h => h.railOn) fun _ _ h => h.rampFails
  exact .ite h1.frame (.ite h3 h3.frame.startDies)

theorem powerUp {f : StartFound} (h : Rises o s) : Rises o (Machine.powerUp s f) := .ite h.rampUp h

theorem bootRefused {slot : Bool} (h : Rises o s) : Rises o (Machine.bootRefused s slot) := .ite h h.freshWord.putErr

theorem badRecord {r : FlashRec} (h : Rises o s) : Rises o (Machine.badRecord s r) :=
  .putErr (by split; exacts [h.putStack, h.frame.putPort, h.frame, h.frame, h.frame, h.setSec])

theorem bootSlot {slot : Bool} (h : Rises o s) : Rises o (Machine.bootSlot s slot) := by
  refine .measureChain (.setModSt (.setFw ?_))
  exact h

theorem detect {addrFree : Bool} (h : Rises o s) : Rises o (Machine.detect s addrFree) := .ite h.frame h.frame.putErr

theorem boot {f : StartFound} (h : Rises o s) : Rises o (Machine.boot s f) := by
  unfold Machine.boot
  extract_lets _ _ s1 s2 _ go s3
  have h1 : Rises o s1 := h.frame.railOn
  have h2 : Rises o s2 := h1.foldl fun _ _ h => h.badRecord
  have hgo {t} (h : Rises o t) : Rises o (go t) := .ite h.powerUp h
  have h3 : Rises o s3 := h2.bootRefused.putErr
  exact .ite h1.putErr (.ite h1.putErr.startFail (.ite h1.putErr.startFail
    (.ite (hgo h2.bootSlot.detect) (.ite (hgo h3.bootSlot.detect) h3.bootRefused.startFail))))

theorem freshVin (h : Rises o s) : Rises o (Machine.freshVin s) := h.freshWord.frame

theorem resetRise {f : StartFound} (h : Rises o s) : Rises o (Machine.resetRise s f) := .ite (.boot (.ite h.frame.freshVin h.frame)) h.frame

theorem execModResetRise {f : StartFound} (h : Rises o s) : RisesNext o (Machine.execModResetRise f s) := .next (.ite h h.resetRise)

/-! ## Errors, injected faults and firmware -/

theorem escalateResidue {t : W16} (h : Rises o s) : Rises o (Machine.escalateResidue s t) := .ite h.modTile.tileFault h

theorem execPressComplete {tile : W16} (h : Rises o s) : RisesNext o (Machine.execPressComplete tile s) := .onTile h.pressDone.escalateResidue

theorem execPressResidueMismatch {tile : W16} {replayPasses : Bool} {rowBlocks : Nat} (h : Rises o s) :
    RisesNext o (Machine.execPressResidueMismatch tile replayPasses rowBlocks s) := .onTile h.residueMismatch.escalateResidue

theorem execCtxStorePatrol {tile : W16} {job : BitVec 2} (h : Rises o s) : RisesNext o (Machine.execCtxStorePatrol tile job s) :=
  .onTile (.ite h.tileFault h.modTile)

theorem escalateDie {d : Nat} (h : Rises o s) : Rises o (Machine.escalateDie s d) := h.putErr.loseDie

theorem fatalInternal (h : Rises o s) : Rises o (Machine.fatalInternal s) := h.putErr

theorem disableTreesAt {r : W16} (h : Rises o s) : Rises o (Machine.disableTreesAt s r) := h.frame

theorem bypassAt {p : Pos} (h : Rises o s) : Rises o (Machine.bypassAt s p) :=
  .ite h (.ite h.putHalf.putErr.loseDie.modDie (.putErr (.disableTreesAt (.putHalf (by split; exacts [h.fenceTile, h.putHalf])))))

theorem routerFault {p : Pos} {port : Nat} (h : Rises o s) : Rises o (Machine.routerFault s p port) :=
  .ite h.putErr (.ite h.putErr.bypassAt (by split; exacts [h.putErr.fenceTile, h.putErr]))

theorem escalateLink {p : Pos} {inPort : Nat} (h : Rises o s) : Rises o (Machine.escalateLink s p inPort) := .ite h.frame.routerFault h.frame

theorem execMeshFlitCrcError {blk : Nat} {again : Bool} (h : Rises o s) : RisesNext o (Machine.execMeshFlitCrcError blk again s) :=
  .next (by split; exacts [.ite h (by split; exacts [h.freshWord.putEdge, .ite h.flitError.escalateLink h.flitError]), h])

theorem escalateWeir (h : Rises o s) : Rises o (Machine.escalateWeir s) := by
  unfold Machine.escalateWeir
  dsimp only
  split
  exacts [.ite h.frame.frame.escalateDie h.frame.frame.fatalInternal, h.frame]

theorem execWeirCounterArrival {die : Fin 12} {weir : BitVec 12} {tile : W16} (h : Rises o s) :
    RisesNext o (Machine.execWeirCounterArrival die weir tile s) := .next h.arriveAtCounter.escalateWeir

theorem execWeirReleaseArrive {die : Fin 12} {weir : BitVec 12} {tile : Option W16} (h : Rises o s) :
    RisesNext o (Machine.execWeirReleaseArrive die weir tile s) := .next h.releaseArrive.escalateWeir

theorem fenceCtl {t : W16} {cmd : Nat} (h : Rises o s) : Rises o (Machine.fenceCtl s t cmd).1 :=
  .iteFst h (.iteFst h (.iteFst h (.iteFst (.ite h h.putErr.fenceTile) h.bypassAt)))

theorem execFenceTile {w : Writer} {tile : W16} (h : Rises o s) : RisesNext o (Machine.execFenceTile w tile s) :=
  .next (.finish (h.secureWrite fun _ h => h.fenceCtl))

theorem execBypassRouter {w : Writer} {tile : W16} (h : Rises o s) : RisesNext o (Machine.execBypassRouter w tile s) :=
  .next (.finish (h.secureWrite fun _ h => h.fenceCtl))

theorem execErrMergeEnd {cause : Byte} {unit : BitVec 4} {source : W16} {job : BitVec 2} (h : Rises o s) :
    RisesNext o (Machine.execErrMergeEnd cause unit source job s) :=
  .next (by dsimp only; split; exacts [.ite h.frame (.ite h.frame.putRecord.putErr1 h.frame.putRecord), h])

theorem checkerMissed {u : CheckerUnit} (h : Rises o s) : Rises o (Machine.checkerMissed s u) := by
  unfold Machine.checkerMissed
  dsimp only
  split
  exacts [.ite h.putErr.tileFault h, .ite h.putErr.routerFault h, .ite h.putErr.escalateDie h, h.freshWord.putErr.fatalInternal,
    h.putErr.fatalInternal]

theorem execCheckerSelftest {missed : Option CheckerUnit} (h : Rises o s) : RisesNext o (Machine.execCheckerSelftest missed s) :=
  .next (by split; exacts [.ite h.checkerMissed h, h])

theorem execIslandSramPatrol {_word : Nat} {bits : BitVec 2} (h : Rises o s) : RisesNext o (Machine.execIslandSramPatrol _word bits s) :=
  .next (.ite h h.freshWord.putErr)

theorem execFatalResetExpire {f : StartFound} (h : Rises o s) : RisesNext o (Machine.execFatalResetExpire f s) :=
  .next (.ite h.moduleReset.resetRise h)

theorem execMgmtCheckpoint (h : Rises o s) : RisesNext o (Machine.execMgmtCheckpoint s) := .next (.ite h.frame h)

theorem takeover {f : Fw → Fw} {sev : BitVec 2} (h : Rises o s) : Rises o (Machine.takeover s f sev) := h.frame.setFw.putErr

theorem measureMgmt (h : Rises o s) : Rises o (Machine.measureMgmt s) := h.frame.measureChain

theorem revertFw (h : Rises o s) : Rises o (Machine.revertFw s) := h.takeover.putErr.measureMgmt

theorem execMgmtWatchdog (h : Rises o s) : RisesNext o (Machine.execMgmtWatchdog s) :=
  .next (.ite h (by split; exacts [h.takeover, h.revertFw, h.takeover]))

/-- COMMIT raises the counters of the committed slot's images (R500). -/
theorem commitFw (h : Rises o s) : Rises o (Machine.commitFw s) := by
  unfold Machine.commitFw
  refine .setFw (h.trans ⟨le_maxW .., le_maxW .., le_maxW .., le_rfl, ?_, le_rfl⟩)
  dsimp only
  split <;> omega

theorem handoverFw {img : Image} (h : Rises o s) : Rises o (Machine.handoverFw s img).1 := .iteFst h h.freshWord.frame.setFw

theorem swapFw {img : Image} (h : Rises o s) : Rises o (Machine.swapFw s img) := h.setFw.putErr.measureMgmt

theorem settleFw (h : Rises o s) : Rises o (Machine.settleFw s) := by
  unfold Machine.settleFw
  split
  exacts [.ite h (by split; exacts [h.setFw.putErr, .ite h.swapFw h]), h]

theorem execHandover {w : Writer} {img : Image} (h : Rises o s) : RisesNext o (Machine.execHandover w img s) :=
  .next (.finish (h.secureWrite fun _ h => h.handoverFw))

theorem probationCmd {f : State → State} (h : Rises o s) (hf : ∀ s, Rises o s → Rises o (f s)) : Rises o (Machine.probationCmd s f).1 :=
  .iteFst (hf _ h) h

theorem execCommit {w : Writer} (h : Rises o s) : RisesNext o (Machine.execCommit w s) :=
  .next (.finish (h.secureWrite fun _ h => h.probationCmd fun _ h => h.commitFw))

theorem execRevert {w : Writer} (h : Rises o s) : RisesNext o (Machine.execRevert w s) :=
  .next (.finish (h.secureWrite fun _ h => h.probationCmd fun _ h => h.revertFw))

theorem execProbationEnd (h : Rises o s) : RisesNext o (Machine.execProbationEnd s) := .next (.ite h.commitFw h)

theorem execAppWatchdog {core : Fin 16} (h : Rises o s) : RisesNext o (Machine.execAppWatchdog core s) := .next (.ite h.frame.putErr h)

theorem execReferenceCycle (h : Rises o s) : RisesNext o (Machine.execReferenceCycle s) :=
  .next (.ite (.settleFw (.foldl (h.frame.foldl fun _ _ h => h.finishUnload) fun _ _ h => h.settleJoin)) h)

theorem injTile {t : W16} {f : Tile → Tile} (h : Rises o s) : Rises o (Machine.injTile s t f) := .ite h.modTile h

theorem injectSpad {t : W16} {addr : W32} {two : Bool} (h : Rises o s) : Rises o (Machine.injectSpad s t addr two) := .ite h.injTile h

theorem injectHbm {n : Nat} {bit : Byte} {off : W32} (h : Rises o s) : Rises o (Machine.injectHbm s n bit off) := .ite h.putStack h

theorem inject {u : W16} {target : Nat} {bit : Byte} {addr : W32} (h : Rises o s) : Rises o (Machine.inject s u target bit addr) := by
  unfold Machine.inject
  split
  exacts [h.injectSpad, h.injectSpad, h.injTile, .ite h.modTile h, .ite h.injectWeirCopy h, h.injectHbm, .ite h.putEdge h,
    .ite h.putPort h, h.freshWord.injTile, h]

theorem injectWrite {w : Writer} {u : W16} {target : Nat} {bit : Byte} {addr : W32} (h : Rises o s) :
    Rises o (Machine.injectWrite w s u target bit addr) := .finish (h.secureWrite fun _ h => h.inject)

theorem execSpad1 {w : Writer} {tile : W16} {bit : Byte} {addr : W32} (h : Rises o s) : RisesNext o (Machine.execSpad1 w tile bit addr s) :=
  .next h.injectWrite

theorem execSpad2 {w : Writer} {tile : W16} {bit : Byte} {addr : W32} (h : Rises o s) : RisesNext o (Machine.execSpad2 w tile bit addr s) :=
  .next h.injectWrite

theorem execResidue {w : Writer} {tile : W16} (h : Rises o s) : RisesNext o (Machine.execResidue w tile s) := .next h.injectWrite

theorem execMeshFlit {w : Writer} {tile : W16} {bit : Byte} (h : Rises o s) : RisesNext o (Machine.execMeshFlit w tile bit s) := .next h.injectWrite

theorem execWeirCopy {w : Writer} {tile : W16} {weir : W32} (h : Rises o s) : RisesNext o (Machine.execWeirCopy w tile weir s) := .next h.injectWrite

theorem execHbmSymbol {w : Writer} {stack : W16} {bit : Byte} {offset : W32} (h : Rises o s) :
    RisesNext o (Machine.execHbmSymbol w stack bit offset s) := .next h.injectWrite

theorem execD2dFlit {w : Writer} {edge : W16} (h : Rises o s) : RisesNext o (Machine.execD2dFlit w edge s) := .next h.injectWrite

theorem execTizalFlit {w : Writer} {port : W16} (h : Rises o s) : RisesNext o (Machine.execTizalFlit w port s) := .next h.injectWrite

theorem execCtxStore2 {w : Writer} {tile : W16} (h : Rises o s) : RisesNext o (Machine.execCtxStore2 w tile s) := .next h.injectWrite

end Rises

end Sys2Proof.Machine
end

section
/-!
PROOFS of the statement of the family '17_security.md', continued: power, temperature and security.
-/
namespace Sys2Proof.Machine
open Sys2Proof

namespace Rises
variable {o s t : State} {α β : Type}

/-! ## Power and temperature -/

theorem putPowerErr {cause : Byte} {sev : BitVec 2} (h : Rises o s) : Rises o (Machine.putPowerErr s cause sev) := h.freshWord.putErr

theorem alertSet {b : BitVec 6} (h : Rises o s) : Rises o (Machine.alertSet s b) := h.frame

theorem writeAlertSrc {v : W32} (h : Rises o s) : Rises o (Machine.writeAlertSrc s v) := h.frame

theorem writePowerCfg {v : W32} (h : Rises o s) : Rises o (Machine.writePowerCfg s v).1 := .iteFst h.frame h

theorem execPowerCfgWrite {w : Writer} {value : W32} (h : Rises o s) : RisesNext o (Machine.execPowerCfgWrite w value s) :=
  .next h.writePowerCfg.finish

theorem writeThermCfg {v : W32} (h : Rises o s) : Rises o (Machine.writeThermCfg s v).1 := .iteFst h.frame h

theorem execThermCfgWrite {w : Writer} {value : W32} (h : Rises o s) : RisesNext o (Machine.execThermCfgWrite w value s) :=
  .next (.finish (h.secureWrite fun _ h => h.writeThermCfg))

theorem execPowerStart {w : Writer} {f : StartFound} (h : Rises o s) : RisesNext o (Machine.execPowerStart w f s) := .next h.powerUp.setStatus

theorem holdDies (h : Rises o s) : Rises o (Machine.holdDies s) := by
  unfold Machine.holdDies
  extract_lets s1 s2 s3
  have h1 : Rises o s1 := h.foldl fun _ _ h => .ite h.setDieSt.resetHalf.resetHalf h
  have h2 : Rises o s2 := h1.foldl fun _ _ h => .ite h h.loseStack
  have h3 : Rises o s3 := h2.foldl fun _ _ h => .ite h h.setPort
  clear_value s3
  refine .settleInval ?_
  exact (h3.setHbm (m := [])).frame

theorem powerStandby (h : Rises o s) : Rises o (Machine.powerStandby s).1 := by
  unfold Machine.powerStandby
  refine .iteFst h (.iteFst h ?_)
  dsimp only
  exact .setModSt h.railsOff.holdDies

theorem execPowerStandby {w : Writer} (h : Rises o s) : RisesNext o (Machine.execPowerStandby w s) := .next h.powerStandby.finish

theorem powerLoss (h : Rises o s) : Rises o (Machine.powerLoss s) := h.moduleReset.freshWord.frame

theorem execInputLow {vin : W16} (h : Rises o s) : RisesNext o (Machine.execInputLow vin s) := .next (.ite h.frame.alertSet.putPowerErr h)

theorem execUvloFall (h : Rises o s) : RisesNext o (Machine.execUvloFall s) := .next h.powerLoss

theorem execInputOvervoltage {island : Bool} (h : Rises o s) : RisesNext o (Machine.execInputOvervoltage island s) :=
  .next (.ite h.powerLoss h.putPowerErr)

theorem execInputInRange {vin : W16} {f : StartFound} (h : Rises o s) : RisesNext o (Machine.execInputInRange vin f s) :=
  .next (.ite (.ite h.frame.boot (.ite h.frame.rampUp h.frame)) h)

theorem execRailExcursion {rail : Fin 29} (h : Rises o s) : RisesNext o (Machine.execRailExcursion rail s) :=
  .next (.ite h (.ite h.putRail.putErr.loseDie (.ite h.putRail.putErr h.powerLoss)))

theorem execRailRegulationReturn {rail : Fin 29} (h : Rises o s) : RisesNext o (Machine.execRailRegulationReturn rail s) := .next (.ite h.putRail h)

theorem execPhaseFault {rail : Fin 29} {phase : BitVec 4} (h : Rises o s) : RisesNext o (Machine.execPhaseFault rail phase s) :=
  .next (.ite (.ite h.putRail.putErr.alertSet.putErr h.putRail.putErr) h)

theorem putLimits {i : Nat} {h0 : Half} (h : Rises o s) : Rises o (Machine.putLimits s i h0) := h.putHalf

theorem evalDie {b d d0 d1 : Nat} (h : Rises o s) : Rises o (Machine.evalDie b d d0 d1 s) :=
  .ite (.ite h.putHalf.putLimits h.putHalf.putLimits) (.ite (.ite h.putHalf (.ite h.putHalf.putLimits h.putHalf.putLimits)) h.putHalf)

theorem shedLight {r : Nat} (h : Rises o s) : Rises o (Machine.shedLight s r) := .ite h (.ite h.freshWord.putRail h.putRail)

theorem evalPeak {pin : Nat} (h : Rises o s) : Rises o (Machine.evalPeak s pin) := .ite h.frame.alertSet h.frame

theorem slowAll (h : Rises o s) : Rises o (Machine.slowAll s) := h.foldl fun _ _ h => h.putLimits

theorem execBudgetEval {iin pin pFixed : W16} {demand : List (Nat × Nat)} (h : Rises o s) :
    RisesNext o (Machine.execBudgetEval iin pin pFixed demand s) := by
  refine .next (.ite h ?_)
  extract_lets p bs s1 _ s2 s3
  have h1 : Rises o s1 := h.foldl fun _ _ h => by split; exacts [h.evalDie, h]
  have h3 : Rises o s3 := h1.frame.evalPeak.foldl fun _ _ h => h.shedLight
  exact .ite h3.slowAll h3

theorem sampleDie {d : Nat} {v : Byte × Byte × Byte} (h : Rises o s) : Rises o (Machine.sampleDie s d v) := by
  unfold Machine.sampleDie
  split
  extract_lets _ _ _ _ s3 s4 _ _ s5 _ s6
  have h3 : Rises o s3 := h.modDie.putLimits.putLimits
  have h5 : Rises o s5 := .putStack (.ite h3.alertSet h3)
  have h6 : Rises o s6 := .ite h5.modDie h5
  exact .ite h6.alertSet.putErr.loseDie.modDie h6

theorem execThermalSample {dies : List (Byte × Byte × Byte)} {control : Byte} (h : Rises o s) :
    RisesNext o (Machine.execThermalSample dies control s) := by
  refine .next (.ite h ?_)
  extract_lets s1
  have h1 : Rises o s1 := h.foldl fun _ _ h => by split; exacts [h.sampleDie, h]
  exact .ite h1.putPowerErr h1

/-! ## Tokens, challenges and images -/

theorem writeRegion {e : BitVec 6} {v : BitVec 128} (h : Rises o s) : Rises o (Machine.writeRegion s e v).1 := .iteFst h h.frame

theorem execRegionWrite {w : Writer} {entry : BitVec 6} {value : BitVec 128} (h : Rises o s) :
    RisesNext o (Machine.execRegionWrite w entry value s) := .next (.finish (h.secureWrite fun _ h => h.writeRegion))

theorem stageApp {i : Image} (h : Rises o s) : Rises o (Machine.stageApp s i) := by
  unfold Machine.stageApp
  split
  exacts [h.frame.putErr, h.frame.measureChain]

theorem stageImage {i : Image} (h : Rises o s) : Rises o (Machine.stageImage s i).1 :=
  .iteFst h (.iteFst h.stageApp (.iteFst h (.ite h.frame.frame h.frame)))

theorem execImageStage {w : Writer} {img : Image} (h : Rises o s) : RisesNext o (Machine.execImageStage w img s) := .next h.stageImage.finish

theorem appCommit {v : W32} (h : Rises o s) : Rises o (Machine.appCommit s v).1  := by
  refine .iteFst h ?_
  split
  exacts [h.trans ⟨le_rfl, le_rfl, le_rfl, le_maxW .., le_rfl, le_rfl⟩, h]

theorem execAppCommit {w : Writer} {value : W32} (h : Rises o s) : RisesNext o (Machine.execAppCommit w value s) :=
  .next (.finish (h.secureWrite fun _ h => h.appCommit))

theorem writeNonce {n : BitVec 256} (h : Rises o s) : Rises o (Machine.writeNonce s n).1 := .iteFst h h.setSec

theorem execAttestNonceWrite {nonce : BitVec 256} (h : Rises o s) : RisesNext o (Machine.execAttestNonceWrite nonce s) := .next h.writeNonce.finish

theorem execAttestReportReady (h : Rises o s) : RisesNext o (Machine.execAttestReportReady s) := .next h.setSec

theorem newChallenge (h : Rises o s) : Rises o (Machine.newChallenge s).2 := h.freshWord.frame.setSec

theorem execChallengeRead (h : Rises o s) : RisesNext o (Machine.execChallengeRead s) := .next h.newChallenge.setStatus

theorem execChallengeExpire (h : Rises o s) : RisesNext o (Machine.execChallengeExpire s) := .next (.ite h.setSec h)

theorem execLockoutEnd (h : Rises o s) : RisesNext o (Machine.execLockoutEnd s) := .next (by split; exacts [.ite h.setSec h, h])

theorem refuseToken {d st : Byte} (h : Rises o s) : Rises o (Machine.refuseToken s d st) := h.setSec.putErr.setStatus

theorem spendChallenge {t : Token} (h : Rises o s) : Rises o (Machine.spendChallenge s t) := .ite h.setSec h

/-- A token that passes the checks names no lower OWNER_GEN than the register holds (R509). -/
theorem ownerGen_le_of_tokRefusal_none {t : Token} (h : tokRefusal s t = none) : s.sec.ownerGen.toNat ≤ t.ownerGen.toNat := by
  have hg : tokGenOk s t = true := by
    unfold tokRefusal at h
    split_ifs at h with _ _ _ hg
    simpa using hg
  unfold tokGenOk at hg
  split at hg <;> simp only [Bool.and_eq_true, decide_eq_true_eq] at hg
  exacts [hg.2.le, hg.le, (congrArg BitVec.toNat hg.2).ge]

theorem checkToken {t : Token} {act : State → State} (h : Rises o s)
    (hf : ∀ u, Rises o u → u.sec.ownerGen.toNat ≤ t.ownerGen.toNat → Rises o (act u)) : Rises o (Machine.checkToken s t act) := by
  refine .ite h.refuseToken ?_
  split
  · exact .refuseToken (.ite h.spendChallenge h)
  · next hn =>
    have hg : (Machine.spendChallenge s t).sec.ownerGen = s.sec.ownerGen := by unfold Machine.spendChallenge; split <;> rfl
    exact hf _ h.spendChallenge (hg ▸ ownerGen_le_of_tokRefusal_none hn)

theorem acceptToken (h : Rises o s) : Rises o (Machine.acceptToken s) := h.setSec.setStatus

theorem newOwner {t : Token} (h : Rises o s) (hg : s.sec.ownerGen.toNat ≤ t.ownerGen.toNat) : Rises o (Machine.newOwner s t) :=
  acceptToken (h.trans ⟨le_rfl, le_rfl, le_rfl, le_rfl, le_rfl, hg⟩)

theorem execTokenClaim {t : Token} (h : Rises o s) : RisesNext o (Machine.execTokenClaim t s) := .next (h.checkToken fun _ h hg => h.newOwner hg)

theorem execTokenRotate {t : Token} (h : Rises o s) : RisesNext o (Machine.execTokenRotate t s) := .next (h.checkToken fun _ h hg => h.newOwner hg)

theorem decommission (h : Rises o s) : Rises o (Machine.decommission s) := h.setSec.frame.acceptToken

theorem execTokenDecommission {t : Token} (h : Rises o s) : RisesNext o (Machine.execTokenDecommission t s) :=
  .next (h.checkToken fun _ h _ => h.decommission)

theorem execJtagBypass {_code : BitVec 8} (h : Rises o s) : RisesNext o (Machine.execJtagBypass _code s) := .next h.frame

theorem execJtagIdcode (h : Rises o s) : RisesNext o (Machine.execJtagIdcode s) := .next h.frame

theorem execJtagSamplePreload {pins load : W64} (h : Rises o s) : RisesNext o (Machine.execJtagSamplePreload pins load s) := .next h.frame

theorem execJtagExtest (h : Rises o s) : RisesNext o (Machine.execJtagExtest s) := .next (.ite h.frame h.frame)

end Rises

end Sys2Proof.Machine
end

section
/-!
PROOFS of the statement of the family '17_security.md', continued: registers, job images and the entries of the table.
-/
namespace Sys2Proof.Machine
open Sys2Proof

namespace Rises
variable {o s t : State} {α β : Type}

/-! ## Register reads -/

theorem readDist {t : W16} {k : Nat} (h : Rises o s) : Rises o (Machine.readDist s t k).1 := by
  unfold Machine.readDist
  dsimp only
  split
  exacts [h, h.freshBytes]

theorem regRead {r : Reg} {inst : Nat} (h : Rises o s) : Rises o (Machine.regRead s r inst).1 := by
  unfold Machine.regRead
  split
  exacts [h, .iteFst h (by split; exacts [h.newChallenge, h.readDist, h.csrReadAct, .iteFst (by split; exacts [h, h]) h])]

/-! ## Register writes -/

theorem freeBits {n : Nat} (h : Rises o s) : Rises o (Machine.freeBits n s).2 := h.freshWord

theorem freePairs (h : Rises o s) : Rises o (Machine.freePairs s).2 := h.frame

theorem freeDieFound (h : Rises o s) : Rises o (Machine.freeDieFound s).2 := by
  unfold Machine.freeDieFound
  exact h.freeBits.freePairs.frame

theorem freeLanes (h : Rises o s) : Rises o (Machine.freeLanes s).2 := h.frame

theorem freeStartFound (h : Rises o s) : Rises o (Machine.freeStartFound s).2 := by
  unfold Machine.freeStartFound
  split
  next f t heq =>
  have ht : Rises o t := .ofSnd heq h.freeBits
  split
  next ds u heq =>
  have hu : Rises o u := .ofSnd heq (.foldlSnd ht fun _ _ h => h.freeDieFound)
  split
  next ps v heq =>
  have hv : Rises o v := .ofSnd heq hu.freePairs
  exact hv.frame

theorem storeFlash (h : Rises o s) : Rises o (Machine.storeFlash s) := h.frame

theorem restoreFlash (h : Rises o s) : Rises o (Machine.restoreFlash s) := h.frame

theorem execStore {w : Writer} (h : Rises o s) : RisesNext o (Machine.execStore w s) := .next (.finish (h.secureWrite fun _ h => h.storeFlash))

theorem execRestore {w : Writer} (h : Rises o s) : RisesNext o (Machine.execRestore w s) := .next (.finish (h.secureWrite fun _ h => h.restoreFlash))

theorem writeDieCtl {v : W32} (h : Rises o s) : Rises o (Machine.writeDieCtl s v).1 := by
  unfold Machine.writeDieCtl
  dsimp only
  split
  exacts [.iteFst h.dieReset h, .iteFst h.freeDieFound.dieRejoin h, h.freshBit.frame.edgeRetrain, h]

theorem writeHbmCtl {n : Nat} {v : W32} (h : Rises o s) : Rises o (Machine.writeHbmCtl s n v).1 := by
  unfold Machine.writeHbmCtl
  split
  exacts [.iteFst h.freshBit.frame.recalibrate h, h.putStack, h]

theorem writeHbmCfg {n : Nat} {v : W32} (h : Rises o s) : Rises o (Machine.writeHbmCfg s n v).1 := .iteFst h h.putStack

theorem writeFwCtl {v : W32} (h : Rises o s) : Rises o (Machine.writeFwCtl s v).1 := by
  unfold Machine.writeFwCtl
  split
  exacts [h.handoverFw, h.probationCmd fun _ h => h.commitFw, h.probationCmd fun _ h => h.revertFw, h]

theorem writePowerCtl {v : W32} (h : Rises o s) : Rises o (Machine.writePowerCtl s v).1 := by
  unfold Machine.writePowerCtl
  split
  exacts [h.freeStartFound.powerUp, h.powerStandby, h]

theorem writePortCtl {p : Nat} {v : W32} (h : Rises o s) : Rises o (Machine.writePortCtl s p v) := by
  unfold Machine.writePortCtl
  split
  exacts [h.startPort, h.stopDrain, h.stopAbort, h.retrainPort, h]

theorem writeFaultCtl {d : Nat} {v : W64} (h : Rises o s) : Rises o (Machine.writeFaultCtl s d v).1 := by
  unfold Machine.writeFaultCtl
  split
  exacts [h.faultCtl, h.faultCtl, h]

theorem objCtl {v : W32} {on : Bool} {drain abort : State → State} (h : Rises o s) (hd : ∀ s, Rises o s → Rises o (drain s))
    (ha : ∀ s, Rises o s → Rises o (abort s)) : Rises o (Machine.objCtl s v on drain abort).1 := by
  unfold Machine.objCtl
  split
  exacts [.ite (hd _ h) h, .ite (ha _ h) h, h, h]

theorem writeInject {v : W64} (h : Rises o s) : Rises o (Machine.writeInject s v) := h.inject

theorem writeModSet {k : Nat} {v : W32} (h : Rises o s) : Rises o (Machine.writeModSet s k v).1 := by
  unfold Machine.writeModSet
  split
  exacts [h.frame, h.frame, h.frame, .iteFst h h.frame]

theorem writeEvent {k v : Nat} (h : Rises o s) : Rises o (Machine.writeEvent s k v) := by
  unfold Machine.writeEvent
  split
  exacts [.frame (.ite h.frame h.frame), .frame (.ite h.frame h.frame), h.frame, h.frame]

theorem writeTree {n : BitVec 10} {v : W32} (h : Rises o s) : Rises o (Machine.writeTree s n v).1 := .iteFst h h.putTree

theorem writeRing {j : BitVec 2} {v : W64} (h : Rises o s) : Rises o (Machine.writeRing s j v).1 := .iteFst h.modJob h

theorem writeJobReg {j : BitVec 2} {k : Nat} {v : W64} (h : Rises o s) : Rises o (Machine.writeJobReg s j k v).1 := by
  unfold Machine.writeJobReg
  dsimp only
  split
  exacts [h.modJob, h.modJob, .iteFst h h.modJob]

theorem writePost {j : BitVec 2} {hi : Bool} {v : BitVec 512} (h : Rises o s) : Rises o (Machine.writePost s j hi v).1 :=
  .iteFst h.modJob (.iteFst h h.modJob)

theorem writeGpost {j : BitVec 2} {k v : Nat} (h : Rises o s) : Rises o (Machine.writeGpost s j k v).1 := by
  unfold Machine.writeGpost
  dsimp only
  split
  exacts [h.writePost, h.writePost, .iteFst h.gatherPost h, h.writeReshard, h.gatherPin, h.gatherRetire, h]

theorem writeWatchReg {w : BitVec 12} {k v : Nat} (h : Rises o s) : Rises o (Machine.writeWatchReg s w k v).1 := by
  unfold Machine.writeWatchReg
  split
  exacts [h.watchCfgWrite, h.putWatch, h.putWatch, h]

theorem writeTileReg {w : Writer} {addr : Nat} {t : W16} {k v : Nat} (h : Rises o s) : Rises o (Machine.writeTileReg w addr s t k v).1 := by
  unfold Machine.writeTileReg
  dsimp only
  split
  exacts [h.writeShare, h.secureWrite fun _ h => h.modTile, h.modTile, h.modTile, h.modTile, h.modTile, h.modTile, h]

theorem writeCtxReg {t : W16} {j : BitVec 2} {k v : Nat} (h : Rises o s) : Rises o (Machine.writeCtxReg s t j k v).1 := by
  unfold Machine.writeCtxReg
  split
  exacts [h.writeCtxCtl, h.writeYield, h, .iteFst h h]

theorem writePressAll {v : W32} (h : Rises o s) : Rises o (Machine.writePressAll s v) := h.foldl fun _ _ h => h.modTile

theorem writeReachReg {w : Writer} {d : Nat} {n : BitVec 10} {k v : Nat} (h : Rises o s) : Rises o (Machine.writeReachReg w s d n k v).1 := by
  unfold Machine.writeReachReg
  split
  exacts [h.writeReachCfg, h.writeReachStride, h.objCtl (fun _ h => h.drainReach) fun _ h => h.abortReach, h.writeReachDesc,
    h.writeReachDesc, h.writeReachDesc, h.writeReachDesc, h]

theorem wholeValue {size w0 : Nat} {words : List (Nat × Nat)} (h : Rises o s) : Rises o (Machine.wholeValue size w0 words s).2 :=
  h.foldlSnd fun _ _ h => by split; exacts [h, h.freshWord]

theorem regSet {ctl : State → BitVec 2 → Nat → State × Byte} {w : Writer} {addr : Nat} {r : Reg} {inst v : Nat}
    (hf : ∀ s j n, Rises o s → Rises o (ctl s j n).1) (h : Rises o s) : Rises o (Machine.regSet ctl w addr r inst v s).1 := by
  cases r with
  | storeCmd => exact .iteFst h.storeFlash (.iteFst h.restoreFlash h)
  | event => exact h.writeEvent
  | errLog => exact .ite h.frame h
  | errCfg => exact h.frame
  | errInject => exact h.writeInject
  | fenceCtl => exact h.fenceCtl
  | fwCtl => exact h.writeFwCtl
  | nonce => exact h.writeNonce
  | appCommit => exact h.appCommit
  | region => exact h.writeRegion
  | modCfg => exact h.frame
  | dieCtl => exact h.writeDieCtl
  | modSet => exact h.writeModSet
  | inval => exact .iteFst h.writeTrnInval (.ite h.frame h)
  | gather => exact .iteFst h.frame (.iteFst h.writeGatherCtl h)
  | pubCtl => exact h.writePubCtl
  | pressAll => exact h.writePressAll
  | loss => exact .iteFst h.lossCfgWrite (.ite h.putLoss h)
  | power => exact .iteFst h.writePowerCfg (.iteFst h.writePowerCtl (.iteFst h.writeAlertSrc (.ite h.frame h)))
  | therm => exact h.writeThermCfg
  | die => exact .iteFst h.writeDieCfg (.iteFst h.writeFaultCtl (.ite h.modDie h))
  | half => exact .iteFst h.writeClkHalf h
  | stack => exact .iteFst h.writeHbmCfg (.iteFst h.writeHbmCtl h)
  | port => exact .iteFst h.portCfgBy (.ite h.writePortCtl h)
  | peer => exact h.writePeer
  | land => exact h.writeLand
  | mr => exact h.writeMr
  | roce => exact h.frame
  | job => exact .iteFst (hf _ _ _ h) (.iteFst h.writeJobReg h)
  | trn => exact .iteFst h.writeTrnRoot (.iteFst h.writeTrnView h)
  | close => exact .iteFst h.watchClose h.modJob
  | gpost => exact h.writeGpost
  | ring => exact .iteFst h.writeRing (.ite h.modJob h)
  | watch => exact h.writeWatchReg
  | tile => exact h.writeTileReg
  | ctx => exact h.writeCtxReg
  | slot => exact .iteFst h.writeSlotCfg h
  | acnt =>
    refine .iteFst h.writeAcntCfg ?_
    dsimp only
    exact h.modTile.markDue
  | hq =>
    refine .iteFst h.writeHqCfg (.iteFst ?_ h)
    exact h.objCtl (fun _ h => h.drainHq) fun _ h => h.abortHq
  | weir => exact .iteFst h h
  | stq => exact .iteFst h.writeStqCfg (.iteFst (h.objCtl (fun _ h => h.drainStq) fun _ h => h.abortStq) h)
  | reach => exact h.writeReachReg
  | tree => exact h.writeTree
  | gtree => exact h.writeGatherTree
  | shard => exact h.writeShard
  | pub => exact .iteFst h.writePubCfg (.iteFst h.writePubBase h)
  | _ => exact h

theorem regWriteWith {ctl : State → BitVec 2 → Nat → State × Byte} {w : Writer} {addr : Nat} {r : Reg} {inst v : Nat}
    (hf : ∀ s j n, Rises o s → Rises o (ctl s j n).1) (h : Rises o s) :
    Rises o (Machine.regWriteWith ctl w addr r inst v s).1 := by
  unfold Machine.regWriteWith
  split
  exacts [h, .iteFst (h.secureWrite fun _ h => .regSet hf h) (.regSet hf h)]

/-! ## Job images -/

theorem ctlInLoad {j : BitVec 2} {cmd : Nat} (h : Rises o s) : Rises o (Machine.ctlInLoad s j cmd).1 := .writeJobCtl (fun _ h => h) h

theorem regPairs {w : Writer} {ps : List (BitVec 128)} {staged : List (Nat × Nat × Nat)} (h : Rises o s) :
    RisesRes o Prod.snd id (Machine.regPairs w s ps staged) := by
  induction ps generalizing s staged with
  | nil => exact h
  | cons p ps ih =>
    refine .ite h (.ite (ih h) ?_)
    split
    exacts [h, .ite h (.ite (ih (h.wholeValue.regWriteWith fun _ _ _ h => h.ctlInLoad)) (h.wholeValue.regWriteWith fun _ _ _ h => h.ctlInLoad))]

theorem weirRec {bs : List Byte} (h : Rises o s) : RisesRes o Prod.snd id (Machine.weirRec s bs) := .ite h (.ite h.weirLoad h.weirLoad)

theorem treeRec {bs : List Byte} (h : Rises o s) : RisesRes o Prod.snd id (Machine.treeRec s bs) := by
  refine .ite h ?_
  split
  · next t heq =>
    have ht : Rises o t := .ofFst heq h.writeTree
    exact .ite ht.treeLoad ht.treeLoad
  · next t _ _ heq => exact .ofFst heq h.writeTree

theorem imageBytes {pa n : Nat} (h : Rises o s) : Rises o (Machine.imageBytes s pa n).1 := .iteFst h.hbmLoad h

theorem copyRec {l : LoadSt} {j : BitVec 2} {t : W16} {a : BitVec 24} {bs : List Byte} (h : Rises o l.st) :
    RisesRes o Prod.snd LoadSt.st (Machine.copyRec l j t a bs) := .ite h h.opndWrite

theorem tileRec {l : LoadSt} {i : Nat} {j : BitVec 2} {d : BitVec 256} {bs : List Byte} (h : Rises o l.st) :
    RisesRes o Prod.snd LoadSt.st (Machine.tileRec l i j d bs) := by
  unfold Machine.tileRec
  dsimp only
  split
  · exact Rises.ite h.putErr h
  · split
    · exact h.copyRec
    · split
      exacts [h, h.copyRec]
    · exact .ite (copyRec h) h
    · exact .ite h.modCtx h

theorem noteTile {l : LoadSt} {t : W16} (h : Rises o l.st) : Rises o (Machine.noteTile l t).st := by
  unfold Machine.noteTile
  split <;> exact h

theorem bodyRec {w : Writer} {l : LoadSt} {i : Nat} {j : BitVec 2} {d : BitVec 256} {bs : List Byte} (h : Rises o l.st) :
    RisesRes o Prod.snd LoadSt.st (Machine.bodyRec w l i j d bs) := by
  unfold Machine.bodyRec
  dsimp only
  split
  any_goals exact h.tileRec
  split
  · exact Rises.ite h.putErr h
  · split
    exacts [RisesRes.map (g := LoadSt.st) (h.regPairs.map fun _ h => h) fun _ h => Rises.noteTile h, h.weirRec.map fun _ h => h,
      h.treeRec.map fun _ h => h, h]

theorem loadRecs {w : Writer} {j : BitVec 2} {n i pa : Nat} {l : LoadSt} (h : Rises o l.st) :
    RisesRes o (fun e => e.2.2) LoadSt.st (Machine.loadRecs w j n i pa l) := by
  induction n generalizing i pa l with
  | zero => exact h
  | succ n ih =>
    unfold Machine.loadRecs
    split
    · next t heq => exact .ofFst (t := t) heq h.imageBytes
    · next t _ heq =>
      have ht : Rises o t := .ofFst heq h.imageBytes
      refine .ite ht ?_
      split
      · next u heq => exact .ofFst (t := u) heq ht.imageBytes
      · next u _ heq =>
        have hu : Rises o u := .ofFst heq ht.imageBytes
        refine .ite ?_ (.ite ?_ ?_)
        · split <;> exact hu
        · split
          exacts [hu, ih hu]
        · split
          · next hr => exact (bodyRec hu).error hr
          · next hr => exact ih ((bodyRec hu).ok hr)

theorem undoLoad {j : BitVec 2} {old new : State} (h : Rises o old) : Rises o (Machine.undoLoad j old new) := h.frame

theorem loadedTile {t : W16} {j : BitVec 2} (h : Rises o s) : Rises o (Machine.loadedTile s t j) := .ite h.modCtx.yieldFetch h.modCtx

theorem loadJob {w : Writer} {j : BitVec 2} (h : Rises o s) : Rises o (Machine.loadJob w s j).1 := by
  refine .iteFst h ?_
  extract_lets s0
  have h0 : Rises o s0 := h.setJobSt
  have hr := loadRecs (w := Machine.loadWriter w) (j := j) (n := 50331648) (i := 0) (pa := (getJob s0 j).regs.image.toNat)
    (l := { st := s0, tiles := [], pcs := [], lists := [] }) h0
  split
  · next l hl =>
    exact .setJobSt (.gResume ((hr.ok hl).foldl fun _ _ h => h.loadedTile))
  · exact h0.undoLoad.modJob.setJobSt

theorem execJobLoad {w : Writer} {job : BitVec 2} (h : Rises o s) : RisesNext o (Machine.execJobLoad w job s) := .next h.loadJob.finish

theorem jobCtl {w : Writer} {j : BitVec 2} {cmd : Nat} (h : Rises o s) : Rises o (Machine.jobCtl w s j cmd).1 := .writeJobCtl (fun _ h => h.loadJob) h

theorem regWrite {w : Writer} {index sub inst : Nat} {r : Reg} {v : Nat} (h : Rises o s) : Rises o (Machine.regWrite w index sub inst r v s).1 :=
  .regWriteWith (fun _ _ _ h => h.jobCtl) h

theorem entryWrite {w : Writer} {index sub inst v : Nat} (h : Rises o s) : Rises o (Machine.entryWrite w index sub inst v s).1 := by
  unfold Machine.entryWrite
  split
  exacts [h.regWrite, h]

theorem execRegisterWrite {w : Writer} {index : W16} {sub : BitVec 8} {inst : W16} {value : BitVec 1024} (h : Rises o s) :
    RisesNext o (Machine.execRegisterWrite w index sub inst value s) := .next h.entryWrite.finish

/-! ## Entries of the register table -/

theorem putWith {ctl : State → BitVec 2 → Nat → State × Byte} {w : Writer} {index sub inst : Nat} {bs : List Byte}
    (hf : ∀ s j n, Rises o s → Rises o (ctl s j n).1) (h : Rises o s) :
    Rises o (Machine.putWith ctl w index sub inst bs s).1 := by
  unfold Machine.putWith
  split
  · exact h
  · split
    exacts [h, .iteFst (.regWriteWith hf h) h]

theorem entryPut {w : Writer} {index sub inst : Nat} {bs : List Byte} (h : Rises o s) : Rises o (Machine.entryPut w index sub inst bs s).1 :=
  .putWith (fun _ _ _ h => h.jobCtl) h

theorem ctlAccepts {j : BitVec 2} {cmd : Nat} (h : Rises o s) : Rises o (Machine.ctlAccepts s j cmd).1 := .writeJobCtl (fun _ h => h) h

theorem putItem {i : TokItem} (h : Rises o s) : Rises o (Machine.putItem s i) := h.entryPut

theorem writeItems {t : Token} (h : Rises o s) : Rises o (Machine.writeItems t s) := by
  unfold Machine.writeItems
  dsimp only
  split
  exacts [h.refuseToken, .acceptToken (h.foldl fun _ _ h => h.putItem)]

theorem execTokenWrite {t : Token} (h : Rises o s) : RisesNext o (Machine.execTokenWrite t s) := .next (h.checkToken fun _ h _ => h.writeItems)

theorem runToken {t : Token} (h : Rises o s) : Rises o (Machine.runToken s t) := by
  unfold Machine.runToken
  split
  exacts [h.checkToken fun _ h _ => h.writeItems, h.checkToken fun _ h _ => h.decommission, h.checkToken fun _ h hg => h.newOwner hg]

theorem putWeirLoad {inst : Nat} {bs : List Byte} (h : Rises o s) : Rises o (Machine.putWeirLoad s inst bs).1 := .iteFst h h.weirLoad

theorem putTreeLoad {inst : Nat} {bs : List Byte} (h : Rises o s) : Rises o (Machine.putTreeLoad s inst bs).1 := .iteFst h h.treeLoad

theorem domainPut {r : Reg} {inst : Nat} {bs : List Byte} (h : Rises o s) : Rises o (Machine.domainPut r inst bs s).1 := by
  unfold Machine.domainPut
  split
  exacts [h, .iteFst h (by split; exacts [h.stageImage, h.runToken, h.writeImage, h.putWeirLoad, h.putTreeLoad, h])]

end Rises

end Sys2Proof.Machine
end

section
/-!
PROOFS of the statement of the family '17_security.md', continued: the management port and the windows.
-/
namespace Sys2Proof.Machine
open Sys2Proof

namespace Rises
variable {o s t : State} {α β : Type}

/-! ## Management requests -/

theorem setMgmt {f : Mgmt → Mgmt} (h : Rises o s) : Rises o (Machine.setMgmt s f) := h.frame

theorem queueMsg {m : DdpMsg} (h : Rises o s) : Rises o (Machine.queueMsg s m) := h.setMgmt

theorem hear {src : DdpSource} (h : Rises o s) : Rises o (Machine.hear s src) := h.setMgmt

theorem keep {src : DdpSource} {m : DdpMsg} (h : Rises o s) : Rises o (Machine.keep s src m) := h.setMgmt

theorem answer {q : WaitReq} {st : Byte} {value : List Byte} (h : Rises o s) : Rises o (Machine.answer s q st value) := h.queueMsg.keep

theorem journal {st : Byte} (h : Rises o s) : Rises o (Machine.journal s st) := .ite h.frame h

theorem servedWrite {r : Reg} {p : State × Byte} (h : Rises o p.1) : Rises o (Machine.servedWrite r p).1 := .iteFst h.journal h.journal

theorem serveRead {r : Reg} {inst : Nat} (h : Rises o s) : Rises o (Machine.serveRead s r inst).1 := by
  unfold Machine.serveRead
  split
  exacts [.iteFst h h.regRead, h.regRead]

theorem openSeg {q : DdpReq} {snap : Bool} {size : Nat} {parts : SMap (List Byte)} (h : Rises o s)
    (ht : Machine.openSeg s q snap size parts = some t) :
    Rises o t := by
  unfold Machine.openSeg at ht
  split at ht
  · contradiction
  · exact Option.some.inj ht ▸ h.setMgmt

theorem putSeg {q : DdpReq} {x : SegXfer} (h : Rises o s) : Rises o (Machine.putSeg s q x) := h.setMgmt

theorem closeSeg {q : DdpReq} (h : Rises o s) : Rises o (Machine.closeSeg s q) := h.setMgmt

theorem serveSegRead {q : DdpReq} {r : Reg} {len : Nat} (h : Rises o s) : Rises o (Machine.serveSegRead s q r len).1 := by
  refine .iteFst h (.iteFst h (.iteFst ?_ ?_))
  · split
    · exact h
    · split
      · exact h
      · refine .iteFst h ?_
        split
        · next ht => exact h.openSeg ht
        · exact h
  · split
    exacts [.iteFst h.putSeg h, h]

theorem serveSegStart {q : DdpReq} {r : Reg} {size : Nat} (h : Rises o s) : Rises o (Machine.serveSegStart s q r size).1 := by
  unfold Machine.serveSegStart
  split
  · exact h
  · refine .iteFst h ?_
    split
    · next ht => exact h.openSeg ht
    · exact h

theorem serveSegWrite {q : DdpReq} {bs : List Byte} (h : Rises o s) : Rises o (Machine.serveSegWrite s q bs).1 := by
  unfold Machine.serveSegWrite
  split
  exacts [.iteFst h h.putSeg, h]

theorem serveSegEnd {q : DdpReq} {r : Reg} {crc : Nat} (h : Rises o s) : Rises o (Machine.serveSegEnd s q r crc).1 := by
  unfold Machine.serveSegEnd
  split
  exacts [.iteFst h (by split; exacts [h.putSeg, .iteFst h.closeSeg h.closeSeg.domainPut.servedWrite]), h]

theorem serveSegAbort {q : DdpReq} (h : Rises o s) : Rises o (Machine.serveSegAbort s q).1 := .iteFst h.closeSeg h

theorem serve {q : WaitReq} (h : Rises o s) : Rises o (Machine.serve s q).1 := by
  refine .iteFst h ?_
  split
  · exact h
  · refine .iteFst h.serveRead (.iteFst h.entryPut.servedWrite ?_)
    exact .iteFst h (.iteFst h.serveSegRead (.iteFst h.serveSegStart (.iteFst h.serveSegWrite (.iteFst h.serveSegEnd h.serveSegAbort))))

theorem addWait {q : WaitReq} (h : Rises o s) : Rises o (Machine.addWait s q) := h.setMgmt

theorem perform {q : WaitReq} (h : Rises o s) : Rises o (Machine.perform s q) := by
  unfold Machine.perform
  dsimp only
  split
  · next t _ _ heq =>
    have ht : Rises o t := .ofFst heq h.setMgmt.serve
    exact ht.answer
  · next t heq =>
    have ht : Rises o t := .ofFst heq h.setMgmt.serve
    exact ht.addWait
  · next t heq =>
    have ht : Rises o t := .ofFst heq h.setMgmt.serve
    exact ht.setMgmt.addWait

theorem settleWait {q : WaitReq} (h : Rises o s) : Rises o (Machine.settleWait s q) :=
  .ite h.addWait (.ite (by split; exacts [.ite h.addWait h.answer, h.answer]) h.perform)

theorem settleWaits (h : Rises o s) : Rises o (Machine.settleWaits s) := h.setMgmt.foldl fun _ _ h => h.settleWait

theorem request {r : DdpReq} {op : Byte} {bytes : List Byte} (h : Rises o s) : Rises o (Machine.request s r op bytes) := by
  refine .ite h ?_
  dsimp only
  split
  · exact h.hear.settleWaits.setMgmt.queueMsg
  · split
    exacts [h.hear.settleWaits.setMgmt.queueMsg,
      .ite h.hear.settleWaits.answer (.ite (.ite h.hear.settleWaits.answer h.hear.settleWaits.addWait) h.hear.settleWaits.perform)]

theorem execDdpRead {r : DdpReq} (h : Rises o s) : RisesNext o (Machine.execDdpRead r s) := .next h.request

theorem execDdpWrite {r : DdpReq} {bytes : List Byte} (h : Rises o s) : RisesNext o (Machine.execDdpWrite r bytes s) := .next h.request

theorem execDescribe {r : DdpReq} (h : Rises o s) : RisesNext o (Machine.execDescribe r s) := .next h.request

theorem execSegRead {r : DdpReq} {len : Nat} (h : Rises o s) : RisesNext o (Machine.execSegRead r len s) := .next h.request

theorem execSegWriteStart {r : DdpReq} {size : W32} (h : Rises o s) : RisesNext o (Machine.execSegWriteStart r size s) := .next h.request

theorem execSegWrite {r : DdpReq} {bytes : List Byte} (h : Rises o s) : RisesNext o (Machine.execSegWrite r bytes s) := .next h.request

theorem execSegWriteEnd {r : DdpReq} {crc : W32} (h : Rises o s) : RisesNext o (Machine.execSegWriteEnd r crc s) := .next h.request

theorem execSegAbort {r : DdpReq} (h : Rises o s) : RisesNext o (Machine.execSegAbort r s) := .next h.request

theorem execDiscover {r : DdpReq} (h : Rises o s) : RisesNext o (Machine.execDiscover r s) := .next h.request

theorem execDroppedDatagram {_len : Nat} (h : Rises o s) : RisesNext o (Machine.execDroppedDatagram _len s) := .next (.ite h.setMgmt h)

theorem expireSegs {snap : Bool} {index : W16} {sub : BitVec 8} {inst : W16} (h : Rises o s) : Rises o (Machine.expireSegs s snap index sub inst) :=
  h.setMgmt

theorem execSegTransferTimeout {index : W16} {sub : BitVec 8} {inst : W16} (h : Rises o s) :
    RisesNext o (Machine.execSegTransferTimeout index sub inst s) := .next h.expireSegs

theorem execSnapshotExpire {index : W16} {sub : BitVec 8} {inst : W16} (h : Rises o s) : RisesNext o (Machine.execSnapshotExpire index sub inst s) :=
  .next h.expireSegs

theorem execPendingTimer (h : Rises o s) : RisesNext o (Machine.execPendingTimer s) := .next (.ite h.settleWaits.setMgmt h)

theorem execResponseCacheExpire (h : Rises o s) : RisesNext o (Machine.execResponseCacheExpire s) := .next h.setMgmt

theorem execTransmitOpportunity (h : Rises o s) : RisesNext o (Machine.execTransmitOpportunity s) :=
  .next (.ite (by dsimp only; split; exacts [h.settleWaits.setMgmt, h.settleWaits]) h)

theorem execPlcaBeacon (h : Rises o s) : RisesNext o (Machine.execPlcaBeacon s) := .next (.ite h.setMgmt h)

theorem execPlcaBeaconTimeout (h : Rises o s) : RisesNext o (Machine.execPlcaBeaconTimeout s) := .next (.ite h.setMgmt h)

theorem execDadRepeat {conflict : Bool} (h : Rises o s) : RisesNext o (Machine.execDadRepeat conflict s) := .next (.ite h.detect h)

theorem execIcmpv6Receive {m : IcmpMsg} (h : Rises o s) : RisesNext o (Machine.execIcmpv6Receive m s) :=
  .next (.ite (by split; exacts [h.setMgmt, h]) h)

theorem execEventAck {seq : W16} (h : Rises o s) : RisesNext o (Machine.execEventAck seq s) := .next (.ite h.setMgmt.pumpEvents h)

theorem resendEvent {e : Event} (h : Rises o s) : Rises o (Machine.resendEvent s e) := .ite h (.ite h.setMgmt.pumpEvents h.setMgmt.queueMsg)

theorem execEventResend {seq : W16} (h : Rises o s) : RisesNext o (Machine.execEventResend seq s) :=
  .next (.ite (by split; exacts [h.resendEvent, h]) h)

/-! ## Windows of the cores -/

theorem putWin {core : Nat} {w : WinCore} (h : Rises o s) : Rises o (Machine.putWin s core w) := h.frame

theorem complete {core : Nat} {st : Byte} (h : Rises o s) : Rises o (Machine.complete s core st) := h.putWin.setStatus

theorem winLate {core index sub inst : Nat} (h : Rises o s) : Rises o (Machine.winLate s core index sub inst) := h.putWin

theorem winOutcome {core index sub inst : Nat} {r : Reg} {st : Byte} (h : Rises o s) : Rises o (Machine.winOutcome s core index sub inst r st) :=
  .ite h.winLate h.complete

theorem bufferRefused {core : Fin 18} {pa : Nat} (h : Rises o s) : Rises o (Machine.bufferRefused s core pa) := .ite h.putErr h

theorem bufferGet {pa n : Nat} (h : Rises o s) : Rises o (Machine.bufferGet s pa n).1 := by
  unfold Machine.bufferGet
  split
  exacts [h.hbmLoad, h]

theorem bufferPut {pa : Nat} {bs : List Byte} (h : Rises o s) : Rises o (Machine.bufferPut s pa bs).1 := h.foldlFst fun _ _ h => h.hbmStore

theorem moveValue {r : Reg} {inst : Nat} (h : Rises o s) : Rises o (Machine.moveValue s r inst).1 := .iteFst (by split; exacts [h, h]) h.regRead

theorem moveRead {v : BitVec 256} {r : Reg} (h : Rises o s) : Rises o (Machine.moveRead s v r).1 := by
  unfold Machine.moveRead
  split
  · next t _ heq =>
    exact .ofFst heq h.moveValue
  · next t _ heq =>
    have ht : Rises o t := .ofFst heq h.moveValue
    exact ht.bufferPut

theorem keepPart {v : BitVec 256} {bs : List Byte} (h : Rises o s) : Rises o (Machine.keepPart s v bs) := h.setMgmt

theorem movePart {v : BitVec 256} {r : Reg} (h : Rises o s) : Rises o (Machine.movePart s v r).1 := by
  unfold Machine.movePart
  split
  exacts [h, .iteFst h.bufferGet.keepPart h.bufferGet]

theorem moveCommit {core : Fin 18} {v : BitVec 256} {r : Reg} (h : Rises o s) : Rises o (Machine.moveCommit s core v r).1 :=
  .iteFst h.movePart (by split; exacts [h.movePart, .journal (.iteFst h.movePart.setMgmt.domainPut h.movePart.setMgmt.entryPut)])

theorem move {core : Fin 18} {c : Nat} {v : BitVec 256} (h : Rises o s) : Rises o (Machine.move s core c v) := by
  refine .ite h.putWin.bufferRefused.complete ?_
  split
  · exact h.putWin.complete
  · split
    exacts [.ite h.putWin.winLate h.putWin.moveRead.complete, h.putWin.movePart.complete, h.putWin.moveCommit.winOutcome]

theorem settleWin {c : Nat} (h : Rises o s) : Rises o (Machine.settleWin s c) := by
  refine .foldl h.putWin fun _ _ h => ?_
  dsimp only
  split
  · exact h.complete
  · split
    exacts [.ite (.ite h.winLate h.moveRead.complete) (.ite h.winLate h.complete), .ite h.winLate h.complete]

theorem winDomain {core : Fin 18} {c : Nat} {v : BitVec 256} (h : Rises o s) : Rises o (Machine.winDomain s core c v) :=
  .ite h.settleWin.complete (.ite h.settleWin.complete h.settleWin.move)

theorem execWinDomainRead {core : Fin 18} {value : BitVec 256} (h : Rises o s) : RisesNext o (Machine.execWinDomainRead core value s) :=
  .next (.ite h.winDomain h)

theorem execWinDomainWrite {core : Fin 18} {value : BitVec 256} (h : Rises o s) : RisesNext o (Machine.execWinDomainWrite core value s) :=
  .next (.ite h.winDomain h)

theorem execWinDomainCommit {core : Fin 18} {value : BitVec 256} (h : Rises o s) : RisesNext o (Machine.execWinDomainCommit core value s) :=
  .next (.ite h.winDomain h)

theorem slotValue {a : BitVec 46} (h : Rises o s) : Rises o (Machine.slotValue s a).1 := by
  refine .iteFst (.iteFst h (.iteFst h h)) ?_
  split
  · exact h
  · refine .iteFst h ?_
    split
    · next t _ heq =>
      exact .ofFst heq h.regRead
    · next t _ heq =>
      exact .ofFst heq h.regRead

theorem windowLoad {core : Fin 18} {a : BitVec 46} (h : Rises o s) : Rises o (Machine.windowLoad s core a) :=
  .ite h.settleWin.slotValue.putWin h.settleWin.putWin

theorem execWindowLoad {core : Fin 18} {addr : BitVec 46} (h : Rises o s) : RisesNext o (Machine.execWindowLoad core addr s) :=
  .next (.ite h.windowLoad h)

theorem stageWord {core : Fin 18} {a : BitVec 46} {v : W64} (h : Rises o s) : Rises o (Machine.stageWord s core a v) := .ite h.complete h.putWin

theorem execWindowStoreStage {core : Fin 18} {addr : BitVec 46} {value : W64} (h : Rises o s) :
    RisesNext o (Machine.execWindowStoreStage core addr value s) := .next (.ite h.stageWord h)

theorem commitWord {core : Fin 18} {a : BitVec 46} {v : W64} (h : Rises o s) : Rises o (Machine.commitWord s core a v) := by
  unfold Machine.commitWord
  extract_lets c s1 w staged s2 i sub
  have h2 : Rises o s2 := h.settleWin.putWin
  clear_value s2 staged
  split
  · refine .ite h2.complete (.ite h2.complete (.ite h2.putWin.complete ?_))
    split
    next x t heq =>
    have ht : Rises o t := .ofSnd heq h2.wholeValue
    exact ht.winDomain
  · split
    · exact h2.complete
    · refine .ite h2.complete ?_
      split
      next x t heq =>
      have ht : Rises o t := .ofSnd heq h2.wholeValue
      split
      next u x heq =>
      have hu : Rises o u := .ofFst heq ht.regWrite
      exact hu.winOutcome

theorem execWindowStoreCommit {core : Fin 18} {addr : BitVec 46} {value : W64} (h : Rises o s) :
    RisesNext o (Machine.execWindowStoreCommit core addr value s) := .next (.ite h.commitWord h)

end Rises

end Sys2Proof.Machine
end

section
/-!
PROOFS of the statement of the family '17_security.md', continued: every command, and the statement.
-/
namespace Sys2Proof.Machine
open Sys2Proof

namespace Rises

/-- Every command keeps the queue and the form of the stacks' bytes; those with no arm of their own issue a slot of a bundle. -/
theorem exec {o s : State} {i : Instr} (h : Rises o s) : RisesNext o (Machine.exec i s) := by
  unfold Machine.exec
  cases i with
  | haltRetire => exact h.execHaltRetire
  | waitRelease => exact h.execWaitRelease
  | waitTimeout => exact h.execWaitTimeout
  | spinPeriodExpire => exact h.execSpinPeriodExpire
  | gaugeStallRelease => exact h.execGaugeStallRelease
  | gaugeTimeout => exact h.execGaugeTimeout
  | pressStart => exact h.execPressStart
  | engineSlotResume => exact h.execEngineSlotResume
  | slotTimeout => exact h.execSlotTimeout
  | pressResidueMismatch => exact h.execPressResidueMismatch
  | pressComplete => exact h.execPressComplete
  | cvtUnitStart => exact h.execCvtUnitStart
  | conversionComplete => exact h.execConversionComplete
  | gutterComplete => exact h.execGutterComplete
  | xposeComplete => exact h.execXposeComplete
  | wideOpStart => exact h.execWideOpStart
  | wideOpComplete => exact h.execWideOpComplete
  | widePatrol => exact h.execWidePatrol
  | folioEntryIssue => exact h.execFolioEntryIssue
  | exchBoundary => exact h.execExchBoundary
  | xchTimeout => exact h.execXchTimeout
  | routerForward => exact h.execRouterForward
  | meshFlitCrcError => exact h.execMeshFlitCrcError
  | blockWrite => exact h.execBlockWrite
  | blockSlotResume => exact h.execBlockSlotResume
  | addRound => exact h.execAddRound
  | castPrune => exact h.execCastPrune
  | prunedMarkerSend => exact h.execPrunedMarkerSend
  | markerReceive => exact h.execMarkerReceive
  | treeLoad => exact h.execTreeLoad
  | weirLoad => exact h.execWeirLoad
  | weirCounterArrival => exact h.execWeirCounterArrival
  | weirReleaseArrive => exact h.execWeirReleaseArrive
  | windowPost => exact h.execWindowPost
  | transferStart => exact h.execTransferStart
  | reachPassStart => exact h.execReachPassStart
  | transferStep => exact h.execTransferStep
  | translationWalkDone => exact h.execTranslationWalkDone
  | transferComplete => exact h.execTransferComplete
  | handlePushLand => exact h.execHandlePushLand
  | handleWindowPush => exact h.execHandleWindowPush
  | faultCtlResume => exact h.execFaultCtlResume
  | faultCtlFail => exact h.execFaultCtlFail
  | parkTimeout => exact h.execParkTimeout
  | streamBlockParkTimeout => exact h.execStreamBlockParkTimeout
  | stqDrain => exact h.execStqDrain
  | stqAbort => exact h.execStqAbort
  | reachDrain => exact h.execReachDrain
  | reachAbort => exact h.execReachAbort
  | hqDrain => exact h.execHqDrain
  | hqAbort => exact h.execHqAbort
  | drainLimitExpire => exact h.execDrainLimitExpire
  | trnRootWrite => exact h.execTrnRootWrite
  | trnInval => exact h.execTrnInval
  | hbmRequestServe => exact h.execHbmRequestServe
  | hbmWriteback => exact h.execHbmWriteback
  | hbmRefresh => exact h.execHbmRefresh
  | hbmPatrol => exact h.execHbmPatrol
  | hbmCeSummary => exact h.execHbmCeSummary
  | hbmRecal => exact h.execHbmRecal
  | hbmPatrolRestart => exact h.execHbmPatrolRestart
  | spadEccWriteback => exact h.execSpadEccWriteback
  | spadPatrol => exact h.execSpadPatrol
  | ctxStorePatrol => exact h.execCtxStorePatrol
  | watchCfgWrite => exact h.execWatchCfgWrite
  | watchReportMerge => exact h.execWatchReportMerge
  | watchClose => exact h.execWatchClose
  | watchPeerTimeout => exact h.execWatchPeerTimeout
  | lossCfgWrite => exact h.execLossCfgWrite
  | lossWindowWrite => exact h.execLossWindowWrite
  | tileShareWrite => exact h.execTileShareWrite
  | acntCfgWrite => exact h.execAcntCfgWrite
  | slotCfgWrite => exact h.execSlotCfgWrite
  | hqCfgWrite => exact h.execHqCfgWrite
  | stqCfgWrite => exact h.execStqCfgWrite
  | reachCfgWrite => exact h.execReachCfgWrite
  | contextSwitch => exact h.execContextSwitch
  | yieldMaxExpire => exact h.execYieldMaxExpire
  | switchLate => exact h.execSwitchLate
  | yieldRegWrite => exact h.execYieldRegWrite
  | jobLoad => exact h.execJobLoad
  | jobResume => exact h.execJobResume
  | jobPause => exact h.execJobPause
  | jobUnload => exact h.execJobUnload
  | jobReload => exact h.execJobReload
  | jobDiscard => exact h.execJobDiscard
  | ctxResume => exact h.execCtxResume
  | ctxRestart => exact h.execCtxRestart
  | pubCfgWrite => exact h.execPubCfgWrite
  | publish => exact h.execPublish
  | unpublish => exact h.execUnpublish
  | hold => exact h.execHold
  | release => exact h.execRelease
  | trnViewWrite => exact h.execTrnViewWrite
  | gatherPost => exact h.execGatherPost
  | gatherPassDone => exact h.execGatherPassDone
  | collRound => exact h.execCollRound
  | gatherPacketReceive => exact h.execGatherPacketReceive
  | gatherAbandonReceive => exact h.execGatherAbandonReceive
  | gatherRestartReceive => exact h.execGatherRestartReceive
  | gatherTimeout => exact h.execGatherTimeout
  | gatherStaleSummary => exact h.execGatherStaleSummary
  | gatherReshard => exact h.execGatherReshard
  | reshardLimitExpire => exact h.execReshardLimitExpire
  | gatherPin => exact h.execGatherPin
  | gatherRetire => exact h.execGatherRetire
  | gatherDrain => exact h.execGatherDrain
  | gatherAbort => exact h.execGatherAbort
  | gatherAbandon => exact h.execGatherAbandon
  | gatherResume => exact h.execGatherResume
  | gatherDrainLimitExpire => exact h.execGatherDrainLimitExpire
  | gatherTreeWrite => exact h.execGatherTreeWrite
  | shardEntryWrite => exact h.execShardEntryWrite
  | portCfgWrite => exact h.execPortCfgWrite
  | portStart => exact h.execPortStart
  | stopDrain => exact h.execStopDrain
  | stopAbort => exact h.execStopAbort
  | retrain => exact h.execRetrain
  | portTrainingDone => exact h.execPortTrainingDone
  | laneLockLoss => exact h.execLaneLockLoss
  | tzFlitReceive => exact h.execTzFlitReceive
  | tzAckTimer => exact h.execTzAckTimer
  | tzReplayTimeout => exact h.execTzReplayTimeout
  | tzReplaySummary => exact h.execTzReplaySummary
  | ctrlMessageReceive => exact h.execCtrlMessageReceive
  | peerLost => exact h.execPeerLost
  | tzPeerWrite => exact h.execTzPeerWrite
  | portAddRound => exact h.execPortAddRound
  | addLagExpire => exact h.execAddLagExpire
  | portStreamSend => exact h.execPortStreamSend
  | landReceive => exact h.execLandReceive
  | landTimeout => exact h.execLandTimeout
  | rocePacketReceive => exact h.execRocePacketReceive
  | roceWrPost => exact h.execRoceWrPost
  | roceRequestComplete => exact h.execRoceRequestComplete
  | roceRetryTimeout => exact h.execRoceRetryTimeout
  | cnpReceive => exact h.execCnpReceive
  | roceRateRecovery => exact h.execRoceRateRecovery
  | ethFrameReceive => exact h.execEthFrameReceive
  | roceMrWrite => exact h.execRoceMrWrite
  | ucieModuleLoss => exact h.execUcieModuleLoss
  | d2dLinkLockLoss => exact h.execD2dLinkLockLoss
  | dieClockLoss => exact h.execDieClockLoss
  | heartbeatTimeout => exact h.execHeartbeatTimeout
  | dieControlWatchdog => exact h.execDieControlWatchdog
  | refLoss => exact h.execRefLoss
  | dieResetCmd => exact h.execDieResetCmd
  | dieRejoinCmd => exact h.execDieRejoinCmd
  | edgeRetrain => exact h.execEdgeRetrain
  | rejoinDelayExpire => exact h.execRejoinDelayExpire
  | clockStepChange => exact h.execClockStepChange
  | modResetFall => exact h.execModResetFall
  | modResetRise => exact h.execModResetRise
  | fenceTile => exact h.execFenceTile
  | bypassRouter => exact h.execBypassRouter
  | errMergeEnd => exact h.execErrMergeEnd
  | checkerSelftest => exact h.execCheckerSelftest
  | fatalResetExpire => exact h.execFatalResetExpire
  | mgmtCheckpoint => exact h.execMgmtCheckpoint
  | mgmtWatchdog => exact h.execMgmtWatchdog
  | handover => exact h.execHandover
  | commit => exact h.execCommit
  | revert => exact h.execRevert
  | probationEnd => exact h.execProbationEnd
  | appWatchdog => exact h.execAppWatchdog
  | spad1 => exact h.execSpad1
  | spad2 => exact h.execSpad2
  | residue => exact h.execResidue
  | meshFlit => exact h.execMeshFlit
  | weirCopy => exact h.execWeirCopy
  | hbmSymbol => exact h.execHbmSymbol
  | d2dFlit => exact h.execD2dFlit
  | tizalFlit => exact h.execTizalFlit
  | ctxStore2 => exact h.execCtxStore2
  | regionWrite => exact h.execRegionWrite
  | tokenWrite => exact h.execTokenWrite
  | tokenClaim => exact h.execTokenClaim
  | tokenRotate => exact h.execTokenRotate
  | tokenDecommission => exact h.execTokenDecommission
  | challengeRead => exact h.execChallengeRead
  | challengeExpire => exact h.execChallengeExpire
  | lockoutEnd => exact h.execLockoutEnd
  | attestNonceWrite => exact h.execAttestNonceWrite
  | attestReportReady => exact h.execAttestReportReady
  | imageStage => exact h.execImageStage
  | appCommit => exact h.execAppCommit
  | jtagBypass => exact h.execJtagBypass
  | jtagIdcode => exact h.execJtagIdcode
  | jtagSamplePreload => exact h.execJtagSamplePreload
  | jtagExtest => exact h.execJtagExtest
  | ddpRead => exact h.execDdpRead
  | ddpWrite => exact h.execDdpWrite
  | describe => exact h.execDescribe
  | segRead => exact h.execSegRead
  | segWriteStart => exact h.execSegWriteStart
  | segWrite => exact h.execSegWrite
  | segWriteEnd => exact h.execSegWriteEnd
  | segAbort => exact h.execSegAbort
  | segTransferTimeout => exact h.execSegTransferTimeout
  | snapshotExpire => exact h.execSnapshotExpire
  | discover => exact h.execDiscover
  | eventAck => exact h.execEventAck
  | eventResend => exact h.execEventResend
  | pendingTimer => exact h.execPendingTimer
  | responseCacheExpire => exact h.execResponseCacheExpire
  | transmitOpportunity => exact h.execTransmitOpportunity
  | plcaBeaconTimeout => exact h.execPlcaBeaconTimeout
  | dadRepeat => exact h.execDadRepeat
  | icmpv6Receive => exact h.execIcmpv6Receive
  | store => exact h.execStore
  | restore => exact h.execRestore
  | windowLoad => exact h.execWindowLoad
  | windowStoreStage => exact h.execWindowStoreStage
  | windowStoreCommit => exact h.execWindowStoreCommit
  | winDomainRead => exact h.execWinDomainRead
  | winDomainWrite => exact h.execWinDomainWrite
  | winDomainCommit => exact h.execWinDomainCommit
  | watchImageWrite => exact h.execWatchImageWrite
  | powerStart => exact h.execPowerStart
  | powerStandby => exact h.execPowerStandby
  | powerCfgWrite => exact h.execPowerCfgWrite
  | thermCfgWrite => exact h.execThermCfgWrite
  | inputLow => exact h.execInputLow
  | uvloFall => exact h.execUvloFall
  | inputOvervoltage => exact h.execInputOvervoltage
  | railExcursion => exact h.execRailExcursion
  | phaseFault => exact h.execPhaseFault
  | budgetEval => exact h.execBudgetEval
  | thermalSample => exact h.execThermalSample
  | registerWrite => exact h.execRegisterWrite
  | inputInRange => exact h.execInputInRange
  | railRegulationReturn => exact h.execRailRegulationReturn
  | trainingFrameReceive => exact h.execTrainingFrameReceive
  | treePortLost => exact h.execTreePortLost
  | gatherWithdrawReceive => exact h.execGatherWithdrawReceive
  | referenceCycle => exact h.execReferenceCycle
  | islandSramPatrol => exact h.execIslandSramPatrol
  | plcaBeacon => exact h.execPlcaBeacon
  | priorityFlowControl => exact h.execPriorityFlowControl
  | droppedDatagram => exact h.execDroppedDatagram
  | _ => exact h.slotCmd

end Rises

/-- Settles O58: every function of the model leaves the counters or raises them, so the command that a step runs does. -/
theorem monotonicCountersNeverFall : Obligations.MonotonicCountersNeverFall := by
  intro s t ht
  cases hq : s.pending with
  | nil =>
    rw [step_of_pending_nil hq] at ht
    exact Host.Outcome.next.inj ht ▸ Rises.refl s
  | cons c rest =>
    rw [step_of_pending_cons hq] at ht
    exact (show Rises s { s with pending := rest } from Rises.refl s).exec (i := c) _ ht

end Sys2Proof.Machine
end

section
/-!
PROOFS of the statements of the family '14_jobs_and_preemption.md': publication entries and views.
-/
namespace Sys2Proof.Machine
open Sys2Proof

/-! ## Entries by number (R416, R417) -/

theorem getPub_putPub (s : State) (e k : Nat) (x : Pub) : getPub (putPub s e x) k = if k = e then x else getPub s k := mget_mset ..

theorem getPub_of_pubs {s t : State} (h : t.pubs = s.pubs) (k : Nat) : getPub t k = getPub s k := congrArg (mget Pub.reset · k) h

section entries
variable {s : State} {e : BitVec 4}

theorem writePubCfg_invalid {v : W64} (h : (getPub s e.toNat).st ≠ 2) (hb : bitAt v 63 = true)
    (hr : pubBlockOk (getPub s e.toNat).base (v.extractLsb' 55 6) = false) : writePubCfg s e v = (s, stInvalid) :=
  (if_neg h).trans (if_pos (by rw [hb, fld, hr]; rfl))

theorem writePubCfg_taken {v : W64} (h : (getPub s e.toNat).st ≠ 2)
    (hr : bitAt v 63 = false ∨ pubBlockOk (getPub s e.toNat).base (v.extractLsb' 55 6) = true) :
    writePubCfg s e v = (putPub s e.toNat { getPub s e.toNat with
      job := v.extractLsb' 61 2, count := v.extractLsb' 55 6, st := if bitAt v 63 then 1 else 0 }, stOk) := by
  refine (if_neg h).trans (if_neg ?_)
  obtain hb | hb := hr <;> simp [hb, fld]

theorem pubLatest_eq : ∀ e : BitVec 4, (at' 32 31 (1 : BitVec 1) ||| at' 32 0 e : W32) = 0x80000000 ||| e.setWidth 32 := by decide

/-- PUB.LATEST of the publishing job names the entry, which keeps its configuration. -/
theorem exec_publish_built {w : Writer} {ver : W32} (h : (getPub s e.toNat).st = 1) : Goes (exec (.publish w e ver) s) fun t => t.status = 0
    ∧ getPub t e.toNat = { getPub s e.toNat with st := 2, version := ver }
    ∧ (getJob t (getPub s e.toNat).job).regs.pubLatest = 0x80000000 ||| e.setWidth 32 ∧ ∀ n, n ≠ e.toNat → getPub t n = getPub s n := by
  refine ⟨_, congrArg (fun r => Host.Outcome.next (finish r)) (if_neg (not_not.mpr h)), rfl, ?_, ?_, fun n hn => ?_⟩
  · simp [getPub, finish, pubPublished]
  · simp only [getJob, finish, modJob, Laws.setStatus_jobs, Laws.putJob_jobs, mget_mset_same]
    exact pubLatest_eq e
  · simp [getPub, finish, mget_mset, hn]

end entries

/-! ## Views (R418, R419) -/

section views
variable {s : State} {e : BitVec 4} {j : BitVec 2} {v : W64} {w : Writer}

/-- The fields that a write of TRN.VIEW keeps. -/
abbrev viewMask : W64 := 0x8003FFFF0000000F

theorem viewEntry_eq (v : W64) : viewEntry v = (v.setWidth 4).toNat := by
  simp [viewEntry, fldN]

theorem viewEntry_viewMask (v : W64) : viewEntry (v &&& viewMask) = (v.setWidth 4).toNat := by
  rw [viewEntry, fldN_and_of_allOnes (by decide), Nat.pow_zero, Nat.div_one, BitVec.toNat_setWidth]

theorem bitAt_viewMask (v : W64) : bitAt (v &&& viewMask) 63 = bitAt v 63 := bitAt_and_of_set (by decide) v

theorem first_viewMask (v : W64) : fldN (v &&& viewMask) 32 18 = v.toNat / 2 ^ 32 % 2 ^ 18 := fldN_and_of_allOnes (by decide) v

/-- A write of TRN.VIEW by the entry that it names. -/
theorem writeTrnView_eq (he : v.setWidth 4 = e) : writeTrnView s j v =
    if bitAt v 63 = true ∨ (getJob s j).regs.trnView.setWidth 4 ≠ e then
      if (getPub s e.toNat).st ≠ 2 then (s, stPubState)
      else if 2 ^ 18 < v.toNat / 2 ^ 32 % 2 ^ 18 + ((getPub s e.toNat).count.toNat + 1) then (s, stInvalid)
      else (moveView s j (v &&& viewMask), stOk)
    else (moveView s j (v &&& viewMask), stOk) := by
  have hne : (e.toNat ≠ ((getJob s j).regs.trnView.setWidth 4).toNat) ↔ (getJob s j).regs.trnView.setWidth 4 ≠ e :=
    not_congr (BitVec.toNat_inj.trans eq_comm)
  subst he
  unfold writeTrnView
  dsimp only
  simp only [bitAt_viewMask, viewEntry_viewMask, first_viewMask, viewEntry_eq (getJob s j).regs.trnView, hne, pubPublished, pubCount]

theorem exec_trnViewWrite_refused {st : Byte} (h : writeTrnView s j v = (s, st)) (hs : st ≠ stOk) :
    exec (.trnViewWrite w j v) s = .next { s with status := st } := by
  have hf := finishInval_refused (s := s) hs
  exact congrArg Host.Outcome.next ((congrArg finishInval h).trans hf)

theorem finishInval_pubs (r : State × Byte) : (finishInval r).pubs = r.1.pubs := by
  unfold finishInval
  split <;> rfl

theorem invalView_status (s : State) (j : BitVec 2) (v : W64) : (invalView s j v).status = s.status ∧ (invalView s j v).owed = s.owed
    ∧ (invalView s j v).pubs = s.pubs ∧ (invalView s j v).jobs = s.jobs := by
  unfold invalView
  split <;> exact ⟨rfl, rfl, rfl, rfl⟩

/-- An accepted write completes once its invalidation does. -/
theorem exec_trnViewWrite_moves {u : State} (h : writeTrnView s j v = (u, stOk)) (hs : u.status = s.status) (ho : u.owed = s.owed) :
    Goes (exec (.trnViewWrite w j v) s) fun t => (if invalBusy t then t.status = s.status ∧ t.owed = s.owed ++ [.inval] else t.status = 0)
      ∧ t.jobs = u.jobs ∧ t.pubs = u.pubs := by
  obtain ⟨hst, -, hj, -, -⟩ := finishInval_begun hs ho
  exact ⟨_, congrArg (fun r => Host.Outcome.next (finishInval r)) h, hst, hj, finishInval_pubs _⟩

/-- A view that comes into force takes a reference of its entry. -/
theorem moveView_enables (hv : bitAt v 63 = true) (ho : bitAt (getJob s j).regs.trnView 63 = false) : let t := moveView s j v
    t.status = s.status ∧ t.owed = s.owed ∧ (getJob t j).regs.trnView = v
      ∧ getPub t (viewEntry v) = { getPub s (viewEntry v) with refs := (getPub s (viewEntry v)).refs + 1 } := by
  obtain ⟨hst, how, hpub, hjob⟩ := invalView_status (modJob (putPub s (viewEntry v) { getPub s (viewEntry v) with
    refs := (getPub s (viewEntry v)).refs + 1 }) j fun x => { x with regs := { x.regs with trnView := v }, viewEp := x.viewEp + 1 }) j v
  have h : moveView s j v = invalView (modJob (putPub s (viewEntry v) { getPub s (viewEntry v) with refs := (getPub s (viewEntry v)).refs + 1 }) j
      fun x => { x with regs := { x.regs with trnView := v }, viewEp := x.viewEp + 1 }) j v := by
    simp [moveView, oweView, invalView, hv, ho]
  rw [h]
  refine ⟨hst, how, ?_, ?_⟩
  · rw [getJob, hjob]
    simp [modJob]
  · rw [getPub, hpub]
    simp

/-- A reference owed, with no die and so no transfer under way, falls. -/
theorem settleViews_noDies {ep : Nat} {k : BitVec 4} (hd : s.dies = []) (hw : (getJob s j).viewOwed = [(ep, k)]) : let t := settleViews s j
    t.status = s.status ∧ t.owed = s.owed ∧ (getJob t j).regs = (getJob s j).regs
      ∧ getPub t k.toNat = { getPub s k.toNat with refs := (getPub s k.toNat).refs - 1 } := by
  have hl : viewLive s j ep = false := by simp [viewLive, hd]
  have he : ((getJob s j).viewOwed.filter fun o => !viewLive s j o.1) = [(ep, k)] := by rw [hw]; simp [hl]
  unfold settleViews
  rw [he]
  simp [getPub, getJob, modJob]

/-- A view that goes out of force, with no transfer begun under it, gives its reference back. -/
theorem moveView_disables (hv : bitAt v 63 = false) (ho : bitAt (getJob s j).regs.trnView 63 = true) (hd : s.dies = []) (hw : (getJob s j).viewOwed = []) :
    let n := viewEntry (getJob s j).regs.trnView
    let t := moveView s j v
    t.status = s.status ∧ t.owed = s.owed ∧ (getJob t j).regs.trnView = v ∧ getPub t n = { getPub s n with refs := (getPub s n).refs - 1 } := by
  intro n t
  let u := modJob (invalidate (modJob s j fun x => { x with regs := { x.regs with trnView := v }, viewEp := x.viewEp + 1 }) j
    (viewRange s (getJob s j).regs.trnView).1 (viewRange s (getJob s j).regs.trnView).2) j
    fun x => { x with viewOwed := x.viewOwed ++ [((getJob s j).viewEp, BitVec.ofNat 4 n)] }
  have ht : t = settleViews u j := by
    simp only [t, u, n, moveView, oweView, invalView, hv, ho, Bool.false_eq_true, if_false, if_true]
    rfl
  have hn : (BitVec.ofNat 4 n).toNat = n := by simp only [n, viewEntry_eq, BitVec.toNat_ofNat, BitVec.toNat_setWidth]; omega
  have hu : getJob u j = { getJob s j with
      regs := { (getJob s j).regs with trnView := v }, viewEp := (getJob s j).viewEp + 1, viewOwed := [((getJob s j).viewEp, BitVec.ofNat 4 n)] } := by
    simp [u, getJob, modJob, invalidate, ← hw]
  obtain ⟨hst, how, hreg, hpub⟩ := settleViews_noDies (s := u) (j := j) (ep := (getJob s j).viewEp) (k := BitVec.ofNat 4 n) (by simp [u, invalidate, hd, mmap]) (by rw [hu])
  rw [hn] at hpub
  rw [ht]
  exact ⟨hst, how, by rw [hreg, hu], hpub⟩

end views

/-- Settles O33: entries move between their states as their command and state allow; a view's reference follows the view. -/
theorem publications : Obligations.Publications := by
  refine fun s w e ver v j => ⟨fun h => next_finish (if_pos h), fun h hb hr => next_finish (writePubCfg_invalid h hb hr),
    fun h hr => next_finish (writePubCfg_taken h hr), fun h => next_finish (if_pos h), exec_publish_built,
    fun h => ⟨next_finish (if_pos h), next_finish (if_pos h), next_finish (if_pos (.inl h))⟩,
    fun h => ⟨fun hr => ?unpublishHeld, fun hr => ?unpublish, fun hr => ?holdFull, fun hr => ?hold, fun hr => next_finish (if_pos (.inr hr)), fun hr => ?release⟩,
    fun he hn => ⟨fun h => ?viewUnpublished, fun h hr => ?viewRange, fun h hr hv ho => ?viewEnables⟩, fun he ho hv hold hd hw => ?viewDisables⟩
  case unpublishHeld => exact next_finish ((if_neg (not_not.mpr h)).trans (if_pos hr))
  case unpublish => exact next_finish ((if_neg (not_not.mpr h)).trans (if_neg (not_not.mpr hr)))
  case holdFull => exact next_finish ((if_neg (not_not.mpr h)).trans (if_pos hr))
  case hold => exact next_finish ((if_neg (not_not.mpr h)).trans (if_neg (by omega)))
  case release => exact next_finish (if_neg (by simp [h, hr, pubPublished]))
  case viewUnpublished => exact exec_trnViewWrite_refused ((writeTrnView_eq he).trans (by rw [if_pos hn, if_pos h])) (by decide)
  case viewRange => exact exec_trnViewWrite_refused ((writeTrnView_eq he).trans (by rw [if_pos hn, if_neg (not_not.mpr h), if_pos hr])) (by decide)
  case viewEnables =>
    obtain ⟨hst, how, hreg, hpub⟩ := moveView_enables (s := s) (j := j) (v := v &&& viewMask) ((bitAt_viewMask v).trans hv) ho
    rw [viewEntry_viewMask, he] at hpub
    obtain ⟨t, ht, ha, hj, hp⟩ := exec_trnViewWrite_moves (w := w)
      ((writeTrnView_eq he).trans (by rw [if_pos hn, if_neg (not_not.mpr h), if_neg (by omega)])) hst how
    exact ⟨t, ht, ha, by rw [getJob, hj]; exact hreg, (getPub_of_pubs hp _).trans hpub⟩
  case viewDisables =>
    obtain ⟨hst, how, hreg, hpub⟩ := moveView_disables (s := s) (j := j) (v := v &&& viewMask) ((bitAt_viewMask v).trans hv) hold hd hw
    rw [viewEntry_eq, ho] at hpub
    obtain ⟨t, ht, ha, hj, hp⟩ := exec_trnViewWrite_moves (w := w) ((writeTrnView_eq he).trans (by rw [if_neg (not_or.mpr ⟨by simp [hv], not_not.mpr ho⟩)])) hst how
    refine ⟨t, ht, ha, ?_, (getPub_of_pubs hp _).trans hpub⟩
    rw [getJob, hj]
    exact (congrArg (bitAt · 63) hreg).trans ((bitAt_viewMask v).trans hv)

end Sys2Proof.Machine
end

section
/-!
PROOFS of the statements of the family '14_jobs_and_preemption.md', continued: contexts that take and leave the core, yields, and context controls.
-/
namespace Sys2Proof.Machine
open Sys2Proof

/-! ## Leaving and taking the core (R397, R398, R411) -/

theorem suspendWait_keeps (s : State) (c : Ctx) : let d := suspendWait s c
    d.pc = c.pc ∧ d.g = c.g ∧ d.v = c.v ∧ d.p = c.p ∧ d.st = c.st := by
  unfold suspendWait
  dsimp only
  split
  · split <;> exact ⟨rfl, rfl, rfl, rfl, rfl⟩
  · exact ⟨rfl, rfl, rfl, rfl, rfl⟩

theorem mapYield_regs (x : Tile) : (takeCore.mapYield x).regs = x.regs := by
  unfold takeCore.mapYield
  split <;> rfl

/-- The end of a yield touches its record alone. -/
theorem getCtx_mapYield (x : Tile) (j : BitVec 2) : ∃ r, getCtx (takeCore.mapYield x) j = { getCtx x j with yrec := r } := by
  unfold takeCore.mapYield
  split
  · next k y h =>
    by_cases hk : j = k
    · subst hk
      exact ⟨_, getCtx_putCtx ..⟩
    · exact ⟨_, getCtx_putCtx_other _ _ hk⟩
  · exact ⟨_, rfl⟩

/-- Context k of s runs on the core of t, its wait resumed, and the fetch buffer is empty. -/
def TakesCore (s t : State) (tile : W16) (k : BitVec 2) : Prop :=
  ctxOf t tile k = { ctxOf s tile k with
    st := .running, yrec := none, wait := (ctxOf s tile k).wait.map fun w => { w with since := s.mod.time, suspended := false } }
  ∧ (getTile t tile).regs.ctxReg = k ∧ (getTile t tile).regs.switches = (getTile s tile).regs.switches + 1 ∧ (getTile t tile).fetchBuf = []

/-- The context that takes the core, as it then stands. -/
def takenCtx (s : State) (c : Ctx) : Ctx :=
  { c with st := .running, yrec := none, wait := c.wait.map fun w => { w with since := s.mod.time, suspended := false } }

theorem getTile_takeCore (s : State) (tile : W16) (k : BitVec 2) : getTile (takeCore s tile k) tile =
    { putCtx (takeCore.mapYield (getTile s tile)) k (takenCtx s (ctxOf s tile k)) with
      fetchBuf := [], regs := { (getTile s tile).regs with ctxReg := k, switches := (getTile s tile).regs.switches + 1 } } :=
  getTile_modTile ..

theorem ctxOf_takeCore (s : State) (tile : W16) (j k : BitVec 2) :
    ctxOf (takeCore s tile k) tile j = getCtx (putCtx (takeCore.mapYield (getTile s tile)) k (takenCtx s (ctxOf s tile k))) j := by
  rw [ctxOf, getTile_takeCore]
  rfl

theorem takesCore_takeCore (s : State) (tile : W16) (k : BitVec 2) : TakesCore s (takeCore s tile k) tile k := by
  refine ⟨(ctxOf_takeCore s tile k k).trans (getCtx_putCtx ..), ?_, ?_, ?_⟩ <;> rw [getTile_takeCore]

/-- A context that does not take the core keeps all but the record of its yield. -/
theorem ctxOf_takeCore_other (s : State) (tile : W16) {j k : BitVec 2} (h : j ≠ k) :
    ∃ r, ctxOf (takeCore s tile k) tile j = { ctxOf s tile j with yrec := r } := by
  obtain ⟨r, hr⟩ := getCtx_mapYield (getTile s tile) j
  exact ⟨r, (ctxOf_takeCore s tile j k).trans ((getCtx_putCtx_other _ _ h).trans hr)⟩

theorem readStore_good {s : State} {tile : W16} {k : BitVec 2} (h : storeBad (getTile s tile) k = false) : readStore s tile k = takeCore s tile k :=
  if_neg (by simp [h])

/-- The area of another context of the store stays as it is when a context leaves. -/
theorem storeBad_leaveCore (s : State) (tile : W16) {j k : BitVec 2} (h : k ≠ j) (st : CtxSt) :
    storeBad (getTile (leaveCore s tile j st) tile) k = storeBad (getTile s tile) k := by
  have hk : k.toNat ≠ j.toNat := fun e => h (BitVec.eq_of_toNat_eq e)
  rw [leaveCore, modCtx, getTile_modTile, storeBad, storeBad, putCtx]
  dsimp only
  split
  · rw [eccAt_merase, if_neg hk]
  · rfl

/-- One context gives way to another at its switch point. -/
theorem takeCore_leaveCore (s : State) (tile : W16) {j k : BitVec 2} (h : k ≠ j) : let t := takeCore (leaveCore s tile j .ready) tile k
    TakesCore s t tile k ∧ (ctxOf t tile j).st = .ready ∧ (ctxOf t tile j).pc = (ctxOf s tile j).pc ∧ (ctxOf t tile j).g = (ctxOf s tile j).g
      ∧ (ctxOf t tile j).v = (ctxOf s tile j).v ∧ (ctxOf t tile j).p = (ctxOf s tile j).p := by
  have hj : ctxOf (leaveCore s tile j .ready) tile j = { suspendWait s (ctxOf s tile j) with st := .ready } := ctxOf_modCtx ..
  obtain ⟨hctx, hreg, hsw, hbuf⟩ := takesCore_takeCore (leaveCore s tile j .ready) tile k
  obtain ⟨r, hr⟩ := ctxOf_takeCore_other (leaveCore s tile j .ready) tile h.symm
  obtain ⟨hpc, hg, hv, hp, -⟩ := suspendWait_keeps s (ctxOf s tile j)
  have hk : ctxOf (leaveCore s tile j .ready) tile k = ctxOf s tile k := ctxOf_modCtx_other _ _ _ h
  have hregs : (getTile (leaveCore s tile j .ready) tile).regs = (getTile s tile).regs := by rw [leaveCore, modCtx, getTile_modTile]; rfl
  rw [hk] at hctx
  rw [hregs] at hsw
  intro t
  rw [show ctxOf t tile j = _ from hr, hj]
  exact ⟨⟨hctx, hreg, hsw, hbuf⟩, rfl, hpc, hg, hv, hp⟩

/-! ## Who takes the core (R398) -/

theorem readyCtx_st {x : Tile} {p : BitVec 2 → Bool} {k : BitVec 2} (h : readyCtx x p = some k) : (getCtx x k).st = .ready := by
  have := List.find?_some h
  simp only [Bool.and_eq_true, decide_eq_true_eq] at this
  exact this.1

theorem yieldedCtx_st {x : Tile} {k : BitVec 2} {y : YieldRec} (h : yieldedCtx x = some (k, y)) : (getCtx x k).st = .yielded ∧ (getCtx x k).yrec = some y := by
  obtain ⟨j, -, hj⟩ := List.exists_of_findSome?_eq_some h
  split at hj
  · next hs =>
    obtain ⟨y', hy, he⟩ := Option.map_eq_some_iff.mp hj
    cases he
    exact ⟨hs, hy⟩
  · cases hj

/-- The context that takes the core waits for it. -/
theorem switchTaker_st {x : Tile} {j k : BitVec 2} (h : switchTaker x j = some k) : (getCtx x k).st = .yielded ∨ (getCtx x k).st = .ready := by
  unfold switchTaker at h
  split at h
  · next hy =>
    split at h
    · exact .inl (Option.some.inj h ▸ (yieldedCtx_st hy).1)
    · split at h
      exacts [.inr (readyCtx_st h), nomatch h]
  · split at h
    exacts [.inr (readyCtx_st h), nomatch h]

theorem switchTaker_ne {x : Tile} {j k : BitVec 2} (hj : runningCtx x = some j) (h : switchTaker x j = some k) : k ≠ j := by
  rintro rfl
  have hs := runningCtx_st hj
  obtain h | h := switchTaker_st h <;> simp [hs] at h

/-! ## A switch of a core (R397, R398) -/

section switch
variable {s : State} {tile : W16} {j k : BitVec 2}

theorem exec_contextSwitch (hp : tilePresent s tile = true) : exec (.contextSwitch tile) s = .next (switchTile s tile) :=
  onTile_present (f := fun s => switchTile s tile) hp

/-- What the running context of a core that is not held does. -/
theorem switchTile_running (hf : (getTile s tile).faultHold = false) (hn : (getTile s tile).fenced = false) (hr : runningCtx (getTile s tile) = some j) :
    switchTile s tile = if !switchDue s tile j then s
      else if engBusy (getTile s tile) j then modCtx s tile j (suspendWait s)
      else if (getJob s j).st = .pausing then checkPaused (leaveCore s tile j .paused) j
      else match switchTaker (getTile s tile) j with
        | some k => readStore (leaveCore s tile j .ready) tile k
        | none => s := by
  unfold switchTile
  simp only [hf, hn, hr, Bool.or_self, Bool.false_eq_true, if_false] <;> rfl

theorem switchTile_idle (hf : (getTile s tile).faultHold = false) (hn : (getTile s tile).fenced = false) (hr : runningCtx (getTile s tile) = none)
    (he : engBusy (getTile s tile) (getTile s tile).regs.ctxReg = false) (hk : idleTaker (getTile s tile) = some k) :
    switchTile s tile = readStore s tile k := by
  unfold switchTile
  simp only [hf, hn, hr, he, hk, Bool.or_self, Bool.false_eq_true, if_false]

end switch

/-! ## Yields (R410, R414) -/

/-- One context marked due (R410). -/
def markDueCtx (tile : W16) (s : State) (j : BitVec 2) : State :=
  let x := getTile s tile
  let c := getCtx x j
  match c.st, c.yrec with
  | .yielded, some y =>
    if y.due.isNone && isDue s x y then putTile s tile (putCtx x j { c with yrec := some { y with due := some s.mod.time } }) else s
  | _, _ => s

section yields
variable {s : State} {tile : W16} {j : BitVec 2} {y : YieldRec}

theorem markDue_eq (s : State) (tile : W16) : markDue s tile = jobs4.foldl (markDueCtx tile) s := rfl

theorem markDueCtx_cases (tile : W16) (s : State) (k : BitVec 2) :
    markDueCtx tile s k = s ∨ ∃ c, markDueCtx tile s k = putTile s tile (putCtx (getTile s tile) k c) := by
  unfold markDueCtx
  dsimp only
  split
  · split
    exacts [.inr ⟨_, rfl⟩, .inl rfl]
  · exact .inl rfl

theorem ctxOf_markDueCtx_other {k : BitVec 2} (h : j ≠ k) : ctxOf (markDueCtx tile s k) tile j = ctxOf s tile j := by
  obtain hc | ⟨c, hc⟩ := markDueCtx_cases tile s k <;> rw [hc]
  rw [ctxOf, getTile_putTile, getCtx_putCtx_other _ _ h, ctxOf]

theorem isDue_markDueCtx (k : BitVec 2) : isDue (markDueCtx tile s k) (getTile (markDueCtx tile s k) tile) y = isDue s (getTile s tile) y
    ∧ (markDueCtx tile s k).mod = s.mod := by
  obtain hc | ⟨c, hc⟩ := markDueCtx_cases tile s k <;> rw [hc]
  · exact ⟨rfl, rfl⟩
  · rw [getTile_putTile]
    exact ⟨rfl, rfl⟩

theorem ctxOf_markDueCtx_due (hs : (ctxOf s tile j).st = .yielded) (hy : (ctxOf s tile j).yrec = some y) (hn : y.due = none)
    (hd : isDue s (getTile s tile) y = true) : ctxOf (markDueCtx tile s j) tile j = { ctxOf s tile j with yrec := some { y with due := some s.mod.time } } := by
  have h : markDueCtx tile s j = putTile s tile (putCtx (getTile s tile) j { ctxOf s tile j with yrec := some { y with due := some s.mod.time } }) := by
    unfold ctxOf at hs hy ⊢
    simp only [markDueCtx, hs, hy, hn, hd, Option.isNone_none, Bool.and_self, if_true]
  rw [h, ctxOf, getTile_putTile, getCtx_putCtx]

/-- A yielded context that is due is marked so, whatever the others are. -/
theorem ctxOf_foldl_markDueCtx {l : List (BitVec 2)} (hj : j ∈ l) (hl : l.Nodup) (hs : (ctxOf s tile j).st = .yielded)
    (hy : (ctxOf s tile j).yrec = some y) (hn : y.due = none) (hd : isDue s (getTile s tile) y = true) :
    ctxOf (l.foldl (markDueCtx tile) s) tile j = { ctxOf s tile j with yrec := some { y with due := some s.mod.time } } := by
  induction l generalizing s with
  | nil => cases hj
  | cons k l ih =>
    obtain ⟨hk, hl⟩ := List.nodup_cons.mp hl
    by_cases h : j = k
    · subst h
      have hrest : ∀ (m : List (BitVec 2)) (u : State), j ∉ m → ctxOf (m.foldl (markDueCtx tile) u) tile j = ctxOf u tile j := by
        intro m
        induction m with
        | nil => exact fun _ _ => rfl
        | cons a m ih => exact fun u hm => (ih _ fun h => hm (.tail _ h)).trans (ctxOf_markDueCtx_other fun h => hm (h ▸ .head _))
      exact (hrest l _ hk).trans (ctxOf_markDueCtx_due hs hy hn hd)
    · have ho := ctxOf_markDueCtx_other (s := s) (tile := tile) h
      obtain ⟨hdue, hmod⟩ := isDue_markDueCtx (s := s) (tile := tile) (y := y) k
      have := ih ((List.mem_cons.mp hj).resolve_left h) hl (by rw [ho]; exact hs) (by rw [ho]; exact hy) (hdue.trans hd)
      rw [ho, hmod] at this
      exact this

theorem mem_jobs4 : ∀ j : BitVec 2, j ∈ jobs4 := by decide

/-- The longest bubble of a yield has passed (R410). -/
theorem exec_yieldMaxExpire_due (hp : tilePresent s tile = true) (hs : (ctxOf s tile j).st = .yielded) (hy : (ctxOf s tile j).yrec = some y) (hn : y.due = none)
    (hm : y.maxUnits ≠ 0) (hd : y.since.toNat + 125 * y.maxUnits.toNat ≤ now s) : Goes (exec (.yieldMaxExpire tile) s) fun t =>
      ctxOf t tile j = { ctxOf s tile j with yrec := some { y with due := some s.mod.time } } :=
  ⟨_, onTile_present (f := fun s => markDue s tile) hp, ctxOf_foldl_markDueCtx (mem_jobs4 j) (by decide) hs hy hn
    (by simp only [isDue, ne_eq, hm, not_false_eq_true, decide_true, hd, Bool.and_self, Bool.or_true, Bool.true_or])⟩

/-- What a late switch does, the yielded context being due. -/
theorem exec_switchLate_eq {d : W64} (hp : tilePresent s tile = true) (hy : yieldedCtx (getTile s tile) = some (j, y)) (hd : y.due = some d) :
    exec (.switchLate tile) s = .next (if s.mod.switchCfg.toNat / 2 ^ 16 ≠ 0 ∧ fillerRuns (getTile s tile) j = true ∧ y.lateNoted = false
        ∧ d.toNat + 125 * (s.mod.switchCfg.toNat / 2 ^ 16) ≤ now s
      then putErr (modTile s tile fun x => { putCtx x j { getCtx x j with yrec := some { y with lateNoted := true } } with
        regs := { x.regs with switchLate := x.regs.switchLate + 1 } }) { tileErr tile (some j) cSwitchLate 0 with sev := 0 }
      else s) := by
  have hl : fldN s.mod.switchCfg 16 16 = s.mod.switchCfg.toNat / 2 ^ 16 := by rw [fldN_eq_div_mod]; omega
  refine (if_pos hp).trans (congrArg Host.Outcome.next ?_)
  simp only [hy, hd, hl, Bool.not_eq_true', ne_eq]

end yields

/-! ## Context controls and the yield registers (R406-R409) -/

section controls
variable {s : State} {tile : W16} {j : BitVec 2} {v pc : W64} (w : Writer)

theorem exec_ctxResume_takes (h : tileTakes s tile = true) : exec (.ctxResume w tile j) s = .next (finish (ctxResume s tile j)) :=
  onTile_tileReg_takes (f := fun s => ctxResume s tile j) h

theorem exec_ctxRestart_takes (h : tileTakes s tile = true) : exec (.ctxRestart w tile j pc) s = .next (finish (ctxRestart s tile j pc)) :=
  onTile_tileReg_takes (f := fun s => ctxRestart s tile j pc) h

theorem exec_yieldRegWrite_takes (h : tileTakes s tile = true) : exec (.yieldRegWrite w tile j v) s = .next (finish (writeYield s tile j v)) :=
  onTile_tileReg_takes (f := fun s => writeYield s tile j v) h

/-- TILE.YIELD written, with a cursor that is in the new list (R407). -/
def yieldSet (s : State) (tile : W16) (j : BitVec 2) (v : W64) : State :=
  let n := fldN v 57 6 + 1
  modCtx s tile j fun c => { c with
    yieldReg := v &&& 0xFFFFFFFEFFFFFFFF, cursor := if n ≤ c.cursor.toNat then 0 else c.cursor, yent := if n ≤ c.cursor.toNat then none else c.yent }

theorem writeYield_busy (h : yieldWritable (ctxOf s tile j) = false) : writeYield s tile j v = (s, stCfgBusy) := if_pos (by unfold ctxOf at h; simp [h])

theorem writeYield_noPeriod (h : yieldWritable (ctxOf s tile j) = true) (hv : v.toNat % 2 ^ 32 = 0) : writeYield s tile j v = (s, stInvalid) :=
  (if_neg (by unfold ctxOf at h; simp [h])).trans (if_pos (by rw [fldN_eq_div_mod, Nat.pow_zero, Nat.div_one, hv]))

theorem writeYield_taken (h : yieldWritable (ctxOf s tile j) = true) (hv : v.toNat % 2 ^ 32 ≠ 0) : writeYield s tile j v
    = (if bitAt v 63 = true ∧ (ctxOf s tile j).st ≠ .empty then yieldFetch (yieldSet s tile j v) tile j none else yieldSet s tile j v, stOk) :=
  (if_neg (by unfold ctxOf at h; simp [h])).trans (if_neg (by rw [fldN_eq_div_mod, Nat.pow_zero, Nat.div_one]; exact hv))

/-- The yield unit reads the entry at the cursor. -/
theorem yieldFetch_reads {u : State} {e : BitVec 128} (he : yieldRaw (getTile u tile) j (ctxOf u tile j) (ctxOf u tile j).cursor.toNat = some e)
    (hok : yieldEntryOk (ctxOf u tile j) e = true) : yieldFetch u tile j none = modCtx u tile j fun c => { c with yent := some e } := by
  unfold ctxOf at he hok
  simp only [yieldFetch, he, hok, Bool.and_self, if_true]

/-- What the entries of a list read does not depend on the contexts of the tile. -/
theorem yieldRaw_putCtx (x : Tile) (j k : BitVec 2) (c d : Ctx) (i : Nat) : yieldRaw (putCtx x k d) j c i = yieldRaw x j c i := rfl

end controls

/-- Settles O32: the core passes as rules 1 to 4 say, a longest bubble and a late switch are told, and contexts are resumed, restarted and given lists. -/
theorem contexts : Obligations.Contexts := by
  refine ⟨fun s tile hp => ⟨fun hf hn => ⟨fun j hr => ⟨fun hd => ?stays, fun hd he => ?engine, fun hsw he => ⟨fun hj => ?pauses, fun hj hk => ?alone, fun hj k hk hb => ?gives⟩⟩,
      fun hr he k hk hb => ?idle⟩, fun j y hs hy hn hm hd => exec_yieldMaxExpire_due hp hs hy hn hm hd, fun j y d hy hd => ⟨fun hl hf hn hlate => ?late, fun h => ?notLate⟩⟩,
    fun s w tile j pc v ht => ⟨fun h => ?noResume, fun hf hs => ?resume, fun h => ?noRestart, fun hf hs => ?restart, fun h => ?yieldBusy,
      fun h => ⟨fun hv => ?noPeriod, fun hv hoff => ?yieldOff, fun hv hon hc e he hok => ?yieldOn⟩⟩⟩
  case stays => rw [exec_contextSwitch hp, switchTile_running hf hn hr, if_pos (by simp [hd])]
  case engine =>
    obtain ⟨hpc, hg, hv, hp', hst⟩ := suspendWait_keeps s (ctxOf s tile j)
    refine ⟨_, (exec_contextSwitch hp).trans (by rw [switchTile_running hf hn hr, if_neg (by simp [hd]), if_pos he]), ?_⟩
    dsimp only
    rw [ctxOf_modCtx]
    exact ⟨hst.trans (runningCtx_st hr), hpc, hg, hv, hp'⟩
  case pauses =>
    obtain ⟨hpc, hg, hv, hp', -⟩ := suspendWait_keeps s (ctxOf s tile j)
    have hd : switchDue s tile j = true := by
      unfold ctxOf at hsw
      simp [switchDue, hsw, hj]
    refine ⟨_, (exec_contextSwitch hp).trans (by rw [switchTile_running hf hn hr, if_neg (by simp [hd]), if_neg (by simp [he]), if_pos hj]), ?_⟩
    have hc : ctxOf (checkPaused (leaveCore s tile j .paused) j) tile j = { suspendWait s (ctxOf s tile j) with st := .paused } :=
      (congrArg (getCtx · j) ((SameButLog.paused _ j).getTile tile)).trans (ctxOf_modCtx ..)
    dsimp only
    rw [hc]
    exact ⟨rfl, hpc, hg, hv, hp'⟩
  case alone =>
    have hd : switchDue s tile j = false := by simp [switchDue, hj, hk]
    rw [exec_contextSwitch hp, switchTile_running hf hn hr, if_pos (by simp [hd])]
  case gives =>
    have hkj := switchTaker_ne hr hk
    have hd : switchDue s tile j = true := by
      unfold ctxOf at hsw
      simp [switchDue, hsw, hk]
    refine ⟨_, (exec_contextSwitch hp).trans (congrArg _ ?_), takeCore_leaveCore s tile hkj⟩
    rw [switchTile_running hf hn hr, if_neg (by simp [hd]), if_neg (by simp [he]), if_neg hj, hk]
    exact readStore_good ((storeBad_leaveCore s tile hkj _).trans hb)
  case idle => exact ⟨_, (exec_contextSwitch hp).trans (congrArg _ ((switchTile_idle hf hn hr he hk).trans (readStore_good hb))), takesCore_takeCore s tile k⟩
  case late =>
    refine ⟨_, (exec_switchLate_eq hp hy hd).trans (by rw [if_pos ⟨hl, hf, hn, hlate⟩]), ?_⟩
    dsimp only [ctxOf]
    rw [SameButLog.getTile (SameButLog.err _ _ (by simp)), getTile_modTile]
    exact ⟨rfl, congrArg Ctx.yrec (getCtx_putCtx (getTile s tile) j _)⟩
  case notLate =>
    rw [exec_switchLate_eq hp hy hd, if_neg]
    rintro ⟨hl, hf, hn, hlate⟩
    obtain h | h | h | h := h
    exacts [hl h, Bool.false_ne_true (h.symm.trans hf), Bool.false_ne_true (hn.symm.trans h), by omega]
  case noResume => exact (exec_ctxResume_takes w ht).trans (next_finish (if_pos h))
  case resume => exact (exec_ctxResume_takes w ht).trans (next_finish (if_neg (by rintro (h | h); exacts [Bool.false_ne_true (hf.symm.trans h), h hs])))
  case noRestart => exact (exec_ctxRestart_takes w ht).trans (next_finish (if_pos h))
  case restart =>
    refine (exec_ctxRestart_takes w ht).trans (next_finish (if_neg ?_))
    rintro (h | ⟨h, h'⟩)
    exacts [Bool.false_ne_true (hf.symm.trans h), hs.elim h h']
  case yieldBusy =>
    refine (exec_yieldRegWrite_takes w ht).trans (next_finish (writeYield_busy ?_))
    obtain h | h | h := h <;> simp [yieldWritable, h]
  all_goals have hw : yieldWritable (ctxOf s tile j) = true := by obtain h | h | h := h <;> simp [yieldWritable, h]
  case noPeriod => exact (exec_yieldRegWrite_takes w ht).trans (next_finish (writeYield_noPeriod hw hv))
  case yieldOff =>
    refine ⟨_, (exec_yieldRegWrite_takes w ht).trans (next_finish (writeYield_taken hw hv)), rfl, ?_⟩
    rw [if_neg (by simp [hoff])]
    change (ctxOf (yieldSet s tile j v) tile j).yieldReg = _
    exact congrArg Ctx.yieldReg (ctxOf_modCtx s tile j _)
  case yieldOn =>
    have hne : (ctxOf s tile j).st ≠ .empty := by obtain h | h | h := h <;> simp [h]
    have hu : ctxOf (yieldSet s tile j v) tile j = { ctxOf s tile j with yieldReg := v &&& 0xFFFFFFFEFFFFFFFF } := by
      refine (ctxOf_modCtx s tile j _).trans ?_
      simp [hc]
    have hraw : yieldRaw (getTile (yieldSet s tile j v) tile) j (ctxOf (yieldSet s tile j v) tile j) (ctxOf (yieldSet s tile j v) tile j).cursor.toNat = some e := by
      rw [hu, yieldSet, modCtx, getTile_modTile, yieldRaw_putCtx, hc]
      exact he
    refine ⟨_, (exec_yieldRegWrite_takes w ht).trans (next_finish (writeYield_taken hw hv)), rfl, ?_⟩
    rw [if_pos ⟨hon, hne⟩, yieldFetch_reads hraw (by rw [hu]; exact hok)]
    change ctxOf (modCtx (yieldSet s tile j v) tile j fun c => { c with yent := some e }) tile j = _
    rw [ctxOf_modCtx, hu]

end Sys2Proof.Machine
end

section
/-!
PROOFS of the statements of the family '13_gatherings.md': what a late completion and stale packets leave, the registers of gatherings, pins and
re-shards.
-/
namespace Sys2Proof.Machine
open Sys2Proof

/-! ## A late completion and the drop of stale packets -/

theorem payLate_jobs (s : State) (l : Late) (st : Byte) : (payLate s l st).jobs = s.jobs := by unfold payLate; split <;> rfl

theorem payLate_gather (s : State) (l : Late) (st : Byte) : (payLate s l st).gather = s.gather := by unfold payLate; split <;> rfl

/-- An owed completion is paid with its status. -/
theorem payLate_owed {s : State} {l : Late} (h : l ∈ s.owed) (st : Byte) : (payLate s l st).status = st ∧ l ∉ (payLate s l st).owed := by
  rw [payLate, if_pos (List.contains_iff_mem.mpr h)]
  exact ⟨rfl, by simp⟩

theorem dropStale_opened (s : State) : (dropStale s).gather.opened = s.gather.opened := rfl

theorem dropStale_jobs (s : State) : (dropStale s).jobs = s.jobs := rfl

theorem dropStale_owed (s : State) : (dropStale s).owed = s.owed := rfl

theorem getJob_of_jobs {s t : State} (h : t.jobs = s.jobs) (j : BitVec 2) : getJob t j = getJob s j := congrArg (mget Job.reset · j.toNat) h

/-- The job of a re-shard that ends, with the state that LAYOUT_ST shows (R388). -/
def reshardEnded (x : Job) (st : Byte) (ep : Option W16) : Job :=
  { x with reshard := none, reshardStatus := st, regs := { x.regs with layoutSt := if ep.isSome then 0 else 2, layoutEpoch := ep.getD x.regs.layoutEpoch } }

theorem getJob_endReshard (s : State) (j : BitVec 2) (st : Byte) (ep : Option W16) :
    getJob (endReshard s j st ep) j = reshardEnded (getJob s j) st ep :=
  (getJob_of_jobs ((payLate_jobs ..).trans (dropStale_jobs _)) j).trans ((getJob_modJob ..).trans (if_pos rfl))

theorem endReshard_opened (s : State) (j : BitVec 2) (st : Byte) (ep : Option W16) : (endReshard s j st ep).gather.opened = s.gather.opened :=
  congrArg (·.opened) (payLate_gather ..)

theorem endReshard_owed {s : State} {j : BitVec 2} {st : Byte} {ep : Option W16} (h : .reshard j ∈ s.owed) :
    (endReshard s j st ep).status = st ∧ .reshard j ∉ (endReshard s j st ep).owed := by
  have hd : Late.reshard j ∈ (dropStale (modJob s j fun x => reshardEnded x st ep)).owed := h
  exact payLate_owed hd st

/-! ## GATHER.TREE (R363, R364) -/

/-- The bits that a write of GATHER.TREE stores. -/
abbrev treeMask : W64 := 0xFFFFFFFFFFFF8000

/-- The rules of R363 and R364 for a tree's value. -/
def treeOk (s : State) (v : W64) : Prop :=
  (∀ p ∈ gtPorts v, p < 24 ∧ cfgRole (getPort s p) = 1) ∧ (gtRoot v = true ∨ gtParent v ∉ gtChildren v) ∧ gtRank v < gtSize v

section tree
variable {s : State} {w : Writer} {n : BitVec 5} {v : W64}

/-- The check that a write makes is the rules. -/
theorem treeCheck_iff (s : State) (v : W64) : ((gtPorts v).all (fun p => decide (p < 24) && decide (cfgRole (getPort s p) = 1))
    && (gtRoot v || !(gtChildren v).contains (gtParent v)) && decide (gtRank v < gtSize v)) = true ↔ treeOk s v := by
  simp [treeOk, and_assoc]

theorem exec_gatherTreeWrite_invalid (h : ¬ treeOk s (v &&& treeMask)) : exec (.gatherTreeWrite w n v) s = .next { s with status := stInvalid } := by
  refine next_finish (if_pos ?_)
  rw [Bool.not_eq_true', Bool.eq_false_iff]
  exact mt (treeCheck_iff ..).mp h

theorem writeGatherTree_ok (h : treeOk s (v &&& treeMask)) : writeGatherTree s n.toNat v =
    if s.gather.opened.any fun g => decide (gdTree g.desc = n.toNat) then (s, stCfgBusy)
    else ({ s with gather := { s.gather with trees := mset 0 s.gather.trees n.toNat (v &&& treeMask) } }, stOk) := by
  refine if_neg ?_
  rw [(treeCheck_iff ..).mpr h]
  exact Bool.false_ne_true

theorem exec_gatherTreeWrite_busy (h : treeOk s (v &&& treeMask)) (hu : (s.gather.opened.any fun g => decide (gdTree g.desc = n.toNat)) = true) :
    exec (.gatherTreeWrite w n v) s = .next { s with status := stCfgBusy } :=
  next_finish ((writeGatherTree_ok h).trans (if_pos hu))

theorem exec_gatherTreeWrite_stored (h : treeOk s (v &&& treeMask)) (hu : ¬ (s.gather.opened.any fun g => decide (gdTree g.desc = n.toNat)) = true) :
    exec (.gatherTreeWrite w n v) s
      = .next { s with gather := { s.gather with trees := mset 0 s.gather.trees n.toNat (v &&& treeMask) }, status := 0 } :=
  next_finish ((writeGatherTree_ok h).trans (if_neg hu))

end tree

/-! ## Shard entries (R389) -/

/-- An entry after a write of one of its registers. -/
def shardWritten (x : Shard) (reg : BitVec 2) (v : W64) : Shard :=
  if reg = 0 then { x with valid := bitAt v 63, job := v.extractLsb' 61 2, id := v.extractLsb' 29 16 }
  else if reg = 1 then { x with version := v.setWidth 32 }
  else if reg = 2 then { x with base := v &&& 0x0000FFFFFFFFFFFF } else { x with len := v.setWidth 32 }

/-- Another valid entry has the shard and version of a valid one. -/
def shardTwin (s : State) (i : Nat) (y : Shard) : Prop :=
  y.valid = true ∧ ∃ o ∈ s.gather.shards, o.1 ≠ i ∧ o.2.valid = true ∧ o.2.job = y.job ∧ o.2.id = y.id ∧ o.2.version = y.version

section shard
variable {s : State} {w : Writer} {e : BitVec 10} {reg : BitVec 2} {v : W64}

theorem bitVec2_cases : ∀ r : BitVec 2, r = 0 ∨ r = 1 ∨ r = 2 ∨ r = 3 := by decide

/-- A write compares the entry that it would leave with the others. -/
theorem writeShard_eq (s : State) (i : Nat) (reg : BitVec 2) (v : W64) : writeShard s i reg.toNat v =
    let x := mget Shard.reset s.gather.shards i
    let y := shardWritten x reg v
    if (y.valid && s.gather.shards.any fun (e : Nat × Shard) =>
        decide (e.1 ≠ i) && e.2.valid && decide (e.2.job = y.job ∧ e.2.id = y.id ∧ e.2.version = y.version)) || decide (y.len.toNat % 2048 ≠ 0)
    then (s, stInvalid)
    else if x.pins ≠ 0 then (s, stCfgBusy)
    else ({ s with gather := { s.gather with shards := mset Shard.reset s.gather.shards i y } }, stOk) := by
  obtain rfl | rfl | rfl | rfl := bitVec2_cases reg <;> rfl

theorem shardTwin_iff (s : State) (i : Nat) (y : Shard) : (y.valid && s.gather.shards.any fun (e : Nat × Shard) =>
    decide (e.1 ≠ i) && e.2.valid && decide (e.2.job = y.job ∧ e.2.id = y.id ∧ e.2.version = y.version)) = true ↔ shardTwin s i y := by
  simp only [shardTwin, Bool.and_eq_true, List.any_eq_true, decide_eq_true_eq, and_assoc]

theorem exec_shardEntryWrite_invalid
    (h : shardTwin s e.toNat (shardWritten (mget Shard.reset s.gather.shards e.toNat) reg v)
      ∨ (shardWritten (mget Shard.reset s.gather.shards e.toNat) reg v).len.toNat % 2048 ≠ 0) :
    exec (.shardEntryWrite w e reg v) s = .next { s with status := stInvalid } := by
  refine next_finish ((writeShard_eq ..).trans (if_pos ?_))
  rw [Bool.or_eq_true, shardTwin_iff, decide_eq_true_eq]
  exact h

theorem writeShard_fit (ht : ¬ shardTwin s e.toNat (shardWritten (mget Shard.reset s.gather.shards e.toNat) reg v))
    (hl : (shardWritten (mget Shard.reset s.gather.shards e.toNat) reg v).len.toNat % 2048 = 0) : writeShard s e.toNat reg.toNat v =
      if (mget Shard.reset s.gather.shards e.toNat).pins ≠ 0 then (s, stCfgBusy)
      else ({ s with gather := { s.gather with
        shards := mset Shard.reset s.gather.shards e.toNat (shardWritten (mget Shard.reset s.gather.shards e.toNat) reg v) } }, stOk) := by
  refine (writeShard_eq ..).trans (if_neg ?_)
  rw [Bool.or_eq_true, shardTwin_iff, decide_eq_true_eq]
  exact not_or.mpr ⟨ht, not_not.mpr hl⟩

end shard

/-! ## Pins (R391) -/

section pins
variable {s : State} {w : Writer} {j : BitVec 2} {step : W32} {shard : W16} {ver : W32}

/-- The entry that a pin names. -/
def pinHit (j : BitVec 2) (shard : W16) (ver : W32) (e : Nat × Shard) : Bool :=
  e.2.valid && decide (e.2.job = j ∧ e.2.id = shard ∧ e.2.version = ver)

theorem exec_gatherPin_stale (h : s.gather.shards.find? (pinHit j shard ver) = none) :
    Goes (exec (.gatherPin w j step shard ver) s) fun t => t.status = cStaleShard ∧ t.gather = s.gather := by
  have e : gatherPin s j step shard ver
      = (putErr s { cause := cStaleShard, unit := 8, source := 0, job := some j, die := 15, info0 := at' 64 0 step }, cStaleShard) := by
    unfold gatherPin
    rw [show s.gather.shards.find? (fun e : Nat × Shard => e.2.valid && decide (e.2.job = j ∧ e.2.id = shard ∧ e.2.version = ver)) = none from h]
  exact ⟨_, next_finish e, rfl, putErr_gather _ _ (by simp)⟩

theorem gatherPin_found {e : Nat × Shard} (h : s.gather.shards.find? (pinHit j shard ver) = some e) : gatherPin s j step shard ver =
    if 4096 ≤ s.gather.pins.length then (s, stCfgBusy)
    else ({ s with gather := { s.gather with
      shards := mset Shard.reset s.gather.shards e.1 { e.2 with pins := e.2.pins + 1 }
      pins := s.gather.pins ++ [{ job := j, step, entry := BitVec.ofNat 10 e.1 }] } }, stOk) := by
  unfold gatherPin
  rw [show s.gather.shards.find? (fun e : Nat × Shard => e.2.valid && decide (e.2.job = j ∧ e.2.id = shard ∧ e.2.version = ver)) = some e from h]

/-- The entries after the pins of a list are taken off. -/
def unpinned (m : SMap Shard) (out : List Pin) : SMap Shard :=
  out.foldl (fun m p => mset Shard.reset m p.entry.toNat
    { mget Shard.reset m p.entry.toNat with pins := (mget Shard.reset m p.entry.toNat).pins - 1 }) m

/-- Each pin taken off lowers the count of its entry by one. -/
theorem mget_unpinned (out : List Pin) (m : SMap Shard) (k : Nat) : mget Shard.reset (unpinned m out) k
    = { mget Shard.reset m k with
        pins := (mget Shard.reset m k).pins - BitVec.ofNat 16 (out.countP fun p => decide (p.entry.toNat = k)) } := by
  induction out generalizing m with
  | nil => simp [unpinned]
  | cons p out ih =>
    rw [show unpinned m (p :: out) = unpinned _ out from rfl, ih, mget_mset, List.countP_cons]
    by_cases h : k = p.entry.toNat
    · subst h
      simp only [if_true, decide_true]
      congr 1
      rw [BitVec.ofNat_add]
      bv_omega
    · simp [h, Ne.symm h]

/-- The pins that a retirement takes off. -/
def retires (j : BitVec 2) (step : W32) (p : Pin) : Bool := decide (p.job = j ∧ (p.step = step ∨ precedes p.step step = true))

theorem retires_eq (j : BitVec 2) (step : W32) :
    (fun p : Pin => decide (p.job = j) && (decide (p.step = step) || precedes p.step step)) = retires j step := by
  funext p
  simp [retires]

theorem gatherRetire_eq (s : State) (j : BitVec 2) (step : W32) : gatherRetire s j step =
    { s with gather := { s.gather with
      shards := unpinned s.gather.shards (s.gather.pins.filter (retires j step))
      pins := s.gather.pins.filter fun p => !retires j step p } } := by
  unfold gatherRetire unpinned
  rw [retires_eq]
  refine congrArg (fun l => { s with gather := { s.gather with shards := unpinned s.gather.shards (s.gather.pins.filter (retires j step)), pins := l } })
    (List.filter_congr fun p hp => congrArg (!·) ?_)
  rw [Bool.eq_iff_iff, List.contains_iff_mem, List.mem_filter]
  exact and_iff_right hp

end pins

/-! ## Re-shards (R387, R388) -/

section reshard
variable {s : State} {w : Writer} {j : BitVec 2} {ep : W16}

/-- A gathering of the job is open. -/
def jobGathers (s : State) (j : BitVec 2) : Bool := s.gather.opened.any fun g => decide (g.key.job = j)

/-- A re-shard under way from the present time. -/
def reshardBegun (s : State) (j : BitVec 2) (ep : W16) : State :=
  modJob s j fun x => { x with reshard := some (ep, s.mod.time), regs := { x.regs with layoutSt := 1 } }

theorem getJob_reshardBegun (s : State) (j : BitVec 2) (ep : W16) : getJob (reshardBegun s j ep) j
    = { getJob s j with reshard := some (ep, s.mod.time), regs := { (getJob s j).regs with layoutSt := 1 } } := (getJob_modJob ..).trans (if_pos rfl)

/-- The answer of a write of GATHER.RESHARD: owed while the re-shard waits. -/
theorem exec_gatherReshard_of {t : State} {st : Byte} (hw : writeReshard s j ep = (t, st)) : exec (.gatherReshard w j ep) s
    = .next (if st = stOk ∧ (getJob t j).reshard.isSome then { t with owed := t.owed ++ [.reshard j] } else { t with status := st }) := by
  change Host.Outcome.next (match writeReshard s j ep with
    | (s, st) => if st = stOk ∧ (getJob s j).reshard.isSome then { s with owed := s.owed ++ [Late.reshard j] } else finish (s, st)) = _
  rw [hw]
  rfl

theorem exec_gatherReshard_of_refused {st : Byte} (hw : writeReshard s j ep = (s, st)) (h : st ≠ stOk) :
    exec (.gatherReshard w j ep) s = .next { s with status := st } :=
  (exec_gatherReshard_of hw).trans (congrArg _ (if_neg fun hc => h hc.1))

theorem writeReshard_begins (h : precedes (getJob s j).regs.layoutEpoch ep = true) (hr : (getJob s j).reshard = none) :
    writeReshard s j ep =
      let s := settleReshard (reshardBegun s j ep) j
      if (getJob s j).reshard.isSome ∧ fldN s.gather.cfg 8 8 = 0 then (endReshard s j stLayoutBusy none, stLayoutBusy) else (s, stOk) :=
  (if_neg (by rw [h]; exact Bool.false_ne_true)).trans (if_neg (by rw [hr]; exact Bool.false_ne_true))

theorem settleReshard_begun_idle (h : jobGathers s j = false) : settleReshard (reshardBegun s j ep) j = endReshard (reshardBegun s j ep) j stOk (some ep) := by
  unfold settleReshard
  rw [getJob_reshardBegun]
  exact if_neg (ne_true_of_eq_false (b := jobGathers s j) h)

theorem settleReshard_begun_busy (h : jobGathers s j = true) : settleReshard (reshardBegun s j ep) j = reshardBegun s j ep := by
  unfold settleReshard
  rw [getJob_reshardBegun]
  exact if_pos h

/-- With no gathering of the job open, a re-shard ends at once. -/
theorem exec_gatherReshard_idle (h : precedes (getJob s j).regs.layoutEpoch ep = true) (hr : (getJob s j).reshard = none) (hi : jobGathers s j = false) :
    Goes (exec (.gatherReshard w j ep) s) fun t => t.status = 0 ∧ (getJob t j).regs.layoutEpoch = ep ∧ (getJob t j).regs.layoutSt = 0
      ∧ (getJob t j).reshard = none := by
  have hj : getJob (endReshard (reshardBegun s j ep) j stOk (some ep)) j = reshardEnded (getJob (reshardBegun s j ep) j) stOk (some ep) :=
    getJob_endReshard ..
  have hn : ¬ (getJob (endReshard (reshardBegun s j ep) j stOk (some ep)) j).reshard.isSome = true := by rw [hj]; exact Bool.false_ne_true
  have hw : writeReshard s j ep = (endReshard (reshardBegun s j ep) j stOk (some ep), stOk) := by
    rw [writeReshard_begins h hr, settleReshard_begun_idle hi]
    exact if_neg fun hc => hn hc.1
  refine ⟨{ endReshard (reshardBegun s j ep) j stOk (some ep) with status := stOk }, ?_, rfl, congrArg (·.regs.layoutEpoch) hj, congrArg (·.regs.layoutSt) hj, congrArg (·.reshard) hj⟩
  exact (exec_gatherReshard_of hw).trans (congrArg _ (if_neg fun hc => hn hc.2))

/-- With a gathering open, a re-shard is owed its completion, where a limit gives it time. -/
theorem exec_gatherReshard_waits (h : precedes (getJob s j).regs.layoutEpoch ep = true) (hr : (getJob s j).reshard = none) (hi : jobGathers s j = true)
    (hl : fldN s.gather.cfg 8 8 ≠ 0) : exec (.gatherReshard w j ep) s
      = .next { reshardBegun s j ep with owed := s.owed ++ [.reshard j] } := by
  have hw : writeReshard s j ep = (reshardBegun s j ep, stOk) := by
    rw [writeReshard_begins h hr, settleReshard_begun_busy hi]
    exact if_neg fun hc => hl hc.2
  exact (exec_gatherReshard_of hw).trans (congrArg _ (if_pos ⟨rfl, by rw [getJob_reshardBegun]; rfl⟩))

/-- With a gathering open and a limit of 0, a re-shard fails at once. -/
theorem exec_gatherReshard_noTime (h : precedes (getJob s j).regs.layoutEpoch ep = true) (hr : (getJob s j).reshard = none) (hi : jobGathers s j = true)
    (hl : fldN s.gather.cfg 8 8 = 0) : exec (.gatherReshard w j ep) s
      = .next { endReshard (reshardBegun s j ep) j stLayoutBusy none with status := stLayoutBusy } := by
  have hw : writeReshard s j ep = (endReshard (reshardBegun s j ep) j stLayoutBusy none, stLayoutBusy) := by
    rw [writeReshard_begins h hr, settleReshard_begun_busy hi]
    exact if_pos ⟨by rw [getJob_reshardBegun]; rfl, hl⟩
  exact (exec_gatherReshard_of hw).trans (congrArg _ (if_neg fun hc => absurd hc.1 (by decide)))

/-- The limit of a re-shard that waits (R388). -/
theorem exec_reshardLimitExpire {t0 : W64} (h : (getJob s j).reshard = some (ep, t0)) : exec (.reshardLimitExpire j) s
    = .next (if t0.toNat + 1000000 * fldN s.gather.cfg 8 8 ≤ now s then endReshard s j stLayoutBusy none else s) := by
  change Host.Outcome.next (match (getJob s j).reshard with
    | some (_, t) => if t.toNat + 1000000 * fldN s.gather.cfg 8 8 ≤ now s then endReshard s j stLayoutBusy none else s
    | none => s) = _
  rw [h]

end reshard

/-- Settles O36: the check of a tree's value and of a shard entry's twin is the rule it stands for; a retirement by induction over the pins it
takes off; a re-shard by whether a gathering of the job is open and whether its limit is 0. -/
theorem gatherConfiguration : Obligations.GatherConfiguration := by
  unfold Obligations.GatherConfiguration
  intro s w n v j e
  refine ⟨exec_gatherTreeWrite_invalid, fun hok => ?_, fun reg => ⟨exec_shardEntryWrite_invalid, fun ht hl hp => ?_, fun ht hl hp => ?_⟩,
    fun step shard ver => ⟨exec_gatherPin_stale, fun x hx hl => ?_, fun i x hx hl => ?_, ?_⟩, fun ep => ⟨fun h => ?_, fun h hr => ?_, fun h hr => ?_⟩,
    fun ep t0 h => ⟨fun ht => ?_, fun ht => ?_⟩⟩
  · split
    case isTrue hu => exact exec_gatherTreeWrite_busy hok hu
    case isFalse hu => exact exec_gatherTreeWrite_stored hok hu
  · exact next_finish ((writeShard_fit ht hl).trans (if_pos hp))
  · exact next_finish ((writeShard_fit ht hl).trans (if_neg (not_not.mpr hp)))
  · exact next_finish ((gatherPin_found hx).trans (if_pos hl))
  · exact next_finish ((gatherPin_found hx).trans (if_neg (Nat.not_le.mpr hl)))
  · refine ⟨_, rfl, rfl, ?_, fun k => ?_⟩
    · exact congrArg (·.gather.pins) (gatherRetire_eq s j step)
    · exact (congrArg (fun t : State => mget Shard.reset t.gather.shards k) (gatherRetire_eq s j step)).trans (mget_unpinned ..)
  · exact exec_gatherReshard_of_refused (if_pos (by rw [h]; rfl)) (by decide)
  · exact exec_gatherReshard_of_refused ((if_neg (by rw [h]; exact Bool.false_ne_true)).trans (if_pos (Option.isSome_iff_ne_none.mpr hr))) (by decide)
  · rw [← fldN_eq_div_mod]
    cases hi : jobGathers s j with
    | false =>
      obtain ⟨t, ht, hst, hep, hls, hrs⟩ := exec_gatherReshard_idle (w := w) h hr hi
      exact ⟨t, ht, fun _ => ⟨hst, hep, hls, hrs⟩, fun hb => absurd hi hb, fun hb => absurd hi hb⟩
    | true =>
      have hb : ¬ jobGathers s j = false := by rw [hi]; exact Bool.noConfusion
      by_cases hl : fldN s.gather.cfg 8 8 = 0
      · refine ⟨_, exec_gatherReshard_noTime h hr hi hl, fun hn => absurd hn hb, fun _ hn => absurd hl hn, fun _ _ => ?_⟩
        have hj : getJob (endReshard (reshardBegun s j ep) j stLayoutBusy none) j = _ := getJob_endReshard ..
        rw [getJob_reshardBegun] at hj
        exact ⟨rfl, congrArg (·.regs.layoutEpoch) hj, congrArg (·.regs.layoutSt) hj, congrArg (·.reshard) hj⟩
      · refine ⟨_, exec_gatherReshard_waits h hr hi hl, fun hn => absurd hn hb, fun _ _ => ?_, fun _ hn => absurd hn hl⟩
        have hj := getJob_reshardBegun s j ep
        exact ⟨rfl, rfl, congrArg (·.regs.layoutEpoch) hj, congrArg (·.regs.layoutSt) hj, congrArg (·.reshard) hj⟩
  · rw [← fldN_eq_div_mod] at ht
    have hj := getJob_endReshard s j stLayoutBusy none
    exact ⟨_, (exec_reshardLimitExpire h).trans (congrArg _ (if_pos ht)), fun ho => endReshard_owed ho, congrArg (·.reshardStatus) hj,
      congrArg (·.regs.layoutSt) hj, congrArg (·.reshard) hj, congrArg (·.regs.layoutEpoch) hj⟩
  · rw [← fldN_eq_div_mod] at ht
    exact (exec_reshardLimitExpire h).trans (congrArg _ (if_neg (Nat.not_le.mpr ht)))

end Sys2Proof.Machine
end

section
/-!
PROOFS of the statements of the families '12_links.md' to '14_jobs_and_preemption.md': what sending at a port leaves, and what a record and the end of
a re-shard leave of a job.
-/
namespace Sys2Proof.Machine
open Sys2Proof

/-! ## Sending at ports (R335-R340) -/

/-- Two states that differ in their ports alone. -/
def PortsOnly (s t : State) : Prop := ∃ ps, t = { s with net := { s.net with ports := ps } }

namespace PortsOnly
variable {s t u : State}

theorem refl (s : State) : PortsOnly s s := ⟨s.net.ports, rfl⟩

theorem trans (h : PortsOnly s t) (k : PortsOnly t u) : PortsOnly s u := by
  obtain ⟨ps, rfl⟩ := h
  obtain ⟨qs, rfl⟩ := k
  exact ⟨qs, rfl⟩

theorem gather (h : PortsOnly s t) : t.gather = s.gather := by obtain ⟨ps, rfl⟩ := h; rfl

theorem jobs (h : PortsOnly s t) : t.jobs = s.jobs := by obtain ⟨ps, rfl⟩ := h; rfl

theorem mod (h : PortsOnly s t) : t.mod = s.mod := by obtain ⟨ps, rfl⟩ := h; rfl

theorem owed (h : PortsOnly s t) : t.owed = s.owed := by obtain ⟨ps, rfl⟩ := h; rfl

theorem status (h : PortsOnly s t) : t.status = s.status := by obtain ⟨ps, rfl⟩ := h; rfl

theorem heldG (h : PortsOnly s t) : t.net.heldG = s.net.heldG := by obtain ⟨ps, rfl⟩ := h; rfl

theorem putPort (s : State) (p : Nat) (x : Port) : PortsOnly s (putPort s p x) := ⟨mset Port.reset s.net.ports p x, rfl⟩

theorem foldl {β : Type} {f : State → β → State} (h : ∀ s b, PortsOnly s (f s b)) (l : List β) (s : State) : PortsOnly s (l.foldl f s) :=
  List.foldlRecOn (motive := fun t => PortsOnly s t) l f (refl s) fun t ht b _ => ht.trans (h t b)

theorem flit (s : State) (p : Nat) (typ : BitVec 2) (vl : Nat) (seq : BitVec 12) (len : Nat) (k : Option (Pkt × Nat)) :
    PortsOnly s (sendFlit s p typ vl seq len k) := putPort ..

theorem idle (s : State) (p : Nat) : PortsOnly s (sendIdle s p) := flit ..

theorem part (s : State) (p : Nat) (f : TxFlit) : PortsOnly s (sendPart s p f) := flit ..

theorem again (s : State) (p : Nat) : PortsOnly s (resend s p) := foldl (fun s f => part s p f) _ _

theorem lane (s : State) (p : Nat) (k : Pkt) (i : Nat) (turn : Nat × Nat) : PortsOnly s (sendLane s p k i turn) := (part ..).trans (putPort ..)

theorem pumpPort (fuel : Nat) (s : State) (p : Nat) : PortsOnly s (pumpPort fuel s p) := by
  induction fuel generalizing s with
  | zero => exact refl s
  | succ fuel ih =>
    rw [Machine.pumpPort]
    split
    · split
      · split
        · exact (lane ..).trans (ih _)
        · exact refl s
      · exact refl s
    · exact refl s

theorem pump (s : State) (n : Nat) : PortsOnly s (pump s n) := by
  unfold Machine.pump
  dsimp only
  split
  · exact (pumpPort ..).trans (putPort ..)
  · exact pumpPort ..

theorem push (s : State) (n : Nat) (k : Pkt) : PortsOnly s (pushPkt s n k) := by
  unfold pushPkt
  split
  · exact (putPort ..).trans (pump ..)
  · exact refl s

theorem up (s : State) (g : Gather) (b : GBody) : PortsOnly s (sendUp s g b) := push ..

theorem down (s : State) (g : Gather) (b : GBody) : PortsOnly s (sendDown s g b) := foldl (fun s p => push s p _) _ _

theorem tellUp (s : State) (g : Gather) (what : BitVec 2) (n : Nat) : PortsOnly s (gTellUp s g what n) := by
  unfold gTellUp
  split
  · exact refl s
  · exact push ..

theorem tellDown (s : State) (g : Gather) (what : BitVec 2) (n : Nat) : PortsOnly s (gTellDown s g what n) := foldl (fun s p => push s p _) _ _

end PortsOnly

/-! ## Jobs through records and re-shards -/

/-- A job but for its error ring, its re-shard and the references of earlier views. -/
def jobView (x : Job) : Job :=
  { x with
    ringIrq := false, reshard := none, reshardStatus := 0, viewOwed := []
    regs := { x.regs with errHead := 0, errLost := 0, layoutSt := 0, layoutEpoch := 0 } }

theorem gatherErr_sev (s : State) (g : Gather) (st : Byte) : (gatherErr s g st).sev ≠ 3 := by simp [gatherErr]

/-- A gathering closed, before its record. -/
def gLeft (s : State) (g : Gather) (st : Byte) : State :=
  let s := gTell (unpark s (.gather g.key)) g st
  let ok := decide (st = 0 ∨ st = cGatherPartial)
  { s with gather := { s.gather with
    opened := s.gather.opened.filter fun x => decide (x.key ≠ g.key)
    completed := if ok then s.gather.completed + 1 else s.gather.completed
    abandoned := if ok then s.gather.abandoned else s.gather.abandoned + 1 } }

theorem gClose_eq (s : State) (g : Gather) (st : Byte) : gClose s g st
    = settleReshard (if gQuiet st then gLeft s g st else putErr (gLeft s g st) (gatherErr (gLeft s g st) g st)) g.key.job := rfl

/-- Jobs that two states have in common but for their error rings, re-shards and references of earlier views. -/
structure KeepsJobs (s t : State) : Prop where
  view : ∀ j, jobView (getJob t j) = jobView (getJob s j)

namespace KeepsJobs
variable {s t u : State}

theorem refl (s : State) : KeepsJobs s s := ⟨fun _ => rfl⟩

theorem trans (h : KeepsJobs s t) (k : KeepsJobs t u) : KeepsJobs s u := ⟨fun j => (k.view j).trans (h.view j)⟩

theorem of_jobs (h : t.jobs = s.jobs) : KeepsJobs s t := ⟨fun j => by rw [getJob, h]; rfl⟩

theorem ports (h : PortsOnly s t) : KeepsJobs s t := of_jobs h.jobs

theorem st (h : KeepsJobs s t) (j : BitVec 2) : (getJob t j).st = (getJob s j).st := congrArg (·.st) (h.view j)

theorem saved (h : KeepsJobs s t) (j : BitVec 2) : (getJob t j).saved = (getJob s j).saved := congrArg (·.saved) (h.view j)

theorem frozen (h : KeepsJobs s t) (j : BitVec 2) : (getJob t j).frozen = (getJob s j).frozen := congrArg (·.frozen) (h.view j)

theorem postClosed (h : KeepsJobs s t) (j : BitVec 2) : (getJob t j).postClosed = (getJob s j).postClosed := congrArg (·.postClosed) (h.view j)

theorem job (s : State) (j : BitVec 2) {f : Job → Job} (h : ∀ x, jobView (f x) = jobView x) : KeepsJobs s (modJob s j f) := by
  refine ⟨fun k => ?_⟩
  rw [getJob_modJob]
  split
  case isTrue hk => rw [hk, h]
  case isFalse => rfl

theorem foldl {β : Type} {f : State → β → State} (h : ∀ s b, KeepsJobs s (f s b)) (l : List β) (s : State) : KeepsJobs s (l.foldl f s) :=
  List.foldlRecOn (motive := fun t => KeepsJobs s t) l f (refl s) fun t ht b _ => ht.trans (h t b)

theorem event (s : State) (k : Nat) (o : W16) (b : List Byte) (v : BitVec 2) : KeepsJobs s (raiseEvent s k o b v) := of_jobs (raiseEvent_jobs ..)

theorem stored1 (s : State) (pa : Nat) (bs : List Byte) : KeepsJobs s (hbmPut1 s pa bs).1 := by
  unfold hbmPut1
  dsimp only
  split
  · split <;> exact of_jobs rfl
  · exact refl s

theorem stored (s : State) (pa : Nat) (bs : List Byte) : KeepsJobs s (hbmPut s pa bs).1 := by
  unfold hbmPut
  refine List.foldlRecOn (motive := fun r : State × Byte => KeepsJobs s r.1) _ _ (refl s) fun r h e _ => ?_
  exact h.trans (stored1 r.1 e.1 e.2)

theorem ring (s : State) (r : ErrRec) : KeepsJobs s (ringAppend s r) := by
  unfold ringAppend
  dsimp only
  split
  · split
    · exact refl s
    · split
      · exact (stored _ _ _).trans (job _ _ fun _ => rfl)
      · exact job _ _ fun _ => rfl
  · exact refl s

theorem record (s : State) {r : ErrRec} (h : r.sev ≠ 3) : KeepsJobs s (putRecord s r).1 := by
  have hr : ∀ l : Log, KeepsJobs s (ringAppend { s with log := l } r) := fun l => trans (t := { s with log := l }) (of_jobs rfl) (ring _ r)
  simp only [putRecord, h, if_false]
  split
  · exact (hr _).trans (event _ _ _ _ _)
  · exact hr _

theorem err1 (s : State) {e : Err} (h : e.sev ≠ 3) : KeepsJobs s (putErr1 s e).1 := by
  unfold putErr1
  split
  · exact of_jobs rfl
  · refine trans ?_ (record _ h)
    split
    · exact of_jobs rfl
    · exact refl s

theorem err (s : State) {e : Err} (h : e.sev ≠ 3) : KeepsJobs s (putErr s e) :=
  putErr_keeps (R := KeepsJobs) (fun _ _ _ => trans) (fun s _ => err1 s) s h

theorem dropStale (s : State) : KeepsJobs s (dropStale s) := of_jobs rfl

theorem pay (s : State) (l : Late) (st : Byte) : KeepsJobs s (payLate s l st) := of_jobs (payLate_jobs ..)

theorem endReshard (s : State) (j : BitVec 2) (st : Byte) (ep : Option W16) : KeepsJobs s (endReshard s j st ep) :=
  ((job s j (f := fun x => reshardEnded x st ep) fun _ => rfl).trans (dropStale _)).trans (pay ..)

theorem settleReshard (s : State) (j : BitVec 2) : KeepsJobs s (settleReshard s j) := by
  unfold Machine.settleReshard
  split
  · split
    · exact refl s
    · exact endReshard ..
  · exact refl s

theorem arrive (s : State) (t : W16) (k : Nat) (j : BitVec 2) : KeepsJobs s (arriveCount s t k j) := by
  unfold arriveCount
  dsimp only
  split
  · exact of_jobs ((markDue_keeps (·.jobs) t (fun _ _ _ => rfl) _).trans rfl)
  · exact err _ (by simp [tileErr])

theorem gTell (s : State) (g : Gather) (st : Byte) : KeepsJobs s (gTell s g st) := by
  unfold Machine.gTell
  dsimp only
  split
  · exact refl s
  · split
    · exact err _ (by simp [gatherErr])
    · split
      · exact arrive ..
      · exact of_jobs rfl

theorem gClose (s : State) (g : Gather) (st : Byte) : KeepsJobs s (gClose s g st) := by
  have hu : KeepsJobs s (unpark s (.gather g.key)) := of_jobs rfl
  have hl : KeepsJobs s (gLeft s g st) := (hu.trans (gTell _ g st)).trans (of_jobs rfl)
  rw [gClose_eq]
  refine trans ?_ (settleReshard ..)
  split
  · exact hl
  · exact hl.trans (err _ (gatherErr_sev _ _ _))

end KeepsJobs

end Sys2Proof.Machine
end

section
/-!
PROOFS of the statements of the family '13_gatherings.md': gatherings.
-/
namespace Sys2Proof.Machine
open Sys2Proof

/-! ## Open gatherings by key (R368) -/

theorem getGath_key {s : State} {k : GKey} {g : Gather} (h : getGath s k = some g) : g.key = k := by
  simpa using List.find?_some h

theorem getGath_of_opened {s t : State} (h : t.gather.opened = s.gather.opened) (k : GKey) : getGath t k = getGath s k :=
  congrArg (List.find? _) h

theorem getGath_of_gather {s t : State} (h : t.gather = s.gather) (k : GKey) : getGath t k = getGath s k :=
  getGath_of_opened (congrArg (·.opened) h) k

/-- A gathering put back is the one that its key names. -/
theorem getGath_putGath {s : State} {k : GKey} {g x : Gather} (h : getGath s k = some g) (hx : x.key = k) : getGath (putGath s x) k = some x := by
  subst hx
  obtain ⟨l, hl⟩ : ∃ l, l = s.gather.opened := ⟨_, rfl⟩
  have hf : (l.find? fun g => decide (g.key = x.key)) = some g := hl ▸ h
  change ((s.gather.opened.map fun y => if y.key = x.key then x else y).find? fun g => decide (g.key = x.key)) = some x
  rw [← hl]
  clear hl h
  induction l with
  | nil => cases hf
  | cons y l ih =>
    rw [List.map_cons, List.find?_cons]
    by_cases hy : y.key = x.key
    · simp [hy]
    · rw [List.find?_cons, decide_eq_false hy] at hf
      simp only [hy, if_false, decide_false]
      exact ih hf

/-- No gathering of a key is left where those of the key are taken out. -/
theorem getGath_filtered {s t : State} {k : GKey} (h : t.gather.opened = s.gather.opened.filter fun x => decide (x.key ≠ k)) : getGath t k = none := by
  rw [getGath, h, List.find?_eq_none]
  intro x hx
  simpa using (List.mem_filter.mp hx).2

/-- Packets held are none, and taking them changes nothing. -/
theorem takeHeld_of_none {s : State} (h : s.net.heldG = []) : takeHeld s = s := by
  have he : { s with net := { s.net with heldG := [] } } = s := by rw [← h]
  rw [takeHeld, h, List.foldl_nil, he]

/-! ## A gathering that leaves (R379, R382-R385) -/

theorem gTell_gather (s : State) (g : Gather) (st : Byte) : (gTell s g st).gather = s.gather := by
  unfold gTell
  dsimp only
  split
  · rfl
  · split
    · exact putErr_gather _ _ (by simp [gatherErr])
    · split
      · unfold arriveCount
        dsimp only
        split
        · exact (markDue_keeps (·.gather) _ (fun _ _ _ => rfl) _).trans rfl
        · exact putErr_gather _ _ (by simp [tileErr])
      · rfl

/-- What a re-shard that settles leaves of the gatherings open and of what was counted. -/
theorem settleReshard_gather (s : State) (j : BitVec 2) : (settleReshard s j).gather.opened = s.gather.opened
    ∧ (settleReshard s j).gather.abandoned = s.gather.abandoned ∧ (settleReshard s j).gather.completed = s.gather.completed := by
  unfold settleReshard
  split
  · split
    · exact ⟨rfl, rfl, rfl⟩
    · have h : ∀ ep, (endReshard s j stOk ep).gather = (dropStale (modJob s j fun x => reshardEnded x stOk ep)).gather := fun _ => payLate_gather ..
      rw [h]
      exact ⟨rfl, rfl, rfl⟩
  · exact ⟨rfl, rfl, rfl⟩

/-- A gathering has left, abandoned: it is open no more, and counted. -/
structure Gone (g : Gather) (s t : State) : Prop where
  opened : t.gather.opened = s.gather.opened.filter fun x => decide (x.key ≠ g.key)
  abandoned : t.gather.abandoned = s.gather.abandoned + 1
  completed : t.gather.completed = s.gather.completed
  jobs : KeepsJobs s t

namespace Gone
variable {s t u : State} {g : Gather} {st : Byte}

theorem after (hg : t.gather = s.gather) (hj : KeepsJobs s t) (h : Gone g t u) : Gone g s u :=
  ⟨by rw [h.opened, hg], by rw [h.abandoned, hg], by rw [h.completed, hg], hj.trans h.jobs⟩

theorem afterPorts (h : PortsOnly s t) (k : Gone g t u) : Gone g s u := k.after h.gather (.ports h)

theorem getGath (h : Gone g s t) : getGath t g.key = none := getGath_filtered h.opened

theorem close (s : State) (g : Gather) (h : ¬ (st = 0 ∨ st = cGatherPartial)) : Gone g s (gClose s g st) := by
  have hg : (if gQuiet st then gLeft s g st else putErr (gLeft s g st) (gatherErr (gLeft s g st) g st)).gather = (gLeft s g st).gather := by
    split
    · rfl
    · exact putErr_gather _ _ (gatherErr_sev _ _ _)
  have ht : (gTell (unpark s (.gather g.key)) g st).gather = s.gather := gTell_gather ..
  obtain ⟨ho, ha, hc⟩ := settleReshard_gather (if gQuiet st then gLeft s g st else putErr (gLeft s g st) (gatherErr (gLeft s g st) g st)) g.key.job
  refine ⟨?_, ?_, ?_, .gClose s g st⟩ <;> rw [gClose_eq]
  · rw [ho, hg, gLeft, ht]
  · rw [ha, hg, gLeft, ht, decide_eq_false h]
    rfl
  · rw [hc, hg, gLeft, ht, decide_eq_false h]
    rfl

/-- A gathering that writes no completion record leaves at once. -/
theorem failClose (s : State) (h : ¬ (st = 0 ∨ st = cGatherPartial)) (hc : gdNone (gdCpl g.desc) = true) : Gone g s (gFailClose s g st) := by
  unfold gFailClose
  dsimp only
  rw [if_pos hc]
  exact after (t := unpark s (.gather g.key)) rfl (.of_jobs rfl) (close _ g h)

theorem told (s : State) (what : BitVec 2) (h : ¬ (st = 0 ∨ st = cGatherPartial)) (hc : gdNone (gdCpl g.desc) = true) :
    Gone g s (gFailClose (gTellDown (gTellUp s g what 0) g 0 0) g st) :=
  (failClose _ h hc).afterPorts ((PortsOnly.tellUp ..).trans (.tellDown ..))

theorem abandon (s : State) (h : ¬ (st = 0 ∨ st = cGatherPartial)) (hc : gdNone (gdCpl g.desc) = true) (hp : g.phase ≠ .failed) :
    Gone g s (gAbandon s g st) := by
  unfold gAbandon
  rw [if_neg hp]
  exact told s 0 h hc

theorem fail (s : State) (h : ¬ (st = 0 ∨ st = cGatherPartial)) (hc : gdNone (gdCpl g.desc) = true) (hp : g.phase ≠ .failed) :
    Gone g s (gFail s g st) := by
  unfold gFail
  split
  · exact told s 1 h hc
  · exact abandon s h hc hp

end Gone

/-! ## Messages (R382-R385) -/

section message
variable {s : State} {key : GKey} {g : Gather}

theorem gMessage_waits {m : HeldMsg} (h : getGath s m.key = none) (hs : gStale s m.key 7 = false) :
    gMessage s m = { s with net := { s.net with heldMsg := s.net.heldMsg ++ [m] } } := by
  unfold gMessage
  rw [h, hs]
  exact if_neg Bool.false_ne_true

theorem gMessage_stale {m : HeldMsg} (h : getGath s m.key = none) (hs : gStale s m.key 7 = true) : gMessage s m = s := by
  unfold gMessage
  rw [h, hs]
  exact if_pos rfl

section alive
variable (hg : getGath s key = some g) (hp : g.phase ≠ .failed)
include hg hp

theorem exec_gatherAbandonReceive_open : exec (.gatherAbandonReceive key) s = .next (gAbandon s g cGatherAbandoned) := by
  refine congrArg Host.Outcome.next ?_
  unfold gMessage
  rw [show getGath s key = some g from hg]
  exact if_neg hp

theorem exec_gatherRestartReceive_open (a : BitVec 3) (n : Nat) : exec (.gatherRestartReceive key a n) s = .next (gRestart s g a n) := by
  refine congrArg Host.Outcome.next ?_
  unfold gMessage
  rw [show getGath s key = some g from hg]
  exact if_neg hp

theorem exec_gatherWithdrawReceive_open (p : Fin 24) (n : Nat) :
    exec (.gatherWithdrawReceive key p true n) s = .next (gWithdraw s g p.val true) := by
  refine congrArg Host.Outcome.next ?_
  unfold gMessage
  rw [show getGath s key = some g from hg]
  exact if_neg hp

end alive

/-! ## Restarts (R384) -/

theorem gTree_putGath (s : State) (x y : Gather) : gTree (putGath s x) y = gTree s y := rfl

/-- A gathering of a key at a later attempt, with the restarts counted. -/
def restarted (s : State) (g : Gather) : State :=
  putGath { unpark s (.gather g.key) with gather := { s.gather with restarts := s.gather.restarts + 1 } } g

theorem getGath_restarted {x : Gather} (hg : getGath s key = some g) (hx : x.key = key) : getGath (restarted s x) key = some x :=
  getGath_putGath (s := { unpark s (.gather x.key) with gather := { s.gather with restarts := s.gather.restarts + 1 } }) (hg : getGath s key = some g) hx

/-- What a restart tells and drops leaves its gathering, and the restarts counted. -/
theorem restarted_told (s : State) (x y : Gather) (what : BitVec 2) (n : Nat) : let t := gTellDown (dropStale (restarted s x)) y what n
    t.gather.opened = (restarted s x).gather.opened ∧ t.gather.restarts = s.gather.restarts + 1
    ∧ (s.net.heldG = [] → t.net.heldG = []) := by
  have hp := PortsOnly.tellDown (dropStale (restarted s x)) y what n
  refine ⟨by rw [hp.gather]; rfl, by rw [hp.gather]; rfl, fun h => ?_⟩
  rw [hp.heldG]
  exact congrArg (List.filter _) h

/-- A restart of a later attempt, away from the root. -/
theorem gRestart_later {a : BitVec 3} {n : Nat} (hg : getGath s key = some g) (ha : g.attempt.toNat < a.toNat) (hr : gtRoot (gTree s g) = false)
    (hh : s.net.heldG = []) : getGath (gRestart s g a n) key = some { gBegin g a with restarts := g.restarts + 1, contrib := n }
      ∧ (gRestart s g a n).gather.restarts = s.gather.restarts + 1 := by
  have hk := getGath_key hg
  let x : Gather := { gBegin g a with restarts := g.restarts + 1, contrib := n }
  obtain ⟨ho, hc, hheld⟩ := restarted_told s x x 2 n
  have he : gRestart s g a n = gTellDown (dropStale (restarted s x)) x 2 n :=
    (if_pos (by simp [ha, hr])).trans (takeHeld_of_none (hheld hh))
  rw [he]
  exact ⟨(getGath_of_opened ho key).trans (getGath_restarted hg hk), hc⟩

theorem gRestart_earlier {a : BitVec 3} {n : Nat} (h : a.toNat ≤ g.attempt.toNat) : gRestart s g a n = s :=
  if_neg (by simp [Nat.not_lt.mpr h])

/-- A child port that is out of a gathering of partial results: the root begins again without it. -/
theorem gChildLost_root {p : Nat} (hg : getGath s key = some g) (hr : gtRoot (gTree s g) = true) (hn : g.restarts ≠ 7) :
    ∃ g', getGath (gChildLost s g p) key = some g' ∧ g'.attempt = g.attempt + 1 ∧ g'.restarts = g.restarts + 1
      ∧ (gdReduce g.desc = true → g'.contrib = gtSize (gTree s g)) ∧ p ∈ g'.lostPorts ∧ g'.rx = [] := by
  have hk := getGath_key hg
  let x : Gather := { g with lostPorts := p :: g.lostPorts }
  let u := putGath s x
  let y : Gather := { gBegin x (x.attempt + 1) with
    restarts := x.restarts + 1
    contrib := if gdReduce x.desc then gtSize (gTree u x) else 1 + (freshWord u).1.toNat % (gtSize (gTree u x) - 1) }
  have he : gChildLost s g p = gTellDown (dropStale (restarted (freshWord u).2 y)) y 2 y.contrib :=
    (if_pos hr).trans (if_neg hn)
  have hu : getGath (freshWord u).2 key = some x := getGath_putGath hg hk
  obtain ⟨ho, -⟩ := restarted_told (freshWord u).2 y y 2 y.contrib
  refine ⟨y, ?_, rfl, rfl, fun hd => if_pos hd, List.mem_cons_self, rfl⟩
  rw [he]
  exact (getGath_of_opened ho key).trans (getGath_restarted hu hk)

end message

end Sys2Proof.Machine
end

section
/-!
PROOFS of the statements of the family '13_gatherings.md', continued: passes and rounds of gatherings.
-/
namespace Sys2Proof.Machine
open Sys2Proof

/-! ## The exponent that a fit pass proposes (R371, R375) -/

theorem bitlen_mono {a b : Nat} (h : a ≤ b) : bitlen a ≤ bitlen b := by
  unfold bitlen
  split
  · exact Nat.zero_le _
  · next ha =>
    have hb : b ≠ 0 := by omega
    rw [if_neg hb]
    exact Nat.succ_le_succ ((Nat.le_log2 hb).mpr ((Nat.log2_self_le ha).trans h))

theorem bitlen_pos {a : Nat} (h : a ≠ 0) : 0 < bitlen a := by
  rw [bitlen, if_neg h]
  exact Nat.succ_pos _

/-- The largest of a list and a first value is at least each, and at most what bounds each. -/
theorem foldl_natMax (l : List Nat) (a : Nat) : a ≤ l.foldl Nat.max a ∧ (∀ x ∈ l, x ≤ l.foldl Nat.max a)
    ∧ ∀ b, a ≤ b → (∀ x ∈ l, x ≤ b) → l.foldl Nat.max a ≤ b := by
  induction l generalizing a with
  | nil => exact ⟨le_rfl, fun x hx => absurd hx List.not_mem_nil, fun b h _ => h⟩
  | cons y l ih =>
    obtain ⟨hfirst, hall, hbound⟩ := ih (Nat.max a y)
    refine ⟨(Nat.le_max_left a y).trans hfirst, List.forall_mem_cons.mpr ⟨(Nat.le_max_right a y).trans hfirst, hall⟩, fun b ha hb => ?_⟩
    obtain ⟨hy, hl⟩ := List.forall_mem_cons.mp hb
    exact hbound b (Nat.max_le.mpr ⟨ha, hy⟩) hl

theorem length_chunksOf {α : Type} {n : Nat} (hn : 0 < n) (m : Nat) : ∀ (fuel : Nat) (l : List α), l.length = n * m → m ≤ fuel →
    (chunksOf n fuel l).length = m := by
  induction m with
  | zero =>
    intro fuel l hl _
    obtain rfl : l = [] := List.eq_nil_of_length_eq_zero hl
    cases fuel <;> rfl
  | succ m ih =>
    intro fuel l hl hf
    obtain ⟨fuel, rfl⟩ : ∃ k, fuel = k + 1 := ⟨fuel - 1, by omega⟩
    have hlen : (l.drop n).length = n * m := by rw [List.length_drop, hl, Nat.mul_succ, Nat.add_sub_cancel]
    have hne : l.isEmpty = false := by
      rw [List.isEmpty_eq_false_iff, ← List.length_pos_iff, hl]
      exact Nat.mul_pos hn (Nat.succ_pos m)
    rw [chunksOf, hne]
    exact congrArg (· + 1) (ih fuel (l.drop n) hlen (by omega))

/-- The largest bit length of the blocks of a list of values. -/
def maxBits (n : Nat) (vs : List Int) : Nat := (blockBits (chunksOf 256 n vs)).foldl Nat.max 0

section maxBits
variable {n : Nat} {vs : List Int} (hl : vs.length = 256 * n)
include hl

theorem bitlen_le_maxBits {v : Int} (hv : v ∈ vs) : bitlen v.natAbs ≤ maxBits n vs := by
  rw [← flatten_chunksOf 256 n vs hl.le, List.mem_flatten] at hv
  obtain ⟨b, hb, hvb⟩ := hv
  have hin : v.natAbs ≤ (b.map Int.natAbs).foldl Nat.max 0 := (foldl_natMax _ 0).2.1 _ (List.mem_map_of_mem hvb)
  exact (bitlen_mono hin).trans ((foldl_natMax _ 0).2.1 _ (List.mem_map_of_mem hb))

theorem maxBits_of_zero (h : ∀ v ∈ vs, v = 0) : maxBits n vs = 0 := by
  refine Nat.le_zero.mp ((foldl_natMax _ 0).2.2 0 le_rfl fun x hx => ?_)
  obtain ⟨b, hb, rfl⟩ := List.mem_map.mp hx
  have hzero : (b.map Int.natAbs).foldl Nat.max 0 = 0 := by
    refine Nat.le_zero.mp ((foldl_natMax _ 0).2.2 0 le_rfl fun y hy => ?_)
    obtain ⟨v, hv, rfl⟩ := List.mem_map.mp hy
    have hmem : v ∈ vs := by
      rw [← flatten_chunksOf 256 n vs hl.le]
      exact List.mem_flatten.mpr ⟨b, hb, hv⟩
    rw [h v hmem]
    exact le_rfl
  rw [hzero]
  exact le_rfl

end maxBits

/-- The exponent proposed for a largest bit length. -/
def proposal (w : Byte) (m : Nat) : Int := if m = 0 then -127 else gdX8 w + m - 23

/-- Every kept block is every block after a fit pass. -/
theorem gPropose_all (g : Gather) (h : g.kept = List.range g.bitlens.length) :
    gPropose g = { g with phase := .expo, rx := g.rx ++ [(24, .expo (proposal (gdWexp g.desc) (g.bitlens.foldl Nat.max 0)) 1)] } := by
  have hall : (List.range g.bitlens.length).map (fun b => nth 0 g.bitlens b) = g.bitlens := by
    refine List.ext_getElem (by simp) fun i hi hi' => ?_
    simp [nth, hi']
  rw [gPropose, h, hall]
  rfl

/-! ## The inputs of a pass (R371) -/

theorem length_w64s {bs : List Byte} {m : Nat} (h : bs.length = 8 * m) : (w64s bs).length = m := by
  rw [w64s, List.length_map, length_chunksOf (by decide) m _ _ h (by omega)]

theorem sgn64_range (n : Nat) : -(2 ^ 63) ≤ sgn 64 n ∧ sgn 64 n ≤ 2 ^ 63 - 1 := by
  have hm : n % 2 ^ 64 < 2 ^ 64 := Nat.mod_lt _ (by decide)
  simp only [sgn]
  split <;> omega

/-- A value of 64 bits is not clamped. -/
theorem clamp64_of_mem {bs : List Byte} {v : Int} (h : v ∈ w64s bs) : clamp64 v = (v, 0) := by
  obtain ⟨b, -, rfl⟩ := List.mem_map.mp h
  obtain ⟨hlo, hhi⟩ := sgn64_range (leNat b)
  simp only [clamp64]
  rw [if_neg (by omega), if_neg (by omega)]

/-- The inputs without residuals are the values read. -/
theorem clamped_w64s (bs : List Byte) :
    ((List.range (w64s bs).length).map fun i => clamp64 (nth 0 (w64s bs) i + nth 0 [] i)).map Prod.fst = w64s bs := by
  refine List.ext_getElem (by simp) fun i hi hi' => ?_
  simp [nth, hi', clamp64_of_mem (List.getElem_mem hi')]

section pass
variable {s s' : State} {key : GKey} {g : Gather} {bs : List Byte}

/-- A pass of a gathering that has no access parked. -/
theorem exec_gatherPassDone_of (hg : gParked s key = false) : exec (.gatherPassDone key) s = .next (gatherPass s key) := by
  have hn : parkOf s (.gather key) = none := by simpa [gParked] using hg
  refine congrArg Host.Outcome.next ?_
  rw [hn]

theorem gRead_plain (hn : gdNone (gdEddyIn g.desc) = true)
    (hr : vaRead s g.key.job (gdSrc g.desc).toNat (2048 * gdBlocks g.desc) = (s', .ok bs)) (k : State → List Int → Nat → State) :
    gRead s g k = k s' (w64s bs)
      (sumN (((List.range (w64s bs).length).map fun i => clamp64 (nth 0 (w64s bs) i + nth 0 [] i)).map Prod.snd)) := by
  rw [← clamped_w64s bs]
  unfold gRead
  simp only [hr, gThen, hn, if_true, clamped_w64s] <;> rfl

/-- The fit pass proposes an exponent that holds every value read. -/
theorem exec_gatherPassDone_fit (hg : getGath s key = some g) (hp : g.phase = .fit) (hk : gParked s key = false)
    (hn : gdNone (gdEddyIn g.desc) = true) (hr : vaRead s key.job (gdSrc g.desc).toNat (2048 * gdBlocks g.desc) = (s', .ok bs))
    (hs : s'.gather = s.gather) (hl : bs.length = 2048 * gdBlocks g.desc) : Goes (exec (.gatherPassDone key) s) fun t =>
      ∃ g' : Gather, getGath t key = some g' ∧ g'.phase = .expo ∧ g'.kept = List.range (gdBlocks g.desc)
        ∧ g'.rx = g.rx ++ [(24, .expo (proposal (gdWexp g.desc) (maxBits (gdBlocks g.desc) (w64s bs))) 1)] := by
  have hkey := getGath_key hg
  have hlen : (w64s bs).length = 256 * gdBlocks g.desc := length_w64s (by rw [hl]; omega)
  obtain ⟨sat, hread⟩ : ∃ sat, ∀ k, gRead s g k = k s' (w64s bs) sat := ⟨_, gRead_plain hn (hkey ▸ hr)⟩
  let y : Gather := { g with sat, bitlens := blockBits (gBlocksOf g (w64s bs)), kept := List.range (gdBlocks g.desc) }
  have hpass : gatherPass s key = putGath s' (gPropose y) := by
    unfold gatherPass
    rw [hg]
    simp only [hp]
    unfold scorePass
    rw [hread]
    exact if_pos hp
  have hbl : y.kept = List.range y.bitlens.length := congrArg List.range
    ((List.length_map ..).trans (length_chunksOf (by decide) _ _ _ hlen le_rfl)).symm
  have hprop := gPropose_all y hbl
  refine ⟨_, exec_gatherPassDone_of hk, gPropose y, ?_, ?_, ?_, ?_⟩
  · rw [hpass]
    exact getGath_putGath ((getGath_of_gather hs key).trans hg) (by rw [hprop]; exact hkey)
  · rw [hprop]
  · rw [hprop]
  · rw [hprop]
    rfl

end pass

/-! ## Rounds (R373, R375, R377) -/

section round
variable {s : State} {key : GKey} {g : Gather}

/-- A round of data chunks away from the root sends its sum to the parent. -/
theorem exec_collRound_dataSum {c : Nat} {l : List (List Int)} (hg : getGath s key = some g) (hp : g.phase = .dataSum) (hh : s.net.heldG = [])
    (hc : ownPending true g = [c]) (hl : roundReady s g (chunkVals true c) = some l) (hr : gtRoot (gTree s g) = false) :
    exec (.collRound key) s = .next (pushPkt
      (putGath s { g with rx := g.rx.filter fun e => decide (e.1 = 25) || (chunkVals true c e.2).isNone }) (gtParent (gTree s g))
      (.coll g.key g.attempt true (.data c (roundAdd l)))) := by
  let x : Gather := { g with rx := g.rx.filter fun e => decide (e.1 = 25) || (chunkVals true c e.2).isNone }
  have hsum : collRound s key = sendUp (putGath s x) x (.data c (roundAdd l)) := by
    unfold collRound
    rw [hg]
    simp only [hp]
    unfold sumRound
    rw [hc]
    simp only [List.findSome?_cons, hl, Option.map_some]
    exact if_neg (by rw [show gtRoot (gTree s x) = false from hr]; exact Bool.false_ne_true)
  refine congrArg Host.Outcome.next ((takeHeld_of_none ?_).trans hsum)
  rw [hsum, (PortsOnly.up ..).heldG]
  exact hh

/-- The values of an exponent's input of a round. -/
theorem max_clamped (x : Int) : (if 127 < x then 127 else if x < -127 then -127 else x) = max (-127) (min 127 x) := by
  split
  · omega
  · split <;> omega

/-- The round of the exponent at a root without children. -/
theorem exec_collRound_expo {x : Int} {n : Nat} (hg : getGath s key = some g) (hp : g.phase = .expo) (hh : s.net.heldG = [])
    (hc : gChildren s g = []) (hr : gtRoot (gTree s g) = true) (hx : g.rx = [(24, .expo x n)]) : Goes (exec (.collRound key) s) fun t =>
      getGath t key = some { g with rx := [], e := some (max (-127) (min 127 x)), phase := .data, contrib := n } := by
  have hkey := getGath_key hg
  let y : Gather := { g with rx := [] }
  let z : Gather := { y with e := some (max (-127) (min 127 x)), phase := .data, contrib := n }
  have hround : collRound s key = putGath (putGath s y) z := by
    unfold collRound
    rw [hg]
    simp only [hp]
    unfold expoRound roundReady gInputs
    simp only [hc, hx, List.map_cons, List.map_nil, List.findSome?_cons, if_true, List.all_cons, List.all_nil, Option.isSome_some, Bool.and_self,
      List.filterMap_cons, List.filterMap_nil, id, nth, List.getD_cons_zero, List.foldl_cons, List.foldl_nil, lt_irrefl, if_false,
      List.filter_cons, List.filter_nil, Option.isNone_some, Bool.false_eq_true, List.getD_cons_succ, Int.toNat_natCast]
    have hy : gtRoot (gTree s y) = true := hr
    have hd : sendDown (putGath s y) y = fun _ => putGath s y := by
      funext b
      have hn : gChildren (putGath s y) y = [] := hc
      rw [sendDown, hn]
      rfl
    rw [if_pos hy, max_clamped]
    unfold roundOut
    rw [if_pos hy, passDown, hd]
    simp [sumN, takeResult] <;> rfl
  refine ⟨_, rfl, ?_⟩
  rw [hround, takeHeld_of_none (s := putGath (putGath s y) z) hh]
  exact getGath_putGath (getGath_putGath hg hkey) hkey

end round

/-! ## Packets (R368, R386) -/

section packet
variable {s : State} {key : GKey} {a : BitVec 3} {p : Option (Fin 24)} {b : GBody}

theorem gReceive_stale (h : gStale s key a = true) : gReceive s key a p b
    = { s with gather := { s.gather with stale := s.gather.stale + 1, staleSum := s.gather.staleSum + 1 } } := if_pos h

/-- A packet of a key that is not open is held. -/
theorem gReceive_early (h : gStale s key a = false) (hg : getGath s key = none) : gReceive s key a p b = gHold s { key, attempt := a, port := p, body := b } := by
  unfold gReceive
  rw [h, hg]
  exact if_neg Bool.false_ne_true

theorem gHold_free {h : HeldG} (hf : ∀ q, h.port = some q → rxBusy s q.val 1 < laneBuffers 1) :
    gHold s h = { s with net := { s.net with heldG := s.net.heldG ++ [h] } } := by
  refine if_pos ?_
  split
  · next q hq => exact decide_eq_true (hf q hq)
  · rfl

theorem gHold_full {h : HeldG} {q : Fin 24} (hq : h.port = some q) (hf : laneBuffers 1 ≤ rxBusy s q.val 1) : gHold s h = s := by
  refine if_neg ?_
  rw [hq]
  simpa using hf

/-- A child's score chunk of the present attempt joins the inputs of its round. -/
theorem gReceive_score {g : Gather} {q : Fin 24} {c : Nat} {vs : List Int} (hg : getGath s key = some g) (hp : g.phase ≠ .failed)
    (hs : gStale s key g.attempt = false) (hc : q.val ∈ gChildren s g) (hr : gtRoot (gTree s g) = true ∨ q.val ≠ gtParent (gTree s g))
    (hf : accFree s g (.score c vs) = true) :
    gReceive s key g.attempt (some q) (.score c vs) = putGath s { g with rx := g.rx ++ [(q.val, .score c vs)] } := by
  have hdown : (!gtRoot (gTree s g) && decide (q.val = gtParent (gTree s g))) = false := by
    obtain h | h := hr <;> simp [h]
  have hpkt : gPacket s g q.val (.score c vs) = putGath s { g with rx := g.rx ++ [(q.val, .score c vs)] } :=
    (if_neg (ne_true_of_eq_false hdown)).trans (if_pos (List.contains_iff_mem.mpr hc))
  unfold gReceive
  rw [hs, hg, if_neg Bool.false_ne_true]
  refine (if_neg hp).trans ((if_pos ?_).trans hpkt)
  simp [hf]

end packet

/-! ## Posts (R367) -/

section post
variable {s : State} {w : Writer} {j : BitVec 2}

/-- A failed re-shard's state is IDLE again at a post (R388). -/
def postState (s : State) (j : BitVec 2) : State :=
  if (getJob s j).regs.layoutSt = 2 then modJob s j fun x => { x with regs := { x.regs with layoutSt := 0 } } else s

theorem gatherPost_eq (s : State) (j : BitVec 2) : let d := (getJob s j).regs.gatherPost
    gatherPost s j = (if gPostStatus s j d = 0 then gOpened (postState s j) d else postState s j, gPostStatus s j d) := rfl

theorem postState_cases (s : State) (j : BitVec 2) :
    (postState s j).gather = s.gather ∧ (postState s j).net = s.net ∧ (postState s j).mod = s.mod := by
  unfold postState
  split <;> exact ⟨rfl, rfl, rfl⟩

/-- A post that opens its gathering where nothing is held. -/
theorem gOpened_opened {d : BitVec 1024} (hg : s.net.heldG = []) (hm : s.net.heldMsg = []) :
    (gOpened s d).gather.opened = s.gather.opened ++ [gOpen s d] := by
  let u := dropStale { s with gather := { s.gather with opened := s.gather.opened ++ [gOpen s d] } }
  have hh : u.net.heldG = [] := congrArg (List.filter _) hg
  have hms : u.net.heldMsg = [] := congrArg (List.filter _) hm
  let v : State := { u with net := { u.net with heldMsg := u.net.heldMsg.filter fun m => decide (m.key ≠ gdGKey d) } }
  have he : gOpened s d = takeHeld ((u.net.heldMsg.filter fun m => decide (m.key = gdGKey d)).foldl gMessage v) := rfl
  rw [he, hms]
  exact congrArg (·.gather.opened) (takeHeld_of_none (s := v) hh)

end post

/-! ## Limits and whole jobs (R382, R392) -/

section limits
variable {s : State} {key : GKey} {g : Gather} {j : BitVec 2}

/-- The gatherings of a job whose only open one is known. -/
theorem abandonJob_single (ho : s.gather.opened = [g]) (hg : getGath s key = some g) (hj : key.job = j) :
    abandonJob s j = gAbandon s g cGatherAbandoned := by
  have hk := getGath_key hg
  have hjob : g.key.job = j := hk ▸ hj
  unfold abandonJob
  rw [ho, List.filter_cons_of_pos (by simp [hjob])]
  simp only [List.filter_nil, List.map_cons, List.map_nil, List.foldl_cons, List.foldl_nil, hk, hg]

theorem gAbandonOne_single (ho : s.gather.opened = [g]) (hg : getGath s key = some g) (hj : key.job = j) :
    gAbandonOne s j key.step key.id = gAbandon s g cGatherAbandoned := by
  have hk := getGath_key hg
  unfold gAbandonOne
  rw [ho, List.find?_cons_of_pos (by simp [hk, hj])]

theorem exec_gatherTimeout_open (hg : getGath s key = some g) : exec (.gatherTimeout key) s
    = .next (if fldN s.gather.cfg 16 16 ≠ 0 ∧ g.since.toNat + 1000000 * fldN s.gather.cfg 16 16 < now s then gFail s g cGatherTimeout else s) := by
  change Host.Outcome.next (match getGath s key with
    | some g => if fldN s.gather.cfg 16 16 ≠ 0 ∧ g.since.toNat + 1000000 * fldN s.gather.cfg 16 16 < now s then gFail s g cGatherTimeout else s
    | none => s) = _
  rw [hg]

theorem exec_gatherDrainLimitExpire_of {t0 : W64} (h : (getJob s j).drainSince = some t0) : exec (.gatherDrainLimitExpire j) s
    = .next (if fldN s.gather.cfg 0 8 ≠ 0 ∧ t0.toNat + 1000000 * fldN s.gather.cfg 0 8 ≤ now s
        then abandonJob (modJob s j fun x => { x with drainSince := none }) j else s) := by
  change Host.Outcome.next (match (getJob s j).drainSince with
    | some t => if fldN s.gather.cfg 0 8 ≠ 0 ∧ t.toNat + 1000000 * fldN s.gather.cfg 0 8 ≤ now s
        then abandonJob (modJob s j fun x => { x with drainSince := none }) j else s
    | none => s) = _
  rw [h]

/-- The port to the parent is lost to the only gathering open. -/
theorem gPortLost_parent {p : Nat} (ho : s.gather.opened = [g]) (hg : getGath s key = some g) (hp : g.phase ≠ .failed)
    (hr : gtRoot (gTree s g) = false) (hpar : gtParent (gTree s g) = p) : gPortLost s p (portKeys s p) = gFail s g cPeerLost := by
  have hk := getGath_key hg
  have hin : (gtPorts (gTree s g)).contains p = true := by simp [gtPorts, hr, hpar]
  have hkeys : portKeys s p = [key] := by
    unfold portKeys
    rw [ho, List.filter_cons_of_pos (p := fun g => (gtPorts (gTree s g)).contains p) hin, List.filter_nil, List.map_singleton, hk]
  unfold gPortLost
  rw [hkeys]
  simp only [List.foldl_cons, List.foldl_nil, hg]
  rw [if_neg hp, if_pos (by simp [hr, hpar])]

theorem gatherLag_eq (c : W32) : fldN c 16 16 = c.toNat / 2 ^ 16 := by
  rw [fldN_eq_div_mod]
  exact Nat.mod_eq_of_lt (by have := c.isLt; omega)

theorem gatherDrainLimit_eq (c : W32) : fldN c 0 8 = c.toNat % 2 ^ 8 := by
  rw [fldN_eq_div_mod, Nat.pow_zero, Nat.div_one]

/-- The summary of stale packets is due. -/
def staleDue (s : State) : Prop := s.gather.staleAt = none ∨ ∃ t0 : W64, s.gather.staleAt = some t0 ∧ t0.toNat + 1000000000 ≤ now s

theorem staleDue_iff (s : State) : (match s.gather.staleAt with | some t => decide (t.toNat + 1000000000 ≤ now s) | none => true) = true ↔ staleDue s := by
  unfold staleDue
  cases s.gather.staleAt <;> simp

theorem exec_gatherStaleSummary_due (hn : 0 < s.gather.staleSum) (hd : staleDue s) :
    Goes (exec .gatherStaleSummary s) fun t => t.gather = { s.gather with staleSum := 0, staleAt := some s.mod.time } := by
  refine ⟨_, congrArg Host.Outcome.next (if_pos ?_), putErr_gather _ _ (by simp)⟩
  rw [Bool.and_eq_true, decide_eq_true_eq]
  exact ⟨hn, (staleDue_iff s).mpr hd⟩

theorem exec_gatherStaleSummary_idle (h : s.gather.staleSum = 0 ∨ ¬ staleDue s) : exec .gatherStaleSummary s = .next s := by
  refine congrArg Host.Outcome.next (if_neg ?_)
  rw [Bool.and_eq_true, decide_eq_true_eq]
  rintro ⟨hn, hd⟩
  obtain h | h := h
  · omega
  · exact h ((staleDue_iff s).mp hd)

end limits

/-- Settles O37: the fit pass through the largest bit length of the values read; rounds and packets where nothing is held; every end of a gathering
that writes no completion record is one abandonment (`Gone`), which a message, a limit or a lost port brings about. -/
theorem gatherings : Obligations.Gatherings := by
  unfold Obligations.Gatherings
  refine ⟨fun s w j key g => ⟨fun h => ?_, fun h hh hm => ?_, fun hg => ⟨fun s' bs hp hk hn hr hs hl => ?_, fun c l hp hh hc hl hr => ?_,
      fun x n hp hh hc hr hx => ?_, fun p b c hp hs hc hr hf => ?_⟩, fun a p b => ⟨fun h => ?_, fun h hg hf => ?_, fun h hg hf => ?_⟩⟩,
    fun s w j key g => ⟨fun hn => ?_, fun hg hp hc => ?_, fun p hp => ?_, ⟨fun hn hd => ?_, fun h => ?_⟩, rfl, rfl⟩⟩
  · have hs : gatherPost s j = (postState s j, gPostStatus s j (getJob s j).regs.gatherPost) := by rw [gatherPost_eq, if_neg h]
    exact ⟨_, next_finish hs, rfl, (postState_cases s j).1⟩
  · have hs : gatherPost s j = (gOpened (postState s j) (getJob s j).regs.gatherPost, 0) := by rw [gatherPost_eq, if_pos h, h]
    obtain ⟨hgath, hnet, hmod⟩ := postState_cases s j
    have hopen : gOpen (postState s j) (getJob s j).regs.gatherPost = gOpen s (getJob s j).regs.gatherPost := by
      unfold gOpen gtReg
      rw [hgath, hmod]
    refine ⟨_, next_finish hs, rfl, ?_⟩
    exact (gOpened_opened (by rw [hnet, hh]) (by rw [hnet, hm])).trans (by rw [hgath, hopen])
  · obtain ⟨t, ht, g', hg', hphase, hkept, hrx⟩ := exec_gatherPassDone_fit hg hp hk hn hr hs hl
    have hlen : (w64s bs).length = 256 * gdBlocks g.desc := length_w64s (by rw [hl]; omega)
    refine ⟨t, ht, g', _, hg', hphase, hkept, hrx, fun hz => ?_, fun i hi hv => ?_⟩
    · rw [maxBits_of_zero hlen fun v hv => ?_]
      · rfl
      · obtain ⟨i, hi, rfl⟩ := List.mem_iff_getElem.mp hv
        simpa [nth, hi] using hz i (hlen ▸ hi)
    · have hi' : i < (w64s bs).length := hlen.symm ▸ hi
      have he : nth 0 (w64s bs) i = (w64s bs)[i] := by simp [nth, hi']
      have hmem : nth 0 (w64s bs) i ∈ w64s bs := he ▸ List.getElem_mem hi'
      have hle := bitlen_le_maxBits hlen hmem
      have hpos := bitlen_pos (Int.natAbs_ne_zero.mpr hv)
      rw [proposal, if_neg (by omega)]
      omega
  · exact exec_collRound_dataSum hg hp hh hc hl hr
  · exact exec_collRound_expo hg hp hh hc hr hx
  · refine ⟨_, congrArg Host.Outcome.next (gReceive_score hg hp hs hc hr hf), ?_⟩
    have hkey := getGath_key hg
    exact getGath_putGath hg hkey
  · exact congrArg Host.Outcome.next (gReceive_stale h)
  · exact congrArg Host.Outcome.next ((gReceive_early h hg).trans (gHold_free hf))
  · obtain ⟨q, hq, hf⟩ := hf
    exact congrArg Host.Outcome.next ((gReceive_early h hg).trans (gHold_full hq hf))
  · refine ⟨?_, fun h => congrArg Host.Outcome.next (gMessage_stale hn h), fun h => ⟨congrArg Host.Outcome.next (gMessage_waits hn h),
      fun a n => congrArg Host.Outcome.next (gMessage_waits hn h),
      fun p n => ⟨congrArg Host.Outcome.next (gMessage_waits hn h), congrArg Host.Outcome.next (gMessage_waits hn h)⟩⟩⟩
    refine congrArg Host.Outcome.next ?_
    rw [hn]
  · have hkey := getGath_key hg
    have hend : ∀ st, ¬ (st = 0 ∨ st = cGatherPartial) → Gone g s (gFail s g st) := fun st hst => .fail s hst hc hp
    have habandoned : Gone g s (gAbandon s g cGatherAbandoned) := .abandon s (by decide) hc hp
    have hgone : ∀ {t}, Gone g s t → getGath t key = none ∧ t.gather.abandoned = s.gather.abandoned + 1 ∧ t.gather.completed = s.gather.completed :=
      fun h => ⟨hkey ▸ h.getGath, h.abandoned, h.completed⟩
    refine ⟨⟨_, exec_gatherAbandonReceive_open hg hp, hgone habandoned⟩, fun a n ha hr hh => ?_, fun a n ha => ?_, fun p n hmem hpart => ?_,
      fun p n hmem hpart hr h7 => ?_, ⟨fun hl => ?_, fun hl => ?_⟩, fun p ho hr hpar hdown hdue => ?_, fun hk ho hj => ?_, fun ho hj => ?_,
      fun t0 ho hj hd => ⟨fun hl => ?_, fun hl => ?_⟩⟩
    · exact ⟨_, exec_gatherRestartReceive_open hg hp a n, gRestart_later hg ha hr hh⟩
    · exact (exec_gatherRestartReceive_open hg hp a n).trans (congrArg _ (gRestart_earlier ha))
    · have hw : gWithdraw s g p.val true = gAbandon s g cGatherAbandoned := by
        unfold gWithdraw
        rw [List.contains_iff_mem.mpr hmem, hpart]
        rfl
      exact ⟨_, exec_gatherWithdrawReceive_open hg hp p n, hw ▸ hgone habandoned⟩
    · have hw : gWithdraw s g p.val true = gChildLost s g p.val := by
        unfold gWithdraw
        rw [List.contains_iff_mem.mpr hmem, hpart]
        rfl
      exact ⟨_, exec_gatherWithdrawReceive_open hg hp p n, hw ▸ gChildLost_root hg hr h7⟩
    · rw [← gatherLag_eq] at hl
      exact ⟨_, (exec_gatherTimeout_open hg).trans (congrArg _ (if_pos hl)), hgone (hend _ (by decide))⟩
    · rw [← gatherLag_eq] at hl
      exact (exec_gatherTimeout_open hg).trans (congrArg _ (if_neg fun h => by omega))
    · refine ⟨_, congrArg Host.Outcome.next (if_pos ⟨hdown, hdue⟩), ?_⟩
      rw [gPortLost_parent ho hg hp hr hpar]
      exact hgone (hend _ (by decide))
    · let u := modJob s j fun x => { x with postClosed := true }
      have hu : Gone g u (gAbandon u g cGatherAbandoned) := .abandon u (by decide) hc hp
      have ha : gAbort s j = gAbandon u g cGatherAbandoned := abandonJob_single (s := u) ho hg hj
      refine ⟨_, rfl, ?_, rfl, ?_⟩
      · rw [ha]
        exact ⟨hkey ▸ hu.getGath, hu.abandoned, hu.completed⟩
      · rw [ha]
        refine (hu.jobs.postClosed j).trans ?_
        rw [getJob_modJob, if_pos rfl]
    · refine ⟨_, rfl, ?_, rfl⟩
      rw [gAbandonOne_single ho hg hj]
      exact ⟨hkey ▸ habandoned.getGath, habandoned.abandoned, habandoned.completed⟩
    · rw [← gatherDrainLimit_eq] at hl
      let u := modJob s j fun x => { x with drainSince := none }
      have hu : Gone g u (gAbandon u g cGatherAbandoned) := .abandon u (by decide) hc hp
      refine ⟨_, (exec_gatherDrainLimitExpire_of hd).trans (congrArg _ (if_pos ⟨by omega, hl.2⟩)), ?_⟩
      rw [abandonJob_single (s := u) ho hg hj]
      exact ⟨hkey ▸ hu.getGath, hu.abandoned, hu.completed⟩
    · rw [← gatherDrainLimit_eq] at hl
      exact (exec_gatherDrainLimitExpire_of hd).trans (congrArg _ (if_neg fun h => by omega))
  · exact congrArg Host.Outcome.next (if_neg fun h => h.1 hp)
  · exact exec_gatherStaleSummary_due hn hd
  · exact exec_gatherStaleSummary_idle h

end Sys2Proof.Machine
end

section
/-!
PROOFS of the statements of the family '14_jobs_and_preemption.md': what memory accesses, pushes, aborts and abandoned gatherings leave of a job.
-/
namespace Sys2Proof.Machine
open Sys2Proof

theorem memWorldErr_sev (pa : Nat) (job : Option (BitVec 2)) : (memWorldErr pa job).sev ≠ 3 := by simp [memWorldErr, worldErr]

namespace KeepsJobs
variable {o s t : State} {α : Type}

/-! ## Rules: each function that gives a state keeps what is kept so far -/

theorem modDie {d : Nat} {f : Die → Die} (h : KeepsJobs o s) : KeepsJobs o (modDie s d f) := h.trans (of_jobs rfl)

theorem putDie {d : Nat} {x : Die} (h : KeepsJobs o s) : KeepsJobs o (putDie s d x) := h.trans (of_jobs rfl)

theorem modRec {d : Nat} {r : BitVec 9} {f : XferRec → XferRec} (h : KeepsJobs o s) : KeepsJobs o (modRec s d r f) := h.trans (of_jobs rfl)

theorem modTile {u : W16} {f : Tile → Tile} (h : KeepsJobs o s) : KeepsJobs o (modTile s u f) := h.trans (of_jobs rfl)

theorem putTile {u : W16} {x : Tile} (h : KeepsJobs o s) : KeepsJobs o (putTile s u x) := h.trans (of_jobs rfl)

theorem putStack {n : Nat} {x : Stack} (h : KeepsJobs o s) : KeepsJobs o (putStack s n x) := h.trans (of_jobs rfl)

theorem putPub {e : Nat} {x : Pub} (h : KeepsJobs o s) : KeepsJobs o (putPub s e x) := h.trans (of_jobs rfl)

theorem putGath {g : Gather} (h : KeepsJobs o s) : KeepsJobs o (putGath s g) := h.trans (of_jobs rfl)

theorem unpark {p : ParkOwner} (h : KeepsJobs o s) : KeepsJobs o (unpark s p) := h.trans (of_jobs rfl)

theorem putErr {e : Err} (he : e.sev ≠ 3) (h : KeepsJobs o s) : KeepsJobs o (putErr s e) := h.trans (err s he)

theorem ite {c : Prop} [Decidable c] (h : KeepsJobs o s) (k : KeepsJobs o t) : KeepsJobs o (if c then s else t) := by
  split <;> assumption

theorem iteFst {c : Prop} [Decidable c] {p q : State × α} (h : KeepsJobs o p.1) (k : KeepsJobs o q.1) : KeepsJobs o (if c then p else q).1 := by
  split <;> assumption

/-- The state that a function answers with, taken from its pair. -/
theorem ofFst {p : State × α} {x : α} (hp : p = (t, x)) (h : KeepsJobs o p.1) : KeepsJobs o t := by
  rwa [hp] at h

theorem along {f : State → α → State} {l : List α} (h : KeepsJobs o s) (hf : ∀ s a, KeepsJobs o s → KeepsJobs o (f s a)) : KeepsJobs o (l.foldl f s) :=
  List.foldlRecOn (motive := fun t => KeepsJobs o t) l f h fun t ht a _ => hf t a ht

theorem alongFst {β : Type} {f : State × β → α → State × β} {l : List α} {p : State × β} (h : KeepsJobs o p.1)
    (hf : ∀ p a, KeepsJobs o p.1 → KeepsJobs o (f p a).1) : KeepsJobs o (l.foldl f p).1 :=
  List.foldlRecOn (motive := fun p => KeepsJobs o p.1) l f h fun p hp a _ => hf p a hp

/-! ## Memory (R292, R316, R370) -/

theorem hbmGet {pa n : Nat} (h : KeepsJobs o s) : KeepsJobs o (hbmGet s pa n).1 := alongFst h fun _ _ h => .iteFst h.putStack h

theorem hbmStore {pa : Nat} {bs : List Byte} {job : Option (BitVec 2)} (h : KeepsJobs o s) : KeepsJobs o (hbmStore s pa bs job).1 :=
  .ite ((h.trans (stored s pa bs)).putErr (e := hbmDataErr pa job false) (by simp [hbmDataErr])) (h.trans (stored s pa bs))

theorem readPte {job : BitVec 2} {world : Bool} {pa : Nat} (h : KeepsJobs o s) : KeepsJobs o (readPte s job world pa).1 :=
  .iteFst (h.putErr (memWorldErr_sev pa (some job))) h.hbmGet

theorem walk {job : BitVec 2} {world : Bool} {view : W64} {va : Nat} {dst : Bool} (h : KeepsJobs o s) :
    KeepsJobs o (walk s job world view va dst).1 := by
  refine .iteFst h (.iteFst h.readPte ?_)
  exact .iteFst h.readPte (.iteFst h.readPte (.iteFst h.readPte.readPte (.iteFst h.readPte.readPte (.iteFst h.readPte.readPte h.readPte.readPte))))

theorem vaMap {job : BitVec 2} {dst : Bool} {l : List (Nat × Nat)} (h : KeepsJobs o s) : KeepsJobs o (vaMap job dst l s).1 := by
  induction l generalizing s with
  | nil => exact h
  | cons e l ih =>
    unfold Machine.vaMap
    split
    · next t a _ _ heq =>
      have ht : KeepsJobs o t := ofFst heq h.walk
      refine .iteFst (ht.putErr (memWorldErr_sev a (some job))) ?_
      split
      · next heq => exact ofFst heq (ih ht)
      · exact ih ht
    · next heq => exact ofFst heq h.walk
    · next heq => exact ofFst heq h.walk
    · next heq => exact ofFst heq h.walk

theorem vaWrite {job : BitVec 2} {va : Nat} {bs : List Byte} (h : KeepsJobs o s) : KeepsJobs o (vaWrite s job va bs).1 := by
  unfold Machine.vaWrite
  split
  · next heq => exact ofFst heq h.vaMap
  · next t _ heq =>
    have ht : KeepsJobs o t := ofFst heq h.vaMap
    exact alongFst ht fun _ _ h => h.hbmStore

/-! ## Gatherings abandoned (R383, R392) -/

theorem gPark {g : Gather} {f : BitVec 3} {va : Nat} {dst : Bool} (h : KeepsJobs o s) : KeepsJobs o (gPark s g f va dst) := by
  unfold Machine.gPark Machine.parkAccess
  exact putErr (by simp [vaFaultErr]) (h.trans (of_jobs rfl))

theorem gFailClose {g : Gather} {st : Byte} (h : KeepsJobs o s) : KeepsJobs o (gFailClose s g st) := by
  have hc : ∀ {t}, KeepsJobs o t → KeepsJobs o (Machine.gClose t g st) := fun ht => ht.trans (gClose ..)
  refine .ite (hc h.unpark) ?_
  split
  · next t _ _ heq =>
    have ht : KeepsJobs o t := ofFst heq h.unpark.vaWrite
    exact ht.gPark
  · next t _ _ heq =>
    have ht : KeepsJobs o t := ofFst heq h.unpark.vaWrite
    exact hc ht

theorem gAbandon {g : Gather} {st : Byte} (h : KeepsJobs o s) : KeepsJobs o (gAbandon s g st) :=
  .ite (h.trans (gClose ..)) (h.trans (ports ((PortsOnly.tellUp ..).trans (.tellDown ..)))).gFailClose

theorem abandonJob {j : BitVec 2} (h : KeepsJobs o s) : KeepsJobs o (abandonJob s j) :=
  along h fun _ _ h => by split; exacts [h.gAbandon, h]

/-! ## Pushes and transfers aborted (R285, R306) -/

theorem dropHandle {die : Nat} {t : W16} {j : BitVec 2} (h : KeepsJobs o s) : KeepsJobs o (dropHandle s die t j) := h.modDie.putErr (by simp)

theorem pushHandle {die : Nat} {q : BitVec 13} {t : W16} {j : BitVec 2} {h0 : W32} {src : PushSrc} (h : KeepsJobs o s) :
    KeepsJobs o (pushHandle s die q t j h0 src).1 :=
  .iteFst h (.iteFst (.iteFst (.iteFst h.putDie h.putDie) h.dropHandle) (.iteFst (.iteFst h.putTile h.putTile) h.dropHandle))

theorem slotDrain {t : W16} {k : Nat} (h : KeepsJobs o s) : KeepsJobs o (slotDrain s t k) :=
  .ite (.ite h.putTile (by dsimp only; split; exacts [h.putTile.pushHandle.modTile, h.putTile.pushHandle])) h

theorem settleViews {j : BitVec 2} (h : KeepsJobs o s) : KeepsJobs o (settleViews s j) := by
  have hp : KeepsJobs o (((getJob s j).viewOwed.filter fun v => !viewLive s j v.1).foldl
      (fun s v => Machine.putPub s v.2.toNat { getPub s v.2.toNat with refs := (getPub s v.2.toNat).refs - 1 }) s) := h.along fun _ _ h => h.putPub
  exact hp.trans (job _ j (f := fun x => { x with
    viewOwed := x.viewOwed.filter fun v => !((getJob s j).viewOwed.filter fun v => !viewLive s j v.1).contains v }) fun _ => rfl)

theorem freeRecord {die : Nat} {r : BitVec 9} (h : KeepsJobs o s) : KeepsJobs o (freeRecord s die r) := by
  unfold Machine.freeRecord
  exact h.modDie

theorem legDone {die : Nat} {r : BitVec 9} {n : Nat} (h : KeepsJobs o s) : KeepsJobs o (legDone s die r n) :=
  .settleViews (.ite h.modRec.freeRecord h.modRec)

theorem pushReleased {p : HeldPush} (h : KeepsJobs o s) : KeepsJobs o (pushReleased s p) := by
  unfold Machine.pushReleased
  split
  · exact .ite h.modTile.slotDrain h.modTile
  · split
    exacts [h.legDone, h]
  · exact h

theorem sweepRec {die : Nat} {r : BitVec 9} (h : KeepsJobs o s) : KeepsJobs o (sweepRec s die r) := .ite h.freeRecord h

theorem abortRec {die : Nat} {r : BitVec 9} {cause : Byte} (h : KeepsJobs o s) : KeepsJobs o (abortRec s die r cause) := h.modRec

theorem abortRecs {die : Nat} {rs : List (BitVec 9)} {cause : Byte} (h : KeepsJobs o s) : KeepsJobs o (abortRecs s die rs cause) :=
  h.along fun _ _ h => h.abortRec.sweepRec

theorem dropHeld {die : Nat} {t : W16} {ps : List HeldPush} (h : KeepsJobs o s) : KeepsJobs o (dropHeld s die t ps) :=
  h.along fun _ _ h => h.dropHandle.pushReleased

theorem abortStq {die : Nat} {q : BitVec 12} (h : KeepsJobs o s) : KeepsJobs o (abortStq s die q) :=
  .ite h.modDie.abortRecs.modDie (.dropHeld (h.modDie.along fun _ _ h => h.dropHandle))

theorem abortReach {die : Nat} {n : BitVec 10} {cause : Byte} (h : KeepsJobs o s) : KeepsJobs o (abortReach s die n cause) := by
  unfold Machine.abortReach
  exact h.modDie.abortRecs.modDie

end KeepsJobs

end Sys2Proof.Machine
end

section
/-!
PROOFS of the statements of the family '14_jobs_and_preemption.md': RESUME, PAUSE, UNLOAD, RELOAD and DISCARD.
-/
namespace Sys2Proof.Machine
open Sys2Proof

/-! ## Values of maps, and states of a job -/

/-- A map in canonical form to which a function that keeps the default was applied reads as the function of what it read. -/
theorem mget_mmap_fixed {α : Type} [DecidableEq α] {d : α} {m : SMap α} {f : α → α} (h : mwf d m = true) (hf : f d = d) (k : Nat) :
    mget d (mmap d m fun _ => f) k = f (mget d m k) := by
  unfold mwf at h
  generalize 0 = lo at h
  induction m generalizing lo with
  | nil => exact hf.symm
  | cons e m ih =>
    obtain ⟨a, x⟩ := e
    simp only [mwfFrom, Bool.and_eq_true, decide_eq_true_eq] at h
    obtain ⟨⟨-, hx⟩, hm⟩ := h
    have hnone : ∀ n, n < a + 1 → mget d m n = d := by
      intro n hn
      have hkeys := mwfFrom_keys hm
      clear ih hm
      induction m with
      | nil => rfl
      | cons e m ih =>
        have he := hkeys e List.mem_cons_self
        rw [mget, if_neg (by omega)]
        exact ih fun e' he' => hkeys e' (List.mem_cons_of_mem _ he')
    have hrest := ih (a + 1) hm
    by_cases hfx : f x = d
    · have hskip : mmap d ((a, x) :: m) (fun _ => f) = mmap d m fun _ => f := by simp [mmap, hfx]
      rw [hskip, hrest, mget]
      split
      · next hk => rw [hnone k (by omega), hf, hfx]
      · rfl
    · have hkeep : mmap d ((a, x) :: m) (fun _ => f) = (a, f x) :: mmap d m fun _ => f := by simp [mmap, hfx]
      rw [hkeep, mget, mget]
      split
      · rfl
      · exact hrest

/-- An entry of a map to which a function was applied is of an entry of the map. -/
theorem mem_mmap {α : Type} [DecidableEq α] {d : α} {m : SMap α} {f : Nat → α → α} {e : Nat × α} :
    e ∈ mmap d m f ↔ ∃ x, (e.1, x) ∈ m ∧ e.2 = f e.1 x ∧ e.2 ≠ d := by
  simp only [mmap, List.mem_filter, List.mem_map, decide_eq_true_eq]
  constructor
  · rintro ⟨⟨⟨k, x⟩, hm, rfl⟩, hd⟩
    exact ⟨x, hm, rfl, hd⟩
  · rintro ⟨x, hm, hx, hd⟩
    exact ⟨⟨(e.1, x), hm, by rw [← hx]⟩, hd⟩

theorem mem_mset {α : Type} [DecidableEq α] {d : α} {m : SMap α} {k : Nat} {v : α} {e : Nat × α} (h : e ∈ mset d m k v) : e = (k, v) ∨ e ∈ m := by
  have herase : ∀ {e}, e ∈ merase m k → e ∈ m := fun he => (List.mem_filter.mp he).1
  have hins : ∀ (l : SMap α), e ∈ mins k v l → e = (k, v) ∨ e ∈ l := by
    intro l
    induction l with
    | nil => exact fun he => .inl (List.mem_singleton.mp he)
    | cons x l ih =>
      unfold mins
      split
      · exact fun he => (List.mem_cons.mp he)
      · intro he
        obtain he | he := List.mem_cons.mp he
        · exact .inr (he ▸ List.mem_cons_self)
        · exact (ih he).imp_right (List.mem_cons_of_mem _)
  unfold mset at h
  split at h
  · exact .inr (herase h)
  · exact (hins _ h).imp_right herase

theorem mget_mem {α : Type} (d : α) (m : SMap α) (k : Nat) : mget d m k = d ∨ (k, mget d m k) ∈ m := by
  induction m with
  | nil => exact .inl rfl
  | cons e m ih =>
    obtain ⟨a, x⟩ := e
    rw [mget]
    split
    · next h => exact .inr (h ▸ List.mem_cons_self)
    · exact ih.imp_right (List.mem_cons_of_mem _)

theorem setJobSt_eq (s : State) (j : BitVec 2) (st : JobSt) : ∃ m, setJobSt s j st = { modJob s j fun x => { x with st } with mgmt := m } :=
  ⟨_, raiseEvent_mgmt ..⟩

theorem getJob_setJobSt (s : State) (j : BitVec 2) (st : JobSt) : getJob (setJobSt s j st) j = { getJob s j with st } := by
  obtain ⟨m, hm⟩ := setJobSt_eq s j st
  rw [hm]
  change getJob (modJob s j fun x => { x with st }) j = _
  exact (getJob_modJob ..).trans (if_pos rfl)

theorem setJobSt_tiles (s : State) (j : BitVec 2) (st : JobSt) : (setJobSt s j st).tiles = s.tiles := by
  obtain ⟨m, hm⟩ := setJobSt_eq s j st
  rw [hm]
  rfl

theorem setJobSt_dies (s : State) (j : BitVec 2) (st : JobSt) : (setJobSt s j st).dies = s.dies := by
  obtain ⟨m, hm⟩ := setJobSt_eq s j st
  rw [hm]
  rfl

theorem ctxOf_of_tiles {s t : State} (h : t.tiles = s.tiles) (u : W16) (k : BitVec 2) : ctxOf t u k = ctxOf s u k := by
  unfold ctxOf getTile
  rw [h]

/-! ## RESUME and PAUSE (R400) -/

section run
variable {s : State} {j : BitVec 2} (hw : mwf Tile.reset s.tiles = true) {f : Ctx → Ctx} (hf : f Ctx.reset = Ctx.reset)

/-- The tile that a change of a job's contexts leaves. -/
def ctxChanged (j : BitVec 2) (f : Ctx → Ctx) (x : Tile) : Tile := if getCtx x j = Ctx.reset then x else putCtx x j (f (getCtx x j))

theorem getCtx_reset (j : BitVec 2) : getCtx Tile.reset j = Ctx.reset := rfl

include hf in
theorem getCtx_ctxChanged (j k : BitVec 2) (x : Tile) : getCtx (ctxChanged j f x) k = if k = j then f (getCtx x j) else getCtx x k := by
  unfold ctxChanged
  by_cases hk : k = j
  · subst hk
    rw [if_pos rfl]
    split
    · next h => rw [h, hf]
    · exact getCtx_putCtx ..
  · rw [if_neg hk]
    split
    · rfl
    · exact getCtx_putCtx_other _ _ hk

include hw hf in
theorem ctxOf_mapCtx (u : W16) (k : BitVec 2) : ctxOf (mapCtx s j f) u k = if k = j then f (ctxOf s u j) else ctxOf s u k := by
  have hd : ctxChanged j f Tile.reset = Tile.reset := if_pos (getCtx_reset j)
  have ht : getTile (mapCtx s j f) u = ctxChanged j f (getTile s u) := mget_mmap_fixed hw hd u.toNat
  rw [ctxOf, ht, getCtx_ctxChanged hf]
  rfl

end run

section resume
variable {s : State} {j : BitVec 2}

theorem checkFinished_cases (s : State) (j : BitVec 2) : checkFinished s j = s ∨ checkFinished s j = setJobSt s j .finished := by
  unfold checkFinished
  split
  · exact .inr rfl
  · exact .inl rfl

theorem getJob_mapCtx (s : State) (j k : BitVec 2) (f : Ctx → Ctx) : getJob (mapCtx s j f) k = getJob s k := rfl

/-- What RESUME does to a context. -/
def resumeCtx (c : Ctx) : Ctx := if c.st = .paused then { c with st := .ready } else c

theorem resumeJob_paused (h : (getJob s j).st = .paused) :
    resumeJob s j = (checkFinished (mapCtx (setJobSt s j .active) j resumeCtx) j, stOk) := if_neg (not_not.mpr h)

theorem resumeJob_runs (hw : mwf Tile.reset s.tiles = true) : let t := checkFinished (mapCtx (setJobSt s j .active) j resumeCtx) j
    ((getJob t j).st = .active ∨ (getJob t j).st = .finished) ∧ ∀ u k, ctxOf t u k = if k = j then resumeCtx (ctxOf s u j) else ctxOf s u k := by
  have hst := getJob_setJobSt s j .active
  have hwf : mwf Tile.reset (setJobSt s j .active).tiles = true := by rw [setJobSt_tiles]; exact hw
  have hctx : ∀ u k, ctxOf (mapCtx (setJobSt s j .active) j resumeCtx) u k = if k = j then resumeCtx (ctxOf s u j) else ctxOf s u k := by
    intro u k
    rw [ctxOf_mapCtx hwf rfl, ctxOf_of_tiles (setJobSt_tiles ..), ctxOf_of_tiles (setJobSt_tiles ..)]
  obtain h | h := checkFinished_cases (mapCtx (setJobSt s j .active) j resumeCtx) j <;> dsimp only <;> rw [h]
  · exact ⟨.inl (by rw [getJob_mapCtx, hst]), hctx⟩
  · exact ⟨.inr (by rw [getJob_setJobSt]), fun u k => (ctxOf_of_tiles (setJobSt_tiles ..) u k).trans (hctx u k)⟩

/-- A context of the job is RUNNING. -/
def jobRuns (s : State) (j : BitVec 2) : Bool := s.tiles.any fun e => decide ((getCtx e.2 j).st = .running)

/-- After PAUSE, a context holds its core where it did before. -/
theorem pausedAll_iff (s : State) (j : BitVec 2) : ((mapCtx s j pauseCtx).tiles.all fun e =>
    let st := (getCtx e.2 j).st
    decide (st ≠ .ready) && decide (st ≠ .yielded) && decide (st ≠ .running)) = !jobRuns s j := by
  have hmem : ∀ e, e ∈ (mapCtx s j pauseCtx).tiles ↔ ∃ x, (e.1, x) ∈ s.tiles ∧ e.2 = ctxChanged j pauseCtx x ∧ e.2 ≠ Tile.reset :=
    fun e => mem_mmap (f := fun _ => ctxChanged j pauseCtx)
  have hctx : ∀ x, getCtx (ctxChanged j pauseCtx x) j = pauseCtx (getCtx x j) := fun x =>
    (getCtx_ctxChanged (f := pauseCtx) rfl j j x).trans (if_pos rfl)
  rw [Bool.eq_iff_iff, Bool.not_eq_true', jobRuns, List.all_eq_true, List.any_eq_false]
  constructor
  · intro h e he hr
    have hrun : (getCtx e.2 j).st = .running := of_decide_eq_true hr
    have hsame : pauseCtx (getCtx e.2 j) = getCtx e.2 j := if_neg (by simp [hrun])
    have hin : (e.1, ctxChanged j pauseCtx e.2) ∈ (mapCtx s j pauseCtx).tiles := (hmem _).mpr ⟨e.2, he, rfl, fun h0 => by
      have h1 := hctx e.2
      dsimp only at h0
      rw [h0, getCtx_reset, hsame] at h1
      rw [← h1] at hrun
      cases hrun⟩
    have hall := h _ hin
    simp [hctx, hsame, hrun] at hall
  · intro h e he
    obtain ⟨x, hx, hex, -⟩ := (hmem e).mp he
    have hnr : (getCtx x j).st ≠ .running := fun hr => h _ hx (decide_eq_true hr)
    rw [hex, hctx]
    unfold pauseCtx
    split
    · simp
    · next hn =>
      obtain ⟨h1, h2⟩ := not_or.mp hn
      simp [h1, h2, hnr]

theorem pauseJob_active (h : (getJob s j).st = .active) : pauseJob s j = checkPaused (mapCtx (setJobSt s j .pausing) j pauseCtx) j := if_pos h

theorem pauseJob_pauses (hw : mwf Tile.reset s.tiles = true) (h : (getJob s j).st = .active) :
    (getJob (pauseJob s j) j).st = (if jobRuns s j then .pausing else .paused)
    ∧ ∀ u k, ctxOf (pauseJob s j) u k = if k = j then pauseCtx (ctxOf s u j) else ctxOf s u k := by
  let t := mapCtx (setJobSt s j .pausing) j pauseCtx
  have hst : (getJob t j).st = .pausing := by
    rw [getJob_mapCtx, getJob_setJobSt]
  have hwf : mwf Tile.reset (setJobSt s j .pausing).tiles = true := by rw [setJobSt_tiles]; exact hw
  have hruns : jobRuns (setJobSt s j .pausing) j = jobRuns s j := by unfold jobRuns; rw [setJobSt_tiles]
  have hctx : ∀ u k, ctxOf t u k = if k = j then pauseCtx (ctxOf s u j) else ctxOf s u k := by
    intro u k
    rw [ctxOf_mapCtx hwf rfl, ctxOf_of_tiles (setJobSt_tiles ..), ctxOf_of_tiles (setJobSt_tiles ..)]
  rw [pauseJob_active h]
  cases hr : jobRuns s j with
  | true =>
    have hs : checkPaused t j = t := if_neg fun hc => by
      rw [pausedAll_iff, hruns, hr] at hc
      exact Bool.false_ne_true hc.2
    rw [hs]
    exact ⟨hst, hctx⟩
  | false =>
    have hs : checkPaused t j = setJobSt t j .paused := if_pos ⟨hst, by rw [pausedAll_iff, hruns, hr]; rfl⟩
    rw [hs, getJob_setJobSt]
    exact ⟨rfl, fun u k => (ctxOf_of_tiles (setJobSt_tiles ..) u k).trans (hctx u k)⟩

end resume

end Sys2Proof.Machine
end

section
/-!
PROOFS of the statements of the family '14_jobs_and_preemption.md', continued: UNLOAD, RELOAD and DISCARD.
-/
namespace Sys2Proof.Machine
open Sys2Proof

/-! ## Streams frozen and thawed (R303) -/

/-- Two states that differ in their dies alone. -/
def DiesOnly (s t : State) : Prop := ∃ ds, t = { s with dies := ds }

namespace DiesOnly
variable {s t u : State}

theorem refl (s : State) : DiesOnly s s := ⟨s.dies, rfl⟩

theorem trans (h : DiesOnly s t) (k : DiesOnly t u) : DiesOnly s u := by
  obtain ⟨ps, rfl⟩ := h
  obtain ⟨qs, rfl⟩ := k
  exact ⟨qs, rfl⟩

theorem modDie (s : State) (d : Nat) (f : Die → Die) : DiesOnly s (modDie s d f) := ⟨mset Die.reset s.dies d (f (getDie s d)), rfl⟩

theorem modRec (s : State) (d : Nat) (r : BitVec 9) (f : XferRec → XferRec) : DiesOnly s (modRec s d r f) := modDie ..

theorem foldl {β : Type} {f : State → β → State} (h : ∀ s b, DiesOnly s (f s b)) (l : List β) (s : State) : DiesOnly s (l.foldl f s) :=
  List.foldlRecOn (motive := fun t => DiesOnly s t) l f (refl s) fun t ht b _ => ht.trans (h t b)

theorem jobs (h : DiesOnly s t) : t.jobs = s.jobs := by obtain ⟨ps, rfl⟩ := h; rfl

theorem tiles (h : DiesOnly s t) : t.tiles = s.tiles := by obtain ⟨ps, rfl⟩ := h; rfl

theorem owed (h : DiesOnly s t) : t.owed = s.owed := by obtain ⟨ps, rfl⟩ := h; rfl

/-- A record that begins to freeze does not end before its next step boundary. -/
theorem freezeRec (s : State) (d : Nat) (r : BitVec 9) : DiesOnly s (freezeRec s d r) := by
  unfold Machine.freezeRec
  dsimp only
  split
  · refine (modRec s d r fun x => { x with freezing := true }).trans ?_
    have hf : (getRec (getDie (Machine.modRec s d r fun x => { x with freezing := true }) d) r).freezing = true := by
      rw [Machine.modRec, getDie_modDie, getRec_putRec, if_pos rfl]
    unfold settleRec
    dsimp only
    rw [hf]
    split
    · exact refl _
    · rw [if_pos rfl]
      split
      · exact modRec ..
      · exact refl _
  · exact modRec ..
  · exact refl s

theorem freezeJob (s : State) (j : BitVec 2) : DiesOnly (modJob s j fun x => { x with frozen := true }) (freezeJob s j) :=
  foldl (fun s d => (foldl (fun s r => freezeRec s d r) _ s).trans (modDie ..)) _ _

end DiesOnly

/-- No record of a die of a list is in use. -/
def NoRecs (ds : SMap Die) : Prop := ∀ e ∈ ds, e.2.recs = []

theorem getDie_noRecs {s : State} (h : NoRecs s.dies) (d : Nat) : (getDie s d).recs = [] := by
  obtain hm | hm := mget_mem Die.reset s.dies d
  · rw [getDie, hm]
    rfl
  · exact h _ hm

theorem noRecs_modDie {s : State} (h : NoRecs s.dies) (d : Nat) {f : Die → Die} (hf : ∀ x, (f x).recs = x.recs) : NoRecs (modDie s d f).dies := by
  intro e he
  obtain rfl | he := mem_mset he
  · exact (hf _).trans (getDie_noRecs h d)
  · exact h e he

theorem jobRecs_of_noRecs {s : State} (h : NoRecs s.dies) (d : Nat) (j : BitVec 2) : jobRecs (getDie s d) j = [] := by
  rw [jobRecs, getDie_noRecs h]
  rfl

/-- With no record in use, what freezes or thaws changes the dies alone, and no record comes into use. -/
theorem noRecs_foldl {s : State} (h : NoRecs s.dies) (j : BitVec 2) {g : Nat → State → BitVec 9 → State} {f : Die → Die} (hf : ∀ x, (f x).recs = x.recs)
    (l : List Nat) : NoRecs (l.foldl (fun s d => modDie ((jobRecs (getDie s d) j).foldl (g d) s) d f) s).dies := by
  refine List.foldlRecOn (motive := fun t : State => NoRecs t.dies) l _ h fun t ht d _ => ?_
  rw [jobRecs_of_noRecs ht]
  exact noRecs_modDie ht d hf

/-! ## UNLOAD (R404) -/

section unload
variable {s : State} {j : BitVec 2} {w : Writer}

/-- The answer of UNLOAD: owed while the job is not yet saved. -/
theorem exec_jobUnload_of {t : State} {st : Byte} (h : unloadJob s j = (t, st)) : exec (.jobUnload w j) s
    = .next (if st = stOk ∧ (getJob t j).st = .unloading then { t with owed := t.owed ++ [.unload j] } else { t with status := st }) := by
  change Host.Outcome.next (match unloadJob s j with
    | (s, st) => if st = stOk ∧ (getJob s j).st = JobSt.unloading then { s with owed := s.owed ++ [Late.unload j] } else finish (s, st)) = _
  rw [h]
  rfl

theorem exec_jobUnload_refused {st : Byte} (h : unloadJob s j = (s, st)) (hs : st ≠ stOk) : exec (.jobUnload w j) s = .next { s with status := st } :=
  (exec_jobUnload_of h).trans (congrArg _ (if_neg fun hc => hs hc.1))

/-- The state in which an UNLOAD waits. -/
def unloadFrozen (s : State) (j : BitVec 2) : State := freezeJob (setJobSt s j .unloading) j

theorem unloadJob_begins (hst : (getJob s j).st = .paused) (hp : peerRound s j = false)
    (hr : inReserveNs (getJob s j).regs.save.toNat (saveSize s) = true) : unloadJob s j = (finishUnload (unloadFrozen s j) j, stOk) := by
  have hs : saveRefused s j = none := if_pos hr
  unfold unloadJob
  rw [if_neg (not_not.mpr hst), hp, hs]
  rfl

theorem unloadJob_noArea (hst : (getJob s j).st = .paused) (hp : peerRound s j = false)
    (hr : inReserveNs (getJob s j).regs.save.toNat (saveSize s) = false) (h1 : securePa s (getJob s j).regs.save.toNat = false)
    (h2 : securePa s ((getJob s j).regs.save.toNat + saveSize s - 1) = false) : unloadJob s j = (s, stInvalid) := by
  have hs : saveRefused s j = some (s, stInvalid) := (if_neg (ne_true_of_eq_false hr)).trans (if_neg (by simp [h1, h2]))
  unfold unloadJob
  rw [if_neg (not_not.mpr hst), hp, hs]
  rfl

theorem getJob_unloadFrozen (s : State) (j : BitVec 2) : getJob (unloadFrozen s j) j = { getJob s j with st := .unloading, frozen := true } := by
  rw [unloadFrozen, getJob_of_jobs (DiesOnly.freezeJob ..).jobs, getJob_modJob, if_pos rfl, getJob_setJobSt]

theorem unloadFrozen_tiles (s : State) (j : BitVec 2) : (unloadFrozen s j).tiles = s.tiles :=
  (DiesOnly.freezeJob ..).tiles.trans (setJobSt_tiles ..)

/-- No engine of a tile runs for a job. -/
def EnginesIdle (tiles : SMap Tile) (j : BitVec 2) : Prop :=
  ∀ e ∈ tiles, (∀ o ∈ e.2.eng.press ++ e.2.eng.conv ++ e.2.eng.wide, o.job ≠ j ∨ o.started = false) ∧ ∀ h, e.2.eng.exch = some h → h.job ≠ j

theorem unloadReady_of_idle (hr : NoRecs s.dies) (hi : EnginesIdle s.tiles j) : unloadReady s j = true := by
  unfold unloadReady
  rw [Bool.and_eq_true, List.all_eq_true, List.all_eq_true]
  refine ⟨fun d hd => by rw [hr d hd]; rfl, fun e he => ?_⟩
  obtain ⟨hops, hx⟩ := hi e he
  have hq : ∀ q : List EngOp, (∀ o ∈ q, o ∈ e.2.eng.press ++ e.2.eng.conv ++ e.2.eng.wide) → (q.all fun o => decide (o.job ≠ j) || !o.started) = true := by
    intro q hq
    rw [List.all_eq_true]
    intro o ho
    obtain h | h := hops o (hq o ho) <;> simp [h]
  dsimp only
  rw [hq _ fun o ho => by simp [ho], hq _ fun o ho => by simp [ho], hq _ fun o ho => by simp [ho]]
  split
  · next h hh => simpa using hx h hh
  · rfl

/-- The tiles that a save of a job keeps. -/
def savedTiles (s : State) (j : BitVec 2) : List SavedTile :=
  ((s.tiles.map fun (e : Nat × Tile) => (BitVec.ofNat 16 e.1, e.2)).map fun (e : W16 × Tile) => saveTile j e.1 e.2).filter fun v =>
    v != { saveTile j v.tile Tile.reset with share := v.share }

theorem mem_savedTiles {e : Nat × Tile} (he : e ∈ s.tiles) (hc : (getCtx e.2 j).st ≠ .empty) : saveTile j (BitVec.ofNat 16 e.1) e.2 ∈ savedTiles s j := by
  refine List.mem_filter.mpr ⟨List.mem_map_of_mem (f := fun e : W16 × Tile => saveTile j e.1 e.2) (List.mem_map_of_mem he), ?_⟩
  rw [bne_iff_ne]
  intro h
  have hctx : getCtx e.2 j = Ctx.reset := congrArg SavedTile.ctx h
  rw [hctx] at hc
  exact hc rfl

/-- Every tile of a map whose contexts of the job are EMPTY has none. -/
theorem getCtx_emptied (m : SMap Tile) (f : Tile → Tile) (k : Nat) : getCtx (mget Tile.reset (mmap Tile.reset m fun _ x => emptyCtx j (f x)) k) j = Ctx.reset := by
  obtain h | ⟨x, h⟩ := mget_mmap Tile.reset m (fun _ x => emptyCtx j (f x)) k
  · rw [h]
    rfl
  · rw [h]
    exact getCtx_putCtx ..

/-- A save whose stores have no error and that copies no shares. -/
theorem saveJob_saves (hb : ∀ u, storeBad (getTile s u) j = false) (hs : bitAt (getJob s j).regs.saveSpad 63 = false) :
    getJob (saveJob s j) j = { getJob s j with saved := savedTiles s j, st := .saved } ∧ ∀ u, ctxOf (saveJob s j) u j = Ctx.reset := by
  have hfold : (ctxTiles s j).foldl (fun s t => if storeBad (getTile s t) j then tileFault s t 1 true else s) s = s :=
    List.foldlRecOn (motive := fun t => t = s) _ _ rfl fun t ht u _ => by rw [ht, hb]; rfl
  unfold saveJob
  rw [hfold]
  dsimp only
  have hn : ¬ bitAt (getJob s j).regs.saveSpad 63 = true := ne_true_of_eq_false hs
  rw [if_neg hn]
  refine ⟨?_, fun u => ?_⟩
  · rw [getJob_setJobSt]
    change { getJob (modJob (clearArea s _ _) j fun x => { x with saved := savedTiles s j }) j with st := .saved } = _
    rw [getJob_modJob, if_pos rfl]
    rfl
  · rw [ctxOf_of_tiles (setJobSt_tiles ..)]
    exact getCtx_emptied _ id _

end unload

/-! ## RELOAD (R404) -/

/-- No weir of a die of a list is the job's. -/
def NoWeirs (j : BitVec 2) (ds : SMap Die) : Prop := ∀ e ∈ ds, ∀ k ∈ e.2.weirs, (weirOn k.2 && decide (weirOwner k.2 = j)) = false

theorem jobWeirs_eq_nil (s : State) (j : BitVec 2) : jobWeirs s j = [] ↔ NoWeirs j s.dies := by
  simp only [jobWeirs, NoWeirs, List.flatMap_eq_nil_iff, List.filterMap_eq_nil_iff]
  refine forall₂_congr fun e _ => forall₂_congr fun k _ => ?_
  cases weirOn k.2 && decide (weirOwner k.2 = j) <;> simp

theorem noWeirs_modDie {s : State} {j : BitVec 2} (h : NoWeirs j s.dies) (d : Nat) {f : Die → Die} (hf : ∀ x, (f x).weirs = x.weirs) :
    NoWeirs j (modDie s d f).dies := by
  intro e he
  obtain rfl | he := mem_mset he
  · rw [show (f (getDie s d)).weirs = (getDie s d).weirs from hf _]
    obtain hm | hm := mget_mem Die.reset s.dies d
    · rw [getDie, hm]
      exact fun k hk => absurd hk List.not_mem_nil
    · exact h _ hm
  · exact h e he

/-- What the queues and reaches that thaw leave of a die. -/
theorem thawObjects_keeps {α : Type} (P : Die → α) (h : ∀ d l m, P { d with stq := l, reach := m } = P d)
    (j : BitVec 2) (d : Die) : P (thawObjects j d) = P d := by
  have hq : ∀ d l, P { d with stq := l } = P d := fun d l => h d l d.reach
  have hr : ∀ d m, P { d with reach := m } = P d := fun d m => h d d.stq m
  have hP : ∀ d q, P (settleStqP d q) = P d := fun d q => by
    unfold settleStqP
    dsimp only
    split
    · exact hq ..
    · rfl
  have hH : ∀ d q, P (settleStqH1 d q) = P d := fun d q => by
    unfold settleStqH1
    dsimp only
    split
    · exact hq ..
    · rfl
  have hR : ∀ d n, P (settleReach d n) = P d := fun d n => by
    unfold settleReach
    dsimp only
    split
    · rfl
    · split
      · exact hr ..
      · split
        · exact hr ..
        · rfl
  unfold thawObjects
  dsimp only
  rw [Laws.foldl_keeps _ P fun d n => hR d _, Laws.foldl_keeps _ P fun d q => (hH _ _).trans (hP d _)]
  exact h d _ _

section reload
variable {s : State} {j : BitVec 2}

/-- With no record in use and no weir of the job, a thaw changes the dies alone and leaves it no weir. -/
theorem thawJob_quiet (hr : NoRecs s.dies) (hn : NoWeirs j s.dies) :
    DiesOnly (modJob s j fun x => { x with frozen := false }) (thawJob s j) ∧ NoWeirs j (thawJob s j).dies := by
  have hkeep : ∀ x, (thawObjects j x).recs = x.recs ∧ (thawObjects j x).weirs = x.weirs := fun x =>
    ⟨thawObjects_keeps (·.recs) (fun _ _ _ => rfl) j x, thawObjects_keeps (·.weirs) (fun _ _ _ => rfl) j x⟩
  obtain ⟨u, hu⟩ : ∃ u, u = modJob s j fun x => { x with frozen := false } := ⟨_, rfl⟩
  have hd : u.dies = s.dies := hu ▸ rfl
  unfold thawJob
  rw [← hu]
  have hall : NoRecs (((u.dies.map Prod.fst).foldl (fun s d =>
      modDie ((jobRecs (getDie s d) j).foldl (fun s r => thawRec s d r) s) d (thawObjects j)) u)).dies ∧ _ ∧ _ :=
    List.foldlRecOn (motive := fun t : State => NoRecs t.dies ∧ DiesOnly u t ∧ NoWeirs j t.dies) _ _ ⟨hd ▸ hr, .refl u, hd ▸ hn⟩
      fun t ⟨hr, hd, hn⟩ d _ => by
        rw [jobRecs_of_noRecs hr]
        exact ⟨noRecs_modDie hr d fun x => (hkeep x).1, hd.trans (.modDie ..), noWeirs_modDie hn d fun x => (hkeep x).2⟩
  exact hall.2

/-- A RELOAD of a job with one tile, no slot, no weir and no share to copy. -/
theorem reloadJob_single {v : SavedTile} (hst : (getJob s j).st = .saved) (hv : (getJob s j).saved = [v]) (hw : jobWeirs s j = []) (hs : v.slots = [])
    (ht : tileTakes s v.tile = true) (hr : NoRecs s.dies) (hb : bitAt (getJob s j).regs.saveSpad 63 = false) :
    ∃ t, reloadJob s j = (t, stOk) ∧ (getJob t j).st = .paused ∧ (getJob t j).frozen = false ∧ (getJob t j).saved = [] ∧ ctxOf t v.tile j = v.ctx := by
  obtain ⟨u, hu⟩ : ∃ u, u = setJobSt s j .loading := ⟨_, rfl⟩
  have hj : getJob u j = { getJob s j with st := .loading } := hu ▸ getJob_setJobSt ..
  have hdies : u.dies = s.dies := hu ▸ setJobSt_dies ..
  have hvs : (getJob u j).saved.filter (fun v => tilePresent u v.tile && dieReady u (tDie v.tile) && !(getTile u v.tile).fenced) = [v] := by
    have htu : tileTakes u v.tile = true := by
      obtain ⟨m, hm⟩ := setJobSt_eq s j .loading
      rw [hu, hm]
      exact ht
    rw [hj, hv]
    exact List.filter_cons_of_pos htu
  let u1 := modTile u v.tile (restoreTile j v)
  let u2 := modJob u1 j fun x => { x with saved := [] }
  let u3 := gResume (thawJob u2 j) j
  have hcalc : reloadJob s j = (setJobSt (thawWeirs u3 j) j .paused, stOk) := by
    unfold reloadJob
    rw [if_neg (not_not.mpr hst), ← hu]
    dsimp only
    have hn : ¬ bitAt (getJob u j).regs.saveSpad 63 = true := ne_true_of_eq_false (by rw [hj]; exact hb)
    rw [if_neg hn, hvs, List.foldl_cons, List.foldl_nil, List.foldl_cons, List.foldl_nil, hs]
    rfl
  obtain ⟨honly, hnw⟩ := thawJob_quiet (s := u2) (j := j) (by rw [show u2.dies = s.dies from hdies]; exact hr)
    (by rw [show u2.dies = s.dies from hdies]; exact (jobWeirs_eq_nil s j).mp hw)
  have hthaw : thawWeirs u3 j = u3 := by
    have hnone : jobWeirs u3 j = [] := (jobWeirs_eq_nil u3 j).mpr hnw
    rw [thawWeirs, hnone]
    rfl
  have hju3 : getJob u3 j = { getJob u j with saved := [], frozen := false, postClosed := false, drainSince := none } := by
    rw [show getJob u3 j = _ from (getJob_modJob ..).trans (if_pos rfl), getJob_of_jobs honly.jobs, getJob_modJob, if_pos rfl, getJob_modJob, if_pos rfl]
    rfl
  refine ⟨_, hcalc, ?_⟩
  rw [hthaw, getJob_setJobSt, hju3]
  refine ⟨rfl, rfl, rfl, ?_⟩
  rw [ctxOf_of_tiles (setJobSt_tiles ..), ctxOf_of_tiles (t := u3) (s := u1) honly.tiles, ctxOf, getTile_modTile]
  exact getCtx_putCtx ..

end reload

/-! ## DISCARD (R405) -/

theorem getCtx_disownTile (j k : BitVec 2) (x : Tile) : getCtx (disownTile j x) k = getCtx x k := rfl

theorem getCtx_dropCtx (j : BitVec 2) (x : Tile) : getCtx (dropCtx j x) j = Ctx.reset := by
  unfold dropCtx emptyCtx
  exact getCtx_putCtx ..

theorem ctxOf_discarded {t : State} {m : SMap Tile} {j : BitVec 2} (h : t.tiles = mmap Tile.reset m fun _ x => disownTile j (dropCtx j x)) (k : W16) :
    ctxOf t k j = Ctx.reset := by
  rw [ctxOf, getTile, h]
  obtain hm | ⟨x, hm⟩ := mget_mmap Tile.reset m (fun _ x => disownTile j (dropCtx j x)) k.toNat
  · rw [hm, getCtx_reset]
  · rw [hm, getCtx_disownTile, getCtx_dropCtx]

/-- A job that is discarded keeps nothing: its saved tiles, its freeze and its contexts are gone. -/
theorem discardJob_discards {s : State} {j : BitVec 2}
    (h : (getJob s j).st = .paused ∨ (getJob s j).st = .active ∨ (getJob s j).st = .saved ∨ (getJob s j).st = .finished) :
    ∃ t, discardJob s j = (t, stOk) ∧ (getJob t j).st = .unloaded ∧ (getJob t j).saved = [] ∧ (getJob t j).frozen = false ∧ ∀ u, ctxOf t u j = Ctx.reset := by
  let u := modJob (orphanJob s j) j fun x => { x with frozen := false, saved := [] }
  let u1 := (u.dies.map Prod.fst).foldl (fun s d =>
    let x := getDie s d
    let s := (x.stq.filter fun (e : Nat × Stq) => decide (stqOwner e.2 = j ∧ e.2.st ≠ .disabled)).foldl
      (fun s (e : Nat × Stq) => abortStq s d (BitVec.ofNat 12 e.1)) s
    (x.reach.filter fun (e : Nat × Reach) => decide (reachOwner e.2 = j ∧ e.2.st ≠ .disabled)).foldl
      (fun s (e : Nat × Reach) => abortReach s d (BitVec.ofNat 10 e.1) cAborted) s) u
  let u2 := modJob u1 j fun x => { x with postClosed := true }
  let u3 := discardTrees (abandonJob u2 j) j
  let u4 : State := { u3 with tiles := mmap Tile.reset u3.tiles fun _ x => disownTile j (dropCtx j x) }
  have hcalc : discardJob s j = (setJobSt u4 j .unloaded, stOk) := by
    refine if_neg fun hc => ?_
    obtain ⟨h1, h2, h3, h4⟩ := hc
    tauto
  have hju : (getJob u j).saved = [] ∧ (getJob u j).frozen = false := by
    rw [show getJob u j = _ from (getJob_modJob ..).trans (if_pos rfl)]
    exact ⟨rfl, rfl⟩
  have hk1 : KeepsJobs u u1 := KeepsJobs.along (.refl u) fun t d ht =>
    KeepsJobs.along (KeepsJobs.along ht fun _ _ h => h.abortStq) fun _ _ h => h.abortReach
  clear_value u1
  have hj2 : getJob u2 j = { getJob u1 j with postClosed := true } := (getJob_modJob ..).trans (if_pos rfl)
  have hk2 : KeepsJobs u2 u4 := (KeepsJobs.abandonJob (.refl u2)).trans (.of_jobs rfl)
  have hsaved2 : (getJob u2 j).saved = (getJob u1 j).saved := by
    have h := congrArg (fun x : Job => x.saved) hj2
    exact h
  have hfrozen2 : (getJob u2 j).frozen = (getJob u1 j).frozen := by
    have h := congrArg (fun x : Job => x.frozen) hj2
    exact h
  have hsaved : (getJob u4 j).saved = [] := by rw [hk2.saved, hsaved2, hk1.saved, hju.1]
  have hfrozen : (getJob u4 j).frozen = false := by rw [hk2.frozen, hfrozen2, hk1.frozen, hju.2]
  have hctx : ∀ k, ctxOf (setJobSt u4 j .unloaded) k j = Ctx.reset := ctxOf_discarded (setJobSt_tiles u4 j .unloaded)
  clear_value u4
  refine ⟨_, hcalc, ?_⟩
  rw [getJob_setJobSt]
  exact ⟨rfl, hsaved, hfrozen, hctx⟩

end Sys2Proof.Machine
end

section
/-!
PROOFS of the statements of the family '14_jobs_and_preemption.md', continued: LOAD, and the job commands together.
-/
namespace Sys2Proof.Machine
open Sys2Proof

/-! ## What a load reads (R316, R401) -/

/-- A state that a load has read through: the same but for the job, what the management port has to tell and stacks that read the same. -/
structure LoadKeeps (s t : State) : Prop where
  same : t = { s with jobs := t.jobs, mgmt := t.mgmt, hbmStacks := t.hbmStacks }
  stack_eq : ∀ n, getStack t n = getStack s n

namespace LoadKeeps
variable {s t u : State}

theorem refl (s : State) : LoadKeeps s s := ⟨rfl, fun _ => rfl⟩

theorem trans (h : LoadKeeps s t) (k : LoadKeeps t u) : LoadKeeps s u :=
  ⟨by rw [k.same, h.same], fun n => (k.stack_eq n).trans (h.stack_eq n)⟩

theorem jobSt (s : State) (j : BitVec 2) (st : JobSt) : LoadKeeps s (setJobSt s j st) := by
  obtain ⟨m, hm⟩ := setJobSt_eq s j st
  rw [hm]
  exact ⟨rfl, fun _ => rfl⟩

theorem stack (s : State) (k : Nat) : LoadKeeps s (putStack s k (getStack s k)) := by
  refine ⟨rfl, fun n => (mget_mset ..).trans ?_⟩
  split
  · next h => rw [h]
  · rfl

theorem hbm (h : LoadKeeps s t) : t.hbm = s.hbm := congrArg (·.hbm) h.same

theorem tiles (h : LoadKeeps s t) : t.tiles = s.tiles := congrArg (·.tiles) h.same

theorem bytes (h : LoadKeeps s t) (pa n : Nat) : hbmBytes t pa n = hbmBytes s pa n := by
  unfold hbmBytes
  rw [h.hbm]

theorem up (h : LoadKeeps s t) (n : Nat) : stackUp t n = stackUp s n := by
  unfold stackUp
  rw [h.stack_eq]

theorem header (h : LoadKeeps s t) (bs : List Byte) : headerRec t bs = headerRec s bs := by
  rw [h.same]
  rfl

theorem refusal (h : LoadKeeps s t) (x : W16) : loadTileRefusal t x = loadTileRefusal s x := by
  rw [h.same]
  rfl

end LoadKeeps

section read
variable {s : State} {pa n : Nat}

/-- Bytes of one block without an error are read. -/
theorem hbmLoad_block (hb : pa % 64 + n ≤ 64) (hu : stackUp s (paStack pa) = true) (hk : (getStack s (paStack pa)).blocks = []) :
    ∃ t, LoadKeeps s t ∧ hbmLoad s pa n none = (t, hbmBytes s pa n, stOk) := by
  cases n with
  | zero => exact ⟨s, .refl s, rfl⟩
  | succ n => exact ⟨_, .stack s (paStack pa), hbmLoad_good hu (by rw [blkSt, hk]; rfl) (Nat.succ_pos n) hb⟩

theorem imageBytes_good (hr : inReserveNs pa n = true) (hb : pa % 64 + n ≤ 64) (hu : stackUp s (paStack pa) = true)
    (hk : (getStack s (paStack pa)).blocks = []) : ∃ t, LoadKeeps s t ∧ imageBytes s pa n = (t, some (hbmBytes s pa n)) := by
  obtain ⟨t, ht, he⟩ := hbmLoad_block hb hu hk
  refine ⟨t, ht, ?_⟩
  unfold imageBytes
  rw [if_pos hr, he]
  rfl

end read

/-! ## The records of an image (R401, R402) -/

section records
variable {w : Writer} {j : BitVec 2} {l : LoadSt} {i pa : Nat} {s1 s2 : State} {hb bs : List Byte} (n : Nat)

theorem loadRecs_outside (h : inReserveNs pa 32 = false) : loadRecs w j (n + 1) i pa l = .error (stLoadInvalid, i, l.st) := by
  have he : imageBytes l.st pa 32 = (l.st, none) := if_neg (ne_true_of_eq_false h)
  unfold loadRecs
  rw [he]

/-- What a record needs whose header and data have been read. -/
structure RecRead (l : LoadSt) (i pa : Nat) (hb bs : List Byte) (s : State) : Prop where
  head : ∃ t, imageBytes l.st pa 32 = (t, some hb) ∧ imageBytes t (pa + 32) (recLen (BitVec.ofNat 256 (leNat hb))) = (s, some bs)
  form : recFormOk i (BitVec.ofNat 256 (leNat hb)) = true
  tile : recKind (BitVec.ofNat 256 (leNat hb)) < 2 → recTile (BitVec.ofNat 256 (leNat hb)) = 0xFFFF

/-- The record at the head of an image, read. -/
theorem loadRecs_read (h : RecRead l i pa hb bs s2) : loadRecs w j (n + 1) i pa l =
    let h : BitVec 256 := BitVec.ofNat 256 (leNat hb)
    let l := { l with st := s2 }
    if recKind h = 0 then
      match endRec l i j with
      | some (c, k) => .error (c, k, s2)
      | none => .ok l
    else if recKind h = 1 then
      match headerRec s2 bs with
      | some c => .error (c, i, s2)
      | none => loadRecs w j n (i + 1) (pa + (32 + recLen h + 63) / 64 * 64) l
    else match bodyRec w l i j h bs with
      | .error (c, s) => .error (c, i, s)
      | .ok l => loadRecs w j n (i + 1) (pa + (32 + recLen h + 63) / 64 * 64) l := by
  obtain ⟨⟨t, hhead, hdata⟩, hform, htile⟩ := h
  have hok : (!recFormOk i (BitVec.ofNat 256 (leNat hb)) || (decide (recKind (BitVec.ofNat 256 (leNat hb)) < 2)
      && (recTileRefusal t (BitVec.ofNat 256 (leNat hb))).isSome)) = false := by
    rw [hform, Bool.not_true, Bool.false_or]
    by_cases hk : recKind (BitVec.ofNat 256 (leNat hb)) < 2
    · rw [recTileRefusal, if_pos (htile hk)]
      simp
    · simp [hk]
  conv_lhs => unfold loadRecs
  rw [hhead]
  dsimp only
  rw [hok, hdata]
  rfl

/-- A HEADER that is read and passes its checks. -/
theorem loadRecs_header (h : RecRead l i pa hb bs s2) (hk : recKind (BitVec.ofNat 256 (leNat hb)) = 1)
    (hl : recLen (BitVec.ofNat 256 (leNat hb)) = 16) (hh : headerRec s2 bs = none) :
    loadRecs w j (n + 1) i pa l = loadRecs w j n (i + 1) (pa + 64) { l with st := s2 } := by
  rw [loadRecs_read n h]
  dsimp only
  rw [if_neg (by rw [hk]; decide), if_pos hk, hh, hl]

/-- A START_PC record of a tile that a context may use. -/
theorem loadRecs_startPc (h : RecRead l i pa hb [] s2) (hk : recKind (BitVec.ofNat 256 (leNat hb)) = 8)
    (hl : recLen (BitVec.ofNat 256 (leNat hb)) = 0) (hr : loadTileRefusal s2 (recTile (BitVec.ofNat 256 (leNat hb))) = none) :
    loadRecs w j (n + 1) i pa l = loadRecs w j n (i + 1) (pa + 64)
      (let t := recTile (BitVec.ofNat 256 (leNat hb))
       { l with
         st := modCtx s2 t j fun c => { c with pc := at' 64 4 (recAddr (BitVec.ofNat 256 (leNat hb))) }
         tiles := if l.tiles.contains t then l.tiles else l.tiles ++ [t]
         pcs := l.pcs ++ [t] }) := by
  rw [loadRecs_read n h]
  dsimp only
  rw [if_neg (by rw [hk]; decide), if_neg (by rw [hk]; decide), hl]
  unfold bodyRec
  rw [hk]
  dsimp only
  unfold tileRec
  dsimp only
  rw [hr, hk]
  rfl

theorem loadRecs_end (h : RecRead l i pa hb bs s2) (hk : recKind (BitVec.ofNat 256 (leNat hb)) = 0) (he : endRec { l with st := s2 } i j = none) :
    loadRecs w j (n + 1) i pa l = .ok { l with st := s2 } := by
  rw [loadRecs_read n h]
  dsimp only
  rw [if_pos hk, he]

end records

/-- An image whose records lie in one slice of the reserve, in a stack without an error. -/
structure ImageReads (s : State) (pa : Nat) : Prop where
  aligned : pa % 64 = 0
  inside : inReserveNs pa 192 = true
  up : stackUp s (paStack pa) = true
  good : (getStack s (paStack pa)).blocks = []

theorem inReserveNs_within {pa n k m : Nat} (h : inReserveNs pa n = true) (hk : k + m ≤ n) :
    inReserveNs (pa + k) m = true ∧ paStack (pa + k) = paStack pa := by
  simp only [inReserveNs, paStack, Bool.and_eq_true, decide_eq_true_eq] at h ⊢
  obtain ⟨⟨hr, hlo⟩, hhi⟩ := h
  have hs : (pa + k) / 2 ^ 36 = pa / 2 ^ 36 := by omega
  rw [hs]
  exact ⟨⟨⟨hr, by omega⟩, by omega⟩, rfl⟩

theorem ImageReads.keeps {s t : State} {pa : Nat} (h : ImageReads s pa) (k : LoadKeeps s t) : ImageReads t pa :=
  ⟨h.aligned, h.inside, by rw [k.up]; exact h.up, by rw [k.stack_eq]; exact h.good⟩

/-- Bytes of an image within one block are read. -/
theorem ImageReads.bytes {s : State} {pa k m : Nat} (h : ImageReads s pa) (hk : k + m ≤ 192) (hb : k % 64 + m ≤ 64) :
    ∃ t, LoadKeeps s t ∧ imageBytes s (pa + k) m = (t, some (hbmBytes s (pa + k) m)) := by
  obtain ⟨hr, hs⟩ := inReserveNs_within h.inside hk
  have ha := h.aligned
  exact imageBytes_good hr (by omega) (by rw [hs]; exact h.up) (by rw [hs]; exact h.good)

/-- A record of an image with its header in one block and its data, if any, behind it there. -/
theorem ImageReads.record {l : LoadSt} {pa i m : Nat} (h : ImageReads l.st pa) (hi : i < 3)
    (hm : recLen (BitVec.ofNat 256 (leNat (hbmBytes l.st (pa + 64 * i) 32))) = m) (hl : m ≤ 32)
    (hf : recFormOk i (BitVec.ofNat 256 (leNat (hbmBytes l.st (pa + 64 * i) 32))) = true)
    (ht : recKind (BitVec.ofNat 256 (leNat (hbmBytes l.st (pa + 64 * i) 32))) < 2 →
      recTile (BitVec.ofNat 256 (leNat (hbmBytes l.st (pa + 64 * i) 32))) = 0xFFFF) :
    ∃ t, LoadKeeps l.st t ∧ RecRead l i (pa + 64 * i) (hbmBytes l.st (pa + 64 * i) 32) (hbmBytes l.st (pa + 64 * i + 32) m) t := by
  obtain ⟨t, hk, hhead⟩ := h.bytes (k := 64 * i) (m := 32) (by omega) (by omega)
  obtain ⟨u, hk', hdata⟩ := (h.keeps hk).bytes (k := 64 * i + 32) (m := m) (by omega) (by omega)
  rw [hk.bytes, ← Nat.add_assoc] at hdata
  exact ⟨u, hk.trans hk', ⟨t, hhead, hm ▸ hdata⟩, hf, ht⟩

section load
variable {s : State} {j : BitVec 2} {w : Writer}

/-- The header of record i of the image of a job. -/
def imageHead (s : State) (pa i : Nat) : BitVec 256 := BitVec.ofNat 256 (leNat (hbmBytes s (pa + 64 * i) 32))

theorem LoadKeeps.head {s t : State} (h : LoadKeeps s t) (pa i : Nat) : imageHead t pa i = imageHead s pa i := by
  unfold imageHead
  rw [h.bytes]

/-- The three records of the smallest image: HEADER, START_PC and END. -/
structure SmallImage (s : State) (j : BitVec 2) (pa : Nat) : Prop where
  reads : ImageReads s pa
  form0 : recFormOk 0 (imageHead s pa 0) = true
  tile0 : recTile (imageHead s pa 0) = 0xFFFF
  kind0 : recKind (imageHead s pa 0) = 1
  len0 : recLen (imageHead s pa 0) = 16
  header : headerRec s (hbmBytes s (pa + 32) 16) = none
  form1 : recFormOk 1 (imageHead s pa 1) = true
  kind1 : recKind (imageHead s pa 1) = 8
  len1 : recLen (imageHead s pa 1) = 0
  tile1 : loadTileRefusal s (recTile (imageHead s pa 1)) = none
  form2 : recFormOk 2 (imageHead s pa 2) = true
  tile2 : recTile (imageHead s pa 2) = 0xFFFF
  kind2 : recKind (imageHead s pa 2) = 0
  steady : yieldOn (ctxOf s (recTile (imageHead s pa 1)) j) = false

theorem SmallImage.keeps {s t : State} {pa : Nat} (h : SmallImage s j pa) (k : LoadKeeps s t) : SmallImage t j pa where
  reads := h.reads.keeps k
  form0 := by rw [k.head]; exact h.form0
  tile0 := by rw [k.head]; exact h.tile0
  kind0 := by rw [k.head]; exact h.kind0
  len0 := by rw [k.head]; exact h.len0
  header := by rw [k.bytes, k.header]; exact h.header
  form1 := by rw [k.head]; exact h.form1
  kind1 := by rw [k.head]; exact h.kind1
  len1 := by rw [k.head]; exact h.len1
  tile1 := by rw [k.head, k.refusal]; exact h.tile1
  form2 := by rw [k.head]; exact h.form2
  tile2 := by rw [k.head]; exact h.tile2
  kind2 := by rw [k.head]; exact h.kind2
  steady := by rw [k.head, ctxOf_of_tiles k.tiles]; exact h.steady

/-- A context whose START_PC has been loaded. -/
def startedAt (h : BitVec 256) (c : Ctx) : Ctx := { c with pc := at' 64 4 (recAddr h) }

theorem endRec_len {h : BitVec 256} {i : Nat} (hf : recFormOk i h = true) (hk : recKind h = 0) : recLen h = 0 := by
  simp only [recFormOk, hk, Bool.and_eq_true, Bool.or_eq_true, decide_eq_true_eq] at hf
  simpa using hf.2

/-- The records of the smallest image are read, and its tile's context has its PC. -/
theorem loadRecs_small {pa : Nat} (h : SmallImage s j pa) (n : Nat) : ∃ t u, LoadKeeps s t
    ∧ LoadKeeps (modCtx t (recTile (imageHead s pa 1)) j (startedAt (imageHead s pa 1))) u
    ∧ loadRecs w j (n + 3) 0 pa { st := s, tiles := [], pcs := [], lists := [] }
      = .ok { st := u, tiles := [recTile (imageHead s pa 1)], pcs := [recTile (imageHead s pa 1)], lists := [] } := by
  obtain ⟨hr, form0, tile0, kind0, len0, header, form1, kind1, len1, tile1, form2, tile2, kind2, steady⟩ := h
  let l0 : LoadSt := { st := s, tiles := [], pcs := [], lists := [] }
  obtain ⟨s1, hk1, hrec0⟩ := ImageReads.record (l := l0) (i := 0) hr (by decide) len0 (by decide) form0 fun _ => tile0
  have hstep0 : loadRecs w j (n + 3) 0 pa l0 = loadRecs w j (n + 2) 1 (pa + 64) { l0 with st := s1 } :=
    loadRecs_header (n + 2) hrec0 kind0 len0 (by rw [hk1.header]; exact header)
  let l1 : LoadSt := { l0 with st := s1 }
  have hhead1 : imageHead s1 pa 1 = imageHead s pa 1 := hk1.head pa 1
  obtain ⟨s2, hk2, hrec1⟩ := ImageReads.record (l := l1) (i := 1) (hr.keeps hk1) (by decide) ((congrArg recLen hhead1).trans len1) (by decide)
    ((congrArg (recFormOk 1) hhead1).trans form1) fun hlt => absurd hlt (by
      change ¬ recKind (imageHead s1 pa 1) < 2
      rw [hhead1, kind1]
      decide)
  have hk12 := hk1.trans hk2
  let x := recTile (imageHead s pa 1)
  let s3 := modCtx s2 x j (startedAt (imageHead s pa 1))
  let l2 : LoadSt := { st := s3, tiles := [x], pcs := [x], lists := [] }
  have hstep1 : loadRecs w j (n + 2) 1 (pa + 64) l1 = loadRecs w j (n + 1) 2 (pa + 128) l2 := by
    have h1 := loadRecs_startPc (w := w) (j := j) (n + 1) hrec1 ((congrArg recKind hhead1).trans kind1) ((congrArg recLen hhead1).trans len1)
      (by
        change loadTileRefusal s2 (recTile (imageHead s1 pa 1)) = none
        rw [hhead1, hk12.refusal]
        exact tile1)
    change loadRecs w j (n + 2) 1 (pa + 64) l1 = loadRecs w j (n + 1) 2 (pa + 64 + 64)
      (let t := recTile (imageHead s1 pa 1)
       { st := modCtx s2 t j (startedAt (imageHead s1 pa 1)), tiles := [t], pcs := [t], lists := [] }) at h1
    rw [h1, hhead1]
  have hr3 : ImageReads s3 pa := ⟨hr.aligned, hr.inside, (hk12.up _).trans hr.up, (congrArg Stack.blocks (hk12.stack_eq _)).trans hr.good⟩
  have hhead2 : imageHead s3 pa 2 = imageHead s pa 2 := hk12.head pa 2
  obtain ⟨s4, hk4, hrec2⟩ := ImageReads.record (l := l2) (i := 2) hr3 (by decide) ((congrArg recLen hhead2).trans (endRec_len form2 kind2)) (by decide)
    ((congrArg (recFormOk 2) hhead2).trans form2) fun _ => (congrArg recTile hhead2).trans tile2
  have hctx : ctxOf s4 x j = startedAt (imageHead s pa 1) (ctxOf s x j) := by
    rw [ctxOf_of_tiles hk4.tiles, ctxOf_modCtx, ctxOf_of_tiles hk12.tiles]
  have hend : endRec { l2 with st := s4 } 2 j = none := by
    have hyield : yieldOn (getCtx (getTile s4 x) j) = false := (congrArg yieldOn hctx).trans steady
    simp [endRec, l2, hyield]
  exact ⟨s2, s4, hk12, hk4, hstep0.trans (hstep1.trans (loadRecs_end n hrec2 ((congrArg recKind hhead2).trans kind2) hend))⟩

/-- The context that a load leaves: at its PC, PAUSED. -/
def loadedCtx (h : BitVec 256) (c : Ctx) : Ctx := { c with st := .paused, pc := BitVec.ofNat 64 ((recAddr h).toNat * 16), xbCount := 0, cursor := 0 }

theorem payLate_tiles (s : State) (l : Late) (st : Byte) : (payLate s l st).tiles = s.tiles := by unfold payLate; split <;> rfl

/-- The steps of a load that is read: its tiles, then the job. -/
theorem loadJob_of_ok (hu : (getJob s j).st = .unloaded) {l : LoadSt} (hl : loadRecs (loadWriter w) j 50331648 0 (getJob s j).regs.image.toNat
    { st := setJobSt s j .loading, tiles := [], pcs := [], lists := [] } = .ok l) :
    loadJob w s j = (setJobSt (gResume (l.tiles.foldl (fun s t => loadedTile s t j) l.st) j) j .paused, stOk) := by
  have hj : (getJob (setJobSt s j .loading) j).regs.image = (getJob s j).regs.image := by rw [getJob_setJobSt]
  unfold loadJob
  rw [if_neg (not_not.mpr hu)]
  dsimp only
  rw [hj, hl]

theorem loadJob_of_error (hu : (getJob s j).st = .unloaded) {c : Byte} {i : Nat} {s1 : State}
    (hl : loadRecs (loadWriter w) j 50331648 0 (getJob s j).regs.image.toNat
      { st := setJobSt s j .loading, tiles := [], pcs := [], lists := [] } = .error (c, i, s1)) :
    loadJob w s j = (setJobSt (modJob (undoLoad j (setJobSt s j .loading) s1) j fun x =>
      { x with regs := { x.regs with loadInfo := at' 32 16 (BitVec.ofNat 16 i) ||| at' 32 0 c } }) j .unloaded, c) := by
  have hj : (getJob (setJobSt s j .loading) j).regs.image = (getJob s j).regs.image := by rw [getJob_setJobSt]
  unfold loadJob
  rw [if_neg (not_not.mpr hu)]
  dsimp only
  rw [hj, hl]

/-- An image that does not lie in the reserve fails at record 0. -/
theorem exec_jobLoad_outside (hu : (getJob s j).st = .unloaded) (h : inReserveNs (getJob s j).regs.image.toNat 32 = false) :
    Goes (exec (.jobLoad w j) s) fun t => t.status = stLoadInvalid ∧ (getJob t j).st = .unloaded ∧ (getJob t j).regs.loadInfo = 0xC2 := by
  have hl := loadJob_of_error (w := w) hu (loadRecs_outside 50331647 h)
  refine ⟨_, next_finish hl, rfl, ?_, ?_⟩
  · exact congrArg (·.st) (getJob_setJobSt ..)
  · refine (congrArg (·.regs.loadInfo) (getJob_setJobSt ..)).trans ?_
    exact congrArg (·.regs.loadInfo) ((getJob_modJob ..).trans (if_pos rfl))

/-- The smallest image leaves its job PAUSED, with the context at its PC. -/
theorem exec_jobLoad_small (hu : (getJob s j).st = .unloaded) (h : SmallImage s j (getJob s j).regs.image.toNat) :
    Goes (exec (.jobLoad w j) s) fun u => let hd := imageHead s (getJob s j).regs.image.toNat 1
      u.status = 0 ∧ (getJob u j).st = .paused ∧ ctxOf u (recTile hd) j = loadedCtx hd (ctxOf s (recTile hd) j) := by
  have hk0 : LoadKeeps s (setJobSt s j .loading) := .jobSt ..
  let pa := (getJob s j).regs.image.toNat
  obtain ⟨x, hx⟩ : ∃ x, x = recTile (imageHead s pa 1) := ⟨_, rfl⟩
  obtain ⟨t, u, hkt, hku, hload⟩ := loadRecs_small (w := loadWriter w) (h.keeps hk0) 50331645
  rw [hk0.head, ← hx] at hku hload
  have hctx : ctxOf u x j = startedAt (imageHead s pa 1) (ctxOf s x j) := by
    rw [ctxOf_of_tiles hku.tiles, ctxOf_modCtx, ctxOf_of_tiles hkt.tiles, ctxOf_of_tiles (setJobSt_tiles ..)]
  let u1 := modCtx u x j fun c => { c with st := .paused, xbCount := 0, cursor := 0 }
  have hctx1 : ctxOf u1 x j = loadedCtx (imageHead s pa 1) (ctxOf s x j) := by
    rw [ctxOf_modCtx, hctx]
    rfl
  have hsteady : ¬ yieldOn (getCtx (getTile u1 x) j) = true := ne_true_of_eq_false (by
    rw [show getCtx (getTile u1 x) j = _ from hctx1]
    exact hx ▸ h.steady)
  have htile : loadedTile u x j = u1 := if_neg hsteady
  refine ⟨_, next_finish (loadJob_of_ok hu hload), rfl, congrArg (·.st) (getJob_setJobSt ..), ?_⟩
  rw [← hx]
  refine (ctxOf_of_tiles (setJobSt_tiles ..) x j).trans ?_
  rw [List.foldl_cons, List.foldl_nil, htile]
  exact hctx1

end load

/-- Settles O35: RESUME and PAUSE change every context of the job in one map; the freeze of a job without transfers changes its dies alone; DISCARD's
aborts keep the job but for its error ring (`KeepsJobs`); a load by the three records of the smallest image. -/
theorem jobs : Obligations.Jobs := by
  unfold Obligations.Jobs
  refine ⟨fun s w j hwf => ⟨fun h => ?_, fun h => ⟨?_, ?_⟩, fun h => ?_, fun h => ?_, fun h1 h2 h3 h4 => ?_, fun h => ?_, fun h => ?_, fun h hp => ?_,
    fun h hp hr h1 h2 => ?_, fun h hp hr hn => ?_, fun h hp hr hb hq hi => ?_, fun v h hv hw hs ht hq => ?_, fun h => ?_⟩,
    fun s w j hu => ⟨fun h => exec_jobLoad_outside hu h, fun ha hin hup hgood f0 t0 k0 l0 hh f1 k1 l1 t1 f2 t2 k2 hy => ?_⟩⟩
  · exact next_finish (if_pos h)
  · exact next_finish (if_pos h)
  · exact exec_jobUnload_refused (if_pos h) (by decide)
  · exact next_finish (if_pos h)
  · exact next_finish (if_pos h)
  · exact next_finish (if_pos ⟨h1, h2, h3, h4⟩)
  · obtain ⟨hst, hctx⟩ := resumeJob_runs (j := j) hwf
    exact ⟨_, next_finish (resumeJob_paused h), rfl, hst, fun u k hk => (hctx u k).trans (if_neg hk), fun u => (hctx u j).trans (if_pos rfl)⟩
  · obtain ⟨hst, hctx⟩ := pauseJob_pauses hwf h
    exact ⟨_, next_finish (if_neg (not_not.mpr h)), rfl, hst, fun u k hk => (hctx u k).trans (if_neg hk), fun u => (hctx u j).trans (if_pos rfl)⟩
  · exact exec_jobUnload_refused ((if_neg (not_not.mpr h)).trans (if_pos hp)) (by decide)
  · exact exec_jobUnload_refused (unloadJob_noArea h hp hr h1 h2) (by decide)
  · have hstay : finishUnload (unloadFrozen s j) j = unloadFrozen s j := if_neg fun hc => ne_true_of_eq_false hn hc.2
    refine (exec_jobUnload_of (unloadJob_begins h hp hr)).trans (congrArg _ ?_)
    rw [hstay]
    exact if_pos ⟨rfl, by rw [getJob_unloadFrozen]⟩
  · obtain ⟨hrecs, hspad⟩ := hq
    have htiles := unloadFrozen_tiles s j
    have hnone : NoRecs (unloadFrozen s j).dies :=
      noRecs_foldl (s := modJob (setJobSt s j .unloading) j fun x => { x with frozen := true }) (f := freezeObjects j)
        (g := fun d s r => freezeRec s d r) (by rw [Laws.modJob_dies, setJobSt_dies]; exact hrecs) j (fun _ => rfl) _
    have hready : unloadReady (unloadFrozen s j) j = true := unloadReady_of_idle hnone (by rw [htiles]; exact hi)
    obtain ⟨hjob, hctx⟩ := saveJob_saves (s := unloadFrozen s j) (j := j) (fun u => by rw [getTile, htiles]; exact hb u)
      (by rw [getJob_unloadFrozen]; exact hspad)
    have hdone : finishUnload (unloadFrozen s j) j = payLate (saveJob (unloadFrozen s j) j) (.unload j) stOk :=
      if_pos ⟨by rw [getJob_unloadFrozen], hready⟩
    have hpaid : getJob (payLate (saveJob (unloadFrozen s j) j) (.unload j) stOk) j = _ := (getJob_of_jobs (payLate_jobs ..) j).trans hjob
    refine ⟨{ payLate (saveJob (unloadFrozen s j) j) (.unload j) stOk with status := stOk }, ?_, rfl, congrArg (·.st) hpaid, ?_, fun u => ?_,
      fun e he hne => ⟨saveTile j (BitVec.ofNat 16 e.1) e.2, ?_, rfl, rfl⟩⟩
    · refine (exec_jobUnload_of (unloadJob_begins h hp hr)).trans (congrArg _ ?_)
      rw [hdone]
      refine if_neg fun hc => ?_
      rw [hpaid] at hc
      exact JobSt.noConfusion hc.2
    · refine (congrArg (·.frozen) hpaid).trans ?_
      rw [getJob_unloadFrozen]
    · exact (ctxOf_of_tiles (payLate_tiles ..) u j).trans (hctx u)
    · have hsaved : (getJob (payLate (saveJob (unloadFrozen s j) j) (.unload j) stOk) j).saved = savedTiles (unloadFrozen s j) j := by rw [hpaid]
      change _ ∈ (getJob (payLate (saveJob (unloadFrozen s j) j) (.unload j) stOk) j).saved
      rw [hsaved]
      exact mem_savedTiles (by rw [htiles]; exact he) hne
  · obtain ⟨t, he, hst, hf, hsv, hc⟩ := reloadJob_single h hv hw hs ht hq.1 hq.2
    exact ⟨_, next_finish he, rfl, hst, hf, hsv, hc⟩
  · obtain ⟨t, he, hst, hsv, hf, hc⟩ := discardJob_discards h
    exact ⟨_, next_finish he, rfl, hst, hsv, hf, hc⟩
  · exact exec_jobLoad_small hu ⟨⟨ha, hin, hup, hgood⟩, f0, t0, k0, l0, hh, f1, k1, l1, t1, f2, t2, k2, hy⟩

end Sys2Proof.Machine
end

section
/-!
PROOFS of the statements of the family '12_links.md': what commands leave of a port.
-/
namespace Sys2Proof.Machine
open Sys2Proof

/-! ## Ports through what does not send (R360) -/

theorem getPort_of_ports {s t : State} (h : t.net.ports = s.net.ports) (n : Nat) : getPort t n = getPort s n := congrArg (mget Port.reset · n) h

theorem getPort_putErr (s : State) {e : Err} (h : e.sev ≠ 3) (n : Nat) : getPort (putErr s e) n = getPort s n := getPort_of_net (putErr_net s e h) n

theorem setPort_eq (s : State) (p : Nat) (f : Port → Port) : ∃ m, setPort s p f = { putPort s p (f (getPort s p)) with mgmt := m } := ⟨_, raiseEvent_mgmt ..⟩

theorem getPort_setPort (s : State) (p n : Nat) (f : Port → Port) : getPort (setPort s p f) n = if n = p then f (getPort s p) else getPort s n := by
  obtain ⟨m, hm⟩ := setPort_eq s p f
  rw [hm]
  exact getPort_putPort ..

theorem getPort_setPort_same (s : State) (p : Nat) (f : Port → Port) : getPort (setPort s p f) p = f (getPort s p) :=
  (getPort_setPort ..).trans (if_pos rfl)

theorem getPort_setPort_other (s : State) {p n : Nat} (f : Port → Port) (h : n ≠ p) : getPort (setPort s p f) n = getPort s n :=
  (getPort_setPort ..).trans (if_neg h)

theorem setPort_gather (s : State) (p : Nat) (f : Port → Port) : (setPort s p f).gather = s.gather := by
  obtain ⟨m, hm⟩ := setPort_eq s p f
  rw [hm]
  rfl

theorem portKeys_of_gather {s t : State} (h : t.gather = s.gather) (p : Nat) : portKeys t p = portKeys s p := by
  unfold portKeys gTree gtReg
  rw [h]

theorem pushHandle_net (s : State) (die : Nat) (q : BitVec 13) (t : W16) (j : BitVec 2) (h : W32) (src : PushSrc) :
    (pushHandle s die q t j h src).1.net = s.net := by
  unfold pushHandle
  dsimp only
  split
  · rfl
  · split
    · split
      · split <;> rfl
      · exact dropHandle_net ..
    · split
      · split <;> rfl
      · exact dropHandle_net ..

theorem slotDrain_net (s : State) (t : W16) (k : Nat) : (slotDrain s t k).net = s.net := by
  unfold slotDrain
  dsimp only
  split
  · split
    · rfl
    · have hp : ∀ x y q o h src, (pushHandle (putTile s t (putSlot x k y)) (tDie t) q t o h src).1.net = s.net := fun _ _ _ _ _ _ => pushHandle_net ..
      split
      · exact hp ..
      · exact hp ..
  · rfl

theorem ackedPkt_net (s : State) (k : Pkt) : (ackedPkt s k).net = s.net := by
  unfold ackedPkt
  split
  · split
    · dsimp only
      split
      · exact slotDrain_net ..
      · rfl
    · rfl
  · rfl

theorem failQp_ports (s : State) (q : BitVec 12) (st : Byte) : (failQp s q st).net.ports = s.net.ports := rfl

theorem abortRoce_ports (s : State) (p : Nat) : (abortRoce s p).net.ports = s.net.ports :=
  Laws.foldl_keeps _ (·.net.ports) (fun s q => failQp_ports s q _) _ _

theorem roceFlush_ports (s : State) (q : BitVec 12) : (roceFlush s q).net.ports = s.net.ports := by
  unfold roceFlush
  split <;> rfl

theorem roceFlushAll_ports (s : State) : (roceFlushAll s).net.ports = s.net.ports :=
  Laws.foldl_keeps _ (·.net.ports) (fun s e => roceFlush_ports s _) _ _

/-! ## What sending leaves of ports (R335-R340) -/

/-- A port but for what it sends and has queued. -/
def sendView (x : Port) : Port :=
  { x with
    wire := [], rxUsed := [], rxSinceAck := 0, owesNak := false, injFlit := false, injSent := false, txSeq := 0, replay := [], sending := [], txq := []
    turn := (0, 0), credits := [], ackAt := 0 }

/-- Ports that differ only in what one of them sends. -/
structure SendsAt (n : Nat) (s t : State) : Prop where
  only : PortsOnly s t
  others : ∀ q, q ≠ n → getPort t q = getPort s q
  view : sendView (getPort t n) = sendView (getPort s n)

namespace SendsAt
variable {n : Nat} {s t u : State}

theorem refl (s : State) : SendsAt n s s := ⟨.refl s, fun _ _ => rfl, rfl⟩

theorem trans (h : SendsAt n s t) (k : SendsAt n t u) : SendsAt n s u :=
  ⟨h.only.trans k.only, fun q hq => (k.others q hq).trans (h.others q hq), k.view.trans h.view⟩

theorem put {x : Port} (h : sendView x = sendView (getPort s n)) : SendsAt n s (putPort s n x) :=
  ⟨.putPort .., fun q hq => (getPort_putPort ..).trans (if_neg hq), by rw [getPort_putPort_same]; exact h⟩

theorem st (h : SendsAt n s t) : (getPort t n).st = (getPort s n).st := by
  have hv := congrArg (fun x : Port => x.st) h.view
  exact hv

theorem flit (s : State) (typ : BitVec 2) (vl : Nat) (seq : BitVec 12) (len : Nat) (k : Option (Pkt × Nat)) : SendsAt n s (sendFlit s n typ vl seq len k) :=
  put rfl

theorem idle (s : State) : SendsAt n s (sendIdle s n) := flit ..

theorem part (s : State) (f : TxFlit) : SendsAt n s (sendPart s n f) := flit ..

theorem again (s : State) : SendsAt n s (resend s n) :=
  List.foldlRecOn (motive := fun t => SendsAt n s t) _ _ (refl s) fun t ht f _ => ht.trans (part t f)

theorem lane (s : State) (k : Pkt) (i : Nat) (turn : Nat × Nat) : SendsAt n s (sendLane s n k i turn) :=
  (part s { seq := (getPort s n).txSeq, pkt := k, idx := i }).trans (put rfl)

theorem pumpPort (fuel : Nat) (s : State) : SendsAt n s (pumpPort fuel s n) := by
  induction fuel generalizing s with
  | zero => exact refl s
  | succ fuel ih =>
    rw [Machine.pumpPort]
    split
    · split
      · split
        · exact (lane ..).trans (ih _)
        · exact refl s
      · exact refl s
    · exact refl s

theorem pump (s : State) : SendsAt n s (pump s n) := by
  unfold Machine.pump
  dsimp only
  split
  · exact (pumpPort _ s).trans (put rfl)
  · exact pumpPort _ s

theorem push (s : State) (k : Pkt) : SendsAt n s (pushPkt s n k) := by
  have hq : SendsAt n s (putPort s n { getPort s n with txq := (getPort s n).txq ++ [k] }) := put rfl
  unfold pushPkt
  split
  · exact hq.trans (pump _)
  · exact refl s

end SendsAt

/-! ## A port whose packets are dropped (R346, R360) -/

section drops
variable (s : State) (p : Nat)

/-- A control packet moves to another port; the port that drops it is as it was. -/
theorem getPort_dropPkt (k : Pkt) : getPort (dropPkt s p k) p = getPort s p := by
  unfold dropPkt
  split
  · exact getPort_putErr _ (by simp [routerErr]) p
  · split
    · exact getPort_of_net (dropHandle_net ..) p
    · rfl
  · split
    · next n hn =>
      obtain ⟨k, -, hk⟩ := Option.bind_eq_some_iff.mp hn
      have hp := List.find?_some hk
      have hne : n ≠ p := (of_decide_eq_true hp).1
      exact (SendsAt.push s _).others p hne.symm
    · rfl
  · rfl
  · rfl

theorem getPort_foldl_dropPkt (ks : List Pkt) : getPort (ks.foldl (fun s k => dropPkt s p k) s) p = getPort s p :=
  Laws.foldl_keeps _ (getPort · p) (fun s k => getPort_dropPkt s p k) ks s

/-- A port without its packets. -/
def emptiedPort (x : Port) : Port := { x with txq := [], replay := [], sending := [], rxPart := [], rxUsed := [], credits := [], popped := [] }

theorem getPort_dropPkts (ks : List Pkt) : getPort (dropPkts s p ks) p
    = { getPort s p with txq := [], replay := [], sending := [], rxPart := [], rxUsed := [], credits := [] } :=
  (getPort_foldl_dropPkt ..).trans (getPort_putPort_same ..)

theorem getPort_dropPopped : getPort (dropPopped s p) p = { getPort s p with popped := [] } :=
  (Laws.foldl_keeps _ (getPort · p) (fun _ _ => getPort_of_net (dropHandle_net ..) p) _ _).trans (getPort_putPort_same ..)

/-- A port that no gathering uses drops what it holds. -/
theorem getPort_portDrops (h : portKeys s p = []) : getPort (portDrops s p) p = emptiedPort (getPort s p) := by
  have hd : getPort (gPortLost (dropPopped (dropPkts s p (heldPkts (getPort s p))) p) p (portKeys s p)) p = emptiedPort (getPort s p) := by
    rw [h]
    exact (getPort_dropPopped ..).trans (by rw [getPort_dropPkts]; rfl)
  unfold portDrops
  dsimp only
  split
  · exact (getPort_of_ports (abortRoce_ports ..) p).trans hd
  · exact hd

end drops

/-- A stopping port without work is OFF. -/
def stoppedPort (x : Port) : Port :=
  { Port.reset with
    cfg := x.cfg, role := x.role, cnt := x.cnt, injFlit := x.injFlit, injSent := x.injSent, replaySum := x.replaySum, summaryAt := x.summaryAt
    landing := x.landing, notUpSince := x.notUpSince }

/-- A port holds no work. -/
def portIdle (x : Port) : Prop := x.txq = [] ∧ x.sending = [] ∧ x.replay = [] ∧ x.popped = []

theorem settleStop_idle {s : State} {p : Nat} (h : (getPort s p).st = .stopping) (hi : portIdle (getPort s p)) :
    settleStop s p = setPort s p stoppedPort := by
  obtain ⟨h1, h2, h3, h4⟩ := hi
  exact if_pos ⟨h, by rw [h1]; rfl, by rw [h3]; rfl, by rw [h2]; rfl, by rw [h4]; rfl⟩

theorem settleStop_busy {s : State} {p : Nat} (hi : ¬ portIdle (getPort s p)) : settleStop s p = s := by
  refine if_neg fun h => hi ?_
  obtain ⟨-, h1, h2, h3, h4⟩ := h
  exact ⟨List.isEmpty_iff.mp h1, List.isEmpty_iff.mp h3, List.isEmpty_iff.mp h2, List.isEmpty_iff.mp h4⟩

theorem settleStop_runs {s : State} {p : Nat} (h : (getPort s p).st ≠ .stopping) : settleStop s p = s := if_neg fun hc => h hc.1

/-! ## Port commands (R331-R333, R360) -/

section commands
variable {s : State} {w : Writer} {port : Fin 24}

theorem portReg_ready (h : dieReady s (portDie port) = true) (f : State → State × Byte) : portReg s port f = f s := dieReg_ready h

theorem portReg_lost (h : dieReady s (portDie port) = false) (f : State → State × Byte) : portReg s port f = (s, cDieLost) := dieReg_lost h

/-- A port that has begun to retrain. -/
def retrainedPort (s : State) (x : Port) : Port :=
  { x with st := .retrain, live := false, attempts := 0, notUpSince := s.mod.time, cnt := { x.cnt with retrains := x.cnt.retrains + 1 } }

theorem retrainPort_up {p : Nat} (h : (getPort s p).st = .up) (hr : (getPort s p).role = 1) : retrainPort s p = setPort s p (retrainedPort s) :=
  if_pos ⟨h, decide_eq_true hr⟩

theorem retrainPort_other {p : Nat} (h : ¬ ((getPort s p).st = .up ∧ (getPort s p).role = 1)) : retrainPort s p = s :=
  if_neg fun hc => h ⟨hc.1, of_decide_eq_true hc.2⟩

/-- The weights of a configuration are not 0. -/
def weightsOk (v : W32) : Prop := fldN v 22 6 ≠ 0 ∧ fldN v 16 6 ≠ 0 ∧ fldN v 10 6 ≠ 0

theorem writePortCfg_busy {p : Nat} {v : W32} (h : (getPort s p).st ≠ .off) : writePortCfg s p v = (s, stCfgBusy) := if_pos h

theorem writePortCfg_invalid {p : Nat} {v : W32} (h : (getPort s p).st = .off) (hw : ¬ weightsOk (v &&& 0xFFFFFC00)) : writePortCfg s p v = (s, stInvalid) := by
  refine (if_neg (not_not.mpr h)).trans (if_pos ?_)
  unfold weightsOk at hw
  tauto

theorem writePortCfg_stored {p : Nat} {v : W32} (h : (getPort s p).st = .off) (hw : weightsOk (v &&& 0xFFFFFC00)) :
    writePortCfg s p v = (putPort s p { getPort s p with cfg := v &&& 0xFFFFFC00 }, stOk) := by
  refine (if_neg (not_not.mpr h)).trans (if_neg ?_)
  unfold weightsOk at hw
  tauto

/-- A write of the non-secure world keeps ROLE. -/
theorem roleKept_eq (v c : W32) : merge 0xC0000000 v c &&& 0xFFFFFC00 = (c &&& 0xC0000000) ||| (v &&& 0x3FFFFC00) := by
  rw [merge, BitVec.and_or_distrib_right, BitVec.and_assoc, BitVec.and_assoc, BitVec.or_comm]
  rfl

theorem roleKept_weights (v c : W32) (h : weightsOk (v &&& 0xFFFFFC00)) : weightsOk (merge 0xC0000000 v c &&& 0xFFFFFC00) := by
  have hf : ∀ lo, lo = 22 ∨ lo = 16 ∨ lo = 10 → fldN ((c &&& 0xC0000000) ||| (v &&& 0x3FFFFC00)) lo 6 = fldN (v &&& 0xFFFFFC00) lo 6 := by
    rintro lo (rfl | rfl | rfl) <;> simp [fldN, BitVec.extractLsb'_or, BitVec.extractLsb'_and]
  unfold weightsOk at h ⊢
  rw [roleKept_eq, hf 22 (.inl rfl), hf 16 (.inr (.inl rfl)), hf 10 (.inr (.inr rfl))]
  exact h

/-- A port that has started to train. -/
def startedPort (x : Port) : Port :=
  { Port.reset with
    cfg := x.cfg, role := cfgRole x, cnt := x.cnt, st := .training, linkReset := x.linkReset, injFlit := x.injFlit, injSent := x.injSent
    replaySum := x.replaySum, summaryAt := x.summaryAt, landing := x.landing, notUpSince := x.notUpSince }

theorem startPort_starts {p : Nat} (h : (getPort s p).st = .off) (hr : cfgRole (getPort s p) ≠ 0) : startPort s p = setPort s p startedPort :=
  if_pos ⟨h, hr⟩

theorem startPort_other {p : Nat} (h : (getPort s p).st ≠ .off ∨ cfgRole (getPort s p) = 0) : startPort s p = s :=
  if_neg fun hc => h.elim (fun h => h hc.1) hc.2

/-- A port that begins to stop. -/
def stoppingPort (s : State) (x : Port) : Port :=
  { x with st := .stopping, stopSince := s.mod.time, notUpSince := if x.st = .up then s.mod.time else x.notUpSince }

theorem stopDrain_up {p : Nat} (h : (getPort s p).st = .up) (hr : (getPort s p).role = 1) :
    stopDrain s p = settleStop (setPort s p (stoppingPort s)) p := by
  have heth : ¬ isEth (getPort (setPort s p (stoppingPort s)) p) = true := by
    rw [getPort_setPort_same]
    exact ne_true_of_eq_false (decide_eq_false (by change ¬ ((getPort s p).role = 2 ∨ (getPort s p).role = 3); rw [hr]; decide))
  unfold stopDrain
  rw [h]
  exact if_neg heth

theorem stopDrain_down {p : Nat} (h : (getPort s p).st = .down) : stopDrain s p = stopAbort s p := by
  unfold stopDrain
  rw [h]

/-- STOP_ABORT of a port that no gathering uses leaves it OFF. -/
theorem getPort_stopAbort {p : Nat} (h : (getPort s p).st ≠ .off) (hk : portKeys s p = []) :
    ∃ x, getPort (stopAbort s p) p = stoppedPort x ∧ x.cfg = (getPort s p).cfg := by
  obtain ⟨f, hf⟩ : ∃ f : Port → Port, f = fun x =>
    { x with st := .stopping, live := false, stopSince := s.mod.time, notUpSince := if x.st = .up then s.mod.time else x.notUpSince } := ⟨_, rfl⟩
  have he : stopAbort s p = settleStop (portDrops (setPort s p f) p) p := hf ▸ if_neg h
  have hd : getPort (portDrops (setPort s p f) p) p = emptiedPort (f (getPort s p)) := by
    rw [getPort_portDrops _ _ ((portKeys_of_gather (setPort_gather ..) p).trans hk), getPort_setPort_same]
  have hst : (emptiedPort (f (getPort s p))).st = .stopping := by rw [hf]; rfl
  refine ⟨emptiedPort (f (getPort s p)), ?_, by rw [hf]; rfl⟩
  rw [he, settleStop_idle (by rw [hd]; exact hst) (by rw [hd]; exact ⟨rfl, rfl, rfl, rfl⟩), getPort_setPort_same, hd]

end commands

/-! ## The end of a training attempt (R343-R346, R348) -/

/-- What training gives a port. -/
def trainView (x : Port) : PortSt × Bool × BitVec 4 × BitVec 8 × Nat × BitVec 8 × W32 := (x.st, x.live, x.width, x.usable, x.attempts, x.epoch, x.partner)

theorem trainView_fields {x : Port} {st : PortSt} {live : Bool} {width : BitVec 4} {usable : BitVec 8} {n : Nat} {ep : BitVec 8} {v : W32}
    (h : trainView x = (st, live, width, usable, n, ep, v)) :
    x.st = st ∧ x.live = live ∧ x.width = width ∧ x.usable = usable ∧ x.attempts = n ∧ x.epoch = ep ∧ x.partner = v := by
  simpa only [trainView, Prod.mk.injEq] using h

section training
variable {s : State} {port : Fin 24} {r : TrainResult}

theorem trainView_send {n : Nat} {s t : State} (h : SendsAt n s t) : trainView (getPort t n) = trainView (getPort s n) := by
  have hv := congrArg trainView h.view
  exact hv

theorem trainView_takeAck (s : State) (p : Nat) (ack : BitVec 12) : trainView (getPort (takeAck s p ack) p) = trainView (getPort s p) := by
  unfold takeAck
  dsimp only
  split
  · rfl
  · refine (Laws.foldl_keeps _ (fun t => trainView (getPort t p)) (fun t f => ?_) _ _).trans ?_
    · split
      · rw [getPort_of_net (ackedPkt_net ..)]
      · rfl
    · rw [getPort_putPort_same]
      rfl

theorem getPort_tellMismatch (s : State) (k n p : Nat) : getPort (tellMismatch s k n) p = getPort s p := by
  unfold tellMismatch
  split
  · exact getPort_putErr _ (by simp [portErr]) p
  · rfl

theorem getPort_peerBack (s : State) (k p : Nat) : getPort (peerBack s k) p = getPort s p := by
  unfold peerBack
  split <;> rfl

/-- What a Tizal port that trained keeps of its training when it sends again and is told of its partner. -/
theorem trainTizal_view {p w : Nat} (h1 : r.linkReset = false) (h2 : (getPort s p).linkReset = false) :
    trainView (getPort (trainTizal s p r w) p) = (.up, true, BitVec.ofNat 4 w, usableMask r, 0, nextEpoch (getPort s p).epoch r.epoch,
      at' 32 31 (1 : BitVec 1) ||| at' 32 8 r.slotId ||| at' 32 0 r.pport) := by
  unfold trainTizal
  dsimp only
  rw [h1, h2, Bool.or_self, if_neg Bool.false_ne_true]
  refine (Laws.foldl_keeps _ (fun t => trainView (getPort t p)) (fun t k => ?_) _ _).trans ?_
  · rw [getPort_peerBack, getPort_tellMismatch]
  · rw [trainView_send (SendsAt.push ..), trainView_send (SendsAt.pump ..)]
    have hr : ∀ t, trainView (getPort (resend (takeAck t p r.lastSeq) p) p) = trainView (getPort t p) := fun t => by
      rw [trainView_send (SendsAt.again ..), trainView_takeAck]
    have he : ∀ (t : State) (e : Err), e.sev ≠ 3 → trainView (getPort (putErr t e) p) = trainView (getPort t p) := fun t e h => by
      rw [getPort_putErr _ h]
    split
    · rw [he _ _ (by simp [portErr]), hr, getPort_setPort_same]
      rfl
    · split
      · rw [he _ _ (by simp [portErr]), hr, getPort_setPort_same]
        rfl
      · rw [hr, getPort_setPort_same]
        rfl

/-- The fields that name a partner. -/
theorem partner_fields (n : BitVec 6) (p : BitVec 5) : let v : W32 := at' 32 31 (1 : BitVec 1) ||| at' 32 8 n ||| at' 32 0 p
    fldN v 8 6 = n.toNat ∧ fldN v 0 5 = p.toNat ∧ bitAt v 31 = true := by
  dsimp only
  refine ⟨?_, ?_, ?_⟩
  · rw [fldN, BitVec.extractLsb'_or, BitVec.extractLsb'_or, extractLsb'_at' (by decide), extractLsb'_at'_apart (by decide), extractLsb'_at'_apart (by decide)]
    simp
  · rw [fldN, BitVec.extractLsb'_or, BitVec.extractLsb'_or, extractLsb'_at' (by decide), extractLsb'_at'_apart (by decide), extractLsb'_at'_apart (by decide)]
    simp
  · simp [bitAt, getLsbD_at']

/-- The width that an attempt reaches is below the least, or at least that. -/
theorem trainWidth_short {x : Port} {m : Byte} (h : ¬ (trainWidth x m ≠ 0 ∧ minWidth x ≤ trainWidth x m)) :
    trainWidth x m = 0 ∨ trainWidth x m < minWidth x := by omega

theorem trainWidth_enough {x : Port} {m : Byte} (h : trainWidth x m ≠ 0 ∧ minWidth x ≤ trainWidth x m) :
    ¬ (trainWidth x m = 0 ∨ trainWidth x m < minWidth x) := by omega

/-- A training attempt ends by the width that it reaches. -/
theorem exec_portTrainingDone (h : (getPort s port).st = .training ∨ (getPort s port).st = .retrain) : exec (.portTrainingDone port r) s = .next
    (let x := getPort s port
     let w := trainWidth x (usableMask r)
     if w = 0 ∨ w < minWidth x then trainFail s port
     else if isTizal x then trainTizal s port r w
     else roceFlushAll (setPort s port fun x => { x with st := .up, live := true, width := BitVec.ofNat 4 w, usable := usableMask r, attempts := 0 })) :=
  congrArg Host.Outcome.next (if_pos h)

theorem trainFail_again {p : Nat} (h : (getPort s p).attempts < 2) :
    trainFail s p = putPort s p { getPort s p with attempts := (getPort s p).attempts + 1 } := if_pos (by omega)

/-- The third failed attempt of a port that no gathering uses leaves it DOWN without packets. -/
theorem getPort_trainFail_down {p : Nat} (h : 2 ≤ (getPort s p).attempts) (hk : portKeys s p = []) :
    getPort (trainFail s p) p = emptiedPort { getPort s p with st := .down, live := false, width := 0, attempts := 0 } := by
  obtain ⟨u, hu⟩ : ∃ u, u = setPort s p fun x => { x with st := .down, live := false, width := 0, attempts := 0 } := ⟨_, rfl⟩
  have he : trainFail s p = portDrops (putErr u (portErr u p cTzDown 2)) p := hu ▸ if_neg (by omega)
  have hsev : (portErr u p cTzDown 2).sev ≠ 3 := by simp [portErr]
  have hkeys : portKeys (putErr u (portErr u p cTzDown 2)) p = [] := by
    rw [portKeys_of_gather (putErr_gather _ _ hsev), portKeys_of_gather (hu ▸ setPort_gather ..), hk]
  rw [he, getPort_portDrops _ _ hkeys, getPort_putErr _ hsev, hu, getPort_setPort_same]

end training

/-- Settles O38: a command sets its port alone; a port that drops its packets keeps everything else (`getPort_portDrops`), and what a trained Tizal
port sends leaves what training gave it (`trainView`). -/
theorem portStates : Obligations.PortStates := by
  unfold Obligations.PortStates
  refine ⟨fun s w port v => ⟨fun hd => ?_, fun hd => ⟨fun h => ?_, fun h hw hn => ?_, fun h hw hn => ?_, fun h hw hn => ?_, fun h hr => ?_, fun h => ?_,
      fun ⟨h, hr⟩ => ?_, fun h => ?_, fun h => ?_, fun h => ?_, fun h => ?_, fun ⟨h, hr⟩ hi => ?_, fun ⟨h, hr⟩ hi => ?_, fun h hk => ?_⟩,
      fun ⟨h, hr⟩ => ?_, fun h => ?_, fun lane => ⟨fun ⟨h, hr⟩ hl => ?_, fun h => ?_⟩⟩,
    fun s port r => ⟨fun h1 h2 => ?_, fun h => ⟨fun hn ha => ?_, fun hn ha hk => ?_, fun he hr => ?_, fun he hr h1 h2 => ?_⟩⟩⟩
  · exact ⟨next_finish (portReg_lost hd _), next_finish (portReg_lost hd _), next_finish (portReg_lost hd _), next_finish (portReg_lost hd _),
      next_finish (portReg_lost hd _)⟩
  · refine next_finish ((portReg_ready hd _).trans ?_)
    unfold portCfgBy
    split
    · exact writePortCfg_busy h
    · rw [writePortCfg_busy h]
      rfl
  · exact next_finish ((portReg_ready hd _).trans ((if_pos hw).trans (writePortCfg_invalid h hn)))
  · exact next_finish ((portReg_ready hd _).trans ((if_pos hw).trans (writePortCfg_stored h hn)))
  · have hst := writePortCfg_stored (v := merge 0xC0000000 v (getPort s port).cfg) h (roleKept_weights v _ hn)
    rw [roleKept_eq] at hst
    have hsev := writerErr_sev w (winAddr (0x4000 + port) 0 0)
    have he : portReg s port (fun s => portCfgBy w s port v) = (putErr (putPort s port { getPort s port with
        cfg := ((getPort s port).cfg &&& 0xC0000000) ||| (v &&& 0x3FFFFC00) }) (writerErr w (winAddr (0x4000 + port) 0 0)), stWorld) := by
      rw [portReg_ready hd]
      unfold portCfgBy
      rw [hw, hst]
      rfl
    refine ⟨_, next_finish he, rfl, ?_, fun q hq => ?_⟩
    · exact (congrArg Port.cfg (getPort_putErr _ hsev port)).trans (by rw [getPort_putPort_same])
    · exact (getPort_putErr _ hsev q).trans ((getPort_putPort ..).trans (if_neg hq))
  · obtain ⟨t, ht, hst, hp, ho⟩ : ∃ t, exec (.portStart w port) s = .next t ∧ t.status = 0 ∧ getPort t port = startedPort (getPort s port)
        ∧ ∀ q, q ≠ port.val → getPort t q = getPort s q :=
      ⟨_, next_finish ((portReg_ready hd _).trans (congrArg (·, stOk) (startPort_starts h hr))), rfl, getPort_setPort_same .., fun q hq =>
        getPort_setPort_other _ _ hq⟩
    refine ⟨t, ht, ?_⟩
    dsimp only
    rw [hp]
    exact ⟨hst, rfl, rfl, rfl, rfl, rfl, rfl, rfl, rfl, ho⟩
  · exact next_finish ((portReg_ready hd _).trans (congrArg (·, stOk) (startPort_other h)))
  · refine ⟨_, next_finish ((portReg_ready hd _).trans (congrArg (·, stOk) (retrainPort_up h hr))), rfl, getPort_setPort_same .., fun q hq =>
      getPort_setPort_other _ _ hq⟩
  · exact next_finish ((portReg_ready hd _).trans (congrArg (·, stOk) (retrainPort_other h)))
  · have h1 : stopDrain s port = s := by
      unfold stopDrain
      rw [h]
    exact ⟨next_finish ((portReg_ready hd _).trans (congrArg (·, stOk) h1)), next_finish ((portReg_ready hd _).trans (congrArg (·, stOk) (if_pos h)))⟩
  · have h1 : stopDrain s port = s := by
      unfold stopDrain
      rw [h]
    exact next_finish ((portReg_ready hd _).trans (congrArg (·, stOk) h1))
  · have h1 : portReg s port (fun s => (stopDrain s port, stOk)) = portReg s port fun s => (stopAbort s port, stOk) := by
      rw [portReg_ready hd, portReg_ready hd, stopDrain_down h]
    exact congrArg (fun r => Host.Outcome.next (finish r)) h1
  · have hp : getPort (setPort s port (stoppingPort s)) port = stoppingPort s (getPort s port) := getPort_setPort_same ..
    have h1 : stopDrain s port = setPort (setPort s port (stoppingPort s)) port stoppedPort :=
      (stopDrain_up h hr).trans (settleStop_idle (by rw [hp]; rfl) (by rw [hp]; exact hi))
    refine ⟨_, next_finish ((portReg_ready hd _).trans (congrArg (·, stOk) h1)), rfl, ?_, fun q hq => ?_⟩
    · exact congrArg Port.st (getPort_setPort_same ..)
    · exact (getPort_setPort_other _ _ hq).trans (getPort_setPort_other _ _ hq)
  · have hp : getPort (setPort s port (stoppingPort s)) port = stoppingPort s (getPort s port) := getPort_setPort_same ..
    have h1 : stopDrain s port = setPort s port (stoppingPort s) :=
      (stopDrain_up h hr).trans (settleStop_busy (by rw [hp]; exact hi))
    refine ⟨_, next_finish ((portReg_ready hd _).trans (congrArg (·, stOk) h1)), rfl, ?_, fun q hq => getPort_setPort_other _ _ hq⟩
    refine hp.trans ?_
    rw [stoppingPort, if_pos h]
  · obtain ⟨x, hx, hc⟩ := getPort_stopAbort h hk
    refine ⟨_, next_finish ((portReg_ready hd _).trans rfl), rfl, ?_⟩
    change (getPort (stopAbort s port) port).st = .off ∧ (getPort (stopAbort s port) port).txq = [] ∧ (getPort (stopAbort s port) port).replay = []
      ∧ (getPort (stopAbort s port) port).cfg = _
    rw [hx]
    exact ⟨rfl, rfl, rfl, hc⟩
  · exact ⟨_, congrArg Host.Outcome.next (retrainPort_up h hr), getPort_setPort_same .., fun q hq => getPort_setPort_other _ _ hq⟩
  · exact congrArg Host.Outcome.next (retrainPort_other h)
  · exact ⟨_, congrArg Host.Outcome.next ((if_pos hl).trans (retrainPort_up h hr)), getPort_setPort_same .., fun q hq => getPort_setPort_other _ _ hq⟩
  · obtain h | h := h
    · refine congrArg Host.Outcome.next ?_
      rw [retrainPort_other h, ite_self]
    · exact congrArg Host.Outcome.next (if_neg (ne_true_of_eq_false h))
  · exact congrArg Host.Outcome.next (if_neg fun h => h.elim h1 h2)
  · have hw := trainWidth_short hn
    exact (exec_portTrainingDone h).trans (congrArg _ ((if_pos hw).trans (trainFail_again ha)))
  · have hw := trainWidth_short hn
    refine ⟨_, (exec_portTrainingDone h).trans (congrArg _ (if_pos hw)), ?_⟩
    dsimp only
    rw [getPort_trainFail_down ha hk]
    exact ⟨rfl, rfl, rfl, rfl, rfl⟩
  · have hw := trainWidth_enough he
    refine ⟨_, (exec_portTrainingDone h).trans (congrArg _ ((if_neg hw).trans (if_neg fun hc => hr (of_decide_eq_true hc)))), ?_⟩
    dsimp only
    rw [getPort_of_ports (roceFlushAll_ports _), getPort_setPort_same]
    exact ⟨rfl, rfl, rfl, rfl⟩
  · have hw := trainWidth_enough he
    refine ⟨_, (exec_portTrainingDone h).trans (congrArg _ ((if_neg hw).trans (if_pos (decide_eq_true hr)))), ?_⟩
    have hv := trainTizal_view (s := s) (p := port) (r := r) (w := trainWidth (getPort s port) (usableMask r)) h1 h2
    obtain ⟨hst, hlive, hwidth, husable, hatt, hep, hpart⟩ := trainView_fields hv
    obtain ⟨f1, f2, f3⟩ := partner_fields r.slotId r.pport
    dsimp only
    rw [hpart]
    exact ⟨hst, hlive, hwidth, husable, hatt, hep, f1, f2, f3⟩

end Sys2Proof.Machine
end

section
/-!
PROOFS of the statements of the family '12_links.md': flits of the Tizal link, its replays and its peers.
-/
namespace Sys2Proof.Machine
open Sys2Proof

/-! ## A flit received (R339, R340, R345, R361) -/

section flits
variable {s : State} {p : Nat}

/-- The lane's buffers in use, whatever the port sends and counts. -/
theorem rxBusy_of {t : State} (hn : ∃ ps, t.net = { s.net with ports := ps }) (hpart : (getPort t p).rxPart = (getPort s p).rxPart)
    (hland : (getPort t p).landing = (getPort s p).landing) (vl : Nat) : rxBusy t p vl = rxBusy s p vl := by
  obtain ⟨ps, hn⟩ := hn
  unfold rxBusy
  dsimp only
  rw [hpart, hland, hn]

/-- A port with nothing to send sends nothing. -/
theorem pump_empty (hq : (getPort s p).txq = []) (hs : (getPort s p).sending = []) : pump s p = s := by
  have hw : flitsWaiting (getPort s p) = 0 := by
    rw [flitsWaiting, hq, hs]
    rfl
  unfold pump
  dsimp only
  rw [hw]
  refine if_neg ?_
  change ¬ ((getPort s p).replay.isEmpty && !(getPort s p).replay.isEmpty) = true
  simp

/-- What a flit received can change of what a port sends, and of its state. -/
def flitView (x : Port) : BitVec 12 × SMap Nat × List TxFlit × List Pkt × List (Pkt × Nat) × PortSt :=
  (x.rxExp, x.credits, x.replay, x.txq, x.sending, x.st)

theorem flitView_fields {x : Port} {e : BitVec 12} {c : SMap Nat} {r : List TxFlit} {q : List Pkt} {n : List (Pkt × Nat)} {st : PortSt}
    (h : flitView x = (e, c, r, q, n, st)) : x.rxExp = e ∧ x.credits = c ∧ x.replay = r ∧ x.txq = q ∧ x.sending = n ∧ x.st = st := by
  simpa only [flitView, Prod.mk.injEq] using h

theorem flitView_idle (s : State) (p : Nat) : flitView (getPort (sendIdle s p) p) = flitView (getPort s p) := by
  rw [sendIdle, sendFlit, getPort_putPort_same]
  rfl

/-- A HEAD or BODY flit of another lane than exchange takes the next number, where it finds a buffer. -/
theorem takeFlit_view (f : Flit) (hv : f.vl ≠ 0) : flitView (getPort (takeFlit s p f) p)
    = let x := getPort s p
      (if f.typ = 1 ∧ laneBuffers f.vl.toNat ≤ rxBusy s p f.vl.toNat then x.rxExp else x.rxExp + 1, x.credits, x.replay, x.txq, x.sending, x.st) := by
  have hv' : f.vl.toNat ≠ 0 := fun h => hv (BitVec.eq_of_toNat_eq h)
  unfold takeFlit
  dsimp only
  by_cases hfull : f.typ = 1 ∧ laneBuffers f.vl.toNat ≤ rxBusy s p f.vl.toNat
  · obtain ⟨h1, h2⟩ := hfull
    rw [if_pos (by simp [h1, h2]), if_pos ⟨h1, h2⟩]
    rfl
  · rw [if_neg (by simpa using hfull), if_neg hfull]
    have hidle : ∀ t, flitView (getPort (if 64 ≤ (getPort t p).rxSinceAck then sendIdle t p else t) p) = flitView (getPort t p) := fun t => by
      split
      · exact flitView_idle t p
      · rfl
    simp only [hv', and_false, if_false]
    refine (hidle _).trans ?_
    rw [getPort_putPort_same]
    rfl

/-- The port after what a flit acknowledges, without a replay buffer. -/
theorem takeAck_empty (h : (getPort s p).replay = []) (ack : BitVec 12) : takeAck s p ack = s := by
  unfold takeAck
  dsimp only
  rw [h]
  rfl

/-- A flit's ACK empties a replay buffer of one control flit that it does not precede. -/
theorem takeAck_single {g : TxFlit} {m : CtrlMsg} (h : (getPort s p).replay = [g]) (hg : g.pkt = .ctrl m) (ack : BitVec 12) :
    takeAck s p ack = if precedes ack g.seq then s else putPort s p { getPort s p with replay := [], noAdv := 0, ackAt := s.mod.time } := by
  have hdone : ∀ t, ackedPkt t g.pkt = t := fun t => by rw [hg]; rfl
  unfold takeAck
  dsimp only
  rw [h]
  cases hp : precedes ack g.seq with
  | true =>
    simp [List.findIdx?_cons, hp]
  | false =>
    simp [List.findIdx?_cons, hp, hdone]

/-- The port after a good flit that agrees with the link, once its ACK is taken. -/
theorem goodFlit_view {f : Flit} {x : Port} (hw : f.sbWidth = (getPort s p).width) (he : f.sbEpoch = (getPort s p).epoch)
    (hx : getPort (takeAck s p f.ack) p = x) (hn : f.nak = false ∨ x.replay = []) (hv : f.vl ≠ 0) (hq : x.txq = []) (hs : x.sending = []) (hu : x.st = .up) :
    let t := goodFlit s p f
    flitView (getPort t p) = (if ((f.typ = 2 ∨ f.typ = 1 ∧ rxBusy (takeAck s p f.ack) p f.vl.toNat < laneBuffers f.vl.toNat) ∧ f.seq = x.rxExp) then x.rxExp + 1 else x.rxExp,
      mset 0 x.credits f.crVl.toNat (mget 0 x.credits f.crVl.toNat - f.crCount.toNat), x.replay, [], [], .up) := by
  obtain ⟨u, hu0⟩ : ∃ u, u = takeAck s p f.ack := ⟨_, rfl⟩
  obtain ⟨u1, hu1⟩ : ∃ u1, u1 = putPort u p { x with credits := mset 0 x.credits f.crVl.toNat (mget 0 x.credits f.crVl.toNat - f.crCount.toNat) } := ⟨_, rfl⟩
  rw [← hu0] at hx ⊢
  have hx1 : getPort u1 p = { x with credits := mset 0 x.credits f.crVl.toNat (mget 0 x.credits f.crVl.toNat - f.crCount.toNat) } :=
    hu1 ▸ getPort_putPort_same ..
  have hbusy : ∀ vl, rxBusy u1 p vl = rxBusy u p vl :=
    rxBusy_of ⟨u1.net.ports, by rw [hu1]; rfl⟩ (by rw [hx1, hx]) (by rw [hx1, hx])
  obtain ⟨u2, hu2⟩ : ∃ u2, u2 = if (f.typ = 1 ∨ f.typ = 2) ∧ f.seq = (getPort u1 p).rxExp then takeFlit u1 p f else u1 := ⟨_, rfl⟩
  have hcalc : goodFlit s p f = settleStop (pump u2 p) p := by
    have hnak : ¬ (f.nak = true ∧ (!(getPort u1 p).replay.isEmpty) = true) := by
      rw [hx1]
      rintro ⟨h1, h2⟩
      obtain hn | hn := hn
      · rw [hn] at h1
        cases h1
      · simp [hn] at h2
    unfold goodFlit
    dsimp only
    rw [if_neg (by rw [hw, he]; simp), ← hu0, hx, ← hu1, if_neg hnak, ← hu2]
  have hview : flitView (getPort u2 p) = (if ((f.typ = 2 ∨ f.typ = 1 ∧ rxBusy u p f.vl.toNat < laneBuffers f.vl.toNat) ∧ f.seq = x.rxExp) then x.rxExp + 1 else x.rxExp,
      mset 0 x.credits f.crVl.toNat (mget 0 x.credits f.crVl.toNat - f.crCount.toNat), x.replay, [], [], .up) := by
    have h12 : ¬ ((1 : BitVec 2) = 2) := by decide
    have h21 : ¬ ((2 : BitVec 2) = 1) := by decide
    rw [hu2]
    split
    · next hc =>
      obtain ⟨ht, hseq⟩ := hc
      rw [hx1] at hseq
      rw [takeFlit_view f hv, hx1, hbusy]
      dsimp only
      rw [hq, hs, hu]
      obtain ht | ht := ht
      · by_cases hb : laneBuffers f.vl.toNat ≤ rxBusy u p f.vl.toNat
        · rw [if_pos ⟨ht, hb⟩, if_neg (by rw [ht]; simp [h12, Nat.not_lt.mpr hb])]
        · rw [if_neg (fun h => hb h.2), if_pos ⟨.inr ⟨ht, Nat.not_le.mp hb⟩, hseq⟩]
      · rw [if_neg (by rw [ht]; simp [h21]), if_pos ⟨.inl ht, hseq⟩]
    · next hc =>
      rw [hx1] at hc
      rw [if_neg (by tauto), hx1]
      simp only [flitView, hq, hs, hu]
  obtain ⟨-, -, -, htxq, hsend, hst⟩ := flitView_fields hview
  dsimp only
  rw [hcalc, pump_empty htxq hsend, settleStop_runs (by rw [hst]; decide)]
  exact hview

end flits

/-! ## Flits, the acknowledgement timer and replays by command -/

section link
variable {s : State} {port : Fin 24}

/-- A port that carries Tizal flits. -/
def portOn (x : Port) : Prop := x.live = true ∧ x.role = 1

theorem portOn_iff (x : Port) : portOn x ↔ x.live = true ∧ isTizal x = true := and_congr_right' decide_eq_true_iff.symm

/-- A port whose decoder corrected codewords. -/
def fecCounted (x : Port) (n : Nat) : Port := { x with cnt := { x.cnt with fecCorrected := x.cnt.fecCorrected + BitVec.ofNat 64 n } }

theorem exec_tzFlitReceive_off (h : ¬ portOn (getPort s port)) (c : FlitCheck) (f : Flit) : exec (.tzFlitReceive port c f) s = .next s :=
  congrArg Host.Outcome.next (if_neg fun hc => h ((portOn_iff _).mpr hc))

theorem exec_tzFlitReceive_on (h : portOn (getPort s port)) (c : FlitCheck) (f : Flit) : exec (.tzFlitReceive port c f) s
    = .next (match c.fault with
      | none => goodFlit (putPort s port (fecCounted (getPort s port) c.corrected)) port f
      | some why => badFlit (putPort s port (fecCounted (getPort s port) c.corrected)) port why) :=
  congrArg Host.Outcome.next (if_pos ((portOn_iff _).mp h))

theorem exec_tzAckTimer_on (h : portOn (getPort s port)) : exec (.tzAckTimer port) s = .next (sendIdle s port) :=
  congrArg Host.Outcome.next (if_pos ((portOn_iff _).mp h))

/-- A replay puts every flit that it sends again on the wire, with its packet and place, and counts nothing itself. -/
theorem resend_wire (s : State) (p : Nat) : ∃ l, (getPort (resend s p) p).wire = (getPort s p).wire ++ l
    ∧ (getPort (resend s p) p).replay = (getPort s p).replay ∧ l.map Prod.snd = (getPort s p).replay.map fun g => some (g.pkt, g.idx) := by
  have hall : ∀ (fs : List TxFlit) (t : State), ∃ l, (getPort (fs.foldl (fun s f => sendPart s p f) t) p).wire = (getPort t p).wire ++ l
      ∧ (getPort (fs.foldl (fun s f => sendPart s p f) t) p).replay = (getPort t p).replay
      ∧ l.map Prod.snd = fs.map fun g => some (g.pkt, g.idx) := by
    intro fs
    induction fs with
    | nil => exact fun t => ⟨[], by simp⟩
    | cons f fs ih =>
      intro t
      obtain ⟨l, hw, hr, hl⟩ := ih (sendPart t p f)
      rw [sendPart, sendFlit, getPort_putPort_same] at hw hr
      rw [List.foldl_cons, sendPart, sendFlit]
      refine ⟨_ :: l, by rw [hw, List.append_assoc, List.singleton_append], hr, ?_⟩
      rw [List.map_cons, List.map_cons, hl]
  exact hall (getPort s p).replay s

/-- What a replay leaves of what the port counts, and of its state. -/
theorem resend_fields (s : State) (p : Nat) : (getPort (resend s p) p).cnt = (getPort s p).cnt ∧ (getPort (resend s p) p).noAdv = (getPort s p).noAdv
    ∧ (getPort (resend s p) p).replaySum = (getPort s p).replaySum ∧ (getPort (resend s p) p).st = (getPort s p).st
    ∧ (getPort (resend s p) p).role = (getPort s p).role := by
  have hv := congrArg (fun x : Port => (x.cnt, x.noAdv, x.replaySum, x.st, x.role)) (SendsAt.again (n := p) s).view
  simpa only [sendView, Prod.mk.injEq] using hv

/-- A replay, counted. -/
def replayed (s : State) (x : Port) : Port :=
  { x with cnt := { x.cnt with replays := x.cnt.replays + 1 }, replaySum := x.replaySum + 1, noAdv := x.noAdv + 1, ackAt := s.mod.time }

/-- The state after a replay that is counted. -/
def replayCounted (s : State) (p : Nat) : State := putPort (resend s p) p (replayed (resend s p) (getPort (resend s p) p))

theorem countReplay_eq (s : State) (p : Nat) :
    countReplay s p = if 16 ≤ (getPort (resend s p) p).noAdv + 1 then retrainPort (replayCounted s p) p else replayCounted s p := rfl

theorem resend_mod (s : State) (p : Nat) : (resend s p).mod = s.mod := (SendsAt.again (n := p) s).only.mod

/-- What the acknowledgement time-out of a port needs. -/
def replayLate (s : State) (x : Port) : Prop := portOn x ∧ x.replay ≠ [] ∧ x.ackAt.toNat + 1000 ≤ now s

theorem replayLate_iff (s : State) (x : Port) :
    replayLate s x ↔ (x.live = true ∧ isTizal x = true ∧ (!x.replay.isEmpty) = true ∧ x.ackAt.toNat + 1000 ≤ now s) := by
  have hr : x.replay ≠ [] ↔ (!x.replay.isEmpty) = true := by simp
  rw [replayLate, portOn_iff, hr, and_assoc]

theorem exec_tzReplayTimeout_late (h : replayLate s (getPort s port)) : exec (.tzReplayTimeout port) s = .next (countReplay s port) :=
  congrArg Host.Outcome.next (if_pos ((replayLate_iff _ _).mp h))

theorem exec_tzReplayTimeout_early (h : ¬ replayLate s (getPort s port)) : exec (.tzReplayTimeout port) s = .next s :=
  congrArg Host.Outcome.next (if_neg fun hc => h ((replayLate_iff _ _).mpr hc))

/-- The port after a replay that is counted. -/
theorem replayCounted_port (s : State) (p : Nat) : getPort (replayCounted s p) p = replayed (resend s p) (getPort (resend s p) p) := getPort_putPort_same ..

/-- The summary of replays of a port is due. -/
def summaryDue (s : State) (x : Port) : Prop := x.replaySum ≠ 0 ∧ ∀ t0 : W64, x.summaryAt = some t0 → t0.toNat + 1000000000 ≤ now s

theorem summaryDue_iff (s : State) (x : Port) : (decide (0 < x.replaySum)
    && (match x.summaryAt with | some t => decide (t.toNat + 1000000000 ≤ now s) | none => true)) = true ↔ summaryDue s x := by
  unfold summaryDue
  rw [Bool.and_eq_true, decide_eq_true_eq, Nat.pos_iff_ne_zero]
  refine and_congr_right' ?_
  cases x.summaryAt <;> simp

theorem exec_tzReplaySummary_early (h : ¬ summaryDue s (getPort s port)) : exec (.tzReplaySummary port) s = .next s :=
  congrArg Host.Outcome.next (if_neg fun hc => h ((summaryDue_iff _ _).mp hc))

theorem exec_tzReplaySummary_due (h : summaryDue s (getPort s port)) : Goes (exec (.tzReplaySummary port) s) fun t =>
    getPort t port = { getPort s port with replaySum := 0, summaryAt := some s.mod.time, injSent := false } := by
  refine ⟨_, congrArg Host.Outcome.next (if_pos ((summaryDue_iff _ _).mpr h)), ?_⟩
  dsimp only
  rw [getPort_putErr _ (by simp [portErr]), getPort_putPort_same]

end link

/-- The header of a flit sent, by field. -/
theorem flitHead_fields (s : State) (p vl len : Nat) (typ : BitVec 2) (seq : BitVec 12) : let h := flitHead s p typ vl seq len
    h.extractLsb' 62 2 = typ ∧ h.extractLsb' 36 12 = (getPort s p).rxExp - 1 ∧ bitAt h 35 = (getPort s p).owesNak
    ∧ h.extractLsb' 22 8 = (getPort s p).epoch ∧ h.extractLsb' 18 4 = (getPort s p).width ∧ h.extractLsb' 12 6 = s.mod.slotId := by
  dsimp only
  unfold flitHead
  dsimp only
  refine ⟨?_, ?_, ?_, ?_, ?_, ?_⟩
  case refine_3 =>
    rw [bitAt]
    simp only [BitVec.getLsbD_or, getLsbD_at', b2]
    simp
  all_goals simp (disch := decide) only [BitVec.extractLsb'_or, extractLsb'_at', extractLsb'_at'_apart, BitVec.ofNat_eq_ofNat, BitVec.zero_or, BitVec.or_zero]

/-! ## A good flit, by what the link agrees on -/

section received
variable {s : State} {port : Fin 24} {n : Nat} {f : Flit}

/-- A good flit makes a port that it disagrees with retrain. -/
theorem exec_tzFlitReceive_disagrees (hon : portOn (getPort s port)) (ha : ¬ (f.sbWidth = (getPort s port).width ∧ f.sbEpoch = (getPort s port).epoch))
    (hu : (getPort s port).st = .up) : Goes (exec (.tzFlitReceive port ⟨n, none⟩ f) s) fun t =>
      (getPort t port).st = .retrain ∧ (getPort t port).rxExp = (getPort s port).rxExp := by
  refine ⟨_, exec_tzFlitReceive_on hon _ f, ?_⟩
  have hp : getPort (putPort s port (fecCounted (getPort s port) n)) port = fecCounted (getPort s port) n := getPort_putPort_same ..
  have hg : goodFlit (putPort s port (fecCounted (getPort s port) n)) port f = retrainPort (putPort s port (fecCounted (getPort s port) n)) port := by
    unfold goodFlit
    dsimp only
    refine if_pos ?_
    rw [hp]
    exact not_and_or.mp ha
  dsimp only
  rw [hg, retrainPort_up (by rw [hp]; exact hu) (by rw [hp]; exact hon.2), getPort_setPort_same, hp]
  exact ⟨rfl, rfl⟩

/-- A good flit that agrees moves the expected number where it is in sequence and finds a buffer, and gives credits back. -/
theorem exec_tzFlitReceive_agrees (hon : portOn (getPort s port)) (hw : f.sbWidth = (getPort s port).width) (he : f.sbEpoch = (getPort s port).epoch)
    (hu : (getPort s port).st = .up) (hq : (getPort s port).txq = []) (hs : (getPort s port).sending = []) (hr : (getPort s port).replay = []) (hv : f.vl ≠ 0) :
    Goes (exec (.tzFlitReceive port ⟨n, none⟩ f) s) fun t => (getPort t port).rxExp
      = (if (f.typ = 2 ∨ f.typ = 1 ∧ rxBusy s port f.vl.toNat < laneBuffers f.vl.toNat) ∧ f.seq = (getPort s port).rxExp then (getPort s port).rxExp + 1 else (getPort s port).rxExp)
      ∧ mget 0 (getPort t port).credits f.crVl.toNat = mget 0 (getPort s port).credits f.crVl.toNat - f.crCount.toNat := by
  refine ⟨_, exec_tzFlitReceive_on hon _ f, ?_⟩
  have hp : getPort (putPort s port (fecCounted (getPort s port) n)) port = fecCounted (getPort s port) n := getPort_putPort_same ..
  have hbusy : rxBusy (putPort s port (fecCounted (getPort s port) n)) port f.vl.toNat = rxBusy s port f.vl.toNat := by
    exact rxBusy_of (t := putPort s port (fecCounted (getPort s port) n)) ⟨_, rfl⟩ (by rw [hp]; rfl) (by rw [hp]; rfl) _
  have htake := takeAck_empty (s := putPort s port (fecCounted (getPort s port) n)) (p := port) (by rw [hp]; exact hr) f.ack
  have hview := goodFlit_view (f := f) (by rw [hp]; exact hw) (by rw [hp]; exact he) ((congrArg (getPort · port) htake).trans hp) (.inr hr) hv hq hs hu
  rw [htake, hbusy] at hview
  obtain ⟨hexp, hcred, -⟩ := flitView_fields hview
  refine ⟨hexp, ?_⟩
  dsimp only
  rw [hcred, mget_mset_same]
  rfl

/-- A good flit that agrees empties a replay buffer of one control flit that its ACK does not precede. -/
theorem exec_tzFlitReceive_acks {g : TxFlit} {m : CtrlMsg} (hon : portOn (getPort s port)) (hw : f.sbWidth = (getPort s port).width)
    (he : f.sbEpoch = (getPort s port).epoch) (hu : (getPort s port).st = .up) (hq : (getPort s port).txq = []) (hs : (getPort s port).sending = [])
    (hr : (getPort s port).replay = [g]) (hg : g.pkt = .ctrl m) (hn : f.nak = false) (hv : f.vl ≠ 0) :
    Goes (exec (.tzFlitReceive port ⟨n, none⟩ f) s) fun t => (getPort t port).replay = if precedes f.ack g.seq then [g] else [] := by
  refine ⟨_, exec_tzFlitReceive_on hon _ f, ?_⟩
  have hp : getPort (putPort s port (fecCounted (getPort s port) n)) port = fecCounted (getPort s port) n := getPort_putPort_same ..
  have htake := takeAck_single (s := putPort s port (fecCounted (getPort s port) n)) (p := port) (by rw [hp]; exact hr) hg f.ack
  have hview := fun x hx (h1 : x.txq = []) (h2 : x.sending = []) (h3 : x.st = .up) =>
    goodFlit_view (f := f) (x := x) (by rw [hp]; exact hw) (by rw [hp]; exact he) hx (.inl hn) hv h1 h2 h3
  cases hprec : precedes f.ack g.seq with
  | true =>
    rw [hprec, if_pos rfl] at htake
    obtain ⟨-, -, hrep, -⟩ := flitView_fields (hview _ ((congrArg (getPort · port) htake).trans hp) hq hs hu)
    exact hrep.trans hr
  | false =>
    rw [hprec, if_neg Bool.false_ne_true] at htake
    have hx := (congrArg (getPort · port) htake).trans (getPort_putPort_same ..)
    rw [hp] at hx
    obtain ⟨-, -, hrep, -⟩ := flitView_fields (hview _ hx hq hs hu)
    exact hrep

end received

/-! ## Replays by their time-out -/

section timeouts
variable {s : State} {port : Fin 24}

/-- A replay that the port goes on after. -/
theorem exec_tzReplayTimeout_replays (h : replayLate s (getPort s port)) (hn : (getPort s port).noAdv + 1 < 16) :
    Goes (exec (.tzReplayTimeout port) s) fun t => let q := getPort t port
      q.cnt = { (getPort s port).cnt with replays := (getPort s port).cnt.replays + 1 } ∧ q.replaySum = (getPort s port).replaySum + 1
      ∧ q.noAdv = (getPort s port).noAdv + 1 ∧ q.ackAt = s.mod.time ∧ q.replay = (getPort s port).replay
      ∧ (q.wire.drop (getPort s port).wire.length).map Prod.snd = (getPort s port).replay.map fun g => some (g.pkt, g.idx) := by
  obtain ⟨hcnt, hadv, hsum, -, -⟩ := resend_fields s port
  obtain ⟨l, hwire, hrep, hl⟩ := resend_wire s port
  refine ⟨_, exec_tzReplayTimeout_late h, ?_⟩
  dsimp only
  rw [countReplay_eq, if_neg (by omega), replayCounted_port, replayed]
  dsimp only
  rw [hcnt, hadv, hsum, hrep, hwire, resend_mod, List.drop_left]
  exact ⟨rfl, rfl, rfl, rfl, rfl, hl⟩

/-- The sixteenth replay without an advance makes the port retrain. -/
theorem exec_tzReplayTimeout_retrains (h : replayLate s (getPort s port)) (hn : 16 ≤ (getPort s port).noAdv + 1) (hu : (getPort s port).st = .up) :
    Goes (exec (.tzReplayTimeout port) s) fun t => (getPort t port).st = .retrain ∧ (getPort t port).cnt.replays = (getPort s port).cnt.replays + 1
      ∧ (getPort t port).cnt.retrains = (getPort s port).cnt.retrains + 1 := by
  obtain ⟨hcnt, hadv, -, hst, hrole⟩ := resend_fields s port
  have hp := replayCounted_port s port
  refine ⟨_, exec_tzReplayTimeout_late h, ?_⟩
  dsimp only
  rw [countReplay_eq, if_pos (by omega), retrainPort_up (by rw [hp]; exact hst.trans hu) (by rw [hp]; exact hrole.trans h.1.2), getPort_setPort_same, hp,
    replayed, retrainedPort]
  dsimp only
  rw [hcnt]
  exact ⟨rfl, rfl, rfl⟩

/-- The acknowledgement timer sends an IDLE flit with what is owed. -/
theorem exec_tzAckTimer_sends (h : portOn (getPort s port)) : Goes (exec (.tzAckTimer port) s) fun t => let q := getPort t port
    q.rxSinceAck = 0 ∧ q.owesNak = false ∧ ∃ h : W64, q.wire = (getPort s port).wire ++ [(h, none)] ∧ h.extractLsb' 62 2 = 0
      ∧ h.extractLsb' 36 12 = (getPort s port).rxExp - 1 ∧ bitAt h 35 = (getPort s port).owesNak ∧ h.extractLsb' 22 8 = (getPort s port).epoch
      ∧ h.extractLsb' 18 4 = (getPort s port).width ∧ h.extractLsb' 12 6 = s.mod.slotId := by
  refine ⟨_, exec_tzAckTimer_on h, ?_⟩
  dsimp only
  rw [sendIdle, sendFlit, getPort_putPort_same]
  exact ⟨rfl, rfl, flitHead s port 0 0 0 0, rfl, flitHead_fields ..⟩

end timeouts

/-- Settles O39: a flit that agrees by the parts of its receipt (`goodFlit_view`), a replay by the flits that it puts on the wire. -/
theorem flitsAndReplays : Obligations.FlitsAndReplays := by
  unfold Obligations.FlitsAndReplays
  intro s port n f
  refine ⟨fun h => ⟨fun c => exec_tzFlitReceive_off h c f, congrArg Host.Outcome.next (if_neg fun hc => h ((portOn_iff _).mpr hc))⟩,
    fun hon => ⟨?_, ?_, exec_tzFlitReceive_disagrees hon, fun ⟨hw, he⟩ ⟨hu, hq, hs⟩ hr hv => exec_tzFlitReceive_agrees hon hw he hu hq hs hr hv,
      fun g m ⟨hw, he⟩ ⟨hu, hq, hs⟩ hr hg hn hv => exec_tzFlitReceive_acks hon hw he hu hq hs hr hg hn hv, exec_tzAckTimer_sends hon⟩,
    exec_tzReplayTimeout_early, exec_tzReplayTimeout_replays, exec_tzReplayTimeout_retrains, exec_tzReplaySummary_early, exec_tzReplaySummary_due⟩
  all_goals
    refine ⟨_, exec_tzFlitReceive_on hon _ f, ?_⟩
    dsimp only
    rw [badFlit, getPort_putPort_same, getPort_putPort_same]
    rfl

end Sys2Proof.Machine
end

section
/-!
PROOFS of the statements of the family '12_links.md': peers of the node, the control lane, addition at port bridges.
-/
namespace Sys2Proof.Machine
open Sys2Proof

/-! ## The control lane (R338) -/

section controlLane
variable {s : State} {port : Fin 24} {n : Nat}

/-- A peer has answered now. -/
def peerHeard (s : State) (k : Nat) : State := { s with net := { s.net with peerSeen := mins k s.mod.time (merase s.net.peerSeen k) } }

/-- What a peer's arrival at a weir marks. -/
def peerMarked (s : State) (k : Nat) (n : BitVec 12) : State :=
  putL6 s n { getL6 s n with peersArrived := (getL6 s n).peersArrived ||| BitVec.ofNat 4 (2 ^ k) }

theorem getL6_putL6_same (s : State) (n : BitVec 12) (x : WeirL6) : getL6 (putL6 s n x) n = x := mget_mset_same ..

theorem exec_ctrlMessageReceive_none (m : CtrlMsg) (h : peerOfPort s port = none ∨ (getPort s port).live = false) :
    exec (.ctrlMessageReceive port m) s = .next s := by
  change Host.Outcome.next (match peerOfPort s port with | some k => _ | none => s) = _
  obtain h | h := h
  · rw [h]
  · split
    · exact congrArg Host.Outcome.next (if_neg (ne_true_of_eq_false h))
    · rfl

/-- What a control message of a peer does, once it counts as an answer. -/
def ctrlHeard (s : State) (k : Nat) : CtrlMsg → State
  | .weirArrive _ n h => peerArrive s k n h
  | .weirRelease n h lost => peerRelease s n h lost
  | .weirLoaded _ n => peerLoaded s k n
  | .weirStopped n orphaned => peerStopped s n orphaned
  | .watchExchange _ job step es => peerExchange s { peer := BitVec.ofNat 2 k, job, step, entries := es }
  | .discovery _ => s
  | .liveness ask => if ask then sendCtrl s k (.liveness false) else s
  | .firmware bs => { s with net := { s.net with fwRx := s.net.fwRx ++ [bs] } }

theorem exec_ctrlMessageReceive (m : CtrlMsg) (h : peerOfPort s port = some n) (hl : (getPort s port).live = true) :
    exec (.ctrlMessageReceive port m) s = .next (ctrlHeard (peerHeard s n) n m) := by
  change Host.Outcome.next (match peerOfPort s port with | some k => _ | none => s) = _
  rw [h]
  exact (congrArg Host.Outcome.next (if_pos hl)).trans (by cases m <;> rfl)

theorem peerArrive_unknown {k : Nat} {n : BitVec 12} {h : BitVec 4} (hw : l6Weirs s = []) : peerArrive s k n h = peerMarked s k n := by
  unfold peerArrive
  rw [hw]
  rfl

end controlLane

/-! ## Peers lost, and the peer table (R347, R350) -/

section peers
variable {s : State} {w : Writer} {k : BitVec 2} {v : W32}

/-- A slot that has been configured has gone. -/
def peerGoes (s : State) (k : Nat) : Prop :=
  peerValid s k = true ∧ (s.net.peerSeen.any fun e => decide (e.1 = k)) = true ∧ bitAt s.net.peerLost k = false ∧ peerGone s k = true

theorem peerGoes_iff (s : State) (k : Nat) :
    (peerValid s k && s.net.peerSeen.any (fun (e : Nat × W64) => decide (e.1 = k)) && !bitAt s.net.peerLost k && peerGone s k) = true ↔ peerGoes s k := by
  simp only [peerGoes, Bool.and_eq_true, Bool.not_eq_true', and_assoc]

/-- A peer marked lost. -/
def peerDropped (s : State) (k : Nat) : State := { s with net := { s.net with peerLost := s.net.peerLost ||| BitVec.ofNat 4 (2 ^ k) } }

theorem exec_peerLost_stays (h : ¬ peerGoes s k.toNat) :
    exec (.peerLost k) s = .next (if peerConfigured s k.toNat then sendCtrl s k.toNat (.liveness true) else s) :=
  congrArg Host.Outcome.next (if_neg fun hc => h ((peerGoes_iff ..).mp hc))

theorem exec_peerLost_goes (h : peerGoes s k.toNat) : exec (.peerLost k) s = .next (loseWeirPeer
    (putErr (peerDropped s k.toNat) (portErr (peerDropped s k.toNat) ((peerPorts (peerDropped s k.toNat) k.toNat).headD 0) cPeerLost 1)) k.toNat) :=
  congrArg Host.Outcome.next (if_pos ((peerGoes_iff ..).mpr h))

theorem loseWeirPeer_none {n : Nat} (h : l6Weirs s = []) : loseWeirPeer s n = s := by
  unfold loseWeirPeer
  rw [h]
  rfl

theorem l6Weirs_of_dies {t : State} (h : t.dies = s.dies) : l6Weirs t = l6Weirs s := by
  unfold l6Weirs
  rw [h]

/-- The table after a write of a slot. -/
def peerStored (s : State) (k : Nat) (v : W32) : State :=
  { s with net := { s.net with
    peers := mset 0 s.net.peers k v, peerLost := s.net.peerLost &&& ~~~ BitVec.ofNat 4 (2 ^ k), peerSeen := merase s.net.peerSeen k } }

/-- Matching a slot against its ports' partners leaves the table as it is. -/
theorem matchPeer_peers (s : State) (k : Nat) : (matchPeer s k).net.peers = s.net.peers := by
  have htell : ∀ t n, (tellMismatch t k n).net.peers = t.net.peers := fun t n => by
    unfold tellMismatch
    split
    · rw [putErr_net t _ (by simp [portErr])]
    · rfl
  have hback : ∀ t, (peerBack t k).net.peers = t.net.peers := fun t => by
    unfold peerBack
    split <;> rfl
  exact (hback _).trans (Laws.foldl_keeps (fun s n => tellMismatch s k n) (fun s : State => s.net.peers) htell _ s)

theorem writePeer_self : writePeer s 0 v = (s, stNoSub) := by
  unfold writePeer
  exact if_pos (.inl rfl)

theorem writePeer_refused (hk : k ≠ 0) (hv : bitAt (v &&& 0x803F1F1F) 31 = true) (ho : peersOk s k.toNat (v &&& 0x803F1F1F) = false) :
    writePeer s k.toNat v = (s, stInvalid) := by
  have hk0 : ¬ (k.toNat = 0 ∨ 3 < k.toNat) := by bv_omega
  refine (if_neg hk0).trans (if_pos ?_)
  rw [hv, ho]
  rfl

theorem writePeer_accepted (hk : k ≠ 0) (ho : bitAt (v &&& 0x803F1F1F) 31 = false ∨ peersOk s k.toNat (v &&& 0x803F1F1F) = true) :
    writePeer s k.toNat v = if jobs4.any (jobLive s) then (s, stCfgBusy) else
      (if bitAt (v &&& 0x803F1F1F) 31 then matchPeer (peerStored s k.toNat (v &&& 0x803F1F1F)) k.toNat else peerStored s k.toNat (v &&& 0x803F1F1F), stOk) := by
  have hk0 : ¬ (k.toNat = 0 ∨ 3 < k.toNat) := by bv_omega
  have hv : (bitAt (v &&& 0x803F1F1F) 31 && !peersOk s k.toNat (v &&& 0x803F1F1F)) = false := by
    obtain ho | ho := ho <;> rw [ho]
    · rfl
    · exact Bool.and_false _
  exact (if_neg hk0).trans (if_neg (ne_true_of_eq_false hv))

theorem exec_tzPeerWrite_stored (hk : k ≠ 0) (ho : bitAt (v &&& 0x803F1F1F) 31 = false ∨ peersOk s k.toNat (v &&& 0x803F1F1F) = true)
    (hj : jobs4.any (jobLive s) = false) : Goes (exec (.tzPeerWrite w k v) s) fun t =>
      t.status = 0 ∧ peerReg t k.toNat = v &&& 0x803F1F1F ∧ ∀ i, i ≠ k.toNat → peerReg t i = peerReg s i := by
  have hw := writePeer_accepted (v := v) hk ho
  rw [hj, if_neg Bool.false_ne_true] at hw
  obtain ⟨t, ht, hp⟩ : ∃ t, t = (if bitAt (v &&& 0x803F1F1F) 31 then matchPeer (peerStored s k.toNat (v &&& 0x803F1F1F)) k.toNat else peerStored s k.toNat (v &&& 0x803F1F1F))
      ∧ t.net.peers = mset 0 s.net.peers k.toNat (v &&& 0x803F1F1F) := by
    refine ⟨_, rfl, ?_⟩
    split
    · exact matchPeer_peers ..
    · rfl
  rw [← ht] at hw
  refine ⟨_, next_finish hw, rfl, ?_, fun i hi => ?_⟩
  · exact (congrArg (mget 0 · _) hp).trans (mget_mset_same ..)
  · exact (congrArg (mget 0 · _) hp).trans (mget_mset_other _ _ _ hi)

end peers

/-! ## Addition at port bridges (R351, R352) -/

section padds
variable {s : State} {dest : W16} {daddr : BitVec 24} {job : BitVec 2} {r : PAdd}

/-- The round of a key has its key. -/
theorem paddOf_key (h : paddOf s dest daddr job = some r) : r.dest = dest ∧ r.daddr = daddr ∧ r.job = job := by
  have hk := List.find?_some h
  simpa only [Bool.and_eq_true, decide_eq_true_eq, and_assoc] using hk

theorem exec_portAddRound_none (h : paddOf s dest daddr job = none) : exec (.portAddRound dest daddr job) s = .next s := by
  change Host.Outcome.next (match paddOf s dest daddr job with | some r => _ | none => s) = _
  rw [h]

theorem exec_addLagExpire_none (h : paddOf s dest daddr job = none) : exec (.addLagExpire dest daddr job) s = .next s := by
  change Host.Outcome.next (match paddOf s dest daddr job with | some r => _ | none => s) = _
  rw [h]

/-- A round taken out of the bridges. -/
def paddTaken (s : State) (r : PAdd) : State := { s with net := { s.net with padds := s.net.padds.erase r } }

/-- The block that carries a round's sum. -/
def paddSum (r : PAdd) (dest : W16) (daddr : BitVec 24) (job : BitVec 2) : Block :=
  { Block.reset with
    kind := .put, src := r.src, dest, daddr, acntEn := r.acntEn, acnt := r.acnt, job, payload := r.sum.flatMap fun v => toLE 4 v.toNat }

theorem exec_portAddRound_some (h : paddOf s dest daddr job = some r) : exec (.portAddRound dest daddr job) s
    = .next (if r.peers &&& fld s.mod.nodeCfg 0 3 = fld s.mod.nodeCfg 0 3 then
        absorbWaiting (fromBridge (paddTaken s r) r.bridge (paddSum r dest daddr job)) else s) := by
  change Host.Outcome.next (match paddOf s dest daddr job with | some r => _ | none => s) = _
  rw [h]
  rfl

theorem exec_addLagExpire_some (h : paddOf s dest daddr job = some r) : exec (.addLagExpire dest daddr job) s
    = .next (if r.since.toNat + 125 * fldN s.mod.nodeCfg 16 16 ≤ now s then absorbWaiting (abandonPadd s r r.src) else s) := by
  change Host.Outcome.next (match paddOf s dest daddr job with | some r => _ | none => s) = _
  rw [h]

/-- Nothing waits for a round where no block is an addition. -/
theorem absorbWaiting_none (h : ∀ e ∈ s.net.blocks, e.2.kind ≠ .add) : absorbWaiting s = s := by
  have hf : s.net.blocks.filter (fun e => decide (e.2.kind = .add ∧ e.2.dmod ≠ 0 ∧ e.2.inPort = atMemPort)) = [] :=
    List.filter_eq_nil_iff.mpr fun e he hc => h e he (of_decide_eq_true hc).1
  unfold absorbWaiting
  rw [hf]
  rfl

/-- The block of a sum, as it stands at a port bridge. -/
def sumAtBridge (s : State) (r : PAdd) (dest : W16) (daddr : BitVec 24) (job : BitVec 2) (via : List Nat) : Block :=
  { paddSum r dest daddr job with
    pos := bridgePos (posOf s dest) r.bridge, dst := posOf s dest, via, dmod := 0, inPort := atMemPort, heldSince := s.mod.time }

/-- Paths between dies depend on the dies and edges alone. -/
theorem pathOpen_of {t : State} (hd : t.dies = s.dies) (he : t.net.edges = s.net.edges) : pathOpen t = pathOpen s := by
  have hcross : crossable t = crossable s := by
    funext a b
    unfold crossable dieReady getDie getEdge
    rw [hd, he]
  funext l
  induction l with
  | nil => rfl
  | cons a l ih =>
    cases l with
    | nil => rfl
    | cons b l => rw [pathOpen, pathOpen, ih, hcross]

theorem diePath_of {t : State} (hd : t.dies = s.dies) (he : t.net.edges = s.net.edges) (a b : Nat) : diePath t a b = diePath s a b := by
  unfold diePath onlyCrossClosed dieReady getDie getEdge
  rw [pathOpen_of hd he, hd, he]

theorem fromBridge_sum {via : List Nat} (h : diePath s (portDie r.bridge) (posOf s dest).die = some via) :
    fromBridge (paddTaken s r) r.bridge (paddSum r dest daddr job) = addBlk (paddTaken s r) (sumAtBridge s r dest daddr job via) := by
  have hd : diePath (paddTaken s r) (bridgePos (posOf (paddTaken s r) dest) r.bridge).die (posOf (paddTaken s r) dest).die = some via := (diePath_of (s := s) (t := paddTaken s r) rfl rfl _ _).trans h
  change (match diePath (paddTaken s r) (bridgePos (posOf (paddTaken s r) dest) r.bridge).die (posOf (paddTaken s r) dest).die with | some via => _ | none => _) = _
  rw [hd]
  rfl

/-- A block at a port bridge is not the reset value of one. -/
theorem addBlk_first {b : Block} (hp : b.inPort = atMemPort) (hb : s.net.blocks = []) : (addBlk s b).net.blocks = [(s.net.nextBlk + 1, b)] := by
  have hne : b ≠ Block.reset := fun h => by
    rw [h] at hp
    exact absurd hp (by decide)
  unfold addBlk
  dsimp only
  rw [hb, mset, if_neg hne]
  rfl

theorem markTiles_padds (s : State) (b : Block) (ts : List W16) (c : Byte) : (markTiles s b ts c).net.padds = s.net.padds ∧ (markTiles s b ts c).net.blocks = s.net.blocks := by
  unfold markTiles
  split
  · exact ⟨rfl, rfl⟩
  · exact ⟨Laws.foldl_keeps (fun s t => addMarker s t b.acnt c b.job) (fun s : State => s.net.padds) (fun _ _ => rfl) ts s,
      Laws.foldl_keeps (fun s t => addMarker s t b.acnt c b.job) (fun s : State => s.net.blocks) (fun _ _ => rfl) ts s⟩

/-- A round given up leaves the bridges, and no block comes of it. -/
theorem abandonPadd_net (s : State) (r : PAdd) (who : W16) :
    (abandonPadd s r who).net.padds = s.net.padds.erase r ∧ (abandonPadd s r who).net.blocks = s.net.blocks := by
  have hall : ∀ (e : Err) (b : Block), e.sev ≠ 3 → (markTiles (putErr (paddTaken s r) e) b [r.dest] cConfAbandon).net.padds = s.net.padds.erase r
      ∧ (markTiles (putErr (paddTaken s r) e) b [r.dest] cConfAbandon).net.blocks = s.net.blocks := fun e b he => by
    obtain ⟨hp, hb⟩ := markTiles_padds (putErr (paddTaken s r) e) b [r.dest] cConfAbandon
    rw [putErr_net _ _ he] at hp hb
    exact ⟨hp, hb⟩
  exact hall _ _ (by simp [routerErr])

theorem exec_portAddRound_sends {via : List Nat} (h : paddOf s dest daddr job = some r) (hm : r.peers &&& fld s.mod.nodeCfg 0 3 = fld s.mod.nodeCfg 0 3)
    (hb : s.net.blocks = []) (hd : diePath s (portDie r.bridge) (posOf s dest).die = some via) :
    Goes (exec (.portAddRound dest daddr job) s) fun t => t.net.padds = s.net.padds.erase r
      ∧ ∃ b, t.net.blocks = [(s.net.nextBlk + 1, b)] ∧ b.kind = .put ∧ b.dest = dest ∧ b.daddr = daddr ∧ b.job = job
        ∧ b.payload = r.sum.flatMap fun v => toLE 4 v.toNat := by
  have hblocks := addBlk_first (s := paddTaken s r) (b := sumAtBridge s r dest daddr job via) rfl hb
  have hnone : absorbWaiting (addBlk (paddTaken s r) (sumAtBridge s r dest daddr job via)) = addBlk (paddTaken s r) (sumAtBridge s r dest daddr job via) := by
    refine absorbWaiting_none fun e he => ?_
    rw [hblocks, List.mem_singleton] at he
    rw [he]
    exact fun hk => BlkKind.noConfusion hk
  refine ⟨_, (exec_portAddRound_some h).trans (congrArg Host.Outcome.next ((if_pos hm).trans ((congrArg absorbWaiting (fromBridge_sum hd)).trans hnone))), rfl, _, hblocks,
    rfl, rfl, rfl, rfl, rfl⟩

theorem exec_addLagExpire_lags (h : paddOf s dest daddr job = some r) (hl : r.since.toNat + 125 * fldN s.mod.nodeCfg 16 16 ≤ now s) (hb : s.net.blocks = []) :
    Goes (exec (.addLagExpire dest daddr job) s) fun t => t.net.padds = s.net.padds.erase r ∧ t.net.blocks = [] := by
  obtain ⟨hp, hn⟩ := abandonPadd_net s r r.src
  have hnone : absorbWaiting (abandonPadd s r r.src) = abandonPadd s r r.src := absorbWaiting_none fun e he => by
    rw [hn, hb] at he
    cases he
  exact ⟨_, (exec_addLagExpire_some h).trans (congrArg Host.Outcome.next ((if_pos hl).trans hnone)), hp, hn.trans hb⟩

end padds

/-- Settles O40: by the message, the peer that is lost, the slot that is written and the round at the bridge. -/
theorem peersAndPortSums : Obligations.PeersAndPortSums := by
  unfold Obligations.PeersAndPortSums
  intro s w port k v dest daddr job
  refine ⟨exec_ctrlMessageReceive_none, fun n hp hl => ⟨exec_ctrlMessageReceive _ hp hl, fun bs => exec_ctrlMessageReceive _ hp hl,
    fun m => exec_ctrlMessageReceive _ hp hl, fun a weir ep hw => ?_⟩, exec_peerLost_stays, fun h hw => ?_, ?_, fun hk hv ho => next_finish (writePeer_refused hk hv ho),
    fun hk ho => ⟨fun hj => ?_, exec_tzPeerWrite_stored hk ho⟩, fun h => ⟨exec_portAddRound_none h, exec_addLagExpire_none h⟩, fun r h => ⟨fun hm => ?_,
    fun via hm hb hd => exec_portAddRound_sends h hm hb hd, exec_addLagExpire_lags h, fun hl => ?_⟩⟩
  · refine ⟨_, exec_ctrlMessageReceive _ hp hl, ?_⟩
    have hm : ctrlHeard (peerHeard s n) n (.weirArrive a weir ep) = peerMarked (peerHeard s n) n weir := peerArrive_unknown hw
    dsimp only
    rw [hm]
    exact ⟨getL6_putL6_same .., rfl⟩
  · have hdies : l6Weirs (putErr (peerDropped s k.toNat) (portErr (peerDropped s k.toNat) ((peerPorts (peerDropped s k.toNat) k.toNat).headD 0) cPeerLost 1)) = [] :=
      (l6Weirs_of_dies (putErr_dies _ _ (by simp [portErr]))).trans hw
    refine ⟨_, (exec_peerLost_goes h).trans (congrArg Host.Outcome.next (loseWeirPeer_none hdies)), ?_⟩
    dsimp only
    rw [putErr_net _ _ (by simp [portErr])]
    rfl
  · rintro rfl
    exact next_finish writePeer_self
  · exact next_finish ((writePeer_accepted hk ho).trans (if_pos hj))
  · exact (exec_portAddRound_some h).trans (congrArg Host.Outcome.next (if_neg hm))
  · exact (exec_addLagExpire_some h).trans (congrArg Host.Outcome.next (if_neg (by omega)))

end Sys2Proof.Machine
end

section
/-!
PROOFS of the statements of the family '12_links.md': RoCEv2 regions, requests and congestion, Ethernet frames.
-/
namespace Sys2Proof.Machine
open Sys2Proof

/-! ## Queue pairs: reads after writes, and what is sent (R356, R357) -/

section queuePairs
variable {s t : State} {q : BitVec 12} {x : RoceQp}

theorem getQp_putQp_same (s : State) (q : BitVec 12) (x : RoceQp) : getQp (putQp s q x) q = x := mget_mset_same ..

theorem getQp_of_qps (h : t.net.qps = s.net.qps) (q : BitVec 12) : getQp t q = getQp s q := by
  unfold getQp
  rw [h]

theorem getQp_unpark (s : State) (o : ParkOwner) (q : BitVec 12) : getQp (unpark s o) q = getQp s q := rfl

/-- Ports that stop under DRAIN leave the queue pairs as they are. -/
theorem settleEth_qps (s : State) : (settleEth s).net.qps = s.net.qps := by
  refine Laws.foldl_keeps settleStop (fun s : State => s.net.qps) (fun t p => ?_) _ s
  have hcalc : settleStop t p = t ∨ settleStop t p = setPort t p stoppedPort := by
    unfold settleStop
    dsimp only
    split
    · exact .inr rfl
    · exact .inl rfl
  obtain h | h := hcalc
  · rw [h]
  · obtain ⟨m, hm⟩ := setPort_eq t p stoppedPort
    rw [h, hm]
    rfl

/-- A queue pair that sends a packet, or has it wait where its priority is paused. -/
def qpSent (s : State) (q : BitVec 12) (y : RoceQp) (k : RocePkt) : RoceQp :=
  if mayTransmit s q then { y with out := y.out ++ (y.txq ++ [k]), txq := [] } else { y with txq := y.txq ++ [k] }

theorem getQp_roceSend (s : State) (q : BitVec 12) (k : RocePkt) : getQp (roceSend s q k) q = qpSent s q (getQp s q) k := by
  have hm : mayTransmit (putQp s q { getQp s q with txq := (getQp s q).txq ++ [k] }) q = mayTransmit s q := rfl
  unfold roceSend roceFlush qpSent
  rw [hm, getQp_putQp_same]
  split <;> rw [getQp_putQp_same]

/-- Sending changes nothing of a queue pair but what it sends, and the packet is sent or waits. -/
theorem qpSent_fields (s : State) (q : BitVec 12) (y : RoceQp) (k : RocePkt) :
    (qpSent s q y k).error = y.error ∧ k ∈ (qpSent s q y k).out ++ (qpSent s q y k).txq := by
  unfold qpSent
  split <;> simp

/-- A queue pair that asks for the data of a READ. -/
def qpAsked (s : State) (q : BitVec 12) (y : RoceQp) (a : BitVec 256) : RoceQp :=
  let n := msgPkts q (wrLen a)
  qpSent s q { y with begun := true, port := (qpPort s q).getD 0, msgPsn := y.txPsn, endPsn := y.txPsn + BitVec.ofNat 24 (n - 1), txPsn := y.txPsn + BitVec.ofNat 24 n }
    (.readReq q y.txPsn (fld a 128 64) (fld a 96 32) (wrLen a))

/-- The oldest request of a queue pair, a READ, begins. -/
theorem getQp_beginWr_read {a : BitVec 256} {rest : List (BitVec 256)} (hw : (getQp s q).wrs = a :: rest) (hb : (getQp s q).begun = false)
    (he : (getQp s q).error = false) (hp : (getQp s q).parked = false) (ha : wrRead a = true) : getQp (beginWr s q) q = qpAsked s q (getQp s q) a := by
  have hcalc : beginWr s q = roceSend (wrBegun s q (msgPkts q (wrLen a))) q (.readReq q (getQp s q).txPsn (fld a 128 64) (fld a 96 32) (wrLen a)) := by
    unfold beginWr
    simp only [hw, hb, he, hp, ha, Bool.or_false, Bool.false_eq_true, if_false, if_true]
  rw [hcalc, getQp_roceSend, wrBegun, getQp_putQp_same]
  rfl

theorem beginWr_empty (h : (getQp s q).wrs = []) : beginWr s q = s := by
  unfold beginWr
  dsimp only
  rw [h]

/-- A queue pair with a request under way begins no other. -/
theorem beginWr_begun (h : (getQp s q).begun = true) : beginWr s q = s := by
  unfold beginWr
  dsimp only
  split
  · rw [h]
    rfl
  · rfl

/-- A queue pair in error: each of its requests completes with a status. -/
def qpFailed (q : BitVec 12) (x : RoceQp) (st : Byte) : RoceQp :=
  { x with
    error := true, wrs := [], begun := false, acked := false, parked := false, retries := 0, readOff := 0, inWrite := none
    cpls := x.cpls ++ x.wrs.map fun w => wrCpl q w st 0 }

theorem getQp_qpError {p : Nat} (h : (getQp s q).error = false) : getQp (qpError s q p) q = qpFailed q (getQp s q) cRoceQpError := by
  rw [qpError, if_neg (ne_true_of_eq_false h), getQp_of_qps (congrArg (·.qps) (putErr_net _ _ (by simp [portErr])))]
  exact getQp_putQp_same ..

theorem getQp_takeCnp (s : State) (q : BitVec 12) : getQp (takeCnp s q) q = { getQp s q with
    rate := max ((if (getQp s q).rate = 0 then lineRate s else (getQp s q).rate) / 2) s.mod.roceFloor.toNat, cnpAt := some s.mod.time } := getQp_putQp_same ..

end queuePairs

/-! ## Regions (R358) -/

section regions
variable {s : State} {w : Writer} {r : BitVec 10} {v : W64}

theorem writeMr_enabled (h : bitAt (getMr s r.toNat).reg 63 = true) (g : BitVec 2) : writeMr s r.toNat g.toNat v = (s, stCfgBusy) := if_pos h

theorem writeMr_register (h : bitAt (getMr s r.toNat).reg 63 = false) :
    writeMr s r.toNat 0 v = (putMr s r.toNat { getMr s r.toNat with reg := v &&& 0xFFFFFFFFFFFF8000 }, stOk) :=
  if_neg (ne_true_of_eq_false h)

theorem writeMr_absent (h : bitAt (getMr s r.toNat).reg 63 = false) : writeMr s r.toNat 3 v = (s, stNoSub) := if_neg (ne_true_of_eq_false h)

theorem writeMr_base (h : bitAt (getMr s r.toNat).reg 63 = false) : writeMr s r.toNat 1 v
    = if (v &&& 0x0000FFFFFFFFFFFF).toNat % 64 ≠ 0 then (s, stInvalid) else (putMr s r.toNat { getMr s r.toNat with base := v &&& 0x0000FFFFFFFFFFFF }, stOk) :=
  if_neg (ne_true_of_eq_false h)

theorem writeMr_len (h : bitAt (getMr s r.toNat).reg 63 = false) : writeMr s r.toNat 2 v
    = if (v &&& 0x0000FFFFFFFFFFFF).toNat % 64 ≠ 0 then (s, stInvalid) else (putMr s r.toNat { getMr s r.toNat with len := v &&& 0x0000FFFFFFFFFFFF }, stOk) :=
  if_neg (ne_true_of_eq_false h)

end regions

/-! ## Requests (R357, R359) -/

section requests
variable {s : State} {w : Writer} {wr : BitVec 256} {q : BitVec 12}

/-- A request of a good form. -/
def wrFormed (wr : BitVec 256) : Prop :=
  fldN wr 0 17 = 0 ∧ fldN wr 240 16 = 0 ∧ (wrLocal wr).toNat % 64 = 0 ∧ wrLen wr ≠ 0 ∧ wrLen wr ≤ 2 ^ 31

theorem wrFormed_iff (wr : BitVec 256) :
    ¬ wrFormed wr ↔ fldN wr 0 17 ≠ 0 ∨ fldN wr 240 16 ≠ 0 ∨ (wrLocal wr).toNat % 64 ≠ 0 ∨ wrLen wr = 0 ∨ 2 ^ 31 < wrLen wr := by
  unfold wrFormed
  rw [← Nat.not_le]
  tauto

theorem exec_roceWrPost_malformed (h : ¬ wrFormed wr) : exec (.roceWrPost w wr) s = .next { s with status := stInvalid } :=
  congrArg Host.Outcome.next (if_pos ((wrFormed_iff wr).mp h))

theorem exec_roceWrPost_formed (h : wrFormed wr) : exec (.roceWrPost w wr) s = .next (
    if (getQp s (wrQp wr)).error then setStatus (putQp s (wrQp wr) { getQp s (wrQp wr) with cpls := (getQp s (wrQp wr)).cpls ++ [wrCpl (wrQp wr) wr cRoceQpError 0] }) stOk
    else if !ethUp s then setStatus s stBusy
    else setStatus (beginWr (putQp s (wrQp wr) { getQp s (wrQp wr) with wrs := (getQp s (wrQp wr)).wrs ++ [wr] }) (wrQp wr)) stOk) :=
  congrArg Host.Outcome.next (if_neg fun hc => (wrFormed_iff wr).mpr hc h)

theorem exec_roceWrPost_taken (h : wrFormed wr) (he : (getQp s (wrQp wr)).error = false) (hu : ethUp s = true) : exec (.roceWrPost w wr) s
    = .next (setStatus (beginWr (putQp s (wrQp wr) { getQp s (wrQp wr) with wrs := (getQp s (wrQp wr)).wrs ++ [wr] }) (wrQp wr)) stOk) := by
  rw [exec_roceWrPost_formed h, he, hu]
  rfl

theorem exec_roceRequestComplete_acked {a : BitVec 256} (hw : (getQp s q).wrs = [a]) (ha : (getQp s q).acked = true) :
    Goes (exec (.roceRequestComplete q) s) fun t => getQp t q = { getQp s q with
      wrs := [], begun := false, acked := false, parked := false, retries := 0, readOff := 0, cpls := (getQp s q).cpls ++ [wrCpl q a 0 (wrLen a)] } := by
  refine ⟨_, rfl, ?_⟩
  dsimp only
  rw [getQp_of_qps (settleEth_qps _), hw]
  dsimp only
  rw [if_pos ha]
  unfold wrDone
  dsimp only
  rw [hw]
  dsimp only
  rw [beginWr_empty (by rw [getQp_putQp_same]), getQp_putQp_same]
  rfl

theorem exec_roceRetryTimeout_idle (h : (getQp s q).begun = false ∨ (getQp s q).acked = true) : exec (.roceRetryTimeout q) s = .next s := by
  refine congrArg Host.Outcome.next (if_neg ?_)
  obtain h | h := h <;> simp [h]

theorem exec_roceRetryTimeout_late (hb : (getQp s q).begun = true) (ha : (getQp s q).acked = false) : exec (.roceRetryTimeout q) s
    = .next (if (getQp s q).retries < 7 then
        beginWr (putQp s q { getQp s q with begun := false, retries := (getQp s q).retries + 1, readOff := 0, txPsn := (getQp s q).msgPsn }) q
      else settleEth (qpError s q 0)) :=
  congrArg Host.Outcome.next (if_pos (by rw [hb, ha]; rfl))

end requests

/-! ## Packets (R356-R358) -/

section packets
variable {s : State} {port : Fin 24} {q : BitVec 12}

/-- An UP Ethernet port. -/
def ethUpPort (x : Port) : Prop := x.st = .up ∧ (x.role = 2 ∨ x.role = 3)

/-- What a packet that a queue pair takes does. -/
def rocePktTaken (s : State) (port : Nat) : RocePkt → State
  | .write q psn first last va rkey n bs => inSeq s q psn fun s => takeWrite s port q psn first last va rkey n bs
  | .readReq q psn va rkey n => inSeq s q psn fun s => takeRead s port q psn va rkey n
  | .readResp q psn first last bs => takeReadResp s q psn first last bs
  | .ack q psn =>
    let y := getQp s q
    (match y.wrs with
     | w :: _ => if y.begun && !wrRead w && !precedes psn y.endPsn then putQp s q { y with acked := true } else s
     | [] => s)
  | .nak q _ _ => qpError s q port
  | .unsupported q => refuseInvalid s q port (getQp s q).rxPsn
  | .cnp q => takeCnp s q

theorem exec_rocePacketReceive_taken {k : RocePkt} (hp : ethUpPort (getPort s port)) (hl : (getPort s port).live = true)
    (hn : (getQp s (pktQp k)).enabled = true) (he : (getQp s (pktQp k)).error = false) :
    exec (.rocePacketReceive port false k) s = .next (settleEth (rocePktTaken s port k)) := by
  have hc : ((getPort s port).live && isEth (getPort s port) && (getQp s (pktQp k)).enabled && !(getQp s (pktQp k)).error
      && (decide ((getPort s port).st = .up) || answersUs k)) = true := by
    have hr : isEth (getPort s port) = true := decide_eq_true hp.2
    rw [hl, hr, hn, he, decide_eq_true hp.1]
    rfl
  exact (congrArg Host.Outcome.next (if_pos hc)).trans (by cases k <;> rfl)

theorem exec_rocePacketReceive_dropped {ce : Bool} {k : RocePkt}
    (h : (getPort s port).live = false ∨ (getQp s (pktQp k)).enabled = false ∨ (getQp s (pktQp k)).error = true) :
    exec (.rocePacketReceive port ce k) s = .next s := by
  refine congrArg Host.Outcome.next (if_neg ?_)
  obtain h | h | h := h <;> simp [h]

/-- The queue pair after a packet that is taken. -/
theorem exec_rocePacketReceive_qp {k : RocePkt} {p : RoceQp → Prop} (hp : ethUpPort (getPort s port)) (hl : (getPort s port).live = true)
    (hn : (getQp s (pktQp k)).enabled = true) (he : (getQp s (pktQp k)).error = false) (h : p (getQp (rocePktTaken s port k) q)) :
    Goes (exec (.rocePacketReceive port false k) s) fun t => p (getQp t q) := by
  refine ⟨_, exec_rocePacketReceive_taken hp hl hn he, ?_⟩
  dsimp only
  rw [getQp_of_qps (settleEth_qps _)]
  exact h

/-- A request that is refused is answered with a NAK, and the queue pair is in error. -/
theorem refuse_naks {p : Nat} {psn : BitVec 24} (he : (getQp s q).error = false) (access : Bool) {e : Err} (hs : e.sev ≠ 3) {t : State}
    (ht : t = roceSend s q (.nak q psn access) ∨ t = putErr (roceSend s q (.nak q psn access)) e) :
    (getQp (qpError t q p) q).error = true ∧ .nak q psn access ∈ (getQp (qpError t q p) q).out ++ (getQp (qpError t q p) q).txq := by
  obtain ⟨herr, hin⟩ := qpSent_fields s q (getQp s q) (.nak q psn access)
  have hq : getQp t q = qpSent s q (getQp s q) (.nak q psn access) := by
    obtain rfl | rfl := ht
    · exact getQp_roceSend ..
    · exact (getQp_of_qps (congrArg (·.qps) (putErr_net _ _ hs)) q).trans (getQp_roceSend ..)
  rw [getQp_qpError (by rw [hq]; exact herr.trans he), hq]
  exact ⟨rfl, hin⟩

theorem refuseInvalid_naks {p : Nat} {psn : BitVec 24} (he : (getQp s q).error = false) : let t := refuseInvalid s q p psn
    (getQp t q).error = true ∧ .nak q psn false ∈ (getQp t q).out ++ (getQp t q).txq :=
  refuse_naks he false (e := portErr s p cRoceAccess 1) (by simp [portErr]) (.inl rfl)

theorem refuseAccess_naks {p : Nat} {psn : BitVec 24} (he : (getQp s q).error = false) : let t := refuseAccess s q p psn
    (getQp t q).error = true ∧ .nak q psn true ∈ (getQp t q).out ++ (getQp t q).txq :=
  refuse_naks he true (by simp [portErr]) (.inr rfl)

variable {psn : BitVec 24} {va : W64} {k : W32} {n : Nat}

/-- A queue pair that has taken a packet in sequence. -/
def qpNext (s : State) (q : BitVec 12) : State := putQp s q { getQp s q with rxPsn := (getQp s q).rxPsn + 1 }

theorem readReq_inSeq (h : psn = (getQp s q).rxPsn) {p : Nat} : rocePktTaken s p (.readReq q psn va k n) = takeRead (qpNext s q) p q psn va k n := if_pos h

theorem takeRead_long {p : Nat} (h : 2 ^ 31 < n) : takeRead s p q psn va k n = refuseInvalid s q p psn := by
  refine if_pos ?_
  rw [decide_eq_true h]
  rfl

theorem takeRead_refused {p : Nat} (hn : n ≤ 2 ^ 31) (hq : ((getQp s q).txq.filter endsRead).length < 16) (hm : mrAllows s k va n false = none) :
    takeRead s p q psn va k n = refuseAccess s q p psn := by
  unfold takeRead
  rw [if_neg (by rw [decide_eq_false (Nat.not_lt.mpr hn), decide_eq_false (Nat.not_le.mpr hq)]; exact Bool.false_ne_true), hm]

end packets

/-! ## Rates, pauses and frames (R356) -/

section flow
variable {s : State} {port : Fin 24} {q : BitVec 12}

/-- The rate of a throttled queue pair is to rise. -/
def rateDue (s : State) (x : RoceQp) : Prop := ∃ t0 : W64, x.cnpAt = some t0 ∧ x.rate ≠ 0 ∧ t0.toNat + 1000 * s.mod.rocePeriod.toNat ≤ now s

/-- A queue pair whose rate has risen. -/
def rateRisen (s : State) (x : RoceQp) : RoceQp :=
  let r := x.rate + s.mod.roceRise.toNat
  { x with rate := if lineRate s ≤ r then 0 else r, cnpAt := if lineRate s ≤ r then none else some s.mod.time }

theorem exec_roceRateRecovery_early (h : ¬ rateDue s (getQp s q)) : exec (.roceRateRecovery q) s = .next s := by
  change Host.Outcome.next (match (getQp s q).cnpAt with | some t => _ | none => s) = _
  split
  · next t0 ht =>
    refine congrArg Host.Outcome.next (if_neg fun hc => h ⟨t0, ht, hc⟩)
  · rfl

theorem exec_roceRateRecovery_due (h : rateDue s (getQp s q)) : exec (.roceRateRecovery q) s = .next (putQp s q (rateRisen s (getQp s q))) := by
  obtain ⟨t0, ht, hc⟩ := h
  change Host.Outcome.next (match (getQp s q).cnpAt with | some t => _ | none => s) = _
  rw [ht]
  exact congrArg Host.Outcome.next (if_pos hc)

theorem ethUpPort_iff (x : Port) : (decide (x.st = .up) && isEth x) = true ↔ ethUpPort x := by
  rw [isEth, Bool.and_eq_true, decide_eq_true_eq, decide_eq_true_eq, ethUpPort]

theorem exec_ethFrameReceive_off (h : ¬ ethUpPort (getPort s port)) {fcs ovr : Bool} {bytes : List Byte} :
    exec (.ethFrameReceive port fcs ovr bytes) s = .next s := congrArg Host.Outcome.next (if_neg fun hc => h ((ethUpPort_iff _).mp hc))

theorem exec_ethFrameReceive_on (h : ethUpPort (getPort s port)) {fcs ovr : Bool} {bytes : List Byte} : exec (.ethFrameReceive port fcs ovr bytes) s
    = .next (if fcs = true ∧ ovr = false ∧ tagsOk bytes = true ∧ 64 ≤ bytes.length ∧ bytes.length ≤ 9216
        then { s with net := { s.net with ethRx := s.net.ethRx ++ [bytes] } }
        else putPort s port { getPort s port with cnt := { (getPort s port).cnt with framesDropped := (getPort s port).cnt.framesDropped + 1 } }) := by
  refine (congrArg Host.Outcome.next (if_pos ((ethUpPort_iff _).mpr h))).trans (congrArg Host.Outcome.next ?_)
  refine if_congr ?_ rfl rfl
  simp only [Bool.and_eq_true, Bool.not_eq_true', decide_eq_true_eq, and_assoc]

theorem exec_priorityFlowControl_off (h : ¬ ethUpPort (getPort s port)) {a b : Byte} : exec (.priorityFlowControl port a b) s = .next s :=
  congrArg Host.Outcome.next (if_neg fun hc => h ((ethUpPort_iff _).mp hc))

theorem exec_priorityFlowControl_on (h : ethUpPort (getPort s port)) {a b : Byte} : Goes (exec (.priorityFlowControl port a b) s) fun t =>
    getPort t port = { getPort s port with paused := ((getPort s port).paused ||| a) &&& ~~~b } := by
  refine ⟨_, congrArg Host.Outcome.next (if_pos ((ethUpPort_iff _).mpr h)), ?_⟩
  exact (getPort_of_ports (roceFlushAll_ports _) _).trans (getPort_putPort_same ..)

end flow

/-- Settles O42: by the rules of regions, requests, packets, rates and frames above. -/
theorem ethernetRole : Obligations.EthernetRole := by
  unfold Obligations.EthernetRole
  intro s w port r v wr q
  refine ⟨fun h g => next_finish (writeMr_enabled h g), fun h => ⟨next_finish (writeMr_register h), next_finish (writeMr_absent h), ?_⟩, exec_roceWrPost_malformed,
    ?_, fun a hw ha => exec_roceRequestComplete_acked hw ha, fun hw => ?_, exec_roceRetryTimeout_idle, fun hb ha => ⟨fun a rest hr he hp hw hread => ?_, fun hr he => ?_⟩,
    rfl, ⟨exec_roceRateRecovery_early, fun h => ?_⟩, fun a hp hl hn he hb hread ⟨rest, hw⟩ psn => ⟨fun hpsn => ?_, ?_, ?_⟩,
    fun psn va k n hp hl hn he => ⟨fun hpsn => ?_, fun hpsn hlen => ?_, fun hpsn hlen hq hm => ?_⟩, fun ce a h hq => ?_,
    fun fcs ovr bytes pause resume => ⟨fun h => ⟨exec_ethFrameReceive_off h, exec_priorityFlowControl_off h⟩,
      fun h => ⟨exec_priorityFlowControl_on h, exec_ethFrameReceive_on h⟩⟩⟩
  · split
    · next hv => exact ⟨next_finish ((writeMr_base h).trans (if_neg (not_not.mpr hv))), next_finish ((writeMr_len h).trans (if_neg (not_not.mpr hv)))⟩
    · next hv => exact ⟨next_finish ((writeMr_base h).trans (if_pos hv)), next_finish ((writeMr_len h).trans (if_pos hv))⟩
  · rintro hf rfl
    refine ⟨fun he => (exec_roceWrPost_formed hf).trans (congrArg Host.Outcome.next (if_pos he)), fun he hu => ?_, fun he hu hb hw => ?_, fun he hu hb hp hw hread => ?_⟩
    · refine (exec_roceWrPost_formed hf).trans (congrArg Host.Outcome.next ?_)
      rw [he, hu]
      rfl
    · rw [exec_roceWrPost_taken hf he hu, beginWr_begun (by rw [getQp_putQp_same]; exact hb)]
      rfl
    · refine ⟨_, exec_roceWrPost_taken hf he hu, rfl, ?_⟩
      rw [hw]
      have hq := getQp_putQp_same s (wrQp wr) { getQp s (wrQp wr) with wrs := [] ++ [wr] }
      refine (getQp_beginWr_read (by rw [hq]; rfl) (by rw [hq]; exact hb) (by rw [hq]; exact he) (by rw [hq]; exact hp) hread).trans ?_
      rw [hq]
      rfl
  · refine ⟨_, rfl, ?_⟩
    dsimp only
    rw [settleEth_qps, hw]
  · refine ⟨_, (exec_roceRetryTimeout_late hb ha).trans (congrArg Host.Outcome.next (if_pos hr)), ?_⟩
    have hq := getQp_putQp_same s q { getQp s q with begun := false, retries := (getQp s q).retries + 1, readOff := 0, txPsn := (getQp s q).msgPsn }
    refine (getQp_beginWr_read (by rw [hq]; exact hw) (by rw [hq]) (by rw [hq]; exact he) (by rw [hq]; exact hp) hread).trans ?_
    rw [hq]
    rfl
  · refine ⟨_, (exec_roceRetryTimeout_late hb ha).trans (congrArg Host.Outcome.next (if_neg (Nat.not_lt.mpr hr))), ?_⟩
    dsimp only
    rw [getQp_of_qps (settleEth_qps _), getQp_qpError he]
    exact ⟨rfl, rfl, rfl⟩
  · refine (exec_roceRateRecovery_due h).trans ?_
    unfold rateRisen
    dsimp only
    split <;> rfl
  · refine exec_rocePacketReceive_qp (k := .ack q psn) (p := fun y => y = _) hp hl hn he ?_
    dsimp only [rocePktTaken]
    rw [hw]
    dsimp only
    rw [hb, hread, hpsn]
    exact getQp_putQp_same ..
  · exact exec_rocePacketReceive_qp (k := .cnp q) (p := fun y => y = _) hp hl hn he (getQp_takeCnp s q)
  · refine exec_rocePacketReceive_qp (k := .nak q psn true) (p := fun y => y.error = true ∧ y.wrs = []) hp hl hn he ?_
    change (getQp (qpError s q port) q).error = true ∧ (getQp (qpError s q port) q).wrs = []
    rw [getQp_qpError he]
    exact ⟨rfl, rfl⟩
  · refine ⟨_, exec_rocePacketReceive_taken hp hl hn he, (settleEth_qps _).trans ?_⟩
    exact congrArg (fun s : State => s.net.qps) (if_neg hpsn)
  · refine exec_rocePacketReceive_qp (k := .readReq q psn va k n) (p := fun y => y.error = true ∧ .nak q psn false ∈ y.out ++ y.txq) hp hl hn he ?_
    rw [readReq_inSeq hpsn, takeRead_long hlen]
    exact refuseInvalid_naks (by rw [qpNext, getQp_putQp_same]; exact he)
  · refine exec_rocePacketReceive_qp (k := .readReq q psn va k n) (p := fun y => y.error = true ∧ .nak q psn true ∈ y.out ++ y.txq) hp hl hn he ?_
    rw [readReq_inSeq hpsn, takeRead_refused (s := qpNext s q) hlen (by rw [qpNext, getQp_putQp_same]; exact hq) hm]
    exact refuseAccess_naks (by rw [qpNext, getQp_putQp_same]; exact he)
  · subst hq
    exact exec_rocePacketReceive_dropped h

end Sys2Proof.Machine
end

section
/-!
PROOFS of the statements of the families '15_package_clocks_startup.md' and '16_reliability.md': what stands while a die or a tile is lost, and the rules
of that relation. Each function that gives a state has one rule, which cites those of the functions it calls.
-/
namespace Sys2Proof.Machine
open Sys2Proof

/-- A die but for its stream objects, weirs and watch accumulators, and a rejoin under way. -/
def dieView (x : Die) : Die :=
  { x with stream := .reset, recs := [], stq := [], reach := [], tlb := [], weirs := [], wacc := [], watchReady := false, join := none }

/-- An update of every value of a map reads as the value updated, where neither is the reset value. -/
theorem mget_mmap_kept {α : Type} [DecidableEq α] {d : α} {m : SMap α} {f : Nat → α → α} {k : Nat} (h : mget d m k ≠ d) (hf : f k (mget d m k) ≠ d) :
    mget d (mmap d m f) k = f k (mget d m k) := by
  induction m with
  | nil => exact absurd rfl h
  | cons e m ih =>
    obtain ⟨a, x⟩ := e
    rw [mget] at h hf ⊢
    by_cases ha : a = k
    · subst ha
      rw [if_pos rfl] at h hf ⊢
      have hkeep : mmap d ((a, x) :: m) f = (a, f a x) :: mmap d m f := by simp [mmap, hf]
      rw [hkeep, mget, if_pos rfl]
    · rw [if_neg ha] at h hf ⊢
      by_cases hx : f a x = d
      · have hskip : mmap d ((a, x) :: m) f = mmap d m f := by simp [mmap, hx]
        rw [hskip, ih h hf]
      · have hkeep : mmap d ((a, x) :: m) f = (a, f a x) :: mmap d m f := by simp [mmap, hx]
        rw [hkeep, mget, if_neg ha, ih h hf]

/-- A half but for its clock registers. -/
def halfView (x : Half) : Half :=
  { x with req := 0, limit := 0, step := 0, changes := 0, cycles := 0, thermal := 0, power := 0, spare8 := 0, lastChange := 0 }

/-- The module's registers but for the invalidations and the UCIe modules. -/
def modView (x : Mod) : Mod := { x with invalWait := [], ucie := 0 }

/-- What of a state o stands in a state s: the module's registers, the power unit, the states of dies and the maps of halves; stacks, edges and ports are as they
were, or offline, closed and off. (Of a die that is absent nothing is said: it may be stored as its reset value.) -/
structure Stands (o s : State) : Prop where
  mod : modView s.mod = modView o.mod
  power : s.power = o.power
  die : ∀ d, (getDie o d).st ≠ .absent → dieView (getDie s d) = dieView (getDie o d)
  half : ∀ i, halfView (getHalf s i) = halfView (getHalf o i)
  stack : ∀ n, (getStack s n).st = (getStack o n).st ∨ (getStack s n).st = .offline
  edge : ∀ e, (getEdge s e).st = (getEdge o e).st ∨ (getEdge s e).st = 0
  port : ∀ p, (getPort s p).st = (getPort o p).st ∨ (getPort s p).st = .off

/-- Blocks read and written leave the state of their stack. -/
theorem poisonBlk_st (k : Stack) (b : Nat) : (poisonBlk k b).st = k.st := by
  have hr : ∀ (x : Stack) (n : Nat), (retireFrame x n).st = x.st := fun x n => by
    unfold retireFrame
    dsimp only
    split <;> rfl
  exact hr _ b

theorem readBlk_st (k : Stack) (t : W64) (b : Nat) : (readBlk k t b).1.st = k.st := by
  unfold readBlk
  split
  exacts [rfl, rfl, poisonBlk_st k b, rfl]

theorem writeBlk_st (k : Stack) (t : W64) (b : Nat) (w : Bool) : (writeBlk k t b w).1.st = k.st := by
  unfold writeBlk
  split
  exacts [rfl, rfl, rfl, poisonBlk_st k b]

/-- What settles a stream object keeps what is looked at of its die. -/
theorem dieView_settleReach (x : Die) (n : BitVec 10) : dieView (settleReach x n) = dieView x := by
  unfold settleReach
  dsimp only
  repeat' split
  all_goals rfl

theorem dieView_settleStqP (x : Die) (q : BitVec 12) : dieView (settleStqP x q) = dieView x := by
  unfold settleStqP
  dsimp only
  split <;> rfl

namespace Stands
variable {o s t : State} {α β : Type}

theorem refl (s : State) : Stands s s := ⟨rfl, rfl, fun _ _ => rfl, fun _ => rfl, fun _ => .inl rfl, fun _ => .inl rfl, fun _ => .inl rfl⟩

/-- A value that is kept or has its last value, twice. -/
theorem orLast {γ : Type} {a b c l : γ} (h : b = a ∨ b = l) (k : c = b ∨ c = l) : c = a ∨ c = l := by
  obtain rfl | rfl := k
  · exact h
  · exact .inr rfl

/-- A die that is there stays there. -/
theorem present (h : Stands o s) (d : Nat) (hd : (getDie o d).st ≠ .absent) : (getDie s d).st ≠ .absent := by
  have hv := congrArg (fun x : Die => x.st) (h.die d hd)
  exact fun hs => hd (hv.symm.trans hs)

theorem trans (h : Stands o s) (k : Stands s t) : Stands o t :=
  ⟨k.mod.trans h.mod, k.power.trans h.power, fun d hd => (k.die d (h.present d hd)).trans (h.die d hd), fun i => (k.half i).trans (h.half i), fun n => orLast (h.stack n) (k.stack n),
    fun e => orLast (h.edge e) (k.edge e), fun p => orLast (h.port p) (k.port p)⟩

/-- States that agree on what is looked at. -/
theorem of_eq (h : Stands o s) (hm : modView t.mod = modView s.mod) (hw : t.power = s.power) (hd : t.dies = s.dies) (hh : t.halves = s.halves)
    (hs : t.hbmStacks = s.hbmStacks) (he : t.net.edges = s.net.edges) (hp : t.net.ports = s.net.ports) : Stands o t :=
  h.trans ⟨hm, hw, fun d _ => by rw [getDie, hd]; rfl, fun i => by rw [getHalf, hh]; rfl, fun n => .inl (by rw [getStack, hs]; rfl),
    fun e => .inl (by rw [getEdge, he]; rfl), fun p => .inl (by rw [getPort, hp]; rfl)⟩

/-- An update of anything else. -/
theorem frame (h : Stands o s)
    {pending log tiles hbm gather jobs pubs watches losses regions win mgmt fw sec jtag flash status owed freeCtr invalWait ucie
      blocks nextBlk markers nextMk prunes trees routes padds arrivals l6 reports peers peerLost peerSeen exchanged lands mrs qps ethRx heldG heldMsg parks fwRx ord} :
    Stands o { s with
      pending := pending, log := log, tiles := tiles, hbm := hbm, gather := gather, jobs := jobs, pubs := pubs, watches := watches, losses := losses
      regions := regions, win := win, mgmt := mgmt, fw := fw, sec := sec, jtag := jtag, flash := flash, status := status, owed := owed, freeCtr := freeCtr
      mod := { s.mod with invalWait := invalWait, ucie := ucie }
      net := { s.net with
        blocks := blocks, nextBlk := nextBlk, markers := markers, nextMk := nextMk, prunes := prunes, trees := trees, routes := routes, padds := padds
        arrivals := arrivals, l6 := l6, reports := reports, peers := peers, peerLost := peerLost, peerSeen := peerSeen, exchanged := exchanged, lands := lands
        mrs := mrs, qps := qps, ethRx := ethRx, heldG := heldG, heldMsg := heldMsg, parks := parks, fwRx := fwRx, ord := ord } } :=
  h.of_eq rfl rfl rfl rfl rfl rfl rfl

/-- A choice, in a state and in each part of a pair. -/
theorem ite {c : Prop} [Decidable c] (h : Stands o s) (k : Stands o t) : Stands o (if c then s else t) := by
  split <;> assumption

theorem iteFst {c : Prop} [Decidable c] {p q : State × α} (h : Stands o p.1) (k : Stands o q.1) : Stands o (if c then p else q).1 := by
  split <;> assumption

/-- A step repeated along a list. -/
theorem foldl {f : State → α → State} {l : List α} (h : Stands o s) (hf : ∀ s a, Stands o s → Stands o (f s a)) : Stands o (l.foldl f s) :=
  List.foldlRecOn (motive := fun t => Stands o t) l f h fun t ht a _ => hf t a ht

theorem foldlFst {f : State × β → α → State × β} {l : List α} {p : State × β} (h : Stands o p.1) (hf : ∀ p a, Stands o p.1 → Stands o (f p a).1) :
    Stands o (l.foldl f p).1 :=
  List.foldlRecOn (motive := fun p => Stands o p.1) l f h fun p hp a _ => hf p a hp

/-- The state that a function answers with, taken from its pair. -/
theorem ofFst {p : State × α} {x : α} (hp : p = (t, x)) (h : Stands o p.1) : Stands o t := by
  rwa [hp] at h

/-! ## Updates of one object -/

theorem putTile {u : W16} {x : Tile} (h : Stands o s) : Stands o (Machine.putTile s u x) := h.frame

theorem modTile {u : W16} {f : Tile → Tile} (h : Stands o s) : Stands o (Machine.modTile s u f) := h.putTile

theorem putJob {j : BitVec 2} {x : Job} (h : Stands o s) : Stands o (Machine.putJob s j x) := h.frame

theorem modJob {j : BitVec 2} {f : Job → Job} (h : Stands o s) : Stands o (Machine.modJob s j f) := h.putJob

theorem putDie {d : Nat} {x : Die} (h : Stands o s) (hx : dieView x = dieView (getDie s d)) : Stands o (Machine.putDie s d x) := by
  refine h.trans { refl s with die := fun e _ => ?_ }
  change dieView (mget Die.reset (mset Die.reset s.dies d x) e) = _
  rw [mget_mset]
  split
  case isTrue he => rw [he, hx]
  case isFalse => rfl

theorem modDie {d : Nat} {f : Die → Die} (h : Stands o s) (hf : ∀ x, dieView (f x) = dieView x) : Stands o (Machine.modDie s d f) := h.putDie (hf _)

/-- Dies updated one by one, with what is looked at here kept. -/
theorem mapDies {f : Nat → Die → Die} (h : Stands o s) (hd : t.dies = mmap Die.reset s.dies f)
    (hf : ∀ k x, dieView (f k x) = dieView x) (hk : Stands s { t with dies := s.dies }) : Stands o t := by
  refine h.trans { hk with die := fun k hk => ?_ }
  have hne : getDie s k ≠ Die.reset := fun he => hk (by rw [he]; rfl)
  have hst : (f k (getDie s k)).st = (getDie s k).st := by
    have hv := congrArg (fun x : Die => x.st) (hf k (getDie s k))
    exact hv
  have hfne : f k (getDie s k) ≠ Die.reset := fun he => hk (by rw [← hst, he]; rfl)
  have hget : getDie t k = f k (getDie s k) := (congrArg (mget Die.reset · k) hd).trans (mget_mmap_kept hne hfne)
  exact (congrArg dieView hget).trans (hf k _)

theorem putHalf {i : Nat} {x : Half} (h : Stands o s) (hx : halfView x = halfView (getHalf s i)) : Stands o (Machine.putHalf s i x) := by
  refine h.trans { refl s with half := fun k => ?_ }
  change halfView (mget Half.reset (mset Half.reset s.halves i x) k) = _
  rw [mget_mset]
  split
  case isTrue hk => rw [hk, hx]
  case isFalse => rfl

theorem putStack {n : Nat} {x : Stack} (h : Stands o s) (hx : x.st = (getStack s n).st ∨ x.st = .offline) :
    Stands o (Machine.putStack s n x) := by
  refine h.trans { refl s with stack := fun k => ?_ }
  change (mget Stack.reset (mset Stack.reset s.hbmStacks n x) k).st = _ ∨ (mget Stack.reset (mset Stack.reset s.hbmStacks n x) k).st = _
  rw [mget_mset]
  split
  case isTrue hk => rw [hk]; exact hx
  case isFalse => exact .inl rfl

theorem putEdge {e : Nat} {x : Edge} (h : Stands o s) (hx : x.st = (getEdge s e).st ∨ x.st = 0) : Stands o (Machine.putEdge s e x) := by
  refine h.trans { refl s with edge := fun k => ?_ }
  change (mget Edge.reset (mset Edge.reset s.net.edges e x) k).st = _ ∨ (mget Edge.reset (mset Edge.reset s.net.edges e x) k).st = _
  rw [mget_mset]
  split
  case isTrue hk => rw [hk]; exact hx
  case isFalse => exact .inl rfl

theorem putPort {p : Nat} {x : Port} (h : Stands o s) (hx : x.st = (getPort s p).st ∨ x.st = .off) : Stands o (Machine.putPort s p x) := by
  refine h.trans { refl s with port := fun k => ?_ }
  rw [getPort_putPort]
  split
  case isTrue hk => rw [hk]; exact hx
  case isFalse => exact .inl rfl

theorem resetHalf {d : Nat} {h1 : Bool} (h : Stands o s) : Stands o (Machine.resetHalf s d h1) := h.putHalf rfl

theorem shutEdge {e : Nat} (h : Stands o s) : Stands o (Machine.shutEdge s e) := h.putEdge (.inr rfl)

/-! ## Events and records (R458-R463) -/

theorem raiseEvent {kind : Nat} {obj : W16} {body : List Byte} {sev : BitVec 2} (h : Stands o s) : Stands o (Machine.raiseEvent s kind obj body sev) := by
  rw [raiseEvent_mgmt]
  exact h.frame

theorem setJobSt {j : BitVec 2} {st : JobSt} (h : Stands o s) : Stands o (Machine.setJobSt s j st) := h.modJob.raiseEvent

theorem payLate {l : Late} {st : Byte} (h : Stands o s) : Stands o (Machine.payLate s l st) := .ite h.frame h

theorem hbmPut1 {pa : Nat} {bs : List Byte} (h : Stands o s) : Stands o (Machine.hbmPut1 s pa bs).1 := by
  have hk : Stands o (Machine.putStack s (paStack pa) (writeBlk (getStack s (paStack pa)) s.mod.time (pa % 2 ^ 36 / 64) (decide (bs.length = 64))).1) :=
    h.putStack (.inl (writeBlk_st ..))
  exact .iteFst (.iteFst hk.frame hk) h

theorem hbmPut {pa : Nat} {bs : List Byte} (h : Stands o s) : Stands o (Machine.hbmPut s pa bs).1 := h.foldlFst fun _ _ h => h.hbmPut1

theorem hbmGet {pa n : Nat} (h : Stands o s) : Stands o (Machine.hbmGet s pa n).1 :=
  h.foldlFst fun _ _ h => .iteFst (h.putStack (.inl (readBlk_st ..))) h

theorem ringAppend {r : ErrRec} (h : Stands o s) : Stands o (Machine.ringAppend s r) := .ite (.ite h (.ite h.hbmPut.modJob h.modJob)) h

theorem record {r : ErrRec} (h : Stands o s) (hr : r.sev ≠ 3) : Stands o (putRecord s r).1 := by
  simp only [putRecord, hr, if_false]
  split
  · exact .raiseEvent (.ringAppend h.frame)
  · exact .ringAppend h.frame

theorem err1 {e : Err} (h : Stands o s) (he : e.sev ≠ 3) : Stands o (putErr1 s e).1 := by
  unfold putErr1
  split
  · exact h.frame
  · exact .record (.ite h.frame h) he

theorem putErr {e : Err} (h : Stands o s) (he : e.sev ≠ 3) : Stands o (Machine.putErr s e) :=
  h.trans (putErr_keeps (R := Stands) (fun _ _ _ => trans) (fun s _ he => (refl s).err1 he) s he)

/-! ## Functions of the model, in its order -/

theorem freshWord (h : Stands o s) : Stands o (Machine.freshWord s).2 := h.frame

theorem putTree {n : BitVec 10} {x : Tree} (h : Stands o s) : Stands o (Machine.putTree s n x) := h.frame

theorem putPub {e : Nat} {x : Pub} (h : Stands o s) : Stands o (Machine.putPub s e x) := h.frame

theorem hbmStore {pa : Nat} {bs : List Byte} {job : Option (BitVec 2)} (h : Stands o s) : Stands o (Machine.hbmStore s pa bs job).1 :=
  .ite (.putErr h.hbmPut (by simp [hbmDataErr])) h.hbmPut

theorem markDue {t : W16} (h : Stands o s) : Stands o (Machine.markDue s t) := h.foldl fun _ _ h => by dsimp only; split; exacts [.ite h.putTile h, h]

theorem acntAdd {t : W16} {k : Nat} {n : W64} (h : Stands o s) : Stands o (Machine.acntAdd s t k n) := h.modTile.markDue

theorem arriveCount {t : W16} {k : Nat} {j : BitVec 2} (h : Stands o s) : Stands o (Machine.arriveCount s t k j) :=
  .ite h.acntAdd (h.putErr (by simp [tileErr]))

theorem dropHandle {die : Nat} {t : W16} {j : BitVec 2} (h : Stands o s) : Stands o (Machine.dropHandle s die t j) :=
  .putErr (.modDie h fun _ => rfl) (by simp)

theorem pushHandle {die : Nat} {q : BitVec 13} {t : W16} {j : BitVec 2} {h0 : W32} {src : PushSrc} (h : Stands o s) :
    Stands o (Machine.pushHandle s die q t j h0 src).1 :=
  .iteFst h (.iteFst (.iteFst (.iteFst (h.putDie rfl) (h.putDie rfl)) h.dropHandle) (.iteFst (.iteFst h.putTile h.putTile) h.dropHandle))

theorem slotDrain {t : W16} {k : Nat} (h : Stands o s) : Stands o (Machine.slotDrain s t k) :=
  .ite (.ite h.putTile (by dsimp only; split; exacts [h.putTile.pushHandle.modTile, h.putTile.pushHandle])) h

theorem modRec {die : Nat} {r : BitVec 9} {f : XferRec → XferRec} (h : Stands o s) : Stands o (Machine.modRec s die r f) := h.modDie fun _ => rfl

theorem parkFault {die : Nat} {r : BitVec 9} {l : Leg} {f : BitVec 3 × Bool × W64} (h : Stands o s) : Stands o (Machine.parkFault s die r l f) := by
  unfold Machine.parkFault
  exact .putErr (.modDie h.modRec fun _ => rfl) (by simp [streamErr])

theorem settleRec {die : Nat} {r : BitVec 9} (h : Stands o s) : Stands o (Machine.settleRec s die r) :=
  .ite h (.ite (.ite h.modRec h) (by split; exacts [by split; exacts [.ite h.parkFault h, h], h]))

theorem settleInval (h : Stands o s) : Stands o (Machine.settleInval s) := .ite h.payLate h

theorem stepGone {die : Nat} {r : BitVec 9} {id : Nat} (h : Stands o s) : Stands o (Machine.stepGone s die r id) := h.modRec.frame.settleInval.settleRec

theorem stepFails {die : Nat} {r : BitVec 9} {id : Nat} {cause : Byte} {info : Option W64} (h : Stands o s) :
    Stands o (Machine.stepFails s die r id cause info) := by
  unfold Machine.stepFails
  dsimp only
  split
  exacts [h.modRec.stepGone, h]

theorem sendFlit {p : Nat} {typ : BitVec 2} {vl : Nat} {seq : BitVec 12} {len : Nat} {k : Option (Pkt × Nat)} (h : Stands o s) :
    Stands o (Machine.sendFlit s p typ vl seq len k) := h.putPort (.inl rfl)

theorem sendPart {p : Nat} {f : TxFlit} (h : Stands o s) : Stands o (Machine.sendPart s p f) := h.sendFlit

theorem sendLane {p : Nat} {k : Pkt} {i : Nat} {turn : Nat × Nat} (h : Stands o s) : Stands o (Machine.sendLane s p k i turn) := h.sendPart.putPort (.inl rfl)

theorem pumpPort {n p : Nat} (h : Stands o s) : Stands o (Machine.pumpPort n s p) := by
  induction n generalizing s with
  | zero => exact h
  | succ n ih =>
    refine .ite ?_ h
    split
    · split
      exacts [ih h.sendLane, h]
    · exact h

theorem pump {n : Nat} (h : Stands o s) : Stands o (Machine.pump s n) := .ite (.putPort h.pumpPort (.inl rfl)) h.pumpPort

theorem pushPkt {n : Nat} {k : Pkt} (h : Stands o s) : Stands o (Machine.pushPkt s n k) := .ite (.pump (h.putPort (.inl rfl))) h

theorem sendCtrl {k : Nat} {m : CtrlMsg} (h : Stands o s) : Stands o (Machine.sendCtrl s k m) := .ite h.pushPkt h

theorem onDies {ds : List Nat} {n : BitVec 12} {f : Weir → Weir} (h : Stands o s) : Stands o (Machine.onDies s ds n f) := h.foldl fun _ _ h => h.modDie (fun _ => rfl)

theorem putL6 {n : BitVec 12} {x : WeirL6} (h : Stands o s) : Stands o (Machine.putL6 s n x) := h.frame

theorem tellPeers {m : CtrlMsg} (h : Stands o s) : Stands o (Machine.tellPeers s m) := h.foldl fun _ _ h => h.sendCtrl

theorem sendRelease {d : Nat} {n : BitVec 12} {lost : Bool} (h : Stands o s) : Stands o (Machine.sendRelease s d n lost) :=
  .ite (.putErr (.ite h.onDies.putL6 h.onDies) (by simp [weirErr])) (.ite h.onDies.putL6 h.onDies)

theorem releaseLost {d : Nat} {n : BitVec 12} (h : Stands o s) : Stands o (Machine.releaseLost s d n) :=
  .ite h.onDies (.sendRelease (.ite h.onDies.tellPeers h.onDies))

theorem loseMembers {lost : W16 → Bool} {gone : Nat → Bool} (h : Stands o s) : Stands o (Machine.loseMembers s lost gone) :=
  .foldl (.mapDies (f := fun d x => { x with weirs := if gone d then [] else mmap Weir.reset x.weirs fun _ w =>
    { w with members := w.members.filter (!lost ·), arrived := w.arrived.filter (!lost ·) } }) h rfl (fun _ _ => rfl) (.refl s)) fun _ _ h => h.releaseLost

theorem dropBlk {i : Nat} (h : Stands o s) : Stands o (Machine.dropBlk s i) := h.frame

theorem addMarker {tile : W16} {acnt : BitVec 6} {cause : Byte} {job : BitVec 2} (h : Stands o s) :
    Stands o (Machine.addMarker s tile acnt cause job) := h.frame

theorem markTiles {b : Block} {ts : List W16} {cause : Byte} (h : Stands o s) : Stands o (Machine.markTiles s b ts cause) :=
  .ite h (h.foldl fun _ _ h => h.addMarker)

theorem loseBlk {i : Nat} {b : Block} {cause : Byte} (h : Stands o s) : Stands o (Machine.loseBlk s i b cause) := by
  unfold Machine.loseBlk
  split
  exacts [h.dropBlk.stepFails, h.dropBlk]

theorem abandonRound {n : BitVec 10} {p : Pos} {ins : List (Nat × Block)} {b : Block} {who : W16} (h : Stands o s) :
    Stands o (Machine.abandonRound s n p ins b who) := 
  .markTiles (.putErr (h.foldl fun _ _ h => h.dropBlk) (by simp [routerErr]))

theorem breakTrees {lost : W16 → Bool} {who : W16} (h : Stands o s) : Stands o (Machine.breakTrees s lost who) :=
  h.foldl fun _ _ h => .putTree (h.foldl fun _ _ h => by dsimp only; split; exacts [h.abandonRound, h])

theorem checkFinished {j : BitVec 2} (h : Stands o s) : Stands o (Machine.checkFinished s j) := .ite h.setJobSt h

theorem checkPaused {j : BitVec 2} (h : Stands o s) : Stands o (Machine.checkPaused s j) := .ite h.setJobSt h

theorem failReqs {n : Nat} (h : Stands o s) : Stands o (Machine.failReqs s n) :=
  .foldl (h.putStack (.inl rfl)) fun _ _ h => h.stepFails

theorem readPte {job : BitVec 2} {world : Bool} {pa : Nat} (h : Stands o s) : Stands o (Machine.readPte s job world pa).1 :=
  .iteFst (h.putErr (memWorldErr_sev pa (some job))) h.hbmGet

theorem walk {job : BitVec 2} {world : Bool} {view : W64} {va : Nat} {dst : Bool} (h : Stands o s) :
    Stands o (Machine.walk s job world view va dst).1 := by
  refine .iteFst h (.iteFst h.readPte ?_)
  exact .iteFst h.readPte (.iteFst h.readPte (.iteFst h.readPte.readPte (.iteFst h.readPte.readPte (.iteFst h.readPte.readPte h.readPte.readPte))))

theorem settleViews {j : BitVec 2} (h : Stands o s) : Stands o (Machine.settleViews s j) := by
  unfold Machine.settleViews
  exact .modJob (h.foldl fun _ _ h => h.putPub)

theorem freeRecord {die : Nat} {r : BitVec 9} (h : Stands o s) : Stands o (Machine.freeRecord s die r) := by
  unfold Machine.freeRecord
  refine h.modDie fun x => ?_
  dsimp only
  split
  exacts [dieView_settleReach .., dieView_settleStqP ..]

theorem sweepRec {die : Nat} {r : BitVec 9} (h : Stands o s) : Stands o (Machine.sweepRec s die r) := .ite h.freeRecord h

theorem legDone {die : Nat} {r : BitVec 9} {n : Nat} (h : Stands o s) : Stands o (Machine.legDone s die r n) :=
  .settleViews (.ite h.modRec.freeRecord h.modRec)

theorem pushReleased {p : HeldPush} (h : Stands o s) : Stands o (Machine.pushReleased s p) := by
  unfold Machine.pushReleased
  split
  · exact .ite h.modTile.slotDrain h.modTile
  · split
    exacts [h.legDone, h]
  · exact h

theorem abortRec {die : Nat} {r : BitVec 9} {cause : Byte} (h : Stands o s) : Stands o (Machine.abortRec s die r cause) := h.modRec

theorem abortRecs {die : Nat} {rs : List (BitVec 9)} {cause : Byte} (h : Stands o s) : Stands o (Machine.abortRecs s die rs cause) :=
  h.foldl fun _ _ h => h.abortRec.sweepRec

theorem dropHeld {die : Nat} {t : W16} {ps : List HeldPush} (h : Stands o s) : Stands o (Machine.dropHeld s die t ps) :=
  h.foldl fun _ _ h => h.dropHandle.pushReleased

theorem abortReach {die : Nat} {n : BitVec 10} {cause : Byte} (h : Stands o s) : Stands o (Machine.abortReach s die n cause) := by
  unfold Machine.abortReach
  exact .modDie (.abortRecs (h.modDie fun _ => rfl)) fun x => dieView_settleReach x n

theorem dropPkt {p : Nat} {k : Pkt} (h : Stands o s) : Stands o (Machine.dropPkt s p k) := by
  unfold Machine.dropPkt
  split
  exacts [h.putErr (by simp [routerErr]), .ite h.dropHandle h, by split; exacts [h.pushPkt, h], h, h]

theorem dropPkts {p : Nat} {ks : List Pkt} (h : Stands o s) : Stands o (Machine.dropPkts s p ks) :=
  .foldl (h.putPort (.inl rfl)) fun _ _ h => h.dropPkt

theorem dropPopped {p : Nat} (h : Stands o s) : Stands o (Machine.dropPopped s p) :=
  .foldl (h.putPort (.inl rfl)) fun _ _ h => h.dropHandle

theorem vaMap {job : BitVec 2} {dst : Bool} {l : List (Nat × Nat)} (h : Stands o s) : Stands o (Machine.vaMap job dst l s).1 := by
  induction l generalizing s with
  | nil => exact h
  | cons e l ih =>
    unfold Machine.vaMap
    split
    · next t a _ _ heq =>
      have ht : Stands o t := .ofFst heq h.walk
      refine .iteFst (ht.putErr (memWorldErr_sev a (some job))) ?_
      split
      · next u _ heq => exact .ofFst heq (ih ht)
      · exact ih ht
    · next t _ _ heq => exact .ofFst heq h.walk
    · next t _ _ heq => exact .ofFst heq h.walk
    · next t _ heq => exact .ofFst heq h.walk

theorem vaWrite {job : BitVec 2} {va : Nat} {bs : List Byte} (h : Stands o s) : Stands o (Machine.vaWrite s job va bs).1 := by
  unfold Machine.vaWrite
  split
  · next t _ heq =>
    exact .ofFst heq h.vaMap
  · next t _ heq =>
    have ht : Stands o t := .ofFst heq h.vaMap
    exact ht.foldlFst fun _ _ h => h.hbmStore

theorem unpark {o0 : ParkOwner} (h : Stands o s) : Stands o (Machine.unpark s o0) := h.frame

theorem parkAccess {die : Nat} {o0 : ParkOwner} {e : W32 → Err} (h : Stands o s) (he : ∀ n, (e n).sev ≠ 3) : Stands o (Machine.parkAccess s die o0 e) := by
  have hc : Stands o (Machine.modDie (Machine.freshWord s).2 die fun d => { d with stream := { d.stream with faults := d.stream.faults + 1 } }) := 
    h.freshWord.modDie fun _ => rfl
  unfold Machine.parkAccess
  exact .putErr hc.frame (he _)

theorem putGath {g : Gather} (h : Stands o s) : Stands o (Machine.putGath s g) := h.frame

theorem gTellUp {g : Gather} {what : BitVec 2} {n : Nat} (h : Stands o s) : Stands o (Machine.gTellUp s g what n) := .ite h h.pushPkt

theorem gTellDown {g : Gather} {what : BitVec 2} {n : Nat} (h : Stands o s) : Stands o (Machine.gTellDown s g what n) := h.foldl fun _ _ h => h.pushPkt

theorem dropStale (h : Stands o s) : Stands o (Machine.dropStale s) := h.frame

theorem endReshard {j : BitVec 2} {st : Byte} {ep : Option W16} (h : Stands o s) : Stands o (Machine.endReshard s j st ep) := h.modJob.dropStale.payLate

theorem settleReshard {j : BitVec 2} (h : Stands o s) : Stands o (Machine.settleReshard s j) := by
  unfold Machine.settleReshard
  split
  exacts [.ite h h.endReshard, h]

theorem gTell {g : Gather} {st : Byte} (h : Stands o s) : Stands o (Machine.gTell s g st) :=
  .ite h (.ite (h.putErr (by simp [gatherErr])) (.ite h.arriveCount h.addMarker))

theorem gClose {g : Gather} {st : Byte} (h : Stands o s) : Stands o (Machine.gClose s g st) :=
  .settleReshard (.ite h.unpark.gTell.frame (.putErr h.unpark.gTell.frame (gatherErr_sev _ g st)))

theorem gPark {g : Gather} {f : BitVec 3} {va : Nat} {dst : Bool} (h : Stands o s) : Stands o (Machine.gPark s g f va dst) := by
  unfold Machine.gPark
  exact h.putGath.parkAccess fun _ => by simp [vaFaultErr]

theorem gFailClose {g : Gather} {st : Byte} (h : Stands o s) : Stands o (Machine.gFailClose s g st) := by
  refine .ite h.unpark.gClose ?_
  split
  · next t _ _ heq =>
    have ht : Stands o t := .ofFst heq h.unpark.vaWrite
    exact ht.gPark
  · next t _ _ heq =>
    have ht : Stands o t := .ofFst heq h.unpark.vaWrite
    exact ht.gClose

theorem gAbandon {g : Gather} {st : Byte} (h : Stands o s) : Stands o (Machine.gAbandon s g st) := .ite h.gClose h.gTellUp.gTellDown.gFailClose

theorem gFail {g : Gather} {st : Byte} (h : Stands o s) : Stands o (Machine.gFail s g st) := .ite h.gTellUp.gTellDown.gFailClose h.gAbandon

theorem gRestartRoot {g : Gather} (h : Stands o s) : Stands o (Machine.gRestartRoot s g) :=
  .ite h.gAbandon h.freshWord.unpark.frame.putGath.dropStale.gTellDown

theorem gChildLost {g : Gather} {p : Nat} (h : Stands o s) : Stands o (Machine.gChildLost s g p) := .ite h.putGath.gRestartRoot h.putGath.gTellUp

theorem gPortLost {p : Nat} {ks : List GKey} (h : Stands o s) : Stands o (Machine.gPortLost s p ks) :=
  h.foldl fun _ _ h => by split; exacts [.ite h (.ite h.gFail (.ite (.ite h.gChildLost h.gAbandon) h)), h]

theorem gHomeLost {d : Nat} {cause : Byte} (h : Stands o s) : Stands o (Machine.gHomeLost s d cause) :=
  h.foldl fun _ _ h => by split; exacts [h.gFail, h]

theorem settleJobs (h : Stands o s) : Stands o (Machine.settleJobs s) := h.foldl fun _ _ h => h.checkFinished.checkPaused

theorem fenceRec {d : Nat} {r : BitVec 9} {t : W16} (h : Stands o s) : Stands o (Machine.fenceRec s d r t) :=
  .ite h (.ite (.ite h.abortRec.sweepRec h) (by dsimp only; split; exacts [.ite h.modRec.modRec h.modRec, h.modRec]))

theorem fenceXfers {t : W16} (h : Stands o s) : Stands o (Machine.fenceXfers s t) :=
  h.foldl fun _ _ h => .foldl (h.foldl fun _ _ h => h.abortReach) fun _ _ h => h.fenceRec

theorem fencePushes {t : W16} (h : Stands o s) : Stands o (Machine.fencePushes s t) := by
  unfold Machine.fencePushes
  exact .foldl (.mapDies (f := fun _ d => { d with stq := mmap Stq.reset d.stq fun _ q => { q with
    held := q.held.filter fun p => !match p.src with | .slot u _ _ => decide (u = t) | _ => false } }) h rfl (fun _ _ => rfl) (.frame (.refl s))) fun _ _ h => h.dropHeld

theorem endTrees {t : W16} (h : Stands o s) : Stands o (Machine.endTrees s t) := h.frame

theorem putQp {q : BitVec 12} {x : RoceQp} (h : Stands o s) : Stands o (Machine.putQp s q x) := h.frame

theorem failQp {q : BitVec 12} {st : Byte} (h : Stands o s) : Stands o (Machine.failQp s q st) := h.unpark.putQp

theorem abortRoce {p : Nat} (h : Stands o s) : Stands o (Machine.abortRoce s p) := h.foldl fun _ _ h => h.failQp

theorem portDrops {p : Nat} (h : Stands o s) : Stands o (Machine.portDrops s p) :=
  .ite h.dropPkts.dropPopped.gPortLost.abortRoce h.dropPkts.dropPopped.gPortLost

theorem loseBlocks {d : Nat} (h : Stands o s) : Stands o (Machine.loseBlocks s d) := h.foldl fun _ _ h => h.loseBlk

theorem loseTrees {d : Nat} (h : Stands o s) : Stands o (Machine.loseTrees s d) := h.breakTrees
/-! ## What goes with a die (R440) -/

theorem setStackSt {n : Nat} {f : Stack → Stack} (h : Stands o s) (hf : (f (getStack s n)).st = (getStack s n).st ∨ (f (getStack s n)).st = .offline) :
    Stands o (Machine.setStackSt s n f) :=
  (h.putStack hf).raiseEvent

theorem loseStack {d : Nat} (h : Stands o s) : Stands o (Machine.loseStack s d) := by
  unfold Machine.loseStack
  exact (h.failReqs.setStackSt (.inr rfl)).frame

/-- A port that goes down, and is off in the end. -/
theorem portLost {p : Nat} {f g : Port → Port} (h : Stands o s) (k : Stands (Machine.setPort s p f) t) (hg : ∀ x, (g x).st = .off) :
    Stands o (Machine.setPort t p g) := by
  obtain ⟨m, hm⟩ := setPort_eq s p f
  obtain ⟨n, hn⟩ := setPort_eq t p g
  rw [hm] at k
  rw [hn]
  refine h.trans ⟨k.mod, k.power, k.die, k.half, k.stack, k.edge, fun q => ?_⟩
  change (getPort (Machine.putPort t p (g (getPort t p))) q).st = _ ∨ (getPort (Machine.putPort t p (g (getPort t p))) q).st = _
  rw [getPort_putPort]
  split
  case isTrue => exact .inr (hg _)
  case isFalse hq =>
    have hp : getPort { Machine.putPort s p (f (getPort s p)) with mgmt := m } q = getPort s q := (getPort_putPort ..).trans (if_neg hq)
    exact hp ▸ k.port q

theorem losePorts {d : Nat} (h : Stands o s) : Stands o (Machine.losePorts s d) := by
  unfold Machine.losePorts
  exact .foldl h.frame fun s p h => .portLost h (.frame (.portDrops (refl _))) fun _ => rfl

theorem loseObjects {d : Nat} (h : Stands o s) : Stands o (Machine.loseObjects s d) := by
  have hd : Stands o (Machine.modDie s d fun x => { wipeDie x with wacc := lostAccs s d }) := h.modDie fun _ => rfl
  unfold Machine.loseObjects
  exact .foldl (.settleInval hd.frame) fun _ _ h => h.settleViews

/-! ## What is off, closed or offline stays so -/

theorem off {p : Nat} (h : Stands s t) (hp : (getPort s p).st = .off) : (getPort t p).st = .off := (h.port p).elim (·.trans hp) id

theorem closed {e : Nat} (h : Stands s t) (he : (getEdge s e).st = 0) : (getEdge t e).st = 0 := (h.edge e).elim (·.trans he) id

theorem offline {n : Nat} (h : Stands s t) (hn : (getStack s n).st = .offline) : (getStack t n).st = .offline := (h.stack n).elim (·.trans hn) id

/-- What a step makes so for its element is so in the end, where every step leaves it. -/
theorem foldl_makes {f : State → α → State} {Q : State → Prop} {l : List α} {a : α} (ha : a ∈ l) (hf : ∀ s b, Stands s (f s b)) (hk : ∀ s t, Stands s t → Q s → Q t)
    (hm : ∀ s, Q (f s a)) (s : State) : Q (l.foldl f s) := by
  induction l generalizing s with
  | nil => cases ha
  | cons b l ih =>
    by_cases hb : a ∈ l
    · exact ih hb _
    · obtain rfl : a = b := (List.mem_cons.mp ha).resolve_right hb
      exact hk (f s a) (l.foldl f (f s a)) (.foldl (refl _) fun t c h => h.trans (hf t c)) (hm s)

end Stands

/-! ## A die lost (R440, R445) -/

section dies
variable {s : State} {d : Nat}

/-- The port of a lost die is off. -/
theorem losePorts_off {p : Nat} (hp : p < 24) (hd : portDie p = d) : (getPort (losePorts s d) p).st = .off := by
  unfold losePorts
  refine Stands.foldl_makes (Q := fun t => (getPort t p).st = .off) (a := p) (by simp [hp, hd])
    (fun s q => .portLost (.refl s) (.frame (.portDrops (.refl _))) fun _ => rfl) (fun _ _ h => h.off) (fun s => ?_) _
  rw [getPort_setPort_same]
  rfl

/-- The edges of a lost die are closed. -/
theorem shutEdges_closed {e : Nat} (he : e ∈ dieEdges d) : (getEdge ((dieEdges d).foldl shutEdge s) e).st = 0 :=
  Stands.foldl_makes (f := shutEdge) (Q := fun t => (getEdge t e).st = 0) he (fun s _ => .shutEdge (.refl s)) (fun _ _ h => h.closed)
    (fun s => congrArg (fun x : Edge => x.st) (mget_mset_same Edge.reset s.net.edges e Edge.reset)) s

theorem loseStack_offline (s : State) (d : Nat) : (getStack (loseStack s d) d).st = .offline := by
  have hst : ∀ (u : State) (f : Stack → Stack), (∀ k, (f k).st = .offline) → (getStack (setStackSt u d f) d).st = .offline := fun u f hf => by
    unfold setStackSt
    rw [raiseEvent_mgmt]
    exact (congrArg (fun k : Stack => k.st) (mget_mset_same Stack.reset u.hbmStacks d (f (getStack u d)))).trans (hf _)
  exact hst (failReqs s d) _ fun _ => rfl

/-- A lost die cut off: its edges, weirs, trees, gatherings and ports. -/
def dieCut (s : State) (d : Nat) : State :=
  let s := (dieEdges d).foldl shutEdge s
  let s := loseTrees (loseMembers s (fun u => decide (tDie u = d)) (fun e => decide (e = d))) d
  losePorts (gHomeLost s d cDieLost) d

/-- A lost die cleared: its blocks, stack and objects, and the clocks of its halves. -/
def dieCleared (s : State) (d : Nat) : State :=
  let s := loseStack (loseBlocks s d) d
  resetHalf (resetHalf (loseObjects s d) d false) d true

/-- The UCIe module of a lost die is lost. -/
def ucieLost (s : State) (d : Nat) : State :=
  match dieUcie d with
  | some u => { s with mod := { s.mod with ucie := setFld s.mod.ucie u 1 0 } }
  | none => s

/-- A lost die without what it holds, before its state changes. -/
def dieEmptied (s : State) (d : Nat) : State := ucieLost (dieCleared (dieCut s d) d) d

theorem dieCut_stands (s : State) (d : Nat) : Stands s (dieCut s d) ∧ (∀ e ∈ dieEdges d, (getEdge (dieCut s d) e).st = 0)
    ∧ ∀ p, p < 24 → portDie p = d → (getPort (dieCut s d) p).st = .off := by
  have hsa : Stands s ((dieEdges d).foldl shutEdge s) := .foldl (.refl s) fun _ _ h => h.shutEdge
  have hab : Stands ((dieEdges d).foldl shutEdge s) (dieCut s d) := .losePorts (.gHomeLost (.loseTrees (.loseMembers (.refl _))))
  exact ⟨hsa.trans hab, fun e he => hab.closed (shutEdges_closed he), fun p hp hd => losePorts_off hp hd⟩

theorem dieCleared_stands (s : State) (d : Nat) : Stands s (dieCleared s d) ∧ (getStack (dieCleared s d) d).st = .offline := by
  have hsa : Stands s (loseStack (loseBlocks s d) d) := .loseStack (.loseBlocks (.refl s))
  have hab : Stands (loseStack (loseBlocks s d) d) (dieCleared s d) := .resetHalf (.resetHalf (.loseObjects (.refl _)))
  exact ⟨hsa.trans hab, hab.offline (loseStack_offline ..)⟩

theorem ucieLost_stands (s : State) (d : Nat) : Stands s (ucieLost s d) := by
  unfold ucieLost
  split
  · exact (Stands.refl s).frame
  · exact .refl s

theorem dieEmptied_stands (s : State) (d : Nat) : Stands s (dieEmptied s d) ∧ (getStack (dieEmptied s d) d).st = .offline
    ∧ (∀ e ∈ dieEdges d, (getEdge (dieEmptied s d) e).st = 0) ∧ ∀ p, p < 24 → portDie p = d → (getPort (dieEmptied s d) p).st = .off := by
  obtain ⟨hcut, hedge, hport⟩ := dieCut_stands s d
  obtain ⟨hclear, hstack⟩ := dieCleared_stands (dieCut s d) d
  have hlast := ucieLost_stands (dieCleared (dieCut s d) d) d
  exact ⟨(hcut.trans hclear).trans hlast, hlast.offline hstack, fun e he => (hclear.trans hlast).closed (hedge e he),
    fun p hp hd => (hclear.trans hlast).off (hport p hp hd)⟩

/-- The die after the loss: HELD with its cause, its contents gone. -/
def dieLost (s : State) (d : Nat) (cause : BitVec 5) : State :=
  let u := dieEmptied s d
  let t := setDieSt u d fun x => { x with st := .held, cause, heldAt := u.mod.time, joinDue := false }
  putErr (settleJobs t) (dieErr t cDieLost 1 d)

theorem loseDie_eq {cause : BitVec 5} (h : (getDie s d).st = .ready ∨ (getDie s d).st = .joining) : loseDie s d cause
    = if (getDie s d).st = .joining then rejoinFail (dieLost s d cause) d (decide (cause ≠ 5)) else dieLost s d cause := by
  have hj : ((getDie s d).st = .ready ∨ decide ((getDie s d).st = .joining) = true) := h.imp_right decide_eq_true
  unfold loseDie
  extract_lets joining s1 s2 s3 s4 s5 _ s6 s7 s8
  rw [if_pos hj]
  have h3 : s3 = dieCut s d := rfl
  have h5 : s5 = dieCleared s3 d := rfl
  have h6 : s6 = ucieLost s5 d := rfl
  have h7 : s7 = setDieSt s6 d fun x => { x with st := .held, cause, heldAt := s6.mod.time, joinDue := false } := rfl
  have h8 : s8 = putErr (settleJobs s7) (dieErr s7 cDieLost 1 d) := rfl
  clear_value s8 s7 s6 s5 s3
  subst h3 h5 h6 h7 h8
  change (if decide ((getDie s d).st = .joining) = true then _ else _) = _
  simp only [decide_eq_true_eq]
  rfl

theorem loseDie_other {cause : BitVec 5} (h : ¬ ((getDie s d).st = .ready ∨ (getDie s d).st = .joining)) : loseDie s d cause = s := by
  unfold loseDie
  dsimp only
  rw [if_neg fun hc => h (hc.imp_right of_decide_eq_true)]

/-- A die lost with a cause: HELD, or FAILED where its rejoin fails, its stack OFFLINE, its edges closed and its ports OFF; the rest of its registers, the power
unit and the tile maps stand. -/
structure DieGone (s : State) (d : Nat) (cause : BitVec 5) (t : State) : Prop where
  held : (getDie s d).st = .ready → (getDie t d).st = .held
  ended : (getDie t d).st = .held ∨ (getDie t d).st = .failed
  cause : (getDie t d).cause = cause
  heldAt : (getDie t d).heldAt = s.mod.time
  tripped : (getDie t d).tripped = (getDie s d).tripped
  retired : (getDie t d).retired = (getDie s d).retired
  stack : (getStack t d).st = .offline
  edges : ∀ e ∈ dieEdges d, (getEdge t e).st = 0
  ports : ∀ p, p < 24 → portDie p = d → (getPort t p).st = .off
  power : t.power = s.power
  mod : modView t.mod = modView s.mod
  half : ∀ i, halfView (getHalf t i) = halfView (getHalf s i)

theorem getDie_setDieSt_same (s : State) (d : Nat) (f : Die → Die) : getDie (setDieSt s d f) d = f (getDie s d) := by
  unfold setDieSt
  rw [raiseEvent_mgmt]
  exact mget_mset_same ..

/-- A change of a die's state alone leaves everything else that stands. -/
theorem setDieSt_rest (s : State) (d : Nat) (f : Die → Die) : ∃ m, setDieSt s d f = { putDie s d (f (getDie s d)) with mgmt := m } := ⟨_, raiseEvent_mgmt ..⟩

theorem dieLost_gone {cause : BitVec 5} (h : (getDie s d).st ≠ .absent) : DieGone s d cause (dieLost s d cause) ∧ (getDie (dieLost s d cause) d).st = .held := by
  obtain ⟨hu, hstack, hedge, hport⟩ := dieEmptied_stands s d
  obtain ⟨u, hue⟩ : ∃ u, u = dieEmptied s d := ⟨_, rfl⟩
  obtain ⟨v, hv⟩ : ∃ v, v = setDieSt u d fun x => { x with st := .held, cause, heldAt := u.mod.time, joinDue := false } := ⟨_, rfl⟩
  have hcalc : dieLost s d cause = putErr (settleJobs v) (dieErr v cDieLost 1 d) := by
    rw [hv, hue]
    rfl
  have hk : Stands v (dieLost s d cause) := hcalc ▸ ((Stands.refl v).settleJobs).putErr (by simp [dieErr])
  obtain ⟨m, hm⟩ := setDieSt_rest u d fun x => { x with st := .held, cause, heldAt := u.mod.time, joinDue := false }
  rw [← hv] at hm
  have hget : getDie v d = { getDie u d with st := .held, cause, heldAt := u.mod.time, joinDue := false } := hv ▸ getDie_setDieSt_same ..
  rw [← hue] at hu hstack hedge hport
  have hdie := hk.die d (by rw [hget]; exact fun hc => DieSt.noConfusion hc)
  rw [hget] at hdie
  have htime : u.mod.time = s.mod.time := by
    have hm := congrArg (fun x : Mod => x.time) hu.mod
    exact hm
  have hview := hu.die d h
  have hfields := congrArg (fun x : Die => (x.st, x.cause, x.heldAt, x.tripped, x.retired)) hdie
  have hold := congrArg (fun x : Die => (x.tripped, x.retired)) hview
  simp only [dieView, Prod.mk.injEq] at hfields hold
  obtain ⟨hst, hcause, hheld, htrip, hret⟩ := hfields
  obtain ⟨htrip0, hret0⟩ := hold
  refine ⟨⟨fun _ => hst, .inl hst, hcause, hheld.trans htime, htrip.trans htrip0, hret.trans hret0, hk.offline ?_, fun e he => hk.closed ?_,
    fun p hp hd => hk.off ?_, ?_, ?_, fun i => ?_⟩, hst⟩
  · rw [hm]
    exact hstack
  · rw [hm]
    exact hedge e he
  · rw [hm]
    exact hport p hp hd
  · rw [hk.power, hm]
    exact hu.power
  · rw [hk.mod, hm]
    exact hu.mod
  · rw [hk.half i, hm]
    exact hu.half i

/-- A rejoin that fails: HELD, or FAILED at the number of attempts, with the failure counted. -/
def dieFailed (s : State) (counts : Bool) (x : Die) : Die :=
  let n := x.fails.toNat + if counts then 1 else 0
  { x with st := if counts ∧ fldN x.cfg 28 3 ≤ n then .failed else .held, fails := BitVec.ofNat 3 n, heldAt := s.mod.time, joinDue := false, join := none }

/-- The die and what stands after a rejoin has failed. -/
theorem rejoinFail_stands (s : State) (d : Nat) (counts : Bool) : ∃ m, Stands { putDie s d (dieFailed s counts (getDie s d)) with mgmt := m } (rejoinFail s d counts) := by
  obtain ⟨m, hm⟩ := setDieSt_rest s d (dieFailed s counts)
  have hcalc : rejoinFail s d counts = putErr (setDieSt s d (dieFailed s counts)) (dieErr (setDieSt s d (dieFailed s counts)) cDieRejoinFail 1 d) := rfl
  exact ⟨m, by rw [hcalc, hm]; exact (Stands.refl _).putErr (by simp [dieErr])⟩

theorem dieFailed_st (s : State) (counts : Bool) (x : Die) : (dieFailed s counts x).st = .held ∨ (dieFailed s counts x).st = .failed := by
  by_cases h : counts = true ∧ fldN x.cfg 28 3 ≤ x.fails.toNat + if counts then 1 else 0
  · exact .inr (if_pos h)
  · exact .inl (if_neg h)

theorem loseDie_gone {cause : BitVec 5} (h : (getDie s d).st = .ready ∨ (getDie s d).st = .joining) : DieGone s d cause (loseDie s d cause) := by
  obtain ⟨hgone, hst⟩ := dieLost_gone (s := s) (d := d) (cause := cause) (by obtain h | h := h <;> rw [h] <;> exact fun hc => DieSt.noConfusion hc)
  rw [loseDie_eq h]
  split
  · next hj =>
    obtain ⟨m, hk⟩ := rejoinFail_stands (dieLost s d cause) d (decide (cause ≠ 5))
    have hget : getDie { putDie (dieLost s d cause) d (dieFailed (dieLost s d cause) (decide (cause ≠ 5)) (getDie (dieLost s d cause) d)) with mgmt := m } d
        = dieFailed (dieLost s d cause) (decide (cause ≠ 5)) (getDie (dieLost s d cause) d) := mget_mset_same ..
    have hends := dieFailed_st (dieLost s d cause) (decide (cause ≠ 5)) (getDie (dieLost s d cause) d)
    have hdie := hk.die d (by rw [hget]; obtain he | he := hends <;> rw [he] <;> exact fun hc => DieSt.noConfusion hc)
    rw [hget] at hdie
    have hfields := congrArg (fun x : Die => (x.st, x.cause, x.heldAt, x.tripped, x.retired)) hdie
    simp only [dieView, Prod.mk.injEq] at hfields
    obtain ⟨hst', hcause, hheld, htrip, hret⟩ := hfields
    have htime : (dieLost s d cause).mod.time = s.mod.time := by
      have hm := congrArg (fun x : Mod => x.time) hgone.mod
      exact hm
    exact ⟨fun hr => absurd (hr.symm.trans hj) fun hc => DieSt.noConfusion hc, hst' ▸ hends, hcause.trans hgone.cause, hheld.trans htime, htrip.trans hgone.tripped,
      hret.trans hgone.retired, hk.offline hgone.stack, fun e he => hk.closed (hgone.edges e he), fun p hp hd => hk.off (hgone.ports p hp hd), hk.power.trans hgone.power,
      hk.mod.trans hgone.mod, fun i => (hk.half i).trans (hgone.half i)⟩
  · exact hgone

end dies


end Sys2Proof.Machine
end

section
/-!
PROOFS of the statements of the family '15_package_clocks_startup.md': dies lost, and the rejoin of a die (R439-R445).
-/
namespace Sys2Proof.Machine
open Sys2Proof

section rejoin
variable {o s t : State} {d : Nat} {f : DieFound}

/-! ## What the steps of a rejoin leave (R444) -/

/-- The die registers, the firmware, the tiles, the halves, the power unit and the dies present are as they were. -/
structure JoinKeeps (o s : State) : Prop where
  dies : s.dies = o.dies
  fw : s.fw = o.fw
  tiles : s.tiles = o.tiles
  halves : s.halves = o.halves
  power : s.power = o.power
  present : s.mod.present = o.mod.present

namespace JoinKeeps

theorem refl (s : State) : JoinKeeps s s := ⟨rfl, rfl, rfl, rfl, rfl, rfl⟩

theorem trans (h : JoinKeeps o s) (k : JoinKeeps s t) : JoinKeeps o t :=
  ⟨k.dies.trans h.dies, k.fw.trans h.fw, k.tiles.trans h.tiles, k.halves.trans h.halves, k.power.trans h.power, k.present.trans h.present⟩

theorem recorded (h : Recorded s t) : JoinKeeps s t := by
  obtain ⟨he, -⟩ := h
  rw [he]
  exact ⟨rfl, rfl, rfl, rfl, rfl, rfl⟩

theorem foldl {α : Type} {g : State → α → State} (hg : ∀ s a, JoinKeeps s (g s a)) (l : List α) (s : State) : JoinKeeps s (l.foldl g s) :=
  List.foldlRecOn (motive := fun t => JoinKeeps s t) l g (.refl s) fun t h a _ => h.trans (hg t a)

theorem putStack (s : State) (n : Nat) (k : Stack) : JoinKeeps s (Machine.putStack s n k) := ⟨rfl, rfl, rfl, rfl, rfl, rfl⟩

theorem setStackSt (s : State) (n : Nat) (g : Stack → Stack) : JoinKeeps s (Machine.setStackSt s n g) :=
  (putStack s n _).trans (.recorded (.stackSt s n g))

theorem putErr (s : State) {e : Err} (he : e.sev ≠ 3) (hj : e.job = none) : JoinKeeps s (Machine.putErr s e) := .recorded (.err s he hj)

theorem repairOut (s : State) (n p a : Nat) : JoinKeeps s (Machine.putErr s (repairOutErr n p a)) := putErr s (by simp [repairOutErr]) rfl

theorem repairRow (s : State) (n row : Nat) (blks : List Nat) : JoinKeeps s (Machine.repairRow s n row blks) := by
  unfold Machine.repairRow
  dsimp only [freshBit]
  split
  · exact ⟨rfl, rfl, rfl, rfl, rfl, rfl⟩
  · refine .trans ?_ (repairOut ..)
    exact ⟨rfl, rfl, rfl, rfl, rfl, rfl⟩

theorem repairRows (s : State) (n : Nat) : JoinKeeps s (Machine.repairRows s n) :=
  (foldl (fun s _ => repairRow s n _ _) _ s).trans (putStack _ n _)

theorem copyReserve (s : State) (n : Nat) : JoinKeeps s (Machine.copyReserve s n) := by
  unfold Machine.copyReserve
  split
  · split <;> exact ⟨rfl, rfl, rfl, rfl, rfl, rfl⟩
  · exact .refl s

theorem trainStack (s : State) (d : Nat) (f : DieFound) : JoinKeeps s (Machine.trainStack s d f) := by
  unfold Machine.trainStack
  extract_lets s1 s2
  have h1 : JoinKeeps s s1 := setStackSt s d _
  split
  · have h2 : JoinKeeps s1 s2 := .trans (⟨rfl, rfl, rfl, rfl, rfl, rfl⟩ : JoinKeeps s1 { s1 with hbm := clrRange s1.hbm (d * 2 ^ 36) (2 ^ 36) }) (repairRows _ d)
    exact (h1.trans h2).trans ((setStackSt s2 d _).trans (copyReserve _ d))
  · exact (h1.trans (setStackSt s1 d _)).trans (putErr _ (by simp) rfl)

theorem trainEdge (s : State) (e : Nat) (ok : Bool) (pairs : List (Fin 24)) : JoinKeeps s (Machine.trainEdge s e ok pairs) := by
  have hput : ∀ y, JoinKeeps s (putEdge s e y) := fun _ => ⟨rfl, rfl, rfl, rfl, rfl, rfl⟩
  unfold Machine.trainEdge
  split
  · exact (hput _).trans (foldl (fun s _ => putErr s (by simp [edgeErr]) rfl) pairs _)
  · exact (hput _).trans (putErr _ (by simp [edgeErr]) rfl)

theorem setPort (s : State) (p : Nat) (g : Port → Port) : JoinKeeps s (Machine.setPort s p g) :=
  .trans (⟨rfl, rfl, rfl, rfl, rfl, rfl⟩ : JoinKeeps s (putPort s p (g (getPort s p)))) (.recorded (.event _ _ _ _ _))

theorem startPort (s : State) (p : Nat) : JoinKeeps s (Machine.startPort s p) := by
  unfold Machine.startPort
  extract_lets x
  split
  · exact setPort s p _
  · exact .refl s

theorem startPorts (s : State) (d : Nat) : JoinKeeps s (Machine.startPorts s d) := foldl startPort _ s

theorem getDie (h : JoinKeeps o s) (d : Nat) : getDie s d = Machine.getDie o d := congrArg (fun m => mget Die.reset m d) h.dies

theorem getTile (h : JoinKeeps o s) (u : W16) : getTile s u = Machine.getTile o u := congrArg (fun m => mget Tile.reset m u.toNat) h.tiles

theorem tilePresent (h : JoinKeeps o s) (u : W16) : tilePresent s u = Machine.tilePresent o u := by
  unfold Machine.tilePresent diePresent tileHalf getHalf
  rw [h.halves, h.present]

end JoinKeeps

/-! ## The stack of a joining die (R323, R325, R448) -/

theorem trainEdge_getStack (s : State) (e n : Nat) (ok : Bool) (pairs : List (Fin 24)) : getStack (trainEdge s e ok pairs) n = getStack s n := by
  unfold trainEdge
  split
  · exact Laws.foldl_keeps (fun s _ => putErr s (edgeErr s cD2dLane 0 e)) (fun s : State => getStack s n)
      (fun s _ => (Recorded.err s (by simp [edgeErr]) rfl).getStack n) pairs _
  · exact (Recorded.err _ (by simp [edgeErr]) rfl).getStack n

theorem startPort_getStack (s : State) (p n : Nat) : getStack (startPort s p) n = getStack s n := by
  unfold startPort setPort
  extract_lets x
  split
  · exact (Recorded.event _ _ _ _ _).getStack n
  · rfl

theorem copyReserve_getStack (s : State) (d n : Nat) : getStack (copyReserve s d) n = getStack s n := by
  unfold copyReserve
  split
  · split <;> rfl
  · rfl

/-- A stack that trains is READY; one that does not stays OFFLINE. -/
theorem trainStack_st (s : State) (d : Nat) (f : DieFound) : (getStack (trainStack s d f) d).st = if f.stackOk then .ready else .offline := by
  unfold trainStack
  extract_lets s1 s2
  by_cases h : f.stackOk = true
  · rw [if_pos h, if_pos h, copyReserve_getStack, getStack_setStackSt]
  · rw [if_neg h, if_neg h, (Recorded.err _ (by simp) rfl).getStack, getStack_setStackSt]

/-! ## The tiles of a joining die (R68, R129, R444) -/

theorem mget_append_left {α : Type} (x : α) {l : SMap α} (m : SMap α) {k : Nat} (h : ∀ e ∈ l, e.1 ≠ k) : mget x (l ++ m) k = mget x m k := by
  induction l with
  | nil => rfl
  | cons e l ih => exact (if_neg (h e (by simp))).trans (ih fun e he => h e (List.mem_cons_of_mem _ he))

/-- What a list of tiles maps to, at one of them. -/
theorem mget_map_tiles {α : Type} (x : α) (g : W16 → α) (m : SMap α) {l : List W16} {u : W16} (h : u ∈ l) : mget x (l.map (fun v => (v.toNat, g v)) ++ m) u.toNat = g u := by
  induction l with
  | nil => exact absurd h List.not_mem_nil
  | cons v l ih =>
    by_cases hv : v = u
    · subst hv
      exact if_pos rfl
    · exact (if_neg fun hc => hv (BitVec.eq_of_toNat_eq hc)).trans (ih ((List.mem_cons.mp h).resolve_left fun hc => hv hc.symm))

theorem tile_parts (u : W16) (h : bitAt u 15 = false) : u.toNat / 2048 = tDie u ∧ u = tileId (tDie u) (tH1 u) (tIdx u) := by
  have hlt := u.isLt
  have h15 : u.toNat < 32768 := by
    by_contra hc
    simp [bitAt, BitVec.getLsbD, Nat.testBit_eq_decide_div_mod_eq] at h
    omega
  have hdie : tDie u = u.toNat / 2048 % 16 := fldN_eq_div_mod ..
  have hidx : tIdx u = u.toNat % 1024 := (fldN_eq_div_mod ..).trans (by simp)
  have hhalf : (if tH1 u then 1024 else 0) = u.toNat / 1024 % 2 * 1024 := by
    have hbit : tH1 u = decide (u.toNat / 1024 % 2 = 1) := by simp [tH1, bitAt, BitVec.getLsbD, Nat.testBit_eq_decide_div_mod_eq]
    rw [hbit]
    obtain he | he := Nat.mod_two_eq_zero_or_one (u.toNat / 1024) <;> rw [he] <;> rfl
  refine ⟨by omega, BitVec.eq_of_toNat_eq ?_⟩
  rw [tileId, hdie, hidx, hhalf, BitVec.toNat_ofNat]
  omega

theorem mem_presentTiles {u : W16} (h : tilePresent s u = true) : u ∈ presentTiles s := by
  have hp := h
  simp only [tilePresent, diePresent, Bool.and_eq_true, Bool.not_eq_true', decide_eq_true_eq] at h
  obtain ⟨⟨h15, hd, -⟩, hi⟩ := h
  unfold presentTiles
  simp only [List.mem_flatMap, List.mem_range, List.mem_filter, List.mem_map]
  exact ⟨⟨tDie u, hd, tH1 u, by cases tH1 u <;> simp, tIdx u, hi, (tile_parts u h15).2.symm⟩, hp⟩

/-- Every present tile of the die is made fresh. -/
theorem mget_freshTiles {u : W16} (hp : tilePresent s u = true) (hd : tDie u = d) (rejoined : Bool) :
    mget Tile.reset (freshTiles s d rejoined) u.toNat = freshTile rejoined (getTile s u) := by
  have h15 : bitAt u 15 = false := by
    simp only [tilePresent, Bool.and_eq_true, Bool.not_eq_true'] at hp
    exact hp.1.1
  unfold freshTiles
  rw [List.append_assoc, mget_append_left]
  · exact mget_map_tiles _ _ _ (List.mem_filter.mpr ⟨mem_presentTiles hp, decide_eq_true hd⟩)
  · intro e he hk
    have hlt := of_decide_eq_true (List.mem_filter.mp he).2
    rw [hk, (tile_parts u h15).1, hd] at hlt
    exact lt_irrefl _ hlt

/-! ## The steps of a rejoin (R444, R445) -/

theorem bistFence_dies (s : State) (d i : Nat) : (bistFence s d i).dies = s.dies ∧ (bistFence s d i).fw = s.fw := by
  unfold bistFence
  extract_lets u
  split
  · have h := JoinKeeps.putErr (modTile s u fun x => { x with fenced := true }) (e := fenceErr u cBistFence 0 false) (by simp [fenceErr]) rfl
    exact ⟨h.dies, h.fw⟩
  · exact ⟨rfl, rfl⟩

theorem bistFences_dies (d : Nat) (l : List Nat) (s : State) :
    (l.foldl (fun s i => bistFence s d i) s).dies = s.dies ∧ (l.foldl (fun s i => bistFence s d i) s).fw = s.fw :=
  ⟨Laws.foldl_keeps _ State.dies (fun s _ => (bistFence_dies s d _).1) l s, Laws.foldl_keeps _ State.fw (fun s _ => (bistFence_dies s d _).2) l s⟩

/-- The die after its last step: READY. -/
def dieJoined (x : Die) : Die :=
  { x with st := .ready, fails := 0, watchReady := true, join := none, rejoins := if x.rejoins = 0xFFFF then x.rejoins else x.rejoins + 1 }

/-- A rejoining die trained: its stack, its edges, its UCIe module and its ports. -/
def dieTrained (s : State) (d : Nat) (f : DieFound) : State :=
  let s := (readyEdges s d).foldl (fun s e => trainEdge s e (bitAt f.edgesOk e) (pairsOf f.pairs e)) (trainStack s d f)
  let s := match dieUcie d with
    | some u => { s with mod := { s.mod with ucie := setFld s.mod.ucie u 1 (if f.ucieOk then 1 else 0) } }
    | none => s
  startPorts s d

theorem dieTrained_keeps (s : State) (d : Nat) (f : DieFound) : JoinKeeps s (dieTrained s d f) := by
  have hedges := JoinKeeps.foldl (fun s e => JoinKeeps.trainEdge s e (bitAt f.edgesOk e) (pairsOf f.pairs e)) (readyEdges s d) (trainStack s d f)
  refine (((JoinKeeps.trainStack s d f).trans hedges).trans ?_).trans (.startPorts _ d)
  split
  · exact ⟨rfl, rfl, rfl, rfl, rfl, rfl⟩
  · exact .refl _

theorem dieTrained_stack (s : State) (d : Nat) (f : DieFound) : (getStack (dieTrained s d f) d).st = if f.stackOk then .ready else .offline := by
  have hports : ∀ u, getStack (startPorts u d) d = getStack u d := fun u =>
    Laws.foldl_keeps _ (fun s : State => getStack s d) (fun s p => startPort_getStack s p d) _ u
  have hedges : ∀ u, getStack ((readyEdges s d).foldl (fun s e => trainEdge s e (bitAt f.edgesOk e) (pairsOf f.pairs e)) u) d = getStack u d := fun u =>
    Laws.foldl_keeps _ (fun s : State => getStack s d) (fun s e => trainEdge_getStack s e d _ _) _ u
  have hucie : ∀ u : State, getStack (match dieUcie d with
      | some k => { u with mod := { u.mod with ucie := setFld u.mod.ucie k 1 (if f.ucieOk then 1 else 0) } }
      | none => u) d = getStack u d := by
    intro u
    split <;> rfl
  exact congrArg Stack.st ((hports _).trans ((hucie _).trans (hedges _))) |>.trans (trainStack_st s d f)

/-- The tiles of a rejoining die made fresh, those that fail self-test fenced. -/
def dieTested (s : State) (d : Nat) (f : DieFound) : State :=
  let s := f.badTiles.foldl (fun s i => bistFence s d i) s
  { s with tiles := freshTiles s d true }

theorem joinDie_ok (h : rejoinOk s d f = true) : joinDie s d f = setDieSt (dieTrained (dieTested s d f) d f) d dieJoined := if_pos h

theorem joinDie_fails (h : rejoinOk s d f = false) : joinDie s d f = rejoinFail s d true := if_neg (by simp [h])

theorem setDieSt_join {g : Die → Die} {e : Nat} (h : e ≠ d) : getDie (setDieSt s d g) e = getDie s e := by
  obtain ⟨m, hm⟩ := setDieSt_rest s d g
  rw [hm]
  exact mget_mset_other _ _ _ h

/-- A rejoin that succeeds: the die, what stands, its stack, and its fresh tiles. -/
structure DieJoins (s : State) (d : Nat) (f : DieFound) (t : State) : Prop where
  die : getDie t d = dieJoined (getDie s d)
  others : ∀ e, e ≠ d → getDie t e = getDie s e
  fw : t.fw = s.fw
  stack : (getStack t d).st = if f.stackOk then .ready else .offline
  fresh : f.badTiles = [] → ∀ u, tDie u = d → tilePresent t u = true → getTile t u = freshTile true (getTile s u)

theorem joinDie_joins (h : rejoinOk s d f = true) : DieJoins s d f (joinDie s d f) := by
  rw [joinDie_ok h]
  have hk := dieTrained_keeps (dieTested s d f) d f
  obtain ⟨hdies, hfw⟩ := bistFences_dies d f.badTiles s
  have hdie : ∀ e, getDie (dieTrained (dieTested s d f) d f) e = getDie s e := fun e =>
    (hk.getDie e).trans (congrArg (fun m => mget Die.reset m e) hdies)
  have hstack := dieTrained_stack (dieTested s d f) d f
  refine ⟨by rw [getDie_setDieSt_same, hdie], fun e he => (setDieSt_join he).trans (hdie e), ?_, ?_, ?_⟩
  all_goals obtain ⟨m, hm⟩ := setDieSt_rest (dieTrained (dieTested s d f) d f) d dieJoined
  all_goals rw [hm]
  · exact hk.fw.trans hfw
  · exact hstack
  · intro hb u hd hp
    have htested : dieTested s d f = { s with tiles := freshTiles s d true } := by simp only [dieTested, hb, List.foldl_nil]
    have hp' : tilePresent s u = true := by
      have hkept := (hk.tilePresent u).symm.trans hp
      rw [htested] at hkept
      exact hkept
    refine (hk.getTile u).trans ?_
    rw [htested]
    exact mget_freshTiles hp' hd true

/-- A rejoin that fails, with the failure counted. -/
structure DieJoinFails (s : State) (d : Nat) (t : State) : Prop where
  die : getDie t d = dieFailed s true (getDie s d)
  others : ∀ e, e ≠ d → getDie t e = getDie s e
  fw : t.fw = s.fw

theorem joinDie_joinFails (h : rejoinOk s d f = false) : DieJoinFails s d (joinDie s d f) := by
  rw [joinDie_fails h]
  obtain ⟨m, hm⟩ := setDieSt_rest s d (dieFailed s true)
  have hcalc : rejoinFail s d true = putErr (setDieSt s d (dieFailed s true)) (dieErr (setDieSt s d (dieFailed s true)) cDieRejoinFail 1 d) := rfl
  have hk := JoinKeeps.putErr (setDieSt s d (dieFailed s true)) (e := dieErr (setDieSt s d (dieFailed s true)) cDieRejoinFail 1 d) (by simp [dieErr]) rfl
  rw [hcalc]
  refine ⟨(hk.getDie d).trans (getDie_setDieSt_same s d _), fun e he => (hk.getDie e).trans (setDieSt_join he), hk.fw.trans ?_⟩
  rw [hm]
  rfl

/-! ## The reference cycle of a rejoin -/

/-- Of a fold over the dies, only one acts. -/
theorem foldl_range_single {g : State → Nat → State} {n d : Nat} (hd : d < n) (hbefore : ∀ e, e ≠ d → g s e = s)
    (hafter : ∀ e, e ≠ d → g (g s d) e = g s d) : (List.range n).foldl g s = g s d := by
  have hsplit : List.range n = List.range d ++ d :: (List.range' (d + 1) (n - d - 1)) := by
    have hn : d + (n - d - 1 + 1) = n := by omega
    have hcons := List.range'_succ (s := d) (n := n - d - 1) (step := 1)
    have happ := List.range'_append_1 (s := 0) (m := d) (n := n - d - 1 + 1)
    rw [hn, Nat.zero_add] at happ
    rw [List.range_eq_range', List.range_eq_range', ← hcons, happ]
  have hfix : ∀ (l : List Nat) (u : State), (∀ e ∈ l, g u e = u) → l.foldl g u = u := by
    intro l u h
    induction l with
    | nil => rfl
    | cons e l ih => exact (congrArg (l.foldl g) (h e (by simp))).trans (ih fun e he => h e (List.mem_cons_of_mem _ he))
  rw [hsplit, List.foldl_append, hfix _ s fun e he => hbefore e (Nat.ne_of_lt (List.mem_range.mp he)), List.foldl_cons]
  refine hfix _ _ fun e he => hafter e ?_
  have := List.mem_range'.mp he
  omega

/-- The time of a rejoin has passed at the next reference cycle. -/
def joinEnds (s : State) (f : DieFound) (t0 : W64) : Prop := t0.toNat + min f.took rejoinMax ≤ (s.mod.time + 10).toNat

/-- No job unloads, no handover is under way, and no other die joins. -/
structure JoinQuiet (s : State) (d : Nat) : Prop where
  resetN : s.mod.resetN = true
  jobs : ∀ j, (getJob s j).st ≠ .unloading
  handover : s.fw.handover = none
  others : ∀ e, e ≠ d → (getDie s e).join = none

theorem exec_referenceCycle_joining (h : JoinQuiet s d) (hd : d < 12) {t : State} (ht : settleJoin (ticked s) d = t) (hfw : t.fw = s.fw)
    (hdies : ∀ e, e ≠ d → getDie t e = getDie s e) : exec .referenceCycle s = .next t := by
  have hcalc : exec .referenceCycle s = .next (settleFw ((List.range 12).foldl settleJoin (jobs4.foldl finishUnload (ticked s)))) := by
    refine congrArg Host.Outcome.next ((if_pos h.resetN).trans ?_)
    simp only [tclkPerRef_eq]
    rfl
  rw [hcalc, List.foldl_fixed' (fun j => finishUnload_idle (s := ticked s) (h.jobs j)),
    foldl_range_single hd (fun e he => settleJoin_idle (s := ticked s) (h.others e he))
      (fun e he => settleJoin_idle (by rw [ht, hdies e he]; exact h.others e he)), ht, settleFw_idle (hfw ▸ h.handover)]

theorem settleJoin_under_way {t0 : W64} (hj : (getDie s d).join = some (f, t0)) (h : ¬ joinEnds s f t0) : settleJoin (ticked s) d = ticked s := by
  have hj' : (getDie (ticked s) d).join = some (f, t0) := hj
  unfold settleJoin
  rw [hj']
  exact if_neg fun hc => h hc.2

theorem settleJoin_ends {t0 : W64} (hst : (getDie s d).st = .joining) (hj : (getDie s d).join = some (f, t0)) (h : joinEnds s f t0) :
    settleJoin (ticked s) d = joinDie (ticked s) d f := by
  have hj' : (getDie (ticked s) d).join = some (f, t0) := hj
  unfold settleJoin
  rw [hj']
  exact if_pos ⟨hst, h⟩

/-! ## A rejoin begins (R442, R445) -/

/-- The die with a rejoin under way. -/
def dieJoining (s : State) (f : DieFound) (x : Die) : Die := { x with st := .joining, joinDue := false, join := some (f, s.mod.time) }

/-- A die that DIE.CTL REJOIN takes. -/
def mayCommand (x : Die) : Prop := (x.st = .held ∨ x.st = .failed) ∧ x.retired = false

theorem dieRejoin_takes (h : mayCommand (getDie s d)) : dieRejoin s d f =
    let u := modDie s d fun y => { y with fails := 0, joinDue := true }
    (if decide (u.mod.st = .ready) && rejoinMay u d then beginJoin u d f else u, stOk) := by
  obtain ⟨hst, hr⟩ := h
  exact if_pos (by rw [hr, decide_eq_true hst]; rfl)

theorem dieRejoin_busy (h : ¬ mayCommand (getDie s d)) : dieRejoin s d f = (s, stCfgBusy) := by
  refine if_neg fun hc => h ?_
  simp only [Bool.and_eq_true, decide_eq_true_eq, Bool.not_eq_true'] at hc
  exact hc

theorem rejoinMay_modDie (s : State) (d : Nat) : rejoinMay (modDie s d fun y => { y with fails := 0, joinDue := true }) d = rejoinMay s d := by
  have hsame : getDie (modDie s d fun y => { y with fails := 0, joinDue := true }) d = { getDie s d with fails := 0, joinDue := true } := getDie_modDie ..
  have hready : dieReady (modDie s d fun y => { y with fails := 0, joinDue := true }) = dieReady s := by
    funext e
    by_cases he : e = d
    · rw [he]
      unfold dieReady
      rw [hsame]
    · exact congrArg (fun x : Die => decide (x.st = .ready)) (getDie_modDie_other _ _ he)
  unfold rejoinMay
  rw [hready, hsame]
  rfl

theorem exec_rejoinDelayExpire_due {die : Fin 12} (hdue : (getDie s die).joinDue = true ∨ (getDie s die).st = .held ∧ bitAt (getDie s die).cfg 31 = true
      ∧ (getDie s die).heldAt.toNat + 100000 * fldN (getDie s die).cfg 0 16 ≤ now s)
    (hr : (getDie s die).retired = false) (hm : s.mod.st = .ready ∧ rejoinMay s die = true) :
    exec (.rejoinDelayExpire die f) s = .next (beginJoin s die f) := by
  refine congrArg Host.Outcome.next (if_pos ?_)
  simp only [Bool.and_eq_true, Bool.or_eq_true, decide_eq_true_eq, Bool.not_eq_true']
  exact ⟨⟨⟨hdue.elim .inr fun ⟨ha, hb, hc⟩ => .inl ⟨⟨ha, hb⟩, hc⟩, hr⟩, hm.1⟩, hm.2⟩

theorem exec_rejoinDelayExpire_not_due {die : Fin 12} (h : ¬ (((getDie s die).joinDue = true ∨ (getDie s die).st = .held ∧ bitAt (getDie s die).cfg 31 = true
      ∧ (getDie s die).heldAt.toNat + 100000 * fldN (getDie s die).cfg 0 16 ≤ now s)
    ∧ (getDie s die).retired = false ∧ s.mod.st = .ready ∧ rejoinMay s die = true)) : exec (.rejoinDelayExpire die f) s = .next s := by
  refine congrArg Host.Outcome.next (if_neg fun hc => h ?_)
  simp only [Bool.and_eq_true, Bool.or_eq_true, decide_eq_true_eq, Bool.not_eq_true'] at hc
  obtain ⟨⟨⟨hdue, hr⟩, hst⟩, hm⟩ := hc
  exact ⟨hdue.elim (fun ⟨⟨ha, hb⟩, hc⟩ => .inr ⟨ha, hb, hc⟩) .inl, hr, hst, hm⟩

end rejoin

section leaving
variable {s : State} {w : Writer} {die : Fin 12} {f : DieFound}

theorem exec_dieResetCmd_secure (hw : secureWriter w = true) (h : (getDie s die).st = .ready ∨ (getDie s die).st = .joining) :
    exec (.dieResetCmd w die) s = .next { loseDie s die 5 with status := 0 } :=
  next_finish ((secureWrite_secure hw).trans (if_pos h))

theorem exec_dieResetCmd_busy (hw : secureWriter w = true) (h : ¬ ((getDie s die).st = .ready ∨ (getDie s die).st = .joining)) :
    exec (.dieResetCmd w die) s = .next { s with status := stCfgBusy } :=
  next_finish ((secureWrite_secure hw).trans (if_neg h))

theorem exec_dieRejoinCmd_busy (hw : secureWriter w = true) (h : ¬ mayCommand (getDie s die)) :
    exec (.dieRejoinCmd w die f) s = .next { s with status := stCfgBusy } :=
  next_finish ((secureWrite_secure hw).trans (dieRejoin_busy h))

theorem exec_dieRejoinCmd_begins (hw : secureWriter w = true) (h : mayCommand (getDie s die)) (hm : s.mod.st = .ready ∧ rejoinMay s die = true) :
    Goes (exec (.dieRejoinCmd w die f) s) fun t => t.status = 0 ∧ getDie t die = dieJoining s f { getDie s die with fails := 0 } := by
  have hmay : (decide ((modDie s die fun y => { y with fails := 0, joinDue := true }).mod.st = .ready)
      && rejoinMay (modDie s die fun y => { y with fails := 0, joinDue := true }) die) = true := by
    rw [rejoinMay_modDie, hm.2, Bool.and_true]
    exact decide_eq_true hm.1
  refine ⟨_, next_finish ((secureWrite_secure hw).trans ((dieRejoin_takes h).trans (congrArg (·, stOk) (if_pos hmay)))), rfl, ?_⟩
  refine (getDie_setDieSt_same (modDie s die fun y => { y with fails := 0, joinDue := true }) die _).trans ?_
  rw [getDie_modDie]
  rfl

theorem exec_dieRejoinCmd_waits (hw : secureWriter w = true) (h : mayCommand (getDie s die)) (hm : ¬ (s.mod.st = .ready ∧ rejoinMay s die = true)) :
    exec (.dieRejoinCmd w die f) s = .next { modDie s die fun y => { y with fails := 0, joinDue := true } with status := 0 } := by
  refine next_finish ((secureWrite_secure hw).trans ((dieRejoin_takes h).trans (congrArg (·, stOk) (if_neg ?_))))
  rw [rejoinMay_modDie, Bool.and_eq_true, decide_eq_true_eq]
  exact hm

/-- DIE.CTL from the non-secure world. -/
theorem dieCtl_world {g : State → State × Byte} (hw : secureWriter w = false) :
    Goes (.next (finish (secureWrite w (winAddr 0x2001 0 0) s g))) fun t => t.status = stWorld ∧ t.dies = s.dies ∧ t.net = s.net := by
  obtain ⟨t, ht, he⟩ := secureWrite_world (s := s) (f := g) (a := winAddr 0x2001 0 0) hw
  exact ⟨_, congrArg Host.Outcome.next he, rfl, by rw [ht.same]; rfl, ht.net⟩

/-- What a loss leaves, in the words of R440. -/
theorem DieGone.gone {d : Nat} {cause : BitVec 5} {t : State} (h : DieGone s d cause t) :
    ((getDie s d).st = .ready → (getDie t d).st = .held) ∧ ((getDie s d).st = .joining → (getDie t d).st = .held ∨ (getDie t d).st = .failed)
      ∧ (getDie t d).cause = cause ∧ (getDie t d).heldAt = s.mod.time ∧ (getStack t d).st = .offline
      ∧ (∀ e ∈ dieEdges d, (getEdge t e).st = 0) ∧ ∀ p, p < 24 → portDie p = d → (getPort t p).st = .off :=
  ⟨h.held, fun _ => h.ended, h.cause, h.heldAt, h.stack, h.edges, h.ports⟩

end leaving

/-- Settles O43: dies lost by their events and by DIE.CTL; a rejoin commanded, delayed, and ended at its reference cycle. -/
theorem diesLeaveAndRejoin : Obligations.DiesLeaveAndRejoin := by
  intro s w die f
  dsimp only
  refine ⟨fun hn => ?stays, fun hs => ?lost, fun hw => ⟨dieCtl_world hw, dieCtl_world hw⟩, fun hw => ⟨exec_dieResetCmd_busy hw,
    fun hs => ⟨_, exec_dieResetCmd_secure hw hs, (loseDie_gone hs).gone, rfl⟩, exec_dieRejoinCmd_busy hw, exec_dieRejoinCmd_begins hw, exec_dieRejoinCmd_waits hw⟩,
    exec_rejoinDelayExpire_not_due, fun ⟨hdue, hr, hm⟩ => ⟨_, exec_rejoinDelayExpire_due hdue hr hm, getDie_setDieSt_same ..⟩, ?cycle⟩
  case stays =>
    have hsame : ∀ cause, loseDie s die cause = s := fun _ => loseDie_other hn
    exact ⟨congrArg Host.Outcome.next (hsame 1), congrArg Host.Outcome.next (hsame 1), congrArg Host.Outcome.next (hsame 2)⟩
  case lost => exact ⟨⟨_, rfl, (loseDie_gone hs).gone⟩, ⟨_, rfl, (loseDie_gone hs).gone⟩, ⟨_, rfl, (loseDie_gone hs).gone⟩⟩
  case cycle =>
    rintro t0 ⟨hr, hjobs, hfw, hothers⟩ hst hj
    have hq : JoinQuiet s die := ⟨hr, hjobs, hfw, hothers⟩
    refine ⟨fun hn => ?_, fun he ho => ?_, fun he ho => ?_⟩
    · exact ⟨_, exec_referenceCycle_joining hq die.isLt (settleJoin_under_way hj hn) rfl fun _ _ => rfl, rfl⟩
    · have h := joinDie_joins (s := ticked s) (d := die) (f := f) ho
      refine ⟨_, exec_referenceCycle_joining hq die.isLt (settleJoin_ends hst hj he) h.fw h.others, ?_⟩
      dsimp only
      rw [h.die]
      exact ⟨rfl, rfl, rfl, rfl, h.stack, h.fresh⟩
    · have h := joinDie_joinFails (s := ticked s) (d := die) (f := f) ho
      refine ⟨_, exec_referenceCycle_joining hq die.isLt (settleJoin_ends hst hj he) h.fw h.others, ?_⟩
      dsimp only
      rw [h.die]
      exact ⟨if_congr (and_iff_right rfl) rfl rfl, rfl, rfl⟩

end Sys2Proof.Machine
end

section
/-!
PROOFS of the statements of the family '16_reliability.md': fences and bypasses of FENCE.CTL, merged records, checkers, the island's SRAM and the reset
after a FATAL record (R454, R455, R460, R464, R466-R470).
-/
namespace Sys2Proof.Machine
open Sys2Proof

section fences
variable {s u v : State} {w : Writer} {tile : W16}

/-! ## A tile fenced (R467) -/

/-- A fence but for its record and the flash map. -/
def fenceCleared (s : State) (t : W16) : State :=
  let s := loseMembers s (fun u => decide (u = t)) (fun _ => false)
  let s := { s with net := { s.net with arrivals := s.net.arrivals.filter fun a => decide (a.tile ≠ t) } }
  let s := fencePushes (fenceXfers (endTrees (breakTrees s (fun u => decide (u = t)) t) t) t) t
  settleJobs (putTile s t { Tile.reset with fenced := true })

theorem fenceCleared_stands (s : State) (t : W16) : Stands s (fenceCleared s t) := by
  have h : Stands s (loseMembers s (fun u => decide (u = t)) (fun _ => false)) := (Stands.refl s).loseMembers
  refine Stands.settleJobs (.putTile (.fencePushes (.fenceXfers (.endTrees (.breakTrees ?_)))))
  exact h.frame

theorem fenceTile_eq (s : State) (t : W16) (injected : Bool) :
    fenceTile s t injected = fenceInMap (putErr (fenceCleared s t) (fenceErr t cTileFenced 0 injected)) t := rfl

/-- The tile is reset and fenced, its position fenced in the half's map, under a new generation. -/
structure TileFenced (s : State) (t : W16) (u : State) : Prop where
  tile : getTile u t = { Tile.reset with fenced := true }
  listed : (getHalf u (halfNo (tDie t) (tH1 t))).flashFenced.contains (tilePos s t) = true
  gen : (getHalf u (halfNo (tDie t) (tH1 t))).flashGen = (getHalf s (halfNo (tDie t) (tH1 t))).flashGen + 1

/-- The fences and generation of a half in whose map a position is fenced. -/
theorem fenceInMap_half (s : State) (t : W16) : let x := getHalf (fenceInMap s t) (halfNo (tDie t) (tH1 t))
    x.flashFenced.contains (tilePos s t) = true ∧ x.flashGen = (getHalf s (halfNo (tDie t) (tH1 t))).flashGen + 1 := by
  have hput : getHalf (fenceInMap s t) (halfNo (tDie t) (tH1 t)) = { getHalf s (halfNo (tDie t) (tH1 t)) with
      flashFenced := if (getHalf s (halfNo (tDie t) (tH1 t))).flashFenced.contains (tilePos s t) then (getHalf s (halfNo (tDie t) (tH1 t))).flashFenced
        else (getHalf s (halfNo (tDie t) (tH1 t))).flashFenced ++ [tilePos s t]
      flashGen := (getHalf s (halfNo (tDie t) (tH1 t))).flashGen + 1 } := mget_mset_same ..
  dsimp only
  rw [hput]
  refine ⟨?_, rfl⟩
  dsimp only
  split
  · assumption
  · simp

theorem fenceTile_fenced (s : State) (t : W16) (injected : Bool) : TileFenced s t (fenceTile s t injected) := by
  have hk : Stands s (putErr (fenceCleared s t) (fenceErr t cTileFenced 0 injected)) := (fenceCleared_stands s t).putErr (by simp [fenceErr])
  have hhalf := hk.half (halfNo (tDie t) (tH1 t))
  have hmap : (getHalf (putErr (fenceCleared s t) (fenceErr t cTileFenced 0 injected)) (halfNo (tDie t) (tH1 t))).map
      = (getHalf s (halfNo (tDie t) (tH1 t))).map := by
    have hm := congrArg (fun x : Half => x.map) hhalf
    exact hm
  have hgen : (getHalf (putErr (fenceCleared s t) (fenceErr t cTileFenced 0 injected)) (halfNo (tDie t) (tH1 t))).flashGen
      = (getHalf s (halfNo (tDie t) (tH1 t))).flashGen := by
    have hg := congrArg (fun x : Half => x.flashGen) hhalf
    exact hg
  have hpos : tilePos (putErr (fenceCleared s t) (fenceErr t cTileFenced 0 injected)) t = tilePos s t := congrArg (fun m => nth 0 m (tIdx t)) hmap
  obtain ⟨hl, hg⟩ := fenceInMap_half (putErr (fenceCleared s t) (fenceErr t cTileFenced 0 injected)) t
  rw [hpos] at hl
  rw [hgen] at hg
  refine ⟨getTile_fenceTile s t injected, ?_, ?_⟩ <;> rw [fenceTile_eq]
  exacts [hl, hg]

theorem TileFenced.of_halves {t : W16} (h : TileFenced v t u) (hv : v.halves = s.halves) : TileFenced s t u := by
  obtain ⟨ht, hl, hg⟩ := h
  refine ⟨ht, ?_, ?_⟩
  · unfold tilePos tileHalf getHalf at *
    rwa [hv] at hl
  · unfold getHalf at *
    rwa [hv] at hg

/-! ## FENCE.CTL (R466, R469, R470) -/

/-- A write of FENCE.CTL from the non-secure world. -/
theorem fenceCtl_world {g : State → State × Byte} (hw : secureWriter w = false) :
    Goes (.next (finish (secureWrite w (winAddr 0x1105 0 0) s g))) fun t => t.status = stWorld ∧ t.tiles = s.tiles ∧ t.halves = s.halves := by
  obtain ⟨t, ht, he⟩ := secureWrite_world (s := s) (f := g) (a := winAddr 0x1105 0 0) hw
  have hk := JoinKeeps.recorded ht
  exact ⟨_, congrArg Host.Outcome.next he, rfl, hk.tiles, hk.halves⟩

theorem fenceCtl_absent {cmd : Nat} (hc : cmd = 1 ∨ cmd = 2) (hp : tilePresent s tile = false) : fenceCtl s tile cmd = (s, stInvalid) :=
  (if_neg (by omega)).trans (if_pos (by simp [hp]))

theorem fenceCtl_lost {cmd : Nat} (hc : cmd = 1 ∨ cmd = 2) (hp : tilePresent s tile = true) (hd : dieReady s (tDie tile) = false) :
    fenceCtl s tile cmd = (s, stCfgBusy) :=
  (if_neg (by omega)).trans ((if_neg (by simp [hp])).trans (if_pos (by simp [hd])))

/-- The tile is present and its die READY. -/
def tileUp (s : State) (t : W16) : Prop := tilePresent s t = true ∧ dieReady s (tDie t) = true

theorem fenceCtl_fence (h : tileUp s tile) : fenceCtl s tile 1
    = (if (getTile s tile).fenced then s else fenceTile (putErr s (fenceErr tile cTileFault 5 false)) tile false, stOk) := by
  obtain ⟨hp, hd⟩ := h
  exact (if_neg (by omega)).trans ((if_neg (by simp [hp])).trans ((if_neg (by simp [hd])).trans (if_pos rfl)))

theorem fenceCtl_bypass (h : tileUp s tile) : fenceCtl s tile 2 = (bypassAt s (posOf s tile), stOk) := by
  obtain ⟨hp, hd⟩ := h
  exact (if_neg (by omega)).trans ((if_neg (by simp [hp])).trans ((if_neg (by simp [hd])).trans (if_neg (by decide))))

theorem exec_fenceTile_inService (hw : secureWriter w = true) (h : tileUp s tile) (hf : (getTile s tile).fenced = false) :
    Goes (exec (.fenceTile w tile) s) fun t => t.status = 0 ∧ TileFenced s tile t := by
  refine ⟨_, next_finish ((secureWrite_secure hw).trans ((fenceCtl_fence h).trans (congrArg (·, stOk) (if_neg (by simp [hf]))))), rfl, ?_⟩
  obtain ⟨ht, hl, hg⟩ := (fenceTile_fenced (putErr s (fenceErr tile cTileFault 5 false)) tile false).of_halves (s := s) (putErr_halves s _ (by simp [fenceErr]))
  exact ⟨ht, hl, hg⟩

theorem exec_fenceTile_fenced (hw : secureWriter w = true) (h : tileUp s tile) (hf : (getTile s tile).fenced = true) :
    exec (.fenceTile w tile) s = .next { s with status := 0 } :=
  next_finish ((secureWrite_secure hw).trans ((fenceCtl_fence h).trans (congrArg (·, stOk) (if_pos hf))))

/-! ## Router bypass (R469, R470) -/

section bypass
variable {p : Pos}

/-- The number of a position in its half. -/
def posNo (p : Pos) : Nat := p.row * 24 + p.col

theorem bypassAt_again (h : (getHalf s (halfNo p.die p.h1)).bypassed.contains (posNo p) = true) : bypassAt s p = s := if_pos h

theorem bypassAt_refused (hc : (getHalf s (halfNo p.die p.h1)).bypassed.contains (posNo p) = false) (hr : bypassRefused (getHalf s (halfNo p.die p.h1)) (posNo p) = true)
    (hd : dieReady s p.die = true) : (getDie (bypassAt s p) p.die).retired = true ∧ (getDie (bypassAt s p) p.die).st = .held := by
  have he : ∃ v, v.dies = s.dies ∧ bypassAt s p = modDie (loseDie v p.die 3) p.die fun x => { x with retired := true } :=
    ⟨_, putErr_dies (putHalf s (halfNo p.die p.h1) { getHalf s (halfNo p.die p.h1) with flashGen := (getHalf s (halfNo p.die p.h1)).flashGen + 1 })
      _ (by simp [routerRec]), (if_neg (ne_true_of_eq_false hc)).trans (if_pos hr)⟩
  obtain ⟨v, hv, he⟩ := he
  have hready : (getDie v p.die).st = .ready := by
    unfold getDie
    rw [hv]
    exact of_decide_eq_true hd
  rw [he, getDie_modDie]
  exact ⟨rfl, (loseDie_gone (.inl hready)).held hready⟩

theorem bypassAt_bypassed (hc : (getHalf s (halfNo p.die p.h1)).bypassed.contains (posNo p) = false)
    (hr : bypassRefused (getHalf s (halfNo p.die p.h1)) (posNo p) = false) :
    (getHalf (bypassAt s p) (halfNo p.die p.h1)).bypassed = (getHalf s (halfNo p.die p.h1)).bypassed ++ [posNo p] := by
  have he : ∃ v r, bypassAt s p = putErr (disableTreesAt (putHalf v (halfNo p.die p.h1)
      { getHalf v (halfNo p.die p.h1) with bypassed := (getHalf s (halfNo p.die p.h1)).bypassed ++ [posNo p] }) r) (routerRec (disableTreesAt (putHalf v (halfNo p.die p.h1)
      { getHalf v (halfNo p.die p.h1) with bypassed := (getHalf s (halfNo p.die p.h1)).bypassed ++ [posNo p] }) r) p cRouterBypass 1) :=
    ⟨_, _, (if_neg (ne_true_of_eq_false hc)).trans (if_neg (ne_true_of_eq_false hr))⟩
  obtain ⟨v, r, he⟩ := he
  rw [he]
  have hput : ∀ (u : State) (x : Half) (e : Err), e.sev ≠ 3 → getHalf (putErr (disableTreesAt (putHalf u (halfNo p.die p.h1) x) r) e) (halfNo p.die p.h1) = x := by
    intro u x e hs
    unfold getHalf
    rw [putErr_halves _ _ hs]
    exact mget_mset_same ..
  rw [hput _ _ _ (by simp [routerRec])]

end bypass

end fences

section records
variable {s : State} {w : Writer}

/-! ## The log: records appended and merged (R454, R460) -/

/-- The log and the power unit of a state. -/
def logPower (s : State) : Log × Power := (s.log, s.power)

theorem raiseEvent_logPower (s : State) (k : Nat) (o : W16) (b : List Byte) (v : BitVec 2) : logPower (raiseEvent s k o b v) = logPower s := by
  rw [raiseEvent_mgmt]
  rfl

/-- A stop of the module leaves the log, and the power unit with its rails off and the alert set. -/
theorem fatalStop_logPower (s : State) : logPower (fatalStop s) = (s.log, (railsOff { s with power := { s.power with alertSrc := s.power.alertSrc ||| 0x20 } }).power) := by
  have hjob : ∀ (s : State) (j : BitVec 2), logPower (stopJob s j) = logPower s := by
    intro s j
    unfold stopJob
    split
    · rfl
    · exact raiseEvent_logPower ..
  unfold fatalStop
  extract_lets _ s1 s2 s3 s4 _ s5
  have h2 : logPower s2 = logPower s1 := by
    refine Laws.foldl_keeps _ logPower (fun u d => ?_) _ s1
    dsimp only
    split
    · exact raiseEvent_logPower ..
    · rfl
  have h3 : logPower s3 = logPower s2 := by
    refine Laws.foldl_keeps _ logPower (fun u p => ?_) _ s2
    split
    · rfl
    · exact raiseEvent_logPower ..
  have h4 : logPower s4 = logPower s3 := by
    refine Laws.foldl_keeps _ logPower (fun u n => ?_) _ s3
    exact raiseEvent_logPower ..
  have h5 : logPower s5 = logPower s4 :=
    (Laws.foldl_keeps stopJob logPower hjob jobs4 { s4 with net := emptyNet s4.net, gather := { s4.gather with opened := [] } } : _)
  clear_value s5
  exact (raiseEvent_logPower ..).trans (h5.trans (h4.trans (h3.trans h2)))

theorem fatalStop_log (s : State) : (fatalStop s).log = s.log := congrArg Prod.fst (fatalStop_logPower s)

/-- A record of any severity stands last in a log with room, and no window changes. -/
theorem putRecord_room {r : ErrRec} (h : s.log.recs.length < 4096) :
    (putRecord s r).1.log.recs = s.log.recs ++ [r] ∧ (putRecord s r).1.log.wins = s.log.wins ∧ (putRecord s r).2 = false := by
  have hroom : logAppend { s.log with seq := r.seq + 1 } r = ({ s.log with seq := r.seq + 1, recs := s.log.recs ++ [r], head := r.seq }, false) := logAppend_room h
  by_cases hs : r.sev = 3
  · have hlog : (putRecord s r).1.log.recs = s.log.recs ++ [r] ∧ (putRecord s r).1.log.wins = s.log.wins ∧ (putRecord s r).2 = false := by
      simp only [putRecord, hroom, hs, if_true, fatalStop_log]
      split <;> simp only [raiseEvent_log, ringAppend_log, and_self]
    exact hlog
  · obtain ⟨hl, hlost⟩ := putRecord_log (s := s) hs
    rw [hl, hlost, hroom]
    exact ⟨rfl, rfl, rfl⟩

/-- With no window open and room in the log, an error that is not FATAL takes the next number and stands last. -/
theorem putErr_appends {e : Err} (hs : e.sev ≠ 3) (hj : e.job = none) (hw : s.log.wins = []) (hl : s.log.recs.length < 4096) :
    (putErr s e).log.recs = s.log.recs ++ [errRec s e] ∧ (putErr s e).log.head = s.log.seq ∧ (putErr s e).log.seq = s.log.seq + 1 := by
  obtain ⟨ws, -, hlost, hlog⟩ := putErr1_room (s := s) (e := e) hs (by rw [hw]; rfl) hl
  have he : putErr s e = (putErr1 s e).1 := by
    simp only [putErr, hj]
    exact if_neg (ne_true_of_eq_false hlost)
  rw [he, hlog]
  exact ⟨rfl, rfl, rfl⟩

/-- The merge window of an error whose time has passed. -/
def mergeDue (s : State) (cause : Byte) (unit : BitVec 4) (source : W16) (job : BitVec 2) (m : MergeWin) : Prop :=
  m.first.cause = cause ∧ m.first.unit = unit ∧ m.first.source = source ∧ m.first.job = job ∧ m.since.toNat + 1000000 * fldN s.log.cfg 16 8 ≤ now s

section merge
variable {cause : Byte} {unit : BitVec 4} {source : W16} {job : BitVec 2} {m : MergeWin}

/-- The merged record of a window. -/
def mergedRec (s : State) (m : MergeWin) : ErrRec :=
  { m.first with time := s.mod.time, seq := s.log.seq, merged := true, info0 := BitVec.ofNat 64 m.count, info1 := m.lastInfo0 }

/-- ERR_MERGE_END, by the window it finds. -/
def mergeEnds (s : State) (found : Option MergeWin) : State :=
  match found with
  | some w =>
    let s := { s with log := { s.log with wins := s.log.wins.erase w } }
    if w.count = 0 then s
    else
      let (s, lost) := putRecord s (mergedRec s w)
      if lost then (putErr1 s (lostErr s)).1 else s
  | none => s

theorem exec_errMergeEnd_eq : exec (.errMergeEnd cause unit source job) s = .next (mergeEnds s (s.log.wins.find? fun w =>
    decide (w.first.cause = cause ∧ w.first.unit = unit ∧ w.first.source = source ∧ w.first.job = job)
      && decide (w.since.toNat + 1000000 * fldN s.log.cfg 16 8 ≤ now s))) := rfl

theorem exec_errMergeEnd_none (h : ∀ m ∈ s.log.wins, ¬ mergeDue s cause unit source job m) : exec (.errMergeEnd cause unit source job) s = .next s := by
  rw [exec_errMergeEnd_eq, List.find?_eq_none.mpr]
  · rfl
  · intro m hm hc
    simp only [Bool.and_eq_true, decide_eq_true_eq] at hc
    obtain ⟨⟨h1, h2, h3, h4⟩, h5⟩ := hc
    exact h m hm ⟨h1, h2, h3, h4, h5⟩

theorem exec_errMergeEnd_one (hw : s.log.wins = [m]) (hm : mergeDue s cause unit source job m) :
    exec (.errMergeEnd cause unit source job) s = .next (mergeEnds s (some m)) := by
  obtain ⟨h1, h2, h3, h4, h5⟩ := hm
  have hd : (decide (m.first.cause = cause ∧ m.first.unit = unit ∧ m.first.source = source ∧ m.first.job = job)
      && decide (m.since.toNat + 1000000 * fldN s.log.cfg 16 8 ≤ now s)) = true := by
    rw [decide_eq_true ⟨h1, h2, h3, h4⟩, decide_eq_true h5]
    rfl
  rw [exec_errMergeEnd_eq, hw]
  exact congrArg (fun x => Host.Outcome.next (mergeEnds s x)) (List.find?_cons_of_pos hd)

/-- The one window open, closed. -/
theorem wins_erase (hw : s.log.wins = [m]) : s.log.wins.erase m = [] := by rw [hw, List.erase_cons_head]

theorem mergeEnds_unmerged (hw : s.log.wins = [m]) (hc : m.count = 0) : mergeEnds s (some m) = { s with log := { s.log with wins := [] } } := by
  refine (if_pos hc).trans ?_
  rw [wins_erase hw]

theorem mergeEnds_merged (hw : s.log.wins = [m]) (hc : m.count ≠ 0) (hl : s.log.recs.length < 4096) :
    (mergeEnds s (some m)).log.wins = [] ∧ (mergeEnds s (some m)).log.recs = s.log.recs ++ [mergedRec s m] := by
  obtain ⟨hrecs, hwins, hlost⟩ := putRecord_room (s := { s with log := { s.log with wins := [] } }) (r := mergedRec s m) hl
  have he : mergeEnds s (some m) = (putRecord { s with log := { s.log with wins := [] } } (mergedRec s m)).1 := by
    refine (if_neg hc).trans ?_
    rw [wins_erase hw]
    exact if_neg (ne_true_of_eq_false hlost)
  rw [he]
  exact ⟨hwins, hrecs⟩

end merge

/-! ## Checkers, the island's SRAM, the reset after a FATAL record (R454, R455, R464) -/

/-- The island is out of reset. -/
theorem islandUp_iff : islandUp s = true ↔ s.mod.resetN = true ∧ 1 ≤ s.mod.step.toNat := by simp [islandUp]

theorem exec_checkerSelftest_down (h : ¬ islandUp s = true) (u : CheckerUnit) : exec (.checkerSelftest (some u)) s = .next s :=
  congrArg Host.Outcome.next (if_neg h)

theorem exec_checkerSelftest_island (h : islandUp s = true) : Goes (exec (.checkerSelftest (some .island)) s) fun t => t.mod.st = .failed :=
  ⟨_, congrArg Host.Outcome.next (if_pos h), (putErr_fatal _ rfl rfl).1⟩

theorem exec_checkerSelftest_tile {tile : W16} (h : islandUp s = true) (hu : tileUp s tile) (ha : autoFence s = true) (hf : (getTile s tile).fenced = false) :
    Goes (exec (.checkerSelftest (some (.tile tile))) s) (TileFenced s tile) := by
  have hs : ∀ c d i, (fenceErr tile c d i).sev ≠ 3 := fun _ _ _ => by simp [fenceErr]
  obtain ⟨u, hu1⟩ : ∃ u, u = putErr (putErr s (fenceErr tile cCheckerFail 0 false)) (fenceErr tile cTileFault 4 false) := ⟨_, rfl⟩
  have hhalves : u.halves = s.halves := by rw [hu1, putErr_halves _ _ (hs _ _ _), putErr_halves _ _ (hs _ _ _)]
  have htile : getTile u tile = getTile s tile := by rw [hu1, getTile_putErr _ _ (hs _ _ _), getTile_putErr _ _ (hs _ _ _)]
  have hauto : autoFence u = true := by
    unfold autoFence
    rw [hu1, putErr_cfg _ (hs _ _ _), putErr_cfg _ (hs _ _ _)]
    exact ha
  have hready : dieReady u (tDie tile) = true := by
    unfold dieReady getDie
    rw [hu1, putErr_dies _ _ (hs _ _ _), putErr_dies _ _ (hs _ _ _)]
    exact hu.2
  have hfault : checkerMissed s (.tile tile) = fenceTile u tile false := by
    refine (if_pos hu.1).trans ?_
    unfold tileFault
    dsimp only
    rw [← hu1, if_neg (by rw [htile, hf]; exact Bool.false_ne_true), if_neg (by rw [hready]; exact fun hc => Bool.noConfusion hc), if_pos hauto]
  exact ⟨_, congrArg Host.Outcome.next ((if_pos h).trans hfault), (fenceTile_fenced u tile false).of_halves hhalves⟩

theorem exec_islandSramPatrol_idle {a : Nat} {bits : BitVec 2} (h : bits.toNat < 2 ∨ ¬ islandUp s = true) : exec (.islandSramPatrol a bits) s = .next s :=
  congrArg Host.Outcome.next (if_pos (h.imp_right fun hc => by simpa using hc))

theorem exec_islandSramPatrol_two {a : Nat} {bits : BitVec 2} (hi : islandUp s = true) (hb : 2 ≤ bits.toNat) (hw : s.log.wins = [])
    (hl : s.log.recs.length < 4096) : Goes (exec (.islandSramPatrol a bits) s) fun t =>
      ∃ r : ErrRec, t.log.recs = s.log.recs ++ [r] ∧ r.unit = 9 ∧ r.source = 18 ∧ r.seq = s.log.seq ∧ r.time = s.mod.time := by
  refine ⟨_, congrArg Host.Outcome.next (if_neg ?_), _, (putErr_appends (s := (freshWord s).2) (by simp [islandErr]) rfl hw hl).1, rfl, rfl, rfl, rfl⟩
  rintro (hc | hc)
  · omega
  · exact absurd hi (by simpa using hc)

/-- The reset after a FATAL record is due. -/
def fatalDue (s : State) : Prop := s.mod.fatal = true ∧ bitAt s.log.cfg 29 = true ∧ s.mod.fatalAt.toNat + 1000000000 ≤ now s

theorem exec_fatalResetExpire_not_due {f : StartFound} (h : ¬ fatalDue s) : exec (.fatalResetExpire f) s = .next s :=
  congrArg Host.Outcome.next (if_neg fun hc => h (by
    simp only [Bool.and_eq_true, decide_eq_true_eq] at hc
    exact ⟨hc.1.1, hc.1.2, hc.2⟩))

theorem exec_fatalResetExpire_due {f : StartFound} (h : fatalDue s) (hf : f.inRange = false) :
    exec (.fatalResetExpire f) s = .next { moduleReset s with mod := { (moduleReset s).mod with resetN := true } } := by
  obtain ⟨h1, h2, h3⟩ := h
  refine congrArg Host.Outcome.next ((if_pos ?_).trans (if_neg (ne_true_of_eq_false hf)))
  rw [h1, h2, decide_eq_true h3]
  rfl

end records

/-- Settles O45: fences and bypasses by the writer and the state of tile and router; then merged records, checkers, the island's SRAM and the reset. -/
theorem fencesAndRecords : Obligations.FencesAndRecords := by
  intro s w tile f
  dsimp only
  refine ⟨fun hw => ⟨fenceCtl_world hw, fenceCtl_world hw⟩, fun hw => ⟨fun hp => ?absent, fun hp hd => ?lost, exec_fenceTile_fenced hw, fun hu hf => ?fence, fun hu hc => ?again,
    fun hu hd hc hr => ?retire, fun hu hc hr => ?bypass⟩, fun cause unit source job => ⟨exec_errMergeEnd_none, fun m hm hd => ⟨fun hc => ?unmerged, fun hc hl => ?merged⟩⟩, rfl,
    fun hn => ⟨fun u => exec_checkerSelftest_down (fun hc => hn (islandUp_iff.mp hc)) u, fun a b => exec_islandSramPatrol_idle (.inr fun hc => hn (islandUp_iff.mp hc))⟩,
    fun hi => exec_checkerSelftest_island (islandUp_iff.mpr hi), fun hi hu ha hf => ?checker,
    fun a bits => ⟨fun hb => exec_islandSramPatrol_idle (.inl hb), fun hi => exec_islandSramPatrol_two (islandUp_iff.mpr hi)⟩,
    exec_fatalResetExpire_not_due, fun hd hf => ⟨_, exec_fatalResetExpire_due hd hf, rfl, rfl, rfl, rfl⟩⟩
  case absent =>
    exact ⟨next_finish ((secureWrite_secure hw).trans (fenceCtl_absent (.inl rfl) hp)), next_finish ((secureWrite_secure hw).trans (fenceCtl_absent (.inr rfl) hp))⟩
  case lost =>
    exact ⟨next_finish ((secureWrite_secure hw).trans (fenceCtl_lost (.inl rfl) hp hd)), next_finish ((secureWrite_secure hw).trans (fenceCtl_lost (.inr rfl) hp hd))⟩
  case fence =>
    obtain ⟨t, he, h0, ht, hl, hg⟩ := exec_fenceTile_inService hw hu hf
    exact ⟨t, he, h0, ht, hl, hg⟩
  case again => exact next_finish ((secureWrite_secure hw).trans ((fenceCtl_bypass hu).trans (congrArg (·, stOk) (bypassAt_again hc))))
  case retire => exact ⟨_, next_finish ((secureWrite_secure hw).trans (fenceCtl_bypass hu)), rfl, bypassAt_refused hc hr hd⟩
  case bypass => exact ⟨_, next_finish ((secureWrite_secure hw).trans (fenceCtl_bypass hu)), rfl, bypassAt_bypassed hc hr⟩
  case unmerged => exact (exec_errMergeEnd_one hm hd).trans (congrArg Host.Outcome.next (mergeEnds_unmerged hm hc))
  case merged => exact ⟨_, exec_errMergeEnd_one hm hd, mergeEnds_merged hm hc hl⟩
  case checker =>
    obtain ⟨t, he, ht, hl, hg⟩ := exec_checkerSelftest_tile (islandUp_iff.mpr hi) hu ha hf
    exact ⟨t, he, ht, hl, hg⟩

end Sys2Proof.Machine
end

section
/-!
PROOFS of the statements of the family '16_reliability.md': the management firmware (R473-R477, R494, R497, R500).
-/
namespace Sys2Proof.Machine
open Sys2Proof

/-! ## What an event and a record leave of the management port (R530) -/

/-- The management port but for its events and the messages queued. -/
def mgmtView (m : Mgmt) : Mgmt := { m with evQueue := [], unacked := [], evSeq := 0, eventsSent := 0, eventsLost := 0, outQueue := [] }

section view
variable {s t : State}

theorem pumpEvents_view (n : Nat) (s : State) : mgmtView (pumpEvents n s).mgmt = mgmtView s.mgmt := by
  induction n generalizing s with
  | zero => rfl
  | succ n ih =>
    unfold pumpEvents
    split
    · rfl
    · split
      · exact ih _
      · rfl

theorem raiseEvent_view (s : State) (k : Nat) (o : W16) (b : List Byte) (v : BitVec 2) : mgmtView (raiseEvent s k o b v).mgmt = mgmtView s.mgmt := by
  have queued : ∀ m : Mgmt, mgmtView m = mgmtView s.mgmt → mgmtView (pumpEvents 16 { s with mgmt := m }).mgmt = mgmtView s.mgmt := fun m hm =>
    (pumpEvents_view 16 _).trans hm
  unfold raiseEvent
  split
  · apply queued
    repeat' split
    all_goals rfl
  · rfl

theorem putRecord_view {r : ErrRec} (hs : r.sev ≠ 3) (hj : r.jobValid = false) : mgmtView (putRecord s r).1.mgmt = mgmtView s.mgmt := by
  simp only [putRecord, hs, if_false, ringAppend_of_noJob _ hj]
  split
  · exact raiseEvent_view ..
  · rfl

theorem putErr1_view (s : State) {e : Err} (hs : e.sev ≠ 3) (hj : e.job = none) : mgmtView (putErr1 s e).1.mgmt = mgmtView s.mgmt := by
  have hr : (errRec s e).jobValid = false := by simp [errRec, hj]
  unfold putErr1
  split
  · rfl
  · refine (putRecord_view hs hr).trans ?_
    split <;> rfl

/-- A record of no job, with the LOG_LOST summary, leaves the port but for its events. -/
theorem putErr_view (s : State) {e : Err} (hs : e.sev ≠ 3) (hj : e.job = none) : mgmtView (putErr s e).mgmt = mgmtView s.mgmt := by
  simp only [putErr, hj]
  split
  · exact (putErr1_view _ (by simp [lostErr]) rfl).trans (putErr1_view s hs hj)
  · exact putErr1_view s hs hj

end view

section firmware
variable {s t : State} {w : Writer} {img : Image} {core : Fin 16}

/-- The firmware and the security state after a change of the firmware's, and the management port but for its events. -/
theorem setFw_fw (s : State) (g : Fw → Fw) : (setFw s g).fw = g s.fw := (Recorded.setFw s g).fw
theorem setFw_sec (s : State) (g : Fw → Fw) : (setFw s g).sec = s.sec := by rw [(Recorded.setFw s g).same]
theorem setFw_flash (s : State) (g : Fw → Fw) : (setFw s g).flash = s.flash := by rw [(Recorded.setFw s g).same]
theorem setFw_mod (s : State) (g : Fw → Fw) : (setFw s g).mod = s.mod := by rw [(Recorded.setFw s g).same]
theorem setFw_view (s : State) (g : Fw → Fw) : mgmtView (setFw s g).mgmt = mgmtView s.mgmt := raiseEvent_view ..

/-- The firmware but for its measurements. -/
def fwView (f : Fw) : Fw := { f with meas := [] }

theorem measureMgmt_fw (s : State) : fwView (measureMgmt s).fw = fwView s.fw := rfl

/-! ## The checkpoint and the watchdogs (R473, R474, R477) -/

theorem exec_mgmtCheckpoint_due (h : 2 ≤ s.mod.step.toNat ∧ s.fw.checkpointAt.toNat + 1000000 ≤ now s) :
    exec .mgmtCheckpoint s = .next { s with fw := { s.fw with journal := 0, checkpointAt := s.mod.time } } :=
  congrArg Host.Outcome.next (if_pos (by simpa [mgmtUp] using h))

theorem exec_mgmtCheckpoint_not_due (h : ¬ (2 ≤ s.mod.step.toNat ∧ s.fw.checkpointAt.toNat + 1000000 ≤ now s)) : exec .mgmtCheckpoint s = .next s :=
  congrArg Host.Outcome.next (if_neg fun hc => h (by simpa [mgmtUp] using hc))

/-- A takeover: the firmware it gives, and the kept responses of the journal. -/
theorem takeover_kept (s : State) (g : Fw → Fw) {sev : BitVec 2} (h : sev ≠ 3) : (takeover s g sev).fw = g s.fw
    ∧ (takeover s g sev).mgmt.cache = s.mgmt.cache.filter fun e => journaled e.2.1 := by
  obtain ⟨u, hu⟩ : ∃ u, u = setFw { s with mgmt := { s.mgmt with cache := s.mgmt.cache.filter fun e => journaled e.2.1 } } g := ⟨_, rfl⟩
  have hcalc : takeover s g sev = putErr u (mgmtErr u cMgmtTakeover sev) := hu ▸ rfl
  have hview : mgmtView (takeover s g sev).mgmt = mgmtView u.mgmt := by
    rw [hcalc]
    exact putErr_view u (by simpa [mgmtErr] using h) rfl
  have hcache := congrArg (fun m : Mgmt => m.cache) (hview.trans (hu ▸ setFw_view ..))
  refine ⟨?_, hcache⟩
  rw [hcalc, (Recorded.err u (by simpa [mgmtErr] using h) rfl).fw, hu, setFw_fw]

/-- The old core back in its role, the new slot BAD. -/
def revertedFw (f : Fw) : Fw :=
  { f with
    active := !f.active, slot := !f.slot, standby := 1
    markA := if f.slot then f.markA else 2, markB := if f.slot then 2 else f.markB }

theorem revertFw_fw (s : State) : fwView (revertFw s).fw = fwView (revertedFw s.fw) := by
  obtain ⟨u, hu⟩ : ∃ u, u = takeover s revertedFw 0 := ⟨_, rfl⟩
  have hcalc : revertFw s = measureMgmt (putErr u (mgmtErr u cFwRevert 1)) := hu ▸ rfl
  rw [hcalc, measureMgmt_fw, (Recorded.err u (by simp [mgmtErr]) rfl).fw, hu, (takeover_kept s revertedFw (by decide)).1]

/-- What REVERT and a watchdog in probation leave. -/
theorem revertFw_reverted (s : State) : (revertFw s).fw.active = !s.fw.active ∧ (revertFw s).fw.slot = !s.fw.slot ∧ (revertFw s).fw.standby = 1
    ∧ (if s.fw.slot then (revertFw s).fw.markB = 2 ∧ (revertFw s).fw.markA = s.fw.markA else (revertFw s).fw.markA = 2 ∧ (revertFw s).fw.markB = s.fw.markB) := by
  have hfields := congrArg (fun f : Fw => (f.active, f.slot, f.standby, f.markA, f.markB)) (revertFw_fw s)
  simp only [fwView, revertedFw, Prod.mk.injEq] at hfields
  obtain ⟨ha, hs, hb, hA, hB⟩ := hfields
  refine ⟨ha, hs, hb, ?_⟩
  split
  · next hslot => exact ⟨hB.trans (if_pos hslot), hA.trans (if_pos hslot)⟩
  · next hslot => exact ⟨hA.trans (if_neg hslot), hB.trans (if_neg hslot)⟩

theorem exec_mgmtWatchdog_up (h : 2 ≤ s.mod.step.toNat) : exec .mgmtWatchdog s = .next (match s.fw.standby.toNat with
    | 1 => takeover s (fun f => { f with active := !f.active }) 0
    | 3 => revertFw s
    | _ => takeover s id 1) :=
  congrArg Host.Outcome.next (if_neg (by simp [mgmtUp, h]))

theorem exec_mgmtWatchdog_down (h : ¬ 2 ≤ s.mod.step.toNat) : exec .mgmtWatchdog s = .next s :=
  congrArg Host.Outcome.next (if_pos (by simpa [mgmtUp] using h))

/-- A watchdog of the active core, by STANDBY. -/
theorem exec_mgmtWatchdog_cases (h : 2 ≤ s.mod.step.toNat) :
    (s.fw.standby = 1 → exec .mgmtWatchdog s = .next (takeover s (fun f => { f with active := !f.active }) 0))
    ∧ (s.fw.standby = 3 → exec .mgmtWatchdog s = .next (revertFw s))
    ∧ (s.fw.standby ≠ 1 → s.fw.standby ≠ 3 → exec .mgmtWatchdog s = .next (takeover s id 1)) := by
  rw [exec_mgmtWatchdog_up h]
  refine ⟨fun h1 => ?_, fun h3 => ?_, fun h1 h3 => ?_⟩
  · rw [h1]
    rfl
  · rw [h3]
    rfl
  · refine congrArg Host.Outcome.next ?_
    split
    · next hc => exact absurd (BitVec.eq_of_toNat_eq hc) h1
    · next hc => exact absurd (BitVec.eq_of_toNat_eq hc) h3
    · rfl

theorem exec_appWatchdog_down (h : ¬ (s.mod.resetN = true ∧ s.fw.appImage ≠ none)) : exec (.appWatchdog core) s = .next s :=
  congrArg Host.Outcome.next (if_neg fun hc => h (by simpa [Option.isSome_iff_ne_none] using hc))

/-- The record of an application core's watchdog. -/
def appWdogErr (core : Fin 16) : Err := { cause := cAppWdog, unit := 9, source := BitVec.ofNat 16 core.val, die := 15 }

theorem exec_appWatchdog_runs (h : s.mod.resetN = true ∧ s.fw.appImage ≠ none) : exec (.appWatchdog core) s
    = .next (putErr { s with fw := { s.fw with appReset := setFld s.fw.appReset core.val 1 1 } } (appWdogErr core)) :=
  congrArg Host.Outcome.next (if_pos (by simpa [Option.isSome_iff_ne_none] using h))

/-! ## Handover, COMMIT and REVERT (R475, R476, R500) -/

theorem handoverFw_takes (h : s.fw.standby = 1) : ∃ a b : Nat, ∃ t, handoverFw s img = (t, stOk) ∧ a ≤ 170000000 ∧ b ≤ 20000000
    ∧ t.fw = { s.fw with standby := 2, handover := some { img := (stagedImage s.fw (!s.fw.slot) imgMgmt).getD img, loaded := s.mod.time + BitVec.ofNat 64 a, swap := b } } := by
  refine ⟨(freshWord s).1.toNat % 170000001, (freshWord (freshWord s).2).1.toNat % 20000001, _, if_neg (not_not.mpr h), ?_, ?_, setFw_fw ..⟩
  · have := Nat.mod_lt (freshWord s).1.toNat (y := 170000001) (by omega)
    omega
  · have := Nat.mod_lt (freshWord (freshWord s).2).1.toNat (y := 20000001) (by omega)
    omega

theorem handoverFw_busy (h : s.fw.standby ≠ 1) : handoverFw s img = (s, stCfgBusy) := if_pos h

theorem probationCmd_takes {g : State → State} (h : s.fw.standby = 3) : probationCmd s g = (g s, stOk) := if_pos h
theorem probationCmd_busy {g : State → State} (h : s.fw.standby ≠ 3) : probationCmd s g = (s, stCfgBusy) := if_neg h

theorem toNat_le_maxW (a b : W32) : a.toNat ≤ (maxW a b).toNat ∧ b.toNat ≤ (maxW a b).toNat := by
  unfold maxW
  split <;> omega

/-- The counters raised to those of the new slot. -/
def raisedSec (f : Fw) (x : Sec) : Sec :=
  { x with
    svnIsland := maxW x.svnIsland (slotSvn f f.slot imgIsland), svnMgmt := maxW x.svnMgmt (slotSvn f f.slot imgMgmt)
    svnDiectl := maxW x.svnDiectl (slotSvn f f.slot imgDiectl)
    keyRevoke := if x.keyRevoke.toNat < (slotRevoke f f.slot).toNat then slotRevoke f f.slot else x.keyRevoke }

/-- The probation closed: the new slot GOOD, the old one BAD where the counters exceed its. -/
def committedFw (new old : Bool) (f : Fw) : Fw :=
  { f with standby := 1, markA := if new then (if old then 2 else f.markA) else 0, markB := if new then 0 else if old then 2 else f.markB }

theorem commitFw_eq (s : State) : ∃ old, commitFw s
    = setFw { s with sec := raisedSec s.fw s.sec, flash := { s.flash with slot := some s.fw.slot, gen := s.flash.gen + 1 } } (committedFw s.fw.slot old) := ⟨_, rfl⟩

theorem committedFw_mark (new old : Bool) (f : Fw) : (if new then (committedFw new old f).markB else (committedFw new old f).markA) = 0 := by
  cases new <;> rfl

/-- What COMMIT leaves, or the end of the probation: the slot GOOD, and no counter lower. -/
theorem commitFw_committed (s : State) : let t := commitFw s
    t.fw.active = s.fw.active ∧ t.fw.slot = s.fw.slot ∧ t.fw.standby = 1 ∧ t.flash.slot = some s.fw.slot
      ∧ (if s.fw.slot then t.fw.markB else t.fw.markA) = 0 ∧ s.sec.svnIsland.toNat ≤ t.sec.svnIsland.toNat ∧ s.sec.svnMgmt.toNat ≤ t.sec.svnMgmt.toNat
      ∧ s.sec.svnDiectl.toNat ≤ t.sec.svnDiectl.toNat ∧ s.sec.keyRevoke.toNat ≤ t.sec.keyRevoke.toNat
      ∧ (slotSvn s.fw s.fw.slot imgMgmt).toNat ≤ t.sec.svnMgmt.toNat := by
  obtain ⟨old, hc⟩ := commitFw_eq s
  dsimp only
  rw [hc, setFw_fw, setFw_sec, setFw_flash]
  refine ⟨rfl, rfl, rfl, rfl, committedFw_mark .., (toNat_le_maxW ..).1, (toNat_le_maxW ..).1, (toNat_le_maxW ..).1, ?_, (toNat_le_maxW ..).2⟩
  unfold raisedSec
  dsimp only
  split <;> omega

theorem exec_probationEnd_due (h : s.fw.standby = 3 ∧ s.fw.probationAt.toNat + 60000000000 ≤ now s) : exec .probationEnd s = .next (commitFw s) :=
  congrArg Host.Outcome.next (if_pos h)

theorem exec_probationEnd_not_due (h : ¬ (s.fw.standby = 3 ∧ s.fw.probationAt.toNat + 60000000000 ≤ now s)) : exec .probationEnd s = .next s :=
  congrArg Host.Outcome.next (if_neg h)

/-- A write of the firmware commands from the non-secure world. -/
theorem fwCmd_world {g : State → State × Byte} (hw : secureWriter w = false) :
    Goes (.next (finish (secureWrite w (winAddr 0x1200 1 0) s g))) fun t => t.status = stWorld ∧ t.fw = s.fw ∧ t.sec = s.sec := by
  obtain ⟨t, ht, he⟩ := secureWrite_world (s := s) (f := g) (a := winAddr 0x1200 1 0) hw
  exact ⟨_, congrArg Host.Outcome.next he, rfl, ht.fw, by rw [ht.same]; rfl⟩

/-! ## A handover at the reference cycle (R475) -/

theorem exec_referenceCycle_handover (hr : s.mod.resetN = true) (hj : ∀ j, (getJob s j).st ≠ .unloading) (hd : ∀ d, (getDie s d).join = none) :
    exec .referenceCycle s = .next (settleFw (ticked s)) := by
  have ht : exec .referenceCycle s = .next (settleFw ((List.range 12).foldl settleJoin (jobs4.foldl finishUnload (ticked s)))) := by
    refine congrArg Host.Outcome.next ((if_pos hr).trans ?_)
    simp only [tclkPerRef_eq]
    rfl
  rw [ht, List.foldl_fixed' (fun j => finishUnload_idle (s := ticked s) (hj j)), List.foldl_fixed' (fun d => settleJoin_idle (s := ticked s) (hd d))]

section settle
variable {h : Handover}

theorem settleFw_loading (hf : s.fw.handover = some h) (ht : now s < h.loaded.toNat) : settleFw s = s := by
  simp only [settleFw, hf, ht, if_true]

theorem settleFw_refused (hf : s.fw.handover = some h) (ht : h.loaded.toNat ≤ now s) (hi : imageRefusal s h.img imgMgmt ≠ none) :
    (settleFw s).fw = { s.fw with standby := 1, handover := none } := by
  obtain ⟨d, hd⟩ := Option.ne_none_iff_exists'.mp hi
  simp only [settleFw, hf, Nat.not_lt.mpr ht, if_false, hd]
  rw [(Recorded.err _ (by simp [islandErr]) rfl).fw, setFw_fw]

theorem settleFw_swaps (hf : s.fw.handover = some h) (ht : h.loaded.toNat + h.swap ≤ now s) (hi : imageRefusal s h.img imgMgmt = none)
    (hp : s.sec.preparing = false) : settleFw s = swapFw s h.img := by
  simp only [settleFw, hf, Nat.not_lt.mpr (Nat.le_trans (Nat.le_add_right _ _) ht), if_false, hi, ht, hp, and_self, if_true]

/-- The roles change: the new slot in PROBATION. -/
theorem swapFw_swapped (s : State) (img : Image) : (swapFw s img).fw.active = !s.fw.active ∧ (swapFw s img).fw.slot = !s.fw.slot
    ∧ (swapFw s img).fw.standby = 3 ∧ (swapFw s img).fw.handover = none ∧ (swapFw s img).fw.probationAt = s.mod.time := by
  have hcalc : ∃ g : Fw → Fw, swapFw s img = measureMgmt (putErr (setFw s g) (mgmtErr (setFw s g) cFwHandover 0)) ∧ (g s.fw).active = !s.fw.active
      ∧ (g s.fw).slot = !s.fw.slot ∧ (g s.fw).standby = 3 ∧ (g s.fw).handover = none ∧ (g s.fw).probationAt = s.mod.time := ⟨_, rfl, rfl, rfl, rfl, rfl, rfl⟩
  obtain ⟨g, hg, ha, hs, hb, hh, hp⟩ := hcalc
  have hfw : fwView (swapFw s img).fw = fwView (g s.fw) := by
    rw [hg, measureMgmt_fw, (Recorded.err _ (by simp [mgmtErr]) rfl).fw, setFw_fw]
  have hfields := congrArg (fun f : Fw => (f.active, f.slot, f.standby, f.handover, f.probationAt)) hfw
  simp only [fwView, Prod.mk.injEq] at hfields
  obtain ⟨ha', hs', hb', hh', hp'⟩ := hfields
  exact ⟨ha'.trans ha, hs'.trans hs, hb'.trans hb, hh'.trans hh, hp'.trans hp⟩

end settle

end firmware

/-- Settles O46: the checkpoint and the watchdog; the commands by their writer; the end of the probation, a handover at the reference cycle, and the
watchdog of an application core. -/
theorem managementFirmware : Obligations.ManagementFirmware := by
  intro s w img core
  dsimp only
  refine ⟨exec_mgmtCheckpoint_not_due, exec_mgmtCheckpoint_due, exec_mgmtWatchdog_down, fun hu h1 => ?taken, fun hu h3 => ⟨_, (exec_mgmtWatchdog_cases hu).2.1 h3, revertFw_reverted s⟩,
    fun hu h1 h3 => ⟨_, (exec_mgmtWatchdog_cases hu).2.2 h1 h3, (takeover_kept s id (by decide)).1⟩, fun hw => ⟨fwCmd_world hw, fwCmd_world hw, fwCmd_world hw⟩,
    fun hw => ⟨fun h1 => ?busy, fun h1 => ?handover, fun h3 => ⟨?commitBusy, ?revertBusy⟩, fun h3 => ⟨?commit, ?revert⟩⟩,
    fun hd => ⟨_, exec_probationEnd_due hd, commitFw_committed s⟩, exec_probationEnd_not_due, fun h hr hj hd hf => ?settle, exec_appWatchdog_down, fun hr => ?app⟩
  case taken => exact ⟨_, (exec_mgmtWatchdog_cases hu).1 h1, takeover_kept s _ (by decide)⟩
  case busy => exact next_finish ((secureWrite_secure hw).trans (handoverFw_busy h1))
  case handover =>
    obtain ⟨a, b, t, ht, ha, hb, hfw⟩ := handoverFw_takes (img := img) h1
    exact ⟨_, next_finish ((secureWrite_secure hw).trans ht), rfl, a, b, ha, hb, hfw⟩
  case commitBusy => exact next_finish ((secureWrite_secure hw).trans (probationCmd_busy h3))
  case revertBusy => exact next_finish ((secureWrite_secure hw).trans (probationCmd_busy h3))
  case commit => exact ⟨_, next_finish ((secureWrite_secure hw).trans (probationCmd_takes h3)), rfl, commitFw_committed s⟩
  case revert => exact ⟨_, next_finish ((secureWrite_secure hw).trans (probationCmd_takes h3)), rfl, revertFw_reverted s⟩
  case settle =>
    have hx := exec_referenceCycle_handover hr hj hd
    refine ⟨fun ht => ?_, fun ht hi => ?_, fun ht hi hp => ?_⟩
    · exact ⟨_, hx, (congrArg State.fw (settleFw_loading (s := ticked s) hf ht)).trans rfl⟩
    · exact ⟨_, hx, settleFw_refused (s := ticked s) hf ht hi⟩
    · refine ⟨_, hx, ?_⟩
      dsimp only
      rw [settleFw_swaps (s := ticked s) hf ht hi hp]
      exact swapFw_swapped (ticked s) h.img
  case app =>
    refine ⟨_, exec_appWatchdog_runs hr, (Recorded.err _ (by simp [appWdogErr]) rfl).fw, fun hw hl => ?_⟩
    have hs : (appWdogErr core).sev ≠ 3 := by simp [appWdogErr]
    obtain ⟨hrecs, hhead, hseq⟩ := putErr_appends (s := { s with fw := { s.fw with appReset := setFld s.fw.appReset core.val 1 1 } }) hs rfl hw hl
    exact ⟨_, hrecs, rfl, rfl, rfl, rfl, rfl, rfl, hhead, hseq⟩

end Sys2Proof.Machine
end

section
/-!
PROOFS of the statements of the family '19_power.md': the power states, the input, rails and phases (R549-R557, R569).
-/
namespace Sys2Proof.Machine
open Sys2Proof

/-- What a step makes so for its element, where a fact that every step leaves holds, is so in the end, where every step leaves it. -/
theorem foldl_sets_where {α : Type} {f : State → α → State} {P Q : State → Prop} {l : List α} {a : α} (ha : a ∈ l) (hQ : ∀ s b, Q s → Q (f s b))
    (hk : ∀ s b, Q s → P s → P (f s b)) (hm : ∀ s, Q s → P (f s a)) {s : State} (hs : Q s) : P (l.foldl f s) := by
  have hkeep : ∀ (l : List α) (s : State), Q s → P s → P (l.foldl f s) := by
    intro l
    induction l with
    | nil => exact fun _ _ h => h
    | cons b l ih => exact fun s hs h => ih _ (hQ s b hs) (hk s b hs h)
  induction l generalizing s with
  | nil => cases ha
  | cons b l ih =>
    by_cases hb : a ∈ l
    · exact ih hb (hQ s b hs)
    · obtain rfl : a = b := (List.mem_cons.mp ha).resolve_right hb
      exact hkeep l _ (hQ s a hs) (hm s hs)

section start
variable {s t : State} {f : StartFound}

/-! ## START (R447, R555, R556) -/

theorem powerUp_other (h : ¬ (s.power.st = 1 ∧ s.mod.st = .standby)) : powerUp s f = s := if_neg h

/-- The state in which the ramp begins. -/
def ramping (s : State) : State := setModSt { s with power := { s.power with st := 2 } } fun m => { m with st := .ramp, step := 2 }

theorem ramping_parts (s : State) : (ramping s).mod = { s.mod with st := .ramp, step := 2 } ∧ (ramping s).power = { s.power with st := 2 } := by
  have h := Recorded.modSt { s with power := { s.power with st := 2 } } fun m => { m with st := .ramp, step := 2 }
  refine ⟨h.mod, ?_⟩
  unfold ramping
  rw [h.same]

/-- The ramp ended: the rails on, but for those that fail. -/
def ramped (s : State) (f : StartFound) : State := f.badRails.foldl rampFails ((List.range 28).foldl railOn (ramping s))

theorem powerUp_standby (hp : s.power.st = 1) (hm : s.mod.st = .standby) : powerUp s f
    = if s.power.vin.toNat < 3200 then { ramping s with power := { (ramping s).power with paused := true } }
      else if (ramped s f).mod.st = .failed then ramped s f
      else startDies { ramped s f with power := { (ramped s f).power with
        st := 3, pgood := true, paused := false, allow := 100, allowance := allowSize (ramped s f), scaled := false } } f := by
  have hv : (ramping s).power.vin = s.power.vin := by rw [(ramping_parts s).2]
  have hr : ¬ s.mod.st = .ramp := by
    rw [hm]
    exact fun hc => ModSt.noConfusion hc
  refine (if_pos ⟨hp, hm⟩).trans ?_
  unfold rampUp
  extract_lets _ s1 _ s2 s3
  have h1 : s1 = ramping s := if_neg hr
  have h3 : s3 = ramped s f := congrArg (fun u => f.badRails.foldl rampFails ((List.range 28).foldl railOn u)) h1
  clear_value s3 s1
  subst h1 h3
  rw [hv]

/-- A start-up that fails. -/
theorem startFail_failed (s : State) : (startFail s).mod.st = .failed := (putErr_fatal s rfl rfl).1

/-- Start-up with no base die or no reference fails. -/
theorem startDies_fails (h : f.baseDiesOk = false ∨ f.refOk = false) : (startDies s f).mod.st = .failed := by
  unfold startDies
  extract_lets p s1 s2 r s3 s4 _ s5 s6 s7 s8 s9 s10 s11
  by_cases hr : f.refOk = true
  · have hb : f.baseDiesOk = false := h.resolve_right (by simp [hr])
    rw [if_neg (by simp [hr]), if_pos (by simp [hb])]
    exact startFail_failed _
  · rw [if_pos (by simpa using hr)]
    exact startFail_failed _

/-! What start-up leaves of the power unit. -/

theorem setModSt_power (s : State) (g : Mod → Mod) : (setModSt s g).power = s.power := by rw [(Recorded.modSt s g).same]

theorem putErr_power_of (s : State) {e : Err} (h : e.sev ≠ 3) : (putErr s e).power = s.power := by rw [SameButLog.err s e h]

theorem absent_power (s : State) (d : Nat) {e : Err} (h : e.sev ≠ 3) : (absent s d e).power = s.power :=
  (putErr_power_of (modDie s d fun x => { x with missed := true }) h :)

theorem discoverDie_power (f : StartFound) (r : List Nat) (s : State) (d : Nat) : (discoverDie f r s d).power = s.power := by
  have hdie : ∀ c v, v ≠ 3 → (absent s d (dieErr s c v d)).power = s.power := fun c v hv => absent_power s d hv
  unfold discoverDie
  split
  · rfl
  split
  · exact hdie _ _ (by decide)
  split
  · exact hdie _ _ (by decide)
  split
  · split
    · exact hdie _ _ (by decide)
    split
    · exact absent_power s d (by simp [islandErr])
    · rfl
  · rfl

theorem numberHalf_power (s : State) (i : Nat) : (numberHalf s i).power = s.power := by
  unfold numberHalf
  dsimp only
  split <;> rfl

theorem setDieSt_power (s : State) (d : Nat) (g : Die → Die) : (setDieSt s d g).power = s.power := by
  obtain ⟨m, hm⟩ := setDieSt_rest s d g
  rw [hm]
  rfl

theorem testDie_power (f : StartFound) (s : State) (d : Nat) : (testDie f s d).power = s.power := by
  unfold testDie
  split
  · split
    · exact setDieSt_power ..
    · refine (absent_power _ d ?_).trans ?_
      · simp [dieErr]
      · rfl
  · rfl

theorem bistFence_power (s : State) (d i : Nat) : (bistFence s d i).power = s.power := by
  unfold bistFence
  extract_lets u
  split
  · exact (putErr_power_of (modTile s u fun x => { x with fenced := true }) (e := fenceErr u cBistFence 0 false) (by simp [fenceErr]) :)
  · rfl

theorem trainEdges_power (f : StartFound) (s : State) : (trainEdges f s).power = s.power :=
  (JoinKeeps.foldl (fun s e => JoinKeeps.trainEdge s e (bitAt f.edgesOk e) (pairsOf f.pairs e)) _ s).power

/-- The training of UCIe modules fails the module, or leaves its power unit. -/
theorem trainUcie_power (f : StartFound) (s : State) : (trainUcie f s).mod.st = .failed ∨ (trainUcie f s).power = s.power := by
  unfold trainUcie
  extract_lets m _ u
  split
  · exact .inl (putErr_fatal u rfl rfl).1
  · exact .inr rfl

theorem startPorts_power (s : State) (d : Nat) : (startPorts s d).power = s.power := (JoinKeeps.startPorts s d).power

/-- Start-up fails, or ends READY with its power unit as it was. -/
theorem startDies_ends (s : State) (f : StartFound) :
    (startDies s f).mod.st = .failed ∨ (startDies s f).mod.st = .ready ∧ (startDies s f).mod.step = 8 ∧ (startDies s f).power = s.power := by
  unfold startDies
  extract_lets p s1 s2 r s3 s4 _ s5 s6 s7 s8 s9 s10 s11
  have h2 : s2.power = s.power := setModSt_power ..
  have h3 : s3.power = s2.power := Laws.foldl_keeps _ State.power (discoverDie_power f r) _ s2
  have h4 : s4.power = s3.power := Laws.foldl_keeps _ State.power numberHalf_power _ s3
  have h6 : s6.power = s4.power := setModSt_power ..
  have h7 : s7.power = s6.power := Laws.foldl_keeps _ State.power (testDie_power f) _ s6
  have h8 : s8.power = s7.power := by
    refine Laws.foldl_keeps _ State.power (fun u d => ?_) _ s7
    split
    · exact (JoinKeeps.trainStack _ d _).power.trans (Laws.foldl_keeps _ State.power (fun u i => bistFence_power u d i) _ u)
    · rfl
  have h9 : s9.mod.st = .failed ∨ s9.power = s.power := (trainUcie_power f _).imp_right fun h =>
    h.trans ((trainEdges_power f s8).trans (h8.trans (h7.trans (h6.trans (h4.trans (h3.trans h2))))))
  clear_value s9
  have h10 : s10.power = s9.power := (Laws.foldl_keeps startPorts State.power startPorts_power (readyDies s9) s9 :)
  have h11 : s11.power = s10.power := rfl
  split
  · exact .inl (startFail_failed _)
  split
  · exact .inl (startFail_failed _)
  split
  · exact .inl (startFail_failed _)
  split
  · next hf => exact .inl hf
  · next hf =>
    have hr := Recorded.modSt { s11 with sec := { s11.sec with readyRegions := s11.regions } } fun m => { m with st := .ready, step := 8 }
    have hst := congrArg (fun m : Mod => (m.st, m.step)) hr.mod
    exact .inr ⟨congrArg Prod.fst hst, congrArg Prod.snd hst, (setModSt_power ..).trans (h11.trans (h10.trans (h9.resolve_left hf)))⟩

theorem powerUp_low (hp : s.power.st = 1) (hm : s.mod.st = .standby) (hv : s.power.vin.toNat < 3200) :
    (powerUp s f).mod.st = .ramp ∧ (powerUp s f).power.st = 2 ∧ (powerUp s f).power.paused = true := by
  obtain ⟨hmod, hpower⟩ := ramping_parts s
  rw [powerUp_standby hp hm, if_pos hv]
  refine ⟨congrArg (fun m : Mod => m.st) hmod, ?_, rfl⟩
  dsimp only
  rw [hpower]

theorem powerUp_ends (hp : s.power.st = 1) (hm : s.mod.st = .standby) (hv : 3200 ≤ s.power.vin.toNat) : (powerUp s f).mod.st = .failed
    ∨ (powerUp s f).mod.st = .ready ∧ (powerUp s f).mod.step = 8 ∧ (powerUp s f).power.st = 3 ∧ (powerUp s f).power.pgood = true := by
  rw [powerUp_standby hp hm, if_neg (Nat.not_lt.mpr hv)]
  dsimp only
  split
  · next hf => exact .inl hf
  · refine (startDies_ends _ f).imp_right fun ⟨hst, hstep, hpw⟩ => ⟨hst, hstep, ?_⟩
    rw [hpw]
    exact ⟨rfl, rfl⟩

theorem powerUp_fails (hp : s.power.st = 1) (hm : s.mod.st = .standby) (hv : 3200 ≤ s.power.vin.toNat) (h : f.baseDiesOk = false ∨ f.refOk = false) :
    (powerUp s f).mod.st = .failed := by
  rw [powerUp_standby hp hm, if_neg (Nat.not_lt.mpr hv)]
  dsimp only
  split
  · assumption
  · exact startDies_fails h

end start

section states
variable {s t : State} {w : Writer} {f : StartFound}

/-! ## STANDBY (R555, R557) -/

/-- Jobs that are loaded. -/
def jobsLoaded (s : State) : Bool := jobs4.any fun j => decide ((getJob s j).st ≠ .unloaded)

theorem powerStandby_loaded (h : jobsLoaded s = true) : powerStandby s = (s, stCfgBusy) := if_pos h

theorem powerStandby_standby (h : jobsLoaded s = false) (hp : s.power.st = 1) : powerStandby s = (s, stOk) :=
  (if_neg (ne_true_of_eq_false h)).trans (if_pos hp)

theorem powerStandby_holds (h : jobsLoaded s = false) (hp : s.power.st ≠ 1) :
    powerStandby s = (setModSt (holdDies (railsOff s)) fun m => { m with st := .standby, step := 2 }, stOk) :=
  (if_neg (ne_true_of_eq_false h)).trans (if_neg hp)

/-- A die held, if it is present. -/
def holdDie (s : State) (d : Nat) : State :=
  if diePresent s d then resetHalf (resetHalf (setDieSt s d fun x => { wipeDie x with st := .held, heldAt := s.mod.time }) d false) d true else s

/-- The stack of a held die lost. -/
def dropStack (s : State) (n : Nat) : State := if (getStack s n).st = .offline then s else loseStack s n

/-- The port of a held die at its values from the flash. -/
def dropPort (s : State) (p : Nat) : State := if (getPort s p).st = .off then s else setPort s p fun _ => flashPort s p

/-- Every die held, with its stack and ports lost, before the rest is emptied. -/
def diesHeld (s : State) : State := (List.range 24).foldl dropPort ((List.range 12).foldl dropStack ((List.range 12).foldl holdDie s))

/-- The module emptied but for its dies' registers. -/
def emptied (s : State) : State :=
  { s with
    tiles := [], hbm := []
    gather := { s.gather with opened := [] }
    mod := { s.mod with ucie := 0, invalWait := [] }
    net := emptyNet s.net }

theorem holdDies_eq (s : State) : holdDies s = settleInval (emptied (diesHeld s)) := by
  unfold holdDies
  extract_lets s1 s2 s3
  have h1 : s1 = (List.range 12).foldl holdDie s := rfl
  clear_value s1
  have h2 : s2 = (List.range 12).foldl dropStack s1 := rfl
  clear_value s2
  have h3 : s3 = (List.range 24).foldl dropPort s2 := rfl
  clear_value s3
  have hs : s3 = diesHeld s := by
    rw [h3, h2, h1]
    rfl
  rw [← hs]
  rfl

theorem holdDie_mod (s : State) (d : Nat) : (holdDie s d).mod = s.mod := by
  unfold holdDie
  split
  · obtain ⟨m, hm⟩ := setDieSt_rest s d fun x => { wipeDie x with st := .held, heldAt := s.mod.time }
    rw [hm]
    rfl
  · rfl

theorem holdDie_getDie {d : Nat} (h : diePresent s d = true) : (getDie (holdDie s d) d).st = .held := by
  unfold holdDie
  rw [if_pos h]
  exact (congrArg Die.st (getDie_setDieSt_same s d fun x => { wipeDie x with st := .held, heldAt := s.mod.time }) :)

theorem holdDie_held {d : Nat} (e : Nat) (h : (getDie s d).st = .held) : (getDie (holdDie s e) d).st = .held := by
  by_cases hp : diePresent s e = true
  · by_cases he : d = e
    · subst he
      exact holdDie_getDie hp
    · unfold holdDie
      rw [if_pos hp]
      exact (congrArg Die.st (setDieSt_join (s := s) (g := fun x => { wipeDie x with st := .held, heldAt := s.mod.time }) he) :).trans h
  · unfold holdDie
    rw [if_neg hp]
    exact h

theorem dropStack_stands (s : State) (n : Nat) : Stands s (dropStack s n) := .ite (.refl s) (.loseStack (.refl s))

theorem dropPort_keeps (s : State) (p : Nat) : JoinKeeps s (dropPort s p) := by
  unfold dropPort
  split
  · exact .refl s
  · exact .setPort s p _

theorem dropPort_off (s : State) (p : Nat) : (getPort (dropPort s p) p).st = .off := by
  unfold dropPort
  split
  · assumption
  · rw [getPort_setPort_same]
    rfl

theorem dropPort_keepsOff (s : State) (p q : Nat) (h : (getPort s q).st = .off) : (getPort (dropPort s p) q).st = .off := by
  by_cases hq : q = p
  · subst hq
    exact dropPort_off s q
  · unfold dropPort
    split
    · exact h
    · rwa [getPort_setPort_other _ _ hq]

/-- A held die stays held. -/
theorem Stands.held {d : Nat} (h : Stands s t) (hd : (getDie s d).st = .held) : (getDie t d).st = .held := by
  have hst := congrArg (fun x : Die => x.st) (h.die d (by rw [hd]; exact fun hc => DieSt.noConfusion hc))
  exact (hst : (getDie t d).st = (getDie s d).st).trans hd

/-- The dies present are held. -/
theorem diesHeld_held {d : Nat} (hd : d < 12) (hp : diePresent s d = true) : (getDie (diesHeld s) d).st = .held := by
  have hmod : ∀ t e, diePresent t d = true → diePresent (holdDie t e) d = true := fun t e h => by
    unfold diePresent at *
    rwa [holdDie_mod]
  have hheld : (getDie ((List.range 12).foldl holdDie s) d).st = .held :=
    foldl_sets_where (P := fun t => (getDie t d).st = .held) (Q := fun t => diePresent t d = true) (List.mem_range.mpr hd) hmod
      (fun _ e _ h => holdDie_held e h) (fun _ h => holdDie_getDie h) hp
  have hk : Stands ((List.range 12).foldl holdDie s) ((List.range 12).foldl dropStack ((List.range 12).foldl holdDie s)) :=
    .foldl (.refl _) fun t n h => h.trans (dropStack_stands t n)
  exact (congrArg Die.st ((JoinKeeps.foldl dropPort_keeps (List.range 24) _).getDie d)).trans (hk.held hheld)

theorem diesHeld_off {p : Nat} (hp : p < 24) : (getPort (diesHeld s) p).st = .off :=
  foldl_sets_where (P := fun t => (getPort t p).st = .off) (Q := fun _ => True) (List.mem_range.mpr hp) (fun _ _ _ => trivial)
    (fun t q _ h => dropPort_keepsOff t q p h) (fun t _ => dropPort_off t p) trivial

/-- What settling an invalidation leaves. -/
theorem settleInval_rest (s : State) : ∃ st o, settleInval s = { s with status := st, owed := o } := by
  unfold settleInval payLate
  split
  · split
    · exact ⟨_, _, rfl⟩
    · exact ⟨s.status, s.owed, rfl⟩
  · exact ⟨s.status, s.owed, rfl⟩

theorem fatalStop_pgood (s : State) : (fatalStop s).power.pgood = false := congrArg Power.pgood (congrArg Prod.snd (fatalStop_logPower s))

/-- What the setting of the module's state leaves. -/
theorem setModSt_rest (s : State) (g : Mod → Mod) : ∃ m, setModSt s g = { s with mod := g s.mod, mgmt := m } := ⟨_, raiseEvent_mgmt ..⟩

theorem diesHeld_power (s : State) : (diesHeld s).power = s.power := by
  have hdie : ∀ t d, (holdDie t d).power = t.power := fun t d => by
    unfold holdDie
    split
    · exact setDieSt_power ..
    · rfl
  exact (JoinKeeps.foldl dropPort_keeps (List.range 24) _).power.trans ((Laws.foldl_keeps dropStack State.power (fun t n => (dropStack_stands t n).power) _ _).trans
    (Laws.foldl_keeps holdDie State.power hdie _ s))

theorem exec_powerStandby_holds (h : jobsLoaded s = false) (hp : s.power.st ≠ 1) : Goes (exec (.powerStandby w) s) fun t =>
    t.status = 0 ∧ t.mod.st = .standby ∧ t.power.st = 1 ∧ t.power.pgood = false ∧ t.tiles = [] ∧ t.hbm = [] ∧ t.net.blocks = []
      ∧ (∀ d, d < 12 → diePresent s d = true → (getDie t d).st = .held) ∧ ∀ p, p < 24 → (getPort t p).st = .off := by
  obtain ⟨u, hu⟩ : ∃ u, u = diesHeld (railsOff s) := ⟨_, rfl⟩
  have hpower : u.power = (railsOff s).power := hu ▸ diesHeld_power _
  have hdie : ∀ d, d < 12 → diePresent s d = true → (getDie u d).st = .held := fun d hd hp => hu ▸ diesHeld_held (s := railsOff s) hd hp
  have hport : ∀ p, p < 24 → (getPort u p).st = .off := fun p hp => hu ▸ diesHeld_off hp
  have hheld := holdDies_eq (railsOff s)
  rw [← hu] at hheld
  obtain ⟨st, o, hs⟩ := settleInval_rest (emptied u)
  obtain ⟨m, hm⟩ := setModSt_rest (holdDies (railsOff s)) fun m => { m with st := .standby, step := 2 }
  have he := next_finish (powerStandby_holds h hp)
  rw [hm, hheld, hs] at he
  refine ⟨_, he, rfl, rfl, ?_, ?_, rfl, rfl, rfl, hdie, hport⟩
  · exact congrArg Power.st hpower
  · exact congrArg Power.pgood hpower

/-! ## The input (R549, R556) -/

/-- Everything at its reset values, the rails off, but for what the part keeps. -/
structure PowerGone (s t : State) : Prop where
  tiles : t.tiles = []
  hbm : t.hbm = []
  jobs : t.jobs = []
  st : t.mod.st = .boot
  resetN : t.mod.resetN = s.mod.resetN
  flash : t.flash = s.flash
  pgood : t.power.pgood = false
  vin : t.power.vin.toNat ≤ 3000
  pending : t.pending = s.pending

theorem powerLoss_gone (s : State) : PowerGone s (powerLoss s) := by
  refine ⟨rfl, rfl, rfl, rfl, rfl, rfl, rfl, ?_, rfl⟩
  have hmod := Nat.mod_lt (Config.freeWord (moduleReset s).freeCtr).toNat (y := 3001) (by omega)
  have hvin : (powerLoss s).power.vin.toNat = (Config.freeWord (moduleReset s).freeCtr).toNat % 3001 % 2 ^ 16 := BitVec.toNat_ofNat ..
  rw [hvin, Nat.mod_eq_of_lt (by omega)]
  omega

/-- The words of R549 of a loss of the input. -/
theorem PowerGone.gone (h : PowerGone s t) : t.tiles = [] ∧ t.hbm = [] ∧ t.jobs = [] ∧ t.mod.st = .boot ∧ t.mod.resetN = s.mod.resetN ∧ t.flash = s.flash
    ∧ t.power.pgood = false ∧ t.power.vin.toNat ≤ 3000 ∧ t.pending = s.pending :=
  ⟨h.tiles, h.hbm, h.jobs, h.st, h.resetN, h.flash, h.pgood, h.vin, h.pending⟩

theorem exec_inputLow_low {vin : W16} (hu : islandUp s = true) (hl : 2900 < vin.toNat) (hh : vin.toNat < 3200) : Goes (exec (.inputLow vin) s) fun t =>
    t.power = { s.power with vin, alertSrc := s.power.alertSrc ||| 1 } ∧ t.tiles = s.tiles := by
  refine ⟨_, congrArg Host.Outcome.next (if_pos (by simp [hu, hl, hh])), ?_, ?_⟩
  · exact putErr_power_of (freshWord (alertSet { s with power := { s.power with vin } } 0x01)).2 (by simp)
  · exact putErr_tiles (freshWord (alertSet { s with power := { s.power with vin } } 0x01)).2 _ (by simp)

theorem exec_inputLow_other {vin : W16} (h : ¬ (islandUp s = true ∧ 2900 < vin.toNat ∧ vin.toNat < 3200)) : exec (.inputLow vin) s = .next s := by
  refine congrArg Host.Outcome.next (if_neg fun hc => h ?_)
  simp only [Bool.and_eq_true, decide_eq_true_eq] at hc
  exact ⟨hc.1.1, hc.1.2, hc.2⟩

/-- A record that is not FATAL leaves the flash copies of FATAL records and MOD_PGOOD. -/
theorem putErr1_flashFatal (s : State) {e : Err} (h : e.sev ≠ 3) : (putErr1 s e).1.log.flashFatal = s.log.flashFatal := by
  have happend : ∀ (l : Log) (r : ErrRec), (logAppend l r).1.flashFatal = l.flashFatal := by
    intro l r
    unfold logAppend
    dsimp only
    repeat' split
    all_goals rfl
  have hrec : ∀ (u : State) (r : ErrRec), r.sev ≠ 3 → (putRecord u r).1.log.flashFatal = u.log.flashFatal := fun u r hr => by
    rw [(putRecord_log hr).1, happend]
  unfold putErr1
  split
  · rfl
  · refine (hrec _ _ h).trans ?_
    split <;> rfl

/-- A FATAL record takes MOD_PGOOD, and its flash copy is one of at most sixteen. -/
theorem putErr1_fatal_keeps (s : State) {e : Err} (h : e.sev = 3) : (putErr1 s e).1.power.pgood = false ∧ (putErr1 s e).1.log.flashFatal.length ≤ 16 := by
  have hm : mergeable s.log e = false := by simp [mergeable, h]
  have hr : (errRec s e).sev = 3 := h
  simp only [putErr1, hm, Bool.false_and, Bool.false_eq_true, if_false, putRecord, hr, if_true]
  refine ⟨fatalStop_pgood _, ?_⟩
  rw [fatalStop_log]
  have hlen : ∀ l : List ErrRec, (l.drop (l.length - 16)).length ≤ 16 := fun l => by
    rw [List.length_drop]
    omega
  split
  · rw [raiseEvent_log, ringAppend_log]
    exact hlen _
  · rw [ringAppend_log]
    exact hlen _

theorem putErr_fatal_keeps (s : State) {e : Err} (h : e.sev = 3) (hj : e.job = none) :
    (putErr s e).power.pgood = false ∧ (putErr s e).log.flashFatal.length ≤ 16 := by
  have h1 := putErr1_fatal_keeps s h
  simp only [putErr, hj]
  split
  · have hr := Recorded.err1 (putErr1 s e).1 (e := lostErr (putErr1 s e).1) (by simp [lostErr]) rfl
    rw [putErr1_flashFatal _ (by simp [lostErr]), hr.same]
    exact h1
  · exact h1

theorem exec_inputOvervoltage_island (h : islandUp s = true) : Goes (exec (.inputOvervoltage true) s) fun t =>
    t.mod.st = .failed ∧ t.power.pgood = false ∧ t.log.flashFatal.length ≤ 16 := by
  refine ⟨putPowerErr s cInputFail 3, congrArg Host.Outcome.next (if_neg (by simp [h])), (putErr_fatal (freshWord s).2 rfl rfl).1, ?_⟩
  exact putErr_fatal_keeps (freshWord s).2 rfl rfl

theorem exec_inputOvervoltage_down (h : ¬ islandUp s = true) : exec (.inputOvervoltage true) s = .next (powerLoss s) :=
  congrArg Host.Outcome.next (if_pos (by simpa using h))

theorem exec_inputOvervoltage_all : exec (.inputOvervoltage false) s = .next (powerLoss s) := congrArg Host.Outcome.next (if_pos (by simp))

section inRange
variable {vin : W16}

theorem exec_inputInRange_outside (h : ¬ (3200 ≤ vin.toNat ∧ vin.toNat ≤ 4000)) : exec (.inputInRange vin f) s = .next s :=
  congrArg Host.Outcome.next (if_neg h)

theorem exec_inputInRange_kept (h : 3200 ≤ vin.toNat ∧ vin.toNat ≤ 4000) (hb : s.mod.resetN = false ∨ s.mod.st ≠ .boot ∨ s.mod.step ≠ 0)
    (hp : s.power.paused = false) : exec (.inputInRange vin f) s = .next { s with power := { s.power with vin } } := by
  refine congrArg Host.Outcome.next ((if_pos h).trans ((if_neg fun hc => ?_).trans (if_neg (ne_true_of_eq_false hp))))
  simp only [Bool.and_eq_true, decide_eq_true_eq] at hc
  obtain ⟨⟨hr, hst⟩, hstep⟩ := hc
  obtain hb | hb | hb := hb
  · exact Bool.noConfusion (hr.symm.trans hb)
  · exact hb hst
  · exact hb hstep

theorem exec_inputInRange_boots (h : 3200 ≤ vin.toNat ∧ vin.toNat ≤ 4000) (hr : s.mod.resetN = true) (hst : s.mod.st = .boot) (hstep : s.mod.step = 0) :
    exec (.inputInRange vin f) s = .next (boot { s with power := { s.power with vin }, mod := { s.mod with resetN := true } } f) := by
  have hs : ({ s with power := { s.power with vin }, mod := { s.mod with resetN := true } } : State) = { s with power := { s.power with vin } } := by
    rw [← hr]
  rw [hs]
  exact congrArg Host.Outcome.next ((if_pos h).trans (if_pos (by simp [hr, hst, hstep])))

theorem measureChain_power (s : State) : (measureChain s).power = s.power := rfl

theorem bootSlot_power (s : State) (a : Bool) : (bootSlot s a).power = s.power := by
  unfold bootSlot
  extract_lets f _ _ u
  clear_value f
  have hfw : ∀ (v : State) (g : Fw → Fw), (setFw v g).power = v.power := fun v g => by rw [(Recorded.setFw v g).same]
  have hu : u.power = s.power := hfw _ _
  rw [measureChain_power, setModSt_power]
  exact hu

theorem detect_power (s : State) (b : Bool) : (detect s b).power = s.power := by
  have h := congrArg State.power (detect_recorded s b).same
  exact h

theorem exec_inputInRange_standby (h : 3200 ≤ vin.toNat ∧ vin.toNat ≤ 4000) (hr : s.mod.resetN = true) (hst : s.mod.st = .boot) (hstep : s.mod.step = 0)
    (hk : f.katOk = true) (hp : f.pufOk = true) (hm : f.monoOk = true) (hb : f.badRecords = []) (hs : slotBoots s f s.fw.slot = true) (ha : s.mod.autostart = false) :
    Goes (exec (.inputInRange vin f) s) fun t => t.mod.st = .standby ∧ t.power.vin = vin ∧ t.fw.standby = 1 ∧ t.regions = bootRegions := by
  have hboot := boot_running_slot (s := { s with power := { s.power with vin } }) hk hp hm hb hs ha
  obtain ⟨hmod, hfw, -, hreg⟩ := bootSlot_standby (booting { s with power := { s.power with vin } } f) s.fw.slot
  have hd := detect_recorded (bootSlot (booting { s with power := { s.power with vin } } f) s.fw.slot) f.addrFree
  refine ⟨_, (exec_inputInRange_boots h hr hst hstep).trans (congrArg _ hboot), ?_, ?_, ?_, hd.regions.trans hreg⟩
  · exact (congrArg Mod.st hd.mod).trans (congrArg Mod.st hmod)
  · exact congrArg Power.vin ((detect_power ..).trans (bootSlot_power ..))
  · exact (congrArg Fw.standby hd.fw).trans hfw

end inRange

/-! ## Rails and phases (R551, R552) -/

section rails
variable {rail : Fin 29} {phase : BitVec 4}

theorem getRail_putRail (s : State) (r : Nat) (x : Rail) : getRail (putRail s r x) r = x := mget_mset_same ..

theorem railErr_sev {c : Byte} {v : BitVec 2} {r k : Nat} (h : v ≠ 3) : (railErr c v r k).sev ≠ 3 := h

theorem getRail_of_power (h : t.power = s.power) (r : Nat) : getRail t r = getRail s r := congrArg (fun p : Power => mget Rail.reset p.rails r) h

/-- The rail that leaves its regulation. -/
def railOut (s : State) (r : Nat) : State := putRail s r { getRail s r with st := 3, backAt := none }

theorem exec_railExcursion_other (h : (getRail s rail).st ≠ 2) : exec (.railExcursion rail) s = .next s := congrArg Host.Outcome.next (if_pos h)

theorem exec_railExcursion_die (h : (getRail s rail).st = 2) (hr : rail.val < 24) :
    exec (.railExcursion rail) s = .next (loseDie (putErr (railOut s rail) (railErr cRailExcursion 1 rail 0xFF)) (rail.val % 12) 4) :=
  congrArg Host.Outcome.next ((if_neg (not_not.mpr h)).trans (if_pos hr))

theorem exec_railExcursion_shared (h : (getRail s rail).st = 2) (hl : 24 ≤ rail.val) (hr : rail.val < 28) :
    exec (.railExcursion rail) s = .next (putErr (railOut s rail) (railErr cRailFatal 3 rail 0xFF)) :=
  congrArg Host.Outcome.next ((if_neg (not_not.mpr h)).trans ((if_neg (by omega)).trans (if_pos hr)))

theorem exec_railExcursion_island (h : (getRail s rail).st = 2) (hr : rail.val = 28) : exec (.railExcursion rail) s = .next (powerLoss s) :=
  congrArg Host.Outcome.next ((if_neg (not_not.mpr h)).trans ((if_neg (by omega)).trans (if_neg (by omega))))

/-- A die lost, or none, leaves the power unit. -/
theorem loseDie_power (s : State) (d : Nat) (cause : BitVec 5) : (loseDie s d cause).power = s.power := by
  by_cases h : (getDie s d).st = .ready ∨ (getDie s d).st = .joining
  · exact (loseDie_gone h).power
  · rw [loseDie_other h]

theorem railExcursion_dieLost (s : State) (r : Nat) : let t := loseDie (putErr (railOut s r) (railErr cRailExcursion 1 r 0xFF)) (r % 12) 4
    (getRail t r).st = 3 ∧ (dieReady s (r % 12) = true → (getDie t (r % 12)).st = .held ∧ (getDie t (r % 12)).cause = 4) := by
  have hs : (railErr cRailExcursion 1 r 0xFF).sev ≠ 3 := railErr_sev (by decide)
  obtain ⟨u, hu⟩ : ∃ u, u = putErr (railOut s r) (railErr cRailExcursion 1 r 0xFF) := ⟨_, rfl⟩
  have hpower : u.power = (railOut s r).power := hu ▸ putErr_power_of _ hs
  have hdie : ∀ d, getDie u d = getDie s d := fun d => congrArg (fun m => mget Die.reset m d) (hu ▸ putErr_dies (railOut s r) _ hs : u.dies = s.dies)
  dsimp only
  rw [← hu, getRail_of_power ((loseDie_power ..).trans hpower)]
  refine ⟨congrArg Rail.st (getRail_putRail ..), fun hd => ?_⟩
  have hready : (getDie u (r % 12)).st = .ready := (congrArg Die.st (hdie _)).trans (of_decide_eq_true hd)
  exact ⟨(loseDie_gone (.inl hready)).held hready, (loseDie_gone (.inl hready)).cause⟩

theorem exec_railRegulationReturn_other (h : (getRail s rail).st ≠ 3) : exec (.railRegulationReturn rail) s = .next s :=
  congrArg Host.Outcome.next (if_neg h)

theorem exec_railRegulationReturn_back (h : (getRail s rail).st = 3) :
    exec (.railRegulationReturn rail) s = .next (putRail s rail { getRail s rail with st := 2, backAt := some s.mod.time }) :=
  congrArg Host.Outcome.next (if_pos h)

/-- A phase of the rail that is shed. -/
def phaseShed (x : Rail) (phase : BitVec 4) : Rail := { x with shed := setFld x.shed phase.toNat 1 1, on := setFld x.on phase.toNat 1 0 }

theorem exec_phaseFault_other (h : ¬ (bitAt (railGood rail (getRail s rail)) phase.toNat = true ∧ (getRail s rail).st ≠ 0)) :
    exec (.phaseFault rail phase) s = .next s :=
  congrArg Host.Outcome.next (if_neg fun hc => h (by simpa using hc))

theorem exec_phaseFault_sheds (h : bitAt (railGood rail (getRail s rail)) phase.toNat = true ∧ (getRail s rail).st ≠ 0) :
    Goes (exec (.phaseFault rail phase) s) fun t => getRail t rail = phaseShed (getRail s rail) phase
      ∧ (popCount (railGood rail (phaseShed (getRail s rail) phase)) < railNeeded rail → bitAt t.power.alertSrc 1 = true) := by
  obtain ⟨u, hu⟩ : ∃ u, u = putErr (putRail s rail (phaseShed (getRail s rail) phase)) (railErr cPhaseShed 0 rail phase.toNat) := ⟨_, rfl⟩
  have hpower : u.power = (putRail s rail (phaseShed (getRail s rail) phase)).power := hu ▸ putErr_power_of _ (railErr_sev (by decide))
  have hrail : getRail u rail = phaseShed (getRail s rail) phase := (getRail_of_power hpower _).trans (getRail_putRail ..)
  have hshort := putErr_power_of (alertSet u 0x02) (e := railErr cPhaseShort 1 rail 0xFF) (railErr_sev (by decide))
  have hexec : exec (.phaseFault rail phase) s = .next (if popCount (railGood rail (phaseShed (getRail s rail) phase)) < railNeeded rail then
      putErr (alertSet u 0x02) (railErr cPhaseShort 1 rail 0xFF) else u) := by
    rw [hu]
    exact congrArg Host.Outcome.next (if_pos (by simpa using h))
  rw [hexec]
  refine ⟨_, rfl, ?_, fun hn => ?_⟩
  · split
    · exact (getRail_of_power hshort _).trans hrail
    · exact hrail
  · rw [if_pos hn, hshort]
    have hbit : bitAt (u.power.alertSrc ||| (0x02 : BitVec 6)) 1 = true := by simp [bitAt]
    exact hbit

end rails

/-! ## The settings (R569) -/

theorem writeThermCfg_ok {v : W32} (h : fldN v 24 8 < fldN v 16 8 ∧ fldN v 16 8 < fldN v 8 8 ∧ fldN v 8 8 ≤ 115) :
    writeThermCfg s v = ({ s with power := { s.power with therm := v &&& 0xFFFFFF00 } }, stOk) := if_pos h

theorem exec_thermCfgWrite_ok {v : W32} (hw : secureWriter w = true) (h : fldN v 24 8 < fldN v 16 8 ∧ fldN v 16 8 < fldN v 8 8 ∧ fldN v 8 8 ≤ 115) :
    exec (.thermCfgWrite w v) s = .next { s with power := { s.power with therm := v &&& 0xFFFFFF00 }, status := 0 } :=
  next_finish (t := { s with power := { s.power with therm := v &&& 0xFFFFFF00 } }) ((secureWrite_secure hw).trans (writeThermCfg_ok h))

/-- A write of THERM.CFG from the non-secure world. -/
theorem exec_thermCfgWrite_world {v : W32} (hw : secureWriter w = false) : Goes (exec (.thermCfgWrite w v) s) fun t =>
    t.status = stWorld ∧ t.power.therm = s.power.therm := by
  obtain ⟨t, ht, he⟩ := secureWrite_world (s := s) (f := fun s => writeThermCfg s v) (a := winAddr 0x2081 0 0) hw
  have hp := congrArg (fun u : State => u.power.therm) ht.same
  exact ⟨_, congrArg Host.Outcome.next he, rfl, hp⟩

end states

/-- Settles O54: START and STANDBY by the state they find, the settings, then the input, rails and phases. -/
theorem powerCommands : Obligations.PowerCommands := by
  intro s w v f vin rail phase
  dsimp only
  have hup : islandUp s = true ↔ s.mod.resetN = true ∧ 1 ≤ s.mod.step.toNat := islandUp_iff
  refine ⟨fun h => ?startOther, fun hp hm hv => ⟨_, rfl, rfl, powerUp_low hp hm hv⟩, fun hp hm hv => ⟨_, rfl, rfl, powerUp_ends hp hm hv⟩,
    fun hp hm hv hf => ⟨_, rfl, rfl, powerUp_fails hp hm hv hf⟩, fun hl => next_finish (powerStandby_loaded hl), fun hl hp => next_finish (powerStandby_standby hl hp),
    exec_powerStandby_holds, ⟨fun hn => next_finish (if_neg hn), fun ho => next_finish (if_pos ho)⟩, ⟨exec_thermCfgWrite_world,
    fun hw hn => next_finish ((secureWrite_secure hw).trans (if_neg hn)), exec_thermCfgWrite_ok⟩,
    fun hn => exec_inputLow_other fun ⟨hu, hl⟩ => hn ⟨hup.mp hu, hl⟩, fun hu => exec_inputLow_low (hup.mpr hu), ⟨_, rfl, (powerLoss_gone s).gone⟩,
    fun hn => ⟨_, exec_inputOvervoltage_down fun hc => hn (hup.mp hc), (powerLoss_gone s).gone⟩, ⟨_, exec_inputOvervoltage_all, (powerLoss_gone s).gone⟩,
    fun hu => exec_inputOvervoltage_island (hup.mpr hu), exec_inputInRange_outside, exec_inputInRange_kept, fun hv hr hst hstep => ⟨fun hk => ?kat, exec_inputInRange_standby hv hr hst hstep⟩,
    exec_railExcursion_other, fun h hr => ⟨_, exec_railExcursion_die h hr, railExcursion_dieLost s rail⟩,
    fun h hl hr => ⟨_, exec_railExcursion_shared h hl hr, (putErr_fatal _ rfl rfl).1⟩, fun h hr => ⟨_, exec_railExcursion_island h hr, (powerLoss_gone s).gone⟩,
    exec_railRegulationReturn_other, exec_railRegulationReturn_back, exec_phaseFault_other, exec_phaseFault_sheds⟩
  case startOther => exact congrArg (fun u => Host.Outcome.next (setStatus u stOk)) (powerUp_other h)
  case kat => exact ⟨_, (exec_inputInRange_boots hv hr hst hstep).trans (congrArg _ (boot_katFails (s := { s with power := { s.power with vin } }) hk)), (putErr_fatal _ rfl rfl).1⟩

end Sys2Proof.Machine
end

section
/-!
PROOFS of the statements of the family '19_power.md': power budgets and thermal limits (R431, R558-R563).
-/
namespace Sys2Proof.Machine
open Sys2Proof

section budget
variable {s t : State}

theorem getHalf_putHalf (s : State) (i k : Nat) (x : Half) : getHalf (putHalf s i x) k = if k = i then x else getHalf s k := by
  unfold getHalf putHalf
  exact mget_mset ..

/-! ## An evaluation (R558-R560) -/

/-- The slower of a half's thermal and power limits. -/
def slowerLimit (h : Half) : BitVec 2 := if h.thermal.toNat < h.power.toNat then h.power else h.thermal

/-- Two limits at most one step apart. -/
def nearStep (a b : BitVec 2) : Prop := a = b ∨ a.toNat = b.toNat + 1 ∨ a.toNat + 1 = b.toNat

theorem nearStep_slower (p : BitVec 2) : nearStep (if p.toNat < 2 then p + 1 else p) p := by
  revert p
  unfold nearStep
  decide

theorem nearStep_faster (p : BitVec 2) : nearStep (if p = 0 then 0 else p - 1) p := by
  revert p
  unfold nearStep
  decide

/-- A half after an evaluation: its power limit at most one step from the old one, its limit the slower one, or both as they were. -/
structure Evaluated (x y : Half) : Prop where
  power : nearStep y.power x.power
  step : y.step = x.step
  thermal : y.thermal = x.thermal
  limit : y.limit = slowerLimit y ∨ y.limit = x.limit ∧ y.power = x.power

theorem Evaluated.refl (x : Half) : Evaluated x x := ⟨.inl rfl, rfl, rfl, .inr ⟨rfl, rfl⟩⟩

/-- A half whose spare counter alone changes. -/
theorem Evaluated.spare (x : Half) (n : Nat) : Evaluated x { x with spare8 := n } := ⟨.inl rfl, rfl, rfl, .inr ⟨rfl, rfl⟩⟩

/-- A half whose power limit takes a step, with its limit. -/
theorem Evaluated.limited {x y : Half} (hp : nearStep y.power x.power) (hs : y.step = x.step) (ht : y.thermal = x.thermal) :
    Evaluated x { y with limit := slowerLimit y } := ⟨hp, hs, ht, .inl rfl⟩

/-- Every half is evaluated. -/
def HalvesEvaluated (s t : State) : Prop := ∀ i, Evaluated (getHalf s i) (getHalf t i)

theorem halvesEvaluated_put {i : Nat} {x : Half} (hx : Evaluated (getHalf s i) x) : HalvesEvaluated s (putHalf s i x) := by
  intro k
  rw [getHalf_putHalf]
  split
  · next hk => rw [hk]; exact hx
  · exact .refl _

/-- The first half's spare counter and one half's limits, changed together. -/
theorem halvesEvaluated_putLimits {i j n : Nat} {y : Half} (hp : nearStep y.power (getHalf s j).power) (hs : y.step = (getHalf s j).step)
    (ht : y.thermal = (getHalf s j).thermal) : HalvesEvaluated s (putLimits (putHalf s i { getHalf s i with spare8 := n }) j y) := by
  intro k
  unfold putLimits
  rw [getHalf_putHalf]
  split
  · next hk => rw [hk]; exact .limited hp hs ht
  · exact halvesEvaluated_put (.spare _ n) k

/-- The evaluation of one die. -/
theorem evalDie_evaluated (b d d0 d1 : Nat) (s : State) : HalvesEvaluated s (evalDie b d d0 d1 s) := by
  have hspare : ∀ n, HalvesEvaluated s (putHalf s (2 * d) { getHalf s (2 * d) with spare8 := n }) := fun n => halvesEvaluated_put (.spare _ n)
  unfold evalDie
  extract_lets _ _ _ _ _ _ _ up
  clear_value up
  split
  · split
    · exact halvesEvaluated_putLimits (nearStep_slower _) rfl rfl
    · exact halvesEvaluated_putLimits (nearStep_slower _) rfl rfl
  split
  · split
    · exact hspare _
    split
    · exact halvesEvaluated_putLimits (nearStep_faster _) rfl rfl
    · exact halvesEvaluated_putLimits (nearStep_faster _) rfl rfl
  · exact hspare _

/-- The evaluation of a die leaves the halves of the others. -/
theorem evalDie_others {b d d0 d1 i : Nat} (h : i / 2 ≠ d) (s : State) : getHalf (evalDie b d d0 d1 s) i = getHalf s i := by
  have h0 : ∀ (u : State) x, getHalf (putHalf u (2 * d) x) i = getHalf u i := fun u x => (getHalf_putHalf ..).trans (if_neg (by omega))
  have h1 : ∀ (u : State) x, getHalf (putHalf u (2 * d + 1) x) i = getHalf u i := fun u x => (getHalf_putHalf ..).trans (if_neg (by omega))
  unfold evalDie
  extract_lets _ _ _ _ _ _ _ up
  clear_value up
  split
  · split
    · exact (h0 _ _).trans (h0 _ _)
    · exact (h1 _ _).trans (h0 _ _)
  split
  · split
    · exact h0 _ _
    split
    · exact (h0 _ _).trans (h0 _ _)
    · exact (h1 _ _).trans (h0 _ _)
  · exact h0 _ _

/-- The demand of a die evaluated, where there is one. -/
def evalDemand (bs : List Nat) (demand : List (Nat × Nat)) (s : State) (d : Nat) : State :=
  match demand[d]? with
  | some (d0, d1) => evalDie (nth 0 bs d) d d0 d1 s
  | none => s

theorem evalDemand_evaluated (bs : List Nat) (demand : List (Nat × Nat)) (s : State) (d : Nat) : HalvesEvaluated s (evalDemand bs demand s d) := by
  unfold evalDemand
  split
  · exact evalDie_evaluated _ _ _ _ _
  · exact fun _ => .refl _

theorem evalDemand_others (bs : List Nat) (demand : List (Nat × Nat)) {d i : Nat} (h : i / 2 ≠ d) (s : State) :
    getHalf (evalDemand bs demand s d) i = getHalf s i := by
  unfold evalDemand
  split
  · exact evalDie_others h s
  · rfl

/-- Dies evaluated, each once. -/
theorem evalDemands_evaluated (bs : List Nat) (demand : List (Nat × Nat)) {l : List Nat} (hl : l.Nodup) (s : State) :
    HalvesEvaluated s (l.foldl (evalDemand bs demand) s) := by
  have hout : ∀ (l : List Nat) (u : State) (i : Nat), i / 2 ∉ l → getHalf (l.foldl (evalDemand bs demand) u) i = getHalf u i := by
    intro l
    induction l with
    | nil => exact fun _ _ _ => rfl
    | cons d l ih =>
      intro u i hi
      exact (ih _ i fun hc => hi (List.mem_cons_of_mem _ hc)).trans (evalDemand_others bs demand (fun hc => hi (by simp [hc])) u)
  induction l generalizing s with
  | nil => exact fun _ => .refl _
  | cons d l ih =>
    obtain ⟨hd, hl⟩ := List.nodup_cons.mp hl
    intro i
    by_cases hi : i / 2 = d
    · rw [List.foldl_cons, hout l _ i (hi ▸ hd)]
      exact evalDemand_evaluated bs demand s d i
    · have h := ih hl (evalDemand bs demand s d) i
      rwa [evalDemand_others bs demand hi] at h

/-- What an evaluation of dies leaves but for their halves. -/
theorem evalDemands_rest (bs : List Nat) (demand : List (Nat × Nat)) (l : List Nat) (s : State) :
    ∃ hs, l.foldl (evalDemand bs demand) s = { s with halves := hs } := by
  have hdie : ∀ (u : State) d, ∃ hs, evalDemand bs demand u d = { u with halves := hs } := by
    intro u d
    unfold evalDemand evalDie putLimits putHalf
    dsimp only
    repeat' split
    all_goals exact ⟨_, rfl⟩
  induction l generalizing s with
  | nil => exact ⟨s.halves, rfl⟩
  | cons d l ih =>
    obtain ⟨hs, h⟩ := hdie s d
    obtain ⟨hs', h'⟩ := ih (evalDemand bs demand s d)
    refine ⟨hs', h'.trans ?_⟩
    rw [h]

/-- What the shedding of light loads leaves. -/
theorem shedLights_rest (l : List Nat) (s : State) : ∃ rs n, l.foldl shedLight s = { s with power := { s.power with rails := rs }, freeCtr := n } := by
  have hrail : ∀ (u : State) r, ∃ rs n, shedLight u r = { u with power := { u.power with rails := rs }, freeCtr := n } := by
    intro u r
    unfold shedLight freshWord putRail
    dsimp only
    repeat' split
    · exact ⟨u.power.rails, u.freeCtr, rfl⟩
    · exact ⟨_, _, rfl⟩
    · exact ⟨_, u.freeCtr, rfl⟩
  induction l generalizing s with
  | nil => exact ⟨s.power.rails, s.freeCtr, rfl⟩
  | cons r l ih =>
    obtain ⟨rs, n, h⟩ := hrail s r
    obtain ⟨rs', n', h'⟩ := ih (shedLight s r)
    refine ⟨rs', n', h'.trans ?_⟩
    rw [h]

/-- Every half slowed: nothing but the halves changes. -/
theorem slowAll_rest (s : State) : ∃ hs, slowAll s = { s with halves := hs } := by
  unfold slowAll
  generalize (List.range 24).filter _ = l
  induction l generalizing s with
  | nil => exact ⟨s.halves, rfl⟩
  | cons i l ih =>
    rw [List.foldl_cons]
    obtain ⟨hs', h'⟩ := ih (putLimits s i { getHalf s i with power := if (getHalf s i).power.toNat < 2 then (getHalf s i).power + 1 else (getHalf s i).power })
    exact ⟨hs', h'⟩

/-- The peak allowance after an evaluation. -/
def nextAllowance (s : State) (p : Nat) : Nat :=
  if pEff s < p then s.power.allowance - (p - pEff s) else min (allowSize s) (s.power.allowance + (pEff s - p))

theorem evalPeak_rest (s : State) (p : Nat) : ∃ a src, evalPeak s p = { s with power := { s.power with
    allowance := nextAllowance s p, allow := a, scaled := decide (nextAllowance s p = 0) && decide (pEff s < p), alertSrc := src } } := by
  unfold evalPeak alertSet
  extract_lets size a empty
  split <;> exact ⟨_, _, rfl⟩

section evaluation
variable {iin pin pFixed : W16} {demand : List (Nat × Nat)}

/-- The dies evaluated, the allowance, and the rails. -/
def evaluated (s : State) (iin pin pFixed : W16) (demand : List (Nat × Nat)) : State :=
  let p := 1000 * pin.toNat
  let bs := (List.range 12).map fun d => dieBudget s (1000 * pFixed.toNat) p d
  let s := (readyDies s).foldl (evalDemand bs demand) s
  (List.range 28).foldl shedLight (evalPeak { s with power := { s.power with iin, pin } } p)

theorem exec_budgetEval_ready (h : s.power.st = 3) : exec (.budgetEval iin pin pFixed demand) s
    = .next (if pPeak (evaluated s iin pin pFixed demand) < 1000 * pin.toNat then slowAll (evaluated s iin pin pFixed demand) else evaluated s iin pin pFixed demand) :=
  congrArg Host.Outcome.next (if_neg (not_not.mpr h))

theorem readyDies_nodup (s : State) : (readyDies s).Nodup := (List.nodup_range).filter _

/-- What an evaluation leaves before every half is slowed. -/
structure BudgetDone (s : State) (iin pin : W16) (t : State) : Prop where
  current : t.power.iin = iin
  input : t.power.pin = pin
  tiles : t.tiles = s.tiles
  net : t.net = s.net
  allowance : t.power.allowance = nextAllowance s (1000 * pin.toNat)
  scaled : t.power.scaled = (decide (nextAllowance s (1000 * pin.toNat) = 0) && decide (pEff s < 1000 * pin.toNat))

theorem evaluated_done (s : State) : BudgetDone s iin pin (evaluated s iin pin pFixed demand) ∧ HalvesEvaluated s (evaluated s iin pin pFixed demand)
    ∧ pPeak (evaluated s iin pin pFixed demand) = pPeak s := by
  obtain ⟨bs, hbs⟩ : ∃ bs, bs = (List.range 12).map fun d => dieBudget s (1000 * pFixed.toNat) (1000 * pin.toNat) d := ⟨_, rfl⟩
  have hcalc : evaluated s iin pin pFixed demand = (List.range 28).foldl shedLight (evalPeak { (readyDies s).foldl (evalDemand bs demand) s with
      power := { ((readyDies s).foldl (evalDemand bs demand) s).power with iin, pin } } (1000 * pin.toNat)) := hbs ▸ rfl
  have heval := evalDemands_evaluated bs demand (readyDies_nodup s) s
  obtain ⟨hs, h1⟩ := evalDemands_rest bs demand (readyDies s) s
  rw [h1] at hcalc heval
  obtain ⟨a, src, h2⟩ := evalPeak_rest { s with halves := hs, power := { s.power with iin, pin } } (1000 * pin.toNat)
  have h2' := congrArg ((List.range 28).foldl shedLight) h2
  obtain ⟨rs, n, h3⟩ := shedLights_rest (List.range 28) { s with
    halves := hs
    power := { s.power with
      iin, pin, allowance := nextAllowance s (1000 * pin.toNat), allow := a
      scaled := decide (nextAllowance s (1000 * pin.toNat) = 0) && decide (pEff s < 1000 * pin.toNat), alertSrc := src } }
  have he := hcalc.trans (h2'.trans h3)
  rw [he]
  exact ⟨⟨rfl, rfl, rfl, rfl, rfl, rfl⟩, heval, rfl⟩

theorem BudgetDone.slowed (h : BudgetDone s iin pin t) : BudgetDone s iin pin (slowAll t) := by
  obtain ⟨hs, he⟩ := slowAll_rest t
  rw [he]
  exact ⟨h.current, h.input, h.tiles, h.net, h.allowance, h.scaled⟩

end evaluation

end budget

/-! ## Temperatures (R561-R563) -/

section thermal
variable {s t : State} {d : Nat} {a b m : Byte}

/-- The limits of the two halves of a die from their sensors. -/
def heated (s : State) (d : Nat) (a b m : Byte) : State :=
  let s := modDie s d fun x => { x with thermDie := at' 64 56 a ||| at' 64 48 b ||| at' 64 40 m }
  let h0 := getHalf s (2 * d)
  let h1 := getHalf s (2 * d + 1)
  let s := putLimits s (2 * d) { h0 with thermal := thermalStep s h0.thermal a.toNat }
  putLimits s (2 * d + 1) { h1 with thermal := thermalStep s h1.thermal b.toNat }

/-- A half with its thermal limit, and the slower of its limits. -/
def heatedHalf (s : State) (x : Half) (v : Byte) : Half :=
  { x with thermal := thermalStep s x.thermal v.toNat, limit := slowerLimit { x with thermal := thermalStep s x.thermal v.toNat } }

theorem heated_rest (s : State) (d : Nat) (a b m : Byte) :
    ∃ w, heated s d a b m = { s with
      dies := mset Die.reset s.dies d { getDie s d with thermDie := w }
      halves := mset Half.reset (mset Half.reset s.halves (2 * d) (heatedHalf s (getHalf s (2 * d)) a)) (2 * d + 1) (heatedHalf s (getHalf s (2 * d + 1)) b) } := ⟨_, rfl⟩

/-- The stack throttled, and the trip lifted on a die that has cooled. -/
def throttled (s : State) (d : Nat) (a b m : Byte) : State :=
  let s := if (getHalf s (2 * d)).thermal = 2 ∨ (getHalf s (2 * d + 1)).thermal = 2 then alertSet s 0x04 else s
  let k := getStack s d
  let hot := if 105 < m.toNat then true else if m.toNat < 100 then false else k.hot
  let s := putStack s d { k with hot, halfRate := decide (95 < m.toNat) }
  if Nat.max a.toNat b.toNat < fldN s.power.therm 24 8 then modDie s d fun x => { x with tripped := false } else s

theorem sampleDie_eq (s : State) (d : Nat) (a b m : Byte) : sampleDie s d (a, b, m) =
    let u := throttled (heated s d a b m) d a b m
    if fldN u.power.therm 8 8 ≤ Nat.max a.toNat b.toNat ∧ ((getDie u d).st = .ready ∨ (getDie u d).st = .joining) then
      modDie (loseDie (putErr (alertSet u 0x08) { dieErr (alertSet u 0x08) cThermalTrip 1 d with detail := 6 }) d 6) d fun x => { x with tripped := true }
    else u := rfl

/-- What the sensors of a die change before a trip. -/
structure Sampled (s : State) (d : Nat) (a b m : Byte) (t : State) : Prop where
  half0 : getHalf t (2 * d) = heatedHalf s (getHalf s (2 * d)) a
  half1 : getHalf t (2 * d + 1) = heatedHalf s (getHalf s (2 * d + 1)) b
  halfRate : (getStack t d).halfRate = decide (95 < m.toNat)
  st : (getDie t d).st = (getDie s d).st
  therm : t.power.therm = s.power.therm
  tiles : t.tiles = s.tiles
  net : t.net = s.net

/-- What the throttling of a stack leaves. -/
structure Throttled (s : State) (d : Nat) (m : Byte) (t : State) : Prop where
  halves : t.halves = s.halves
  halfRate : (getStack t d).halfRate = decide (95 < m.toNat)
  st : (getDie t d).st = (getDie s d).st
  therm : t.power.therm = s.power.therm
  tiles : t.tiles = s.tiles
  net : t.net = s.net

theorem throttled_parts (s : State) (d : Nat) (a b m : Byte) : Throttled s d m (throttled s d a b m) := by
  unfold throttled
  extract_lets s1 k hot s2
  have h1 : s1.halves = s.halves ∧ s1.dies = s.dies ∧ s1.power.therm = s.power.therm ∧ s1.tiles = s.tiles ∧ s1.net = s.net := by
    change (if _ then _ else _ : State).halves = _ ∧ (if _ then _ else _ : State).dies = _ ∧ (if _ then _ else _ : State).power.therm = _
      ∧ (if _ then _ else _ : State).tiles = _ ∧ (if _ then _ else _ : State).net = _
    split <;> exact ⟨rfl, rfl, rfl, rfl, rfl⟩
  obtain ⟨hh, hd, ht, htiles, hnet⟩ := h1
  have hst : (getDie s1 d).st = (getDie s d).st := congrArg (fun x => (mget Die.reset x d).st) hd
  have hrate : ∀ u : State, u.hbmStacks = s2.hbmStacks → (getStack u d).halfRate = decide (95 < m.toNat) := fun u hu => by
    unfold getStack
    rw [hu]
    exact congrArg Stack.halfRate (mget_mset_same ..)
  split
  · refine ⟨hh, hrate _ rfl, ?_, ht, htiles, hnet⟩
    rw [getDie_modDie]
    exact hst
  · exact ⟨hh, hrate _ rfl, hst, ht, htiles, hnet⟩

theorem sampled (s : State) (d : Nat) (a b m : Byte) : Sampled s d a b m (throttled (heated s d a b m) d a b m) := by
  obtain ⟨hh, hrate, hst, ht, htiles, hnet⟩ := throttled_parts (heated s d a b m) d a b m
  obtain ⟨w, he⟩ := heated_rest s d a b m
  obtain ⟨v, hv⟩ : ∃ v, v = throttled (heated s d a b m) d a b m := ⟨_, rfl⟩
  rw [← hv] at hh hrate hst ht htiles hnet ⊢
  rw [he] at hh hst ht htiles hnet
  refine ⟨?_, ?_, hrate, hst.trans ?_, ht, htiles, hnet⟩
  · unfold getHalf
    rw [hh]
    exact (mget_mset_other _ _ _ (by omega)).trans (mget_mset_same ..)
  · unfold getHalf
    rw [hh]
    exact mget_mset_same ..
  · unfold getDie
    rw [mget_mset_same]

theorem sampleDie_cool (h : max a.toNat b.toNat < fldN s.power.therm 8 8) : Sampled s d a b m (sampleDie s d (a, b, m)) := by
  have hs := sampled s d a b m
  rw [sampleDie_eq]
  dsimp only
  rwa [if_neg]
  rw [hs.therm]
  exact fun hc => absurd hc.1 (Nat.not_le.mpr h)

theorem sampleDie_trips (h : fldN s.power.therm 8 8 ≤ max a.toNat b.toNat) (hd : dieReady s d = true) : let t := sampleDie s d (a, b, m)
    (getDie t d).st = .held ∧ (getDie t d).cause = 6 ∧ (getDie t d).tripped = true ∧ bitAt t.power.alertSrc 3 = true := by
  have hs := sampled s d a b m
  obtain ⟨u, hu⟩ : ∃ u, u = throttled (heated s d a b m) d a b m := ⟨_, rfl⟩
  rw [← hu] at hs
  have hready : (getDie u d).st = .ready := hs.st.trans (of_decide_eq_true hd)
  obtain ⟨v, hv⟩ : ∃ v, v = putErr (alertSet u 0x08) { dieErr (alertSet u 0x08) cThermalTrip 1 d with detail := 6 } := ⟨_, rfl⟩
  have hsev : ({ dieErr (alertSet u 0x08) cThermalTrip 1 d with detail := 6 } : Err).sev ≠ 3 := by simp [dieErr]
  have hdie : getDie v d = getDie u d := congrArg (fun x => mget Die.reset x d) (hv ▸ putErr_dies (alertSet u 0x08) _ hsev : v.dies = u.dies)
  have hpower : v.power = (alertSet u 0x08).power := hv ▸ putErr_power_of _ hsev
  have hgone := loseDie_gone (s := v) (d := d) (cause := 6) (.inl (hdie ▸ hready))
  have hcalc : sampleDie s d (a, b, m) = modDie (loseDie v d 6) d fun x => { x with tripped := true } := by
    rw [sampleDie_eq, hv]
    dsimp only
    rw [← hu]
    exact if_pos ⟨hs.therm ▸ h, .inl hready⟩
  dsimp only
  rw [hcalc, getDie_modDie]
  refine ⟨hgone.held (hdie ▸ hready), hgone.cause, rfl, ?_⟩
  have hsrc : (loseDie v d 6).power.alertSrc = u.power.alertSrc ||| 0x08 := congrArg Power.alertSrc (hgone.power.trans hpower)
  have hbit : bitAt (u.power.alertSrc ||| (0x08 : BitVec 6)) 3 = true := by simp [bitAt]
  exact (congrArg (fun x => bitAt x 3) hsrc).trans hbit

section sample
variable {dies : List (Byte × Byte × Byte)} {control : Byte}

theorem exec_thermalSample_ready (h : s.power.st = 3) : exec (.thermalSample dies control) s
    = .next (let t := (presentDies s).foldl (fun s d => match dies[d]? with | some v => sampleDie s d v | none => s) s
      if 110 < control.toNat then putPowerErr t cRailFatal 3 else t) :=
  congrArg Host.Outcome.next (if_neg (not_not.mpr h))

/-- One die present, the control die cool. -/
theorem exec_thermalSample_one (h : s.power.st = 3) (hp : (List.range 12).filter (diePresent s) = [d]) (hd : dies[d]? = some (a, b, m))
    (hc : control.toNat ≤ 110) : exec (.thermalSample dies control) s = .next (sampleDie s d (a, b, m)) := by
  have hfold : (presentDies s).foldl (fun s d => match dies[d]? with | some v => sampleDie s d v | none => s) s = sampleDie s d (a, b, m) := by
    rw [presentDies, hp, List.foldl_cons, List.foldl_nil, hd]
  rw [exec_thermalSample_ready h, hfold]
  exact congrArg Host.Outcome.next (if_neg (Nat.not_lt.mpr hc))

theorem exec_thermalSample_hot (h : s.power.st = 3) (hp : (List.range 12).filter (diePresent s) = []) (hc : 110 < control.toNat) :
    exec (.thermalSample dies control) s = .next (putPowerErr s cRailFatal 3) := by
  rw [exec_thermalSample_ready h, presentDies, hp]
  exact congrArg Host.Outcome.next (if_pos hc)

end sample

end thermal

/-- Settles O55: an evaluation, then a sample of one die cool and too hot, and of a hot control die. -/
theorem budgetsAndTemperatures : Obligations.BudgetsAndTemperatures := by
  intro s iin pin pFixed demand dies control
  dsimp only
  refine ⟨fun hn => ⟨congrArg Host.Outcome.next (if_pos hn), congrArg Host.Outcome.next (if_pos hn)⟩, fun hr => ⟨_, exec_budgetEval_ready hr, ?eval⟩,
    fun a b m hr hp hd hc hm => ⟨_, exec_thermalSample_one hr hp hd hc, ?cool⟩, fun a b m hr hp hd hc hm hready => ⟨_, exec_thermalSample_one hr hp hd hc, sampleDie_trips hm hready⟩,
    fun hr hp hc => ⟨_, exec_thermalSample_hot hr hp hc, (putErr_fatal _ rfl rfl).1⟩⟩
  case eval =>
    obtain ⟨hdone, heval, hpeak⟩ := evaluated_done (iin := iin) (pin := pin) (pFixed := pFixed) (demand := demand) s
    have hall : BudgetDone s iin pin (if pPeak (evaluated s iin pin pFixed demand) < 1000 * pin.toNat then slowAll (evaluated s iin pin pFixed demand)
        else evaluated s iin pin pFixed demand) := by
      split
      · exact hdone.slowed
      · exact hdone
    refine ⟨hall.current, hall.input, hall.tiles, hall.net, hall.allowance, ?_, fun hp i => .inr ?_⟩
    · rw [hall.scaled, hall.allowance, Bool.and_eq_true, decide_eq_true_eq, decide_eq_true_eq]
    · rw [if_neg (by omega)]
      obtain ⟨hpower, hstep, hthermal, hlimit⟩ := heval i
      exact ⟨hpower, hstep, hthermal, hlimit⟩
  case cool =>
    obtain ⟨h0, h1, hrate, hst, -, htiles, hnet⟩ := sampleDie_cool (s := s) (d := 2) (m := m) hm
    rw [h0, h1]
    exact ⟨rfl, rfl, rfl, rfl, hrate, hst, htiles, hnet⟩

end Sys2Proof.Machine
end

section
/-!
PROOFS of the statements of the family '17_security.md': region entries, staging, attestation, the flash records, the test port (R485-R505, R511, R520),
and command tokens (R507-R510).
-/
namespace Sys2Proof.Machine
open Sys2Proof

section registers
variable {s t : State} {w : Writer}

/-- A write from the non-secure world leaves regions, security state and flash. -/
theorem secureEntry_world {a : Nat} {g : State → State × Byte} (hw : secureWriter w = false) :
    Goes (.next (finish (secureWrite w a s g))) fun t => t.status = stWorld ∧ t.regions = s.regions ∧ t.sec = s.sec ∧ t.flash = s.flash := by
  obtain ⟨t, ht, he⟩ := secureWrite_world (s := s) (f := g) (a := a) hw
  have hs := congrArg (fun u : State => u.sec) ht.same
  have hf := congrArg (fun u : State => u.flash) ht.same
  exact ⟨_, congrArg Host.Outcome.next he, rfl, ht.regions, hs, hf⟩

/-! ## Region entries, staging, the APP commit (R485, R488, R500, R501) -/

theorem writeRegion_locked {e : BitVec 6} {v : BitVec 128} (h : bitAt (mget 0 s.regions e.toNat) 124 = true) : writeRegion s e v = (s, stCfgBusy) := if_pos h

theorem writeRegion_open {e : BitVec 6} {v : BitVec 128} (h : ¬ bitAt (mget 0 s.regions e.toNat) 124 = true) :
    writeRegion s e v = ({ s with regions := mset 0 s.regions e.toNat (v &&& regionMask v) }, stOk) := if_neg h

theorem exec_regionWrite_open {e : BitVec 6} {v : BitVec 128} (hw : secureWriter w = true) (h : ¬ bitAt (mget 0 s.regions e.toNat) 124 = true) :
    exec (.regionWrite w e v) s = .next { s with regions := mset 0 s.regions e.toNat (v &&& regionMask v), status := 0 } :=
  next_finish (t := { s with regions := mset 0 s.regions e.toNat (v &&& regionMask v) }) ((secureWrite_secure hw).trans (writeRegion_open h))

theorem appCommit_other {v : W32} (h : v ≠ 1) : appCommit s v = (s, stInvalid) := if_pos h

theorem appCommit_none (h : s.fw.appImage = none) : appCommit s 1 = (s, stOk) := by
  simp only [appCommit, h, ne_eq, not_true_eq_false, if_false]

theorem appCommit_some {i : Image} (h : s.fw.appImage = some i) : appCommit s 1 = ({ s with sec := { s.sec with svnApp := maxW s.sec.svnApp i.svn } }, stOk) := by
  simp only [appCommit, h, ne_eq, not_true_eq_false, if_false]

theorem exec_appCommit_some {i : Image} (hw : secureWriter w = true) (h : s.fw.appImage = some i) : exec (.appCommit w 1) s
    = .next { s with sec := { s.sec with svnApp := maxW s.sec.svnApp i.svn }, status := 0 } :=
  next_finish (t := { s with sec := { s.sec with svnApp := maxW s.sec.svnApp i.svn } }) ((secureWrite_secure hw).trans (appCommit_some h))

section staging
variable {img : Image}

theorem stageImage_noType (h : img.typ.toNat = 0 ∨ 4 < img.typ.toNat) : stageImage s img = (s, stNoSub) := if_pos h

theorem stageImage_app (h : img.typ.toNat = 4) : stageImage s img = (stageApp s img, stOk) := (if_neg (by omega)).trans (if_pos h)

theorem stageApp_verified (h : imageRefusal s img 4 = none) : (stageApp s img).fw.appImage = some img := by
  have h' : imageRefusal s img imgApp = none := h
  unfold stageApp
  rw [h']
  rfl

theorem stageApp_refused (h : imageRefusal s img 4 ≠ none) : (stageApp s img).fw.appImage = none := by
  obtain ⟨d, hd⟩ := Option.ne_none_iff_exists'.mp h
  have hd' : imageRefusal s img imgApp = some d := hd
  unfold stageApp
  rw [hd']
  dsimp only
  rw [(Recorded.err _ (by simp [islandErr]) rfl).fw]

theorem stageImage_probation (h0 : 0 < img.typ.toNat) (h4 : img.typ.toNat < 4) (hp : s.fw.standby = 3) : stageImage s img = (s, stCfgBusy) :=
  (if_neg (by omega)).trans ((if_neg (Nat.ne_of_lt h4)).trans (if_pos hp))

/-- A slot's images with one more of a type. -/
def stagedInto (l : List Image) (img : Image) : List Image := (l.filter fun k => decide (k.typ.toNat ≠ img.typ.toNat)) ++ [img]

theorem find?_stagedInto (l : List Image) (img : Image) : (stagedInto l img).find? (fun i => decide (i.typ.toNat = img.typ.toNat)) = some img := by
  have hnone : (l.filter fun k => decide (k.typ.toNat ≠ img.typ.toNat)).find? (fun i => decide (i.typ.toNat = img.typ.toNat)) = none := by
    rw [List.find?_eq_none]
    intro i hi hc
    exact of_decide_eq_true (List.mem_filter.mp hi).2 (of_decide_eq_true hc)
  rw [stagedInto, List.find?_append, hnone, Option.none_or]
  exact List.find?_cons_of_pos (decide_eq_true rfl)

/-- The marks of slots leave which one runs, and their images. -/
theorem marked_slots {c : Prop} [Decidable c] (v : State) (a b : BitVec 2) : let u := if c then { v with fw := { v.fw with markA := a, markB := b } } else v
    u.fw.slot = v.fw.slot ∧ u.fw.slotA = v.fw.slotA ∧ u.fw.slotB = v.fw.slotB := by
  dsimp only
  split <;> exact ⟨rfl, rfl, rfl⟩

/-- What staging an image into the slot not running leaves of the firmware. -/
theorem stageImage_slot (h0 : 0 < img.typ.toNat) (h4 : img.typ.toNat < 4) (hp : s.fw.standby ≠ 3) : ∃ u, stageImage s img = (u, stOk) ∧ u.fw.slot = s.fw.slot
    ∧ u.fw.slotA = (if !s.fw.slot then s.fw.slotA else stagedInto s.fw.slotA img) ∧ u.fw.slotB = (if !s.fw.slot then stagedInto s.fw.slotB img else s.fw.slotB) := by
  exact ⟨_, (if_neg (by omega)).trans ((if_neg (Nat.ne_of_lt h4)).trans (if_neg hp)), marked_slots ..⟩

theorem exec_imageStage_slot (h0 : 0 < img.typ.toNat) (h4 : img.typ.toNat < 4) (hp : s.fw.standby ≠ 3) : Goes (exec (.imageStage w img) s) fun u =>
    u.status = 0 ∧ u.fw.slot = s.fw.slot ∧ stagedImage u.fw (!s.fw.slot) img.typ.toNat = some img
      ∧ ∀ k, stagedImage u.fw s.fw.slot k = stagedImage s.fw s.fw.slot k := by
  obtain ⟨u, hu, hslot, hA, hB⟩ := stageImage_slot h0 h4 hp
  refine ⟨_, next_finish hu, rfl, hslot, ?_, fun k => ?_⟩ <;> dsimp only [stagedImage] <;> rw [hA, hB]
  · cases s.fw.slot <;> exact find?_stagedInto ..
  · cases s.fw.slot <;> rfl

end staging

/-! ## Attestation, STORE (R504, R505, R520) -/

theorem exec_attestNonceWrite_idle {n : BitVec 256} (h : s.sec.preparing = false) : Goes (exec (.attestNonceWrite n) s) fun t =>
    t.status = 0 ∧ t.sec.nonce = n ∧ t.sec.preparing = true ∧ t.sec.reportTime = s.mod.time ∧ t.sec.report.take 512 = toLE 512 (reportBody s n).toNat
      ∧ t.sec.owner = s.sec.owner :=
  ⟨_, next_finish (if_neg (ne_true_of_eq_false h)), rfl, rfl, rfl, rfl, List.take_left' (length_toLE ..), rfl⟩

/-- STORE keeps the role of each port. -/
theorem storeFlash_roles {p : Nat} (hp : p < 24) : mget 0 (storeFlash s).flash.roles p = cfgRole (getPort s p) :=
  foldl_sets (f := fun (m : SMap (BitVec 2)) p => mset 0 m p (cfgRole (getPort s p))) (get := fun m p => mget 0 m p) (val := fun p => cfgRole (getPort s p))
    (fun _ _ => mget_mset_same ..) (fun _ _ _ h => mget_mset_other _ _ _ h) (List.mem_range.mpr hp) []

/-! ## The test port (R511) -/

theorem exec_jtagExtest_drives (h : s.mod.resetN = false ∨ s.mod.st = .standby ∨ s.mod.st = .failed) :
    exec .jtagExtest s = .next { s with jtag := { s.jtag with instr := 3 } } := by
  refine congrArg Host.Outcome.next (if_pos ?_)
  simpa [jtagDrives] using h

theorem exec_jtagExtest_bypass (h : ¬ (s.mod.resetN = false ∨ s.mod.st = .standby ∨ s.mod.st = .failed)) :
    exec .jtagExtest s = .next { s with jtag := { s.jtag with instr := 3, tdo := 0 } } := by
  refine congrArg Host.Outcome.next (if_neg ?_)
  simpa [jtagDrives] using h

end registers

/-- Settles O48: region entries, the APP commit and the flash records by the writer; staging by the image's type; attestation; the test port. -/
theorem securityRegistersAndTestPort : Obligations.SecurityRegistersAndTestPort := by
  refine ⟨fun s w e v v32 nonce img => ?_, fun s code pins load => ⟨rfl, rfl, rfl, exec_jtagExtest_drives, exec_jtagExtest_bypass⟩⟩
  dsimp only
  refine ⟨fun hw => ⟨secureEntry_world hw, secureEntry_world hw, secureEntry_world hw, secureEntry_world hw⟩,
    fun hw => ⟨fun hl => next_finish ((secureWrite_secure hw).trans (writeRegion_locked hl)), exec_regionWrite_open hw,
      fun hv => next_finish ((secureWrite_secure hw).trans (appCommit_other hv)), fun hn => next_finish ((secureWrite_secure hw).trans (appCommit_none hn)),
      fun i hi => exec_appCommit_some hw hi, ?store, ?restore⟩,
    fun ht => next_finish (stageImage_noType ht), fun ht hi => ⟨_, next_finish (stageImage_app ht), rfl, stageApp_verified hi⟩,
    fun ht hi => ⟨_, next_finish (stageImage_app ht), rfl, stageApp_refused hi⟩, fun h0 h4 hp => next_finish (stageImage_probation h0 h4 hp), exec_imageStage_slot,
    fun hp => next_finish (if_pos hp), exec_attestNonceWrite_idle, rfl⟩
  case store => exact ⟨_, next_finish (secureWrite_secure hw), rfl, rfl, rfl, rfl, rfl, fun p hp => storeFlash_roles hp⟩
  case restore => exact next_finish (t := restoreFlash s) (secureWrite_secure hw)

/-! ## Command tokens (R507-R510) -/

section tokens
variable {s t : State} {tok : Token} {k : Byte}

theorem lockedOut_iff : lockedOut s = true ↔ ∃ t0 : W64, s.sec.lockoutAt = some t0 ∧ now s < t0.toNat + 60000000000 := by
  unfold lockedOut
  split
  · next t h => simp [h]
  · next h => simp [h]

/-- What a refused token leaves: the refusal, and the rest as it was. -/
structure TokenKept (s : State) (st : Byte) (t : State) : Prop where
  status : t.status = st
  owner : t.sec.owner = s.sec.owner
  ownerGen : t.sec.ownerGen = s.sec.ownerGen
  flash : t.flash = s.flash
  tiles : t.tiles = s.tiles
  jobs : t.jobs = s.jobs
  regions : t.regions = s.regions
  refused : s.mod.time ∈ t.sec.refusals
  last : t.sec.lastTokenStatus = st
  challenge : t.sec.challenge = s.sec.challenge

theorem refuseToken_kept (s : State) (d st : Byte) : TokenKept s st (refuseToken s d st) := by
  obtain ⟨v, hv⟩ : ∃ v, v = { s with sec := { s.sec with
    refusals := (s.sec.refusals.filter fun t : W64 => decide (now s < t.toNat + 60000000000)) ++ [s.mod.time], lastTokenStatus := st
    lockoutAt := if lockedOut s then s.sec.lockoutAt
      else if 16 ≤ ((s.sec.refusals.filter fun t : W64 => decide (now s < t.toNat + 60000000000)) ++ [s.mod.time]).length then some s.mod.time else none } } := ⟨_, rfl⟩
  have hcalc : refuseToken s d st = setStatus (putErr v (islandErr cTokenRefused 1 d)) st := hv ▸ rfl
  have hr := Recorded.err v (e := islandErr cTokenRefused 1 d) (by simp [islandErr]) rfl
  rw [hcalc, hr.same, hv]
  exact ⟨rfl, rfl, rfl, rfl, rfl, rfl, rfl, List.mem_append_right _ (by simp), rfl, rfl⟩

/-- A challenge spent leaves everything but itself. -/
theorem spendChallenge_rest (s : State) (tok : Token) : ∃ c, spendChallenge s tok = { s with sec := { s.sec with challenge := c } } := by
  unfold spendChallenge
  split
  · exact ⟨none, rfl⟩
  · exact ⟨s.sec.challenge, rfl⟩

theorem TokenKept.of_spent {c : Option (BitVec 128 × W64)} {st : Byte} (h : TokenKept { s with sec := { s.sec with challenge := c } } st t) :
    t.status = st ∧ t.sec.owner = s.sec.owner ∧ t.sec.ownerGen = s.sec.ownerGen ∧ t.flash = s.flash ∧ t.tiles = s.tiles
      ∧ t.jobs = s.jobs ∧ t.regions = s.regions ∧ s.mod.time ∈ t.sec.refusals ∧ t.sec.lastTokenStatus = st :=
  ⟨h.status, h.owner, h.ownerGen, h.flash, h.tiles, h.jobs, h.regions, h.refused, h.last⟩

/-- A token that comes in a lockout or fails a check. -/
theorem checkToken_bad {act : State → State} (h : (∃ t0 : W64, s.sec.lockoutAt = some t0 ∧ now s < t0.toNat + 60000000000) ∨ tokRefusal s tok ≠ none) :
    let t := checkToken s tok act
    t.status = cTokenRefused ∧ t.sec.owner = s.sec.owner ∧ t.sec.ownerGen = s.sec.ownerGen ∧ t.flash = s.flash ∧ t.tiles = s.tiles
      ∧ t.jobs = s.jobs ∧ t.regions = s.regions ∧ s.mod.time ∈ t.sec.refusals ∧ t.sec.lastTokenStatus = cTokenRefused := by
  have hkeep : ∀ d c, TokenKept { s with sec := { s.sec with challenge := c } } cTokenRefused (refuseToken { s with sec := { s.sec with challenge := c } } d cTokenRefused) :=
    fun d c => refuseToken_kept ..
  by_cases hl : lockedOut s = true
  · have hcalc : checkToken s tok act = refuseToken s 6 cTokenRefused := if_pos hl
    dsimp only
    rw [hcalc]
    exact (hkeep 6 s.sec.challenge).of_spent
  · obtain ⟨d, hd⟩ := Option.ne_none_iff_exists'.mp (h.resolve_left fun hc => hl (lockedOut_iff.mpr hc))
    have hcalc : checkToken s tok act = refuseToken (if 3 ≤ d.toNat then spendChallenge s tok else s) d cTokenRefused := by
      refine (if_neg hl).trans ?_
      rw [hd]
    obtain ⟨c, hc⟩ := spendChallenge_rest s tok
    dsimp only
    rw [hcalc]
    split
    · rw [hc]
      exact (hkeep d c).of_spent
    · exact (hkeep d s.sec.challenge).of_spent

theorem checkToken_good {act : State → State} (hl : ¬ ∃ t0 : W64, s.sec.lockoutAt = some t0 ∧ now s < t0.toNat + 60000000000) (h : tokRefusal s tok = none) :
    checkToken s tok act = act (spendChallenge s tok) := by
  refine (if_neg fun hc => hl (lockedOut_iff.mp hc)).trans ?_
  rw [h]

/-! What a token that passes its checks shows. -/

theorem checks_of_tokRefusal_none (h : tokRefusal s tok = none) : tokFormOk tok = true ∧ ¬ (tok.kind ≠ 2 ∧ liveChallenge s ≠ some tok.nonce) ∧ tokGenOk s tok = true := by
  unfold tokRefusal at h
  split at h
  · exact absurd h (Option.some_ne_none _)
  next hform =>
  split at h
  · exact absurd h (Option.some_ne_none _)
  split at h
  · exact absurd h (Option.some_ne_none _)
  next hlive =>
  split at h
  · exact absurd h (Option.some_ne_none _)
  next hgen => exact ⟨by simpa using hform, hlive, by simpa using hgen⟩

/-- A token of good form is of one of the four kinds. -/
theorem kind_of_formOk (h : tokFormOk tok = true) : 1 ≤ tok.kind.toNat ∧ tok.kind.toNat ≤ 4 := by
  unfold tokFormOk at h
  rw [Bool.and_eq_true] at h
  obtain ⟨-, hk⟩ := h
  split at hk
  case h_5 => exact absurd hk Bool.false_ne_true
  all_goals next he => rw [he]; decide

/-- A token taken under a row is of the row's kind. -/
theorem ofKind_kind (h : tokRefusal s (ofKind k tok) = none) : (ofKind k tok).kind = k := by
  obtain ⟨h1, h4⟩ := kind_of_formOk (checks_of_tokRefusal_none h).1
  unfold ofKind at h1 h4 ⊢
  dsimp only at h1 h4 ⊢
  split at h1
  · next hk =>
    rw [if_pos hk] at h4
    obtain hk | hk := hk
    · rw [hk] at h1
      exact absurd h1 (by decide)
    · omega
  · next hk => exact if_neg hk

/-- A token that is not CLAIM spends its challenge. -/
theorem spendChallenge_spent (h : tokRefusal s (ofKind k tok) = none) (hk : k ≠ 2) :
    spendChallenge s (ofKind k tok) = { s with sec := { s.sec with challenge := none } } := by
  obtain ⟨-, hlive, -⟩ := checks_of_tokRefusal_none h
  have hkind : (ofKind k tok).kind ≠ 2 := by rwa [ofKind_kind h]
  exact if_pos ⟨hkind, not_not.mp fun hc => hlive ⟨hkind, hc⟩⟩

theorem spendChallenge_claim (h : tokRefusal s (ofKind 2 tok) = none) : spendChallenge s (ofKind 2 tok) = s :=
  if_neg fun hc => hc.1 (ofKind_kind h)

/-- CLAIM and ROTATE raise OWNER_GEN. -/
theorem ownerGen_rises (h : tokRefusal s (ofKind k tok) = none) (hk : k = 2 ∨ k = 3) : s.sec.ownerGen.toNat < tok.ownerGen.toNat := by
  obtain ⟨-, -, hgen⟩ := checks_of_tokRefusal_none h
  unfold tokGenOk at hgen
  rw [ofKind_kind h] at hgen
  obtain rfl | rfl := hk
  · have h2 : (s.sec.owner.isNone && decide (s.sec.ownerGen.toNat < tok.ownerGen.toNat)) = true := hgen
    exact of_decide_eq_true (Bool.and_eq_true _ _ ▸ h2).2
  · have h3 : decide (s.sec.ownerGen.toNat < tok.ownerGen.toNat) = true := hgen
    exact of_decide_eq_true h3

/-! ## WRITE of one item (R509, R543) -/

section item
variable {i : TokItem} {x : Reg}

/-- The status with which the one item of a token would complete. -/
def itemAnswer (s : State) (i : TokItem) : Byte :=
  match regAt i.index.toNat i.sub.toNat with
  | .ok r => if regScope r = 0 then itemStatus s i else stNoObject
  | .error c => c

theorem writeItems_one (h : tokItems tok.count.toNat tok.body = some [i]) (s : State) :
    writeItems tok s = if itemAnswer s i ≠ stOk then refuseToken s 7 (itemAnswer s i) else acceptToken (putItem s i) := by
  unfold writeItems
  rw [h]
  dsimp only [Option.getD_some, List.map_cons, List.map_nil, List.foldl_cons, List.foldl_nil]
  change (match [itemAnswer s i].find? (fun c => decide (c ≠ stOk)) with | some c => refuseToken s 7 c | none => acceptToken (putItem s i)) = _
  by_cases hc : itemAnswer s i ≠ stOk
  · have hf : [itemAnswer s i].find? (fun c => decide (c ≠ stOk)) = some (itemAnswer s i) := List.find?_cons_of_pos (decide_eq_true hc)
    rw [hf, if_pos hc]
  · have hf : [itemAnswer s i].find? (fun c => decide (c ≠ stOk)) = none := List.find?_cons_of_neg (by simpa using hc)
    rw [hf, if_neg hc]

/-- An index or subindex that names nothing answers an error. -/
theorem regAt_error {a b : Nat} {c : Byte} (h : regAt a b = .error c) : c ≠ 0 := by
  unfold regAt at h
  split at h
  · exact Except.error.inj h ▸ by decide
  split at h
  · cases h
  · exact Except.error.inj h ▸ by decide

theorem itemAnswer_scope (h : ∀ x, regAt i.index.toNat i.sub.toNat = .ok x → regScope x ≠ 0) : itemAnswer s i ≠ stOk := by
  unfold itemAnswer
  split
  · next r hr =>
    rw [if_neg (h r hr)]
    decide
  · next c hc => exact regAt_error hc

theorem itemAnswer_module (hr : regAt i.index.toNat i.sub.toNat = .ok x) (hx : regScope x = 0) : itemAnswer s i = itemStatus s i := by
  unfold itemAnswer
  rw [hr]
  exact if_pos hx

/-- A WRITE token of one item that passes its checks. -/
theorem exec_tokenWrite_one (hl : ¬ ∃ t0 : W64, s.sec.lockoutAt = some t0 ∧ now s < t0.toNat + 60000000000) (h : tokRefusal s (ofKind 1 tok) = none)
    (hi : tokItems tok.count.toNat tok.body = some [i]) : let u := spendChallenge s (ofKind 1 tok)
    exec (.tokenWrite tok) s = .next (if itemAnswer u i ≠ stOk then refuseToken u 7 (itemAnswer u i) else acceptToken (putItem u i)) :=
  congrArg Host.Outcome.next ((checkToken_good hl h).trans (writeItems_one hi _))

/-- An item that is refused. -/
theorem exec_tokenWrite_refused (hl : ¬ ∃ t0 : W64, s.sec.lockoutAt = some t0 ∧ now s < t0.toNat + 60000000000) (h : tokRefusal s (ofKind 1 tok) = none)
    (hi : tokItems tok.count.toNat tok.body = some [i]) (ha : itemAnswer (spendChallenge s (ofKind 1 tok)) i ≠ stOk) : Goes (exec (.tokenWrite tok) s) fun t =>
      t.status = itemAnswer (spendChallenge s (ofKind 1 tok)) i ∧ t.sec.challenge = none ∧ t.tiles = s.tiles ∧ t.regions = s.regions := by
  have hk := refuseToken_kept (spendChallenge s (ofKind 1 tok)) 7 (itemAnswer (spendChallenge s (ofKind 1 tok)) i)
  have hspent := spendChallenge_spent h (by decide)
  refine ⟨_, (exec_tokenWrite_one hl h hi).trans (congrArg Host.Outcome.next (if_pos ha)), hk.status, hk.challenge.trans ?_, hk.tiles.trans ?_, hk.regions.trans ?_⟩ <;> rw [hspent]

end item

end tokens

/-- Settles O49: tokens refused, each kind taken, a WRITE of one item by its answer, and the ends of challenges and lockouts. -/
theorem commandTokens : Obligations.CommandTokens := by
  intro s tok
  dsimp only
  refine ⟨fun hb => ⟨_, rfl, checkToken_bad hb⟩, fun hb => ⟨_, rfl, checkToken_bad hb⟩, fun hb => ⟨_, rfl, checkToken_bad hb⟩, fun hb => ⟨_, rfl, checkToken_bad hb⟩,
    fun ⟨hl, h⟩ => ?claim, fun ⟨hl, h⟩ => ?rotate, fun ⟨hl, h⟩ => ?decommission,
    fun i ⟨hl, h⟩ hi => ⟨fun hx => ?scope, fun x hr hx hst => ?refused, fun x hr hx hst => ?taken⟩, ⟨_, rfl, rfl, _, rfl⟩, fun c t0 hc => ?expire, fun hc => ?noChallenge,
    fun t0 ht => ?lockout, fun ht => ?noLockout⟩
  case claim =>
    have hgen := ownerGen_rises h (.inl rfl)
    refine ⟨_, congrArg Host.Outcome.next (checkToken_good hl h), ?_⟩
    rw [spendChallenge_claim h]
    exact ⟨rfl, rfl, rfl, hgen, rfl, rfl⟩
  case rotate =>
    have hgen := ownerGen_rises h (.inr rfl)
    refine ⟨_, congrArg Host.Outcome.next (checkToken_good hl h), ?_⟩
    rw [spendChallenge_spent h (by decide)]
    exact ⟨⟨rfl, rfl, rfl, hgen, rfl, rfl⟩, rfl⟩
  case decommission =>
    refine ⟨_, congrArg Host.Outcome.next (checkToken_good hl h), ?_⟩
    rw [spendChallenge_spent h (by decide)]
    exact ⟨rfl, rfl, rfl, rfl⟩
  case scope =>
    have ha : itemAnswer (spendChallenge s (ofKind 1 tok)) i ≠ stOk := itemAnswer_scope hx
    obtain ⟨t, he, hst, hrest⟩ := exec_tokenWrite_refused hl h hi ha
    exact ⟨t, he, fun hc => ha (hst.symm.trans hc), hrest⟩
  case refused =>
    have ha := itemAnswer_module (s := spendChallenge s (ofKind 1 tok)) hr hx
    have hr := exec_tokenWrite_refused hl h hi (ha ▸ hst)
    rwa [ha] at hr
  case taken =>
    have ha := itemAnswer_module (s := spendChallenge s (ofKind 1 tok)) hr hx
    exact ⟨_, (exec_tokenWrite_one hl h hi).trans (congrArg Host.Outcome.next (if_neg (not_not.mpr (ha.trans hst)))), rfl, rfl, rfl, rfl, rfl⟩
  case expire =>
    have hlive : (liveChallenge s).isNone = decide (t0.toNat + 60000000000 ≤ now s) := by
      unfold liveChallenge
      rw [hc]
      dsimp only
      split
      · next hn => exact (decide_eq_false (Nat.not_le.mpr hn)).symm
      · next hn => exact (decide_eq_true (Nat.not_lt.mp hn)).symm
    have he : exec .challengeExpire s = .next (if (liveChallenge s).isNone then { s with sec := { s.sec with challenge := none } } else s) := rfl
    rw [he, hlive]
    by_cases hn : t0.toNat + 60000000000 ≤ now s
    · rw [if_pos hn, decide_eq_true hn]
      rfl
    · rw [if_neg hn, decide_eq_false hn]
      rfl
  case noChallenge =>
    have he : exec .challengeExpire s = .next (if (liveChallenge s).isNone then { s with sec := { s.sec with challenge := none } } else s) := rfl
    rw [he]
    split
    · rw [← hc]
    · rfl
  case lockout =>
    have he : exec .lockoutEnd s = .next (if t0.toNat + 60000000000 ≤ now s then { s with sec := { s.sec with lockoutAt := none } } else s) := by
      change Host.Outcome.next (match s.sec.lockoutAt with
        | some t => if t.toNat + 60000000000 ≤ now s then { s with sec := { s.sec with lockoutAt := none } } else s
        | none => s) = _
      rw [ht]
    rw [he]
    split
    · rfl
    · rfl
  case noLockout =>
    change Host.Outcome.next (match s.sec.lockoutAt with
      | some t => if t.toNat + 60000000000 ≤ now s then { s with sec := { s.sec with lockoutAt := none } } else s
      | none => s) = _
    rw [ht]

end Sys2Proof.Machine
end

section
/-!
PROOFS of the statements of the family '18_dictionary.md': timers, events and segment access of the management port (R522, R526-R531).
-/
namespace Sys2Proof.Machine
open Sys2Proof

section port
variable {s t : State}

/-- With no request waiting, nothing settles. -/
theorem settleWaits_idle (h : s.mgmt.waiting = []) : settleWaits s = s := by
  have hs : setMgmt s (fun g => { g with waiting := [] }) = s := by
    unfold setMgmt
    rw [← h]
  unfold settleWaits
  rw [h, List.foldl_nil, hs]

/-- With no event queued, none is sent. -/
theorem pumpEvents_idle {n : Nat} (h : s.mgmt.evQueue = []) : pumpEvents n s = s := by
  cases n with
  | zero => rfl
  | succ n =>
    unfold pumpEvents
    rw [h]

/-! ## Transfers, snapshots and kept responses that leave (R526, R529, R530) -/

theorem mem_expireSegs {snap : Bool} {i n : W16} {sub : BitVec 8} {x : SegXfer} : x ∈ (expireSegs s snap i sub n).mgmt.segs ↔
    x ∈ s.mgmt.segs ∧ decide (x.snap = snap ∧ x.index = i ∧ x.sub = sub ∧ x.inst = n ∧ x.lastAt.toNat + 10000000000 ≤ now s) = false := by
  refine List.mem_filter.trans (and_congr_right fun _ => ?_)
  rw [Bool.not_eq_true', ← Bool.decide_and]
  simp only [and_assoc]

theorem mem_cacheKept {x : DdpSource × DdpMsg × W64} : x ∈ s.mgmt.cache.filter (fun (e : DdpSource × DdpMsg × W64) => decide (now s < e.2.2.toNat + 4000000000)) ↔
    x ∈ s.mgmt.cache ∧ now s < x.2.2.toNat + 4000000000 := List.mem_filter.trans (and_congr_right fun _ => decide_eq_true_iff)

/-! ## Where the port does not serve -/

section closed
variable (h : ¬ portServes s = true)
include h

theorem exec_pendingTimer_closed : exec .pendingTimer s = .next s := congrArg Host.Outcome.next (if_neg h)
theorem exec_transmitOpportunity_closed : exec .transmitOpportunity s = .next s := congrArg Host.Outcome.next (if_neg h)
theorem exec_eventAck_closed (seq : W16) : exec (.eventAck seq) s = .next s := congrArg Host.Outcome.next (if_neg h)
theorem exec_eventResend_closed (seq : W16) : exec (.eventResend seq) s = .next s := congrArg Host.Outcome.next (if_neg h)
theorem exec_droppedDatagram_closed (len : Nat) : exec (.droppedDatagram len) s = .next s := congrArg Host.Outcome.next (if_neg h)
theorem exec_icmpv6Receive_closed (m : IcmpMsg) : exec (.icmpv6Receive m) s = .next s := congrArg Host.Outcome.next (if_neg h)

end closed

/-! ## The segment and the address (R522) -/

theorem exec_plcaBeaconTimeout_kept (h : s.mod.resetN = false ∨ now s < s.mgmt.lastBeacon.toNat + 4000000) : exec .plcaBeaconTimeout s = .next s :=
  congrArg Host.Outcome.next (if_neg fun hc => h.elim (fun hr => Bool.noConfusion (hc.1.symm.trans hr)) fun hn => absurd hc.2 (Nat.not_le.mpr hn))

theorem exec_dadRepeat_other {conflict : Bool} (h : ¬ (2 ≤ s.mod.step.toNat ∧ s.mgmt.addrOk = false ∧ s.mgmt.dadAt.toNat + 10000000000 ≤ now s)) :
    exec (.dadRepeat conflict) s = .next s :=
  congrArg Host.Outcome.next (if_neg fun hc => h ⟨of_decide_eq_true hc.1, hc.2⟩)

/-- What address detection leaves of the port and the tiles. -/
theorem detect_parts (s : State) (b : Bool) : (detect s b).mgmt.addrOk = b ∧ (detect s b).mgmt.dadAt = s.mod.time ∧ (detect s b).tiles = s.tiles := by
  have hr := detect_recorded s b
  have ht := congrArg (fun u : State => u.tiles) hr.same
  refine ⟨hr.addrOk, ?_, ht⟩
  unfold detect
  extract_lets _ u
  split
  · rfl
  · have hview := putErr_view u (e := mgmtErr u cSlotConflict 1) (by simp [mgmtErr]) rfl
    have hdad := congrArg (fun m : Mgmt => m.dadAt) hview
    exact hdad

theorem exec_dadRepeat_due {conflict : Bool} (h : 2 ≤ s.mod.step.toNat ∧ s.mgmt.addrOk = false ∧ s.mgmt.dadAt.toNat + 10000000000 ≤ now s) :
    Goes (exec (.dadRepeat conflict) s) fun t => t.mgmt.addrOk = !conflict ∧ t.mgmt.dadAt = s.mod.time ∧ t.tiles = s.tiles :=
  ⟨_, congrArg Host.Outcome.next (if_pos ⟨decide_eq_true h.1, h.2⟩), detect_parts s (!conflict)⟩

/-! ## Where the port serves -/

section serves
variable (hs : portServes s = true)
include hs

theorem exec_transmitOpportunity_idle (hw : s.mgmt.waiting = []) (ho : s.mgmt.outQueue = []) : exec .transmitOpportunity s = .next s := by
  refine congrArg Host.Outcome.next ((if_pos hs).trans ?_)
  rw [settleWaits_idle hw]
  dsimp only
  rw [ho]

theorem exec_transmitOpportunity_sends {m : DdpMsg} {rest : List DdpMsg} (hw : s.mgmt.waiting = []) (ho : s.mgmt.outQueue = m :: rest) :
    exec .transmitOpportunity s = .next { s with mgmt := { s.mgmt with outQueue := rest, sent := s.mgmt.sent ++ [m] } } := by
  refine congrArg Host.Outcome.next ((if_pos hs).trans ?_)
  rw [settleWaits_idle hw]
  dsimp only
  rw [ho]
  rfl

/-- PENDING told to the requests whose time has come. -/
def tellPending (s : State) : State :=
  let due (q : WaitReq) : Bool := decide (q.pendAt.toNat + 20000000 ≤ now s)
  setMgmt s fun g => { g with
    outQueue := g.outQueue ++ (g.waiting.filter due).map fun q => replyTo q opPending 0 []
    waiting := g.waiting.map fun q => if due q then { q with pendAt := s.mod.time } else q }

omit hs in
theorem tellPending_idle (hw : s.mgmt.waiting = []) : tellPending s = s := by
  unfold tellPending setMgmt
  dsimp only
  rw [hw, List.filter_nil, List.map_nil, List.map_nil, List.append_nil, ← hw]

theorem exec_pendingTimer_eq : exec .pendingTimer s = .next (tellPending (settleWaits s)) := congrArg Host.Outcome.next (if_pos hs)

theorem exec_pendingTimer_idle (hw : s.mgmt.waiting = []) : exec .pendingTimer s = .next s := by
  rw [exec_pendingTimer_eq hs, settleWaits_idle hw, tellPending_idle hw]

omit hs in
/-- A write under way that still waits. -/
theorem settleWaits_busy {q : WaitReq} {e : Reg} (hw : s.mgmt.waiting = [q]) (hq : q.started = true) (hr : regAt q.req.index.toNat q.req.sub.toNat = .ok e)
    (hb : lateBusy s e = true) : settleWaits s = s := by
  have hbusy : lateBusy (setMgmt s fun g => { g with waiting := [] }) e = true := hb
  have hbehind : behind (setMgmt s fun g => { g with waiting := [] }) q = false := rfl
  unfold settleWaits
  rw [hw, List.foldl_cons, List.foldl_nil]
  unfold settleWait
  rw [hbehind, hq, hr]
  dsimp only
  rw [if_neg Bool.false_ne_true, if_pos rfl, if_pos hbusy]
  unfold addWait setMgmt
  dsimp only
  rw [List.nil_append, ← hw]

theorem exec_pendingTimer_due {q : WaitReq} {e : Reg} (hw : s.mgmt.waiting = [q]) (hq : q.started = true) (hr : regAt q.req.index.toNat q.req.sub.toNat = .ok e)
    (hb : lateBusy s e = true) (ht : q.pendAt.toNat + 20000000 ≤ now s) : Goes (exec .pendingTimer s) fun t =>
      t.mgmt.waiting = [{ q with pendAt := s.mod.time }] ∧ t.mgmt.outQueue = s.mgmt.outQueue
        ++ [{ op := 0x7F, status := 0, index := q.req.index, sub := q.req.sub, inst := q.req.inst, seq := q.req.seq
              offset := if q.op = 4 ∨ q.op = 6 then q.req.offset else 0, value := [], dest := q.req.src }] := by
  refine ⟨_, (exec_pendingTimer_eq hs).trans (congrArg (fun u => Host.Outcome.next (tellPending u)) (settleWaits_busy hw hq hr hb)), ?_⟩
  unfold tellPending setMgmt
  dsimp only
  have hf : [q].filter (fun q => decide (q.pendAt.toNat + 20000000 ≤ now s)) = [q] := List.filter_cons_of_pos (decide_eq_true ht)
  rw [hw, hf, List.map_cons, List.map_nil, List.map_cons, List.map_nil]
  exact ⟨congrArg (fun x => [x]) (if_pos (decide_eq_true ht)), rfl⟩

/-! Events (R531). -/

theorem exec_eventAck_empty {seq : W16} (hq : s.mgmt.evQueue = []) : exec (.eventAck seq) s
    = .next { s with mgmt := { s.mgmt with unacked := s.mgmt.unacked.filter fun e => decide (e.seq ≠ seq) } } :=
  congrArg Host.Outcome.next ((if_pos hs).trans (pumpEvents_idle hq))

theorem exec_eventResend_none {seq : W16} (h : ∀ e ∈ s.mgmt.unacked, e.seq ≠ seq) : exec (.eventResend seq) s = .next s := by
  refine congrArg Host.Outcome.next ((if_pos hs).trans ?_)
  rw [List.find?_eq_none.mpr fun e he hc => h e he (of_decide_eq_true hc)]

theorem exec_eventResend_one {seq : W16} {e : Event} (h : s.mgmt.unacked = [e]) (he : e.seq = seq) : exec (.eventResend seq) s = .next (resendEvent s e) := by
  have hf : s.mgmt.unacked.find? (fun e => decide (e.seq = seq)) = some e := by
    rw [h]
    exact List.find?_cons_of_pos (decide_eq_true he)
  refine congrArg Host.Outcome.next ((if_pos hs).trans ?_)
  rw [hf]

omit hs in
theorem resendEvent_early {e : Event} (h : now s < e.sentAt.toNat + 10000000) : resendEvent s e = s := if_pos h

omit hs in
theorem resendEvent_given_up {e : Event} (hu : s.mgmt.unacked = [e]) (ht : e.sentAt.toNat + 10000000 ≤ now s) (h4 : 4 ≤ e.sends) (hq : s.mgmt.evQueue = []) :
    resendEvent s e = { s with mgmt := { s.mgmt with unacked := [], eventsLost := s.mgmt.eventsLost + 1 } } := by
  have hnone : s.mgmt.unacked.filter (fun x => decide (x.seq ≠ e.seq)) = [] := by
    rw [hu]
    exact List.filter_cons_of_neg (by simp)
  refine (if_neg (Nat.not_lt.mpr ht)).trans ((if_pos h4).trans ((pumpEvents_idle ?_).trans ?_))
  · exact hq
  unfold setMgmt
  dsimp only
  rw [hnone]

omit hs in
theorem resendEvent_again {e : Event} (hu : s.mgmt.unacked = [e]) (ht : e.sentAt.toNat + 10000000 ≤ now s) (h4 : e.sends < 4) :
    (resendEvent s e).mgmt.unacked = [{ e with sends := e.sends + 1, sentAt := s.mod.time }]
      ∧ (resendEvent s e).mgmt.outQueue.length = s.mgmt.outQueue.length + 1 ∧ (resendEvent s e).mgmt.eventsSent = s.mgmt.eventsSent := by
  have hcalc : resendEvent s e = queueMsg (setMgmt s fun g => { g with
      unacked := g.unacked.map fun x => if x.seq = e.seq then { e with sends := e.sends + 1, sentAt := s.mod.time } else x })
      (eventMsg s { e with sends := e.sends + 1, sentAt := s.mod.time }) := (if_neg (Nat.not_lt.mpr ht)).trans (if_neg (Nat.not_le.mpr h4))
  rw [hcalc]
  refine ⟨?_, List.length_append.trans rfl, rfl⟩
  have hmap : s.mgmt.unacked.map (fun x => if x.seq = e.seq then { e with sends := e.sends + 1, sentAt := s.mod.time } else x)
      = [{ e with sends := e.sends + 1, sentAt := s.mod.time }] := by
    rw [hu, List.map_cons, List.map_nil, if_pos rfl]
  exact hmap

/-! ICMPv6 (R522). -/

theorem exec_icmpv6Receive_eq (m : IcmpMsg) : exec (.icmpv6Receive m) s = .next (match icmpAnswer s m with
    | some a => setMgmt s fun g => { g with icmpOut := g.icmpOut ++ [a] }
    | none => s) := congrArg Host.Outcome.next (if_pos hs)

theorem exec_icmpv6Receive_solicit_other {a b : BitVec 128} (h : a ≠ ownAddr s) : exec (.icmpv6Receive (.neighbourSolicit a b)) s = .next s := by
  have hn : icmpAnswer s (.neighbourSolicit a b) = none := if_neg h
  rw [exec_icmpv6Receive_eq hs, hn]

end serves

end port

/-- Settles O51: transfers, snapshots and kept responses by time; the segment and the address; then PENDING, messages, ICMPv6 and events. -/
theorem managementTimers : Obligations.ManagementTimers := by
  intro s i sub n seq conflict len
  dsimp only
  refine ⟨⟨_, rfl, rfl, fun x => mem_expireSegs⟩, ⟨_, rfl, rfl, fun x => mem_expireSegs⟩, ⟨_, rfl, rfl, fun x => mem_cacheKept⟩,
    fun hn => ⟨exec_pendingTimer_closed hn, exec_transmitOpportunity_closed hn, exec_eventAck_closed hn seq, exec_eventResend_closed hn seq, exec_droppedDatagram_closed hn len,
      exec_icmpv6Receive_closed hn⟩,
    fun hr => congrArg Host.Outcome.next (if_pos hr), fun hr ht => congrArg Host.Outcome.next (if_pos ⟨hr, ht⟩), exec_plcaBeaconTimeout_kept, exec_dadRepeat_other,
    exec_dadRepeat_due, fun hs => ⟨congrArg Host.Outcome.next (if_pos hs), fun m rest => exec_transmitOpportunity_sends hs, exec_transmitOpportunity_idle hs,
      exec_pendingTimer_idle hs, fun q e => exec_pendingTimer_due hs, exec_icmpv6Receive_eq hs _, fun a bs => exec_icmpv6Receive_eq hs _,
      fun a b => exec_icmpv6Receive_solicit_other hs, exec_eventAck_empty hs, exec_eventResend_none hs, fun e hu he => ?events⟩⟩
  case events =>
    have hone := exec_eventResend_one hs hu he
    exact ⟨fun ht => hone.trans (congrArg _ (resendEvent_early ht)), fun ht h4 hq => hone.trans (congrArg _ (resendEvent_given_up hu ht h4 hq)),
      fun ht h4 => ⟨_, hone, resendEvent_again hu ht h4⟩⟩

end Sys2Proof.Machine
end

section
/-!
PROOFS of the statement across the control families: what the commands of the ports, edges, clocks, firmware, security, test port, management port and power
leave. Each function that they call has one rule, which cites those of the functions that it calls.
-/
namespace Sys2Proof.Machine
open Sys2Proof

/-- The data of s are those of o: tiles, bytes of the stacks, jobs, publications, watch entries, loss monitors and gathering registers. -/
def Leaves (o s : State) : Prop :=
  s.tiles = o.tiles ∧ s.hbm = o.hbm ∧ s.jobs = o.jobs ∧ s.pubs = o.pubs ∧ s.watches = o.watches ∧ s.losses = o.losses ∧ s.gather = o.gather

/-- A command's answer leaves them where it is a next state. -/
def LeavesNext (o : State) (r : Host.Outcome State Fault Refusal) : Prop := ∀ t, r = .next t → Leaves o t

namespace Leaves
variable {o s t : State} {α : Type}

theorem refl (s : State) : Leaves s s := ⟨rfl, rfl, rfl, rfl, rfl, rfl, rfl⟩

/-- An update of any other field. -/
theorem frame (h : Leaves o s)
    {pending mod log halves dies hbmStacks net regions win mgmt fw sec jtag power flash status owed freeCtr} :
    Leaves o { s with
      pending := pending, mod := mod, log := log, halves := halves, dies := dies, hbmStacks := hbmStacks, net := net, regions := regions, win := win
      mgmt := mgmt, fw := fw, sec := sec, jtag := jtag, power := power, flash := flash, status := status, owed := owed, freeCtr := freeCtr } := h

theorem recorded (h : Leaves o s) (k : Recorded s t) : Leaves o t := by
  rw [k.same]
  exact h

theorem ite {c : Prop} [Decidable c] (h : Leaves o s) (k : Leaves o t) : Leaves o (if c then s else t) := by
  split <;> assumption

theorem iteFst {c : Prop} [Decidable c] {p q : State × α} (h : Leaves o p.1) (k : Leaves o q.1) : Leaves o (if c then p else q).1 := by
  split <;> assumption

theorem foldl {f : State → α → State} {l : List α} (h : Leaves o s) (hf : ∀ s a, Leaves o s → Leaves o (f s a)) : Leaves o (l.foldl f s) :=
  List.foldlRecOn (motive := Leaves o) l f h fun t ht a _ => hf t a ht

theorem next (h : Leaves o s) : LeavesNext o (.next s) := fun _ ht => Host.Outcome.next.inj ht ▸ h

/-! ## Shared operations -/

theorem freshWord (h : Leaves o s) : Leaves o (Machine.freshWord s).2 := h.frame

theorem putHalf {i : Nat} {x : Half} (h : Leaves o s) : Leaves o (Machine.putHalf s i x) := h.frame

theorem putPort {p : Nat} {x : Port} (h : Leaves o s) : Leaves o (Machine.putPort s p x) := h.frame

theorem putEdge {e : Nat} {x : Edge} (h : Leaves o s) : Leaves o (Machine.putEdge s e x) := h.frame

theorem putRail {r : Nat} {x : Rail} (h : Leaves o s) : Leaves o (Machine.putRail s r x) := h.frame

theorem setStatus {st : Byte} (h : Leaves o s) : Leaves o (Machine.setStatus s st) := h.frame

theorem pumpEvents {n : Nat} (h : Leaves o s) : Leaves o (Machine.pumpEvents n s) := h.recorded (.pump n s)

theorem raiseEvent {kind : Nat} {obj : W16} {body : List Byte} {sev : BitVec 2} (h : Leaves o s) : Leaves o (Machine.raiseEvent s kind obj body sev) :=
  h.recorded (.event ..)

theorem setPort {p : Nat} {f : Port → Port} (h : Leaves o s) : Leaves o (Machine.setPort s p f) := h.putPort.raiseEvent

theorem setFw {f : Fw → Fw} (h : Leaves o s) : Leaves o (Machine.setFw s f) := h.frame.raiseEvent

/-- A record of an error that is not fatal and of no job. -/
theorem putErr {e : Err} (h : Leaves o s) (hs : e.sev ≠ 3) (hj : e.job = none) : Leaves o (Machine.putErr s e) := h.recorded (.err s hs hj)

theorem secureWrite {w : Writer} {addr : Nat} {f : State → State × Byte} (h : Leaves o s) (hf : ∀ s, Leaves o s → Leaves o (f s).1) :
    Leaves o (Machine.secureWrite w addr s f).1 := .iteFst (hf _ h) (h.putErr (writerErr_sev w addr) (writerErr_job w addr))

theorem dieReg {d : Nat} {f : State → State × Byte} (h : Leaves o s) (hf : ∀ s, Leaves o s → Leaves o (f s).1) : Leaves o (Machine.dieReg s d f).1 :=
  .iteFst (hf _ h) h

theorem finish {r : State × Byte} (h : Leaves o r.1) : Leaves o (Machine.finish r) := h.setStatus

/-! ## Ports (R331, R340, R346) -/

theorem writePortCfg {p : Nat} {v : W32} (h : Leaves o s) : Leaves o (Machine.writePortCfg s p v).1 := .iteFst h (.iteFst h h.putPort)

theorem portCfgBy {w : Writer} {p : Nat} {v : W32} (h : Leaves o s) : Leaves o (Machine.portCfgBy w s p v).1 :=
  .iteFst h.writePortCfg (.iteFst (h.writePortCfg.putErr (writerErr_sev _ _) (writerErr_job _ _)) h.writePortCfg)

theorem execPortCfgWrite {w : Writer} {port : Fin 24} {value : W32} (h : Leaves o s) : LeavesNext o (Machine.execPortCfgWrite w port value s) :=
  .next (.finish (h.dieReg fun _ h => h.portCfgBy))

theorem startPort {p : Nat} (h : Leaves o s) : Leaves o (Machine.startPort s p) := .ite h.setPort h

theorem execPortStart {w : Writer} {port : Fin 24} (h : Leaves o s) : LeavesNext o (Machine.execPortStart w port s) :=
  .next (.finish (h.dieReg fun _ h => h.startPort))

theorem retrainPort {p : Nat} (h : Leaves o s) : Leaves o (Machine.retrainPort s p) := .ite h.setPort h

theorem execRetrain {w : Writer} {port : Fin 24} (h : Leaves o s) : LeavesNext o (Machine.execRetrain w port s) :=
  .next (.finish (h.dieReg fun _ h => h.retrainPort))

theorem execLaneLockLoss {port : Fin 24} {lane : Fin 8} (h : Leaves o s) : LeavesNext o (Machine.execLaneLockLoss port lane s) :=
  .next (.ite h.retrainPort h)

theorem execTrainingFrameReceive {port : Fin 24} (h : Leaves o s) : LeavesNext o (Machine.execTrainingFrameReceive port s) := .next h.retrainPort

theorem sendFlit {p : Nat} {typ : BitVec 2} {vl : Nat} {seq : BitVec 12} {len : Nat} {k : Option (Pkt × Nat)} (h : Leaves o s) :
    Leaves o (Machine.sendFlit s p typ vl seq len k) := h.putPort

theorem resend {p : Nat} (h : Leaves o s) : Leaves o (Machine.resend s p) := h.foldl fun _ _ h => h.sendFlit

theorem countReplay {p : Nat} (h : Leaves o s) : Leaves o (Machine.countReplay s p) := .ite h.resend.putPort.retrainPort h.resend.putPort

theorem execTzReplayTimeout {port : Fin 24} (h : Leaves o s) : LeavesNext o (Machine.execTzReplayTimeout port s) := .next (.ite h.countReplay h)

theorem execTzAckTimer {port : Fin 24} (h : Leaves o s) : LeavesNext o (Machine.execTzAckTimer port s) := .next (.ite h.sendFlit h)

theorem execTzReplaySummary {port : Fin 24} (h : Leaves o s) : LeavesNext o (Machine.execTzReplaySummary port s) :=
  .next (.ite (h.putPort.putErr (by simp [portErr]) rfl) h)

/-- A flit with an error is counted and answered with a NAK; nothing of it is taken. -/
theorem execTzFlitReceive {port : Fin 24} {n : Nat} {why : FlitFault} {f : Flit} (h : Leaves o s) :
    LeavesNext o (Machine.execTzFlitReceive port ⟨n, some why⟩ f s) := .next (.ite h.putPort.putPort h)

theorem tellMismatch {k n : Nat} (h : Leaves o s) : Leaves o (Machine.tellMismatch s k n) := .ite (h.putErr (by simp [portErr]) rfl) h

theorem peerBack {k : Nat} (h : Leaves o s) : Leaves o (Machine.peerBack s k) := .ite h.frame h

theorem matchPeer {k : Nat} (h : Leaves o s) : Leaves o (Machine.matchPeer s k) := .peerBack (h.foldl fun _ _ h => h.tellMismatch)

theorem writePeer {k : Nat} {v : W32} (h : Leaves o s) : Leaves o (Machine.writePeer s k v).1 :=
  .iteFst h (.iteFst h (.iteFst h (.ite h.frame.matchPeer h.frame)))

theorem execTzPeerWrite {w : Writer} {peer : BitVec 2} {value : W32} (h : Leaves o s) : LeavesNext o (Machine.execTzPeerWrite w peer value s) :=
  .next h.writePeer.finish

/-! ## The Ethernet role (R356 to R359) -/

theorem putQp {q : BitVec 12} {x : RoceQp} (h : Leaves o s) : Leaves o (Machine.putQp s q x) := h.frame

theorem putMr {r : Nat} {x : RoceMr} (h : Leaves o s) : Leaves o (Machine.putMr s r x) := h.frame

theorem roceFlushAll (h : Leaves o s) : Leaves o (Machine.roceFlushAll s) := h.foldl fun _ _ h => .ite h.putQp h

theorem writeMr {r reg : Nat} {v : W64} (h : Leaves o s) : Leaves o (Machine.writeMr s r reg v).1 :=
  .iteFst h (by split; exacts [h.putMr, .iteFst h h.putMr, .iteFst h h.putMr, h])

theorem execRoceMrWrite {w : Writer} {region : BitVec 10} {reg : BitVec 2} {value : W64} (h : Leaves o s) :
    LeavesNext o (Machine.execRoceMrWrite w region reg value s) := .next h.writeMr.finish

theorem execCnpReceive {qp : BitVec 12} (h : Leaves o s) : LeavesNext o (Machine.execCnpReceive qp s) := .next (.ite h.putQp h)

theorem execRoceRateRecovery {qp : BitVec 12} (h : Leaves o s) : LeavesNext o (Machine.execRoceRateRecovery qp s) :=
  .next (by dsimp only; split; exacts [.ite h.putQp h, h])

theorem execEthFrameReceive {port : Fin 24} {fcsOk overRate : Bool} {bytes : List Byte} (h : Leaves o s) :
    LeavesNext o (Machine.execEthFrameReceive port fcsOk overRate bytes s) := .next (.ite (.ite h.frame h.putPort) h)

theorem execPriorityFlowControl {port : Fin 24} {pause resume : Byte} (h : Leaves o s) :
    LeavesNext o (Machine.execPriorityFlowControl port pause resume s) := .next (.ite h.putPort.roceFlushAll h)

/-! ## Edges and clocks (R431) -/

theorem trainEdge {e : Nat} {ok : Bool} {pairs : List (Fin 24)} (h : Leaves o s) : Leaves o (Machine.trainEdge s e ok pairs) :=
  .ite (h.putEdge.foldl fun _ _ h => h.putErr (by simp [edgeErr]) rfl) (h.putEdge.putErr (by simp [edgeErr]) rfl)

theorem execEdgeRetrain {w : Writer} {edge : Fin 16} {trains : Option (List (Fin 24))} (h : Leaves o s) :
    LeavesNext o (Machine.execEdgeRetrain w edge trains s) := .next (.finish (h.secureWrite fun _ h => .iteFst h.trainEdge h))

/-- A link that trains again without a remap changes its edge alone. -/
theorem execD2dLinkLockLoss {edge : Fin 16} {link : Fin 24} (h : Leaves o s) : LeavesNext o (Machine.execD2dLinkLockLoss edge link false true s) :=
  .next (.ite (show Leaves o (Machine.putEdge _ _ _) from h.freshWord.putEdge) h)

theorem execClockStepChange {die : Fin 12} {half : Bool} (h : Leaves o s) : LeavesNext o (Machine.execClockStepChange die half s) :=
  .next (.ite h.putHalf h)

/-! ## Management firmware (R473 to R477) -/

theorem detect {addrFree : Bool} (h : Leaves o s) : Leaves o (Machine.detect s addrFree) := .ite h.frame (h.frame.putErr (by simp [mgmtErr]) rfl)

theorem execMgmtCheckpoint (h : Leaves o s) : LeavesNext o (Machine.execMgmtCheckpoint s) := .next (.ite h.frame h)

theorem takeover {f : Fw → Fw} {sev : BitVec 2} (h : Leaves o s) (hs : sev ≠ 3) : Leaves o (Machine.takeover s f sev) :=
  h.frame.setFw.putErr hs rfl

theorem revertFw (h : Leaves o s) : Leaves o (Machine.revertFw s) := ((h.takeover (by decide)).putErr (by simp [mgmtErr]) rfl).frame

theorem execMgmtWatchdog (h : Leaves o s) : LeavesNext o (Machine.execMgmtWatchdog s) :=
  .next (.ite h (by split; exacts [h.takeover (by decide), h.revertFw, h.takeover (by decide)]))

theorem commitFw (h : Leaves o s) : Leaves o (Machine.commitFw s) := by
  unfold Machine.commitFw
  exact .setFw h

theorem handoverFw {img : Image} (h : Leaves o s) : Leaves o (Machine.handoverFw s img).1 := .iteFst h h.freshWord.frame.setFw

theorem execHandover {w : Writer} {img : Image} (h : Leaves o s) : LeavesNext o (Machine.execHandover w img s) :=
  .next (.finish (h.secureWrite fun _ h => h.handoverFw))

theorem execCommit {w : Writer} (h : Leaves o s) : LeavesNext o (Machine.execCommit w s) :=
  .next (.finish (h.secureWrite fun _ h => .iteFst h.commitFw h))

theorem execRevert {w : Writer} (h : Leaves o s) : LeavesNext o (Machine.execRevert w s) :=
  .next (.finish (h.secureWrite fun _ h => .iteFst h.revertFw h))

theorem execProbationEnd (h : Leaves o s) : LeavesNext o (Machine.execProbationEnd s) := .next (.ite h.commitFw h)

theorem execAppWatchdog {core : Fin 16} (h : Leaves o s) : LeavesNext o (Machine.execAppWatchdog core s) :=
  .next (.ite (h.frame.putErr (by simp) rfl) h)

/-! ## Security and the test port (R485, R494, R504 to R511) -/

theorem writeRegion {e : BitVec 6} {v : BitVec 128} (h : Leaves o s) : Leaves o (Machine.writeRegion s e v).1 := .iteFst h h.frame

theorem execRegionWrite {w : Writer} {entry : BitVec 6} {value : BitVec 128} (h : Leaves o s) :
    LeavesNext o (Machine.execRegionWrite w entry value s) := .next (.finish (h.secureWrite fun _ h => h.writeRegion))

theorem stageApp {i : Image} (h : Leaves o s) : Leaves o (Machine.stageApp s i) := by
  unfold Machine.stageApp
  split
  exacts [h.frame.putErr (by simp [islandErr]) rfl, h.frame]

theorem stageImage {i : Image} (h : Leaves o s) : Leaves o (Machine.stageImage s i).1 :=
  .iteFst h (.iteFst h.stageApp (.iteFst h (.ite h.frame h.frame)))

theorem execImageStage {w : Writer} {img : Image} (h : Leaves o s) : LeavesNext o (Machine.execImageStage w img s) := .next h.stageImage.finish

theorem appCommit {v : W32} (h : Leaves o s) : Leaves o (Machine.appCommit s v).1 := by
  refine .iteFst h ?_
  split
  exacts [h.frame, h]

theorem execAppCommit {w : Writer} {value : W32} (h : Leaves o s) : LeavesNext o (Machine.execAppCommit w value s) :=
  .next (.finish (h.secureWrite fun _ h => h.appCommit))

theorem execAttestNonceWrite {nonce : BitVec 256} (h : Leaves o s) : LeavesNext o (Machine.execAttestNonceWrite nonce s) :=
  .next (.finish (.iteFst h h.frame))

theorem execAttestReportReady (h : Leaves o s) : LeavesNext o (Machine.execAttestReportReady s) := .next h.frame

theorem execChallengeRead (h : Leaves o s) : LeavesNext o (Machine.execChallengeRead s) := .next (.setStatus h.freshWord.frame)

theorem execChallengeExpire (h : Leaves o s) : LeavesNext o (Machine.execChallengeExpire s) := .next (.ite h.frame h)

theorem execLockoutEnd (h : Leaves o s) : LeavesNext o (Machine.execLockoutEnd s) := .next (by split; exacts [.ite h.frame h, h])

theorem refuseToken {d st : Byte} (h : Leaves o s) : Leaves o (Machine.refuseToken s d st) := (h.frame.putErr (by simp [islandErr]) rfl).setStatus

theorem spendChallenge {t : Token} (h : Leaves o s) : Leaves o (Machine.spendChallenge s t) := .ite h.frame h

theorem checkToken {t : Token} {act : State → State} (h : Leaves o s) (hf : ∀ u, Leaves o u → Leaves o (act u)) :
    Leaves o (Machine.checkToken s t act) := by
  refine .ite h.refuseToken ?_
  split
  exacts [.refuseToken (.ite h.spendChallenge h), hf _ h.spendChallenge]

theorem acceptToken (h : Leaves o s) : Leaves o (Machine.acceptToken s) := .setStatus h.frame

theorem newOwner {t : Token} (h : Leaves o s) : Leaves o (Machine.newOwner s t) := acceptToken h.frame

theorem execTokenClaim {t : Token} (h : Leaves o s) : LeavesNext o (Machine.execTokenClaim t s) := .next (h.checkToken fun _ h => h.newOwner)

theorem execTokenRotate {t : Token} (h : Leaves o s) : LeavesNext o (Machine.execTokenRotate t s) := .next (h.checkToken fun _ h => h.newOwner)

theorem execTokenDecommission {t : Token} (h : Leaves o s) : LeavesNext o (Machine.execTokenDecommission t s) :=
  .next (h.checkToken fun _ h => acceptToken h.frame)

theorem execJtagExtest (h : Leaves o s) : LeavesNext o (Machine.execJtagExtest s) := .next (.ite h.frame h.frame)

theorem execStore {w : Writer} (h : Leaves o s) : LeavesNext o (Machine.execStore w s) := .next (.finish (h.secureWrite fun _ h => h.frame))

theorem execRestore {w : Writer} (h : Leaves o s) : LeavesNext o (Machine.execRestore w s) := .next (.finish (h.secureWrite fun _ h => h.frame))

/-! ## The management port (R522 to R533) -/

theorem setMgmt {f : Mgmt → Mgmt} (h : Leaves o s) : Leaves o (Machine.setMgmt s f) := h.frame

theorem execDroppedDatagram {len : Nat} (h : Leaves o s) : LeavesNext o (Machine.execDroppedDatagram len s) := .next (.ite h.setMgmt h)

theorem execPlcaBeacon (h : Leaves o s) : LeavesNext o (Machine.execPlcaBeacon s) := .next (.ite h.setMgmt h)

theorem execPlcaBeaconTimeout (h : Leaves o s) : LeavesNext o (Machine.execPlcaBeaconTimeout s) := .next (.ite h.setMgmt h)

theorem execDadRepeat {conflict : Bool} (h : Leaves o s) : LeavesNext o (Machine.execDadRepeat conflict s) := .next (.ite h.detect h)

theorem execIcmpv6Receive {m : IcmpMsg} (h : Leaves o s) : LeavesNext o (Machine.execIcmpv6Receive m s) :=
  .next (.ite (by split; exacts [h.setMgmt, h]) h)

theorem execEventAck {seq : W16} (h : Leaves o s) : LeavesNext o (Machine.execEventAck seq s) := .next (.ite h.setMgmt.pumpEvents h)

theorem resendEvent {e : Event} (h : Leaves o s) : Leaves o (Machine.resendEvent s e) := .ite h (.ite h.setMgmt.pumpEvents h.setMgmt.setMgmt)

theorem execEventResend {seq : W16} (h : Leaves o s) : LeavesNext o (Machine.execEventResend seq s) :=
  .next (.ite (by split; exacts [h.resendEvent, h]) h)

/-! ## Power (R549 to R569) -/

theorem execPowerCfgWrite {w : Writer} {value : W32} (h : Leaves o s) : LeavesNext o (Machine.execPowerCfgWrite w value s) :=
  .next (.finish (.iteFst h.frame h))

theorem execThermCfgWrite {w : Writer} {value : W32} (h : Leaves o s) : LeavesNext o (Machine.execThermCfgWrite w value s) :=
  .next (.finish (h.secureWrite fun _ h => .iteFst h.frame h))

theorem execRailRegulationReturn {rail : Fin 29} (h : Leaves o s) : LeavesNext o (Machine.execRailRegulationReturn rail s) := .next (.ite h.putRail h)

theorem execPhaseFault {rail : Fin 29} {phase : BitVec 4} (h : Leaves o s) : LeavesNext o (Machine.execPhaseFault rail phase s) := by
  refine .next (.ite ?_ h)
  extract_lets y u
  have hu : Leaves o u := h.putRail.putErr (railErr_sev (by decide)) rfl
  exact .ite (hu.frame.putErr (railErr_sev (by decide)) rfl) hu

theorem putLimits {i : Nat} {h0 : Half} (h : Leaves o s) : Leaves o (Machine.putLimits s i h0) := h.putHalf

theorem evalDie {b d d0 d1 : Nat} (h : Leaves o s) : Leaves o (Machine.evalDie b d d0 d1 s) :=
  .ite (.ite h.putHalf.putLimits h.putHalf.putLimits) (.ite (.ite h.putHalf (.ite h.putHalf.putLimits h.putHalf.putLimits)) h.putHalf)

theorem shedLight {r : Nat} (h : Leaves o s) : Leaves o (Machine.shedLight s r) := .ite h (.ite h.freshWord.putRail h.putRail)

theorem evalPeak {pin : Nat} (h : Leaves o s) : Leaves o (Machine.evalPeak s pin) := .ite h.frame h.frame

theorem slowAll (h : Leaves o s) : Leaves o (Machine.slowAll s) := h.foldl fun _ _ h => h.putLimits

theorem execBudgetEval {iin pin pFixed : W16} {demand : List (Nat × Nat)} (h : Leaves o s) :
    LeavesNext o (Machine.execBudgetEval iin pin pFixed demand s) := by
  refine .next (.ite h ?_)
  extract_lets p bs s1 _ s2 s3
  have h1 : Leaves o s1 := h.foldl fun _ _ h => by split; exacts [h.evalDie, h]
  have h3 : Leaves o s3 := h1.frame.evalPeak.foldl fun _ _ h => h.shedLight
  exact .ite h3.slowAll h3

end Leaves

/-- Settles O60: each command listed leaves the data, by the rules of the functions that it calls. -/
theorem controlCommandsLeaveData : Obligations.ControlCommandsLeaveData := by
  intro s t w p lane n why f k v v64 q r bytes a b die half edge link x y found core img e e128 tok nonce i16 n16 sub m rail phase demand c hc
  refine (?_ : ∀ c ∈ _, LeavesNext s (exec c s)) c hc t
  have h := Leaves.refl s
  simp only [List.forall_mem_cons]
  exact ⟨h.execPortCfgWrite, h.execPortStart (w := w), h.execRetrain (w := w), h.execLaneLockLoss, h.execTrainingFrameReceive,
    h.execTzFlitReceive (f := f), h.execTzAckTimer, h.execTzReplayTimeout, h.execTzReplaySummary, h.execTzPeerWrite (w := w), h.execCnpReceive,
    h.execRoceRateRecovery, h.execEthFrameReceive, h.execRoceMrWrite (w := w), h.execPriorityFlowControl, h.execClockStepChange, h.execEdgeRetrain,
    h.execD2dLinkLockLoss, h.execMgmtCheckpoint, h.execMgmtWatchdog, h.execHandover, h.execCommit, h.execRevert, h.execProbationEnd,
    h.execAppWatchdog, h.execRegionWrite, h.execTokenClaim, h.execTokenRotate, h.execTokenDecommission, h.execChallengeRead, h.execChallengeExpire,
    h.execLockoutEnd, h.execAttestNonceWrite, h.execAttestReportReady, h.execImageStage (w := w), h.execAppCommit, .next h.frame, .next h.frame,
    .next h.frame, h.execJtagExtest, .next h.frame, .next h.frame, h.execEventAck, h.execEventResend, .next h.frame, h.execPlcaBeacon,
    h.execPlcaBeaconTimeout, h.execDadRepeat, h.execIcmpv6Receive, h.execDroppedDatagram (len := i16.toNat), h.execStore, h.execRestore,
    h.execPowerCfgWrite (w := w), h.execThermCfgWrite, h.execRailRegulationReturn, h.execPhaseFault, h.execBudgetEval, List.forall_mem_nil _⟩

end Sys2Proof.Machine
end

section
/-!
PROOFS of the statements of the family '18_dictionary.md': requests of the management port and their responses (R475, R484, R516, R523-R530, R533).
-/
namespace Sys2Proof.Machine
open Sys2Proof

/-- The port after a sender is heard, with nothing waiting. -/
def heardIdle (s : State) (r : DdpReq) : State := setMgmt (hear s r.src) fun g => { g with waiting := [] }

/-- The state in which a request is performed: it is counted. -/
def heardNew (s : State) (r : DdpReq) : State := setMgmt (heardIdle s r) fun g => { g with requests := g.requests + 1 }

/-- A request as the port takes it. -/
def asked (s : State) (r : DdpReq) (op : Byte) (bytes : List Byte) : WaitReq := { req := r, op, bytes, started := false, pendAt := s.mod.time }

section port
variable {s u : State} {r : DdpReq} {e : Reg} {op : Byte} {bytes : List Byte}

/-! ## Hearing a sender (R526) -/

theorem settleWaits_hear (h : s.mgmt.waiting = []) : settleWaits (hear s r.src) = heardIdle s r := by
  have hw : (hear s r.src).mgmt.waiting = [] := h
  unfold settleWaits
  rw [hw]
  rfl

/-- The order in which senders were heard changes no response that is kept. -/
theorem keptFor_heardIdle : keptFor (heardIdle s r) r = keptFor s r := by
  have hnone : (s.mgmt.cache.filter fun e => decide (e.1 ≠ r.src)).find?
      (fun e => decide (e.1 = r.src ∧ e.2.1.seq = r.seq) && decide (now s < e.2.2.toNat + 4000000000)) = none := by
    refine List.find?_eq_none.mpr fun e he hc => ?_
    have hne := of_decide_eq_true (List.mem_filter.mp he).2
    exact hne (of_decide_eq_true (Bool.and_eq_true_iff.mp hc).1).1
  have hkept : (s.mgmt.cache.filter fun e => decide (e.1 = r.src)).find?
      (fun e => decide (e.1 = r.src ∧ e.2.1.seq = r.seq) && decide (now s < e.2.2.toNat + 4000000000))
      = s.mgmt.cache.find? fun e => decide (e.1 = r.src ∧ e.2.1.seq = r.seq) && decide (now s < e.2.2.toNat + 4000000000) := by
    rw [List.find?_filter]
    refine congrArg (fun p => s.mgmt.cache.find? p) (funext fun e => ?_)
    by_cases hsrc : e.1 = r.src <;> simp [hsrc]
  refine congrArg (Option.map fun (e : DdpSource × DdpMsg × W64) => e.2.1) (List.find?_append.trans ?_)
  exact (congrArg₂ Option.or hnone hkept).trans Option.none_or

/-- Hearing a sender changes the port alone. -/
theorem heardNew_eq : ∃ g, heardNew s r = { s with mgmt := g } := ⟨_, rfl⟩

theorem regNamed_heardNew {n : Nat} : regNamed (heardNew s r) e n = regNamed s e n := by
  obtain ⟨g, hg⟩ := heardNew_eq (s := s) (r := r)
  rw [hg]
  rfl

theorem regGate_heardNew {n : Nat} : regGate (heardNew s r) e n = regGate s e n := by
  obtain ⟨g, hg⟩ := heardNew_eq (s := s) (r := r)
  rw [hg]
  rfl

theorem domainVal_heardNew : domainVal (heardNew s r) e = domainVal s e := by
  obtain ⟨g, hg⟩ := heardNew_eq (s := s) (r := r)
  rw [hg]
  rfl

theorem domainRefusal_heardNew {n : Nat} : domainRefusal (heardNew s r) e n = domainRefusal s e n := by
  obtain ⟨g, hg⟩ := heardNew_eq (s := s) (r := r)
  rw [hg]
  rfl

theorem segs_heardNew : (heardNew s r).mgmt.segs = s.mgmt.segs := by simp only [heardNew, heardIdle, hear, setMgmt]

theorem otherSegs_heardNew : otherSegs (heardNew s r) r = otherSegs s r := by
  unfold otherSegs
  rw [segs_heardNew]

theorem segOf_heardNew : segOf (heardNew s r) r = segOf s r := by
  unfold segOf
  rw [segs_heardNew]

theorem unanswered_heardNew : unanswered (heardNew s r) r = unanswered s r := by
  have hq : (heardNew s r).mgmt.outQueue = s.mgmt.outQueue := by simp only [heardNew, heardIdle, hear, setMgmt]
  unfold unanswered
  rw [hq]

theorem request_closed (hs : portServes s = false) : request s r op bytes = s := if_pos (by rw [hs]; rfl)

theorem request_repeat {m : DdpMsg} (hs : portServes s = true) (hw : s.mgmt.waiting = []) (hk : keptFor s r = some m) :
    request s r op bytes = queueMsg (setMgmt (heardIdle s r) fun g => { g with repeats := g.repeats + 1 }) m := by
  refine (if_neg (by rw [hs]; exact Bool.false_ne_true)).trans ?_
  rw [settleWaits_hear hw]
  dsimp only
  rw [keptFor_heardIdle, hk]

/-- A request that repeats none, with none waiting. -/
theorem request_new (hs : portServes s = true) (hw : s.mgmt.waiting = []) (hk : keptFor s r = none) :
    request s r op bytes = if busyNow s (asked s r op bytes) then answer (heardIdle s r) (asked s r op bytes) stBusy [] else perform (heardIdle s r) (asked s r op bytes) := by
  refine (if_neg (by rw [hs]; exact Bool.false_ne_true)).trans ?_
  rw [settleWaits_hear hw]
  dsimp only
  rw [keptFor_heardIdle, hk]
  rfl

theorem busyNow_asked (hop : op ≠ opDiscover) : busyNow s (asked s r op bytes) = true ↔ swapping s = true ∨ secureCopies s = [] ∧ Config.needsStore r.index r.sub = true := by
  have hd : decide ((asked s r op bytes).op ≠ opDiscover) = true := decide_eq_true hop
  unfold busyNow
  rw [hd, Bool.and_true, Bool.or_eq_true, Bool.and_eq_true, List.isEmpty_iff]
  rfl

theorem busyNow_discover : busyNow s (asked s r opDiscover bytes) = swapping s := by
  have hd : decide ((asked s r opDiscover bytes).op ≠ opDiscover) = false := rfl
  unfold busyNow
  rw [hd, Bool.and_false, Bool.false_and, Bool.or_false]

/-! ## Responses -/

theorem answer_last (u : State) (q : WaitReq) (st : Byte) (v : List Byte) : (answer u q st v).mgmt.outQueue.getLast? = some (replyTo q (q.op + 0x80) st v) :=
  List.getLast?_concat

theorem perform_done {q : WaitReq} {st : Byte} {v : List Byte} (h : serve (setMgmt s fun g => { g with requests := g.requests + 1 }) q = (u, .done st v)) :
    perform s q = answer u q st v := by
  unfold perform
  dsimp only
  rw [h]

theorem perform_late {q : WaitReq} (h : serve (setMgmt s fun g => { g with requests := g.requests + 1 }) q = (u, .late)) :
    perform s q = addWait u { q with started := true } := by
  unfold perform
  dsimp only
  rw [h]

section new
variable (hs : portServes s = true) (hw : s.mgmt.waiting = []) (hk : keptFor s r = none)
include hs hw hk

theorem request_busy (hb : busyNow s (asked s r op bytes) = true) : request s r op bytes = answer (heardIdle s r) (asked s r op bytes) stBusy [] :=
  (request_new hs hw hk).trans (if_pos hb)

theorem request_done {st : Byte} {v : List Byte} (hb : ¬ busyNow s (asked s r op bytes) = true) (h : serve (heardNew s r) (asked s r op bytes) = (u, .done st v)) :
    request s r op bytes = answer u (asked s r op bytes) st v := (request_new hs hw hk).trans ((if_neg hb).trans (perform_done h))

theorem request_late (hb : ¬ busyNow s (asked s r op bytes) = true) (h : serve (heardNew s r) (asked s r op bytes) = (u, .late)) :
    request s r op bytes = addWait u { asked s r op bytes with started := true } := (request_new hs hw hk).trans ((if_neg hb).trans (perform_late h))

end new

/-! ## What each request performs -/

theorem serve_discover : serve u (asked s r opDiscover bytes) = (u, .done stOk (discoverValue u)) := if_pos rfl

theorem serve_unknown {c : Byte} (hop : op ≠ opDiscover) (h : regAt r.index.toNat r.sub.toNat = .error c) : serve u (asked s r op bytes) = (u, .done c []) := by
  refine (if_neg hop).trans ?_
  have h' : regAt (asked s r op bytes).req.index.toNat (asked s r op bytes).req.sub.toNat = .error c := h
  rw [h']

section known
variable (h : regAt r.index.toNat r.sub.toNat = .ok e)
include h

/-- A request of an entry, by its operation. -/
theorem serve_known (hop : op ≠ opDiscover) : serve u (asked s r op bytes)
    = if op = opRead then serveRead u e r.inst.toNat
      else if op = opWrite then servedWrite e (entryPut .port r.index.toNat r.sub.toNat r.inst.toNat bytes u)
      else if op = opDescribe then (u, serveDescribe u r.index.toNat e r.inst.toNat)
      else if op = opSegRead then serveSegRead u r e (leNat bytes)
      else if op = opSegStart then serveSegStart u r e (leNat bytes)
      else if op = opSegWrite then serveSegWrite u r bytes
      else if op = opSegEnd then serveSegEnd u r e (leNat bytes)
      else serveSegAbort u r := by
  have h' : regAt (asked s r op bytes).req.index.toNat (asked s r op bytes).req.sub.toNat = .ok e := h
  refine (if_neg hop).trans ?_
  rw [h']
  rfl

theorem serve_read : serve u (asked s r opRead bytes) = serveRead u e r.inst.toNat := (serve_known h (by decide)).trans rfl

theorem serve_write : serve u (asked s r opWrite bytes) = servedWrite e (entryPut .port r.index.toNat r.sub.toNat r.inst.toNat bytes u) := (serve_known h (by decide)).trans rfl

theorem serve_describe : serve u (asked s r opDescribe bytes) = (u, serveDescribe u r.index.toNat e r.inst.toNat) := (serve_known h (by decide)).trans rfl

theorem serve_segRead : serve u (asked s r opSegRead bytes) = serveSegRead u r e (leNat bytes) := (serve_known h (by decide)).trans rfl

theorem serve_segStart : serve u (asked s r opSegStart bytes) = serveSegStart u r e (leNat bytes) := (serve_known h (by decide)).trans rfl

theorem serve_segWrite : serve u (asked s r opSegWrite bytes) = serveSegWrite u r bytes := (serve_known h (by decide)).trans rfl

theorem serve_segEnd : serve u (asked s r opSegEnd bytes) = serveSegEnd u r e (leNat bytes) := (serve_known h (by decide)).trans rfl

theorem serve_segAbort : serve u (asked s r opSegAbort bytes) = serveSegAbort u r := (serve_known h (by decide)).trans rfl

end known

/-! ## Parts of the operations -/

/-- A write served leaves what it wrote, with its place in the journal. -/
theorem servedWrite_done {t : State} {st : Byte} (h : st ≠ 0 ∨ lateBusy t e = false) : servedWrite e (t, st) = (journal t st, .done st []) := by
  refine if_neg fun hc => ?_
  have hb : lateBusy (journal t st) e = lateBusy t e := by
    unfold journal
    split <;> rfl
  exact h.elim (fun hne => hne hc.1) fun hf => Bool.noConfusion ((hb.symm.trans hc.2).symm.trans hf)

theorem servedWrite_late {t : State} (h : lateBusy t e = true) : servedWrite e (t, 0) = (journal t 0, .late) := if_pos ⟨rfl, h⟩

theorem journal_rest (t : State) (st : Byte) : (journal t st).tiles = t.tiles ∧ (journal t st).regions = t.regions ∧ (journal t st).jobs = t.jobs
    ∧ (journal t st).mgmt = t.mgmt ∧ (journal t st).fw.appImage = t.fw.appImage ∧ (journal t st).sec = t.sec
    ∧ (journal t st).fw.journal = t.fw.journal + if st = 0 then 1 else 0 := by
  unfold journal
  split
  · next h => exact ⟨rfl, rfl, rfl, rfl, rfl, rfl, congrArg (t.fw.journal + ·) (if_pos h).symm⟩
  · next h => exact ⟨rfl, rfl, rfl, rfl, rfl, rfl, (congrArg (t.fw.journal + ·) (if_neg h : (if st = 0 then 1 else 0) = 0)).symm⟩

theorem serveRead_eq (he : ∀ j, e ≠ .image j) {inst : Nat} : serveRead u e inst
    = ((regRead u e inst).1, match (regRead u e inst).2 with | .ok bs => .done stOk bs | .error c => .done c []) := by
  unfold serveRead
  split
  · next j => exact absurd rfl (he j)
  · rfl

/-- The transfer of an entry, once it stands last among those of other entries. -/
theorem segOf_added {x : SegXfer} (hu : u.mgmt.segs = otherSegs s r ++ [x]) (hi : x.index = r.index) (hsub : x.sub = r.sub) (hn : x.inst = r.inst) : segOf u r = some x := by
  have hnone : (otherSegs s r).find? (fun x => decide (x.index = r.index ∧ x.sub = r.sub ∧ x.inst = r.inst)) = none :=
    List.find?_eq_none.mpr fun y hy => Bool.eq_false_iff.mp ((Bool.not_eq_true' _).mp (List.mem_filter.mp hy).2)
  unfold segOf
  rw [hu, List.find?_append, hnone, Option.none_or]
  exact List.find?_cons_of_pos (decide_eq_true ⟨hi, hsub, hn⟩)

theorem segOf_closed (hu : u.mgmt.segs = otherSegs s r) : segOf u r = none := by
  unfold segOf
  rw [hu]
  exact List.find?_eq_none.mpr fun y hy => Bool.eq_false_iff.mp ((Bool.not_eq_true' _).mp (List.mem_filter.mp hy).2)

theorem segOf_key {x : SegXfer} (h : segOf s r = some x) : x.index = r.index ∧ x.sub = r.sub ∧ x.inst = r.inst := by
  have hd := List.find?_some (h : s.mgmt.segs.find? (fun x => decide (x.index = r.index ∧ x.sub = r.sub ∧ x.inst = r.inst)) = some x)
  exact of_decide_eq_true hd

theorem openSeg_free {snap : Bool} {n : Nat} {parts : SMap (List Byte)} (h : (otherSegs u r).length < 4) : ∃ t, openSeg u r snap n parts = some t
    ∧ t.mgmt.segs = otherSegs u r ++ [{ index := r.index, sub := r.sub, inst := r.inst, snap, size := n, parts, lastAt := u.mod.time }] :=
  ⟨_, if_neg (Nat.not_le.mpr h), rfl⟩

theorem openSeg_full {snap : Bool} {n : Nat} {parts : SMap (List Byte)} (h : 4 ≤ (otherSegs u r).length) : openSeg u r snap n parts = none := if_pos h

/-! ## Each request's response -/

/-- A response to a request (R524). -/
def respTo (r : DdpReq) (op : Byte) (offset : W32) (st : Byte) (value : List Byte) : DdpMsg :=
  { op, status := st, index := r.index, sub := r.sub, inst := r.inst, seq := r.seq, offset, value, dest := r.src }

/-- The request is answered with the message, in a state of which P holds. -/
def Responds (s : State) (i : Instr) (m : DdpMsg) (P : State → Prop) : Prop := Goes (exec i s) fun t => t.mgmt.outQueue.getLast? = some m ∧ P t

section served
variable {i : Instr} {st : Byte} {v : List Byte} {P : State → Prop}
variable (hs : portServes s = true) (hw : s.mgmt.waiting = []) (hk : keptFor s r = none)
include hs hw hk

theorem responds_busy (hi : exec i s = .next (request s r op bytes)) (hb : busyNow s (asked s r op bytes) = true) :
    Responds s i (replyTo (asked s r op bytes) (op + 0x80) stBusy []) fun _ => True :=
  ⟨_, hi.trans (congrArg _ (request_busy hs hw hk hb)), answer_last .., trivial⟩

theorem responds_done (hi : exec i s = .next (request s r op bytes)) (hb : ¬ busyNow s (asked s r op bytes) = true)
    (h : serve (heardNew s r) (asked s r op bytes) = (u, .done st v)) (hP : P (answer u (asked s r op bytes) st v)) :
    Responds s i (replyTo (asked s r op bytes) (op + 0x80) st v) P :=
  ⟨_, hi.trans (congrArg _ (request_done hs hw hk hb h)), answer_last .., hP⟩

theorem discover_busy (hb : swapping s = true) : Responds s (.discover r) (respTo r 0x89 0 stBusy []) fun _ => True :=
  responds_busy (op := opDiscover) (bytes := []) hs hw hk rfl (busyNow_discover.trans hb)

theorem discover_responds (hb : swapping s = false) :
    Responds s (.discover r) (respTo r 0x89 0 0 (discoverValue s)) fun t => t.mgmt.requests = s.mgmt.requests + 1 :=
  responds_done (op := opDiscover) (bytes := []) hs hw hk rfl (by rw [busyNow_discover, hb]; exact Bool.false_ne_true) serve_discover rfl

/-- While the port is busy, every request of an entry is answered so. -/
theorem entries_busy {size crc : W32} {len : Nat} (hb : swapping s = true ∨ secureCopies s = [] ∧ Config.needsStore r.index r.sub = true) :
    Responds s (.ddpRead r) (respTo r 0x81 0 stBusy []) (fun _ => True) ∧ Responds s (.ddpWrite r bytes) (respTo r 0x82 0 stBusy []) (fun _ => True)
    ∧ Responds s (.describe r) (respTo r 0x83 0 stBusy []) (fun _ => True) ∧ Responds s (.segRead r len) (respTo r 0x84 r.offset stBusy []) (fun _ => True)
    ∧ Responds s (.segWriteStart r size) (respTo r 0x85 0 stBusy []) (fun _ => True) ∧ Responds s (.segWrite r bytes) (respTo r 0x86 r.offset stBusy []) (fun _ => True)
    ∧ Responds s (.segWriteEnd r crc) (respTo r 0x87 0 stBusy []) (fun _ => True) ∧ Responds s (.segAbort r) (respTo r 0x88 0 stBusy []) (fun _ => True) := by
  have hbusy {op : Byte} {bytes : List Byte} (hop : op ≠ opDiscover) : busyNow s (asked s r op bytes) = true := (busyNow_asked hop).mpr hb
  exact ⟨responds_busy (op := opRead) hs hw hk rfl (hbusy (by decide)), responds_busy (op := opWrite) hs hw hk rfl (hbusy (by decide)),
    responds_busy (op := opDescribe) hs hw hk rfl (hbusy (by decide)), responds_busy (op := opSegRead) hs hw hk rfl (hbusy (by decide)),
    responds_busy (op := opSegStart) hs hw hk rfl (hbusy (by decide)), responds_busy (op := opSegWrite) hs hw hk rfl (hbusy (by decide)),
    responds_busy (op := opSegEnd) hs hw hk rfl (hbusy (by decide)), responds_busy (op := opSegAbort) hs hw hk rfl (hbusy (by decide))⟩

section free
variable (hb : ¬ (swapping s = true ∨ secureCopies s = [] ∧ Config.needsStore r.index r.sub = true))
include hb

theorem entry_responds (hop : op ≠ opDiscover) (hi : exec i s = .next (request s r op bytes))
    (h : serve (heardNew s r) (asked s r op bytes) = (u, .done st v)) (hP : P (answer u (asked s r op bytes) st v)) :
    Responds s i (replyTo (asked s r op bytes) (op + 0x80) st v) P := responds_done hs hw hk hi (mt (busyNow_asked hop).mp hb) h hP

/-- A request of no entry is answered with what the entry's address lacks. -/
theorem entries_unknown {size crc : W32} {len : Nat} {c : Byte} (hat : regAt r.index.toNat r.sub.toNat = .error c) :
    Responds s (.ddpRead r) (respTo r 0x81 0 c []) (fun _ => True) ∧ Responds s (.ddpWrite r bytes) (respTo r 0x82 0 c []) (fun _ => True)
    ∧ Responds s (.describe r) (respTo r 0x83 0 c []) (fun _ => True) ∧ Responds s (.segRead r len) (respTo r 0x84 r.offset c []) (fun _ => True)
    ∧ Responds s (.segWriteStart r size) (respTo r 0x85 0 c []) (fun _ => True) ∧ Responds s (.segWrite r bytes) (respTo r 0x86 r.offset c []) (fun _ => True)
    ∧ Responds s (.segWriteEnd r crc) (respTo r 0x87 0 c []) (fun _ => True) ∧ Responds s (.segAbort r) (respTo r 0x88 0 c []) (fun _ => True) := by
  have hone {op : Byte} {bytes : List Byte} {i : Instr} (hop : op ≠ opDiscover) (hi : exec i s = .next (request s r op bytes)) :
      Responds s i (replyTo (asked s r op bytes) (op + 0x80) c []) fun _ => True := entry_responds hs hw hk hb hop hi (serve_unknown hop hat) trivial
  exact ⟨hone (op := opRead) (by decide) rfl, hone (op := opWrite) (by decide) rfl, hone (op := opDescribe) (by decide) rfl, hone (op := opSegRead) (by decide) rfl,
    hone (op := opSegStart) (by decide) rfl, hone (op := opSegWrite) (by decide) rfl, hone (op := opSegEnd) (by decide) rfl, hone (op := opSegAbort) (by decide) rfl⟩

section entry
variable (hat : regAt r.index.toNat r.sub.toNat = .ok e)
include hat

theorem describe_responds : if regNamed s e r.inst.toNat
    then Responds s (.describe r) (respTo r 0x83 0 0 (toLE 8 (descriptor r.index.toNat e).toNat)) fun _ => True
    else Responds s (.describe r) (respTo r 0x83 0 stNoObject []) fun _ => True := by
  have hserve : serve (heardNew s r) (asked s r opDescribe []) = (heardNew s r, if regNamed s e r.inst.toNat
      then .done stOk (toLE 8 (descriptor r.index.toNat e).toNat) else .done stNoObject []) := by
    rw [serve_describe hat]
    unfold serveDescribe
    rw [regNamed_heardNew]
  split
  · next hn => exact entry_responds (op := opDescribe) hs hw hk hb (by decide) rfl (hserve.trans (congrArg _ (if_pos hn))) trivial
  · next hn => exact entry_responds (op := opDescribe) hs hw hk hb (by decide) rfl (hserve.trans (congrArg _ (if_neg hn))) trivial

theorem read_responds {bs : List Byte} (he : ∀ j, e ≠ .image j) (h : regRead (heardNew s r) e r.inst.toNat = (u, .ok bs)) :
    Responds s (.ddpRead r) (respTo r 0x81 0 0 bs) fun _ => True := by
  have hserve := (serve_read (s := s) (u := heardNew s r) (bytes := []) hat).trans (serveRead_eq he)
  rw [h] at hserve
  exact entry_responds (op := opRead) hs hw hk hb (by decide) rfl hserve trivial

theorem read_fails {c : Byte} (he : ∀ j, e ≠ .image j) (h : regRead (heardNew s r) e r.inst.toNat = (u, .error c)) :
    Responds s (.ddpRead r) (respTo r 0x81 0 c []) fun _ => True := by
  have hserve := (serve_read (s := s) (u := heardNew s r) (bytes := []) hat).trans (serveRead_eq he)
  rw [h] at hserve
  exact entry_responds (op := opRead) hs hw hk hb (by decide) rfl hserve trivial

theorem write_responds (h : entryPut .port r.index.toNat r.sub.toNat r.inst.toNat bytes (heardNew s r) = (u, st)) (hst : st ≠ 0 ∨ lateBusy u e = false) :
    Responds s (.ddpWrite r bytes) (respTo r 0x82 0 st []) fun t => t.tiles = u.tiles ∧ t.regions = u.regions ∧ t.jobs = u.jobs
      ∧ t.fw.journal = u.fw.journal + (if st = 0 then 1 else 0) := by
  obtain ⟨htiles, hregions, hjobs, -, -, -, hjournal⟩ := journal_rest u st
  have hserve := serve_write (s := s) (u := heardNew s r) (bytes := bytes) hat
  rw [h, servedWrite_done hst] at hserve
  exact entry_responds (op := opWrite) hs hw hk hb (by decide) rfl hserve ⟨htiles, hregions, hjobs, hjournal⟩

/-- A write that is under way is answered once it ends. -/
theorem write_waits (h : entryPut .port r.index.toNat r.sub.toNat r.inst.toNat bytes (heardNew s r) = (u, st)) (hst : st = 0) (hl : lateBusy u e = true) :
    Goes (exec (.ddpWrite r bytes) s) fun t => t.mgmt.waiting = u.mgmt.waiting ++ [{ req := r, op := 2, bytes, started := true, pendAt := s.mod.time }] := by
  have hserve := serve_write (s := s) (u := heardNew s r) (bytes := bytes) hat
  rw [h, hst, servedWrite_late hl] at hserve
  refine ⟨_, congrArg Host.Outcome.next (request_late hs hw hk (mt (busyNow_asked (by decide)).mp hb) hserve), ?_⟩
  exact congrArg (fun m : Mgmt => m.waiting ++ _) (journal_rest u 0).2.2.2.1

/-! Segment reads (R530). -/

theorem segRead_entry {len : Nat} (h : serveSegRead (heardNew s r) r e (Nat.min len 65535) = (u, .done st v)) (hP : P (answer u (asked s r opSegRead (toLE 2 (Nat.min len 65535))) st v)) :
    Responds s (.segRead r len) (respTo r 0x84 r.offset st v) P := by
  have hn : leNat (toLE 2 (Nat.min len 65535)) = Nat.min len 65535 :=
    (leNat_toLE ..).trans (Nat.mod_eq_of_lt (Nat.lt_succ_of_le (Nat.min_le_right ..)))
  have hserve := serve_segRead (s := s) (u := heardNew s r) (bytes := toLE 2 (Nat.min len 65535)) hat
  rw [hn, h] at hserve
  exact entry_responds (op := opSegRead) hs hw hk hb (by decide) rfl hserve hP

theorem segRead_long {len : Nat} (h : 1024 < len) : Responds s (.segRead r len) (respTo r 0x84 r.offset stLength []) fun _ => True :=
  segRead_entry hs hw hk hb hat (if_pos (Nat.lt_min.mpr ⟨h, by decide⟩)) trivial

omit hs hw hk hb hat in
/-- A read of a length that is taken. -/
theorem serveSegRead_short {len : Nat} (h : len ≤ 1024) : serveSegRead u r e (Nat.min len 65535) = serveSegRead u r e len :=
  congrArg (serveSegRead u r e) (Nat.min_eq_left (h.trans (by decide)))

theorem segRead_access {len : Nat} (h : len ≤ 1024) (hd : isDomain e = false) : Responds s (.segRead r len) (respTo r 0x84 r.offset stAccess []) fun _ => True :=
  segRead_entry hs hw hk hb hat ((serveSegRead_short h).trans ((if_neg (Nat.not_lt.mpr h)).trans (if_pos (by rw [hd]; rfl)))) trivial

theorem segRead_snapshot {len : Nat} {bs : List Byte} (h : len ≤ 1024) (hd : isDomain e = true) (ho : r.offset = 0) (he : ∀ j, e ≠ .image j)
    (hg : regGate s e r.inst.toNat = none) (hv : domainVal s e = .ok bs) (hseg : (otherSegs s r).length < 4) :
    Responds s (.segRead r len) (respTo r 0x84 0 0 (bs.take len)) fun t => segOf t r
      = some { index := r.index, sub := r.sub, inst := r.inst, snap := true, size := bs.length, parts := mset [] [] 0 bs, lastAt := s.mod.time } := by
  have hg' : regGate (heardNew s r) e r.inst.toNat = none := regGate_heardNew.trans hg
  have hv' : domainVal (heardNew s r) e = .ok bs := domainVal_heardNew.trans hv
  have hfree : (otherSegs (heardNew s r) r).length < 4 := by
    rw [otherSegs_heardNew]
    exact hseg
  obtain ⟨t, hopen, hsegs⟩ := openSeg_free (snap := true) (n := bs.length) (parts := mset [] [] 0 bs) hfree
  have hserve : serveSegRead (heardNew s r) r e (Nat.min len 65535) = (t, .done stOk (bs.take len)) := by
    rw [serveSegRead_short h]
    unfold serveSegRead
    rw [if_neg (Nat.not_lt.mpr h), if_neg (by rw [hd]; exact Bool.false_ne_true), if_pos ho, hg', hv']
    dsimp only
    rw [hopen]
    split
    · next j => exact absurd rfl (he j)
    · rfl
  rw [← ho]
  exact segRead_entry hs hw hk hb hat hserve (segOf_added (s := heardNew s r) hsegs rfl rfl rfl)

theorem segRead_again {len : Nat} {x : SegXfer} (h : len ≤ 1024) (hd : isDomain e = true) (ho : r.offset ≠ 0) (hx : segOf s r = some x) (hsnap : x.snap = true) :
    Responds s (.segRead r len) (respTo r 0x84 r.offset 0 (((mget [] x.parts 0).drop r.offset.toNat).take len)) fun _ => True := by
  have hx' : segOf (heardNew s r) r = some x := segOf_heardNew.trans hx
  have hserve : serveSegRead (heardNew s r) r e (Nat.min len 65535)
      = (putSeg (heardNew s r) r x, .done stOk (((mget [] x.parts 0).drop r.offset.toNat).take len)) := by
    refine (serveSegRead_short h).trans ((if_neg (Nat.not_lt.mpr h)).trans ((if_neg (by rw [hd]; exact Bool.false_ne_true)).trans ((if_neg ho).trans ?_)))
    rw [hx']
    exact if_pos hsnap
  exact segRead_entry hs hw hk hb hat hserve trivial

/-! Segment writes (R529). -/

theorem segStart_entry {size : W32} (h : serveSegStart (heardNew s r) r e size.toNat = (u, .done st v)) (hP : P (answer u (asked s r opSegStart (toLE 4 size.toNat)) st v)) :
    Responds s (.segWriteStart r size) (respTo r 0x85 0 st v) P := by
  have hn : leNat (toLE 4 size.toNat) = size.toNat := (leNat_toLE ..).trans (Nat.mod_eq_of_lt size.isLt)
  have hserve := serve_segStart (s := s) (u := heardNew s r) (bytes := toLE 4 size.toNat) hat
  rw [hn, h] at hserve
  exact entry_responds (op := opSegStart) hs hw hk hb (by decide) rfl hserve hP

theorem segStart_refused {size : W32} {c : Byte} (h : domainRefusal s e r.inst.toNat = some c) :
    Responds s (.segWriteStart r size) (respTo r 0x85 0 c []) fun _ => True := by
  have h' : domainRefusal (heardNew s r) e r.inst.toNat = some c := domainRefusal_heardNew.trans h
  refine segStart_entry (u := heardNew s r) hs hw hk hb hat ?_ trivial
  unfold serveSegStart
  rw [h']

omit hs hw hk hb hat in
/-- A transfer that no refusal or length stops opens where one is free. -/
theorem serveSegStart_opens {n : Nat} (h : domainRefusal u e r.inst.toNat = none) (hlen : ¬ (regInfo e).size < n) {t : State} (ht : openSeg u r false n [] = some t) :
    serveSegStart u r e n = (t, .done stOk []) := by
  unfold serveSegStart
  rw [h]
  dsimp only
  rw [if_neg hlen, ht]

omit hs hw hk hb hat in
theorem serveSegStart_busy {n : Nat} (h : domainRefusal u e r.inst.toNat = none) (hlen : ¬ (regInfo e).size < n) (ht : openSeg u r false n [] = none) :
    serveSegStart u r e n = (u, .done stBusy []) := by
  unfold serveSegStart
  rw [h]
  dsimp only
  rw [if_neg hlen, ht]

omit hs hw hk hb hat in
theorem serveSegStart_long {n : Nat} (h : domainRefusal u e r.inst.toNat = none) (hlen : (regInfo e).size < n) :
    serveSegStart u r e n = (u, .done stLength []) := by
  unfold serveSegStart
  rw [h]
  exact if_pos hlen

theorem segStart_responds {size : W32} (h : domainRefusal s e r.inst.toNat = none) :
    if (regInfo e).size < size.toNat then Responds s (.segWriteStart r size) (respTo r 0x85 0 stLength []) fun _ => True
    else if 4 ≤ (otherSegs s r).length then Responds s (.segWriteStart r size) (respTo r 0x85 0 stBusy []) fun _ => True
    else Responds s (.segWriteStart r size) (respTo r 0x85 0 0 []) fun t => segOf t r
      = some { index := r.index, sub := r.sub, inst := r.inst, snap := false, size := size.toNat, parts := [], lastAt := s.mod.time } := by
  have h' : domainRefusal (heardNew s r) e r.inst.toNat = none := domainRefusal_heardNew.trans h
  split
  · next hlen => exact segStart_entry hs hw hk hb hat (serveSegStart_long h' hlen) trivial
  rename_i hlen
  split
  · next hfull =>
    rw [← otherSegs_heardNew] at hfull
    exact segStart_entry hs hw hk hb hat (serveSegStart_busy h' hlen (openSeg_full hfull)) trivial
  · next hfree =>
    rw [← otherSegs_heardNew] at hfree
    obtain ⟨t, ht, hsegs⟩ := openSeg_free (snap := false) (n := size.toNat) (parts := []) (Nat.not_le.mp hfree)
    exact segStart_entry hs hw hk hb hat (serveSegStart_opens h' hlen ht) (segOf_added (s := heardNew s r) hsegs rfl rfl rfl)

theorem segWrite_entry (h : serveSegWrite (heardNew s r) r bytes = (u, .done st v)) (hP : P (answer u (asked s r opSegWrite bytes) st v)) :
    Responds s (.segWrite r bytes) (respTo r 0x86 r.offset st v) P :=
  entry_responds (op := opSegWrite) hs hw hk hb (by decide) rfl ((serve_segWrite hat).trans h) hP

theorem segEnd_entry {crc : W32} (h : serveSegEnd (heardNew s r) r e crc.toNat = (u, .done st v)) (hP : P (answer u (asked s r opSegEnd (toLE 4 crc.toNat)) st v)) :
    Responds s (.segWriteEnd r crc) (respTo r 0x87 0 st v) P := by
  have hn : leNat (toLE 4 crc.toNat) = crc.toNat := (leNat_toLE ..).trans (Nat.mod_eq_of_lt crc.isLt)
  have hserve := serve_segEnd (s := s) (u := heardNew s r) (bytes := toLE 4 crc.toNat) hat
  rw [hn, h] at hserve
  exact entry_responds (op := opSegEnd) hs hw hk hb (by decide) rfl hserve hP

theorem segAbort_entry (h : serveSegAbort (heardNew s r) r = (u, .done st v)) (hP : P (answer u (asked s r opSegAbort []) st v)) :
    Responds s (.segAbort r) (respTo r 0x88 0 st v) P :=
  entry_responds (op := opSegAbort) hs hw hk hb (by decide) rfl ((serve_segAbort hat).trans h) hP

/-- Where no transfer of the entry is open. -/
theorem segments_closed {crc : W32} (h : segOf s r = none) : Responds s (.segWrite r bytes) (respTo r 0x86 r.offset stSegment []) (fun _ => True)
    ∧ Responds s (.segWriteEnd r crc) (respTo r 0x87 0 stSegment []) (fun _ => True) ∧ Responds s (.segAbort r) (respTo r 0x88 0 stSegment []) (fun _ => True) := by
  have h' : segOf (heardNew s r) r = none := segOf_heardNew.trans h
  refine ⟨segWrite_entry (u := heardNew s r) hs hw hk hb hat ?_ trivial, segEnd_entry (u := heardNew s r) hs hw hk hb hat ?_ trivial,
    segAbort_entry (u := heardNew s r) hs hw hk hb hat ?_ trivial⟩
  · unfold serveSegWrite
    rw [h']
  · unfold serveSegEnd
    rw [h']
  · unfold serveSegAbort
    rw [h']
    rfl

section open_
variable {x : SegXfer} (hx : segOf s r = some x)
include hx

theorem segAbort_responds : Responds s (.segAbort r) (respTo r 0x88 0 0 []) fun t => segOf t r = none := by
  have hx' : segOf (heardNew s r) r = some x := segOf_heardNew.trans hx
  exact segAbort_entry (u := closeSeg (heardNew s r) r) hs hw hk hb hat (if_pos (by rw [hx']; rfl)) (segOf_closed (s := heardNew s r) rfl)

variable (hsnap : x.snap = false)
include hsnap

/-- A segment that fits is a multiple of 1,024 bytes into the value, as long as what is left, and at most the eighth unanswered. -/
theorem segWrite_misfit (h : ¬ (r.offset.toNat % 1024 = 0 ∧ r.offset.toNat < x.size ∧ bytes.length = min 1024 (x.size - r.offset.toNat) ∧ unanswered s r < 8)) :
    Responds s (.segWrite r bytes) (respTo r 0x86 r.offset stSegment []) fun _ => True := by
  have hx' : segOf (heardNew s r) r = some x := segOf_heardNew.trans hx
  refine segWrite_entry (u := heardNew s r) hs hw hk hb hat ?_ trivial
  unfold serveSegWrite
  rw [hx', unanswered_heardNew]
  refine if_pos ?_
  simp only [hsnap, Bool.false_or, Bool.or_eq_true, decide_eq_true_eq]
  have hmin : Nat.min 1024 (x.size - r.offset.toNat) = min 1024 (x.size - r.offset.toNat) := rfl
  rw [hmin]
  omega

theorem segWrite_fits (h : r.offset.toNat % 1024 = 0 ∧ r.offset.toNat < x.size ∧ bytes.length = min 1024 (x.size - r.offset.toNat) ∧ unanswered s r < 8) :
    Responds s (.segWrite r bytes) (respTo r 0x86 r.offset 0 []) fun t =>
      segOf t r = some { x with parts := mset [] x.parts r.offset.toNat bytes, lastAt := s.mod.time } := by
  have hx' : segOf (heardNew s r) r = some x := segOf_heardNew.trans hx
  obtain ⟨hi, hsub, hn⟩ := segOf_key hx
  obtain ⟨hmod, hlt, hlen, hun⟩ := h
  refine segWrite_entry (u := putSeg (heardNew s r) r { x with parts := mset [] x.parts r.offset.toNat bytes }) hs hw hk hb hat ?_ (segOf_added (s := heardNew s r) rfl hi hsub hn)
  unfold serveSegWrite
  rw [hx', unanswered_heardNew]
  refine if_neg ?_
  simp only [hsnap, Bool.false_or, Bool.or_eq_true, decide_eq_true_eq]
  have hmin : Nat.min 1024 (x.size - r.offset.toNat) = min 1024 (x.size - r.offset.toNat) := rfl
  rw [hmin]
  omega

omit hs hw hk hb hat in
theorem serveSegEnd_open {n : Nat} : serveSegEnd (heardNew s r) r e n = match assemble x.size x.parts with
    | none => (putSeg (heardNew s r) r x, .done stSegment [])
    | some bs => if (crc32 bs).toNat ≠ n then (closeSeg (heardNew s r) r, .done stSegment [])
      else servedWrite e (domainPut e r.inst.toNat bs (closeSeg (heardNew s r) r)) := by
  have hx' : segOf (heardNew s r) r = some x := segOf_heardNew.trans hx
  unfold serveSegEnd
  rw [hx']
  exact if_neg (by rw [hsnap]; exact Bool.false_ne_true)

theorem segEnd_gap {crc : W32} (h : assemble x.size x.parts = none) : Responds s (.segWriteEnd r crc) (respTo r 0x87 0 stSegment []) fun _ => True := by
  have hserve := serveSegEnd_open (e := e) (n := crc.toNat) hx hsnap
  rw [h] at hserve
  exact segEnd_entry hs hw hk hb hat hserve trivial

theorem segEnd_badCrc {crc : W32} {bs : List Byte} (h : assemble x.size x.parts = some bs) (hc : crc32 bs ≠ crc) :
    Responds s (.segWriteEnd r crc) (respTo r 0x87 0 stSegment []) fun t => segOf t r = none := by
  have hserve := serveSegEnd_open (e := e) (n := crc.toNat) hx hsnap
  rw [h] at hserve
  exact segEnd_entry hs hw hk hb hat (hserve.trans (if_pos fun hn => hc (BitVec.eq_of_toNat_eq hn))) (segOf_closed (s := heardNew s r) rfl)

theorem segEnd_responds {crc : W32} {bs : List Byte} (h : assemble x.size x.parts = some bs) (hc : crc32 bs = crc)
    (hput : domainPut e r.inst.toNat bs (closeSeg (heardNew s r) r) = (u, st)) (hst : st ≠ 0 ∨ lateBusy u e = false) :
    Responds s (.segWriteEnd r crc) (respTo r 0x87 0 st []) fun t => t.fw.appImage = u.fw.appImage ∧ t.sec = u.sec := by
  obtain ⟨-, -, -, -, himage, hsec, -⟩ := journal_rest u st
  have hserve := serveSegEnd_open (e := e) (n := crc.toNat) hx hsnap
  rw [h] at hserve
  have hwrite := hserve.trans (if_neg (by rw [hc]; exact not_not_intro rfl))
  rw [hput, servedWrite_done hst] at hwrite
  exact segEnd_entry hs hw hk hb hat hwrite ⟨himage, hsec⟩

end open_

end entry

end free

end served

/-- Each request of the list is one of the port's. -/
theorem exec_eq_request {size crc : W32} {len : Nat} {i : Instr} (h : i ∈ [Instr.ddpRead r, .ddpWrite r bytes, .describe r, .segRead r len, .segWriteStart r size,
    .segWrite r bytes, .segWriteEnd r crc, .segAbort r, .discover r]) : ∃ op bs, exec i s = .next (request s r op bs) := by
  simp only [List.mem_cons, List.not_mem_nil, or_false] at h
  rcases h with rfl | rfl | rfl | rfl | rfl | rfl | rfl | rfl | rfl <;> exact ⟨_, _, rfl⟩

end port

/-- Settles O50: first where the port does not serve and a repeat; then a new request while the port is busy, one of no entry, and each request of an entry. -/
theorem managementRequests : Obligations.ManagementRequests := by
  intro s r bytes size crc len
  dsimp only
  refine ⟨fun hs i hi => ?closed, fun hs hw => ⟨fun m hm i hi => ?again, fun hk => ⟨discover_busy hs hw hk, entries_busy hs hw hk, discover_responds hs hw hk,
    fun c hb hat => entries_unknown hs hw hk hb hat, fun e hb hat => ⟨describe_responds hs hw hk hb hat, fun u bs he => read_responds hs hw hk hb hat he,
      fun u c he => read_fails hs hw hk hb hat he, fun u st h => ⟨write_responds hs hw hk hb hat h, write_waits hs hw hk hb hat h⟩, segRead_long hs hw hk hb hat,
      segRead_access hs hw hk hb hat, fun bs => segRead_snapshot hs hw hk hb hat, fun x => segRead_again hs hw hk hb hat, fun c => segStart_refused hs hw hk hb hat,
      segStart_responds hs hw hk hb hat, segments_closed hs hw hk hb hat, fun x hx => ⟨segAbort_responds hs hw hk hb hat hx, fun hn => ⟨⟨segWrite_misfit hs hw hk hb hat hx hn,
        segWrite_fits hs hw hk hb hat hx hn⟩, segEnd_gap hs hw hk hb hat hx hn, fun bs => segEnd_badCrc hs hw hk hb hat hx hn, fun bs u st => segEnd_responds hs hw hk hb hat hx hn⟩⟩⟩⟩⟩⟩
  case closed =>
    obtain ⟨op, bs, he⟩ := exec_eq_request hi
    exact he.trans (congrArg _ (request_closed hs))
  case again =>
    obtain ⟨op, bs, he⟩ := exec_eq_request hi
    exact ⟨_, he.trans (congrArg _ (request_repeat hs hw hm)), by simp only [queueMsg, setMgmt, heardIdle, hear, and_self]⟩

end Sys2Proof.Machine
end

section
/-!
PROOFS of the statements of the family '18_dictionary.md': loads, stores and moves of the control-die window (R534-R537).
-/
namespace Sys2Proof.Machine
open Sys2Proof

section maps
variable {α : Type} {m : SMap α} {k : Nat} {d v w : α}

theorem merase_merase_same : merase (merase m k) k = merase m k := (List.filter_filter ..).trans (congrArg (m.filter ·) (funext fun _ => Bool.and_self _))

/-- What is put in anew goes out again. -/
theorem merase_mins_fresh (h : ∀ e ∈ m, e.1 ≠ k) : merase (mins k v m) k = m := by
  have hself : ∀ l : SMap α, (∀ e ∈ l, e.1 ≠ k) → merase l k = l := fun l hl => List.filter_eq_self.mpr fun e he => bne_iff_ne.mpr (hl e he)
  have hcut : ∀ l : SMap α, merase ((k, v) :: l) k = merase l k := fun l => List.filter_cons_of_neg (by simp)
  induction m with
  | nil => exact hcut []
  | cons e l ih =>
    obtain ⟨a, x⟩ := e
    have hl : ∀ e ∈ l, e.1 ≠ k := fun e he => h e (List.mem_cons_of_mem _ he)
    unfold mins
    split
    · exact (hcut _).trans (hself _ h)
    · have hstay : merase ((a, x) :: mins k v l) k = (a, x) :: merase (mins k v l) k :=
        List.filter_cons_of_pos (p := fun e : Nat × α => e.1 != k) (bne_iff_ne.mpr (h _ List.mem_cons_self))
      exact hstay.trans (congrArg ((a, x) :: ·) (ih hl))

/-- Of two writes to one key the later stands. -/
theorem mset_mset_same [DecidableEq α] : mset d (mset d m k v) k w = mset d m k w := by
  have he : merase (mset d m k v) k = merase m k := by
    unfold mset
    split
    · exact merase_merase_same
    · exact merase_mins_fresh (merase_fresh m k)
  unfold mset at he ⊢
  rw [he]

end maps

/-! ## WIN.STATUS (R536) -/

/-- The window of core c with nothing under way. -/
def winIdle (s : State) (c : Nat) : State := putWin s c { getWin s c with waits := [] }

/-- The window of core c with a move stored in WIN.DOMAIN. -/
def winAsked (s : State) (c : Nat) (v : BitVec 256) : State :=
  putWin s c { getWin s c with waits := [], domain := v &&& ~~~ (maskAt 256 64 64 ||| maskAt 256 8 16) }

/-- A write that completes is counted, with its status as the last and, where none was kept, as the first. -/
def Counted (w w' : WinCore) (st : Byte) : Prop := w'.done = w.done + 1 ∧ w'.last = st ∧ w'.first = (if w.first = 0 then st else w.first)

/-- The command completes with a status, counted for core c, in a state of which P holds. -/
def Completes (s : State) (c : Nat) (i : Instr) (st : Byte) (P : State → Prop) : Prop :=
  Goes (exec i s) fun t => t.status = st ∧ Counted (getWin s c) (getWin t c) st ∧ P t

/-- No write of core c has been counted since s. -/
def Uncounted (s u : State) (c : Nat) : Prop := (getWin u c).done = (getWin s c).done ∧ (getWin u c).first = (getWin s c).first

/-- The tiles, module registers, regions and jobs of t are those of s. -/
def WinLeaves (s t : State) : Prop := t.tiles = s.tiles ∧ t.mod = s.mod ∧ t.regions = s.regions ∧ t.jobs = s.jobs

section window
variable {s t u : State} {c : Nat} {w w' : WinCore} {i : Instr} {st : Byte} {P : State → Prop}

theorem getWin_putWin (s : State) (c : Nat) (w : WinCore) : getWin (putWin s c w) c = w := mget_mset_same ..

theorem putWin_putWin (s : State) (c : Nat) (w w' : WinCore) : putWin (putWin s c w) c w' = putWin s c w' :=
  congrArg (fun m => ({ s with win := m } : State)) mset_mset_same

theorem getWin_of_win (h : u.win = (putWin s c w).win) : getWin u c = w :=
  (congrArg (fun m => mget WinCore.reset m c) h).trans (getWin_putWin s c w)

theorem Uncounted.of_win (h : u.win = (putWin s c w).win) (hd : w.done = (getWin s c).done) (hf : w.first = (getWin s c).first) : Uncounted s u c := by
  unfold Uncounted
  rw [getWin_of_win h]
  exact ⟨hd, hf⟩

theorem Uncounted.same (h : u.win = s.win) : Uncounted s u c :=
  have hw : getWin u c = getWin s c := congrArg (fun m => mget WinCore.reset m c) h
  ⟨congrArg WinCore.done hw, congrArg WinCore.first hw⟩

theorem completes_counted (hi : exec i s = .next (complete u c st)) (hu : Uncounted s u c) (hP : P (complete u c st)) : Completes s c i st P := by
  obtain ⟨hd, hf⟩ := hu
  have hw : getWin (complete u c st) c = { getWin u c with done := (getWin u c).done + 1, first := if (getWin u c).first = 0 then st else (getWin u c).first, last := st } :=
    getWin_putWin u c _
  refine ⟨_, hi, rfl, ?_, hP⟩
  rw [hw]
  unfold Counted
  dsimp only
  rw [hd, hf]
  exact ⟨rfl, rfl, rfl⟩

theorem WinLeaves.trans (h : WinLeaves s t) (k : WinLeaves t u) : WinLeaves s u := by
  obtain ⟨h1, h2, h3, h4⟩ := h
  obtain ⟨k1, k2, k3, k4⟩ := k
  exact ⟨k1.trans h1, k2.trans h2, k3.trans h3, k4.trans h4⟩

theorem putWin_leaves (s : State) (c : Nat) (w : WinCore) : WinLeaves s (putWin s c w) := ⟨rfl, rfl, rfl, rfl⟩

theorem complete_leaves (s : State) (c : Nat) (st : Byte) : WinLeaves s (complete s c st) := ⟨rfl, rfl, rfl, rfl⟩

theorem settleWin_idle (h : (getWin s c).waits = []) : settleWin s c = winIdle s c := by
  unfold settleWin
  rw [h]
  rfl

theorem getWin_winIdle : getWin (winIdle s c) c = { getWin s c with waits := [] } := getWin_putWin ..

/-! ## Loads and staged stores (R535) -/

section cores
variable {core : Fin 18} {a : BitVec 46} {v : W64} {d : BitVec 256}

theorem exec_window_stopped (h : ¬ coresRun s = true) : exec (.windowLoad core a) s = .next s ∧ exec (.windowStoreStage core a v) s = .next s
    ∧ exec (.windowStoreCommit core a v) s = .next s
    ∧ ∀ m ∈ [(1, Instr.winDomainRead core d), (2, .winDomainWrite core d), (3, .winDomainCommit core d)], exec m.2 s = .next s := by
  refine ⟨congrArg Host.Outcome.next (if_neg h), congrArg Host.Outcome.next (if_neg fun hc => h hc.1), congrArg Host.Outcome.next (if_neg fun hc => h hc.1), ?_⟩
  simp only [List.forall_mem_cons]
  exact ⟨congrArg Host.Outcome.next (if_neg h), congrArg Host.Outcome.next (if_neg h), congrArg Host.Outcome.next (if_neg h), List.forall_mem_nil _⟩

section running
variable (hr : coresRun s = true) (hw : (getWin s core).waits = [])
include hr

include hw in
/-- A load of word 0 captures the slot. -/
theorem exec_windowLoad_first {bs : List Byte} (ha : waWord a = 0) (h : slotValue (winIdle s core) a = (u, bs)) :
    Goes (exec (.windowLoad core a) s) fun t => (getWin t core).loaded = BitVec.ofNat 64 (leNat (bs.take 8)) ∧ mget [] (getWin t core).caps (waSlot a) = bs
      ∧ t.tiles = u.tiles := by
  have hload : windowLoad s core a = putWin u core
      { getWin u core with caps := mset [] (getWin u core).caps (waSlot a) bs, loaded := BitVec.ofNat 64 (leNat (bs.take 8)) } := by
    unfold windowLoad
    rw [settleWin_idle hw]
    dsimp only
    rw [if_pos ha, h]
  refine ⟨_, congrArg Host.Outcome.next ((if_pos hr).trans hload), ?_⟩
  beta_reduce
  rw [getWin_putWin]
  exact ⟨rfl, mget_mset_same .., rfl⟩

include hw in
/-- A load of another word returns the capture. -/
theorem exec_windowLoad_later (ha : waWord a ≠ 0) : Goes (exec (.windowLoad core a) s) fun t => WinLeaves s t
    ∧ (getWin t core).loaded = BitVec.ofNat 64 (leNat (((mget [] (getWin s core).caps (waSlot a)).drop (8 * waWord a)).take 8)) := by
  have hload : windowLoad s core a = putWin (winIdle s core) core { getWin s core with
      waits := [], loaded := BitVec.ofNat 64 (leNat (((mget [] (getWin s core).caps (waSlot a)).drop (8 * waWord a)).take 8)) } := by
    unfold windowLoad
    rw [settleWin_idle hw]
    dsimp only
    rw [if_neg ha, getWin_winIdle]
  refine ⟨_, congrArg Host.Outcome.next ((if_pos hr).trans hload), ⟨rfl, rfl, rfl, rfl⟩, ?_⟩
  rw [getWin_putWin]

omit hr in
theorem exec_windowStoreStage_first (ha : waWord a = 0) : exec (.windowStoreStage core a v) s = .next s := congrArg Host.Outcome.next (if_neg fun hc => hc.2 ha)

omit hr in
theorem exec_windowStoreCommit_later (ha : waWord a ≠ 0) : exec (.windowStoreCommit core a v) s = .next s := congrArg Host.Outcome.next (if_neg fun hc => ha hc.2)

theorem exec_windowStoreStage_closed (ha : waWord a ≠ 0) (hc : slotClosed a = true) : Completes s core (.windowStoreStage core a v) stAccess (WinLeaves s) :=
  completes_counted (congrArg Host.Outcome.next ((if_pos ⟨hr, ha⟩).trans (if_pos hc))) (Uncounted.same rfl) ⟨rfl, rfl, rfl, rfl⟩

theorem exec_windowStoreStage_open (ha : waWord a ≠ 0) (hc : slotClosed a = false) : Goes (exec (.windowStoreStage core a v) s) fun t => WinLeaves s t
    ∧ t.status = s.status ∧ (getWin t core).stageSlot = waSlot a ∧ (waWord a, v) ∈ (getWin t core).stage ∧ (getWin t core).done = (getWin s core).done := by
  refine ⟨_, congrArg Host.Outcome.next ((if_pos ⟨hr, ha⟩).trans (if_neg (by rw [hc]; exact Bool.false_ne_true))), ⟨rfl, rfl, rfl, rfl⟩, rfl, ?_⟩
  rw [getWin_putWin]
  exact ⟨rfl, List.mem_append_right _ List.mem_cons_self, rfl⟩

/-! ## Committed stores (R535, R536) -/

/-- The window of core c with nothing staged. -/
def winUnstaged (s : State) (c : Nat) : State := putWin s c { getWin s c with waits := [], stage := [], stageSlot := 0 }

omit hr in
theorem wholeValue_word {size x : Nat} (h : size ≤ 8) : wholeValue size x [] u = (x, u) := by
  have hl : (List.range ((size + 7) / 8)).drop 1 = [] := List.drop_eq_nil_of_le (by rw [List.length_range]; omega)
  unfold wholeValue
  rw [hl]
  rfl

omit hr in
theorem slotClosed_listed (h : slotClosed a = true) : ∃ e, regAt (waIndex a) (waSub a) = .ok e := by
  unfold slotClosed at h
  split at h
  · next e he => exact ⟨e, he⟩
  · exact absurd h Bool.false_ne_true

omit hr in
theorem winUnstaged_of_idle : putWin (winIdle s c) c { getWin (winIdle s c) c with stage := [], stageSlot := 0 } = winUnstaged s c := by
  rw [getWin_winIdle]
  exact putWin_putWin ..

omit hr in
theorem winOutcome_done {index sub inst : Nat} {e : Reg} (h : st ≠ 0 ∨ lateBusy u e = false) : winOutcome u c index sub inst e st = complete u c st :=
  if_neg fun hc => h.elim (fun hn => hn hc.1) fun hf => Bool.noConfusion (hc.2.symm.trans hf)

section commit
variable (ha : waWord a = 0) (h0 : waIndex a ≠ 0x1F00) (h1 : waIndex a ≠ 0x1F01)
include hr hw ha h0 h1

theorem exec_windowStoreCommit_unlisted {e : Byte} (hreg : regAt (waIndex a) (waSub a) = .error e) :
    Completes s core (.windowStoreCommit core a v) e fun t => WinLeaves s t ∧ (getWin t core).stage = [] := by
  have hcommit : commitWord s core a v = complete (winUnstaged s core) core e := by
    unfold commitWord
    rw [settleWin_idle hw]
    dsimp only
    rw [winUnstaged_of_idle, if_neg (not_or.mpr ⟨h0, h1⟩), hreg]
  refine completes_counted (congrArg Host.Outcome.next ((if_pos ⟨hr, ha⟩).trans hcommit)) (.of_win rfl rfl rfl) ⟨(putWin_leaves s core _).trans (complete_leaves _ core e), ?_⟩
  have hget := getWin_putWin (winUnstaged s core) core { getWin (winUnstaged s core) core with
    done := (getWin (winUnstaged s core) core).done + 1, last := e
    first := if (getWin (winUnstaged s core) core).first = 0 then e else (getWin (winUnstaged s core) core).first }
  exact (congrArg WinCore.stage hget).trans (congrArg WinCore.stage (getWin_putWin s core _))

theorem exec_windowStoreCommit_closed (hc : slotClosed a = true) : Completes s core (.windowStoreCommit core a v) stAccess (WinLeaves s) := by
  obtain ⟨e, hreg⟩ := slotClosed_listed hc
  have hcommit : commitWord s core a v = complete (winUnstaged s core) core stAccess := by
    unfold commitWord
    rw [settleWin_idle hw]
    dsimp only
    rw [winUnstaged_of_idle, if_neg (not_or.mpr ⟨h0, h1⟩), hreg]
    exact if_pos hc
  exact completes_counted (congrArg Host.Outcome.next ((if_pos ⟨hr, ha⟩).trans hcommit)) (.of_win rfl rfl rfl) ((putWin_leaves s core _).trans (complete_leaves _ core _))

/-- With no word staged, a value of at most 8 bytes is that of word 0. -/
theorem exec_windowStoreCommit_writes {e : Reg} (hreg : regAt (waIndex a) (waSub a) = .ok e) (hc : slotClosed a = false) (hst : (getWin s core).stage = [])
    (hsize : (regInfo e).size ≤ 8) (hput : regWrite (.core core) (waIndex a) (waSub a) (waInst a) e v.toNat (winUnstaged s core) = (u, st))
    (hwin : u.win = (winUnstaged s core).win) (hl : st ≠ 0 ∨ lateBusy u e = false) : Completes s core (.windowStoreCommit core a v) st fun t =>
      t.tiles = u.tiles ∧ t.mod = u.mod ∧ t.regions = u.regions ∧ t.power = u.power ∧ t.jobs = u.jobs := by
  have hstaged : (if (getWin (winIdle s core) core).stageSlot = waSlot a then (getWin (winIdle s core) core).stage.map fun (e : Nat × W64) => (e.1, e.2.toNat) else []) = [] := by
    rw [getWin_winIdle]
    dsimp only
    rw [hst]
    exact ite_self _
  have hcommit : commitWord s core a v = complete u core st := by
    unfold commitWord
    rw [settleWin_idle hw]
    dsimp only
    rw [winUnstaged_of_idle, if_neg (not_or.mpr ⟨h0, h1⟩), hreg, hstaged]
    dsimp only
    rw [if_neg (by rw [hc]; exact Bool.false_ne_true), wholeValue_word hsize]
    dsimp only
    rw [hput]
    exact winOutcome_done hl
  exact completes_counted (congrArg Host.Outcome.next ((if_pos ⟨hr, ha⟩).trans hcommit)) (.of_win hwin rfl rfl) ⟨rfl, rfl, rfl, rfl, rfl⟩

end commit

end running

end cores

/-! ## WIN.DOMAIN (R537) -/

section domain
variable {core : Fin 18} {d v : BitVec 256} {e : Reg} {k : Nat}

theorem extract_withOp {lo n : Nat} (h : 8 ≤ lo) (hn : lo + n ≤ 256) : (withOp d k).extractLsb' lo n = d.extractLsb' lo n := by
  refine BitVec.eq_of_getLsbD_eq fun i hi => ?_
  unfold withOp
  rw [BitVec.getLsbD_extractLsb', BitVec.getLsbD_extractLsb', getLsbD_setFld _ _ _ _ _ (by omega), if_neg (by omega)]

theorem wdBuf_withOp : wdBuf (withOp d k) = wdBuf d := congrArg BitVec.toNat (extract_withOp (by decide) (by decide))
theorem wdLen_withOp : wdLen (withOp d k) = wdLen d := congrArg BitVec.toNat (extract_withOp (by decide) (by decide))
theorem wdOffset_withOp : wdOffset (withOp d k) = wdOffset d := congrArg BitVec.toNat (extract_withOp (by decide) (by decide))
theorem wdInst_withOp : wdInst (withOp d k) = wdInst d := extract_withOp (by decide) (by decide)
theorem wdIndex_withOp : wdIndex (withOp d k) = wdIndex d := extract_withOp (by decide) (by decide)
theorem wdSub_withOp : wdSub (withOp d k) = wdSub d := extract_withOp (by decide) (by decide)

theorem wdOp_withOp (h : k < 256) : wdOp (withOp d k) = k := by
  have hbits : (withOp d k).extractLsb' 0 8 = BitVec.ofNat 8 k := by
    refine BitVec.eq_of_getLsbD_eq fun i hi => ?_
    unfold withOp
    rw [BitVec.getLsbD_extractLsb', getLsbD_setFld _ _ _ _ _ (by omega), if_pos (by omega), BitVec.getLsbD_ofNat]
    simp [hi]
  exact (congrArg BitVec.toNat hbits).trans ((BitVec.toNat_ofNat k 8).trans (Nat.mod_eq_of_lt h))

theorem partsOf_withOp : partsOf u (withOp d k) = partsOf u d := by
  unfold partsOf
  rw [wdIndex_withOp, wdSub_withOp, wdInst_withOp]

theorem otherParts_withOp : otherParts u (withOp d k) = otherParts u d := by
  unfold otherParts
  rw [wdIndex_withOp, wdSub_withOp, wdInst_withOp]

theorem partRefusal_withOp : partRefusal u (withOp d k) e = partRefusal u d e := by
  unfold partRefusal
  rw [wdOffset_withOp, wdLen_withOp, wdInst_withOp]

theorem winAsked_of_idle : putWin (winIdle s c) c { getWin (winIdle s c) c with domain := v &&& ~~~ (maskAt 256 64 64 ||| maskAt 256 8 16) } = winAsked s c v := by
  rw [getWin_winIdle]
  exact putWin_putWin ..

section idle
variable (hw : (getWin s c).waits = [])
include hw

theorem winDomain_misplaced (h : wdBuf v % 64 ≠ 0) : winDomain s core c v = complete (winIdle s c) c stInvalid := by
  unfold winDomain
  rw [settleWin_idle hw]
  exact if_pos (.inr (.inr h))

/-- With nothing under way, a listed move of a placed buffer is performed. -/
theorem winDomain_moves (hop : 0 < k ∧ k ≤ 3) (h : wdBuf d % 64 = 0) : winDomain s core c (withOp d k) = move (winIdle s c) core c (withOp d k) := by
  obtain ⟨hpos, hle⟩ := hop
  have hmoving : moving (winIdle s c) c = false := by
    unfold moving
    rw [getWin_winIdle]
    rfl
  unfold winDomain
  rw [settleWin_idle hw, wdOp_withOp (by omega), wdBuf_withOp, if_neg (by omega), hmoving]
  rfl

end idle

theorem move_outside (h : bufferOk core (wdBuf d) (wdLen d) = false) :
    move (winIdle s c) core c (withOp d k) = complete (bufferRefused (winAsked s c (withOp d k)) core (wdBuf d)) c stWorld := by
  unfold move
  rw [winAsked_of_idle, wdBuf_withOp, wdLen_withOp]
  exact if_pos (by rw [h]; rfl)

section inside
variable (hb : bufferOk core (wdBuf d) (wdLen d) = true)
include hb

theorem move_unlisted {st : Byte} (h : regAt (wdIndex d).toNat (wdSub d).toNat = .error st) :
    move (winIdle s c) core c (withOp d k) = complete (winAsked s c (withOp d k)) c st := by
  unfold move
  rw [winAsked_of_idle, wdBuf_withOp, wdLen_withOp, wdIndex_withOp, wdSub_withOp]
  dsimp only
  rw [if_neg (by rw [hb]; exact Bool.false_ne_true), h]

variable (h : regAt (wdIndex d).toNat (wdSub d).toNat = .ok e)
include h

theorem move_read (hheld : readHeld s e = false) :
    move (winIdle s c) core c (withOp d 1) = complete (moveRead (winAsked s c (withOp d 1)) (withOp d 1) e).1 c (moveRead (winAsked s c (withOp d 1)) (withOp d 1) e).2 := by
  have hheld' : readHeld (winAsked s c (withOp d 1)) e = false := hheld
  unfold move
  rw [winAsked_of_idle, wdBuf_withOp, wdLen_withOp, wdIndex_withOp, wdSub_withOp]
  dsimp only
  rw [if_neg (by rw [hb]; exact Bool.false_ne_true), h, wdOp_withOp (by decide)]
  exact if_neg (by rw [hheld']; exact Bool.false_ne_true)

theorem move_part : move (winIdle s c) core c (withOp d 2)
    = complete (movePart (winAsked s c (withOp d 2)) (withOp d 2) e).1 c (movePart (winAsked s c (withOp d 2)) (withOp d 2) e).2 := by
  unfold move
  rw [winAsked_of_idle, wdBuf_withOp, wdLen_withOp, wdIndex_withOp, wdSub_withOp]
  dsimp only
  rw [if_neg (by rw [hb]; exact Bool.false_ne_true), h, wdOp_withOp (by decide)]
  rfl

theorem move_commit : move (winIdle s c) core c (withOp d 3)
    = winOutcome (moveCommit (winAsked s c (withOp d 3)) core (withOp d 3) e).1 c (wdIndex d).toNat (wdSub d).toNat (wdInst d).toNat e
      (moveCommit (winAsked s c (withOp d 3)) core (withOp d 3) e).2 := by
  unfold move
  rw [winAsked_of_idle, wdBuf_withOp, wdLen_withOp, wdIndex_withOp, wdSub_withOp, wdInst_withOp]
  dsimp only
  rw [if_neg (by rw [hb]; exact Bool.false_ne_true), h, wdOp_withOp (by decide)]
  rfl

end inside

/-! What each move reads and writes. -/

theorem worldErr_sev (unit : BitVec 4) (source : W16) (die : Nat) (job : Option (BitVec 2)) (info0 : Nat) : (worldErr unit source die job info0).sev ≠ 3 := by
  simp [worldErr]

theorem bufferRefused_recorded (s : State) (core : Fin 18) (pa : Nat) : Recorded s (bufferRefused s core pa) := by
  unfold bufferRefused
  split
  · exact .err s (worldErr_sev _ _ _ _ _) rfl
  · exact .refl s

/-- A refusal is no success. -/
theorem regGate_ne_ok {inst : Nat} : regGate s e inst ≠ some 0 := by
  unfold regGate
  split_ifs <;> decide

theorem domainRefusal_ne_ok {inst : Nat} : domainRefusal s e inst ≠ some 0 := by
  unfold domainRefusal
  split
  · next c hc => exact hc ▸ regGate_ne_ok
  · split_ifs
    · decide
    · split
      · split_ifs <;> decide
      · dsimp only
        split_ifs <;> decide
      · decide

theorem writeGate_ne_ok {inst : Nat} : writeGate s e inst ≠ some 0 := by
  unfold writeGate
  split
  · next c hc => exact hc ▸ regGate_ne_ok
  · split_ifs <;> decide

theorem partRefusal_ne_ok : partRefusal s d e ≠ some 0 := by
  have hgate : (if isDomain e = true then domainRefusal s e (wdInst d).toNat else writeGate s e (wdInst d).toNat) ≠ some 0 := by
    split
    exacts [domainRefusal_ne_ok, writeGate_ne_ok]
  unfold partRefusal
  dsimp only
  split
  · next c hc => exact hc ▸ hgate
  · split_ifs <;> decide

theorem movePart_refused {st : Byte} (h : partRefusal s d e = some st) : movePart s d e = (s, st) := by
  unfold movePart
  rw [h]

theorem movePart_kept {p : Nat} {rest : List Nat} {bs : List Byte} (h : partRefusal s d e = none) (hp : copiesOf s (wdBuf d) false = p :: rest)
    (hload : hbmLoad s p (wdLen d) none = (u, bs, 0)) : movePart s d e = (keepPart u d bs, 0) := by
  have hget : bufferGet s (wdBuf d) (wdLen d) = (u, bs, 0) := by
    unfold bufferGet
    rw [hp]
    exact hload
  unfold movePart
  rw [h]
  dsimp only
  rw [hget]
  rfl

/-- A part kept is found again at its offset. -/
theorem partsOf_keepPart {bs : List Byte} (hu : t.mgmt = (keepPart u v bs).mgmt) : mget [] (partsOf t v) (wdOffset v) = bs := by
  have hnone : (otherParts u v).find? (fun x => decide (x.index = wdIndex v ∧ x.sub = wdSub v ∧ x.inst = wdInst v)) = none :=
    List.find?_eq_none.mpr fun y hy => Bool.eq_false_iff.mp ((Bool.not_eq_true' _).mp (List.mem_filter.mp hy).2)
  have hparts : partsOf t v = mset [] (partsOf u v) (wdOffset v) bs := by
    have hmgmt : t.mgmt.parts = otherParts u v ++ [{ index := wdIndex v, sub := wdSub v, inst := wdInst v, snap := false, size := 0
                                                     parts := mset [] (partsOf u v) (wdOffset v) bs, lastAt := u.mod.time }] := congrArg (fun g : Mgmt => g.parts) hu
    have hfind : t.mgmt.parts.find? (fun x => decide (x.index = wdIndex v ∧ x.sub = wdSub v ∧ x.inst = wdInst v))
        = some { index := wdIndex v, sub := wdSub v, inst := wdInst v, snap := false, size := 0, parts := mset [] (partsOf u v) (wdOffset v) bs, lastAt := u.mod.time } := by
      rw [hmgmt, List.find?_append, hnone, Option.none_or]
      exact List.find?_cons_of_pos (decide_eq_true ⟨rfl, rfl, rfl⟩)
    unfold partsOf at hfind ⊢
    rw [hfind]
  rw [hparts]
  exact mget_mset_same ..

/-- A load that finds no error changes the stacks' counters alone. -/
theorem hbmLoad_leaves {p n : Nat} {bs : List Byte} (h : hbmLoad s p n none = (u, bs, 0)) : WinLeaves s u := by
  have hkeep : WinLeaves s (hbmGet s p n).1 := by
    unfold hbmGet
    refine List.foldlRecOn (motive := fun r : State × List Byte × Byte => WinLeaves s r.1) _ _ ⟨rfl, rfl, rfl, rfl⟩ fun r hr e _ => ?_
    dsimp only
    by_cases hup : stackUp r.1 (paStack e.1) = true
    · rw [if_pos hup]
      exact hr
    · rw [if_neg hup]
      exact hr
  have hst : (hbmGet s p n).2.2 = 0 := congrArg (fun r : State × List Byte × Byte => r.2.2) h
  have hu : (if (hbmGet s p n).2.2 = cHbmData then putErr (hbmGet s p n).1 (hbmDataErr p none false) else (hbmGet s p n).1) = u :=
    congrArg (fun r : State × List Byte × Byte => r.1) h
  rw [hst, if_neg (by decide)] at hu
  exact hu ▸ hkeep

/-! Each move of a core that has none under way. -/

section moves
variable (hr : coresRun s = true) (hw : (getWin s core).waits = [])
include hr hw

theorem exec_move_misplaced (h : wdBuf d % 64 ≠ 0) : ∀ m ∈ [(1, Instr.winDomainRead core d), (2, .winDomainWrite core d), (3, .winDomainCommit core d)],
    Completes s core m.2 stInvalid (WinLeaves s) := by
  have hone {i : Instr} {k : Nat} (hi : exec i s = .next (if coresRun s then winDomain s core core.val (withOp d k) else s)) :
      Completes s core i stInvalid (WinLeaves s) := by
    have hm : winDomain s core core (withOp d k) = complete (winIdle s core) core stInvalid := winDomain_misplaced hw (by rw [wdBuf_withOp]; exact h)
    exact completes_counted (hi.trans (congrArg Host.Outcome.next ((if_pos hr).trans hm))) (.of_win rfl rfl rfl) ((putWin_leaves s core _).trans (complete_leaves _ core _))
  simp only [List.forall_mem_cons]
  exact ⟨hone (k := 1) rfl, hone (k := 2) rfl, hone (k := 3) rfl, List.forall_mem_nil _⟩

variable (hbuf : wdBuf d % 64 = 0)
include hbuf

/-- A move that runs ends as the move of the idle window does. -/
theorem exec_move_eq {i : Instr} (hk : 0 < k ∧ k ≤ 3) (hi : exec i s = .next (if coresRun s then winDomain s core core.val (withOp d k) else s)) :
    exec i s = .next (move (winIdle s core) core core (withOp d k)) :=
  hi.trans (congrArg Host.Outcome.next ((if_pos hr).trans (winDomain_moves hw hk hbuf)))

theorem exec_move_outside (h : bufferOk core (wdBuf d) (wdLen d) = false) :
    ∀ m ∈ [(1, Instr.winDomainRead core d), (2, .winDomainWrite core d), (3, .winDomainCommit core d)], Completes s core m.2 stWorld (WinLeaves s) := by
  have hone {i : Instr} {k : Nat} (hk : 0 < k ∧ k ≤ 3) (hi : exec i s = .next (if coresRun s then winDomain s core core.val (withOp d k) else s)) :
      Completes s core i stWorld (WinLeaves s) := by
    have hrec := (bufferRefused_recorded (winAsked s core (withOp d k)) core (wdBuf d)).same
    have hwin : (bufferRefused (winAsked s core (withOp d k)) core (wdBuf d)).win = (winAsked s core (withOp d k)).win := by rw [hrec]
    have hleaves : WinLeaves (winAsked s core (withOp d k)) (bufferRefused (winAsked s core (withOp d k)) core (wdBuf d)) := by
      rw [hrec]
      exact ⟨rfl, rfl, rfl, rfl⟩
    exact completes_counted ((exec_move_eq hr hw hbuf hk hi).trans (congrArg Host.Outcome.next (move_outside h))) (.of_win hwin rfl rfl)
      ((putWin_leaves s core _).trans (hleaves.trans (complete_leaves _ core _)))
  simp only [List.forall_mem_cons]
  exact ⟨hone (k := 1) (by decide) rfl, hone (k := 2) (by decide) rfl, hone (k := 3) (by decide) rfl, List.forall_mem_nil _⟩

variable (hb : bufferOk core (wdBuf d) (wdLen d) = true)
include hb

theorem exec_move_unlisted {e : Byte} (h : regAt (wdIndex d).toNat (wdSub d).toNat = .error e) :
    ∀ m ∈ [(1, Instr.winDomainRead core d), (2, .winDomainWrite core d), (3, .winDomainCommit core d)], Completes s core m.2 e (WinLeaves s) := by
  have hone {i : Instr} {k : Nat} (hk : 0 < k ∧ k ≤ 3) (hi : exec i s = .next (if coresRun s then winDomain s core core.val (withOp d k) else s)) :
      Completes s core i e (WinLeaves s) :=
    completes_counted ((exec_move_eq hr hw hbuf hk hi).trans (congrArg Host.Outcome.next (move_unlisted hb h))) (.of_win rfl rfl rfl)
      ((putWin_leaves s core _).trans (complete_leaves _ core _))
  simp only [List.forall_mem_cons]
  exact ⟨hone (k := 1) (by decide) rfl, hone (k := 2) (by decide) rfl, hone (k := 3) (by decide) rfl, List.forall_mem_nil _⟩

variable (h : regAt (wdIndex d).toNat (wdSub d).toNat = .ok e)
include h

theorem exec_winDomainWrite_eq {st : Byte} (hm : movePart (winAsked s core (withOp d 2)) (withOp d 2) e = (u, st)) :
    exec (.winDomainWrite core d) s = .next (complete u core st) := by
  have hp := move_part (s := s) (c := core) hb h
  rw [hm] at hp
  exact (exec_move_eq hr hw hbuf (by decide) rfl).trans (congrArg Host.Outcome.next hp)

theorem exec_winDomainCommit_eq {st : Byte} (hm : moveCommit (winAsked s core (withOp d 3)) core (withOp d 3) e = (u, st)) (hl : st ≠ 0 ∨ lateBusy u e = false) :
    exec (.winDomainCommit core d) s = .next (complete u core st) := by
  have hp := move_commit (s := s) (c := core) hb h
  rw [hm] at hp
  exact (exec_move_eq hr hw hbuf (by decide) rfl).trans (congrArg Host.Outcome.next (hp.trans (winOutcome_done hl)))

theorem exec_move_refused {x : Byte} (hp : partRefusal s d e = some x) :
    Completes s core (.winDomainWrite core d) x (WinLeaves s) ∧ Completes s core (.winDomainCommit core d) x (WinLeaves s) := by
  have hne : x ≠ 0 := fun hx => partRefusal_ne_ok (hp.trans (congrArg some hx))
  have hpart (k : Nat) : movePart (winAsked s core (withOp d k)) (withOp d k) e = (winAsked s core (withOp d k), x) :=
    movePart_refused (partRefusal_withOp.trans hp)
  have hcommit : moveCommit (winAsked s core (withOp d 3)) core (withOp d 3) e = (winAsked s core (withOp d 3), x) := by
    unfold moveCommit
    rw [hpart 3]
    exact if_pos hne
  exact ⟨completes_counted (exec_winDomainWrite_eq hr hw hbuf hb h (hpart 2)) (.of_win rfl rfl rfl) ((putWin_leaves s core _).trans (complete_leaves _ core _)),
    completes_counted (exec_winDomainCommit_eq hr hw hbuf hb h hcommit (.inl hne)) (.of_win rfl rfl rfl) ((putWin_leaves s core _).trans (complete_leaves _ core _))⟩

/-- OP 2: the part read from the buffer is kept. -/
theorem exec_winDomainWrite_keeps {p : Nat} {rest : List Nat} {bs : List Byte} (hp : partRefusal s d e = none) (hc : copiesOf s (wdBuf d) false = p :: rest)
    (hload : hbmLoad (winAsked s core (withOp d 2)) p (wdLen d) none = (u, bs, 0)) (hwin : u.win = (winAsked s core (withOp d 2)).win) :
    Completes s core (.winDomainWrite core d) 0 fun t => WinLeaves s t ∧ mget [] (partsOf t d) (wdOffset d) = bs := by
  have hc' : copiesOf (winAsked s core (withOp d 2)) (wdBuf (withOp d 2)) false = p :: rest := by
    rw [wdBuf_withOp]
    exact hc
  have hload' : hbmLoad (winAsked s core (withOp d 2)) p (wdLen (withOp d 2)) none = (u, bs, 0) := by
    rw [wdLen_withOp]
    exact hload
  have hm := movePart_kept (s := winAsked s core (withOp d 2)) (e := e) (partRefusal_withOp.trans hp) hc' hload'
  have hleaves : WinLeaves u (keepPart u (withOp d 2) bs) := ⟨rfl, rfl, rfl, rfl⟩
  have hfound := partsOf_keepPart (t := complete (keepPart u (withOp d 2) bs) core 0) (u := u) (v := withOp d 2) (bs := bs) rfl
  rw [partsOf_withOp, wdOffset_withOp] at hfound
  exact completes_counted (exec_winDomainWrite_eq hr hw hbuf hb h hm) (.of_win hwin rfl rfl)
    ⟨(putWin_leaves s core _).trans ((hbmLoad_leaves hload).trans (hleaves.trans (complete_leaves _ core _))), hfound⟩

/-- OP 1: part of the value goes into the buffer. -/
theorem exec_winDomainRead_moves {bs : List Byte} {t : State} {st : Byte} (hheld : readHeld s e = false)
    (hv : moveValue (winAsked s core (withOp d 1)) e (wdInst d).toNat = (t, .ok bs))
    (hput : bufferPut t (wdBuf d) ((bs.drop (wdOffset d)).take (wdLen d)) = (u, st)) (hwin : u.win = (winAsked s core (withOp d 1)).win) :
    Completes s core (.winDomainRead core d) st fun t => t.hbm = u.hbm ∧ t.tiles = u.tiles ∧ t.sec = u.sec := by
  have hmove : moveRead (winAsked s core (withOp d 1)) (withOp d 1) e = (u, st) := by
    unfold moveRead
    rw [wdInst_withOp, hv]
    dsimp only
    rw [wdBuf_withOp, wdOffset_withOp, wdLen_withOp, hput]
  have hread := move_read (s := s) (c := core) hb h hheld
  rw [hmove] at hread
  exact completes_counted ((exec_move_eq hr hw hbuf (by decide) rfl).trans (congrArg Host.Outcome.next hread)) (.of_win hwin rfl rfl) ⟨rfl, rfl, rfl⟩

/-! OP 3: the whole value, once its parts leave no gap. -/

section commit
variable {t : State} (hm : movePart (winAsked s core (withOp d 3)) (withOp d 3) e = (t, 0))
include hm

theorem exec_winDomainCommit_gap (hwin : t.win = (winAsked s core (withOp d 3)).win) (hg : assemble (wdOffset d + wdLen d) (partsOf t d) = none) :
    Completes s core (.winDomainCommit core d) stSegment fun u => u.tiles = t.tiles ∧ u.jobs = t.jobs := by
  have hcommit : moveCommit (winAsked s core (withOp d 3)) core (withOp d 3) e = (t, stSegment) := by
    unfold moveCommit
    rw [hm]
    dsimp only
    rw [if_neg (show ¬ (0 : Byte) ≠ stOk from not_not_intro rfl), partsOf_withOp, wdOffset_withOp, wdLen_withOp, hg]
  exact completes_counted (exec_winDomainCommit_eq hr hw hbuf hb h hcommit (.inl (by decide))) (.of_win hwin rfl rfl) ⟨rfl, rfl⟩

theorem exec_winDomainCommit_writes {bs : List Byte} {st : Byte} (hg : assemble (wdOffset d + wdLen d) (partsOf t d) = some bs)
    (hput : (if isDomain e then domainPut e (wdInst d).toNat bs (setMgmt t fun g => { g with parts := otherParts t d })
      else entryPut (.core core) (wdIndex d).toNat (wdSub d).toNat (wdInst d).toNat bs (setMgmt t fun g => { g with parts := otherParts t d })) = (u, st))
    (hwin : u.win = (winAsked s core (withOp d 3)).win) (hl : st ≠ 0 ∨ lateBusy u e = false) : Completes s core (.winDomainCommit core d) st fun t =>
      t.tiles = u.tiles ∧ t.jobs = u.jobs ∧ t.regions = u.regions ∧ t.fw.appImage = u.fw.appImage := by
  have hcommit : moveCommit (winAsked s core (withOp d 3)) core (withOp d 3) e = (journal u st, st) := by
    unfold moveCommit
    rw [hm]
    dsimp only
    rw [if_neg (show ¬ (0 : Byte) ≠ stOk from not_not_intro rfl), partsOf_withOp, wdOffset_withOp, wdLen_withOp, hg]
    dsimp only
    rw [otherParts_withOp, wdInst_withOp, wdIndex_withOp, wdSub_withOp, hput]
  obtain ⟨htiles, hregions, hjobs, -, himage, -, -⟩ := journal_rest u st
  have hjwin : (journal u st).win = u.win := by
    unfold journal
    split <;> rfl
  have hjl : st ≠ 0 ∨ lateBusy (journal u st) e = false := hl.imp_right fun hf => by
    unfold journal
    split <;> exact hf
  exact completes_counted (exec_winDomainCommit_eq hr hw hbuf hb h hcommit hjl) (.of_win (hjwin.trans hwin) rfl rfl) ⟨htiles, hjobs, hregions, himage⟩

end commit

end moves

end domain

end window

/-- Settles O52: while the cores do not run; then loads, staged stores, committed stores, and the moves of WIN.DOMAIN. -/
theorem windowAccesses : Obligations.WindowAccesses := by
  intro s core a v d
  dsimp only
  refine ⟨exec_window_stopped, fun hr hw => ⟨fun u bs ha h _ => exec_windowLoad_first hr hw ha h, exec_windowLoad_later hr hw, exec_windowStoreStage_first,
    exec_windowStoreCommit_later, exec_windowStoreStage_closed hr, exec_windowStoreStage_open hr,
    fun ha h0 h1 => ⟨fun x => exec_windowStoreCommit_unlisted hr hw ha h0 h1, exec_windowStoreCommit_closed hr hw ha h0 h1,
      fun e u st => exec_windowStoreCommit_writes hr hw ha h0 h1⟩, fun m hm h => exec_move_misplaced hr hw h m hm,
    fun m hm hbuf h => exec_move_outside hr hw hbuf h m hm, fun hbuf hb => ⟨fun x => exec_move_unlisted hr hw hbuf hb, fun e x h => exec_move_refused hr hw hbuf hb h,
      fun e p rest bs u h hp hc hload hwin _ => exec_winDomainWrite_keeps hr hw hbuf hb h hp hc hload hwin,
      fun e t bs u st h hheld hv hput hwin => exec_winDomainRead_moves hr hw hbuf hb h hheld hv hput hwin,
      fun e t h hm hwin => ⟨exec_winDomainCommit_gap hr hw hbuf hb h hm hwin, fun bs u st hg hput hwin hl => exec_winDomainCommit_writes hr hw hbuf hb h hm hg hput hwin hl⟩⟩⟩⟩

end Sys2Proof.Machine
end
